-- ==== Sys2Proof/Word.lean ====
section
/-! DEFINITION. The word types of the model: bytes and the register widths the spec uses (R8, R9), and the
unit numbers of the module (scope chapter, 'Numbering'; R5). -/

namespace Sys2Proof

abbrev Byte := BitVec 8
abbrev Half := BitVec 16
abbrev Word32 := BitVec 32
abbrev Word := BitVec 64

/-- One byte at an address; the same type as the host's `Host.Cell`. -/
abbrev Cell := Nat × BitVec 8

/-- A PCIe function, 0 the physical one (R332). -/
abbrev Fn := Fin 64
/-- A section (R20). -/
abbrev Sec := Fin 8
/-- A module-wide core number, 12n + c. -/
abbrev CoreId := Fin 96
/-- A module-wide link number, 8n + k. -/
abbrev LinkId := Fin 64
/-- A module-wide stack number, 3n + s (R52). -/
abbrev StackId := Fin 24
/-- A mover, 8n + m (R378). -/
abbrev MoverId := Fin 64
/-- A partition number (R29). -/
abbrev PartId := Fin 8
/-- A context index (R374). -/
abbrev CtxId := Fin 512
/-- A queue index (R374). -/
abbrev QueueId := Fin 8192
/-- A tally index (R157). -/
abbrev TallyId := Fin 16384

end Sys2Proof
end

