-- ==== Sys2Proof/Syntax.lean ====
section
/-! DEFINITION. The commands of the block: one constructor of `Instr` per row of spec/opcode_table.json, in the table's
order. A row that the spec describes as an event carries, as operands, what the world outside the module brings to that
step: what a host wrote, what a link delivered, what a sensor read, which stored words read back wrong. -/

namespace Sys2Proof

/-- What errors in a stored word's symbols do (R54, R56): one is corrected, two are detected, and more than two may go
undetected, so that other data reads back. The last form spoils one read of the block on its way from HBM (R63). A poisoned word is
state, not an operand. -/
inductive ReadOutcome where
  | corrected (symbol : Fin 18)
  | uncorrectable
  | undetected (data : BitVec 128)
  | onPath
  deriving DecidableEq, Repr

/-- A 16-byte word, by a device address in it, that holds an error from this command on. -/
structure Hit where
  word : Nat
  outcome : ReadOutcome
  deriving DecidableEq, Repr

/-- The source of a Caoco command (R370): an inbound mailbox with the word's sequence field and, for the block form, the
bus address of its parameter block (R366); or an entry of a command queue at its position (R368). -/
inductive Via where
  | mbx (j : Fin 8) (seq : Byte) (block : Option Nat)
  | queue (q : QueueId) (pos : Word32)
  deriving DecidableEq, Repr

/-- A Caoco command's carrier: the issuing function, the source, the TOKEN of its block (R364, R376), and what the host
has stored in its own memory up to this moment, which the module's reads of host memory meet. -/
structure Req where
  fn : Fn
  via : Via
  token : Word32
  host : List Cell
  deriving DecidableEq, Repr

/-- A configuration access (R330): a read, a plain write, or the writes whose effect the spec names (Bus Master Enable
and VF Enable of R354, the resizable BAR2 of R332). -/
inductive CfgAccess where
  | read (off : BitVec 12)
  | write (off : BitVec 12) (value : Word32)
  | setBusMaster
  | setVfEnable
  | setBar2Size (log2GiB : Fin 11)
  deriving DecidableEq, Repr

/-- A request of TDISP that moves a TDI (R337), or a change that a locked TDI does not allow. -/
inductive TdispReq where
  | lock
  | start
  | stop
  | report
  | violation
  deriving DecidableEq, Repr

/-- A request of IDE key management (R337). -/
inductive IdeReq where
  | linkIde (active : Bool)
  | bindStream
  | unbindStream
  deriving DecidableEq, Repr

/-- A write to a 64-bit register by its halves (R10): both halves, the low one, or the high one. -/
inductive Lanes where
  | both
  | low
  | high
  deriving DecidableEq, Repr

/-- The conditions sampled with an outlier record or a Gravel mismatch (R208, R459): sensor in 1/8 °C, rail in mV,
A-clock in MHz, array load in 1/65,535, section power in W. -/
structure Cond where
  temp : Half
  voltage : Half
  aclk : Half
  load : Half
  power : Half
  deriving DecidableEq, Repr

/-- An accumulator that a cell computes wrongly (R137): the number of the output, row by row, and what its accumulator holds
instead, with the index of an ARG mode. Neither an array nor the witness signals it. -/
structure CellError where
  out : Nat
  value : BitVec 48
  index : Word32
  deriving DecidableEq, Repr

/-- What goes wrong beside its reads while a unit computes a tile: a feeder or drain word that its code cannot correct (R137, R167), and
what the array's cells compute wrongly. -/
structure TileUpset where
  feederUncorrectable : Bool
  wrong : List CellError
  deriving DecidableEq, Repr

/-- What the witness's own cells compute wrongly, the first time and when it computes the sample again (R203, R204). -/
structure WitnessResult where
  first : List CellError
  second : List CellError
  deriving DecidableEq, Repr

/-- Uncorrectable words of a link's buffers (R273): one of the transmit buffer, and the flits of the retry buffer that have gone bad. -/
structure BufferErrors where
  transmit : Bool
  retry : List Nat
  deriving DecidableEq, Repr

/-- A flit as a lane delivers it (R271 to R273): the lane, its 640 bytes, and the payload bytes that lie in words of the receive buffer that
have gone bad. -/
structure RxFlit where
  lane : Fin 2
  bytes : List Byte
  bad : List Nat
  deriving DecidableEq, Repr

/-- A link control record (R283). -/
structure LinkRecord where
  kind : Byte
  protoMin : Byte
  protoMax : Byte
  rates : Byte
  moduleId : BitVec 48
  link : Byte
  moduleState : Byte
  slots0 : Half
  slots1 : Half
  hbCount : Word32
  lanes : Byte
  deriving DecidableEq, Repr

/-- The peer of a chunk on a tree of a collective group (R301). -/
inductive Peer where
  | parent
  | child (j : Fin 8)
  deriving DecidableEq, Repr

/-- Who waits (R165, R315, R430): a descriptor of a core's window, by its index in the program, or the section's
collective engine. -/
inductive WaitSite where
  | tile (core : CoreId) (index : Nat)
  | collective (sec : Sec)
  deriving DecidableEq, Repr

/-- The unit that reads a block a second time (R63): a mover or a link transmitter. -/
inductive CrcSite where
  | mover (m : MoverId)
  | link (l : LinkId)
  deriving DecidableEq, Repr

/-- Whose grace ends (R292): a held message of a link, or a group that a notice showed to be behind. -/
inductive GraceSite where
  | held (l : LinkId)
  | passed (group : Word32)
  deriving DecidableEq, Repr

/-- A partition-fatal cause (R421). -/
inductive PartFatal where
  | directory
  | scheduleMemory
  | record
  | stackLost
  | portLost
  | meshLost
  deriving DecidableEq, Repr

/-- A module-fatal cause other than the Icvar watchdog (R421). -/
inductive ModFatal where
  | icvarSram
  | controlLogic
  | pllLock
  deriving DecidableEq, Repr

/-- The supply trips of R470, R473 and R488. -/
inductive SupplyTripKind where
  | under
  | over
  | rail
  deriving DecidableEq, Repr

/-- What the arbiter measures in a control period (R462, R463): input power and voltage, the fixed draw, each section's
draw, and for each section the number of hold steps its measurement calls for (R464). -/
structure PowerMeas where
  inputW : Nat
  inputMv : Nat
  fixedW : Nat
  sectionW : List Nat
  steps : List Nat
  deriving DecidableEq, Repr

/-- A firmware image as the root of trust sees it (R474): its digest, the outcome of the signature check over that digest,
the fused key slot its public key matches, and its versions. -/
structure FwImage where
  digest : BitVec 512
  signatureOk : Bool
  keySlot : Option (Fin 4)
  svn : Nat
  version : Half
  build : Word32
  deriving DecidableEq, Repr

/-- What a PLDM monitoring request names (R482). -/
inductive PldmItem where
  | inputPower
  | inputVoltage
  | effectiveCap
  | sectionTemp (sec : Sec)
  | stackTemp (g : StackId)
  | moduleState
  | health
  deriving DecidableEq, Repr

/-- Where an SPDM request arrives (R477): the DOE mailbox of a function, or MCTP. -/
inductive SpdmChan where
  | doe (fn : Fn)
  | mctp
  deriving DecidableEq, Repr

/-- The commands of the block. -/
inductive Instr where
  | pcieConfigRequest (fn : Fn) (access : CfgAccess)
  | perstNAssert
  | perstNRelease
  | hotReset
  | startPathChoice (fullStartN : Bool)
  | powerGrant
  | configSpaceReady
  | autumnBlockDone (sec : Sec) (block : Fin 16) (signature again : Word32) (temp : Byte)
  | moduleOperational
  | shdnReq (pldm : Bool)
  | resetKeyWrite (value : Half)
  | registerWrite (fn : Fn) (off : Nat) (width : Nat) (value : Word) (hwSet : Word)
  | rcRegisterRead (fn : Fn) (off : Nat) (width : Nat) (coincident : List (Nat × Nat))
  | mbxInDeposit (fn : Fn) (j : Fin 8) (lanes : Lanes) (value : Word)
  | mailboxTake (fn : Fn) (j : Fin 8) (host : List Cell) (readError : Bool) (deposit : Option Word) (hits : List Hit)
  | mbxOutPost (fn : Fn) (j : Fin 8)
  | mbxOutAck (fn : Fn) (j : Fin 8) (lanes : Lanes) (value : Word)
  | doorbell (fn : Fn) (off : Nat) (data : List Byte)
  | queueFetch (q : QueueId) (host : List Cell) (readError : Bool) (hits : List Hit)
  | cqRelease (fn : Fn) (slot : Fin 512) (value : Word32)
  | queueDrainEnd (q : QueueId)
  | bar2Read (fn : Fn) (off : Nat) (len : Nat) (hits : List Hit)
  | bar2Write (fn : Fn) (off : Nat) (data : List Byte) (hits : List Hit)
  | functionLevelReset (fn : Fn)
  | pfResetOrVfDisable (pfReset : Bool)
  | busMasterDisable (fn : Fn)
  | tdispRequest (fn : Fn) (req : TdispReq)
  | hello (rq : Req) (arg : BitVec 48)
  | bye (rq : Req) (arg : BitVec 48)
  | ping (rq : Req) (arg : BitVec 48)
  | cmdqClose (rq : Req) (arg : BitVec 48)
  | rplStop (rq : Req) (arg : BitVec 48)
  | rplStatus (rq : Req) (arg : BitVec 48)
  | cmdqOpen (rq : Req) (ring n cq m vector : Word)
  | partCreate (rq : Req) (mask tenancy schedule units : Word)
  | partDestroy (rq : Req) (part : Word)
  | partAssign (rq : Req) (fn part : Word)
  | partHandover (rq : Req) (part : Word)
  | partSched (rq : Req) (schedule : Word)
  | partCache (rq : Req) (units : Word)
  | slotTable (rq : Req) (addr len : Word)
  | partInfo (rq : Req) (part addr : Word)
  | windowSet (rq : Req) (fn quarter base : Word)
  | fnState (rq : Req) (fn enable : Word)
  | ctxCreate (rq : Req) (cls fill owner : Word)
  | ctxDestroy (rq : Req) (ctx : Word)
  | ctxSet (rq : Req) (ctx cls fill : Word)
  | ctxQuiesce (rq : Req) (ctx : Word)
  | ctxSnapshot (rq : Req) (ctx list count dest : Word) (hits : List Hit)
  | queueCreate (rq : Req) (kindUnit ring n cq m vector boundFn ctx : Word)
  | queueDestroy (rq : Req) (queue : Word)
  | queueEnable (rq : Req) (queue : Word)
  | queueDisable (rq : Req) (queue : Word)
  | queueReset (rq : Req) (queue : Word)
  | tallyCreate (rq : Req) (ctx cls sec count : Word)
  | tallySet (rq : Req) (tally count : Word)
  | tallyDestroy (rq : Req) (tally : Word)
  | regionCreate (rq : Req) (ctx addr len perm : Word)
  | regionDestroy (rq : Req) (region : Word)
  | regionFreeze (rq : Req) (region freeze : Word)
  | handleInfo (rq : Req) (handle addr : Word)
  | memFlush (rq : Req)
  | scrubPeriod (rq : Req) (mask loam hbm : Word)
  | stackRate (rq : Req) (allow : Word)
  | progLoad (rq : Req) (ctx core slot addr count : Word)
  | progUnload (rq : Req) (core slot : Word)
  | launch (rq : Req) (ctx list count : Word)
  | launchPublish (ctx : CtxId)
  | tensorReg (rq : Req) (ctx addr : Word)
  | tensorUnreg (rq : Req) (tensor : Word)
  | tensorVersion (rq : Req) (tensor version : Word)
  | tensorScale (rq : Req) (tensor scale : Word)
  | tensorUnpoison (rq : Req) (tensor : Word)
  | tensorStamp (rq : Req) (tensor stamp : Word)
  | modelDefine (rq : Req) (list count priority : Word)
  | modelLoad (rq : Req) (model : Word) (hits : List Hit)
  | modelEvict (rq : Req) (model : Word)
  | modelUnitsFreed (model : Fin 1024)
  | modelDestroy (rq : Req) (model : Word)
  | groupBind (rq : Req) (ctx group epoch : Word)
  | epochInstall (rq : Req) (group epoch mask isMember : Word)
  | commCreate (rq : Req) (ctx sec addr : Word)
  | commDestroy (rq : Req) (sec comm : Word)
  | linkExpect (rq : Req) (link moduleId partner check : Word)
  | linkRetrain (rq : Req) (link : Word)
  | linkFence (rq : Req) (link : Word)
  | linkUnfence (rq : Req) (link : Word)
  | linkCfg (rq : Req) (mask fenceLimit grace rateCap : Word)
  | histSet (rq : Req) (tensor base width : Word)
  | numSnapshot (rq : Req) (kind list count dest clear : Word)
  | gateCreate (rq : Req) (ctx row scale down up interval nfAddr : Word)
  | gateSet (rq : Req) (gate row scale down up interval nfAddr : Word)
  | gateDestroy (rq : Req) (gate : Word)
  | witnessCfg (rq : Req) (enable k wseed hold : Word)
  | driftPair (rq : Req) (out wideA wideB band floor remove : Word)
  | outlierRing (rq : Req) (addr len : Word)
  | rplRecord (rq : Req) (ctx addr len payload : Word)
  | rplMark (rq : Req) (ctx tally tensor n : Word)
  | rplReplay (rq : Req) (ctx addr len : Word)
  | gravelCfg (rq : Req) (period corners : Word)
  | autumnRun (rq : Req) (mask : Word)
  | powerCap (rq : Req) (watts : Word)
  | limits (rq : Req) (coreWait collWait hold : Word)
  | telemetry (rq : Req) (kind addr : Word)
  | health (rq : Req) (addr : Word)
  | escalation (rq : Req) (partLimit ctxLimit window : Word)
  | commandTimeout (fn : Fn) (via : Via)
  | tileFetch (core : CoreId) (hits : List Hit)
  | tileIssue (core : CoreId) (hits : List Hit) (feederCorrected : Nat) (upset : TileUpset)
  | tileComplete (core : CoreId) (unit : Fin 7)
  | tallyAdd (tally : TallyId) (amount : Half) (tag : Half)
  | slotChange (core : CoreId)
  | bubbleFill (core : CoreId)
  | sequencerWatchdog (core : CoreId) (unit : Fin 7)
  | waitLimitReport (core : CoreId) (index : Nat)
  | waitTimeout (site : WaitSite)
  | witnessCheckDone (sec : Sec) (result : WitnessResult) (cond : Cond)
  | moverTransfer (m : MoverId) (hits : List Hit) (pathError : Bool)
  | moverComplete (m : MoverId)
  | crcSecondRead (site : CrcSite) (pathError : Bool)
  | moverWatchdog (m : MoverId)
  | routeDescriptor (sec : Sec) (hits : List Hit)
  | routeComplete (sec : Sec)
  | routeWatchdog (sec : Sec)
  | optimizerUpdate (sec : Sec) (hits : List Hit)
  | gateDecision (sec : Sec)
  | gateSnapshot (sec : Sec)
  | optimizerWatchdog (sec : Sec)
  | collectiveDescriptor (sec : Sec) (hits : List Hit)
  | chunkArrival (sec : Sec) (comm : Fin 64) (tree : Fin 8) (peer : Peer) (headerHits dataHits : List Hit)
  | chunkCreditReturn (sec : Sec) (comm : Fin 64) (tree : Fin 8) (peer : Peer)
  | collectiveComplete (sec : Sec)
  | collWaitReport (sec : Sec)
  | linkTransmit (l : LinkId) (hits : List Hit) (pathError : Bool) (buffers : BufferErrors)
  | linkTransmitAcked (l : LinkId)
  | linkTxWatchdog (l : LinkId)
  | flitReceive (l : LinkId) (decoded corrected : Bool) (flit : RxFlit)
  | msgWrite (l : LinkId) (header data : List Byte) (bad : List Nat)
  | msgBlock (l : LinkId) (header data : List Byte) (bad : List Nat)
  | msgRefuse (l : LinkId) (header : List Byte)
  | msgEpochNotice (l : LinkId) (header : List Byte)
  | msgAbort (l : LinkId) (header : List Byte)
  | epochGraceExpiry (site : GraceSite)
  | negotiateReceive (l : LinkId) (rec : LinkRecord)
  | notReadyReceive (l : LinkId) (rec : LinkRecord)
  | negotiateResend (l : LinkId)
  | heartbeatSend (l : LinkId)
  | heartbeatReceive (l : LinkId) (rec : LinkRecord)
  | heartbeatTimeout (l : LinkId)
  | degradeReceive (l : LinkId) (rec : LinkRecord)
  | fencedReceive (l : LinkId) (rec : LinkRecord)
  | laneLock (l : LinkId) (lane : Fin 2) (rate : Fin 3) (latencyNs : Nat)
  | laneRetire (l : LinkId) (lane : Fin 2)
  | linkRetrainStart (l : LinkId)
  | linkRetrainEnd (l : LinkId) (ok : Bool) (latencyNs : Nat)
  | trainingTimeout (l : LinkId)
  | lnkLoopStart (l : LinkId) (value : Word)
  | lnkLoopDone (l : LinkId) (errors0 errors1 : Nat) (locked0 locked1 : Bool)
  | lnkLoopModeWrite (l : LinkId) (value : Word)
  | hbmLoopStart (g : StackId) (value : Word)
  | hbmLoopDone (g : StackId) (errors lanesFailed : Nat)
  | patrolScrubRead (sec : Sec) (hbm : Option (Fin 3)) (outcome : Option ReadOutcome)
  | hbmRefresh (g : StackId)
  | unscheduledRefresh (g : StackId)
  | holdStart (p : PartId)
  | holdEnd (p : PartId)
  | holdLimitReport (p : PartId) (cause : Fin 7)
  | replayDeliver (ctx : CtxId)
  | contextTeardown (ctx : CtxId)
  | drainTimerExpiry (ctx : CtxId)
  | partitionFatal (sec : Sec) (cause : PartFatal)
  | partitionResetDone (p : PartId)
  | moduleFatal (cause : ModFatal)
  | icvarWatchdog
  | healthDecay
  | gravelSliceStart (sec : Sec) (load100us load1s : Half)
  | gravelSliceEnd (sec : Sec) (signature again : Word32) (cond : Cond)
  | gravelSliceAbandon (sec : Sec)
  | witnessSlice (sec : Sec) (signature again : Word32)
  | arbiterPeriod (meas : PowerMeas)
  | clockSlewEnd
  | emergencyHold
  | sensorRead (dies : List Half) (temps : List Byte)
  | supplyTrip (kind : SupplyTripKind) (mV : Nat) (recorded : Bool)
  | mgmtCapSet (watts : Nat)
  | pldmFirmwareUpdate (image : FwImage)
  | pldmSensorRead (item : PldmItem)
  | mctpControl (command : Byte) (data : List Byte)
  | getVersion (chan : SpdmChan)
  | getCapabilities (chan : SpdmChan) (version : Byte)
  | negotiateAlgorithms (chan : SpdmChan) (extAsym extHash : List Half)
  | getDigests (chan : SpdmChan)
  | getCertificate (chan : SpdmChan) (slot offset length : Nat)
  | challenge (chan : SpdmChan) (slot : Nat) (nonce : List Byte)
  | getMeasurements (chan : SpdmChan) (index : Nat) (raw : Bool)
  | keyExchange (chan : SpdmChan) (slot : Nat) (sessionId : Half) (exchange : List Byte)
  | finish (chan : SpdmChan) (verified : Bool)
  | endSession (chan : SpdmChan)
  | debugToken (version level : Byte) (moduleId : BitVec 48) (nonce : BitVec 256) (signatureOk : Bool)
  | tapBypass
  | tapIdcode
  | tapSamplePreload (sampled preload : List Bool)
  | tapExtest
  | optimizerComplete (sec : Sec)
  | scrubComplete (p : PartId)
  | stackTrainingDone (g : StackId) (identity : Word32) (temp : Byte) (readBackOk : Bool)
  | powerApplied
  | powerRemoved
  | pcieLinkTrained (speed : Fin 7) (width : Fin 5) (flit : Bool)
  | ideKmRequest (fn : Fn) (req : IdeReq)
  deriving DecidableEq, Repr

end Sys2Proof
end

