-- ==== Sys2Proof/Config.lean ====
section
/-! DEFINITION. What a manufactured module fixes, and the free values: opaque constants, of which nothing can be
evaluated or proved. -/

namespace Sys2Proof.Config

/-- Free values: the n-th one drawn. The step that draws one advances `State.freeCtr` (log entry 9). DESIGN CHOICE. -/
opaque freeWord : Nat → Word

/-- Kenesal's PCI-SIG-assigned value (R359). -/
opaque vendorId : Half
/-- STEPPING as manufactured (R359). -/
opaque stepping : Byte
/-- MODULE_ID as manufactured (R359). -/
opaque moduleId : BitVec 48
/-- Stacks qualified for 10.0 Gb/s (R51, R359). -/
opaque stack10G : BitVec 24
/-- Expected Autumn signature of a block (R448): by section and block. -/
opaque autumnSignature : Nat → Nat → Word32
/-- Expected Gravel signature (R453, R457): by slice kind, unit and corner. -/
opaque gravelSignature : Nat → Nat → Nat → Word32
/-- SHAKE256 with a 64-byte output (R474, R476); FIPS 202 defines it, the spec only names it. -/
opaque shake256 : List Byte → BitVec 512
/-- What a signing key of the module answers over a message (R477). -/
opaque sign : List Byte → List Byte
/-- The first two certificates of slot 0's chain (R477): Kenesal's root and the module's device certificate. -/
opaque deviceCertificates : List Byte
/-- The alias certificate of a start (R477), by the number of the start and the measurements that it binds. -/
opaque aliasCertificate : Nat → List (BitVec 512) → List Byte
/-- A measurement (R476), by its index and what it covers; the spec does not give the bytes that are digested. -/
opaque measurement : Nat → List Nat → BitVec 512
/-- A random value of an SPDM response, by use (R477). -/
opaque spdmRandom : Nat → List Byte
/-- The 32-byte nonce of a start (R479), by the number of the start. -/
opaque debugNonce : Nat → BitVec 256
/-- The device identification word of the TAP (R480). -/
opaque tapIdcode : Word32
/-- Which of the two binary32 neighbours a faithfully rounded function takes (R146): true for the upper one; by OP and
argument, since a given input yields the same bits everywhere. -/
opaque sfuUpper : Nat → Word32 → Bool
/-- The frame of a section's cache part that holds a line (R43, R46): by units, set and way. -/
opaque cacheFrame : Nat → Nat → Nat → Nat
/-- The refresh L-cycles of one period that a declared rate needs (R68, R260): by the double flag and the period. -/
opaque refreshNeed : Bool → Nat → Nat
/-- The scrub L-cycles of one period that a Loam scrub period needs on a section's read port (R58, R260). -/
opaque loamScrubNeed : Nat → Nat → Nat
/-- The scrub L-cycles of one period that an HBM scrub period needs on a stack (R58, R260). -/
opaque hbmScrubNeed : Nat → Nat → Nat
/-- Whether a program, by its descriptor bytes, needs a grant that a slot table, by its bytes, does not give (R164, R260). -/
opaque grantMissing : List Byte → List Byte → Bool
/-- The bound on a program's kept state in bytes (R177, R188, R189), by its descriptor bytes and the formats and sizes of the tensors
that they name. -/
opaque keptStateBound : List Byte → List (List Nat) → Nat

end Sys2Proof.Config
end

