-- ==== Sys2Proof/Machine/State.lean ====
section
/-! DEFINITION. The state of the block as plain data, and its value right after reset. Every record's field defaults are
the values that the record has after a module reset; `State.reset` lists nothing in any table. -/

namespace Sys2Proof.Machine

/-- A table from numbers to records in one canonical form: keys strictly rising, no entry equal to the record an unlisted
key stands for. Device memory and host memory are such tables of bytes whose unlisted bytes read as zero. -/
abbrev Tab (α : Type) := List (Nat × α)

/-- Faults of the model. No meaning raises one: every fault the spec describes is a next state (R419, R423). -/
inductive Fault where
  /-- Raised by nobody. It stands for a module that has no power supply contact at all; it would be safe. -/
  | absent
  deriving DecidableEq, Repr

/-- Refusals of the model. -/
inductive Refusal where
  /-- Raised by the dispatcher for a row that has no meaning yet, by its mnemonic; safe, the run stops. -/
  | notModelled (mnemonic : String)
  deriving DecidableEq, Repr

/-! ### Functions and Icvar -/

/-- STATE of HIF_FUNC (R358). -/
inductive FnMode where
  | absent | enabled | resetting | disabled
  deriving DecidableEq, Repr

/-- TDI of HIF_FUNC (R337, R358). -/
inductive TdiMode where
  | notTdi | unlocked | locked | run | error
  deriving DecidableEq, Repr

/-- A Caoco session (R360, R362). -/
structure Session where
  caoco : Byte
  desc : Byte
  fmt : Byte
  gen : Nat
  deriving DecidableEq, Repr

/-- The word last taken on a mailbox and how it was answered (R384): return code, reply word, and whether it was published. -/
structure LastTaken where
  word : Word
  rc : Half
  reply : Option Word
  published : Bool
  deriving DecidableEq, Repr

/-- An acknowledgement that waits until its reply is posted (R367). -/
structure Owed where
  mbx : Nat
  word : Word
  seq : Nat
  taken : Nat
  rc : Nat
  deriving DecidableEq, Repr

/-- A function's host-side state (R332 to R337, R342, R362). -/
structure FnState where
  mode : FnMode := .absent
  part : Option Nat := none
  busMaster : Bool := false
  tdi : TdiMode := .notTdi
  ideStream : Bool := false
  windows : List (Nat × Nat) := []
  bar2Log : Nat := 0
  session : Option Session := none
  sessionGen : Nat := 0
  cmdq : Option Nat := none
  outbox : List (Nat × Word) := []
  owed : List Owed := []
  lastTaken : Tab (Option LastTaken) := []
  msixTable : Tab Word := []
  flrStart : Option Nat := none
  deriving DecidableEq, Repr

/-- What an unpublished command of Icvar waits for (R371, R372). -/
inductive PendKind where
  | partDestroy (p : Nat)
  | partHandover (p : Nat)
  | ctxDestroy (c : Nat)
  | ctxQuiesce (c : Nat)
  | queueDisable (q : Nat) (cancelledBefore : Nat)
  | fnDisable (f : Nat)
  | cmdqClose (q : Nat)
  | modelEvict (m : Nat)
  | autumnRun (mask : Nat) (matched : Nat)
  | rplReplay (c : Nat)
  deriving DecidableEq, Repr

/-- A command taken and not yet published; `mute` once a reset of its function discards its acknowledgement (R356). -/
structure PendCmd where
  fn : Nat
  via : Via
  taken : Nat
  opcode : Nat
  kind : PendKind
  start : Nat
  mute : Bool := false
  deriving DecidableEq, Repr

/-- A create command that is still current (R376). -/
structure CreateToken where
  fn : Nat
  opcode : Nat
  token : Word32
  result : Word
  deriving DecidableEq, Repr

/-! ### Queues -/

/-- STATE of a queue (R348). -/
inductive QMode where
  | disabled | enabled | draining | error
  deriving DecidableEq, Repr

/-- A completion record's contents but for QUEUE and TIME (R349). -/
structure Record where
  flags : Nat
  status : Nat
  rc : Nat
  tag : Nat
  pos : Nat
  cause : Nat
  result : Word
  deriving DecidableEq, Repr

/-- How far a fetched descriptor has come. -/
inductive EntryPhase where
  | waiting | running | finished (rec : Record)
  deriving DecidableEq, Repr

/-- A descriptor fetched and not yet recorded. -/
structure Entry where
  pos : Nat
  bytes : List Byte
  phase : EntryPhase
  deriving DecidableEq, Repr

/-- A queue (R344 to R355, R378). Addresses are kept as the address argument of R365, bit 63 for host memory. -/
structure Queue where
  present : Bool := false
  gen : Nat := 0
  part : Nat := 0xFF
  kind : Nat := 0
  unit : Nat := 0
  fn : Nat := 0
  slot : Nat := 0
  ctx : Option Nat := none
  ring : Word := 0
  n : Nat := 64
  cq : Option Word := none
  m : Nat := 64
  vector : Nat := 0
  mode : QMode := .disabled
  tail : Nat := 0
  consumed : Nat := 0
  produced : Nat := 0
  released : Nat := 0
  entries : List Entry := []
  recordsAllowed : Bool := true
  cancelled : Nat := 0
  draining : Bool := false
  deriving DecidableEq, Repr

/-! ### Partitions and their schedules -/

/-- STATE of a partition (R385). -/
inductive PartMode where
  | active | handover | destroying | blocked
  deriving DecidableEq, Repr

/-- An entry of a slot table (R258). -/
structure SlotEntry where
  start : Nat
  length : Nat
  stride : Nat
  repeats : Nat
  lmask : Nat
  resource : Nat
  resIndex : Nat
  holder : Nat
  holderIndex : Nat
  reserved : Bool
  sec : Nat
  deriving DecidableEq, Repr

/-- A slot table (R257). -/
structure SlotTable where
  ver : Nat
  double : Bool
  sections : Nat
  period : Nat
  entries : List SlotEntry
  bytes : List Byte
  deriving DecidableEq, Repr

/-- A cause of a hold (R247): its counting field numbered as R253 numbers it, the A-cycle it became active, its stated
length, and the link, tally, mover or other index that ends it. -/
structure HoldCause where
  field : Nat
  since : Nat
  length : Option Nat
  key : Nat
  deriving DecidableEq, Repr

/-- A drift pair and its statistics (R207). -/
structure DriftPair where
  outId : Nat
  wideA : Nat
  wideB : Nat
  band : Word32
  floor : Word32
  ctx : Nat
  samples : Nat := 0
  overBand : Nat := 0
  skipped : Nat := 0
  eMax : Word32 := 0
  hist : List Nat := [0, 0, 0, 0, 0, 0, 0, 0, 0, 0, 0, 0, 0, 0, 0, 0]
  deriving DecidableEq, Repr

/-- The steps of a handover or of a destruction that are still to end (R389, R390). -/
inductive PartStage where
  | none | stopping | draining | resetting | testing | scrubbing
  deriving DecidableEq, Repr

/-- A partition (R29, R242, R385 to R398); `heldTotal` counts its held A-cycles for the launches (R379); `work` is its work clock
(R244) and `workPrev` what that showed one reference cycle before. -/
structure Part where
  present : Bool := false
  mask : Nat := 0
  isSealed : Bool := false
  mode : PartMode := .active
  units : Nat := 0
  winter : Bool := false
  table : Option SlotTable := none
  descVer : Byte := 0
  fmtVer : Byte := 0
  handovers : Nat := 0
  lastHandoverUs : Nat := 0
  stage : PartStage := .none
  stageStart : Nat := 0
  afterReset : PartMode := .active
  mismatch : Bool := false
  holdLimitMs : Nat := 1000
  held : Bool := false
  holdStart : Nat := 0
  causes : List HoldCause := []
  heldTotal : Nat := 0
  work : Nat := 0
  workPrev : Nat := 0
  wseed : Word := 0
  drift : List (Nat × DriftPair) := []
  outlier : Option (Nat × Nat × Nat) := none
  deriving DecidableEq, Repr

/-! ### Contexts and their objects -/

/-- STATE of a context (R395). -/
inductive CtxMode where
  | free | active | stopping | teardown | draining
  deriving DecidableEq, Repr

/-- A mark (R266). -/
structure Mark where
  number : Nat
  tally : Nat
  tensor : Nat
  interval : Nat
  count : Nat
  deriving DecidableEq, Repr

/-- A log being written or replayed (R263 to R268). -/
structure Log where
  base : Nat
  length : Nat
  pos : Nat
  seq : Nat
  payload : Bool
  stopped : Bool
  deriving DecidableEq, Repr

/-- A context (R394 to R397). `cause` is its first fault's cause, or 0x0F for an abort (R379); `log` is the log it records into, `replay`
the one it replays; `logged` counts the records of its last ended recording. -/
structure Ctx where
  mode : CtxMode := .free
  gen : Nat := 0
  bestEffort : Bool := false
  fill : Nat := 4096
  owner : Nat := 0
  part : Nat := 0
  group : Option Nat := none
  nf : Nat := 0
  cause : Option Nat := none
  quiesced : Bool := false
  log : Option Log := none
  replay : Option Log := none
  logged : Nat := 0
  marks : List Mark := []
  deriving DecidableEq, Repr

/-- A tally (R157, R426). -/
structure Tally where
  present : Bool := false
  gen : Nat := 0
  count : Nat := 0
  ctx : Nat := 0
  part : Nat := 0
  isExternal : Bool := false
  abandoned : Bool := false
  deriving DecidableEq, Repr

/-- A memory region (R36, R240, R377). -/
structure Region where
  present : Bool := false
  gen : Nat := 0
  ctx : Nat := 0
  part : Nat := 0
  base : Nat := 0
  length : Nat := 0
  read : Bool := false
  write : Bool := false
  frozen : Bool := false
  deriving DecidableEq, Repr

/-- A tensor descriptor (R85). -/
structure TensorDesc where
  id : Nat := 0
  version : Word32 := 0
  format : Nat := 0
  twoPass : Bool := false
  ue5m3 : Bool := false
  block : Nat := 0
  poisoned : Bool := false
  grad : Bool := false
  counters : Bool := false
  checksum : Bool := false
  rank : Nat := 1
  scale : Word32 := 0
  base : Nat := 0
  scaleAddr : Nat := 0
  crcAddr : Nat := 0
  auxAddr : Nat := 0
  dim0 : Nat := 1
  dim1 : Nat := 1
  dim2 : Nat := 1
  dim3 : Nat := 1
  reservedBad : Bool := false
  deriving DecidableEq, Repr

/-- A counter record (R194 to R199). -/
structure Counter where
  sec : Nat
  elements : Nat := 0
  zeros : Nat := 0
  flushed : Nat := 0
  saturated : Nat := 0
  nonfinite : Nat := 0
  amax : Word32 := 0
  hist : List Nat := [0, 0, 0, 0, 0, 0, 0, 0, 0, 0, 0, 0, 0, 0, 0, 0]
  histBase : Int := -24
  histWidth : Nat := 4
  deriving DecidableEq, Repr

/-- A tensor of a partition's tensor table: descriptor, stamp (R317), owner, home arrays while a model's copy stands in
(R406), counter record. -/
structure Tensor where
  present : Bool := false
  desc : TensorDesc := {}
  stamp : Word32 := 0
  ctx : Nat := 0
  home : Option (Nat × Nat × Nat) := none
  counter : Option Counter := none
  deriving DecidableEq, Repr

/-- A gate record (R209, R215); the loss scale as its power of two. -/
structure Gate where
  present : Bool := false
  ctx : Nat := 0
  group : Bool := false
  versionPending : Bool := false
  down : Nat := 1
  up : Nat := 0
  interval : Nat := 0
  clean : Nat := 0
  scaleLog : Int := 0
  rowId : Nat := 0
  lastStep : Nat := 0
  lastDecision : Nat := 0
  lastNf : Nat := 0
  skipsNonfinite : Nat := 0
  skipsVersion : Nat := 0
  skipsAtFloor : Nat := 0
  partialCount : Nat := 0
  nfAddr : Nat := 0
  priorScaleLog : Int := 0
  deriving DecidableEq, Repr

/-- STATE of a model (R408). -/
inductive ModelMode where
  | defined | loading | loaded | evicting | broken
  deriving DecidableEq, Repr

/-- A Loam copy of a tensor of a model (R406): tensor, section, offset and bytes of its arrays. -/
structure ModelCopy where
  tensor : Nat
  sec : Nat
  offset : Nat
  bytes : Nat
  deriving DecidableEq, Repr

/-- A model of the hot model cache (R405 to R411). -/
structure Model where
  present : Bool := false
  gen : Nat := 0
  part : Nat := 0
  tensors : List Nat := []
  priority : Nat := 0
  mode : ModelMode := .defined
  copies : List ModelCopy := []
  lastLaunch : Nat := 0
  deriving DecidableEq, Repr

/-! ### Job groups and collective groups -/

/-- A job group (R291, R292, R294). -/
structure Group where
  present : Bool := false
  epoch : Nat := 0
  mask : Word := 0
  member : Bool := true
  abortSent : List Nat := []
  passing : Option Nat := none
  notices : List (Nat × Nat) := []
  deriving DecidableEq, Repr

/-- A rank's entry of a tree table (R378). -/
structure RankEntry where
  parent : Nat
  parentRoute : Nat
  children : List (Nat × Nat)
  bad : Bool
  deriving DecidableEq, Repr

/-- A chunk under way to a peer (R312): its tree table, the peer (0 the parent, j + 1 child j), its header and data. -/
structure StagedChunk where
  table : Nat
  peer : Nat
  header : List Byte
  data : List Byte
  deriving DecidableEq, Repr

/-- A filled slot of the staging region, whose bytes lie in Loam (R302, R312): its tree table, the peer whose chunk it holds, and which
of that peer's four slots it is. -/
structure StagedSlot where
  table : Nat
  peer : Nat
  slot : Nat
  deriving DecidableEq, Repr

/-- A group record (R299 to R302), with the address of its staging region, its filled slots, the slot that each peer fills next, the
chunks and the returned slots on their way to it over the mesh, its unreturned slots at each peer, and the count of each of its tallies
that the engine has acted on. -/
structure Comm where
  present : Bool := false
  ctx : Nat := 0
  group : Nat := 0
  epoch : Nat := 0
  p : Nat := 1
  o : Nat := 0
  i : Nat := 0
  t : Nat := 1
  rank : Nat := 0
  tallyBase : Nat := 0
  chunk : Nat := 65536
  staging : Word := 0
  digest : Word32 := 0
  tables : List (List RankEntry) := []
  seq : Nat := 0
  stale : Bool := false
  stageBase : Nat := 0
  staged : List StagedSlot := []
  nextSlot : Tab Nat := []
  transit : List StagedChunk := []
  credits : Tab Nat := []
  used : Tab Nat := []
  seen : Tab Nat := []
  deriving DecidableEq, Repr

/-! ### Cores -/

/-- A program slot of a sequencer (R147, R399). -/
structure Slot where
  loaded : Bool := false
  base : Nat := 0
  count : Nat := 0
  ctx : Nat := 0
  tag : Nat := 0
  launched : Bool := false
  next : Nat := 0
  signalled : List Nat := []
  order : Nat := 0
  fillProgram : Bool := false
  deriving DecidableEq, Repr

/-- A descriptor in a sequencer's window (R148), with the time since which it waits and whether that wait was reported. -/
structure WinDesc where
  index : Nat
  bytes : List Byte
  since : Nat
  reported : Bool
  planned : Nat
  deriving DecidableEq, Repr

/-- One conversion's classes summed over a tile or descriptor, to be added to a tensor's counter record (R195, R197). -/
structure CounterDelta where
  elements : Nat := 0
  zeros : Nat := 0
  flushed : Nat := 0
  saturated : Nat := 0
  nonfinite : Nat := 0
  amax : Word32 := 0
  hist : List Nat := [0, 0, 0, 0, 0, 0, 0, 0, 0, 0, 0, 0, 0, 0, 0, 0]
  deriving DecidableEq, Repr

/-- What a running tile has computed and will publish when it completes (R160): memory writes, tensors to mark poisoned,
counter adds, non-finite count, and the tensor scale a SCALE tile sets (R166). `sampled` tells that a witness hold keeps its signals
(R206), `marked` that it has set a poison mark already. -/
structure TileRun where
  slot : Nat
  ctx : Nat
  tag : Nat
  index : Nat
  bytes : List Byte
  planned : Nat
  stream : Nat
  writes : List Cell := []
  poison : List Nat := []
  deltas : List (Nat × CounterDelta) := []
  nf : Nat := 0
  setScale : Option (Nat × Word32) := none
  sampled : Bool := false
  marked : Bool := false
  deriving DecidableEq, Repr

/-- A unit of a core (R138), or of a Gravel slice (R454). -/
inductive UnitState where
  | idle
  | tile (run : TileRun)
  | gravel
  deriving DecidableEq, Repr

/-- A core (R138, R147 to R149, R399). `entered` is the A-cycle and `enteredWork` the work cycle at which it entered its slot (R403),
`moved` the A-cycle of the last change of its slot, window or units (R190), `held` the complete tiles, with their units, whose
signals wait for an exact check (R206). -/
structure Core where
  running : Option Nat := none
  entered : Nat := 0
  window : List WinDesc := []
  units : Tab UnitState := []
  stopped : Bool := false
  enteredWork : Nat := 0
  moved : Nat := 0
  held : List (Nat × TileRun) := []
  deriving DecidableEq, Repr

/-! ### Engines -/

/-- How far an engine's descriptor has come. -/
inductive JobPhase where
  | running | reread (block : Nat) | dataDone | waitGate
  deriving DecidableEq, Repr

/-- The progress of a collective descriptor: the stage of R308, the actions done on each tree table upwards and downwards,
chunks that wait for a staging slot at their peer, the reduced elements of this rank's shard, those that wait for the whole of a
block-scaled DST, the values of R321 with the local squared norm, the stamp of its source, the splits as they were read, and whether it
waits for a peer's chunk or for a returned slot. -/
structure CollRun where
  stage : Nat := 0
  up : Tab Nat := []
  down : Tab Nat := []
  toSend : List StagedChunk := []
  work : List (Nat × List Byte) := []
  out : List (Nat × List Byte) := []
  stats : List Byte := []
  localSq : Word32 := 0
  stamp : Nat := 0
  off : List Nat := []
  newOff : List Nat := []
  chunkWait : Bool := false
  creditWait : Bool := false
  deriving DecidableEq, Repr

/-- A descriptor that an engine executes. -/
structure Job where
  queue : Nat
  pos : Nat
  ctx : Nat
  bytes : List Byte
  phase : JobPhase := .running
  done : Nat := 0
  planned : Nat := 0
  start : Nat := 0
  poison : Bool := false
  isPartial : Bool := false
  decision : Nat := 0
  deltas : List (Nat × CounterDelta) := []
  nf : Nat := 0
  poisonIds : List Nat := []
  coll : CollRun := {}
  lastSeq : Nat := 0
  reported : Bool := false
  version : Word32 := 0
  unscale : Int := 0
  deriving DecidableEq, Repr

/-- An engine: mover, route, collective, optimizer or link transmitter (R378); `stopped` from a fault until it takes its next
descriptor (R241, R327); `ending` are the descriptors of a route engine that have issued their last access and not yet signalled
(R222). -/
structure Engine where
  job : Option Job := none
  ending : List Job := []
  lastQueue : Option Nat := none
  stopped : Bool := false
  deriving DecidableEq, Repr

/-- A block that a witness recomputes (R203, R204), with what its tap buffer holds: the block's accumulators as the array delivered
them with their ARG indices, what the tapped operands give for them, the narrow results of R207 that they stand for, and the tapped
operands and initial values as binary32. -/
structure Sample where
  core : Nat
  slot : Nat
  array : Nat
  ctx : Nat
  tag : Nat
  index : Nat
  bytes : List Byte
  row0 : Nat
  col0 : Nat
  rows : Nat
  cols : Nat
  isInt : Bool
  accs : List (BitVec 48 × Word32)
  truth : List (BitVec 48 × Word32)
  narrow : List Word32
  aTap : List (List Word32)
  bTap : List (List Word32)
  initTap : List (Option (Word32 × Int))
  tileDone : Bool
  deriving DecidableEq, Repr

/-! ### Links -/

/-- An unacknowledged data flit (R274). -/
structure RetryFlit where
  seq : Nat
  first : Nat
  payload : List Byte
  deriving DecidableEq, Repr

/-- A received message of channel 0 in the receive buffer, with the offsets of its data's words that read back uncorrectable
(R273). -/
structure RxMsg where
  header : List Byte
  data : List Byte
  bad : List Nat := []
  deriving DecidableEq, Repr

/-- A message to be sent, with the context it is sent for, and whether a transmit descriptor gave it (R282). -/
structure OutMsg where
  header : List Byte
  data : List Byte
  ctx : Option Nat := none
  job : Bool := false
  deriving DecidableEq, Repr

/-- What is left to send of a message whose sending has begun (R272): its channel, whether a transmit descriptor gave it, whether its header
is still to go. -/
structure TxPart where
  chan : Nat
  job : Bool
  fresh : Bool
  bytes : List Byte
  deriving DecidableEq, Repr

/-- A message of channel 0 held for its epoch (R292). -/
structure HeldMsg where
  header : List Byte
  data : List Byte
  bad : List Nat
  since : Nat
  epoch : Nat
  group : Nat
  deriving DecidableEq, Repr

/-- A link beyond its registers (R270 to R297): lanes, the latency that training measured, the rate code from which training tries, the
partner's rates, the uncorrectable code words of the last millisecond with their lanes, retry with the flits whose buffer words have gone
bad, the receive stream with its bad words, credits, the message held for its epoch and those that wait behind it or for a window (R251),
heartbeat intervals counted as missed, messages that wait to be sent, what is left of those begun, the last flit of the last message of a
transmit descriptor, and the context that last named each destination. -/
structure Link where
  lanesLocked : Nat := 0
  retired : Nat := 0
  groupStarted : Bool := false
  latency : Nat := 0
  tryRate : Nat := 0
  partnerRates : Nat := 7
  badWords : List (Nat × Nat) := []
  failures : Nat := 0
  backoffMs : Nat := 1
  gotRecord : Bool := false
  txSeq : Nat := 0
  rxSeq : Nat := 65535
  ackedSeq : Nat := 65535
  nakSet : Bool := false
  nakRow : Nat := 0
  nakAck : Nat := 65535
  nakTimes : List Nat := []
  retry : List RetryFlit := []
  retryBad : List Nat := []
  rxStream : List Byte := []
  rxBad : List Nat := []
  rxSync : Bool := true
  freed0 : Nat := 0
  freed1 : Nat := 0
  granted0 : Nat := 0
  granted1 : Nat := 0
  sent0 : Nat := 0
  sent1 : Nat := 0
  partnerFreed0 : Nat := 0
  partnerFreed1 : Nat := 0
  inUse0 : Nat := 0
  held : Option HeldMsg := none
  behind : List RxMsg := []
  expectId : Word := 0
  expectLink : Nat := 0
  hbCount : Nat := 0
  lastHb : Nat := 0
  hbCounted : Nat := 0
  hostile : List Nat := []
  ctrl : List Nat := []
  lanesMove : Bool := false
  partnerFenced : Bool := false
  startLoop : Bool := false
  waiting : List OutMsg := []
  parts : List TxPart := []
  lastData : Option Nat := none
  sentTo : List (List Byte × Nat) := []
  deriving DecidableEq, Repr

/-- A flit as a link sends it (R271, R272): its lane and its fields; `kind` is TYPE. Its CRC follows from them. -/
structure SentFlit where
  lane : Nat
  kind : Nat
  nak : Bool
  seq : Nat
  ack : Nat
  first : Nat
  credit0 : Nat
  credit1 : Nat
  payload : List Byte
  deriving DecidableEq, Repr

/-! ### Memory beyond its bytes -/

/-- A line of a section's cache directory (R46 to R48). -/
structure CacheLine where
  valid : Bool := false
  line : Nat := 0
  dirty : Bool := false
  rrpv : Nat := 0
  deriving DecidableEq, Repr

/-- Memory: device bytes by device address; by word number, the poisoned words (R55) and those that hold an error not yet met
(R54), and the words that a verifying read will find spoilt on their way once (R63); the cache directories by section, set and way, the scrubbers' next words (R58) and the HBM scrub periods. -/
structure Mem where
  bytes : List Host.Cell := []
  poisoned : Tab Bool := []
  upset : Tab (Option ReadOutcome) := []
  spoilt : List Nat := []
  cache : Tab CacheLine := []
  scrubLoam : Tab Nat := []
  scrubHbm : Tab Nat := []
  hbmScrubS : Tab Nat := []
  deriving DecidableEq, Repr

/-! ### The module: start, flash, health, power, self-test, security -/

/-- The result of an Autumn test (R442, R459). -/
structure AutumnResult where
  valid : Bool := false
  result : Nat := 0
  transient : Bool := false
  source : Nat := 0
  temp : Nat := 0
  failed : Nat := 0
  hour : Nat := 0
  deriving DecidableEq, Repr

/-- A section under the Autumn test (R448 to R451): who asked, the sections tested together and their test's place among those under way,
the blocks still to end, failures so far. -/
structure AutumnRun where
  source : Nat := 0
  tested : Nat := 0
  ticket : Nat := 0
  left : List Nat := []
  failed : Nat := 0
  transient : Bool := false
  temp : Nat := 0
  deriving DecidableEq, Repr

/-- Trained values of a stack in flash (R69, R442). -/
structure Trained where
  valid : Bool := false
  identity : Word32 := 0
  temp : Nat := 0
  rate : Nat := 0
  deriving DecidableEq, Repr

/-- A unit's health (R434 to R436). -/
structure Health where
  score : Nat := 0
  lastEvent : Nat := 0
  events : Nat := 0
  deriving DecidableEq, Repr

/-- On-module flash (R420, R442, R473 to R475). -/
structure Flash where
  recordValid : Bool := false
  sequence : Nat := 0
  orderly : Bool := false
  hours : Nat := 0
  autumn : Tab AutumnResult := []
  trained : Tab Trained := []
  trip : Word := 0
  health : Tab Health := []
  icvarFired : Nat := 0
  moduleResets : Nat := 0
  lastPath : Nat := 0
  history : List Nat := []
  handovers : Nat := 0
  handoverLog : List (List Byte) := []
  handoverChain : BitVec 512 := 0
  fwActive : Option FwImage := none
  fwStaged : Option FwImage := none
  minSvn : Nat := 0
  revoked : BitVec 4 := 0
  rateAllowed : BitVec 24 := 0
  deriving DecidableEq, Repr

/-- Progress of the module between off and operational, and its pins (R440 to R447, R488 to R491); `trainedNow` holds the
stacks trained or restored in this start, which the next start record takes. -/
structure Module where
  powered : Bool := true
  perstAsserted : Bool := true
  released : Bool := false
  fwVerified : Bool := false
  pathChosen : Bool := false
  full : Bool := false
  cfgReady : Bool := false
  icvarTakes : Bool := false
  grants : Nat := 0
  grantedW : Nat := 0
  testGrant : List Nat := []
  trainedNow : Tab Trained := []
  shutting : Bool := false
  off : Bool := false
  shutDownDone : Bool := false
  pwrOffOk : Bool := false
  thermTrip : Bool := false
  fenced : Bool := false
  timeNs : Nat := 0
  rootCycles : Nat := 0
  deriving DecidableEq, Repr

/-- The arbiter's and the sensors' memory between their periods (R461 to R472): since when some level is 4 or more and since when
every level is 0, the last readings, the sections that meet a throttle limit and those below the release, those with three sensors
ignored, caps that wait for the next period, changes of level since module reset, and energy below one mJ in tenths. -/
structure Power where
  highSince : Option Nat := none
  zeroSince : Option Nat := none
  dieLast : List Half := []
  stackLast : List Byte := []
  hot : List Nat := []
  cool : List Nat := []
  deadSections : List Nat := []
  pendingHostCap : Option Nat := none
  pendingMgmtCap : Option Nat := none
  levelChanges : Nat := 0
  energyTenths : Nat := 0
  deriving DecidableEq, Repr

/-- A section's Gravel rotation (R453 to R458): its number, the slice that runs with its corner, whether that is the rotation's
own next slice, whether that one has waited a period for its corner, the slices owed before it, those owed at the next rotation,
and whether the witness array runs a slice. -/
structure Gravel where
  rotation : Nat := 0
  running : Option (Nat × Nat) := none
  inOrder : Bool := false
  waited : Bool := false
  owed : List (Nat × Nat) := []
  next : List (Nat × Nat) := []
  witnessSlice : Bool := false
  deriving DecidableEq, Repr

/-- An SPDM connection (R477): version, algorithms agreed, session, and whether the session is established. -/
structure SpdmConn where
  version : Byte := 0
  algorithms : Bool := false
  session : Option Half := none
  finished : Bool := false
  deriving DecidableEq, Repr

/-- The instruction of the TAP (R480). -/
inductive TapInstr where
  | idcode | bypass | sample | extest
  deriving DecidableEq, Repr

/-- Root of trust, debug and the TAP (R474 to R480). `starts` and `randomCtr` number the starts and the random values drawn: the
model's own counters, which nothing resets. -/
structure Security where
  spdm : Tab SpdmConn := []
  debugLevel : Nat := 0
  tapInstr : TapInstr := .idcode
  tapCells : List Bool := []
  tapCapture : List Bool := []
  tapDrives : Bool := false
  starts : Nat := 0
  randomCtr : Nat := 0
  deriving DecidableEq, Repr

/-- An answer to a configuration request (R330). -/
inductive CfgAnswer where
  | none | retry | done (value : Word32)
  deriving DecidableEq, Repr

/-- An answer of the management endpoint (R444, R481, R482). -/
inductive MgmtAnswer where
  | none
  | silent
  | notReady
  | value (v : Int)
  | state (operational : Nat) (level : Nat)
  | initializing
  | inTest
  | accepted
  | rejected
  | control (command : Byte) (data : List Byte)
  deriving DecidableEq, Repr

/-- Why the SPDM responder or TDISP answers with an error. -/
inductive SpdmError where
  | versionMismatch | unexpectedRequest | invalidRequest | noCommonAlgorithm | decryptError | invalidState
  deriving DecidableEq, Repr

/-- An answer of the SPDM responder or of TDISP (R477, R478). -/
inductive SpdmAnswer where
  | none
  | error (why : SpdmError)
  | version (versions : List Nat)
  | capabilities (version : Byte)
  | algorithms (extAsym extHash : Half)
  | digests (digest : BitVec 512)
  | certificate (bytes : List Byte) (left : Nat)
  | signed (bytes signature : List Byte)
  | measurements (list : List (Nat × List Byte)) (signature : List Byte)
  | key (exchange signature : List Byte)
  | ok
  | tdi (state : TdiMode) (report : List (Nat × List Byte))
  deriving DecidableEq, Repr

/-- What the module hands out: data of the last reads, answers, MSI-X messages raised (function, vector), and what its
links send, oldest first. Fields of the model, not of the spec. -/
structure Out where
  bar0 : Word := 0
  bar2 : List Byte := []
  bar2Poisoned : Bool := false
  bar2Unsupported : Bool := false
  cfg : CfgAnswer := .none
  mgmt : MgmtAnswer := .none
  spdm : SpdmAnswer := .none
  tap : Word32 := 0
  msix : List (Nat × Nat) := []
  links : List (Nat × SentFlit) := []
  deriving DecidableEq, Repr

/-- A LAUNCH that has not published (R379): its context, carrier, programs, the held A-cycles counted when it started, the
work cycle of the last completion, whether a mark was set, and whether its slots were stopped. -/
structure Launch where
  ctx : Nat
  fn : Nat
  via : Via
  taken : Nat
  slots : List (Nat × Nat)
  heldBefore : Nat
  lastDone : Nat
  poisoned : Bool
  stopped : Bool
  mute : Bool := false
  deriving DecidableEq, Repr

/-- A BAR2 access that waits in the control-die port for a host window of its Winter partition (R251, R254): a read of `len` bytes, or
a write of its data. -/
structure PortAccess where
  fn : Nat
  off : Nat
  len : Nat
  data : Option (List Byte)
  deriving DecidableEq, Repr

/-- Host interface and Icvar. -/
structure HostSide where
  fns : Tab FnState := []
  vfEnable : Bool := false
  queues : Tab Queue := []
  commands : List PendCmd := []
  tokens : List CreateToken := []
  launches : List Launch := []
  launchOrder : Nat := 0
  port : List PortAccess := []
  deriving DecidableEq, Repr

/-- The objects that Caoco makes. -/
structure Objects where
  parts : Tab Part := []
  ctxs : Tab Ctx := []
  tallies : Tab Tally := []
  regions : Tab Region := []
  tensors : Tab Tensor := []
  gates : Tab Gate := []
  models : Tab Model := []
  groups : Tab Group := []
  comms : Tab Comm := []
  deriving DecidableEq, Repr

/-- Cores, engines and witnesses. -/
structure Work where
  cores : Tab Core := []
  slots : Tab Slot := []
  engines : Tab Engine := []
  witness : Tab (Option Sample) := []
  deriving DecidableEq, Repr

/-- Health, escalation and self-test; `results` are the sections' last Autumn results as HLT_AUTUMN shows them, which the
next start record takes. -/
structure Care where
  health : Tab Health := []
  partResets : List Nat := []
  hardFaults : List Nat := []
  autumn : Tab (Option AutumnRun) := []
  results : Tab AutumnResult := []
  gravel : Tab Gravel := []
  deriving DecidableEq, Repr

/-- The state of the block. Registers are kept by `RegKey` (Machine/Regs.lean) as their 64 bits; an unlisted register holds
its reset value. `freeCtr` numbers the free values drawn; `pending` is the queue of waiting commands. -/
structure State where
  module : Module := {}
  flash : Flash := {}
  regs : Tab Word := []
  mem : Mem := {}
  hostMem : List Host.Cell := []
  host : HostSide := {}
  objs : Objects := {}
  work : Work := {}
  links : Tab Link := []
  power : Power := {}
  care : Care := {}
  security : Security := {}
  out : Out := {}
  freeCtr : Nat := 0
  pending : List Instr := []
  deriving DecidableEq, Repr

/-- The block right after reset: supplied with power, PERST_N asserted, nothing listed in any table (log entry 2). -/
def State.reset : State := {}

end Sys2Proof.Machine
end

