-- ==== Sys2Proof/Machine/Bits.lean ====
section
/-! DEFINITION. Tables in canonical form, bit fields (R9), little-endian bytes (R8), saturating counters (R14). -/

namespace Sys2Proof.Machine

/-! ### Tables -/

/-- The record of key `k`; `d` where nothing is listed. -/
def tabGet {α : Type} (d : α) : Tab α → Nat → α
  | [], _ => d
  | (a, v) :: t, k => if a = k then v else tabGet d t k

/-- Put an entry before the first larger key. -/
def tabInsert {α : Type} (k : Nat) (v : α) : Tab α → Tab α
  | [] => [(k, v)]
  | (a, w) :: t => if k < a then (k, v) :: (a, w) :: t else (a, w) :: tabInsert k v t

/-- Drop the entry of key `k`. -/
def tabErase {α : Type} (k : Nat) (t : Tab α) : Tab α := t.filter (fun e => e.1 != k)

/-- Give key `k` the record `v`; nothing is listed for a record equal to the default. -/
def tabSet {α : Type} [DecidableEq α] (d : α) (t : Tab α) (k : Nat) (v : α) : Tab α :=
  if v = d then tabErase k t else tabInsert k v (tabErase k t)

/-- Drop the entries whose key satisfies `p`. -/
def tabClear {α : Type} (p : Nat → Bool) (t : Tab α) : Tab α := t.filter (fun e => !p e.1)

/-- Change every listed entry; the key is given too. -/
def tabMap {α : Type} (f : Nat → α → α) (t : Tab α) : Tab α := t.map (fun e => (e.1, f e.1 e.2))

/-- The keys rise strictly and no entry equals the default. -/
def tabWf {α : Type} [DecidableEq α] (d : α) : Tab α → Bool
  | [] => true
  | [(_, v)] => v != d
  | (a, v) :: (b, w) :: t => v != d && decide (a < b) && tabWf d ((b, w) :: t)

/-! ### Bit fields -/

/-- Bits hi down to lo of a number (R9). -/
def bitsOf (w hi lo : Nat) : Nat := w / 2 ^ lo % 2 ^ (hi + 1 - lo)

/-- Bit i of a number. -/
def bitOf (w i : Nat) : Bool := w / 2 ^ i % 2 = 1

/-- A number as a bit. -/
def toBit (b : Bool) : Nat := if b then 1 else 0

/-- Replace bits hi down to lo of a word by the low bits of `v`. -/
def putBits (w : Word) (hi lo : Nat) (v : Nat) : Word :=
  let mask : Word := BitVec.ofNat 64 (2 ^ (hi + 1 - lo) - 1) <<< lo
  (w &&& ~~~mask) ||| ((BitVec.ofNat 64 v <<< lo) &&& mask)

/-- Bits hi down to lo of a word. -/
def getBits (w : Word) (hi lo : Nat) : Nat := bitsOf w.toNat hi lo

/-- A two's-complement number of `n` bits as an integer. -/
def signedOf (n w : Nat) : Int := if w % 2 ^ n < 2 ^ (n - 1) then (w % 2 ^ n : Nat) else (w % 2 ^ n : Nat) - (2 ^ n : Nat)

/-- An integer in the low `n` bits, two's complement. -/
def toSigned (n : Nat) (v : Int) : Nat := (v % (2 ^ n : Nat)).toNat

/-- A counter of `w` bits after `n` more events: it stays at its largest value (R14). -/
def satAdd (w a n : Nat) : Nat := min (a + n) (2 ^ w - 1)

/-! ### Little-endian bytes -/

/-- The number whose bytes, least significant first, are given (R8). -/
def leNat : List Byte → Nat
  | [] => 0
  | b :: t => b.toNat + 256 * leNat t

/-- The `n` low bytes of a number, least significant first (R8). -/
def leBytes : Nat → Nat → List Byte
  | 0, _ => []
  | n + 1, v => BitVec.ofNat 8 v :: leBytes n (v / 256)

/-- The number in `n` bytes from byte offset `off`; bytes past the end count as zero. -/
def fieldAt (b : List Byte) (off n : Nat) : Nat := leNat ((b.drop off).take n)

/-- Bits hi down to lo of the number in `n` bytes from `off`. -/
def bitsAt (b : List Byte) (off n hi lo : Nat) : Nat := bitsOf (fieldAt b off n) hi lo

/-- The numbers 0 to n − 1. -/
def upTo (n : Nat) : List Nat := List.range n

/-- `a` to `a + n − 1`. -/
def spanOf (a n : Nat) : List Nat := (List.range n).map (a + ·)

/-- Ceiling of a quotient. -/
def ceilDiv (a b : Nat) : Nat := (a + b - 1) / b

/-- A list cut into pieces of `n`. -/
def chunksOf {α : Type} (n : Nat) (l : List α) : List (List α) :=
  (List.range (ceilDiv l.length n)).map (fun i => (l.drop (i * n)).take n)

/-- Change one element of a list. -/
def listModify {α : Type} (l : List α) (i : Nat) (f : α → α) : List α := l.modify i f

/-- The sum of a list. -/
def sumNat (l : List Nat) : Nat := l.foldl (· + ·) 0

/-- The number with the bits listed set. -/
def maskOf (l : List Nat) : Nat := l.foldl (fun a i => a ||| 2 ^ i) 0

/-- The numbers of the bits set below `n`. -/
def setBits (n m : Nat) : List Nat := (List.range n).filter (fun i => bitOf m i)

/-- A value within bounds. -/
def within (lo hi v : Nat) : Bool := decide (lo ≤ v) && decide (v ≤ hi)

end Sys2Proof.Machine
end

