-- ==== Sys2Proof/Machine/Regs.lean ====
section
/-! DEFINITION. The registers of the block (R10 to R17): names, fields with their access codes and reset values as the
spec's register tables give them, and the places of BAR0 (R333, R334). -/

namespace Sys2Proof.Machine

/-- The registers, by the names of their tables. -/
inductive RegName where
  /-- LOAM_CFG (R72). -/
  | loamCfg
  /-- LOAM_ECC_COUNT (R72). -/
  | loamEccCount
  /-- HBM_ECC_COUNT (R72). -/
  | hbmEccCount
  /-- LOAM_ECC_LAST (R72). -/
  | loamEccLast
  /-- HBM_ECC_LAST (R72). -/
  | hbmEccLast
  /-- LOAM_CACHE_STAT (R72). -/
  | loamCacheStat
  /-- LOAM_CACHE_WB (R72). -/
  | loamCacheWb
  /-- LOAM_SCRUB (R72). -/
  | loamScrub
  /-- HBM_STATUS (R72). -/
  | hbmStatus
  /-- HBM_REFRESH (R72). -/
  | hbmRefresh
  /-- HBM_LOOP (R72). -/
  | hbmLoop
  /-- HBM_LOOP_RESULT (R72). -/
  | hbmLoopResult
  /-- HBM_MOVER_BLOCKS (R72). -/
  | hbmMoverBlocks
  /-- HBM_MOVER_CRC (R72). -/
  | hbmMoverCrc
  /-- HBM_MOVER_CRC_LAST (R72). -/
  | hbmMoverCrcLast
  /-- CORE_STATUS (R168). -/
  | coreStatus
  /-- CORE_RUN (R168). -/
  | coreRun
  /-- CORE_TILES (R168). -/
  | coreTiles
  /-- CORE_BUSY (R168). -/
  | coreBusy
  /-- CORE_STALL (R168). -/
  | coreStall
  /-- CORE_FAULT_LAST (R168). -/
  | coreFaultLast
  /-- CORE_FEEDER_ECC (R168). -/
  | coreFeederEcc
  /-- CORE_WDOG (R168). -/
  | coreWdog
  /-- NUM_CFG (R221). -/
  | numCfg
  /-- NUM_CTR_USE (R221). -/
  | numCtrUse
  /-- NUM_WIT_STAT (R221). -/
  | numWitStat
  /-- NUM_WIT_EVENTS (R221). -/
  | numWitEvents
  /-- NUM_WIT_LAST (R221). -/
  | numWitLast
  /-- NUM_WIT_LAST_COND (R221). -/
  | numWitLastCond
  /-- NUM_OPT_STAT (R221). -/
  | numOptStat
  /-- NUM_OPT_ELEMENTS (R221). -/
  | numOptElements
  /-- NUM_LOG (R221). -/
  | numLog
  /-- CORE_ROUTE_STATUS (R241). -/
  | coreRouteStatus
  /-- CORE_ROUTE_DESC (R241). -/
  | coreRouteDesc
  /-- CORE_ROUTE_WORDS (R241). -/
  | coreRouteWords
  /-- CORE_ROUTE_STALL (R241). -/
  | coreRouteStall
  /-- CORE_ROUTE_OOB (R241). -/
  | coreRouteOob
  /-- CORE_ROUTE_FAULT_LAST (R241). -/
  | coreRouteFaultLast
  /-- RPL_SCHED (R269). -/
  | rplSched
  /-- RPL_WORK (R269). -/
  | rplWork
  /-- RPL_HELD (R269). -/
  | rplHeld
  /-- RPL_HOLD_A (R269). -/
  | rplHoldA
  /-- RPL_HOLD_B (R269). -/
  | rplHoldB
  /-- RPL_HOLD_C (R269). -/
  | rplHoldC
  /-- RPL_HOLD_D (R269). -/
  | rplHoldD
  /-- RPL_CHOICE_ISSUE (R269). -/
  | rplChoiceIssue
  /-- RPL_CHOICE_GRANT (R269). -/
  | rplChoiceGrant
  /-- RPL_CHOICE_SLOT (R269). -/
  | rplChoiceSlot
  /-- RPL_CHOICE_ARB (R269). -/
  | rplChoiceArb
  /-- RPL_LOG (R269). -/
  | rplLog
  /-- RPL_DIVERGE (R269). -/
  | rplDiverge
  /-- LNK_STATUS (R298). -/
  | lnkStatus
  /-- LNK_PARTNER (R298). -/
  | lnkPartner
  /-- LNK_CFG (R298). -/
  | lnkCfg
  /-- LNK_FEC (R298). -/
  | lnkFec
  /-- LNK_RETRY (R298). -/
  | lnkRetry
  /-- LNK_TRAIN (R298). -/
  | lnkTrain
  /-- LNK_TX_BYTES (R298). -/
  | lnkTxBytes
  /-- LNK_RX_BYTES (R298). -/
  | lnkRxBytes
  /-- LNK_REFUSE_A (R298). -/
  | lnkRefuseA
  /-- LNK_REFUSE_B (R298). -/
  | lnkRefuseB
  /-- LNK_HOSTILE (R298). -/
  | lnkHostile
  /-- LNK_PEER (R298). -/
  | lnkPeer
  /-- LNK_LOOP (R298). -/
  | lnkLoop
  /-- LNK_LOOP_RESULT (R298). -/
  | lnkLoopResult
  /-- COLL_STATUS (R327). -/
  | collStatus
  /-- COLL_DESC (R327). -/
  | collDesc
  /-- COLL_BYTES_TX (R327). -/
  | collBytesTx
  /-- COLL_BYTES_RX (R327). -/
  | collBytesRx
  /-- COLL_STAMP (R327). -/
  | collStamp
  /-- COLL_WAIT (R327). -/
  | collWait
  /-- COLL_FAULT_LAST (R327). -/
  | collFaultLast
  /-- MBX_IN_STATUS (R343). -/
  | mbxInStatus
  /-- MBX_OUT_STATUS (R343). -/
  | mbxOutStatus
  /-- MBX_IN_WORD (R343). -/
  | mbxInWord
  /-- MBX_IN_ACK (R343). -/
  | mbxInAck
  /-- MBX_OUT_WORD (R343). -/
  | mbxOutWord
  /-- MBX_OUT_ACK (R343). -/
  | mbxOutAck
  /-- MBX_SUMMARY (R343). -/
  | mbxSummary
  /-- HIF_QSLOT_PTR (R353). -/
  | hifQslotPtr
  /-- HIF_QSLOT_CTL (R353). -/
  | hifQslotCtl
  /-- HIF_LINK (R358). -/
  | hifLink
  /-- HIF_PCIE_ERR (R358). -/
  | hifPcieErr
  /-- HIF_DB_REJECT (R358). -/
  | hifDbReject
  /-- HIF_BAR2_REFUSE (R358). -/
  | hifBar2Refuse
  /-- HIF_BAR2_LAST (R358). -/
  | hifBar2Last
  /-- HIF_FLR (R358). -/
  | hifFlr
  /-- HIF_FUNC (R358). -/
  | hifFunc
  /-- IDENT_VENDOR (R359). -/
  | identVendor
  /-- IDENT_STEPPING (R359). -/
  | identStepping
  /-- IDENT_MODULE_ID (R359). -/
  | identModuleId
  /-- IDENT_VERSIONS (R359). -/
  | identVersions
  /-- IDENT_FW (R359). -/
  | identFw
  /-- IDENT_FUNC (R359). -/
  | identFunc
  /-- IDENT_CAPS (R359). -/
  | identCaps
  /-- FLT_STATUS (R439). -/
  | fltStatus
  /-- FLT_CTL (R439). -/
  | fltCtl
  /-- FLT_ESC_CFG (R439). -/
  | fltEscCfg
  /-- FLT_ESC_COUNT (R439). -/
  | fltEscCount
  /-- FLT_RESETS (R439). -/
  | fltResets
  /-- FLT_LAST (R439). -/
  | fltLast
  /-- FLT_LAST_TIME (R439). -/
  | fltLastTime
  /-- FLT_DROPS_A (R439). -/
  | fltDropsA
  /-- FLT_DROPS_B (R439). -/
  | fltDropsB
  /-- FLT_ABORT (R439). -/
  | fltAbort
  /-- FLT_WDOG (R439). -/
  | fltWdog
  /-- HLT_SUMMARY (R439). -/
  | hltSummary
  /-- HLT_UNIT (R439). -/
  | hltUnit
  /-- FLT_START (R459). -/
  | fltStart
  /-- HLT_AUTUMN (R459). -/
  | hltAutumn
  /-- HLT_GRAVEL (R459). -/
  | hltGravel
  /-- HLT_GRAVEL_POS (R459). -/
  | hltGravelPos
  /-- HLT_GRAVEL_LAST (R459). -/
  | hltGravelLast
  /-- HLT_GRAVEL_COND (R459). -/
  | hltGravelCond
  /-- HLT_GRAVEL_CFG (R459). -/
  | hltGravelCfg
  /-- PWR_STATUS (R484). -/
  | pwrStatus
  /-- PWR_CAP (R484). -/
  | pwrCap
  /-- PWR_THROTTLE (R484). -/
  | pwrThrottle
  /-- PWR_ENERGY (R484). -/
  | pwrEnergy
  /-- PWR_SECTION (R484). -/
  | pwrSection
  /-- CLK_STATUS (R484). -/
  | clkStatus
  /-- CLK_TIME (R484). -/
  | clkTime
  /-- THM_CFG (R484). -/
  | thmCfg
  /-- THM_TRIP_LAST (R484). -/
  | thmTripLast
  /-- THM_SECTION (R484). -/
  | thmSection
  /-- THM_SENSOR (R484). -/
  | thmSensor
  deriving DecidableEq, Repr

/-- Access codes (R12). -/
inductive Access where
  | ro | rw | wo | w1c | rc
  deriving DecidableEq, Repr

/-- A field of a register: its register and its bits (R9). -/
structure RField where
  reg : RegName
  hi : Nat
  lo : Nat
  deriving DecidableEq, Repr

/-- A register of the block: its name and which of its copies: unit `i` (section, function or partition), and `j` within. -/
structure RegAt where
  reg : RegName
  i : Nat
  j : Nat
  deriving DecidableEq, Repr

/-- Every register's name. -/
def RegName.all : List RegName := [.loamCfg, .loamEccCount, .hbmEccCount, .loamEccLast, .hbmEccLast, .loamCacheStat, .loamCacheWb, 
  .loamScrub, .hbmStatus, .hbmRefresh, .hbmLoop, .hbmLoopResult, .hbmMoverBlocks, .hbmMoverCrc, 
  .hbmMoverCrcLast, .coreStatus, .coreRun, .coreTiles, .coreBusy, .coreStall, .coreFaultLast, 
  .coreFeederEcc, .coreWdog, .numCfg, .numCtrUse, .numWitStat, .numWitEvents, .numWitLast, 
  .numWitLastCond, .numOptStat, .numOptElements, .numLog, .coreRouteStatus, .coreRouteDesc, 
  .coreRouteWords, .coreRouteStall, .coreRouteOob, .coreRouteFaultLast, .rplSched, .rplWork, .rplHeld, 
  .rplHoldA, .rplHoldB, .rplHoldC, .rplHoldD, .rplChoiceIssue, .rplChoiceGrant, .rplChoiceSlot, 
  .rplChoiceArb, .rplLog, .rplDiverge, .lnkStatus, .lnkPartner, .lnkCfg, .lnkFec, .lnkRetry, .lnkTrain, 
  .lnkTxBytes, .lnkRxBytes, .lnkRefuseA, .lnkRefuseB, .lnkHostile, .lnkPeer, .lnkLoop, .lnkLoopResult, 
  .collStatus, .collDesc, .collBytesTx, .collBytesRx, .collStamp, .collWait, .collFaultLast, 
  .mbxInStatus, .mbxOutStatus, .mbxInWord, .mbxInAck, .mbxOutWord, .mbxOutAck, .mbxSummary, 
  .hifQslotPtr, .hifQslotCtl, .hifLink, .hifPcieErr, .hifDbReject, .hifBar2Refuse, .hifBar2Last, 
  .hifFlr, .hifFunc, .identVendor, .identStepping, .identModuleId, .identVersions, .identFw, 
  .identFunc, .identCaps, .fltStatus, .fltCtl, .fltEscCfg, .fltEscCount, .fltResets, .fltLast, 
  .fltLastTime, .fltDropsA, .fltDropsB, .fltAbort, .fltWdog, .hltSummary, .hltUnit, .fltStart, 
  .hltAutumn, .hltGravel, .hltGravelPos, .hltGravelLast, .hltGravelCond, .hltGravelCfg, .pwrStatus, 
  .pwrCap, .pwrThrottle, .pwrEnergy, .pwrSection, .clkStatus, .clkTime, .thmCfg, .thmTripLast, 
  .thmSection, .thmSensor]

/-- The number of a register's name. -/
def RegName.num (r : RegName) : Nat := r.ctorIdx

/-- The key of a register in `State.regs`. -/
def regKey (a : RegAt) : Nat := (a.reg.num * 64 + a.i) * 1024 + a.j

/-- The name part of a key. -/
def keyName (k : Nat) : Nat := k / 65536
/-- The unit part of a key. -/
def keyUnit (k : Nat) : Nat := k / 1024 % 64
/-- The inner part of a key. -/
def keyInner (k : Nat) : Nat := k % 1024

/-! ### Fields -/

def fLoamCfgPartition : RField := ⟨.loamCfg, 15, 8⟩
def fLoamCfgWinter : RField := ⟨.loamCfg, 7, 7⟩
def fLoamCfgCacheUnits : RField := ⟨.loamCfg, 5, 0⟩
def fLoamEccCountPoisoned : RField := ⟨.loamEccCount, 63, 48⟩
def fLoamEccCountUncorr : RField := ⟨.loamEccCount, 47, 32⟩
def fLoamEccCountCorr : RField := ⟨.loamEccCount, 31, 0⟩
def fHbmEccCountPoisoned : RField := ⟨.hbmEccCount, 63, 48⟩
def fHbmEccCountUncorr : RField := ⟨.hbmEccCount, 47, 32⟩
def fHbmEccCountCorr : RField := ⟨.hbmEccCount, 31, 0⟩
def fLoamEccLastValid : RField := ⟨.loamEccLast, 63, 63⟩
def fLoamEccLastUncorr : RField := ⟨.loamEccLast, 62, 62⟩
def fLoamEccLastPoison : RField := ⟨.loamEccLast, 61, 61⟩
def fLoamEccLastSymbol : RField := ⟨.loamEccLast, 57, 53⟩
def fLoamEccLastOffset : RField := ⟨.loamEccLast, 29, 4⟩
def fHbmEccLastSymbol : RField := ⟨.hbmEccLast, 60, 56⟩
def fHbmEccLastOffset : RField := ⟨.hbmEccLast, 35, 4⟩
def fHbmEccLastValid : RField := ⟨.hbmEccLast, 63, 63⟩
def fHbmEccLastUncorr : RField := ⟨.hbmEccLast, 62, 62⟩
def fHbmEccLastPoison : RField := ⟨.hbmEccLast, 61, 61⟩
def fLoamCacheStatMisses : RField := ⟨.loamCacheStat, 63, 32⟩
def fLoamCacheStatHits : RField := ⟨.loamCacheStat, 31, 0⟩
def fLoamCacheWbFills : RField := ⟨.loamCacheWb, 63, 32⟩
def fLoamCacheWbWritebacks : RField := ⟨.loamCacheWb, 31, 0⟩
def fLoamScrubPasses : RField := ⟨.loamScrub, 63, 32⟩
def fLoamScrubPeriod : RField := ⟨.loamScrub, 31, 0⟩
def fHbmStatusTemp : RField := ⟨.hbmStatus, 55, 48⟩
def fHbmStatusRate : RField := ⟨.hbmStatus, 9, 8⟩
def fHbmStatusTrainSrc : RField := ⟨.hbmStatus, 5, 4⟩
def fHbmStatusRefDouble : RField := ⟨.hbmStatus, 2, 2⟩
def fHbmStatusTrained : RField := ⟨.hbmStatus, 1, 1⟩
def fHbmStatusOnline : RField := ⟨.hbmStatus, 0, 0⟩
def fHbmRefreshUnscheduled : RField := ⟨.hbmRefresh, 63, 32⟩
def fHbmRefreshScheduled : RField := ⟨.hbmRefresh, 31, 0⟩
def fHbmLoopStart : RField := ⟨.hbmLoop, 15, 15⟩
def fHbmLoopPattern : RField := ⟨.hbmLoop, 11, 8⟩
def fHbmLoopMode : RField := ⟨.hbmLoop, 1, 0⟩
def fHbmLoopResultDone : RField := ⟨.hbmLoopResult, 63, 63⟩
def fHbmLoopResultRefused : RField := ⟨.hbmLoopResult, 62, 62⟩
def fHbmLoopResultLanesFailed : RField := ⟨.hbmLoopResult, 47, 32⟩
def fHbmLoopResultErrors : RField := ⟨.hbmLoopResult, 31, 0⟩
def fHbmMoverBlocksBlocks : RField := ⟨.hbmMoverBlocks, 47, 0⟩
def fHbmMoverCrcCrcRetryOk : RField := ⟨.hbmMoverCrc, 63, 32⟩
def fHbmMoverCrcCrcMismatch : RField := ⟨.hbmMoverCrc, 31, 0⟩
def fHbmMoverCrcLastValid : RField := ⟨.hbmMoverCrcLast, 63, 63⟩
def fHbmMoverCrcLastStack : RField := ⟨.hbmMoverCrcLast, 59, 58⟩
def fHbmMoverCrcLastBlockOffset : RField := ⟨.hbmMoverCrcLast, 35, 12⟩
def fCoreStatusUnitBusy : RField := ⟨.coreStatus, 38, 32⟩
def fCoreStatusWindow : RField := ⟨.coreStatus, 20, 16⟩
def fCoreStatusState : RField := ⟨.coreStatus, 7, 4⟩
def fCoreStatusWdogFired : RField := ⟨.coreStatus, 0, 0⟩
def fCoreRunGenTag : RField := ⟨.coreRun, 63, 48⟩
def fCoreRunSlot : RField := ⟨.coreRun, 43, 41⟩
def fCoreRunContext : RField := ⟨.coreRun, 40, 32⟩
def fCoreRunDescIndex : RField := ⟨.coreRun, 31, 0⟩
def fCoreTilesDropped : RField := ⟨.coreTiles, 63, 48⟩
def fCoreTilesCancelled : RField := ⟨.coreTiles, 47, 32⟩
def fCoreTilesCompleted : RField := ⟨.coreTiles, 31, 0⟩
def fCoreBusyArrayCycles : RField := ⟨.coreBusy, 63, 0⟩
def fCoreStallReadStall : RField := ⟨.coreStall, 63, 32⟩
def fCoreStallWriteStall : RField := ⟨.coreStall, 31, 0⟩
def fCoreFaultLastValid : RField := ⟨.coreFaultLast, 63, 63⟩
def fCoreFaultLastCause : RField := ⟨.coreFaultLast, 55, 48⟩
def fCoreFaultLastUnit : RField := ⟨.coreFaultLast, 43, 40⟩
def fCoreFaultLastSlot : RField := ⟨.coreFaultLast, 34, 32⟩
def fCoreFaultLastDescIndex : RField := ⟨.coreFaultLast, 31, 0⟩
def fCoreFeederEccUncorr : RField := ⟨.coreFeederEcc, 63, 32⟩
def fCoreFeederEccCorr : RField := ⟨.coreFeederEcc, 31, 0⟩
def fCoreWdogWaitLimit : RField := ⟨.coreWdog, 63, 32⟩
def fCoreWdogWaitsReported : RField := ⟨.coreWdog, 31, 0⟩
def fNumCfgWitK : RField := ⟨.numCfg, 12, 8⟩
def fNumCfgWitOffline : RField := ⟨.numCfg, 2, 2⟩
def fNumCfgWitHold : RField := ⟨.numCfg, 1, 1⟩
def fNumCfgWitEnable : RField := ⟨.numCfg, 0, 0⟩
def fNumCtrUseDriftPairs : RField := ⟨.numCtrUse, 40, 32⟩
def fNumCtrUseGates : RField := ⟨.numCtrUse, 22, 16⟩
def fNumCtrUseRecords : RField := ⟨.numCtrUse, 12, 0⟩
def fNumWitStatSkipped : RField := ⟨.numWitStat, 63, 32⟩
def fNumWitStatSampled : RField := ⟨.numWitStat, 31, 0⟩
def fNumWitEventsSelfDisagree : RField := ⟨.numWitEvents, 47, 32⟩
def fNumWitEventsExactMismatch : RField := ⟨.numWitEvents, 31, 16⟩
def fNumWitEventsDriftOverBand : RField := ⟨.numWitEvents, 15, 0⟩
def fNumWitLastValid : RField := ⟨.numWitLast, 63, 63⟩
def fNumWitLastKind : RField := ⟨.numWitLast, 62, 60⟩
def fNumWitLastCore : RField := ⟨.numWitLast, 59, 56⟩
def fNumWitLastArray : RField := ⟨.numWitLast, 55, 54⟩
def fNumWitLastContext : RField := ⟨.numWitLast, 53, 45⟩
def fNumWitLastMismatches : RField := ⟨.numWitLast, 44, 34⟩
def fNumWitLastDescIndex : RField := ⟨.numWitLast, 31, 0⟩
def fNumWitLastCondTemp : RField := ⟨.numWitLastCond, 63, 48⟩
def fNumWitLastCondVoltage : RField := ⟨.numWitLastCond, 47, 32⟩
def fNumWitLastCondLoad : RField := ⟨.numWitLastCond, 31, 16⟩
def fNumWitLastCondPower : RField := ⟨.numWitLastCond, 15, 0⟩
def fNumOptStatPartial : RField := ⟨.numOptStat, 63, 32⟩
def fNumOptStatSkippedDesc : RField := ⟨.numOptStat, 31, 0⟩
def fNumOptElementsElements : RField := ⟨.numOptElements, 47, 0⟩
def fNumLogLost : RField := ⟨.numLog, 63, 32⟩
def fNumLogWritten : RField := ⟨.numLog, 31, 0⟩
def fCoreRouteStatusWindow : RField := ⟨.coreRouteStatus, 24, 16⟩
def fCoreRouteStatusState : RField := ⟨.coreRouteStatus, 7, 4⟩
def fCoreRouteStatusWdogFired : RField := ⟨.coreRouteStatus, 0, 0⟩
def fCoreRouteDescDropped : RField := ⟨.coreRouteDesc, 63, 48⟩
def fCoreRouteDescCancelled : RField := ⟨.coreRouteDesc, 47, 32⟩
def fCoreRouteDescCompleted : RField := ⟨.coreRouteDesc, 31, 0⟩
def fCoreRouteWordsWords : RField := ⟨.coreRouteWords, 63, 0⟩
def fCoreRouteStallPortWait : RField := ⟨.coreRouteStall, 63, 32⟩
def fCoreRouteStallBankConflict : RField := ⟨.coreRouteStall, 31, 0⟩
def fCoreRouteOobAbsent : RField := ⟨.coreRouteOob, 63, 32⟩
def fCoreRouteOobSkippedOob : RField := ⟨.coreRouteOob, 31, 0⟩
def fCoreRouteFaultLastValid : RField := ⟨.coreRouteFaultLast, 63, 63⟩
def fCoreRouteFaultLastCause : RField := ⟨.coreRouteFaultLast, 55, 48⟩
def fCoreRouteFaultLastContext : RField := ⟨.coreRouteFaultLast, 40, 32⟩
def fCoreRouteFaultLastListPos : RField := ⟨.coreRouteFaultLast, 31, 0⟩
def fRplSchedLimitReports : RField := ⟨.rplSched, 63, 32⟩
def fRplSchedTableVer : RField := ⟨.rplSched, 31, 24⟩
def fRplSchedHeld : RField := ⟨.rplSched, 8, 8⟩
def fRplSchedTableLoaded : RField := ⟨.rplSched, 1, 1⟩
def fRplSchedWinter : RField := ⟨.rplSched, 0, 0⟩
def fRplWorkLaunch : RField := ⟨.rplWork, 63, 32⟩
def fRplWorkWorkCycles : RField := ⟨.rplWork, 31, 0⟩
def fRplHeldHeldCycles : RField := ⟨.rplHeld, 63, 0⟩
def fRplHoldACorr : RField := ⟨.rplHoldA, 63, 32⟩
def fRplHoldARefresh : RField := ⟨.rplHoldA, 31, 0⟩
def fRplHoldBLink : RField := ⟨.rplHoldB, 63, 32⟩
def fRplHoldBThrottle : RField := ⟨.rplHoldB, 31, 0⟩
def fRplHoldCExternal : RField := ⟨.rplHoldC, 63, 32⟩
def fRplHoldCCheck : RField := ⟨.rplHoldC, 31, 0⟩
def fRplHoldDTrace : RField := ⟨.rplHoldD, 31, 0⟩
def fRplChoiceIssueIssue : RField := ⟨.rplChoiceIssue, 63, 0⟩
def fRplChoiceGrantGrant : RField := ⟨.rplChoiceGrant, 63, 0⟩
def fRplChoiceSlotSlot : RField := ⟨.rplChoiceSlot, 63, 0⟩
def fRplChoiceArbArb : RField := ⟨.rplChoiceArb, 63, 0⟩
def fRplLogLost : RField := ⟨.rplLog, 63, 48⟩
def fRplLogLiveDropped : RField := ⟨.rplLog, 47, 32⟩
def fRplLogContext : RField := ⟨.rplLog, 12, 4⟩
def fRplLogDiverged : RField := ⟨.rplLog, 3, 3⟩
def fRplLogStopped : RField := ⟨.rplLog, 2, 2⟩
def fRplLogReplaying : RField := ⟨.rplLog, 1, 1⟩
def fRplLogRecording : RField := ⟨.rplLog, 0, 0⟩
def fRplDivergeBits : RField := ⟨.rplDiverge, 63, 63⟩
def fRplDivergeTiming : RField := ⟨.rplDiverge, 62, 62⟩
def fRplDivergeSeq : RField := ⟨.rplDiverge, 61, 0⟩
def fLnkStatusProtoVer : RField := ⟨.lnkStatus, 55, 48⟩
def fLnkStatusLatency : RField := ⟨.lnkStatus, 43, 32⟩
def fLnkStatusFenceCause : RField := ⟨.lnkStatus, 31, 28⟩
def fLnkStatusPartition : RField := ⟨.lnkStatus, 23, 16⟩
def fLnkStatusLanes : RField := ⟨.lnkStatus, 11, 10⟩
def fLnkStatusRate : RField := ⟨.lnkStatus, 9, 8⟩
def fLnkStatusState : RField := ⟨.lnkStatus, 3, 0⟩
def fLnkPartnerModuleId : RField := ⟨.lnkPartner, 63, 16⟩
def fLnkPartnerLink : RField := ⟨.lnkPartner, 13, 8⟩
def fLnkPartnerModuleState : RField := ⟨.lnkPartner, 2, 0⟩
def fLnkCfgFenceLimit : RField := ⟨.lnkCfg, 39, 32⟩
def fLnkCfgEpochGrace : RField := ⟨.lnkCfg, 22, 16⟩
def fLnkCfgRateCap : RField := ⟨.lnkCfg, 9, 8⟩
def fLnkCfgExpectCheck : RField := ⟨.lnkCfg, 0, 0⟩
def fLnkFecCorrCw : RField := ⟨.lnkFec, 63, 32⟩
def fLnkFecUncorrCw : RField := ⟨.lnkFec, 31, 0⟩
def fLnkRetryNaks : RField := ⟨.lnkRetry, 63, 32⟩
def fLnkRetryResent : RField := ⟨.lnkRetry, 31, 0⟩
def fLnkTrainRetrains : RField := ⟨.lnkTrain, 63, 48⟩
def fLnkTrainDegrades : RField := ⟨.lnkTrain, 47, 32⟩
def fLnkTrainVersionFail : RField := ⟨.lnkTrain, 31, 24⟩
def fLnkTrainSilentEvents : RField := ⟨.lnkTrain, 23, 16⟩
def fLnkTrainHbMissed : RField := ⟨.lnkTrain, 15, 0⟩
def fLnkTxBytesBytes : RField := ⟨.lnkTxBytes, 63, 0⟩
def fLnkRxBytesBytes : RField := ⟨.lnkRxBytes, 63, 0⟩
def fLnkRefuseAStaleGen : RField := ⟨.lnkRefuseA, 63, 48⟩
def fLnkRefuseAStaleEpoch : RField := ⟨.lnkRefuseA, 47, 32⟩
def fLnkRefuseAExcluded : RField := ⟨.lnkRefuseA, 31, 16⟩
def fLnkRefuseAFutureDropped : RField := ⟨.lnkRefuseA, 15, 0⟩
def fLnkRefuseBBadHandle : RField := ⟨.lnkRefuseB, 63, 48⟩
def fLnkRefuseBBadRange : RField := ⟨.lnkRefuseB, 47, 32⟩
def fLnkRefuseBUnowned : RField := ⟨.lnkRefuseB, 31, 16⟩
def fLnkRefuseBCrcFault : RField := ⟨.lnkRefuseB, 15, 0⟩
def fLnkHostileCreditExcess : RField := ⟨.lnkHostile, 63, 48⟩
def fLnkHostileCreditViolation : RField := ⟨.lnkHostile, 47, 32⟩
def fLnkHostileMalformed : RField := ⟨.lnkHostile, 31, 16⟩
def fLnkHostileCtrlFlood : RField := ⟨.lnkHostile, 15, 0⟩
def fLnkPeerRefusedByPartner : RField := ⟨.lnkPeer, 63, 32⟩
def fLnkPeerNotices : RField := ⟨.lnkPeer, 31, 0⟩
def fLnkLoopStart : RField := ⟨.lnkLoop, 15, 15⟩
def fLnkLoopPattern : RField := ⟨.lnkLoop, 11, 8⟩
def fLnkLoopMode : RField := ⟨.lnkLoop, 1, 0⟩
def fLnkLoopResultDone : RField := ⟨.lnkLoopResult, 63, 63⟩
def fLnkLoopResultRefused : RField := ⟨.lnkLoopResult, 62, 62⟩
def fLnkLoopResultNoLock1 : RField := ⟨.lnkLoopResult, 57, 57⟩
def fLnkLoopResultNoLock0 : RField := ⟨.lnkLoopResult, 56, 56⟩
def fLnkLoopResultLane1Errors : RField := ⟨.lnkLoopResult, 55, 28⟩
def fLnkLoopResultLane0Errors : RField := ⟨.lnkLoopResult, 27, 0⟩
def fCollStatusSeq : RField := ⟨.collStatus, 63, 32⟩
def fCollStatusGroups : RField := ⟨.collStatus, 22, 16⟩
def fCollStatusComm : RField := ⟨.collStatus, 13, 8⟩
def fCollStatusState : RField := ⟨.collStatus, 7, 4⟩
def fCollDescDropped : RField := ⟨.collDesc, 63, 48⟩
def fCollDescCancelled : RField := ⟨.collDesc, 47, 32⟩
def fCollDescCompleted : RField := ⟨.collDesc, 31, 0⟩
def fCollBytesTxBytes : RField := ⟨.collBytesTx, 63, 0⟩
def fCollBytesRxBytes : RField := ⟨.collBytesRx, 63, 0⟩
def fCollStampStampMismatch : RField := ⟨.collStamp, 63, 32⟩
def fCollStampGathers : RField := ⟨.collStamp, 31, 0⟩
def fCollWaitWaitLimit : RField := ⟨.collWait, 63, 32⟩
def fCollWaitWaitsReported : RField := ⟨.collWait, 31, 0⟩
def fCollFaultLastValid : RField := ⟨.collFaultLast, 63, 63⟩
def fCollFaultLastCause : RField := ⟨.collFaultLast, 55, 48⟩
def fCollFaultLastComm : RField := ⟨.collFaultLast, 45, 40⟩
def fCollFaultLastContext : RField := ⟨.collFaultLast, 31, 23⟩
def fCollFaultLastChunkNo : RField := ⟨.collFaultLast, 22, 0⟩
def fMbxInStatusCollisions : RField := ⟨.mbxInStatus, 47, 32⟩
def fMbxInStatusTaken : RField := ⟨.mbxInStatus, 23, 16⟩
def fMbxInStatusAckLost : RField := ⟨.mbxInStatus, 3, 3⟩
def fMbxInStatusNotReady : RField := ⟨.mbxInStatus, 2, 2⟩
def fMbxInStatusCollide : RField := ⟨.mbxInStatus, 1, 1⟩
def fMbxInStatusFull : RField := ⟨.mbxInStatus, 0, 0⟩
def fMbxOutStatusDropped : RField := ⟨.mbxOutStatus, 47, 32⟩
def fMbxOutStatusAckStray : RField := ⟨.mbxOutStatus, 3, 3⟩
def fMbxOutStatusCollide : RField := ⟨.mbxOutStatus, 1, 1⟩
def fMbxOutStatusFull : RField := ⟨.mbxOutStatus, 0, 0⟩
def fMbxInWordWord : RField := ⟨.mbxInWord, 63, 0⟩
def fMbxInAckValid : RField := ⟨.mbxInAck, 63, 63⟩
def fMbxInAckSeq : RField := ⟨.mbxInAck, 47, 32⟩
def fMbxInAckRetCode : RField := ⟨.mbxInAck, 15, 0⟩
def fMbxOutWordWord : RField := ⟨.mbxOutWord, 63, 0⟩
def fMbxOutAckSeq : RField := ⟨.mbxOutAck, 47, 32⟩
def fMbxOutAckRetCode : RField := ⟨.mbxOutAck, 15, 0⟩
def fMbxSummaryOutFull : RField := ⟨.mbxSummary, 23, 16⟩
def fMbxSummaryInAckValid : RField := ⟨.mbxSummary, 15, 8⟩
def fMbxSummaryInFull : RField := ⟨.mbxSummary, 7, 0⟩
def fHifQslotPtrCqProduced : RField := ⟨.hifQslotPtr, 63, 32⟩
def fHifQslotPtrSqConsumed : RField := ⟨.hifQslotPtr, 31, 0⟩
def fHifQslotCtlCqReleased : RField := ⟨.hifQslotCtl, 63, 32⟩
def fHifQslotCtlState : RField := ⟨.hifQslotCtl, 19, 18⟩
def fHifQslotCtlBound : RField := ⟨.hifQslotCtl, 17, 17⟩
def fHifQslotCtlQueue : RField := ⟨.hifQslotCtl, 12, 0⟩
def fHifLinkIdeStreams : RField := ⟨.hifLink, 39, 32⟩
def fHifLinkLinkIde : RField := ⟨.hifLink, 24, 24⟩
def fHifLinkFlit : RField := ⟨.hifLink, 16, 16⟩
def fHifLinkSpeedLow : RField := ⟨.hifLink, 12, 12⟩
def fHifLinkWidth : RField := ⟨.hifLink, 11, 8⟩
def fHifLinkSpeed : RField := ⟨.hifLink, 3, 0⟩
def fHifPcieErrPoisonedRx : RField := ⟨.hifPcieErr, 63, 48⟩
def fHifPcieErrUrSent : RField := ⟨.hifPcieErr, 47, 32⟩
def fHifPcieErrCorrectable : RField := ⟨.hifPcieErr, 31, 16⟩
def fHifPcieErrUncorrectable : RField := ⟨.hifPcieErr, 15, 0⟩
def fHifDbRejectWrongFunction : RField := ⟨.hifDbReject, 63, 48⟩
def fHifDbRejectStaleGen : RField := ⟨.hifDbReject, 47, 32⟩
def fHifDbRejectBadWrite : RField := ⟨.hifDbReject, 31, 16⟩
def fHifDbRejectNotEnabled : RField := ⟨.hifDbReject, 15, 0⟩
def fHifBar2RefusePoisonedReads : RField := ⟨.hifBar2Refuse, 63, 32⟩
def fHifBar2RefuseRefused : RField := ⟨.hifBar2Refuse, 31, 0⟩
def fHifBar2LastValid : RField := ⟨.hifBar2Last, 63, 63⟩
def fHifBar2LastFunction : RField := ⟨.hifBar2Last, 62, 57⟩
def fHifBar2LastWrite : RField := ⟨.hifBar2Last, 56, 56⟩
def fHifBar2LastOffset : RField := ⟨.hifBar2Last, 40, 0⟩
def fHifFlrFlrCount : RField := ⟨.hifFlr, 63, 32⟩
def fHifFlrLastDuration : RField := ⟨.hifFlr, 31, 0⟩
def fHifFuncPartition : RField := ⟨.hifFunc, 63, 56⟩
def fHifFuncQueues : RField := ⟨.hifFunc, 41, 32⟩
def fHifFuncIde : RField := ⟨.hifFunc, 9, 9⟩
def fHifFuncSealed : RField := ⟨.hifFunc, 8, 8⟩
def fHifFuncTdi : RField := ⟨.hifFunc, 7, 4⟩
def fHifFuncState : RField := ⟨.hifFunc, 3, 0⟩
def fIdentVendorDevice : RField := ⟨.identVendor, 31, 16⟩
def fIdentVendorVendor : RField := ⟨.identVendor, 15, 0⟩
def fIdentSteppingStepping : RField := ⟨.identStepping, 7, 0⟩
def fIdentModuleIdModuleId : RField := ⟨.identModuleId, 47, 0⟩
def fIdentVersionsCaocoMax : RField := ⟨.identVersions, 63, 56⟩
def fIdentVersionsCaocoMin : RField := ⟨.identVersions, 55, 48⟩
def fIdentVersionsLinkMax : RField := ⟨.identVersions, 47, 40⟩
def fIdentVersionsLinkMin : RField := ⟨.identVersions, 39, 32⟩
def fIdentVersionsDescMax : RField := ⟨.identVersions, 31, 24⟩
def fIdentVersionsDescMin : RField := ⟨.identVersions, 23, 16⟩
def fIdentVersionsFmtMax : RField := ⟨.identVersions, 15, 8⟩
def fIdentVersionsFmtMin : RField := ⟨.identVersions, 7, 0⟩
def fIdentFwFwVersion : RField := ⟨.identFw, 47, 32⟩
def fIdentFwFwBuild : RField := ⟨.identFw, 31, 0⟩
def fIdentFuncPartition : RField := ⟨.identFunc, 15, 8⟩
def fIdentFuncFunction : RField := ⟨.identFunc, 5, 0⟩
def fIdentCapsStack10g : RField := ⟨.identCaps, 31, 8⟩
def fIdentCapsSections : RField := ⟨.identCaps, 7, 0⟩
def fFltStatusLastResetCause : RField := ⟨.fltStatus, 31, 24⟩
def fFltStatusLastPath : RField := ⟨.fltStatus, 17, 16⟩
def fFltStatusFenceReason : RField := ⟨.fltStatus, 11, 8⟩
def fFltStatusModuleState : RField := ⟨.fltStatus, 2, 0⟩
def fFltCtlResetKey : RField := ⟨.fltCtl, 15, 0⟩
def fFltEscCfgWindow : RField := ⟨.fltEscCfg, 63, 32⟩
def fFltEscCfgCtxLimit : RField := ⟨.fltEscCfg, 26, 16⟩
def fFltEscCfgPartLimit : RField := ⟨.fltEscCfg, 4, 0⟩
def fFltEscCountCtxInWindow : RField := ⟨.fltEscCount, 42, 32⟩
def fFltEscCountPartInWindow : RField := ⟨.fltEscCount, 4, 0⟩
def fFltResetsModule : RField := ⟨.fltResets, 63, 48⟩
def fFltResetsPartition : RField := ⟨.fltResets, 47, 32⟩
def fFltResetsContext : RField := ⟨.fltResets, 31, 0⟩
def fFltLastValid : RField := ⟨.fltLast, 63, 63⟩
def fFltLastPoison : RField := ⟨.fltLast, 62, 62⟩
def fFltLastLevel : RField := ⟨.fltLast, 61, 60⟩
def fFltLastAttrib : RField := ⟨.fltLast, 59, 58⟩
def fFltLastCause : RField := ⟨.fltLast, 55, 48⟩
def fFltLastSection : RField := ⟨.fltLast, 47, 45⟩
def fFltLastUnit : RField := ⟨.fltLast, 38, 32⟩
def fFltLastContext : RField := ⟨.fltLast, 24, 16⟩
def fFltLastPartition : RField := ⟨.fltLast, 10, 8⟩
def fFltLastTimeTime : RField := ⟨.fltLastTime, 63, 0⟩
def fFltDropsALoam : RField := ⟨.fltDropsA, 63, 48⟩
def fFltDropsAHbm : RField := ⟨.fltDropsA, 47, 32⟩
def fFltDropsAMesh : RField := ⟨.fltDropsA, 31, 16⟩
def fFltDropsATally : RField := ⟨.fltDropsA, 15, 0⟩
def fFltDropsBHost : RField := ⟨.fltDropsB, 63, 48⟩
def fFltDropsBEngine : RField := ⟨.fltDropsB, 47, 32⟩
def fFltDropsBAbandonAdds : RField := ⟨.fltDropsB, 31, 16⟩
def fFltDropsBTalliesAbandoned : RField := ⟨.fltDropsB, 15, 0⟩
def fFltAbortSent : RField := ⟨.fltAbort, 63, 48⟩
def fFltAbortAccepted : RField := ⟨.fltAbort, 47, 32⟩
def fFltAbortLocal : RField := ⟨.fltAbort, 31, 16⟩
def fFltAbortContextsAborted : RField := ⟨.fltAbort, 15, 0⟩
def fFltWdogIcvarFired : RField := ⟨.fltWdog, 63, 48⟩
def fFltWdogEngine : RField := ⟨.fltWdog, 47, 32⟩
def fFltWdogWaitFaults : RField := ⟨.fltWdog, 31, 16⟩
def fHltSummaryRetire : RField := ⟨.hltSummary, 23, 16⟩
def fHltSummarySuspect : RField := ⟨.hltSummary, 15, 8⟩
def fHltSummaryWatch : RField := ⟨.hltSummary, 7, 0⟩
def fHltUnitLevel : RField := ⟨.hltUnit, 63, 62⟩
def fHltUnitLastEvent : RField := ⟨.hltUnit, 55, 48⟩
def fHltUnitEvents : RField := ⟨.hltUnit, 47, 32⟩
def fHltUnitScore : RField := ⟨.hltUnit, 31, 0⟩
def fFltStartSectionsTested : RField := ⟨.fltStart, 47, 40⟩
def fFltStartStacksRetrained : RField := ⟨.fltStart, 39, 35⟩
def fFltStartFullReason : RField := ⟨.fltStart, 34, 32⟩
def fFltStartDuration : RField := ⟨.fltStart, 31, 0⟩
def fHltAutumnValid : RField := ⟨.hltAutumn, 63, 63⟩
def fHltAutumnResult : RField := ⟨.hltAutumn, 62, 61⟩
def fHltAutumnTransient : RField := ⟨.hltAutumn, 60, 60⟩
def fHltAutumnSource : RField := ⟨.hltAutumn, 59, 56⟩
def fHltAutumnTemp : RField := ⟨.hltAutumn, 55, 48⟩
def fHltAutumnFailed : RField := ⟨.hltAutumn, 47, 32⟩
def fHltAutumnAge : RField := ⟨.hltAutumn, 31, 0⟩
def fHltGravelMismatch : RField := ⟨.hltGravel, 63, 48⟩
def fHltGravelTransient : RField := ⟨.hltGravel, 47, 32⟩
def fHltGravelAbandoned : RField := ⟨.hltGravel, 31, 16⟩
def fHltGravelCornerMissed : RField := ⟨.hltGravel, 15, 0⟩
def fHltGravelPosSlicesRun : RField := ⟨.hltGravelPos, 63, 32⟩
def fHltGravelPosWatch : RField := ⟨.hltGravelPos, 31, 20⟩
def fHltGravelPosRotation : RField := ⟨.hltGravelPos, 15, 8⟩
def fHltGravelPosNext : RField := ⟨.hltGravelPos, 6, 0⟩
def fHltGravelLastValid : RField := ⟨.hltGravelLast, 63, 63⟩
def fHltGravelLastKind : RField := ⟨.hltGravelLast, 62, 60⟩
def fHltGravelLastCore : RField := ⟨.hltGravelLast, 59, 56⟩
def fHltGravelLastUnit : RField := ⟨.hltGravelLast, 55, 54⟩
def fHltGravelLastCorner : RField := ⟨.hltGravelLast, 53, 51⟩
def fHltGravelLastRepeated : RField := ⟨.hltGravelLast, 50, 50⟩
def fHltGravelLastSeconds : RField := ⟨.hltGravelLast, 31, 0⟩
def fHltGravelCondTemp : RField := ⟨.hltGravelCond, 63, 48⟩
def fHltGravelCondVoltage : RField := ⟨.hltGravelCond, 47, 32⟩
def fHltGravelCondLoad : RField := ⟨.hltGravelCond, 31, 16⟩
def fHltGravelCondPower : RField := ⟨.hltGravelCond, 15, 0⟩
def fHltGravelCfgPeriod : RField := ⟨.hltGravelCfg, 63, 32⟩
def fHltGravelCfgCorners : RField := ⟨.hltGravelCfg, 4, 0⟩
def fPwrStatusInputW : RField := ⟨.pwrStatus, 63, 48⟩
def fPwrStatusInputMv : RField := ⟨.pwrStatus, 47, 32⟩
def fPwrStatusCapW : RField := ⟨.pwrStatus, 31, 16⟩
def fPwrStatusCapSource : RField := ⟨.pwrStatus, 9, 8⟩
def fPwrStatusEmergency : RField := ⟨.pwrStatus, 1, 1⟩
def fPwrStatusCapUnmet : RField := ⟨.pwrStatus, 0, 0⟩
def fPwrCapMgmtCap : RField := ⟨.pwrCap, 47, 32⟩
def fPwrCapHostCap : RField := ⟨.pwrCap, 15, 0⟩
def fPwrThrottleEmergencyEvents : RField := ⟨.pwrThrottle, 63, 48⟩
def fPwrThrottleLevelChanges : RField := ⟨.pwrThrottle, 47, 32⟩
def fPwrThrottleUnmetPeriods : RField := ⟨.pwrThrottle, 31, 0⟩
def fPwrEnergyEnergyMj : RField := ⟨.pwrEnergy, 63, 0⟩
def fPwrSectionPowerW : RField := ⟨.pwrSection, 63, 48⟩
def fPwrSectionHold : RField := ⟨.pwrSection, 47, 44⟩
def fPwrSectionThermalHold : RField := ⟨.pwrSection, 43, 40⟩
def fPwrSectionHeldFrames : RField := ⟨.pwrSection, 31, 0⟩
def fClkStatusRootMhz : RField := ⟨.clkStatus, 63, 48⟩
def fClkStatusLevel : RField := ⟨.clkStatus, 39, 36⟩
def fClkStatusTarget : RField := ⟨.clkStatus, 35, 32⟩
def fClkStatusWinterLock : RField := ⟨.clkStatus, 2, 2⟩
def fClkStatusSlewing : RField := ⟨.clkStatus, 1, 1⟩
def fClkStatusLocked : RField := ⟨.clkStatus, 0, 0⟩
def fClkTimeTimeNs : RField := ⟨.clkTime, 63, 0⟩
def fThmCfgStackTrip : RField := ⟨.thmCfg, 63, 56⟩
def fThmCfgStackThrottle : RField := ⟨.thmCfg, 55, 48⟩
def fThmCfgDieTrip : RField := ⟨.thmCfg, 47, 40⟩
def fThmCfgDieRelease : RField := ⟨.thmCfg, 39, 32⟩
def fThmCfgDieThrottle : RField := ⟨.thmCfg, 31, 24⟩
def fThmTripLastValid : RField := ⟨.thmTripLast, 63, 63⟩
def fThmTripLastKind : RField := ⟨.thmTripLast, 62, 60⟩
def fThmTripLastSource : RField := ⟨.thmTripLast, 59, 53⟩
def fThmTripLastValue : RField := ⟨.thmTripLast, 47, 32⟩
def fThmTripLastHour : RField := ⟨.thmTripLast, 31, 0⟩
def fThmSectionHottest : RField := ⟨.thmSection, 63, 48⟩
def fThmSectionHottestSensor : RField := ⟨.thmSection, 47, 44⟩
def fThmSectionIgnored : RField := ⟨.thmSection, 40, 37⟩
def fThmSectionThrottling : RField := ⟨.thmSection, 32, 32⟩
def fThmSectionThrottleEvents : RField := ⟨.thmSection, 31, 0⟩
def fThmSensorSensor3 : RField := ⟨.thmSensor, 63, 48⟩
def fThmSensorSensor2 : RField := ⟨.thmSensor, 47, 32⟩
def fThmSensorSensor1 : RField := ⟨.thmSensor, 31, 16⟩
def fThmSensorSensor0 : RField := ⟨.thmSensor, 15, 0⟩

/-- Fields of a register as (high bit, low bit, access, reset value). A value that the table takes from manufacture, from
flash or from the event is not a reset value: `regWord` lays it over the field. -/
def fieldsOf : RegName → List (Nat × Nat × Access × Nat)
  | .loamCfg => [(15, 8, .ro, 255), (7, 7, .ro, 0), (5, 0, .ro, 0)]
  | .loamEccCount => [(63, 48, .rc, 0), (47, 32, .rc, 0), (31, 0, .rc, 0)]
  | .hbmEccCount => [(63, 48, .rc, 0), (47, 32, .rc, 0), (31, 0, .rc, 0)]
  | .loamEccLast => [(63, 63, .w1c, 0), (62, 62, .ro, 0), (61, 61, .ro, 0), (57, 53, .ro, 0), (29, 4, .ro, 0)]
  | .hbmEccLast => [(60, 56, .ro, 0), (35, 4, .ro, 0), (63, 63, .w1c, 0), (62, 62, .ro, 0), (61, 61, .ro, 0)]
  | .loamCacheStat => [(63, 32, .rc, 0), (31, 0, .rc, 0)]
  | .loamCacheWb => [(63, 32, .rc, 0), (31, 0, .rc, 0)]
  | .loamScrub => [(63, 32, .ro, 0), (31, 0, .ro, 3600)]
  | .hbmStatus => [(55, 48, .ro, 0), (9, 8, .ro, 0), (5, 4, .ro, 0), (2, 2, .ro, 0), (1, 1, .ro, 0), (0, 0, .ro, 0)]
  | .hbmRefresh => [(63, 32, .rc, 0), (31, 0, .rc, 0)]
  | .hbmLoop => [(15, 15, .wo, 0), (11, 8, .rw, 0), (1, 0, .rw, 0)]
  | .hbmLoopResult => [(63, 63, .ro, 0), (62, 62, .w1c, 0), (47, 32, .ro, 0), (31, 0, .ro, 0)]
  | .hbmMoverBlocks => [(47, 0, .rc, 0)]
  | .hbmMoverCrc => [(63, 32, .rc, 0), (31, 0, .rc, 0)]
  | .hbmMoverCrcLast => [(63, 63, .w1c, 0), (59, 58, .ro, 0), (35, 12, .ro, 0)]
  | .coreStatus => [(38, 32, .ro, 0), (20, 16, .ro, 0), (7, 4, .ro, 0), (0, 0, .w1c, 0)]
  | .coreRun => [(63, 48, .ro, 0), (43, 41, .ro, 0), (40, 32, .ro, 0), (31, 0, .ro, 0)]
  | .coreTiles => [(63, 48, .rc, 0), (47, 32, .rc, 0), (31, 0, .rc, 0)]
  | .coreBusy => [(63, 0, .rc, 0)]
  | .coreStall => [(63, 32, .rc, 0), (31, 0, .rc, 0)]
  | .coreFaultLast => [(63, 63, .w1c, 0), (55, 48, .ro, 0), (43, 40, .ro, 0), (34, 32, .ro, 0), (31, 0, .ro, 0)]
  | .coreFeederEcc => [(63, 32, .rc, 0), (31, 0, .rc, 0)]
  | .coreWdog => [(63, 32, .ro, 100000), (31, 0, .rc, 0)]
  | .numCfg => [(12, 8, .ro, 10), (2, 2, .ro, 0), (1, 1, .ro, 0), (0, 0, .ro, 1)]
  | .numCtrUse => [(40, 32, .ro, 0), (22, 16, .ro, 0), (12, 0, .ro, 0)]
  | .numWitStat => [(63, 32, .rc, 0), (31, 0, .rc, 0)]
  | .numWitEvents => [(47, 32, .rc, 0), (31, 16, .rc, 0), (15, 0, .rc, 0)]
  | .numWitLast => [(63, 63, .w1c, 0), (62, 60, .ro, 0), (59, 56, .ro, 0), (55, 54, .ro, 0), (53, 45, .ro, 0), (44, 34, .ro, 0), (31, 0, .ro, 0)]
  | .numWitLastCond => [(63, 48, .ro, 0), (47, 32, .ro, 0), (31, 16, .ro, 0), (15, 0, .ro, 0)]
  | .numOptStat => [(63, 32, .rc, 0), (31, 0, .rc, 0)]
  | .numOptElements => [(47, 0, .rc, 0)]
  | .numLog => [(63, 32, .rc, 0), (31, 0, .rc, 0)]
  | .coreRouteStatus => [(24, 16, .ro, 0), (7, 4, .ro, 0), (0, 0, .w1c, 0)]
  | .coreRouteDesc => [(63, 48, .rc, 0), (47, 32, .rc, 0), (31, 0, .rc, 0)]
  | .coreRouteWords => [(63, 0, .rc, 0)]
  | .coreRouteStall => [(63, 32, .rc, 0), (31, 0, .rc, 0)]
  | .coreRouteOob => [(63, 32, .rc, 0), (31, 0, .rc, 0)]
  | .coreRouteFaultLast => [(63, 63, .w1c, 0), (55, 48, .ro, 0), (40, 32, .ro, 0), (31, 0, .ro, 0)]
  | .rplSched => [(63, 32, .rc, 0), (31, 24, .ro, 0), (8, 8, .ro, 0), (1, 1, .ro, 0), (0, 0, .ro, 0)]
  | .rplWork => [(63, 32, .ro, 0), (31, 0, .ro, 0)]
  | .rplHeld => [(63, 0, .rc, 0)]
  | .rplHoldA => [(63, 32, .rc, 0), (31, 0, .rc, 0)]
  | .rplHoldB => [(63, 32, .rc, 0), (31, 0, .rc, 0)]
  | .rplHoldC => [(63, 32, .rc, 0), (31, 0, .rc, 0)]
  | .rplHoldD => [(31, 0, .rc, 0)]
  | .rplChoiceIssue => [(63, 0, .ro, 0)]
  | .rplChoiceGrant => [(63, 0, .ro, 0)]
  | .rplChoiceSlot => [(63, 0, .ro, 0)]
  | .rplChoiceArb => [(63, 0, .ro, 0)]
  | .rplLog => [(63, 48, .rc, 0), (47, 32, .rc, 0), (12, 4, .ro, 0), (3, 3, .w1c, 0), (2, 2, .ro, 0), (1, 1, .ro, 0), (0, 0, .ro, 0)]
  | .rplDiverge => [(63, 63, .ro, 0), (62, 62, .ro, 0), (61, 0, .ro, 0)]
  | .lnkStatus => [(55, 48, .ro, 0), (43, 32, .ro, 0), (31, 28, .ro, 0), (23, 16, .ro, 255), (11, 10, .ro, 0), (9, 8, .ro, 0), (3, 0, .ro, 0)]
  | .lnkPartner => [(63, 16, .ro, 0), (13, 8, .ro, 0), (2, 0, .ro, 0)]
  | .lnkCfg => [(39, 32, .ro, 16), (22, 16, .ro, 2), (9, 8, .ro, 0), (0, 0, .ro, 0)]
  | .lnkFec => [(63, 32, .rc, 0), (31, 0, .rc, 0)]
  | .lnkRetry => [(63, 32, .rc, 0), (31, 0, .rc, 0)]
  | .lnkTrain => [(63, 48, .rc, 0), (47, 32, .rc, 0), (31, 24, .rc, 0), (23, 16, .rc, 0), (15, 0, .rc, 0)]
  | .lnkTxBytes => [(63, 0, .rc, 0)]
  | .lnkRxBytes => [(63, 0, .rc, 0)]
  | .lnkRefuseA => [(63, 48, .rc, 0), (47, 32, .rc, 0), (31, 16, .rc, 0), (15, 0, .rc, 0)]
  | .lnkRefuseB => [(63, 48, .rc, 0), (47, 32, .rc, 0), (31, 16, .rc, 0), (15, 0, .rc, 0)]
  | .lnkHostile => [(63, 48, .rc, 0), (47, 32, .rc, 0), (31, 16, .rc, 0), (15, 0, .rc, 0)]
  | .lnkPeer => [(63, 32, .rc, 0), (31, 0, .rc, 0)]
  | .lnkLoop => [(15, 15, .wo, 0), (11, 8, .rw, 0), (1, 0, .rw, 0)]
  | .lnkLoopResult => [(63, 63, .ro, 0), (62, 62, .w1c, 0), (57, 57, .ro, 0), (56, 56, .ro, 0), (55, 28, .ro, 0), (27, 0, .ro, 0)]
  | .collStatus => [(63, 32, .ro, 0), (22, 16, .ro, 0), (13, 8, .ro, 0), (7, 4, .ro, 0)]
  | .collDesc => [(63, 48, .rc, 0), (47, 32, .rc, 0), (31, 0, .rc, 0)]
  | .collBytesTx => [(63, 0, .rc, 0)]
  | .collBytesRx => [(63, 0, .rc, 0)]
  | .collStamp => [(63, 32, .rc, 0), (31, 0, .rc, 0)]
  | .collWait => [(63, 32, .ro, 100000), (31, 0, .rc, 0)]
  | .collFaultLast => [(63, 63, .w1c, 0), (55, 48, .ro, 0), (45, 40, .ro, 0), (31, 23, .ro, 0), (22, 0, .ro, 0)]
  | .mbxInStatus => [(47, 32, .rc, 0), (23, 16, .ro, 0), (3, 3, .w1c, 0), (2, 2, .ro, 1), (1, 1, .w1c, 0), (0, 0, .ro, 0)]
  | .mbxOutStatus => [(47, 32, .rc, 0), (3, 3, .w1c, 0), (1, 1, .w1c, 0), (0, 0, .ro, 0)]
  | .mbxInWord => [(63, 0, .rw, 0)]
  | .mbxInAck => [(63, 63, .w1c, 0), (47, 32, .ro, 0), (15, 0, .ro, 0)]
  | .mbxOutWord => [(63, 0, .ro, 0)]
  | .mbxOutAck => [(47, 32, .wo, 0), (15, 0, .wo, 0)]
  | .mbxSummary => [(23, 16, .ro, 0), (15, 8, .ro, 0), (7, 0, .ro, 0)]
  | .hifQslotPtr => [(63, 32, .ro, 0), (31, 0, .ro, 0)]
  | .hifQslotCtl => [(63, 32, .rw, 0), (19, 18, .ro, 0), (17, 17, .ro, 0), (12, 0, .ro, 0)]
  | .hifLink => [(39, 32, .ro, 0), (24, 24, .ro, 0), (16, 16, .ro, 0), (12, 12, .ro, 0), (11, 8, .ro, 0), (3, 0, .ro, 0)]
  | .hifPcieErr => [(63, 48, .rc, 0), (47, 32, .rc, 0), (31, 16, .rc, 0), (15, 0, .rc, 0)]
  | .hifDbReject => [(63, 48, .rc, 0), (47, 32, .rc, 0), (31, 16, .rc, 0), (15, 0, .rc, 0)]
  | .hifBar2Refuse => [(63, 32, .rc, 0), (31, 0, .rc, 0)]
  | .hifBar2Last => [(63, 63, .w1c, 0), (62, 57, .ro, 0), (56, 56, .ro, 0), (40, 0, .ro, 0)]
  | .hifFlr => [(63, 32, .rc, 0), (31, 0, .ro, 0)]
  | .hifFunc => [(63, 56, .ro, 255), (41, 32, .ro, 0), (9, 9, .ro, 0), (8, 8, .ro, 0), (7, 4, .ro, 0), (3, 0, .ro, 0)]
  | .identVendor => [(31, 16, .ro, 18468), (15, 0, .ro, 0)]
  | .identStepping => [(7, 0, .ro, 0)]
  | .identModuleId => [(47, 0, .ro, 0)]
  | .identVersions => [(63, 56, .ro, 16), (55, 48, .ro, 16), (47, 40, .ro, 16), (39, 32, .ro, 16), (31, 24, .ro, 16), (23, 16, .ro, 16), (15, 8, .ro, 16), (7, 0, .ro, 16)]
  | .identFw => [(47, 32, .ro, 0), (31, 0, .ro, 0)]
  | .identFunc => [(15, 8, .ro, 255), (5, 0, .ro, 0)]
  | .identCaps => [(31, 8, .ro, 0), (7, 0, .ro, 255)]
  | .fltStatus => [(31, 24, .ro, 0), (17, 16, .ro, 0), (11, 8, .ro, 0), (2, 0, .ro, 2)]
  | .fltCtl => [(15, 0, .wo, 0)]
  | .fltEscCfg => [(63, 32, .ro, 600), (26, 16, .ro, 16), (4, 0, .ro, 3)]
  | .fltEscCount => [(42, 32, .ro, 0), (4, 0, .ro, 0)]
  | .fltResets => [(63, 48, .ro, 0), (47, 32, .rc, 0), (31, 0, .rc, 0)]
  | .fltLast => [(63, 63, .w1c, 0), (62, 62, .ro, 0), (61, 60, .ro, 0), (59, 58, .ro, 0), (55, 48, .ro, 0), (47, 45, .ro, 0), (38, 32, .ro, 0), (24, 16, .ro, 0), (10, 8, .ro, 0)]
  | .fltLastTime => [(63, 0, .ro, 0)]
  | .fltDropsA => [(63, 48, .rc, 0), (47, 32, .rc, 0), (31, 16, .rc, 0), (15, 0, .rc, 0)]
  | .fltDropsB => [(63, 48, .rc, 0), (47, 32, .rc, 0), (31, 16, .rc, 0), (15, 0, .rc, 0)]
  | .fltAbort => [(63, 48, .rc, 0), (47, 32, .rc, 0), (31, 16, .rc, 0), (15, 0, .rc, 0)]
  | .fltWdog => [(63, 48, .ro, 0), (47, 32, .rc, 0), (31, 16, .rc, 0)]
  | .hltSummary => [(23, 16, .ro, 0), (15, 8, .ro, 0), (7, 0, .ro, 0)]
  | .hltUnit => [(63, 62, .ro, 0), (55, 48, .ro, 0), (47, 32, .rc, 0), (31, 0, .ro, 0)]
  | .fltStart => [(47, 40, .ro, 0), (39, 35, .ro, 0), (34, 32, .ro, 0), (31, 0, .ro, 0)]
  | .hltAutumn => [(63, 63, .ro, 0), (62, 61, .ro, 0), (60, 60, .ro, 0), (59, 56, .ro, 0), (55, 48, .ro, 0), (47, 32, .ro, 0), (31, 0, .ro, 0)]
  | .hltGravel => [(63, 48, .rc, 0), (47, 32, .rc, 0), (31, 16, .rc, 0), (15, 0, .rc, 0)]
  | .hltGravelPos => [(63, 32, .rc, 0), (31, 20, .ro, 0), (15, 8, .ro, 0), (6, 0, .ro, 0)]
  | .hltGravelLast => [(63, 63, .w1c, 0), (62, 60, .ro, 0), (59, 56, .ro, 0), (55, 54, .ro, 0), (53, 51, .ro, 0), (50, 50, .ro, 0), (31, 0, .ro, 0)]
  | .hltGravelCond => [(63, 48, .ro, 0), (47, 32, .ro, 0), (31, 16, .ro, 0), (15, 0, .ro, 0)]
  | .hltGravelCfg => [(63, 32, .ro, 10), (4, 0, .ro, 31)]
  | .pwrStatus => [(63, 48, .ro, 0), (47, 32, .ro, 0), (31, 16, .ro, 4400), (9, 8, .ro, 0), (1, 1, .ro, 0), (0, 0, .ro, 0)]
  | .pwrCap => [(47, 32, .ro, 4400), (15, 0, .ro, 4400)]
  | .pwrThrottle => [(63, 48, .rc, 0), (47, 32, .rc, 0), (31, 0, .rc, 0)]
  | .pwrEnergy => [(63, 0, .ro, 0)]
  | .pwrSection => [(63, 48, .ro, 0), (47, 44, .ro, 0), (43, 40, .ro, 0), (31, 0, .rc, 0)]
  | .clkStatus => [(63, 48, .ro, 5200), (39, 36, .ro, 0), (35, 32, .ro, 0), (2, 2, .ro, 0), (1, 1, .ro, 0), (0, 0, .ro, 0)]
  | .clkTime => [(63, 0, .ro, 0)]
  | .thmCfg => [(63, 56, .ro, 105), (55, 48, .ro, 95), (47, 40, .ro, 110), (39, 32, .ro, 92), (31, 24, .ro, 95)]
  | .thmTripLast => [(63, 63, .ro, 0), (62, 60, .ro, 0), (59, 53, .ro, 0), (47, 32, .ro, 0), (31, 0, .ro, 0)]
  | .thmSection => [(63, 48, .ro, 32768), (47, 44, .ro, 0), (40, 37, .ro, 0), (32, 32, .ro, 0), (31, 0, .rc, 0)]
  | .thmSensor => [(63, 48, .ro, 32768), (47, 32, .ro, 32768), (31, 16, .ro, 32768), (15, 0, .ro, 32768)]

/-- The reset value of a register (R17). -/
def resetWord (r : RegName) : Word := (fieldsOf r).foldl (fun w f => putBits w f.1 f.2.1 f.2.2.2) 0

end Sys2Proof.Machine
end

