-- ==== Sys2Proof/Machine/Access.lean ====
section
/-! DEFINITION. Reading and writing the tables of `State` and the fields of registers. Every meaning goes through these. -/

namespace Sys2Proof.Machine

/-- What an unlisted function stands for: the physical function is enabled, a virtual one absent until VF Enable (log
entry 12). -/
def fnDefault (f : Nat) : FnState := if f = 0 then { mode := .enabled } else {}

/-- The key of a thing that a partition numbers by 32 bits. -/
def tensorKey (p id : Nat) : Nat := p * 4294967296 + id

/-- The key of an engine: kind as in R378 and unit. -/
def engineKey (kind unit : Nat) : Nat := kind * 64 + unit

/-- Read a function (R332). -/
def State.fn (s : State) (f : Nat) : FnState := tabGet (fnDefault f) s.host.fns f
/-- Write a function (R332). -/
def State.setFn (s : State) (f : Nat) (v : FnState) : State :=
  { s with host := { s.host with fns := tabSet (fnDefault f) s.host.fns f v } }
/-- Change a function (R332). -/
def State.modFn (s : State) (f : Nat) (upd : FnState → FnState) : State := s.setFn f (upd (s.fn f))

/-- Read a queue (R344). -/
def State.queue (s : State) (q : Nat) : Queue := tabGet {} s.host.queues q
/-- Write a queue (R344). -/
def State.setQueue (s : State) (q : Nat) (v : Queue) : State :=
  { s with host := { s.host with queues := tabSet {} s.host.queues q v } }
/-- Change a queue (R344). -/
def State.modQueue (s : State) (q : Nat) (upd : Queue → Queue) : State := s.setQueue q (upd (s.queue q))

/-- Read a partition (R29). -/
def State.part (s : State) (p : Nat) : Part := tabGet {} s.objs.parts p
/-- Write a partition (R29). -/
def State.setPart (s : State) (p : Nat) (v : Part) : State :=
  { s with objs := { s.objs with parts := tabSet {} s.objs.parts p v } }
/-- Change a partition (R29). -/
def State.modPart (s : State) (p : Nat) (upd : Part → Part) : State := s.setPart p (upd (s.part p))

/-- Read a context (R394). -/
def State.ctx (s : State) (c : Nat) : Ctx := tabGet {} s.objs.ctxs c
/-- Write a context (R394). -/
def State.setCtx (s : State) (c : Nat) (v : Ctx) : State :=
  { s with objs := { s.objs with ctxs := tabSet {} s.objs.ctxs c v } }
/-- Change a context (R394). -/
def State.modCtx (s : State) (c : Nat) (upd : Ctx → Ctx) : State := s.setCtx c (upd (s.ctx c))

/-- Read a tally (R157). -/
def State.tally (s : State) (t : Nat) : Tally := tabGet {} s.objs.tallies t
/-- Write a tally (R157). -/
def State.setTally (s : State) (t : Nat) (v : Tally) : State :=
  { s with objs := { s.objs with tallies := tabSet {} s.objs.tallies t v } }
/-- Change a tally (R157). -/
def State.modTally (s : State) (t : Nat) (upd : Tally → Tally) : State := s.setTally t (upd (s.tally t))

/-- Read a memory region (R36). -/
def State.region (s : State) (r : Nat) : Region := tabGet {} s.objs.regions r
/-- Write a memory region (R36). -/
def State.setRegion (s : State) (r : Nat) (v : Region) : State :=
  { s with objs := { s.objs with regions := tabSet {} s.objs.regions r v } }
/-- Change a memory region (R36). -/
def State.modRegion (s : State) (r : Nat) (upd : Region → Region) : State := s.setRegion r (upd (s.region r))

/-- Read a tensor of a partition (R85). -/
def State.tensor (s : State) (p id : Nat) : Tensor := tabGet {} s.objs.tensors (tensorKey p id)
/-- Write a tensor of a partition (R85). -/
def State.setTensor (s : State) (p id : Nat) (v : Tensor) : State :=
  { s with objs := { s.objs with tensors := tabSet {} s.objs.tensors (tensorKey p id) v } }
/-- Change a tensor of a partition (R85). -/
def State.modTensor (s : State) (p id : Nat) (upd : Tensor → Tensor) : State := s.setTensor p id (upd (s.tensor p id))

/-- Read a gate record of a partition (R209). -/
def State.gate (s : State) (p g : Nat) : Gate := tabGet {} s.objs.gates (p * 64 + g)
/-- Write a gate record of a partition (R209). -/
def State.setGate (s : State) (p g : Nat) (v : Gate) : State :=
  { s with objs := { s.objs with gates := tabSet {} s.objs.gates (p * 64 + g) v } }
/-- Change a gate record of a partition (R209). -/
def State.modGate (s : State) (p g : Nat) (upd : Gate → Gate) : State := s.setGate p g (upd (s.gate p g))

/-- Read a model (R406). -/
def State.model (s : State) (m : Nat) : Model := tabGet {} s.objs.models m
/-- Write a model (R406). -/
def State.setModel (s : State) (m : Nat) (v : Model) : State :=
  { s with objs := { s.objs with models := tabSet {} s.objs.models m v } }
/-- Change a model (R406). -/
def State.modModel (s : State) (m : Nat) (upd : Model → Model) : State := s.setModel m (upd (s.model m))

/-- Read a job group (R291). -/
def State.group (s : State) (g : Nat) : Group := tabGet {} s.objs.groups g
/-- Write a job group (R291). -/
def State.setGroup (s : State) (g : Nat) (v : Group) : State :=
  { s with objs := { s.objs with groups := tabSet {} s.objs.groups g v } }
/-- Change a job group (R291). -/
def State.modGroup (s : State) (g : Nat) (upd : Group → Group) : State := s.setGroup g (upd (s.group g))

/-- Read a group record of a section (R299). -/
def State.comm (s : State) (n k : Nat) : Comm := tabGet {} s.objs.comms (n * 64 + k)
/-- Write a group record of a section (R299). -/
def State.setComm (s : State) (n k : Nat) (v : Comm) : State :=
  { s with objs := { s.objs with comms := tabSet {} s.objs.comms (n * 64 + k) v } }
/-- Change a group record of a section (R299). -/
def State.modComm (s : State) (n k : Nat) (upd : Comm → Comm) : State := s.setComm n k (upd (s.comm n k))

/-- Read a core, by module-wide number. -/
def State.core (s : State) (k : Nat) : Core := tabGet {} s.work.cores k
/-- Write a core, by module-wide number. -/
def State.setCore (s : State) (k : Nat) (v : Core) : State :=
  { s with work := { s.work with cores := tabSet {} s.work.cores k v } }
/-- Change a core, by module-wide number. -/
def State.modCore (s : State) (k : Nat) (upd : Core → Core) : State := s.setCore k (upd (s.core k))

/-- Read a program slot of a core (R147). -/
def State.slot (s : State) (k i : Nat) : Slot := tabGet {} s.work.slots (k * 8 + i)
/-- Write a program slot of a core (R147). -/
def State.setSlot (s : State) (k i : Nat) (v : Slot) : State :=
  { s with work := { s.work with slots := tabSet {} s.work.slots (k * 8 + i) v } }
/-- Change a program slot of a core (R147). -/
def State.modSlot (s : State) (k i : Nat) (upd : Slot → Slot) : State := s.setSlot k i (upd (s.slot k i))

/-- Read an engine, by `engineKey`. -/
def State.engine (s : State) (e : Nat) : Engine := tabGet {} s.work.engines e
/-- Write an engine, by `engineKey`. -/
def State.setEngine (s : State) (e : Nat) (v : Engine) : State :=
  { s with work := { s.work with engines := tabSet {} s.work.engines e v } }
/-- Change an engine, by `engineKey`. -/
def State.modEngine (s : State) (e : Nat) (upd : Engine → Engine) : State := s.setEngine e (upd (s.engine e))

/-- Read the witness of a section (R203). -/
def State.witness (s : State) (n : Nat) : (Option Sample) := tabGet none s.work.witness n
/-- Write the witness of a section (R203). -/
def State.setWitness (s : State) (n : Nat) (v : (Option Sample)) : State :=
  { s with work := { s.work with witness := tabSet none s.work.witness n v } }
/-- Change the witness of a section (R203). -/
def State.modWitness (s : State) (n : Nat) (upd : (Option Sample) → (Option Sample)) : State := s.setWitness n (upd (s.witness n))

/-- Read trained values of a stack in flash (R69). -/
def State.trained (s : State) (g : Nat) : Trained := tabGet {} s.flash.trained g
/-- Write trained values of a stack in flash (R69). -/
def State.setTrained (s : State) (g : Nat) (v : Trained) : State :=
  { s with flash := { s.flash with trained := tabSet {} s.flash.trained g v } }
/-- Change trained values of a stack in flash (R69). -/
def State.modTrained (s : State) (g : Nat) (upd : Trained → Trained) : State := s.setTrained g (upd (s.trained g))

/-- Read what this start trained of a stack (R69). -/
def State.trainedNow (s : State) (g : Nat) : Trained := tabGet {} s.module.trainedNow g
/-- Write what this start trained of a stack (R69). -/
def State.setTrainedNow (s : State) (g : Nat) (v : Trained) : State :=
  { s with module := { s.module with trainedNow := tabSet {} s.module.trainedNow g v } }
/-- Change what this start trained of a stack (R69). -/
def State.modTrainedNow (s : State) (g : Nat) (upd : Trained → Trained) : State := s.setTrainedNow g (upd (s.trainedNow g))

/-- Read the last Autumn result of a section (R442). -/
def State.autumnResult (s : State) (n : Nat) : AutumnResult := tabGet {} s.care.results n
/-- Write the last Autumn result of a section (R442). -/
def State.setAutumnResult (s : State) (n : Nat) (v : AutumnResult) : State :=
  { s with care := { s.care with results := tabSet {} s.care.results n v } }
/-- Change the last Autumn result of a section (R442). -/
def State.modAutumnResult (s : State) (n : Nat) (upd : AutumnResult → AutumnResult) : State := s.setAutumnResult n (upd (s.autumnResult n))

/-- Read the health of a unit, in the order of R436. -/
def State.health (s : State) (u : Nat) : Health := tabGet {} s.care.health u
/-- Write the health of a unit, in the order of R436. -/
def State.setHealth (s : State) (u : Nat) (v : Health) : State :=
  { s with care := { s.care with health := tabSet {} s.care.health u v } }
/-- Change the health of a unit, in the order of R436. -/
def State.modHealth (s : State) (u : Nat) (upd : Health → Health) : State := s.setHealth u (upd (s.health u))

/-- Read a section under the Autumn test (R448). -/
def State.autumn (s : State) (n : Nat) : (Option AutumnRun) := tabGet none s.care.autumn n
/-- Write a section under the Autumn test (R448). -/
def State.setAutumn (s : State) (n : Nat) (v : (Option AutumnRun)) : State :=
  { s with care := { s.care with autumn := tabSet none s.care.autumn n v } }
/-- Change a section under the Autumn test (R448). -/
def State.modAutumn (s : State) (n : Nat) (upd : (Option AutumnRun) → (Option AutumnRun)) : State := s.setAutumn n (upd (s.autumn n))

/-- Read a Gravel rotation of a section (R453). -/
def State.gravel (s : State) (n : Nat) : Gravel := tabGet {} s.care.gravel n
/-- Write a Gravel rotation of a section (R453). -/
def State.setGravel (s : State) (n : Nat) (v : Gravel) : State :=
  { s with care := { s.care with gravel := tabSet {} s.care.gravel n v } }
/-- Change a Gravel rotation of a section (R453). -/
def State.modGravel (s : State) (n : Nat) (upd : Gravel → Gravel) : State := s.setGravel n (upd (s.gravel n))

/-- Read an SPDM connection (R477). -/
def State.spdm (s : State) (k : Nat) : SpdmConn := tabGet {} s.security.spdm k
/-- Write an SPDM connection (R477). -/
def State.setSpdm (s : State) (k : Nat) (v : SpdmConn) : State :=
  { s with security := { s.security with spdm := tabSet {} s.security.spdm k v } }
/-- Change an SPDM connection (R477). -/
def State.modSpdm (s : State) (k : Nat) (upd : SpdmConn → SpdmConn) : State := s.setSpdm k (upd (s.spdm k))

/-- Read a link, by module-wide number (R270). -/
def State.link (s : State) (l : Nat) : Link := tabGet {} s.links l
/-- Write a link, by module-wide number (R270). -/
def State.setLink (s : State) (l : Nat) (v : Link) : State :=
  { s with links := tabSet {} s.links l v }
/-- Change a link, by module-wide number (R270). -/
def State.modLink (s : State) (l : Nat) (upd : Link → Link) : State := s.setLink l (upd (s.link l))

/-! ### Registers -/

/-- The stored bits of a register; its reset value where nothing is stored (R17). -/
def State.raw (s : State) (a : RegAt) : Word := tabGet (resetWord a.reg) s.regs (regKey a)

/-- Store a register's bits. -/
def State.setRaw (s : State) (a : RegAt) (w : Word) : State :=
  { s with regs := tabSet (resetWord a.reg) s.regs (regKey a) w }

/-- A field of register copy (i, j). -/
def State.fld (s : State) (f : RField) (i j : Nat) : Nat := getBits (s.raw ⟨f.reg, i, j⟩) f.hi f.lo

/-- Set a field. -/
def State.setFld (s : State) (f : RField) (i j v : Nat) : State :=
  s.setRaw ⟨f.reg, i, j⟩ (putBits (s.raw ⟨f.reg, i, j⟩) f.hi f.lo v)

/-- Count `n` events in a field, which stays at its largest value (R14). -/
def State.bump (s : State) (f : RField) (i j n : Nat) : State :=
  s.setFld f i j (satAdd (f.hi + 1 - f.lo) (s.fld f i j) n)

/-- Count in a field that wraps. -/
def State.wrap (s : State) (f : RField) (i j n : Nat) : State := s.setFld f i j (s.fld f i j + n)

/-- Forget the stored bits of every register that `p` selects, so that it reads its reset value (R17). -/
def State.clearRegs (s : State) (p : RegName → Nat → Nat → Bool) : State :=
  { s with regs := s.regs.filter (fun e => !(RegName.all.any (fun r => r.num == keyName e.1 &&
      p r (keyUnit e.1) (keyInner e.1)))) }

/-! ### Small things used everywhere -/

/-- The module's time, in nanoseconds since module reset (R467). -/
def State.now (s : State) : Nat := s.module.timeNs

/-- Draw a free value: the next number of the opaque sequence (log entry 9). -/
def State.freeDraw (s : State) : Word × State := (Config.freeWord s.freeCtr, { s with freeCtr := s.freeCtr + 1 })

/-- The listed entries of a table whose record satisfies `p`, by key. -/
def keysWhere {α : Type} (t : Tab α) (p : α → Bool) : List Nat := (t.filter (fun e => p e.2)).map (·.1)

/-- Do `g` for every element of a list, in order. -/
def forEach {α : Type} (l : List α) (s : State) (g : α → State → State) : State := l.foldl (fun t a => g a t) s

end Sys2Proof.Machine
end

