-- ==== Sys2Proof/Machine/Events.lean ====
section
/-! DEFINITION. What Icvar tells the host unasked: events (R382), MSI-X messages, health scores (R434, R435). -/

namespace Sys2Proof.Machine

/-- The sections of a mask, ascending. -/
def maskSecs (m : Nat) : List Nat := setBits 8 m

/-- The partition that holds a section (R29). -/
def secPart (s : State) (n : Nat) : Option Nat :=
  (upTo 8).find? (fun p => (s.part p).present && bitOf (s.part p).mask n)

/-- The functions assigned to a partition. -/
def partFns (s : State) (p : Nat) : List Nat := (upTo 64).filter (fun f => (s.fn f).part == some p)

/-- Raise an MSI-X vector of a function that may master the bus (R342, R351, log entry 20). -/
def raiseMsix (s : State) (f vec : Nat) : State :=
  if (s.fn f).busMaster then { s with out := { s.out with msix := s.out.msix ++ [(f, vec)] } } else s

/-- Queue an outbound word for mailbox `j` of a function: up to 64 wait in order, one more is dropped and counted
(R342). -/
def queueOut (s : State) (f j : Nat) (w : Word) : State :=
  if (s.fn f).outbox.length < 64 then s.modFn f (fun x => { x with outbox := x.outbox ++ [(j, w)] })
  else s.bump fMbxOutStatusDropped f j 1

/-- An event word (R382). -/
def eventWord (code arg : Nat) : Word := BitVec.ofNat 64 (code * 2 ^ 56 + arg % 2 ^ 48)

/-- Post an event on mailbox 7 of each recipient function, once each (R382). -/
def postTo (s : State) (fs : List Nat) (code arg : Nat) : State :=
  forEach fs.eraseDups s (fun f t => queueOut t f 7 (eventWord code arg))

/-- Post an event for a partition. -/
def postPart (s : State) (p code arg : Nat) : State := postTo s (partFns s p) code arg

/-- Post an event for the partition of a section, if any, and for the physical function. -/
def postBoth (s : State) (p : Option Nat) (code arg : Nat) : State :=
  postTo s ((match p with | some p => partFns s p | none => []) ++ [0]) code arg

/-! ### Health (R434 to R436) -/

/-- The numbers of units in the order of R436: sections, stacks, links, cores, Icvar. -/
def huSection (n : Nat) : Nat := n
def huStack (g : Nat) : Nat := 8 + g
def huLink (l : Nat) : Nat := 32 + l
def huCore (k : Nat) : Nat := 96 + k
def huIcvar : Nat := 192

/-- CLASS and UNIT of a unit (R436). -/
def huClass (u : Nat) : Nat × Nat :=
  if u < 8 then (1, u) else if u < 32 then (2, u - 8) else if u < 96 then (3, u - 32)
  else if u < 192 then (4, u - 96) else (5, 0)

/-- The section of a section-block register of a core, link or stack, and the unit's number within it. -/
def coreSec (k : Nat) : Nat := k / 12
def linkSec (l : Nat) : Nat := l / 8
def stackSec (g : Nat) : Nat := g / 3

/-- A link at half width or below rate code 0 (R435). -/
def linkDegraded (s : State) (l : Nat) : Bool :=
  let lanes := s.fld fLnkStatusLanes (l / 8) (l % 8)
  let rate := s.fld fLnkStatusRate (l / 8) (l % 8)
  lanes == 1 || lanes == 2 || (lanes == 3 && rate != 0)

/-- The level of a score (R435). -/
def levelOf (score : Nat) : Nat := if 10000 ≤ score then 3 else if 1000 ≤ score then 2 else if 100 ≤ score then 1 else 0

/-- The level of a unit (R435). -/
def healthLevel (s : State) (u : Nat) : Nat :=
  let l := levelOf (s.health u).score
  if 32 ≤ u && u < 96 && linkDegraded s (u - 32) then max l 1 else l

/-- Post a HEALTH event for a unit's present level (R382). -/
def postHealth (s : State) (u : Nat) : State :=
  postTo s [0] 0xE8 ((huClass u).1 * 2 ^ 40 + (huClass u).2 * 2 ^ 32 + healthLevel s u)

/-- An event of R434, by its row counted from 1, with its points; a rise of the level posts a HEALTH event (R435). -/
def healthEvent (s : State) (u row pts : Nat) : State :=
  let before := healthLevel s u
  let h := s.health u
  let t := s.setHealth u { score := satAdd 32 h.score pts, lastEvent := row, events := satAdd 32 h.events 1 }
  let t := t.bump fHltUnitEvents 0 u 1
  if before < healthLevel t u then postHealth t u else t

/-- Do something that may raise a unit's level without an event of R434, posting the rise (R435). -/
def withHealth (s : State) (u : Nat) (g : State → State) : State :=
  let t := g s
  if healthLevel s u < healthLevel t u then postHealth t u else t

end Sys2Proof.Machine
end

