-- ==== Sys2Proof/Machine/Windows.lean ====
section
/-! DEFINITION. Frames, the causes of holds (R28, R245 to R247) and the windows of a Winter partition's slot table as they stand
at its work cycle (R244, R256, R258, R259). -/

namespace Sys2Proof.Machine

/-! ### Causes of holds -/

/-- The A-clock's cycles since module reset (R6). -/
def aCycles (s : State) : Nat := s.module.rootCycles / 4

/-- The frame boundary at or after an A-cycle (R28, R246). -/
def frameUp (a : Nat) : Nat := ceilDiv a 12 * 12

/-- The boundary at which the causes of a partition begin a hold; none without a cause (R246). -/
def holdBoundary (x : Part) : Option Nat :=
  match x.causes with
  | [] => none
  | c :: t => some (frameUp (t.foldl (fun m d => min m d.since) c.since))

/-- The hold of a partition has begun by an A-cycle. -/
def holdBegun (x : Part) (now : Nat) : Bool :=
  x.held || (match holdBoundary x with | some b => decide (b ≤ now) | none => false)

/-- A cause of a hold that becomes active at an A-cycle of a Winter partition (R59, R68, R247); in Summer nothing holds. -/
def addCauseAt (s : State) (p field key : Nat) (len : Option Nat) (since : Nat) : State :=
  if (s.part p).winter then s.modPart p (fun x => { x with causes := x.causes ++ [⟨field, since, len, key⟩] }) else s

/-- A cause of a hold becomes active now. -/
def addCause (s : State) (p field key : Nat) (len : Option Nat) : State := addCauseAt s p field key len (aCycles s)

/-- A cause without a stated length becomes active, unless it is active already. -/
def addOpenCause (s : State) (p field key : Nat) : State :=
  if (s.part p).causes.any (fun c => c.field == field && c.key == key && c.length.isNone) then s else addCause s p field key none

/-- A cause that satisfies a test and has no end yet ends now. -/
def endCause (f : HoldCause → Bool) (now : Nat) (c : HoldCause) : HoldCause :=
  if f c && c.length.isNone then { c with length := some (now - c.since) } else c

/-- End the causes of a partition that satisfy a test: one that ends before its hold has begun leaves nothing to hold
(R246, log entry 21). -/
def dropCauses (s : State) (p : Nat) (f : HoldCause → Bool) : State :=
  s.modPart p (fun x =>
    let kept := if holdBegun x (aCycles s) then x.causes.map (endCause f (aCycles s))
      else x.causes.filter (fun c => !(f c && c.length.isNone))
    { x with causes := kept })

/-- A partition is held: its engines stand still, from the boundary at which the hold begins (R245, R246). -/
def partHeld (s : State) (p : Nat) : Bool := holdBegun (s.part p) (aCycles s)

/-- The partition of a section is held. -/
def secHeld (s : State) (n : Nat) : Bool := match secPart s n with | some p => partHeld s p | none => false

/-! ### The slot table at run -/

/-- The first frame from `f` on in which an entry grants its resource, before the table repeats. -/
def nextGrant (e : SlotEntry) (f : Nat) : Option Nat :=
  let i := if f < e.start ∨ e.stride = 0 then 0 else min e.repeats ((f - e.start) / e.stride)
  let at_ := e.start + i * e.stride
  if f < at_ + e.length then some (max f at_) else if i < e.repeats then some (at_ + e.stride) else none

/-- An entry grants its resource in one of `n` frames from `f`, the table repeating every `period` frames. -/
def grantsIn (e : SlotEntry) (period f n : Nat) : Bool :=
  let rounds := (e.start + e.repeats * e.stride + e.length) / max period 1 + 1
  decide (period ≤ n) ||
  (upTo rounds).any (fun k => match nextGrant e (f + k * period) with | some g => decide (g < f + k * period + n) | none => false) ||
  (match nextGrant e 0 with | some g => decide (g + period < f + n) | none => false)

/-- The frames of a grant of an entry that are left from frame `f` of the table on; 0 outside its windows. -/
def framesLeft (e : SlotEntry) (period f : Nat) : Nat :=
  let rounds := (e.start + e.repeats * e.stride + e.length) / max period 1 + 1
  (upTo rounds).foldl (fun m k =>
    let g := f + k * period
    let i := if g < e.start ∨ e.stride = 0 then 0 else min e.repeats ((g - e.start) / e.stride)
    let at_ := e.start + i * e.stride
    if at_ ≤ g ∧ g < at_ + e.length then max m (at_ + e.length - g) else m) 0

/-- A frame of a partition's work clock, as a position of its table (R256). -/
def tablePos (t : SlotTable) (work : Nat) : Nat := work / 12 % max 1 t.period

/-- The A-cycles left of the open window of an entry that satisfies `f`; 0 where none is open (R258). -/
def windowLeft (s : State) (p : Nat) (f : SlotEntry → Bool) : Nat :=
  let x := s.part p
  match x.table with
  | some t => (t.entries.filter (fun e => f e && e.lmask != 0)).foldl (fun m e =>
      max m (12 * framesLeft e t.period (tablePos t x.work) - x.work % 12)) 0
  | none => 0

/-- An entry of the partition's table that satisfies `f` grants its resource in one of the next `n` work cycles. -/
def grantAhead (s : State) (p n : Nat) (f : SlotEntry → Bool) : Bool :=
  let x := s.part p
  match x.table with
  | some t => t.entries.any (fun e => f e && e.lmask != 0 && grantsIn e t.period (tablePos t x.work) (n / 12 + 1))
  | none => false

/-- An entry of the partition's table that satisfies `f` grants its resource in a frame of the last reference cycle (R244, R256,
R258). Without a table nothing is granted. -/
def windowOpen (s : State) (p : Nat) (f : SlotEntry → Bool) : Bool :=
  let x := s.part p
  match x.table with
  | some t => t.entries.any (fun e => f e && e.lmask != 0 &&
      grantsIn e t.period (tablePos t x.workPrev) (x.work / 12 + 1 - x.workPrev / 12))
  | none => false

/-- A holder has a grant now (R259). -/
def holderOpen (s : State) (p holder index : Nat) : Bool :=
  windowOpen s p (fun e => e.holder == holder && e.holderIndex == index)

/-- An engine of a partition may move data now: in Summer always, in Winter while the table grants its holder something and nothing
holds it (R243, R245). -/
def mayRun (s : State) (p holder index : Nat) : Bool :=
  !(s.part p).winter || (!partHeld s p && holderOpen s p holder index)

/-- An access from outside may reach the Loam and stacks of a Winter partition now: in a window of its holder or during a hold
(R251, R254). -/
def outsideOpen (s : State) (p holder index : Nat) : Bool :=
  !(s.part p).winter || partHeld s p || holderOpen s p holder index

end Sys2Proof.Machine
end

