-- ==== Sys2Proof/Machine/Memory.lean ====
section
/-! DEFINITION. The device address space (R34, R35, R52), the checks of every access (R30, R36, R44, R240, R410), the
bytes and poison of memory, the outcomes of reads (R56, R57) and the cache directory (R43 to R49). -/

namespace Sys2Proof.Machine

/-! ### Addresses -/

/-- Bytes of a stack, of a section's stacks and of all stacks (R52). -/
def stackBytes : Nat := 64000000000
def sectionHbm : Nat := 192000000000
def hbmBytes : Nat := 1536000000000
/-- The Loam windows: base, size and valid bytes (R34, R35). -/
def loamBase : Nat := 0x100000000000
def loamWindow : Nat := 0x40000000
def loamBytes : Nat := 0x30000000
/-- A unit of the cache part (R43). -/
def cacheUnit : Nat := 0x1000000

/-- The bytes lie in the HBM range. -/
def inHbm (a n : Nat) : Bool := decide (a + n ≤ hbmBytes)

/-- The section whose Loam holds the bytes, with the offset of the first (R35). -/
def loamPlace (a n : Nat) : Option (Nat × Nat) :=
  if loamBase ≤ a ∧ a < loamBase + 8 * loamWindow then
    let off := (a - loamBase) % loamWindow
    if off + n ≤ loamBytes then some ((a - loamBase) / loamWindow, off) else none
  else none

/-- The address of a byte of a section's Loam (R35). -/
def loamAddr (sec off : Nat) : Nat := loamBase + sec * loamWindow + off

/-- The module-wide stack of an HBM address, and the byte within it (R52). -/
def stackOf (a : Nat) : Nat := a / stackBytes
def stackOff (a : Nat) : Nat := a % stackBytes

/-- The sections that hold the `n` bytes at `a`; none where an address is not defined (R34, R35). -/
def placeSecs (a n : Nat) : Option (List Nat) :=
  if inHbm a n then some (spanOf (a / sectionHbm) ((a + (n - 1)) / sectionHbm + 1 - a / sectionHbm))
  else match loamPlace a n with
    | some (sec, _) => some [sec]
    | none => none

/-! ### Checks of an access -/

/-- The cache units in force in a section (R43). -/
def secUnits (s : State) (n : Nat) : Nat := match secPart s n with | some p => (s.part p).units | none => 0

/-- The bytes of a Loam range lie in the scratchpad part of their section (R43, R44). -/
def inScratchpad (s : State) (a n : Nat) : Bool :=
  match loamPlace a n with
  | some (sec, off) => decide (off + n ≤ (48 - secUnits s sec) * cacheUnit)
  | none => false

/-- The bytes may be named: HBM, or scratchpad Loam, of the partition's sections (R30, R34, R35, R44). -/
def inPartition (s : State) (p a n : Nat) : Bool :=
  match placeSecs a n with
  | some l => l.all (fun sec => bitOf (s.part p).mask sec) && (s.part p).present && (inHbm a n || inScratchpad s a n)
  | none => false

/-- Regions that satisfy `ok` cover the `n` bytes at `a`; each round passes one region. -/
def covered (rs : List Region) (ok : Region → Bool) : Nat → Nat → Nat → Bool
  | 0, _, n => n == 0
  | fuel + 1, a, n =>
    if n = 0 then true
    else match rs.find? (fun r => ok r && decide (r.base ≤ a) && decide (a < r.base + r.length)) with
      | some r => covered rs ok fuel (a + min n (r.base + r.length - a)) (n - min n (r.base + r.length - a))
      | none => false

/-- The memory regions granted to a context (R36). -/
def ctxRegions (s : State) (c : Nat) : List Region :=
  (s.objs.regions.map (·.2)).filter (fun r => r.present && r.ctx == c)

/-- Two ranges share a byte. -/
def overlaps (a n b m : Nat) : Bool := decide (a < b + m) && decide (b < a + n) && decide (0 < n) && decide (0 < m)

/-- A write meets a frozen region (R240). -/
def meetsFrozen (s : State) (p a n : Nat) : Bool :=
  (s.objs.regions.map (·.2)).any (fun r => r.present && r.part == p && r.frozen && overlaps a n r.base r.length)

/-- The Loam copies of loaded models of a partition, as address and length (R406). -/
def modelCopies (s : State) (p : Nat) : List (Nat × Nat) :=
  ((s.objs.models.map (·.2)).filter (fun m => m.present && m.part == p && m.mode == .loaded)).flatMap
    (fun m => m.copies.map (fun c => (loamAddr c.sec c.offset, c.bytes)))

/-- An access of a context passes every check but that of R410 (R30, R34, R35, R36, R44, R240). -/
def accessOk (s : State) (c a n : Nat) (write : Bool) : Bool :=
  let p := (s.ctx c).part
  inPartition s p a n &&
  covered (ctxRegions s c) (fun r => if write then r.write else r.read) ((ctxRegions s c).length + 1) a n &&
  !(write && (meetsFrozen s p a n || (modelCopies s p).any (fun m => overlaps a n m.1 m.2)))

/-! ### The directory's lines (R46) -/

/-- The key of a line's place in a directory. -/
def cacheKey (sec set way : Nat) : Nat := (sec * 16384 + set) * 16 + way

/-- The way of a set that holds a line. -/
def cacheFind (s : State) (sec set line : Nat) : Option Nat :=
  (upTo 16).find? (fun w =>
    let l := tabGet ({} : CacheLine) s.mem.cache (cacheKey sec set w)
    l.valid && l.line == line)

/-- The place of the line that holds a byte of HBM, if it is cached (R45, R46). -/
def lineHome (s : State) (a : Nat) : Option Nat :=
  let sec := a / sectionHbm
  let u := secUnits s sec
  if u = 0 || !inHbm a 1 then none
  else
    let line := (a - sec * sectionHbm) / 4096
    (cacheFind s sec (line % (256 * u)) line).map (cacheKey sec (line % (256 * u)))

/-- The word numbers of the copies of cached lines lie above those of every device address. -/
def copyBase : Nat := 2 ^ 44
def copyWord (ck i : Nat) : Nat := copyBase + ck * 256 + i

/-- The section and the place of the line that a copy's word belongs to. -/
def copyKey (k : Nat) : Nat := (k - copyBase) / 256
def keySec (ck : Nat) : Nat := ck / 16 / 16384

/-- The first HBM byte of the line at a place. -/
def lineAddr (s : State) (ck : Nat) : Nat := keySec ck * sectionHbm + (tabGet ({} : CacheLine) s.mem.cache ck).line * 4096

/-- The device address of a word, by its number. -/
def wordAddr (s : State) (k : Nat) : Nat :=
  if k < copyBase then 16 * k else lineAddr s (copyKey k) + (k - copyBase) % 256 * 16

/-- The number of the word that an access to an address meets: the cached copy's where there is one (R45). -/
def homeWord (s : State) (a : Nat) : Nat :=
  match lineHome s a with
  | some ck => copyWord ck (a % 4096 / 16)
  | none => a / 16

/-- The offset in its section's Loam of the copy of a line (R43, R46): a frame of the cache part, which one the spec does not
say (log entry 121). -/
def frameOffset (s : State) (ck : Nat) : Nat :=
  let u := secUnits s (keySec ck)
  (48 - u) * cacheUnit + Config.cacheFrame u (ck / 16 % 16384) (ck % 16) % (4096 * u) * 4096

/-! ### Bytes and poison -/

/-- One byte of device memory; a byte nothing has written reads as zero (R449, R504). -/
def memByte (s : State) (a : Nat) : Byte := tabGet 0 s.mem.bytes a

/-- The `n` bytes at `a`. -/
def readBytes (s : State) (a n : Nat) : List Byte := (upTo n).map (fun i => memByte s (a + i))

/-- Put bytes into a table of bytes. -/
def putBytes (t : List Cell) (a : Nat) : List Byte → List Cell
  | [] => t
  | b :: bs => putBytes (tabSet 0 t a b) (a + 1) bs

/-- Words that satisfy a test lose their poison and hold valid check bytes, those that an access to their address meets. -/
def mendWords (s : State) (f : Nat → Bool) : State :=
  let sel (k : Nat) : Bool := homeWord s (wordAddr s k) == k && f (wordAddr s k)
  { s with mem := { s.mem with poisoned := tabClear sel s.mem.poisoned, upset := tabClear sel s.mem.upset } }

/-- Write bytes. A word overwritten whole loses its poison (R55). -/
def writeBytes (s : State) (a : Nat) (bs : List Byte) : State :=
  let s := mendWords s (fun w => decide (a ≤ w) && decide (w + 16 ≤ a + bs.length))
  { s with mem := { s.mem with bytes := putBytes s.mem.bytes a bs } }

/-- Write single bytes at their addresses, as a tile or an engine leaves them. A word of which every byte is written loses its
poison (R55). -/
def writeCells (s : State) (l : List Cell) : State :=
  let s := mendWords s (fun w => (upTo 16).all (fun i => l.any (fun c => c.1 == w + i)))
  { s with mem := { s.mem with bytes := l.foldl (fun t c => tabSet 0 t c.1 c.2) s.mem.bytes } }

/-- Write zeros with valid check bytes. -/
def zeroRange (s : State) (a n : Nat) : State :=
  let s := mendWords s (fun w => decide (a ≤ w) && decide (w < a + n))
  { s with mem := { s.mem with bytes := tabClear (fun k => decide (a ≤ k) && decide (k < a + n)) s.mem.bytes } }

/-- Write a word as poisoned, by its number (R55). -/
def poisonKey (s : State) (k : Nat) : State :=
  { s with mem := { s.mem with poisoned := tabSet false s.mem.poisoned k true, upset := tabSet none s.mem.upset k none } }

/-- Write the word of an address as poisoned (R55). -/
def poisonWord (s : State) (a : Nat) : State := poisonKey s (homeWord s a)

/-- Words of memory that hold errors from now on (R54): one that the code detects stands until the word is rewritten, one of
more than two symbols that it does not detect has changed the data (log entry 122). -/
def upsetWords (s : State) (hits : List Hit) : State :=
  hits.foldl (fun t h =>
    let w := h.word / 16 * 16
    match h.outcome with
    | .onPath => { t with mem := { t.mem with spoilt := t.mem.spoilt ++ [w] } }
    | .undetected d => { t with mem := { t.mem with bytes := putBytes t.mem.bytes w (leBytes 16 d.toNat) } }
    | o => if tabGet false t.mem.poisoned (homeWord t w) then t
      else { t with mem := { t.mem with upset := tabSet none t.mem.upset (homeWord t w) (some o) } }) s

/-- A read of the `n` bytes at `a` that checks a block is spoilt on its way, which happens once (R63). -/
def takeSpoilt (s : State) (a n : Nat) : State × Bool :=
  match s.mem.spoilt.find? (fun w => decide (a ≤ w) && decide (w < a + n)) with
  | some w => ({ s with mem := { s.mem with spoilt := s.mem.spoilt.erase w } }, true)
  | none => (s, false)

/-- One byte of host memory. -/
def hostByte (s : State) (a : Nat) : Byte := tabGet 0 s.hostMem a

/-- Bytes of host memory. -/
def readHost (s : State) (a n : Nat) : List Byte := (upTo n).map (fun i => hostByte s (a + i))

/-- Write host memory. -/
def writeHost (s : State) (a : Nat) (bs : List Byte) : State := { s with hostMem := putBytes s.hostMem a bs }

/-- Device memory, its poison marks, its words in error and host memory are in canonical form: keys strictly rising, nothing listed that an
unlisted key reads as. -/
def Memory.wf (s : State) : Bool := tabWf 0 s.mem.bytes && tabWf false s.mem.poisoned && tabWf none s.mem.upset && tabWf 0 s.hostMem

/-- What the host stored in its own memory before this command. -/
def hostStores (s : State) (l : List Cell) : State := l.foldl (fun t c => writeHost t c.1 [c.2]) s

/-! ### Read outcomes (R56, R57) -/

/-- An outcome of a read that is counted. -/
inductive WordError where
  | corrected (symbol : Nat) | uncorrectable | poisoned
  deriving DecidableEq, Repr

/-- An uncorrectable or poisoned outcome. -/
def WordError.severe : WordError → Bool
  | .corrected _ => false | .uncorrectable => true | .poisoned => true

/-- The register word of R57 after an error: any error while VALID is 0, a severe one over a corrected one, else kept. -/
def lastAfter (old new : Word) (severe : Bool) : Word :=
  if !bitOf old.toNat 63 then new
  else if severe && !bitOf old.toNat 62 && !bitOf old.toNat 61 then new
  else old

/-- Count and record an outcome in Loam (R56, R57, R434). -/
def noteLoam (s : State) (sec off : Nat) (e : WordError) : State :=
  let rec_ (sym u p : Nat) : Word :=
    BitVec.ofNat 64 (2 ^ 63 + u * 2 ^ 62 + p * 2 ^ 61 + sym * 2 ^ 53 + off / 16 % 2 ^ 26 * 16)
  let a : RegAt := ⟨.loamEccLast, sec, 0⟩
  match e with
  | .corrected y =>
    let t := (s.bump fLoamEccCountCorr sec 0 1)
    healthEvent (t.setRaw a (lastAfter (t.raw a) (rec_ y 0 0) false)) (huSection sec) 1 1
  | .uncorrectable =>
    let t := (s.bump fLoamEccCountUncorr sec 0 1)
    healthEvent (t.setRaw a (lastAfter (t.raw a) (rec_ 0 1 0) true)) (huSection sec) 10 500
  | .poisoned =>
    let t := (s.bump fLoamEccCountPoisoned sec 0 1)
    t.setRaw a (lastAfter (t.raw a) (rec_ 0 0 1) true)

/-- Count and record an outcome in a stack (R56, R57, R434). -/
def noteHbm (s : State) (g off : Nat) (e : WordError) : State :=
  let rec_ (sym u p : Nat) : Word :=
    BitVec.ofNat 64 (2 ^ 63 + u * 2 ^ 62 + p * 2 ^ 61 + sym * 2 ^ 56 + off / 16 % 2 ^ 32 * 16)
  let a : RegAt := ⟨.hbmEccLast, g / 3, g % 3⟩
  match e with
  | .corrected y =>
    let t := (s.bump fHbmEccCountCorr (g / 3) (g % 3) 1)
    healthEvent (t.setRaw a (lastAfter (t.raw a) (rec_ y 0 0) false)) (huStack g) 2 1
  | .uncorrectable =>
    let t := (s.bump fHbmEccCountUncorr (g / 3) (g % 3) 1)
    healthEvent (t.setRaw a (lastAfter (t.raw a) (rec_ 0 1 0) true)) (huStack g) 11 500
  | .poisoned =>
    let t := (s.bump fHbmEccCountPoisoned (g / 3) (g % 3) 1)
    t.setRaw a (lastAfter (t.raw a) (rec_ 0 0 1) true)

/-- Where a word lies: in a section's Loam at an offset, or in a stack at an offset. -/
inductive WordPlace where
  | loam (sec off : Nat) | hbm (g off : Nat)
  deriving DecidableEq, Repr

/-- The place of a word, by its number: a cached copy lies in the cache part (R45). -/
def placeOf (s : State) (k : Nat) : WordPlace :=
  if copyBase ≤ k then .loam (keySec (copyKey k)) (frameOffset s (copyKey k) + (k - copyBase) % 256 * 16)
  else match loamPlace (16 * k) 1 with
    | some (sec, off) => .loam sec off
    | none => .hbm (stackOf (16 * k)) (stackOff (16 * k))

/-- The section of a place. -/
def WordPlace.sec : WordPlace → Nat
  | .loam sec _ => sec | .hbm g _ => g / 3

/-- Count and record an outcome of a word, by its number. A corrected word is rewritten in place, which holds a Winter
partition for 12 or 96 A-cycles (R59; counting field 1, CORR). -/
def noteKey (s : State) (k : Nat) (e : WordError) : State :=
  let (t, len) := match placeOf s k with
    | .loam sec off => (noteLoam s sec off e, 12)
    | .hbm g off => (noteHbm s g off e, 96)
  match e with
  | .corrected _ =>
    let t := { t with mem := { t.mem with upset := tabSet none t.mem.upset k none } }
    (match secPart s (placeOf s k).sec with
     | some p => addCause t p 1 0 (some len)
     | none => t)
  | _ => t

/-- The rank of an error among those of an access that starts at `a`: a run of 768 words goes after another (R39), and within
one severity comes first, then the lower bank of Loam or the lower offset of the stack (R57, log entry 123). -/
def errorRank (s : State) (a : Nat) (x : Nat × Nat × WordError) : Nat :=
  (x.1 / 16 - a / 16) / 768 * 2 ^ 41 + (if x.2.2.severe then 0 else 2 ^ 40) +
    (match placeOf s x.2.1 with | .loam _ off => off / 16 % 768 | .hbm _ off => off)

/-- Put an error into a list by a rank. -/
def rankInsert {α : Type} (rank : α → Nat) (x : α) : List α → List α
  | [] => [x]
  | y :: t => if rank x < rank y then x :: y :: t else y :: rankInsert rank x t

/-- The words in error that satisfy a test, as address, number and outcome, in the order in which an access that starts at `a`
meets them. -/
def errorsOf (s : State) (a : Nat) (sel : Nat → Bool) : List (Nat × Nat × WordError) :=
  let ps := (s.mem.poisoned.filter (fun e => e.2 && sel e.1)).map (fun e => (wordAddr s e.1, e.1, WordError.poisoned))
  let us := (s.mem.upset.filter (fun e => sel e.1)).flatMap (fun e =>
    match e.2 with
    | some (.corrected y) => [(wordAddr s e.1, e.1, WordError.corrected y.val)]
    | some .uncorrectable => [(wordAddr s e.1, e.1, WordError.uncorrectable)]
    | _ => [])
  (ps ++ us).foldl (fun l x => rankInsert (errorRank s a) x l) []

/-- The errors that a read of the `n` bytes at `a` meets. -/
def readErrors (s : State) (a n : Nat) : List (Nat × Nat × WordError) :=
  errorsOf s a (fun k =>
    let w := wordAddr s k
    homeWord s w == k && decide (w + 16 > a) && decide (w < a + n) && decide (0 < n))

/-- Count every error of a list. -/
def noteErrors (s : State) (es : List (Nat × Nat × WordError)) : State := es.foldl (fun t e => noteKey t e.2.1 e.2.2) s

/-- The severe ones of a list of errors, as address and poison. -/
def severeOf (es : List (Nat × Nat × WordError)) : List (Nat × Bool) :=
  (es.filter (fun e => e.2.2.severe)).map (fun e => (e.1, e.2.2 == .poisoned))

/-- Read the `n` bytes at `a` where they stand: the state with every outcome counted, and the severe errors met. -/
def readCheck (s : State) (a n : Nat) : State × List (Nat × Bool) :=
  (noteErrors s (readErrors s a n), severeOf (readErrors s a n))

/-- The POISON flag of the fault that severe errors cause: that of the word at the lowest address; none without one. -/
def worstOf : List (Nat × Bool) → Option Bool
  | [] => none
  | e :: t => some ((t.foldl (fun m x => if x.1 < m.1 then x else m) e).2)

/-! ### The cache directory (R45 to R49) -/

/-- Who accesses a line, and how (R48). -/
inductive CacheUse where
  | read | engineWhole | enginePart | outsideWrite
  deriving DecidableEq, Repr

/-- Write a line's place. -/
def setCacheLine (s : State) (sec set way : Nat) (l : CacheLine) : State :=
  { s with mem := { s.mem with cache := tabSet {} s.mem.cache (cacheKey sec set way) l } }

/-- A set after a victim has been sought (R47): the lines, aged until one holds 3, and the way chosen. -/
def cacheVictim (s : State) (sec set : Nat) : State × Nat :=
  let ways := (upTo 16).map (fun w => tabGet ({} : CacheLine) s.mem.cache (cacheKey sec set w))
  match (upTo 16).find? (fun w => !(ways.getD w {}).valid) with
  | some w => (s, w)
  | none =>
    let top := ways.foldl (fun m l => max m l.rrpv) 0
    let t := forEach (upTo 16) s (fun w t =>
      setCacheLine t sec set w { ways.getD w {} with rrpv := (ways.getD w {}).rrpv + (3 - top) })
    (t, ((upTo 16).find? (fun w => (ways.getD w {}).rrpv == top)).getD 0)

/-- Words lose poison and errors, by their numbers. -/
def forgetWords (s : State) (f : Nat → Bool) : State :=
  { s with mem := { s.mem with poisoned := tabClear f s.mem.poisoned, upset := tabClear f s.mem.upset } }

/-- The copy of the line at a place is written back: its words are read from Loam and written to HBM, one that reads back
uncorrectable or poisoned as poisoned (R49, R56). -/
def writeBackLine (s : State) (ck : Nat) : State :=
  let w := lineAddr s ck / 16
  let es := errorsOf s (lineAddr s ck) (fun k => decide (copyBase ≤ k) && copyKey k == ck)
  let t := forgetWords (noteErrors s es) (fun k => decide (w ≤ k) && decide (k < w + 256))
  ((severeOf es).foldl (fun u e => poisonKey u (e.1 / 16)) t).bump fLoamCacheWbWritebacks (keySec ck) 0 1

/-- A place of a directory gives up its line, written back first where it is dirty (R48, R49). -/
def evictLine (s : State) (ck : Nat) : State :=
  let l := tabGet ({} : CacheLine) s.mem.cache ck
  let t := if l.valid && l.dirty then writeBackLine s ck else s
  let t := forgetWords t (fun k => decide (copyBase ≤ k) && copyKey k == ck)
  { t with mem := { t.mem with cache := tabSet {} t.mem.cache ck {} } }

/-- The line at a place is filled from HBM (R48): every word is read there, and one that cannot be delivered is copied as a
poisoned word (R56). Answers the severe errors met. -/
def fillLine (s : State) (ck : Nat) : State × List (Nat × Bool) :=
  let w := lineAddr s ck / 16
  let es := errorsOf s (lineAddr s ck) (fun k => decide (w ≤ k) && decide (k < w + 256))
  let t := (noteErrors s es).bump fLoamCacheWbFills (keySec ck) 0 1
  ((severeOf es).foldl (fun u e => poisonKey u (copyWord ck (e.1 % 4096 / 16))) t, severeOf es)

/-- One access to a line of section `sec` whose partition has `u` cache units (R46 to R48): whether the access meets a copy that
was there before, and the severe errors of a fill. DESIGN CHOICE (log entry 128): a read that misses fills its line whoever reads. -/
def cacheAccess (s : State) (sec u line : Nat) (use : CacheUse) : State × Bool × List (Nat × Bool) :=
  if u = 0 then (s, true, [])
  else
    let set := line % (256 * u)
    match cacheFind s sec set line with
    | some w =>
      let l := tabGet ({} : CacheLine) s.mem.cache (cacheKey sec set w)
      ((setCacheLine s sec set w { l with rrpv := 0, dirty := l.dirty || use != .read }).bump fLoamCacheStatHits sec 0 1,
        true, [])
    | none =>
      let s := s.bump fLoamCacheStatMisses sec 0 1
      if use = .outsideWrite then (s, true, [])
      else
        let (t, w) := cacheVictim s sec set
        let t := setCacheLine (evictLine t (cacheKey sec set w)) sec set w
          { valid := true, line := line, dirty := use != .read, rrpv := 2 }
        if use = .engineWhole then (t, false, []) else
          let (t, bad) := fillLine t (cacheKey sec set w)
          (t, false, bad)

/-- The lines of HBM that hold some of the `n` bytes at `a`. -/
def linesOf (a n : Nat) : List Nat := if n = 0 then [] else spanOf (a / 4096) ((a + n - 1) / 4096 + 1 - a / 4096)

/-- The section of a line, and its number there (R46). -/
def lineSec (l : Nat) : Nat := l * 4096 / sectionHbm
def lineNum (l : Nat) : Nat := l - lineSec l * sectionHbm / 4096

/-- A write of the `n` bytes at an address passes through its section's directory, line by line (R45). `engine` tells an
engine's write from a mover's or the host's. -/
def throughCache (s : State) (a n : Nat) (engine : Bool) : State :=
  if !inHbm a n then s
  else forEach (linesOf a n) s (fun l t =>
    let whole := decide (a ≤ l * 4096) && decide (l * 4096 + 4096 ≤ a + n)
    (cacheAccess t (lineSec l) (secUnits t (lineSec l)) (lineNum l)
      (if !engine then .outsideWrite else if whole then .engineWhole else .enginePart)).1)

/-- One line of a read: a line that was cached is read from its copy, a line filled for the read has been read in HBM. -/
def readLine (s : State) (a n l : Nat) : State × List (Nat × Bool) :=
  let lo := max a (l * 4096)
  let hi := min (a + n) (l * 4096 + 4096)
  let (t, hit, bad) := cacheAccess s (lineSec l) (secUnits s (lineSec l)) (lineNum l) .read
  if hit then readCheck t lo (hi - lo)
  else (t, bad.filter (fun e => decide (lo < e.1 + 16) && decide (e.1 < hi)))

/-- Read the `n` bytes at `a` through the directory (R45, R56): the state with every outcome counted, and the severe errors met,
as address and poison. -/
def readMem (s : State) (a n : Nat) : State × List (Nat × Bool) :=
  if !inHbm a n || (linesOf a n).all (fun l => secUnits s (lineSec l) == 0) then readCheck s a n
  else (linesOf a n).foldl (fun r l => let (t, e) := readLine r.1 a n l; (t, r.2 ++ e)) (s, [])

/-- Read several ranges, with the severe errors met. -/
def readAll (s : State) (rs : List (Nat × Nat)) : State × List (Nat × Bool) :=
  rs.foldl (fun a r => let (t, e) := readMem a.1 r.1 r.2; (t, a.2 ++ e)) (s, [])

/-- Write bytes at a device address through the directory (R45). `engine` tells an engine's write from a mover's or the
host's. -/
def writeMem (s : State) (a : Nat) (bs : List Byte) (engine : Bool) : State :=
  writeBytes (throughCache s a bs.length engine) a bs

/-- The words of a range that a write covers in part. -/
def partWords (a n : Nat) : List Nat :=
  ([a / 16 * 16, (a + n - 1) / 16 * 16].eraseDups).filter (fun w => decide (w < a) || decide (a + n < w + 16))

/-- A write of the host or of Icvar (R45, R55, R56): a word written in part is read and merged; where its rest does not read back,
the word is left poisoned. -/
def storeBytes (s : State) (a : Nat) (data : List Byte) : State :=
  if data.isEmpty then s
  else
    let s := throughCache s a data.length false
    let (s, bad) := (partWords a data.length).foldl (fun r w => let (t, e) := readCheck r.1 w 16; (t, r.2 ++ e)) (s, [])
    bad.foldl (fun t e => poisonWord t e.1) (writeBytes s a data)

/-- Dirty lines of a section's directory. -/
def dirtyLines (s : State) (sec : Nat) : Nat :=
  (s.mem.cache.filter (fun e => keySec e.1 == sec && e.2.dirty)).length

/-- Write back and invalidate a section's directory (R49). -/
def flushSection (s : State) (sec : Nat) : State :=
  forEach ((s.mem.cache.filter (fun e => keySec e.1 == sec)).map (·.1)) s (fun ck t => evictLine t ck)

/-- Invalidate a section's directory without a write-back. -/
def dropSection (s : State) (sec : Nat) : State :=
  let t := forgetWords s (fun k => decide (copyBase ≤ k) && keySec (copyKey k) == sec)
  { t with mem := { t.mem with cache := tabClear (fun k => keySec k == sec) t.mem.cache } }

/-- Write back and invalidate the directories of a partition (R49), with the lines written back. -/
def flushPart (s : State) (p : Nat) : State × Nat :=
  let secs := maskSecs (s.part p).mask
  (forEach secs s (fun n t => flushSection t n), sumNat (secs.map (dirtyLines s)))

end Sys2Proof.Machine
end

