-- ==== Sys2Proof/Machine/Hold.lean ====
section
/-! DEFINITION. Holds of a Winter partition (R245 to R253). -/

namespace Sys2Proof.Machine

/-- A cause whose length the manual states in A-cycles runs in the hold itself, from its start; a retry and a wait run
from the time they were raised (R246, R275, log entry 25). -/
def causeFrom (t : Nat) (c : HoldCause) : HoldCause :=
  if c.length.isSome && c.field != 3 then { c with since := t } else c

/-- A hold begins at the first frame boundary after a cause was raised, not before the clock is there (R246). -/
def holdStartOp (p : Nat) (s : State) : State :=
  let x := s.part p
  if !x.present || !x.winter || x.held || !holdBegun x (aCycles s) then s
  else
    let t := (holdBoundary x).getD 0
    s.modPart p (fun x => { x with held := true, holdStart := t, causes := x.causes.map (causeFrom t) })

/-- HOLD_START (R246). -/
def execHoldStart (p : PartId) (s : State) : Host.Outcome State Fault Refusal := .next (holdStartOp p.val s)

/-- The A-cycle at which an ended cause ended. -/
def causeStop (c : HoldCause) : Nat := c.since + c.length.getD 0

/-- The interval in which a cause was active in a hold (R247). -/
def causeSpan (start : Nat) (c : HoldCause) : Nat × Nat := (max start c.since, causeStop c)

/-- Put an interval before the first that begins later. -/
def spanInsert (x : Nat × Nat) : List (Nat × Nat) → List (Nat × Nat)
  | [] => [x]
  | y :: t => if x.1 < y.1 then x :: y :: t else y :: spanInsert x t

/-- The A-cycles that a list of intervals covers, each once (R248). -/
def coveredCycles (l : List (Nat × Nat)) : Nat :=
  ((l.foldl (fun a x => spanInsert x a) []).foldl
    (fun (a : Nat × Nat) x => (a.1 + (x.2 - max a.2 x.1), max a.2 x.2)) (0, 0)).1

/-- The field that counts a cause, by its number (R253). -/
def causeField (n : Nat) : RField :=
  match n with
  | 1 => fRplHoldACorr
  | 2 => fRplHoldARefresh
  | 3 => fRplHoldBLink
  | 4 => fRplHoldBThrottle
  | 5 => fRplHoldCExternal
  | 6 => fRplHoldCCheck
  | _ => fRplHoldDTrace

/-- The frame boundary at which a hold ends: the first at or after the end of each of its causes (R246). -/
def holdStop (x : Part) : Nat := x.causes.foldl (fun m c => max m (frameUp (causeStop c))) x.holdStart

/-- A hold ends once every cause has ended and the clock has reached the boundary after them; its cycles are counted (R246 to R248).
The cycles since that boundary are work cycles (R244). -/
def holdEndOp (p : Nat) (s : State) : State :=
  let x := s.part p
  let stop := holdStop x
  if !x.held || x.causes.any (fun c => c.length.isNone) || decide (aCycles s < stop) then s
  else
    let s := s.bump fRplWorkWorkCycles p 0 (aCycles s - stop)
    let s := s.bump fRplHeldHeldCycles p 0 (stop - x.holdStart)
    let s := forEach (spanOf 1 7) s (fun n t =>
      t.bump (causeField n) p 0 (coveredCycles ((x.causes.filter (fun c => c.field == n)).map (causeSpan x.holdStart))))
    s.modPart p (fun x =>
      { x with held := false, causes := [], heldTotal := x.heldTotal + (stop - x.holdStart), workPrev := x.work,
               work := x.work + (aCycles s - stop) })

/-- HOLD_END (R246). -/
def execHoldEnd (p : PartId) (s : State) : Host.Outcome State Fault Refusal := .next (holdEndOp p.val s)

/-- A cause active beyond the hold limit is counted and posted as HOLD_LIMIT (R253, R382, R430). -/
def holdLimitOp (p field : Nat) (s : State) : State :=
  let x := s.part p
  if x.held && x.causes.any (fun c => c.field == field &&
      (match c.length with | some n => decide (aCycles s < c.since + n) | none => true)) then
    postPart (s.bump fRplSchedLimitReports p 0 1) p 0xE7 (p * 2 ^ 45 + field * 2 ^ 32)
  else s

/-- HOLD_LIMIT_REPORT (R253). -/
def execHoldLimitReport (p : PartId) (cause : Fin 7) (s : State) : Host.Outcome State Fault Refusal :=
  .next (holdLimitOp p.val (cause.val + 1) s)

end Sys2Proof.Machine
end

