-- ==== Sys2Proof/Machine/Num.lean ====
section
/-! DEFINITION. Numbers: exact values, element formats and their encodings (R73 to R76), conversion and its counts (R95 to
R99, R499), stochastic rounding (R106, R107), binary32 arithmetic with its special values (R100, R101) and the functions
of the special-function unit (R146). -/

namespace Sys2Proof.Machine

/-- An exact value: NaN, an infinity, or a finite number by its sign and magnitude (so that −0 is kept). -/
inductive Val where
  | nan
  | inf (neg : Bool)
  | fin (neg : Bool) (mag : Rat)
  deriving DecidableEq, Repr

/-- 2 to an integer power. -/
def pow2 (e : Int) : Rat := if e < 0 then mkRat 1 (2 ^ e.natAbs) else mkRat (2 ^ e.natAbs) 1

/-- The signed number of a finite value. -/
def sgn (neg : Bool) (m : Rat) : Rat := if neg then -m else m

/-- A finite value from a signed number; zero takes the sign `zneg`. -/
def ofRat (zneg : Bool) (x : Rat) : Val := if x = 0 then .fin zneg 0 else if x < 0 then .fin true (-x) else .fin false x

/-- floor(log₂ x) of a positive number. -/
def ilog2 (x : Rat) : Int :=
  let e : Int := (Nat.log2 x.num.natAbs : Int) - Nat.log2 x.den
  if x < pow2 e then e - 1 else if pow2 (e + 1) ≤ x then e + 1 else e

/-- floor of a non-negative number. -/
def floorNat (x : Rat) : Nat := x.num.natAbs / x.den

/-- An element format (R73, R74): a float by its field widths and bias, or an integer times 2^−frac between −lo and hi.
`width` is the bits of one stored element. -/
structure EFmt where
  width : Nat
  isInt : Bool := false
  man : Nat := 0
  bias : Nat := 0
  signed : Bool := true
  hasInf : Bool := false
  hasNan : Bool := false
  nanCode : Nat := 0
  maxCode : Nat := 0
  frac : Nat := 0
  hi : Nat := 0
  lo : Nat := 0
  deriving DecidableEq, Repr

def fB32 : EFmt := { width := 32, man := 23, bias := 127, hasInf := true, hasNan := true, nanCode := 0x7FC00000, maxCode := 0x7F7FFFFF }
def fB16 : EFmt := { width := 16, man := 10, bias := 15, hasInf := true, hasNan := true, nanCode := 0x7E00, maxCode := 0x7BFF }
def fBF16 : EFmt := { width := 16, man := 7, bias := 127, hasInf := true, hasNan := true, nanCode := 0x7FC0, maxCode := 0x7F7F }
def fE4M3 : EFmt := { width := 8, man := 3, bias := 7, hasNan := true, nanCode := 0x7F, maxCode := 0x7E }
def fE5M2 : EFmt := { width := 8, man := 2, bias := 15, hasInf := true, hasNan := true, nanCode := 0x7E, maxCode := 0x7B }
def fE3M2 : EFmt := { width := 6, man := 2, bias := 3, maxCode := 0x1F }
def fE2M3 : EFmt := { width := 6, man := 3, bias := 1, maxCode := 0x1F }
def fE2M1 : EFmt := { width := 4, man := 1, bias := 1, maxCode := 0x7 }
def fUE5M3 : EFmt := { width := 8, man := 3, bias := 15, signed := false, hasNan := true, nanCode := 0xFF, maxCode := 0xFE }
def fExt : EFmt := { width := 40, man := 31, bias := 127, hasInf := true, hasNan := true, nanCode := 0x7FC0000000, maxCode := 0x7F7FFFFFFF }
def fInt8 : EFmt := { width := 8, isInt := true, hi := 127, lo := 128 }
def fInt4 : EFmt := { width := 4, isInt := true, hi := 7, lo := 8 }
def fInt32 : EFmt := { width := 32, isInt := true, hi := 2147483647, lo := 2147483648 }
def fMXInt8 : EFmt := { width := 8, isInt := true, frac := 6, hi := 127, lo := 128 }
def fTern : EFmt := { width := 2, isInt := true, hi := 1, lo := 1 }

/-- The smallest exponent of a float's grid. -/
def emin (f : EFmt) : Int := 1 - (f.bias : Int)

/-- The magnitude that a code without its sign names. -/
def magOf (f : EFmt) (c : Nat) : Rat :=
  let e := c / 2 ^ f.man
  let m := c % 2 ^ f.man
  if e = 0 then mkRat m 1 * pow2 (emin f - f.man) else mkRat (2 ^ f.man + m) 1 * pow2 ((e : Int) - f.bias - f.man)

/-- The bits of a code below its sign. -/
def magBits (f : EFmt) : Nat := if f.signed then f.width - 1 else f.width

/-- The code of an infinity without its sign. -/
def infCode (f : EFmt) : Nat := f.maxCode + 1

/-- The value that a stored element names (R73 to R75, R83). A ternary 0b10 decodes as 0. -/
def decodeElem (f : EFmt) (w : Nat) : Val :=
  if f.isInt then
    if f.width = 2 then (match w % 4 with | 1 => .fin false 1 | 3 => .fin true 1 | _ => .fin false 0)
    else ofRat false ((signedOf f.width w : Int) * pow2 (-(f.frac : Int)))
  else
    let c := w % 2 ^ magBits f
    let neg := f.signed && bitOf w (f.width - 1)
    if f.width = 40 && c / 256 = 0 then .fin neg 0
    else if f.hasInf && (if f.width = 40 then c / 256 == infCode fB32 else c == infCode f) then .inf neg
    else if f.hasNan && decide (f.maxCode < c) then .nan
    else .fin neg (magOf f c)

/-- The spacing of the grid at a magnitude (R106), with the exponent range unbounded above. -/
def gridAt (f : EFmt) (x : Rat) : Rat :=
  if f.isInt then pow2 (-(f.frac : Int))
  else if x = 0 then pow2 (emin f - f.man) else pow2 (max (ilog2 x) (emin f) - f.man)

/-- Round a magnitude to the grid, to nearest, ties to even (R95). -/
def roundNear (f : EFmt) (x : Rat) : Rat :=
  let g := gridAt f x
  let k := floorNat (x / g)
  let r := x / g - mkRat k 1
  g * mkRat (if r < mkRat 1 2 then k else if mkRat 1 2 < r then k + 1 else k + k % 2) 1

/-- Round a magnitude stochastically with the 16-bit number `u` (R106). -/
def roundStoch (f : EFmt) (x : Rat) (u : Nat) : Rat :=
  let g := gridAt f x
  let k := floorNat (x / g)
  let f16 := floorNat ((x / g - mkRat k 1) * 65536)
  g * mkRat (if u < f16 then k + 1 else k) 1

/-- The largest finite magnitude of a sign. -/
def maxMag (f : EFmt) (neg : Bool) : Rat :=
  if f.isInt then mkRat (if neg then f.lo else f.hi) 1 * pow2 (-(f.frac : Int)) else magOf f f.maxCode

/-- The code of a sign and a magnitude that lies on the format's grid and in its range. -/
def codeOf (f : EFmt) (neg : Bool) (x : Rat) : Nat :=
  if f.isInt then
    let n := floorNat (x * pow2 f.frac)
    if neg then (2 ^ f.width - n) % 2 ^ f.width else n
  else
    let c := if x = 0 then 0
      else
        let e := ilog2 x
        if e < emin f then floorNat (x * pow2 (f.man - emin f))
        else floorNat (x * pow2 (f.man - e)) - 2 ^ f.man + (e + f.bias).toNat * 2 ^ f.man
    (if neg && f.signed then 2 ^ (f.width - 1) else 0) + c

/-- The class in which a conversion counts (R195). -/
inductive ConvClass where
  | plain | nonfinite | zero | saturated | flushed
  deriving DecidableEq, Repr

/-- The result of a conversion: the stored code, its class, whether it feeds the non-finite count (R98, R200) and whether
it marks the destination poisoned (R102). -/
structure Conv where
  code : Nat
  cls : ConvClass
  nonfinite : Bool
  poison : Bool
  deriving DecidableEq, Repr

/-- An infinity's or an overflow's code: the infinity where the format has one, else the largest finite value (R96, R98). -/
def overCode (f : EFmt) (neg : Bool) : Nat :=
  if f.hasInf then (if neg then 2 ^ (f.width - 1) else 0) + (if f.width = 40 then infCode fB32 * 256 else infCode f)
  else codeOf f neg (maxMag f neg)

/-- Convert a value (after division by the destination's scales) into an element (R95 to R99, R499), to nearest or with a
16-bit number for stochastic rounding (R105, R106). An extended master whose word is zero takes a zero tail (R83). -/
def convert (f : EFmt) (x : Val) (u : Option Nat) : Conv :=
  match x with
  | .nan => if f.hasNan then ⟨f.nanCode, .nonfinite, true, false⟩ else ⟨0, .nonfinite, true, true⟩
  | .inf neg =>
    if neg && !f.signed then ⟨0, .nonfinite, true, false⟩ else ⟨overCode f neg, .nonfinite, true, false⟩
  | .fin neg m =>
    if m = 0 then ⟨codeOf f neg 0, .zero, false, false⟩
    else if neg && !f.signed then ⟨0, .flushed, false, false⟩
    else
      let r := match u with | none => roundNear f m | some u => roundStoch f m u
      if maxMag f neg < r then ⟨overCode f neg, .saturated, false, false⟩
      else
        let c := codeOf f neg r
        let c := if f.width = 40 && c % 2 ^ 39 < 256 then c - c % 256 else c
        let gone := if f.isInt then c == 0 else c % 2 ^ magBits f == 0
        ⟨c, if gone then .flushed else .plain, false, false⟩

/-! ### Scales (R73, R90, R91) -/

/-- The value of a block scale: E8M0, or UE5M3. -/
def scaleVal (ue : Bool) (w : Nat) : Val :=
  if ue then decodeElem fUE5M3 w else if w = 255 then .nan else .fin false (pow2 ((w : Int) - 127))

/-- The element maximum E and its exponent k of the table under "Choosing block scales". -/
def elemMax (f : EFmt) : Rat × Int :=
  if f.isInt then (if f.width = 2 then (1, 0) else (maxMag f false, 0)) else (maxMag f false, ilog2 (maxMag f false))

/-- The E8M0 field for a block's largest magnitude (R90); `none` is an infinite element (R94). -/
def scaleE8M0 (f : EFmt) (amax : Option Rat) (ts : Rat) : Nat :=
  match amax with
  | none => 254
  | some a => if a = 0 then 127 else (max 0 (min 254 (ilog2 (a / ts) - (elemMax f).2 + 127))).toNat

/-- The UE5M3 field for a block's largest magnitude, rounded up (R91). -/
def scaleUE5M3 (f : EFmt) (amax : Option Rat) (ts : Rat) : Nat :=
  match amax with
  | none => 0xFE
  | some a =>
    if a = 0 then 0x78
    else
      let q := a / (ts * (elemMax f).1)
      if maxMag fUE5M3 false < q then 0xFE
      else if q < pow2 (-17) then 1
      else
        let g := gridAt fUE5M3 q
        let k := floorNat (q / g)
        codeOf fUE5M3 false (g * mkRat (if g * mkRat k 1 < q then k + 1 else k) 1)

/-! ### The keyed generator (R107) -/

/-- One of the four rounds. -/
def keyedRound (seed x : Word) : Word :=
  let x := (x ^^^ seed) * 0xD6E8FEB86659FD93
  x ^^^ (x >>> 32)

/-- keyed(seed, tensor_id, step, i). -/
def keyed (seed : Word) (id step : Nat) (i : Word) : Nat :=
  let c := (BitVec.ofNat 64 (id % 2 ^ 32) <<< 32) ||| BitVec.ofNat 64 (step % 2 ^ 32)
  let x := (i * 0x9E3779B97F4A7C15) ^^^ c
  (keyedRound seed (keyedRound seed (keyedRound seed (keyedRound seed x))) >>> 48).toNat

/-! ### Arithmetic on values, and binary32 -/

/-- A binary32 word's value. -/
def val32 (w : Word32) : Val := decodeElem fB32 w.toNat

/-- Round to binary32, to nearest, ties to even, overflow to infinity. -/
def rnd32 (x : Val) : Val :=
  match x with
  | .fin neg m => let r := roundNear fB32 m; if maxMag fB32 neg < r then .inf neg else .fin neg r
  | v => v

/-- The binary32 word of a value, rounded. -/
def word32 (x : Val) : Word32 := BitVec.ofNat 32 (convert fB32 x none).code

/-- Change the sign. -/
def vneg : Val → Val
  | .nan => .nan
  | .inf n => .inf (!n)
  | .fin n m => .fin (!n) m

/-- The magnitude. -/
def vabs : Val → Val
  | .nan => .nan
  | .inf _ => .inf false
  | .fin _ m => .fin false m

/-- The exact sum; an exact zero sum is −0 only for −0 + −0. -/
def vadd (a b : Val) : Val :=
  match a, b with
  | .nan, _ | _, .nan => .nan
  | .inf x, .inf y => if x = y then .inf x else .nan
  | .inf x, _ => .inf x
  | _, .inf y => .inf y
  | .fin x m, .fin y n => ofRat (x && y) (sgn x m + sgn y n)

/-- The exact product. -/
def vmul (a b : Val) : Val :=
  match a, b with
  | .nan, _ | _, .nan => .nan
  | .inf x, .inf y => .inf (x != y)
  | .inf x, .fin y n => if n = 0 then .nan else .inf (x != y)
  | .fin x m, .inf y => if m = 0 then .nan else .inf (x != y)
  | .fin x m, .fin y n => .fin (x != y) (m * n)

/-- The exact quotient by IEEE 754's special values. -/
def vdiv (a b : Val) : Val :=
  match a, b with
  | .nan, _ | _, .nan => .nan
  | .inf _, .inf _ => .nan
  | .inf x, .fin y _ => .inf (x != y)
  | .fin x _, .inf y => .fin (x != y) 0
  | .fin x m, .fin y n => if n = 0 then (if m = 0 then .nan else .inf (x != y)) else .fin (x != y) (m / n)

/-- Numeric order; NaN is below and above nothing, and −0 equals +0. -/
def vlt (a b : Val) : Bool :=
  match a, b with
  | .nan, _ | _, .nan => false
  | .inf x, .inf y => x && !y
  | .inf x, _ => x
  | _, .inf y => !y
  | .fin x m, .fin y n => decide (sgn x m < sgn y n)

/-- Equality as values (R128). -/
def veq (a b : Val) : Bool :=
  match a, b with
  | .nan, _ | _, .nan => false
  | a, b => !vlt a b && !vlt b a

/-- A value is −0 or negative. -/
def vsign : Val → Bool
  | .nan => false
  | .inf n => n
  | .fin n _ => n

/-- Maximum (R101). -/
def vmax (a b : Val) : Val :=
  match a, b with
  | .nan, b => b
  | a, .nan => a
  | a, b => if vlt a b then b else if vlt b a then a else if vsign a then b else a

/-- Minimum (R101). -/
def vmin (a b : Val) : Val :=
  match a, b with
  | .nan, b => b
  | a, .nan => a
  | a, b => if vlt a b then a else if vlt b a then b else if vsign a then a else b

/-- A value is NaN or infinite. -/
def nonFinite : Val → Bool
  | .fin _ _ => false
  | _ => true

/-- The magnitude of a finite value; nothing otherwise. -/
def finMag : Val → Option Rat
  | .fin _ m => some m
  | _ => none

/-- +0. -/
def vzero : Val := .fin false 0

/-- Sum, product and fused multiply-add, each rounded once to binary32 (R142). -/
def add32 (a b : Val) : Val := rnd32 (vadd a b)
def mul32 (a b : Val) : Val := rnd32 (vmul a b)
def fma32 (a b c : Val) : Val := rnd32 (vadd (vmul a b) c)
def div32 (a b : Val) : Val := rnd32 (vdiv a b)

/-- The integer square root, by bits from `k` down. -/
def isqrtBits (n : Nat) : Nat → Nat → Nat
  | 0, r => r
  | k + 1, r => let t := r + 2 ^ k; isqrtBits n k (if t * t ≤ n then t else r)

/-- floor(√n). -/
def isqrt (n : Nat) : Nat := isqrtBits n (Nat.log2 n / 2 + 1) 0

/-- The square root of a positive number, correctly rounded to binary32. -/
def sqrtRound (x : Rat) : Rat :=
  let e := ilog2 x / 2
  let q : Int := max e (-126) - 23
  let k := isqrt (floorNat (x / pow2 (2 * q)))
  let half := (mkRat (2 * k + 1) 2) * (mkRat (2 * k + 1) 2) * pow2 (2 * q)
  pow2 q * mkRat (if x < half then k else if half < x then k + 1 else k + k % 2) 1

/-- The square root of a value in binary32. -/
def sqrt32 : Val → Val
  | .nan => .nan
  | .inf n => if n then .nan else .inf false
  | .fin n m => if m = 0 then .fin n 0 else if n then .nan else .fin false (sqrtRound m)

/-! ### Transcendental functions (R146), in fixed point with 320 fraction bits -/

/-- One in fixed point. -/
def fxOne : Nat := 2 ^ 320

/-- A non-negative number in fixed point, truncated. -/
def fxOf (x : Rat) : Nat := floorNat (x * mkRat fxOne 1)

/-- The Taylor series of exp from its k-th term `t` on. -/
def expSeries (x : Nat) : Nat → Nat → Nat → Nat
  | 0, _, _ => 0
  | fuel + 1, k, t => t + expSeries x fuel (k + 1) (t * x / fxOne / (k + 1))

/-- Square `n` times. -/
def fxSquare : Nat → Nat → Nat
  | 0, x => x
  | n + 1, x => fxSquare n (x * x / fxOne)

/-- exp of a number from 0 to 256. -/
def expPos (x : Rat) : Rat := mkRat (fxSquare 9 (expSeries (fxOf (x / 512)) 70 0 fxOne)) fxOne

/-- exp. -/
def expReal (x : Rat) : Rat := if x < 0 then 1 / expPos (-x) else expPos x

/-- The series of atanh from the term of power 2k + 1 on; `t` is that power of z. -/
def atanhSeries (z2 : Nat) : Nat → Nat → Nat → Nat
  | 0, _, _ => 0
  | fuel + 1, k, t => t / (2 * k + 1) + atanhSeries z2 fuel (k + 1) (t * z2 / fxOne)

/-- atanh of a number from 0 to 1/3. -/
def atanhPos (z : Rat) : Rat := mkRat (atanhSeries (fxOf (z * z)) 105 0 (fxOf z)) fxOne

/-- log of a positive number. -/
def logReal (x : Rat) : Rat :=
  let e := ilog2 x
  let m := x / pow2 e
  let (m, e) := if mkRat 4 3 < m then (m / 2, e + 1) else (m, e)
  let z := (m - 1) / (m + 1)
  2 * (if z < 0 then -(atanhPos (-z)) else atanhPos z) + (e : Rat) * (2 * atanhPos (mkRat 1 3))

/-- tanh of a positive number below 20. -/
def tanhReal (x : Rat) : Rat :=
  if x < pow2 (-20) then x - x * x * x / 3 + 2 * x * x * x * x * x / 15
  else let e := expPos (2 * x); (e - 1) / (e + 1)

/-- The binary32 values on both sides of a positive real number that is none itself. -/
def neighbours (x : Rat) : Rat × Rat :=
  let g := gridAt fB32 x
  let k := floorNat (x / g)
  (g * mkRat k 1, g * mkRat (k + 1) 1)

/-- A faithfully rounded result: which neighbour is fixed by the input alone and is not said (log entry 13). `up` tells the
larger magnitude. -/
def faithful (op : Nat) (y : Word32) (neg : Bool) (x : Rat) : Val :=
  let n := neighbours x
  rnd32 (.fin neg (if Config.sfuUpper op y != neg then n.2 else n.1))

/-- The special-function unit's function `op` at a binary32 value (R146). -/
def sfuFun (op : Nat) (y : Val) : Val :=
  let w := word32 y
  match op with
  | 0 => match y with
    | .nan => .nan
    | .inf n => if n then .fin false 0 else .inf false
    | .fin n m =>
      if m = 0 then .fin false 1
      else if !n && mkRat 887228 10000 < m then .inf false
      else if n && mkRat 103973 1000 < m then .fin false 0
      else faithful 0 w false (expReal (sgn n m))
  | 1 => match y with
    | .nan => .nan
    | .inf n => if n then .nan else .inf false
    | .fin n m =>
      if m = 0 then .inf true
      else if n then .nan
      else if m = 1 then .fin false 0
      else let l := logReal m; faithful 1 w (decide (l < 0)) (if l < 0 then -l else l)
  | 2 => match y with
    | .fin n m => if m = 0 then .inf n else rnd32 (.fin n (1 / m))
    | v => vdiv (.fin false 1) v
  | 3 => match y with
    | .nan => .nan
    | .inf n => if n then .nan else .fin false 0
    | .fin n m => if m = 0 then .inf n else if n then .nan else .fin false (sqrtRound (1 / m))
  | _ => match y with
    | .nan => .nan
    | .inf n => .fin n 1
    | .fin n m =>
      if m = 0 then .fin n 0
      else if 20 < m then faithful 4 w n (1 - pow2 (-25))
      else faithful 4 w n (tanhReal m)

end Sys2Proof.Machine
end

