-- ==== Sys2Proof/Machine/Tensor.lean ====
section
/-! DEFINITION. Tensors: format codes (R76), descriptors (R85, R86), layout (R79, R87, R88), reading elements, converting and
packing rows of results (R90 to R106), counter records (R195, R196) and block checksums (R60, R61). -/

namespace Sys2Proof.Machine

/-- The element format of a format code (R76). -/
def fmtElem : Nat → Option EFmt
  | 0x00 => some fB32 | 0x01 => some fB16 | 0x02 => some fBF16
  | 0x10 => some fE4M3 | 0x11 => some fE5M2 | 0x12 => some fE3M2 | 0x13 => some fE2M3 | 0x14 => some fE2M1
  | 0x20 => some fInt8 | 0x21 => some fInt4 | 0x22 => some fInt32
  | 0x30 => some fE4M3 | 0x31 => some fE5M2 | 0x32 => some fE3M2 | 0x33 => some fE2M3 | 0x34 => some fE2M1
  | 0x35 => some fMXInt8
  | 0x40 => some fE2M1 | 0x41 => some fE3M2 | 0x42 => some fTern
  | 0x50 => some fExt | 0x51 => some fE4M3 | 0x52 => some fUE5M3
  | _ => none

def isMX (c : Nat) : Bool := within 0x30 0x35 c
def isKaolin (c : Nat) : Bool := within 0x40 0x42 c
def isMoment (c : Nat) : Bool := c == 0x51 || c == 0x52
def isExt (c : Nat) : Bool := c == 0x50
/-- The format has block scales (R76). -/
def hasScales (c : Nat) : Bool := isMX c || isKaolin c || isMoment c
/-- The integer formats (R74). -/
def isIntFmt (c : Nat) : Bool := within 0x20 0x22 c

/-- A tensor's element format; binary32 for a code that registration refuses. -/
def TensorDesc.elem (d : TensorDesc) : EFmt := (fmtElem d.format).getD fB32

/-- Bits of an element in the element array; an extended master keeps its word there and its tail apart (R83). -/
def TensorDesc.bits (d : TensorDesc) : Nat := if isExt d.format then 32 else d.elem.width

/-- The block size B (R85). -/
def TensorDesc.blockSize (d : TensorDesc) : Nat := 16 * 2 ^ d.block

/-- Round up to a multiple. -/
def roundUp (n m : Nat) : Nat := ceilDiv n m * m

/-- Elements of a row with its padding (R79, R87). -/
def TensorDesc.rowElems (d : TensorDesc) : Nat :=
  if hasScales d.format then roundUp d.dim0 d.blockSize
  else if d.elem.width = 6 then roundUp d.dim0 4
  else if d.elem.width = 4 then roundUp d.dim0 2
  else d.dim0

/-- Bytes of a row. -/
def TensorDesc.rowBytes (d : TensorDesc) : Nat := d.rowElems * d.bits / 8
/-- Rows of the tensor. -/
def TensorDesc.rows (d : TensorDesc) : Nat := d.dim1 * d.dim2 * d.dim3
/-- Elements of a tensor. -/
def TensorDesc.elems (d : TensorDesc) : Nat := d.rows * d.dim0
/-- Blocks of a row (R79). -/
def TensorDesc.rowBlocks (d : TensorDesc) : Nat := ceilDiv d.dim0 d.blockSize
/-- Bytes of the element, scale and tail arrays (R87). -/
def TensorDesc.elemBytes (d : TensorDesc) : Nat := d.rows * d.rowBytes
def TensorDesc.scaleBytes (d : TensorDesc) : Nat := if hasScales d.format then d.rows * d.rowBlocks else 0
def TensorDesc.tailBytes (d : TensorDesc) : Nat := if isExt d.format then d.rows * d.dim0 else 0

/-- The arrays of R88, each as address and bytes. -/
def TensorDesc.arrays (d : TensorDesc) : List (Nat × Nat) :=
  [(d.base, d.elemBytes)] ++ (if hasScales d.format then [(d.scaleAddr, d.scaleBytes)] else []) ++
    (if isExt d.format then [(d.auxAddr, d.tailBytes)] else [])

/-- Tensor blocks of R88: each array is padded to whole blocks. -/
def TensorDesc.blocks (d : TensorDesc) : Nat := sumNat (d.arrays.map (fun a => ceilDiv a.2 4096))

/-- The arrays with the checksum array (R86). -/
def TensorDesc.allArrays (d : TensorDesc) : List (Nat × Nat) :=
  d.arrays ++ (if d.checksum then [(d.crcAddr, 4 * d.blocks)] else [])

/-- The descriptor with the arrays it has in HBM, while a model's copy stands in (R406). -/
def Tensor.homeDesc (t : Tensor) : TensorDesc :=
  match t.home with
  | some (b, sc, ax) => { t.desc with base := b, scaleAddr := sc, auxAddr := ax }
  | none => t.desc

/-- Read a descriptor's 64 bytes (R85). -/
def parseTensor (b : List Byte) : TensorDesc :=
  { id := fieldAt b 0 4, version := BitVec.ofNat 32 (fieldAt b 4 4), format := fieldAt b 8 1,
    twoPass := bitOf (fieldAt b 9 1) 3, ue5m3 := bitOf (fieldAt b 9 1) 2, block := bitsOf (fieldAt b 9 1) 1 0,
    poisoned := bitOf (fieldAt b 10 1) 3, grad := bitOf (fieldAt b 10 1) 2, counters := bitOf (fieldAt b 10 1) 1,
    checksum := bitOf (fieldAt b 10 1) 0, rank := fieldAt b 11 1, scale := BitVec.ofNat 32 (fieldAt b 12 4),
    base := fieldAt b 16 8, scaleAddr := fieldAt b 24 8, crcAddr := fieldAt b 32 8, auxAddr := fieldAt b 40 8,
    dim0 := fieldAt b 48 4, dim1 := fieldAt b 52 4, dim2 := fieldAt b 56 4, dim3 := fieldAt b 60 4,
    reservedBad := bitsOf (fieldAt b 9 1) 7 4 != 0 || bitsOf (fieldAt b 10 1) 7 4 != 0 }

/-- A descriptor's 64 bytes (R85). -/
def emitTensor (d : TensorDesc) : List Byte :=
  leBytes 4 d.id ++ leBytes 4 d.version.toNat ++ leBytes 1 d.format ++
  leBytes 1 (toBit d.twoPass * 8 + toBit d.ue5m3 * 4 + d.block) ++
  leBytes 1 (toBit d.poisoned * 8 + toBit d.grad * 4 + toBit d.counters * 2 + toBit d.checksum) ++
  leBytes 1 d.rank ++ leBytes 4 d.scale.toNat ++ leBytes 8 d.base ++ leBytes 8 d.scaleAddr ++
  leBytes 8 d.crcAddr ++ leBytes 8 d.auxAddr ++ leBytes 4 d.dim0 ++ leBytes 4 d.dim1 ++ leBytes 4 d.dim2 ++
  leBytes 4 d.dim3

/-- A binary32 word is positive, normal and finite (R81). -/
def goodScale (w : Word32) : Bool := decide (0x00800000 ≤ w.toNat) && decide (w.toNat ≤ 0x7F7FFFFF)

/-- The bytes lie wholly in the HBM range (R34). -/
def arrayInHbm (a : Nat × Nat) : Bool := inHbm a.1 a.2

/-- The fields of a descriptor break R86; `home` is the descriptor with its arrays in HBM, `ok` tells whether bytes lie
within granted regions. -/
def tensorBad (d home : TensorDesc) (ok : Nat → Nat → Bool) : Bool :=
  let c := d.format
  (fmtElem c).isNone || d.id == 0 || !within 1 4 d.rank || d.reservedBad ||
  d.dim0 == 0 || d.dim1 == 0 || d.dim2 == 0 || d.dim3 == 0 ||
  (d.rank ≤ 1 && d.dim1 != 1) || (d.rank ≤ 2 && d.dim2 != 1) || (d.rank ≤ 3 && d.dim3 != 1) ||
  (isMX c && (d.block != 1 || d.ue5m3 || d.twoPass)) ||
  (isMoment c && (d.block != 3 || d.ue5m3)) ||
  (isKaolin c && ((d.twoPass && !d.ue5m3) || !goodScale d.scale)) ||
  (!isKaolin c && d.scale != 0) ||
  (!hasScales c && (d.block != 0 || d.ue5m3 || d.twoPass || d.scaleAddr != 0)) ||
  (!isExt c && d.auxAddr != 0) || (!d.checksum && d.crcAddr != 0) ||
  (isExt c && d.grad) ||
  (d.checksum && (home.arrays.any (fun a => !arrayInHbm a || a.1 % 4096 != 0) || !arrayInHbm (d.crcAddr, 4 * home.blocks))) ||
  d.allArrays.any (fun a => a.1 % 16 != 0 || !ok a.1 a.2)

/-- Bytes lie in the partition and within regions granted to a context (R36, R86). -/
def regionsCover (s : State) (k a n : Nat) : Bool :=
  inPartition s (s.ctx k).part a n && covered (ctxRegions s k) (fun _ => true) ((ctxRegions s k).length + 1) a n

/-- A tensor that a tile or transfer names is registered, and its descriptor still passes R86; that of a loaded model by its home
arrays (R406). -/
def tensorValid (s : State) (p id : Nat) : Bool :=
  let t := s.tensor p id
  t.present && !tensorBad t.homeDesc t.homeDesc (regionsCover s t.ctx)

/-! ### Reading elements -/

/-- The raw bits of the element at column `x` of row `r` (R75, R87). -/
def elemRaw (s : State) (d : TensorDesc) (r x : Nat) : Nat :=
  if isExt d.format then
    leNat (readBytes s (d.base + r * d.rowBytes + 4 * x) 4) * 256 + (memByte s (d.auxAddr + r * d.dim0 + x)).toNat
  else
    let bit := x * d.bits
    leNat (readBytes s (d.base + r * d.rowBytes + bit / 8) 5) / 2 ^ (bit % 8) % 2 ^ d.bits

/-- The value of the element's block scale; 1 without scales (R78). -/
def elemScale (s : State) (d : TensorDesc) (r x : Nat) : Val :=
  if hasScales d.format then
    scaleVal (isKaolin d.format && d.ue5m3) (memByte s (d.scaleAddr + r * d.rowBlocks + x / d.blockSize)).toNat
  else .fin false 1

/-- The tensor scale; 1 but for a Kaolin tensor (R78). -/
def TensorDesc.tensorScale (d : TensorDesc) : Val := if isKaolin d.format then val32 d.scale else .fin false 1

/-- The element without its scales. -/
def elemVal (s : State) (d : TensorDesc) (r x : Nat) : Val := decodeElem d.elem (elemRaw s d r x)

/-- The value of an element (R78, R83). -/
def fullVal (s : State) (d : TensorDesc) (r x : Nat) : Val :=
  vmul (vmul (elemVal s d r x) (elemScale s d r x)) d.tensorScale

/-- The element read through its binary32 word alone where it is an extended master (R84, R142). -/
def wordVal (s : State) (d : TensorDesc) (r x : Nat) : Val :=
  if isExt d.format then decodeElem fB32 (elemRaw s d r x / 256) else fullVal s d r x

/-- The element is a ternary 0b10 (R75). -/
def isBadTern (s : State) (d : TensorDesc) (r x : Nat) : Bool := d.format == 0x42 && elemRaw s d r x == 2

/-- The ternary 0b10 elements of `n` columns from `x`, of `m` rows from `r`. -/
def countBadTern (s : State) (d : TensorDesc) (r m x n : Nat) : Nat :=
  if d.format = 0x42 then
    sumNat ((spanOf r m).map (fun i => ((spanOf x n).filter (fun j => isBadTern s d i j)).length))
  else 0

/-- The byte ranges that `n` columns from `x` of row `r` occupy. -/
def rowRanges (d : TensorDesc) (r x n : Nat) : List (Nat × Nat) :=
  let b0 := x * d.bits / 8
  let b1 := ceilDiv ((x + n) * d.bits) 8
  [(d.base + r * d.rowBytes + b0, b1 - b0)] ++
  (if hasScales d.format then
    [(d.scaleAddr + r * d.rowBlocks + x / d.blockSize, (x + n - 1) / d.blockSize + 1 - x / d.blockSize)] else []) ++
  (if isExt d.format then [(d.auxAddr + r * d.dim0 + x, n)] else [])

/-! ### Counter records (R195, R196) -/

/-- The histogram bin of a finite non-zero source. -/
def histBin (b : Int) (w : Nat) (x : Rat) : Nat :=
  let e := ilog2 x
  if e < b then 0 else min 15 (((e - b) / w).toNat + 1)

/-- Count one conversion of the source `x`. -/
def countConv (b : Int) (w : Nat) (k : CounterDelta) (x : Val) (c : Conv) : CounterDelta :=
  let k := { k with elements := k.elements + 1 }
  let k := match c.cls with
    | .nonfinite => { k with nonfinite := k.nonfinite + 1 }
    | .zero => { k with zeros := k.zeros + 1 }
    | .saturated => { k with saturated := k.saturated + 1 }
    | .flushed => { k with flushed := k.flushed + 1 }
    | .plain => k
  match x with
  | .fin _ m =>
    let a := word32 (.fin false m)
    let k := if k.amax.toNat < a.toNat then { k with amax := a } else k
    if m = 0 then k else { k with hist := k.hist.modify (histBin b w m) (· + 1) }
  | _ => k

/-- Two deltas together. -/
def addDelta (a b : CounterDelta) : CounterDelta :=
  { elements := a.elements + b.elements, zeros := a.zeros + b.zeros, flushed := a.flushed + b.flushed,
    saturated := a.saturated + b.saturated, nonfinite := a.nonfinite + b.nonfinite,
    amax := if a.amax.toNat < b.amax.toNat then b.amax else a.amax, hist := List.zipWith (· + ·) a.hist b.hist }

/-- Apply a delta to a record; each field saturates (R197). -/
def applyDelta (r : Counter) (k : CounterDelta) : Counter :=
  { r with elements := satAdd 64 r.elements k.elements, zeros := satAdd 32 r.zeros k.zeros,
           flushed := satAdd 32 r.flushed k.flushed, saturated := satAdd 32 r.saturated k.saturated,
           nonfinite := satAdd 32 r.nonfinite k.nonfinite,
           amax := if r.amax.toNat < k.amax.toNat then k.amax else r.amax,
           hist := List.zipWith (satAdd 32) r.hist k.hist }

/-! ### Converting and packing results -/

/-- What converting some elements yields: cells to write, counts, the non-finite count and the poison mark. -/
structure OutRes where
  cells : List Cell := []
  delta : CounterDelta := {}
  nf : Nat := 0
  poison : Bool := false
  deriving DecidableEq, Repr

/-- Two results together. -/
def OutRes.join (a b : OutRes) : OutRes :=
  { cells := a.cells ++ b.cells, delta := addDelta a.delta b.delta, nf := a.nf + b.nf, poison := a.poison || b.poison }

/-- How a unit converts: seed and step of R106, the histogram of the destination's record, and what is added to an element's
index for the keyed generator, where a tensor holds a shard of a larger one (R304). -/
structure ConvCtx where
  seed : Word
  step : Nat
  base : Int
  width : Nat
  shift : Nat := 0
  deriving DecidableEq, Repr

/-- Cells of consecutive bytes. -/
def cellsAt (a : Nat) (b : List Byte) : List Cell := b.zipIdx.map (fun e => (a + e.2, e.1))

/-- Codes of `w` bits packed from the least significant end (R75). -/
def packCodes (w : Nat) : List Nat → Nat
  | [] => 0
  | c :: t => c % 2 ^ w + 2 ^ w * packCodes w t

/-- Largest magnitude of a block: `none` if an element is infinite; NaN elements do not set it (R94, R101). -/
def blockAmax (vs : List Val) : Option Rat :=
  vs.foldl (fun a v => match a, v with
    | none, _ => none
    | some _, .inf _ => none
    | some m, .fin _ x => some (max m x)
    | some m, .nan => some m) (some 0)

/-- The scale byte of a block (R90 to R92). -/
def chooseScale (d : TensorDesc) (vs : List Val) : Nat :=
  let ts := match d.tensorScale with | .fin _ t => t | _ => 1
  if isKaolin d.format && d.ue5m3 then scaleUE5M3 d.elem (blockAmax vs) ts else scaleE8M0 d.elem (blockAmax vs) ts

/-- Convert consecutive elements of row `r` from column `x`, under a scale. -/
def convElems (d : TensorDesc) (cx : ConvCtx) (scale : Val) (r x : Nat) (vs : List Val) : List Nat × OutRes :=
  let go (e : Val × Nat) : Nat × OutRes :=
    let i := BitVec.ofNat 64 (x + e.2 + d.dim0 * r + cx.shift)
    let u := if d.grad then some (keyed cx.seed d.id cx.step i) else none
    let c := convert d.elem (vdiv e.1 (vmul scale d.tensorScale)) u
    (c.code, { delta := countConv cx.base cx.width {} e.1 c, nf := toBit c.nonfinite, poison := c.poison })
  let l := vs.zipIdx.map go
  (l.map (·.1), l.foldl (fun a e => a.join e.2) {})

/-- Cells of the codes of row `r` from column `x`, without scales; the padding after the last element of a row is written
as zero bits. -/
def packRow (d : TensorDesc) (r x : Nat) (codes : List Nat) : List Cell :=
  if isExt d.format then
    cellsAt (d.base + r * d.rowBytes + 4 * x) (codes.flatMap (fun c => leBytes 4 (c / 256))) ++
    cellsAt (d.auxAddr + r * d.dim0 + x) (codes.map (fun c => BitVec.ofNat 8 c))
  else
    cellsAt (d.base + r * d.rowBytes + x * d.bits / 8)
      (leBytes (ceilDiv (codes.length * d.bits) 8) (packCodes d.bits codes))

/-- Write values into row `r` from column `x` (whole blocks in a block-scaled tensor), choosing block scales (R90 to R97,
R123). -/
def outRow (d : TensorDesc) (cx : ConvCtx) (r x : Nat) (vs : List Val) : OutRes :=
  if hasScales d.format then
    let blocks := chunksOf d.blockSize vs
    let one (e : List Val × Nat) : OutRes :=
      let sc := chooseScale d e.1
      let (codes, o) := convElems d cx (scaleVal (isKaolin d.format && d.ue5m3) sc) r (x + e.2 * d.blockSize) e.1
      let padded := codes ++ List.replicate (d.blockSize - codes.length) 0
      { o with cells := packRow d r (x + e.2 * d.blockSize) padded ++
          [(d.scaleAddr + r * d.rowBlocks + x / d.blockSize + e.2, BitVec.ofNat 8 sc)] }
    blocks.zipIdx.foldl (fun a e => a.join (one e)) {}
  else
    let (codes, o) := convElems d cx (.fin false 1) r x vs
    { o with cells := packRow d r x codes }

/-- Write rows of values from row `r` and column `x` on. -/
def outRows (d : TensorDesc) (cx : ConvCtx) (r x : Nat) (rows : List (List Val)) : OutRes :=
  rows.zipIdx.foldl (fun a e => a.join (outRow d cx (r + e.2) x e.1)) {}

/-! ### Block checksums (R60, R61, R88) -/

/-- One bit of CRC-32C, reflected. -/
def crcBit (c : Word32) : Word32 := if c.getLsbD 0 then (c >>> 1) ^^^ 0x82F63B78 else c >>> 1

/-- One byte of CRC-32C. -/
def crcByte (c : Word32) (b : Byte) : Word32 :=
  let c := c ^^^ b.setWidth 32
  crcBit (crcBit (crcBit (crcBit (crcBit (crcBit (crcBit (crcBit c)))))))

/-- CRC-32C (R61). -/
def crc32c (bs : List Byte) : Word32 := (bs.foldl crcByte 0xFFFFFFFF) ^^^ 0xFFFFFFFF

/-- The checksum of a tensor block: its header, then its bytes (R61). -/
def blockCrc (id b : Nat) (version : Word32) (bytes : List Byte) : Word32 :=
  crc32c (leBytes 4 id ++ leBytes 4 b ++ leBytes 4 version.toNat ++ leBytes 4 0 ++ bytes)

/-- The place of tensor block `b`: its address and the bytes of the array it still holds. -/
def blockPlace (arrays : List (Nat × Nat)) (b : Nat) : Option (Nat × Nat) :=
  match arrays with
  | [] => none
  | (a, n) :: t =>
    if b < ceilDiv n 4096 then some (a + 4096 * b, min 4096 (n - 4096 * b)) else blockPlace t (b - ceilDiv n 4096)

/-- The bytes of a tensor block as the checksum sees them: past the end of the array they are zero (R60, R88). -/
def blockData (s : State) (p : Nat × Nat) : List Byte := readBytes s p.1 p.2 ++ List.replicate (4096 - p.2) 0

/-- The stored checksum of block `b`. -/
def storedCrc (s : State) (d : TensorDesc) (b : Nat) : Word32 :=
  BitVec.ofNat 32 (leNat (readBytes s (d.crcAddr + 4 * b) 4))

/-- The block that an address of a tensor's arrays begins, if it begins one. -/
def blockAt (arrays : List (Nat × Nat)) (a : Nat) : Option Nat :=
  match arrays with
  | [] => none
  | (b, n) :: t =>
    if b ≤ a ∧ a < b + n then (if (a - b) % 4096 = 0 then some ((a - b) / 4096) else none)
    else (blockAt t a).map (· + ceilDiv n 4096)

/-- Blocks whose bytes lie wholly in the `n` bytes at `a`, as number, address and length. -/
def wholeBlocks (d : TensorDesc) (a n : Nat) : List (Nat × Nat × Nat) :=
  ((upTo d.blocks).filterMap (fun b => (blockPlace d.arrays b).map (fun p => (b, p.1, p.2)))).filter
    (fun e => decide (a ≤ e.2.1) && decide (e.2.1 + e.2.2 ≤ a + n))

end Sys2Proof.Machine
end

