-- ==== Sys2Proof/Machine/Ops.lean ====
section
/-! DEFINITION. The shared operations of the block: what links send, completion records and queues (R344 to R355), stopping
slots, queues and contexts (R416, R417, R423), faults and escalation (R419, R432, R433), record and replay of inputs
(R263 to R268), tallies (R157 to R160). -/

namespace Sys2Proof.Machine

/-! ### Sending -/

/-- Slots that a message takes (R279). -/
def msgSlots (n : Nat) : Nat := ceilDiv (32 + n) 64

/-- The channel of a message type (R278). -/
def msgChan (t : Nat) : Nat := if t < 0x10 then 0 else 1

/-- Bytes of payload in a flit (R272). -/
def flitPayload : Nat := 616

/-- The channel of a message. -/
def chanOf (header : List Byte) : Nat := msgChan (fieldAt header 0 1)

/-- Free slots of a channel at the partner (R279). -/
def creditOf (x : Link) (c : Nat) : Nat :=
  if c = 0 then x.granted0 - (x.sent0 - x.partnerFreed0) else x.granted1 - (x.sent1 - x.partnerFreed1)

/-- The lane of a flit (R271): the surviving one at half width, else that of its SEQ; control and idle flits, whose SEQ is zero, take the
lane of even ones (log entry 151). -/
def flitLane (s : State) (l seq : Nat) : Nat :=
  match s.fld fLnkStatusLanes (l / 8) (l % 8) with
  | 1 => 0
  | 2 => 1
  | _ => seq % 2

/-- Send a flit: each carries ACK and both counts of freed slots (R272, R279). -/
def sendFlit (s : State) (l kind : Nat) (nak : Bool) (seq first : Nat) (payload : List Byte) : State :=
  let x := s.link l
  { s with out := { s.out with links := s.out.links ++ [(l,
      { lane := flitLane s l seq, kind := kind, nak := nak, seq := seq, ack := x.rxSeq, first := first, credit0 := x.freed0,
        credit1 := x.freed1, payload := payload })] } }

/-- Send an idle flit, which carries ACK and the credits, and NAK or not (R274, R279). -/
def sendIdle (s : State) (l : Nat) (nak : Bool) : State := sendFlit s l 0 nak 0 0xFFFF (List.replicate flitPayload 0)

/-- The payload of the next data flit (R272): as many bytes of the messages begun as it holds, end to end; the offset of the first
header that begins in it, and whether it ends a message of a transmit descriptor; and what is left. -/
def takeParts : Nat → Nat → List TxPart → List Byte × Nat × Bool × List TxPart
  | _, _, [] => ([], 0xFFFF, false, [])
  | room, off, p :: t =>
    if room = 0 then ([], 0xFFFF, false, p :: t)
    else if p.bytes.length ≤ room then
      let r := takeParts (room - p.bytes.length) (off + p.bytes.length) t
      (p.bytes ++ r.1, if p.fresh then off else r.2.1, p.job || r.2.2.1, r.2.2.2)
    else (p.bytes.take room, if p.fresh then off else 0xFFFF, false, { p with fresh := false, bytes := p.bytes.drop room } :: t)

/-- The transmitter sends data flits: the link is UP and the retry buffer of 256 flits is not full (R274). -/
def canFlit (s : State) (l : Nat) : Bool :=
  s.fld fLnkStatusState (l / 8) (l % 8) == 4 && decide ((s.link l).retry.length < 256)

/-- Cut the next data flit of the messages begun; the rest of the last one is zero (R272). -/
def cutFlit (s : State) (l : Nat) : State :=
  let x := s.link l
  let (b, first, ends, rest) := takeParts flitPayload 0 x.parts
  let payload := b ++ List.replicate (flitPayload - b.length) 0
  sendFlit (s.setLink l { x with
    parts := rest
    retry := x.retry ++ [⟨x.txSeq, first, payload⟩]
    txSeq := (x.txSeq + 1) % 65536
    lastData := if ends then some x.txSeq else x.lastData }) l 1 false x.txSeq first payload

/-- Begin to send a message: it takes credits and is counted (R279, R298). -/
def beginMsg (s : State) (l : Nat) (m : OutMsg) : State :=
  let slots := msgSlots m.data.length
  let c := chanOf m.header
  (s.modLink l (fun x => { x with
    sent0 := if c = 0 then x.sent0 + slots else x.sent0
    sent1 := if c = 0 then x.sent1 else x.sent1 + slots
    parts := x.parts ++ [⟨c, m.job, true, m.header ++ m.data⟩] })).bump fLnkTxBytesBytes (l / 8) (l % 8) (32 + m.data.length)

/-- The next message to begin, by its place among those that wait: each channel in order, channel 1 never waiting on channel 0; its
partner has slots for all of it (R279). -/
def nextMsg (x : Link) : Option Nat :=
  let head (c : Nat) : Option Nat := (x.waiting.findIdx? (fun m => chanOf m.header == c)).bind (fun i =>
    match x.waiting[i]? with
    | some m => if msgSlots m.data.length ≤ creditOf x c then some i else none
    | none => none)
  (head 1).orElse (fun _ => head 0)

/-- Send what can be sent: messages are begun as long as the flit in the making has room, then the flit goes (R272, R274). -/
def pumpLink (s : State) (l : Nat) : Nat → State
  | 0 => s
  | fuel + 1 =>
    let x := s.link l
    if !canFlit s l then s
    else
      let next := if flitPayload ≤ sumNat (x.parts.map (fun p => p.bytes.length)) then none else nextMsg x
      match next.bind (fun i => x.waiting[i]?.map (fun m => (i, m))) with
      | some (i, m) => pumpLink (beginMsg (s.setLink l { x with waiting := x.waiting.eraseIdx i }) l m) l fuel
      | none => if x.parts.isEmpty then s else pumpLink (cutFlit s l) l fuel

/-- The key of the hold that a transmit without credit causes (R252). -/
def creditKey (l : Nat) : Nat := 64 + l

/-- Send every message of a link that may go out; the hold of a transmit that found no credit ends when none of channel 0
waits (R247, R252). -/
def pump (s : State) (l : Nat) : State :=
  let s := pumpLink s l ((s.link l).waiting.length + 257)
  if (s.link l).waiting.any (fun m => chanOf m.header == 0) then s
  else match secPart s (l / 8) with
    | some p => dropCauses s p (fun c => c.field == 3 && c.key == creditKey l)
    | none => s

/-- Give messages to a link: they go out as soon as the link, the credits and the retry buffer allow. -/
def sendMsgs (s : State) (l : Nat) (ms : List OutMsg) : State :=
  pump (s.modLink l (fun x => { x with waiting := x.waiting ++ ms })) l

/-- Give a message of no context to a link. -/
def sendMsg (s : State) (l : Nat) (header data : List Byte) : State := sendMsgs s l [{ header := header, data := data }]

/-- The payload that carries a record (R283). -/
def linkRecordBytes (r : LinkRecord) : List Byte :=
  [r.kind, r.protoMin, r.protoMax, r.rates] ++ leBytes 6 r.moduleId.toNat ++ [r.link, r.moduleState] ++ leBytes 2 r.slots0.toNat ++
  leBytes 2 r.slots1.toNat ++ leBytes 4 r.hbCount.toNat ++ [r.lanes] ++ List.replicate (flitPayload - 21) 0

/-- Send a link control flit with a record (R272, R283). -/
def sendRecord (s : State) (l : Nat) (r : LinkRecord) : State := sendFlit s l 2 false 0 0xFFFF (linkRecordBytes r)

/-- A control message's header (R277): type, cause, epoch, group and reference. -/
def ctrlHeader (type cause epoch group : Nat) (ref : List Byte) : List Byte :=
  leBytes 1 type ++ leBytes 1 cause ++ leBytes 2 0 ++ leBytes 4 epoch ++ leBytes 4 0 ++ leBytes 4 group ++ leBytes 4 0 ++
  (ref ++ List.replicate 12 0).take 12

/-- Send ABORT of a group at an epoch on every link of its member mask, at most once for an epoch (R294, R427). -/
def sendAbort (s : State) (g epoch : Nat) : State :=
  let x := s.group g
  if x.abortSent.contains epoch then s
  else
    let ls := setBits 64 x.mask.toNat
    let s := s.setGroup g { x with abortSent := x.abortSent ++ [epoch] }
    let s := forEach ls s (fun l t => sendMsg t l (ctrlHeader 0x12 0 epoch g []) [])
    s.bump fFltAbortSent 0 0 ls.length

/-! ### Queues and completion records -/

/-- Whether an address argument names host memory, and the address (R365). -/
def isHostAddr (w : Word) : Bool := bitOf w.toNat 63
def argAddr (w : Word) : Nat := w.toNat % 2 ^ 63

/-- The memory regions of a function's contexts. -/
def ownedRegions (s : State) (f : Nat) : List Region :=
  (s.objs.regions.map (·.2)).filter (fun r =>
    r.present && (s.ctx r.ctx).mode != .free && (s.ctx r.ctx).owner == f && some r.part == (s.fn f).part)

/-- An access of Icvar or a queue on behalf of a function passes the checks of R30, R36 and R240. -/
def argOk (s : State) (f a n : Nat) (write : Bool) : Bool :=
  match (s.fn f).part with
  | some p => inPartition s p a n &&
      covered (ownedRegions s f) (fun r => if write then r.write else r.read) ((ownedRegions s f).length + 1) a n &&
      !(write && meetsFrozen s p a n)
  | none => false

/-- Write where an address argument points: host memory of a function that may master the bus, or device memory through its
directory (R45) where the checks of R36 pass; a refused write reaches nothing (log entry 124). -/
def writeArg (s : State) (f : Nat) (w : Word) (off : Nat) (b : List Byte) : State :=
  if isHostAddr w then (if (s.fn f).busMaster then writeHost s (argAddr w + off) b else s)
  else if argOk s f (argAddr w + off) b.length true then storeBytes s (argAddr w + off) b else s

/-- Read where an address argument points. -/
def readArg (s : State) (w : Word) (off n : Nat) : List Byte :=
  if isHostAddr w then readHost s (argAddr w + off) n else readBytes s (argAddr w + off) n

/-- The generation tag of a context (R374). -/
def ctxTag (s : State) (c : Nat) : Nat := (s.ctx c).gen % 65536

/-- The unready pattern of a completion slot (R352). -/
def unready : List Byte := 0xFE :: List.replicate 31 0xFF

/-- The 32 bytes of a completion record (R349). -/
def recordBytes (q : Nat) (r : Record) (time : Nat) : List Byte :=
  leBytes 1 (1 + r.flags) ++ leBytes 1 r.status ++ leBytes 2 r.rc ++ leBytes 2 q ++ leBytes 2 r.tag ++ leBytes 4 r.pos ++
  leBytes 1 r.cause ++ leBytes 3 0 ++ leBytes 8 r.result.toNat ++ leBytes 8 time

/-- The queue's completion ring has room (R350). -/
def cqRoom (x : Queue) : Bool := x.cq.isNone || (x.produced + 2 ^ 32 - x.released) % 2 ^ 32 < x.m

/-- Write one record at the ring's next slot and raise its MSI-X vector (R350, R351). -/
def writeRecord (s : State) (q : Nat) (r : Record) : State :=
  let x := s.queue q
  match x.cq with
  | none => s
  | some w =>
    let s := writeArg s x.fn w (32 * (x.produced % x.m)) (recordBytes q r s.now)
    let s := s.setQueue q { x with produced := (x.produced + 1) % 2 ^ 32 }
    raiseMsix s x.fn x.vector

/-- Write the records of finished descriptors, in descriptor order, as far as the ring has room (R350, R355). -/
def flushRecords (s : State) (q : Nat) : Nat → State
  | 0 => s
  | fuel + 1 =>
    let x := s.queue q
    match x.entries with
    | ⟨_, _, .finished r⟩ :: t =>
      if !x.recordsAllowed || x.cq.isNone then flushRecords (s.setQueue q { x with entries := t }) q fuel
      else if cqRoom x then
        let s := s.setQueue q { x with entries := t }
        flushRecords (writeRecord s q r) q fuel
      else s
    | _ => s

/-- Write what can be written of a queue's records. -/
def flushQueue (s : State) (q : Nat) : State := flushRecords s q ((s.queue q).entries.length)

/-- Finish the descriptor at a position with its record. -/
def finishEntry (s : State) (q pos : Nat) (r : Record) : State :=
  flushQueue (s.modQueue q (fun x => { x with entries := x.entries.map (fun e =>
    if e.pos = pos && (match e.phase with | .finished _ => false | _ => true) then { e with phase := .finished r } else e) })) q

/-- The record of a descriptor of an engine queue (R349): its status decides its return code. -/
def engineRecord (flags status cause tag pos : Nat) : Record :=
  { flags := flags, status := status, rc := if status = 0 then 0 else if status = 1 then 0x10 else 0x11, tag := tag,
    pos := pos, cause := cause, result := 0 }

/-- The CANCELLED and DROPPED fields of an engine, with its register copy (R355, R156). A mover and a link transmitter have
no such field. -/
def engineCancel (kind : Nat) : Option RField :=
  match kind with
  | 2 => some fCoreRouteDescCancelled
  | 3 => some fCollDescCancelled
  | _ => none

def engineDrop (kind : Nat) : Option RField :=
  match kind with
  | 2 => some fCoreRouteDescDropped
  | 3 => some fCollDescDropped
  | _ => none

/-- Count in an optional field of a section. -/
def bumpOpt (s : State) (f : Option RField) (sec n : Nat) : State :=
  match f with | some f => s.bump f sec 0 n | none => s

/-- Positions taken by one descriptor of a queue (R344, R378). -/
def entryStep (kind : Nat) : Nat := if kind = 2 || kind = 3 || kind = 4 then 2 else 1

/-- The tallies that a descriptor waits on, with the counts it requires (R150). -/
def descWaits (b : List Byte) : List (Nat × Nat) :=
  [(fieldAt b 8 2, fieldAt b 16 4), (fieldAt b 10 2, fieldAt b 20 4)].filter (fun e => e.1 != 0xFFFF)

/-- The tiles of a core issued and unfinished: those on its units, and those whose signals wait for a check (R206). -/
def coreTiles (x : Core) : List TileRun :=
  x.units.filterMap (fun e => match e.2 with | .tile r => some r | _ => none) ++ x.held.map (·.2)

/-- The tallies that a descriptor signals, with their amounts (R150). DESIGN CHOICE (log entry 132): an amount of 0 adds nothing. -/
def descSignals (b : List Byte) : List (Nat × Nat) :=
  [(fieldAt b 12 2, fieldAt b 24 2), (fieldAt b 14 2, fieldAt b 26 2)].filter (fun e => e.1 != 0xFFFF)

/-- A wait is met (R157); an abandoned or absent tally never meets it (R426). -/
def waitMet (s : State) (e : Nat × Nat) : Bool :=
  let t := s.tally e.1
  t.present && !t.abandoned && decide (e.2 ≤ t.count)

/-- Every wait of a descriptor is met. -/
def waitsMet (s : State) (b : List Byte) : Bool := (descWaits b).all (waitMet s)

/-! ### Stopping slots (R416) -/

/-- The core and number of a slot's key. -/
def slotCore (k : Nat) : Nat := k / 8
def slotNum (k : Nat) : Nat := k % 8

/-- Stop one program slot: its window and every unissued descriptor are discarded and counted; it is no longer runnable. -/
def stopSlot (s : State) (k i : Nat) : State :=
  let x := s.slot k i
  if !x.launched then s
  else
    let c := s.core k
    let running := c.running == some i
    let waiting := if running then c.window.length else 0
    let n := waiting + (x.count - x.next) - (x.signalled.filter (fun j => decide (x.next ≤ j))).length
    let s := s.setSlot k i { x with launched := false, next := x.count, fillProgram := false }
    let s := if running then s.setCore k { c with window := [] } else s
    s.bump fCoreTilesCancelled (k / 12) (k % 12) n

/-- Stop every program slot of a context. -/
def stopCtxSlots (s : State) (c : Nat) : State :=
  forEach (keysWhere s.work.slots (fun x => x.loaded && x.launched && x.ctx == c)) s
    (fun e t => stopSlot t (slotCore e) (slotNum e))

/-- The launches whose slots have been stopped are marked (R379, R416). -/
def markStopped (s : State) (p : Launch → Bool) : State :=
  { s with host := { s.host with launches := s.host.launches.map (fun l => if p l then { l with stopped := true } else l) } }

/-- Stop the slots of the launches that a command queue carried (R416). -/
def stopQueueLaunches (s : State) (q : Nat) : State :=
  let mine (l : Launch) : Bool := match l.via with | .queue r _ => r.val == q | _ => false
  let s := forEach ((s.host.launches.filter mine).flatMap (·.slots)) s (fun e t => stopSlot t e.1 e.2)
  markStopped s mine

/-- Every descriptor of a queue, fetched or not, that has not been issued is discarded unrun with a record (R355, R426): a
command's entry is carried on if it has started. A descriptor that waits on an abandoned tally carries cause 0x12. -/
def stopQueue (s : State) (q : Nat) (hostRecords : Bool) : State :=
  let x := s.queue q
  if x.mode != .enabled then s
  else
    let tag := match x.ctx with | some c => ctxTag s c | none => 0
    let st := entryStep x.kind
    let left := (x.tail + 2 ^ 32 - x.consumed) % 2 ^ 32 / st
    let unfetched := (upTo left).map (fun i =>
      ({ pos := (x.consumed + i * st) % 2 ^ 32, bytes := [],
         phase := .finished (engineRecord 0 2 0x0C tag ((x.consumed + i * st) % 2 ^ 32)) } : Entry))
    let cancelOne (e : Entry) : Entry := match e.phase with
      | .waiting =>
        let ab := (descWaits e.bytes).any (fun w => (s.tally w.1).abandoned)
        { e with phase := .finished (engineRecord 0 2 (if x.kind != 0 && ab then 0x12 else 0x0C) tag e.pos) }
      | _ => e
    let n := (x.entries.filter (fun e => match e.phase with | .waiting => true | _ => false)).length + left
    let device := match x.cq with | some w => !isHostAddr w | none => false
    let s := s.setQueue q { x with
      mode := .draining, recordsAllowed := hostRecords || device, consumed := (x.consumed + left * st) % 2 ^ 32,
      entries := x.entries.map cancelOne ++ unfetched, cancelled := x.cancelled + n, draining := true }
    let s := if x.kind = 0 then stopQueueLaunches s q else s
    flushQueue (bumpOpt s (engineCancel x.kind) x.unit n) q

/-- The queues that satisfy a test, by index. -/
def queuesWhere (s : State) (p : Queue → Bool) : List Nat := keysWhere s.host.queues (fun x => x.present && p x)

/-- Stop all queues bound to a function (R354). -/
def stopFnQueues (s : State) (f : Nat) (hostRecords : Bool) : State :=
  forEach (queuesWhere s (fun x => x.fn == f)) s (fun q t => stopQueue t q hostRecords)

/-! ### Stopping contexts (R417, R423, R426) -/

/-- Abandon every tally of a context and count them (R426). -/
def abandonTallies (s : State) (c : Nat) : State :=
  let ts := keysWhere s.objs.tallies (fun t => t.present && t.ctx == c && !t.abandoned)
  (forEach ts s (fun t u => u.modTally t (fun x => { x with abandoned := true }))).bump
    fFltDropsBTalliesAbandoned 0 0 ts.length

/-- Steps 2 and 3 of R423: tallies abandoned, ABORT sent where the context is bound to a group and `abort` asks for it, the
context STOPPING with its slots and queues stopped. -/
def stopContext (s : State) (c cause : Nat) (abort : Bool) : State :=
  let x := s.ctx c
  if x.mode != .active then s
  else
    let s := abandonTallies s c
    let s := match x.group with
      | some g => if abort then sendAbort s g (s.group g).epoch else s
      | none => s
    let s := s.modCtx c (fun y => { y with mode := .stopping, cause := some cause, quiesced := false })
    let s := markStopped (stopCtxSlots s c) (fun l => l.ctx == c)
    forEach (queuesWhere s (fun q => q.ctx == some c)) s (fun q t => stopQueue t q true)

/-- A planned stop (R417): no ABORT, tallies abandoned only at the entry into TEARDOWN. -/
def stopPlanned (s : State) (c : Nat) (hostRecords : Bool) : State :=
  let x := s.ctx c
  if x.mode != .active then s
  else
    let s := s.modCtx c (fun y => { y with mode := .stopping, quiesced := false })
    let s := markStopped (stopCtxSlots s c) (fun l => l.ctx == c)
    forEach (queuesWhere s (fun q => q.ctx == some c)) s (fun q t => stopQueue t q hostRecords)

/-- The attribution of a cause (R419): 0 none, 1 hardware, 2 software, 3 external. -/
def attribOf (cause : Nat) (poison : Bool) : Nat :=
  if cause = 6 then (if poison then 0 else 1)
  else if cause = 4 || cause = 7 || cause = 0x0D then 1
  else if cause = 0x0F || cause = 0x13 then 3
  else 2

/-- Record a fault in FLT_LAST and FLT_LAST_TIME, unless a fault of a higher level is held (R423, R439). -/
def setFltLast (s : State) (level cause sec unit ctx part : Nat) (poison : Bool) : State :=
  if s.fld fFltLastValid 0 0 = 1 ∧ level < s.fld fFltLastLevel 0 0 then s else
  let w := 2 ^ 63 + toBit poison * 2 ^ 62 + level * 2 ^ 60 + attribOf cause poison * 2 ^ 58 + cause * 2 ^ 48 +
    sec % 8 * 2 ^ 45 + unit % 128 * 2 ^ 32 + ctx % 512 * 2 ^ 16 + part % 8 * 2 ^ 8
  (s.setRaw ⟨.fltLast, 0, 0⟩ (BitVec.ofNat 64 w)).setRaw ⟨.fltLastTime, 0, 0⟩ (BitVec.ofNat 64 s.now)

/-- The contexts of a partition that are not FREE. -/
def partCtxs (s : State) (p : Nat) : List Nat := keysWhere s.objs.ctxs (fun x => x.mode != .free && x.part == p)

/-- Post CONTEXT_ABORTED and count the context (R382, R428, R439). -/
def postAborted (s : State) (c epoch : Nat) : State :=
  (postPart s (s.ctx c).part 0xE1 (c * 2 ^ 39 + epoch % 2 ^ 32)).bump fFltAbortContextsAborted 0 0 1

/-- Abort a context (R428): torn down under R423 with cause 0x0F, CONTEXT_ABORTED posted. -/
def abortCtx (s : State) (c epoch : Nat) (abort : Bool) : State :=
  if (s.ctx c).mode != .active then s else stopContext (postAborted s c epoch) c 0x0F abort

/-- A partition whose contexts are stopped enters its reset (R420): it is `after` when PARTITION_RESET_DONE ends it. A
destruction or handover under way goes on with its own steps. -/
def enterReset (s : State) (p : Nat) (after : PartMode) : State :=
  s.modPart p (fun x => if x.mode == .destroying || x.mode == .handover then x else
    { x with stage := .resetting, stageStart := s.now, afterReset := after })

/-- Fence the module (R433): contexts aborted with ABORT for every bound group, partitions reset towards BLOCKED,
MODULE_STATE 4, a HEALTH event at class 5, unit 0, level 3, and an entry in the fault history. -/
def fenceModule (s : State) (reason : Nat) : State :=
  if s.module.fenced then s
  else
    let s := forEach (keysWhere s.objs.ctxs (fun x => x.mode == .active)) s (fun c t =>
      abortCtx t c (match (t.ctx c).group with | some g => (t.group g).epoch | none => 0) true)
    let s := forEach ((upTo 8).filter (fun p => (s.part p).present)) s (fun p t => enterReset t p .blocked)
    let s := (s.setFld fFltStatusFenceReason 0 0 reason).setFld fFltStatusModuleState 0 0 4
    let s := { s with module := { s.module with fenced := true },
                      flash := { s.flash with history := s.flash.history ++ [0xFE] } }
    postTo s [0] 0xE8 (5 * 2 ^ 40 + 3)

/-- The times of a list that lie within the escalation window (R432). -/
def inWindow (s : State) (l : List Nat) : List Nat :=
  l.filter (fun t => decide (s.now < t + s.fld fFltEscCfgWindow 0 0 * 1000000000))

/-- A hardware-attributed context fault counts towards escalation (R432). -/
def escalateCtx (s : State) : State :=
  let l := inWindow s (s.care.hardFaults ++ [s.now])
  let s := { s with care := { s.care with hardFaults := l } }
  if s.fld fFltEscCfgCtxLimit 0 0 ≤ l.length then fenceModule s 2 else s

/-- A partition reset of R421 counts towards escalation (R432). -/
def escalatePart (s : State) : State :=
  let l := inWindow s (s.care.partResets ++ [s.now])
  let s := { s with care := { s.care with partResets := l } }
  if s.fld fFltEscCfgPartLimit 0 0 ≤ l.length then fenceModule s 1 else s

/-- A context fault (R419, R423): recorded, posted, the context stopped, escalation counted. A context that is no longer
ACTIVE is being torn down already. -/
def ctxFault (s : State) (c cause sec unit : Nat) (poison : Bool) : State :=
  let x := s.ctx c
  if x.mode != .active then s
  else
    let s := setFltLast s 0 cause sec unit c x.part poison
    let s := postPart s x.part 0xE0 (c * 2 ^ 39 + cause * 2 ^ 31 + sec % 8 * 2 ^ 28 + ctxTag s c)
    let s := stopContext s c cause true
    if attribOf cause poison = 1 then escalateCtx s else s

/-- A partition's reset begins (R420, R421): every context not yet stopped faults with cause 0x13 (R423). -/
def beginPartReset (s : State) (p sec : Nat) (after : PartMode) : State :=
  enterReset (forEach (partCtxs s p) s (fun c t => ctxFault t c 0x13 sec 0 false)) p after

/-! ### Record and replay (R263 to R268) -/

/-- The launch number and work cycle of a partition now (R244). -/
def stampOf (s : State) (p : Nat) : Nat × Nat :=
  let l := s.fld fRplWorkLaunch p 0
  (l, if l = 0 then 0 else (s.part p).work)

/-- The sum of the four choice counts, low 32 bits; zero in Winter (R265). -/
def choicesOf (s : State) (p : Nat) : Nat :=
  if (s.part p).winter then 0
  else (s.fld fRplChoiceIssueIssue p 0 + s.fld fRplChoiceGrantGrant p 0 + s.fld fRplChoiceSlotSlot p 0 +
    s.fld fRplChoiceArbArb p 0) % 2 ^ 32

/-- The 64 bytes of a log record (R265). -/
def logRecord (kind flags ctx tag units cycle wall seq launch source addr len : Nat) (crc : Word32) (tally choices : Nat) :
    List Byte :=
  leBytes 1 kind ++ leBytes 1 flags ++ leBytes 2 ctx ++ leBytes 2 tag ++ leBytes 2 units ++ leBytes 8 cycle ++
  leBytes 8 wall ++ leBytes 8 seq ++ leBytes 4 launch ++ leBytes 4 source ++ leBytes 8 addr ++ leBytes 4 len ++
  leBytes 4 crc.toNat ++ leBytes 4 tally ++ leBytes 4 choices

/-- Append a record and its payload to a context's log, or stop the recording when they do not fit (R264) or the context may no
longer write there (R36, log entry 124). -/
def appendLog (s : State) (c : Nat) (g : Log) (kind source addr len : Nat) (crc : Word32) (tally : Nat)
    (data : List Byte) : State :=
  let p := (s.ctx c).part
  let units := ceilDiv data.length 64
  if g.length < g.pos + 64 + 64 * units || !accessOk s c (g.base + g.pos) (64 + 64 * units) true then
    (s.modCtx c (fun x => { x with log := some { g with stopped := true } })).bump fRplLogLost p 0 1
  else
    let (launch, cycle) := stampOf s p
    let r := logRecord kind (toBit (units != 0) + 2 * toBit (s.ctx c).replay.isSome) c (ctxTag s c) units cycle s.now g.seq launch source addr len crc tally
      (choicesOf s p)
    let s := storeBytes s (g.base + g.pos) (r ++ data ++ List.replicate (64 * units - data.length) 0)
    s.modCtx c (fun x => { x with log := some { g with pos := g.pos + 64 + 64 * units, seq := g.seq + 1 } })

/-- An external input to a context is written to its log while it records (R263, R264). -/
def recordInput (s : State) (c kind source addr : Nat) (data : List Byte) (tally : Nat) : State :=
  match (s.ctx c).log with
  | some g =>
    if g.stopped then s
    else appendLog s c g kind source addr data.length (if data.isEmpty then 0 else crc32c data) tally
      (if g.payload && (kind == 3 || kind == 4) then data else [])
  | none => s

/-- A context whose inputs come from a log (R267). -/
def isReplaying (s : State) (c : Nat) : Bool := (s.ctx c).replay.isSome

/-- A live input to a replaying context is dropped and counted (R267). -/
def dropLive (s : State) (c : Nat) : State := s.bump fRplLogLiveDropped (s.ctx c).part 0 1

/-- The records of a log from an offset on, as offset and 64 bytes; a record of kind 0 ends it. -/
def logRecs (s : State) (base length : Nat) : Nat → Nat → List (Nat × List Byte)
  | 0, _ => []
  | fuel + 1, off =>
    if length < off + 64 then []
    else
      let r := readBytes s (base + off) 64
      if fieldAt r 0 1 = 0 then [] else (off, r) :: logRecs s base length fuel (off + 64 + 64 * fieldAt r 6 2)

/-- The first mismatch of a replayed mark sets DIVERGED and RPL_DIVERGE (R268). -/
def diverge (s : State) (p seq : Nat) (bits timing : Bool) : State :=
  if s.fld fRplLogDiverged p 0 = 1 then s
  else
    (s.setFld fRplLogDiverged p 0 1).setRaw ⟨.rplDiverge, p, 0⟩
      (BitVec.ofNat 64 (toBit bits * 2 ^ 63 + toBit timing * 2 ^ 62 + seq % 2 ^ 62))

/-- A recomputed mark is compared with its record in the log that is replayed: the digest, and in Winter the work cycle (R268). -/
def markCompare (s : State) (p : Nat) (g : Log) (m : Mark) (n : Nat) (digest : Word32) : State :=
  let rs := (logRecs s g.base g.length (g.length / 64 + 1) 0).filter (fun r =>
    fieldAt r.2 0 1 == 6 && fieldAt r.2 36 4 == m.number)
  match rs[n - 1]? with
  | some r =>
    let bits := decide (fieldAt r.2 52 4 ≠ digest.toNat)
    let timing := (s.part p).winter && decide ((stampOf s p).2 ≠ fieldAt r.2 8 8)
    if bits || timing then diverge s p (fieldAt r.2 24 8) bits timing else s
  | none => s

/-- One mark of a context at an add to its tally: on every Nth add the digest of the tensor's checksum array is written as a
mark record where a log is written, and compared with the log in a replay (R266, R268). Outside the windows of the mark digest a Winter partition is held until
the digest is read: after a free number of A-cycles (log entry 137). -/
def markAdd (s : State) (c : Nat) (m : Mark) : State :=
  let p := (s.ctx c).part
  let k := m.count + 1
  let s := s.modCtx c (fun x => { x with marks := x.marks.map (fun y => if y.number = m.number then { y with count := k } else y) })
  if m.interval = 0 || k % m.interval != 0 then s
  else
    let t := s.tensor p m.tensor
    let d := t.homeDesc
    let digest := crc32c (readBytes s d.crcAddr (4 * d.blocks))
    let (s, bad) := readMem s d.crcAddr (4 * d.blocks)
    if let some poison := worstOf bad then ctxFault s c 6 (stackOf d.crcAddr / 3) 0 poison else
    let s := if (s.part p).winter && !windowOpen s p (fun e => e.holder == 0x0C) then
        (let (w, s) := s.freeDraw
         addCause s p 7 0 (some (1 + w.toNat % 2 ^ 32))) else s
    let s := match (s.ctx c).replay with | some g => markCompare s p g m (k / m.interval) digest | none => s
    match (s.ctx c).log with
    | some g => if g.stopped then s else appendLog s c g 6 m.number m.tensor 0 digest m.tally []
    | none => s

/-! ### Tallies (R157 to R160) -/

/-- Apply the marks of a tally's context to an add. -/
def markTally (s : State) (t : Nat) : State :=
  let c := (s.tally t).ctx
  forEach ((s.ctx c).marks.filter (fun m => m.tally == t)) s (fun m u => markAdd u c m)

/-- The hold key of a core's wait on an external tally (R159). -/
def externalKey (core t : Nat) : Nat := core * 16384 + t

/-- The holds that waited on a tally end when the oldest descriptor of the core no longer waits on it unmet (R159, R247). -/
def endExternal (s : State) (t : Nat) : State :=
  dropCauses s (s.tally t).part (fun c => c.field == 5 && decide (c.key < 96 * 16384) && c.key % 16384 == t &&
    (match (s.core (c.key / 16384)).window with
     | d :: _ => (descWaits d.bytes).all (fun w => w.1 != t || waitMet s w)
     | [] => true))

/-- An add would take a tally above its largest count (R157). -/
def addOverflows (s : State) (t amount : Nat) : Bool :=
  (s.tally t).present && !(s.tally t).abandoned && decide (0xFFFFFFFF < (s.tally t).count + amount)

/-- An add reaches a tally's home (R157, R424, R426): ignored and counted while the tally is abandoned, refused with a fault
of its context when it overflows. -/
def tallyAddOp (s : State) (t amount : Nat) : State :=
  let x := s.tally t
  if !x.present then s
  else if x.abandoned then s.bump fFltDropsBAbandonAdds 0 0 1
  else if addOverflows s t amount then ctxFault s x.ctx 3 (t / 2048) 0 false
  else
    let s := markTally s t
    endExternal (s.modTally t (fun y => { y with count := y.count + amount })) t

/-- Add to each tally that a descriptor signals, and whether one of the adds overflowed, which is left out (R157, R160). -/
def signalAll (s : State) (b : List Byte) : State × Bool :=
  (descSignals b).foldl (fun a e => if addOverflows a.1 e.1 e.2 then (a.1, true) else (tallyAddOp a.1 e.1 e.2, a.2)) (s, false)

/-- An add from outside the partition (a link message): only an existing tally takes it. -/
def signalTally (s : State) (t amount : Nat) : State := if t = 0xFFFF then s else tallyAddOp s t amount

/-! ### Counter records and the non-finite count (R197, R200) -/

/-- Apply counter adds to their tensors' records. -/
def applyDeltas (s : State) (p : Nat) (l : List (Nat × CounterDelta)) : State :=
  forEach l s (fun e t => t.modTensor p e.1 (fun x =>
    { x with counter := x.counter.map (fun r => applyDelta r e.2) }))

/-- Add to a context's non-finite count. -/
def addNf (s : State) (c n : Nat) : State := s.modCtx c (fun x => { x with nf := satAdd 32 x.nf n })

/-- Mark tensors POISONED (R102, R103). -/
def poisonTensors (s : State) (p : Nat) (ids : List Nat) : State :=
  forEach ids s (fun i t => if (t.tensor p i).present then
    t.modTensor p i (fun x => { x with desc := { x.desc with poisoned := true } }) else t)

/-- The histogram parameters of a tensor's record (R196). -/
def histOf (t : Tensor) : Int × Nat := match t.counter with | some r => (r.histBase, r.histWidth) | none => (-24, 4)

/-- What a unit converts with, into a tensor. -/
def convCtxOf (t : Tensor) (seed : Word) (step : Nat) : ConvCtx :=
  { seed := seed, step := step, base := (histOf t).1, width := (histOf t).2 }

/-! ### Accesses of engines -/

/-- The Loam copy or home arrays of a loaded model meet a write (R410). -/
def modelFrozen (s : State) (p a n : Nat) : Bool :=
  ((s.objs.models.map (·.2)).filter (fun m => m.present && m.part == p && m.mode == .loaded)).any (fun m =>
    m.tensors.any (fun id => ((s.tensor p id).homeDesc.arrays).any (fun r => overlaps a n r.1 r.2)))

/-- A context may write the bytes: checks of R30 to R44, R240 and R410. -/
def writeOk (s : State) (c a n : Nat) : Bool := accessOk s c a n true && !modelFrozen s (s.ctx c).part a n

/-- A context may read the bytes. -/
def readOk (s : State) (c a n : Nat) : Bool := accessOk s c a n false

/-- Each cell of a list of writes may be written. -/
def cellsOk (s : State) (c : Nat) (l : List Cell) : Bool := l.all (fun e => writeOk s c e.1 1)

/-- Leave each byte as written or as before, by free choice (R167): the values a stopped unit may have left. -/
def partialWrites (s : State) (l : List Cell) : State :=
  l.foldl (fun t c => let (w, t) := t.freeDraw; if bitOf w.toNat 0 then writeBytes t c.1 [c.2] else t) s

end Sys2Proof.Machine
end

