-- ==== Sys2Proof/Machine/Engines.lean ====
section
/-! DEFINITION. What the engines of R378 share: taking the next descriptor of their queues, ending a descriptor done, stopped
or at fault, and the movers of a section (R62 to R66, R380, R430). -/

namespace Sys2Proof.Machine

/-! ### Taking descriptors -/

/-- The first descriptor of a queue of which nothing has begun. -/
def headWaiting (x : Queue) : Option Entry := x.entries.find? (fun e => e.phase == .waiting)

/-- The descriptors that an engine has taken and not ended. -/
def engineJobs (e : Engine) : List Job := e.ending ++ e.job.toList

/-- The holder of a slot table that stands for an engine of a section or link, with its index (R259). -/
def engineHolder (kind unit : Nat) : Nat × Nat :=
  match kind with
  | 1 => (2, unit)
  | 2 => (3, unit)
  | 3 => (4, unit)
  | 4 => (5, unit)
  | _ => (8, unit)

/-- The queue's next descriptor may be taken: no hold freezes the engine (R245), a Winter partition's table grants the engine something
now (R243, R258, log entry 139), and its waits are met, or its GEN_TAG lets
it be dropped at once (R156). -/
def queueReady (s : State) (q : Nat) : Bool :=
  let x := s.queue q
  x.present && x.mode == .enabled && mayRun s x.part (engineHolder x.kind x.unit).1 (engineHolder x.kind x.unit).2 &&
  (match headWaiting x, x.ctx with
   | some e, some c => fieldAt e.bytes 4 2 != ctxTag s c || waitsMet s e.bytes
   | _, _ => false)

/-- The queues of a unit, ascending (R378). -/
def unitQueues (s : State) (kind unit : Nat) : List Nat := queuesWhere s (fun x => x.kind == kind && x.unit == unit)

/-- The unit's next ready queue, round-robin after the one it last served (R378). -/
def nextQueue (s : State) (kind unit : Nat) : Option Nat :=
  let l := (unitQueues s kind unit).filter (queueReady s)
  match (s.engine (engineKey kind unit)).lastQueue with
  | some q => (match l.find? (fun x => decide (q < x)) with | some x => some x | none => l.head?)
  | none => l.head?

/-- Mark the descriptor at a position as running. -/
def startEntry (s : State) (q pos : Nat) : State :=
  s.modQueue q (fun x => { x with entries := x.entries.map (fun e => if e.pos = pos then { e with phase := .running } else e) })

/-- A change of queue between ready queues is one ARB choice of a Summer partition (R261, R378). -/
def countArb (s : State) (kind unit q : Nat) : State :=
  let ready := (unitQueues s kind unit).filter (queueReady s)
  let p := (s.queue q).part
  match (s.engine (engineKey kind unit)).lastQueue with
  | some o => if o != q && 2 ≤ ready.length && !(s.part p).winter then s.bump fRplChoiceArbArb p 0 1 else s
  | none => s

/-- An idle engine takes the next ready descriptor of its queues, or drops it for its GEN_TAG with the record of R350. -/
def takeDesc (s : State) (kind unit : Nat) : State × Option Job :=
  let k := engineKey kind unit
  let g := s.engine k
  if g.job.isSome then (s, none)
  else match nextQueue s kind unit with
    | none => (s, none)
    | some q =>
      let x := s.queue q
      match headWaiting x, x.ctx with
      | some e, some c =>
        let s := (countArb s kind unit q).modEngine k (fun y => { y with lastQueue := some q, stopped := false })
        if fieldAt e.bytes 4 2 ≠ ctxTag s c then
          let s := bumpOpt s (engineDrop kind) unit 1
          (finishEntry s q e.pos
            { flags := 0, status := 2, rc := 0x11, tag := fieldAt e.bytes 4 2, pos := e.pos, cause := 0, result := 0 }, none)
        else
          let j : Job := { queue := q, pos := e.pos, ctx := c, bytes := e.bytes, start := s.now }
          ((startEntry s q e.pos).modEngine k (fun y => { y with job := some j }), some j)
      | _, _ => (s, none)

/-- Replace the descriptor in an engine. -/
def putJob (s : State) (kind unit : Nat) (j : Job) : State :=
  s.modEngine (engineKey kind unit) (fun y => { y with job := some j })

/-- The descriptor in an engine. -/
def jobOf (s : State) (kind unit : Nat) : Option Job := (s.engine (engineKey kind unit)).job

/-- Free an engine. -/
def freeEngine (s : State) (kind unit : Nat) : State := s.modEngine (engineKey kind unit) (fun y => { y with job := none })

/-- The queue of a descriptor has been stopped (R355). -/
def jobStopped (s : State) (j : Job) : Bool := (s.queue j.queue).mode != .enabled

/-- The record of a descriptor that an engine ran. -/
def jobRecord (s : State) (j : Job) (status cause : Nat) : Record :=
  engineRecord (toBit j.poison * 2 + toBit j.isPartial * 4) status cause (ctxTag s j.ctx) j.pos

/-- A descriptor stopped before its end signals nothing and is recorded as cancelled (R355). -/
def endStopped (s : State) (kind unit : Nat) (j : Job) : State :=
  let s := (freeEngine s kind unit).modQueue j.queue (fun x => { x with cancelled := x.cancelled + 1 })
  finishEntry s j.queue j.pos (jobRecord s j 2 0x0C)

/-- The section of an engine's unit. -/
def unitSec (kind unit : Nat) : Nat := if kind = 1 || kind = 5 then unit / 8 else unit

/-- A hold freezes an engine of a section or link (R245). -/
def unitHeld (s : State) (kind unit : Nat) : Bool := secHeld s (unitSec kind unit)

/-- The UNIT that FLT_LAST names: a module link for link causes, otherwise 0 (R439). -/
def faultUnit (kind unit : Nat) : Nat := if kind = 5 then unit else 0

/-- A descriptor ends in a fault of its context (R419, R423). -/
def endFault (s : State) (kind unit : Nat) (j : Job) (cause : Nat) (poison : Bool) : State :=
  let s := (freeEngine s kind unit).modEngine (engineKey kind unit) (fun y => { y with stopped := true })
  let s := finishEntry s j.queue j.pos (jobRecord s j 1 cause)
  ctxFault s j.ctx cause (unitSec kind unit) (faultUnit kind unit) poison

/-- A descriptor ends done: its signals (R66, R160), what counts it, then its record (R351); a signal that overflows faults its context
instead (R157). -/
def endCounted (s : State) (kind unit : Nat) (j : Job) (count : State → State) : State :=
  let (s, full) := signalAll (freeEngine s kind unit) j.bytes
  if full then endFault s kind unit j 3 false
  else
    let s := count s
    finishEntry s j.queue j.pos (jobRecord s j 0 0)

/-- A descriptor that nothing counts ends done. -/
def endDone (s : State) (kind unit : Nat) (j : Job) : State := endCounted s kind unit j id

/-- An engine watchdog fires: counted, scored, and a fault with cause 0x10 (R430, R434). -/
def engineWatchdog (s : State) (kind unit : Nat) (j : Job) : State :=
  endFault (healthEvent (s.bump fFltWdogEngine 0 0 1) (huSection (unitSec kind unit)) 5 10) kind unit j 0x10 false

/-- Every tally that a descriptor names is none or owned by its context (R155). -/
def talliesOwned (s : State) (c : Nat) (b : List Byte) : Bool :=
  (descWaits b ++ descSignals b).all (fun e => decide (e.1 ≤ 16383) && (s.tally e.1).present && (s.tally e.1).ctx == c)

/-! ### Block checksums at a verifying read (R62, R63) -/

/-- Record the block of a mismatch that faulted, and count it (R63, R72). -/
def crcFailed (s : State) (a : Nat) : State :=
  let sec := stackOf a / 3
  let s := s.bump fHbmMoverCrcCrcMismatch sec 0 1
  let s := s.setRaw ⟨.hbmMoverCrcLast, sec, 0⟩
    (BitVec.ofNat 64 (2 ^ 63 + stackOf a % 3 * 2 ^ 58 + stackOff a / 4096 % 2 ^ 24 * 4096))
  healthEvent s (huStack (stackOf a)) 11 500

/-- Count a mismatch that the second read cleared (R63). -/
def crcCleared (s : State) (a : Nat) : State :=
  healthEvent (s.bump fHbmMoverCrcCrcRetryOk (stackOf a / 3) 0 1) (huStack (stackOf a)) 6 20

/-- A block's bytes agree with its stored checksum under a VERSION. -/
def blockGood (s : State) (t : Tensor) (version : Word32) (b a n : Nat) : Bool :=
  blockCrc t.desc.id b version (blockData s (a, n)) == storedCrc s t.homeDesc b

/-- The key of the hold that the second read of an engine causes (R63, R247). -/
def rereadKey (kind unit : Nat) : Nat := engineKey kind unit

/-! ### Movers -/

/-- The fields of a mover transfer descriptor (R380). -/
def mvOp (b : List Byte) : Nat := fieldAt b 1 1
def mvTensor (b : List Byte) : Nat := fieldAt b 28 4
def mvSrc (b : List Byte) : Nat := fieldAt b 32 8
def mvDst (b : List Byte) : Nat := fieldAt b 40 8
def mvLen (b : List Byte) : Nat := fieldAt b 48 8
/-- The address on the HBM side and on the Loam side. -/
def mvHbm (b : List Byte) : Nat := if mvOp b = 1 then mvSrc b else mvDst b
def mvLoam (b : List Byte) : Nat := if mvOp b = 1 then mvDst b else mvSrc b

/-- A range lies within one array of a tensor (R88, R380). -/
def inArrays (d : TensorDesc) (a n : Nat) : Bool := d.arrays.any (fun r => decide (r.1 ≤ a) && decide (a + n ≤ r.1 + r.2))

/-- A transfer descriptor breaks R380. -/
def mvBad (s : State) (m : Nat) (j : Job) : Bool :=
  let b := j.bytes
  let p := (s.ctx j.ctx).part
  let t := s.tensor p (mvTensor b)
  fieldAt b 0 1 != 0x10 || !within 1 3 (mvOp b) || fieldAt b 2 1 != 0 || fieldAt b 3 1 != 0 || fieldAt b 6 2 != 0 ||
  fieldAt b 56 8 != 0 || mvLen b % 16 != 0 || !within 16 (2 ^ 34) (mvLen b) || (mvOp b == 3 && mvSrc b != 0) ||
  !inHbm (mvHbm b) (mvLen b) || mvHbm b / sectionHbm != m / 8 || (mvHbm b + mvLen b - 1) / sectionHbm != m / 8 ||
  (mvOp b != 3 && !inScratchpad s (mvLoam b) (mvLen b)) ||
  (mvTensor b != 0 && (!tensorValid s p (mvTensor b) || !inArrays t.homeDesc (mvHbm b) (mvLen b))) || !talliesOwned s j.ctx b

/-- The whole blocks of a transfer that names a tensor with checksums, as number, address and bytes (R62). -/
def mvBlocks (s : State) (j : Job) : List (Nat × Nat × Nat) :=
  let t := s.tensor (s.ctx j.ctx).part (mvTensor j.bytes)
  if mvTensor j.bytes != 0 && t.desc.checksum then wholeBlocks t.homeDesc (mvHbm j.bytes) (mvLen j.bytes) else []

/-- The bytes that a transfer writes. -/
def mvData (s : State) (b : List Byte) : List Byte :=
  if mvOp b = 3 then List.replicate (mvLen b) 0 else readBytes s (mvSrc b) (mvLen b)

/-- Store the checksums of the whole blocks that a transfer wrote, under the VERSION read at its start (R62, R89). -/
def mvStoreCrcs (s : State) (j : Job) : State :=
  let t := s.tensor (s.ctx j.ctx).part (mvTensor j.bytes)
  forEach (mvBlocks s j) s (fun e u =>
    storeBytes u (t.homeDesc.crcAddr + 4 * e.1)
      (leBytes 4 (blockCrc t.desc.id e.1 j.version (blockData u (e.2.1, e.2.2))).toNat))

/-- The first block from the `k`-th on that needs its second read: the first block read may be spoilt on its path. -/
def mvMismatch (s : State) (j : Job) (k : Nat) (pathError : Bool) : Option Nat :=
  let t := s.tensor (s.ctx j.ctx).part (mvTensor j.bytes)
  let l := (mvBlocks s j).zipIdx.filter (fun e => decide (k ≤ e.2))
  (l.find? (fun e => (pathError && e.2 == k) || !blockGood s t j.version e.1.1 e.1.2.1 e.1.2.2)).map (·.2)

/-- Move the data, its blocks verified from the `k`-th on (R62, R63, R65). DESIGN CHOICE (log entry 127): HBM_MOVER_BLOCKS counts a
completed transfer's LENGTH in units of 4 KiB, rounded up, wherever it starts, and a faulted one not at all. -/
def mvRun (s : State) (m : Nat) (j : Job) (k : Nat) (pathError : Bool) : State :=
  let b := j.bytes
  let wait := if mvOp b = 1 then mvMismatch s j k pathError else none
  match wait with
  | some i => addCause (putJob s 1 m { j with phase := .reread i }) (s.ctx j.ctx).part 6 (rereadKey 1 m) none
  | none =>
    let data := mvData s b
    let s := writeMem s (mvDst b) data false
    let s := if mvOp b = 1 then s else mvStoreCrcs s j
    let s := s.bump fHbmMoverBlocksBlocks (m / 8) 0 (ceilDiv (mvLen b) 4096)
    putJob s 1 m { j with phase := .dataDone }

/-- What a transfer that stops at a bad word leaves: any of its bytes may be written, and the copy in Loam of a word found
uncorrectable is poisoned (R56, R167). -/
def mvSpoil (s : State) (b : List Byte) (bad : List (Nat × Bool)) : State :=
  let s := partialWrites s (cellsAt (mvDst b) (mvData s b))
  if mvOp b = 1 then
    forEach (bad.filter (fun e => !e.2)) s (fun e t => if mvSrc b ≤ e.1 && decide (e.1 < mvSrc b + mvLen b) then poisonWord t (mvDst b + (e.1 - mvSrc b)) else t)
  else s

/-- The stored checksums of blocks that follow one another, as the range that holds them. -/
def crcRange (d : TensorDesc) (blocks : List Nat) : List (Nat × Nat) :=
  match blocks with | b :: _ => [(d.crcAddr + 4 * b, 4 * blocks.length)] | [] => []

/-- The ranges that a transfer reads: its source, and the checksums of the blocks it verifies (R62). -/
def mvReads (s : State) (j : Job) : List (Nat × Nat) :=
  if mvOp j.bytes = 3 then []
  else (mvSrc j.bytes, mvLen j.bytes) :: (if mvOp j.bytes = 1 then
    crcRange (s.tensor (s.ctx j.ctx).part (mvTensor j.bytes)).homeDesc ((mvBlocks s j).map (·.1)) else [])

/-- A mover takes and executes its next descriptor (R65). -/
def moverTransferOp (m : Nat) (pathError : Bool) (s : State) : State :=
  match takeDesc s 1 m with
  | (s, none) => s
  | (s, some j) =>
    let b := j.bytes
    if mvBad s m j then endFault s 1 m j 1 false
    else if (mvOp b != 3 && !readOk s j.ctx (mvSrc b) (mvLen b)) || !writeOk s j.ctx (mvDst b) (mvLen b) then
      endFault s 1 m j 0x0E false
    else
      let j := { j with version := (s.tensor (s.ctx j.ctx).part (mvTensor b)).desc.version }
      let (s, bad) := readAll s (mvReads s j)
      match worstOf bad with
      | some poison => endFault (mvSpoil s b bad) 1 m j 6 poison
      | none => mvRun s m j 0 pathError

/-- MOVER_TRANSFER (R65). -/
def execMoverTransfer (m : MoverId) (hits : List Hit) (pathError : Bool) (s : State) : Host.Outcome State Fault Refusal :=
  .next (moverTransferOp m.val pathError (upsetWords s hits))

/-- MOVER_COMPLETE (R66): the writes of the transfer are visible or accepted; not in a hold (R245). -/
def execMoverComplete (m : MoverId) (s : State) : Host.Outcome State Fault Refusal :=
  .next (match jobOf s 1 m.val with
    | some j => if j.phase = .dataDone && !unitHeld s 1 m.val then endDone s 1 m.val j else s
    | none => s)

/-- The second read of a mover's block ends (R63). -/
def moverReread (m : Nat) (pathError : Bool) (s : State) : State :=
  match jobOf s 1 m with
  | some j =>
    (match j.phase with
     | .reread i =>
       let p := (s.ctx j.ctx).part
       let t := s.tensor p (mvTensor j.bytes)
       let s := dropCauses s p (fun c => c.field == 6 && c.key == rereadKey 1 m)
       (match (mvBlocks s j)[i]? with
        | some e =>
          if !pathError && blockGood s t j.version e.1 e.2.1 e.2.2 then
            let s := crcCleared s e.2.1
            if jobStopped s j then endStopped s 1 m j else mvRun s m j (i + 1) false
          else
            let s := partialWrites s (cellsAt (mvDst j.bytes) ((mvData s j.bytes).take (e.2.1 - mvSrc j.bytes)))
            endFault (crcFailed s e.2.1) 1 m j 7 false
        | none => endStopped s 1 m j)
     | _ => s)
  | none => s

/-- MOVER_WATCHDOG (R430): a 4 KiB unit was not completed within 1 ms; a held mover stands still (R245). -/
def execMoverWatchdog (m : MoverId) (s : State) : Host.Outcome State Fault Refusal :=
  .next (match jobOf s 1 m.val with
    | some j => if unitHeld s 1 m.val then s else engineWatchdog (partialWrites s (cellsAt (mvDst j.bytes) (mvData s j.bytes))) 1 m.val j
    | none => s)

end Sys2Proof.Machine
end

