-- ==== Sys2Proof/Machine/LinkBase.lean ====
section
/-! DEFINITION. What the rows of a Darub link share: its state, records, training, degrade, retry, hostile events and fencing
(R270 to R297). -/

namespace Sys2Proof.Machine

/-! ### State and records -/

/-- STATE of a link (R285). -/
def linkState (s : State) (l : Nat) : Nat := s.fld fLnkStatusState (l / 8) (l % 8)
/-- Set STATE. -/
def setLinkState (s : State) (l v : Nat) : State := s.setFld fLnkStatusState (l / 8) (l % 8) v
/-- LANES in use, as a mask of lanes (R298). -/
def linkLanes (s : State) (l : Nat) : Nat := s.fld fLnkStatusLanes (l / 8) (l % 8)
/-- RATE of a link (R270). -/
def linkRate (s : State) (l : Nat) : Nat := s.fld fLnkStatusRate (l / 8) (l % 8)
/-- The partition that owns a link (R2). -/
def linkPart (s : State) (l : Nat) : Option Nat := secPart s (l / 8)
/-- The link carries messages or checks arrivals: UP or SILENT (R285, R503). -/
def linkTakes (s : State) (l : Nat) : Bool := linkState s l == 4 || linkState s l == 5
/-- An end can take messages: its module is not starting, and its section is not being placed in a partition (R286). -/
def moduleReady (s : State) (l : Nat) : Bool :=
  s.fld fFltStatusModuleState 0 0 != 2 && (match linkPart s l with | some p => (s.part p).mode != .handover | none => true)

/-- The bytes of a flit (R272). -/
def SentFlit.bytes (f : SentFlit) : List Byte :=
  let b := leBytes 1 f.kind ++ leBytes 1 (toBit f.nak) ++ leBytes 2 f.seq ++ leBytes 2 f.ack ++ leBytes 2 f.first ++
    leBytes 2 f.credit0 ++ leBytes 2 f.credit1 ++ leBytes 4 0 ++ f.payload
  b ++ leBytes 4 (crc32c b).toNat ++ leBytes 4 0

/-- The record that a link sends (R283). -/
def linkRecord (s : State) (l kind : Nat) : LinkRecord :=
  { kind := BitVec.ofNat 8 kind, protoMin := 0x10, protoMax := 0x10, rates := 7, moduleId := Config.moduleId,
    link := BitVec.ofNat 8 l, moduleState := BitVec.ofNat 8 (s.fld fFltStatusModuleState 0 0), slots0 := 4096, slots1 := 256,
    hbCount := BitVec.ofNat 32 (s.link l).hbCount, lanes := BitVec.ofNat 8 (linkLanes s l) }

/-- Send a record of a kind. -/
def sendKind (s : State) (l kind : Nat) : State := sendRecord s l (linkRecord s l kind)

/-- Read a record from a link control flit's payload (R283); none if it is malformed. -/
def parseRecord (b : List Byte) : Option LinkRecord :=
  let k := fieldAt b 0 1
  if within 1 5 k && within 1 4 (fieldAt b 11 1) && decide (fieldAt b 10 1 < 64) && (b.drop 21).all (· == 0) then
    some { kind := BitVec.ofNat 8 k, protoMin := BitVec.ofNat 8 (fieldAt b 1 1), protoMax := BitVec.ofNat 8 (fieldAt b 2 1),
           rates := BitVec.ofNat 8 (fieldAt b 3 1), moduleId := BitVec.ofNat 48 (fieldAt b 4 6),
           link := BitVec.ofNat 8 (fieldAt b 10 1), moduleState := BitVec.ofNat 8 (fieldAt b 11 1),
           slots0 := BitVec.ofNat 16 (fieldAt b 12 2), slots1 := BitVec.ofNat 16 (fieldAt b 14 2),
           hbCount := BitVec.ofNat 32 (fieldAt b 16 4), lanes := BitVec.ofNat 8 (fieldAt b 20 1) }
  else none

/-! ### Retry, states and hold -/

/-- The unacknowledged flits after the one named by `ack`, in order. -/
def unacked (x : Link) (ack : Nat) : List RetryFlit :=
  x.retry.filter (fun f => decide ((f.seq + 65536 - ack) % 65536 ≠ 0) && decide ((f.seq + 65536 - ack) % 65536 < 32768))

/-- The link goes DOWN: no lane is locked. -/
def goDown (s : State) (l : Nat) : State :=
  ((setLinkState s l 0).setFld fLnkStatusLanes (l / 8) (l % 8) 0).modLink l (fun x => { x with lanesLocked := 0, badWords := [] })

/-- The next training tries one rate code lower, no further than code 2 (R289). -/
def lowerRate (s : State) (l : Nat) : State :=
  let r := min 2 (linkRate s l + 1)
  (s.setFld fLnkStatusRate (l / 8) (l % 8) r).modLink l (fun x => { x with failures := 0, tryRate := r })

/-- The link retrains (R276): counted and scored. -/
def startRetrain (s : State) (l : Nat) : State :=
  let s := setLinkState s l 6
  let s := s.modLink l (fun x => { x with gotRecord := false, nakRow := 0, nakTimes := [], badWords := [] })
  healthEvent (s.bump fLnkTrainRetrains (l / 8) (l % 8) 1) (huLink l) 8 100

/-- The unsent messages of a descriptor are given up; one begun goes on to its end (R355). -/
def dropUnsent (s : State) (l : Nat) : State :=
  pump (s.modLink l (fun x => { x with waiting := x.waiting.filter (fun m => !m.job) })) l

/-- An uncorrectable word in the transmit or retry buffer faults the context whose descriptor the link runs, or the context of its queue,
and the link retrains (R273); the bad words are reported once (log entry 150). -/
def bufferFault (s : State) (l : Nat) : State :=
  let s := s.modLink l (fun x => { x with retryBad := [] })
  let s := match jobOf s 5 l with
    | some j => endFault (dropUnsent s l) 5 l j 6 false
    | none => match (unitQueues s 5 l).findSome? (fun q => (s.queue q).ctx) with
      | some c => ctxFault s c 6 (l / 8) l false
      | none => s
  if linkTakes s l then startRetrain s l else s

/-- Resend every flit after the one named by `ack`, unless the retry buffer has lost one of them (R273, R274). -/
def resendFrom (s : State) (l ack : Nat) : State :=
  let x := s.link l
  let fs := unacked x ack
  if fs.any (fun f => x.retryBad.contains f.seq) then bufferFault s l
  else (s.bump fLnkRetryResent (l / 8) (l % 8) fs.length) |> fun s =>
    forEach fs s (fun f t => sendFlit t l 1 false f.seq f.first f.payload)

/-- The link is UP: flits kept are resent, messages that waited go out. -/
def goUp (s : State) (l : Nat) : State :=
  let s := (setLinkState s l 4).modLink l (fun x => { x with lastHb := s.now, hbCounted := 0, tryRate := 0 })
  pump (resendFrom s l (s.link l).ackedSeq) l

/-- The flit time in tenths of a nanosecond (R271). -/
def flitTime (s : State) (l : Nat) : Nat := (if linkLanes s l = 3 then 128 else 256) * 2 ^ linkRate s l

/-- The length D of a retry (R275), in A-cycles at the present clock level. -/
def retryCycles (s : State) (l : Nat) : Nat :=
  let t := flitTime s l
  let span := 20 * s.fld fLnkStatusLatency (l / 8) (l % 8) + t
  let d := span + (ceilDiv span t - 1) * t
  ceilDiv (d * (13 - min 4 (s.fld fClkStatusLevel 0 0))) 100

/-- A retry holds a Winter partition for its interval (R275). -/
def retryHold (s : State) (l : Nat) : State :=
  match linkPart s l with
  | some p => addCause s p 3 l (some (retryCycles s l))
  | none => s

/-- A NAK was sent or received: counted; more than 64 within 1 ms retrain the link (R276). -/
def countNak (s : State) (l : Nat) : State :=
  let s := s.bump fLnkRetryNaks (l / 8) (l % 8) 1
  let ts := ((s.link l).nakTimes.filter (fun t => decide (s.now < t + 1000000))) ++ [s.now]
  let s := retryHold (s.modLink l (fun x => { x with nakTimes := ts })) l
  if 64 < ts.length && linkTakes s l then startRetrain s l else s

/-! ### Hostile conduct (R295, R296) -/

/-- Fence a link (R287, R296): the cause is set, Icvar posts the event, a FENCED record goes out. -/
def fenceLink (s : State) (l cause : Nat) : State :=
  let s := (setLinkState s l 7).setFld fLnkStatusFenceCause (l / 8) (l % 8) cause
  let s := s.modLink l (fun x => { x with hostile := [], partnerFenced := false })
  sendKind (postBoth s (linkPart s l) 0xE5 (l * 2 ^ 42 + cause * 2 ^ 38)) l 5

/-- A hostile event, counted in its field; those of any 10 ms that reach FENCE_LIMIT fence the link (R296). -/
def hostileEvent (s : State) (l : Nat) (f : RField) : State :=
  let s := s.bump f (l / 8) (l % 8) 1
  let ts := ((s.link l).hostile.filter (fun t => decide (s.now < t + 10000000))) ++ [s.now]
  let s := s.modLink l (fun x => { x with hostile := ts })
  if linkState s l ≠ 7 && s.fld fLnkCfgFenceLimit (l / 8) (l % 8) ≤ ts.length then fenceLink s l 1 else s

/-! ### Lanes (R288, R289) -/

/-- The lanes of a link that are usable now. -/
def usable (x : Link) : Nat := x.lanesLocked &&& (3 - x.retired)

/-- Every lane that is not retired has locked (R285): the link negotiates; the latency is the one its training measured (R275). -/
def trained (s : State) (l : Nat) : State :=
  withHealth s (huLink l) (fun s =>
    let s := (setLinkState s l 2).setFld fLnkStatusLanes (l / 8) (l % 8) (usable (s.link l))
    let s := s.setFld fLnkStatusLatency (l / 8) (l % 8) (min (s.link l).latency 4095)
    let s := s.modLink l (fun x => { x with gotRecord := false, hbCount := 0, failures := 0, backoffMs := 1 })
    let s := if linkRate s l = 0 then s else healthEvent s (huLink l) 9 300
    sendKind s l (if moduleReady s l then 1 else 2))

/-- Move the link to the lanes of a mask: with none it goes DOWN; else, where it is UP, flits go on from the last ACK (R285, R288). -/
def useLanes (s : State) (l lanes : Nat) : State :=
  withHealth s (huLink l) (fun s =>
    let s := s.modLink l (fun x => { x with retired := 3 - lanes, lanesLocked := x.lanesLocked &&& lanes })
    if lanes = 0 then goDown s l
    else
      let s := s.setFld fLnkStatusLanes (l / 8) (l % 8) lanes
      if linkState s l = 4 then resendFrom s l (s.link l).ackedSeq else s)

/-- The link's group has been started and the module is out of reset (R447). -/
def linkAlive (s : State) (l : Nat) : Bool := s.module.released && !s.module.off && (s.link l).groupStarted

/-! ### Loop-back (R297) -/

/-- A write of PATTERN, MODE and START to LNK_LOOP: ignored with REFUSED while the section is in a partition; MODE 0 returns
the link to DOWN, another mode takes it to LOOPBACK; a fenced link stays fenced. -/
def linkLoopWrite (s : State) (l : Nat) (value : Word) : State :=
  let v := value.toNat
  if (linkPart s l).isSome then s.setFld fLnkLoopResultRefused (l / 8) (l % 8) 1
  else
    let mode := bitsOf v 1 0
    let s := s.setFld fLnkLoopPattern (l / 8) (l % 8) (bitsOf v 11 8)
    let s := s.setFld fLnkLoopMode (l / 8) (l % 8) mode
    let s := if linkState s l = 7 then s
      else if mode = 0 then (if linkState s l = 8 then goDown s l else s)
      else setLinkState s l 8
    if mode = 0 then s.setFld fLnkLoopStart (l / 8) (l % 8) 0
    else if bitOf v 15 then
      (s.setFld fLnkLoopStart (l / 8) (l % 8) 1).setFld fLnkLoopResultDone (l / 8) (l % 8) 0
    else s

/-- A write to the upper half of LNK_LOOP, which holds no field. -/
def linkLoopHigh (s : State) (l : Nat) : State :=
  if (linkPart s l).isSome then s.setFld fLnkLoopResultRefused (l / 8) (l % 8) 1 else s

/-! ### Groups and notices (R291 to R294) -/

/-- Send EPOCH_NOTICE of a group on a link, at most once in any 100 µs (R292). -/
def sendNotice (s : State) (l g : Nat) : State :=
  let x := s.group g
  let recent := x.notices.filter (fun e => decide (s.now < e.2 + 100000))
  if recent.any (fun e => e.1 == l) then s
  else sendMsg (s.setGroup g { x with notices := recent ++ [(l, s.now)] }) l (ctrlHeader 0x11 0 x.epoch g []) []

/-- The contexts in ACTIVE that are bound to a group. -/
def groupCtxs (s : State) (g : Nat) : List Nat := keysWhere s.objs.ctxs (fun x => x.mode == .active && x.group == some g)

/-- The messages that wait on a link for the contexts of a group are given up, with the hold of a transmit that found no credit; a
transmit descriptor that has lost one stops (R293, log entry 152). -/
def dropExcluded (s : State) (g l : Nat) : State :=
  let gone (m : OutMsg) : Bool := chanOf m.header == 0 && (match m.ctx with | some c => (s.ctx c).group == some g | none => false)
  if !(s.link l).waiting.any gone then s
  else
    let lost := (s.link l).waiting.any (fun m => m.job && gone m)
    let s := pump (s.modLink l (fun x => { x with waiting := x.waiting.filter (fun m => !gone m) })) l
    match jobOf s 5 l with
    | some j => if lost then endStopped s 5 l j else s
    | none => s

/-- Abort every context bound to a group, with the epoch concerned and no ABORT of its own (R427, R428). -/
def abortGroup (s : State) (g epoch : Nat) : State := forEach (groupCtxs s g) s (fun c t => abortCtx t c epoch false)

/-- The partitions of a group's contexts. -/
def groupParts (s : State) (g : Nat) : List Nat := ((groupCtxs s g).map (fun c => (s.ctx c).part)).eraseDups

end Sys2Proof.Machine
end

