-- ==== Sys2Proof/Machine/Caoco.lean ====
section
/-! DEFINITION. What every Caoco command shares: its carrier, the checks before its own (R362, R368, R369, R371, R376, R433,
R444), handles (R374, R375), address arguments (R365) and its publication (R341, R366 to R368). -/

namespace Sys2Proof.Machine

/-- A command as Icvar executes it. `live` is false for a command that a replay delivers from its log (R267). -/
structure Cmd where
  fn : Nat
  via : Via
  token : Nat
  op : Nat
  args : List Word
  live : Bool := true
  deriving DecidableEq, Repr

/-- The command that a carrier brings. -/
def cmdOf (rq : Req) (op : Nat) (args : List Word) : Cmd :=
  { fn := rq.fn.val, via := rq.via, token := rq.token.toNat, op := op, args := args }

/-- Argument `i`, and its value. -/
def Cmd.arg (c : Cmd) (i : Nat) : Word := c.args.getD i 0
def Cmd.val (c : Cmd) (i : Nat) : Nat := (c.arg i).toNat

/-- What a command does: it publishes a return code and a result, waits to publish among the unpublished commands,
or publishes later as a LAUNCH does. -/
inductive CmdOut where
  | done (rc : Nat) (result : Word) (s : State)
  | wait (kind : PendKind) (s : State)
  | later (s : State)
  deriving DecidableEq, Repr

/-- The state that a command leaves before it publishes. -/
def CmdOut.state : CmdOut → State
  | .done _ _ s => s
  | .wait _ s => s
  | .later s => s

/-- The first refusal of a list that holds, as its return code. -/
def refusal (l : List (Bool × Nat)) : Option Nat := (l.find? (·.1)).map (·.2)

/-- A return code as an entry of such a list. -/
def rcIf (n : Nat) : Bool × Nat := (n != 0, n)

/-! ### Return codes (R373) -/

def rcUnknown : Nat := 0x01
def rcBadArg : Nat := 0x02
def rcNotPermitted : Nat := 0x03
def rcBadHandle : Nat := 0x04
def rcStale : Nat := 0x05
def rcBusy : Nat := 0x06
def rcBadState : Nat := 0x07
def rcNoResources : Nat := 0x08
def rcNoMemory : Nat := 0x09
def rcInvalidDesc : Nat := 0x0A
def rcSlotTable : Nat := 0x0B
def rcVersion : Nat := 0x0C
def rcExists : Nat := 0x0D
def rcNotReady : Nat := 0x0E
def rcBadBlock : Nat := 0x0F
def rcFaulted : Nat := 0x10
def rcCancelled : Nat := 0x11
def rcTimeout : Nat := 0x12
def rcNoSession : Nat := 0x13

/-! ### Handles (R374, R375) -/

def hKind (w : Word) : Nat := getBits w 63 56
def hPart (w : Word) : Nat := getBits w 55 48
def hGen (w : Word) : Nat := getBits w 47 24
def hIdx (w : Word) : Nat := getBits w 23 0

/-- A handle. -/
def mkHandle (kind part gen idx : Nat) : Word := BitVec.ofNat 64 (kind * 2 ^ 56 + part * 2 ^ 48 + gen % 2 ^ 24 * 2 ^ 24 + idx)

/-- What is wrong with a handle, against the object of its index: another kind or an unknown index, another partition, or a
generation no longer current (R373, R375). -/
def objRc (w : Word) (kind limit : Nat) (present : Bool) (gen part : Nat) : Nat :=
  if hKind w ≠ kind ∨ limit ≤ hIdx w ∨ (gen = 0 ∧ !present) then rcBadHandle
  else if present && hPart w != part then rcBadHandle
  else if !present || hGen w != gen % 2 ^ 24 then rcStale
  else 0

/-- The partition of a function. -/
def fnPart (s : State) (f : Nat) : Nat := ((s.fn f).part).getD 0xFF

/-- A context handle of an owner (R369, R375): a context that is being torn down is stale. -/
def ctxRc (c : Cmd) (s : State) (w : Word) : Nat :=
  let x := s.ctx (hIdx w)
  let r := objRc w 1 512 (x.mode != .free) x.gen x.part
  if r ≠ 0 then r else if x.mode ≠ .active then rcStale else if x.part ≠ fnPart s c.fn then rcBadHandle
  else if x.owner ≠ c.fn then rcNotPermitted else 0

/-- A function owns a live context (R369). -/
def owns (s : State) (f ctx : Nat) : Bool := (s.ctx ctx).mode != .free && (s.ctx ctx).owner == f

/-- A queue handle: an engine queue belongs to its context's owner, a command queue to its function. -/
def queueRc (c : Cmd) (s : State) (w : Word) : Nat :=
  let x := s.queue (hIdx w)
  let r := objRc w 2 8192 x.present x.gen x.part
  if r ≠ 0 then r
  else match x.ctx with
    | some k => if x.part ≠ fnPart s c.fn then rcBadHandle else if owns s c.fn k then 0 else rcNotPermitted
    | none => if x.fn = c.fn then 0 else rcNotPermitted

/-- A tally handle of an owner. -/
def tallyRc (c : Cmd) (s : State) (w : Word) : Nat :=
  let x := s.tally (hIdx w)
  let r := objRc w 3 16384 x.present x.gen x.part
  if r ≠ 0 then r else if x.part ≠ fnPart s c.fn then rcBadHandle else if owns s c.fn x.ctx then 0 else rcNotPermitted

/-- A region handle of an owner. -/
def regionRc (c : Cmd) (s : State) (w : Word) : Nat :=
  let x := s.region (hIdx w)
  let r := objRc w 4 65536 x.present x.gen x.part
  if r ≠ 0 then r else if x.part ≠ fnPart s c.fn then rcBadHandle else if owns s c.fn x.ctx then 0 else rcNotPermitted

/-- A model handle of the issuer's partition. -/
def modelRc (c : Cmd) (s : State) (w : Word) : Nat :=
  let x := s.model (hIdx w)
  let r := objRc w 5 1024 x.present x.gen x.part
  if r ≠ 0 then r else if x.part ≠ fnPart s c.fn then rcBadHandle else 0

/-- A TENSOR_ID of an owner (R500). -/
def tensorRc (c : Cmd) (s : State) (id : Nat) : Nat :=
  let t := s.tensor (fnPart s c.fn) id
  if 2 ^ 32 ≤ id then rcBadArg else if !t.present then rcBadHandle
  else if owns s c.fn t.ctx then 0 else rcNotPermitted

/-- An index that a rule leaves to Icvar: any free one of `n`, by a free value (log entry 23). -/
def pickIndex (s : State) (n : Nat) (free : Nat → Bool) : Option (Nat × State) :=
  let (w, t) := s.freeDraw
  ((List.range n).find? (fun i => free ((w.toNat + i) % n))).map (fun i => ((w.toNat + i) % n, t))

/-! ### Holding objects (R371) -/

/-- An unpublished command holds something. -/
def heldBy (s : State) (f : PendKind → Bool) : Bool := s.host.commands.any (fun p => f p.kind)

/-- A partition is held by its destruction or handover. -/
def partBusy (s : State) (p : Nat) : Bool :=
  heldBy s (fun k => match k with | .partDestroy q => q == p | .partHandover q => q == p | _ => false)

/-- A context is held by its destruction, or by its replay against all but the commands that the replay delivers. -/
def ctxHeld (q : Cmd) (s : State) (c : Nat) : Bool :=
  heldBy s (fun k => match k with | .ctxDestroy d => d == c | .rplReplay d => q.live && d == c | _ => false)

/-- A context is held by its destruction, replay, quiesce or launch. -/
def ctxBusy (q : Cmd) (s : State) (c : Nat) : Bool :=
  ctxHeld q s c || heldBy s (fun k => k == .ctxQuiesce c) || s.host.launches.any (fun l => l.ctx == c)

/-- A queue is held by its disable. -/
def queueBusy (s : State) (q : Nat) : Bool :=
  heldBy s (fun k => match k with | .queueDisable r _ => r == q | .cmdqClose r => r == q | _ => false)

/-- A function is held by its disable. -/
def fnBusy (s : State) (f : Nat) : Bool := heldBy s (fun k => match k with | .fnDisable g => g == f | _ => false)

/-- A model is held by its eviction; a load holds it for no longer than its own step. -/
def modelBusy (s : State) (m : Nat) : Bool :=
  heldBy s (fun k => match k with | .modelEvict n => n == m | _ => false)

/-- The issuer's partition may take a command of class P (R369, R385): the function is assigned, and the partition is ACTIVE,
not held and not in reset. -/
def partRc (c : Cmd) (s : State) : Nat :=
  match (s.fn c.fn).part with
  | none => rcNotPermitted
  | some p =>
    if partBusy s p then rcBusy else if (s.part p).mode ≠ .active then rcBadState
    else if (s.part p).stage ≠ .none then rcNotReady else 0

/-- Only the physical function may issue the command (R369). -/
def pfRc (c : Cmd) : Nat := if c.fn = 0 then 0 else rcNotPermitted

/-- A partition is sealed. -/
def partSealed (s : State) (p : Option Nat) : Bool := match p with | some p => (s.part p).isSealed | none => false

/-! ### Address arguments (R365) -/

/-- An address argument may be used for `n` bytes. -/
def addrOk (c : Cmd) (s : State) (w : Word) (n : Nat) (write : Bool) : Bool :=
  let a := argAddr w
  decide (a % 8 = 0) &&
  (if isHostAddr w then (s.fn c.fn).busMaster
   else inPartition s (fnPart s c.fn) a n &&
    (s.objs.regions.map (·.2)).any (fun r =>
      r.present && owns s c.fn r.ctx && some r.part == (s.fn c.fn).part && decide (r.base ≤ a) &&
      decide (a + n ≤ r.base + r.length) && (if write then r.write && !meetsFrozen s (fnPart s c.fn) a n else r.read)))

/-- An address argument that may not be used returns BAD_ARGUMENT. -/
def addrRc (c : Cmd) (s : State) (w : Word) (n : Nat) (write : Bool) : Bool × Nat := (!addrOk c s w n write, rcBadArg)

/-- A structure in device memory holds a poisoned word: the command that reads it ends FAULTED (R56, log entry 24). -/
def argPoisoned (s : State) (w : Word) (n : Nat) : Bool := !isHostAddr w && !(readMem s (argAddr w) n).2.isEmpty

/-- The structures that a command reads once its checks so far have passed. -/
def readsAfter (pre : List (Bool × Nat)) (l : List (Word × Nat)) : List (Word × Nat) :=
  if (refusal pre).isSome then [] else l

/-- A command that reads no structure. -/
def noReads (_ : Cmd) (_ : State) : List (Word × Nat) := []

/-- Icvar reads structures in device memory: every outcome is counted and recorded (R56). -/
def meetArgs (s : State) (l : List (Word × Nat)) : State :=
  (readAll s ((l.filter (fun e => !isHostAddr e.1)).map (fun e => (argAddr e.1, e.2)))).1

/-! ### Publication -/

/-- The commands that return data in short form (R367, R377). -/
def hasReply (op : Nat) : Bool := op == 0x01 || op == 0x03 || op == 0x06

/-- MBX_IN_ACK receives an acknowledgement (R341). -/
def ackMbx (s : State) (f j seq taken rc : Nat) : State :=
  let lost := s.fld fMbxInAckValid f j == 1
  let s := if lost then s.setFld fMbxInStatusAckLost f j 1 else s
  let s := s.setRaw ⟨.mbxInAck, f, j⟩ (BitVec.ofNat 64 (2 ^ 63 + taken % 256 * 2 ^ 40 + seq % 256 * 2 ^ 32 + rc % 2 ^ 16))
  if lost then s else raiseMsix s f 1

/-- A taken word is answered: its acknowledgement is written, and its mailbox's command is published (R341, R370). -/
def ackDone (s : State) (f j seq taken rc : Nat) : State :=
  let s := s.modFn f (fun x => { x with
    lastTaken := tabSet none x.lastTaken j ((tabGet none x.lastTaken j).map (fun l => { l with published := true })) })
  ackMbx s f j seq taken rc

/-- Icvar posts the oldest waiting word of a mailbox whose FULL is 0 and raises vector 0 (R342); a reply's acknowledgement follows
it (R367). -/
def postOut (s : State) (f j : Nat) : State :=
  if s.fld fMbxOutStatusFull f j = 1 then s
  else match (s.fn f).outbox.find? (fun e => e.1 == j) with
    | some e =>
      let s := s.modFn f (fun x => { x with outbox := x.outbox.erase e })
      let s := raiseMsix ((s.setRaw ⟨.mbxOutWord, f, j⟩ e.2).setFld fMbxOutStatusFull f j 1) f 0
      match (s.fn f).owed.find? (fun o => o.mbx == j && o.word == e.2) with
      | some o => ackDone (s.modFn f (fun x => { x with owed := x.owed.erase o })) f j o.seq o.taken o.rc
      | none => s
    | none => s

/-- Answer a taken word: with a reply, once that is posted; a reply that does not fit is dropped and counted (R342, R367). -/
def ackWord (s : State) (f j seq taken rc : Nat) (reply : Option Word) : State :=
  match reply with
  | some w =>
    if (s.fn f).outbox.length < 64 then
      postOut ((queueOut s f j w).modFn f (fun x => { x with owed := x.owed ++ [⟨j, w, seq, taken, rc⟩] })) f j
    else ackDone (queueOut s f j w) f j seq taken rc
  | none => ackDone s f j seq taken rc

/-- STATUS of a command's record (R368). -/
def cmdStatus (rc : Nat) : Nat := if rc = 0 then 0 else if rc = rcFaulted ∨ rc = rcTimeout then 1 else if rc = rcCancelled then 2 else 3

/-- A command's answer beside its return code: result, generation tag, cause and POISONED. -/
structure Answer where
  rc : Nat
  result : Word := 0
  tag : Nat := 0
  cause : Nat := 0
  poisoned : Bool := false
  deriving DecidableEq, Repr

/-- Publish a command's answer where it came from (R341, R366 to R368). -/
def publish (s : State) (fn : Nat) (via : Via) (taken op : Nat) (mute : Bool) (a : Answer) : State :=
  match via with
  | .mbx j seq block =>
    if mute then s
    else
      let s := match block with
        | some b => if a.rc ≠ rcBadBlock && (s.fn fn).busMaster then
            writeHost s (b + 64) (leBytes 2 a.rc ++ leBytes 6 0 ++ leBytes 8 a.result.toNat) else s
        | none => s
      let reply : Option Word := if hasReply op && a.rc = 0 then
          some (BitVec.ofNat 64 (op * 2 ^ 56 + seq.toNat * 2 ^ 48 + a.result.toNat % 2 ^ 48)) else none
      let told (l : LastTaken) : LastTaken := { l with rc := BitVec.ofNat 16 a.rc, reply := reply }
      let s := s.modFn fn (fun x =>
        { x with lastTaken := tabSet none x.lastTaken j.val ((tabGet none x.lastTaken j.val).map told) })
      ackWord s fn j.val seq.toNat taken a.rc reply
  | .queue q pos =>
    finishEntry s q.val pos.toNat
      { flags := toBit a.poisoned * 2, status := cmdStatus a.rc, rc := a.rc, tag := a.tag, pos := pos.toNat, cause := a.cause,
        result := a.result }

/-- The TAKEN value of a command's mailbox (R340, R341). -/
def takenOf (s : State) (fn : Nat) (via : Via) : Nat :=
  match via with | .mbx j _ _ => s.fld fMbxInStatusTaken fn j.val | .queue _ _ => 0

/-- The argument that is a context handle, for the commands that name a context. -/
def ctxArg (op : Nat) : Option Nat :=
  if [0x21, 0x22, 0x23, 0x24, 0x2D, 0x30, 0x40, 0x42, 0x48, 0x58, 0x5A, 0x62, 0x68, 0x69, 0x6A].contains op then some 0
  else if op = 0x28 then some 7
  else none

/-- The generation tag of the context that a command names; 0 if it names none (R368). -/
def namedTag (s : State) (c : Cmd) : Nat :=
  match ctxArg c.op with
  | some i =>
    let w := c.arg i
    if hKind w = 1 ∧ hIdx w < 512 ∧ hGen w = (s.ctx (hIdx w)).gen % 2 ^ 24 then ctxTag s (hIdx w) else 0
  | none => 0

/-! ### Commands that wait (R354, R377, R409, R417, R437) -/

/-- No issued tile of a context is unfinished. -/
def ctxIdle (s : State) (c : Nat) : Bool :=
  s.work.cores.all (fun e => (coreTiles e.2).all (fun r => r.ctx != c))

/-- The queues of a context. -/
def ctxQueues (s : State) (c : Nat) : List Nat := queuesWhere s (fun q => q.ctx == some c)

/-- A context is quiescent (R437). -/
def quiescent (s : State) (c : Nat) : Bool :=
  s.work.slots.all (fun e => !(e.2.loaded && e.2.launched && e.2.ctx == c)) && ctxIdle s c &&
  (ctxQueues s c).all (fun q => (s.queue q).consumed == (s.queue q).tail && (s.queue q).entries.isEmpty) &&
  s.host.launches.all (fun l => l.ctx != c)

/-- The gate record of a context, by its key. -/
def ctxGate (s : State) (c : Nat) : Option Gate :=
  ((s.objs.gates.filter (fun e => e.2.present && e.2.ctx == c)).map (·.2)).head?

/-- LAST_STEP of the context's gate record, or all ones (R437). -/
def lastStepOf (s : State) (c : Nat) : Nat := match ctxGate s c with | some g => g.lastStep | none => 0xFFFFFFFF

/-- The quiesce point of a context is reached: its enabled queues become DISABLED (R437). -/
def quiesceNow (s : State) (c : Nat) : State :=
  let s := forEach ((ctxQueues s c).filter (fun q => (s.queue q).mode == .enabled)) s
    (fun q t => t.modQueue q (fun x => { x with mode := .disabled }))
  s.modCtx c (fun x => { x with quiesced := true })

/-- A queue still drains: work other than the command that stops it is unfinished. -/
def drains (s : State) (p : PendCmd) (q : Nat) : Bool :=
  (s.queue q).mode == .draining &&
  (match p.via with
   | .queue r pos => r.val != q || (s.queue q).entries.any (fun e =>
      e.pos != pos.toNat && (match e.phase with | .finished _ => false | _ => true))
   | .mbx _ _ _ => true)

/-- What an unpublished command may publish now, as return code and result; none while it must wait. -/
def pendDone (s : State) (p : PendCmd) : Option (Nat × Nat) :=
  match p.kind with
  | .ctxDestroy c => (match (s.ctx c).mode with | .draining => some (0, 0) | .free => some (0, 0) | _ => none)
  | .ctxQuiesce c => if (s.ctx c).mode != .active then some (rcFaulted, 0)
      else if quiescent s c then some (0, lastStepOf s c) else none
  | .queueDisable q n => if drains s p q then none else some (0, (s.queue q).cancelled - n)
  | .fnDisable f => if (queuesWhere s (fun x => x.fn == f)).any (drains s p) then none else some (0, 0)
  | .cmdqClose q => if (s.queue q).present then none else some (0, 0)
  | .partDestroy p => if (s.part p).present then none else some (0, 0)
  | .partHandover p => if (s.part p).mode == .handover then none
      else some (if (s.part p).mismatch then rcFaulted else 0, (s.part p).lastHandoverUs)
  | .modelEvict m => if (s.model m).mode == .evicting then none else some (0, 0)
  | .autumnRun mask matched => if (maskSecs mask).any (fun n => (s.autumn n).isSome) then none else some (0, matched)
  | .rplReplay c => if (s.ctx c).mode != .active then some (rcFaulted, 0) else none

/-- The context that an unpublished command names. -/
def pendTag (s : State) (k : PendKind) : Nat :=
  match k with | .ctxDestroy c => ctxTag s c | .ctxQuiesce c => ctxTag s c | .rplReplay c => ctxTag s c | _ => 0

/-- Publish an unpublished command, with what its publication brings about. -/
def publishOne (s : State) (p : PendCmd) (rc result : Nat) : State :=
  let tag := pendTag s p.kind
  let s := match p.kind with | .ctxQuiesce c => if rc = 0 then quiesceNow s c else s | _ => s
  let s := { s with host := { s.host with commands := s.host.commands.erase p } }
  publish s p.fn p.via p.taken p.opcode p.mute { rc := rc, result := BitVec.ofNat 64 result, tag := tag }

/-! ### Function resets (R356) -/

/-- The mailbox registers of a function. -/
def mbxRegs : List RegName :=
  [.mbxInWord, .mbxInStatus, .mbxInAck, .mbxOutWord, .mbxOutStatus, .mbxOutAck, .mbxSummary]

/-- A function-level reset has nothing left to stop: the function owns no context and none of its queues drains. -/
def flrQuiet (s : State) (f : Nat) : Bool :=
  s.objs.ctxs.all (fun e => e.2.mode == .free || e.2.owner != f) && (queuesWhere s (fun q => q.fn == f && q.mode == .draining)).isEmpty

/-- A function-level reset completes (R356): queue slots, mailboxes, MSI-X table and windows at their reset values; counted with
its duration in µs (R358). A virtual function that VF Enable no longer covers is absent. -/
def finishFlr (s : State) (f : Nat) : State :=
  let x := s.fn f
  let s := forEach (queuesWhere s (fun q => q.fn == f)) s (fun q t => t.setQueue q { gen := (t.queue q).gen + 1 })
  let s := s.clearRegs (fun r i _ => i == f && mbxRegs.contains r)
  let s := s.setFn f
    { mode := if f = 0 || s.host.vfEnable then .enabled else .absent, part := x.part, tdi := x.tdi, ideStream := x.ideStream,
      bar2Log := x.bar2Log, sessionGen := x.sessionGen }
  (s.bump fHifFlrFlrCount 0 0 1).setFld fHifFlrLastDuration 0 0 (min ((s.now - x.flrStart.getD s.now) / 1000) (2 ^ 32 - 1))

/-- Function-level resets that have come to their end. -/
def finishFlrs (s : State) : State :=
  forEach (keysWhere s.host.fns (fun x => x.mode == .resetting)) s (fun f t => if flrQuiet t f then finishFlr t f else t)

/-- Publish every waiting command whose work has ended; end the function-level resets that have come to their end. -/
def settle (s : State) : State :=
  finishFlrs (forEach s.host.commands s (fun p t =>
    match pendDone t p with | some (rc, r) => publishOne t p rc r | none => t))

/-! ### Create tokens (R376) -/

/-- The commands that make an object. -/
def isCreate (op : Nat) : Bool := [0x10, 0x18, 0x20, 0x28, 0x2D, 0x30, 0x48, 0x50, 0x5A, 0x62].contains op

/-- The object that a create made still exists. -/
def tokenLive (s : State) (t : CreateToken) : Bool :=
  let i := hIdx t.result
  let g := hGen t.result
  match t.opcode with
  | 0x18 => (s.part t.result.toNat).present
  | 0x20 => (s.ctx i).mode == .active && (s.ctx i).gen % 2 ^ 24 == g
  | 0x2D => (s.tally i).present && (s.tally i).gen % 2 ^ 24 == g
  | 0x30 => (s.region i).present && (s.region i).gen % 2 ^ 24 == g
  | 0x48 => (s.tensor (fnPart s t.fn) t.result.toNat).present
  | 0x50 => (s.model i).present && (s.model i).gen % 2 ^ 24 == g
  | 0x5A => (upTo 8).any (fun n => (s.comm n (t.result.toNat % 64)).present &&
      (s.comm n (t.result.toNat % 64)).digest.toNat == getBits t.result 63 32)
  | 0x62 => (s.gate (fnPart s t.fn) t.result.toNat).present
  | _ => (s.queue i).present && (s.queue i).gen % 2 ^ 24 == g

/-- Forget the tokens whose objects are gone. -/
def pruneTokens (s : State) : State := { s with host := { s.host with tokens := s.host.tokens.filter (tokenLive s) } }

/-- The result of an earlier create that this one repeats. -/
def tokenHit (s : State) (c : Cmd) : Option Word :=
  if c.token = 0 || !isCreate c.op then none
  else (s.host.tokens.find? (fun t => t.fn == c.fn && t.opcode == c.op && t.token.toNat == c.token && tokenLive s t)).map
    (·.result)

/-- Keep the token of a create that made its object. -/
def keepToken (s : State) (c : Cmd) (rc : Nat) (result : Word) : State :=
  if rc ≠ 0 || c.token = 0 || !isCreate c.op then s
  else
    let old := s.host.tokens.filter (fun t => !(t.fn == c.fn && t.opcode == c.op && t.token.toNat == c.token))
    { s with host := { s.host with tokens := old ++ [⟨c.fn, c.op, BitVec.ofNat 32 c.token, result⟩] } }

/-! ### The checks before a command's own, and its run -/

/-- Commands that run while the module starts, and while it is fenced (R433, R444). -/
def startSet : List Nat := [0x01, 0x02, 0x03, 0x1F, 0x35, 0x74, 0x75]
def fencedSet : List Nat := [0x01, 0x02, 0x03, 0x1F, 0x19, 0x35, 0x74, 0x75]

/-- The checks that come before a command's own: session, form, state of the module, replay. -/
def gateRc (c : Cmd) (s : State) : Option Nat :=
  let onQueue := match c.via with | .queue _ _ => true | _ => false
  let state := s.fld fFltStatusModuleState 0 0
  refusal [
    (c.op != 0x01 && c.op != 0x03 && (s.fn c.fn).session.isNone, rcNoSession),
    (onQueue && decide (c.op ≤ 0x10), rcNotPermitted),
    ((state == 2 || state == 3) && !startSet.contains c.op, rcNotReady),
    (state == 4 && !fencedSet.contains c.op, rcBadState),
    (c.live && !onQueue && c.op != 0x05 && c.op != 0x06 &&
      (keysWhere s.objs.ctxs (fun x => x.owner == c.fn && x.replay.isSome)).length != 0,
      rcBusy)]

/-- A command's entry in its queue, when nothing has fetched it, as it comes into Icvar. -/
def checkIn (c : Cmd) (s : State) : State :=
  match c.via with
  | .queue q pos =>
    let x := s.queue q.val
    if x.present && x.kind == 0 && x.fn == c.fn then
      if x.entries.any (fun e => e.pos == pos.toNat) then startEntry s q.val pos.toNat
      else s.setQueue q.val { x with entries := x.entries ++ [⟨pos.toNat, [], .running⟩] }
    else s
  | .mbx _ _ _ => s

/-- Publish an answer at once. -/
def answerNow (c : Cmd) (s : State) (rc : Nat) (result : Word) (tag : Nat) : State :=
  publish s c.fn c.via (takenOf s c.fn c.via) c.op false { rc := rc, result := result, tag := tag }

/-- What a command's outcome leaves: published, or waiting among the unpublished. -/
def conclude (c : Cmd) (tag : Nat) (o : CmdOut) : State :=
  match o with
  | .done rc r s => answerNow c (keepToken s c rc r) rc r tag
  | .wait k s =>
    let p : PendCmd := ⟨c.fn, c.via, takenOf s c.fn c.via, c.op, k, s.now, false⟩
    settle { s with host := { s.host with commands := s.host.commands ++ [p] } }
  | .later s => s

/-- Run a command: the shared checks, its own, its effect, and its publication. A refused command has no effect (R377) but that
of reading the structures it names. -/
def runCmd (refuse : Cmd → State → Option Nat) (reads : Cmd → State → List (Word × Nat)) (effect : Cmd → State → CmdOut) (c : Cmd)
    (s : State) : State :=
  let s := checkIn c s
  match gateRc c s with
  | some rc => answerNow c s rc 0 (namedTag s c)
  | none => match tokenHit s c with
    | some r => answerNow c s 0 r (namedTag s c)
    | none => match refuse c s with
      | some rc => answerNow c (meetArgs s (reads c s)) rc 0 (namedTag s c)
      | none => conclude c (namedTag s c) (effect c (meetArgs s (reads c s)))

/-- The state in which a row's command runs: what the host has stored in its memory stands there. -/
def arrive (rq : Req) (s : State) : State := hostStores s rq.host

/-- Run the command of a row that reads structures. -/
def runRowWith (refuse : Cmd → State → Option Nat) (reads : Cmd → State → List (Word × Nat)) (effect : Cmd → State → CmdOut)
    (op : Nat) (rq : Req) (args : List Word) (s : State) : State := runCmd refuse reads effect (cmdOf rq op args) (arrive rq s)

/-- Run the command of a row that reads no structure. -/
def runRow (refuse : Cmd → State → Option Nat) (effect : Cmd → State → CmdOut) (op : Nat) (rq : Req) (args : List Word)
    (s : State) : State := runRowWith refuse noReads effect op rq args s

end Sys2Proof.Machine
end

