-- ==== Sys2Proof/Machine/Clock.lean ====
section
/-! DEFINITION. What passes with time alone: one cycle of the 100 MHz reference clock, taken when no command waits (log
entry 1). -/

namespace Sys2Proof.Machine

/-- Root cycles of one reference cycle at each level (R465). -/
def rootPerRef (level : Nat) : Nat := 52 - 4 * min level 4

/-- The root clock at a level, in MHz (R465). -/
def rootMhz (level : Nat) : Nat := 5200 - 400 * min level 4

/-- A slew of the root clock ends: the level is the target (R466). -/
def endSlew (s : State) : State :=
  if s.fld fClkStatusSlewing 0 0 = 0 then s
  else
    let level := s.fld fClkStatusTarget 0 0
    let s := ((s.setFld fClkStatusLevel 0 0 level).setFld fClkStatusRootMhz 0 0 (rootMhz level)).setFld fClkStatusSlewing 0 0 0
    { s.bump fPwrThrottleLevelChanges 0 0 1 with power := { s.power with levelChanges := satAdd 32 s.power.levelChanges 1 } }

/-! ### Holds for power and heat (R464, R468, R472) -/

/-- The level of a section for power: that of R464, or at least 8 while the emergency hold is active (R468). -/
def powerLevel (s : State) (n : Nat) : Nat :=
  max (s.fld fPwrSectionHold n 0) (if s.fld fPwrStatusEmergency 0 0 = 1 then 8 else 0)

/-- The level of a section for heat: that of R472, or 15 where three sensors are ignored (R471). -/
def heatLevel (s : State) (n : Nat) : Nat := if s.power.deadSections.contains n then 15 else s.fld fPwrSectionThermalHold n 0

/-- The level that applies to a section (R464): a Winter partition's sections all take the largest of them. -/
def holdLevel (s : State) (n : Nat) : Nat :=
  let own (m : Nat) : Nat := max (powerLevel s m) (heatLevel s m)
  match secPart s n with
  | some p => if (s.part p).winter then ((maskSecs (s.part p).mask).map own).foldl max 0 else own n
  | none => own n

/-- Frame `k` since module reset passes: the first h of each group of 16 are held and counted in every section, and hold a Winter
partition with cause THROTTLE (R247, R464). -/
def passFrame (k : Nat) (s : State) : State :=
  let s := forEach (upTo 8) s (fun n t => if k % 16 < holdLevel t n then t.bump fPwrSectionHeldFrames n 0 1 else t)
  if k % 16 ≠ 0 then s
  else forEach (upTo 8) s (fun p t =>
    let x := t.part p
    let h := ((maskSecs x.mask).head?.map (holdLevel t)).getD 0
    let past (c : HoldCause) : Bool := match c.length with | some n => decide (c.since + n ≤ 12 * k) | none => false
    if x.present && x.winter && decide (0 < h) && x.causes.all (fun c => c.field != 4 || past c)
    then addCauseAt t p 4 0 (some (12 * h)) (12 * k) else t)

/-- The work cycles among the last `n` A-cycles: none of a Winter partition that is held, and those before the boundary at which a
hold begins (R244, R246). -/
def workCycles (x : Part) (now n : Nat) : Nat :=
  if !x.winter then n
  else if x.held then 0
  else match holdBoundary x with | some b => b - (now - n) - (b - now) | none => n

/-- A partition's work clock after the last `n` A-cycles (R244). -/
def advanceWork (s : State) (p n : Nat) : State :=
  let x := s.part p
  if !x.present then s
  else
    let d := workCycles x (aCycles s) n
    (s.bump fRplWorkWorkCycles p 0 d).modPart p (fun x => { x with workPrev := x.work, work := x.work + d })

end Sys2Proof.Machine
end

