-- ==== Sys2Proof/Machine/Elems.lean ====
section
/-! DEFINITION. Reading and writing single elements and runs of elements of tensors, for the route and collective engines. -/

namespace Sys2Proof.Machine

/-- Put bits into pending bytes over memory. -/
def putBitsAt (s : State) (acc : Tab (Option Byte)) (a bit width v : Nat) : Tab (Option Byte) :=
  let n := ceilDiv (bit + width) 8
  let old := leNat ((upTo n).map (fun k => (tabGet none acc (a + k)).getD (memByte s (a + k))))
  let new := old - old / 2 ^ bit % 2 ^ width * 2 ^ bit + v % 2 ^ width * 2 ^ bit
  (leBytes n new).zipIdx.foldl (fun t e => tabSet none t (a + e.2) (some e.1)) acc

/-- Put an element's code (R75, R83). -/
def putCode (s : State) (d : TensorDesc) (acc : Tab (Option Byte)) (i code : Nat) : Tab (Option Byte) :=
  let r := i / d.dim0
  let x := i % d.dim0
  if isExt d.format then
    let acc := putBitsAt s acc (d.base + r * d.rowBytes + 4 * x) 0 32 (code / 256)
    putBitsAt s acc (d.auxAddr + r * d.dim0 + x) 0 8 code
  else putBitsAt s acc (d.base + r * d.rowBytes + x * d.bits / 8) (x * d.bits % 8) d.bits code

/-- Pending bytes as cells. -/
def pendingCells (t : Tab (Option Byte)) : List Cell := t.filterMap (fun e => e.2.map (fun v => (e.1, v)))

/-- Convert values into elements, by index, of an unscaled tensor (R95 to R99, R105). -/
def convertInto (s : State) (t : Tensor) (cx : ConvCtx) (l : List (Nat × Val)) : List Cell × OutRes :=
  let (acc, o) := l.foldl (fun (a : Tab (Option Byte) × OutRes) e =>
    let (codes, o) := convElems t.desc cx (.fin false 1) (e.1 / t.desc.dim0) (e.1 % t.desc.dim0) [e.2]
    (putCode s t.desc a.1 e.1 (codes.headD 0), a.2.join o)) ([], {})
  (pendingCells acc, o)

/-- The rows that `n` elements from index `first` touch: row, column and elements of each piece. -/
def rowPieces (d : TensorDesc) (first n : Nat) : List (Nat × Nat × Nat) :=
  if n = 0 then []
  else (spanOf (first / d.dim0) ((first + n - 1) / d.dim0 + 1 - first / d.dim0)).map (fun r =>
    let x := if r = first / d.dim0 then first % d.dim0 else 0
    (r, x, min (d.dim0 - x) (first + n - (r * d.dim0 + x))))

/-- Convert consecutive values into a tensor from element `first` on (R90 to R99). -/
def convertRun (s : State) (t : Tensor) (cx : ConvCtx) (first : Nat) (vs : List Val) : List Cell × OutRes :=
  if hasScales t.desc.format then
    let o := (rowPieces t.desc first vs.length).foldl (fun (o : OutRes) e =>
      o.join (outRow t.desc cx e.1 e.2.1 ((vs.drop (e.1 * t.desc.dim0 + e.2.1 - first)).take e.2.2))) {}
    (o.cells, o)
  else convertInto s t cx (vs.zipIdx.map (fun e => (first + e.2, e.1)))

/-- The blocks that `n` elements from index `first` touch, as addresses of their scale bytes. -/
def scaleAddrs (d : TensorDesc) (first n : Nat) : List Nat :=
  if hasScales d.format then
    (rowPieces d first n).flatMap (fun e =>
      (spanOf (e.2.1 / d.blockSize) ((e.2.1 + e.2.2 - 1) / d.blockSize + 1 - e.2.1 / d.blockSize)).map (fun k =>
        d.scaleAddr + e.1 * d.rowBlocks + k))
  else []

/-- The block of element `i` among the blocks of a tensor, row by row (R79); in an unscaled tensor each element is its own. -/
def blockIdx (d : TensorDesc) (i : Nat) : Nat :=
  if hasScales d.format then i / d.dim0 * d.rowBlocks + i % d.dim0 / d.blockSize else i

/-- The first element of block `k`. -/
def blockFirst (d : TensorDesc) (k : Nat) : Nat :=
  if hasScales d.format then k / d.rowBlocks * d.dim0 + k % d.rowBlocks * d.blockSize else k

/-- Element `i` begins a block. -/
def onBlock (d : TensorDesc) (i : Nat) : Bool := blockFirst d (blockIdx d i) == i

/-- The codes that pad the row of each piece of a run which ends that row of a block-scaled tensor: +0 (R79). -/
def padCells (s : State) (d : TensorDesc) (first n : Nat) (acc : Tab (Option Byte)) : Tab (Option Byte) :=
  if hasScales d.format then
    (rowPieces d first n).foldl (fun a e =>
      if e.2.1 + e.2.2 = d.dim0 then
        (spanOf d.dim0 (d.rowElems - d.dim0)).foldl (fun a x =>
          putBitsAt s a (d.base + e.1 * d.rowBytes + x * d.bits / 8) (x * d.bits % 8) d.bits 0) a
      else a) acc
  else acc

/-- Bytes of `n` elements moved unchanged: the elements in order, packed, then their scale bytes; a master's words, then its
tails (R308). -/
def runBytes (s : State) (d : TensorDesc) (first n : Nat) : List Byte :=
  let codes := (spanOf first n).map (fun i => elemRaw s d (i / d.dim0) (i % d.dim0))
  if isExt d.format then codes.flatMap (fun c => leBytes 4 (c / 256)) ++ codes.map (fun c => BitVec.ofNat 8 c)
  else leBytes (ceilDiv (n * d.bits) 8) (packCodes d.bits codes) ++ (scaleAddrs d first n).map (memByte s)

/-- Store `n` elements of a run of `total` that bytes of `runBytes` hold, from the run's element `skip` on, at element `first`; `lead`
blocks of the run come before them. -/
def storeRun (s : State) (d : TensorDesc) (first n skip lead total : Nat) (bytes : List Byte) : List Cell :=
  let body := ceilDiv (total * d.bits) 8
  let packed := leNat (bytes.take body)
  let code (i : Nat) : Nat :=
    if isExt d.format then fieldAt bytes (4 * (skip + i)) 4 * 256 + fieldAt bytes (4 * total + skip + i) 1
    else packed / 2 ^ ((skip + i) * d.bits) % 2 ^ d.bits
  pendingCells (padCells s d first n ((upTo n).foldl (fun a i => putCode s d a (first + i) (code i)) ([] : Tab (Option Byte)))) ++
  (scaleAddrs d first n).zipIdx.map (fun e => (e.1, BitVec.ofNat 8 (fieldAt bytes (body + lead + e.2) 1)))

end Sys2Proof.Machine
end

