-- ==== Sys2Proof/Machine/LinkTx.lean ====
section
/-! DEFINITION. The link transmitter (R282, R381, R62, R252) and the second read of a block (R63). -/

namespace Sys2Proof.Machine

/-! ### The transmit descriptor (R381) -/

def txOp (b : List Byte) : Nat := fieldAt b 1 1
def txDstTag (b : List Byte) : Nat := fieldAt b 6 2
def txSrc (b : List Byte) : Nat := fieldAt b 28 8
def txLen (b : List Byte) : Nat := fieldAt b 36 4
def txHandle (b : List Byte) : Nat := fieldAt b 40 8
def txTensor (b : List Byte) : Nat := fieldAt b 40 4
def txBlock (b : List Byte) : Nat := fieldAt b 44 4
def txOffset (b : List Byte) : Nat := fieldAt b 48 8
def txTally (b : List Byte) : Nat := fieldAt b 56 2
def txAdd (b : List Byte) : Nat := fieldAt b 58 2

/-- The tensor whose blocks a BLOCK descriptor sends. -/
def txSource (s : State) (j : Job) : Tensor := s.tensor (s.ctx j.ctx).part (txTensor j.bytes)

/-- The blocks that a BLOCK descriptor reads: number, address and bytes; none for a place that begins no block. -/
def txBlocks (s : State) (j : Job) : List (Option (Nat × Nat × Nat)) :=
  if txOp j.bytes = 2 then
    let d := (txSource s j).homeDesc
    (upTo (txLen j.bytes / 4096)).map (fun i =>
      let a := txSrc j.bytes + 4096 * i
      (blockAt d.arrays a).bind (fun b => (blockPlace d.arrays b).map (fun p => (b, p.1, p.2))))
  else []

/-- A transmit descriptor breaks R282 or R381. -/
def txBad (s : State) (l : Nat) (j : Job) : Bool :=
  let b := j.bytes
  fieldAt b 0 1 != 0x10 || !within 1 2 (txOp b) || fieldAt b 2 2 != 0 || fieldAt b 60 4 != 0 || !talliesOwned s j.ctx b ||
  (txTally b != 0xFFFF && txAdd b == 0) ||
  (if txOp b = 1 then txLen b != 0 && (loamPlace (txSrc b) (txLen b)).isNone
   else txLen b % 4096 != 0 || txOffset b != 0 || !tensorValid s (s.ctx j.ctx).part (txTensor b) || !(txSource s j).desc.checksum ||
     (txBlocks s j).any (fun e => match e with
       | some (_, a, n) => !inHbm a n || a / sectionHbm != l / 8 || (a + n - 1) / sectionHbm != l / 8
       | none => true))

/-- The ranges that a descriptor reads. -/
def txRanges (s : State) (j : Job) : List (Nat × Nat) :=
  if txOp j.bytes = 1 then (if txLen j.bytes = 0 then [] else [(txSrc j.bytes, txLen j.bytes)])
  else (txBlocks s j).filterMap (fun e => e.map (fun x => (x.2.1, x.2.2)))

/-- The ranges that a descriptor reads with the checksums that it verifies (R62). -/
def txReads (s : State) (j : Job) : List (Nat × Nat) :=
  txRanges s j ++ (if txOp j.bytes = 2 then crcRange (txSource s j).homeDesc ((txBlocks s j).filterMap (fun e => e.map (·.1))) else [])

/-- The EPOCH of a descriptor's messages (R381). -/
def txEpoch (s : State) (c : Nat) : Nat := match (s.ctx c).group with | some g => (s.group g).epoch | none => 0

/-- A message header (R277). -/
def msgHeader (type tag epoch len : Nat) (dest : List Byte) (tally add : Nat) : List Byte :=
  leBytes 1 type ++ leBytes 1 0 ++ leBytes 2 tag ++ leBytes 4 epoch ++ leBytes 4 len ++ dest ++ leBytes 2 tally ++ leBytes 2 add

/-- The messages of a descriptor: only the last carries the remote tally (R381). -/
def txMessages (s : State) (j : Job) : List (List Byte × List Byte) :=
  let b := j.bytes
  let epoch := txEpoch s j.ctx
  let tallyOf (last : Bool) : Nat := if last then txTally b else 0xFFFF
  if txOp b = 1 then
    let n := max 1 (ceilDiv (txLen b) 65536)
    (upTo n).map (fun i =>
      let len := min 65536 (txLen b - 65536 * i)
      (msgHeader 1 (txDstTag b) epoch len (leBytes 8 (txHandle b) ++ leBytes 8 (txOffset b + 65536 * i))
        (tallyOf (i + 1 == n)) (txAdd b), readBytes s (txSrc b + 65536 * i) len))
  else
    let l := (txBlocks s j).filterMap id
    l.zipIdx.map (fun e =>
      let data := blockData s (e.1.2.1, e.1.2.2)
      let nb := txBlock b + e.2
      (msgHeader 2 (txDstTag b) epoch 4096 (leBytes 4 (txTensor b) ++ leBytes 4 nb ++ leBytes 4 j.version.toNat ++
        leBytes 4 (blockCrc (txTensor b) nb j.version data).toNat) (tallyOf (e.2 + 1 == l.length)) (txAdd b), data))

/-- Remember which context last named a destination, for the event of a REFUSE (R282). -/
def noteSent (x : Link) (ref : List Byte) (c : Nat) : Link :=
  { x with sentTo := x.sentTo.filter (fun e => e.1 != ref) ++ [(ref, c)] }

/-- The first block from the `k`-th on that needs its second read. -/
def txMismatch (s : State) (j : Job) (k : Nat) (pathError : Bool) : Option Nat :=
  let t := txSource s j
  let l := ((txBlocks s j).filterMap id).zipIdx.filter (fun e => decide (k ≤ e.2))
  (l.find? (fun e => (pathError && e.2 == k) || !blockGood s t j.version e.1.1 e.1.2.1 e.1.2.2)).map (·.2)

/-- Verify the blocks from the `k`-th on, then give the messages to the link (R62, R282); one that finds no credit holds a
Winter partition (R252). -/
def txRun (s : State) (l : Nat) (j : Job) (k : Nat) (pathError : Bool) : State :=
  match txMismatch s j k pathError with
  | some i => addCause (putJob s 5 l { j with phase := .reread i }) (s.ctx j.ctx).part 6 (rereadKey 5 l) none
  | none =>
    let ms := txMessages s j
    let s := putJob s 5 l { j with phase := .dataDone }
    let s := s.modLink l (fun x => { (ms.foldl (fun y m => noteSent y ((m.1.drop 12).take 8) j.ctx) x) with
      waiting := x.waiting ++ ms.map (fun m => { header := m.1, data := m.2, ctx := some j.ctx, job := true }) })
    let s := pump s l
    if (s.link l).waiting.any (fun m => chanOf m.header == 0) then addOpenCause s (s.ctx j.ctx).part 3 (creditKey l) else s

/-- Words of the retry buffer go bad; a resend of their flits will meet them (R273). `at_` numbers the flits of the buffer. -/
def spoilRetry (s : State) (l : Nat) (at_ : List Nat) : State :=
  s.modLink l (fun x => { x with
    retryBad := x.retryBad ++ (x.retry.zipIdx.filter (fun f => at_.contains f.2)).map (fun f => f.1.seq) })

/-- A link transmitter takes and sends its next descriptor (R282). An uncorrectable word in the transmit buffer
faults the context and retrains the link (R273). -/
def linkTransmitOp (l : Nat) (pathError bufferError : Bool) (s : State) : State :=
  match takeDesc s 5 l with
  | (s, none) => s
  | (s, some j) =>
    if txBad s l j then endFault s 5 l j 1 false
    else if (txRanges s j).any (fun r => !readOk s j.ctx r.1 r.2) then endFault s 5 l j 0x0E false
    else
      let j := { j with version := (txSource s j).desc.version }
      let (s, bad) := readAll s (txReads s j)
      match worstOf bad with
      | some poison => endFault s 5 l j 6 poison
      | none =>
        if bufferError then bufferFault (putJob s 5 l j) l else txRun s l j 0 pathError

/-- LINK_TRANSMIT (R282). -/
def execLinkTransmit (l : LinkId) (hits : List Hit) (pathError : Bool) (buffers : BufferErrors) (s : State) :
    Host.Outcome State Fault Refusal :=
  .next (spoilRetry (linkTransmitOp l.val pathError buffers.transmit (upsetWords s hits)) l.val buffers.retry)

/-- Every flit of the last message of the transmitter's descriptor is acknowledged; it does not end in a hold (R245, R274, R282). -/
def linkAcked (s : State) (l : Nat) : State :=
  match jobOf s 5 l with
  | some j =>
    let x := s.link l
    if j.phase = .dataDone && !x.waiting.any (·.job) && !x.parts.any (·.job) && !unitHeld s 5 l then
      let s := match x.lastData with
        | some q => if x.retry.any (fun f => f.seq == q) then
            pump (s.setLink l { x with retry := unacked x q, ackedSeq := q }) l else s
        | none => s
      endDone s 5 l j
    else s
  | none => s

/-- LINK_TRANSMIT_ACKED (R282). -/
def execLinkTransmitAcked (l : LinkId) (s : State) : Host.Outcome State Fault Refusal := .next (linkAcked s l.val)

/-- LINK_TX_WATCHDOG (R430): a message unacknowledged for 1 s while the link is UP. -/
def execLinkTxWatchdog (l : LinkId) (s : State) : Host.Outcome State Fault Refusal :=
  .next (match jobOf s 5 l.val with
    | some j => if linkState s l.val = 4 then engineWatchdog (dropUnsent s l.val) 5 l.val j else s
    | none => s)

/-- The second read of a transmitter's block ends (R63). -/
def linkReread (l : Nat) (pathError : Bool) (s : State) : State :=
  match jobOf s 5 l with
  | some j =>
    (match j.phase with
     | .reread i =>
       let s := dropCauses s (s.ctx j.ctx).part (fun c => c.field == 6 && c.key == rereadKey 5 l)
       (match ((txBlocks s j).filterMap id)[i]? with
        | some e =>
          if !pathError && blockGood s (txSource s j) j.version e.1 e.2.1 e.2.2 then
            let s := crcCleared s e.2.1
            if jobStopped s j then endStopped s 5 l j else txRun s l j (i + 1) false
          else endFault (crcFailed s e.2.1) 5 l j 7 false
        | none => endStopped s 5 l j)
     | _ => s)
  | none => s

/-- CRC_SECOND_READ (R63). -/
def execCrcSecondRead (site : CrcSite) (pathError : Bool) (s : State) : Host.Outcome State Fault Refusal :=
  .next (match site with
    | .mover m => moverReread m.val pathError s
    | .link l => linkReread l.val pathError s)

end Sys2Proof.Machine
end

