-- ==== Sys2Proof/Machine/Operands.lean ====
section
/-! DEFINITION. Operands of tiles: the fields of the tile descriptor (R150, R151), the views of its tensors (R152), the
formats an array accepts (R110, R111, R124), the planned length (R162) and the check of R155. -/

namespace Sys2Proof.Machine

/-! ### Fields of the descriptor (R150) -/

def tKind (b : List Byte) : Nat := bitsAt b 1 1 7 4
def tUnit (b : List Byte) : Nat := bitsAt b 1 1 3 0
def tOp (b : List Byte) : Nat := fieldAt b 2 1
def tInOrder (b : List Byte) : Bool := bitsAt b 3 1 7 7 == 1
def tKDesc (b : List Byte) : Bool := bitsAt b 3 1 6 6 == 1
def tFlow (b : List Byte) : Nat := bitsAt b 3 1 5 4
def tATrans (b : List Byte) : Bool := bitsAt b 3 1 3 3 == 1
def tBTrans (b : List Byte) : Bool := bitsAt b 3 1 2 2 == 1
def tBcast (b : List Byte) : Nat := bitsAt b 3 1 3 2
def tOutTrans (b : List Byte) : Bool := bitsAt b 3 1 1 1 == 1
def tTag (b : List Byte) : Nat := fieldAt b 4 2
def tParam (b : List Byte) : Nat := fieldAt b 28 4
def tA (b : List Byte) : Nat := fieldAt b 32 4
def tB (b : List Byte) : Nat := fieldAt b 36 4
def tOut (b : List Byte) : Nat := fieldAt b 40 4
def tInit (b : List Byte) : Nat := fieldAt b 44 4
def tAux (b : List Byte) : Nat := fieldAt b 48 4
def tStep (b : List Byte) : Nat := fieldAt b 52 4
def tSeed (b : List Byte) : Word := BitVec.ofNat 64 (fieldAt b 56 8)
def tM (b : List Byte) : Nat := fieldAt b 64 4
def tN (b : List Byte) : Nat := fieldAt b 68 4
def tK (b : List Byte) : Nat := fieldAt b 72 4
def tAOuter (b : List Byte) : Nat := fieldAt b 76 4
def tBOuter (b : List Byte) : Nat := fieldAt b 80 4
def tOutOuter (b : List Byte) : Nat := fieldAt b 84 4
def tAM (b : List Byte) : Nat := fieldAt b 88 4
def tAK (b : List Byte) : Nat := fieldAt b 92 4
def tBK (b : List Byte) : Nat := fieldAt b 96 4
def tBN (b : List Byte) : Nat := fieldAt b 100 4
def tOutM (b : List Byte) : Nat := fieldAt b 104 4
def tOutN (b : List Byte) : Nat := fieldAt b 108 4
def tAmaxAddr (b : List Byte) : Nat := fieldAt b 112 8
def tAmaxIndex (b : List Byte) : Nat := fieldAt b 120 4

/-- The unit of a core that a descriptor names, numbered as in UNIT_BUSY (R151, R168). -/
def tileUnit (b : List Byte) : Nat := if tKind b = 0 then tUnit b else if tKind b = 2 then 6 else 4 + tUnit b

/-- KIND and UNIT lie within R151. -/
def unitOk (b : List Byte) : Bool :=
  match tKind b with
  | 0 => decide (tUnit b < 4)
  | 2 => tUnit b == 0
  | 1 | 3 | 4 => decide (tUnit b < 2)
  | _ => false

/-! ### Views of tensors (R152) -/

/-- A rectangle of a tensor: rows from `row` and columns from `col` of its outer coordinate. -/
structure View where
  t : Tensor
  outer : Nat
  row : Nat
  col : Nat
  rows : Nat
  cols : Nat
  deriving DecidableEq, Repr

/-- The row of the tensor that a row of the view names. -/
def View.rowAt (v : View) (i : Nat) : Nat := v.outer * v.t.desc.dim1 + v.row + i

/-- The view lies within the tensor's dimensions (R155). -/
def View.inDims (v : View) : Bool :=
  decide (v.outer < v.t.desc.dim2 * v.t.desc.dim3) && decide (v.row + v.rows ≤ v.t.desc.dim1) &&
  decide (v.col + v.cols ≤ v.t.desc.dim0)

/-- The view begins and ends on whole bytes of a row (R75, R155). -/
def View.wholeBytes (v : View) : Bool :=
  v.col * v.t.desc.bits % 8 == 0 && ((v.col + v.cols) * v.t.desc.bits % 8 == 0 || v.col + v.cols == v.t.desc.dim0)

/-- The view covers whole blocks of a block-scaled tensor (R123). -/
def View.wholeScaled (v : View) : Bool :=
  !hasScales v.t.desc.format ||
  (v.col % v.t.desc.blockSize == 0 && (v.cols % v.t.desc.blockSize == 0 || v.col + v.cols == v.t.desc.dim0))

/-- The byte ranges of a view. -/
def View.ranges (v : View) : List (Nat × Nat) := (upTo v.rows).flatMap (fun i => rowRanges v.t.desc (v.rowAt i) v.col v.cols)

/-- The tensor of a tile's partition. -/
def tileTensor (s : State) (c id : Nat) : Tensor := s.tensor (s.ctx c).part id

/-- The view of A: `kindArray` tiles turn it by A_TRANS, others take M_COUNT rows of N_COUNT. -/
def viewA (s : State) (c : Nat) (b : List Byte) : View :=
  let t := tileTensor s c (tA b)
  if tKind b = 0 then
    if tATrans b then ⟨t, tAOuter b, tAK b, tAM b, tK b, tM b⟩ else ⟨t, tAOuter b, tAM b, tAK b, tM b, tK b⟩
  else ⟨t, tAOuter b, tAM b, tAK b, tM b, tN b⟩

/-- The view of B; BCAST of a VECTOR or SFU tile shrinks it to one row or one column. -/
def viewB (s : State) (c : Nat) (b : List Byte) : View :=
  let t := tileTensor s c (tB b)
  if tKind b = 0 then
    if tBTrans b then ⟨t, tBOuter b, tBK b, tBN b, tK b, tN b⟩ else ⟨t, tBOuter b, tBN b, tBK b, tN b, tK b⟩
  else ⟨t, tBOuter b, tBK b, tBN b, if tBcast b = 1 then 1 else tM b, if tBcast b = 2 then 1 else tN b⟩

/-- An operation of VECTOR that gives one value per row (R143). -/
def isRowOp (b : List Byte) : Bool := tKind b == 1 && within 0x0A 0x0C (tOp b)

/-- A view with the coordinates of OUT. -/
def viewOutOf (s : State) (c : Nat) (b : List Byte) (id : Nat) : View :=
  let t := tileTensor s c id
  if tKind b = 0 && tOutTrans b then ⟨t, tOutOuter b, tOutN b, tOutM b, tN b, tM b⟩
  else ⟨t, tOutOuter b, tOutM b, tOutN b, tM b, if isRowOp b then 1 else tN b⟩

/-- The view of a mask: one bit per element (R145). -/
def viewMask (s : State) (c : Nat) (b : List Byte) : View :=
  ⟨tileTensor s c (tAux b), tOutOuter b, tOutM b, tOutN b / 8, tM b, tN b / 8⟩

/-! ### Which tensors a tile uses -/

/-- The operation of a VECTOR tile takes B from a tensor. -/
def vecTakesB (b : List Byte) : Bool := within 0x01 0x07 (tOp b) && tBcast b != 3

/-- The views a tile reads (R150 to R153): A, B, INIT, and AUX as a mask or as initial indices. -/
def readViews (s : State) (c : Nat) (b : List Byte) : List View :=
  match tKind b with
  | 0 => [viewA s c b, viewB s c b] ++ (if tInit b = 0 then [] else [viewOutOf s c b (tInit b)]) ++
      (if tInit b != 0 && within 5 6 (tOp b) then [viewOutOf s c b (tAux b)] else [])
  | 1 => [viewA s c b] ++ (if vecTakesB b then [viewB s c b] else []) ++
      (if tOp b = 4 then [viewOutOf s c b (tInit b)] else []) ++ (if tOp b = 9 then [viewMask s c b] else [])
  | 2 => [viewA s c b] ++ (if tB b = 0 || tBcast b = 3 then [] else [viewB s c b])
  | 3 => [viewA s c b]
  | _ => []

/-- The view without the tails of an extended master. -/
def View.words (v : View) : View :=
  if isExt v.t.desc.format then { v with t := { v.t with desc := { v.t.desc with format := 0 } } } else v

/-- What a tile reads of its views: the binary32 words of an extended master alone in a VECTOR tile other than COPY and in an SFU
tile (R84, R142, R146). -/
def readParts (s : State) (c : Nat) (b : List Byte) : List View :=
  let l := readViews s c b
  if (tKind b = 1 ∧ tOp b ≠ 0) ∨ tKind b = 2 then l.map View.words else l

/-- The ranges that a tile reads, its maximum slots included. -/
def tileReads (s : State) (c : Nat) (b : List Byte) : List (Nat × Nat) :=
  (readParts s c b).flatMap View.ranges ++ (if tKind b = 4 then [(tAmaxAddr b, 4 * tAmaxIndex b)] else [])

/-- The views a tile writes. -/
def writeViews (s : State) (c : Nat) (b : List Byte) : List View :=
  match tKind b with
  | 0 => [viewOutOf s c b (tOut b)] ++ (if within 5 6 (tOp b) then [viewOutOf s c b (tAux b)] else [])
  | 1 => (if tOp b = 8 && tOut b = 0 then [] else [viewOutOf s c b (tOut b)]) ++ (if tOp b = 8 then [viewMask s c b] else [])
  | 2 | 3 => [viewOutOf s c b (tOut b)]
  | _ => []

/-- The identifiers that a tile must name. -/
def needIds (b : List Byte) : List Nat :=
  match tKind b with
  | 0 => [tA b, tB b, tOut b] ++ (if within 5 6 (tOp b) then [tAux b] else [])
  | 1 => [tA b] ++ (if vecTakesB b then [tB b] else []) ++ (if tOp b = 4 then [tInit b] else []) ++
      (if within 8 9 (tOp b) then [tAux b] else []) ++ (if tOp b = 8 then [] else [tOut b])
  | 2 | 3 => [tA b, tOut b]
  | _ => [tOut b]

/-- Every identifier that a tile names. -/
def namedIds (b : List Byte) : List Nat := [tA b, tB b, tOut b, tInit b, tAux b].filter (· != 0)

/-! ### Formats of the arrays -/

/-- The classes of R110, as numbers: H 0, F8 1, F6 2, F4 3, T 4, I8 5, I4 6; none for a refused format (R111). -/
def opClass (f : Nat) : Option Nat :=
  if f == 0x01 || f == 0x02 then some 0
  else if [0x10, 0x11, 0x30, 0x31, 0x35].contains f then some 1
  else if [0x12, 0x13, 0x32, 0x33, 0x41].contains f then some 2
  else if [0x14, 0x34, 0x40].contains f then some 3
  else if f == 0x42 then some 4
  else if f == 0x20 then some 5
  else if f == 0x21 then some 6
  else none

/-- 4P of a pair of classes (R110); none where the pair is refused (R111). -/
def quadP (a b : Nat) : Option Nat :=
  let x := min a b
  let y := max a b
  if x = 0 then (if y ≤ 3 then some 1 else none)
  else if y ≤ 3 then some (4 * (if x = 1 then 1 else if x = 2 then 2 else 4))
  else if y = 4 then (if x = 3 then some 32 else if x = 2 then some 8 else if x = 1 then some 4 else none)
  else if x = 5 then some 4
  else if x = 6 then some 16
  else none

/-- An unscaled floating-point format of 8 bits or fewer (R124). -/
def smallFloat (f : Nat) : Bool := within 0x10 0x14 f
/-- INT8 or INT4. -/
def smallInt (f : Nat) : Bool := f == 0x20 || f == 0x21

/-- The operand formats suit the operation (R111, R124). A ternary operand of MUL_ADD is always B. -/
def formatsOk (op fa fb : Nat) : Bool :=
  if op = 0 then
    (match opClass fa, opClass fb with | some a, some b => (quadP a b).isSome && a != 4 | _, _ => false)
  else if op = 9 then fa == 0x20 && fb == 0x20
  else (smallFloat fa && smallFloat fb) || (smallInt fa && smallInt fb)

/-- 4P of a tile (R110, R124). -/
def tileQuadP (s : State) (c : Nat) (b : List Byte) : Nat :=
  if tOp b = 0 then
    (match opClass (tileTensor s c (tA b)).desc.format, opClass (tileTensor s c (tB b)).desc.format with
     | some x, some y => (quadP x y).getD 4
     | _, _ => 4)
  else 4

/-- The tile computes in integers (R119, R124). -/
def intTile (s : State) (c : Nat) (b : List Byte) : Bool := smallInt (tileTensor s c (tA b)).desc.format

/-- Each accumulator takes 8 bytes (R130). -/
def wideAcc (s : State) (c : Nat) (b : List Byte) : Bool := intTile s c b || within 5 9 (tOp b)

/-! ### Planned length (R162) -/

/-- Hops between two sections of the 2 × 4 mesh (R21, R22). -/
def hops (a b : Nat) : Nat :=
  let dx := if a % 4 < b % 4 then b % 4 - a % 4 else a % 4 - b % 4
  dx + (if a / 4 = b / 4 then 0 else 1)

/-- The connections that a transfer from one section to another uses, in order, as a slot table names them: along the row to the
destination column, then across (R21, R22, R259). -/
def meshRoute (a b : Nat) : List Nat :=
  let c := a % 4
  let d := b % 4
  (if c ≤ d then (spanOf c (d - c)).map (· + 3 * (a / 4)) else (spanOf d (c - d)).reverse.map (· + 3 * (a / 4) + 16)) ++
  (if a / 4 = b / 4 then [] else [6 + d + (if b / 4 < a / 4 then 16 else 0)])

/-- The ranges that a tile writes, its maximum slot included (R166). -/
def tileWrites (s : State) (c : Nat) (b : List Byte) : List (Nat × Nat) :=
  (writeViews s c b).flatMap View.ranges ++
  (if tKind b = 4 ∨ tAmaxAddr b = 0 then [] else [(tAmaxAddr b + 4 * tAmaxIndex b, 4)])

/-- The sections of a range of Loam. -/
def rangeSecs (r : Nat × Nat) : List Nat := if inHbm r.1 r.2 then [] else (placeSecs r.1 r.2).getD []

/-- The resources of a slot table that a tile's reads and writes use (R164, R259): ports of the sections, connections between them and
its core, stacks. -/
def tileNeeds (s : State) (core c : Nat) (b : List Byte) : List (Nat × Nat) :=
  let k := coreSec core
  let reads := (tileReads s c b).flatMap rangeSecs
  let writes := (tileWrites s c b).flatMap rangeSecs
  (reads.flatMap (fun n => (1, n) :: (meshRoute n k).map (fun m => (3, m))) ++
   writes.flatMap (fun n => (2, n) :: (meshRoute k n).map (fun m => (3, m))) ++
   ((tileReads s c b ++ tileWrites s c b).filter (fun (r : Nat × Nat) => inHbm r.1 r.2)).map (fun (r : Nat × Nat) => (4, stackOf r.1))).eraseDups

/-- The sections that hold written data or a signalled tally. -/
def publishSecs (s : State) (c : Nat) (b : List Byte) : List Nat :=
  (tileWrites s c b).flatMap (fun r => (placeSecs r.1 r.2).getD []) ++
  (descSignals b).map (fun e => e.1 / 2048)

/-- The passes of an ARRAY tile, the input cycles of each, and the side of the logical array (R129, R162). -/
def arrayPasses (q flow m n k : Nat) : Nat × Nat × Nat :=
  let deep := if q = 1 then 64 else 32 * q
  let wide := if q = 1 then 64 else 128
  match flow with
  | 0 => (ceilDiv k deep * ceilDiv n wide, m, wide)
  | 2 => (ceilDiv k deep * ceilDiv m wide, n, wide)
  | _ => (ceilDiv m wide * ceilDiv n wide, if q = 1 then roundUp k 32 else ceilDiv (roundUp k 32 * 4) q, wide)

/-- The A-cycles in which an ARRAY tile streams (R162). -/
def arrayInput (q flow m n k : Nat) : Nat := let (passes, input, _) := arrayPasses q flow m n k; passes * input

/-- The stream phase of an ARRAY tile: its input cycles and the idle cycles between passes (R133, R162). -/
def arrayStream (q flow m n k : Nat) : Nat :=
  let (passes, input, wide) := arrayPasses q flow m n k
  passes * input + (passes - 1) * (wide - min wide input)

/-- The planned length of a tile of a core, the front not carrying (R162). -/
def plannedLength (s : State) (core c : Nat) (b : List Byte) : Nat :=
  let m := tM b
  let n := tN b
  let q := tileQuadP s c b
  let hop := (publishSecs s c b).foldl (fun a x => max a (hops (coreSec core) x)) 0
  let publish := 16 + 5 * hop
  let scaledOut := hasScales (tileTensor s c (tOut b)).desc.format
  let readBytes := sumNat ((readParts s c b).map (fun v => sumNat (v.ranges.map (·.2))))
  let writeBytes := sumNat ((writeViews s c b).map (fun v => sumNat (v.ranges.map (·.2))))
  let vec := max (ceilDiv (m * n) 256) (max (ceilDiv readBytes 1024) (ceilDiv writeBytes 512))
  32 + publish + (match tKind b with
    | 0 =>
      (if tFlow b = 1 then 0 else if q = 1 then 64 else 128) + (if tATrans b || tBTrans b then 128 else 0) +
      arrayStream q (tFlow b) m n (tK b) +
      (if tFlow b = 1 then (if q = 1 then 144 else 392) else if q = 1 then 136 else 264) +
      ceilDiv (m * n) 128 + (if scaledOut then 16 else 0) + (if tOutTrans b then 128 else 0)
    | 1 => vec + 8 + (if isRowOp b then 2 * Nat.log2 (2 * n - 1) else 0)
    | 2 => ceilDiv (m * n) 64 + 24
    | 3 => vec + 8 + 16 * (if scaledOut then ceilDiv n (tileTensor s c (tOut b)).desc.blockSize else 0)
    | _ => ceilDiv (tAmaxIndex b) 256 + 8)

/-! ### The check of R155 -/

/-- Fields of the descriptor that must be zero are not. -/
def tileReserved (b : List Byte) : Bool :=
  bitsAt b 3 1 0 0 != 0 || fieldAt b 6 2 != 0 || fieldAt b 124 4 != 0 ||
  (tKind b != 0 && (tKDesc b || tFlow b != 0 || tOutTrans b)) ||
  (3 ≤ tKind b && (tBcast b != 0 || tOp b != 0))

/-- The operation lies within R109, R143 or R146. -/
def opOk (b : List Byte) : Bool :=
  match tKind b with
  | 0 => decide (tOp b ≤ 9) && decide (tFlow b < 3)
  | 1 => decide (tOp b ≤ 0x0C)
  | 2 => decide (tOp b ≤ 4) && (match val32 (BitVec.ofNat 32 (tParam b)) with | .fin _ _ => true | _ => false)
  | _ => true

/-- A tensor's arrays lie in regions of the context with the permission (R36). -/
def tensorGranted (s : State) (c : Nat) (t : Tensor) (write : Bool) : Bool :=
  t.homeDesc.arrays.all (fun r => inPartition s (s.ctx c).part r.1 r.2 &&
    covered (ctxRegions s c) (fun x => if write then x.write else x.read) ((ctxRegions s c).length + 1) r.1 r.2)

/-- The arrays of a tensor lie in scratchpad Loam. -/
def inLoam (d : TensorDesc) : Bool := d.arrays.all (fun r => (loamPlace r.1 r.2).isSome)

/-- A unit of a core reaches every array of a tensor: in Loam, or in HBM through the cache part of its section (R23, R45). DEDUCED (log
entry 28): without a cache part nothing carries HBM to a unit, so a tile that names such a tensor is invalid. -/
def unitReaches (s : State) (d : TensorDesc) : Bool :=
  d.arrays.all (fun r => (loamPlace r.1 r.2).isSome ||
    (secUnits s (r.1 / sectionHbm) != 0 && secUnits s ((r.1 + r.2 - 1) / sectionHbm) != 0))

/-- The maximum slots of a tile may be used as it needs (R155, R166). -/
def slotsGranted (s : State) (c : Nat) (b : List Byte) : Bool :=
  let ok (a n : Nat) (w : Bool) : Bool := (loamPlace a n).isSome && inPartition s (s.ctx c).part a n &&
    covered (ctxRegions s c) (fun x => if w then x.write else x.read) ((ctxRegions s c).length + 1) a n
  if tKind b = 4 then ok (tAmaxAddr b) (4 * tAmaxIndex b) false
  else tAmaxAddr b == 0 || ok (tAmaxAddr b + 4 * tAmaxIndex b) 4 true

/-- The extents and starts of a tile (R155). -/
def extentsBad (s : State) (c : Nat) (b : List Byte) : Bool :=
  if 262144 < tK b then true
  else if tKind b = 4 then false
  else tM b == 0 || tN b == 0 || (tKind b == 0 && tK b == 0) ||
    (readViews s c b ++ writeViews s c b).any (fun v => !v.inDims || !v.wholeBytes) ||
    (tKind b == 1 && within 8 9 (tOp b) &&
      (tOutN b % 8 != 0 || tN b % 8 != 0 || (tileTensor s c (tAux b)).desc.format != 0x20))

/-- The formats and the destination of a tile (R111, R123, R124, R127, R130, R155). -/
def formatsBad (s : State) (c : Nat) (b : List Byte) : Bool :=
  let f (id : Nat) : Nat := (tileTensor s c id).desc.format
  let out := tileTensor s c (tOut b)
  match tKind b with
  | 0 => !formatsOk (tOp b) (f (tA b)) (f (tB b)) || !(viewOutOf s c b (tOut b)).wholeScaled || out.desc.twoPass ||
      decide ((if wideAcc s c b then 32768 else 65536) < tM b * tN b) || (within 5 6 (tOp b) && f (tAux b) != 0x22)
  | 1 | 2 => tOut b != 0 && (!(viewOutOf s c b (tOut b)).wholeScaled || out.desc.twoPass)
  | 3 => f (tA b) != 0 || !(viewOutOf s c b (tOut b)).wholeScaled
  | _ => !isKaolin out.desc.format || !out.desc.twoPass || tAmaxAddr b == 0 || tAmaxIndex b == 0

/-- The cause with which a descriptor faults its context when it enters the window, if it does (R155). -/
def tileCheck (s : State) (core c : Nat) (b : List Byte) : Option Nat :=
  if fieldAt b 0 1 ≠ 0x10 then some 2
  else if !unitOk b || !opOk b || tileReserved b || (needIds b).contains 0 ||
      (namedIds b).any (fun i => !tensorValid s (s.ctx c).part i) ||
      (readViews s c b).any (fun v => !tensorGranted s c v.t false || !unitReaches s v.t.desc) ||
      (writeViews s c b).any (fun v => !tensorGranted s c v.t true || !unitReaches s v.t.desc) ||
      (tKind b == 4 && !tensorGranted s c (tileTensor s c (tOut b)) true) ||
      !slotsGranted s c b || extentsBad s c b || formatsBad s c b || !talliesOwned s c b ||
      decide (4096 < plannedLength s core c b) then some 1
  else none

end Sys2Proof.Machine
end

