-- ==== Sys2Proof/Machine/Compute.lean ====
section
/-! DEFINITION. What tiles compute: reductions of the arrays (R109 to R128), operations of the vector units (R142 to R145),
the special-function unit (R146), CONVERT and SCALE tiles (R93, R151, R166). -/

namespace Sys2Proof.Machine

/-! ### One operand element of an array -/

/-- An element as an array sees it: its value without scales, its block scale, the identity of its block, its raw bits. -/
structure Elem where
  val : Val
  scale : Val
  block : Nat
  raw : Nat
  deriving DecidableEq, Repr

/-- The element of a view at row `i` and column `j`. -/
def View.elem (s : State) (v : View) (i j : Nat) : Elem :=
  let r := v.rowAt i
  let x := v.col + j
  { val := elemVal s v.t.desc r x, scale := elemScale s v.t.desc r x,
    block := if hasScales v.t.desc.format then r * v.t.desc.rowBlocks + x / v.t.desc.blockSize else 0,
    raw := elemRaw s v.t.desc r x }

/-- A[m, k] (R141, R152). -/
def aElem (s : State) (b : List Byte) (v : View) (m k : Nat) : Elem := if tATrans b then v.elem s k m else v.elem s m k
/-- B[k, n]. -/
def bElem (s : State) (b : List Byte) (v : View) (k n : Nat) : Elem := if tBTrans b then v.elem s k n else v.elem s n k

/-! ### The group of 32 (R113 to R117) -/

/-- round_group (R114): nearest, ties to even, an exact half with the sticky bit away from zero; infinity beyond the range; a result
of zero is +0 (R116). -/
def roundGroup (v : Rat) (sticky : Bool) : Val :=
  if v = 0 then vzero
  else
    let neg := decide (v < 0)
    let x := if v < 0 then -v else v
    let g := gridAt fB32 x
    let k := floorNat (x / g)
    let r := x / g - mkRat k 1
    let up := if r = mkRat 1 2 then sticky || k % 2 == 1 else decide (mkRat 1 2 < r)
    let y := g * mkRat (if up then k + 1 else k) 1
    if maxMag fB32 neg < y then .inf neg else if y = 0 then vzero else .fin neg y

/-- The aligned sum of finite products in the 80-bit window, and the sticky bit (R114). -/
def windowSum (l : List (Bool × Rat)) : Rat × Bool :=
  match (l.filter (fun p => p.2 != 0)).map (fun p => ilog2 p.2) with
  | [] => (0, false)
  | e :: es =>
    let lsb := pow2 (es.foldl max e - 73)
    l.foldl (fun a p =>
      let q := mkRat (floorNat (p.2 / lsb)) 1 * lsb
      (a.1 + sgn p.1 q, a.2 || q != p.2)) (0, false)

/-- The finite products of a list. -/
def finParts (l : List Val) : List (Bool × Rat) := l.filterMap (fun v => match v with | .fin n m => some (n, m) | _ => none)

/-- The result of a group of products (R114 to R116), its exact sum multiplied by `scale` before the rounding (R117). `full`
tells that the group holds 32 products and no padding. -/
def groupResult (l : List Val) (scale : Rat) (full : Bool) : Val :=
  let ninf := l.any (· == .inf true)
  let pinf := l.any (· == .inf false)
  if l.any (· == .nan) || (ninf && pinf) then .nan
  else if ninf then .inf true
  else if pinf then .inf false
  else
    let ps := finParts l
    if ps.all (fun p => p.2 == 0) then .fin (full && ps.all (·.1)) 0
    else
      let (v, sticky) := windowSum ps
      roundGroup (v * scale) sticky

/-- All elements of a list name one block. -/
def oneBlock (l : List Elem) : Bool := match l with | [] => true | e :: t => t.all (fun x => x.block == e.block)

/-- The scale of a list's first element. -/
def headScale (l : List Elem) : Val := match l with | [] => .fin false 1 | e :: _ => e.scale

/-- A group of MUL_ADD products (R112, R117). -/
def mulGroup (as bs : List Elem) : Val :=
  let full := as.length == 32
  match oneBlock as && oneBlock bs, headScale as, headScale bs with
  | true, .fin _ x, .fin _ y =>
    groupResult (List.zipWith (fun a b => vmul a.val b.val) as bs) (x * y) full
  | _, _, _ =>
    groupResult (List.zipWith (fun a b => vmul (vmul a.val a.scale) (vmul b.val b.scale)) as bs) 1 full

/-! ### Terms and groups of the other operations (R125 to R128) -/

/-- A − B. -/
def vsub (a b : Val) : Val := vadd a (vneg b)

/-- A term of a distance (R125). -/
def distTerm (op : Nat) (a b : Val) : Val := let d := vsub a b; if op = 1 then vabs d else vmul d d

/-- A term of a tropical operation (R126): none when absent. -/
def tropTerm (isInt : Bool) (a b : Val) : Option Val :=
  match a, b with
  | .nan, _ | _, .nan => none
  | a, b => match (if isInt then vadd a b else rnd32 (vadd a b)) with | .nan => none | v => some v

/-- A term supplies a result better than the present one (R101, R127). -/
def better (isMax : Bool) (new old : Val) : Bool :=
  if isMax then vlt old new || (veq old new && vsign old && !vsign new)
  else vlt new old || (veq new old && vsign new && !vsign old)

/-- A tropical result: the value and the index that supplies it. -/
abbrev Trop := Option (Val × Int)

/-- Take a term into a tropical result: NaN is replaced, and a tie keeps what came first (R101, R127). -/
def tropStep (isMax : Bool) (acc : Trop) (v : Val) (k : Int) : Trop :=
  match acc with
  | none => some (v, k)
  | some (o, i) => if o = .nan || better isMax v o then some (v, k) else some (o, i)

/-- A term of a counting operation (R128), as an added count. -/
def countTerm (op : Nat) (tau : Val) (a b : Elem) : Nat :=
  match op with
  | 7 => toBit (veq a.val b.val)
  | 8 => match vsub a.val b.val with
    | .nan => 0
    | d => toBit (let x := vabs d; vlt x tau || veq x tau)
  | _ => ((upTo 8).filter (fun i => bitOf a.raw i != bitOf b.raw i)).length

/-! ### One output of an ARRAY tile (R119, R121, R126) -/

/-- An accumulator: binary32, an integer, or a tropical result. -/
inductive Acc where
  | flt (v : Val)
  | int (v : Int)
  | trop (r : Trop)
  deriving DecidableEq, Repr

/-- An integer value as a number. -/
def asInt (v : Val) : Int :=
  match v with
  | .fin n m => let k : Int := floorNat (roundNear fInt32 m); if n then -k else k
  | _ => 0

/-- The largest magnitude of a 48-bit accumulator of a sign (R119). -/
def acc48Max (neg : Bool) : Int := if neg then -(2 ^ 47) else 2 ^ 47 - 1

/-- A value converted into a 48-bit integer accumulator: rounded and saturated, a NaN as zero (R98, R99, R121). -/
def asInt48 (v : Val) : Int :=
  match v with
  | .fin _ _ => max (acc48Max true) (min (acc48Max false) (asInt v))
  | .inf n => acc48Max n
  | .nan => 0

/-- The groups of a reduction range in accumulation order (R113, R153): first index and length. -/
def groupsOf (k : Nat) (desc : Bool) : List (Nat × Nat) :=
  let l := (upTo (ceilDiv k 32)).map (fun g => (32 * g, min 32 (k - 32 * g)))
  if desc then l.reverse else l

/-- Combine binary32 group results in order, the first entering unchanged (R121). -/
def accumulate (init : Option Val) (gs : List Val) : Val :=
  match init with
  | some v => gs.foldl add32 v
  | none => match gs with | [] => vzero | g :: t => t.foldl add32 g

/-- An accumulator over a reduction range (R112 to R128): operation, integer operands, order, length, the parameter of the
counting operations, the elements of A and B by index, and an initial value and index if they are named. -/
def reduce (op : Nat) (isInt desc : Bool) (k : Nat) (tau : Val) (ae be : Nat → Elem) (init : Option (Val × Int)) : Acc :=
  let gs := groupsOf k desc
  let ks (g : Nat × Nat) : List Nat := spanOf g.1 g.2
  let intInit : Int := match init with | some i => asInt48 i.1 | none => 0
  let fltInit : Option Val := init.map (fun i => rnd32 i.1)
  if op = 0 then
    if isInt then
      .int ((upTo k).foldl (fun a k => a + asInt (ae k).val * asInt (be k).val) intInit)
    else .flt (accumulate fltInit (gs.map (fun g => mulGroup ((ks g).map ae) ((ks g).map be))))
  else if op ≤ 2 then
    if isInt then .int ((upTo k).foldl (fun a k => a + asInt (distTerm op (ae k).val (be k).val)) intInit)
    else .flt (accumulate fltInit (gs.map (fun g =>
      groupResult ((ks g).map (fun k => distTerm op (ae k).val (be k).val)) 1 (g.2 == 32))))
  else if op ≤ 6 then
    let isMax := op == 4 || op == 6
    let start : Trop := init.map (fun i => (if isInt then ofRat false (asInt48 i.1) else rnd32 i.1, i.2))
    .trop (gs.foldl (fun a g => (ks g).foldl (fun a k => match tropTerm isInt (ae k).val (be k).val with
      | some v => tropStep isMax a v (k : Int)
      | none => a) a) start)
  else .int ((upTo k).foldl (fun a k => a + (countTerm op tau (ae k) (be k) : Int)) intInit)

/-- The parameter τ of COUNT_NEAR (R128). -/
def tileTau (isInt : Bool) (b : List Byte) : Val :=
  if isInt then ofRat false (signedOf 32 (tParam b) : Int) else val32 (BitVec.ofNat 32 (tParam b))

/-- The accumulator of output (m, n) of an ARRAY tile, from an initial value and index if they are named. -/
def arrayOutput (s : State) (c : Nat) (b : List Byte) (va vb : View) (init : Option (Val × Int)) (m n : Nat) : Acc :=
  let isInt := intTile s c b
  reduce (tOp b) isInt (tKDesc b) (tK b) (tileTau isInt b) (fun k => aElem s b va m k) (fun k => bElem s b vb k n) init

/-- The value that the drain converts (R118, R119, R126). -/
def Acc.drain (isInt isMax : Bool) (ts : Val) : Acc → Val
  | .flt v => vmul v ts
  | .int v => ofRat false v
  | .trop (some r) => r.1
  | .trop none =>
    if isInt then ofRat false (if isMax then (-2147483648 : Int) else (2147483647 : Int)) else .inf isMax

/-- The index of a tropical result; −1 without a term (R127). DESIGN CHOICE (log entry 131): with an initial value named and no
present term it is the initial index, a NaN initial value among them. -/
def Acc.index : Acc → Int
  | .trop (some r) => r.2
  | _ => -1

/-- The bits of an accumulator and its index, as the witness compares them (R204): binary32 in the low 32 bits, or a 48-bit integer. -/
def Acc.bits (isInt isMax : Bool) (a : Acc) : BitVec 48 × Word32 :=
  (match a with
   | .int v => BitVec.ofInt 48 v
   | a => let v := a.drain isInt isMax (.fin false 1)
     if isInt then BitVec.ofInt 48 (asInt v) else (word32 v).setWidth 48,
   BitVec.ofInt 32 a.index)

/-- An accumulator that holds given bits and index, of the kind of another. -/
def Acc.withBits (isInt : Bool) (w : BitVec 48) (index : Word32) : Acc → Acc
  | .flt _ => .flt (val32 (w.setWidth 32))
  | .int _ => .int w.toInt
  | .trop _ => .trop (some (if isInt then ofRat false w.toInt else val32 (w.setWidth 32), index.toInt))

/-- What a cell delivers of output `i`: its accumulator, or what an error of its own puts there (R137). -/
def Acc.faulty (isInt : Bool) (wrong : List CellError) (i : Nat) (a : Acc) : Acc :=
  match wrong.find? (fun e => e.out == i) with | some e => a.withBits isInt e.value e.index | none => a

/-! ### What a tile yields -/

/-- Cells to write, the conversion results of OUT, further poison marks and non-finite adds, the tensor scale set, and an ARRAY tile's
accumulators, as its cells deliver them and as its operands give them. -/
structure TileOut where
  res : OutRes := {}
  extra : List Cell := []
  nf : Nat := 0
  setScale : Option Word32 := none
  accs : List (List Acc) := []
  truth : List (List Acc) := []
  deriving DecidableEq, Repr

/-- Turn a table of rows. -/
def turned {α : Type} (d : α) (l : List (List α)) (n : Nat) : List (List α) :=
  (upTo n).map (fun j => l.map (fun r => r.getD j d))

/-- Write values through the view of a destination. -/
def outView (v : View) (cx : ConvCtx) (rows : List (List Val)) : OutRes := outRows v.t.desc cx (v.rowAt 0) v.col rows

/-- The maximum slot of a producing tile (R166): the largest magnitude of its outputs as binary32. -/
def amaxCells (b : List Byte) (rows : List (List Val)) : List Cell :=
  if tAmaxAddr b = 0 then []
  else
    let m := rows.foldl (fun a r => r.foldl (fun a v => vmax a (vabs (rnd32 v))) a) Val.nan
    cellsAt (tAmaxAddr b + 4 * tAmaxIndex b) (leBytes 4 (word32 m).toNat)

/-- Ternary 0b10 values in the operands of a tile (R75, R102, R200). -/
def badTerns (s : State) (vs : List View) : Nat :=
  sumNat (vs.map (fun v => countBadTern s v.t.desc (v.rowAt 0) v.rows v.col v.cols))

/-- The stored values of a view, as full values. -/
def View.vals (s : State) (v : View) : List (List Val) :=
  (upTo v.rows).map (fun i => (upTo v.cols).map (fun j => fullVal s v.t.desc (v.rowAt i) (v.col + j)))

/-- The initial value of output (m, n) and, in the ARG modes, its initial index (R121, R127). -/
def tileInit (s : State) (c : Nat) (b : List Byte) (m n : Nat) : Option (Val × Int) :=
  let at_ (v : View) : Val :=
    let e : Nat × Nat := if tOutTrans b then (n, m) else (m, n)
    fullVal s v.t.desc (v.rowAt e.1) (v.col + e.2)
  if tInit b = 0 then none
  else some (at_ (viewOutOf s c b (tInit b)),
    if within 5 6 (tOp b) then asInt (at_ (viewOutOf s c b (tAux b))) else 0)

/-- An ARRAY tile (R109, R121, R123) whose cells deliver some accumulators wrong (R137). -/
def arrayTile (s : State) (c : Nat) (b : List Byte) (wrong : List CellError) : TileOut :=
  let va := viewA s c b
  let vb := viewB s c b
  let vo := viewOutOf s c b (tOut b)
  let truth := (upTo (tM b)).map (fun m => (upTo (tN b)).map (fun n => arrayOutput s c b va vb (tileInit s c b m n) m n))
  let accs := truth.zipIdx.map (fun r => r.1.zipIdx.map (fun a => a.1.faulty (intTile s c b) wrong (r.2 * tN b + a.2)))
  let ts := vmul va.t.desc.tensorScale vb.t.desc.tensorScale
  let isMax := tOp b == 4 || tOp b == 6
  let vals := accs.map (fun r => r.map (fun a => a.drain (intTile s c b) isMax ts))
  let lay {α : Type} (d : α) (l : List (List α)) : List (List α) := if tOutTrans b then turned d l (tN b) else l
  let cx := convCtxOf vo.t (tSeed b) (tStep b)
  let res := outView vo cx (lay vzero vals)
  let aux := if within 5 6 (tOp b) then
      let vx := viewOutOf s c b (tAux b)
      (outView vx (convCtxOf vx.t 0 0) (lay vzero (accs.map (fun r => r.map (fun a => ofRat false a.index))))).cells
    else []
  { res := res, extra := aux ++ amaxCells b vals, accs := accs, truth := truth }

/-! ### Vector units -/

/-- The binary32 value of an element (R142). -/
def src32 (s : State) (d : TensorDesc) (r x : Nat) : Val := rnd32 (wordVal s d r x)

/-- Every tensor that a VECTOR tile uses has an integer format (R142). -/
def intVector (s : State) (c : Nat) (b : List Byte) : Bool :=
  [0, 1, 2, 6, 7].contains (tOp b) &&
  ([tA b, tOut b] ++ (if vecTakesB b then [tB b] else []) ++ (if tInit b = 0 then [] else [tInit b])).all
    (fun i => isIntFmt (tileTensor s c i).desc.format)

/-- PARAM as the tile reads it (R142). -/
def paramVal (isInt : Bool) (b : List Byte) : Val :=
  if isInt then ofRat false (signedOf 32 (tParam b) : Int) else val32 (BitVec.ofNat 32 (tParam b))

/-- b of element (i, j) under BCAST (R150). -/
def bcastVal (s : State) (b : List Byte) (vb : View) (isInt : Bool) (i j : Nat) : Val :=
  let read (i j : Nat) : Val :=
    if isInt then fullVal s vb.t.desc (vb.rowAt i) (vb.col + j) else src32 s vb.t.desc (vb.rowAt i) (vb.col + j)
  match tBcast b with
  | 3 => paramVal isInt b
  | 1 => read 0 j
  | 2 => read i 0
  | _ => read i j

/-- One round of the tree of R144: fold the upper half onto the lower. -/
def treeRound (f : Val → Val → Val) (l : List Val) : List Val :=
  let h := l.length / 2
  List.zipWith f (l.take h) (l.drop h)

/-- The tree of R144 over a list padded to `2 ^ fuel` elements. -/
def treeFold (f : Val → Val → Val) (pad : Val) : Nat → List Val → Val
  | 0, l => l.headD pad
  | fuel + 1, l => treeFold f pad fuel (treeRound f l)

/-- A row reduced in the fixed order of R144. -/
def rowTree (f : Val → Val → Val) (pad : Val) (l : List Val) : Val :=
  let n := Nat.log2 (2 * l.length - 1)
  treeFold f pad n (l ++ List.replicate (2 ^ n - l.length) pad)

/-- One element of a VECTOR tile's result (R143); row operations apart. -/
def vecElem (op : Nat) (a b c p : Val) (mask isInt : Bool) : Val :=
  let r (v : Val) : Val := if isInt then v else rnd32 v
  match op with
  | 0 => a
  | 1 => r (vadd a b)
  | 2 => r (vsub a b)
  | 3 => r (vmul a b)
  | 4 => fma32 a b c
  | 5 => fma32 a p b
  | 6 => vmin a b
  | 7 => vmax a b
  | 8 => if vlt p a then a else vzero
  | _ => if mask then a else vzero

/-- The mask bit of element (i, j) of a tile (R145). -/
def maskBit (s : State) (v : View) (i j : Nat) : Bool :=
  bitOf (elemRaw s v.t.desc (v.rowAt i) (v.col + j / 8)) (j % 8)

/-- A VECTOR tile (R143 to R145). -/
def vectorTile (s : State) (c : Nat) (b : List Byte) : TileOut :=
  let va := viewA s c b
  let vb := viewB s c b
  let vc := viewOutOf s c b (tInit b)
  let vm := viewMask s c b
  let op := tOp b
  let isInt := intVector s c b
  let aAt (i j : Nat) : Val :=
    if isInt || op == 0 then fullVal s va.t.desc (va.rowAt i) (va.col + j) else src32 s va.t.desc (va.rowAt i) (va.col + j)
  let p := paramVal false b
  let n := tN b
  let rows : List (List Val) := (upTo (tM b)).map (fun i =>
    if isRowOp b then
      let l := (upTo n).map (fun j => aAt i j)
      [if op = 0x0A then rowTree add32 vzero l
       else if op = 0x0B then rowTree vmax .nan l
       else rowTree vmax .nan (l.map vabs)]
    else (upTo n).map (fun j =>
      vecElem op (aAt i j) (if within 1 7 op then bcastVal s b vb isInt i j else vzero)
        (if op = 4 then src32 s vc.t.desc (vc.rowAt i) (vc.col + j) else vzero) p
        (op == 9 && maskBit s vm i j) isInt))
  let masks := if op = 8 then
      (upTo (tM b)).flatMap (fun i => (upTo (n / 8)).flatMap (fun g =>
        cellsAt (vm.t.desc.base + vm.rowAt i * vm.t.desc.rowBytes + vm.col + g)
          [BitVec.ofNat 8 (maskOf ((upTo 8).filter (fun k => vlt p (aAt i (8 * g + k)))))]))
    else []
  if tOut b = 0 then { extra := masks }
  else
    let vo := viewOutOf s c b (tOut b)
    { res := outView vo (convCtxOf vo.t (tSeed b) (tStep b)) rows, extra := masks ++ amaxCells b rows }

/-- An SFU tile (R146). DESIGN CHOICE (log entry 133): without a B the value b is 0, under BCAST 3 too. -/
def sfuTile (s : State) (c : Nat) (b : List Byte) : TileOut :=
  let va := viewA s c b
  let vb := viewB s c b
  let p := val32 (BitVec.ofNat 32 (tParam b))
  let rows := (upTo (tM b)).map (fun i => (upTo (tN b)).map (fun j =>
    let a := src32 s va.t.desc (va.rowAt i) (va.col + j)
    let y := if tB b = 0 then vzero else bcastVal s b vb false i j
    sfuFun (tOp b) (mul32 p (rnd32 (vsub a y)))))
  let vo := viewOutOf s c b (tOut b)
  { res := outView vo (convCtxOf vo.t (tSeed b) (tStep b)) rows, extra := amaxCells b rows }

/-- A CONVERT tile (R151, R166). -/
def convertTile (s : State) (c : Nat) (b : List Byte) : TileOut :=
  let vo := viewOutOf s c b (tOut b)
  { res := outView vo (convCtxOf vo.t (tSeed b) (tStep b)) ((viewA s c b).vals s) }

/-- The tensor scale of a maximum (R93, R166): the quotient rounded towards +∞, raised to the smallest normal. -/
def twoPassScale (f : EFmt) (m : Val) : Word32 :=
  match m with
  | .nan => 0x3F800000
  | .inf _ => 0x7F7FFFFF
  | .fin _ x =>
    if x = 0 then 0x3F800000
    else
      let q := x / ((elemMax f).1 * 114688)
      if q ≤ pow2 (-126) then 0x00800000
      else if maxMag fB32 false < q then 0x7F7FFFFF
      else
        let g := gridAt fB32 q
        let k := floorNat (q / g)
        BitVec.ofNat 32 (codeOf fB32 false (g * mkRat (if g * mkRat k 1 < q then k + 1 else k) 1))

/-- A SCALE tile (R166). -/
def scaleTile (s : State) (c : Nat) (b : List Byte) : TileOut :=
  let ws := (upTo (tAmaxIndex b)).map (fun i => val32 (BitVec.ofNat 32 (leNat (readBytes s (tAmaxAddr b + 4 * i) 4))))
  { setScale := some (twoPassScale (tileTensor s c (tOut b)).desc.elem (ws.foldl vmax .nan)) }

/-- What a tile yields, by its kind (R151), some cells of an array computing wrongly (R137). -/
def tileOutput (s : State) (c : Nat) (b : List Byte) (wrong : List CellError) : TileOut :=
  match tKind b with
  | 0 => arrayTile s c b wrong
  | 1 => vectorTile s c b
  | 2 => sfuTile s c b
  | 3 => convertTile s c b
  | _ => scaleTile s c b

end Sys2Proof.Machine
end

