-- ==== Sys2Proof/Machine/Optimizer.lean ====
section
/-! DEFINITION. The optimizer engine and the gate records (R209 to R219, R317, R430). -/

namespace Sys2Proof.Machine

/-! ### The descriptor (R217) -/

def oRule (b : List Byte) : Nat := fieldAt b 1 1
def oGated (b : List Byte) : Bool := bitsAt b 2 1 0 0 == 1
def oClip (b : List Byte) : Bool := bitsAt b 2 1 1 1 == 1
def oGate (b : List Byte) : Nat := fieldAt b 3 1
def oStep (b : List Byte) : Nat := fieldAt b 28 4
def oMaster (b : List Byte) : Nat := fieldAt b 32 4
def oGrad (b : List Byte) : Nat := fieldAt b 36 4
def oM1 (b : List Byte) : Nat := fieldAt b 40 4
def oM2 (b : List Byte) : Nat := fieldAt b 44 4
def oWork (b : List Byte) : Nat := fieldAt b 48 4
def oLr (b : List Byte) : Val := val32 (BitVec.ofNat 32 (fieldAt b 52 4))
def oBeta1 (b : List Byte) : Val := val32 (BitVec.ofNat 32 (fieldAt b 56 4))
def oBeta2 (b : List Byte) : Val := val32 (BitVec.ofNat 32 (fieldAt b 60 4))
def oEps (b : List Byte) : Val := val32 (BitVec.ofNat 32 (fieldAt b 64 4))
def oWd (b : List Byte) : Val := val32 (BitVec.ofNat 32 (fieldAt b 68 4))
def oC1 (b : List Byte) : Val := val32 (BitVec.ofNat 32 (fieldAt b 72 4))
def oC2 (b : List Byte) : Val := val32 (BitVec.ofNat 32 (fieldAt b 76 4))
def oStart (b : List Byte) : Nat := fieldAt b 80 8
def oCount (b : List Byte) : Nat := fieldAt b 88 8
def oAux (b : List Byte) : Nat := fieldAt b 96 8

/-- GATE_SNAPSHOT. -/
def oSnap (b : List Byte) : Bool := oRule b == 0xF

/-- The bytes that a rule does not use, as offset and length (R217). -/
def oUnused (b : List Byte) : List (Nat × Nat) :=
  [(6, 2), (104, 24)] ++ (if oGated b || oSnap b then [] else [(3, 1)]) ++
  (if oClip b || oSnap b then [] else [(96, 8)]) ++
  (match oRule b with
   | 0 => []
   | 1 => [(44, 4), (60, 4), (64, 4), (72, 8)]
   | 2 => [(40, 8), (56, 8), (64, 4), (72, 8)]
   | _ => [(2, 1), (32, 64)])

/-- The tensors that a descriptor reads, and those that it writes. -/
def oReads (b : List Byte) : List Nat :=
  match oRule b with
  | 0 => [oMaster b, oGrad b, oM1 b, oM2 b]
  | 1 => [oMaster b, oGrad b, oM1 b]
  | 2 => [oMaster b, oGrad b]
  | _ => []
def oWrites (b : List Byte) : List Nat :=
  (oReads b).filter (· != oGrad b) ++ (if oSnap b || oWork b = 0 then [] else [oWork b])

/-- β lies in [0.5, 1). -/
def betaOk (v : Val) : Bool := match v with | .fin false m => decide (mkRat 1 2 ≤ m) && decide (m < 1) | _ => false

/-- The formats of the named tensors are those of R217. -/
def oFormatsOk (t : Nat → TensorDesc) (b : List Byte) : Bool :=
  isExt (t (oMaster b)).format &&
  [0x00, 0x01, 0x02, 0x10, 0x11, 0x30, 0x31].contains (t (oGrad b)).format &&
  (2 ≤ oRule b || (t (oM1 b)).format == 0x51) && (1 ≤ oRule b || (t (oM2 b)).format == 0x52) &&
  (oWork b == 0 || !(isMoment (t (oWork b)).format || isExt (t (oWork b)).format || isIntFmt (t (oWork b)).format ||
    (t (oWork b)).twoPass))

/-- The dimensions of a descriptor. -/
def TensorDesc.dims (d : TensorDesc) : List Nat := [d.dim0, d.dim1, d.dim2, d.dim3]

/-- A gate that a descriptor names is a gate of its context. -/
def gateOwned (s : State) (c g : Nat) : Bool :=
  decide (g < 64) && (s.gate (s.ctx c).part g).present && (s.gate (s.ctx c).part g).ctx == c

/-- An optimizer descriptor is invalid (R155, R217). DESIGN CHOICE (log entry 144): one that names a tensor outside Loam, where alone
the engine reads and writes (R216), counts as invalid. -/
def optBad (s : State) (j : Job) : Bool :=
  let b := j.bytes
  let p := (s.ctx j.ctx).part
  let t (id : Nat) : TensorDesc := (s.tensor p id).desc
  fieldAt b 0 1 != 0x10 || !(oRule b ≤ 2 || oSnap b) || 4 ≤ fieldAt b 2 1 ||
  (oUnused b).any (fun e => fieldAt b e.1 e.2 != 0) || !talliesOwned s j.ctx b ||
  ((oGated b || oSnap b) && !gateOwned s j.ctx (oGate b)) ||
  ((oClip b || oSnap b) && (loamPlace (oAux b) (if oSnap b then 8 else 4)).isNone) ||
  (!oSnap b &&
    ((oReads b ++ oWrites b).any (fun id => !tensorValid s p id || !inLoam (t id) || (t id).dims != (t (oMaster b)).dims) ||
     (oReads b).any (fun id => !tensorGranted s j.ctx (s.tensor p id) false) ||
     (oWrites b).any (fun id => !tensorGranted s j.ctx (s.tensor p id) true) ||
     !oFormatsOk t b || (t (oMaster b)).dim0 % 128 != 0 || oStart b % 128 != 0 || oCount b % 128 != 0 ||
     decide ((t (oMaster b)).rows * (t (oMaster b)).dim0 < oStart b + oCount b) ||
     (oRule b ≤ 1 && !betaOk (oBeta1 b)) || (oRule b == 0 && !betaOk (oBeta2 b))))

/-! ### Gates (R209 to R214) -/

/-- A partition's gate records and non-finite counts are kept by its lowest section; the power of two of a loss scale as
binary32 (R209, R215). -/
def scaleWord (k : Int) : Word32 := word32 (.fin false (pow2 k))

/-- Keep every element of a gate's scale row equal to its loss scale (R209). -/
def writeScaleRow (s : State) (p : Nat) (g : Gate) : State :=
  let t := s.tensor p g.rowId
  if !t.present then s
  else writeMem s t.desc.base ((List.replicate t.desc.dim0 (leBytes 4 (scaleWord g.scaleLog).toNat)).flatten) true

/-- Clear a context's non-finite count (R200). -/
def clearNf (s : State) (c : Nat) : State := s.modCtx c (fun x => { x with nf := 0 })

/-- A decision on a count of non-finite values and a version flag (R210): the gate after it. -/
def decideGate (g : Gate) (step nf ver : Nat) : Gate :=
  let prior := g.scaleLog
  let g :=
    if nf ≠ 0 then
      let new := g.scaleLog - g.down
      { g with skipsNonfinite := satAdd 32 g.skipsNonfinite 1, clean := 0, lastDecision := 2,
               skipsAtFloor := if new < -16 then satAdd 32 g.skipsAtFloor 1 else g.skipsAtFloor,
               scaleLog := if new < -16 then -16 else new }
    else if ver ≠ 0 then { g with skipsVersion := satAdd 32 g.skipsVersion 1, lastDecision := 3 }
    else
      let clean := satAdd 32 g.clean 1
      if g.interval ≠ 0 ∧ clean = g.interval then
        { g with clean := 0, lastDecision := 1, scaleLog := min (g.scaleLog + g.up) 32 }
      else { g with clean := clean, lastDecision := 1 }
  { g with versionPending := false, lastNf := nf, lastStep := step, priorScaleLog := prior }

/-- Set the stamp of a tensor of a partition (R317). -/
def setStamp (s : State) (p id step : Nat) : State :=
  if (s.tensor p id).present then s.modTensor p id (fun t => { t with stamp := BitVec.ofNat 32 step }) else s

/-- Set the stamps of a descriptor's master and working copy (R317). -/
def setStamps (s : State) (p : Nat) (b : List Byte) : State :=
  forEach ((oMaster b) :: (if oWork b = 0 then [] else [oWork b])) s (fun id t => setStamp t p id (oStep b))

/-- The job obeys a gate's decision and keeps the scale held before it (R210, R211). -/
def obeyGate (s : State) (sec : Nat) (j : Job) (g : Gate) : State :=
  putJob (setStamps s (s.ctx j.ctx).part j.bytes) 4 sec { j with phase := .running, decision := g.lastDecision, unscale := g.priorScaleLog }

/-- A gate decision for the waiting descriptor of a section's optimizer engine (R210, R213). -/
def gateDecisionOp (sec : Nat) (s : State) : State :=
  match jobOf s 4 sec with
  | some j =>
    if j.phase ≠ .waitGate || unitHeld s 4 sec then s
    else
      let p := (s.ctx j.ctx).part
      let gi := oGate j.bytes
      let g := s.gate p gi
      let step := oStep j.bytes
      if g.lastDecision ≠ 0 ∧ step = g.lastStep then obeyGate s sec j g
      else if g.lastDecision ≠ 0 ∧ step < g.lastStep then endFault s 4 sec j 1 false
      else if g.group then
        let (s, bad) := readMem s g.nfAddr 8
        match worstOf bad with
        | some poison => endFault s 4 sec j 6 poison
        | none =>
          let b := readBytes s g.nfAddr 8
          let g := decideGate g step (fieldAt b 0 4) (fieldAt b 4 4)
          obeyGate (writeScaleRow (s.setGate p gi g) p g) sec j g
      else
        let g := decideGate g step (s.ctx j.ctx).nf (toBit g.versionPending)
        obeyGate (writeScaleRow ((clearNf s j.ctx).setGate p gi g) p g) sec j g
  | none => s

/-- GATE_DECISION (R210). -/
def execGateDecision (sec : Sec) (s : State) : Host.Outcome State Fault Refusal := .next (gateDecisionOp sec.val s)

/-! ### Taking a descriptor -/

/-- The optimizer engine takes its next descriptor (R216, R217); a gated one waits for its decision. -/
def optTake (s : State) (sec : Nat) : State :=
  match takeDesc s 4 sec with
  | (s, none) => s
  | (s, some j) =>
    if optBad s j then endFault s 4 sec j 1 false
    else if oGated j.bytes then putJob s 4 sec { j with phase := .waitGate }
    else s

/-- GATE_SNAPSHOT of the descriptor in the engine (R213): count and version flag to AUX_ADDR, the count cleared, signals. -/
def gateSnapshotRun (sec : Nat) (s : State) : State :=
  match jobOf s 4 sec with
  | some j =>
    if !oSnap j.bytes || j.phase ≠ .running || unitHeld s 4 sec then s
    else if !writeOk s j.ctx (oAux j.bytes) 8 then endFault s 4 sec j 0x0E false
    else
      let g := s.gate (s.ctx j.ctx).part (oGate j.bytes)
      let s := writeBytes s (oAux j.bytes) (leBytes 4 (s.ctx j.ctx).nf ++ leBytes 4 (toBit g.versionPending))
      endDone (clearNf s j.ctx) 4 sec j
  | none => s

/-- GATE_SNAPSHOT (R213). -/
def execGateSnapshot (sec : Sec) (s : State) : Host.Outcome State Fault Refusal :=
  .next (gateSnapshotRun sec.val (optTake s sec.val))

/-! ### The update (R218, R219) -/

/-- What the update of one element gives: whether it is kept, the new master, the new moments. -/
structure Updated where
  kept : Bool
  master : Val
  m1 : Val
  m2 : Val
  deriving DecidableEq, Repr

/-- Round to 31 fraction bits (R83). -/
def roundExt (v : Val) : Val := decodeElem fExt (convert fExt v none).code

/-- One element (R218): scale, clip factor, master, gradient and moments as binary32. -/
def updateElem (b : List Byte) (unscale : Val) (clip : Option Val) (w grad m1 m2 : Val) : Updated :=
  let one := Val.fin false 1
  let g := mul32 grad unscale
  let g := match clip with | some c => mul32 g c | none => g
  let w32 := rnd32 w
  let m := match oRule b with
    | 0 => add32 (mul32 (oBeta1 b) m1) (mul32 (rnd32 (vsub one (oBeta1 b))) g)
    | 1 => add32 (mul32 (oBeta1 b) m1) g
    | _ => g
  let v := if oRule b = 0 then add32 (mul32 (oBeta2 b) m2) (mul32 (rnd32 (vsub one (oBeta2 b))) (mul32 g g)) else vzero
  let dir := if oRule b = 0 then div32 (mul32 m (oC1 b)) (add32 (sqrt32 (mul32 v (oC2 b))) (oEps b)) else m
  let d := mul32 (oLr b) (add32 dir (mul32 (oWd b) w32))
  let new := roundExt (vsub w d)
  if [g, m, v, d, new].any nonFinite then ⟨true, w, m1, m2⟩ else ⟨false, new, m, v⟩

/-- The row and column of element `i` of a tensor (R87). -/
def elemAt (d : TensorDesc) (i : Nat) : Nat × Nat := (i / d.dim0, i % d.dim0)

/-- The update of a block of 128 elements from element `i`. -/
def updateBlock (s : State) (j : Job) (unscale : Val) (clip : Option Val) (i : Nat) : List Updated :=
  let b := j.bytes
  let t (id : Nat) : TensorDesc := (s.tensor (s.ctx j.ctx).part id).desc
  (spanOf i 128).map (fun k =>
    let at_ (id : Nat) : Val := let d := t id; src32 s d (elemAt d k).1 (elemAt d k).2
    let m := t (oMaster b)
    updateElem b unscale clip (fullVal s m (elemAt m k).1 (elemAt m k).2) (at_ (oGrad b))
      (if oRule b ≤ 1 then at_ (oM1 b) else vzero) (if oRule b = 0 then at_ (oM2 b) else vzero))

/-- The master's cells and counts: an element that is kept is not written (R219). -/
def masterOut (t : Tensor) (i : Nat) (us : List Updated) : OutRes :=
  let cx := convCtxOf t 0 0
  us.zipIdx.foldl (fun a e =>
    if e.1.kept then a else a.join (outRow t.desc cx (elemAt t.desc (i + e.2)).1 (elemAt t.desc (i + e.2)).2 [e.1.master])) {}

/-- A moment's cells and counts, never rounded stochastically (R219). -/
def momentOut (t : Tensor) (i : Nat) (vs : List Val) : OutRes :=
  outRow { t.desc with grad := false } (convCtxOf t 0 0) (elemAt t.desc i).1 (elemAt t.desc i).2 vs

/-- All that a descriptor writes, by tensor, with the number of elements kept. -/
def optOutputs (s : State) (j : Job) (unscale : Val) (clip : Option Val) (seed : Word) : List (Nat × OutRes) × Nat :=
  let b := j.bytes
  let t (id : Nat) : Tensor := s.tensor (s.ctx j.ctx).part id
  let work := t (oWork b)
  (upTo (oCount b / 128)).foldl (fun a k =>
    let i := oStart b + 128 * k
    let us := updateBlock s j unscale clip i
    let outs := [(oMaster b, masterOut (t (oMaster b)) i us)] ++
      (if oRule b ≤ 1 then [(oM1 b, momentOut (t (oM1 b)) i (us.map (·.m1)))] else []) ++
      (if oRule b = 0 then [(oM2 b, momentOut (t (oM2 b)) i (us.map (·.m2)))] else []) ++
      (if oWork b = 0 then [] else
        [(oWork b, outRow work.desc (convCtxOf work seed (oStep b)) (elemAt work.desc i).1 (elemAt work.desc i).2
          (us.map (·.master)))])
    (a.1 ++ outs, a.2 + (us.filter (·.kept)).length)) ([], 0)

/-- The byte ranges that a descriptor reads: its elements of each source tensor, and the clip factor. -/
def optRanges (s : State) (j : Job) : List (Nat × Nat) :=
  let b := j.bytes
  (oReads b).flatMap (fun id =>
    let d := (s.tensor (s.ctx j.ctx).part id).desc
    (upTo (oCount b / 128)).flatMap (fun k =>
      let e := elemAt d (oStart b + 128 * k)
      rowRanges d e.1 e.2 128)) ++
  (if oClip b then [(oAux b, 4)] else [])

/-- The loss scale that a descriptor unscales by (R211); an ungated one has none. -/
def unscaleOf (j : Job) : Val := if oGated j.bytes then .fin false (pow2 (-j.unscale)) else .fin false 1

/-- Counters of a descriptor that updated its range (R215, R221). -/
def optCount (s : State) (sec : Nat) (j : Job) (kept : Nat) : State :=
  let b := j.bytes
  let p := (s.ctx j.ctx).part
  let s := (s.bump fNumOptStatPartial sec 0 kept).bump fNumOptElementsElements sec 0 (oCount b - kept)
  if oGated b then s.modGate p (oGate b) (fun g => { g with partialCount := satAdd 32 g.partialCount kept }) else s

/-- The tensors that a descriptor marks POISONED (R102, R103): all it writes if a source is poisoned, else those that took a
NaN without having one. -/
def optPoison (s : State) (j : Job) (outs : List (Nat × OutRes)) : List Nat :=
  let p := (s.ctx j.ctx).part
  if (oReads j.bytes).any (fun id => (s.tensor p id).desc.poisoned) then oWrites j.bytes
  else ((outs.filter (fun e => e.2.poison)).map (·.1)).eraseDups

/-- The engine updates the range of the descriptor it holds (R218, R219); a skipped step writes no element (R211). A working
copy with GRAD set rounds stochastically with a seed that the spec does not state: a free value (log entry 9). -/
def optRun (sec : Nat) (s : State) : State :=
  match jobOf s 4 sec with
  | some j =>
    let b := j.bytes
    let p := (s.ctx j.ctx).part
    if oSnap b || j.phase ≠ .running || unitHeld s 4 sec then s
    else if oGated b && 2 ≤ j.decision then
      putJob (s.bump fNumOptStatSkippedDesc sec 0 1) 4 sec { j with phase := .dataDone }
    else if oClip b && !readOk s j.ctx (oAux b) 4 then endFault s 4 sec j 0x0E false
    else
      let (s, bad) := readAll s (optRanges s j)
      let clip := if oClip b then some (val32 (BitVec.ofNat 32 (leNat (readBytes s (oAux b) 4)))) else none
      let (seed, s) := if (s.tensor p (oWork b)).desc.grad && oWork b != 0 then s.freeDraw else (0, s)
      let (outs, kept) := optOutputs s j (unscaleOf j) clip seed
      let cells := outs.flatMap (fun e => e.2.cells)
      match worstOf bad with
      | some poison => endFault (partialWrites s cells) 4 sec j 6 poison
      | none =>
        if !cellsOk s j.ctx cells then
          endFault (partialWrites s (cells.filter (fun e => writeOk s j.ctx e.1 1))) 4 sec j 0x0E false
        else
          let ids := optPoison s j outs
          let s := optCount (writeCells s cells) sec j kept
          putJob s 4 sec { j with
            phase := .dataDone, isPartial := kept != 0, poison := !ids.isEmpty, poisonIds := ids,
            deltas := outs.map (fun e => (e.1, e.2.delta)), nf := sumNat (outs.map (fun e => e.2.nf)) }
  | none => s

/-- OPTIMIZER_UPDATE (R216 to R219): an idle engine takes its next descriptor; one that need not wait is executed. -/
def execOptimizerUpdate (sec : Sec) (hits : List Hit) (s : State) : Host.Outcome State Fault Refusal :=
  .next (optRun sec.val (optTake (upsetWords s hits) sec.val))

/-- A descriptor whose update is written ends (R197, R216, R317): counter adds and marks, the stamps of an ungated step, signals, the
record. -/
def optEnd (s : State) (sec : Nat) (j : Job) : State :=
  let p := (s.ctx j.ctx).part
  let s := addNf (applyDeltas s p j.deltas) j.ctx j.nf
  let s := poisonTensors s p j.poisonIds
  let s := if oGated j.bytes then s else setStamps s p j.bytes
  endDone s 4 sec j

/-- The descriptor of an optimizer engine ends, not in a hold (R216, R245). -/
def optComplete (sec : Nat) (s : State) : State :=
  match jobOf s 4 sec with
  | some j => if j.phase ≠ .dataDone || unitHeld s 4 sec then s else optEnd s sec j
  | none => s

/-- OPTIMIZER_COMPLETE (R216). -/
def execOptimizerComplete (sec : Sec) (s : State) : Host.Outcome State Fault Refusal := .next (optComplete sec.val s)

/-- OPTIMIZER_WATCHDOG (R430): a block was not completed within 100 µs. -/
def execOptimizerWatchdog (sec : Sec) (s : State) : Host.Outcome State Fault Refusal :=
  .next (match jobOf s 4 sec.val with
    | some j =>
      if j.phase = .waitGate || unitHeld s 4 sec.val then s
      else
        let (outs, _) := optOutputs s j (unscaleOf j) none 0
        let cells := if oSnap j.bytes || j.phase = .dataDone || 2 ≤ j.decision then [] else outs.flatMap (fun e => e.2.cells)
        engineWatchdog (partialWrites s (cells.filter (fun e => writeOk s j.ctx e.1 1))) 4 sec.val j
    | none => s)

end Sys2Proof.Machine
end

