-- ==== Sys2Proof/Machine/Tile.lean ====
section
/-! DEFINITION. Cores and their sequencers: windows, issue, completion, faults (R147 to R149, R155 to R160, R165 to R167),
slots (R190, R399, R400) and the rows of tallies and waits (R157, R158, R430). -/

namespace Sys2Proof.Machine

/-! ### The running slot -/

/-- A unit of a core (R138). -/
def coreUnit (s : State) (k u : Nat) : UnitState := tabGet .idle (s.core k).units u
/-- Set a unit. -/
def setUnit (s : State) (k u : Nat) (v : UnitState) : State :=
  s.modCore k (fun c => { c with units := tabSet .idle c.units u v, moved := aCycles s })

/-- The tiles issued and unfinished of a slot, those whose signals wait for a check among them (R206). -/
def slotRuns (s : State) (k i : Nat) : List TileRun := (coreTiles (s.core k)).filter (fun r => r.slot == i)

/-- The core belongs to a Winter partition. -/
def winterCore (s : State) (k : Nat) : Bool := match secPart s (coreSec k) with | some p => (s.part p).winter | none => false

/-- The work cycle of a core's partition (R244). -/
def coreWork (s : State) (k : Nat) : Nat := match secPart s (coreSec k) with | some p => (s.part p).work | none => 0

/-- The steps of an entry into a program slot still run: 1,300 A-cycles, work cycles in Winter (R403). -/
def entering (s : State) (k : Nat) : Bool :=
  let x := s.core k
  x.running.isSome &&
    (if winterCore s k then decide (coreWork s k < x.enteredWork + 1300) else decide (aCycles s < x.entered + 1300))

/-- Indices of a slot's descriptors that are in the window or issued, and not signalled. -/
def slotOpen (s : State) (k i : Nat) : List Nat :=
  (if (s.core k).running = some i then (s.core k).window.map (·.index) else []) ++ (slotRuns s k i).map (·.index)

/-- The oldest descriptor of a program not yet signalled (R168, R399). -/
def slotOldest (s : State) (k i : Nat) : Nat := (slotOpen s k i).foldl min (s.slot k i).next

/-- A slot is runnable (R399). -/
def runnable (s : State) (k i : Nat) : Bool := (s.slot k i).loaded && (s.slot k i).launched

/-- The class of a slot's context. -/
def slotBest (s : State) (k i : Nat) : Bool := (s.ctx (s.slot k i).ctx).bestEffort

/-- The work cycle of a completion is kept for the launches that list the slot; a poison mark too (R379). -/
def noteLaunch (s : State) (k i : Nat) (poison : Bool) : State :=
  let now := match secPart s (coreSec k) with | some p => (stampOf s p).2 | none => 0
  { s with host := { s.host with launches := s.host.launches.map (fun l =>
      if l.slots.contains (k, i) then { l with lastDone := now, poisoned := l.poisoned || poison } else l) } }

/-- A program whose last descriptor has signalled is complete (R147). -/
def checkComplete (s : State) (k i : Nat) : State :=
  let x := s.slot k i
  if x.launched && decide (x.count ≤ x.next) && (slotOpen s k i).isEmpty then
    s.setSlot k i { x with launched := false, signalled := [] }
  else s

/-- The first descriptor from index `n` on that has not signalled. -/
def nextIndex (x : Slot) : Nat → Nat → Nat
  | 0, n => n
  | fuel + 1, n => if x.signalled.contains n then nextIndex x fuel (n + 1) else n

/-- A descriptor has signalled, or was dropped: it is not run again when its slot is left and entered, and the fetch passes over
those that have signalled (R147, R399). -/
def markSignalled (s : State) (k i index : Nat) : State :=
  let s := s.modSlot k i (fun x =>
    let y := { x with signalled := x.signalled ++ [index] }
    { y with next := nextIndex y y.signalled.length y.next })
  let old := slotOldest s k i
  let s := s.modSlot k i (fun x => { x with signalled := x.signalled.filter (fun j => decide (old ≤ j)) })
  checkComplete s k i

/-- Enter a slot: its window is empty and fills from the oldest descriptor not signalled. -/
def enterSlot (s : State) (k : Nat) (i : Option Nat) : State :=
  s.modCore k (fun c => { c with running := i, entered := aCycles s, enteredWork := coreWork s k, moved := aCycles s, window := [],
                                 stopped := false })

/-- Leave the running slot: its place is kept (R399). -/
def leaveSlot (s : State) (k : Nat) : State :=
  match (s.core k).running with
  | some i =>
    let old := slotOldest s k i
    (s.modSlot k i (fun x => if x.launched then { x with next := old } else x)).modCore k (fun c => { c with window := [] })
  | none => s

/-! ### Faults inside a core (R167, R168) -/

/-- A core's fault: CORE_FAULT_LAST is written, then the context faults (R168, R423). -/
def coreFault (s : State) (k i index unit c cause : Nat) (poison : Bool) : State :=
  let w := 2 ^ 63 + cause * 2 ^ 48 + unit % 16 * 2 ^ 40 + i % 8 * 2 ^ 32 + index % 2 ^ 32
  let s := s.setRaw ⟨.coreFaultLast, k / 12, k % 12⟩ (BitVec.ofNat 64 w)
  ctxFault (s.modCore k (fun x => if x.running = some i then { x with stopped := true } else x)) c cause (coreSec k) k poison

/-! ### Fetching (R147, R148, R155, R156) -/

/-- The window of the running slot waits on unmet tallies only. -/
def windowWaits (s : State) (k : Nat) : Bool :=
  !(s.core k).window.isEmpty && (s.core k).window.all (fun d => !waitsMet s d.bytes)

/-- TILE_FETCH: the next descriptor of the running slot enters the window (R148), is dropped for its GEN_TAG (R156), or
faults its context (R36, R147, R155). DESIGN CHOICE (log entry 135): a fault of the fetch itself puts 0 into UNIT of
CORE_FAULT_LAST. -/
def tileFetchOp (k : Nat) (s : State) : State :=
  match (s.core k).running with
  | none => s
  | some i =>
    let x := s.slot k i
    let n := nextIndex x x.signalled.length x.next
    if partHeld s (s.ctx x.ctx).part || !runnable s k i || decide (16 ≤ (s.core k).window.length) || decide (x.count ≤ n)
    then s
    else if !readOk s x.ctx (x.base + 128 * n) 128 then coreFault (s.setSlot k i { x with next := n + 1 }) k i n 0 x.ctx 0x0E false
    else
      let (s, bad) := readMem s (x.base + 128 * n) 128
      let b := readBytes s (x.base + 128 * n) 128
      let s := s.setSlot k i { x with next := n + 1 }
      match worstOf bad with
      | some poison => coreFault s k i n 0 x.ctx 6 poison
      | none =>
        if tTag b ≠ x.tag then markSignalled (s.bump fCoreTilesDropped (k / 12) (k % 12) 1) k i n
        else match tileCheck s k x.ctx b with
          | some cause => coreFault s k i n (tileUnit b) x.ctx cause false
          | none => s.modCore k (fun c => { c with window := c.window ++ [⟨n, b, s.now, false, plannedLength s k x.ctx b⟩],
                                                   moved := if windowWaits s k then c.moved else aCycles s })

/-- TILE_FETCH (R148). -/
def execTileFetch (core : CoreId) (hits : List Hit) (s : State) : Host.Outcome State Fault Refusal :=
  .next (tileFetchOp core.val (upsetWords s hits))

/-! ### Issue (R148, R149) -/

/-- A latency-critical slot of the core is ready: its oldest unissued descriptor meets the conditions of R148 other than a
free unit (R399). -/
def slotReady (s : State) (k i : Nat) : Bool :=
  let x := s.slot k i
  let old := nextIndex x x.signalled.length x.next
  runnable s k i &&
  (if (s.core k).running = some i then
    (match (s.core k).window with
     | d :: _ => waitsMet s d.bytes && (!tInOrder d.bytes || (slotRuns s k i).isEmpty)
     | [] => decide (old < x.count) && waitsMet s (readBytes s (x.base + 128 * old) 128))
   else decide (old < x.count) && waitsMet s (readBytes s (x.base + 128 * old) 128))

/-- Slots of a core that are ready, of a class, other than one. -/
def readySlots (s : State) (k : Nat) (best : Bool) (other : Option Nat) : List Nat :=
  (upTo 8).filter (fun i => slotReady s k i && slotBest s k i == best && some i != other)

/-- A descriptor of the window meets the conditions of R148. -/
def canIssue (s : State) (k i : Nat) (w : List WinDesc) (d : WinDesc) : Bool :=
  let older := w.filter (fun e => decide (e.index < d.index))
  coreUnit s k (tileUnit d.bytes) == .idle && waitsMet s d.bytes &&
  (!tInOrder d.bytes || (older.isEmpty && (slotRuns s k i).all (fun r => decide (d.index < r.index)))) &&
  (!(match secPart s (coreSec k) with | some p => (s.part p).winter | none => false) || older.isEmpty)

/-- The witness block of a selected tile (R202), as row, column, rows and columns of its outputs. -/
def witnessBlock (seed : Word) (b : List Byte) (index : Nat) : Nat × Nat × Nat × Nat :=
  let u := keyed seed (tOut b) (tStep b) (BitVec.ofNat 64 (index + 2 ^ 32))
  let r := u % ceilDiv (tM b) 32
  let c := u / 256 % ceilDiv (tN b) 32
  (32 * r, 32 * c, min 32 (tM b - 32 * r), min 32 (tN b - 32 * c))

/-- The tapped operand bytes of a witness block (R203). -/
def tapBytes (s : State) (c : Nat) (b : List Byte) (rows cols : Nat) : Nat :=
  let bytes (id n : Nat) : Nat :=
    let d := (tileTensor s c id).desc
    n * (ceilDiv (tK b * d.bits) 8 + (if hasScales d.format then ceilDiv (tK b) d.blockSize else 0))
  bytes (tA b) rows + bytes (tB b) cols + (if tInit b = 0 then 0 else 4 * rows * cols)

/-- An ARRAY tile selected for sampling is sampled, or counted as skipped (R202, R203). The state, and whether it is
sampled. -/
def sampleTile (s : State) (k i c index : Nat) (b : List Byte) (accs truth : List (List Acc)) (tag : Nat) : State × Bool :=
  let n := coreSec k
  let p := (s.ctx c).part
  let seed := (s.part p).wseed
  if tKind b ≠ 0 || s.fld fNumCfgWitEnable n 0 = 0 ||
      (2 ^ (16 - min 16 (s.fld fNumCfgWitK n 0)) ≤ keyed seed (tOut b) (tStep b) (BitVec.ofNat 64 index) &&
        !bitOf (s.fld fHltGravelPosWatch n 0) (k % 12)) then (s, false)
  else
    let (r0, c0, rows, cols) := witnessBlock seed b index
    if (s.witness n).isSome || (s.gravel n).witnessSlice || s.fld fNumCfgWitOffline n 0 = 1 ||
        1310720 < tapBytes s c b rows cols then (s.bump fNumWitStatSkipped n 0 1, false)
    else
      let cut (l : List (List Acc)) : List Acc := ((l.drop r0).take rows).flatMap (fun r => (r.drop c0).take cols)
      let block := cut accs
      let isInt := intTile s c b
      let isMax := tOp b == 4 || tOp b == 6
      let va := viewA s c b
      let vb := viewB s c b
      let ts := vmul va.t.desc.tensorScale vb.t.desc.tensorScale
      let bits (v : View) (e : Nat × Nat) : Word32 := word32 (src32 s v.t.desc (v.rowAt e.1) (v.col + e.2))
      let a (m : Nat) : List Word32 := (upTo (tK b)).map (fun j => bits va (if tATrans b then (j, m) else (m, j)))
      let bt (j : Nat) : List Word32 := (upTo (tK b)).map (fun y => bits vb (if tBTrans b then (y, j) else (j, y)))
      let init (m j : Nat) : Option (Word32 × Int) := (tileInit s c b m j).map (fun v => (word32 v.1, v.2))
      let x : Sample :=
        { core := k, slot := i, array := tUnit b, ctx := c, tag := tag, index := index, bytes := b, row0 := r0, col0 := c0,
          rows := rows, cols := cols, isInt := isInt, accs := block.map (Acc.bits isInt isMax),
          truth := (cut truth).map (Acc.bits isInt isMax), narrow := block.map (fun v => word32 (v.drain isInt isMax ts)),
          aTap := (spanOf r0 rows).map a, bTap := (spanOf c0 cols).map bt,
          initTap := (spanOf r0 rows).flatMap (fun m => (spanOf c0 cols).map (init m)), tileDone := false }
      (s.setWitness n (some x), true)

/-- The key of the hold that a witness hold causes (R206). -/
def witnessKey (sec : Nat) : Nat := 2 ^ 20 + sec

/-- The addresses of a list of cells that lie in ranges. -/
def hitsRange (rs : List (Nat × Nat)) (a : Nat) : Bool := rs.any (fun r => decide (r.1 ≤ a) && decide (a < r.1 + r.2))

/-- The views of a tile's sources and destination name exactly the same range at the same coordinates, under whatever identifiers
(R154). -/
def sameRange (v w : View) : Bool :=
  v.rows == w.rows && v.cols == w.cols && v.t.desc.bits == w.t.desc.bits && v.ranges == w.ranges

/-- A VECTOR, SFU or CONVERT tile whose OUT overlaps a source otherwise than exactly writes unpredictable values to the
overlap: free values (R154, log entry 9). -/
def spoilOverlap (s : State) (c : Nat) (b : List Byte) (cells : List Cell) : State × List Cell :=
  if tKind b = 0 || tOut b = 0 then (s, cells)
  else
    let vo := viewOutOf s c b (tOut b)
    let rs := (((readViews s c b).zip (readParts s c b)).filter (fun v => !sameRange v.1 vo)).flatMap (fun v => v.2.ranges)
    let outs := vo.ranges
    cells.foldl (fun a e =>
      if hitsRange rs e.1 && hitsRange outs e.1 then
        let (w, t) := a.1.freeDraw
        (t, a.2 ++ [(e.1, w.setWidth 8)])
      else (a.1, a.2 ++ [e])) (s, [])

/-- The tensors that a tile writes and must mark: a NaN into a format without NaN, a ternary 0b10, or a poisoned source
(R102, R103). -/
def tilePoison (s : State) (c : Nat) (b : List Byte) (o : TileOut) (bad : Nat) : List Nat :=
  let dirty := (readViews s c b).any (fun v => v.t.desc.poisoned)
  let outs := (writeViews s c b).map (fun v => v.t.desc.id)
  if dirty || bad != 0 then outs else if o.res.poison then [tOut b] else []

/-- Corrected words of a core's feeder and drain buffers (R140, R434). -/
def feederCorrectedOp (s : State) (k n : Nat) : State :=
  forEach (upTo n) (s.bump fCoreFeederEccCorr (k / 12) (k % 12) n) (fun _ t => healthEvent t (huCore k) 3 4)

/-- The tile runs on its unit: what it will publish is computed, some cells perhaps computing wrongly (R137), or its context faults
(R36, R56, R121, R140, R167). DESIGN CHOICE (log entry 134): where several causes meet, a refused read is named first, then a memory
error, then a feeder word, then a refused write. -/
def startTile (s : State) (k i : Nat) (d : WinDesc) (corrected : Nat) (uncorrectable : Bool) (wrong : List CellError) : State :=
  let x := s.slot k i
  let c := x.ctx
  let b := d.bytes
  let u := tileUnit b
  let o := tileOutput s c b wrong
  let reads := tileReads s c b
  let bad := badTerns s (readViews s c b)
  let marks := tilePoison s c b o bad
  if !reads.all (fun r => readOk s c r.1 r.2) then coreFault s k i d.index u c 0x0E false else
  let (s, cells) := spoilOverlap s c b (o.res.cells ++ o.extra)
  let s := feederCorrectedOp s k corrected
  let (s, errs) := readAll s reads
  match worstOf errs with
  | some poison => coreFault (partialWrites s cells) k i d.index u c 6 poison
  | none =>
    if uncorrectable then
      let s := healthEvent (s.bump fCoreFeederEccUncorr (k / 12) (k % 12) 1) (huCore k) 13 1000
      coreFault (partialWrites s cells) k i d.index u c 4 false
    else if !cellsOk s c cells then
      coreFault (partialWrites s (cells.filter (fun e => writeOk s c e.1 1))) k i d.index u c 0x0E false
    else
      let (s, sampled) := sampleTile s k i c d.index b o.accs o.truth x.tag
      let hold := sampled && s.fld fNumCfgWitHold (coreSec k) 0 == 1
      let q := tileQuadP s c b
      let run : TileRun :=
        { slot := i, ctx := c, tag := x.tag, index := d.index, bytes := b, planned := d.planned,
          stream := if tKind b = 0 then arrayInput q (tFlow b) (tM b) (tN b) (tK b) else 0,
          writes := cells, poison := marks,
          deltas := if tKind b = 4 || tOut b = 0 then [] else [(tOut b, o.res.delta)],
          nf := o.res.nf + bad, setScale := o.setScale.map (fun v => (tOut b, v)), sampled := hold }
      setUnit s k u (.tile run)

/-- A wait of the oldest descriptor on an external tally that is not met holds a Winter partition until it is (R159). DESIGN CHOICE
(log entry 136): the hold is raised at once, though its unit be busy or a wait on another tally unmet. -/
def holdExternal (s : State) (k p : Nat) (d : WinDesc) : State :=
  forEach ((descWaits d.bytes).filter (fun w => !waitMet s w && (s.tally w.1).isExternal)) s (fun w t =>
    if (t.part p).causes.any (fun h => h.field == 5 && h.key == externalKey k w.1 && h.length.isNone) then t
    else addCause t p 5 (externalKey k w.1) none)

/-- An entry of the slot table that opens a core to its fill program (R193, R259). -/
def fillEntry (k : Nat) (e : SlotEntry) : Bool := e.holder == 0x0D && e.holderIndex == k && e.resource == 5

/-- The A-cycles left of the fill window in which a core stands; 0 outside its windows (R193, R258). -/
def fillLeft (s : State) (k : Nat) : Nat :=
  match secPart s (coreSec k) with
  | some p => windowLeft s p (fillEntry k)
  | none => 0

/-- A tile of a fill program fits in what remains of its window, which grants it the ports, connections and stacks that it uses
(R193). -/
def fillFits (s : State) (k c : Nat) (d : WinDesc) : Bool :=
  decide (d.planned ≤ fillLeft s k) &&
  (match secPart s (coreSec k) with
   | some p => (tileNeeds s k c d.bytes).all (fun n =>
       grantAhead s p d.planned (fun e => e.holder == 0x0D && e.holderIndex == k && e.resource == n.1 && e.resIndex == n.2))
   | none => false)

/-- TILE_ISSUE: the oldest descriptor that may issue does (R148, R149), once the slot has been entered (R403); a choice over an older
one is counted in Summer (R261). A best-effort slot issues nothing while a latency-critical slot is ready (R191, R400), a fill
program only what fits its window (R193), a held partition nothing (R246). -/
def tileIssueOp (k : Nat) (corrected : Nat) (uncorrectable : Bool) (wrong : List CellError) (s : State) : State :=
  match (s.core k).running, secPart s (coreSec k) with
  | some i, some p =>
    let w := (s.core k).window
    if partHeld s p || !runnable s k i || entering s k ||
        (!(s.part p).winter && slotBest s k i && !(readySlots s k false (some i)).isEmpty)
    then s
    else match w.find? (fun d => canIssue s k i w d && (!(s.slot k i).fillProgram || fillFits s k (s.slot k i).ctx d)) with
      | some d =>
        let s := if !(s.part p).winter && w.any (fun e => decide (e.index < d.index)) then
            s.bump fRplChoiceIssueIssue p 0 1 else s
        let s := s.modCore k (fun c => { c with window := c.window.filter (fun e => e.index != d.index) })
        startTile s k i d corrected uncorrectable wrong
      | none => match w with
        | d :: _ => holdExternal s k p d
        | [] => s
  | _, _ => s

/-- TILE_ISSUE (R148). -/
def execTileIssue (core : CoreId) (hits : List Hit) (feederCorrected : Nat) (upset : TileUpset)
    (s : State) : Host.Outcome State Fault Refusal :=
  .next (tileIssueOp core.val feederCorrected upset.feederUncorrectable upset.wrong (upsetWords s hits))

/-! ### Completion (R160, R197) -/

/-- Everything a tile publishes before its signals: writes, marks, the tensor scale, counter and non-finite adds. -/
def publishTile (s : State) (r : TileRun) : State :=
  let p := (s.ctx r.ctx).part
  let s := forEach ((writeViews s r.ctx r.bytes).flatMap View.ranges) s (fun a t => throughCache t a.1 a.2 true)
  let s := writeCells s r.writes
  let s := poisonTensors s p r.poison
  let s := match r.setScale with
    | some (id, v) => s.modTensor p id (fun t => if t.present then { t with desc := { t.desc with scale := v } } else t)
    | none => s
  addNf (applyDeltas s p r.deltas) r.ctx r.nf

/-- The tile signals: counted, its tallies added to, its descriptor signalled (R160); an add that overflows faults its context
(R157). -/
def signalTile (s : State) (k u : Nat) (r : TileRun) : State :=
  let s := s.bump fCoreTilesCompleted (k / 12) (k % 12) 1
  let s := noteLaunch s k r.slot (r.marked || !r.poison.isEmpty)
  let (s, full) := signalAll s r.bytes
  if full then coreFault s k r.slot r.index u r.ctx 3 false else markSignalled s k r.slot r.index

/-- The context of a tile has ended, or is another than the tile was issued for (R424). -/
def tileDead (s : State) (r : TileRun) : Bool :=
  (match (s.ctx r.ctx).mode with | .active => false | .stopping => false | _ => true) || r.tag != ctxTag s r.ctx

/-- A complete tile gives up its unit and waits, alone, for its exact check; a Winter partition is held until that passes (R206). -/
def holdTile (s : State) (k u : Nat) (r : TileRun) : State :=
  let r := { r with writes := [], poison := [], deltas := [], nf := 0, setScale := none, stream := 0, marked := !r.poison.isEmpty }
  let s := s.modWitness (coreSec k) (fun w => w.map (fun x => { x with tileDone := true }))
  let s := (setUnit s k u .idle).modCore k (fun c => { c with held := c.held ++ [(u, r)] })
  addCause s (s.ctx r.ctx).part 6 (witnessKey (coreSec k)) none

/-- TILE_COMPLETE: a finished tile publishes and signals (R160); under a witness hold its signals wait for the check (R206). The units
of a held partition stand still (R245). -/
def tileCompleteOp (k u : Nat) (s : State) : State :=
  match coreUnit s k u with
  | .tile r =>
    if secHeld s (coreSec k) then s
    else if tileDead s r then
      checkComplete (setUnit (s.bump fFltDropsALoam 0 0 (toBit (!r.writes.isEmpty))) k u .idle) k r.slot
    else
      let s := (s.bump fCoreBusyArrayCycles (k / 12) (k % 12) r.stream)
      let s := publishTile s r
      if r.sampled then holdTile s k u r else signalTile (setUnit s k u .idle) k u r
  | _ => s

/-- TILE_COMPLETE (R160). -/
def execTileComplete (core : CoreId) (unit : Fin 7) (s : State) : Host.Outcome State Fault Refusal :=
  .next (tileCompleteOp core.val unit.val s)

/-- SEQUENCER_WATCHDOG (R165, R434): the tile stops, WDOG_FIRED is set, its context faults with cause 0x05. The watchdogs of a held
partition stand still (R245). -/
def sequencerWatchdogOp (k u : Nat) (s : State) : State :=
  match coreUnit s k u with
  | .tile r =>
    if secHeld s (coreSec k) then s else
    let s := (setUnit s k u .idle).setFld fCoreStatusWdogFired (k / 12) (k % 12) 1
    let s := healthEvent s (huCore k) 5 10
    coreFault (partialWrites s r.writes) k r.slot r.index u r.ctx 5 false
  | _ => s

/-- SEQUENCER_WATCHDOG (R165). -/
def execSequencerWatchdog (core : CoreId) (unit : Fin 7) (s : State) : Host.Outcome State Fault Refusal :=
  .next (sequencerWatchdogOp core.val unit.val s)

/-! ### Tallies and waits -/

/-- A generation tag belongs to a context in TEARDOWN or DRAINING of a partition (R424). -/
def tagDropped (s : State) (p tag : Nat) : Bool :=
  s.objs.ctxs.any (fun e => e.2.part == p && e.2.gen % 65536 == tag &&
    (match e.2.mode with | .teardown => true | .draining => true | _ => false))

/-- TALLY_ADD (R158, R424): an add reaches its home, or is ignored there for its tag. -/
def execTallyAdd (tally : TallyId) (amount tag : Half) (s : State) : Host.Outcome State Fault Refusal :=
  .next (if tagDropped s (s.tally tally.val).part tag.toNat then s.bump fFltDropsATally 0 0 1
    else tallyAddOp s tally.val amount.toNat)

/-- The WAIT_REPORT event of a section's core, or of its collective engine as 0xF (R382). -/
def postWait (s : State) (sec core c : Nat) : State :=
  postPart s (s.ctx c).part 0xE6 (sec * 2 ^ 45 + core * 2 ^ 41 + c * 2 ^ 30)

/-- WAIT_LIMIT_REPORT (R165): an unmet wait of a window descriptor is reported once and counted. -/
def waitLimitOp (k index : Nat) (s : State) : State :=
  match (s.core k).running, (s.core k).window.find? (fun d => d.index == index) with
  | some i, some d =>
    if d.reported || waitsMet s d.bytes then s
    else
      let s := s.modCore k (fun c => { c with window := c.window.map (fun e =>
        if e.index = index then { e with reported := true } else e) })
      postWait (s.bump fCoreWdogWaitsReported (k / 12) (k % 12) 1) (coreSec k) (k % 12) (s.slot k i).ctx
  | _, _ => s

/-- WAIT_LIMIT_REPORT (R165). -/
def execWaitLimitReport (core : CoreId) (index : Nat) (s : State) : Host.Outcome State Fault Refusal :=
  .next (waitLimitOp core.val index s)

/-- A wait of a tile has lasted four times its limit (R430). -/
def tileWaitTimeout (k index : Nat) (s : State) : State :=
  match (s.core k).running, (s.core k).window.find? (fun d => d.index == index) with
  | some i, some d =>
    if waitsMet s d.bytes then s
    else coreFault (s.bump fFltWdogWaitFaults 0 0 1) k i index (tileUnit d.bytes) (s.slot k i).ctx 0x11 false
  | _, _ => s

/-! ### Slots (R190, R399) -/

/-- The bubble conditions of R190 but the last: the running slot's window waits, no tile of it is unfinished, and that has held for
the fill delay of its context. -/
def bubble (s : State) (k i : Nat) : Bool :=
  windowWaits s k && (slotRuns s k i).isEmpty && decide ((s.core k).moved + (s.ctx (s.slot k i).ctx).fill ≤ aCycles s)

/-- The first of some slots by launch order, then by number (R399). -/
def firstLaunched (s : State) (k : Nat) (l : List Nat) : Option Nat :=
  l.foldl (fun a i => match a with
    | none => some i
    | some j => if (s.slot k i).order < (s.slot k j).order then some i else some j) none

/-- The next ready best-effort slot in ascending order after one, wrapping. -/
def nextBest (s : State) (k i : Nat) : Option Nat :=
  let l := readySlots s k true (some i)
  match l.find? (fun j => decide (i < j)) with | some j => some j | none => l.head?

/-- Change to a slot; a change under one of the first four rows of R399 counts one SLOT choice in Summer (R261). -/
def changeSlot (s : State) (k : Nat) (j : Nat) (choice : Bool) : State :=
  let s := enterSlot (leaveSlot s k) k (some j)
  match secPart s (coreSec k) with
  | some p => if choice && !(s.part p).winter then s.bump fRplChoiceSlotSlot p 0 1 else s
  | none => s

/-- The slot table in force gives a core fill windows (R193, R259). -/
def hasFill (s : State) (k : Nat) : Bool :=
  match secPart s (coreSec k) with
  | some p => (match (s.part p).table with | some t => t.entries.any (fillEntry k) | none => false)
  | none => false

/-- The runnable slots of a core that run a fill program, or that do not. -/
def winterSlots (s : State) (k : Nat) (fill : Bool) : List Nat :=
  (upTo 8).filter (fun i => runnable s k i && (s.slot k i).fillProgram == fill)

/-- The next slot of a core in Winter: slots run in the order of the launch list, each to its completion; a fill program
leaves when its window ends (R193, R402). -/
def winterChange (s : State) (k : Nat) : State :=
  let next := firstLaunched s k (winterSlots s k false)
  match (s.core k).running with
  | none => (match next with | some j => enterSlot s k (some j) | none => s)
  | some i =>
    if !(slotRuns s k i).isEmpty then s
    else if !runnable s k i then (match next with | some j => changeSlot s k j false | none => enterSlot s k none)
    else if (s.slot k i).fillProgram && fillLeft s k == 0 then
      (match next with | some j => changeSlot s k j false | none => enterSlot (leaveSlot s k) k none)
    else s

/-- A fill window begins: the core enters its fill program, where the window holds the steps of the entry (R193, R403). -/
def winterFill (s : State) (k : Nat) : State :=
  let idle := match (s.core k).running with | some i => (slotRuns s k i).isEmpty && !(s.slot k i).fillProgram | none => true
  match firstLaunched s k (winterSlots s k true) with
  | some j => if decide (1300 ≤ fillLeft s k) && idle then changeSlot s k j false else s
  | none => s

/-- SLOT_CHANGE (R399): while no tile of the running slot is issued and unfinished, the first row that applies decides. The sequencers
of a held partition stand still (R245). -/
def slotChangeOp (k : Nat) (s : State) : State :=
  if secHeld s (coreSec k) then s else
  if winterCore s k then winterChange s k else
  let c := s.core k
  let critical := readySlots s k false c.running
  let best := readySlots s k true c.running
  match c.running with
  | none =>
    (match firstLaunched s k (if critical.isEmpty then best else critical) with
     | some j => enterSlot s k (some j)
     | none => s)
  | some i =>
    if !(slotRuns s k i).isEmpty then s
    else if !runnable s k i then
      (match firstLaunched s k (if critical.isEmpty then best else critical) with
       | some j => changeSlot s k j false
       | none => enterSlot s k none)
    else if slotBest s k i then
      (match firstLaunched s k critical with
       | some j => changeSlot s k j true
       | none =>
         if decide (c.entered + 262144 ≤ aCycles s) && !best.isEmpty then
           (match nextBest s k i with | some j => changeSlot s k j true | none => s)
         else s)
    else if bubble s k i then
      (match firstLaunched s k critical with | some j => changeSlot s k j true | none => s)
    else s

/-- SLOT_CHANGE (R399). -/
def execSlotChange (core : CoreId) (s : State) : Host.Outcome State Fault Refusal := .next (slotChangeOp core.val s)

/-- BUBBLE_FILL (R190): a latency-critical slot whose window has waited for its context's fill delay gives way to a ready
best-effort slot of the same partition; in Winter a fill window begins instead (R193). -/
def bubbleFillOp (k : Nat) (s : State) : State :=
  if secHeld s (coreSec k) then s else
  if winterCore s k then winterFill s k else
  match (s.core k).running, secPart s (coreSec k) with
  | some i, some _ =>
    if slotBest s k i || !bubble s k i || !(readySlots s k false (some i)).isEmpty then s
    else match firstLaunched s k (readySlots s k true (some i)) with
      | some j => changeSlot s k j true
      | none => s
  | _, _ => s

/-- BUBBLE_FILL (R190). -/
def execBubbleFill (core : CoreId) (s : State) : Host.Outcome State Fault Refusal := .next (bubbleFillOp core.val s)

end Sys2Proof.Machine
end

