-- ==== Sys2Proof/Machine/Collective.lean ====
section
/-! DEFINITION. The collective engine: trees, splits, chunks, stages and progress of a descriptor (R299 to R325), and the wait
limits of tiles and collectives (R315, R430). -/

namespace Sys2Proof.Machine

/-! ### The descriptor (R307) -/

def cOp (b : List Byte) : Nat := fieldAt b 1 1
def cStats (b : List Byte) : Bool := bitsAt b 2 1 0 0 == 1
def cRegather (b : List Byte) : Bool := bitsAt b 2 1 1 1 == 1
def cCheck (b : List Byte) : Bool := bitsAt b 2 1 2 2 == 1
def cWireBF16 (b : List Byte) : Bool := bitsAt b 2 1 3 3 == 1
def cGate (b : List Byte) : Nat := fieldAt b 3 1
def cComm (b : List Byte) : Nat := fieldAt b 6 2
def cStep (b : List Byte) : Nat := fieldAt b 28 4
def cSeed (b : List Byte) : Word := BitVec.ofNat 64 (fieldAt b 32 8)
def cSrc (b : List Byte) : Nat := fieldAt b 40 4
def cDst (b : List Byte) : Nat := fieldAt b 44 4
def cExpect (b : List Byte) : Nat := fieldAt b 48 4
def cMb (b : List Byte) : Nat := fieldAt b 52 4
def cCount (b : List Byte) : Nat := fieldAt b 56 8
def cSplit (b : List Byte) : Nat := fieldAt b 64 8
def cNewSplit (b : List Byte) : Nat := fieldAt b 72 8
def cStampAddr (b : List Byte) : Nat := fieldAt b 80 8
def cStatsAddr (b : List Byte) : Nat := fieldAt b 88 8
def cGranule (b : List Byte) : Nat := fieldAt b 96 4
def cRop (b : List Byte) : Nat := fieldAt b 100 1
/-- The operation does arithmetic: ALL_REDUCE and REDUCE_SCATTER. -/
def cReduces (b : List Byte) : Bool := decide (cOp b ≤ 1)

/-! ### Ranks, shards and trees (R300, R301, R311) -/

/-- The group is two-level. -/
def twoLevel (x : Comm) : Bool := x.o != 0
/-- Shards of a group: its ranks, or the ranks of an outer group. -/
def shardCount (x : Comm) : Nat := if twoLevel x then x.o else x.p
/-- This rank's shard. -/
def myShard (x : Comm) : Nat := if twoLevel x then x.rank / x.i else x.rank
/-- The rank that holds shard `o` where this rank exchanges it: in its own outer group. -/
def ownerRank (x : Comm) (o : Nat) : Nat := if twoLevel x then o * x.i + x.rank % x.i else o

/-- A rank's entry in a tree table. -/
def rankEntry (x : Comm) (table r : Nat) : RankEntry :=
  (x.tables.getD table []).getD r { parent := 0xFFFF, parentRoute := 0xFF, children := [], bad := true }

/-- Rank `r` lies in the subtree of rank `a`. -/
def inSub (x : Comm) (table a : Nat) : Nat → Nat → Bool
  | 0, r => r == a
  | fuel + 1, r =>
    if r = a then true
    else
      let p := (rankEntry x table r).parent
      if p = 0xFFFF then false else inSub x table a fuel p

/-- Rank `r` lies under this rank, itself included. -/
def underMe (x : Comm) (table r : Nat) : Bool := inSub x table x.rank x.p r

/-- This rank has a parent. -/
def hasParent (x : Comm) (table : Nat) : Bool := (rankEntry x table x.rank).parent != 0xFFFF

/-- This rank's children, as peer numbers 1 to c with their ranks. -/
def kids (x : Comm) (table : Nat) : List (Nat × Nat) :=
  (rankEntry x table x.rank).children.zipIdx.map (fun e => (e.2 + 1, e.1.1))

/-- The children whose subtree holds a rank that satisfies a test over a list of ranks. -/
def kidsOver (x : Comm) (table : Nat) (rs : List Nat) : List Nat :=
  ((kids x table).filter (fun e => rs.any (fun r => inSub x table e.2 x.p r))).map (·.1)

/-- The canonical split (R311). -/
def canonicalSplit (count granule p : Nat) : List Nat :=
  let g := ceilDiv count (max 1 granule)
  let q := g / max 1 p
  let e := g % max 1 p
  (upTo (p + 1)).map (fun r => min count (granule * (r * q + min r e)))

/-- A split: the offset list at an address, or the canonical one (R311). -/
def splitAt (s : State) (x : Comm) (b : List Byte) (a : Nat) : List Nat :=
  if a = 0 then canonicalSplit (cCount b) (cGranule b) (shardCount x)
  else (upTo (shardCount x + 1)).map (fun r => leNat (readBytes s (a + 8 * r) 8))

/-- Elements of shard `o` under a split. -/
def shardLen (off : List Nat) (o : Nat) : Nat := off.getD (o + 1) 0 - off.getD o 0

/-- A chunk: number, shard, first element in the whole tensor, elements (R309). -/
structure CChunk where
  no : Nat
  owner : Nat
  first : Nat
  count : Nat
  deriving DecidableEq, Repr

/-- The blocks, or elements of an unscaled format, that a chunk of `chunk` bytes holds. Scales and tails count among the bits of an
element (R76). DESIGN CHOICE (log entry 148): a chunk of a block-scaled tensor holds whole blocks, each with its scale byte. -/
def chunkUnits (d : TensorDesc) (chunk : Nat) : Nat :=
  if hasScales d.format then chunk / (d.blockSize * d.bits / 8 + 1) else chunk * 8 / (if isExt d.format then 40 else d.bits)

/-- The chunks of a split of a tensor laid out as `d`, shard by shard (R309). -/
def chunkList (d : TensorDesc) (off : List Nat) (shards chunk : Nat) : List CChunk :=
  let u := max 1 (chunkUnits d chunk)
  ((upTo shards).flatMap (fun o =>
    let a := off.getD o 0
    let z := off.getD (o + 1) 0
    let k := blockIdx d a
    if z ≤ a then []
    else (upTo ((blockIdx d (z - 1) - k) / u + 1)).map (fun i =>
      let first := max a (blockFirst d (k + i * u))
      (o, first, min z (blockFirst d (k + (i + 1) * u)) - first)))).zipIdx.map (fun e => ⟨e.2, e.1.1, e.1.2.1, e.1.2.2⟩)

/-! ### Stages (R308, R321) -/

/-- What a stage does with a chunk on its tree. -/
inductive CKind where
  | all | scatter | gather | move | stats
  deriving DecidableEq, Repr

/-- A stage: what it does, and whether over the inner groups. -/
structure CStage where
  kind : CKind
  inner : Bool
  deriving DecidableEq, Repr

/-- The stages of an operation. -/
def stagesOf (x : Comm) (b : List Byte) : List CStage :=
  let main : List CStage := match cOp b, twoLevel x with
    | 0, false => [⟨.all, false⟩]
    | 0, true => [⟨.scatter, false⟩, ⟨.all, true⟩, ⟨.gather, false⟩]
    | 1, false => [⟨.scatter, false⟩]
    | 1, true => [⟨.scatter, false⟩, ⟨.all, true⟩]
    | 4, _ => [⟨.move, false⟩]
    | _, _ => [⟨.gather, false⟩]
  main ++ (if cStats b && cReduces b then [⟨.stats, false⟩] ++ (if twoLevel x then [⟨.stats, true⟩] else []) else [])

/-- All that progress reads and does not change. -/
structure CEnv where
  sec : Nat
  comm : Nat
  x : Comm
  b : List Byte
  ctx : Nat
  src : Tensor
  dst : Tensor
  isInt : Bool
  form : TensorDesc
  off : List Nat
  newOff : List Nat
  chunks : List CChunk
  stages : List CStage
  seq : Nat
  deriving DecidableEq, Repr

/-- The splits of a descriptor, old and new (R311, R324). -/
def collSplits (s : State) (sec : Nat) (b : List Byte) : List Nat × List Nat :=
  let x := s.comm sec (cComm b)
  let off := splitAt s x b (cSplit b)
  (off, if cOp b = 4 then splitAt s x b (cNewSplit b) else off)

/-- The layout in which a descriptor's elements are counted: that of the tensor which is whole (R308); in a RESHARD, SRC's or, without
it, DST's. -/
def collForm (b : List Byte) (src dst : Tensor) : TensorDesc :=
  if cReduces b then src.desc else if cOp b = 4 && cSrc b != 0 then src.desc else dst.desc

/-- The environment of a descriptor, with the splits that it read. -/
def collEnv (s : State) (sec : Nat) (j : Job) : CEnv :=
  let b := j.bytes
  let p := (s.ctx j.ctx).part
  let x := s.comm sec (cComm b)
  let src := s.tensor p (cSrc b)
  let dst := s.tensor p (cDst b)
  let form := collForm b src dst
  { sec := sec, comm := cComm b, x := x, b := b, ctx := j.ctx, src := src, dst := dst,
    isInt := src.desc.format == 0x22 && dst.desc.format == 0x22, form := form, off := j.coll.off, newOff := j.coll.newOff,
    chunks := chunkList form j.coll.off (shardCount x) x.chunk, stages := stagesOf x b, seq := j.lastSeq }

/-- The present stage. -/
def CEnv.stage (e : CEnv) (r : CollRun) : Option CStage := e.stages[r.stage]?

/-- The chunks of a stage: an inner stage moves its shard's, the statistics are one chunk after the last. -/
def CEnv.stageChunks (e : CEnv) (st : CStage) : List CChunk :=
  match st.kind with
  | .stats => [⟨e.chunks.length, myShard e.x, 0, 6⟩]
  | _ => if st.inner then e.chunks.filter (fun k => k.owner == myShard e.x) else e.chunks

/-- The tree of a chunk, and its table. -/
def CEnv.treeOf (e : CEnv) (st : CStage) (k : CChunk) : Nat := if st.kind = .stats then 0 else k.no % max 1 e.x.t
def CEnv.tableOf (e : CEnv) (st : CStage) (k : CChunk) : Nat := (if st.inner then e.x.t else 0) + e.treeOf st k

/-- The owner of a chunk as a rank. -/
def CEnv.ownerOf (e : CEnv) (k : CChunk) : Nat := ownerRank e.x k.owner

/-- The ranks that a moved chunk goes to: those whose new shard takes some of its elements (R324). -/
def CEnv.targets (e : CEnv) (k : CChunk) : List Nat :=
  ((upTo (shardCount e.x)).filter (fun o =>
    decide (max k.first (e.newOff.getD o 0) < min (k.first + k.count) (e.newOff.getD (o + 1) 0)))).map (ownerRank e.x)

/-- The peers whose chunk an upward action needs; none where this rank does no upward action on the chunk. -/
def CEnv.upNeeds (e : CEnv) (st : CStage) (k : CChunk) : Option (List Nat) :=
  let t := e.tableOf st k
  match st.kind with
  | .all | .scatter | .stats => some ((kids e.x t).map (·.1))
  | .gather =>
    if !underMe e.x t (e.ownerOf k) then none
    else if e.ownerOf k = e.x.rank then some [] else some ((kidsOver e.x t [e.ownerOf k]).take 1)
  | .move =>
    if !underMe e.x t (e.ownerOf k) then none
    else if e.ownerOf k = e.x.rank then some []
    else
      let c := (kidsOver e.x t [e.ownerOf k]).take 1
      if (e.targets k).all (fun r => c.all (fun y => (kidsOver e.x t [r]).contains y)) then none else some c

/-- The parent's chunk comes down to this rank. -/
def CEnv.downWanted (e : CEnv) (st : CStage) (k : CChunk) : Bool :=
  let t := e.tableOf st k
  hasParent e.x t && (match st.kind with
    | .all | .stats | .gather => true
    | .scatter => underMe e.x t (e.ownerOf k)
    | .move => !underMe e.x t (e.ownerOf k) && (e.targets k).any (underMe e.x t))

/-! ### Elements on the wire (R303, R304) -/

/-- Encode values: INT32 words, binary32 words, or BF16. -/
def wireBytes (isInt bf16 : Bool) (vs : List Val) : List Byte :=
  vs.flatMap (fun v =>
    if isInt then leBytes 4 (toSigned 32 (asInt v))
    else if bf16 then leBytes 2 (convert fBF16 v none).code
    else leBytes 4 (word32 v).toNat)

/-- Decode `n` values. -/
def wireVals (isInt bf16 : Bool) (n : Nat) (d : List Byte) : List Val :=
  (upTo n).map (fun i =>
    if isInt then ofRat false (signedOf 32 (fieldAt d (4 * i) 4) : Int)
    else if bf16 then decodeElem fBF16 (fieldAt d (2 * i) 2)
    else val32 (BitVec.ofNat 32 (fieldAt d (4 * i) 4)))

/-- Combine two elements (R303, R304). -/
def ropVal (isInt : Bool) (rop : Nat) (a b : Val) : Val :=
  match rop with
  | 0 => if isInt then ofRat false (max (-2147483648) (min 2147483647 (asInt a + asInt b)) : Int) else add32 a b
  | 1 => vmax a b
  | _ => vmin a b

/-- Combine the statistics of two ranks: local and largest local norm, the reduced norm outside an inner group, MB_COUNT summed,
smallest and largest (R321). -/
def statsJoin (inner : Bool) (a b : List Byte) : List Byte :=
  let f (d : List Byte) (i : Nat) : Val := val32 (BitVec.ofNat 32 (fieldAt d (4 * i) 4))
  let w (v : Val) : List Byte := leBytes 4 (word32 v).toNat
  let n (d : List Byte) (i : Nat) : Nat := fieldAt d (4 * i) 4
  w (add32 (f a 0) (f b 0)) ++ w (vmax (f a 1) (f b 1)) ++ w (if inner then f a 2 else add32 (f a 2) (f b 2)) ++
  leBytes 4 (satAdd 32 (n a 3) (n b 3)) ++ leBytes 4 (min (n a 4) (n b 4)) ++ leBytes 4 (max (n a 5) (n b 5))

/-- A squared norm in groups of 256 (R321). -/
def sqNorm (vs : List Val) : Val :=
  ((chunksOf 256 (vs.map (fun v => mul32 v v))).map (rowTree add32 vzero)).foldl add32 vzero

/-- The values of `n` elements of a tensor, exact as binary32 or integers. -/
def runVals (s : State) (t : Tensor) (first n : Nat) : List Val :=
  (spanOf first n).map (fun i => fullVal s t.desc (i / t.desc.dim0) (i % t.desc.dim0))

/-- The reduced elements of this rank's shard, in order (R321). -/
def workVals (e : CEnv) (r : CollRun) : List Val :=
  (e.chunks.filter (fun k => k.owner == myShard e.x)).flatMap (fun k =>
    wireVals e.isInt false k.count (match r.work.find? (fun w => w.1 == k.no) with | some w => w.2 | none => []))

/-- What this rank itself contributes to a chunk. -/
def ownData (s : State) (e : CEnv) (r : CollRun) (st : CStage) (k : CChunk) : List Byte :=
  let fromWork : List Byte := match r.work.find? (fun w => w.1 == k.no) with | some w => w.2 | none => []
  match st.kind with
  | .stats =>
    if st.inner then r.stats
    else
      let d := sqNorm (workVals e r)
      leBytes 4 r.localSq.toNat ++ leBytes 4 r.localSq.toNat ++ leBytes 4 (word32 d).toNat ++
      leBytes 4 (cMb e.b) ++ leBytes 4 (cMb e.b) ++ leBytes 4 (cMb e.b)
  | .all | .scatter => if st.inner then fromWork else wireBytes e.isInt false (runVals s e.src k.first k.count)
  | .gather =>
    if cReduces e.b then fromWork else runBytes s e.src.desc (k.first - e.off.getD k.owner 0) k.count
  | .move => runBytes s e.src.desc (k.first - e.off.getD k.owner 0) k.count

/-- Combine this rank's data with its children's, in list order (R303). -/
def combineData (e : CEnv) (st : CStage) (k : CChunk) (own : List Byte) (child : List (List Byte)) : List Byte :=
  match st.kind with
  | .stats => child.foldl (statsJoin st.inner) own
  | _ =>
    let acc := child.foldl (fun a c => List.zipWith (ropVal e.isInt (cRop e.b)) a
      (wireVals e.isInt (cWireBF16 e.b && !e.isInt) k.count c)) (wireVals e.isInt false k.count own)
    wireBytes e.isInt false acc

/-- A partial as it is sent to the parent (R304). -/
def partialData (e : CEnv) (st : CStage) (k : CChunk) (acc : List Byte) : List Byte :=
  match st.kind with
  | .all | .scatter =>
    if cWireBF16 e.b && !e.isInt then wireBytes false true (wireVals false false k.count acc) else acc
  | _ => acc

/-! ### Sending (R312, R313) -/

/-- A chunk header (R313). -/
def chunkHeader (e : CEnv) (st : CStage) (k : CChunk) (stamp phase : Nat) (data : List Byte) : List Byte :=
  leBytes 4 e.seq ++ leBytes 4 k.no ++ leBytes 4 data.length ++ leBytes 4 stamp ++ leBytes 4 e.x.digest.toNat ++
  leBytes 2 (e.ownerOf k) ++ leBytes 1 (e.treeOf st k) ++ leBytes 1 phase ++ leBytes 4 (crc32c data).toNat ++ leBytes 4 0

/-- The key of a peer on a tree table. -/
def peerKey (table peer : Nat) : Nat := table * 16 + peer

/-- The rank of a peer and the route to it. -/
def peerRoute (x : Comm) (table peer : Nat) : Nat × Nat :=
  let en := rankEntry x table x.rank
  if peer = 0 then (en.parent, en.parentRoute) else en.children.getD (peer - 1) (0xFFFF, 0xFF)

/-- What a WRITE of the engine to a peer names: handle and offset of the staging region, tag and tally. -/
structure PeerPlace where
  handle : Nat
  offset : Nat
  tag : Nat
  tally : Nat
  deriving DecidableEq, Repr

/-- The place of a WRITE at a peer: the group structure does not name it, so its fields are free values (log entry 9). -/
def peerPlace (s : State) : State × PeerPlace :=
  let (w0, s) := s.freeDraw
  let (w1, s) := s.freeDraw
  let (w2, s) := s.freeDraw
  (s, ⟨w0.toNat, w1.toNat, w2.toNat % 65536, w2.toNat / 65536 % 16384⟩)

/-- A WRITE of the engine over a link, `skip` bytes from a place. -/
def collWrite (s : State) (l ctx epoch : Nat) (w : PeerPlace) (skip : Nat) (data : List Byte) (add : Nat) : State :=
  sendMsgs s l [{
    header := msgHeader 1 w.tag epoch data.length (leBytes 8 w.handle ++ leBytes 8 (w.offset + skip))
      (if add = 0 then 0xFFFF else w.tally) add
    data := data
    ctx := some ctx }]

/-- The tallies of a peer (R302, R378): a credit and an arrival tally for each peer of a tree table, in that order. -/
def creditTally (x : Comm) (table peer : Nat) : Nat := x.tallyBase + 18 * table + 2 * peer
def arrivalTally (x : Comm) (table peer : Nat) : Nat := creditTally x table peer + 1

/-- The group record of another section of the module that is this group's rank `r` (R301). -/
def peerComm (s : State) (x : Comm) (sec r : Nat) : Option Nat :=
  (upTo 64).find? (fun k => let y := s.comm sec k; y.present && y.group == x.group && y.digest == x.digest && y.rank == r)

/-- This rank as a peer of rank `rank`, whose record is `y`. -/
def backPeer (e : CEnv) (y : Comm) (table rank : Nat) : Nat :=
  if (rankEntry y table rank).parent = e.x.rank then 0
  else 1 + ((rankEntry y table rank).children.findIdx? (fun z => z.1 == e.x.rank)).getD 0

/-- Hand a chunk to its route: on a link, a WRITE of its data and one of its header into one slot, the header after the data's CHUNK
bytes (log entry 147); or the mesh (R312). -/
def routeChunk (s : State) (e : CEnv) (c : StagedChunk) : State :=
  let (rank, route) := peerRoute e.x c.table c.peer
  let s := s.bump fCollBytesTxBytes e.sec 0 c.data.length
  if route < 8 then
    let l := e.sec * 8 + route
    let (s, w) := peerPlace s
    let s := collWrite (collWrite s l e.ctx e.x.epoch w 0 c.data 0) l e.ctx e.x.epoch w e.x.chunk c.header 1
    if (s.link l).waiting.any (fun m => chanOf m.header == 0) then addOpenCause s (s.ctx e.ctx).part 3 (creditKey l) else s
  else
    match peerComm s e.x (route - 0x10) rank with
    | some k =>
      let back := backPeer e (s.comm (route - 0x10) k) c.table rank
      s.modComm (route - 0x10) k (fun z => { z with transit := z.transit ++ [{ c with peer := back }] })
    | none => s

/-- Send what the free slots at each peer allow, in order: at most 4 unreturned slots at a peer on a tree (R312). The state, and
what still waits. -/
def pumpChunks (s : State) (e : CEnv) (l : List StagedChunk) : State × List StagedChunk :=
  l.foldl (fun (a : State × List StagedChunk) c =>
    let k := peerKey c.table c.peer
    let n := tabGet 0 (a.1.comm e.sec e.comm).used k
    if 4 ≤ n || a.2.any (fun d => peerKey d.table d.peer == k) then (a.1, a.2 ++ [c])
    else
      let s := a.1.modComm e.sec e.comm (fun y => { y with used := tabSet 0 y.used k (n + 1) })
      (routeChunk s e c, a.2)) (s, [])

/-- Return a consumed slot to its sender: over a link, a WRITE of length 0 that adds 1 to its credit tally; over the mesh the return is
under way to the sender's record (R312). -/
def returnSlot (s : State) (e : CEnv) (table peer : Nat) : State :=
  let (rank, route) := peerRoute e.x table peer
  if route < 8 then
    let (s, w) := peerPlace s
    collWrite s (e.sec * 8 + route) e.ctx e.x.epoch w 0 [] 1
  else
    match peerComm s e.x (route - 0x10) rank with
    | some k =>
      let key := peerKey table (backPeer e (s.comm (route - 0x10) k) table rank)
      s.modComm (route - 0x10) k (fun z => { z with credits := tabSet 0 z.credits key (tabGet 0 z.credits key + 1) })
    | none => s

/-! ### Staging slots (R302, R312) -/

/-- The address of a slot of this rank's staging region. DESIGN CHOICE (log entry 147): the region holds, table by table and peer by peer,
four slots of CHUNK + 32 bytes, a chunk's data at the start of its slot and its header in the last 32 bytes. -/
def slotAddr (x : Comm) (c : StagedSlot) : Nat :=
  let before := sumNat ((upTo c.table).map (fun t => (rankEntry x t x.rank).children.length + 1))
  x.stageBase + ((before + c.peer) * 4 + c.slot) * (x.chunk + 32)

/-- The slot that a peer fills next. -/
def freeSlot (x : Comm) (table peer : Nat) : StagedSlot := ⟨table, peer, tabGet 0 x.nextSlot (peerKey table peer)⟩

/-- A slot is filled, and the engine has acted on its announcement. -/
def noteSlot (x : Comm) (c : StagedSlot) : Comm :=
  let t := arrivalTally x c.table c.peer
  { x with
    staged := x.staged ++ [c]
    nextSlot := tabSet 0 x.nextSlot (peerKey c.table c.peer) ((c.slot + 1) % 4)
    seen := tabSet 0 x.seen t (tabGet 0 x.seen t + 1) }

/-- Write a chunk from the mesh into its slot (R312). -/
def fillSlot (s : State) (x : Comm) (c : StagedSlot) (k : StagedChunk) : State :=
  storeBytes (storeBytes s (slotAddr x c) k.data) (slotAddr x c + x.chunk) k.header

/-- Read a slot: its header, then as much data as BYTES tells, at most CHUNK; and the uncorrectable words met (R56, R313). -/
def readSlot (s : State) (x : Comm) (c : StagedSlot) : State × StagedChunk × List (Nat × Bool) :=
  let a := slotAddr x c
  let (s, bad) := readMem s (a + x.chunk) 32
  let h := readBytes s (a + x.chunk) 32
  let n := min x.chunk (fieldAt h 8 4)
  let (s, worse) := readMem s a n
  (s, ⟨c.table, c.peer, h, readBytes s a n⟩, bad ++ worse)

/-- Read the slots of several peers. -/
def readSlots (s : State) (x : Comm) (l : List StagedSlot) : State × List StagedChunk × List (Nat × Bool) :=
  l.foldl (fun r c => let (t, k, b) := readSlot r.1 x c; (t, r.2.1 ++ [k], r.2.2 ++ b)) (s, [], [])

/-! ### Progress -/

/-- A failed or successful attempt at progress: the state and job, and the fault that stops the descriptor, as cause, chunk number
and whether a poisoned word caused it. -/
structure CStep where
  s : State
  r : CollRun
  j : Job
  fault : Option (Nat × Nat × Bool) := none
  deriving DecidableEq, Repr

/-- The first filled slot of a peer on a table. -/
def headOf (s : State) (e : CEnv) (table peer : Nat) : Option StagedSlot :=
  (s.comm e.sec e.comm).staged.find? (fun c => c.table == table && c.peer == peer)

/-- A chunk of `n` bytes has been consumed: its slot is returned (R312). -/
def takeChunk (s : State) (e : CEnv) (c : StagedSlot) (n : Nat) : State :=
  let s := s.modComm e.sec e.comm (fun y => { y with staged := y.staged.erase c })
  returnSlot (s.bump fCollBytesRxBytes e.sec 0 n) e c.table c.peer

/-- The cause of a fault that a chunk's header gives, if any (R314). -/
def headerFault (e : CEnv) (st : CStage) (k : CChunk) (phase : Nat) (c : StagedChunk) : Option Nat :=
  let h := c.header
  if fieldAt h 0 4 ≠ e.seq ∨ fieldAt h 4 4 ≠ k.no ∨ fieldAt h 16 4 ≠ e.x.digest.toNat ∨ fieldAt h 22 1 ≠ e.treeOf st k ∨
    fieldAt h 23 1 ≠ phase then some 0x0B
  else if fieldAt h 24 4 ≠ (crc32c c.data).toNat then some 7
  else none

/-- Check the stamp of a gathered shard (R318, R319). -/
def checkStamp (s : State) (e : CEnv) (o stamp : Nat) : State :=
  let a := cStampAddr e.b + 4 * o
  let fails :=
    if cRegather e.b then leNat (readBytes s a 4) != stamp else cCheck e.b && cExpect e.b != stamp
  let s := if cRegather e.b then s else writeBytes s a (leBytes 4 stamp)
  if fails then
    (s.bump fCollStampStampMismatch e.sec 0 1).modGate (s.ctx e.ctx).part (cGate e.b) (fun g => { g with versionPending := true })
  else s

/-- Convert reduced values into DST (R304): `pos` is their place in DST, `first` their index in the whole tensor. -/
def storeReduced (a : CStep) (e : CEnv) (pos first : Nat) (vs : List Val) (no : Nat) : CStep :=
  let cx := { convCtxOf e.dst (cSeed e.b) (cStep e.b) with shift := first - pos }
  let (cells, o) := convertRun a.s e.dst cx pos vs
  if !cellsOk a.s e.ctx cells then { a with fault := some (0x0E, no, false) }
  else
    { a with
      s := writeCells a.s cells,
      j := { a.j with deltas := a.j.deltas ++ [(cDst e.b, o.delta)], nf := a.j.nf + o.nf,
                      poisonIds := if o.poison then [cDst e.b] else a.j.poisonIds } }

/-- Store moved bytes into DST (R308, R324). -/
def storeMoved (a : CStep) (e : CEnv) (k : CChunk) (pos skip n : Nat) (data : List Byte) : CStep :=
  let from_ := k.first - (if cOp e.b = 4 then e.off.getD k.owner 0 else 0)
  let lead := blockIdx e.form (from_ + skip) - blockIdx e.form from_
  let cells := storeRun a.s e.dst.desc pos n skip lead k.count data
  if !cellsOk a.s e.ctx cells then { a with fault := some (0x0E, k.no, false) } else { a with s := writeCells a.s cells }

/-- A chunk reaches its destination at this rank: the working elements between stages, DST, or the statistics. -/
def deliver (a : CStep) (e : CEnv) (st : CStage) (k : CChunk) (stamp : Nat) (data : List Byte) : CStep :=
  let last := !((e.stages.drop (a.r.stage + 1)).any (fun t => t.kind != .stats))
  match st.kind with
  | .stats => { a with r := { a.r with stats := data } }
  | .move =>
    let me := myShard e.x
    let lo := max k.first (e.newOff.getD me 0)
    let hi := min (k.first + k.count) (e.newOff.getD (me + 1) 0)
    if hi ≤ lo then a
    else
      let a := storeMoved a e k (lo - e.newOff.getD me 0) (lo - k.first) (hi - lo) data
      { a with s := setStamp a.s (a.s.ctx e.ctx).part (cDst e.b) stamp }
  | _ =>
    if cReduces e.b then
      let a := if k.owner = myShard e.x then
          { a with r := { a.r with work := a.r.work.filter (fun w => w.1 != k.no) ++ [(k.no, data)] } } else a
      if !last then a
      else
        let vs := wireVals e.isInt false k.count data
        if hasScales e.dst.desc.format then { a with r := { a.r with out := a.r.out ++ [(k.no, data)] } }
        else if cOp e.b = 0 then storeReduced a e k.first k.first vs k.no
        else storeReduced a e (k.first - e.off.getD k.owner 0) k.first vs k.no
    else
      let a := storeMoved a e k k.first 0 k.count data
      if cOp e.b = 3 && k.first == e.off.getD k.owner 0 && k.owner != myShard e.x then
        { a with s := checkStamp a.s e k.owner stamp }
      else a

/-- The reduced elements of a block-scaled DST are converted together once all its chunks are there: a scale belongs to a whole block,
which chunks may cut (R90 to R95, R304). -/
def storeWhole (a : CStep) (e : CEnv) (st : CStage) : CStep :=
  if st.kind = .stats || a.r.out.isEmpty then a
  else
    let mine := e.chunks.filter (fun k => a.r.out.any (fun w => w.1 == k.no))
    let vs := mine.flatMap (fun k => wireVals e.isInt false k.count (((a.r.out.find? (fun w => w.1 == k.no)).map (·.2)).getD []))
    let first := match mine with | k :: _ => k.first | [] => 0
    let a := storeReduced a e 0 first vs (match mine with | k :: _ => k.no | [] => 0)
    { a with r := { a.r with out := [] } }

/-- Queue a chunk for a peer. -/
def sendChunk (a : CStep) (e : CEnv) (st : CStage) (k : CChunk) (stamp phase peer : Nat) (data : List Byte) : CStep :=
  let keep := if cOp e.b = 3 || cOp e.b = 4 then stamp else 0
  { a with r := { a.r with toSend := a.r.toSend ++
      [⟨e.tableOf st k, peer, chunkHeader e st k keep phase data, data⟩] } }

/-- The children that a chunk goes down to. -/
def downKids (e : CEnv) (st : CStage) (k : CChunk) (from_ : List Nat) : List Nat :=
  let t := e.tableOf st k
  match st.kind with
  | .scatter => if e.ownerOf k = e.x.rank then [] else kidsOver e.x t [e.ownerOf k]
  | .move => (kidsOver e.x t (e.targets k)).filter (fun c => !from_.contains c)
  | _ => (kids e.x t).map (·.1)

/-- The chunk is delivered at this rank when it comes down, or turns at this rank. -/
def deliversHere (e : CEnv) (st : CStage) (k : CChunk) : Bool :=
  match st.kind with
  | .scatter => e.ownerOf k == e.x.rank
  | .move => (e.targets k).contains e.x.rank
  | _ => true

/-- Send a chunk down and deliver it here. -/
def goDownWith (a : CStep) (e : CEnv) (st : CStage) (k : CChunk) (stamp : Nat) (from_ : List Nat) (data : List Byte) : CStep :=
  let a := (downKids e st k from_).foldl (fun a c => sendChunk a e st k stamp 1 c data) a
  if deliversHere e st k then deliver a e st k stamp data else a

/-- The upward action of a chunk whose children's chunks have been taken. -/
def upAction (a : CStep) (e : CEnv) (st : CStage) (k : CChunk) (from_ : List Nat) (child : List StagedChunk) : CStep :=
  let stamp := match child with | c :: _ => fieldAt c.header 12 4 | [] => a.r.stamp
  let parent := hasParent e.x (e.tableOf st k)
  match st.kind with
  | .gather | .move =>
    let data := match child with | c :: _ => c.data | [] => ownData a.s e a.r st k
    if st.kind = .move then
      let up := parent && (e.targets k).any (fun r => !underMe e.x (e.tableOf st k) r)
      let a := if up then sendChunk a e st k stamp 0 0 data else a
      goDownWith a e st k stamp from_ data
    else if parent then sendChunk a e st k stamp 0 0 data
    else goDownWith a e st k stamp [] data
  | _ =>
    let acc := combineData e st k (ownData a.s e a.r st k) (child.map (·.data))
    if parent then sendChunk a e st k 0 0 0 (partialData e st k acc) else goDownWith a e st k 0 [] acc

/-- The chunks of a stage on a table that this rank takes up, and down. -/
def upList (e : CEnv) (st : CStage) (t : Nat) : List CChunk :=
  (e.stageChunks st).filter (fun k => e.tableOf st k == t && (e.upNeeds st k).isSome)
def downList (e : CEnv) (st : CStage) (t : Nat) : List CChunk :=
  (e.stageChunks st).filter (fun k => e.tableOf st k == t && e.downWanted st k)

/-- The next upward and downward chunk of a table. In a RESHARD both directions follow one ascending order. -/
def nextUp (e : CEnv) (r : CollRun) (st : CStage) (t : Nat) : Option CChunk :=
  (upList e st t)[tabGet 0 r.up t]?
def nextDown (e : CEnv) (r : CollRun) (st : CStage) (t : Nat) : Option CChunk :=
  (downList e st t)[tabGet 0 r.down t]?

/-- Chunk `k` may go before the next one of the other direction. -/
def mayGo (st : CStage) (k : CChunk) (other : Option CChunk) : Bool :=
  st.kind != .move || (match other with | some o => decide (k.no < o.no) | none => true)

/-- Try the next upward action of a table. -/
def tryUp (a : CStep) (e : CEnv) (st : CStage) (t : Nat) : Option CStep :=
  match nextUp e a.r st t with
  | none => none
  | some k =>
    let needs := (e.upNeeds st k).getD []
    let slots := needs.filterMap (headOf a.s e t)
    if slots.length ≠ needs.length || !mayGo st k (nextDown e a.r st t) then none
    else
      let (s, heads, bad) := readSlots a.s e.x slots
      let a := { a with s := s }
      match worstOf bad, heads.findSome? (headerFault e st k 0) with
      | some poison, _ => some { a with fault := some (6, k.no, poison) }
      | none, some cause => some { a with fault := some (cause, k.no, false) }
      | none, none =>
        let a := { a with s := (slots.zip heads).foldl (fun s c => takeChunk s e c.1 c.2.data.length) a.s,
                          r := { a.r with up := tabSet 0 a.r.up t (tabGet 0 a.r.up t + 1) },
                          j := if needs.isEmpty then a.j else { a.j with reported := false } }
        some (upAction a e st k needs heads)

/-- Try the next downward action of a table. -/
def tryDown (a : CStep) (e : CEnv) (st : CStage) (t : Nat) : Option CStep :=
  match nextDown e a.r st t with
  | none => none
  | some k =>
    match headOf a.s e t 0 with
    | none => none
    | some slot =>
      if !mayGo st k (nextUp e a.r st t) then none
      else
        let (s, c, bad) := readSlot a.s e.x slot
        let a := { a with s := s }
        match worstOf bad, headerFault e st k 1 c with
        | some poison, _ => some { a with fault := some (6, k.no, poison) }
        | none, some cause => some { a with fault := some (cause, k.no, false) }
        | none, none =>
          let a := { a with s := takeChunk a.s e slot c.data.length,
                            r := { a.r with down := tabSet 0 a.r.down t (tabGet 0 a.r.down t + 1) },
                            j := { a.j with reported := false } }
          some (goDownWith a e st k (fieldAt c.header 12 4) [] c.data)

/-- The tables of a stage. -/
def stageTables (e : CEnv) (st : CStage) : List Nat := spanOf (if st.inner then e.x.t else 0) (max 1 e.x.t)

/-- Every action of a stage is done. -/
def stageDone (e : CEnv) (r : CollRun) (st : CStage) : Bool :=
  (stageTables e st).all (fun t => (nextUp e r st t).isNone && (nextDown e r st t).isNone)

/-- Go on as far as the chunks at hand allow; each round does one action or passes one stage. -/
def collLoop (e : CEnv) : Nat → CStep → CStep
  | 0, a => a
  | fuel + 1, a =>
    if a.fault.isSome then a
    else match e.stage a.r with
      | none => a
      | some st =>
        if stageDone e a.r st then
          let a := storeWhole a e st
          collLoop e fuel { a with r := { a.r with stage := a.r.stage + 1, up := [], down := [] } }
        else
          match (stageTables e st).findSome? (fun t => (tryUp a e st t).orElse (fun _ => tryDown a e st t)) with
          | some a => collLoop e fuel a
          | none => a

/-- The key of the hold of a collective engine that waits for a chunk over a link (R316). -/
def collKey (sec : Nat) : Nat := 2 ^ 21 + sec

/-- The engine waits for a chunk of a peer whose route satisfies a test. -/
def awaitsPeer (s : State) (e : CEnv) (r : CollRun) (f : Nat → Bool) : Bool :=
  match e.stage r with
  | none => false
  | some st => (stageTables e st).any (fun t =>
      let need := (match nextUp e r st t with | some k => (e.upNeeds st k).getD [] | none => []) ++
        (match nextDown e r st t with | some _ => [0] | none => [])
      need.any (fun p => (headOf s e t p).isNone && f (peerRoute e.x t p).2))

/-- The engine waits for a chunk over a link. -/
def awaitsLink (s : State) (e : CEnv) (r : CollRun) : Bool := awaitsPeer s e r (fun route => decide (route < 8))

/-- The EXTERNAL hold of a collective engine ends: its chunk is there, or its descriptor runs no more (R316). -/
def collUnhold (s : State) (sec p : Nat) : State := dropCauses s p (fun c => c.field == 5 && c.key == collKey sec)

/-- A descriptor stops before its end: what its conversions counted is kept (R98, R200), nothing is signalled (R323, R355). -/
def collStop (s : State) (sec : Nat) (j : Job) : State :=
  let p := (s.ctx j.ctx).part
  endStopped (addNf (applyDeltas (collUnhold s sec p) p j.deltas) j.ctx j.nf) 3 sec j

/-- A collective descriptor faults: COLL_FAULT_LAST for the causes that it holds, then the context (R314, R327). -/
def collFault (s : State) (sec : Nat) (j : Job) (cause no : Nat) (poison : Bool) : State :=
  let w := 2 ^ 63 + cause * 2 ^ 48 + cComm j.bytes % 64 * 2 ^ 40 + j.ctx % 512 * 2 ^ 23 + no % 2 ^ 23
  let s := if [1, 6, 7, 0x0B].contains cause then s.setRaw ⟨.collFaultLast, sec, 0⟩ (BitVec.ofNat 64 w) else s
  let p := (s.ctx j.ctx).part
  endFault (addNf (applyDeltas (collUnhold s sec p) p j.deltas) j.ctx j.nf) 3 sec j cause poison

/-- The engine cannot go on: which of a peer's chunk or a returned slot it waits for, and in Winter the hold for a chunk over a link that
its compiled work cycle does not find (R316, R327). -/
def collWait (s : State) (sec : Nat) (e : CEnv) (j : Job) : State :=
  let p := (s.ctx j.ctx).part
  let s := if awaitsLink s e j.coll then addOpenCause s p 5 (collKey sec) else collUnhold s sec p
  let chunk := awaitsPeer s e j.coll (fun _ => true)
  putJob s 3 sec { j with coll := { j.coll with chunkWait := chunk, creditWait := !chunk && !j.coll.toSend.isEmpty } }

/-- Let a section's engine go on with its descriptor (R303, R308, R312). -/
def collRun (s : State) (sec : Nat) : State :=
  match jobOf s 3 sec with
  | some j =>
    if j.phase ≠ .running then s
    else
      let e := collEnv s sec j
      let a := collLoop e (8 * (e.chunks.length + 4)) { s := s, r := j.coll, j := j }
      match a.fault with
      | some (cause, no, poison) => collFault a.s sec a.j cause no poison
      | none =>
        let (s, left) := pumpChunks a.s e a.r.toSend
        let j := { a.j with coll := { a.r with toSend := left }, poison := !a.j.poisonIds.isEmpty }
        if a.r.stage == e.stages.length && left.isEmpty then
          putJob (collUnhold s sec (s.ctx j.ctx).part) 3 sec
            { j with phase := .dataDone, coll := { j.coll with chunkWait := false, creditWait := false } }
        else collWait s sec e j
  | none => s

/-- Let a section's engine go on where its partition's table and holds allow it (R243, R245, R316): otherwise only the hold for a chunk
that has now come ends. -/
def collProgress (s : State) (sec : Nat) : State :=
  match jobOf s 3 sec with
  | some j =>
    let p := (s.ctx j.ctx).part
    if mayRun s p 4 sec then collRun s sec
    else if j.phase = .running && !awaitsLink s (collEnv s sec j) j.coll then collUnhold s sec p else s
  | none => s

/-- A Winter partition's engines go on once a hold has ended or a window has opened (R245, R258, R316). -/
def collResume (s : State) : State :=
  forEach (upTo 8) s (fun n t => match secPart t n with
    | some p => if (t.part p).winter then collProgress t n else t
    | none => t)

/-! ### The check of a descriptor (R310) -/

/-- A split is in order: ascending from 0, ending at COUNT. -/
def splitBad (b : List Byte) (off : List Nat) : Bool :=
  off.getD 0 0 != 0 || off.getD (off.length - 1) 0 != cCount b ||
  (upTo (off.length - 1)).any (fun i => decide (off.getD (i + 1) 0 < off.getD i 0))

/-- The boundaries of a split fall on block boundaries of the whole tensor (R79, R308, R310): rows of SRC or DST where one of them is the
whole tensor, and blocks of the shard's own rows elsewhere. -/
def splitBlocks (b : List Byte) (off : List Nat) (d : TensorDesc) : Bool := off.all (fun o => o == cCount b || onBlock d o)

/-- The splits keep the blocks of SRC and of DST. -/
def blocksBad (b : List Byte) (off newOff : List Nat) (src dst : TensorDesc) (me : Nat) : Bool :=
  match cOp b with
  | 0 => !splitBlocks b off src || !splitBlocks b off dst
  | 1 => !splitBlocks b off src || (hasScales dst.format && off.any (fun o => o != cCount b && (o - off.getD me 0) % dst.blockSize != 0))
  | 4 => [(src, off), (dst, newOff)].any (fun e => (off ++ newOff).any (fun o =>
      let a := e.2.getD me 0
      hasScales e.1.format && decide (a < o) && decide (o < e.2.getD (me + 1) 0) && !onBlock e.1 (o - a)))
  | _ => !splitBlocks b off dst

/-- Elements that SRC and DST hold at this rank (R308). -/
def collHolds (x : Comm) (b : List Byte) (off newOff : List Nat) : Nat × Nat :=
  let me := myShard x
  match cOp b with
  | 0 => (cCount b, cCount b)
  | 1 => (cCount b, shardLen off me)
  | 4 => (shardLen off me, shardLen newOff me)
  | _ => (shardLen off me, cCount b)

/-- The formats of SRC and DST are accepted (R304, R308). -/
def collFormatsOk (b : List Byte) (src dst : Tensor) : Bool :=
  if cReduces b then
    if src.desc.format = 0x22 then dst.desc.format == 0x22
    else [0x00, 0x01, 0x02, 0x10, 0x11].contains src.desc.format
  else cSrc b == 0 || cDst b == 0 ||
    (src.desc.format == dst.desc.format && src.desc.block == dst.desc.block && src.desc.ue5m3 == dst.desc.ue5m3)

/-- A tensor is as this rank needs it: registered and valid, granted, in Loam (R23, R306), large enough; an empty shard needs none. -/
def collTensorOk (s : State) (c : Nat) (id need : Nat) (write : Bool) : Bool :=
  let t := s.tensor (s.ctx c).part id
  (need == 0 && id == 0) ||
  (tensorValid s (s.ctx c).part id && decide (need ≤ t.desc.elems) && inLoam t.desc && tensorGranted s c t write)

/-- A Loam address names granted bytes. -/
def loamOk (s : State) (c a n : Nat) (write : Bool) : Bool :=
  (loamPlace a n).isSome && inPartition s (s.ctx c).part a n &&
  covered (ctxRegions s c) (fun x => if write then x.write else x.read) ((ctxRegions s c).length + 1) a n

/-- A collective descriptor is invalid (R155, R310). -/
def collBad (s : State) (sec : Nat) (j : Job) : Bool :=
  let b := j.bytes
  let x := s.comm sec (cComm b)
  let e := collEnv s sec j
  let holds := collHolds x b e.off e.newOff
  let words := shardCount x + 1
  fieldAt b 0 1 != 0x10 || 4 < cOp b || 15 < fieldAt b 2 1 || !(decide (cGate b < 64) || cGate b == 0xFF) ||
  63 < cComm b || !within 1 16777216 (cGranule b) || 2 < cRop b || fieldAt b 101 27 != 0 || !talliesOwned s j.ctx b ||
  !x.present || x.ctx != j.ctx ||
  (cGate b != 0xFF && !((s.gate (s.ctx j.ctx).part (cGate b)).present && (s.gate (s.ctx j.ctx).part (cGate b)).ctx == j.ctx)) ||
  (cOp b == 3 && (cGate b == 0xFF || cStampAddr b == 0 || !loamOk s j.ctx (cStampAddr b) (4 * shardCount x) (!cRegather b))) ||
  (cSplit b != 0 && !loamOk s j.ctx (cSplit b) (8 * words) false) ||
  (cOp b == 4 && cNewSplit b != 0 && !loamOk s j.ctx (cNewSplit b) (8 * words) false) ||
  (cStats b && cReduces b && cStatsAddr b != 0 && !loamOk s j.ctx (cStatsAddr b) 64 true) ||
  !collFormatsOk b e.src e.dst || (cSrc b == 0 && cDst b == 0) ||
  !collTensorOk s j.ctx (cSrc b) holds.1 false || !collTensorOk s j.ctx (cDst b) holds.2 true ||
  splitBad b e.off || splitBad b e.newOff || blocksBad b e.off e.newOff e.src.desc e.dst.desc (myShard x)

/-! ### The rows -/

/-- The ranges that a descriptor reads at its start: SRC, the offset lists, the stamps to compare. -/
def collReads (e : CEnv) : List (Nat × Nat) :=
  let words := 8 * (shardCount e.x + 1)
  (if cSrc e.b = 0 then [] else e.src.desc.arrays) ++ (if cSplit e.b = 0 then [] else [(cSplit e.b, words)]) ++
  (if cOp e.b = 4 && cNewSplit e.b != 0 then [(cNewSplit e.b, words)] else []) ++
  (if cOp e.b = 3 && cRegather e.b then [(cStampAddr e.b, 4 * shardCount e.x)] else [])

/-- The descriptor's own values, latched as it starts: its sequence number, its splits, its source's stamp, the local squared norm
(R306, R311, R318, R321). -/
def collStart (s : State) (sec : Nat) (j : Job) : Job :=
  let b := j.bytes
  let p := (s.ctx j.ctx).part
  let src := s.tensor p (cSrc b)
  let (off, newOff) := collSplits s sec b
  { j with
    lastSeq := (s.comm sec (cComm b)).seq
    coll := { stamp := src.stamp.toNat, off := off, newOff := newOff,
              localSq := if cStats b && cReduces b then word32 (sqNorm (runVals s src 0 (cCount b))) else 0 }
    poisonIds := if cSrc b != 0 && src.desc.poisoned then [cDst b] else [] }

/-- The engine takes its next descriptor: SEQ advances for each that names a group, whatever becomes of it; its own shard's stamp is
checked, its own chunks go out (R306, R308, R318). A descriptor that names a stale group is cancelled (R323). -/
def collDescriptorOp (sec : Nat) (s : State) : State :=
  match takeDesc s 3 sec with
  | (s, none) => s
  | (s, some j) =>
    let b := j.bytes
    let x := s.comm sec (cComm b)
    let named := x.present && x.ctx == j.ctx
    if named && x.stale then endStopped (s.bump fCollDescCancelled sec 0 1) 3 sec j
    else
     let j := collStart s sec j
     let s := if named then s.modComm sec (cComm b) (fun y => { y with seq := (y.seq + 1) % 2 ^ 32 }) else s
     if collBad s sec j then collFault s sec j 1 0 false
     else
      let (s, bad) := readAll s (collReads (collEnv s sec j))
      match worstOf bad with
      | some poison => collFault s sec j 6 0 poison
      | none =>
        let e := collEnv s sec j
        let s := if cOp b = 3 && shardLen e.off (myShard x) != 0 then checkStamp s e (myShard x) j.coll.stamp else s
        collProgress (putJob s 3 sec j) sec

/-- COLLECTIVE_DESCRIPTOR (R308). -/
def execCollectiveDescriptor (sec : Sec) (hits : List Hit) (s : State) : Host.Outcome State Fault Refusal :=
  .next (collDescriptorOp sec.val (upsetWords s hits))

/-- The number of a peer. -/
def peerNum : Peer → Nat
  | .parent => 0
  | .child j => j.val + 1

/-- A tally's additions that the engine has not yet acted on. -/
def announced (s : State) (x : Comm) (t : Nat) : Bool := decide (tabGet 0 x.seen t < (s.tally t).count)

/-- A chunk's arrival fills a staging slot, and the engine goes on (R312 to R314). Over a link, WRITE messages have stored data and header
in Loam, and an addition to the arrival tally announces them; over the mesh the oldest chunk under way is written into the slot, its
tally added to here, unless a hold freezes the section (R245). Chunks for a stale group are dropped (R323). -/
def chunkArrivalOp (sec k table peer : Nat) (s : State) : State :=
  let x := s.comm sec k
  let full := decide (4 ≤ (x.staged.filter (fun c => c.table == table && c.peer == peer)).length)
  let slot := freeSlot x table peer
  if !x.present || x.stale || full then s
  else if (peerRoute x table peer).2 < 8 then
    if !announced s x (arrivalTally x table peer) then s
    else collProgress (s.setComm sec k (noteSlot x slot)) sec
  else match x.transit.find? (fun c => c.table == table && c.peer == peer) with
    | none => s
    | some c =>
      if unitHeld s 3 sec then s
      else
        let s := (fillSlot s x slot c).setComm sec k { noteSlot x slot with transit := x.transit.erase c }
        collProgress (tallyAddOp s (arrivalTally x table peer) 1) sec

/-- CHUNK_ARRIVAL (R314). -/
def execChunkArrival (sec : Sec) (comm : Fin 64) (tree : Fin 8) (peer : Peer) (headerHits dataHits : List Hit) (s : State) :
    Host.Outcome State Fault Refusal :=
  .next (chunkArrivalOp sec.val comm.val tree.val (peerNum peer) (upsetWords s (headerHits ++ dataHits)))

/-- A returned slot frees a send (R312): over a link an addition to the credit tally tells of it; over the mesh the tally is added to
here, unless a hold freezes the section (R245). -/
def chunkCreditOp (sec k table peer : Nat) (s : State) : State :=
  let x := s.comm sec k
  let key := peerKey table peer
  let t := creditTally x table peer
  let n := tabGet 0 x.used key
  let freed := { x with used := tabSet 0 x.used key (n - 1), seen := tabSet 0 x.seen t (tabGet 0 x.seen t + 1) }
  if !x.present || n == 0 then s
  else if (peerRoute x table peer).2 < 8 then
    if announced s x t then collProgress (s.setComm sec k freed) sec else s
  else if tabGet 0 x.credits key == 0 || unitHeld s 3 sec then s
  else
    let s := s.setComm sec k { freed with credits := tabSet 0 x.credits key (tabGet 0 x.credits key - 1) }
    collProgress (tallyAddOp s t 1) sec

/-- CHUNK_CREDIT_RETURN (R312). -/
def execChunkCreditReturn (sec : Sec) (comm : Fin 64) (tree : Fin 8) (peer : Peer) (s : State) :
    Host.Outcome State Fault Refusal :=
  .next (chunkCreditOp sec.val comm.val tree.val (peerNum peer) s)

/-- A statistics record (R322). -/
def statsRecord (x : Comm) (b st : List Byte) : List Byte :=
  let bad := [0, 1, 2].any (fun i => nonFinite (val32 (BitVec.ofNat 32 (fieldAt st (4 * i) 4))))
  leBytes 4 (cStep b) ++ leBytes 2 (cComm b) ++ leBytes 2 x.p ++ leBytes 4 (fieldAt st 12 4) ++ leBytes 4 (fieldAt st 16 4) ++
  leBytes 4 (fieldAt st 20 4) ++ leBytes 4 (fieldAt st 0 4) ++ leBytes 4 (fieldAt st 4 4) ++ leBytes 4 (fieldAt st 8 4) ++
  leBytes 1 (toBit bad) ++ leBytes 31 0

/-- A descriptor whose data is whole ends: its statistics record, counter adds and marks, signals, what counts it, its record (R197,
R306, R321, R327). -/
def collEnd (s : State) (sec : Nat) (j : Job) : State :=
  let b := j.bytes
  let p := (s.ctx j.ctx).part
  let s := if cStats b && cReduces b && cStatsAddr b != 0 then
      storeBytes s (cStatsAddr b) (statsRecord (s.comm sec (cComm b)) b j.coll.stats) else s
  let s := poisonTensors (addNf (applyDeltas s p j.deltas) j.ctx j.nf) p j.poisonIds
  endCounted s 3 sec j (fun t =>
    let t := if cOp b = 3 then t.bump fCollStampGathers sec 0 1 else t
    t.bump fCollDescCompleted sec 0 1)

/-- The descriptor of a collective engine ends, not in a hold (R245, R306). -/
def collCompleteOp (sec : Nat) (s : State) : State :=
  match jobOf s 3 sec with
  | some j => if j.phase ≠ .dataDone || unitHeld s 3 sec then s else collEnd s sec j
  | none => s

/-- COLLECTIVE_COMPLETE (R306). -/
def execCollectiveComplete (sec : Sec) (s : State) : Host.Outcome State Fault Refusal := .next (collCompleteOp sec.val s)

/-- A higher epoch is installed for a job group (R323): its group records can only be destroyed, and a descriptor that names one
stops. -/
def staleComms (s : State) (g : Nat) : State :=
  forEach (keysWhere s.objs.comms (fun x => x.present && x.group == g)) s (fun k t =>
    let sec := k / 64
    let t := t.modComm sec (k % 64) (fun x => { x with stale := true, transit := [], staged := [] })
    match jobOf t 3 sec with
    | some j =>
      if cComm j.bytes = k % 64 then collStop (t.bump fCollDescCancelled sec 0 1) sec j else t
    | none => t)

/-! ### Wait limits (R315, R430) -/

/-- The descriptor of a section's engine that waits for a peer's chunk or a returned slot. -/
def collWaits (s : State) (sec : Nat) : Option Job :=
  match jobOf s 3 sec with
  | some j => if j.phase = .running then some j else none
  | none => none

/-- COLL_WAIT_REPORT (R315). -/
def execCollWaitReport (sec : Sec) (s : State) : Host.Outcome State Fault Refusal :=
  .next (match collWaits s sec.val with
    | some j =>
      if j.reported || !j.coll.chunkWait then s
      else postWait ((putJob s 3 sec.val { j with reported := true }).bump fCollWaitWaitsReported sec.val 0 1) sec.val 0xF j.ctx
    | none => s)

/-- The context whose collective descriptor, not yet taken, waits on a tally. -/
def collQueued (s : State) (sec : Nat) : Option Nat :=
  (unitQueues s 3 sec).findSome? (fun q =>
    let x := s.queue q
    match headWaiting x, x.ctx with
    | some e, some c => if x.mode == .enabled && !waitsMet s e.bytes then some c else none
    | _, _ => none)

/-- WAIT_TIMEOUT (R430): a wait unmet for four times its limit faults its context. -/
def execWaitTimeout (site : WaitSite) (s : State) : Host.Outcome State Fault Refusal :=
  .next (match site with
    | .tile core index => tileWaitTimeout core.val index s
    | .collective sec =>
      match collWaits s sec.val with
      | some j => collFault (s.bump fFltWdogWaitFaults 0 0 1) sec.val j 0x11 0 false
      | none => match collQueued s sec.val with
        | some c => ctxFault (s.bump fFltWdogWaitFaults 0 0 1) c 0x11 sec.val 0 false
        | none => s)

end Sys2Proof.Machine
end

