-- ==== Sys2Proof/Machine/Launch.lean ====
section
/-! DEFINITION. The publication of a LAUNCH (R379, R416), with the row LAUNCH_PUBLISH. -/

namespace Sys2Proof.Machine

/-- Every listed program has completed or stopped, its issued tiles with it (R379, R416). -/
def launchDone (s : State) (l : Launch) : Bool :=
  l.slots.all (fun e => !(s.slot e.1 e.2).launched && (slotRuns s e.1 e.2).isEmpty)

/-- RESULT of a LAUNCH: the work cycle of the last completion, and above it the held A-cycles of the launch, saturating; 0 in
Summer (R379). -/
def launchResult (s : State) (l : Launch) : Nat :=
  let x := s.part (s.ctx l.ctx).part
  l.lastDone % 2 ^ 32 + (if x.winter then min (x.heldTotal - l.heldBefore) (2 ^ 32 - 1) else 0) * 2 ^ 32

/-- The outcome of a LAUNCH (R379): return code and cause. -/
def launchOutcome (s : State) (l : Launch) : Nat × Nat :=
  match (s.ctx l.ctx).cause with
  | some cause => (rcFaulted, cause)
  | none => if l.stopped then (rcCancelled, 0x0C) else (0, 0)

/-- Publish a LAUNCH (R379). -/
def publishLaunch (s : State) (l : Launch) : State :=
  let (rc, cause) := launchOutcome s l
  let result := BitVec.ofNat 64 (launchResult s l)
  let tag := ctxTag s l.ctx
  publish { s with host := { s.host with launches := s.host.launches.erase l } } l.fn l.via l.taken 0x42 l.mute
    { rc := rc, result := result, tag := tag, cause := cause, poisoned := l.poisoned }

/-- Publish the launches that satisfy a test. -/
def publishLaunches (s : State) (f : Launch → Bool) : State :=
  forEach (s.host.launches.filter f) s (fun l t => publishLaunch t l)

/-- LAUNCH_PUBLISH: the oldest launch of a context whose programs have all ended is published (R379). -/
def launchPublishOp (c : Nat) (s : State) : State :=
  match s.host.launches.find? (fun l => l.ctx == c && launchDone s l) with
  | some l => settle (publishLaunch s l)
  | none => s

/-- LAUNCH_PUBLISH (R379). -/
def execLaunchPublish (ctx : CtxId) (s : State) : Host.Outcome State Fault Refusal := .next (launchPublishOp ctx.val s)

end Sys2Proof.Machine
end

