-- ==== Sys2Proof/Machine/Route.lean ====
section
/-! DEFINITION. The route engine (R222 to R238). -/

namespace Sys2Proof.Machine

/-! ### The descriptor (R234) -/

def rOp (b : List Byte) : Nat := fieldAt b 1 1
def rOobSkip (b : List Byte) : Bool := bitsAt b 2 1 0 0 == 1
def rRadix (b : List Byte) : Bool := bitsAt b 2 1 1 1 == 1
def rLargest (b : List Byte) : Bool := bitsAt b 2 1 2 2 == 1
def rChoiceIndex (b : List Byte) : Bool := bitsAt b 2 1 3 3 == 1
def rInitOut (b : List Byte) : Bool := bitsAt b 2 1 4 4 == 1
def rVal (b : List Byte) : Bool := bitsAt b 2 1 5 5 == 1
def rKeyType (b : List Byte) : Nat := bitsAt b 3 1 1 0
def rIdxMode (b : List Byte) : Nat := bitsAt b 3 1 3 2
def rShift (b : List Byte) : Nat := fieldAt b 6 1
def rStep (b : List Byte) : Nat := fieldAt b 28 4
def rSeed (b : List Byte) : Word := BitVec.ofNat 64 (fieldAt b 32 8)
def rSrc (b : List Byte) : Nat := fieldAt b 40 4
def rOut (b : List Byte) : Nat := fieldAt b 44 4
def rKeyId (b : List Byte) : Nat := fieldAt b 48 4
def rParam (b : List Byte) : Nat := fieldAt b 52 4
def rElems (b : List Byte) : Nat := fieldAt b 56 4
def rB (b : List Byte) : Nat := fieldAt b 60 4
def rCount (b : List Byte) : Nat := fieldAt b 64 4
def rLimit (b : List Byte) : Nat := fieldAt b 68 4
def rIdx (b : List Byte) : Nat := fieldAt b 72 8
def rOffs (b : List Byte) : Nat := fieldAt b 80 8
def rAux (b : List Byte) : Nat := fieldAt b 88 8
def rOut2 (b : List Byte) : Nat := fieldAt b 96 8
def rStatus (b : List Byte) : Nat := fieldAt b 104 8

/-- Operations by shape (R226): rows, elements, segments, digits. -/
def rRowOp (b : List Byte) : Bool := decide (rOp b ≤ 1)
def rElemOp (b : List Byte) : Bool := within 2 3 (rOp b)
def rSegOp (b : List Byte) : Bool := within 5 7 (rOp b)
def rDigitOp (b : List Byte) : Bool := within 8 0xA (rOp b)
/-- The operation reads SRC, and writes OUT, as a tensor. -/
def rUsesSrc (b : List Byte) : Bool := decide (rOp b ≤ 7) || rOp b == 0xB || rOp b == 0xD || rOp b == 0xE
def rUsesOut (b : List Byte) : Bool := rUsesSrc b
/-- Capacity of MOVE. -/
def rCapacity (b : List Byte) : Nat := if rOp b = 0xA then rParam b else 0
/-- The operation writes a choice (R229). -/
def rChoice (b : List Byte) : Bool := rOp b == 6 || (rOp b == 7 && rOut2 b != 0)

/-- Rows of a TOP_K. -/
def topRows (d : TensorDesc) (b : List Byte) : Nat := rCount b / d.dim0

/-- The planned length in L-cycles (R226). -/
def rPlanned (src : TensorDesc) (b : List Byte) : Nat :=
  let n := rCount b
  let w := ceilDiv src.rowBytes 16 + toBit (hasScales src.format)
  24 + (match rOp b with
    | 0x00 | 0x01 => ceilDiv (n * w) 64
    | 0x02 | 0x03 => ceilDiv n 64
    | 0x04 => if rElems b = 1 then ceilDiv n 32 else ceilDiv (n * rElems b) 128
    | 0x05 | 0x06 | 0x07 => ceilDiv n 128 + ceilDiv (rB b) 32
    | 0x08 => ceilDiv n 64 + 2 * ceilDiv (rB b) 64
    | 0x09 => ceilDiv (rB b) 64
    | 0x0A => ceilDiv n 32 + 2 * ceilDiv (rB b) 64 + (if rInitOut b then ceilDiv (rB b * rParam b) 256 else 0)
    | 0x0B => ceilDiv n 64 + topRows src b * ceilDiv (rParam b) 8
    | 0x0C => 2 * n + ceilDiv (rLimit b) 32
    | 0x0D => ceilDiv n 32
    | _ => ceilDiv n 256)

/-- The bytes of the choice list of a segmented operation over a number of elements (R229). -/
def choiceBytes (b : List Byte) (elems : Nat) : Nat := if rChoiceIndex b then rB b else ceilDiv elems 8

/-- The lists that a descriptor reads, as address and bytes (R224). -/
def rInLists (out : TensorDesc) (b : List Byte) : List (Nat × Nat) :=
  let n := rCount b
  (match rOp b with
   | 0x00 | 0x01 | 0x02 | 0x03 | 0x04 => [(rIdx b, 4 * n)]
   | 0x05 | 0x06 | 0x07 => [(rOffs b, 4 * (rB b + 1))] ++ (if rIdx b = 0 then [] else [(rIdx b, 4 * n)])
   | 0x08 => [(rIdx b, 4 * n)]
   | 0x0A => [(rIdx b, if rVal b then 8 * n else 4 * n)]
   | 0x0C => [(rOffs b, 4 * (rB b + 1)), (rIdx b, 4 * n)]
   | 0x0D => [(rOffs b, 4 * (rB b + 1)), (rOut2 b, choiceBytes b out.elems)] ++
      (if rIdx b = 0 then [] else [(rIdx b, 4 * n)])
   | _ => []).filter (fun e => decide (0 < e.2))

/-- The words at OFFS_ADDR that COUNT, SCAN and MOVE read and update in place (R230). -/
def rUpdated (b : List Byte) : List (Nat × Nat) :=
  if rOp b = 8 ∨ rOp b = 9 ∨ (rOp b = 0xA ∧ !(rCapacity b != 0 && rInitOut b)) then [(rOffs b, 4 * rB b)].filter (fun e => 0 < e.2) else []

/-- The lists that it writes whose length its fields fix. -/
def rOutLists (src : TensorDesc) (b : List Byte) : List (Nat × Nat) :=
  ((match rOp b with
   | 0x06 | 0x07 => if rChoice b then [(rOut2 b, choiceBytes b src.elems)] else []
   | 0x08 | 0x09 => [(rOffs b, 4 * rB b)]
   | 0x0A => [(rOffs b, 4 * rB b)] ++
      (if rParam b = 0 then [] else [(rAux b, 4 * rB b * rParam b), (rOut2 b, 4 * rB b * rParam b)])
   | 0x0B => [(rOut2 b, 4 * topRows src b * rParam b)]
   | 0x0C => [(rOut2 b, 4 * rLimit b), (rIdx b + 4 * rCount b, 4 * (rCount b + 1))] ++
      (if rStatus b = 0 then [] else [(rStatus b + 16, 4 * rLimit b)])
   | _ => []) ++ (if rStatus b = 0 then [] else [(rStatus b, 16)])).filter (fun e => decide (0 < e.2))

/-- A list lies wholly in scratchpad regions granted to a context (R235). -/
def listOk (s : State) (c : Nat) (write : Bool) (e : Nat × Nat) : Bool :=
  (loamPlace e.1 e.2).isSome && inPartition s (s.ctx c).part e.1 e.2 &&
  covered (ctxRegions s c) (fun x => if write then x.write else x.read) ((ctxRegions s c).length + 1) e.1 e.2

/-- Every tensor array lies where the engine may use it (R223): Loam, or HBM for the source of a gather in Summer with a cache
part. -/
def rPlaceOk (s : State) (sec c : Nat) (src out : TensorDesc) (b : List Byte) : Bool :=
  let p := (s.ctx c).part
  let gather := rOp b == 0 || rOp b == 2
  (rOp b == 0xE || inLoam src || (gather && !(s.part p).winter && secUnits s sec != 0)) && inLoam out

/-- The positions that a descriptor names by list position exist in their tensors (R155, R235). -/
def rExtentOk (src out : TensorDesc) (b : List Byte) : Bool :=
  let n := rCount b
  match rOp b with
  | 0x00 => decide (n ≤ out.rows)
  | 0x01 => decide (n ≤ src.rows)
  | 0x02 => decide (n ≤ out.elems)
  | 0x03 => decide (n ≤ src.elems)
  | 0x04 => decide (1 ≤ rElems b) && decide (n * rElems b ≤ src.elems)
  | 0x05 | 0x06 | 0x07 => decide (rB b ≤ out.elems) && (rIdx b != 0 || decide (n ≤ src.elems))
  | 0x0B => decide (n % src.dim0 = 0) && decide (topRows src b ≤ src.rows) && decide (topRows src b ≤ out.rows) &&
      within 1 1024 (rParam b) && decide (rParam b ≤ src.dim0) && decide (rParam b ≤ out.dim0)
  | 0x0D => decide (rB b ≤ src.elems)
  | 0x0E => decide (src.rows ≤ out.rows) && decide (ceilDiv src.dim0 8 ≤ out.dim0)
  | _ => true

/-- The formats fit the operation (R228, R231, R233, R235). -/
def rFormatsOk (src out : TensorDesc) (b : List Byte) : Bool :=
  let same := src.format == out.format && src.dim0 == out.dim0 && src.block == out.block && src.ue5m3 == out.ue5m3
  if rRowOp b then same
  else if rElemOp b then same && !hasScales src.format && !isExt src.format && [8, 16, 32].contains src.elem.width
  else if rOp b = 4 || rSegOp b || rOp b = 0xD then !hasScales out.format
  else if rOp b = 0xB then src.format == out.format && !hasScales src.format
  else if rOp b = 0xE then out.format == 0x20
  else true

/-! ### What an operation yields -/

/-- Cells written in order, ranges read with the list positions that read them, counts, conversion results, ranges whose values the spec does not state, and the
fault that stops it with its list position. -/
structure RouteOut where
  cells : List Cell := []
  reads : List (Nat × Nat × Nat) := []
  absent : Nat := 0
  skipped : Nat := 0
  dropped : Nat := 0
  consumed : Option Nat := none
  written : Option Nat := none
  conv : OutRes := {}
  bad : Nat := 0
  open_ : List (Nat × Nat) := []
  fault : Option (Nat × Nat) := none
  deriving DecidableEq, Repr

/-- A word of a list (R224). -/
def listWord (s : State) (a j : Nat) : Nat := leNat (readBytes s (a + 4 * j) 4)

/-- A word written into a list. -/
def wordCells (a j v : Nat) : List Cell := cellsAt (a + 4 * j) (leBytes 4 v)

/-- A list entry: absent, out of range, or the place it names (R224, R236). -/
inductive RIndex where
  | absent | out | at_ (k : Nat)
  deriving DecidableEq, Repr

/-- The destination of entry `j` of an index list (R226). -/
def rDest (b : List Byte) (d0 j i : Nat) : Nat :=
  match rIdxMode b with
  | 0 => i
  | 1 => i + d0 * (j / rParam b)
  | _ => i + d0 * (j % rParam b)

/-- The entries of the index list: `f` gives the place of entry j with index i, below `limit`. -/
def rEntries (s : State) (b : List Byte) (f : Nat → Nat → Nat) (limit : Nat) : List RIndex :=
  (upTo (rCount b)).map (fun j =>
    let i := listWord s (rIdx b) j
    if i = 0xFFFFFFFF then .absent else if f j i < limit then .at_ (f j i) else .out)

/-- Counts of a list's entries, and its fault where out-of-range entries are not skipped; entries from the fault on have no
effect. -/
def rJudge (b : List Byte) (l : List RIndex) : List RIndex × RouteOut :=
  match (if rOobSkip b then none else l.findIdx? (· == .out)) with
  | some i => (l.take i, { fault := some (8, i) })
  | none => (l, { absent := (l.filter (· == .absent)).length, skipped := (l.filter (· == .out)).length })

/-! ### Rows and elements -/

/-- The byte ranges of a row in each array of a tensor. -/
def rowParts (d : TensorDesc) (r : Nat) : List (Nat × Nat) :=
  [(d.base + r * d.rowBytes, d.rowBytes)] ++
  (if hasScales d.format then [(d.scaleAddr + r * d.rowBlocks, d.rowBlocks)] else []) ++
  (if isExt d.format then [(d.auxAddr + r * d.dim0, d.dim0)] else [])

/-- Copy ranges onto ranges of the same lengths. -/
def copyParts (s : State) (src dst : List (Nat × Nat)) : List Cell :=
  (List.zipWith (fun a d => cellsAt d.1 (readBytes s a.1 a.2)) src dst).flatten

/-- Zero bytes over ranges. -/
def zeroParts (dst : List (Nat × Nat)) : List Cell := dst.flatMap (fun d => cellsAt d.1 (List.replicate d.2 0))

/-- GATHER_ROWS, GATHER_ELEMS, SCATTER_ROWS and SCATTER_ELEMS (R226, R227): `parts` gives the ranges of a unit. -/
def rMove (s : State) (b : List Byte) (gather : Bool) (l : List RIndex) (src dst : Nat → List (Nat × Nat)) : RouteOut :=
  let (l, o) := rJudge b l
  l.zipIdx.foldl (fun o e =>
    match e.1 with
    | .at_ k =>
      let (a, d) := if gather then (src k, dst e.2) else (src e.2, dst k)
      { o with cells := o.cells ++ copyParts s a d, reads := o.reads ++ a.map (fun r => (e.2, r)) }
    | .absent => if gather then { o with cells := o.cells ++ zeroParts (dst e.2) } else o
    | .out => o) o

/-- The byte range of one element of a format of whole bytes. -/
def elemPart (d : TensorDesc) (i : Nat) : List (Nat × Nat) :=
  [(d.base + i / d.dim0 * d.rowBytes + i % d.dim0 * d.bits / 8, d.bits / 8)]

/-! ### Arithmetic (R227 to R229) -/

/-- Both tensors hold integers: the operation computes exactly in INT32 (R228). -/
def rIsInt (src out : TensorDesc) : Bool := isIntFmt src.format && isIntFmt out.format

/-- The value of element `i` of a tensor as the engine uses it (R142, R228). -/
def rElem (s : State) (d : TensorDesc) (isInt : Bool) (i : Nat) : Val :=
  if isInt then fullVal s d (i / d.dim0) (i % d.dim0) else src32 s d (i / d.dim0) (i % d.dim0)

/-- Addition of R228. -/
def rAdd (isInt : Bool) (a b : Val) : Val := if isInt then vadd a b else add32 a b

/-- The ranges of an element in a tensor. -/
def elemRanges (d : TensorDesc) (i : Nat) : List (Nat × Nat) := rowRanges d (i / d.dim0) (i % d.dim0) 1

/-- Convert values into elements of an unscaled tensor (R95 to R99, R105). -/
def rConvert (s : State) (t : Tensor) (b : List Byte) (l : List (Nat × Val)) : List Cell × OutRes :=
  convertInto s t (convCtxOf t (rSeed b) (rStep b)) l

/-- Add contributions, in order, to the elements of OUT that they name; each is converted once at the end (R227). -/
def rAccumulate (s : State) (t : Tensor) (b : List Byte) (isInt : Bool) (l : List (Nat × Val)) : List Cell × OutRes :=
  let sums := l.foldl (fun (a : Tab (Option Val)) e =>
    let old := (tabGet none a e.1).getD (rElem s t.desc isInt e.1)
    tabSet none a e.1 (some (rAdd isInt old e.2))) []
  rConvert s t b (sums.filterMap (fun e => e.2.map (fun v => (e.1, v))))

/-- The ternary 0b10 values among elements read (R75, R200). -/
def badElems (s : State) (d : TensorDesc) (l : List Nat) : Nat :=
  (l.filter (fun i => isBadTern s d (i / d.dim0) (i % d.dim0))).length

/-- SCATTER_ADD (R227). -/
def rScatterAdd (s : State) (src out : Tensor) (b : List Byte) : RouteOut :=
  let e := rElems b
  let isInt := rIsInt src.desc out.desc
  let (l, o) := rJudge b (rEntries s b (rDest b out.desc.dim0) (out.desc.elems / e))
  let pairs := l.zipIdx.flatMap (fun x => match x.1 with
    | .at_ k => (upTo e).map (fun u => (k * e + u, x.2 * e + u))
    | _ => [])
  let (cells, conv) := rAccumulate s out b isInt (pairs.map (fun x => (x.1, rElem s src.desc isInt x.2)))
  { o with cells := cells, conv := conv, bad := badElems s src.desc (pairs.map (·.2)),
           reads := pairs.flatMap (fun x =>
             (elemRanges src.desc x.2 ++ elemRanges out.desc x.1).map (fun r => (x.2 / e, r))) }

/-- The offsets of a list of B + 1 words. -/
def rOffsets (s : State) (b : List Byte) : List Nat := (upTo (rB b + 1)).map (listWord s (rOffs b))

/-- The first offset that is below its predecessor or past a limit (R236). -/
def badOffset (l : List Nat) (limit : Nat) : Option Nat :=
  (upTo l.length).find? (fun i => decide (limit < l.getD i 0) || (i != 0 && decide (l.getD i 0 < l.getD (i - 1) 0)))

/-- The element that list position `j` of a segmented operation names. -/
def segIndex (s : State) (b : List Byte) (elems j : Nat) : RIndex :=
  if rIdx b = 0 then (if j < elems then .at_ j else .out)
  else
    let i := listWord s (rIdx b) j
    if i = 0xFFFFFFFF then .absent else if i < elems then .at_ i else .out

/-- The segments of a descriptor, each as the list positions that name an element, with that element, and the counts of
R236; or the fault that stops it. -/
def rSegments (s : State) (b : List Byte) (elems : Nat) : List (List (Nat × Nat)) × RouteOut :=
  let off := rOffsets s b
  match badOffset off (rCount b) with
  | some i => ([], { fault := some (0xA, i) })
  | none =>
    let long := (upTo (rB b)).find? (fun k => decide (255 < off.getD (k + 1) 0 - off.getD k 0))
    match (if rChoiceIndex b && (rOp b = 6 || rOp b = 7 || rOp b = 0xD) then long else none) with
    | some k => ([], { fault := some (1, k) })
    | none =>
      let segs := (upTo (rB b)).map (fun k =>
        (spanOf (off.getD k 0) (off.getD (k + 1) 0 - off.getD k 0)).map (fun j => (j, segIndex s b elems j)))
      let all := segs.flatten
      match (if rOobSkip b then none else all.find? (fun e => e.2 == .out)) with
      | some e => ([], { fault := some (8, e.1) })
      | none =>
        (segs.map (fun l => l.filterMap (fun e => match e.2 with | .at_ i => some (e.1, i) | _ => none)),
         { absent := (all.filter (fun e => e.2 == .absent)).length, skipped := (all.filter (fun e => e.2 == .out)).length })

/-- The choice of a segment: its list position and element (R229). -/
def segChoice (vals : List (Nat × Nat × Val)) (best : Val) : Option (Nat × Nat) :=
  match best with
  | .nan => none
  | _ => (vals.find? (fun e => e.2.2 == best)).map (fun e => (e.1, e.2.1))

/-- Cells of the choice (R229). -/
def choiceCells (s : State) (b : List Byte) (off : List Nat) (segs : List (List (Nat × Nat)))
    (choices : List (Option (Nat × Nat))) : List Cell :=
  if rChoiceIndex b then
    choices.zipIdx.map (fun e => (rOut2 b + e.2, BitVec.ofNat 8 (match e.1 with
      | some (j, _) => j - off.getD e.2 0
      | none => 0xFF)))
  else
    let chosen := choices.filterMap (fun c => c.map (·.2))
    let put (t : Tab (Option Byte)) (i v : Nat) : Tab (Option Byte) := putBitsAt s t (rOut2 b + i / 8) (i % 8) 1 v
    let t := segs.flatten.foldl (fun t e => put t e.2 0) ([] : Tab (Option Byte))
    pendingCells (chosen.foldl (fun t i => put t i 1) t)

/-- SEG_SUM, SEG_MAX and SEG_MIN (R229). -/
def rSegment (s : State) (src out : Tensor) (b : List Byte) : RouteOut :=
  let isInt := rIsInt src.desc out.desc
  let (segs, o) := rSegments s b src.desc.elems
  if o.fault.isSome then o
  else
    let vals := segs.map (fun l => l.map (fun e => (e.1, e.2, rElem s src.desc isInt e.2)))
    let results := vals.map (fun l =>
      let vs := l.map (fun e => e.2.2)
      if rOp b = 5 then rowTree (rAdd isInt) vzero vs
      else rowTree (if rOp b = 6 then vmax else vmin) .nan vs)
    let (cells, conv) := rConvert s out b (results.zipIdx.map (fun e => (e.2, e.1)))
    let choices := List.zipWith segChoice vals results
    { o with cells := cells ++ (if rChoice b then choiceCells s b (rOffsets s b) segs choices else []), conv := conv,
             bad := badElems s src.desc (segs.flatten.map (·.2)),
             reads := segs.flatten.flatMap (fun e => (elemRanges src.desc e.2).map (fun r => (e.1, r))) }

/-- The element chosen by a segment, read back for POOL_BACK (R229). -/
def backChoice (s : State) (b : List Byte) (start k : Nat) (l : List (Nat × Nat)) : Option Nat :=
  if rChoiceIndex b then
    let v := (memByte s (rOut2 b + k)).toNat
    if v = 0xFF then none else (l.find? (fun e => e.1 == start + v)).map (·.2)
  else (l.find? (fun e => bitOf (memByte s (rOut2 b + e.2 / 8)).toNat (e.2 % 8))).map (·.2)

/-- POOL_BACK (R229). -/
def rPoolBack (s : State) (src out : Tensor) (b : List Byte) : RouteOut :=
  let isInt := rIsInt src.desc out.desc
  let (segs, o) := rSegments s b out.desc.elems
  if o.fault.isSome then o
  else
    let off := rOffsets s b
    let pairs := segs.zipIdx.filterMap (fun e => (backChoice s b (off.getD e.2 0) e.2 e.1).map (fun i => (i, e.2)))
    let (cells, conv) := rAccumulate s out b isInt (pairs.map (fun x => (x.1, rElem s src.desc isInt x.2)))
    { o with cells := cells, conv := conv, bad := badElems s src.desc (pairs.map (·.2)),
             reads := pairs.flatMap (fun x => (elemRanges src.desc x.2 ++ elemRanges out.desc x.1).map (fun r => (x.2, r))) }

/-! ### Digits (R230) -/

/-- The transform of a key. -/
def keyTransform (b : List Byte) (k : Nat) : Nat :=
  match rKeyType b with
  | 0 => k
  | 1 => (k + 0x80000000) % 2 ^ 32
  | _ =>
    if 0x7F800000 < k % 0x80000000 then 0xFFFFFFFF
    else if 0x80000000 ≤ k then 0xFFFFFFFF - k else k + 0x80000000

/-- The digit of a key; none where it is out of range. -/
def keyDigit (b : List Byte) (k : Nat) : Option Nat :=
  if rRadix b then some (keyTransform b k / 2 ^ rShift b % rB b)
  else if k < rB b then some k else none

/-- The digits of the key list, with their counts and fault. -/
def rDigits (s : State) (b : List Byte) : List RIndex × RouteOut :=
  rJudge b ((upTo (rCount b)).map (fun j =>
    let k := listWord s (rIdx b) j
    if k = 0xFFFFFFFF then .absent else match keyDigit b k with | some d => .at_ d | none => .out))

/-- The words at OFFS_ADDR. -/
def rCounts (s : State) (b : List Byte) : List Nat := (upTo (rB b)).map (listWord s (rOffs b))

/-- Write words at OFFS_ADDR; a value past 32 bits is one the spec does not state. -/
def rPutCounts (b : List Byte) (l : List Nat) : List Cell × List (Nat × Nat) :=
  (l.zipIdx.flatMap (fun e => wordCells (rOffs b) e.2 e.1),
   (l.zipIdx.filter (fun e => decide (2 ^ 32 ≤ e.1))).map (fun e => (rOffs b + 4 * e.2, 4)))

/-- COUNT. -/
def rCountOp (s : State) (b : List Byte) : RouteOut :=
  let (l, o) := rDigits s b
  let cs := l.foldl (fun c e => match e with | .at_ d => c.modify d (· + 1) | _ => c) (rCounts s b)
  let (cells, free) := rPutCounts b cs
  { o with cells := cells, open_ := free }

/-- SCAN: exclusive prefix sums in place. -/
def rScan (s : State) (b : List Byte) : RouteOut :=
  let (l, _) := (rCounts s b).foldl (fun (a : List Nat × Nat) x => (a.1 ++ [a.2], a.2 + x)) ([], 0)
  let (cells, free) := rPutCounts b l
  { cells := cells, open_ := free }

/-- MOVE lays its buckets out afresh: a capacity with INIT_OUT. -/
def rFill (b : List Byte) : Bool := rCapacity b != 0 && rInitOut b

/-- How MOVE places its entries: the slots taken, each with its list position, the positions dropped, and the buckets' counts after. -/
structure Moved where
  pos : List Nat
  placed : List (Nat × Nat) := []
  drops : List Nat := []
  deriving DecidableEq, Repr

/-- Distribute the entries of a key list, earlier ones first (R230). -/
def rPlace (s : State) (b : List Byte) (l : List RIndex) : Moved :=
  let cap := rCapacity b
  l.zipIdx.foldl (fun (m : Moved) e =>
    match e.1 with
    | .at_ d =>
      let p := m.pos.getD d 0
      if cap ≠ 0 ∧ cap ≤ p then { m with drops := m.drops ++ [e.2] }
      else { m with pos := m.pos.modify d (· + 1), placed := m.placed ++ [(if cap = 0 then p else d * cap + p, e.2)] }
    | _ => m) { pos := if rFill b then List.replicate (rB b) 0 else rCounts s b }

/-- The words that MOVE writes into its lists at AUX_ADDR and OUT2_ADDR, and its drop list (R230, R235). -/
def rMoveLists (s : State) (b : List Byte) : List (Nat × Nat) :=
  if rOp b ≠ 0xA then []
  else
    let m := rPlace s b (rDigits s b).1
    m.placed.flatMap (fun e => [(rAux b + 4 * e.1, 4), (rOut2 b + 4 * e.1, 4)]) ++
    (if rStatus b = 0 then [] else [(rStatus b + 16, 4 * m.drops.length)]).filter (fun e => decide (0 < e.2))

/-- MOVE: stable distribution by digit, with or without a capacity. -/
def rMoveOp (s : State) (b : List Byte) : RouteOut :=
  let (l, o) := rDigits s b
  let m := rPlace s b l
  let fill := if rFill b then
      (upTo (rB b * rCapacity b)).flatMap (fun k => wordCells (rAux b) k 0xFFFFFFFF ++ wordCells (rOut2 b) k 0xFFFFFFFF) else []
  let cells := m.placed.flatMap (fun e =>
    wordCells (rAux b) e.1 (listWord s (rIdx b) e.2) ++
    wordCells (rOut2 b) e.1 (if rVal b then listWord s (rIdx b) (rCount b + e.2) else e.2))
  let (tail, free) := rPutCounts b m.pos
  let dropCells := if rStatus b = 0 then [] else m.drops.zipIdx.flatMap (fun e => wordCells (rStatus b + 16) e.2 e.1)
  { o with cells := fill ++ cells ++ dropCells ++ tail, dropped := m.drops.length, written := some m.placed.length, open_ := free }

/-! ### TOP_K, EXPAND, KEYED_MASK (R231 to R233) -/

/-- Put an element into a list that is best first; equals keep the lower index first. -/
def topInsert (largest : Bool) (x : Nat × Val) : List (Nat × Val) → List (Nat × Val)
  | [] => [x]
  | y :: t => if better largest x.2 y.2 then x :: y :: t else y :: topInsert largest x t

/-- The selected elements of a row, best first, as indices within the row. -/
def topOf (largest : Bool) (vs : List Val) : List Nat :=
  (vs.zipIdx.foldl (fun l e => if e.1 = .nan then l else topInsert largest (e.2, e.1) l) []).map (·.1)

/-- TOP_K. -/
def rTopK (s : State) (src out : Tensor) (b : List Byte) : RouteOut :=
  let d := src.desc
  let k := rParam b
  let rows := upTo (topRows d b)
  let (acc, idx) := rows.foldl (fun (a : Tab (Option Byte) × List Cell) r =>
    let sel := (topOf (rLargest b) ((upTo d.dim0).map (elemVal s d r))).take k
    (upTo k).foldl (fun a i =>
      let code := match sel[i]? with | some x => elemRaw s d r x | none => d.elem.nanCode
      (putCode s out.desc a.1 (r * out.desc.dim0 + i) code,
       a.2 ++ wordCells (rOut2 b) (r * k + i) ((sel[i]?).getD 0xFFFFFFFF))) a) ([], [])
  { cells := pendingCells acc ++ idx, reads := rows.flatMap (fun r => (rowRanges d r 0 d.dim0).map (fun e => (r * d.dim0, e))) }

/-- The edges that a vertex emits: all, or those with the smallest keyed values under a degree cap, ascending. -/
def vertexEdges (b : List Byte) (lo n : Nat) : List Nat :=
  let es := spanOf lo n
  let cap := rParam b
  if cap = 0 ∨ n ≤ cap then es
  else
    let key (e : Nat) : Nat := keyed (rSeed b) (rKeyId b) (rStep b) (BitVec.ofNat 64 e)
    let ordered := es.foldl (fun (l : List Nat) e => (l.takeWhile (fun x => decide (key x ≤ key e))) ++ [e] ++
      (l.dropWhile (fun x => decide (key x ≤ key e)))) []
    let keep := ordered.take cap
    es.filter (fun e => keep.contains e)

/-- The walk over the frontier: output offsets, edges so far with the frontier positions that emit them, positions expanded, whether it
goes on, and the out-of-range vertex that stops it. -/
structure Walk where
  offsets : List Nat := []
  edges : List (Nat × Nat) := []
  consumed : Nat := 0
  live : Bool := true
  fault : Option Nat := none
  deriving DecidableEq, Repr

/-- The column list of EXPAND (R232). -/
def rColumns (s : State) (b : List Byte) : List (Nat × Nat) :=
  if rOp b ≠ 0xC then [] else [(rAux b, 4 * listWord s (rOffs b) (rB b))].filter (fun e => decide (0 < e.2))

/-- One frontier position of EXPAND; nothing after the position that stops it is looked at (R232, R236). -/
def rWalk (b : List Byte) (off : List Nat) (w : Walk) (e : RIndex × Nat) : Walk :=
  let here := { w with offsets := w.offsets ++ [w.edges.length] }
  if !w.live then here
  else match e.1 with
    | .out => if rOobSkip b then { here with consumed := w.consumed + 1 } else { here with live := false, fault := some e.2 }
    | .absent => { here with consumed := w.consumed + 1 }
    | .at_ v =>
      let es := vertexEdges b (off.getD v 0) (off.getD (v + 1) 0 - off.getD v 0)
      if w.edges.length + es.length ≤ rLimit b then
        { here with edges := w.edges ++ es.map (fun x => (e.2, x)), consumed := w.consumed + 1 }
      else { here with live := false }

/-- EXPAND. -/
def rExpand (s : State) (b : List Byte) : RouteOut :=
  let off := rOffsets s b
  match badOffset off (off.getD (rB b) 0) with
  | some i => { fault := some (0xA, i) }
  | none =>
    let l := rEntries s b (fun _ i => i) (rB b)
    let w := l.zipIdx.foldl (rWalk b off) {}
    let seen := l.take w.consumed
    let edges := w.edges.map (·.2)
    { cells := edges.zipIdx.flatMap (fun e => wordCells (rOut2 b) e.2 (listWord s (rAux b) e.1)) ++
        (if rStatus b = 0 then [] else edges.zipIdx.flatMap (fun e => wordCells (rStatus b + 16) e.2 e.1)) ++
        (w.offsets ++ [edges.length]).zipIdx.flatMap (fun e => wordCells (rIdx b + 4 * rCount b) e.2 e.1),
      reads := w.edges.map (fun e => (e.1, rAux b + 4 * e.2, 4)), consumed := some w.consumed, written := some edges.length,
      absent := (seen.filter (· == .absent)).length, skipped := (seen.filter (· == .out)).length,
      fault := w.fault.map (fun i => (8, i)) }

/-- KEYED_MASK (R179, R233). -/
def rKeyedMask (src out : Tensor) (b : List Byte) : RouteOut :=
  let d0 := src.desc.dim0
  let cells := (upTo src.desc.rows).flatMap (fun r => (upTo (ceilDiv d0 8)).map (fun k =>
    let bit (i : Nat) : Nat :=
      if 8 * k + i < d0 then
        toBit (decide (rParam b ≤ keyed (rSeed b) (rOut b) (rStep b) (BitVec.ofNat 64 (r * d0 + 8 * k + i)))) * 2 ^ i
      else 0
    (out.desc.base + r * out.desc.rowBytes + k, BitVec.ofNat 8 (sumNat ((upTo 8).map bit)))))
  { cells := cells }

/-- What a valid descriptor does. -/
def routeRun (s : State) (c : Nat) (b : List Byte) : RouteOut :=
  let src := s.tensor (s.ctx c).part (rSrc b)
  let out := s.tensor (s.ctx c).part (rOut b)
  match rOp b with
  | 0x00 => rMove s b true (rEntries s b (fun _ i => i) src.desc.rows) (rowParts src.desc) (rowParts out.desc)
  | 0x01 => rMove s b false (rEntries s b (fun _ i => i) out.desc.rows) (rowParts src.desc) (rowParts out.desc)
  | 0x02 => rMove s b true (rEntries s b (rDest b src.desc.dim0) src.desc.elems) (elemPart src.desc) (elemPart out.desc)
  | 0x03 => rMove s b false (rEntries s b (rDest b out.desc.dim0) out.desc.elems) (elemPart src.desc) (elemPart out.desc)
  | 0x04 => rScatterAdd s src out b
  | 0x05 | 0x06 | 0x07 => rSegment s src out b
  | 0x08 => rCountOp s b
  | 0x09 => rScan s b
  | 0x0A => rMoveOp s b
  | 0x0B => rTopK s src out b
  | 0x0C => rExpand s b
  | 0x0D => rPoolBack s src out b
  | _ => rKeyedMask src out b

/-! ### Execution -/

/-- The inputs that must not meet the outputs (R237): SRC, the input lists, the column list of EXPAND. -/
def rInputs (s : State) (src out : TensorDesc) (b : List Byte) : List (Nat × Nat) :=
  (if rUsesSrc b && rOp b != 0xE then src.arrays else []) ++ rInLists out b ++ rColumns s b

/-- A list lies in regions of the context that are frozen (R240). -/
def frozenList (s : State) (c : Nat) (e : Nat × Nat) : Bool :=
  e.2 == 0 || covered (ctxRegions s c) (fun x => x.frozen) ((ctxRegions s c).length + 1) e.1 e.2

/-- A descriptor may run in the Winter schedule (R240); MOVE's key list must be frozen beside a capacity fill too (log entry 145). -/
def winterRoute (s : State) (c : Nat) (b : List Byte) : Bool :=
  let p := (s.ctx c).part
  let src := (s.tensor p (rSrc b)).desc
  let out := (s.tensor p (rOut b)).desc
  (!(rOp b == 0 || rOp b == 2) || inLoam src) &&
  (match rOp b with
   | 0x08 | 0x09 | 0x0B | 0x0E => true
   | 0x0A => (rInLists out b).all (frozenList s c) && (rFill b || frozenList s c (rOffs b, 4 * rB b))
   | 0x0D => (rIdx b == 0 || frozenList s c (rIdx b, 4 * rCount b)) && frozenList s c (rOut2 b, choiceBytes b out.elems)
   | _ => (rInLists out b ++ rColumns s b).all (frozenList s c))

/-- A route descriptor is invalid (R155, R235); in Winter also one that may not run there (R240, log entry 145). -/
def routeBad (s : State) (sec : Nat) (j : Job) : Bool :=
  let b := j.bytes
  let c := j.ctx
  let ts := s.tensor (s.ctx c).part (rSrc b)
  let to_ := s.tensor (s.ctx c).part (rOut b)
  fieldAt b 0 1 != 0x10 || 0xF ≤ rOp b || bitsAt b 2 1 7 6 != 0 || bitsAt b 3 1 7 4 != 0 || fieldAt b 7 1 != 0 ||
  fieldAt b 112 16 != 0 || 32 ≤ rShift b || rKeyType b == 3 || rIdxMode b == 3 ||
  (rOp b != 4 && rElems b != 1) ||
  ((within 2 4 (rOp b)) && rIdxMode b != 0 && rParam b == 0) ||
  (rDigitOp b && (!within 1 4096 (rB b) || (rRadix b && 2 ^ (rB b).log2 != rB b))) ||
  (rOp b == 0xE && 65536 < rParam b) || !talliesOwned s c b ||
  (rUsesSrc b && (!tensorValid s (s.ctx c).part (rSrc b) || !tensorValid s (s.ctx c).part (rOut b) || !rFormatsOk ts.desc to_.desc b || !rExtentOk ts.desc to_.desc b ||
    !rPlaceOk s sec c ts.desc to_.desc b || (rOp b != 0xE && !tensorGranted s c ts false) || !tensorGranted s c to_ true)) ||
  ((rOp b == 4 || rOp b == 0xD) && !tensorGranted s c to_ false) ||
  (rInLists to_.desc b ++ rUpdated b ++ rColumns s b).any (fun e => !listOk s c false e) ||
  (rOutLists ts.desc b ++ rMoveLists s b).any (fun e => !listOk s c true e) ||
  ((s.part (s.ctx c).part).winter && !winterRoute s c b) ||
  decide (5461 < rPlanned ts.desc b)

/-- Bytes written where an output meets an input, or whose value the spec does not state, are free values (R237, log
entry 9). -/
def spoilCells (s : State) (rs : List (Nat × Nat)) (cells : List Cell) : State × List Cell :=
  cells.foldl (fun a e =>
    if rs.any (fun r => decide (r.1 ≤ e.1) && decide (e.1 < r.1 + r.2)) then
      let (w, t) := a.1.freeDraw
      (t, a.2 ++ [(e.1, w.setWidth 8)])
    else (a.1, a.2 ++ [e])) (s, [])

/-- The status record (R234). CONSUMED and WRITTEN are stated for EXPAND, WRITTEN is read as the entries placed for MOVE; elsewhere
they are free values. -/
def statusCells (s : State) (b : List Byte) (o : RouteOut) : State × List Cell :=
  if rStatus b = 0 then (s, [])
  else
    let (w0, s) := if o.consumed.isSome then (0, s) else s.freeDraw
    let (w1, s) := if o.written.isSome then (0, s) else s.freeDraw
    (s, cellsAt (rStatus b) (leBytes 4 (o.consumed.getD (w0.toNat % 2 ^ 32)) ++ leBytes 4 (o.written.getD (w1.toNat % 2 ^ 32)) ++
      leBytes 4 o.dropped ++ leBytes 4 o.skipped))

/-- 16-byte words that a range touches. -/
def wordsOf (e : Nat × Nat) : Nat := if e.2 = 0 then 0 else (e.1 + e.2 - 1) / 16 + 1 - e.1 / 16

/-- Words that cells touch, each change of word counted. -/
def wordRuns (l : List Cell) : Nat :=
  (l.foldl (fun (a : Nat × Option Nat) e => if a.2 = some (e.1 / 16) then a else (a.1 + 1, some (e.1 / 16))) (0, none)).1

/-- A route descriptor faults: CORE_ROUTE_FAULT_LAST for the causes that it holds, then the context (R236, R241). -/
def routeFault (s : State) (sec : Nat) (j : Job) (cause pos : Nat) (poison : Bool) : State :=
  let w := 2 ^ 63 + cause * 2 ^ 48 + j.ctx % 512 * 2 ^ 32 + pos % 2 ^ 32
  let s := if cause = 0x0E then s else s.setRaw ⟨.coreRouteFaultLast, sec, 0⟩ (BitVec.ofNat 64 w)
  endFault s 2 sec j cause poison

/-- The tensors that a descriptor marks POISONED (R102, R103). -/
def routePoison (s : State) (j : Job) (o : RouteOut) : List Nat :=
  let p := (s.ctx j.ctx).part
  let b := j.bytes
  let dirty := rUsesSrc b && rOp b != 0xE && (s.tensor p (rSrc b)).desc.poisoned
  if rUsesOut b && (dirty || o.conv.poison || o.bad != 0) then [rOut b] else []

/-- What a descriptor reads, with the list positions: its lists word by word, then its data. -/
def routeReads (out : TensorDesc) (b : List Byte) (o : RouteOut) : List (Nat × Nat × Nat) :=
  (rInLists out b ++ rUpdated b).flatMap (fun e => (upTo (ceilDiv e.2 4)).map (fun k => (k, e.1 + 4 * k, min 4 (e.2 - 4 * k)))) ++ o.reads

/-- A range in HBM is read word by word, each of 16 bytes an access of its own (R223); a range in Loam is read as it stands. -/
def wordReads (e : Nat × Nat) : List (Nat × Nat) :=
  if inHbm e.1 e.2 then
    (upTo (wordsOf e)).map (fun k =>
      let a := max e.1 (e.1 / 16 * 16 + 16 * k)
      (a, min (e.1 + e.2) (e.1 / 16 * 16 + 16 * (k + 1)) - a))
  else [e]

/-- The list position at which a bad word stops a descriptor: the first that reads it (R241). -/
def badPos (reads : List (Nat × Nat × Nat)) (a : Nat) : Nat :=
  ((reads.filter (fun r => decide (r.2.1 < a / 16 * 16 + 16) && decide (a / 16 * 16 < r.2.1 + r.2.2))).map (·.1)).head?.getD 0

/-- In Summer the grants of younger accesses over older ones are counted: how many there are rests on the banks that other requesters
leave free, a free number (R225, R261, log entry 143). -/
def routeGrants (s : State) (p : Nat) : State :=
  if (s.part p).winter then s
  else
    let (w, s) := s.freeDraw
    s.bump fRplChoiceGrantGrant p 0 (w.toNat % 2 ^ 16)

/-- A descriptor that faults on the way has read and written some of its words: up to all, a free number (R236, R241, log entry 146). -/
def routeStops (s : State) (sec : Nat) (j : Job) (words : Nat) (cells : List Cell) (cause pos : Nat) (poison : Bool) : State :=
  let (w, s) := (partialWrites s (cells.filter (fun e => writeOk s j.ctx e.1 1))).freeDraw
  routeFault (s.bump fCoreRouteWordsWords sec 0 (w.toNat % (words + 1))) sec j cause pos poison

/-- A descriptor has issued its last access: the engine may take the next, and this one waits to signal (R222). -/
def routeIssued (s : State) (sec : Nat) (j : Job) : State :=
  s.modEngine (engineKey 2 sec) (fun y => { y with job := none, ending := y.ending ++ [j] })

/-- The route engine takes and executes its next descriptor. -/
def routeDescriptorOp (sec : Nat) (s : State) : State :=
  match takeDesc s 2 sec with
  | (s, none) => s
  | (s, some j) =>
    let b := j.bytes
    let p := (s.ctx j.ctx).part
    let src := (s.tensor p (rSrc b)).desc
    let out := (s.tensor p (rOut b)).desc
    if routeBad s sec j then routeFault s sec j 1 0 false
    else
      let o := routeRun s j.ctx b
      let reads := routeReads out b o
      let (s, errs) := readAll (routeGrants s p) (reads.flatMap (fun r => wordReads r.2))
      let (s, cells) := spoilCells s (rInputs s src out b ++ o.open_) o.cells
      let words := sumNat ((rInLists out b ++ rUpdated b).map wordsOf) + sumNat (o.reads.map (fun r => wordsOf r.2))
      match worstOf errs, o.fault with
      | some poison, _ => routeStops s sec j (words + wordRuns cells) cells 6 (badPos reads ((errs.head?.map (·.1)).getD 0)) poison
      | none, some (cause, pos) => routeStops s sec j (words + wordRuns cells) cells cause pos false
      | none, none =>
        let (s, status) := statusCells s b o
        let cells := cells ++ status
        if !cellsOk s j.ctx cells then routeStops s sec j (words + wordRuns cells) cells 0x0E 0 false
        else
          let ids := routePoison s j o
          let s := writeCells s cells
          let s := s.bump fCoreRouteWordsWords sec 0 (words + wordRuns cells)
          let s := (s.bump fCoreRouteOobAbsent sec 0 o.absent).bump fCoreRouteOobSkippedOob sec 0 o.skipped
          routeIssued s sec { j with phase := .dataDone, poison := !ids.isEmpty, poisonIds := ids,
                                     deltas := [(rOut b, o.conv.delta)], nf := o.conv.nf + o.bad }

/-- ROUTE_DESCRIPTOR (R222 to R237). -/
def execRouteDescriptor (sec : Sec) (hits : List Hit) (s : State) : Host.Outcome State Fault Refusal :=
  .next (routeDescriptorOp sec.val (upsetWords s hits))

/-- The oldest descriptor past its last access is no longer the engine's. -/
def routePast (s : State) (sec : Nat) : State := s.modEngine (engineKey 2 sec) (fun y => { y with ending := y.ending.tail })

/-- The oldest descriptor past its last access ends: counter adds and marks, then its signals, its count and its record (R160, R197,
R222, R241). -/
def routeEnd (s : State) (sec : Nat) : State :=
  match (s.engine (engineKey 2 sec)).ending with
  | j :: _ =>
    let p := (s.ctx j.ctx).part
    let s := poisonTensors (addNf (applyDeltas (routePast s sec) p j.deltas) j.ctx j.nf) p j.poisonIds
    endCounted s 2 sec j (fun t => t.bump fCoreRouteDescCompleted sec 0 1)
  | [] => s

/-- ROUTE_COMPLETE (R222): descriptors signal in queue order; none in a hold (R245). -/
def execRouteComplete (sec : Sec) (s : State) : Host.Outcome State Fault Refusal :=
  .next (if unitHeld s 2 sec.val then s else routeEnd s sec.val)

/-- ROUTE_WATCHDOG (R238): the oldest unsignalled descriptor stops, WDOG_FIRED is set, its context faults with cause 0x09. The position at
which it stopped rests on time: a free value (log entry 146). The watchdog of a held engine stands still (R245). -/
def execRouteWatchdog (sec : Sec) (s : State) : Host.Outcome State Fault Refusal :=
  .next (match (s.engine (engineKey 2 sec.val)).ending with
    | j :: _ =>
      if unitHeld s 2 sec.val then s
      else
        let s := healthEvent (s.setFld fCoreRouteStatusWdogFired sec.val 0 1) (huSection sec.val) 5 10
        let (w, s) := (routePast s sec.val).freeDraw
        routeFault s sec.val j 9 (w.toNat % 2 ^ 32) false
    | [] => s)

end Sys2Proof.Machine
end

