-- ==== Sys2Proof/Machine/SelfTest.lean ====
section
/-! DEFINITION. What resets and tests of a section share: its registers, units and memories at their reset values (R17, R420,
R449), and the start of an Autumn test (R448, R449). -/

namespace Sys2Proof.Machine

/-- The registers of a section that a partition reset clears (R72, R168, R221, R241, R298, R327); the last five of a link,
HBM_STATUS, HBM_LOOP and LOAM_SCRUB are not among them. -/
def sectionRegs : List RegName :=
  [.loamEccCount, .hbmEccCount, .loamEccLast, .hbmEccLast, .loamCacheStat, .loamCacheWb, .hbmRefresh, .hbmLoopResult,
   .hbmMoverBlocks, .hbmMoverCrc, .hbmMoverCrcLast, .coreStatus, .coreRun, .coreTiles, .coreBusy, .coreStall, .coreFaultLast,
   .coreFeederEcc, .coreWdog, .numCfg, .numCtrUse, .numWitStat, .numWitEvents, .numWitLast, .numWitLastCond, .numOptStat,
   .numOptElements, .numLog, .coreRouteStatus, .coreRouteDesc, .coreRouteWords, .coreRouteStall, .coreRouteOob,
   .coreRouteFaultLast, .lnkFec, .lnkRetry, .lnkTxBytes, .lnkRxBytes, .lnkRefuseA, .lnkRefuseB, .lnkHostile, .lnkPeer,
   .lnkLoopResult, .collStatus, .collDesc, .collBytesTx, .collBytesRx, .collStamp, .collWait, .collFaultLast]

/-- The registers of a partition's replay and trace block (R269). -/
def traceRegs : List RegName :=
  [.rplSched, .rplWork, .rplHeld, .rplHoldA, .rplHoldB, .rplHoldC, .rplHoldD, .rplChoiceIssue, .rplChoiceGrant,
   .rplChoiceSlot, .rplChoiceArb, .rplLog, .rplDiverge]

/-- The registers of a section take their reset values (R17). -/
def resetSectionRegs (s : State) (n : Nat) : State := s.clearRegs (fun r i _ => i == n && sectionRegs.contains r)

/-- The engine keys of a section. -/
def engineOfSec (n key : Nat) : Bool := unitSec (key / 64) (key % 64) == n

/-- Engine, sequencer, feeder and accumulator state of a section is cleared; a slice that ran there runs again (R420, R454). -/
def clearUnits (s : State) (n : Nat) : State :=
  let w := s.work
  let s := { s with work :=
    { cores := tabClear (fun k => k / 12 == n) w.cores, slots := tabClear (fun k => k / 8 / 12 == n) w.slots,
      engines := tabClear (engineOfSec n) w.engines, witness := tabClear (· == n) w.witness } }
  s.modGravel n (fun g => { g with running := none, witnessSlice := false,
                                   owed := (match g.running with | some r => if g.inOrder then [] else [r] | none => []) ++ g.owed })

/-- The section's Loam and cache directory are cleared (R49, R420). -/
def clearLoam (s : State) (n : Nat) : State :=
  let s := dropSection s n
  zeroRange s (loamAddr n 0) loamBytes

/-- The section's three stacks are written with zeros (R390, R448, R504). -/
def clearHbm (s : State) (n : Nat) : State := zeroRange s (n * sectionHbm) sectionHbm

/-- The links of a section. -/
def secLinks (n : Nat) : List Nat := spanOf (8 * n) 8

/-- The blocks of a full Autumn test, and those of a quick start and a handover (R448). -/
def allBlocks : List Nat := upTo 16
def coreBlocks : List Nat := upTo 14

/-- The compute-die blocks, 0 to 12, are not all ended in a section under test. -/
def inCore (s : State) (n : Nat) : Bool := match s.autumn n with | some r => r.left.any (fun b => decide (b ≤ 12)) | none => false

/-- The sections that run their compute-die blocks now (R451): the first ascending pair of a test that still has some. DESIGN CHOICE (log
entry 100): of several tests under way the one that began first. -/
def corePair (s : State) : List Nat :=
  let l := (upTo 8).filter (inCore s)
  let ticket (n : Nat) : Nat := match s.autumn n with | some r => r.ticket | none => 0
  match l with
  | [] => []
  | m :: t =>
    let k := t.foldl (fun a n => if ticket n < ticket a then n else a) m
    let tested := match s.autumn k with | some r => maskSecs r.tested | none => []
    (((chunksOf 2 tested).find? (fun q => q.any (inCore s))).getD []).filter (inCore s)

/-- The power of the test, 270 W for each section that runs its compute-die blocks, is granted as its pair begins (R446, R451). -/
def grantTest (s : State) : State := { s with module := { s.module with testGrant := corePair s } }

/-- The power granted: that of the staged grants, and that of the Autumn test (R446). -/
def grantedPower (s : State) : Nat := s.module.grantedW + 270 * s.module.testGrant.length

/-- The compute-die blocks of every section tested together with this one have ended (R451). -/
def coreDone (s : State) (r : AutumnRun) : Bool :=
  (upTo 8).all (fun n => match s.autumn n with | some x => x.ticket != r.ticket || !inCore s n | none => true)

/-- A section begins the Autumn test (R448, R449). Block 15 puts its links in LOOPBACK, except at a full start, where they
have not trained; a fenced link stays fenced. -/
def startSection (s : State) (source tested ticket : Nat) (blocks : List Nat) (n : Nat) : State :=
  let s := s.setAutumn n (some { source := source, tested := tested, ticket := ticket, left := blocks })
  if source ≠ 1 && blocks.contains 15 then
    forEach (secLinks n) s (fun l t => if linkState t l = 7 then t else setLinkState t l 8)
  else s

/-- An Autumn test of the sections of a mask begins (R451). -/
def startAutumn (s : State) (source mask : Nat) (blocks : List Nat) : State :=
  let ticket := ((upTo 8).map (fun n => match s.autumn n with | some r => r.ticket | none => 0)).foldl max 0 + 1
  grantTest (forEach (maskSecs mask) s (fun n t => startSection t source mask ticket blocks n))

/-- The sections of a mask that are under the Autumn test. -/
def testing (s : State) (mask : Nat) : List Nat := (maskSecs mask).filter (fun n => (s.autumn n).isSome)

end Sys2Proof.Machine
end

