-- ==== Sys2Proof/Machine/Teardown.lean ====
section
/-! DEFINITION. Tearing down contexts (R416 to R426), draining queues (R355), resetting and scrubbing partitions (R389 to R393,
R420, R421), with the rows CONTEXT_TEARDOWN, DRAIN_TIMER_EXPIRY, QUEUE_DRAIN_END, PARTITION_FATAL, PARTITION_RESET_DONE and
SCRUB_COMPLETE. -/

namespace Sys2Proof.Machine

/-! ### Engine work that stops (R355) -/

/-- What ends a descriptor whose data is whole, by the kind of its engine: its counter adds, marks and stamps before its signals (R160,
R197). -/
def endJob (s : State) (kind unit : Nat) (j : Job) : State :=
  match kind with
  | 3 => collEnd s unit j
  | 4 => optEnd s unit j
  | _ => endDone s kind unit j

/-- The descriptor in an engine stops at its boundary: one whose data is whole ends done, any other signals nothing. -/
def stopJob (s : State) (kind unit : Nat) : State :=
  match jobOf s kind unit with
  | some j =>
    let p := (s.ctx j.ctx).part
    let s := dropCauses s p (fun c => c.key == rereadKey kind unit && c.field == 6)
    if kind = 5 then endStopped (dropUnsent s unit) kind unit j
    else if j.phase = .dataDone then endJob s kind unit j
    else if kind = 3 then collStop s unit j else endStopped s kind unit j
  | none => s

/-- The descriptors of a route engine that have issued their last access end, oldest first, up to the last that satisfies a test
(R222). -/
def endPast (s : State) (k : Nat) (f : Job → Bool) : State :=
  let l := (s.engine k).ending
  forEach (l.zipIdx.filter (fun e => (l.drop e.2).any f)) s (fun _ t => routeEnd t (k % 64))

/-- Stop the descriptors in engines that satisfy a test. -/
def stopJobs (s : State) (f : Job → Bool) : State :=
  let s := forEach (s.work.engines.filter (fun e => e.2.ending.any f)) s (fun e t => endPast t e.1 f)
  forEach (s.work.engines.filter (fun e => match e.2.job with | some j => f j | none => false)) s
    (fun e t => stopJob t (e.1 / 64) (e.1 % 64))

/-! ### Models that lose a tensor (R409 to R411) -/

/-- The model lists a tensor that its partition no longer holds. -/
def modelBroken (s : State) (m : Model) : Bool := m.tensors.any (fun id => !(s.tensor m.part id).present)

/-- Set the addresses of a model's tensors back to their home arrays (R406, R409). -/
def restoreHome (s : State) (m : Model) : State :=
  forEach m.tensors s (fun id t => t.modTensor m.part id (fun x => { x with desc := x.homeDesc, home := none }))

/-- A loaded model begins to be evicted: its tensors' addresses are set back to HBM, its units stay held (R409). -/
def beginEvict (s : State) (k : Nat) : State :=
  let m := s.model k
  if m.mode == .loaded || m.mode == .loading then (restoreHome s m).setModel k { m with mode := .evicting } else s

/-- A tensor of the model is named by a descriptor in a window or issued, or taken by an engine and unfinished (R409). -/
def modelInUse (s : State) (m : Model) : Bool :=
  let names (b : List Byte) : Bool := m.tensors.any (fun id => [tA b, tB b, tOut b, tInit b].contains id)
  let any32 (b : List Byte) : Bool := m.tensors.any (fun id => (upTo (b.length / 4)).any (fun i => fieldAt b (4 * i) 4 == id))
  s.work.cores.any (fun e => (match secPart s (coreSec e.1) with | some p => p == m.part | none => false) &&
    (e.2.window.any (fun d => names d.bytes) || (coreTiles e.2).any (fun r => names r.bytes))) ||
  s.work.engines.any (fun e => (engineJobs e.2).any (fun j =>
    within 2 4 (e.1 / 64) && (s.ctx j.ctx).part == m.part && any32 j.bytes))

/-- A model's units are free: it is defined again, or broken (R409, R411). -/
def freeUnits (s : State) (k : Nat) : State :=
  let m := s.model k
  s.setModel k { m with copies := [], mode := if modelBroken s m then .broken else .defined }

/-- The models of a partition. -/
def partModels (s : State) (p : Nat) : List Nat := keysWhere s.objs.models (fun m => m.present && m.part == p)

/-- Models whose tensors went with a context become broken, the loaded ones after their eviction (R411). -/
def breakModels (s : State) (p : Nat) : State :=
  forEach (partModels s p) s (fun k t =>
    let m := t.model k
    if !modelBroken t m then t
    else if m.mode == .loaded || m.mode == .loading then beginEvict t k
    else if m.mode == .evicting then t else t.setModel k { m with mode := .broken })

/-- Every model of a partition is destroyed (R411). -/
def destroyModels (s : State) (p : Nat) : State :=
  forEach (partModels s p) s (fun k t => t.setModel k { gen := (t.model k).gen + 1 })

/-! ### A context's objects (R394) -/

/-- The model copies of a context's tensors give their addresses back before the tensors go. -/
def restoreCtxTensors (s : State) (p c : Nat) : State :=
  forEach (partModels s p) s (fun k t =>
    if (t.model k).tensors.any (fun id => (t.tensor p id).present && (t.tensor p id).ctx == c) then beginEvict t k else t)

/-- A queue of a destroyed context: its handle is stale, its index returns after the drain (R375). -/
def deadQueue (x : Queue) (c : Nat) : Queue := { gen := x.gen + 1, ctx := some c, draining := true }

/-- A tally of a destroyed context. -/
def deadTally (x : Tally) : Tally := { gen := x.gen + 1, ctx := x.ctx, part := x.part, abandoned := true }

/-- Destroy every object of a context (R394). -/
def destroyObjects (s : State) (c : Nat) : State :=
  let p := (s.ctx c).part
  let s := restoreCtxTensors s p c
  let s := forEach (ctxQueues s c) s (fun q t => t.setQueue q (deadQueue (t.queue q) c))
  let o := s.objs
  let s := { s with objs := { o with
    tallies := tabMap (fun _ t => if t.present && t.ctx == c then deadTally t else t) o.tallies,
    regions := tabMap (fun _ r => if r.present && r.ctx == c then { gen := r.gen + 1 } else r) o.regions,
    tensors := o.tensors.filter (fun e => !(e.1 / 4294967296 == p && e.2.ctx == c)),
    gates := o.gates.filter (fun e => !(e.1 / 64 == p && e.2.ctx == c)),
    comms := o.comms.filter (fun e => e.2.ctx != c),
    parts := tabMap (fun _ x => { x with drift := x.drift.filter (fun d => d.2.ctx != c) }) o.parts } }
  let gone := keysWhere s.work.slots (fun x => x.loaded && x.ctx == c)
  let s := forEach gone s (fun k t =>
    let t := t.setSlot (slotCore k) (slotNum k) {}
    if (t.core (slotCore k)).running == some (slotNum k) then
      t.modCore (slotCore k) (fun y => { y with running := none, window := [] }) else t)
  pruneTokens (breakModels s p)

/-- What arrives late for a context in TEARDOWN or DRAINING at the HBM controllers, the mesh, the engines and the host path is dropped and
counted there (R424): how much is under way then rests on timing, so the counts are free numbers (log entry 153). -/
def lateArrivals (s : State) : State :=
  let (w, s) := s.freeDraw
  (((s.bump fFltDropsAHbm 0 0 (w.toNat % 2 ^ 16)).bump fFltDropsAMesh 0 0 (w.toNat / 2 ^ 16 % 2 ^ 16)).bump fFltDropsBEngine 0 0
    (w.toNat / 2 ^ 32 % 2 ^ 16)).bump fFltDropsBHost 0 0 (w.toNat / 2 ^ 48 % 2 ^ 16)

/-- A context enters DRAINING: its objects are destroyed, and what it leaves is its index with its tag, its owner and its
cause (R423, R424). -/
def teardownCtx (s : State) (c : Nat) : State :=
  let s := abandonTallies s c
  let s := stopJobs s (fun j => j.ctx == c)
  let s := publishLaunches s (fun l => l.ctx == c)
  let s := destroyObjects s c
  let s := s.modCtx c (fun x => { mode := .draining, gen := x.gen, bestEffort := x.bestEffort, fill := x.fill,
                                  owner := x.owner, part := x.part, cause := x.cause })
  settle ((lateArrivals s).bump fFltResetsContext 0 0 1)

/-- CONTEXT_TEARDOWN (R423): the work of a STOPPING context has stopped. -/
def contextTeardownOp (c : Nat) (s : State) : State :=
  if (s.ctx c).mode == .stopping && ctxIdle s c then teardownCtx s c else s

/-- CONTEXT_TEARDOWN (R423). -/
def execContextTeardown (ctx : CtxId) (s : State) : Host.Outcome State Fault Refusal := .next (contextTeardownOp ctx.val s)

/-! ### Handover and destruction of a partition (R389, R390) -/

/-- No context of a partition is still being torn down or drained. -/
def partQuiet (s : State) (p : Nat) : Bool := (partCtxs s p).isEmpty

/-- The drain timer of the last context has expired: the partition reset begins (R389 steps 3 and 4). -/
def partAdvance (s : State) (p : Nat) : State :=
  if (s.part p).stage == .stopping && partQuiet s p then s.modPart p (fun x => { x with stage := .resetting }) else s

/-- The index of a drained context returns to FREE, with those of its queues and tallies (R375, R423). -/
def freeCtx (s : State) (c : Nat) : State :=
  let p := (s.ctx c).part
  let s := s.setCtx c { gen := (s.ctx c).gen }
  let s := { s with
    host := { s.host with
      queues := tabMap (fun _ q => if !q.present && q.draining && q.ctx == some c then { gen := q.gen } else q) s.host.queues }
    objs := { s.objs with
      tallies := tabMap (fun _ t => if !t.present && t.abandoned && t.ctx == c then { gen := t.gen } else t) s.objs.tallies } }
  settle (partAdvance s p)

/-- DRAIN_TIMER_EXPIRY (R423). -/
def execDrainTimerExpiry (ctx : CtxId) (s : State) : Host.Outcome State Fault Refusal :=
  .next (if (s.ctx ctx.val).mode == .draining then freeCtx s ctx.val else s)

/-- A partition reset clears what R420 names: the cache is written back first (R49). -/
def partResetOp (s : State) (p : Nat) : State :=
  let secs := maskSecs (s.part p).mask
  let s := (flushPart s p).1
  let s := forEach secs s (fun n t => clearLoam (resetSectionRegs (clearUnits t n) n) n)
  let s := s.clearRegs (fun r i _ => i == p && traceRegs.contains r)
  let s := destroyModels s p
  let o := s.objs
  let s := { s with objs := { o with
    gates := tabClear (fun k => k / 64 == p) o.gates, tensors := tabClear (fun k => k / 4294967296 == p) o.tensors,
    comms := tabClear (fun k => secs.contains (k / 64)) o.comms } }
  let s := s.modPart p (fun x => { x with table := none, drift := [], outlier := none, held := false, causes := [] })
  s.bump fFltResetsPartition 0 0 1

/-- The functions of a partition are released from it (R389 step 7). -/
def releaseFns (s : State) (p : Nat) : State := forEach (partFns s p) s (fun f t => t.modFn f (fun x => { x with part := none }))

/-- The number of a destroyed partition becomes free, with its sections (R385). -/
def freePart (s : State) (p : Nat) : State := settle (pruneTokens ((releaseFns s p).setPart p {}))

/-- A partition reset ends (R385, R389, R420, R421): a handover goes on to the Autumn test, a destruction to the scrub of a
sealed partition or to its end, any other returns to ACTIVE or BLOCKED. -/
def partitionResetDoneOp (p : Nat) (s : State) : State :=
  let x := s.part p
  if x.stage != .resetting || (partCtxs s p).any (fun c => (s.ctx c).mode == .stopping) then s
  else
    let s := partResetOp s p
    match x.mode with
    | .handover =>
      let s := s.modPart p (fun y => { y with stage := .testing })
      startAutumn s 4 x.mask coreBlocks
    | .destroying => if x.isSealed then s.modPart p (fun y => { y with stage := .scrubbing }) else freePart s p
    | _ => settle (s.modPart p (fun y => { y with stage := .none, mode := x.afterReset }))

/-- PARTITION_RESET_DONE (R420). -/
def execPartitionResetDone (p : PartId) (s : State) : Host.Outcome State Fault Refusal := .next (partitionResetDoneOp p.val s)

/-- The handover record (R393). -/
def handoverRecord (s : State) (p result : Nat) : List Byte :=
  let x := s.part p
  let n := (maskSecs x.mask).length
  leBytes 1 p ++ leBytes 1 x.mask ++ leBytes 1 result ++ leBytes 1 0 ++ leBytes 4 s.flash.handovers ++
  leBytes 8 (n * sectionHbm) ++ leBytes 4 (48 * n) ++ leBytes 4 ((s.now - x.stageStart) / 1000) ++ leBytes 8 s.now

/-- A digest as its bytes, most significant first. -/
def digestBytes (d : BitVec 512) : List Byte := (leBytes 64 d.toNat).reverse

/-- Append a handover record to the measurement log and fold it into its chain (R393, R476). -/
def appendHandover (s : State) (r : List Byte) : State :=
  { s with flash := { s.flash with
      handoverLog := s.flash.handoverLog ++ [r],
      handoverChain := Config.shake256 (digestBytes s.flash.handoverChain ++ r) } }

/-- The scrub of R390: HBM, Loam, cache directory, units, link buffers. -/
def scrubPart (s : State) (p : Nat) : State :=
  forEach (maskSecs (s.part p).mask) s (fun n t =>
    let t := clearUnits (clearLoam (clearHbm t n) n) n
    forEach (secLinks n) t (fun l u => u.modLink l (fun x =>
      { x with rxStream := [], retry := [], waiting := [], behind := [], held := none })))

/-- SCRUB_COMPLETE (R390): a handover runs step 7 and publishes; a destruction of a sealed partition frees it. -/
def scrubCompleteOp (p : Nat) (s : State) : State :=
  let x := s.part p
  if x.stage != .scrubbing then s
  else
    let s := scrubPart s p
    if x.mode == .destroying then freePart (appendHandover s (handoverRecord s p 2)) p
    else
      let s := { s with flash := { s.flash with handovers := satAdd 32 s.flash.handovers 1 } }
      let s := appendHandover s (handoverRecord s p (toBit x.mismatch))
      let s := destroyModels (releaseFns s p) p
      settle (s.modPart p (fun y => { y with
        stage := .none, mode := if y.mismatch then .blocked else .active, handovers := satAdd 32 y.handovers 1,
        lastHandoverUs := min ((s.now - y.stageStart) / 1000) (2 ^ 32 - 1) }))

/-- SCRUB_COMPLETE (R390). -/
def execScrubComplete (p : PartId) (s : State) : Host.Outcome State Fault Refusal := .next (scrubCompleteOp p.val s)

/-! ### Partition-fatal causes (R421) -/

/-- Whether the partition of a cause is BLOCKED afterwards (R421). -/
def fatalAfter : PartFatal → PartMode
  | .directory => .active
  | .scheduleMemory => .active
  | .record => .active
  | .stackLost => .blocked
  | .portLost => .blocked
  | .meshLost => .blocked

/-- A partition-fatal cause resets the partition of the section and counts towards escalation (R421, R432). A partition
that is being reset already is at most left BLOCKED. -/
def partitionFatalOp (sec : Nat) (cause : PartFatal) (s : State) : State :=
  match secPart s sec with
  | none => s
  | some p =>
    let after := fatalAfter cause
    if (s.part p).stage != .none || (s.part p).mode == .blocked then
      s.modPart p (fun x => if after == .blocked then { x with afterReset := .blocked, mismatch := x.mode == .handover || x.mismatch } else x)
    else
      let s := setFltLast s 1 0x13 sec 0 0 p false
      escalatePart (beginPartReset s p sec after)

/-- PARTITION_FATAL (R421). -/
def execPartitionFatal (sec : Sec) (cause : PartFatal) (s : State) : Host.Outcome State Fault Refusal :=
  .next (partitionFatalOp sec.val cause s)

/-! ### Queues that drain (R355) -/

/-- A command queue that CMDQ_CLOSE closes is gone once drained (R377). -/
def closeQueue (s : State) (q : Nat) : State :=
  let x := s.queue q
  if heldBy s (fun k => k == .cmdqClose q) then
    pruneTokens ((s.modFn x.fn (fun f => { f with cmdq := none })).setQueue q { gen := x.gen + 1 })
  else s

/-- QUEUE_DRAIN_END (R355): issued work has stopped; with the records written the queue is DISABLED. -/
def queueDrainEndOp (q : Nat) (s : State) : State :=
  if (s.queue q).mode != .draining then s
  else
    let s := flushQueue (stopJobs s (fun j => j.queue == q)) q
    if !(s.queue q).entries.isEmpty then s
    else
      let s := s.modQueue q (fun x => { x with mode := .disabled, draining := false })
      settle (closeQueue s q)

/-- QUEUE_DRAIN_END (R355). -/
def execQueueDrainEnd (q : QueueId) (s : State) : Host.Outcome State Fault Refusal := .next (queueDrainEndOp q.val s)

end Sys2Proof.Machine
end

