-- ==== Sys2Proof/Machine/CmdSession.lean ====
section
/-! DEFINITION. Sessions and the mailbox-only commands (R360 to R363, R366 to R368, R377): HELLO, BYE, PING, CMDQ_CLOSE, RPL_STOP,
RPL_STATUS, CMDQ_OPEN; and what the command families share. -/

namespace Sys2Proof.Machine

/-! ### Shared by the command families -/

/-- An effect that publishes OK with a result. -/
def okWith (result : Nat) (s : State) : CmdOut := .done 0 (BitVec.ofNat 64 result) s

/-- An argument lies outside its range. -/
def badIf (b : Bool) : Bool × Nat := (b, rcBadArg)

/-- Arguments from number `n` on must be zero (R365). -/
def restZero (c : Cmd) (n : Nat) : Bool × Nat := badIf ((c.args.drop n).any (· != 0))

/-- A power of two from 64 to 65,536 (R344, R349). -/
def ringSize (n : Nat) : Bool := [64, 128, 256, 512, 1024, 2048, 4096, 8192, 16384, 32768, 65536].contains n

/-- A TDI enters ERROR: its queues stop without records to host memory (R337, R354). -/
def tdiError (s : State) (f : Nat) : State := stopFnQueues (s.modFn f (fun x => { x with tdi := .error })) f false

/-- A function's windows and queue bindings are frozen (R337). -/
def tdiLocked (s : State) (f : Nat) : Bool := (s.fn f).tdi == .locked || (s.fn f).tdi == .run

/-- A command of another function that would change what a TDI keeps is refused, and the TDI enters ERROR (R337, R369). -/
def guardTdi (c : Cmd) (s : State) (f : Nat) (o : CmdOut) : CmdOut :=
  if f ≠ c.fn && tdiLocked s f then .done rcNotPermitted 0 (tdiError s f) else o

/-- Fill a completion ring with the unready pattern (R352). -/
def fillRing (s : State) (q : Nat) : State :=
  let x := s.queue q
  match x.cq with
  | some w => forEach (upTo x.m) s (fun i t => writeArg t x.fn w (32 * i) unready)
  | none => s

/-- A queue slot of a function that holds no queue. -/
def slotFree (s : State) (f j : Nat) : Bool := (queuesWhere s (fun q => q.fn == f && q.slot == j)).isEmpty

/-- A queue index that is free. -/
def queueFree (s : State) (q : Nat) : Bool := !(s.queue q).present && !(s.queue q).draining

/-- Make a queue at a free index and a free slot of its function, with the handle; nothing where none is free. -/
def makeQueue (s : State) (x : Queue) : Option (Nat × State) :=
  match pickIndex s 8192 (queueFree s) with
  | none => none
  | some (q, s) =>
    match pickIndex s 512 (slotFree s x.fn) with
    | none => none
    | some (j, s) => some (q, fillRing (s.setQueue q { x with present := true, gen := (s.queue q).gen, slot := j }) q)

/-! ### HELLO, BYE, PING -/

/-- The highest common version of a range with the module's 1.0 (R360): none without a common major version. -/
def commonVersion (lo hi : Nat) : Bool := decide (lo / 16 ≤ 1) && decide (1 ≤ hi / 16) && decide (lo ≤ hi)

/-- Byte `i` of a short-form argument. -/
def argByte (c : Cmd) (i : Nat) : Nat := bitsOf (c.val 0) (8 * i + 7) (8 * i)

/-- HELLO is refused below 16 GT/s, within a session, and without a common version (R329, R360, R362). -/
def refuseHello (c : Cmd) (s : State) : Option Nat :=
  refusal [
    (s.fld fHifLinkSpeedLow 0 0 == 1, rcBadState),
    ((s.fn c.fn).session.isSome, rcBadState),
    (!(commonVersion (argByte c 4) (argByte c 5) && commonVersion (argByte c 2) (argByte c 3) &&
      commonVersion (argByte c 0) (argByte c 1)), rcVersion)]

/-- HELLO opens a session at the next generation (R360, R362). -/
def effectHello (c : Cmd) (s : State) : CmdOut :=
  let g := (s.fn c.fn).sessionGen + 1
  okWith (0x10 * 2 ^ 40 + 0x10 * 2 ^ 32 + 0x10 * 2 ^ 24 + g % 2 ^ 24)
    (s.modFn c.fn (fun x => { x with session := some ⟨0x10, 0x10, 0x10, g % 2 ^ 24⟩, sessionGen := g }))

/-- HELLO (R360). -/
def execHello (rq : Req) (arg : BitVec 48) (s : State) : Host.Outcome State Fault Refusal :=
  .next (runRow refuseHello effectHello 0x01 rq [arg.setWidth 64] s)

/-- The command queue holds an unpublished command. -/
def cmdqUnfinished (s : State) (f : Nat) : Bool :=
  match (s.fn f).cmdq with
  | some q => !(s.queue q).entries.isEmpty || (s.queue q).consumed != (s.queue q).tail
  | none => false

/-- BYE waits for nothing: unpublished commands of the command queue refuse it. -/
def refuseBye (c : Cmd) (s : State) : Option Nat :=
  refusal [badIf (c.val 0 != 0), (cmdqUnfinished s c.fn, rcBusy)]

/-- BYE ends the session; the function's objects survive (R362). -/
def effectBye (c : Cmd) (s : State) : CmdOut := okWith 0 (s.modFn c.fn (fun x => { x with session := none }))

/-- BYE (R362). -/
def execBye (rq : Req) (arg : BitVec 48) (s : State) : Host.Outcome State Fault Refusal :=
  .next (runRow refuseBye effectBye 0x02 rq [arg.setWidth 64] s)

/-- PING is never refused by itself. -/
def refusePing (_ : Cmd) (_ : State) : Option Nat := none

/-- PING answers its argument (R377). -/
def effectPing (c : Cmd) (s : State) : CmdOut := .done 0 (c.arg 0) s

/-- PING (R377). -/
def execPing (rq : Req) (arg : BitVec 48) (s : State) : Host.Outcome State Fault Refusal :=
  .next (runRow refusePing effectPing 0x03 rq [arg.setWidth 64] s)

/-! ### The command queue -/

/-- CMDQ_CLOSE needs a command queue that no command holds. -/
def refuseCmdqClose (c : Cmd) (s : State) : Option Nat :=
  refusal [badIf (c.val 0 != 0), ((s.fn c.fn).cmdq.isNone, rcBadState),
    (match (s.fn c.fn).cmdq with | some q => queueBusy s q | none => false, rcBusy)]

/-- CMDQ_CLOSE: the command queue drains and is destroyed (R355, R377). -/
def effectCmdqClose (c : Cmd) (s : State) : CmdOut :=
  match (s.fn c.fn).cmdq with
  | none => .done rcBadState 0 s
  | some q =>
    match (s.queue q).mode with
    | .enabled => .wait (.cmdqClose q) (stopQueue s q true)
    | .draining => .wait (.cmdqClose q) s
    | _ => okWith 0 (pruneTokens ((s.modFn c.fn (fun f => { f with cmdq := none })).setQueue q { gen := (s.queue q).gen + 1 }))

/-- CMDQ_CLOSE (R377). -/
def execCmdqClose (rq : Req) (arg : BitVec 48) (s : State) : Host.Outcome State Fault Refusal :=
  .next (runRow refuseCmdqClose effectCmdqClose 0x04 rq [arg.setWidth 64] s)

/-- CMDQ_OPEN (R344, R349, R368): one command queue to a function, rings of the function's own memory. -/
def refuseCmdqOpen (c : Cmd) (s : State) : Option Nat :=
  refusal [
    restZero c 5,
    badIf (!ringSize (c.val 1) || !ringSize (c.val 3) || !within 2 63 (c.val 4)),
    addrRc c s (c.arg 0) (64 * c.val 1) false,
    addrRc c s (c.arg 2) (32 * c.val 3) true,
    ((s.fn c.fn).cmdq.isSome, rcBadState),
    (decide (512 ≤ (queuesWhere s (fun q => q.fn == c.fn)).length), rcNoResources)]

/-- CMDQ_OPEN makes the queue, ENABLED, with its completion ring in the unready pattern (R352, R368). -/
def effectCmdqOpen (c : Cmd) (s : State) : CmdOut :=
  let part := ((s.fn c.fn).part).getD 0
  let x : Queue :=
    { part := part, kind := 0, fn := c.fn, ring := c.arg 0, n := c.val 1, cq := some (c.arg 2), m := c.val 3,
      vector := c.val 4, mode := .enabled }
  match makeQueue s x with
  | none => .done rcNoResources 0 s
  | some (q, t) => .done 0 (mkHandle 2 part (t.queue q).gen q) (t.modFn c.fn (fun f => { f with cmdq := some q }))

/-- CMDQ_OPEN (R368). -/
def execCmdqOpen (rq : Req) (ring n cq m vector : Word) (s : State) : Host.Outcome State Fault Refusal :=
  .next (runRow refuseCmdqOpen effectCmdqOpen 0x10 rq [ring, n, cq, m, vector] s)

/-! ### RPL_STOP and RPL_STATUS -/

/-- The context handle that a short-form argument stands for (R374). -/
def shortCtx (c : Cmd) (s : State) : Word :=
  mkHandle 1 (fnPart s c.fn) (bitsOf (c.val 0) 47 24) (bitsOf (c.val 0) 23 0)

/-- The context of a short-form argument. -/
def shortIdx (c : Cmd) : Nat := bitsOf (c.val 0) 23 0

/-- Records that a context's recording has written. -/
def recordsWritten (x : Ctx) : Nat := match x.log with | some g => g.seq | none => x.logged

/-- RPL_STOP needs a context that records or replays. -/
def refuseRplStop (c : Cmd) (s : State) : Option Nat :=
  refusal [rcIf (ctxRc c s (shortCtx c s)), ((s.ctx (shortIdx c)).log.isNone && (s.ctx (shortIdx c)).replay.isNone, rcBadState)]

/-- RPL_STOP ends a recording and a replay; the replay's command publishes the records delivered (R267, R377). -/
def effectRplStop (c : Cmd) (s : State) : CmdOut :=
  let k := shortIdx c
  let t := s.modCtx k (fun x => { x with log := none, replay := none, logged := recordsWritten x })
  okWith 0 (match (s.ctx k).replay, t.host.commands.find? (fun p => p.kind == .rplReplay k) with
    | some g, some p => publishOne t p 0 g.seq
    | _, _ => t)

/-- RPL_STOP (R377). -/
def execRplStop (rq : Req) (arg : BitVec 48) (s : State) : Host.Outcome State Fault Refusal :=
  .next (runRow refuseRplStop effectRplStop 0x05 rq [arg.setWidth 64] s)

/-- RPL_STATUS needs a context of the issuer. -/
def refuseRplStatus (c : Cmd) (s : State) : Option Nat := refusal [rcIf (ctxRc c s (shortCtx c s))]

/-- Bits 3:0 of RPL_LOG for a context (R269). -/
def logBits (s : State) (x : Ctx) : Nat :=
  s.fld fRplLogDiverged x.part 0 * 8 +
  toBit x.replay.isSome * 2 + (match x.log with | some g => toBit g.stopped * 4 + toBit (!g.stopped) | none => 0)

/-- RPL_STATUS answers the records written and bits 3:0 of RPL_LOG (R377). -/
def effectRplStatus (c : Cmd) (s : State) : CmdOut :=
  let x := s.ctx (shortIdx c)
  okWith (recordsWritten x % 2 ^ 32 * 65536 + logBits s x) s

/-- RPL_STATUS (R377). -/
def execRplStatus (rq : Req) (arg : BitVec 48) (s : State) : Host.Outcome State Fault Refusal :=
  .next (runRow refuseRplStatus effectRplStatus 0x06 rq [arg.setWidth 64] s)

end Sys2Proof.Machine
end

