-- ==== Sys2Proof/Machine/Hbm.lean ====
section
/-! DEFINITION. The HBM stacks: loop-back (R70), patrol scrub (R58), refresh (R67, R68). -/

namespace Sys2Proof.Machine

/-- The module is powered, on and out of reset. -/
def State.alive (s : State) : Bool := s.module.powered && s.module.released && !s.module.off

/-- ONLINE of HBM_STATUS: a partition holds the stack's section, or an Icvar activity, the Autumn test, uses it (R70). -/
def hbmOnline (s : State) (g : Nat) : Bool := (secPart s (g / 3)).isSome || (s.autumn (g / 3)).isSome

/-- A stack whose interface is trained (R69). -/
def hbmTrained (s : State) (g : Nat) : Bool := s.fld fHbmStatusTrained (g / 3) (g % 3) == 1

/-- A write to HBM_LOOP (R70, R72): ignored with REFUSED while ONLINE, else MODE and PATTERN are kept as written. MODE 3 is
treated as 0. The stored START bit says that a run is in progress. DESIGN CHOICE (log entry 125): during a run, MODE 0 ends it with
no result, and START begins it again with DONE cleared. -/
def hbmLoopWrite (s : State) (g : Nat) (value : Word) : State :=
  let v := value.toNat
  let i := g / 3
  let j := g % 3
  if hbmOnline s g then s.setFld fHbmLoopResultRefused i j 1
  else
    let s := (s.setFld fHbmLoopPattern i j (bitsOf v 11 8)).setFld fHbmLoopMode i j (bitsOf v 1 0)
    if bitsOf v 1 0 = 0 ∨ bitsOf v 1 0 = 3 then s.setFld fHbmLoopStart i j 0
    else if bitOf v 15 then (s.setFld fHbmLoopStart i j 1).setFld fHbmLoopResultDone i j 0
    else s

/-- A write to the upper half of HBM_LOOP, which holds no field (R70). -/
def hbmLoopHigh (s : State) (g : Nat) : State :=
  if hbmOnline s g then s.setFld fHbmLoopResultRefused (g / 3) (g % 3) 1 else s

/-- HBM_LOOP_START (R70). -/
def execHbmLoopStart (g : StackId) (value : Word) (s : State) : Host.Outcome State Fault Refusal :=
  .next (hbmLoopWrite s g.val value)

/-- The end of a loop-back run (R70, R72). -/
def hbmLoopDoneOp (g errors lanes : Nat) (s : State) : State :=
  let i := g / 3
  let j := g % 3
  if s.fld fHbmLoopStart i j = 0 then s
  else
    (((s.setFld fHbmLoopStart i j 0).setFld fHbmLoopResultErrors i j (min errors (2 ^ 32 - 1))).setFld
      fHbmLoopResultLanesFailed i j (min lanes (2 ^ 16 - 1))).setFld fHbmLoopResultDone i j 1

/-- HBM_LOOP_DONE (R70). -/
def execHbmLoopDone (g : StackId) (errors lanesFailed : Nat) (s : State) : Host.Outcome State Fault Refusal :=
  .next (hbmLoopDoneOp g.val errors lanesFailed s)

/-! ### Patrol scrub and refresh -/

/-- The section's scrubber may read now: in Summer when it likes, in Winter only in the table's scrub windows, which stand
still in a hold (R58, R245). -/
def scrubAllowed (s : State) (sec : Nat) : Bool :=
  s.alive && (match secPart s sec with
    | some p => mayRun s p 0x0B sec
    | none => true)

/-- What a scrub read does with a word, by its number (R56, R58): a poisoned word is counted; a corrected word is rewritten
in place; an uncorrectable word is counted and rewritten as poisoned, and no context faults. -/
def scrubWord (s : State) (k : Nat) : State :=
  if tabGet false s.mem.poisoned k then noteKey s k .poisoned
  else match tabGet none s.mem.upset k with
    | some (.corrected y) => noteKey s k (.corrected y.val)
    | some .uncorrectable => poisonKey (noteKey s k .uncorrectable) k
    | _ => s

/-- The number of the word at an offset of a section's Loam: that of a cached line's copy where one lies there (R43). -/
def loamWord (s : State) (sec off : Nat) : Option Nat :=
  if off < (48 - secUnits s sec) * cacheUnit then some (loamAddr sec off / 16)
  else (s.mem.cache.find? (fun e => keySec e.1 == sec && e.2.valid && frameOffset s e.1 == off / 4096 * 4096)).map
    (fun e => copyWord e.1 (off % 4096 / 16))

/-- The command says how the word that the scrubber reads next reads back, where its cells hold an error. -/
def upsetKey (s : State) (k : Nat) (o : Option ReadOutcome) : State :=
  match o with
  | some (.undetected d) => { s with mem := { s.mem with bytes := putBytes s.mem.bytes (wordAddr s k) (leBytes 16 d.toNat) } }
  | some .onPath => s
  | some e => if tabGet false s.mem.poisoned k then s else { s with mem := { s.mem with upset := tabSet none s.mem.upset k (some e) } }
  | none => s

/-- Words of a section's Loam and of a stack. -/
def loamWords : Nat := loamBytes / 16
def stackWords : Nat := stackBytes / 16

/-- The scrubber reads the section's next Loam word; the last one ends a pass (R58, R72). -/
def scrubLoam (s : State) (sec : Nat) (outcome : Option ReadOutcome) : State :=
  let w := tabGet 0 s.mem.scrubLoam sec
  let s := match loamWord s sec (16 * w) with | some k => scrubWord (upsetKey s k outcome) k | none => s
  let s := { s with mem := { s.mem with scrubLoam := tabSet 0 s.mem.scrubLoam sec ((w + 1) % loamWords) } }
  if w + 1 = loamWords then s.wrap fLoamScrubPasses sec 0 1 else s

/-- The scrubber reads the next word of a stack (R58). -/
def scrubHbm (s : State) (g : Nat) (outcome : Option ReadOutcome) : State :=
  let w := tabGet 0 s.mem.scrubHbm g
  let k := (g * stackBytes + 16 * w) / 16
  let s := scrubWord (upsetKey s k outcome) k
  { s with mem := { s.mem with scrubHbm := tabSet 0 s.mem.scrubHbm g ((w + 1) % stackWords) } }

/-- PATROL_SCRUB_READ (R58). -/
def execPatrolScrubRead (sec : Sec) (hbm : Option (Fin 3)) (outcome : Option ReadOutcome) (s : State) :
    Host.Outcome State Fault Refusal :=
  .next (if !scrubAllowed s sec.val then s
    else match hbm with
      | none => scrubLoam s sec.val outcome
      | some k => if hbmTrained s (3 * sec.val + k.val) then scrubHbm s (3 * sec.val + k.val) outcome else s)

/-- A scheduled refresh may be issued now: by the controller in Summer, by the table's windows in Winter, and as it falls due
in a hold (R67, R68, R249). With no slot table loaded nothing compiled is in force and the controller refreshes on its own
(log entry 22). -/
def refreshAllowed (s : State) (g : Nat) : Bool :=
  s.alive && hbmTrained s g && (match secPart s (g / 3) with
    | some p => (s.part p).table.isNone || outsideOpen s p 0x0A g
    | none => true)

/-- HBM_REFRESH (R67). -/
def execHbmRefresh (g : StackId) (s : State) : Host.Outcome State Fault Refusal :=
  .next (if refreshAllowed s g.val then s.bump fHbmRefreshScheduled (g.val / 3) (g.val % 3) 1 else s)

/-- A refresh outside the windows (R68): a stack at double rate under a single-rate table; it holds the partition for 288
A-cycles. One that falls due in a hold adds no held cycles (R249). -/
def unscheduledRefreshOp (g : Nat) (s : State) : State :=
  match secPart s (g / 3) with
  | some p =>
    let single := match (s.part p).table with | some t => !t.double | none => false
    if s.alive && hbmTrained s g && (s.part p).winter && single && s.fld fHbmStatusRefDouble (g / 3) (g % 3) == 1 then
      let t := s.bump fHbmRefreshUnscheduled (g / 3) (g % 3) 1
      if partHeld s p then t else addCause t p 2 g (some 288)
    else s
  | none => s

/-- UNSCHEDULED_REFRESH (R68). -/
def execUnscheduledRefresh (g : StackId) (s : State) : Host.Outcome State Fault Refusal :=
  .next (unscheduledRefreshOp g.val s)

end Sys2Proof.Machine
end

