-- ==== Sys2Proof/Machine/CmdPart.lean ====
section
/-! DEFINITION. Partitions, functions and windows (R29, R242, R256 to R260, R335 to R337, R385 to R392, R398, R502): PART_CREATE,
PART_DESTROY, PART_ASSIGN, PART_HANDOVER, PART_SCHED, PART_CACHE, SLOT_TABLE, PART_INFO, WINDOW_SET, FN_STATE. -/

namespace Sys2Proof.Machine

/-! ### PART_CREATE -/

/-- The section sets of R29, as masks. -/
def partSets : List Nat := [1, 2, 4, 8, 16, 32, 64, 128, 0x11, 0x22, 0x44, 0x88, 0x33, 0xCC, 0xFF]

/-- The lowest free partition number (R386). -/
def freePartNum (s : State) : Option Nat := (upTo 8).find? (fun p => !(s.part p).present)

/-- PART_CREATE (R386): a set of R29 of free sections, cache units allowed by R43 and R50; no sealed partition while the debug
port is unlocked (R479). -/
def refusePartCreate (c : Cmd) (s : State) : Option Nat :=
  refusal [
    rcIf (pfRc c), restZero c 4,
    badIf (!partSets.contains (c.val 0) || decide (1 < c.val 1) || decide (1 < c.val 2) || decide (48 < c.val 3) ||
      (c.val 2 == 1 && c.val 3 != 0)),
    ((maskSecs (c.val 0)).any (fun n => (secPart s n).isSome), rcBadState),
    ((maskSecs (c.val 0)).any (fun n => (s.autumn n).isSome), rcBusy),
    (c.val 1 == 1 && s.security.debugLevel != 0, rcBadState),
    ((freePartNum s).isNone, rcNoResources)]

/-- PART_CREATE: the lowest free number, ACTIVE, with nothing in it; the versions are those of the session (R363, R386).
DESIGN CHOICE (log entry 129): HBM_LOOP and LNK_LOOP of its sections stay as they are. -/
def effectPartCreate (c : Cmd) (s : State) : CmdOut :=
  match freePartNum s with
  | none => .done rcNoResources 0 s
  | some p =>
    let (d, f) := match (s.fn c.fn).session with | some x => (x.desc, x.fmt) | none => (0x10, 0x10)
    let s := s.clearRegs (fun r i _ => i == p && traceRegs.contains r)
    let s := if c.val 2 = 1 then endSlew s else s
    okWith p (s.setPart p { present := true, mask := c.val 0, isSealed := c.val 1 == 1, units := c.val 3,
                            winter := c.val 2 == 1, descVer := d, fmtVer := f })

/-- PART_CREATE (R386). -/
def execPartCreate (rq : Req) (mask tenancy schedule units : Word) (s : State) : Host.Outcome State Fault Refusal :=
  .next (runRow refusePartCreate effectPartCreate 0x18 rq [mask, tenancy, schedule, units] s)

/-! ### PART_DESTROY and PART_HANDOVER -/

/-- A partition argument names a partition that is free for a command. -/
def partArg (s : State) (p : Nat) : List (Bool × Nat) :=
  [badIf (decide (7 < p)), (!(s.part p).present, rcBadState), (partBusy s p, rcBusy)]

/-- Every queue, program and context of a partition stops; the command queues of its functions stop too, but for the issuer's
(R389, R417). -/
def stopPartition (c : Cmd) (s : State) (p : Nat) : State :=
  let s := forEach (partCtxs s p) s (fun k t => stopPlanned t k true)
  forEach ((partFns s p).filter (· != c.fn)) s (fun f t =>
    forEach (queuesWhere t (fun q => q.fn == f)) t (fun q u => stopQueue u q true))

/-- The partition leaves its state for a handover or destruction, its work stopping (R385, R389). -/
def leavePart (c : Cmd) (s : State) (p : Nat) (mode : PartMode) : State :=
  let s := s.modPart p (fun x => { x with
    mode := mode, stage := if x.stage == .resetting then .resetting else .stopping, stageStart := s.now, mismatch := false })
  partAdvance (stopPartition c s p) p

/-- PART_DESTROY takes a partition in any state that no command holds (R385). -/
def refusePartDestroy (c : Cmd) (s : State) : Option Nat :=
  refusal ([rcIf (pfRc c), restZero c 1] ++ partArg s (c.val 0))

/-- PART_DESTROY: contexts torn down, then the partition reset, and the scrub of a sealed partition (R385, R390). -/
def effectPartDestroy (c : Cmd) (s : State) : CmdOut := .wait (.partDestroy (c.val 0)) (leavePart c s (c.val 0) .destroying)

/-- PART_DESTROY (R385). -/
def execPartDestroy (rq : Req) (part : Word) (s : State) : Host.Outcome State Fault Refusal :=
  .next (runRow refusePartDestroy effectPartDestroy 0x19 rq [part] s)

/-- PART_HANDOVER takes a sealed ACTIVE partition (R385, R387). -/
def refusePartHandover (c : Cmd) (s : State) : Option Nat :=
  refusal ([rcIf (pfRc c), restZero c 1] ++ partArg s (c.val 0) ++
    [(!(s.part (c.val 0)).isSealed || (s.part (c.val 0)).mode != .active, rcBadState)])

/-- PART_HANDOVER: the steps of R389 begin. -/
def effectPartHandover (c : Cmd) (s : State) : CmdOut := .wait (.partHandover (c.val 0)) (leavePart c s (c.val 0) .handover)

/-- PART_HANDOVER (R389). -/
def execPartHandover (rq : Req) (part : Word) (s : State) : Host.Outcome State Fault Refusal :=
  .next (runRow refusePartHandover effectPartHandover 0x1B rq [part] s)

/-! ### PART_ASSIGN -/

/-- A function keeps objects that a release would orphan: a context that is not FREE, or an engine queue bound to it (R502). -/
def ownsObjects (s : State) (f : Nat) : Bool :=
  !(keysWhere s.objs.ctxs (fun x => x.mode != .free && x.owner == f && some x.part == (s.fn f).part)).isEmpty ||
  !(queuesWhere s (fun q => q.fn == f && q.kind != 0)).isEmpty

/-- A sealed partition takes a virtual function that TDISP has brought to RUN with its IDE stream bound (R337, R387). -/
def sealedOk (s : State) (f : Nat) : Bool := (s.fn f).tdi == .run && (s.fn f).ideStream

/-- PART_ASSIGN (R363, R385, R387, R502). -/
def refusePartAssign (c : Cmd) (s : State) : Option Nat :=
  let f := c.val 0
  let p := c.val 1
  let x := s.part p
  let ver := match (s.fn f).session with | some y => decide (y.desc ≠ x.descVer ∨ y.fmt ≠ x.fmtVer) | none => false
  refusal ([rcIf (pfRc c), restZero c 2, badIf (decide (63 < f) || (decide (7 < p) && p != 0xFF)), (fnBusy s f, rcBusy)] ++
    (if p = 0xFF then [((s.fn f).part.isSome && ownsObjects s f, rcBadState)]
     else partArg s p ++
      [((s.fn f).mode == .absent, rcBadState),
       ((match (s.fn f).part with | some q => q != p | none => false), rcBadState),
       ((s.fn f).part.isNone && x.mode != .active, rcBadState),
       ((s.fn f).part.isNone && x.isSealed && f == 0, rcBadArg),
       ((s.fn f).part.isNone && x.isSealed && !sealedOk s f, rcBadState),
       ((s.fn f).part.isNone && ver, rcVersion)]))

/-- PART_ASSIGN: the function is assigned, or released (R502). -/
def effectPartAssign (c : Cmd) (s : State) : CmdOut :=
  okWith 0 (s.modFn (c.val 0) (fun x => { x with part := if c.val 1 = 0xFF then none else some (c.val 1) }))

/-- PART_ASSIGN (R502). -/
def execPartAssign (rq : Req) (fn part : Word) (s : State) : Host.Outcome State Fault Refusal :=
  .next (runRow refusePartAssign effectPartAssign 0x1A rq [fn, part] s)

/-! ### PART_SCHED and PART_CACHE -/

/-- A queue holds unfinished work. -/
def queueWorks (x : Queue) : Bool :=
  x.consumed != x.tail || x.entries.any (fun e => match e.phase with | .finished _ => false | _ => true)

/-- A partition's tile programs, or its engine queues of some kinds, hold unfinished work (R242, R256). -/
def unfinished (s : State) (p : Nat) (kinds : Nat → Bool) : Bool :=
  s.work.slots.any (fun e => e.2.loaded && e.2.launched && (s.ctx e.2.ctx).part == p) ||
  (partCtxs s p).any (fun c => !ctxIdle s c) ||
  !(queuesWhere s (fun q => q.ctx.isSome && q.part == p && kinds q.kind && queueWorks q)).isEmpty

/-- The issuer's partition, for commands of class P. -/
def myPart (c : Cmd) (s : State) : Nat := fnPart s c.fn

/-- PART_SCHED (R242): no unfinished work; Winter needs a slot table and no cache units. -/
def refusePartSched (c : Cmd) (s : State) : Option Nat :=
  let p := myPart c s
  let x := s.part p
  refusal [rcIf (partRc c s), restZero c 1, badIf (decide (1 < c.val 0)),
    (x.winter != (c.val 0 == 1) && unfinished s p (fun k => within 1 4 k), rcBadState),
    (!x.winter && c.val 0 == 1 && (x.table.isNone || x.units != 0), rcBadState)]

/-- Entering a schedule: the launch count starts anew, and in Summer the choice counts (R261, R269). -/
def enterSched (s : State) (p : Nat) (winter : Bool) : State :=
  let s := s.setRaw ⟨.rplWork, p, 0⟩ 0
  if winter then s
  else (((s.setFld fRplChoiceIssueIssue p 0 0).setFld fRplChoiceGrantGrant p 0 0).setFld fRplChoiceSlotSlot p 0 0).setFld
    fRplChoiceArbArb p 0 0

/-- PART_SCHED: leaving Winter discards the slot table; a slew ends before Winter begins (R242, R466). -/
def effectPartSched (c : Cmd) (s : State) : CmdOut :=
  let p := myPart c s
  let w := c.val 0 == 1
  if (s.part p).winter == w then okWith 0 s
  else
    let s := if w then endSlew s else s
    okWith 0 ((enterSched s p w).modPart p (fun x =>
      { x with winter := w, table := if w then x.table else none, held := false, causes := [] }))

/-- PART_SCHED (R242). -/
def execPartSched (rq : Req) (schedule : Word) (s : State) : Host.Outcome State Fault Refusal :=
  .next (runRow refusePartSched effectPartSched 0x1C rq [schedule] s)

/-- PART_CACHE: up to 48 units, none in Winter (R43, R50). -/
def refusePartCache (c : Cmd) (s : State) : Option Nat :=
  refusal [rcIf (partRc c s), restZero c 1, badIf (decide (48 < c.val 0)),
    ((s.part (myPart c s)).winter && c.val 0 != 0, rcBadState)]

/-- PART_CACHE: the dirty lines are written back, the units that change sides lose their contents (R49). -/
def effectPartCache (c : Cmd) (s : State) : CmdOut :=
  let p := myPart c s
  let old := (s.part p).units
  let u := c.val 0
  if old = u then okWith 0 s
  else
    let (s, n) := flushPart s p
    let s := forEach (maskSecs (s.part p).mask) s (fun n t =>
      zeroRange t (loamAddr n ((48 - max old u) * cacheUnit)) ((max old u - min old u) * cacheUnit))
    okWith n (s.modPart p (fun x => { x with units := u }))

/-- PART_CACHE (R49). -/
def execPartCache (rq : Req) (units : Word) (s : State) : Host.Outcome State Fault Refusal :=
  .next (runRow refusePartCache effectPartCache 0x1D rq [units] s)

/-! ### SLOT_TABLE (R256 to R260) -/

/-- An entry's fields. -/
def parseEntry (sec : Nat) (b : List Byte) : SlotEntry :=
  { start := fieldAt b 0 4, length := fieldAt b 4 4, stride := fieldAt b 8 4, repeats := fieldAt b 12 4,
    lmask := fieldAt b 16 2, resource := fieldAt b 18 1, resIndex := fieldAt b 19 1, holder := fieldAt b 20 1,
    holderIndex := fieldAt b 22 2, reserved := fieldAt b 21 1 != 0 || fieldAt b 24 8 != 0, sec := sec }

/-- The counts of entries of a table, by section. -/
def tableCounts (b : List Byte) : List Nat := (upTo 8).map (fun n => fieldAt b (8 + 4 * n) 4)

/-- The sections of a table's entries, one to an entry, in order. -/
def tableSecs (b : List Byte) : List Nat := (tableCounts b).zipIdx.flatMap (fun e => List.replicate e.1 e.2)

/-- A table's bytes as a table. -/
def parseTable (b : List Byte) : SlotTable :=
  { ver := fieldAt b 0 1, double := bitOf (fieldAt b 1 1) 0, sections := fieldAt b 2 1, period := fieldAt b 4 4,
    entries := (tableSecs b).zipIdx.map (fun e => parseEntry e.1 ((b.drop (64 + 32 * e.2)).take 32)), bytes := b }

/-- The bytes that a table's header announces. -/
def tableLength (b : List Byte) : Nat := 64 + 32 * sumNat (tableCounts b)

/-- The sections at the ends of a mesh connection (R259). -/
def meshEnds (c : Nat) : Nat × Nat :=
  ([(0, 1), (1, 2), (2, 3), (4, 5), (5, 6), (6, 7), (0, 4), (1, 5), (2, 6), (3, 7)] : List (Nat × Nat)).getD c (8, 8)

/-- The section to which a resource belongs, when it lies within the partition (R256, R259). -/
def resourceSec (mask low res idx : Nat) : Option Nat :=
  let inside (n : Nat) : Option Nat := if n < 8 ∧ bitOf mask n then some n else none
  match res with
  | 1 => inside idx
  | 2 => inside idx
  | 3 =>
    let (a, b) := meshEnds (idx % 16)
    if idx < 32 ∧ idx % 16 < 10 ∧ bitOf mask a ∧ bitOf mask b then some a else none
  | 4 => if idx < 24 then inside (idx / 3) else none
  | 5 => if idx + 12 * low < 96 then inside ((idx + 12 * low) / 12) else none
  | 6 => inside idx
  | _ => none

/-- The section of a holder; 8 for one that does not exist (R259). -/
def holderSec (h i : Nat) : Nat :=
  match h with
  | 1 => if i < 768 ∧ i % 8 < 7 then i / 8 / 12 else 8
  | 2 => if i < 64 then i / 8 else 8
  | 7 => if i < 64 then i / 8 else 8
  | 8 => if i < 64 then i / 8 else 8
  | 0x0A => if i < 24 then i / 3 else 8
  | 0x0D => if i < 96 then i / 12 else 8
  | 0x0E => if i < 96 then i / 12 else 8
  | _ => if (within 3 6 h || h == 9 || h == 0x0B || h == 0x0C) && decide (i < 8) then i else 8

/-- An entry's fields are in range, its resource belongs to its section and its holder to the partition (R258 to R260). -/
def entryOk (mask low period : Nat) (e : SlotEntry) : Bool :=
  !e.reserved && decide (e.start < period) && decide (1 ≤ e.length) &&
  (if e.repeats = 0 then e.stride == 0 else decide (1 ≤ e.stride)) &&
  resourceSec mask low e.resource e.resIndex == some e.sec &&
  decide (holderSec e.holder e.holderIndex < 8) && bitOf mask (holderSec e.holder e.holderIndex)

/-- Two entries grant the same resource in the same L-cycle (R260). -/
def grantsMeet (period : Nat) (a b : SlotEntry) : Bool :=
  a.resource == b.resource && a.resIndex == b.resIndex && (a.lmask &&& b.lmask) != 0 &&
  (upTo (a.repeats + 1)).any (fun i => grantsIn b period ((a.start + i * a.stride) % max period 1) a.length)

/-- Some two entries of a list grant the same L-cycle. -/
def grantsClash (period : Nat) : List SlotEntry → Bool
  | [] => false
  | e :: t => t.any (grantsMeet period e) || grantsClash period t

/-- The L-cycles of one period that a table grants a holder on one resource. -/
def grantedCycles (t : SlotTable) (resource resIndex holder index : Nat) : Nat :=
  sumNat ((t.entries.filter (fun e => e.resource == resource && e.resIndex == resIndex && e.holder == holder &&
    e.holderIndex == index)).map (fun e => e.length * (e.repeats + 1) * (setBits 16 e.lmask).length))

/-- The entries of each section rise by START (R257). -/
def entriesSorted : List SlotEntry → Bool
  | a :: b :: t => (a.sec != b.sec || decide (a.start ≤ b.start)) && entriesSorted (b :: t)
  | _ => true

/-- The scrub windows of a section cover the scrub periods: on its read port and on its stacks (R58, R260). Some window is always
needed. -/
def scrubCovered (t : SlotTable) (n loam hbm : Nat) : Bool :=
  decide (max 1 (Config.loamScrubNeed loam t.period) ≤ grantedCycles t 1 n 0x0B n) &&
  (spanOf (3 * n) 3).all (fun g => decide (max 1 (Config.hbmScrubNeed hbm t.period) ≤ grantedCycles t 4 g 0x0B n))

/-- The refresh windows of a stack cover its declared rate (R260). -/
def refreshCovered (t : SlotTable) (g : Nat) : Bool :=
  decide (max 1 (Config.refreshNeed t.double t.period) ≤ grantedCycles t 4 g 0x0A g)

/-- The Loam and HBM scrub periods of a section in seconds (R58). -/
def loamPeriod (s : State) (n : Nat) : Nat := s.fld fLoamScrubPeriod n 0
def hbmPeriod (s : State) (n : Nat) : Nat := tabGet 86400 s.mem.hbmScrubS n

/-- The descriptors of a loaded program. -/
def programBytes (s : State) (x : Slot) : List Byte := readBytes s x.base (128 * x.count)

/-- A program of a core lacks a grant in a table (R164, R260): some port, connection or stack that a read or write of its tiles uses is
never granted to the tile's unit, nor to a fill program of a best-effort context (R193); whether the grants come in the cycles that it
needs them is left to the compiler's own account (log entry 41). -/
def programLacks (s : State) (core : Nat) (x : Slot) (t : SlotTable) : Bool :=
  let b := programBytes s x
  let given (u : Nat) (n : Nat × Nat) : Bool := t.entries.any (fun e => e.resource == n.1 && e.resIndex == n.2 && e.lmask != 0 &&
    ((e.holder == 1 && e.holderIndex == 8 * core + u) ||
     ((s.ctx x.ctx).bestEffort && e.holder == 0x0D && e.holderIndex == core)))
  (chunksOf 128 b).any (fun d => (tileCheck s core x.ctx d).isNone && !(tileNeeds s core x.ctx d).all (given (tileUnit d))) ||
  Config.grantMissing b t.bytes

/-- A table passes every check of R260 for a partition. -/
def tableOk (s : State) (p : Nat) (b : List Byte) : Bool :=
  let x := s.part p
  let t := parseTable b
  let secs := maskSecs x.mask
  decide (b.length = tableLength b) && t.ver == 0x10 && decide (fieldAt b 1 1 ≤ 1) && t.sections == x.mask &&
  fieldAt b 3 1 == 0 && fieldAt b 40 24 == 0 && decide (1 ≤ t.period) &&
  ((tableCounts b).zipIdx.all (fun e => decide (e.1 ≤ 65536) && (e.1 == 0 || secs.contains e.2))) &&
  t.entries.all (entryOk x.mask (secs.headD 0) t.period) && entriesSorted t.entries && !grantsClash t.period t.entries &&
  secs.all (fun n => (spanOf (3 * n) 3).all (refreshCovered t) &&
    scrubCovered t n (loamPeriod s n) (hbmPeriod s n)) &&
  s.work.slots.all (fun e => !(e.2.loaded && (s.ctx e.2.ctx).part == p && programLacks s (e.1 / 8) e.2 t))

/-- The checks of SLOT_TABLE before its table is read (R256). -/
def tableChecks (c : Cmd) (s : State) : List (Bool × Nat) :=
  let p := myPart c s
  [rcIf (partRc c s), restZero c 2, badIf (decide (2 ^ 32 ≤ c.val 1)), addrRc c s (c.arg 0) (c.val 1) false,
    ((s.part p).winter && (s.part p).table.isSome && unfinished s p (fun k => within 1 5 k), rcBadState)]

/-- SLOT_TABLE reads its table. -/
def tableReads (c : Cmd) (s : State) : List (Word × Nat) := readsAfter (tableChecks c s) [(c.arg 0, c.val 1)]

/-- SLOT_TABLE (R256, R260). -/
def refuseSlotTable (c : Cmd) (s : State) : Option Nat :=
  refusal (tableChecks c s ++ [(argPoisoned s (c.arg 0) (c.val 1), rcFaulted),
    (!tableOk s (myPart c s) (readArg s (c.arg 0) 0 (c.val 1)), rcSlotTable)])

/-- SLOT_TABLE: the table is kept, or replaces the one in force (R256). -/
def effectSlotTable (c : Cmd) (s : State) : CmdOut :=
  let t := parseTable (readArg s (c.arg 0) 0 (c.val 1))
  okWith 0 (s.modPart (myPart c s) (fun x => { x with table := some t }))

/-- SLOT_TABLE (R256). -/
def execSlotTable (rq : Req) (addr len : Word) (s : State) : Host.Outcome State Fault Refusal :=
  .next (runRowWith refuseSlotTable tableReads effectSlotTable 0x1E rq [addr, len] s)

/-! ### PART_INFO -/

/-- STATE of a partition (R385). -/
def partModeCode : PartMode → Nat
  | .active => 0 | .handover => 1 | .destroying => 2 | .blocked => 3

/-- 16 MiB units of a section that hold copies of loaded models (R398). -/
def modelUnits (s : State) (p n : Nat) : Nat :=
  let cs := ((s.objs.models.map (·.2)).filter (fun m => m.present && m.part == p)).flatMap (·.copies)
  ((upTo 48).filter (fun u => cs.any (fun c => c.sec == n && overlaps (u * cacheUnit) cacheUnit c.offset c.bytes))).length

/-- The record of PART_INFO (R398). -/
def partRecord (s : State) (p : Nat) : List Byte :=
  let x := s.part p
  if !x.present then leBytes 1 p ++ leBytes 1 0xFF ++ leBytes 30 0
  else
    leBytes 1 p ++ leBytes 1 (partModeCode x.mode) ++ leBytes 1 x.mask ++
    leBytes 1 (toBit x.isSealed + 2 * toBit x.winter) ++ leBytes 1 x.units ++
    leBytes 1 (((maskSecs x.mask).map (modelUnits s p)).foldl max 0) ++ leBytes 2 (partCtxs s p).length ++
    leBytes 8 (sumNat ((partFns s p).map (2 ^ ·))) ++ leBytes 4 x.handovers ++ leBytes 4 x.lastHandoverUs ++ leBytes 8 0

/-- PART_INFO takes any partition number, also of a partition under handover. -/
def refusePartInfo (c : Cmd) (s : State) : Option Nat :=
  refusal [restZero c 2, badIf (decide (7 < c.val 0)), addrRc c s (c.arg 1) 32 true]

/-- PART_INFO writes the record (R398). -/
def effectPartInfo (c : Cmd) (s : State) : CmdOut := okWith 32 (writeArg s c.fn (c.arg 1) 0 (partRecord s (c.val 0)))

/-- PART_INFO (R398). -/
def execPartInfo (rq : Req) (part addr : Word) (s : State) : Host.Outcome State Fault Refusal :=
  .next (runRow refusePartInfo effectPartInfo 0x1F rq [part, addr] s)

/-! ### WINDOW_SET -/

/-- Frames in 100 µs (R28, R336). -/
def frames100us : Nat := 10833

/-- The table grants the host aperture of a section at least once in every 100 µs of frames (R336). -/
def apertureOk (t : Option SlotTable) (n : Nat) : Bool :=
  match t with
  | none => false
  | some t => (upTo t.period).all (fun f =>
      t.entries.any (fun e => e.holder == 9 && e.holderIndex == n && e.lmask != 0 && grantsIn e t.period f frames100us))

/-- The sections that a range of device addresses touches. -/
def spanSecs (a n : Nat) : List Nat :=
  (upTo 8).filter (fun k => overlaps a n (k * sectionHbm) sectionHbm || overlaps a n (loamAddr k 0) loamBytes)

/-- Bytes of a quarter of a function's BAR2 (R332, R335). -/
def quarterBytes (s : State) (f : Nat) : Nat := 2 ^ (30 + (s.fn f).bar2Log) / 4

/-- WINDOW_SET: a 4 KiB boundary or all ones; never a sealed partition's memory for the physical function; a Winter partition
only with its host aperture granted (R335, R336). -/
def refuseWindowSet (c : Cmd) (s : State) : Option Nat :=
  let f := c.val 0
  let ps := ((spanSecs (c.val 2) (quarterBytes s f)).filterMap (fun n => (secPart s n).map (fun p => (n, p))))
  let some_ := c.val 2 != 2 ^ 64 - 1
  refusal [rcIf (pfRc c), restZero c 3,
    badIf (decide (63 < f) || decide (3 < c.val 1) || (some_ && (c.val 2 % 4096 != 0 || decide (2 ^ 63 ≤ c.val 2)))),
    ((s.fn f).mode == .absent, rcBadState), (fnBusy s f, rcBusy),
    (some_ && f == 0 && ps.any (fun e => (s.part e.2).isSealed), rcNotPermitted),
    (partSealed s (s.fn f).part && !tdiLocked s f, rcNotPermitted),
    (some_ && ps.any (fun e => (s.part e.2).winter && !apertureOk (s.part e.2).table e.1), rcBadState)]

/-- WINDOW_SET: the quarter's window is set or removed (R335). -/
def effectWindowSet (c : Cmd) (s : State) : CmdOut :=
  let f := c.val 0
  guardTdi c s f (okWith 0 (s.modFn f (fun x =>
    let rest := x.windows.filter (fun w => w.1 != c.val 1)
    { x with windows := if c.val 2 = 2 ^ 64 - 1 then rest else rest ++ [(c.val 1, c.val 2)] })))

/-- WINDOW_SET (R335). -/
def execWindowSet (rq : Req) (fn quarter base : Word) (s : State) : Host.Outcome State Fault Refusal :=
  .next (runRow refuseWindowSet effectWindowSet 0x33 rq [fn, quarter, base] s)

/-! ### FN_STATE -/

/-- FN_STATE takes a function that is present and not resetting. -/
def refuseFnState (c : Cmd) (s : State) : Option Nat :=
  refusal [rcIf (pfRc c), restZero c 2, badIf (decide (63 < c.val 0) || decide (1 < c.val 1)), (fnBusy s (c.val 0), rcBusy),
    ((s.fn (c.val 0)).mode == .absent || (s.fn (c.val 0)).mode == .resetting, rcBadState)]

/-- FN_STATE: an enabled function takes its state; a disabled one stops its queues and the programs of its contexts (R354, R395,
R416). -/
def effectFnState (c : Cmd) (s : State) : CmdOut :=
  let f := c.val 0
  if c.val 1 = 1 then okWith 0 (s.modFn f (fun x => { x with mode := .enabled }))
  else
    let s := s.modFn f (fun x => { x with mode := .disabled })
    let mine := keysWhere s.objs.ctxs (fun x => x.mode == .active && x.owner == f)
    let s := forEach mine s (fun k t => markStopped (stopCtxSlots t k) (fun l => l.ctx == k))
    .wait (.fnDisable f) (stopFnQueues s f true)

/-- FN_STATE (R354). -/
def execFnState (rq : Req) (fn enable : Word) (s : State) : Host.Outcome State Fault Refusal :=
  .next (runRow refuseFnState effectFnState 0x34 rq [fn, enable] s)

end Sys2Proof.Machine
end

