-- ==== Sys2Proof/Machine/CmdCtx.lean ====
section
/-! DEFINITION. Contexts, queues, tallies and regions (R344 to R355, R377, R378, R394 to R397, R404, R408, R426, R437, R438):
CTX_CREATE, CTX_DESTROY, CTX_SET, CTX_QUIESCE, CTX_SNAPSHOT, QUEUE_CREATE, QUEUE_DESTROY, QUEUE_ENABLE, QUEUE_DISABLE,
QUEUE_RESET, TALLY_CREATE, TALLY_SET, TALLY_DESTROY, REGION_CREATE, REGION_DESTROY, REGION_FREEZE, HANDLE_INFO. -/

namespace Sys2Proof.Machine

/-! ### Contexts -/

/-- The checks of a context that a command names (R369, R371, R373). -/
def ctxChecks (c : Cmd) (s : State) (w : Word) : List (Bool × Nat) := [rcIf (ctxRc c s w), (ctxBusy c s (hIdx w), rcBusy)]

/-- CTX_CREATE: the owner function is assigned to the issuer's partition (R394). -/
def refuseCtxCreate (c : Cmd) (s : State) : Option Nat :=
  refusal [rcIf (partRc c s), restZero c 3,
    badIf (decide (1 < c.val 0) || decide (65535 < c.val 1) || decide (63 < c.val 2) ||
      (s.fn (c.val 2)).part != some (myPart c s)),
    (fnBusy s (c.val 2), rcBusy),
    ((upTo 512).all (fun k => (s.ctx k).mode != .free), rcNoResources)]

/-- CTX_CREATE: the index's generation rises by one, and the context is ACTIVE (R395, R396). -/
def effectCtxCreate (c : Cmd) (s : State) : CmdOut :=
  match pickIndex s 512 (fun k => (s.ctx k).mode == .free) with
  | none => .done rcNoResources 0 s
  | some (k, s) =>
    let g := (s.ctx k).gen + 1
    let p := myPart c s
    .done 0 (mkHandle 1 p g k)
      (s.setCtx k { mode := .active, gen := g, bestEffort := c.val 0 == 1, fill := c.val 1, owner := c.val 2, part := p })

/-- CTX_CREATE (R394). -/
def execCtxCreate (rq : Req) (cls fill owner : Word) (s : State) : Host.Outcome State Fault Refusal :=
  .next (runRow refuseCtxCreate effectCtxCreate 0x20 rq [cls, fill, owner] s)

/-- A model under load or eviction lists a tensor of the context (R411). -/
def ctxModelHeld (s : State) (k : Nat) : Bool :=
  s.objs.models.any (fun e => e.2.present && modelBusy s e.1 && e.2.tensors.any (fun id =>
    (s.tensor e.2.part id).present && (s.tensor e.2.part id).ctx == k))

/-- CTX_DESTROY waits for no LAUNCH and no model: they refuse it (R411, R417). -/
def refuseCtxDestroy (c : Cmd) (s : State) : Option Nat :=
  refusal (ctxChecks c s (c.arg 0) ++ [restZero c 1, (ctxModelHeld s (hIdx (c.arg 0)), rcBusy)])

/-- CTX_DESTROY: the context enters STOPPING (R417). -/
def effectCtxDestroy (c : Cmd) (s : State) : CmdOut :=
  .wait (.ctxDestroy (hIdx (c.arg 0))) (stopPlanned s (hIdx (c.arg 0)) true)

/-- CTX_DESTROY (R417). -/
def execCtxDestroy (rq : Req) (ctx : Word) (s : State) : Host.Outcome State Fault Refusal :=
  .next (runRow refuseCtxDestroy effectCtxDestroy 0x21 rq [ctx] s)

/-- CTX_SET (R190, R377). -/
def refuseCtxSet (c : Cmd) (s : State) : Option Nat :=
  refusal (ctxChecks c s (c.arg 0) ++ [restZero c 3, badIf (decide (1 < c.val 1) || decide (65535 < c.val 2))])

/-- CTX_SET: class and fill delay change. -/
def effectCtxSet (c : Cmd) (s : State) : CmdOut :=
  okWith 0 (s.modCtx (hIdx (c.arg 0)) (fun x => { x with bestEffort := c.val 1 == 1, fill := c.val 2 }))

/-- CTX_SET (R377). -/
def execCtxSet (rq : Req) (ctx cls fill : Word) (s : State) : Host.Outcome State Fault Refusal :=
  .next (runRow refuseCtxSet effectCtxSet 0x22 rq [ctx, cls, fill] s)

/-- CTX_QUIESCE waits for the LAUNCHes of its context (R437). -/
def refuseCtxQuiesce (c : Cmd) (s : State) : Option Nat :=
  let k := hIdx (c.arg 0)
  refusal [rcIf (ctxRc c s (c.arg 0)), (ctxHeld c s k || heldBy s (fun p => p == .ctxQuiesce k), rcBusy), restZero c 1]

/-- CTX_QUIESCE waits until the context is quiescent; `settle` publishes it with its effect (R437). -/
def effectCtxQuiesce (c : Cmd) (s : State) : CmdOut := .wait (.ctxQuiesce (hIdx (c.arg 0))) s

/-- CTX_QUIESCE (R437). -/
def execCtxQuiesce (rq : Req) (ctx : Word) (s : State) : Host.Outcome State Fault Refusal :=
  .next (runRow refuseCtxQuiesce effectCtxQuiesce 0x23 rq [ctx] s)

/-! ### CTX_SNAPSHOT (R438) -/

/-- The entries of a list argument, `w` bytes each. -/
def listArg (s : State) (a : Word) (w n : Nat) : List Nat := (upTo n).map (fun i => leNat (readArg s a (w * i) w))

/-- The tensors that a snapshot names. -/
def snapIds (c : Cmd) (s : State) : List Nat := listArg s (c.arg 1) 4 (c.val 2)

/-- Bytes of a tensor's data in the stream: its blocks and their checksums, padded to 4 KiB. -/
def snapBytes (t : Tensor) : Nat := 4096 * t.desc.blocks + roundUp (4 * t.desc.blocks) 4096

/-- The tensors of a stream with the offset of their data. -/
def snapPlan (ts : List Tensor) : List (Tensor × Nat) :=
  (ts.foldl (fun (a : List (Tensor × Nat) × Nat) t => (a.1 ++ [(t, a.2)], a.2 + snapBytes t)) ([], 64 + 128 * ts.length)).1

/-- Bytes of the whole stream. -/
def snapLength (ts : List Tensor) : Nat := 64 + 128 * ts.length + sumNat (ts.map snapBytes)

/-- A tensor's entry of the stream (R438). -/
def snapEntry (e : Tensor × Nat) : List Byte :=
  emitTensor e.1.desc ++ leBytes 4 e.1.stamp.toNat ++ leBytes 8 e.2 ++ leBytes 8 (snapBytes e.1) ++ leBytes 4 e.1.desc.blocks ++
  leBytes 40 0

/-- The stream's header (R438). -/
def snapHeader (s : State) (k : Nat) (ts : List Tensor) (entries : List Byte) : List Byte :=
  leBytes 1 0x10 ++ leBytes 1 0 ++ leBytes 2 k ++ leBytes 4 ts.length ++ leBytes 8 (snapLength ts) ++ leBytes 4 (lastStepOf s k) ++
  leBytes 4 (crc32c entries).toNat ++ leBytes 6 Config.moduleId.toNat ++ leBytes 34 0

/-- A block of the stream: its tensor, number, place and offset, and the offset of the tensor's checksums. -/
structure SnapBlock where
  tensor : Tensor
  num : Nat
  addr : Nat
  bytes : Nat
  off : Nat
  crcOff : Nat
  deriving DecidableEq, Repr

/-- The blocks of a stream, in order. -/
def snapBlocks (plan : List (Tensor × Nat)) : List SnapBlock :=
  plan.flatMap (fun e => (upTo e.1.desc.blocks).filterMap (fun b => (blockPlace e.1.homeDesc.arrays b).map (fun p =>
    ⟨e.1, b, p.1, p.2, e.2 + 4096 * b, e.2 + 4096 * e.1.desc.blocks + 4 * b⟩)))

/-- What the read of a whole block by a mover answers (R56, R63). -/
inductive BlockRead where
  | good | word (poison : Bool) | crc
  deriving DecidableEq, Repr

/-- A mover reads a whole block of a tensor, verified where the tensor has checksums, with its second read (R56, R62, R63). -/
def readBlock (s : State) (b : SnapBlock) : State × BlockRead :=
  let (s, bad) := readAll s ([(b.addr, b.bytes)] ++ (if b.tensor.desc.checksum then [(b.tensor.homeDesc.crcAddr + 4 * b.num, 4)] else []))
  match worstOf bad with
  | some poison => (s, .word poison)
  | none =>
    if !b.tensor.desc.checksum then (s, .good)
    else
      let bad (s : State) : Bool := !blockGood s b.tensor b.tensor.desc.version b.num b.addr b.bytes
      let (s, spoilt) := takeSpoilt s b.addr b.bytes
      if !(spoilt || bad s) then (s, .good)
      else
        let (s, again) := takeSpoilt s b.addr b.bytes
        if again || bad s then (crcFailed s b.addr, .crc) else (crcCleared s b.addr, .good)

/-- A block has been moved by the movers of its section (R72). -/
def countBlocks (s : State) (a n : Nat) : State :=
  match placeSecs a 1 with
  | some (sec :: _) => s.bump fHbmMoverBlocksBlocks sec 0 n
  | _ => s

/-- Stream blocks until one cannot be delivered: a bad word, or a block that does not verify, which faults the context
(R56, R62, R63, R438). -/
def snapStream (c : Cmd) (dest : Word) : List SnapBlock → State → State × Option Nat
  | [], s => (s, none)
  | b :: t, s =>
    match readBlock s b with
    | (s, .good) =>
      let data := blockData s (b.addr, b.bytes)
      let s := writeArg (countBlocks s b.addr 1) c.fn dest b.off data
      let crc := blockCrc b.tensor.desc.id b.num b.tensor.desc.version data
      snapStream c dest t (writeArg s c.fn dest b.crcOff (leBytes 4 crc.toNat))
    | (s, .word _) => (s, some b.off)
    | (s, .crc) => (ctxFault s b.tensor.ctx 7 (stackOf b.addr / 3) 0 false, some b.off)

/-- The checks of CTX_SNAPSHOT before its list is read: a quiesced context (R438). -/
def snapChecks (c : Cmd) (s : State) : List (Bool × Nat) :=
  ctxChecks c s (c.arg 0) ++
    [restZero c 4, badIf (decide (2 ^ 32 ≤ c.val 2)), addrRc c s (c.arg 1) (4 * c.val 2) false,
     (!(s.ctx (hIdx (c.arg 0))).quiesced, rcBadState)]

/-- CTX_SNAPSHOT reads its list. -/
def snapReads (c : Cmd) (s : State) : List (Word × Nat) := readsAfter (snapChecks c s) [(c.arg 1, 4 * c.val 2)]

/-- CTX_SNAPSHOT: a quiesced context and its own tensors (R438). -/
def refuseCtxSnapshot (c : Cmd) (s : State) : Option Nat :=
  let k := hIdx (c.arg 0)
  let p := myPart c s
  let ids := snapIds c s
  refusal (snapChecks c s ++
    [(argPoisoned s (c.arg 1) (4 * c.val 2), rcFaulted),
     (ids.any (fun id => !(s.tensor p id).present), rcBadHandle),
     (ids.any (fun id => (s.tensor p id).ctx != k), rcNotPermitted),
     addrRc c s (c.arg 3) (snapLength (ids.map (s.tensor p))) true])

/-- The tensors that CTX_SNAPSHOT names. -/
def snapTensors (c : Cmd) (s : State) : List Tensor := (snapIds c s).map (s.tensor (myPart c s))

/-- The stream's header and entries are written, and zeros where its checksums go (R438). -/
def snapBegin (c : Cmd) (s : State) : State :=
  let ts := snapTensors c s
  let entries := (snapPlan ts).flatMap snapEntry
  forEach (snapPlan ts) (writeArg s c.fn (c.arg 3) 0 (snapHeader s (hIdx (c.arg 0)) ts entries ++ entries)) (fun e t =>
    writeArg t c.fn (c.arg 3) (e.2 + 4096 * e.1.desc.blocks) (List.replicate (roundUp (4 * e.1.desc.blocks) 4096) 0))

/-- CTX_SNAPSHOT: header, entries and data are written; a block that cannot be delivered ends it FAULTED with the bytes written
before it (R438). -/
def effectCtxSnapshot (c : Cmd) (s : State) : CmdOut :=
  let ts := snapTensors c s
  match snapStream c (c.arg 3) (snapBlocks (snapPlan ts)) (snapBegin c s) with
  | (s, some off) => .done rcFaulted (BitVec.ofNat 64 off) s
  | (s, none) => okWith (snapLength ts) s

/-- CTX_SNAPSHOT (R438). -/
def execCtxSnapshot (rq : Req) (ctx list count dest : Word) (hits : List Hit) (s : State) : Host.Outcome State Fault Refusal :=
  .next (runRowWith refuseCtxSnapshot snapReads effectCtxSnapshot 0x24 rq [ctx, list, count, dest] (upsetWords s hits))

/-! ### Queues -/

/-- Engine kind and unit of QUEUE_CREATE's first argument (R378). -/
def qcKind (c : Cmd) : Nat := bitsOf (c.val 0) 7 0
def qcUnit (c : Cmd) : Nat := bitsOf (c.val 0) 31 8

/-- Units of an engine kind in the module. -/
def kindUnits (kind : Nat) : Nat := if kind = 1 ∨ kind = 5 then 64 else 8

/-- The arguments of QUEUE_CREATE are in their ranges, the unit and the bound function in the partition (R344, R349, R378). -/
def qcArgsOk (c : Cmd) (s : State) : Bool :=
  decide (c.val 0 < 2 ^ 32) && within 1 5 (qcKind c) && decide (qcUnit c < kindUnits (qcKind c)) &&
  bitOf (s.part (myPart c s)).mask (unitSec (qcKind c) (qcUnit c)) && ringSize (c.val 2) &&
  (if c.arg 3 = 0 then c.val 4 == 0 || ringSize (c.val 4) else ringSize (c.val 4) && within 2 63 (c.val 5)) &&
  decide (c.val 5 ≤ 63) && decide (c.val 6 ≤ 63) && (s.fn (c.val 6)).part == some (myPart c s)

/-- QUEUE_CREATE (R344, R349, R378). -/
def refuseQueueCreate (c : Cmd) (s : State) : Option Nat :=
  let same := (unitQueues s (qcKind c) (qcUnit c)).length
  refusal (ctxChecks c s (c.arg 7) ++
    [badIf (!qcArgsOk c s), addrRc c s (c.arg 1) (64 * c.val 2) false,
     (c.arg 3 != 0 && !addrOk c s (c.arg 3) (32 * c.val 4) true, rcBadArg),
     (fnBusy s (c.val 6), rcBusy),
     ((s.part (myPart c s)).winter && decide (1 ≤ same), rcBadState),
     (decide (64 ≤ same) || decide (512 ≤ (queuesWhere s (fun q => q.fn == c.val 6)).length) ||
       (upTo 8192).all (fun q => !queueFree s q), rcNoResources)])

/-- QUEUE_CREATE makes a DISABLED queue with its completion ring in the unready pattern (R348, R352). -/
def effectQueueCreate (c : Cmd) (s : State) : CmdOut :=
  let p := myPart c s
  let x : Queue :=
    { part := p, kind := qcKind c, unit := qcUnit c, fn := c.val 6, ctx := some (hIdx (c.arg 7)), ring := c.arg 1, n := c.val 2,
      cq := if c.arg 3 = 0 then none else some (c.arg 3), m := if c.val 4 = 0 then 64 else c.val 4, vector := c.val 5 }
  guardTdi c s (c.val 6) (match makeQueue s x with
    | none => .done rcNoResources 0 s
    | some (q, t) => .done 0 (mkHandle 2 p (t.queue q).gen q) t)

/-- QUEUE_CREATE (R378). -/
def execQueueCreate (rq : Req) (kindUnit ring n cq m vector boundFn ctx : Word) (s : State) :
    Host.Outcome State Fault Refusal :=
  .next (runRow refuseQueueCreate effectQueueCreate 0x28 rq [kindUnit, ring, n, cq, m, vector, boundFn, ctx] s)

/-- The checks of a queue that a command names. -/
def queueChecks (c : Cmd) (s : State) : List (Bool × Nat) :=
  [rcIf (queueRc c s (c.arg 0)), (queueBusy s (hIdx (c.arg 0)), rcBusy), restZero c 1]

/-- QUEUE_DESTROY takes a DISABLED queue. -/
def refuseQueueDestroy (c : Cmd) (s : State) : Option Nat :=
  refusal (queueChecks c s ++ [((s.queue (hIdx (c.arg 0))).mode != .disabled, rcBadState)])

/-- QUEUE_DESTROY: the handle is stale at once (R375). -/
def effectQueueDestroy (c : Cmd) (s : State) : CmdOut :=
  let q := hIdx (c.arg 0)
  let x := s.queue q
  let t := if x.kind = 0 then s.modFn x.fn (fun f => { f with cmdq := none }) else s
  guardTdi c s x.fn (okWith 0 (pruneTokens (t.setQueue q { gen := x.gen + 1 })))

/-- QUEUE_DESTROY (R377). -/
def execQueueDestroy (rq : Req) (queue : Word) (s : State) : Host.Outcome State Fault Refusal :=
  .next (runRow refuseQueueDestroy effectQueueDestroy 0x29 rq [queue] s)

/-- The context of a queue runs. -/
def queueCtxActive (s : State) (x : Queue) : Bool := match x.ctx with | some k => (s.ctx k).mode == .active | none => true

/-- QUEUE_ENABLE takes a DISABLED queue of an ACTIVE context (R348, R395). -/
def refuseQueueEnable (c : Cmd) (s : State) : Option Nat :=
  let x := s.queue (hIdx (c.arg 0))
  refusal (queueChecks c s ++
    [((x.mode != .disabled && x.mode != .enabled) || !queueCtxActive s x || (s.fn x.fn).mode != .enabled, rcBadState)])

/-- QUEUE_ENABLE: the queue is ENABLED, and its context is no longer at a quiesce point (R348, R437). -/
def effectQueueEnable (c : Cmd) (s : State) : CmdOut :=
  let q := hIdx (c.arg 0)
  let s := match (s.queue q).ctx with | some k => s.modCtx k (fun x => { x with quiesced := false }) | none => s
  okWith 0 (s.modQueue q (fun x => { x with mode := .enabled, recordsAllowed := true }))

/-- QUEUE_ENABLE (R348). -/
def execQueueEnable (rq : Req) (queue : Word) (s : State) : Host.Outcome State Fault Refusal :=
  .next (runRow refuseQueueEnable effectQueueEnable 0x2A rq [queue] s)

/-- QUEUE_DISABLE does not take a queue in ERROR. -/
def refuseQueueDisable (c : Cmd) (s : State) : Option Nat :=
  refusal (queueChecks c s ++ [((s.queue (hIdx (c.arg 0))).mode == .error, rcBadState)])

/-- QUEUE_DISABLE: the queue drains; the result is the descriptors cancelled (R354, R355). -/
def effectQueueDisable (c : Cmd) (s : State) : CmdOut :=
  let q := hIdx (c.arg 0)
  .wait (.queueDisable q (s.queue q).cancelled) (stopQueue s q true)

/-- QUEUE_DISABLE (R354). -/
def execQueueDisable (rq : Req) (queue : Word) (s : State) : Host.Outcome State Fault Refusal :=
  .next (runRow refuseQueueDisable effectQueueDisable 0x2B rq [queue] s)

/-- QUEUE_RESET takes a queue in ERROR. -/
def refuseQueueReset (c : Cmd) (s : State) : Option Nat :=
  refusal (queueChecks c s ++ [((s.queue (hIdx (c.arg 0))).mode != .error, rcBadState)])

/-- QUEUE_RESET: positions 0, the completion ring in the unready pattern, DISABLED (R348, R377). -/
def effectQueueReset (c : Cmd) (s : State) : CmdOut :=
  let q := hIdx (c.arg 0)
  okWith 0 (fillRing (s.modQueue q (fun x =>
    { x with mode := .disabled, tail := 0, consumed := 0, produced := 0, released := 0, entries := [], draining := false })) q)

/-- QUEUE_RESET (R377). -/
def execQueueReset (rq : Req) (queue : Word) (s : State) : Host.Outcome State Fault Refusal :=
  .next (runRow refuseQueueReset effectQueueReset 0x2C rq [queue] s)

/-! ### Tallies -/

/-- A tally index that is free. -/
def tallyFree (s : State) (t : Nat) : Bool := !(s.tally t).present && !(s.tally t).abandoned

/-- Bytes of a context's regions in the Loam of a section (R404). -/
def loamAffinity (s : State) (k n : Nat) : Nat :=
  sumNat ((ctxRegions s k).map (fun r => min (r.base + r.length) (loamAddr n loamBytes) - max r.base (loamAddr n 0)))

/-- A section has a free tally index (R157). -/
def tallyRoom (s : State) (n : Nat) : Bool := (upTo 2048).any (fun i => tallyFree s (2048 * n + i))

/-- The section of a partition with room whose Loam holds most of a context's regions, ties to the lowest (R404). -/
def bestHome (s : State) (p k : Nat) : Option Nat :=
  ((maskSecs (s.part p).mask).filter (tallyRoom s)).foldl (fun a n => match a with
    | none => some n
    | some m => if loamAffinity s k m < loamAffinity s k n then some n else some m) none

/-- The home of a new tally (R404). -/
def tallyHome (s : State) (p k pref : Nat) : Option Nat :=
  if pref ≠ 0xFF ∧ tallyRoom s pref then some pref else bestHome s p k

/-- TALLY_CREATE (R404). -/
def refuseTallyCreate (c : Cmd) (s : State) : Option Nat :=
  let p := myPart c s
  refusal (ctxChecks c s (c.arg 0) ++
    [restZero c 4,
     badIf (decide (1 < c.val 1) || (c.val 2 != 0xFF && (decide (7 < c.val 2) || !bitOf (s.part p).mask (c.val 2))) ||
       decide (2 ^ 32 ≤ c.val 3)),
     ((tallyHome s p (hIdx (c.arg 0)) (c.val 2)).isNone, rcNoResources)])

/-- TALLY_CREATE: a free index of its home section, with the initial count (R157, R404). -/
def effectTallyCreate (c : Cmd) (s : State) : CmdOut :=
  let p := myPart c s
  let k := hIdx (c.arg 0)
  match tallyHome s p k (c.val 2) with
  | none => .done rcNoResources 0 s
  | some n =>
    match pickIndex s 2048 (fun i => tallyFree s (2048 * n + i)) with
    | none => .done rcNoResources 0 s
    | some (i, s) =>
      let t := 2048 * n + i
      let g := (s.tally t).gen
      .done 0 (mkHandle 3 p g t)
        (s.setTally t { present := true, gen := g, count := c.val 3, ctx := k, part := p, isExternal := c.val 1 == 1 })

/-- TALLY_CREATE (R404). -/
def execTallyCreate (rq : Req) (ctx cls sec count : Word) (s : State) : Host.Outcome State Fault Refusal :=
  .next (runRow refuseTallyCreate effectTallyCreate 0x2D rq [ctx, cls, sec, count] s)

/-- TALLY_SET: an abandoned tally takes no count (R426). -/
def refuseTallySet (c : Cmd) (s : State) : Option Nat :=
  refusal [rcIf (tallyRc c s (c.arg 0)), restZero c 2, badIf (decide (2 ^ 32 ≤ c.val 1)),
    ((s.tally (hIdx (c.arg 0))).abandoned, rcBadState)]

/-- The windows of a partition's cores are looked at afresh: a tally set may have changed what they wait for (R190). -/
def stirCores (s : State) (p : Nat) : State :=
  { s with work := { s.work with cores := s.work.cores.map (fun e =>
      if secPart s (coreSec e.1) = some p then (e.1, { e.2 with moved := aCycles s }) else e) } }

/-- TALLY_SET answers the count before; holds that waited on it may end (R159, R377). -/
def effectTallySet (c : Cmd) (s : State) : CmdOut :=
  let t := hIdx (c.arg 0)
  let s' := endExternal (s.modTally t (fun x => { x with count := c.val 1 })) t
  okWith (s.tally t).count (stirCores s' (s.tally t).part)

/-- TALLY_SET (R377). -/
def execTallySet (rq : Req) (tally count : Word) (s : State) : Host.Outcome State Fault Refusal :=
  .next (runRow refuseTallySet effectTallySet 0x2E rq [tally, count] s)

/-- A descriptor waits on a tally, or has issued with it among its signals (R157). -/
def tallyInUse (s : State) (t : Nat) : Bool :=
  let waits (b : List Byte) : Bool := (descWaits b).any (fun w => w.1 == t)
  let signals (b : List Byte) : Bool := (descSignals b).any (fun w => w.1 == t)
  s.work.cores.any (fun e => e.2.window.any (fun d => waits d.bytes) || (coreTiles e.2).any (fun r => signals r.bytes)) ||
  s.work.engines.any (fun e => (engineJobs e.2).any (fun j => waits j.bytes || signals j.bytes)) ||
  s.host.queues.any (fun e => e.2.present && e.2.kind != 0 &&
    e.2.entries.any (fun d => d.phase == .waiting && waits d.bytes))

/-- TALLY_DESTROY (R157). -/
def refuseTallyDestroy (c : Cmd) (s : State) : Option Nat :=
  refusal [rcIf (tallyRc c s (c.arg 0)), restZero c 1, (tallyInUse s (hIdx (c.arg 0)), rcBadState)]

/-- TALLY_DESTROY: the handle is stale at once (R375). -/
def effectTallyDestroy (c : Cmd) (s : State) : CmdOut :=
  let t := hIdx (c.arg 0)
  okWith 0 (pruneTokens (s.setTally t { gen := (s.tally t).gen + 1 }))

/-- TALLY_DESTROY (R157). -/
def execTallyDestroy (rq : Req) (tally : Word) (s : State) : Host.Outcome State Fault Refusal :=
  .next (runRow refuseTallyDestroy effectTallyDestroy 0x2F rq [tally] s)

/-! ### Regions -/

/-- REGION_CREATE: a multiple of 4 KiB within the partition (R30, R34, R35, R44, R377). -/
def refuseRegionCreate (c : Cmd) (s : State) : Option Nat :=
  refusal (ctxChecks c s (c.arg 0) ++
    [restZero c 4,
     badIf (c.val 2 == 0 || c.val 2 % 4096 != 0 || decide (3 < c.val 3) || !inPartition s (myPart c s) (c.val 1) (c.val 2)),
     ((upTo 65536).all (fun r => (s.region r).present), rcNoResources)])

/-- REGION_CREATE grants the region. -/
def effectRegionCreate (c : Cmd) (s : State) : CmdOut :=
  match pickIndex s 65536 (fun r => !(s.region r).present) with
  | none => .done rcNoResources 0 s
  | some (r, s) =>
    let p := myPart c s
    let g := (s.region r).gen
    .done 0 (mkHandle 4 p g r)
      (s.setRegion r { present := true, gen := g, ctx := hIdx (c.arg 0), part := p, base := c.val 1, length := c.val 2,
                       read := bitOf (c.val 3) 0, write := bitOf (c.val 3) 1 })

/-- REGION_CREATE (R377). -/
def execRegionCreate (rq : Req) (ctx addr len perm : Word) (s : State) : Host.Outcome State Fault Refusal :=
  .next (runRow refuseRegionCreate effectRegionCreate 0x30 rq [ctx, addr, len, perm] s)

/-- REGION_DESTROY needs a region of the issuer's contexts. -/
def refuseRegionDestroy (c : Cmd) (s : State) : Option Nat := refusal [rcIf (regionRc c s (c.arg 0)), restZero c 1]

/-- REGION_DESTROY: the handle is stale at once (R375). -/
def effectRegionDestroy (c : Cmd) (s : State) : CmdOut :=
  let r := hIdx (c.arg 0)
  okWith 0 (pruneTokens (s.setRegion r { gen := (s.region r).gen + 1 }))

/-- REGION_DESTROY (R377). -/
def execRegionDestroy (rq : Req) (region : Word) (s : State) : Host.Outcome State Fault Refusal :=
  .next (runRow refuseRegionDestroy effectRegionDestroy 0x31 rq [region] s)

/-- REGION_FREEZE (R240). -/
def refuseRegionFreeze (c : Cmd) (s : State) : Option Nat :=
  refusal [rcIf (regionRc c s (c.arg 0)), restZero c 2, badIf (decide (1 < c.val 1))]

/-- REGION_FREEZE freezes or thaws the region (R240). -/
def effectRegionFreeze (c : Cmd) (s : State) : CmdOut :=
  okWith 0 (s.modRegion (hIdx (c.arg 0)) (fun x => { x with frozen := c.val 1 == 1 }))

/-- REGION_FREEZE (R240). -/
def execRegionFreeze (rq : Req) (region freeze : Word) (s : State) : Host.Outcome State Fault Refusal :=
  .next (runRow refuseRegionFreeze effectRegionFreeze 0x32 rq [region, freeze] s)

/-! ### HANDLE_INFO -/

/-- STATE of a context (R395). -/
def ctxModeCode : CtxMode → Nat
  | .free => 0 | .active => 1 | .stopping => 2 | .teardown => 3 | .draining => 4

/-- STATE of a model (R408). -/
def modelModeCode : ModelMode → Nat
  | .defined => 0 | .loading => 1 | .loaded => 2 | .evicting => 3 | .broken => 4

/-- The record of a context (R397). -/
def ctxRecord (s : State) (w : Word) : List Byte :=
  let k := hIdx w
  let x := s.ctx k
  leBytes 8 w.toNat ++ leBytes 1 (ctxModeCode x.mode) ++ leBytes 1 (toBit x.bestEffort) ++ leBytes 1 x.part ++ leBytes 1 x.owner ++
  leBytes 2 x.fill ++ leBytes 2 (keysWhere s.work.slots (fun y => y.loaded && y.ctx == k)).length ++
  leBytes 2 (ctxQueues s k).length ++ leBytes 2 (keysWhere s.objs.tallies (fun t => t.present && t.ctx == k)).length ++
  leBytes 4 (ctxRegions s k).length ++ leBytes 4 (keysWhere s.objs.tensors (fun t => t.present && t.ctx == k)).length ++
  leBytes 1 (toBit x.group.isSome + 2 * toBit (ctxGate s k).isSome + 4 * toBit x.log.isSome + 8 * toBit x.replay.isSome) ++ leBytes 3 0

/-- The record of a model (R408). -/
def modelRecord (s : State) (w : Word) : List Byte :=
  let m := s.model (hIdx w)
  leBytes 8 w.toNat ++ leBytes 1 (modelModeCode m.mode) ++ leBytes 1 m.priority ++ leBytes 2 m.tensors.length ++
  leBytes 2 m.copies.length ++ leBytes 2 0 ++ leBytes 8 (sumNat (m.copies.map (·.bytes))) ++ leBytes 8 m.lastLaunch

/-- What is wrong with the handle of HANDLE_INFO: only contexts and models have a record; a context that is being torn down
answers (R375, R397). -/
def infoRc (s : State) (w : Word) : Nat :=
  if hKind w = 1 then objRc w 1 512 ((s.ctx (hIdx w)).mode != .free) (s.ctx (hIdx w)).gen (s.ctx (hIdx w)).part
  else if hKind w = 5 then objRc w 5 1024 (s.model (hIdx w)).present (s.model (hIdx w)).gen (s.model (hIdx w)).part
  else rcBadHandle

/-- HANDLE_INFO (R375). -/
def refuseHandleInfo (c : Cmd) (s : State) : Option Nat :=
  refusal [rcIf (infoRc s (c.arg 0)), restZero c 2, addrRc c s (c.arg 1) 32 true]

/-- HANDLE_INFO writes the record (R397, R408). -/
def effectHandleInfo (c : Cmd) (s : State) : CmdOut :=
  okWith 32 (writeArg s c.fn (c.arg 1) 0 (if hKind (c.arg 0) = 1 then ctxRecord s (c.arg 0) else modelRecord s (c.arg 0)))

/-- HANDLE_INFO (R397). -/
def execHandleInfo (rq : Req) (handle addr : Word) (s : State) : Host.Outcome State Fault Refusal :=
  .next (runRow refuseHandleInfo effectHandleInfo 0x35 rq [handle, addr] s)

end Sys2Proof.Machine
end

