-- ==== Sys2Proof/Machine/CmdProg.lean ====
section
/-! DEFINITION. Memory settings, programs and launches (R49, R51, R58, R147, R189, R193, R240, R244, R260, R379, R402):
MEM_FLUSH, SCRUB_PERIOD, STACK_RATE, PROG_LOAD, PROG_UNLOAD, LAUNCH. -/

namespace Sys2Proof.Machine

/-! ### Memory settings -/

/-- MEM_FLUSH is a command of the issuer's partition. -/
def refuseMemFlush (c : Cmd) (s : State) : Option Nat := refusal [rcIf (partRc c s), restZero c 0]

/-- MEM_FLUSH writes back and invalidates the cache part (R49). -/
def effectMemFlush (c : Cmd) (s : State) : CmdOut := let (t, n) := flushPart s (myPart c s); okWith n t

/-- MEM_FLUSH (R49). -/
def execMemFlush (rq : Req) (s : State) : Host.Outcome State Fault Refusal :=
  .next (runRow refuseMemFlush effectMemFlush 0x38 rq [] s)

/-- A Winter section's loaded table lacks the scrub windows of new periods (R58). -/
def scrubLacking (s : State) (n loam hbm : Nat) : Bool :=
  match secPart s n with
  | some p => (s.part p).winter &&
      (match (s.part p).table with | some t => !scrubCovered t n loam hbm | none => false)
  | none => false

/-- A section of a mask belongs to a sealed partition, whose objects the physical function may not change (R369). -/
def sealedSecs (s : State) (mask : Nat) : Bool := (maskSecs mask).any (fun n => partSealed s (secPart s n))

/-- SCRUB_PERIOD (R58). -/
def refuseScrubPeriod (c : Cmd) (s : State) : Option Nat :=
  refusal [rcIf (pfRc c), restZero c 3,
    badIf (decide (255 < c.val 0) || !within 600 86400 (c.val 1) || !within 7200 604800 (c.val 2)),
    (sealedSecs s (c.val 0), rcNotPermitted),
    ((maskSecs (c.val 0)).any (fun n => scrubLacking s n (c.val 1) (c.val 2)), rcBadState)]

/-- SCRUB_PERIOD sets the periods of the sections it names (R58). -/
def effectScrubPeriod (c : Cmd) (s : State) : CmdOut :=
  okWith 0 (forEach (maskSecs (c.val 0)) s (fun n t =>
    let t := t.setFld fLoamScrubPeriod n 0 (c.val 1)
    { t with mem := { t.mem with hbmScrubS := tabSet 86400 t.mem.hbmScrubS n (c.val 2) } }))

/-- SCRUB_PERIOD (R58). -/
def execScrubPeriod (rq : Req) (mask loam hbm : Word) (s : State) : Host.Outcome State Fault Refusal :=
  .next (runRow refuseScrubPeriod effectScrubPeriod 0x39 rq [mask, loam, hbm] s)

/-- STACK_RATE: only stacks qualified for 10.0 Gb/s (R51). -/
def refuseStackRate (c : Cmd) (_ : State) : Option Nat :=
  refusal [rcIf (pfRc c), restZero c 1,
    badIf (decide (2 ^ 24 ≤ c.val 0) || (c.arg 0 &&& ~~~(Config.stack10G.setWidth 64)) != 0)]

/-- STACK_RATE is kept for the next full start (R51, R377). -/
def effectStackRate (c : Cmd) (s : State) : CmdOut :=
  okWith 0 { s with flash := { s.flash with rateAllowed := (c.arg 0).setWidth 24 } }

/-- STACK_RATE (R51). -/
def execStackRate (rq : Req) (allow : Word) (s : State) : Host.Outcome State Fault Refusal :=
  .next (runRow refuseStackRate effectStackRate 0x3A rq [allow] s)

/-! ### Programs -/

/-- A core lies in a partition. -/
def coreIn (s : State) (p k : Nat) : Bool := decide (k < 96) && bitOf (s.part p).mask (coreSec k)

/-- Bytes of HBM in a context's regions (R189). -/
def hbmGranted (s : State) (k : Nat) : Nat := sumNat (((ctxRegions s k).filter (fun r => inHbm r.base r.length)).map (·.length))

/-- The formats and sizes of the tensors that a program's descriptors name, as the kept state depends on them (R177). -/
def tensorFacts (s : State) (k : Nat) (b : List Byte) : List (List Nat) :=
  (((chunksOf 128 b).flatMap namedIds).eraseDups).map (fun id =>
    let d := (tileTensor s k id).desc
    [id, d.format, d.blockSize, d.dim0, d.dim1, d.dim2, d.dim3])

/-- A program's kept state does not fit its context's HBM regions (R189). -/
def keptTooLarge (s : State) (k : Nat) (b : List Byte) : Bool :=
  decide (hbmGranted s k < Config.keptStateBound b (tensorFacts s k b))

/-- A program of a core needs a grant that its partition's table does not give (R260). -/
def grantLacking (s : State) (p core : Nat) (x : Slot) : Bool :=
  match (s.part p).table with | some t => programLacks s core x t | none => false

/-- The program lies in scratchpad regions of its context, granted for reading, from a 128-byte boundary (R147). -/
def programPlaced (s : State) (k a n : Nat) : Bool :=
  a % 128 == 0 && (n == 0 || (inScratchpad s a n && accessOk s k a n false))

/-- A Winter program is refused for its route descriptors (R240): DESIGN CHOICE (log entry 145), those that its context's route queues
hold. -/
def routesBarred (s : State) (k : Nat) : Bool :=
  (s.part (s.ctx k).part).winter &&
  (queuesWhere s (fun q => q.kind == 2 && q.ctx == some k)).any (fun q =>
    (s.queue q).entries.any (fun e => !winterRoute s k e.bytes))

/-- PROG_LOAD (R147, R189, R240, R260). -/
def refuseProgLoad (c : Cmd) (s : State) : Option Nat :=
  let k := hIdx (c.arg 0)
  let p := myPart c s
  let x := s.slot (c.val 1) (c.val 2)
  let b := readBytes s (c.val 3) (128 * c.val 4)
  refusal (ctxChecks c s (c.arg 0) ++
    [restZero c 5,
     badIf (!coreIn s p (c.val 1) || decide (7 < c.val 2) || decide (2 ^ 32 ≤ c.val 4) ||
       !programPlaced s k (c.val 3) (128 * c.val 4)),
     (x.loaded && (x.ctx != k || x.launched || !(slotRuns s (c.val 1) (c.val 2)).isEmpty), rcBadState),
     (routesBarred s k, rcBadState), (keptTooLarge s k b, rcNoMemory),
     (grantLacking s p (c.val 1) { x with base := c.val 3, count := c.val 4, ctx := k }, rcSlotTable)])

/-- PROG_LOAD places the program in its slot with its context's generation tag (R147). -/
def effectProgLoad (c : Cmd) (s : State) : CmdOut :=
  let k := hIdx (c.arg 0)
  okWith 0 (s.setSlot (c.val 1) (c.val 2)
    { loaded := true, base := c.val 3, count := c.val 4, ctx := k, tag := ctxTag s k })

/-- PROG_LOAD (R147). -/
def execProgLoad (rq : Req) (ctx core slot addr count : Word) (s : State) : Host.Outcome State Fault Refusal :=
  .next (runRow refuseProgLoad effectProgLoad 0x40 rq [ctx, core, slot, addr, count] s)

/-- PROG_UNLOAD: a loaded slot of the issuer's contexts that does not run (R377). -/
def refuseProgUnload (c : Cmd) (s : State) : Option Nat :=
  let x := s.slot (c.val 0) (c.val 1)
  refusal [rcIf (partRc c s), restZero c 2, badIf (!coreIn s (myPart c s) (c.val 0) || decide (7 < c.val 1)),
    (!x.loaded, rcBadState), (!owns s c.fn x.ctx, rcNotPermitted),
    (x.launched || !(slotRuns s (c.val 0) (c.val 1)).isEmpty, rcBadState)]

/-- PROG_UNLOAD empties the slot. -/
def effectProgUnload (c : Cmd) (s : State) : CmdOut :=
  let s := s.setSlot (c.val 0) (c.val 1) {}
  okWith 0 (if (s.core (c.val 0)).running = some (c.val 1) then enterSlot s (c.val 0) none else s)

/-- PROG_UNLOAD (R377). -/
def execProgUnload (rq : Req) (core slot : Word) (s : State) : Host.Outcome State Fault Refusal :=
  .next (runRow refuseProgUnload effectProgUnload 0x41 rq [core, slot] s)

/-! ### LAUNCH (R379) -/

/-- The core and slot pairs of a launch list. -/
def launchPairs (s : State) (a : Word) (n : Nat) : List (Nat × Nat) := (listArg s a 2 n).map (fun v => (v % 256, v / 256))

/-- The context handle of a LAUNCH: a stopping context returns BAD_STATE (R418). -/
def launchCtxRc (c : Cmd) (s : State) (w : Word) : Nat :=
  let x := s.ctx (hIdx w)
  if objRc w 1 512 (x.mode != .free) x.gen x.part = 0 && x.mode == .stopping && x.owner == c.fn then rcBadState else ctxRc c s w

/-- A launch of best-effort slots on cores that all have fill windows runs as a fill program (R193, R402). -/
def fillLaunch (s : State) (k p : Nat) (l : List (Nat × Nat)) : Bool :=
  (s.part p).winter && (s.ctx k).bestEffort && l.all (fun e => hasFill s e.1)

/-- An earlier launch of a Winter partition, fill programs apart, has not published (R402). -/
def launchOpen (s : State) (p : Nat) : Bool :=
  s.host.launches.any (fun l => (s.ctx l.ctx).part == p && !l.slots.all (fun e => (s.slot e.1 e.2).fillProgram))

/-- The checks of LAUNCH before its list is read. -/
def launchChecks (c : Cmd) (s : State) : List (Bool × Nat) :=
  [rcIf (launchCtxRc c s (c.arg 0)), (ctxHeld c s (hIdx (c.arg 0)), rcBusy), restZero c 3, badIf (decide (768 < c.val 2)),
    addrRc c s (c.arg 1) (2 * c.val 2) false]

/-- LAUNCH reads its list. -/
def launchReads (c : Cmd) (s : State) : List (Word × Nat) := readsAfter (launchChecks c s) [(c.arg 1, 2 * c.val 2)]

/-- LAUNCH (R189, R240, R260, R371, R379, R402, R418). -/
def refuseLaunch (c : Cmd) (s : State) : Option Nat :=
  let k := hIdx (c.arg 0)
  let p := myPart c s
  let l := launchPairs s (c.arg 1) (c.val 2)
  let own := s.host.launches.any (fun y => y.ctx == k)
  let winter := (s.part p).winter
  refusal (launchChecks c s ++
    [(argPoisoned s (c.arg 1) (2 * c.val 2), rcFaulted),
     badIf (l.any (fun e => !coreIn s p e.1 || decide (7 < e.2)) || decide (l.eraseDups.length ≠ l.length)),
     (!winter && own, rcBusy), (winter && !fillLaunch s k p l && launchOpen s p, rcBadState), (own, rcBadState),
     (winter && (s.part p).table.isNone, rcSlotTable),
     (l.any (fun e => !(s.slot e.1 e.2).loaded || (s.slot e.1 e.2).ctx != k), rcBadState), (routesBarred s k, rcBadState),
     (l.any (fun e => grantLacking s p e.1 (s.slot e.1 e.2)), rcSlotTable),
     (l.any (fun e => keptTooLarge s k (programBytes s (s.slot e.1 e.2))), rcNoMemory)])

/-- The listed slots become runnable, at one launch; in Winter in the order of the list (R399, R402). -/
def startSlots (s : State) (l : List (Nat × Nat)) (winter fill : Bool) : State :=
  let base := s.host.launchOrder
  let s := forEach l.zipIdx s (fun e t => t.modSlot e.1.1 e.1.2 (fun x =>
    { x with launched := decide (0 < x.count), next := 0, signalled := [], fillProgram := fill,
             order := base + (if winter then e.2 else 0) }))
  { s with host := { s.host with launchOrder := base + max 1 l.length } }

/-- The launch number rises and the work clock restarts (R244). -/
def restartWork (s : State) (p : Nat) : State :=
  ((s.bump fRplWorkLaunch p 0 1).setFld fRplWorkWorkCycles p 0 0).modPart p (fun x => { x with work := 0, workPrev := 0 })

/-- The models whose tensors the programs name are noted as launched now (R408). -/
def noteModels (s : State) (p : Nat) (l : List (Nat × Nat)) : State :=
  let named (id : Nat) : Bool := l.any (fun e => (chunksOf 128 (programBytes s (s.slot e.1 e.2))).any (fun b =>
    [tA b, tB b, tOut b, tInit b].contains id))
  forEach (partModels s p) s (fun m t => if (t.model m).tensors.any named then
    t.modModel m (fun x => { x with lastLaunch := s.now }) else t)

/-- LAUNCH starts the programs at one work cycle; LAUNCH_PUBLISH publishes it (R244, R263, R379). DESIGN CHOICE (log entry 140): the
launch's own records carry the stamp at which it came, before the work clock restarts. -/
def effectLaunch (c : Cmd) (s : State) : CmdOut :=
  let k := hIdx (c.arg 0)
  let p := myPart c s
  let l := launchPairs s (c.arg 1) (c.val 2)
  let fill := fillLaunch s k p l
  let s := forEach l s (fun e t => recordInput t k 5 (8 * e.1 + e.2) 0 [] 0xFFFFFFFF)
  let s := startSlots (noteModels s p l) l (s.part p).winter fill
  let s := if fill then s else restartWork s p
  let s := s.modCtx k (fun x => { x with quiesced := false })
  let x : Launch :=
    { ctx := k, fn := c.fn, via := c.via, taken := takenOf s c.fn c.via, slots := l, heldBefore := (s.part p).heldTotal,
      lastDone := 0, poisoned := false, stopped := false }
  .later { s with host := { s.host with launches := s.host.launches ++ [x] } }

/-- LAUNCH (R379). -/
def execLaunch (rq : Req) (ctx list count : Word) (s : State) : Host.Outcome State Fault Refusal :=
  .next (runRowWith refuseLaunch launchReads effectLaunch 0x42 rq [ctx, list, count] s)

end Sys2Proof.Machine
end

