-- ==== Sys2Proof/Machine/CmdTensor.lean ====
section
/-! DEFINITION. Tensors and models (R85, R86, R89, R92, R104, R194, R317, R405 to R411, R500): TENSOR_REG, TENSOR_UNREG,
TENSOR_VERSION, TENSOR_SCALE, TENSOR_UNPOISON, TENSOR_STAMP, MODEL_DEFINE, MODEL_LOAD, MODEL_EVICT, MODEL_UNITS_FREED,
MODEL_DESTROY. -/

namespace Sys2Proof.Machine

/-! ### Tensors -/

/-- The section that holds an address. -/
def addrSec (a : Nat) : Nat := match placeSecs a 1 with | some (n :: _) => n | _ => 8

/-- Counter records in use in a section (R194). -/
def recordsUsed (s : State) (n : Nat) : Nat :=
  (s.objs.tensors.filter (fun e => match e.2.counter with | some r => r.sec == n | none => false)).length

/-- The section that keeps a new tensor's counter record: that of its BASE, else the lowest with a free one (R194). -/
def recordHome (s : State) (p : Nat) (d : TensorDesc) : Option Nat :=
  ((addrSec d.base) :: maskSecs (s.part p).mask).find? (fun n => decide (n < 8) && decide (recordsUsed s n < 4096))

/-- The descriptor that TENSOR_REG names. -/
def regDesc (c : Cmd) (s : State) : TensorDesc := parseTensor (readArg s (c.arg 1) 0 64)

/-- The checks of TENSOR_REG before its descriptor is read. -/
def regChecks (c : Cmd) (s : State) : List (Bool × Nat) :=
  ctxChecks c s (c.arg 0) ++ [restZero c 2, addrRc c s (c.arg 1) 64 false]

/-- TENSOR_REG reads its descriptor. -/
def regReads (c : Cmd) (s : State) : List (Word × Nat) := readsAfter (regChecks c s) [(c.arg 1, 64)]

/-- TENSOR_REG (R86, R194, R500). -/
def refuseTensorReg (c : Cmd) (s : State) : Option Nat :=
  let k := hIdx (c.arg 0)
  let p := myPart c s
  let d := regDesc c s
  refusal (regChecks c s ++
    [(argPoisoned s (c.arg 1) 64, rcFaulted),
     (tensorBad d d (regionsCover s k), rcInvalidDesc), ((s.tensor p d.id).present, rcExists),
     (d.counters && (recordHome s p d).isNone, rcNoResources)])

/-- TENSOR_REG places the tensor in the tensor table, with a stamp of 0 and its counter record (R194, R317). DESIGN CHOICE
(log entry 130): POISONED stays as the given descriptor has it. -/
def effectTensorReg (c : Cmd) (s : State) : CmdOut :=
  let p := myPart c s
  let d := regDesc c s
  let r : Option Counter := if d.counters then (recordHome s p d).map (fun n => { sec := n }) else none
  okWith d.id (s.setTensor p d.id { present := true, desc := d, ctx := hIdx (c.arg 0), counter := r })

/-- TENSOR_REG (R86). -/
def execTensorReg (rq : Req) (ctx addr : Word) (s : State) : Host.Outcome State Fault Refusal :=
  .next (runRowWith refuseTensorReg regReads effectTensorReg 0x48 rq [ctx, addr] s)

/-- A tensor belongs to a loaded model (R410). -/
def inLoadedModel (s : State) (p id : Nat) : Bool :=
  s.objs.models.any (fun e => e.2.present && e.2.part == p && (e.2.mode == .loaded || e.2.mode == .loading) && e.2.tensors.contains id)

/-- The checks of a tensor that a command names. -/
def tensorChecks (c : Cmd) (s : State) (n : Nat) : List (Bool × Nat) :=
  [rcIf (partRc c s), rcIf (tensorRc c s (c.val 0)), restZero c n]

/-- Change the tensor that a command names. -/
def onTensor (c : Cmd) (s : State) (upd : Tensor → Tensor) : State := s.modTensor (myPart c s) (c.val 0) upd

/-- TENSOR_UNREG (R410, R500). -/
def refuseTensorUnreg (c : Cmd) (s : State) : Option Nat :=
  refusal (tensorChecks c s 1 ++ [(inLoadedModel s (myPart c s) (c.val 0), rcBadState)])

/-- TENSOR_UNREG removes the tensor and its counter record (R194). -/
def effectTensorUnreg (c : Cmd) (s : State) : CmdOut :=
  okWith 0 (pruneTokens (breakModels (onTensor c s (fun _ => {})) (myPart c s)))

/-- TENSOR_UNREG (R500). -/
def execTensorUnreg (rq : Req) (tensor : Word) (s : State) : Host.Outcome State Fault Refusal :=
  .next (runRow refuseTensorUnreg effectTensorUnreg 0x49 rq [tensor] s)

/-- TENSOR_VERSION (R410, R500). -/
def refuseTensorVersion (c : Cmd) (s : State) : Option Nat :=
  refusal (tensorChecks c s 2 ++ [badIf (decide (2 ^ 32 ≤ c.val 1)), (inLoadedModel s (myPart c s) (c.val 0), rcBadState)])

/-- TENSOR_VERSION sets VERSION (R89). -/
def effectTensorVersion (c : Cmd) (s : State) : CmdOut :=
  okWith 0 (onTensor c s (fun t => { t with desc := { t.desc with version := (c.arg 1).setWidth 32 } }))

/-- TENSOR_VERSION (R89). -/
def execTensorVersion (rq : Req) (tensor version : Word) (s : State) : Host.Outcome State Fault Refusal :=
  .next (runRow refuseTensorVersion effectTensorVersion 0x4A rq [tensor, version] s)

/-- TENSOR_SCALE: a Kaolin tensor, a positive, normal, finite value (R81, R410, R500). -/
def refuseTensorScale (c : Cmd) (s : State) : Option Nat :=
  refusal (tensorChecks c s 2 ++
    [(!isKaolin (s.tensor (myPart c s) (c.val 0)).desc.format, rcBadState),
     badIf (decide (2 ^ 32 ≤ c.val 1) || !goodScale ((c.arg 1).setWidth 32)),
     (inLoadedModel s (myPart c s) (c.val 0), rcBadState)])

/-- TENSOR_SCALE sets the tensor scale (R92). -/
def effectTensorScale (c : Cmd) (s : State) : CmdOut :=
  okWith 0 (onTensor c s (fun t => { t with desc := { t.desc with scale := (c.arg 1).setWidth 32 } }))

/-- TENSOR_SCALE (R92). -/
def execTensorScale (rq : Req) (tensor scale : Word) (s : State) : Host.Outcome State Fault Refusal :=
  .next (runRow refuseTensorScale effectTensorScale 0x4B rq [tensor, scale] s)

/-- TENSOR_UNPOISON (R500). -/
def refuseTensorUnpoison (c : Cmd) (s : State) : Option Nat := refusal (tensorChecks c s 1)

/-- TENSOR_UNPOISON clears POISONED (R104). -/
def effectTensorUnpoison (c : Cmd) (s : State) : CmdOut :=
  okWith 0 (onTensor c s (fun t => { t with desc := { t.desc with poisoned := false } }))

/-- TENSOR_UNPOISON (R104). -/
def execTensorUnpoison (rq : Req) (tensor : Word) (s : State) : Host.Outcome State Fault Refusal :=
  .next (runRow refuseTensorUnpoison effectTensorUnpoison 0x4C rq [tensor] s)

/-- TENSOR_STAMP (R500). -/
def refuseTensorStamp (c : Cmd) (s : State) : Option Nat :=
  refusal (tensorChecks c s 2 ++ [badIf (decide (2 ^ 32 ≤ c.val 1))])

/-- TENSOR_STAMP sets the stamp (R317). -/
def effectTensorStamp (c : Cmd) (s : State) : CmdOut :=
  okWith 0 (onTensor c s (fun t => { t with stamp := (c.arg 1).setWidth 32 }))

/-- TENSOR_STAMP (R317). -/
def execTensorStamp (rq : Req) (tensor stamp : Word) (s : State) : Host.Outcome State Fault Refusal :=
  .next (runRow refuseTensorStamp effectTensorStamp 0x4D rq [tensor, stamp] s)

/-! ### Models -/

/-- The checks of MODEL_DEFINE before its list is read. -/
def defineChecks (c : Cmd) (s : State) : List (Bool × Nat) :=
  [rcIf (partRc c s), restZero c 3, badIf (!within 1 4096 (c.val 1) || decide (255 < c.val 2)),
    addrRc c s (c.arg 0) (4 * c.val 1) false]

/-- MODEL_DEFINE reads its list. -/
def defineReads (c : Cmd) (s : State) : List (Word × Nat) := readsAfter (defineChecks c s) [(c.arg 0, 4 * c.val 1)]

/-- MODEL_DEFINE: 1 to 4,096 tensors of the partition, priority 0 to 255 (chapter 14, "The hot model cache"; R405). -/
def refuseModelDefine (c : Cmd) (s : State) : Option Nat :=
  let p := myPart c s
  refusal (defineChecks c s ++ [(argPoisoned s (c.arg 0) (4 * c.val 1), rcFaulted),
    ((listArg s (c.arg 0) 4 (c.val 1)).any (fun id => !(s.tensor p id).present), rcBadHandle),
    ((upTo 1024).all (fun m => (s.model m).present), rcNoResources)])

/-- MODEL_DEFINE makes a model in state defined (R408). -/
def effectModelDefine (c : Cmd) (s : State) : CmdOut :=
  let p := myPart c s
  let ids := listArg s (c.arg 0) 4 (c.val 1)
  match pickIndex s 1024 (fun m => !(s.model m).present) with
  | none => .done rcNoResources 0 s
  | some (m, s) =>
    let g := (s.model m).gen
    .done 0 (mkHandle 5 p g m) (s.setModel m { present := true, gen := g, part := p, tensors := ids, priority := c.val 2 })

/-- MODEL_DEFINE (R405). -/
def execModelDefine (rq : Req) (list count priority : Word) (s : State) : Host.Outcome State Fault Refusal :=
  .next (runRowWith refuseModelDefine defineReads effectModelDefine 0x50 rq [list, count, priority] s)

/-- The checks of a model that a command names. -/
def modelChecks (c : Cmd) (s : State) : List (Bool × Nat) :=
  [rcIf (partRc c s), rcIf (modelRc c s (c.arg 0)), restZero c 1, (modelBusy s (hIdx (c.arg 0)), rcBusy)]

/-- A copy's arrays lie one after another in one run, each from a 16-byte boundary: their offsets, and the run's bytes. -/
def copyLayout (d : TensorDesc) : List Nat × Nat :=
  d.arrays.foldl (fun a r => (a.1 ++ [a.2], a.2 + roundUp r.2 16)) ([], 0)

/-- A unit of a section belongs to the model area, as model `k` sees it: no region covers it and no other model holds it
(R406). -/
def unitFree (s : State) (p k n u : Nat) : Bool :=
  decide (u < 48 - (s.part p).units) &&
  (s.objs.regions.map (·.2)).all (fun r => !(r.present && overlaps (loamAddr n (u * cacheUnit)) cacheUnit r.base r.length)) &&
  s.objs.models.all (fun e => e.1 == k || !e.2.present ||
    e.2.copies.all (fun c => !(c.sec == n && overlaps (u * cacheUnit) cacheUnit c.offset c.bytes)))

/-- A run of a section is free for model `k`. -/
def runFree (s : State) (p k n off len : Nat) : Bool :=
  (spanOf (off / cacheUnit) ((off + len - 1) / cacheUnit + 1 - off / cacheUnit)).all (unitFree s p k n) &&
  (s.model k).copies.all (fun c => !(c.sec == n && overlaps off len c.offset c.bytes))

/-- The first 4 KiB-aligned free run of a section, in ascending offset (R406): it starts at a unit or behind a copy. -/
def firstRun (s : State) (p k n len : Nat) : Option Nat :=
  let starts := (upTo 48).map (· * cacheUnit) ++
    ((s.model k).copies.filter (fun c => c.sec == n)).map (fun c => roundUp (c.offset + c.bytes) 4096)
  (starts.filter (fun o => runFree s p k n o len)).foldl (fun a o => match a with | none => some o | some m => some (min m o)) none

/-- The place of a tensor's copy: the section of its BASE, else the lowest with room (R405). -/
def copyPlace (s : State) (p k : Nat) (d : TensorDesc) : Option (Nat × Nat) :=
  let len := (copyLayout d).2
  ((addrSec d.base) :: maskSecs (s.part p).mask).findSome? (fun n =>
    if n < 8 then (firstRun s p k n len).map (fun o => (n, o)) else none)

/-- The model to evict to make room: loaded, of lower priority, not in use, the least recently launched (R407). -/
def victim (s : State) (p k : Nat) : Option Nat :=
  ((partModels s p).filter (fun m => (s.model m).mode == .loaded && decide ((s.model m).priority < (s.model k).priority) &&
    !modelInUse s (s.model m))).foldl (fun a m => match a with
      | none => some m
      | some v => if (s.model m).lastLaunch < (s.model v).lastLaunch then some m else some v) none

/-- Find room for a tensor, evicting as R407 allows. -/
def makeRoom (p k : Nat) (d : TensorDesc) : Nat → State → State × Option (Nat × Nat)
  | 0, s => (s, none)
  | fuel + 1, s =>
    match copyPlace s p k d with
    | some e => (s, some e)
    | none => match victim s p k with
      | some v => makeRoom p k d fuel (freeUnits (beginEvict s v) v)
      | none => (s, none)

/-- Where in the copy at a place the byte of an address of a tensor's arrays goes. -/
def copyAddr (d : TensorDesc) (place : Nat × Nat) (a : Nat) : Option Nat :=
  ((d.arrays.zip (copyLayout d).1).find? (fun e => decide (e.1.1 ≤ a) && decide (a < e.1.1 + e.1.2))).map
    (fun e => loamAddr place.1 (place.2 + e.2) + (a - e.1.1))

/-- The movers read a tensor's blocks in order, until one cannot be delivered: the fault's cause and poison, with its address
(R56, R62, R63). -/
def readTensor : List SnapBlock → State → State × Option (Nat × Bool × Nat)
  | [], s => (s, none)
  | b :: t, s =>
    match readBlock s b with
    | (s, .good) => readTensor t s
    | (s, .word poison) => (s, some (6, poison, b.addr))
    | (s, .crc) => (s, some (7, false, b.addr))

/-- The words of a tensor's copy that a read found uncorrectable are left poisoned (R56). -/
def poisonCopy (before after : State) (d : TensorDesc) (place : Nat × Nat) : State :=
  forEach (d.arrays.flatMap (fun r => (readMem before r.1 r.2).2)) after (fun e t =>
    if e.2 then t else match copyAddr d place e.1 with | some a => poisonWord t a | none => t)

/-- A tensor's copy is made at a place, or a bad word or block faults the tensor's context and stops the load
(R56, R62, R63, R406). -/
def copyTensor (s : State) (p k id : Nat) (place : Nat × Nat) : State × Bool :=
  let t := s.tensor p id
  let (offs, len) := copyLayout t.desc
  match readTensor (snapBlocks [(t, 0)]) s with
  | (u, some (cause, poison, a)) => (ctxFault (poisonCopy s u t.desc place) t.ctx cause (stackOf a / 3) 0 poison, false)
  | (s, none) =>
    let at_ (i : Nat) : Nat := loamAddr place.1 (place.2 + offs.getD i 0)
    let s := (t.desc.arrays.zip offs).foldl (fun u e =>
      countBlocks (writeBytes u (loamAddr place.1 (place.2 + e.2)) (readBytes u e.1.1 e.1.2)) e.1.1 (ceilDiv e.1.2 4096)) s
    let d := t.desc
    let moved := { d with
      base := at_ 0, scaleAddr := if hasScales d.format then at_ 1 else d.scaleAddr,
      auxAddr := if isExt d.format then at_ (if hasScales d.format then 2 else 1) else d.auxAddr }
    let s := s.setTensor p id { t with desc := moved, home := some (d.base, d.scaleAddr, d.auxAddr) }
    (s.modModel k (fun m => { m with copies := m.copies ++ [⟨id, place.1, place.2, len⟩] }), true)

/-- Load the listed tensors in order; one without room, without its arrays in HBM or with another model's copy stays as it is
(R406). -/
def loadTensors (p k : Nat) : List Nat → State → State × Bool
  | [], s => (s, true)
  | id :: t, s =>
    let x := s.tensor p id
    if x.home.isSome || !x.desc.arrays.all arrayInHbm then loadTensors p k t s
    else match makeRoom p k x.desc 1025 s with
      | (s, none) => loadTensors p k t s
      | (s, some place) => match copyTensor s p k id place with
        | (s, true) => loadTensors p k t s
        | (s, false) => (s, false)

/-- MODEL_LOAD takes a defined model (R408, R411). -/
def refuseModelLoad (c : Cmd) (s : State) : Option Nat :=
  refusal (modelChecks c s ++ [((s.model (hIdx (c.arg 0))).mode != .defined, rcBadState)])

/-- MODEL_LOAD copies the tensors and points their descriptors at the copies; a copy that cannot be made undoes the load
(R406, R407). -/
def effectModelLoad (c : Cmd) (s : State) : CmdOut :=
  let k := hIdx (c.arg 0)
  let p := myPart c s
  match loadTensors p k (s.model k).tensors s with
  | (s, true) =>
    okWith (sumNat ((s.model k).copies.map (·.bytes))) (s.modModel k (fun m => { m with mode := .loaded }))
  | (s, false) =>
    .done rcFaulted 0 ((restoreHome s { s.model k with tensors := (s.model k).copies.map (·.tensor) }).modModel k
      (fun m => { m with copies := [] }))

/-- MODEL_LOAD (R406). -/
def execModelLoad (rq : Req) (model : Word) (hits : List Hit) (s : State) : Host.Outcome State Fault Refusal :=
  .next (runRow refuseModelLoad effectModelLoad 0x51 rq [model] (upsetWords s hits))

/-- MODEL_EVICT takes a loaded model. -/
def refuseModelEvict (c : Cmd) (s : State) : Option Nat :=
  refusal (modelChecks c s ++ [((s.model (hIdx (c.arg 0))).mode != .loaded, rcBadState)])

/-- MODEL_EVICT sets the tensors' addresses back; it publishes once the units are free (R409). -/
def effectModelEvict (c : Cmd) (s : State) : CmdOut :=
  let k := hIdx (c.arg 0)
  let s := beginEvict s k
  if modelInUse s (s.model k) then .wait (.modelEvict k) s else okWith 0 (freeUnits s k)

/-- MODEL_EVICT (R409). -/
def execModelEvict (rq : Req) (model : Word) (s : State) : Host.Outcome State Fault Refusal :=
  .next (runRow refuseModelEvict effectModelEvict 0x52 rq [model] s)

/-- MODEL_UNITS_FREED: an evicted model that is no longer in use gives its units back, and its eviction publishes (R409). -/
def execModelUnitsFreed (model : Fin 1024) (s : State) : Host.Outcome State Fault Refusal :=
  .next (if (s.model model.val).mode == .evicting && !modelInUse s (s.model model.val) then
    settle (freeUnits s model.val) else s)

/-- MODEL_DESTROY: a model that is neither loaded nor on its way (R377). -/
def refuseModelDestroy (c : Cmd) (s : State) : Option Nat :=
  let m := (s.model (hIdx (c.arg 0))).mode
  refusal (modelChecks c s ++ [(m != .defined && m != .broken, rcBadState)])

/-- MODEL_DESTROY: the handle is stale at once (R375). -/
def effectModelDestroy (c : Cmd) (s : State) : CmdOut :=
  let k := hIdx (c.arg 0)
  okWith 0 (pruneTokens (s.setModel k { gen := (s.model k).gen + 1 }))

/-- MODEL_DESTROY (R377). -/
def execModelDestroy (rq : Req) (model : Word) (s : State) : Host.Outcome State Fault Refusal :=
  .next (runRow refuseModelDestroy effectModelDestroy 0x53 rq [model] s)

end Sys2Proof.Machine
end

