-- ==== Sys2Proof/Machine/LinkRx.lean ====
section
/-! DEFINITION. Messages received on a Darub link: the checks of R280, their effect in order (R281), held messages (R292),
REFUSE, EPOCH_NOTICE and ABORT (R282, R292, R294), and the flood limit (R295). -/

namespace Sys2Proof.Machine

/-! ### Header fields (R277) -/

def hType (h : List Byte) : Nat := fieldAt h 0 1
def hTag (h : List Byte) : Nat := fieldAt h 2 2
def hEpoch (h : List Byte) : Nat := fieldAt h 4 4
def hLength (h : List Byte) : Nat := fieldAt h 8 4
def hHandle (h : List Byte) : Nat := fieldAt h 12 8
def hTensor (h : List Byte) : Nat := fieldAt h 12 4
def hBlock (h : List Byte) : Nat := fieldAt h 16 4
def hOffset (h : List Byte) : Nat := fieldAt h 20 8
def hVersion (h : List Byte) : Nat := fieldAt h 20 4
def hCrc (h : List Byte) : Nat := fieldAt h 24 4
def hGroup (h : List Byte) : Nat := fieldAt h 12 4
def hTally (h : List Byte) : Nat := fieldAt h 28 2
def hAdd (h : List Byte) : Nat := fieldAt h 30 2

/-- A message header whose MSG_TYPE, reserved fields or LENGTH are out of range (R277, R278). -/
def headerBad (h : List Byte) : Bool :=
  let t := hType h
  h.length != 32 ||
  (if t = 1 then fieldAt h 1 1 != 0 || decide (65536 < hLength h)
   else if t = 2 then fieldAt h 1 1 != 0 || hLength h != 4096
   else if within 0x10 0x12 t then
     fieldAt h 2 2 != 0 || hLength h != 0 || fieldAt h 16 4 != 0 || fieldAt h 28 4 != 0 || (t != 0x10 && hOffset h != 0)
   else true)

/-- Send REFUSE for a message (R278, R280): its cause, epoch, and bytes 19:12 of the refused message. -/
def sendRefuse (s : State) (l cause : Nat) (h : List Byte) : State :=
  sendMsg s l (ctrlHeader 0x10 cause (hEpoch h) 0 ((h.drop 12).take 8)) []

/-- Free the slots of a message, and report the running total in an idle flit (R279). -/
def freeSlots (s : State) (l : Nat) (h d : List Byte) : State :=
  let s := s.modLink l (fun x => if chanOf h = 0 then { x with freed0 := (x.freed0 + msgSlots d.length) % 65536 }
    else { x with freed1 := (x.freed1 + msgSlots d.length) % 65536 })
  if linkState s l = 4 then sendIdle s l false else s

/-- A Winter partition takes what comes over a link in the windows of its receiver or during a hold (R251). -/
def recvOpen (s : State) (l : Nat) : Bool := match linkPart s l with | some p => outsideOpen s p 7 l | none => true

/-! ### Destinations -/

/-- Where a WRITE or BLOCK goes once checks 4 and 5 have passed: its context, address, and the tensor block. -/
structure MsgDest where
  ctx : Nat
  addr : Nat
  bytes : Nat
  inRange : Bool
  block : Option Tensor
  deriving DecidableEq, Repr

/-- The outcome of checks 4 and 5 (R280). -/
inductive DestRes where
  | bad | stale | ok (d : MsgDest)
  deriving DecidableEq, Repr

/-- The generation of a message's destination context has passed: its tag differs, or it is in TEARDOWN or later (R424). -/
def tagStale (s : State) (c tag : Nat) : Bool :=
  tag != ctxTag s c || (match (s.ctx c).mode with | .active => false | .stopping => false | _ => true)

/-- Checks 4 and 5 on a WRITE. -/
def writeDest (s : State) (p : Nat) (h : List Byte) : DestRes :=
  let w := hHandle h
  let i := bitsOf w 23 0
  let r := s.region i
  if bitsOf w 63 56 ≠ 4 || bitsOf w 55 48 ≠ p || 65535 < i || (!r.present && r.gen == 0) then .bad
  else if !r.present || bitsOf w 47 24 ≠ r.gen || tagStale s r.ctx (hTag h) then .stale
  else .ok { ctx := r.ctx, addr := r.base + hOffset h, bytes := hLength h,
             inRange := decide (hOffset h + hLength h ≤ r.length) && r.write && !r.frozen, block := none }

/-- Checks 4 and 5 on a BLOCK. -/
def blockDest (s : State) (p : Nat) (h : List Byte) : DestRes :=
  let t := s.tensor p (hTensor h)
  if !t.present || !t.desc.checksum then .bad
  else if tagStale s t.ctx (hTag h) then .stale
  else match blockPlace t.homeDesc.arrays (hBlock h) with
    | some (a, n) =>
      .ok { ctx := t.ctx, addr := a, bytes := n, inRange := covered (ctxRegions s t.ctx) (fun r => r.write)
              ((ctxRegions s t.ctx).length + 1) a n, block := some t }
    | none => .ok { ctx := t.ctx, addr := 0, bytes := 0, inRange := false, block := some t }

/-- Checks 4 and 5. -/
def msgDest (s : State) (p : Nat) (h : List Byte) : DestRes := if hType h = 1 then writeDest s p h else blockDest s p h

/-- The destination lies in the partition's Loam, or in the HBM of the link's own section (R280 check 9). -/
def destPlaced (s : State) (l p : Nat) (d : MsgDest) : Bool :=
  d.bytes == 0 || (inPartition s p d.addr d.bytes && (!inHbm d.addr d.bytes ||
    (d.addr / sectionHbm == l / 8 && (d.addr + d.bytes - 1) / sectionHbm == l / 8)))

/-- Check 9 passes (R280). -/
def rangeOk (s : State) (l p : Nat) (h : List Byte) (d : MsgDest) : Bool :=
  let t := s.tally (hTally h)
  d.inRange && destPlaced s l p d && !meetsFrozen s p d.addr d.bytes && !modelFrozen s p d.addr d.bytes &&
  !((modelCopies s p).any (fun m => overlaps d.addr d.bytes m.1 m.2)) &&
  (hTally h == 0xFFFF || (decide (hTally h ≤ 16383) && t.present && t.ctx == d.ctx))

/-- Check 10 on a BLOCK: VERSION and checksum agree with the tensor and the data (R61, R280). -/
def blockOk (t : Tensor) (h data : List Byte) : Bool :=
  t.desc.version.toNat == hVersion h &&
  (blockCrc (hTensor h) (hBlock h) (BitVec.ofNat 32 (hVersion h)) data).toNat == hCrc h

/-! ### Effect -/

/-- Words of a received message that read back uncorrectable from the receive buffer are written as poisoned, and the
destination context faults (R273). `bad` lists byte offsets within the data. -/
def spoilWords (s : State) (l : Nat) (d : MsgDest) (bad : List Nat) : State :=
  let ws := bad.filter (fun o => decide (o < d.bytes))
  if ws.isEmpty then s
  else ctxFault (forEach ws s (fun o t => poisonWord t (d.addr + o))) d.ctx 6 (l / 8) l false

/-- Apply a message that has passed every check (R281, R62): the data, a BLOCK's checksum, then the tally addition. -/
def applyMsg (s : State) (l : Nat) (h data : List Byte) (bad : List Nat) (d : MsgDest) : State :=
  if isReplaying s d.ctx then dropLive s d.ctx
  else
    let s := recordInput s d.ctx 4 l d.addr (data.take d.bytes) (if hTally h = 0xFFFF then 0xFFFFFFFF else hTally h)
    let s := writeMem s d.addr (data.take d.bytes) false
    let s := match d.block with
      | some t => storeBytes s (t.homeDesc.crcAddr + 4 * hBlock h) (leBytes 4 (hCrc h))
      | none => s
    let s := s.bump fLnkRxBytesBytes (l / 8) (l % 8) (32 + data.length)
    let s := spoilWords s l d bad
    signalTally s (hTally h) (hAdd h)

/-- What became of a WRITE or BLOCK: settled, or held for its epoch with its group (R280 check 8). -/
inductive MsgRes where
  | settled (s : State) | held (s : State) (group : Nat)

/-- Checks 3 to 10 on a WRITE or BLOCK, and its effect (R280, R281). -/
def checkMsg (s : State) (l : Nat) (h data : List Byte) (bad : List Nat) : MsgRes :=
  let b (f : RField) (s : State) : State := s.bump f (l / 8) (l % 8) 1
  match linkPart s l with
  | none => .settled (sendRefuse (b fLnkRefuseBUnowned s) l 2 h)
  | some p =>
    match msgDest s p h with
    | .bad => .settled (sendRefuse (b fLnkRefuseBBadHandle s) l 3 h)
    | .stale => .settled (b fLnkRefuseAStaleGen s)
    | .ok d =>
      let final (s : State) : MsgRes :=
        if !rangeOk s l p h d then .settled (sendRefuse (b fLnkRefuseBBadRange s) l 4 h)
        else match d.block with
          | some t =>
            if blockOk t h data then .settled (applyMsg s l h data bad d)
            else .settled (ctxFault (sendRefuse (b fLnkRefuseBCrcFault s) l 5 h) d.ctx 7 (l / 8) l false)
          | none => .settled (applyMsg s l h data bad d)
      match (s.ctx d.ctx).group with
      | none => if hEpoch h ≠ 0 then .settled (b fLnkRefuseAStaleEpoch s) else final s
      | some g =>
        let x := s.group g
        if !bitOf x.mask.toNat l then .settled (sendNotice (sendRefuse (b fLnkRefuseAExcluded s) l 6 h) l g)
        else if hEpoch h < x.epoch then .settled (sendNotice (b fLnkRefuseAStaleEpoch s) l g)
        else if x.epoch < hEpoch h then .held s g
        else final s

/-- A channel 0 message at the head of its channel: settled and its slots freed, or held (R280, R292). -/
def headMsg (s : State) (l : Nat) (h data : List Byte) (bad : List Nat) : State :=
  match checkMsg s l h data bad with
  | .settled s => freeSlots s l h data
  | .held s g => s.modLink l (fun x => { x with
      held := some ⟨h, data, bad, s.now, hEpoch h, g⟩, inUse0 := x.inUse0 + msgSlots data.length })

/-- Messages that wait in the receive buffer, taken in order until one is held or the window of the receiver closes (R251, R281). -/
def drainBehind (s : State) (l : Nat) : Nat → State
  | 0 => s
  | fuel + 1 =>
    let x := s.link l
    if x.held.isSome || !recvOpen s l then s
    else match x.behind with
      | [] => s
      | m :: t =>
        let s := s.setLink l { x with behind := t, inUse0 := x.inUse0 - msgSlots m.data.length }
        drainBehind (headMsg s l m.header m.data m.bad) l fuel

/-- Take all that a link's receiver may take now. -/
def drainLink (s : State) (l : Nat) : State := drainBehind s l (s.link l).behind.length

/-- What the receive buffers hold for Winter partitions is taken when a window opens or a hold begins (R251). -/
def serveLinks (s : State) : State :=
  forEach (s.links.filter (fun e => !e.2.behind.isEmpty)) s (fun e t => drainLink t e.1)

/-- Take the held message of a link from its place (R292). -/
def unhold (s : State) (l : Nat) (m : HeldMsg) : State :=
  s.modLink l (fun x => { x with held := none, inUse0 := x.inUse0 - msgSlots m.data.length })

/-- Put a message into the receive buffer, before or behind the others. -/
def park (s : State) (l : Nat) (m : RxMsg) (front : Bool) : State :=
  s.modLink l (fun x => { x with
    behind := if front then m :: x.behind else x.behind ++ [m], inUse0 := x.inUse0 + msgSlots m.data.length })

/-- An epoch has been installed: a held message is checked again (R292), and those behind it follow. -/
def recheckHeld (s : State) (l : Nat) : State :=
  match (s.link l).held with
  | some m =>
    drainLink (park (unhold s l m) l ⟨m.header, m.data, m.bad⟩ true) l
  | none => s

/-- A message of channel 0, checks 1 and 2 passed: it waits behind a held one, or for a window of a Winter partition (R251, R281). -/
def takeMsg0 (s : State) (l : Nat) (h data : List Byte) (bad : List Nat) : State :=
  if (s.link l).held.isSome || !(s.link l).behind.isEmpty || !recvOpen s l then park s l ⟨h, data, bad⟩ false
  else headMsg s l h data bad

/-- Check 2: the message needs more slots than are free (R279, R280). -/
def overCredit (s : State) (l : Nat) (data : List Byte) : Bool := decide (4096 < (s.link l).inUse0 + msgSlots data.length)

/-- A WRITE or BLOCK arrives whole (R280); the slots of one discarded for want of credit count as freed (R279). -/
def recvMsg0 (s : State) (l : Nat) (h data : List Byte) (bad : List Nat) : State :=
  if !linkTakes s l then s
  else if headerBad h || hLength h ≠ data.length then hostileEvent s l fLnkHostileMalformed
  else if overCredit s l data then sendRefuse (freeSlots (hostileEvent s l fLnkHostileCreditViolation) l h data) l 1 h
  else takeMsg0 s l h data bad

/-! ### Channel 1 -/

/-- A REFUSE (R282): counted, and posted as an event to the sending context's functions. -/
def takeRefuse (s : State) (l : Nat) (h : List Byte) : State :=
  let s := s.bump fLnkPeerRefusedByPartner (l / 8) (l % 8) 1
  match (s.link l).sentTo.find? (fun e => e.1 == (h.drop 20).take 8) with
  | some e => postPart s (s.ctx e.2).part 0xE3 (l * 2 ^ 42 + fieldAt h 1 1 * 2 ^ 34 + e.2 * 2 ^ 25)
  | none => s

/-- An EPOCH_NOTICE (R292): above this module's epoch it starts a wait of EPOCH_GRACE. -/
def takeNotice (s : State) (l : Nat) (h : List Byte) : State :=
  let s := s.bump fLnkPeerNotices (l / 8) (l % 8) 1
  let x := s.group (hGroup h)
  if x.present && decide (x.epoch < hEpoch h) then
    s.setGroup (hGroup h) { x with passing := some (max (hEpoch h) (x.passing.getD 0)) }
  else s

/-- An ABORT (R294, R428): accepted from a member link at the current epoch or above; the group's contexts are aborted and
the ABORT is sent on once. -/
def takeAbort (s : State) (l : Nat) (h : List Byte) : State :=
  let x := s.group (hGroup h)
  if x.present && bitOf x.mask.toNat l && decide (x.epoch ≤ hEpoch h) then
    sendAbort (abortGroup (s.bump fFltAbortAccepted 0 0 1) (hGroup h) (hEpoch h)) (hGroup h) (hEpoch h)
  else s.bump fLnkRefuseAStaleEpoch (l / 8) (l % 8) 1

/-- A control message of channel 1 arrives: checks 1 and 2, then the flood limit (R280, R295), then `act`. -/
def recvMsg1 (s : State) (l : Nat) (h : List Byte) (type : Nat) (act : State → State) : State :=
  if !linkTakes s l then s
  else if headerBad h || hType h ≠ type then hostileEvent s l fLnkHostileMalformed
  else
    let ts := ((s.link l).ctrl.filter (fun t => decide (s.now < t + 100000))) ++ [s.now]
    let s := freeSlots (s.modLink l (fun x => { x with ctrl := ts })) l h []
    if 128 < ts.length then hostileEvent s l fLnkHostileCtrlFlood else act s

/-- A whole message of any type arrives; `bad` are the offsets of its data's words that the receive buffer has lost. -/
def recvAny (s : State) (l : Nat) (h data : List Byte) (bad : List Nat) : State :=
  match hType h with
  | 0x10 => recvMsg1 s l h 0x10 (fun t => takeRefuse t l h)
  | 0x11 => recvMsg1 s l h 0x11 (fun t => takeNotice t l h)
  | 0x12 => recvMsg1 s l h 0x12 (fun t => takeAbort t l h)
  | _ => recvMsg0 s l h data bad

/-! ### The rows -/

/-- MSG_WRITE (R280): a WRITE whose flits have been accepted, or a message of a type that R277 does not know, which is malformed. -/
def execMsgWrite (l : LinkId) (header data : List Byte) (bad : List Nat) (s : State) : Host.Outcome State Fault Refusal :=
  .next (if [0x02, 0x10, 0x11, 0x12].contains (hType header) then s else recvMsg0 s l.val header data bad)

/-- MSG_BLOCK (R280). -/
def execMsgBlock (l : LinkId) (header data : List Byte) (bad : List Nat) (s : State) : Host.Outcome State Fault Refusal :=
  .next (if hType header = 2 then recvMsg0 s l.val header data bad else s)

/-- MSG_REFUSE (R282). -/
def execMsgRefuse (l : LinkId) (header : List Byte) (s : State) : Host.Outcome State Fault Refusal :=
  .next (recvMsg1 s l.val header 0x10 (fun t => takeRefuse t l.val header))

/-- MSG_EPOCH_NOTICE (R292). -/
def execMsgEpochNotice (l : LinkId) (header : List Byte) (s : State) : Host.Outcome State Fault Refusal :=
  .next (recvMsg1 s l.val header 0x11 (fun t => takeNotice t l.val header))

/-- MSG_ABORT (R294). -/
def execMsgAbort (l : LinkId) (header : List Byte) (s : State) : Host.Outcome State Fault Refusal :=
  .next (recvMsg1 s l.val header 0x12 (fun t => takeAbort t l.val header))

/-- The held message of a link is dropped at the end of its grace, and those behind it follow (R292). -/
def dropHeld (s : State) (l : Nat) : State :=
  match (s.link l).held with
  | some m =>
    let s := freeSlots ((unhold s l m).bump fLnkRefuseAFutureDropped (l / 8) (l % 8) 1) l m.header m.data
    drainLink s l
  | none => s

/-- A group that a notice showed to be behind has been passed by: EPOCH_PASSED is posted and its contexts are aborted,
one abort by passing (R292, R382, R427, R428). -/
def passedBy (s : State) (g : Nat) : State :=
  let x := s.group g
  match x.passing with
  | some e =>
    let s := s.setGroup g { x with passing := none }
    if x.present && decide (x.epoch < e) then
      abortGroup ((postTo s ((groupParts s g).flatMap (partFns s) ++ [0]) 0xE9 g).bump fFltAbortLocal 0 0 1) g e
    else s
  | none => s

/-- EPOCH_GRACE_EXPIRY (R292). -/
def execEpochGraceExpiry (site : GraceSite) (s : State) : Host.Outcome State Fault Refusal :=
  .next (match site with
    | .held l => dropHeld s l.val
    | .passed g => passedBy s g.toNat)

end Sys2Proof.Machine
end

