-- ==== Sys2Proof/Machine/LinkCtl.lean ====
section
/-! DEFINITION. Link control: flits (R272 to R274, R503), records (R283 to R290), training, lanes, heartbeats, degrade and
loop-back (R285 to R289, R297). -/

namespace Sys2Proof.Machine

/-! ### Records -/

/-- A record whose MODULE_ID or LINK changed without retraining (R295). -/
def identityChanged (s : State) (l : Nat) (r : LinkRecord) : Bool :=
  (s.link l).gotRecord &&
  (s.fld fLnkPartnerModuleId (l / 8) (l % 8) != r.moduleId.toNat || s.fld fLnkPartnerLink (l / 8) (l % 8) != r.link.toNat)

/-- Keep what a record says of the partner (R289, R298). -/
def notePartner (s : State) (l : Nat) (r : LinkRecord) : State :=
  let s := s.setFld fLnkPartnerModuleId (l / 8) (l % 8) r.moduleId.toNat
  let s := s.setFld fLnkPartnerLink (l / 8) (l % 8) r.link.toNat
  let s := s.setFld fLnkPartnerModuleState (l / 8) (l % 8) r.moduleState.toNat
  s.modLink l (fun x => { x with gotRecord := true, partnerRates := r.rates.toNat })

/-- A record's fields are in range (R283). -/
def recordOk (r : LinkRecord) (kind : Nat) : Bool :=
  r.kind.toNat == kind && decide (r.link.toNat < 64) && within 1 4 r.moduleState.toNat

/-- The partner is not the expected one (R287). -/
def wrongPartner (s : State) (l : Nat) (r : LinkRecord) : Bool :=
  s.fld fLnkCfgExpectCheck (l / 8) (l % 8) == 1 &&
  ((s.link l).expectId.toNat != r.moduleId.toNat || (s.link l).expectLink != r.link.toNat)

/-- The states in which a link takes link control flits (R503): NEGOTIATING, NOT_READY, UP, SILENT and FENCED. DEDUCED (log entry 151):
a link that is DOWN, in TRAINING or RETRAINING has no lane that carries flits, and one in LOOPBACK carries no records (R297). -/
def takesRecords (s : State) (l : Nat) : Bool := [2, 3, 4, 5, 7].contains (linkState s l)

/-- Every record is checked for its form and its sender before it is taken (R287, R295, R503). -/
def takeRecord (s : State) (l kind : Nat) (r : LinkRecord) (act : State → State) : State :=
  if !linkAlive s l || !takesRecords s l then s
  else if !recordOk r kind then hostileEvent s l fLnkHostileMalformed
  else if identityChanged s l r then
    let s := hostileEvent s l fLnkHostileMalformed
    if linkState s l = 7 then s else startRetrain s l
  else if linkState s l != 7 && wrongPartner s l r then fenceLink (notePartner s l r) l 2
  else act s

/-- The major version 1 lies within a partner's range (R284). -/
def sharesMajor (r : LinkRecord) : Bool := decide (r.protoMin.toNat / 16 ≤ 1) && decide (1 ≤ r.protoMax.toNat / 16)

/-- A NEGOTIATE settles version and credits and takes the link to UP (R284 to R287, R279). -/
def negotiate (s : State) (l : Nat) (r : LinkRecord) : State :=
  if linkState s l ≠ 2 && linkState s l ≠ 3 then s
  else
    let s := notePartner s l r
    if !sharesMajor r then s.bump fLnkTrainVersionFail (l / 8) (l % 8) 1
    else if !moduleReady s l then sendKind s l 2
    else
      let s := s.setFld fLnkStatusProtoVer (l / 8) (l % 8) 0x10
      let s := s.modLink l (fun x => { x with
        granted0 := r.slots0.toNat, granted1 := r.slots1.toNat, sent0 := 0, sent1 := 0, partnerFreed0 := 0,
        partnerFreed1 := 0, freed0 := 0, freed1 := 0, backoffMs := 1 })
      goUp (sendKind s l 1) l

/-- A NOT_READY takes a negotiating link to NOT_READY (R286). -/
def notReady (s : State) (l : Nat) (r : LinkRecord) : State :=
  let s := notePartner s l r
  if linkState s l = 2 then (setLinkState s l 3).modLink l (fun x => { x with backoffMs := 1 }) else s

/-- The 100 µs intervals without a heartbeat since the last one, to the nearest interval and but those counted already (R298, log
entry 151). -/
def hbMissed (s : State) (l : Nat) : Nat := (s.now - (s.link l).lastHb + 50000) / 100000 - 1 - (s.link l).hbCounted

/-- A HEARTBEAT updates the partner's state, counts the intervals missed before it and returns a SILENT link to UP (R290). -/
def heartbeat (s : State) (l : Nat) (r : LinkRecord) : State :=
  let s := if linkTakes s l then s.bump fLnkTrainHbMissed (l / 8) (l % 8) (hbMissed s l) else s
  let s := (notePartner s l r).modLink l (fun x => { x with lastHb := s.now, hbCounted := 0 })
  if linkState s l = 5 then goUp s l else s

/-- A DEGRADE moves all flits to the surviving lane (R288); the end that moves answers with its own record. -/
def degrade (s : State) (l : Nat) (r : LinkRecord) : State :=
  let s := notePartner s l r
  let lanes := linkLanes s l &&& bitsOf r.lanes.toNat 1 0
  if linkState s l = 4 || linkState s l = 5 || linkState s l = 2 || linkState s l = 3 then
    let s := s.modLink l (fun x => { x with lanesMove := false })
    if lanes = linkLanes s l then s
    else
      let t := useLanes s l lanes
      if lanes = 0 then t else sendKind t l 4
  else s

/-- A FENCED record records the partner's fenced state (R283). -/
def partnerFenced (s : State) (l : Nat) (r : LinkRecord) : State :=
  (notePartner s l r).modLink l (fun x => { x with partnerFenced := true })

/-- Take a record by its kind. -/
def anyRecord (s : State) (l : Nat) (r : LinkRecord) : State :=
  match r.kind.toNat with
  | 1 => takeRecord s l 1 r (fun t => negotiate t l r)
  | 2 => takeRecord s l 2 r (fun t => notReady t l r)
  | 3 => takeRecord s l 3 r (fun t => heartbeat t l r)
  | 4 => takeRecord s l 4 r (fun t => degrade t l r)
  | k => takeRecord s l (if k = 5 then 5 else 0) r (fun t => partnerFenced t l r)

/-- NEGOTIATE_RECEIVE (R284). -/
def execNegotiateReceive (l : LinkId) (rec : LinkRecord) (s : State) : Host.Outcome State Fault Refusal :=
  .next (takeRecord s l.val 1 rec (fun t => negotiate t l.val rec))

/-- NOT_READY_RECEIVE (R286). -/
def execNotReadyReceive (l : LinkId) (rec : LinkRecord) (s : State) : Host.Outcome State Fault Refusal :=
  .next (takeRecord s l.val 2 rec (fun t => notReady t l.val rec))

/-- HEARTBEAT_RECEIVE (R290). -/
def execHeartbeatReceive (l : LinkId) (rec : LinkRecord) (s : State) : Host.Outcome State Fault Refusal :=
  .next (takeRecord s l.val 3 rec (fun t => heartbeat t l.val rec))

/-- DEGRADE_RECEIVE (R288). -/
def execDegradeReceive (l : LinkId) (rec : LinkRecord) (s : State) : Host.Outcome State Fault Refusal :=
  .next (takeRecord s l.val 4 rec (fun t => degrade t l.val rec))

/-- FENCED_RECEIVE (R283). -/
def execFencedReceive (l : LinkId) (rec : LinkRecord) (s : State) : Host.Outcome State Fault Refusal :=
  .next (takeRecord s l.val 5 rec (fun t => partnerFenced t l.val rec))

/-- A negotiation timer runs out (R283, R286): NEGOTIATE in NEGOTIATING, or on the back-off, which doubles up to 64 ms, in
NOT_READY, an end that cannot take messages sending NOT_READY in its place; FENCED until the partner's FENCED has come, DEGRADE until the
partner has moved. -/
def resendRecord (s : State) (l : Nat) : State :=
  if !linkAlive s l then s
  else
    let s := if takesRecords s l && linkState s l != 7 && (s.link l).lanesMove then sendKind s l 4 else s
    let kind := if moduleReady s l then 1 else 2
    match linkState s l with
    | 2 => sendKind s l kind
    | 3 => (sendKind s l kind).modLink l (fun x => { x with backoffMs := min 64 (2 * x.backoffMs) })
    | 7 => if (s.link l).partnerFenced then s else sendKind s l 5
    | _ => s

/-- NEGOTIATE_RESEND (R283). -/
def execNegotiateResend (l : LinkId) (s : State) : Host.Outcome State Fault Refusal := .next (resendRecord s l.val)

/-- HEARTBEAT_SEND (R290): in UP, SILENT or NOT_READY, and in FENCED (R296); HB_COUNT saturates (R14). -/
def execHeartbeatSend (l : LinkId) (s : State) : Host.Outcome State Fault Refusal :=
  .next (if linkAlive s l.val && [3, 4, 5, 7].contains (linkState s l.val) then
      sendKind (s.modLink l.val (fun x => { x with hbCount := satAdd 32 x.hbCount 1 })) l.val 3
    else s)

/-- HEARTBEAT_TIMEOUT (R290): 300 µs have passed without a heartbeat, three intervals (R298). -/
def heartbeatLost (s : State) (l : Nat) : State :=
  let s := if linkTakes s l then s.modLink l (fun x => { x with hbCounted := x.hbCounted + 3 }) else s
  match linkState s l with
  | 4 =>
    let s := (s.bump fLnkTrainHbMissed (l / 8) (l % 8) 3).bump fLnkTrainSilentEvents (l / 8) (l % 8) 1
    postBoth (setLinkState s l 5) (linkPart s l) 0xE4 (l * 2 ^ 42)
  | 5 => s.bump fLnkTrainHbMissed (l / 8) (l % 8) 3
  | _ => s

/-- HEARTBEAT_TIMEOUT (R290). -/
def execHeartbeatTimeout (l : LinkId) (s : State) : Host.Outcome State Fault Refusal := .next (heartbeatLost s l.val)

/-! ### Training and lanes -/

/-- A lane locks at a rate (R285, R289): the link is DOWN or TRAINING, its group is started, the lane is not retired, and the
rate is one the link tries: in both RATES fields, within RATE_CAP, and no higher than what has failed. -/
def laneLocked (s : State) (l lane rate latency : Nat) : State :=
  let x := s.link l
  let st := linkState s l
  if !linkAlive s l || x.startLoop || (st != 0 && st != 1) || bitOf x.retired lane ||
      decide (rate < max x.tryRate (s.fld fLnkCfgRateCap (l / 8) (l % 8))) || !bitOf x.partnerRates rate then s
  else
    let keep := if st = 1 && linkRate s l = rate then x.lanesLocked else 0
    let s := (setLinkState s l 1).setFld fLnkStatusRate (l / 8) (l % 8) rate
    let s := s.setLink l { x with lanesLocked := keep ||| 2 ^ lane, latency := latency }
    if usable (s.link l) = 3 - x.retired then trained s l else s

/-- LANE_LOCK (R285). -/
def execLaneLock (l : LinkId) (lane : Fin 2) (rate : Fin 3) (latencyNs : Nat) (s : State) :
    Host.Outcome State Fault Refusal :=
  .next (laneLocked s l.val lane.val rate.val latencyNs)

/-- A lane is retired (R288): counted and scored; the link goes on over the other lane, or DOWN. -/
def retireLane (s : State) (l lane : Nat) : State :=
  let x := s.link l
  let st := linkState s l
  if !linkAlive s l || bitOf x.retired lane || st == 0 || st == 7 || st == 8 then s
  else
    let s := healthEvent (s.bump fLnkTrainDegrades (l / 8) (l % 8) 1) (huLink l) 14 1000
    let left := (3 - x.retired) &&& (3 - 2 ^ lane)
    let s := s.modLink l (fun y => { y with retired := y.retired ||| 2 ^ lane, badWords := [] })
    if left = 0 then goDown s l
    else if st = 1 then (if usable (s.link l) = left then trained s l else s)
    else
      let s := (useLanes s l left).modLink l (fun y => { y with lanesMove := true })
      if st = 6 then s else sendKind s l 4

/-- LANE_RETIRE (R288). -/
def execLaneRetire (l : LinkId) (lane : Fin 2) (s : State) : Host.Outcome State Fault Refusal :=
  .next (retireLane s l.val lane.val)

/-- LINK_RETRAIN_START (R276). -/
def execLinkRetrainStart (l : LinkId) (s : State) : Host.Outcome State Fault Refusal :=
  .next (if linkAlive s l.val && linkTakes s l.val then startRetrain s l.val else s)

/-- A retraining ends (R276, R285, R289): UP with the flits kept resent, or DOWN, at a lower rate after a second failure. -/
def retrainEnd (s : State) (l : Nat) (ok : Bool) (latency : Nat) : State :=
  if linkState s l ≠ 6 then s
  else if ok then
    let lanes := 3 - (s.link l).retired
    let s := (s.setFld fLnkStatusLatency (l / 8) (l % 8) (min latency 4095)).setFld fLnkStatusLanes (l / 8) (l % 8) lanes
    goUp (s.modLink l (fun x => { x with failures := 0, lanesLocked := lanes })) l
  else
    let s := (goDown s l).modLink l (fun x => { x with failures := x.failures + 1 })
    if 2 ≤ (s.link l).failures then lowerRate s l else s

/-- LINK_RETRAIN_END (R276). -/
def execLinkRetrainEnd (l : LinkId) (ok : Bool) (latencyNs : Nat) (s : State) : Host.Outcome State Fault Refusal :=
  .next (retrainEnd s l.val ok latencyNs)

/-- TRAINING_TIMEOUT (R285, R289): to DOWN, at a lower rate. -/
def execTrainingTimeout (l : LinkId) (s : State) : Host.Outcome State Fault Refusal :=
  .next (if linkState s l.val = 1 then lowerRate (goDown s l.val) l.val else s)

/-! ### Loop-back (R297) -/

/-- LNK_LOOP_START (R297): a write of LNK_LOOP that sets START. -/
def execLnkLoopStart (l : LinkId) (value : Word) (s : State) : Host.Outcome State Fault Refusal :=
  .next (linkLoopWrite s l.val (value ||| 0x8000))

/-- LNK_LOOP_MODE_WRITE (R297): a write of LNK_LOOP without START. -/
def execLnkLoopModeWrite (l : LinkId) (value : Word) (s : State) : Host.Outcome State Fault Refusal :=
  .next (linkLoopWrite s l.val (value &&& ~~~(0x8000 : Word)))

/-- Bit errors of a lane, or the largest value where its checker never locked (R297). -/
def laneErrors (errors : Nat) (locked : Bool) : Nat := if locked then min errors (2 ^ 28 - 1) else 2 ^ 28 - 1

/-- The end of a loop-back run (R297); a run of the start hands the link on to training (R447). -/
def linkLoopDone (s : State) (l e0 e1 : Nat) (k0 k1 : Bool) : State :=
  if s.fld fLnkLoopStart (l / 8) (l % 8) = 0 then s
  else
    let s := s.setFld fLnkLoopStart (l / 8) (l % 8) 0
    let w := s.fld fLnkLoopResultRefused (l / 8) (l % 8) * 2 ^ 62 + 2 ^ 63 + toBit (!k1) * 2 ^ 57 + toBit (!k0) * 2 ^ 56 +
      laneErrors e1 k1 * 2 ^ 28 + laneErrors e0 k0
    let s := s.setRaw ⟨.lnkLoopResult, l / 8, l % 8⟩ (BitVec.ofNat 64 w)
    if (s.link l).startLoop then
      goDown ((s.setFld fLnkLoopMode (l / 8) (l % 8) 0).modLink l (fun x => { x with startLoop := false })) l
    else s

/-- LNK_LOOP_DONE (R297). -/
def execLnkLoopDone (l : LinkId) (errors0 errors1 : Nat) (locked0 locked1 : Bool) (s : State) :
    Host.Outcome State Fault Refusal :=
  .next (linkLoopDone s l.val errors0 errors1 locked0 locked1)

/-! ### Flits (R272 to R274, R295, R503) -/

/-- A flit header is malformed (R272). -/
def flitBad (b : List Byte) : Bool :=
  let t := fieldAt b 0 1
  b.length != 640 || decide (2 < t) || decide (1 < fieldAt b 1 1) || (t != 1 && fieldAt b 2 2 != 0) ||
  fieldAt b 12 4 != 0 || fieldAt b 636 4 != 0 || (fieldAt b 6 2 != 0xFFFF && decide (615 < fieldAt b 6 2))

/-- CRC matches (R272, R273). -/
def flitCrcOk (b : List Byte) : Bool := (crc32c (b.take 632)).toNat == fieldAt b 632 4

/-- Cut whole messages off a stream of message bytes that begins with a header: the messages with their offsets, what is left, and
whether a malformed header ended it. Zeros to the flit's end where a header would follow a message are padding (R272). -/
def cutMsgs : Nat → Nat → List Byte → List (Nat × List Byte × List Byte) × List Byte × Bool
  | 0, _, b => ([], b, false)
  | fuel + 1, off, b =>
    if b.isEmpty || (off != 0 && b.all (· == 0)) then ([], [], false)
    else if b.length < 32 then ([], b, false)
    else
      let h := b.take 32
      if headerBad h then ([], [], true)
      else if b.length < 32 + hLength h then ([], b, false)
      else
        let (ms, rest, bad) := cutMsgs fuel (off + 32 + hLength h) (b.drop (32 + hLength h))
        ((off, h, (b.drop 32).take (hLength h)) :: ms, rest, bad)

/-- The offset in a flit's payload at which the message under way ends; 0 with none. None where its header is malformed. -/
def msgEnd (stream payload : List Byte) : Option Nat :=
  if stream.isEmpty then some 0
  else
    let h := (stream ++ payload).take 32
    if headerBad h then none else some (32 + hLength h - stream.length)

/-- FIRST_MSG agrees with the message under way: it names the place where that message ends, if a header follows there (R272,
R280). -/
def firstOk (stream payload : List Byte) (first : Nat) : Bool :=
  match msgEnd stream payload with
  | none => false
  | some e => if first = 0xFFFF then (payload.drop e).all (· == 0) else first == e

/-- Take the messages of a stream that begins with a header, lost words at offsets `lost`. -/
def takeStream (s : State) (l : Nat) (b : List Byte) (lost : List Nat) : State :=
  let (ms, rest, bad) := cutMsgs 20 0 b
  let keep := b.length - rest.length
  let s := s.modLink l (fun x => { x with
    rxStream := rest, rxBad := (lost.filter (fun o => decide (keep ≤ o))).map (· - keep), rxSync := !bad })
  let s := forEach ms s (fun m t => recvAny t l m.2.1 m.2.2
    ((lost.filter (fun o => decide (m.1 + 32 ≤ o) && decide (o < m.1 + 32 + m.2.2.length))).map (· - (m.1 + 32))))
  if bad then hostileEvent s l fLnkHostileMalformed else s

/-- Take the payload of an accepted data flit: the message under way goes on, or after a discard the stream starts again at FIRST_MSG; a
FIRST_MSG that does not agree is malformed (R272, R280). `lost` are offsets of payload words that the receive buffer has lost (R273). -/
def takePayload (s : State) (l : Nat) (first : Nat) (payload : List Byte) (lost : List Nat) : State :=
  let x := s.link l
  if !x.rxSync then
    if first = 0xFFFF then s
    else takeStream s l (payload.drop first) ((lost.filter (fun o => decide (first ≤ o))).map (· - first))
  else if !firstOk x.rxStream payload first then
    hostileEvent (s.setLink l { x with rxStream := [], rxBad := [], rxSync := false }) l fLnkHostileMalformed
  else if x.rxStream.isEmpty && first == 0xFFFF then s
  else takeStream s l (x.rxStream ++ payload) (x.rxBad ++ lost.map (· + x.rxStream.length))

/-- A flit that is not accepted: NAK is set in the next flit, once until the expected flit arrives (R274); a link that has been fenced
sends none (R296). -/
def rejectFlit (s : State) (l : Nat) : State :=
  let x := s.link l
  if x.nakSet || !linkTakes s l then s
  else countNak (sendIdle (s.setLink l { x with nakSet := true }) l true) l

/-- ACK of a received flit frees retry slots (R274). -/
def takeAck (s : State) (l ack : Nat) : State :=
  let x := s.link l
  if x.retry.any (fun f => f.seq == ack) || ack == x.ackedSeq then
    let kept := unacked x ack
    s.setLink l { x with retry := kept, ackedSeq := ack, retryBad := x.retryBad.filter (fun q => kept.any (fun f => f.seq == q)) }
  else s

/-- A freed-slots count of the partner (R279, R295), clamped to the slots in flight. -/
def takeCredit (s : State) (l c freed : Nat) : State :=
  let x := s.link l
  let sent := if c = 0 then x.sent0 else x.sent1
  let had := if c = 0 then x.partnerFreed0 else x.partnerFreed1
  let more := (freed + 65536 - had % 65536) % 65536
  let now := min sent (had + more)
  let s := s.setLink l (if c = 0 then { x with partnerFreed0 := now } else { x with partnerFreed1 := now })
  if sent < had + more then hostileEvent s l fLnkHostileCreditExcess else s

/-- A NAK: every flit after the one it names is sent again, where the link is UP; eight in a row that name the same flit retrain (R274,
R276, R285). -/
def takeNak (s : State) (l ack : Nat) : State :=
  let x := s.link l
  let row := if x.nakAck = ack then x.nakRow + 1 else 1
  let s := s.setLink l { x with nakRow := row, nakAck := ack }
  let s := if linkState s l = 4 then resendFrom s l ack else s
  let s := countNak s l
  if 8 ≤ row && linkTakes s l then startRetrain s l else s

/-- A data flit in sequence, or out of it (R274). -/
def dataFlit (s : State) (l : Nat) (b : List Byte) (lost : List Nat) : State :=
  let x := s.link l
  let seq := fieldAt b 2 2
  if seq = (x.rxSeq + 1) % 65536 then
    let s := s.setLink l { x with rxSeq := seq, nakSet := false }
    let s := takePayload s l (fieldAt b 6 2) ((b.drop 16).take flitPayload) lost
    if linkTakes s l then sendIdle s l false else s
  else rejectFlit s l

/-- A link control flit's record, as the state allows (R285, R296, R503). -/
def controlFlit (s : State) (l : Nat) (b : List Byte) : State :=
  match parseRecord ((b.drop 16).take flitPayload) with
  | some r => anyRecord s l r
  | none => if takesRecords s l then hostileEvent s l fLnkHostileMalformed else s

/-- A flit whose header is malformed is handled as one that fails its CRC, and is a hostile event where the link takes the flit (R295,
R503). -/
def malformedFlit (s : State) (l type : Nat) : State :=
  let s := s.bump fLnkFecUncorrCw (l / 8) (l % 8) 1
  if linkTakes s l then rejectFlit (hostileEvent s l fLnkHostileMalformed) l
  else if takesRecords s l && type != 1 then hostileEvent s l fLnkHostileMalformed else s

/-- A flit that its code word delivered, with its CRC right; `lost` are the words of its payload that the receive buffer then loses. -/
def goodFlit (s : State) (l : Nat) (b : List Byte) (lost : List Nat) : State :=
  let type := fieldAt b 0 1
  if flitBad b then malformedFlit s l type
  else if !linkTakes s l then (if type = 2 then controlFlit s l b else s)
  else
    let s := takeAck s l (fieldAt b 4 2)
    let s := takeCredit (takeCredit s l 0 (fieldAt b 8 2)) l 1 (fieldAt b 10 2)
    let s := if bitOf (fieldAt b 1 1) 0 && linkTakes s l then takeNak s l (fieldAt b 4 2) else s
    let s := if type = 1 then (if linkTakes s l then dataFlit s l b lost else s)
      else if type = 2 then controlFlit s l b else s
    pump s l

/-- A lane delivers a code word that cannot be corrected; more than 16 of a lane within 1 ms retire it (R288). -/
def badWord (s : State) (l lane : Nat) : State :=
  let ts := (s.link l).badWords.filter (fun e => decide (s.now < e.2 + 1000000)) ++ [(lane, s.now)]
  let s := healthEvent (s.modLink l (fun x => { x with badWords := ts })) (huLink l) 4 2
  if 16 < (ts.filter (fun e => e.1 == lane)).length then retireLane s l lane else s

/-- FLIT_RECEIVE (R273, R274): the code word's fate is counted, then the flit is checked and taken. -/
def flitReceived (s : State) (l lane : Nat) (decoded corrected : Bool) (b : List Byte) (lost : List Nat) : State :=
  if !linkAlive s l then s
  else
    let s := if decoded && corrected then s.bump fLnkFecCorrCw (l / 8) (l % 8) 1 else s
    if !decoded || !flitCrcOk b then
      let s := s.bump fLnkFecUncorrCw (l / 8) (l % 8) 1
      let s := if decoded then s else badWord s l lane
      if linkTakes s l then rejectFlit s l else s
    else goodFlit s l b lost

/-- FLIT_RECEIVE (R274). -/
def execFlitReceive (l : LinkId) (decoded corrected : Bool) (flit : RxFlit) (s : State) :
    Host.Outcome State Fault Refusal :=
  .next (flitReceived s l.val flit.lane.val decoded corrected flit.bytes flit.bad)

end Sys2Proof.Machine
end

