-- ==== Sys2Proof/Machine/CmdNet.lean ====
section
/-! DEFINITION. Job groups, collective groups and links under Caoco (R287, R288, R291, R296, R299 to R302, R323, R377, R378):
GROUP_BIND, EPOCH_INSTALL, COMM_CREATE, COMM_DESTROY, LINK_EXPECT, LINK_ACTION, LINK_CFG. -/

namespace Sys2Proof.Machine

/-! ### Job groups -/

/-- GROUP_BIND: at most one group for each context, at the group's installed epoch (R291). -/
def refuseGroupBind (c : Cmd) (s : State) : Option Nat :=
  let g := s.group (c.val 1)
  refusal (ctxChecks c s (c.arg 0) ++
    [restZero c 3, badIf (decide (2 ^ 32 ≤ c.val 1) || decide (2 ^ 32 ≤ c.val 2)),
     ((s.ctx (hIdx (c.arg 0))).group.isSome, rcBadState), (g.present && g.epoch != c.val 2, rcBadState)])

/-- GROUP_BIND binds the context; a group named for the first time is created with no member link (R291). -/
def effectGroupBind (c : Cmd) (s : State) : CmdOut :=
  let g := c.val 1
  let s := if (s.group g).present then s else s.setGroup g { present := true, epoch := c.val 2 }
  okWith 0 (s.modCtx (hIdx (c.arg 0)) (fun x => { x with group := some g }))

/-- GROUP_BIND (R291). -/
def execGroupBind (rq : Req) (ctx group epoch : Word) (s : State) : Host.Outcome State Fault Refusal :=
  .next (runRow refuseGroupBind effectGroupBind 0x58 rq [ctx, group, epoch] s)

/-- EPOCH_INSTALL: the physical function, or a function of a partition; an epoch never falls (R291). -/
def refuseEpochInstall (c : Cmd) (s : State) : Option Nat :=
  let g := s.group (c.val 0)
  refusal [(c.fn != 0 && partRc c s != 0, partRc c s), restZero c 4,
    badIf (decide (2 ^ 32 ≤ c.val 0) || decide (2 ^ 32 ≤ c.val 1) || decide (1 < c.val 3)),
    (g.present && decide (c.val 1 < g.epoch), rcBadState)]

/-- EPOCH_INSTALL sets epoch and member links; a higher epoch makes the group's collective records stale and lets held
messages be checked again, and gives up what waits for excluded partners (R291 to R293, R323); without this module the group's contexts are aborted, one
abort by exclusion (R427, R428, R439). -/
def effectEpochInstall (c : Cmd) (s : State) : CmdOut :=
  let g := c.val 0
  let e := c.val 1
  let x := s.group g
  let gone := if c.val 3 = 0 then groupCtxs s g else []
  let keep := match x.passing with | some w => if w ≤ e then none else some w | none => none
  let s := s.setGroup g { x with present := true, epoch := e, mask := c.arg 2, member := c.val 3 == 1, passing := keep }
  let s := if c.val 3 = 0 then abortGroup (s.bump fFltAbortLocal 0 0 1) g e else s
  let s := if x.present && decide (x.epoch < e) && c.val 3 == 1 then staleComms s g else s
  let s := forEach (upTo 64) s (fun l t => if bitOf (c.val 2) l then t else dropExcluded t g l)
  okWith gone.length (forEach (upTo 64) s (fun l t => recheckHeld t l))

/-- EPOCH_INSTALL (R291). -/
def execEpochInstall (rq : Req) (group epoch mask isMember : Word) (s : State) : Host.Outcome State Fault Refusal :=
  .next (runRow refuseEpochInstall effectEpochInstall 0x59 rq [group, epoch, mask, isMember] s)

/-! ### Collective groups -/

/-- The header of a group structure, by its fields (R378). -/
structure GroupHeader where
  group : Nat
  p : Nat
  o : Nat
  i : Nat
  t : Nat
  rank : Nat
  tallyBase : Nat
  chunk : Nat
  staging : Word
  reservedBad : Bool
  deriving DecidableEq, Repr

/-- Read the 32-byte header. -/
def parseGroup (b : List Byte) : GroupHeader :=
  { group := fieldAt b 0 4, p := fieldAt b 4 2, o := fieldAt b 6 2, i := fieldAt b 8 2, t := fieldAt b 10 1, rank := fieldAt b 12 2,
    tallyBase := fieldAt b 14 2, chunk := fieldAt b 16 4, staging := BitVec.ofNat 64 (fieldAt b 20 8),
    reservedBad := fieldAt b 11 1 != 0 || fieldAt b 28 4 != 0 }

/-- The header's values lie in their ranges (R299, R300, R302, R378). -/
def groupRangesOk (h : GroupHeader) : Bool :=
  !h.reservedBad && within 1 4096 h.p && within 1 4 h.t && decide (h.rank < h.p) &&
  ((h.o == 0 && h.i == 0) || h.o * h.i == h.p) && [4096, 8192, 16384, 32768, 65536].contains h.chunk

/-- Tree tables of the group: T, or twice T on two levels. -/
def groupTables (h : GroupHeader) : Nat := if h.o = 0 then h.t else 2 * h.t

/-- Bytes of the structure (R378). -/
def groupBytes (h : GroupHeader) : Nat := 32 + 40 * h.p * groupTables h

/-- A route's code is one of R378's. -/
def routeCode (r : Nat) : Bool := decide (r < 8) || within 0x10 0x17 r

/-- A rank entry (R378); `bad` where a field lies outside its range. -/
def parseRank (p : Nat) (b : List Byte) : RankEntry :=
  let n := fieldAt b 3 1
  let kid (j : Nat) : Nat × Nat := (fieldAt b (8 + 4 * j) 2, fieldAt b (10 + 4 * j) 1)
  let parent := fieldAt b 0 2
  let route := fieldAt b 2 1
  { parent := parent, parentRoute := route, children := (upTo (min 8 n)).map kid,
    bad := decide (8 < n) || fieldAt b 4 4 != 0 || (b.drop (8 + 4 * n)).any (· != 0) ||
      (if parent = 0xFFFF then route != 0xFF else decide (p ≤ parent) || !routeCode route) ||
      (upTo (min 8 n)).any (fun j => decide (p ≤ (kid j).1) || !routeCode (kid j).2 || fieldAt b (11 + 4 * j) 1 != 0) }

/-- Every tree table of a structure. -/
def parseTables (h : GroupHeader) (b : List Byte) : List (List RankEntry) :=
  ((chunksOf (40 * h.p) (b.drop 32)).take (groupTables h)).map (fun t => (chunksOf 40 t).map (parseRank h.p))

/-- The group record that a structure forms. -/
def formComm (s : State) (k : Nat) (h : GroupHeader) (b : List Byte) : Comm :=
  { present := true, ctx := k, group := h.group, epoch := (s.group h.group).epoch, p := h.p, o := h.o, i := h.i, t := h.t,
    rank := h.rank, tallyBase := h.tallyBase, chunk := h.chunk, staging := h.staging,
    stageBase := (s.region (hIdx h.staging)).base,
    seen := (spanOf h.tallyBase (18 * groupTables h)).foldl (fun t k => tabSet 0 t k (s.tally k).count) [],
    digest := crc32c ((b.drop 4).take 6 ++ (b.drop 10).take 1 ++ (b.drop 16).take 4 ++ (b.drop 32).take (groupBytes h - 32)),
    tables := parseTables h b }

/-- The ranks that one tree of a table spans with rank `r`: the whole group, or r's outer or inner group (R300, R301). -/
def sameTree (x : Comm) (table r q : Nat) : Bool :=
  if x.o = 0 then true else if table < x.t then r % x.i == q % x.i else r / x.i == q / x.i

/-- The root above a rank, within `fuel` edges. -/
def rootAbove (x : Comm) (table : Nat) : Nat → Nat → Option Nat
  | 0, _ => none
  | fuel + 1, r =>
    let p := (rankEntry x table r).parent
    if p = 0xFFFF then some r else rootAbove x table fuel p

/-- The trees of a table are spanning: each rank's entry is well-formed, its children name it as their parent and are in its own
group, it is listed by its parent, and every rank of a group reaches one root (R301, R302). -/
def spans (x : Comm) (table : Nat) : Bool :=
  (upTo x.p).all (fun r =>
    let e := rankEntry x table r
    !e.bad && e.children.all (fun k => sameTree x table r k.1 && (rankEntry x table k.1).parent == r) &&
    (e.children.map (·.1)).eraseDups.length == e.children.length &&
    (e.parent == 0xFFFF || (rankEntry x table e.parent).children.any (fun k => k.1 == r)) &&
    (rootAbove x table x.p r).isSome &&
    (upTo x.p).all (fun q => !sameTree x table r q || rootAbove x table x.p q == rootAbove x table x.p r))

/-- The routes of this rank's own entries stay inside its partition and its group's member links (R302). -/
def routesOk (s : State) (p sec : Nat) (x : Comm) : Bool :=
  x.tables.all (fun t =>
    let e := t.getD x.rank { parent := 0xFFFF, parentRoute := 0xFF, children := [], bad := true }
    ((if e.parent = 0xFFFF then [] else [e.parentRoute]) ++ e.children.map (·.2)).all (fun r =>
      if r < 8 then bitOf (s.group x.group).mask.toNat (8 * sec + r) else bitOf (s.part p).mask (r - 0x10)))

/-- The staging region is the context's, in the section's scratchpad, and large enough (R302): DEDUCED (log entry 147), a rank of a
two-level group has the trees of both its groups. -/
def stagingOk (s : State) (k sec : Nat) (x : Comm) : Bool :=
  let r := s.region (hIdx x.staging)
  let kids := (x.tables.map (fun t => (t.getD x.rank { parent := 0, parentRoute := 0, children := [], bad := true }).children.length)).foldl max 0
  objRc x.staging 4 65536 r.present r.gen r.part == 0 && r.ctx == k && inScratchpad s r.base r.length && addrSec r.base == sec &&
  decide (x.tables.length * (kids + 1) * 4 * (x.chunk + 32) ≤ r.length)

/-- The tallies from TALLY_BASE on are the context's (R302, R378). -/
def commTalliesOk (s : State) (k : Nat) (x : Comm) : Bool :=
  (spanOf x.tallyBase (18 * x.tables.length)).all (fun t =>
    decide (t < 16384) && (s.tally t).present && (s.tally t).ctx == k)

/-- The header that COMM_CREATE names. -/
def commHeader (c : Cmd) (s : State) : GroupHeader := parseGroup (readArg s (c.arg 2) 0 32)

/-- The record that COMM_CREATE would form. -/
def commRecord (c : Cmd) (s : State) : Comm :=
  let h := commHeader c s
  formComm s (hIdx (c.arg 0)) h (readArg s (c.arg 2) 0 (groupBytes h))

/-- The structure that COMM_CREATE names is one that Caoco does not refuse. -/
def commOk (c : Cmd) (s : State) : Bool :=
  let h := commHeader c s
  groupRangesOk h && addrOk c s (c.arg 2) (groupBytes h) false &&
  (let x := commRecord c s
   (upTo x.tables.length).all (spans x) && routesOk s (myPart c s) (c.val 1) x && stagingOk s (hIdx (c.arg 0)) (c.val 1) x &&
     commTalliesOk s (hIdx (c.arg 0)) x)

/-- The checks of COMM_CREATE before its structure is read. -/
def commChecks (c : Cmd) (s : State) : List (Bool × Nat) :=
  ctxChecks c s (c.arg 0) ++
    [restZero c 3, badIf (decide (7 < c.val 1) || !bitOf (s.part (myPart c s)).mask (c.val 1)), addrRc c s (c.arg 2) 32 false]

/-- COMM_CREATE reads its header, and the whole structure where that is in order. -/
def commReads (c : Cmd) (s : State) : List (Word × Nat) :=
  readsAfter (commChecks c s) [(c.arg 2, if argPoisoned s (c.arg 2) 32 || !commOk c s then 32 else groupBytes (commHeader c s))]

/-- COMM_CREATE (R299 to R302, R378). -/
def refuseCommCreate (c : Cmd) (s : State) : Option Nat :=
  refusal (commChecks c s ++
    [(argPoisoned s (c.arg 2) 32, rcFaulted), badIf (!commOk c s),
     (argPoisoned s (c.arg 2) (groupBytes (commHeader c s)), rcFaulted),
     ((s.ctx (hIdx (c.arg 0))).group != some (commHeader c s).group, rcBadState),
     ((upTo 64).all (fun k => (s.comm (c.val 1) k).present), rcNoResources)])

/-- COMM_CREATE forms the group record; COMM and TREE_DIGEST are its result (R302, R377). -/
def effectCommCreate (c : Cmd) (s : State) : CmdOut :=
  let x := commRecord c s
  match pickIndex s 64 (fun k => !(s.comm (c.val 1) k).present) with
  | none => .done rcNoResources 0 s
  | some (k, s) => okWith (x.digest.toNat * 2 ^ 32 + k) (s.setComm (c.val 1) k x)

/-- COMM_CREATE (R302). -/
def execCommCreate (rq : Req) (ctx sec addr : Word) (s : State) : Host.Outcome State Fault Refusal :=
  .next (runRowWith refuseCommCreate commReads effectCommCreate 0x5A rq [ctx, sec, addr] s)

/-- A descriptor of the section's engine names a group record. -/
def commInUse (s : State) (sec k : Nat) : Bool := match jobOf s 3 sec with | some j => cComm j.bytes == k | none => false

/-- COMM_DESTROY. -/
def refuseCommDestroy (c : Cmd) (s : State) : Option Nat :=
  let x := s.comm (c.val 0) (c.val 1)
  refusal [rcIf (partRc c s), restZero c 2,
    badIf (decide (7 < c.val 0) || decide (63 < c.val 1) || !bitOf (s.part (myPart c s)).mask (c.val 0)),
    (!x.present, rcBadHandle), (!owns s c.fn x.ctx, rcNotPermitted), (ctxBusy c s x.ctx, rcBusy),
    (commInUse s (c.val 0) (c.val 1), rcBadState)]

/-- COMM_DESTROY removes the record (R323, R377). -/
def effectCommDestroy (c : Cmd) (s : State) : CmdOut := okWith 0 (pruneTokens (s.setComm (c.val 0) (c.val 1) {}))

/-- COMM_DESTROY (R377). -/
def execCommDestroy (rq : Req) (sec comm : Word) (s : State) : Host.Outcome State Fault Refusal :=
  .next (runRow refuseCommDestroy effectCommDestroy 0x5B rq [sec, comm] s)

/-! ### Links -/

/-- The checks of a link that a command names: the physical function, and no link of a sealed partition (R369). -/
def linkChecks (c : Cmd) (s : State) : List (Bool × Nat) :=
  [rcIf (pfRc c), badIf (decide (63 < c.val 0)), (partSealed s (linkPart s (c.val 0)), rcNotPermitted)]

/-- LINK_EXPECT. -/
def refuseLinkExpect (c : Cmd) (s : State) : Option Nat :=
  refusal (linkChecks c s ++
    [restZero c 4, badIf (decide (2 ^ 48 ≤ c.val 1) || decide (63 < c.val 2) || decide (1 < c.val 3))])

/-- LINK_EXPECT installs the expected partner and EXPECT_CHECK (R287). -/
def effectLinkExpect (c : Cmd) (s : State) : CmdOut :=
  let l := c.val 0
  let s := s.modLink l (fun x => { x with expectId := c.arg 1, expectLink := c.val 2 })
  okWith 0 (s.setFld fLnkCfgExpectCheck (l / 8) (l % 8) (c.val 3))

/-- LINK_EXPECT (R287). -/
def execLinkExpect (rq : Req) (link moduleId partner check : Word) (s : State) : Host.Outcome State Fault Refusal :=
  .next (runRow refuseLinkExpect effectLinkExpect 0x5C rq [link, moduleId, partner, check] s)

/-- LINK_ACTION: a fenced link leaves only by unfencing, and only it; loop-back ends by its own register (R285, R297). -/
def refuseLinkAction (c : Cmd) (s : State) : Option Nat :=
  let st := linkState s (c.val 0)
  refusal (linkChecks c s ++
    [restZero c 2, badIf (!within 1 3 (c.val 1)),
     (c.val 1 == 1 && (st == 7 || st == 8), rcBadState), (c.val 1 == 3 && st != 7, rcBadState)])

/-- Training starts again at the highest rate that RATE_CAP allows (R289). -/
def trainAnew (s : State) (l : Nat) : State :=
  let s := s.setFld fLnkStatusRate (l / 8) (l % 8) (s.fld fLnkCfgRateCap (l / 8) (l % 8))
  setLinkState (s.modLink l (fun x => { x with failures := 0, tryRate := 0, lanesLocked := 0 })) l 1

/-- A retraining with the retired lanes restored (R288): over the link's traffic where it carries any, else from the start. -/
def retrainAll (s : State) (l : Nat) : State :=
  let st := linkState s l
  let s := s.modLink l (fun x => { x with retired := 0, lanesMove := false })
  if !linkAlive s l || st == 6 then s
  else if linkTakes s l then startRetrain s l
  else trainAnew s l

/-- A link is unfenced: training restarts (R296). -/
def unfence (s : State) (l : Nat) : State :=
  let s := s.setFld fLnkStatusFenceCause (l / 8) (l % 8) 0
  let s := goDown (s.modLink l (fun x => { x with hostile := [] })) l
  if linkAlive s l then trainAnew s l else s

/-- LINK_ACTION: 1 retrain, 2 fence with FENCE_CAUSE 3, 3 unfence (R288, R296). -/
def effectLinkAction (c : Cmd) (s : State) : CmdOut :=
  let l := c.val 0
  okWith 0 (if c.val 1 = 1 then retrainAll s l else if c.val 1 = 2 then fenceLink s l 3 else unfence s l)

/-- LINK_ACTION 1 (R288). -/
def execLinkRetrain (rq : Req) (link : Word) (s : State) : Host.Outcome State Fault Refusal :=
  .next (runRow refuseLinkAction effectLinkAction 0x5D rq [link, 1] s)

/-- LINK_ACTION 2 (R296). -/
def execLinkFence (rq : Req) (link : Word) (s : State) : Host.Outcome State Fault Refusal :=
  .next (runRow refuseLinkAction effectLinkAction 0x5D rq [link, 2] s)

/-- LINK_ACTION 3 (R296). -/
def execLinkUnfence (rq : Req) (link : Word) (s : State) : Host.Outcome State Fault Refusal :=
  .next (runRow refuseLinkAction effectLinkAction 0x5D rq [link, 3] s)

/-- LINK_CFG: FENCE_LIMIT 1 to 255, EPOCH_GRACE up to 100 ms, RATE_CAP 0 to 2 (R298). -/
def refuseLinkCfg (c : Cmd) (s : State) : Option Nat :=
  refusal [rcIf (pfRc c), restZero c 4,
    badIf (!within 1 255 (c.val 1) || decide (100 < c.val 2) || decide (2 < c.val 3)),
    ((setBits 64 (c.val 0)).any (fun l => partSealed s (linkPart s l)), rcNotPermitted)]

/-- LINK_CFG sets the fields of LNK_CFG of every link of its mask (R298, R377). -/
def effectLinkCfg (c : Cmd) (s : State) : CmdOut :=
  okWith 0 (forEach (setBits 64 (c.val 0)) s (fun l t =>
    let t := t.setFld fLnkCfgFenceLimit (l / 8) (l % 8) (c.val 1)
    let t := t.setFld fLnkCfgEpochGrace (l / 8) (l % 8) (c.val 2)
    t.setFld fLnkCfgRateCap (l / 8) (l % 8) (c.val 3)))

/-- LINK_CFG (R377). -/
def execLinkCfg (rq : Req) (mask fenceLimit grace rateCap : Word) (s : State) : Host.Outcome State Fault Refusal :=
  .next (runRow refuseLinkCfg effectLinkCfg 0x5E rq [mask, fenceLimit, grace, rateCap] s)

end Sys2Proof.Machine
end

