-- ==== Sys2Proof/Machine/CmdNum.lean ====
section
/-! DEFINITION. Numerics, gates, witness and replay under Caoco (R196, R198 to R202, R206 to R209, R213, R215, R263 to R267, R377,
R501): HIST_SET, NUM_SNAPSHOT, GATE_CREATE, GATE_SET, GATE_DESTROY, WITNESS_CFG, DRIFT_PAIR, OUTLIER_RING, RPL_RECORD, RPL_MARK,
RPL_REPLAY. -/

namespace Sys2Proof.Machine

/-! ### HIST_SET and NUM_SNAPSHOT -/

/-- A signed argument. -/
def Cmd.int (c : Cmd) (i : Nat) : Int := (c.arg i).toInt

/-- HIST_SET (R196). -/
def refuseHistSet (c : Cmd) (s : State) : Option Nat :=
  refusal (tensorChecks c s 3 ++
    [badIf (decide (c.int 1 < -128) || decide (127 < c.int 1) || !within 1 8 (c.val 2)),
     ((s.tensor (myPart c s) (c.val 0)).counter.isNone, rcBadState)])

/-- HIST_SET sets HIST_BASE and HIST_WIDTH of the tensor's counter record (R196). -/
def effectHistSet (c : Cmd) (s : State) : CmdOut :=
  okWith 0 (onTensor c s (fun t => { t with counter := t.counter.map (fun r => { r with histBase := c.int 1, histWidth := c.val 2 }) }))

/-- HIST_SET (R196). -/
def execHistSet (rq : Req) (tensor base width : Word) (s : State) : Host.Outcome State Fault Refusal :=
  .next (runRow refuseHistSet effectHistSet 0x60 rq [tensor, base, width] s)

/-- The bytes of a counter record (R199). -/
def counterBytes (id : Nat) (r : Counter) : List Byte :=
  leBytes 8 r.elements ++ leBytes 4 r.zeros ++ leBytes 4 r.flushed ++ leBytes 4 r.saturated ++ leBytes 4 r.nonfinite ++
  leBytes 4 r.amax.toNat ++ leBytes 4 id ++ (upTo 16).flatMap (fun i => leBytes 4 (r.hist.getD i 0)) ++ leBytes 1 (r.histBase % 256).toNat ++
  leBytes 1 r.histWidth ++ leBytes 30 0

/-- The bytes of a gate record (R215). -/
def gateBytes (g : Gate) : List Byte :=
  leBytes 2 g.ctx ++ leBytes 1 (toBit g.group + 2 * toBit g.versionPending) ++ leBytes 1 g.down ++ leBytes 1 g.up ++ leBytes 3 0 ++
  leBytes 4 g.interval ++ leBytes 4 g.clean ++ leBytes 4 (scaleWord g.scaleLog).toNat ++ leBytes 4 g.rowId ++ leBytes 4 g.lastStep ++
  leBytes 1 g.lastDecision ++ leBytes 3 0 ++ leBytes 4 g.lastNf ++ leBytes 4 g.skipsNonfinite ++ leBytes 4 g.skipsVersion ++
  leBytes 4 g.skipsAtFloor ++ leBytes 4 g.partialCount ++ leBytes 4 0 ++ leBytes 8 g.nfAddr

/-- Bytes of a record of a kind (R501). -/
def snapSize (kind : Nat) : Nat := if kind = 0 then 128 else if kind = 1 then 64 else 8

/-- What is wrong with an entry of NUM_SNAPSHOT's list (R501). -/
def snapEntryRc (c : Cmd) (s : State) (kind e : Nat) : Nat :=
  let p := myPart c s
  let judge (present : Bool) (ctx : Nat) : Nat := if !present then rcBadHandle else if owns s c.fn ctx then 0 else rcNotPermitted
  match kind with
  | 0 => let t := s.tensor p e; judge (decide (e < 2 ^ 32) && t.present && t.counter.isSome) t.ctx
  | 1 => let g := s.gate p e; judge (decide (e < 64) && g.present) g.ctx
  | _ =>
    let w := BitVec.ofNat 64 e
    let x := s.ctx (hIdx w)
    judge (objRc w 1 512 (x.mode != .free) x.gen x.part == 0 && x.part == p) (hIdx w)

/-- The record of an entry. -/
def snapRecord (s : State) (p kind e : Nat) : List Byte :=
  match kind with
  | 0 => match (s.tensor p e).counter with | some r => counterBytes e r | none => []
  | 1 => gateBytes (s.gate p e)
  | _ => let k := hIdx (BitVec.ofNat 64 e); leBytes 4 (s.ctx k).nf ++ leBytes 2 k ++ leBytes 2 (ctxTag s k)

/-- A counter record cleared (R198): its bins stay as they are set. -/
def clearCounter (r : Counter) : Counter := { sec := r.sec, histBase := r.histBase, histWidth := r.histWidth }

/-- What the clear of an entry clears (R198, R200, R501). -/
def snapClear (s : State) (p kind e : Nat) : State :=
  match kind with
  | 0 => s.modTensor p e (fun t => { t with counter := t.counter.map clearCounter })
  | 1 => s.modGate p e (fun g => { g with skipsNonfinite := 0, skipsVersion := 0, skipsAtFloor := 0, partialCount := 0 })
  | _ => clearNf s (hIdx (BitVec.ofNat 64 e))

/-- The entries of NUM_SNAPSHOT's list. -/
def numEntries (c : Cmd) (s : State) : List Nat := listArg s (c.arg 1) 8 (c.val 2)

/-- The checks of NUM_SNAPSHOT before its list is read. -/
def numChecks (c : Cmd) (s : State) : List (Bool × Nat) :=
  [rcIf (partRc c s), restZero c 5,
    badIf (decide (2 < c.val 0) || !within 1 65536 (c.val 2) || decide (1 < c.val 4)),
    addrRc c s (c.arg 1) (8 * c.val 2) false, addrRc c s (c.arg 3) (snapSize (c.val 0) * c.val 2) true]

/-- NUM_SNAPSHOT reads its list. -/
def numReads (c : Cmd) (s : State) : List (Word × Nat) := readsAfter (numChecks c s) [(c.arg 1, 8 * c.val 2)]

/-- NUM_SNAPSHOT (R501). -/
def refuseNumSnapshot (c : Cmd) (s : State) : Option Nat :=
  match refusal (numChecks c s ++ [(argPoisoned s (c.arg 1) (8 * c.val 2), rcFaulted)]) with
  | some rc => some rc
  | none => refusal ((numEntries c s).map (fun e => rcIf (snapEntryRc c s (c.val 0) e)))

/-- NUM_SNAPSHOT copies the records in list order, then clears what it is told to (R198, R200, R501). -/
def effectNumSnapshot (c : Cmd) (s : State) : CmdOut :=
  let p := myPart c s
  let es := numEntries c s
  let s := writeArg s c.fn (c.arg 3) 0 ((es.map (snapRecord s p (c.val 0))).flatten)
  okWith (snapSize (c.val 0) * c.val 2) (if c.val 4 = 1 then forEach es s (fun e t => snapClear t p (c.val 0) e) else s)

/-- NUM_SNAPSHOT (R501). -/
def execNumSnapshot (rq : Req) (kind list count dest clear : Word) (s : State) : Host.Outcome State Fault Refusal :=
  .next (runRowWith refuseNumSnapshot numReads effectNumSnapshot 0x61 rq [kind, list, count, dest, clear] s)

/-! ### Gates -/

/-- The values of a gate as GATE_CREATE and GATE_SET take them, from argument 1 on, for a context (R209, R213, R501). -/
def gateChecks (c : Cmd) (s : State) (k : Nat) : List (Bool × Nat) :=
  let t := s.tensor (myPart c s) (c.val 1)
  [badIf (decide (2 ^ 32 ≤ c.val 1)), (!t.present, rcBadHandle),
   badIf (t.ctx != k || t.desc.rank != 1 || t.desc.format != 0x00 || decide (65536 < t.desc.dim0)),
   badIf (decide (c.int 2 < -16) || decide (32 < c.int 2) || !within 1 8 (c.val 3) || decide (8 < c.val 4) ||
     decide (2 ^ 32 ≤ c.val 5)),
   badIf (c.val 6 != 0 && !(c.val 6 % 8 == 0 && inScratchpad s (c.val 6) 8 && readOk s k (c.val 6) 8))]

/-- A gate with those values, its other fields kept. -/
def gateWith (c : Cmd) (g : Gate) : Gate :=
  { g with rowId := c.val 1, scaleLog := c.int 2, down := c.val 3, up := c.val 4, interval := c.val 5, nfAddr := c.val 6,
           group := c.val 6 != 0 }

/-- GATE_CREATE (R501). -/
def refuseGateCreate (c : Cmd) (s : State) : Option Nat :=
  let k := hIdx (c.arg 0)
  refusal (ctxChecks c s (c.arg 0) ++ gateChecks c s k ++
    [((ctxGate s k).isSome, rcExists), ((upTo 64).all (fun g => (s.gate (myPart c s) g).present), rcNoResources)])

/-- GATE_CREATE makes a record with no decision yet, and fills the scale row (R209). -/
def effectGateCreate (c : Cmd) (s : State) : CmdOut :=
  let p := myPart c s
  match pickIndex s 64 (fun g => !(s.gate p g).present) with
  | none => .done rcNoResources 0 s
  | some (i, s) =>
    let g := gateWith c { present := true, ctx := hIdx (c.arg 0) }
    okWith i (writeScaleRow (s.setGate p i g) p g)

/-- GATE_CREATE (R209). -/
def execGateCreate (rq : Req) (ctx row scale down up interval nfAddr : Word) (s : State) : Host.Outcome State Fault Refusal :=
  .next (runRow refuseGateCreate effectGateCreate 0x62 rq [ctx, row, scale, down, up, interval, nfAddr] s)

/-- The checks of a gate that a command names (R501). -/
def gateNamed (c : Cmd) (s : State) (n : Nat) : List (Bool × Nat) :=
  let g := s.gate (myPart c s) (c.val 0)
  [rcIf (partRc c s), restZero c n, badIf (decide (63 < c.val 0)), (!g.present, rcBadHandle), (!owns s c.fn g.ctx, rcNotPermitted),
   (ctxBusy c s g.ctx, rcBusy)]

/-- GATE_SET (R501). -/
def refuseGateSet (c : Cmd) (s : State) : Option Nat :=
  refusal (gateNamed c s 7 ++ gateChecks c s (s.gate (myPart c s) (c.val 0)).ctx)

/-- GATE_SET sets the values and leaves the decision's fields (R209). -/
def effectGateSet (c : Cmd) (s : State) : CmdOut :=
  let p := myPart c s
  let g := gateWith c (s.gate p (c.val 0))
  okWith 0 (writeScaleRow (s.setGate p (c.val 0) g) p g)

/-- GATE_SET (R209). -/
def execGateSet (rq : Req) (gate row scale down up interval nfAddr : Word) (s : State) : Host.Outcome State Fault Refusal :=
  .next (runRow refuseGateSet effectGateSet 0x63 rq [gate, row, scale, down, up, interval, nfAddr] s)

/-- GATE_DESTROY (R501). -/
def refuseGateDestroy (c : Cmd) (s : State) : Option Nat := refusal (gateNamed c s 1)

/-- GATE_DESTROY removes the record. -/
def effectGateDestroy (c : Cmd) (s : State) : CmdOut := okWith 0 (pruneTokens (s.setGate (myPart c s) (c.val 0) {}))

/-- GATE_DESTROY (R377). -/
def execGateDestroy (rq : Req) (gate : Word) (s : State) : Host.Outcome State Fault Refusal :=
  .next (runRow refuseGateDestroy effectGateDestroy 0x64 rq [gate] s)

/-! ### Witness -/

/-- WITNESS_CFG: K from 0 to 16 (R202). -/
def refuseWitnessCfg (c : Cmd) (s : State) : Option Nat :=
  refusal [rcIf (partRc c s), restZero c 4, badIf (decide (1 < c.val 0) || decide (16 < c.val 1) || decide (1 < c.val 3))]

/-- WITNESS_CFG sets the witness of every section of the partition, and its seed (R202, R206). -/
def effectWitnessCfg (c : Cmd) (s : State) : CmdOut :=
  let p := myPart c s
  let s := forEach (maskSecs (s.part p).mask) s (fun n t =>
    let t := t.setFld fNumCfgWitEnable n 0 (c.val 0)
    let t := t.setFld fNumCfgWitK n 0 (c.val 1)
    t.setFld fNumCfgWitHold n 0 (c.val 3))
  okWith 0 (s.modPart p (fun x => { x with wseed := c.arg 2 }))

/-- WITNESS_CFG (R202). -/
def execWitnessCfg (rq : Req) (enable k wseed hold : Word) (s : State) : Host.Outcome State Fault Refusal :=
  .next (runRow refuseWitnessCfg effectWitnessCfg 0x65 rq [enable, k, wseed, hold] s)

/-- The drift pair of an OUT tensor, by its index. -/
def driftIndex (s : State) (p id : Nat) : Option Nat := ((s.part p).drift.find? (fun e => e.2.outId == id)).map (·.1)

/-- DRIFT_PAIR: 256 pairs to a partition (R207). -/
def refuseDriftPair (c : Cmd) (s : State) : Option Nat :=
  let p := myPart c s
  let known (id : Nat) : Bool := (s.tensor p id).present
  refusal [rcIf (partRc c s), restZero c 6,
    badIf ((upTo 5).any (fun i => decide (2 ^ 32 ≤ c.val i)) || decide (1 < c.val 5)),
    (c.val 5 == 1 && (driftIndex s p (c.val 0)).isNone, rcBadHandle),
    (c.val 5 == 0 && (!known (c.val 0) || (c.val 1 != 0 && !known (c.val 1)) || (c.val 2 != 0 && !known (c.val 2))), rcBadHandle),
    (c.val 5 == 0 && (driftIndex s p (c.val 0)).isNone && decide (256 ≤ (s.part p).drift.length), rcNoResources)]

/-- DRIFT_PAIR sets a pair, in place of the OUT tensor's earlier one, or removes it (R207). -/
def effectDriftPair (c : Cmd) (s : State) : CmdOut :=
  let p := myPart c s
  let put (i : Nat) (s : State) : CmdOut :=
    let d : DriftPair := { outId := c.val 0, wideA := c.val 1, wideB := c.val 2, band := (c.arg 3).setWidth 32,
                           floor := (c.arg 4).setWidth 32, ctx := (s.tensor p (c.val 0)).ctx }
    okWith i (s.modPart p (fun x => { x with drift := x.drift.filter (fun e => e.1 != i) ++ [(i, d)] }))
  match driftIndex s p (c.val 0) with
  | some i =>
    if c.val 5 = 1 then okWith i (s.modPart p (fun x => { x with drift := x.drift.filter (fun e => e.1 != i) })) else put i s
  | none => match pickIndex s 256 (fun i => !((s.part p).drift.map (·.1)).contains i) with
    | some (i, s) => put i s
    | none => .done rcNoResources 0 s

/-- DRIFT_PAIR (R207). -/
def execDriftPair (rq : Req) (out wideA wideB band floor remove : Word) (s : State) : Host.Outcome State Fault Refusal :=
  .next (runRow refuseDriftPair effectDriftPair 0x66 rq [out, wideA, wideB, band, floor, remove] s)

/-- OUTLIER_RING: a ring in HBM (R208). -/
def refuseOutlierRing (c : Cmd) (s : State) : Option Nat :=
  refusal [rcIf (partRc c s), restZero c 2, badIf (c.val 1 % 64 != 0 || c.val 1 == 0),
    badIf (isHostAddr (c.arg 0) || !inHbm (argAddr (c.arg 0)) (c.val 1)), addrRc c s (c.arg 0) (c.val 1) true]

/-- OUTLIER_RING sets the partition's ring, empty (R208). -/
def effectOutlierRing (c : Cmd) (s : State) : CmdOut :=
  okWith 0 (s.modPart (myPart c s) (fun x => { x with outlier := some (argAddr (c.arg 0), c.val 1, 0) }))

/-- OUTLIER_RING (R208). -/
def execOutlierRing (rq : Req) (addr len : Word) (s : State) : Host.Outcome State Fault Refusal :=
  .next (runRow refuseOutlierRing effectOutlierRing 0x67 rq [addr, len] s)

/-! ### Record and replay -/

/-- A log's place: device HBM, 1 MiB to 64 GB (R264). -/
def logPlace (c : Cmd) : Bool :=
  !isHostAddr (c.arg 1) && c.val 1 % 8 == 0 && within (2 ^ 20) 64000000000 (c.val 2) && inHbm (c.val 1) (c.val 2)

/-- RPL_RECORD (R263, R264). -/
def refuseRplRecord (c : Cmd) (s : State) : Option Nat :=
  refusal (ctxChecks c s (c.arg 0) ++
    [restZero c 4, badIf (decide (1 < c.val 3) || !logPlace c),
     badIf (logPlace c && !writeOk s (hIdx (c.arg 0)) (c.val 1) (c.val 2)),
     ((s.ctx (hIdx (c.arg 0))).log.isSome, rcBadState)])

/-- RPL_RECORD starts a log (R263). -/
def effectRplRecord (c : Cmd) (s : State) : CmdOut :=
  let g : Log := ⟨c.val 1, c.val 2, 0, 0, c.val 3 == 1, false⟩
  okWith 0 (s.modCtx (hIdx (c.arg 0)) (fun x => { x with log := some g }))

/-- RPL_RECORD (R263). -/
def execRplRecord (rq : Req) (ctx addr len payload : Word) (s : State) : Host.Outcome State Fault Refusal :=
  .next (runRow refuseRplRecord effectRplRecord 0x68 rq [ctx, addr, len, payload] s)

/-- RPL_MARK: up to 64 marks, a tally and a tensor of the context, with CHECKSUM (R266). -/
def refuseRplMark (c : Cmd) (s : State) : Option Nat :=
  let k := hIdx (c.arg 0)
  let t := s.tensor (myPart c s) (c.val 2)
  refusal (ctxChecks c s (c.arg 0) ++
    [restZero c 4, rcIf (tallyRc c s (c.arg 1)), rcIf (tensorRc c s (c.val 2)), badIf (!within 1 65535 (c.val 3)),
     badIf ((s.tally (hIdx (c.arg 1))).ctx != k || t.ctx != k), (!t.desc.checksum, rcBadState),
     (decide (64 ≤ (s.ctx k).marks.length), rcNoResources)])

/-- RPL_MARK sets a mark and answers its number (R266). -/
def effectRplMark (c : Cmd) (s : State) : CmdOut :=
  let k := hIdx (c.arg 0)
  let n := (s.ctx k).marks.length
  okWith n (s.modCtx k (fun x => { x with marks := x.marks ++ [⟨n, hIdx (c.arg 1), c.val 2, c.val 3, 0⟩] }))

/-- RPL_MARK (R266). -/
def execRplMark (rq : Req) (ctx tally tensor n : Word) (s : State) : Host.Outcome State Fault Refusal :=
  .next (runRow refuseRplMark effectRplMark 0x69 rq [ctx, tally, tensor, n] s)

/-- A record of a host write or a link message without its payload (R264, R267). -/
def payloadMissing (r : List Byte) : Bool :=
  (fieldAt r 0 1 == 3 || fieldAt r 0 1 == 4) && fieldAt r 48 4 != 0 && bitsAt r 1 1 0 0 == 0

/-- RPL_REPLAY: a context just created, and a log that carries its payloads (R267). -/
def refuseRplReplay (c : Cmd) (s : State) : Option Nat :=
  let k := hIdx (c.arg 0)
  refusal (ctxChecks c s (c.arg 0) ++
    [restZero c 3, badIf (!logPlace c), badIf (logPlace c && !inPartition s (myPart c s) (c.val 1) (c.val 2)),
     ((s.ctx k).replay.isSome || s.work.slots.any (fun e => e.2.loaded && e.2.ctx == k) ||
       !(ctxQueues s k).isEmpty, rcBadState),
     (logPlace c && (logRecs s (c.val 1) (c.val 2) (c.val 2 / 64) 0).any (fun e => payloadMissing e.2), rcBadState)])

/-- RPL_REPLAY starts the replay; it publishes when the last record has been delivered (R267, R268). -/
def effectRplReplay (c : Cmd) (s : State) : CmdOut :=
  let k := hIdx (c.arg 0)
  let p := myPart c s
  let s := (s.setFld fRplLogDiverged p 0 0).setRaw ⟨.rplDiverge, p, 0⟩ 0
  .wait (.rplReplay k) (s.modCtx k (fun x => { x with replay := some ⟨c.val 1, c.val 2, 0, 0, true, false⟩ }))

/-- RPL_REPLAY (R267). -/
def execRplReplay (rq : Req) (ctx addr len : Word) (s : State) : Host.Outcome State Fault Refusal :=
  .next (runRow refuseRplReplay effectRplReplay 0x6A rq [ctx, addr, len] s)

end Sys2Proof.Machine
end

