-- ==== Sys2Proof/Machine/CmdMgmt.lean ====
section
/-! DEFINITION. Test, power, limits and telemetry under Caoco, and the command timeout (R165, R253, R315, R372, R377, R432, R436,
R448, R449, R453, R461, R483, R501): GRAVEL_CFG, AUTUMN_RUN, POWER_CAP, LIMITS, TELEMETRY, HEALTH, ESCALATION,
COMMAND_TIMEOUT. -/

namespace Sys2Proof.Machine

/-- GRAVEL_CFG: a period of 1 to 3,600 s, corners of R456 (R453). -/
def refuseGravelCfg (c : Cmd) (_ : State) : Option Nat :=
  refusal [rcIf (pfRc c), restZero c 2, badIf (!within 1 3600 (c.val 0) || decide (31 < c.val 1))]

/-- GRAVEL_CFG sets period and corners in every section (R453, R459). -/
def effectGravelCfg (c : Cmd) (s : State) : CmdOut :=
  okWith 0 (forEach (upTo 8) s (fun n t =>
    (t.setFld fHltGravelCfgPeriod n 0 (c.val 0)).setFld fHltGravelCfgCorners n 0 (c.val 1)))

/-- GRAVEL_CFG (R453). -/
def execGravelCfg (rq : Req) (period corners : Word) (s : State) : Host.Outcome State Fault Refusal :=
  .next (runRow refuseGravelCfg effectGravelCfg 0x70 rq [period, corners] s)

/-- AUTUMN_RUN: sections that belong to no partition and are not under test (R377). -/
def refuseAutumnRun (c : Cmd) (s : State) : Option Nat :=
  refusal [rcIf (pfRc c), restZero c 1, badIf (c.val 0 == 0 || decide (255 < c.val 0)),
    ((maskSecs (c.val 0)).any (fun n => (secPart s n).isSome), rcBadState), (!(testing s (c.val 0)).isEmpty, rcBusy)]

/-- AUTUMN_RUN starts the test of every block in its sections (R448, R449). -/
def effectAutumnRun (c : Cmd) (s : State) : CmdOut :=
  .wait (.autumnRun (c.val 0) 0) (startAutumn s 5 (c.val 0) allBlocks)

/-- AUTUMN_RUN (R449). -/
def execAutumnRun (rq : Req) (mask : Word) (s : State) : Host.Outcome State Fault Refusal :=
  .next (runRow refuseAutumnRun effectAutumnRun 0x71 rq [mask] s)

/-- POWER_CAP: 1,500 to 4,400 W (R461). -/
def refusePowerCap (c : Cmd) (_ : State) : Option Nat := refusal [rcIf (pfRc c), restZero c 1, badIf (!within 1500 4400 (c.val 0))]

/-- POWER_CAP: the new cap applies from the next control period (R461). -/
def effectPowerCap (c : Cmd) (s : State) : CmdOut := okWith 0 { s with power := { s.power with pendingHostCap := some (c.val 0) } }

/-- POWER_CAP (R461). -/
def execPowerCap (rq : Req) (watts : Word) (s : State) : Host.Outcome State Fault Refusal :=
  .next (runRow refusePowerCap effectPowerCap 0x72 rq [watts] s)

/-- LIMITS: each value zero or inside its range (R501). -/
def refuseLimits (c : Cmd) (s : State) : Option Nat :=
  let out (i lo hi : Nat) : Bool := c.val i != 0 && !within lo hi (c.val i)
  refusal [rcIf (partRc c s), restZero c 3, badIf (out 0 1000 10000000 || out 1 1000 10000000 || out 2 1 60000)]

/-- LIMITS: a zero leaves its limit (R165, R253, R315, R501). -/
def effectLimits (c : Cmd) (s : State) : CmdOut :=
  let p := myPart c s
  let s := forEach (maskSecs (s.part p).mask) s (fun n t =>
    let t := if c.val 0 = 0 then t else forEach (upTo 12) t (fun k u => u.setFld fCoreWdogWaitLimit n k (c.val 0))
    if c.val 1 = 0 then t else t.setFld fCollWaitWaitLimit n 0 (c.val 1))
  okWith 0 (if c.val 2 = 0 then s else s.modPart p (fun x => { x with holdLimitMs := c.val 2 }))

/-- LIMITS (R501). -/
def execLimits (rq : Req) (coreWait collWait hold : Word) (s : State) : Host.Outcome State Fault Refusal :=
  .next (runRow refuseLimits effectLimits 0x73 rq [coreWait, collWait, hold] s)

/-! ### TELEMETRY and HEALTH -/

/-- The power record (R483). -/
def powerRecord (s : State) : List Byte :=
  leBytes 8 s.now ++ leBytes 2 (s.fld fPwrStatusInputW 0 0) ++ leBytes 2 (s.fld fPwrStatusInputMv 0 0) ++
  leBytes 2 (s.fld fPwrStatusCapW 0 0) ++ leBytes 1 (s.fld fPwrStatusCapSource 0 0) ++
  leBytes 1 (s.fld fPwrStatusCapUnmet 0 0 + 2 * s.fld fPwrStatusEmergency 0 0) ++ leBytes 8 (s.fld fPwrEnergyEnergyMj 0 0) ++
  ((upTo 8).map (fun n => leBytes 2 (s.fld fPwrSectionPowerW n 0) ++ leBytes 1 (powerLevel s n) ++
    leBytes 1 (heatLevel s n) ++ leBytes 4 (s.fld fPwrSectionHeldFrames n 0))).flatten ++ leBytes 8 0

/-- The thermal record (R483). -/
def thermalRecord (s : State) : List Byte :=
  leBytes 8 s.now ++ ((upTo 20).map (fun j => leBytes 8 (s.raw ⟨.thmSensor, 0, j⟩).toNat)).flatten ++
  ((upTo 24).map (fun g => leBytes 1 (s.fld fHbmStatusTemp (g / 3) (g % 3)))).flatten

/-- The clock record (R483). -/
def clockRecord (s : State) : List Byte :=
  leBytes 8 s.now ++ leBytes 2 (s.fld fClkStatusRootMhz 0 0) ++ leBytes 1 (s.fld fClkStatusLevel 0 0) ++
  leBytes 1 (s.fld fClkStatusSlewing 0 0 + 2 * toBit ((upTo 8).any (fun p => (s.part p).present && (s.part p).winter))) ++
  leBytes 4 s.power.levelChanges ++ leBytes 16 0

/-- The record of a kind, and its bytes. -/
def telemetryRecord (s : State) (kind : Nat) : List Byte :=
  if kind = 0 then powerRecord s else if kind = 1 then thermalRecord s else clockRecord s
def telemetryBytes (kind : Nat) : Nat := if kind = 0 then 96 else if kind = 1 then 192 else 32

/-- TELEMETRY. -/
def refuseTelemetry (c : Cmd) (s : State) : Option Nat :=
  refusal [restZero c 2, badIf (decide (2 < c.val 0)), addrRc c s (c.arg 1) (telemetryBytes (c.val 0)) true]

/-- TELEMETRY writes the record (R483). -/
def effectTelemetry (c : Cmd) (s : State) : CmdOut :=
  okWith (telemetryBytes (c.val 0)) (writeArg s c.fn (c.arg 1) 0 (telemetryRecord s (c.val 0)))

/-- TELEMETRY (R483). -/
def execTelemetry (rq : Req) (kind addr : Word) (s : State) : Host.Outcome State Fault Refusal :=
  .next (runRow refuseTelemetry effectTelemetry 0x74 rq [kind, addr] s)

/-- The record of the health scores (R436). -/
def healthRecord (s : State) : List Byte :=
  let us := upTo 193
  let at_ (l : Nat) : Nat := (us.filter (fun u => healthLevel s u == l)).length
  leBytes 4 193 ++ leBytes 4 (at_ 1) ++ leBytes 4 (at_ 2) ++ leBytes 4 (at_ 3) ++ leBytes 8 s.now ++ leBytes 8 0 ++
  (us.map (fun u => let h := s.health u
    leBytes 1 (huClass u).1 ++ leBytes 1 (huClass u).2 ++ leBytes 1 (healthLevel s u) ++ leBytes 1 h.lastEvent ++
    leBytes 4 h.score ++ leBytes 4 h.events ++ leBytes 4 0)).flatten

/-- HEALTH. -/
def refuseHealth (c : Cmd) (s : State) : Option Nat :=
  refusal [rcIf (pfRc c), restZero c 1, addrRc c s (c.arg 0) 3120 true]

/-- HEALTH writes the header and the entries (R436). -/
def effectHealth (c : Cmd) (s : State) : CmdOut := okWith 3120 (writeArg s c.fn (c.arg 0) 0 (healthRecord s))

/-- HEALTH (R436). -/
def execHealth (rq : Req) (addr : Word) (s : State) : Host.Outcome State Fault Refusal :=
  .next (runRow refuseHealth effectHealth 0x75 rq [addr] s)

/-! ### ESCALATION and the timeout -/

/-- ESCALATION (R432). -/
def refuseEscalation (c : Cmd) (_ : State) : Option Nat :=
  refusal [rcIf (pfRc c), restZero c 3, badIf (!within 1 16 (c.val 0) || !within 1 1024 (c.val 1) || !within 60 86400 (c.val 2))]

/-- ESCALATION sets the limits and the window; counted events stay (R432). -/
def effectEscalation (c : Cmd) (s : State) : CmdOut :=
  let s := s.setFld fFltEscCfgPartLimit 0 0 (c.val 0)
  let s := s.setFld fFltEscCfgCtxLimit 0 0 (c.val 1)
  okWith 0 (s.setFld fFltEscCfgWindow 0 0 (c.val 2))

/-- ESCALATION (R432). -/
def execEscalation (rq : Req) (partLimit ctxLimit window : Word) (s : State) : Host.Outcome State Fault Refusal :=
  .next (runRow refuseEscalation effectEscalation 0x76 rq [partLimit, ctxLimit, window] s)

/-- COMMAND_TIMEOUT (R372): an unpublished command that has not been answered within its bound publishes TIMEOUT. -/
def execCommandTimeout (fn : Fn) (via : Via) (s : State) : Host.Outcome State Fault Refusal :=
  .next (match s.host.commands.find? (fun p => p.fn == fn.val && p.via == via) with
    | some p => publishOne s p rcTimeout 0
    | none => s)

end Sys2Proof.Machine
end

