-- ==== Sys2Proof/Machine/Start.lean ====
section
/-! DEFINITION. Module resets, the start paths, staged power grants, the Autumn test, orderly shut-down and the supply contacts
(R420, R430, R431, R440 to R452, R474, R488 to R492), and the hourly decay of health scores (R435). -/

namespace Sys2Proof.Machine

/-! ### Module reset (R420) -/

/-- The image passes the checks of R474. -/
def imageGood (f : Flash) (i : FwImage) : Bool :=
  i.signatureOk && (match i.keySlot with | some k => !bitOf f.revoked.toNat k.val | none => false) &&
  decide (f.minSvn ≤ i.svn) && decide (i.svn ≤ 63)

/-- A staged image becomes the active one at a module reset, and raises the fused minimum (R475). -/
def activate (f : Flash) : Flash :=
  match f.fwStaged with
  | some i => { f with fwActive := some i, fwStaged := none, minSvn := max f.minSvn i.svn }
  | none => f

/-- The module with everything cleared but flash, host memory and what only the model holds; the registers that R439, R459 and
R484 keep are set from flash, HBM reads zero (R420, R504). -/
def cleared (s : State) (m : Module) (cause : Nat) : State :=
  let f := activate { s.flash with moduleResets := min (s.flash.moduleResets + 1) 65535 }
  let fresh : State :=
    { module := m, flash := f, hostMem := s.hostMem, out := s.out, freeCtr := s.freeCtr, pending := s.pending,
      care := { health := f.health, results := if f.recordValid then f.autumn else [] },
      security := { randomCtr := s.security.randomCtr, starts := s.security.starts + 1 } }
  (fresh.setFld fFltStatusLastResetCause 0 0 cause).setFld fFltStatusLastPath 0 0 f.lastPath

/-- Reset release (R440, R446, R474): the root PLL locks, the firmware image is verified, the control die has its grant. -/
def resetRelease (s : State) : State :=
  let ok := match s.flash.fwActive with | some i => imageGood s.flash i | none => false
  let s := { s with module := { s.module with perstAsserted := false, released := true, fwVerified := ok, grants := 1,
                                              grantedW := 60 },
                    security := { s.security with tapDrives := s.security.tapDrives && !ok } }
  s.setFld fClkStatusLocked 0 0 1

/-- A module reset with PERST_N released: the start begins at once. -/
def moduleReset (s : State) (cause : Nat) : State :=
  resetRelease (cleared s { perstAsserted := false, pwrOffOk := s.module.pwrOffOk } cause)

/-- The module can be reset by a cause other than PERST_N: it is out of reset and its rails are on. -/
def running (s : State) : Bool := s.alive && !s.module.perstAsserted

/-- PERST_N_ASSERT (R489): a module reset, unless a shut-down has been completed; reset lasts until the release. -/
def execPerstNAssert (s : State) : Host.Outcome State Fault Refusal :=
  .next (if !s.module.powered || s.module.perstAsserted then s
    else if s.module.shutDownDone || s.module.off then { s with module := { s.module with perstAsserted := true } }
    else cleared s { perstAsserted := true, pwrOffOk := s.module.pwrOffOk } 1)

/-- PERST_N_RELEASE (R488, R491): reset release; PWR_OFF_OK is driven low again. -/
def perstReleaseOp (s : State) : State :=
  if !s.module.powered || !s.module.perstAsserted || s.module.off then s
  else
    let s := if s.module.shutDownDone then cleared s { perstAsserted := true } 1 else s
    resetRelease { s with module := { s.module with pwrOffOk := false } }

/-- PERST_N_RELEASE (R488). -/
def execPerstNRelease (s : State) : Host.Outcome State Fault Refusal := .next (perstReleaseOp s)

/-- HOT_RESET (R420). -/
def execHotReset (s : State) : Host.Outcome State Fault Refusal := .next (if running s then moduleReset s 2 else s)

/-- A write of RESET_KEY (R439): 0xD1CE starts a module reset, other values are ignored. BAR0 decodes once configuration space
is ready (R444). -/
def resetKeyOp (value : Half) (s : State) : State :=
  if running s && s.module.cfgReady && value == 0xD1CE then moduleReset s 3 else s

/-- RESET_KEY_WRITE (R420). -/
def execResetKeyWrite (value : Half) (s : State) : Host.Outcome State Fault Refusal := .next (resetKeyOp value s)

/-- An entry in the fault history in flash (R431, R433). -/
def noteHistory (s : State) (code : Nat) : State := { s with flash := { s.flash with history := s.flash.history ++ [code] } }

/-- LAST_RESET_CAUSE of a module-fatal cause (R439). -/
def fatalCode : ModFatal → Nat
  | .icvarSram => 5
  | .controlLogic => 6
  | .pllLock => 7

/-- A module-fatal cause resets the module; an Icvar SRAM error is entered in the fault history and scored (R421, R431,
R434). -/
def moduleFatalOp (cause : ModFatal) (s : State) : State :=
  if !running s then s
  else match cause with
    | .icvarSram => healthEvent (moduleReset (noteHistory s 5) 5) huIcvar 12 500
    | _ => moduleReset s (fatalCode cause)

/-- MODULE_FATAL (R421). -/
def execModuleFatal (cause : ModFatal) (s : State) : Host.Outcome State Fault Refusal := .next (moduleFatalOp cause s)

/-- ICVAR_WATCHDOG (R430, R431, R434, R439). -/
def icvarWatchdogOp (s : State) : State :=
  if running s && s.module.fwVerified then
    let s := noteHistory s 4
    let s := { s with flash := { s.flash with icvarFired := min (s.flash.icvarFired + 1) 65535 } }
    healthEvent (moduleReset s 4) huIcvar 16 2000
  else s

/-- ICVAR_WATCHDOG (R430). -/
def execIcvarWatchdog (s : State) : Host.Outcome State Fault Refusal := .next (icvarWatchdogOp s)

/-- POWER_APPLIED (R488, R491): the rails rise with PERST_N asserted; PWR_OFF_OK is low. -/
def execPowerApplied (s : State) : Host.Outcome State Fault Refusal :=
  .next (if s.module.powered then s else cleared s { perstAsserted := true } 0)

/-- POWER_REMOVED (R489, R491): the module is off; nothing of it drives PWR_OFF_OK or THERM_TRIP_N, and only flash keeps its
contents. -/
def execPowerRemoved (s : State) : Host.Outcome State Fault Refusal :=
  .next (if !s.module.powered then s
    else { flash := s.flash, module := { powered := false }, hostMem := s.hostMem, out := s.out, freeCtr := s.freeCtr,
           pending := s.pending, security := { randomCtr := s.security.randomCtr, starts := s.security.starts } })

/-! ### The start record and the start paths (R440 to R442) -/

/-- MODULE_STATE (R439). -/
def moduleState (s : State) : Nat := s.fld fFltStatusModuleState 0 0

/-- The module is starting and Icvar runs. -/
def starting (s : State) : Bool := running s && s.module.fwVerified && moduleState s == 2 && !s.module.shutting

/-- The start record is written, with the sections' Autumn results and the stacks' trained values (R442). -/
def putRecord (s : State) (orderly : Bool) : State :=
  let trained := s.module.trainedNow.foldl (fun t e => tabSet {} t e.1 e.2) s.flash.trained
  { s with flash := { s.flash with recordValid := true, sequence := s.flash.sequence + 1, orderly := orderly,
                                   autumn := s.care.results, trained := trained } }

/-- The start path (R440) as FULL_REASON: 0 for the quick path (R459). -/
def pathReason (s : State) (strap : Bool) : Nat :=
  let cause := s.fld fFltStatusLastResetCause 0 0
  if strap then 1
  else if cause = 4 ∨ cause = 5 then 0
  else if !s.flash.recordValid then 2
  else if cause = 6 ∨ cause = 7 then 3
  else if cause = 0 ∧ !s.flash.orderly then 4
  else 0

/-- A section is tested on the quick path: its last result is absent, mismatched or older than 720 operating hours (R440). -/
def needsTest (s : State) (n : Nat) : Bool :=
  let r := s.autumnResult n
  !r.valid || r.result != 1 || decide (720 < s.flash.hours - r.hour)

/-- The start path is chosen (R440, R459). -/
def startPathOp (fullStartN : Bool) (s : State) : State :=
  if !starting s || s.module.pathChosen then s
  else
    let reason := pathReason s (!fullStartN)
    let full := reason != 0
    let path := if full then 2 else 1
    let secs := if full then upTo 8 else (upTo 8).filter (needsTest s)
    let s := { s with module := { s.module with pathChosen := true, full := full },
                      flash := { s.flash with lastPath := path } }
    let s := (s.setFld fFltStatusLastPath 0 0 path).setFld fFltStartFullReason 0 0 reason
    let s := s.setFld fFltStartSectionsTested 0 0 (maskOf secs)
    startAutumn s (if full then 1 else 2) (maskOf secs) (if full then allBlocks else coreBlocks)

/-- START_PATH_CHOICE (R440). -/
def execStartPathChoice (fullStartN : Bool) (s : State) : Host.Outcome State Fault Refusal :=
  .next (startPathOp fullStartN s)

/-- CONFIG_SPACE_READY (R443). -/
def execConfigSpaceReady (s : State) : Host.Outcome State Fault Refusal :=
  .next (if running s then { s with module := { s.module with cfgReady := true } } else s)

/-! ### Power grants and staged training (R446, R447, R69) -/

/-- The links of group k. -/
def groupLinks (k : Nat) : List Nat := (upTo 8).map (fun n => 8 * n + k)

/-- A link group starts (R447): its links train, on the full path after near-end loop-back. -/
def startGroup (s : State) (k : Nat) : State :=
  forEach (groupLinks k) s (fun l t =>
    let t := t.modLink l (fun x => { x with groupStarted := true, startLoop := t.module.full })
    if t.module.full then
      ((setLinkState t l 8).setFld fLnkLoopMode (l / 8) (l % 8) 1).setFld fLnkLoopStart (l / 8) (l % 8) 1
    else setLinkState t l 1)

/-- Every stack's interface is trained. -/
def allTrained (s : State) : Bool := (upTo 24).all (hbmTrained s)

/-- The power of grant `k`, counted from 1, and whether it may be made now (R446). -/
def grantOf (s : State) (k : Nat) : Nat × Bool :=
  if k < 10 then (90, s.module.pathChosen)
  else if k < 18 then (34, s.module.pathChosen)
  else (30, s.module.pathChosen && (s.module.full || allTrained s))

/-- The next staged grant is made (R446, R447). -/
def powerGrantOp (s : State) : State :=
  let k := s.module.grants + 1
  let (w, ok) := grantOf s k
  if !starting s || decide (25 < k) || !ok then s
  else
    let s := { s with module := { s.module with grants := k, grantedW := s.module.grantedW + w } }
    if within 10 17 k then startGroup s (k - 10) else s

/-- POWER_GRANT (R446). -/
def execPowerGrant (s : State) : Host.Outcome State Fault Refusal := .next (powerGrantOp s)

/-- The stored values of a stack may be used (R69). -/
def restores (s : State) (g : Nat) (identity : Word32) (temp : Byte) (readBackOk : Bool) : Bool :=
  let v := tabGet {} s.flash.trained g
  !s.module.full && v.valid && v.identity == identity && decide (temp.toNat ≤ v.temp + 15) &&
  decide (v.temp ≤ temp.toNat + 15) && readBackOk

/-- RATE of a stack after this start (R51, R377): STACK_RATE applies at a full start. -/
def rateOf (s : State) (g : Nat) : Nat :=
  if s.module.full then toBit (s.flash.rateAllowed.getLsbD g && Config.stack10G.getLsbD g)
  else (tabGet ({} : Trained) s.flash.trained g).rate

/-- A stack's training, or the restore of its values, ends (R69, R434, R459); restored values keep the temperature stored with
them. -/
def stackTrainedOp (g : Nat) (identity : Word32) (temp : Byte) (readBackOk : Bool) (s : State) : State :=
  if !starting s || hbmTrained s g || decide (s.module.grants < 2 + g / 3) then s
  else
    let ok := restores s g identity temp readBackOk
    let failed := !s.module.full && (tabGet ({} : Trained) s.flash.trained g).valid && !ok
    let i := g / 3
    let j := g % 3
    let rate := rateOf s g
    let kept := if ok then (tabGet ({} : Trained) s.flash.trained g).temp else temp.toNat
    let s := s.setTrainedNow g { valid := true, identity := identity, temp := kept, rate := rate }
    let s := (s.setFld fHbmStatusTrained i j 1).setFld fHbmStatusTrainSrc i j (if ok then 1 else 2)
    let s := (s.setFld fHbmStatusRate i j rate).setFld fHbmStatusTemp i j temp.toNat
    let s := if ok then s else s.bump fFltStartStacksRetrained 0 0 1
    if failed then healthEvent s (huStack g) 7 50 else s

/-- STACK_TRAINING_DONE (R69). -/
def execStackTrainingDone (g : StackId) (identity : Word32) (temp : Byte) (readBackOk : Bool) (s : State) :
    Host.Outcome State Fault Refusal := .next (stackTrainedOp g.val identity temp readBackOk s)

/-! ### The Autumn test (R448 to R451) -/

/-- Points for a mismatched result (R434, R450): blocks 0 to 5 count against every core of the section, others against the
section. -/
def autumnPoints (s : State) (n failed : Nat) : State :=
  let s := if failed % 64 ≠ 0 then forEach (spanOf (12 * n) 12) s (fun k t => healthEvent t (huCore k) 18 10000) else s
  if failed / 64 ≠ 0 then healthEvent s (huSection n) 18 10000 else s

/-- The links of a section come out of the loop-back of block 15 and train again (R449). -/
def relinkSection (s : State) (n : Nat) : State :=
  forEach (secLinks n) s (fun l t =>
    if linkState t l = 7 then t else
      let t := goDown t l
      if linkAlive t l then setLinkState t l 1 else t)

/-- Shut-down ends: record with ORDERLY set, scores in flash, readiness signalled (R435, R452, R491). -/
def endShutDown (s : State) : State :=
  let s := putRecord s true
  { s with flash := { s.flash with health := s.care.health },
           module := { s.module with shutDownDone := true, pwrOffOk := true } }

/-- What follows when a section's test has ended, by who asked for it (R389, R449, R450, R452). -/
def afterAutumn (s : State) (source n : Nat) (good : Bool) : State :=
  match source with
  | 3 => if (testing s 255).isEmpty then endShutDown s else s
  | 4 =>
    (match secPart s n with
     | some p =>
       let s := s.modPart p (fun x => { x with mismatch := x.mismatch || !good })
       if (testing s (s.part p).mask).isEmpty && (s.part p).stage == .testing then
         putRecord (s.modPart p (fun x => { x with stage := .scrubbing })) s.flash.orderly
       else s
     | none => s)
  | 5 =>
    let note (p : PendCmd) : PendCmd := match p.kind with
      | .autumnRun mask m => if bitOf mask n && good then { p with kind := .autumnRun mask (m ||| 2 ^ n) } else p
      | _ => p
    let s := { s with host := { s.host with commands := s.host.commands.map note } }
    settle (putRecord s s.flash.orderly)
  | _ => s

/-- The section's test ends: its result is held, points are added, its blocks are re-initialised (R449, R450). -/
def endAutumn (s : State) (n : Nat) (r : AutumnRun) : State :=
  let good := r.failed == 0
  let s := grantTest (s.setAutumn n none)
  let s := s.setAutumnResult n
    { valid := true, result := if good then 1 else 2, transient := r.transient, source := r.source, temp := r.temp,
      failed := r.failed, hour := s.flash.hours }
  let s := clearLoam (resetSectionRegs (clearUnits s n) n) n
  afterAutumn (autumnPoints s n r.failed) r.source n good

/-- A block of a section's Autumn test ends with its signature, and that of the second run where the first differed (R448,
R450). Blocks 0 to 12 run on one pair of sections at a time, block 13 after them on all tested sections, once the section's stacks are
trained; blocks 14 and 15 alongside (R451). -/
def autumnBlockOp (n block : Nat) (signature again : Word32) (temp : Byte) (s : State) : State :=
  match s.autumn n with
  | none => s
  | some r =>
    if !r.left.contains block || (decide (block ≤ 12) && !(corePair s).contains n) ||
        (block == 13 && !((spanOf (3 * n) 3).all (hbmTrained s) && coreDone s r)) then s
    else
      let want := Config.autumnSignature n block
      let first := signature == want
      let good := first || again == want
      let r := { r with left := r.left.erase block, failed := if good then r.failed else r.failed ||| 2 ^ block,
                        transient := r.transient || (!first && good), temp := temp.toNat }
      let s := grantTest (s.setAutumn n (some r))
      let s := if block = 13 then clearHbm s n else s
      let s := if block = 9 && good then s.setFld fNumCfgWitOffline n 0 0 else s
      let s := if block = 15 && r.source ≠ 1 then relinkSection s n else s
      if r.left.isEmpty then endAutumn s n r else s

/-- AUTUMN_BLOCK_DONE (R450). -/
def execAutumnBlockDone (sec : Sec) (block : Fin 16) (signature again : Word32) (temp : Byte) (s : State) :
    Host.Outcome State Fault Refusal := .next (autumnBlockOp sec.val block.val signature again temp s)

/-! ### Operation and shut-down (R442, R452) -/

/-- Nothing of the start is left to do: the path chosen, every grant made, every stack trained, no test running,
configuration space ready (R440, R446). -/
def startDone (s : State) : Bool :=
  starting s && s.module.pathChosen && s.module.cfgReady && decide (25 ≤ s.module.grants) && allTrained s &&
  (testing s 255).isEmpty

/-- The module becomes operational (R440, R442, R444). -/
def operationalOp (s : State) : State :=
  if !startDone s then s
  else
    let s := putRecord s false
    let s := s.setFld fFltStatusModuleState 0 0 1
    let s := s.setFld fFltStartDuration 0 0 (min (s.now / 1000) (2 ^ 32 - 1))
    forEach ((upTo 64).filter (fun l => linkState s l == 2)) s (fun l t => sendKind t l 1)

/-- MODULE_OPERATIONAL (R442). -/
def execModuleOperational (s : State) : Host.Outcome State Fault Refusal := .next (operationalOp s)

/-- Abort a context with the epoch of its group (R428, R452). -/
def abortNow (s : State) (c : Nat) : State :=
  abortCtx s c (match (s.ctx c).group with | some g => (s.group g).epoch | none => 0) true

/-- A partition is emptied, reset, scrubbed where it is sealed, and destroyed, all at once (R452 steps 2 and 3). -/
def destroyAtOnce (s : State) (p : Nat) : State :=
  let s := forEach (partCtxs s p) s (fun c t => abortNow t c)
  let s := forEach (maskSecs (s.part p).mask) s (fun n t => clearUnits t n)
  let s := forEach (partCtxs s p) s (fun c t => if (t.ctx c).mode == .draining then t else teardownCtx t c)
  let s := forEach (partCtxs s p) s (fun c t => freeCtx t c)
  let s := partResetOp s p
  let s := if (s.part p).isSealed then appendHandover (scrubPart s p) (handoverRecord s p 2) else s
  freePart s p

/-- An orderly shut-down is requested (R445, R452, R492): during a start it ends the start, without a record; while the module
is operational every context is aborted, every partition destroyed, and the Autumn test runs on all sections. -/
def shutDownOp (pldm : Bool) (s : State) : State :=
  let state := moduleState s
  let answer (a : MgmtAnswer) (t : State) : State := if pldm then { t with out := { t.out with mgmt := a } } else t
  if !running s || s.module.shutting then answer .rejected s
  else if state = 2 then
    if pldm then answer .notReady s
    else
      let s := { s with module := { s.module with shutting := true, pwrOffOk := true } }
      let s := grantTest (forEach (upTo 8) s (fun n t => t.setAutumn n none))
      s.setFld fFltStatusModuleState 0 0 3
  else if state = 1 then
    let s := { s with module := { s.module with shutting := true } }
    let s := s.setFld fFltStatusModuleState 0 0 3
    let s := forEach ((upTo 8).filter (fun p => (s.part p).present)) s (fun p t => destroyAtOnce t p)
    answer .accepted (startAutumn s 3 255 allBlocks)
  else answer .rejected s

/-- SHDN_REQ (R452). -/
def execShdnReq (pldm : Bool) (s : State) : Host.Outcome State Fault Refusal := .next (shutDownOp pldm s)

/-! ### Health decay (R435) -/

/-- Each hour every score loses floor(score / 243), the scores go to flash, and the operating hours are counted (R435, R442). -/
def healthDecayOp (s : State) : State :=
  if !running s then s
  else
    let h := (s.care.health.map (fun e => (e.1, { e.2 with score := e.2.score - e.2.score / 243 }))).filter (fun e => e.2 != {})
    { s with care := { s.care with health := h }, flash := { s.flash with health := h, hours := s.flash.hours + 1 } }

/-- HEALTH_DECAY (R435). -/
def execHealthDecay (s : State) : Host.Outcome State Fault Refusal := .next (healthDecayOp s)

end Sys2Proof.Machine
end

