-- ==== Sys2Proof/Machine/Mailbox.lean ====
section
/-! DEFINITION. Mailboxes (R338 to R343, R366, R367, R370, R384) and the table of Caoco's opcodes (R377): MBX_IN_DEPOSIT,
MAILBOX_TAKE, MBX_OUT_POST, MBX_OUT_ACK. -/

namespace Sys2Proof.Machine

/-! ### Who answers -/

/-- A function answers memory requests (R337, R356, R444): the module's configuration space is ready, the function exists, is not
in a function-level reset, and is no TDI in ERROR. -/
def answers (s : State) (f : Nat) : Bool :=
  running s && s.module.cfgReady && (s.fn f).mode != .absent && (s.fn f).mode != .resetting && (s.fn f).tdi != .error

/-- Icvar takes words and posts them: its firmware runs. -/
def icvarRuns (s : State) : Bool := running s && s.module.cfgReady && s.module.fwVerified

/-! ### The opcodes -/

/-- A command's own checks, and its effect. -/
abbrev CmdRow := (Cmd → State → Option Nat) × (Cmd → State → CmdOut)

/-- A block carries QUEUE_CREATE's eight arguments in its seven fields: ARG5 holds the vector in bits 7:0 and the bound function
above, ARG6 the context. -/
def unpackQueueCreate (c : Cmd) : Cmd :=
  { c with args := c.args.take 5 ++ [BitVec.ofNat 64 (c.val 5 % 256), BitVec.ofNat 64 (c.val 5 / 256), c.arg 6] }

/-- The commands of a block carrier: sessions, partitions, functions, contexts, queues and objects. -/
def opTableA : Nat → Option CmdRow
  | 0x01 => some (refuseHello, effectHello) | 0x02 => some (refuseBye, effectBye) | 0x03 => some (refusePing, effectPing)
  | 0x04 => some (refuseCmdqClose, effectCmdqClose) | 0x05 => some (refuseRplStop, effectRplStop)
  | 0x06 => some (refuseRplStatus, effectRplStatus) | 0x10 => some (refuseCmdqOpen, effectCmdqOpen)
  | 0x18 => some (refusePartCreate, effectPartCreate) | 0x19 => some (refusePartDestroy, effectPartDestroy)
  | 0x1A => some (refusePartAssign, effectPartAssign) | 0x1B => some (refusePartHandover, effectPartHandover)
  | 0x1C => some (refusePartSched, effectPartSched) | 0x1D => some (refusePartCache, effectPartCache)
  | 0x1E => some (refuseSlotTable, effectSlotTable) | 0x1F => some (refusePartInfo, effectPartInfo)
  | 0x20 => some (refuseCtxCreate, effectCtxCreate) | 0x21 => some (refuseCtxDestroy, effectCtxDestroy)
  | 0x22 => some (refuseCtxSet, effectCtxSet) | 0x23 => some (refuseCtxQuiesce, effectCtxQuiesce)
  | 0x24 => some (refuseCtxSnapshot, effectCtxSnapshot)
  | 0x28 => some (fun c s => refuseQueueCreate (unpackQueueCreate c) s, fun c s => effectQueueCreate (unpackQueueCreate c) s)
  | 0x29 => some (refuseQueueDestroy, effectQueueDestroy) | 0x2A => some (refuseQueueEnable, effectQueueEnable)
  | 0x2B => some (refuseQueueDisable, effectQueueDisable) | 0x2C => some (refuseQueueReset, effectQueueReset)
  | 0x2D => some (refuseTallyCreate, effectTallyCreate) | 0x2E => some (refuseTallySet, effectTallySet)
  | 0x2F => some (refuseTallyDestroy, effectTallyDestroy) | 0x30 => some (refuseRegionCreate, effectRegionCreate)
  | 0x31 => some (refuseRegionDestroy, effectRegionDestroy) | 0x32 => some (refuseRegionFreeze, effectRegionFreeze)
  | 0x33 => some (refuseWindowSet, effectWindowSet) | 0x34 => some (refuseFnState, effectFnState)
  | 0x35 => some (refuseHandleInfo, effectHandleInfo) | _ => none

/-- The other commands. -/
def opTableB : Nat → Option CmdRow
  | 0x38 => some (refuseMemFlush, effectMemFlush) | 0x39 => some (refuseScrubPeriod, effectScrubPeriod)
  | 0x3A => some (refuseStackRate, effectStackRate) | 0x40 => some (refuseProgLoad, effectProgLoad)
  | 0x41 => some (refuseProgUnload, effectProgUnload) | 0x42 => some (refuseLaunch, effectLaunch)
  | 0x48 => some (refuseTensorReg, effectTensorReg) | 0x49 => some (refuseTensorUnreg, effectTensorUnreg)
  | 0x4A => some (refuseTensorVersion, effectTensorVersion) | 0x4B => some (refuseTensorScale, effectTensorScale)
  | 0x4C => some (refuseTensorUnpoison, effectTensorUnpoison) | 0x4D => some (refuseTensorStamp, effectTensorStamp)
  | 0x50 => some (refuseModelDefine, effectModelDefine) | 0x51 => some (refuseModelLoad, effectModelLoad)
  | 0x52 => some (refuseModelEvict, effectModelEvict) | 0x53 => some (refuseModelDestroy, effectModelDestroy)
  | 0x58 => some (refuseGroupBind, effectGroupBind) | 0x59 => some (refuseEpochInstall, effectEpochInstall)
  | 0x5A => some (refuseCommCreate, effectCommCreate) | 0x5B => some (refuseCommDestroy, effectCommDestroy)
  | 0x5C => some (refuseLinkExpect, effectLinkExpect) | 0x5D => some (refuseLinkAction, effectLinkAction)
  | 0x5E => some (refuseLinkCfg, effectLinkCfg) | 0x60 => some (refuseHistSet, effectHistSet)
  | 0x61 => some (refuseNumSnapshot, effectNumSnapshot) | 0x62 => some (refuseGateCreate, effectGateCreate)
  | 0x63 => some (refuseGateSet, effectGateSet) | 0x64 => some (refuseGateDestroy, effectGateDestroy)
  | 0x65 => some (refuseWitnessCfg, effectWitnessCfg) | 0x66 => some (refuseDriftPair, effectDriftPair)
  | 0x67 => some (refuseOutlierRing, effectOutlierRing) | 0x68 => some (refuseRplRecord, effectRplRecord)
  | 0x69 => some (refuseRplMark, effectRplMark) | 0x6A => some (refuseRplReplay, effectRplReplay)
  | 0x70 => some (refuseGravelCfg, effectGravelCfg) | 0x71 => some (refuseAutumnRun, effectAutumnRun)
  | 0x72 => some (refusePowerCap, effectPowerCap) | 0x73 => some (refuseLimits, effectLimits)
  | 0x74 => some (refuseTelemetry, effectTelemetry) | 0x75 => some (refuseHealth, effectHealth)
  | 0x76 => some (refuseEscalation, effectEscalation) | _ => none

/-- The row of an opcode; any other opcode is unknown (R373). -/
def opRow (op : Nat) : CmdRow :=
  match opTableA op with
  | some r => r
  | none => (opTableB op).getD (fun _ _ => some rcUnknown, fun _ s => .done rcUnknown 0 s)

/-- The structures in device memory that a command reads, by its opcode. -/
def opReads : Nat → Cmd → State → List (Word × Nat)
  | 0x1E => tableReads | 0x24 => snapReads | 0x42 => launchReads | 0x48 => regReads | 0x50 => defineReads | 0x5A => commReads
  | 0x61 => numReads | _ => noReads

/-- Run a command by its opcode. -/
def runOp (c : Cmd) (s : State) : State := runCmd (opRow c.op).1 (opReads c.op) (opRow c.op).2 c s

/-- The command of a 64-byte block, and what is wrong with the block itself (R364). -/
def blockCmd (fn : Nat) (via : Via) (live : Bool) (b : List Byte) : Cmd :=
  { fn := fn, via := via, token := fieldAt b 4 4, op := fieldAt b 0 1,
    args := (upTo 7).map (fun i => BitVec.ofNat 64 (fieldAt b (8 + 8 * i) 8)), live := live }

/-- Run the command of a block; its reserved bytes are zero. -/
def runBlock (c : Cmd) (b : List Byte) (s : State) : State :=
  if fieldAt b 1 3 ≠ 0 then runCmd (fun _ _ => some rcBadArg) noReads (fun _ s => .done rcBadArg 0 s) c s else runOp c s

/-! ### Inbound -/

/-- The bits of a register that a write covers, in the place of its old ones. -/
def laneMix (old value : Word) : Lanes → Word
  | .both => value
  | .low => (old &&& 0xFFFFFFFF00000000) ||| (value &&& 0x00000000FFFFFFFF)
  | .high => (value &&& 0xFFFFFFFF00000000) ||| (old &&& 0x00000000FFFFFFFF)

/-- A write to MBX_IN_WORD (R339). -/
def depositOp (f j : Nat) (lanes : Lanes) (value : Word) (s : State) : State :=
  if !answers s f then s
  else
    let s := s.setRaw ⟨.mbxInWord, f, j⟩ (laneMix (s.raw ⟨.mbxInWord, f, j⟩) value lanes)
    if lanes = .low then s
    else if s.fld fMbxInStatusFull f j = 1 then (s.setFld fMbxInStatusCollide f j 1).bump fMbxInStatusCollisions f j 1
    else s.setFld fMbxInStatusFull f j 1

/-- MBX_IN_DEPOSIT (R339). -/
def execMbxInDeposit (fn : Fn) (j : Fin 8) (lanes : Lanes) (value : Word) (s : State) : Host.Outcome State Fault Refusal :=
  .next (depositOp fn.val j.val lanes value s)

/-- The mailbox's command is still unpublished (R370). -/
def mbxBusy (s : State) (f j : Nat) : Bool := match tabGet none (s.fn f).lastTaken j with | some l => !l.published | none => false

/-- Contexts of a function that record (R263). -/
def recordingCtxs (s : State) (f : Nat) : List Nat := keysWhere s.objs.ctxs (fun x => x.mode != .free && x.owner == f && x.log.isSome)

/-- The fields of a mailbox word (R338). -/
def wordOp (w : Word) : Nat := getBits w 63 56
def wordSeq (w : Word) : Byte := BitVec.ofNat 8 (getBits w 55 48)
def wordArg (w : Word) : Nat := getBits w 47 0

/-- A read of host memory that ends with an error or with poisoned data: the row does not tell which, so whether it counts as a
poisoned TLP is open (log entry 68). -/
def hostReadFailed (s : State) : State :=
  let (v, s) := s.freeDraw
  s.bump fHifPcieErrPoisonedRx 0 0 (v.toNat % 2)

/-- Execute a taken word (R366): short form, or the command block that it names. -/
def runWord (f : Nat) (j : Fin 8) (w : Word) (live readError : Bool) (s : State) : State :=
  let op := wordOp w
  let short : Cmd := { fn := f, via := .mbx j (wordSeq w) none, token := 0, op := op, args := [BitVec.ofNat 64 (wordArg w)], live := live }
  let refuse (rc : Nat) (c : Cmd) : State := runCmd (fun _ _ => some rc) noReads (fun _ s => .done rc 0 s) c s
  if op < 0x10 then runOp short s
  else if wordArg w = 0 then refuse rcBadArg short
  else
    let a := wordArg w * 4096
    let via := Via.mbx j (wordSeq w) (some a)
    if !(s.fn f).busMaster then answerNow { short with via := via } s rcBadBlock 0 0
    else if readError then answerNow { short with via := via } (hostReadFailed s) rcBadBlock 0 0
    else
      let b := readHost s a 64
      let c := blockCmd f via live b
      if c.op ≠ op then refuse rcBadArg { c with op := op } else runBlock c b s

/-- Answer a repeat with the first word's code, and its reply again (R384). -/
def answerRepeat (s : State) (f j : Nat) (w : Word) (l : LastTaken) : State :=
  ackWord s f j (wordSeq w).toNat (s.fld fMbxInStatusTaken f j) l.rc.toNat l.reply

/-- Icvar accepts a word: it is recorded, then answered as a repeat or executed (R263, R384). -/
def acceptWord (f : Nat) (j : Fin 8) (w : Word) (live readError : Bool) (s : State) : State :=
  let s := forEach (recordingCtxs s f) s (fun c t => recordInput t c 1 (f * 8 + j.val) w.toNat [] 0xFFFFFFFF)
  match (tabGet none (s.fn f).lastTaken j.val).filter (fun l => l.word == w) with
  | some l => answerRepeat s f j.val w l
  | none => runWord f j w live readError
      (s.modFn f (fun x => { x with lastTaken := tabSet none x.lastTaken j.val (some ⟨w, 0, none, false⟩) }))

/-- Icvar takes the held word (R340): FULL is cleared, TAKEN counts; a word deposited in the same cycle stays held. -/
def takeWord (f j : Nat) (deposit : Option Word) (s : State) : State :=
  let s := { s with module := { s.module with icvarTakes := true } }
  let s := (s.setFld fMbxInStatusFull f j 0).setFld fMbxInStatusTaken f j ((s.fld fMbxInStatusTaken f j + 1) % 256)
  match deposit with
  | some v => (s.setRaw ⟨.mbxInWord, f, j⟩ v).setFld fMbxInStatusFull f j 1
  | none => s

/-- MAILBOX_TAKE (R340, R366, R370, R384). -/
def mailboxTakeOp (f : Nat) (j : Fin 8) (host : List Cell) (readError : Bool) (deposit : Option Word) (s : State) :
    State :=
  if !icvarRuns s || !answers s f || s.fld fMbxInStatusFull f j.val = 0 || mbxBusy s f j.val then s
  else
    let w := s.raw ⟨.mbxInWord, f, j.val⟩
    acceptWord f j w true readError (takeWord f j.val deposit (hostStores s host))

/-- MAILBOX_TAKE (R340). -/
def execMailboxTake (fn : Fn) (j : Fin 8) (host : List Cell) (readError : Bool) (deposit : Option Word) (hits : List Hit) (s : State) :
    Host.Outcome State Fault Refusal := .next (mailboxTakeOp fn.val j host readError deposit (upsetWords s hits))

/-! ### Outbound -/

/-- MBX_OUT_POST (R342). -/
def outPostOp (f j : Nat) (s : State) : State :=
  if !icvarRuns s || (s.fn f).mode == .resetting then s else postOut s f j

/-- MBX_OUT_POST (R342). -/
def execMbxOutPost (fn : Fn) (j : Fin 8) (s : State) : Host.Outcome State Fault Refusal := .next (outPostOp fn.val j.val s)

/-- A write to MBX_OUT_ACK (R342): it takes effect when it covers bits 47:32. -/
def outAckOp (f j : Nat) (lanes : Lanes) (value : Word) (s : State) : State :=
  if !answers s f then s
  else
    let s := s.setRaw ⟨.mbxOutAck, f, j⟩ (laneMix (s.raw ⟨.mbxOutAck, f, j⟩) value lanes)
    if lanes = .low then s
    else if s.fld fMbxOutStatusFull f j = 1 then s.setFld fMbxOutStatusFull f j 0
    else s.setFld fMbxOutStatusAckStray f j 1

/-- MBX_OUT_ACK (R342). -/
def execMbxOutAck (fn : Fn) (j : Fin 8) (lanes : Lanes) (value : Word) (s : State) : Host.Outcome State Fault Refusal :=
  .next (outAckOp fn.val j.val lanes value s)

end Sys2Proof.Machine
end

