-- ==== Sys2Proof/Machine/Queues.lean ====
section
/-! DEFINITION. Doorbells, the fetch of descriptors and the release of completion records (R344 to R353, R368): DOORBELL,
QUEUE_FETCH, CQ_RELEASE. -/

namespace Sys2Proof.Machine

/-! ### Doorbells -/

/-- An index holds no queue. -/
def noQueue (s : State) (q : Nat) : Bool := decide (8192 ≤ q) || !(s.queue q).present

/-- The first check of R345 that a doorbell fails, as its counter; `whole` is one aligned 64-bit write. -/
def doorbellReject (s : State) (f q value : Nat) (whole : Bool) : Option RField :=
  let x := s.queue q
  let tail := bitsOf value 31 0
  if noQueue s q then some fHifDbRejectNotEnabled
  else if x.fn ≠ f then some fHifDbRejectWrongFunction
  else if bitsOf value 63 40 ≠ x.gen % 2 ^ 24 then some fHifDbRejectStaleGen
  else if !whole || bitsOf value 39 32 ≠ 0 then some fHifDbRejectBadWrite
  else if x.n < (tail + 2 ^ 32 - x.consumed) % 2 ^ 32 || x.n < (tail + 2 ^ 32 - x.tail) % 2 ^ 32 then some fHifDbRejectBadWrite
  else if x.mode ≠ .enabled then some fHifDbRejectNotEnabled
  else none

/-- Ring one doorbell: counted where it is discarded, recorded where its context records, else the tail is set (R263, R345). A
live doorbell of a replaying context is dropped (R267). -/
def ringOne (f q value : Nat) (whole live : Bool) (s : State) : State :=
  match doorbellReject s f q value whole with
  | some c => s.bump c 0 0 1
  | none =>
    let put (s : State) : State := s.modQueue q (fun x => { x with tail := bitsOf value 31 0 })
    match (s.queue q).ctx with
    | some c => if live && isReplaying s c then dropLive s c else put (recordInput s c 2 q value [] 0xFFFFFFFF)
    | none => put s

/-- The doorbells that a write touches, ascending: the index, the value of its covered bytes, and whether all eight are
covered. -/
def doorbellsOf (off : Nat) (data : List Byte) : List (Nat × Nat × Bool) :=
  if data.isEmpty then []
  else
    let at_ (k : Nat) : Nat := if off ≤ k ∧ k < off + data.length then (data.getD (k - off) 0).toNat else 0
    (spanOf (off / 8) ((off + data.length - 1) / 8 + 1 - off / 8)).map (fun q =>
      (q, leNat ((upTo 8).map (fun i => BitVec.ofNat 8 (at_ (8 * q + i)))), decide (off ≤ 8 * q) && decide (8 * q + 8 ≤ off + data.length)))

/-- A write to BAR4 (R345, R346). -/
def doorbellOp (f off : Nat) (data : List Byte) (s : State) : State :=
  if !answers s f then s else forEach (doorbellsOf off data) s (fun d t => ringOne f d.1 d.2.1 d.2.2 true t)

/-- DOORBELL (R345). -/
def execDoorbell (fn : Fn) (off : Nat) (data : List Byte) (s : State) : Host.Outcome State Fault Refusal :=
  .next (doorbellOp fn.val off data s)

/-! ### Fetching -/

/-- The address argument of a queue's entry. -/
def entryAddr (x : Queue) (pos : Nat) : Word := x.ring + BitVec.ofNat 64 (64 * (pos % x.n))

/-- The queue fetches its next descriptor (R344, R346, R348): ENABLED, entries up to the tail, room in its completion ring; a
command queue runs one command at a time (R370); the engines of a Winter partition without a slot table fetch nothing (R242). -/
def fetches (s : State) (q : Nat) : Bool :=
  let x := s.queue q
  let st := entryStep x.kind
  x.present && x.mode == .enabled && decide (st ≤ (x.tail + 2 ^ 32 - x.consumed) % 2 ^ 32) && decide (x.consumed % st = 0) && cqRoom x &&
  (if x.kind = 0 then x.entries.isEmpty && icvarRuns s else !((s.part x.part).winter && (s.part x.part).table.isNone))

/-- A fetch that fails puts the queue into ERROR and writes one faulted record (R347). -/
def fetchError (s : State) (q cause : Nat) : State :=
  let x := s.queue q
  let tag := match x.ctx with | some c => ctxTag s c | none => 0
  let e : Entry := ⟨x.consumed, [], .finished (engineRecord 0 1 cause tag x.consumed)⟩
  flushQueue (s.setQueue q { x with mode := .error, entries := x.entries ++ [e] }) q

/-- A descriptor has come into the module. -/
def takeEntry (s : State) (q : Nat) (b : List Byte) : State :=
  let x := s.queue q
  let s := s.setQueue q { x with consumed := (x.consumed + entryStep x.kind) % 2 ^ 32, entries := x.entries ++ [⟨x.consumed, b, .waiting⟩] }
  s

/-- Icvar runs the command block that a command queue has fetched (R364, R368). -/
def runEntry (q : QueueId) (pos : Nat) (b : List Byte) (s : State) : State :=
  let x := s.queue q.val
  runBlock (blockCmd x.fn (.queue q (BitVec.ofNat 32 pos)) true b) b s

/-- QUEUE_FETCH: one descriptor (R347); a ring that its function may no longer read fails the fetch with cause 0x0E (R36, log entry
124). A fetch from host memory that fails names no cause: the record's is a free value. -/
def queueFetchOp (q : QueueId) (host : List Cell) (readError : Bool) (s : State) : State :=
  let s := hostStores s host
  if !fetches s q.val then s
  else
    let x := s.queue q.val
    let w := entryAddr x x.consumed
    let n := 64 * entryStep x.kind
    let go (s : State) : State :=
      let b := readArg s w 0 n
      let s := takeEntry s q.val b
      if x.kind = 0 then runEntry q x.consumed b s else s
    if isHostAddr w then
      if !(s.fn x.fn).busMaster || readError then
        let (v, s) := (if (s.fn x.fn).busMaster then hostReadFailed s else s).freeDraw
        fetchError s q.val (v.toNat % 256)
      else go s
    else
      let fail (s : State) (cause : Nat) (poison : Bool) : State :=
        let s := fetchError s q.val cause
        match x.ctx with
        | some c => ctxFault s c cause (addrSec (argAddr w)) 0 poison
        | none => s
      if !argOk s x.fn (argAddr w) n false then fail s 0x0E false
      else
        let (s, bad) := readMem s (argAddr w) n
        match worstOf bad with
        | none => go s
        | some poison => fail s 6 poison

/-- QUEUE_FETCH (R347). -/
def execQueueFetch (q : QueueId) (host : List Cell) (readError : Bool) (hits : List Hit) (s : State) :
    Host.Outcome State Fault Refusal := .next (queueFetchOp q host readError (upsetWords s hits))

/-! ### Releasing records -/

/-- The queue bound to a slot of a function. -/
def slotQueue (s : State) (f j : Nat) : Option Nat := (queuesWhere s (fun q => q.fn == f && q.slot == j)).head?

/-- A write of CQ_RELEASED (R352, R353): each released slot takes the unready pattern before it counts as free; then waiting
records are written. -/
def cqReleaseOp (f j value : Nat) (s : State) : State :=
  if !answers s f then s
  else match slotQueue s f j with
    | none => s
    | some q =>
      let x := s.queue q
      let n := (value % 2 ^ 32 + 2 ^ 32 - x.released) % 2 ^ 32
      if (x.produced + 2 ^ 32 - x.released) % 2 ^ 32 < n then s
      else
        let s := match x.cq with
          | some w => forEach (upTo (min n x.m)) s (fun i t => writeArg t x.fn w (32 * ((x.released + i) % x.m)) unready)
          | none => s
        flushQueue (s.modQueue q (fun y => { y with released := value % 2 ^ 32 })) q

/-- CQ_RELEASE (R353). -/
def execCqRelease (fn : Fn) (slot : Fin 512) (value : Word32) (s : State) : Host.Outcome State Fault Refusal :=
  .next (cqReleaseOp fn.val slot.val value.toNat s)

end Sys2Proof.Machine
end

