-- ==== Sys2Proof/Machine/Bar2.lean ====
section
/-! DEFINITION. The host's window onto device memory (R335 to R337): BAR2_READ and BAR2_WRITE. -/

namespace Sys2Proof.Machine

/-- The device address of a BAR2 access, which lies in one quarter that has a window (R335). -/
def bar2Addr (s : State) (f off len : Nat) : Option Nat :=
  let size := quarterBytes s f
  let q := off / size
  if len = 0 ∨ 4 ≤ q ∨ (off + len - 1) / size ≠ q then none
  else ((s.fn f).windows.find? (fun e => e.1 == q)).map (fun e => e.2 + (off - q * size))

/-- The regions of a function's contexts. -/
def fnRegions (s : State) (f : Nat) : List Region :=
  (s.objs.regions.map (·.2)).filter (fun r => r.present && owns s f r.ctx && r.part == fnPart s f)

/-- The access is allowed (R335): inside the function's partition and the regions granted to it. -/
def bar2Ok (s : State) (f a n : Nat) (write : Bool) : Bool :=
  inPartition s (fnPart s f) a n &&
  covered (fnRegions s f) (fun r => if write then r.write else r.read) ((fnRegions s f).length + 1) a n &&
  (!write || (!meetsFrozen s (fnPart s f) a n && !modelFrozen s (fnPart s f) a n))

/-- A refused access is counted and recorded (R335, R358). -/
def bar2Refuse (s : State) (f off : Nat) (write : Bool) : State :=
  (s.bump fHifBar2RefuseRefused 0 0 1).setRaw ⟨.hifBar2Last, 0, 0⟩
    (BitVec.ofNat 64 (2 ^ 63 + f * 2 ^ 57 + toBit write * 2 ^ 56 + off % 2 ^ 41))

/-- What a read of BAR2 hands back: its bytes, EP, or Unsupported Request. -/
def bar2Out (s : State) (b : List Byte) (ep unsupported : Bool) : State :=
  { s with out := { s.out with bar2 := b, bar2Poisoned := ep, bar2Unsupported := unsupported } }

/-- An access to a Winter partition's memory waits in the control-die port: outside the host windows of the section and outside holds,
or behind an access of the same function (R251, R254, log entry 142). -/
def portWaits (s : State) (f a : Nat) : Bool :=
  (s.part (fnPart s f)).winter && (!outsideOpen s (fnPart s f) 9 (addrSec a) || s.host.port.any (fun e => e.fn == f))

/-- Put an access into the port. -/
def portPut (s : State) (e : PortAccess) : State := { s with host := { s.host with port := s.host.port ++ [e] } }

/-- A BAR2 read (R335, R337). -/
def bar2ReadOp (f off len : Nat) (s : State) : State :=
  if !answers s f then bar2Out (if running s && s.module.cfgReady then s.bump fHifPcieErrUrSent 0 0 1 else s) [] false true
  else match bar2Addr s f off len with
    | none => bar2Out (bar2Refuse s f off false) (List.replicate len 0xFF) false false
    | some a =>
      if !bar2Ok s f a len false then bar2Out (bar2Refuse s f off false) (List.replicate len 0xFF) false false
      else if portWaits s f a then portPut s ⟨f, off, len, none⟩
      else
        let (s, bad) := readMem s a len
        let b := (upTo len).map (fun i => if bad.any (fun e => e.1 == (a + i) / 16 * 16) then 0xFF else (readBytes s (a + i) 1).getD 0 0)
        bar2Out (if bad.isEmpty then s else s.bump fHifBar2RefusePoisonedReads 0 0 1) b (!bad.isEmpty) false

/-- BAR2_READ (R335). -/
def execBar2Read (fn : Fn) (off len : Nat) (hits : List Hit) (s : State) : Host.Outcome State Fault Refusal :=
  .next (bar2ReadOp fn.val off len (upsetWords s hits))

/-- The contexts of a function whose regions a range meets. -/
def ctxsAt (s : State) (f a n : Nat) : List Nat :=
  ((fnRegions s f).filter (fun r => overlaps a n r.base r.length)).map (·.ctx) |>.eraseDups

/-- A BAR2 write (R263, R267, R335): live writes of a replaying context are dropped, those of a recording one logged. -/
def bar2WriteOp (f off : Nat) (data : List Byte) (s : State) : State :=
  if !answers s f then s
  else match bar2Addr s f off data.length with
    | none => bar2Refuse s f off true
    | some a =>
      if !bar2Ok s f a data.length true then bar2Refuse s f off true
      else
        let cs := ctxsAt s f a data.length
        match cs.filter (isReplaying s) with
        | c :: _ => dropLive s c
        | [] =>
          if portWaits s f a then portPut s ⟨f, off, data.length, some data⟩ else
          let s := forEach cs s (fun c t => recordInput t c 3 f a data 0xFFFFFFFF)
          storeBytes s a data

/-- BAR2_WRITE (R335). -/
def execBar2Write (fn : Fn) (off : Nat) (data : List Byte) (hits : List Hit) (s : State) : Host.Outcome State Fault Refusal :=
  .next (bar2WriteOp fn.val off data (upsetWords s hits))

/-- The accesses that wait in the port are made in order as far as their windows are open now, or a hold lets them in (R251). -/
def servePort (s : State) : State :=
  forEach s.host.port { s with host := { s.host with port := [] } } (fun e t => match e.data with
    | some d => bar2WriteOp e.fn e.off d t
    | none => bar2ReadOp e.fn e.off e.len t)

end Sys2Proof.Machine
end

