-- ==== Sys2Proof/Machine/Functions.lean ====
section
/-! DEFINITION. PCI Express functions (R328 to R332, R337, R354 to R356, R445): FUNCTION_LEVEL_RESET, PF_RESET_OR_VF_DISABLE,
BUS_MASTER_DISABLE, IDE_KM_REQUEST, PCIE_CONFIG_REQUEST, PCIE_LINK_TRAINED. -/

namespace Sys2Proof.Machine

/-! ### Function-level reset -/

/-- A function-level reset begins (R356): its session ends, its queues stop without records to host memory, its contexts stop,
the commands that Icvar has taken lose their acknowledgements, and it masters the bus no more. -/
def beginFlr (s : State) (f : Nat) : State :=
  let s := s.modFn f (fun x => { x with mode := .resetting, flrStart := some s.now, session := none, busMaster := false, outbox := [], owed := [] })
  let s := { s with host := { s.host with
    commands := s.host.commands.map (fun p => if p.fn == f then { p with mute := true } else p),
    launches := s.host.launches.map (fun l => if l.fn == f then { l with mute := true } else l) } }
  let s := stopFnQueues s f false
  forEach (keysWhere s.objs.ctxs (fun x => x.mode == .active && x.owner == f)) s (fun c t => stopPlanned t c false)

/-- A function that exists and is not in a reset already. -/
def resettable (s : State) (f : Nat) : Bool := (s.fn f).mode == .enabled || (s.fn f).mode == .disabled

/-- A function-level reset of a virtual function (R356). -/
def flrOp (f : Nat) (s : State) : State :=
  if !running s || f == 0 || !resettable s f then s else pruneTokens (settle (beginFlr s f))

/-- FUNCTION_LEVEL_RESET (R356). -/
def execFunctionLevelReset (fn : Fn) (s : State) : Host.Outcome State Fault Refusal := .next (flrOp fn.val s)

/-- VF Enable is cleared, or the physical function is reset: a function-level reset of each function concerned (R354). -/
def pfResetOp (pfReset : Bool) (s : State) : State :=
  if !running s then s
  else
    let s := { s with host := { s.host with vfEnable := false } }
    pruneTokens (settle (forEach ((upTo 64).filter (fun f => (f != 0 || pfReset) && resettable s f)) s (fun f t => beginFlr t f)))

/-- PF_RESET_OR_VF_DISABLE (R354). -/
def execPfResetOrVfDisable (pfReset : Bool) (s : State) : Host.Outcome State Fault Refusal := .next (pfResetOp pfReset s)

/-- Bus Master Enable is cleared (R354). -/
def busMasterDisableOp (f : Nat) (s : State) : State :=
  if !running s || (s.fn f).mode == .absent then s
  else stopFnQueues (s.modFn f (fun x => { x with busMaster := false })) f false

/-- BUS_MASTER_DISABLE (R354). -/
def execBusMasterDisable (fn : Fn) (s : State) : Host.Outcome State Fault Refusal := .next (busMasterDisableOp fn.val s)

/-! ### Configuration and IDE -/

/-- An answer to a configuration request. -/
def cfgAnswer (s : State) (a : CfgAnswer) : State := { s with out := { s.out with cfg := a } }

/-- VF Enable is set: the virtual functions exist, each a TDI in CONFIG_UNLOCKED (R328, R332). -/
def enableVfs (s : State) : State :=
  forEach (spanOf 1 63) { s with host := { s.host with vfEnable := true } } (fun f t =>
    if (t.fn f).mode == .absent then t.modFn f (fun x => { x with mode := .enabled, tdi := .unlocked }) else t)

/-- A configuration access to a ready function (R330, R332, R337, R354). What a configuration register reads the spec does not
say: the value is free. -/
def cfgAccess (f : Nat) (a : CfgAccess) (s : State) : State :=
  match a with
  | .read _ => let (w, s) := s.freeDraw; cfgAnswer s (.done (w.setWidth 32))
  | .write _ _ => cfgAnswer s (.done 0)
  | .setBusMaster => cfgAnswer (s.modFn f (fun x => { x with busMaster := x.mode != .absent && x.mode != .resetting })) (.done 0)
  | .setVfEnable => cfgAnswer (if f = 0 then enableVfs s else s) (.done 0)
  | .setBar2Size n =>
    cfgAnswer (if tdiLocked s f then s else s.modFn f (fun x => { x with bar2Log := n.val })) (.done 0)

/-- A configuration request (R330, R445). -/
def pcieConfigOp (f : Nat) (a : CfgAccess) (s : State) : State :=
  if !running s then cfgAnswer s .none
  else if !s.module.cfgReady then cfgAnswer s .retry
  else if (s.fn f).mode == .absent then cfgAnswer s .none
  else cfgAccess f a s

/-- PCIE_CONFIG_REQUEST (R330). -/
def execPcieConfigRequest (fn : Fn) (access : CfgAccess) (s : State) : Host.Outcome State Fault Refusal :=
  .next (pcieConfigOp fn.val access s)

/-- The link has trained at a speed and width (R329, R358). -/
def linkTrainedOp (speed width : Nat) (flit : Bool) (s : State) : State :=
  if !running s || speed == 0 then s
  else
    let s := s.setFld fHifLinkSpeed 0 0 speed
    let s := s.setFld fHifLinkWidth 0 0 width
    let s := s.setFld fHifLinkFlit 0 0 (toBit flit)
    s.setFld fHifLinkSpeedLow 0 0 (toBit (decide (speed ≤ 3)))

/-- PCIE_LINK_TRAINED (R329). -/
def execPcieLinkTrained (speed : Fin 7) (width : Fin 5) (flit : Bool) (s : State) : Host.Outcome State Fault Refusal :=
  .next (linkTrainedOp speed.val width.val flit s)

/-- IDE key management (R328, R337, R358): link IDE, and a function's selective stream; a TDI that loses its stream in CONFIG_LOCKED
or RUN enters ERROR. -/
def ideKmOp (f : Nat) (r : IdeReq) (s : State) : State :=
  if !running s || !s.module.cfgReady || (s.fn f).mode == .absent then s
  else match r with
    | .linkIde on => if f = 0 then s.setFld fHifLinkLinkIde 0 0 (toBit on) else s
    | .bindStream => s.modFn f (fun x => { x with ideStream := true })
    | .unbindStream =>
      let t := s.modFn f (fun x => { x with ideStream := false })
      if tdiLocked s f && (s.fn f).ideStream then tdiError t f else t

/-- IDE_KM_REQUEST (R337). -/
def execIdeKmRequest (fn : Fn) (req : IdeReq) (s : State) : Host.Outcome State Fault Refusal := .next (ideKmOp fn.val req s)

end Sys2Proof.Machine
end

