-- ==== Sys2Proof/Machine/Flags.lean ====
section
/-! DEFINITION. What a read of a register returns (R12, R15): the stored bits, with the fields that show other state of the block
laid over them. -/

namespace Sys2Proof.Machine

/-- Lay a field's value over a word. -/
def put (f : RField) (v : Nat) (w : Word) : Word := putBits w f.hi f.lo v

/-- A partition, as PARTITION fields show it: 0xFF for none. -/
def partNum (p : Option Nat) : Nat := p.getD 0xFF

/-! ### Sections -/

/-- LOAM_CFG (R72). -/
def seeLoamCfg (s : State) (n : Nat) (w : Word) : Word :=
  let p := secPart s n
  let x := match p with | some p => s.part p | none => {}
  put fLoamCfgCacheUnits x.units (put fLoamCfgWinter (toBit x.winter) (put fLoamCfgPartition (partNum p) w))

/-- ONLINE of HBM_STATUS (R72): a partition uses the stack, or Icvar does for a test. -/
def seeHbmStatus (s : State) (n : Nat) (w : Word) : Word :=
  put fHbmStatusOnline (toBit ((secPart s n).isSome || (s.autumn n).isSome)) w

/-- A unit of a core is busy with a tile or a slice (R168, R454). -/
def unitBusy (x : Core) (u : Nat) : Bool := match tabGet .idle x.units u with | .idle => false | _ => true

/-- A Winter partition that is held. -/
def winterHeld (s : State) (p : Option Nat) : Bool := match p with | some p => (s.part p).winter && partHeld s p | none => false

/-- STATE of CORE_STATUS (R168). -/
def coreStateCode (s : State) (k : Nat) : Nat :=
  let x := s.core k
  if x.stopped then 5
  else match x.running with
    | none => 0
    | some i =>
      if winterHeld s (secPart s (k / 12)) then 4
      else if !runnable s k i && x.window.isEmpty && (slotRuns s k i).isEmpty then 0
      else if entering s k then 3
      else if !x.window.isEmpty && x.window.all (fun d => !waitsMet s d.bytes) then 2
      else 1

/-- CORE_STATUS (R168). -/
def seeCoreStatus (s : State) (k : Nat) (w : Word) : Word :=
  let x := s.core k
  put fCoreStatusUnitBusy (sumNat ((upTo 7).map (fun u => toBit (unitBusy x u) * 2 ^ u)))
    (put fCoreStatusWindow x.window.length (put fCoreStatusState (coreStateCode s k) w))

/-- CORE_RUN (R168). -/
def seeCoreRun (s : State) (k : Nat) (w : Word) : Word :=
  match (s.core k).running with
  | none => w
  | some i =>
    let x := s.slot k i
    put fCoreRunGenTag x.tag (put fCoreRunSlot i (put fCoreRunContext x.ctx (put fCoreRunDescIndex (slotOldest s k i) w)))

/-- STATE of CORE_ROUTE_STATUS and COLL_STATUS beside what a running descriptor shows (R241, R327). -/
def engineStateCode (s : State) (kind sec running : Nat) : Nat :=
  let e := s.engine (engineKey kind sec)
  match engineJobs e with
  | _ :: _ => if winterHeld s (secPart s sec) then 4 else running
  | [] =>
    if e.stopped then 5
    else if (unitQueues s kind sec).any (fun q =>
      (s.queue q).mode == .enabled && (match headWaiting (s.queue q) with | some d => !waitsMet s d.bytes | none => false)) then 2
    else 0

/-- CORE_ROUTE_STATUS (R241): a descriptor's accesses are made in its own step, so none is pending between steps. -/
def seeRouteStatus (s : State) (n : Nat) (w : Word) : Word := put fCoreRouteStatusState (engineStateCode s 2 n 1) w

/-- COLL_STATUS (R327): between steps a running descriptor waits for a peer's chunk or, where only returned slots are missing, on its
credit tallies; one whose data is done runs to its end. -/
def seeCollStatus (s : State) (n : Nat) (w : Word) : Word :=
  let w := put fCollStatusGroups ((upTo 64).filter (fun k => (s.comm n k).present)).length w
  match jobOf s 3 n with
  | some j =>
    put fCollStatusSeq (j.lastSeq % 2 ^ 32) (put fCollStatusComm (cComm j.bytes % 64)
      (put fCollStatusState (engineStateCode s 3 n (if j.coll.chunkWait then 3 else if j.coll.creditWait then 2 else 1)) w))
  | none => put fCollStatusState (engineStateCode s 3 n 1) w

/-- NUM_CTR_USE (R221): gates and drift pairs in the lowest section of a partition only. -/
def seeCtrUse (s : State) (n : Nat) (w : Word) : Word :=
  let w := put fNumCtrUseRecords (recordsUsed s n) w
  match secPart s n with
  | some p =>
    if (maskSecs (s.part p).mask).head? = some n then
      put fNumCtrUseGates ((upTo 64).filter (fun g => (s.gate p g).present)).length
        (put fNumCtrUseDriftPairs (s.part p).drift.length w)
    else w
  | none => w

/-- HLT_AUTUMN (R459): the last result, or the running test. -/
def seeAutumn (s : State) (n : Nat) : Word :=
  let r := s.autumnResult n
  let code := if (s.autumn n).isSome then 3 else r.result
  put fHltAutumnValid (toBit r.valid) (put fHltAutumnResult code (put fHltAutumnTransient (toBit r.transient)
    (put fHltAutumnSource r.source (put fHltAutumnTemp r.temp (put fHltAutumnFailed r.failed
      (put fHltAutumnAge (if r.valid then s.flash.hours - r.hour else 0) 0))))))

/-! ### Replay and trace -/

/-- RPL_SCHED (R269). -/
def seeSched (s : State) (p : Nat) (w : Word) : Word :=
  let x := s.part p
  put fRplSchedTableVer (match x.table with | some t => t.ver | none => 0) (put fRplSchedHeld (toBit (partHeld s p))
    (put fRplSchedTableLoaded (toBit x.table.isSome) (put fRplSchedWinter (toBit x.winter) w)))

/-- RPL_LOG (R269): of the lowest context of the partition that records or replays. -/
def seeLog (s : State) (p : Nat) (w : Word) : Word :=
  match keysWhere s.objs.ctxs (fun x => x.mode != .free && x.part == p && (x.log.isSome || x.replay.isSome)) with
  | c :: _ =>
    let stopped := match (s.ctx c).log with | some g => g.stopped | none => false
    put fRplLogContext c (put fRplLogStopped (toBit stopped) (put fRplLogReplaying (toBit (s.ctx c).replay.isSome)
      (put fRplLogRecording (toBit ((s.ctx c).log.isSome && !stopped)) w)))
  | [] => w

/-! ### Host interface and identity -/

/-- Eight bits, one to a mailbox. -/
def mbxBits (f : Nat → Bool) : Nat := sumNat ((upTo 8).map (fun j => toBit (f j) * 2 ^ j))

/-- MBX_SUMMARY (R343). -/
def seeSummary (s : State) (f : Nat) : Word :=
  put fMbxSummaryOutFull (mbxBits (fun j => s.fld fMbxOutStatusFull f j == 1))
    (put fMbxSummaryInAckValid (mbxBits (fun j => s.fld fMbxInAckValid f j == 1))
      (put fMbxSummaryInFull (mbxBits (fun j => s.fld fMbxInStatusFull f j == 1)) 0))

/-- STATE of a queue (R348). -/
def qmodeCode : QMode → Nat
  | .disabled => 0 | .enabled => 1 | .draining => 2 | .error => 3

/-- A queue slot's registers (R353). -/
def seeQslotPtr (s : State) (f j : Nat) : Word :=
  match slotQueue s f j with
  | some q => put fHifQslotPtrCqProduced (s.queue q).produced (put fHifQslotPtrSqConsumed (s.queue q).consumed 0)
  | none => 0
def seeQslotCtl (s : State) (f j : Nat) : Word :=
  match slotQueue s f j with
  | some q => put fHifQslotCtlCqReleased (s.queue q).released (put fHifQslotCtlState (qmodeCode (s.queue q).mode)
      (put fHifQslotCtlBound 1 (put fHifQslotCtlQueue q 0)))
  | none => 0

/-- STATE and TDI of HIF_FUNC (R358). -/
def fnModeCode : FnMode → Nat
  | .absent => 0 | .enabled => 1 | .resetting => 2 | .disabled => 3
def tdiCode : TdiMode → Nat
  | .notTdi => 0 | .unlocked => 1 | .locked => 2 | .run => 3 | .error => 4

/-- HIF_FUNC (R358). -/
def seeFunc (s : State) (f : Nat) : Word :=
  let x := s.fn f
  put fHifFuncPartition (partNum x.part) (put fHifFuncQueues (queuesWhere s (fun q => q.fn == f)).length
    (put fHifFuncIde (toBit x.ideStream) (put fHifFuncSealed (toBit (partSealed s x.part))
      (put fHifFuncTdi (tdiCode x.tdi) (put fHifFuncState (fnModeCode x.mode) 0)))))

/-- The firmware that runs, once it is verified (R359, R475). -/
def seeFw (s : State) : Word :=
  match s.flash.fwActive with
  | some i => if s.module.fwVerified then put fIdentFwFwVersion i.version.toNat (put fIdentFwFwBuild i.build.toNat 0) else 0
  | none => 0

/-! ### Module -/

/-- Units at a level (R435, R439). -/
def unitsAt (s : State) (l : Nat) : Nat := ((upTo 193).filter (fun u => healthLevel s u == l)).length

/-- HLT_UNIT (R439). -/
def seeUnit (s : State) (u : Nat) (w : Word) : Word :=
  put fHltUnitLevel (healthLevel s u) (put fHltUnitLastEvent (s.health u).lastEvent (put fHltUnitScore (s.health u).score w))

/-- A register as it is read, its write-only fields and reserved bits included. `f` is the function that reads. -/
def seeReg (s : State) (f : Nat) (a : RegAt) : Word :=
  let w := s.raw a
  match a.reg with
  | .loamCfg => seeLoamCfg s a.i w
  | .hbmStatus => seeHbmStatus s a.i w
  | .coreStatus => seeCoreStatus s (12 * a.i + a.j) w
  | .coreRun => seeCoreRun s (12 * a.i + a.j) w
  | .coreRouteStatus => seeRouteStatus s a.i w
  | .collStatus => seeCollStatus s a.i w
  | .numCtrUse => seeCtrUse s a.i w
  | .lnkStatus => put fLnkStatusPartition (partNum (secPart s a.i)) w
  | .rplSched => seeSched s a.i w
  | .rplLog => seeLog s a.i w
  | .mbxInStatus => put fMbxInStatusNotReady (toBit (!s.module.icvarTakes)) w
  | .mbxSummary => seeSummary s a.i
  | .hifQslotPtr => seeQslotPtr s a.i a.j
  | .hifQslotCtl => seeQslotCtl s a.i a.j
  | .hifLink => put fHifLinkIdeStreams ((upTo 64).filter (fun g => (s.fn g).ideStream)).length w
  | .hifFunc => seeFunc s a.j
  | .identVendor => put fIdentVendorVendor Config.vendorId.toNat w
  | .identStepping => put fIdentSteppingStepping Config.stepping.toNat w
  | .identModuleId => put fIdentModuleIdModuleId Config.moduleId.toNat w
  | .identFw => seeFw s
  | .identFunc => put fIdentFuncFunction f (put fIdentFuncPartition (partNum (s.fn f).part) w)
  | .identCaps => put fIdentCapsStack10g Config.stack10G.toNat w
  | .fltEscCount => put fFltEscCountCtxInWindow (inWindow s s.care.hardFaults).length
      (put fFltEscCountPartInWindow (inWindow s s.care.partResets).length w)
  | .fltResets => put fFltResetsModule (min s.flash.moduleResets 65535) w
  | .fltWdog => put fFltWdogIcvarFired s.flash.icvarFired w
  | .pwrSection => put fPwrSectionHold (powerLevel s a.i) (put fPwrSectionThermalHold (heatLevel s a.i) w)
  | .hltSummary => put fHltSummaryRetire (unitsAt s 3) (put fHltSummarySuspect (unitsAt s 2) (put fHltSummaryWatch (unitsAt s 1) 0))
  | .hltUnit => seeUnit s a.j w
  | .hltAutumn => seeAutumn s a.i
  | .thmTripLast => s.flash.trip
  | .clkTime => BitVec.ofNat 64 s.now
  | .clkStatus => put fClkStatusWinterLock (toBit ((upTo 8).any (fun p => (s.part p).present && (s.part p).winter))) w
  | _ => w

/-- The bits of a register that a read shows: its fields but the write-only ones (R12, R15). -/
def readMask (r : RegName) : Word :=
  (fieldsOf r).foldl (fun w f => match f.2.2.1 with | .wo => w | _ => putBits w f.1 f.2.1 (2 ^ (f.1 + 1 - f.2.1) - 1)) 0

/-- What a read of a register returns (R12). -/
def readReg (s : State) (f : Nat) (a : RegAt) : Word := seeReg s f a &&& readMask a.reg

end Sys2Proof.Machine
end

