-- ==== Sys2Proof/Machine/RegAccess.lean ====
section
/-! DEFINITION. BAR0 (R10 to R16, R71, R168, R221, R241, R269, R298, R327, R333, R334, R338, R357, R359, R439, R444, R459, R484):
where each register lies, REGISTER_WRITE and RC_REGISTER_READ. -/

namespace Sys2Proof.Machine

/-! ### The maps -/

/-- What lies at an 8-byte aligned offset. -/
inductive BarAt where
  | reg (a : RegAt)
  | msix (k : Nat)
  | none
  deriving DecidableEq, Repr

/-- The register at an offset of a block of registers of 8 bytes each. -/
def nth (l : List RegName) (i j off : Nat) : BarAt := match l[off / 8]? with | some r => .reg ⟨r, i, j⟩ | Option.none => .none

/-- The registers of the blocks, in the order of their offsets. -/
def identRegs : List RegName := [.identVendor, .identStepping, .identModuleId, .identVersions, .identFw, .identFunc, .identCaps]
def loamRegs : List RegName := [.loamCfg, .loamEccCount, .loamEccLast, .loamCacheStat, .loamCacheWb, .loamScrub]
def stackRegs : List RegName := [.hbmStatus, .hbmEccCount, .hbmEccLast, .hbmRefresh, .hbmLoop, .hbmLoopResult]
def moverRegs : List RegName := [.hbmMoverBlocks, .hbmMoverCrc, .hbmMoverCrcLast]
def coreRegs : List RegName := [.coreStatus, .coreRun, .coreTiles, .coreBusy, .coreStall, .coreFaultLast, .coreFeederEcc, .coreWdog]
def routeRegs : List RegName :=
  [.coreRouteStatus, .coreRouteDesc, .coreRouteWords, .coreRouteStall, .coreRouteOob, .coreRouteFaultLast]
def numRegs : List RegName :=
  [.numCfg, .numCtrUse, .numWitStat, .numWitEvents, .numWitLast, .numWitLastCond, .numOptStat, .numOptElements, .numLog]
def linkRegs : List RegName :=
  [.lnkStatus, .lnkPartner, .lnkCfg, .lnkFec, .lnkRetry, .lnkTrain, .lnkTxBytes, .lnkRxBytes, .lnkRefuseA, .lnkRefuseB, .lnkHostile,
   .lnkPeer, .lnkLoop, .lnkLoopResult]
def collRegs : List RegName := [.collStatus, .collDesc, .collBytesTx, .collBytesRx, .collStamp, .collWait, .collFaultLast]
def testRegs : List RegName := [.hltAutumn, .hltGravel, .hltGravelPos, .hltGravelLast, .hltGravelCond, .hltGravelCfg]
def replayRegs : List RegName :=
  [.rplSched, .rplWork, .rplHeld, .rplHoldA, .rplHoldB, .rplHoldC, .rplHoldD, .rplChoiceIssue, .rplChoiceGrant, .rplChoiceSlot,
   .rplChoiceArb, .rplLog, .rplDiverge]
def faultRegs : List RegName :=
  [.fltStatus, .fltCtl, .fltEscCfg, .fltEscCount, .fltResets, .fltLast, .fltLastTime, .fltDropsA, .fltDropsB, .fltAbort, .fltWdog,
   .fltStart]
def hostRegs : List RegName := [.hifLink, .hifPcieErr, .hifDbReject, .hifBar2Refuse, .hifBar2Last, .hifFlr]

/-- A mailbox block (R338): inbound mailboxes, outbound mailboxes, summary. -/
def mbxAt (f off : Nat) : BarAt :=
  if off < 0x100 then (if off % 0x20 < 0x18 then nth [.mbxInWord, .mbxInStatus, .mbxInAck] f (off / 0x20) (off % 0x20) else .none)
  else if off < 0x200 then
    (if off % 0x20 < 0x18 then nth [.mbxOutWord, .mbxOutStatus, .mbxOutAck] f ((off - 0x100) / 0x20) (off % 0x20) else .none)
  else if off = 0x200 then .reg ⟨.mbxSummary, f, 0⟩ else .none

/-- The queue slots of a function (R353). -/
def slotAt (f off : Nat) : BarAt := nth [.hifQslotPtr, .hifQslotCtl] f (off / 16) (off % 16)

/-- The blocks of a section (R71, R168, R221, R241, R298, R327, R459). -/
def sectionAt (n off : Nat) : BarAt :=
  let sub := off % 0x1000
  if off < 0x10000 then nth loamRegs n 0 off
  else if off < 0x13000 then nth stackRegs n ((off - 0x10000) / 0x1000) sub
  else if 0x18000 ≤ off ∧ off < 0x19000 then nth moverRegs n 0 (off - 0x18000)
  else if 0x20000 ≤ off ∧ off < 0x2C000 then nth coreRegs n ((off - 0x20000) / 0x1000) sub
  else if 0x2C000 ≤ off ∧ off < 0x2D000 then nth routeRegs n 0 (off - 0x2C000)
  else if 0x30000 ≤ off ∧ off < 0x31000 then nth numRegs n 0 (off - 0x30000)
  else if 0x40000 ≤ off ∧ off < 0x40800 then nth linkRegs n ((off - 0x40000) / 0x100) (off % 0x100)
  else if 0x50000 ≤ off ∧ off < 0x51000 then nth collRegs n 0 (off - 0x50000)
  else if 0x60000 ≤ off ∧ off < 0x61000 then nth testRegs n 0 (off - 0x60000)
  else .none

/-- Power, clocks and thermal (R484). -/
def powerAt (off : Nat) : BarAt :=
  if off < 0x100 then nth [.pwrStatus, .pwrCap, .pwrThrottle, .pwrEnergy] 0 0 off
  else if off < 0x140 then .reg ⟨.pwrSection, (off - 0x100) / 8, 0⟩
  else if 0x1000 ≤ off ∧ off < 0x1010 then nth [.clkStatus, .clkTime] 0 0 (off - 0x1000)
  else if 0x2000 ≤ off ∧ off < 0x2010 then nth [.thmCfg, .thmTripLast] 0 0 (off - 0x2000)
  else if 0x2100 ≤ off ∧ off < 0x2140 then .reg ⟨.thmSection, (off - 0x2100) / 8, 0⟩
  else if 0x2200 ≤ off ∧ off < 0x22A0 then .reg ⟨.thmSensor, 0, (off - 0x2200) / 8⟩
  else .none

/-- Faults and health (R439, R459). -/
def healthAt (off : Nat) : BarAt :=
  if off < 0x800 then nth faultRegs 0 0 off
  else if off = 0x800 then .reg ⟨.hltSummary, 0, 0⟩
  else if 0x1000 ≤ off ∧ off < 0x1608 then .reg ⟨.hltUnit, 0, (off - 0x1000) / 8⟩
  else .none

/-- The host-interface block of the physical function (R357). -/
def hostAt (off : Nat) : BarAt :=
  if off < 0x100 then nth hostRegs 0 0 off
  else if off < 0x300 then .reg ⟨.hifFunc, 0, (off - 0x100) / 8⟩
  else if 0x4000 ≤ off ∧ off < 0x6000 then slotAt 0 (off - 0x4000)
  else if 0x8000 ≤ off ∧ off < 0x8400 then .msix ((off - 0x8000) / 8)
  else .none

/-- BAR0 of the physical function (R333). -/
def pfAt (off : Nat) : BarAt :=
  if off < 0x1000 then nth identRegs 0 0 off
  else if off < 0x2000 then mbxAt 0 (off - 0x1000)
  else if 0x100000 ≤ off ∧ off < 0x200000 then hostAt (off - 0x100000)
  else if 0x1000000 ≤ off ∧ off < 0x1800000 then sectionAt ((off - 0x1000000) / 0x100000) (off % 0x100000)
  else if 0x2000000 ≤ off ∧ off < 0x3000000 then powerAt (off - 0x2000000)
  else if 0x3000000 ≤ off ∧ off < 0x4000000 then healthAt (off - 0x3000000)
  else if 0x4000000 ≤ off ∧ off < 0x4008000 then nth replayRegs ((off - 0x4000000) / 0x1000) 0 (off % 0x1000)
  else .none

/-- BAR0 of a virtual function (R334). -/
def vfAt (f off : Nat) : BarAt :=
  if off < 0x1000 then nth identRegs 0 0 off
  else if off < 0x2000 then mbxAt f (off - 0x1000)
  else if 0x3000 ≤ off ∧ off < 0x3400 then .msix ((off - 0x3000) / 8)
  else if 0x4000 ≤ off ∧ off < 0x6000 then slotAt f (off - 0x4000)
  else .none

/-- What lies at a byte offset of a function's BAR0. -/
def barAt (f off : Nat) : BarAt := if f = 0 then pfAt (off / 8 * 8) else vfAt f (off / 8 * 8)

/-- A well-formed access (R10): 4 or 8 bytes, aligned to its size. -/
def wellSized (off width : Nat) : Bool := (width == 4 || width == 8) && off % width == 0

/-- The half or halves of a register that an access covers. -/
def lanesOf (off width : Nat) : Lanes := if width = 8 then .both else if off % 8 = 4 then .high else .low

/-! ### Reads -/

/-- Registers that show their values before the module is operational (R444); the others show their reset values. -/
def shownEarly (r : RegName) : Bool :=
  identRegs.contains r || testRegs.contains r || [.fltStatus, .fltStart, .hltSummary, .hltUnit].contains r ||
  mbxRegs.contains r

/-- What a register returns to a function now (R12, R444). -/
def regValue (s : State) (f : Nat) (a : RegAt) : Word :=
  if moduleState s = 2 ∧ !shownEarly a.reg then resetWord a.reg &&& readMask a.reg else readReg s f a

/-- The half that an access addresses, in the low bits. -/
def halfOf (w : Word) : Lanes → Word
  | .both => w
  | .low => w &&& 0xFFFFFFFF
  | .high => w >>> 32

/-- The RC fields of a register. -/
def rcFields (r : RegName) : List (Nat × Nat) := ((fieldsOf r).filter (fun f => f.2.2.1 == .rc)).map (fun f => (f.1, f.2.1))

/-- Clear the RC fields of a register (R12). -/
def clearRc (s : State) (a : RegAt) : State := s.setRaw a ((rcFields a.reg).foldl (fun w f => putBits w f.1 f.2 0) (s.raw a))

/-- Events that meet the read are counted in the value that it leaves (R13): low bit of their field, and number. -/
def countCoincident (s : State) (a : RegAt) (l : List (Nat × Nat)) : State :=
  l.foldl (fun t e => match (rcFields a.reg).find? (fun f => f.2 == e.1) with
    | some f => t.bump ⟨a.reg, f.1, f.2⟩ a.i a.j e.2
    | Option.none => t) s

/-- A read of BAR0 (R10, R12, R13, R16). DESIGN CHOICE (log entry 126): a 64-bit read of an RC register that R444 answers with its
reset value clears the RC fields all the same. -/
def regReadOp (f off width : Nat) (coincident : List (Nat × Nat)) (s : State) : State :=
  let give (s : State) (w : Word) : State := { s with out := { s.out with bar0 := w } }
  if !answers s f then (if running s && s.module.cfgReady then s.bump fHifPcieErrUrSent 0 0 1 else s)
  else if !wellSized off width then give s 0
  else match barAt f off with
    | .none => give s 0
    | .msix k => give s (halfOf (tabGet 0 (s.fn f).msixTable k) (lanesOf off width))
    | .reg a =>
      let t := give s (halfOf (regValue s f a) (lanesOf off width))
      countCoincident (if width = 8 then clearRc t a else t) a coincident

/-- RC_REGISTER_READ (R12). -/
def execRcRegisterRead (fn : Fn) (off width : Nat) (coincident : List (Nat × Nat)) (s : State) : Host.Outcome State Fault Refusal :=
  .next (regReadOp fn.val off width coincident s)

/-! ### Writes -/

/-- The bits that a write covers. -/
def laneMask : Lanes → Word
  | .both => 0xFFFFFFFFFFFFFFFF
  | .low => 0x00000000FFFFFFFF
  | .high => 0xFFFFFFFF00000000

/-- A 32-bit write's data in the place of its half. -/
def placed (value : Word) : Lanes → Word
  | .both => value
  | .low => value &&& 0xFFFFFFFF
  | .high => value <<< 32

/-- The W1C bits of a register. -/
def w1cMask (r : RegName) : Word :=
  (fieldsOf r).foldl (fun w f => if f.2.2.1 = .w1c then putBits w f.1 f.2.1 (2 ^ (f.1 + 1 - f.2.1) - 1) else w) 0

/-- A write to a register by its fields' access codes (R12): each 1 clears a W1C bit, unless the hardware sets it in the same
cycle (R13). -/
def writeByCode (s : State) (a : RegAt) (lanes : Lanes) (v hwSet : Word) : State :=
  let m := w1cMask a.reg
  s.setRaw a ((s.raw a &&& ~~~(v &&& m &&& laneMask lanes)) ||| (hwSet &&& m))

/-- A write to a register: those with a row of their own act by it. -/
def writeReg (f : Nat) (a : RegAt) (lanes : Lanes) (v hwSet : Word) (s : State) : State :=
  match a.reg with
  | .mbxInWord => depositOp f a.j lanes v s
  | .mbxOutAck => outAckOp f a.j lanes v s
  | .hifQslotCtl => if lanes = .low then s else cqReleaseOp f a.j (bitsOf v.toNat 63 32) s
  | .fltCtl => if lanes = .high then s else resetKeyOp (v.setWidth 16) s
  | .lnkLoop => if lanes = .high then linkLoopHigh s (8 * a.i + a.j) else linkLoopWrite s (8 * a.i + a.j) v
  | .hbmLoop => if lanes = .high then hbmLoopHigh s (3 * a.i + a.j) else hbmLoopWrite s (3 * a.i + a.j) v
  | _ => writeByCode s a lanes v hwSet

/-- A write to BAR0 (R10, R12, R16); the MSI-X table of a locked TDI is frozen (R337). -/
def regWriteOp (f off width : Nat) (value hwSet : Word) (s : State) : State :=
  if !answers s f || !wellSized off width then s
  else
    let lanes := lanesOf off width
    let v := placed value lanes
    match barAt f off with
    | .none => s
    | .msix k =>
      if tdiLocked s f then s
      else s.modFn f (fun x => { x with msixTable := tabSet 0 x.msixTable k (laneMix (tabGet 0 x.msixTable k) v lanes) })
    | .reg a => writeReg f a lanes v hwSet s

/-- REGISTER_WRITE (R12). -/
def execRegisterWrite (fn : Fn) (off width : Nat) (value hwSet : Word) (s : State) : Host.Outcome State Fault Refusal :=
  .next (regWriteOp fn.val off width value hwSet s)

end Sys2Proof.Machine
end

