-- ==== Sys2Proof/Machine/Gravel.lean ====
section
/-! DEFINITION. Gravel slices (R453 to R459): GRAVEL_SLICE_START, GRAVEL_SLICE_END, GRAVEL_SLICE_ABANDON, WITNESS_SLICE. -/

namespace Sys2Proof.Machine

/-! ### Slices and corners -/

/-- The unit that slice `j` of a rotation tests (R453): kind, core of the section, unit of the core. -/
def sliceUnit (j : Nat) : Nat × Nat × Nat :=
  if j < 48 then (1, j / 4, j % 4)
  else if j < 72 then (2, (j - 48) / 2, 4 + (j - 48) % 2)
  else if j < 84 then (3, j - 72, 6)
  else (4, 0, 0)

/-- A-cycles of a kind of slice (R453). -/
def sliceCycles (kind : Nat) : Nat := if kind = 1 then 65536 else if kind = 3 then 8192 else 16384

/-- UNIT of HLT_GRAVEL_LAST: array, vector unit, or 0 (R459). -/
def sliceUnitNum (j : Nat) : Nat := match sliceUnit j with | (1, _, u) => u | (2, _, u) => u - 4 | _ => 0

/-- The corner of the next slice in a rotation (R456). -/
def rotationCorner (s : State) (n : Nat) : Nat :=
  let cs := setBits 5 (s.fld fHltGravelCfgCorners n 0)
  cs.getD ((s.gravel n).rotation % max 1 cs.length) 0

/-- The hottest sensor of a section, in 1/8 °C; none where no sensor has been read (R469, R484). -/
def hottest (s : State) (n : Nat) : Option Int :=
  let v := s.fld fThmSectionHottest n 0
  if v = 0x8000 then none else some (BitVec.ofNat 16 v).toInt

/-- A corner's condition holds (R456). -/
def cornerHolds (s : State) (n corner load100us load1s : Nat) : Bool :=
  match corner with
  | 1 => match hottest s n with | some t => decide (8 * ((s.fld fThmCfgDieThrottle 0 0 : Int) - 10) ≤ t) | none => false
  | 2 => decide (3 * 65535 ≤ 4 * load100us)
  | 3 => decide (20 * load1s ≤ 65535)
  | _ => true

/-- Slices run in the section (R453, R458): the module is operational, no sealed partition holds the section, no test runs. -/
def sliceSection (s : State) (n : Nat) : Bool :=
  running s && moduleState s == 1 && !partSealed s (secPart s n) && (s.autumn n).isNone

/-- The section runs Winter. -/
def winterSection (s : State) (n : Nat) : Option SlotTable :=
  match secPart s n with | some p => if (s.part p).winter then (s.part p).table else none | none => none
def inWinter (s : State) (n : Nat) : Bool := match secPart s n with | some p => (s.part p).winter | none => false

/-- An entry of a Winter table that gives windows to a slice (R455); a witness slice takes those of the witness array. -/
def sliceEntry (n j : Nat) (e : SlotEntry) : Bool :=
  let (kind, core, _) := sliceUnit j
  e.holder == 0x0E && (if kind = 4 then e.resource == 6 && e.sec == n else e.resource == 5 && e.holderIndex == 12 * n + core)

/-- A window of a Winter table is long enough for a slice and its re-initialisation (R455). -/
def sliceWindow (s : State) (n j : Nat) : Bool :=
  match winterSection s n with
  | some t => t.entries.any (fun e => sliceEntry n j e && decide (sliceCycles (sliceUnit j).1 + 256 ≤ 12 * e.length))
  | none => false

/-- A slice of a Winter section stands in a window of its own that holds it and its re-initialisation to its end (R455); a held
partition's windows stand still (R245). In Summer a slice needs none. -/
def sliceNow (s : State) (n j : Nat) : Bool :=
  match secPart s n with
  | some p => !(s.part p).winter ||
      (!partHeld s p && decide (sliceCycles (sliceUnit j).1 + 256 ≤ windowLeft s p (sliceEntry n j)))
  | none => true

/-- The unit can take the slice (R454): no issued tile, and in Summer a core that runs a best-effort slot or none. -/
def sliceReady (s : State) (n j : Nat) : Bool :=
  let (kind, core, u) := sliceUnit j
  let k := 12 * n + core
  if kind = 4 then (s.witness n).isNone
  else !unitBusy (s.core k) u &&
    (inWinter s n || (match (s.core k).running with | some i => (s.ctx (s.slot k i).ctx).bestEffort | none => true))

/-! ### Start -/

/-- The rotation goes on to its next slice; a rotation that begins owes the slices that mismatched in the last (R457). -/
def nextSlice (s : State) (n : Nat) : State :=
  let j := s.fld fHltGravelPosNext n 0
  if j < 84 then s.setFld fHltGravelPosNext n 0 (j + 1)
  else
    let s := (s.setFld fHltGravelPosNext n 0 0).wrap fHltGravelPosRotation n 0 1
    s.modGravel n (fun g => { g with rotation := g.rotation + 1, owed := g.owed ++ g.next, next := [] })

/-- A slice begins on its unit (R454). -/
def beginSlice (s : State) (n j corner : Nat) (inOrder : Bool) : State :=
  let (kind, core, u) := sliceUnit j
  let s := s.modGravel n (fun g => { g with running := some (j, corner), inOrder := inOrder, waited := false, witnessSlice := kind == 4,
                                            owed := if inOrder then g.owed else g.owed.tail })
  if kind = 4 then s else s.modCore (12 * n + core) (fun x => { x with units := tabSet .idle x.units u .gravel })

/-- The next slice of a section at a period boundary (R453 to R457): it starts, waits one period for its corner, runs at the
nominal corner for want of it, or is missed for want of a Winter window. -/
def sliceStartOp (n load100us load1s : Nat) (s : State) : State :=
  let g := s.gravel n
  if !sliceSection s n || g.running.isSome || g.witnessSlice || s.fld fHltGravelCfgCorners n 0 == 0 then s
  else
    let (j, corner, inOrder) := match g.owed with
      | (j, c) :: _ => (j, c, false)
      | [] => (s.fld fHltGravelPosNext n 0, rotationCorner s n, true)
    if inWinter s n && !sliceWindow s n j then
      let s := s.bump fHltGravelCornerMissed n 0 1
      if inOrder then nextSlice s n else s.modGravel n (fun g => { g with owed := g.owed.tail })
    else if !sliceReady s n j || !sliceNow s n j then s
    else if cornerHolds s n corner load100us load1s then beginSlice s n j corner inOrder
    else if g.waited then beginSlice (s.bump fHltGravelCornerMissed n 0 1) n j 0 inOrder
    else s.modGravel n (fun g => { g with waited := true })

/-- GRAVEL_SLICE_START (R453). -/
def execGravelSliceStart (sec : Sec) (load100us load1s : Half) (s : State) : Host.Outcome State Fault Refusal :=
  .next (sliceStartOp sec.val load100us.toNat load1s.toNat s)

/-! ### End -/

/-- Record a mismatch (R457, R459): the slice, its corner, its conditions. -/
def noteMismatch (s : State) (n j corner : Nat) (repeated : Bool) (cond : Word) : State :=
  let (kind, core, _) := sliceUnit j
  let w := 2 ^ 63 + kind * 2 ^ 60 + core * 2 ^ 56 + sliceUnitNum j * 2 ^ 54 + corner * 2 ^ 51 + toBit repeated * 2 ^ 50 +
    s.now / 1000000000 % 2 ^ 32
  (s.setRaw ⟨.hltGravelLast, n, 0⟩ (BitVec.ofNat 64 w)).setRaw ⟨.hltGravelCond, n, 0⟩ cond

/-- A slice mismatched, and its second run matched or not (R457): counted, recorded, run again in the next rotation; a repeated
mismatch adds 10,000 points to the core, or to the section for a witness slice, and puts the core under close watch. -/
def mismatched (s : State) (n j corner : Nat) (again : Bool) (cond : Word) : State :=
  let (kind, core, _) := sliceUnit j
  let s := noteMismatch s n j corner again cond
  if !again then s.bump fHltGravelTransient n 0 1
  else
    let s := s.bump fHltGravelMismatch n 0 1
    let s := if kind = 4 then s
      else s.setFld fHltGravelPosWatch n 0 (s.fld fHltGravelPosWatch n 0 ||| 2 ^ core)
    healthEvent s (if kind = 4 then huSection n else huCore (12 * n + core)) 18 10000

/-- The unit of a slice is re-initialised and free (R454). -/
def endSlice (s : State) (n j : Nat) : State :=
  let (kind, core, u) := sliceUnit j
  let s := s.modGravel n (fun g => { g with running := none, witnessSlice := false })
  if kind = 4 then s else s.modCore (12 * n + core) (fun x => { x with units := tabSet .idle x.units u .idle })

/-- A finished slice (R457). -/
def sliceEndOp (n : Nat) (signature again : Word32) (cond : Cond) (s : State) : State :=
  let g := s.gravel n
  match g.running with
  | none => s
  | some (j, corner) =>
    let want := Config.gravelSignature (sliceUnit j).1 (sliceUnitNum j) corner
    let bits := cond.temp.toNat * 2 ^ 48 + cond.voltage.toNat * 2 ^ 32 + cond.load.toNat * 2 ^ 16 + cond.power.toNat
    let s := (endSlice s n j).bump fHltGravelPosSlicesRun n 0 1
    let s := if signature = want then s
      else (mismatched s n j corner (again != want) (BitVec.ofNat 64 bits)).modGravel n (fun g => { g with next := g.next ++ [(j, corner)] })
    if g.inOrder then nextSlice s n else s

/-- GRAVEL_SLICE_END (R457). -/
def execGravelSliceEnd (sec : Sec) (signature again : Word32) (cond : Cond) (s : State) : Host.Outcome State Fault Refusal :=
  .next (sliceEndOp sec.val signature again cond s)

/-- A latency-critical slot of a core is ready (R454). -/
def criticalReady (s : State) (k : Nat) : Bool := (upTo 8).any (fun i => runnable s k i && !slotBest s k i)

/-- A Summer slice gives way to a latency-critical slot: it is counted and runs again at the next period (R454). -/
def sliceAbandonOp (n : Nat) (s : State) : State :=
  let g := s.gravel n
  match g.running with
  | none => s
  | some (j, corner) =>
    if inWinter s n || (sliceUnit j).1 == 4 || !criticalReady s (12 * n + (sliceUnit j).2.1) then s
    else
      let s := (endSlice s n j).bump fHltGravelAbandoned n 0 1
      if g.inOrder then s else s.modGravel n (fun g => { g with owed := (j, corner) :: g.owed })

/-- GRAVEL_SLICE_ABANDON (R454). -/
def execGravelSliceAbandon (sec : Sec) (s : State) : Host.Outcome State Fault Refusal := .next (sliceAbandonOp sec.val s)

/-- An offline witness runs a slice at the nominal corner (R458): a match brings it back; a mismatch counts as any other. The
conditions of its mismatch come with no event: free values. -/
def witnessSliceOp (n : Nat) (signature again : Word32) (s : State) : State :=
  if !sliceSection s n || s.fld fNumCfgWitOffline n 0 == 0 || (s.gravel n).running.isSome ||
      !sliceNow s n 84 then s
  else
    let want := Config.gravelSignature 4 0 0
    let s := s.bump fHltGravelPosSlicesRun n 0 1
    if signature = want then s.setFld fNumCfgWitOffline n 0 0
    else
      let (w, s) := s.freeDraw
      (mismatched s n 84 0 (again != want) w).modGravel n (fun g => { g with next := g.next ++ [(84, 0)] })

/-- WITNESS_SLICE (R458). -/
def execWitnessSlice (sec : Sec) (signature again : Word32) (s : State) : Host.Outcome State Fault Refusal :=
  .next (witnessSliceOp sec.val signature again s)

end Sys2Proof.Machine
end

