-- ==== Sys2Proof/Machine/Power.lean ====
section
/-! DEFINITION. Power, clock levels, sensors and trips (R461 to R473, R482, R488 to R490): ARBITER_PERIOD, CLOCK_SLEW_END,
EMERGENCY_HOLD, SENSOR_READ, SUPPLY_TRIP, MGMT_CAP_SET. -/

namespace Sys2Proof.Machine

/-! ### The arbiter -/

/-- Caps written since the last period apply (R461). -/
def applyCaps (s : State) : State :=
  let s := match s.power.pendingHostCap with | some w => s.setFld fPwrCapHostCap 0 0 w | none => s
  let s := match s.power.pendingMgmtCap with | some w => s.setFld fPwrCapMgmtCap 0 0 w | none => s
  { s with power := { s.power with pendingHostCap := none, pendingMgmtCap := none } }

/-- The effective cap and its source (R461): host, management, or 92 A at the measured voltage. -/
def effectiveCap (s : State) (mV : Nat) : Nat × Nat :=
  let host := s.fld fPwrCapHostCap 0 0
  let mgmt := s.fld fPwrCapMgmtCap 0 0
  let current := 92 * mV / 1000
  if host ≤ mgmt ∧ host ≤ current then (host, 0) else if mgmt ≤ current then (mgmt, 1) else (current, 2)

/-- A section draws more than its share and loan (R463). In units of 1 / (8 × input power): the share S of the budget
cap × η − F, what the sections below S leave unused, lent in equal parts to those above. -/
def overShare (cap : Nat) (m : PowerMeas) (n : Nat) : Bool :=
  let inp : Int := max 1 m.inputW
  let draw (k : Nat) : Int := 8 * inp * (m.sectionW.getD k 0 : Nat)
  let consumers : Int := (m.fixedW + sumNat ((upTo 8).map (fun k => m.sectionW.getD k 0)) : Nat)
  let share : Int := cap * consumers - m.fixedW * inp
  let above := (upTo 8).filter (fun k => decide (share < draw k))
  let pool : Int := ((upTo 8).map (fun k => if draw k < share then share - draw k else 0)).foldl (· + ·) 0
  above.contains n && decide (share * above.length + pool < draw n * above.length)

/-- A section's level for the next period (R464): raised by the steps that the measurement calls for, else lowered by one. -/
def nextLevel (s : State) (cap : Nat) (m : PowerMeas) (n : Nat) : Nat :=
  let h := s.fld fPwrSectionHold n 0
  if overShare cap m n then min 15 (h + m.steps.getD n 0) else h - 1

/-- A section's thermal level for the next period (R470, R472); a rise from 0 is counted. -/
def stepHeat (s : State) (n : Nat) : State :=
  let t := s.fld fPwrSectionThermalHold n 0
  let t' := if s.power.hot.contains n then min 15 (t + 1) else if s.power.cool.contains n then t - 1 else t
  let s := s.setFld fPwrSectionThermalHold n 0 t'
  let s := s.setFld fThmSectionThrottling n 0 (toBit (decide (0 < heatLevel s n)))
  if t = 0 ∧ 0 < t' then s.bump fThmSectionThrottleEvents n 0 1 else s

/-- A partition runs Winter. -/
def anyWinter (s : State) : Bool := (upTo 8).any (fun p => (s.part p).present && (s.part p).winter)

/-- A change of level begins (R465, R466). -/
def beginSlew (s : State) (target : Nat) : State :=
  let s := (s.setFld fClkStatusTarget 0 0 target).setFld fClkStatusSlewing 0 0 1
  { s with power := { s.power with highSince := none, zeroSince := none } }

/-- The clock level after a period (R465). -/
def stepClock (s : State) (cap inputW : Nat) : State :=
  let hs := (upTo 8).map (fun n => s.fld fPwrSectionHold n 0)
  let since (on : Bool) (t : Option Nat) : Option Nat := if on then some (t.getD s.now) else none
  let s := { s with power := { s.power with
    highSince := since (hs.any (fun h => decide (4 ≤ h))) s.power.highSince,
    zeroSince := since (hs.all (· == 0)) s.power.zeroSince } }
  let passed (t : Option Nat) (ns : Nat) : Bool := match t with | some t => decide (t + ns ≤ s.now) | none => false
  let level := s.fld fClkStatusLevel 0 0
  if anyWinter s || s.fld fClkStatusSlewing 0 0 == 1 then s
  else if passed s.power.highSince 10000000 && decide (level < 4) then beginSlew s (level + 1)
  else if passed s.power.zeroSince 100000000 && decide (100 * inputW < 95 * cap) && decide (0 < level) then beginSlew s (level - 1)
  else s

/-- The measurements of a period as the registers show them (R462, R484): energy in mJ, of which a period adds a tenth for each
watt. -/
def noteMeasures (s : State) (m : PowerMeas) : State :=
  let e := s.power.energyTenths + m.inputW
  let s := { s with power := { s.power with energyTenths := e % 10 } }
  let s := ((s.setFld fPwrStatusInputW 0 0 m.inputW).setFld fPwrStatusInputMv 0 0 m.inputMv).wrap fPwrEnergyEnergyMj 0 0 (e / 10)
  forEach (upTo 8) s (fun n t => t.setFld fPwrSectionPowerW n 0 (m.sectionW.getD n 0))

/-- CAP_UNMET: the cap is exceeded with every section held at 15/16 (R463). -/
def stepUnmet (s : State) (cap inputW : Nat) : State :=
  let unmet := (upTo 8).all (fun n => s.fld fPwrSectionHold n 0 == 15) && decide (cap < inputW)
  let s := s.setFld fPwrStatusCapUnmet 0 0 (toBit unmet)
  if unmet then s.bump fPwrThrottleUnmetPeriods 0 0 1 else s

/-- A control period (R461 to R465, R468, R472). -/
def arbiterOp (m : PowerMeas) (s : State) : State :=
  if !running s then s
  else
    let s := noteMeasures (applyCaps s) m
    let (cap, source) := effectiveCap s m.inputMv
    let s := ((s.setFld fPwrStatusCapW 0 0 cap).setFld fPwrStatusCapSource 0 0 source).setFld fPwrStatusEmergency 0 0 0
    let s := forEach (upTo 8) s (fun n t => stepHeat (t.setFld fPwrSectionHold n 0 (nextLevel t cap m n)) n)
    stepClock (stepUnmet s cap m.inputW) cap m.inputW

/-- ARBITER_PERIOD (R463). -/
def execArbiterPeriod (meas : PowerMeas) (s : State) : Host.Outcome State Fault Refusal := .next (arbiterOp meas s)

/-- CLOCK_SLEW_END (R466). -/
def execClockSlewEnd (s : State) : Host.Outcome State Fault Refusal := .next (if running s then endSlew s else s)

/-- EMERGENCY_HOLD (R468): every section at 8 until the next control period. -/
def emergencyOp (s : State) : State :=
  if !running s || s.fld fPwrStatusEmergency 0 0 == 1 then s
  else (s.setFld fPwrStatusEmergency 0 0 1).bump fPwrThrottleEmergencyEvents 0 0 1

/-- EMERGENCY_HOLD (R468). -/
def execEmergencyHold (s : State) : Host.Outcome State Fault Refusal := .next (emergencyOp s)

/-! ### Sensors -/

/-- A die reading in 1/8 °C; none where it is ignored (R471). -/
def reading (v : Half) : Option Int :=
  if v = 0x8000 ∨ v.toInt < -320 ∨ 1200 < v.toInt then none else some v.toInt

/-- The sensors of a section (R469). -/
def secSensors (n : Nat) : List Nat := spanOf (10 * n) 10

/-- Die sensor `m` meets a test at two consecutive readings (R470). -/
def dieTwice (last now : List Half) (p : Int → Bool) (m : Nat) : Bool :=
  match last[m]?.bind reading, now[m]?.bind reading with
  | some a, some b => p a && p b
  | _, _ => false

/-- Stack `g` meets a test at two consecutive readings (R470). -/
def stackTwice (last now : List Byte) (p : Nat → Bool) (g : Nat) : Bool :=
  match last[g]?, now[g]? with
  | some a, some b => p a.toNat && p b.toNat
  | _, _ => false

/-- THM_SENSOR and THM_SECTION of a section (R471, R484). -/
def showSection (s : State) (now : List Half) (n : Nat) : State :=
  let ignored := ((secSensors n).filter (fun m => (now[m]?.bind reading).isNone)).length
  let best := (secSensors n).foldl (fun (a : Option (Nat × Int)) m => match now[m]?.bind reading, a with
    | some v, some (_, w) => if w < v then some (m, v) else a
    | some v, none => some (m, v)
    | none, _ => a) none
  let s := match best with
    | some (m, v) => (s.setFld fThmSectionHottest n 0 (BitVec.ofInt 16 v).toNat).setFld fThmSectionHottestSensor n 0 (m - 10 * n)
    | none => (s.setFld fThmSectionHottest n 0 0x8000).setFld fThmSectionHottestSensor n 0 0
  s.setFld fThmSectionIgnored n 0 ignored

/-- A sensor's register field (R484). -/
def sensorField (m : Nat) : RField :=
  match m % 4 with | 0 => fThmSensorSensor0 | 1 => fThmSensorSensor1 | 2 => fThmSensorSensor2 | _ => fThmSensorSensor3

/-- What the registers show of a round of readings. -/
def showReadings (s : State) (now : List Half) (temps : List Byte) : State :=
  let s := forEach (upTo 80) s (fun m t =>
    t.setFld (sensorField m) 0 (m / 4) (match now[m]?.bind reading with | some v => (BitVec.ofInt 16 v).toNat | none => 0x8000))
  let s := forEach (upTo 8) s (fun n t => showSection t now n)
  forEach (upTo 24) s (fun g t => t.setFld fHbmStatusTemp (g / 3) (g % 3) ((temps.getD g 0).toNat))

/-- A section with three sensors ignored is held at 15 until module reset; its score gains 500 points (R471). -/
def stepIgnored (s : State) (n : Nat) : State :=
  if s.fld fThmSectionIgnored n 0 < 3 || s.power.deadSections.contains n then s
  else healthEvent { s with power := { s.power with deadSections := s.power.deadSections ++ [n] } } (huSection n) 10 500

/-- Refresh at double rate above 85 °C, at the normal rate again below 83 °C (R67, R470). -/
def stepRefresh (s : State) (last now : List Byte) (g : Nat) : State :=
  if stackTwice last now (fun t => decide (85 < t)) g then s.setFld fHbmStatusRefDouble (g / 3) (g % 3) 1
  else if stackTwice last now (fun t => decide (t < 83)) g then s.setFld fHbmStatusRefDouble (g / 3) (g % 3) 0
  else s

/-- A trip turns the rails off in hardware; its record goes to flash where it can be written (R473). -/
def trip (s : State) (record : Option Word) : State :=
  { flash := match record with | some w => { s.flash with trip := w } | none => s.flash,
    module := { powered := true, perstAsserted := s.module.perstAsserted, off := true, thermTrip := true },
    hostMem := s.hostMem, out := s.out, freeCtr := s.freeCtr, pending := s.pending,
    security := { randomCtr := s.security.randomCtr, starts := s.security.starts } }

/-- A trip record (R484). -/
def tripWord (s : State) (kind source value : Nat) : Word :=
  BitVec.ofNat 64 (2 ^ 63 + kind * 2 ^ 60 + source * 2 ^ 53 + value % 65536 * 2 ^ 32 + s.flash.hours % 2 ^ 32)

/-- The first thermal trip that a round of readings calls for (R470, R473). -/
def thermalTrip (s : State) (dies : List Half) (temps : List Byte) : Option Word :=
  match (upTo 80).find? (dieTwice s.power.dieLast dies (fun v => decide (8 * (s.fld fThmCfgDieTrip 0 0 : Int) ≤ v))) with
  | some m => some (tripWord s 1 m ((dies.getD m 0).toNat))
  | none => ((upTo 24).find? (stackTwice s.power.stackLast temps (fun t => decide (s.fld fThmCfgStackTrip 0 0 ≤ t)))).map
      (fun g => tripWord s 2 g (8 * (temps.getD g 0).toNat))

/-- Sections that meet a throttle limit, and those wholly below the release (R470, R472). -/
def sectionHot (s : State) (dies : List Half) (temps : List Byte) (n : Nat) : Bool :=
  (secSensors n).any (dieTwice s.power.dieLast dies (fun v => decide (8 * (s.fld fThmCfgDieThrottle 0 0 : Int) ≤ v))) ||
  (spanOf (3 * n) 3).any (stackTwice s.power.stackLast temps (fun t => decide (s.fld fThmCfgStackThrottle 0 0 ≤ t)))
def sectionCool (s : State) (dies : List Half) (temps : List Byte) (n : Nat) : Bool :=
  (secSensors n).all (fun m => (dies[m]?.bind reading).isNone ||
    dieTwice s.power.dieLast dies (fun v => decide (v < 8 * (s.fld fThmCfgDieRelease 0 0 : Int))) m) &&
  (spanOf (3 * n) 3).all (stackTwice s.power.stackLast temps (fun t => decide (t < s.fld fThmCfgStackThrottle 0 0)))

/-- A round of readings (R469 to R473). -/
def sensorOp (dies : List Half) (temps : List Byte) (s : State) : State :=
  if !running s then s
  else match thermalTrip s dies temps with
    | some w => trip s (some w)
    | none =>
      let hot := (upTo 8).filter (sectionHot s dies temps)
      let cool := (upTo 8).filter (sectionCool s dies temps)
      let t := showReadings s dies temps
      let t := forEach (upTo 8) t (fun n u => stepIgnored u n)
      let t := forEach (upTo 24) t (fun g u => stepRefresh u s.power.stackLast temps g)
      { t with power := { t.power with dieLast := dies, stackLast := temps, hot := hot, cool := cool } }

/-- SENSOR_READ (R470). -/
def execSensorRead (dies : List Half) (temps : List Byte) (s : State) : Host.Outcome State Fault Refusal :=
  .next (sensorOp dies temps s)

/-- A supply trip (R470, R473, R488): below 38 V, above 62 V, or a rail outside its limits, whose record's KIND the spec does not
give. -/
def supplyTripOp (kind : SupplyTripKind) (mV : Nat) (recorded : Bool) (s : State) : State :=
  if !running s then s
  else match kind with
    | .under => if 38000 ≤ mV then s else trip s (if recorded then some (tripWord s 3 0 mV) else none)
    | .over => if mV ≤ 62000 then s else trip s (if recorded then some (tripWord s 4 0 mV) else none)
    | .rail =>
      let (w, s) := s.freeDraw
      trip s (if recorded then some (tripWord s (w.toNat % 8) 0 mV) else none)

/-- SUPPLY_TRIP (R473). -/
def execSupplyTrip (kind : SupplyTripKind) (mV : Nat) (recorded : Bool) (s : State) : Host.Outcome State Fault Refusal :=
  .next (supplyTripOp kind mV recorded s)

/-- A write of the management cap through PLDM (R461, R482): refused before operation (R444) and outside its range. -/
def mgmtCapOp (watts : Nat) (s : State) : State :=
  let answer (a : MgmtAnswer) (t : State) : State := { t with out := { t.out with mgmt := a } }
  if !running s || s.now < 5000000 then answer .silent s
  else if moduleState s = 2 then answer .notReady s
  else if !within 1500 4400 watts then answer .rejected s
  else answer .accepted { s with power := { s.power with pendingMgmtCap := some watts } }

/-- MGMT_CAP_SET (R461). -/
def execMgmtCapSet (watts : Nat) (s : State) : Host.Outcome State Fault Refusal := .next (mgmtCapOp watts s)

end Sys2Proof.Machine
end

