-- ==== Sys2Proof/Machine/Mgmt.lean ====
section
/-! DEFINITION. The management interface (R444, R475, R481, R482): PLDM_FIRMWARE_UPDATE, PLDM_SENSOR_READ, MCTP_CONTROL. -/

namespace Sys2Proof.Machine

/-- An answer of the management endpoint. -/
def mgmtAnswer (s : State) (a : MgmtAnswer) : State := { s with out := { s.out with mgmt := a } }

/-- The management endpoint answers (R443, R444): the module is out of reset, for 5 ms. -/
def mctpUp (s : State) : Bool := running s && decide (5000000 ≤ s.now)

/-- A new image is staged once it passes the checks of R474; the next module reset activates it (R475). -/
def firmwareUpdateOp (image : FwImage) (s : State) : State :=
  if !mctpUp s then mgmtAnswer s .silent
  else if imageGood s.flash image then mgmtAnswer { s with flash := { s.flash with fwStaged := some image } } .accepted
  else mgmtAnswer s .rejected

/-- PLDM_FIRMWARE_UPDATE (R475). -/
def execPldmFirmwareUpdate (image : FwImage) (s : State) : Host.Outcome State Fault Refusal := .next (firmwareUpdateOp image s)

/-- The answer for a sensor of a section (R444): while the module starts, initializing before the section's grant and inTest under
the Autumn test; else the value. -/
def sectionAnswer (s : State) (n : Nat) (v : Int) : MgmtAnswer :=
  if moduleState s ≠ 2 then .value v
  else if s.module.grants < 2 + n then .initializing
  else if (s.autumn n).isSome then .inTest
  else .value v

/-- The level of the module's health sensor: the highest level of its units (R435, R482). -/
def worstLevel (s : State) : Nat := (upTo 193).foldl (fun a u => max a (healthLevel s u)) 0

/-- What a sensor answers (R482, R484). -/
def sensorAnswer (s : State) : PldmItem → MgmtAnswer
  | .inputPower => .value (s.fld fPwrStatusInputW 0 0)
  | .inputVoltage => .value (s.fld fPwrStatusInputMv 0 0)
  | .effectiveCap => .value (s.fld fPwrStatusCapW 0 0)
  | .sectionTemp n => sectionAnswer s n.val (BitVec.ofNat 16 (s.fld fThmSectionHottest n.val 0)).toInt
  | .stackTemp g => sectionAnswer s (g.val / 3) (s.fld fHbmStatusTemp (g.val / 3) (g.val % 3))
  | .moduleState => .state (moduleState s) (worstLevel s)
  | .health => .state (moduleState s) (worstLevel s)

/-- A PLDM sensor read (R444, R482): not ready until 200 ms, unless configuration space is ready before. -/
def sensorReadOp (item : PldmItem) (s : State) : State :=
  if !mctpUp s then mgmtAnswer s .silent
  else if !s.module.cfgReady && decide (s.now < 200000000) then mgmtAnswer s .notReady
  else mgmtAnswer s (sensorAnswer s item)

/-- PLDM_SENSOR_READ (R482). -/
def execPldmSensorRead (item : PldmItem) (s : State) : Host.Outcome State Fault Refusal := .next (sensorReadOp item s)

/-- An MCTP control message is answered from 5 ms (R444, R481); the spec gives no contents of the answer: free values. -/
def mctpControlOp (command : Byte) (_data : List Byte) (s : State) : State :=
  if !mctpUp s then mgmtAnswer s .silent
  else
    let (w, s) := s.freeDraw
    mgmtAnswer s (.control command (leBytes 8 w.toNat))

/-- MCTP_CONTROL (R481). -/
def execMctpControl (command : Byte) (data : List Byte) (s : State) : Host.Outcome State Fault Refusal :=
  .next (mctpControlOp command data s)

end Sys2Proof.Machine
end

