-- ==== Sys2Proof/Machine/Replay.lean ====
section
/-! DEFINITION. The delivery of a recorded log (R265 to R268): REPLAY_DELIVER. -/

namespace Sys2Proof.Machine

/-- The record's launch and work cycle have come (R267). -/
def recordDue (s : State) (p : Nat) (r : List Byte) : Bool :=
  let (launch, cycle) := stampOf s p
  decide (fieldAt r 32 4 < launch) || (fieldAt r 32 4 == launch && decide (fieldAt r 8 8 ≤ cycle))

/-- A recorded write lands from its payload, where it lies in the partition, and is recorded anew (R267). -/
def replayWrite (s : State) (c source addr : Nat) (data : List Byte) : State :=
  let p := (s.ctx c).part
  if data.isEmpty || !inPartition s p addr data.length then s
  else storeBytes (recordInput s c 3 source addr data 0xFFFFFFFF) addr data

/-- The checksummed tensor block of a context that bytes written at an address make up, with its number (R60, R88). -/
def blockAtAddr (s : State) (c addr n : Nat) : Option (Tensor × Nat) :=
  ((s.objs.tensors.map (·.2)).filter (fun t => t.present && t.ctx == c && t.desc.checksum)).findSome? (fun t =>
    match blockAt t.homeDesc.arrays addr with
    | some b => (match blockPlace t.homeDesc.arrays b with | some (_, m) => if m = n then some (t, b) else none | none => none)
    | none => none)

/-- A recorded link message lands from its payload, with the checksum of the tensor block that it makes up, and signals its tally; the
log holds neither the amount added nor the kind of the message: the amount is a free value, and a message that writes a whole block
of a checksummed tensor counts as a BLOCK (log entry 141). -/
def replayMessage (s : State) (c source addr tally : Nat) (data : List Byte) : State :=
  let p := (s.ctx c).part
  let s := recordInput s c 4 source addr data tally
  let s := if data.isEmpty || !inPartition s p addr data.length then s
    else
      let s := writeMem s addr data false
      match blockAtAddr s c addr data.length with
      | some (t, b) => storeBytes s (t.homeDesc.crcAddr + 4 * b)
          (leBytes 4 (blockCrc t.desc.id b t.desc.version (data ++ List.replicate (4096 - data.length) 0)).toNat)
      | none => s
  if 16383 < tally then s
  else
    let (w, s) := s.freeDraw
    signalTally s tally (w.toNat % 65536)

/-- Recorded launches of one stamp start their slots at one work cycle, as one launch, where no command delivered before has launched
them: the launch number is then still that of the stamp (R244, R267). -/
def replayLaunch (s : State) (c launch : Nat) (slots : List (Nat × Nat)) : State :=
  let p := (s.ctx c).part
  let l := slots.filter (fun e => decide (e.1 < 96) && (s.slot e.1 e.2).loaded && (s.slot e.1 e.2).ctx == c && !(s.slot e.1 e.2).launched)
  if l.isEmpty || launch != (stampOf s p).1 then s
  else
    let fill := fillLaunch s c p l
    let s := forEach slots s (fun e t => recordInput t c 5 (8 * e.1 + e.2) 0 [] 0xFFFFFFFF)
    let s := startSlots (noteModels s p l) l (s.part p).winter fill
    if fill then s else restartWork s p

/-- Deliver one record as if its input had arrived (R267), with the launches that follow at its stamp; marks are compared where they
are recomputed. -/
def deliverRecord (s : State) (c : Nat) (r data : List Byte) (together : List (List Byte)) : State :=
  let source := fieldAt r 36 4
  let addr := fieldAt r 40 8
  match fieldAt r 0 1 with
  | 1 => acceptWord (source / 8 % 64) ⟨source % 8, Nat.mod_lt _ (by decide)⟩ (BitVec.ofNat 64 addr) false false s
  | 2 => ringOne (s.queue source).fn source addr true false s
  | 3 => replayWrite s c source addr data
  | 4 => replayMessage s c source addr (fieldAt r 56 4) data
  | 5 => replayLaunch s c (fieldAt r 32 4) (together.map (fun t => (fieldAt t 36 4 / 8, fieldAt t 36 4 % 8)))
  | _ => s

/-- The launches of a log that come together with one at a position: those that follow it at its stamp. -/
def launchesAt (s : State) (g : Log) (r : List Byte) : List (List Byte) :=
  if fieldAt r 0 1 ≠ 5 then []
  else ((logRecs s (g.base + g.pos) (g.length - g.pos) 768 0).map (·.2)).takeWhile (fun t =>
    fieldAt t 0 1 == 5 && fieldAt t 32 4 == fieldAt r 32 4 && fieldAt t 8 8 == fieldAt r 8 8)

/-- The log has no record at an offset. -/
def logEnds (s : State) (g : Log) (pos : Nat) : Bool := decide (g.length < pos + 64) || fieldAt (readBytes s (g.base + pos) 1) 0 1 == 0

/-- The replay has delivered its last record: its command publishes the number delivered (R377). -/
def replayEnd (s : State) (c delivered : Nat) : State :=
  let s := s.modCtx c (fun x => { x with replay := none })
  match s.host.commands.find? (fun p => p.kind == .rplReplay c) with
  | some p => publishOne s p 0 delivered
  | none => s

/-- Move the log's position past a record, then end the replay at the last one. -/
def replayPast (s : State) (c pos seq : Nat) : State :=
  match (s.ctx c).replay with
  | some g =>
    if logEnds s g pos then replayEnd s c seq
    else s.modCtx c (fun x => { x with replay := some { g with pos := pos, seq := seq } })
  | none => s

/-- Deliver the next record of a context's log, never before its time (R267). -/
def replayDeliverOp (c : Nat) (s : State) : State :=
  match (s.ctx c).replay with
  | some g =>
    if (s.ctx c).mode != .active || !running s then s
    else if logEnds s g g.pos then replayEnd s c g.seq
    else
      let r := readBytes s (g.base + g.pos) 64
      let pos := g.pos + 64 + 64 * fieldAt r 6 2
      let data := readBytes s (g.base + g.pos + 64) (min (fieldAt r 48 4) (64 * fieldAt r 6 2))
      if !recordDue s (s.ctx c).part r then s
      else
        let (s, bad) := readMem s (g.base + g.pos) (64 + data.length)
        match worstOf bad with
        | some poison => ctxFault s c 6 (addrSec (g.base + g.pos)) 0 poison
        | none => replayPast (deliverRecord s c r data (launchesAt s g r)) c pos (g.seq + (if fieldAt r 0 1 = 6 then 0 else 1))
  | none => s

/-- REPLAY_DELIVER (R267). -/
def execReplayDeliver (ctx : CtxId) (s : State) : Host.Outcome State Fault Refusal := .next (replayDeliverOp ctx.val s)

end Sys2Proof.Machine
end

