-- ==== Sys2Proof/Machine/Spdm.lean ====
section
/-! DEFINITION. Attestation and debug access (R337, R476 to R480): TDISP_REQUEST, the SPDM requests, DEBUG_TOKEN, the TAP. -/

namespace Sys2Proof.Machine

/-! ### Measurements (R476) -/

/-- The digests that the root of trust has taken of what it admitted, for indices 1 to 5. -/
def baseMeasurement (s : State) (index : Nat) : BitVec 512 :=
  match index with
  | 2 => (match s.flash.fwActive with | some i => i.digest | none => Config.measurement 2 [])
  | 3 => Config.measurement 3 (match s.flash.fwActive with
      | some i => [i.svn, s.flash.minSvn] ++ (match i.keySlot with | some k => [k.val] | none => [])
      | none => [s.flash.minSvn])
  | 4 => Config.measurement 4 [s.security.debugLevel]
  | 5 => Config.measurement 5 [Config.stepping.toNat, 255, Config.stack10G.toNat]
  | k => Config.measurement k []

/-- What a TDI's measurement covers (R476): partition, tenancy, BAR sizes, MSI-X table, BAR2 windows, queue bindings. -/
def tdiFacts (s : State) (f : Nat) : List Nat :=
  let x := s.fn f
  let p := fnPart s f
  [p, toBit (s.part p).isSealed, x.bar2Log] ++ x.msixTable.flatMap (fun e => [e.1, e.2.toNat]) ++
  x.windows.flatMap (fun e => [e.1, e.2]) ++
  (queuesWhere s (fun q => q.fn == f)).flatMap (fun q => [q, (s.queue q).slot])

/-- A function is a TDI. -/
def isTdi (s : State) (f : Nat) : Bool := decide (0 < f ∧ f < 64) && (s.fn f).tdi != .notTdi

/-- The digest reported under an index. -/
def measureOf (s : State) (index : Nat) : Option (BitVec 512) :=
  if 1 ≤ index ∧ index ≤ 5 then some (baseMeasurement s index)
  else if index = 6 then some s.flash.handoverChain
  else if 0x10 < index ∧ isTdi s (index - 0x10) then some (Config.measurement index (tdiFacts s (index - 0x10)))
  else none

/-- A measurement as its bytes. Raw, index 4 reports LEVEL and index 6 the last 512 handover records and their count (R476,
R479). -/
def measureBytes (s : State) (index : Nat) (raw : Bool) : Option (List Byte) :=
  if raw && index == 4 then some (leBytes 1 s.security.debugLevel)
  else if raw && index == 6 then
    some ((s.flash.handoverLog.drop (s.flash.handoverLog.length - 512)).flatten ++ leBytes 8 s.flash.handoverLog.length)
  else (measureOf s index).map digestBytes

/-- Every measurement with an index of a list. -/
def measureList (s : State) (raw : Bool) (l : List Nat) : List (Nat × List Byte) :=
  l.filterMap (fun i => (measureBytes s i raw).map (fun b => (i, b)))

/-- Slot 0's chain: root, device and alias certificate (R477). -/
def certChain (s : State) : List Byte :=
  Config.deviceCertificates ++ Config.aliasCertificate s.security.starts ([1, 2, 3].map (baseMeasurement s))

/-! ### TDISP (R337, R478) -/

/-- An answer of the responder. -/
def spdmAnswer (s : State) (a : SpdmAnswer) : State := { s with out := { s.out with spdm := a } }

/-- A TDI takes a state and says so. -/
def tdiTo (s : State) (f : Nat) (m : TdiMode) : State := spdmAnswer (s.modFn f (fun x => { x with tdi := m })) (.tdi m [])

/-- A TDISP request to a TDI; `violation` is what R337 lets lead to ERROR. -/
def tdispStep (f : Nat) (req : TdispReq) (s : State) : State :=
  let bad := spdmAnswer s (.error .invalidState)
  match req, (s.fn f).tdi with
  | .lock, .unlocked => tdiTo s f .locked
  | .start, .locked => tdiTo s f .run
  | .stop, _ => tdiTo s f .unlocked
  | .report, .locked => spdmAnswer s (.tdi .locked (measureList s false [0x10 + f, 1, 2, 3, 4, 5, 6]))
  | .report, .run => spdmAnswer s (.tdi .run (measureList s false [0x10 + f, 1, 2, 3, 4, 5, 6]))
  | .violation, .locked => spdmAnswer (tdiError s f) (.tdi .error [])
  | .violation, .run => spdmAnswer (tdiError s f) (.tdi .error [])
  | _, _ => bad

/-- A TDISP request; only a virtual function is a TDI. -/
def tdispOp (f : Nat) (req : TdispReq) (s : State) : State :=
  if !running s || !s.module.cfgReady then spdmAnswer s .none
  else if !isTdi s f then spdmAnswer s (.error .invalidRequest)
  else tdispStep f req s

/-- TDISP_REQUEST (R337). -/
def execTdispRequest (fn : Fn) (req : TdispReq) (s : State) : Host.Outcome State Fault Refusal := .next (tdispOp fn.val req s)

/-! ### SPDM (R477) -/

/-- The number of a channel's connection: the function of its DOE mailbox, or 64 for MCTP. -/
def chanKey : SpdmChan → Nat
  | .doe f => f.val
  | .mctp => 64

/-- The channel is answered (R330, R444). -/
def chanUp (s : State) : SpdmChan → Bool
  | .doe f => running s && s.module.cfgReady && (s.fn f.val).mode != .absent
  | .mctp => mctpUp s

/-- A request on a channel that is answered; on another nothing is. -/
def onChan (s : State) (c : SpdmChan) (k : SpdmConn → State) : State :=
  if chanUp s c then k (s.spdm (chanKey c)) else spdmAnswer s .none

/-- The same for a request that comes after the algorithms are agreed (PRESUMED, DSP0274). -/
def onAgreed (s : State) (c : SpdmChan) (k : SpdmConn → State) : State :=
  onChan s c (fun x => if x.algorithms then k x else spdmAnswer s (.error .unexpectedRequest))

/-- A random value of a response. -/
def drawRandom (s : State) : List Byte × State :=
  (Config.spdmRandom s.security.randomCtr, { s with security := { s.security with randomCtr := s.security.randomCtr + 1 } })

/-- GET_VERSION: versions 1.2 and 1.3; the connection begins anew. -/
def getVersionOp (c : SpdmChan) (s : State) : State :=
  onChan s c (fun _ => spdmAnswer (s.setSpdm (chanKey c) {}) (.version [0x12, 0x13]))

/-- GET_VERSION (R477). -/
def execGetVersion (chan : SpdmChan) (s : State) : Host.Outcome State Fault Refusal := .next (getVersionOp chan s)

/-- GET_CAPABILITIES in one of the two versions. -/
def getCapabilitiesOp (c : SpdmChan) (v : Byte) (s : State) : State :=
  onChan s c (fun x =>
    if v = 0x12 ∨ v = 0x13 then spdmAnswer (s.setSpdm (chanKey c) { x with version := v }) (.capabilities v)
    else spdmAnswer s (.error .versionMismatch))

/-- GET_CAPABILITIES (R477). -/
def execGetCapabilities (chan : SpdmChan) (version : Byte) (s : State) : Host.Outcome State Fault Refusal :=
  .next (getCapabilitiesOp chan version s)

/-- NEGOTIATE_ALGORITHMS: ML-DSA-65 as 0x4B44 and SHAKE256 as 0x4B53, or the error for no common algorithm. -/
def negotiateAlgorithmsOp (c : SpdmChan) (extAsym extHash : List Half) (s : State) : State :=
  onChan s c (fun x =>
    if x.version = 0 then spdmAnswer s (.error .unexpectedRequest)
    else if extAsym.contains 0x4B44 && extHash.contains 0x4B53 then
      spdmAnswer (s.setSpdm (chanKey c) { x with algorithms := true }) (.algorithms 0x4B44 0x4B53)
    else spdmAnswer s (.error .noCommonAlgorithm))

/-- NEGOTIATE_ALGORITHMS (R477). -/
def execNegotiateAlgorithms (chan : SpdmChan) (extAsym extHash : List Half) (s : State) : Host.Outcome State Fault Refusal :=
  .next (negotiateAlgorithmsOp chan extAsym extHash s)

/-- GET_DIGESTS: the digest of slot 0's chain. -/
def getDigestsOp (c : SpdmChan) (s : State) : State :=
  onAgreed s c (fun _ => spdmAnswer s (.digests (Config.shake256 (certChain s))))

/-- GET_DIGESTS (R477). -/
def execGetDigests (chan : SpdmChan) (s : State) : Host.Outcome State Fault Refusal := .next (getDigestsOp chan s)

/-- GET_CERTIFICATE: a portion of slot 0's chain and how much is left. -/
def getCertificateOp (c : SpdmChan) (slot offset length : Nat) (s : State) : State :=
  onAgreed s c (fun _ =>
    let b := certChain s
    if slot ≠ 0 ∨ b.length ≤ offset then spdmAnswer s (.error .invalidRequest)
    else spdmAnswer s (.certificate ((b.drop offset).take length) (b.length - offset - length)))

/-- GET_CERTIFICATE (R477). -/
def execGetCertificate (chan : SpdmChan) (slot offset length : Nat) (s : State) : Host.Outcome State Fault Refusal :=
  .next (getCertificateOp chan slot offset length s)

/-- CHALLENGE: the chain's digest and a random value, signed together with the requester's nonce. -/
def challengeOp (c : SpdmChan) (slot : Nat) (nonce : List Byte) (s : State) : State :=
  onAgreed s c (fun _ =>
    if slot ≠ 0 then spdmAnswer s (.error .invalidRequest)
    else
      let (r, s) := drawRandom s
      let b := digestBytes (Config.shake256 (certChain s)) ++ r
      spdmAnswer s (.signed b (Config.sign (nonce ++ b))))

/-- CHALLENGE (R477). -/
def execChallenge (chan : SpdmChan) (slot : Nat) (nonce : List Byte) (s : State) : Host.Outcome State Fault Refusal :=
  .next (challengeOp chan slot nonce s)

/-- The indices that a request names: one, or with 0xFF all of them. -/
def measureIndices (s : State) (index : Nat) : List Nat :=
  if index = 0xFF then [1, 2, 3, 4, 5, 6] ++ ((spanOf 1 63).filter (isTdi s)).map (0x10 + ·) else [index]

/-- GET_MEASUREMENTS: what the root of trust holds under the index, signed (R476). -/
def getMeasurementsOp (c : SpdmChan) (index : Nat) (raw : Bool) (s : State) : State :=
  onAgreed s c (fun _ =>
    let l := measureList s raw (measureIndices s index)
    if l.isEmpty then spdmAnswer s (.error .invalidRequest)
    else
      let (r, s) := drawRandom s
      spdmAnswer s (.measurements l (Config.sign (l.flatMap (·.2) ++ r))))

/-- GET_MEASUREMENTS (R476). -/
def execGetMeasurements (chan : SpdmChan) (index : Nat) (raw : Bool) (s : State) : Host.Outcome State Fault Refusal :=
  .next (getMeasurementsOp chan index raw s)

/-- KEY_EXCHANGE: the module's share, signed with the requester's; a session begins. -/
def keyExchangeOp (c : SpdmChan) (slot : Nat) (sessionId : Half) (exchange : List Byte) (s : State) : State :=
  onAgreed s c (fun x =>
    if slot ≠ 0 then spdmAnswer s (.error .invalidRequest)
    else
      let (r, s) := drawRandom s
      spdmAnswer (s.setSpdm (chanKey c) { x with session := some sessionId, finished := false })
        (.key r (Config.sign (exchange ++ r))))

/-- KEY_EXCHANGE (R477). -/
def execKeyExchange (chan : SpdmChan) (slot : Nat) (sessionId : Half) (exchange : List Byte) (s : State) :
    Host.Outcome State Fault Refusal := .next (keyExchangeOp chan slot sessionId exchange s)

/-- FINISH: the session is established once the requester's proof verifies; else it ends. -/
def finishOp (c : SpdmChan) (verified : Bool) (s : State) : State :=
  onAgreed s c (fun x =>
    if x.session.isNone || x.finished then spdmAnswer s (.error .unexpectedRequest)
    else if verified then spdmAnswer (s.setSpdm (chanKey c) { x with finished := true }) .ok
    else spdmAnswer (s.setSpdm (chanKey c) { x with session := none }) (.error .decryptError))

/-- FINISH (R477). -/
def execFinish (chan : SpdmChan) (verified : Bool) (s : State) : Host.Outcome State Fault Refusal := .next (finishOp chan verified s)

/-- END_SESSION: the established session ends. -/
def endSessionOp (c : SpdmChan) (s : State) : State :=
  onAgreed s c (fun x =>
    if !x.finished then spdmAnswer s (.error .unexpectedRequest)
    else spdmAnswer (s.setSpdm (chanKey c) { x with session := none, finished := false }) .ok)

/-- END_SESSION (R477). -/
def execEndSession (chan : SpdmChan) (s : State) : Host.Outcome State Fault Refusal := .next (endSessionOp chan s)

/-! ### Debug access (R479, R480) -/

/-- A sealed partition exists. -/
def anySealed (s : State) : Bool := (upTo 8).any (fun p => (s.part p).present && (s.part p).isSealed)

/-- The token is one for this module and this start, with a known level and a good signature (R479). -/
def tokenGood (s : State) (version level : Byte) (moduleId : BitVec 48) (nonce : BitVec 256) (signatureOk : Bool) : Bool :=
  version == 0x10 && within 1 3 level.toNat && moduleId == Config.moduleId && nonce == Config.debugNonce s.security.starts && signatureOk

/-- A debug token, accepted only while no sealed partition exists; nothing lowers the level before the next module reset
(R479). -/
def debugTokenOp (version level : Byte) (moduleId : BitVec 48) (nonce : BitVec 256) (signatureOk : Bool) (s : State) : State :=
  if !mctpUp s then mgmtAnswer s .silent
  else if anySealed s || !tokenGood s version level moduleId nonce signatureOk then mgmtAnswer s .rejected
  else mgmtAnswer { s with security := { s.security with debugLevel := max s.security.debugLevel level.toNat } } .accepted

/-- DEBUG_TOKEN (R479). -/
def execDebugToken (version level : Byte) (moduleId : BitVec 48) (nonce : BitVec 256) (signatureOk : Bool) (s : State) :
    Host.Outcome State Fault Refusal := .next (debugTokenOp version level moduleId nonce signatureOk s)

/-- The TAP takes an instruction; a module without power has none. -/
def tapTo (s : State) (i : TapInstr) (drives : Bool) (read : Word32) : State :=
  if !s.module.powered then s
  else { s with security := { s.security with tapInstr := i, tapDrives := drives }, out := { s.out with tap := read } }

/-- TAP_BYPASS (R480): the bypass register is selected. -/
def execTapBypass (s : State) : Host.Outcome State Fault Refusal := .next (tapTo s .bypass false 0)

/-- TAP_IDCODE (R480): the identification register is selected and read. -/
def execTapIdcode (s : State) : Host.Outcome State Fault Refusal := .next (tapTo s .idcode false Config.tapIdcode)

/-- SAMPLE/PRELOAD (R480): the pins are sampled and the boundary cells preloaded, without an effect on the pins. -/
def tapSampleOp (sampled preload : List Bool) (s : State) : State :=
  if !s.module.powered then s
  else
    let s := tapTo s .sample false 0
    { s with security := { s.security with tapCapture := sampled, tapCells := preload } }

/-- TAP_SAMPLE_PRELOAD (R480). -/
def execTapSamplePreload (sampled preload : List Bool) (s : State) : Host.Outcome State Fault Refusal :=
  .next (tapSampleOp sampled preload s)

/-- EXTEST takes the pins only while the module is starting and no Icvar firmware has started; else it acts as BYPASS. -/
def tapExtestOp (s : State) : State :=
  if moduleState s = 2 ∧ s.module.fwVerified = false then tapTo s .extest true 0 else tapTo s .bypass false 0

/-- TAP_EXTEST (R480). -/
def execTapExtest (s : State) : Host.Outcome State Fault Refusal := .next (tapExtestOp s)

end Sys2Proof.Machine
end

