-- ==== Sys2Proof/Machine/Witness.lean ====
section
/-! DEFINITION. The witness array's check of a sampled block: exact check, drift check, outlier records (R203 to R208). -/

namespace Sys2Proof.Machine

/-! ### Outlier records (R208) -/

/-- The part of an outlier record that names the finding: kind, place in the tile, both values, outputs concerned. -/
structure Finding where
  kind : Nat
  row : Nat
  col : Nat
  arrayValue : Word32
  witnessValue : Word32
  mismatches : Nat
  deriving DecidableEq, Repr

/-- The 64 bytes of an outlier record (R208). -/
def outlierBytes (s : State) (x : Sample) (f : Finding) (cond : Cond) : List Byte :=
  let b := x.bytes
  leBytes 8 s.now ++ leBytes 1 f.kind ++ leBytes 1 (coreSec x.core) ++ leBytes 1 (x.core % 12) ++ leBytes 1 x.array ++
  leBytes 2 x.ctx ++ leBytes 2 x.tag ++ leBytes 4 x.index ++ leBytes 4 (tOut b) ++ leBytes 4 (tStep b) ++
  leBytes 2 f.row ++ leBytes 2 f.col ++ leBytes 4 f.arrayValue.toNat ++ leBytes 4 f.witnessValue.toNat ++
  leBytes 2 f.mismatches ++ leBytes 2 cond.temp.toNat ++ leBytes 2 cond.voltage.toNat ++ leBytes 1 (tOp b) ++
  leBytes 1 (tFlow b + 4 * (tileQuadP s x.ctx b).log2) ++ leBytes 2 cond.aclk.toNat ++ leBytes 2 cond.load.toNat ++
  leBytes 2 cond.power.toNat ++ leBytes 10 0

/-- Log an outlier: the registers of R221 hold it, and the partition's ring takes its record unless it is full or none is set
(R208). -/
def logOutlier (s : State) (p : Nat) (x : Sample) (f : Finding) (cond : Cond) : State :=
  let sec := coreSec x.core
  let w := 2 ^ 63 + f.kind * 2 ^ 60 + x.core % 12 * 2 ^ 56 + x.array % 4 * 2 ^ 54 + x.ctx % 512 * 2 ^ 45 +
    f.mismatches % 2048 * 2 ^ 34 + x.index % 2 ^ 32
  let c := cond.temp.toNat * 2 ^ 48 + cond.voltage.toNat * 2 ^ 32 + cond.load.toNat * 2 ^ 16 + cond.power.toNat
  let s := (s.setRaw ⟨.numWitLast, sec, 0⟩ (BitVec.ofNat 64 w)).setRaw ⟨.numWitLastCond, sec, 0⟩ (BitVec.ofNat 64 c)
  match (s.part p).outlier with
  | some (a, len, n) =>
    if len < 64 * (n + 1) then s.bump fNumLogLost sec 0 1
    else
      let s := storeBytes s (a + 64 * n) (outlierBytes s x f cond)
      (s.modPart p (fun y => { y with outlier := some (a, len, n + 1) })).bump fNumLogWritten sec 0 1
  | none => s.bump fNumLogLost sec 0 1

/-! ### The drift check (R207) -/

/-- An operand value of the drift check as a cell sees it. -/
def plainElem (w : Word32) : Elem := { val := val32 w, scale := .fin false 1, block := 0, raw := w.toNat }

/-- A wide source may be read: it is registered and its BASE lies in Loam scratchpad; 0 names the narrow operand. -/
def wideOk (s : State) (p id : Nat) : Bool :=
  id == 0 || ((s.tensor p id).present && inScratchpad s (s.tensor p id).desc.base 1)

/-- The operand rows of a drift check: the tapped ones, or the same elements of the wide source. -/
def wideVals (s : State) (p id : Nat) (v : View) (trans : Bool) (first n k : Nat) (tap : List (List Word32)) :
    List (List Word32) :=
  if id = 0 then tap
  else
    let w : View := { v with t := s.tensor p id }
    (spanOf first n).map (fun i => (upTo k).map (fun j =>
      let e : Nat × Nat := if trans then (j, i) else (i, j)
      word32 (src32 s w.t.desc (w.rowAt e.1) (w.col + e.2))))

/-- The byte ranges of a wide source's view. -/
def wideRanges (s : State) (p id : Nat) (v : View) : List (Nat × Nat) :=
  if id = 0 then [] else View.ranges { v with t := s.tensor p id }

/-- The witness's results of a block from wide sources, in the tile's reduction order, as binary32 (R114 to R121). -/
def wideResults (s : State) (p : Nat) (x : Sample) (d : DriftPair) : List Word32 :=
  let b := x.bytes
  let as := wideVals s p d.wideA (viewA s x.ctx b) (tATrans b) x.row0 x.rows (tK b) x.aTap
  let bs := wideVals s p d.wideB (viewB s x.ctx b) (tBTrans b) x.col0 x.cols (tK b) x.bTap
  (upTo x.rows).flatMap (fun i => (upTo x.cols).map (fun j =>
    let init := (x.initTap.getD (i * x.cols + j) none).map (fun v => (val32 v.1, v.2))
    let a := reduce (tOp b) false (tKDesc b) (tK b) (tileTau false b)
      (fun k => plainElem ((as.getD i []).getD k 0)) (fun k => plainElem ((bs.getD j []).getD k 0)) init
    word32 (a.drain false (tOp b == 4 || tOp b == 6) (.fin false 1))))

/-- The deviation of an output (R207). -/
def driftOf (n w floor : Word32) : Val :=
  match val32 n, val32 w with
  | .nan, _ | _, .nan => .inf false
  | a, b => div32 (vabs (rnd32 (vsub a b))) (vmax (vabs b) (val32 floor))

/-- The histogram bin of a deviation (R207). -/
def driftBin (e : Val) : Option Nat :=
  match e with
  | .fin _ m => some (if m < pow2 (-23) then 0 else min 15 (ilog2 m + 24).toNat)
  | .inf _ => some 15
  | .nan => none

/-- Take a sample into a drift pair's statistics (R207). -/
def driftAdd (d : DriftPair) (es : List Val) : DriftPair :=
  let above := (es.filter (fun e => vlt (val32 d.band) e)).length
  { d with samples := satAdd 32 d.samples 1, overBand := satAdd 32 d.overBand above,
           eMax := es.foldl (fun m e => word32 (vmax (val32 m) e)) d.eMax,
           hist := es.foldl (fun h e => match driftBin e with
             | some i => h.modify i (satAdd 32 · 1)
             | none => h) d.hist }

/-- The finding of a sample over band: the output with the largest deviation. -/
def driftFinding (x : Sample) (d : DriftPair) (ns ws : List Word32) (es : List Val) : Finding :=
  let top := es.foldl vmax Val.nan
  let i := (es.findIdx? (· == top)).getD 0
  { kind := 3, row := x.row0 + i / max 1 x.cols, col := x.col0 + i % max 1 x.cols, arrayValue := ns.getD i 0,
    witnessValue := ws.getD i 0, mismatches := (es.filter (fun e => vlt (val32 d.band) e)).length }

/-- Change a drift pair of a partition, by its number. -/
def setDrift (s : State) (p i : Nat) (d : DriftPair) : State :=
  s.modPart p (fun y => { y with drift := y.drift.map (fun e => if e.1 = i then (i, d) else e) })

/-- The drift check of a sample, if its OUT tensor has a pair (R207). -/
def driftCheck (s : State) (p : Nat) (x : Sample) (cond : Cond) : State :=
  match (s.part p).drift.find? (fun e => e.2.outId == tOut x.bytes) with
  | none => s
  | some (id, d) =>
    let noWindow := (s.part p).winter && !holderOpen s p 6 (coreSec x.core)
    if !wideOk s p d.wideA || !wideOk s p d.wideB || noWindow then
      setDrift s p id { d with skipped := satAdd 32 d.skipped 1 }
    else
      let (s, _) := readAll s (wideRanges s p d.wideA (viewA s x.ctx x.bytes) ++ wideRanges s p d.wideB (viewB s x.ctx x.bytes))
      let ws := wideResults s p x d
      let es := List.zipWith (fun n w => driftOf n w d.floor) x.narrow ws
      let s := setDrift s p id (driftAdd d es)
      let f := driftFinding x d x.narrow ws es
      if f.mismatches = 0 then s
      else logOutlier (s.bump fNumWitEventsDriftOverBand (coreSec x.core) 0 1) p x f cond

/-! ### The exact check (R204 to R206) -/

/-- A tile is the one that a sample came from. -/
def sampleRun (x : Sample) (r : TileRun) : Bool := r.sampled && r.index == x.index && r.slot == x.slot

/-- The tile of a sample that has completed and waits for its check (R206). -/
def heldTile (s : State) (x : Sample) : Option TileRun :=
  ((s.core x.core).held.find? (fun e => e.1 == x.array && sampleRun x e.2)).map (·.2)

/-- The tile of a sample that still runs on its unit. -/
def runningTile (s : State) (x : Sample) : Option TileRun :=
  match coreUnit s x.core x.array with
  | .tile r => if sampleRun x r then some r else none
  | _ => none

/-- The tile of a sample waits no longer. -/
def dropTile (s : State) (x : Sample) : State :=
  s.modCore x.core (fun c => { c with held := c.held.filter (fun e => !(e.1 == x.array && sampleRun x e.2)), moved := aCycles s })

/-- A tile held for its check goes on: it signals, or signals when it completes (R206). -/
def releaseTile (s : State) (x : Sample) : State :=
  match heldTile s x with
  | some r => if tileDead s r then checkComplete (dropTile s x) x.core r.slot else signalTile (dropTile s x) x.core x.array r
  | none =>
    match runningTile s x with
    | some r => setUnit s x.core x.array (.tile { r with sampled := false })
    | none => s

/-- A tile held for its check never signals (R206); what it has not yet published is bounded by R167. -/
def stopTile (s : State) (x : Sample) : State :=
  match runningTile s x with
  | some r => setUnit (partialWrites s r.writes) x.core x.array .idle
  | none => dropTile s x

/-- The block as the witness computes it, some of its own accumulators perhaps wrong (R204). -/
def witnessAccs (x : Sample) (wrong : List CellError) : List (BitVec 48 × Word32) :=
  x.truth.zipIdx.map (fun a => match wrong.find? (fun e => e.out == a.2) with | some e => (e.value, e.index) | none => a.1)

/-- Two accumulators differ; in the ARG modes the indices count (R204). -/
def accDiffers (x : Sample) (a w : BitVec 48 × Word32) : Bool := a.1 != w.1 || (within 5 6 (tOp x.bytes) && a.2 != w.2)

/-- The outputs of a block in which two results differ, by their numbers. -/
def accDiffs (x : Sample) (l m : List (BitVec 48 × Word32)) : List Nat :=
  (upTo (min l.length m.length)).filter (fun i => accDiffers x (l.getD i (0, 0)) (m.getD i (0, 0)))

/-- The finding of an exact check (R208): the first differing output with both values, and the number that differ. Of a 48-bit integer
the record holds the low 32 bits (log entry 138). -/
def exactFinding (kind : Nat) (x : Sample) (w : List (BitVec 48 × Word32)) : Finding :=
  let l := accDiffs x x.accs w
  let i := l.headD 0
  { kind := kind, row := x.row0 + i / max 1 x.cols, col := x.col0 + i % max 1 x.cols,
    arrayValue := (x.accs.getD i (0, 0)).1.setWidth 32, witnessValue := (w.getD i (0, 0)).1.setWidth 32, mismatches := l.length }

/-- The array is at fault (R205). -/
def arrayAtFault (s : State) (sec p : Nat) (x : Sample) (w : List (BitVec 48 × Word32)) (cond : Cond) : State :=
  let s := logOutlier s p x (exactFinding 1 x w) cond
  let s := healthEvent (s.bump fNumWitEventsExactMismatch sec 0 1) (huCore x.core) 17 7000
  let s := postBoth s (some p) 0xE2 (sec * 2 ^ 45 + x.core % 12 * 2 ^ 41 + x.array * 2 ^ 39 + x.ctx * 2 ^ 30)
  let s := stopTile s x
  if x.tag = ctxTag s x.ctx then coreFault s x.core x.slot x.index x.array x.ctx 0x0D false else s

/-- The witness is at fault: it logs and goes offline in its section; no context faults (R204). -/
def witnessAtFault (s : State) (sec p : Nat) (x : Sample) (w : List (BitVec 48 × Word32)) (cond : Cond) : State :=
  let s := logOutlier s p x (exactFinding 2 x w) cond
  let s := (s.bump fNumWitEventsSelfDisagree sec 0 1).setFld fNumCfgWitOffline sec 0 1
  let s := healthEvent s (huSection sec) 15 1000
  releaseTile (postTo s [0] 0xEA (sec * 2 ^ 45)) x

/-- The witness finishes a block (R204, R205): it recomputes the block, and once more where any output differs; `first` and `second`
are the errors of its own cells in the two passes. -/
def witnessDone (sec : Nat) (first second : List CellError) (cond : Cond) (s : State) : State :=
  match s.witness sec with
  | none => s
  | some x =>
    let p := (s.ctx x.ctx).part
    let s := (s.setWitness sec none).bump fNumWitStatSampled sec 0 1
    let s := dropCauses s p (fun c => c.field == 6 && c.key == witnessKey sec)
    let w := witnessAccs x first
    if (accDiffs x x.accs w).isEmpty then releaseTile (driftCheck s p x cond) x
    else if (accDiffs x w (witnessAccs x second)).isEmpty then arrayAtFault s sec p x w cond
    else witnessAtFault s sec p x w cond

/-- WITNESS_CHECK_DONE (R204). -/
def execWitnessCheckDone (sec : Sec) (result : WitnessResult) (cond : Cond) (s : State) : Host.Outcome State Fault Refusal :=
  .next (witnessDone sec.val result.first result.second cond s)

end Sys2Proof.Machine
end

