-- ==== Sys2Proof/Machine/Dispatch.lean ====
section
/-! DEFINITION. The meaning of each command: one arm per constructor of `Instr`, each one direct call of its meaning. -/

namespace Sys2Proof.Machine

/-- A command's effect on everything but the queue of waiting commands. -/
def exec (i : Instr) (s : State) : Host.Outcome State Fault Refusal :=
  match i with
  | .pcieConfigRequest fn access => Sys2Proof.Machine.execPcieConfigRequest fn access s
  | .perstNAssert => Sys2Proof.Machine.execPerstNAssert s
  | .perstNRelease => Sys2Proof.Machine.execPerstNRelease s
  | .hotReset => Sys2Proof.Machine.execHotReset s
  | .startPathChoice fullStartN => Sys2Proof.Machine.execStartPathChoice fullStartN s
  | .powerGrant => Sys2Proof.Machine.execPowerGrant s
  | .configSpaceReady => Sys2Proof.Machine.execConfigSpaceReady s
  | .autumnBlockDone sec block signature again temp => Sys2Proof.Machine.execAutumnBlockDone sec block signature again temp s
  | .moduleOperational => Sys2Proof.Machine.execModuleOperational s
  | .shdnReq pldm => Sys2Proof.Machine.execShdnReq pldm s
  | .resetKeyWrite value => Sys2Proof.Machine.execResetKeyWrite value s
  | .registerWrite fn off width value hwSet => Sys2Proof.Machine.execRegisterWrite fn off width value hwSet s
  | .rcRegisterRead fn off width coincident => Sys2Proof.Machine.execRcRegisterRead fn off width coincident s
  | .mbxInDeposit fn j lanes value => Sys2Proof.Machine.execMbxInDeposit fn j lanes value s
  | .mailboxTake fn j host readError deposit hits => Sys2Proof.Machine.execMailboxTake fn j host readError deposit hits s
  | .mbxOutPost fn j => Sys2Proof.Machine.execMbxOutPost fn j s
  | .mbxOutAck fn j lanes value => Sys2Proof.Machine.execMbxOutAck fn j lanes value s
  | .doorbell fn off data => Sys2Proof.Machine.execDoorbell fn off data s
  | .queueFetch q host readError hits => Sys2Proof.Machine.execQueueFetch q host readError hits s
  | .cqRelease fn slot value => Sys2Proof.Machine.execCqRelease fn slot value s
  | .queueDrainEnd q => Sys2Proof.Machine.execQueueDrainEnd q s
  | .bar2Read fn off len hits => Sys2Proof.Machine.execBar2Read fn off len hits s
  | .bar2Write fn off data hits => Sys2Proof.Machine.execBar2Write fn off data hits s
  | .functionLevelReset fn => Sys2Proof.Machine.execFunctionLevelReset fn s
  | .pfResetOrVfDisable pfReset => Sys2Proof.Machine.execPfResetOrVfDisable pfReset s
  | .busMasterDisable fn => Sys2Proof.Machine.execBusMasterDisable fn s
  | .tdispRequest fn req => Sys2Proof.Machine.execTdispRequest fn req s
  | .hello rq arg => Sys2Proof.Machine.execHello rq arg s
  | .bye rq arg => Sys2Proof.Machine.execBye rq arg s
  | .ping rq arg => Sys2Proof.Machine.execPing rq arg s
  | .cmdqClose rq arg => Sys2Proof.Machine.execCmdqClose rq arg s
  | .rplStop rq arg => Sys2Proof.Machine.execRplStop rq arg s
  | .rplStatus rq arg => Sys2Proof.Machine.execRplStatus rq arg s
  | .cmdqOpen rq ring n cq m vector => Sys2Proof.Machine.execCmdqOpen rq ring n cq m vector s
  | .partCreate rq mask tenancy schedule units => Sys2Proof.Machine.execPartCreate rq mask tenancy schedule units s
  | .partDestroy rq part => Sys2Proof.Machine.execPartDestroy rq part s
  | .partAssign rq fn part => Sys2Proof.Machine.execPartAssign rq fn part s
  | .partHandover rq part => Sys2Proof.Machine.execPartHandover rq part s
  | .partSched rq schedule => Sys2Proof.Machine.execPartSched rq schedule s
  | .partCache rq units => Sys2Proof.Machine.execPartCache rq units s
  | .slotTable rq addr len => Sys2Proof.Machine.execSlotTable rq addr len s
  | .partInfo rq part addr => Sys2Proof.Machine.execPartInfo rq part addr s
  | .windowSet rq fn quarter base => Sys2Proof.Machine.execWindowSet rq fn quarter base s
  | .fnState rq fn enable => Sys2Proof.Machine.execFnState rq fn enable s
  | .ctxCreate rq cls fill owner => Sys2Proof.Machine.execCtxCreate rq cls fill owner s
  | .ctxDestroy rq ctx => Sys2Proof.Machine.execCtxDestroy rq ctx s
  | .ctxSet rq ctx cls fill => Sys2Proof.Machine.execCtxSet rq ctx cls fill s
  | .ctxQuiesce rq ctx => Sys2Proof.Machine.execCtxQuiesce rq ctx s
  | .ctxSnapshot rq ctx list count dest hits => Sys2Proof.Machine.execCtxSnapshot rq ctx list count dest hits s
  | .queueCreate rq kindUnit ring n cq m vector boundFn ctx => Sys2Proof.Machine.execQueueCreate rq kindUnit ring n cq m vector boundFn ctx s
  | .queueDestroy rq queue => Sys2Proof.Machine.execQueueDestroy rq queue s
  | .queueEnable rq queue => Sys2Proof.Machine.execQueueEnable rq queue s
  | .queueDisable rq queue => Sys2Proof.Machine.execQueueDisable rq queue s
  | .queueReset rq queue => Sys2Proof.Machine.execQueueReset rq queue s
  | .tallyCreate rq ctx cls sec count => Sys2Proof.Machine.execTallyCreate rq ctx cls sec count s
  | .tallySet rq tally count => Sys2Proof.Machine.execTallySet rq tally count s
  | .tallyDestroy rq tally => Sys2Proof.Machine.execTallyDestroy rq tally s
  | .regionCreate rq ctx addr len perm => Sys2Proof.Machine.execRegionCreate rq ctx addr len perm s
  | .regionDestroy rq region => Sys2Proof.Machine.execRegionDestroy rq region s
  | .regionFreeze rq region freeze => Sys2Proof.Machine.execRegionFreeze rq region freeze s
  | .handleInfo rq handle addr => Sys2Proof.Machine.execHandleInfo rq handle addr s
  | .memFlush rq => Sys2Proof.Machine.execMemFlush rq s
  | .scrubPeriod rq mask loam hbm => Sys2Proof.Machine.execScrubPeriod rq mask loam hbm s
  | .stackRate rq allow => Sys2Proof.Machine.execStackRate rq allow s
  | .progLoad rq ctx core slot addr count => Sys2Proof.Machine.execProgLoad rq ctx core slot addr count s
  | .progUnload rq core slot => Sys2Proof.Machine.execProgUnload rq core slot s
  | .launch rq ctx list count => Sys2Proof.Machine.execLaunch rq ctx list count s
  | .launchPublish ctx => Sys2Proof.Machine.execLaunchPublish ctx s
  | .tensorReg rq ctx addr => Sys2Proof.Machine.execTensorReg rq ctx addr s
  | .tensorUnreg rq tensor => Sys2Proof.Machine.execTensorUnreg rq tensor s
  | .tensorVersion rq tensor version => Sys2Proof.Machine.execTensorVersion rq tensor version s
  | .tensorScale rq tensor scale => Sys2Proof.Machine.execTensorScale rq tensor scale s
  | .tensorUnpoison rq tensor => Sys2Proof.Machine.execTensorUnpoison rq tensor s
  | .tensorStamp rq tensor stamp => Sys2Proof.Machine.execTensorStamp rq tensor stamp s
  | .modelDefine rq list count priority => Sys2Proof.Machine.execModelDefine rq list count priority s
  | .modelLoad rq model hits => Sys2Proof.Machine.execModelLoad rq model hits s
  | .modelEvict rq model => Sys2Proof.Machine.execModelEvict rq model s
  | .modelUnitsFreed model => Sys2Proof.Machine.execModelUnitsFreed model s
  | .modelDestroy rq model => Sys2Proof.Machine.execModelDestroy rq model s
  | .groupBind rq ctx group epoch => Sys2Proof.Machine.execGroupBind rq ctx group epoch s
  | .epochInstall rq group epoch mask isMember => Sys2Proof.Machine.execEpochInstall rq group epoch mask isMember s
  | .commCreate rq ctx sec addr => Sys2Proof.Machine.execCommCreate rq ctx sec addr s
  | .commDestroy rq sec comm => Sys2Proof.Machine.execCommDestroy rq sec comm s
  | .linkExpect rq link moduleId partner check => Sys2Proof.Machine.execLinkExpect rq link moduleId partner check s
  | .linkRetrain rq link => Sys2Proof.Machine.execLinkRetrain rq link s
  | .linkFence rq link => Sys2Proof.Machine.execLinkFence rq link s
  | .linkUnfence rq link => Sys2Proof.Machine.execLinkUnfence rq link s
  | .linkCfg rq mask fenceLimit grace rateCap => Sys2Proof.Machine.execLinkCfg rq mask fenceLimit grace rateCap s
  | .histSet rq tensor base width => Sys2Proof.Machine.execHistSet rq tensor base width s
  | .numSnapshot rq kind list count dest clear => Sys2Proof.Machine.execNumSnapshot rq kind list count dest clear s
  | .gateCreate rq ctx row scale down up interval nfAddr => Sys2Proof.Machine.execGateCreate rq ctx row scale down up interval nfAddr s
  | .gateSet rq gate row scale down up interval nfAddr => Sys2Proof.Machine.execGateSet rq gate row scale down up interval nfAddr s
  | .gateDestroy rq gate => Sys2Proof.Machine.execGateDestroy rq gate s
  | .witnessCfg rq enable k wseed hold => Sys2Proof.Machine.execWitnessCfg rq enable k wseed hold s
  | .driftPair rq out wideA wideB band floor remove => Sys2Proof.Machine.execDriftPair rq out wideA wideB band floor remove s
  | .outlierRing rq addr len => Sys2Proof.Machine.execOutlierRing rq addr len s
  | .rplRecord rq ctx addr len payload => Sys2Proof.Machine.execRplRecord rq ctx addr len payload s
  | .rplMark rq ctx tally tensor n => Sys2Proof.Machine.execRplMark rq ctx tally tensor n s
  | .rplReplay rq ctx addr len => Sys2Proof.Machine.execRplReplay rq ctx addr len s
  | .gravelCfg rq period corners => Sys2Proof.Machine.execGravelCfg rq period corners s
  | .autumnRun rq mask => Sys2Proof.Machine.execAutumnRun rq mask s
  | .powerCap rq watts => Sys2Proof.Machine.execPowerCap rq watts s
  | .limits rq coreWait collWait hold => Sys2Proof.Machine.execLimits rq coreWait collWait hold s
  | .telemetry rq kind addr => Sys2Proof.Machine.execTelemetry rq kind addr s
  | .health rq addr => Sys2Proof.Machine.execHealth rq addr s
  | .escalation rq partLimit ctxLimit window => Sys2Proof.Machine.execEscalation rq partLimit ctxLimit window s
  | .commandTimeout fn via => Sys2Proof.Machine.execCommandTimeout fn via s
  | .tileFetch core hits => Sys2Proof.Machine.execTileFetch core hits s
  | .tileIssue core hits feederCorrected upset => Sys2Proof.Machine.execTileIssue core hits feederCorrected upset s
  | .tileComplete core unit => Sys2Proof.Machine.execTileComplete core unit s
  | .tallyAdd tally amount tag => Sys2Proof.Machine.execTallyAdd tally amount tag s
  | .slotChange core => Sys2Proof.Machine.execSlotChange core s
  | .bubbleFill core => Sys2Proof.Machine.execBubbleFill core s
  | .sequencerWatchdog core unit => Sys2Proof.Machine.execSequencerWatchdog core unit s
  | .waitLimitReport core index => Sys2Proof.Machine.execWaitLimitReport core index s
  | .waitTimeout site => Sys2Proof.Machine.execWaitTimeout site s
  | .witnessCheckDone sec result cond => Sys2Proof.Machine.execWitnessCheckDone sec result cond s
  | .moverTransfer m hits pathError => Sys2Proof.Machine.execMoverTransfer m hits pathError s
  | .moverComplete m => Sys2Proof.Machine.execMoverComplete m s
  | .crcSecondRead site pathError => Sys2Proof.Machine.execCrcSecondRead site pathError s
  | .moverWatchdog m => Sys2Proof.Machine.execMoverWatchdog m s
  | .routeDescriptor sec hits => Sys2Proof.Machine.execRouteDescriptor sec hits s
  | .routeComplete sec => Sys2Proof.Machine.execRouteComplete sec s
  | .routeWatchdog sec => Sys2Proof.Machine.execRouteWatchdog sec s
  | .optimizerUpdate sec hits => Sys2Proof.Machine.execOptimizerUpdate sec hits s
  | .gateDecision sec => Sys2Proof.Machine.execGateDecision sec s
  | .gateSnapshot sec => Sys2Proof.Machine.execGateSnapshot sec s
  | .optimizerWatchdog sec => Sys2Proof.Machine.execOptimizerWatchdog sec s
  | .collectiveDescriptor sec hits => Sys2Proof.Machine.execCollectiveDescriptor sec hits s
  | .chunkArrival sec comm tree peer headerHits dataHits => Sys2Proof.Machine.execChunkArrival sec comm tree peer headerHits dataHits s
  | .chunkCreditReturn sec comm tree peer => Sys2Proof.Machine.execChunkCreditReturn sec comm tree peer s
  | .collectiveComplete sec => Sys2Proof.Machine.execCollectiveComplete sec s
  | .collWaitReport sec => Sys2Proof.Machine.execCollWaitReport sec s
  | .linkTransmit l hits pathError buffers => Sys2Proof.Machine.execLinkTransmit l hits pathError buffers s
  | .linkTransmitAcked l => Sys2Proof.Machine.execLinkTransmitAcked l s
  | .linkTxWatchdog l => Sys2Proof.Machine.execLinkTxWatchdog l s
  | .flitReceive l decoded corrected flit => Sys2Proof.Machine.execFlitReceive l decoded corrected flit s
  | .msgWrite l header data bad => Sys2Proof.Machine.execMsgWrite l header data bad s
  | .msgBlock l header data bad => Sys2Proof.Machine.execMsgBlock l header data bad s
  | .msgRefuse l header => Sys2Proof.Machine.execMsgRefuse l header s
  | .msgEpochNotice l header => Sys2Proof.Machine.execMsgEpochNotice l header s
  | .msgAbort l header => Sys2Proof.Machine.execMsgAbort l header s
  | .epochGraceExpiry site => Sys2Proof.Machine.execEpochGraceExpiry site s
  | .negotiateReceive l rec => Sys2Proof.Machine.execNegotiateReceive l rec s
  | .notReadyReceive l rec => Sys2Proof.Machine.execNotReadyReceive l rec s
  | .negotiateResend l => Sys2Proof.Machine.execNegotiateResend l s
  | .heartbeatSend l => Sys2Proof.Machine.execHeartbeatSend l s
  | .heartbeatReceive l rec => Sys2Proof.Machine.execHeartbeatReceive l rec s
  | .heartbeatTimeout l => Sys2Proof.Machine.execHeartbeatTimeout l s
  | .degradeReceive l rec => Sys2Proof.Machine.execDegradeReceive l rec s
  | .fencedReceive l rec => Sys2Proof.Machine.execFencedReceive l rec s
  | .laneLock l lane rate latencyNs => Sys2Proof.Machine.execLaneLock l lane rate latencyNs s
  | .laneRetire l lane => Sys2Proof.Machine.execLaneRetire l lane s
  | .linkRetrainStart l => Sys2Proof.Machine.execLinkRetrainStart l s
  | .linkRetrainEnd l ok latencyNs => Sys2Proof.Machine.execLinkRetrainEnd l ok latencyNs s
  | .trainingTimeout l => Sys2Proof.Machine.execTrainingTimeout l s
  | .lnkLoopStart l value => Sys2Proof.Machine.execLnkLoopStart l value s
  | .lnkLoopDone l errors0 errors1 locked0 locked1 => Sys2Proof.Machine.execLnkLoopDone l errors0 errors1 locked0 locked1 s
  | .lnkLoopModeWrite l value => Sys2Proof.Machine.execLnkLoopModeWrite l value s
  | .hbmLoopStart g value => Sys2Proof.Machine.execHbmLoopStart g value s
  | .hbmLoopDone g errors lanesFailed => Sys2Proof.Machine.execHbmLoopDone g errors lanesFailed s
  | .patrolScrubRead sec hbm outcome => Sys2Proof.Machine.execPatrolScrubRead sec hbm outcome s
  | .hbmRefresh g => Sys2Proof.Machine.execHbmRefresh g s
  | .unscheduledRefresh g => Sys2Proof.Machine.execUnscheduledRefresh g s
  | .holdStart p => Sys2Proof.Machine.execHoldStart p s
  | .holdEnd p => Sys2Proof.Machine.execHoldEnd p s
  | .holdLimitReport p cause => Sys2Proof.Machine.execHoldLimitReport p cause s
  | .replayDeliver ctx => Sys2Proof.Machine.execReplayDeliver ctx s
  | .contextTeardown ctx => Sys2Proof.Machine.execContextTeardown ctx s
  | .drainTimerExpiry ctx => Sys2Proof.Machine.execDrainTimerExpiry ctx s
  | .partitionFatal sec cause => Sys2Proof.Machine.execPartitionFatal sec cause s
  | .partitionResetDone p => Sys2Proof.Machine.execPartitionResetDone p s
  | .moduleFatal cause => Sys2Proof.Machine.execModuleFatal cause s
  | .icvarWatchdog => Sys2Proof.Machine.execIcvarWatchdog s
  | .healthDecay => Sys2Proof.Machine.execHealthDecay s
  | .gravelSliceStart sec load100us load1s => Sys2Proof.Machine.execGravelSliceStart sec load100us load1s s
  | .gravelSliceEnd sec signature again cond => Sys2Proof.Machine.execGravelSliceEnd sec signature again cond s
  | .gravelSliceAbandon sec => Sys2Proof.Machine.execGravelSliceAbandon sec s
  | .witnessSlice sec signature again => Sys2Proof.Machine.execWitnessSlice sec signature again s
  | .arbiterPeriod meas => Sys2Proof.Machine.execArbiterPeriod meas s
  | .clockSlewEnd => Sys2Proof.Machine.execClockSlewEnd s
  | .emergencyHold => Sys2Proof.Machine.execEmergencyHold s
  | .sensorRead dies temps => Sys2Proof.Machine.execSensorRead dies temps s
  | .supplyTrip kind mV recorded => Sys2Proof.Machine.execSupplyTrip kind mV recorded s
  | .mgmtCapSet watts => Sys2Proof.Machine.execMgmtCapSet watts s
  | .pldmFirmwareUpdate image => Sys2Proof.Machine.execPldmFirmwareUpdate image s
  | .pldmSensorRead item => Sys2Proof.Machine.execPldmSensorRead item s
  | .mctpControl command data => Sys2Proof.Machine.execMctpControl command data s
  | .getVersion chan => Sys2Proof.Machine.execGetVersion chan s
  | .getCapabilities chan version => Sys2Proof.Machine.execGetCapabilities chan version s
  | .negotiateAlgorithms chan extAsym extHash => Sys2Proof.Machine.execNegotiateAlgorithms chan extAsym extHash s
  | .getDigests chan => Sys2Proof.Machine.execGetDigests chan s
  | .getCertificate chan slot offset length => Sys2Proof.Machine.execGetCertificate chan slot offset length s
  | .challenge chan slot nonce => Sys2Proof.Machine.execChallenge chan slot nonce s
  | .getMeasurements chan index raw => Sys2Proof.Machine.execGetMeasurements chan index raw s
  | .keyExchange chan slot sessionId exchange => Sys2Proof.Machine.execKeyExchange chan slot sessionId exchange s
  | .finish chan verified => Sys2Proof.Machine.execFinish chan verified s
  | .endSession chan => Sys2Proof.Machine.execEndSession chan s
  | .debugToken version level moduleId nonce signatureOk => Sys2Proof.Machine.execDebugToken version level moduleId nonce signatureOk s
  | .tapBypass => Sys2Proof.Machine.execTapBypass s
  | .tapIdcode => Sys2Proof.Machine.execTapIdcode s
  | .tapSamplePreload sampled preload => Sys2Proof.Machine.execTapSamplePreload sampled preload s
  | .tapExtest => Sys2Proof.Machine.execTapExtest s
  | .optimizerComplete sec => Sys2Proof.Machine.execOptimizerComplete sec s
  | .scrubComplete p => Sys2Proof.Machine.execScrubComplete p s
  | .stackTrainingDone g identity temp readBackOk => Sys2Proof.Machine.execStackTrainingDone g identity temp readBackOk s
  | .powerApplied => Sys2Proof.Machine.execPowerApplied s
  | .powerRemoved => Sys2Proof.Machine.execPowerRemoved s
  | .pcieLinkTrained speed width flit => Sys2Proof.Machine.execPcieLinkTrained speed width flit s
  | .ideKmRequest fn req => Sys2Proof.Machine.execIdeKmRequest fn req s

end Sys2Proof.Machine
end

