-- ==== Sys2Proof/Machine/Tick.lean ====
section
/-! DEFINITION. One cycle of the reference clock as a whole: the clocks, what waits for a window of a slot table, the commands whose
work has ended, the collective engines that a hold or a closed window stopped (R244, R245, R251, R467). -/

namespace Sys2Proof.Machine

/-- Requesters of a partition that may contend for a port, a connection, a stack or a mover's turn: tiles that run and engines that
hold a descriptor (R261). -/
def requesters (s : State) (p : Nat) : Nat :=
  let secs := maskSecs (s.part p).mask
  sumNat ((s.work.cores.filter (fun e => secs.contains (coreSec e.1))).map (fun e =>
    (e.2.units.filter (fun u => match u.2 with | .tile _ => true | _ => false)).length)) +
  (s.work.engines.filter (fun e => (engineJobs e.2).any (fun j => (s.ctx j.ctx).part == p))).length

/-- While two or more requesters of a Summer partition run, the cycles in which they contend count as ARB choices (R261); how many there
are depends on what the spec leaves to timing: a free number (log entry 143). -/
def countContention (s : State) (p : Nat) : State :=
  if !(s.part p).present || (s.part p).winter || requesters s p < 2 then s
  else
    let (w, s) := s.freeDraw
    s.bump fRplChoiceArbArb p 0 (w.toNat % 2 ^ 16)

/-- While a tile runs on a core, the cycles in which its units wait on the core's read port and on its write port are counted (R168):
free numbers (log entry 143). -/
def coreStalls (s : State) (k : Nat) : State :=
  if (s.core k).units.all (fun u => match u.2 with | .tile _ => false | _ => true) then s
  else
    let (w, s) := s.freeDraw
    (s.bump fCoreStallReadStall (k / 12) (k % 12) (w.toNat % 2 ^ 16)).bump fCoreStallWriteStall (k / 12) (k % 12)
      (w.toNat / 2 ^ 16 % 2 ^ 16)

/-- While a route descriptor runs or waits for its end, the cycles in which its accesses wait are counted (R241): free numbers (log
entry 143). -/
def routeStalls (s : State) (sec : Nat) : State :=
  if (engineJobs (s.engine (engineKey 2 sec))).isEmpty then s
  else
    let (w, s) := s.freeDraw
    (s.bump fCoreRouteStallPortWait sec 0 (w.toNat % 2 ^ 16)).bump fCoreRouteStallBankConflict sec 0 (w.toNat / 2 ^ 16 % 2 ^ 16)

/-- One cycle of the reference clock: the time base advances by 10 ns (R467), the clocks by their cycles (R465), the work
clocks of partitions that are not held with them; commands whose work has ended publish. Nothing advances while the module is off or in reset. -/
def tick (s : State) : State :=
  if !s.module.powered || s.module.off || !s.module.released then s
  else
    let root := rootPerRef (s.fld fClkStatusLevel 0 0)
    let n := (s.module.rootCycles + root) / 4 - s.module.rootCycles / 4
    let s := { s with module := { s.module with timeNs := s.module.timeNs + 10, rootCycles := s.module.rootCycles + root } }
    let f := (s.module.rootCycles - root) / 48
    let s := forEach (upTo (s.module.rootCycles / 48 - f)) s (fun k t => passFrame (f + 1 + k) t)
    let s := forEach (upTo 8) s (fun p t => routeStalls (countContention (advanceWork t p n) p) p)
    let s := forEach (s.work.cores.map Prod.fst) s (fun k t => coreStalls t k)
    collResume (settle (serveLinks (servePort s)))

end Sys2Proof.Machine
end

