-- ==== Sys2Proof/Safety.lean ====
section
/-! DEFINITION. What a safe run keeps, in the terms of the claims: memory in canonical form, firmware images that the root of
trust has accepted, the first-in-first-out queue, fuses that never fall. -/

namespace Sys2Proof.Machine

/-- The active and the staged image have passed the checks of R474 against the fuses as they stand (R475). -/
def firmwareOk (f : Flash) : Bool := f.fwActive.all (imageGood f) && f.fwStaged.all (imageGood f)

/-- The invariant of every step: memory is in canonical form, and no image stands in flash that the root of trust would
refuse. -/
def Inv (s : State) : Prop := Memory.wf s = true ∧ firmwareOk s.flash = true

/-- What a state keeps of a state before it: the invariant, the queue, the count of free values drawn, the fused minimum
version, which never falls, and the revocation fuses. -/
structure Kept (s₀ s : State) : Prop where
  inv : Inv s
  queue : s.pending = s₀.pending
  draws : s₀.freeCtr ≤ s.freeCtr
  svn : s₀.flash.minSvn ≤ s.flash.minSvn
  revoked : s.flash.revoked = s₀.flash.revoked

/-- A command answers a next state that keeps what the state before it had. -/
def KeptNext (s₀ : State) (o : Host.Outcome State Fault Refusal) : Prop := ∃ t, o = .next t ∧ Kept s₀ t

/-- The areas of the state: the parts that a command changes or leaves alone as wholes. -/
inductive Area where
  | module | fuses | flash | registers | memory | cache | hostMemory | functions | queues | commands | tokens | launches
  | parts | ctxs | tallies | regions | tensors | gates | models | groups | comms | cores | slots | engines | witness
  | links | power | care | security | out | draws
  deriving DecidableEq, Repr

/-- An area is the same in two states: `fuses` are the firmware images with the minimum version and the revoked keys, `flash` the
rest of the flash; `memory` is every byte of device memory, its poison marks and its words in error, `cache` its directories and scrubbers. -/
def Area.same : Area → State → State → Prop
  | .module, s, t => t.module = s.module
  | .fuses, s, t => (t.flash.fwActive, t.flash.fwStaged, t.flash.minSvn, t.flash.revoked) =
      (s.flash.fwActive, s.flash.fwStaged, s.flash.minSvn, s.flash.revoked)
  | .flash, s, t => { t.flash with fwActive := none, fwStaged := none, minSvn := 0, revoked := 0 } =
      { s.flash with fwActive := none, fwStaged := none, minSvn := 0, revoked := 0 }
  | .registers, s, t => t.regs = s.regs
  | .memory, s, t => (t.mem.bytes, t.mem.poisoned, t.mem.upset, t.mem.spoilt) = (s.mem.bytes, s.mem.poisoned, s.mem.upset, s.mem.spoilt)
  | .cache, s, t => { t.mem with bytes := [], poisoned := [], upset := [], spoilt := [] } =
      { s.mem with bytes := [], poisoned := [], upset := [], spoilt := [] }
  | .hostMemory, s, t => t.hostMem = s.hostMem
  | .functions, s, t => (t.host.fns, t.host.vfEnable, t.host.port) = (s.host.fns, s.host.vfEnable, s.host.port)
  | .queues, s, t => t.host.queues = s.host.queues
  | .commands, s, t => t.host.commands = s.host.commands
  | .tokens, s, t => t.host.tokens = s.host.tokens
  | .launches, s, t => (t.host.launches, t.host.launchOrder) = (s.host.launches, s.host.launchOrder)
  | .parts, s, t => t.objs.parts = s.objs.parts
  | .ctxs, s, t => t.objs.ctxs = s.objs.ctxs
  | .tallies, s, t => t.objs.tallies = s.objs.tallies
  | .regions, s, t => t.objs.regions = s.objs.regions
  | .tensors, s, t => t.objs.tensors = s.objs.tensors
  | .gates, s, t => t.objs.gates = s.objs.gates
  | .models, s, t => t.objs.models = s.objs.models
  | .groups, s, t => t.objs.groups = s.objs.groups
  | .comms, s, t => t.objs.comms = s.objs.comms
  | .cores, s, t => t.work.cores = s.work.cores
  | .slots, s, t => t.work.slots = s.work.slots
  | .engines, s, t => t.work.engines = s.work.engines
  | .witness, s, t => t.work.witness = s.work.witness
  | .links, s, t => t.links = s.links
  | .power, s, t => t.power = s.power
  | .care, s, t => t.care = s.care
  | .security, s, t => t.security = s.security
  | .out, s, t => t.out = s.out
  | .draws, s, t => t.freeCtr = s.freeCtr

/-- Nothing outside the listed areas differs. -/
def Only (l : List Area) (s t : State) : Prop := ∀ a : Area, a ∉ l → a.same s t

/-! ### Terms of the claims -/

/-- The state in which the command of a row is checked: the host's stores stand in its memory, and an entry that no fetch has
brought in stands in its queue, running. -/
def before (rq : Req) (op : Nat) (args : List Word) (s : State) : State := checkIn (cmdOf rq op args) (arrive rq s)

/-- Nothing refuses a command: not its carrier, the session, the module's state or a replay (R362, R368, R369, R433, R444), no create
token answers it (R376), and none of its own refusals holds (R373, R377). -/
def Accepted (refuse : Cmd → State → Option Nat) (rq : Req) (op : Nat) (args : List Word) (s : State) : Prop :=
  gateRc (cmdOf rq op args) (before rq op args s) = none ∧ tokenHit (before rq op args s) (cmdOf rq op args) = none ∧
  refuse (cmdOf rq op args) (before rq op args s) = none

/-- The state `u` that a command's effect leaves, with the return code `rc` and the result `r` published where the command came from,
and the create token kept; `b` is the state that it was checked in. -/
def answered (rq : Req) (op : Nat) (args : List Word) (b u : State) (rc : Nat) (r : Word) : State :=
  answerNow (cmdOf rq op args) (keepToken u (cmdOf rq op args) rc r) rc r (namedTag b (cmdOf rq op args))

/-- A command answers a next state: the state `u` that its effect leaves, with return code 0 and the result `r` published where the
command came from, and the create token kept. -/
def Answers (i : Instr) (rq : Req) (op : Nat) (args : List Word) (s : State) (r : Word) (u : State) : Prop :=
  exec i s = .next (answered rq op args (before rq op args s) u 0 r)

/-- A command answers a next state in which it waits among the unpublished commands, after the state `u` that its effect leaves. -/
def Waits (i : Instr) (rq : Req) (op : Nat) (s : State) (k : PendKind) (u : State) : Prop :=
  exec i s = .next (settle { u with host := { u.host with commands := u.host.commands ++
    [⟨rq.fn.val, rq.via, takenOf u rq.fn.val rq.via, op, k, u.now, false⟩] } })

/-- A row's command, where nothing refuses it and `ok` holds of the state it is checked in, ends at once: `post` relates that state,
its result and the state that its effect leaves. -/
def Ends (i : Instr) (refuse : Cmd → State → Option Nat) (rq : Req) (op : Nat) (args : List Word) (s : State)
    (ok : State → Prop) (post : State → Word → State → Prop) : Prop :=
  Accepted refuse rq op args s → ok (before rq op args s) →
    ∃ r u, Answers i rq op args s r u ∧ post (before rq op args s) r u

/-- The state in which the effect of a command that reads structures works: the outcomes of reading them are counted (R56). -/
def seen (reads : Cmd → State → List (Word × Nat)) (rq : Req) (op : Nat) (args : List Word) (s : State) : State :=
  meetArgs (before rq op args s) (reads (cmdOf rq op args) (before rq op args s))

/-- A row's command that reads structures, where nothing refuses it and `ok` holds of the state that its effect works in, ends at once:
`post` relates that state, its result and the state that its effect leaves. The row is run in `s`; `s₁` is that state with the errors
that the row brings into memory. -/
def EndsOn (i : Instr) (s s₁ : State) (refuse : Cmd → State → Option Nat) (reads : Cmd → State → List (Word × Nat)) (rq : Req) (op : Nat)
    (args : List Word) (ok : State → Prop) (post : State → Word → State → Prop) : Prop :=
  Accepted refuse rq op args s₁ → ok (seen reads rq op args s₁) →
    ∃ r u, exec i s = .next (answered rq op args (before rq op args s₁) u 0 r) ∧ post (seen reads rq op args s₁) r u

/-- A row's command, where nothing refuses it and `ok` holds, waits among the unpublished commands as `k` says; `post` relates the
state that it is checked in and the state that its effect leaves. -/
def Pends (i : Instr) (refuse : Cmd → State → Option Nat) (rq : Req) (op : Nat) (args : List Word) (s : State)
    (ok : State → Prop) (k : PendKind) (post : State → State → Prop) : Prop :=
  Accepted refuse rq op args s → ok (before rq op args s) → ∃ u, Waits i rq op s k u ∧ post (before rq op args s) u

/-- The areas that a read of memory may touch: counts and records of errors, corrected words, the cache directories, the hold that a
corrected word costs, health (R45, R56, R59, R434). A write may touch the host's memory besides. -/
def readAreas : List Area := [.registers, .memory, .cache, .functions, .parts, .care]
def storeAreas : List Area := .hostMemory :: readAreas

/-- A function but for the outbound words that wait at it (R342), and a partition but for the causes of its holds (R246): what a read of
memory leaves of them. -/
def fnRest (x : FnState) : FnState := { x with outbox := [] }
def partRest (x : Part) : Part := { x with causes := [] }

/-- No byte of device memory or of host memory differs. -/
def SameBytes (s t : State) : Prop := ∀ a, memByte t a = memByte s a ∧ hostByte t a = hostByte s a

/-- Bytes have been written where an address argument points (R365): they read back, and every other byte of device memory and of
host memory reads as before. -/
def Wrote (s t : State) (w : Word) (l : List Byte) : Prop :=
  readArg t w 0 l.length = l ∧
  (∀ a, isHostAddr w = true ∨ a < argAddr w ∨ argAddr w + l.length ≤ a → memByte t a = memByte s a) ∧
  (∀ a, isHostAddr w = false ∨ a < argAddr w ∨ argAddr w + l.length ≤ a → hostByte t a = hostByte s a)

/-- Bytes have been stored at an address of device memory: they read back, and every other byte of device memory and of host memory
reads as before. -/
def StoredAt (s t : State) (a : Nat) (l : List Byte) : Prop :=
  readBytes t a l.length = l ∧ (∀ k, k < a ∨ a + l.length ≤ k → memByte t k = memByte s k) ∧ (∀ k, hostByte t k = hostByte s k)

/-- The bytes of a gate's scale row: every element holds the loss scale (R209). -/
def scaleRow (d : TensorDesc) (scaleLog : Int) : List Byte :=
  (List.replicate d.dim0 (leBytes 4 (scaleWord scaleLog).toNat)).flatten

/-- A counting field counts `n` events, and stays at its largest value (R14). -/
def Counted (s t : State) (f : RField) (i j n : Nat) : Prop :=
  t.fld f i j = min (s.fld f i j + n) (2 ^ (f.hi + 1 - f.lo) - 1)

/-- A context has faulted (R419, R423): it is STOPPING, and keeps the cause of its first fault. -/
def Faulted (t : State) (c cause : Nat) : Prop := (t.ctx c).mode = .stopping ∧ (t.ctx c).cause = some cause

/-- What a descriptor's signals add to a tally (R150, R160). -/
def signalSum (b : List Byte) (t : Nat) : Nat := (((descSignals b).filter (fun e => e.1 == t)).map (·.2)).sum

/-- Every tally that a descriptor signals takes its add: it exists, is not abandoned, does not overflow, and no mark watches its
context (R157, R266). -/
def SignalsTake (s : State) (b : List Byte) : Prop :=
  ∀ e ∈ descSignals b, (s.tally e.1).present = true ∧ (s.tally e.1).abandoned = false ∧
    (s.tally e.1).count + signalSum b e.1 ≤ 0xFFFFFFFF ∧ (s.ctx (s.tally e.1).ctx).marks = []

/-- A core has left its running slot, the place of its program kept, and has entered another (R399, R403). -/
def Changed (s t : State) (k : Nat) (j : Option Nat) : Prop :=
  t.core k = { s.core k with running := j, entered := aCycles s, enteredWork := coreWork s k, moved := aCycles s, window := [],
                             stopped := false } ∧
  (∀ n, n ≠ k → t.core n = s.core n) ∧
  (∀ i, (s.core k).running = some i → t.slot k i =
    if (s.slot k i).launched then { s.slot k i with next := slotOldest s k i } else s.slot k i) ∧
  (∀ n i, i < 8 → (∀ r, (s.core k).running = some r → r < 8 ∧ (n, i) ≠ (k, r)) → t.slot n i = s.slot n i) ∧
  Only [.cores, .slots, .registers] s t

/-- A change of slot counts one SLOT choice of the core's partition (R261). -/
def ChoseSlot (s t : State) (k : Nat) : Prop :=
  ∀ p, secPart s (coreSec k) = some p → Counted s t fRplChoiceSlotSlot p 0 1

/-- Every tally holds what it held and what a descriptor's signals add to it. -/
def Signalled (s t : State) (b : List Byte) : Prop :=
  ∀ k, t.tally k = { s.tally k with count := (s.tally k).count + signalSum b k }

/-- An idle engine's next descriptor is that of entry `e` of queue `q`, of context `c` with the context's own tag (R156, R378). -/
def Takes (s : State) (kind unit q c : Nat) (e : Entry) : Prop :=
  jobOf s kind unit = none ∧ nextQueue s kind unit = some q ∧ headWaiting (s.queue q) = some e ∧ (s.queue q).ctx = some c ∧
  (s.queue q).part < 8 ∧ fieldAt e.bytes 4 2 = ctxTag s c

/-- The descriptor of an entry as an engine takes it. -/
def jobFrom (s : State) (q c : Nat) (e : Entry) : Job := { queue := q, pos := e.pos, ctx := c, bytes := e.bytes, start := s.now }

/-- A command ends an engine's descriptor with a fault of its context: the engine is free, the context has faulted. -/
def EndsFault (i : Instr) (s : State) (kind unit c cause : Nat) : Prop :=
  ∃ t, exec i s = .next t ∧ jobOf t kind unit = none ∧ ((s.ctx c).mode = .active → Faulted t c cause)

/-- A command ends an engine's descriptor done (R66, R351): the engine is free, and where the tallies take its signals they hold them, and
nothing else has changed but the descriptor's record, what a write of it touches, and the areas listed. -/
def EndsSignalled (i : Instr) (s : State) (kind unit : Nat) (j : Job) (l : List Area) : Prop :=
  (∃ t, exec i s = .next t ∧ jobOf t kind unit = none) ∧
  (SignalsTake s j.bytes → ∃ t, exec i s = .next t ∧ jobOf t kind unit = none ∧ Signalled s t j.bytes ∧
    Only (storeAreas ++ [.engines, .queues, .tallies, .out] ++ l) s t)

/-- The link control flit that carries a record (R272, R283). -/
def recordFlit (s : State) (l : Nat) (r : LinkRecord) : SentFlit :=
  { lane := flitLane s l 0, kind := 2, nak := false, seq := 0, ack := (s.link l).rxSeq, first := 0xFFFF, credit0 := (s.link l).freed0,
    credit1 := (s.link l).freed1, payload := linkRecordBytes r }

/-- Reading ranges of memory in order delivers every word (R56). -/
def Clean (s : State) (rs : List (Nat × Nat)) : Prop := (readAll s rs).2 = []

/-- Bytes of device memory after single writes in order: the last write to an address stands, every other byte reads as before. -/
def CellsWritten (s t : State) (l : List Cell) : Prop :=
  ∀ a, memByte t a = ((l.reverse.find? (fun e => e.1 == a)).map (·.2)).getD (memByte s a)

/-- What every module reset leaves (R17, R420, R439, R504): LAST_RESET_CAUSE, MODULE_STATE 2, and no memory, object, queue, command, work or
link state of before; host memory and the waiting commands stay, the resets are counted in flash, and a staged image is active and has
raised the fused minimum (R475). -/
def WasReset (s t : State) (cause : Nat) : Prop :=
  t.fld fFltStatusLastResetCause 0 0 = cause ∧ t.fld fFltStatusModuleState 0 0 = 2 ∧ t.mem = {} ∧ t.objs = {} ∧ t.work = {} ∧
  t.links = [] ∧ t.power = {} ∧ (t.host.queues, t.host.commands, t.host.tokens, t.host.launches) = ([], [], [], []) ∧
  t.hostMem = s.hostMem ∧ t.pending = s.pending ∧ t.flash.moduleResets = min (s.flash.moduleResets + 1) 65535 ∧
  t.flash.fwStaged = none ∧ t.flash.fwActive = (match s.flash.fwStaged with | some i => some i | none => s.flash.fwActive) ∧
  t.flash.minSvn = (match s.flash.fwStaged with | some i => max s.flash.minSvn i.svn | none => s.flash.minSvn)

/-- The carrier, the opcode and the arguments of a Caoco row (R377); none for an event. -/
def caocoOf : Instr → Option (Req × Nat × List Word)
  | .hello rq arg => some (rq, 0x01, [arg.setWidth 64])
  | .bye rq arg => some (rq, 0x02, [arg.setWidth 64])
  | .ping rq arg => some (rq, 0x03, [arg.setWidth 64])
  | .cmdqClose rq arg => some (rq, 0x04, [arg.setWidth 64])
  | .rplStop rq arg => some (rq, 0x05, [arg.setWidth 64])
  | .rplStatus rq arg => some (rq, 0x06, [arg.setWidth 64])
  | .cmdqOpen rq ring n cq m vector => some (rq, 0x10, [ring, n, cq, m, vector])
  | .partCreate rq mask tenancy schedule units => some (rq, 0x18, [mask, tenancy, schedule, units])
  | .partDestroy rq part => some (rq, 0x19, [part])
  | .partAssign rq fn part => some (rq, 0x1A, [fn, part])
  | .partHandover rq part => some (rq, 0x1B, [part])
  | .partSched rq schedule => some (rq, 0x1C, [schedule])
  | .partCache rq units => some (rq, 0x1D, [units])
  | .slotTable rq addr len => some (rq, 0x1E, [addr, len])
  | .partInfo rq part addr => some (rq, 0x1F, [part, addr])
  | .windowSet rq fn quarter base => some (rq, 0x33, [fn, quarter, base])
  | .fnState rq fn enable => some (rq, 0x34, [fn, enable])
  | .ctxCreate rq cls fill owner => some (rq, 0x20, [cls, fill, owner])
  | .ctxDestroy rq ctx => some (rq, 0x21, [ctx])
  | .ctxSet rq ctx cls fill => some (rq, 0x22, [ctx, cls, fill])
  | .ctxQuiesce rq ctx => some (rq, 0x23, [ctx])
  | .ctxSnapshot rq ctx list count dest _ => some (rq, 0x24, [ctx, list, count, dest])
  | .queueCreate rq kindUnit ring n cq m vector boundFn ctx => some (rq, 0x28, [kindUnit, ring, n, cq, m, vector, boundFn, ctx])
  | .queueDestroy rq queue => some (rq, 0x29, [queue])
  | .queueEnable rq queue => some (rq, 0x2A, [queue])
  | .queueDisable rq queue => some (rq, 0x2B, [queue])
  | .queueReset rq queue => some (rq, 0x2C, [queue])
  | .tallyCreate rq ctx cls sec count => some (rq, 0x2D, [ctx, cls, sec, count])
  | .tallySet rq tally count => some (rq, 0x2E, [tally, count])
  | .tallyDestroy rq tally => some (rq, 0x2F, [tally])
  | .regionCreate rq ctx addr len perm => some (rq, 0x30, [ctx, addr, len, perm])
  | .regionDestroy rq region => some (rq, 0x31, [region])
  | .regionFreeze rq region freeze => some (rq, 0x32, [region, freeze])
  | .handleInfo rq handle addr => some (rq, 0x35, [handle, addr])
  | .memFlush rq => some (rq, 0x38, [])
  | .scrubPeriod rq mask loam hbm => some (rq, 0x39, [mask, loam, hbm])
  | .stackRate rq allow => some (rq, 0x3A, [allow])
  | .progLoad rq ctx core slot addr count => some (rq, 0x40, [ctx, core, slot, addr, count])
  | .progUnload rq core slot => some (rq, 0x41, [core, slot])
  | .launch rq ctx list count => some (rq, 0x42, [ctx, list, count])
  | .tensorReg rq ctx addr => some (rq, 0x48, [ctx, addr])
  | .tensorUnreg rq tensor => some (rq, 0x49, [tensor])
  | .tensorVersion rq tensor version => some (rq, 0x4A, [tensor, version])
  | .tensorScale rq tensor scale => some (rq, 0x4B, [tensor, scale])
  | .tensorUnpoison rq tensor => some (rq, 0x4C, [tensor])
  | .tensorStamp rq tensor stamp => some (rq, 0x4D, [tensor, stamp])
  | .modelDefine rq list count priority => some (rq, 0x50, [list, count, priority])
  | .modelLoad rq model _ => some (rq, 0x51, [model])
  | .modelEvict rq model => some (rq, 0x52, [model])
  | .modelDestroy rq model => some (rq, 0x53, [model])
  | .groupBind rq ctx group epoch => some (rq, 0x58, [ctx, group, epoch])
  | .epochInstall rq group epoch mask isMember => some (rq, 0x59, [group, epoch, mask, isMember])
  | .commCreate rq ctx sec addr => some (rq, 0x5A, [ctx, sec, addr])
  | .commDestroy rq sec comm => some (rq, 0x5B, [sec, comm])
  | .linkExpect rq link moduleId partner check => some (rq, 0x5C, [link, moduleId, partner, check])
  | .linkRetrain rq link => some (rq, 0x5D, [link, 1])
  | .linkFence rq link => some (rq, 0x5D, [link, 2])
  | .linkUnfence rq link => some (rq, 0x5D, [link, 3])
  | .linkCfg rq mask fenceLimit grace rateCap => some (rq, 0x5E, [mask, fenceLimit, grace, rateCap])
  | .histSet rq tensor base width => some (rq, 0x60, [tensor, base, width])
  | .numSnapshot rq kind list count dest clear => some (rq, 0x61, [kind, list, count, dest, clear])
  | .gateCreate rq ctx row scale down up interval nfAddr => some (rq, 0x62, [ctx, row, scale, down, up, interval, nfAddr])
  | .gateSet rq gate row scale down up interval nfAddr => some (rq, 0x63, [gate, row, scale, down, up, interval, nfAddr])
  | .gateDestroy rq gate => some (rq, 0x64, [gate])
  | .witnessCfg rq enable k wseed hold => some (rq, 0x65, [enable, k, wseed, hold])
  | .driftPair rq out wideA wideB band floor remove => some (rq, 0x66, [out, wideA, wideB, band, floor, remove])
  | .outlierRing rq addr len => some (rq, 0x67, [addr, len])
  | .rplRecord rq ctx addr len payload => some (rq, 0x68, [ctx, addr, len, payload])
  | .rplMark rq ctx tally tensor n => some (rq, 0x69, [ctx, tally, tensor, n])
  | .rplReplay rq ctx addr len => some (rq, 0x6A, [ctx, addr, len])
  | .gravelCfg rq period corners => some (rq, 0x70, [period, corners])
  | .autumnRun rq mask => some (rq, 0x71, [mask])
  | .powerCap rq watts => some (rq, 0x72, [watts])
  | .limits rq coreWait collWait hold => some (rq, 0x73, [coreWait, collWait, hold])
  | .telemetry rq kind addr => some (rq, 0x74, [kind, addr])
  | .health rq addr => some (rq, 0x75, [addr])
  | .escalation rq partLimit ctxLimit window => some (rq, 0x76, [partLimit, ctxLimit, window])
  | .pcieConfigRequest _ _ | .perstNAssert | .perstNRelease | .hotReset | .startPathChoice _ | .powerGrant | .configSpaceReady
  | .autumnBlockDone _ _ _ _ _ | .moduleOperational | .shdnReq _ | .resetKeyWrite _ | .registerWrite _ _ _ _ _ | .rcRegisterRead _ _ _ _
  | .mbxInDeposit _ _ _ _ | .mailboxTake _ _ _ _ _ _ | .mbxOutPost _ _ | .mbxOutAck _ _ _ _ | .doorbell _ _ _ | .queueFetch _ _ _ _
  | .cqRelease _ _ _ | .queueDrainEnd _ | .bar2Read _ _ _ _ | .bar2Write _ _ _ _ | .functionLevelReset _ | .pfResetOrVfDisable _
  | .busMasterDisable _ | .tdispRequest _ _ | .launchPublish _ | .modelUnitsFreed _ | .commandTimeout _ _ | .tileFetch _ _
  | .tileIssue _ _ _ _ | .tileComplete _ _ | .tallyAdd _ _ _ | .slotChange _ | .bubbleFill _ | .sequencerWatchdog _ _
  | .waitLimitReport _ _ | .waitTimeout _ | .witnessCheckDone _ _ _ | .moverTransfer _ _ _ | .moverComplete _ | .crcSecondRead _ _
  | .moverWatchdog _ | .routeDescriptor _ _ | .routeComplete _ | .routeWatchdog _ | .optimizerUpdate _ _ | .gateDecision _
  | .gateSnapshot _ | .optimizerWatchdog _ | .collectiveDescriptor _ _ | .chunkArrival _ _ _ _ _ _ | .chunkCreditReturn _ _ _ _
  | .collectiveComplete _ | .collWaitReport _ | .linkTransmit _ _ _ _ | .linkTransmitAcked _ | .linkTxWatchdog _
  | .flitReceive _ _ _ _ | .msgWrite _ _ _ _ | .msgBlock _ _ _ _ | .msgRefuse _ _ | .msgEpochNotice _ _ | .msgAbort _ _
  | .epochGraceExpiry _ | .negotiateReceive _ _ | .notReadyReceive _ _ | .negotiateResend _ | .heartbeatSend _ | .heartbeatReceive _ _
  | .heartbeatTimeout _ | .degradeReceive _ _ | .fencedReceive _ _ | .laneLock _ _ _ _ | .laneRetire _ _ | .linkRetrainStart _
  | .linkRetrainEnd _ _ _ | .trainingTimeout _ | .lnkLoopStart _ _ | .lnkLoopDone _ _ _ _ _ | .lnkLoopModeWrite _ _ | .hbmLoopStart _ _
  | .hbmLoopDone _ _ _ | .patrolScrubRead _ _ _ | .hbmRefresh _ | .unscheduledRefresh _ | .holdStart _ | .holdEnd _ | .holdLimitReport _ _
  | .replayDeliver _ | .contextTeardown _ | .drainTimerExpiry _ | .partitionFatal _ _ | .partitionResetDone _ | .moduleFatal _
  | .icvarWatchdog | .healthDecay | .gravelSliceStart _ _ _ | .gravelSliceEnd _ _ _ _ | .gravelSliceAbandon _ | .witnessSlice _ _ _
  | .arbiterPeriod _ | .clockSlewEnd | .emergencyHold | .sensorRead _ _ | .supplyTrip _ _ _ | .mgmtCapSet _ | .pldmFirmwareUpdate _
  | .pldmSensorRead _ | .mctpControl _ _ | .getVersion _ | .getCapabilities _ _ | .negotiateAlgorithms _ _ _ | .getDigests _
  | .getCertificate _ _ _ _ | .challenge _ _ _ | .getMeasurements _ _ _ | .keyExchange _ _ _ _ | .finish _ _ | .endSession _
  | .debugToken _ _ _ _ _ | .tapBypass | .tapIdcode | .tapSamplePreload _ _ | .tapExtest | .optimizerComplete _ | .scrubComplete _
  | .stackTrainingDone _ _ _ _ | .powerApplied | .powerRemoved | .pcieLinkTrained _ _ _ | .ideKmRequest _ _ => none

/-- The areas of the state that a command may change. -/
def areasOf : Instr → List Area
  | .configSpaceReady => [.module]
  | .mbxInDeposit _ _ _ _ | .mbxOutAck _ _ _ _ | .hbmLoopStart _ _ | .hbmLoopDone _ _ _ | .hbmRefresh _ | .emergencyHold
  | .pcieLinkTrained _ _ _ => [.registers]
  | .holdStart _ => [.parts]
  | .pldmSensorRead _ | .getDigests _ | .getCertificate _ _ _ _ => [.out]
  | .holdLimitReport _ _ => [.registers, .functions]
  | .unscheduledRefresh _ | .holdEnd _ => [.registers, .parts]
  | .trainingTimeout _ | .lnkLoopStart _ _ | .lnkLoopDone _ _ _ _ _ | .lnkLoopModeWrite _ _ => [.registers, .links]
  | .arbiterPeriod _ | .clockSlewEnd => [.registers, .power]
  | .healthDecay => [.flash, .care]
  | .pldmFirmwareUpdate _ => [.fuses, .out]
  | .rcRegisterRead _ _ _ _ => [.registers, .out]
  | .negotiateResend _ | .heartbeatSend _ => [.links, .out]
  | .mgmtCapSet _ => [.power, .out]
  | .getVersion _ | .getCapabilities _ _ | .negotiateAlgorithms _ _ _ | .challenge _ _ _ | .getMeasurements _ _ _ | .keyExchange _ _ _ _
  | .finish _ _ | .endSession _ | .debugToken _ _ _ _ _ | .tapBypass | .tapIdcode | .tapSamplePreload _ _ | .tapExtest =>
    [.security, .out]
  | .mctpControl _ _ => [.out, .draws]
  | .waitLimitReport _ _ => [.registers, .functions, .cores]
  | .slotChange _ | .bubbleFill _ => [.registers, .cores, .slots]
  | .collWaitReport _ => [.registers, .functions, .engines]
  | .powerGrant => [.module, .registers, .links]
  | .heartbeatTimeout _ => [.registers, .functions, .links]
  | .gravelSliceStart _ _ _ | .gravelSliceAbandon _ => [.registers, .cores, .care]
  | .moduleOperational => [.flash, .registers, .out]
  | .mbxOutPost _ _ => [.registers, .functions, .out]
  | .pcieConfigRequest _ _ => [.functions, .out, .draws]
  | .startPathChoice _ => [.module, .flash, .registers, .care]
  | .stackTrainingDone _ _ _ _ => [.module, .registers, .functions, .care]
  | .gravelSliceEnd _ _ _ _ => [.registers, .functions, .cores, .care]
  | .linkRetrainStart _ => [.registers, .functions, .links, .care]
  | .msgRefuse _ _ => [.registers, .functions, .links, .out]
  | .witnessSlice _ _ _ => [.registers, .functions, .care, .draws]
  | .msgEpochNotice _ _ => [.registers, .functions, .groups, .links, .out]
  | .notReadyReceive _ _ | .fencedReceive _ _ | .laneLock _ _ _ _ => [.registers, .functions, .links, .care, .out]
  | .patrolScrubRead _ _ _ => [.registers, .memory, .cache, .functions, .parts, .care]
  | .bar2Write _ _ _ _ => [.registers, .memory, .cache, .functions, .parts, .ctxs, .care]
  | .bar2Read _ _ _ _ => [.registers, .memory, .cache, .functions, .parts, .care, .out]
  | .doorbell _ _ _ => [.registers, .memory, .cache, .functions, .queues, .parts, .ctxs, .care]
  | .cqRelease _ _ _ => [.registers, .memory, .cache, .hostMemory, .functions, .queues, .parts, .care, .out]
  | .commandTimeout _ _ => [.registers, .memory, .cache, .hostMemory, .functions, .queues, .commands, .parts, .ctxs, .care, .out]
  | .hello _ _ | .bye _ _ | .ping _ _ | .rplStop _ _ | .rplStatus _ _ | .partAssign _ _ _ | .partCache _ _ | .slotTable _ _ _
  | .partInfo _ _ _ | .ctxSet _ _ _ _ | .ctxQuiesce _ _ | .queueEnable _ _ | .queueReset _ _ | .handleInfo _ _ _ | .memFlush _
  | .scrubPeriod _ _ _ _ | .linkCfg _ _ _ _ _ | .witnessCfg _ _ _ _ _ | .outlierRing _ _ _ | .rplRecord _ _ _ _ _ | .rplMark _ _ _ _ _
  | .rplReplay _ _ _ _ | .gravelCfg _ _ _ | .limits _ _ _ _ | .telemetry _ _ _ | .health _ _ | .escalation _ _ _ _ =>
    [.registers, .memory, .cache, .hostMemory, .functions, .queues, .commands, .tokens, .parts, .ctxs, .care, .out]
  | .launchPublish _ => [.registers, .memory, .cache, .hostMemory, .functions, .queues, .commands, .launches, .parts, .ctxs, .care, .out]
  | .drainTimerExpiry _ =>
    [.registers, .memory, .cache, .hostMemory, .functions, .queues, .commands, .parts, .ctxs, .tallies, .care, .out]
  | .modelUnitsFreed _ => [.registers, .memory, .cache, .hostMemory, .functions, .queues, .commands, .parts, .ctxs, .models, .care, .out]
  | .busMasterDisable _ | .tdispRequest _ _ | .ideKmRequest _ _ =>
    [.registers, .memory, .cache, .hostMemory, .functions, .queues, .launches, .parts, .cores, .slots, .care, .out]
  | .autumnRun _ _ =>
    [.module, .registers, .memory, .cache, .hostMemory, .functions, .queues, .commands, .tokens, .parts, .ctxs, .care, .out]
  | .stackRate _ _ =>
    [.flash, .registers, .memory, .cache, .hostMemory, .functions, .queues, .commands, .tokens, .parts, .ctxs, .care, .out]
  | .tallyDestroy _ _ =>
    [.registers, .memory, .cache, .hostMemory, .functions, .queues, .commands, .tokens, .parts, .ctxs, .tallies, .care, .out]
  | .regionDestroy _ _ | .regionFreeze _ _ _ =>
    [.registers, .memory, .cache, .hostMemory, .functions, .queues, .commands, .tokens, .parts, .ctxs, .regions, .care, .out]
  | .tensorReg _ _ _ | .tensorVersion _ _ _ | .tensorScale _ _ _ | .tensorUnpoison _ _ | .tensorStamp _ _ _ | .histSet _ _ _ _ =>
    [.registers, .memory, .cache, .hostMemory, .functions, .queues, .commands, .tokens, .parts, .ctxs, .tensors, .care, .out]
  | .gateSet _ _ _ _ _ _ _ _ | .gateDestroy _ _ =>
    [.registers, .memory, .cache, .hostMemory, .functions, .queues, .commands, .tokens, .parts, .ctxs, .gates, .care, .out]
  | .modelDestroy _ _ =>
    [.registers, .memory, .cache, .hostMemory, .functions, .queues, .commands, .tokens, .parts, .ctxs, .models, .care, .out]
  | .groupBind _ _ _ _ =>
    [.registers, .memory, .cache, .hostMemory, .functions, .queues, .commands, .tokens, .parts, .ctxs, .groups, .care, .out]
  | .commDestroy _ _ _ =>
    [.registers, .memory, .cache, .hostMemory, .functions, .queues, .commands, .tokens, .parts, .ctxs, .comms, .care, .out]
  | .progLoad _ _ _ _ _ _ =>
    [.registers, .memory, .cache, .hostMemory, .functions, .queues, .commands, .tokens, .parts, .ctxs, .slots, .care, .out]
  | .linkExpect _ _ _ _ _ | .linkRetrain _ _ | .linkFence _ _ | .linkUnfence _ _ =>
    [.registers, .memory, .cache, .hostMemory, .functions, .queues, .commands, .tokens, .parts, .ctxs, .links, .care, .out]
  | .partCreate _ _ _ _ _ | .partSched _ _ | .powerCap _ _ =>
    [.registers, .memory, .cache, .hostMemory, .functions, .queues, .commands, .tokens, .parts, .ctxs, .power, .care, .out]
  | .cmdqOpen _ _ _ _ _ _ | .ctxCreate _ _ _ _ | .driftPair _ _ _ _ _ _ _ =>
    [.registers, .memory, .cache, .hostMemory, .functions, .queues, .commands, .tokens, .parts, .ctxs, .care, .out, .draws]
  | .numSnapshot _ _ _ _ _ _ =>
    [.registers, .memory, .cache, .hostMemory, .functions, .queues, .commands, .tokens, .parts, .ctxs, .tensors, .gates, .care, .out]
  | .tensorUnreg _ _ | .modelEvict _ _ =>
    [.registers, .memory, .cache, .hostMemory, .functions, .queues, .commands, .tokens, .parts, .ctxs, .tensors, .models, .care, .out]
  | .tallySet _ _ _ =>
    [.registers, .memory, .cache, .hostMemory, .functions, .queues, .commands, .tokens, .parts, .ctxs, .tallies, .cores, .care, .out]
  | .progUnload _ _ _ =>
    [.registers, .memory, .cache, .hostMemory, .functions, .queues, .commands, .tokens, .parts, .ctxs, .cores, .slots, .care, .out]
  | .tallyCreate _ _ _ _ _ =>
    [.registers, .memory, .cache, .hostMemory, .functions, .queues, .commands, .tokens, .parts, .ctxs, .tallies, .care, .out, .draws]
  | .regionCreate _ _ _ _ _ =>
    [.registers, .memory, .cache, .hostMemory, .functions, .queues, .commands, .tokens, .parts, .ctxs, .regions, .care, .out, .draws]
  | .gateCreate _ _ _ _ _ _ _ _ =>
    [.registers, .memory, .cache, .hostMemory, .functions, .queues, .commands, .tokens, .parts, .ctxs, .gates, .care, .out, .draws]
  | .modelDefine _ _ _ _ =>
    [.registers, .memory, .cache, .hostMemory, .functions, .queues, .commands, .tokens, .parts, .ctxs, .models, .care, .out, .draws]
  | .commCreate _ _ _ _ =>
    [.registers, .memory, .cache, .hostMemory, .functions, .queues, .commands, .tokens, .parts, .ctxs, .comms, .care, .out, .draws]
  | .launch _ _ _ _ =>
    [.registers, .memory, .cache, .hostMemory, .functions, .queues, .commands, .tokens, .launches, .parts, .ctxs, .models, .slots, .care,
    .out]
  | .functionLevelReset _ | .pfResetOrVfDisable _ | .cmdqClose _ _ | .partDestroy _ _ | .partHandover _ _ | .windowSet _ _ _ _
  | .fnState _ _ _ | .ctxDestroy _ _ | .queueDestroy _ _ | .queueDisable _ _ =>
    [.registers, .memory, .cache, .hostMemory, .functions, .queues, .commands, .tokens, .launches, .parts, .ctxs, .cores, .slots, .care,
    .out]
  | .msgAbort _ _ =>
    [.registers, .memory, .cache, .hostMemory, .functions, .queues, .launches, .parts, .ctxs, .tallies, .groups, .cores, .slots, .links,
    .care, .out]
  | .queueCreate _ _ _ _ _ _ _ _ _ =>
    [.registers, .memory, .cache, .hostMemory, .functions, .queues, .commands, .tokens, .launches, .parts, .ctxs, .cores, .slots, .care,
    .out, .draws]
  | .tileFetch _ _ | .partitionFatal _ _ =>
    [.module, .flash, .registers, .memory, .cache, .hostMemory, .functions, .queues, .launches, .parts, .ctxs, .tallies, .groups, .cores,
    .slots, .links, .care, .out]
  | .autumnBlockDone _ _ _ _ _ =>
    [.module, .flash, .registers, .memory, .cache, .hostMemory, .functions, .queues, .commands, .parts, .ctxs, .cores, .slots, .engines,
    .witness, .links, .care, .out]
  | .linkTransmit _ _ _ _ | .linkTxWatchdog _ | .negotiateReceive _ _ | .heartbeatReceive _ _ | .degradeReceive _ _ | .laneRetire _ _
  | .linkRetrainEnd _ _ _ =>
    [.module, .flash, .registers, .memory, .cache, .hostMemory, .functions, .queues, .launches, .parts, .ctxs, .tallies, .groups, .cores,
    .slots, .engines, .links, .care, .out]
  | .scrubComplete _ =>
    [.flash, .registers, .memory, .cache, .hostMemory, .functions, .queues, .commands, .tokens, .parts, .ctxs, .models, .cores, .slots,
    .engines, .witness, .links, .care, .out]
  | .tallyAdd _ _ _ | .sequencerWatchdog _ _ | .msgWrite _ _ _ _ | .msgBlock _ _ _ _ | .epochGraceExpiry _ =>
    [.module, .flash, .registers, .memory, .cache, .hostMemory, .functions, .queues, .launches, .parts, .ctxs, .tallies, .groups, .cores,
    .slots, .links, .care, .out, .draws]
  | .ctxSnapshot _ _ _ _ _ _ =>
    [.module, .flash, .registers, .memory, .cache, .hostMemory, .functions, .queues, .commands, .tokens, .launches, .parts, .ctxs,
    .tallies, .groups, .cores, .slots, .links, .care, .out]
  | .waitTimeout _ =>
    [.module, .flash, .registers, .memory, .cache, .hostMemory, .functions, .queues, .launches, .parts, .ctxs, .tallies, .tensors,
    .groups, .cores, .slots, .engines, .links, .care, .out]
  | .moverTransfer _ _ _ | .moverComplete _ | .crcSecondRead _ _ | .moverWatchdog _ | .routeDescriptor _ _ | .routeWatchdog _
  | .gateSnapshot _ | .optimizerWatchdog _ | .linkTransmitAcked _ | .flitReceive _ _ _ _ =>
    [.module, .flash, .registers, .memory, .cache, .hostMemory, .functions, .queues, .launches, .parts, .ctxs, .tallies, .groups, .cores,
    .slots, .engines, .links, .care, .out, .draws]
  | .tileIssue _ _ _ _ | .witnessCheckDone _ _ _ =>
    [.module, .flash, .registers, .memory, .cache, .hostMemory, .functions, .queues, .launches, .parts, .ctxs, .tallies, .groups, .cores,
    .slots, .witness, .links, .care, .out, .draws]
  | .partitionResetDone _ =>
    [.module, .registers, .memory, .cache, .hostMemory, .functions, .queues, .commands, .tokens, .parts, .ctxs, .tensors, .gates, .models,
    .comms, .cores, .slots, .engines, .witness, .care, .out]
  | .gateDecision _ =>
    [.module, .flash, .registers, .memory, .cache, .hostMemory, .functions, .queues, .launches, .parts, .ctxs, .tallies, .tensors, .gates,
    .groups, .cores, .slots, .engines, .links, .care, .out]
  | .routeComplete _ | .collectiveComplete _ | .optimizerComplete _ =>
    [.module, .flash, .registers, .memory, .cache, .hostMemory, .functions, .queues, .launches, .parts, .ctxs, .tallies, .tensors,
    .groups, .cores, .slots, .engines, .links, .care, .out, .draws]
  | .optimizerUpdate _ _ =>
    [.module, .flash, .registers, .memory, .cache, .hostMemory, .functions, .queues, .launches, .parts, .ctxs, .tallies, .gates, .groups,
    .cores, .slots, .engines, .links, .care, .out, .draws]
  | .tileComplete _ _ =>
    [.module, .flash, .registers, .memory, .cache, .hostMemory, .functions, .queues, .launches, .parts, .ctxs, .tallies, .tensors,
    .groups, .cores, .slots, .witness, .links, .care, .out, .draws]
  | .modelLoad _ _ _ =>
    [.module, .flash, .registers, .memory, .cache, .hostMemory, .functions, .queues, .commands, .tokens, .launches, .parts, .ctxs,
    .tallies, .tensors, .models, .groups, .cores, .slots, .links, .care, .out]
  | .queueDrainEnd _ =>
    [.module, .flash, .registers, .memory, .cache, .hostMemory, .functions, .queues, .commands, .tokens, .launches, .parts, .ctxs,
    .tallies, .tensors, .groups, .cores, .slots, .engines, .links, .care, .out, .draws]
  | .collectiveDescriptor _ _ | .chunkArrival _ _ _ _ _ _ | .chunkCreditReturn _ _ _ _ =>
    [.module, .flash, .registers, .memory, .cache, .hostMemory, .functions, .queues, .launches, .parts, .ctxs, .tallies, .tensors, .gates,
    .groups, .comms, .cores, .slots, .engines, .links, .care, .out, .draws]
  | .epochInstall _ _ _ _ _ =>
    [.module, .flash, .registers, .memory, .cache, .hostMemory, .functions, .queues, .commands, .tokens, .launches, .parts, .ctxs,
    .tallies, .tensors, .groups, .comms, .cores, .slots, .engines, .links, .care, .out, .draws]
  | .powerRemoved =>
    [.module, .registers, .memory, .cache, .functions, .queues, .commands, .tokens, .launches, .parts, .ctxs, .tallies, .regions,
    .tensors, .gates, .models, .groups, .comms, .cores, .slots, .engines, .witness, .links, .power, .care, .security]
  | .contextTeardown _ =>
    [.module, .flash, .registers, .memory, .cache, .hostMemory, .functions, .queues, .commands, .tokens, .launches, .parts, .ctxs,
    .tallies, .regions, .tensors, .gates, .models, .groups, .comms, .cores, .slots, .engines, .links, .care, .out, .draws]
  | .perstNAssert | .perstNRelease | .hotReset | .resetKeyWrite _ | .moduleFatal _ | .icvarWatchdog | .sensorRead _ _ | .powerApplied =>
    [.module, .fuses, .flash, .registers, .memory, .cache, .functions, .queues, .commands, .tokens, .launches, .parts, .ctxs, .tallies,
    .regions, .tensors, .gates, .models, .groups, .comms, .cores, .slots, .engines, .witness, .links, .power, .care, .security]
  | .shdnReq _ =>
    [.module, .flash, .registers, .memory, .cache, .hostMemory, .functions, .queues, .commands, .tokens, .launches, .parts, .ctxs,
    .tallies, .regions, .tensors, .gates, .models, .groups, .comms, .cores, .slots, .engines, .witness, .links, .care, .out, .draws]
  | .mailboxTake _ _ _ _ _ _ | .queueFetch _ _ _ _ | .replayDeliver _ =>
    [.module, .flash, .registers, .memory, .cache, .hostMemory, .functions, .queues, .commands, .tokens, .launches, .parts, .ctxs,
    .tallies, .regions, .tensors, .gates, .models, .groups, .comms, .cores, .slots, .engines, .links, .power, .care, .out, .draws]
  | .supplyTrip _ _ _ =>
    [.module, .fuses, .flash, .registers, .memory, .cache, .functions, .queues, .commands, .tokens, .launches, .parts, .ctxs, .tallies,
    .regions, .tensors, .gates, .models, .groups, .comms, .cores, .slots, .engines, .witness, .links, .power, .care, .security, .draws]
  | .registerWrite _ _ _ _ _ =>
    [.module, .fuses, .flash, .registers, .memory, .cache, .hostMemory, .functions, .queues, .commands, .tokens, .launches, .parts, .ctxs,
    .tallies, .regions, .tensors, .gates, .models, .groups, .comms, .cores, .slots, .engines, .witness, .links, .power, .care, .security,
    .out]

end Sys2Proof.Machine
end

