-- ==== Sys2Proof/Certificates/Slice0/Obligations.lean ====
section
/-! DEFINITION. The statements for the provers. A `before`, `Accepted`, `Answers`, `Ends`, `Waits`, `Pends`, `Only` and the other
terms that the statements share are defined in Safety.lean. -/

open Sys2Proof Sys2Proof.Machine

/-- HELLO, BYE and PING complete (R360, R362, R377): HELLO opens the function's session at its next generation with the versions 1.0 and
answers them; BYE ends it; PING answers its argument and changes nothing. CMDQ_OPEN and CMDQ_CLOSE complete (R344, R349, R368,
R377). CMDQ_OPEN makes an ENABLED queue of kind 0 at a free index and a free slot of its function and answers its handle; CMDQ_CLOSE
drains an ENABLED queue, and removes one that does not run at once. Parts of it are the model's choice: log entry 81. -/
def Obligations.SessionAndCommandQueueCommands : Prop :=
  (∀ (rq : Req) (arg : BitVec 48) (s : State), Accepted refuseHello rq 0x01 [arg.setWidth 64] s →
    let b := before rq 0x01 [arg.setWidth 64] s
    let g := (b.fn rq.fn.val).sessionGen + 1
    ∃ u, Answers (.hello rq arg) rq 0x01 [arg.setWidth 64] s (BitVec.ofNat 64 (0x101010 * 2 ^ 24 + g % 2 ^ 24)) u ∧
      u.fn rq.fn.val = { b.fn rq.fn.val with session := some ⟨0x10, 0x10, 0x10, g % 2 ^ 24⟩, sessionGen := g } ∧
      (∀ f, f ≠ rq.fn.val → u.fn f = b.fn f) ∧ Only [.functions] b u) ∧
  (∀ (rq : Req) (arg : BitVec 48) (s : State), Accepted refuseBye rq 0x02 [arg.setWidth 64] s →
    let b := before rq 0x02 [arg.setWidth 64] s
    ∃ u, Answers (.bye rq arg) rq 0x02 [arg.setWidth 64] s 0 u ∧
      u.fn rq.fn.val = { b.fn rq.fn.val with session := none } ∧
      (∀ f, f ≠ rq.fn.val → u.fn f = b.fn f) ∧ Only [.functions] b u) ∧
  (∀ (rq : Req) (arg : BitVec 48) (s : State), Accepted refusePing rq 0x03 [arg.setWidth 64] s →
    Answers (.ping rq arg) rq 0x03 [arg.setWidth 64] s (arg.setWidth 64) (before rq 0x03 [arg.setWidth 64] s)) ∧
  (∀ (rq : Req) (ring n cq m vector : Word) (s : State),
    let args := [ring, n, cq, m, vector]
    let b := before rq 0x10 args s
    let f := rq.fn.val
    Accepted refuseCmdqOpen rq 0x10 args s → (∃ q, q < 8192 ∧ queueFree b q = true) → (∃ j, j < 512 ∧ slotFree b f j = true) →
    ∃ u q j, q < 8192 ∧ queueFree b q = true ∧ j < 512 ∧ slotFree b f j = true ∧
      Answers (.cmdqOpen rq ring n cq m vector) rq 0x10 args s (mkHandle 2 (((b.fn f).part).getD 0) (b.queue q).gen q) u ∧
      u.queue q = { present := true, gen := (b.queue q).gen, part := ((b.fn f).part).getD 0, kind := 0, fn := f, slot := j,
                    ring := ring, n := n.toNat, cq := some cq, m := m.toNat, vector := vector.toNat, mode := .enabled } ∧
      (∀ r, r ≠ q → u.queue r = b.queue r) ∧
      (∀ g, fnRest (u.fn g) = fnRest (if g = f then { b.fn g with cmdq := some q } else b.fn g)) ∧
      (∀ p, partRest (u.part p) = partRest (b.part p)) ∧ Wrote b u cq (List.replicate m.toNat unready).flatten ∧
      Only (storeAreas ++ [.queues, .draws]) b u) ∧
  (∀ (rq : Req) (arg : BitVec 48) (s : State) (q : Nat),
    let args : List Word := [arg.setWidth 64]
    let b := before rq 0x04 args s
    Accepted refuseCmdqClose rq 0x04 args s → (b.fn rq.fn.val).cmdq = some q →
    (((b.queue q).mode = .enabled →
        ∃ u, Waits (.cmdqClose rq arg) rq 0x04 s (.cmdqClose q) u ∧ (u.queue q).mode = .draining ∧
          (∀ r, r ≠ q → u.queue r = b.queue r) ∧
          Only (storeAreas ++ [.queues, .launches, .slots, .cores, .out]) b u) ∧
      ((b.queue q).mode = .draining → Waits (.cmdqClose rq arg) rq 0x04 s (.cmdqClose q) b) ∧
      ((b.queue q).mode = .disabled ∨ (b.queue q).mode = .error →
        ∃ u, Answers (.cmdqClose rq arg) rq 0x04 args s 0 u ∧ u.queue q = { gen := (b.queue q).gen + 1 } ∧
          (∀ r, r ≠ q → u.queue r = b.queue r) ∧ (u.fn rq.fn.val).cmdq = none ∧ Only [.functions, .queues, .tokens] b u)))

/-- RPL_RECORD, RPL_MARK, RPL_STATUS, RPL_STOP and RPL_REPLAY complete (R263, R264, R266, R267, R269, R377). A recording begins at the
start of its place with record 0; a mark is appended with its number as the result and a count of 0; RPL_STATUS answers and changes
nothing; RPL_STOP ends a recording, whose records stay counted, and a replay, whose command it publishes; RPL_REPLAY clears
RPL_DIVERGE, begins at the log's start, and waits. Parts of it are the model's choice: log entry 94. -/
def Obligations.LogCommands : Prop :=
  (∀ (rq : Req) (ctx addr len payload : Word) (s : State),
    Ends (.rplRecord rq ctx addr len payload) refuseRplRecord rq 0x68 [ctx, addr, len, payload] s (fun _ => True) fun b r u =>
      r = 0 ∧ u.ctx (hIdx ctx) = { b.ctx (hIdx ctx) with log := some ⟨addr.toNat, len.toNat, 0, 0, payload.toNat == 1, false⟩ } ∧
      (∀ k, k ≠ hIdx ctx → u.ctx k = b.ctx k) ∧ Only [.ctxs] b u) ∧
  (∀ (rq : Req) (ctx tally tensor n : Word) (s : State),
    Ends (.rplMark rq ctx tally tensor n) refuseRplMark rq 0x69 [ctx, tally, tensor, n] s (fun _ => True) fun b r u =>
      let m := (b.ctx (hIdx ctx)).marks.length
      r = BitVec.ofNat 64 m ∧ u.ctx (hIdx ctx) = { b.ctx (hIdx ctx) with
        marks := (b.ctx (hIdx ctx)).marks ++ [⟨m, hIdx tally, tensor.toNat, n.toNat, 0⟩] } ∧
      (∀ k, k ≠ hIdx ctx → u.ctx k = b.ctx k) ∧ Only [.ctxs] b u) ∧
  (∀ (rq : Req) (arg : BitVec 48) (s : State),
    Ends (.rplStatus rq arg) refuseRplStatus rq 0x06 [arg.setWidth 64] s (fun _ => True) fun b r u =>
      let x := b.ctx (bitsOf arg.toNat 23 0)
      r = BitVec.ofNat 64 (recordsWritten x % 2 ^ 32 * 65536 + logBits b x) ∧ u = b) ∧
  (∀ (rq : Req) (arg : BitVec 48) (s : State),
    let k := bitsOf arg.toNat 23 0
    Ends (.rplStop rq arg) refuseRplStop rq 0x05 [arg.setWidth 64] s (fun _ => True) fun b r u =>
      r = 0 ∧ u.ctx k = { b.ctx k with log := none, replay := none, logged := recordsWritten (b.ctx k) } ∧
      (∀ j, j ≠ k → u.ctx j = b.ctx j) ∧ ((b.ctx k).replay = none → Only [.ctxs] b u) ∧
      (∀ g p, (b.ctx k).replay = some g → b.host.commands.find? (fun x => x.kind == .rplReplay k) = some p →
        u = publishOne (b.modCtx k (fun x => { x with log := none, replay := none, logged := recordsWritten x })) p 0 g.seq)) ∧
  (∀ (rq : Req) (ctx addr len : Word) (s : State),
    Pends (.rplReplay rq ctx addr len) refuseRplReplay rq 0x6A [ctx, addr, len] s (fun _ => True) (.rplReplay (hIdx ctx)) fun b u =>
      u.ctx (hIdx ctx) = { b.ctx (hIdx ctx) with replay := some ⟨addr.toNat, len.toNat, 0, 0, true, false⟩ } ∧
      u.raw ⟨.rplDiverge, fnPart b rq.fn.val, 0⟩ = 0 ∧ u.fld fRplLogDiverged (fnPart b rq.fn.val) 0 = 0 ∧
      (∀ k, k ≠ hIdx ctx → u.ctx k = b.ctx k) ∧ Only [.ctxs, .registers] b u)

/-- PART_CREATE, PART_ASSIGN, PART_SCHED, PART_CACHE and SLOT_TABLE complete (R49, R242, R256, R257, R363, R386, R502). A new partition
takes the lowest free number, ACTIVE, with the versions of its creator's session; an assigned or released function changes its
partition alone; a change of schedule sets RPL_WORK to 0 and discards the slot table on leaving Winter; a change of the cache part
writes it back, and the result is the dirty lines written; a slot table is kept as the bytes at its address say. Parts of it are the
model's choice: log entry 129. -/
def Obligations.PartitionCommands : Prop :=
  (∀ (rq : Req) (mask tenancy schedule units : Word) (s : State),
    Ends (.partCreate rq mask tenancy schedule units) refusePartCreate rq 0x18 [mask, tenancy, schedule, units] s (fun _ => True)
      fun b r u => ∃ p, p < 8 ∧ (b.part p).present = false ∧ (∀ q, q < p → (b.part q).present = true) ∧ r = BitVec.ofNat 64 p ∧
        u.part p = { present := true, mask := mask.toNat, isSealed := tenancy.toNat == 1, units := units.toNat,
                     winter := schedule.toNat == 1, descVer := ((b.fn rq.fn.val).session.map (·.desc)).getD 0x10,
                     fmtVer := ((b.fn rq.fn.val).session.map (·.fmt)).getD 0x10 } ∧
        (∀ q, q ≠ p → u.part q = b.part q) ∧ Only [.parts, .registers, .power] b u) ∧
  (∀ (rq : Req) (fn part : Word) (s : State),
    Ends (.partAssign rq fn part) refusePartAssign rq 0x1A [fn, part] s (fun _ => True) fun b r u =>
      r = 0 ∧ u.fn fn.toNat = { b.fn fn.toNat with part := if part.toNat = 0xFF then none else some part.toNat } ∧
      (∀ f, f ≠ fn.toNat → u.fn f = b.fn f) ∧ Only [.functions] b u) ∧
  (∀ (rq : Req) (schedule : Word) (s : State),
    Ends (.partSched rq schedule) refusePartSched rq 0x1C [schedule] s (fun _ => True) fun b r u =>
      let p := fnPart b rq.fn.val
      let w := schedule.toNat == 1
      r = 0 ∧ ((b.part p).winter = w → u = b) ∧
      ((b.part p).winter ≠ w → u.part p = { b.part p with
          winter := w, table := if w then (b.part p).table else none, held := false, causes := [] } ∧
        u.fld fRplWorkLaunch p 0 = 0 ∧ u.fld fRplWorkWorkCycles p 0 = 0) ∧
      (∀ q, q ≠ p → u.part q = b.part q) ∧ Only [.parts, .registers, .power] b u) ∧
  (∀ (rq : Req) (units : Word) (s : State),
    Ends (.partCache rq units) refusePartCache rq 0x1D [units] s (fun _ => True) fun b r u =>
      let p := fnPart b rq.fn.val
      ((b.part p).units = units.toNat → r = 0 ∧ u = b) ∧
      ((b.part p).units ≠ units.toNat → r = BitVec.ofNat 64 (flushPart b p).2 ∧ 
        partRest (u.part p) = partRest { b.part p with units := units.toNat }) ∧
      (∀ q, q ≠ p → partRest (u.part q) = partRest (b.part q)) ∧ (∀ f, fnRest (u.fn f) = fnRest (b.fn f)) ∧
      Only readAreas b u) ∧
  (∀ (rq : Req) (addr len : Word) (s : State),
    EndsOn (.slotTable rq addr len) s s refuseSlotTable tableReads rq 0x1E [addr, len] (fun _ => True) fun b r u =>
      let p := fnPart b rq.fn.val
      r = 0 ∧ u.part p = { b.part p with table := some (parseTable (readArg b addr 0 len.toNat)) } ∧
      (∀ q, q ≠ p → u.part q = b.part q) ∧ Only [.parts] b u)

/-- PART_DESTROY, PART_HANDOVER, WINDOW_SET and FN_STATE complete (R335, R354, R385, R389, R395, R417). A partition that is destroyed or
handed over leaves ACTIVE and stops its contexts, and its reset begins once none of them is left; a window is set for one quarter
alone, and a locked TDI of another function refuses it and enters ERROR; a function is enabled at once, and one that is disabled
stops its queues first. Parts of it are the model's choice: log entries 84 and 96. -/
def Obligations.PartitionAndFunctionStates : Prop :=
  (∀ (rq : Req) (part : Word) (s : State),
    Pends (.partDestroy rq part) refusePartDestroy rq 0x19 [part] s (fun _ => True) (.partDestroy part.toNat) fun b u =>
      let x := b.part part.toNat
      partRest (u.part part.toNat) = partRest { x with
        mode := .destroying, stageStart := b.now, mismatch := false,
        stage := if partCtxs u part.toNat = [] ∨ x.stage = .resetting then .resetting else .stopping } ∧
      (∀ q, q ≠ part.toNat → partRest (u.part q) = partRest (b.part q)) ∧ (∀ k, (b.ctx k).part = part.toNat → (u.ctx k).mode ≠ .active) ∧
      Only (storeAreas ++ [.ctxs, .queues, .launches, .cores, .slots, .out]) b u) ∧
  (∀ (rq : Req) (part : Word) (s : State),
    Pends (.partHandover rq part) refusePartHandover rq 0x1B [part] s (fun _ => True) (.partHandover part.toNat) fun b u =>
      let x := b.part part.toNat
      partRest (u.part part.toNat) = partRest { x with
        mode := .handover, stageStart := b.now, mismatch := false,
        stage := if partCtxs u part.toNat = [] ∨ x.stage = .resetting then .resetting else .stopping } ∧
      (∀ q, q ≠ part.toNat → partRest (u.part q) = partRest (b.part q)) ∧ (∀ k, (b.ctx k).part = part.toNat → (u.ctx k).mode ≠ .active) ∧
      Only (storeAreas ++ [.ctxs, .queues, .launches, .cores, .slots, .out]) b u) ∧
  (∀ (rq : Req) (fn quarter base : Word) (s : State),
    Ends (.windowSet rq fn quarter base) refuseWindowSet rq 0x33 [fn, quarter, base] s
      (fun b => fn.toNat = rq.fn.val ∨ tdiLocked b fn.toNat = false) fun b r u =>
      let rest := (b.fn fn.toNat).windows.filter (fun w => w.1 != quarter.toNat)
      r = 0 ∧ u.fn fn.toNat = { b.fn fn.toNat with
        windows := if base.toNat = 2 ^ 64 - 1 then rest else rest ++ [(quarter.toNat, base.toNat)] } ∧
      (∀ f, f ≠ fn.toNat → u.fn f = b.fn f) ∧ Only [.functions] b u) ∧
  (∀ (rq : Req) (fn quarter base : Word) (s : State),
    let b := before rq 0x33 [fn, quarter, base] s
    Accepted refuseWindowSet rq 0x33 [fn, quarter, base] s → fn.toNat ≠ rq.fn.val → tdiLocked b fn.toNat = true →
      exec (.windowSet rq fn quarter base) s =
        .next (answered rq 0x33 [fn, quarter, base] b (tdiError b fn.toNat) rcNotPermitted 0)) ∧
  (∀ (rq : Req) (fn : Word) (s : State),
    Ends (.fnState rq fn 1) refuseFnState rq 0x34 [fn, 1] s (fun _ => True) fun b r u =>
      r = 0 ∧ u.fn fn.toNat = { b.fn fn.toNat with mode := .enabled } ∧ (∀ f, f ≠ fn.toNat → u.fn f = b.fn f) ∧
      Only [.functions] b u) ∧
  (∀ (rq : Req) (fn : Word) (s : State),
    Pends (.fnState rq fn 0) refuseFnState rq 0x34 [fn, 0] s (fun _ => True) (.fnDisable fn.toNat) fun b u =>
      (∀ f, fnRest (u.fn f) = fnRest (if f = fn.toNat then { b.fn f with mode := .disabled } else b.fn f)) ∧
      (∀ q, (b.queue q).present = true → (b.queue q).fn = fn.toNat → (u.queue q).mode ≠ .enabled) ∧
      Only (storeAreas ++ [.queues, .launches, .cores, .slots, .out]) b u)

/-- PART_INFO, HANDLE_INFO, TELEMETRY and HEALTH complete (R397, R398, R408, R436, R483): each writes its record where its address
argument points, answers the record's length, and changes nothing else. -/
def Obligations.ReportCommands : Prop :=
  (∀ (rq : Req) (part addr : Word) (s : State),
    Ends (.partInfo rq part addr) refusePartInfo rq 0x1F [part, addr] s (fun _ => True) fun b r u =>
      r = 32 ∧ Wrote b u addr (partRecord b part.toNat) ∧ Only storeAreas b u) ∧
  (∀ (rq : Req) (handle addr : Word) (s : State),
    Ends (.handleInfo rq handle addr) refuseHandleInfo rq 0x35 [handle, addr] s (fun _ => True) fun b r u =>
      r = 32 ∧ Wrote b u addr (if hKind handle = 1 then ctxRecord b handle else modelRecord b handle) ∧
      Only storeAreas b u) ∧
  (∀ (rq : Req) (kind addr : Word) (s : State),
    Ends (.telemetry rq kind addr) refuseTelemetry rq 0x74 [kind, addr] s (fun _ => True) fun b r u =>
      r = BitVec.ofNat 64 (telemetryBytes kind.toNat) ∧ Wrote b u addr (telemetryRecord b kind.toNat) ∧
      Only storeAreas b u) ∧
  (∀ (rq : Req) (addr : Word) (s : State),
    Ends (.health rq addr) refuseHealth rq 0x75 [addr] s (fun _ => True) fun b r u =>
      r = 3120 ∧ Wrote b u addr (healthRecord b) ∧ Only storeAreas b u)

/-- CTX_CREATE, CTX_SET, CTX_DESTROY and CTX_QUIESCE complete (R374, R377, R394 to R396, R417, R437). A new context stands at a free
index at its next generation, ACTIVE in its creator's partition with the class, fill delay and owner given; a destroyed one enters
STOPPING and waits for its teardown; CTX_QUIESCE changes nothing before its quiesce point. Parts of it are the model's choice: log
entries 11 and 23. -/
def Obligations.ContextCommands : Prop :=
  (∀ (rq : Req) (cls fill owner : Word) (s : State),
    Ends (.ctxCreate rq cls fill owner) refuseCtxCreate rq 0x20 [cls, fill, owner] s (fun _ => True) fun b r u =>
      ∃ k, k < 512 ∧ (b.ctx k).mode = .free ∧ r = mkHandle 1 (fnPart b rq.fn.val) ((b.ctx k).gen + 1) k ∧
        u.ctx k = { mode := .active, gen := (b.ctx k).gen + 1, bestEffort := cls.toNat == 1, fill := fill.toNat,
                    owner := owner.toNat, part := fnPart b rq.fn.val } ∧
        (∀ j, j ≠ k → u.ctx j = b.ctx j) ∧ Only [.ctxs, .draws] b u) ∧
  (∀ (rq : Req) (ctx cls fill : Word) (s : State),
    Ends (.ctxSet rq ctx cls fill) refuseCtxSet rq 0x22 [ctx, cls, fill] s (fun _ => True) fun b r u =>
      r = 0 ∧ u.ctx (hIdx ctx) = { b.ctx (hIdx ctx) with bestEffort := cls.toNat == 1, fill := fill.toNat } ∧
      (∀ j, j ≠ hIdx ctx → u.ctx j = b.ctx j) ∧ Only [.ctxs] b u) ∧
  (∀ (rq : Req) (ctx : Word) (s : State),
    Pends (.ctxDestroy rq ctx) refuseCtxDestroy rq 0x21 [ctx] s (fun _ => True) (.ctxDestroy (hIdx ctx)) fun b u =>
      u.ctx (hIdx ctx) = { b.ctx (hIdx ctx) with mode := .stopping, quiesced := false } ∧
      (∀ j, j ≠ hIdx ctx → u.ctx j = b.ctx j) ∧
      Only (storeAreas ++ [.ctxs, .queues, .launches, .cores, .slots, .out]) b u) ∧
  (∀ (rq : Req) (ctx : Word) (s : State),
    Pends (.ctxQuiesce rq ctx) refuseCtxQuiesce rq 0x23 [ctx] s (fun _ => True) (.ctxQuiesce (hIdx ctx)) fun b u => u = b)

/-- CTX_SNAPSHOT and NUM_SNAPSHOT complete (R56, R63, R198, R200, R438, R501). A snapshot whose blocks can all be delivered answers the
bytes of its stream, which begins with the header and one entry for each tensor; one that meets a block that cannot be delivered
ends FAULTED with the offset of that block; NUM_SNAPSHOT gives its records in list order and then clears what it is told to clear,
and nothing else. Parts of it are the model's choice: log entry 85. -/
def Obligations.SnapshotCommands : Prop :=
  (∀ (rq : Req) (ctx list count dest : Word) (hits : List Hit) (s : State),
    let args := [ctx, list, count, dest]
    let c := cmdOf rq 0x24 args
    let s₁ := upsetWords s hits
    let b := before rq 0x24 args s₁
    let m := seen snapReads rq 0x24 args s₁
    let ts := snapTensors c m
    let entries := (snapPlan ts).flatMap snapEntry
    let moved := snapStream c dest (snapBlocks (snapPlan ts)) (snapBegin c m)
    Accepted refuseCtxSnapshot rq 0x24 args s₁ →
      (moved.2 = none → ∃ u, exec (.ctxSnapshot rq ctx list count dest hits) s =
          .next (answered rq 0x24 args b u 0 (BitVec.ofNat 64 (snapLength ts))) ∧
        readArg u dest 0 (64 + 128 * count.toNat) = snapHeader m (hIdx ctx) ts entries ++ entries ∧
        (∀ p i, u.tensor p i = m.tensor p i) ∧ Only (storeAreas ++ [.module, .flash, .queues, .launches, .ctxs, .tallies, .groups, .cores,
          .slots, .links, .out]) m u) ∧
      (∀ off, moved.2 = some off → ∃ u, exec (.ctxSnapshot rq ctx list count dest hits) s =
          .next (answered rq 0x24 args b u rcFaulted (BitVec.ofNat 64 off)) ∧
        (∀ p i, u.tensor p i = m.tensor p i))) ∧
  (∀ (rq : Req) (kind list count dest clear : Word) (s : State),
    let args := [kind, list, count, dest, clear]
    let c := cmdOf rq 0x61 args
    EndsOn (.numSnapshot rq kind list count dest clear) s s refuseNumSnapshot numReads rq 0x61 args (fun _ => True)
      fun m r u =>
      let p := myPart c m
      r = BitVec.ofNat 64 (snapSize kind.toNat * count.toNat) ∧
      Wrote m u dest ((numEntries c m).map (snapRecord m p kind.toNat)).flatten ∧
      (clear = 0 → Only storeAreas m u) ∧
      (clear = 1 → kind = 0 → (∀ e ∈ numEntries c m, u.tensor p e = { m.tensor p e with
        counter := (m.tensor p e).counter.map clearCounter }) ∧ Only (storeAreas ++ [.tensors]) m u) ∧
      (clear = 1 → kind = 1 → (∀ e ∈ numEntries c m, u.gate p e = { m.gate p e with
        skipsNonfinite := 0, skipsVersion := 0, skipsAtFloor := 0, partialCount := 0 }) ∧ Only (storeAreas ++ [.gates]) m u) ∧
      (clear = 1 → kind = 2 → (∀ e ∈ numEntries c m, u.ctx (hIdx (BitVec.ofNat 64 e)) =
        { m.ctx (hIdx (BitVec.ofNat 64 e)) with nf := 0 }) ∧ Only (storeAreas ++ [.ctxs]) m u))

/-- QUEUE_CREATE, QUEUE_DESTROY, QUEUE_ENABLE, QUEUE_DISABLE and QUEUE_RESET complete (R344, R348, R349, R354, R355, R375, R377, R378,
R437). A new queue is DISABLED, at a free index and a free slot of its bound function; a destroyed one leaves its index's generation
raised; a locked TDI of another function refuses either and enters ERROR; an enabled one ends its context's quiesce point;
QUEUE_DISABLE drains an ENABLED queue; QUEUE_RESET sets its positions to 0. Parts of it are the model's choice: log entries 11, 23
and 86. -/
def Obligations.QueueCommands : Prop :=
  (∀ (rq : Req) (kindUnit ring n cq m vector boundFn ctx : Word) (s : State),
    Ends (.queueCreate rq kindUnit ring n cq m vector boundFn ctx) refuseQueueCreate rq 0x28
      [kindUnit, ring, n, cq, m, vector, boundFn, ctx] s
      (fun b => (boundFn.toNat = rq.fn.val ∨ tdiLocked b boundFn.toNat = false) ∧ (∃ q, q < 8192 ∧ queueFree b q = true) ∧
        ∃ j, j < 512 ∧ slotFree b boundFn.toNat j = true) fun b r u =>
      ∃ q j, q < 8192 ∧ queueFree b q = true ∧ j < 512 ∧ slotFree b boundFn.toNat j = true ∧
        r = mkHandle 2 (fnPart b rq.fn.val) (b.queue q).gen q ∧
        u.queue q = { present := true, gen := (b.queue q).gen, part := fnPart b rq.fn.val, kind := bitsOf kindUnit.toNat 7 0,
                      unit := bitsOf kindUnit.toNat 31 8, fn := boundFn.toNat, slot := j, ctx := some (hIdx ctx), ring := ring,
                      n := n.toNat, cq := if cq = 0 then none else some cq, m := if m.toNat = 0 then 64 else m.toNat,
                      vector := vector.toNat, mode := .disabled } ∧
        (∀ k, k ≠ q → u.queue k = b.queue k) ∧ Only (storeAreas ++ [.queues, .draws]) b u ∧
        (cq = 0 → Only [.queues, .draws] b u) ∧
        (cq ≠ 0 → boundFn.toNat = rq.fn.val →
          Wrote b u cq (List.replicate (u.queue q).m unready).flatten)) ∧
  (∀ (rq : Req) (kindUnit ring n cq m vector boundFn ctx : Word) (s : State),
    let args := [kindUnit, ring, n, cq, m, vector, boundFn, ctx]
    let b := before rq 0x28 args s
    Accepted refuseQueueCreate rq 0x28 args s → boundFn.toNat ≠ rq.fn.val → tdiLocked b boundFn.toNat = true →
      exec (.queueCreate rq kindUnit ring n cq m vector boundFn ctx) s =
        .next (answered rq 0x28 args b (tdiError b boundFn.toNat) rcNotPermitted 0)) ∧
  (∀ (rq : Req) (queue : Word) (s : State),
    Ends (.queueDestroy rq queue) refuseQueueDestroy rq 0x29 [queue] s
      (fun b => (b.queue (hIdx queue)).fn = rq.fn.val ∨ tdiLocked b (b.queue (hIdx queue)).fn = false) fun b r u =>
      let x := b.queue (hIdx queue)
      r = 0 ∧ u.queue (hIdx queue) = { gen := x.gen + 1 } ∧ (∀ k, k ≠ hIdx queue → u.queue k = b.queue k) ∧
      (∀ f, u.fn f = if x.kind = 0 ∧ f = x.fn then { b.fn f with cmdq := none } else b.fn f) ∧
      Only [.functions, .queues, .tokens] b u) ∧
  (∀ (rq : Req) (queue : Word) (s : State),
    let b := before rq 0x29 [queue] s
    let f := (b.queue (hIdx queue)).fn
    Accepted refuseQueueDestroy rq 0x29 [queue] s → f ≠ rq.fn.val → tdiLocked b f = true →
      exec (.queueDestroy rq queue) s = .next (answered rq 0x29 [queue] b (tdiError b f) rcNotPermitted 0)) ∧
  (∀ (rq : Req) (queue : Word) (s : State),
    Ends (.queueEnable rq queue) refuseQueueEnable rq 0x2A [queue] s (fun _ => True) fun b r u =>
      r = 0 ∧ u.queue (hIdx queue) = { b.queue (hIdx queue) with mode := .enabled, recordsAllowed := true } ∧
      (∀ k, k ≠ hIdx queue → u.queue k = b.queue k) ∧
      (∀ k, u.ctx k = if (b.queue (hIdx queue)).ctx = some k then { b.ctx k with quiesced := false } else b.ctx k) ∧
      Only [.queues, .ctxs] b u) ∧
  (∀ (rq : Req) (queue : Word) (s : State),
    let q := hIdx queue
    Accepted refuseQueueDisable rq 0x2B [queue] s →
      ∃ u, Waits (.queueDisable rq queue) rq 0x2B s (.queueDisable q ((before rq 0x2B [queue] s).queue q).cancelled) u ∧
        (((before rq 0x2B [queue] s).queue q).mode = .enabled → (u.queue q).mode = .draining) ∧
        (((before rq 0x2B [queue] s).queue q).mode ≠ .enabled → u = before rq 0x2B [queue] s) ∧
        (∀ k, k ≠ q → u.queue k = (before rq 0x2B [queue] s).queue k) ∧
        Only (storeAreas ++ [.queues, .launches, .slots, .cores, .out]) (before rq 0x2B [queue] s) u) ∧
  (∀ (rq : Req) (queue : Word) (s : State),
    Ends (.queueReset rq queue) refuseQueueReset rq 0x2C [queue] s (fun _ => True) fun b r u =>
      r = 0 ∧ u.queue (hIdx queue) = { b.queue (hIdx queue) with
        mode := .disabled, tail := 0, consumed := 0, produced := 0, released := 0, entries := [], draining := false } ∧
      (∀ k, k ≠ hIdx queue → u.queue k = b.queue k) ∧ Only (storeAreas ++ [.queues]) b u)

/-- TALLY_CREATE, TALLY_SET and TALLY_DESTROY complete (R157, R375, R377, R404, R426). A new tally stands at a free index of its home
section with its initial count; TALLY_SET answers the count before and sets the new one; a destroyed tally leaves its index's
generation raised. REGION_CREATE, REGION_DESTROY and REGION_FREEZE complete (R30, R240, R375, R377): a region is granted to its
context at a free index, removed with its index's generation raised, and frozen or thawed. Parts of it are the model's choice: log
entries 11 and 23. -/
def Obligations.TallyAndRegionCommands : Prop :=
  (∀ (rq : Req) (ctx cls sec count : Word) (s : State),
    Ends (.tallyCreate rq ctx cls sec count) refuseTallyCreate rq 0x2D [ctx, cls, sec, count] s (fun _ => True) fun b r u =>
      ∃ n i, tallyHome b (fnPart b rq.fn.val) (hIdx ctx) sec.toNat = some n ∧ i < 2048 ∧
        tallyFree b (2048 * n + i) = true ∧
        r = mkHandle 3 (fnPart b rq.fn.val) (b.tally (2048 * n + i)).gen (2048 * n + i) ∧
        u.tally (2048 * n + i) = { present := true, gen := (b.tally (2048 * n + i)).gen, count := count.toNat, ctx := hIdx ctx,
                                   part := fnPart b rq.fn.val, isExternal := cls.toNat == 1 } ∧
        (∀ t, t ≠ 2048 * n + i → u.tally t = b.tally t) ∧ Only [.tallies, .draws] b u) ∧
  (∀ (rq : Req) (tally count : Word) (s : State),
    Ends (.tallySet rq tally count) refuseTallySet rq 0x2E [tally, count] s (fun _ => True) fun b r u =>
      r = BitVec.ofNat 64 (b.tally (hIdx tally)).count ∧
      u.tally (hIdx tally) = { b.tally (hIdx tally) with count := count.toNat } ∧
      (∀ t, t ≠ hIdx tally → u.tally t = b.tally t) ∧ (∀ p, partRest (u.part p) = partRest (b.part p)) ∧
      (∀ k, (u.core k).window = (b.core k).window ∧ (u.core k).running = (b.core k).running) ∧ Only [.tallies, .parts, .cores] b u) ∧
  (∀ (rq : Req) (tally : Word) (s : State),
    Ends (.tallyDestroy rq tally) refuseTallyDestroy rq 0x2F [tally] s (fun _ => True) fun b r u =>
      r = 0 ∧ u.tally (hIdx tally) = { gen := (b.tally (hIdx tally)).gen + 1 } ∧
      (∀ t, t ≠ hIdx tally → u.tally t = b.tally t) ∧ Only [.tallies, .tokens] b u) ∧
  (∀ (rq : Req) (ctx addr len perm : Word) (s : State),
    Ends (.regionCreate rq ctx addr len perm) refuseRegionCreate rq 0x30 [ctx, addr, len, perm] s (fun _ => True) fun b r u =>
      ∃ g, g < 65536 ∧ (b.region g).present = false ∧ r = mkHandle 4 (fnPart b rq.fn.val) (b.region g).gen g ∧
        u.region g = { present := true, gen := (b.region g).gen, ctx := hIdx ctx, part := fnPart b rq.fn.val, base := addr.toNat,
                       length := len.toNat, read := bitOf perm.toNat 0, write := bitOf perm.toNat 1 } ∧
        (∀ k, k ≠ g → u.region k = b.region k) ∧ Only [.regions, .draws] b u) ∧
  (∀ (rq : Req) (region : Word) (s : State),
    Ends (.regionDestroy rq region) refuseRegionDestroy rq 0x31 [region] s (fun _ => True) fun b r u =>
      r = 0 ∧ u.region (hIdx region) = { gen := (b.region (hIdx region)).gen + 1 } ∧
      (∀ k, k ≠ hIdx region → u.region k = b.region k) ∧ Only [.regions, .tokens] b u) ∧
  (∀ (rq : Req) (region freeze : Word) (s : State),
    Ends (.regionFreeze rq region freeze) refuseRegionFreeze rq 0x32 [region, freeze] s (fun _ => True) fun b r u =>
      r = 0 ∧ u.region (hIdx region) = { b.region (hIdx region) with frozen := freeze.toNat == 1 } ∧
      (∀ k, k ≠ hIdx region → u.region k = b.region k) ∧ Only [.regions] b u)

/-- MEM_FLUSH, SCRUB_PERIOD, STACK_RATE, PROG_LOAD and PROG_UNLOAD complete (R49, R51, R58, R147, R377). MEM_FLUSH writes back and
invalidates the cache part and answers the lines written; SCRUB_PERIOD sets the periods of the sections of its mask; STACK_RATE is
kept for the next full start; a program is placed in its slot with its context's generation tag, and removed. Parts of it are the
model's choice: log entries 29 and 145. -/
def Obligations.MemoryAndProgramCommands : Prop :=
  (∀ (rq : Req) (s : State),
    Ends (.memFlush rq) refuseMemFlush rq 0x38 [] s (fun _ => True) fun b r u =>
      r = BitVec.ofNat 64 (flushPart b (fnPart b rq.fn.val)).2 ∧
      (∀ e ∈ u.mem.cache, e.1 / 16 / 16384 ∉ maskSecs (b.part (fnPart b rq.fn.val)).mask) ∧
      SameBytes b u ∧ Only readAreas b u) ∧
  (∀ (rq : Req) (mask loam hbm : Word) (s : State),
    Ends (.scrubPeriod rq mask loam hbm) refuseScrubPeriod rq 0x39 [mask, loam, hbm] s (fun _ => True) fun b r u =>
      r = 0 ∧ (∀ n, n < 8 → bitOf mask.toNat n = true → loamPeriod u n = loam.toNat ∧ hbmPeriod u n = hbm.toNat) ∧
      (∀ n, n < 8 → bitOf mask.toNat n = false → loamPeriod u n = loamPeriod b n ∧ hbmPeriod u n = hbmPeriod b n) ∧
      Only [.cache, .registers] b u) ∧
  (∀ (rq : Req) (allow : Word) (s : State),
    Ends (.stackRate rq allow) refuseStackRate rq 0x3A [allow] s (fun _ => True) fun b r u =>
      r = 0 ∧ u.flash = { b.flash with rateAllowed := allow.setWidth 24 } ∧ Only [.flash] b u) ∧
  (∀ (rq : Req) (ctx core slot addr count : Word) (s : State),
    Ends (.progLoad rq ctx core slot addr count) refuseProgLoad rq 0x40 [ctx, core, slot, addr, count] s (fun _ => True) fun b r u =>
      r = 0 ∧ u.slot core.toNat slot.toNat = { loaded := true, base := addr.toNat, count := count.toNat, ctx := hIdx ctx,
                                               tag := (b.ctx (hIdx ctx)).gen % 65536 } ∧
      (∀ k i, k < 96 → i < 8 → (k, i) ≠ (core.toNat, slot.toNat) → u.slot k i = b.slot k i) ∧ Only [.slots] b u) ∧
  (∀ (rq : Req) (core slot : Word) (s : State),
    Ends (.progUnload rq core slot) refuseProgUnload rq 0x41 [core, slot] s (fun _ => True) fun b r u =>
      r = 0 ∧ u.slot core.toNat slot.toNat = {} ∧
      (∀ k i, k < 96 → i < 8 → (k, i) ≠ (core.toNat, slot.toNat) → u.slot k i = b.slot k i) ∧
      ((b.core core.toNat).running = some slot.toNat → (u.core core.toNat).running = none ∧ (u.core core.toNat).window = []) ∧
      Only [.slots, .cores] b u)

/-- LAUNCH and LAUNCH_PUBLISH (R244, R379, R399, R402, R416, R437). An accepted LAUNCH starts every listed slot from its first
descriptor, restarts the work clock unless it is a fill launch, ends the context's quiesce point, and stands as an unpublished
launch: nothing is published. LAUNCH_PUBLISH publishes the oldest launch of the context whose slots have all ended, with the outcome
of R379. Parts of it are the model's choice: log entries 90 and 140. -/
def Obligations.Launches : Prop :=
  (∀ (rq : Req) (ctx list count : Word) (s : State),
    let m := seen launchReads rq 0x42 [ctx, list, count] s
    let p := fnPart m rq.fn.val
    let l := launchPairs m list count.toNat
    let fill := fillLaunch m (hIdx ctx) p l
    Accepted refuseLaunch rq 0x42 [ctx, list, count] s →
      ∃ u, exec (.launch rq ctx list count) s = .next u ∧
        u.host.launches = m.host.launches ++ [{
          ctx := hIdx ctx, fn := rq.fn.val, via := rq.via, taken := takenOf u rq.fn.val rq.via, slots := l,
          heldBefore := (m.part p).heldTotal, lastDone := 0, poisoned := false, stopped := false }] ∧
        (∀ e ∈ l, u.slot e.1 e.2 = { m.slot e.1 e.2 with
          launched := decide (0 < (m.slot e.1 e.2).count), next := 0, signalled := [], fillProgram := fill,
          order := (u.slot e.1 e.2).order }) ∧
        (∀ k i, k < 96 → i < 8 → (k, i) ∉ l → u.slot k i = m.slot k i) ∧
        (fill = false → u.fld fRplWorkWorkCycles p 0 = 0 ∧ (u.part p).work = 0) ∧ (u.ctx (hIdx ctx)).quiesced = false ∧
        (∀ j, j ≠ hIdx ctx → u.ctx j = m.ctx j) ∧ ((m.ctx (hIdx ctx)).log = none → SameBytes m u) ∧
        Only (readAreas ++ [.launches, .slots, .ctxs, .models]) m u) ∧
  (∀ (ctx : CtxId) (s : State) (l : Launch), s.host.launches.find? (fun x => x.ctx == ctx.val && launchDone s x) = some l →
    exec (.launchPublish ctx) s = .next (settle (publish { s with host := { s.host with launches := s.host.launches.erase l } }
      l.fn l.via l.taken 0x42 l.mute {
        rc := match (s.ctx l.ctx).cause with | some _ => 0x10 | none => if l.stopped then 0x11 else 0,
        cause := match (s.ctx l.ctx).cause with | some c => c | none => if l.stopped then 0x0C else 0,
        result := BitVec.ofNat 64 (launchResult s l), tag := (s.ctx l.ctx).gen % 65536, poisoned := l.poisoned })))

/-- TENSOR_REG, TENSOR_UNREG, TENSOR_VERSION, TENSOR_SCALE, TENSOR_UNPOISON and TENSOR_STAMP complete (R89, R92, R104, R194, R317, R411,
R500). A registered tensor holds the descriptor at its address, a stamp of 0 and, where it has COUNTERS, a fresh counter record; a
removed one breaks the defined models that list it; the others change one value. Parts of it are the model's choice: log entry 130. -/
def Obligations.TensorCommands : Prop :=
  (∀ (rq : Req) (ctx addr : Word) (s : State),
    EndsOn (.tensorReg rq ctx addr) s s refuseTensorReg regReads rq 0x48 [ctx, addr] (fun _ => True) fun b r u =>
      let p := fnPart b rq.fn.val
      let d := parseTensor (readArg b addr 0 64)
      r = BitVec.ofNat 64 d.id ∧ u.tensor p d.id = {
        present := true, desc := d, stamp := 0, ctx := hIdx ctx, home := none,
        counter := if d.counters then (recordHome b p d).map (fun n => { sec := n }) else none } ∧
      (∀ q i, q < 8 → i < 2 ^ 32 → (q, i) ≠ (p, d.id) → u.tensor q i = b.tensor q i) ∧ Only [.tensors] b u) ∧
  (∀ (rq : Req) (tensor : Word) (s : State),
    Ends (.tensorUnreg rq tensor) refuseTensorUnreg rq 0x49 [tensor] s (fun _ => True) fun b r u =>
      let p := fnPart b rq.fn.val
      r = 0 ∧ (u.tensor p tensor.toNat).present = false ∧
      (∀ k, (b.model k).present = true → (b.model k).part = p → (b.model k).mode = .defined → tensor.toNat ∈ (b.model k).tensors →
        (u.model k).mode = .broken) ∧ Only [.tensors, .models, .tokens] b u) ∧
  (∀ (rq : Req) (tensor version : Word) (s : State),
    Ends (.tensorVersion rq tensor version) refuseTensorVersion rq 0x4A [tensor, version] s (fun _ => True) fun b r u =>
      let p := fnPart b rq.fn.val
      let t := b.tensor p tensor.toNat
      r = 0 ∧ u.tensor p tensor.toNat = { t with desc := { t.desc with version := version.setWidth 32 } } ∧
      (∀ q i, q < 8 → i < 2 ^ 32 → (q, i) ≠ (p, tensor.toNat) → u.tensor q i = b.tensor q i) ∧ Only [.tensors] b u) ∧
  (∀ (rq : Req) (tensor scale : Word) (s : State),
    Ends (.tensorScale rq tensor scale) refuseTensorScale rq 0x4B [tensor, scale] s (fun _ => True) fun b r u =>
      let p := fnPart b rq.fn.val
      let t := b.tensor p tensor.toNat
      r = 0 ∧ u.tensor p tensor.toNat = { t with desc := { t.desc with scale := scale.setWidth 32 } } ∧
      (∀ q i, q < 8 → i < 2 ^ 32 → (q, i) ≠ (p, tensor.toNat) → u.tensor q i = b.tensor q i) ∧ Only [.tensors] b u) ∧
  (∀ (rq : Req) (tensor : Word) (s : State),
    Ends (.tensorUnpoison rq tensor) refuseTensorUnpoison rq 0x4C [tensor] s (fun _ => True) fun b r u =>
      let p := fnPart b rq.fn.val
      let t := b.tensor p tensor.toNat
      r = 0 ∧ u.tensor p tensor.toNat = { t with desc := { t.desc with poisoned := false } } ∧
      (∀ q i, q < 8 → i < 2 ^ 32 → (q, i) ≠ (p, tensor.toNat) → u.tensor q i = b.tensor q i) ∧ Only [.tensors] b u) ∧
  (∀ (rq : Req) (tensor stamp : Word) (s : State),
    Ends (.tensorStamp rq tensor stamp) refuseTensorStamp rq 0x4D [tensor, stamp] s (fun _ => True) fun b r u =>
      let p := fnPart b rq.fn.val
      let t := b.tensor p tensor.toNat
      r = 0 ∧ u.tensor p tensor.toNat = { t with stamp := stamp.setWidth 32 } ∧
      (∀ q i, q < 8 → i < 2 ^ 32 → (q, i) ≠ (p, tensor.toNat) → u.tensor q i = b.tensor q i) ∧ Only [.tensors] b u)

/-- MODEL_DEFINE, MODEL_LOAD, MODEL_EVICT, MODEL_DESTROY and MODEL_UNITS_FREED complete (R375, R377, R405, R406, R408, R409, R411). A
new model is defined with its list and priority; a loaded one answers the bytes of its copies, and one whose copies cannot be made
ends FAULTED without copies; an evicted one that is not in use is defined again without copies, or broken, and one in use waits for
its units. Parts of it are the model's choice: log entries 23 and 92. -/
def Obligations.ModelCommands : Prop :=
  (∀ (rq : Req) (list count priority : Word) (s : State),
    EndsOn (.modelDefine rq list count priority) s s refuseModelDefine defineReads rq 0x50 [list, count, priority] (fun _ => True)
      fun b r u =>
      ∃ m, m < 1024 ∧ (b.model m).present = false ∧ r = mkHandle 5 (fnPart b rq.fn.val) (b.model m).gen m ∧
        u.model m = { present := true, gen := (b.model m).gen, part := fnPart b rq.fn.val, tensors := listArg b list 4 count.toNat,
                      priority := priority.toNat, mode := .defined, copies := [], lastLaunch := 0 } ∧
        (∀ k, k ≠ m → u.model k = b.model k) ∧ Only [.models, .draws] b u) ∧
  (∀ (rq : Req) (model : Word) (hits : List Hit) (s : State),
    let k := hIdx model
    let s₁ := upsetWords s hits
    EndsOn (.modelLoad rq model hits) s s₁ refuseModelLoad noReads rq 0x51 [model]
      (fun b => (loadTensors (fnPart b rq.fn.val) k (b.model k).tensors b).2 = true) fun b r u =>
      u.model k = { b.model k with mode := .loaded, copies := (u.model k).copies } ∧
      r = BitVec.ofNat 64 (sumNat ((u.model k).copies.map (·.bytes))) ∧ Only (readAreas ++ [.models, .tensors]) b u) ∧
  (∀ (rq : Req) (model : Word) (hits : List Hit) (s : State),
    let k := hIdx model
    let s₁ := upsetWords s hits
    let b := before rq 0x51 [model] s₁
    Accepted refuseModelLoad rq 0x51 [model] s₁ → (loadTensors (fnPart b rq.fn.val) k (b.model k).tensors b).2 = false →
      ∃ u, exec (.modelLoad rq model hits) s = .next (answered rq 0x51 [model] b u rcFaulted 0) ∧
        u.model k = { b.model k with copies := [] }) ∧
  (∀ (rq : Req) (model : Word) (s : State),
    let k := hIdx model
    Ends (.modelEvict rq model) refuseModelEvict rq 0x52 [model] s (fun b => modelInUse b (b.model k) = false) fun b r u =>
      r = 0 ∧ u.model k = { b.model k with copies := [], mode := if modelBroken b (b.model k) then .broken else .defined } ∧
      (∀ j, j ≠ k → u.model j = b.model j) ∧ Only [.models, .tensors] b u) ∧
  (∀ (rq : Req) (model : Word) (s : State),
    let k := hIdx model
    Pends (.modelEvict rq model) refuseModelEvict rq 0x52 [model] s (fun b => modelInUse b (b.model k) = true) (.modelEvict k)
      fun b u => u.model k = { b.model k with mode := .evicting } ∧ (∀ j, j ≠ k → u.model j = b.model j) ∧
        Only [.models, .tensors] b u) ∧
  (∀ (rq : Req) (model : Word) (s : State),
    Ends (.modelDestroy rq model) refuseModelDestroy rq 0x53 [model] s (fun _ => True) fun b r u =>
      r = 0 ∧ u.model (hIdx model) = { gen := (b.model (hIdx model)).gen + 1 } ∧
      (∀ j, j ≠ hIdx model → u.model j = b.model j) ∧ Only [.models, .tokens] b u) ∧
  (∀ (model : Fin 1024) (s : State), (s.model model.val).mode = .evicting → modelInUse s (s.model model.val) = false →
    exec (.modelUnitsFreed model) s = .next (settle (s.setModel model.val { s.model model.val with
      copies := [], mode := if modelBroken s (s.model model.val) then .broken else .defined })))

/-- GROUP_BIND, EPOCH_INSTALL, COMM_CREATE and COMM_DESTROY complete (R291, R302, R323, R377, R378, R427). A context is bound to its
group; an epoch is installed with its member links, and the result is the contexts that a lost membership aborts; a collective group
record is formed from its structure at a free number, and removed. Parts of it are the model's choice: log entries 23, 64 and 65. -/
def Obligations.GroupCommands : Prop :=
  (∀ (rq : Req) (ctx group epoch : Word) (s : State),
    Ends (.groupBind rq ctx group epoch) refuseGroupBind rq 0x58 [ctx, group, epoch] s (fun _ => True) fun b r u =>
      r = 0 ∧ u.ctx (hIdx ctx) = { b.ctx (hIdx ctx) with group := some group.toNat } ∧
      (∀ j, j ≠ hIdx ctx → u.ctx j = b.ctx j) ∧
      u.group group.toNat = (if (b.group group.toNat).present then b.group group.toNat
        else { present := true, epoch := epoch.toNat }) ∧
      (∀ g, g ≠ group.toNat → u.group g = b.group g) ∧ Only [.ctxs, .groups] b u) ∧
  (∀ (rq : Req) (group epoch mask isMember : Word) (s : State),
    Ends (.epochInstall rq group epoch mask isMember) refuseEpochInstall rq 0x59 [group, epoch, mask, isMember] s (fun _ => True)
      fun b r u =>
      let g := u.group group.toNat
      (g.present, g.epoch, g.mask, g.member) = (true, epoch.toNat, mask, isMember.toNat == 1) ∧
      r = BitVec.ofNat 64 (if isMember.toNat = 0 then (groupCtxs b group.toNat).length else 0) ∧
      (isMember.toNat = 0 → ∀ k ∈ groupCtxs b group.toNat, (u.ctx k).mode ≠ .active) ∧
      Only [.module, .flash, .registers, .memory, .cache, .hostMemory, .functions, .queues, .launches, .parts, .ctxs, .tallies, .groups,
        .comms, .cores, .slots, .engines, .links, .care, .out, .tensors, .draws] b u) ∧
  (∀ (rq : Req) (ctx sec addr : Word) (s : State),
    EndsOn (.commCreate rq ctx sec addr) s s refuseCommCreate commReads rq 0x5A [ctx, sec, addr] (fun _ => True) fun b r u =>
      let h := parseGroup (readArg b addr 0 32)
      let x := formComm b (hIdx ctx) h (readArg b addr 0 (groupBytes h))
      ∃ k, k < 64 ∧ (b.comm sec.toNat k).present = false ∧ r = BitVec.ofNat 64 (x.digest.toNat * 2 ^ 32 + k) ∧
        u.comm sec.toNat k = x ∧ (∀ n j, j < 64 → (n, j) ≠ (sec.toNat, k) → u.comm n j = b.comm n j) ∧ Only [.comms, .draws] b u) ∧
  (∀ (rq : Req) (sec comm : Word) (s : State),
    Ends (.commDestroy rq sec comm) refuseCommDestroy rq 0x5B [sec, comm] s (fun _ => True) fun b r u =>
      r = 0 ∧ u.comm sec.toNat comm.toNat = {} ∧
      (∀ n j, j < 64 → (n, j) ≠ (sec.toNat, comm.toNat) → u.comm n j = b.comm n j) ∧ Only [.comms, .tokens] b u)

/-- LINK_EXPECT, LINK_RETRAIN, LINK_FENCE, LINK_UNFENCE and LINK_CFG complete (R287 to R289, R296, R298, R377). LINK_EXPECT installs the
partner and EXPECT_CHECK; a retrained link has no retired lane; a fenced one is FENCED with FENCE_CAUSE 3; an unfenced one is no
longer FENCED; LINK_CFG sets the fields of every link of its mask and of no other. Parts of it are the model's choice: log entries
55 and 66. -/
def Obligations.LinkCommands : Prop :=
  (∀ (rq : Req) (link moduleId partner check : Word) (s : State),
    Ends (.linkExpect rq link moduleId partner check) refuseLinkExpect rq 0x5C [link, moduleId, partner, check] s (fun _ => True)
      fun b r u =>
      let l := link.toNat
      r = 0 ∧ u.link l = { b.link l with expectId := moduleId, expectLink := partner.toNat } ∧
      u.fld fLnkCfgExpectCheck (l / 8) (l % 8) = check.toNat ∧ (∀ k, k ≠ l → u.link k = b.link k) ∧ Only [.links, .registers] b u) ∧
  (∀ (rq : Req) (link : Word) (s : State),
    Ends (.linkRetrain rq link) refuseLinkAction rq 0x5D [link, 1] s (fun _ => True) fun b r u =>
      let l := link.toNat
      r = 0 ∧ (u.link l).retired = 0 ∧ (linkAlive b l = true → linkTakes b l = true → linkState u l = 6) ∧
      (linkAlive b l = true → linkTakes b l = false → linkState b l ≠ 6 → linkState u l = 1) ∧
      (linkAlive b l = false → linkState u l = linkState b l) ∧ (∀ k, k ≠ l → u.link k = b.link k) ∧
      Only [.links, .registers, .functions, .care, .out] b u) ∧
  (∀ (rq : Req) (link : Word) (s : State),
    Ends (.linkFence rq link) refuseLinkAction rq 0x5D [link, 2] s (fun _ => True) fun b r u =>
      let l := link.toNat
      r = 0 ∧ linkState u l = 7 ∧ u.fld fLnkStatusFenceCause (l / 8) (l % 8) = 3 ∧ (∀ k, k ≠ l → u.link k = b.link k) ∧
      Only [.links, .registers, .functions, .out] b u) ∧
  (∀ (rq : Req) (link : Word) (s : State),
    Ends (.linkUnfence rq link) refuseLinkAction rq 0x5D [link, 3] s (fun _ => True) fun b r u =>
      let l := link.toNat
      r = 0 ∧ linkState u l = (if linkAlive b l then 1 else 0) ∧ u.fld fLnkStatusFenceCause (l / 8) (l % 8) = 0 ∧
      (∀ k, k ≠ l → u.link k = b.link k) ∧ Only [.links, .registers] b u) ∧
  (∀ (rq : Req) (mask fenceLimit grace rateCap : Word) (s : State),
    Ends (.linkCfg rq mask fenceLimit grace rateCap) refuseLinkCfg rq 0x5E [mask, fenceLimit, grace, rateCap] s (fun _ => True)
      fun b r u =>
      r = 0 ∧ (∀ l, l < 64 → bitOf mask.toNat l = true → u.fld fLnkCfgFenceLimit (l / 8) (l % 8) = fenceLimit.toNat ∧
        u.fld fLnkCfgEpochGrace (l / 8) (l % 8) = grace.toNat ∧ u.fld fLnkCfgRateCap (l / 8) (l % 8) = rateCap.toNat) ∧
      (∀ l, l < 64 → bitOf mask.toNat l = false → u.raw ⟨.lnkCfg, l / 8, l % 8⟩ = b.raw ⟨.lnkCfg, l / 8, l % 8⟩) ∧
      Only [.registers] b u)

/-- HIST_SET, GATE_CREATE, GATE_SET, GATE_DESTROY, WITNESS_CFG, DRIFT_PAIR and OUTLIER_RING complete (R196, R202, R206 to R209, R501).
The counter record's bins change alone; a gate is made with its values and no decision yet, set with its decision's fields kept, and
removed; every section of the partition takes the witness's settings; a drift pair is set anew, or removed; the ring starts empty.
Parts of it are the model's choice: log entries 23 and 93. -/
def Obligations.NumericsCommands : Prop :=
  (∀ (rq : Req) (tensor base width : Word) (s : State),
    Ends (.histSet rq tensor base width) refuseHistSet rq 0x60 [tensor, base, width] s (fun _ => True) fun b r u =>
      let p := fnPart b rq.fn.val
      let t := b.tensor p tensor.toNat
      r = 0 ∧ u.tensor p tensor.toNat = { t with counter := t.counter.map (fun x =>
        { x with histBase := base.toInt, histWidth := width.toNat }) } ∧
      (∀ q i, q < 8 → i < 2 ^ 32 → (q, i) ≠ (p, tensor.toNat) → u.tensor q i = b.tensor q i) ∧ Only [.tensors] b u) ∧
  (∀ (rq : Req) (ctx row scale down up interval nfAddr : Word) (s : State),
    Ends (.gateCreate rq ctx row scale down up interval nfAddr) refuseGateCreate rq 0x62 [ctx, row, scale, down, up, interval, nfAddr] s
      (fun _ => True) fun b r u =>
      let p := fnPart b rq.fn.val
      ∃ g, g < 64 ∧ (b.gate p g).present = false ∧ r = BitVec.ofNat 64 g ∧
        u.gate p g = { present := true, ctx := hIdx ctx, group := nfAddr.toNat != 0, down := down.toNat, up := up.toNat,
                       interval := interval.toNat, scaleLog := scale.toInt, rowId := row.toNat, nfAddr := nfAddr.toNat } ∧
        (∀ q i, i < 64 → (q, i) ≠ (p, g) → u.gate q i = b.gate q i) ∧
        StoredAt b u (b.tensor p row.toNat).desc.base (scaleRow (b.tensor p row.toNat).desc scale.toInt) ∧
        Only (readAreas ++ [.gates, .draws]) b u) ∧
  (∀ (rq : Req) (gate row scale down up interval nfAddr : Word) (s : State),
    Ends (.gateSet rq gate row scale down up interval nfAddr) refuseGateSet rq 0x63 [gate, row, scale, down, up, interval, nfAddr] s
      (fun _ => True) fun b r u =>
      let p := fnPart b rq.fn.val
      r = 0 ∧ u.gate p gate.toNat = { b.gate p gate.toNat with
        rowId := row.toNat, scaleLog := scale.toInt, down := down.toNat, up := up.toNat, interval := interval.toNat,
        nfAddr := nfAddr.toNat, group := nfAddr.toNat != 0 } ∧
      (∀ q i, i < 64 → (q, i) ≠ (p, gate.toNat) → u.gate q i = b.gate q i) ∧
      StoredAt b u (b.tensor p row.toNat).desc.base (scaleRow (b.tensor p row.toNat).desc scale.toInt) ∧
      Only (readAreas ++ [.gates]) b u) ∧
  (∀ (rq : Req) (gate : Word) (s : State),
    Ends (.gateDestroy rq gate) refuseGateDestroy rq 0x64 [gate] s (fun _ => True) fun b r u =>
      r = 0 ∧ u.gate (fnPart b rq.fn.val) gate.toNat = {} ∧
      (∀ q i, i < 64 → (q, i) ≠ (fnPart b rq.fn.val, gate.toNat) → u.gate q i = b.gate q i) ∧ Only [.gates, .tokens] b u) ∧
  (∀ (rq : Req) (enable k wseed hold : Word) (s : State),
    Ends (.witnessCfg rq enable k wseed hold) refuseWitnessCfg rq 0x65 [enable, k, wseed, hold] s (fun _ => True) fun b r u =>
      let p := fnPart b rq.fn.val
      r = 0 ∧ (∀ n ∈ maskSecs (b.part p).mask, u.fld fNumCfgWitEnable n 0 = enable.toNat ∧ u.fld fNumCfgWitK n 0 = k.toNat ∧
        u.fld fNumCfgWitHold n 0 = hold.toNat) ∧
      (∀ n, n < 8 → n ∉ maskSecs (b.part p).mask → u.raw ⟨.numCfg, n, 0⟩ = b.raw ⟨.numCfg, n, 0⟩) ∧
      u.part p = { b.part p with wseed := wseed } ∧ (∀ q, q ≠ p → u.part q = b.part q) ∧ Only [.parts, .registers] b u) ∧
  (∀ (rq : Req) (out wideA wideB band floor : Word) (s : State),
    Ends (.driftPair rq out wideA wideB band floor 0) refuseDriftPair rq 0x66 [out, wideA, wideB, band, floor, 0] s
      (fun b => (driftIndex b (fnPart b rq.fn.val) out.toNat).isSome = true ∨
        ∃ i, i < 256 ∧ ∀ e ∈ (b.part (fnPart b rq.fn.val)).drift, e.1 ≠ i) fun b r u =>
      let p := fnPart b rq.fn.val
      ∃ i, r = BitVec.ofNat 64 i ∧ (∀ j, driftIndex b p out.toNat = some j → i = j) ∧
        u.part p = { b.part p with drift := (b.part p).drift.filter (fun e => e.1 != i) ++ [(i, {
          outId := out.toNat, wideA := wideA.toNat, wideB := wideB.toNat, band := band.setWidth 32, floor := floor.setWidth 32,
          ctx := (b.tensor p out.toNat).ctx })] } ∧
        (∀ q, q ≠ p → u.part q = b.part q) ∧ Only [.parts, .draws] b u) ∧
  (∀ (rq : Req) (out wideA wideB band floor : Word) (s : State),
    Ends (.driftPair rq out wideA wideB band floor 1) refuseDriftPair rq 0x66 [out, wideA, wideB, band, floor, 1] s
      (fun _ => True) fun b r u =>
      let p := fnPart b rq.fn.val
      ∃ i, driftIndex b p out.toNat = some i ∧ r = BitVec.ofNat 64 i ∧
        u.part p = { b.part p with drift := (b.part p).drift.filter (fun e => e.1 != i) } ∧
        (∀ q, q ≠ p → u.part q = b.part q) ∧ Only [.parts] b u) ∧
  (∀ (rq : Req) (addr len : Word) (s : State),
    Ends (.outlierRing rq addr len) refuseOutlierRing rq 0x67 [addr, len] s (fun _ => True) fun b r u =>
      let p := fnPart b rq.fn.val
      r = 0 ∧ u.part p = { b.part p with outlier := some (argAddr addr, len.toNat, 0) } ∧
      (∀ q, q ≠ p → u.part q = b.part q) ∧ Only [.parts] b u)

/-- GRAVEL_CFG, AUTUMN_RUN, POWER_CAP, LIMITS and ESCALATION complete (R165, R253, R315, R432, R448, R449, R453, R461, R501), and
COMMAND_TIMEOUT publishes TIMEOUT for the unpublished command of its carrier (R372). Every section takes the Gravel period and
corners; the sections under test are marked so; a cap waits for the next control period; a zero leaves its limit as it is. Parts of
it are the model's choice: log entries 78, 103 and 106. -/
def Obligations.ModuleCommands : Prop :=
  (∀ (rq : Req) (period corners : Word) (s : State),
    Ends (.gravelCfg rq period corners) refuseGravelCfg rq 0x70 [period, corners] s (fun _ => True) fun b r u =>
      r = 0 ∧ (∀ n, n < 8 → u.fld fHltGravelCfgPeriod n 0 = period.toNat ∧ u.fld fHltGravelCfgCorners n 0 = corners.toNat) ∧
      Only [.registers] b u) ∧
  (∀ (rq : Req) (mask : Word) (s : State),
    Pends (.autumnRun rq mask) refuseAutumnRun rq 0x71 [mask] s (fun _ => True) (.autumnRun mask.toNat 0) fun b u =>
      (∀ n, n < 8 → bitOf mask.toNat n = true → (u.autumn n).isSome = true) ∧
      (∀ n, n < 8 → bitOf mask.toNat n = false → u.autumn n = b.autumn n) ∧ Only [.module, .registers, .care] b u) ∧
  (∀ (rq : Req) (watts : Word) (s : State),
    Ends (.powerCap rq watts) refusePowerCap rq 0x72 [watts] s (fun _ => True) fun b r u =>
      r = 0 ∧ u = { b with power := { b.power with pendingHostCap := some watts.toNat } }) ∧
  (∀ (rq : Req) (coreWait collWait hold : Word) (s : State),
    Ends (.limits rq coreWait collWait hold) refuseLimits rq 0x73 [coreWait, collWait, hold] s (fun _ => True) fun b r u =>
      let p := fnPart b rq.fn.val
      r = 0 ∧ (∀ n ∈ maskSecs (b.part p).mask, ∀ k, k < 12 → u.fld fCoreWdogWaitLimit n k =
        if coreWait.toNat = 0 then b.fld fCoreWdogWaitLimit n k else coreWait.toNat) ∧
      (∀ n ∈ maskSecs (b.part p).mask, u.fld fCollWaitWaitLimit n 0 =
        if collWait.toNat = 0 then b.fld fCollWaitWaitLimit n 0 else collWait.toNat) ∧
      u.part p = { b.part p with holdLimitMs := if hold.toNat = 0 then (b.part p).holdLimitMs else hold.toNat } ∧
      (∀ q, q ≠ p → u.part q = b.part q) ∧ Only [.parts, .registers] b u) ∧
  (∀ (rq : Req) (partLimit ctxLimit window : Word) (s : State),
    Ends (.escalation rq partLimit ctxLimit window) refuseEscalation rq 0x76 [partLimit, ctxLimit, window] s (fun _ => True) fun b r u =>
      r = 0 ∧ u.fld fFltEscCfgPartLimit 0 0 = partLimit.toNat ∧ u.fld fFltEscCfgCtxLimit 0 0 = ctxLimit.toNat ∧
      u.fld fFltEscCfgWindow 0 0 = window.toNat ∧ Only [.registers] b u) ∧
  (∀ (fn : Fn) (via : Via) (s : State) (p : PendCmd), s.host.commands.find? (fun x => x.fn == fn.val && x.via == via) = some p →
    exec (.commandTimeout fn via) s = .next (publish { s with host := { s.host with commands := s.host.commands.erase p } }
      p.fn p.via p.taken p.opcode p.mute { rc := 0x12, result := 0, tag := pendTag s p.kind }))

/-- PERST_N_ASSERT, PERST_N_RELEASE, HOT_RESET, RESET_KEY_WRITE, MODULE_FATAL, ICVAR_WATCHDOG, POWER_APPLIED and POWER_REMOVED (R420,
R421, R430, R431, R439, R446, R474, R488, R489, R491): who resets the module and with which cause, when it leaves reset, with its
first grant of 60 W and its firmware verified or not, and what power leaves. RESET_KEY ignores every other value. Parts of it are
the model's choice: log entries 2 and 99. -/
def Obligations.ModuleResets : Prop :=
  (∀ s : State, s.module.powered = true → s.module.perstAsserted = false → s.module.shutDownDone = false → s.module.off = false →
    ∃ t, exec .perstNAssert s = .next t ∧ WasReset s t 1 ∧ t.module.perstAsserted = true ∧ t.module.released = false ∧
      t.host.fns = []) ∧
  (∀ s : State, s.module.powered = true → s.module.perstAsserted = false → (s.module.shutDownDone = true ∨ s.module.off = true) →
    exec .perstNAssert s = .next { s with module := { s.module with perstAsserted := true } }) ∧
  (∀ s : State, s.module.powered = true → s.module.perstAsserted = true → s.module.off = false → s.module.shutDownDone = true →
    ∃ t, exec .perstNRelease s = .next t ∧ WasReset s t 1 ∧ t.module.perstAsserted = false ∧ t.module.released = true ∧
      t.module.pwrOffOk = false) ∧
  (∀ s : State, s.module.powered = true → s.module.perstAsserted = true → s.module.off = false → s.module.shutDownDone = false →
    ∃ t, exec .perstNRelease s = .next t ∧ Only [.module, .registers, .security] s t ∧ t.fld fClkStatusLocked 0 0 = 1 ∧
      t.module = { s.module with
        perstAsserted := false, released := true, grants := 1, grantedW := 60, pwrOffOk := false,
        fwVerified := match s.flash.fwActive with | some i => imageGood s.flash i | none => false }) ∧
  (∀ s : State, running s = true →
    ∃ t, exec .hotReset s = .next t ∧ WasReset s t 2 ∧ t.module.perstAsserted = false ∧ t.module.released = true ∧ t.host.fns = []) ∧
  (∀ s : State, running s = true → s.module.cfgReady = true →
    ∃ t, exec (.resetKeyWrite 0xD1CE) s = .next t ∧ WasReset s t 3 ∧ t.module.released = true ∧ t.host.fns = []) ∧
  (∀ (value : Half) (s : State), value ≠ 0xD1CE → exec (.resetKeyWrite value) s = .next s) ∧
  (∀ (cause : ModFatal) (s : State), running s = true →
    ∃ t, exec (.moduleFatal cause) s = .next t ∧ WasReset s t (match cause with | .icvarSram => 5 | .controlLogic => 6 | .pllLock => 7) ∧
      t.module.released = true ∧ t.flash.history = (if cause = .icvarSram then s.flash.history ++ [5] else s.flash.history)) ∧
  (∀ s : State, running s = true → s.module.fwVerified = true →
    ∃ t, exec .icvarWatchdog s = .next t ∧ WasReset s t 4 ∧ t.module.released = true ∧ t.flash.history = s.flash.history ++ [4] ∧
      t.flash.icvarFired = min (s.flash.icvarFired + 1) 65535) ∧
  (∀ s : State, s.module.powered = false →
    ∃ t, exec .powerApplied s = .next t ∧ WasReset s t 0 ∧ t.module = { perstAsserted := true } ∧ t.host.fns = []) ∧
  (∀ s : State, s.module.powered = true →
    ∃ t, exec .powerRemoved s = .next t ∧ t.flash = s.flash ∧ t.module.powered = false ∧ t.hostMem = s.hostMem ∧
      t.pending = s.pending ∧ t.mem = {} ∧ t.objs = {} ∧ t.host = {} ∧ t.work = {} ∧ t.links = [] ∧ t.regs = [])

/-- START_PATH_CHOICE, POWER_GRANT, CONFIG_SPACE_READY, STACK_TRAINING_DONE and MODULE_OPERATIONAL (R69, R440, R442, R443, R446, R447,
R459). The path and its reason stand in FLT_STATUS and FLT_START, with the sections tested; the staged grants rise to 25; a trained
stack shows so, with its source; the module becomes operational with a start record. Parts of it are the model's choice: log entries
100 and 101. -/
def Obligations.StartSteps : Prop :=
  (∀ (strapHigh : Bool) (s : State), starting s = true → s.module.pathChosen = false →
    ∃ t, exec (.startPathChoice strapHigh) s = .next t ∧
      t.fld fFltStartFullReason 0 0 = (if strapHigh then pathReason s false else 1) ∧
      t.fld fFltStatusLastPath 0 0 = (if strapHigh = true ∧ pathReason s false = 0 then 1 else 2) ∧
      t.flash.lastPath = (if strapHigh = true ∧ pathReason s false = 0 then 1 else 2) ∧ t.module.pathChosen = true ∧
      (∀ n, n < 8 → ((t.autumn n).isSome = true ↔
        (strapHigh = false ∨ pathReason s false ≠ 0 ∨ needsTest s n = true ∨ (s.autumn n).isSome = true))) ∧
      Only [.module, .flash, .registers, .care] s t) ∧
  (∀ (strapHigh : Bool) (s : State), (pathReason s (!strapHigh) = 0 ↔
    strapHigh = true ∧ (s.fld fFltStatusLastResetCause 0 0 ∈ [4, 5] ∨ (s.flash.recordValid = true ∧
      s.fld fFltStatusLastResetCause 0 0 ∉ [6, 7] ∧ (s.fld fFltStatusLastResetCause 0 0 = 0 → s.flash.orderly = true))))) ∧
  (∀ s : State, starting s = true → s.module.grants < 25 → (grantOf s (s.module.grants + 1)).2 = true →
    ∃ t, exec .powerGrant s = .next t ∧ t.module = { s.module with
        grants := s.module.grants + 1, grantedW := s.module.grantedW + (grantOf s (s.module.grants + 1)).1 } ∧
      (∀ l, l < 64 → ((t.link l).groupStarted = true ↔
        ((s.link l).groupStarted = true ∨ (9 ≤ s.module.grants ∧ s.module.grants ≤ 16 ∧ l % 8 + 9 = s.module.grants)))) ∧
      Only [.module, .registers, .links] s t) ∧
  (∀ s : State, running s = true → exec .configSpaceReady s = .next { s with module := { s.module with cfgReady := true } }) ∧
  (∀ (g : StackId) (identity : Word32) (temp : Byte) (readBackOk : Bool) (s : State),
    starting s = true → hbmTrained s g.val = false → 2 + g.val / 3 ≤ s.module.grants →
    ∃ t, exec (.stackTrainingDone g identity temp readBackOk) s = .next t ∧ hbmTrained t g.val = true ∧
      t.fld fHbmStatusTrainSrc (g.val / 3) (g.val % 3) = (if restores s g.val identity temp readBackOk then 1 else 2) ∧
      t.fld fHbmStatusRate (g.val / 3) (g.val % 3) = rateOf s g.val % 2 ^ (fHbmStatusRate.hi + 1 - fHbmStatusRate.lo) ∧
      t.fld fHbmStatusTemp (g.val / 3) (g.val % 3) = temp.toNat ∧ Only [.module, .registers, .care, .functions, .out] s t) ∧
  (∀ s : State, startDone s = true →
    ∃ t, exec .moduleOperational s = .next t ∧ moduleState t = 1 ∧
      t.fld fFltStartDuration 0 0 = min (s.now / 1000) (2 ^ 32 - 1) ∧ t.flash.recordValid = true ∧ t.flash.orderly = false ∧
      t.flash.sequence = s.flash.sequence + 1 ∧ t.flash.autumn = s.care.results ∧ Only [.flash, .registers, .out] s t)

/-- AUTUMN_BLOCK_DONE, SHDN_REQ and HEALTH_DECAY (R435, R442, R445, R448, R450, R451, R452, R491, R492). A block that is left and may
run (blocks 0 to 12 in the section's turn, block 13 after them on trained stacks) ends with one of two equal signatures as good; the
last one ends the section's test; a shut-down while operational goes on to the test of every section; each hour every score loses
its 243rd part. Parts of it are the model's choice: log entries 101 and 102. -/
def Obligations.TestsAndShutDown : Prop :=
  (∀ (sec : Sec) (block : Fin 16) (signature again : Word32) (temp : Byte) (s : State) (r : AutumnRun),
    s.autumn sec.val = some r → r.left.contains block.val = true → (block.val ≤ 12 → sec.val ∈ corePair s) →
    (block.val = 13 → (∀ g ∈ spanOf (3 * sec.val) 3, hbmTrained s g = true) ∧ coreDone s r = true) →
    let good := signature == Config.autumnSignature sec.val block.val || again == Config.autumnSignature sec.val block.val
    let failed := if good then r.failed else r.failed ||| 2 ^ block.val
    ∃ t, exec (.autumnBlockDone sec block signature again temp) s = .next t ∧
      (r.left.erase block.val ≠ [] → t.autumn sec.val = some { r with
        left := r.left.erase block.val, failed := failed, temp := temp.toNat,
        transient := r.transient || (signature != Config.autumnSignature sec.val block.val && good) }) ∧
      (r.left.erase block.val = [] → t.autumn sec.val = none ∧ (t.autumnResult sec.val).valid = true ∧
        (t.autumnResult sec.val).result = (if failed = 0 then 1 else 2) ∧ (t.autumnResult sec.val).failed = failed ∧
        (t.autumnResult sec.val).source = r.source)) ∧
  (∀ (pldm : Bool) (s : State), running s = true → s.module.shutting = false → moduleState s = 1 →
    ∃ t, exec (.shdnReq pldm) s = .next t ∧ t.module.shutting = true ∧ moduleState t = 3 ∧
      (∀ n, n < 8 → (t.autumn n).isSome = true) ∧ (∀ p, p < 8 → (t.part p).present = false) ∧
      (pldm = true → t.out.mgmt = .accepted)) ∧
  (∀ s : State, running s = true → s.module.shutting = false → moduleState s = 2 →
    exec (.shdnReq true) s = .next { s with out := { s.out with mgmt := .notReady } }) ∧
  (∀ s : State, running s = true → s.module.shutting = false → moduleState s = 2 →
    ∃ t, exec (.shdnReq false) s = .next t ∧ t.module.shutting = true ∧ t.module.pwrOffOk = true ∧ moduleState t = 3 ∧
      t.flash = s.flash ∧ (∀ n, n < 8 → t.autumn n = none)) ∧
  (∀ s : State, running s = true → tabWf {} s.care.health = true →
    ∃ t, exec .healthDecay s = .next t ∧ (∀ u, (t.health u).score = (s.health u).score - (s.health u).score / 243) ∧
      t.flash.health = t.care.health ∧ t.flash.hours = s.flash.hours + 1 ∧ Only [.care, .flash] s t)

/-- PCIE_CONFIG_REQUEST and PCIE_LINK_TRAINED (R328 to R330, R332, R337, R354, R358, R445). A ready function completes every
configuration request, the value read being open (log entry 9); before that it answers Retry and changes nothing else; VF Enable
makes every absent virtual function a TDI in CONFIG_UNLOCKED; the trained link shows speed, width, FLIT mode and SPEED_LOW. Parts of
it are the model's choice: log entries 12 and 72. -/
def Obligations.ConfigurationSpace : Prop :=
  (∀ (fn : Fn) (access : CfgAccess) (s : State), running s = true → s.module.cfgReady = false →
    ∃ t, exec (.pcieConfigRequest fn access) s = .next t ∧ t.out.cfg = .retry ∧ Only [.out] s t) ∧
  (∀ (fn : Fn) (off : BitVec 12) (s : State), running s = true → s.module.cfgReady = true → (s.fn fn.val).mode ≠ .absent →
    ∃ t v, exec (.pcieConfigRequest fn (.read off)) s = .next t ∧ t.out.cfg = .done v ∧ Only [.out, .draws] s t) ∧
  (∀ (fn : Fn) (off : BitVec 12) (value : Word32) (s : State),
    running s = true → s.module.cfgReady = true → (s.fn fn.val).mode ≠ .absent →
    ∃ t, exec (.pcieConfigRequest fn (.write off value)) s = .next t ∧ t.out.cfg = .done 0 ∧ Only [.out] s t) ∧
  (∀ (fn : Fn) (s : State), running s = true → s.module.cfgReady = true → (s.fn fn.val).mode ≠ .absent →
    ∃ t, exec (.pcieConfigRequest fn .setBusMaster) s = .next t ∧ t.out.cfg = .done 0 ∧
      t.fn fn.val = { s.fn fn.val with busMaster := (s.fn fn.val).mode != .resetting } ∧
      (∀ f, f ≠ fn.val → t.fn f = s.fn f) ∧ Only [.functions, .out] s t) ∧
  (∀ s : State, running s = true → s.module.cfgReady = true → (s.fn 0).mode ≠ .absent →
    ∃ t, exec (.pcieConfigRequest 0 .setVfEnable) s = .next t ∧ t.out.cfg = .done 0 ∧ t.host.vfEnable = true ∧
      (∀ f, t.fn f = if 1 ≤ f ∧ f < 64 ∧ (s.fn f).mode = .absent then { s.fn f with mode := .enabled, tdi := .unlocked } else s.fn f) ∧
      Only [.functions, .out] s t) ∧
  (∀ (fn : Fn) (n : Fin 11) (s : State),
    running s = true → s.module.cfgReady = true → (s.fn fn.val).mode ≠ .absent → tdiLocked s fn.val = false →
    ∃ t, exec (.pcieConfigRequest fn (.setBar2Size n)) s = .next t ∧ t.out.cfg = .done 0 ∧
      t.fn fn.val = { s.fn fn.val with bar2Log := n.val } ∧ (∀ f, f ≠ fn.val → t.fn f = s.fn f) ∧ Only [.functions, .out] s t) ∧
  (∀ (speed : Fin 7) (width : Fin 5) (flit : Bool) (s : State), running s = true → speed.val ≠ 0 →
    ∃ t, exec (.pcieLinkTrained speed width flit) s = .next t ∧ t.fld fHifLinkSpeed 0 0 = speed.val ∧
      t.fld fHifLinkWidth 0 0 = width.val ∧ t.fld fHifLinkFlit 0 0 = (if flit then 1 else 0) ∧
      t.fld fHifLinkSpeedLow 0 0 = (if speed.val ≤ 3 then 1 else 0) ∧ Only [.registers] s t)

/-- FUNCTION_LEVEL_RESET, PF_RESET_OR_VF_DISABLE, BUS_MASTER_DISABLE, TDISP_REQUEST and IDE_KM_REQUEST (R337, R354, R356, R478). A
function in reset has no session, masters no bus and owes no record; its contexts and queues stop; a TDI is locked, started, stopped
and sent to ERROR by its requests; a stream lost in CONFIG_LOCKED or RUN leads to ERROR. Parts of it are the model's choice: log
entries 71, 72 and 114. -/
def Obligations.FunctionResetsAndTdis : Prop :=
  (∀ (fn : Fn) (s : State), running s = true → fn.val ≠ 0 → resettable s fn.val = true →
    ∃ u, exec (.functionLevelReset fn) s = .next (pruneTokens (settle u)) ∧
      (∀ f, fnRest (u.fn f) = fnRest (if f = fn.val then { s.fn f with
        mode := .resetting, flrStart := some s.now, session := none, busMaster := false, owed := [] } else s.fn f)) ∧ (∀ k, (s.ctx k).owner = fn.val → (u.ctx k).mode ≠ .active) ∧
      (∀ q, (s.queue q).present = true → (s.queue q).fn = fn.val → (u.queue q).mode ≠ .enabled)) ∧
  (∀ (pfReset : Bool) (s : State), running s = true →
    ∃ u, exec (.pfResetOrVfDisable pfReset) s = .next (pruneTokens (settle u)) ∧ u.host.vfEnable = false ∧
      (∀ f, f < 64 → (f ≠ 0 ∨ pfReset = true) → resettable s f = true → (u.fn f).mode = .resetting ∧ (u.fn f).session = none) ∧
      (pfReset = false → fnRest (u.fn 0) = fnRest (s.fn 0))) ∧
  (∀ (fn : Fn) (s : State), running s = true → (s.fn fn.val).mode ≠ .absent →
    ∃ t, exec (.busMasterDisable fn) s = .next t ∧
      (∀ f, fnRest (t.fn f) = fnRest (if f = fn.val then { s.fn f with busMaster := false } else s.fn f)) ∧
      (∀ q, (s.queue q).present = true → (s.queue q).fn = fn.val → (t.queue q).mode ≠ .enabled) ∧
      Only (storeAreas ++ [.queues, .launches, .slots, .cores, .out]) s t) ∧
  (∀ (fn : Fn) (s : State), running s = true → s.module.cfgReady = true → 0 < fn.val →
    ((s.fn fn.val).tdi = .unlocked → ∃ t, exec (.tdispRequest fn .lock) s = .next t ∧
      t.fn fn.val = { s.fn fn.val with tdi := .locked } ∧ t.out.spdm = .tdi .locked [] ∧ Only [.functions, .out] s t) ∧
    ((s.fn fn.val).tdi = .locked → ∃ t, exec (.tdispRequest fn .start) s = .next t ∧
      t.fn fn.val = { s.fn fn.val with tdi := .run } ∧ t.out.spdm = .tdi .run [] ∧ Only [.functions, .out] s t) ∧
    ((s.fn fn.val).tdi ≠ .notTdi → ∃ t, exec (.tdispRequest fn .stop) s = .next t ∧
      t.fn fn.val = { s.fn fn.val with tdi := .unlocked } ∧ t.out.spdm = .tdi .unlocked [] ∧ Only [.functions, .out] s t) ∧
    ((s.fn fn.val).tdi = .run → ∃ t r, exec (.tdispRequest fn .report) s = .next t ∧ t.out.spdm = .tdi .run r ∧ Only [.out] s t) ∧
    ((s.fn fn.val).tdi = .locked ∨ (s.fn fn.val).tdi = .run → ∃ t, exec (.tdispRequest fn .violation) s = .next t ∧
      (∀ f, fnRest (t.fn f) = fnRest (if f = fn.val then { s.fn f with tdi := .error } else s.fn f)) ∧
      (∀ q, (s.queue q).present = true → (s.queue q).fn = fn.val → (t.queue q).mode ≠ .enabled))) ∧
  (∀ (fn : Fn) (s : State), running s = true → s.module.cfgReady = true → (s.fn fn.val).mode ≠ .absent →
    (∀ on, fn.val = 0 → ∃ t, exec (.ideKmRequest fn (.linkIde on)) s = .next t ∧
      t.fld fHifLinkLinkIde 0 0 = (if on then 1 else 0) ∧ Only [.registers] s t) ∧
    (∃ t, exec (.ideKmRequest fn .bindStream) s = .next t ∧ t.fn fn.val = { s.fn fn.val with ideStream := true } ∧
      Only [.functions] s t) ∧
    (tdiLocked s fn.val = false → ∃ t, exec (.ideKmRequest fn .unbindStream) s = .next t ∧
      t.fn fn.val = { s.fn fn.val with ideStream := false } ∧ Only [.functions] s t) ∧
    (tdiLocked s fn.val = true → (s.fn fn.val).ideStream = true → ∃ t, exec (.ideKmRequest fn .unbindStream) s = .next t ∧
      (∀ f, fnRest (t.fn f) = fnRest (if f = fn.val then { s.fn f with ideStream := false, tdi := .error } else s.fn f))))

/-- REGISTER_WRITE and RC_REGISTER_READ (R10, R12, R13, R16, R337). A write clears the W1C bits that it writes as 1, unless the hardware
sets them in the same cycle, and changes no other bit; a write to an MSI-X table that is not frozen replaces the entry's bytes; a
read hands back the register's value, or a half of it; one of 64 bits clears the RC fields, and an event that meets the read counts
afterwards; an offset with no register reads zero and takes no write; a register with a row of its own is written by that row. Parts
of it are the model's choice: log entries 73 and 126. -/
def Obligations.RegisterAccess : Prop :=
  (∀ (fn : Fn) (off width : Nat) (value hwSet : Word) (s : State) (a : RegAt),
    answers s fn.val = true → wellSized off width = true → barAt fn.val off = .reg a →
    a.reg ∉ [.mbxInWord, .mbxOutAck, .hifQslotCtl, .fltCtl, .lnkLoop, .hbmLoop] →
    ∃ t, exec (.registerWrite fn off width value hwSet) s = .next t ∧
      (∀ i, i < 64 → (t.raw a).getLsbD i = (((s.raw a).getLsbD i && !((placed value (lanesOf off width) &&& laneMask (lanesOf off width)).getLsbD i &&
        (w1cMask a.reg).getLsbD i)) || (hwSet.getLsbD i && (w1cMask a.reg).getLsbD i))) ∧
      (∀ b, regKey b ≠ regKey a → t.raw b = s.raw b) ∧ Only [.registers] s t) ∧
  (∀ (fn : Fn) (off : Nat) (value hwSet : Word) (s : State) (k : Nat),
    answers s fn.val = true → wellSized off 8 = true → barAt fn.val off = .msix k → tdiLocked s fn.val = false →
    ∃ t, exec (.registerWrite fn off 8 value hwSet) s = .next t ∧ tabGet 0 (t.fn fn.val).msixTable k = value ∧
      (∀ i, i ≠ k → tabGet 0 (t.fn fn.val).msixTable i = tabGet 0 (s.fn fn.val).msixTable i) ∧
      (∀ f, f ≠ fn.val → t.fn f = s.fn f) ∧ Only [.functions] s t) ∧
  (∀ (fn : Fn) (off width : Nat) (value hwSet : Word) (s : State), answers s fn.val = false ∨ wellSized off width = false →
    exec (.registerWrite fn off width value hwSet) s = .next s) ∧
  (∀ (fn : Fn) (off width : Nat) (l : List (Nat × Nat)) (s : State) (a : RegAt), answers s fn.val = true → wellSized off width = true →
    barAt fn.val off = .reg a →
    ∃ t, exec (.rcRegisterRead fn off width l) s = .next t ∧ t.out.bar0 = halfOf (regValue s fn.val a) (lanesOf off width) ∧
      (∀ f ∈ rcFields a.reg, getBits (t.raw a) f.1 f.2 =
        min ((if width = 8 then 0 else getBits (s.raw a) f.1 f.2) + sumNat ((l.filter (fun e => e.1 == f.2)).map (·.2)))
          (2 ^ (f.1 + 1 - f.2) - 1)) ∧
      (∀ b, regKey b ≠ regKey a → t.raw b = s.raw b) ∧ (width = 4 → l = [] → Only [.out] s t) ∧ Only [.registers, .out] s t) ∧
  (∀ (fn : Fn) (off width : Nat) (l : List (Nat × Nat)) (s : State) (k : Nat), answers s fn.val = true → wellSized off width = true →
    barAt fn.val off = .msix k → exec (.rcRegisterRead fn off width l) s =
      .next { s with out := { s.out with bar0 := halfOf (tabGet 0 (s.fn fn.val).msixTable k) (lanesOf off width) } }) ∧
  (∀ (fn : Fn) (off width : Nat) (l : List (Nat × Nat)) (s : State), answers s fn.val = true → wellSized off width = false →
    exec (.rcRegisterRead fn off width l) s = .next { s with out := { s.out with bar0 := 0 } }) ∧
  (∀ (fn : Fn) (off width : Nat) (value hwSet : Word) (l : List (Nat × Nat)) (s : State), answers s fn.val = true →
    wellSized off width = true → barAt fn.val off = .none →
    exec (.registerWrite fn off width value hwSet) s = .next s ∧
    exec (.rcRegisterRead fn off width l) s = .next { s with out := { s.out with bar0 := 0 } }) ∧
  (∀ (fn : Fn) (off width : Nat) (value hwSet : Word) (s : State), answers s fn.val = true → wellSized off width = true →
    let n := lanesOf off width
    let v := placed value n
    (∀ j : Fin 8, barAt fn.val off = .reg ⟨.mbxInWord, fn.val, j.val⟩ →
      exec (.registerWrite fn off width value hwSet) s = exec (.mbxInDeposit fn j n v) s) ∧
    (∀ j : Fin 8, barAt fn.val off = .reg ⟨.mbxOutAck, fn.val, j.val⟩ →
      exec (.registerWrite fn off width value hwSet) s = exec (.mbxOutAck fn j n v) s) ∧
    (∀ j : Fin 512, barAt fn.val off = .reg ⟨.hifQslotCtl, fn.val, j.val⟩ → n ≠ .low →
      exec (.registerWrite fn off width value hwSet) s = exec (.cqRelease fn j (BitVec.ofNat 32 (bitsOf v.toNat 63 32))) s) ∧
    (barAt fn.val off = .reg ⟨.fltCtl, 0, 0⟩ → n ≠ .high →
      exec (.registerWrite fn off width value hwSet) s = exec (.resetKeyWrite (v.setWidth 16)) s) ∧
    (∀ k : LinkId, barAt fn.val off = .reg ⟨.lnkLoop, k.val / 8, k.val % 8⟩ → n ≠ .high →
      exec (.registerWrite fn off width value hwSet) s =
        (if bitOf v.toNat 15 then exec (.lnkLoopStart k v) s else exec (.lnkLoopModeWrite k v) s)) ∧
    (∀ g : StackId, barAt fn.val off = .reg ⟨.hbmLoop, g.val / 3, g.val % 3⟩ → n ≠ .high →
      exec (.registerWrite fn off width value hwSet) s = exec (.hbmLoopStart g v) s))

/-- MAILBOX_TAKE, MBX_OUT_POST and MBX_OUT_ACK (R338, R340 to R342, R366, R367, R377, R384). A taken word clears FULL unless another one
is deposited in the same cycle, raises TAKEN, and is executed or answered as a repeat; a PING that finds room is answered with its
reply word and its acknowledgement; a posted word fills the outbound mailbox, and a write that covers bits 47:32 of its
acknowledgement empties it. Parts of it are the model's choice: log entry 74. -/
def Obligations.Mailboxes : Prop :=
  (∀ (fn : Fn) (j : Fin 8) (host : List Cell) (readError : Bool) (deposit : Option Word) (hits : List Hit) (s : State),
    icvarRuns s = true → answers s fn.val = true → s.fld fMbxInStatusFull fn.val j.val = 1 → mbxBusy s fn.val j.val = false →
    ∃ u, exec (.mailboxTake fn j host readError deposit hits) s =
        .next (acceptWord fn.val j (s.raw ⟨.mbxInWord, fn.val, j.val⟩) true readError u) ∧
      u.fld fMbxInStatusFull fn.val j.val = (if deposit.isSome then 1 else 0) ∧
      (∀ v, deposit = some v → u.raw ⟨.mbxInWord, fn.val, j.val⟩ = v) ∧
      u.fld fMbxInStatusTaken fn.val j.val = (s.fld fMbxInStatusTaken fn.val j.val + 1) % 256 ∧ u.module = { s.module with icvarTakes := true } ∧
      Only [.module, .registers, .memory, .hostMemory] s u) ∧
  (∀ (fn : Fn) (j : Fin 8) (host : List Cell) (readError : Bool) (hits : List Hit) (seq : Byte) (arg : BitVec 48) (s : State),
    let w : Word := BitVec.ofNat 64 (3 * 2 ^ 56 + seq.toNat * 2 ^ 48 + arg.toNat)
    icvarRuns s = true → answers s fn.val = true → s.fld fMbxInStatusFull fn.val j.val = 1 → mbxBusy s fn.val j.val = false →
    s.raw ⟨.mbxInWord, fn.val, j.val⟩ = w → recordingCtxs s fn.val = [] →
    (∀ l, tabGet none (s.fn fn.val).lastTaken j.val = some l → l.word ≠ w) →
    (s.fn fn.val).outbox = [] → (s.fn fn.val).owed = [] → s.fld fMbxOutStatusFull fn.val j.val = 0 → moduleState s = 1 →
    keysWhere s.objs.ctxs (fun x => x.owner == fn.val && x.replay.isSome) = [] →
    ∃ t, exec (.mailboxTake fn j host readError none hits) s = .next t ∧ t.fld fMbxInStatusFull fn.val j.val = 0 ∧
      t.fld fMbxInStatusTaken fn.val j.val = (s.fld fMbxInStatusTaken fn.val j.val + 1) % 256 ∧
      t.raw ⟨.mbxOutWord, fn.val, j.val⟩ = w ∧ t.fld fMbxOutStatusFull fn.val j.val = 1 ∧
      t.raw ⟨.mbxInAck, fn.val, j.val⟩ = BitVec.ofNat 64
        (2 ^ 63 + (s.fld fMbxInStatusTaken fn.val j.val + 1) % 256 * 2 ^ 40 + seq.toNat * 2 ^ 32)) ∧
  (∀ (fn : Fn) (j : Fin 8) (s : State) (w : Word), icvarRuns s = true → (s.fn fn.val).mode ≠ .resetting →
    s.fld fMbxOutStatusFull fn.val j.val = 0 → (s.fn fn.val).outbox.find? (fun e => e.1 == j.val) = some (j.val, w) →
    ∃ t, exec (.mbxOutPost fn j) s = .next t ∧ t.raw ⟨.mbxOutWord, fn.val, j.val⟩ = w ∧
      t.fld fMbxOutStatusFull fn.val j.val = 1 ∧ (∀ f, f ≠ fn.val → t.fn f = s.fn f) ∧
      (t.fn fn.val).outbox = (s.fn fn.val).outbox.erase (j.val, w) ∧
      (∀ o, (s.fn fn.val).owed.find? (fun o => o.mbx == j.val && o.word == w) = some o →
        t.raw ⟨.mbxInAck, fn.val, j.val⟩ =
          BitVec.ofNat 64 (2 ^ 63 + o.taken % 256 * 2 ^ 40 + o.seq % 256 * 2 ^ 32 + o.rc % 2 ^ 16)) ∧
      ((s.fn fn.val).owed.find? (fun o => o.mbx == j.val && o.word == w) = none →
        t.fn fn.val = { s.fn fn.val with outbox := (s.fn fn.val).outbox.erase (j.val, w) } ∧
        t.out.msix = s.out.msix ++ (if (s.fn fn.val).busMaster then [(fn.val, 0)] else [])) ∧ Only [.functions, .registers, .out] s t) ∧
  (∀ (fn : Fn) (j : Fin 8) (lanes : Lanes) (value : Word) (s : State), answers s fn.val = true →
    ∃ t, exec (.mbxOutAck fn j lanes value) s = .next t ∧
      t.raw ⟨.mbxOutAck, fn.val, j.val⟩ = laneMix (s.raw ⟨.mbxOutAck, fn.val, j.val⟩) value lanes ∧
      (lanes = .low → t.raw ⟨.mbxOutStatus, fn.val, j.val⟩ = s.raw ⟨.mbxOutStatus, fn.val, j.val⟩) ∧
      (lanes ≠ .low → t.fld fMbxOutStatusFull fn.val j.val = 0 ∧
        (s.fld fMbxOutStatusFull fn.val j.val = 0 → t.fld fMbxOutStatusAckStray fn.val j.val = 1)) ∧ Only [.registers] s t)

/-- DOORBELL, QUEUE_FETCH, CQ_RELEASE and QUEUE_DRAIN_END (R263, R267, R344 to R347, R352, R353, R355, R364, R377). An accepted doorbell
sets its queue's tail, one of a replaying context is dropped, and a discarded one is counted and changes nothing else; a fetch takes
the descriptor's bytes at the ring's next slot, a command's block runs at once, and a fetch that fails puts the queue into ERROR; a
release is noted after its slots took the unready pattern; a drained queue is DISABLED once its records are written. Parts of it are
the model's choice: log entries 44 and 124. -/
def Obligations.QueueWork : Prop :=
  (∀ (fn : Fn) (q : Nat) (data : List Byte) (s : State), data.length = 8 → answers s fn.val = true →
    doorbellReject s fn.val q (leNat data) true = none → (∀ k, (s.queue q).ctx = some k → isReplaying s k = false) →
    ∃ t, exec (.doorbell fn (8 * q) data) s = .next t ∧
      t.queue q = { s.queue q with tail := bitsOf (leNat data) 31 0 } ∧ (∀ k, k ≠ q → t.queue k = s.queue k) ∧
      ((∀ k, (s.queue q).ctx = some k → (s.ctx k).log = none) → Only [.queues] s t) ∧ Only (readAreas ++ [.queues, .ctxs]) s t) ∧
  (∀ (fn : Fn) (q : Nat) (data : List Byte) (s : State) (c : Nat), data.length = 8 → answers s fn.val = true →
    doorbellReject s fn.val q (leNat data) true = none → (s.queue q).ctx = some c → isReplaying s c = true →
    exec (.doorbell fn (8 * q) data) s = .next (dropLive s c)) ∧
  (∀ (fn : Fn) (off : Nat) (data : List Byte) (q v : Nat) (whole : Bool) (s : State) (c : RField), answers s fn.val = true →
    doorbellsOf off data = [(q, v, whole)] → doorbellReject s fn.val q v whole = some c →
    exec (.doorbell fn off data) s = .next (s.bump c 0 0 1)) ∧
  (∀ (fn : Fn) (off : Nat) (data : List Byte) (s : State), answers s fn.val = false ∨ data = [] →
    exec (.doorbell fn off data) s = .next s) ∧
  (∀ (q : QueueId) (host : List Cell) (hits : List Hit) (readError : Bool) (s : State),
    let m := hostStores (upsetWords s hits) host
    let x := m.queue q.val
    let w := entryAddr x x.consumed
    let n := 64 * entryStep x.kind
    fetches m q.val = true →
    ((isHostAddr w = true ∧ (m.fn x.fn).busMaster = true ∧ readError = false) ∨
      (isHostAddr w = false ∧ argOk m x.fn (argAddr w) n false = true ∧ (readMem m (argAddr w) n).2 = [])) →
    (x.kind ≠ 0 → ∃ t, exec (.queueFetch q host readError hits) s = .next t ∧
      t.queue q.val = { x with
        consumed := (x.consumed + entryStep x.kind) % 2 ^ 32, entries := x.entries ++ [⟨x.consumed, readArg m w 0 n, .waiting⟩] } ∧
      (∀ k, k ≠ q.val → t.queue k = m.queue k) ∧ Only (readAreas ++ [.queues]) m t) ∧
    (x.kind = 0 → ∃ u, exec (.queueFetch q host readError hits) s = .next (runEntry q x.consumed (readArg m w 0 n) u) ∧
      u.queue q.val = { x with
        consumed := (x.consumed + entryStep x.kind) % 2 ^ 32, entries := x.entries ++ [⟨x.consumed, readArg m w 0 n, .waiting⟩] } ∧
      (∀ k, k ≠ q.val → u.queue k = m.queue k) ∧ Only (readAreas ++ [.queues]) m u)) ∧
  (∀ (q : QueueId) (host : List Cell) (hits : List Hit) (readError : Bool) (s : State),
    let m := hostStores (upsetWords s hits) host
    let x := m.queue q.val
    let w := entryAddr x x.consumed
    let n := 64 * entryStep x.kind
    fetches m q.val = true →
    ((isHostAddr w = true ∧ ((m.fn x.fn).busMaster = false ∨ readError = true)) ∨
      (isHostAddr w = false ∧ (argOk m x.fn (argAddr w) n false = false ∨ (readMem m (argAddr w) n).2 ≠ []))) →
    ∃ t, exec (.queueFetch q host readError hits) s = .next t ∧ (t.queue q.val).mode = .error ∧
      (t.queue q.val).consumed = x.consumed ∧
      (x.ctx = none ∨ isHostAddr w = true → ∀ k, k ≠ q.val → t.queue k = m.queue k) ∧
      (∀ c, x.ctx = some c → isHostAddr w = false → (m.ctx c).mode = .active →
        Faulted t c (if argOk m x.fn (argAddr w) n false then 6 else 0x0E))) ∧
  (∀ (fn : Fn) (slot : Fin 512) (value : Word32) (s : State) (q : Nat), answers s fn.val = true → slotQueue s fn.val slot.val = some q →
    let x := s.queue q
    let n := (value.toNat + 2 ^ 32 - x.released) % 2 ^ 32
    ((x.produced + 2 ^ 32 - x.released) % 2 ^ 32 < n → exec (.cqRelease fn slot value) s = .next s) ∧
    (n ≤ (x.produced + 2 ^ 32 - x.released) % 2 ^ 32 → ∃ t, exec (.cqRelease fn slot value) s = .next t ∧
      (t.queue q).released = value.toNat ∧ (∀ k, k ≠ q → t.queue k = s.queue k) ∧
      (x.entries = [] → t.queue q = { x with released := value.toNat } ∧
        ∀ w i, x.cq = some w → i < n → i < x.m → (isHostAddr w = true → (s.fn x.fn).busMaster = true) →
          (isHostAddr w = false → ∀ k, k < x.m → argOk s x.fn (argAddr w + 32 * k) 32 true = true) →
          readArg t w (32 * ((x.released + i) % x.m)) 32 = unready) ∧ Only (storeAreas ++ [.queues, .out]) s t)) ∧
  (∀ (fn : Fn) (slot : Fin 512) (value : Word32) (s : State), answers s fn.val = false ∨ slotQueue s fn.val slot.val = none →
    exec (.cqRelease fn slot value) s = .next s) ∧
  (∀ (q : QueueId) (s : State), (s.queue q.val).mode = .draining →
    let m := flushQueue (stopJobs s (fun j => j.queue == q.val)) q.val
    let x := m.queue q.val
    (x.entries ≠ [] → exec (.queueDrainEnd q) s = .next m) ∧
    (x.entries = [] → heldBy m (fun k => k == .cmdqClose q.val) = false →
      exec (.queueDrainEnd q) s = .next (settle (m.setQueue q.val { x with mode := .disabled, draining := false }))) ∧
    (x.entries = [] → heldBy m (fun k => k == .cmdqClose q.val) = true →
      exec (.queueDrainEnd q) s = .next (settle (closeQueue (m.setQueue q.val { x with mode := .disabled, draining := false }) q.val)))) ∧
  (∀ (q : QueueId) (s : State), (s.queue q.val).mode = .draining → (s.queue q.val).entries = [] →
    (∀ e ∈ s.work.engines, ∀ j ∈ engineJobs e.2, j.queue ≠ q.val) → heldBy s (fun k => k == .cmdqClose q.val) = false →
    exec (.queueDrainEnd q) s = .next (settle (s.setQueue q.val { s.queue q.val with mode := .disabled, draining := false })))

/-- BAR2_READ and BAR2_WRITE (R45, R56, R251, R263, R267, R335, R337, R358). An allowed read hands back the bytes of its window, with EP
and all ones where a word cannot be delivered; an allowed write lands, is recorded where its context records and dropped where it
replays; in a Winter partition an access waits in the port outside its windows and outside holds; an access outside a window or its
function's regions is counted in HIF_BAR2_REFUSE, recorded in HIF_BAR2_LAST, reads all ones, and changes no memory; one to a
function that does not answer reads nothing. Parts of it are the model's choice: log entries 70 and 142. -/
def Obligations.HostWindow : Prop :=
  (∀ (fn : Fn) (off len : Nat) (hits : List Hit) (s : State) (a : Nat),
    let m := upsetWords s hits
    let bad := (readMem m a len).2
    answers m fn.val = true → bar2Addr m fn.val off len = some a → bar2Ok m fn.val a len false = true → portWaits m fn.val a = false →
    ∃ t, exec (.bar2Read fn off len hits) s = .next t ∧ t.out.bar2Unsupported = false ∧ t.out.bar2Poisoned = !bad.isEmpty ∧
      t.out.bar2.length = len ∧
      (∀ i, i < len → t.out.bar2.getD i 0 = if bad.any (fun e => e.1 == (a + i) / 16 * 16) then 0xFF else memByte m (a + i)) ∧
      (bad = [] → t.out.bar2 = readBytes m a len) ∧ SameBytes m t ∧ Only (readAreas ++ [.out]) m t) ∧
  (∀ (fn : Fn) (off : Nat) (data : List Byte) (hits : List Hit) (s : State) (a : Nat),
    let m := upsetWords s hits
    let cs := ctxsAt m fn.val a data.length
    answers m fn.val = true → bar2Addr m fn.val off data.length = some a → bar2Ok m fn.val a data.length true = true →
    (∀ c l, cs.filter (isReplaying m) = c :: l → exec (.bar2Write fn off data hits) s = .next (dropLive m c)) ∧
    (cs.filter (isReplaying m) = [] → portWaits m fn.val a = false →
      ∃ t, exec (.bar2Write fn off data hits) s = .next t ∧ readBytes t a data.length = data ∧
        ((∀ k ∈ cs, (m.ctx k).log = none) → StoredAt m t a data) ∧ Only (readAreas ++ [.ctxs]) m t) ∧
    (cs.filter (isReplaying m) = [] → portWaits m fn.val a = true →
      exec (.bar2Write fn off data hits) s = .next (portPut m ⟨fn.val, off, data.length, some data⟩))) ∧
  (∀ (fn : Fn) (off len : Nat) (hits : List Hit) (s : State) (a : Nat),
    let m := upsetWords s hits
    answers m fn.val = true → bar2Addr m fn.val off len = some a → bar2Ok m fn.val a len false = true → portWaits m fn.val a = true →
    exec (.bar2Read fn off len hits) s = .next (portPut m ⟨fn.val, off, len, none⟩)) ∧
  (∀ (fn : Fn) (off len : Nat) (hits : List Hit) (s : State),
    let m := upsetWords s hits
    answers m fn.val = true → (∀ a, bar2Addr m fn.val off len = some a → bar2Ok m fn.val a len false = false) →
    ∃ t, exec (.bar2Read fn off len hits) s = .next t ∧ t.out.bar2 = List.replicate len 0xFF ∧ t.out.bar2Poisoned = false ∧
      t.out.bar2Unsupported = false ∧ t.raw ⟨.hifBar2Last, 0, 0⟩ = BitVec.ofNat 64 (2 ^ 63 + fn.val * 2 ^ 57 + off % 2 ^ 41) ∧
      Counted m t fHifBar2RefuseRefused 0 0 1 ∧ Only [.registers, .out] m t) ∧
  (∀ (fn : Fn) (off : Nat) (data : List Byte) (hits : List Hit) (s : State),
    let m := upsetWords s hits
    answers m fn.val = true → (∀ a, bar2Addr m fn.val off data.length = some a → bar2Ok m fn.val a data.length true = false) →
    ∃ t, exec (.bar2Write fn off data hits) s = .next t ∧
      t.raw ⟨.hifBar2Last, 0, 0⟩ = BitVec.ofNat 64 (2 ^ 63 + fn.val * 2 ^ 57 + 2 ^ 56 + off % 2 ^ 41) ∧
      Counted m t fHifBar2RefuseRefused 0 0 1 ∧ Only [.registers] m t) ∧
  (∀ (fn : Fn) (off len : Nat) (data : List Byte) (hits : List Hit) (s : State), answers (upsetWords s hits) fn.val = false →
    (∃ t, exec (.bar2Read fn off len hits) s = .next t ∧ t.out.bar2Unsupported = true ∧ t.out.bar2 = [] ∧
      Only [.registers, .out] (upsetWords s hits) t) ∧
    exec (.bar2Write fn off data hits) s = .next (upsetWords s hits))

/-- TILE_FETCH, TILE_ISSUE, TILE_COMPLETE and SEQUENCER_WATCHDOG (R36, R147 to R149, R154 to R156, R160, R165, R167, R206, R245, R423).
The next descriptor of the running slot enters the window, or is dropped for its GEN_TAG, or faults its context; the oldest one that
may issue occupies its unit with what it will publish, computed from its operands; a finished tile's writes are visible and its unit
is idle, and its signals are added unless it waits for a check; a watchdog stops the tile and faults its context with cause 0x05; a
held partition stands still. Parts of it are the model's choice: log entries 10, 36, 134, 135 and 136. -/
def Obligations.CoreSequencers : Prop :=
  (∀ (core : CoreId) (hits : List Hit) (s : State) (i : Nat),
    let m := upsetWords s hits
    let x := m.slot core.val i
    let n := nextIndex x x.signalled.length x.next
    let r := (x.base + 128 * n, 128)
    let b := readBytes m r.1 r.2
    (m.core core.val).running = some i → partHeld m (m.ctx x.ctx).part = false → runnable m core.val i = true →
    (m.core core.val).window.length < 16 → n < x.count →
    (readOk m x.ctx r.1 r.2 = true → Clean m [r] → tTag b = x.tag → tileCheck m core.val x.ctx b = none →
      ∃ t, exec (.tileFetch core hits) s = .next t ∧ t.slot core.val i = { x with next := n + 1 } ∧
        t.core core.val = { m.core core.val with
          window := (m.core core.val).window ++ [⟨n, b, m.now, false, plannedLength m core.val x.ctx b⟩],
          moved := if windowWaits m core.val then (m.core core.val).moved else aCycles m } ∧
        (∀ k, k ≠ core.val → t.core k = m.core k) ∧ SameBytes m t ∧ Only (readAreas ++ [.slots, .cores]) m t) ∧
    (readOk m x.ctx r.1 r.2 = true → Clean m [r] → tTag b ≠ x.tag → ∃ t, exec (.tileFetch core hits) s = .next t ∧
      (∀ k, t.core k = m.core k) ∧ SameBytes m t ∧ Only (readAreas ++ [.slots]) m t) ∧
    ((m.ctx x.ctx).mode = .active →
      (readOk m x.ctx r.1 r.2 = false → ∃ t, exec (.tileFetch core hits) s = .next t ∧ Faulted t x.ctx 0x0E) ∧
      (readOk m x.ctx r.1 r.2 = true → ¬ Clean m [r] → ∃ t, exec (.tileFetch core hits) s = .next t ∧ Faulted t x.ctx 6) ∧
      (∀ cause, readOk m x.ctx r.1 r.2 = true → Clean m [r] → tTag b = x.tag → tileCheck m core.val x.ctx b = some cause →
        ∃ t, exec (.tileFetch core hits) s = .next t ∧ Faulted t x.ctx cause))) ∧
  (∀ (core : CoreId) (hits : List Hit) (fed : Nat) (spoilt : Bool) (wrong : List CellError) (s : State) (i p : Nat) (d : WinDesc),
    let m := upsetWords s hits
    let x := m.slot core.val i
    let c := x.ctx
    let o := tileOutput m c d.bytes wrong
    let cells := (spoilOverlap m c d.bytes (o.res.cells ++ o.extra)).2
    let rs := tileReads m c d.bytes
    (m.core core.val).running = some i → secPart m (coreSec core.val) = some p → partHeld m p = false → runnable m core.val i = true →
    entering m core.val = false →
    ((m.part p).winter = true ∨ slotBest m core.val i = false ∨ readySlots m core.val false (some i) = []) →
    (m.core core.val).window.find? (fun d => canIssue m core.val i (m.core core.val).window d && (!x.fillProgram || fillFits m core.val c d)) =
      some d →
    (rs.all (fun r => readOk m c r.1 r.2) = true → Clean m rs → spoilt = false → cellsOk m c cells = true →
      ∃ t r, exec (.tileIssue core hits fed ⟨spoilt, wrong⟩) s = .next t ∧ coreUnit t core.val (tileUnit d.bytes) = .tile r ∧
        (r.slot, r.ctx, r.tag, r.index, r.bytes, r.writes) = (i, c, x.tag, d.index, d.bytes, cells) ∧
        r.poison = tilePoison m c d.bytes o (badTerns m (readViews m c d.bytes)) ∧
        (m.fld fNumCfgWitEnable (coreSec core.val) 0 = 0 → r.sampled = false) ∧
        (t.core core.val).window = (m.core core.val).window.filter (fun e => e.index != d.index) ∧
        (∀ u, u ≠ tileUnit d.bytes → coreUnit t core.val u = coreUnit m core.val u) ∧
        (∀ k, k ≠ core.val → t.core k = m.core k) ∧ SameBytes m t ∧ Only (readAreas ++ [.cores, .witness, .draws]) m t) ∧
    ((m.ctx c).mode = .active →
      (rs.all (fun r => readOk m c r.1 r.2) = false →
        ∃ t, exec (.tileIssue core hits fed ⟨spoilt, wrong⟩) s = .next t ∧ Faulted t c 0x0E) ∧
      (rs.all (fun r => readOk m c r.1 r.2) = true → ¬ Clean m rs →
        ∃ t, exec (.tileIssue core hits fed ⟨spoilt, wrong⟩) s = .next t ∧ Faulted t c 6) ∧
      (rs.all (fun r => readOk m c r.1 r.2) = true → Clean m rs →
        (spoilt = true → ∃ t, exec (.tileIssue core hits fed ⟨spoilt, wrong⟩) s = .next t ∧ Faulted t c 4) ∧
        (spoilt = false → cellsOk m c cells = false →
          ∃ t, exec (.tileIssue core hits fed ⟨spoilt, wrong⟩) s = .next t ∧ Faulted t c 0x0E)))) ∧
  (∀ (core : CoreId) (unit : Fin 7) (s : State) (r : TileRun), coreUnit s core.val unit.val = .tile r →
    secHeld s (coreSec core.val) = false →
    (tileDead s r = true → ∃ t, exec (.tileComplete core unit) s = .next t ∧ coreUnit t core.val unit.val = .idle ∧
      (∀ k, t.tally k = s.tally k) ∧ SameBytes s t ∧ Only [.cores, .slots, .registers] s t) ∧
    (tileDead s r = false → r.sampled = false →
      (∃ t, exec (.tileComplete core unit) s = .next t ∧ coreUnit t core.val unit.val = .idle) ∧
      (SignalsTake s r.bytes → ∃ t, exec (.tileComplete core unit) s = .next t ∧ coreUnit t core.val unit.val = .idle ∧
        (∀ u, u ≠ unit.val → coreUnit t core.val u = coreUnit s core.val u) ∧ CellsWritten s t r.writes ∧ Signalled s t r.bytes ∧
        Only (readAreas ++ [.cores, .slots, .tensors, .ctxs, .launches, .tallies]) s t)) ∧
    (tileDead s r = false → r.sampled = true →
      ∃ t y, exec (.tileComplete core unit) s = .next t ∧ coreUnit t core.val unit.val = .idle ∧
        (t.core core.val).held = (s.core core.val).held ++ [(unit.val, y)] ∧ y.bytes = r.bytes ∧ y.index = r.index ∧
        CellsWritten s t r.writes ∧ (∀ k, t.tally k = s.tally k) ∧
        Only (readAreas ++ [.cores, .tensors, .ctxs, .witness]) s t)) ∧
  (∀ (core : CoreId) (unit : Fin 7) (s : State) (r : TileRun), coreUnit s core.val unit.val = .tile r →
    secHeld s (coreSec core.val) = false →
    ∃ t, exec (.sequencerWatchdog core unit) s = .next t ∧ coreUnit t core.val unit.val = .idle ∧
      ((s.ctx r.ctx).mode = .active → Faulted t r.ctx 5)) ∧
  (∀ (core : CoreId) (unit : Fin 7) (s : State), secHeld s (coreSec core.val) = true →
    exec (.tileComplete core unit) s = .next s ∧ exec (.sequencerWatchdog core unit) s = .next s)

/-- SLOT_CHANGE, BUBBLE_FILL, WAIT_LIMIT_REPORT, WAIT_TIMEOUT and TALLY_ADD (R157, R158, R165, R190, R193, R245, R261, R399, R402, R424, R430). A core
without a running slot enters the first ready latency-critical slot, else the first ready best-effort one; a slot with an unfinished tile is not
left; a ready latency-critical slot displaces a best-effort one, and a best-effort slot fills the bubble of a waiting latency-critical one, each
one SLOT choice; in Winter slots follow their launches, and a fill program has its windows; an unmet wait is reported once and counted, and
faults its context with cause 0x11 after four limits; an add reaches its tally, is dropped for a tag in teardown, and faults the tally's context
with cause 0x03 where it would overflow. -/
def Obligations.SlotsAndWaits : Prop :=
  (∀ (core : CoreId) (s : State), secHeld s (coreSec core.val) = true →
    exec (.slotChange core) s = .next s ∧ exec (.bubbleFill core) s = .next s) ∧
  (∀ (core : CoreId) (s : State), secHeld s (coreSec core.val) = false → winterCore s core.val = false →
    let ready := readySlots s core.val false (s.core core.val).running
    let best := readySlots s core.val true (s.core core.val).running
    let first := firstLaunched s core.val (if ready.isEmpty then best else ready)
    ((s.core core.val).running = none →
      (∀ j, first = some j → ∃ t, exec (.slotChange core) s = .next t ∧ Changed s t core.val (some j) ∧ Only [.cores] s t) ∧
      (first = none → exec (.slotChange core) s = .next s)) ∧
    (∀ i, (s.core core.val).running = some i → slotRuns s core.val i ≠ [] → exec (.slotChange core) s = .next s) ∧
    (∀ i, (s.core core.val).running = some i → slotRuns s core.val i = [] → runnable s core.val i = false →
      (∀ j, first = some j → ∃ t, exec (.slotChange core) s = .next t ∧ Changed s t core.val (some j) ∧ Only [.cores, .slots] s t) ∧
      (first = none → ∃ t, exec (.slotChange core) s = .next t ∧ (t.core core.val).running = none ∧ (t.core core.val).window = [] ∧
        (∀ k, k ≠ core.val → t.core k = s.core k) ∧ Only [.cores] s t)) ∧
    (∀ i, (s.core core.val).running = some i → slotRuns s core.val i = [] → runnable s core.val i = true →
      (∀ j, (slotBest s core.val i = true ∨ bubble s core.val i = true) → firstLaunched s core.val ready = some j →
        ∃ t, exec (.slotChange core) s = .next t ∧ Changed s t core.val (some j) ∧ ChoseSlot s t core.val) ∧
      (∀ j, slotBest s core.val i = true → firstLaunched s core.val ready = none → (s.core core.val).entered + 262144 ≤ aCycles s →
        best ≠ [] → nextBest s core.val i = some j →
        ∃ t, exec (.slotChange core) s = .next t ∧ Changed s t core.val (some j) ∧ ChoseSlot s t core.val) ∧
      (slotBest s core.val i = false → bubble s core.val i = false → exec (.slotChange core) s = .next s) ∧
      (∀ j, (secPart s (coreSec core.val)).isSome = true → slotBest s core.val i = false → bubble s core.val i = true → ready = [] →
        firstLaunched s core.val best = some j →
        ∃ t, exec (.bubbleFill core) s = .next t ∧ Changed s t core.val (some j) ∧ ChoseSlot s t core.val) ∧
      (slotBest s core.val i = true ∨ bubble s core.val i = false ∨ ready ≠ [] → exec (.bubbleFill core) s = .next s))) ∧
  (∀ (core : CoreId) (s : State), secHeld s (coreSec core.val) = false → winterCore s core.val = true →
    let next := firstLaunched s core.val (winterSlots s core.val false)
    (∀ j, (s.core core.val).running = none → next = some j →
      ∃ t, exec (.slotChange core) s = .next t ∧ Changed s t core.val (some j) ∧ Only [.cores] s t) ∧
    (∀ i j, (s.core core.val).running = some i → slotRuns s core.val i = [] → next = some j →
      (runnable s core.val i = false ∨ ((s.slot core.val i).fillProgram = true ∧ fillLeft s core.val = 0)) →
      ∃ t, exec (.slotChange core) s = .next t ∧ Changed s t core.val (some j) ∧ Only [.cores, .slots] s t) ∧
    (∀ i, (s.core core.val).running = some i → slotRuns s core.val i ≠ [] → exec (.slotChange core) s = .next s) ∧
    (∀ j, firstLaunched s core.val (winterSlots s core.val true) = some j → 1300 ≤ fillLeft s core.val →
      (∀ i, (s.core core.val).running = some i → slotRuns s core.val i = [] ∧ (s.slot core.val i).fillProgram = false) →
      ∃ t, exec (.bubbleFill core) s = .next t ∧ Changed s t core.val (some j) ∧ Only [.cores, .slots] s t) ∧
    (fillLeft s core.val < 1300 → exec (.bubbleFill core) s = .next s)) ∧
  (∀ (core : CoreId) (index : Nat) (s : State) (i : Nat) (d : WinDesc), (s.core core.val).running = some i →
    (s.core core.val).window.find? (fun d => d.index == index) = some d →
    (d.reported = false → waitsMet s d.bytes = false → ∃ t, exec (.waitLimitReport core index) s = .next t ∧
      (t.core core.val).window = (s.core core.val).window.map (fun e => if e.index = index then { e with reported := true } else e) ∧
      Counted s t fCoreWdogWaitsReported (core.val / 12) (core.val % 12) 1 ∧
      (∀ k, k ≠ core.val → t.core k = s.core k) ∧ Only [.cores, .registers, .functions] s t) ∧
    (d.reported = true ∨ waitsMet s d.bytes = true → exec (.waitLimitReport core index) s = .next s) ∧
    (waitsMet s d.bytes = false → (s.ctx (s.slot core.val i).ctx).mode = .active →
      ∃ t, exec (.waitTimeout (.tile core index)) s = .next t ∧ Faulted t (s.slot core.val i).ctx 0x11)) ∧
  (∀ (tally : TallyId) (amount tag : Half) (s : State),
    let x := s.tally tally.val
    (tagDropped s x.part tag.toNat = true → exec (.tallyAdd tally amount tag) s = .next (s.bump fFltDropsATally 0 0 1)) ∧
    (tagDropped s x.part tag.toNat = false →
      (x.present = false → exec (.tallyAdd tally amount tag) s = .next s) ∧
      (x.present = true → x.abandoned = true → exec (.tallyAdd tally amount tag) s = .next (s.bump fFltDropsBAbandonAdds 0 0 1)) ∧
      (x.present = true → x.abandoned = false → 0xFFFFFFFF < x.count + amount.toNat → (s.ctx x.ctx).mode = .active →
        ∃ t, exec (.tallyAdd tally amount tag) s = .next t ∧ Faulted t x.ctx 3 ∧ (t.tally tally.val).count = x.count) ∧
      (x.present = true → x.abandoned = false → x.count + amount.toNat ≤ 0xFFFFFFFF →
        ∃ t, exec (.tallyAdd tally amount tag) s = .next t ∧ (t.tally tally.val).count = x.count + amount.toNat ∧
          (∀ k, k ≠ tally.val → (t.tally k).count = (s.tally k).count) ∧
          ((s.ctx x.ctx).marks.all (fun y => y.tally != tally.val) = true →
            t.tally tally.val = { x with count := x.count + amount.toNat } ∧ (∀ k, k ≠ tally.val → t.tally k = s.tally k) ∧
            (∀ p, partRest (t.part p) = partRest (s.part p)) ∧ Only [.tallies, .parts] s t))))

/-- WITNESS_CHECK_DONE (R203 to R207, R419, R423). Agreement frees the witness and counts the sample, and lets the sampled tile go,
which waits for it; a mismatch on which the witness agrees with itself faults the context with cause 0x0D; a disagreement of the
witness with itself takes it offline in its section. Parts of it are the model's choice: log entries 10 and 37. -/
def Obligations.WitnessChecks : Prop :=
  (∀ (sec : Sec) (first second : List CellError) (cond : Cond) (s : State), s.witness sec.val = none →
    exec (.witnessCheckDone sec ⟨first, second⟩ cond) s = .next s) ∧
  (∀ (sec : Sec) (first second : List CellError) (cond : Cond) (s : State) (x : Sample), s.witness sec.val = some x →
    let w := witnessAccs x first
    (∃ t, exec (.witnessCheckDone sec ⟨first, second⟩ cond) s = .next t ∧ t.witness sec.val = none ∧
      (∀ k, k ≠ sec.val → t.witness k = s.witness k)) ∧
    (accDiffs x x.accs w = [] → (s.part (s.ctx x.ctx).part).drift.find? (fun e => e.2.outId == tOut x.bytes) = none →
      (heldTile s x = none → runningTile s x = none →
        ∃ t, exec (.witnessCheckDone sec ⟨first, second⟩ cond) s = .next t ∧ t.witness sec.val = none ∧
          Counted s t fNumWitStatSampled sec.val 0 1 ∧ Only [.witness, .registers, .parts] s t) ∧
      (∀ r, heldTile s x = none → runningTile s x = some r →
        ∃ t, exec (.witnessCheckDone sec ⟨first, second⟩ cond) s = .next t ∧ t.witness sec.val = none ∧
          Counted s t fNumWitStatSampled sec.val 0 1 ∧ coreUnit t x.core x.array = .tile { r with sampled := false } ∧
          Only [.witness, .registers, .parts, .cores] s t) ∧
      (∀ r, heldTile s x = some r → tileDead s r = false → SignalsTake s r.bytes →
        ∃ t, exec (.witnessCheckDone sec ⟨first, second⟩ cond) s = .next t ∧ t.witness sec.val = none ∧ heldTile t x = none ∧
          Signalled s t r.bytes)) ∧
    (accDiffs x x.accs w ≠ [] → accDiffs x w (witnessAccs x second) = [] → x.tag = ctxTag s x.ctx → (s.ctx x.ctx).mode = .active →
      ∃ t, exec (.witnessCheckDone sec ⟨first, second⟩ cond) s = .next t ∧ t.witness sec.val = none ∧ Faulted t x.ctx 0x0D) ∧
    (accDiffs x x.accs w ≠ [] → accDiffs x w (witnessAccs x second) ≠ [] → heldTile s x = none →
      ∃ t, exec (.witnessCheckDone sec ⟨first, second⟩ cond) s = .next t ∧ t.witness sec.val = none ∧
        t.fld fNumCfgWitOffline sec.val 0 = 1))

/-- MOVER_TRANSFER, CRC_SECOND_READ, MOVER_COMPLETE and MOVER_WATCHDOG (R56, R62, R63, R65, R66, R89, R245, R380, R430). A mover takes
its queues' next descriptor and moves its bytes, or zeros, reading whole blocks against their checksums and storing the checksums of
those it writes; a mismatch is read once more; the end adds the signals; a bad word, a refused access, a broken descriptor and the
watchdog fault the context with causes 0x06, 0x0E, 0x01 and 0x10, a second mismatch with cause 0x07; a held mover stands still.
Parts of it are the model's choice: log entries 42, 122 and 127. -/
def Obligations.Movers : Prop :=
  (∀ (m : MoverId) (hits : List Hit) (pathError : Bool) (s : State) (q c : Nat) (e : Entry),
    let u := upsetWords s hits
    let i := Instr.moverTransfer m hits pathError
    let b := e.bytes
    let x := u.tensor (u.ctx c).part (mvTensor b)
    let j : Job := { jobFrom u q c e with version := x.desc.version }
    let ok := (mvOp b = 3 ∨ readOk u c (mvSrc b) (mvLen b) = true) ∧ writeOk u c (mvDst b) (mvLen b) = true
    Takes u 1 m.val q c e →
    (mvBad u m.val j = true → EndsFault i s 1 m.val c 1) ∧
    (mvBad u m.val j = false → ¬ ok → EndsFault i s 1 m.val c 0x0E) ∧
    (mvBad u m.val j = false → ok → ¬ Clean u (mvReads u j) → EndsFault i s 1 m.val c 6) ∧
    (mvBad u m.val j = false → ok → Clean u (mvReads u j) →
      (∀ k, mvOp b = 1 → mvMismatch u j 0 pathError = some k →
        ∃ t, exec i s = .next t ∧ jobOf t 1 m.val = some { j with phase := .reread k } ∧ SameBytes u t ∧
          (∀ k, k ≠ q → t.queue k = u.queue k) ∧ Only (readAreas ++ [.queues, .engines]) u t) ∧
      ((mvOp b = 1 ∧ mvMismatch u j 0 pathError = none) ∨ (mvOp b ≠ 1 ∧ mvBlocks u j = []) →
        ∃ t, exec i s = .next t ∧ jobOf t 1 m.val = some { j with phase := .dataDone } ∧ StoredAt u t (mvDst b) (mvData u b) ∧
          (∀ k, k ≠ q → t.queue k = u.queue k) ∧ Only (readAreas ++ [.queues, .engines]) u t) ∧
      (mvOp b ≠ 1 → (∀ k ∈ mvBlocks u j, x.homeDesc.crcAddr + 4 * k.1 + 4 ≤ mvDst b ∨ mvDst b + mvLen b ≤ x.homeDesc.crcAddr + 4 * k.1) →
        ∃ t, exec i s = .next t ∧ jobOf t 1 m.val = some { j with phase := .dataDone } ∧
          readBytes t (mvDst b) (mvLen b) = mvData u b ∧
          (∀ k ∈ mvBlocks u j, storedCrc t x.homeDesc k.1 = blockCrc x.desc.id k.1 x.desc.version (blockData t k.2)) ∧
          Only (readAreas ++ [.queues, .engines]) u t))) ∧
  (∀ (m : MoverId) (pathError : Bool) (s : State) (j : Job) (k : Nat) (x : Nat × Nat × Nat), jobOf s 1 m.val = some j → j.phase = .reread k →
    (mvBlocks s j)[k]? = some x →
    let i := Instr.crcSecondRead (.mover m) pathError
    let good := !pathError && blockGood s (s.tensor (s.ctx j.ctx).part (mvTensor j.bytes)) j.version x.1 x.2.1 x.2.2
    (good = false → EndsFault i s 1 m.val j.ctx 7) ∧
    (good = true → jobStopped s j = true → ∃ t, exec i s = .next t ∧ jobOf t 1 m.val = none ∧ (∀ k, t.tally k = s.tally k)) ∧
    (good = true → jobStopped s j = false → mvOp j.bytes = 1 →
      (mvMismatch s j (k + 1) false = none → ∃ t, exec i s = .next t ∧ jobOf t 1 m.val = some { j with phase := .dataDone } ∧
        StoredAt s t (mvDst j.bytes) (mvData s j.bytes)) ∧
      (∀ n, mvMismatch s j (k + 1) false = some n →
        ∃ t, exec i s = .next t ∧ jobOf t 1 m.val = some { j with phase := .reread n } ∧ SameBytes s t))) ∧
  (∀ (m : MoverId) (s : State) (j : Job), jobOf s 1 m.val = some j → unitHeld s 1 m.val = false →
    (j.phase = .dataDone → EndsSignalled (.moverComplete m) s 1 m.val j []) ∧
    (∀ w x, j.phase = .dataDone → SignalsTake s j.bytes → (s.queue j.queue).entries = [x] → x.pos = j.pos → x.phase = .running →
      (s.queue j.queue).recordsAllowed = true → (s.queue j.queue).cq = some w → cqRoom (s.queue j.queue) = true →
      (isHostAddr w = true → (s.fn (s.queue j.queue).fn).busMaster = true) →
      (isHostAddr w = false → argOk s (s.queue j.queue).fn (argAddr w + 32 * ((s.queue j.queue).produced % (s.queue j.queue).m)) 32 true =
        true) →
      ∃ t, exec (.moverComplete m) s = .next t ∧
        readArg t w (32 * ((s.queue j.queue).produced % (s.queue j.queue).m)) 32 =
          recordBytes j.queue (engineRecord (toBit j.poison * 2 + toBit j.isPartial * 4) 0 0 (ctxTag s j.ctx) j.pos) s.now ∧
        t.queue j.queue = { s.queue j.queue with entries := [], produced := ((s.queue j.queue).produced + 1) % 2 ^ 32 }) ∧
    EndsFault (.moverWatchdog m) s 1 m.val j.ctx 0x10) ∧
  (∀ (m : MoverId) (s : State), jobOf s 1 m.val = none ∨ unitHeld s 1 m.val = true →
    exec (.moverComplete m) s = .next s ∧ exec (.moverWatchdog m) s = .next s)

/-- ROUTE_DESCRIPTOR, ROUTE_COMPLETE and ROUTE_WATCHDOG (R222 to R238, R241, R245). The route engine takes its queues' next descriptor
and writes what its operation gives of its operands as they stand, with the status record, and is free for the next while the
descriptor waits to signal; an invalid descriptor, a bad word, an index out of range that is not skipped, a refused write and the
watchdog fault the context; the end adds the signals in order; a held engine ends nothing. Parts of it are the model's choice: log
entries 45, 143 and 146. -/
def Obligations.RouteEngine : Prop :=
  (∀ (sec : Sec) (hits : List Hit) (s : State), jobOf s 2 sec.val = none →
    ∃ t, exec (.routeDescriptor sec hits) s = .next t ∧ jobOf t 2 sec.val = none) ∧
  (∀ (sec : Sec) (hits : List Hit) (s : State) (q c : Nat) (e : Entry),
    let u := upsetWords s hits
    let i := Instr.routeDescriptor sec hits
    let j := jobFrom u q c e
    let b := e.bytes
    let o := routeRun u c b
    let src := (u.tensor (u.ctx c).part (rSrc b)).desc
    let out := (u.tensor (u.ctx c).part (rOut b)).desc
    let reads := (routeReads out b o).flatMap (fun r => wordReads r.2)
    let cells := o.cells ++ (if rStatus b = 0 then [] else cellsAt (rStatus b)
      (leBytes 4 (o.consumed.getD 0) ++ leBytes 4 (o.written.getD 0) ++ leBytes 4 o.dropped ++ leBytes 4 o.skipped))
    let stated := (∀ x ∈ o.cells, ∀ r ∈ rInputs u src out b ++ o.open_, x.1 < r.1 ∨ r.1 + r.2 ≤ x.1) ∧
      (rStatus b = 0 ∨ ∃ n k, o.consumed = some n ∧ o.written = some k)
    Takes u 2 sec.val q c e →
    (routeBad u sec.val j = true → EndsFault i s 2 sec.val c 1) ∧
    (routeBad u sec.val j = false →
      (¬ Clean u reads → EndsFault i s 2 sec.val c 6) ∧
      (∀ cause pos, Clean u reads → o.fault = some (cause, pos) → EndsFault i s 2 sec.val c cause) ∧
      (Clean u reads → o.fault = none → stated → cellsOk u c cells = false → EndsFault i s 2 sec.val c 0x0E) ∧
      (Clean u reads → o.fault = none → stated → cellsOk u c cells = true →
        ∃ t, exec i s = .next t ∧ CellsWritten u t cells ∧
          (t.engine (engineKey 2 sec.val)).ending = (u.engine (engineKey 2 sec.val)).ending ++ [{ j with
            phase := .dataDone, poison := !(routePoison u j o).isEmpty, poisonIds := routePoison u j o,
            deltas := [(rOut b, o.conv.delta)], nf := o.conv.nf + o.bad }] ∧
          (∀ k, k ≠ q → t.queue k = u.queue k) ∧ Only (readAreas ++ [.queues, .engines, .draws]) u t))) ∧
  (∀ (sec : Sec) (s : State) (j : Job) (rest : List Job), (s.engine (engineKey 2 sec.val)).ending = j :: rest →
    unitHeld s 2 sec.val = false →
    (∃ t, exec (.routeComplete sec) s = .next t ∧ (t.engine (engineKey 2 sec.val)).ending = rest) ∧
    (SignalsTake s j.bytes → ∃ t, exec (.routeComplete sec) s = .next t ∧ (t.engine (engineKey 2 sec.val)).ending = rest ∧
      Signalled s t j.bytes ∧ Counted s t fCoreRouteDescCompleted sec.val 0 1 ∧
      (∀ id ∈ j.poisonIds, (s.tensor (s.ctx j.ctx).part id).present = true → (t.tensor (s.ctx j.ctx).part id).desc.poisoned = true) ∧
      (t.ctx j.ctx).nf = min ((s.ctx j.ctx).nf + j.nf) (2 ^ 32 - 1) ∧ (∀ k, k ≠ j.ctx → t.ctx k = s.ctx k) ∧
      Only (storeAreas ++ [.engines, .queues, .out, .tallies, .ctxs, .tensors]) s t) ∧
    (∃ t, exec (.routeWatchdog sec) s = .next t ∧ (t.engine (engineKey 2 sec.val)).ending = rest ∧
      ((s.ctx j.ctx).mode = .active → Faulted t j.ctx 9))) ∧
  (∀ (sec : Sec) (s : State), (s.engine (engineKey 2 sec.val)).ending = [] ∨ unitHeld s 2 sec.val = true →
    exec (.routeComplete sec) s = .next s ∧ exec (.routeWatchdog sec) s = .next s)

/-- OPTIMIZER_UPDATE, OPTIMIZER_COMPLETE and OPTIMIZER_WATCHDOG (R102, R211, R216 to R219, R245, R317, R430). The optimizer engine takes
a gated descriptor and waits for its decision, takes an ungated one and writes the updated elements, updates none where the gate
said to skip, and adds the signals and sets the stamps at the end; an invalid descriptor, a bad word, a refused access and the
watchdog fault the context; a held engine stands still. Parts of it are the model's choice: log entries 47, 49 and 144. -/
def Obligations.OptimizerEngine : Prop :=
  (∀ (sec : Sec) (hits : List Hit) (s : State) (q c : Nat) (e : Entry),
    let u := upsetWords s hits
    let i := Instr.optimizerUpdate sec hits
    let j := jobFrom u q c e
    let b := e.bytes
    Takes u 4 sec.val q c e →
    (optBad u j = true → EndsFault i s 4 sec.val c 1) ∧
    (optBad u j = false → oGated b = true → ∃ t, exec i s = .next t ∧
      jobOf t 4 sec.val = some { j with phase := .waitGate } ∧ (∀ k, k ≠ q → t.queue k = u.queue k) ∧
      Only [.registers, .queues, .engines] u t) ∧
    (optBad u j = false → oGated b = false → oSnap b = false → unitHeld u 4 sec.val = false →
      (oClip b = true → readOk u c (oAux b) 4 = false → EndsFault i s 4 sec.val c 0x0E) ∧
      ((oClip b = true → readOk u c (oAux b) 4 = true) →
        (¬ Clean u (optRanges u j) → EndsFault i s 4 sec.val c 6) ∧
        (Clean u (optRanges u j) →
          let clip := if oClip b then some (val32 (BitVec.ofNat 32 (leNat (readBytes u (oAux b) 4)))) else none
          let seed := if (u.tensor (u.ctx c).part (oWork b)).desc.grad && oWork b != 0 then Config.freeWord u.freeCtr else 0
          let r := optOutputs u j (.fin false 1) clip seed
          let cells := r.1.flatMap (fun x => x.2.cells)
          (cellsOk u c cells = false → EndsFault i s 4 sec.val c 0x0E) ∧
          (cellsOk u c cells = true →
            ∃ t, exec i s = .next t ∧ CellsWritten u t cells ∧
              jobOf t 4 sec.val = some { j with
                phase := .dataDone, isPartial := r.2 != 0, poison := !(optPoison u j r.1).isEmpty, poisonIds := optPoison u j r.1,
                deltas := r.1.map (fun x => (x.1, x.2.delta)), nf := sumNat (r.1.map (fun x => x.2.nf)) } ∧
              (∀ k, k ≠ q → t.queue k = u.queue k) ∧ Only (readAreas ++ [.queues, .engines, .draws]) u t))))) ∧
  (∀ (sec : Sec) (hits : List Hit) (s : State) (j : Job), jobOf s 4 sec.val = some j → oSnap j.bytes = false → j.phase = .running →
    oGated j.bytes = true → unitHeld s 4 sec.val = false →
    let u := upsetWords s hits
    (2 ≤ j.decision → ∃ t, exec (.optimizerUpdate sec hits) s = .next t ∧ jobOf t 4 sec.val = some { j with phase := .dataDone } ∧
      Counted u t fNumOptStatSkippedDesc sec.val 0 1 ∧ Only [.engines, .registers] u t) ∧
    (j.decision < 2 → oClip j.bytes = false → Clean u (optRanges u j) →
      let r := optOutputs u j (.fin false (pow2 (-j.unscale))) none
        (if (u.tensor (u.ctx j.ctx).part (oWork j.bytes)).desc.grad && oWork j.bytes != 0 then Config.freeWord u.freeCtr else 0)
      let cells := r.1.flatMap (fun x => x.2.cells)
      cellsOk u j.ctx cells = true →
      ∃ t, exec (.optimizerUpdate sec hits) s = .next t ∧ CellsWritten u t cells ∧
        (t.engine (engineKey 4 sec.val)).job.map (·.phase) = some .dataDone ∧ t.queue = u.queue ∧
        Only (readAreas ++ [.engines, .draws, .gates]) u t)) ∧
  (∀ (sec : Sec) (s : State) (j : Job), jobOf s 4 sec.val = some j → unitHeld s 4 sec.val = false →
    (j.phase = .dataDone → EndsSignalled (.optimizerComplete sec) s 4 sec.val j [.ctxs, .tensors] ∧
      (SignalsTake s j.bytes → ∃ t, exec (.optimizerComplete sec) s = .next t ∧
        (t.ctx j.ctx).nf = min ((s.ctx j.ctx).nf + j.nf) (2 ^ 32 - 1) ∧ (∀ k, k ≠ j.ctx → t.ctx k = s.ctx k) ∧
        (oGated j.bytes = false → (s.tensor (s.ctx j.ctx).part (oMaster j.bytes)).present = true →
          (t.tensor (s.ctx j.ctx).part (oMaster j.bytes)).stamp = BitVec.ofNat 32 (oStep j.bytes)) ∧
        (∀ id ∈ j.poisonIds, (s.tensor (s.ctx j.ctx).part id).present = true →
          (t.tensor (s.ctx j.ctx).part id).desc.poisoned = true))) ∧
    (j.phase ≠ .waitGate → EndsFault (.optimizerWatchdog sec) s 4 sec.val j.ctx 0x10)) ∧
  (∀ (sec : Sec) (s : State), jobOf s 4 sec.val = none ∨ unitHeld s 4 sec.val = true →
    exec (.optimizerComplete sec) s = .next s ∧ exec (.optimizerWatchdog sec) s = .next s)

/-- GATE_DECISION and GATE_SNAPSHOT (R200, R209 to R213, R245, R317). A decision of a gate that no rank group shares takes its context's
count and clears it: a non-finite value skips the step and lowers the loss scale, a pending version skips it, else the step is taken
and the scale raised at the interval's end; the gate's scale row holds the new scale and the stamps of the step's tensors are set; a
step already decided obeys the same decision; a step below the last faults with cause 0x01; a snapshot writes the count and the flag
where AUX_ADDR points and clears the count. Parts of it are the model's choice: log entry 49. -/
def Obligations.Gates : Prop :=
  (∀ (sec : Sec) (s : State) (j : Job), jobOf s 4 sec.val = some j → j.phase = .waitGate → unitHeld s 4 sec.val = false →
    let p := (s.ctx j.ctx).part
    let g := s.gate p (oGate j.bytes)
    let nf := (s.ctx j.ctx).nf
    let row := s.tensor p g.rowId
    (g.group = false → (g.lastDecision = 0 ∨ g.lastStep < oStep j.bytes) →
      ∃ t, exec (.gateDecision sec) s = .next t ∧ (t.ctx j.ctx).nf = 0 ∧
        (t.gate p (oGate j.bytes)).lastStep = oStep j.bytes ∧ (t.gate p (oGate j.bytes)).lastNf = nf ∧
        (t.gate p (oGate j.bytes)).versionPending = false ∧ (t.gate p (oGate j.bytes)).priorScaleLog = g.scaleLog ∧
        jobOf t 4 sec.val = some { j with
          phase := .running, decision := (t.gate p (oGate j.bytes)).lastDecision, unscale := g.scaleLog } ∧
        (nf ≠ 0 → (t.gate p (oGate j.bytes)).lastDecision = 2 ∧ (t.gate p (oGate j.bytes)).clean = 0 ∧
          (t.gate p (oGate j.bytes)).scaleLog = max (g.scaleLog - g.down) (-16)) ∧
        (nf = 0 → g.versionPending = true → (t.gate p (oGate j.bytes)).lastDecision = 3 ∧
          (t.gate p (oGate j.bytes)).scaleLog = g.scaleLog ∧ (t.gate p (oGate j.bytes)).clean = g.clean) ∧
        (nf = 0 → g.versionPending = false → (t.gate p (oGate j.bytes)).lastDecision = 1 ∧
          (t.gate p (oGate j.bytes)).scaleLog =
            if g.interval ≠ 0 ∧ min (g.clean + 1) (2 ^ 32 - 1) = g.interval then min (g.scaleLog + g.up) 32 else g.scaleLog) ∧
        (row.present = true → StoredAt s t row.desc.base
          (scaleRow row.desc (t.gate p (oGate j.bytes)).scaleLog)) ∧
        ((s.tensor p (oMaster j.bytes)).present = true → (t.tensor p (oMaster j.bytes)).stamp = BitVec.ofNat 32 (oStep j.bytes)) ∧
        (∀ x y, x * 64 + y ≠ p * 64 + oGate j.bytes → t.gate x y = s.gate x y) ∧
        Only (readAreas ++ [.gates, .ctxs, .tensors, .engines]) s t) ∧
    (g.lastDecision ≠ 0 → oStep j.bytes = g.lastStep → ∃ t, exec (.gateDecision sec) s = .next t ∧
      jobOf t 4 sec.val = some { j with phase := .running, decision := g.lastDecision, unscale := g.priorScaleLog } ∧
      Only [.tensors, .engines] s t) ∧
    (g.lastDecision ≠ 0 → oStep j.bytes < g.lastStep → EndsFault (.gateDecision sec) s 4 sec.val j.ctx 1)) ∧
  (∀ (sec : Sec) (s : State), (∀ j, jobOf s 4 sec.val = some j → j.phase ≠ .waitGate ∨ unitHeld s 4 sec.val = true) →
    exec (.gateDecision sec) s = .next s) ∧
  (∀ (sec : Sec) (s : State) (q c : Nat) (e : Entry), Takes s 4 sec.val q c e → optBad s (jobFrom s q c e) = false →
    oSnap e.bytes = true → unitHeld s 4 sec.val = false →
    (writeOk s c (oAux e.bytes) 8 = false → EndsFault (.gateSnapshot sec) s 4 sec.val c 0x0E) ∧
    (writeOk s c (oAux e.bytes) 8 = true →
      (∃ t, exec (.gateSnapshot sec) s = .next t ∧ jobOf t 4 sec.val = none) ∧
      ((∀ w, (s.queue q).cq = some w → isHostAddr w = true) → SignalsTake s e.bytes →
        ∃ t, exec (.gateSnapshot sec) s = .next t ∧ jobOf t 4 sec.val = none ∧ Signalled s t e.bytes ∧ (t.ctx c).nf = 0 ∧
          readBytes t (oAux e.bytes) 8 = leBytes 4 (s.ctx c).nf ++
            leBytes 4 (toBit (s.gate (s.ctx c).part (oGate e.bytes)).versionPending) ∧
          (∀ a, a < oAux e.bytes ∨ oAux e.bytes + 8 ≤ a → memByte t a = memByte s a))))

/-- COLLECTIVE_DESCRIPTOR, CHUNK_ARRIVAL, CHUNK_CREDIT_RETURN, COLLECTIVE_COMPLETE, COLL_WAIT_REPORT and WAIT_TIMEOUT of a collective
(R245, R306 to R308, R310, R312, R314, R315, R321 to R323, R430). A collective descriptor advances its group's SEQ and is held by
the engine until it ends or faults, and waits while no peer's chunk that it needs has come; one of a stale group is cancelled, an
invalid one faults with cause 0x01, a bad word with cause 0x06; a chunk fills a staging slot, over a link when an addition to the
arrival tally announces it, over the mesh by its being written there; a credit frees one; the end adds the signals and writes the
statistics record; a wait is reported once, and faults with cause 0x11 after four limits. Parts of it are the model's choice: log
entries 50, 51, 52, 147 and 148. -/
def Obligations.Collectives : Prop :=
  (∀ (sec : Sec) (hits : List Hit) (s : State) (q c : Nat) (e : Entry),
    let u := upsetWords s hits
    let i := Instr.collectiveDescriptor sec hits
    let b := e.bytes
    let x := u.comm sec.val (cComm b)
    let j := collStart u sec.val (jobFrom u q c e)
    let seq (t : State) : Prop := x.present = true → x.ctx = c → (t.comm sec.val (cComm e.bytes)).seq = (x.seq + 1) % 2 ^ 32
    Takes u 3 sec.val q c e →
    (x.present = true ∧ x.ctx = c ∧ x.stale = true → ∃ t, exec i s = .next t ∧
      jobOf t 3 sec.val = none ∧ t.ctx c = u.ctx c ∧ (∀ k, t.tally k = u.tally k) ∧ t.comm sec.val (cComm e.bytes) = x ∧
      Counted u t fCollDescCancelled sec.val 0 1 ∧ Only (storeAreas ++ [.queues, .engines, .out]) u t) ∧
    (¬ (x.present = true ∧ x.ctx = c ∧ x.stale = true) →
      (collBad u sec.val j = true → EndsFault i s 3 sec.val c 1 ∧ ∃ t, exec i s = .next t ∧ seq t) ∧
      (collBad u sec.val j = false → ¬ Clean u (collReads (collEnv u sec.val j)) →
        EndsFault i s 3 sec.val c 6 ∧ ∃ t, exec i s = .next t ∧ seq t) ∧
      (collBad u sec.val j = false → Clean u (collReads (collEnv u sec.val j)) →
        ∃ t, exec i s = .next t ∧ seq t ∧
          ((∃ j, jobOf t 3 sec.val = some j ∧ j.queue = q ∧ j.pos = e.pos ∧ j.ctx = c ∧ j.bytes = e.bytes ∧ j.lastSeq = x.seq) ∨
            (jobOf t 3 sec.val = none ∧ ((u.ctx c).mode = .active → (t.ctx c).mode = .stopping)))) ∧
      (collBad u sec.val j = false → Clean u (collReads (collEnv u sec.val j)) →
        let y := collEnv u sec.val j
        let a : CStep := { s := u, r := j.coll, j := j }
        (∀ st, y.stage j.coll = some st → stageDone y j.coll st = false ∧
          ∀ n ∈ stageTables y st, tryUp a y st n = none ∧ tryDown a y st n = none) →
        ∃ t w p, exec i s = .next t ∧ seq t ∧
          jobOf t 3 sec.val = some { j with poison := p, coll := { j.coll with chunkWait := w } } ∧
          (t.comm sec.val (cComm b)).staged = x.staged ∧ (∀ k, t.tally k = u.tally k) ∧ (cOp b ≠ 3 → SameBytes u t) ∧
          Only (readAreas ++ [.queues, .engines, .comms, .gates]) u t))) ∧
  (∀ (sec : Sec) (comm : Fin 64) (tree : Fin 8) (peer : Peer) (headerHits dataHits : List Hit) (s : State),
    let u := upsetWords s (headerHits ++ dataHits)
    let i := Instr.chunkArrival sec comm tree peer headerHits dataHits
    let x := u.comm sec.val comm.val
    let full := 4 ≤ (x.staged.filter (fun c => c.table == tree.val && c.peer == peerNum peer)).length
    let slot := freeSlot x tree.val (peerNum peer)
    let tally := arrivalTally x tree.val (peerNum peer)
    let a := slotAddr x slot
    (∃ t, exec i s = .next t ∧ (t.comm sec.val comm.val).seq = x.seq) ∧
    (x.present = false ∨ x.stale = true ∨ full → exec i s = .next u) ∧
    (x.present = true → x.stale = false → ¬ full → jobOf u 3 sec.val = none →
      ((peerRoute x tree.val (peerNum peer)).2 < 8 →
        ((u.tally tally).count ≤ tabGet 0 x.seen tally → exec i s = .next u) ∧
        (tabGet 0 x.seen tally < (u.tally tally).count → ∃ t, exec i s = .next t ∧
          t.comm sec.val comm.val = { x with
            staged := x.staged ++ [slot], seen := tabSet 0 x.seen tally (tabGet 0 x.seen tally + 1),
            nextSlot := tabSet 0 x.nextSlot (peerKey tree.val (peerNum peer)) ((slot.slot + 1) % 4) } ∧ Only [.comms] u t)) ∧
      (8 ≤ (peerRoute x tree.val (peerNum peer)).2 →
        (x.transit.find? (fun c => c.table == tree.val && c.peer == peerNum peer) = none ∨ unitHeld u 3 sec.val = true →
          exec i s = .next u) ∧
        (∀ c, x.transit.find? (fun c => c.table == tree.val && c.peer == peerNum peer) = some c → unitHeld u 3 sec.val = false →
          c.data.length ≤ x.chunk → (u.tally tally).present = true → (u.tally tally).abandoned = false →
          (u.tally tally).count < 0xFFFFFFFF → (u.ctx (u.tally tally).ctx).marks = [] →
          ∃ t, exec i s = .next t ∧
            t.comm sec.val comm.val = { noteSlot x slot with transit := x.transit.erase c } ∧
            t.tally tally = { u.tally tally with count := (u.tally tally).count + 1 } ∧ (∀ k, k ≠ tally → t.tally k = u.tally k) ∧
            readBytes t a c.data.length = c.data ∧ readBytes t (a + x.chunk) c.header.length = c.header ∧
            (∀ k, k < a ∨ (a + c.data.length ≤ k ∧ k < a + x.chunk) ∨ a + x.chunk + c.header.length ≤ k → memByte t k = memByte u k) ∧
            Only (readAreas ++ [.comms, .tallies]) u t)))) ∧
  (∀ (sec : Sec) (comm : Fin 64) (tree : Fin 8) (peer : Peer) (s : State),
    let i := Instr.chunkCreditReturn sec comm tree peer
    let x := s.comm sec.val comm.val
    let key := peerKey tree.val (peerNum peer)
    let tally := creditTally x tree.val (peerNum peer)
    (∃ t, exec i s = .next t ∧ (t.comm sec.val comm.val).seq = x.seq) ∧
    (x.present = false ∨ tabGet 0 x.used key = 0 → exec i s = .next s) ∧
    (∀ n, x.present = true → tabGet 0 x.used key = n + 1 → jobOf s 3 sec.val = none →
      ((peerRoute x tree.val (peerNum peer)).2 < 8 →
        ((s.tally tally).count ≤ tabGet 0 x.seen tally → exec i s = .next s) ∧
        (tabGet 0 x.seen tally < (s.tally tally).count → ∃ t, exec i s = .next t ∧
          t.comm sec.val comm.val = { x with
            used := tabSet 0 x.used key n, seen := tabSet 0 x.seen tally (tabGet 0 x.seen tally + 1) } ∧ Only [.comms] s t)) ∧
      (8 ≤ (peerRoute x tree.val (peerNum peer)).2 →
        (tabGet 0 x.credits key = 0 ∨ unitHeld s 3 sec.val = true → exec i s = .next s) ∧
        (∀ k, tabGet 0 x.credits key = k + 1 → unitHeld s 3 sec.val = false → (s.tally tally).present = true →
          (s.tally tally).abandoned = false → (s.tally tally).count < 0xFFFFFFFF → (s.ctx (s.tally tally).ctx).marks = [] →
          ∃ t, exec i s = .next t ∧ tabGet 0 (t.comm sec.val comm.val).used key = n ∧
            tabGet 0 (t.comm sec.val comm.val).credits key = k ∧ (t.comm sec.val comm.val).staged = x.staged ∧
            t.tally tally = { s.tally tally with count := (s.tally tally).count + 1 } ∧ (∀ k, k ≠ tally → t.tally k = s.tally k) ∧
            Only [.comms, .tallies, .parts] s t)))) ∧
  (∀ (sec : Sec) (s : State) (j : Job), jobOf s 3 sec.val = some j →
    (j.phase = .dataDone → unitHeld s 3 sec.val = false → EndsSignalled (.collectiveComplete sec) s 3 sec.val j [.ctxs, .tensors] ∧
      (SignalsTake s j.bytes → ∃ t, exec (.collectiveComplete sec) s = .next t ∧ Counted s t fCollDescCompleted sec.val 0 1 ∧
        (cOp j.bytes = 3 → Counted s t fCollStampGathers sec.val 0 1) ∧
        ((∀ w, (s.queue j.queue).cq = some w → isHostAddr w = true) →
          (cStats j.bytes = true ∧ cReduces j.bytes = true ∧ cStatsAddr j.bytes ≠ 0 → readBytes t (cStatsAddr j.bytes) 64 =
            statsRecord (s.comm sec.val (cComm j.bytes)) j.bytes j.coll.stats) ∧
          (cStats j.bytes = false → ∀ a, memByte t a = memByte s a)))) ∧
    (j.phase = .running →
      (j.reported = false → j.coll.chunkWait = true → ∃ t, exec (.collWaitReport sec) s = .next t ∧
        jobOf t 3 sec.val = some { j with reported := true } ∧ Counted s t fCollWaitWaitsReported sec.val 0 1 ∧
        Only [.engines, .registers, .functions] s t) ∧
      (j.reported = true ∨ j.coll.chunkWait = false → exec (.collWaitReport sec) s = .next s) ∧
      EndsFault (.waitTimeout (.collective sec)) s 3 sec.val j.ctx 0x11)) ∧
  (∀ (sec : Sec) (s : State), (jobOf s 3 sec.val = none ∨ unitHeld s 3 sec.val = true → exec (.collectiveComplete sec) s = .next s) ∧
    (jobOf s 3 sec.val = none → exec (.collWaitReport sec) s = .next s ∧
      (∀ c, collQueued s sec.val = some c → ∃ t, exec (.waitTimeout (.collective sec)) s = .next t ∧
        ((s.ctx c).mode = .active → Faulted t c 0x11)) ∧
      (collQueued s sec.val = none → exec (.waitTimeout (.collective sec)) s = .next s)))

/-- LINK_TRANSMIT, LINK_TRANSMIT_ACKED, LINK_TX_WATCHDOG and CRC_SECOND_READ of a transmitter (R36, R56, R62, R63, R89, R252, R272 to
R274, R277, R279, R282, R381, R430). A transmitter takes its queues' next descriptor and gives its messages to the link: one goes
out at once in data flits where the link is UP with credit and room, else it waits; the acknowledgement of the last flit adds the
signals; a broken descriptor, a refused read, a bad word and the watchdog fault the context, a second mismatch with cause 0x07.
Parts of it are the model's choice: log entries 59 and 150. -/
def Obligations.LinkTransmitters : Prop :=
  (∀ (l : LinkId) (hits : List Hit) (pathError bufferError : Bool) (retryHits : List Nat) (s : State) (q c : Nat) (e : Entry),
    let u := upsetWords s hits
    let i := Instr.linkTransmit l hits pathError ⟨bufferError, retryHits⟩
    let b := e.bytes
    let j : Job := { jobFrom u q c e with version := (u.tensor (u.ctx c).part (txTensor b)).desc.version }
    let ok := ∀ r ∈ txRanges u j, readOk u c r.1 r.2 = true
    let ms : List OutMsg := (txMessages u j).map (fun m => { header := m.1, data := m.2, ctx := some c, job := true })
    Takes u 5 l.val q c e →
    (txBad u l.val j = true → EndsFault i s 5 l.val c 1) ∧
    (txBad u l.val j = false → ¬ ok → EndsFault i s 5 l.val c 0x0E) ∧
    (txBad u l.val j = false → ok → (¬ Clean u (txReads u j) ∨ bufferError = true) → EndsFault i s 5 l.val c 6) ∧
    (txBad u l.val j = false → ok → Clean u (txReads u j) → bufferError = false →
      (∀ k, txMismatch u j 0 pathError = some k → ∃ t, exec i s = .next t ∧ jobOf t 5 l.val = some { j with phase := .reread k } ∧
        SameBytes u t ∧ (t.link l.val).waiting = (u.link l.val).waiting ∧ Only (readAreas ++ [.queues, .engines, .links]) u t) ∧
      (txMismatch u j 0 pathError = none →
        (linkState u l.val ≠ 4 → ∃ t, exec i s = .next t ∧ jobOf t 5 l.val = some { j with phase := .dataDone } ∧
          (t.link l.val).waiting = (u.link l.val).waiting ++ ms ∧ SameBytes u t ∧
          (∀ k, k ≠ l.val → t.link k = u.link k) ∧ Only (readAreas ++ [.queues, .engines, .links]) u t) ∧
        (linkState u l.val = 4 → (u.link l.val).waiting = [] → (u.link l.val).parts = [] → txOp b = 1 → txLen b ≤ 65536 →
          msgSlots (txLen b) ≤ creditOf (u.link l.val) 0 →
          let n := ceilDiv (32 + txLen b) flitPayload
          (u.link l.val).retry.length + n ≤ 256 →
          ∃ t, ∃ fl : List SentFlit, exec i s = .next t ∧ jobOf t 5 l.val = some { j with phase := .dataDone } ∧
            t.out.links = u.out.links ++ fl.map (fun f => (l.val, f)) ∧ fl.length = n ∧
            (fl.flatMap (·.payload)).take (32 + txLen b) =
              msgHeader 1 (txDstTag b) (txEpoch u c) (txLen b) (leBytes 8 (txHandle b) ++ leBytes 8 (txOffset b)) (txTally b) (txAdd b) ++
                readBytes u (txSrc b) (txLen b) ∧
            (∀ f ∈ fl, f.kind = 1 ∧ f.nak = false ∧ f.ack = (u.link l.val).rxSeq ∧ f.payload.length = flitPayload) ∧
            (t.link l.val).retry = (u.link l.val).retry ++ fl.map (fun f => ⟨f.seq, f.first, f.payload⟩) ∧
            (t.link l.val).waiting = [] ∧ (t.link l.val).parts = [] ∧
            (t.link l.val).txSeq = ((u.link l.val).txSeq + n) % 65536 ∧ SameBytes u t ∧
            (∀ k, k ≠ l.val → t.link k = u.link k) ∧ Only (readAreas ++ [.queues, .engines, .links, .out]) u t)))) ∧
  (∀ (l : LinkId) (s : State) (j : Job), jobOf s 5 l.val = some j →
    let x := s.link l.val
    let acked := (j.phase == .dataDone) && !x.waiting.any (·.job) && !x.parts.any (·.job) && !unitHeld s 5 l.val
    (acked = true → EndsSignalled (.linkTransmitAcked l) s 5 l.val j [.links] ∧
      (x.waiting = [] → x.parts = [] → SignalsTake s j.bytes → ∃ t, exec (.linkTransmitAcked l) s = .next t ∧
        (∀ f ∈ (t.link l.val).retry, x.lastData ≠ some f.seq) ∧ (t.link l.val).txSeq = x.txSeq)) ∧
    (acked = false → exec (.linkTransmitAcked l) s = .next s) ∧
    (linkState s l.val = 4 → EndsFault (.linkTxWatchdog l) s 5 l.val j.ctx 0x10) ∧
    (linkState s l.val ≠ 4 → exec (.linkTxWatchdog l) s = .next s) ∧
    (∀ k x pathError, j.phase = .reread k → ((txBlocks s j).filterMap id)[k]? = some x →
      let good := !pathError && blockGood s (txSource s j) j.version x.1 x.2.1 x.2.2
      let i := Instr.crcSecondRead (.link l) pathError
      (good = false → EndsFault i s 5 l.val j.ctx 7) ∧
      (good = true → jobStopped s j = true → ∃ t, exec i s = .next t ∧ jobOf t 5 l.val = none ∧ (∀ k, t.tally k = s.tally k)) ∧
      (good = true → jobStopped s j = false →
        (∀ n, txMismatch s j (k + 1) false = some n →
          ∃ t, exec i s = .next t ∧ jobOf t 5 l.val = some { j with phase := .reread n } ∧ SameBytes s t) ∧
        (txMismatch s j (k + 1) false = none → linkState s l.val ≠ 4 → ∃ t, exec i s = .next t ∧
          jobOf t 5 l.val = some { j with phase := .dataDone } ∧ SameBytes s t ∧
          (t.link l.val).waiting = (s.link l.val).waiting ++
            (txMessages s j).map (fun m => { header := m.1, data := m.2, ctx := some j.ctx, job := true }))))) ∧
  (∀ (l : LinkId) (s : State), jobOf s 5 l.val = none →
    exec (.linkTransmitAcked l) s = .next s ∧ exec (.linkTxWatchdog l) s = .next s)

/-- MSG_WRITE and MSG_BLOCK (R61, R62, R251, R267, R273, R278 to R281, R291, R292, R424). A message that passes every check writes its
bytes at its destination and then adds to its tally; a BLOCK also stores its checksum; a malformed header and one beyond the credit
are hostile events; a message behind a held one, or outside the receiver's window in a Winter partition, waits; an unknown
destination is refused with cause 3 and an address outside it with cause 4, a stale generation is dropped, a later epoch is held,
and a replaying context drops it; none of these changes memory. A wrong BLOCK checksum faults the context with cause 0x07, words
that the receive buffer lost with cause 0x06. Parts of it are the model's choice: log entry 60. -/
def Obligations.DataMessages : Prop :=
  (∀ (l : LinkId) (h data : List Byte) (bad : List Nat) (s : State) (i : Instr), linkTakes s l.val = true →
    (hType h ∉ [2, 0x10, 0x11, 0x12] ∧ i = .msgWrite l h data bad) ∨ (hType h = 2 ∧ i = .msgBlock l h data bad) →
    let x := s.link l.val
    let good := headerBad h = false ∧ hLength h = data.length
    (¬ good → ∃ t, exec i s = .next t ∧ Counted s t fLnkHostileMalformed (l.val / 8) (l.val % 8) 1 ∧
      Only [.registers, .functions, .links, .out] s t) ∧
    (good → overCredit s l.val data = true → ∃ t, exec i s = .next t ∧
      Counted s t fLnkHostileCreditViolation (l.val / 8) (l.val % 8) 1 ∧
      (t.link l.val).freed0 = (x.freed0 + msgSlots data.length) % 65536 ∧ Only [.registers, .functions, .links, .out, .parts] s t) ∧
    (good → overCredit s l.val data = false → (x.held.isSome || !x.behind.isEmpty || !recvOpen s l.val) = true →
      ∃ t, exec i s = .next t ∧ (t.link l.val) = { x with
        behind := x.behind ++ [⟨h, data, bad⟩], inUse0 := x.inUse0 + msgSlots data.length } ∧ Only [.links] s t)) ∧
  (∀ (l : LinkId) (h data : List Byte) (bad : List Nat) (s : State),
    (linkTakes s l.val = false → exec (.msgWrite l h data bad) s = .next s ∧ exec (.msgBlock l h data bad) s = .next s) ∧
    (hType h ∈ [2, 0x10, 0x11, 0x12] → exec (.msgWrite l h data bad) s = .next s) ∧
    (hType h ≠ 2 → exec (.msgBlock l h data bad) s = .next s)) ∧
  (∀ (l : LinkId) (h data : List Byte) (bad : List Nat) (s : State) (p : Nat), linkTakes s l.val = true → headerBad h = false →
    hType h = 1 → hLength h = data.length → overCredit s l.val data = false → (s.link l.val).held = none → (s.link l.val).behind = [] →
    recvOpen s l.val = true → linkPart s l.val = some p →
    let i := Instr.msgWrite l h data bad
    (writeDest s p h = .bad → ∃ t, exec i s = .next t ∧ Counted s t fLnkRefuseBBadHandle (l.val / 8) (l.val % 8) 1 ∧
      (linkState s l.val ≠ 4 → (t.link l.val).waiting = (s.link l.val).waiting ++
        [{ header := ctrlHeader 0x10 3 (hEpoch h) 0 ((h.drop 12).take 8), data := [] }]) ∧ Only [.registers, .links, .out, .parts] s t) ∧
    (writeDest s p h = .stale → ∃ t, exec i s = .next t ∧
      Counted s t fLnkRefuseAStaleGen (l.val / 8) (l.val % 8) 1 ∧ Only [.registers, .links, .out] s t) ∧
    (∀ d, writeDest s p h = .ok d →
      (∀ g, (s.ctx d.ctx).group = some g → bitOf (s.group g).mask.toNat l.val = true → (s.group g).epoch < hEpoch h →
        ∃ t, exec i s = .next t ∧ (t.link l.val).held = some ⟨h, data, bad, s.now, hEpoch h, g⟩ ∧ Only [.links] s t) ∧
      ((∀ g, (s.ctx d.ctx).group = some g → bitOf (s.group g).mask.toNat l.val = true ∧ (s.group g).epoch = hEpoch h) →
        ((s.ctx d.ctx).group = none → hEpoch h = 0) →
        (rangeOk s l.val p h d = false → ∃ t, exec i s = .next t ∧
          Counted s t fLnkRefuseBBadRange (l.val / 8) (l.val % 8) 1 ∧ Only [.registers, .links, .out, .parts] s t) ∧
        (rangeOk s l.val p h d = true → isReplaying s d.ctx = true → ∃ t, exec i s = .next t ∧
          Counted s t fRplLogLiveDropped (s.ctx d.ctx).part 0 1 ∧ Only [.registers, .links, .out] s t) ∧
        (rangeOk s l.val p h d = true → isReplaying s d.ctx = false → (∃ o ∈ bad, o < d.bytes) → ∃ t, exec i s = .next t ∧
          ((s.ctx d.ctx).mode = .active → Faulted t d.ctx 6)) ∧
        (rangeOk s l.val p h d = true → isReplaying s d.ctx = false → (s.ctx d.ctx).log = none → (∀ o ∈ bad, d.bytes ≤ o) →
          (hTally h = 0xFFFF ∨ ((s.tally (hTally h)).abandoned = false ∧
            (s.tally (hTally h)).count + hAdd h ≤ 0xFFFFFFFF ∧ (s.ctx (s.tally (hTally h)).ctx).marks = [])) →
          ∃ t, exec i s = .next t ∧ StoredAt s t d.addr data ∧
            (∀ k, t.tally k = if k = hTally h ∧ hTally h ≠ 0xFFFF then { s.tally k with count := (s.tally k).count + hAdd h }
              else s.tally k) ∧
            (t.link l.val).freed0 = ((s.link l.val).freed0 + msgSlots data.length) % 65536 ∧
            Only (readAreas ++ [.links, .tallies, .out]) s t)))) ∧
  (∀ (l : LinkId) (h data : List Byte) (s : State) (p : Nat) (d : MsgDest) (x : Tensor), linkTakes s l.val = true →
    headerBad h = false → hType h = 2 → hLength h = data.length → overCredit s l.val data = false → (s.link l.val).held = none →
    (s.link l.val).behind = [] → recvOpen s l.val = true → linkPart s l.val = some p → blockDest s p h = .ok d → d.block = some x →
    (∀ g, (s.ctx d.ctx).group = some g → bitOf (s.group g).mask.toNat l.val = true ∧ (s.group g).epoch = hEpoch h) →
    ((s.ctx d.ctx).group = none → hEpoch h = 0) → rangeOk s l.val p h d = true →
    (blockOk x h data = true → isReplaying s d.ctx = false → (s.ctx d.ctx).log = none → hTally h = 0xFFFF → d.bytes ≤ data.length →
      (x.homeDesc.crcAddr + 4 * hBlock h + 4 ≤ d.addr ∨ d.addr + d.bytes ≤ x.homeDesc.crcAddr + 4 * hBlock h) →
      ∃ t, exec (.msgBlock l h data []) s = .next t ∧ readBytes t d.addr d.bytes = data.take d.bytes ∧
        storedCrc t x.homeDesc (hBlock h) = BitVec.ofNat 32 (hCrc h) ∧ Only (readAreas ++ [.links, .out]) s t) ∧
    (blockOk x h data = false → ∃ t, exec (.msgBlock l h data []) s = .next t ∧ ((s.ctx d.ctx).mode = .active → Faulted t d.ctx 7)))

/-- MSG_REFUSE, MSG_EPOCH_NOTICE, MSG_ABORT, EPOCH_GRACE_EXPIRY and FLIT_RECEIVE (R271 to R274, R278 to R280, R282, R292, R294, R295,
R428). A malformed control message and one beyond the flood limit are hostile events; below the limit a REFUSE is counted; a notice
above this module's epoch starts its wait; an ABORT of a member link at the current epoch or above aborts every context of the
group, any other counts as stale; the end of a grace drops the held message, or aborts the contexts of a group passed by; an
uncorrectable flit, one that fails its CRC and one out of sequence are answered with NAK once, a flit in sequence with ACK. Parts of
it are the model's choice: log entries 60 and 151. -/
def Obligations.ControlMessagesAndFlits : Prop :=
  (∀ (l : LinkId) (h : List Byte) (s : State) (i : Instr) (type : Nat),
    (type = 0x10 ∧ i = .msgRefuse l h) ∨ (type = 0x11 ∧ i = .msgEpochNotice l h) ∨ (type = 0x12 ∧ i = .msgAbort l h) →
    let recent := ((s.link l.val).ctrl.filter (fun t => decide (s.now < t + 100000))).length
    (linkTakes s l.val = false → exec i s = .next s) ∧
    (linkTakes s l.val = true → (headerBad h = true ∨ hType h ≠ type) → ∃ t, exec i s = .next t ∧
      Counted s t fLnkHostileMalformed (l.val / 8) (l.val % 8) 1 ∧ Only [.registers, .functions, .links, .out] s t) ∧
    (linkTakes s l.val = true → headerBad h = false → hType h = type → 128 ≤ recent → ∃ t, exec i s = .next t ∧
      Counted s t fLnkHostileCtrlFlood (l.val / 8) (l.val % 8) 1 ∧ Only [.registers, .functions, .links, .out] s t) ∧
    (linkTakes s l.val = true → headerBad h = false → hType h = type → recent < 128 →
      let x := s.group (hGroup h)
      (type = 0x10 → ∃ t, exec i s = .next t ∧ Counted s t fLnkPeerRefusedByPartner (l.val / 8) (l.val % 8) 1 ∧
        Only [.registers, .links, .functions, .out] s t) ∧
      (type = 0x11 → ∃ t, exec i s = .next t ∧ Counted s t fLnkPeerNotices (l.val / 8) (l.val % 8) 1 ∧
        t.group (hGroup h) = (if x.present = true ∧ x.epoch < hEpoch h then
          { x with passing := some (max (hEpoch h) (x.passing.getD 0)) } else x) ∧
        (∀ g, g ≠ hGroup h → t.group g = s.group g) ∧ Only [.registers, .links, .groups, .out] s t) ∧
      (type = 0x12 → x.present = true → bitOf x.mask.toNat l.val = true → x.epoch ≤ hEpoch h →
        ∃ t, exec i s = .next t ∧ hEpoch h ∈ (t.group (hGroup h)).abortSent ∧
          ∀ c, (s.ctx c).mode = .active → (s.ctx c).group = some (hGroup h) → Faulted t c 0x0F) ∧
      (type = 0x12 → (x.present = false ∨ bitOf x.mask.toNat l.val = false ∨ hEpoch h < x.epoch) →
        ∃ t, exec i s = .next t ∧ Counted s t fLnkRefuseAStaleEpoch (l.val / 8) (l.val % 8) 1 ∧
          Only [.registers, .links, .out] s t))) ∧
  (∀ (l : LinkId) (s : State),
    ((s.link l.val).held = none → exec (.epochGraceExpiry (.held l)) s = .next s) ∧
    (∀ m, (s.link l.val).held = some m →
      (∃ t, exec (.epochGraceExpiry (.held l)) s = .next t) ∧
      ((s.link l.val).behind = [] → ∃ t, exec (.epochGraceExpiry (.held l)) s = .next t ∧ (t.link l.val).held = none ∧
        Counted s t fLnkRefuseAFutureDropped (l.val / 8) (l.val % 8) 1 ∧ Only [.registers, .links, .out] s t))) ∧
  (∀ (g : Word32) (s : State),
    let x := s.group g.toNat
    (x.passing = none → exec (.epochGraceExpiry (.passed g)) s = .next s) ∧
    (∀ e, x.passing = some e → ∃ t, exec (.epochGraceExpiry (.passed g)) s = .next t ∧ t.group g.toNat = { x with passing := none } ∧
      (x.present = true → x.epoch < e → ∀ c, (s.ctx c).mode = .active → (s.ctx c).group = some g.toNat → Faulted t c 0x0F) ∧
      ((x.present = false ∨ e ≤ x.epoch) → Only [.groups] s t))) ∧
  (∀ (l : LinkId) (lane : Fin 2) (decoded corrected : Bool) (b : List Byte) (bad : List Nat) (s : State),
    let i := Instr.flitReceive l decoded corrected ⟨lane, b, bad⟩
    let x := s.link l.val
    let idle (nak : Bool) (ack : Nat) : SentFlit :=
      { lane := flitLane s l.val 0, kind := 0, nak := nak, seq := 0, ack := ack, first := 0xFFFF, credit0 := x.freed0,
        credit1 := x.freed1, payload := List.replicate flitPayload 0 }
    let few := ((x.badWords.filter (fun e => decide (s.now < e.2 + 1000000))).filter (fun e => e.1 == lane.val)).length < 16
    (linkAlive s l.val = false → exec i s = .next s) ∧
    (linkAlive s l.val = true → (decoded = false ∧ few) ∨ (decoded = true ∧ flitCrcOk b = false) →
      (linkTakes s l.val = true → x.nakSet = false → ∃ t, exec i s = .next t ∧
        t.out.links = s.out.links ++ [(l.val, idle true x.rxSeq)] ∧ (t.link l.val).nakSet = true ∧ (t.link l.val).rxSeq = x.rxSeq ∧
        Counted s t fLnkFecUncorrCw (l.val / 8) (l.val % 8) 1 ∧ Only [.registers, .functions, .care, .parts, .links, .out] s t) ∧
      ((linkTakes s l.val = false ∨ x.nakSet = true) → ∃ t, exec i s = .next t ∧ t.out = s.out ∧
        Counted s t fLnkFecUncorrCw (l.val / 8) (l.val % 8) 1 ∧ Only [.registers, .functions, .care, .links] s t)) ∧
    (linkAlive s l.val = true → decoded = true → flitCrcOk b = true → flitBad b = false →
      (linkTakes s l.val = false → fieldAt b 0 1 ≠ 2 → ∃ t, exec i s = .next t ∧ Only [.registers] s t) ∧
      (linkTakes s l.val = true → fieldAt b 0 1 = 1 → bitOf (fieldAt b 1 1) 0 = false →
        fieldAt b 8 2 = x.partnerFreed0 % 65536 → fieldAt b 10 2 = x.partnerFreed1 % 65536 →
        x.partnerFreed0 ≤ x.sent0 → x.partnerFreed1 ≤ x.sent1 → x.waiting = [] → x.parts = [] →
        (fieldAt b 2 2 = (x.rxSeq + 1) % 65536 → fieldAt b 6 2 = 0xFFFF →
          (x.rxSync = false ∨ (x.rxStream = [] ∧ ((b.drop 16).take flitPayload).all (· == 0) = true)) →
          ∃ t, exec i s = .next t ∧ (t.link l.val).rxSeq = fieldAt b 2 2 ∧
            (t.link l.val).nakSet = false ∧ t.out.links = s.out.links ++ [(l.val, idle false (fieldAt b 2 2))] ∧
            (x.retry.any (fun f => f.seq == fieldAt b 4 2) = true → (t.link l.val).retry = unacked x (fieldAt b 4 2)) ∧
            Only [.registers, .links, .out, .parts] s t) ∧
        (fieldAt b 2 2 ≠ (x.rxSeq + 1) % 65536 → x.nakSet = false →
          ∃ t, exec i s = .next t ∧ t.out.links = s.out.links ++ [(l.val, idle true x.rxSeq)] ∧ (t.link l.val).nakSet = true ∧
            (t.link l.val).rxSeq = x.rxSeq ∧ Only [.registers, .functions, .care, .parts, .links, .out] s t))))

/-- NEGOTIATE_RECEIVE, NOT_READY_RECEIVE, HEARTBEAT_RECEIVE, DEGRADE_RECEIVE and FENCED_RECEIVE (R283 to R288, R290, R295, R298, R503).
A malformed record and one whose sender changed are hostile events, a wrong partner fences the link. A record with its form and its
sender right: a NEGOTIATE takes a negotiating link UP with the partner's slots, or counts a version failure, or answers NOT_READY; a
NOT_READY takes it to NOT_READY; a HEARTBEAT counts the intervals missed and returns a SILENT link to UP; a DEGRADE moves it to the
lanes left, or DOWN; FENCED is kept. Parts of it are the model's choice: log entries 56, 57 and 151. -/
def Obligations.LinkRecords : Prop :=
  (∀ (l : LinkId) (r : LinkRecord) (s : State) (kind : Nat) (i : Instr),
    (kind = 1 ∧ i = .negotiateReceive l r) ∨ (kind = 2 ∧ i = .notReadyReceive l r) ∨ (kind = 3 ∧ i = .heartbeatReceive l r) ∨
      (kind = 4 ∧ i = .degradeReceive l r) ∨ (kind = 5 ∧ i = .fencedReceive l r) →
    ((linkAlive s l.val && takesRecords s l.val) = false → exec i s = .next s) ∧
    ((linkAlive s l.val && takesRecords s l.val) = true →
      (recordOk r kind = false → ∃ t, exec i s = .next t ∧ Counted s t fLnkHostileMalformed (l.val / 8) (l.val % 8) 1 ∧
        Only [.registers, .functions, .links, .out] s t) ∧
      (recordOk r kind = true → identityChanged s l.val r = true → ∃ t, exec i s = .next t ∧
        (linkState t l.val = 6 ∨ linkState t l.val = 7) ∧ Counted s t fLnkHostileMalformed (l.val / 8) (l.val % 8) 1 ∧
        Only [.registers, .functions, .care, .links, .out] s t) ∧
      (recordOk r kind = true → identityChanged s l.val r = false → linkState s l.val ≠ 7 → wrongPartner s l.val r = true →
        ∃ t, exec i s = .next t ∧ linkState t l.val = 7 ∧ t.fld fLnkStatusFenceCause (l.val / 8) (l.val % 8) = 2 ∧
          t.fld fLnkPartnerModuleId (l.val / 8) (l.val % 8) = r.moduleId.toNat ∧
          Only [.registers, .functions, .links, .out] s t))) ∧
  (∀ (l : LinkId) (r : LinkRecord) (s : State), linkAlive s l.val = true → identityChanged s l.val r = false →
    (linkState s l.val = 7 ∨ wrongPartner s l.val r = false) →
    (recordOk r 1 = true →
      (linkState s l.val = 2 ∨ linkState s l.val = 3 →
        (sharesMajor r = false → ∃ t, exec (.negotiateReceive l r) s = .next t ∧ linkState t l.val = linkState s l.val ∧
          Counted s t fLnkTrainVersionFail (l.val / 8) (l.val % 8) 1 ∧ Only [.registers, .links] s t) ∧
        (sharesMajor r = true → moduleReady s l.val = false → ∃ t, exec (.negotiateReceive l r) s = .next t ∧
          linkState t l.val = linkState s l.val ∧
          t.out.links = s.out.links ++ [(l.val, recordFlit s l.val (linkRecord s l.val 2))] ∧ Only [.registers, .links, .out] s t) ∧
        (sharesMajor r = true → moduleReady s l.val = true →
          (∃ t, exec (.negotiateReceive l r) s = .next t) ∧
          ((s.link l.val).retryBad = [] → ∃ t, exec (.negotiateReceive l r) s = .next t ∧ linkState t l.val = 4 ∧
            t.fld fLnkStatusProtoVer (l.val / 8) (l.val % 8) = 0x10 ∧ (t.link l.val).granted0 = r.slots0.toNat ∧
            (t.link l.val).granted1 = r.slots1.toNat ∧ (t.link l.val).partnerRates = r.rates.toNat ∧
            (t.link l.val).lastHb = s.now ∧ Only [.registers, .links, .out, .parts] s t))) ∧
      (linkState s l.val = 4 ∨ linkState s l.val = 5 ∨ linkState s l.val = 7 → exec (.negotiateReceive l r) s = .next s)) ∧
    (recordOk r 2 = true → takesRecords s l.val = true → ∃ t, exec (.notReadyReceive l r) s = .next t ∧
      linkState t l.val = (if linkState s l.val = 2 then 3 else linkState s l.val) ∧
      (linkState s l.val = 2 → (t.link l.val).backoffMs = 1) ∧
      t.fld fLnkPartnerModuleState (l.val / 8) (l.val % 8) = r.moduleState.toNat ∧ Only [.registers, .links] s t) ∧
    (recordOk r 3 = true → takesRecords s l.val = true →
      (∃ t, exec (.heartbeatReceive l r) s = .next t ∧ (linkState s l.val ≠ 5 → linkState t l.val = linkState s l.val)) ∧
      (linkState s l.val ≠ 5 ∨ (s.link l.val).retryBad = [] →
        ∃ t, exec (.heartbeatReceive l r) s = .next t ∧ (t.link l.val).lastHb = s.now ∧ (t.link l.val).hbCounted = 0 ∧
          linkState t l.val = (if linkState s l.val = 5 then 4 else linkState s l.val) ∧
          Counted s t fLnkTrainHbMissed (l.val / 8) (l.val % 8) (if linkTakes s l.val then hbMissed s l.val else 0) ∧
          Only [.registers, .links, .out, .parts] s t)) ∧
    (recordOk r 4 = true → takesRecords s l.val = true →
      let lanes := linkLanes s l.val &&& bitsOf r.lanes.toNat 1 0
      (∃ t, exec (.degradeReceive l r) s = .next t ∧ (linkState s l.val ≠ 7 → lanes = linkLanes s l.val →
        (t.link l.val).lanesMove = false ∧ linkState t l.val = linkState s l.val)) ∧
      (linkState s l.val = 7 ∨ lanes = linkLanes s l.val → ∃ t, exec (.degradeReceive l r) s = .next t ∧
        linkLanes t l.val = linkLanes s l.val ∧ Only [.registers, .links] s t) ∧
      (linkState s l.val ≠ 7 → lanes ≠ 0 → lanes ≠ linkLanes s l.val → (linkState s l.val ≠ 4 ∨ (s.link l.val).retryBad = []) →
        ∃ t, ∃ fl, exec (.degradeReceive l r) s = .next t ∧ linkLanes t l.val = lanes ∧ linkState t l.val = linkState s l.val ∧
          (t.link l.val).retired = 3 - lanes ∧
          t.out.links = s.out.links ++ fl ++ [(l.val, recordFlit t l.val (linkRecord t l.val 4))] ∧
          Only [.registers, .links, .functions, .care, .out] s t) ∧
      (linkState s l.val ≠ 7 → lanes = 0 → lanes ≠ linkLanes s l.val → ∃ t, exec (.degradeReceive l r) s = .next t ∧
        linkLanes t l.val = 0 ∧ linkState t l.val = 0 ∧ Only [.registers, .links, .functions, .care] s t)) ∧
    (recordOk r 5 = true → takesRecords s l.val = true → ∃ t, exec (.fencedReceive l r) s = .next t ∧
      (t.link l.val).partnerFenced = true ∧ t.fld fLnkPartnerModuleId (l.val / 8) (l.val % 8) = r.moduleId.toNat ∧
      Only [.registers, .links] s t))

/-- NEGOTIATE_RESEND, HEARTBEAT_SEND and HEARTBEAT_TIMEOUT (R14, R283, R286, R288, R290, R296). A negotiating link sends NEGOTIATE
again, one in NOT_READY on a back-off that doubles up to 64 ms, NOT_READY in its place while its end cannot take messages, a fenced
one FENCED until its partner has answered, one that retired a lane DEGRADE until the partner has moved; a heartbeat counts itself;
its loss takes an UP link to SILENT. Parts of it are the model's choice: log entries 18 and 57. -/
def Obligations.LinkTimers : Prop :=
  (∀ (l : LinkId) (s : State),
    (linkAlive s l.val = false → exec (.negotiateResend l) s = .next s ∧ exec (.heartbeatSend l) s = .next s) ∧
    (linkAlive s l.val = true →
      let kind := if moduleReady s l.val then 1 else 2
      let degrade := if takesRecords s l.val && linkState s l.val != 7 && (s.link l.val).lanesMove
        then [(l.val, recordFlit s l.val (linkRecord s l.val 4))] else []
      (linkState s l.val = 2 → ∃ t, exec (.negotiateResend l) s = .next t ∧
        t.out.links = s.out.links ++ degrade ++ [(l.val, recordFlit s l.val (linkRecord s l.val kind))] ∧ Only [.out] s t) ∧
      (linkState s l.val = 3 → ∃ t, exec (.negotiateResend l) s = .next t ∧
        t.out.links = s.out.links ++ degrade ++ [(l.val, recordFlit s l.val (linkRecord s l.val kind))] ∧
        t.link l.val = { s.link l.val with backoffMs := min 64 (2 * (s.link l.val).backoffMs) } ∧ Only [.links, .out] s t) ∧
      (linkState s l.val = 7 → ∃ t, exec (.negotiateResend l) s = .next t ∧
        t.out.links = s.out.links ++
          (if (s.link l.val).partnerFenced then [] else [(l.val, recordFlit s l.val (linkRecord s l.val 5))]) ∧ Only [.out] s t) ∧
      (linkState s l.val ∉ [2, 3, 7] → ∃ t, exec (.negotiateResend l) s = .next t ∧
        t.out.links = s.out.links ++ degrade ∧ Only [.out] s t) ∧
      ([3, 4, 5, 7].contains (linkState s l.val) = true → ∃ t, exec (.heartbeatSend l) s = .next t ∧
        t.link l.val = { s.link l.val with hbCount := min ((s.link l.val).hbCount + 1) (2 ^ 32 - 1) } ∧
        t.out.links = s.out.links ++ [(l.val, recordFlit s l.val { linkRecord s l.val 3 with
          hbCount := BitVec.ofNat 32 (min ((s.link l.val).hbCount + 1) (2 ^ 32 - 1)) })] ∧
        (∀ k, k ≠ l.val → t.link k = s.link k) ∧ Only [.links, .out] s t) ∧
      ([3, 4, 5, 7].contains (linkState s l.val) = false → exec (.heartbeatSend l) s = .next s))) ∧
  (∀ (l : LinkId) (s : State),
    (linkState s l.val = 4 → ∃ t, exec (.heartbeatTimeout l) s = .next t ∧ linkState t l.val = 5 ∧
      Counted s t fLnkTrainSilentEvents (l.val / 8) (l.val % 8) 1 ∧ Counted s t fLnkTrainHbMissed (l.val / 8) (l.val % 8) 3 ∧
      t.link l.val = { s.link l.val with hbCounted := (s.link l.val).hbCounted + 3 } ∧ Only [.registers, .functions, .links] s t) ∧
    (linkState s l.val = 5 → ∃ t, exec (.heartbeatTimeout l) s = .next t ∧ linkState t l.val = 5 ∧
      Counted s t fLnkTrainHbMissed (l.val / 8) (l.val % 8) 3 ∧ Only [.registers, .links] s t) ∧
    (linkTakes s l.val = false → exec (.heartbeatTimeout l) s = .next s))

/-- LANE_LOCK, LANE_RETIRE, LINK_RETRAIN_START, LINK_RETRAIN_END and TRAINING_TIMEOUT (R275, R276, R283, R285, R286, R288, R289). A lane
that locks at a rate that both ends have and none has failed takes a link that is DOWN to TRAINING, and to NEGOTIATING once every
lane that is not retired has locked; a retired lane leaves the link on the other, or DOWN; a retraining ends UP, or DOWN and at a
lower rate after a second failure; a training that times out ends DOWN at a lower rate. Parts of it are the model's choice: log
entries 18, 55 and 58. -/
def Obligations.LinkTraining : Prop :=
  (∀ (l : LinkId) (lane : Fin 2) (rate : Fin 3) (ns : Nat) (s : State),
    let x := s.link l.val
    let i := Instr.laneLock l lane rate ns
    let st := linkState s l.val
    let may := linkAlive s l.val && !x.startLoop && (st == 0 || st == 1) && !bitOf x.retired lane.val &&
      decide (max x.tryRate (s.fld fLnkCfgRateCap (l.val / 8) (l.val % 8)) ≤ rate.val) && bitOf x.partnerRates rate.val
    let locked := (if st = 1 ∧ linkRate s l.val = rate.val then x.lanesLocked else 0) ||| 2 ^ lane.val
    (may = false → exec i s = .next s) ∧
    (may = true → locked &&& (3 - x.retired) ≠ 3 - x.retired → ∃ t, exec i s = .next t ∧ linkState t l.val = 1 ∧
      linkRate t l.val = rate.val ∧ t.link l.val = { x with lanesLocked := locked, latency := ns } ∧
      (∀ k, k ≠ l.val → t.link k = s.link k) ∧ Only [.registers, .links] s t) ∧
    (may = true → locked &&& (3 - x.retired) = 3 - x.retired → ∃ t, ∃ fl, exec i s = .next t ∧ linkState t l.val = 2 ∧
      linkRate t l.val = rate.val ∧ linkLanes t l.val = 3 - x.retired ∧ t.fld fLnkStatusLatency (l.val / 8) (l.val % 8) = min ns 4095 ∧
      (t.link l.val).failures = 0 ∧
      t.out.links = s.out.links ++ fl ∧ fl.length = 1 ∧ Only [.registers, .links, .functions, .care, .out] s t)) ∧
  (∀ (l : LinkId) (lane : Fin 2) (s : State),
    let x := s.link l.val
    let i := Instr.laneRetire l lane
    let may := linkAlive s l.val && !bitOf x.retired lane.val && !([0, 7, 8].contains (linkState s l.val))
    let left := (3 - x.retired) &&& (3 - 2 ^ lane.val)
    (may = false → exec i s = .next s) ∧
    (may = true → (∃ t, exec i s = .next t ∧ (left ≠ 0 → linkState s l.val = 6 → linkState t l.val = 6)) ∧
      (left = 0 → ∃ t, exec i s = .next t ∧ linkState t l.val = 0 ∧ linkLanes t l.val = 0 ∧
        Counted s t fLnkTrainDegrades (l.val / 8) (l.val % 8) 1 ∧ Only [.registers, .links, .functions, .care] s t) ∧
      (left ≠ 0 → linkState s l.val ≠ 1 → (linkState s l.val ≠ 4 ∨ x.retryBad = []) → ∃ t, exec i s = .next t ∧
        linkLanes t l.val = left ∧ linkState t l.val = linkState s l.val ∧ (t.link l.val).lanesMove = true ∧
        (t.link l.val).retired = 3 - left ∧ Counted s t fLnkTrainDegrades (l.val / 8) (l.val % 8) 1 ∧
        Only [.registers, .links, .functions, .care, .out] s t) ∧
      (left ≠ 0 → linkState s l.val = 1 → ∃ t, exec i s = .next t ∧ (t.link l.val).retired = x.retired ||| 2 ^ lane.val ∧
        linkState t l.val = (if x.lanesLocked &&& (3 - (x.retired ||| 2 ^ lane.val)) = left then 2 else 1) ∧
        Only [.registers, .links, .functions, .care, .out] s t))) ∧
  (∀ (l : LinkId) (s : State),
    ((linkAlive s l.val && linkTakes s l.val) = false → exec (.linkRetrainStart l) s = .next s) ∧
    ((linkAlive s l.val && linkTakes s l.val) = true → ∃ t, exec (.linkRetrainStart l) s = .next t ∧ linkState t l.val = 6 ∧
      Counted s t fLnkTrainRetrains (l.val / 8) (l.val % 8) 1 ∧ Only [.registers, .links, .functions, .care] s t)) ∧
  (∀ (l : LinkId) (ns : Nat) (s : State),
    (linkState s l.val ≠ 6 → ∀ ok, exec (.linkRetrainEnd l ok ns) s = .next s) ∧
    (linkState s l.val = 6 →
      (∃ t, exec (.linkRetrainEnd l true ns) s = .next t) ∧
      ((s.link l.val).retryBad = [] → ∃ t, exec (.linkRetrainEnd l true ns) s = .next t ∧ linkState t l.val = 4 ∧
        linkLanes t l.val = 3 - (s.link l.val).retired ∧
        t.fld fLnkStatusLatency (l.val / 8) (l.val % 8) = min ns 4095 ∧ Only [.registers, .links, .out, .parts] s t) ∧
      (∃ t, exec (.linkRetrainEnd l false ns) s = .next t ∧ linkState t l.val = 0 ∧
        linkRate t l.val = (if 1 ≤ (s.link l.val).failures then min 2 (linkRate s l.val + 1) else linkRate s l.val) ∧
        Only [.registers, .links] s t))) ∧
  (∀ (l : LinkId) (s : State),
    (linkState s l.val = 1 → ∃ t, exec (.trainingTimeout l) s = .next t ∧ linkState t l.val = 0 ∧
      linkRate t l.val = min 2 (linkRate s l.val + 1) ∧ (t.link l.val).tryRate = min 2 (linkRate s l.val + 1) ∧
      Only [.registers, .links] s t) ∧
    (linkState s l.val ≠ 1 → exec (.trainingTimeout l) s = .next s))

/-- LNK_LOOP_START, LNK_LOOP_DONE and LNK_LOOP_MODE_WRITE (R297, R447). In a section of no partition a mode takes the link to LOOPBACK and START runs
the test, whose end shows errors and lanes without lock; MODE 0 returns the link to DOWN; a fenced link stays fenced; in a partition a write only
sets REFUSED; a run of the start hands the link on to training. -/
def Obligations.LinkLoopBack : Prop :=
  (∀ (l : LinkId) (value : Word) (s : State) (p : Nat), linkPart s l.val = some p →
    exec (.lnkLoopStart l value) s = .next (s.setFld fLnkLoopResultRefused (l.val / 8) (l.val % 8) 1) ∧
    exec (.lnkLoopModeWrite l value) s = .next (s.setFld fLnkLoopResultRefused (l.val / 8) (l.val % 8) 1)) ∧
  (∀ (l : LinkId) (value : Word) (s : State), linkPart s l.val = none →
    (bitsOf value.toNat 1 0 ≠ 0 →
      (∃ t, exec (.lnkLoopStart l value) s = .next t ∧ linkState t l.val = (if linkState s l.val = 7 then 7 else 8) ∧
        t.fld fLnkLoopStart (l.val / 8) (l.val % 8) = 1 ∧
        t.fld fLnkLoopMode (l.val / 8) (l.val % 8) = bitsOf value.toNat 1 0 ∧
        t.fld fLnkLoopPattern (l.val / 8) (l.val % 8) = bitsOf value.toNat 11 8 ∧
        t.fld fLnkLoopResultDone (l.val / 8) (l.val % 8) = 0 ∧ Only [.registers] s t) ∧
      (∃ t, exec (.lnkLoopModeWrite l value) s = .next t ∧ linkState t l.val = (if linkState s l.val = 7 then 7 else 8) ∧
        t.fld fLnkLoopStart (l.val / 8) (l.val % 8) = s.fld fLnkLoopStart (l.val / 8) (l.val % 8) ∧ Only [.registers] s t)) ∧
    (bitsOf value.toNat 1 0 = 0 →
      (∃ t, exec (.lnkLoopStart l value) s = .next t ∧ t.fld fLnkLoopStart (l.val / 8) (l.val % 8) = 0 ∧
        Only [.registers, .links] s t) ∧
      (∃ t, exec (.lnkLoopModeWrite l value) s = .next t ∧
        linkState t l.val = (if linkState s l.val = 8 then 0 else linkState s l.val) ∧
        linkLanes t l.val = (if linkState s l.val = 8 then 0 else linkLanes s l.val) ∧
        t.fld fLnkLoopStart (l.val / 8) (l.val % 8) = 0 ∧ Only [.registers, .links] s t))) ∧
  (∀ (l : LinkId) (e0 e1 : Nat) (k0 k1 : Bool) (s : State),
    (s.fld fLnkLoopStart (l.val / 8) (l.val % 8) = 0 → exec (.lnkLoopDone l e0 e1 k0 k1) s = .next s) ∧
    (s.fld fLnkLoopStart (l.val / 8) (l.val % 8) = 1 →
      ∃ t, exec (.lnkLoopDone l e0 e1 k0 k1) s = .next t ∧ t.fld fLnkLoopStart (l.val / 8) (l.val % 8) = 0 ∧
        t.fld fLnkLoopResultDone (l.val / 8) (l.val % 8) = 1 ∧
        t.fld fLnkLoopResultLane0Errors (l.val / 8) (l.val % 8) = (if k0 then min e0 (2 ^ 28 - 1) else 2 ^ 28 - 1) ∧
        t.fld fLnkLoopResultLane1Errors (l.val / 8) (l.val % 8) = (if k1 then min e1 (2 ^ 28 - 1) else 2 ^ 28 - 1) ∧
        t.fld fLnkLoopResultNoLock0 (l.val / 8) (l.val % 8) = (if k0 then 0 else 1) ∧
        t.fld fLnkLoopResultNoLock1 (l.val / 8) (l.val % 8) = (if k1 then 0 else 1) ∧
        (t.link l.val).startLoop = false ∧ ((s.link l.val).startLoop = true → linkState t l.val = 0) ∧
        ((s.link l.val).startLoop = false → linkState t l.val = linkState s l.val) ∧ Only [.registers, .links] s t))

/-- HBM_LOOP_START, HBM_LOOP_DONE, PATROL_SCRUB_READ, HBM_REFRESH and UNSCHEDULED_REFRESH (R56, R58, R67, R68, R70, R249). A stack that
is not ONLINE keeps MODE and PATTERN as written and runs a loop-back whose end shows errors and failed lanes; the scrubber goes on
to the next word, rewriting a corrected one in place and poisoning an uncorrectable one; refreshes are counted, one outside the
windows holds its Winter partition for 288 A-cycles unless it is held. That START begins a run anew and MODE 0 or 3 ends one is the
model's choice (log entry 125). Parts of it are the model's choice: log entries 22, 30, 31 and 122. -/
def Obligations.HbmUpkeep : Prop :=
  (∀ (g : StackId) (value : Word) (s : State),
    (hbmOnline s g.val = true → exec (.hbmLoopStart g value) s = .next (s.setFld fHbmLoopResultRefused (g.val / 3) (g.val % 3) 1)) ∧
    (hbmOnline s g.val = false → ∃ t, exec (.hbmLoopStart g value) s = .next t ∧
      t.fld fHbmLoopMode (g.val / 3) (g.val % 3) = bitsOf value.toNat 1 0 ∧
      t.fld fHbmLoopPattern (g.val / 3) (g.val % 3) = bitsOf value.toNat 11 8 ∧
      (bitsOf value.toNat 1 0 = 1 ∨ bitsOf value.toNat 1 0 = 2 → bitOf value.toNat 15 = true →
        t.fld fHbmLoopStart (g.val / 3) (g.val % 3) = 1 ∧ t.fld fHbmLoopResultDone (g.val / 3) (g.val % 3) = 0) ∧
      (bitsOf value.toNat 1 0 = 0 ∨ bitsOf value.toNat 1 0 = 3 → t.fld fHbmLoopStart (g.val / 3) (g.val % 3) = 0) ∧
      Only [.registers] s t)) ∧
  (∀ (g : StackId) (errors lanes : Nat) (s : State),
    (s.fld fHbmLoopStart (g.val / 3) (g.val % 3) = 0 → exec (.hbmLoopDone g errors lanes) s = .next s) ∧
    (s.fld fHbmLoopStart (g.val / 3) (g.val % 3) = 1 →
      ∃ t, exec (.hbmLoopDone g errors lanes) s = .next t ∧ t.fld fHbmLoopStart (g.val / 3) (g.val % 3) = 0 ∧
        t.fld fHbmLoopResultDone (g.val / 3) (g.val % 3) = 1 ∧
        t.fld fHbmLoopResultErrors (g.val / 3) (g.val % 3) = min errors (2 ^ 32 - 1) ∧
        t.fld fHbmLoopResultLanesFailed (g.val / 3) (g.val % 3) = min lanes (2 ^ 16 - 1) ∧ Only [.registers] s t)) ∧
  (∀ (sec : Sec) (outcome : Option ReadOutcome) (s : State),
    let w := tabGet 0 s.mem.scrubLoam sec.val
    let i := Instr.patrolScrubRead sec none outcome
    (scrubAllowed s sec.val = false → exec i s = .next s) ∧
    (scrubAllowed s sec.val = true → ∃ t, exec i s = .next t ∧ tabGet 0 t.mem.scrubLoam sec.val = (w + 1) % loamWords ∧
      ((∀ d, outcome ≠ some (.undetected d)) → ∀ a, memByte t a = memByte s a) ∧
      (∀ k, loamWord s sec.val (16 * w) = some k → tabGet false s.mem.poisoned k = false → outcome = some .uncorrectable →
        ∀ n, tabGet false t.mem.poisoned n = (n == k || tabGet false s.mem.poisoned n)) ∧
      (∀ k y, loamWord s sec.val (16 * w) = some k → tabGet false s.mem.poisoned k = false → outcome = some (.corrected y) →
        tabGet none t.mem.upset k = none ∧ ∀ n, tabGet false t.mem.poisoned n = tabGet false s.mem.poisoned n) ∧
      Only readAreas s t)) ∧
  (∀ (sec : Sec) (k : Fin 3) (outcome : Option ReadOutcome) (s : State),
    let g := 3 * sec.val + k.val
    let w := tabGet 0 s.mem.scrubHbm g
    let key := (g * stackBytes + 16 * w) / 16
    let i := Instr.patrolScrubRead sec (some k) outcome
    ((scrubAllowed s sec.val && hbmTrained s g) = false → exec i s = .next s) ∧
    ((scrubAllowed s sec.val && hbmTrained s g) = true → ∃ t, exec i s = .next t ∧
      tabGet 0 t.mem.scrubHbm g = (w + 1) % stackWords ∧
      (tabGet false s.mem.poisoned key = false → tabGet none s.mem.upset key = none → outcome = none → Only [.cache] s t) ∧
      (tabGet false s.mem.poisoned key = false → outcome = some .uncorrectable →
        ∀ n, tabGet false t.mem.poisoned n = (n == key || tabGet false s.mem.poisoned n)) ∧
      ((∀ d, outcome ≠ some (.undetected d)) → ∀ a, memByte t a = memByte s a) ∧ Only readAreas s t)) ∧
  (∀ (g : StackId) (s : State), exec (.hbmRefresh g) s =
    .next (if refreshAllowed s g.val then s.bump fHbmRefreshScheduled (g.val / 3) (g.val % 3) 1 else s)) ∧
  (∀ (g : StackId) (s : State),
    (secPart s (g.val / 3) = none ∨ s.fld fHbmStatusRefDouble (g.val / 3) (g.val % 3) = 0 → exec (.unscheduledRefresh g) s = .next s) ∧
    (∀ p tb, secPart s (g.val / 3) = some p → s.alive = true →
      hbmTrained s g.val = true → (s.part p).winter = true → (s.part p).table = some tb → tb.double = false →
      s.fld fHbmStatusRefDouble (g.val / 3) (g.val % 3) = 1 →
      ∃ t, exec (.unscheduledRefresh g) s = .next t ∧ Counted s t fHbmRefreshUnscheduled (g.val / 3) (g.val % 3) 1 ∧
        (t.part p).causes = (s.part p).causes ++ (if partHeld s p then [] else [⟨2, aCycles s, some 288, g.val⟩]) ∧
        Only [.registers, .parts] s t))

/-- HOLD_START, HOLD_END and HOLD_LIMIT_REPORT (R244 to R248, R253, R382). A cause holds its Winter partition from the next frame
boundary; the hold ends at the first boundary at or after the end of every cause, and its A-cycles are counted, with those of each
cause; a cause beyond the limit is counted and posted. Parts of it are the model's choice: log entry 25. -/
def Obligations.WinterHolds : Prop :=
  (∀ (p : PartId) (s : State),
    let x := s.part p.val
    let may := x.present && x.winter && !x.held && holdBegun x (aCycles s)
    (may = false → exec (.holdStart p) s = .next s) ∧
    (may = true → ∃ t, exec (.holdStart p) s = .next t ∧
      (let n := (t.part p.val).holdStart
       t.part p.val = { x with held := true, holdStart := n, causes := x.causes.map (causeFrom n) } ∧ 12 ∣ n ∧ n ≤ aCycles s ∧
       (∃ c ∈ x.causes, c.since ≤ n) ∧ (∀ c ∈ x.causes, n < c.since + 12)) ∧
      (∀ k, k ≠ p.val → t.part k = s.part k) ∧ Only [.parts] s t)) ∧
  (∀ (p : PartId) (s : State),
    let x := s.part p.val
    (x.held = false ∨ (∃ c ∈ x.causes, c.length = none) ∨ aCycles s < holdStop x → exec (.holdEnd p) s = .next s) ∧
    (x.held = true → (∀ c ∈ x.causes, c.length ≠ none) → holdStop x ≤ aCycles s → ∃ t, exec (.holdEnd p) s = .next t ∧
      t.part p.val = { x with
        held := false, causes := [], heldTotal := x.heldTotal + (holdStop x - x.holdStart), workPrev := x.work,
        work := x.work + (aCycles s - holdStop x) } ∧
      Counted s t fRplHeldHeldCycles p.val 0 (holdStop x - x.holdStart) ∧
      Counted s t fRplWorkWorkCycles p.val 0 (aCycles s - holdStop x) ∧
      (∀ n, 1 ≤ n → n ≤ 7 → Counted s t (causeField n) p.val 0
        (coveredCycles ((x.causes.filter (fun c => c.field == n)).map (causeSpan x.holdStart)))) ∧
      (∀ k, k ≠ p.val → t.part k = s.part k) ∧ Only [.registers, .parts] s t)) ∧
  (∀ (p : PartId) (cause : Fin 7) (s : State),
    let beyond := (s.part p.val).held = true ∧ ∃ c ∈ (s.part p.val).causes, c.field = cause.val + 1 ∧
      ∀ n, c.length = some n → aCycles s < c.since + n
    (beyond → ∃ t, exec (.holdLimitReport p cause) s = .next t ∧ Counted s t fRplSchedLimitReports p.val 0 1 ∧
      Only [.registers, .functions] s t) ∧
    (¬ beyond → exec (.holdLimitReport p cause) s = .next s))

/-- REPLAY_DELIVER (R56, R265, R267). A record whose launch and work cycle have not come waits; a recorded write or message lands from
its payload, a mark only moves the log on; a log without a further record ends its replay; a record that cannot be read faults the
context. Parts of it are the model's choice: log entries 95 and 141. -/
def Obligations.Replays : Prop :=
  (∀ (ctx : CtxId) (s : State), (s.ctx ctx.val).replay = none ∨ (s.ctx ctx.val).mode ≠ .active ∨ running s = false →
    exec (.replayDeliver ctx) s = .next s) ∧
  (∀ (ctx : CtxId) (s : State) (g : Log), (s.ctx ctx.val).replay = some g → (s.ctx ctx.val).mode = .active → running s = true →
    let r := readBytes s (g.base + g.pos) 64
    let data := readBytes s (g.base + g.pos + 64) (min (fieldAt r 48 4) (64 * fieldAt r 6 2))
    let clean := Clean s [(g.base + g.pos, 64 + data.length)]
    let alone := ∀ x ∈ s.host.commands, x.kind ≠ .rplReplay ctx.val
    let past (t : State) (seq : Nat) : Prop := (t.ctx ctx.val).replay = none ∨
      (t.ctx ctx.val).replay = some { g with pos := g.pos + 64 + 64 * fieldAt r 6 2, seq := seq }
    (logEnds s g g.pos = true →
      (∃ t, exec (.replayDeliver ctx) s = .next t ∧ (t.ctx ctx.val).replay = none) ∧
      (alone → ∃ t, exec (.replayDeliver ctx) s = .next t ∧ t.ctx ctx.val = { s.ctx ctx.val with replay := none } ∧
        (∀ k, k ≠ ctx.val → t.ctx k = s.ctx k) ∧ Only [.ctxs] s t)) ∧
    (logEnds s g g.pos = false → recordDue s (s.ctx ctx.val).part r = false → exec (.replayDeliver ctx) s = .next s) ∧
    (logEnds s g g.pos = false → recordDue s (s.ctx ctx.val).part r = true →
      (∃ t, exec (.replayDeliver ctx) s = .next t) ∧
      (¬ clean → ∃ t, exec (.replayDeliver ctx) s = .next t ∧ Faulted t ctx.val 6) ∧
      (clean → alone → (s.ctx ctx.val).log = none →
        (fieldAt r 0 1 = 6 → ∃ t, exec (.replayDeliver ctx) s = .next t ∧ SameBytes s t ∧ past t g.seq ∧
          Only (readAreas ++ [.ctxs]) s t) ∧
        (fieldAt r 0 1 = 3 →
          (data ≠ [] → inPartition s (s.ctx ctx.val).part (fieldAt r 40 8) data.length = true →
            ∃ t, exec (.replayDeliver ctx) s = .next t ∧ StoredAt s t (fieldAt r 40 8) data ∧ past t (g.seq + 1) ∧
              Only (readAreas ++ [.ctxs]) s t) ∧
          (data = [] ∨ inPartition s (s.ctx ctx.val).part (fieldAt r 40 8) data.length = false →
            ∃ t, exec (.replayDeliver ctx) s = .next t ∧ SameBytes s t ∧ past t (g.seq + 1) ∧ Only (readAreas ++ [.ctxs]) s t)) ∧
        (fieldAt r 0 1 = 4 → data ≠ [] → inPartition s (s.ctx ctx.val).part (fieldAt r 40 8) data.length = true →
          blockAtAddr s ctx.val (fieldAt r 40 8) data.length = none → 16383 < fieldAt r 56 4 →
          ∃ t, exec (.replayDeliver ctx) s = .next t ∧ StoredAt s t (fieldAt r 40 8) data ∧ past t (g.seq + 1) ∧
            Only (readAreas ++ [.ctxs]) s t))))

/-- CONTEXT_TEARDOWN and DRAIN_TIMER_EXPIRY (R375, R394, R423, R424). The stopped work of a STOPPING context takes it to DRAINING: its
regions, tallies and queues are gone, its index keeps generation, owner and cause; the expiry of its timer frees the index. Parts of
it are the model's choice: log entry 96. -/
def Obligations.Teardown : Prop :=
  (∀ (c : CtxId) (s : State), (s.ctx c.val).mode ≠ .stopping ∨ ctxIdle s c.val = false → exec (.contextTeardown c) s = .next s) ∧
  (∀ (c : CtxId) (s : State), (s.ctx c.val).mode ≠ .draining → exec (.drainTimerExpiry c) s = .next s) ∧
  (∀ (c : CtxId) (s : State), (s.ctx c.val).mode = .stopping → ctxIdle s c.val = true →
    ∃ u, exec (.contextTeardown c) s = .next (settle u) ∧ (u.ctx c.val).mode = .draining ∧
      (u.ctx c.val).gen = (s.ctx c.val).gen ∧ (u.ctx c.val).owner = (s.ctx c.val).owner ∧
      (u.ctx c.val).cause = (s.ctx c.val).cause ∧
      (∀ r, (s.region r).present = true → (s.region r).ctx = c.val → u.region r = { gen := (s.region r).gen + 1 }) ∧
      (∀ r, (s.region r).ctx ≠ c.val → u.region r = s.region r) ∧
      (∀ k, (s.tally k).present = true → (s.tally k).ctx = c.val → (u.tally k).present = false) ∧
      (∀ q, (s.queue q).present = true → (s.queue q).ctx = some c.val → (u.queue q).present = false)) ∧
  (∀ (c : CtxId) (s : State), (s.ctx c.val).mode = .draining →
    ∃ u, exec (.drainTimerExpiry c) s = .next (settle u) ∧ u.ctx c.val = { gen := (s.ctx c.val).gen } ∧
      (∀ k, k ≠ c.val → u.ctx k = s.ctx k) ∧ Only [.ctxs, .queues, .tallies, .parts] s u)

/-- PARTITION_FATAL, PARTITION_RESET_DONE and SCRUB_COMPLETE (R390, R393, R420, R421). A fatal cause stops every context of its
partition with cause 0x13 and begins a reset, which clears tensors, gates, units, schedule and Loam; a scrub zeroes the sections'
HBM and Loam, writes its handover record, releases the functions, and ends the handover or the destruction. Parts of it are the
model's choice: log entries 97 and 98. -/
def Obligations.PartitionResets : Prop :=
  (∀ (sec : Sec) (cause : PartFatal) (s : State),
    (secPart s sec.val = none → exec (.partitionFatal sec cause) s = .next s) ∧
    (∀ p, secPart s sec.val = some p → ((s.part p).stage ≠ .none ∨ (s.part p).mode = .blocked) →
      ∃ t, exec (.partitionFatal sec cause) s = .next t ∧ (fatalAfter cause = .blocked → (t.part p).afterReset = .blocked) ∧
        (∀ k, k ≠ p → t.part k = s.part k) ∧ Only [.parts] s t) ∧
    (∀ p, secPart s sec.val = some p → (s.part p).stage = .none → (s.part p).mode = .active →
      ∃ t, exec (.partitionFatal sec cause) s = .next t ∧ (t.part p).stage = .resetting ∧
        ∀ c, (s.ctx c).mode = .active → (s.ctx c).part = p → Faulted t c 0x13)) ∧
  (∀ (p : PartId) (s : State), (s.part p.val).stage ≠ .resetting ∨ (partCtxs s p.val).any (fun c => (s.ctx c).mode == .stopping) = true →
    exec (.partitionResetDone p) s = .next s) ∧
  (∀ (p : PartId) (s : State), (s.part p.val).stage = .resetting →
    (partCtxs s p.val).all (fun c => (s.ctx c).mode != .stopping) = true →
    ((s.part p.val).mode = .handover → ∃ t, exec (.partitionResetDone p) s = .next t ∧ (t.part p.val).stage = .testing) ∧
    ((s.part p.val).mode = .destroying → (s.part p.val).isSealed = true →
      ∃ t, exec (.partitionResetDone p) s = .next t ∧ (t.part p.val).stage = .scrubbing) ∧
    ((s.part p.val).mode = .destroying → (s.part p.val).isSealed = false →
      ∃ u, exec (.partitionResetDone p) s = .next (settle u) ∧ u.part p.val = {} ∧
        (∀ f, f < 64 → (s.fn f).part = some p.val → (u.fn f).part = none))) ∧
  (∀ (p : PartId) (s : State), (s.part p.val).stage = .resetting → (s.part p.val).mode = .active →
    (partCtxs s p.val).all (fun c => (s.ctx c).mode != .stopping) = true →
    ∃ u, exec (.partitionResetDone p) s = .next (settle u) ∧ (u.part p.val).mode = (s.part p.val).afterReset ∧
      (u.part p.val).stage = .none ∧ (u.part p.val).table = none ∧ (u.part p.val).held = false ∧ (u.part p.val).causes = [] ∧
      (∀ g, g < 64 → (u.gate p.val g).present = false) ∧ (∀ id, id < 2 ^ 32 → (u.tensor p.val id).present = false) ∧
      (∀ k, k / 12 ∈ maskSecs (s.part p.val).mask → u.core k = {}) ∧
      (∀ n a, n ∈ maskSecs (s.part p.val).mask → loamAddr n 0 ≤ a → a < loamAddr n 0 + loamBytes → memByte u a = 0)) ∧
  (∀ (p : PartId) (s : State), (s.part p.val).stage ≠ .scrubbing → exec (.scrubComplete p) s = .next s) ∧
  (∀ (p : PartId) (s : State), (s.part p.val).stage = .scrubbing →
    ((s.part p.val).mode ≠ .destroying → ∃ u, exec (.scrubComplete p) s = .next (settle u) ∧
      (u.part p.val).mode = (if (s.part p.val).mismatch then .blocked else .active) ∧ (u.part p.val).stage = .none ∧
      (u.part p.val).handovers = min ((s.part p.val).handovers + 1) (2 ^ 32 - 1) ∧
      u.flash.handovers = min (s.flash.handovers + 1) (2 ^ 32 - 1) ∧
      u.flash.handoverLog = s.flash.handoverLog ++ [handoverRecord { s with flash := { s.flash with
        handovers := min (s.flash.handovers + 1) (2 ^ 32 - 1) } } p.val (toBit (s.part p.val).mismatch)] ∧
      (∀ f, f < 64 → (s.fn f).part = some p.val → (u.fn f).part = none) ∧
      (∀ n a, n ∈ maskSecs (s.part p.val).mask → n * sectionHbm ≤ a → a < (n + 1) * sectionHbm → memByte u a = 0)) ∧
    ((s.part p.val).mode = .destroying → ∃ u, exec (.scrubComplete p) s = .next (settle u) ∧ u.part p.val = {} ∧
      u.flash.handoverLog = s.flash.handoverLog ++ [handoverRecord s p.val 2] ∧
      (∀ f, f < 64 → (s.fn f).part = some p.val → (u.fn f).part = none) ∧
      (∀ n a, n ∈ maskSecs (s.part p.val).mask → n * sectionHbm ≤ a → a < (n + 1) * sectionHbm → memByte u a = 0)))

/-- GRAVEL_SLICE_START, GRAVEL_SLICE_END, GRAVEL_SLICE_ABANDON and WITNESS_SLICE (R245, R453 to R459). A section's next slice, owed or
in order, starts on its idle unit once its corner holds, waits one period for it, and then runs at the nominal corner; in Winter it
runs in a window of its own, and is missed where none is long enough; its end frees the unit, and a mismatch is counted as
transient, or as a mismatch with 10,000 points where it repeats, and is run again; a waiting latency-critical slot takes the unit
back; a matching slice brings an offline witness back. Parts of it are the model's choice: log entry 104. -/
def Obligations.GravelSlices : Prop :=
  (∀ (sec : Sec) (a b : Half) (s : State),
    let i := Instr.gravelSliceStart sec a b
    let g := s.gravel sec.val
    let x := match g.owed with
      | e :: _ => (e.1, e.2, false)
      | [] => (s.fld fHltGravelPosNext sec.val 0, rotationCorner s sec.val, true)
    let j := x.1
    let core := 12 * sec.val + (sliceUnit j).2.1
    let may := sliceSection s sec.val && g.running.isNone && !g.witnessSlice && s.fld fHltGravelCfgCorners sec.val 0 != 0
    let room := !(inWinter s sec.val) || sliceWindow s sec.val j
    (may = false → exec i s = .next s) ∧
    (may = true → room = false → ∃ t, exec i s = .next t ∧ Counted s t fHltGravelCornerMissed sec.val 0 1 ∧
      Only [.care, .registers] s t) ∧
    (may = true → room = true → (sliceReady s sec.val j && sliceNow s sec.val j) = false → exec i s = .next s) ∧
    (may = true → room = true → (sliceReady s sec.val j && sliceNow s sec.val j) = true →
      let holds := cornerHolds s sec.val x.2.1 a.toNat b.toNat
      (holds = true ∨ g.waited = true → ∃ t, exec i s = .next t ∧
        t.gravel sec.val = { g with
          running := some (j, if holds then x.2.1 else 0), inOrder := x.2.2, waited := false, witnessSlice := (sliceUnit j).1 == 4,
          owed := g.owed.tail } ∧
        ((sliceUnit j).1 ≠ 4 → coreUnit t core (sliceUnit j).2.2 = .gravel) ∧
        (holds = false → Counted s t fHltGravelCornerMissed sec.val 0 1) ∧ (∀ k, k ≠ core → t.core k = s.core k) ∧
        Only [.care, .cores, .registers] s t) ∧
      (holds = false → g.waited = false → ∃ t, exec i s = .next t ∧ t.gravel sec.val = { g with waited := true } ∧
        Only [.care] s t))) ∧
  (∀ (sec : Sec) (signature again : Word32) (cond : Cond) (s : State),
    ((s.gravel sec.val).running = none → exec (.gravelSliceEnd sec signature again cond) s = .next s ∧
      exec (.gravelSliceAbandon sec) s = .next s) ∧
    (∀ j corner, (s.gravel sec.val).running = some (j, corner) →
      let want := Config.gravelSignature (sliceUnit j).1 (sliceUnitNum j) corner
      let core := 12 * sec.val + (sliceUnit j).2.1
      let unit := if (sliceUnit j).1 = 4 then huSection sec.val else huCore core
      ∃ t, exec (.gravelSliceEnd sec signature again cond) s = .next t ∧ (t.gravel sec.val).running = none ∧
        ((sliceUnit j).1 ≠ 4 → coreUnit t core (sliceUnit j).2.2 = .idle) ∧ Counted s t fHltGravelPosSlicesRun sec.val 0 1 ∧
        (signature = want → t.fld fHltGravelMismatch sec.val 0 = s.fld fHltGravelMismatch sec.val 0 ∧
          t.fld fHltGravelTransient sec.val 0 = s.fld fHltGravelTransient sec.val 0) ∧
        (signature ≠ want → again = want → Counted s t fHltGravelTransient sec.val 0 1) ∧
        (signature ≠ want → again ≠ want → Counted s t fHltGravelMismatch sec.val 0 1 ∧
          (t.health unit).score = min ((s.health unit).score + 10000) (2 ^ 32 - 1)) ∧
        (signature ≠ want → (j, corner) ∈ (t.gravel sec.val).next ++ (t.gravel sec.val).owed) ∧
        Only [.care, .cores, .registers, .functions] s t)) ∧
  (∀ (sec : Sec) (s : State) (j corner : Nat), (s.gravel sec.val).running = some (j, corner) →
    let core := 12 * sec.val + (sliceUnit j).2.1
    let must := !(inWinter s sec.val) && (sliceUnit j).1 != 4 && criticalReady s core
    (must = false → exec (.gravelSliceAbandon sec) s = .next s) ∧
    (must = true → ∃ t, exec (.gravelSliceAbandon sec) s = .next t ∧ (t.gravel sec.val).running = none ∧
      coreUnit t core (sliceUnit j).2.2 = .idle ∧ Counted s t fHltGravelAbandoned sec.val 0 1 ∧
      Only [.care, .cores, .registers] s t)) ∧
  (∀ (sec : Sec) (signature again : Word32) (s : State),
    let i := Instr.witnessSlice sec signature again
    let want := Config.gravelSignature 4 0 0
    let may := sliceSection s sec.val && s.fld fNumCfgWitOffline sec.val 0 != 0 && (s.gravel sec.val).running.isNone && sliceNow s sec.val 84
    (may = false → exec i s = .next s) ∧
    (may = true →
      (signature = want → ∃ t, exec i s = .next t ∧
        t.fld fNumCfgWitOffline sec.val 0 = 0 ∧ Counted s t fHltGravelPosSlicesRun sec.val 0 1 ∧ Only [.registers] s t) ∧
      (signature ≠ want → again = want → ∃ t, exec i s = .next t ∧
        t.fld fNumCfgWitOffline sec.val 0 = s.fld fNumCfgWitOffline sec.val 0 ∧ Counted s t fHltGravelTransient sec.val 0 1 ∧
        Only [.registers, .care, .draws] s t) ∧
      (signature ≠ want → again ≠ want → ∃ t, exec i s = .next t ∧
        t.fld fNumCfgWitOffline sec.val 0 = s.fld fNumCfgWitOffline sec.val 0 ∧
        Counted s t fHltGravelMismatch sec.val 0 1 ∧
        (t.health (huSection sec.val)).score = min ((s.health (huSection sec.val)).score + 10000) (2 ^ 32 - 1) ∧
        Only [.registers, .functions, .care, .draws] s t)))

/-- ARBITER_PERIOD, CLOCK_SLEW_END, EMERGENCY_HOLD and MGMT_CAP_SET (R461 to R466, R468, R482). A control period applies the caps
written since the last one, raises the level of each section that draws more than its share and loan and lowers the others by one,
ends the emergency hold, and starts no change of clock level while a Winter partition exists; a slew ends at its target; a cap in
range is accepted. Parts of it are the model's choice: log entries 106 and 107. -/
def Obligations.PowerControl : Prop :=
  (∀ (m : PowerMeas) (s : State), running s = false →
    exec (.arbiterPeriod m) s = .next s ∧ exec .clockSlewEnd s = .next s ∧ exec .emergencyHold s = .next s) ∧
  (∀ (m : PowerMeas) (s : State), running s = true →
    let cap := (effectiveCap (applyCaps s) m.inputMv).1
    ∃ t, exec (.arbiterPeriod m) s = .next t ∧ t.fld fPwrStatusCapW 0 0 = cap % 2 ^ 16 ∧ t.fld fPwrStatusEmergency 0 0 = 0 ∧
      t.fld fPwrStatusInputW 0 0 = m.inputW % 2 ^ 16 ∧
      (∀ n, n < 8 → t.fld fPwrSectionHold n 0 = if overShare cap m n then
        min 15 (s.fld fPwrSectionHold n 0 + m.steps.getD n 0) else s.fld fPwrSectionHold n 0 - 1) ∧
      t.power.pendingHostCap = none ∧ t.power.pendingMgmtCap = none ∧
      (anyWinter s = true → t.raw ⟨.clkStatus, 0, 0⟩ = s.raw ⟨.clkStatus, 0, 0⟩) ∧ Only [.registers, .power] s t) ∧
  (∀ s : State, running s = true → s.fld fClkStatusSlewing 0 0 = 1 → ∃ t, exec .clockSlewEnd s = .next t ∧
    t.fld fClkStatusLevel 0 0 = s.fld fClkStatusTarget 0 0 ∧ t.fld fClkStatusSlewing 0 0 = 0 ∧
    t.fld fClkStatusRootMhz 0 0 = rootMhz (s.fld fClkStatusTarget 0 0) ∧ Counted s t fPwrThrottleLevelChanges 0 0 1 ∧
    Only [.registers, .power] s t) ∧
  (∀ s : State, running s = true →
    (s.fld fPwrStatusEmergency 0 0 = 0 → ∃ t, exec .emergencyHold s = .next t ∧ t.fld fPwrStatusEmergency 0 0 = 1 ∧
      Counted s t fPwrThrottleEmergencyEvents 0 0 1 ∧ Only [.registers] s t) ∧
    (s.fld fPwrStatusEmergency 0 0 = 1 → exec .emergencyHold s = .next s)) ∧
  (∀ (w : Nat) (s : State), running s = true → 5000000 ≤ s.now → moduleState s ≠ 2 →
    (1500 ≤ w → w ≤ 4400 → ∃ t, exec (.mgmtCapSet w) s = .next t ∧ t.power = { s.power with pendingMgmtCap := some w } ∧
      t.out.mgmt = .accepted ∧ Only [.power, .out] s t) ∧
    (w < 1500 ∨ 4400 < w → ∃ t, exec (.mgmtCapSet w) s = .next t ∧ t.out.mgmt = .rejected ∧ Only [.out] s t)) ∧
  (∀ (w : Nat) (s : State), (running s = false ∨ s.now < 5000000 → exec (.mgmtCapSet w) s =
      .next { s with out := { s.out with mgmt := .silent } }) ∧
    (running s = true → 5000000 ≤ s.now → moduleState s = 2 → exec (.mgmtCapSet w) s =
      .next { s with out := { s.out with mgmt := .notReady } }))

/-- SENSOR_READ and SUPPLY_TRIP (R67, R470, R473, R488). A round of readings without a trip is kept for the next one and sets a stack's
refresh to double rate where two rounds in a row read more than 85 °C; a thermal or supply trip turns the module off with its record
in flash, and an input within 38 V to 62 V trips nothing. Parts of it are the model's choice: log entries 108 and 109. -/
def Obligations.SensorsAndTrips : Prop :=
  (∀ (dies : List Half) (temps : List Byte) (kind : SupplyTripKind) (mV : Nat) (recorded : Bool) (s : State), running s = false →
    exec (.sensorRead dies temps) s = .next s ∧ exec (.supplyTrip kind mV recorded) s = .next s) ∧
  (∀ (dies : List Half) (temps : List Byte) (s : State), running s = true →
    (thermalTrip s dies temps = none → ∃ t, exec (.sensorRead dies temps) s = .next t ∧ t.power.dieLast = dies ∧
      t.power.stackLast = temps ∧ t.power.hot = (upTo 8).filter (sectionHot s dies temps) ∧
      (∀ g a b, g < 24 → s.power.stackLast[g]? = some a → temps[g]? = some b → 85 < a.toNat → 85 < b.toNat →
        t.fld fHbmStatusRefDouble (g / 3) (g % 3) = 1) ∧ Only [.registers, .functions, .care, .power] s t) ∧
    (∀ w, thermalTrip s dies temps = some w → ∃ t, exec (.sensorRead dies temps) s = .next t ∧ t.module.off = true ∧
      t.module.thermTrip = true ∧ t.flash = { s.flash with trip := w } ∧ t.regs = [] ∧ t.mem = {} ∧ t.hostMem = s.hostMem)) ∧
  (∀ (mV : Nat) (recorded : Bool) (s : State), running s = true →
    (mV < 38000 → ∃ t, exec (.supplyTrip .under mV recorded) s = .next t ∧ t.module.off = true ∧ t.module.thermTrip = true ∧
      t.flash = (if recorded then { s.flash with trip := tripWord s 3 0 mV } else s.flash) ∧ t.mem = {}) ∧
    (62000 < mV → ∃ t, exec (.supplyTrip .over mV recorded) s = .next t ∧ t.module.off = true ∧ t.module.thermTrip = true ∧
      t.flash = (if recorded then { s.flash with trip := tripWord s 4 0 mV } else s.flash) ∧ t.mem = {}) ∧
    (∃ t, exec (.supplyTrip .rail mV recorded) s = .next t ∧ t.module.off = true ∧ t.module.thermTrip = true) ∧
    (38000 ≤ mV → exec (.supplyTrip .under mV recorded) s = .next s) ∧
    (mV ≤ 62000 → exec (.supplyTrip .over mV recorded) s = .next s))

/-- PLDM_FIRMWARE_UPDATE, PLDM_SENSOR_READ and MCTP_CONTROL (R435, R443, R444, R474, R475, R481, R482). From 5 ms the endpoint answers:
it stages an image that the root of trust accepts and rejects any other, gives a sensor's value, and answers a control message with
contents that the spec leaves open (log entry 9); before, it is silent. Parts of it are the model's choice: log entries 110 and 111. -/
def Obligations.ManagementEndpoint : Prop :=
  (∀ (image : FwImage) (s : State), mctpUp s = true →
    (imageGood s.flash image = true → ∃ t, exec (.pldmFirmwareUpdate image) s = .next t ∧
      t.flash = { s.flash with fwStaged := some image } ∧ t.out.mgmt = .accepted ∧ Only [.fuses, .out] s t) ∧
    (imageGood s.flash image = false → ∃ t, exec (.pldmFirmwareUpdate image) s = .next t ∧ t.out.mgmt = .rejected ∧
      Only [.out] s t)) ∧
  (∀ s : State, mctpUp s = true → (s.module.cfgReady = true ∨ 200000000 ≤ s.now) →
    (∃ t, exec (.pldmSensorRead .inputPower) s = .next t ∧ t.out.mgmt = .value (s.fld fPwrStatusInputW 0 0) ∧ Only [.out] s t) ∧
    (∃ t, exec (.pldmSensorRead .inputVoltage) s = .next t ∧ t.out.mgmt = .value (s.fld fPwrStatusInputMv 0 0) ∧ Only [.out] s t) ∧
    (∃ t, exec (.pldmSensorRead .effectiveCap) s = .next t ∧ t.out.mgmt = .value (s.fld fPwrStatusCapW 0 0) ∧ Only [.out] s t) ∧
    (∀ n, moduleState s ≠ 2 → ∃ t, exec (.pldmSensorRead (.sectionTemp n)) s = .next t ∧
      t.out.mgmt = .value (BitVec.ofNat 16 (s.fld fThmSectionHottest n.val 0)).toInt ∧ Only [.out] s t) ∧
    (∀ n, moduleState s = 2 → s.module.grants < 2 + n.val → ∃ t, exec (.pldmSensorRead (.sectionTemp n)) s = .next t ∧
      t.out.mgmt = .initializing ∧ Only [.out] s t) ∧
    (∃ t k, exec (.pldmSensorRead .moduleState) s = .next t ∧ t.out.mgmt = .state (moduleState s) k ∧
      (∀ u, u < 193 → healthLevel s u ≤ k) ∧ Only [.out] s t)) ∧
  (∀ (item : PldmItem) (s : State), mctpUp s = true → s.module.cfgReady = false → s.now < 200000000 →
    ∃ t, exec (.pldmSensorRead item) s = .next t ∧ t.out.mgmt = .notReady ∧ Only [.out] s t) ∧
  (∀ (command : Byte) (data : List Byte) (s : State), mctpUp s = true → ∃ t b, exec (.mctpControl command data) s = .next t ∧
    t.out.mgmt = .control command b ∧ Only [.out, .draws] s t) ∧
  (∀ (image : FwImage) (item : PldmItem) (command : Byte) (data : List Byte) (s : State), mctpUp s = false →
    (∃ t, exec (.pldmFirmwareUpdate image) s = .next t ∧ t.out.mgmt = .silent ∧ Only [.out] s t) ∧
    (∃ t, exec (.pldmSensorRead item) s = .next t ∧ t.out.mgmt = .silent ∧ Only [.out] s t) ∧
    (∃ t, exec (.mctpControl command data) s = .next t ∧ t.out.mgmt = .silent ∧ Only [.out] s t))

/-- GET_VERSION to END_SESSION (R476, R477). A connection offers versions 1.2 and 1.3 and agrees on ML-DSA-65 with SHAKE256; from then
on it gives the chain of slot 0, its digest, signed answers and signed measurements, and a session from KEY_EXCHANGE through FINISH
to END_SESSION. That a request before agreement is unexpected is PRESUMED (log entry 112); signatures and random values are opaque.
Parts of it are the model's choice: log entry 113. -/
def Obligations.Attestation : Prop :=
  (∀ (ch : SpdmChan) (s : State) (i : Instr), (∃ v w a h m n x b, i ∈ [.getVersion ch, .getCapabilities ch v, .negotiateAlgorithms ch a h,
      .getDigests ch, .getCertificate ch m n x, .challenge ch m b, .getMeasurements ch m false, .getMeasurements ch m true,
      .keyExchange ch m w b, .finish ch false, .finish ch true, .endSession ch]) →
    chanUp s ch = false → ∃ t, exec i s = .next t ∧ t.out.spdm = .none ∧ Only [.out] s t) ∧
  (∀ (ch : SpdmChan) (s : State) (i : Instr), (∃ v m n x b, i ∈ [.getDigests ch, .getCertificate ch m n x, .challenge ch m b,
      .getMeasurements ch m false, .getMeasurements ch m true, .keyExchange ch m v b, .finish ch false, .finish ch true, .endSession ch]) →
    chanUp s ch = true → (s.spdm (chanKey ch)).algorithms = false →
    ∃ t, exec i s = .next t ∧ t.out.spdm = .error .unexpectedRequest ∧ Only [.out] s t) ∧
  (∀ (ch : SpdmChan) (s : State) (v : Byte), chanUp s ch = true → v ≠ 0x12 → v ≠ 0x13 →
    ∃ t, exec (.getCapabilities ch v) s = .next t ∧ t.out.spdm = .error .versionMismatch ∧ Only [.out] s t) ∧
  (∀ (ch : SpdmChan) (s : State) (m n x : Nat) (v : Half) (b : List Byte) (i : Instr), chanUp s ch = true →
    (s.spdm (chanKey ch)).algorithms = true → m ≠ 0 → i ∈ [.getCertificate ch m n x, .challenge ch m b, .keyExchange ch m v b] →
    ∃ t, exec i s = .next t ∧ t.out.spdm = .error .invalidRequest ∧ Only [.out] s t) ∧
  (∀ (ch : SpdmChan) (s : State), chanUp s ch = true →
    (∃ t, exec (.getVersion ch) s = .next t ∧ t.out.spdm = .version [0x12, 0x13] ∧ t.spdm (chanKey ch) = {} ∧
      Only [.security, .out] s t) ∧
    (∀ v, v = 0x12 ∨ v = 0x13 → ∃ t, exec (.getCapabilities ch v) s = .next t ∧ t.out.spdm = .capabilities v ∧
      t.spdm (chanKey ch) = { s.spdm (chanKey ch) with version := v } ∧ Only [.security, .out] s t) ∧
    (∀ a h, (s.spdm (chanKey ch)).version ≠ 0 →
      (0x4B44 ∈ a → 0x4B53 ∈ h → ∃ t, exec (.negotiateAlgorithms ch a h) s = .next t ∧ t.out.spdm = .algorithms 0x4B44 0x4B53 ∧
        t.spdm (chanKey ch) = { s.spdm (chanKey ch) with algorithms := true } ∧ Only [.security, .out] s t) ∧
      (0x4B44 ∉ a ∨ 0x4B53 ∉ h → ∃ t, exec (.negotiateAlgorithms ch a h) s = .next t ∧
        t.out.spdm = .error .noCommonAlgorithm ∧ Only [.out] s t)) ∧
    ((s.spdm (chanKey ch)).algorithms = true →
      (∃ t, exec (.getDigests ch) s = .next t ∧ t.out.spdm = .digests (Config.shake256 (certChain s)) ∧ Only [.out] s t) ∧
      (∀ off len, ∃ t, exec (.getCertificate ch 0 off len) s = .next t ∧ t.out.spdm =
        (if off < (certChain s).length then .certificate (((certChain s).drop off).take len) ((certChain s).length - off - len)
         else .error .invalidRequest) ∧ Only [.out] s t) ∧
      (∀ nonce, ∃ t b, exec (.challenge ch 0 nonce) s = .next t ∧ t.out.spdm = .signed b (Config.sign (nonce ++ b)) ∧
        b.take 64 = digestBytes (Config.shake256 (certChain s)) ∧ Only [.security, .out] s t) ∧
      (∀ index raw l, measureList s raw (measureIndices s index) = l → l ≠ [] →
        ∃ t sig, exec (.getMeasurements ch index raw) s = .next t ∧ t.out.spdm = .measurements l sig ∧ Only [.security, .out] s t) ∧
      (∀ id exchange, ∃ t key, exec (.keyExchange ch 0 id exchange) s = .next t ∧
        t.out.spdm = .key key (Config.sign (exchange ++ key)) ∧
        t.spdm (chanKey ch) = { s.spdm (chanKey ch) with session := some id, finished := false } ∧ Only [.security, .out] s t) ∧
      (∀ id, (s.spdm (chanKey ch)).session = some id → (s.spdm (chanKey ch)).finished = false →
        (∃ t, exec (.finish ch true) s = .next t ∧ t.out.spdm = .ok ∧
          t.spdm (chanKey ch) = { s.spdm (chanKey ch) with finished := true } ∧ Only [.security, .out] s t) ∧
        (∃ t, exec (.finish ch false) s = .next t ∧ t.out.spdm = .error .decryptError ∧
          t.spdm (chanKey ch) = { s.spdm (chanKey ch) with session := none } ∧ Only [.security, .out] s t)) ∧
      ((s.spdm (chanKey ch)).finished = true → ∃ t, exec (.endSession ch) s = .next t ∧ t.out.spdm = .ok ∧
        t.spdm (chanKey ch) = { s.spdm (chanKey ch) with session := none, finished := false } ∧ Only [.security, .out] s t)))

/-- DEBUG_TOKEN and the TAP (R479, R480). A token for this module and this start, with a known level and a good signature, sets the
debug level where no sealed partition exists, never below what it was; with a sealed partition it is rejected. BYPASS, IDCODE and
SAMPLE drive no pin; EXTEST takes the pins only while the module starts and no firmware has started, else it acts as BYPASS. Parts
of it are the model's choice: log entries 115 and 116. -/
def Obligations.DebugAccess : Prop :=
  (∀ (level : Byte) (ok : Bool) (version : Byte) (id : BitVec 48) (nonce : BitVec 256) (s : State), mctpUp s = true →
    (anySealed s = true → ∃ t, exec (.debugToken version level id nonce ok) s = .next t ∧ t.out.mgmt = .rejected ∧
      Only [.out] s t) ∧
    (anySealed s = false → 1 ≤ level.toNat → level.toNat ≤ 3 →
      ∃ t, exec (.debugToken 0x10 level Config.moduleId (Config.debugNonce s.security.starts) true) s = .next t ∧
        t.security = { s.security with debugLevel := max s.security.debugLevel level.toNat } ∧ t.out.mgmt = .accepted ∧
        Only [.security, .out] s t) ∧
    (ok = false → ∃ t, exec (.debugToken version level id nonce ok) s = .next t ∧ t.out.mgmt = .rejected ∧ Only [.out] s t)) ∧
  (∀ (s : State), s.module.powered = true →
    (∃ t, exec .tapBypass s = .next t ∧ t.security = { s.security with tapInstr := .bypass, tapDrives := false } ∧
      Only [.security, .out] s t) ∧
    (∃ t, exec .tapIdcode s = .next t ∧ t.security = { s.security with tapInstr := .idcode, tapDrives := false } ∧
      t.out.tap = Config.tapIdcode ∧ Only [.security, .out] s t) ∧
    (∀ sampled preload, ∃ t, exec (.tapSamplePreload sampled preload) s = .next t ∧ t.security = { s.security with
      tapInstr := .sample, tapDrives := false, tapCapture := sampled, tapCells := preload } ∧ Only [.security, .out] s t) ∧
    (moduleState s = 2 → s.module.fwVerified = false → ∃ t, exec .tapExtest s = .next t ∧
      t.security = { s.security with tapInstr := .extest, tapDrives := true } ∧ Only [.security, .out] s t) ∧
    (moduleState s ≠ 2 ∨ s.module.fwVerified = true → ∃ t, exec .tapExtest s = .next t ∧
      t.security = { s.security with tapInstr := .bypass, tapDrives := false } ∧ Only [.security, .out] s t))

/-- In every state that meets the invariant, a step that gives a next state keeps it: memory stays in canonical form, and no firmware
image stands in flash that the root of trust would refuse (R474, R475). The commands that wait are the rest of the queue, in order; the
count of free values drawn never falls; the fused minimum version never falls, and the revocation fuses stay. -/
def Obligations.StepKeepsInvariant : Prop :=
  ∀ s t : State, Inv s → step s = .next t →
    Inv t ∧ t.pending = s.pending.tail ∧ s.freeCtr ≤ t.freeCtr ∧ s.flash.minSvn ≤ t.flash.minSvn ∧
      t.flash.revoked = s.flash.revoked

/-- The state after reset meets the invariant and has no command waiting: no object exists, no function has a session, and the registers
whose reset values the spec gives read them (R17, R72, R168, R221, R298, R327, R343, R359, R439, R459, R484). That the firmware part of the
invariant holds rests on the flash's contents at reset, which are the model's choice (log entry 3). -/
def Obligations.ResetMeetsInvariant : Prop :=
  Inv State.reset ∧ State.reset.pending = [] ∧ (∀ p, (State.reset.part p).present = false) ∧
    (∀ c, (State.reset.ctx c).mode = .free) ∧ (∀ q, (State.reset.queue q).present = false) ∧
    (∀ f, (State.reset.fn f).session = none) ∧
    (∀ i j, ∀ e ∈ ([(fLoamCfgPartition, 0xFF), (fLoamScrubPeriod, 3600), (fCoreWdogWaitLimit, 100000), (fNumCfgWitK, 10),
      (fNumCfgWitEnable, 1), (fLnkStatusPartition, 0xFF), (fLnkCfgFenceLimit, 16), (fLnkCfgEpochGrace, 2), (fCollWaitWaitLimit, 100000),
      (fMbxInStatusNotReady, 1), (fMbxInStatusFull, 0), (fMbxInAckValid, 0), (fIdentVendorDevice, 0x4824), (fIdentVersionsCaocoMax, 0x10),
      (fIdentVersionsCaocoMin, 0x10), (fIdentCapsSections, 0xFF), (fFltStatusModuleState, 2), (fFltEscCfgWindow, 600),
      (fFltEscCfgCtxLimit, 16), (fFltEscCfgPartLimit, 3), (fHltGravelCfgPeriod, 10), (fHltGravelCfgCorners, 0x1F), (fPwrStatusCapW, 4400),
      (fPwrCapMgmtCap, 4400), (fPwrCapHostCap, 4400), (fClkStatusRootMhz, 5200), (fThmCfgStackTrip, 105), (fThmCfgStackThrottle, 95),
      (fThmCfgDieTrip, 110), (fThmCfgDieRelease, 92), (fThmCfgDieThrottle, 95), (fThmSectionHottest, 0x8000),
      (fThmSensorSensor0, 0x8000)] : List (RField × Nat)), State.reset.fld e.1 i j = e.2)

/-- A step with a command at the front of the queue is that command's effect on the state with the rest of the queue; on an empty queue one
cycle of the reference clock passes if the module has left reset, and then what waited for it goes on; else nothing happens: the model's choice
for that step (log entry 1). -/
def Obligations.StepRunsTheFrontCommand : Prop :=
  (∀ (c : Instr) (rest : List Instr) (s : State), s.pending = c :: rest → step s = exec c { s with pending := rest }) ∧
  (∀ s : State, s.pending = [] → (s.module.powered && !s.module.off && s.module.released) = true →
    ∃ u t, step s = .next t ∧ t = collResume (settle (serveLinks (servePort u))) ∧ t.pending = [] ∧
      u.now = s.now + 10 ∧ u.module.rootCycles = s.module.rootCycles + rootPerRef (s.fld fClkStatusLevel 0 0) ∧
      u.links = s.links ∧ u.objs.tensors = s.objs.tensors ∧ u.mem = s.mem) ∧
  (∀ s : State, s.pending = [] → (s.module.powered && !s.module.off && s.module.released) = false → step s = .next s)

/-- Every command answers a next state, and changes nothing outside the areas listed for it. The firmware images and the fuses, for one,
change only in resets, trips and firmware updates. Parts of it are the model's choice: log entry 15. -/
def Obligations.CommandsChangeOnlyTheirAreas : Prop :=
  ∀ (i : Instr) (s : State), ∃ t, exec i s = .next t ∧ Only (areasOf i) s t

/-- What comes before every Caoco command's own checks (R362, R369, R433, R444): a function without a session is answered NO_SESSION but
for HELLO and PING; the commands of the mailboxes alone are not permitted on a queue; a module that starts answers NOT_READY, a
fenced one BAD_STATE, but for the commands that R444 and R433 name. A refused command has no effect: what its own refusal names is
published, and no object, register of a unit, context, slot or engine changes. Parts of it are the model's choice: log entry 79. -/
def Obligations.CommandRefusals : Prop :=
  ∀ (i : Instr) (rq : Req) (op : Nat) (args : List Word) (s : State), caocoOf i = some (rq, op, args) →
    let c := cmdOf rq op args
    let b := before rq op args s
    let answered := fun rc => exec i s = .next (answerNow c b rc 0 (namedTag b c))
    ((b.fn rq.fn.val).session = none → op ≠ 0x01 → op ≠ 0x03 → answered 0x13) ∧
    (∀ q pos, (b.fn rq.fn.val).session.isSome = true → rq.via = .queue q pos → op ≤ 0x10 → answered 0x03) ∧
    ((b.fn rq.fn.val).session.isSome = true → (∀ q pos, rq.via = .queue q pos → 0x10 < op) → moduleState b = 2 ∨ moduleState b = 3 →
      op ∉ [0x01, 0x02, 0x03, 0x1F, 0x35, 0x74, 0x75] → answered 0x0E) ∧
    ((b.fn rq.fn.val).session.isSome = true → (∀ q pos, rq.via = .queue q pos → 0x10 < op) → moduleState b = 4 →
      op ∉ [0x01, 0x02, 0x03, 0x1F, 0x19, 0x35, 0x74, 0x75] → answered 0x07) ∧
    ((b.fn rq.fn.val).session.isSome = true → moduleState b ∉ [2, 3, 4] → (∀ q pos, rq.via ≠ .queue q pos) → op ≠ 0x05 → op ≠ 0x06 →
      (∃ k, (b.ctx k).owner = rq.fn.val ∧ (b.ctx k).replay.isSome = true) → answered 0x06) ∧
    (∀ rc, rc ≠ 0 → answered rc → ∃ t, exec i s = .next t ∧
      Only (storeAreas ++ [.queues, .out]) b t ∧
      ((∀ q pos w, rq.via = .queue q pos → (b.queue q.val).cq = some w → isHostAddr w = true) →
        (∀ a, memByte t a = memByte b a) ∧ ∀ a, a.i < 64 → a.j < 1024 → a.reg ∉ [.mbxInAck, .mbxInStatus, .mbxOutWord, .mbxOutStatus] → t.raw a = b.raw a))

/-- Create tokens (R376). A create command whose token is not zero and stands in the list of create tokens, from the same function, with
the same opcode and with its object still there, is answered OK with that create's result and is not executed; every other create comes to
its own checks, and one that makes its object leaves its token in the list. -/
def Obligations.CreateTokens : Prop :=
  ∀ (i : Instr) (rq : Req) (op : Nat) (args : List Word) (s : State), caocoOf i = some (rq, op, args) →
    let c := cmdOf rq op args
    let b := before rq op args s
    gateRc c b = none → op ∈ [0x10, 0x18, 0x20, 0x28, 0x2D, 0x30, 0x48, 0x50, 0x5A, 0x62] →
    (∀ k, b.host.tokens.find? (fun t => t.fn == rq.fn.val && t.opcode == op && t.token == rq.token && tokenLive b t) = some k →
      rq.token ≠ 0 → exec i s = .next (answerNow c b 0 k.result (namedTag b c))) ∧
    (rq.token = 0 ∨ (∀ t ∈ b.host.tokens, t.fn = rq.fn.val → t.opcode = op → t.token = rq.token → tokenLive b t = false) →
      tokenHit b c = none) ∧
    (∀ r u, rq.token ≠ 0 → Answers i rq op args s r u →
      ∃ t, exec i s = .next t ∧ (⟨rq.fn.val, op, rq.token, r⟩ : CreateToken) ∈ t.host.tokens)

/-- How a command's answer is published (R341, R349, R366, R368). An acknowledgement holds VALID, the TAKEN value and the sequence field of its
word and the return code, sets ACK_LOST if it replaces one, and else raises vector 1; a command block in host memory receives the return
code, six zero bytes and the result in its response bytes first; a command queue's completion ring receives its record at the next slot, with the
queue, the tag, the position, the result and the time, and raises the ring's vector. -/
def Obligations.Publications : Prop :=
  (∀ (c : Cmd) (j : Fin 8) (seq : Byte) (rc tag : Nat) (result : Word) (s : State), c.via = .mbx j seq none →
    hasReply c.op = false →
    let t := answerNow c s rc result tag
    t.raw ⟨.mbxInAck, c.fn, j.val⟩ = BitVec.ofNat 64
      (2 ^ 63 + s.fld fMbxInStatusTaken c.fn j.val % 256 * 2 ^ 40 + seq.toNat * 2 ^ 32 + rc % 2 ^ 16) ∧
    (s.fld fMbxInAckValid c.fn j.val = 1 → t.fld fMbxInStatusAckLost c.fn j.val = 1 ∧ t.out = s.out) ∧
    (s.fld fMbxInAckValid c.fn j.val ≠ 1 → t.out.msix = s.out.msix ++ (if (s.fn c.fn).busMaster then [(c.fn, 1)] else [])) ∧
    t.hostMem = s.hostMem ∧ Only [.functions, .registers, .out] s t) ∧
  (∀ (c : Cmd) (j : Fin 8) (seq : Byte) (b rc tag : Nat) (result : Word) (s : State), c.via = .mbx j seq (some b) →
    hasReply c.op = false → rc ≠ 0x0F → (s.fn c.fn).busMaster = true →
    let t := answerNow c s rc result tag
    readHost t (b + 64) 16 = leBytes 2 rc ++ leBytes 6 0 ++ leBytes 8 result.toNat ∧
    (∀ a, a < b + 64 ∨ b + 80 ≤ a → hostByte t a = hostByte s a) ∧
    t.raw ⟨.mbxInAck, c.fn, j.val⟩ = BitVec.ofNat 64
      (2 ^ 63 + s.fld fMbxInStatusTaken c.fn j.val % 256 * 2 ^ 40 + seq.toNat * 2 ^ 32 + rc % 2 ^ 16) ∧
    Only [.functions, .registers, .out, .hostMemory] s t) ∧
  (∀ (c : Cmd) (q : QueueId) (pos : Word32) (rc tag : Nat) (result w : Word) (s : State) (bytes : List Byte), c.via = .queue q pos →
    (s.queue q.val).entries = [⟨pos.toNat, bytes, .running⟩] → (s.queue q.val).recordsAllowed = true → (s.queue q.val).cq = some w →
    cqRoom (s.queue q.val) = true → (isHostAddr w = true → (s.fn (s.queue q.val).fn).busMaster = true) →
    (isHostAddr w = false → argOk s (s.queue q.val).fn (argAddr w + 32 * ((s.queue q.val).produced % (s.queue q.val).m)) 32 true = true) →
    let t := answerNow c s rc result tag
    let x := s.queue q.val
    let slot := 32 * (x.produced % x.m)
    t.queue q.val = { x with entries := [], produced := (x.produced + 1) % 2 ^ 32 } ∧
    readArg t w slot 32 = leBytes 1 1 ++ leBytes 1 (if rc = 0 then 0 else if rc = 0x10 ∨ rc = 0x12 then 1 else if rc = 0x11 then 2 else 3) ++
      leBytes 2 rc ++ leBytes 2 q.val ++ leBytes 2 tag ++ leBytes 4 pos.toNat ++ leBytes 1 0 ++ leBytes 3 0 ++ leBytes 8 result.toNat ++
      leBytes 8 s.now ∧
    t.out.msix = s.out.msix ++ (if (s.fn x.fn).busMaster then [(x.fn, x.vector)] else []) ∧
    Only (storeAreas ++ [.queues, .out]) s t)

/-- A deposit into an inbound mailbox (R339). A write of 64 bits, or of the high half, deposits the word and sets FULL; a write of the low half
alone changes those bits and deposits nothing; a deposit into a full mailbox replaces the held word, sets COLLIDE and is counted. The word
that a take runs afterwards is the one that stands there: the replaced word is never executed. -/
def Obligations.MailboxDeposits : Prop :=
  (∀ (fn : Fn) (j : Fin 8) (lanes : Lanes) (value : Word) (s : State), answers s fn.val = true →
    ∃ t, exec (.mbxInDeposit fn j lanes value) s = .next t ∧
      (∀ i, i < 64 → (t.raw ⟨.mbxInWord, fn.val, j.val⟩).getLsbD i =
        if (match lanes with | .both => true | .low => decide (i < 32) | .high => decide (32 ≤ i)) then value.getLsbD i
        else (s.raw ⟨.mbxInWord, fn.val, j.val⟩).getLsbD i) ∧
      (lanes = .low → ∀ a, regKey a ≠ regKey ⟨.mbxInWord, fn.val, j.val⟩ → t.raw a = s.raw a) ∧
      (lanes ≠ .low → t.fld fMbxInStatusFull fn.val j.val = 1) ∧
      (lanes ≠ .low → s.fld fMbxInStatusFull fn.val j.val = 1 → t.fld fMbxInStatusCollide fn.val j.val = 1 ∧
        Counted s t fMbxInStatusCollisions fn.val j.val 1) ∧
      (lanes ≠ .low → s.fld fMbxInStatusFull fn.val j.val = 0 → t.fld fMbxInStatusCollide fn.val j.val = s.fld fMbxInStatusCollide fn.val j.val ∧
        t.fld fMbxInStatusCollisions fn.val j.val = s.fld fMbxInStatusCollisions fn.val j.val) ∧
      (∀ b, regKey b ≠ regKey ⟨.mbxInWord, fn.val, j.val⟩ → regKey b ≠ regKey ⟨.mbxInStatus, fn.val, j.val⟩ → t.raw b = s.raw b) ∧
      Only [.registers] s t) ∧
  (∀ (fn : Fn) (j : Fin 8) (value : Word) (s : State) (host : List Cell) (readError : Bool) (hits : List Hit), answers s fn.val = true →
    icvarRuns s = true → mbxBusy s fn.val j.val = false →
    ∃ t, exec (.mbxInDeposit fn j .both value) s = .next t ∧
      exec (.mailboxTake fn j host readError none hits) t =
        .next (acceptWord fn.val j value true readError (takeWord fn.val j.val none (hostStores (upsetWords t hits) host))))
end

