-- ==== Sys2Proof/Laws/Tab.lean ====
section
/-! SUPPORT. Laws of tables in canonical form, and that every memory operation keeps the form. -/

namespace Sys2Proof.Machine

/-- The canonical form of a table as a property of its list: keys strictly rising, no entry equal to the default. -/
theorem tabWf_iff {α : Type} [DecidableEq α] (d : α) (t : Tab α) :
    tabWf d t = true ↔ t.Pairwise (fun x y => x.1 < y.1) ∧ ∀ e ∈ t, e.2 ≠ d := by
  induction t with
  | nil => simp [tabWf]
  | cons e t ih =>
    obtain ⟨a, v⟩ := e
    cases t with
    | nil => simp [tabWf]
    | cons e' t =>
      obtain ⟨b, w⟩ := e'
      simp only [tabWf, Bool.and_eq_true, bne_iff_ne, decide_eq_true_eq, ih, List.pairwise_cons, List.mem_cons,
        forall_eq_or_imp]
      constructor
      · rintro ⟨⟨hv, hab⟩, ⟨hb, hp⟩, hw, ht⟩
        exact ⟨⟨⟨hab, fun x hx => hab.trans (hb x hx)⟩, hb, hp⟩, hv, hw, ht⟩
      · rintro ⟨⟨⟨hab, _⟩, hb, hp⟩, hv, hw, ht⟩
        exact ⟨⟨hv, hab⟩, ⟨hb, hp⟩, hw, ht⟩

/-- An empty table is canonical. -/
@[simp] theorem tabWf_nil {α : Type} [DecidableEq α] (d : α) : tabWf d ([] : Tab α) = true := rfl

/-- A part of a canonical table is canonical. -/
theorem tabWf_filter {α : Type} [DecidableEq α] {d : α} {t : Tab α} (p : Nat × α → Bool) (h : tabWf d t = true) :
    tabWf d (t.filter p) = true := by
  rw [tabWf_iff] at h ⊢
  exact ⟨h.1.filter p, fun e he => h.2 e (List.mem_of_mem_filter he)⟩

/-- The members of a table after an insertion. -/
theorem mem_tabInsert {α : Type} (k : Nat) (v : α) (t : Tab α) (e : Nat × α) :
    e ∈ tabInsert k v t ↔ e = (k, v) ∨ e ∈ t := by
  induction t with
  | nil => simp [tabInsert]
  | cons x t ih =>
    obtain ⟨a, w⟩ := x
    simp only [tabInsert]
    split
    · simp only [List.mem_cons]
    · simp only [List.mem_cons, ih]; tauto

/-- Insertion keeps the keys rising where the key is not listed. -/
theorem tabInsert_pairwise {α : Type} (k : Nat) (v : α) (t : Tab α) (h : t.Pairwise (fun x y => x.1 < y.1))
    (hk : ∀ e ∈ t, e.1 ≠ k) : (tabInsert k v t).Pairwise (fun x y => x.1 < y.1) := by
  induction t with
  | nil => simp [tabInsert]
  | cons x t ih =>
    obtain ⟨a, w⟩ := x
    simp only [List.mem_cons, forall_eq_or_imp] at hk
    rw [List.pairwise_cons] at h
    simp only [tabInsert]
    split
    · next hlt =>
      refine List.pairwise_cons.2 ⟨fun e he => ?_, List.pairwise_cons.2 h⟩
      rcases List.mem_cons.1 he with rfl | he
      · exact hlt
      · exact hlt.trans (h.1 e he)
    · next hge =>
      refine List.pairwise_cons.2 ⟨fun e he => ?_, ih h.2 hk.2⟩
      rcases (mem_tabInsert k v t e).1 he with rfl | he
      · exact lt_of_le_of_ne (not_lt.1 hge) hk.1
      · exact h.1 e he

/-- Giving a key a record keeps the canonical form. -/
theorem tabWf_tabSet {α : Type} [DecidableEq α] {d : α} {t : Tab α} (k : Nat) (v : α) (h : tabWf d t = true) :
    tabWf d (tabSet d t k v) = true := by
  unfold tabSet
  split
  · exact tabWf_filter _ h
  · next hv =>
    have h' := (tabWf_iff d _).1 (tabWf_filter (fun e => e.1 != k) h)
    refine (tabWf_iff d _).2 ⟨tabInsert_pairwise k v _ h'.1 (fun e he => by simpa using (List.mem_filter.1 he).2), fun e he => ?_⟩
    rcases (mem_tabInsert k v _ e).1 he with rfl | he
    · exact hv
    · exact h'.2 e he

/-- Dropping entries keeps the canonical form. -/
theorem tabWf_tabClear {α : Type} [DecidableEq α] {d : α} {t : Tab α} (p : Nat → Bool) (h : tabWf d t = true) :
    tabWf d (tabClear p t) = true := tabWf_filter _ h

/-- Storing bytes keeps the canonical form. -/
theorem tabWf_putBytes {t : List Cell} (a : Nat) (bs : List Byte) (h : tabWf 0 t = true) : tabWf 0 (putBytes t a bs) = true := by
  induction bs generalizing t a with
  | nil => exact h
  | cons b bs ih => exact ih (a + 1) (tabWf_tabSet a b h)

/-! ### Reading after writing -/

/-- Reading a table part whose dropped entries do not concern the key. -/
theorem tabGet_filter {α : Type} (d : α) (t : Tab α) (p : Nat × α → Bool) (k : Nat) (hp : ∀ v, p (k, v) = true) :
    tabGet d (t.filter p) k = tabGet d t k := by
  induction t with
  | nil => rfl
  | cons e t ih =>
    obtain ⟨a, v⟩ := e
    by_cases ha : a = k
    · subst ha; simp [List.filter, hp v, tabGet]
    · cases hq : p (a, v) <;> simp [List.filter, hq, tabGet, ha, ih]

/-- A key no entry lists reads as the default. -/
theorem tabGet_of_not_mem {α : Type} (d : α) (t : Tab α) (k : Nat) (h : ∀ e ∈ t, e.1 ≠ k) : tabGet d t k = d := by
  induction t with
  | nil => rfl
  | cons e t ih =>
    simp only [List.mem_cons, forall_eq_or_imp] at h
    simp [tabGet, h.1, ih h.2]

/-- Reading after an insertion of an unlisted key. -/
theorem tabGet_tabInsert {α : Type} (d : α) (k : Nat) (v : α) (t : Tab α) (j : Nat) (hk : ∀ e ∈ t, e.1 ≠ k) :
    tabGet d (tabInsert k v t) j = if k = j then v else tabGet d t j := by
  induction t with
  | nil => rfl
  | cons e t ih =>
    obtain ⟨a, w⟩ := e
    simp only [List.mem_cons, forall_eq_or_imp] at hk
    simp only [tabInsert]
    split
    · rfl
    · simp only [tabGet, ih hk.2]
      by_cases haj : a = j
      · have : k ≠ j := fun h => hk.1 (haj.trans h.symm)
        simp [haj, this]
      · simp [haj]

/-- Reading a table after a key was given a record. -/
theorem tabGet_tabSet {α : Type} [DecidableEq α] (d : α) (t : Tab α) (k : Nat) (v : α) (j : Nat) :
    tabGet d (tabSet d t k v) j = if k = j then v else tabGet d t j := by
  have hm : ∀ e ∈ tabErase k t, e.1 ≠ k := fun e he => by simpa using (List.mem_filter.1 he).2
  have he : k ≠ j → tabGet d (tabErase k t) j = tabGet d t j := fun h =>
    tabGet_filter d t _ j (fun w => by simpa using fun h' => h h'.symm)
  unfold tabSet
  split
  · next hv =>
    by_cases hkj : k = j
    · subst hkj; simp [tabGet_of_not_mem d _ k hm, hv]
    · simp [hkj, he hkj]
  · rw [tabGet_tabInsert d k v _ j hm]
    by_cases hkj : k = j <;> simp [hkj, he]

/-- The record just given. -/
@[simp] theorem tabGet_tabSet_same {α : Type} [DecidableEq α] (d : α) (t : Tab α) (k : Nat) (v : α) :
    tabGet d (tabSet d t k v) k = v := by simp [tabGet_tabSet]

/-- The record of another key. -/
theorem tabGet_tabSet_ne {α : Type} [DecidableEq α] (d : α) (t : Tab α) {k j : Nat} (v : α) (h : k ≠ j) :
    tabGet d (tabSet d t k v) j = tabGet d t j := by simp [tabGet_tabSet, h]

/-- Reading a table after entries were dropped. -/
theorem tabGet_tabClear {α : Type} (d : α) (p : Nat → Bool) (t : Tab α) (k : Nat) :
    tabGet d (tabClear p t) k = if p k then d else tabGet d t k := by
  split
  · next h => exact tabGet_of_not_mem d _ k (fun e he hk => by simp [tabClear] at he; simp [hk, h] at he)
  · next h => exact tabGet_filter d t _ k (fun _ => by simpa using h)

/-- Reading a byte after bytes were stored. -/
theorem tabGet_putBytes (t : List Cell) (a : Nat) (bs : List Byte) (k : Nat) :
    tabGet 0 (putBytes t a bs) k = if a ≤ k ∧ k < a + bs.length then bs.getD (k - a) 0 else tabGet 0 t k := by
  induction bs generalizing t a with
  | nil => simp [putBytes]
  | cons b bs ih =>
    simp only [putBytes, ih, tabGet_tabSet, List.length_cons]
    by_cases h1 : a + 1 ≤ k ∧ k < a + 1 + bs.length
    · have h2 : a ≤ k ∧ k < a + (bs.length + 1) := by omega
      have h3 : k - a = (k - (a + 1)) + 1 := by omega
      simp [h1, h2, h3]
    · by_cases h2 : a = k
      · subst h2; simp
      · have h3 : ¬(a ≤ k ∧ k < a + (bs.length + 1)) := by omega
        have h4 : ¬(a + 1 ≤ k ∧ k < a + 1 + bs.length) := h1
        rw [if_neg h4, if_neg h2, if_neg h3]

end Sys2Proof.Machine
end

