-- ==== Sys2Proof/Laws/State.lean ====
section
/-! SUPPORT. Laws of the tables of `State`: what each update changes and what it leaves. -/

namespace Sys2Proof.Machine

/-- A function's entry beside that of another, whose default may differ. -/
theorem tabGet_fnDefault (t : Tab FnState) {f f' : Nat} (v : FnState) (h : f ≠ f') :
    tabGet (fnDefault f') (tabSet (fnDefault f) t f v) f' = tabGet (fnDefault f') t f' := by
  have hm : ∀ e ∈ tabErase f t, e.1 ≠ f := fun e he => by simpa using (List.mem_filter.1 he).2
  have he : tabGet (fnDefault f') (tabErase f t) f' = tabGet (fnDefault f') t f' :=
    tabGet_filter _ t _ f' (fun w => by simpa using fun h' => h h'.symm)
  unfold tabSet
  split
  · exact he
  · rw [tabGet_tabInsert _ f v _ f' hm, if_neg h, he]

/-! ### fn -/

@[simp] theorem modFn_eq (s : State) (f : Nat) (upd : FnState → FnState) : s.modFn f upd = s.setFn f (upd (s.fn f)) := rfl
@[simp] theorem fn_setFn (s : State) (f : Nat) (v : FnState) : (s.setFn f v).fn f = v := tabGet_tabSet_same _ _ _ _
theorem fn_setFn_ne (s : State) {f f' : Nat} (v : FnState) (h : f ≠ f') : (s.setFn f v).fn f' = s.fn f' := by
  simp only [State.fn, State.setFn]
  exact tabGet_fnDefault _ _ h
@[simp] theorem setFn_module (s : State) (f : Nat) (v : FnState) : (s.setFn f v).module = s.module := rfl
@[simp] theorem setFn_flash (s : State) (f : Nat) (v : FnState) : (s.setFn f v).flash = s.flash := rfl
@[simp] theorem setFn_regs (s : State) (f : Nat) (v : FnState) : (s.setFn f v).regs = s.regs := rfl
@[simp] theorem setFn_mem (s : State) (f : Nat) (v : FnState) : (s.setFn f v).mem = s.mem := rfl
@[simp] theorem setFn_hostMem (s : State) (f : Nat) (v : FnState) : (s.setFn f v).hostMem = s.hostMem := rfl
@[simp] theorem setFn_host_vfEnable (s : State) (f : Nat) (v : FnState) : (s.setFn f v).host.vfEnable = s.host.vfEnable := rfl
@[simp] theorem setFn_host_queues (s : State) (f : Nat) (v : FnState) : (s.setFn f v).host.queues = s.host.queues := rfl
@[simp] theorem setFn_host_commands (s : State) (f : Nat) (v : FnState) : (s.setFn f v).host.commands = s.host.commands := rfl
@[simp] theorem setFn_host_tokens (s : State) (f : Nat) (v : FnState) : (s.setFn f v).host.tokens = s.host.tokens := rfl
@[simp] theorem setFn_host_launches (s : State) (f : Nat) (v : FnState) : (s.setFn f v).host.launches = s.host.launches := rfl
@[simp] theorem setFn_host_launchOrder (s : State) (f : Nat) (v : FnState) : (s.setFn f v).host.launchOrder = s.host.launchOrder := rfl
@[simp] theorem setFn_objs (s : State) (f : Nat) (v : FnState) : (s.setFn f v).objs = s.objs := rfl
@[simp] theorem setFn_work (s : State) (f : Nat) (v : FnState) : (s.setFn f v).work = s.work := rfl
@[simp] theorem setFn_links (s : State) (f : Nat) (v : FnState) : (s.setFn f v).links = s.links := rfl
@[simp] theorem setFn_power (s : State) (f : Nat) (v : FnState) : (s.setFn f v).power = s.power := rfl
@[simp] theorem setFn_care (s : State) (f : Nat) (v : FnState) : (s.setFn f v).care = s.care := rfl
@[simp] theorem setFn_security (s : State) (f : Nat) (v : FnState) : (s.setFn f v).security = s.security := rfl
@[simp] theorem setFn_out (s : State) (f : Nat) (v : FnState) : (s.setFn f v).out = s.out := rfl
@[simp] theorem setFn_freeCtr (s : State) (f : Nat) (v : FnState) : (s.setFn f v).freeCtr = s.freeCtr := rfl
@[simp] theorem setFn_pending (s : State) (f : Nat) (v : FnState) : (s.setFn f v).pending = s.pending := rfl
@[simp] theorem queue_setFn (s : State) (f q' : Nat) (v : FnState) : (s.setFn f v).queue q' = s.queue q' := rfl
@[simp] theorem part_setFn (s : State) (f p' : Nat) (v : FnState) : (s.setFn f v).part p' = s.part p' := rfl
@[simp] theorem ctx_setFn (s : State) (f c' : Nat) (v : FnState) : (s.setFn f v).ctx c' = s.ctx c' := rfl
@[simp] theorem tally_setFn (s : State) (f t' : Nat) (v : FnState) : (s.setFn f v).tally t' = s.tally t' := rfl
@[simp] theorem region_setFn (s : State) (f r' : Nat) (v : FnState) : (s.setFn f v).region r' = s.region r' := rfl
@[simp] theorem tensor_setFn (s : State) (f p' id' : Nat) (v : FnState) : (s.setFn f v).tensor p' id' = s.tensor p' id' := rfl
@[simp] theorem gate_setFn (s : State) (f p' g' : Nat) (v : FnState) : (s.setFn f v).gate p' g' = s.gate p' g' := rfl
@[simp] theorem model_setFn (s : State) (f m' : Nat) (v : FnState) : (s.setFn f v).model m' = s.model m' := rfl
@[simp] theorem group_setFn (s : State) (f g' : Nat) (v : FnState) : (s.setFn f v).group g' = s.group g' := rfl
@[simp] theorem comm_setFn (s : State) (f n' k' : Nat) (v : FnState) : (s.setFn f v).comm n' k' = s.comm n' k' := rfl
@[simp] theorem core_setFn (s : State) (f k' : Nat) (v : FnState) : (s.setFn f v).core k' = s.core k' := rfl
@[simp] theorem slot_setFn (s : State) (f k' i' : Nat) (v : FnState) : (s.setFn f v).slot k' i' = s.slot k' i' := rfl
@[simp] theorem engine_setFn (s : State) (f e' : Nat) (v : FnState) : (s.setFn f v).engine e' = s.engine e' := rfl
@[simp] theorem witness_setFn (s : State) (f n' : Nat) (v : FnState) : (s.setFn f v).witness n' = s.witness n' := rfl
@[simp] theorem trained_setFn (s : State) (f g' : Nat) (v : FnState) : (s.setFn f v).trained g' = s.trained g' := rfl
@[simp] theorem trainedNow_setFn (s : State) (f g' : Nat) (v : FnState) : (s.setFn f v).trainedNow g' = s.trainedNow g' := rfl
@[simp] theorem autumnResult_setFn (s : State) (f n' : Nat) (v : FnState) : (s.setFn f v).autumnResult n' = s.autumnResult n' := rfl
@[simp] theorem health_setFn (s : State) (f u' : Nat) (v : FnState) : (s.setFn f v).health u' = s.health u' := rfl
@[simp] theorem autumn_setFn (s : State) (f n' : Nat) (v : FnState) : (s.setFn f v).autumn n' = s.autumn n' := rfl
@[simp] theorem gravel_setFn (s : State) (f n' : Nat) (v : FnState) : (s.setFn f v).gravel n' = s.gravel n' := rfl
@[simp] theorem spdm_setFn (s : State) (f k' : Nat) (v : FnState) : (s.setFn f v).spdm k' = s.spdm k' := rfl
@[simp] theorem link_setFn (s : State) (f l' : Nat) (v : FnState) : (s.setFn f v).link l' = s.link l' := rfl
@[simp] theorem raw_setFn (s : State) (f : Nat) (v : FnState) (a : RegAt) : (s.setFn f v).raw a = s.raw a := rfl
@[simp] theorem fld_setFn (s : State) (f i' j' : Nat) (v : FnState) (rf : RField) : (s.setFn f v).fld rf i' j' = s.fld rf i' j' := rfl

/-! ### queue -/

@[simp] theorem modQueue_eq (s : State) (q : Nat) (upd : Queue → Queue) : s.modQueue q upd = s.setQueue q (upd (s.queue q)) := rfl
@[simp] theorem queue_setQueue (s : State) (q : Nat) (v : Queue) : (s.setQueue q v).queue q = v := tabGet_tabSet_same _ _ _ _
theorem queue_setQueue_ne (s : State) {q q' : Nat} (v : Queue) (h : q ≠ q') : (s.setQueue q v).queue q' = s.queue q' := by
  unfold State.queue State.setQueue
  simp [tabGet_tabSet, h]
@[simp] theorem setQueue_module (s : State) (q : Nat) (v : Queue) : (s.setQueue q v).module = s.module := rfl
@[simp] theorem setQueue_flash (s : State) (q : Nat) (v : Queue) : (s.setQueue q v).flash = s.flash := rfl
@[simp] theorem setQueue_regs (s : State) (q : Nat) (v : Queue) : (s.setQueue q v).regs = s.regs := rfl
@[simp] theorem setQueue_mem (s : State) (q : Nat) (v : Queue) : (s.setQueue q v).mem = s.mem := rfl
@[simp] theorem setQueue_hostMem (s : State) (q : Nat) (v : Queue) : (s.setQueue q v).hostMem = s.hostMem := rfl
@[simp] theorem setQueue_host_fns (s : State) (q : Nat) (v : Queue) : (s.setQueue q v).host.fns = s.host.fns := rfl
@[simp] theorem setQueue_host_vfEnable (s : State) (q : Nat) (v : Queue) : (s.setQueue q v).host.vfEnable = s.host.vfEnable := rfl
@[simp] theorem setQueue_host_commands (s : State) (q : Nat) (v : Queue) : (s.setQueue q v).host.commands = s.host.commands := rfl
@[simp] theorem setQueue_host_tokens (s : State) (q : Nat) (v : Queue) : (s.setQueue q v).host.tokens = s.host.tokens := rfl
@[simp] theorem setQueue_host_launches (s : State) (q : Nat) (v : Queue) : (s.setQueue q v).host.launches = s.host.launches := rfl
@[simp] theorem setQueue_host_launchOrder (s : State) (q : Nat) (v : Queue) : (s.setQueue q v).host.launchOrder = s.host.launchOrder := rfl
@[simp] theorem setQueue_objs (s : State) (q : Nat) (v : Queue) : (s.setQueue q v).objs = s.objs := rfl
@[simp] theorem setQueue_work (s : State) (q : Nat) (v : Queue) : (s.setQueue q v).work = s.work := rfl
@[simp] theorem setQueue_links (s : State) (q : Nat) (v : Queue) : (s.setQueue q v).links = s.links := rfl
@[simp] theorem setQueue_power (s : State) (q : Nat) (v : Queue) : (s.setQueue q v).power = s.power := rfl
@[simp] theorem setQueue_care (s : State) (q : Nat) (v : Queue) : (s.setQueue q v).care = s.care := rfl
@[simp] theorem setQueue_security (s : State) (q : Nat) (v : Queue) : (s.setQueue q v).security = s.security := rfl
@[simp] theorem setQueue_out (s : State) (q : Nat) (v : Queue) : (s.setQueue q v).out = s.out := rfl
@[simp] theorem setQueue_freeCtr (s : State) (q : Nat) (v : Queue) : (s.setQueue q v).freeCtr = s.freeCtr := rfl
@[simp] theorem setQueue_pending (s : State) (q : Nat) (v : Queue) : (s.setQueue q v).pending = s.pending := rfl
@[simp] theorem fn_setQueue (s : State) (q f' : Nat) (v : Queue) : (s.setQueue q v).fn f' = s.fn f' := rfl
@[simp] theorem part_setQueue (s : State) (q p' : Nat) (v : Queue) : (s.setQueue q v).part p' = s.part p' := rfl
@[simp] theorem ctx_setQueue (s : State) (q c' : Nat) (v : Queue) : (s.setQueue q v).ctx c' = s.ctx c' := rfl
@[simp] theorem tally_setQueue (s : State) (q t' : Nat) (v : Queue) : (s.setQueue q v).tally t' = s.tally t' := rfl
@[simp] theorem region_setQueue (s : State) (q r' : Nat) (v : Queue) : (s.setQueue q v).region r' = s.region r' := rfl
@[simp] theorem tensor_setQueue (s : State) (q p' id' : Nat) (v : Queue) : (s.setQueue q v).tensor p' id' = s.tensor p' id' := rfl
@[simp] theorem gate_setQueue (s : State) (q p' g' : Nat) (v : Queue) : (s.setQueue q v).gate p' g' = s.gate p' g' := rfl
@[simp] theorem model_setQueue (s : State) (q m' : Nat) (v : Queue) : (s.setQueue q v).model m' = s.model m' := rfl
@[simp] theorem group_setQueue (s : State) (q g' : Nat) (v : Queue) : (s.setQueue q v).group g' = s.group g' := rfl
@[simp] theorem comm_setQueue (s : State) (q n' k' : Nat) (v : Queue) : (s.setQueue q v).comm n' k' = s.comm n' k' := rfl
@[simp] theorem core_setQueue (s : State) (q k' : Nat) (v : Queue) : (s.setQueue q v).core k' = s.core k' := rfl
@[simp] theorem slot_setQueue (s : State) (q k' i' : Nat) (v : Queue) : (s.setQueue q v).slot k' i' = s.slot k' i' := rfl
@[simp] theorem engine_setQueue (s : State) (q e' : Nat) (v : Queue) : (s.setQueue q v).engine e' = s.engine e' := rfl
@[simp] theorem witness_setQueue (s : State) (q n' : Nat) (v : Queue) : (s.setQueue q v).witness n' = s.witness n' := rfl
@[simp] theorem trained_setQueue (s : State) (q g' : Nat) (v : Queue) : (s.setQueue q v).trained g' = s.trained g' := rfl
@[simp] theorem trainedNow_setQueue (s : State) (q g' : Nat) (v : Queue) : (s.setQueue q v).trainedNow g' = s.trainedNow g' := rfl
@[simp] theorem autumnResult_setQueue (s : State) (q n' : Nat) (v : Queue) : (s.setQueue q v).autumnResult n' = s.autumnResult n' := rfl
@[simp] theorem health_setQueue (s : State) (q u' : Nat) (v : Queue) : (s.setQueue q v).health u' = s.health u' := rfl
@[simp] theorem autumn_setQueue (s : State) (q n' : Nat) (v : Queue) : (s.setQueue q v).autumn n' = s.autumn n' := rfl
@[simp] theorem gravel_setQueue (s : State) (q n' : Nat) (v : Queue) : (s.setQueue q v).gravel n' = s.gravel n' := rfl
@[simp] theorem spdm_setQueue (s : State) (q k' : Nat) (v : Queue) : (s.setQueue q v).spdm k' = s.spdm k' := rfl
@[simp] theorem link_setQueue (s : State) (q l' : Nat) (v : Queue) : (s.setQueue q v).link l' = s.link l' := rfl
@[simp] theorem raw_setQueue (s : State) (q : Nat) (v : Queue) (a : RegAt) : (s.setQueue q v).raw a = s.raw a := rfl
@[simp] theorem fld_setQueue (s : State) (q i' j' : Nat) (v : Queue) (rf : RField) : (s.setQueue q v).fld rf i' j' = s.fld rf i' j' := rfl

/-! ### part -/

@[simp] theorem modPart_eq (s : State) (p : Nat) (upd : Part → Part) : s.modPart p upd = s.setPart p (upd (s.part p)) := rfl
@[simp] theorem part_setPart (s : State) (p : Nat) (v : Part) : (s.setPart p v).part p = v := tabGet_tabSet_same _ _ _ _
theorem part_setPart_ne (s : State) {p p' : Nat} (v : Part) (h : p ≠ p') : (s.setPart p v).part p' = s.part p' := by
  unfold State.part State.setPart
  simp [tabGet_tabSet, h]
@[simp] theorem setPart_module (s : State) (p : Nat) (v : Part) : (s.setPart p v).module = s.module := rfl
@[simp] theorem setPart_flash (s : State) (p : Nat) (v : Part) : (s.setPart p v).flash = s.flash := rfl
@[simp] theorem setPart_regs (s : State) (p : Nat) (v : Part) : (s.setPart p v).regs = s.regs := rfl
@[simp] theorem setPart_mem (s : State) (p : Nat) (v : Part) : (s.setPart p v).mem = s.mem := rfl
@[simp] theorem setPart_hostMem (s : State) (p : Nat) (v : Part) : (s.setPart p v).hostMem = s.hostMem := rfl
@[simp] theorem setPart_host (s : State) (p : Nat) (v : Part) : (s.setPart p v).host = s.host := rfl
@[simp] theorem setPart_objs_ctxs (s : State) (p : Nat) (v : Part) : (s.setPart p v).objs.ctxs = s.objs.ctxs := rfl
@[simp] theorem setPart_objs_tallies (s : State) (p : Nat) (v : Part) : (s.setPart p v).objs.tallies = s.objs.tallies := rfl
@[simp] theorem setPart_objs_regions (s : State) (p : Nat) (v : Part) : (s.setPart p v).objs.regions = s.objs.regions := rfl
@[simp] theorem setPart_objs_tensors (s : State) (p : Nat) (v : Part) : (s.setPart p v).objs.tensors = s.objs.tensors := rfl
@[simp] theorem setPart_objs_gates (s : State) (p : Nat) (v : Part) : (s.setPart p v).objs.gates = s.objs.gates := rfl
@[simp] theorem setPart_objs_models (s : State) (p : Nat) (v : Part) : (s.setPart p v).objs.models = s.objs.models := rfl
@[simp] theorem setPart_objs_groups (s : State) (p : Nat) (v : Part) : (s.setPart p v).objs.groups = s.objs.groups := rfl
@[simp] theorem setPart_objs_comms (s : State) (p : Nat) (v : Part) : (s.setPart p v).objs.comms = s.objs.comms := rfl
@[simp] theorem setPart_work (s : State) (p : Nat) (v : Part) : (s.setPart p v).work = s.work := rfl
@[simp] theorem setPart_links (s : State) (p : Nat) (v : Part) : (s.setPart p v).links = s.links := rfl
@[simp] theorem setPart_power (s : State) (p : Nat) (v : Part) : (s.setPart p v).power = s.power := rfl
@[simp] theorem setPart_care (s : State) (p : Nat) (v : Part) : (s.setPart p v).care = s.care := rfl
@[simp] theorem setPart_security (s : State) (p : Nat) (v : Part) : (s.setPart p v).security = s.security := rfl
@[simp] theorem setPart_out (s : State) (p : Nat) (v : Part) : (s.setPart p v).out = s.out := rfl
@[simp] theorem setPart_freeCtr (s : State) (p : Nat) (v : Part) : (s.setPart p v).freeCtr = s.freeCtr := rfl
@[simp] theorem setPart_pending (s : State) (p : Nat) (v : Part) : (s.setPart p v).pending = s.pending := rfl
@[simp] theorem fn_setPart (s : State) (p f' : Nat) (v : Part) : (s.setPart p v).fn f' = s.fn f' := rfl
@[simp] theorem queue_setPart (s : State) (p q' : Nat) (v : Part) : (s.setPart p v).queue q' = s.queue q' := rfl
@[simp] theorem ctx_setPart (s : State) (p c' : Nat) (v : Part) : (s.setPart p v).ctx c' = s.ctx c' := rfl
@[simp] theorem tally_setPart (s : State) (p t' : Nat) (v : Part) : (s.setPart p v).tally t' = s.tally t' := rfl
@[simp] theorem region_setPart (s : State) (p r' : Nat) (v : Part) : (s.setPart p v).region r' = s.region r' := rfl
@[simp] theorem tensor_setPart (s : State) (p p' id' : Nat) (v : Part) : (s.setPart p v).tensor p' id' = s.tensor p' id' := rfl
@[simp] theorem gate_setPart (s : State) (p p' g' : Nat) (v : Part) : (s.setPart p v).gate p' g' = s.gate p' g' := rfl
@[simp] theorem model_setPart (s : State) (p m' : Nat) (v : Part) : (s.setPart p v).model m' = s.model m' := rfl
@[simp] theorem group_setPart (s : State) (p g' : Nat) (v : Part) : (s.setPart p v).group g' = s.group g' := rfl
@[simp] theorem comm_setPart (s : State) (p n' k' : Nat) (v : Part) : (s.setPart p v).comm n' k' = s.comm n' k' := rfl
@[simp] theorem core_setPart (s : State) (p k' : Nat) (v : Part) : (s.setPart p v).core k' = s.core k' := rfl
@[simp] theorem slot_setPart (s : State) (p k' i' : Nat) (v : Part) : (s.setPart p v).slot k' i' = s.slot k' i' := rfl
@[simp] theorem engine_setPart (s : State) (p e' : Nat) (v : Part) : (s.setPart p v).engine e' = s.engine e' := rfl
@[simp] theorem witness_setPart (s : State) (p n' : Nat) (v : Part) : (s.setPart p v).witness n' = s.witness n' := rfl
@[simp] theorem trained_setPart (s : State) (p g' : Nat) (v : Part) : (s.setPart p v).trained g' = s.trained g' := rfl
@[simp] theorem trainedNow_setPart (s : State) (p g' : Nat) (v : Part) : (s.setPart p v).trainedNow g' = s.trainedNow g' := rfl
@[simp] theorem autumnResult_setPart (s : State) (p n' : Nat) (v : Part) : (s.setPart p v).autumnResult n' = s.autumnResult n' := rfl
@[simp] theorem health_setPart (s : State) (p u' : Nat) (v : Part) : (s.setPart p v).health u' = s.health u' := rfl
@[simp] theorem autumn_setPart (s : State) (p n' : Nat) (v : Part) : (s.setPart p v).autumn n' = s.autumn n' := rfl
@[simp] theorem gravel_setPart (s : State) (p n' : Nat) (v : Part) : (s.setPart p v).gravel n' = s.gravel n' := rfl
@[simp] theorem spdm_setPart (s : State) (p k' : Nat) (v : Part) : (s.setPart p v).spdm k' = s.spdm k' := rfl
@[simp] theorem link_setPart (s : State) (p l' : Nat) (v : Part) : (s.setPart p v).link l' = s.link l' := rfl
@[simp] theorem raw_setPart (s : State) (p : Nat) (v : Part) (a : RegAt) : (s.setPart p v).raw a = s.raw a := rfl
@[simp] theorem fld_setPart (s : State) (p i' j' : Nat) (v : Part) (rf : RField) : (s.setPart p v).fld rf i' j' = s.fld rf i' j' := rfl

/-! ### ctx -/

@[simp] theorem modCtx_eq (s : State) (c : Nat) (upd : Ctx → Ctx) : s.modCtx c upd = s.setCtx c (upd (s.ctx c)) := rfl
@[simp] theorem ctx_setCtx (s : State) (c : Nat) (v : Ctx) : (s.setCtx c v).ctx c = v := tabGet_tabSet_same _ _ _ _
theorem ctx_setCtx_ne (s : State) {c c' : Nat} (v : Ctx) (h : c ≠ c') : (s.setCtx c v).ctx c' = s.ctx c' := by
  unfold State.ctx State.setCtx
  simp [tabGet_tabSet, h]
@[simp] theorem setCtx_module (s : State) (c : Nat) (v : Ctx) : (s.setCtx c v).module = s.module := rfl
@[simp] theorem setCtx_flash (s : State) (c : Nat) (v : Ctx) : (s.setCtx c v).flash = s.flash := rfl
@[simp] theorem setCtx_regs (s : State) (c : Nat) (v : Ctx) : (s.setCtx c v).regs = s.regs := rfl
@[simp] theorem setCtx_mem (s : State) (c : Nat) (v : Ctx) : (s.setCtx c v).mem = s.mem := rfl
@[simp] theorem setCtx_hostMem (s : State) (c : Nat) (v : Ctx) : (s.setCtx c v).hostMem = s.hostMem := rfl
@[simp] theorem setCtx_host (s : State) (c : Nat) (v : Ctx) : (s.setCtx c v).host = s.host := rfl
@[simp] theorem setCtx_objs_parts (s : State) (c : Nat) (v : Ctx) : (s.setCtx c v).objs.parts = s.objs.parts := rfl
@[simp] theorem setCtx_objs_tallies (s : State) (c : Nat) (v : Ctx) : (s.setCtx c v).objs.tallies = s.objs.tallies := rfl
@[simp] theorem setCtx_objs_regions (s : State) (c : Nat) (v : Ctx) : (s.setCtx c v).objs.regions = s.objs.regions := rfl
@[simp] theorem setCtx_objs_tensors (s : State) (c : Nat) (v : Ctx) : (s.setCtx c v).objs.tensors = s.objs.tensors := rfl
@[simp] theorem setCtx_objs_gates (s : State) (c : Nat) (v : Ctx) : (s.setCtx c v).objs.gates = s.objs.gates := rfl
@[simp] theorem setCtx_objs_models (s : State) (c : Nat) (v : Ctx) : (s.setCtx c v).objs.models = s.objs.models := rfl
@[simp] theorem setCtx_objs_groups (s : State) (c : Nat) (v : Ctx) : (s.setCtx c v).objs.groups = s.objs.groups := rfl
@[simp] theorem setCtx_objs_comms (s : State) (c : Nat) (v : Ctx) : (s.setCtx c v).objs.comms = s.objs.comms := rfl
@[simp] theorem setCtx_work (s : State) (c : Nat) (v : Ctx) : (s.setCtx c v).work = s.work := rfl
@[simp] theorem setCtx_links (s : State) (c : Nat) (v : Ctx) : (s.setCtx c v).links = s.links := rfl
@[simp] theorem setCtx_power (s : State) (c : Nat) (v : Ctx) : (s.setCtx c v).power = s.power := rfl
@[simp] theorem setCtx_care (s : State) (c : Nat) (v : Ctx) : (s.setCtx c v).care = s.care := rfl
@[simp] theorem setCtx_security (s : State) (c : Nat) (v : Ctx) : (s.setCtx c v).security = s.security := rfl
@[simp] theorem setCtx_out (s : State) (c : Nat) (v : Ctx) : (s.setCtx c v).out = s.out := rfl
@[simp] theorem setCtx_freeCtr (s : State) (c : Nat) (v : Ctx) : (s.setCtx c v).freeCtr = s.freeCtr := rfl
@[simp] theorem setCtx_pending (s : State) (c : Nat) (v : Ctx) : (s.setCtx c v).pending = s.pending := rfl
@[simp] theorem fn_setCtx (s : State) (c f' : Nat) (v : Ctx) : (s.setCtx c v).fn f' = s.fn f' := rfl
@[simp] theorem queue_setCtx (s : State) (c q' : Nat) (v : Ctx) : (s.setCtx c v).queue q' = s.queue q' := rfl
@[simp] theorem part_setCtx (s : State) (c p' : Nat) (v : Ctx) : (s.setCtx c v).part p' = s.part p' := rfl
@[simp] theorem tally_setCtx (s : State) (c t' : Nat) (v : Ctx) : (s.setCtx c v).tally t' = s.tally t' := rfl
@[simp] theorem region_setCtx (s : State) (c r' : Nat) (v : Ctx) : (s.setCtx c v).region r' = s.region r' := rfl
@[simp] theorem tensor_setCtx (s : State) (c p' id' : Nat) (v : Ctx) : (s.setCtx c v).tensor p' id' = s.tensor p' id' := rfl
@[simp] theorem gate_setCtx (s : State) (c p' g' : Nat) (v : Ctx) : (s.setCtx c v).gate p' g' = s.gate p' g' := rfl
@[simp] theorem model_setCtx (s : State) (c m' : Nat) (v : Ctx) : (s.setCtx c v).model m' = s.model m' := rfl
@[simp] theorem group_setCtx (s : State) (c g' : Nat) (v : Ctx) : (s.setCtx c v).group g' = s.group g' := rfl
@[simp] theorem comm_setCtx (s : State) (c n' k' : Nat) (v : Ctx) : (s.setCtx c v).comm n' k' = s.comm n' k' := rfl
@[simp] theorem core_setCtx (s : State) (c k' : Nat) (v : Ctx) : (s.setCtx c v).core k' = s.core k' := rfl
@[simp] theorem slot_setCtx (s : State) (c k' i' : Nat) (v : Ctx) : (s.setCtx c v).slot k' i' = s.slot k' i' := rfl
@[simp] theorem engine_setCtx (s : State) (c e' : Nat) (v : Ctx) : (s.setCtx c v).engine e' = s.engine e' := rfl
@[simp] theorem witness_setCtx (s : State) (c n' : Nat) (v : Ctx) : (s.setCtx c v).witness n' = s.witness n' := rfl
@[simp] theorem trained_setCtx (s : State) (c g' : Nat) (v : Ctx) : (s.setCtx c v).trained g' = s.trained g' := rfl
@[simp] theorem trainedNow_setCtx (s : State) (c g' : Nat) (v : Ctx) : (s.setCtx c v).trainedNow g' = s.trainedNow g' := rfl
@[simp] theorem autumnResult_setCtx (s : State) (c n' : Nat) (v : Ctx) : (s.setCtx c v).autumnResult n' = s.autumnResult n' := rfl
@[simp] theorem health_setCtx (s : State) (c u' : Nat) (v : Ctx) : (s.setCtx c v).health u' = s.health u' := rfl
@[simp] theorem autumn_setCtx (s : State) (c n' : Nat) (v : Ctx) : (s.setCtx c v).autumn n' = s.autumn n' := rfl
@[simp] theorem gravel_setCtx (s : State) (c n' : Nat) (v : Ctx) : (s.setCtx c v).gravel n' = s.gravel n' := rfl
@[simp] theorem spdm_setCtx (s : State) (c k' : Nat) (v : Ctx) : (s.setCtx c v).spdm k' = s.spdm k' := rfl
@[simp] theorem link_setCtx (s : State) (c l' : Nat) (v : Ctx) : (s.setCtx c v).link l' = s.link l' := rfl
@[simp] theorem raw_setCtx (s : State) (c : Nat) (v : Ctx) (a : RegAt) : (s.setCtx c v).raw a = s.raw a := rfl
@[simp] theorem fld_setCtx (s : State) (c i' j' : Nat) (v : Ctx) (rf : RField) : (s.setCtx c v).fld rf i' j' = s.fld rf i' j' := rfl

/-! ### tally -/

@[simp] theorem modTally_eq (s : State) (t : Nat) (upd : Tally → Tally) : s.modTally t upd = s.setTally t (upd (s.tally t)) := rfl
@[simp] theorem tally_setTally (s : State) (t : Nat) (v : Tally) : (s.setTally t v).tally t = v := tabGet_tabSet_same _ _ _ _
theorem tally_setTally_ne (s : State) {t t' : Nat} (v : Tally) (h : t ≠ t') : (s.setTally t v).tally t' = s.tally t' := by
  unfold State.tally State.setTally
  simp [tabGet_tabSet, h]
@[simp] theorem setTally_module (s : State) (t : Nat) (v : Tally) : (s.setTally t v).module = s.module := rfl
@[simp] theorem setTally_flash (s : State) (t : Nat) (v : Tally) : (s.setTally t v).flash = s.flash := rfl
@[simp] theorem setTally_regs (s : State) (t : Nat) (v : Tally) : (s.setTally t v).regs = s.regs := rfl
@[simp] theorem setTally_mem (s : State) (t : Nat) (v : Tally) : (s.setTally t v).mem = s.mem := rfl
@[simp] theorem setTally_hostMem (s : State) (t : Nat) (v : Tally) : (s.setTally t v).hostMem = s.hostMem := rfl
@[simp] theorem setTally_host (s : State) (t : Nat) (v : Tally) : (s.setTally t v).host = s.host := rfl
@[simp] theorem setTally_objs_parts (s : State) (t : Nat) (v : Tally) : (s.setTally t v).objs.parts = s.objs.parts := rfl
@[simp] theorem setTally_objs_ctxs (s : State) (t : Nat) (v : Tally) : (s.setTally t v).objs.ctxs = s.objs.ctxs := rfl
@[simp] theorem setTally_objs_regions (s : State) (t : Nat) (v : Tally) : (s.setTally t v).objs.regions = s.objs.regions := rfl
@[simp] theorem setTally_objs_tensors (s : State) (t : Nat) (v : Tally) : (s.setTally t v).objs.tensors = s.objs.tensors := rfl
@[simp] theorem setTally_objs_gates (s : State) (t : Nat) (v : Tally) : (s.setTally t v).objs.gates = s.objs.gates := rfl
@[simp] theorem setTally_objs_models (s : State) (t : Nat) (v : Tally) : (s.setTally t v).objs.models = s.objs.models := rfl
@[simp] theorem setTally_objs_groups (s : State) (t : Nat) (v : Tally) : (s.setTally t v).objs.groups = s.objs.groups := rfl
@[simp] theorem setTally_objs_comms (s : State) (t : Nat) (v : Tally) : (s.setTally t v).objs.comms = s.objs.comms := rfl
@[simp] theorem setTally_work (s : State) (t : Nat) (v : Tally) : (s.setTally t v).work = s.work := rfl
@[simp] theorem setTally_links (s : State) (t : Nat) (v : Tally) : (s.setTally t v).links = s.links := rfl
@[simp] theorem setTally_power (s : State) (t : Nat) (v : Tally) : (s.setTally t v).power = s.power := rfl
@[simp] theorem setTally_care (s : State) (t : Nat) (v : Tally) : (s.setTally t v).care = s.care := rfl
@[simp] theorem setTally_security (s : State) (t : Nat) (v : Tally) : (s.setTally t v).security = s.security := rfl
@[simp] theorem setTally_out (s : State) (t : Nat) (v : Tally) : (s.setTally t v).out = s.out := rfl
@[simp] theorem setTally_freeCtr (s : State) (t : Nat) (v : Tally) : (s.setTally t v).freeCtr = s.freeCtr := rfl
@[simp] theorem setTally_pending (s : State) (t : Nat) (v : Tally) : (s.setTally t v).pending = s.pending := rfl
@[simp] theorem fn_setTally (s : State) (t f' : Nat) (v : Tally) : (s.setTally t v).fn f' = s.fn f' := rfl
@[simp] theorem queue_setTally (s : State) (t q' : Nat) (v : Tally) : (s.setTally t v).queue q' = s.queue q' := rfl
@[simp] theorem part_setTally (s : State) (t p' : Nat) (v : Tally) : (s.setTally t v).part p' = s.part p' := rfl
@[simp] theorem ctx_setTally (s : State) (t c' : Nat) (v : Tally) : (s.setTally t v).ctx c' = s.ctx c' := rfl
@[simp] theorem region_setTally (s : State) (t r' : Nat) (v : Tally) : (s.setTally t v).region r' = s.region r' := rfl
@[simp] theorem tensor_setTally (s : State) (t p' id' : Nat) (v : Tally) : (s.setTally t v).tensor p' id' = s.tensor p' id' := rfl
@[simp] theorem gate_setTally (s : State) (t p' g' : Nat) (v : Tally) : (s.setTally t v).gate p' g' = s.gate p' g' := rfl
@[simp] theorem model_setTally (s : State) (t m' : Nat) (v : Tally) : (s.setTally t v).model m' = s.model m' := rfl
@[simp] theorem group_setTally (s : State) (t g' : Nat) (v : Tally) : (s.setTally t v).group g' = s.group g' := rfl
@[simp] theorem comm_setTally (s : State) (t n' k' : Nat) (v : Tally) : (s.setTally t v).comm n' k' = s.comm n' k' := rfl
@[simp] theorem core_setTally (s : State) (t k' : Nat) (v : Tally) : (s.setTally t v).core k' = s.core k' := rfl
@[simp] theorem slot_setTally (s : State) (t k' i' : Nat) (v : Tally) : (s.setTally t v).slot k' i' = s.slot k' i' := rfl
@[simp] theorem engine_setTally (s : State) (t e' : Nat) (v : Tally) : (s.setTally t v).engine e' = s.engine e' := rfl
@[simp] theorem witness_setTally (s : State) (t n' : Nat) (v : Tally) : (s.setTally t v).witness n' = s.witness n' := rfl
@[simp] theorem trained_setTally (s : State) (t g' : Nat) (v : Tally) : (s.setTally t v).trained g' = s.trained g' := rfl
@[simp] theorem trainedNow_setTally (s : State) (t g' : Nat) (v : Tally) : (s.setTally t v).trainedNow g' = s.trainedNow g' := rfl
@[simp] theorem autumnResult_setTally (s : State) (t n' : Nat) (v : Tally) : (s.setTally t v).autumnResult n' = s.autumnResult n' := rfl
@[simp] theorem health_setTally (s : State) (t u' : Nat) (v : Tally) : (s.setTally t v).health u' = s.health u' := rfl
@[simp] theorem autumn_setTally (s : State) (t n' : Nat) (v : Tally) : (s.setTally t v).autumn n' = s.autumn n' := rfl
@[simp] theorem gravel_setTally (s : State) (t n' : Nat) (v : Tally) : (s.setTally t v).gravel n' = s.gravel n' := rfl
@[simp] theorem spdm_setTally (s : State) (t k' : Nat) (v : Tally) : (s.setTally t v).spdm k' = s.spdm k' := rfl
@[simp] theorem link_setTally (s : State) (t l' : Nat) (v : Tally) : (s.setTally t v).link l' = s.link l' := rfl
@[simp] theorem raw_setTally (s : State) (t : Nat) (v : Tally) (a : RegAt) : (s.setTally t v).raw a = s.raw a := rfl
@[simp] theorem fld_setTally (s : State) (t i' j' : Nat) (v : Tally) (rf : RField) : (s.setTally t v).fld rf i' j' = s.fld rf i' j' := rfl

/-! ### region -/

@[simp] theorem modRegion_eq (s : State) (r : Nat) (upd : Region → Region) : s.modRegion r upd = s.setRegion r (upd (s.region r)) := rfl
@[simp] theorem region_setRegion (s : State) (r : Nat) (v : Region) : (s.setRegion r v).region r = v := tabGet_tabSet_same _ _ _ _
theorem region_setRegion_ne (s : State) {r r' : Nat} (v : Region) (h : r ≠ r') : (s.setRegion r v).region r' = s.region r' := by
  unfold State.region State.setRegion
  simp [tabGet_tabSet, h]
@[simp] theorem setRegion_module (s : State) (r : Nat) (v : Region) : (s.setRegion r v).module = s.module := rfl
@[simp] theorem setRegion_flash (s : State) (r : Nat) (v : Region) : (s.setRegion r v).flash = s.flash := rfl
@[simp] theorem setRegion_regs (s : State) (r : Nat) (v : Region) : (s.setRegion r v).regs = s.regs := rfl
@[simp] theorem setRegion_mem (s : State) (r : Nat) (v : Region) : (s.setRegion r v).mem = s.mem := rfl
@[simp] theorem setRegion_hostMem (s : State) (r : Nat) (v : Region) : (s.setRegion r v).hostMem = s.hostMem := rfl
@[simp] theorem setRegion_host (s : State) (r : Nat) (v : Region) : (s.setRegion r v).host = s.host := rfl
@[simp] theorem setRegion_objs_parts (s : State) (r : Nat) (v : Region) : (s.setRegion r v).objs.parts = s.objs.parts := rfl
@[simp] theorem setRegion_objs_ctxs (s : State) (r : Nat) (v : Region) : (s.setRegion r v).objs.ctxs = s.objs.ctxs := rfl
@[simp] theorem setRegion_objs_tallies (s : State) (r : Nat) (v : Region) : (s.setRegion r v).objs.tallies = s.objs.tallies := rfl
@[simp] theorem setRegion_objs_tensors (s : State) (r : Nat) (v : Region) : (s.setRegion r v).objs.tensors = s.objs.tensors := rfl
@[simp] theorem setRegion_objs_gates (s : State) (r : Nat) (v : Region) : (s.setRegion r v).objs.gates = s.objs.gates := rfl
@[simp] theorem setRegion_objs_models (s : State) (r : Nat) (v : Region) : (s.setRegion r v).objs.models = s.objs.models := rfl
@[simp] theorem setRegion_objs_groups (s : State) (r : Nat) (v : Region) : (s.setRegion r v).objs.groups = s.objs.groups := rfl
@[simp] theorem setRegion_objs_comms (s : State) (r : Nat) (v : Region) : (s.setRegion r v).objs.comms = s.objs.comms := rfl
@[simp] theorem setRegion_work (s : State) (r : Nat) (v : Region) : (s.setRegion r v).work = s.work := rfl
@[simp] theorem setRegion_links (s : State) (r : Nat) (v : Region) : (s.setRegion r v).links = s.links := rfl
@[simp] theorem setRegion_power (s : State) (r : Nat) (v : Region) : (s.setRegion r v).power = s.power := rfl
@[simp] theorem setRegion_care (s : State) (r : Nat) (v : Region) : (s.setRegion r v).care = s.care := rfl
@[simp] theorem setRegion_security (s : State) (r : Nat) (v : Region) : (s.setRegion r v).security = s.security := rfl
@[simp] theorem setRegion_out (s : State) (r : Nat) (v : Region) : (s.setRegion r v).out = s.out := rfl
@[simp] theorem setRegion_freeCtr (s : State) (r : Nat) (v : Region) : (s.setRegion r v).freeCtr = s.freeCtr := rfl
@[simp] theorem setRegion_pending (s : State) (r : Nat) (v : Region) : (s.setRegion r v).pending = s.pending := rfl
@[simp] theorem fn_setRegion (s : State) (r f' : Nat) (v : Region) : (s.setRegion r v).fn f' = s.fn f' := rfl
@[simp] theorem queue_setRegion (s : State) (r q' : Nat) (v : Region) : (s.setRegion r v).queue q' = s.queue q' := rfl
@[simp] theorem part_setRegion (s : State) (r p' : Nat) (v : Region) : (s.setRegion r v).part p' = s.part p' := rfl
@[simp] theorem ctx_setRegion (s : State) (r c' : Nat) (v : Region) : (s.setRegion r v).ctx c' = s.ctx c' := rfl
@[simp] theorem tally_setRegion (s : State) (r t' : Nat) (v : Region) : (s.setRegion r v).tally t' = s.tally t' := rfl
@[simp] theorem tensor_setRegion (s : State) (r p' id' : Nat) (v : Region) : (s.setRegion r v).tensor p' id' = s.tensor p' id' := rfl
@[simp] theorem gate_setRegion (s : State) (r p' g' : Nat) (v : Region) : (s.setRegion r v).gate p' g' = s.gate p' g' := rfl
@[simp] theorem model_setRegion (s : State) (r m' : Nat) (v : Region) : (s.setRegion r v).model m' = s.model m' := rfl
@[simp] theorem group_setRegion (s : State) (r g' : Nat) (v : Region) : (s.setRegion r v).group g' = s.group g' := rfl
@[simp] theorem comm_setRegion (s : State) (r n' k' : Nat) (v : Region) : (s.setRegion r v).comm n' k' = s.comm n' k' := rfl
@[simp] theorem core_setRegion (s : State) (r k' : Nat) (v : Region) : (s.setRegion r v).core k' = s.core k' := rfl
@[simp] theorem slot_setRegion (s : State) (r k' i' : Nat) (v : Region) : (s.setRegion r v).slot k' i' = s.slot k' i' := rfl
@[simp] theorem engine_setRegion (s : State) (r e' : Nat) (v : Region) : (s.setRegion r v).engine e' = s.engine e' := rfl
@[simp] theorem witness_setRegion (s : State) (r n' : Nat) (v : Region) : (s.setRegion r v).witness n' = s.witness n' := rfl
@[simp] theorem trained_setRegion (s : State) (r g' : Nat) (v : Region) : (s.setRegion r v).trained g' = s.trained g' := rfl
@[simp] theorem trainedNow_setRegion (s : State) (r g' : Nat) (v : Region) : (s.setRegion r v).trainedNow g' = s.trainedNow g' := rfl
@[simp] theorem autumnResult_setRegion (s : State) (r n' : Nat) (v : Region) : (s.setRegion r v).autumnResult n' = s.autumnResult n' := rfl
@[simp] theorem health_setRegion (s : State) (r u' : Nat) (v : Region) : (s.setRegion r v).health u' = s.health u' := rfl
@[simp] theorem autumn_setRegion (s : State) (r n' : Nat) (v : Region) : (s.setRegion r v).autumn n' = s.autumn n' := rfl
@[simp] theorem gravel_setRegion (s : State) (r n' : Nat) (v : Region) : (s.setRegion r v).gravel n' = s.gravel n' := rfl
@[simp] theorem spdm_setRegion (s : State) (r k' : Nat) (v : Region) : (s.setRegion r v).spdm k' = s.spdm k' := rfl
@[simp] theorem link_setRegion (s : State) (r l' : Nat) (v : Region) : (s.setRegion r v).link l' = s.link l' := rfl
@[simp] theorem raw_setRegion (s : State) (r : Nat) (v : Region) (a : RegAt) : (s.setRegion r v).raw a = s.raw a := rfl
@[simp] theorem fld_setRegion (s : State) (r i' j' : Nat) (v : Region) (rf : RField) : (s.setRegion r v).fld rf i' j' = s.fld rf i' j' := rfl

/-! ### tensor -/

@[simp] theorem modTensor_eq (s : State) (p id : Nat) (upd : Tensor → Tensor) : s.modTensor p id upd = s.setTensor p id (upd (s.tensor p id)) := rfl
@[simp] theorem tensor_setTensor (s : State) (p id : Nat) (v : Tensor) : (s.setTensor p id v).tensor p id = v := tabGet_tabSet_same _ _ _ _
@[simp] theorem setTensor_module (s : State) (p id : Nat) (v : Tensor) : (s.setTensor p id v).module = s.module := rfl
@[simp] theorem setTensor_flash (s : State) (p id : Nat) (v : Tensor) : (s.setTensor p id v).flash = s.flash := rfl
@[simp] theorem setTensor_regs (s : State) (p id : Nat) (v : Tensor) : (s.setTensor p id v).regs = s.regs := rfl
@[simp] theorem setTensor_mem (s : State) (p id : Nat) (v : Tensor) : (s.setTensor p id v).mem = s.mem := rfl
@[simp] theorem setTensor_hostMem (s : State) (p id : Nat) (v : Tensor) : (s.setTensor p id v).hostMem = s.hostMem := rfl
@[simp] theorem setTensor_host (s : State) (p id : Nat) (v : Tensor) : (s.setTensor p id v).host = s.host := rfl
@[simp] theorem setTensor_objs_parts (s : State) (p id : Nat) (v : Tensor) : (s.setTensor p id v).objs.parts = s.objs.parts := rfl
@[simp] theorem setTensor_objs_ctxs (s : State) (p id : Nat) (v : Tensor) : (s.setTensor p id v).objs.ctxs = s.objs.ctxs := rfl
@[simp] theorem setTensor_objs_tallies (s : State) (p id : Nat) (v : Tensor) : (s.setTensor p id v).objs.tallies = s.objs.tallies := rfl
@[simp] theorem setTensor_objs_regions (s : State) (p id : Nat) (v : Tensor) : (s.setTensor p id v).objs.regions = s.objs.regions := rfl
@[simp] theorem setTensor_objs_gates (s : State) (p id : Nat) (v : Tensor) : (s.setTensor p id v).objs.gates = s.objs.gates := rfl
@[simp] theorem setTensor_objs_models (s : State) (p id : Nat) (v : Tensor) : (s.setTensor p id v).objs.models = s.objs.models := rfl
@[simp] theorem setTensor_objs_groups (s : State) (p id : Nat) (v : Tensor) : (s.setTensor p id v).objs.groups = s.objs.groups := rfl
@[simp] theorem setTensor_objs_comms (s : State) (p id : Nat) (v : Tensor) : (s.setTensor p id v).objs.comms = s.objs.comms := rfl
@[simp] theorem setTensor_work (s : State) (p id : Nat) (v : Tensor) : (s.setTensor p id v).work = s.work := rfl
@[simp] theorem setTensor_links (s : State) (p id : Nat) (v : Tensor) : (s.setTensor p id v).links = s.links := rfl
@[simp] theorem setTensor_power (s : State) (p id : Nat) (v : Tensor) : (s.setTensor p id v).power = s.power := rfl
@[simp] theorem setTensor_care (s : State) (p id : Nat) (v : Tensor) : (s.setTensor p id v).care = s.care := rfl
@[simp] theorem setTensor_security (s : State) (p id : Nat) (v : Tensor) : (s.setTensor p id v).security = s.security := rfl
@[simp] theorem setTensor_out (s : State) (p id : Nat) (v : Tensor) : (s.setTensor p id v).out = s.out := rfl
@[simp] theorem setTensor_freeCtr (s : State) (p id : Nat) (v : Tensor) : (s.setTensor p id v).freeCtr = s.freeCtr := rfl
@[simp] theorem setTensor_pending (s : State) (p id : Nat) (v : Tensor) : (s.setTensor p id v).pending = s.pending := rfl
@[simp] theorem fn_setTensor (s : State) (p id f' : Nat) (v : Tensor) : (s.setTensor p id v).fn f' = s.fn f' := rfl
@[simp] theorem queue_setTensor (s : State) (p id q' : Nat) (v : Tensor) : (s.setTensor p id v).queue q' = s.queue q' := rfl
@[simp] theorem part_setTensor (s : State) (p id p' : Nat) (v : Tensor) : (s.setTensor p id v).part p' = s.part p' := rfl
@[simp] theorem ctx_setTensor (s : State) (p id c' : Nat) (v : Tensor) : (s.setTensor p id v).ctx c' = s.ctx c' := rfl
@[simp] theorem tally_setTensor (s : State) (p id t' : Nat) (v : Tensor) : (s.setTensor p id v).tally t' = s.tally t' := rfl
@[simp] theorem region_setTensor (s : State) (p id r' : Nat) (v : Tensor) : (s.setTensor p id v).region r' = s.region r' := rfl
@[simp] theorem gate_setTensor (s : State) (p id p' g' : Nat) (v : Tensor) : (s.setTensor p id v).gate p' g' = s.gate p' g' := rfl
@[simp] theorem model_setTensor (s : State) (p id m' : Nat) (v : Tensor) : (s.setTensor p id v).model m' = s.model m' := rfl
@[simp] theorem group_setTensor (s : State) (p id g' : Nat) (v : Tensor) : (s.setTensor p id v).group g' = s.group g' := rfl
@[simp] theorem comm_setTensor (s : State) (p id n' k' : Nat) (v : Tensor) : (s.setTensor p id v).comm n' k' = s.comm n' k' := rfl
@[simp] theorem core_setTensor (s : State) (p id k' : Nat) (v : Tensor) : (s.setTensor p id v).core k' = s.core k' := rfl
@[simp] theorem slot_setTensor (s : State) (p id k' i' : Nat) (v : Tensor) : (s.setTensor p id v).slot k' i' = s.slot k' i' := rfl
@[simp] theorem engine_setTensor (s : State) (p id e' : Nat) (v : Tensor) : (s.setTensor p id v).engine e' = s.engine e' := rfl
@[simp] theorem witness_setTensor (s : State) (p id n' : Nat) (v : Tensor) : (s.setTensor p id v).witness n' = s.witness n' := rfl
@[simp] theorem trained_setTensor (s : State) (p id g' : Nat) (v : Tensor) : (s.setTensor p id v).trained g' = s.trained g' := rfl
@[simp] theorem trainedNow_setTensor (s : State) (p id g' : Nat) (v : Tensor) : (s.setTensor p id v).trainedNow g' = s.trainedNow g' := rfl
@[simp] theorem autumnResult_setTensor (s : State) (p id n' : Nat) (v : Tensor) : (s.setTensor p id v).autumnResult n' = s.autumnResult n' := rfl
@[simp] theorem health_setTensor (s : State) (p id u' : Nat) (v : Tensor) : (s.setTensor p id v).health u' = s.health u' := rfl
@[simp] theorem autumn_setTensor (s : State) (p id n' : Nat) (v : Tensor) : (s.setTensor p id v).autumn n' = s.autumn n' := rfl
@[simp] theorem gravel_setTensor (s : State) (p id n' : Nat) (v : Tensor) : (s.setTensor p id v).gravel n' = s.gravel n' := rfl
@[simp] theorem spdm_setTensor (s : State) (p id k' : Nat) (v : Tensor) : (s.setTensor p id v).spdm k' = s.spdm k' := rfl
@[simp] theorem link_setTensor (s : State) (p id l' : Nat) (v : Tensor) : (s.setTensor p id v).link l' = s.link l' := rfl
@[simp] theorem raw_setTensor (s : State) (p id : Nat) (v : Tensor) (a : RegAt) : (s.setTensor p id v).raw a = s.raw a := rfl
@[simp] theorem fld_setTensor (s : State) (p id i' j' : Nat) (v : Tensor) (rf : RField) : (s.setTensor p id v).fld rf i' j' = s.fld rf i' j' := rfl

/-! ### gate -/

@[simp] theorem modGate_eq (s : State) (p g : Nat) (upd : Gate → Gate) : s.modGate p g upd = s.setGate p g (upd (s.gate p g)) := rfl
@[simp] theorem gate_setGate (s : State) (p g : Nat) (v : Gate) : (s.setGate p g v).gate p g = v := tabGet_tabSet_same _ _ _ _
@[simp] theorem setGate_module (s : State) (p g : Nat) (v : Gate) : (s.setGate p g v).module = s.module := rfl
@[simp] theorem setGate_flash (s : State) (p g : Nat) (v : Gate) : (s.setGate p g v).flash = s.flash := rfl
@[simp] theorem setGate_regs (s : State) (p g : Nat) (v : Gate) : (s.setGate p g v).regs = s.regs := rfl
@[simp] theorem setGate_mem (s : State) (p g : Nat) (v : Gate) : (s.setGate p g v).mem = s.mem := rfl
@[simp] theorem setGate_hostMem (s : State) (p g : Nat) (v : Gate) : (s.setGate p g v).hostMem = s.hostMem := rfl
@[simp] theorem setGate_host (s : State) (p g : Nat) (v : Gate) : (s.setGate p g v).host = s.host := rfl
@[simp] theorem setGate_objs_parts (s : State) (p g : Nat) (v : Gate) : (s.setGate p g v).objs.parts = s.objs.parts := rfl
@[simp] theorem setGate_objs_ctxs (s : State) (p g : Nat) (v : Gate) : (s.setGate p g v).objs.ctxs = s.objs.ctxs := rfl
@[simp] theorem setGate_objs_tallies (s : State) (p g : Nat) (v : Gate) : (s.setGate p g v).objs.tallies = s.objs.tallies := rfl
@[simp] theorem setGate_objs_regions (s : State) (p g : Nat) (v : Gate) : (s.setGate p g v).objs.regions = s.objs.regions := rfl
@[simp] theorem setGate_objs_tensors (s : State) (p g : Nat) (v : Gate) : (s.setGate p g v).objs.tensors = s.objs.tensors := rfl
@[simp] theorem setGate_objs_models (s : State) (p g : Nat) (v : Gate) : (s.setGate p g v).objs.models = s.objs.models := rfl
@[simp] theorem setGate_objs_groups (s : State) (p g : Nat) (v : Gate) : (s.setGate p g v).objs.groups = s.objs.groups := rfl
@[simp] theorem setGate_objs_comms (s : State) (p g : Nat) (v : Gate) : (s.setGate p g v).objs.comms = s.objs.comms := rfl
@[simp] theorem setGate_work (s : State) (p g : Nat) (v : Gate) : (s.setGate p g v).work = s.work := rfl
@[simp] theorem setGate_links (s : State) (p g : Nat) (v : Gate) : (s.setGate p g v).links = s.links := rfl
@[simp] theorem setGate_power (s : State) (p g : Nat) (v : Gate) : (s.setGate p g v).power = s.power := rfl
@[simp] theorem setGate_care (s : State) (p g : Nat) (v : Gate) : (s.setGate p g v).care = s.care := rfl
@[simp] theorem setGate_security (s : State) (p g : Nat) (v : Gate) : (s.setGate p g v).security = s.security := rfl
@[simp] theorem setGate_out (s : State) (p g : Nat) (v : Gate) : (s.setGate p g v).out = s.out := rfl
@[simp] theorem setGate_freeCtr (s : State) (p g : Nat) (v : Gate) : (s.setGate p g v).freeCtr = s.freeCtr := rfl
@[simp] theorem setGate_pending (s : State) (p g : Nat) (v : Gate) : (s.setGate p g v).pending = s.pending := rfl
@[simp] theorem fn_setGate (s : State) (p g f' : Nat) (v : Gate) : (s.setGate p g v).fn f' = s.fn f' := rfl
@[simp] theorem queue_setGate (s : State) (p g q' : Nat) (v : Gate) : (s.setGate p g v).queue q' = s.queue q' := rfl
@[simp] theorem part_setGate (s : State) (p g p' : Nat) (v : Gate) : (s.setGate p g v).part p' = s.part p' := rfl
@[simp] theorem ctx_setGate (s : State) (p g c' : Nat) (v : Gate) : (s.setGate p g v).ctx c' = s.ctx c' := rfl
@[simp] theorem tally_setGate (s : State) (p g t' : Nat) (v : Gate) : (s.setGate p g v).tally t' = s.tally t' := rfl
@[simp] theorem region_setGate (s : State) (p g r' : Nat) (v : Gate) : (s.setGate p g v).region r' = s.region r' := rfl
@[simp] theorem tensor_setGate (s : State) (p g p' id' : Nat) (v : Gate) : (s.setGate p g v).tensor p' id' = s.tensor p' id' := rfl
@[simp] theorem model_setGate (s : State) (p g m' : Nat) (v : Gate) : (s.setGate p g v).model m' = s.model m' := rfl
@[simp] theorem group_setGate (s : State) (p g g' : Nat) (v : Gate) : (s.setGate p g v).group g' = s.group g' := rfl
@[simp] theorem comm_setGate (s : State) (p g n' k' : Nat) (v : Gate) : (s.setGate p g v).comm n' k' = s.comm n' k' := rfl
@[simp] theorem core_setGate (s : State) (p g k' : Nat) (v : Gate) : (s.setGate p g v).core k' = s.core k' := rfl
@[simp] theorem slot_setGate (s : State) (p g k' i' : Nat) (v : Gate) : (s.setGate p g v).slot k' i' = s.slot k' i' := rfl
@[simp] theorem engine_setGate (s : State) (p g e' : Nat) (v : Gate) : (s.setGate p g v).engine e' = s.engine e' := rfl
@[simp] theorem witness_setGate (s : State) (p g n' : Nat) (v : Gate) : (s.setGate p g v).witness n' = s.witness n' := rfl
@[simp] theorem trained_setGate (s : State) (p g g' : Nat) (v : Gate) : (s.setGate p g v).trained g' = s.trained g' := rfl
@[simp] theorem trainedNow_setGate (s : State) (p g g' : Nat) (v : Gate) : (s.setGate p g v).trainedNow g' = s.trainedNow g' := rfl
@[simp] theorem autumnResult_setGate (s : State) (p g n' : Nat) (v : Gate) : (s.setGate p g v).autumnResult n' = s.autumnResult n' := rfl
@[simp] theorem health_setGate (s : State) (p g u' : Nat) (v : Gate) : (s.setGate p g v).health u' = s.health u' := rfl
@[simp] theorem autumn_setGate (s : State) (p g n' : Nat) (v : Gate) : (s.setGate p g v).autumn n' = s.autumn n' := rfl
@[simp] theorem gravel_setGate (s : State) (p g n' : Nat) (v : Gate) : (s.setGate p g v).gravel n' = s.gravel n' := rfl
@[simp] theorem spdm_setGate (s : State) (p g k' : Nat) (v : Gate) : (s.setGate p g v).spdm k' = s.spdm k' := rfl
@[simp] theorem link_setGate (s : State) (p g l' : Nat) (v : Gate) : (s.setGate p g v).link l' = s.link l' := rfl
@[simp] theorem raw_setGate (s : State) (p g : Nat) (v : Gate) (a : RegAt) : (s.setGate p g v).raw a = s.raw a := rfl
@[simp] theorem fld_setGate (s : State) (p g i' j' : Nat) (v : Gate) (rf : RField) : (s.setGate p g v).fld rf i' j' = s.fld rf i' j' := rfl

/-! ### model -/

@[simp] theorem modModel_eq (s : State) (m : Nat) (upd : Model → Model) : s.modModel m upd = s.setModel m (upd (s.model m)) := rfl
@[simp] theorem model_setModel (s : State) (m : Nat) (v : Model) : (s.setModel m v).model m = v := tabGet_tabSet_same _ _ _ _
theorem model_setModel_ne (s : State) {m m' : Nat} (v : Model) (h : m ≠ m') : (s.setModel m v).model m' = s.model m' := by
  unfold State.model State.setModel
  simp [tabGet_tabSet, h]
@[simp] theorem setModel_module (s : State) (m : Nat) (v : Model) : (s.setModel m v).module = s.module := rfl
@[simp] theorem setModel_flash (s : State) (m : Nat) (v : Model) : (s.setModel m v).flash = s.flash := rfl
@[simp] theorem setModel_regs (s : State) (m : Nat) (v : Model) : (s.setModel m v).regs = s.regs := rfl
@[simp] theorem setModel_mem (s : State) (m : Nat) (v : Model) : (s.setModel m v).mem = s.mem := rfl
@[simp] theorem setModel_hostMem (s : State) (m : Nat) (v : Model) : (s.setModel m v).hostMem = s.hostMem := rfl
@[simp] theorem setModel_host (s : State) (m : Nat) (v : Model) : (s.setModel m v).host = s.host := rfl
@[simp] theorem setModel_objs_parts (s : State) (m : Nat) (v : Model) : (s.setModel m v).objs.parts = s.objs.parts := rfl
@[simp] theorem setModel_objs_ctxs (s : State) (m : Nat) (v : Model) : (s.setModel m v).objs.ctxs = s.objs.ctxs := rfl
@[simp] theorem setModel_objs_tallies (s : State) (m : Nat) (v : Model) : (s.setModel m v).objs.tallies = s.objs.tallies := rfl
@[simp] theorem setModel_objs_regions (s : State) (m : Nat) (v : Model) : (s.setModel m v).objs.regions = s.objs.regions := rfl
@[simp] theorem setModel_objs_tensors (s : State) (m : Nat) (v : Model) : (s.setModel m v).objs.tensors = s.objs.tensors := rfl
@[simp] theorem setModel_objs_gates (s : State) (m : Nat) (v : Model) : (s.setModel m v).objs.gates = s.objs.gates := rfl
@[simp] theorem setModel_objs_groups (s : State) (m : Nat) (v : Model) : (s.setModel m v).objs.groups = s.objs.groups := rfl
@[simp] theorem setModel_objs_comms (s : State) (m : Nat) (v : Model) : (s.setModel m v).objs.comms = s.objs.comms := rfl
@[simp] theorem setModel_work (s : State) (m : Nat) (v : Model) : (s.setModel m v).work = s.work := rfl
@[simp] theorem setModel_links (s : State) (m : Nat) (v : Model) : (s.setModel m v).links = s.links := rfl
@[simp] theorem setModel_power (s : State) (m : Nat) (v : Model) : (s.setModel m v).power = s.power := rfl
@[simp] theorem setModel_care (s : State) (m : Nat) (v : Model) : (s.setModel m v).care = s.care := rfl
@[simp] theorem setModel_security (s : State) (m : Nat) (v : Model) : (s.setModel m v).security = s.security := rfl
@[simp] theorem setModel_out (s : State) (m : Nat) (v : Model) : (s.setModel m v).out = s.out := rfl
@[simp] theorem setModel_freeCtr (s : State) (m : Nat) (v : Model) : (s.setModel m v).freeCtr = s.freeCtr := rfl
@[simp] theorem setModel_pending (s : State) (m : Nat) (v : Model) : (s.setModel m v).pending = s.pending := rfl
@[simp] theorem fn_setModel (s : State) (m f' : Nat) (v : Model) : (s.setModel m v).fn f' = s.fn f' := rfl
@[simp] theorem queue_setModel (s : State) (m q' : Nat) (v : Model) : (s.setModel m v).queue q' = s.queue q' := rfl
@[simp] theorem part_setModel (s : State) (m p' : Nat) (v : Model) : (s.setModel m v).part p' = s.part p' := rfl
@[simp] theorem ctx_setModel (s : State) (m c' : Nat) (v : Model) : (s.setModel m v).ctx c' = s.ctx c' := rfl
@[simp] theorem tally_setModel (s : State) (m t' : Nat) (v : Model) : (s.setModel m v).tally t' = s.tally t' := rfl
@[simp] theorem region_setModel (s : State) (m r' : Nat) (v : Model) : (s.setModel m v).region r' = s.region r' := rfl
@[simp] theorem tensor_setModel (s : State) (m p' id' : Nat) (v : Model) : (s.setModel m v).tensor p' id' = s.tensor p' id' := rfl
@[simp] theorem gate_setModel (s : State) (m p' g' : Nat) (v : Model) : (s.setModel m v).gate p' g' = s.gate p' g' := rfl
@[simp] theorem group_setModel (s : State) (m g' : Nat) (v : Model) : (s.setModel m v).group g' = s.group g' := rfl
@[simp] theorem comm_setModel (s : State) (m n' k' : Nat) (v : Model) : (s.setModel m v).comm n' k' = s.comm n' k' := rfl
@[simp] theorem core_setModel (s : State) (m k' : Nat) (v : Model) : (s.setModel m v).core k' = s.core k' := rfl
@[simp] theorem slot_setModel (s : State) (m k' i' : Nat) (v : Model) : (s.setModel m v).slot k' i' = s.slot k' i' := rfl
@[simp] theorem engine_setModel (s : State) (m e' : Nat) (v : Model) : (s.setModel m v).engine e' = s.engine e' := rfl
@[simp] theorem witness_setModel (s : State) (m n' : Nat) (v : Model) : (s.setModel m v).witness n' = s.witness n' := rfl
@[simp] theorem trained_setModel (s : State) (m g' : Nat) (v : Model) : (s.setModel m v).trained g' = s.trained g' := rfl
@[simp] theorem trainedNow_setModel (s : State) (m g' : Nat) (v : Model) : (s.setModel m v).trainedNow g' = s.trainedNow g' := rfl
@[simp] theorem autumnResult_setModel (s : State) (m n' : Nat) (v : Model) : (s.setModel m v).autumnResult n' = s.autumnResult n' := rfl
@[simp] theorem health_setModel (s : State) (m u' : Nat) (v : Model) : (s.setModel m v).health u' = s.health u' := rfl
@[simp] theorem autumn_setModel (s : State) (m n' : Nat) (v : Model) : (s.setModel m v).autumn n' = s.autumn n' := rfl
@[simp] theorem gravel_setModel (s : State) (m n' : Nat) (v : Model) : (s.setModel m v).gravel n' = s.gravel n' := rfl
@[simp] theorem spdm_setModel (s : State) (m k' : Nat) (v : Model) : (s.setModel m v).spdm k' = s.spdm k' := rfl
@[simp] theorem link_setModel (s : State) (m l' : Nat) (v : Model) : (s.setModel m v).link l' = s.link l' := rfl
@[simp] theorem raw_setModel (s : State) (m : Nat) (v : Model) (a : RegAt) : (s.setModel m v).raw a = s.raw a := rfl
@[simp] theorem fld_setModel (s : State) (m i' j' : Nat) (v : Model) (rf : RField) : (s.setModel m v).fld rf i' j' = s.fld rf i' j' := rfl

/-! ### group -/

@[simp] theorem modGroup_eq (s : State) (g : Nat) (upd : Group → Group) : s.modGroup g upd = s.setGroup g (upd (s.group g)) := rfl
@[simp] theorem group_setGroup (s : State) (g : Nat) (v : Group) : (s.setGroup g v).group g = v := tabGet_tabSet_same _ _ _ _
theorem group_setGroup_ne (s : State) {g g' : Nat} (v : Group) (h : g ≠ g') : (s.setGroup g v).group g' = s.group g' := by
  unfold State.group State.setGroup
  simp [tabGet_tabSet, h]
@[simp] theorem setGroup_module (s : State) (g : Nat) (v : Group) : (s.setGroup g v).module = s.module := rfl
@[simp] theorem setGroup_flash (s : State) (g : Nat) (v : Group) : (s.setGroup g v).flash = s.flash := rfl
@[simp] theorem setGroup_regs (s : State) (g : Nat) (v : Group) : (s.setGroup g v).regs = s.regs := rfl
@[simp] theorem setGroup_mem (s : State) (g : Nat) (v : Group) : (s.setGroup g v).mem = s.mem := rfl
@[simp] theorem setGroup_hostMem (s : State) (g : Nat) (v : Group) : (s.setGroup g v).hostMem = s.hostMem := rfl
@[simp] theorem setGroup_host (s : State) (g : Nat) (v : Group) : (s.setGroup g v).host = s.host := rfl
@[simp] theorem setGroup_objs_parts (s : State) (g : Nat) (v : Group) : (s.setGroup g v).objs.parts = s.objs.parts := rfl
@[simp] theorem setGroup_objs_ctxs (s : State) (g : Nat) (v : Group) : (s.setGroup g v).objs.ctxs = s.objs.ctxs := rfl
@[simp] theorem setGroup_objs_tallies (s : State) (g : Nat) (v : Group) : (s.setGroup g v).objs.tallies = s.objs.tallies := rfl
@[simp] theorem setGroup_objs_regions (s : State) (g : Nat) (v : Group) : (s.setGroup g v).objs.regions = s.objs.regions := rfl
@[simp] theorem setGroup_objs_tensors (s : State) (g : Nat) (v : Group) : (s.setGroup g v).objs.tensors = s.objs.tensors := rfl
@[simp] theorem setGroup_objs_gates (s : State) (g : Nat) (v : Group) : (s.setGroup g v).objs.gates = s.objs.gates := rfl
@[simp] theorem setGroup_objs_models (s : State) (g : Nat) (v : Group) : (s.setGroup g v).objs.models = s.objs.models := rfl
@[simp] theorem setGroup_objs_comms (s : State) (g : Nat) (v : Group) : (s.setGroup g v).objs.comms = s.objs.comms := rfl
@[simp] theorem setGroup_work (s : State) (g : Nat) (v : Group) : (s.setGroup g v).work = s.work := rfl
@[simp] theorem setGroup_links (s : State) (g : Nat) (v : Group) : (s.setGroup g v).links = s.links := rfl
@[simp] theorem setGroup_power (s : State) (g : Nat) (v : Group) : (s.setGroup g v).power = s.power := rfl
@[simp] theorem setGroup_care (s : State) (g : Nat) (v : Group) : (s.setGroup g v).care = s.care := rfl
@[simp] theorem setGroup_security (s : State) (g : Nat) (v : Group) : (s.setGroup g v).security = s.security := rfl
@[simp] theorem setGroup_out (s : State) (g : Nat) (v : Group) : (s.setGroup g v).out = s.out := rfl
@[simp] theorem setGroup_freeCtr (s : State) (g : Nat) (v : Group) : (s.setGroup g v).freeCtr = s.freeCtr := rfl
@[simp] theorem setGroup_pending (s : State) (g : Nat) (v : Group) : (s.setGroup g v).pending = s.pending := rfl
@[simp] theorem fn_setGroup (s : State) (g f' : Nat) (v : Group) : (s.setGroup g v).fn f' = s.fn f' := rfl
@[simp] theorem queue_setGroup (s : State) (g q' : Nat) (v : Group) : (s.setGroup g v).queue q' = s.queue q' := rfl
@[simp] theorem part_setGroup (s : State) (g p' : Nat) (v : Group) : (s.setGroup g v).part p' = s.part p' := rfl
@[simp] theorem ctx_setGroup (s : State) (g c' : Nat) (v : Group) : (s.setGroup g v).ctx c' = s.ctx c' := rfl
@[simp] theorem tally_setGroup (s : State) (g t' : Nat) (v : Group) : (s.setGroup g v).tally t' = s.tally t' := rfl
@[simp] theorem region_setGroup (s : State) (g r' : Nat) (v : Group) : (s.setGroup g v).region r' = s.region r' := rfl
@[simp] theorem tensor_setGroup (s : State) (g p' id' : Nat) (v : Group) : (s.setGroup g v).tensor p' id' = s.tensor p' id' := rfl
@[simp] theorem gate_setGroup (s : State) (g p' g' : Nat) (v : Group) : (s.setGroup g v).gate p' g' = s.gate p' g' := rfl
@[simp] theorem model_setGroup (s : State) (g m' : Nat) (v : Group) : (s.setGroup g v).model m' = s.model m' := rfl
@[simp] theorem comm_setGroup (s : State) (g n' k' : Nat) (v : Group) : (s.setGroup g v).comm n' k' = s.comm n' k' := rfl
@[simp] theorem core_setGroup (s : State) (g k' : Nat) (v : Group) : (s.setGroup g v).core k' = s.core k' := rfl
@[simp] theorem slot_setGroup (s : State) (g k' i' : Nat) (v : Group) : (s.setGroup g v).slot k' i' = s.slot k' i' := rfl
@[simp] theorem engine_setGroup (s : State) (g e' : Nat) (v : Group) : (s.setGroup g v).engine e' = s.engine e' := rfl
@[simp] theorem witness_setGroup (s : State) (g n' : Nat) (v : Group) : (s.setGroup g v).witness n' = s.witness n' := rfl
@[simp] theorem trained_setGroup (s : State) (g g' : Nat) (v : Group) : (s.setGroup g v).trained g' = s.trained g' := rfl
@[simp] theorem trainedNow_setGroup (s : State) (g g' : Nat) (v : Group) : (s.setGroup g v).trainedNow g' = s.trainedNow g' := rfl
@[simp] theorem autumnResult_setGroup (s : State) (g n' : Nat) (v : Group) : (s.setGroup g v).autumnResult n' = s.autumnResult n' := rfl
@[simp] theorem health_setGroup (s : State) (g u' : Nat) (v : Group) : (s.setGroup g v).health u' = s.health u' := rfl
@[simp] theorem autumn_setGroup (s : State) (g n' : Nat) (v : Group) : (s.setGroup g v).autumn n' = s.autumn n' := rfl
@[simp] theorem gravel_setGroup (s : State) (g n' : Nat) (v : Group) : (s.setGroup g v).gravel n' = s.gravel n' := rfl
@[simp] theorem spdm_setGroup (s : State) (g k' : Nat) (v : Group) : (s.setGroup g v).spdm k' = s.spdm k' := rfl
@[simp] theorem link_setGroup (s : State) (g l' : Nat) (v : Group) : (s.setGroup g v).link l' = s.link l' := rfl
@[simp] theorem raw_setGroup (s : State) (g : Nat) (v : Group) (a : RegAt) : (s.setGroup g v).raw a = s.raw a := rfl
@[simp] theorem fld_setGroup (s : State) (g i' j' : Nat) (v : Group) (rf : RField) : (s.setGroup g v).fld rf i' j' = s.fld rf i' j' := rfl

/-! ### comm -/

@[simp] theorem modComm_eq (s : State) (n k : Nat) (upd : Comm → Comm) : s.modComm n k upd = s.setComm n k (upd (s.comm n k)) := rfl
@[simp] theorem comm_setComm (s : State) (n k : Nat) (v : Comm) : (s.setComm n k v).comm n k = v := tabGet_tabSet_same _ _ _ _
@[simp] theorem setComm_module (s : State) (n k : Nat) (v : Comm) : (s.setComm n k v).module = s.module := rfl
@[simp] theorem setComm_flash (s : State) (n k : Nat) (v : Comm) : (s.setComm n k v).flash = s.flash := rfl
@[simp] theorem setComm_regs (s : State) (n k : Nat) (v : Comm) : (s.setComm n k v).regs = s.regs := rfl
@[simp] theorem setComm_mem (s : State) (n k : Nat) (v : Comm) : (s.setComm n k v).mem = s.mem := rfl
@[simp] theorem setComm_hostMem (s : State) (n k : Nat) (v : Comm) : (s.setComm n k v).hostMem = s.hostMem := rfl
@[simp] theorem setComm_host (s : State) (n k : Nat) (v : Comm) : (s.setComm n k v).host = s.host := rfl
@[simp] theorem setComm_objs_parts (s : State) (n k : Nat) (v : Comm) : (s.setComm n k v).objs.parts = s.objs.parts := rfl
@[simp] theorem setComm_objs_ctxs (s : State) (n k : Nat) (v : Comm) : (s.setComm n k v).objs.ctxs = s.objs.ctxs := rfl
@[simp] theorem setComm_objs_tallies (s : State) (n k : Nat) (v : Comm) : (s.setComm n k v).objs.tallies = s.objs.tallies := rfl
@[simp] theorem setComm_objs_regions (s : State) (n k : Nat) (v : Comm) : (s.setComm n k v).objs.regions = s.objs.regions := rfl
@[simp] theorem setComm_objs_tensors (s : State) (n k : Nat) (v : Comm) : (s.setComm n k v).objs.tensors = s.objs.tensors := rfl
@[simp] theorem setComm_objs_gates (s : State) (n k : Nat) (v : Comm) : (s.setComm n k v).objs.gates = s.objs.gates := rfl
@[simp] theorem setComm_objs_models (s : State) (n k : Nat) (v : Comm) : (s.setComm n k v).objs.models = s.objs.models := rfl
@[simp] theorem setComm_objs_groups (s : State) (n k : Nat) (v : Comm) : (s.setComm n k v).objs.groups = s.objs.groups := rfl
@[simp] theorem setComm_work (s : State) (n k : Nat) (v : Comm) : (s.setComm n k v).work = s.work := rfl
@[simp] theorem setComm_links (s : State) (n k : Nat) (v : Comm) : (s.setComm n k v).links = s.links := rfl
@[simp] theorem setComm_power (s : State) (n k : Nat) (v : Comm) : (s.setComm n k v).power = s.power := rfl
@[simp] theorem setComm_care (s : State) (n k : Nat) (v : Comm) : (s.setComm n k v).care = s.care := rfl
@[simp] theorem setComm_security (s : State) (n k : Nat) (v : Comm) : (s.setComm n k v).security = s.security := rfl
@[simp] theorem setComm_out (s : State) (n k : Nat) (v : Comm) : (s.setComm n k v).out = s.out := rfl
@[simp] theorem setComm_freeCtr (s : State) (n k : Nat) (v : Comm) : (s.setComm n k v).freeCtr = s.freeCtr := rfl
@[simp] theorem setComm_pending (s : State) (n k : Nat) (v : Comm) : (s.setComm n k v).pending = s.pending := rfl
@[simp] theorem fn_setComm (s : State) (n k f' : Nat) (v : Comm) : (s.setComm n k v).fn f' = s.fn f' := rfl
@[simp] theorem queue_setComm (s : State) (n k q' : Nat) (v : Comm) : (s.setComm n k v).queue q' = s.queue q' := rfl
@[simp] theorem part_setComm (s : State) (n k p' : Nat) (v : Comm) : (s.setComm n k v).part p' = s.part p' := rfl
@[simp] theorem ctx_setComm (s : State) (n k c' : Nat) (v : Comm) : (s.setComm n k v).ctx c' = s.ctx c' := rfl
@[simp] theorem tally_setComm (s : State) (n k t' : Nat) (v : Comm) : (s.setComm n k v).tally t' = s.tally t' := rfl
@[simp] theorem region_setComm (s : State) (n k r' : Nat) (v : Comm) : (s.setComm n k v).region r' = s.region r' := rfl
@[simp] theorem tensor_setComm (s : State) (n k p' id' : Nat) (v : Comm) : (s.setComm n k v).tensor p' id' = s.tensor p' id' := rfl
@[simp] theorem gate_setComm (s : State) (n k p' g' : Nat) (v : Comm) : (s.setComm n k v).gate p' g' = s.gate p' g' := rfl
@[simp] theorem model_setComm (s : State) (n k m' : Nat) (v : Comm) : (s.setComm n k v).model m' = s.model m' := rfl
@[simp] theorem group_setComm (s : State) (n k g' : Nat) (v : Comm) : (s.setComm n k v).group g' = s.group g' := rfl
@[simp] theorem core_setComm (s : State) (n k k' : Nat) (v : Comm) : (s.setComm n k v).core k' = s.core k' := rfl
@[simp] theorem slot_setComm (s : State) (n k k' i' : Nat) (v : Comm) : (s.setComm n k v).slot k' i' = s.slot k' i' := rfl
@[simp] theorem engine_setComm (s : State) (n k e' : Nat) (v : Comm) : (s.setComm n k v).engine e' = s.engine e' := rfl
@[simp] theorem witness_setComm (s : State) (n k n' : Nat) (v : Comm) : (s.setComm n k v).witness n' = s.witness n' := rfl
@[simp] theorem trained_setComm (s : State) (n k g' : Nat) (v : Comm) : (s.setComm n k v).trained g' = s.trained g' := rfl
@[simp] theorem trainedNow_setComm (s : State) (n k g' : Nat) (v : Comm) : (s.setComm n k v).trainedNow g' = s.trainedNow g' := rfl
@[simp] theorem autumnResult_setComm (s : State) (n k n' : Nat) (v : Comm) : (s.setComm n k v).autumnResult n' = s.autumnResult n' := rfl
@[simp] theorem health_setComm (s : State) (n k u' : Nat) (v : Comm) : (s.setComm n k v).health u' = s.health u' := rfl
@[simp] theorem autumn_setComm (s : State) (n k n' : Nat) (v : Comm) : (s.setComm n k v).autumn n' = s.autumn n' := rfl
@[simp] theorem gravel_setComm (s : State) (n k n' : Nat) (v : Comm) : (s.setComm n k v).gravel n' = s.gravel n' := rfl
@[simp] theorem spdm_setComm (s : State) (n k k' : Nat) (v : Comm) : (s.setComm n k v).spdm k' = s.spdm k' := rfl
@[simp] theorem link_setComm (s : State) (n k l' : Nat) (v : Comm) : (s.setComm n k v).link l' = s.link l' := rfl
@[simp] theorem raw_setComm (s : State) (n k : Nat) (v : Comm) (a : RegAt) : (s.setComm n k v).raw a = s.raw a := rfl
@[simp] theorem fld_setComm (s : State) (n k i' j' : Nat) (v : Comm) (rf : RField) : (s.setComm n k v).fld rf i' j' = s.fld rf i' j' := rfl

/-! ### core -/

@[simp] theorem modCore_eq (s : State) (k : Nat) (upd : Core → Core) : s.modCore k upd = s.setCore k (upd (s.core k)) := rfl
@[simp] theorem core_setCore (s : State) (k : Nat) (v : Core) : (s.setCore k v).core k = v := tabGet_tabSet_same _ _ _ _
theorem core_setCore_ne (s : State) {k k' : Nat} (v : Core) (h : k ≠ k') : (s.setCore k v).core k' = s.core k' := by
  unfold State.core State.setCore
  simp [tabGet_tabSet, h]
@[simp] theorem setCore_module (s : State) (k : Nat) (v : Core) : (s.setCore k v).module = s.module := rfl
@[simp] theorem setCore_flash (s : State) (k : Nat) (v : Core) : (s.setCore k v).flash = s.flash := rfl
@[simp] theorem setCore_regs (s : State) (k : Nat) (v : Core) : (s.setCore k v).regs = s.regs := rfl
@[simp] theorem setCore_mem (s : State) (k : Nat) (v : Core) : (s.setCore k v).mem = s.mem := rfl
@[simp] theorem setCore_hostMem (s : State) (k : Nat) (v : Core) : (s.setCore k v).hostMem = s.hostMem := rfl
@[simp] theorem setCore_host (s : State) (k : Nat) (v : Core) : (s.setCore k v).host = s.host := rfl
@[simp] theorem setCore_objs (s : State) (k : Nat) (v : Core) : (s.setCore k v).objs = s.objs := rfl
@[simp] theorem setCore_work_slots (s : State) (k : Nat) (v : Core) : (s.setCore k v).work.slots = s.work.slots := rfl
@[simp] theorem setCore_work_engines (s : State) (k : Nat) (v : Core) : (s.setCore k v).work.engines = s.work.engines := rfl
@[simp] theorem setCore_work_witness (s : State) (k : Nat) (v : Core) : (s.setCore k v).work.witness = s.work.witness := rfl
@[simp] theorem setCore_links (s : State) (k : Nat) (v : Core) : (s.setCore k v).links = s.links := rfl
@[simp] theorem setCore_power (s : State) (k : Nat) (v : Core) : (s.setCore k v).power = s.power := rfl
@[simp] theorem setCore_care (s : State) (k : Nat) (v : Core) : (s.setCore k v).care = s.care := rfl
@[simp] theorem setCore_security (s : State) (k : Nat) (v : Core) : (s.setCore k v).security = s.security := rfl
@[simp] theorem setCore_out (s : State) (k : Nat) (v : Core) : (s.setCore k v).out = s.out := rfl
@[simp] theorem setCore_freeCtr (s : State) (k : Nat) (v : Core) : (s.setCore k v).freeCtr = s.freeCtr := rfl
@[simp] theorem setCore_pending (s : State) (k : Nat) (v : Core) : (s.setCore k v).pending = s.pending := rfl
@[simp] theorem fn_setCore (s : State) (k f' : Nat) (v : Core) : (s.setCore k v).fn f' = s.fn f' := rfl
@[simp] theorem queue_setCore (s : State) (k q' : Nat) (v : Core) : (s.setCore k v).queue q' = s.queue q' := rfl
@[simp] theorem part_setCore (s : State) (k p' : Nat) (v : Core) : (s.setCore k v).part p' = s.part p' := rfl
@[simp] theorem ctx_setCore (s : State) (k c' : Nat) (v : Core) : (s.setCore k v).ctx c' = s.ctx c' := rfl
@[simp] theorem tally_setCore (s : State) (k t' : Nat) (v : Core) : (s.setCore k v).tally t' = s.tally t' := rfl
@[simp] theorem region_setCore (s : State) (k r' : Nat) (v : Core) : (s.setCore k v).region r' = s.region r' := rfl
@[simp] theorem tensor_setCore (s : State) (k p' id' : Nat) (v : Core) : (s.setCore k v).tensor p' id' = s.tensor p' id' := rfl
@[simp] theorem gate_setCore (s : State) (k p' g' : Nat) (v : Core) : (s.setCore k v).gate p' g' = s.gate p' g' := rfl
@[simp] theorem model_setCore (s : State) (k m' : Nat) (v : Core) : (s.setCore k v).model m' = s.model m' := rfl
@[simp] theorem group_setCore (s : State) (k g' : Nat) (v : Core) : (s.setCore k v).group g' = s.group g' := rfl
@[simp] theorem comm_setCore (s : State) (k n' k' : Nat) (v : Core) : (s.setCore k v).comm n' k' = s.comm n' k' := rfl
@[simp] theorem slot_setCore (s : State) (k k' i' : Nat) (v : Core) : (s.setCore k v).slot k' i' = s.slot k' i' := rfl
@[simp] theorem engine_setCore (s : State) (k e' : Nat) (v : Core) : (s.setCore k v).engine e' = s.engine e' := rfl
@[simp] theorem witness_setCore (s : State) (k n' : Nat) (v : Core) : (s.setCore k v).witness n' = s.witness n' := rfl
@[simp] theorem trained_setCore (s : State) (k g' : Nat) (v : Core) : (s.setCore k v).trained g' = s.trained g' := rfl
@[simp] theorem trainedNow_setCore (s : State) (k g' : Nat) (v : Core) : (s.setCore k v).trainedNow g' = s.trainedNow g' := rfl
@[simp] theorem autumnResult_setCore (s : State) (k n' : Nat) (v : Core) : (s.setCore k v).autumnResult n' = s.autumnResult n' := rfl
@[simp] theorem health_setCore (s : State) (k u' : Nat) (v : Core) : (s.setCore k v).health u' = s.health u' := rfl
@[simp] theorem autumn_setCore (s : State) (k n' : Nat) (v : Core) : (s.setCore k v).autumn n' = s.autumn n' := rfl
@[simp] theorem gravel_setCore (s : State) (k n' : Nat) (v : Core) : (s.setCore k v).gravel n' = s.gravel n' := rfl
@[simp] theorem spdm_setCore (s : State) (k k' : Nat) (v : Core) : (s.setCore k v).spdm k' = s.spdm k' := rfl
@[simp] theorem link_setCore (s : State) (k l' : Nat) (v : Core) : (s.setCore k v).link l' = s.link l' := rfl
@[simp] theorem raw_setCore (s : State) (k : Nat) (v : Core) (a : RegAt) : (s.setCore k v).raw a = s.raw a := rfl
@[simp] theorem fld_setCore (s : State) (k i' j' : Nat) (v : Core) (rf : RField) : (s.setCore k v).fld rf i' j' = s.fld rf i' j' := rfl

/-! ### slot -/

@[simp] theorem modSlot_eq (s : State) (k i : Nat) (upd : Slot → Slot) : s.modSlot k i upd = s.setSlot k i (upd (s.slot k i)) := rfl
@[simp] theorem slot_setSlot (s : State) (k i : Nat) (v : Slot) : (s.setSlot k i v).slot k i = v := tabGet_tabSet_same _ _ _ _
@[simp] theorem setSlot_module (s : State) (k i : Nat) (v : Slot) : (s.setSlot k i v).module = s.module := rfl
@[simp] theorem setSlot_flash (s : State) (k i : Nat) (v : Slot) : (s.setSlot k i v).flash = s.flash := rfl
@[simp] theorem setSlot_regs (s : State) (k i : Nat) (v : Slot) : (s.setSlot k i v).regs = s.regs := rfl
@[simp] theorem setSlot_mem (s : State) (k i : Nat) (v : Slot) : (s.setSlot k i v).mem = s.mem := rfl
@[simp] theorem setSlot_hostMem (s : State) (k i : Nat) (v : Slot) : (s.setSlot k i v).hostMem = s.hostMem := rfl
@[simp] theorem setSlot_host (s : State) (k i : Nat) (v : Slot) : (s.setSlot k i v).host = s.host := rfl
@[simp] theorem setSlot_objs (s : State) (k i : Nat) (v : Slot) : (s.setSlot k i v).objs = s.objs := rfl
@[simp] theorem setSlot_work_cores (s : State) (k i : Nat) (v : Slot) : (s.setSlot k i v).work.cores = s.work.cores := rfl
@[simp] theorem setSlot_work_engines (s : State) (k i : Nat) (v : Slot) : (s.setSlot k i v).work.engines = s.work.engines := rfl
@[simp] theorem setSlot_work_witness (s : State) (k i : Nat) (v : Slot) : (s.setSlot k i v).work.witness = s.work.witness := rfl
@[simp] theorem setSlot_links (s : State) (k i : Nat) (v : Slot) : (s.setSlot k i v).links = s.links := rfl
@[simp] theorem setSlot_power (s : State) (k i : Nat) (v : Slot) : (s.setSlot k i v).power = s.power := rfl
@[simp] theorem setSlot_care (s : State) (k i : Nat) (v : Slot) : (s.setSlot k i v).care = s.care := rfl
@[simp] theorem setSlot_security (s : State) (k i : Nat) (v : Slot) : (s.setSlot k i v).security = s.security := rfl
@[simp] theorem setSlot_out (s : State) (k i : Nat) (v : Slot) : (s.setSlot k i v).out = s.out := rfl
@[simp] theorem setSlot_freeCtr (s : State) (k i : Nat) (v : Slot) : (s.setSlot k i v).freeCtr = s.freeCtr := rfl
@[simp] theorem setSlot_pending (s : State) (k i : Nat) (v : Slot) : (s.setSlot k i v).pending = s.pending := rfl
@[simp] theorem fn_setSlot (s : State) (k i f' : Nat) (v : Slot) : (s.setSlot k i v).fn f' = s.fn f' := rfl
@[simp] theorem queue_setSlot (s : State) (k i q' : Nat) (v : Slot) : (s.setSlot k i v).queue q' = s.queue q' := rfl
@[simp] theorem part_setSlot (s : State) (k i p' : Nat) (v : Slot) : (s.setSlot k i v).part p' = s.part p' := rfl
@[simp] theorem ctx_setSlot (s : State) (k i c' : Nat) (v : Slot) : (s.setSlot k i v).ctx c' = s.ctx c' := rfl
@[simp] theorem tally_setSlot (s : State) (k i t' : Nat) (v : Slot) : (s.setSlot k i v).tally t' = s.tally t' := rfl
@[simp] theorem region_setSlot (s : State) (k i r' : Nat) (v : Slot) : (s.setSlot k i v).region r' = s.region r' := rfl
@[simp] theorem tensor_setSlot (s : State) (k i p' id' : Nat) (v : Slot) : (s.setSlot k i v).tensor p' id' = s.tensor p' id' := rfl
@[simp] theorem gate_setSlot (s : State) (k i p' g' : Nat) (v : Slot) : (s.setSlot k i v).gate p' g' = s.gate p' g' := rfl
@[simp] theorem model_setSlot (s : State) (k i m' : Nat) (v : Slot) : (s.setSlot k i v).model m' = s.model m' := rfl
@[simp] theorem group_setSlot (s : State) (k i g' : Nat) (v : Slot) : (s.setSlot k i v).group g' = s.group g' := rfl
@[simp] theorem comm_setSlot (s : State) (k i n' k' : Nat) (v : Slot) : (s.setSlot k i v).comm n' k' = s.comm n' k' := rfl
@[simp] theorem core_setSlot (s : State) (k i k' : Nat) (v : Slot) : (s.setSlot k i v).core k' = s.core k' := rfl
@[simp] theorem engine_setSlot (s : State) (k i e' : Nat) (v : Slot) : (s.setSlot k i v).engine e' = s.engine e' := rfl
@[simp] theorem witness_setSlot (s : State) (k i n' : Nat) (v : Slot) : (s.setSlot k i v).witness n' = s.witness n' := rfl
@[simp] theorem trained_setSlot (s : State) (k i g' : Nat) (v : Slot) : (s.setSlot k i v).trained g' = s.trained g' := rfl
@[simp] theorem trainedNow_setSlot (s : State) (k i g' : Nat) (v : Slot) : (s.setSlot k i v).trainedNow g' = s.trainedNow g' := rfl
@[simp] theorem autumnResult_setSlot (s : State) (k i n' : Nat) (v : Slot) : (s.setSlot k i v).autumnResult n' = s.autumnResult n' := rfl
@[simp] theorem health_setSlot (s : State) (k i u' : Nat) (v : Slot) : (s.setSlot k i v).health u' = s.health u' := rfl
@[simp] theorem autumn_setSlot (s : State) (k i n' : Nat) (v : Slot) : (s.setSlot k i v).autumn n' = s.autumn n' := rfl
@[simp] theorem gravel_setSlot (s : State) (k i n' : Nat) (v : Slot) : (s.setSlot k i v).gravel n' = s.gravel n' := rfl
@[simp] theorem spdm_setSlot (s : State) (k i k' : Nat) (v : Slot) : (s.setSlot k i v).spdm k' = s.spdm k' := rfl
@[simp] theorem link_setSlot (s : State) (k i l' : Nat) (v : Slot) : (s.setSlot k i v).link l' = s.link l' := rfl
@[simp] theorem raw_setSlot (s : State) (k i : Nat) (v : Slot) (a : RegAt) : (s.setSlot k i v).raw a = s.raw a := rfl
@[simp] theorem fld_setSlot (s : State) (k i i' j' : Nat) (v : Slot) (rf : RField) : (s.setSlot k i v).fld rf i' j' = s.fld rf i' j' := rfl

/-! ### engine -/

@[simp] theorem modEngine_eq (s : State) (e : Nat) (upd : Engine → Engine) : s.modEngine e upd = s.setEngine e (upd (s.engine e)) := rfl
@[simp] theorem engine_setEngine (s : State) (e : Nat) (v : Engine) : (s.setEngine e v).engine e = v := tabGet_tabSet_same _ _ _ _
theorem engine_setEngine_ne (s : State) {e e' : Nat} (v : Engine) (h : e ≠ e') : (s.setEngine e v).engine e' = s.engine e' := by
  unfold State.engine State.setEngine
  simp [tabGet_tabSet, h]
@[simp] theorem setEngine_module (s : State) (e : Nat) (v : Engine) : (s.setEngine e v).module = s.module := rfl
@[simp] theorem setEngine_flash (s : State) (e : Nat) (v : Engine) : (s.setEngine e v).flash = s.flash := rfl
@[simp] theorem setEngine_regs (s : State) (e : Nat) (v : Engine) : (s.setEngine e v).regs = s.regs := rfl
@[simp] theorem setEngine_mem (s : State) (e : Nat) (v : Engine) : (s.setEngine e v).mem = s.mem := rfl
@[simp] theorem setEngine_hostMem (s : State) (e : Nat) (v : Engine) : (s.setEngine e v).hostMem = s.hostMem := rfl
@[simp] theorem setEngine_host (s : State) (e : Nat) (v : Engine) : (s.setEngine e v).host = s.host := rfl
@[simp] theorem setEngine_objs (s : State) (e : Nat) (v : Engine) : (s.setEngine e v).objs = s.objs := rfl
@[simp] theorem setEngine_work_cores (s : State) (e : Nat) (v : Engine) : (s.setEngine e v).work.cores = s.work.cores := rfl
@[simp] theorem setEngine_work_slots (s : State) (e : Nat) (v : Engine) : (s.setEngine e v).work.slots = s.work.slots := rfl
@[simp] theorem setEngine_work_witness (s : State) (e : Nat) (v : Engine) : (s.setEngine e v).work.witness = s.work.witness := rfl
@[simp] theorem setEngine_links (s : State) (e : Nat) (v : Engine) : (s.setEngine e v).links = s.links := rfl
@[simp] theorem setEngine_power (s : State) (e : Nat) (v : Engine) : (s.setEngine e v).power = s.power := rfl
@[simp] theorem setEngine_care (s : State) (e : Nat) (v : Engine) : (s.setEngine e v).care = s.care := rfl
@[simp] theorem setEngine_security (s : State) (e : Nat) (v : Engine) : (s.setEngine e v).security = s.security := rfl
@[simp] theorem setEngine_out (s : State) (e : Nat) (v : Engine) : (s.setEngine e v).out = s.out := rfl
@[simp] theorem setEngine_freeCtr (s : State) (e : Nat) (v : Engine) : (s.setEngine e v).freeCtr = s.freeCtr := rfl
@[simp] theorem setEngine_pending (s : State) (e : Nat) (v : Engine) : (s.setEngine e v).pending = s.pending := rfl
@[simp] theorem fn_setEngine (s : State) (e f' : Nat) (v : Engine) : (s.setEngine e v).fn f' = s.fn f' := rfl
@[simp] theorem queue_setEngine (s : State) (e q' : Nat) (v : Engine) : (s.setEngine e v).queue q' = s.queue q' := rfl
@[simp] theorem part_setEngine (s : State) (e p' : Nat) (v : Engine) : (s.setEngine e v).part p' = s.part p' := rfl
@[simp] theorem ctx_setEngine (s : State) (e c' : Nat) (v : Engine) : (s.setEngine e v).ctx c' = s.ctx c' := rfl
@[simp] theorem tally_setEngine (s : State) (e t' : Nat) (v : Engine) : (s.setEngine e v).tally t' = s.tally t' := rfl
@[simp] theorem region_setEngine (s : State) (e r' : Nat) (v : Engine) : (s.setEngine e v).region r' = s.region r' := rfl
@[simp] theorem tensor_setEngine (s : State) (e p' id' : Nat) (v : Engine) : (s.setEngine e v).tensor p' id' = s.tensor p' id' := rfl
@[simp] theorem gate_setEngine (s : State) (e p' g' : Nat) (v : Engine) : (s.setEngine e v).gate p' g' = s.gate p' g' := rfl
@[simp] theorem model_setEngine (s : State) (e m' : Nat) (v : Engine) : (s.setEngine e v).model m' = s.model m' := rfl
@[simp] theorem group_setEngine (s : State) (e g' : Nat) (v : Engine) : (s.setEngine e v).group g' = s.group g' := rfl
@[simp] theorem comm_setEngine (s : State) (e n' k' : Nat) (v : Engine) : (s.setEngine e v).comm n' k' = s.comm n' k' := rfl
@[simp] theorem core_setEngine (s : State) (e k' : Nat) (v : Engine) : (s.setEngine e v).core k' = s.core k' := rfl
@[simp] theorem slot_setEngine (s : State) (e k' i' : Nat) (v : Engine) : (s.setEngine e v).slot k' i' = s.slot k' i' := rfl
@[simp] theorem witness_setEngine (s : State) (e n' : Nat) (v : Engine) : (s.setEngine e v).witness n' = s.witness n' := rfl
@[simp] theorem trained_setEngine (s : State) (e g' : Nat) (v : Engine) : (s.setEngine e v).trained g' = s.trained g' := rfl
@[simp] theorem trainedNow_setEngine (s : State) (e g' : Nat) (v : Engine) : (s.setEngine e v).trainedNow g' = s.trainedNow g' := rfl
@[simp] theorem autumnResult_setEngine (s : State) (e n' : Nat) (v : Engine) : (s.setEngine e v).autumnResult n' = s.autumnResult n' := rfl
@[simp] theorem health_setEngine (s : State) (e u' : Nat) (v : Engine) : (s.setEngine e v).health u' = s.health u' := rfl
@[simp] theorem autumn_setEngine (s : State) (e n' : Nat) (v : Engine) : (s.setEngine e v).autumn n' = s.autumn n' := rfl
@[simp] theorem gravel_setEngine (s : State) (e n' : Nat) (v : Engine) : (s.setEngine e v).gravel n' = s.gravel n' := rfl
@[simp] theorem spdm_setEngine (s : State) (e k' : Nat) (v : Engine) : (s.setEngine e v).spdm k' = s.spdm k' := rfl
@[simp] theorem link_setEngine (s : State) (e l' : Nat) (v : Engine) : (s.setEngine e v).link l' = s.link l' := rfl
@[simp] theorem raw_setEngine (s : State) (e : Nat) (v : Engine) (a : RegAt) : (s.setEngine e v).raw a = s.raw a := rfl
@[simp] theorem fld_setEngine (s : State) (e i' j' : Nat) (v : Engine) (rf : RField) : (s.setEngine e v).fld rf i' j' = s.fld rf i' j' := rfl

/-! ### witness -/

@[simp] theorem modWitness_eq (s : State) (n : Nat) (upd : (Option Sample) → (Option Sample)) : s.modWitness n upd = s.setWitness n (upd (s.witness n)) := rfl
@[simp] theorem witness_setWitness (s : State) (n : Nat) (v : (Option Sample)) : (s.setWitness n v).witness n = v := tabGet_tabSet_same _ _ _ _
theorem witness_setWitness_ne (s : State) {n n' : Nat} (v : (Option Sample)) (h : n ≠ n') : (s.setWitness n v).witness n' = s.witness n' := by
  unfold State.witness State.setWitness
  simp [tabGet_tabSet, h]
@[simp] theorem setWitness_module (s : State) (n : Nat) (v : (Option Sample)) : (s.setWitness n v).module = s.module := rfl
@[simp] theorem setWitness_flash (s : State) (n : Nat) (v : (Option Sample)) : (s.setWitness n v).flash = s.flash := rfl
@[simp] theorem setWitness_regs (s : State) (n : Nat) (v : (Option Sample)) : (s.setWitness n v).regs = s.regs := rfl
@[simp] theorem setWitness_mem (s : State) (n : Nat) (v : (Option Sample)) : (s.setWitness n v).mem = s.mem := rfl
@[simp] theorem setWitness_hostMem (s : State) (n : Nat) (v : (Option Sample)) : (s.setWitness n v).hostMem = s.hostMem := rfl
@[simp] theorem setWitness_host (s : State) (n : Nat) (v : (Option Sample)) : (s.setWitness n v).host = s.host := rfl
@[simp] theorem setWitness_objs (s : State) (n : Nat) (v : (Option Sample)) : (s.setWitness n v).objs = s.objs := rfl
@[simp] theorem setWitness_work_cores (s : State) (n : Nat) (v : (Option Sample)) : (s.setWitness n v).work.cores = s.work.cores := rfl
@[simp] theorem setWitness_work_slots (s : State) (n : Nat) (v : (Option Sample)) : (s.setWitness n v).work.slots = s.work.slots := rfl
@[simp] theorem setWitness_work_engines (s : State) (n : Nat) (v : (Option Sample)) : (s.setWitness n v).work.engines = s.work.engines := rfl
@[simp] theorem setWitness_links (s : State) (n : Nat) (v : (Option Sample)) : (s.setWitness n v).links = s.links := rfl
@[simp] theorem setWitness_power (s : State) (n : Nat) (v : (Option Sample)) : (s.setWitness n v).power = s.power := rfl
@[simp] theorem setWitness_care (s : State) (n : Nat) (v : (Option Sample)) : (s.setWitness n v).care = s.care := rfl
@[simp] theorem setWitness_security (s : State) (n : Nat) (v : (Option Sample)) : (s.setWitness n v).security = s.security := rfl
@[simp] theorem setWitness_out (s : State) (n : Nat) (v : (Option Sample)) : (s.setWitness n v).out = s.out := rfl
@[simp] theorem setWitness_freeCtr (s : State) (n : Nat) (v : (Option Sample)) : (s.setWitness n v).freeCtr = s.freeCtr := rfl
@[simp] theorem setWitness_pending (s : State) (n : Nat) (v : (Option Sample)) : (s.setWitness n v).pending = s.pending := rfl
@[simp] theorem fn_setWitness (s : State) (n f' : Nat) (v : (Option Sample)) : (s.setWitness n v).fn f' = s.fn f' := rfl
@[simp] theorem queue_setWitness (s : State) (n q' : Nat) (v : (Option Sample)) : (s.setWitness n v).queue q' = s.queue q' := rfl
@[simp] theorem part_setWitness (s : State) (n p' : Nat) (v : (Option Sample)) : (s.setWitness n v).part p' = s.part p' := rfl
@[simp] theorem ctx_setWitness (s : State) (n c' : Nat) (v : (Option Sample)) : (s.setWitness n v).ctx c' = s.ctx c' := rfl
@[simp] theorem tally_setWitness (s : State) (n t' : Nat) (v : (Option Sample)) : (s.setWitness n v).tally t' = s.tally t' := rfl
@[simp] theorem region_setWitness (s : State) (n r' : Nat) (v : (Option Sample)) : (s.setWitness n v).region r' = s.region r' := rfl
@[simp] theorem tensor_setWitness (s : State) (n p' id' : Nat) (v : (Option Sample)) : (s.setWitness n v).tensor p' id' = s.tensor p' id' := rfl
@[simp] theorem gate_setWitness (s : State) (n p' g' : Nat) (v : (Option Sample)) : (s.setWitness n v).gate p' g' = s.gate p' g' := rfl
@[simp] theorem model_setWitness (s : State) (n m' : Nat) (v : (Option Sample)) : (s.setWitness n v).model m' = s.model m' := rfl
@[simp] theorem group_setWitness (s : State) (n g' : Nat) (v : (Option Sample)) : (s.setWitness n v).group g' = s.group g' := rfl
@[simp] theorem comm_setWitness (s : State) (n n' k' : Nat) (v : (Option Sample)) : (s.setWitness n v).comm n' k' = s.comm n' k' := rfl
@[simp] theorem core_setWitness (s : State) (n k' : Nat) (v : (Option Sample)) : (s.setWitness n v).core k' = s.core k' := rfl
@[simp] theorem slot_setWitness (s : State) (n k' i' : Nat) (v : (Option Sample)) : (s.setWitness n v).slot k' i' = s.slot k' i' := rfl
@[simp] theorem engine_setWitness (s : State) (n e' : Nat) (v : (Option Sample)) : (s.setWitness n v).engine e' = s.engine e' := rfl
@[simp] theorem trained_setWitness (s : State) (n g' : Nat) (v : (Option Sample)) : (s.setWitness n v).trained g' = s.trained g' := rfl
@[simp] theorem trainedNow_setWitness (s : State) (n g' : Nat) (v : (Option Sample)) : (s.setWitness n v).trainedNow g' = s.trainedNow g' := rfl
@[simp] theorem autumnResult_setWitness (s : State) (n n' : Nat) (v : (Option Sample)) : (s.setWitness n v).autumnResult n' = s.autumnResult n' := rfl
@[simp] theorem health_setWitness (s : State) (n u' : Nat) (v : (Option Sample)) : (s.setWitness n v).health u' = s.health u' := rfl
@[simp] theorem autumn_setWitness (s : State) (n n' : Nat) (v : (Option Sample)) : (s.setWitness n v).autumn n' = s.autumn n' := rfl
@[simp] theorem gravel_setWitness (s : State) (n n' : Nat) (v : (Option Sample)) : (s.setWitness n v).gravel n' = s.gravel n' := rfl
@[simp] theorem spdm_setWitness (s : State) (n k' : Nat) (v : (Option Sample)) : (s.setWitness n v).spdm k' = s.spdm k' := rfl
@[simp] theorem link_setWitness (s : State) (n l' : Nat) (v : (Option Sample)) : (s.setWitness n v).link l' = s.link l' := rfl
@[simp] theorem raw_setWitness (s : State) (n : Nat) (v : (Option Sample)) (a : RegAt) : (s.setWitness n v).raw a = s.raw a := rfl
@[simp] theorem fld_setWitness (s : State) (n i' j' : Nat) (v : (Option Sample)) (rf : RField) : (s.setWitness n v).fld rf i' j' = s.fld rf i' j' := rfl

/-! ### trained -/

@[simp] theorem modTrained_eq (s : State) (g : Nat) (upd : Trained → Trained) : s.modTrained g upd = s.setTrained g (upd (s.trained g)) := rfl
@[simp] theorem trained_setTrained (s : State) (g : Nat) (v : Trained) : (s.setTrained g v).trained g = v := tabGet_tabSet_same _ _ _ _
theorem trained_setTrained_ne (s : State) {g g' : Nat} (v : Trained) (h : g ≠ g') : (s.setTrained g v).trained g' = s.trained g' := by
  unfold State.trained State.setTrained
  simp [tabGet_tabSet, h]
@[simp] theorem setTrained_module (s : State) (g : Nat) (v : Trained) : (s.setTrained g v).module = s.module := rfl
@[simp] theorem setTrained_regs (s : State) (g : Nat) (v : Trained) : (s.setTrained g v).regs = s.regs := rfl
@[simp] theorem setTrained_mem (s : State) (g : Nat) (v : Trained) : (s.setTrained g v).mem = s.mem := rfl
@[simp] theorem setTrained_hostMem (s : State) (g : Nat) (v : Trained) : (s.setTrained g v).hostMem = s.hostMem := rfl
@[simp] theorem setTrained_host (s : State) (g : Nat) (v : Trained) : (s.setTrained g v).host = s.host := rfl
@[simp] theorem setTrained_objs (s : State) (g : Nat) (v : Trained) : (s.setTrained g v).objs = s.objs := rfl
@[simp] theorem setTrained_work (s : State) (g : Nat) (v : Trained) : (s.setTrained g v).work = s.work := rfl
@[simp] theorem setTrained_links (s : State) (g : Nat) (v : Trained) : (s.setTrained g v).links = s.links := rfl
@[simp] theorem setTrained_power (s : State) (g : Nat) (v : Trained) : (s.setTrained g v).power = s.power := rfl
@[simp] theorem setTrained_care (s : State) (g : Nat) (v : Trained) : (s.setTrained g v).care = s.care := rfl
@[simp] theorem setTrained_security (s : State) (g : Nat) (v : Trained) : (s.setTrained g v).security = s.security := rfl
@[simp] theorem setTrained_out (s : State) (g : Nat) (v : Trained) : (s.setTrained g v).out = s.out := rfl
@[simp] theorem setTrained_freeCtr (s : State) (g : Nat) (v : Trained) : (s.setTrained g v).freeCtr = s.freeCtr := rfl
@[simp] theorem setTrained_pending (s : State) (g : Nat) (v : Trained) : (s.setTrained g v).pending = s.pending := rfl
@[simp] theorem fn_setTrained (s : State) (g f' : Nat) (v : Trained) : (s.setTrained g v).fn f' = s.fn f' := rfl
@[simp] theorem queue_setTrained (s : State) (g q' : Nat) (v : Trained) : (s.setTrained g v).queue q' = s.queue q' := rfl
@[simp] theorem part_setTrained (s : State) (g p' : Nat) (v : Trained) : (s.setTrained g v).part p' = s.part p' := rfl
@[simp] theorem ctx_setTrained (s : State) (g c' : Nat) (v : Trained) : (s.setTrained g v).ctx c' = s.ctx c' := rfl
@[simp] theorem tally_setTrained (s : State) (g t' : Nat) (v : Trained) : (s.setTrained g v).tally t' = s.tally t' := rfl
@[simp] theorem region_setTrained (s : State) (g r' : Nat) (v : Trained) : (s.setTrained g v).region r' = s.region r' := rfl
@[simp] theorem tensor_setTrained (s : State) (g p' id' : Nat) (v : Trained) : (s.setTrained g v).tensor p' id' = s.tensor p' id' := rfl
@[simp] theorem gate_setTrained (s : State) (g p' g' : Nat) (v : Trained) : (s.setTrained g v).gate p' g' = s.gate p' g' := rfl
@[simp] theorem model_setTrained (s : State) (g m' : Nat) (v : Trained) : (s.setTrained g v).model m' = s.model m' := rfl
@[simp] theorem group_setTrained (s : State) (g g' : Nat) (v : Trained) : (s.setTrained g v).group g' = s.group g' := rfl
@[simp] theorem comm_setTrained (s : State) (g n' k' : Nat) (v : Trained) : (s.setTrained g v).comm n' k' = s.comm n' k' := rfl
@[simp] theorem core_setTrained (s : State) (g k' : Nat) (v : Trained) : (s.setTrained g v).core k' = s.core k' := rfl
@[simp] theorem slot_setTrained (s : State) (g k' i' : Nat) (v : Trained) : (s.setTrained g v).slot k' i' = s.slot k' i' := rfl
@[simp] theorem engine_setTrained (s : State) (g e' : Nat) (v : Trained) : (s.setTrained g v).engine e' = s.engine e' := rfl
@[simp] theorem witness_setTrained (s : State) (g n' : Nat) (v : Trained) : (s.setTrained g v).witness n' = s.witness n' := rfl
@[simp] theorem trainedNow_setTrained (s : State) (g g' : Nat) (v : Trained) : (s.setTrained g v).trainedNow g' = s.trainedNow g' := rfl
@[simp] theorem autumnResult_setTrained (s : State) (g n' : Nat) (v : Trained) : (s.setTrained g v).autumnResult n' = s.autumnResult n' := rfl
@[simp] theorem health_setTrained (s : State) (g u' : Nat) (v : Trained) : (s.setTrained g v).health u' = s.health u' := rfl
@[simp] theorem autumn_setTrained (s : State) (g n' : Nat) (v : Trained) : (s.setTrained g v).autumn n' = s.autumn n' := rfl
@[simp] theorem gravel_setTrained (s : State) (g n' : Nat) (v : Trained) : (s.setTrained g v).gravel n' = s.gravel n' := rfl
@[simp] theorem spdm_setTrained (s : State) (g k' : Nat) (v : Trained) : (s.setTrained g v).spdm k' = s.spdm k' := rfl
@[simp] theorem link_setTrained (s : State) (g l' : Nat) (v : Trained) : (s.setTrained g v).link l' = s.link l' := rfl
@[simp] theorem raw_setTrained (s : State) (g : Nat) (v : Trained) (a : RegAt) : (s.setTrained g v).raw a = s.raw a := rfl
@[simp] theorem fld_setTrained (s : State) (g i' j' : Nat) (v : Trained) (rf : RField) : (s.setTrained g v).fld rf i' j' = s.fld rf i' j' := rfl

/-! ### trainedNow -/

@[simp] theorem modTrainedNow_eq (s : State) (g : Nat) (upd : Trained → Trained) : s.modTrainedNow g upd = s.setTrainedNow g (upd (s.trainedNow g)) := rfl
@[simp] theorem trainedNow_setTrainedNow (s : State) (g : Nat) (v : Trained) : (s.setTrainedNow g v).trainedNow g = v := tabGet_tabSet_same _ _ _ _
theorem trainedNow_setTrainedNow_ne (s : State) {g g' : Nat} (v : Trained) (h : g ≠ g') : (s.setTrainedNow g v).trainedNow g' = s.trainedNow g' := by
  unfold State.trainedNow State.setTrainedNow
  simp [tabGet_tabSet, h]
@[simp] theorem setTrainedNow_flash (s : State) (g : Nat) (v : Trained) : (s.setTrainedNow g v).flash = s.flash := rfl
@[simp] theorem setTrainedNow_regs (s : State) (g : Nat) (v : Trained) : (s.setTrainedNow g v).regs = s.regs := rfl
@[simp] theorem setTrainedNow_mem (s : State) (g : Nat) (v : Trained) : (s.setTrainedNow g v).mem = s.mem := rfl
@[simp] theorem setTrainedNow_hostMem (s : State) (g : Nat) (v : Trained) : (s.setTrainedNow g v).hostMem = s.hostMem := rfl
@[simp] theorem setTrainedNow_host (s : State) (g : Nat) (v : Trained) : (s.setTrainedNow g v).host = s.host := rfl
@[simp] theorem setTrainedNow_objs (s : State) (g : Nat) (v : Trained) : (s.setTrainedNow g v).objs = s.objs := rfl
@[simp] theorem setTrainedNow_work (s : State) (g : Nat) (v : Trained) : (s.setTrainedNow g v).work = s.work := rfl
@[simp] theorem setTrainedNow_links (s : State) (g : Nat) (v : Trained) : (s.setTrainedNow g v).links = s.links := rfl
@[simp] theorem setTrainedNow_power (s : State) (g : Nat) (v : Trained) : (s.setTrainedNow g v).power = s.power := rfl
@[simp] theorem setTrainedNow_care (s : State) (g : Nat) (v : Trained) : (s.setTrainedNow g v).care = s.care := rfl
@[simp] theorem setTrainedNow_security (s : State) (g : Nat) (v : Trained) : (s.setTrainedNow g v).security = s.security := rfl
@[simp] theorem setTrainedNow_out (s : State) (g : Nat) (v : Trained) : (s.setTrainedNow g v).out = s.out := rfl
@[simp] theorem setTrainedNow_freeCtr (s : State) (g : Nat) (v : Trained) : (s.setTrainedNow g v).freeCtr = s.freeCtr := rfl
@[simp] theorem setTrainedNow_pending (s : State) (g : Nat) (v : Trained) : (s.setTrainedNow g v).pending = s.pending := rfl
@[simp] theorem fn_setTrainedNow (s : State) (g f' : Nat) (v : Trained) : (s.setTrainedNow g v).fn f' = s.fn f' := rfl
@[simp] theorem queue_setTrainedNow (s : State) (g q' : Nat) (v : Trained) : (s.setTrainedNow g v).queue q' = s.queue q' := rfl
@[simp] theorem part_setTrainedNow (s : State) (g p' : Nat) (v : Trained) : (s.setTrainedNow g v).part p' = s.part p' := rfl
@[simp] theorem ctx_setTrainedNow (s : State) (g c' : Nat) (v : Trained) : (s.setTrainedNow g v).ctx c' = s.ctx c' := rfl
@[simp] theorem tally_setTrainedNow (s : State) (g t' : Nat) (v : Trained) : (s.setTrainedNow g v).tally t' = s.tally t' := rfl
@[simp] theorem region_setTrainedNow (s : State) (g r' : Nat) (v : Trained) : (s.setTrainedNow g v).region r' = s.region r' := rfl
@[simp] theorem tensor_setTrainedNow (s : State) (g p' id' : Nat) (v : Trained) : (s.setTrainedNow g v).tensor p' id' = s.tensor p' id' := rfl
@[simp] theorem gate_setTrainedNow (s : State) (g p' g' : Nat) (v : Trained) : (s.setTrainedNow g v).gate p' g' = s.gate p' g' := rfl
@[simp] theorem model_setTrainedNow (s : State) (g m' : Nat) (v : Trained) : (s.setTrainedNow g v).model m' = s.model m' := rfl
@[simp] theorem group_setTrainedNow (s : State) (g g' : Nat) (v : Trained) : (s.setTrainedNow g v).group g' = s.group g' := rfl
@[simp] theorem comm_setTrainedNow (s : State) (g n' k' : Nat) (v : Trained) : (s.setTrainedNow g v).comm n' k' = s.comm n' k' := rfl
@[simp] theorem core_setTrainedNow (s : State) (g k' : Nat) (v : Trained) : (s.setTrainedNow g v).core k' = s.core k' := rfl
@[simp] theorem slot_setTrainedNow (s : State) (g k' i' : Nat) (v : Trained) : (s.setTrainedNow g v).slot k' i' = s.slot k' i' := rfl
@[simp] theorem engine_setTrainedNow (s : State) (g e' : Nat) (v : Trained) : (s.setTrainedNow g v).engine e' = s.engine e' := rfl
@[simp] theorem witness_setTrainedNow (s : State) (g n' : Nat) (v : Trained) : (s.setTrainedNow g v).witness n' = s.witness n' := rfl
@[simp] theorem trained_setTrainedNow (s : State) (g g' : Nat) (v : Trained) : (s.setTrainedNow g v).trained g' = s.trained g' := rfl
@[simp] theorem autumnResult_setTrainedNow (s : State) (g n' : Nat) (v : Trained) : (s.setTrainedNow g v).autumnResult n' = s.autumnResult n' := rfl
@[simp] theorem health_setTrainedNow (s : State) (g u' : Nat) (v : Trained) : (s.setTrainedNow g v).health u' = s.health u' := rfl
@[simp] theorem autumn_setTrainedNow (s : State) (g n' : Nat) (v : Trained) : (s.setTrainedNow g v).autumn n' = s.autumn n' := rfl
@[simp] theorem gravel_setTrainedNow (s : State) (g n' : Nat) (v : Trained) : (s.setTrainedNow g v).gravel n' = s.gravel n' := rfl
@[simp] theorem spdm_setTrainedNow (s : State) (g k' : Nat) (v : Trained) : (s.setTrainedNow g v).spdm k' = s.spdm k' := rfl
@[simp] theorem link_setTrainedNow (s : State) (g l' : Nat) (v : Trained) : (s.setTrainedNow g v).link l' = s.link l' := rfl
@[simp] theorem raw_setTrainedNow (s : State) (g : Nat) (v : Trained) (a : RegAt) : (s.setTrainedNow g v).raw a = s.raw a := rfl
@[simp] theorem fld_setTrainedNow (s : State) (g i' j' : Nat) (v : Trained) (rf : RField) : (s.setTrainedNow g v).fld rf i' j' = s.fld rf i' j' := rfl

/-! ### autumnResult -/

@[simp] theorem modAutumnResult_eq (s : State) (n : Nat) (upd : AutumnResult → AutumnResult) : s.modAutumnResult n upd = s.setAutumnResult n (upd (s.autumnResult n)) := rfl
@[simp] theorem autumnResult_setAutumnResult (s : State) (n : Nat) (v : AutumnResult) : (s.setAutumnResult n v).autumnResult n = v := tabGet_tabSet_same _ _ _ _
theorem autumnResult_setAutumnResult_ne (s : State) {n n' : Nat} (v : AutumnResult) (h : n ≠ n') : (s.setAutumnResult n v).autumnResult n' = s.autumnResult n' := by
  unfold State.autumnResult State.setAutumnResult
  simp [tabGet_tabSet, h]
@[simp] theorem setAutumnResult_module (s : State) (n : Nat) (v : AutumnResult) : (s.setAutumnResult n v).module = s.module := rfl
@[simp] theorem setAutumnResult_flash (s : State) (n : Nat) (v : AutumnResult) : (s.setAutumnResult n v).flash = s.flash := rfl
@[simp] theorem setAutumnResult_regs (s : State) (n : Nat) (v : AutumnResult) : (s.setAutumnResult n v).regs = s.regs := rfl
@[simp] theorem setAutumnResult_mem (s : State) (n : Nat) (v : AutumnResult) : (s.setAutumnResult n v).mem = s.mem := rfl
@[simp] theorem setAutumnResult_hostMem (s : State) (n : Nat) (v : AutumnResult) : (s.setAutumnResult n v).hostMem = s.hostMem := rfl
@[simp] theorem setAutumnResult_host (s : State) (n : Nat) (v : AutumnResult) : (s.setAutumnResult n v).host = s.host := rfl
@[simp] theorem setAutumnResult_objs (s : State) (n : Nat) (v : AutumnResult) : (s.setAutumnResult n v).objs = s.objs := rfl
@[simp] theorem setAutumnResult_work (s : State) (n : Nat) (v : AutumnResult) : (s.setAutumnResult n v).work = s.work := rfl
@[simp] theorem setAutumnResult_links (s : State) (n : Nat) (v : AutumnResult) : (s.setAutumnResult n v).links = s.links := rfl
@[simp] theorem setAutumnResult_power (s : State) (n : Nat) (v : AutumnResult) : (s.setAutumnResult n v).power = s.power := rfl
@[simp] theorem setAutumnResult_care_health (s : State) (n : Nat) (v : AutumnResult) : (s.setAutumnResult n v).care.health = s.care.health := rfl
@[simp] theorem setAutumnResult_care_partResets (s : State) (n : Nat) (v : AutumnResult) : (s.setAutumnResult n v).care.partResets = s.care.partResets := rfl
@[simp] theorem setAutumnResult_care_hardFaults (s : State) (n : Nat) (v : AutumnResult) : (s.setAutumnResult n v).care.hardFaults = s.care.hardFaults := rfl
@[simp] theorem setAutumnResult_care_autumn (s : State) (n : Nat) (v : AutumnResult) : (s.setAutumnResult n v).care.autumn = s.care.autumn := rfl
@[simp] theorem setAutumnResult_care_gravel (s : State) (n : Nat) (v : AutumnResult) : (s.setAutumnResult n v).care.gravel = s.care.gravel := rfl
@[simp] theorem setAutumnResult_security (s : State) (n : Nat) (v : AutumnResult) : (s.setAutumnResult n v).security = s.security := rfl
@[simp] theorem setAutumnResult_out (s : State) (n : Nat) (v : AutumnResult) : (s.setAutumnResult n v).out = s.out := rfl
@[simp] theorem setAutumnResult_freeCtr (s : State) (n : Nat) (v : AutumnResult) : (s.setAutumnResult n v).freeCtr = s.freeCtr := rfl
@[simp] theorem setAutumnResult_pending (s : State) (n : Nat) (v : AutumnResult) : (s.setAutumnResult n v).pending = s.pending := rfl
@[simp] theorem fn_setAutumnResult (s : State) (n f' : Nat) (v : AutumnResult) : (s.setAutumnResult n v).fn f' = s.fn f' := rfl
@[simp] theorem queue_setAutumnResult (s : State) (n q' : Nat) (v : AutumnResult) : (s.setAutumnResult n v).queue q' = s.queue q' := rfl
@[simp] theorem part_setAutumnResult (s : State) (n p' : Nat) (v : AutumnResult) : (s.setAutumnResult n v).part p' = s.part p' := rfl
@[simp] theorem ctx_setAutumnResult (s : State) (n c' : Nat) (v : AutumnResult) : (s.setAutumnResult n v).ctx c' = s.ctx c' := rfl
@[simp] theorem tally_setAutumnResult (s : State) (n t' : Nat) (v : AutumnResult) : (s.setAutumnResult n v).tally t' = s.tally t' := rfl
@[simp] theorem region_setAutumnResult (s : State) (n r' : Nat) (v : AutumnResult) : (s.setAutumnResult n v).region r' = s.region r' := rfl
@[simp] theorem tensor_setAutumnResult (s : State) (n p' id' : Nat) (v : AutumnResult) : (s.setAutumnResult n v).tensor p' id' = s.tensor p' id' := rfl
@[simp] theorem gate_setAutumnResult (s : State) (n p' g' : Nat) (v : AutumnResult) : (s.setAutumnResult n v).gate p' g' = s.gate p' g' := rfl
@[simp] theorem model_setAutumnResult (s : State) (n m' : Nat) (v : AutumnResult) : (s.setAutumnResult n v).model m' = s.model m' := rfl
@[simp] theorem group_setAutumnResult (s : State) (n g' : Nat) (v : AutumnResult) : (s.setAutumnResult n v).group g' = s.group g' := rfl
@[simp] theorem comm_setAutumnResult (s : State) (n n' k' : Nat) (v : AutumnResult) : (s.setAutumnResult n v).comm n' k' = s.comm n' k' := rfl
@[simp] theorem core_setAutumnResult (s : State) (n k' : Nat) (v : AutumnResult) : (s.setAutumnResult n v).core k' = s.core k' := rfl
@[simp] theorem slot_setAutumnResult (s : State) (n k' i' : Nat) (v : AutumnResult) : (s.setAutumnResult n v).slot k' i' = s.slot k' i' := rfl
@[simp] theorem engine_setAutumnResult (s : State) (n e' : Nat) (v : AutumnResult) : (s.setAutumnResult n v).engine e' = s.engine e' := rfl
@[simp] theorem witness_setAutumnResult (s : State) (n n' : Nat) (v : AutumnResult) : (s.setAutumnResult n v).witness n' = s.witness n' := rfl
@[simp] theorem trained_setAutumnResult (s : State) (n g' : Nat) (v : AutumnResult) : (s.setAutumnResult n v).trained g' = s.trained g' := rfl
@[simp] theorem trainedNow_setAutumnResult (s : State) (n g' : Nat) (v : AutumnResult) : (s.setAutumnResult n v).trainedNow g' = s.trainedNow g' := rfl
@[simp] theorem health_setAutumnResult (s : State) (n u' : Nat) (v : AutumnResult) : (s.setAutumnResult n v).health u' = s.health u' := rfl
@[simp] theorem autumn_setAutumnResult (s : State) (n n' : Nat) (v : AutumnResult) : (s.setAutumnResult n v).autumn n' = s.autumn n' := rfl
@[simp] theorem gravel_setAutumnResult (s : State) (n n' : Nat) (v : AutumnResult) : (s.setAutumnResult n v).gravel n' = s.gravel n' := rfl
@[simp] theorem spdm_setAutumnResult (s : State) (n k' : Nat) (v : AutumnResult) : (s.setAutumnResult n v).spdm k' = s.spdm k' := rfl
@[simp] theorem link_setAutumnResult (s : State) (n l' : Nat) (v : AutumnResult) : (s.setAutumnResult n v).link l' = s.link l' := rfl
@[simp] theorem raw_setAutumnResult (s : State) (n : Nat) (v : AutumnResult) (a : RegAt) : (s.setAutumnResult n v).raw a = s.raw a := rfl
@[simp] theorem fld_setAutumnResult (s : State) (n i' j' : Nat) (v : AutumnResult) (rf : RField) : (s.setAutumnResult n v).fld rf i' j' = s.fld rf i' j' := rfl

/-! ### health -/

@[simp] theorem modHealth_eq (s : State) (u : Nat) (upd : Health → Health) : s.modHealth u upd = s.setHealth u (upd (s.health u)) := rfl
@[simp] theorem health_setHealth (s : State) (u : Nat) (v : Health) : (s.setHealth u v).health u = v := tabGet_tabSet_same _ _ _ _
theorem health_setHealth_ne (s : State) {u u' : Nat} (v : Health) (h : u ≠ u') : (s.setHealth u v).health u' = s.health u' := by
  unfold State.health State.setHealth
  simp [tabGet_tabSet, h]
@[simp] theorem setHealth_module (s : State) (u : Nat) (v : Health) : (s.setHealth u v).module = s.module := rfl
@[simp] theorem setHealth_flash (s : State) (u : Nat) (v : Health) : (s.setHealth u v).flash = s.flash := rfl
@[simp] theorem setHealth_regs (s : State) (u : Nat) (v : Health) : (s.setHealth u v).regs = s.regs := rfl
@[simp] theorem setHealth_mem (s : State) (u : Nat) (v : Health) : (s.setHealth u v).mem = s.mem := rfl
@[simp] theorem setHealth_hostMem (s : State) (u : Nat) (v : Health) : (s.setHealth u v).hostMem = s.hostMem := rfl
@[simp] theorem setHealth_host (s : State) (u : Nat) (v : Health) : (s.setHealth u v).host = s.host := rfl
@[simp] theorem setHealth_objs (s : State) (u : Nat) (v : Health) : (s.setHealth u v).objs = s.objs := rfl
@[simp] theorem setHealth_work (s : State) (u : Nat) (v : Health) : (s.setHealth u v).work = s.work := rfl
@[simp] theorem setHealth_links (s : State) (u : Nat) (v : Health) : (s.setHealth u v).links = s.links := rfl
@[simp] theorem setHealth_power (s : State) (u : Nat) (v : Health) : (s.setHealth u v).power = s.power := rfl
@[simp] theorem setHealth_care_partResets (s : State) (u : Nat) (v : Health) : (s.setHealth u v).care.partResets = s.care.partResets := rfl
@[simp] theorem setHealth_care_hardFaults (s : State) (u : Nat) (v : Health) : (s.setHealth u v).care.hardFaults = s.care.hardFaults := rfl
@[simp] theorem setHealth_care_autumn (s : State) (u : Nat) (v : Health) : (s.setHealth u v).care.autumn = s.care.autumn := rfl
@[simp] theorem setHealth_care_results (s : State) (u : Nat) (v : Health) : (s.setHealth u v).care.results = s.care.results := rfl
@[simp] theorem setHealth_care_gravel (s : State) (u : Nat) (v : Health) : (s.setHealth u v).care.gravel = s.care.gravel := rfl
@[simp] theorem setHealth_security (s : State) (u : Nat) (v : Health) : (s.setHealth u v).security = s.security := rfl
@[simp] theorem setHealth_out (s : State) (u : Nat) (v : Health) : (s.setHealth u v).out = s.out := rfl
@[simp] theorem setHealth_freeCtr (s : State) (u : Nat) (v : Health) : (s.setHealth u v).freeCtr = s.freeCtr := rfl
@[simp] theorem setHealth_pending (s : State) (u : Nat) (v : Health) : (s.setHealth u v).pending = s.pending := rfl
@[simp] theorem fn_setHealth (s : State) (u f' : Nat) (v : Health) : (s.setHealth u v).fn f' = s.fn f' := rfl
@[simp] theorem queue_setHealth (s : State) (u q' : Nat) (v : Health) : (s.setHealth u v).queue q' = s.queue q' := rfl
@[simp] theorem part_setHealth (s : State) (u p' : Nat) (v : Health) : (s.setHealth u v).part p' = s.part p' := rfl
@[simp] theorem ctx_setHealth (s : State) (u c' : Nat) (v : Health) : (s.setHealth u v).ctx c' = s.ctx c' := rfl
@[simp] theorem tally_setHealth (s : State) (u t' : Nat) (v : Health) : (s.setHealth u v).tally t' = s.tally t' := rfl
@[simp] theorem region_setHealth (s : State) (u r' : Nat) (v : Health) : (s.setHealth u v).region r' = s.region r' := rfl
@[simp] theorem tensor_setHealth (s : State) (u p' id' : Nat) (v : Health) : (s.setHealth u v).tensor p' id' = s.tensor p' id' := rfl
@[simp] theorem gate_setHealth (s : State) (u p' g' : Nat) (v : Health) : (s.setHealth u v).gate p' g' = s.gate p' g' := rfl
@[simp] theorem model_setHealth (s : State) (u m' : Nat) (v : Health) : (s.setHealth u v).model m' = s.model m' := rfl
@[simp] theorem group_setHealth (s : State) (u g' : Nat) (v : Health) : (s.setHealth u v).group g' = s.group g' := rfl
@[simp] theorem comm_setHealth (s : State) (u n' k' : Nat) (v : Health) : (s.setHealth u v).comm n' k' = s.comm n' k' := rfl
@[simp] theorem core_setHealth (s : State) (u k' : Nat) (v : Health) : (s.setHealth u v).core k' = s.core k' := rfl
@[simp] theorem slot_setHealth (s : State) (u k' i' : Nat) (v : Health) : (s.setHealth u v).slot k' i' = s.slot k' i' := rfl
@[simp] theorem engine_setHealth (s : State) (u e' : Nat) (v : Health) : (s.setHealth u v).engine e' = s.engine e' := rfl
@[simp] theorem witness_setHealth (s : State) (u n' : Nat) (v : Health) : (s.setHealth u v).witness n' = s.witness n' := rfl
@[simp] theorem trained_setHealth (s : State) (u g' : Nat) (v : Health) : (s.setHealth u v).trained g' = s.trained g' := rfl
@[simp] theorem trainedNow_setHealth (s : State) (u g' : Nat) (v : Health) : (s.setHealth u v).trainedNow g' = s.trainedNow g' := rfl
@[simp] theorem autumnResult_setHealth (s : State) (u n' : Nat) (v : Health) : (s.setHealth u v).autumnResult n' = s.autumnResult n' := rfl
@[simp] theorem autumn_setHealth (s : State) (u n' : Nat) (v : Health) : (s.setHealth u v).autumn n' = s.autumn n' := rfl
@[simp] theorem gravel_setHealth (s : State) (u n' : Nat) (v : Health) : (s.setHealth u v).gravel n' = s.gravel n' := rfl
@[simp] theorem spdm_setHealth (s : State) (u k' : Nat) (v : Health) : (s.setHealth u v).spdm k' = s.spdm k' := rfl
@[simp] theorem link_setHealth (s : State) (u l' : Nat) (v : Health) : (s.setHealth u v).link l' = s.link l' := rfl
@[simp] theorem raw_setHealth (s : State) (u : Nat) (v : Health) (a : RegAt) : (s.setHealth u v).raw a = s.raw a := rfl
@[simp] theorem fld_setHealth (s : State) (u i' j' : Nat) (v : Health) (rf : RField) : (s.setHealth u v).fld rf i' j' = s.fld rf i' j' := rfl

/-! ### autumn -/

@[simp] theorem modAutumn_eq (s : State) (n : Nat) (upd : (Option AutumnRun) → (Option AutumnRun)) : s.modAutumn n upd = s.setAutumn n (upd (s.autumn n)) := rfl
@[simp] theorem autumn_setAutumn (s : State) (n : Nat) (v : (Option AutumnRun)) : (s.setAutumn n v).autumn n = v := tabGet_tabSet_same _ _ _ _
theorem autumn_setAutumn_ne (s : State) {n n' : Nat} (v : (Option AutumnRun)) (h : n ≠ n') : (s.setAutumn n v).autumn n' = s.autumn n' := by
  unfold State.autumn State.setAutumn
  simp [tabGet_tabSet, h]
@[simp] theorem setAutumn_module (s : State) (n : Nat) (v : (Option AutumnRun)) : (s.setAutumn n v).module = s.module := rfl
@[simp] theorem setAutumn_flash (s : State) (n : Nat) (v : (Option AutumnRun)) : (s.setAutumn n v).flash = s.flash := rfl
@[simp] theorem setAutumn_regs (s : State) (n : Nat) (v : (Option AutumnRun)) : (s.setAutumn n v).regs = s.regs := rfl
@[simp] theorem setAutumn_mem (s : State) (n : Nat) (v : (Option AutumnRun)) : (s.setAutumn n v).mem = s.mem := rfl
@[simp] theorem setAutumn_hostMem (s : State) (n : Nat) (v : (Option AutumnRun)) : (s.setAutumn n v).hostMem = s.hostMem := rfl
@[simp] theorem setAutumn_host (s : State) (n : Nat) (v : (Option AutumnRun)) : (s.setAutumn n v).host = s.host := rfl
@[simp] theorem setAutumn_objs (s : State) (n : Nat) (v : (Option AutumnRun)) : (s.setAutumn n v).objs = s.objs := rfl
@[simp] theorem setAutumn_work (s : State) (n : Nat) (v : (Option AutumnRun)) : (s.setAutumn n v).work = s.work := rfl
@[simp] theorem setAutumn_links (s : State) (n : Nat) (v : (Option AutumnRun)) : (s.setAutumn n v).links = s.links := rfl
@[simp] theorem setAutumn_power (s : State) (n : Nat) (v : (Option AutumnRun)) : (s.setAutumn n v).power = s.power := rfl
@[simp] theorem setAutumn_care_health (s : State) (n : Nat) (v : (Option AutumnRun)) : (s.setAutumn n v).care.health = s.care.health := rfl
@[simp] theorem setAutumn_care_partResets (s : State) (n : Nat) (v : (Option AutumnRun)) : (s.setAutumn n v).care.partResets = s.care.partResets := rfl
@[simp] theorem setAutumn_care_hardFaults (s : State) (n : Nat) (v : (Option AutumnRun)) : (s.setAutumn n v).care.hardFaults = s.care.hardFaults := rfl
@[simp] theorem setAutumn_care_results (s : State) (n : Nat) (v : (Option AutumnRun)) : (s.setAutumn n v).care.results = s.care.results := rfl
@[simp] theorem setAutumn_care_gravel (s : State) (n : Nat) (v : (Option AutumnRun)) : (s.setAutumn n v).care.gravel = s.care.gravel := rfl
@[simp] theorem setAutumn_security (s : State) (n : Nat) (v : (Option AutumnRun)) : (s.setAutumn n v).security = s.security := rfl
@[simp] theorem setAutumn_out (s : State) (n : Nat) (v : (Option AutumnRun)) : (s.setAutumn n v).out = s.out := rfl
@[simp] theorem setAutumn_freeCtr (s : State) (n : Nat) (v : (Option AutumnRun)) : (s.setAutumn n v).freeCtr = s.freeCtr := rfl
@[simp] theorem setAutumn_pending (s : State) (n : Nat) (v : (Option AutumnRun)) : (s.setAutumn n v).pending = s.pending := rfl
@[simp] theorem fn_setAutumn (s : State) (n f' : Nat) (v : (Option AutumnRun)) : (s.setAutumn n v).fn f' = s.fn f' := rfl
@[simp] theorem queue_setAutumn (s : State) (n q' : Nat) (v : (Option AutumnRun)) : (s.setAutumn n v).queue q' = s.queue q' := rfl
@[simp] theorem part_setAutumn (s : State) (n p' : Nat) (v : (Option AutumnRun)) : (s.setAutumn n v).part p' = s.part p' := rfl
@[simp] theorem ctx_setAutumn (s : State) (n c' : Nat) (v : (Option AutumnRun)) : (s.setAutumn n v).ctx c' = s.ctx c' := rfl
@[simp] theorem tally_setAutumn (s : State) (n t' : Nat) (v : (Option AutumnRun)) : (s.setAutumn n v).tally t' = s.tally t' := rfl
@[simp] theorem region_setAutumn (s : State) (n r' : Nat) (v : (Option AutumnRun)) : (s.setAutumn n v).region r' = s.region r' := rfl
@[simp] theorem tensor_setAutumn (s : State) (n p' id' : Nat) (v : (Option AutumnRun)) : (s.setAutumn n v).tensor p' id' = s.tensor p' id' := rfl
@[simp] theorem gate_setAutumn (s : State) (n p' g' : Nat) (v : (Option AutumnRun)) : (s.setAutumn n v).gate p' g' = s.gate p' g' := rfl
@[simp] theorem model_setAutumn (s : State) (n m' : Nat) (v : (Option AutumnRun)) : (s.setAutumn n v).model m' = s.model m' := rfl
@[simp] theorem group_setAutumn (s : State) (n g' : Nat) (v : (Option AutumnRun)) : (s.setAutumn n v).group g' = s.group g' := rfl
@[simp] theorem comm_setAutumn (s : State) (n n' k' : Nat) (v : (Option AutumnRun)) : (s.setAutumn n v).comm n' k' = s.comm n' k' := rfl
@[simp] theorem core_setAutumn (s : State) (n k' : Nat) (v : (Option AutumnRun)) : (s.setAutumn n v).core k' = s.core k' := rfl
@[simp] theorem slot_setAutumn (s : State) (n k' i' : Nat) (v : (Option AutumnRun)) : (s.setAutumn n v).slot k' i' = s.slot k' i' := rfl
@[simp] theorem engine_setAutumn (s : State) (n e' : Nat) (v : (Option AutumnRun)) : (s.setAutumn n v).engine e' = s.engine e' := rfl
@[simp] theorem witness_setAutumn (s : State) (n n' : Nat) (v : (Option AutumnRun)) : (s.setAutumn n v).witness n' = s.witness n' := rfl
@[simp] theorem trained_setAutumn (s : State) (n g' : Nat) (v : (Option AutumnRun)) : (s.setAutumn n v).trained g' = s.trained g' := rfl
@[simp] theorem trainedNow_setAutumn (s : State) (n g' : Nat) (v : (Option AutumnRun)) : (s.setAutumn n v).trainedNow g' = s.trainedNow g' := rfl
@[simp] theorem autumnResult_setAutumn (s : State) (n n' : Nat) (v : (Option AutumnRun)) : (s.setAutumn n v).autumnResult n' = s.autumnResult n' := rfl
@[simp] theorem health_setAutumn (s : State) (n u' : Nat) (v : (Option AutumnRun)) : (s.setAutumn n v).health u' = s.health u' := rfl
@[simp] theorem gravel_setAutumn (s : State) (n n' : Nat) (v : (Option AutumnRun)) : (s.setAutumn n v).gravel n' = s.gravel n' := rfl
@[simp] theorem spdm_setAutumn (s : State) (n k' : Nat) (v : (Option AutumnRun)) : (s.setAutumn n v).spdm k' = s.spdm k' := rfl
@[simp] theorem link_setAutumn (s : State) (n l' : Nat) (v : (Option AutumnRun)) : (s.setAutumn n v).link l' = s.link l' := rfl
@[simp] theorem raw_setAutumn (s : State) (n : Nat) (v : (Option AutumnRun)) (a : RegAt) : (s.setAutumn n v).raw a = s.raw a := rfl
@[simp] theorem fld_setAutumn (s : State) (n i' j' : Nat) (v : (Option AutumnRun)) (rf : RField) : (s.setAutumn n v).fld rf i' j' = s.fld rf i' j' := rfl

/-! ### gravel -/

@[simp] theorem modGravel_eq (s : State) (n : Nat) (upd : Gravel → Gravel) : s.modGravel n upd = s.setGravel n (upd (s.gravel n)) := rfl
@[simp] theorem gravel_setGravel (s : State) (n : Nat) (v : Gravel) : (s.setGravel n v).gravel n = v := tabGet_tabSet_same _ _ _ _
theorem gravel_setGravel_ne (s : State) {n n' : Nat} (v : Gravel) (h : n ≠ n') : (s.setGravel n v).gravel n' = s.gravel n' := by
  unfold State.gravel State.setGravel
  simp [tabGet_tabSet, h]
@[simp] theorem setGravel_module (s : State) (n : Nat) (v : Gravel) : (s.setGravel n v).module = s.module := rfl
@[simp] theorem setGravel_flash (s : State) (n : Nat) (v : Gravel) : (s.setGravel n v).flash = s.flash := rfl
@[simp] theorem setGravel_regs (s : State) (n : Nat) (v : Gravel) : (s.setGravel n v).regs = s.regs := rfl
@[simp] theorem setGravel_mem (s : State) (n : Nat) (v : Gravel) : (s.setGravel n v).mem = s.mem := rfl
@[simp] theorem setGravel_hostMem (s : State) (n : Nat) (v : Gravel) : (s.setGravel n v).hostMem = s.hostMem := rfl
@[simp] theorem setGravel_host (s : State) (n : Nat) (v : Gravel) : (s.setGravel n v).host = s.host := rfl
@[simp] theorem setGravel_objs (s : State) (n : Nat) (v : Gravel) : (s.setGravel n v).objs = s.objs := rfl
@[simp] theorem setGravel_work (s : State) (n : Nat) (v : Gravel) : (s.setGravel n v).work = s.work := rfl
@[simp] theorem setGravel_links (s : State) (n : Nat) (v : Gravel) : (s.setGravel n v).links = s.links := rfl
@[simp] theorem setGravel_power (s : State) (n : Nat) (v : Gravel) : (s.setGravel n v).power = s.power := rfl
@[simp] theorem setGravel_care_health (s : State) (n : Nat) (v : Gravel) : (s.setGravel n v).care.health = s.care.health := rfl
@[simp] theorem setGravel_care_partResets (s : State) (n : Nat) (v : Gravel) : (s.setGravel n v).care.partResets = s.care.partResets := rfl
@[simp] theorem setGravel_care_hardFaults (s : State) (n : Nat) (v : Gravel) : (s.setGravel n v).care.hardFaults = s.care.hardFaults := rfl
@[simp] theorem setGravel_care_autumn (s : State) (n : Nat) (v : Gravel) : (s.setGravel n v).care.autumn = s.care.autumn := rfl
@[simp] theorem setGravel_care_results (s : State) (n : Nat) (v : Gravel) : (s.setGravel n v).care.results = s.care.results := rfl
@[simp] theorem setGravel_security (s : State) (n : Nat) (v : Gravel) : (s.setGravel n v).security = s.security := rfl
@[simp] theorem setGravel_out (s : State) (n : Nat) (v : Gravel) : (s.setGravel n v).out = s.out := rfl
@[simp] theorem setGravel_freeCtr (s : State) (n : Nat) (v : Gravel) : (s.setGravel n v).freeCtr = s.freeCtr := rfl
@[simp] theorem setGravel_pending (s : State) (n : Nat) (v : Gravel) : (s.setGravel n v).pending = s.pending := rfl
@[simp] theorem fn_setGravel (s : State) (n f' : Nat) (v : Gravel) : (s.setGravel n v).fn f' = s.fn f' := rfl
@[simp] theorem queue_setGravel (s : State) (n q' : Nat) (v : Gravel) : (s.setGravel n v).queue q' = s.queue q' := rfl
@[simp] theorem part_setGravel (s : State) (n p' : Nat) (v : Gravel) : (s.setGravel n v).part p' = s.part p' := rfl
@[simp] theorem ctx_setGravel (s : State) (n c' : Nat) (v : Gravel) : (s.setGravel n v).ctx c' = s.ctx c' := rfl
@[simp] theorem tally_setGravel (s : State) (n t' : Nat) (v : Gravel) : (s.setGravel n v).tally t' = s.tally t' := rfl
@[simp] theorem region_setGravel (s : State) (n r' : Nat) (v : Gravel) : (s.setGravel n v).region r' = s.region r' := rfl
@[simp] theorem tensor_setGravel (s : State) (n p' id' : Nat) (v : Gravel) : (s.setGravel n v).tensor p' id' = s.tensor p' id' := rfl
@[simp] theorem gate_setGravel (s : State) (n p' g' : Nat) (v : Gravel) : (s.setGravel n v).gate p' g' = s.gate p' g' := rfl
@[simp] theorem model_setGravel (s : State) (n m' : Nat) (v : Gravel) : (s.setGravel n v).model m' = s.model m' := rfl
@[simp] theorem group_setGravel (s : State) (n g' : Nat) (v : Gravel) : (s.setGravel n v).group g' = s.group g' := rfl
@[simp] theorem comm_setGravel (s : State) (n n' k' : Nat) (v : Gravel) : (s.setGravel n v).comm n' k' = s.comm n' k' := rfl
@[simp] theorem core_setGravel (s : State) (n k' : Nat) (v : Gravel) : (s.setGravel n v).core k' = s.core k' := rfl
@[simp] theorem slot_setGravel (s : State) (n k' i' : Nat) (v : Gravel) : (s.setGravel n v).slot k' i' = s.slot k' i' := rfl
@[simp] theorem engine_setGravel (s : State) (n e' : Nat) (v : Gravel) : (s.setGravel n v).engine e' = s.engine e' := rfl
@[simp] theorem witness_setGravel (s : State) (n n' : Nat) (v : Gravel) : (s.setGravel n v).witness n' = s.witness n' := rfl
@[simp] theorem trained_setGravel (s : State) (n g' : Nat) (v : Gravel) : (s.setGravel n v).trained g' = s.trained g' := rfl
@[simp] theorem trainedNow_setGravel (s : State) (n g' : Nat) (v : Gravel) : (s.setGravel n v).trainedNow g' = s.trainedNow g' := rfl
@[simp] theorem autumnResult_setGravel (s : State) (n n' : Nat) (v : Gravel) : (s.setGravel n v).autumnResult n' = s.autumnResult n' := rfl
@[simp] theorem health_setGravel (s : State) (n u' : Nat) (v : Gravel) : (s.setGravel n v).health u' = s.health u' := rfl
@[simp] theorem autumn_setGravel (s : State) (n n' : Nat) (v : Gravel) : (s.setGravel n v).autumn n' = s.autumn n' := rfl
@[simp] theorem spdm_setGravel (s : State) (n k' : Nat) (v : Gravel) : (s.setGravel n v).spdm k' = s.spdm k' := rfl
@[simp] theorem link_setGravel (s : State) (n l' : Nat) (v : Gravel) : (s.setGravel n v).link l' = s.link l' := rfl
@[simp] theorem raw_setGravel (s : State) (n : Nat) (v : Gravel) (a : RegAt) : (s.setGravel n v).raw a = s.raw a := rfl
@[simp] theorem fld_setGravel (s : State) (n i' j' : Nat) (v : Gravel) (rf : RField) : (s.setGravel n v).fld rf i' j' = s.fld rf i' j' := rfl

/-! ### spdm -/

@[simp] theorem modSpdm_eq (s : State) (k : Nat) (upd : SpdmConn → SpdmConn) : s.modSpdm k upd = s.setSpdm k (upd (s.spdm k)) := rfl
@[simp] theorem spdm_setSpdm (s : State) (k : Nat) (v : SpdmConn) : (s.setSpdm k v).spdm k = v := tabGet_tabSet_same _ _ _ _
theorem spdm_setSpdm_ne (s : State) {k k' : Nat} (v : SpdmConn) (h : k ≠ k') : (s.setSpdm k v).spdm k' = s.spdm k' := by
  unfold State.spdm State.setSpdm
  simp [tabGet_tabSet, h]
@[simp] theorem setSpdm_module (s : State) (k : Nat) (v : SpdmConn) : (s.setSpdm k v).module = s.module := rfl
@[simp] theorem setSpdm_flash (s : State) (k : Nat) (v : SpdmConn) : (s.setSpdm k v).flash = s.flash := rfl
@[simp] theorem setSpdm_regs (s : State) (k : Nat) (v : SpdmConn) : (s.setSpdm k v).regs = s.regs := rfl
@[simp] theorem setSpdm_mem (s : State) (k : Nat) (v : SpdmConn) : (s.setSpdm k v).mem = s.mem := rfl
@[simp] theorem setSpdm_hostMem (s : State) (k : Nat) (v : SpdmConn) : (s.setSpdm k v).hostMem = s.hostMem := rfl
@[simp] theorem setSpdm_host (s : State) (k : Nat) (v : SpdmConn) : (s.setSpdm k v).host = s.host := rfl
@[simp] theorem setSpdm_objs (s : State) (k : Nat) (v : SpdmConn) : (s.setSpdm k v).objs = s.objs := rfl
@[simp] theorem setSpdm_work (s : State) (k : Nat) (v : SpdmConn) : (s.setSpdm k v).work = s.work := rfl
@[simp] theorem setSpdm_links (s : State) (k : Nat) (v : SpdmConn) : (s.setSpdm k v).links = s.links := rfl
@[simp] theorem setSpdm_power (s : State) (k : Nat) (v : SpdmConn) : (s.setSpdm k v).power = s.power := rfl
@[simp] theorem setSpdm_care (s : State) (k : Nat) (v : SpdmConn) : (s.setSpdm k v).care = s.care := rfl
@[simp] theorem setSpdm_out (s : State) (k : Nat) (v : SpdmConn) : (s.setSpdm k v).out = s.out := rfl
@[simp] theorem setSpdm_freeCtr (s : State) (k : Nat) (v : SpdmConn) : (s.setSpdm k v).freeCtr = s.freeCtr := rfl
@[simp] theorem setSpdm_pending (s : State) (k : Nat) (v : SpdmConn) : (s.setSpdm k v).pending = s.pending := rfl
@[simp] theorem fn_setSpdm (s : State) (k f' : Nat) (v : SpdmConn) : (s.setSpdm k v).fn f' = s.fn f' := rfl
@[simp] theorem queue_setSpdm (s : State) (k q' : Nat) (v : SpdmConn) : (s.setSpdm k v).queue q' = s.queue q' := rfl
@[simp] theorem part_setSpdm (s : State) (k p' : Nat) (v : SpdmConn) : (s.setSpdm k v).part p' = s.part p' := rfl
@[simp] theorem ctx_setSpdm (s : State) (k c' : Nat) (v : SpdmConn) : (s.setSpdm k v).ctx c' = s.ctx c' := rfl
@[simp] theorem tally_setSpdm (s : State) (k t' : Nat) (v : SpdmConn) : (s.setSpdm k v).tally t' = s.tally t' := rfl
@[simp] theorem region_setSpdm (s : State) (k r' : Nat) (v : SpdmConn) : (s.setSpdm k v).region r' = s.region r' := rfl
@[simp] theorem tensor_setSpdm (s : State) (k p' id' : Nat) (v : SpdmConn) : (s.setSpdm k v).tensor p' id' = s.tensor p' id' := rfl
@[simp] theorem gate_setSpdm (s : State) (k p' g' : Nat) (v : SpdmConn) : (s.setSpdm k v).gate p' g' = s.gate p' g' := rfl
@[simp] theorem model_setSpdm (s : State) (k m' : Nat) (v : SpdmConn) : (s.setSpdm k v).model m' = s.model m' := rfl
@[simp] theorem group_setSpdm (s : State) (k g' : Nat) (v : SpdmConn) : (s.setSpdm k v).group g' = s.group g' := rfl
@[simp] theorem comm_setSpdm (s : State) (k n' k' : Nat) (v : SpdmConn) : (s.setSpdm k v).comm n' k' = s.comm n' k' := rfl
@[simp] theorem core_setSpdm (s : State) (k k' : Nat) (v : SpdmConn) : (s.setSpdm k v).core k' = s.core k' := rfl
@[simp] theorem slot_setSpdm (s : State) (k k' i' : Nat) (v : SpdmConn) : (s.setSpdm k v).slot k' i' = s.slot k' i' := rfl
@[simp] theorem engine_setSpdm (s : State) (k e' : Nat) (v : SpdmConn) : (s.setSpdm k v).engine e' = s.engine e' := rfl
@[simp] theorem witness_setSpdm (s : State) (k n' : Nat) (v : SpdmConn) : (s.setSpdm k v).witness n' = s.witness n' := rfl
@[simp] theorem trained_setSpdm (s : State) (k g' : Nat) (v : SpdmConn) : (s.setSpdm k v).trained g' = s.trained g' := rfl
@[simp] theorem trainedNow_setSpdm (s : State) (k g' : Nat) (v : SpdmConn) : (s.setSpdm k v).trainedNow g' = s.trainedNow g' := rfl
@[simp] theorem autumnResult_setSpdm (s : State) (k n' : Nat) (v : SpdmConn) : (s.setSpdm k v).autumnResult n' = s.autumnResult n' := rfl
@[simp] theorem health_setSpdm (s : State) (k u' : Nat) (v : SpdmConn) : (s.setSpdm k v).health u' = s.health u' := rfl
@[simp] theorem autumn_setSpdm (s : State) (k n' : Nat) (v : SpdmConn) : (s.setSpdm k v).autumn n' = s.autumn n' := rfl
@[simp] theorem gravel_setSpdm (s : State) (k n' : Nat) (v : SpdmConn) : (s.setSpdm k v).gravel n' = s.gravel n' := rfl
@[simp] theorem link_setSpdm (s : State) (k l' : Nat) (v : SpdmConn) : (s.setSpdm k v).link l' = s.link l' := rfl
@[simp] theorem raw_setSpdm (s : State) (k : Nat) (v : SpdmConn) (a : RegAt) : (s.setSpdm k v).raw a = s.raw a := rfl
@[simp] theorem fld_setSpdm (s : State) (k i' j' : Nat) (v : SpdmConn) (rf : RField) : (s.setSpdm k v).fld rf i' j' = s.fld rf i' j' := rfl

/-! ### link -/

@[simp] theorem modLink_eq (s : State) (l : Nat) (upd : Link → Link) : s.modLink l upd = s.setLink l (upd (s.link l)) := rfl
@[simp] theorem link_setLink (s : State) (l : Nat) (v : Link) : (s.setLink l v).link l = v := tabGet_tabSet_same _ _ _ _
theorem link_setLink_ne (s : State) {l l' : Nat} (v : Link) (h : l ≠ l') : (s.setLink l v).link l' = s.link l' := by
  unfold State.link State.setLink
  simp [tabGet_tabSet, h]
@[simp] theorem setLink_module (s : State) (l : Nat) (v : Link) : (s.setLink l v).module = s.module := rfl
@[simp] theorem setLink_flash (s : State) (l : Nat) (v : Link) : (s.setLink l v).flash = s.flash := rfl
@[simp] theorem setLink_regs (s : State) (l : Nat) (v : Link) : (s.setLink l v).regs = s.regs := rfl
@[simp] theorem setLink_mem (s : State) (l : Nat) (v : Link) : (s.setLink l v).mem = s.mem := rfl
@[simp] theorem setLink_hostMem (s : State) (l : Nat) (v : Link) : (s.setLink l v).hostMem = s.hostMem := rfl
@[simp] theorem setLink_host (s : State) (l : Nat) (v : Link) : (s.setLink l v).host = s.host := rfl
@[simp] theorem setLink_objs (s : State) (l : Nat) (v : Link) : (s.setLink l v).objs = s.objs := rfl
@[simp] theorem setLink_work (s : State) (l : Nat) (v : Link) : (s.setLink l v).work = s.work := rfl
@[simp] theorem setLink_power (s : State) (l : Nat) (v : Link) : (s.setLink l v).power = s.power := rfl
@[simp] theorem setLink_care (s : State) (l : Nat) (v : Link) : (s.setLink l v).care = s.care := rfl
@[simp] theorem setLink_security (s : State) (l : Nat) (v : Link) : (s.setLink l v).security = s.security := rfl
@[simp] theorem setLink_out (s : State) (l : Nat) (v : Link) : (s.setLink l v).out = s.out := rfl
@[simp] theorem setLink_freeCtr (s : State) (l : Nat) (v : Link) : (s.setLink l v).freeCtr = s.freeCtr := rfl
@[simp] theorem setLink_pending (s : State) (l : Nat) (v : Link) : (s.setLink l v).pending = s.pending := rfl
@[simp] theorem fn_setLink (s : State) (l f' : Nat) (v : Link) : (s.setLink l v).fn f' = s.fn f' := rfl
@[simp] theorem queue_setLink (s : State) (l q' : Nat) (v : Link) : (s.setLink l v).queue q' = s.queue q' := rfl
@[simp] theorem part_setLink (s : State) (l p' : Nat) (v : Link) : (s.setLink l v).part p' = s.part p' := rfl
@[simp] theorem ctx_setLink (s : State) (l c' : Nat) (v : Link) : (s.setLink l v).ctx c' = s.ctx c' := rfl
@[simp] theorem tally_setLink (s : State) (l t' : Nat) (v : Link) : (s.setLink l v).tally t' = s.tally t' := rfl
@[simp] theorem region_setLink (s : State) (l r' : Nat) (v : Link) : (s.setLink l v).region r' = s.region r' := rfl
@[simp] theorem tensor_setLink (s : State) (l p' id' : Nat) (v : Link) : (s.setLink l v).tensor p' id' = s.tensor p' id' := rfl
@[simp] theorem gate_setLink (s : State) (l p' g' : Nat) (v : Link) : (s.setLink l v).gate p' g' = s.gate p' g' := rfl
@[simp] theorem model_setLink (s : State) (l m' : Nat) (v : Link) : (s.setLink l v).model m' = s.model m' := rfl
@[simp] theorem group_setLink (s : State) (l g' : Nat) (v : Link) : (s.setLink l v).group g' = s.group g' := rfl
@[simp] theorem comm_setLink (s : State) (l n' k' : Nat) (v : Link) : (s.setLink l v).comm n' k' = s.comm n' k' := rfl
@[simp] theorem core_setLink (s : State) (l k' : Nat) (v : Link) : (s.setLink l v).core k' = s.core k' := rfl
@[simp] theorem slot_setLink (s : State) (l k' i' : Nat) (v : Link) : (s.setLink l v).slot k' i' = s.slot k' i' := rfl
@[simp] theorem engine_setLink (s : State) (l e' : Nat) (v : Link) : (s.setLink l v).engine e' = s.engine e' := rfl
@[simp] theorem witness_setLink (s : State) (l n' : Nat) (v : Link) : (s.setLink l v).witness n' = s.witness n' := rfl
@[simp] theorem trained_setLink (s : State) (l g' : Nat) (v : Link) : (s.setLink l v).trained g' = s.trained g' := rfl
@[simp] theorem trainedNow_setLink (s : State) (l g' : Nat) (v : Link) : (s.setLink l v).trainedNow g' = s.trainedNow g' := rfl
@[simp] theorem autumnResult_setLink (s : State) (l n' : Nat) (v : Link) : (s.setLink l v).autumnResult n' = s.autumnResult n' := rfl
@[simp] theorem health_setLink (s : State) (l u' : Nat) (v : Link) : (s.setLink l v).health u' = s.health u' := rfl
@[simp] theorem autumn_setLink (s : State) (l n' : Nat) (v : Link) : (s.setLink l v).autumn n' = s.autumn n' := rfl
@[simp] theorem gravel_setLink (s : State) (l n' : Nat) (v : Link) : (s.setLink l v).gravel n' = s.gravel n' := rfl
@[simp] theorem spdm_setLink (s : State) (l k' : Nat) (v : Link) : (s.setLink l v).spdm k' = s.spdm k' := rfl
@[simp] theorem raw_setLink (s : State) (l : Nat) (v : Link) (a : RegAt) : (s.setLink l v).raw a = s.raw a := rfl
@[simp] theorem fld_setLink (s : State) (l i' j' : Nat) (v : Link) (rf : RField) : (s.setLink l v).fld rf i' j' = s.fld rf i' j' := rfl

/-! ### Registers -/

@[simp] theorem setRaw_module (s : State) (a : RegAt) (w : Word) : (s.setRaw a w).module = s.module := rfl
@[simp] theorem setRaw_flash (s : State) (a : RegAt) (w : Word) : (s.setRaw a w).flash = s.flash := rfl
@[simp] theorem setRaw_mem (s : State) (a : RegAt) (w : Word) : (s.setRaw a w).mem = s.mem := rfl
@[simp] theorem setRaw_hostMem (s : State) (a : RegAt) (w : Word) : (s.setRaw a w).hostMem = s.hostMem := rfl
@[simp] theorem setRaw_host (s : State) (a : RegAt) (w : Word) : (s.setRaw a w).host = s.host := rfl
@[simp] theorem setRaw_objs (s : State) (a : RegAt) (w : Word) : (s.setRaw a w).objs = s.objs := rfl
@[simp] theorem setRaw_work (s : State) (a : RegAt) (w : Word) : (s.setRaw a w).work = s.work := rfl
@[simp] theorem setRaw_links (s : State) (a : RegAt) (w : Word) : (s.setRaw a w).links = s.links := rfl
@[simp] theorem setRaw_power (s : State) (a : RegAt) (w : Word) : (s.setRaw a w).power = s.power := rfl
@[simp] theorem setRaw_care (s : State) (a : RegAt) (w : Word) : (s.setRaw a w).care = s.care := rfl
@[simp] theorem setRaw_security (s : State) (a : RegAt) (w : Word) : (s.setRaw a w).security = s.security := rfl
@[simp] theorem setRaw_out (s : State) (a : RegAt) (w : Word) : (s.setRaw a w).out = s.out := rfl
@[simp] theorem setRaw_freeCtr (s : State) (a : RegAt) (w : Word) : (s.setRaw a w).freeCtr = s.freeCtr := rfl
@[simp] theorem setRaw_pending (s : State) (a : RegAt) (w : Word) : (s.setRaw a w).pending = s.pending := rfl
@[simp] theorem fn_setRaw (s : State) (a : RegAt) (w : Word) (f' : Nat) : (s.setRaw a w).fn f' = s.fn f' := rfl
@[simp] theorem queue_setRaw (s : State) (a : RegAt) (w : Word) (q' : Nat) : (s.setRaw a w).queue q' = s.queue q' := rfl
@[simp] theorem part_setRaw (s : State) (a : RegAt) (w : Word) (p' : Nat) : (s.setRaw a w).part p' = s.part p' := rfl
@[simp] theorem ctx_setRaw (s : State) (a : RegAt) (w : Word) (c' : Nat) : (s.setRaw a w).ctx c' = s.ctx c' := rfl
@[simp] theorem tally_setRaw (s : State) (a : RegAt) (w : Word) (t' : Nat) : (s.setRaw a w).tally t' = s.tally t' := rfl
@[simp] theorem region_setRaw (s : State) (a : RegAt) (w : Word) (r' : Nat) : (s.setRaw a w).region r' = s.region r' := rfl
@[simp] theorem tensor_setRaw (s : State) (a : RegAt) (w : Word) (p' id' : Nat) : (s.setRaw a w).tensor p' id' = s.tensor p' id' := rfl
@[simp] theorem gate_setRaw (s : State) (a : RegAt) (w : Word) (p' g' : Nat) : (s.setRaw a w).gate p' g' = s.gate p' g' := rfl
@[simp] theorem model_setRaw (s : State) (a : RegAt) (w : Word) (m' : Nat) : (s.setRaw a w).model m' = s.model m' := rfl
@[simp] theorem group_setRaw (s : State) (a : RegAt) (w : Word) (g' : Nat) : (s.setRaw a w).group g' = s.group g' := rfl
@[simp] theorem comm_setRaw (s : State) (a : RegAt) (w : Word) (n' k' : Nat) : (s.setRaw a w).comm n' k' = s.comm n' k' := rfl
@[simp] theorem core_setRaw (s : State) (a : RegAt) (w : Word) (k' : Nat) : (s.setRaw a w).core k' = s.core k' := rfl
@[simp] theorem slot_setRaw (s : State) (a : RegAt) (w : Word) (k' i' : Nat) : (s.setRaw a w).slot k' i' = s.slot k' i' := rfl
@[simp] theorem engine_setRaw (s : State) (a : RegAt) (w : Word) (e' : Nat) : (s.setRaw a w).engine e' = s.engine e' := rfl
@[simp] theorem witness_setRaw (s : State) (a : RegAt) (w : Word) (n' : Nat) : (s.setRaw a w).witness n' = s.witness n' := rfl
@[simp] theorem trained_setRaw (s : State) (a : RegAt) (w : Word) (g' : Nat) : (s.setRaw a w).trained g' = s.trained g' := rfl
@[simp] theorem trainedNow_setRaw (s : State) (a : RegAt) (w : Word) (g' : Nat) : (s.setRaw a w).trainedNow g' = s.trainedNow g' := rfl
@[simp] theorem autumnResult_setRaw (s : State) (a : RegAt) (w : Word) (n' : Nat) : (s.setRaw a w).autumnResult n' = s.autumnResult n' := rfl
@[simp] theorem health_setRaw (s : State) (a : RegAt) (w : Word) (u' : Nat) : (s.setRaw a w).health u' = s.health u' := rfl
@[simp] theorem autumn_setRaw (s : State) (a : RegAt) (w : Word) (n' : Nat) : (s.setRaw a w).autumn n' = s.autumn n' := rfl
@[simp] theorem gravel_setRaw (s : State) (a : RegAt) (w : Word) (n' : Nat) : (s.setRaw a w).gravel n' = s.gravel n' := rfl
@[simp] theorem spdm_setRaw (s : State) (a : RegAt) (w : Word) (k' : Nat) : (s.setRaw a w).spdm k' = s.spdm k' := rfl
@[simp] theorem link_setRaw (s : State) (a : RegAt) (w : Word) (l' : Nat) : (s.setRaw a w).link l' = s.link l' := rfl
@[simp] theorem setFld_module (s : State) (f : RField) (i j v : Nat) : (s.setFld f i j v).module = s.module := rfl
@[simp] theorem setFld_flash (s : State) (f : RField) (i j v : Nat) : (s.setFld f i j v).flash = s.flash := rfl
@[simp] theorem setFld_mem (s : State) (f : RField) (i j v : Nat) : (s.setFld f i j v).mem = s.mem := rfl
@[simp] theorem setFld_hostMem (s : State) (f : RField) (i j v : Nat) : (s.setFld f i j v).hostMem = s.hostMem := rfl
@[simp] theorem setFld_host (s : State) (f : RField) (i j v : Nat) : (s.setFld f i j v).host = s.host := rfl
@[simp] theorem setFld_objs (s : State) (f : RField) (i j v : Nat) : (s.setFld f i j v).objs = s.objs := rfl
@[simp] theorem setFld_work (s : State) (f : RField) (i j v : Nat) : (s.setFld f i j v).work = s.work := rfl
@[simp] theorem setFld_links (s : State) (f : RField) (i j v : Nat) : (s.setFld f i j v).links = s.links := rfl
@[simp] theorem setFld_power (s : State) (f : RField) (i j v : Nat) : (s.setFld f i j v).power = s.power := rfl
@[simp] theorem setFld_care (s : State) (f : RField) (i j v : Nat) : (s.setFld f i j v).care = s.care := rfl
@[simp] theorem setFld_security (s : State) (f : RField) (i j v : Nat) : (s.setFld f i j v).security = s.security := rfl
@[simp] theorem setFld_out (s : State) (f : RField) (i j v : Nat) : (s.setFld f i j v).out = s.out := rfl
@[simp] theorem setFld_freeCtr (s : State) (f : RField) (i j v : Nat) : (s.setFld f i j v).freeCtr = s.freeCtr := rfl
@[simp] theorem setFld_pending (s : State) (f : RField) (i j v : Nat) : (s.setFld f i j v).pending = s.pending := rfl
@[simp] theorem fn_setFld (s : State) (f : RField) (i j v : Nat) (f' : Nat) : (s.setFld f i j v).fn f' = s.fn f' := rfl
@[simp] theorem queue_setFld (s : State) (f : RField) (i j v : Nat) (q' : Nat) : (s.setFld f i j v).queue q' = s.queue q' := rfl
@[simp] theorem part_setFld (s : State) (f : RField) (i j v : Nat) (p' : Nat) : (s.setFld f i j v).part p' = s.part p' := rfl
@[simp] theorem ctx_setFld (s : State) (f : RField) (i j v : Nat) (c' : Nat) : (s.setFld f i j v).ctx c' = s.ctx c' := rfl
@[simp] theorem tally_setFld (s : State) (f : RField) (i j v : Nat) (t' : Nat) : (s.setFld f i j v).tally t' = s.tally t' := rfl
@[simp] theorem region_setFld (s : State) (f : RField) (i j v : Nat) (r' : Nat) : (s.setFld f i j v).region r' = s.region r' := rfl
@[simp] theorem tensor_setFld (s : State) (f : RField) (i j v : Nat) (p' id' : Nat) : (s.setFld f i j v).tensor p' id' = s.tensor p' id' := rfl
@[simp] theorem gate_setFld (s : State) (f : RField) (i j v : Nat) (p' g' : Nat) : (s.setFld f i j v).gate p' g' = s.gate p' g' := rfl
@[simp] theorem model_setFld (s : State) (f : RField) (i j v : Nat) (m' : Nat) : (s.setFld f i j v).model m' = s.model m' := rfl
@[simp] theorem group_setFld (s : State) (f : RField) (i j v : Nat) (g' : Nat) : (s.setFld f i j v).group g' = s.group g' := rfl
@[simp] theorem comm_setFld (s : State) (f : RField) (i j v : Nat) (n' k' : Nat) : (s.setFld f i j v).comm n' k' = s.comm n' k' := rfl
@[simp] theorem core_setFld (s : State) (f : RField) (i j v : Nat) (k' : Nat) : (s.setFld f i j v).core k' = s.core k' := rfl
@[simp] theorem slot_setFld (s : State) (f : RField) (i j v : Nat) (k' i' : Nat) : (s.setFld f i j v).slot k' i' = s.slot k' i' := rfl
@[simp] theorem engine_setFld (s : State) (f : RField) (i j v : Nat) (e' : Nat) : (s.setFld f i j v).engine e' = s.engine e' := rfl
@[simp] theorem witness_setFld (s : State) (f : RField) (i j v : Nat) (n' : Nat) : (s.setFld f i j v).witness n' = s.witness n' := rfl
@[simp] theorem trained_setFld (s : State) (f : RField) (i j v : Nat) (g' : Nat) : (s.setFld f i j v).trained g' = s.trained g' := rfl
@[simp] theorem trainedNow_setFld (s : State) (f : RField) (i j v : Nat) (g' : Nat) : (s.setFld f i j v).trainedNow g' = s.trainedNow g' := rfl
@[simp] theorem autumnResult_setFld (s : State) (f : RField) (i j v : Nat) (n' : Nat) : (s.setFld f i j v).autumnResult n' = s.autumnResult n' := rfl
@[simp] theorem health_setFld (s : State) (f : RField) (i j v : Nat) (u' : Nat) : (s.setFld f i j v).health u' = s.health u' := rfl
@[simp] theorem autumn_setFld (s : State) (f : RField) (i j v : Nat) (n' : Nat) : (s.setFld f i j v).autumn n' = s.autumn n' := rfl
@[simp] theorem gravel_setFld (s : State) (f : RField) (i j v : Nat) (n' : Nat) : (s.setFld f i j v).gravel n' = s.gravel n' := rfl
@[simp] theorem spdm_setFld (s : State) (f : RField) (i j v : Nat) (k' : Nat) : (s.setFld f i j v).spdm k' = s.spdm k' := rfl
@[simp] theorem link_setFld (s : State) (f : RField) (i j v : Nat) (l' : Nat) : (s.setFld f i j v).link l' = s.link l' := rfl
@[simp] theorem bump_module (s : State) (f : RField) (i j n : Nat) : (s.bump f i j n).module = s.module := rfl
@[simp] theorem bump_flash (s : State) (f : RField) (i j n : Nat) : (s.bump f i j n).flash = s.flash := rfl
@[simp] theorem bump_mem (s : State) (f : RField) (i j n : Nat) : (s.bump f i j n).mem = s.mem := rfl
@[simp] theorem bump_hostMem (s : State) (f : RField) (i j n : Nat) : (s.bump f i j n).hostMem = s.hostMem := rfl
@[simp] theorem bump_host (s : State) (f : RField) (i j n : Nat) : (s.bump f i j n).host = s.host := rfl
@[simp] theorem bump_objs (s : State) (f : RField) (i j n : Nat) : (s.bump f i j n).objs = s.objs := rfl
@[simp] theorem bump_work (s : State) (f : RField) (i j n : Nat) : (s.bump f i j n).work = s.work := rfl
@[simp] theorem bump_links (s : State) (f : RField) (i j n : Nat) : (s.bump f i j n).links = s.links := rfl
@[simp] theorem bump_power (s : State) (f : RField) (i j n : Nat) : (s.bump f i j n).power = s.power := rfl
@[simp] theorem bump_care (s : State) (f : RField) (i j n : Nat) : (s.bump f i j n).care = s.care := rfl
@[simp] theorem bump_security (s : State) (f : RField) (i j n : Nat) : (s.bump f i j n).security = s.security := rfl
@[simp] theorem bump_out (s : State) (f : RField) (i j n : Nat) : (s.bump f i j n).out = s.out := rfl
@[simp] theorem bump_freeCtr (s : State) (f : RField) (i j n : Nat) : (s.bump f i j n).freeCtr = s.freeCtr := rfl
@[simp] theorem bump_pending (s : State) (f : RField) (i j n : Nat) : (s.bump f i j n).pending = s.pending := rfl
@[simp] theorem fn_bump (s : State) (f : RField) (i j n : Nat) (f' : Nat) : (s.bump f i j n).fn f' = s.fn f' := rfl
@[simp] theorem queue_bump (s : State) (f : RField) (i j n : Nat) (q' : Nat) : (s.bump f i j n).queue q' = s.queue q' := rfl
@[simp] theorem part_bump (s : State) (f : RField) (i j n : Nat) (p' : Nat) : (s.bump f i j n).part p' = s.part p' := rfl
@[simp] theorem ctx_bump (s : State) (f : RField) (i j n : Nat) (c' : Nat) : (s.bump f i j n).ctx c' = s.ctx c' := rfl
@[simp] theorem tally_bump (s : State) (f : RField) (i j n : Nat) (t' : Nat) : (s.bump f i j n).tally t' = s.tally t' := rfl
@[simp] theorem region_bump (s : State) (f : RField) (i j n : Nat) (r' : Nat) : (s.bump f i j n).region r' = s.region r' := rfl
@[simp] theorem tensor_bump (s : State) (f : RField) (i j n : Nat) (p' id' : Nat) : (s.bump f i j n).tensor p' id' = s.tensor p' id' := rfl
@[simp] theorem gate_bump (s : State) (f : RField) (i j n : Nat) (p' g' : Nat) : (s.bump f i j n).gate p' g' = s.gate p' g' := rfl
@[simp] theorem model_bump (s : State) (f : RField) (i j n : Nat) (m' : Nat) : (s.bump f i j n).model m' = s.model m' := rfl
@[simp] theorem group_bump (s : State) (f : RField) (i j n : Nat) (g' : Nat) : (s.bump f i j n).group g' = s.group g' := rfl
@[simp] theorem comm_bump (s : State) (f : RField) (i j n : Nat) (n' k' : Nat) : (s.bump f i j n).comm n' k' = s.comm n' k' := rfl
@[simp] theorem core_bump (s : State) (f : RField) (i j n : Nat) (k' : Nat) : (s.bump f i j n).core k' = s.core k' := rfl
@[simp] theorem slot_bump (s : State) (f : RField) (i j n : Nat) (k' i' : Nat) : (s.bump f i j n).slot k' i' = s.slot k' i' := rfl
@[simp] theorem engine_bump (s : State) (f : RField) (i j n : Nat) (e' : Nat) : (s.bump f i j n).engine e' = s.engine e' := rfl
@[simp] theorem witness_bump (s : State) (f : RField) (i j n : Nat) (n' : Nat) : (s.bump f i j n).witness n' = s.witness n' := rfl
@[simp] theorem trained_bump (s : State) (f : RField) (i j n : Nat) (g' : Nat) : (s.bump f i j n).trained g' = s.trained g' := rfl
@[simp] theorem trainedNow_bump (s : State) (f : RField) (i j n : Nat) (g' : Nat) : (s.bump f i j n).trainedNow g' = s.trainedNow g' := rfl
@[simp] theorem autumnResult_bump (s : State) (f : RField) (i j n : Nat) (n' : Nat) : (s.bump f i j n).autumnResult n' = s.autumnResult n' := rfl
@[simp] theorem health_bump (s : State) (f : RField) (i j n : Nat) (u' : Nat) : (s.bump f i j n).health u' = s.health u' := rfl
@[simp] theorem autumn_bump (s : State) (f : RField) (i j n : Nat) (n' : Nat) : (s.bump f i j n).autumn n' = s.autumn n' := rfl
@[simp] theorem gravel_bump (s : State) (f : RField) (i j n : Nat) (n' : Nat) : (s.bump f i j n).gravel n' = s.gravel n' := rfl
@[simp] theorem spdm_bump (s : State) (f : RField) (i j n : Nat) (k' : Nat) : (s.bump f i j n).spdm k' = s.spdm k' := rfl
@[simp] theorem link_bump (s : State) (f : RField) (i j n : Nat) (l' : Nat) : (s.bump f i j n).link l' = s.link l' := rfl

end Sys2Proof.Machine
end

