-- ==== Sys2Proof/Laws/Regs.lean ====
section
/-! SUPPORT. Laws of register fields: a field reads back what was set, and setting one leaves the others. -/

namespace Sys2Proof.Machine

/-- The mask of bits hi down to lo. -/
theorem testBit_putBits (w : Word) {hi lo : Nat} (h : lo ≤ hi) (hh : hi < 64) (v i : Nat) (hi' : i < 64) :
    (putBits w hi lo v).getLsbD i = if lo ≤ i ∧ i ≤ hi then v.testBit (i - lo) else w.getLsbD i := by
  have hw : 2 ^ (hi + 1 - lo) - 1 < 2 ^ 64 := by
    have : 2 ^ (hi + 1 - lo) ≤ 2 ^ 64 := Nat.pow_le_pow_right (by decide) (by omega)
    omega
  have hm : (BitVec.ofNat 64 (2 ^ (hi + 1 - lo) - 1) <<< lo).getLsbD i = (decide (lo ≤ i) && decide (i ≤ hi)) := by
    simp only [BitVec.getLsbD_shiftLeft, BitVec.getLsbD_ofNat, Nat.testBit_two_pow_sub_one]
    by_cases h1 : lo ≤ i
    · by_cases h2 : i ≤ hi
      · simp [hi', h1, h2]; omega
      · simp [hi', h1, h2]; omega
    · simp [h1]
  simp only [putBits, BitVec.getLsbD_or, BitVec.getLsbD_and, BitVec.getLsbD_not, hm]
  by_cases h1 : lo ≤ i ∧ i ≤ hi
  · have h3 : i - lo < 64 := by omega
    rw [BitVec.getLsbD_shiftLeft, BitVec.getLsbD_ofNat]
    simp [h1.1, h1.2, hi', h3, show ¬ i < lo by omega]
  · have h2 : (decide (lo ≤ i) && decide (i ≤ hi)) = false := by
      simp only [Bool.and_eq_false_iff, decide_eq_false_iff_not]; omega
    simp [h1, h2, hi']

/-- A field set reads back, cut to its width. -/
theorem getBits_putBits_same (w : Word) {hi lo : Nat} (h : lo ≤ hi) (hh : hi < 64) (v : Nat) :
    getBits (putBits w hi lo v) hi lo = v % 2 ^ (hi + 1 - lo) := by
  apply Nat.eq_of_testBit_eq
  intro i
  simp only [getBits, bitsOf, Nat.testBit_mod_two_pow, Nat.testBit_div_two_pow]
  by_cases hi' : i < hi + 1 - lo
  · have := testBit_putBits w h hh v (i + lo) (by omega)
    rw [if_pos (by omega), Nat.add_sub_cancel] at this
    rw [← BitVec.getLsbD] at *
    simp [hi', this]
  · simp [hi']

/-- A field apart from the one set is unchanged. -/
theorem getBits_putBits_ne (w : Word) {hi lo hi' lo' : Nat} (h : lo ≤ hi) (hh : hi < 64) (hh' : hi' < 64) (v : Nat)
    (hd : hi < lo' ∨ hi' < lo) : getBits (putBits w hi lo v) hi' lo' = getBits w hi' lo' := by
  apply Nat.eq_of_testBit_eq
  intro i
  simp only [getBits, bitsOf, Nat.testBit_mod_two_pow, Nat.testBit_div_two_pow]
  by_cases hi2 : i < hi' + 1 - lo'
  · have := testBit_putBits w h hh v (i + lo') (by omega)
    rw [if_neg (by omega)] at this
    simp only [BitVec.getLsbD] at this
    simp [hi2, this]
  · simp [hi2]

/-- Registers of the same key are the same register. -/
theorem regKey_inj {a b : RegAt} (ha : a.i < 64 ∧ a.j < 1024) (hb : b.i < 64 ∧ b.j < 1024) (h : regKey a = regKey b) :
    a.reg.num = b.reg.num ∧ a.i = b.i ∧ a.j = b.j := by
  simp only [regKey] at h; omega

/-- The name of a register is told by its number. -/
theorem RegName.num_inj {a b : RegName} (h : a.num = b.num) : a = b := by
  have h1 := RegName.ofNat_ctorIdx a
  have h2 := RegName.ofNat_ctorIdx b
  unfold RegName.num at h
  rw [← h1, ← h2, h]

/-- The register just stored. -/
@[simp] theorem raw_setRaw_same (s : State) (a : RegAt) (w : Word) : (s.setRaw a w).raw a = w := tabGet_tabSet_same _ _ _ _

/-- A register of another key. -/
theorem raw_setRaw_key (s : State) {a b : RegAt} (w : Word) (h : regKey a ≠ regKey b) : (s.setRaw a w).raw b = s.raw b := by
  have hm : ∀ e ∈ tabErase (regKey a) s.regs, e.1 ≠ regKey a := fun e he => by simpa using (List.mem_filter.1 he).2
  have he : tabGet (resetWord b.reg) (tabErase (regKey a) s.regs) (regKey b) = tabGet (resetWord b.reg) s.regs (regKey b) :=
    tabGet_filter _ _ _ _ (fun w => by simpa using fun h' => h h'.symm)
  simp only [State.raw, State.setRaw, tabSet]
  split
  · exact he
  · rw [tabGet_tabInsert _ _ w _ _ hm, if_neg h, he]

/-- Another register. -/
theorem raw_setRaw_ne (s : State) {a b : RegAt} (w : Word) (ha : a.i < 64 ∧ a.j < 1024) (hb : b.i < 64 ∧ b.j < 1024)
    (h : a ≠ b) : (s.setRaw a w).raw b = s.raw b := by
  refine raw_setRaw_key s w (fun hk => h ?_)
  obtain ⟨h1, h2, h3⟩ := regKey_inj ha hb hk
  cases a; cases b
  simp only at h1 h2 h3
  rw [RegName.num_inj h1, h2, h3]

/-- A field set reads back, cut to its width. -/
theorem fld_setFld_same (s : State) (f : RField) (i j v : Nat) (h : f.lo ≤ f.hi) (hh : f.hi < 64) :
    (s.setFld f i j v).fld f i j = v % 2 ^ (f.hi + 1 - f.lo) := by
  simp only [State.fld, State.setFld, raw_setRaw_same]
  exact getBits_putBits_same _ h hh v

/-- Setting a field leaves a field apart from it in the same register. -/
theorem fld_setFld_bits (s : State) {f g : RField} (i j v : Nat) (hr : f.reg = g.reg) (h : f.lo ≤ f.hi) (hh : f.hi < 64)
    (hg : g.hi < 64) (hd : f.hi < g.lo ∨ g.hi < f.lo) : (s.setFld f i j v).fld g i j = s.fld g i j := by
  obtain ⟨fr, fh, fl⟩ := f
  obtain ⟨gr, gh, gl⟩ := g
  simp only at hr h hh hg hd
  subst hr
  simp only [State.fld, State.setFld, raw_setRaw_same]
  exact getBits_putBits_ne _ h hh hg v hd

/-- Setting a field leaves the fields of other registers and of other copies. -/
theorem fld_setFld_reg (s : State) {f g : RField} {i j k l : Nat} (v : Nat) (ha : i < 64 ∧ j < 1024) (hb : k < 64 ∧ l < 1024)
    (h : f.reg ≠ g.reg ∨ i ≠ k ∨ j ≠ l) : (s.setFld f i j v).fld g k l = s.fld g k l := by
  simp only [State.fld, State.setFld]
  rw [raw_setRaw_ne s _ ha hb]
  intro he
  simp only [RegAt.mk.injEq] at he
  obtain ⟨h1, h2, h3⟩ := he
  rcases h with h | h | h
  · exact h h1
  · exact h h2
  · exact h h3

/-- Counting events in a field adds them, up to its largest value (R14). -/
theorem fld_bump_same (s : State) (f : RField) (i j n : Nat) (h : f.lo ≤ f.hi) (hh : f.hi < 64) :
    (s.bump f i j n).fld f i j = min (s.fld f i j + n) (2 ^ (f.hi + 1 - f.lo) - 1) := by
  simp only [State.bump, fld_setFld_same _ _ _ _ _ h hh, satAdd]
  apply Nat.mod_eq_of_lt
  have : 0 < 2 ^ (f.hi + 1 - f.lo) := Nat.two_pow_pos _
  omega

end Sys2Proof.Machine
end

