-- ==== Sys2Proof/Laws/Within.lean ====
section
/-! SUPPORT. Which areas of the state an operation may change, as a mask with one bit to an area. -/

namespace Sys2Proof.Machine

/-- The bit of an area. -/
def Area.num : Area → Nat
  | .module => 0
  | .fuses => 1
  | .flash => 2
  | .registers => 3
  | .memory => 4
  | .cache => 5
  | .hostMemory => 6
  | .functions => 7
  | .queues => 8
  | .commands => 9
  | .tokens => 10
  | .launches => 11
  | .parts => 12
  | .ctxs => 13
  | .tallies => 14
  | .regions => 15
  | .tensors => 16
  | .gates => 17
  | .models => 18
  | .groups => 19
  | .comms => 20
  | .cores => 21
  | .slots => 22
  | .engines => 23
  | .witness => 24
  | .links => 25
  | .power => 26
  | .care => 27
  | .security => 28
  | .out => 29
  | .draws => 30

/-- The areas whose bits are clear agree. -/
structure Agree (μ : Nat) (s t : State) : Prop where
  same : ∀ a : Area, μ.testBit a.num = false → a.same s t

/-- A state differs from a reference state only in the areas of a mask. -/
structure Within (μ : Nat) (s₀ s : State) : Prop where
  same : ∀ a : Area, μ.testBit a.num = false → a.same s₀ s

/-- A command answers a next state that differs only in the areas of a mask. -/
def WithinNext (μ : Nat) (s₀ : State) (o : Host.Outcome State Fault Refusal) : Prop := ∃ t, o = .next t ∧ Within μ s₀ t

/-- The areas of one mask are among those of another. -/
def Sub (a b : Nat) : Prop := a &&& b = a

variable {μ : Nat} {s₀ : State}

/-- A part of a mask's part. -/
theorem subStep {a b : Nat} (h : Sub b μ) (hab : (a &&& b) = a) : Sub a μ := by
  unfold Sub at *
  rw [← hab, Nat.and_assoc, h]

/-- A mask holds the bits of its parts. -/
theorem noBit {d k : Nat} (hk : d.testBit k = true) (h : Sub d μ) (ha : μ.testBit k = false) {p : Prop} : p := by
  unfold Sub at h
  rw [← h, Nat.testBit_and, ha, Bool.and_false] at hk
  cases hk

/-- A state differs from itself in nothing. -/
theorem Within.refl (s : State) : Within μ s s := ⟨fun a _ => by cases a <;> rfl⟩

/-- An area that is the same twice over. -/
theorem Area.same_trans {a : Area} {s t u : State} (h : a.same s t) (g : a.same t u) : a.same s u := by
  cases a <;> exact Eq.trans g h

/-- The same, of a state written out field by field. -/
def WithinMk (μ : Nat) (s₀ _ t : State) : Prop := Within μ s₀ t

/-- A state written out is an update of the state whose queue it keeps. -/
theorem within_mk {s : State} {mo fl re me hm ho ob wo li po ca se ou fc} :
    Within μ s₀ ⟨mo, fl, re, me, hm, ho, ob, wo, li, po, ca, se, ou, fc, s.pending⟩ ↔
      WithinMk μ s₀ s ⟨mo, fl, re, me, hm, ho, ob, wo, li, po, ca, se, ou, fc, s.pending⟩ := Iff.rfl

/-- An update of a state that agrees with it outside the mask. -/
theorem withinMk {s t : State} (hs : Within μ s₀ s) (h : Agree μ s t) : WithinMk μ s₀ s t :=
  ⟨fun a ha => Area.same_trans (hs.same a ha) (h.same a ha)⟩

/-- An index drawn. -/
theorem within_pickIndex {s t : State} {n i : Nat} {f : Nat → Bool} (h : Within μ s₀ s)
    (e : pickIndex s n f = some (i, t)) (hm : Sub 1073741824 μ) : Within μ s₀ t := by
  simp only [pickIndex, Option.map_eq_some_iff, Prod.mk.injEq] at e
  obtain ⟨_, _, _, rfl⟩ := e
  exact ⟨fun a ha => by cases a <;> first | exact noBit (by decide) hm ha | exact h.same _ ha⟩

/-- Either branch. -/
theorem within_ite {c : Prop} [Decidable c] {a b : State} (ha : Within μ s₀ a) (hb : Within μ s₀ b) : Within μ s₀ (if c then a else b) := by
  split <;> assumption

/-- A loop over a list whose body keeps it. -/
theorem within_foldl {α : Type} {l : List α} {g : State → α → State} {s : State} (h : Within μ s₀ s)
    (hg : ∀ t a, Within μ s₀ t → Within μ s₀ (g t a)) : Within μ s₀ (l.foldl g s) := by
  induction l generalizing s with
  | nil => exact h
  | cons a l ih => exact ih (hg s a h)

/-- A loop that carries a state and something beside it. -/
theorem within_foldlFst {α β : Type} {l : List α} {g : State × β → α → State × β} {p : State × β} (h : Within μ s₀ p.1)
    (hg : ∀ t a, Within μ s₀ t.1 → Within μ s₀ (g t a).1) : Within μ s₀ (l.foldl g p).1 := by
  induction l generalizing p with
  | nil => exact h
  | cons a l ih => exact ih (hg p a h)
theorem within_foldlSnd {α β : Type} {l : List α} {g : β × State → α → β × State} {p : β × State} (h : Within μ s₀ p.2)
    (hg : ∀ t a, Within μ s₀ t.2 → Within μ s₀ (g t a).2) : Within μ s₀ (l.foldl g p).2 := by
  induction l generalizing p with
  | nil => exact h
  | cons a l ih => exact ih (hg p a h)

/-- The state of a pair known by its components. -/
theorem within_snd {α : Type} {p : α × State} {a : α} {s : State} (e : p = (a, s)) (h : Within μ s₀ p.2) : Within μ s₀ s := by
  subst e; exact h
theorem within_fst {α : Type} {p : State × α} {a : α} {s : State} (e : p = (s, a)) (h : Within μ s₀ p.1) : Within μ s₀ s := by
  subst e; exact h

/-- A next state that keeps it. -/
theorem withinNext_next {s : State} (h : Within μ s₀ s) : WithinNext μ s₀ (.next s) := ⟨s, rfl, h⟩

/-- The state of a command's outcome. -/
theorem within_done {s : State} {rc : Nat} {r : Word} (h : Within μ s₀ s) : Within μ s₀ (CmdOut.done rc r s).state := h
theorem within_wait {s : State} {k : PendKind} (h : Within μ s₀ s) : Within μ s₀ (CmdOut.wait k s).state := h
theorem within_later {s : State} (h : Within μ s₀ s) : Within μ s₀ (CmdOut.later s).state := h
theorem within_iteC {c : Prop} [Decidable c] {a b : CStep} (ha : Within μ s₀ a.s) (hb : Within μ s₀ b.s) :
    Within μ s₀ (if c then a else b).s := by
  split <;> assumption
theorem within_foldlC {α : Type} {l : List α} {g : CStep → α → CStep} {a : CStep} (h : Within μ s₀ a.s)
    (hg : ∀ t x, Within μ s₀ t.s → Within μ s₀ (g t x).s) : Within μ s₀ (l.foldl g a).s := by
  induction l generalizing a with
  | nil => exact h
  | cons x l ih => exact ih (hg a x h)
theorem within_iteOut {c : Prop} [Decidable c] {a b : CmdOut} (ha : Within μ s₀ a.state) (hb : Within μ s₀ b.state) :
    Within μ s₀ (if c then a else b).state := by
  split <;> assumption

/-- A loop of the model. -/
theorem within_forEach {α : Type} {l : List α} {s : State} {g : α → State → State} (h : Within μ s₀ s)
    (hg : ∀ a t, Within μ s₀ t → Within μ s₀ (g a t)) : Within μ s₀ (forEach l s g) := within_foldl h (fun t a ht => hg a t ht)

end Sys2Proof.Machine
end

