-- ==== Sys2Proof/Laws/WithinTables.lean ====
section
/-! SUPPORT. The tables of State, events, causes of holds, memory and the shared operations: the areas they may change. -/

set_option maxRecDepth 4000
set_option linter.unusedSimpArgs false
set_option linter.unusedVariables false

namespace Sys2Proof.Machine

variable {μ : Nat} {s₀ : State}

/-! ### Access -/

theorem within_setFn (s : State) (f : Nat) (v : FnState) (hs : Within μ s₀ s) (hm : Sub 128 μ) : Within μ s₀ (State.setFn s f v) := by
  unfold State.setFn
  repeat' (first
    | with_reducible assumption | (refine Agree.mk (fun a ha => ?_); cases a <;> first | exact noBit (by decide) hm ha | rfl)
    | (simp only [within_mk]; with_reducible refine withinMk ?_ ?_))
theorem within_modFn (s : State) (f : Nat) (upd : FnState → FnState) (hs : Within μ s₀ s) (hm : Sub 128 μ) :
    Within μ s₀ (State.modFn s f upd) := by
  unfold State.modFn
  repeat' (first
    | with_reducible assumption | with_reducible apply within_setFn)
theorem within_setQueue (s : State) (q : Nat) (v : Queue) (hs : Within μ s₀ s) (hm : Sub 256 μ) : Within μ s₀ (State.setQueue s q v) := by
  unfold State.setQueue
  repeat' (first
    | with_reducible assumption | (refine Agree.mk (fun a ha => ?_); cases a <;> first | exact noBit (by decide) hm ha | rfl)
    | (simp only [within_mk]; with_reducible refine withinMk ?_ ?_))
theorem within_modQueue (s : State) (q : Nat) (upd : Queue → Queue) (hs : Within μ s₀ s) (hm : Sub 256 μ) :
    Within μ s₀ (State.modQueue s q upd) := by
  unfold State.modQueue
  repeat' (first
    | with_reducible assumption | with_reducible apply within_setQueue)
theorem within_setPart (s : State) (p : Nat) (v : Part) (hs : Within μ s₀ s) (hm : Sub 4096 μ) : Within μ s₀ (State.setPart s p v) := by
  unfold State.setPart
  repeat' (first
    | with_reducible assumption | (refine Agree.mk (fun a ha => ?_); cases a <;> first | exact noBit (by decide) hm ha | rfl)
    | (simp only [within_mk]; with_reducible refine withinMk ?_ ?_))
theorem within_modPart (s : State) (p : Nat) (upd : Part → Part) (hs : Within μ s₀ s) (hm : Sub 4096 μ) :
    Within μ s₀ (State.modPart s p upd) := by
  unfold State.modPart
  repeat' (first
    | with_reducible assumption | with_reducible apply within_setPart)
theorem within_setCtx (s : State) (c : Nat) (v : Ctx) (hs : Within μ s₀ s) (hm : Sub 8192 μ) : Within μ s₀ (State.setCtx s c v) := by
  unfold State.setCtx
  repeat' (first
    | with_reducible assumption | (refine Agree.mk (fun a ha => ?_); cases a <;> first | exact noBit (by decide) hm ha | rfl)
    | (simp only [within_mk]; with_reducible refine withinMk ?_ ?_))
theorem within_modCtx (s : State) (c : Nat) (upd : Ctx → Ctx) (hs : Within μ s₀ s) (hm : Sub 8192 μ) :
    Within μ s₀ (State.modCtx s c upd) := by
  unfold State.modCtx
  repeat' (first
    | with_reducible assumption | with_reducible apply within_setCtx)
theorem within_setTally (s : State) (t : Nat) (v : Tally) (hs : Within μ s₀ s) (hm : Sub 16384 μ) : Within μ s₀ (State.setTally s t v) := by
  unfold State.setTally
  repeat' (first
    | with_reducible assumption | (refine Agree.mk (fun a ha => ?_); cases a <;> first | exact noBit (by decide) hm ha | rfl)
    | (simp only [within_mk]; with_reducible refine withinMk ?_ ?_))
theorem within_modTally (s : State) (t : Nat) (upd : Tally → Tally) (hs : Within μ s₀ s) (hm : Sub 16384 μ) :
    Within μ s₀ (State.modTally s t upd) := by
  unfold State.modTally
  repeat' (first
    | with_reducible assumption | with_reducible apply within_setTally)
theorem within_setRegion (s : State) (r : Nat) (v : Region) (hs : Within μ s₀ s) (hm : Sub 32768 μ) :
    Within μ s₀ (State.setRegion s r v) := by
  unfold State.setRegion
  repeat' (first
    | with_reducible assumption | (refine Agree.mk (fun a ha => ?_); cases a <;> first | exact noBit (by decide) hm ha | rfl)
    | (simp only [within_mk]; with_reducible refine withinMk ?_ ?_))
theorem within_modRegion (s : State) (r : Nat) (upd : Region → Region) (hs : Within μ s₀ s) (hm : Sub 32768 μ) :
    Within μ s₀ (State.modRegion s r upd) := by
  unfold State.modRegion
  repeat' (first
    | with_reducible assumption | with_reducible apply within_setRegion)
theorem within_setTensor (s : State) (p : Nat) (id : Nat) (v : Tensor) (hs : Within μ s₀ s) (hm : Sub 65536 μ) :
    Within μ s₀ (State.setTensor s p id v) := by
  unfold State.setTensor
  repeat' (first
    | with_reducible assumption | (refine Agree.mk (fun a ha => ?_); cases a <;> first | exact noBit (by decide) hm ha | rfl)
    | (simp only [within_mk]; with_reducible refine withinMk ?_ ?_))
theorem within_modTensor (s : State) (p : Nat) (id : Nat) (upd : Tensor → Tensor) (hs : Within μ s₀ s) (hm : Sub 65536 μ) :
    Within μ s₀ (State.modTensor s p id upd) := by
  unfold State.modTensor
  repeat' (first
    | with_reducible assumption | with_reducible apply within_setTensor)
theorem within_setGate (s : State) (p : Nat) (g : Nat) (v : Gate) (hs : Within μ s₀ s) (hm : Sub 131072 μ) :
    Within μ s₀ (State.setGate s p g v) := by
  unfold State.setGate
  repeat' (first
    | with_reducible assumption | (refine Agree.mk (fun a ha => ?_); cases a <;> first | exact noBit (by decide) hm ha | rfl)
    | (simp only [within_mk]; with_reducible refine withinMk ?_ ?_))
theorem within_modGate (s : State) (p : Nat) (g : Nat) (upd : Gate → Gate) (hs : Within μ s₀ s) (hm : Sub 131072 μ) :
    Within μ s₀ (State.modGate s p g upd) := by
  unfold State.modGate
  repeat' (first
    | with_reducible assumption | with_reducible apply within_setGate)
theorem within_setModel (s : State) (m : Nat) (v : Model) (hs : Within μ s₀ s) (hm : Sub 262144 μ) :
    Within μ s₀ (State.setModel s m v) := by
  unfold State.setModel
  repeat' (first
    | with_reducible assumption | (refine Agree.mk (fun a ha => ?_); cases a <;> first | exact noBit (by decide) hm ha | rfl)
    | (simp only [within_mk]; with_reducible refine withinMk ?_ ?_))
theorem within_modModel (s : State) (m : Nat) (upd : Model → Model) (hs : Within μ s₀ s) (hm : Sub 262144 μ) :
    Within μ s₀ (State.modModel s m upd) := by
  unfold State.modModel
  repeat' (first
    | with_reducible assumption | with_reducible apply within_setModel)
theorem within_setGroup (s : State) (g : Nat) (v : Group) (hs : Within μ s₀ s) (hm : Sub 524288 μ) :
    Within μ s₀ (State.setGroup s g v) := by
  unfold State.setGroup
  repeat' (first
    | with_reducible assumption | (refine Agree.mk (fun a ha => ?_); cases a <;> first | exact noBit (by decide) hm ha | rfl)
    | (simp only [within_mk]; with_reducible refine withinMk ?_ ?_))
theorem within_modGroup (s : State) (g : Nat) (upd : Group → Group) (hs : Within μ s₀ s) (hm : Sub 524288 μ) :
    Within μ s₀ (State.modGroup s g upd) := by
  unfold State.modGroup
  repeat' (first
    | with_reducible assumption | with_reducible apply within_setGroup)
theorem within_setComm (s : State) (n : Nat) (k : Nat) (v : Comm) (hs : Within μ s₀ s) (hm : Sub 1048576 μ) :
    Within μ s₀ (State.setComm s n k v) := by
  unfold State.setComm
  repeat' (first
    | with_reducible assumption | (refine Agree.mk (fun a ha => ?_); cases a <;> first | exact noBit (by decide) hm ha | rfl)
    | (simp only [within_mk]; with_reducible refine withinMk ?_ ?_))
theorem within_modComm (s : State) (n : Nat) (k : Nat) (upd : Comm → Comm) (hs : Within μ s₀ s) (hm : Sub 1048576 μ) :
    Within μ s₀ (State.modComm s n k upd) := by
  unfold State.modComm
  repeat' (first
    | with_reducible assumption | with_reducible apply within_setComm)
theorem within_setCore (s : State) (k : Nat) (v : Core) (hs : Within μ s₀ s) (hm : Sub 2097152 μ) : Within μ s₀ (State.setCore s k v) := by
  unfold State.setCore
  repeat' (first
    | with_reducible assumption | (refine Agree.mk (fun a ha => ?_); cases a <;> first | exact noBit (by decide) hm ha | rfl)
    | (simp only [within_mk]; with_reducible refine withinMk ?_ ?_))
theorem within_modCore (s : State) (k : Nat) (upd : Core → Core) (hs : Within μ s₀ s) (hm : Sub 2097152 μ) :
    Within μ s₀ (State.modCore s k upd) := by
  unfold State.modCore
  repeat' (first
    | with_reducible assumption | with_reducible apply within_setCore)
theorem within_setSlot (s : State) (k : Nat) (i : Nat) (v : Slot) (hs : Within μ s₀ s) (hm : Sub 4194304 μ) :
    Within μ s₀ (State.setSlot s k i v) := by
  unfold State.setSlot
  repeat' (first
    | with_reducible assumption | (refine Agree.mk (fun a ha => ?_); cases a <;> first | exact noBit (by decide) hm ha | rfl)
    | (simp only [within_mk]; with_reducible refine withinMk ?_ ?_))
theorem within_modSlot (s : State) (k : Nat) (i : Nat) (upd : Slot → Slot) (hs : Within μ s₀ s) (hm : Sub 4194304 μ) :
    Within μ s₀ (State.modSlot s k i upd) := by
  unfold State.modSlot
  repeat' (first
    | with_reducible assumption | with_reducible apply within_setSlot)
theorem within_setEngine (s : State) (e : Nat) (v : Engine) (hs : Within μ s₀ s) (hm : Sub 8388608 μ) :
    Within μ s₀ (State.setEngine s e v) := by
  unfold State.setEngine
  repeat' (first
    | with_reducible assumption | (refine Agree.mk (fun a ha => ?_); cases a <;> first | exact noBit (by decide) hm ha | rfl)
    | (simp only [within_mk]; with_reducible refine withinMk ?_ ?_))
theorem within_modEngine (s : State) (e : Nat) (upd : Engine → Engine) (hs : Within μ s₀ s) (hm : Sub 8388608 μ) :
    Within μ s₀ (State.modEngine s e upd) := by
  unfold State.modEngine
  repeat' (first
    | with_reducible assumption | with_reducible apply within_setEngine)
theorem within_setWitness (s : State) (n : Nat) (v : Option Sample) (hs : Within μ s₀ s) (hm : Sub 16777216 μ) :
    Within μ s₀ (State.setWitness s n v) := by
  unfold State.setWitness
  repeat' (first
    | with_reducible assumption | (refine Agree.mk (fun a ha => ?_); cases a <;> first | exact noBit (by decide) hm ha | rfl)
    | (simp only [within_mk]; with_reducible refine withinMk ?_ ?_))
theorem within_modWitness (s : State) (n : Nat) (upd : Option Sample → Option Sample) (hs : Within μ s₀ s) (hm : Sub 16777216 μ) :
    Within μ s₀ (State.modWitness s n upd) := by
  unfold State.modWitness
  repeat' (first
    | with_reducible assumption | with_reducible apply within_setWitness)
theorem within_setTrained (s : State) (g : Nat) (v : Trained) (hs : Within μ s₀ s) (hm : Sub 4 μ) :
    Within μ s₀ (State.setTrained s g v) := by
  unfold State.setTrained
  repeat' (first
    | with_reducible assumption | (refine Agree.mk (fun a ha => ?_); cases a <;> first | exact noBit (by decide) hm ha | rfl)
    | (simp only [within_mk]; with_reducible refine withinMk ?_ ?_))
theorem within_modTrained (s : State) (g : Nat) (upd : Trained → Trained) (hs : Within μ s₀ s) (hm : Sub 4 μ) :
    Within μ s₀ (State.modTrained s g upd) := by
  unfold State.modTrained
  repeat' (first
    | with_reducible assumption | with_reducible apply within_setTrained)
theorem within_setTrainedNow (s : State) (g : Nat) (v : Trained) (hs : Within μ s₀ s) (hm : Sub 1 μ) :
    Within μ s₀ (State.setTrainedNow s g v) := by
  unfold State.setTrainedNow
  repeat' (first
    | with_reducible assumption | (refine Agree.mk (fun a ha => ?_); cases a <;> first | exact noBit (by decide) hm ha | rfl)
    | (simp only [within_mk]; with_reducible refine withinMk ?_ ?_))
theorem within_modTrainedNow (s : State) (g : Nat) (upd : Trained → Trained) (hs : Within μ s₀ s) (hm : Sub 1 μ) :
    Within μ s₀ (State.modTrainedNow s g upd) := by
  unfold State.modTrainedNow
  repeat' (first
    | with_reducible assumption | with_reducible apply within_setTrainedNow)
theorem within_setAutumnResult (s : State) (n : Nat) (v : AutumnResult) (hs : Within μ s₀ s) (hm : Sub 134217728 μ) :
    Within μ s₀ (State.setAutumnResult s n v) := by
  unfold State.setAutumnResult
  repeat' (first
    | with_reducible assumption | (refine Agree.mk (fun a ha => ?_); cases a <;> first | exact noBit (by decide) hm ha | rfl)
    | (simp only [within_mk]; with_reducible refine withinMk ?_ ?_))
theorem within_modAutumnResult (s : State) (n : Nat) (upd : AutumnResult → AutumnResult) (hs : Within μ s₀ s) (hm : Sub 134217728 μ) :
    Within μ s₀ (State.modAutumnResult s n upd) := by
  unfold State.modAutumnResult
  repeat' (first
    | with_reducible assumption | with_reducible apply within_setAutumnResult)
theorem within_setHealth (s : State) (u : Nat) (v : Health) (hs : Within μ s₀ s) (hm : Sub 134217728 μ) :
    Within μ s₀ (State.setHealth s u v) := by
  unfold State.setHealth
  repeat' (first
    | with_reducible assumption | (refine Agree.mk (fun a ha => ?_); cases a <;> first | exact noBit (by decide) hm ha | rfl)
    | (simp only [within_mk]; with_reducible refine withinMk ?_ ?_))
theorem within_modHealth (s : State) (u : Nat) (upd : Health → Health) (hs : Within μ s₀ s) (hm : Sub 134217728 μ) :
    Within μ s₀ (State.modHealth s u upd) := by
  unfold State.modHealth
  repeat' (first
    | with_reducible assumption | with_reducible apply within_setHealth)
theorem within_setAutumn (s : State) (n : Nat) (v : Option AutumnRun) (hs : Within μ s₀ s) (hm : Sub 134217728 μ) :
    Within μ s₀ (State.setAutumn s n v) := by
  unfold State.setAutumn
  repeat' (first
    | with_reducible assumption | (refine Agree.mk (fun a ha => ?_); cases a <;> first | exact noBit (by decide) hm ha | rfl)
    | (simp only [within_mk]; with_reducible refine withinMk ?_ ?_))
theorem within_modAutumn (s : State) (n : Nat) (upd : Option AutumnRun → Option AutumnRun) (hs : Within μ s₀ s) (hm : Sub 134217728 μ) :
    Within μ s₀ (State.modAutumn s n upd) := by
  unfold State.modAutumn
  repeat' (first
    | with_reducible assumption | with_reducible apply within_setAutumn)
theorem within_setGravel (s : State) (n : Nat) (v : Gravel) (hs : Within μ s₀ s) (hm : Sub 134217728 μ) :
    Within μ s₀ (State.setGravel s n v) := by
  unfold State.setGravel
  repeat' (first
    | with_reducible assumption | (refine Agree.mk (fun a ha => ?_); cases a <;> first | exact noBit (by decide) hm ha | rfl)
    | (simp only [within_mk]; with_reducible refine withinMk ?_ ?_))
theorem within_modGravel (s : State) (n : Nat) (upd : Gravel → Gravel) (hs : Within μ s₀ s) (hm : Sub 134217728 μ) :
    Within μ s₀ (State.modGravel s n upd) := by
  unfold State.modGravel
  repeat' (first
    | with_reducible assumption | with_reducible apply within_setGravel)
theorem within_setSpdm (s : State) (k : Nat) (v : SpdmConn) (hs : Within μ s₀ s) (hm : Sub 268435456 μ) :
    Within μ s₀ (State.setSpdm s k v) := by
  unfold State.setSpdm
  repeat' (first
    | with_reducible assumption | (refine Agree.mk (fun a ha => ?_); cases a <;> first | exact noBit (by decide) hm ha | rfl)
    | (simp only [within_mk]; with_reducible refine withinMk ?_ ?_))
theorem within_modSpdm (s : State) (k : Nat) (upd : SpdmConn → SpdmConn) (hs : Within μ s₀ s) (hm : Sub 268435456 μ) :
    Within μ s₀ (State.modSpdm s k upd) := by
  unfold State.modSpdm
  repeat' (first
    | with_reducible assumption | with_reducible apply within_setSpdm)
theorem within_setLink (s : State) (l : Nat) (v : Link) (hs : Within μ s₀ s) (hm : Sub 33554432 μ) : Within μ s₀ (State.setLink s l v) := by
  unfold State.setLink
  repeat' (first
    | with_reducible assumption | (refine Agree.mk (fun a ha => ?_); cases a <;> first | exact noBit (by decide) hm ha | rfl)
    | (simp only [within_mk]; with_reducible refine withinMk ?_ ?_))
theorem within_modLink (s : State) (l : Nat) (upd : Link → Link) (hs : Within μ s₀ s) (hm : Sub 33554432 μ) :
    Within μ s₀ (State.modLink s l upd) := by
  unfold State.modLink
  repeat' (first
    | with_reducible assumption | with_reducible apply within_setLink)
theorem within_setRaw (s : State) (a : RegAt) (w : Word) (hs : Within μ s₀ s) (hm : Sub 8 μ) : Within μ s₀ (State.setRaw s a w) := by
  unfold State.setRaw
  repeat' (first
    | with_reducible assumption | (refine Agree.mk (fun a ha => ?_); cases a <;> first | exact noBit (by decide) hm ha | rfl)
    | (simp only [within_mk]; with_reducible refine withinMk ?_ ?_))
theorem within_setFld (s : State) (f : RField) (i : Nat) (j : Nat) (v : Nat) (hs : Within μ s₀ s) (hm : Sub 8 μ) :
    Within μ s₀ (State.setFld s f i j v) := by
  unfold State.setFld
  repeat' (first
    | with_reducible assumption | with_reducible apply within_setRaw)
theorem within_bump (s : State) (f : RField) (i : Nat) (j : Nat) (n : Nat) (hs : Within μ s₀ s) (hm : Sub 8 μ) :
    Within μ s₀ (State.bump s f i j n) := by
  unfold State.bump
  repeat' (first
    | with_reducible assumption | with_reducible apply within_setFld)
theorem within_wrap (s : State) (f : RField) (i : Nat) (j : Nat) (n : Nat) (hs : Within μ s₀ s) (hm : Sub 8 μ) :
    Within μ s₀ (State.wrap s f i j n) := by
  unfold State.wrap
  repeat' (first
    | with_reducible assumption | with_reducible apply within_setFld)
theorem within_clearRegs (s : State) (p : RegName → Nat → Nat → Bool) (hs : Within μ s₀ s) (hm : Sub 8 μ) :
    Within μ s₀ (State.clearRegs s p) := by
  unfold State.clearRegs
  repeat' (first
    | with_reducible assumption | (refine Agree.mk (fun a ha => ?_); cases a <;> first | exact noBit (by decide) hm ha | rfl)
    | (simp only [within_mk]; with_reducible refine withinMk ?_ ?_))
theorem within_freeDraw (s : State) (hs : Within μ s₀ s) (hm : Sub 1073741824 μ) : Within μ s₀ (State.freeDraw s).2 := by
  unfold State.freeDraw
  repeat' (first
    | with_reducible assumption | (refine Agree.mk (fun a ha => ?_); cases a <;> first | exact noBit (by decide) hm ha | rfl)
    | (simp only [within_mk]; with_reducible refine withinMk ?_ ?_))
/-! ### Events -/

theorem within_raiseMsix (s : State) (f : Nat) (vec : Nat) (hs : Within μ s₀ s) (hm : Sub 536870912 μ) :
    Within μ s₀ (raiseMsix s f vec) := by
  unfold raiseMsix
  repeat' (first
    | with_reducible assumption | (refine Agree.mk (fun a ha => ?_); cases a <;> first | exact noBit (by decide) hm ha | rfl)
    | with_reducible apply within_ite | (simp only [within_mk]; with_reducible refine withinMk ?_ ?_))
theorem within_queueOut (s : State) (f : Nat) (j : Nat) (w : Word) (hs : Within μ s₀ s) (hm : Sub 136 μ) :
    Within μ s₀ (queueOut s f j w) := by
  unfold queueOut
  repeat' (first
    | with_reducible assumption | exact subStep hm (by decide) | with_reducible apply within_modFn | with_reducible apply within_bump
    | with_reducible apply within_ite)
theorem within_postTo (s : State) (fs : List Nat) (code : Nat) (arg : Nat) (hs : Within μ s₀ s) (hm : Sub 136 μ) :
    Within μ s₀ (postTo s fs code arg) := by
  unfold postTo
  repeat' (first
    | with_reducible assumption | intro _ | with_reducible apply within_forEach | with_reducible apply within_queueOut)
theorem within_postPart (s : State) (p : Nat) (code : Nat) (arg : Nat) (hs : Within μ s₀ s) (hm : Sub 136 μ) :
    Within μ s₀ (postPart s p code arg) := by
  unfold postPart
  repeat' (first
    | with_reducible assumption | with_reducible apply within_postTo)
theorem within_postBoth (s : State) (p : Option Nat) (code : Nat) (arg : Nat) (hs : Within μ s₀ s) (hm : Sub 136 μ) :
    Within μ s₀ (postBoth s p code arg) := by
  unfold postBoth
  repeat' (first
    | with_reducible assumption | with_reducible apply within_postTo)
theorem within_postHealth (s : State) (u : Nat) (hs : Within μ s₀ s) (hm : Sub 136 μ) : Within μ s₀ (postHealth s u) := by
  unfold postHealth
  repeat' (first
    | with_reducible assumption | with_reducible apply within_postTo)
theorem within_healthEvent (s : State) (u : Nat) (row : Nat) (pts : Nat) (hs : Within μ s₀ s) (hm : Sub 134217864 μ) :
    Within μ s₀ (healthEvent s u row pts) := by
  unfold healthEvent
  repeat' (first
    | with_reducible assumption | exact subStep hm (by decide) | with_reducible apply within_setHealth
    | with_reducible apply within_bump | with_reducible apply within_postHealth | with_reducible apply within_ite)
theorem within_withHealth (s : State) (u : Nat) (g : State → State) (hs : Within μ s₀ s) (hg : ∀ t, Within μ s₀ t → Within μ s₀ (g t)) (hm : Sub 136 μ) :
    Within μ s₀ (withHealth s u g) := by
  unfold withHealth
  repeat' (first
    | with_reducible assumption | with_reducible apply within_postHealth | with_reducible apply hg | with_reducible apply within_ite)
/-! ### Windows -/

theorem within_addCauseAt (s : State) (p : Nat) (field : Nat) (key : Nat) (len : Option Nat) (since : Nat) (hs : Within μ s₀ s) (hm : Sub 4096 μ) :
    Within μ s₀ (addCauseAt s p field key len since) := by
  unfold addCauseAt
  repeat' (first
    | with_reducible assumption | with_reducible apply within_modPart | with_reducible apply within_ite)
theorem within_addCause (s : State) (p : Nat) (field : Nat) (key : Nat) (len : Option Nat) (hs : Within μ s₀ s) (hm : Sub 4096 μ) :
    Within μ s₀ (addCause s p field key len) := by
  unfold addCause
  repeat' (first
    | with_reducible assumption | with_reducible apply within_addCauseAt)
theorem within_addOpenCause (s : State) (p : Nat) (field : Nat) (key : Nat) (hs : Within μ s₀ s) (hm : Sub 4096 μ) :
    Within μ s₀ (addOpenCause s p field key) := by
  unfold addOpenCause
  repeat' (first
    | with_reducible assumption | with_reducible apply within_addCause | with_reducible apply within_ite)
theorem within_dropCauses (s : State) (p : Nat) (f : HoldCause → Bool) (hs : Within μ s₀ s) (hm : Sub 4096 μ) :
    Within μ s₀ (dropCauses s p f) := by
  unfold dropCauses
  repeat' (first
    | with_reducible assumption | with_reducible apply within_modPart)
/-! ### Memory -/

theorem within_mendWords (s : State) (f : Nat → Bool) (hs : Within μ s₀ s) (hm : Sub 16 μ) : Within μ s₀ (mendWords s f) := by
  unfold mendWords
  repeat' (first
    | with_reducible assumption | (refine Agree.mk (fun a ha => ?_); cases a <;> first | exact noBit (by decide) hm ha | rfl)
    | (simp only [within_mk]; with_reducible refine withinMk ?_ ?_))
theorem within_writeBytes (s : State) (a : Nat) (bs : List Byte) (hs : Within μ s₀ s) (hm : Sub 16 μ) :
    Within μ s₀ (writeBytes s a bs) := by
  unfold writeBytes
  repeat' (first
    | with_reducible assumption | (refine Agree.mk (fun a ha => ?_); cases a <;> first | exact noBit (by decide) hm ha | rfl)
    | with_reducible apply within_mendWords | (simp only [within_mk]; with_reducible refine withinMk ?_ ?_))
theorem within_writeCells (s : State) (l : List Cell) (hs : Within μ s₀ s) (hm : Sub 16 μ) : Within μ s₀ (writeCells s l) := by
  unfold writeCells
  repeat' (first
    | with_reducible assumption | (refine Agree.mk (fun a ha => ?_); cases a <;> first | exact noBit (by decide) hm ha | rfl)
    | with_reducible apply within_mendWords | (simp only [within_mk]; with_reducible refine withinMk ?_ ?_))
theorem within_zeroRange (s : State) (a : Nat) (n : Nat) (hs : Within μ s₀ s) (hm : Sub 16 μ) : Within μ s₀ (zeroRange s a n) := by
  unfold zeroRange
  repeat' (first
    | with_reducible assumption | (refine Agree.mk (fun a ha => ?_); cases a <;> first | exact noBit (by decide) hm ha | rfl)
    | with_reducible apply within_mendWords | (simp only [within_mk]; with_reducible refine withinMk ?_ ?_))
theorem within_poisonKey (s : State) (k : Nat) (hs : Within μ s₀ s) (hm : Sub 16 μ) : Within μ s₀ (poisonKey s k) := by
  unfold poisonKey
  repeat' (first
    | with_reducible assumption | (refine Agree.mk (fun a ha => ?_); cases a <;> first | exact noBit (by decide) hm ha | rfl)
    | (simp only [within_mk]; with_reducible refine withinMk ?_ ?_))
theorem within_poisonWord (s : State) (a : Nat) (hs : Within μ s₀ s) (hm : Sub 16 μ) : Within μ s₀ (poisonWord s a) := by
  unfold poisonWord
  repeat' (first
    | with_reducible assumption | with_reducible apply within_poisonKey)
theorem within_upsetWords (s : State) (hits : List Hit) (hs : Within μ s₀ s) (hm : Sub 16 μ) : Within μ s₀ (upsetWords s hits) := by
  unfold upsetWords
  repeat' (first
    | with_reducible assumption | (refine Agree.mk (fun a ha => ?_); cases a <;> first | exact noBit (by decide) hm ha | rfl)
    | intro _ | with_reducible apply within_foldl | with_reducible apply within_ite | (simp only [within_mk]; with_reducible refine withinMk ?_ ?_)
    | simp only [] | split)
theorem within_takeSpoilt (s : State) (a : Nat) (n : Nat) (hs : Within μ s₀ s) (hm : Sub 16 μ) : Within μ s₀ (takeSpoilt s a n).1 := by
  unfold takeSpoilt
  repeat' (first
    | with_reducible assumption | (refine Agree.mk (fun a ha => ?_); cases a <;> first | exact noBit (by decide) hm ha | rfl)
    | (simp only [within_mk]; with_reducible refine withinMk ?_ ?_) | simp only [] | split)
theorem within_writeHost (s : State) (a : Nat) (bs : List Byte) (hs : Within μ s₀ s) (hm : Sub 64 μ) : Within μ s₀ (writeHost s a bs) := by
  unfold writeHost
  repeat' (first
    | with_reducible assumption | (refine Agree.mk (fun a ha => ?_); cases a <;> first | exact noBit (by decide) hm ha | rfl)
    | (simp only [within_mk]; with_reducible refine withinMk ?_ ?_))
theorem within_hostStores (s : State) (l : List Cell) (hs : Within μ s₀ s) (hm : Sub 64 μ) : Within μ s₀ (hostStores s l) := by
  unfold hostStores
  repeat' (first
    | with_reducible assumption | intro _ | with_reducible apply within_writeHost | with_reducible apply within_foldl)
theorem within_noteLoam (s : State) (sec : Nat) (off : Nat) (e : WordError) (hs : Within μ s₀ s) (hm : Sub 134217864 μ) :
    Within μ s₀ (noteLoam s sec off e) := by
  unfold noteLoam
  repeat' (first
    | with_reducible assumption | exact subStep hm (by decide) | with_reducible apply within_bump | with_reducible apply within_healthEvent
    | with_reducible apply within_setRaw | simp only [] | split)
theorem within_noteHbm (s : State) (g : Nat) (off : Nat) (e : WordError) (hs : Within μ s₀ s) (hm : Sub 134217864 μ) :
    Within μ s₀ (noteHbm s g off e) := by
  unfold noteHbm
  repeat' (first
    | with_reducible assumption | exact subStep hm (by decide) | with_reducible apply within_bump | with_reducible apply within_healthEvent
    | with_reducible apply within_setRaw | simp only [] | split)
theorem within_noteKey (s : State) (k : Nat) (e : WordError) (hs : Within μ s₀ s) (hm : Sub 134221976 μ) : Within μ s₀ (noteKey s k e) := by
  unfold noteKey
  repeat' (first
    | with_reducible assumption | exact subStep hm (by decide) | (refine Agree.mk (fun a ha => ?_); cases a <;> first | exact noBit (by decide) hm ha | rfl)
    | with_reducible apply within_noteLoam | with_reducible apply within_noteHbm | with_reducible apply within_addCause
    | (simp only [within_mk]; with_reducible refine withinMk ?_ ?_) | simp only [] | split)
theorem within_noteErrors (s : State) (es : List (Nat × Nat × WordError)) (hs : Within μ s₀ s) (hm : Sub 134221976 μ) :
    Within μ s₀ (noteErrors s es) := by
  unfold noteErrors
  repeat' (first
    | with_reducible assumption | intro _ | with_reducible apply within_noteKey | with_reducible apply within_foldl)
theorem within_readCheck (s : State) (a : Nat) (n : Nat) (hs : Within μ s₀ s) (hm : Sub 134221976 μ) : Within μ s₀ (readCheck s a n).1 := by
  unfold readCheck
  repeat' (first
    | with_reducible assumption | with_reducible apply within_noteErrors)
theorem within_setCacheLine (s : State) (sec : Nat) (set : Nat) (way : Nat) (l : CacheLine) (hs : Within μ s₀ s) (hm : Sub 32 μ) :
    Within μ s₀ (setCacheLine s sec set way l) := by
  unfold setCacheLine
  repeat' (first
    | with_reducible assumption | (refine Agree.mk (fun a ha => ?_); cases a <;> first | exact noBit (by decide) hm ha | rfl)
    | (simp only [within_mk]; with_reducible refine withinMk ?_ ?_))
theorem within_cacheVictim (s : State) (sec : Nat) (set : Nat) (hs : Within μ s₀ s) (hm : Sub 32 μ) :
    Within μ s₀ (cacheVictim s sec set).1 := by
  unfold cacheVictim
  repeat' (first
    | with_reducible assumption | intro _ | with_reducible apply within_forEach | with_reducible apply within_setCacheLine
    | simp only [] | split)
theorem within_forgetWords (s : State) (f : Nat → Bool) (hs : Within μ s₀ s) (hm : Sub 16 μ) : Within μ s₀ (forgetWords s f) := by
  unfold forgetWords
  repeat' (first
    | with_reducible assumption | (refine Agree.mk (fun a ha => ?_); cases a <;> first | exact noBit (by decide) hm ha | rfl)
    | (simp only [within_mk]; with_reducible refine withinMk ?_ ?_))
theorem within_writeBackLine (s : State) (ck : Nat) (hs : Within μ s₀ s) (hm : Sub 134221976 μ) : Within μ s₀ (writeBackLine s ck) := by
  unfold writeBackLine
  repeat' (first
    | with_reducible assumption | exact subStep hm (by decide) | intro _ | with_reducible apply within_forgetWords
    | with_reducible apply within_noteErrors | with_reducible apply within_poisonKey | with_reducible apply within_bump
    | with_reducible apply within_foldl)
theorem within_evictLine (s : State) (ck : Nat) (hs : Within μ s₀ s) (hm : Sub 134222008 μ) : Within μ s₀ (evictLine s ck) := by
  unfold evictLine
  repeat' (first
    | with_reducible assumption | exact subStep hm (by decide) | (refine Agree.mk (fun a ha => ?_); cases a <;> first | exact noBit (by decide) hm ha | rfl)
    | with_reducible apply within_writeBackLine | with_reducible apply within_forgetWords | with_reducible apply within_ite
    | (simp only [within_mk]; with_reducible refine withinMk ?_ ?_))
theorem within_fillLine (s : State) (ck : Nat) (hs : Within μ s₀ s) (hm : Sub 134221976 μ) : Within μ s₀ (fillLine s ck).1 := by
  unfold fillLine
  repeat' (first
    | with_reducible assumption | exact subStep hm (by decide) | intro _ | with_reducible apply within_noteErrors
    | with_reducible apply within_bump | with_reducible apply within_poisonKey | with_reducible apply within_foldl)
theorem within_cacheAccess (s : State) (sec : Nat) (u : Nat) (line : Nat) (use : CacheUse) (hs : Within μ s₀ s) (hm : Sub 134222008 μ) :
    Within μ s₀ (cacheAccess s sec u line use).1 := by
  unfold cacheAccess
  repeat' (first
    | with_reducible assumption | exact subStep hm (by decide) | with_reducible apply within_setCacheLine
    | with_reducible apply within_bump | with_reducible apply within_cacheVictim | with_reducible apply within_evictLine
    | with_reducible apply within_fillLine | simp only [] | split)
theorem within_throughCache (s : State) (a : Nat) (n : Nat) (engine : Bool) (hs : Within μ s₀ s) (hm : Sub 134222008 μ) :
    Within μ s₀ (throughCache s a n engine) := by
  unfold throughCache
  repeat' (first
    | with_reducible assumption | intro _ | with_reducible apply within_forEach | with_reducible apply within_cacheAccess
    | with_reducible apply within_ite)
theorem within_readLine (s : State) (a : Nat) (n : Nat) (l : Nat) (hs : Within μ s₀ s) (hm : Sub 134222008 μ) :
    Within μ s₀ (readLine s a n l).1 := by
  unfold readLine
  repeat' (first
    | with_reducible assumption | exact subStep hm (by decide) | with_reducible apply within_cacheAccess
    | with_reducible apply within_readCheck | simp only [] | split)
theorem within_readMem (s : State) (a : Nat) (n : Nat) (hs : Within μ s₀ s) (hm : Sub 134222008 μ) : Within μ s₀ (readMem s a n).1 := by
  unfold readMem
  repeat' (first
    | with_reducible assumption | exact subStep hm (by decide) | intro _ | with_reducible apply within_readCheck
    | with_reducible apply within_readLine | with_reducible apply within_foldlFst | simp only [] | split)
theorem within_readAll (s : State) (rs : List (Nat × Nat)) (hs : Within μ s₀ s) (hm : Sub 134222008 μ) : Within μ s₀ (readAll s rs).1 := by
  unfold readAll
  repeat' (first
    | with_reducible assumption | intro _ | with_reducible apply within_readMem | with_reducible apply within_foldlFst)
theorem within_writeMem (s : State) (a : Nat) (bs : List Byte) (engine : Bool) (hs : Within μ s₀ s) (hm : Sub 134222008 μ) :
    Within μ s₀ (writeMem s a bs engine) := by
  unfold writeMem
  repeat' (first
    | with_reducible assumption | exact subStep hm (by decide) | with_reducible apply within_writeBytes
    | with_reducible apply within_throughCache)
theorem within_storeBytes (s : State) (a : Nat) (data : List Byte) (hs : Within μ s₀ s) (hm : Sub 134222008 μ) :
    Within μ s₀ (storeBytes s a data) := by
  unfold storeBytes
  repeat' (first
    | with_reducible assumption | exact subStep hm (by decide) | intro _ | with_reducible apply within_throughCache
    | with_reducible apply within_readCheck | with_reducible apply within_poisonWord | with_reducible apply within_writeBytes
    | with_reducible apply within_foldl | with_reducible apply within_foldlFst | with_reducible apply within_ite)
theorem within_flushSection (s : State) (sec : Nat) (hs : Within μ s₀ s) (hm : Sub 134222008 μ) : Within μ s₀ (flushSection s sec) := by
  unfold flushSection
  repeat' (first
    | with_reducible assumption | intro _ | with_reducible apply within_forEach | with_reducible apply within_evictLine)
theorem within_dropSection (s : State) (sec : Nat) (hs : Within μ s₀ s) (hm : Sub 48 μ) : Within μ s₀ (dropSection s sec) := by
  unfold dropSection
  repeat' (first
    | with_reducible assumption | exact subStep hm (by decide) | (refine Agree.mk (fun a ha => ?_); cases a <;> first | exact noBit (by decide) hm ha | rfl)
    | with_reducible apply within_forgetWords | (simp only [within_mk]; with_reducible refine withinMk ?_ ?_))
theorem within_flushPart (s : State) (p : Nat) (hs : Within μ s₀ s) (hm : Sub 134222008 μ) : Within μ s₀ (flushPart s p).1 := by
  unfold flushPart
  repeat' (first
    | with_reducible assumption | intro _ | with_reducible apply within_forEach | with_reducible apply within_flushSection)
/-! ### Ops -/

theorem within_sendFlit (s : State) (l : Nat) (kind : Nat) (nak : Bool) (seq : Nat) (first : Nat) (payload : List Byte) (hs : Within μ s₀ s) (hm : Sub 536870912 μ) :
    Within μ s₀ (sendFlit s l kind nak seq first payload) := by
  unfold sendFlit
  repeat' (first
    | with_reducible assumption | (refine Agree.mk (fun a ha => ?_); cases a <;> first | exact noBit (by decide) hm ha | rfl)
    | (simp only [within_mk]; with_reducible refine withinMk ?_ ?_))
theorem within_sendIdle (s : State) (l : Nat) (nak : Bool) (hs : Within μ s₀ s) (hm : Sub 536870912 μ) :
    Within μ s₀ (sendIdle s l nak) := by
  unfold sendIdle
  repeat' (first
    | with_reducible assumption | with_reducible apply within_sendFlit)
theorem within_cutFlit (s : State) (l : Nat) (hs : Within μ s₀ s) (hm : Sub 570425344 μ) : Within μ s₀ (cutFlit s l) := by
  unfold cutFlit
  repeat' (first
    | with_reducible assumption | exact subStep hm (by decide) | with_reducible apply within_sendFlit
    | with_reducible apply within_setLink)
theorem within_beginMsg (s : State) (l : Nat) (m : OutMsg) (hs : Within μ s₀ s) (hm : Sub 33554440 μ) : Within μ s₀ (beginMsg s l m) := by
  unfold beginMsg
  repeat' (first
    | with_reducible assumption | exact subStep hm (by decide) | with_reducible apply within_modLink | with_reducible apply within_bump)
theorem within_pumpLink (s : State) (l : Nat) (n : Nat) (hs : Within μ s₀ s) (hm : Sub 570425352 μ) : Within μ s₀ (pumpLink s l n) := by
  induction n generalizing s with
  | zero => exact hs
  | succ n ih =>
    unfold pumpLink
    dsimp only
    repeat' (first | exact subStep hm (by decide) | with_reducible assumption | with_reducible apply ih | with_reducible apply within_beginMsg | with_reducible apply within_cutFlit | with_reducible apply within_setLink | split)
theorem within_pump (s : State) (l : Nat) (hs : Within μ s₀ s) (hm : Sub 570429448 μ) : Within μ s₀ (pump s l) := by
  unfold pump
  repeat' (first
    | with_reducible assumption | exact subStep hm (by decide) | with_reducible apply within_pumpLink
    | with_reducible apply within_dropCauses | with_reducible apply within_ite | split)
theorem within_sendMsgs (s : State) (l : Nat) (ms : List OutMsg) (hs : Within μ s₀ s) (hm : Sub 570429448 μ) :
    Within μ s₀ (sendMsgs s l ms) := by
  unfold sendMsgs
  repeat' (first
    | with_reducible assumption | exact subStep hm (by decide) | with_reducible apply within_pump | with_reducible apply within_modLink)
theorem within_sendMsg (s : State) (l : Nat) (header : List Byte) (data : List Byte) (hs : Within μ s₀ s) (hm : Sub 570429448 μ) :
    Within μ s₀ (sendMsg s l header data) := by
  unfold sendMsg
  repeat' (first
    | with_reducible assumption | with_reducible apply within_sendMsgs)
theorem within_sendRecord (s : State) (l : Nat) (r : LinkRecord) (hs : Within μ s₀ s) (hm : Sub 536870912 μ) :
    Within μ s₀ (sendRecord s l r) := by
  unfold sendRecord
  repeat' (first
    | with_reducible assumption | with_reducible apply within_sendFlit)
theorem within_sendAbort (s : State) (g : Nat) (epoch : Nat) (hs : Within μ s₀ s) (hm : Sub 570953736 μ) :
    Within μ s₀ (sendAbort s g epoch) := by
  unfold sendAbort
  repeat' (first
    | with_reducible assumption | exact subStep hm (by decide) | intro _ | with_reducible apply within_setGroup
    | with_reducible apply within_forEach | with_reducible apply within_sendMsg | with_reducible apply within_bump
    | with_reducible apply within_ite)
theorem within_writeArg (s : State) (f : Nat) (w : Word) (off : Nat) (b : List Byte) (hs : Within μ s₀ s) (hm : Sub 134222072 μ) :
    Within μ s₀ (writeArg s f w off b) := by
  unfold writeArg
  repeat' (first
    | with_reducible assumption | exact subStep hm (by decide) | with_reducible apply within_writeHost
    | with_reducible apply within_storeBytes | with_reducible apply within_ite)
theorem within_writeRecord (s : State) (q : Nat) (r : Record) (hs : Within μ s₀ s) (hm : Sub 671093240 μ) :
    Within μ s₀ (writeRecord s q r) := by
  unfold writeRecord
  repeat' (first
    | with_reducible assumption | exact subStep hm (by decide) | with_reducible apply within_writeArg
    | with_reducible apply within_setQueue | with_reducible apply within_raiseMsix | simp only [] | split)
theorem within_flushRecords (s : State) (q : Nat) (n : Nat) (hs : Within μ s₀ s) (hm : Sub 671093240 μ) :
    Within μ s₀ (flushRecords s q n) := by
  induction n generalizing s with
  | zero => exact hs
  | succ n ih =>
    unfold flushRecords
    dsimp only
    repeat' (first | exact subStep hm (by decide) | with_reducible assumption | intro _ | with_reducible apply ih | with_reducible apply within_writeRecord | with_reducible apply within_setQueue | with_reducible apply within_ite | split)
theorem within_flushQueue (s : State) (q : Nat) (hs : Within μ s₀ s) (hm : Sub 671093240 μ) : Within μ s₀ (flushQueue s q) := by
  unfold flushQueue
  repeat' (first
    | with_reducible assumption | with_reducible apply within_flushRecords)
theorem within_finishEntry (s : State) (q : Nat) (pos : Nat) (r : Record) (hs : Within μ s₀ s) (hm : Sub 671093240 μ) :
    Within μ s₀ (finishEntry s q pos r) := by
  unfold finishEntry
  repeat' (first
    | with_reducible assumption | exact subStep hm (by decide) | with_reducible apply within_flushQueue
    | with_reducible apply within_modQueue)
theorem within_bumpOpt (s : State) (f : Option RField) (sec : Nat) (n : Nat) (hs : Within μ s₀ s) (hm : Sub 8 μ) :
    Within μ s₀ (bumpOpt s f sec n) := by
  unfold bumpOpt
  repeat' (first
    | with_reducible assumption | with_reducible apply within_bump | split)
theorem within_stopSlot (s : State) (k : Nat) (i : Nat) (hs : Within μ s₀ s) (hm : Sub 6291464 μ) : Within μ s₀ (stopSlot s k i) := by
  unfold stopSlot
  repeat' (first
    | with_reducible assumption | exact subStep hm (by decide) | with_reducible apply within_setSlot | with_reducible apply within_setCore
    | with_reducible apply within_bump | with_reducible apply within_ite)
theorem within_stopCtxSlots (s : State) (c : Nat) (hs : Within μ s₀ s) (hm : Sub 6291464 μ) : Within μ s₀ (stopCtxSlots s c) := by
  unfold stopCtxSlots
  repeat' (first
    | with_reducible assumption | intro _ | with_reducible apply within_forEach | with_reducible apply within_stopSlot)
theorem within_markStopped (s : State) (p : Launch → Bool) (hs : Within μ s₀ s) (hm : Sub 2048 μ) : Within μ s₀ (markStopped s p) := by
  unfold markStopped
  repeat' (first
    | with_reducible assumption | (refine Agree.mk (fun a ha => ?_); cases a <;> first | exact noBit (by decide) hm ha | rfl)
    | (simp only [within_mk]; with_reducible refine withinMk ?_ ?_))
theorem within_stopQueueLaunches (s : State) (q : Nat) (hs : Within μ s₀ s) (hm : Sub 6293512 μ) : Within μ s₀ (stopQueueLaunches s q) := by
  unfold stopQueueLaunches
  repeat' (first
    | with_reducible assumption | exact subStep hm (by decide) | intro _ | with_reducible apply within_forEach
    | with_reducible apply within_stopSlot | with_reducible apply within_markStopped)
theorem within_stopQueue (s : State) (q : Nat) (hostRecords : Bool) (hs : Within μ s₀ s) (hm : Sub 677386744 μ) :
    Within μ s₀ (stopQueue s q hostRecords) := by
  unfold stopQueue
  repeat' (first
    | with_reducible assumption | exact subStep hm (by decide) | with_reducible apply within_setQueue
    | with_reducible apply within_stopQueueLaunches | with_reducible apply within_flushQueue | with_reducible apply within_bumpOpt
    | with_reducible apply within_ite)
theorem within_stopFnQueues (s : State) (f : Nat) (hostRecords : Bool) (hs : Within μ s₀ s) (hm : Sub 677386744 μ) :
    Within μ s₀ (stopFnQueues s f hostRecords) := by
  unfold stopFnQueues
  repeat' (first
    | with_reducible assumption | intro _ | with_reducible apply within_forEach | with_reducible apply within_stopQueue)
theorem within_abandonTallies (s : State) (c : Nat) (hs : Within μ s₀ s) (hm : Sub 16392 μ) : Within μ s₀ (abandonTallies s c) := by
  unfold abandonTallies
  repeat' (first
    | with_reducible assumption | exact subStep hm (by decide) | intro _ | with_reducible apply within_forEach
    | with_reducible apply within_modTally | with_reducible apply within_bump)
theorem within_stopContext (s : State) (c : Nat) (cause : Nat) (abort : Bool) (hs : Within μ s₀ s) (hm : Sub 711490040 μ) :
    Within μ s₀ (stopContext s c cause abort) := by
  unfold stopContext
  repeat' (first
    | with_reducible assumption | exact subStep hm (by decide) | intro _ | with_reducible apply within_abandonTallies
    | with_reducible apply within_sendAbort | with_reducible apply within_modCtx | with_reducible apply within_markStopped
    | with_reducible apply within_stopCtxSlots | with_reducible apply within_forEach | with_reducible apply within_stopQueue
    | with_reducible apply within_ite | split)
theorem within_stopPlanned (s : State) (c : Nat) (hostRecords : Bool) (hs : Within μ s₀ s) (hm : Sub 677394936 μ) :
    Within μ s₀ (stopPlanned s c hostRecords) := by
  unfold stopPlanned
  repeat' (first
    | with_reducible assumption | exact subStep hm (by decide) | intro _ | with_reducible apply within_modCtx
    | with_reducible apply within_markStopped | with_reducible apply within_stopCtxSlots | with_reducible apply within_forEach
    | with_reducible apply within_stopQueue | with_reducible apply within_ite)
theorem within_setFltLast (s : State) (level : Nat) (cause : Nat) (sec : Nat) (unit : Nat) (ctx : Nat) (part : Nat) (poison : Bool) (hs : Within μ s₀ s) (hm : Sub 8 μ) :
    Within μ s₀ (setFltLast s level cause sec unit ctx part poison) := by
  unfold setFltLast
  repeat' (first
    | with_reducible assumption | with_reducible apply within_setRaw | with_reducible apply within_ite)
theorem within_postAborted (s : State) (c : Nat) (epoch : Nat) (hs : Within μ s₀ s) (hm : Sub 136 μ) :
    Within μ s₀ (postAborted s c epoch) := by
  unfold postAborted
  repeat' (first
    | with_reducible assumption | exact subStep hm (by decide) | with_reducible apply within_postPart
    | with_reducible apply within_bump)
theorem within_abortCtx (s : State) (c : Nat) (epoch : Nat) (abort : Bool) (hs : Within μ s₀ s) (hm : Sub 711490040 μ) :
    Within μ s₀ (abortCtx s c epoch abort) := by
  unfold abortCtx
  repeat' (first
    | with_reducible assumption | exact subStep hm (by decide) | with_reducible apply within_stopContext
    | with_reducible apply within_postAborted | with_reducible apply within_ite)
theorem within_enterReset (s : State) (p : Nat) (after : PartMode) (hs : Within μ s₀ s) (hm : Sub 4096 μ) :
    Within μ s₀ (enterReset s p after) := by
  unfold enterReset
  repeat' (first
    | with_reducible assumption | with_reducible apply within_modPart)
theorem within_fenceModule (s : State) (reason : Nat) (hs : Within μ s₀ s) (hm : Sub 711490045 μ) : Within μ s₀ (fenceModule s reason) := by
  unfold fenceModule
  repeat' (first
    | with_reducible assumption | exact subStep hm (by decide) | (refine Agree.mk (fun a ha => ?_); cases a <;> first | exact noBit (by decide) hm ha | rfl)
    | intro _ | with_reducible apply within_forEach | with_reducible apply within_abortCtx | with_reducible apply within_enterReset
    | with_reducible apply within_setFld | with_reducible apply within_postTo | with_reducible apply within_ite
    | (simp only [within_mk]; with_reducible refine withinMk ?_ ?_))
theorem within_escalateCtx (s : State) (hs : Within μ s₀ s) (hm : Sub 711490045 μ) : Within μ s₀ (escalateCtx s) := by
  unfold escalateCtx
  repeat' (first
    | with_reducible assumption | (refine Agree.mk (fun a ha => ?_); cases a <;> first | exact noBit (by decide) hm ha | rfl)
    | with_reducible apply within_fenceModule | with_reducible apply within_ite | (simp only [within_mk]; with_reducible refine withinMk ?_ ?_))
theorem within_escalatePart (s : State) (hs : Within μ s₀ s) (hm : Sub 711490045 μ) : Within μ s₀ (escalatePart s) := by
  unfold escalatePart
  repeat' (first
    | with_reducible assumption | (refine Agree.mk (fun a ha => ?_); cases a <;> first | exact noBit (by decide) hm ha | rfl)
    | with_reducible apply within_fenceModule | with_reducible apply within_ite | (simp only [within_mk]; with_reducible refine withinMk ?_ ?_))
theorem within_ctxFault (s : State) (c : Nat) (cause : Nat) (sec : Nat) (unit : Nat) (poison : Bool) (hs : Within μ s₀ s) (hm : Sub 711490045 μ) :
    Within μ s₀ (ctxFault s c cause sec unit poison) := by
  unfold ctxFault
  repeat' (first
    | with_reducible assumption | exact subStep hm (by decide) | with_reducible apply within_setFltLast
    | with_reducible apply within_postPart | with_reducible apply within_stopContext | with_reducible apply within_escalateCtx
    | with_reducible apply within_ite)
theorem within_beginPartReset (s : State) (p : Nat) (sec : Nat) (after : PartMode) (hs : Within μ s₀ s) (hm : Sub 711490045 μ) :
    Within μ s₀ (beginPartReset s p sec after) := by
  unfold beginPartReset
  repeat' (first
    | with_reducible assumption | exact subStep hm (by decide) | intro _ | with_reducible apply within_enterReset
    | with_reducible apply within_forEach | with_reducible apply within_ctxFault)
theorem within_appendLog (s : State) (c : Nat) (g : Log) (kind : Nat) (source : Nat) (addr : Nat) (len : Nat) (crc : Word32) (tally : Nat) (data : List Byte) (hs : Within μ s₀ s) (hm : Sub 134230200 μ) :
    Within μ s₀ (appendLog s c g kind source addr len crc tally data) := by
  unfold appendLog
  repeat' (first
    | with_reducible assumption | exact subStep hm (by decide) | with_reducible apply within_modCtx | with_reducible apply within_bump
    | with_reducible apply within_storeBytes | with_reducible apply within_ite)
theorem within_recordInput (s : State) (c : Nat) (kind : Nat) (source : Nat) (addr : Nat) (data : List Byte) (tally : Nat) (hs : Within μ s₀ s) (hm : Sub 134230200 μ) :
    Within μ s₀ (recordInput s c kind source addr data tally) := by
  unfold recordInput
  repeat' (first
    | with_reducible assumption | with_reducible apply within_appendLog | with_reducible apply within_ite
    | split)
theorem within_dropLive (s : State) (c : Nat) (hs : Within μ s₀ s) (hm : Sub 8 μ) : Within μ s₀ (dropLive s c) := by
  unfold dropLive
  repeat' (first
    | with_reducible assumption | with_reducible apply within_bump)
theorem within_diverge (s : State) (p : Nat) (seq : Nat) (bits : Bool) (timing : Bool) (hs : Within μ s₀ s) (hm : Sub 8 μ) :
    Within μ s₀ (diverge s p seq bits timing) := by
  unfold diverge
  repeat' (first
    | with_reducible assumption | with_reducible apply within_setFld | with_reducible apply within_setRaw
    | with_reducible apply within_ite)
theorem within_markCompare (s : State) (p : Nat) (g : Log) (m : Mark) (n : Nat) (digest : Word32) (hs : Within μ s₀ s) (hm : Sub 8 μ) :
    Within μ s₀ (markCompare s p g m n digest) := by
  unfold markCompare
  repeat' (first
    | with_reducible assumption | with_reducible apply within_diverge | with_reducible apply within_ite
    | simp only [] | split)
theorem within_markAdd (s : State) (c : Nat) (m : Mark) (hs : Within μ s₀ s) (hm : Sub 1785231869 μ) : Within μ s₀ (markAdd s c m) := by
  unfold markAdd
  repeat' (first
    | with_reducible assumption | exact subStep hm (by decide) | with_reducible apply within_modCtx | with_reducible apply within_readMem
    | with_reducible apply within_ctxFault | with_reducible apply within_freeDraw | with_reducible apply within_addCause
    | with_reducible apply within_markCompare | with_reducible apply within_appendLog | with_reducible apply within_ite
    | simp only [] | split)
theorem within_markTally (s : State) (t : Nat) (hs : Within μ s₀ s) (hm : Sub 1785231869 μ) : Within μ s₀ (markTally s t) := by
  unfold markTally
  repeat' (first
    | with_reducible assumption | intro _ | with_reducible apply within_forEach | with_reducible apply within_markAdd)
theorem within_endExternal (s : State) (t : Nat) (hs : Within μ s₀ s) (hm : Sub 4096 μ) : Within μ s₀ (endExternal s t) := by
  unfold endExternal
  repeat' (first
    | with_reducible assumption | with_reducible apply within_dropCauses)
theorem within_tallyAddOp (s : State) (t : Nat) (amount : Nat) (hs : Within μ s₀ s) (hm : Sub 1785231869 μ) :
    Within μ s₀ (tallyAddOp s t amount) := by
  unfold tallyAddOp
  repeat' (first
    | with_reducible assumption | exact subStep hm (by decide) | with_reducible apply within_bump | with_reducible apply within_ctxFault
    | with_reducible apply within_markTally | with_reducible apply within_endExternal | with_reducible apply within_modTally
    | with_reducible apply within_ite)
theorem within_signalAll (s : State) (b : List Byte) (hs : Within μ s₀ s) (hm : Sub 1785231869 μ) : Within μ s₀ (signalAll s b).1 := by
  unfold signalAll
  repeat' (first
    | with_reducible assumption | intro _ | with_reducible apply within_tallyAddOp | with_reducible apply within_foldlFst
    | split)
theorem within_signalTally (s : State) (t : Nat) (amount : Nat) (hs : Within μ s₀ s) (hm : Sub 1785231869 μ) :
    Within μ s₀ (signalTally s t amount) := by
  unfold signalTally
  repeat' (first
    | with_reducible assumption | with_reducible apply within_tallyAddOp | with_reducible apply within_ite)
theorem within_applyDeltas (s : State) (p : Nat) (l : List (Nat × CounterDelta)) (hs : Within μ s₀ s) (hm : Sub 65536 μ) :
    Within μ s₀ (applyDeltas s p l) := by
  unfold applyDeltas
  repeat' (first
    | with_reducible assumption | intro _ | with_reducible apply within_forEach | with_reducible apply within_modTensor)
theorem within_addNf (s : State) (c : Nat) (n : Nat) (hs : Within μ s₀ s) (hm : Sub 8192 μ) : Within μ s₀ (addNf s c n) := by
  unfold addNf
  repeat' (first
    | with_reducible assumption | with_reducible apply within_modCtx)
theorem within_poisonTensors (s : State) (p : Nat) (ids : List Nat) (hs : Within μ s₀ s) (hm : Sub 65536 μ) :
    Within μ s₀ (poisonTensors s p ids) := by
  unfold poisonTensors
  repeat' (first
    | with_reducible assumption | intro _ | with_reducible apply within_forEach | with_reducible apply within_modTensor
    | with_reducible apply within_ite)
theorem within_partialWrites (s : State) (l : List Cell) (hs : Within μ s₀ s) (hm : Sub 1073741840 μ) :
    Within μ s₀ (partialWrites s l) := by
  unfold partialWrites
  repeat' (first
    | with_reducible assumption | exact subStep hm (by decide) | intro _ | with_reducible apply within_freeDraw
    | with_reducible apply within_writeBytes | with_reducible apply within_foldl | with_reducible apply within_ite)

end Sys2Proof.Machine
end

