-- ==== Sys2Proof/Laws/Bytes.lean ====
section
/-! SUPPORT. What the accesses to memory leave of its bytes: a read and a passage through the cache directories change no byte; a store
changes the bytes it stores and no other. -/

namespace Sys2Proof.Machine

/-- What does not change memory leaves its bytes. -/
theorem bytes_of_memory {s t : State} (h : Area.memory.same s t) : t.mem.bytes = s.mem.bytes := (Prod.mk.inj h).1

theorem bytes_bump (s : State) (f : RField) (i j n : Nat) : (s.bump f i j n).mem.bytes = s.mem.bytes :=
  bytes_of_memory ((within_bump _ _ _ _ _ (Within.refl _) (Nat.and_self _)).same .memory (by decide))
theorem bytes_noteLoam (s : State) (sec off : Nat) (e : WordError) : (noteLoam s sec off e).mem.bytes = s.mem.bytes :=
  bytes_of_memory ((within_noteLoam _ _ _ _ (Within.refl _) (Nat.and_self _)).same .memory (by decide))
theorem bytes_noteHbm (s : State) (g off : Nat) (e : WordError) : (noteHbm s g off e).mem.bytes = s.mem.bytes :=
  bytes_of_memory ((within_noteHbm _ _ _ _ (Within.refl _) (Nat.and_self _)).same .memory (by decide))
theorem bytes_addCause (s : State) (p f k : Nat) (l : Option Nat) : (addCause s p f k l).mem.bytes = s.mem.bytes :=
  bytes_of_memory ((within_addCause _ _ _ _ _ (Within.refl _) (Nat.and_self _)).same .memory (by decide))

/-- A fold of steps that keep the bytes keeps them. -/
theorem bytes_foldl {α : Type} (l : List α) (g : State → α → State) (h : ∀ t a, (g t a).mem.bytes = t.mem.bytes) (s : State) :
    (l.foldl g s).mem.bytes = s.mem.bytes := by
  induction l generalizing s with
  | nil => rfl
  | cons a t ih => exact (ih _).trans (h _ _)

theorem bytes_noteKey (s : State) (k : Nat) (e : WordError) : (noteKey s k e).mem.bytes = s.mem.bytes := by
  have h : (match placeOf s k with
    | .loam sec off => (noteLoam s sec off e, 12)
    | .hbm g off => (noteHbm s g off e, 96) : State × Nat).1.mem.bytes = s.mem.bytes := by
    cases placeOf s k
    · exact bytes_noteLoam _ _ _ _
    · exact bytes_noteHbm _ _ _ _
  unfold noteKey
  cases e
  · dsimp only
    split
    · exact (bytes_addCause _ _ _ _ _).trans h
    · exact h
  · exact h
  · exact h

/-- Counting and recording errors changes no byte (R56). -/
theorem bytes_noteErrors (s : State) (es : List (Nat × Nat × WordError)) : (noteErrors s es).mem.bytes = s.mem.bytes :=
  bytes_foldl es _ (fun t e => bytes_noteKey t e.2.1 e.2.2) s
theorem bytes_poisonKeys {α : Type} (l : List α) (g : α → Nat) (s : State) :
    (l.foldl (fun u e => poisonKey u (g e)) s).mem.bytes = s.mem.bytes := bytes_foldl l (fun u e => poisonKey u (g e)) (fun _ _ => rfl) s
theorem bytes_readCheck (s : State) (a n : Nat) : (readCheck s a n).1.mem.bytes = s.mem.bytes := bytes_noteErrors _ _
theorem bytes_cacheVictim (s : State) (sec set : Nat) : (cacheVictim s sec set).1.mem.bytes = s.mem.bytes := by
  unfold cacheVictim
  dsimp only
  split
  · rfl
  · refine bytes_foldl _ _ (fun t w => ?_) s
    rfl
theorem bytes_writeBackLine (s : State) (ck : Nat) : (writeBackLine s ck).mem.bytes = s.mem.bytes := by
  unfold writeBackLine
  rw [bytes_bump, bytes_poisonKeys]
  exact bytes_noteErrors _ _
theorem bytes_evictLine (s : State) (ck : Nat) : (evictLine s ck).mem.bytes = s.mem.bytes := by
  unfold evictLine
  dsimp only
  split
  · exact bytes_writeBackLine _ _
  · rfl
theorem bytes_fillLine (s : State) (ck : Nat) : (fillLine s ck).1.mem.bytes = s.mem.bytes := by
  unfold fillLine
  rw [bytes_poisonKeys, bytes_bump]
  exact bytes_noteErrors _ _
theorem bytes_cacheAccess (s : State) (sec u line : Nat) (use : CacheUse) : (cacheAccess s sec u line use).1.mem.bytes = s.mem.bytes := by
  unfold cacheAccess
  split
  · rfl
  · dsimp only
    split
    · exact bytes_bump _ _ _ _ _
    · split
      · exact bytes_bump _ _ _ _ _
      · split
        · exact (bytes_evictLine _ _).trans ((bytes_cacheVictim _ _ _).trans (bytes_bump _ _ _ _ _))
        · exact (bytes_fillLine _ _).trans ((bytes_evictLine _ _).trans ((bytes_cacheVictim _ _ _).trans (bytes_bump _ _ _ _ _)))

/-- A passage through the directories changes no byte (R45). -/
theorem bytes_throughCache (s : State) (a n : Nat) (engine : Bool) : (throughCache s a n engine).mem.bytes = s.mem.bytes := by
  unfold throughCache
  split
  · rfl
  · exact bytes_foldl _ _ (fun _ _ => bytes_cacheAccess _ _ _ _ _) s
theorem bytes_readLine (s : State) (a n l : Nat) : (readLine s a n l).1.mem.bytes = s.mem.bytes := by
  unfold readLine
  dsimp only
  split
  · exact (bytes_readCheck _ _ _).trans (bytes_cacheAccess _ _ _ _ _)
  · exact bytes_cacheAccess _ _ _ _ _

/-- A fold that carries a state and a list keeps the bytes if its steps do. -/
theorem bytes_foldl_fst {α β : Type} (l : List α) (g : State × β → α → State × β) (h : ∀ r a, (g r a).1.mem.bytes = r.1.mem.bytes)
    (r : State × β) : (l.foldl g r).1.mem.bytes = r.1.mem.bytes := by
  induction l generalizing r with
  | nil => rfl
  | cons a t ih => exact (ih _).trans (h _ _)

/-- A read changes no byte (R45, R56). -/
theorem bytes_readMem (s : State) (a n : Nat) : (readMem s a n).1.mem.bytes = s.mem.bytes := by
  unfold readMem
  split
  · exact bytes_readCheck _ _ _
  · refine bytes_foldl_fst _ _ (fun r l => ?_) (s, [])
    exact bytes_readLine _ _ _ _
theorem bytes_readAll (s : State) (rs : List (Nat × Nat)) : (readAll s rs).1.mem.bytes = s.mem.bytes := by
  refine bytes_foldl_fst _ _ (fun r l => ?_) (s, [])
  exact bytes_readMem _ _ _

/-- Reading a command's structures changes no byte (R56). -/
theorem bytes_meetArgs (s : State) (l : List (Word × Nat)) : (meetArgs s l).mem.bytes = s.mem.bytes := bytes_readAll _ _
theorem bytes_flushSection (s : State) (sec : Nat) : (flushSection s sec).mem.bytes = s.mem.bytes :=
  bytes_foldl _ _ (fun _ _ => bytes_evictLine _ _) s

/-- A flush changes no byte (R49). -/
theorem bytes_flushPart (s : State) (p : Nat) : (flushPart s p).1.mem.bytes = s.mem.bytes :=
  bytes_foldl _ _ (fun _ _ => bytes_flushSection _ _) s

/-- A store puts its bytes where they go (R45). -/
theorem bytes_storeBytes (s : State) (a : Nat) (l : List Byte) : (storeBytes s a l).mem.bytes = putBytes s.mem.bytes a l := by
  unfold storeBytes
  cases l with
  | nil => rfl
  | cons b l =>
    simp only [List.isEmpty_cons, Bool.false_eq_true, if_false]
    refine (bytes_foldl _ (fun t (e : Nat × Bool) => poisonWord t e.1) (fun _ _ => rfl) _).trans ?_
    have h := bytes_foldl_fst (partWords a (b :: l).length)
      (fun (r : State × List (Nat × Bool)) w => ((readCheck r.1 w 16).1, r.2 ++ (readCheck r.1 w 16).2))
      (fun _ _ => bytes_readCheck _ _ _) (throughCache s a (b :: l).length false, [])
    exact congrArg (fun t => putBytes t a (b :: l)) (h.trans (bytes_throughCache _ _ _ _))

/-- Host memory is not touched by a store in device memory. -/
theorem hostByte_storeBytes (s : State) (a : Nat) (l : List Byte) (k : Nat) : hostByte (storeBytes s a l) k = hostByte s k := by
  unfold hostByte
  rw [show (storeBytes s a l).hostMem = s.hostMem from
    (within_storeBytes _ _ _ (Within.refl _) (Nat.and_self _)).same .hostMemory (by decide)]

/-- Bytes that were put read back. -/
theorem readBack_putBytes (t : List Cell) (a : Nat) (l : List Byte) :
    (upTo l.length).map (fun i => tabGet 0 (putBytes t a l) (a + i)) = l := by
  apply List.ext_getElem
  · simp [upTo]
  · intro i h1 h2
    simp only [upTo, List.getElem_map, List.getElem_range, tabGet_putBytes]
    rw [if_pos ⟨by omega, by omega⟩]
    simp [List.getD_eq_getElem?_getD, h2]

/-- A store writes the bytes it is given at its address, and no other byte of device memory or of host memory. -/
theorem storedAt_storeBytes (s : State) (a : Nat) (l : List Byte) : StoredAt s (storeBytes s a l) a l := by
  refine ⟨?_, fun k hk => ?_, fun k => hostByte_storeBytes _ _ _ _⟩
  · simp only [readBytes, memByte, bytes_storeBytes]
    exact readBack_putBytes _ _ _
  · simp only [memByte, bytes_storeBytes, tabGet_putBytes]
    rw [if_neg (by omega)]

/-- An address argument that may be written is written (R365). -/
theorem writeArg_wrote (s : State) (f : Nat) (w : Word) (l : List Byte) (h : isHostAddr w = true → (s.fn f).busMaster = true)
    (hd : isHostAddr w = false → argOk s f (argAddr w) l.length true = true) : Wrote s (writeArg s f w 0 l) w l := by
  unfold Wrote writeArg readArg
  cases hw : isHostAddr w
  · simp only [Bool.false_eq_true, if_false, Nat.add_zero, hd hw, if_true]
    obtain ⟨h1, h2, h3⟩ := storedAt_storeBytes s (argAddr w) l
    exact ⟨h1, fun a ha => h2 a (by rcases ha with h | h | h <;> first | omega | simp at h), fun a _ => h3 a⟩
  · simp only [if_true, h hw, Nat.add_zero]
    refine ⟨readBack_putBytes _ _ _, fun a _ => rfl, fun a ha => ?_⟩
    simp only [hostByte, writeHost, tabGet_putBytes]
    rw [if_neg (by rcases ha with h | h | h <;> first | omega | simp at h)]

end Sys2Proof.Machine
end

