-- ==== Sys2Proof/Laws/WithinUnits.lean ====
section
/-! SUPPORT. Engines, links, holds, what Caoco commands share, transmits, operands, self-tests, tiles and launches: the areas they may change. -/

set_option maxRecDepth 4000
set_option linter.unusedSimpArgs false
set_option linter.unusedVariables false

namespace Sys2Proof.Machine

variable {μ : Nat} {s₀ : State}

/-! ### Engines -/

theorem within_startEntry (s : State) (q : Nat) (pos : Nat) (hs : Within μ s₀ s) (hm : Sub 256 μ) : Within μ s₀ (startEntry s q pos) := by
  unfold startEntry
  repeat' (first
    | with_reducible assumption | with_reducible apply within_modQueue)
theorem within_countArb (s : State) (kind : Nat) (unit : Nat) (q : Nat) (hs : Within μ s₀ s) (hm : Sub 8 μ) :
    Within μ s₀ (countArb s kind unit q) := by
  unfold countArb
  repeat' (first
    | with_reducible assumption | with_reducible apply within_bump | with_reducible apply within_ite | simp only []
    | split)
theorem within_takeDesc (s : State) (kind : Nat) (unit : Nat) (hs : Within μ s₀ s) (hm : Sub 679481848 μ) :
    Within μ s₀ (takeDesc s kind unit).1 := by
  unfold takeDesc
  repeat' (first
    | with_reducible assumption | exact subStep hm (by decide) | with_reducible apply within_countArb
    | with_reducible apply within_modEngine | with_reducible apply within_bumpOpt | with_reducible apply within_finishEntry
    | with_reducible apply within_startEntry | simp only [] | split)
theorem within_putJob (s : State) (kind : Nat) (unit : Nat) (j : Job) (hs : Within μ s₀ s) (hm : Sub 8388608 μ) :
    Within μ s₀ (putJob s kind unit j) := by
  unfold putJob
  repeat' (first
    | with_reducible assumption | with_reducible apply within_modEngine)
theorem within_freeEngine (s : State) (kind : Nat) (unit : Nat) (hs : Within μ s₀ s) (hm : Sub 8388608 μ) :
    Within μ s₀ (freeEngine s kind unit) := by
  unfold freeEngine
  repeat' (first
    | with_reducible assumption | with_reducible apply within_modEngine)
theorem within_endStopped (s : State) (kind : Nat) (unit : Nat) (j : Job) (hs : Within μ s₀ s) (hm : Sub 679481848 μ) :
    Within μ s₀ (endStopped s kind unit j) := by
  unfold endStopped
  repeat' (first
    | with_reducible assumption | exact subStep hm (by decide) | with_reducible apply within_freeEngine
    | with_reducible apply within_modQueue | with_reducible apply within_finishEntry)
theorem within_endFault (s : State) (kind : Nat) (unit : Nat) (j : Job) (cause : Nat) (poison : Bool) (hs : Within μ s₀ s) (hm : Sub 719878653 μ) :
    Within μ s₀ (endFault s kind unit j cause poison) := by
  unfold endFault
  repeat' (first
    | with_reducible assumption | exact subStep hm (by decide) | with_reducible apply within_freeEngine
    | with_reducible apply within_modEngine | with_reducible apply within_finishEntry | with_reducible apply within_ctxFault)
theorem within_endCounted (s : State) (kind : Nat) (unit : Nat) (j : Job) (count : State → State) (hs : Within μ s₀ s) (hcount : ∀ t, Within μ s₀ t → Within μ s₀ (count t)) (hm : Sub 1793620477 μ) :
    Within μ s₀ (endCounted s kind unit j count) := by
  unfold endCounted
  repeat' (first
    | with_reducible assumption | exact subStep hm (by decide) | with_reducible apply within_signalAll
    | with_reducible apply within_freeEngine | with_reducible apply within_endFault | with_reducible apply within_finishEntry
    | with_reducible apply hcount | with_reducible apply within_ite)
theorem within_endDone (s : State) (kind unit : Nat) (j : Job) (hs : Within μ s₀ s) (hm : Sub 1793620477 μ) :
    Within μ s₀ (endDone s kind unit j) := by
  exact within_endCounted _ _ _ _ _ hs (fun _ h => h) (subStep hm (by decide))
theorem within_engineWatchdog (s : State) (kind : Nat) (unit : Nat) (j : Job) (hs : Within μ s₀ s) (hm : Sub 719878653 μ) :
    Within μ s₀ (engineWatchdog s kind unit j) := by
  unfold engineWatchdog
  repeat' (first
    | with_reducible assumption | exact subStep hm (by decide) | with_reducible apply within_endFault
    | with_reducible apply within_healthEvent | with_reducible apply within_bump)
theorem within_crcFailed (s : State) (a : Nat) (hs : Within μ s₀ s) (hm : Sub 134217864 μ) : Within μ s₀ (crcFailed s a) := by
  unfold crcFailed
  repeat' (first
    | with_reducible assumption | exact subStep hm (by decide) | with_reducible apply within_bump | with_reducible apply within_setRaw
    | with_reducible apply within_healthEvent)
theorem within_crcCleared (s : State) (a : Nat) (hs : Within μ s₀ s) (hm : Sub 134217864 μ) : Within μ s₀ (crcCleared s a) := by
  unfold crcCleared
  repeat' (first
    | with_reducible assumption | exact subStep hm (by decide) | with_reducible apply within_healthEvent
    | with_reducible apply within_bump)
theorem within_mvStoreCrcs (s : State) (j : Job) (hs : Within μ s₀ s) (hm : Sub 134222008 μ) : Within μ s₀ (mvStoreCrcs s j) := by
  unfold mvStoreCrcs
  repeat' (first
    | with_reducible assumption | intro _ | with_reducible apply within_forEach | with_reducible apply within_storeBytes)
theorem within_mvRun (s : State) (m : Nat) (j : Job) (k : Nat) (pathError : Bool) (hs : Within μ s₀ s) (hm : Sub 142610616 μ) :
    Within μ s₀ (mvRun s m j k pathError) := by
  unfold mvRun
  repeat' (first
    | with_reducible assumption | exact subStep hm (by decide) | with_reducible apply within_addCause
    | with_reducible apply within_putJob | with_reducible apply within_writeMem | with_reducible apply within_mvStoreCrcs
    | with_reducible apply within_bump | with_reducible apply within_ite | simp only [] | split)
theorem within_mvSpoil (s : State) (b : List Byte) (bad : List (Nat × Bool)) (hs : Within μ s₀ s) (hm : Sub 1073741840 μ) :
    Within μ s₀ (mvSpoil s b bad) := by
  unfold mvSpoil
  repeat' (first
    | with_reducible assumption | exact subStep hm (by decide) | intro _ | with_reducible apply within_partialWrites
    | with_reducible apply within_forEach | with_reducible apply within_poisonWord | with_reducible apply within_ite)
theorem within_moverTransferOp (m : Nat) (pathError : Bool) (s : State) (hs : Within μ s₀ s) (hm : Sub 1793620477 μ) :
    Within μ s₀ (moverTransferOp m pathError s) := by
  unfold moverTransferOp
  repeat' (first
    | with_reducible assumption | exact subStep hm (by decide) | with_reducible apply within_takeDesc
    | with_reducible apply within_endFault | with_reducible apply within_readAll | with_reducible apply within_mvSpoil
    | with_reducible apply within_mvRun | with_reducible apply within_ite | (with_reducible refine within_fst (by with_reducible assumption) ?_)
    | simp only [] | split)
theorem within_execMoverTransfer (m : MoverId) (hits : List Hit) (pathError : Bool) (s : State) (hs : Within μ s₀ s) (hm : Sub 1793620477 μ) :
    WithinNext μ s₀ (execMoverTransfer m hits pathError s) := by
  unfold execMoverTransfer
  repeat' (first
    | with_reducible assumption | exact subStep hm (by decide) | with_reducible apply withinNext_next
    | with_reducible apply within_moverTransferOp | with_reducible apply within_upsetWords)
theorem within_execMoverComplete (m : MoverId) (s : State) (hs : Within μ s₀ s) (hm : Sub 1793620477 μ) :
    WithinNext μ s₀ (execMoverComplete m s) := by
  unfold execMoverComplete
  repeat' (first
    | with_reducible assumption | with_reducible apply withinNext_next | with_reducible apply within_endDone
    | with_reducible apply within_ite | split)
theorem within_moverReread (m : Nat) (pathError : Bool) (s : State) (hs : Within μ s₀ s) (hm : Sub 1793620477 μ) :
    Within μ s₀ (moverReread m pathError s) := by
  unfold moverReread
  repeat' (first
    | with_reducible assumption | exact subStep hm (by decide) | with_reducible apply within_dropCauses
    | with_reducible apply within_crcCleared | with_reducible apply within_endStopped | with_reducible apply within_mvRun
    | with_reducible apply within_partialWrites | with_reducible apply within_endFault | with_reducible apply within_crcFailed
    | with_reducible apply within_ite | simp only [] | split)
theorem within_execMoverWatchdog (m : MoverId) (s : State) (hs : Within μ s₀ s) (hm : Sub 1793620477 μ) :
    WithinNext μ s₀ (execMoverWatchdog m s) := by
  unfold execMoverWatchdog
  repeat' (first
    | with_reducible assumption | exact subStep hm (by decide) | with_reducible apply withinNext_next
    | with_reducible apply within_engineWatchdog | with_reducible apply within_partialWrites | with_reducible apply within_ite
    | split)
/-! ### LinkBase -/

theorem within_setLinkState (s : State) (l : Nat) (v : Nat) (hs : Within μ s₀ s) (hm : Sub 8 μ) : Within μ s₀ (setLinkState s l v) := by
  unfold setLinkState
  repeat' (first
    | with_reducible assumption | with_reducible apply within_setFld)
theorem within_sendKind (s : State) (l : Nat) (kind : Nat) (hs : Within μ s₀ s) (hm : Sub 536870912 μ) :
    Within μ s₀ (sendKind s l kind) := by
  unfold sendKind
  repeat' (first
    | with_reducible assumption | with_reducible apply within_sendRecord)
theorem within_goDown (s : State) (l : Nat) (hs : Within μ s₀ s) (hm : Sub 33554440 μ) : Within μ s₀ (goDown s l) := by
  unfold goDown
  repeat' (first
    | with_reducible assumption | exact subStep hm (by decide) | with_reducible apply within_setLinkState
    | with_reducible apply within_setFld | with_reducible apply within_modLink)
theorem within_lowerRate (s : State) (l : Nat) (hs : Within μ s₀ s) (hm : Sub 33554440 μ) : Within μ s₀ (lowerRate s l) := by
  unfold lowerRate
  repeat' (first
    | with_reducible assumption | exact subStep hm (by decide) | with_reducible apply within_setFld | with_reducible apply within_modLink)
theorem within_startRetrain (s : State) (l : Nat) (hs : Within μ s₀ s) (hm : Sub 167772296 μ) : Within μ s₀ (startRetrain s l) := by
  unfold startRetrain
  repeat' (first
    | with_reducible assumption | exact subStep hm (by decide) | with_reducible apply within_setLinkState
    | with_reducible apply within_modLink | with_reducible apply within_healthEvent | with_reducible apply within_bump)
theorem within_dropUnsent (s : State) (l : Nat) (hs : Within μ s₀ s) (hm : Sub 570429448 μ) : Within μ s₀ (dropUnsent s l) := by
  unfold dropUnsent
  repeat' (first
    | with_reducible assumption | exact subStep hm (by decide) | with_reducible apply within_pump | with_reducible apply within_modLink)
theorem within_bufferFault (s : State) (l : Nat) (hs : Within μ s₀ s) (hm : Sub 719878653 μ) : Within μ s₀ (bufferFault s l) := by
  unfold bufferFault
  repeat' (first
    | with_reducible assumption | exact subStep hm (by decide) | with_reducible apply within_modLink | with_reducible apply within_endFault
    | with_reducible apply within_dropUnsent | with_reducible apply within_ctxFault | with_reducible apply within_startRetrain
    | with_reducible apply within_ite | split)
theorem within_resendFrom (s : State) (l : Nat) (ack : Nat) (hs : Within μ s₀ s) (hm : Sub 719878653 μ) :
    Within μ s₀ (resendFrom s l ack) := by
  unfold resendFrom
  repeat' (first
    | with_reducible assumption | exact subStep hm (by decide) | intro _ | with_reducible apply within_bufferFault
    | with_reducible apply within_bump | with_reducible apply within_forEach | with_reducible apply within_sendFlit
    | with_reducible apply within_ite)
theorem within_goUp (s : State) (l : Nat) (hs : Within μ s₀ s) (hm : Sub 719878653 μ) : Within μ s₀ (goUp s l) := by
  unfold goUp
  repeat' (first
    | with_reducible assumption | exact subStep hm (by decide) | with_reducible apply within_setLinkState
    | with_reducible apply within_modLink | with_reducible apply within_pump | with_reducible apply within_resendFrom)
theorem within_retryHold (s : State) (l : Nat) (hs : Within μ s₀ s) (hm : Sub 4096 μ) : Within μ s₀ (retryHold s l) := by
  unfold retryHold
  repeat' (first
    | with_reducible assumption | with_reducible apply within_addCause | split)
theorem within_countNak (s : State) (l : Nat) (hs : Within μ s₀ s) (hm : Sub 167776392 μ) : Within μ s₀ (countNak s l) := by
  unfold countNak
  repeat' (first
    | with_reducible assumption | exact subStep hm (by decide) | with_reducible apply within_bump | with_reducible apply within_retryHold
    | with_reducible apply within_modLink | with_reducible apply within_startRetrain | with_reducible apply within_ite)
theorem within_fenceLink (s : State) (l : Nat) (cause : Nat) (hs : Within μ s₀ s) (hm : Sub 570425480 μ) :
    Within μ s₀ (fenceLink s l cause) := by
  unfold fenceLink
  repeat' (first
    | with_reducible assumption | exact subStep hm (by decide) | with_reducible apply within_setLinkState
    | with_reducible apply within_setFld | with_reducible apply within_modLink | with_reducible apply within_sendKind
    | with_reducible apply within_postBoth)
theorem within_hostileEvent (s : State) (l : Nat) (f : RField) (hs : Within μ s₀ s) (hm : Sub 570425480 μ) :
    Within μ s₀ (hostileEvent s l f) := by
  unfold hostileEvent
  repeat' (first
    | with_reducible assumption | exact subStep hm (by decide) | with_reducible apply within_bump | with_reducible apply within_modLink
    | with_reducible apply within_fenceLink | with_reducible apply within_ite)
theorem within_trained (s : State) (l : Nat) (hs : Within μ s₀ s) (hm : Sub 704643208 μ) : Within μ s₀ (trained s l) := by
  unfold trained
  repeat' (first
    | with_reducible assumption | exact subStep hm (by decide) | intro _ | with_reducible apply within_withHealth
    | with_reducible apply within_setLinkState | with_reducible apply within_setFld | with_reducible apply within_modLink
    | with_reducible apply within_healthEvent | with_reducible apply within_sendKind | with_reducible apply within_ite)
theorem within_useLanes (s : State) (l : Nat) (lanes : Nat) (hs : Within μ s₀ s) (hm : Sub 719878653 μ) :
    Within μ s₀ (useLanes s l lanes) := by
  unfold useLanes
  repeat' (first
    | with_reducible assumption | exact subStep hm (by decide) | intro _ | with_reducible apply within_withHealth
    | with_reducible apply within_modLink | with_reducible apply within_goDown | with_reducible apply within_setFld
    | with_reducible apply within_resendFrom | with_reducible apply within_ite)
theorem within_linkLoopWrite (s : State) (l : Nat) (value : Word) (hs : Within μ s₀ s) (hm : Sub 33554440 μ) :
    Within μ s₀ (linkLoopWrite s l value) := by
  unfold linkLoopWrite
  repeat' (first
    | with_reducible assumption | exact subStep hm (by decide) | with_reducible apply within_setFld | with_reducible apply within_goDown
    | with_reducible apply within_setLinkState | with_reducible apply within_ite)
theorem within_linkLoopHigh (s : State) (l : Nat) (hs : Within μ s₀ s) (hm : Sub 8 μ) : Within μ s₀ (linkLoopHigh s l) := by
  unfold linkLoopHigh
  repeat' (first
    | with_reducible assumption | with_reducible apply within_setFld | with_reducible apply within_ite)
theorem within_sendNotice (s : State) (l : Nat) (g : Nat) (hs : Within μ s₀ s) (hm : Sub 570953736 μ) : Within μ s₀ (sendNotice s l g) := by
  unfold sendNotice
  repeat' (first
    | with_reducible assumption | exact subStep hm (by decide) | with_reducible apply within_sendMsg | with_reducible apply within_setGroup
    | with_reducible apply within_ite)
theorem within_dropExcluded (s : State) (g : Nat) (l : Nat) (hs : Within μ s₀ s) (hm : Sub 713036280 μ) :
    Within μ s₀ (dropExcluded s g l) := by
  unfold dropExcluded
  repeat' (first
    | with_reducible assumption | exact subStep hm (by decide) | with_reducible apply within_pump | with_reducible apply within_modLink
    | with_reducible apply within_endStopped | with_reducible apply within_ite | simp only [] | split)
theorem within_abortGroup (s : State) (g : Nat) (epoch : Nat) (hs : Within μ s₀ s) (hm : Sub 711490040 μ) :
    Within μ s₀ (abortGroup s g epoch) := by
  unfold abortGroup
  repeat' (first
    | with_reducible assumption | intro _ | with_reducible apply within_forEach | with_reducible apply within_abortCtx)
/-! ### Hold -/

theorem within_holdStartOp (p : Nat) (s : State) (hs : Within μ s₀ s) (hm : Sub 4096 μ) : Within μ s₀ (holdStartOp p s) := by
  unfold holdStartOp
  repeat' (first
    | with_reducible assumption | with_reducible apply within_modPart | with_reducible apply within_ite)
theorem within_execHoldStart (p : PartId) (s : State) (hs : Within μ s₀ s) (hm : Sub 4096 μ) : WithinNext μ s₀ (execHoldStart p s) := by
  unfold execHoldStart
  repeat' (first
    | with_reducible assumption | with_reducible apply withinNext_next | with_reducible apply within_holdStartOp)
theorem within_holdEndOp (p : Nat) (s : State) (hs : Within μ s₀ s) (hm : Sub 4104 μ) : Within μ s₀ (holdEndOp p s) := by
  unfold holdEndOp
  repeat' (first
    | with_reducible assumption | exact subStep hm (by decide) | intro _ | with_reducible apply within_bump
    | with_reducible apply within_forEach | with_reducible apply within_modPart | with_reducible apply within_ite)
theorem within_execHoldEnd (p : PartId) (s : State) (hs : Within μ s₀ s) (hm : Sub 4104 μ) : WithinNext μ s₀ (execHoldEnd p s) := by
  unfold execHoldEnd
  repeat' (first
    | with_reducible assumption | with_reducible apply withinNext_next | with_reducible apply within_holdEndOp)
theorem within_holdLimitOp (p : Nat) (field : Nat) (s : State) (hs : Within μ s₀ s) (hm : Sub 136 μ) :
    Within μ s₀ (holdLimitOp p field s) := by
  unfold holdLimitOp
  repeat' (first
    | with_reducible assumption | exact subStep hm (by decide) | with_reducible apply within_postPart
    | with_reducible apply within_bump | with_reducible apply within_ite)
theorem within_execHoldLimitReport (p : PartId) (cause : Fin 7) (s : State) (hs : Within μ s₀ s) (hm : Sub 136 μ) :
    WithinNext μ s₀ (execHoldLimitReport p cause s) := by
  unfold execHoldLimitReport
  repeat' (first
    | with_reducible assumption | with_reducible apply withinNext_next | with_reducible apply within_holdLimitOp)
/-! ### Caoco -/

theorem within_meetArgs (s : State) (l : List (Word × Nat)) (hs : Within μ s₀ s) (hm : Sub 134222008 μ) : Within μ s₀ (meetArgs s l) := by
  unfold meetArgs
  repeat' (first
    | with_reducible assumption | with_reducible apply within_readAll)
theorem within_ackMbx (s : State) (f : Nat) (j : Nat) (seq : Nat) (taken : Nat) (rc : Nat) (hs : Within μ s₀ s) (hm : Sub 536870920 μ) :
    Within μ s₀ (ackMbx s f j seq taken rc) := by
  unfold ackMbx
  repeat' (first
    | with_reducible assumption | exact subStep hm (by decide) | with_reducible apply within_setFld | with_reducible apply within_setRaw
    | with_reducible apply within_raiseMsix | with_reducible apply within_ite)
theorem within_ackDone (s : State) (f : Nat) (j : Nat) (seq : Nat) (taken : Nat) (rc : Nat) (hs : Within μ s₀ s) (hm : Sub 536871048 μ) :
    Within μ s₀ (ackDone s f j seq taken rc) := by
  unfold ackDone
  repeat' (first
    | with_reducible assumption | exact subStep hm (by decide) | with_reducible apply within_modFn | with_reducible apply within_ackMbx)
theorem within_postOut (s : State) (f : Nat) (j : Nat) (hs : Within μ s₀ s) (hm : Sub 536871048 μ) : Within μ s₀ (postOut s f j) := by
  unfold postOut
  repeat' (first
    | with_reducible assumption | exact subStep hm (by decide) | with_reducible apply within_modFn | with_reducible apply within_raiseMsix
    | with_reducible apply within_setRaw | with_reducible apply within_setFld | with_reducible apply within_ackDone
    | with_reducible apply within_ite | simp only [] | split)
theorem within_ackWord (s : State) (f : Nat) (j : Nat) (seq : Nat) (taken : Nat) (rc : Nat) (reply : Option Word) (hs : Within μ s₀ s) (hm : Sub 536871048 μ) :
    Within μ s₀ (ackWord s f j seq taken rc reply) := by
  unfold ackWord
  repeat' (first
    | with_reducible assumption | exact subStep hm (by decide) | with_reducible apply within_postOut | with_reducible apply within_queueOut
    | with_reducible apply within_modFn | with_reducible apply within_ackDone | with_reducible apply within_ite
    | split)
theorem within_publish (s : State) (fn : Nat) (via : Via) (taken : Nat) (op : Nat) (mute : Bool) (a : Answer) (hs : Within μ s₀ s) (hm : Sub 671093240 μ) :
    Within μ s₀ (publish s fn via taken op mute a) := by
  unfold publish
  repeat' (first
    | with_reducible assumption | exact subStep hm (by decide) | with_reducible apply within_writeHost
    | with_reducible apply within_modFn | with_reducible apply within_ackWord | with_reducible apply within_finishEntry
    | with_reducible apply within_ite | simp only [] | split)
theorem within_quiesceNow (s : State) (c : Nat) (hs : Within μ s₀ s) (hm : Sub 8448 μ) : Within μ s₀ (quiesceNow s c) := by
  unfold quiesceNow
  repeat' (first
    | with_reducible assumption | exact subStep hm (by decide) | intro _ | with_reducible apply within_forEach
    | with_reducible apply within_modQueue | with_reducible apply within_modCtx)
theorem within_publishOne (s : State) (p : PendCmd) (rc : Nat) (result : Nat) (hs : Within μ s₀ s) (hm : Sub 671101944 μ) :
    Within μ s₀ (publishOne s p rc result) := by
  unfold publishOne
  repeat' (first
    | with_reducible assumption | exact subStep hm (by decide) | (refine Agree.mk (fun a ha => ?_); cases a <;> first | exact noBit (by decide) hm ha | rfl)
    | with_reducible apply within_quiesceNow | with_reducible apply within_publish | with_reducible apply within_ite
    | (simp only [within_mk]; with_reducible refine withinMk ?_ ?_) | split)
theorem within_finishFlr (s : State) (f : Nat) (hs : Within μ s₀ s) (hm : Sub 392 μ) : Within μ s₀ (finishFlr s f) := by
  unfold finishFlr
  repeat' (first
    | with_reducible assumption | exact subStep hm (by decide) | intro _ | with_reducible apply within_forEach
    | with_reducible apply within_setQueue | with_reducible apply within_clearRegs | with_reducible apply within_setFn
    | with_reducible apply within_bump | with_reducible apply within_setFld)
theorem within_finishFlrs (s : State) (hs : Within μ s₀ s) (hm : Sub 392 μ) : Within μ s₀ (finishFlrs s) := by
  unfold finishFlrs
  repeat' (first
    | with_reducible assumption | intro _ | with_reducible apply within_forEach | with_reducible apply within_finishFlr
    | with_reducible apply within_ite)
theorem within_settle (s : State) (hs : Within μ s₀ s) (hm : Sub 671101944 μ) : Within μ s₀ (settle s) := by
  unfold settle
  repeat' (first
    | with_reducible assumption | exact subStep hm (by decide) | intro _ | with_reducible apply within_finishFlrs
    | with_reducible apply within_forEach | with_reducible apply within_publishOne | split)
theorem within_pruneTokens (s : State) (hs : Within μ s₀ s) (hm : Sub 1024 μ) : Within μ s₀ (pruneTokens s) := by
  unfold pruneTokens
  repeat' (first
    | with_reducible assumption | (refine Agree.mk (fun a ha => ?_); cases a <;> first | exact noBit (by decide) hm ha | rfl)
    | (simp only [within_mk]; with_reducible refine withinMk ?_ ?_))
theorem within_keepToken (s : State) (c : Cmd) (rc : Nat) (result : Word) (hs : Within μ s₀ s) (hm : Sub 1024 μ) :
    Within μ s₀ (keepToken s c rc result) := by
  unfold keepToken
  repeat' (first
    | with_reducible assumption | (refine Agree.mk (fun a ha => ?_); cases a <;> first | exact noBit (by decide) hm ha | rfl)
    | with_reducible apply within_ite | (simp only [within_mk]; with_reducible refine withinMk ?_ ?_))
theorem within_checkIn (c : Cmd) (s : State) (hs : Within μ s₀ s) (hm : Sub 256 μ) : Within μ s₀ (checkIn c s) := by
  unfold checkIn
  repeat' (first
    | with_reducible assumption | with_reducible apply within_startEntry | with_reducible apply within_setQueue
    | with_reducible apply within_ite | simp only [] | split)
theorem within_answerNow (c : Cmd) (s : State) (rc : Nat) (result : Word) (tag : Nat) (hs : Within μ s₀ s) (hm : Sub 671093240 μ) :
    Within μ s₀ (answerNow c s rc result tag) := by
  unfold answerNow
  repeat' (first
    | with_reducible assumption | with_reducible apply within_publish)
theorem within_conclude (c : Cmd) (tag : Nat) (o : CmdOut) (ho : Within μ s₀ o.state) (hm : Sub 671102968 μ) :
    Within μ s₀ (conclude c tag o) := by
  unfold conclude
  cases o with
  | done rc r s => exact within_answerNow _ _ _ _ _ (within_keepToken _ _ _ _ ho (subStep hm (by decide))) (subStep hm (by decide))
  | wait k s => exact within_settle _ (by
    refine withinMk ho ⟨fun a ha => ?_⟩
    cases a <;> first | exact noBit (by decide) hm ha | rfl) (subStep hm (by decide))
  | later s => exact ho
theorem within_runCmd (refuse : Cmd → State → Option Nat) (reads : Cmd → State → List (Word × Nat)) (effect : Cmd → State → CmdOut) (c : Cmd) (s : State) (heffect : ∀ x t, Within μ s₀ t → Within μ s₀ (effect x t).state) (hs : Within μ s₀ s) (hm : Sub 671102968 μ) :
    Within μ s₀ (runCmd refuse reads effect c s) := by
  unfold runCmd
  repeat' (first
    | with_reducible assumption | exact subStep hm (by decide) | with_reducible apply within_checkIn | with_reducible apply within_answerNow
    | with_reducible apply within_meetArgs | with_reducible apply within_conclude | with_reducible apply heffect
    | simp only [] | split)
theorem within_arrive (rq : Req) (s : State) (hs : Within μ s₀ s) (hm : Sub 64 μ) : Within μ s₀ (arrive rq s) := by
  unfold arrive
  repeat' (first
    | with_reducible assumption | with_reducible apply within_hostStores)
theorem within_runRowWith (refuse : Cmd → State → Option Nat) (reads : Cmd → State → List (Word × Nat)) (effect : Cmd → State → CmdOut) (op : Nat) (rq : Req) (args : List Word) (s : State) (heffect : ∀ x t, Within μ s₀ t → Within μ s₀ (effect x t).state) (hs : Within μ s₀ s) (hm : Sub 671102968 μ) :
    Within μ s₀ (runRowWith refuse reads effect op rq args s) := by
  unfold runRowWith
  repeat' (first
    | with_reducible assumption | exact subStep hm (by decide) | with_reducible apply within_runCmd | with_reducible apply within_arrive)
theorem within_runRow (refuse : Cmd → State → Option Nat) (effect : Cmd → State → CmdOut) (op : Nat) (rq : Req) (args : List Word) (s : State) (heffect : ∀ x t, Within μ s₀ t → Within μ s₀ (effect x t).state) (hs : Within μ s₀ s) (hm : Sub 671102968 μ) :
    Within μ s₀ (runRow refuse effect op rq args s) := by
  unfold runRow
  repeat' (first
    | with_reducible assumption | with_reducible apply within_runRowWith)
/-! ### LinkTx -/

theorem within_txRun (s : State) (l : Nat) (j : Job) (k : Nat) (pathError : Bool) (hs : Within μ s₀ s) (hm : Sub 578818056 μ) :
    Within μ s₀ (txRun s l j k pathError) := by
  unfold txRun
  repeat' (first
    | with_reducible assumption | exact subStep hm (by decide) | with_reducible apply within_addCause
    | with_reducible apply within_putJob | with_reducible apply within_modLink | with_reducible apply within_pump
    | with_reducible apply within_addOpenCause | with_reducible apply within_ite | simp only [] | split)
theorem within_spoilRetry (s : State) (l : Nat) (at_ : List Nat) (hs : Within μ s₀ s) (hm : Sub 33554432 μ) :
    Within μ s₀ (spoilRetry s l at_) := by
  unfold spoilRetry
  repeat' (first
    | with_reducible assumption | with_reducible apply within_modLink)
theorem within_linkTransmitOp (l : Nat) (pathError : Bool) (bufferError : Bool) (s : State) (hs : Within μ s₀ s) (hm : Sub 719878653 μ) :
    Within μ s₀ (linkTransmitOp l pathError bufferError s) := by
  unfold linkTransmitOp
  repeat' (first
    | with_reducible assumption | exact subStep hm (by decide) | with_reducible apply within_takeDesc
    | with_reducible apply within_endFault | with_reducible apply within_readAll | with_reducible apply within_bufferFault
    | with_reducible apply within_putJob | with_reducible apply within_txRun | with_reducible apply within_ite
    | (with_reducible refine within_fst (by with_reducible assumption) ?_) | simp only [] | split)
theorem within_execLinkTransmit (l : LinkId) (hits : List Hit) (pathError : Bool) (buffers : BufferErrors) (s : State) (hs : Within μ s₀ s) (hm : Sub 719878653 μ) :
    WithinNext μ s₀ (execLinkTransmit l hits pathError buffers s) := by
  unfold execLinkTransmit
  repeat' (first
    | with_reducible assumption | exact subStep hm (by decide) | with_reducible apply withinNext_next
    | with_reducible apply within_spoilRetry | with_reducible apply within_linkTransmitOp | with_reducible apply within_upsetWords)
theorem within_linkAcked (s : State) (l : Nat) (hs : Within μ s₀ s) (hm : Sub 1793620477 μ) : Within μ s₀ (linkAcked s l) := by
  unfold linkAcked
  repeat' (first
    | with_reducible assumption | exact subStep hm (by decide) | with_reducible apply within_pump | with_reducible apply within_setLink
    | with_reducible apply within_endDone | with_reducible apply within_ite | simp only [] | split)
theorem within_execLinkTransmitAcked (l : LinkId) (s : State) (hs : Within μ s₀ s) (hm : Sub 1793620477 μ) :
    WithinNext μ s₀ (execLinkTransmitAcked l s) := by
  unfold execLinkTransmitAcked
  repeat' (first
    | with_reducible assumption | with_reducible apply withinNext_next | with_reducible apply within_linkAcked)
theorem within_execLinkTxWatchdog (l : LinkId) (s : State) (hs : Within μ s₀ s) (hm : Sub 719878653 μ) :
    WithinNext μ s₀ (execLinkTxWatchdog l s) := by
  unfold execLinkTxWatchdog
  repeat' (first
    | with_reducible assumption | exact subStep hm (by decide) | with_reducible apply withinNext_next
    | with_reducible apply within_engineWatchdog | with_reducible apply within_dropUnsent | with_reducible apply within_ite
    | split)
theorem within_linkReread (l : Nat) (pathError : Bool) (s : State) (hs : Within μ s₀ s) (hm : Sub 719878653 μ) :
    Within μ s₀ (linkReread l pathError s) := by
  unfold linkReread
  repeat' (first
    | with_reducible assumption | exact subStep hm (by decide) | with_reducible apply within_dropCauses
    | with_reducible apply within_crcCleared | with_reducible apply within_endStopped | with_reducible apply within_txRun
    | with_reducible apply within_endFault | with_reducible apply within_crcFailed | with_reducible apply within_ite
    | simp only [] | split)
theorem within_execCrcSecondRead (site : CrcSite) (pathError : Bool) (s : State) (hs : Within μ s₀ s) (hm : Sub 1793620477 μ) :
    WithinNext μ s₀ (execCrcSecondRead site pathError s) := by
  unfold execCrcSecondRead
  repeat' (first
    | with_reducible assumption | exact subStep hm (by decide) | with_reducible apply withinNext_next
    | with_reducible apply within_moverReread | with_reducible apply within_linkReread | split)
/-! ### SelfTest -/

theorem within_resetSectionRegs (s : State) (n : Nat) (hs : Within μ s₀ s) (hm : Sub 8 μ) : Within μ s₀ (resetSectionRegs s n) := by
  unfold resetSectionRegs
  repeat' (first
    | with_reducible assumption | with_reducible apply within_clearRegs)
theorem within_clearUnits (s : State) (n : Nat) (hs : Within μ s₀ s) (hm : Sub 165675008 μ) : Within μ s₀ (clearUnits s n) := by
  unfold clearUnits
  repeat' (first
    | with_reducible assumption | exact subStep hm (by decide) | (refine Agree.mk (fun a ha => ?_); cases a <;> first | exact noBit (by decide) hm ha | rfl)
    | with_reducible apply within_modGravel | (simp only [within_mk]; with_reducible refine withinMk ?_ ?_))
theorem within_clearLoam (s : State) (n : Nat) (hs : Within μ s₀ s) (hm : Sub 48 μ) : Within μ s₀ (clearLoam s n) := by
  unfold clearLoam
  repeat' (first
    | with_reducible assumption | exact subStep hm (by decide) | with_reducible apply within_dropSection
    | with_reducible apply within_zeroRange)
theorem within_clearHbm (s : State) (n : Nat) (hs : Within μ s₀ s) (hm : Sub 16 μ) : Within μ s₀ (clearHbm s n) := by
  unfold clearHbm
  repeat' (first
    | with_reducible assumption | with_reducible apply within_zeroRange)
theorem within_grantTest (s : State) (hs : Within μ s₀ s) (hm : Sub 1 μ) : Within μ s₀ (grantTest s) := by
  unfold grantTest
  repeat' (first
    | with_reducible assumption | (refine Agree.mk (fun a ha => ?_); cases a <;> first | exact noBit (by decide) hm ha | rfl)
    | (simp only [within_mk]; with_reducible refine withinMk ?_ ?_))
theorem within_startSection (s : State) (source : Nat) (tested : Nat) (ticket : Nat) (blocks : List Nat) (n : Nat) (hs : Within μ s₀ s) (hm : Sub 134217736 μ) :
    Within μ s₀ (startSection s source tested ticket blocks n) := by
  unfold startSection
  repeat' (first
    | with_reducible assumption | exact subStep hm (by decide) | intro _ | with_reducible apply within_setAutumn
    | with_reducible apply within_forEach | with_reducible apply within_setLinkState | with_reducible apply within_ite)
theorem within_startAutumn (s : State) (source : Nat) (mask : Nat) (blocks : List Nat) (hs : Within μ s₀ s) (hm : Sub 134217737 μ) :
    Within μ s₀ (startAutumn s source mask blocks) := by
  unfold startAutumn
  repeat' (first
    | with_reducible assumption | exact subStep hm (by decide) | intro _ | with_reducible apply within_grantTest
    | with_reducible apply within_forEach | with_reducible apply within_startSection)
/-! ### Tile -/

theorem within_setUnit (s : State) (k : Nat) (u : Nat) (v : UnitState) (hs : Within μ s₀ s) (hm : Sub 2097152 μ) :
    Within μ s₀ (setUnit s k u v) := by
  unfold setUnit
  repeat' (first
    | with_reducible assumption | with_reducible apply within_modCore)
theorem within_noteLaunch (s : State) (k : Nat) (i : Nat) (poison : Bool) (hs : Within μ s₀ s) (hm : Sub 2048 μ) :
    Within μ s₀ (noteLaunch s k i poison) := by
  unfold noteLaunch
  repeat' (first
    | with_reducible assumption | (refine Agree.mk (fun a ha => ?_); cases a <;> first | exact noBit (by decide) hm ha | rfl)
    | (simp only [within_mk]; with_reducible refine withinMk ?_ ?_))
theorem within_checkComplete (s : State) (k : Nat) (i : Nat) (hs : Within μ s₀ s) (hm : Sub 4194304 μ) :
    Within μ s₀ (checkComplete s k i) := by
  unfold checkComplete
  repeat' (first
    | with_reducible assumption | with_reducible apply within_setSlot | with_reducible apply within_ite)
theorem within_markSignalled (s : State) (k : Nat) (i : Nat) (index : Nat) (hs : Within μ s₀ s) (hm : Sub 4194304 μ) :
    Within μ s₀ (markSignalled s k i index) := by
  unfold markSignalled
  repeat' (first
    | with_reducible assumption | with_reducible apply within_modSlot | with_reducible apply within_checkComplete)
theorem within_enterSlot (s : State) (k : Nat) (i : Option Nat) (hs : Within μ s₀ s) (hm : Sub 2097152 μ) :
    Within μ s₀ (enterSlot s k i) := by
  unfold enterSlot
  repeat' (first
    | with_reducible assumption | with_reducible apply within_modCore)
theorem within_leaveSlot (s : State) (k : Nat) (hs : Within μ s₀ s) (hm : Sub 6291456 μ) : Within μ s₀ (leaveSlot s k) := by
  unfold leaveSlot
  repeat' (first
    | with_reducible assumption | exact subStep hm (by decide) | with_reducible apply within_modSlot | with_reducible apply within_modCore
    | simp only [] | split)
theorem within_coreFault (s : State) (k : Nat) (i : Nat) (index : Nat) (unit : Nat) (c : Nat) (cause : Nat) (poison : Bool) (hs : Within μ s₀ s) (hm : Sub 711490045 μ) :
    Within μ s₀ (coreFault s k i index unit c cause poison) := by
  unfold coreFault
  repeat' (first
    | with_reducible assumption | exact subStep hm (by decide) | with_reducible apply within_setRaw | with_reducible apply within_ctxFault
    | with_reducible apply within_modCore)
theorem within_tileFetchOp (k : Nat) (s : State) (hs : Within μ s₀ s) (hm : Sub 711490045 μ) : Within μ s₀ (tileFetchOp k s) := by
  unfold tileFetchOp
  repeat' (first
    | with_reducible assumption | exact subStep hm (by decide) | with_reducible apply within_coreFault
    | with_reducible apply within_setSlot | with_reducible apply within_readMem | with_reducible apply within_markSignalled
    | with_reducible apply within_bump | with_reducible apply within_modCore | with_reducible apply within_ite
    | simp only [] | split)
theorem within_execTileFetch (core : CoreId) (hits : List Hit) (s : State) (hs : Within μ s₀ s) (hm : Sub 711490045 μ) :
    WithinNext μ s₀ (execTileFetch core hits s) := by
  unfold execTileFetch
  repeat' (first
    | with_reducible assumption | exact subStep hm (by decide) | with_reducible apply withinNext_next
    | with_reducible apply within_tileFetchOp | with_reducible apply within_upsetWords)
theorem within_sampleTile (s : State) (k : Nat) (i : Nat) (c : Nat) (index : Nat) (b : List Byte) (accs : List (List Acc)) (truth : List (List Acc)) (tag : Nat) (hs : Within μ s₀ s) (hm : Sub 16777224 μ) :
    Within μ s₀ (sampleTile s k i c index b accs truth tag).1 := by
  unfold sampleTile
  repeat' (first
    | with_reducible assumption | exact subStep hm (by decide) | with_reducible apply within_bump | with_reducible apply within_setWitness
    | simp only [] | split)
theorem within_spoilOverlap (s : State) (c : Nat) (b : List Byte) (cells : List Cell) (hs : Within μ s₀ s) (hm : Sub 1073741824 μ) :
    Within μ s₀ (spoilOverlap s c b cells).1 := by
  unfold spoilOverlap
  repeat' (first
    | with_reducible assumption | intro _ | with_reducible apply within_freeDraw | with_reducible apply within_foldlFst
    | simp only [] | split)
theorem within_feederCorrectedOp (s : State) (k : Nat) (n : Nat) (hs : Within μ s₀ s) (hm : Sub 134217864 μ) :
    Within μ s₀ (feederCorrectedOp s k n) := by
  unfold feederCorrectedOp
  repeat' (first
    | with_reducible assumption | exact subStep hm (by decide) | intro _ | with_reducible apply within_forEach
    | with_reducible apply within_bump | with_reducible apply within_healthEvent)
theorem within_startTile (s : State) (k : Nat) (i : Nat) (d : WinDesc) (corrected : Nat) (uncorrectable : Bool) (wrong : List CellError) (hs : Within μ s₀ s) (hm : Sub 1802009085 μ) :
    Within μ s₀ (startTile s k i d corrected uncorrectable wrong) := by
  unfold startTile
  repeat' (first
    | with_reducible assumption | exact subStep hm (by decide) | with_reducible apply within_coreFault
    | with_reducible apply within_spoilOverlap | with_reducible apply within_feederCorrectedOp | with_reducible apply within_readAll
    | with_reducible apply within_partialWrites | with_reducible apply within_healthEvent | with_reducible apply within_bump
    | with_reducible apply within_sampleTile | with_reducible apply within_setUnit | with_reducible apply within_ite
    | simp only [] | split)
theorem within_holdExternal (s : State) (k : Nat) (p : Nat) (d : WinDesc) (hs : Within μ s₀ s) (hm : Sub 4096 μ) :
    Within μ s₀ (holdExternal s k p d) := by
  unfold holdExternal
  repeat' (first
    | with_reducible assumption | intro _ | with_reducible apply within_forEach | with_reducible apply within_addCause
    | with_reducible apply within_ite)
theorem within_tileIssueOp (k : Nat) (corrected : Nat) (uncorrectable : Bool) (wrong : List CellError) (s : State) (hs : Within μ s₀ s) (hm : Sub 1802009085 μ) :
    Within μ s₀ (tileIssueOp k corrected uncorrectable wrong s) := by
  unfold tileIssueOp
  repeat' (first
    | with_reducible assumption | exact subStep hm (by decide) | with_reducible apply within_bump | with_reducible apply within_modCore
    | with_reducible apply within_startTile | with_reducible apply within_holdExternal | with_reducible apply within_ite
    | simp only [] | split)
theorem within_execTileIssue (core : CoreId) (hits : List Hit) (feederCorrected : Nat) (upset : TileUpset) (s : State) (hs : Within μ s₀ s) (hm : Sub 1802009085 μ) :
    WithinNext μ s₀ (execTileIssue core hits feederCorrected upset s) := by
  unfold execTileIssue
  repeat' (first
    | with_reducible assumption | exact subStep hm (by decide) | with_reducible apply withinNext_next
    | with_reducible apply within_tileIssueOp | with_reducible apply within_upsetWords)
theorem within_publishTile (s : State) (r : TileRun) (hs : Within μ s₀ s) (hm : Sub 134295736 μ) : Within μ s₀ (publishTile s r) := by
  unfold publishTile
  repeat' (first
    | with_reducible assumption | exact subStep hm (by decide) | intro _ | with_reducible apply within_forEach
    | with_reducible apply within_throughCache | with_reducible apply within_writeCells | with_reducible apply within_poisonTensors
    | with_reducible apply within_modTensor | with_reducible apply within_addNf | with_reducible apply within_applyDeltas
    | simp only [] | split)
theorem within_signalTile (s : State) (k : Nat) (u : Nat) (r : TileRun) (hs : Within μ s₀ s) (hm : Sub 1785231869 μ) :
    Within μ s₀ (signalTile s k u r) := by
  unfold signalTile
  repeat' (first
    | with_reducible assumption | exact subStep hm (by decide) | with_reducible apply within_bump | with_reducible apply within_noteLaunch
    | with_reducible apply within_signalAll | with_reducible apply within_coreFault | with_reducible apply within_markSignalled
    | with_reducible apply within_ite)
theorem within_holdTile (s : State) (k : Nat) (u : Nat) (r : TileRun) (hs : Within μ s₀ s) (hm : Sub 18878464 μ) :
    Within μ s₀ (holdTile s k u r) := by
  unfold holdTile
  repeat' (first
    | with_reducible assumption | exact subStep hm (by decide) | with_reducible apply within_modWitness
    | with_reducible apply within_setUnit | with_reducible apply within_modCore | with_reducible apply within_addCause)
theorem within_tileCompleteOp (k : Nat) (u : Nat) (s : State) (hs : Within μ s₀ s) (hm : Sub 1802074621 μ) :
    Within μ s₀ (tileCompleteOp k u s) := by
  unfold tileCompleteOp
  repeat' (first
    | with_reducible assumption | exact subStep hm (by decide) | with_reducible apply within_checkComplete
    | with_reducible apply within_setUnit | with_reducible apply within_bump | with_reducible apply within_publishTile
    | with_reducible apply within_holdTile | with_reducible apply within_signalTile | with_reducible apply within_ite
    | simp only [] | split)
theorem within_execTileComplete (core : CoreId) (unit : Fin 7) (s : State) (hs : Within μ s₀ s) (hm : Sub 1802074621 μ) :
    WithinNext μ s₀ (execTileComplete core unit s) := by
  unfold execTileComplete
  repeat' (first
    | with_reducible assumption | with_reducible apply withinNext_next | with_reducible apply within_tileCompleteOp)
theorem within_sequencerWatchdogOp (k : Nat) (u : Nat) (s : State) (hs : Within μ s₀ s) (hm : Sub 1785231869 μ) :
    Within μ s₀ (sequencerWatchdogOp k u s) := by
  unfold sequencerWatchdogOp
  repeat' (first
    | with_reducible assumption | exact subStep hm (by decide) | with_reducible apply within_setUnit | with_reducible apply within_setFld
    | with_reducible apply within_healthEvent | with_reducible apply within_coreFault | with_reducible apply within_partialWrites
    | with_reducible apply within_ite | simp only [] | split)
theorem within_execSequencerWatchdog (core : CoreId) (unit : Fin 7) (s : State) (hs : Within μ s₀ s) (hm : Sub 1785231869 μ) :
    WithinNext μ s₀ (execSequencerWatchdog core unit s) := by
  unfold execSequencerWatchdog
  repeat' (first
    | with_reducible assumption | with_reducible apply withinNext_next | with_reducible apply within_sequencerWatchdogOp)
theorem within_execTallyAdd (tally : TallyId) (amount : Half) (tag : Half) (s : State) (hs : Within μ s₀ s) (hm : Sub 1785231869 μ) :
    WithinNext μ s₀ (execTallyAdd tally amount tag s) := by
  unfold execTallyAdd
  repeat' (first
    | with_reducible assumption | exact subStep hm (by decide) | with_reducible apply withinNext_next
    | with_reducible apply within_bump | with_reducible apply within_tallyAddOp | with_reducible apply within_ite)
theorem within_postWait (s : State) (sec : Nat) (core : Nat) (c : Nat) (hs : Within μ s₀ s) (hm : Sub 136 μ) :
    Within μ s₀ (postWait s sec core c) := by
  unfold postWait
  repeat' (first
    | with_reducible assumption | with_reducible apply within_postPart)
theorem within_waitLimitOp (k : Nat) (index : Nat) (s : State) (hs : Within μ s₀ s) (hm : Sub 2097288 μ) :
    Within μ s₀ (waitLimitOp k index s) := by
  unfold waitLimitOp
  repeat' (first
    | with_reducible assumption | exact subStep hm (by decide) | with_reducible apply within_modCore | with_reducible apply within_postWait
    | with_reducible apply within_bump | with_reducible apply within_ite | simp only [] | split)
theorem within_execWaitLimitReport (core : CoreId) (index : Nat) (s : State) (hs : Within μ s₀ s) (hm : Sub 2097288 μ) :
    WithinNext μ s₀ (execWaitLimitReport core index s) := by
  unfold execWaitLimitReport
  repeat' (first
    | with_reducible assumption | with_reducible apply withinNext_next | with_reducible apply within_waitLimitOp)
theorem within_tileWaitTimeout (k : Nat) (index : Nat) (s : State) (hs : Within μ s₀ s) (hm : Sub 711490045 μ) :
    Within μ s₀ (tileWaitTimeout k index s) := by
  unfold tileWaitTimeout
  repeat' (first
    | with_reducible assumption | exact subStep hm (by decide) | with_reducible apply within_coreFault
    | with_reducible apply within_bump | with_reducible apply within_ite | split)
theorem within_changeSlot (s : State) (k : Nat) (j : Nat) (choice : Bool) (hs : Within μ s₀ s) (hm : Sub 6291464 μ) :
    Within μ s₀ (changeSlot s k j choice) := by
  unfold changeSlot
  repeat' (first
    | with_reducible assumption | exact subStep hm (by decide) | with_reducible apply within_enterSlot
    | with_reducible apply within_leaveSlot | with_reducible apply within_bump | with_reducible apply within_ite
    | simp only [] | split)
theorem within_winterChange (s : State) (k : Nat) (hs : Within μ s₀ s) (hm : Sub 6291464 μ) : Within μ s₀ (winterChange s k) := by
  unfold winterChange
  repeat' (first
    | with_reducible assumption | exact subStep hm (by decide) | with_reducible apply within_enterSlot
    | with_reducible apply within_changeSlot | with_reducible apply within_leaveSlot | with_reducible apply within_ite
    | simp only [] | split)
theorem within_winterFill (s : State) (k : Nat) (hs : Within μ s₀ s) (hm : Sub 6291464 μ) : Within μ s₀ (winterFill s k) := by
  unfold winterFill
  repeat' (first
    | with_reducible assumption | with_reducible apply within_changeSlot | with_reducible apply within_ite
    | simp only [] | split)
theorem within_slotChangeOp (k : Nat) (s : State) (hs : Within μ s₀ s) (hm : Sub 6291464 μ) : Within μ s₀ (slotChangeOp k s) := by
  unfold slotChangeOp
  repeat' (first
    | with_reducible assumption | exact subStep hm (by decide) | with_reducible apply within_winterChange
    | with_reducible apply within_enterSlot | with_reducible apply within_changeSlot | with_reducible apply within_ite
    | simp only [] | split)
theorem within_execSlotChange (core : CoreId) (s : State) (hs : Within μ s₀ s) (hm : Sub 6291464 μ) :
    WithinNext μ s₀ (execSlotChange core s) := by
  unfold execSlotChange
  repeat' (first
    | with_reducible assumption | with_reducible apply withinNext_next | with_reducible apply within_slotChangeOp)
theorem within_bubbleFillOp (k : Nat) (s : State) (hs : Within μ s₀ s) (hm : Sub 6291464 μ) : Within μ s₀ (bubbleFillOp k s) := by
  unfold bubbleFillOp
  repeat' (first
    | with_reducible assumption | with_reducible apply within_winterFill | with_reducible apply within_changeSlot
    | with_reducible apply within_ite | split)
theorem within_execBubbleFill (core : CoreId) (s : State) (hs : Within μ s₀ s) (hm : Sub 6291464 μ) :
    WithinNext μ s₀ (execBubbleFill core s) := by
  unfold execBubbleFill
  repeat' (first
    | with_reducible assumption | with_reducible apply withinNext_next | with_reducible apply within_bubbleFillOp)
/-! ### Launch -/

theorem within_publishLaunch (s : State) (l : Launch) (hs : Within μ s₀ s) (hm : Sub 671095288 μ) : Within μ s₀ (publishLaunch s l) := by
  unfold publishLaunch
  repeat' (first
    | with_reducible assumption | exact subStep hm (by decide) | (refine Agree.mk (fun a ha => ?_); cases a <;> first | exact noBit (by decide) hm ha | rfl)
    | with_reducible apply within_publish | (simp only [within_mk]; with_reducible refine withinMk ?_ ?_))
theorem within_publishLaunches (s : State) (f : Launch → Bool) (hs : Within μ s₀ s) (hm : Sub 671095288 μ) :
    Within μ s₀ (publishLaunches s f) := by
  unfold publishLaunches
  repeat' (first
    | with_reducible assumption | intro _ | with_reducible apply within_forEach | with_reducible apply within_publishLaunch)
theorem within_launchPublishOp (c : Nat) (s : State) (hs : Within μ s₀ s) (hm : Sub 671103992 μ) : Within μ s₀ (launchPublishOp c s) := by
  unfold launchPublishOp
  repeat' (first
    | with_reducible assumption | exact subStep hm (by decide) | with_reducible apply within_settle | with_reducible apply within_publishLaunch
    | split)
theorem within_execLaunchPublish (ctx : CtxId) (s : State) (hs : Within μ s₀ s) (hm : Sub 671103992 μ) :
    WithinNext μ s₀ (execLaunchPublish ctx s) := by
  unfold execLaunchPublish
  repeat' (first
    | with_reducible assumption | with_reducible apply withinNext_next | with_reducible apply within_launchPublishOp)

end Sys2Proof.Machine
end

