-- ==== Sys2Proof/Laws/WithinJobs.lean ====
section
/-! SUPPORT. Routes, the optimizer, collectives and teardowns: the areas they may change. -/

set_option maxRecDepth 4000
set_option linter.unusedSimpArgs false
set_option linter.unusedVariables false

namespace Sys2Proof.Machine

variable {μ : Nat} {s₀ : State}

/-! ### Route -/

theorem within_spoilCells (s : State) (rs : List (Nat × Nat)) (cells : List Cell) (hs : Within μ s₀ s) (hm : Sub 1073741824 μ) :
    Within μ s₀ (spoilCells s rs cells).1 := by
  unfold spoilCells
  repeat' (first
    | with_reducible assumption | intro _ | with_reducible apply within_freeDraw | with_reducible apply within_foldlFst
    | simp only [] | split)
theorem within_statusCells (s : State) (b : List Byte) (o : RouteOut) (hs : Within μ s₀ s) (hm : Sub 1073741824 μ) :
    Within μ s₀ (statusCells s b o).1 := by
  unfold statusCells
  repeat' (first
    | with_reducible assumption | with_reducible apply within_freeDraw | simp only [] | split)
theorem within_routeFault (s : State) (sec : Nat) (j : Job) (cause : Nat) (pos : Nat) (poison : Bool) (hs : Within μ s₀ s) (hm : Sub 719878653 μ) :
    Within μ s₀ (routeFault s sec j cause pos poison) := by
  unfold routeFault
  repeat' (first
    | with_reducible assumption | exact subStep hm (by decide) | with_reducible apply within_setRaw | with_reducible apply within_endFault
    | with_reducible apply within_ite)
theorem within_routeGrants (s : State) (p : Nat) (hs : Within μ s₀ s) (hm : Sub 1073741832 μ) : Within μ s₀ (routeGrants s p) := by
  unfold routeGrants
  repeat' (first
    | with_reducible assumption | exact subStep hm (by decide) | with_reducible apply within_freeDraw
    | with_reducible apply within_bump | with_reducible apply within_ite)
theorem within_routeStops (s : State) (sec : Nat) (j : Job) (words : Nat) (cells : List Cell) (cause : Nat) (pos : Nat) (poison : Bool) (hs : Within μ s₀ s) (hm : Sub 1793620477 μ) :
    Within μ s₀ (routeStops s sec j words cells cause pos poison) := by
  unfold routeStops
  repeat' (first
    | with_reducible assumption | exact subStep hm (by decide) | with_reducible apply within_partialWrites
    | with_reducible apply within_freeDraw | with_reducible apply within_routeFault | with_reducible apply within_bump)
theorem within_routeIssued (s : State) (sec : Nat) (j : Job) (hs : Within μ s₀ s) (hm : Sub 8388608 μ) :
    Within μ s₀ (routeIssued s sec j) := by
  unfold routeIssued
  repeat' (first
    | with_reducible assumption | with_reducible apply within_modEngine)
theorem within_routeDescriptorOp (sec : Nat) (s : State) (hs : Within μ s₀ s) (hm : Sub 1793620477 μ) :
    Within μ s₀ (routeDescriptorOp sec s) := by
  unfold routeDescriptorOp
  repeat' (first
    | with_reducible assumption | exact subStep hm (by decide) | with_reducible apply within_takeDesc
    | with_reducible apply within_routeFault | with_reducible apply within_readAll | with_reducible apply within_routeGrants
    | with_reducible apply within_spoilCells | with_reducible apply within_routeStops | with_reducible apply within_statusCells
    | with_reducible apply within_writeCells | with_reducible apply within_bump | with_reducible apply within_routeIssued
    | with_reducible apply within_ite | (with_reducible refine within_fst (by with_reducible assumption) ?_)
    | simp only [] | split)
theorem within_execRouteDescriptor (sec : Sec) (hits : List Hit) (s : State) (hs : Within μ s₀ s) (hm : Sub 1793620477 μ) :
    WithinNext μ s₀ (execRouteDescriptor sec hits s) := by
  unfold execRouteDescriptor
  repeat' (first
    | with_reducible assumption | exact subStep hm (by decide) | with_reducible apply withinNext_next
    | with_reducible apply within_routeDescriptorOp | with_reducible apply within_upsetWords)
theorem within_routePast (s : State) (sec : Nat) (hs : Within μ s₀ s) (hm : Sub 8388608 μ) : Within μ s₀ (routePast s sec) := by
  unfold routePast
  repeat' (first
    | with_reducible assumption | with_reducible apply within_modEngine)
theorem within_routeEnd (s : State) (sec : Nat) (hs : Within μ s₀ s) (hm : Sub 1793686013 μ) : Within μ s₀ (routeEnd s sec) := by
  unfold routeEnd
  repeat' (first
    | with_reducible assumption | exact subStep hm (by decide) | intro _ | with_reducible apply within_poisonTensors
    | with_reducible apply within_addNf | with_reducible apply within_applyDeltas | with_reducible apply within_routePast
    | with_reducible apply within_endCounted | with_reducible apply within_bump | simp only [] | split)
theorem within_execRouteComplete (sec : Sec) (s : State) (hs : Within μ s₀ s) (hm : Sub 1793686013 μ) :
    WithinNext μ s₀ (execRouteComplete sec s) := by
  unfold execRouteComplete
  repeat' (first
    | with_reducible assumption | with_reducible apply withinNext_next | with_reducible apply within_routeEnd
    | with_reducible apply within_ite)
theorem within_execRouteWatchdog (sec : Sec) (s : State) (hs : Within μ s₀ s) (hm : Sub 1793620477 μ) :
    WithinNext μ s₀ (execRouteWatchdog sec s) := by
  unfold execRouteWatchdog
  repeat' (first
    | with_reducible assumption | exact subStep hm (by decide) | with_reducible apply withinNext_next
    | with_reducible apply within_healthEvent | with_reducible apply within_setFld | with_reducible apply within_routePast
    | with_reducible apply within_freeDraw | with_reducible apply within_routeFault | with_reducible apply within_ite
    | simp only [] | split)
/-! ### Optimizer -/

theorem within_writeScaleRow (s : State) (p : Nat) (g : Gate) (hs : Within μ s₀ s) (hm : Sub 134222008 μ) :
    Within μ s₀ (writeScaleRow s p g) := by
  unfold writeScaleRow
  repeat' (first
    | with_reducible assumption | with_reducible apply within_writeMem | with_reducible apply within_ite)
theorem within_clearNf (s : State) (c : Nat) (hs : Within μ s₀ s) (hm : Sub 8192 μ) : Within μ s₀ (clearNf s c) := by
  unfold clearNf
  repeat' (first
    | with_reducible assumption | with_reducible apply within_modCtx)
theorem within_setStamp (s : State) (p : Nat) (id : Nat) (step : Nat) (hs : Within μ s₀ s) (hm : Sub 65536 μ) :
    Within μ s₀ (setStamp s p id step) := by
  unfold setStamp
  repeat' (first
    | with_reducible assumption | with_reducible apply within_modTensor | with_reducible apply within_ite)
theorem within_setStamps (s : State) (p : Nat) (b : List Byte) (hs : Within μ s₀ s) (hm : Sub 65536 μ) : Within μ s₀ (setStamps s p b) := by
  unfold setStamps
  repeat' (first
    | with_reducible assumption | intro _ | with_reducible apply within_forEach | with_reducible apply within_setStamp)
theorem within_obeyGate (s : State) (sec : Nat) (j : Job) (g : Gate) (hs : Within μ s₀ s) (hm : Sub 8454144 μ) :
    Within μ s₀ (obeyGate s sec j g) := by
  unfold obeyGate
  repeat' (first
    | with_reducible assumption | exact subStep hm (by decide) | with_reducible apply within_putJob | with_reducible apply within_setStamps)
theorem within_gateDecisionOp (sec : Nat) (s : State) (hs : Within μ s₀ s) (hm : Sub 720075261 μ) : Within μ s₀ (gateDecisionOp sec s) := by
  unfold gateDecisionOp
  repeat' (first
    | with_reducible assumption | exact subStep hm (by decide) | with_reducible apply within_obeyGate
    | with_reducible apply within_endFault | with_reducible apply within_readMem | with_reducible apply within_writeScaleRow
    | with_reducible apply within_setGate | with_reducible apply within_clearNf | with_reducible apply within_ite
    | simp only [] | split)
theorem within_execGateDecision (sec : Sec) (s : State) (hs : Within μ s₀ s) (hm : Sub 720075261 μ) :
    WithinNext μ s₀ (execGateDecision sec s) := by
  unfold execGateDecision
  repeat' (first
    | with_reducible assumption | with_reducible apply withinNext_next | with_reducible apply within_gateDecisionOp)
theorem within_optTake (s : State) (sec : Nat) (hs : Within μ s₀ s) (hm : Sub 719878653 μ) : Within μ s₀ (optTake s sec) := by
  unfold optTake
  repeat' (first
    | with_reducible assumption | exact subStep hm (by decide) | with_reducible apply within_takeDesc
    | with_reducible apply within_endFault | with_reducible apply within_putJob | with_reducible apply within_ite
    | (with_reducible refine within_fst (by with_reducible assumption) ?_) | split)
theorem within_gateSnapshotRun (sec : Nat) (s : State) (hs : Within μ s₀ s) (hm : Sub 1793620477 μ) :
    Within μ s₀ (gateSnapshotRun sec s) := by
  unfold gateSnapshotRun
  repeat' (first
    | with_reducible assumption | exact subStep hm (by decide) | with_reducible apply within_endFault
    | with_reducible apply within_writeBytes | with_reducible apply within_endDone | with_reducible apply within_clearNf
    | with_reducible apply within_ite | simp only [] | split)
theorem within_execGateSnapshot (sec : Sec) (s : State) (hs : Within μ s₀ s) (hm : Sub 1793620477 μ) :
    WithinNext μ s₀ (execGateSnapshot sec s) := by
  unfold execGateSnapshot
  repeat' (first
    | with_reducible assumption | exact subStep hm (by decide) | with_reducible apply withinNext_next
    | with_reducible apply within_gateSnapshotRun | with_reducible apply within_optTake)
theorem within_optCount (s : State) (sec : Nat) (j : Job) (kept : Nat) (hs : Within μ s₀ s) (hm : Sub 131080 μ) :
    Within μ s₀ (optCount s sec j kept) := by
  unfold optCount
  repeat' (first
    | with_reducible assumption | exact subStep hm (by decide) | with_reducible apply within_bump | with_reducible apply within_modGate
    | with_reducible apply within_ite)
theorem within_optRun (sec : Nat) (s : State) (hs : Within μ s₀ s) (hm : Sub 1793751549 μ) : Within μ s₀ (optRun sec s) := by
  unfold optRun
  repeat' (first
    | with_reducible assumption | exact subStep hm (by decide) | with_reducible apply within_putJob | with_reducible apply within_bump
    | with_reducible apply within_endFault | with_reducible apply within_readAll | with_reducible apply within_freeDraw
    | with_reducible apply within_partialWrites | with_reducible apply within_optCount | with_reducible apply within_writeCells
    | with_reducible apply within_ite | simp only [] | split)
theorem within_execOptimizerUpdate (sec : Sec) (hits : List Hit) (s : State) (hs : Within μ s₀ s) (hm : Sub 1793751549 μ) :
    WithinNext μ s₀ (execOptimizerUpdate sec hits s) := by
  unfold execOptimizerUpdate
  repeat' (first
    | with_reducible assumption | exact subStep hm (by decide) | with_reducible apply withinNext_next
    | with_reducible apply within_optRun | with_reducible apply within_optTake | with_reducible apply within_upsetWords)
theorem within_optEnd (s : State) (sec : Nat) (j : Job) (hs : Within μ s₀ s) (hm : Sub 1793686013 μ) : Within μ s₀ (optEnd s sec j) := by
  unfold optEnd
  repeat' (first
    | with_reducible assumption | exact subStep hm (by decide) | with_reducible apply within_addNf | with_reducible apply within_applyDeltas
    | with_reducible apply within_poisonTensors | with_reducible apply within_setStamps | with_reducible apply within_endDone
    | with_reducible apply within_ite)
theorem within_optComplete (sec : Nat) (s : State) (hs : Within μ s₀ s) (hm : Sub 1793686013 μ) : Within μ s₀ (optComplete sec s) := by
  unfold optComplete
  repeat' (first
    | with_reducible assumption | with_reducible apply within_optEnd | with_reducible apply within_ite
    | split)
theorem within_execOptimizerComplete (sec : Sec) (s : State) (hs : Within μ s₀ s) (hm : Sub 1793686013 μ) :
    WithinNext μ s₀ (execOptimizerComplete sec s) := by
  unfold execOptimizerComplete
  repeat' (first
    | with_reducible assumption | with_reducible apply withinNext_next | with_reducible apply within_optComplete)
theorem within_execOptimizerWatchdog (sec : Sec) (s : State) (hs : Within μ s₀ s) (hm : Sub 1793620477 μ) :
    WithinNext μ s₀ (execOptimizerWatchdog sec s) := by
  unfold execOptimizerWatchdog
  repeat' (first
    | with_reducible assumption | exact subStep hm (by decide) | with_reducible apply withinNext_next
    | with_reducible apply within_engineWatchdog | with_reducible apply within_partialWrites | with_reducible apply within_ite
    | simp only [] | split)
/-! ### Collective -/

theorem within_peerPlace (s : State) (hs : Within μ s₀ s) (hm : Sub 1073741824 μ) : Within μ s₀ (peerPlace s).1 := by
  unfold peerPlace
  repeat' (first
    | with_reducible assumption | with_reducible apply within_freeDraw)
theorem within_collWrite (s : State) (l : Nat) (ctx : Nat) (epoch : Nat) (w : PeerPlace) (skip : Nat) (data : List Byte) (add : Nat) (hs : Within μ s₀ s) (hm : Sub 570429448 μ) :
    Within μ s₀ (collWrite s l ctx epoch w skip data add) := by
  unfold collWrite
  repeat' (first
    | with_reducible assumption | with_reducible apply within_sendMsgs)
theorem within_routeChunk (s : State) (e : CEnv) (c : StagedChunk) (hs : Within μ s₀ s) (hm : Sub 1645219848 μ) :
    Within μ s₀ (routeChunk s e c) := by
  unfold routeChunk
  repeat' (first
    | with_reducible assumption | exact subStep hm (by decide) | with_reducible apply within_bump | with_reducible apply within_peerPlace
    | with_reducible apply within_collWrite | with_reducible apply within_addOpenCause | with_reducible apply within_modComm
    | with_reducible apply within_ite | simp only [] | split)
theorem within_pumpChunks (s : State) (e : CEnv) (l : List StagedChunk) (hs : Within μ s₀ s) (hm : Sub 1645219848 μ) :
    Within μ s₀ (pumpChunks s e l).1 := by
  unfold pumpChunks
  repeat' (first
    | with_reducible assumption | exact subStep hm (by decide) | intro _ | with_reducible apply within_modComm
    | with_reducible apply within_routeChunk | with_reducible apply within_foldlFst | simp only [] | split)
theorem within_returnSlot (s : State) (e : CEnv) (table : Nat) (peer : Nat) (hs : Within μ s₀ s) (hm : Sub 1645219848 μ) :
    Within μ s₀ (returnSlot s e table peer) := by
  unfold returnSlot
  repeat' (first
    | with_reducible assumption | exact subStep hm (by decide) | with_reducible apply within_peerPlace
    | with_reducible apply within_collWrite | with_reducible apply within_modComm | with_reducible apply within_ite
    | simp only [] | split)
theorem within_fillSlot (s : State) (x : Comm) (c : StagedSlot) (k : StagedChunk) (hs : Within μ s₀ s) (hm : Sub 134222008 μ) :
    Within μ s₀ (fillSlot s x c k) := by
  unfold fillSlot
  repeat' (first
    | with_reducible assumption | with_reducible apply within_storeBytes)
theorem within_readSlot (s : State) (x : Comm) (c : StagedSlot) (hs : Within μ s₀ s) (hm : Sub 134222008 μ) :
    Within μ s₀ (readSlot s x c).1 := by
  unfold readSlot
  repeat' (first
    | with_reducible assumption | with_reducible apply within_readMem)
theorem within_readSlots (s : State) (x : Comm) (l : List StagedSlot) (hs : Within μ s₀ s) (hm : Sub 134222008 μ) :
    Within μ s₀ (readSlots s x l).1 := by
  unfold readSlots
  repeat' (first
    | with_reducible assumption | intro _ | with_reducible apply within_readSlot | with_reducible apply within_foldlFst)
theorem within_takeChunk (s : State) (e : CEnv) (c : StagedSlot) (n : Nat) (hs : Within μ s₀ s) (hm : Sub 1645219848 μ) :
    Within μ s₀ (takeChunk s e c n) := by
  unfold takeChunk
  repeat' (first
    | with_reducible assumption | exact subStep hm (by decide) | with_reducible apply within_modComm | with_reducible apply within_returnSlot
    | with_reducible apply within_bump)
theorem within_checkStamp (s : State) (e : CEnv) (o : Nat) (stamp : Nat) (hs : Within μ s₀ s) (hm : Sub 131096 μ) :
    Within μ s₀ (checkStamp s e o stamp) := by
  unfold checkStamp
  repeat' (first
    | with_reducible assumption | exact subStep hm (by decide) | with_reducible apply within_writeBytes
    | with_reducible apply within_bump | with_reducible apply within_modGate | with_reducible apply within_ite)
theorem within_storeReduced (a : CStep) (e : CEnv) (pos : Nat) (first : Nat) (vs : List Val) (no : Nat) (ha : Within μ s₀ a.s) (hm : Sub 16 μ) :
    Within μ s₀ (storeReduced a e pos first vs no).s := by
  unfold storeReduced
  repeat' (first
    | with_reducible assumption | with_reducible apply within_writeCells | with_reducible apply within_iteC)
theorem within_storeMoved (a : CStep) (e : CEnv) (k : CChunk) (pos : Nat) (skip : Nat) (n : Nat) (data : List Byte) (ha : Within μ s₀ a.s) (hm : Sub 16 μ) :
    Within μ s₀ (storeMoved a e k pos skip n data).s := by
  unfold storeMoved
  repeat' (first
    | with_reducible assumption | with_reducible apply within_writeCells | with_reducible apply within_iteC)
theorem within_deliver (a : CStep) (e : CEnv) (st : CStage) (k : CChunk) (stamp : Nat) (data : List Byte) (ha : Within μ s₀ a.s) (hm : Sub 196632 μ) :
    Within μ s₀ (deliver a e st k stamp data).s := by
  unfold deliver
  repeat' (first
    | with_reducible assumption | exact subStep hm (by decide) | with_reducible apply within_storeMoved
    | with_reducible apply within_setStamp | with_reducible apply within_storeReduced | with_reducible apply within_checkStamp
    | with_reducible apply within_iteC | simp only [] | split)
theorem within_storeWhole (a : CStep) (e : CEnv) (st : CStage) (ha : Within μ s₀ a.s) (hm : Sub 16 μ) :
    Within μ s₀ (storeWhole a e st).s := by
  unfold storeWhole
  repeat' (first
    | with_reducible assumption | with_reducible apply within_storeReduced | with_reducible apply within_iteC)
theorem within_sendChunk (a : CStep) (e : CEnv) (st : CStage) (k : CChunk) (stamp : Nat) (phase : Nat) (peer : Nat) (data : List Byte) (ha : Within μ s₀ a.s) (hm : Sub 0 μ) :
    Within μ s₀ (sendChunk a e st k stamp phase peer data).s := by
  unfold sendChunk
  repeat' (first
    | with_reducible assumption)
theorem within_goDownWith (a : CStep) (e : CEnv) (st : CStage) (k : CChunk) (stamp : Nat) (from_ : List Nat) (data : List Byte) (ha : Within μ s₀ a.s) (hm : Sub 196632 μ) :
    Within μ s₀ (goDownWith a e st k stamp from_ data).s := by
  unfold goDownWith
  repeat' (first
    | with_reducible assumption | exact subStep hm (by decide) | intro _ | with_reducible apply within_sendChunk
    | with_reducible apply within_deliver | with_reducible apply within_foldlC | with_reducible apply within_iteC)
theorem within_upAction (a : CStep) (e : CEnv) (st : CStage) (k : CChunk) (from_ : List Nat) (child : List StagedChunk) (ha : Within μ s₀ a.s) (hm : Sub 196632 μ) :
    Within μ s₀ (upAction a e st k from_ child).s := by
  unfold upAction
  repeat' (first
    | with_reducible assumption | exact subStep hm (by decide) | with_reducible apply within_sendChunk
    | with_reducible apply within_goDownWith | with_reducible apply within_iteC | simp only [] | split)
theorem within_tryUp {a b : CStep} {e : CEnv} {st : CStage} {t : Nat} (ha : Within μ s₀ a.s) (h : tryUp a e st t = some b) (hm : Sub 1779634360 μ) :
    Within μ s₀ b.s := by
  unfold tryUp at h
  split at h
  · cases h
  · dsimp only at h
    split at h
    · cases h
    · have h2 := fun l => within_readSlots a.s e.x l ha (subStep hm (by decide))
      split at h
      · cases h; exact h2 _
      · cases h; exact h2 _
      · cases h
        exact within_upAction _ _ _ _ _ _ (within_foldl (h2 _) (fun t c ht => within_takeChunk t _ _ _ ht (subStep hm (by decide)))) (subStep hm (by decide))
theorem within_tryDown {a b : CStep} {e : CEnv} {st : CStage} {t : Nat} (ha : Within μ s₀ a.s) (h : tryDown a e st t = some b) (hm : Sub 1779634360 μ) :
    Within μ s₀ b.s := by
  unfold tryDown at h
  split at h
  · cases h
  · split at h
    · cases h
    · next slot _ =>
      split at h
      · cases h
      · have h2 := within_readSlot a.s e.x slot ha (subStep hm (by decide))
        dsimp only at h
        split at h
        · cases h; exact h2
        · cases h; exact h2
        · cases h; exact within_goDownWith _ _ _ _ _ _ _ (within_takeChunk _ _ _ _ h2 (subStep hm (by decide))) (subStep hm (by decide))
theorem within_collLoop (e : CEnv) (n : Nat) (a : CStep) (ha : Within μ s₀ a.s) (hm : Sub 1779634360 μ) :
    Within μ s₀ (collLoop e n a).s := by
  induction n generalizing a with
  | zero => exact ha
  | succ n ih =>
    unfold collLoop
    split
    · exact ha
    · split
      · exact ha
      · split
        · exact ih _ (within_storeWhole _ _ _ ha (subStep hm (by decide)))
        · split
          · next h =>
            obtain ⟨t, _, ht⟩ := List.exists_of_findSome?_eq_some h
            refine ih _ ?_
            cases hu : tryUp a e _ t with
            | some x => rw [hu] at ht; cases ht; exact within_tryUp ha hu (subStep hm (by decide))
            | none => rw [hu] at ht; exact within_tryDown ha ht (subStep hm (by decide))
          · exact ha
theorem within_collUnhold (s : State) (sec : Nat) (p : Nat) (hs : Within μ s₀ s) (hm : Sub 4096 μ) : Within μ s₀ (collUnhold s sec p) := by
  unfold collUnhold
  repeat' (first
    | with_reducible assumption | with_reducible apply within_dropCauses)
theorem within_collStop (s : State) (sec : Nat) (j : Job) (hs : Within μ s₀ s) (hm : Sub 679555576 μ) : Within μ s₀ (collStop s sec j) := by
  unfold collStop
  repeat' (first
    | with_reducible assumption | exact subStep hm (by decide) | with_reducible apply within_endStopped
    | with_reducible apply within_addNf | with_reducible apply within_applyDeltas | with_reducible apply within_collUnhold)
theorem within_collFault (s : State) (sec : Nat) (j : Job) (cause : Nat) (no : Nat) (poison : Bool) (hs : Within μ s₀ s) (hm : Sub 719944189 μ) :
    Within μ s₀ (collFault s sec j cause no poison) := by
  unfold collFault
  repeat' (first
    | with_reducible assumption | exact subStep hm (by decide) | with_reducible apply within_setRaw | with_reducible apply within_endFault
    | with_reducible apply within_addNf | with_reducible apply within_applyDeltas | with_reducible apply within_collUnhold
    | with_reducible apply within_ite)
theorem within_collWait (s : State) (sec : Nat) (e : CEnv) (j : Job) (hs : Within μ s₀ s) (hm : Sub 8392704 μ) :
    Within μ s₀ (collWait s sec e j) := by
  unfold collWait
  repeat' (first
    | with_reducible assumption | exact subStep hm (by decide) | with_reducible apply within_addOpenCause
    | with_reducible apply within_collUnhold | with_reducible apply within_putJob | with_reducible apply within_ite)
theorem within_collRun (s : State) (sec : Nat) (hs : Within μ s₀ s) (hm : Sub 1794865661 μ) : Within μ s₀ (collRun s sec) := by
  unfold collRun
  repeat' (first
    | with_reducible assumption | exact subStep hm (by decide) | with_reducible apply within_collLoop
    | with_reducible apply within_collFault | with_reducible apply within_pumpChunks | with_reducible apply within_putJob
    | with_reducible apply within_collUnhold | with_reducible apply within_collWait | with_reducible apply within_ite
    | simp only [] | split)
theorem within_collProgress (s : State) (sec : Nat) (hs : Within μ s₀ s) (hm : Sub 1794865661 μ) : Within μ s₀ (collProgress s sec) := by
  unfold collProgress
  repeat' (first
    | with_reducible assumption | exact subStep hm (by decide) | with_reducible apply within_collRun | with_reducible apply within_collUnhold
    | with_reducible apply within_ite | simp only [] | split)
theorem within_collResume (s : State) (hs : Within μ s₀ s) (hm : Sub 1794865661 μ) : Within μ s₀ (collResume s) := by
  unfold collResume
  repeat' (first
    | with_reducible assumption | intro _ | with_reducible apply within_forEach | with_reducible apply within_collProgress
    | with_reducible apply within_ite | split)
theorem within_collDescriptorOp (sec : Nat) (s : State) (hs : Within μ s₀ s) (hm : Sub 1794865661 μ) :
    Within μ s₀ (collDescriptorOp sec s) := by
  unfold collDescriptorOp
  repeat' (first
    | with_reducible assumption | exact subStep hm (by decide) | with_reducible apply within_takeDesc
    | with_reducible apply within_endStopped | with_reducible apply within_bump | with_reducible apply within_modComm
    | with_reducible apply within_collFault | with_reducible apply within_readAll | with_reducible apply within_checkStamp
    | with_reducible apply within_collProgress | with_reducible apply within_putJob | with_reducible apply within_ite
    | (with_reducible refine within_fst (by with_reducible assumption) ?_) | simp only [] | split)
theorem within_execCollectiveDescriptor (sec : Sec) (hits : List Hit) (s : State) (hs : Within μ s₀ s) (hm : Sub 1794865661 μ) :
    WithinNext μ s₀ (execCollectiveDescriptor sec hits s) := by
  unfold execCollectiveDescriptor
  repeat' (first
    | with_reducible assumption | exact subStep hm (by decide) | with_reducible apply withinNext_next
    | with_reducible apply within_collDescriptorOp | with_reducible apply within_upsetWords)
theorem within_chunkArrivalOp (sec : Nat) (k : Nat) (table : Nat) (peer : Nat) (s : State) (hs : Within μ s₀ s) (hm : Sub 1794865661 μ) :
    Within μ s₀ (chunkArrivalOp sec k table peer s) := by
  unfold chunkArrivalOp
  repeat' (first
    | with_reducible assumption | exact subStep hm (by decide) | with_reducible apply within_collProgress
    | with_reducible apply within_setComm | with_reducible apply within_fillSlot | with_reducible apply within_tallyAddOp
    | with_reducible apply within_ite | simp only [] | split)
theorem within_execChunkArrival (sec : Sec) (comm : Fin 64) (tree : Fin 8) (peer : Peer) (headerHits dataHits : List Hit) (s : State) (hs : Within μ s₀ s) (hm : Sub 1794865661 μ) :
    WithinNext μ s₀ (execChunkArrival sec comm tree peer headerHits dataHits s) := by
  unfold execChunkArrival
  repeat' (first
    | with_reducible assumption | exact subStep hm (by decide) | with_reducible apply withinNext_next
    | with_reducible apply within_chunkArrivalOp | with_reducible apply within_upsetWords)
theorem within_chunkCreditOp (sec : Nat) (k : Nat) (table : Nat) (peer : Nat) (s : State) (hs : Within μ s₀ s) (hm : Sub 1794865661 μ) :
    Within μ s₀ (chunkCreditOp sec k table peer s) := by
  unfold chunkCreditOp
  repeat' (first
    | with_reducible assumption | exact subStep hm (by decide) | with_reducible apply within_collProgress
    | with_reducible apply within_setComm | with_reducible apply within_tallyAddOp | with_reducible apply within_ite)
theorem within_execChunkCreditReturn (sec : Sec) (comm : Fin 64) (tree : Fin 8) (peer : Peer) (s : State) (hs : Within μ s₀ s) (hm : Sub 1794865661 μ) :
    WithinNext μ s₀ (execChunkCreditReturn sec comm tree peer s) := by
  unfold execChunkCreditReturn
  repeat' (first
    | with_reducible assumption | with_reducible apply withinNext_next | with_reducible apply within_chunkCreditOp)
theorem within_collEnd (s : State) (sec : Nat) (j : Job) (hs : Within μ s₀ s) (hm : Sub 1793686013 μ) : Within μ s₀ (collEnd s sec j) := by
  unfold collEnd
  repeat' (first
    | with_reducible assumption | exact subStep hm (by decide) | intro _ | with_reducible apply within_storeBytes
    | with_reducible apply within_poisonTensors | with_reducible apply within_addNf | with_reducible apply within_applyDeltas
    | with_reducible apply within_endCounted | with_reducible apply within_bump | with_reducible apply within_ite)
theorem within_collCompleteOp (sec : Nat) (s : State) (hs : Within μ s₀ s) (hm : Sub 1793686013 μ) :
    Within μ s₀ (collCompleteOp sec s) := by
  unfold collCompleteOp
  repeat' (first
    | with_reducible assumption | with_reducible apply within_collEnd | with_reducible apply within_ite
    | split)
theorem within_execCollectiveComplete (sec : Sec) (s : State) (hs : Within μ s₀ s) (hm : Sub 1793686013 μ) :
    WithinNext μ s₀ (execCollectiveComplete sec s) := by
  unfold execCollectiveComplete
  repeat' (first
    | with_reducible assumption | with_reducible apply withinNext_next | with_reducible apply within_collCompleteOp)
theorem within_staleComms (s : State) (g : Nat) (hs : Within μ s₀ s) (hm : Sub 680604152 μ) : Within μ s₀ (staleComms s g) := by
  unfold staleComms
  repeat' (first
    | with_reducible assumption | exact subStep hm (by decide) | intro _ | with_reducible apply within_forEach
    | with_reducible apply within_modComm | with_reducible apply within_collStop | with_reducible apply within_bump
    | with_reducible apply within_ite | simp only [] | split)
theorem within_execCollWaitReport (sec : Sec) (s : State) (hs : Within μ s₀ s) (hm : Sub 8388744 μ) :
    WithinNext μ s₀ (execCollWaitReport sec s) := by
  unfold execCollWaitReport
  repeat' (first
    | with_reducible assumption | exact subStep hm (by decide) | with_reducible apply withinNext_next
    | with_reducible apply within_postWait | with_reducible apply within_putJob | with_reducible apply within_bump
    | with_reducible apply within_ite | split)
theorem within_execWaitTimeout (site : WaitSite) (s : State) (hs : Within μ s₀ s) (hm : Sub 719944189 μ) :
    WithinNext μ s₀ (execWaitTimeout site s) := by
  unfold execWaitTimeout
  repeat' (first
    | with_reducible assumption | exact subStep hm (by decide) | with_reducible apply withinNext_next
    | with_reducible apply within_tileWaitTimeout | with_reducible apply within_collFault | with_reducible apply within_bump
    | with_reducible apply within_ctxFault | split)
/-! ### Teardown -/

theorem within_endJob (s : State) (kind : Nat) (unit : Nat) (j : Job) (hs : Within μ s₀ s) (hm : Sub 1793686013 μ) :
    Within μ s₀ (endJob s kind unit j) := by
  unfold endJob
  repeat' (first
    | with_reducible assumption | exact subStep hm (by decide) | with_reducible apply within_collEnd | with_reducible apply within_optEnd
    | with_reducible apply within_endDone | split)
theorem within_stopJob (s : State) (kind : Nat) (unit : Nat) (hs : Within μ s₀ s) (hm : Sub 1793686013 μ) :
    Within μ s₀ (stopJob s kind unit) := by
  unfold stopJob
  repeat' (first
    | with_reducible assumption | exact subStep hm (by decide) | with_reducible apply within_dropCauses
    | with_reducible apply within_endStopped | with_reducible apply within_dropUnsent | with_reducible apply within_endJob
    | with_reducible apply within_collStop | with_reducible apply within_ite | simp only [] | split)
theorem within_endPast (s : State) (k : Nat) (f : Job → Bool) (hs : Within μ s₀ s) (hm : Sub 1793686013 μ) :
    Within μ s₀ (endPast s k f) := by
  unfold endPast
  repeat' (first
    | with_reducible assumption | intro _ | with_reducible apply within_forEach | with_reducible apply within_routeEnd)
theorem within_stopJobs (s : State) (f : Job → Bool) (hs : Within μ s₀ s) (hm : Sub 1793686013 μ) : Within μ s₀ (stopJobs s f) := by
  unfold stopJobs
  repeat' (first
    | with_reducible assumption | intro _ | with_reducible apply within_forEach | with_reducible apply within_endPast
    | with_reducible apply within_stopJob)
theorem within_restoreHome (s : State) (m : Model) (hs : Within μ s₀ s) (hm : Sub 65536 μ) : Within μ s₀ (restoreHome s m) := by
  unfold restoreHome
  repeat' (first
    | with_reducible assumption | intro _ | with_reducible apply within_forEach | with_reducible apply within_modTensor)
theorem within_beginEvict (s : State) (k : Nat) (hs : Within μ s₀ s) (hm : Sub 327680 μ) : Within μ s₀ (beginEvict s k) := by
  unfold beginEvict
  repeat' (first
    | with_reducible assumption | exact subStep hm (by decide) | with_reducible apply within_restoreHome
    | with_reducible apply within_setModel | with_reducible apply within_ite)
theorem within_freeUnits (s : State) (k : Nat) (hs : Within μ s₀ s) (hm : Sub 262144 μ) : Within μ s₀ (freeUnits s k) := by
  unfold freeUnits
  repeat' (first
    | with_reducible assumption | with_reducible apply within_setModel)
theorem within_breakModels (s : State) (p : Nat) (hs : Within μ s₀ s) (hm : Sub 327680 μ) : Within μ s₀ (breakModels s p) := by
  unfold breakModels
  repeat' (first
    | with_reducible assumption | exact subStep hm (by decide) | intro _ | with_reducible apply within_forEach
    | with_reducible apply within_beginEvict | with_reducible apply within_setModel | with_reducible apply within_ite)
theorem within_destroyModels (s : State) (p : Nat) (hs : Within μ s₀ s) (hm : Sub 262144 μ) : Within μ s₀ (destroyModels s p) := by
  unfold destroyModels
  repeat' (first
    | with_reducible assumption | intro _ | with_reducible apply within_forEach | with_reducible apply within_setModel)
theorem within_restoreCtxTensors (s : State) (p : Nat) (c : Nat) (hs : Within μ s₀ s) (hm : Sub 327680 μ) :
    Within μ s₀ (restoreCtxTensors s p c) := by
  unfold restoreCtxTensors
  repeat' (first
    | with_reducible assumption | intro _ | with_reducible apply within_forEach | with_reducible apply within_beginEvict
    | with_reducible apply within_ite)
theorem within_destroyObjects (s : State) (c : Nat) (hs : Within μ s₀ s) (hm : Sub 7853312 μ) : Within μ s₀ (destroyObjects s c) := by
  unfold destroyObjects
  repeat' (first
    | with_reducible assumption | exact subStep hm (by decide) | (refine Agree.mk (fun a ha => ?_); cases a <;> first | exact noBit (by decide) hm ha | rfl)
    | intro _ | with_reducible apply within_restoreCtxTensors | with_reducible apply within_forEach | with_reducible apply within_setQueue
    | with_reducible apply within_setSlot | with_reducible apply within_modCore | with_reducible apply within_pruneTokens
    | with_reducible apply within_breakModels | with_reducible apply within_ite | (simp only [within_mk]; with_reducible refine withinMk ?_ ?_))
theorem within_lateArrivals (s : State) (hs : Within μ s₀ s) (hm : Sub 1073741832 μ) : Within μ s₀ (lateArrivals s) := by
  unfold lateArrivals
  repeat' (first
    | with_reducible assumption | exact subStep hm (by decide) | with_reducible apply within_freeDraw | with_reducible apply within_bump)
theorem within_teardownCtx (s : State) (c : Nat) (hs : Within μ s₀ s) (hm : Sub 1795162109 μ) : Within μ s₀ (teardownCtx s c) := by
  unfold teardownCtx
  repeat' (first
    | with_reducible assumption | exact subStep hm (by decide) | with_reducible apply within_abandonTallies
    | with_reducible apply within_stopJobs | with_reducible apply within_publishLaunches | with_reducible apply within_destroyObjects
    | with_reducible apply within_modCtx | with_reducible apply within_settle | with_reducible apply within_bump
    | with_reducible apply within_lateArrivals)
theorem within_contextTeardownOp (c : Nat) (s : State) (hs : Within μ s₀ s) (hm : Sub 1795162109 μ) :
    Within μ s₀ (contextTeardownOp c s) := by
  unfold contextTeardownOp
  repeat' (first
    | with_reducible assumption | with_reducible apply within_teardownCtx | with_reducible apply within_ite)
theorem within_execContextTeardown (ctx : CtxId) (s : State) (hs : Within μ s₀ s) (hm : Sub 1795162109 μ) :
    WithinNext μ s₀ (execContextTeardown ctx s) := by
  unfold execContextTeardown
  repeat' (first
    | with_reducible assumption | with_reducible apply withinNext_next | with_reducible apply within_contextTeardownOp)
theorem within_partAdvance (s : State) (p : Nat) (hs : Within μ s₀ s) (hm : Sub 4096 μ) : Within μ s₀ (partAdvance s p) := by
  unfold partAdvance
  repeat' (first
    | with_reducible assumption | with_reducible apply within_modPart | with_reducible apply within_ite)
theorem within_freeCtx (s : State) (c : Nat) (hs : Within μ s₀ s) (hm : Sub 671118328 μ) : Within μ s₀ (freeCtx s c) := by
  unfold freeCtx
  repeat' (first
    | with_reducible assumption | exact subStep hm (by decide) | (refine Agree.mk (fun a ha => ?_); cases a <;> first | exact noBit (by decide) hm ha | rfl)
    | with_reducible apply within_setCtx | with_reducible apply within_settle | with_reducible apply within_partAdvance
    | (simp only [within_mk]; with_reducible refine withinMk ?_ ?_))
theorem within_execDrainTimerExpiry (ctx : CtxId) (s : State) (hs : Within μ s₀ s) (hm : Sub 671118328 μ) :
    WithinNext μ s₀ (execDrainTimerExpiry ctx s) := by
  unfold execDrainTimerExpiry
  repeat' (first
    | with_reducible assumption | with_reducible apply withinNext_next | with_reducible apply within_freeCtx
    | with_reducible apply within_ite)
theorem within_partResetOp (s : State) (p : Nat) (hs : Within μ s₀ s) (hm : Sub 167186616 μ) : Within μ s₀ (partResetOp s p) := by
  unfold partResetOp
  repeat' (first
    | with_reducible assumption | exact subStep hm (by decide) | (refine Agree.mk (fun a ha => ?_); cases a <;> first | exact noBit (by decide) hm ha | rfl)
    | intro _ | with_reducible apply within_flushPart | with_reducible apply within_forEach | with_reducible apply within_clearLoam
    | with_reducible apply within_resetSectionRegs | with_reducible apply within_clearUnits | with_reducible apply within_clearRegs
    | with_reducible apply within_destroyModels | with_reducible apply within_modPart | with_reducible apply within_bump
    | (simp only [within_mk]; with_reducible refine withinMk ?_ ?_))
theorem within_releaseFns (s : State) (p : Nat) (hs : Within μ s₀ s) (hm : Sub 128 μ) : Within μ s₀ (releaseFns s p) := by
  unfold releaseFns
  repeat' (first
    | with_reducible assumption | intro _ | with_reducible apply within_forEach | with_reducible apply within_modFn)
theorem within_freePart (s : State) (p : Nat) (hs : Within μ s₀ s) (hm : Sub 671102968 μ) : Within μ s₀ (freePart s p) := by
  unfold freePart
  repeat' (first
    | with_reducible assumption | exact subStep hm (by decide) | with_reducible apply within_settle | with_reducible apply within_pruneTokens
    | with_reducible apply within_releaseFns | with_reducible apply within_setPart)
theorem within_partitionResetDoneOp (p : Nat) (s : State) (hs : Within μ s₀ s) (hm : Sub 704067577 μ) :
    Within μ s₀ (partitionResetDoneOp p s) := by
  unfold partitionResetDoneOp
  repeat' (first
    | with_reducible assumption | exact subStep hm (by decide) | with_reducible apply within_partResetOp
    | with_reducible apply within_modPart | with_reducible apply within_startAutumn | with_reducible apply within_freePart
    | with_reducible apply within_settle | with_reducible apply within_ite | simp only [] | split)
theorem within_execPartitionResetDone (p : PartId) (s : State) (hs : Within μ s₀ s) (hm : Sub 704067577 μ) :
    WithinNext μ s₀ (execPartitionResetDone p s) := by
  unfold execPartitionResetDone
  repeat' (first
    | with_reducible assumption | with_reducible apply withinNext_next | with_reducible apply within_partitionResetDoneOp)
theorem within_appendHandover (s : State) (r : List Byte) (hs : Within μ s₀ s) (hm : Sub 4 μ) : Within μ s₀ (appendHandover s r) := by
  unfold appendHandover
  repeat' (first
    | with_reducible assumption | (refine Agree.mk (fun a ha => ?_); cases a <;> first | exact noBit (by decide) hm ha | rfl)
    | (simp only [within_mk]; with_reducible refine withinMk ?_ ?_))
theorem within_scrubPart (s : State) (p : Nat) (hs : Within μ s₀ s) (hm : Sub 199229488 μ) : Within μ s₀ (scrubPart s p) := by
  unfold scrubPart
  repeat' (first
    | with_reducible assumption | exact subStep hm (by decide) | intro _ | with_reducible apply within_forEach
    | with_reducible apply within_clearUnits | with_reducible apply within_clearLoam | with_reducible apply within_clearHbm
    | with_reducible apply within_modLink)
theorem within_scrubCompleteOp (p : Nat) (s : State) (hs : Within μ s₀ s) (hm : Sub 736376828 μ) : Within μ s₀ (scrubCompleteOp p s) := by
  unfold scrubCompleteOp
  repeat' (first
    | with_reducible assumption | exact subStep hm (by decide) | (refine Agree.mk (fun a ha => ?_); cases a <;> first | exact noBit (by decide) hm ha | rfl)
    | with_reducible apply within_scrubPart | with_reducible apply within_freePart | with_reducible apply within_appendHandover
    | with_reducible apply within_destroyModels | with_reducible apply within_releaseFns | with_reducible apply within_settle
    | with_reducible apply within_modPart | with_reducible apply within_ite | (simp only [within_mk]; with_reducible refine withinMk ?_ ?_))
theorem within_execScrubComplete (p : PartId) (s : State) (hs : Within μ s₀ s) (hm : Sub 736376828 μ) :
    WithinNext μ s₀ (execScrubComplete p s) := by
  unfold execScrubComplete
  repeat' (first
    | with_reducible assumption | with_reducible apply withinNext_next | with_reducible apply within_scrubCompleteOp)
theorem within_partitionFatalOp (sec : Nat) (cause : PartFatal) (s : State) (hs : Within μ s₀ s) (hm : Sub 711490045 μ) :
    Within μ s₀ (partitionFatalOp sec cause s) := by
  unfold partitionFatalOp
  repeat' (first
    | with_reducible assumption | exact subStep hm (by decide) | with_reducible apply within_modPart | with_reducible apply within_setFltLast
    | with_reducible apply within_escalatePart | with_reducible apply within_beginPartReset | with_reducible apply within_ite
    | simp only [] | split)
theorem within_execPartitionFatal (sec : Sec) (cause : PartFatal) (s : State) (hs : Within μ s₀ s) (hm : Sub 711490045 μ) :
    WithinNext μ s₀ (execPartitionFatal sec cause s) := by
  unfold execPartitionFatal
  repeat' (first
    | with_reducible assumption | with_reducible apply withinNext_next | with_reducible apply within_partitionFatalOp)
theorem within_closeQueue (s : State) (q : Nat) (hs : Within μ s₀ s) (hm : Sub 1408 μ) : Within μ s₀ (closeQueue s q) := by
  unfold closeQueue
  repeat' (first
    | with_reducible assumption | exact subStep hm (by decide) | with_reducible apply within_pruneTokens
    | with_reducible apply within_modFn | with_reducible apply within_setQueue | with_reducible apply within_ite)
theorem within_queueDrainEndOp (q : Nat) (s : State) (hs : Within μ s₀ s) (hm : Sub 1793687549 μ) : Within μ s₀ (queueDrainEndOp q s) := by
  unfold queueDrainEndOp
  repeat' (first
    | with_reducible assumption | exact subStep hm (by decide) | with_reducible apply within_flushQueue
    | with_reducible apply within_stopJobs | with_reducible apply within_modQueue | with_reducible apply within_settle
    | with_reducible apply within_closeQueue | with_reducible apply within_ite)
theorem within_execQueueDrainEnd (q : QueueId) (s : State) (hs : Within μ s₀ s) (hm : Sub 1793687549 μ) :
    WithinNext μ s₀ (execQueueDrainEnd q s) := by
  unfold execQueueDrainEnd
  repeat' (first
    | with_reducible assumption | with_reducible apply withinNext_next | with_reducible apply within_queueDrainEndOp)

end Sys2Proof.Machine
end

