-- ==== Sys2Proof/Laws/WithinObjects.lean ====
section
/-! SUPPORT. Sessions, the clock, HBM, and the commands on partitions, contexts, programs and tensors: the areas they may change. -/

set_option maxRecDepth 4000
set_option linter.unusedSimpArgs false
set_option linter.unusedVariables false

namespace Sys2Proof.Machine

variable {μ : Nat} {s₀ : State}

/-! ### CmdSession -/

theorem within_okWith (result : Nat) (s : State) (hs : Within μ s₀ s) (hm : Sub 0 μ) : Within μ s₀ (okWith result s).state := by
  unfold okWith
  repeat' (first
    | with_reducible assumption | with_reducible apply within_done)
theorem within_tdiError (s : State) (f : Nat) (hs : Within μ s₀ s) (hm : Sub 677386744 μ) : Within μ s₀ (tdiError s f) := by
  unfold tdiError
  repeat' (first
    | with_reducible assumption | exact subStep hm (by decide) | with_reducible apply within_stopFnQueues
    | with_reducible apply within_modFn)
theorem within_guardTdi (c : Cmd) (s : State) (f : Nat) (o : CmdOut) (hs : Within μ s₀ s) (ho : Within μ s₀ o.state) (hm : Sub 677386744 μ) :
    Within μ s₀ (guardTdi c s f o).state := by
  unfold guardTdi
  repeat' (first
    | with_reducible assumption | with_reducible apply within_done | with_reducible apply within_tdiError
    | with_reducible apply within_iteOut)
theorem within_fillRing (s : State) (q : Nat) (hs : Within μ s₀ s) (hm : Sub 134222072 μ) : Within μ s₀ (fillRing s q) := by
  unfold fillRing
  repeat' (first
    | with_reducible assumption | intro _ | with_reducible apply within_forEach | with_reducible apply within_writeArg
    | simp only [] | split)
theorem within_makeQueue {s t : State} {x : Queue} {q : Nat} (hs : Within μ s₀ s) (e : makeQueue s x = some (q, t)) (hm : Sub 1207964152 μ) :
    Within μ s₀ t := by
  unfold makeQueue at e
  split at e
  · cases e
  · split at e
    · cases e
    · simp only [Option.some.injEq, Prod.mk.injEq] at e
      obtain ⟨rfl, rfl⟩ := e
      exact within_fillRing _ _ (within_setQueue _ _ _ (within_pickIndex (within_pickIndex hs (by assumption) (subStep hm (by decide))) (by assumption) (subStep hm (by decide))) (subStep hm (by decide))) (subStep hm (by decide))
theorem within_effectHello (c : Cmd) (s : State) (hs : Within μ s₀ s) (hm : Sub 128 μ) : Within μ s₀ (effectHello c s).state := by
  unfold effectHello
  repeat' (first
    | with_reducible assumption | exact subStep hm (by decide) | with_reducible apply within_okWith | with_reducible apply within_modFn)
theorem within_execHello (rq : Req) (arg : BitVec 48) (s : State) (hs : Within μ s₀ s) (hm : Sub 671102968 μ) :
    WithinNext μ s₀ (execHello rq arg s) := by
  unfold execHello
  repeat' (first
    | with_reducible assumption | exact subStep hm (by decide) | intro _ | with_reducible apply withinNext_next
    | with_reducible apply within_runRow | with_reducible apply within_effectHello)
theorem within_effectBye (c : Cmd) (s : State) (hs : Within μ s₀ s) (hm : Sub 128 μ) : Within μ s₀ (effectBye c s).state := by
  unfold effectBye
  repeat' (first
    | with_reducible assumption | exact subStep hm (by decide) | with_reducible apply within_okWith | with_reducible apply within_modFn)
theorem within_execBye (rq : Req) (arg : BitVec 48) (s : State) (hs : Within μ s₀ s) (hm : Sub 671102968 μ) :
    WithinNext μ s₀ (execBye rq arg s) := by
  unfold execBye
  repeat' (first
    | with_reducible assumption | exact subStep hm (by decide) | intro _ | with_reducible apply withinNext_next
    | with_reducible apply within_runRow | with_reducible apply within_effectBye)
theorem within_effectPing (c : Cmd) (s : State) (hs : Within μ s₀ s) (hm : Sub 0 μ) : Within μ s₀ (effectPing c s).state := by
  unfold effectPing
  repeat' (first
    | with_reducible assumption | with_reducible apply within_done)
theorem within_execPing (rq : Req) (arg : BitVec 48) (s : State) (hs : Within μ s₀ s) (hm : Sub 671102968 μ) :
    WithinNext μ s₀ (execPing rq arg s) := by
  unfold execPing
  repeat' (first
    | with_reducible assumption | exact subStep hm (by decide) | intro _ | with_reducible apply withinNext_next
    | with_reducible apply within_runRow | with_reducible apply within_effectPing)
theorem within_effectCmdqClose (c : Cmd) (s : State) (hs : Within μ s₀ s) (hm : Sub 677387768 μ) :
    Within μ s₀ (effectCmdqClose c s).state := by
  unfold effectCmdqClose
  repeat' (first
    | with_reducible assumption | exact subStep hm (by decide) | with_reducible apply within_done | with_reducible apply within_wait
    | with_reducible apply within_stopQueue | with_reducible apply within_okWith | with_reducible apply within_pruneTokens
    | with_reducible apply within_modFn | with_reducible apply within_setQueue | split)
theorem within_execCmdqClose (rq : Req) (arg : BitVec 48) (s : State) (hs : Within μ s₀ s) (hm : Sub 677396472 μ) :
    WithinNext μ s₀ (execCmdqClose rq arg s) := by
  unfold execCmdqClose
  repeat' (first
    | with_reducible assumption | exact subStep hm (by decide) | intro _ | with_reducible apply withinNext_next
    | with_reducible apply within_runRow | with_reducible apply within_effectCmdqClose)
theorem within_effectCmdqOpen (c : Cmd) (s : State) (hs : Within μ s₀ s) (hm : Sub 1207964152 μ) :
    Within μ s₀ (effectCmdqOpen c s).state := by
  unfold effectCmdqOpen
  repeat' (first
    | with_reducible assumption | exact subStep hm (by decide) | with_reducible apply within_done | with_reducible apply within_modFn
    | (refine within_makeQueue ?_ (by with_reducible assumption) ?_) | simp only [] | split)
theorem within_execCmdqOpen (rq : Req) (ring : Word) (n : Word) (cq : Word) (m : Word) (vector : Word) (s : State) (hs : Within μ s₀ s) (hm : Sub 1744844792 μ) :
    WithinNext μ s₀ (execCmdqOpen rq ring n cq m vector s) := by
  unfold execCmdqOpen
  repeat' (first
    | with_reducible assumption | exact subStep hm (by decide) | intro _ | with_reducible apply withinNext_next
    | with_reducible apply within_runRow | with_reducible apply within_effectCmdqOpen)
theorem within_effectRplStop (c : Cmd) (s : State) (hs : Within μ s₀ s) (hm : Sub 671101944 μ) : Within μ s₀ (effectRplStop c s).state := by
  unfold effectRplStop
  repeat' (first
    | with_reducible assumption | exact subStep hm (by decide) | with_reducible apply within_modCtx | with_reducible apply within_okWith
    | with_reducible apply within_publishOne | split)
theorem within_execRplStop (rq : Req) (arg : BitVec 48) (s : State) (hs : Within μ s₀ s) (hm : Sub 671102968 μ) :
    WithinNext μ s₀ (execRplStop rq arg s) := by
  unfold execRplStop
  repeat' (first
    | with_reducible assumption | exact subStep hm (by decide) | intro _ | with_reducible apply withinNext_next
    | with_reducible apply within_runRow | with_reducible apply within_effectRplStop)
theorem within_effectRplStatus (c : Cmd) (s : State) (hs : Within μ s₀ s) (hm : Sub 0 μ) : Within μ s₀ (effectRplStatus c s).state := by
  unfold effectRplStatus
  repeat' (first
    | with_reducible assumption | with_reducible apply within_okWith)
theorem within_execRplStatus (rq : Req) (arg : BitVec 48) (s : State) (hs : Within μ s₀ s) (hm : Sub 671102968 μ) :
    WithinNext μ s₀ (execRplStatus rq arg s) := by
  unfold execRplStatus
  repeat' (first
    | with_reducible assumption | exact subStep hm (by decide) | intro _ | with_reducible apply withinNext_next
    | with_reducible apply within_runRow | with_reducible apply within_effectRplStatus)
/-! ### Clock -/

theorem within_endSlew (s : State) (hs : Within μ s₀ s) (hm : Sub 67108872 μ) : Within μ s₀ (endSlew s) := by
  unfold endSlew
  repeat' (first
    | with_reducible assumption | exact subStep hm (by decide) | (refine Agree.mk (fun a ha => ?_); cases a <;> first | exact noBit (by decide) hm ha | rfl)
    | with_reducible apply within_setFld | with_reducible apply within_bump | with_reducible apply within_ite
    | (simp only [within_mk]; with_reducible refine withinMk ?_ ?_))
theorem within_passFrame (k : Nat) (s : State) (hs : Within μ s₀ s) (hm : Sub 4104 μ) : Within μ s₀ (passFrame k s) := by
  unfold passFrame
  repeat' (first
    | with_reducible assumption | exact subStep hm (by decide) | intro _ | with_reducible apply within_forEach
    | with_reducible apply within_bump | with_reducible apply within_addCauseAt | with_reducible apply within_ite)
theorem within_advanceWork (s : State) (p : Nat) (n : Nat) (hs : Within μ s₀ s) (hm : Sub 4104 μ) : Within μ s₀ (advanceWork s p n) := by
  unfold advanceWork
  repeat' (first
    | with_reducible assumption | exact subStep hm (by decide) | with_reducible apply within_bump | with_reducible apply within_modPart
    | with_reducible apply within_ite)
/-! ### Hbm -/

theorem within_hbmLoopWrite (s : State) (g : Nat) (value : Word) (hs : Within μ s₀ s) (hm : Sub 8 μ) :
    Within μ s₀ (hbmLoopWrite s g value) := by
  unfold hbmLoopWrite
  repeat' (first
    | with_reducible assumption | with_reducible apply within_setFld | with_reducible apply within_ite)
theorem within_hbmLoopHigh (s : State) (g : Nat) (hs : Within μ s₀ s) (hm : Sub 8 μ) : Within μ s₀ (hbmLoopHigh s g) := by
  unfold hbmLoopHigh
  repeat' (first
    | with_reducible assumption | with_reducible apply within_setFld | with_reducible apply within_ite)
theorem within_execHbmLoopStart (g : StackId) (value : Word) (s : State) (hs : Within μ s₀ s) (hm : Sub 8 μ) :
    WithinNext μ s₀ (execHbmLoopStart g value s) := by
  unfold execHbmLoopStart
  repeat' (first
    | with_reducible assumption | with_reducible apply withinNext_next | with_reducible apply within_hbmLoopWrite)
theorem within_hbmLoopDoneOp (g : Nat) (errors : Nat) (lanes : Nat) (s : State) (hs : Within μ s₀ s) (hm : Sub 8 μ) :
    Within μ s₀ (hbmLoopDoneOp g errors lanes s) := by
  unfold hbmLoopDoneOp
  repeat' (first
    | with_reducible assumption | with_reducible apply within_setFld | with_reducible apply within_ite)
theorem within_execHbmLoopDone (g : StackId) (errors : Nat) (lanesFailed : Nat) (s : State) (hs : Within μ s₀ s) (hm : Sub 8 μ) :
    WithinNext μ s₀ (execHbmLoopDone g errors lanesFailed s) := by
  unfold execHbmLoopDone
  repeat' (first
    | with_reducible assumption | with_reducible apply withinNext_next | with_reducible apply within_hbmLoopDoneOp)
theorem within_scrubWord (s : State) (k : Nat) (hs : Within μ s₀ s) (hm : Sub 134221976 μ) : Within μ s₀ (scrubWord s k) := by
  unfold scrubWord
  repeat' (first
    | with_reducible assumption | exact subStep hm (by decide) | with_reducible apply within_noteKey | with_reducible apply within_poisonKey
    | with_reducible apply within_ite | split)
theorem within_upsetKey (s : State) (k : Nat) (o : Option ReadOutcome) (hs : Within μ s₀ s) (hm : Sub 16 μ) :
    Within μ s₀ (upsetKey s k o) := by
  have hi : ∀ e, Within μ s₀ (if tabGet false s.mem.poisoned k then s else { s with mem := { s.mem with upset := tabSet none s.mem.upset k (some e) } }) :=
    fun e => within_ite hs (withinMk hs ⟨fun a ha => by cases a <;> first | exact noBit (by decide) hm ha | rfl⟩)
  cases o with
  | none => exact hs
  | some o =>
    cases o with
    | undetected d => exact withinMk hs ⟨fun a ha => by cases a <;> first | exact noBit (by decide) hm ha | rfl⟩
    | onPath => exact hs
    | corrected y => exact hi _
    | uncorrectable => exact hi _
theorem within_scrubLoam (s : State) (sec : Nat) (outcome : Option ReadOutcome) (hs : Within μ s₀ s) (hm : Sub 134222008 μ) :
    Within μ s₀ (scrubLoam s sec outcome) := by
  have h2 : ∀ t n w, Within μ s₀ t → Within μ s₀
      (let s := { t with mem := { t.mem with scrubLoam := tabSet 0 t.mem.scrubLoam sec ((w + 1) % n) } }
       if w + 1 = n then s.wrap fLoamScrubPasses sec 0 1 else s) := by
    intro t n w ht
    have h3 : Within μ s₀ { t with mem := { t.mem with scrubLoam := tabSet 0 t.mem.scrubLoam sec ((w + 1) % n) } } :=
      withinMk ht ⟨fun a ha => by cases a <;> first | exact noBit (by decide) hm ha | rfl⟩
    exact within_ite (within_wrap _ _ _ _ _ h3 (subStep hm (by decide))) h3
  have h1 : ∀ o, Within μ s₀ (match o with | some k => scrubWord (upsetKey s k outcome) k | none => s) := by
    intro o
    cases o with
    | none => exact hs
    | some k => exact within_scrubWord _ _ (within_upsetKey _ _ _ hs (subStep hm (by decide))) (subStep hm (by decide))
  exact h2 _ loamWords _ (h1 _)
theorem within_scrubHbm (s : State) (g : Nat) (outcome : Option ReadOutcome) (hs : Within μ s₀ s) (hm : Sub 134222008 μ) :
    Within μ s₀ (scrubHbm s g outcome) := by
  unfold scrubHbm
  repeat' (first
    | with_reducible assumption | exact subStep hm (by decide) | (refine Agree.mk (fun a ha => ?_); cases a <;> first | exact noBit (by decide) hm ha | rfl)
    | with_reducible apply within_scrubWord | with_reducible apply within_upsetKey | (simp only [within_mk]; with_reducible refine withinMk ?_ ?_))
theorem within_execPatrolScrubRead (sec : Sec) (hbm : Option (Fin 3)) (outcome : Option ReadOutcome) (s : State) (hs : Within μ s₀ s) (hm : Sub 134222008 μ) :
    WithinNext μ s₀ (execPatrolScrubRead sec hbm outcome s) := by
  unfold execPatrolScrubRead
  repeat' (first
    | with_reducible assumption | with_reducible apply withinNext_next | with_reducible apply within_scrubLoam
    | with_reducible apply within_scrubHbm | with_reducible apply within_ite | split)
theorem within_execHbmRefresh (g : StackId) (s : State) (hs : Within μ s₀ s) (hm : Sub 8 μ) : WithinNext μ s₀ (execHbmRefresh g s) := by
  unfold execHbmRefresh
  repeat' (first
    | with_reducible assumption | with_reducible apply withinNext_next | with_reducible apply within_bump
    | with_reducible apply within_ite)
theorem within_unscheduledRefreshOp (g : Nat) (s : State) (hs : Within μ s₀ s) (hm : Sub 4104 μ) :
    Within μ s₀ (unscheduledRefreshOp g s) := by
  unfold unscheduledRefreshOp
  repeat' (first
    | with_reducible assumption | exact subStep hm (by decide) | with_reducible apply within_bump | with_reducible apply within_addCause
    | with_reducible apply within_ite | simp only [] | split)
theorem within_execUnscheduledRefresh (g : StackId) (s : State) (hs : Within μ s₀ s) (hm : Sub 4104 μ) :
    WithinNext μ s₀ (execUnscheduledRefresh g s) := by
  unfold execUnscheduledRefresh
  repeat' (first
    | with_reducible assumption | with_reducible apply withinNext_next | with_reducible apply within_unscheduledRefreshOp)
/-! ### CmdPart -/

theorem within_effectPartCreate (c : Cmd) (s : State) (hs : Within μ s₀ s) (hm : Sub 67112968 μ) :
    Within μ s₀ (effectPartCreate c s).state := by
  unfold effectPartCreate
  repeat' (first
    | with_reducible assumption | exact subStep hm (by decide) | with_reducible apply within_done | with_reducible apply within_clearRegs
    | with_reducible apply within_endSlew | with_reducible apply within_okWith | with_reducible apply within_setPart
    | with_reducible apply within_ite | simp only [] | split)
theorem within_execPartCreate (rq : Req) (mask : Word) (tenancy : Word) (schedule : Word) (units : Word) (s : State) (hs : Within μ s₀ s) (hm : Sub 738211832 μ) :
    WithinNext μ s₀ (execPartCreate rq mask tenancy schedule units s) := by
  unfold execPartCreate
  repeat' (first
    | with_reducible assumption | exact subStep hm (by decide) | intro _ | with_reducible apply withinNext_next
    | with_reducible apply within_runRow | with_reducible apply within_effectPartCreate)
theorem within_stopPartition (c : Cmd) (s : State) (p : Nat) (hs : Within μ s₀ s) (hm : Sub 677394936 μ) :
    Within μ s₀ (stopPartition c s p) := by
  unfold stopPartition
  repeat' (first
    | with_reducible assumption | exact subStep hm (by decide) | intro _ | with_reducible apply within_forEach
    | with_reducible apply within_stopPlanned | with_reducible apply within_stopQueue)
theorem within_leavePart (c : Cmd) (s : State) (p : Nat) (mode : PartMode) (hs : Within μ s₀ s) (hm : Sub 677394936 μ) :
    Within μ s₀ (leavePart c s p mode) := by
  unfold leavePart
  repeat' (first
    | with_reducible assumption | exact subStep hm (by decide) | with_reducible apply within_modPart | with_reducible apply within_partAdvance
    | with_reducible apply within_stopPartition)
theorem within_effectPartDestroy (c : Cmd) (s : State) (hs : Within μ s₀ s) (hm : Sub 677394936 μ) :
    Within μ s₀ (effectPartDestroy c s).state := by
  unfold effectPartDestroy
  repeat' (first
    | with_reducible assumption | with_reducible apply within_wait | with_reducible apply within_leavePart)
theorem within_execPartDestroy (rq : Req) (part : Word) (s : State) (hs : Within μ s₀ s) (hm : Sub 677396472 μ) :
    WithinNext μ s₀ (execPartDestroy rq part s) := by
  unfold execPartDestroy
  repeat' (first
    | with_reducible assumption | exact subStep hm (by decide) | intro _ | with_reducible apply withinNext_next
    | with_reducible apply within_runRow | with_reducible apply within_effectPartDestroy)
theorem within_effectPartHandover (c : Cmd) (s : State) (hs : Within μ s₀ s) (hm : Sub 677394936 μ) :
    Within μ s₀ (effectPartHandover c s).state := by
  unfold effectPartHandover
  repeat' (first
    | with_reducible assumption | with_reducible apply within_wait | with_reducible apply within_leavePart)
theorem within_execPartHandover (rq : Req) (part : Word) (s : State) (hs : Within μ s₀ s) (hm : Sub 677396472 μ) :
    WithinNext μ s₀ (execPartHandover rq part s) := by
  unfold execPartHandover
  repeat' (first
    | with_reducible assumption | exact subStep hm (by decide) | intro _ | with_reducible apply withinNext_next
    | with_reducible apply within_runRow | with_reducible apply within_effectPartHandover)
theorem within_effectPartAssign (c : Cmd) (s : State) (hs : Within μ s₀ s) (hm : Sub 128 μ) : Within μ s₀ (effectPartAssign c s).state := by
  unfold effectPartAssign
  repeat' (first
    | with_reducible assumption | exact subStep hm (by decide) | with_reducible apply within_okWith | with_reducible apply within_modFn)
theorem within_execPartAssign (rq : Req) (fn : Word) (part : Word) (s : State) (hs : Within μ s₀ s) (hm : Sub 671102968 μ) :
    WithinNext μ s₀ (execPartAssign rq fn part s) := by
  unfold execPartAssign
  repeat' (first
    | with_reducible assumption | exact subStep hm (by decide) | intro _ | with_reducible apply withinNext_next
    | with_reducible apply within_runRow | with_reducible apply within_effectPartAssign)
theorem within_enterSched (s : State) (p : Nat) (winter : Bool) (hs : Within μ s₀ s) (hm : Sub 8 μ) :
    Within μ s₀ (enterSched s p winter) := by
  unfold enterSched
  repeat' (first
    | with_reducible assumption | with_reducible apply within_setRaw | with_reducible apply within_setFld
    | with_reducible apply within_ite)
theorem within_effectPartSched (c : Cmd) (s : State) (hs : Within μ s₀ s) (hm : Sub 67112968 μ) :
    Within μ s₀ (effectPartSched c s).state := by
  unfold effectPartSched
  repeat' (first
    | with_reducible assumption | exact subStep hm (by decide) | with_reducible apply within_okWith | with_reducible apply within_endSlew
    | with_reducible apply within_enterSched | with_reducible apply within_modPart | with_reducible apply within_ite
    | with_reducible apply within_iteOut)
theorem within_execPartSched (rq : Req) (schedule : Word) (s : State) (hs : Within μ s₀ s) (hm : Sub 738211832 μ) :
    WithinNext μ s₀ (execPartSched rq schedule s) := by
  unfold execPartSched
  repeat' (first
    | with_reducible assumption | exact subStep hm (by decide) | intro _ | with_reducible apply withinNext_next
    | with_reducible apply within_runRow | with_reducible apply within_effectPartSched)
theorem within_effectPartCache (c : Cmd) (s : State) (hs : Within μ s₀ s) (hm : Sub 134222008 μ) :
    Within μ s₀ (effectPartCache c s).state := by
  unfold effectPartCache
  repeat' (first
    | with_reducible assumption | exact subStep hm (by decide) | intro _ | with_reducible apply within_okWith
    | with_reducible apply within_flushPart | with_reducible apply within_forEach | with_reducible apply within_zeroRange
    | with_reducible apply within_modPart | with_reducible apply within_iteOut)
theorem within_execPartCache (rq : Req) (units : Word) (s : State) (hs : Within μ s₀ s) (hm : Sub 671102968 μ) :
    WithinNext μ s₀ (execPartCache rq units s) := by
  unfold execPartCache
  repeat' (first
    | with_reducible assumption | exact subStep hm (by decide) | intro _ | with_reducible apply withinNext_next
    | with_reducible apply within_runRow | with_reducible apply within_effectPartCache)
theorem within_effectSlotTable (c : Cmd) (s : State) (hs : Within μ s₀ s) (hm : Sub 4096 μ) : Within μ s₀ (effectSlotTable c s).state := by
  unfold effectSlotTable
  repeat' (first
    | with_reducible assumption | exact subStep hm (by decide) | with_reducible apply within_okWith | with_reducible apply within_modPart)
theorem within_execSlotTable (rq : Req) (addr : Word) (len : Word) (s : State) (hs : Within μ s₀ s) (hm : Sub 671102968 μ) :
    WithinNext μ s₀ (execSlotTable rq addr len s) := by
  unfold execSlotTable
  repeat' (first
    | with_reducible assumption | exact subStep hm (by decide) | intro _ | with_reducible apply withinNext_next
    | with_reducible apply within_runRowWith | with_reducible apply within_effectSlotTable)
theorem within_effectPartInfo (c : Cmd) (s : State) (hs : Within μ s₀ s) (hm : Sub 134222072 μ) :
    Within μ s₀ (effectPartInfo c s).state := by
  unfold effectPartInfo
  repeat' (first
    | with_reducible assumption | exact subStep hm (by decide) | with_reducible apply within_okWith | with_reducible apply within_writeArg)
theorem within_execPartInfo (rq : Req) (part : Word) (addr : Word) (s : State) (hs : Within μ s₀ s) (hm : Sub 671102968 μ) :
    WithinNext μ s₀ (execPartInfo rq part addr s) := by
  unfold execPartInfo
  repeat' (first
    | with_reducible assumption | exact subStep hm (by decide) | intro _ | with_reducible apply withinNext_next
    | with_reducible apply within_runRow | with_reducible apply within_effectPartInfo)
theorem within_effectWindowSet (c : Cmd) (s : State) (hs : Within μ s₀ s) (hm : Sub 677386744 μ) :
    Within μ s₀ (effectWindowSet c s).state := by
  unfold effectWindowSet
  repeat' (first
    | with_reducible assumption | exact subStep hm (by decide) | with_reducible apply within_guardTdi
    | with_reducible apply within_okWith | with_reducible apply within_modFn)
theorem within_execWindowSet (rq : Req) (fn : Word) (quarter : Word) (base : Word) (s : State) (hs : Within μ s₀ s) (hm : Sub 677396472 μ) :
    WithinNext μ s₀ (execWindowSet rq fn quarter base s) := by
  unfold execWindowSet
  repeat' (first
    | with_reducible assumption | exact subStep hm (by decide) | intro _ | with_reducible apply withinNext_next
    | with_reducible apply within_runRow | with_reducible apply within_effectWindowSet)
theorem within_effectFnState (c : Cmd) (s : State) (hs : Within μ s₀ s) (hm : Sub 677386744 μ) : Within μ s₀ (effectFnState c s).state := by
  unfold effectFnState
  repeat' (first
    | with_reducible assumption | exact subStep hm (by decide) | intro _ | with_reducible apply within_wait
    | with_reducible apply within_okWith | with_reducible apply within_modFn | with_reducible apply within_forEach
    | with_reducible apply within_markStopped | with_reducible apply within_stopCtxSlots | with_reducible apply within_stopFnQueues
    | with_reducible apply within_iteOut)
theorem within_execFnState (rq : Req) (fn : Word) (enable : Word) (s : State) (hs : Within μ s₀ s) (hm : Sub 677396472 μ) :
    WithinNext μ s₀ (execFnState rq fn enable s) := by
  unfold execFnState
  repeat' (first
    | with_reducible assumption | exact subStep hm (by decide) | intro _ | with_reducible apply withinNext_next
    | with_reducible apply within_runRow | with_reducible apply within_effectFnState)
/-! ### CmdCtx -/

theorem within_effectCtxCreate (c : Cmd) (s : State) (hs : Within μ s₀ s) (hm : Sub 1073750016 μ) :
    Within μ s₀ (effectCtxCreate c s).state := by
  unfold effectCtxCreate
  repeat' (first
    | with_reducible assumption | exact subStep hm (by decide) | with_reducible apply within_done | with_reducible apply within_setCtx
    | (refine within_pickIndex ?_ (by with_reducible assumption) ?_) | simp only [] | split)
theorem within_execCtxCreate (rq : Req) (cls : Word) (fill : Word) (owner : Word) (s : State) (hs : Within μ s₀ s) (hm : Sub 1744844792 μ) :
    WithinNext μ s₀ (execCtxCreate rq cls fill owner s) := by
  unfold execCtxCreate
  repeat' (first
    | with_reducible assumption | exact subStep hm (by decide) | intro _ | with_reducible apply withinNext_next
    | with_reducible apply within_runRow | with_reducible apply within_effectCtxCreate)
theorem within_effectCtxDestroy (c : Cmd) (s : State) (hs : Within μ s₀ s) (hm : Sub 677394936 μ) :
    Within μ s₀ (effectCtxDestroy c s).state := by
  unfold effectCtxDestroy
  repeat' (first
    | with_reducible assumption | with_reducible apply within_wait | with_reducible apply within_stopPlanned)
theorem within_execCtxDestroy (rq : Req) (ctx : Word) (s : State) (hs : Within μ s₀ s) (hm : Sub 677396472 μ) :
    WithinNext μ s₀ (execCtxDestroy rq ctx s) := by
  unfold execCtxDestroy
  repeat' (first
    | with_reducible assumption | exact subStep hm (by decide) | intro _ | with_reducible apply withinNext_next
    | with_reducible apply within_runRow | with_reducible apply within_effectCtxDestroy)
theorem within_effectCtxSet (c : Cmd) (s : State) (hs : Within μ s₀ s) (hm : Sub 8192 μ) : Within μ s₀ (effectCtxSet c s).state := by
  unfold effectCtxSet
  repeat' (first
    | with_reducible assumption | exact subStep hm (by decide) | with_reducible apply within_okWith | with_reducible apply within_modCtx)
theorem within_execCtxSet (rq : Req) (ctx : Word) (cls : Word) (fill : Word) (s : State) (hs : Within μ s₀ s) (hm : Sub 671102968 μ) :
    WithinNext μ s₀ (execCtxSet rq ctx cls fill s) := by
  unfold execCtxSet
  repeat' (first
    | with_reducible assumption | exact subStep hm (by decide) | intro _ | with_reducible apply withinNext_next
    | with_reducible apply within_runRow | with_reducible apply within_effectCtxSet)
theorem within_effectCtxQuiesce (c : Cmd) (s : State) (hs : Within μ s₀ s) (hm : Sub 0 μ) : Within μ s₀ (effectCtxQuiesce c s).state := by
  unfold effectCtxQuiesce
  repeat' (first
    | with_reducible assumption | with_reducible apply within_wait)
theorem within_execCtxQuiesce (rq : Req) (ctx : Word) (s : State) (hs : Within μ s₀ s) (hm : Sub 671102968 μ) :
    WithinNext μ s₀ (execCtxQuiesce rq ctx s) := by
  unfold execCtxQuiesce
  repeat' (first
    | with_reducible assumption | exact subStep hm (by decide) | intro _ | with_reducible apply withinNext_next
    | with_reducible apply within_runRow | with_reducible apply within_effectCtxQuiesce)
theorem within_readBlock (s : State) (b : SnapBlock) (hs : Within μ s₀ s) (hm : Sub 134222008 μ) : Within μ s₀ (readBlock s b).1 := by
  unfold readBlock
  repeat' (first
    | with_reducible assumption | exact subStep hm (by decide) | with_reducible apply within_readAll | with_reducible apply within_takeSpoilt
    | with_reducible apply within_crcFailed | with_reducible apply within_crcCleared | simp only [] | split)
theorem within_countBlocks (s : State) (a : Nat) (n : Nat) (hs : Within μ s₀ s) (hm : Sub 8 μ) : Within μ s₀ (countBlocks s a n) := by
  unfold countBlocks
  repeat' (first
    | with_reducible assumption | with_reducible apply within_bump | split)
theorem within_snapStream (c : Cmd) (dest : Word) (l : List SnapBlock) (s : State) (hs : Within μ s₀ s) (hm : Sub 711490045 μ) :
    Within μ s₀ (snapStream c dest l s).1 := by
  induction l generalizing s with
  | nil => exact hs
  | cons b t ih =>
    unfold snapStream
    have h := within_readBlock s b hs (subStep hm (by decide))
    split
    · next e => rw [e] at h; exact ih _ (within_writeArg _ _ _ _ _ (within_writeArg _ _ _ _ _ (within_countBlocks _ _ _ h (subStep hm (by decide))) (subStep hm (by decide))) (subStep hm (by decide)))
    · next e => rw [e] at h; exact h
    · next e => rw [e] at h; exact within_ctxFault _ _ _ _ _ _ h (subStep hm (by decide))
theorem within_snapBegin (c : Cmd) (s : State) (hs : Within μ s₀ s) (hm : Sub 134222072 μ) : Within μ s₀ (snapBegin c s) :=
  within_forEach (within_writeArg _ _ _ _ _ hs hm) (fun _ _ h => within_writeArg _ _ _ _ _ h hm)
theorem within_effectCtxSnapshot (c : Cmd) (s : State) (hs : Within μ s₀ s) (hm : Sub 711490045 μ) :
    Within μ s₀ (effectCtxSnapshot c s).state := by
  unfold effectCtxSnapshot
  repeat' (first
    | with_reducible assumption | exact subStep hm (by decide) | intro _ | with_reducible apply within_done
    | with_reducible apply within_writeArg | with_reducible apply within_forEach | with_reducible apply within_snapBegin
    | with_reducible apply within_snapStream
    | with_reducible apply within_okWith | (with_reducible refine within_fst (by with_reducible assumption) ?_)
    | simp only [] | split)
theorem within_execCtxSnapshot (rq : Req) (ctx : Word) (list : Word) (count : Word) (dest : Word) (hits : List Hit) (s : State) (hs : Within μ s₀ s) (hm : Sub 711491581 μ) :
    WithinNext μ s₀ (execCtxSnapshot rq ctx list count dest hits s) := by
  unfold execCtxSnapshot
  repeat' (first
    | with_reducible assumption | exact subStep hm (by decide) | intro _ | with_reducible apply withinNext_next
    | with_reducible apply within_runRowWith | with_reducible apply within_effectCtxSnapshot | with_reducible apply within_upsetWords)
theorem within_effectQueueCreate (c : Cmd) (s : State) (hs : Within μ s₀ s) (hm : Sub 1751128568 μ) :
    Within μ s₀ (effectQueueCreate c s).state := by
  unfold effectQueueCreate
  repeat' (first
    | with_reducible assumption | exact subStep hm (by decide) | with_reducible apply within_done | with_reducible apply within_guardTdi
    | (refine within_makeQueue ?_ (by with_reducible assumption) ?_) | split)
theorem within_execQueueCreate (rq : Req) (kindUnit : Word) (ring : Word) (n : Word) (cq : Word) (m : Word) (vector : Word) (boundFn : Word) (ctx : Word) (s : State) (hs : Within μ s₀ s) (hm : Sub 1751138296 μ) :
    WithinNext μ s₀ (execQueueCreate rq kindUnit ring n cq m vector boundFn ctx s) := by
  unfold execQueueCreate
  repeat' (first
    | with_reducible assumption | exact subStep hm (by decide) | intro _ | with_reducible apply withinNext_next
    | with_reducible apply within_runRow | with_reducible apply within_effectQueueCreate)
theorem within_effectQueueDestroy (c : Cmd) (s : State) (hs : Within μ s₀ s) (hm : Sub 677387768 μ) :
    Within μ s₀ (effectQueueDestroy c s).state := by
  unfold effectQueueDestroy
  repeat' (first
    | with_reducible assumption | exact subStep hm (by decide) | with_reducible apply within_modFn | with_reducible apply within_guardTdi
    | with_reducible apply within_okWith | with_reducible apply within_pruneTokens | with_reducible apply within_setQueue
    | with_reducible apply within_ite)
theorem within_execQueueDestroy (rq : Req) (queue : Word) (s : State) (hs : Within μ s₀ s) (hm : Sub 677396472 μ) :
    WithinNext μ s₀ (execQueueDestroy rq queue s) := by
  unfold execQueueDestroy
  repeat' (first
    | with_reducible assumption | exact subStep hm (by decide) | intro _ | with_reducible apply withinNext_next
    | with_reducible apply within_runRow | with_reducible apply within_effectQueueDestroy)
theorem within_effectQueueEnable (c : Cmd) (s : State) (hs : Within μ s₀ s) (hm : Sub 8448 μ) :
    Within μ s₀ (effectQueueEnable c s).state := by
  unfold effectQueueEnable
  repeat' (first
    | with_reducible assumption | exact subStep hm (by decide) | with_reducible apply within_modCtx | with_reducible apply within_okWith
    | with_reducible apply within_modQueue | split)
theorem within_execQueueEnable (rq : Req) (queue : Word) (s : State) (hs : Within μ s₀ s) (hm : Sub 671102968 μ) :
    WithinNext μ s₀ (execQueueEnable rq queue s) := by
  unfold execQueueEnable
  repeat' (first
    | with_reducible assumption | exact subStep hm (by decide) | intro _ | with_reducible apply withinNext_next
    | with_reducible apply within_runRow | with_reducible apply within_effectQueueEnable)
theorem within_effectQueueDisable (c : Cmd) (s : State) (hs : Within μ s₀ s) (hm : Sub 677386744 μ) :
    Within μ s₀ (effectQueueDisable c s).state := by
  unfold effectQueueDisable
  repeat' (first
    | with_reducible assumption | with_reducible apply within_wait | with_reducible apply within_stopQueue)
theorem within_execQueueDisable (rq : Req) (queue : Word) (s : State) (hs : Within μ s₀ s) (hm : Sub 677396472 μ) :
    WithinNext μ s₀ (execQueueDisable rq queue s) := by
  unfold execQueueDisable
  repeat' (first
    | with_reducible assumption | exact subStep hm (by decide) | intro _ | with_reducible apply withinNext_next
    | with_reducible apply within_runRow | with_reducible apply within_effectQueueDisable)
theorem within_effectQueueReset (c : Cmd) (s : State) (hs : Within μ s₀ s) (hm : Sub 134222328 μ) :
    Within μ s₀ (effectQueueReset c s).state := by
  unfold effectQueueReset
  repeat' (first
    | with_reducible assumption | exact subStep hm (by decide) | with_reducible apply within_okWith | with_reducible apply within_fillRing
    | with_reducible apply within_modQueue)
theorem within_execQueueReset (rq : Req) (queue : Word) (s : State) (hs : Within μ s₀ s) (hm : Sub 671102968 μ) :
    WithinNext μ s₀ (execQueueReset rq queue s) := by
  unfold execQueueReset
  repeat' (first
    | with_reducible assumption | exact subStep hm (by decide) | intro _ | with_reducible apply withinNext_next
    | with_reducible apply within_runRow | with_reducible apply within_effectQueueReset)
theorem within_effectTallyCreate (c : Cmd) (s : State) (hs : Within μ s₀ s) (hm : Sub 1073758208 μ) :
    Within μ s₀ (effectTallyCreate c s).state := by
  unfold effectTallyCreate
  repeat' (first
    | with_reducible assumption | exact subStep hm (by decide) | with_reducible apply within_done | with_reducible apply within_setTally
    | (refine within_pickIndex ?_ (by with_reducible assumption) ?_) | simp only [] | split)
theorem within_execTallyCreate (rq : Req) (ctx : Word) (cls : Word) (sec : Word) (count : Word) (s : State) (hs : Within μ s₀ s) (hm : Sub 1744861176 μ) :
    WithinNext μ s₀ (execTallyCreate rq ctx cls sec count s) := by
  unfold execTallyCreate
  repeat' (first
    | with_reducible assumption | exact subStep hm (by decide) | intro _ | with_reducible apply withinNext_next
    | with_reducible apply within_runRow | with_reducible apply within_effectTallyCreate)
theorem within_stirCores (s : State) (p : Nat) (hs : Within μ s₀ s) (hm : Sub 2097152 μ) : Within μ s₀ (stirCores s p) := by
  unfold stirCores
  repeat' (first
    | with_reducible assumption | (refine Agree.mk (fun a ha => ?_); cases a <;> first | exact noBit (by decide) hm ha | rfl)
    | (simp only [within_mk]; with_reducible refine withinMk ?_ ?_))
theorem within_effectTallySet (c : Cmd) (s : State) (hs : Within μ s₀ s) (hm : Sub 2117632 μ) : Within μ s₀ (effectTallySet c s).state := by
  unfold effectTallySet
  repeat' (first
    | with_reducible assumption | exact subStep hm (by decide) | with_reducible apply within_endExternal
    | with_reducible apply within_modTally | with_reducible apply within_okWith | with_reducible apply within_stirCores)
theorem within_execTallySet (rq : Req) (tally : Word) (count : Word) (s : State) (hs : Within μ s₀ s) (hm : Sub 673216504 μ) :
    WithinNext μ s₀ (execTallySet rq tally count s) := by
  unfold execTallySet
  repeat' (first
    | with_reducible assumption | exact subStep hm (by decide) | intro _ | with_reducible apply withinNext_next
    | with_reducible apply within_runRow | with_reducible apply within_effectTallySet)
theorem within_effectTallyDestroy (c : Cmd) (s : State) (hs : Within μ s₀ s) (hm : Sub 17408 μ) :
    Within μ s₀ (effectTallyDestroy c s).state := by
  unfold effectTallyDestroy
  repeat' (first
    | with_reducible assumption | exact subStep hm (by decide) | with_reducible apply within_okWith | with_reducible apply within_pruneTokens
    | with_reducible apply within_setTally)
theorem within_execTallyDestroy (rq : Req) (tally : Word) (s : State) (hs : Within μ s₀ s) (hm : Sub 671119352 μ) :
    WithinNext μ s₀ (execTallyDestroy rq tally s) := by
  unfold execTallyDestroy
  repeat' (first
    | with_reducible assumption | exact subStep hm (by decide) | intro _ | with_reducible apply withinNext_next
    | with_reducible apply within_runRow | with_reducible apply within_effectTallyDestroy)
theorem within_effectRegionCreate (c : Cmd) (s : State) (hs : Within μ s₀ s) (hm : Sub 1073774592 μ) :
    Within μ s₀ (effectRegionCreate c s).state := by
  unfold effectRegionCreate
  repeat' (first
    | with_reducible assumption | exact subStep hm (by decide) | with_reducible apply within_done | with_reducible apply within_setRegion
    | (refine within_pickIndex ?_ (by with_reducible assumption) ?_) | simp only [] | split)
theorem within_execRegionCreate (rq : Req) (ctx : Word) (addr : Word) (len : Word) (perm : Word) (s : State) (hs : Within μ s₀ s) (hm : Sub 1744877560 μ) :
    WithinNext μ s₀ (execRegionCreate rq ctx addr len perm s) := by
  unfold execRegionCreate
  repeat' (first
    | with_reducible assumption | exact subStep hm (by decide) | intro _ | with_reducible apply withinNext_next
    | with_reducible apply within_runRow | with_reducible apply within_effectRegionCreate)
theorem within_effectRegionDestroy (c : Cmd) (s : State) (hs : Within μ s₀ s) (hm : Sub 33792 μ) :
    Within μ s₀ (effectRegionDestroy c s).state := by
  unfold effectRegionDestroy
  repeat' (first
    | with_reducible assumption | exact subStep hm (by decide) | with_reducible apply within_okWith | with_reducible apply within_pruneTokens
    | with_reducible apply within_setRegion)
theorem within_execRegionDestroy (rq : Req) (region : Word) (s : State) (hs : Within μ s₀ s) (hm : Sub 671135736 μ) :
    WithinNext μ s₀ (execRegionDestroy rq region s) := by
  unfold execRegionDestroy
  repeat' (first
    | with_reducible assumption | exact subStep hm (by decide) | intro _ | with_reducible apply withinNext_next
    | with_reducible apply within_runRow | with_reducible apply within_effectRegionDestroy)
theorem within_effectRegionFreeze (c : Cmd) (s : State) (hs : Within μ s₀ s) (hm : Sub 32768 μ) :
    Within μ s₀ (effectRegionFreeze c s).state := by
  unfold effectRegionFreeze
  repeat' (first
    | with_reducible assumption | exact subStep hm (by decide) | with_reducible apply within_okWith | with_reducible apply within_modRegion)
theorem within_execRegionFreeze (rq : Req) (region : Word) (freeze : Word) (s : State) (hs : Within μ s₀ s) (hm : Sub 671135736 μ) :
    WithinNext μ s₀ (execRegionFreeze rq region freeze s) := by
  unfold execRegionFreeze
  repeat' (first
    | with_reducible assumption | exact subStep hm (by decide) | intro _ | with_reducible apply withinNext_next
    | with_reducible apply within_runRow | with_reducible apply within_effectRegionFreeze)
theorem within_effectHandleInfo (c : Cmd) (s : State) (hs : Within μ s₀ s) (hm : Sub 134222072 μ) :
    Within μ s₀ (effectHandleInfo c s).state := by
  unfold effectHandleInfo
  repeat' (first
    | with_reducible assumption | exact subStep hm (by decide) | with_reducible apply within_okWith | with_reducible apply within_writeArg)
theorem within_execHandleInfo (rq : Req) (handle : Word) (addr : Word) (s : State) (hs : Within μ s₀ s) (hm : Sub 671102968 μ) :
    WithinNext μ s₀ (execHandleInfo rq handle addr s) := by
  unfold execHandleInfo
  repeat' (first
    | with_reducible assumption | exact subStep hm (by decide) | intro _ | with_reducible apply withinNext_next
    | with_reducible apply within_runRow | with_reducible apply within_effectHandleInfo)
/-! ### CmdProg -/

theorem within_effectMemFlush (c : Cmd) (s : State) (hs : Within μ s₀ s) (hm : Sub 134222008 μ) :
    Within μ s₀ (effectMemFlush c s).state := by
  unfold effectMemFlush
  repeat' (first
    | with_reducible assumption | exact subStep hm (by decide) | with_reducible apply within_flushPart
    | with_reducible apply within_okWith)
theorem within_execMemFlush (rq : Req) (s : State) (hs : Within μ s₀ s) (hm : Sub 671102968 μ) : WithinNext μ s₀ (execMemFlush rq s) := by
  unfold execMemFlush
  repeat' (first
    | with_reducible assumption | exact subStep hm (by decide) | intro _ | with_reducible apply withinNext_next
    | with_reducible apply within_runRow | with_reducible apply within_effectMemFlush)
theorem within_effectScrubPeriod (c : Cmd) (s : State) (hs : Within μ s₀ s) (hm : Sub 40 μ) :
    Within μ s₀ (effectScrubPeriod c s).state := by
  unfold effectScrubPeriod
  repeat' (first
    | with_reducible assumption | exact subStep hm (by decide) | (refine Agree.mk (fun a ha => ?_); cases a <;> first | exact noBit (by decide) hm ha | rfl)
    | intro _ | with_reducible apply within_okWith | with_reducible apply within_forEach | with_reducible apply within_setFld
    | (simp only [within_mk]; with_reducible refine withinMk ?_ ?_))
theorem within_execScrubPeriod (rq : Req) (mask : Word) (loam : Word) (hbm : Word) (s : State) (hs : Within μ s₀ s) (hm : Sub 671102968 μ) :
    WithinNext μ s₀ (execScrubPeriod rq mask loam hbm s) := by
  unfold execScrubPeriod
  repeat' (first
    | with_reducible assumption | exact subStep hm (by decide) | intro _ | with_reducible apply withinNext_next
    | with_reducible apply within_runRow | with_reducible apply within_effectScrubPeriod)
theorem within_effectStackRate (c : Cmd) (s : State) (hs : Within μ s₀ s) (hm : Sub 4 μ) : Within μ s₀ (effectStackRate c s).state := by
  unfold effectStackRate
  repeat' (first
    | with_reducible assumption | exact subStep hm (by decide) | (refine Agree.mk (fun a ha => ?_); cases a <;> first | exact noBit (by decide) hm ha | rfl)
    | with_reducible apply within_okWith | (simp only [within_mk]; with_reducible refine withinMk ?_ ?_))
theorem within_execStackRate (rq : Req) (allow : Word) (s : State) (hs : Within μ s₀ s) (hm : Sub 671102972 μ) :
    WithinNext μ s₀ (execStackRate rq allow s) := by
  unfold execStackRate
  repeat' (first
    | with_reducible assumption | exact subStep hm (by decide) | intro _ | with_reducible apply withinNext_next
    | with_reducible apply within_runRow | with_reducible apply within_effectStackRate)
theorem within_effectProgLoad (c : Cmd) (s : State) (hs : Within μ s₀ s) (hm : Sub 4194304 μ) : Within μ s₀ (effectProgLoad c s).state := by
  unfold effectProgLoad
  repeat' (first
    | with_reducible assumption | exact subStep hm (by decide) | with_reducible apply within_okWith | with_reducible apply within_setSlot)
theorem within_execProgLoad (rq : Req) (ctx : Word) (core : Word) (slot : Word) (addr : Word) (count : Word) (s : State) (hs : Within μ s₀ s) (hm : Sub 675297272 μ) :
    WithinNext μ s₀ (execProgLoad rq ctx core slot addr count s) := by
  unfold execProgLoad
  repeat' (first
    | with_reducible assumption | exact subStep hm (by decide) | intro _ | with_reducible apply withinNext_next
    | with_reducible apply within_runRow | with_reducible apply within_effectProgLoad)
theorem within_effectProgUnload (c : Cmd) (s : State) (hs : Within μ s₀ s) (hm : Sub 6291456 μ) :
    Within μ s₀ (effectProgUnload c s).state := by
  unfold effectProgUnload
  repeat' (first
    | with_reducible assumption | exact subStep hm (by decide) | with_reducible apply within_setSlot | with_reducible apply within_okWith
    | with_reducible apply within_enterSlot | with_reducible apply within_ite)
theorem within_execProgUnload (rq : Req) (core : Word) (slot : Word) (s : State) (hs : Within μ s₀ s) (hm : Sub 677394424 μ) :
    WithinNext μ s₀ (execProgUnload rq core slot s) := by
  unfold execProgUnload
  repeat' (first
    | with_reducible assumption | exact subStep hm (by decide) | intro _ | with_reducible apply withinNext_next
    | with_reducible apply within_runRow | with_reducible apply within_effectProgUnload)
theorem within_startSlots (s : State) (l : List (Nat × Nat)) (winter : Bool) (fill : Bool) (hs : Within μ s₀ s) (hm : Sub 4196352 μ) :
    Within μ s₀ (startSlots s l winter fill) := by
  unfold startSlots
  repeat' (first
    | with_reducible assumption | exact subStep hm (by decide) | (refine Agree.mk (fun a ha => ?_); cases a <;> first | exact noBit (by decide) hm ha | rfl)
    | intro _ | with_reducible apply within_forEach | with_reducible apply within_modSlot | (simp only [within_mk]; with_reducible refine withinMk ?_ ?_))
theorem within_restartWork (s : State) (p : Nat) (hs : Within μ s₀ s) (hm : Sub 4104 μ) : Within μ s₀ (restartWork s p) := by
  unfold restartWork
  repeat' (first
    | with_reducible assumption | exact subStep hm (by decide) | with_reducible apply within_bump | with_reducible apply within_setFld
    | with_reducible apply within_modPart)
theorem within_noteModels (s : State) (p : Nat) (l : List (Nat × Nat)) (hs : Within μ s₀ s) (hm : Sub 262144 μ) :
    Within μ s₀ (noteModels s p l) := by
  unfold noteModels
  repeat' (first
    | with_reducible assumption | intro _ | with_reducible apply within_forEach | with_reducible apply within_modModel
    | with_reducible apply within_ite)
theorem within_effectLaunch (c : Cmd) (s : State) (hs : Within μ s₀ s) (hm : Sub 138688696 μ) : Within μ s₀ (effectLaunch c s).state := by
  unfold effectLaunch
  repeat' (first
    | with_reducible assumption | exact subStep hm (by decide) | (refine Agree.mk (fun a ha => ?_); cases a <;> first | exact noBit (by decide) hm ha | rfl)
    | intro _ | with_reducible apply within_later | with_reducible apply within_forEach | with_reducible apply within_recordInput
    | with_reducible apply within_startSlots | with_reducible apply within_noteModels | with_reducible apply within_restartWork
    | with_reducible apply within_modCtx | with_reducible apply within_ite | (simp only [within_mk]; with_reducible refine withinMk ?_ ?_))
theorem within_execLaunch (rq : Req) (ctx : Word) (list : Word) (count : Word) (s : State) (hs : Within μ s₀ s) (hm : Sub 675561464 μ) :
    WithinNext μ s₀ (execLaunch rq ctx list count s) := by
  unfold execLaunch
  repeat' (first
    | with_reducible assumption | exact subStep hm (by decide) | intro _ | with_reducible apply withinNext_next
    | with_reducible apply within_runRowWith | with_reducible apply within_effectLaunch)
/-! ### CmdTensor -/

theorem within_effectTensorReg (c : Cmd) (s : State) (hs : Within μ s₀ s) (hm : Sub 65536 μ) : Within μ s₀ (effectTensorReg c s).state := by
  unfold effectTensorReg
  repeat' (first
    | with_reducible assumption | exact subStep hm (by decide) | with_reducible apply within_okWith | with_reducible apply within_setTensor)
theorem within_execTensorReg (rq : Req) (ctx : Word) (addr : Word) (s : State) (hs : Within μ s₀ s) (hm : Sub 671168504 μ) :
    WithinNext μ s₀ (execTensorReg rq ctx addr s) := by
  unfold execTensorReg
  repeat' (first
    | with_reducible assumption | exact subStep hm (by decide) | intro _ | with_reducible apply withinNext_next
    | with_reducible apply within_runRowWith | with_reducible apply within_effectTensorReg)
theorem within_onTensor (c : Cmd) (s : State) (upd : Tensor → Tensor) (hs : Within μ s₀ s) (hm : Sub 65536 μ) :
    Within μ s₀ (onTensor c s upd) := by
  unfold onTensor
  repeat' (first
    | with_reducible assumption | with_reducible apply within_modTensor)
theorem within_effectTensorUnreg (c : Cmd) (s : State) (hs : Within μ s₀ s) (hm : Sub 328704 μ) :
    Within μ s₀ (effectTensorUnreg c s).state := by
  unfold effectTensorUnreg
  repeat' (first
    | with_reducible assumption | exact subStep hm (by decide) | with_reducible apply within_okWith | with_reducible apply within_pruneTokens
    | with_reducible apply within_breakModels | with_reducible apply within_onTensor)
theorem within_execTensorUnreg (rq : Req) (tensor : Word) (s : State) (hs : Within μ s₀ s) (hm : Sub 671430648 μ) :
    WithinNext μ s₀ (execTensorUnreg rq tensor s) := by
  unfold execTensorUnreg
  repeat' (first
    | with_reducible assumption | exact subStep hm (by decide) | intro _ | with_reducible apply withinNext_next
    | with_reducible apply within_runRow | with_reducible apply within_effectTensorUnreg)
theorem within_effectTensorVersion (c : Cmd) (s : State) (hs : Within μ s₀ s) (hm : Sub 65536 μ) :
    Within μ s₀ (effectTensorVersion c s).state := by
  unfold effectTensorVersion
  repeat' (first
    | with_reducible assumption | exact subStep hm (by decide) | with_reducible apply within_okWith | with_reducible apply within_onTensor)
theorem within_execTensorVersion (rq : Req) (tensor : Word) (version : Word) (s : State) (hs : Within μ s₀ s) (hm : Sub 671168504 μ) :
    WithinNext μ s₀ (execTensorVersion rq tensor version s) := by
  unfold execTensorVersion
  repeat' (first
    | with_reducible assumption | exact subStep hm (by decide) | intro _ | with_reducible apply withinNext_next
    | with_reducible apply within_runRow | with_reducible apply within_effectTensorVersion)
theorem within_effectTensorScale (c : Cmd) (s : State) (hs : Within μ s₀ s) (hm : Sub 65536 μ) :
    Within μ s₀ (effectTensorScale c s).state := by
  unfold effectTensorScale
  repeat' (first
    | with_reducible assumption | exact subStep hm (by decide) | with_reducible apply within_okWith | with_reducible apply within_onTensor)
theorem within_execTensorScale (rq : Req) (tensor : Word) (scale : Word) (s : State) (hs : Within μ s₀ s) (hm : Sub 671168504 μ) :
    WithinNext μ s₀ (execTensorScale rq tensor scale s) := by
  unfold execTensorScale
  repeat' (first
    | with_reducible assumption | exact subStep hm (by decide) | intro _ | with_reducible apply withinNext_next
    | with_reducible apply within_runRow | with_reducible apply within_effectTensorScale)
theorem within_effectTensorUnpoison (c : Cmd) (s : State) (hs : Within μ s₀ s) (hm : Sub 65536 μ) :
    Within μ s₀ (effectTensorUnpoison c s).state := by
  unfold effectTensorUnpoison
  repeat' (first
    | with_reducible assumption | exact subStep hm (by decide) | with_reducible apply within_okWith | with_reducible apply within_onTensor)
theorem within_execTensorUnpoison (rq : Req) (tensor : Word) (s : State) (hs : Within μ s₀ s) (hm : Sub 671168504 μ) :
    WithinNext μ s₀ (execTensorUnpoison rq tensor s) := by
  unfold execTensorUnpoison
  repeat' (first
    | with_reducible assumption | exact subStep hm (by decide) | intro _ | with_reducible apply withinNext_next
    | with_reducible apply within_runRow | with_reducible apply within_effectTensorUnpoison)
theorem within_effectTensorStamp (c : Cmd) (s : State) (hs : Within μ s₀ s) (hm : Sub 65536 μ) :
    Within μ s₀ (effectTensorStamp c s).state := by
  unfold effectTensorStamp
  repeat' (first
    | with_reducible assumption | exact subStep hm (by decide) | with_reducible apply within_okWith | with_reducible apply within_onTensor)
theorem within_execTensorStamp (rq : Req) (tensor : Word) (stamp : Word) (s : State) (hs : Within μ s₀ s) (hm : Sub 671168504 μ) :
    WithinNext μ s₀ (execTensorStamp rq tensor stamp s) := by
  unfold execTensorStamp
  repeat' (first
    | with_reducible assumption | exact subStep hm (by decide) | intro _ | with_reducible apply withinNext_next
    | with_reducible apply within_runRow | with_reducible apply within_effectTensorStamp)
theorem within_effectModelDefine (c : Cmd) (s : State) (hs : Within μ s₀ s) (hm : Sub 1074003968 μ) :
    Within μ s₀ (effectModelDefine c s).state := by
  unfold effectModelDefine
  repeat' (first
    | with_reducible assumption | exact subStep hm (by decide) | with_reducible apply within_done | with_reducible apply within_setModel
    | (refine within_pickIndex ?_ (by with_reducible assumption) ?_) | simp only [] | split)
theorem within_execModelDefine (rq : Req) (list : Word) (count : Word) (priority : Word) (s : State) (hs : Within μ s₀ s) (hm : Sub 1745106936 μ) :
    WithinNext μ s₀ (execModelDefine rq list count priority s) := by
  unfold execModelDefine
  repeat' (first
    | with_reducible assumption | exact subStep hm (by decide) | intro _ | with_reducible apply withinNext_next
    | with_reducible apply within_runRowWith | with_reducible apply within_effectModelDefine)
theorem within_makeRoom (p k : Nat) (d : TensorDesc) (n : Nat) (s : State) (hs : Within μ s₀ s) (hm : Sub 327680 μ) :
    Within μ s₀ (makeRoom p k d n s).1 := by
  induction n generalizing s with
  | zero => exact hs
  | succ n ih =>
    unfold makeRoom
    split
    · exact hs
    · split
      · exact ih _ (within_freeUnits _ _ (within_beginEvict _ _ hs (subStep hm (by decide))) (subStep hm (by decide)))
      · exact hs
theorem within_readTensor (l : List SnapBlock) (s : State) (hs : Within μ s₀ s) (hm : Sub 134222008 μ) :
    Within μ s₀ (readTensor l s).1 := by
  induction l generalizing s with
  | nil => exact hs
  | cons b t ih =>
    unfold readTensor
    have h := within_readBlock s b hs (subStep hm (by decide))
    split
    · next e => rw [e] at h; exact ih _ h
    · next e => rw [e] at h; exact h
    · next e => rw [e] at h; exact h
theorem within_poisonCopy (before : State) (after : State) (d : TensorDesc) (place : Nat × Nat) (hbefore : Within μ s₀ before) (hafter : Within μ s₀ after) (hm : Sub 134222008 μ) :
    Within μ s₀ (poisonCopy before after d place) := by
  unfold poisonCopy
  repeat' (first
    | with_reducible assumption | exact subStep hm (by decide) | intro _ | with_reducible apply within_forEach
    | with_reducible apply within_poisonWord | with_reducible apply within_ite | split)
theorem within_copyTensor (s : State) (p : Nat) (k : Nat) (id : Nat) (place : Nat × Nat) (hs : Within μ s₀ s) (hm : Sub 711817725 μ) :
    Within μ s₀ (copyTensor s p k id place).1 := by
  unfold copyTensor
  repeat' (first
    | with_reducible assumption | exact subStep hm (by decide) | intro _ | with_reducible apply within_readTensor
    | with_reducible apply within_ctxFault | with_reducible apply within_poisonCopy | with_reducible apply within_countBlocks
    | with_reducible apply within_writeBytes | with_reducible apply within_setTensor | with_reducible apply within_modModel
    | with_reducible apply within_foldl | (with_reducible refine within_fst (by with_reducible assumption) ?_)
    | simp only [] | split)
theorem within_loadTensors (p k : Nat) (l : List Nat) (s : State) (hs : Within μ s₀ s) (hm : Sub 711817725 μ) :
    Within μ s₀ (loadTensors p k l s).1 := by
  induction l generalizing s with
  | nil => exact hs
  | cons id t ih =>
    unfold loadTensors
    dsimp only
    have h := within_makeRoom p k (s.tensor p id).desc 1025 s hs (subStep hm (by decide))
    split
    · exact ih _ hs
    · split
      · next e => rw [e] at h; exact ih _ h
      · next s1 place e =>
        rw [e] at h
        have h2 := within_copyTensor s1 p k id place h (subStep hm (by decide))
        split
        · next e2 => rw [e2] at h2; exact ih _ h2
        · next e2 => rw [e2] at h2; exact h2
theorem within_effectModelLoad (c : Cmd) (s : State) (hs : Within μ s₀ s) (hm : Sub 711817725 μ) :
    Within μ s₀ (effectModelLoad c s).state := by
  unfold effectModelLoad
  repeat' (first
    | with_reducible assumption | exact subStep hm (by decide) | with_reducible apply within_done | with_reducible apply within_loadTensors
    | with_reducible apply within_okWith | with_reducible apply within_modModel | with_reducible apply within_restoreHome
    | (with_reducible refine within_fst (by with_reducible assumption) ?_) | simp only [] | split)
theorem within_execModelLoad (rq : Req) (model : Word) (hits : List Hit) (s : State) (hs : Within μ s₀ s) (hm : Sub 711819261 μ) :
    WithinNext μ s₀ (execModelLoad rq model hits s) := by
  unfold execModelLoad
  repeat' (first
    | with_reducible assumption | exact subStep hm (by decide) | intro _ | with_reducible apply withinNext_next
    | with_reducible apply within_runRow | with_reducible apply within_effectModelLoad | with_reducible apply within_upsetWords)
theorem within_effectModelEvict (c : Cmd) (s : State) (hs : Within μ s₀ s) (hm : Sub 327680 μ) :
    Within μ s₀ (effectModelEvict c s).state := by
  unfold effectModelEvict
  repeat' (first
    | with_reducible assumption | exact subStep hm (by decide) | with_reducible apply within_wait | with_reducible apply within_beginEvict
    | with_reducible apply within_okWith | with_reducible apply within_freeUnits | with_reducible apply within_iteOut)
theorem within_execModelEvict (rq : Req) (model : Word) (s : State) (hs : Within μ s₀ s) (hm : Sub 671430648 μ) :
    WithinNext μ s₀ (execModelEvict rq model s) := by
  unfold execModelEvict
  repeat' (first
    | with_reducible assumption | exact subStep hm (by decide) | intro _ | with_reducible apply withinNext_next
    | with_reducible apply within_runRow | with_reducible apply within_effectModelEvict)
theorem within_execModelUnitsFreed (model : Fin 1024) (s : State) (hs : Within μ s₀ s) (hm : Sub 671364088 μ) :
    WithinNext μ s₀ (execModelUnitsFreed model s) := by
  unfold execModelUnitsFreed
  repeat' (first
    | with_reducible assumption | exact subStep hm (by decide) | with_reducible apply withinNext_next
    | with_reducible apply within_settle | with_reducible apply within_freeUnits | with_reducible apply within_ite)
theorem within_effectModelDestroy (c : Cmd) (s : State) (hs : Within μ s₀ s) (hm : Sub 263168 μ) :
    Within μ s₀ (effectModelDestroy c s).state := by
  unfold effectModelDestroy
  repeat' (first
    | with_reducible assumption | exact subStep hm (by decide) | with_reducible apply within_okWith | with_reducible apply within_pruneTokens
    | with_reducible apply within_setModel)
theorem within_execModelDestroy (rq : Req) (model : Word) (s : State) (hs : Within μ s₀ s) (hm : Sub 671365112 μ) :
    WithinNext μ s₀ (execModelDestroy rq model s) := by
  unfold execModelDestroy
  repeat' (first
    | with_reducible assumption | exact subStep hm (by decide) | intro _ | with_reducible apply withinNext_next
    | with_reducible apply within_runRow | with_reducible apply within_effectModelDestroy)

end Sys2Proof.Machine
end

