-- ==== Sys2Proof/Laws/WithinModule.lean ====
section
/-! SUPPORT. Link receivers and controllers, the commands on links, numerics and management, the start, mailboxes, queues, BAR windows, functions and registers: the areas they may change. -/

set_option maxRecDepth 4000
set_option linter.unusedSimpArgs false
set_option linter.unusedVariables false

namespace Sys2Proof.Machine

variable {μ : Nat} {s₀ : State}

/-! ### LinkRx -/

theorem within_sendRefuse (s : State) (l : Nat) (cause : Nat) (h : List Byte) (hs : Within μ s₀ s) (hm : Sub 570429448 μ) :
    Within μ s₀ (sendRefuse s l cause h) := by
  unfold sendRefuse
  repeat' (first
    | with_reducible assumption | with_reducible apply within_sendMsg)
theorem within_freeSlots (s : State) (l : Nat) (h : List Byte) (d : List Byte) (hs : Within μ s₀ s) (hm : Sub 570425344 μ) :
    Within μ s₀ (freeSlots s l h d) := by
  unfold freeSlots
  repeat' (first
    | with_reducible assumption | exact subStep hm (by decide) | with_reducible apply within_modLink | with_reducible apply within_sendIdle
    | with_reducible apply within_ite)
theorem within_spoilWords (s : State) (l : Nat) (d : MsgDest) (bad : List Nat) (hs : Within μ s₀ s) (hm : Sub 711490045 μ) :
    Within μ s₀ (spoilWords s l d bad) := by
  unfold spoilWords
  repeat' (first
    | with_reducible assumption | exact subStep hm (by decide) | intro _ | with_reducible apply within_ctxFault
    | with_reducible apply within_forEach | with_reducible apply within_poisonWord | with_reducible apply within_ite)
theorem within_applyMsg (s : State) (l : Nat) (h : List Byte) (data : List Byte) (bad : List Nat) (d : MsgDest) (hs : Within μ s₀ s) (hm : Sub 1785231869 μ) :
    Within μ s₀ (applyMsg s l h data bad d) := by
  unfold applyMsg
  repeat' (first
    | with_reducible assumption | exact subStep hm (by decide) | with_reducible apply within_dropLive
    | with_reducible apply within_recordInput | with_reducible apply within_writeMem | with_reducible apply within_storeBytes
    | with_reducible apply within_bump | with_reducible apply within_spoilWords | with_reducible apply within_signalTally
    | with_reducible apply within_ite | split)
theorem within_checkMsg {s t : State} {l : Nat} {h data : List Byte} {bad : List Nat} (hs : Within μ s₀ s) (e : checkMsg s l h data bad = .settled t) (hm : Sub 1785231869 μ) :
    Within μ s₀ t := by
  unfold checkMsg at e
  dsimp only at e
  repeat' split at e
  all_goals (first | (exfalso; exact absurd e (by simp only [reduceCtorEq, not_false_eq_true])) | skip)
  all_goals (rw [MsgRes.settled.injEq] at e; subst e)
  all_goals repeat' (first | exact subStep hm (by decide) | with_reducible assumption | intro _ | with_reducible apply within_sendRefuse | with_reducible apply within_bump | with_reducible apply within_applyMsg | with_reducible apply within_ctxFault | with_reducible apply within_sendNotice)
theorem within_checkMsgHeld {s t : State} {l g : Nat} {h data : List Byte} {bad : List Nat} (hs : Within μ s₀ s) (e : checkMsg s l h data bad = .held t g) (hm : Sub 1785231869 μ) :
    Within μ s₀ t := by
  unfold checkMsg at e
  dsimp only at e
  repeat' split at e
  all_goals (first | (exfalso; exact absurd e (by simp only [reduceCtorEq, not_false_eq_true])) | skip)
  all_goals (rw [MsgRes.held.injEq] at e; obtain ⟨rfl, _⟩ := e)
  all_goals exact hs
theorem within_headMsg (s : State) (l : Nat) (h : List Byte) (data : List Byte) (bad : List Nat) (hs : Within μ s₀ s) (hm : Sub 1785231869 μ) :
    Within μ s₀ (headMsg s l h data bad) := by
  unfold headMsg
  split
  · next e => exact within_freeSlots _ _ _ _ (within_checkMsg hs e (subStep hm (by decide))) (subStep hm (by decide))
  · next e => exact within_modLink _ _ _ (within_checkMsgHeld hs e (subStep hm (by decide))) (subStep hm (by decide))
theorem within_drainBehind (s : State) (l : Nat) (n : Nat) (hs : Within μ s₀ s) (hm : Sub 1785231869 μ) :
    Within μ s₀ (drainBehind s l n) := by
  induction n generalizing s with
  | zero => exact hs
  | succ n ih =>
    unfold drainBehind
    dsimp only
    repeat' (first | exact subStep hm (by decide) | with_reducible assumption | intro _ | with_reducible apply ih | with_reducible apply within_headMsg | with_reducible apply within_setLink | with_reducible apply within_ite | split)
theorem within_drainLink (s : State) (l : Nat) (hs : Within μ s₀ s) (hm : Sub 1785231869 μ) : Within μ s₀ (drainLink s l) := by
  unfold drainLink
  repeat' (first
    | with_reducible assumption | with_reducible apply within_drainBehind)
theorem within_serveLinks (s : State) (hs : Within μ s₀ s) (hm : Sub 1785231869 μ) : Within μ s₀ (serveLinks s) := by
  unfold serveLinks
  repeat' (first
    | with_reducible assumption | intro _ | with_reducible apply within_forEach | with_reducible apply within_drainLink)
theorem within_unhold (s : State) (l : Nat) (m : HeldMsg) (hs : Within μ s₀ s) (hm : Sub 33554432 μ) : Within μ s₀ (unhold s l m) := by
  unfold unhold
  repeat' (first
    | with_reducible assumption | with_reducible apply within_modLink)
theorem within_park (s : State) (l : Nat) (m : RxMsg) (front : Bool) (hs : Within μ s₀ s) (hm : Sub 33554432 μ) :
    Within μ s₀ (park s l m front) := by
  unfold park
  repeat' (first
    | with_reducible assumption | with_reducible apply within_modLink)
theorem within_recheckHeld (s : State) (l : Nat) (hs : Within μ s₀ s) (hm : Sub 1785231869 μ) : Within μ s₀ (recheckHeld s l) := by
  unfold recheckHeld
  repeat' (first
    | with_reducible assumption | exact subStep hm (by decide) | with_reducible apply within_drainLink
    | with_reducible apply within_park | with_reducible apply within_unhold | split)
theorem within_takeMsg0 (s : State) (l : Nat) (h : List Byte) (data : List Byte) (bad : List Nat) (hs : Within μ s₀ s) (hm : Sub 1785231869 μ) :
    Within μ s₀ (takeMsg0 s l h data bad) := by
  unfold takeMsg0
  repeat' (first
    | with_reducible assumption | exact subStep hm (by decide) | with_reducible apply within_park | with_reducible apply within_headMsg
    | with_reducible apply within_ite)
theorem within_recvMsg0 (s : State) (l : Nat) (h : List Byte) (data : List Byte) (bad : List Nat) (hs : Within μ s₀ s) (hm : Sub 1785231869 μ) :
    Within μ s₀ (recvMsg0 s l h data bad) := by
  unfold recvMsg0
  repeat' (first
    | with_reducible assumption | exact subStep hm (by decide) | with_reducible apply within_hostileEvent
    | with_reducible apply within_sendRefuse | with_reducible apply within_freeSlots | with_reducible apply within_takeMsg0
    | with_reducible apply within_ite)
theorem within_takeRefuse (s : State) (l : Nat) (h : List Byte) (hs : Within μ s₀ s) (hm : Sub 136 μ) : Within μ s₀ (takeRefuse s l h) := by
  unfold takeRefuse
  repeat' (first
    | with_reducible assumption | exact subStep hm (by decide) | with_reducible apply within_bump | with_reducible apply within_postPart
    | simp only [] | split)
theorem within_takeNotice (s : State) (l : Nat) (h : List Byte) (hs : Within μ s₀ s) (hm : Sub 524296 μ) :
    Within μ s₀ (takeNotice s l h) := by
  unfold takeNotice
  repeat' (first
    | with_reducible assumption | exact subStep hm (by decide) | with_reducible apply within_bump | with_reducible apply within_setGroup
    | with_reducible apply within_ite)
theorem within_takeAbort (s : State) (l : Nat) (h : List Byte) (hs : Within μ s₀ s) (hm : Sub 711490040 μ) :
    Within μ s₀ (takeAbort s l h) := by
  unfold takeAbort
  repeat' (first
    | with_reducible assumption | exact subStep hm (by decide) | with_reducible apply within_sendAbort
    | with_reducible apply within_abortGroup | with_reducible apply within_bump | with_reducible apply within_ite)
theorem within_recvMsg1 (s : State) (l : Nat) (h : List Byte) (type : Nat) (act : State → State) (hs : Within μ s₀ s) (hact : ∀ t, Within μ s₀ t → Within μ s₀ (act t)) (hm : Sub 570425480 μ) :
    Within μ s₀ (recvMsg1 s l h type act) := by
  unfold recvMsg1
  repeat' (first
    | with_reducible assumption | exact subStep hm (by decide) | with_reducible apply within_hostileEvent
    | with_reducible apply within_freeSlots | with_reducible apply within_modLink | with_reducible apply hact
    | with_reducible apply within_ite)
theorem within_recvAny (s : State) (l : Nat) (h : List Byte) (data : List Byte) (bad : List Nat) (hs : Within μ s₀ s) (hm : Sub 1785231869 μ) :
    Within μ s₀ (recvAny s l h data bad) := by
  unfold recvAny
  repeat' (first
    | with_reducible assumption | exact subStep hm (by decide) | intro _ | with_reducible apply within_recvMsg1
    | with_reducible apply within_takeRefuse | with_reducible apply within_takeNotice | with_reducible apply within_takeAbort
    | with_reducible apply within_recvMsg0 | split)
theorem within_execMsgWrite (l : LinkId) (header : List Byte) (data : List Byte) (bad : List Nat) (s : State) (hs : Within μ s₀ s) (hm : Sub 1785231869 μ) :
    WithinNext μ s₀ (execMsgWrite l header data bad s) := by
  unfold execMsgWrite
  repeat' (first
    | with_reducible assumption | with_reducible apply withinNext_next | with_reducible apply within_recvMsg0
    | with_reducible apply within_ite)
theorem within_execMsgBlock (l : LinkId) (header : List Byte) (data : List Byte) (bad : List Nat) (s : State) (hs : Within μ s₀ s) (hm : Sub 1785231869 μ) :
    WithinNext μ s₀ (execMsgBlock l header data bad s) := by
  unfold execMsgBlock
  repeat' (first
    | with_reducible assumption | with_reducible apply withinNext_next | with_reducible apply within_recvMsg0
    | with_reducible apply within_ite)
theorem within_execMsgRefuse (l : LinkId) (header : List Byte) (s : State) (hs : Within μ s₀ s) (hm : Sub 570425480 μ) :
    WithinNext μ s₀ (execMsgRefuse l header s) := by
  unfold execMsgRefuse
  repeat' (first
    | with_reducible assumption | exact subStep hm (by decide) | intro _ | with_reducible apply withinNext_next
    | with_reducible apply within_recvMsg1 | with_reducible apply within_takeRefuse)
theorem within_execMsgEpochNotice (l : LinkId) (header : List Byte) (s : State) (hs : Within μ s₀ s) (hm : Sub 570949768 μ) :
    WithinNext μ s₀ (execMsgEpochNotice l header s) := by
  unfold execMsgEpochNotice
  repeat' (first
    | with_reducible assumption | exact subStep hm (by decide) | intro _ | with_reducible apply withinNext_next
    | with_reducible apply within_recvMsg1 | with_reducible apply within_takeNotice)
theorem within_execMsgAbort (l : LinkId) (header : List Byte) (s : State) (hs : Within μ s₀ s) (hm : Sub 711490040 μ) :
    WithinNext μ s₀ (execMsgAbort l header s) := by
  unfold execMsgAbort
  repeat' (first
    | with_reducible assumption | exact subStep hm (by decide) | intro _ | with_reducible apply withinNext_next
    | with_reducible apply within_recvMsg1 | with_reducible apply within_takeAbort)
theorem within_dropHeld (s : State) (l : Nat) (hs : Within μ s₀ s) (hm : Sub 1785231869 μ) : Within μ s₀ (dropHeld s l) := by
  unfold dropHeld
  repeat' (first
    | with_reducible assumption | exact subStep hm (by decide) | with_reducible apply within_freeSlots
    | with_reducible apply within_unhold | with_reducible apply within_bump | with_reducible apply within_drainLink
    | simp only [] | split)
theorem within_passedBy (s : State) (g : Nat) (hs : Within μ s₀ s) (hm : Sub 711490040 μ) : Within μ s₀ (passedBy s g) := by
  unfold passedBy
  repeat' (first
    | with_reducible assumption | exact subStep hm (by decide) | with_reducible apply within_setGroup
    | with_reducible apply within_abortGroup | with_reducible apply within_postTo | with_reducible apply within_bump
    | with_reducible apply within_ite | simp only [] | split)
theorem within_execEpochGraceExpiry (site : GraceSite) (s : State) (hs : Within μ s₀ s) (hm : Sub 1785231869 μ) :
    WithinNext μ s₀ (execEpochGraceExpiry site s) := by
  unfold execEpochGraceExpiry
  repeat' (first
    | with_reducible assumption | exact subStep hm (by decide) | with_reducible apply withinNext_next
    | with_reducible apply within_dropHeld | with_reducible apply within_passedBy | split)
/-! ### LinkCtl -/

theorem within_notePartner (s : State) (l : Nat) (r : LinkRecord) (hs : Within μ s₀ s) (hm : Sub 33554440 μ) :
    Within μ s₀ (notePartner s l r) := by
  unfold notePartner
  repeat' (first
    | with_reducible assumption | exact subStep hm (by decide) | with_reducible apply within_setFld | with_reducible apply within_modLink)
theorem within_takeRecord (s : State) (l : Nat) (kind : Nat) (r : LinkRecord) (act : State → State) (hs : Within μ s₀ s) (hact : ∀ t, Within μ s₀ t → Within μ s₀ (act t)) (hm : Sub 704643208 μ) :
    Within μ s₀ (takeRecord s l kind r act) := by
  unfold takeRecord
  repeat' (first
    | with_reducible assumption | exact subStep hm (by decide) | with_reducible apply within_hostileEvent
    | with_reducible apply within_startRetrain | with_reducible apply within_fenceLink | with_reducible apply within_notePartner
    | with_reducible apply hact | with_reducible apply within_ite)
theorem within_negotiate (s : State) (l : Nat) (r : LinkRecord) (hs : Within μ s₀ s) (hm : Sub 719878653 μ) :
    Within μ s₀ (negotiate s l r) := by
  unfold negotiate
  repeat' (first
    | with_reducible assumption | exact subStep hm (by decide) | with_reducible apply within_notePartner
    | with_reducible apply within_bump | with_reducible apply within_sendKind | with_reducible apply within_setFld
    | with_reducible apply within_modLink | with_reducible apply within_goUp | with_reducible apply within_ite)
theorem within_notReady (s : State) (l : Nat) (r : LinkRecord) (hs : Within μ s₀ s) (hm : Sub 33554440 μ) :
    Within μ s₀ (notReady s l r) := by
  unfold notReady
  repeat' (first
    | with_reducible assumption | exact subStep hm (by decide) | with_reducible apply within_notePartner
    | with_reducible apply within_setLinkState | with_reducible apply within_modLink | with_reducible apply within_ite)
theorem within_heartbeat (s : State) (l : Nat) (r : LinkRecord) (hs : Within μ s₀ s) (hm : Sub 719878653 μ) :
    Within μ s₀ (heartbeat s l r) := by
  unfold heartbeat
  repeat' (first
    | with_reducible assumption | exact subStep hm (by decide) | with_reducible apply within_bump | with_reducible apply within_notePartner
    | with_reducible apply within_modLink | with_reducible apply within_goUp | with_reducible apply within_ite)
theorem within_degrade (s : State) (l : Nat) (r : LinkRecord) (hs : Within μ s₀ s) (hm : Sub 719878653 μ) :
    Within μ s₀ (degrade s l r) := by
  unfold degrade
  repeat' (first
    | with_reducible assumption | exact subStep hm (by decide) | with_reducible apply within_notePartner
    | with_reducible apply within_modLink | with_reducible apply within_useLanes | with_reducible apply within_sendKind
    | with_reducible apply within_ite)
theorem within_partnerFenced (s : State) (l : Nat) (r : LinkRecord) (hs : Within μ s₀ s) (hm : Sub 33554440 μ) :
    Within μ s₀ (partnerFenced s l r) := by
  unfold partnerFenced
  repeat' (first
    | with_reducible assumption | exact subStep hm (by decide) | with_reducible apply within_notePartner
    | with_reducible apply within_modLink)
theorem within_anyRecord (s : State) (l : Nat) (r : LinkRecord) (hs : Within μ s₀ s) (hm : Sub 719878653 μ) :
    Within μ s₀ (anyRecord s l r) := by
  unfold anyRecord
  repeat' (first
    | with_reducible assumption | exact subStep hm (by decide) | intro _ | with_reducible apply within_takeRecord
    | with_reducible apply within_negotiate | with_reducible apply within_notReady | with_reducible apply within_heartbeat
    | with_reducible apply within_degrade | with_reducible apply within_partnerFenced | split)
theorem within_execNegotiateReceive (l : LinkId) (rec : LinkRecord) (s : State) (hs : Within μ s₀ s) (hm : Sub 719878653 μ) :
    WithinNext μ s₀ (execNegotiateReceive l rec s) := by
  unfold execNegotiateReceive
  repeat' (first
    | with_reducible assumption | exact subStep hm (by decide) | intro _ | with_reducible apply withinNext_next
    | with_reducible apply within_takeRecord | with_reducible apply within_negotiate)
theorem within_execNotReadyReceive (l : LinkId) (rec : LinkRecord) (s : State) (hs : Within μ s₀ s) (hm : Sub 704643208 μ) :
    WithinNext μ s₀ (execNotReadyReceive l rec s) := by
  unfold execNotReadyReceive
  repeat' (first
    | with_reducible assumption | exact subStep hm (by decide) | intro _ | with_reducible apply withinNext_next
    | with_reducible apply within_takeRecord | with_reducible apply within_notReady)
theorem within_execHeartbeatReceive (l : LinkId) (rec : LinkRecord) (s : State) (hs : Within μ s₀ s) (hm : Sub 719878653 μ) :
    WithinNext μ s₀ (execHeartbeatReceive l rec s) := by
  unfold execHeartbeatReceive
  repeat' (first
    | with_reducible assumption | exact subStep hm (by decide) | intro _ | with_reducible apply withinNext_next
    | with_reducible apply within_takeRecord | with_reducible apply within_heartbeat)
theorem within_execDegradeReceive (l : LinkId) (rec : LinkRecord) (s : State) (hs : Within μ s₀ s) (hm : Sub 719878653 μ) :
    WithinNext μ s₀ (execDegradeReceive l rec s) := by
  unfold execDegradeReceive
  repeat' (first
    | with_reducible assumption | exact subStep hm (by decide) | intro _ | with_reducible apply withinNext_next
    | with_reducible apply within_takeRecord | with_reducible apply within_degrade)
theorem within_execFencedReceive (l : LinkId) (rec : LinkRecord) (s : State) (hs : Within μ s₀ s) (hm : Sub 704643208 μ) :
    WithinNext μ s₀ (execFencedReceive l rec s) := by
  unfold execFencedReceive
  repeat' (first
    | with_reducible assumption | exact subStep hm (by decide) | intro _ | with_reducible apply withinNext_next
    | with_reducible apply within_takeRecord | with_reducible apply within_partnerFenced)
theorem within_resendRecord (s : State) (l : Nat) (hs : Within μ s₀ s) (hm : Sub 570425344 μ) : Within μ s₀ (resendRecord s l) := by
  unfold resendRecord
  repeat' (first
    | with_reducible assumption | exact subStep hm (by decide) | with_reducible apply within_sendKind
    | with_reducible apply within_modLink | with_reducible apply within_ite | simp only [] | split)
theorem within_execNegotiateResend (l : LinkId) (s : State) (hs : Within μ s₀ s) (hm : Sub 570425344 μ) :
    WithinNext μ s₀ (execNegotiateResend l s) := by
  unfold execNegotiateResend
  repeat' (first
    | with_reducible assumption | with_reducible apply withinNext_next | with_reducible apply within_resendRecord)
theorem within_execHeartbeatSend (l : LinkId) (s : State) (hs : Within μ s₀ s) (hm : Sub 570425344 μ) :
    WithinNext μ s₀ (execHeartbeatSend l s) := by
  unfold execHeartbeatSend
  repeat' (first
    | with_reducible assumption | exact subStep hm (by decide) | with_reducible apply withinNext_next
    | with_reducible apply within_sendKind | with_reducible apply within_modLink | with_reducible apply within_ite)
theorem within_heartbeatLost (s : State) (l : Nat) (hs : Within μ s₀ s) (hm : Sub 33554568 μ) : Within μ s₀ (heartbeatLost s l) := by
  unfold heartbeatLost
  repeat' (first
    | with_reducible assumption | exact subStep hm (by decide) | with_reducible apply within_modLink | with_reducible apply within_bump
    | with_reducible apply within_postBoth | with_reducible apply within_setLinkState | with_reducible apply within_ite
    | simp only [] | split)
theorem within_execHeartbeatTimeout (l : LinkId) (s : State) (hs : Within μ s₀ s) (hm : Sub 33554568 μ) :
    WithinNext μ s₀ (execHeartbeatTimeout l s) := by
  unfold execHeartbeatTimeout
  repeat' (first
    | with_reducible assumption | with_reducible apply withinNext_next | with_reducible apply within_heartbeatLost)
theorem within_laneLocked (s : State) (l : Nat) (lane : Nat) (rate : Nat) (latency : Nat) (hs : Within μ s₀ s) (hm : Sub 704643208 μ) :
    Within μ s₀ (laneLocked s l lane rate latency) := by
  unfold laneLocked
  repeat' (first
    | with_reducible assumption | exact subStep hm (by decide) | with_reducible apply within_setLinkState
    | with_reducible apply within_setFld | with_reducible apply within_setLink | with_reducible apply within_trained
    | with_reducible apply within_ite)
theorem within_execLaneLock (l : LinkId) (lane : Fin 2) (rate : Fin 3) (latencyNs : Nat) (s : State) (hs : Within μ s₀ s) (hm : Sub 704643208 μ) :
    WithinNext μ s₀ (execLaneLock l lane rate latencyNs s) := by
  unfold execLaneLock
  repeat' (first
    | with_reducible assumption | with_reducible apply withinNext_next | with_reducible apply within_laneLocked)
theorem within_retireLane (s : State) (l : Nat) (lane : Nat) (hs : Within μ s₀ s) (hm : Sub 719878653 μ) :
    Within μ s₀ (retireLane s l lane) := by
  unfold retireLane
  repeat' (first
    | with_reducible assumption | exact subStep hm (by decide) | with_reducible apply within_healthEvent
    | with_reducible apply within_bump | with_reducible apply within_modLink | with_reducible apply within_goDown
    | with_reducible apply within_trained | with_reducible apply within_useLanes | with_reducible apply within_sendKind
    | with_reducible apply within_ite)
theorem within_execLaneRetire (l : LinkId) (lane : Fin 2) (s : State) (hs : Within μ s₀ s) (hm : Sub 719878653 μ) :
    WithinNext μ s₀ (execLaneRetire l lane s) := by
  unfold execLaneRetire
  repeat' (first
    | with_reducible assumption | with_reducible apply withinNext_next | with_reducible apply within_retireLane)
theorem within_execLinkRetrainStart (l : LinkId) (s : State) (hs : Within μ s₀ s) (hm : Sub 167772296 μ) :
    WithinNext μ s₀ (execLinkRetrainStart l s) := by
  unfold execLinkRetrainStart
  repeat' (first
    | with_reducible assumption | with_reducible apply withinNext_next | with_reducible apply within_startRetrain
    | with_reducible apply within_ite)
theorem within_retrainEnd (s : State) (l : Nat) (ok : Bool) (latency : Nat) (hs : Within μ s₀ s) (hm : Sub 719878653 μ) :
    Within μ s₀ (retrainEnd s l ok latency) := by
  unfold retrainEnd
  repeat' (first
    | with_reducible assumption | exact subStep hm (by decide) | with_reducible apply within_setFld | with_reducible apply within_goUp
    | with_reducible apply within_modLink | with_reducible apply within_goDown | with_reducible apply within_lowerRate
    | with_reducible apply within_ite)
theorem within_execLinkRetrainEnd (l : LinkId) (ok : Bool) (latencyNs : Nat) (s : State) (hs : Within μ s₀ s) (hm : Sub 719878653 μ) :
    WithinNext μ s₀ (execLinkRetrainEnd l ok latencyNs s) := by
  unfold execLinkRetrainEnd
  repeat' (first
    | with_reducible assumption | with_reducible apply withinNext_next | with_reducible apply within_retrainEnd)
theorem within_execTrainingTimeout (l : LinkId) (s : State) (hs : Within μ s₀ s) (hm : Sub 33554440 μ) :
    WithinNext μ s₀ (execTrainingTimeout l s) := by
  unfold execTrainingTimeout
  repeat' (first
    | with_reducible assumption | with_reducible apply withinNext_next | with_reducible apply within_lowerRate
    | with_reducible apply within_goDown | with_reducible apply within_ite)
theorem within_execLnkLoopStart (l : LinkId) (value : Word) (s : State) (hs : Within μ s₀ s) (hm : Sub 33554440 μ) :
    WithinNext μ s₀ (execLnkLoopStart l value s) := by
  unfold execLnkLoopStart
  repeat' (first
    | with_reducible assumption | with_reducible apply withinNext_next | with_reducible apply within_linkLoopWrite)
theorem within_execLnkLoopModeWrite (l : LinkId) (value : Word) (s : State) (hs : Within μ s₀ s) (hm : Sub 33554440 μ) :
    WithinNext μ s₀ (execLnkLoopModeWrite l value s) := by
  unfold execLnkLoopModeWrite
  repeat' (first
    | with_reducible assumption | with_reducible apply withinNext_next | with_reducible apply within_linkLoopWrite)
theorem within_linkLoopDone (s : State) (l : Nat) (e0 : Nat) (e1 : Nat) (k0 : Bool) (k1 : Bool) (hs : Within μ s₀ s) (hm : Sub 33554440 μ) :
    Within μ s₀ (linkLoopDone s l e0 e1 k0 k1) := by
  unfold linkLoopDone
  repeat' (first
    | with_reducible assumption | exact subStep hm (by decide) | with_reducible apply within_setFld | with_reducible apply within_setRaw
    | with_reducible apply within_goDown | with_reducible apply within_modLink | with_reducible apply within_ite)
theorem within_execLnkLoopDone (l : LinkId) (errors0 : Nat) (errors1 : Nat) (locked0 : Bool) (locked1 : Bool) (s : State) (hs : Within μ s₀ s) (hm : Sub 33554440 μ) :
    WithinNext μ s₀ (execLnkLoopDone l errors0 errors1 locked0 locked1 s) := by
  unfold execLnkLoopDone
  repeat' (first
    | with_reducible assumption | with_reducible apply withinNext_next | with_reducible apply within_linkLoopDone)
theorem within_takeStream (s : State) (l : Nat) (b : List Byte) (lost : List Nat) (hs : Within μ s₀ s) (hm : Sub 1785231869 μ) :
    Within μ s₀ (takeStream s l b lost) := by
  unfold takeStream
  repeat' (first
    | with_reducible assumption | exact subStep hm (by decide) | intro _ | with_reducible apply within_modLink
    | with_reducible apply within_forEach | with_reducible apply within_recvAny | with_reducible apply within_hostileEvent
    | with_reducible apply within_ite)
theorem within_takePayload (s : State) (l : Nat) (first : Nat) (payload : List Byte) (lost : List Nat) (hs : Within μ s₀ s) (hm : Sub 1785231869 μ) :
    Within μ s₀ (takePayload s l first payload lost) := by
  unfold takePayload
  repeat' (first
    | with_reducible assumption | exact subStep hm (by decide) | with_reducible apply within_takeStream
    | with_reducible apply within_hostileEvent | with_reducible apply within_setLink | with_reducible apply within_ite)
theorem within_rejectFlit (s : State) (l : Nat) (hs : Within μ s₀ s) (hm : Sub 704647304 μ) : Within μ s₀ (rejectFlit s l) := by
  unfold rejectFlit
  repeat' (first
    | with_reducible assumption | exact subStep hm (by decide) | with_reducible apply within_countNak
    | with_reducible apply within_sendIdle | with_reducible apply within_setLink | with_reducible apply within_ite)
theorem within_takeAck (s : State) (l : Nat) (ack : Nat) (hs : Within μ s₀ s) (hm : Sub 33554432 μ) : Within μ s₀ (takeAck s l ack) := by
  unfold takeAck
  repeat' (first
    | with_reducible assumption | with_reducible apply within_setLink | with_reducible apply within_ite)
theorem within_takeCredit (s : State) (l : Nat) (c : Nat) (freed : Nat) (hs : Within μ s₀ s) (hm : Sub 570425480 μ) :
    Within μ s₀ (takeCredit s l c freed) := by
  unfold takeCredit
  repeat' (first
    | with_reducible assumption | exact subStep hm (by decide) | with_reducible apply within_setLink | with_reducible apply within_hostileEvent
    | with_reducible apply within_ite)
theorem within_takeNak (s : State) (l : Nat) (ack : Nat) (hs : Within μ s₀ s) (hm : Sub 719878653 μ) : Within μ s₀ (takeNak s l ack) := by
  unfold takeNak
  repeat' (first
    | with_reducible assumption | exact subStep hm (by decide) | with_reducible apply within_setLink | with_reducible apply within_resendFrom
    | with_reducible apply within_countNak | with_reducible apply within_startRetrain | with_reducible apply within_ite)
theorem within_dataFlit (s : State) (l : Nat) (b : List Byte) (lost : List Nat) (hs : Within μ s₀ s) (hm : Sub 1785231869 μ) :
    Within μ s₀ (dataFlit s l b lost) := by
  unfold dataFlit
  repeat' (first
    | with_reducible assumption | exact subStep hm (by decide) | with_reducible apply within_setLink | with_reducible apply within_takePayload
    | with_reducible apply within_sendIdle | with_reducible apply within_rejectFlit | with_reducible apply within_ite)
theorem within_controlFlit (s : State) (l : Nat) (b : List Byte) (hs : Within μ s₀ s) (hm : Sub 719878653 μ) :
    Within μ s₀ (controlFlit s l b) := by
  unfold controlFlit
  repeat' (first
    | with_reducible assumption | exact subStep hm (by decide) | with_reducible apply within_anyRecord
    | with_reducible apply within_hostileEvent | with_reducible apply within_ite | split)
theorem within_malformedFlit (s : State) (l : Nat) (type : Nat) (hs : Within μ s₀ s) (hm : Sub 704647304 μ) :
    Within μ s₀ (malformedFlit s l type) := by
  unfold malformedFlit
  repeat' (first
    | with_reducible assumption | exact subStep hm (by decide) | with_reducible apply within_bump | with_reducible apply within_rejectFlit
    | with_reducible apply within_hostileEvent | with_reducible apply within_ite)
theorem within_goodFlit (s : State) (l : Nat) (b : List Byte) (lost : List Nat) (hs : Within μ s₀ s) (hm : Sub 1793620477 μ) :
    Within μ s₀ (goodFlit s l b lost) := by
  unfold goodFlit
  repeat' (first
    | with_reducible assumption | exact subStep hm (by decide) | with_reducible apply within_malformedFlit
    | with_reducible apply within_controlFlit | with_reducible apply within_takeAck | with_reducible apply within_takeCredit
    | with_reducible apply within_takeNak | with_reducible apply within_dataFlit | with_reducible apply within_pump
    | with_reducible apply within_ite)
theorem within_badWord (s : State) (l : Nat) (lane : Nat) (hs : Within μ s₀ s) (hm : Sub 719878653 μ) : Within μ s₀ (badWord s l lane) := by
  unfold badWord
  repeat' (first
    | with_reducible assumption | exact subStep hm (by decide) | with_reducible apply within_healthEvent
    | with_reducible apply within_modLink | with_reducible apply within_retireLane | with_reducible apply within_ite)
theorem within_flitReceived (s : State) (l : Nat) (lane : Nat) (decoded : Bool) (corrected : Bool) (b : List Byte) (lost : List Nat) (hs : Within μ s₀ s) (hm : Sub 1793620477 μ) :
    Within μ s₀ (flitReceived s l lane decoded corrected b lost) := by
  unfold flitReceived
  repeat' (first
    | with_reducible assumption | exact subStep hm (by decide) | with_reducible apply within_bump | with_reducible apply within_badWord
    | with_reducible apply within_rejectFlit | with_reducible apply within_goodFlit | with_reducible apply within_ite)
theorem within_execFlitReceive (l : LinkId) (decoded : Bool) (corrected : Bool) (flit : RxFlit) (s : State) (hs : Within μ s₀ s) (hm : Sub 1793620477 μ) :
    WithinNext μ s₀ (execFlitReceive l decoded corrected flit s) := by
  unfold execFlitReceive
  repeat' (first
    | with_reducible assumption | with_reducible apply withinNext_next | with_reducible apply within_flitReceived)
/-! ### CmdNet -/

theorem within_effectGroupBind (c : Cmd) (s : State) (hs : Within μ s₀ s) (hm : Sub 532480 μ) :
    Within μ s₀ (effectGroupBind c s).state := by
  unfold effectGroupBind
  repeat' (first
    | with_reducible assumption | exact subStep hm (by decide) | with_reducible apply within_setGroup
    | with_reducible apply within_okWith | with_reducible apply within_modCtx | with_reducible apply within_ite)
theorem within_execGroupBind (rq : Req) (ctx : Word) (group : Word) (epoch : Word) (s : State) (hs : Within μ s₀ s) (hm : Sub 671627256 μ) :
    WithinNext μ s₀ (execGroupBind rq ctx group epoch s) := by
  unfold execGroupBind
  repeat' (first
    | with_reducible assumption | exact subStep hm (by decide) | intro _ | with_reducible apply withinNext_next
    | with_reducible apply within_runRow | with_reducible apply within_effectGroupBind)
theorem within_effectEpochInstall (c : Cmd) (s : State) (hs : Within μ s₀ s) (hm : Sub 1794734589 μ) :
    Within μ s₀ (effectEpochInstall c s).state := by
  unfold effectEpochInstall
  repeat' (first
    | with_reducible assumption | exact subStep hm (by decide) | intro _ | with_reducible apply within_setGroup
    | with_reducible apply within_abortGroup | with_reducible apply within_bump | with_reducible apply within_staleComms
    | with_reducible apply within_forEach | with_reducible apply within_dropExcluded | with_reducible apply within_okWith
    | with_reducible apply within_recheckHeld | with_reducible apply within_ite)
theorem within_execEpochInstall (rq : Req) (group : Word) (epoch : Word) (mask : Word) (isMember : Word) (s : State) (hs : Within μ s₀ s) (hm : Sub 1794736125 μ) :
    WithinNext μ s₀ (execEpochInstall rq group epoch mask isMember s) := by
  unfold execEpochInstall
  repeat' (first
    | with_reducible assumption | exact subStep hm (by decide) | intro _ | with_reducible apply withinNext_next
    | with_reducible apply within_runRow | with_reducible apply within_effectEpochInstall)
theorem within_effectCommCreate (c : Cmd) (s : State) (hs : Within μ s₀ s) (hm : Sub 1074790400 μ) :
    Within μ s₀ (effectCommCreate c s).state := by
  unfold effectCommCreate
  repeat' (first
    | with_reducible assumption | exact subStep hm (by decide) | with_reducible apply within_done | with_reducible apply within_okWith
    | with_reducible apply within_setComm | (refine within_pickIndex ?_ (by with_reducible assumption) ?_)
    | simp only [] | split)
theorem within_execCommCreate (rq : Req) (ctx : Word) (sec : Word) (addr : Word) (s : State) (hs : Within μ s₀ s) (hm : Sub 1745893368 μ) :
    WithinNext μ s₀ (execCommCreate rq ctx sec addr s) := by
  unfold execCommCreate
  repeat' (first
    | with_reducible assumption | exact subStep hm (by decide) | intro _ | with_reducible apply withinNext_next
    | with_reducible apply within_runRowWith | with_reducible apply within_effectCommCreate)
theorem within_effectCommDestroy (c : Cmd) (s : State) (hs : Within μ s₀ s) (hm : Sub 1049600 μ) :
    Within μ s₀ (effectCommDestroy c s).state := by
  unfold effectCommDestroy
  repeat' (first
    | with_reducible assumption | exact subStep hm (by decide) | with_reducible apply within_okWith | with_reducible apply within_pruneTokens
    | with_reducible apply within_setComm)
theorem within_execCommDestroy (rq : Req) (sec : Word) (comm : Word) (s : State) (hs : Within μ s₀ s) (hm : Sub 672151544 μ) :
    WithinNext μ s₀ (execCommDestroy rq sec comm s) := by
  unfold execCommDestroy
  repeat' (first
    | with_reducible assumption | exact subStep hm (by decide) | intro _ | with_reducible apply withinNext_next
    | with_reducible apply within_runRow | with_reducible apply within_effectCommDestroy)
theorem within_effectLinkExpect (c : Cmd) (s : State) (hs : Within μ s₀ s) (hm : Sub 33554440 μ) :
    Within μ s₀ (effectLinkExpect c s).state := by
  unfold effectLinkExpect
  repeat' (first
    | with_reducible assumption | exact subStep hm (by decide) | with_reducible apply within_modLink | with_reducible apply within_okWith
    | with_reducible apply within_setFld)
theorem within_execLinkExpect (rq : Req) (link : Word) (moduleId : Word) (partner : Word) (check : Word) (s : State) (hs : Within μ s₀ s) (hm : Sub 704657400 μ) :
    WithinNext μ s₀ (execLinkExpect rq link moduleId partner check s) := by
  unfold execLinkExpect
  repeat' (first
    | with_reducible assumption | exact subStep hm (by decide) | intro _ | with_reducible apply withinNext_next
    | with_reducible apply within_runRow | with_reducible apply within_effectLinkExpect)
theorem within_trainAnew (s : State) (l : Nat) (hs : Within μ s₀ s) (hm : Sub 33554440 μ) : Within μ s₀ (trainAnew s l) := by
  unfold trainAnew
  repeat' (first
    | with_reducible assumption | exact subStep hm (by decide) | with_reducible apply within_setFld | with_reducible apply within_setLinkState
    | with_reducible apply within_modLink)
theorem within_retrainAll (s : State) (l : Nat) (hs : Within μ s₀ s) (hm : Sub 167772296 μ) : Within μ s₀ (retrainAll s l) := by
  unfold retrainAll
  repeat' (first
    | with_reducible assumption | exact subStep hm (by decide) | with_reducible apply within_modLink | with_reducible apply within_startRetrain
    | with_reducible apply within_trainAnew | with_reducible apply within_ite)
theorem within_unfence (s : State) (l : Nat) (hs : Within μ s₀ s) (hm : Sub 33554440 μ) : Within μ s₀ (unfence s l) := by
  unfold unfence
  repeat' (first
    | with_reducible assumption | exact subStep hm (by decide) | with_reducible apply within_setFld | with_reducible apply within_goDown
    | with_reducible apply within_modLink | with_reducible apply within_trainAnew | with_reducible apply within_ite)
theorem within_effectLinkAction (c : Cmd) (s : State) (hs : Within μ s₀ s) (hm : Sub 704643208 μ) :
    Within μ s₀ (effectLinkAction c s).state := by
  unfold effectLinkAction
  repeat' (first
    | with_reducible assumption | exact subStep hm (by decide) | with_reducible apply within_okWith | with_reducible apply within_retrainAll
    | with_reducible apply within_fenceLink | with_reducible apply within_unfence | with_reducible apply within_ite)
theorem within_execLinkRetrain (rq : Req) (link : Word) (s : State) (hs : Within μ s₀ s) (hm : Sub 704657400 μ) :
    WithinNext μ s₀ (execLinkRetrain rq link s) := by
  unfold execLinkRetrain
  repeat' (first
    | with_reducible assumption | exact subStep hm (by decide) | intro _ | with_reducible apply withinNext_next
    | with_reducible apply within_runRow | with_reducible apply within_effectLinkAction)
theorem within_execLinkFence (rq : Req) (link : Word) (s : State) (hs : Within μ s₀ s) (hm : Sub 704657400 μ) :
    WithinNext μ s₀ (execLinkFence rq link s) := by
  unfold execLinkFence
  repeat' (first
    | with_reducible assumption | exact subStep hm (by decide) | intro _ | with_reducible apply withinNext_next
    | with_reducible apply within_runRow | with_reducible apply within_effectLinkAction)
theorem within_execLinkUnfence (rq : Req) (link : Word) (s : State) (hs : Within μ s₀ s) (hm : Sub 704657400 μ) :
    WithinNext μ s₀ (execLinkUnfence rq link s) := by
  unfold execLinkUnfence
  repeat' (first
    | with_reducible assumption | exact subStep hm (by decide) | intro _ | with_reducible apply withinNext_next
    | with_reducible apply within_runRow | with_reducible apply within_effectLinkAction)
theorem within_effectLinkCfg (c : Cmd) (s : State) (hs : Within μ s₀ s) (hm : Sub 8 μ) : Within μ s₀ (effectLinkCfg c s).state := by
  unfold effectLinkCfg
  repeat' (first
    | with_reducible assumption | exact subStep hm (by decide) | intro _ | with_reducible apply within_okWith
    | with_reducible apply within_forEach | with_reducible apply within_setFld)
theorem within_execLinkCfg (rq : Req) (mask : Word) (fenceLimit : Word) (grace : Word) (rateCap : Word) (s : State) (hs : Within μ s₀ s) (hm : Sub 671102968 μ) :
    WithinNext μ s₀ (execLinkCfg rq mask fenceLimit grace rateCap s) := by
  unfold execLinkCfg
  repeat' (first
    | with_reducible assumption | exact subStep hm (by decide) | intro _ | with_reducible apply withinNext_next
    | with_reducible apply within_runRow | with_reducible apply within_effectLinkCfg)
/-! ### CmdNum -/

theorem within_effectHistSet (c : Cmd) (s : State) (hs : Within μ s₀ s) (hm : Sub 65536 μ) : Within μ s₀ (effectHistSet c s).state := by
  unfold effectHistSet
  repeat' (first
    | with_reducible assumption | exact subStep hm (by decide) | with_reducible apply within_okWith | with_reducible apply within_onTensor)
theorem within_execHistSet (rq : Req) (tensor : Word) (base : Word) (width : Word) (s : State) (hs : Within μ s₀ s) (hm : Sub 671168504 μ) :
    WithinNext μ s₀ (execHistSet rq tensor base width s) := by
  unfold execHistSet
  repeat' (first
    | with_reducible assumption | exact subStep hm (by decide) | intro _ | with_reducible apply withinNext_next
    | with_reducible apply within_runRow | with_reducible apply within_effectHistSet)
theorem within_snapClear (s : State) (p : Nat) (kind : Nat) (e : Nat) (hs : Within μ s₀ s) (hm : Sub 204800 μ) :
    Within μ s₀ (snapClear s p kind e) := by
  unfold snapClear
  repeat' (first
    | with_reducible assumption | exact subStep hm (by decide) | with_reducible apply within_modTensor
    | with_reducible apply within_modGate | with_reducible apply within_clearNf | split)
theorem within_effectNumSnapshot (c : Cmd) (s : State) (hs : Within μ s₀ s) (hm : Sub 134426872 μ) :
    Within μ s₀ (effectNumSnapshot c s).state := by
  unfold effectNumSnapshot
  repeat' (first
    | with_reducible assumption | exact subStep hm (by decide) | intro _ | with_reducible apply within_writeArg
    | with_reducible apply within_okWith | with_reducible apply within_forEach | with_reducible apply within_snapClear
    | with_reducible apply within_ite)
theorem within_execNumSnapshot (rq : Req) (kind : Word) (list : Word) (count : Word) (dest : Word) (clear : Word) (s : State) (hs : Within μ s₀ s) (hm : Sub 671299576 μ) :
    WithinNext μ s₀ (execNumSnapshot rq kind list count dest clear s) := by
  unfold execNumSnapshot
  repeat' (first
    | with_reducible assumption | exact subStep hm (by decide) | intro _ | with_reducible apply withinNext_next
    | with_reducible apply within_runRowWith | with_reducible apply within_effectNumSnapshot)
theorem within_effectGateCreate (c : Cmd) (s : State) (hs : Within μ s₀ s) (hm : Sub 1208094904 μ) :
    Within μ s₀ (effectGateCreate c s).state := by
  unfold effectGateCreate
  repeat' (first
    | with_reducible assumption | exact subStep hm (by decide) | with_reducible apply within_done | with_reducible apply within_okWith
    | with_reducible apply within_writeScaleRow | with_reducible apply within_setGate | (refine within_pickIndex ?_ (by with_reducible assumption) ?_)
    | simp only [] | split)
theorem within_execGateCreate (rq : Req) (ctx : Word) (row : Word) (scale : Word) (down : Word) (up : Word) (interval : Word) (nfAddr : Word) (s : State) (hs : Within μ s₀ s) (hm : Sub 1744975864 μ) :
    WithinNext μ s₀ (execGateCreate rq ctx row scale down up interval nfAddr s) := by
  unfold execGateCreate
  repeat' (first
    | with_reducible assumption | exact subStep hm (by decide) | intro _ | with_reducible apply withinNext_next
    | with_reducible apply within_runRow | with_reducible apply within_effectGateCreate)
theorem within_effectGateSet (c : Cmd) (s : State) (hs : Within μ s₀ s) (hm : Sub 134353080 μ) : Within μ s₀ (effectGateSet c s).state := by
  unfold effectGateSet
  repeat' (first
    | with_reducible assumption | exact subStep hm (by decide) | with_reducible apply within_okWith | with_reducible apply within_writeScaleRow
    | with_reducible apply within_setGate)
theorem within_execGateSet (rq : Req) (gate : Word) (row : Word) (scale : Word) (down : Word) (up : Word) (interval : Word) (nfAddr : Word) (s : State) (hs : Within μ s₀ s) (hm : Sub 671234040 μ) :
    WithinNext μ s₀ (execGateSet rq gate row scale down up interval nfAddr s) := by
  unfold execGateSet
  repeat' (first
    | with_reducible assumption | exact subStep hm (by decide) | intro _ | with_reducible apply withinNext_next
    | with_reducible apply within_runRow | with_reducible apply within_effectGateSet)
theorem within_effectGateDestroy (c : Cmd) (s : State) (hs : Within μ s₀ s) (hm : Sub 132096 μ) :
    Within μ s₀ (effectGateDestroy c s).state := by
  unfold effectGateDestroy
  repeat' (first
    | with_reducible assumption | exact subStep hm (by decide) | with_reducible apply within_okWith | with_reducible apply within_pruneTokens
    | with_reducible apply within_setGate)
theorem within_execGateDestroy (rq : Req) (gate : Word) (s : State) (hs : Within μ s₀ s) (hm : Sub 671234040 μ) :
    WithinNext μ s₀ (execGateDestroy rq gate s) := by
  unfold execGateDestroy
  repeat' (first
    | with_reducible assumption | exact subStep hm (by decide) | intro _ | with_reducible apply withinNext_next
    | with_reducible apply within_runRow | with_reducible apply within_effectGateDestroy)
theorem within_effectWitnessCfg (c : Cmd) (s : State) (hs : Within μ s₀ s) (hm : Sub 4104 μ) :
    Within μ s₀ (effectWitnessCfg c s).state := by
  unfold effectWitnessCfg
  repeat' (first
    | with_reducible assumption | exact subStep hm (by decide) | intro _ | with_reducible apply within_forEach
    | with_reducible apply within_setFld | with_reducible apply within_okWith | with_reducible apply within_modPart)
theorem within_execWitnessCfg (rq : Req) (enable : Word) (k : Word) (wseed : Word) (hold : Word) (s : State) (hs : Within μ s₀ s) (hm : Sub 671102968 μ) :
    WithinNext μ s₀ (execWitnessCfg rq enable k wseed hold s) := by
  unfold execWitnessCfg
  repeat' (first
    | with_reducible assumption | exact subStep hm (by decide) | intro _ | with_reducible apply withinNext_next
    | with_reducible apply within_runRow | with_reducible apply within_effectWitnessCfg)
theorem within_effectDriftPair (c : Cmd) (s : State) (hs : Within μ s₀ s) (hm : Sub 1073745920 μ) :
    Within μ s₀ (effectDriftPair c s).state := by
  unfold effectDriftPair
  repeat' (first
    | with_reducible assumption | exact subStep hm (by decide) | with_reducible apply within_done | with_reducible apply within_okWith
    | with_reducible apply within_modPart | with_reducible apply within_iteOut | (refine within_pickIndex ?_ (by with_reducible assumption) ?_)
    | simp only [] | split)
theorem within_execDriftPair (rq : Req) (out : Word) (wideA : Word) (wideB : Word) (band : Word) (floor : Word) (remove : Word) (s : State) (hs : Within μ s₀ s) (hm : Sub 1744844792 μ) :
    WithinNext μ s₀ (execDriftPair rq out wideA wideB band floor remove s) := by
  unfold execDriftPair
  repeat' (first
    | with_reducible assumption | exact subStep hm (by decide) | intro _ | with_reducible apply withinNext_next
    | with_reducible apply within_runRow | with_reducible apply within_effectDriftPair)
theorem within_effectOutlierRing (c : Cmd) (s : State) (hs : Within μ s₀ s) (hm : Sub 4096 μ) :
    Within μ s₀ (effectOutlierRing c s).state := by
  unfold effectOutlierRing
  repeat' (first
    | with_reducible assumption | exact subStep hm (by decide) | with_reducible apply within_okWith | with_reducible apply within_modPart)
theorem within_execOutlierRing (rq : Req) (addr : Word) (len : Word) (s : State) (hs : Within μ s₀ s) (hm : Sub 671102968 μ) :
    WithinNext μ s₀ (execOutlierRing rq addr len s) := by
  unfold execOutlierRing
  repeat' (first
    | with_reducible assumption | exact subStep hm (by decide) | intro _ | with_reducible apply withinNext_next
    | with_reducible apply within_runRow | with_reducible apply within_effectOutlierRing)
theorem within_effectRplRecord (c : Cmd) (s : State) (hs : Within μ s₀ s) (hm : Sub 8192 μ) : Within μ s₀ (effectRplRecord c s).state := by
  unfold effectRplRecord
  repeat' (first
    | with_reducible assumption | exact subStep hm (by decide) | with_reducible apply within_okWith | with_reducible apply within_modCtx)
theorem within_execRplRecord (rq : Req) (ctx : Word) (addr : Word) (len : Word) (payload : Word) (s : State) (hs : Within μ s₀ s) (hm : Sub 671102968 μ) :
    WithinNext μ s₀ (execRplRecord rq ctx addr len payload s) := by
  unfold execRplRecord
  repeat' (first
    | with_reducible assumption | exact subStep hm (by decide) | intro _ | with_reducible apply withinNext_next
    | with_reducible apply within_runRow | with_reducible apply within_effectRplRecord)
theorem within_effectRplMark (c : Cmd) (s : State) (hs : Within μ s₀ s) (hm : Sub 8192 μ) : Within μ s₀ (effectRplMark c s).state := by
  unfold effectRplMark
  repeat' (first
    | with_reducible assumption | exact subStep hm (by decide) | with_reducible apply within_okWith | with_reducible apply within_modCtx)
theorem within_execRplMark (rq : Req) (ctx : Word) (tally : Word) (tensor : Word) (n : Word) (s : State) (hs : Within μ s₀ s) (hm : Sub 671102968 μ) :
    WithinNext μ s₀ (execRplMark rq ctx tally tensor n s) := by
  unfold execRplMark
  repeat' (first
    | with_reducible assumption | exact subStep hm (by decide) | intro _ | with_reducible apply withinNext_next
    | with_reducible apply within_runRow | with_reducible apply within_effectRplMark)
theorem within_effectRplReplay (c : Cmd) (s : State) (hs : Within μ s₀ s) (hm : Sub 8200 μ) : Within μ s₀ (effectRplReplay c s).state := by
  unfold effectRplReplay
  repeat' (first
    | with_reducible assumption | exact subStep hm (by decide) | with_reducible apply within_wait | with_reducible apply within_setFld
    | with_reducible apply within_setRaw | with_reducible apply within_modCtx)
theorem within_execRplReplay (rq : Req) (ctx : Word) (addr : Word) (len : Word) (s : State) (hs : Within μ s₀ s) (hm : Sub 671102968 μ) :
    WithinNext μ s₀ (execRplReplay rq ctx addr len s) := by
  unfold execRplReplay
  repeat' (first
    | with_reducible assumption | exact subStep hm (by decide) | intro _ | with_reducible apply withinNext_next
    | with_reducible apply within_runRow | with_reducible apply within_effectRplReplay)
/-! ### CmdMgmt -/

theorem within_effectGravelCfg (c : Cmd) (s : State) (hs : Within μ s₀ s) (hm : Sub 8 μ) : Within μ s₀ (effectGravelCfg c s).state := by
  unfold effectGravelCfg
  repeat' (first
    | with_reducible assumption | exact subStep hm (by decide) | intro _ | with_reducible apply within_okWith
    | with_reducible apply within_forEach | with_reducible apply within_setFld)
theorem within_execGravelCfg (rq : Req) (period : Word) (corners : Word) (s : State) (hs : Within μ s₀ s) (hm : Sub 671102968 μ) :
    WithinNext μ s₀ (execGravelCfg rq period corners s) := by
  unfold execGravelCfg
  repeat' (first
    | with_reducible assumption | exact subStep hm (by decide) | intro _ | with_reducible apply withinNext_next
    | with_reducible apply within_runRow | with_reducible apply within_effectGravelCfg)
theorem within_effectAutumnRun (c : Cmd) (s : State) (hs : Within μ s₀ s) (hm : Sub 134217737 μ) :
    Within μ s₀ (effectAutumnRun c s).state := by
  unfold effectAutumnRun
  repeat' (first
    | with_reducible assumption | with_reducible apply within_wait | with_reducible apply within_startAutumn)
theorem within_execAutumnRun (rq : Req) (mask : Word) (s : State) (hs : Within μ s₀ s) (hm : Sub 671102969 μ) :
    WithinNext μ s₀ (execAutumnRun rq mask s) := by
  unfold execAutumnRun
  repeat' (first
    | with_reducible assumption | exact subStep hm (by decide) | intro _ | with_reducible apply withinNext_next
    | with_reducible apply within_runRow | with_reducible apply within_effectAutumnRun)
theorem within_effectPowerCap (c : Cmd) (s : State) (hs : Within μ s₀ s) (hm : Sub 67108864 μ) :
    Within μ s₀ (effectPowerCap c s).state := by
  unfold effectPowerCap
  repeat' (first
    | with_reducible assumption | exact subStep hm (by decide) | (refine Agree.mk (fun a ha => ?_); cases a <;> first | exact noBit (by decide) hm ha | rfl)
    | with_reducible apply within_okWith | (simp only [within_mk]; with_reducible refine withinMk ?_ ?_))
theorem within_execPowerCap (rq : Req) (watts : Word) (s : State) (hs : Within μ s₀ s) (hm : Sub 738211832 μ) :
    WithinNext μ s₀ (execPowerCap rq watts s) := by
  unfold execPowerCap
  repeat' (first
    | with_reducible assumption | exact subStep hm (by decide) | intro _ | with_reducible apply withinNext_next
    | with_reducible apply within_runRow | with_reducible apply within_effectPowerCap)
theorem within_effectLimits (c : Cmd) (s : State) (hs : Within μ s₀ s) (hm : Sub 4104 μ) : Within μ s₀ (effectLimits c s).state := by
  unfold effectLimits
  repeat' (first
    | with_reducible assumption | exact subStep hm (by decide) | intro _ | with_reducible apply within_forEach
    | with_reducible apply within_setFld | with_reducible apply within_okWith | with_reducible apply within_modPart
    | with_reducible apply within_ite)
theorem within_execLimits (rq : Req) (coreWait : Word) (collWait : Word) (hold : Word) (s : State) (hs : Within μ s₀ s) (hm : Sub 671102968 μ) :
    WithinNext μ s₀ (execLimits rq coreWait collWait hold s) := by
  unfold execLimits
  repeat' (first
    | with_reducible assumption | exact subStep hm (by decide) | intro _ | with_reducible apply withinNext_next
    | with_reducible apply within_runRow | with_reducible apply within_effectLimits)
theorem within_effectTelemetry (c : Cmd) (s : State) (hs : Within μ s₀ s) (hm : Sub 134222072 μ) :
    Within μ s₀ (effectTelemetry c s).state := by
  unfold effectTelemetry
  repeat' (first
    | with_reducible assumption | exact subStep hm (by decide) | with_reducible apply within_okWith | with_reducible apply within_writeArg)
theorem within_execTelemetry (rq : Req) (kind : Word) (addr : Word) (s : State) (hs : Within μ s₀ s) (hm : Sub 671102968 μ) :
    WithinNext μ s₀ (execTelemetry rq kind addr s) := by
  unfold execTelemetry
  repeat' (first
    | with_reducible assumption | exact subStep hm (by decide) | intro _ | with_reducible apply withinNext_next
    | with_reducible apply within_runRow | with_reducible apply within_effectTelemetry)
theorem within_effectHealth (c : Cmd) (s : State) (hs : Within μ s₀ s) (hm : Sub 134222072 μ) : Within μ s₀ (effectHealth c s).state := by
  unfold effectHealth
  repeat' (first
    | with_reducible assumption | exact subStep hm (by decide) | with_reducible apply within_okWith | with_reducible apply within_writeArg)
theorem within_execHealth (rq : Req) (addr : Word) (s : State) (hs : Within μ s₀ s) (hm : Sub 671102968 μ) :
    WithinNext μ s₀ (execHealth rq addr s) := by
  unfold execHealth
  repeat' (first
    | with_reducible assumption | exact subStep hm (by decide) | intro _ | with_reducible apply withinNext_next
    | with_reducible apply within_runRow | with_reducible apply within_effectHealth)
theorem within_effectEscalation (c : Cmd) (s : State) (hs : Within μ s₀ s) (hm : Sub 8 μ) : Within μ s₀ (effectEscalation c s).state := by
  unfold effectEscalation
  repeat' (first
    | with_reducible assumption | exact subStep hm (by decide) | with_reducible apply within_setFld | with_reducible apply within_okWith)
theorem within_execEscalation (rq : Req) (partLimit : Word) (ctxLimit : Word) (window : Word) (s : State) (hs : Within μ s₀ s) (hm : Sub 671102968 μ) :
    WithinNext μ s₀ (execEscalation rq partLimit ctxLimit window s) := by
  unfold execEscalation
  repeat' (first
    | with_reducible assumption | exact subStep hm (by decide) | intro _ | with_reducible apply withinNext_next
    | with_reducible apply within_runRow | with_reducible apply within_effectEscalation)
theorem within_execCommandTimeout (fn : Fn) (via : Via) (s : State) (hs : Within μ s₀ s) (hm : Sub 671101944 μ) :
    WithinNext μ s₀ (execCommandTimeout fn via s) := by
  unfold execCommandTimeout
  repeat' (first
    | with_reducible assumption | with_reducible apply withinNext_next | with_reducible apply within_publishOne
    | split)
/-! ### Start -/

theorem within_cleared (s : State) (m : Module) (cause : Nat) (hs : Within μ s₀ s) (hm : Sub 536870847 μ) :
    Within μ s₀ (cleared s m cause) := by
  unfold cleared
  repeat' (first
    | with_reducible assumption | exact subStep hm (by decide) | (refine Agree.mk (fun a ha => ?_); cases a <;> first | exact noBit (by decide) hm ha | rfl)
    | with_reducible apply within_setFld | (simp only [within_mk]; with_reducible refine withinMk ?_ ?_))
theorem within_resetRelease (s : State) (hs : Within μ s₀ s) (hm : Sub 268435465 μ) : Within μ s₀ (resetRelease s) := by
  unfold resetRelease
  repeat' (first
    | with_reducible assumption | exact subStep hm (by decide) | (refine Agree.mk (fun a ha => ?_); cases a <;> first | exact noBit (by decide) hm ha | rfl)
    | with_reducible apply within_setFld | (simp only [within_mk]; with_reducible refine withinMk ?_ ?_))
theorem within_moduleReset (s : State) (cause : Nat) (hs : Within μ s₀ s) (hm : Sub 536870847 μ) : Within μ s₀ (moduleReset s cause) := by
  unfold moduleReset
  repeat' (first
    | with_reducible assumption | exact subStep hm (by decide) | with_reducible apply within_resetRelease
    | with_reducible apply within_cleared)
theorem within_execPerstNAssert (s : State) (hs : Within μ s₀ s) (hm : Sub 536870847 μ) : WithinNext μ s₀ (execPerstNAssert s) := by
  unfold execPerstNAssert
  repeat' (first
    | with_reducible assumption | (refine Agree.mk (fun a ha => ?_); cases a <;> first | exact noBit (by decide) hm ha | rfl)
    | with_reducible apply withinNext_next | with_reducible apply within_cleared | with_reducible apply within_ite
    | (simp only [within_mk]; with_reducible refine withinMk ?_ ?_))
theorem within_perstReleaseOp (s : State) (hs : Within μ s₀ s) (hm : Sub 536870847 μ) : Within μ s₀ (perstReleaseOp s) := by
  unfold perstReleaseOp
  repeat' (first
    | with_reducible assumption | exact subStep hm (by decide) | (refine Agree.mk (fun a ha => ?_); cases a <;> first | exact noBit (by decide) hm ha | rfl)
    | with_reducible apply within_cleared | with_reducible apply within_resetRelease | with_reducible apply within_ite
    | (simp only [within_mk]; with_reducible refine withinMk ?_ ?_))
theorem within_execPerstNRelease (s : State) (hs : Within μ s₀ s) (hm : Sub 536870847 μ) : WithinNext μ s₀ (execPerstNRelease s) := by
  unfold execPerstNRelease
  repeat' (first
    | with_reducible assumption | with_reducible apply withinNext_next | with_reducible apply within_perstReleaseOp)
theorem within_execHotReset (s : State) (hs : Within μ s₀ s) (hm : Sub 536870847 μ) : WithinNext μ s₀ (execHotReset s) := by
  unfold execHotReset
  repeat' (first
    | with_reducible assumption | with_reducible apply withinNext_next | with_reducible apply within_moduleReset
    | with_reducible apply within_ite)
theorem within_resetKeyOp (value : Half) (s : State) (hs : Within μ s₀ s) (hm : Sub 536870847 μ) : Within μ s₀ (resetKeyOp value s) := by
  unfold resetKeyOp
  repeat' (first
    | with_reducible assumption | with_reducible apply within_moduleReset | with_reducible apply within_ite)
theorem within_execResetKeyWrite (value : Half) (s : State) (hs : Within μ s₀ s) (hm : Sub 536870847 μ) :
    WithinNext μ s₀ (execResetKeyWrite value s) := by
  unfold execResetKeyWrite
  repeat' (first
    | with_reducible assumption | with_reducible apply withinNext_next | with_reducible apply within_resetKeyOp)
theorem within_noteHistory (s : State) (code : Nat) (hs : Within μ s₀ s) (hm : Sub 4 μ) : Within μ s₀ (noteHistory s code) := by
  unfold noteHistory
  repeat' (first
    | with_reducible assumption | (refine Agree.mk (fun a ha => ?_); cases a <;> first | exact noBit (by decide) hm ha | rfl)
    | (simp only [within_mk]; with_reducible refine withinMk ?_ ?_))
theorem within_moduleFatalOp (cause : ModFatal) (s : State) (hs : Within μ s₀ s) (hm : Sub 536870847 μ) :
    Within μ s₀ (moduleFatalOp cause s) := by
  unfold moduleFatalOp
  repeat' (first
    | with_reducible assumption | exact subStep hm (by decide) | with_reducible apply within_healthEvent
    | with_reducible apply within_moduleReset | with_reducible apply within_noteHistory | with_reducible apply within_ite
    | split)
theorem within_execModuleFatal (cause : ModFatal) (s : State) (hs : Within μ s₀ s) (hm : Sub 536870847 μ) :
    WithinNext μ s₀ (execModuleFatal cause s) := by
  unfold execModuleFatal
  repeat' (first
    | with_reducible assumption | with_reducible apply withinNext_next | with_reducible apply within_moduleFatalOp)
theorem within_icvarWatchdogOp (s : State) (hs : Within μ s₀ s) (hm : Sub 536870847 μ) : Within μ s₀ (icvarWatchdogOp s) := by
  unfold icvarWatchdogOp
  repeat' (first
    | with_reducible assumption | exact subStep hm (by decide) | (refine Agree.mk (fun a ha => ?_); cases a <;> first | exact noBit (by decide) hm ha | rfl)
    | with_reducible apply within_noteHistory | with_reducible apply within_healthEvent | with_reducible apply within_moduleReset
    | with_reducible apply within_ite | (simp only [within_mk]; with_reducible refine withinMk ?_ ?_))
theorem within_execIcvarWatchdog (s : State) (hs : Within μ s₀ s) (hm : Sub 536870847 μ) : WithinNext μ s₀ (execIcvarWatchdog s) := by
  unfold execIcvarWatchdog
  repeat' (first
    | with_reducible assumption | with_reducible apply withinNext_next | with_reducible apply within_icvarWatchdogOp)
theorem within_execPowerApplied (s : State) (hs : Within μ s₀ s) (hm : Sub 536870847 μ) : WithinNext μ s₀ (execPowerApplied s) := by
  unfold execPowerApplied
  repeat' (first
    | with_reducible assumption | with_reducible apply withinNext_next | with_reducible apply within_cleared
    | with_reducible apply within_ite)
theorem within_execPowerRemoved (s : State) (hs : Within μ s₀ s) (hm : Sub 536870841 μ) : WithinNext μ s₀ (execPowerRemoved s) := by
  unfold execPowerRemoved
  repeat' (first
    | with_reducible assumption | (refine Agree.mk (fun a ha => ?_); cases a <;> first | exact noBit (by decide) hm ha | rfl)
    | with_reducible apply withinNext_next | with_reducible apply within_ite | (simp only [within_mk]; with_reducible refine withinMk ?_ ?_))
theorem within_putRecord (s : State) (orderly : Bool) (hs : Within μ s₀ s) (hm : Sub 4 μ) : Within μ s₀ (putRecord s orderly) := by
  unfold putRecord
  repeat' (first
    | with_reducible assumption | (refine Agree.mk (fun a ha => ?_); cases a <;> first | exact noBit (by decide) hm ha | rfl)
    | (simp only [within_mk]; with_reducible refine withinMk ?_ ?_))
theorem within_startPathOp (fullStartN : Bool) (s : State) (hs : Within μ s₀ s) (hm : Sub 134217741 μ) :
    Within μ s₀ (startPathOp fullStartN s) := by
  unfold startPathOp
  repeat' (first
    | with_reducible assumption | exact subStep hm (by decide) | (refine Agree.mk (fun a ha => ?_); cases a <;> first | exact noBit (by decide) hm ha | rfl)
    | with_reducible apply within_setFld | with_reducible apply within_startAutumn | with_reducible apply within_ite
    | (simp only [within_mk]; with_reducible refine withinMk ?_ ?_))
theorem within_execStartPathChoice (fullStartN : Bool) (s : State) (hs : Within μ s₀ s) (hm : Sub 134217741 μ) :
    WithinNext μ s₀ (execStartPathChoice fullStartN s) := by
  unfold execStartPathChoice
  repeat' (first
    | with_reducible assumption | with_reducible apply withinNext_next | with_reducible apply within_startPathOp)
theorem within_execConfigSpaceReady (s : State) (hs : Within μ s₀ s) (hm : Sub 1 μ) : WithinNext μ s₀ (execConfigSpaceReady s) := by
  unfold execConfigSpaceReady
  repeat' (first
    | with_reducible assumption | (refine Agree.mk (fun a ha => ?_); cases a <;> first | exact noBit (by decide) hm ha | rfl)
    | with_reducible apply withinNext_next | with_reducible apply within_ite | (simp only [within_mk]; with_reducible refine withinMk ?_ ?_))
theorem within_startGroup (s : State) (k : Nat) (hs : Within μ s₀ s) (hm : Sub 33554440 μ) : Within μ s₀ (startGroup s k) := by
  unfold startGroup
  repeat' (first
    | with_reducible assumption | exact subStep hm (by decide) | intro _ | with_reducible apply within_forEach
    | with_reducible apply within_modLink | with_reducible apply within_setLinkState | with_reducible apply within_setFld
    | with_reducible apply within_ite)
theorem within_powerGrantOp (s : State) (hs : Within μ s₀ s) (hm : Sub 33554441 μ) : Within μ s₀ (powerGrantOp s) := by
  unfold powerGrantOp
  repeat' (first
    | with_reducible assumption | exact subStep hm (by decide) | (refine Agree.mk (fun a ha => ?_); cases a <;> first | exact noBit (by decide) hm ha | rfl)
    | with_reducible apply within_startGroup | with_reducible apply within_ite | (simp only [within_mk]; with_reducible refine withinMk ?_ ?_))
theorem within_execPowerGrant (s : State) (hs : Within μ s₀ s) (hm : Sub 33554441 μ) : WithinNext μ s₀ (execPowerGrant s) := by
  unfold execPowerGrant
  repeat' (first
    | with_reducible assumption | with_reducible apply withinNext_next | with_reducible apply within_powerGrantOp)
theorem within_stackTrainedOp (g : Nat) (identity : Word32) (temp : Byte) (readBackOk : Bool) (s : State) (hs : Within μ s₀ s) (hm : Sub 134217865 μ) :
    Within μ s₀ (stackTrainedOp g identity temp readBackOk s) := by
  unfold stackTrainedOp
  repeat' (first
    | with_reducible assumption | exact subStep hm (by decide) | with_reducible apply within_setTrainedNow
    | with_reducible apply within_setFld | with_reducible apply within_bump | with_reducible apply within_healthEvent
    | with_reducible apply within_ite)
theorem within_execStackTrainingDone (g : StackId) (identity : Word32) (temp : Byte) (readBackOk : Bool) (s : State) (hs : Within μ s₀ s) (hm : Sub 134217865 μ) :
    WithinNext μ s₀ (execStackTrainingDone g identity temp readBackOk s) := by
  unfold execStackTrainingDone
  repeat' (first
    | with_reducible assumption | with_reducible apply withinNext_next | with_reducible apply within_stackTrainedOp)
theorem within_autumnPoints (s : State) (n : Nat) (failed : Nat) (hs : Within μ s₀ s) (hm : Sub 134217864 μ) :
    Within μ s₀ (autumnPoints s n failed) := by
  unfold autumnPoints
  repeat' (first
    | with_reducible assumption | intro _ | with_reducible apply within_forEach | with_reducible apply within_healthEvent
    | with_reducible apply within_ite)
theorem within_relinkSection (s : State) (n : Nat) (hs : Within μ s₀ s) (hm : Sub 33554440 μ) : Within μ s₀ (relinkSection s n) := by
  unfold relinkSection
  repeat' (first
    | with_reducible assumption | exact subStep hm (by decide) | intro _ | with_reducible apply within_forEach
    | with_reducible apply within_goDown | with_reducible apply within_setLinkState | with_reducible apply within_ite)
theorem within_endShutDown (s : State) (hs : Within μ s₀ s) (hm : Sub 5 μ) : Within μ s₀ (endShutDown s) := by
  unfold endShutDown
  repeat' (first
    | with_reducible assumption | exact subStep hm (by decide) | (refine Agree.mk (fun a ha => ?_); cases a <;> first | exact noBit (by decide) hm ha | rfl)
    | with_reducible apply within_putRecord | (simp only [within_mk]; with_reducible refine withinMk ?_ ?_))
theorem within_afterAutumn (s : State) (source : Nat) (n : Nat) (good : Bool) (hs : Within μ s₀ s) (hm : Sub 671101949 μ) :
    Within μ s₀ (afterAutumn s source n good) := by
  unfold afterAutumn
  repeat' (first
    | with_reducible assumption | exact subStep hm (by decide) | (refine Agree.mk (fun a ha => ?_); cases a <;> first | exact noBit (by decide) hm ha | rfl)
    | with_reducible apply within_endShutDown | with_reducible apply within_modPart | with_reducible apply within_putRecord
    | with_reducible apply within_settle | with_reducible apply within_ite | (simp only [within_mk]; with_reducible refine withinMk ?_ ?_)
    | simp only [] | split)
theorem within_endAutumn (s : State) (n : Nat) (r : AutumnRun) (hs : Within μ s₀ s) (hm : Sub 702559229 μ) :
    Within μ s₀ (endAutumn s n r) := by
  unfold endAutumn
  repeat' (first
    | with_reducible assumption | exact subStep hm (by decide) | with_reducible apply within_grantTest
    | with_reducible apply within_setAutumn | with_reducible apply within_setAutumnResult | with_reducible apply within_clearLoam
    | with_reducible apply within_resetSectionRegs | with_reducible apply within_clearUnits | with_reducible apply within_afterAutumn
    | with_reducible apply within_autumnPoints)
theorem within_autumnBlockOp (n : Nat) (block : Nat) (signature : Word32) (again : Word32) (temp : Byte) (s : State) (hs : Within μ s₀ s) (hm : Sub 736113661 μ) :
    Within μ s₀ (autumnBlockOp n block signature again temp s) := by
  unfold autumnBlockOp
  repeat' (first
    | with_reducible assumption | exact subStep hm (by decide) | with_reducible apply within_grantTest
    | with_reducible apply within_setAutumn | with_reducible apply within_clearHbm | with_reducible apply within_setFld
    | with_reducible apply within_relinkSection | with_reducible apply within_endAutumn | with_reducible apply within_ite
    | simp only [] | split)
theorem within_execAutumnBlockDone (sec : Sec) (block : Fin 16) (signature : Word32) (again : Word32) (temp : Byte) (s : State) (hs : Within μ s₀ s) (hm : Sub 736113661 μ) :
    WithinNext μ s₀ (execAutumnBlockDone sec block signature again temp s) := by
  unfold execAutumnBlockDone
  repeat' (first
    | with_reducible assumption | with_reducible apply withinNext_next | with_reducible apply within_autumnBlockOp)
theorem within_operationalOp (s : State) (hs : Within μ s₀ s) (hm : Sub 536870924 μ) : Within μ s₀ (operationalOp s) := by
  unfold operationalOp
  repeat' (first
    | with_reducible assumption | exact subStep hm (by decide) | intro _ | with_reducible apply within_putRecord
    | with_reducible apply within_setFld | with_reducible apply within_forEach | with_reducible apply within_sendKind
    | with_reducible apply within_ite)
theorem within_execModuleOperational (s : State) (hs : Within μ s₀ s) (hm : Sub 536870924 μ) :
    WithinNext μ s₀ (execModuleOperational s) := by
  unfold execModuleOperational
  repeat' (first
    | with_reducible assumption | with_reducible apply withinNext_next | with_reducible apply within_operationalOp)
theorem within_abortNow (s : State) (c : Nat) (hs : Within μ s₀ s) (hm : Sub 711490040 μ) : Within μ s₀ (abortNow s c) := by
  unfold abortNow
  repeat' (first
    | with_reducible assumption | with_reducible apply within_abortCtx)
theorem within_destroyAtOnce (s : State) (p : Nat) (hs : Within μ s₀ s) (hm : Sub 1811939325 μ) : Within μ s₀ (destroyAtOnce s p) := by
  unfold destroyAtOnce
  repeat' (first
    | with_reducible assumption | exact subStep hm (by decide) | intro _ | with_reducible apply within_forEach
    | with_reducible apply within_abortNow | with_reducible apply within_clearUnits | with_reducible apply within_teardownCtx
    | with_reducible apply within_freeCtx | with_reducible apply within_partResetOp | with_reducible apply within_appendHandover
    | with_reducible apply within_scrubPart | with_reducible apply within_freePart | with_reducible apply within_ite)
theorem within_shutDownOp (pldm : Bool) (s : State) (hs : Within μ s₀ s) (hm : Sub 1811939325 μ) : Within μ s₀ (shutDownOp pldm s) := by
  unfold shutDownOp
  repeat' (first
    | with_reducible assumption | exact subStep hm (by decide) | (refine Agree.mk (fun a ha => ?_); cases a <;> first | exact noBit (by decide) hm ha | rfl)
    | intro _ | with_reducible apply within_grantTest | with_reducible apply within_forEach | with_reducible apply within_setAutumn
    | with_reducible apply within_setFld | with_reducible apply within_destroyAtOnce | with_reducible apply within_startAutumn
    | with_reducible apply within_ite | (simp only [within_mk]; with_reducible refine withinMk ?_ ?_))
theorem within_execShdnReq (pldm : Bool) (s : State) (hs : Within μ s₀ s) (hm : Sub 1811939325 μ) :
    WithinNext μ s₀ (execShdnReq pldm s) := by
  unfold execShdnReq
  repeat' (first
    | with_reducible assumption | with_reducible apply withinNext_next | with_reducible apply within_shutDownOp)
theorem within_healthDecayOp (s : State) (hs : Within μ s₀ s) (hm : Sub 134217732 μ) : Within μ s₀ (healthDecayOp s) := by
  unfold healthDecayOp
  repeat' (first
    | with_reducible assumption | (refine Agree.mk (fun a ha => ?_); cases a <;> first | exact noBit (by decide) hm ha | rfl)
    | with_reducible apply within_ite | (simp only [within_mk]; with_reducible refine withinMk ?_ ?_))
theorem within_execHealthDecay (s : State) (hs : Within μ s₀ s) (hm : Sub 134217732 μ) : WithinNext μ s₀ (execHealthDecay s) := by
  unfold execHealthDecay
  repeat' (first
    | with_reducible assumption | with_reducible apply withinNext_next | with_reducible apply within_healthDecayOp)
/-! ### Mailbox -/

theorem within_opTableA (op : Nat) (r : CmdRow) (h : opTableA op = some r) (x : Cmd) (t : State) (ht : Within μ s₀ t) (hm : Sub 1852375037 μ) :
    Within μ s₀ (r.2 x t).state := by
  unfold opTableA at h
  split at h <;> cases h
  all_goals (first
    | (with_reducible exact within_effectHello _ _ ht (subStep hm (by decide)))
    | (with_reducible exact within_effectBye _ _ ht (subStep hm (by decide)))
    | (with_reducible exact within_effectPing _ _ ht (subStep hm (by decide)))
    | (with_reducible exact within_effectCmdqClose _ _ ht (subStep hm (by decide)))
    | (with_reducible exact within_effectRplStop _ _ ht (subStep hm (by decide)))
    | (with_reducible exact within_effectRplStatus _ _ ht (subStep hm (by decide)))
    | (with_reducible exact within_effectCmdqOpen _ _ ht (subStep hm (by decide)))
    | (with_reducible exact within_effectPartCreate _ _ ht (subStep hm (by decide)))
    | (with_reducible exact within_effectPartDestroy _ _ ht (subStep hm (by decide)))
    | (with_reducible exact within_effectPartAssign _ _ ht (subStep hm (by decide)))
    | (with_reducible exact within_effectPartHandover _ _ ht (subStep hm (by decide)))
    | (with_reducible exact within_effectPartSched _ _ ht (subStep hm (by decide)))
    | (with_reducible exact within_effectPartCache _ _ ht (subStep hm (by decide)))
    | (with_reducible exact within_effectSlotTable _ _ ht (subStep hm (by decide)))
    | (with_reducible exact within_effectPartInfo _ _ ht (subStep hm (by decide)))
    | (with_reducible exact within_effectCtxCreate _ _ ht (subStep hm (by decide)))
    | (with_reducible exact within_effectCtxDestroy _ _ ht (subStep hm (by decide)))
    | (with_reducible exact within_effectCtxSet _ _ ht (subStep hm (by decide)))
    | (with_reducible exact within_effectCtxQuiesce _ _ ht (subStep hm (by decide)))
    | (with_reducible exact within_effectCtxSnapshot _ _ ht (subStep hm (by decide)))
    | (with_reducible exact within_effectQueueCreate _ _ ht (subStep hm (by decide)))
    | (with_reducible exact within_effectQueueDestroy _ _ ht (subStep hm (by decide)))
    | (with_reducible exact within_effectQueueEnable _ _ ht (subStep hm (by decide)))
    | (with_reducible exact within_effectQueueDisable _ _ ht (subStep hm (by decide)))
    | (with_reducible exact within_effectQueueReset _ _ ht (subStep hm (by decide)))
    | (with_reducible exact within_effectTallyCreate _ _ ht (subStep hm (by decide)))
    | (with_reducible exact within_effectTallySet _ _ ht (subStep hm (by decide)))
    | (with_reducible exact within_effectTallyDestroy _ _ ht (subStep hm (by decide)))
    | (with_reducible exact within_effectRegionCreate _ _ ht (subStep hm (by decide)))
    | (with_reducible exact within_effectRegionDestroy _ _ ht (subStep hm (by decide)))
    | (with_reducible exact within_effectRegionFreeze _ _ ht (subStep hm (by decide)))
    | (with_reducible exact within_effectWindowSet _ _ ht (subStep hm (by decide)))
    | (with_reducible exact within_effectFnState _ _ ht (subStep hm (by decide)))
    | (with_reducible exact within_effectHandleInfo _ _ ht (subStep hm (by decide))))
theorem within_opTableB (op : Nat) (r : CmdRow) (h : opTableB op = some r) (x : Cmd) (t : State) (ht : Within μ s₀ t) (hm : Sub 1862237693 μ) :
    Within μ s₀ (r.2 x t).state := by
  unfold opTableB at h
  split at h <;> cases h
  all_goals (first
    | (with_reducible exact within_effectMemFlush _ _ ht (subStep hm (by decide)))
    | (with_reducible exact within_effectScrubPeriod _ _ ht (subStep hm (by decide)))
    | (with_reducible exact within_effectStackRate _ _ ht (subStep hm (by decide)))
    | (with_reducible exact within_effectProgLoad _ _ ht (subStep hm (by decide)))
    | (with_reducible exact within_effectProgUnload _ _ ht (subStep hm (by decide)))
    | (with_reducible exact within_effectLaunch _ _ ht (subStep hm (by decide)))
    | (with_reducible exact within_effectTensorReg _ _ ht (subStep hm (by decide)))
    | (with_reducible exact within_effectTensorUnreg _ _ ht (subStep hm (by decide)))
    | (with_reducible exact within_effectTensorVersion _ _ ht (subStep hm (by decide)))
    | (with_reducible exact within_effectTensorScale _ _ ht (subStep hm (by decide)))
    | (with_reducible exact within_effectTensorUnpoison _ _ ht (subStep hm (by decide)))
    | (with_reducible exact within_effectTensorStamp _ _ ht (subStep hm (by decide)))
    | (with_reducible exact within_effectModelDefine _ _ ht (subStep hm (by decide)))
    | (with_reducible exact within_effectModelLoad _ _ ht (subStep hm (by decide)))
    | (with_reducible exact within_effectModelEvict _ _ ht (subStep hm (by decide)))
    | (with_reducible exact within_effectModelDestroy _ _ ht (subStep hm (by decide)))
    | (with_reducible exact within_effectGroupBind _ _ ht (subStep hm (by decide)))
    | (with_reducible exact within_effectEpochInstall _ _ ht (subStep hm (by decide)))
    | (with_reducible exact within_effectCommCreate _ _ ht (subStep hm (by decide)))
    | (with_reducible exact within_effectCommDestroy _ _ ht (subStep hm (by decide)))
    | (with_reducible exact within_effectLinkExpect _ _ ht (subStep hm (by decide)))
    | (with_reducible exact within_effectLinkAction _ _ ht (subStep hm (by decide)))
    | (with_reducible exact within_effectLinkCfg _ _ ht (subStep hm (by decide)))
    | (with_reducible exact within_effectHistSet _ _ ht (subStep hm (by decide)))
    | (with_reducible exact within_effectNumSnapshot _ _ ht (subStep hm (by decide)))
    | (with_reducible exact within_effectGateCreate _ _ ht (subStep hm (by decide)))
    | (with_reducible exact within_effectGateSet _ _ ht (subStep hm (by decide)))
    | (with_reducible exact within_effectGateDestroy _ _ ht (subStep hm (by decide)))
    | (with_reducible exact within_effectWitnessCfg _ _ ht (subStep hm (by decide)))
    | (with_reducible exact within_effectDriftPair _ _ ht (subStep hm (by decide)))
    | (with_reducible exact within_effectOutlierRing _ _ ht (subStep hm (by decide)))
    | (with_reducible exact within_effectRplRecord _ _ ht (subStep hm (by decide)))
    | (with_reducible exact within_effectRplMark _ _ ht (subStep hm (by decide)))
    | (with_reducible exact within_effectRplReplay _ _ ht (subStep hm (by decide)))
    | (with_reducible exact within_effectGravelCfg _ _ ht (subStep hm (by decide)))
    | (with_reducible exact within_effectAutumnRun _ _ ht (subStep hm (by decide)))
    | (with_reducible exact within_effectPowerCap _ _ ht (subStep hm (by decide)))
    | (with_reducible exact within_effectLimits _ _ ht (subStep hm (by decide)))
    | (with_reducible exact within_effectTelemetry _ _ ht (subStep hm (by decide)))
    | (with_reducible exact within_effectHealth _ _ ht (subStep hm (by decide)))
    | (with_reducible exact within_effectEscalation _ _ ht (subStep hm (by decide))))
theorem within_opRow (op : Nat) (x : Cmd) (t : State) (ht : Within μ s₀ t) (hm : Sub 1862270973 μ) :
    Within μ s₀ ((opRow op).2 x t).state := by
  unfold opRow
  split
  · next r h => exact within_opTableA op r h x t ht (subStep hm (by decide))
  · cases h : opTableB op with
    | none => exact ht
    | some r => exact within_opTableB op r h x t ht (subStep hm (by decide))
theorem within_runOp (c : Cmd) (s : State) (hs : Within μ s₀ s) (hm : Sub 1862270973 μ) : Within μ s₀ (runOp c s) := by
  refine within_runCmd _ _ _ _ _ ?_ hs (subStep hm (by decide))
  intro x t ht
  exact within_opRow _ _ _ ht (subStep hm (by decide))
theorem within_runBlock (c : Cmd) (b : List Byte) (s : State) (hs : Within μ s₀ s) (hm : Sub 1862270973 μ) :
    Within μ s₀ (runBlock c b s) := by
  unfold runBlock
  repeat' (first
    | with_reducible assumption | exact subStep hm (by decide) | intro _ | with_reducible apply within_done
    | with_reducible apply within_runCmd | with_reducible apply within_runOp | with_reducible apply within_ite)
theorem within_depositOp (f : Nat) (j : Nat) (lanes : Lanes) (value : Word) (s : State) (hs : Within μ s₀ s) (hm : Sub 8 μ) :
    Within μ s₀ (depositOp f j lanes value s) := by
  unfold depositOp
  repeat' (first
    | with_reducible assumption | with_reducible apply within_setRaw | with_reducible apply within_setFld
    | with_reducible apply within_bump | with_reducible apply within_ite)
theorem within_execMbxInDeposit (fn : Fn) (j : Fin 8) (lanes : Lanes) (value : Word) (s : State) (hs : Within μ s₀ s) (hm : Sub 8 μ) :
    WithinNext μ s₀ (execMbxInDeposit fn j lanes value s) := by
  unfold execMbxInDeposit
  repeat' (first
    | with_reducible assumption | with_reducible apply withinNext_next | with_reducible apply within_depositOp)
theorem within_hostReadFailed (s : State) (hs : Within μ s₀ s) (hm : Sub 1073741832 μ) : Within μ s₀ (hostReadFailed s) := by
  unfold hostReadFailed
  repeat' (first
    | with_reducible assumption | exact subStep hm (by decide) | with_reducible apply within_freeDraw
    | with_reducible apply within_bump)
theorem within_runWord (f : Nat) (j : Fin 8) (w : Word) (live : Bool) (readError : Bool) (s : State) (hs : Within μ s₀ s) (hm : Sub 1862270973 μ) :
    Within μ s₀ (runWord f j w live readError s) := by
  unfold runWord
  repeat' (first
    | with_reducible assumption | exact subStep hm (by decide) | intro _ | with_reducible apply within_done
    | with_reducible apply within_runCmd | with_reducible apply within_runOp | with_reducible apply within_answerNow
    | with_reducible apply within_hostReadFailed | with_reducible apply within_runBlock | with_reducible apply within_ite)
theorem within_answerRepeat (s : State) (f : Nat) (j : Nat) (w : Word) (l : LastTaken) (hs : Within μ s₀ s) (hm : Sub 536871048 μ) :
    Within μ s₀ (answerRepeat s f j w l) := by
  unfold answerRepeat
  repeat' (first
    | with_reducible assumption | with_reducible apply within_ackWord)
theorem within_acceptWord (f : Nat) (j : Fin 8) (w : Word) (live : Bool) (readError : Bool) (s : State) (hs : Within μ s₀ s) (hm : Sub 1862270973 μ) :
    Within μ s₀ (acceptWord f j w live readError s) := by
  unfold acceptWord
  repeat' (first
    | with_reducible assumption | exact subStep hm (by decide) | intro _ | with_reducible apply within_forEach
    | with_reducible apply within_recordInput | with_reducible apply within_answerRepeat | with_reducible apply within_runWord
    | with_reducible apply within_modFn | simp only [] | split)
theorem within_takeWord (f : Nat) (j : Nat) (deposit : Option Word) (s : State) (hs : Within μ s₀ s) (hm : Sub 9 μ) :
    Within μ s₀ (takeWord f j deposit s) := by
  unfold takeWord
  repeat' (first
    | with_reducible assumption | exact subStep hm (by decide) | (refine Agree.mk (fun a ha => ?_); cases a <;> first | exact noBit (by decide) hm ha | rfl)
    | with_reducible apply within_setFld | with_reducible apply within_setRaw | (simp only [within_mk]; with_reducible refine withinMk ?_ ?_)
    | simp only [] | split)
theorem within_mailboxTakeOp (f : Nat) (j : Fin 8) (host : List Cell) (readError : Bool) (deposit : Option Word) (s : State) (hs : Within μ s₀ s) (hm : Sub 1862270973 μ) :
    Within μ s₀ (mailboxTakeOp f j host readError deposit s) := by
  unfold mailboxTakeOp
  repeat' (first
    | with_reducible assumption | exact subStep hm (by decide) | with_reducible apply within_acceptWord
    | with_reducible apply within_takeWord | with_reducible apply within_hostStores | with_reducible apply within_ite)
theorem within_execMailboxTake (fn : Fn) (j : Fin 8) (host : List Cell) (readError : Bool) (deposit : Option Word) (hits : List Hit) (s : State) (hs : Within μ s₀ s) (hm : Sub 1862270973 μ) :
    WithinNext μ s₀ (execMailboxTake fn j host readError deposit hits s) := by
  unfold execMailboxTake
  repeat' (first
    | with_reducible assumption | exact subStep hm (by decide) | with_reducible apply withinNext_next
    | with_reducible apply within_mailboxTakeOp | with_reducible apply within_upsetWords)
theorem within_outPostOp (f : Nat) (j : Nat) (s : State) (hs : Within μ s₀ s) (hm : Sub 536871048 μ) : Within μ s₀ (outPostOp f j s) := by
  unfold outPostOp
  repeat' (first
    | with_reducible assumption | with_reducible apply within_postOut | with_reducible apply within_ite)
theorem within_execMbxOutPost (fn : Fn) (j : Fin 8) (s : State) (hs : Within μ s₀ s) (hm : Sub 536871048 μ) :
    WithinNext μ s₀ (execMbxOutPost fn j s) := by
  unfold execMbxOutPost
  repeat' (first
    | with_reducible assumption | with_reducible apply withinNext_next | with_reducible apply within_outPostOp)
theorem within_outAckOp (f : Nat) (j : Nat) (lanes : Lanes) (value : Word) (s : State) (hs : Within μ s₀ s) (hm : Sub 8 μ) :
    Within μ s₀ (outAckOp f j lanes value s) := by
  unfold outAckOp
  repeat' (first
    | with_reducible assumption | with_reducible apply within_setRaw | with_reducible apply within_setFld
    | with_reducible apply within_ite)
theorem within_execMbxOutAck (fn : Fn) (j : Fin 8) (lanes : Lanes) (value : Word) (s : State) (hs : Within μ s₀ s) (hm : Sub 8 μ) :
    WithinNext μ s₀ (execMbxOutAck fn j lanes value s) := by
  unfold execMbxOutAck
  repeat' (first
    | with_reducible assumption | with_reducible apply withinNext_next | with_reducible apply within_outAckOp)
/-! ### Queues -/

theorem within_ringOne (f : Nat) (q : Nat) (value : Nat) (whole : Bool) (live : Bool) (s : State) (hs : Within μ s₀ s) (hm : Sub 134230456 μ) :
    Within μ s₀ (ringOne f q value whole live s) := by
  unfold ringOne
  repeat' (first
    | with_reducible assumption | exact subStep hm (by decide) | with_reducible apply within_bump | with_reducible apply within_modQueue
    | with_reducible apply within_dropLive | with_reducible apply within_recordInput | with_reducible apply within_ite
    | simp only [] | split)
theorem within_doorbellOp (f : Nat) (off : Nat) (data : List Byte) (s : State) (hs : Within μ s₀ s) (hm : Sub 134230456 μ) :
    Within μ s₀ (doorbellOp f off data s) := by
  unfold doorbellOp
  repeat' (first
    | with_reducible assumption | intro _ | with_reducible apply within_forEach | with_reducible apply within_ringOne
    | with_reducible apply within_ite)
theorem within_execDoorbell (fn : Fn) (off : Nat) (data : List Byte) (s : State) (hs : Within μ s₀ s) (hm : Sub 134230456 μ) :
    WithinNext μ s₀ (execDoorbell fn off data s) := by
  unfold execDoorbell
  repeat' (first
    | with_reducible assumption | with_reducible apply withinNext_next | with_reducible apply within_doorbellOp)
theorem within_fetchError (s : State) (q : Nat) (cause : Nat) (hs : Within μ s₀ s) (hm : Sub 671093240 μ) :
    Within μ s₀ (fetchError s q cause) := by
  unfold fetchError
  repeat' (first
    | with_reducible assumption | exact subStep hm (by decide) | with_reducible apply within_flushQueue
    | with_reducible apply within_setQueue)
theorem within_takeEntry (s : State) (q : Nat) (b : List Byte) (hs : Within μ s₀ s) (hm : Sub 256 μ) : Within μ s₀ (takeEntry s q b) := by
  unfold takeEntry
  repeat' (first
    | with_reducible assumption | with_reducible apply within_setQueue)
theorem within_runEntry (q : QueueId) (pos : Nat) (b : List Byte) (s : State) (hs : Within μ s₀ s) (hm : Sub 1862270973 μ) :
    Within μ s₀ (runEntry q pos b s) := by
  unfold runEntry
  repeat' (first
    | with_reducible assumption | with_reducible apply within_runBlock)
theorem within_queueFetchOp (q : QueueId) (host : List Cell) (readError : Bool) (s : State) (hs : Within μ s₀ s) (hm : Sub 1862270973 μ) :
    Within μ s₀ (queueFetchOp q host readError s) := by
  unfold queueFetchOp
  repeat' (first
    | with_reducible assumption | exact subStep hm (by decide) | with_reducible apply within_hostStores
    | with_reducible apply within_takeEntry | with_reducible apply within_runEntry | with_reducible apply within_hostReadFailed
    | with_reducible apply within_freeDraw | with_reducible apply within_fetchError | with_reducible apply within_ctxFault
    | with_reducible apply within_readMem | with_reducible apply within_ite | simp only [] | split)
theorem within_execQueueFetch (q : QueueId) (host : List Cell) (readError : Bool) (hits : List Hit) (s : State) (hs : Within μ s₀ s) (hm : Sub 1862270973 μ) :
    WithinNext μ s₀ (execQueueFetch q host readError hits s) := by
  unfold execQueueFetch
  repeat' (first
    | with_reducible assumption | exact subStep hm (by decide) | with_reducible apply withinNext_next
    | with_reducible apply within_queueFetchOp | with_reducible apply within_upsetWords)
theorem within_cqReleaseOp (f : Nat) (j : Nat) (value : Nat) (s : State) (hs : Within μ s₀ s) (hm : Sub 671093240 μ) :
    Within μ s₀ (cqReleaseOp f j value s) := by
  unfold cqReleaseOp
  repeat' (first
    | with_reducible assumption | exact subStep hm (by decide) | intro _ | with_reducible apply within_forEach
    | with_reducible apply within_writeArg | with_reducible apply within_flushQueue | with_reducible apply within_modQueue
    | with_reducible apply within_ite | simp only [] | split)
theorem within_execCqRelease (fn : Fn) (slot : Fin 512) (value : Word32) (s : State) (hs : Within μ s₀ s) (hm : Sub 671093240 μ) :
    WithinNext μ s₀ (execCqRelease fn slot value s) := by
  unfold execCqRelease
  repeat' (first
    | with_reducible assumption | with_reducible apply withinNext_next | with_reducible apply within_cqReleaseOp)
/-! ### Bar2 -/

theorem within_bar2Refuse (s : State) (f : Nat) (off : Nat) (write : Bool) (hs : Within μ s₀ s) (hm : Sub 8 μ) :
    Within μ s₀ (bar2Refuse s f off write) := by
  unfold bar2Refuse
  repeat' (first
    | with_reducible assumption | with_reducible apply within_bump | with_reducible apply within_setRaw)
theorem within_bar2Out (s : State) (b : List Byte) (ep : Bool) (unsupported : Bool) (hs : Within μ s₀ s) (hm : Sub 536870912 μ) :
    Within μ s₀ (bar2Out s b ep unsupported) := by
  unfold bar2Out
  repeat' (first
    | with_reducible assumption | (refine Agree.mk (fun a ha => ?_); cases a <;> first | exact noBit (by decide) hm ha | rfl)
    | (simp only [within_mk]; with_reducible refine withinMk ?_ ?_))
theorem within_portPut (s : State) (e : PortAccess) (hs : Within μ s₀ s) (hm : Sub 128 μ) : Within μ s₀ (portPut s e) := by
  unfold portPut
  repeat' (first
    | with_reducible assumption | (refine Agree.mk (fun a ha => ?_); cases a <;> first | exact noBit (by decide) hm ha | rfl)
    | (simp only [within_mk]; with_reducible refine withinMk ?_ ?_))
theorem within_bar2ReadOp (f : Nat) (off : Nat) (len : Nat) (s : State) (hs : Within μ s₀ s) (hm : Sub 671092920 μ) :
    Within μ s₀ (bar2ReadOp f off len s) := by
  unfold bar2ReadOp
  repeat' (first
    | with_reducible assumption | exact subStep hm (by decide) | with_reducible apply within_bar2Out | with_reducible apply within_bump
    | with_reducible apply within_bar2Refuse | with_reducible apply within_portPut | with_reducible apply within_readMem
    | with_reducible apply within_ite | simp only [] | split)
theorem within_execBar2Read (fn : Fn) (off : Nat) (len : Nat) (hits : List Hit) (s : State) (hs : Within μ s₀ s) (hm : Sub 671092920 μ) :
    WithinNext μ s₀ (execBar2Read fn off len hits s) := by
  unfold execBar2Read
  repeat' (first
    | with_reducible assumption | exact subStep hm (by decide) | with_reducible apply withinNext_next
    | with_reducible apply within_bar2ReadOp | with_reducible apply within_upsetWords)
theorem within_bar2WriteOp (f : Nat) (off : Nat) (data : List Byte) (s : State) (hs : Within μ s₀ s) (hm : Sub 134230200 μ) :
    Within μ s₀ (bar2WriteOp f off data s) := by
  unfold bar2WriteOp
  repeat' (first
    | with_reducible assumption | exact subStep hm (by decide) | intro _ | with_reducible apply within_bar2Refuse
    | with_reducible apply within_dropLive | with_reducible apply within_portPut | with_reducible apply within_forEach
    | with_reducible apply within_recordInput | with_reducible apply within_storeBytes | with_reducible apply within_ite
    | simp only [] | split)
theorem within_execBar2Write (fn : Fn) (off : Nat) (data : List Byte) (hits : List Hit) (s : State) (hs : Within μ s₀ s) (hm : Sub 134230200 μ) :
    WithinNext μ s₀ (execBar2Write fn off data hits s) := by
  unfold execBar2Write
  repeat' (first
    | with_reducible assumption | exact subStep hm (by decide) | with_reducible apply withinNext_next
    | with_reducible apply within_bar2WriteOp | with_reducible apply within_upsetWords)
theorem within_servePort (s : State) (hs : Within μ s₀ s) (hm : Sub 671101112 μ) : Within μ s₀ (servePort s) := by
  unfold servePort
  repeat' (first
    | with_reducible assumption | exact subStep hm (by decide) | (refine Agree.mk (fun a ha => ?_); cases a <;> first | exact noBit (by decide) hm ha | rfl)
    | intro _ | with_reducible apply within_forEach | with_reducible apply within_bar2WriteOp | with_reducible apply within_bar2ReadOp
    | (simp only [within_mk]; with_reducible refine withinMk ?_ ?_) | split)
/-! ### Functions -/

theorem within_beginFlr (s : State) (f : Nat) (hs : Within μ s₀ s) (hm : Sub 677395448 μ) : Within μ s₀ (beginFlr s f) := by
  unfold beginFlr
  repeat' (first
    | with_reducible assumption | exact subStep hm (by decide) | (refine Agree.mk (fun a ha => ?_); cases a <;> first | exact noBit (by decide) hm ha | rfl)
    | intro _ | with_reducible apply within_modFn | with_reducible apply within_stopFnQueues | with_reducible apply within_forEach
    | with_reducible apply within_stopPlanned | (simp only [within_mk]; with_reducible refine withinMk ?_ ?_))
theorem within_flrOp (f : Nat) (s : State) (hs : Within μ s₀ s) (hm : Sub 677396472 μ) : Within μ s₀ (flrOp f s) := by
  unfold flrOp
  repeat' (first
    | with_reducible assumption | exact subStep hm (by decide) | with_reducible apply within_pruneTokens
    | with_reducible apply within_settle | with_reducible apply within_beginFlr | with_reducible apply within_ite)
theorem within_execFunctionLevelReset (fn : Fn) (s : State) (hs : Within μ s₀ s) (hm : Sub 677396472 μ) :
    WithinNext μ s₀ (execFunctionLevelReset fn s) := by
  unfold execFunctionLevelReset
  repeat' (first
    | with_reducible assumption | with_reducible apply withinNext_next | with_reducible apply within_flrOp)
theorem within_pfResetOp (pfReset : Bool) (s : State) (hs : Within μ s₀ s) (hm : Sub 677396472 μ) : Within μ s₀ (pfResetOp pfReset s) := by
  unfold pfResetOp
  repeat' (first
    | with_reducible assumption | exact subStep hm (by decide) | (refine Agree.mk (fun a ha => ?_); cases a <;> first | exact noBit (by decide) hm ha | rfl)
    | intro _ | with_reducible apply within_pruneTokens | with_reducible apply within_settle | with_reducible apply within_forEach
    | with_reducible apply within_beginFlr | with_reducible apply within_ite | (simp only [within_mk]; with_reducible refine withinMk ?_ ?_))
theorem within_execPfResetOrVfDisable (pfReset : Bool) (s : State) (hs : Within μ s₀ s) (hm : Sub 677396472 μ) :
    WithinNext μ s₀ (execPfResetOrVfDisable pfReset s) := by
  unfold execPfResetOrVfDisable
  repeat' (first
    | with_reducible assumption | with_reducible apply withinNext_next | with_reducible apply within_pfResetOp)
theorem within_busMasterDisableOp (f : Nat) (s : State) (hs : Within μ s₀ s) (hm : Sub 677386744 μ) :
    Within μ s₀ (busMasterDisableOp f s) := by
  unfold busMasterDisableOp
  repeat' (first
    | with_reducible assumption | exact subStep hm (by decide) | with_reducible apply within_stopFnQueues
    | with_reducible apply within_modFn | with_reducible apply within_ite)
theorem within_execBusMasterDisable (fn : Fn) (s : State) (hs : Within μ s₀ s) (hm : Sub 677386744 μ) :
    WithinNext μ s₀ (execBusMasterDisable fn s) := by
  unfold execBusMasterDisable
  repeat' (first
    | with_reducible assumption | with_reducible apply withinNext_next | with_reducible apply within_busMasterDisableOp)
theorem within_cfgAnswer (s : State) (a : CfgAnswer) (hs : Within μ s₀ s) (hm : Sub 536870912 μ) : Within μ s₀ (cfgAnswer s a) := by
  unfold cfgAnswer
  repeat' (first
    | with_reducible assumption | (refine Agree.mk (fun a ha => ?_); cases a <;> first | exact noBit (by decide) hm ha | rfl)
    | (simp only [within_mk]; with_reducible refine withinMk ?_ ?_))
theorem within_enableVfs (s : State) (hs : Within μ s₀ s) (hm : Sub 128 μ) : Within μ s₀ (enableVfs s) := by
  unfold enableVfs
  repeat' (first
    | with_reducible assumption | (refine Agree.mk (fun a ha => ?_); cases a <;> first | exact noBit (by decide) hm ha | rfl)
    | intro _ | with_reducible apply within_forEach | with_reducible apply within_modFn | with_reducible apply within_ite
    | (simp only [within_mk]; with_reducible refine withinMk ?_ ?_))
theorem within_cfgAccess (f : Nat) (a : CfgAccess) (s : State) (hs : Within μ s₀ s) (hm : Sub 1610612864 μ) :
    Within μ s₀ (cfgAccess f a s) := by
  unfold cfgAccess
  repeat' (first
    | with_reducible assumption | exact subStep hm (by decide) | with_reducible apply within_freeDraw
    | with_reducible apply within_cfgAnswer | with_reducible apply within_modFn | with_reducible apply within_enableVfs
    | with_reducible apply within_ite | simp only [] | split)
theorem within_pcieConfigOp (f : Nat) (a : CfgAccess) (s : State) (hs : Within μ s₀ s) (hm : Sub 1610612864 μ) :
    Within μ s₀ (pcieConfigOp f a s) := by
  unfold pcieConfigOp
  repeat' (first
    | with_reducible assumption | exact subStep hm (by decide) | with_reducible apply within_cfgAnswer
    | with_reducible apply within_cfgAccess | with_reducible apply within_ite)
theorem within_execPcieConfigRequest (fn : Fn) (access : CfgAccess) (s : State) (hs : Within μ s₀ s) (hm : Sub 1610612864 μ) :
    WithinNext μ s₀ (execPcieConfigRequest fn access s) := by
  unfold execPcieConfigRequest
  repeat' (first
    | with_reducible assumption | with_reducible apply withinNext_next | with_reducible apply within_pcieConfigOp)
theorem within_linkTrainedOp (speed : Nat) (width : Nat) (flit : Bool) (s : State) (hs : Within μ s₀ s) (hm : Sub 8 μ) :
    Within μ s₀ (linkTrainedOp speed width flit s) := by
  unfold linkTrainedOp
  repeat' (first
    | with_reducible assumption | with_reducible apply within_setFld | with_reducible apply within_ite)
theorem within_execPcieLinkTrained (speed : Fin 7) (width : Fin 5) (flit : Bool) (s : State) (hs : Within μ s₀ s) (hm : Sub 8 μ) :
    WithinNext μ s₀ (execPcieLinkTrained speed width flit s) := by
  unfold execPcieLinkTrained
  repeat' (first
    | with_reducible assumption | with_reducible apply withinNext_next | with_reducible apply within_linkTrainedOp)
theorem within_ideKmOp (f : Nat) (r : IdeReq) (s : State) (hs : Within μ s₀ s) (hm : Sub 677386744 μ) : Within μ s₀ (ideKmOp f r s) := by
  unfold ideKmOp
  repeat' (first
    | with_reducible assumption | exact subStep hm (by decide) | with_reducible apply within_setFld | with_reducible apply within_modFn
    | with_reducible apply within_tdiError | with_reducible apply within_ite | simp only [] | split)
theorem within_execIdeKmRequest (fn : Fn) (req : IdeReq) (s : State) (hs : Within μ s₀ s) (hm : Sub 677386744 μ) :
    WithinNext μ s₀ (execIdeKmRequest fn req s) := by
  unfold execIdeKmRequest
  repeat' (first
    | with_reducible assumption | with_reducible apply withinNext_next | with_reducible apply within_ideKmOp)
/-! ### RegAccess -/

theorem within_clearRc (s : State) (a : RegAt) (hs : Within μ s₀ s) (hm : Sub 8 μ) : Within μ s₀ (clearRc s a) := by
  unfold clearRc
  repeat' (first
    | with_reducible assumption | with_reducible apply within_setRaw)
theorem within_countCoincident (s : State) (a : RegAt) (l : List (Nat × Nat)) (hs : Within μ s₀ s) (hm : Sub 8 μ) :
    Within μ s₀ (countCoincident s a l) := by
  unfold countCoincident
  repeat' (first
    | with_reducible assumption | intro _ | with_reducible apply within_bump | with_reducible apply within_foldl
    | split)
theorem within_regReadOp (f : Nat) (off : Nat) (width : Nat) (coincident : List (Nat × Nat)) (s : State) (hs : Within μ s₀ s) (hm : Sub 536870920 μ) :
    Within μ s₀ (regReadOp f off width coincident s) := by
  unfold regReadOp
  repeat' (first
    | with_reducible assumption | exact subStep hm (by decide) | (refine Agree.mk (fun a ha => ?_); cases a <;> first | exact noBit (by decide) hm ha | rfl)
    | with_reducible apply within_bump | with_reducible apply within_countCoincident | with_reducible apply within_clearRc
    | with_reducible apply within_ite | (simp only [within_mk]; with_reducible refine withinMk ?_ ?_)
    | simp only [] | split)
theorem within_execRcRegisterRead (fn : Fn) (off : Nat) (width : Nat) (coincident : List (Nat × Nat)) (s : State) (hs : Within μ s₀ s) (hm : Sub 536870920 μ) :
    WithinNext μ s₀ (execRcRegisterRead fn off width coincident s) := by
  unfold execRcRegisterRead
  repeat' (first
    | with_reducible assumption | with_reducible apply withinNext_next | with_reducible apply within_regReadOp)
theorem within_writeByCode (s : State) (a : RegAt) (lanes : Lanes) (v : Word) (hwSet : Word) (hs : Within μ s₀ s) (hm : Sub 8 μ) :
    Within μ s₀ (writeByCode s a lanes v hwSet) := by
  unfold writeByCode
  repeat' (first
    | with_reducible assumption | with_reducible apply within_setRaw)
theorem within_writeReg (f : Nat) (a : RegAt) (lanes : Lanes) (v : Word) (hwSet : Word) (s : State) (hs : Within μ s₀ s) (hm : Sub 1073741823 μ) :
    Within μ s₀ (writeReg f a lanes v hwSet s) := by
  unfold writeReg
  repeat' (first
    | with_reducible assumption | exact subStep hm (by decide) | with_reducible apply within_depositOp
    | with_reducible apply within_outAckOp | with_reducible apply within_cqReleaseOp | with_reducible apply within_resetKeyOp
    | with_reducible apply within_linkLoopHigh | with_reducible apply within_linkLoopWrite | with_reducible apply within_hbmLoopHigh
    | with_reducible apply within_hbmLoopWrite | with_reducible apply within_writeByCode | with_reducible apply within_ite
    | split)
theorem within_regWriteOp (f : Nat) (off : Nat) (width : Nat) (value : Word) (hwSet : Word) (s : State) (hs : Within μ s₀ s) (hm : Sub 1073741823 μ) :
    Within μ s₀ (regWriteOp f off width value hwSet s) := by
  unfold regWriteOp
  repeat' (first
    | with_reducible assumption | exact subStep hm (by decide) | with_reducible apply within_modFn | with_reducible apply within_writeReg
    | with_reducible apply within_ite | simp only [] | split)
theorem within_execRegisterWrite (fn : Fn) (off : Nat) (width : Nat) (value : Word) (hwSet : Word) (s : State) (hs : Within μ s₀ s) (hm : Sub 1073741823 μ) :
    WithinNext μ s₀ (execRegisterWrite fn off width value hwSet s) := by
  unfold execRegisterWrite
  repeat' (first
    | with_reducible assumption | with_reducible apply withinNext_next | with_reducible apply within_regWriteOp)

end Sys2Proof.Machine
end

