-- ==== Sys2Proof/Laws/WithinRest.lean ====
section
/-! SUPPORT. Gravel, power, management, replay, security, the witness and the tick: the areas they may change. -/

set_option maxRecDepth 4000
set_option linter.unusedSimpArgs false
set_option linter.unusedVariables false

namespace Sys2Proof.Machine

variable {μ : Nat} {s₀ : State}

/-! ### Gravel -/

theorem within_nextSlice (s : State) (n : Nat) (hs : Within μ s₀ s) (hm : Sub 134217736 μ) : Within μ s₀ (nextSlice s n) := by
  unfold nextSlice
  repeat' (first
    | with_reducible assumption | exact subStep hm (by decide) | with_reducible apply within_setFld | with_reducible apply within_wrap
    | with_reducible apply within_modGravel | with_reducible apply within_ite)
theorem within_beginSlice (s : State) (n : Nat) (j : Nat) (corner : Nat) (inOrder : Bool) (hs : Within μ s₀ s) (hm : Sub 136314880 μ) :
    Within μ s₀ (beginSlice s n j corner inOrder) := by
  unfold beginSlice
  repeat' (first
    | with_reducible assumption | exact subStep hm (by decide) | with_reducible apply within_modGravel
    | with_reducible apply within_modCore | with_reducible apply within_ite)
theorem within_sliceStartOp (n : Nat) (load100us : Nat) (load1s : Nat) (s : State) (hs : Within μ s₀ s) (hm : Sub 136314888 μ) :
    Within μ s₀ (sliceStartOp n load100us load1s s) := by
  unfold sliceStartOp
  repeat' (first
    | with_reducible assumption | exact subStep hm (by decide) | with_reducible apply within_bump | with_reducible apply within_nextSlice
    | with_reducible apply within_modGravel | with_reducible apply within_beginSlice | with_reducible apply within_ite)
theorem within_execGravelSliceStart (sec : Sec) (load100us : Half) (load1s : Half) (s : State) (hs : Within μ s₀ s) (hm : Sub 136314888 μ) :
    WithinNext μ s₀ (execGravelSliceStart sec load100us load1s s) := by
  unfold execGravelSliceStart
  repeat' (first
    | with_reducible assumption | with_reducible apply withinNext_next | with_reducible apply within_sliceStartOp)
theorem within_noteMismatch (s : State) (n : Nat) (j : Nat) (corner : Nat) (repeated : Bool) (cond : Word) (hs : Within μ s₀ s) (hm : Sub 8 μ) :
    Within μ s₀ (noteMismatch s n j corner repeated cond) := by
  unfold noteMismatch
  repeat' (first
    | with_reducible assumption | with_reducible apply within_setRaw)
theorem within_mismatched (s : State) (n : Nat) (j : Nat) (corner : Nat) (again : Bool) (cond : Word) (hs : Within μ s₀ s) (hm : Sub 134217864 μ) :
    Within μ s₀ (mismatched s n j corner again cond) := by
  unfold mismatched
  repeat' (first
    | with_reducible assumption | exact subStep hm (by decide) | with_reducible apply within_noteMismatch
    | with_reducible apply within_bump | with_reducible apply within_setFld | with_reducible apply within_healthEvent
    | with_reducible apply within_ite)
theorem within_endSlice (s : State) (n : Nat) (j : Nat) (hs : Within μ s₀ s) (hm : Sub 136314880 μ) : Within μ s₀ (endSlice s n j) := by
  unfold endSlice
  repeat' (first
    | with_reducible assumption | exact subStep hm (by decide) | with_reducible apply within_modGravel
    | with_reducible apply within_modCore | with_reducible apply within_ite)
theorem within_sliceEndOp (n : Nat) (signature : Word32) (again : Word32) (cond : Cond) (s : State) (hs : Within μ s₀ s) (hm : Sub 136315016 μ) :
    Within μ s₀ (sliceEndOp n signature again cond s) := by
  unfold sliceEndOp
  repeat' (first
    | with_reducible assumption | exact subStep hm (by decide) | with_reducible apply within_endSlice
    | with_reducible apply within_bump | with_reducible apply within_mismatched | with_reducible apply within_modGravel
    | with_reducible apply within_nextSlice | with_reducible apply within_ite | simp only [] | split)
theorem within_execGravelSliceEnd (sec : Sec) (signature : Word32) (again : Word32) (cond : Cond) (s : State) (hs : Within μ s₀ s) (hm : Sub 136315016 μ) :
    WithinNext μ s₀ (execGravelSliceEnd sec signature again cond s) := by
  unfold execGravelSliceEnd
  repeat' (first
    | with_reducible assumption | with_reducible apply withinNext_next | with_reducible apply within_sliceEndOp)
theorem within_sliceAbandonOp (n : Nat) (s : State) (hs : Within μ s₀ s) (hm : Sub 136314888 μ) : Within μ s₀ (sliceAbandonOp n s) := by
  unfold sliceAbandonOp
  repeat' (first
    | with_reducible assumption | exact subStep hm (by decide) | with_reducible apply within_endSlice
    | with_reducible apply within_bump | with_reducible apply within_modGravel | with_reducible apply within_ite
    | simp only [] | split)
theorem within_execGravelSliceAbandon (sec : Sec) (s : State) (hs : Within μ s₀ s) (hm : Sub 136314888 μ) :
    WithinNext μ s₀ (execGravelSliceAbandon sec s) := by
  unfold execGravelSliceAbandon
  repeat' (first
    | with_reducible assumption | with_reducible apply withinNext_next | with_reducible apply within_sliceAbandonOp)
theorem within_witnessSliceOp (n : Nat) (signature : Word32) (again : Word32) (s : State) (hs : Within μ s₀ s) (hm : Sub 1207959688 μ) :
    Within μ s₀ (witnessSliceOp n signature again s) := by
  unfold witnessSliceOp
  repeat' (first
    | with_reducible assumption | exact subStep hm (by decide) | with_reducible apply within_bump | with_reducible apply within_setFld
    | with_reducible apply within_freeDraw | with_reducible apply within_mismatched | with_reducible apply within_modGravel
    | with_reducible apply within_ite)
theorem within_execWitnessSlice (sec : Sec) (signature : Word32) (again : Word32) (s : State) (hs : Within μ s₀ s) (hm : Sub 1207959688 μ) :
    WithinNext μ s₀ (execWitnessSlice sec signature again s) := by
  unfold execWitnessSlice
  repeat' (first
    | with_reducible assumption | with_reducible apply withinNext_next | with_reducible apply within_witnessSliceOp)
/-! ### Power -/

theorem within_applyCaps (s : State) (hs : Within μ s₀ s) (hm : Sub 67108872 μ) : Within μ s₀ (applyCaps s) := by
  unfold applyCaps
  repeat' (first
    | with_reducible assumption | exact subStep hm (by decide) | (refine Agree.mk (fun a ha => ?_); cases a <;> first | exact noBit (by decide) hm ha | rfl)
    | with_reducible apply within_setFld | (simp only [within_mk]; with_reducible refine withinMk ?_ ?_)
    | split)
theorem within_stepHeat (s : State) (n : Nat) (hs : Within μ s₀ s) (hm : Sub 8 μ) : Within μ s₀ (stepHeat s n) := by
  unfold stepHeat
  repeat' (first
    | with_reducible assumption | with_reducible apply within_setFld | with_reducible apply within_bump
    | with_reducible apply within_ite)
theorem within_beginSlew (s : State) (target : Nat) (hs : Within μ s₀ s) (hm : Sub 67108872 μ) : Within μ s₀ (beginSlew s target) := by
  unfold beginSlew
  repeat' (first
    | with_reducible assumption | exact subStep hm (by decide) | (refine Agree.mk (fun a ha => ?_); cases a <;> first | exact noBit (by decide) hm ha | rfl)
    | with_reducible apply within_setFld | (simp only [within_mk]; with_reducible refine withinMk ?_ ?_))
theorem within_stepClock (s : State) (cap : Nat) (inputW : Nat) (hs : Within μ s₀ s) (hm : Sub 67108872 μ) :
    Within μ s₀ (stepClock s cap inputW) := by
  unfold stepClock
  repeat' (first
    | with_reducible assumption | (refine Agree.mk (fun a ha => ?_); cases a <;> first | exact noBit (by decide) hm ha | rfl)
    | with_reducible apply within_beginSlew | with_reducible apply within_ite | (simp only [within_mk]; with_reducible refine withinMk ?_ ?_))
theorem within_noteMeasures (s : State) (m : PowerMeas) (hs : Within μ s₀ s) (hm : Sub 67108872 μ) : Within μ s₀ (noteMeasures s m) := by
  unfold noteMeasures
  repeat' (first
    | with_reducible assumption | exact subStep hm (by decide) | (refine Agree.mk (fun a ha => ?_); cases a <;> first | exact noBit (by decide) hm ha | rfl)
    | intro _ | with_reducible apply within_setFld | with_reducible apply within_wrap | with_reducible apply within_forEach
    | (simp only [within_mk]; with_reducible refine withinMk ?_ ?_))
theorem within_stepUnmet (s : State) (cap : Nat) (inputW : Nat) (hs : Within μ s₀ s) (hm : Sub 8 μ) :
    Within μ s₀ (stepUnmet s cap inputW) := by
  unfold stepUnmet
  repeat' (first
    | with_reducible assumption | with_reducible apply within_setFld | with_reducible apply within_bump
    | with_reducible apply within_ite)
theorem within_arbiterOp (m : PowerMeas) (s : State) (hs : Within μ s₀ s) (hm : Sub 67108872 μ) : Within μ s₀ (arbiterOp m s) := by
  unfold arbiterOp
  repeat' (first
    | with_reducible assumption | exact subStep hm (by decide) | intro _ | with_reducible apply within_noteMeasures
    | with_reducible apply within_applyCaps | with_reducible apply within_setFld | with_reducible apply within_forEach
    | with_reducible apply within_stepHeat | with_reducible apply within_stepClock | with_reducible apply within_stepUnmet
    | with_reducible apply within_ite)
theorem within_execArbiterPeriod (meas : PowerMeas) (s : State) (hs : Within μ s₀ s) (hm : Sub 67108872 μ) :
    WithinNext μ s₀ (execArbiterPeriod meas s) := by
  unfold execArbiterPeriod
  repeat' (first
    | with_reducible assumption | with_reducible apply withinNext_next | with_reducible apply within_arbiterOp)
theorem within_execClockSlewEnd (s : State) (hs : Within μ s₀ s) (hm : Sub 67108872 μ) : WithinNext μ s₀ (execClockSlewEnd s) := by
  unfold execClockSlewEnd
  repeat' (first
    | with_reducible assumption | with_reducible apply withinNext_next | with_reducible apply within_endSlew
    | with_reducible apply within_ite)
theorem within_emergencyOp (s : State) (hs : Within μ s₀ s) (hm : Sub 8 μ) : Within μ s₀ (emergencyOp s) := by
  unfold emergencyOp
  repeat' (first
    | with_reducible assumption | with_reducible apply within_setFld | with_reducible apply within_bump
    | with_reducible apply within_ite)
theorem within_execEmergencyHold (s : State) (hs : Within μ s₀ s) (hm : Sub 8 μ) : WithinNext μ s₀ (execEmergencyHold s) := by
  unfold execEmergencyHold
  repeat' (first
    | with_reducible assumption | with_reducible apply withinNext_next | with_reducible apply within_emergencyOp)
theorem within_showSection (s : State) (now : List Half) (n : Nat) (hs : Within μ s₀ s) (hm : Sub 8 μ) :
    Within μ s₀ (showSection s now n) := by
  unfold showSection
  repeat' (first
    | with_reducible assumption | with_reducible apply within_setFld | split)
theorem within_showReadings (s : State) (now : List Half) (temps : List Byte) (hs : Within μ s₀ s) (hm : Sub 8 μ) :
    Within μ s₀ (showReadings s now temps) := by
  unfold showReadings
  repeat' (first
    | with_reducible assumption | intro _ | with_reducible apply within_forEach | with_reducible apply within_setFld
    | with_reducible apply within_showSection)
theorem within_stepIgnored (s : State) (n : Nat) (hs : Within μ s₀ s) (hm : Sub 201326728 μ) : Within μ s₀ (stepIgnored s n) := by
  unfold stepIgnored
  repeat' (first
    | with_reducible assumption | exact subStep hm (by decide) | (refine Agree.mk (fun a ha => ?_); cases a <;> first | exact noBit (by decide) hm ha | rfl)
    | with_reducible apply within_healthEvent | with_reducible apply within_ite | (simp only [within_mk]; with_reducible refine withinMk ?_ ?_))
theorem within_stepRefresh (s : State) (last : List Byte) (now : List Byte) (g : Nat) (hs : Within μ s₀ s) (hm : Sub 8 μ) :
    Within μ s₀ (stepRefresh s last now g) := by
  unfold stepRefresh
  repeat' (first
    | with_reducible assumption | with_reducible apply within_setFld | with_reducible apply within_ite)
theorem within_trip (s : State) (record : Option Word) (hs : Within μ s₀ s) (hm : Sub 536870847 μ) : Within μ s₀ (trip s record) := by
  unfold trip
  repeat' (first
    | with_reducible assumption | (refine Agree.mk (fun a ha => ?_); cases a <;> first | exact noBit (by decide) hm ha | rfl)
    | (simp only [within_mk]; with_reducible refine withinMk ?_ ?_))
theorem within_sensorOp (dies : List Half) (temps : List Byte) (s : State) (hs : Within μ s₀ s) (hm : Sub 536870847 μ) :
    Within μ s₀ (sensorOp dies temps s) := by
  unfold sensorOp
  repeat' (first
    | with_reducible assumption | exact subStep hm (by decide) | (refine Agree.mk (fun a ha => ?_); cases a <;> first | exact noBit (by decide) hm ha | rfl)
    | intro _ | with_reducible apply within_trip | with_reducible apply within_showReadings | with_reducible apply within_forEach
    | with_reducible apply within_stepIgnored | with_reducible apply within_stepRefresh | with_reducible apply within_ite
    | (simp only [within_mk]; with_reducible refine withinMk ?_ ?_) | simp only [] | split)
theorem within_execSensorRead (dies : List Half) (temps : List Byte) (s : State) (hs : Within μ s₀ s) (hm : Sub 536870847 μ) :
    WithinNext μ s₀ (execSensorRead dies temps s) := by
  unfold execSensorRead
  repeat' (first
    | with_reducible assumption | with_reducible apply withinNext_next | with_reducible apply within_sensorOp)
theorem within_supplyTripOp (kind : SupplyTripKind) (mV : Nat) (recorded : Bool) (s : State) (hs : Within μ s₀ s) (hm : Sub 1610612671 μ) :
    Within μ s₀ (supplyTripOp kind mV recorded s) := by
  unfold supplyTripOp
  repeat' (first
    | with_reducible assumption | exact subStep hm (by decide) | with_reducible apply within_trip | with_reducible apply within_freeDraw
    | with_reducible apply within_ite | simp only [] | split)
theorem within_execSupplyTrip (kind : SupplyTripKind) (mV : Nat) (recorded : Bool) (s : State) (hs : Within μ s₀ s) (hm : Sub 1610612671 μ) :
    WithinNext μ s₀ (execSupplyTrip kind mV recorded s) := by
  unfold execSupplyTrip
  repeat' (first
    | with_reducible assumption | with_reducible apply withinNext_next | with_reducible apply within_supplyTripOp)
theorem within_mgmtCapOp (watts : Nat) (s : State) (hs : Within μ s₀ s) (hm : Sub 603979776 μ) : Within μ s₀ (mgmtCapOp watts s) := by
  unfold mgmtCapOp
  repeat' (first
    | with_reducible assumption | (refine Agree.mk (fun a ha => ?_); cases a <;> first | exact noBit (by decide) hm ha | rfl)
    | with_reducible apply within_ite | (simp only [within_mk]; with_reducible refine withinMk ?_ ?_))
theorem within_execMgmtCapSet (watts : Nat) (s : State) (hs : Within μ s₀ s) (hm : Sub 603979776 μ) :
    WithinNext μ s₀ (execMgmtCapSet watts s) := by
  unfold execMgmtCapSet
  repeat' (first
    | with_reducible assumption | with_reducible apply withinNext_next | with_reducible apply within_mgmtCapOp)
/-! ### Mgmt -/

theorem within_mgmtAnswer (s : State) (a : MgmtAnswer) (hs : Within μ s₀ s) (hm : Sub 536870912 μ) : Within μ s₀ (mgmtAnswer s a) := by
  unfold mgmtAnswer
  repeat' (first
    | with_reducible assumption | (refine Agree.mk (fun a ha => ?_); cases a <;> first | exact noBit (by decide) hm ha | rfl)
    | (simp only [within_mk]; with_reducible refine withinMk ?_ ?_))
theorem within_firmwareUpdateOp (image : FwImage) (s : State) (hs : Within μ s₀ s) (hm : Sub 536870914 μ) :
    Within μ s₀ (firmwareUpdateOp image s) := by
  unfold firmwareUpdateOp
  repeat' (first
    | with_reducible assumption | exact subStep hm (by decide) | (refine Agree.mk (fun a ha => ?_); cases a <;> first | exact noBit (by decide) hm ha | rfl)
    | with_reducible apply within_mgmtAnswer | with_reducible apply within_ite | (simp only [within_mk]; with_reducible refine withinMk ?_ ?_))
theorem within_execPldmFirmwareUpdate (image : FwImage) (s : State) (hs : Within μ s₀ s) (hm : Sub 536870914 μ) :
    WithinNext μ s₀ (execPldmFirmwareUpdate image s) := by
  unfold execPldmFirmwareUpdate
  repeat' (first
    | with_reducible assumption | with_reducible apply withinNext_next | with_reducible apply within_firmwareUpdateOp)
theorem within_sensorReadOp (item : PldmItem) (s : State) (hs : Within μ s₀ s) (hm : Sub 536870912 μ) :
    Within μ s₀ (sensorReadOp item s) := by
  unfold sensorReadOp
  repeat' (first
    | with_reducible assumption | with_reducible apply within_mgmtAnswer | with_reducible apply within_ite)
theorem within_execPldmSensorRead (item : PldmItem) (s : State) (hs : Within μ s₀ s) (hm : Sub 536870912 μ) :
    WithinNext μ s₀ (execPldmSensorRead item s) := by
  unfold execPldmSensorRead
  repeat' (first
    | with_reducible assumption | with_reducible apply withinNext_next | with_reducible apply within_sensorReadOp)
theorem within_mctpControlOp (command : Byte) (_data : List Byte) (s : State) (hs : Within μ s₀ s) (hm : Sub 1610612736 μ) :
    Within μ s₀ (mctpControlOp command _data s) := by
  unfold mctpControlOp
  repeat' (first
    | with_reducible assumption | exact subStep hm (by decide) | with_reducible apply within_mgmtAnswer
    | with_reducible apply within_freeDraw | with_reducible apply within_ite)
theorem within_execMctpControl (command : Byte) (data : List Byte) (s : State) (hs : Within μ s₀ s) (hm : Sub 1610612736 μ) :
    WithinNext μ s₀ (execMctpControl command data s) := by
  unfold execMctpControl
  repeat' (first
    | with_reducible assumption | with_reducible apply withinNext_next | with_reducible apply within_mctpControlOp)
/-! ### Replay -/

theorem within_replayWrite (s : State) (c : Nat) (source : Nat) (addr : Nat) (data : List Byte) (hs : Within μ s₀ s) (hm : Sub 134230200 μ) :
    Within μ s₀ (replayWrite s c source addr data) := by
  unfold replayWrite
  repeat' (first
    | with_reducible assumption | exact subStep hm (by decide) | with_reducible apply within_storeBytes
    | with_reducible apply within_recordInput | with_reducible apply within_ite)
theorem within_replayMessage (s : State) (c : Nat) (source : Nat) (addr : Nat) (tally : Nat) (data : List Byte) (hs : Within μ s₀ s) (hm : Sub 1785231869 μ) :
    Within μ s₀ (replayMessage s c source addr tally data) := by
  unfold replayMessage
  repeat' (first
    | with_reducible assumption | exact subStep hm (by decide) | with_reducible apply within_recordInput
    | with_reducible apply within_writeMem | with_reducible apply within_storeBytes | with_reducible apply within_freeDraw
    | with_reducible apply within_signalTally | with_reducible apply within_ite | simp only [] | split)
theorem within_replayLaunch (s : State) (c : Nat) (launch : Nat) (slots : List (Nat × Nat)) (hs : Within μ s₀ s) (hm : Sub 138688696 μ) :
    Within μ s₀ (replayLaunch s c launch slots) := by
  unfold replayLaunch
  repeat' (first
    | with_reducible assumption | exact subStep hm (by decide) | intro _ | with_reducible apply within_forEach
    | with_reducible apply within_recordInput | with_reducible apply within_startSlots | with_reducible apply within_noteModels
    | with_reducible apply within_restartWork | with_reducible apply within_ite)
theorem within_deliverRecord (s : State) (c : Nat) (r : List Byte) (data : List Byte) (together : List (List Byte)) (hs : Within μ s₀ s) (hm : Sub 1862270973 μ) :
    Within μ s₀ (deliverRecord s c r data together) := by
  unfold deliverRecord
  repeat' (first
    | with_reducible assumption | exact subStep hm (by decide) | with_reducible apply within_acceptWord
    | with_reducible apply within_ringOne | with_reducible apply within_replayWrite | with_reducible apply within_replayMessage
    | with_reducible apply within_replayLaunch | simp only [] | split)
theorem within_replayEnd (s : State) (c : Nat) (delivered : Nat) (hs : Within μ s₀ s) (hm : Sub 671101944 μ) :
    Within μ s₀ (replayEnd s c delivered) := by
  unfold replayEnd
  repeat' (first
    | with_reducible assumption | exact subStep hm (by decide) | with_reducible apply within_modCtx | with_reducible apply within_publishOne
    | simp only [] | split)
theorem within_replayPast (s : State) (c : Nat) (pos : Nat) (seq : Nat) (hs : Within μ s₀ s) (hm : Sub 671101944 μ) :
    Within μ s₀ (replayPast s c pos seq) := by
  unfold replayPast
  repeat' (first
    | with_reducible assumption | exact subStep hm (by decide) | with_reducible apply within_replayEnd
    | with_reducible apply within_modCtx | with_reducible apply within_ite | split)
theorem within_replayDeliverOp (c : Nat) (s : State) (hs : Within μ s₀ s) (hm : Sub 1862270973 μ) : Within μ s₀ (replayDeliverOp c s) := by
  unfold replayDeliverOp
  repeat' (first
    | with_reducible assumption | exact subStep hm (by decide) | with_reducible apply within_replayEnd
    | with_reducible apply within_readMem | with_reducible apply within_ctxFault | with_reducible apply within_replayPast
    | with_reducible apply within_deliverRecord | with_reducible apply within_ite | simp only [] | split)
theorem within_execReplayDeliver (ctx : CtxId) (s : State) (hs : Within μ s₀ s) (hm : Sub 1862270973 μ) :
    WithinNext μ s₀ (execReplayDeliver ctx s) := by
  unfold execReplayDeliver
  repeat' (first
    | with_reducible assumption | with_reducible apply withinNext_next | with_reducible apply within_replayDeliverOp)
/-! ### Spdm -/

theorem within_spdmAnswer (s : State) (a : SpdmAnswer) (hs : Within μ s₀ s) (hm : Sub 536870912 μ) : Within μ s₀ (spdmAnswer s a) := by
  unfold spdmAnswer
  repeat' (first
    | with_reducible assumption | (refine Agree.mk (fun a ha => ?_); cases a <;> first | exact noBit (by decide) hm ha | rfl)
    | (simp only [within_mk]; with_reducible refine withinMk ?_ ?_))
theorem within_tdiTo (s : State) (f : Nat) (m : TdiMode) (hs : Within μ s₀ s) (hm : Sub 536871040 μ) : Within μ s₀ (tdiTo s f m) := by
  unfold tdiTo
  repeat' (first
    | with_reducible assumption | exact subStep hm (by decide) | with_reducible apply within_spdmAnswer
    | with_reducible apply within_modFn)
theorem within_tdispStep (f : Nat) (req : TdispReq) (s : State) (hs : Within μ s₀ s) (hm : Sub 677386744 μ) :
    Within μ s₀ (tdispStep f req s) := by
  unfold tdispStep
  repeat' (first
    | with_reducible assumption | exact subStep hm (by decide) | with_reducible apply within_spdmAnswer
    | with_reducible apply within_tdiTo | with_reducible apply within_tdiError | simp only [] | split)
theorem within_tdispOp (f : Nat) (req : TdispReq) (s : State) (hs : Within μ s₀ s) (hm : Sub 677386744 μ) :
    Within μ s₀ (tdispOp f req s) := by
  unfold tdispOp
  repeat' (first
    | with_reducible assumption | exact subStep hm (by decide) | with_reducible apply within_spdmAnswer
    | with_reducible apply within_tdispStep | with_reducible apply within_ite)
theorem within_execTdispRequest (fn : Fn) (req : TdispReq) (s : State) (hs : Within μ s₀ s) (hm : Sub 677386744 μ) :
    WithinNext μ s₀ (execTdispRequest fn req s) := by
  unfold execTdispRequest
  repeat' (first
    | with_reducible assumption | with_reducible apply withinNext_next | with_reducible apply within_tdispOp)
theorem within_onChan (s : State) (c : SpdmChan) (k : SpdmConn → State) (hs : Within μ s₀ s) (hk : ∀ t, Within μ s₀ (k t)) (hm : Sub 536870912 μ) :
    Within μ s₀ (onChan s c k) := by
  unfold onChan
  repeat' (first
    | with_reducible assumption | with_reducible apply within_spdmAnswer | with_reducible apply hk | with_reducible apply within_ite)
theorem within_onAgreed (s : State) (c : SpdmChan) (k : SpdmConn → State) (hs : Within μ s₀ s) (hk : ∀ t, Within μ s₀ (k t)) (hm : Sub 536870912 μ) :
    Within μ s₀ (onAgreed s c k) := by
  unfold onAgreed
  repeat' (first
    | with_reducible assumption | intro _ | with_reducible apply within_onChan | with_reducible apply within_spdmAnswer
    | with_reducible apply hk | with_reducible apply within_ite)
theorem within_drawRandom (s : State) (hs : Within μ s₀ s) (hm : Sub 268435456 μ) : Within μ s₀ (drawRandom s).2 := by
  unfold drawRandom
  repeat' (first
    | with_reducible assumption | (refine Agree.mk (fun a ha => ?_); cases a <;> first | exact noBit (by decide) hm ha | rfl)
    | (simp only [within_mk]; with_reducible refine withinMk ?_ ?_))
theorem within_getVersionOp (c : SpdmChan) (s : State) (hs : Within μ s₀ s) (hm : Sub 805306368 μ) : Within μ s₀ (getVersionOp c s) := by
  unfold getVersionOp
  repeat' (first
    | with_reducible assumption | exact subStep hm (by decide) | intro _ | with_reducible apply within_onChan
    | with_reducible apply within_spdmAnswer | with_reducible apply within_setSpdm)
theorem within_execGetVersion (chan : SpdmChan) (s : State) (hs : Within μ s₀ s) (hm : Sub 805306368 μ) :
    WithinNext μ s₀ (execGetVersion chan s) := by
  unfold execGetVersion
  repeat' (first
    | with_reducible assumption | with_reducible apply withinNext_next | with_reducible apply within_getVersionOp)
theorem within_getCapabilitiesOp (c : SpdmChan) (v : Byte) (s : State) (hs : Within μ s₀ s) (hm : Sub 805306368 μ) :
    Within μ s₀ (getCapabilitiesOp c v s) := by
  unfold getCapabilitiesOp
  repeat' (first
    | with_reducible assumption | exact subStep hm (by decide) | intro _ | with_reducible apply within_onChan
    | with_reducible apply within_spdmAnswer | with_reducible apply within_setSpdm | with_reducible apply within_ite)
theorem within_execGetCapabilities (chan : SpdmChan) (version : Byte) (s : State) (hs : Within μ s₀ s) (hm : Sub 805306368 μ) :
    WithinNext μ s₀ (execGetCapabilities chan version s) := by
  unfold execGetCapabilities
  repeat' (first
    | with_reducible assumption | with_reducible apply withinNext_next | with_reducible apply within_getCapabilitiesOp)
theorem within_negotiateAlgorithmsOp (c : SpdmChan) (extAsym : List Half) (extHash : List Half) (s : State) (hs : Within μ s₀ s) (hm : Sub 805306368 μ) :
    Within μ s₀ (negotiateAlgorithmsOp c extAsym extHash s) := by
  unfold negotiateAlgorithmsOp
  repeat' (first
    | with_reducible assumption | exact subStep hm (by decide) | intro _ | with_reducible apply within_onChan
    | with_reducible apply within_spdmAnswer | with_reducible apply within_setSpdm | with_reducible apply within_ite)
theorem within_execNegotiateAlgorithms (chan : SpdmChan) (extAsym : List Half) (extHash : List Half) (s : State) (hs : Within μ s₀ s) (hm : Sub 805306368 μ) :
    WithinNext μ s₀ (execNegotiateAlgorithms chan extAsym extHash s) := by
  unfold execNegotiateAlgorithms
  repeat' (first
    | with_reducible assumption | with_reducible apply withinNext_next | with_reducible apply within_negotiateAlgorithmsOp)
theorem within_getDigestsOp (c : SpdmChan) (s : State) (hs : Within μ s₀ s) (hm : Sub 536870912 μ) : Within μ s₀ (getDigestsOp c s) := by
  unfold getDigestsOp
  repeat' (first
    | with_reducible assumption | intro _ | with_reducible apply within_onAgreed | with_reducible apply within_spdmAnswer)
theorem within_execGetDigests (chan : SpdmChan) (s : State) (hs : Within μ s₀ s) (hm : Sub 536870912 μ) :
    WithinNext μ s₀ (execGetDigests chan s) := by
  unfold execGetDigests
  repeat' (first
    | with_reducible assumption | with_reducible apply withinNext_next | with_reducible apply within_getDigestsOp)
theorem within_getCertificateOp (c : SpdmChan) (slot : Nat) (offset : Nat) (length : Nat) (s : State) (hs : Within μ s₀ s) (hm : Sub 536870912 μ) :
    Within μ s₀ (getCertificateOp c slot offset length s) := by
  unfold getCertificateOp
  repeat' (first
    | with_reducible assumption | intro _ | with_reducible apply within_onAgreed | with_reducible apply within_spdmAnswer
    | with_reducible apply within_ite)
theorem within_execGetCertificate (chan : SpdmChan) (slot : Nat) (offset : Nat) (length : Nat) (s : State) (hs : Within μ s₀ s) (hm : Sub 536870912 μ) :
    WithinNext μ s₀ (execGetCertificate chan slot offset length s) := by
  unfold execGetCertificate
  repeat' (first
    | with_reducible assumption | with_reducible apply withinNext_next | with_reducible apply within_getCertificateOp)
theorem within_challengeOp (c : SpdmChan) (slot : Nat) (nonce : List Byte) (s : State) (hs : Within μ s₀ s) (hm : Sub 805306368 μ) :
    Within μ s₀ (challengeOp c slot nonce s) := by
  unfold challengeOp
  repeat' (first
    | with_reducible assumption | exact subStep hm (by decide) | intro _ | with_reducible apply within_onAgreed
    | with_reducible apply within_spdmAnswer | with_reducible apply within_drawRandom | with_reducible apply within_ite)
theorem within_execChallenge (chan : SpdmChan) (slot : Nat) (nonce : List Byte) (s : State) (hs : Within μ s₀ s) (hm : Sub 805306368 μ) :
    WithinNext μ s₀ (execChallenge chan slot nonce s) := by
  unfold execChallenge
  repeat' (first
    | with_reducible assumption | with_reducible apply withinNext_next | with_reducible apply within_challengeOp)
theorem within_getMeasurementsOp (c : SpdmChan) (index : Nat) (raw : Bool) (s : State) (hs : Within μ s₀ s) (hm : Sub 805306368 μ) :
    Within μ s₀ (getMeasurementsOp c index raw s) := by
  unfold getMeasurementsOp
  repeat' (first
    | with_reducible assumption | exact subStep hm (by decide) | intro _ | with_reducible apply within_onAgreed
    | with_reducible apply within_spdmAnswer | with_reducible apply within_drawRandom | with_reducible apply within_ite)
theorem within_execGetMeasurements (chan : SpdmChan) (index : Nat) (raw : Bool) (s : State) (hs : Within μ s₀ s) (hm : Sub 805306368 μ) :
    WithinNext μ s₀ (execGetMeasurements chan index raw s) := by
  unfold execGetMeasurements
  repeat' (first
    | with_reducible assumption | with_reducible apply withinNext_next | with_reducible apply within_getMeasurementsOp)
theorem within_keyExchangeOp (c : SpdmChan) (slot : Nat) (sessionId : Half) (exchange : List Byte) (s : State) (hs : Within μ s₀ s) (hm : Sub 805306368 μ) :
    Within μ s₀ (keyExchangeOp c slot sessionId exchange s) := by
  unfold keyExchangeOp
  repeat' (first
    | with_reducible assumption | exact subStep hm (by decide) | intro _ | with_reducible apply within_onAgreed
    | with_reducible apply within_spdmAnswer | with_reducible apply within_drawRandom | with_reducible apply within_setSpdm
    | with_reducible apply within_ite)
theorem within_execKeyExchange (chan : SpdmChan) (slot : Nat) (sessionId : Half) (exchange : List Byte) (s : State) (hs : Within μ s₀ s) (hm : Sub 805306368 μ) :
    WithinNext μ s₀ (execKeyExchange chan slot sessionId exchange s) := by
  unfold execKeyExchange
  repeat' (first
    | with_reducible assumption | with_reducible apply withinNext_next | with_reducible apply within_keyExchangeOp)
theorem within_finishOp (c : SpdmChan) (verified : Bool) (s : State) (hs : Within μ s₀ s) (hm : Sub 805306368 μ) :
    Within μ s₀ (finishOp c verified s) := by
  unfold finishOp
  repeat' (first
    | with_reducible assumption | exact subStep hm (by decide) | intro _ | with_reducible apply within_onAgreed
    | with_reducible apply within_spdmAnswer | with_reducible apply within_setSpdm | with_reducible apply within_ite)
theorem within_execFinish (chan : SpdmChan) (verified : Bool) (s : State) (hs : Within μ s₀ s) (hm : Sub 805306368 μ) :
    WithinNext μ s₀ (execFinish chan verified s) := by
  unfold execFinish
  repeat' (first
    | with_reducible assumption | with_reducible apply withinNext_next | with_reducible apply within_finishOp)
theorem within_endSessionOp (c : SpdmChan) (s : State) (hs : Within μ s₀ s) (hm : Sub 805306368 μ) : Within μ s₀ (endSessionOp c s) := by
  unfold endSessionOp
  repeat' (first
    | with_reducible assumption | exact subStep hm (by decide) | intro _ | with_reducible apply within_onAgreed
    | with_reducible apply within_spdmAnswer | with_reducible apply within_setSpdm | with_reducible apply within_ite)
theorem within_execEndSession (chan : SpdmChan) (s : State) (hs : Within μ s₀ s) (hm : Sub 805306368 μ) :
    WithinNext μ s₀ (execEndSession chan s) := by
  unfold execEndSession
  repeat' (first
    | with_reducible assumption | with_reducible apply withinNext_next | with_reducible apply within_endSessionOp)
theorem within_debugTokenOp (version : Byte) (level : Byte) (moduleId : BitVec 48) (nonce : BitVec 256) (signatureOk : Bool) (s : State) (hs : Within μ s₀ s) (hm : Sub 805306368 μ) :
    Within μ s₀ (debugTokenOp version level moduleId nonce signatureOk s) := by
  unfold debugTokenOp
  repeat' (first
    | with_reducible assumption | exact subStep hm (by decide) | (refine Agree.mk (fun a ha => ?_); cases a <;> first | exact noBit (by decide) hm ha | rfl)
    | with_reducible apply within_mgmtAnswer | with_reducible apply within_ite | (simp only [within_mk]; with_reducible refine withinMk ?_ ?_))
theorem within_execDebugToken (version : Byte) (level : Byte) (moduleId : BitVec 48) (nonce : BitVec 256) (signatureOk : Bool) (s : State) (hs : Within μ s₀ s) (hm : Sub 805306368 μ) :
    WithinNext μ s₀ (execDebugToken version level moduleId nonce signatureOk s) := by
  unfold execDebugToken
  repeat' (first
    | with_reducible assumption | with_reducible apply withinNext_next | with_reducible apply within_debugTokenOp)
theorem within_tapTo (s : State) (i : TapInstr) (drives : Bool) (read : Word32) (hs : Within μ s₀ s) (hm : Sub 805306368 μ) :
    Within μ s₀ (tapTo s i drives read) := by
  unfold tapTo
  repeat' (first
    | with_reducible assumption | (refine Agree.mk (fun a ha => ?_); cases a <;> first | exact noBit (by decide) hm ha | rfl)
    | with_reducible apply within_ite | (simp only [within_mk]; with_reducible refine withinMk ?_ ?_))
theorem within_execTapBypass (s : State) (hs : Within μ s₀ s) (hm : Sub 805306368 μ) : WithinNext μ s₀ (execTapBypass s) := by
  unfold execTapBypass
  repeat' (first
    | with_reducible assumption | with_reducible apply withinNext_next | with_reducible apply within_tapTo)
theorem within_execTapIdcode (s : State) (hs : Within μ s₀ s) (hm : Sub 805306368 μ) : WithinNext μ s₀ (execTapIdcode s) := by
  unfold execTapIdcode
  repeat' (first
    | with_reducible assumption | with_reducible apply withinNext_next | with_reducible apply within_tapTo)
theorem within_tapSampleOp (sampled : List Bool) (preload : List Bool) (s : State) (hs : Within μ s₀ s) (hm : Sub 805306368 μ) :
    Within μ s₀ (tapSampleOp sampled preload s) := by
  unfold tapSampleOp
  repeat' (first
    | with_reducible assumption | (refine Agree.mk (fun a ha => ?_); cases a <;> first | exact noBit (by decide) hm ha | rfl)
    | with_reducible apply within_tapTo | with_reducible apply within_ite | (simp only [within_mk]; with_reducible refine withinMk ?_ ?_))
theorem within_execTapSamplePreload (sampled : List Bool) (preload : List Bool) (s : State) (hs : Within μ s₀ s) (hm : Sub 805306368 μ) :
    WithinNext μ s₀ (execTapSamplePreload sampled preload s) := by
  unfold execTapSamplePreload
  repeat' (first
    | with_reducible assumption | with_reducible apply withinNext_next | with_reducible apply within_tapSampleOp)
theorem within_tapExtestOp (s : State) (hs : Within μ s₀ s) (hm : Sub 805306368 μ) : Within μ s₀ (tapExtestOp s) := by
  unfold tapExtestOp
  repeat' (first
    | with_reducible assumption | with_reducible apply within_tapTo | with_reducible apply within_ite)
theorem within_execTapExtest (s : State) (hs : Within μ s₀ s) (hm : Sub 805306368 μ) : WithinNext μ s₀ (execTapExtest s) := by
  unfold execTapExtest
  repeat' (first
    | with_reducible assumption | with_reducible apply withinNext_next | with_reducible apply within_tapExtestOp)
/-! ### Witness -/

theorem within_logOutlier (s : State) (p : Nat) (x : Sample) (f : Finding) (cond : Cond) (hs : Within μ s₀ s) (hm : Sub 134222008 μ) :
    Within μ s₀ (logOutlier s p x f cond) := by
  unfold logOutlier
  repeat' (first
    | with_reducible assumption | exact subStep hm (by decide) | with_reducible apply within_setRaw | with_reducible apply within_bump
    | with_reducible apply within_storeBytes | with_reducible apply within_modPart | with_reducible apply within_ite
    | simp only [] | split)
theorem within_setDrift (s : State) (p : Nat) (i : Nat) (d : DriftPair) (hs : Within μ s₀ s) (hm : Sub 4096 μ) :
    Within μ s₀ (setDrift s p i d) := by
  unfold setDrift
  repeat' (first
    | with_reducible assumption | with_reducible apply within_modPart)
theorem within_driftCheck (s : State) (p : Nat) (x : Sample) (cond : Cond) (hs : Within μ s₀ s) (hm : Sub 134222008 μ) :
    Within μ s₀ (driftCheck s p x cond) := by
  unfold driftCheck
  repeat' (first
    | with_reducible assumption | exact subStep hm (by decide) | with_reducible apply within_setDrift
    | with_reducible apply within_readAll | with_reducible apply within_logOutlier | with_reducible apply within_bump
    | with_reducible apply within_ite | simp only [] | split)
theorem within_dropTile (s : State) (x : Sample) (hs : Within μ s₀ s) (hm : Sub 2097152 μ) : Within μ s₀ (dropTile s x) := by
  unfold dropTile
  repeat' (first
    | with_reducible assumption | with_reducible apply within_modCore)
theorem within_releaseTile (s : State) (x : Sample) (hs : Within μ s₀ s) (hm : Sub 1785231869 μ) : Within μ s₀ (releaseTile s x) := by
  unfold releaseTile
  repeat' (first
    | with_reducible assumption | exact subStep hm (by decide) | with_reducible apply within_checkComplete
    | with_reducible apply within_dropTile | with_reducible apply within_signalTile | with_reducible apply within_setUnit
    | with_reducible apply within_ite | split)
theorem within_stopTile (s : State) (x : Sample) (hs : Within μ s₀ s) (hm : Sub 1075838992 μ) : Within μ s₀ (stopTile s x) := by
  unfold stopTile
  repeat' (first
    | with_reducible assumption | exact subStep hm (by decide) | with_reducible apply within_setUnit | with_reducible apply within_partialWrites
    | with_reducible apply within_dropTile | split)
theorem within_arrayAtFault (s : State) (sec : Nat) (p : Nat) (x : Sample) (w : List (BitVec 48 × Word32)) (cond : Cond) (hs : Within μ s₀ s) (hm : Sub 1785231869 μ) :
    Within μ s₀ (arrayAtFault s sec p x w cond) := by
  unfold arrayAtFault
  repeat' (first
    | with_reducible assumption | exact subStep hm (by decide) | with_reducible apply within_logOutlier
    | with_reducible apply within_healthEvent | with_reducible apply within_bump | with_reducible apply within_postBoth
    | with_reducible apply within_stopTile | with_reducible apply within_coreFault | with_reducible apply within_ite)
theorem within_witnessAtFault (s : State) (sec : Nat) (p : Nat) (x : Sample) (w : List (BitVec 48 × Word32)) (cond : Cond) (hs : Within μ s₀ s) (hm : Sub 1785231869 μ) :
    Within μ s₀ (witnessAtFault s sec p x w cond) := by
  unfold witnessAtFault
  repeat' (first
    | with_reducible assumption | exact subStep hm (by decide) | with_reducible apply within_logOutlier
    | with_reducible apply within_bump | with_reducible apply within_setFld | with_reducible apply within_healthEvent
    | with_reducible apply within_releaseTile | with_reducible apply within_postTo)
theorem within_witnessDone (sec : Nat) (first : List CellError) (second : List CellError) (cond : Cond) (s : State) (hs : Within μ s₀ s) (hm : Sub 1802009085 μ) :
    Within μ s₀ (witnessDone sec first second cond s) := by
  unfold witnessDone
  repeat' (first
    | with_reducible assumption | exact subStep hm (by decide) | with_reducible apply within_setWitness
    | with_reducible apply within_bump | with_reducible apply within_dropCauses | with_reducible apply within_releaseTile
    | with_reducible apply within_driftCheck | with_reducible apply within_arrayAtFault | with_reducible apply within_witnessAtFault
    | with_reducible apply within_ite | simp only [] | split)
theorem within_execWitnessCheckDone (sec : Sec) (result : WitnessResult) (cond : Cond) (s : State) (hs : Within μ s₀ s) (hm : Sub 1802009085 μ) :
    WithinNext μ s₀ (execWitnessCheckDone sec result cond s) := by
  unfold execWitnessCheckDone
  repeat' (first
    | with_reducible assumption | with_reducible apply withinNext_next | with_reducible apply within_witnessDone)

end Sys2Proof.Machine
end

