-- ==== Sys2Proof/Laws/Caoco.lean ====
section
/-! SUPPORT. How a Caoco row ends or waits where nothing refuses it, how free indices are picked, and what writes leave. -/

namespace Sys2Proof.Machine

theorem only_mk {l : List Area} {μ : Nat} {s t : State} (hw : Within μ s t)
    (h : ∀ a : Area, a ∉ l → μ.testBit a.num = false) : Only l s t := fun a ha => hw.same a (h a ha)

theorem accepted_run {refuse : Cmd → State → Option Nat} {effect : Cmd → State → CmdOut} {rq : Req} {op : Nat} {args : List Word}
    {s : State} (h : Accepted refuse rq op args s) : runRow refuse effect op rq args s =
      conclude (cmdOf rq op args) (namedTag (before rq op args s) (cmdOf rq op args))
        (effect (cmdOf rq op args) (before rq op args s)) := by
  obtain ⟨h1, h2, h3⟩ := h
  unfold before at *
  simp only [runRow, runRowWith, runCmd, h1, h2, h3]
  rfl

theorem accepted_done {refuse : Cmd → State → Option Nat} {effect : Cmd → State → CmdOut} {rq : Req} {op : Nat} {args : List Word}
    {s : State} {r : Word} {u : State} (h : Accepted refuse rq op args s)
    (he : effect (cmdOf rq op args) (before rq op args s) = .done 0 r u) : runRow refuse effect op rq args s =
      answerNow (cmdOf rq op args) (keepToken u (cmdOf rq op args) 0 r) 0 r
        (namedTag (before rq op args s) (cmdOf rq op args)) := by
  rw [accepted_run h, he]; rfl

theorem accepted_wait {refuse : Cmd → State → Option Nat} {effect : Cmd → State → CmdOut} {rq : Req} {op : Nat} {args : List Word}
    {s : State} {k : PendKind} {u : State} (h : Accepted refuse rq op args s)
    (he : effect (cmdOf rq op args) (before rq op args s) = .wait k u) : runRow refuse effect op rq args s =
      settle { u with host := { u.host with commands := u.host.commands ++
        [⟨rq.fn.val, rq.via, takenOf u rq.fn.val rq.via, op, k, u.now, false⟩] } } := by
  rw [accepted_run h, he]; rfl

theorem ends_mk {i : Instr} {refuse : Cmd → State → Option Nat} {effect : Cmd → State → CmdOut} {rq : Req} {op : Nat}
    {args : List Word} {s : State} {ok : State → Prop} {post : State → Word → State → Prop}
    (hx : exec i s = .next (runRow refuse effect op rq args s))
    (he : ∀ b, refuse (cmdOf rq op args) b = none → ok b → ∃ r u, effect (cmdOf rq op args) b = .done 0 r u ∧ post b r u) :
    Ends i refuse rq op args s ok post := by
  intro h hok
  obtain ⟨r, u, h1, h2⟩ := he _ h.2.2 hok
  exact ⟨r, u, hx.trans (congrArg _ (accepted_done h h1)), h2⟩

theorem pends_mk {i : Instr} {refuse : Cmd → State → Option Nat} {effect : Cmd → State → CmdOut} {rq : Req} {op : Nat}
    {args : List Word} {s : State} {ok : State → Prop} {k : PendKind} {post : State → State → Prop}
    (hx : exec i s = .next (runRow refuse effect op rq args s))
    (he : ∀ b, refuse (cmdOf rq op args) b = none → ok b → ∃ u, effect (cmdOf rq op args) b = .wait k u ∧ post b u) :
    Pends i refuse rq op args s ok k post := by
  intro h hok
  obtain ⟨u, h1, h2⟩ := he _ h.2.2 hok
  exact ⟨u, hx.trans (congrArg _ (accepted_wait h h1)), h2⟩

/-- A row that reads structures runs its effect on the state in which they have been read. -/
theorem accepted_runWith {refuse : Cmd → State → Option Nat} {reads : Cmd → State → List (Word × Nat)} {effect : Cmd → State → CmdOut}
    {rq : Req} {op : Nat} {args : List Word} {s : State} (h : Accepted refuse rq op args s) :
    runRowWith refuse reads effect op rq args s = conclude (cmdOf rq op args) (namedTag (before rq op args s) (cmdOf rq op args))
      (effect (cmdOf rq op args) (seen reads rq op args s)) := by
  obtain ⟨h1, h2, h3⟩ := h
  unfold seen before at *
  simp only [runRowWith, runCmd, h1, h2, h3]

theorem endsOn_mk {i : Instr} {s s₁ : State} {refuse : Cmd → State → Option Nat} {reads : Cmd → State → List (Word × Nat)}
    {effect : Cmd → State → CmdOut} {rq : Req} {op : Nat} {args : List Word} {ok : State → Prop} {post : State → Word → State → Prop}
    (hx : exec i s = .next (runRowWith refuse reads effect op rq args s₁))
    (he : refuse (cmdOf rq op args) (before rq op args s₁) = none → ok (seen reads rq op args s₁) →
      ∃ r u, effect (cmdOf rq op args) (seen reads rq op args s₁) = .done 0 r u ∧ post (seen reads rq op args s₁) r u) :
    EndsOn i s s₁ refuse reads rq op args ok post := by
  intro h hok
  obtain ⟨r, u, h1, h2⟩ := he h.2.2 hok
  refine ⟨r, u, hx.trans (congrArg _ ?_), h2⟩
  rw [accepted_runWith h, h1]; rfl

/-- A mask is part of itself. -/
theorem Sub.refl (a : Nat) : Sub a a := Nat.and_self a

/-- A free index is found where there is one. -/
theorem pickIndex_some (s : State) {n : Nat} {free : Nat → Bool} (h : ∃ i, i < n ∧ free i = true) :
    ∃ i, i < n ∧ free i = true ∧ pickIndex s n free = some (i, s.freeDraw.2) := by
  obtain ⟨i, hi, hf⟩ := h
  have hs : ((List.range n).find? (fun k => free ((s.freeDraw.1.toNat + k) % n))).isSome = true := by
    rw [List.find?_isSome]
    refine ⟨(i + n - s.freeDraw.1.toNat % n) % n, List.mem_range.2 (Nat.mod_lt _ (by omega)), ?_⟩
    have h1 : (s.freeDraw.1.toNat + (i + n - s.freeDraw.1.toNat % n) % n) % n = i := by
      have h2 := Nat.mod_lt s.freeDraw.1.toNat (by omega : 0 < n)
      have h3 := Nat.div_add_mod s.freeDraw.1.toNat n
      rw [Nat.add_mod_mod]
      have : s.freeDraw.1.toNat + (i + n - s.freeDraw.1.toNat % n) = i + n * (s.freeDraw.1.toNat / n + 1) := by
        rw [Nat.mul_add]; omega
      rw [this, Nat.add_mul_mod_self_left, Nat.mod_eq_of_lt hi]
    rw [h1]; exact hf
  obtain ⟨k, hk⟩ := Option.isSome_iff_exists.1 hs
  refine ⟨(s.freeDraw.1.toNat + k) % n, Nat.mod_lt _ (by omega), ?_, ?_⟩
  · simpa using List.find?_some hk
  · simp only [pickIndex, hk, Option.map_some]

/-- The queues' table tells each queue. -/
theorem queue_same {s t : State} (h : t.host.queues = s.host.queues) (q : Nat) : t.queue q = s.queue q := by
  unfold State.queue; rw [h]

/-- A free value drawn leaves the tables. -/
@[simp] theorem freeDraw_queue (s : State) (q : Nat) : s.freeDraw.2.queue q = s.queue q := rfl
@[simp] theorem freeDraw_fn (s : State) (f : Nat) : s.freeDraw.2.fn f = s.fn f := rfl

/-- A queue made stands at a free index and a free slot of its function. -/
theorem makeQueue_some (s : State) (x : Queue) (hq : ∃ q, q < 8192 ∧ queueFree s q = true) (hj : ∃ j, j < 512 ∧ slotFree s x.fn j = true) :
    ∃ q j t, q < 8192 ∧ queueFree s q = true ∧ j < 512 ∧ slotFree s x.fn j = true ∧ makeQueue s x = some (q, t) ∧
      t.queue q = { x with present := true, gen := (s.queue q).gen, slot := j } ∧ (∀ r, r ≠ q → t.queue r = s.queue r) ∧
      Only (storeAreas ++ [.queues, .draws]) s t := by
  obtain ⟨q, h1, h2, h3⟩ := pickIndex_some s hq
  obtain ⟨j, h4, h5, h6⟩ := pickIndex_some (n := 512) (free := slotFree s x.fn) s.freeDraw.2 hj
  have h6' : pickIndex s.freeDraw.2 512 (slotFree s.freeDraw.2 x.fn) = some (j, s.freeDraw.2.freeDraw.2) := h6
  refine ⟨q, j, fillRing (s.freeDraw.2.freeDraw.2.setQueue q { x with present := true, gen := (s.queue q).gen, slot := j }) q,
    h1, h2, h4, h5, ?_, ?_, ?_, ?_⟩
  · unfold makeQueue
    rw [h3]; dsimp only; rw [h6']; rfl
  · rw [queue_same ((within_fillRing _ _ (Within.refl _) (Sub.refl _)).same .queues (by decide))]
    simp
  · intro r hr
    rw [queue_same ((within_fillRing _ _ (Within.refl _) (Sub.refl _)).same .queues (by decide)),
      queue_setQueue_ne _ _ (Ne.symm hr)]
    rfl
  · refine only_mk (μ := 1207964152) ?_ (by intro a ha; cases a <;> first | rfl | exact (ha (by decide)).elim)
    refine within_fillRing _ _ (within_setQueue _ _ _ ?_ rfl) rfl
    exact within_freeDraw _ (within_freeDraw _ (Within.refl _) rfl) rfl

/-- A record written leaves a queue but for its count of records. -/
theorem writeRecord_queue (s : State) (q : Nat) (r : Record) :
    ∃ p, (writeRecord s q r).queue q = { s.queue q with produced := p } := by
  unfold writeRecord
  dsimp only
  split
  · exact ⟨_, rfl⟩
  · refine ⟨((s.queue q).produced + 1) % 2 ^ 32, ?_⟩
    rw [queue_same ((within_raiseMsix _ _ _ (Within.refl _) (Sub.refl _)).same .queues (by decide))]
    simp

/-- Writing the records that the ring has room for leaves a queue but for its entries and its count of records. -/
theorem flushRecords_queue (s : State) (q n : Nat) :
    ∃ es p, (flushRecords s q n).queue q = { s.queue q with entries := es, produced := p } := by
  induction n generalizing s with
  | zero => exact ⟨_, _, rfl⟩
  | succ n ih =>
    unfold flushRecords
    dsimp only
    split
    · split
      · obtain ⟨es, p, h⟩ := ih (s.setQueue q { s.queue q with entries := _ })
        exact ⟨es, p, by rw [h]; simp⟩
      · split
        · obtain ⟨es, p, h⟩ := ih (writeRecord (s.setQueue q { s.queue q with entries := _ }) q _)
          obtain ⟨p', h'⟩ := writeRecord_queue (s.setQueue q { s.queue q with entries := _ }) q _
          exact ⟨es, p, by rw [h, h']; simp⟩
        · exact ⟨_, _, rfl⟩
    · exact ⟨_, _, rfl⟩

/-- Another queue is not touched by records written. -/
theorem writeRecord_queue_ne (s : State) (q : Nat) (r : Record) {k : Nat} (hk : k ≠ q) : (writeRecord s q r).queue k = s.queue k := by
  unfold writeRecord
  dsimp only
  split
  · rfl
  · rw [queue_same ((within_raiseMsix _ _ _ (Within.refl _) (Sub.refl _)).same .queues (by decide)),
      queue_setQueue_ne _ _ (Ne.symm hk),
      queue_same ((within_writeArg _ _ _ _ _ (Within.refl _) (Sub.refl _)).same .queues (by decide))]
theorem flushRecords_queue_ne (s : State) (q n : Nat) {k : Nat} (hk : k ≠ q) : (flushRecords s q n).queue k = s.queue k := by
  induction n generalizing s with
  | zero => rfl
  | succ n ih =>
    unfold flushRecords
    dsimp only
    split
    · split
      · rw [ih, queue_setQueue_ne _ _ (Ne.symm hk)]
      · split
        · rw [ih, writeRecord_queue_ne _ _ _ hk, queue_setQueue_ne _ _ (Ne.symm hk)]
        · rfl
    · rfl

/-- A queue that is stopped drains; the other queues are as they were (R355). -/
theorem stopQueue_queue (s : State) (q : Nat) (h : Bool) (he : (s.queue q).mode = .enabled) :
    ((stopQueue s q h).queue q).mode = .draining ∧ ∀ k, k ≠ q → (stopQueue s q h).queue k = s.queue k := by
  unfold stopQueue
  simp only [he, bne_self_eq_false, Bool.false_eq_true, if_false]
  constructor
  · unfold flushQueue
    obtain ⟨es, p, h1⟩ := flushRecords_queue (bumpOpt _ (engineCancel (s.queue q).kind) (s.queue q).unit _) q
      ((bumpOpt _ (engineCancel (s.queue q).kind) (s.queue q).unit _).queue q).entries.length
    rw [h1]
    dsimp only
    rw [queue_same ((within_bumpOpt _ _ _ _ (Within.refl _) (Sub.refl _)).same .queues (by decide))]
    split
    · rw [queue_same ((within_stopQueueLaunches _ _ (Within.refl _) (Sub.refl _)).same .queues (by decide))]
      simp
    · simp
  · intro k hk
    unfold flushQueue
    rw [flushRecords_queue_ne _ _ _ hk,
      queue_same ((within_bumpOpt _ _ _ _ (Within.refl _) (Sub.refl _)).same .queues (by decide))]
    split
    · rw [queue_same ((within_stopQueueLaunches _ _ (Within.refl _) (Sub.refl _)).same .queues (by decide)),
        queue_setQueue_ne _ _ (Ne.symm hk)]
    · rw [queue_setQueue_ne _ _ (Ne.symm hk)]

theorem addrOk_master {c : Cmd} {s : State} {w : Word} {n : Nat} {x : Bool} (h : addrOk c s w n x = true) :
    isHostAddr w = true → (s.fn c.fn).busMaster = true := fun hw => by
  simp only [addrOk, hw, if_true, Bool.and_eq_true] at h; exact h.2

theorem refusal_none {l : List (Bool × Nat)} (h : refusal l = none) : ∀ e ∈ l, e.1 = false := by
  simp only [refusal, Option.map_eq_none_iff, List.find?_eq_none] at h
  intro e he; simpa using h e he

theorem addr_of_refusal {l : List (Bool × Nat)} (h : refusal l = none) {c : Cmd} {s : State} {w : Word} {n : Nat} {x : Bool}
    (hm : addrRc c s w n x ∈ l) : addrOk c s w n x = true := by
  have := refusal_none h _ hm; simpa [addrRc] using this

theorem ctx_same {s t : State} (h : Area.ctxs.same s t) (c : Nat) : t.ctx c = s.ctx c := by
  unfold State.ctx; rw [show t.objs.ctxs = s.objs.ctxs from h]
theorem parts_same {s t : State} (h : Area.parts.same s t) (p : Nat) : t.part p = s.part p := by
  unfold State.part; rw [show t.objs.parts = s.objs.parts from h]
theorem fns_same {s t : State} (h : Area.functions.same s t) (f : Nat) : t.fn f = s.fn f := by
  unfold State.fn; rw [(Prod.mk.inj h).1]

theorem stopPlanned_ctxs (s : State) (c : Nat) (h : Bool) (ha : (s.ctx c).mode = .active) :
    (stopPlanned s c h).objs.ctxs = (s.setCtx c { s.ctx c with mode := .stopping, quiesced := false }).objs.ctxs := by
  unfold stopPlanned
  simp only [ha, bne_self_eq_false, Bool.false_eq_true, if_false]
  refine Within.same (μ := (1 <<< Area.registers.num) ||| (1 <<< Area.memory.num) ||| (1 <<< Area.hostMemory.num) |||
    (1 <<< Area.queues.num) ||| (1 <<< Area.launches.num) ||| (1 <<< Area.cores.num) ||| (1 <<< Area.slots.num) ||| (1 <<< Area.out.num) |||
    (1 <<< Area.cache.num) ||| (1 <<< Area.functions.num) ||| (1 <<< Area.parts.num) ||| (1 <<< Area.care.num))
    (s₀ := s.modCtx c (fun y => { y with mode := .stopping, quiesced := false })) ?_ .ctxs (by decide)
  refine within_forEach ?_ (fun q t ht => within_stopQueue _ _ _ ht (by rfl))
  exact within_markStopped _ _ (within_stopCtxSlots _ _ (Within.refl _) (by rfl)) (by rfl)

theorem stopPlanned_ctx (s : State) (c : Nat) (h : Bool) (ha : (s.ctx c).mode = .active) :
    (stopPlanned s c h).ctx c = { s.ctx c with mode := .stopping, quiesced := false } ∧
    ∀ j, j ≠ c → (stopPlanned s c h).ctx j = s.ctx j := by
  have e := stopPlanned_ctxs s c h ha
  exact ⟨(ctx_same e c).trans (ctx_setCtx _ _ _), fun j hj => (ctx_same e j).trans (ctx_setCtx_ne _ _ (Ne.symm hj))⟩

theorem rcIf_none {n : Nat} (h : (rcIf n).1 = false) : n = 0 := by simpa [rcIf] using h

theorem ctxRc_active {c : Cmd} {s : State} {w : Word} (h : ctxRc c s w = 0) : (s.ctx (hIdx w)).mode = .active := by
  unfold ctxRc at h
  dsimp only at h
  split at h
  · rename_i h'; exact absurd h h'
  · split at h
    · exact absurd h (by decide)
    · rename_i h'; simpa using h'

theorem refusal_cons (e : Bool × Nat) (l : List (Bool × Nat)) : refusal (e :: l) = none ↔ e.1 = false ∧ refusal l = none := by
  simp only [refusal, List.find?_cons]
  cases e.1 <;> simp

theorem pruneTokens_queue (s : State) (q : Nat) : (pruneTokens s).queue q = s.queue q := rfl
theorem pruneTokens_fn (s : State) (q : Nat) : (pruneTokens s).fn q = s.fn q := rfl

theorem tensor_setTensor_ne (s : State) {p i q j : Nat} (v : Tensor) (hi : i < 2 ^ 32) (hj : j < 2 ^ 32) (h : (q, j) ≠ (p, i)) :
    (s.setTensor p i v).tensor q j = s.tensor q j := by
  unfold State.tensor State.setTensor
  refine tabGet_tabSet_ne _ _ _ (fun e => h ?_)
  simp only [tensorKey] at e
  have h1 : p = q := by omega
  have h2 : i = j := by omega
  rw [h1, h2]
theorem gate_setGate_ne (s : State) {p i q j : Nat} (v : Gate) (hi : i < 64) (hj : j < 64) (h : (q, j) ≠ (p, i)) :
    (s.setGate p i v).gate q j = s.gate q j := by
  unfold State.gate State.setGate
  refine tabGet_tabSet_ne _ _ _ (fun e => h ?_)
  have h1 : p = q := by omega
  have h2 : i = j := by omega
  rw [h1, h2]
theorem comm_setComm_ne (s : State) {p i q j : Nat} (v : Comm) (hi : i < 64) (hj : j < 64) (h : (q, j) ≠ (p, i)) :
    (s.setComm p i v).comm q j = s.comm q j := by
  unfold State.comm State.setComm
  refine tabGet_tabSet_ne _ _ _ (fun e => h ?_)
  have h1 : p = q := by omega
  have h2 : i = j := by omega
  rw [h1, h2]
theorem slot_setSlot_ne (s : State) {p i q j : Nat} (v : Slot) (hi : i < 8) (hj : j < 8) (h : (q, j) ≠ (p, i)) :
    (s.setSlot p i v).slot q j = s.slot q j := by
  unfold State.slot State.setSlot
  refine tabGet_tabSet_ne _ _ _ (fun e => h ?_)
  have h1 : p = q := by omega
  have h2 : i = j := by omega
  rw [h1, h2]
theorem tensorRc_lt {c : Cmd} {s : State} {i : Nat} (h : tensorRc c s i = 0) : i < 2 ^ 32 := by
  unfold tensorRc at h
  dsimp only at h
  split at h
  · exact absurd h (by decide)
  · omega
theorem badIf_none {b : Bool} (h : (badIf b).1 = false) : b = false := h

end Sys2Proof.Machine
end

