-- ==== Sys2Proof/Laws/Kept.lean ====
section
/-! SUPPORT. What every step keeps, stated against a reference state: memory's canonical form, the queue, the count of free
values drawn, and the root of trust's fuses and images. -/

namespace Sys2Proof.Machine

variable {s₀ : State}

/-- A state keeps what it has itself. -/
theorem Kept.refl {s : State} (h : Inv s) : Kept s s := ⟨h, rfl, le_refl _, le_refl _, rfl⟩

/-- A change outside memory, the queue, the free values and the flash keeps all of it. -/
theorem kept_mk {s : State} {mo re ho ob wo li po ca se ou} :
    Kept s₀ ⟨mo, s.flash, re, s.mem, s.hostMem, ho, ob, wo, li, po, ca, se, ou, s.freeCtr, s.pending⟩ ↔ Kept s₀ s :=
  ⟨fun h => ⟨h.inv, h.queue, h.draws, h.svn, h.revoked⟩, fun h => ⟨h.inv, h.queue, h.draws, h.svn, h.revoked⟩⟩

/-- A change of device memory other than its bytes, its poison and its words in error. -/
theorem kept_mkMem {s : State} {mo re ho ob wo li po ca se ou sp c l b p} :
    Kept s₀ ⟨mo, s.flash, re, ⟨s.mem.bytes, s.mem.poisoned, s.mem.upset, sp, c, l, b, p⟩, s.hostMem, ho, ob, wo, li, po, ca, se, ou, s.freeCtr,
      s.pending⟩ ↔ Kept s₀ s :=
  ⟨fun h => ⟨h.inv, h.queue, h.draws, h.svn, h.revoked⟩, fun h => ⟨h.inv, h.queue, h.draws, h.svn, h.revoked⟩⟩

/-- A change of the flash other than its fuses and images. -/
theorem kept_mkFlash {s : State} {mo re ho ob wo li po ca se ou r a b c d e f g i j k l m n o p} :
    Kept s₀ ⟨mo, ⟨r, a, b, c, d, e, f, g, i, j, k, l, m, n, o, s.flash.fwActive, s.flash.fwStaged, s.flash.minSvn,
      s.flash.revoked, p⟩, re, s.mem, s.hostMem, ho, ob, wo, li, po, ca, se, ou, s.freeCtr, s.pending⟩ ↔ Kept s₀ s :=
  ⟨fun h => ⟨h.inv, h.queue, h.draws, h.svn, h.revoked⟩, fun h => ⟨h.inv, h.queue, h.draws, h.svn, h.revoked⟩⟩

/-- A start over: everything but the flash, host memory, the count of free values and the queue at its reset value. -/
theorem kept_startOver {s : State} (h : Kept s₀ s) {f : Flash} (h1 : s.flash.minSvn ≤ f.minSvn) (h2 : f.revoked = s.flash.revoked)
    (h3 : firmwareOk f = true) {mo po ca se ou} :
    Kept s₀ ⟨mo, f, [], {}, s.hostMem, {}, {}, {}, [], po, ca, se, ou, s.freeCtr, s.pending⟩ := by
  refine ⟨⟨?_, h3⟩, h.queue, h.draws, h.svn.trans h1, h2.trans h.revoked⟩
  have := h.inv.1
  simp only [Memory.wf, Bool.and_eq_true] at this ⊢
  exact ⟨⟨⟨rfl, rfl⟩, rfl⟩, this.2⟩

/-- A staged image's activation keeps the fuses' rules (R475). -/
theorem firmwareOk_activate {f : Flash} (h : firmwareOk f = true) :
    firmwareOk (activate f) = true ∧ f.minSvn ≤ (activate f).minSvn ∧ (activate f).revoked = f.revoked := by
  unfold activate
  split
  · next i hi =>
    simp only [firmwareOk, hi, Option.all_some, Option.all_none, Bool.and_eq_true, Bool.and_true] at h ⊢
    refine ⟨?_, le_max_left _ _, trivial⟩
    have h2 := h.2
    simp only [imageGood, Bool.and_eq_true, decide_eq_true_eq] at h2 ⊢
    exact ⟨⟨h2.1.1, by omega⟩, h2.2⟩
  · exact ⟨h, le_refl _, rfl⟩

/-- Either branch. -/
theorem kept_ite {c : Prop} [Decidable c] {a b : State} (ha : Kept s₀ a) (hb : Kept s₀ b) : Kept s₀ (if c then a else b) := by
  split <;> assumption

/-- A loop over a list whose body keeps it. -/
theorem kept_foldl {α : Type} {l : List α} {g : State → α → State} {s : State} (h : Kept s₀ s)
    (hg : ∀ t a, Kept s₀ t → Kept s₀ (g t a)) : Kept s₀ (l.foldl g s) := by
  induction l generalizing s with
  | nil => exact h
  | cons a l ih => exact ih (hg s a h)

/-- A loop that carries a state and something beside it. -/
theorem kept_foldlFst {α β : Type} {l : List α} {g : State × β → α → State × β} {p : State × β} (h : Kept s₀ p.1)
    (hg : ∀ t a, Kept s₀ t.1 → Kept s₀ (g t a).1) : Kept s₀ (l.foldl g p).1 := by
  induction l generalizing p with
  | nil => exact h
  | cons a l ih => exact ih (hg p a h)
theorem kept_foldlSnd {α β : Type} {l : List α} {g : β × State → α → β × State} {p : β × State} (h : Kept s₀ p.2)
    (hg : ∀ t a, Kept s₀ t.2 → Kept s₀ (g t a).2) : Kept s₀ (l.foldl g p).2 := by
  induction l generalizing p with
  | nil => exact h
  | cons a l ih => exact ih (hg p a h)

/-- The state of a pair known by its components. -/
theorem kept_snd {α : Type} {p : α × State} {a : α} {s : State} (e : p = (a, s)) (h : Kept s₀ p.2) : Kept s₀ s := by
  subst e; exact h
theorem kept_fst {α : Type} {p : State × α} {a : α} {s : State} (e : p = (s, a)) (h : Kept s₀ p.1) : Kept s₀ s := by
  subst e; exact h

/-- A next state that keeps it. -/
theorem keptNext_next {s : State} (h : Kept s₀ s) : KeptNext s₀ (.next s) := ⟨s, rfl, h⟩

/-- The state of a command's outcome. -/
theorem kept_done {s : State} {rc : Nat} {r : Word} (h : Kept s₀ s) : Kept s₀ (CmdOut.done rc r s).state := h
theorem kept_wait {s : State} {k : PendKind} (h : Kept s₀ s) : Kept s₀ (CmdOut.wait k s).state := h
theorem kept_later {s : State} (h : Kept s₀ s) : Kept s₀ (CmdOut.later s).state := h
theorem kept_iteC {c : Prop} [Decidable c] {a b : CStep} (ha : Kept s₀ a.s) (hb : Kept s₀ b.s) :
    Kept s₀ (if c then a else b).s := by
  split <;> assumption
theorem kept_foldlC {α : Type} {l : List α} {g : CStep → α → CStep} {a : CStep} (h : Kept s₀ a.s)
    (hg : ∀ t x, Kept s₀ t.s → Kept s₀ (g t x).s) : Kept s₀ (l.foldl g a).s := by
  induction l generalizing a with
  | nil => exact h
  | cons x l ih => exact ih (hg a x h)
theorem kept_iteOut {c : Prop} [Decidable c] {a b : CmdOut} (ha : Kept s₀ a.state) (hb : Kept s₀ b.state) :
    Kept s₀ (if c then a else b).state := by
  split <;> assumption

/-- A change of the tables that memory's canonical form speaks of. -/
theorem kept_mem {s : State} (h : Kept s₀ s) {b p u sp c l k q} (hb : tabWf 0 b = true) (hp : tabWf false p = true)
    (hu : tabWf none u = true) : Kept s₀ { s with mem := ⟨b, p, u, sp, c, l, k, q⟩ } := by
  refine ⟨⟨?_, h.inv.2⟩, h.queue, h.draws, h.svn, h.revoked⟩
  have := h.inv.1
  simp only [Memory.wf, Bool.and_eq_true] at this ⊢
  exact ⟨⟨⟨hb, hp⟩, hu⟩, this.2⟩

/-- The tables of a state that keeps memory's canonical form. -/
theorem Kept.bytesWf {s : State} (h : Kept s₀ s) : tabWf 0 s.mem.bytes = true := by
  have := h.inv.1; simp only [Memory.wf, Bool.and_eq_true] at this; exact this.1.1.1
theorem Kept.poisonWf {s : State} (h : Kept s₀ s) : tabWf false s.mem.poisoned = true := by
  have := h.inv.1; simp only [Memory.wf, Bool.and_eq_true] at this; exact this.1.1.2
theorem Kept.upsetWf {s : State} (h : Kept s₀ s) : tabWf none s.mem.upset = true := by
  have := h.inv.1; simp only [Memory.wf, Bool.and_eq_true] at this; exact this.1.2

/-- Every operation that stores to device memory or changes its marks. -/
theorem kept_mendWords {s : State} (h : Kept s₀ s) (f : Nat → Bool) : Kept s₀ (mendWords s f) :=
  kept_mem h h.bytesWf (tabWf_tabClear _ h.poisonWf) (tabWf_tabClear _ h.upsetWf)
theorem kept_forgetWords {s : State} (h : Kept s₀ s) (f : Nat → Bool) : Kept s₀ (forgetWords s f) :=
  kept_mem h h.bytesWf (tabWf_tabClear _ h.poisonWf) (tabWf_tabClear _ h.upsetWf)
theorem kept_putMem {s : State} (h : Kept s₀ s) (a : Nat) (bs : List Byte) :
    Kept s₀ { s with mem := { s.mem with bytes := putBytes s.mem.bytes a bs } } :=
  kept_mem h (tabWf_putBytes _ _ h.bytesWf) h.poisonWf h.upsetWf
theorem kept_setUpset {s : State} (h : Kept s₀ s) (k : Nat) (e : Option ReadOutcome) :
    Kept s₀ { s with mem := { s.mem with upset := tabSet none s.mem.upset k e } } :=
  kept_mem h h.bytesWf h.poisonWf (tabWf_tabSet _ _ h.upsetWf)
theorem kept_writeBytes {s : State} (h : Kept s₀ s) (a : Nat) (bs : List Byte) : Kept s₀ (writeBytes s a bs) :=
  kept_putMem (kept_mendWords h _) a bs
theorem kept_writeCells {s : State} (h : Kept s₀ s) (l : List Cell) : Kept s₀ (writeCells s l) := by
  have h1 := kept_mendWords h (fun w => (upTo 16).all (fun i => l.any (fun c => c.1 == w + i)))
  refine kept_mem h1 ?_ h1.poisonWf h1.upsetWf
  have h2 := h1.bytesWf
  generalize (mendWords s _).mem.bytes = b at h2 ⊢
  clear h h1
  induction l generalizing b with
  | nil => exact h2
  | cons c l ih => exact ih _ (tabWf_tabSet _ _ h2)
theorem kept_zeroRange {s : State} (h : Kept s₀ s) (a n : Nat) : Kept s₀ (zeroRange s a n) := by
  have h1 := kept_mendWords h (fun w => decide (a ≤ w) && decide (w < a + n))
  exact kept_mem h1 (tabWf_tabClear _ h1.bytesWf) h1.poisonWf h1.upsetWf
theorem kept_poisonKey {s : State} (h : Kept s₀ s) (k : Nat) : Kept s₀ (poisonKey s k) :=
  kept_mem h h.bytesWf (tabWf_tabSet _ _ h.poisonWf) (tabWf_tabSet _ _ h.upsetWf)
theorem kept_poisonWord {s : State} (h : Kept s₀ s) (a : Nat) : Kept s₀ (poisonWord s a) := kept_poisonKey h _
theorem kept_upsetWords {s : State} (h : Kept s₀ s) (l : List Hit) : Kept s₀ (upsetWords s l) := by
  refine kept_foldl h (fun t x ht => ?_)
  dsimp only
  split
  · exact kept_mkMem.2 ht
  · exact kept_putMem ht _ _
  · split
    · exact ht
    · exact kept_setUpset ht _ _
theorem kept_writeHost {s : State} (h : Kept s₀ s) (a : Nat) (bs : List Byte) : Kept s₀ (writeHost s a bs) := by
  refine ⟨⟨?_, h.inv.2⟩, h.queue, h.draws, h.svn, h.revoked⟩
  have := h.inv.1
  simp only [Memory.wf, Bool.and_eq_true, writeHost] at this ⊢
  exact ⟨this.1, tabWf_putBytes _ _ this.2⟩

/-- A free value drawn. -/
theorem kept_freeDraw {s : State} (h : Kept s₀ s) : Kept s₀ s.freeDraw.2 :=
  ⟨h.inv, h.queue, h.draws.trans (Nat.le_succ _), h.svn, h.revoked⟩

/-- A loop of the model. -/
theorem kept_forEach {α : Type} {l : List α} {s : State} {g : α → State → State} (h : Kept s₀ s)
    (hg : ∀ a t, Kept s₀ t → Kept s₀ (g a t)) : Kept s₀ (forEach l s g) := kept_foldl h (fun t a ht => hg a t ht)

/-- An index drawn. -/
theorem kept_pickIndex {s t : State} {n i : Nat} {f : Nat → Bool} (h : Kept s₀ s) (e : pickIndex s n f = some (i, t)) :
    Kept s₀ t := by
  simp only [pickIndex, Option.map_eq_some_iff, Prod.mk.injEq] at e
  obtain ⟨_, _, _, rfl⟩ := e
  exact kept_freeDraw h

end Sys2Proof.Machine
end

