-- ==== Sys2Proof/Laws/KeepTables.lean ====
section
/-! SUPPORT. The tables of State, events, causes of holds, memory and the shared operations keep what every step keeps. -/

set_option maxRecDepth 4000
set_option linter.unusedSimpArgs false
set_option linter.unusedVariables false

namespace Sys2Proof.Machine

variable {s₀ : State}

/-! ### Access -/

theorem kept_setFn (s : State) (f : Nat) (v : FnState) (hs : Kept s₀ s) : Kept s₀ (State.setFn s f v) := by
  unfold State.setFn
  repeat' (first
    | with_reducible assumption | simp only [kept_mk])
theorem kept_modFn (s : State) (f : Nat) (upd : FnState → FnState) (hs : Kept s₀ s) : Kept s₀ (State.modFn s f upd) := by
  unfold State.modFn
  repeat' (first
    | with_reducible assumption | with_reducible apply kept_setFn)
theorem kept_setQueue (s : State) (q : Nat) (v : Queue) (hs : Kept s₀ s) : Kept s₀ (State.setQueue s q v) := by
  unfold State.setQueue
  repeat' (first
    | with_reducible assumption | simp only [kept_mk])
theorem kept_modQueue (s : State) (q : Nat) (upd : Queue → Queue) (hs : Kept s₀ s) : Kept s₀ (State.modQueue s q upd) := by
  unfold State.modQueue
  repeat' (first
    | with_reducible assumption | with_reducible apply kept_setQueue)
theorem kept_setPart (s : State) (p : Nat) (v : Part) (hs : Kept s₀ s) : Kept s₀ (State.setPart s p v) := by
  unfold State.setPart
  repeat' (first
    | with_reducible assumption | simp only [kept_mk])
theorem kept_modPart (s : State) (p : Nat) (upd : Part → Part) (hs : Kept s₀ s) : Kept s₀ (State.modPart s p upd) := by
  unfold State.modPart
  repeat' (first
    | with_reducible assumption | with_reducible apply kept_setPart)
theorem kept_setCtx (s : State) (c : Nat) (v : Ctx) (hs : Kept s₀ s) : Kept s₀ (State.setCtx s c v) := by
  unfold State.setCtx
  repeat' (first
    | with_reducible assumption | simp only [kept_mk])
theorem kept_modCtx (s : State) (c : Nat) (upd : Ctx → Ctx) (hs : Kept s₀ s) : Kept s₀ (State.modCtx s c upd) := by
  unfold State.modCtx
  repeat' (first
    | with_reducible assumption | with_reducible apply kept_setCtx)
theorem kept_setTally (s : State) (t : Nat) (v : Tally) (hs : Kept s₀ s) : Kept s₀ (State.setTally s t v) := by
  unfold State.setTally
  repeat' (first
    | with_reducible assumption | simp only [kept_mk])
theorem kept_modTally (s : State) (t : Nat) (upd : Tally → Tally) (hs : Kept s₀ s) : Kept s₀ (State.modTally s t upd) := by
  unfold State.modTally
  repeat' (first
    | with_reducible assumption | with_reducible apply kept_setTally)
theorem kept_setRegion (s : State) (r : Nat) (v : Region) (hs : Kept s₀ s) : Kept s₀ (State.setRegion s r v) := by
  unfold State.setRegion
  repeat' (first
    | with_reducible assumption | simp only [kept_mk])
theorem kept_modRegion (s : State) (r : Nat) (upd : Region → Region) (hs : Kept s₀ s) : Kept s₀ (State.modRegion s r upd) := by
  unfold State.modRegion
  repeat' (first
    | with_reducible assumption | with_reducible apply kept_setRegion)
theorem kept_setTensor (s : State) (p : Nat) (id : Nat) (v : Tensor) (hs : Kept s₀ s) : Kept s₀ (State.setTensor s p id v) := by
  unfold State.setTensor
  repeat' (first
    | with_reducible assumption | simp only [kept_mk])
theorem kept_modTensor (s : State) (p : Nat) (id : Nat) (upd : Tensor → Tensor) (hs : Kept s₀ s) :
    Kept s₀ (State.modTensor s p id upd) := by
  unfold State.modTensor
  repeat' (first
    | with_reducible assumption | with_reducible apply kept_setTensor)
theorem kept_setGate (s : State) (p : Nat) (g : Nat) (v : Gate) (hs : Kept s₀ s) : Kept s₀ (State.setGate s p g v) := by
  unfold State.setGate
  repeat' (first
    | with_reducible assumption | simp only [kept_mk])
theorem kept_modGate (s : State) (p : Nat) (g : Nat) (upd : Gate → Gate) (hs : Kept s₀ s) : Kept s₀ (State.modGate s p g upd) := by
  unfold State.modGate
  repeat' (first
    | with_reducible assumption | with_reducible apply kept_setGate)
theorem kept_setModel (s : State) (m : Nat) (v : Model) (hs : Kept s₀ s) : Kept s₀ (State.setModel s m v) := by
  unfold State.setModel
  repeat' (first
    | with_reducible assumption | simp only [kept_mk])
theorem kept_modModel (s : State) (m : Nat) (upd : Model → Model) (hs : Kept s₀ s) : Kept s₀ (State.modModel s m upd) := by
  unfold State.modModel
  repeat' (first
    | with_reducible assumption | with_reducible apply kept_setModel)
theorem kept_setGroup (s : State) (g : Nat) (v : Group) (hs : Kept s₀ s) : Kept s₀ (State.setGroup s g v) := by
  unfold State.setGroup
  repeat' (first
    | with_reducible assumption | simp only [kept_mk])
theorem kept_modGroup (s : State) (g : Nat) (upd : Group → Group) (hs : Kept s₀ s) : Kept s₀ (State.modGroup s g upd) := by
  unfold State.modGroup
  repeat' (first
    | with_reducible assumption | with_reducible apply kept_setGroup)
theorem kept_setComm (s : State) (n : Nat) (k : Nat) (v : Comm) (hs : Kept s₀ s) : Kept s₀ (State.setComm s n k v) := by
  unfold State.setComm
  repeat' (first
    | with_reducible assumption | simp only [kept_mk])
theorem kept_modComm (s : State) (n : Nat) (k : Nat) (upd : Comm → Comm) (hs : Kept s₀ s) : Kept s₀ (State.modComm s n k upd) := by
  unfold State.modComm
  repeat' (first
    | with_reducible assumption | with_reducible apply kept_setComm)
theorem kept_setCore (s : State) (k : Nat) (v : Core) (hs : Kept s₀ s) : Kept s₀ (State.setCore s k v) := by
  unfold State.setCore
  repeat' (first
    | with_reducible assumption | simp only [kept_mk])
theorem kept_modCore (s : State) (k : Nat) (upd : Core → Core) (hs : Kept s₀ s) : Kept s₀ (State.modCore s k upd) := by
  unfold State.modCore
  repeat' (first
    | with_reducible assumption | with_reducible apply kept_setCore)
theorem kept_setSlot (s : State) (k : Nat) (i : Nat) (v : Slot) (hs : Kept s₀ s) : Kept s₀ (State.setSlot s k i v) := by
  unfold State.setSlot
  repeat' (first
    | with_reducible assumption | simp only [kept_mk])
theorem kept_modSlot (s : State) (k : Nat) (i : Nat) (upd : Slot → Slot) (hs : Kept s₀ s) : Kept s₀ (State.modSlot s k i upd) := by
  unfold State.modSlot
  repeat' (first
    | with_reducible assumption | with_reducible apply kept_setSlot)
theorem kept_setEngine (s : State) (e : Nat) (v : Engine) (hs : Kept s₀ s) : Kept s₀ (State.setEngine s e v) := by
  unfold State.setEngine
  repeat' (first
    | with_reducible assumption | simp only [kept_mk])
theorem kept_modEngine (s : State) (e : Nat) (upd : Engine → Engine) (hs : Kept s₀ s) : Kept s₀ (State.modEngine s e upd) := by
  unfold State.modEngine
  repeat' (first
    | with_reducible assumption | with_reducible apply kept_setEngine)
theorem kept_setWitness (s : State) (n : Nat) (v : Option Sample) (hs : Kept s₀ s) : Kept s₀ (State.setWitness s n v) := by
  unfold State.setWitness
  repeat' (first
    | with_reducible assumption | simp only [kept_mk])
theorem kept_modWitness (s : State) (n : Nat) (upd : Option Sample → Option Sample) (hs : Kept s₀ s) :
    Kept s₀ (State.modWitness s n upd) := by
  unfold State.modWitness
  repeat' (first
    | with_reducible assumption | with_reducible apply kept_setWitness)
theorem kept_setTrained (s : State) (g : Nat) (v : Trained) (hs : Kept s₀ s) : Kept s₀ (State.setTrained s g v) := by
  unfold State.setTrained
  repeat' (first
    | with_reducible assumption | simp only [kept_mk] | simp only [kept_mkFlash])
theorem kept_modTrained (s : State) (g : Nat) (upd : Trained → Trained) (hs : Kept s₀ s) : Kept s₀ (State.modTrained s g upd) := by
  unfold State.modTrained
  repeat' (first
    | with_reducible assumption | with_reducible apply kept_setTrained)
theorem kept_setTrainedNow (s : State) (g : Nat) (v : Trained) (hs : Kept s₀ s) : Kept s₀ (State.setTrainedNow s g v) := by
  unfold State.setTrainedNow
  repeat' (first
    | with_reducible assumption | simp only [kept_mk])
theorem kept_modTrainedNow (s : State) (g : Nat) (upd : Trained → Trained) (hs : Kept s₀ s) : Kept s₀ (State.modTrainedNow s g upd) := by
  unfold State.modTrainedNow
  repeat' (first
    | with_reducible assumption | with_reducible apply kept_setTrainedNow)
theorem kept_setAutumnResult (s : State) (n : Nat) (v : AutumnResult) (hs : Kept s₀ s) : Kept s₀ (State.setAutumnResult s n v) := by
  unfold State.setAutumnResult
  repeat' (first
    | with_reducible assumption | simp only [kept_mk])
theorem kept_modAutumnResult (s : State) (n : Nat) (upd : AutumnResult → AutumnResult) (hs : Kept s₀ s) :
    Kept s₀ (State.modAutumnResult s n upd) := by
  unfold State.modAutumnResult
  repeat' (first
    | with_reducible assumption | with_reducible apply kept_setAutumnResult)
theorem kept_setHealth (s : State) (u : Nat) (v : Health) (hs : Kept s₀ s) : Kept s₀ (State.setHealth s u v) := by
  unfold State.setHealth
  repeat' (first
    | with_reducible assumption | simp only [kept_mk])
theorem kept_modHealth (s : State) (u : Nat) (upd : Health → Health) (hs : Kept s₀ s) : Kept s₀ (State.modHealth s u upd) := by
  unfold State.modHealth
  repeat' (first
    | with_reducible assumption | with_reducible apply kept_setHealth)
theorem kept_setAutumn (s : State) (n : Nat) (v : Option AutumnRun) (hs : Kept s₀ s) : Kept s₀ (State.setAutumn s n v) := by
  unfold State.setAutumn
  repeat' (first
    | with_reducible assumption | simp only [kept_mk])
theorem kept_modAutumn (s : State) (n : Nat) (upd : Option AutumnRun → Option AutumnRun) (hs : Kept s₀ s) :
    Kept s₀ (State.modAutumn s n upd) := by
  unfold State.modAutumn
  repeat' (first
    | with_reducible assumption | with_reducible apply kept_setAutumn)
theorem kept_setGravel (s : State) (n : Nat) (v : Gravel) (hs : Kept s₀ s) : Kept s₀ (State.setGravel s n v) := by
  unfold State.setGravel
  repeat' (first
    | with_reducible assumption | simp only [kept_mk])
theorem kept_modGravel (s : State) (n : Nat) (upd : Gravel → Gravel) (hs : Kept s₀ s) : Kept s₀ (State.modGravel s n upd) := by
  unfold State.modGravel
  repeat' (first
    | with_reducible assumption | with_reducible apply kept_setGravel)
theorem kept_setSpdm (s : State) (k : Nat) (v : SpdmConn) (hs : Kept s₀ s) : Kept s₀ (State.setSpdm s k v) := by
  unfold State.setSpdm
  repeat' (first
    | with_reducible assumption | simp only [kept_mk])
theorem kept_modSpdm (s : State) (k : Nat) (upd : SpdmConn → SpdmConn) (hs : Kept s₀ s) : Kept s₀ (State.modSpdm s k upd) := by
  unfold State.modSpdm
  repeat' (first
    | with_reducible assumption | with_reducible apply kept_setSpdm)
theorem kept_setLink (s : State) (l : Nat) (v : Link) (hs : Kept s₀ s) : Kept s₀ (State.setLink s l v) := by
  unfold State.setLink
  repeat' (first
    | with_reducible assumption | simp only [kept_mk])
theorem kept_modLink (s : State) (l : Nat) (upd : Link → Link) (hs : Kept s₀ s) : Kept s₀ (State.modLink s l upd) := by
  unfold State.modLink
  repeat' (first
    | with_reducible assumption | with_reducible apply kept_setLink)
theorem kept_setRaw (s : State) (a : RegAt) (w : Word) (hs : Kept s₀ s) : Kept s₀ (State.setRaw s a w) := by
  unfold State.setRaw
  repeat' (first
    | with_reducible assumption | simp only [kept_mk])
theorem kept_setFld (s : State) (f : RField) (i : Nat) (j : Nat) (v : Nat) (hs : Kept s₀ s) : Kept s₀ (State.setFld s f i j v) := by
  unfold State.setFld
  repeat' (first
    | with_reducible assumption | with_reducible apply kept_setRaw)
theorem kept_bump (s : State) (f : RField) (i : Nat) (j : Nat) (n : Nat) (hs : Kept s₀ s) : Kept s₀ (State.bump s f i j n) := by
  unfold State.bump
  repeat' (first
    | with_reducible assumption | with_reducible apply kept_setFld)
theorem kept_wrap (s : State) (f : RField) (i : Nat) (j : Nat) (n : Nat) (hs : Kept s₀ s) : Kept s₀ (State.wrap s f i j n) := by
  unfold State.wrap
  repeat' (first
    | with_reducible assumption | with_reducible apply kept_setFld)
theorem kept_clearRegs (s : State) (p : RegName → Nat → Nat → Bool) (hs : Kept s₀ s) : Kept s₀ (State.clearRegs s p) := by
  unfold State.clearRegs
  repeat' (first
    | with_reducible assumption | simp only [kept_mk])
/-! ### Events -/

theorem kept_raiseMsix (s : State) (f : Nat) (vec : Nat) (hs : Kept s₀ s) : Kept s₀ (raiseMsix s f vec) := by
  unfold raiseMsix
  repeat' (first
    | with_reducible assumption | with_reducible apply kept_ite | simp only [kept_mk])
theorem kept_queueOut (s : State) (f : Nat) (j : Nat) (w : Word) (hs : Kept s₀ s) : Kept s₀ (queueOut s f j w) := by
  unfold queueOut
  repeat' (first
    | with_reducible assumption | with_reducible apply kept_modFn | with_reducible apply kept_bump | with_reducible apply kept_ite)
theorem kept_postTo (s : State) (fs : List Nat) (code : Nat) (arg : Nat) (hs : Kept s₀ s) : Kept s₀ (postTo s fs code arg) := by
  unfold postTo
  repeat' (first
    | with_reducible assumption | intro _ | with_reducible apply kept_forEach | with_reducible apply kept_queueOut)
theorem kept_postPart (s : State) (p : Nat) (code : Nat) (arg : Nat) (hs : Kept s₀ s) : Kept s₀ (postPart s p code arg) := by
  unfold postPart
  repeat' (first
    | with_reducible assumption | with_reducible apply kept_postTo)
theorem kept_postBoth (s : State) (p : Option Nat) (code : Nat) (arg : Nat) (hs : Kept s₀ s) : Kept s₀ (postBoth s p code arg) := by
  unfold postBoth
  repeat' (first
    | with_reducible assumption | with_reducible apply kept_postTo)
theorem kept_postHealth (s : State) (u : Nat) (hs : Kept s₀ s) : Kept s₀ (postHealth s u) := by
  unfold postHealth
  repeat' (first
    | with_reducible assumption | with_reducible apply kept_postTo)
theorem kept_healthEvent (s : State) (u : Nat) (row : Nat) (pts : Nat) (hs : Kept s₀ s) : Kept s₀ (healthEvent s u row pts) := by
  unfold healthEvent
  repeat' (first
    | with_reducible assumption | with_reducible apply kept_setHealth | with_reducible apply kept_bump
    | with_reducible apply kept_postHealth | with_reducible apply kept_ite)
theorem kept_withHealth (s : State) (u : Nat) (g : State → State) (hs : Kept s₀ s) (hg : ∀ t, Kept s₀ t → Kept s₀ (g t)) :
    Kept s₀ (withHealth s u g) := by
  unfold withHealth
  repeat' (first
    | with_reducible assumption | with_reducible apply kept_postHealth | with_reducible apply hg | with_reducible apply kept_ite)
/-! ### Windows -/

theorem kept_addCauseAt (s : State) (p : Nat) (field : Nat) (key : Nat) (len : Option Nat) (since : Nat) (hs : Kept s₀ s) :
    Kept s₀ (addCauseAt s p field key len since) := by
  unfold addCauseAt
  repeat' (first
    | with_reducible assumption | with_reducible apply kept_modPart | with_reducible apply kept_ite)
theorem kept_addCause (s : State) (p : Nat) (field : Nat) (key : Nat) (len : Option Nat) (hs : Kept s₀ s) :
    Kept s₀ (addCause s p field key len) := by
  unfold addCause
  repeat' (first
    | with_reducible assumption | with_reducible apply kept_addCauseAt)
theorem kept_addOpenCause (s : State) (p : Nat) (field : Nat) (key : Nat) (hs : Kept s₀ s) : Kept s₀ (addOpenCause s p field key) := by
  unfold addOpenCause
  repeat' (first
    | with_reducible assumption | with_reducible apply kept_addCause | with_reducible apply kept_ite)
theorem kept_dropCauses (s : State) (p : Nat) (f : HoldCause → Bool) (hs : Kept s₀ s) : Kept s₀ (dropCauses s p f) := by
  unfold dropCauses
  repeat' (first
    | with_reducible assumption | with_reducible apply kept_modPart)
/-! ### Memory -/

theorem kept_takeSpoilt (s : State) (a : Nat) (n : Nat) (hs : Kept s₀ s) : Kept s₀ (takeSpoilt s a n).1 := by
  unfold takeSpoilt
  repeat' (first
    | with_reducible assumption | simp only [kept_mk] | simp only [kept_mkMem] | split)
theorem kept_hostStores (s : State) (l : List Cell) (hs : Kept s₀ s) : Kept s₀ (hostStores s l) := by
  unfold hostStores
  repeat' (first
    | with_reducible assumption | intro _ | with_reducible apply kept_writeHost | with_reducible apply kept_foldl)
theorem kept_noteLoam (s : State) (sec : Nat) (off : Nat) (e : WordError) (hs : Kept s₀ s) : Kept s₀ (noteLoam s sec off e) := by
  unfold noteLoam
  repeat' (first
    | with_reducible assumption | with_reducible apply kept_bump | with_reducible apply kept_healthEvent
    | with_reducible apply kept_setRaw | simp only [kept_mk] | split)
theorem kept_noteHbm (s : State) (g : Nat) (off : Nat) (e : WordError) (hs : Kept s₀ s) : Kept s₀ (noteHbm s g off e) := by
  unfold noteHbm
  repeat' (first
    | with_reducible assumption | with_reducible apply kept_bump | with_reducible apply kept_healthEvent
    | with_reducible apply kept_setRaw | simp only [kept_mk] | split)
theorem kept_noteKey (s : State) (k : Nat) (e : WordError) (hs : Kept s₀ s) : Kept s₀ (noteKey s k e) := by
  have hc : ∀ (t : State) (o : Option Nat) (len : Nat), Kept s₀ t →
      Kept s₀ (match o with | some p => addCause t p 1 0 (some len) | none => t) := by
    intro t o len ht
    cases o with
    | some p => exact kept_addCause _ _ _ _ _ ht
    | none => exact ht
  unfold noteKey
  generalize placeOf s k = p
  cases p with
  | loam sec off =>
    have h := kept_noteLoam s sec off e hs
    cases e with
    | corrected y => exact hc _ _ _ (kept_setUpset h k none)
    | uncorrectable => exact h
    | poisoned => exact h
  | hbm g off =>
    have h := kept_noteHbm s g off e hs
    cases e with
    | corrected y => exact hc _ _ _ (kept_setUpset h k none)
    | uncorrectable => exact h
    | poisoned => exact h
theorem kept_noteErrors (s : State) (es : List (Nat × Nat × WordError)) (hs : Kept s₀ s) : Kept s₀ (noteErrors s es) := by
  unfold noteErrors
  repeat' (first
    | with_reducible assumption | intro _ | with_reducible apply kept_noteKey | with_reducible apply kept_foldl)
theorem kept_readCheck (s : State) (a : Nat) (n : Nat) (hs : Kept s₀ s) : Kept s₀ (readCheck s a n).1 := by
  unfold readCheck
  repeat' (first
    | with_reducible assumption | with_reducible apply kept_noteErrors)
theorem kept_setCacheLine (s : State) (sec : Nat) (set : Nat) (way : Nat) (l : CacheLine) (hs : Kept s₀ s) :
    Kept s₀ (setCacheLine s sec set way l) := by
  unfold setCacheLine
  repeat' (first
    | with_reducible assumption | simp only [kept_mk] | simp only [kept_mkMem])
theorem kept_cacheVictim (s : State) (sec : Nat) (set : Nat) (hs : Kept s₀ s) : Kept s₀ (cacheVictim s sec set).1 := by
  unfold cacheVictim
  repeat' (first
    | with_reducible assumption | intro _ | with_reducible apply kept_forEach | with_reducible apply kept_setCacheLine
    | simp only [kept_mk] | split)
theorem kept_writeBackLine (s : State) (ck : Nat) (hs : Kept s₀ s) : Kept s₀ (writeBackLine s ck) := by
  unfold writeBackLine
  repeat' (first
    | with_reducible assumption | intro _ | with_reducible apply kept_forgetWords | with_reducible apply kept_noteErrors
    | with_reducible apply kept_poisonKey | with_reducible apply kept_bump | with_reducible apply kept_foldl)
theorem kept_evictLine (s : State) (ck : Nat) (hs : Kept s₀ s) : Kept s₀ (evictLine s ck) := by
  unfold evictLine
  repeat' (first
    | with_reducible assumption | with_reducible apply kept_writeBackLine | with_reducible apply kept_forgetWords
    | with_reducible apply kept_ite | simp only [kept_mk] | simp only [kept_mkMem])
theorem kept_fillLine (s : State) (ck : Nat) (hs : Kept s₀ s) : Kept s₀ (fillLine s ck).1 := by
  unfold fillLine
  repeat' (first
    | with_reducible assumption | intro _ | with_reducible apply kept_noteErrors | with_reducible apply kept_bump
    | with_reducible apply kept_poisonKey | with_reducible apply kept_foldl)
theorem kept_cacheAccess (s : State) (sec : Nat) (u : Nat) (line : Nat) (use : CacheUse) (hs : Kept s₀ s) :
    Kept s₀ (cacheAccess s sec u line use).1 := by
  unfold cacheAccess
  repeat' (first
    | with_reducible assumption | with_reducible apply kept_setCacheLine | with_reducible apply kept_bump
    | with_reducible apply kept_cacheVictim | with_reducible apply kept_evictLine | with_reducible apply kept_fillLine
    | simp only [kept_mk] | split)
theorem kept_throughCache (s : State) (a : Nat) (n : Nat) (engine : Bool) (hs : Kept s₀ s) : Kept s₀ (throughCache s a n engine) := by
  unfold throughCache
  repeat' (first
    | with_reducible assumption | intro _ | with_reducible apply kept_forEach | with_reducible apply kept_cacheAccess
    | with_reducible apply kept_ite)
theorem kept_readLine (s : State) (a : Nat) (n : Nat) (l : Nat) (hs : Kept s₀ s) : Kept s₀ (readLine s a n l).1 := by
  unfold readLine
  repeat' (first
    | with_reducible assumption | with_reducible apply kept_cacheAccess | with_reducible apply kept_readCheck
    | simp only [kept_mk] | split)
theorem kept_readMem (s : State) (a : Nat) (n : Nat) (hs : Kept s₀ s) : Kept s₀ (readMem s a n).1 := by
  unfold readMem
  repeat' (first
    | with_reducible assumption | intro _ | with_reducible apply kept_readCheck | with_reducible apply kept_readLine
    | with_reducible apply kept_foldlFst | simp only [kept_mk] | split)
theorem kept_readAll (s : State) (rs : List (Nat × Nat)) (hs : Kept s₀ s) : Kept s₀ (readAll s rs).1 := by
  unfold readAll
  repeat' (first
    | with_reducible assumption | intro _ | with_reducible apply kept_readMem | with_reducible apply kept_foldlFst)
theorem kept_writeMem (s : State) (a : Nat) (bs : List Byte) (engine : Bool) (hs : Kept s₀ s) : Kept s₀ (writeMem s a bs engine) := by
  unfold writeMem
  repeat' (first
    | with_reducible assumption | with_reducible apply kept_writeBytes | with_reducible apply kept_throughCache)
theorem kept_storeBytes (s : State) (a : Nat) (data : List Byte) (hs : Kept s₀ s) : Kept s₀ (storeBytes s a data) := by
  unfold storeBytes
  repeat' (first
    | with_reducible assumption | intro _ | with_reducible apply kept_throughCache | with_reducible apply kept_readCheck
    | with_reducible apply kept_poisonWord | with_reducible apply kept_writeBytes | with_reducible apply kept_foldl
    | with_reducible apply kept_foldlFst | with_reducible apply kept_ite)
theorem kept_flushSection (s : State) (sec : Nat) (hs : Kept s₀ s) : Kept s₀ (flushSection s sec) := by
  unfold flushSection
  repeat' (first
    | with_reducible assumption | intro _ | with_reducible apply kept_forEach | with_reducible apply kept_evictLine)
theorem kept_dropSection (s : State) (sec : Nat) (hs : Kept s₀ s) : Kept s₀ (dropSection s sec) := by
  unfold dropSection
  repeat' (first
    | with_reducible assumption | with_reducible apply kept_forgetWords | simp only [kept_mk] | simp only [kept_mkMem])
theorem kept_flushPart (s : State) (p : Nat) (hs : Kept s₀ s) : Kept s₀ (flushPart s p).1 := by
  unfold flushPart
  repeat' (first
    | with_reducible assumption | intro _ | with_reducible apply kept_forEach | with_reducible apply kept_flushSection)
/-! ### Ops -/

theorem kept_sendFlit (s : State) (l : Nat) (kind : Nat) (nak : Bool) (seq : Nat) (first : Nat) (payload : List Byte) (hs : Kept s₀ s) :
    Kept s₀ (sendFlit s l kind nak seq first payload) := by
  unfold sendFlit
  repeat' (first
    | with_reducible assumption | simp only [kept_mk])
theorem kept_sendIdle (s : State) (l : Nat) (nak : Bool) (hs : Kept s₀ s) : Kept s₀ (sendIdle s l nak) := by
  unfold sendIdle
  repeat' (first
    | with_reducible assumption | with_reducible apply kept_sendFlit)
theorem kept_cutFlit (s : State) (l : Nat) (hs : Kept s₀ s) : Kept s₀ (cutFlit s l) := by
  unfold cutFlit
  repeat' (first
    | with_reducible assumption | with_reducible apply kept_sendFlit | with_reducible apply kept_setLink)
theorem kept_beginMsg (s : State) (l : Nat) (m : OutMsg) (hs : Kept s₀ s) : Kept s₀ (beginMsg s l m) := by
  unfold beginMsg
  repeat' (first
    | with_reducible assumption | with_reducible apply kept_modLink | with_reducible apply kept_bump)
theorem kept_pumpLink (s : State) (l : Nat) (n : Nat) (hs : Kept s₀ s) : Kept s₀ (pumpLink s l n) := by
  induction n generalizing s with
  | zero => exact hs
  | succ n ih =>
    unfold pumpLink
    dsimp only
    repeat' (first | with_reducible assumption | with_reducible apply ih | with_reducible apply kept_beginMsg | with_reducible apply kept_cutFlit | with_reducible apply kept_setLink | split)
theorem kept_pump (s : State) (l : Nat) (hs : Kept s₀ s) : Kept s₀ (pump s l) := by
  unfold pump
  repeat' (first
    | with_reducible assumption | with_reducible apply kept_pumpLink | with_reducible apply kept_dropCauses
    | with_reducible apply kept_ite | split)
theorem kept_sendMsgs (s : State) (l : Nat) (ms : List OutMsg) (hs : Kept s₀ s) : Kept s₀ (sendMsgs s l ms) := by
  unfold sendMsgs
  repeat' (first
    | with_reducible assumption | with_reducible apply kept_pump | with_reducible apply kept_modLink)
theorem kept_sendMsg (s : State) (l : Nat) (header : List Byte) (data : List Byte) (hs : Kept s₀ s) :
    Kept s₀ (sendMsg s l header data) := by
  unfold sendMsg
  repeat' (first
    | with_reducible assumption | with_reducible apply kept_sendMsgs)
theorem kept_sendRecord (s : State) (l : Nat) (r : LinkRecord) (hs : Kept s₀ s) : Kept s₀ (sendRecord s l r) := by
  unfold sendRecord
  repeat' (first
    | with_reducible assumption | with_reducible apply kept_sendFlit)
theorem kept_sendAbort (s : State) (g : Nat) (epoch : Nat) (hs : Kept s₀ s) : Kept s₀ (sendAbort s g epoch) := by
  unfold sendAbort
  repeat' (first
    | with_reducible assumption | intro _ | with_reducible apply kept_setGroup | with_reducible apply kept_forEach
    | with_reducible apply kept_sendMsg | with_reducible apply kept_bump | with_reducible apply kept_ite)
theorem kept_writeArg (s : State) (f : Nat) (w : Word) (off : Nat) (b : List Byte) (hs : Kept s₀ s) : Kept s₀ (writeArg s f w off b) := by
  unfold writeArg
  repeat' (first
    | with_reducible assumption | with_reducible apply kept_writeHost | with_reducible apply kept_storeBytes
    | with_reducible apply kept_ite)
theorem kept_writeRecord (s : State) (q : Nat) (r : Record) (hs : Kept s₀ s) : Kept s₀ (writeRecord s q r) := by
  unfold writeRecord
  repeat' (first
    | with_reducible assumption | with_reducible apply kept_writeArg | with_reducible apply kept_setQueue
    | with_reducible apply kept_raiseMsix | simp only [kept_mk] | split)
theorem kept_flushRecords (s : State) (q : Nat) (n : Nat) (hs : Kept s₀ s) : Kept s₀ (flushRecords s q n) := by
  induction n generalizing s with
  | zero => exact hs
  | succ n ih =>
    unfold flushRecords
    dsimp only
    repeat' (first | with_reducible assumption | intro _ | with_reducible apply ih | with_reducible apply kept_writeRecord | with_reducible apply kept_setQueue | with_reducible apply kept_ite | split)
theorem kept_flushQueue (s : State) (q : Nat) (hs : Kept s₀ s) : Kept s₀ (flushQueue s q) := by
  unfold flushQueue
  repeat' (first
    | with_reducible assumption | with_reducible apply kept_flushRecords)
theorem kept_finishEntry (s : State) (q : Nat) (pos : Nat) (r : Record) (hs : Kept s₀ s) : Kept s₀ (finishEntry s q pos r) := by
  unfold finishEntry
  repeat' (first
    | with_reducible assumption | with_reducible apply kept_flushQueue | with_reducible apply kept_modQueue)
theorem kept_bumpOpt (s : State) (f : Option RField) (sec : Nat) (n : Nat) (hs : Kept s₀ s) : Kept s₀ (bumpOpt s f sec n) := by
  unfold bumpOpt
  repeat' (first
    | with_reducible assumption | with_reducible apply kept_bump | split)
theorem kept_stopSlot (s : State) (k : Nat) (i : Nat) (hs : Kept s₀ s) : Kept s₀ (stopSlot s k i) := by
  unfold stopSlot
  repeat' (first
    | with_reducible assumption | with_reducible apply kept_setSlot | with_reducible apply kept_setCore
    | with_reducible apply kept_bump | with_reducible apply kept_ite)
theorem kept_stopCtxSlots (s : State) (c : Nat) (hs : Kept s₀ s) : Kept s₀ (stopCtxSlots s c) := by
  unfold stopCtxSlots
  repeat' (first
    | with_reducible assumption | intro _ | with_reducible apply kept_forEach | with_reducible apply kept_stopSlot)
theorem kept_markStopped (s : State) (p : Launch → Bool) (hs : Kept s₀ s) : Kept s₀ (markStopped s p) := by
  unfold markStopped
  repeat' (first
    | with_reducible assumption | simp only [kept_mk])
theorem kept_stopQueueLaunches (s : State) (q : Nat) (hs : Kept s₀ s) : Kept s₀ (stopQueueLaunches s q) := by
  unfold stopQueueLaunches
  repeat' (first
    | with_reducible assumption | intro _ | with_reducible apply kept_forEach | with_reducible apply kept_stopSlot
    | with_reducible apply kept_markStopped)
theorem kept_stopQueue (s : State) (q : Nat) (hostRecords : Bool) (hs : Kept s₀ s) : Kept s₀ (stopQueue s q hostRecords) := by
  unfold stopQueue
  repeat' (first
    | with_reducible assumption | with_reducible apply kept_setQueue | with_reducible apply kept_stopQueueLaunches
    | with_reducible apply kept_flushQueue | with_reducible apply kept_bumpOpt | with_reducible apply kept_ite)
theorem kept_stopFnQueues (s : State) (f : Nat) (hostRecords : Bool) (hs : Kept s₀ s) : Kept s₀ (stopFnQueues s f hostRecords) := by
  unfold stopFnQueues
  repeat' (first
    | with_reducible assumption | intro _ | with_reducible apply kept_forEach | with_reducible apply kept_stopQueue)
theorem kept_abandonTallies (s : State) (c : Nat) (hs : Kept s₀ s) : Kept s₀ (abandonTallies s c) := by
  unfold abandonTallies
  repeat' (first
    | with_reducible assumption | intro _ | with_reducible apply kept_forEach | with_reducible apply kept_modTally
    | with_reducible apply kept_bump)
theorem kept_stopContext (s : State) (c : Nat) (cause : Nat) (abort : Bool) (hs : Kept s₀ s) : Kept s₀ (stopContext s c cause abort) := by
  unfold stopContext
  repeat' (first
    | with_reducible assumption | intro _ | with_reducible apply kept_abandonTallies | with_reducible apply kept_sendAbort
    | with_reducible apply kept_modCtx | with_reducible apply kept_markStopped | with_reducible apply kept_stopCtxSlots
    | with_reducible apply kept_forEach | with_reducible apply kept_stopQueue | with_reducible apply kept_ite
    | split)
theorem kept_stopPlanned (s : State) (c : Nat) (hostRecords : Bool) (hs : Kept s₀ s) : Kept s₀ (stopPlanned s c hostRecords) := by
  unfold stopPlanned
  repeat' (first
    | with_reducible assumption | intro _ | with_reducible apply kept_modCtx | with_reducible apply kept_markStopped
    | with_reducible apply kept_stopCtxSlots | with_reducible apply kept_forEach | with_reducible apply kept_stopQueue
    | with_reducible apply kept_ite)
theorem kept_setFltLast (s : State) (level : Nat) (cause : Nat) (sec : Nat) (unit : Nat) (ctx : Nat) (part : Nat) (poison : Bool) (hs : Kept s₀ s) :
    Kept s₀ (setFltLast s level cause sec unit ctx part poison) := by
  unfold setFltLast
  repeat' (first
    | with_reducible assumption | with_reducible apply kept_setRaw | with_reducible apply kept_ite)
theorem kept_postAborted (s : State) (c : Nat) (epoch : Nat) (hs : Kept s₀ s) : Kept s₀ (postAborted s c epoch) := by
  unfold postAborted
  repeat' (first
    | with_reducible assumption | with_reducible apply kept_postPart | with_reducible apply kept_bump)
theorem kept_abortCtx (s : State) (c : Nat) (epoch : Nat) (abort : Bool) (hs : Kept s₀ s) : Kept s₀ (abortCtx s c epoch abort) := by
  unfold abortCtx
  repeat' (first
    | with_reducible assumption | with_reducible apply kept_stopContext | with_reducible apply kept_postAborted
    | with_reducible apply kept_ite)
theorem kept_enterReset (s : State) (p : Nat) (after : PartMode) (hs : Kept s₀ s) : Kept s₀ (enterReset s p after) := by
  unfold enterReset
  repeat' (first
    | with_reducible assumption | with_reducible apply kept_modPart)
theorem kept_fenceModule (s : State) (reason : Nat) (hs : Kept s₀ s) : Kept s₀ (fenceModule s reason) := by
  unfold fenceModule
  repeat' (first
    | with_reducible assumption | intro _ | with_reducible apply kept_forEach | with_reducible apply kept_abortCtx
    | with_reducible apply kept_enterReset | with_reducible apply kept_setFld | with_reducible apply kept_postTo
    | with_reducible apply kept_ite | simp only [kept_mk] | simp only [kept_mkFlash])
theorem kept_escalateCtx (s : State) (hs : Kept s₀ s) : Kept s₀ (escalateCtx s) := by
  unfold escalateCtx
  repeat' (first
    | with_reducible assumption | with_reducible apply kept_fenceModule | with_reducible apply kept_ite
    | simp only [kept_mk])
theorem kept_escalatePart (s : State) (hs : Kept s₀ s) : Kept s₀ (escalatePart s) := by
  unfold escalatePart
  repeat' (first
    | with_reducible assumption | with_reducible apply kept_fenceModule | with_reducible apply kept_ite
    | simp only [kept_mk])
theorem kept_ctxFault (s : State) (c : Nat) (cause : Nat) (sec : Nat) (unit : Nat) (poison : Bool) (hs : Kept s₀ s) :
    Kept s₀ (ctxFault s c cause sec unit poison) := by
  unfold ctxFault
  repeat' (first
    | with_reducible assumption | with_reducible apply kept_setFltLast | with_reducible apply kept_postPart
    | with_reducible apply kept_stopContext | with_reducible apply kept_escalateCtx | with_reducible apply kept_ite)
theorem kept_beginPartReset (s : State) (p : Nat) (sec : Nat) (after : PartMode) (hs : Kept s₀ s) :
    Kept s₀ (beginPartReset s p sec after) := by
  unfold beginPartReset
  repeat' (first
    | with_reducible assumption | intro _ | with_reducible apply kept_enterReset | with_reducible apply kept_forEach
    | with_reducible apply kept_ctxFault)
theorem kept_appendLog (s : State) (c : Nat) (g : Log) (kind : Nat) (source : Nat) (addr : Nat) (len : Nat) (crc : Word32) (tally : Nat) (data : List Byte) (hs : Kept s₀ s) :
    Kept s₀ (appendLog s c g kind source addr len crc tally data) := by
  unfold appendLog
  repeat' (first
    | with_reducible assumption | with_reducible apply kept_modCtx | with_reducible apply kept_bump | with_reducible apply kept_storeBytes
    | with_reducible apply kept_ite)
theorem kept_recordInput (s : State) (c : Nat) (kind : Nat) (source : Nat) (addr : Nat) (data : List Byte) (tally : Nat) (hs : Kept s₀ s) :
    Kept s₀ (recordInput s c kind source addr data tally) := by
  unfold recordInput
  repeat' (first
    | with_reducible assumption | with_reducible apply kept_appendLog | with_reducible apply kept_ite
    | split)
theorem kept_dropLive (s : State) (c : Nat) (hs : Kept s₀ s) : Kept s₀ (dropLive s c) := by
  unfold dropLive
  repeat' (first
    | with_reducible assumption | with_reducible apply kept_bump)
theorem kept_diverge (s : State) (p : Nat) (seq : Nat) (bits : Bool) (timing : Bool) (hs : Kept s₀ s) :
    Kept s₀ (diverge s p seq bits timing) := by
  unfold diverge
  repeat' (first
    | with_reducible assumption | with_reducible apply kept_setFld | with_reducible apply kept_setRaw
    | with_reducible apply kept_ite)
theorem kept_markCompare (s : State) (p : Nat) (g : Log) (m : Mark) (n : Nat) (digest : Word32) (hs : Kept s₀ s) :
    Kept s₀ (markCompare s p g m n digest) := by
  unfold markCompare
  repeat' (first
    | with_reducible assumption | with_reducible apply kept_diverge | with_reducible apply kept_ite | simp only [kept_mk]
    | split)
theorem kept_markAdd (s : State) (c : Nat) (m : Mark) (hs : Kept s₀ s) : Kept s₀ (markAdd s c m) := by
  unfold markAdd
  repeat' (first
    | with_reducible assumption | with_reducible apply kept_modCtx | with_reducible apply kept_readMem
    | with_reducible apply kept_ctxFault | with_reducible apply kept_freeDraw | with_reducible apply kept_addCause
    | with_reducible apply kept_markCompare | with_reducible apply kept_appendLog | with_reducible apply kept_ite
    | simp only [kept_mk] | split)
theorem kept_markTally (s : State) (t : Nat) (hs : Kept s₀ s) : Kept s₀ (markTally s t) := by
  unfold markTally
  repeat' (first
    | with_reducible assumption | intro _ | with_reducible apply kept_forEach | with_reducible apply kept_markAdd)
theorem kept_endExternal (s : State) (t : Nat) (hs : Kept s₀ s) : Kept s₀ (endExternal s t) := by
  unfold endExternal
  repeat' (first
    | with_reducible assumption | with_reducible apply kept_dropCauses)
theorem kept_tallyAddOp (s : State) (t : Nat) (amount : Nat) (hs : Kept s₀ s) : Kept s₀ (tallyAddOp s t amount) := by
  unfold tallyAddOp
  repeat' (first
    | with_reducible assumption | with_reducible apply kept_bump | with_reducible apply kept_ctxFault
    | with_reducible apply kept_markTally | with_reducible apply kept_endExternal | with_reducible apply kept_modTally
    | with_reducible apply kept_ite)
theorem kept_signalAll (s : State) (b : List Byte) (hs : Kept s₀ s) : Kept s₀ (signalAll s b).1 := by
  unfold signalAll
  repeat' (first
    | with_reducible assumption | intro _ | with_reducible apply kept_tallyAddOp | with_reducible apply kept_foldlFst
    | split)
theorem kept_signalTally (s : State) (t : Nat) (amount : Nat) (hs : Kept s₀ s) : Kept s₀ (signalTally s t amount) := by
  unfold signalTally
  repeat' (first
    | with_reducible assumption | with_reducible apply kept_tallyAddOp | with_reducible apply kept_ite)
theorem kept_applyDeltas (s : State) (p : Nat) (l : List (Nat × CounterDelta)) (hs : Kept s₀ s) : Kept s₀ (applyDeltas s p l) := by
  unfold applyDeltas
  repeat' (first
    | with_reducible assumption | intro _ | with_reducible apply kept_forEach | with_reducible apply kept_modTensor)
theorem kept_addNf (s : State) (c : Nat) (n : Nat) (hs : Kept s₀ s) : Kept s₀ (addNf s c n) := by
  unfold addNf
  repeat' (first
    | with_reducible assumption | with_reducible apply kept_modCtx)
theorem kept_poisonTensors (s : State) (p : Nat) (ids : List Nat) (hs : Kept s₀ s) : Kept s₀ (poisonTensors s p ids) := by
  unfold poisonTensors
  repeat' (first
    | with_reducible assumption | intro _ | with_reducible apply kept_forEach | with_reducible apply kept_modTensor
    | with_reducible apply kept_ite)
theorem kept_partialWrites (s : State) (l : List Cell) (hs : Kept s₀ s) : Kept s₀ (partialWrites s l) := by
  unfold partialWrites
  repeat' (first
    | with_reducible assumption | intro _ | with_reducible apply kept_freeDraw | with_reducible apply kept_writeBytes
    | with_reducible apply kept_foldl | with_reducible apply kept_ite)

end Sys2Proof.Machine
end

