-- ==== Sys2Proof/Laws/KeepUnits.lean ====
section
/-! SUPPORT. Engines, links, holds, what Caoco commands share, transmits, operands, self-tests, tiles and launches keep what every step keeps. -/

set_option maxRecDepth 4000
set_option linter.unusedSimpArgs false
set_option linter.unusedVariables false

namespace Sys2Proof.Machine

variable {s₀ : State}

/-! ### Engines -/

theorem kept_startEntry (s : State) (q : Nat) (pos : Nat) (hs : Kept s₀ s) : Kept s₀ (startEntry s q pos) := by
  unfold startEntry
  repeat' (first
    | with_reducible assumption | with_reducible apply kept_modQueue)
theorem kept_countArb (s : State) (kind : Nat) (unit : Nat) (q : Nat) (hs : Kept s₀ s) : Kept s₀ (countArb s kind unit q) := by
  unfold countArb
  repeat' (first
    | with_reducible assumption | with_reducible apply kept_bump | with_reducible apply kept_ite | simp only [kept_mk]
    | split)
theorem kept_takeDesc (s : State) (kind : Nat) (unit : Nat) (hs : Kept s₀ s) : Kept s₀ (takeDesc s kind unit).1 := by
  unfold takeDesc
  repeat' (first
    | with_reducible assumption | with_reducible apply kept_countArb | with_reducible apply kept_modEngine
    | with_reducible apply kept_bumpOpt | with_reducible apply kept_finishEntry | with_reducible apply kept_startEntry
    | simp only [kept_mk] | split)
theorem kept_putJob (s : State) (kind : Nat) (unit : Nat) (j : Job) (hs : Kept s₀ s) : Kept s₀ (putJob s kind unit j) := by
  unfold putJob
  repeat' (first
    | with_reducible assumption | with_reducible apply kept_modEngine)
theorem kept_freeEngine (s : State) (kind : Nat) (unit : Nat) (hs : Kept s₀ s) : Kept s₀ (freeEngine s kind unit) := by
  unfold freeEngine
  repeat' (first
    | with_reducible assumption | with_reducible apply kept_modEngine)
theorem kept_endStopped (s : State) (kind : Nat) (unit : Nat) (j : Job) (hs : Kept s₀ s) : Kept s₀ (endStopped s kind unit j) := by
  unfold endStopped
  repeat' (first
    | with_reducible assumption | with_reducible apply kept_freeEngine | with_reducible apply kept_modQueue
    | with_reducible apply kept_finishEntry)
theorem kept_endFault (s : State) (kind : Nat) (unit : Nat) (j : Job) (cause : Nat) (poison : Bool) (hs : Kept s₀ s) :
    Kept s₀ (endFault s kind unit j cause poison) := by
  unfold endFault
  repeat' (first
    | with_reducible assumption | with_reducible apply kept_freeEngine | with_reducible apply kept_modEngine
    | with_reducible apply kept_finishEntry | with_reducible apply kept_ctxFault)
theorem kept_endCounted (s : State) (kind : Nat) (unit : Nat) (j : Job) (count : State → State) (hs : Kept s₀ s) (hcount : ∀ t, Kept s₀ t → Kept s₀ (count t)) :
    Kept s₀ (endCounted s kind unit j count) := by
  unfold endCounted
  repeat' (first
    | with_reducible assumption | with_reducible apply kept_signalAll | with_reducible apply kept_freeEngine
    | with_reducible apply kept_endFault | with_reducible apply kept_finishEntry | with_reducible apply hcount
    | with_reducible apply kept_ite)
theorem kept_endDone (s : State) (kind unit : Nat) (j : Job) (hs : Kept s₀ s) : Kept s₀ (endDone s kind unit j) := by
  exact kept_endCounted _ _ _ _ _ hs (fun _ h => h)
theorem kept_engineWatchdog (s : State) (kind : Nat) (unit : Nat) (j : Job) (hs : Kept s₀ s) : Kept s₀ (engineWatchdog s kind unit j) := by
  unfold engineWatchdog
  repeat' (first
    | with_reducible assumption | with_reducible apply kept_endFault | with_reducible apply kept_healthEvent
    | with_reducible apply kept_bump)
theorem kept_crcFailed (s : State) (a : Nat) (hs : Kept s₀ s) : Kept s₀ (crcFailed s a) := by
  unfold crcFailed
  repeat' (first
    | with_reducible assumption | with_reducible apply kept_bump | with_reducible apply kept_setRaw | with_reducible apply kept_healthEvent)
theorem kept_crcCleared (s : State) (a : Nat) (hs : Kept s₀ s) : Kept s₀ (crcCleared s a) := by
  unfold crcCleared
  repeat' (first
    | with_reducible assumption | with_reducible apply kept_healthEvent | with_reducible apply kept_bump)
theorem kept_mvStoreCrcs (s : State) (j : Job) (hs : Kept s₀ s) : Kept s₀ (mvStoreCrcs s j) := by
  unfold mvStoreCrcs
  repeat' (first
    | with_reducible assumption | intro _ | with_reducible apply kept_forEach | with_reducible apply kept_storeBytes)
theorem kept_mvRun (s : State) (m : Nat) (j : Job) (k : Nat) (pathError : Bool) (hs : Kept s₀ s) : Kept s₀ (mvRun s m j k pathError) := by
  unfold mvRun
  repeat' (first
    | with_reducible assumption | with_reducible apply kept_addCause | with_reducible apply kept_putJob
    | with_reducible apply kept_writeMem | with_reducible apply kept_mvStoreCrcs | with_reducible apply kept_bump
    | with_reducible apply kept_ite | simp only [kept_mk] | split)
theorem kept_mvSpoil (s : State) (b : List Byte) (bad : List (Nat × Bool)) (hs : Kept s₀ s) : Kept s₀ (mvSpoil s b bad) := by
  unfold mvSpoil
  repeat' (first
    | with_reducible assumption | intro _ | with_reducible apply kept_partialWrites | with_reducible apply kept_forEach
    | with_reducible apply kept_poisonWord | with_reducible apply kept_ite)
theorem kept_moverTransferOp (m : Nat) (pathError : Bool) (s : State) (hs : Kept s₀ s) : Kept s₀ (moverTransferOp m pathError s) := by
  unfold moverTransferOp
  repeat' (first
    | with_reducible assumption | with_reducible apply kept_takeDesc | with_reducible apply kept_endFault
    | with_reducible apply kept_readAll | with_reducible apply kept_mvSpoil | with_reducible apply kept_mvRun
    | with_reducible apply kept_ite | (with_reducible refine kept_fst (by with_reducible assumption) ?_)
    | simp only [kept_mk] | split)
theorem kept_execMoverTransfer (m : MoverId) (hits : List Hit) (pathError : Bool) (s : State) (hs : Kept s₀ s) :
    KeptNext s₀ (execMoverTransfer m hits pathError s) := by
  unfold execMoverTransfer
  repeat' (first
    | with_reducible assumption | with_reducible apply keptNext_next | with_reducible apply kept_moverTransferOp
    | with_reducible apply kept_upsetWords)
theorem kept_execMoverComplete (m : MoverId) (s : State) (hs : Kept s₀ s) : KeptNext s₀ (execMoverComplete m s) := by
  unfold execMoverComplete
  repeat' (first
    | with_reducible assumption | with_reducible apply keptNext_next | with_reducible apply kept_endDone
    | with_reducible apply kept_ite | split)
theorem kept_moverReread (m : Nat) (pathError : Bool) (s : State) (hs : Kept s₀ s) : Kept s₀ (moverReread m pathError s) := by
  unfold moverReread
  repeat' (first
    | with_reducible assumption | with_reducible apply kept_dropCauses | with_reducible apply kept_crcCleared
    | with_reducible apply kept_endStopped | with_reducible apply kept_mvRun | with_reducible apply kept_partialWrites
    | with_reducible apply kept_endFault | with_reducible apply kept_crcFailed | with_reducible apply kept_ite
    | simp only [kept_mk] | split)
theorem kept_execMoverWatchdog (m : MoverId) (s : State) (hs : Kept s₀ s) : KeptNext s₀ (execMoverWatchdog m s) := by
  unfold execMoverWatchdog
  repeat' (first
    | with_reducible assumption | with_reducible apply keptNext_next | with_reducible apply kept_engineWatchdog
    | with_reducible apply kept_partialWrites | with_reducible apply kept_ite | split)
/-! ### LinkBase -/

theorem kept_setLinkState (s : State) (l : Nat) (v : Nat) (hs : Kept s₀ s) : Kept s₀ (setLinkState s l v) := by
  unfold setLinkState
  repeat' (first
    | with_reducible assumption | with_reducible apply kept_setFld)
theorem kept_sendKind (s : State) (l : Nat) (kind : Nat) (hs : Kept s₀ s) : Kept s₀ (sendKind s l kind) := by
  unfold sendKind
  repeat' (first
    | with_reducible assumption | with_reducible apply kept_sendRecord)
theorem kept_goDown (s : State) (l : Nat) (hs : Kept s₀ s) : Kept s₀ (goDown s l) := by
  unfold goDown
  repeat' (first
    | with_reducible assumption | with_reducible apply kept_setLinkState | with_reducible apply kept_setFld
    | with_reducible apply kept_modLink)
theorem kept_lowerRate (s : State) (l : Nat) (hs : Kept s₀ s) : Kept s₀ (lowerRate s l) := by
  unfold lowerRate
  repeat' (first
    | with_reducible assumption | with_reducible apply kept_setFld | with_reducible apply kept_modLink)
theorem kept_startRetrain (s : State) (l : Nat) (hs : Kept s₀ s) : Kept s₀ (startRetrain s l) := by
  unfold startRetrain
  repeat' (first
    | with_reducible assumption | with_reducible apply kept_setLinkState | with_reducible apply kept_modLink
    | with_reducible apply kept_healthEvent | with_reducible apply kept_bump)
theorem kept_dropUnsent (s : State) (l : Nat) (hs : Kept s₀ s) : Kept s₀ (dropUnsent s l) := by
  unfold dropUnsent
  repeat' (first
    | with_reducible assumption | with_reducible apply kept_pump | with_reducible apply kept_modLink)
theorem kept_bufferFault (s : State) (l : Nat) (hs : Kept s₀ s) : Kept s₀ (bufferFault s l) := by
  unfold bufferFault
  repeat' (first
    | with_reducible assumption | with_reducible apply kept_modLink | with_reducible apply kept_endFault
    | with_reducible apply kept_dropUnsent | with_reducible apply kept_ctxFault | with_reducible apply kept_startRetrain
    | with_reducible apply kept_ite | split)
theorem kept_resendFrom (s : State) (l : Nat) (ack : Nat) (hs : Kept s₀ s) : Kept s₀ (resendFrom s l ack) := by
  unfold resendFrom
  repeat' (first
    | with_reducible assumption | intro _ | with_reducible apply kept_bufferFault | with_reducible apply kept_bump
    | with_reducible apply kept_forEach | with_reducible apply kept_sendFlit | with_reducible apply kept_ite)
theorem kept_goUp (s : State) (l : Nat) (hs : Kept s₀ s) : Kept s₀ (goUp s l) := by
  unfold goUp
  repeat' (first
    | with_reducible assumption | with_reducible apply kept_setLinkState | with_reducible apply kept_modLink
    | with_reducible apply kept_pump | with_reducible apply kept_resendFrom)
theorem kept_retryHold (s : State) (l : Nat) (hs : Kept s₀ s) : Kept s₀ (retryHold s l) := by
  unfold retryHold
  repeat' (first
    | with_reducible assumption | with_reducible apply kept_addCause | split)
theorem kept_countNak (s : State) (l : Nat) (hs : Kept s₀ s) : Kept s₀ (countNak s l) := by
  unfold countNak
  repeat' (first
    | with_reducible assumption | with_reducible apply kept_bump | with_reducible apply kept_retryHold
    | with_reducible apply kept_modLink | with_reducible apply kept_startRetrain | with_reducible apply kept_ite)
theorem kept_fenceLink (s : State) (l : Nat) (cause : Nat) (hs : Kept s₀ s) : Kept s₀ (fenceLink s l cause) := by
  unfold fenceLink
  repeat' (first
    | with_reducible assumption | with_reducible apply kept_setLinkState | with_reducible apply kept_setFld
    | with_reducible apply kept_modLink | with_reducible apply kept_sendKind | with_reducible apply kept_postBoth)
theorem kept_hostileEvent (s : State) (l : Nat) (f : RField) (hs : Kept s₀ s) : Kept s₀ (hostileEvent s l f) := by
  unfold hostileEvent
  repeat' (first
    | with_reducible assumption | with_reducible apply kept_bump | with_reducible apply kept_modLink | with_reducible apply kept_fenceLink
    | with_reducible apply kept_ite)
theorem kept_trained (s : State) (l : Nat) (hs : Kept s₀ s) : Kept s₀ (trained s l) := by
  unfold trained
  repeat' (first
    | with_reducible assumption | intro _ | with_reducible apply kept_withHealth | with_reducible apply kept_setLinkState
    | with_reducible apply kept_setFld | with_reducible apply kept_modLink | with_reducible apply kept_healthEvent
    | with_reducible apply kept_sendKind | with_reducible apply kept_ite)
theorem kept_useLanes (s : State) (l : Nat) (lanes : Nat) (hs : Kept s₀ s) : Kept s₀ (useLanes s l lanes) := by
  unfold useLanes
  repeat' (first
    | with_reducible assumption | intro _ | with_reducible apply kept_withHealth | with_reducible apply kept_modLink
    | with_reducible apply kept_goDown | with_reducible apply kept_setFld | with_reducible apply kept_resendFrom
    | with_reducible apply kept_ite)
theorem kept_linkLoopWrite (s : State) (l : Nat) (value : Word) (hs : Kept s₀ s) : Kept s₀ (linkLoopWrite s l value) := by
  unfold linkLoopWrite
  repeat' (first
    | with_reducible assumption | with_reducible apply kept_setFld | with_reducible apply kept_goDown
    | with_reducible apply kept_setLinkState | with_reducible apply kept_ite)
theorem kept_linkLoopHigh (s : State) (l : Nat) (hs : Kept s₀ s) : Kept s₀ (linkLoopHigh s l) := by
  unfold linkLoopHigh
  repeat' (first
    | with_reducible assumption | with_reducible apply kept_setFld | with_reducible apply kept_ite)
theorem kept_sendNotice (s : State) (l : Nat) (g : Nat) (hs : Kept s₀ s) : Kept s₀ (sendNotice s l g) := by
  unfold sendNotice
  repeat' (first
    | with_reducible assumption | with_reducible apply kept_sendMsg | with_reducible apply kept_setGroup
    | with_reducible apply kept_ite)
theorem kept_dropExcluded (s : State) (g : Nat) (l : Nat) (hs : Kept s₀ s) : Kept s₀ (dropExcluded s g l) := by
  unfold dropExcluded
  repeat' (first
    | with_reducible assumption | with_reducible apply kept_pump | with_reducible apply kept_modLink | with_reducible apply kept_endStopped
    | with_reducible apply kept_ite | simp only [kept_mk] | split)
theorem kept_abortGroup (s : State) (g : Nat) (epoch : Nat) (hs : Kept s₀ s) : Kept s₀ (abortGroup s g epoch) := by
  unfold abortGroup
  repeat' (first
    | with_reducible assumption | intro _ | with_reducible apply kept_forEach | with_reducible apply kept_abortCtx)
/-! ### Hold -/

theorem kept_holdStartOp (p : Nat) (s : State) (hs : Kept s₀ s) : Kept s₀ (holdStartOp p s) := by
  unfold holdStartOp
  repeat' (first
    | with_reducible assumption | with_reducible apply kept_modPart | with_reducible apply kept_ite)
theorem kept_execHoldStart (p : PartId) (s : State) (hs : Kept s₀ s) : KeptNext s₀ (execHoldStart p s) := by
  unfold execHoldStart
  repeat' (first
    | with_reducible assumption | with_reducible apply keptNext_next | with_reducible apply kept_holdStartOp)
theorem kept_holdEndOp (p : Nat) (s : State) (hs : Kept s₀ s) : Kept s₀ (holdEndOp p s) := by
  unfold holdEndOp
  repeat' (first
    | with_reducible assumption | intro _ | with_reducible apply kept_bump | with_reducible apply kept_forEach
    | with_reducible apply kept_modPart | with_reducible apply kept_ite)
theorem kept_execHoldEnd (p : PartId) (s : State) (hs : Kept s₀ s) : KeptNext s₀ (execHoldEnd p s) := by
  unfold execHoldEnd
  repeat' (first
    | with_reducible assumption | with_reducible apply keptNext_next | with_reducible apply kept_holdEndOp)
theorem kept_holdLimitOp (p : Nat) (field : Nat) (s : State) (hs : Kept s₀ s) : Kept s₀ (holdLimitOp p field s) := by
  unfold holdLimitOp
  repeat' (first
    | with_reducible assumption | with_reducible apply kept_postPart | with_reducible apply kept_bump
    | with_reducible apply kept_ite)
theorem kept_execHoldLimitReport (p : PartId) (cause : Fin 7) (s : State) (hs : Kept s₀ s) :
    KeptNext s₀ (execHoldLimitReport p cause s) := by
  unfold execHoldLimitReport
  repeat' (first
    | with_reducible assumption | with_reducible apply keptNext_next | with_reducible apply kept_holdLimitOp)
/-! ### Caoco -/

theorem kept_meetArgs (s : State) (l : List (Word × Nat)) (hs : Kept s₀ s) : Kept s₀ (meetArgs s l) := by
  unfold meetArgs
  repeat' (first
    | with_reducible assumption | with_reducible apply kept_readAll)
theorem kept_ackMbx (s : State) (f : Nat) (j : Nat) (seq : Nat) (taken : Nat) (rc : Nat) (hs : Kept s₀ s) :
    Kept s₀ (ackMbx s f j seq taken rc) := by
  unfold ackMbx
  repeat' (first
    | with_reducible assumption | with_reducible apply kept_setFld | with_reducible apply kept_setRaw
    | with_reducible apply kept_raiseMsix | with_reducible apply kept_ite)
theorem kept_ackDone (s : State) (f : Nat) (j : Nat) (seq : Nat) (taken : Nat) (rc : Nat) (hs : Kept s₀ s) :
    Kept s₀ (ackDone s f j seq taken rc) := by
  unfold ackDone
  repeat' (first
    | with_reducible assumption | with_reducible apply kept_modFn | with_reducible apply kept_ackMbx)
theorem kept_postOut (s : State) (f : Nat) (j : Nat) (hs : Kept s₀ s) : Kept s₀ (postOut s f j) := by
  unfold postOut
  repeat' (first
    | with_reducible assumption | with_reducible apply kept_modFn | with_reducible apply kept_raiseMsix
    | with_reducible apply kept_setRaw | with_reducible apply kept_setFld | with_reducible apply kept_ackDone
    | with_reducible apply kept_ite | simp only [kept_mk] | split)
theorem kept_ackWord (s : State) (f : Nat) (j : Nat) (seq : Nat) (taken : Nat) (rc : Nat) (reply : Option Word) (hs : Kept s₀ s) :
    Kept s₀ (ackWord s f j seq taken rc reply) := by
  unfold ackWord
  repeat' (first
    | with_reducible assumption | with_reducible apply kept_postOut | with_reducible apply kept_queueOut
    | with_reducible apply kept_modFn | with_reducible apply kept_ackDone | with_reducible apply kept_ite
    | split)
theorem kept_publish (s : State) (fn : Nat) (via : Via) (taken : Nat) (op : Nat) (mute : Bool) (a : Answer) (hs : Kept s₀ s) :
    Kept s₀ (publish s fn via taken op mute a) := by
  unfold publish
  repeat' (first
    | with_reducible assumption | with_reducible apply kept_writeHost | with_reducible apply kept_modFn
    | with_reducible apply kept_ackWord | with_reducible apply kept_finishEntry | with_reducible apply kept_ite
    | simp only [kept_mk] | split)
theorem kept_quiesceNow (s : State) (c : Nat) (hs : Kept s₀ s) : Kept s₀ (quiesceNow s c) := by
  unfold quiesceNow
  repeat' (first
    | with_reducible assumption | intro _ | with_reducible apply kept_forEach | with_reducible apply kept_modQueue
    | with_reducible apply kept_modCtx)
theorem kept_publishOne (s : State) (p : PendCmd) (rc : Nat) (result : Nat) (hs : Kept s₀ s) : Kept s₀ (publishOne s p rc result) := by
  unfold publishOne
  repeat' (first
    | with_reducible assumption | with_reducible apply kept_quiesceNow | with_reducible apply kept_publish
    | with_reducible apply kept_ite | simp only [kept_mk] | split)
theorem kept_finishFlr (s : State) (f : Nat) (hs : Kept s₀ s) : Kept s₀ (finishFlr s f) := by
  unfold finishFlr
  repeat' (first
    | with_reducible assumption | intro _ | with_reducible apply kept_forEach | with_reducible apply kept_setQueue
    | with_reducible apply kept_clearRegs | with_reducible apply kept_setFn | with_reducible apply kept_bump
    | with_reducible apply kept_setFld)
theorem kept_finishFlrs (s : State) (hs : Kept s₀ s) : Kept s₀ (finishFlrs s) := by
  unfold finishFlrs
  repeat' (first
    | with_reducible assumption | intro _ | with_reducible apply kept_forEach | with_reducible apply kept_finishFlr
    | with_reducible apply kept_ite)
theorem kept_settle (s : State) (hs : Kept s₀ s) : Kept s₀ (settle s) := by
  unfold settle
  repeat' (first
    | with_reducible assumption | intro _ | with_reducible apply kept_finishFlrs | with_reducible apply kept_forEach
    | with_reducible apply kept_publishOne | split)
theorem kept_pruneTokens (s : State) (hs : Kept s₀ s) : Kept s₀ (pruneTokens s) := by
  unfold pruneTokens
  repeat' (first
    | with_reducible assumption | simp only [kept_mk])
theorem kept_keepToken (s : State) (c : Cmd) (rc : Nat) (result : Word) (hs : Kept s₀ s) : Kept s₀ (keepToken s c rc result) := by
  unfold keepToken
  repeat' (first
    | with_reducible assumption | with_reducible apply kept_ite | simp only [kept_mk])
theorem kept_checkIn (c : Cmd) (s : State) (hs : Kept s₀ s) : Kept s₀ (checkIn c s) := by
  unfold checkIn
  repeat' (first
    | with_reducible assumption | with_reducible apply kept_startEntry | with_reducible apply kept_setQueue
    | with_reducible apply kept_ite | simp only [kept_mk] | split)
theorem kept_answerNow (c : Cmd) (s : State) (rc : Nat) (result : Word) (tag : Nat) (hs : Kept s₀ s) :
    Kept s₀ (answerNow c s rc result tag) := by
  unfold answerNow
  repeat' (first
    | with_reducible assumption | with_reducible apply kept_publish)
theorem kept_conclude (c : Cmd) (tag : Nat) (o : CmdOut) (ho : Kept s₀ o.state) : Kept s₀ (conclude c tag o) := by
  unfold conclude
  cases o with
  | done rc r s => exact kept_answerNow _ _ _ _ _ (kept_keepToken _ _ _ _ ho)
  | wait k s => exact kept_settle _ (kept_mk.2 ho)
  | later s => exact ho
theorem kept_runCmd (refuse : Cmd → State → Option Nat) (reads : Cmd → State → List (Word × Nat)) (effect : Cmd → State → CmdOut) (c : Cmd) (s : State) (heffect : ∀ x t, Kept s₀ t → Kept s₀ (effect x t).state) (hs : Kept s₀ s) :
    Kept s₀ (runCmd refuse reads effect c s) := by
  unfold runCmd
  repeat' (first
    | with_reducible assumption | with_reducible apply kept_checkIn | with_reducible apply kept_answerNow
    | with_reducible apply kept_meetArgs | with_reducible apply kept_conclude | with_reducible apply heffect
    | simp only [kept_mk] | split)
theorem kept_arrive (rq : Req) (s : State) (hs : Kept s₀ s) : Kept s₀ (arrive rq s) := by
  unfold arrive
  repeat' (first
    | with_reducible assumption | with_reducible apply kept_hostStores)
theorem kept_runRowWith (refuse : Cmd → State → Option Nat) (reads : Cmd → State → List (Word × Nat)) (effect : Cmd → State → CmdOut) (op : Nat) (rq : Req) (args : List Word) (s : State) (heffect : ∀ x t, Kept s₀ t → Kept s₀ (effect x t).state) (hs : Kept s₀ s) :
    Kept s₀ (runRowWith refuse reads effect op rq args s) := by
  unfold runRowWith
  repeat' (first
    | with_reducible assumption | with_reducible apply kept_runCmd | with_reducible apply kept_arrive)
theorem kept_runRow (refuse : Cmd → State → Option Nat) (effect : Cmd → State → CmdOut) (op : Nat) (rq : Req) (args : List Word) (s : State) (heffect : ∀ x t, Kept s₀ t → Kept s₀ (effect x t).state) (hs : Kept s₀ s) :
    Kept s₀ (runRow refuse effect op rq args s) := by
  unfold runRow
  repeat' (first
    | with_reducible assumption | with_reducible apply kept_runRowWith)
/-! ### LinkTx -/

theorem kept_txRun (s : State) (l : Nat) (j : Job) (k : Nat) (pathError : Bool) (hs : Kept s₀ s) : Kept s₀ (txRun s l j k pathError) := by
  unfold txRun
  repeat' (first
    | with_reducible assumption | with_reducible apply kept_addCause | with_reducible apply kept_putJob
    | with_reducible apply kept_modLink | with_reducible apply kept_pump | with_reducible apply kept_addOpenCause
    | with_reducible apply kept_ite | simp only [kept_mk] | split)
theorem kept_spoilRetry (s : State) (l : Nat) (at_ : List Nat) (hs : Kept s₀ s) : Kept s₀ (spoilRetry s l at_) := by
  unfold spoilRetry
  repeat' (first
    | with_reducible assumption | with_reducible apply kept_modLink)
theorem kept_linkTransmitOp (l : Nat) (pathError : Bool) (bufferError : Bool) (s : State) (hs : Kept s₀ s) :
    Kept s₀ (linkTransmitOp l pathError bufferError s) := by
  unfold linkTransmitOp
  repeat' (first
    | with_reducible assumption | with_reducible apply kept_takeDesc | with_reducible apply kept_endFault
    | with_reducible apply kept_readAll | with_reducible apply kept_bufferFault | with_reducible apply kept_putJob
    | with_reducible apply kept_txRun | with_reducible apply kept_ite | (with_reducible refine kept_fst (by with_reducible assumption) ?_)
    | simp only [kept_mk] | split)
theorem kept_execLinkTransmit (l : LinkId) (hits : List Hit) (pathError : Bool) (buffers : BufferErrors) (s : State) (hs : Kept s₀ s) :
    KeptNext s₀ (execLinkTransmit l hits pathError buffers s) := by
  unfold execLinkTransmit
  repeat' (first
    | with_reducible assumption | with_reducible apply keptNext_next | with_reducible apply kept_spoilRetry
    | with_reducible apply kept_linkTransmitOp | with_reducible apply kept_upsetWords)
theorem kept_linkAcked (s : State) (l : Nat) (hs : Kept s₀ s) : Kept s₀ (linkAcked s l) := by
  unfold linkAcked
  repeat' (first
    | with_reducible assumption | with_reducible apply kept_pump | with_reducible apply kept_setLink | with_reducible apply kept_endDone
    | with_reducible apply kept_ite | simp only [kept_mk] | split)
theorem kept_execLinkTransmitAcked (l : LinkId) (s : State) (hs : Kept s₀ s) : KeptNext s₀ (execLinkTransmitAcked l s) := by
  unfold execLinkTransmitAcked
  repeat' (first
    | with_reducible assumption | with_reducible apply keptNext_next | with_reducible apply kept_linkAcked)
theorem kept_execLinkTxWatchdog (l : LinkId) (s : State) (hs : Kept s₀ s) : KeptNext s₀ (execLinkTxWatchdog l s) := by
  unfold execLinkTxWatchdog
  repeat' (first
    | with_reducible assumption | with_reducible apply keptNext_next | with_reducible apply kept_engineWatchdog
    | with_reducible apply kept_dropUnsent | with_reducible apply kept_ite | split)
theorem kept_linkReread (l : Nat) (pathError : Bool) (s : State) (hs : Kept s₀ s) : Kept s₀ (linkReread l pathError s) := by
  unfold linkReread
  repeat' (first
    | with_reducible assumption | with_reducible apply kept_dropCauses | with_reducible apply kept_crcCleared
    | with_reducible apply kept_endStopped | with_reducible apply kept_txRun | with_reducible apply kept_endFault
    | with_reducible apply kept_crcFailed | with_reducible apply kept_ite | simp only [kept_mk] | split)
theorem kept_execCrcSecondRead (site : CrcSite) (pathError : Bool) (s : State) (hs : Kept s₀ s) :
    KeptNext s₀ (execCrcSecondRead site pathError s) := by
  unfold execCrcSecondRead
  repeat' (first
    | with_reducible assumption | with_reducible apply keptNext_next | with_reducible apply kept_moverReread
    | with_reducible apply kept_linkReread | split)
/-! ### SelfTest -/

theorem kept_resetSectionRegs (s : State) (n : Nat) (hs : Kept s₀ s) : Kept s₀ (resetSectionRegs s n) := by
  unfold resetSectionRegs
  repeat' (first
    | with_reducible assumption | with_reducible apply kept_clearRegs)
theorem kept_clearUnits (s : State) (n : Nat) (hs : Kept s₀ s) : Kept s₀ (clearUnits s n) := by
  unfold clearUnits
  repeat' (first
    | with_reducible assumption | with_reducible apply kept_modGravel | simp only [kept_mk])
theorem kept_clearLoam (s : State) (n : Nat) (hs : Kept s₀ s) : Kept s₀ (clearLoam s n) := by
  unfold clearLoam
  repeat' (first
    | with_reducible assumption | with_reducible apply kept_dropSection | with_reducible apply kept_zeroRange)
theorem kept_clearHbm (s : State) (n : Nat) (hs : Kept s₀ s) : Kept s₀ (clearHbm s n) := by
  unfold clearHbm
  repeat' (first
    | with_reducible assumption | with_reducible apply kept_zeroRange)
theorem kept_grantTest (s : State) (hs : Kept s₀ s) : Kept s₀ (grantTest s) := by
  unfold grantTest
  repeat' (first
    | with_reducible assumption | simp only [kept_mk])
theorem kept_startSection (s : State) (source : Nat) (tested : Nat) (ticket : Nat) (blocks : List Nat) (n : Nat) (hs : Kept s₀ s) :
    Kept s₀ (startSection s source tested ticket blocks n) := by
  unfold startSection
  repeat' (first
    | with_reducible assumption | intro _ | with_reducible apply kept_setAutumn | with_reducible apply kept_forEach
    | with_reducible apply kept_setLinkState | with_reducible apply kept_ite)
theorem kept_startAutumn (s : State) (source : Nat) (mask : Nat) (blocks : List Nat) (hs : Kept s₀ s) :
    Kept s₀ (startAutumn s source mask blocks) := by
  unfold startAutumn
  repeat' (first
    | with_reducible assumption | intro _ | with_reducible apply kept_grantTest | with_reducible apply kept_forEach
    | with_reducible apply kept_startSection)
/-! ### Tile -/

theorem kept_setUnit (s : State) (k : Nat) (u : Nat) (v : UnitState) (hs : Kept s₀ s) : Kept s₀ (setUnit s k u v) := by
  unfold setUnit
  repeat' (first
    | with_reducible assumption | with_reducible apply kept_modCore)
theorem kept_noteLaunch (s : State) (k : Nat) (i : Nat) (poison : Bool) (hs : Kept s₀ s) : Kept s₀ (noteLaunch s k i poison) := by
  unfold noteLaunch
  repeat' (first
    | with_reducible assumption | simp only [kept_mk])
theorem kept_checkComplete (s : State) (k : Nat) (i : Nat) (hs : Kept s₀ s) : Kept s₀ (checkComplete s k i) := by
  unfold checkComplete
  repeat' (first
    | with_reducible assumption | with_reducible apply kept_setSlot | with_reducible apply kept_ite)
theorem kept_markSignalled (s : State) (k : Nat) (i : Nat) (index : Nat) (hs : Kept s₀ s) : Kept s₀ (markSignalled s k i index) := by
  unfold markSignalled
  repeat' (first
    | with_reducible assumption | with_reducible apply kept_modSlot | with_reducible apply kept_checkComplete)
theorem kept_enterSlot (s : State) (k : Nat) (i : Option Nat) (hs : Kept s₀ s) : Kept s₀ (enterSlot s k i) := by
  unfold enterSlot
  repeat' (first
    | with_reducible assumption | with_reducible apply kept_modCore)
theorem kept_leaveSlot (s : State) (k : Nat) (hs : Kept s₀ s) : Kept s₀ (leaveSlot s k) := by
  unfold leaveSlot
  repeat' (first
    | with_reducible assumption | with_reducible apply kept_modSlot | with_reducible apply kept_modCore
    | simp only [kept_mk] | split)
theorem kept_coreFault (s : State) (k : Nat) (i : Nat) (index : Nat) (unit : Nat) (c : Nat) (cause : Nat) (poison : Bool) (hs : Kept s₀ s) :
    Kept s₀ (coreFault s k i index unit c cause poison) := by
  unfold coreFault
  repeat' (first
    | with_reducible assumption | with_reducible apply kept_setRaw | with_reducible apply kept_ctxFault
    | with_reducible apply kept_modCore)
theorem kept_tileFetchOp (k : Nat) (s : State) (hs : Kept s₀ s) : Kept s₀ (tileFetchOp k s) := by
  unfold tileFetchOp
  repeat' (first
    | with_reducible assumption | with_reducible apply kept_coreFault | with_reducible apply kept_setSlot
    | with_reducible apply kept_readMem | with_reducible apply kept_markSignalled | with_reducible apply kept_bump
    | with_reducible apply kept_modCore | with_reducible apply kept_ite | simp only [kept_mk] | split)
theorem kept_execTileFetch (core : CoreId) (hits : List Hit) (s : State) (hs : Kept s₀ s) : KeptNext s₀ (execTileFetch core hits s) := by
  unfold execTileFetch
  repeat' (first
    | with_reducible assumption | with_reducible apply keptNext_next | with_reducible apply kept_tileFetchOp
    | with_reducible apply kept_upsetWords)
theorem kept_sampleTile (s : State) (k : Nat) (i : Nat) (c : Nat) (index : Nat) (b : List Byte) (accs : List (List Acc)) (truth : List (List Acc)) (tag : Nat) (hs : Kept s₀ s) :
    Kept s₀ (sampleTile s k i c index b accs truth tag).1 := by
  unfold sampleTile
  repeat' (first
    | with_reducible assumption | with_reducible apply kept_bump | with_reducible apply kept_setWitness
    | simp only [kept_mk] | split)
theorem kept_spoilOverlap (s : State) (c : Nat) (b : List Byte) (cells : List Cell) (hs : Kept s₀ s) :
    Kept s₀ (spoilOverlap s c b cells).1 := by
  unfold spoilOverlap
  repeat' (first
    | with_reducible assumption | intro _ | with_reducible apply kept_freeDraw | with_reducible apply kept_foldlFst
    | simp only [kept_mk] | split)
theorem kept_feederCorrectedOp (s : State) (k : Nat) (n : Nat) (hs : Kept s₀ s) : Kept s₀ (feederCorrectedOp s k n) := by
  unfold feederCorrectedOp
  repeat' (first
    | with_reducible assumption | intro _ | with_reducible apply kept_forEach | with_reducible apply kept_bump
    | with_reducible apply kept_healthEvent)
theorem kept_startTile (s : State) (k : Nat) (i : Nat) (d : WinDesc) (corrected : Nat) (uncorrectable : Bool) (wrong : List CellError) (hs : Kept s₀ s) :
    Kept s₀ (startTile s k i d corrected uncorrectable wrong) := by
  unfold startTile
  repeat' (first
    | with_reducible assumption | with_reducible apply kept_coreFault | with_reducible apply kept_spoilOverlap
    | with_reducible apply kept_feederCorrectedOp | with_reducible apply kept_readAll | with_reducible apply kept_partialWrites
    | with_reducible apply kept_healthEvent | with_reducible apply kept_bump | with_reducible apply kept_sampleTile
    | with_reducible apply kept_setUnit | with_reducible apply kept_ite | simp only [kept_mk] | split)
theorem kept_holdExternal (s : State) (k : Nat) (p : Nat) (d : WinDesc) (hs : Kept s₀ s) : Kept s₀ (holdExternal s k p d) := by
  unfold holdExternal
  repeat' (first
    | with_reducible assumption | intro _ | with_reducible apply kept_forEach | with_reducible apply kept_addCause
    | with_reducible apply kept_ite)
theorem kept_tileIssueOp (k : Nat) (corrected : Nat) (uncorrectable : Bool) (wrong : List CellError) (s : State) (hs : Kept s₀ s) :
    Kept s₀ (tileIssueOp k corrected uncorrectable wrong s) := by
  unfold tileIssueOp
  repeat' (first
    | with_reducible assumption | with_reducible apply kept_bump | with_reducible apply kept_modCore | with_reducible apply kept_startTile
    | with_reducible apply kept_holdExternal | with_reducible apply kept_ite | simp only [kept_mk] | split)
theorem kept_execTileIssue (core : CoreId) (hits : List Hit) (feederCorrected : Nat) (upset : TileUpset) (s : State) (hs : Kept s₀ s) :
    KeptNext s₀ (execTileIssue core hits feederCorrected upset s) := by
  unfold execTileIssue
  repeat' (first
    | with_reducible assumption | with_reducible apply keptNext_next | with_reducible apply kept_tileIssueOp
    | with_reducible apply kept_upsetWords)
theorem kept_publishTile (s : State) (r : TileRun) (hs : Kept s₀ s) : Kept s₀ (publishTile s r) := by
  unfold publishTile
  repeat' (first
    | with_reducible assumption | intro _ | with_reducible apply kept_forEach | with_reducible apply kept_throughCache
    | with_reducible apply kept_writeCells | with_reducible apply kept_poisonTensors | with_reducible apply kept_modTensor
    | with_reducible apply kept_addNf | with_reducible apply kept_applyDeltas | simp only [kept_mk] | split)
theorem kept_signalTile (s : State) (k : Nat) (u : Nat) (r : TileRun) (hs : Kept s₀ s) : Kept s₀ (signalTile s k u r) := by
  unfold signalTile
  repeat' (first
    | with_reducible assumption | with_reducible apply kept_bump | with_reducible apply kept_noteLaunch
    | with_reducible apply kept_signalAll | with_reducible apply kept_coreFault | with_reducible apply kept_markSignalled
    | with_reducible apply kept_ite)
theorem kept_holdTile (s : State) (k : Nat) (u : Nat) (r : TileRun) (hs : Kept s₀ s) : Kept s₀ (holdTile s k u r) := by
  unfold holdTile
  repeat' (first
    | with_reducible assumption | with_reducible apply kept_modWitness | with_reducible apply kept_setUnit
    | with_reducible apply kept_modCore | with_reducible apply kept_addCause)
theorem kept_tileCompleteOp (k : Nat) (u : Nat) (s : State) (hs : Kept s₀ s) : Kept s₀ (tileCompleteOp k u s) := by
  unfold tileCompleteOp
  repeat' (first
    | with_reducible assumption | with_reducible apply kept_checkComplete | with_reducible apply kept_setUnit
    | with_reducible apply kept_bump | with_reducible apply kept_publishTile | with_reducible apply kept_holdTile
    | with_reducible apply kept_signalTile | with_reducible apply kept_ite | simp only [kept_mk] | split)
theorem kept_execTileComplete (core : CoreId) (unit : Fin 7) (s : State) (hs : Kept s₀ s) : KeptNext s₀ (execTileComplete core unit s) := by
  unfold execTileComplete
  repeat' (first
    | with_reducible assumption | with_reducible apply keptNext_next | with_reducible apply kept_tileCompleteOp)
theorem kept_sequencerWatchdogOp (k : Nat) (u : Nat) (s : State) (hs : Kept s₀ s) : Kept s₀ (sequencerWatchdogOp k u s) := by
  unfold sequencerWatchdogOp
  repeat' (first
    | with_reducible assumption | with_reducible apply kept_setUnit | with_reducible apply kept_setFld
    | with_reducible apply kept_healthEvent | with_reducible apply kept_coreFault | with_reducible apply kept_partialWrites
    | with_reducible apply kept_ite | simp only [kept_mk] | split)
theorem kept_execSequencerWatchdog (core : CoreId) (unit : Fin 7) (s : State) (hs : Kept s₀ s) :
    KeptNext s₀ (execSequencerWatchdog core unit s) := by
  unfold execSequencerWatchdog
  repeat' (first
    | with_reducible assumption | with_reducible apply keptNext_next | with_reducible apply kept_sequencerWatchdogOp)
theorem kept_execTallyAdd (tally : TallyId) (amount : Half) (tag : Half) (s : State) (hs : Kept s₀ s) :
    KeptNext s₀ (execTallyAdd tally amount tag s) := by
  unfold execTallyAdd
  repeat' (first
    | with_reducible assumption | with_reducible apply keptNext_next | with_reducible apply kept_bump
    | with_reducible apply kept_tallyAddOp | with_reducible apply kept_ite)
theorem kept_postWait (s : State) (sec : Nat) (core : Nat) (c : Nat) (hs : Kept s₀ s) : Kept s₀ (postWait s sec core c) := by
  unfold postWait
  repeat' (first
    | with_reducible assumption | with_reducible apply kept_postPart)
theorem kept_waitLimitOp (k : Nat) (index : Nat) (s : State) (hs : Kept s₀ s) : Kept s₀ (waitLimitOp k index s) := by
  unfold waitLimitOp
  repeat' (first
    | with_reducible assumption | with_reducible apply kept_modCore | with_reducible apply kept_postWait
    | with_reducible apply kept_bump | with_reducible apply kept_ite | simp only [kept_mk] | split)
theorem kept_execWaitLimitReport (core : CoreId) (index : Nat) (s : State) (hs : Kept s₀ s) :
    KeptNext s₀ (execWaitLimitReport core index s) := by
  unfold execWaitLimitReport
  repeat' (first
    | with_reducible assumption | with_reducible apply keptNext_next | with_reducible apply kept_waitLimitOp)
theorem kept_tileWaitTimeout (k : Nat) (index : Nat) (s : State) (hs : Kept s₀ s) : Kept s₀ (tileWaitTimeout k index s) := by
  unfold tileWaitTimeout
  repeat' (first
    | with_reducible assumption | with_reducible apply kept_coreFault | with_reducible apply kept_bump
    | with_reducible apply kept_ite | split)
theorem kept_changeSlot (s : State) (k : Nat) (j : Nat) (choice : Bool) (hs : Kept s₀ s) : Kept s₀ (changeSlot s k j choice) := by
  unfold changeSlot
  repeat' (first
    | with_reducible assumption | with_reducible apply kept_enterSlot | with_reducible apply kept_leaveSlot
    | with_reducible apply kept_bump | with_reducible apply kept_ite | simp only [kept_mk] | split)
theorem kept_winterChange (s : State) (k : Nat) (hs : Kept s₀ s) : Kept s₀ (winterChange s k) := by
  unfold winterChange
  repeat' (first
    | with_reducible assumption | with_reducible apply kept_enterSlot | with_reducible apply kept_changeSlot
    | with_reducible apply kept_leaveSlot | with_reducible apply kept_ite | simp only [kept_mk] | split)
theorem kept_winterFill (s : State) (k : Nat) (hs : Kept s₀ s) : Kept s₀ (winterFill s k) := by
  unfold winterFill
  repeat' (first
    | with_reducible assumption | with_reducible apply kept_changeSlot | with_reducible apply kept_ite
    | simp only [kept_mk] | split)
theorem kept_slotChangeOp (k : Nat) (s : State) (hs : Kept s₀ s) : Kept s₀ (slotChangeOp k s) := by
  unfold slotChangeOp
  repeat' (first
    | with_reducible assumption | with_reducible apply kept_winterChange | with_reducible apply kept_enterSlot
    | with_reducible apply kept_changeSlot | with_reducible apply kept_ite | simp only [kept_mk] | split)
theorem kept_execSlotChange (core : CoreId) (s : State) (hs : Kept s₀ s) : KeptNext s₀ (execSlotChange core s) := by
  unfold execSlotChange
  repeat' (first
    | with_reducible assumption | with_reducible apply keptNext_next | with_reducible apply kept_slotChangeOp)
theorem kept_bubbleFillOp (k : Nat) (s : State) (hs : Kept s₀ s) : Kept s₀ (bubbleFillOp k s) := by
  unfold bubbleFillOp
  repeat' (first
    | with_reducible assumption | with_reducible apply kept_winterFill | with_reducible apply kept_changeSlot
    | with_reducible apply kept_ite | split)
theorem kept_execBubbleFill (core : CoreId) (s : State) (hs : Kept s₀ s) : KeptNext s₀ (execBubbleFill core s) := by
  unfold execBubbleFill
  repeat' (first
    | with_reducible assumption | with_reducible apply keptNext_next | with_reducible apply kept_bubbleFillOp)
/-! ### Launch -/

theorem kept_publishLaunch (s : State) (l : Launch) (hs : Kept s₀ s) : Kept s₀ (publishLaunch s l) := by
  unfold publishLaunch
  repeat' (first
    | with_reducible assumption | with_reducible apply kept_publish | simp only [kept_mk])
theorem kept_publishLaunches (s : State) (f : Launch → Bool) (hs : Kept s₀ s) : Kept s₀ (publishLaunches s f) := by
  unfold publishLaunches
  repeat' (first
    | with_reducible assumption | intro _ | with_reducible apply kept_forEach | with_reducible apply kept_publishLaunch)
theorem kept_launchPublishOp (c : Nat) (s : State) (hs : Kept s₀ s) : Kept s₀ (launchPublishOp c s) := by
  unfold launchPublishOp
  repeat' (first
    | with_reducible assumption | with_reducible apply kept_settle | with_reducible apply kept_publishLaunch
    | split)
theorem kept_execLaunchPublish (ctx : CtxId) (s : State) (hs : Kept s₀ s) : KeptNext s₀ (execLaunchPublish ctx s) := by
  unfold execLaunchPublish
  repeat' (first
    | with_reducible assumption | with_reducible apply keptNext_next | with_reducible apply kept_launchPublishOp)

end Sys2Proof.Machine
end

