-- ==== Sys2Proof/Laws/KeepJobs.lean ====
section
/-! SUPPORT. Routes, the optimizer, collectives and teardowns keep what every step keeps. -/

set_option maxRecDepth 4000
set_option linter.unusedSimpArgs false
set_option linter.unusedVariables false

namespace Sys2Proof.Machine

variable {s₀ : State}

/-! ### Route -/

theorem kept_spoilCells (s : State) (rs : List (Nat × Nat)) (cells : List Cell) (hs : Kept s₀ s) : Kept s₀ (spoilCells s rs cells).1 := by
  unfold spoilCells
  repeat' (first
    | with_reducible assumption | intro _ | with_reducible apply kept_freeDraw | with_reducible apply kept_foldlFst
    | simp only [kept_mk] | split)
theorem kept_statusCells (s : State) (b : List Byte) (o : RouteOut) (hs : Kept s₀ s) : Kept s₀ (statusCells s b o).1 := by
  unfold statusCells
  repeat' (first
    | with_reducible assumption | with_reducible apply kept_freeDraw | simp only [kept_mk] | split)
theorem kept_routeFault (s : State) (sec : Nat) (j : Job) (cause : Nat) (pos : Nat) (poison : Bool) (hs : Kept s₀ s) :
    Kept s₀ (routeFault s sec j cause pos poison) := by
  unfold routeFault
  repeat' (first
    | with_reducible assumption | with_reducible apply kept_setRaw | with_reducible apply kept_endFault
    | with_reducible apply kept_ite)
theorem kept_routeGrants (s : State) (p : Nat) (hs : Kept s₀ s) : Kept s₀ (routeGrants s p) := by
  unfold routeGrants
  repeat' (first
    | with_reducible assumption | with_reducible apply kept_freeDraw | with_reducible apply kept_bump
    | with_reducible apply kept_ite)
theorem kept_routeStops (s : State) (sec : Nat) (j : Job) (words : Nat) (cells : List Cell) (cause : Nat) (pos : Nat) (poison : Bool) (hs : Kept s₀ s) :
    Kept s₀ (routeStops s sec j words cells cause pos poison) := by
  unfold routeStops
  repeat' (first
    | with_reducible assumption | with_reducible apply kept_partialWrites | with_reducible apply kept_freeDraw
    | with_reducible apply kept_routeFault | with_reducible apply kept_bump)
theorem kept_routeIssued (s : State) (sec : Nat) (j : Job) (hs : Kept s₀ s) : Kept s₀ (routeIssued s sec j) := by
  unfold routeIssued
  repeat' (first
    | with_reducible assumption | with_reducible apply kept_modEngine)
theorem kept_routeDescriptorOp (sec : Nat) (s : State) (hs : Kept s₀ s) : Kept s₀ (routeDescriptorOp sec s) := by
  unfold routeDescriptorOp
  repeat' (first
    | with_reducible assumption | with_reducible apply kept_takeDesc | with_reducible apply kept_routeFault
    | with_reducible apply kept_readAll | with_reducible apply kept_routeGrants | with_reducible apply kept_spoilCells
    | with_reducible apply kept_routeStops | with_reducible apply kept_statusCells | with_reducible apply kept_writeCells
    | with_reducible apply kept_bump | with_reducible apply kept_routeIssued | with_reducible apply kept_ite
    | (with_reducible refine kept_fst (by with_reducible assumption) ?_) | simp only [kept_mk] | split)
theorem kept_execRouteDescriptor (sec : Sec) (hits : List Hit) (s : State) (hs : Kept s₀ s) :
    KeptNext s₀ (execRouteDescriptor sec hits s) := by
  unfold execRouteDescriptor
  repeat' (first
    | with_reducible assumption | with_reducible apply keptNext_next | with_reducible apply kept_routeDescriptorOp
    | with_reducible apply kept_upsetWords)
theorem kept_routePast (s : State) (sec : Nat) (hs : Kept s₀ s) : Kept s₀ (routePast s sec) := by
  unfold routePast
  repeat' (first
    | with_reducible assumption | with_reducible apply kept_modEngine)
theorem kept_routeEnd (s : State) (sec : Nat) (hs : Kept s₀ s) : Kept s₀ (routeEnd s sec) := by
  unfold routeEnd
  repeat' (first
    | with_reducible assumption | intro _ | with_reducible apply kept_poisonTensors | with_reducible apply kept_addNf
    | with_reducible apply kept_applyDeltas | with_reducible apply kept_routePast | with_reducible apply kept_endCounted
    | with_reducible apply kept_bump | simp only [kept_mk] | split)
theorem kept_execRouteComplete (sec : Sec) (s : State) (hs : Kept s₀ s) : KeptNext s₀ (execRouteComplete sec s) := by
  unfold execRouteComplete
  repeat' (first
    | with_reducible assumption | with_reducible apply keptNext_next | with_reducible apply kept_routeEnd
    | with_reducible apply kept_ite)
theorem kept_execRouteWatchdog (sec : Sec) (s : State) (hs : Kept s₀ s) : KeptNext s₀ (execRouteWatchdog sec s) := by
  unfold execRouteWatchdog
  repeat' (first
    | with_reducible assumption | with_reducible apply keptNext_next | with_reducible apply kept_healthEvent
    | with_reducible apply kept_setFld | with_reducible apply kept_routePast | with_reducible apply kept_freeDraw
    | with_reducible apply kept_routeFault | with_reducible apply kept_ite | simp only [kept_mk] | split)
/-! ### Optimizer -/

theorem kept_writeScaleRow (s : State) (p : Nat) (g : Gate) (hs : Kept s₀ s) : Kept s₀ (writeScaleRow s p g) := by
  unfold writeScaleRow
  repeat' (first
    | with_reducible assumption | with_reducible apply kept_writeMem | with_reducible apply kept_ite)
theorem kept_clearNf (s : State) (c : Nat) (hs : Kept s₀ s) : Kept s₀ (clearNf s c) := by
  unfold clearNf
  repeat' (first
    | with_reducible assumption | with_reducible apply kept_modCtx)
theorem kept_setStamp (s : State) (p : Nat) (id : Nat) (step : Nat) (hs : Kept s₀ s) : Kept s₀ (setStamp s p id step) := by
  unfold setStamp
  repeat' (first
    | with_reducible assumption | with_reducible apply kept_modTensor | with_reducible apply kept_ite)
theorem kept_setStamps (s : State) (p : Nat) (b : List Byte) (hs : Kept s₀ s) : Kept s₀ (setStamps s p b) := by
  unfold setStamps
  repeat' (first
    | with_reducible assumption | intro _ | with_reducible apply kept_forEach | with_reducible apply kept_setStamp)
theorem kept_obeyGate (s : State) (sec : Nat) (j : Job) (g : Gate) (hs : Kept s₀ s) : Kept s₀ (obeyGate s sec j g) := by
  unfold obeyGate
  repeat' (first
    | with_reducible assumption | with_reducible apply kept_putJob | with_reducible apply kept_setStamps)
theorem kept_gateDecisionOp (sec : Nat) (s : State) (hs : Kept s₀ s) : Kept s₀ (gateDecisionOp sec s) := by
  unfold gateDecisionOp
  repeat' (first
    | with_reducible assumption | with_reducible apply kept_obeyGate | with_reducible apply kept_endFault
    | with_reducible apply kept_readMem | with_reducible apply kept_writeScaleRow | with_reducible apply kept_setGate
    | with_reducible apply kept_clearNf | with_reducible apply kept_ite | simp only [kept_mk] | split)
theorem kept_execGateDecision (sec : Sec) (s : State) (hs : Kept s₀ s) : KeptNext s₀ (execGateDecision sec s) := by
  unfold execGateDecision
  repeat' (first
    | with_reducible assumption | with_reducible apply keptNext_next | with_reducible apply kept_gateDecisionOp)
theorem kept_optTake (s : State) (sec : Nat) (hs : Kept s₀ s) : Kept s₀ (optTake s sec) := by
  unfold optTake
  repeat' (first
    | with_reducible assumption | with_reducible apply kept_takeDesc | with_reducible apply kept_endFault
    | with_reducible apply kept_putJob | with_reducible apply kept_ite | (with_reducible refine kept_fst (by with_reducible assumption) ?_)
    | split)
theorem kept_gateSnapshotRun (sec : Nat) (s : State) (hs : Kept s₀ s) : Kept s₀ (gateSnapshotRun sec s) := by
  unfold gateSnapshotRun
  repeat' (first
    | with_reducible assumption | with_reducible apply kept_endFault | with_reducible apply kept_writeBytes
    | with_reducible apply kept_endDone | with_reducible apply kept_clearNf | with_reducible apply kept_ite
    | simp only [kept_mk] | split)
theorem kept_execGateSnapshot (sec : Sec) (s : State) (hs : Kept s₀ s) : KeptNext s₀ (execGateSnapshot sec s) := by
  unfold execGateSnapshot
  repeat' (first
    | with_reducible assumption | with_reducible apply keptNext_next | with_reducible apply kept_gateSnapshotRun
    | with_reducible apply kept_optTake)
theorem kept_optCount (s : State) (sec : Nat) (j : Job) (kept : Nat) (hs : Kept s₀ s) : Kept s₀ (optCount s sec j kept) := by
  unfold optCount
  repeat' (first
    | with_reducible assumption | with_reducible apply kept_bump | with_reducible apply kept_modGate | with_reducible apply kept_ite)
theorem kept_optRun (sec : Nat) (s : State) (hs : Kept s₀ s) : Kept s₀ (optRun sec s) := by
  unfold optRun
  repeat' (first
    | with_reducible assumption | with_reducible apply kept_putJob | with_reducible apply kept_bump | with_reducible apply kept_endFault
    | with_reducible apply kept_readAll | with_reducible apply kept_freeDraw | with_reducible apply kept_partialWrites
    | with_reducible apply kept_optCount | with_reducible apply kept_writeCells | with_reducible apply kept_ite
    | simp only [kept_mk] | split)
theorem kept_execOptimizerUpdate (sec : Sec) (hits : List Hit) (s : State) (hs : Kept s₀ s) :
    KeptNext s₀ (execOptimizerUpdate sec hits s) := by
  unfold execOptimizerUpdate
  repeat' (first
    | with_reducible assumption | with_reducible apply keptNext_next | with_reducible apply kept_optRun
    | with_reducible apply kept_optTake | with_reducible apply kept_upsetWords)
theorem kept_optEnd (s : State) (sec : Nat) (j : Job) (hs : Kept s₀ s) : Kept s₀ (optEnd s sec j) := by
  unfold optEnd
  repeat' (first
    | with_reducible assumption | with_reducible apply kept_addNf | with_reducible apply kept_applyDeltas
    | with_reducible apply kept_poisonTensors | with_reducible apply kept_setStamps | with_reducible apply kept_endDone
    | with_reducible apply kept_ite)
theorem kept_optComplete (sec : Nat) (s : State) (hs : Kept s₀ s) : Kept s₀ (optComplete sec s) := by
  unfold optComplete
  repeat' (first
    | with_reducible assumption | with_reducible apply kept_optEnd | with_reducible apply kept_ite | split)
theorem kept_execOptimizerComplete (sec : Sec) (s : State) (hs : Kept s₀ s) : KeptNext s₀ (execOptimizerComplete sec s) := by
  unfold execOptimizerComplete
  repeat' (first
    | with_reducible assumption | with_reducible apply keptNext_next | with_reducible apply kept_optComplete)
theorem kept_execOptimizerWatchdog (sec : Sec) (s : State) (hs : Kept s₀ s) : KeptNext s₀ (execOptimizerWatchdog sec s) := by
  unfold execOptimizerWatchdog
  repeat' (first
    | with_reducible assumption | with_reducible apply keptNext_next | with_reducible apply kept_engineWatchdog
    | with_reducible apply kept_partialWrites | with_reducible apply kept_ite | simp only [kept_mk] | split)
/-! ### Collective -/

theorem kept_peerPlace (s : State) (hs : Kept s₀ s) : Kept s₀ (peerPlace s).1 := by
  unfold peerPlace
  repeat' (first
    | with_reducible assumption | with_reducible apply kept_freeDraw)
theorem kept_collWrite (s : State) (l : Nat) (ctx : Nat) (epoch : Nat) (w : PeerPlace) (skip : Nat) (data : List Byte) (add : Nat) (hs : Kept s₀ s) :
    Kept s₀ (collWrite s l ctx epoch w skip data add) := by
  unfold collWrite
  repeat' (first
    | with_reducible assumption | with_reducible apply kept_sendMsgs)
theorem kept_routeChunk (s : State) (e : CEnv) (c : StagedChunk) (hs : Kept s₀ s) : Kept s₀ (routeChunk s e c) := by
  unfold routeChunk
  repeat' (first
    | with_reducible assumption | with_reducible apply kept_bump | with_reducible apply kept_peerPlace
    | with_reducible apply kept_collWrite | with_reducible apply kept_addOpenCause | with_reducible apply kept_modComm
    | with_reducible apply kept_ite | simp only [kept_mk] | split)
theorem kept_pumpChunks (s : State) (e : CEnv) (l : List StagedChunk) (hs : Kept s₀ s) : Kept s₀ (pumpChunks s e l).1 := by
  unfold pumpChunks
  repeat' (first
    | with_reducible assumption | intro _ | with_reducible apply kept_modComm | with_reducible apply kept_routeChunk
    | with_reducible apply kept_foldlFst | simp only [kept_mk] | split)
theorem kept_returnSlot (s : State) (e : CEnv) (table : Nat) (peer : Nat) (hs : Kept s₀ s) : Kept s₀ (returnSlot s e table peer) := by
  unfold returnSlot
  repeat' (first
    | with_reducible assumption | with_reducible apply kept_peerPlace | with_reducible apply kept_collWrite
    | with_reducible apply kept_modComm | with_reducible apply kept_ite | simp only [kept_mk] | split)
theorem kept_fillSlot (s : State) (x : Comm) (c : StagedSlot) (k : StagedChunk) (hs : Kept s₀ s) : Kept s₀ (fillSlot s x c k) := by
  unfold fillSlot
  repeat' (first
    | with_reducible assumption | with_reducible apply kept_storeBytes)
theorem kept_readSlot (s : State) (x : Comm) (c : StagedSlot) (hs : Kept s₀ s) : Kept s₀ (readSlot s x c).1 := by
  unfold readSlot
  repeat' (first
    | with_reducible assumption | with_reducible apply kept_readMem)
theorem kept_readSlots (s : State) (x : Comm) (l : List StagedSlot) (hs : Kept s₀ s) : Kept s₀ (readSlots s x l).1 := by
  unfold readSlots
  repeat' (first
    | with_reducible assumption | intro _ | with_reducible apply kept_readSlot | with_reducible apply kept_foldlFst)
theorem kept_takeChunk (s : State) (e : CEnv) (c : StagedSlot) (n : Nat) (hs : Kept s₀ s) : Kept s₀ (takeChunk s e c n) := by
  unfold takeChunk
  repeat' (first
    | with_reducible assumption | with_reducible apply kept_modComm | with_reducible apply kept_returnSlot
    | with_reducible apply kept_bump)
theorem kept_checkStamp (s : State) (e : CEnv) (o : Nat) (stamp : Nat) (hs : Kept s₀ s) : Kept s₀ (checkStamp s e o stamp) := by
  unfold checkStamp
  repeat' (first
    | with_reducible assumption | with_reducible apply kept_writeBytes | with_reducible apply kept_bump
    | with_reducible apply kept_modGate | with_reducible apply kept_ite)
theorem kept_storeReduced (a : CStep) (e : CEnv) (pos : Nat) (first : Nat) (vs : List Val) (no : Nat) (ha : Kept s₀ a.s) :
    Kept s₀ (storeReduced a e pos first vs no).s := by
  unfold storeReduced
  repeat' (first
    | with_reducible assumption | with_reducible apply kept_writeCells | with_reducible apply kept_iteC)
theorem kept_storeMoved (a : CStep) (e : CEnv) (k : CChunk) (pos : Nat) (skip : Nat) (n : Nat) (data : List Byte) (ha : Kept s₀ a.s) :
    Kept s₀ (storeMoved a e k pos skip n data).s := by
  unfold storeMoved
  repeat' (first
    | with_reducible assumption | with_reducible apply kept_writeCells | with_reducible apply kept_iteC)
theorem kept_deliver (a : CStep) (e : CEnv) (st : CStage) (k : CChunk) (stamp : Nat) (data : List Byte) (ha : Kept s₀ a.s) :
    Kept s₀ (deliver a e st k stamp data).s := by
  unfold deliver
  repeat' (first
    | with_reducible assumption | with_reducible apply kept_storeMoved | with_reducible apply kept_setStamp
    | with_reducible apply kept_storeReduced | with_reducible apply kept_checkStamp | with_reducible apply kept_iteC
    | simp only [kept_mk] | split)
theorem kept_storeWhole (a : CStep) (e : CEnv) (st : CStage) (ha : Kept s₀ a.s) : Kept s₀ (storeWhole a e st).s := by
  unfold storeWhole
  repeat' (first
    | with_reducible assumption | with_reducible apply kept_storeReduced | with_reducible apply kept_iteC)
theorem kept_sendChunk (a : CStep) (e : CEnv) (st : CStage) (k : CChunk) (stamp : Nat) (phase : Nat) (peer : Nat) (data : List Byte) (ha : Kept s₀ a.s) :
    Kept s₀ (sendChunk a e st k stamp phase peer data).s := by
  unfold sendChunk
  repeat' (first
    | with_reducible assumption)
theorem kept_goDownWith (a : CStep) (e : CEnv) (st : CStage) (k : CChunk) (stamp : Nat) (from_ : List Nat) (data : List Byte) (ha : Kept s₀ a.s) :
    Kept s₀ (goDownWith a e st k stamp from_ data).s := by
  unfold goDownWith
  repeat' (first
    | with_reducible assumption | intro _ | with_reducible apply kept_sendChunk | with_reducible apply kept_deliver
    | with_reducible apply kept_foldlC | with_reducible apply kept_iteC)
theorem kept_upAction (a : CStep) (e : CEnv) (st : CStage) (k : CChunk) (from_ : List Nat) (child : List StagedChunk) (ha : Kept s₀ a.s) :
    Kept s₀ (upAction a e st k from_ child).s := by
  unfold upAction
  repeat' (first
    | with_reducible assumption | with_reducible apply kept_sendChunk | with_reducible apply kept_goDownWith
    | with_reducible apply kept_iteC | simp only [kept_mk] | split)
theorem kept_tryUp {a b : CStep} {e : CEnv} {st : CStage} {t : Nat} (ha : Kept s₀ a.s) (h : tryUp a e st t = some b) : Kept s₀ b.s := by
  unfold tryUp at h
  split at h
  · cases h
  · dsimp only at h
    split at h
    · cases h
    · have h2 := fun l => kept_readSlots a.s e.x l ha
      split at h
      · cases h; exact h2 _
      · cases h; exact h2 _
      · cases h
        exact kept_upAction _ _ _ _ _ _ (kept_foldl (h2 _) (fun t c ht => kept_takeChunk t _ _ _ ht))
theorem kept_tryDown {a b : CStep} {e : CEnv} {st : CStage} {t : Nat} (ha : Kept s₀ a.s) (h : tryDown a e st t = some b) : Kept s₀ b.s := by
  unfold tryDown at h
  split at h
  · cases h
  · split at h
    · cases h
    · next slot _ =>
      split at h
      · cases h
      · have h2 := kept_readSlot a.s e.x slot ha
        dsimp only at h
        split at h
        · cases h; exact h2
        · cases h; exact h2
        · cases h; exact kept_goDownWith _ _ _ _ _ _ _ (kept_takeChunk _ _ _ _ h2)
theorem kept_collLoop (e : CEnv) (n : Nat) (a : CStep) (ha : Kept s₀ a.s) : Kept s₀ (collLoop e n a).s := by
  induction n generalizing a with
  | zero => exact ha
  | succ n ih =>
    unfold collLoop
    split
    · exact ha
    · split
      · exact ha
      · split
        · exact ih _ (kept_storeWhole _ _ _ ha)
        · split
          · next h =>
            obtain ⟨t, _, ht⟩ := List.exists_of_findSome?_eq_some h
            refine ih _ ?_
            cases hu : tryUp a e _ t with
            | some x => rw [hu] at ht; cases ht; exact kept_tryUp ha hu
            | none => rw [hu] at ht; exact kept_tryDown ha ht
          · exact ha
theorem kept_collUnhold (s : State) (sec : Nat) (p : Nat) (hs : Kept s₀ s) : Kept s₀ (collUnhold s sec p) := by
  unfold collUnhold
  repeat' (first
    | with_reducible assumption | with_reducible apply kept_dropCauses)
theorem kept_collStop (s : State) (sec : Nat) (j : Job) (hs : Kept s₀ s) : Kept s₀ (collStop s sec j) := by
  unfold collStop
  repeat' (first
    | with_reducible assumption | with_reducible apply kept_endStopped | with_reducible apply kept_addNf
    | with_reducible apply kept_applyDeltas | with_reducible apply kept_collUnhold)
theorem kept_collFault (s : State) (sec : Nat) (j : Job) (cause : Nat) (no : Nat) (poison : Bool) (hs : Kept s₀ s) :
    Kept s₀ (collFault s sec j cause no poison) := by
  unfold collFault
  repeat' (first
    | with_reducible assumption | with_reducible apply kept_setRaw | with_reducible apply kept_endFault
    | with_reducible apply kept_addNf | with_reducible apply kept_applyDeltas | with_reducible apply kept_collUnhold
    | with_reducible apply kept_ite)
theorem kept_collWait (s : State) (sec : Nat) (e : CEnv) (j : Job) (hs : Kept s₀ s) : Kept s₀ (collWait s sec e j) := by
  unfold collWait
  repeat' (first
    | with_reducible assumption | with_reducible apply kept_addOpenCause | with_reducible apply kept_collUnhold
    | with_reducible apply kept_putJob | with_reducible apply kept_ite)
theorem kept_collRun (s : State) (sec : Nat) (hs : Kept s₀ s) : Kept s₀ (collRun s sec) := by
  unfold collRun
  repeat' (first
    | with_reducible assumption | with_reducible apply kept_collLoop | with_reducible apply kept_collFault
    | with_reducible apply kept_pumpChunks | with_reducible apply kept_putJob | with_reducible apply kept_collUnhold
    | with_reducible apply kept_collWait | with_reducible apply kept_ite | simp only [kept_mk] | split)
theorem kept_collProgress (s : State) (sec : Nat) (hs : Kept s₀ s) : Kept s₀ (collProgress s sec) := by
  unfold collProgress
  repeat' (first
    | with_reducible assumption | with_reducible apply kept_collRun | with_reducible apply kept_collUnhold
    | with_reducible apply kept_ite | simp only [kept_mk] | split)
theorem kept_collResume (s : State) (hs : Kept s₀ s) : Kept s₀ (collResume s) := by
  unfold collResume
  repeat' (first
    | with_reducible assumption | intro _ | with_reducible apply kept_forEach | with_reducible apply kept_collProgress
    | with_reducible apply kept_ite | split)
theorem kept_collDescriptorOp (sec : Nat) (s : State) (hs : Kept s₀ s) : Kept s₀ (collDescriptorOp sec s) := by
  unfold collDescriptorOp
  repeat' (first
    | with_reducible assumption | with_reducible apply kept_takeDesc | with_reducible apply kept_endStopped
    | with_reducible apply kept_bump | with_reducible apply kept_modComm | with_reducible apply kept_collFault
    | with_reducible apply kept_readAll | with_reducible apply kept_checkStamp | with_reducible apply kept_collProgress
    | with_reducible apply kept_putJob | with_reducible apply kept_ite | (with_reducible refine kept_fst (by with_reducible assumption) ?_)
    | simp only [kept_mk] | split)
theorem kept_execCollectiveDescriptor (sec : Sec) (hits : List Hit) (s : State) (hs : Kept s₀ s) :
    KeptNext s₀ (execCollectiveDescriptor sec hits s) := by
  unfold execCollectiveDescriptor
  repeat' (first
    | with_reducible assumption | with_reducible apply keptNext_next | with_reducible apply kept_collDescriptorOp
    | with_reducible apply kept_upsetWords)
theorem kept_chunkArrivalOp (sec : Nat) (k : Nat) (table : Nat) (peer : Nat) (s : State) (hs : Kept s₀ s) :
    Kept s₀ (chunkArrivalOp sec k table peer s) := by
  unfold chunkArrivalOp
  repeat' (first
    | with_reducible assumption | with_reducible apply kept_collProgress | with_reducible apply kept_setComm
    | with_reducible apply kept_fillSlot | with_reducible apply kept_tallyAddOp | with_reducible apply kept_ite
    | simp only [kept_mk] | split)
theorem kept_execChunkArrival (sec : Sec) (comm : Fin 64) (tree : Fin 8) (peer : Peer) (headerHits dataHits : List Hit) (s : State) (hs : Kept s₀ s) :
    KeptNext s₀ (execChunkArrival sec comm tree peer headerHits dataHits s) := by
  unfold execChunkArrival
  repeat' (first
    | with_reducible assumption | with_reducible apply keptNext_next | with_reducible apply kept_chunkArrivalOp
    | with_reducible apply kept_upsetWords)
theorem kept_chunkCreditOp (sec : Nat) (k : Nat) (table : Nat) (peer : Nat) (s : State) (hs : Kept s₀ s) :
    Kept s₀ (chunkCreditOp sec k table peer s) := by
  unfold chunkCreditOp
  repeat' (first
    | with_reducible assumption | with_reducible apply kept_collProgress | with_reducible apply kept_setComm
    | with_reducible apply kept_tallyAddOp | with_reducible apply kept_ite)
theorem kept_execChunkCreditReturn (sec : Sec) (comm : Fin 64) (tree : Fin 8) (peer : Peer) (s : State) (hs : Kept s₀ s) :
    KeptNext s₀ (execChunkCreditReturn sec comm tree peer s) := by
  unfold execChunkCreditReturn
  repeat' (first
    | with_reducible assumption | with_reducible apply keptNext_next | with_reducible apply kept_chunkCreditOp)
theorem kept_collEnd (s : State) (sec : Nat) (j : Job) (hs : Kept s₀ s) : Kept s₀ (collEnd s sec j) := by
  unfold collEnd
  repeat' (first
    | with_reducible assumption | intro _ | with_reducible apply kept_storeBytes | with_reducible apply kept_poisonTensors
    | with_reducible apply kept_addNf | with_reducible apply kept_applyDeltas | with_reducible apply kept_endCounted
    | with_reducible apply kept_bump | with_reducible apply kept_ite)
theorem kept_collCompleteOp (sec : Nat) (s : State) (hs : Kept s₀ s) : Kept s₀ (collCompleteOp sec s) := by
  unfold collCompleteOp
  repeat' (first
    | with_reducible assumption | with_reducible apply kept_collEnd | with_reducible apply kept_ite | split)
theorem kept_execCollectiveComplete (sec : Sec) (s : State) (hs : Kept s₀ s) : KeptNext s₀ (execCollectiveComplete sec s) := by
  unfold execCollectiveComplete
  repeat' (first
    | with_reducible assumption | with_reducible apply keptNext_next | with_reducible apply kept_collCompleteOp)
theorem kept_staleComms (s : State) (g : Nat) (hs : Kept s₀ s) : Kept s₀ (staleComms s g) := by
  unfold staleComms
  repeat' (first
    | with_reducible assumption | intro _ | with_reducible apply kept_forEach | with_reducible apply kept_modComm
    | with_reducible apply kept_collStop | with_reducible apply kept_bump | with_reducible apply kept_ite
    | simp only [kept_mk] | split)
theorem kept_execCollWaitReport (sec : Sec) (s : State) (hs : Kept s₀ s) : KeptNext s₀ (execCollWaitReport sec s) := by
  unfold execCollWaitReport
  repeat' (first
    | with_reducible assumption | with_reducible apply keptNext_next | with_reducible apply kept_postWait
    | with_reducible apply kept_putJob | with_reducible apply kept_bump | with_reducible apply kept_ite
    | split)
theorem kept_execWaitTimeout (site : WaitSite) (s : State) (hs : Kept s₀ s) : KeptNext s₀ (execWaitTimeout site s) := by
  unfold execWaitTimeout
  repeat' (first
    | with_reducible assumption | with_reducible apply keptNext_next | with_reducible apply kept_tileWaitTimeout
    | with_reducible apply kept_collFault | with_reducible apply kept_bump | with_reducible apply kept_ctxFault
    | split)
/-! ### Teardown -/

theorem kept_endJob (s : State) (kind : Nat) (unit : Nat) (j : Job) (hs : Kept s₀ s) : Kept s₀ (endJob s kind unit j) := by
  unfold endJob
  repeat' (first
    | with_reducible assumption | with_reducible apply kept_collEnd | with_reducible apply kept_optEnd
    | with_reducible apply kept_endDone | split)
theorem kept_stopJob (s : State) (kind : Nat) (unit : Nat) (hs : Kept s₀ s) : Kept s₀ (stopJob s kind unit) := by
  unfold stopJob
  repeat' (first
    | with_reducible assumption | with_reducible apply kept_dropCauses | with_reducible apply kept_endStopped
    | with_reducible apply kept_dropUnsent | with_reducible apply kept_endJob | with_reducible apply kept_collStop
    | with_reducible apply kept_ite | simp only [kept_mk] | split)
theorem kept_endPast (s : State) (k : Nat) (f : Job → Bool) (hs : Kept s₀ s) : Kept s₀ (endPast s k f) := by
  unfold endPast
  repeat' (first
    | with_reducible assumption | intro _ | with_reducible apply kept_forEach | with_reducible apply kept_routeEnd)
theorem kept_stopJobs (s : State) (f : Job → Bool) (hs : Kept s₀ s) : Kept s₀ (stopJobs s f) := by
  unfold stopJobs
  repeat' (first
    | with_reducible assumption | intro _ | with_reducible apply kept_forEach | with_reducible apply kept_endPast
    | with_reducible apply kept_stopJob)
theorem kept_restoreHome (s : State) (m : Model) (hs : Kept s₀ s) : Kept s₀ (restoreHome s m) := by
  unfold restoreHome
  repeat' (first
    | with_reducible assumption | intro _ | with_reducible apply kept_forEach | with_reducible apply kept_modTensor)
theorem kept_beginEvict (s : State) (k : Nat) (hs : Kept s₀ s) : Kept s₀ (beginEvict s k) := by
  unfold beginEvict
  repeat' (first
    | with_reducible assumption | with_reducible apply kept_restoreHome | with_reducible apply kept_setModel
    | with_reducible apply kept_ite)
theorem kept_freeUnits (s : State) (k : Nat) (hs : Kept s₀ s) : Kept s₀ (freeUnits s k) := by
  unfold freeUnits
  repeat' (first
    | with_reducible assumption | with_reducible apply kept_setModel)
theorem kept_breakModels (s : State) (p : Nat) (hs : Kept s₀ s) : Kept s₀ (breakModels s p) := by
  unfold breakModels
  repeat' (first
    | with_reducible assumption | intro _ | with_reducible apply kept_forEach | with_reducible apply kept_beginEvict
    | with_reducible apply kept_setModel | with_reducible apply kept_ite)
theorem kept_destroyModels (s : State) (p : Nat) (hs : Kept s₀ s) : Kept s₀ (destroyModels s p) := by
  unfold destroyModels
  repeat' (first
    | with_reducible assumption | intro _ | with_reducible apply kept_forEach | with_reducible apply kept_setModel)
theorem kept_restoreCtxTensors (s : State) (p : Nat) (c : Nat) (hs : Kept s₀ s) : Kept s₀ (restoreCtxTensors s p c) := by
  unfold restoreCtxTensors
  repeat' (first
    | with_reducible assumption | intro _ | with_reducible apply kept_forEach | with_reducible apply kept_beginEvict
    | with_reducible apply kept_ite)
theorem kept_destroyObjects (s : State) (c : Nat) (hs : Kept s₀ s) : Kept s₀ (destroyObjects s c) := by
  unfold destroyObjects
  repeat' (first
    | with_reducible assumption | intro _ | with_reducible apply kept_restoreCtxTensors | with_reducible apply kept_forEach
    | with_reducible apply kept_setQueue | with_reducible apply kept_setSlot | with_reducible apply kept_modCore
    | with_reducible apply kept_pruneTokens | with_reducible apply kept_breakModels | with_reducible apply kept_ite
    | simp only [kept_mk])
theorem kept_lateArrivals (s : State) (hs : Kept s₀ s) : Kept s₀ (lateArrivals s) := by
  unfold lateArrivals
  repeat' (first
    | with_reducible assumption | with_reducible apply kept_freeDraw | with_reducible apply kept_bump)
theorem kept_teardownCtx (s : State) (c : Nat) (hs : Kept s₀ s) : Kept s₀ (teardownCtx s c) := by
  unfold teardownCtx
  repeat' (first
    | with_reducible assumption | with_reducible apply kept_abandonTallies | with_reducible apply kept_stopJobs
    | with_reducible apply kept_publishLaunches | with_reducible apply kept_destroyObjects | with_reducible apply kept_modCtx
    | with_reducible apply kept_settle | with_reducible apply kept_bump | with_reducible apply kept_lateArrivals)
theorem kept_contextTeardownOp (c : Nat) (s : State) (hs : Kept s₀ s) : Kept s₀ (contextTeardownOp c s) := by
  unfold contextTeardownOp
  repeat' (first
    | with_reducible assumption | with_reducible apply kept_teardownCtx | with_reducible apply kept_ite)
theorem kept_execContextTeardown (ctx : CtxId) (s : State) (hs : Kept s₀ s) : KeptNext s₀ (execContextTeardown ctx s) := by
  unfold execContextTeardown
  repeat' (first
    | with_reducible assumption | with_reducible apply keptNext_next | with_reducible apply kept_contextTeardownOp)
theorem kept_partAdvance (s : State) (p : Nat) (hs : Kept s₀ s) : Kept s₀ (partAdvance s p) := by
  unfold partAdvance
  repeat' (first
    | with_reducible assumption | with_reducible apply kept_modPart | with_reducible apply kept_ite)
theorem kept_freeCtx (s : State) (c : Nat) (hs : Kept s₀ s) : Kept s₀ (freeCtx s c) := by
  unfold freeCtx
  repeat' (first
    | with_reducible assumption | with_reducible apply kept_setCtx | with_reducible apply kept_settle
    | with_reducible apply kept_partAdvance | simp only [kept_mk])
theorem kept_execDrainTimerExpiry (ctx : CtxId) (s : State) (hs : Kept s₀ s) : KeptNext s₀ (execDrainTimerExpiry ctx s) := by
  unfold execDrainTimerExpiry
  repeat' (first
    | with_reducible assumption | with_reducible apply keptNext_next | with_reducible apply kept_freeCtx
    | with_reducible apply kept_ite)
theorem kept_partResetOp (s : State) (p : Nat) (hs : Kept s₀ s) : Kept s₀ (partResetOp s p) := by
  unfold partResetOp
  repeat' (first
    | with_reducible assumption | intro _ | with_reducible apply kept_flushPart | with_reducible apply kept_forEach
    | with_reducible apply kept_clearLoam | with_reducible apply kept_resetSectionRegs | with_reducible apply kept_clearUnits
    | with_reducible apply kept_clearRegs | with_reducible apply kept_destroyModels | with_reducible apply kept_modPart
    | with_reducible apply kept_bump | simp only [kept_mk])
theorem kept_releaseFns (s : State) (p : Nat) (hs : Kept s₀ s) : Kept s₀ (releaseFns s p) := by
  unfold releaseFns
  repeat' (first
    | with_reducible assumption | intro _ | with_reducible apply kept_forEach | with_reducible apply kept_modFn)
theorem kept_freePart (s : State) (p : Nat) (hs : Kept s₀ s) : Kept s₀ (freePart s p) := by
  unfold freePart
  repeat' (first
    | with_reducible assumption | with_reducible apply kept_settle | with_reducible apply kept_pruneTokens
    | with_reducible apply kept_releaseFns | with_reducible apply kept_setPart)
theorem kept_partitionResetDoneOp (p : Nat) (s : State) (hs : Kept s₀ s) : Kept s₀ (partitionResetDoneOp p s) := by
  unfold partitionResetDoneOp
  repeat' (first
    | with_reducible assumption | with_reducible apply kept_partResetOp | with_reducible apply kept_modPart
    | with_reducible apply kept_startAutumn | with_reducible apply kept_freePart | with_reducible apply kept_settle
    | with_reducible apply kept_ite | simp only [kept_mk] | split)
theorem kept_execPartitionResetDone (p : PartId) (s : State) (hs : Kept s₀ s) : KeptNext s₀ (execPartitionResetDone p s) := by
  unfold execPartitionResetDone
  repeat' (first
    | with_reducible assumption | with_reducible apply keptNext_next | with_reducible apply kept_partitionResetDoneOp)
theorem kept_appendHandover (s : State) (r : List Byte) (hs : Kept s₀ s) : Kept s₀ (appendHandover s r) := by
  unfold appendHandover
  repeat' (first
    | with_reducible assumption | simp only [kept_mk] | simp only [kept_mkFlash])
theorem kept_scrubPart (s : State) (p : Nat) (hs : Kept s₀ s) : Kept s₀ (scrubPart s p) := by
  unfold scrubPart
  repeat' (first
    | with_reducible assumption | intro _ | with_reducible apply kept_forEach | with_reducible apply kept_clearUnits
    | with_reducible apply kept_clearLoam | with_reducible apply kept_clearHbm | with_reducible apply kept_modLink)
theorem kept_scrubCompleteOp (p : Nat) (s : State) (hs : Kept s₀ s) : Kept s₀ (scrubCompleteOp p s) := by
  unfold scrubCompleteOp
  repeat' (first
    | with_reducible assumption | with_reducible apply kept_scrubPart | with_reducible apply kept_freePart
    | with_reducible apply kept_appendHandover | with_reducible apply kept_destroyModels | with_reducible apply kept_releaseFns
    | with_reducible apply kept_settle | with_reducible apply kept_modPart | with_reducible apply kept_ite
    | simp only [kept_mk] | simp only [kept_mkFlash])
theorem kept_execScrubComplete (p : PartId) (s : State) (hs : Kept s₀ s) : KeptNext s₀ (execScrubComplete p s) := by
  unfold execScrubComplete
  repeat' (first
    | with_reducible assumption | with_reducible apply keptNext_next | with_reducible apply kept_scrubCompleteOp)
theorem kept_partitionFatalOp (sec : Nat) (cause : PartFatal) (s : State) (hs : Kept s₀ s) : Kept s₀ (partitionFatalOp sec cause s) := by
  unfold partitionFatalOp
  repeat' (first
    | with_reducible assumption | with_reducible apply kept_modPart | with_reducible apply kept_setFltLast
    | with_reducible apply kept_escalatePart | with_reducible apply kept_beginPartReset | with_reducible apply kept_ite
    | simp only [kept_mk] | split)
theorem kept_execPartitionFatal (sec : Sec) (cause : PartFatal) (s : State) (hs : Kept s₀ s) :
    KeptNext s₀ (execPartitionFatal sec cause s) := by
  unfold execPartitionFatal
  repeat' (first
    | with_reducible assumption | with_reducible apply keptNext_next | with_reducible apply kept_partitionFatalOp)
theorem kept_closeQueue (s : State) (q : Nat) (hs : Kept s₀ s) : Kept s₀ (closeQueue s q) := by
  unfold closeQueue
  repeat' (first
    | with_reducible assumption | with_reducible apply kept_pruneTokens | with_reducible apply kept_modFn
    | with_reducible apply kept_setQueue | with_reducible apply kept_ite)
theorem kept_queueDrainEndOp (q : Nat) (s : State) (hs : Kept s₀ s) : Kept s₀ (queueDrainEndOp q s) := by
  unfold queueDrainEndOp
  repeat' (first
    | with_reducible assumption | with_reducible apply kept_flushQueue | with_reducible apply kept_stopJobs
    | with_reducible apply kept_modQueue | with_reducible apply kept_settle | with_reducible apply kept_closeQueue
    | with_reducible apply kept_ite)
theorem kept_execQueueDrainEnd (q : QueueId) (s : State) (hs : Kept s₀ s) : KeptNext s₀ (execQueueDrainEnd q s) := by
  unfold execQueueDrainEnd
  repeat' (first
    | with_reducible assumption | with_reducible apply keptNext_next | with_reducible apply kept_queueDrainEndOp)

end Sys2Proof.Machine
end

