-- ==== Sys2Proof/Laws/KeepObjects.lean ====
section
/-! SUPPORT. Sessions, the clock, HBM, and the commands on partitions, contexts, programs and tensors keep what every step keeps. -/

set_option maxRecDepth 4000
set_option linter.unusedSimpArgs false
set_option linter.unusedVariables false

namespace Sys2Proof.Machine

variable {s₀ : State}

/-! ### CmdSession -/

theorem kept_okWith (result : Nat) (s : State) (hs : Kept s₀ s) : Kept s₀ (okWith result s).state := by
  unfold okWith
  repeat' (first
    | with_reducible assumption | with_reducible apply kept_done)
theorem kept_tdiError (s : State) (f : Nat) (hs : Kept s₀ s) : Kept s₀ (tdiError s f) := by
  unfold tdiError
  repeat' (first
    | with_reducible assumption | with_reducible apply kept_stopFnQueues | with_reducible apply kept_modFn)
theorem kept_guardTdi (c : Cmd) (s : State) (f : Nat) (o : CmdOut) (hs : Kept s₀ s) (ho : Kept s₀ o.state) :
    Kept s₀ (guardTdi c s f o).state := by
  unfold guardTdi
  repeat' (first
    | with_reducible assumption | with_reducible apply kept_done | with_reducible apply kept_tdiError
    | with_reducible apply kept_iteOut)
theorem kept_fillRing (s : State) (q : Nat) (hs : Kept s₀ s) : Kept s₀ (fillRing s q) := by
  unfold fillRing
  repeat' (first
    | with_reducible assumption | intro _ | with_reducible apply kept_forEach | with_reducible apply kept_writeArg
    | simp only [kept_mk] | split)
theorem kept_makeQueue {s t : State} {x : Queue} {q : Nat} (hs : Kept s₀ s) (e : makeQueue s x = some (q, t)) : Kept s₀ t := by
  unfold makeQueue at e
  split at e
  · cases e
  · split at e
    · cases e
    · simp only [Option.some.injEq, Prod.mk.injEq] at e
      obtain ⟨rfl, rfl⟩ := e
      exact kept_fillRing _ _ (kept_setQueue _ _ _ (kept_pickIndex (kept_pickIndex hs (by assumption)) (by assumption)))
theorem kept_effectHello (c : Cmd) (s : State) (hs : Kept s₀ s) : Kept s₀ (effectHello c s).state := by
  unfold effectHello
  repeat' (first
    | with_reducible assumption | with_reducible apply kept_okWith | with_reducible apply kept_modFn)
theorem kept_execHello (rq : Req) (arg : BitVec 48) (s : State) (hs : Kept s₀ s) : KeptNext s₀ (execHello rq arg s) := by
  unfold execHello
  repeat' (first
    | with_reducible assumption | intro _ | with_reducible apply keptNext_next | with_reducible apply kept_runRow
    | with_reducible apply kept_effectHello)
theorem kept_effectBye (c : Cmd) (s : State) (hs : Kept s₀ s) : Kept s₀ (effectBye c s).state := by
  unfold effectBye
  repeat' (first
    | with_reducible assumption | with_reducible apply kept_okWith | with_reducible apply kept_modFn)
theorem kept_execBye (rq : Req) (arg : BitVec 48) (s : State) (hs : Kept s₀ s) : KeptNext s₀ (execBye rq arg s) := by
  unfold execBye
  repeat' (first
    | with_reducible assumption | intro _ | with_reducible apply keptNext_next | with_reducible apply kept_runRow
    | with_reducible apply kept_effectBye)
theorem kept_effectPing (c : Cmd) (s : State) (hs : Kept s₀ s) : Kept s₀ (effectPing c s).state := by
  unfold effectPing
  repeat' (first
    | with_reducible assumption | with_reducible apply kept_done)
theorem kept_execPing (rq : Req) (arg : BitVec 48) (s : State) (hs : Kept s₀ s) : KeptNext s₀ (execPing rq arg s) := by
  unfold execPing
  repeat' (first
    | with_reducible assumption | intro _ | with_reducible apply keptNext_next | with_reducible apply kept_runRow
    | with_reducible apply kept_effectPing)
theorem kept_effectCmdqClose (c : Cmd) (s : State) (hs : Kept s₀ s) : Kept s₀ (effectCmdqClose c s).state := by
  unfold effectCmdqClose
  repeat' (first
    | with_reducible assumption | with_reducible apply kept_done | with_reducible apply kept_wait | with_reducible apply kept_stopQueue
    | with_reducible apply kept_okWith | with_reducible apply kept_pruneTokens | with_reducible apply kept_modFn
    | with_reducible apply kept_setQueue | split)
theorem kept_execCmdqClose (rq : Req) (arg : BitVec 48) (s : State) (hs : Kept s₀ s) : KeptNext s₀ (execCmdqClose rq arg s) := by
  unfold execCmdqClose
  repeat' (first
    | with_reducible assumption | intro _ | with_reducible apply keptNext_next | with_reducible apply kept_runRow
    | with_reducible apply kept_effectCmdqClose)
theorem kept_effectCmdqOpen (c : Cmd) (s : State) (hs : Kept s₀ s) : Kept s₀ (effectCmdqOpen c s).state := by
  unfold effectCmdqOpen
  repeat' (first
    | with_reducible assumption | with_reducible apply kept_done | with_reducible apply kept_modFn | (refine kept_makeQueue ?_ (by with_reducible assumption))
    | simp only [kept_mk] | split)
theorem kept_execCmdqOpen (rq : Req) (ring : Word) (n : Word) (cq : Word) (m : Word) (vector : Word) (s : State) (hs : Kept s₀ s) :
    KeptNext s₀ (execCmdqOpen rq ring n cq m vector s) := by
  unfold execCmdqOpen
  repeat' (first
    | with_reducible assumption | intro _ | with_reducible apply keptNext_next | with_reducible apply kept_runRow
    | with_reducible apply kept_effectCmdqOpen)
theorem kept_effectRplStop (c : Cmd) (s : State) (hs : Kept s₀ s) : Kept s₀ (effectRplStop c s).state := by
  unfold effectRplStop
  repeat' (first
    | with_reducible assumption | with_reducible apply kept_modCtx | with_reducible apply kept_okWith
    | with_reducible apply kept_publishOne | split)
theorem kept_execRplStop (rq : Req) (arg : BitVec 48) (s : State) (hs : Kept s₀ s) : KeptNext s₀ (execRplStop rq arg s) := by
  unfold execRplStop
  repeat' (first
    | with_reducible assumption | intro _ | with_reducible apply keptNext_next | with_reducible apply kept_runRow
    | with_reducible apply kept_effectRplStop)
theorem kept_effectRplStatus (c : Cmd) (s : State) (hs : Kept s₀ s) : Kept s₀ (effectRplStatus c s).state := by
  unfold effectRplStatus
  repeat' (first
    | with_reducible assumption | with_reducible apply kept_okWith)
theorem kept_execRplStatus (rq : Req) (arg : BitVec 48) (s : State) (hs : Kept s₀ s) : KeptNext s₀ (execRplStatus rq arg s) := by
  unfold execRplStatus
  repeat' (first
    | with_reducible assumption | intro _ | with_reducible apply keptNext_next | with_reducible apply kept_runRow
    | with_reducible apply kept_effectRplStatus)
/-! ### Clock -/

theorem kept_endSlew (s : State) (hs : Kept s₀ s) : Kept s₀ (endSlew s) := by
  unfold endSlew
  repeat' (first
    | with_reducible assumption | with_reducible apply kept_setFld | with_reducible apply kept_bump | with_reducible apply kept_ite
    | simp only [kept_mk])
theorem kept_passFrame (k : Nat) (s : State) (hs : Kept s₀ s) : Kept s₀ (passFrame k s) := by
  unfold passFrame
  repeat' (first
    | with_reducible assumption | intro _ | with_reducible apply kept_forEach | with_reducible apply kept_bump
    | with_reducible apply kept_addCauseAt | with_reducible apply kept_ite)
theorem kept_advanceWork (s : State) (p : Nat) (n : Nat) (hs : Kept s₀ s) : Kept s₀ (advanceWork s p n) := by
  unfold advanceWork
  repeat' (first
    | with_reducible assumption | with_reducible apply kept_bump | with_reducible apply kept_modPart | with_reducible apply kept_ite)
/-! ### Hbm -/

theorem kept_hbmLoopWrite (s : State) (g : Nat) (value : Word) (hs : Kept s₀ s) : Kept s₀ (hbmLoopWrite s g value) := by
  unfold hbmLoopWrite
  repeat' (first
    | with_reducible assumption | with_reducible apply kept_setFld | with_reducible apply kept_ite)
theorem kept_hbmLoopHigh (s : State) (g : Nat) (hs : Kept s₀ s) : Kept s₀ (hbmLoopHigh s g) := by
  unfold hbmLoopHigh
  repeat' (first
    | with_reducible assumption | with_reducible apply kept_setFld | with_reducible apply kept_ite)
theorem kept_execHbmLoopStart (g : StackId) (value : Word) (s : State) (hs : Kept s₀ s) : KeptNext s₀ (execHbmLoopStart g value s) := by
  unfold execHbmLoopStart
  repeat' (first
    | with_reducible assumption | with_reducible apply keptNext_next | with_reducible apply kept_hbmLoopWrite)
theorem kept_hbmLoopDoneOp (g : Nat) (errors : Nat) (lanes : Nat) (s : State) (hs : Kept s₀ s) :
    Kept s₀ (hbmLoopDoneOp g errors lanes s) := by
  unfold hbmLoopDoneOp
  repeat' (first
    | with_reducible assumption | with_reducible apply kept_setFld | with_reducible apply kept_ite)
theorem kept_execHbmLoopDone (g : StackId) (errors : Nat) (lanesFailed : Nat) (s : State) (hs : Kept s₀ s) :
    KeptNext s₀ (execHbmLoopDone g errors lanesFailed s) := by
  unfold execHbmLoopDone
  repeat' (first
    | with_reducible assumption | with_reducible apply keptNext_next | with_reducible apply kept_hbmLoopDoneOp)
theorem kept_scrubWord (s : State) (k : Nat) (hs : Kept s₀ s) : Kept s₀ (scrubWord s k) := by
  unfold scrubWord
  repeat' (first
    | with_reducible assumption | with_reducible apply kept_noteKey | with_reducible apply kept_poisonKey
    | with_reducible apply kept_ite | split)
theorem kept_upsetKey (s : State) (k : Nat) (o : Option ReadOutcome) (hs : Kept s₀ s) : Kept s₀ (upsetKey s k o) := by
  have hi : ∀ e, Kept s₀ (if tabGet false s.mem.poisoned k then s else { s with mem := { s.mem with upset := tabSet none s.mem.upset k (some e) } }) :=
    fun e => kept_ite hs (kept_setUpset hs k _)
  cases o with
  | none => exact hs
  | some o =>
    cases o with
    | undetected d => exact kept_putMem hs _ _
    | onPath => exact hs
    | corrected y => exact hi _
    | uncorrectable => exact hi _
theorem kept_scrubLoam (s : State) (sec : Nat) (outcome : Option ReadOutcome) (hs : Kept s₀ s) : Kept s₀ (scrubLoam s sec outcome) := by
  unfold scrubLoam
  repeat' (first
    | with_reducible assumption | with_reducible apply kept_scrubWord | with_reducible apply kept_upsetKey
    | with_reducible apply kept_wrap | with_reducible apply kept_ite | simp only [kept_mk] | simp only [kept_mkMem]
    | split)
theorem kept_scrubHbm (s : State) (g : Nat) (outcome : Option ReadOutcome) (hs : Kept s₀ s) : Kept s₀ (scrubHbm s g outcome) := by
  unfold scrubHbm
  repeat' (first
    | with_reducible assumption | with_reducible apply kept_scrubWord | with_reducible apply kept_upsetKey
    | simp only [kept_mk] | simp only [kept_mkMem])
theorem kept_execPatrolScrubRead (sec : Sec) (hbm : Option (Fin 3)) (outcome : Option ReadOutcome) (s : State) (hs : Kept s₀ s) :
    KeptNext s₀ (execPatrolScrubRead sec hbm outcome s) := by
  unfold execPatrolScrubRead
  repeat' (first
    | with_reducible assumption | with_reducible apply keptNext_next | with_reducible apply kept_scrubLoam
    | with_reducible apply kept_scrubHbm | with_reducible apply kept_ite | split)
theorem kept_execHbmRefresh (g : StackId) (s : State) (hs : Kept s₀ s) : KeptNext s₀ (execHbmRefresh g s) := by
  unfold execHbmRefresh
  repeat' (first
    | with_reducible assumption | with_reducible apply keptNext_next | with_reducible apply kept_bump
    | with_reducible apply kept_ite)
theorem kept_unscheduledRefreshOp (g : Nat) (s : State) (hs : Kept s₀ s) : Kept s₀ (unscheduledRefreshOp g s) := by
  unfold unscheduledRefreshOp
  repeat' (first
    | with_reducible assumption | with_reducible apply kept_bump | with_reducible apply kept_addCause
    | with_reducible apply kept_ite | simp only [kept_mk] | split)
theorem kept_execUnscheduledRefresh (g : StackId) (s : State) (hs : Kept s₀ s) : KeptNext s₀ (execUnscheduledRefresh g s) := by
  unfold execUnscheduledRefresh
  repeat' (first
    | with_reducible assumption | with_reducible apply keptNext_next | with_reducible apply kept_unscheduledRefreshOp)
/-! ### CmdPart -/

theorem kept_effectPartCreate (c : Cmd) (s : State) (hs : Kept s₀ s) : Kept s₀ (effectPartCreate c s).state := by
  unfold effectPartCreate
  repeat' (first
    | with_reducible assumption | with_reducible apply kept_done | with_reducible apply kept_clearRegs
    | with_reducible apply kept_endSlew | with_reducible apply kept_okWith | with_reducible apply kept_setPart
    | with_reducible apply kept_ite | simp only [kept_mk] | split)
theorem kept_execPartCreate (rq : Req) (mask : Word) (tenancy : Word) (schedule : Word) (units : Word) (s : State) (hs : Kept s₀ s) :
    KeptNext s₀ (execPartCreate rq mask tenancy schedule units s) := by
  unfold execPartCreate
  repeat' (first
    | with_reducible assumption | intro _ | with_reducible apply keptNext_next | with_reducible apply kept_runRow
    | with_reducible apply kept_effectPartCreate)
theorem kept_stopPartition (c : Cmd) (s : State) (p : Nat) (hs : Kept s₀ s) : Kept s₀ (stopPartition c s p) := by
  unfold stopPartition
  repeat' (first
    | with_reducible assumption | intro _ | with_reducible apply kept_forEach | with_reducible apply kept_stopPlanned
    | with_reducible apply kept_stopQueue)
theorem kept_leavePart (c : Cmd) (s : State) (p : Nat) (mode : PartMode) (hs : Kept s₀ s) : Kept s₀ (leavePart c s p mode) := by
  unfold leavePart
  repeat' (first
    | with_reducible assumption | with_reducible apply kept_modPart | with_reducible apply kept_partAdvance
    | with_reducible apply kept_stopPartition)
theorem kept_effectPartDestroy (c : Cmd) (s : State) (hs : Kept s₀ s) : Kept s₀ (effectPartDestroy c s).state := by
  unfold effectPartDestroy
  repeat' (first
    | with_reducible assumption | with_reducible apply kept_wait | with_reducible apply kept_leavePart)
theorem kept_execPartDestroy (rq : Req) (part : Word) (s : State) (hs : Kept s₀ s) : KeptNext s₀ (execPartDestroy rq part s) := by
  unfold execPartDestroy
  repeat' (first
    | with_reducible assumption | intro _ | with_reducible apply keptNext_next | with_reducible apply kept_runRow
    | with_reducible apply kept_effectPartDestroy)
theorem kept_effectPartHandover (c : Cmd) (s : State) (hs : Kept s₀ s) : Kept s₀ (effectPartHandover c s).state := by
  unfold effectPartHandover
  repeat' (first
    | with_reducible assumption | with_reducible apply kept_wait | with_reducible apply kept_leavePart)
theorem kept_execPartHandover (rq : Req) (part : Word) (s : State) (hs : Kept s₀ s) : KeptNext s₀ (execPartHandover rq part s) := by
  unfold execPartHandover
  repeat' (first
    | with_reducible assumption | intro _ | with_reducible apply keptNext_next | with_reducible apply kept_runRow
    | with_reducible apply kept_effectPartHandover)
theorem kept_effectPartAssign (c : Cmd) (s : State) (hs : Kept s₀ s) : Kept s₀ (effectPartAssign c s).state := by
  unfold effectPartAssign
  repeat' (first
    | with_reducible assumption | with_reducible apply kept_okWith | with_reducible apply kept_modFn)
theorem kept_execPartAssign (rq : Req) (fn : Word) (part : Word) (s : State) (hs : Kept s₀ s) :
    KeptNext s₀ (execPartAssign rq fn part s) := by
  unfold execPartAssign
  repeat' (first
    | with_reducible assumption | intro _ | with_reducible apply keptNext_next | with_reducible apply kept_runRow
    | with_reducible apply kept_effectPartAssign)
theorem kept_enterSched (s : State) (p : Nat) (winter : Bool) (hs : Kept s₀ s) : Kept s₀ (enterSched s p winter) := by
  unfold enterSched
  repeat' (first
    | with_reducible assumption | with_reducible apply kept_setRaw | with_reducible apply kept_setFld
    | with_reducible apply kept_ite)
theorem kept_effectPartSched (c : Cmd) (s : State) (hs : Kept s₀ s) : Kept s₀ (effectPartSched c s).state := by
  unfold effectPartSched
  repeat' (first
    | with_reducible assumption | with_reducible apply kept_okWith | with_reducible apply kept_endSlew
    | with_reducible apply kept_enterSched | with_reducible apply kept_modPart | with_reducible apply kept_ite
    | with_reducible apply kept_iteOut)
theorem kept_execPartSched (rq : Req) (schedule : Word) (s : State) (hs : Kept s₀ s) : KeptNext s₀ (execPartSched rq schedule s) := by
  unfold execPartSched
  repeat' (first
    | with_reducible assumption | intro _ | with_reducible apply keptNext_next | with_reducible apply kept_runRow
    | with_reducible apply kept_effectPartSched)
theorem kept_effectPartCache (c : Cmd) (s : State) (hs : Kept s₀ s) : Kept s₀ (effectPartCache c s).state := by
  unfold effectPartCache
  repeat' (first
    | with_reducible assumption | intro _ | with_reducible apply kept_okWith | with_reducible apply kept_flushPart
    | with_reducible apply kept_forEach | with_reducible apply kept_zeroRange | with_reducible apply kept_modPart
    | with_reducible apply kept_iteOut)
theorem kept_execPartCache (rq : Req) (units : Word) (s : State) (hs : Kept s₀ s) : KeptNext s₀ (execPartCache rq units s) := by
  unfold execPartCache
  repeat' (first
    | with_reducible assumption | intro _ | with_reducible apply keptNext_next | with_reducible apply kept_runRow
    | with_reducible apply kept_effectPartCache)
theorem kept_effectSlotTable (c : Cmd) (s : State) (hs : Kept s₀ s) : Kept s₀ (effectSlotTable c s).state := by
  unfold effectSlotTable
  repeat' (first
    | with_reducible assumption | with_reducible apply kept_okWith | with_reducible apply kept_modPart)
theorem kept_execSlotTable (rq : Req) (addr : Word) (len : Word) (s : State) (hs : Kept s₀ s) :
    KeptNext s₀ (execSlotTable rq addr len s) := by
  unfold execSlotTable
  repeat' (first
    | with_reducible assumption | intro _ | with_reducible apply keptNext_next | with_reducible apply kept_runRowWith
    | with_reducible apply kept_effectSlotTable)
theorem kept_effectPartInfo (c : Cmd) (s : State) (hs : Kept s₀ s) : Kept s₀ (effectPartInfo c s).state := by
  unfold effectPartInfo
  repeat' (first
    | with_reducible assumption | with_reducible apply kept_okWith | with_reducible apply kept_writeArg)
theorem kept_execPartInfo (rq : Req) (part : Word) (addr : Word) (s : State) (hs : Kept s₀ s) :
    KeptNext s₀ (execPartInfo rq part addr s) := by
  unfold execPartInfo
  repeat' (first
    | with_reducible assumption | intro _ | with_reducible apply keptNext_next | with_reducible apply kept_runRow
    | with_reducible apply kept_effectPartInfo)
theorem kept_effectWindowSet (c : Cmd) (s : State) (hs : Kept s₀ s) : Kept s₀ (effectWindowSet c s).state := by
  unfold effectWindowSet
  repeat' (first
    | with_reducible assumption | with_reducible apply kept_guardTdi | with_reducible apply kept_okWith
    | with_reducible apply kept_modFn)
theorem kept_execWindowSet (rq : Req) (fn : Word) (quarter : Word) (base : Word) (s : State) (hs : Kept s₀ s) :
    KeptNext s₀ (execWindowSet rq fn quarter base s) := by
  unfold execWindowSet
  repeat' (first
    | with_reducible assumption | intro _ | with_reducible apply keptNext_next | with_reducible apply kept_runRow
    | with_reducible apply kept_effectWindowSet)
theorem kept_effectFnState (c : Cmd) (s : State) (hs : Kept s₀ s) : Kept s₀ (effectFnState c s).state := by
  unfold effectFnState
  repeat' (first
    | with_reducible assumption | intro _ | with_reducible apply kept_wait | with_reducible apply kept_okWith
    | with_reducible apply kept_modFn | with_reducible apply kept_forEach | with_reducible apply kept_markStopped
    | with_reducible apply kept_stopCtxSlots | with_reducible apply kept_stopFnQueues | with_reducible apply kept_iteOut)
theorem kept_execFnState (rq : Req) (fn : Word) (enable : Word) (s : State) (hs : Kept s₀ s) :
    KeptNext s₀ (execFnState rq fn enable s) := by
  unfold execFnState
  repeat' (first
    | with_reducible assumption | intro _ | with_reducible apply keptNext_next | with_reducible apply kept_runRow
    | with_reducible apply kept_effectFnState)
/-! ### CmdCtx -/

theorem kept_effectCtxCreate (c : Cmd) (s : State) (hs : Kept s₀ s) : Kept s₀ (effectCtxCreate c s).state := by
  unfold effectCtxCreate
  repeat' (first
    | with_reducible assumption | with_reducible apply kept_done | with_reducible apply kept_setCtx | (refine kept_pickIndex ?_ (by with_reducible assumption))
    | simp only [kept_mk] | split)
theorem kept_execCtxCreate (rq : Req) (cls : Word) (fill : Word) (owner : Word) (s : State) (hs : Kept s₀ s) :
    KeptNext s₀ (execCtxCreate rq cls fill owner s) := by
  unfold execCtxCreate
  repeat' (first
    | with_reducible assumption | intro _ | with_reducible apply keptNext_next | with_reducible apply kept_runRow
    | with_reducible apply kept_effectCtxCreate)
theorem kept_effectCtxDestroy (c : Cmd) (s : State) (hs : Kept s₀ s) : Kept s₀ (effectCtxDestroy c s).state := by
  unfold effectCtxDestroy
  repeat' (first
    | with_reducible assumption | with_reducible apply kept_wait | with_reducible apply kept_stopPlanned)
theorem kept_execCtxDestroy (rq : Req) (ctx : Word) (s : State) (hs : Kept s₀ s) : KeptNext s₀ (execCtxDestroy rq ctx s) := by
  unfold execCtxDestroy
  repeat' (first
    | with_reducible assumption | intro _ | with_reducible apply keptNext_next | with_reducible apply kept_runRow
    | with_reducible apply kept_effectCtxDestroy)
theorem kept_effectCtxSet (c : Cmd) (s : State) (hs : Kept s₀ s) : Kept s₀ (effectCtxSet c s).state := by
  unfold effectCtxSet
  repeat' (first
    | with_reducible assumption | with_reducible apply kept_okWith | with_reducible apply kept_modCtx)
theorem kept_execCtxSet (rq : Req) (ctx : Word) (cls : Word) (fill : Word) (s : State) (hs : Kept s₀ s) :
    KeptNext s₀ (execCtxSet rq ctx cls fill s) := by
  unfold execCtxSet
  repeat' (first
    | with_reducible assumption | intro _ | with_reducible apply keptNext_next | with_reducible apply kept_runRow
    | with_reducible apply kept_effectCtxSet)
theorem kept_effectCtxQuiesce (c : Cmd) (s : State) (hs : Kept s₀ s) : Kept s₀ (effectCtxQuiesce c s).state := by
  unfold effectCtxQuiesce
  repeat' (first
    | with_reducible assumption | with_reducible apply kept_wait)
theorem kept_execCtxQuiesce (rq : Req) (ctx : Word) (s : State) (hs : Kept s₀ s) : KeptNext s₀ (execCtxQuiesce rq ctx s) := by
  unfold execCtxQuiesce
  repeat' (first
    | with_reducible assumption | intro _ | with_reducible apply keptNext_next | with_reducible apply kept_runRow
    | with_reducible apply kept_effectCtxQuiesce)
theorem kept_readBlock (s : State) (b : SnapBlock) (hs : Kept s₀ s) : Kept s₀ (readBlock s b).1 := by
  unfold readBlock
  repeat' (first
    | with_reducible assumption | with_reducible apply kept_readAll | with_reducible apply kept_takeSpoilt
    | with_reducible apply kept_crcFailed | with_reducible apply kept_crcCleared | simp only [kept_mk]
    | split)
theorem kept_countBlocks (s : State) (a : Nat) (n : Nat) (hs : Kept s₀ s) : Kept s₀ (countBlocks s a n) := by
  unfold countBlocks
  repeat' (first
    | with_reducible assumption | with_reducible apply kept_bump | split)
theorem kept_snapStream (c : Cmd) (dest : Word) (l : List SnapBlock) (s : State) (hs : Kept s₀ s) : Kept s₀ (snapStream c dest l s).1 := by
  induction l generalizing s with
  | nil => exact hs
  | cons b t ih =>
    unfold snapStream
    have h := kept_readBlock s b hs
    split
    · next e => rw [e] at h; exact ih _ (kept_writeArg _ _ _ _ _ (kept_writeArg _ _ _ _ _ (kept_countBlocks _ _ _ h)))
    · next e => rw [e] at h; exact h
    · next e => rw [e] at h; exact kept_ctxFault _ _ _ _ _ _ h
theorem kept_snapBegin (c : Cmd) (s : State) (hs : Kept s₀ s) : Kept s₀ (snapBegin c s) :=
  kept_forEach (kept_writeArg _ _ _ _ _ hs) (fun _ _ h => kept_writeArg _ _ _ _ _ h)
theorem kept_effectCtxSnapshot (c : Cmd) (s : State) (hs : Kept s₀ s) : Kept s₀ (effectCtxSnapshot c s).state := by
  unfold effectCtxSnapshot
  repeat' (first
    | with_reducible assumption | intro _ | with_reducible apply kept_done | with_reducible apply kept_writeArg
    | with_reducible apply kept_forEach | with_reducible apply kept_snapBegin
    | with_reducible apply kept_snapStream | with_reducible apply kept_okWith
    | (with_reducible refine kept_fst (by with_reducible assumption) ?_) | simp only [kept_mk] | split)
theorem kept_execCtxSnapshot (rq : Req) (ctx : Word) (list : Word) (count : Word) (dest : Word) (hits : List Hit) (s : State) (hs : Kept s₀ s) :
    KeptNext s₀ (execCtxSnapshot rq ctx list count dest hits s) := by
  unfold execCtxSnapshot
  repeat' (first
    | with_reducible assumption | intro _ | with_reducible apply keptNext_next | with_reducible apply kept_runRowWith
    | with_reducible apply kept_effectCtxSnapshot | with_reducible apply kept_upsetWords)
theorem kept_effectQueueCreate (c : Cmd) (s : State) (hs : Kept s₀ s) : Kept s₀ (effectQueueCreate c s).state := by
  unfold effectQueueCreate
  repeat' (first
    | with_reducible assumption | with_reducible apply kept_done | with_reducible apply kept_guardTdi
    | (refine kept_makeQueue ?_ (by with_reducible assumption)) | split)
theorem kept_execQueueCreate (rq : Req) (kindUnit : Word) (ring : Word) (n : Word) (cq : Word) (m : Word) (vector : Word) (boundFn : Word) (ctx : Word) (s : State) (hs : Kept s₀ s) :
    KeptNext s₀ (execQueueCreate rq kindUnit ring n cq m vector boundFn ctx s) := by
  unfold execQueueCreate
  repeat' (first
    | with_reducible assumption | intro _ | with_reducible apply keptNext_next | with_reducible apply kept_runRow
    | with_reducible apply kept_effectQueueCreate)
theorem kept_effectQueueDestroy (c : Cmd) (s : State) (hs : Kept s₀ s) : Kept s₀ (effectQueueDestroy c s).state := by
  unfold effectQueueDestroy
  repeat' (first
    | with_reducible assumption | with_reducible apply kept_modFn | with_reducible apply kept_guardTdi
    | with_reducible apply kept_okWith | with_reducible apply kept_pruneTokens | with_reducible apply kept_setQueue
    | with_reducible apply kept_ite)
theorem kept_execQueueDestroy (rq : Req) (queue : Word) (s : State) (hs : Kept s₀ s) : KeptNext s₀ (execQueueDestroy rq queue s) := by
  unfold execQueueDestroy
  repeat' (first
    | with_reducible assumption | intro _ | with_reducible apply keptNext_next | with_reducible apply kept_runRow
    | with_reducible apply kept_effectQueueDestroy)
theorem kept_effectQueueEnable (c : Cmd) (s : State) (hs : Kept s₀ s) : Kept s₀ (effectQueueEnable c s).state := by
  unfold effectQueueEnable
  repeat' (first
    | with_reducible assumption | with_reducible apply kept_modCtx | with_reducible apply kept_okWith
    | with_reducible apply kept_modQueue | split)
theorem kept_execQueueEnable (rq : Req) (queue : Word) (s : State) (hs : Kept s₀ s) : KeptNext s₀ (execQueueEnable rq queue s) := by
  unfold execQueueEnable
  repeat' (first
    | with_reducible assumption | intro _ | with_reducible apply keptNext_next | with_reducible apply kept_runRow
    | with_reducible apply kept_effectQueueEnable)
theorem kept_effectQueueDisable (c : Cmd) (s : State) (hs : Kept s₀ s) : Kept s₀ (effectQueueDisable c s).state := by
  unfold effectQueueDisable
  repeat' (first
    | with_reducible assumption | with_reducible apply kept_wait | with_reducible apply kept_stopQueue)
theorem kept_execQueueDisable (rq : Req) (queue : Word) (s : State) (hs : Kept s₀ s) : KeptNext s₀ (execQueueDisable rq queue s) := by
  unfold execQueueDisable
  repeat' (first
    | with_reducible assumption | intro _ | with_reducible apply keptNext_next | with_reducible apply kept_runRow
    | with_reducible apply kept_effectQueueDisable)
theorem kept_effectQueueReset (c : Cmd) (s : State) (hs : Kept s₀ s) : Kept s₀ (effectQueueReset c s).state := by
  unfold effectQueueReset
  repeat' (first
    | with_reducible assumption | with_reducible apply kept_okWith | with_reducible apply kept_fillRing
    | with_reducible apply kept_modQueue)
theorem kept_execQueueReset (rq : Req) (queue : Word) (s : State) (hs : Kept s₀ s) : KeptNext s₀ (execQueueReset rq queue s) := by
  unfold execQueueReset
  repeat' (first
    | with_reducible assumption | intro _ | with_reducible apply keptNext_next | with_reducible apply kept_runRow
    | with_reducible apply kept_effectQueueReset)
theorem kept_effectTallyCreate (c : Cmd) (s : State) (hs : Kept s₀ s) : Kept s₀ (effectTallyCreate c s).state := by
  unfold effectTallyCreate
  repeat' (first
    | with_reducible assumption | with_reducible apply kept_done | with_reducible apply kept_setTally
    | (refine kept_pickIndex ?_ (by with_reducible assumption)) | simp only [kept_mk] | split)
theorem kept_execTallyCreate (rq : Req) (ctx : Word) (cls : Word) (sec : Word) (count : Word) (s : State) (hs : Kept s₀ s) :
    KeptNext s₀ (execTallyCreate rq ctx cls sec count s) := by
  unfold execTallyCreate
  repeat' (first
    | with_reducible assumption | intro _ | with_reducible apply keptNext_next | with_reducible apply kept_runRow
    | with_reducible apply kept_effectTallyCreate)
theorem kept_stirCores (s : State) (p : Nat) (hs : Kept s₀ s) : Kept s₀ (stirCores s p) := by
  unfold stirCores
  repeat' (first
    | with_reducible assumption | simp only [kept_mk])
theorem kept_effectTallySet (c : Cmd) (s : State) (hs : Kept s₀ s) : Kept s₀ (effectTallySet c s).state := by
  unfold effectTallySet
  repeat' (first
    | with_reducible assumption | with_reducible apply kept_endExternal | with_reducible apply kept_modTally
    | with_reducible apply kept_okWith | with_reducible apply kept_stirCores)
theorem kept_execTallySet (rq : Req) (tally : Word) (count : Word) (s : State) (hs : Kept s₀ s) :
    KeptNext s₀ (execTallySet rq tally count s) := by
  unfold execTallySet
  repeat' (first
    | with_reducible assumption | intro _ | with_reducible apply keptNext_next | with_reducible apply kept_runRow
    | with_reducible apply kept_effectTallySet)
theorem kept_effectTallyDestroy (c : Cmd) (s : State) (hs : Kept s₀ s) : Kept s₀ (effectTallyDestroy c s).state := by
  unfold effectTallyDestroy
  repeat' (first
    | with_reducible assumption | with_reducible apply kept_okWith | with_reducible apply kept_pruneTokens
    | with_reducible apply kept_setTally)
theorem kept_execTallyDestroy (rq : Req) (tally : Word) (s : State) (hs : Kept s₀ s) : KeptNext s₀ (execTallyDestroy rq tally s) := by
  unfold execTallyDestroy
  repeat' (first
    | with_reducible assumption | intro _ | with_reducible apply keptNext_next | with_reducible apply kept_runRow
    | with_reducible apply kept_effectTallyDestroy)
theorem kept_effectRegionCreate (c : Cmd) (s : State) (hs : Kept s₀ s) : Kept s₀ (effectRegionCreate c s).state := by
  unfold effectRegionCreate
  repeat' (first
    | with_reducible assumption | with_reducible apply kept_done | with_reducible apply kept_setRegion
    | (refine kept_pickIndex ?_ (by with_reducible assumption)) | simp only [kept_mk] | split)
theorem kept_execRegionCreate (rq : Req) (ctx : Word) (addr : Word) (len : Word) (perm : Word) (s : State) (hs : Kept s₀ s) :
    KeptNext s₀ (execRegionCreate rq ctx addr len perm s) := by
  unfold execRegionCreate
  repeat' (first
    | with_reducible assumption | intro _ | with_reducible apply keptNext_next | with_reducible apply kept_runRow
    | with_reducible apply kept_effectRegionCreate)
theorem kept_effectRegionDestroy (c : Cmd) (s : State) (hs : Kept s₀ s) : Kept s₀ (effectRegionDestroy c s).state := by
  unfold effectRegionDestroy
  repeat' (first
    | with_reducible assumption | with_reducible apply kept_okWith | with_reducible apply kept_pruneTokens
    | with_reducible apply kept_setRegion)
theorem kept_execRegionDestroy (rq : Req) (region : Word) (s : State) (hs : Kept s₀ s) : KeptNext s₀ (execRegionDestroy rq region s) := by
  unfold execRegionDestroy
  repeat' (first
    | with_reducible assumption | intro _ | with_reducible apply keptNext_next | with_reducible apply kept_runRow
    | with_reducible apply kept_effectRegionDestroy)
theorem kept_effectRegionFreeze (c : Cmd) (s : State) (hs : Kept s₀ s) : Kept s₀ (effectRegionFreeze c s).state := by
  unfold effectRegionFreeze
  repeat' (first
    | with_reducible assumption | with_reducible apply kept_okWith | with_reducible apply kept_modRegion)
theorem kept_execRegionFreeze (rq : Req) (region : Word) (freeze : Word) (s : State) (hs : Kept s₀ s) :
    KeptNext s₀ (execRegionFreeze rq region freeze s) := by
  unfold execRegionFreeze
  repeat' (first
    | with_reducible assumption | intro _ | with_reducible apply keptNext_next | with_reducible apply kept_runRow
    | with_reducible apply kept_effectRegionFreeze)
theorem kept_effectHandleInfo (c : Cmd) (s : State) (hs : Kept s₀ s) : Kept s₀ (effectHandleInfo c s).state := by
  unfold effectHandleInfo
  repeat' (first
    | with_reducible assumption | with_reducible apply kept_okWith | with_reducible apply kept_writeArg)
theorem kept_execHandleInfo (rq : Req) (handle : Word) (addr : Word) (s : State) (hs : Kept s₀ s) :
    KeptNext s₀ (execHandleInfo rq handle addr s) := by
  unfold execHandleInfo
  repeat' (first
    | with_reducible assumption | intro _ | with_reducible apply keptNext_next | with_reducible apply kept_runRow
    | with_reducible apply kept_effectHandleInfo)
/-! ### CmdProg -/

theorem kept_effectMemFlush (c : Cmd) (s : State) (hs : Kept s₀ s) : Kept s₀ (effectMemFlush c s).state := by
  unfold effectMemFlush
  repeat' (first
    | with_reducible assumption | with_reducible apply kept_flushPart | with_reducible apply kept_okWith)
theorem kept_execMemFlush (rq : Req) (s : State) (hs : Kept s₀ s) : KeptNext s₀ (execMemFlush rq s) := by
  unfold execMemFlush
  repeat' (first
    | with_reducible assumption | intro _ | with_reducible apply keptNext_next | with_reducible apply kept_runRow
    | with_reducible apply kept_effectMemFlush)
theorem kept_effectScrubPeriod (c : Cmd) (s : State) (hs : Kept s₀ s) : Kept s₀ (effectScrubPeriod c s).state := by
  unfold effectScrubPeriod
  repeat' (first
    | with_reducible assumption | intro _ | with_reducible apply kept_okWith | with_reducible apply kept_forEach
    | with_reducible apply kept_setFld | simp only [kept_mk] | simp only [kept_mkMem])
theorem kept_execScrubPeriod (rq : Req) (mask : Word) (loam : Word) (hbm : Word) (s : State) (hs : Kept s₀ s) :
    KeptNext s₀ (execScrubPeriod rq mask loam hbm s) := by
  unfold execScrubPeriod
  repeat' (first
    | with_reducible assumption | intro _ | with_reducible apply keptNext_next | with_reducible apply kept_runRow
    | with_reducible apply kept_effectScrubPeriod)
theorem kept_effectStackRate (c : Cmd) (s : State) (hs : Kept s₀ s) : Kept s₀ (effectStackRate c s).state := by
  unfold effectStackRate
  repeat' (first
    | with_reducible assumption | with_reducible apply kept_okWith | simp only [kept_mk] | simp only [kept_mkFlash])
theorem kept_execStackRate (rq : Req) (allow : Word) (s : State) (hs : Kept s₀ s) : KeptNext s₀ (execStackRate rq allow s) := by
  unfold execStackRate
  repeat' (first
    | with_reducible assumption | intro _ | with_reducible apply keptNext_next | with_reducible apply kept_runRow
    | with_reducible apply kept_effectStackRate)
theorem kept_effectProgLoad (c : Cmd) (s : State) (hs : Kept s₀ s) : Kept s₀ (effectProgLoad c s).state := by
  unfold effectProgLoad
  repeat' (first
    | with_reducible assumption | with_reducible apply kept_okWith | with_reducible apply kept_setSlot)
theorem kept_execProgLoad (rq : Req) (ctx : Word) (core : Word) (slot : Word) (addr : Word) (count : Word) (s : State) (hs : Kept s₀ s) :
    KeptNext s₀ (execProgLoad rq ctx core slot addr count s) := by
  unfold execProgLoad
  repeat' (first
    | with_reducible assumption | intro _ | with_reducible apply keptNext_next | with_reducible apply kept_runRow
    | with_reducible apply kept_effectProgLoad)
theorem kept_effectProgUnload (c : Cmd) (s : State) (hs : Kept s₀ s) : Kept s₀ (effectProgUnload c s).state := by
  unfold effectProgUnload
  repeat' (first
    | with_reducible assumption | with_reducible apply kept_setSlot | with_reducible apply kept_okWith
    | with_reducible apply kept_enterSlot | with_reducible apply kept_ite)
theorem kept_execProgUnload (rq : Req) (core : Word) (slot : Word) (s : State) (hs : Kept s₀ s) :
    KeptNext s₀ (execProgUnload rq core slot s) := by
  unfold execProgUnload
  repeat' (first
    | with_reducible assumption | intro _ | with_reducible apply keptNext_next | with_reducible apply kept_runRow
    | with_reducible apply kept_effectProgUnload)
theorem kept_startSlots (s : State) (l : List (Nat × Nat)) (winter : Bool) (fill : Bool) (hs : Kept s₀ s) :
    Kept s₀ (startSlots s l winter fill) := by
  unfold startSlots
  repeat' (first
    | with_reducible assumption | intro _ | with_reducible apply kept_forEach | with_reducible apply kept_modSlot
    | simp only [kept_mk])
theorem kept_restartWork (s : State) (p : Nat) (hs : Kept s₀ s) : Kept s₀ (restartWork s p) := by
  unfold restartWork
  repeat' (first
    | with_reducible assumption | with_reducible apply kept_bump | with_reducible apply kept_setFld | with_reducible apply kept_modPart)
theorem kept_noteModels (s : State) (p : Nat) (l : List (Nat × Nat)) (hs : Kept s₀ s) : Kept s₀ (noteModels s p l) := by
  unfold noteModels
  repeat' (first
    | with_reducible assumption | intro _ | with_reducible apply kept_forEach | with_reducible apply kept_modModel
    | with_reducible apply kept_ite)
theorem kept_effectLaunch (c : Cmd) (s : State) (hs : Kept s₀ s) : Kept s₀ (effectLaunch c s).state := by
  unfold effectLaunch
  repeat' (first
    | with_reducible assumption | intro _ | with_reducible apply kept_later | with_reducible apply kept_forEach
    | with_reducible apply kept_recordInput | with_reducible apply kept_startSlots | with_reducible apply kept_noteModels
    | with_reducible apply kept_restartWork | with_reducible apply kept_modCtx | with_reducible apply kept_ite
    | simp only [kept_mk])
theorem kept_execLaunch (rq : Req) (ctx : Word) (list : Word) (count : Word) (s : State) (hs : Kept s₀ s) :
    KeptNext s₀ (execLaunch rq ctx list count s) := by
  unfold execLaunch
  repeat' (first
    | with_reducible assumption | intro _ | with_reducible apply keptNext_next | with_reducible apply kept_runRowWith
    | with_reducible apply kept_effectLaunch)
/-! ### CmdTensor -/

theorem kept_effectTensorReg (c : Cmd) (s : State) (hs : Kept s₀ s) : Kept s₀ (effectTensorReg c s).state := by
  unfold effectTensorReg
  repeat' (first
    | with_reducible assumption | with_reducible apply kept_okWith | with_reducible apply kept_setTensor)
theorem kept_execTensorReg (rq : Req) (ctx : Word) (addr : Word) (s : State) (hs : Kept s₀ s) :
    KeptNext s₀ (execTensorReg rq ctx addr s) := by
  unfold execTensorReg
  repeat' (first
    | with_reducible assumption | intro _ | with_reducible apply keptNext_next | with_reducible apply kept_runRowWith
    | with_reducible apply kept_effectTensorReg)
theorem kept_onTensor (c : Cmd) (s : State) (upd : Tensor → Tensor) (hs : Kept s₀ s) : Kept s₀ (onTensor c s upd) := by
  unfold onTensor
  repeat' (first
    | with_reducible assumption | with_reducible apply kept_modTensor)
theorem kept_effectTensorUnreg (c : Cmd) (s : State) (hs : Kept s₀ s) : Kept s₀ (effectTensorUnreg c s).state := by
  unfold effectTensorUnreg
  repeat' (first
    | with_reducible assumption | with_reducible apply kept_okWith | with_reducible apply kept_pruneTokens
    | with_reducible apply kept_breakModels | with_reducible apply kept_onTensor)
theorem kept_execTensorUnreg (rq : Req) (tensor : Word) (s : State) (hs : Kept s₀ s) : KeptNext s₀ (execTensorUnreg rq tensor s) := by
  unfold execTensorUnreg
  repeat' (first
    | with_reducible assumption | intro _ | with_reducible apply keptNext_next | with_reducible apply kept_runRow
    | with_reducible apply kept_effectTensorUnreg)
theorem kept_effectTensorVersion (c : Cmd) (s : State) (hs : Kept s₀ s) : Kept s₀ (effectTensorVersion c s).state := by
  unfold effectTensorVersion
  repeat' (first
    | with_reducible assumption | with_reducible apply kept_okWith | with_reducible apply kept_onTensor)
theorem kept_execTensorVersion (rq : Req) (tensor : Word) (version : Word) (s : State) (hs : Kept s₀ s) :
    KeptNext s₀ (execTensorVersion rq tensor version s) := by
  unfold execTensorVersion
  repeat' (first
    | with_reducible assumption | intro _ | with_reducible apply keptNext_next | with_reducible apply kept_runRow
    | with_reducible apply kept_effectTensorVersion)
theorem kept_effectTensorScale (c : Cmd) (s : State) (hs : Kept s₀ s) : Kept s₀ (effectTensorScale c s).state := by
  unfold effectTensorScale
  repeat' (first
    | with_reducible assumption | with_reducible apply kept_okWith | with_reducible apply kept_onTensor)
theorem kept_execTensorScale (rq : Req) (tensor : Word) (scale : Word) (s : State) (hs : Kept s₀ s) :
    KeptNext s₀ (execTensorScale rq tensor scale s) := by
  unfold execTensorScale
  repeat' (first
    | with_reducible assumption | intro _ | with_reducible apply keptNext_next | with_reducible apply kept_runRow
    | with_reducible apply kept_effectTensorScale)
theorem kept_effectTensorUnpoison (c : Cmd) (s : State) (hs : Kept s₀ s) : Kept s₀ (effectTensorUnpoison c s).state := by
  unfold effectTensorUnpoison
  repeat' (first
    | with_reducible assumption | with_reducible apply kept_okWith | with_reducible apply kept_onTensor)
theorem kept_execTensorUnpoison (rq : Req) (tensor : Word) (s : State) (hs : Kept s₀ s) : KeptNext s₀ (execTensorUnpoison rq tensor s) := by
  unfold execTensorUnpoison
  repeat' (first
    | with_reducible assumption | intro _ | with_reducible apply keptNext_next | with_reducible apply kept_runRow
    | with_reducible apply kept_effectTensorUnpoison)
theorem kept_effectTensorStamp (c : Cmd) (s : State) (hs : Kept s₀ s) : Kept s₀ (effectTensorStamp c s).state := by
  unfold effectTensorStamp
  repeat' (first
    | with_reducible assumption | with_reducible apply kept_okWith | with_reducible apply kept_onTensor)
theorem kept_execTensorStamp (rq : Req) (tensor : Word) (stamp : Word) (s : State) (hs : Kept s₀ s) :
    KeptNext s₀ (execTensorStamp rq tensor stamp s) := by
  unfold execTensorStamp
  repeat' (first
    | with_reducible assumption | intro _ | with_reducible apply keptNext_next | with_reducible apply kept_runRow
    | with_reducible apply kept_effectTensorStamp)
theorem kept_effectModelDefine (c : Cmd) (s : State) (hs : Kept s₀ s) : Kept s₀ (effectModelDefine c s).state := by
  unfold effectModelDefine
  repeat' (first
    | with_reducible assumption | with_reducible apply kept_done | with_reducible apply kept_setModel
    | (refine kept_pickIndex ?_ (by with_reducible assumption)) | simp only [kept_mk] | split)
theorem kept_execModelDefine (rq : Req) (list : Word) (count : Word) (priority : Word) (s : State) (hs : Kept s₀ s) :
    KeptNext s₀ (execModelDefine rq list count priority s) := by
  unfold execModelDefine
  repeat' (first
    | with_reducible assumption | intro _ | with_reducible apply keptNext_next | with_reducible apply kept_runRowWith
    | with_reducible apply kept_effectModelDefine)
theorem kept_makeRoom (p k : Nat) (d : TensorDesc) (n : Nat) (s : State) (hs : Kept s₀ s) : Kept s₀ (makeRoom p k d n s).1 := by
  induction n generalizing s with
  | zero => exact hs
  | succ n ih =>
    unfold makeRoom
    split
    · exact hs
    · split
      · exact ih _ (kept_freeUnits _ _ (kept_beginEvict _ _ hs))
      · exact hs
theorem kept_readTensor (l : List SnapBlock) (s : State) (hs : Kept s₀ s) : Kept s₀ (readTensor l s).1 := by
  induction l generalizing s with
  | nil => exact hs
  | cons b t ih =>
    unfold readTensor
    have h := kept_readBlock s b hs
    split
    · next e => rw [e] at h; exact ih _ h
    · next e => rw [e] at h; exact h
    · next e => rw [e] at h; exact h
theorem kept_poisonCopy (before : State) (after : State) (d : TensorDesc) (place : Nat × Nat) (hbefore : Kept s₀ before) (hafter : Kept s₀ after) :
    Kept s₀ (poisonCopy before after d place) := by
  unfold poisonCopy
  repeat' (first
    | with_reducible assumption | intro _ | with_reducible apply kept_forEach | with_reducible apply kept_poisonWord
    | with_reducible apply kept_ite | split)
theorem kept_copyTensor (s : State) (p : Nat) (k : Nat) (id : Nat) (place : Nat × Nat) (hs : Kept s₀ s) :
    Kept s₀ (copyTensor s p k id place).1 := by
  unfold copyTensor
  repeat' (first
    | with_reducible assumption | intro _ | with_reducible apply kept_readTensor | with_reducible apply kept_ctxFault
    | with_reducible apply kept_poisonCopy | with_reducible apply kept_countBlocks | with_reducible apply kept_writeBytes
    | with_reducible apply kept_setTensor | with_reducible apply kept_modModel | with_reducible apply kept_foldl
    | (with_reducible refine kept_fst (by with_reducible assumption) ?_) | simp only [kept_mk] | split)
theorem kept_loadTensors (p k : Nat) (l : List Nat) (s : State) (hs : Kept s₀ s) : Kept s₀ (loadTensors p k l s).1 := by
  induction l generalizing s with
  | nil => exact hs
  | cons id t ih =>
    unfold loadTensors
    dsimp only
    have h := kept_makeRoom p k (s.tensor p id).desc 1025 s hs
    split
    · exact ih _ hs
    · split
      · next e => rw [e] at h; exact ih _ h
      · next s1 place e =>
        rw [e] at h
        have h2 := kept_copyTensor s1 p k id place h
        split
        · next e2 => rw [e2] at h2; exact ih _ h2
        · next e2 => rw [e2] at h2; exact h2
theorem kept_effectModelLoad (c : Cmd) (s : State) (hs : Kept s₀ s) : Kept s₀ (effectModelLoad c s).state := by
  unfold effectModelLoad
  repeat' (first
    | with_reducible assumption | with_reducible apply kept_done | with_reducible apply kept_loadTensors
    | with_reducible apply kept_okWith | with_reducible apply kept_modModel | with_reducible apply kept_restoreHome
    | (with_reducible refine kept_fst (by with_reducible assumption) ?_) | simp only [kept_mk] | split)
theorem kept_execModelLoad (rq : Req) (model : Word) (hits : List Hit) (s : State) (hs : Kept s₀ s) :
    KeptNext s₀ (execModelLoad rq model hits s) := by
  unfold execModelLoad
  repeat' (first
    | with_reducible assumption | intro _ | with_reducible apply keptNext_next | with_reducible apply kept_runRow
    | with_reducible apply kept_effectModelLoad | with_reducible apply kept_upsetWords)
theorem kept_effectModelEvict (c : Cmd) (s : State) (hs : Kept s₀ s) : Kept s₀ (effectModelEvict c s).state := by
  unfold effectModelEvict
  repeat' (first
    | with_reducible assumption | with_reducible apply kept_wait | with_reducible apply kept_beginEvict
    | with_reducible apply kept_okWith | with_reducible apply kept_freeUnits | with_reducible apply kept_iteOut)
theorem kept_execModelEvict (rq : Req) (model : Word) (s : State) (hs : Kept s₀ s) : KeptNext s₀ (execModelEvict rq model s) := by
  unfold execModelEvict
  repeat' (first
    | with_reducible assumption | intro _ | with_reducible apply keptNext_next | with_reducible apply kept_runRow
    | with_reducible apply kept_effectModelEvict)
theorem kept_execModelUnitsFreed (model : Fin 1024) (s : State) (hs : Kept s₀ s) : KeptNext s₀ (execModelUnitsFreed model s) := by
  unfold execModelUnitsFreed
  repeat' (first
    | with_reducible assumption | with_reducible apply keptNext_next | with_reducible apply kept_settle
    | with_reducible apply kept_freeUnits | with_reducible apply kept_ite)
theorem kept_effectModelDestroy (c : Cmd) (s : State) (hs : Kept s₀ s) : Kept s₀ (effectModelDestroy c s).state := by
  unfold effectModelDestroy
  repeat' (first
    | with_reducible assumption | with_reducible apply kept_okWith | with_reducible apply kept_pruneTokens
    | with_reducible apply kept_setModel)
theorem kept_execModelDestroy (rq : Req) (model : Word) (s : State) (hs : Kept s₀ s) : KeptNext s₀ (execModelDestroy rq model s) := by
  unfold execModelDestroy
  repeat' (first
    | with_reducible assumption | intro _ | with_reducible apply keptNext_next | with_reducible apply kept_runRow
    | with_reducible apply kept_effectModelDestroy)

end Sys2Proof.Machine
end

