-- ==== Sys2Proof/Laws/KeepModule.lean ====
section
/-! SUPPORT. Link receivers and controllers, the commands on links, numerics and management, the start, mailboxes, queues, BAR windows, functions and registers keep what every step keeps. -/

set_option maxRecDepth 4000
set_option linter.unusedSimpArgs false
set_option linter.unusedVariables false

namespace Sys2Proof.Machine

variable {s₀ : State}

/-! ### LinkRx -/

theorem kept_sendRefuse (s : State) (l : Nat) (cause : Nat) (h : List Byte) (hs : Kept s₀ s) : Kept s₀ (sendRefuse s l cause h) := by
  unfold sendRefuse
  repeat' (first
    | with_reducible assumption | with_reducible apply kept_sendMsg)
theorem kept_freeSlots (s : State) (l : Nat) (h : List Byte) (d : List Byte) (hs : Kept s₀ s) : Kept s₀ (freeSlots s l h d) := by
  unfold freeSlots
  repeat' (first
    | with_reducible assumption | with_reducible apply kept_modLink | with_reducible apply kept_sendIdle
    | with_reducible apply kept_ite)
theorem kept_spoilWords (s : State) (l : Nat) (d : MsgDest) (bad : List Nat) (hs : Kept s₀ s) : Kept s₀ (spoilWords s l d bad) := by
  unfold spoilWords
  repeat' (first
    | with_reducible assumption | intro _ | with_reducible apply kept_ctxFault | with_reducible apply kept_forEach
    | with_reducible apply kept_poisonWord | with_reducible apply kept_ite)
theorem kept_applyMsg (s : State) (l : Nat) (h : List Byte) (data : List Byte) (bad : List Nat) (d : MsgDest) (hs : Kept s₀ s) :
    Kept s₀ (applyMsg s l h data bad d) := by
  unfold applyMsg
  repeat' (first
    | with_reducible assumption | with_reducible apply kept_dropLive | with_reducible apply kept_recordInput
    | with_reducible apply kept_writeMem | with_reducible apply kept_storeBytes | with_reducible apply kept_bump
    | with_reducible apply kept_spoilWords | with_reducible apply kept_signalTally | with_reducible apply kept_ite
    | split)
theorem kept_checkMsg {s t : State} {l : Nat} {h data : List Byte} {bad : List Nat} (hs : Kept s₀ s) (e : checkMsg s l h data bad = .settled t) :
    Kept s₀ t := by
  unfold checkMsg at e
  dsimp only at e
  repeat' split at e
  all_goals (first | (exfalso; exact absurd e (by simp only [reduceCtorEq, not_false_eq_true])) | skip)
  all_goals (rw [MsgRes.settled.injEq] at e; subst e)
  all_goals repeat' (first | with_reducible assumption | intro _ | with_reducible apply kept_sendRefuse | with_reducible apply kept_bump | with_reducible apply kept_applyMsg | with_reducible apply kept_ctxFault | with_reducible apply kept_sendNotice)
theorem kept_checkMsgHeld {s t : State} {l g : Nat} {h data : List Byte} {bad : List Nat} (hs : Kept s₀ s) (e : checkMsg s l h data bad = .held t g) :
    Kept s₀ t := by
  unfold checkMsg at e
  dsimp only at e
  repeat' split at e
  all_goals (first | (exfalso; exact absurd e (by simp only [reduceCtorEq, not_false_eq_true])) | skip)
  all_goals (rw [MsgRes.held.injEq] at e; obtain ⟨rfl, _⟩ := e)
  all_goals exact hs
theorem kept_headMsg (s : State) (l : Nat) (h : List Byte) (data : List Byte) (bad : List Nat) (hs : Kept s₀ s) :
    Kept s₀ (headMsg s l h data bad) := by
  unfold headMsg
  split
  · next e => exact kept_freeSlots _ _ _ _ (kept_checkMsg hs e)
  · next e => exact kept_modLink _ _ _ (kept_checkMsgHeld hs e)
theorem kept_drainBehind (s : State) (l : Nat) (n : Nat) (hs : Kept s₀ s) : Kept s₀ (drainBehind s l n) := by
  induction n generalizing s with
  | zero => exact hs
  | succ n ih =>
    unfold drainBehind
    dsimp only
    repeat' (first | with_reducible assumption | intro _ | with_reducible apply ih | with_reducible apply kept_headMsg | with_reducible apply kept_setLink | with_reducible apply kept_ite | split)
theorem kept_drainLink (s : State) (l : Nat) (hs : Kept s₀ s) : Kept s₀ (drainLink s l) := by
  unfold drainLink
  repeat' (first
    | with_reducible assumption | with_reducible apply kept_drainBehind)
theorem kept_serveLinks (s : State) (hs : Kept s₀ s) : Kept s₀ (serveLinks s) := by
  unfold serveLinks
  repeat' (first
    | with_reducible assumption | intro _ | with_reducible apply kept_forEach | with_reducible apply kept_drainLink)
theorem kept_unhold (s : State) (l : Nat) (m : HeldMsg) (hs : Kept s₀ s) : Kept s₀ (unhold s l m) := by
  unfold unhold
  repeat' (first
    | with_reducible assumption | with_reducible apply kept_modLink)
theorem kept_park (s : State) (l : Nat) (m : RxMsg) (front : Bool) (hs : Kept s₀ s) : Kept s₀ (park s l m front) := by
  unfold park
  repeat' (first
    | with_reducible assumption | with_reducible apply kept_modLink)
theorem kept_recheckHeld (s : State) (l : Nat) (hs : Kept s₀ s) : Kept s₀ (recheckHeld s l) := by
  unfold recheckHeld
  repeat' (first
    | with_reducible assumption | with_reducible apply kept_drainLink | with_reducible apply kept_park
    | with_reducible apply kept_unhold | split)
theorem kept_takeMsg0 (s : State) (l : Nat) (h : List Byte) (data : List Byte) (bad : List Nat) (hs : Kept s₀ s) :
    Kept s₀ (takeMsg0 s l h data bad) := by
  unfold takeMsg0
  repeat' (first
    | with_reducible assumption | with_reducible apply kept_park | with_reducible apply kept_headMsg | with_reducible apply kept_ite)
theorem kept_recvMsg0 (s : State) (l : Nat) (h : List Byte) (data : List Byte) (bad : List Nat) (hs : Kept s₀ s) :
    Kept s₀ (recvMsg0 s l h data bad) := by
  unfold recvMsg0
  repeat' (first
    | with_reducible assumption | with_reducible apply kept_hostileEvent | with_reducible apply kept_sendRefuse
    | with_reducible apply kept_freeSlots | with_reducible apply kept_takeMsg0 | with_reducible apply kept_ite)
theorem kept_takeRefuse (s : State) (l : Nat) (h : List Byte) (hs : Kept s₀ s) : Kept s₀ (takeRefuse s l h) := by
  unfold takeRefuse
  repeat' (first
    | with_reducible assumption | with_reducible apply kept_bump | with_reducible apply kept_postPart
    | simp only [kept_mk] | split)
theorem kept_takeNotice (s : State) (l : Nat) (h : List Byte) (hs : Kept s₀ s) : Kept s₀ (takeNotice s l h) := by
  unfold takeNotice
  repeat' (first
    | with_reducible assumption | with_reducible apply kept_bump | with_reducible apply kept_setGroup
    | with_reducible apply kept_ite)
theorem kept_takeAbort (s : State) (l : Nat) (h : List Byte) (hs : Kept s₀ s) : Kept s₀ (takeAbort s l h) := by
  unfold takeAbort
  repeat' (first
    | with_reducible assumption | with_reducible apply kept_sendAbort | with_reducible apply kept_abortGroup
    | with_reducible apply kept_bump | with_reducible apply kept_ite)
theorem kept_recvMsg1 (s : State) (l : Nat) (h : List Byte) (type : Nat) (act : State → State) (hs : Kept s₀ s) (hact : ∀ t, Kept s₀ t → Kept s₀ (act t)) :
    Kept s₀ (recvMsg1 s l h type act) := by
  unfold recvMsg1
  repeat' (first
    | with_reducible assumption | with_reducible apply kept_hostileEvent | with_reducible apply kept_freeSlots
    | with_reducible apply kept_modLink | with_reducible apply hact | with_reducible apply kept_ite)
theorem kept_recvAny (s : State) (l : Nat) (h : List Byte) (data : List Byte) (bad : List Nat) (hs : Kept s₀ s) :
    Kept s₀ (recvAny s l h data bad) := by
  unfold recvAny
  repeat' (first
    | with_reducible assumption | intro _ | with_reducible apply kept_recvMsg1 | with_reducible apply kept_takeRefuse
    | with_reducible apply kept_takeNotice | with_reducible apply kept_takeAbort | with_reducible apply kept_recvMsg0
    | split)
theorem kept_execMsgWrite (l : LinkId) (header : List Byte) (data : List Byte) (bad : List Nat) (s : State) (hs : Kept s₀ s) :
    KeptNext s₀ (execMsgWrite l header data bad s) := by
  unfold execMsgWrite
  repeat' (first
    | with_reducible assumption | with_reducible apply keptNext_next | with_reducible apply kept_recvMsg0
    | with_reducible apply kept_ite)
theorem kept_execMsgBlock (l : LinkId) (header : List Byte) (data : List Byte) (bad : List Nat) (s : State) (hs : Kept s₀ s) :
    KeptNext s₀ (execMsgBlock l header data bad s) := by
  unfold execMsgBlock
  repeat' (first
    | with_reducible assumption | with_reducible apply keptNext_next | with_reducible apply kept_recvMsg0
    | with_reducible apply kept_ite)
theorem kept_execMsgRefuse (l : LinkId) (header : List Byte) (s : State) (hs : Kept s₀ s) : KeptNext s₀ (execMsgRefuse l header s) := by
  unfold execMsgRefuse
  repeat' (first
    | with_reducible assumption | intro _ | with_reducible apply keptNext_next | with_reducible apply kept_recvMsg1
    | with_reducible apply kept_takeRefuse)
theorem kept_execMsgEpochNotice (l : LinkId) (header : List Byte) (s : State) (hs : Kept s₀ s) :
    KeptNext s₀ (execMsgEpochNotice l header s) := by
  unfold execMsgEpochNotice
  repeat' (first
    | with_reducible assumption | intro _ | with_reducible apply keptNext_next | with_reducible apply kept_recvMsg1
    | with_reducible apply kept_takeNotice)
theorem kept_execMsgAbort (l : LinkId) (header : List Byte) (s : State) (hs : Kept s₀ s) : KeptNext s₀ (execMsgAbort l header s) := by
  unfold execMsgAbort
  repeat' (first
    | with_reducible assumption | intro _ | with_reducible apply keptNext_next | with_reducible apply kept_recvMsg1
    | with_reducible apply kept_takeAbort)
theorem kept_dropHeld (s : State) (l : Nat) (hs : Kept s₀ s) : Kept s₀ (dropHeld s l) := by
  unfold dropHeld
  repeat' (first
    | with_reducible assumption | with_reducible apply kept_freeSlots | with_reducible apply kept_unhold
    | with_reducible apply kept_bump | with_reducible apply kept_drainLink | simp only [kept_mk] | split)
theorem kept_passedBy (s : State) (g : Nat) (hs : Kept s₀ s) : Kept s₀ (passedBy s g) := by
  unfold passedBy
  repeat' (first
    | with_reducible assumption | with_reducible apply kept_setGroup | with_reducible apply kept_abortGroup
    | with_reducible apply kept_postTo | with_reducible apply kept_bump | with_reducible apply kept_ite
    | simp only [kept_mk] | split)
theorem kept_execEpochGraceExpiry (site : GraceSite) (s : State) (hs : Kept s₀ s) : KeptNext s₀ (execEpochGraceExpiry site s) := by
  unfold execEpochGraceExpiry
  repeat' (first
    | with_reducible assumption | with_reducible apply keptNext_next | with_reducible apply kept_dropHeld
    | with_reducible apply kept_passedBy | split)
/-! ### LinkCtl -/

theorem kept_notePartner (s : State) (l : Nat) (r : LinkRecord) (hs : Kept s₀ s) : Kept s₀ (notePartner s l r) := by
  unfold notePartner
  repeat' (first
    | with_reducible assumption | with_reducible apply kept_setFld | with_reducible apply kept_modLink)
theorem kept_takeRecord (s : State) (l : Nat) (kind : Nat) (r : LinkRecord) (act : State → State) (hs : Kept s₀ s) (hact : ∀ t, Kept s₀ t → Kept s₀ (act t)) :
    Kept s₀ (takeRecord s l kind r act) := by
  unfold takeRecord
  repeat' (first
    | with_reducible assumption | with_reducible apply kept_hostileEvent | with_reducible apply kept_startRetrain
    | with_reducible apply kept_fenceLink | with_reducible apply kept_notePartner | with_reducible apply hact
    | with_reducible apply kept_ite)
theorem kept_negotiate (s : State) (l : Nat) (r : LinkRecord) (hs : Kept s₀ s) : Kept s₀ (negotiate s l r) := by
  unfold negotiate
  repeat' (first
    | with_reducible assumption | with_reducible apply kept_notePartner | with_reducible apply kept_bump
    | with_reducible apply kept_sendKind | with_reducible apply kept_setFld | with_reducible apply kept_modLink
    | with_reducible apply kept_goUp | with_reducible apply kept_ite)
theorem kept_notReady (s : State) (l : Nat) (r : LinkRecord) (hs : Kept s₀ s) : Kept s₀ (notReady s l r) := by
  unfold notReady
  repeat' (first
    | with_reducible assumption | with_reducible apply kept_notePartner | with_reducible apply kept_setLinkState
    | with_reducible apply kept_modLink | with_reducible apply kept_ite)
theorem kept_heartbeat (s : State) (l : Nat) (r : LinkRecord) (hs : Kept s₀ s) : Kept s₀ (heartbeat s l r) := by
  unfold heartbeat
  repeat' (first
    | with_reducible assumption | with_reducible apply kept_bump | with_reducible apply kept_notePartner
    | with_reducible apply kept_modLink | with_reducible apply kept_goUp | with_reducible apply kept_ite)
theorem kept_degrade (s : State) (l : Nat) (r : LinkRecord) (hs : Kept s₀ s) : Kept s₀ (degrade s l r) := by
  unfold degrade
  repeat' (first
    | with_reducible assumption | with_reducible apply kept_notePartner | with_reducible apply kept_modLink
    | with_reducible apply kept_useLanes | with_reducible apply kept_sendKind | with_reducible apply kept_ite)
theorem kept_partnerFenced (s : State) (l : Nat) (r : LinkRecord) (hs : Kept s₀ s) : Kept s₀ (partnerFenced s l r) := by
  unfold partnerFenced
  repeat' (first
    | with_reducible assumption | with_reducible apply kept_notePartner | with_reducible apply kept_modLink)
theorem kept_anyRecord (s : State) (l : Nat) (r : LinkRecord) (hs : Kept s₀ s) : Kept s₀ (anyRecord s l r) := by
  unfold anyRecord
  repeat' (first
    | with_reducible assumption | intro _ | with_reducible apply kept_takeRecord | with_reducible apply kept_negotiate
    | with_reducible apply kept_notReady | with_reducible apply kept_heartbeat | with_reducible apply kept_degrade
    | with_reducible apply kept_partnerFenced | split)
theorem kept_execNegotiateReceive (l : LinkId) (rec : LinkRecord) (s : State) (hs : Kept s₀ s) :
    KeptNext s₀ (execNegotiateReceive l rec s) := by
  unfold execNegotiateReceive
  repeat' (first
    | with_reducible assumption | intro _ | with_reducible apply keptNext_next | with_reducible apply kept_takeRecord
    | with_reducible apply kept_negotiate)
theorem kept_execNotReadyReceive (l : LinkId) (rec : LinkRecord) (s : State) (hs : Kept s₀ s) :
    KeptNext s₀ (execNotReadyReceive l rec s) := by
  unfold execNotReadyReceive
  repeat' (first
    | with_reducible assumption | intro _ | with_reducible apply keptNext_next | with_reducible apply kept_takeRecord
    | with_reducible apply kept_notReady)
theorem kept_execHeartbeatReceive (l : LinkId) (rec : LinkRecord) (s : State) (hs : Kept s₀ s) :
    KeptNext s₀ (execHeartbeatReceive l rec s) := by
  unfold execHeartbeatReceive
  repeat' (first
    | with_reducible assumption | intro _ | with_reducible apply keptNext_next | with_reducible apply kept_takeRecord
    | with_reducible apply kept_heartbeat)
theorem kept_execDegradeReceive (l : LinkId) (rec : LinkRecord) (s : State) (hs : Kept s₀ s) :
    KeptNext s₀ (execDegradeReceive l rec s) := by
  unfold execDegradeReceive
  repeat' (first
    | with_reducible assumption | intro _ | with_reducible apply keptNext_next | with_reducible apply kept_takeRecord
    | with_reducible apply kept_degrade)
theorem kept_execFencedReceive (l : LinkId) (rec : LinkRecord) (s : State) (hs : Kept s₀ s) : KeptNext s₀ (execFencedReceive l rec s) := by
  unfold execFencedReceive
  repeat' (first
    | with_reducible assumption | intro _ | with_reducible apply keptNext_next | with_reducible apply kept_takeRecord
    | with_reducible apply kept_partnerFenced)
theorem kept_resendRecord (s : State) (l : Nat) (hs : Kept s₀ s) : Kept s₀ (resendRecord s l) := by
  unfold resendRecord
  repeat' (first
    | with_reducible assumption | with_reducible apply kept_sendKind | with_reducible apply kept_modLink
    | with_reducible apply kept_ite | simp only [kept_mk] | split)
theorem kept_execNegotiateResend (l : LinkId) (s : State) (hs : Kept s₀ s) : KeptNext s₀ (execNegotiateResend l s) := by
  unfold execNegotiateResend
  repeat' (first
    | with_reducible assumption | with_reducible apply keptNext_next | with_reducible apply kept_resendRecord)
theorem kept_execHeartbeatSend (l : LinkId) (s : State) (hs : Kept s₀ s) : KeptNext s₀ (execHeartbeatSend l s) := by
  unfold execHeartbeatSend
  repeat' (first
    | with_reducible assumption | with_reducible apply keptNext_next | with_reducible apply kept_sendKind
    | with_reducible apply kept_modLink | with_reducible apply kept_ite)
theorem kept_heartbeatLost (s : State) (l : Nat) (hs : Kept s₀ s) : Kept s₀ (heartbeatLost s l) := by
  unfold heartbeatLost
  repeat' (first
    | with_reducible assumption | with_reducible apply kept_modLink | with_reducible apply kept_bump | with_reducible apply kept_postBoth
    | with_reducible apply kept_setLinkState | with_reducible apply kept_ite | simp only [kept_mk] | split)
theorem kept_execHeartbeatTimeout (l : LinkId) (s : State) (hs : Kept s₀ s) : KeptNext s₀ (execHeartbeatTimeout l s) := by
  unfold execHeartbeatTimeout
  repeat' (first
    | with_reducible assumption | with_reducible apply keptNext_next | with_reducible apply kept_heartbeatLost)
theorem kept_laneLocked (s : State) (l : Nat) (lane : Nat) (rate : Nat) (latency : Nat) (hs : Kept s₀ s) :
    Kept s₀ (laneLocked s l lane rate latency) := by
  unfold laneLocked
  repeat' (first
    | with_reducible assumption | with_reducible apply kept_setLinkState | with_reducible apply kept_setFld
    | with_reducible apply kept_setLink | with_reducible apply kept_trained | with_reducible apply kept_ite)
theorem kept_execLaneLock (l : LinkId) (lane : Fin 2) (rate : Fin 3) (latencyNs : Nat) (s : State) (hs : Kept s₀ s) :
    KeptNext s₀ (execLaneLock l lane rate latencyNs s) := by
  unfold execLaneLock
  repeat' (first
    | with_reducible assumption | with_reducible apply keptNext_next | with_reducible apply kept_laneLocked)
theorem kept_retireLane (s : State) (l : Nat) (lane : Nat) (hs : Kept s₀ s) : Kept s₀ (retireLane s l lane) := by
  unfold retireLane
  repeat' (first
    | with_reducible assumption | with_reducible apply kept_healthEvent | with_reducible apply kept_bump
    | with_reducible apply kept_modLink | with_reducible apply kept_goDown | with_reducible apply kept_trained
    | with_reducible apply kept_useLanes | with_reducible apply kept_sendKind | with_reducible apply kept_ite)
theorem kept_execLaneRetire (l : LinkId) (lane : Fin 2) (s : State) (hs : Kept s₀ s) : KeptNext s₀ (execLaneRetire l lane s) := by
  unfold execLaneRetire
  repeat' (first
    | with_reducible assumption | with_reducible apply keptNext_next | with_reducible apply kept_retireLane)
theorem kept_execLinkRetrainStart (l : LinkId) (s : State) (hs : Kept s₀ s) : KeptNext s₀ (execLinkRetrainStart l s) := by
  unfold execLinkRetrainStart
  repeat' (first
    | with_reducible assumption | with_reducible apply keptNext_next | with_reducible apply kept_startRetrain
    | with_reducible apply kept_ite)
theorem kept_retrainEnd (s : State) (l : Nat) (ok : Bool) (latency : Nat) (hs : Kept s₀ s) : Kept s₀ (retrainEnd s l ok latency) := by
  unfold retrainEnd
  repeat' (first
    | with_reducible assumption | with_reducible apply kept_setFld | with_reducible apply kept_goUp | with_reducible apply kept_modLink
    | with_reducible apply kept_goDown | with_reducible apply kept_lowerRate | with_reducible apply kept_ite)
theorem kept_execLinkRetrainEnd (l : LinkId) (ok : Bool) (latencyNs : Nat) (s : State) (hs : Kept s₀ s) :
    KeptNext s₀ (execLinkRetrainEnd l ok latencyNs s) := by
  unfold execLinkRetrainEnd
  repeat' (first
    | with_reducible assumption | with_reducible apply keptNext_next | with_reducible apply kept_retrainEnd)
theorem kept_execTrainingTimeout (l : LinkId) (s : State) (hs : Kept s₀ s) : KeptNext s₀ (execTrainingTimeout l s) := by
  unfold execTrainingTimeout
  repeat' (first
    | with_reducible assumption | with_reducible apply keptNext_next | with_reducible apply kept_lowerRate
    | with_reducible apply kept_goDown | with_reducible apply kept_ite)
theorem kept_execLnkLoopStart (l : LinkId) (value : Word) (s : State) (hs : Kept s₀ s) : KeptNext s₀ (execLnkLoopStart l value s) := by
  unfold execLnkLoopStart
  repeat' (first
    | with_reducible assumption | with_reducible apply keptNext_next | with_reducible apply kept_linkLoopWrite)
theorem kept_execLnkLoopModeWrite (l : LinkId) (value : Word) (s : State) (hs : Kept s₀ s) :
    KeptNext s₀ (execLnkLoopModeWrite l value s) := by
  unfold execLnkLoopModeWrite
  repeat' (first
    | with_reducible assumption | with_reducible apply keptNext_next | with_reducible apply kept_linkLoopWrite)
theorem kept_linkLoopDone (s : State) (l : Nat) (e0 : Nat) (e1 : Nat) (k0 : Bool) (k1 : Bool) (hs : Kept s₀ s) :
    Kept s₀ (linkLoopDone s l e0 e1 k0 k1) := by
  unfold linkLoopDone
  repeat' (first
    | with_reducible assumption | with_reducible apply kept_setFld | with_reducible apply kept_setRaw
    | with_reducible apply kept_goDown | with_reducible apply kept_modLink | with_reducible apply kept_ite)
theorem kept_execLnkLoopDone (l : LinkId) (errors0 : Nat) (errors1 : Nat) (locked0 : Bool) (locked1 : Bool) (s : State) (hs : Kept s₀ s) :
    KeptNext s₀ (execLnkLoopDone l errors0 errors1 locked0 locked1 s) := by
  unfold execLnkLoopDone
  repeat' (first
    | with_reducible assumption | with_reducible apply keptNext_next | with_reducible apply kept_linkLoopDone)
theorem kept_takeStream (s : State) (l : Nat) (b : List Byte) (lost : List Nat) (hs : Kept s₀ s) : Kept s₀ (takeStream s l b lost) := by
  unfold takeStream
  repeat' (first
    | with_reducible assumption | intro _ | with_reducible apply kept_modLink | with_reducible apply kept_forEach
    | with_reducible apply kept_recvAny | with_reducible apply kept_hostileEvent | with_reducible apply kept_ite)
theorem kept_takePayload (s : State) (l : Nat) (first : Nat) (payload : List Byte) (lost : List Nat) (hs : Kept s₀ s) :
    Kept s₀ (takePayload s l first payload lost) := by
  unfold takePayload
  repeat' (first
    | with_reducible assumption | with_reducible apply kept_takeStream | with_reducible apply kept_hostileEvent
    | with_reducible apply kept_setLink | with_reducible apply kept_ite)
theorem kept_rejectFlit (s : State) (l : Nat) (hs : Kept s₀ s) : Kept s₀ (rejectFlit s l) := by
  unfold rejectFlit
  repeat' (first
    | with_reducible assumption | with_reducible apply kept_countNak | with_reducible apply kept_sendIdle
    | with_reducible apply kept_setLink | with_reducible apply kept_ite)
theorem kept_takeAck (s : State) (l : Nat) (ack : Nat) (hs : Kept s₀ s) : Kept s₀ (takeAck s l ack) := by
  unfold takeAck
  repeat' (first
    | with_reducible assumption | with_reducible apply kept_setLink | with_reducible apply kept_ite)
theorem kept_takeCredit (s : State) (l : Nat) (c : Nat) (freed : Nat) (hs : Kept s₀ s) : Kept s₀ (takeCredit s l c freed) := by
  unfold takeCredit
  repeat' (first
    | with_reducible assumption | with_reducible apply kept_setLink | with_reducible apply kept_hostileEvent
    | with_reducible apply kept_ite)
theorem kept_takeNak (s : State) (l : Nat) (ack : Nat) (hs : Kept s₀ s) : Kept s₀ (takeNak s l ack) := by
  unfold takeNak
  repeat' (first
    | with_reducible assumption | with_reducible apply kept_setLink | with_reducible apply kept_resendFrom
    | with_reducible apply kept_countNak | with_reducible apply kept_startRetrain | with_reducible apply kept_ite)
theorem kept_dataFlit (s : State) (l : Nat) (b : List Byte) (lost : List Nat) (hs : Kept s₀ s) : Kept s₀ (dataFlit s l b lost) := by
  unfold dataFlit
  repeat' (first
    | with_reducible assumption | with_reducible apply kept_setLink | with_reducible apply kept_takePayload
    | with_reducible apply kept_sendIdle | with_reducible apply kept_rejectFlit | with_reducible apply kept_ite)
theorem kept_controlFlit (s : State) (l : Nat) (b : List Byte) (hs : Kept s₀ s) : Kept s₀ (controlFlit s l b) := by
  unfold controlFlit
  repeat' (first
    | with_reducible assumption | with_reducible apply kept_anyRecord | with_reducible apply kept_hostileEvent
    | with_reducible apply kept_ite | split)
theorem kept_malformedFlit (s : State) (l : Nat) (type : Nat) (hs : Kept s₀ s) : Kept s₀ (malformedFlit s l type) := by
  unfold malformedFlit
  repeat' (first
    | with_reducible assumption | with_reducible apply kept_bump | with_reducible apply kept_rejectFlit
    | with_reducible apply kept_hostileEvent | with_reducible apply kept_ite)
theorem kept_goodFlit (s : State) (l : Nat) (b : List Byte) (lost : List Nat) (hs : Kept s₀ s) : Kept s₀ (goodFlit s l b lost) := by
  unfold goodFlit
  repeat' (first
    | with_reducible assumption | with_reducible apply kept_malformedFlit | with_reducible apply kept_controlFlit
    | with_reducible apply kept_takeAck | with_reducible apply kept_takeCredit | with_reducible apply kept_takeNak
    | with_reducible apply kept_dataFlit | with_reducible apply kept_pump | with_reducible apply kept_ite)
theorem kept_badWord (s : State) (l : Nat) (lane : Nat) (hs : Kept s₀ s) : Kept s₀ (badWord s l lane) := by
  unfold badWord
  repeat' (first
    | with_reducible assumption | with_reducible apply kept_healthEvent | with_reducible apply kept_modLink
    | with_reducible apply kept_retireLane | with_reducible apply kept_ite)
theorem kept_flitReceived (s : State) (l : Nat) (lane : Nat) (decoded : Bool) (corrected : Bool) (b : List Byte) (lost : List Nat) (hs : Kept s₀ s) :
    Kept s₀ (flitReceived s l lane decoded corrected b lost) := by
  unfold flitReceived
  repeat' (first
    | with_reducible assumption | with_reducible apply kept_bump | with_reducible apply kept_badWord | with_reducible apply kept_rejectFlit
    | with_reducible apply kept_goodFlit | with_reducible apply kept_ite)
theorem kept_execFlitReceive (l : LinkId) (decoded : Bool) (corrected : Bool) (flit : RxFlit) (s : State) (hs : Kept s₀ s) :
    KeptNext s₀ (execFlitReceive l decoded corrected flit s) := by
  unfold execFlitReceive
  repeat' (first
    | with_reducible assumption | with_reducible apply keptNext_next | with_reducible apply kept_flitReceived)
/-! ### CmdNet -/

theorem kept_effectGroupBind (c : Cmd) (s : State) (hs : Kept s₀ s) : Kept s₀ (effectGroupBind c s).state := by
  unfold effectGroupBind
  repeat' (first
    | with_reducible assumption | with_reducible apply kept_setGroup | with_reducible apply kept_okWith
    | with_reducible apply kept_modCtx | with_reducible apply kept_ite)
theorem kept_execGroupBind (rq : Req) (ctx : Word) (group : Word) (epoch : Word) (s : State) (hs : Kept s₀ s) :
    KeptNext s₀ (execGroupBind rq ctx group epoch s) := by
  unfold execGroupBind
  repeat' (first
    | with_reducible assumption | intro _ | with_reducible apply keptNext_next | with_reducible apply kept_runRow
    | with_reducible apply kept_effectGroupBind)
theorem kept_effectEpochInstall (c : Cmd) (s : State) (hs : Kept s₀ s) : Kept s₀ (effectEpochInstall c s).state := by
  unfold effectEpochInstall
  repeat' (first
    | with_reducible assumption | intro _ | with_reducible apply kept_setGroup | with_reducible apply kept_abortGroup
    | with_reducible apply kept_bump | with_reducible apply kept_staleComms | with_reducible apply kept_forEach
    | with_reducible apply kept_dropExcluded | with_reducible apply kept_okWith | with_reducible apply kept_recheckHeld
    | with_reducible apply kept_ite)
theorem kept_execEpochInstall (rq : Req) (group : Word) (epoch : Word) (mask : Word) (isMember : Word) (s : State) (hs : Kept s₀ s) :
    KeptNext s₀ (execEpochInstall rq group epoch mask isMember s) := by
  unfold execEpochInstall
  repeat' (first
    | with_reducible assumption | intro _ | with_reducible apply keptNext_next | with_reducible apply kept_runRow
    | with_reducible apply kept_effectEpochInstall)
theorem kept_effectCommCreate (c : Cmd) (s : State) (hs : Kept s₀ s) : Kept s₀ (effectCommCreate c s).state := by
  unfold effectCommCreate
  repeat' (first
    | with_reducible assumption | with_reducible apply kept_done | with_reducible apply kept_okWith | with_reducible apply kept_setComm
    | (refine kept_pickIndex ?_ (by with_reducible assumption)) | simp only [kept_mk] | split)
theorem kept_execCommCreate (rq : Req) (ctx : Word) (sec : Word) (addr : Word) (s : State) (hs : Kept s₀ s) :
    KeptNext s₀ (execCommCreate rq ctx sec addr s) := by
  unfold execCommCreate
  repeat' (first
    | with_reducible assumption | intro _ | with_reducible apply keptNext_next | with_reducible apply kept_runRowWith
    | with_reducible apply kept_effectCommCreate)
theorem kept_effectCommDestroy (c : Cmd) (s : State) (hs : Kept s₀ s) : Kept s₀ (effectCommDestroy c s).state := by
  unfold effectCommDestroy
  repeat' (first
    | with_reducible assumption | with_reducible apply kept_okWith | with_reducible apply kept_pruneTokens
    | with_reducible apply kept_setComm)
theorem kept_execCommDestroy (rq : Req) (sec : Word) (comm : Word) (s : State) (hs : Kept s₀ s) :
    KeptNext s₀ (execCommDestroy rq sec comm s) := by
  unfold execCommDestroy
  repeat' (first
    | with_reducible assumption | intro _ | with_reducible apply keptNext_next | with_reducible apply kept_runRow
    | with_reducible apply kept_effectCommDestroy)
theorem kept_effectLinkExpect (c : Cmd) (s : State) (hs : Kept s₀ s) : Kept s₀ (effectLinkExpect c s).state := by
  unfold effectLinkExpect
  repeat' (first
    | with_reducible assumption | with_reducible apply kept_modLink | with_reducible apply kept_okWith
    | with_reducible apply kept_setFld)
theorem kept_execLinkExpect (rq : Req) (link : Word) (moduleId : Word) (partner : Word) (check : Word) (s : State) (hs : Kept s₀ s) :
    KeptNext s₀ (execLinkExpect rq link moduleId partner check s) := by
  unfold execLinkExpect
  repeat' (first
    | with_reducible assumption | intro _ | with_reducible apply keptNext_next | with_reducible apply kept_runRow
    | with_reducible apply kept_effectLinkExpect)
theorem kept_trainAnew (s : State) (l : Nat) (hs : Kept s₀ s) : Kept s₀ (trainAnew s l) := by
  unfold trainAnew
  repeat' (first
    | with_reducible assumption | with_reducible apply kept_setFld | with_reducible apply kept_setLinkState
    | with_reducible apply kept_modLink)
theorem kept_retrainAll (s : State) (l : Nat) (hs : Kept s₀ s) : Kept s₀ (retrainAll s l) := by
  unfold retrainAll
  repeat' (first
    | with_reducible assumption | with_reducible apply kept_modLink | with_reducible apply kept_startRetrain
    | with_reducible apply kept_trainAnew | with_reducible apply kept_ite)
theorem kept_unfence (s : State) (l : Nat) (hs : Kept s₀ s) : Kept s₀ (unfence s l) := by
  unfold unfence
  repeat' (first
    | with_reducible assumption | with_reducible apply kept_setFld | with_reducible apply kept_goDown
    | with_reducible apply kept_modLink | with_reducible apply kept_trainAnew | with_reducible apply kept_ite)
theorem kept_effectLinkAction (c : Cmd) (s : State) (hs : Kept s₀ s) : Kept s₀ (effectLinkAction c s).state := by
  unfold effectLinkAction
  repeat' (first
    | with_reducible assumption | with_reducible apply kept_okWith | with_reducible apply kept_retrainAll
    | with_reducible apply kept_fenceLink | with_reducible apply kept_unfence | with_reducible apply kept_ite)
theorem kept_execLinkRetrain (rq : Req) (link : Word) (s : State) (hs : Kept s₀ s) : KeptNext s₀ (execLinkRetrain rq link s) := by
  unfold execLinkRetrain
  repeat' (first
    | with_reducible assumption | intro _ | with_reducible apply keptNext_next | with_reducible apply kept_runRow
    | with_reducible apply kept_effectLinkAction)
theorem kept_execLinkFence (rq : Req) (link : Word) (s : State) (hs : Kept s₀ s) : KeptNext s₀ (execLinkFence rq link s) := by
  unfold execLinkFence
  repeat' (first
    | with_reducible assumption | intro _ | with_reducible apply keptNext_next | with_reducible apply kept_runRow
    | with_reducible apply kept_effectLinkAction)
theorem kept_execLinkUnfence (rq : Req) (link : Word) (s : State) (hs : Kept s₀ s) : KeptNext s₀ (execLinkUnfence rq link s) := by
  unfold execLinkUnfence
  repeat' (first
    | with_reducible assumption | intro _ | with_reducible apply keptNext_next | with_reducible apply kept_runRow
    | with_reducible apply kept_effectLinkAction)
theorem kept_effectLinkCfg (c : Cmd) (s : State) (hs : Kept s₀ s) : Kept s₀ (effectLinkCfg c s).state := by
  unfold effectLinkCfg
  repeat' (first
    | with_reducible assumption | intro _ | with_reducible apply kept_okWith | with_reducible apply kept_forEach
    | with_reducible apply kept_setFld)
theorem kept_execLinkCfg (rq : Req) (mask : Word) (fenceLimit : Word) (grace : Word) (rateCap : Word) (s : State) (hs : Kept s₀ s) :
    KeptNext s₀ (execLinkCfg rq mask fenceLimit grace rateCap s) := by
  unfold execLinkCfg
  repeat' (first
    | with_reducible assumption | intro _ | with_reducible apply keptNext_next | with_reducible apply kept_runRow
    | with_reducible apply kept_effectLinkCfg)
/-! ### CmdNum -/

theorem kept_effectHistSet (c : Cmd) (s : State) (hs : Kept s₀ s) : Kept s₀ (effectHistSet c s).state := by
  unfold effectHistSet
  repeat' (first
    | with_reducible assumption | with_reducible apply kept_okWith | with_reducible apply kept_onTensor)
theorem kept_execHistSet (rq : Req) (tensor : Word) (base : Word) (width : Word) (s : State) (hs : Kept s₀ s) :
    KeptNext s₀ (execHistSet rq tensor base width s) := by
  unfold execHistSet
  repeat' (first
    | with_reducible assumption | intro _ | with_reducible apply keptNext_next | with_reducible apply kept_runRow
    | with_reducible apply kept_effectHistSet)
theorem kept_snapClear (s : State) (p : Nat) (kind : Nat) (e : Nat) (hs : Kept s₀ s) : Kept s₀ (snapClear s p kind e) := by
  unfold snapClear
  repeat' (first
    | with_reducible assumption | with_reducible apply kept_modTensor | with_reducible apply kept_modGate
    | with_reducible apply kept_clearNf | split)
theorem kept_effectNumSnapshot (c : Cmd) (s : State) (hs : Kept s₀ s) : Kept s₀ (effectNumSnapshot c s).state := by
  unfold effectNumSnapshot
  repeat' (first
    | with_reducible assumption | intro _ | with_reducible apply kept_writeArg | with_reducible apply kept_okWith
    | with_reducible apply kept_forEach | with_reducible apply kept_snapClear | with_reducible apply kept_ite)
theorem kept_execNumSnapshot (rq : Req) (kind : Word) (list : Word) (count : Word) (dest : Word) (clear : Word) (s : State) (hs : Kept s₀ s) :
    KeptNext s₀ (execNumSnapshot rq kind list count dest clear s) := by
  unfold execNumSnapshot
  repeat' (first
    | with_reducible assumption | intro _ | with_reducible apply keptNext_next | with_reducible apply kept_runRowWith
    | with_reducible apply kept_effectNumSnapshot)
theorem kept_effectGateCreate (c : Cmd) (s : State) (hs : Kept s₀ s) : Kept s₀ (effectGateCreate c s).state := by
  unfold effectGateCreate
  repeat' (first
    | with_reducible assumption | with_reducible apply kept_done | with_reducible apply kept_okWith | with_reducible apply kept_writeScaleRow
    | with_reducible apply kept_setGate | (refine kept_pickIndex ?_ (by with_reducible assumption)) | simp only [kept_mk]
    | split)
theorem kept_execGateCreate (rq : Req) (ctx : Word) (row : Word) (scale : Word) (down : Word) (up : Word) (interval : Word) (nfAddr : Word) (s : State) (hs : Kept s₀ s) :
    KeptNext s₀ (execGateCreate rq ctx row scale down up interval nfAddr s) := by
  unfold execGateCreate
  repeat' (first
    | with_reducible assumption | intro _ | with_reducible apply keptNext_next | with_reducible apply kept_runRow
    | with_reducible apply kept_effectGateCreate)
theorem kept_effectGateSet (c : Cmd) (s : State) (hs : Kept s₀ s) : Kept s₀ (effectGateSet c s).state := by
  unfold effectGateSet
  repeat' (first
    | with_reducible assumption | with_reducible apply kept_okWith | with_reducible apply kept_writeScaleRow
    | with_reducible apply kept_setGate)
theorem kept_execGateSet (rq : Req) (gate : Word) (row : Word) (scale : Word) (down : Word) (up : Word) (interval : Word) (nfAddr : Word) (s : State) (hs : Kept s₀ s) :
    KeptNext s₀ (execGateSet rq gate row scale down up interval nfAddr s) := by
  unfold execGateSet
  repeat' (first
    | with_reducible assumption | intro _ | with_reducible apply keptNext_next | with_reducible apply kept_runRow
    | with_reducible apply kept_effectGateSet)
theorem kept_effectGateDestroy (c : Cmd) (s : State) (hs : Kept s₀ s) : Kept s₀ (effectGateDestroy c s).state := by
  unfold effectGateDestroy
  repeat' (first
    | with_reducible assumption | with_reducible apply kept_okWith | with_reducible apply kept_pruneTokens
    | with_reducible apply kept_setGate)
theorem kept_execGateDestroy (rq : Req) (gate : Word) (s : State) (hs : Kept s₀ s) : KeptNext s₀ (execGateDestroy rq gate s) := by
  unfold execGateDestroy
  repeat' (first
    | with_reducible assumption | intro _ | with_reducible apply keptNext_next | with_reducible apply kept_runRow
    | with_reducible apply kept_effectGateDestroy)
theorem kept_effectWitnessCfg (c : Cmd) (s : State) (hs : Kept s₀ s) : Kept s₀ (effectWitnessCfg c s).state := by
  unfold effectWitnessCfg
  repeat' (first
    | with_reducible assumption | intro _ | with_reducible apply kept_forEach | with_reducible apply kept_setFld
    | with_reducible apply kept_okWith | with_reducible apply kept_modPart)
theorem kept_execWitnessCfg (rq : Req) (enable : Word) (k : Word) (wseed : Word) (hold : Word) (s : State) (hs : Kept s₀ s) :
    KeptNext s₀ (execWitnessCfg rq enable k wseed hold s) := by
  unfold execWitnessCfg
  repeat' (first
    | with_reducible assumption | intro _ | with_reducible apply keptNext_next | with_reducible apply kept_runRow
    | with_reducible apply kept_effectWitnessCfg)
theorem kept_effectDriftPair (c : Cmd) (s : State) (hs : Kept s₀ s) : Kept s₀ (effectDriftPair c s).state := by
  unfold effectDriftPair
  repeat' (first
    | with_reducible assumption | with_reducible apply kept_done | with_reducible apply kept_okWith | with_reducible apply kept_modPart
    | with_reducible apply kept_iteOut | (refine kept_pickIndex ?_ (by with_reducible assumption)) | simp only [kept_mk]
    | split)
theorem kept_execDriftPair (rq : Req) (out : Word) (wideA : Word) (wideB : Word) (band : Word) (floor : Word) (remove : Word) (s : State) (hs : Kept s₀ s) :
    KeptNext s₀ (execDriftPair rq out wideA wideB band floor remove s) := by
  unfold execDriftPair
  repeat' (first
    | with_reducible assumption | intro _ | with_reducible apply keptNext_next | with_reducible apply kept_runRow
    | with_reducible apply kept_effectDriftPair)
theorem kept_effectOutlierRing (c : Cmd) (s : State) (hs : Kept s₀ s) : Kept s₀ (effectOutlierRing c s).state := by
  unfold effectOutlierRing
  repeat' (first
    | with_reducible assumption | with_reducible apply kept_okWith | with_reducible apply kept_modPart)
theorem kept_execOutlierRing (rq : Req) (addr : Word) (len : Word) (s : State) (hs : Kept s₀ s) :
    KeptNext s₀ (execOutlierRing rq addr len s) := by
  unfold execOutlierRing
  repeat' (first
    | with_reducible assumption | intro _ | with_reducible apply keptNext_next | with_reducible apply kept_runRow
    | with_reducible apply kept_effectOutlierRing)
theorem kept_effectRplRecord (c : Cmd) (s : State) (hs : Kept s₀ s) : Kept s₀ (effectRplRecord c s).state := by
  unfold effectRplRecord
  repeat' (first
    | with_reducible assumption | with_reducible apply kept_okWith | with_reducible apply kept_modCtx)
theorem kept_execRplRecord (rq : Req) (ctx : Word) (addr : Word) (len : Word) (payload : Word) (s : State) (hs : Kept s₀ s) :
    KeptNext s₀ (execRplRecord rq ctx addr len payload s) := by
  unfold execRplRecord
  repeat' (first
    | with_reducible assumption | intro _ | with_reducible apply keptNext_next | with_reducible apply kept_runRow
    | with_reducible apply kept_effectRplRecord)
theorem kept_effectRplMark (c : Cmd) (s : State) (hs : Kept s₀ s) : Kept s₀ (effectRplMark c s).state := by
  unfold effectRplMark
  repeat' (first
    | with_reducible assumption | with_reducible apply kept_okWith | with_reducible apply kept_modCtx)
theorem kept_execRplMark (rq : Req) (ctx : Word) (tally : Word) (tensor : Word) (n : Word) (s : State) (hs : Kept s₀ s) :
    KeptNext s₀ (execRplMark rq ctx tally tensor n s) := by
  unfold execRplMark
  repeat' (first
    | with_reducible assumption | intro _ | with_reducible apply keptNext_next | with_reducible apply kept_runRow
    | with_reducible apply kept_effectRplMark)
theorem kept_effectRplReplay (c : Cmd) (s : State) (hs : Kept s₀ s) : Kept s₀ (effectRplReplay c s).state := by
  unfold effectRplReplay
  repeat' (first
    | with_reducible assumption | with_reducible apply kept_wait | with_reducible apply kept_setFld | with_reducible apply kept_setRaw
    | with_reducible apply kept_modCtx)
theorem kept_execRplReplay (rq : Req) (ctx : Word) (addr : Word) (len : Word) (s : State) (hs : Kept s₀ s) :
    KeptNext s₀ (execRplReplay rq ctx addr len s) := by
  unfold execRplReplay
  repeat' (first
    | with_reducible assumption | intro _ | with_reducible apply keptNext_next | with_reducible apply kept_runRow
    | with_reducible apply kept_effectRplReplay)
/-! ### CmdMgmt -/

theorem kept_effectGravelCfg (c : Cmd) (s : State) (hs : Kept s₀ s) : Kept s₀ (effectGravelCfg c s).state := by
  unfold effectGravelCfg
  repeat' (first
    | with_reducible assumption | intro _ | with_reducible apply kept_okWith | with_reducible apply kept_forEach
    | with_reducible apply kept_setFld)
theorem kept_execGravelCfg (rq : Req) (period : Word) (corners : Word) (s : State) (hs : Kept s₀ s) :
    KeptNext s₀ (execGravelCfg rq period corners s) := by
  unfold execGravelCfg
  repeat' (first
    | with_reducible assumption | intro _ | with_reducible apply keptNext_next | with_reducible apply kept_runRow
    | with_reducible apply kept_effectGravelCfg)
theorem kept_effectAutumnRun (c : Cmd) (s : State) (hs : Kept s₀ s) : Kept s₀ (effectAutumnRun c s).state := by
  unfold effectAutumnRun
  repeat' (first
    | with_reducible assumption | with_reducible apply kept_wait | with_reducible apply kept_startAutumn)
theorem kept_execAutumnRun (rq : Req) (mask : Word) (s : State) (hs : Kept s₀ s) : KeptNext s₀ (execAutumnRun rq mask s) := by
  unfold execAutumnRun
  repeat' (first
    | with_reducible assumption | intro _ | with_reducible apply keptNext_next | with_reducible apply kept_runRow
    | with_reducible apply kept_effectAutumnRun)
theorem kept_effectPowerCap (c : Cmd) (s : State) (hs : Kept s₀ s) : Kept s₀ (effectPowerCap c s).state := by
  unfold effectPowerCap
  repeat' (first
    | with_reducible assumption | with_reducible apply kept_okWith | simp only [kept_mk])
theorem kept_execPowerCap (rq : Req) (watts : Word) (s : State) (hs : Kept s₀ s) : KeptNext s₀ (execPowerCap rq watts s) := by
  unfold execPowerCap
  repeat' (first
    | with_reducible assumption | intro _ | with_reducible apply keptNext_next | with_reducible apply kept_runRow
    | with_reducible apply kept_effectPowerCap)
theorem kept_effectLimits (c : Cmd) (s : State) (hs : Kept s₀ s) : Kept s₀ (effectLimits c s).state := by
  unfold effectLimits
  repeat' (first
    | with_reducible assumption | intro _ | with_reducible apply kept_forEach | with_reducible apply kept_setFld
    | with_reducible apply kept_okWith | with_reducible apply kept_modPart | with_reducible apply kept_ite)
theorem kept_execLimits (rq : Req) (coreWait : Word) (collWait : Word) (hold : Word) (s : State) (hs : Kept s₀ s) :
    KeptNext s₀ (execLimits rq coreWait collWait hold s) := by
  unfold execLimits
  repeat' (first
    | with_reducible assumption | intro _ | with_reducible apply keptNext_next | with_reducible apply kept_runRow
    | with_reducible apply kept_effectLimits)
theorem kept_effectTelemetry (c : Cmd) (s : State) (hs : Kept s₀ s) : Kept s₀ (effectTelemetry c s).state := by
  unfold effectTelemetry
  repeat' (first
    | with_reducible assumption | with_reducible apply kept_okWith | with_reducible apply kept_writeArg)
theorem kept_execTelemetry (rq : Req) (kind : Word) (addr : Word) (s : State) (hs : Kept s₀ s) :
    KeptNext s₀ (execTelemetry rq kind addr s) := by
  unfold execTelemetry
  repeat' (first
    | with_reducible assumption | intro _ | with_reducible apply keptNext_next | with_reducible apply kept_runRow
    | with_reducible apply kept_effectTelemetry)
theorem kept_effectHealth (c : Cmd) (s : State) (hs : Kept s₀ s) : Kept s₀ (effectHealth c s).state := by
  unfold effectHealth
  repeat' (first
    | with_reducible assumption | with_reducible apply kept_okWith | with_reducible apply kept_writeArg)
theorem kept_execHealth (rq : Req) (addr : Word) (s : State) (hs : Kept s₀ s) : KeptNext s₀ (execHealth rq addr s) := by
  unfold execHealth
  repeat' (first
    | with_reducible assumption | intro _ | with_reducible apply keptNext_next | with_reducible apply kept_runRow
    | with_reducible apply kept_effectHealth)
theorem kept_effectEscalation (c : Cmd) (s : State) (hs : Kept s₀ s) : Kept s₀ (effectEscalation c s).state := by
  unfold effectEscalation
  repeat' (first
    | with_reducible assumption | with_reducible apply kept_setFld | with_reducible apply kept_okWith)
theorem kept_execEscalation (rq : Req) (partLimit : Word) (ctxLimit : Word) (window : Word) (s : State) (hs : Kept s₀ s) :
    KeptNext s₀ (execEscalation rq partLimit ctxLimit window s) := by
  unfold execEscalation
  repeat' (first
    | with_reducible assumption | intro _ | with_reducible apply keptNext_next | with_reducible apply kept_runRow
    | with_reducible apply kept_effectEscalation)
theorem kept_execCommandTimeout (fn : Fn) (via : Via) (s : State) (hs : Kept s₀ s) : KeptNext s₀ (execCommandTimeout fn via s) := by
  unfold execCommandTimeout
  repeat' (first
    | with_reducible assumption | with_reducible apply keptNext_next | with_reducible apply kept_publishOne
    | split)
/-! ### Start -/

theorem kept_cleared (s : State) (m : Module) (cause : Nat) (hs : Kept s₀ s) : Kept s₀ (cleared s m cause) := by
  unfold cleared
  have h := firmwareOk_activate (f := { s.flash with moduleResets := min (s.flash.moduleResets + 1) 65535 }) hs.inv.2
  exact kept_setFld _ _ _ _ _ (kept_setFld _ _ _ _ _ (kept_startOver hs h.2.1 h.2.2 h.1))
theorem kept_resetRelease (s : State) (hs : Kept s₀ s) : Kept s₀ (resetRelease s) := by
  unfold resetRelease
  repeat' (first
    | with_reducible assumption | with_reducible apply kept_setFld | simp only [kept_mk])
theorem kept_moduleReset (s : State) (cause : Nat) (hs : Kept s₀ s) : Kept s₀ (moduleReset s cause) := by
  unfold moduleReset
  repeat' (first
    | with_reducible assumption | with_reducible apply kept_resetRelease | with_reducible apply kept_cleared)
theorem kept_execPerstNAssert (s : State) (hs : Kept s₀ s) : KeptNext s₀ (execPerstNAssert s) := by
  unfold execPerstNAssert
  repeat' (first
    | with_reducible assumption | with_reducible apply keptNext_next | with_reducible apply kept_cleared
    | with_reducible apply kept_ite | simp only [kept_mk])
theorem kept_perstReleaseOp (s : State) (hs : Kept s₀ s) : Kept s₀ (perstReleaseOp s) := by
  unfold perstReleaseOp
  repeat' (first
    | with_reducible assumption | with_reducible apply kept_cleared | with_reducible apply kept_resetRelease
    | with_reducible apply kept_ite | simp only [kept_mk])
theorem kept_execPerstNRelease (s : State) (hs : Kept s₀ s) : KeptNext s₀ (execPerstNRelease s) := by
  unfold execPerstNRelease
  repeat' (first
    | with_reducible assumption | with_reducible apply keptNext_next | with_reducible apply kept_perstReleaseOp)
theorem kept_execHotReset (s : State) (hs : Kept s₀ s) : KeptNext s₀ (execHotReset s) := by
  unfold execHotReset
  repeat' (first
    | with_reducible assumption | with_reducible apply keptNext_next | with_reducible apply kept_moduleReset
    | with_reducible apply kept_ite)
theorem kept_resetKeyOp (value : Half) (s : State) (hs : Kept s₀ s) : Kept s₀ (resetKeyOp value s) := by
  unfold resetKeyOp
  repeat' (first
    | with_reducible assumption | with_reducible apply kept_moduleReset | with_reducible apply kept_ite)
theorem kept_execResetKeyWrite (value : Half) (s : State) (hs : Kept s₀ s) : KeptNext s₀ (execResetKeyWrite value s) := by
  unfold execResetKeyWrite
  repeat' (first
    | with_reducible assumption | with_reducible apply keptNext_next | with_reducible apply kept_resetKeyOp)
theorem kept_noteHistory (s : State) (code : Nat) (hs : Kept s₀ s) : Kept s₀ (noteHistory s code) := by
  unfold noteHistory
  repeat' (first
    | with_reducible assumption | simp only [kept_mk] | simp only [kept_mkFlash])
theorem kept_moduleFatalOp (cause : ModFatal) (s : State) (hs : Kept s₀ s) : Kept s₀ (moduleFatalOp cause s) := by
  unfold moduleFatalOp
  repeat' (first
    | with_reducible assumption | with_reducible apply kept_healthEvent | with_reducible apply kept_moduleReset
    | with_reducible apply kept_noteHistory | with_reducible apply kept_ite | split)
theorem kept_execModuleFatal (cause : ModFatal) (s : State) (hs : Kept s₀ s) : KeptNext s₀ (execModuleFatal cause s) := by
  unfold execModuleFatal
  repeat' (first
    | with_reducible assumption | with_reducible apply keptNext_next | with_reducible apply kept_moduleFatalOp)
theorem kept_icvarWatchdogOp (s : State) (hs : Kept s₀ s) : Kept s₀ (icvarWatchdogOp s) := by
  unfold icvarWatchdogOp
  repeat' (first
    | with_reducible assumption | with_reducible apply kept_noteHistory | with_reducible apply kept_healthEvent
    | with_reducible apply kept_moduleReset | with_reducible apply kept_ite | simp only [kept_mk] | simp only [kept_mkFlash])
theorem kept_execIcvarWatchdog (s : State) (hs : Kept s₀ s) : KeptNext s₀ (execIcvarWatchdog s) := by
  unfold execIcvarWatchdog
  repeat' (first
    | with_reducible assumption | with_reducible apply keptNext_next | with_reducible apply kept_icvarWatchdogOp)
theorem kept_execPowerApplied (s : State) (hs : Kept s₀ s) : KeptNext s₀ (execPowerApplied s) := by
  unfold execPowerApplied
  repeat' (first
    | with_reducible assumption | with_reducible apply keptNext_next | with_reducible apply kept_cleared
    | with_reducible apply kept_ite)
theorem kept_execPowerRemoved (s : State) (hs : Kept s₀ s) : KeptNext s₀ (execPowerRemoved s) := by
  unfold execPowerRemoved
  refine keptNext_next ?_
  split
  · exact hs
  · exact kept_startOver hs (le_refl _) rfl hs.inv.2
theorem kept_putRecord (s : State) (orderly : Bool) (hs : Kept s₀ s) : Kept s₀ (putRecord s orderly) := by
  unfold putRecord
  repeat' (first
    | with_reducible assumption | simp only [kept_mk] | simp only [kept_mkFlash])
theorem kept_startPathOp (fullStartN : Bool) (s : State) (hs : Kept s₀ s) : Kept s₀ (startPathOp fullStartN s) := by
  unfold startPathOp
  repeat' (first
    | with_reducible assumption | with_reducible apply kept_setFld | with_reducible apply kept_startAutumn
    | with_reducible apply kept_ite | simp only [kept_mk] | simp only [kept_mkFlash])
theorem kept_execStartPathChoice (fullStartN : Bool) (s : State) (hs : Kept s₀ s) : KeptNext s₀ (execStartPathChoice fullStartN s) := by
  unfold execStartPathChoice
  repeat' (first
    | with_reducible assumption | with_reducible apply keptNext_next | with_reducible apply kept_startPathOp)
theorem kept_execConfigSpaceReady (s : State) (hs : Kept s₀ s) : KeptNext s₀ (execConfigSpaceReady s) := by
  unfold execConfigSpaceReady
  repeat' (first
    | with_reducible assumption | with_reducible apply keptNext_next | with_reducible apply kept_ite | simp only [kept_mk])
theorem kept_startGroup (s : State) (k : Nat) (hs : Kept s₀ s) : Kept s₀ (startGroup s k) := by
  unfold startGroup
  repeat' (first
    | with_reducible assumption | intro _ | with_reducible apply kept_forEach | with_reducible apply kept_modLink
    | with_reducible apply kept_setLinkState | with_reducible apply kept_setFld | with_reducible apply kept_ite)
theorem kept_powerGrantOp (s : State) (hs : Kept s₀ s) : Kept s₀ (powerGrantOp s) := by
  unfold powerGrantOp
  repeat' (first
    | with_reducible assumption | with_reducible apply kept_startGroup | with_reducible apply kept_ite
    | simp only [kept_mk])
theorem kept_execPowerGrant (s : State) (hs : Kept s₀ s) : KeptNext s₀ (execPowerGrant s) := by
  unfold execPowerGrant
  repeat' (first
    | with_reducible assumption | with_reducible apply keptNext_next | with_reducible apply kept_powerGrantOp)
theorem kept_stackTrainedOp (g : Nat) (identity : Word32) (temp : Byte) (readBackOk : Bool) (s : State) (hs : Kept s₀ s) :
    Kept s₀ (stackTrainedOp g identity temp readBackOk s) := by
  unfold stackTrainedOp
  repeat' (first
    | with_reducible assumption | with_reducible apply kept_setTrainedNow | with_reducible apply kept_setFld
    | with_reducible apply kept_bump | with_reducible apply kept_healthEvent | with_reducible apply kept_ite)
theorem kept_execStackTrainingDone (g : StackId) (identity : Word32) (temp : Byte) (readBackOk : Bool) (s : State) (hs : Kept s₀ s) :
    KeptNext s₀ (execStackTrainingDone g identity temp readBackOk s) := by
  unfold execStackTrainingDone
  repeat' (first
    | with_reducible assumption | with_reducible apply keptNext_next | with_reducible apply kept_stackTrainedOp)
theorem kept_autumnPoints (s : State) (n : Nat) (failed : Nat) (hs : Kept s₀ s) : Kept s₀ (autumnPoints s n failed) := by
  unfold autumnPoints
  repeat' (first
    | with_reducible assumption | intro _ | with_reducible apply kept_forEach | with_reducible apply kept_healthEvent
    | with_reducible apply kept_ite)
theorem kept_relinkSection (s : State) (n : Nat) (hs : Kept s₀ s) : Kept s₀ (relinkSection s n) := by
  unfold relinkSection
  repeat' (first
    | with_reducible assumption | intro _ | with_reducible apply kept_forEach | with_reducible apply kept_goDown
    | with_reducible apply kept_setLinkState | with_reducible apply kept_ite)
theorem kept_endShutDown (s : State) (hs : Kept s₀ s) : Kept s₀ (endShutDown s) := by
  unfold endShutDown
  repeat' (first
    | with_reducible assumption | with_reducible apply kept_putRecord | simp only [kept_mk] | simp only [kept_mkFlash])
theorem kept_afterAutumn (s : State) (source : Nat) (n : Nat) (good : Bool) (hs : Kept s₀ s) : Kept s₀ (afterAutumn s source n good) := by
  unfold afterAutumn
  repeat' (first
    | with_reducible assumption | with_reducible apply kept_endShutDown | with_reducible apply kept_modPart
    | with_reducible apply kept_putRecord | with_reducible apply kept_settle | with_reducible apply kept_ite
    | simp only [kept_mk] | split)
theorem kept_endAutumn (s : State) (n : Nat) (r : AutumnRun) (hs : Kept s₀ s) : Kept s₀ (endAutumn s n r) := by
  unfold endAutumn
  repeat' (first
    | with_reducible assumption | with_reducible apply kept_grantTest | with_reducible apply kept_setAutumn
    | with_reducible apply kept_setAutumnResult | with_reducible apply kept_clearLoam | with_reducible apply kept_resetSectionRegs
    | with_reducible apply kept_clearUnits | with_reducible apply kept_afterAutumn | with_reducible apply kept_autumnPoints)
theorem kept_autumnBlockOp (n : Nat) (block : Nat) (signature : Word32) (again : Word32) (temp : Byte) (s : State) (hs : Kept s₀ s) :
    Kept s₀ (autumnBlockOp n block signature again temp s) := by
  unfold autumnBlockOp
  repeat' (first
    | with_reducible assumption | with_reducible apply kept_grantTest | with_reducible apply kept_setAutumn
    | with_reducible apply kept_clearHbm | with_reducible apply kept_setFld | with_reducible apply kept_relinkSection
    | with_reducible apply kept_endAutumn | with_reducible apply kept_ite | simp only [kept_mk] | split)
theorem kept_execAutumnBlockDone (sec : Sec) (block : Fin 16) (signature : Word32) (again : Word32) (temp : Byte) (s : State) (hs : Kept s₀ s) :
    KeptNext s₀ (execAutumnBlockDone sec block signature again temp s) := by
  unfold execAutumnBlockDone
  repeat' (first
    | with_reducible assumption | with_reducible apply keptNext_next | with_reducible apply kept_autumnBlockOp)
theorem kept_operationalOp (s : State) (hs : Kept s₀ s) : Kept s₀ (operationalOp s) := by
  unfold operationalOp
  repeat' (first
    | with_reducible assumption | intro _ | with_reducible apply kept_putRecord | with_reducible apply kept_setFld
    | with_reducible apply kept_forEach | with_reducible apply kept_sendKind | with_reducible apply kept_ite)
theorem kept_execModuleOperational (s : State) (hs : Kept s₀ s) : KeptNext s₀ (execModuleOperational s) := by
  unfold execModuleOperational
  repeat' (first
    | with_reducible assumption | with_reducible apply keptNext_next | with_reducible apply kept_operationalOp)
theorem kept_abortNow (s : State) (c : Nat) (hs : Kept s₀ s) : Kept s₀ (abortNow s c) := by
  unfold abortNow
  repeat' (first
    | with_reducible assumption | with_reducible apply kept_abortCtx)
theorem kept_destroyAtOnce (s : State) (p : Nat) (hs : Kept s₀ s) : Kept s₀ (destroyAtOnce s p) := by
  unfold destroyAtOnce
  repeat' (first
    | with_reducible assumption | intro _ | with_reducible apply kept_forEach | with_reducible apply kept_abortNow
    | with_reducible apply kept_clearUnits | with_reducible apply kept_teardownCtx | with_reducible apply kept_freeCtx
    | with_reducible apply kept_partResetOp | with_reducible apply kept_appendHandover | with_reducible apply kept_scrubPart
    | with_reducible apply kept_freePart | with_reducible apply kept_ite)
theorem kept_shutDownOp (pldm : Bool) (s : State) (hs : Kept s₀ s) : Kept s₀ (shutDownOp pldm s) := by
  unfold shutDownOp
  repeat' (first
    | with_reducible assumption | intro _ | with_reducible apply kept_grantTest | with_reducible apply kept_forEach
    | with_reducible apply kept_setAutumn | with_reducible apply kept_setFld | with_reducible apply kept_destroyAtOnce
    | with_reducible apply kept_startAutumn | with_reducible apply kept_ite | simp only [kept_mk])
theorem kept_execShdnReq (pldm : Bool) (s : State) (hs : Kept s₀ s) : KeptNext s₀ (execShdnReq pldm s) := by
  unfold execShdnReq
  repeat' (first
    | with_reducible assumption | with_reducible apply keptNext_next | with_reducible apply kept_shutDownOp)
theorem kept_healthDecayOp (s : State) (hs : Kept s₀ s) : Kept s₀ (healthDecayOp s) := by
  unfold healthDecayOp
  repeat' (first
    | with_reducible assumption | with_reducible apply kept_ite | simp only [kept_mk] | simp only [kept_mkFlash])
theorem kept_execHealthDecay (s : State) (hs : Kept s₀ s) : KeptNext s₀ (execHealthDecay s) := by
  unfold execHealthDecay
  repeat' (first
    | with_reducible assumption | with_reducible apply keptNext_next | with_reducible apply kept_healthDecayOp)
/-! ### Mailbox -/

theorem kept_opTableA (op : Nat) (r : CmdRow) (h : opTableA op = some r) (x : Cmd) (t : State) (ht : Kept s₀ t) :
    Kept s₀ (r.2 x t).state := by
  unfold opTableA at h
  split at h <;> cases h
  all_goals (first
    | (with_reducible exact kept_effectHello _ _ ht) | (with_reducible exact kept_effectBye _ _ ht)
    | (with_reducible exact kept_effectPing _ _ ht) | (with_reducible exact kept_effectCmdqClose _ _ ht)
    | (with_reducible exact kept_effectRplStop _ _ ht) | (with_reducible exact kept_effectRplStatus _ _ ht)
    | (with_reducible exact kept_effectCmdqOpen _ _ ht) | (with_reducible exact kept_effectPartCreate _ _ ht)
    | (with_reducible exact kept_effectPartDestroy _ _ ht) | (with_reducible exact kept_effectPartAssign _ _ ht)
    | (with_reducible exact kept_effectPartHandover _ _ ht) | (with_reducible exact kept_effectPartSched _ _ ht)
    | (with_reducible exact kept_effectPartCache _ _ ht) | (with_reducible exact kept_effectSlotTable _ _ ht)
    | (with_reducible exact kept_effectPartInfo _ _ ht) | (with_reducible exact kept_effectCtxCreate _ _ ht)
    | (with_reducible exact kept_effectCtxDestroy _ _ ht) | (with_reducible exact kept_effectCtxSet _ _ ht)
    | (with_reducible exact kept_effectCtxQuiesce _ _ ht) | (with_reducible exact kept_effectCtxSnapshot _ _ ht)
    | (with_reducible exact kept_effectQueueCreate _ _ ht) | (with_reducible exact kept_effectQueueDestroy _ _ ht)
    | (with_reducible exact kept_effectQueueEnable _ _ ht) | (with_reducible exact kept_effectQueueDisable _ _ ht)
    | (with_reducible exact kept_effectQueueReset _ _ ht) | (with_reducible exact kept_effectTallyCreate _ _ ht)
    | (with_reducible exact kept_effectTallySet _ _ ht) | (with_reducible exact kept_effectTallyDestroy _ _ ht)
    | (with_reducible exact kept_effectRegionCreate _ _ ht) | (with_reducible exact kept_effectRegionDestroy _ _ ht)
    | (with_reducible exact kept_effectRegionFreeze _ _ ht) | (with_reducible exact kept_effectWindowSet _ _ ht)
    | (with_reducible exact kept_effectFnState _ _ ht) | (with_reducible exact kept_effectHandleInfo _ _ ht))
theorem kept_opTableB (op : Nat) (r : CmdRow) (h : opTableB op = some r) (x : Cmd) (t : State) (ht : Kept s₀ t) :
    Kept s₀ (r.2 x t).state := by
  unfold opTableB at h
  split at h <;> cases h
  all_goals (first
    | (with_reducible exact kept_effectMemFlush _ _ ht) | (with_reducible exact kept_effectScrubPeriod _ _ ht)
    | (with_reducible exact kept_effectStackRate _ _ ht) | (with_reducible exact kept_effectProgLoad _ _ ht)
    | (with_reducible exact kept_effectProgUnload _ _ ht) | (with_reducible exact kept_effectLaunch _ _ ht)
    | (with_reducible exact kept_effectTensorReg _ _ ht) | (with_reducible exact kept_effectTensorUnreg _ _ ht)
    | (with_reducible exact kept_effectTensorVersion _ _ ht) | (with_reducible exact kept_effectTensorScale _ _ ht)
    | (with_reducible exact kept_effectTensorUnpoison _ _ ht) | (with_reducible exact kept_effectTensorStamp _ _ ht)
    | (with_reducible exact kept_effectModelDefine _ _ ht) | (with_reducible exact kept_effectModelLoad _ _ ht)
    | (with_reducible exact kept_effectModelEvict _ _ ht) | (with_reducible exact kept_effectModelDestroy _ _ ht)
    | (with_reducible exact kept_effectGroupBind _ _ ht) | (with_reducible exact kept_effectEpochInstall _ _ ht)
    | (with_reducible exact kept_effectCommCreate _ _ ht) | (with_reducible exact kept_effectCommDestroy _ _ ht)
    | (with_reducible exact kept_effectLinkExpect _ _ ht) | (with_reducible exact kept_effectLinkAction _ _ ht)
    | (with_reducible exact kept_effectLinkCfg _ _ ht) | (with_reducible exact kept_effectHistSet _ _ ht)
    | (with_reducible exact kept_effectNumSnapshot _ _ ht) | (with_reducible exact kept_effectGateCreate _ _ ht)
    | (with_reducible exact kept_effectGateSet _ _ ht) | (with_reducible exact kept_effectGateDestroy _ _ ht)
    | (with_reducible exact kept_effectWitnessCfg _ _ ht) | (with_reducible exact kept_effectDriftPair _ _ ht)
    | (with_reducible exact kept_effectOutlierRing _ _ ht) | (with_reducible exact kept_effectRplRecord _ _ ht)
    | (with_reducible exact kept_effectRplMark _ _ ht) | (with_reducible exact kept_effectRplReplay _ _ ht)
    | (with_reducible exact kept_effectGravelCfg _ _ ht) | (with_reducible exact kept_effectAutumnRun _ _ ht)
    | (with_reducible exact kept_effectPowerCap _ _ ht) | (with_reducible exact kept_effectLimits _ _ ht)
    | (with_reducible exact kept_effectTelemetry _ _ ht) | (with_reducible exact kept_effectHealth _ _ ht)
    | (with_reducible exact kept_effectEscalation _ _ ht))
theorem kept_opRow (op : Nat) (x : Cmd) (t : State) (ht : Kept s₀ t) : Kept s₀ ((opRow op).2 x t).state := by
  unfold opRow
  split
  · next r h => exact kept_opTableA op r h x t ht
  · cases h : opTableB op with
    | none => exact ht
    | some r => exact kept_opTableB op r h x t ht
theorem kept_runOp (c : Cmd) (s : State) (hs : Kept s₀ s) : Kept s₀ (runOp c s) := by
  refine kept_runCmd _ _ _ _ _ ?_ hs
  intro x t ht
  exact kept_opRow _ _ _ ht
theorem kept_runBlock (c : Cmd) (b : List Byte) (s : State) (hs : Kept s₀ s) : Kept s₀ (runBlock c b s) := by
  unfold runBlock
  repeat' (first
    | with_reducible assumption | intro _ | with_reducible apply kept_done | with_reducible apply kept_runCmd
    | with_reducible apply kept_runOp | with_reducible apply kept_ite)
theorem kept_depositOp (f : Nat) (j : Nat) (lanes : Lanes) (value : Word) (s : State) (hs : Kept s₀ s) :
    Kept s₀ (depositOp f j lanes value s) := by
  unfold depositOp
  repeat' (first
    | with_reducible assumption | with_reducible apply kept_setRaw | with_reducible apply kept_setFld
    | with_reducible apply kept_bump | with_reducible apply kept_ite)
theorem kept_execMbxInDeposit (fn : Fn) (j : Fin 8) (lanes : Lanes) (value : Word) (s : State) (hs : Kept s₀ s) :
    KeptNext s₀ (execMbxInDeposit fn j lanes value s) := by
  unfold execMbxInDeposit
  repeat' (first
    | with_reducible assumption | with_reducible apply keptNext_next | with_reducible apply kept_depositOp)
theorem kept_hostReadFailed (s : State) (hs : Kept s₀ s) : Kept s₀ (hostReadFailed s) := by
  unfold hostReadFailed
  repeat' (first
    | with_reducible assumption | with_reducible apply kept_freeDraw | with_reducible apply kept_bump)
theorem kept_runWord (f : Nat) (j : Fin 8) (w : Word) (live : Bool) (readError : Bool) (s : State) (hs : Kept s₀ s) :
    Kept s₀ (runWord f j w live readError s) := by
  unfold runWord
  repeat' (first
    | with_reducible assumption | intro _ | with_reducible apply kept_done | with_reducible apply kept_runCmd
    | with_reducible apply kept_runOp | with_reducible apply kept_answerNow | with_reducible apply kept_hostReadFailed
    | with_reducible apply kept_runBlock | with_reducible apply kept_ite)
theorem kept_answerRepeat (s : State) (f : Nat) (j : Nat) (w : Word) (l : LastTaken) (hs : Kept s₀ s) :
    Kept s₀ (answerRepeat s f j w l) := by
  unfold answerRepeat
  repeat' (first
    | with_reducible assumption | with_reducible apply kept_ackWord)
theorem kept_acceptWord (f : Nat) (j : Fin 8) (w : Word) (live : Bool) (readError : Bool) (s : State) (hs : Kept s₀ s) :
    Kept s₀ (acceptWord f j w live readError s) := by
  unfold acceptWord
  repeat' (first
    | with_reducible assumption | intro _ | with_reducible apply kept_forEach | with_reducible apply kept_recordInput
    | with_reducible apply kept_answerRepeat | with_reducible apply kept_runWord | with_reducible apply kept_modFn
    | simp only [kept_mk] | split)
theorem kept_takeWord (f : Nat) (j : Nat) (deposit : Option Word) (s : State) (hs : Kept s₀ s) : Kept s₀ (takeWord f j deposit s) := by
  unfold takeWord
  repeat' (first
    | with_reducible assumption | with_reducible apply kept_setFld | with_reducible apply kept_setRaw
    | simp only [kept_mk] | split)
theorem kept_mailboxTakeOp (f : Nat) (j : Fin 8) (host : List Cell) (readError : Bool) (deposit : Option Word) (s : State) (hs : Kept s₀ s) :
    Kept s₀ (mailboxTakeOp f j host readError deposit s) := by
  unfold mailboxTakeOp
  repeat' (first
    | with_reducible assumption | with_reducible apply kept_acceptWord | with_reducible apply kept_takeWord
    | with_reducible apply kept_hostStores | with_reducible apply kept_ite)
theorem kept_execMailboxTake (fn : Fn) (j : Fin 8) (host : List Cell) (readError : Bool) (deposit : Option Word) (hits : List Hit) (s : State) (hs : Kept s₀ s) :
    KeptNext s₀ (execMailboxTake fn j host readError deposit hits s) := by
  unfold execMailboxTake
  repeat' (first
    | with_reducible assumption | with_reducible apply keptNext_next | with_reducible apply kept_mailboxTakeOp
    | with_reducible apply kept_upsetWords)
theorem kept_outPostOp (f : Nat) (j : Nat) (s : State) (hs : Kept s₀ s) : Kept s₀ (outPostOp f j s) := by
  unfold outPostOp
  repeat' (first
    | with_reducible assumption | with_reducible apply kept_postOut | with_reducible apply kept_ite)
theorem kept_execMbxOutPost (fn : Fn) (j : Fin 8) (s : State) (hs : Kept s₀ s) : KeptNext s₀ (execMbxOutPost fn j s) := by
  unfold execMbxOutPost
  repeat' (first
    | with_reducible assumption | with_reducible apply keptNext_next | with_reducible apply kept_outPostOp)
theorem kept_outAckOp (f : Nat) (j : Nat) (lanes : Lanes) (value : Word) (s : State) (hs : Kept s₀ s) :
    Kept s₀ (outAckOp f j lanes value s) := by
  unfold outAckOp
  repeat' (first
    | with_reducible assumption | with_reducible apply kept_setRaw | with_reducible apply kept_setFld
    | with_reducible apply kept_ite)
theorem kept_execMbxOutAck (fn : Fn) (j : Fin 8) (lanes : Lanes) (value : Word) (s : State) (hs : Kept s₀ s) :
    KeptNext s₀ (execMbxOutAck fn j lanes value s) := by
  unfold execMbxOutAck
  repeat' (first
    | with_reducible assumption | with_reducible apply keptNext_next | with_reducible apply kept_outAckOp)
/-! ### Queues -/

theorem kept_ringOne (f : Nat) (q : Nat) (value : Nat) (whole : Bool) (live : Bool) (s : State) (hs : Kept s₀ s) :
    Kept s₀ (ringOne f q value whole live s) := by
  unfold ringOne
  repeat' (first
    | with_reducible assumption | with_reducible apply kept_bump | with_reducible apply kept_modQueue
    | with_reducible apply kept_dropLive | with_reducible apply kept_recordInput | with_reducible apply kept_ite
    | simp only [kept_mk] | split)
theorem kept_doorbellOp (f : Nat) (off : Nat) (data : List Byte) (s : State) (hs : Kept s₀ s) : Kept s₀ (doorbellOp f off data s) := by
  unfold doorbellOp
  repeat' (first
    | with_reducible assumption | intro _ | with_reducible apply kept_forEach | with_reducible apply kept_ringOne
    | with_reducible apply kept_ite)
theorem kept_execDoorbell (fn : Fn) (off : Nat) (data : List Byte) (s : State) (hs : Kept s₀ s) :
    KeptNext s₀ (execDoorbell fn off data s) := by
  unfold execDoorbell
  repeat' (first
    | with_reducible assumption | with_reducible apply keptNext_next | with_reducible apply kept_doorbellOp)
theorem kept_fetchError (s : State) (q : Nat) (cause : Nat) (hs : Kept s₀ s) : Kept s₀ (fetchError s q cause) := by
  unfold fetchError
  repeat' (first
    | with_reducible assumption | with_reducible apply kept_flushQueue | with_reducible apply kept_setQueue)
theorem kept_takeEntry (s : State) (q : Nat) (b : List Byte) (hs : Kept s₀ s) : Kept s₀ (takeEntry s q b) := by
  unfold takeEntry
  repeat' (first
    | with_reducible assumption | with_reducible apply kept_setQueue)
theorem kept_runEntry (q : QueueId) (pos : Nat) (b : List Byte) (s : State) (hs : Kept s₀ s) : Kept s₀ (runEntry q pos b s) := by
  unfold runEntry
  repeat' (first
    | with_reducible assumption | with_reducible apply kept_runBlock)
theorem kept_queueFetchOp (q : QueueId) (host : List Cell) (readError : Bool) (s : State) (hs : Kept s₀ s) :
    Kept s₀ (queueFetchOp q host readError s) := by
  unfold queueFetchOp
  repeat' (first
    | with_reducible assumption | with_reducible apply kept_hostStores | with_reducible apply kept_takeEntry
    | with_reducible apply kept_runEntry | with_reducible apply kept_hostReadFailed | with_reducible apply kept_freeDraw
    | with_reducible apply kept_fetchError | with_reducible apply kept_ctxFault | with_reducible apply kept_readMem
    | with_reducible apply kept_ite | simp only [kept_mk] | split)
theorem kept_execQueueFetch (q : QueueId) (host : List Cell) (readError : Bool) (hits : List Hit) (s : State) (hs : Kept s₀ s) :
    KeptNext s₀ (execQueueFetch q host readError hits s) := by
  unfold execQueueFetch
  repeat' (first
    | with_reducible assumption | with_reducible apply keptNext_next | with_reducible apply kept_queueFetchOp
    | with_reducible apply kept_upsetWords)
theorem kept_cqReleaseOp (f : Nat) (j : Nat) (value : Nat) (s : State) (hs : Kept s₀ s) : Kept s₀ (cqReleaseOp f j value s) := by
  unfold cqReleaseOp
  repeat' (first
    | with_reducible assumption | intro _ | with_reducible apply kept_forEach | with_reducible apply kept_writeArg
    | with_reducible apply kept_flushQueue | with_reducible apply kept_modQueue | with_reducible apply kept_ite
    | simp only [kept_mk] | split)
theorem kept_execCqRelease (fn : Fn) (slot : Fin 512) (value : Word32) (s : State) (hs : Kept s₀ s) :
    KeptNext s₀ (execCqRelease fn slot value s) := by
  unfold execCqRelease
  repeat' (first
    | with_reducible assumption | with_reducible apply keptNext_next | with_reducible apply kept_cqReleaseOp)
/-! ### Bar2 -/

theorem kept_bar2Refuse (s : State) (f : Nat) (off : Nat) (write : Bool) (hs : Kept s₀ s) : Kept s₀ (bar2Refuse s f off write) := by
  unfold bar2Refuse
  repeat' (first
    | with_reducible assumption | with_reducible apply kept_bump | with_reducible apply kept_setRaw)
theorem kept_bar2Out (s : State) (b : List Byte) (ep : Bool) (unsupported : Bool) (hs : Kept s₀ s) :
    Kept s₀ (bar2Out s b ep unsupported) := by
  unfold bar2Out
  repeat' (first
    | with_reducible assumption | simp only [kept_mk])
theorem kept_portPut (s : State) (e : PortAccess) (hs : Kept s₀ s) : Kept s₀ (portPut s e) := by
  unfold portPut
  repeat' (first
    | with_reducible assumption | simp only [kept_mk])
theorem kept_bar2ReadOp (f : Nat) (off : Nat) (len : Nat) (s : State) (hs : Kept s₀ s) : Kept s₀ (bar2ReadOp f off len s) := by
  unfold bar2ReadOp
  repeat' (first
    | with_reducible assumption | with_reducible apply kept_bar2Out | with_reducible apply kept_bump | with_reducible apply kept_bar2Refuse
    | with_reducible apply kept_portPut | with_reducible apply kept_readMem | with_reducible apply kept_ite
    | simp only [kept_mk] | split)
theorem kept_execBar2Read (fn : Fn) (off : Nat) (len : Nat) (hits : List Hit) (s : State) (hs : Kept s₀ s) :
    KeptNext s₀ (execBar2Read fn off len hits s) := by
  unfold execBar2Read
  repeat' (first
    | with_reducible assumption | with_reducible apply keptNext_next | with_reducible apply kept_bar2ReadOp
    | with_reducible apply kept_upsetWords)
theorem kept_bar2WriteOp (f : Nat) (off : Nat) (data : List Byte) (s : State) (hs : Kept s₀ s) : Kept s₀ (bar2WriteOp f off data s) := by
  unfold bar2WriteOp
  repeat' (first
    | with_reducible assumption | intro _ | with_reducible apply kept_bar2Refuse | with_reducible apply kept_dropLive
    | with_reducible apply kept_portPut | with_reducible apply kept_forEach | with_reducible apply kept_recordInput
    | with_reducible apply kept_storeBytes | with_reducible apply kept_ite | simp only [kept_mk] | split)
theorem kept_execBar2Write (fn : Fn) (off : Nat) (data : List Byte) (hits : List Hit) (s : State) (hs : Kept s₀ s) :
    KeptNext s₀ (execBar2Write fn off data hits s) := by
  unfold execBar2Write
  repeat' (first
    | with_reducible assumption | with_reducible apply keptNext_next | with_reducible apply kept_bar2WriteOp
    | with_reducible apply kept_upsetWords)
theorem kept_servePort (s : State) (hs : Kept s₀ s) : Kept s₀ (servePort s) := by
  unfold servePort
  repeat' (first
    | with_reducible assumption | intro _ | with_reducible apply kept_forEach | with_reducible apply kept_bar2WriteOp
    | with_reducible apply kept_bar2ReadOp | simp only [kept_mk] | split)
/-! ### Functions -/

theorem kept_beginFlr (s : State) (f : Nat) (hs : Kept s₀ s) : Kept s₀ (beginFlr s f) := by
  unfold beginFlr
  repeat' (first
    | with_reducible assumption | intro _ | with_reducible apply kept_modFn | with_reducible apply kept_stopFnQueues
    | with_reducible apply kept_forEach | with_reducible apply kept_stopPlanned | simp only [kept_mk])
theorem kept_flrOp (f : Nat) (s : State) (hs : Kept s₀ s) : Kept s₀ (flrOp f s) := by
  unfold flrOp
  repeat' (first
    | with_reducible assumption | with_reducible apply kept_pruneTokens | with_reducible apply kept_settle
    | with_reducible apply kept_beginFlr | with_reducible apply kept_ite)
theorem kept_execFunctionLevelReset (fn : Fn) (s : State) (hs : Kept s₀ s) : KeptNext s₀ (execFunctionLevelReset fn s) := by
  unfold execFunctionLevelReset
  repeat' (first
    | with_reducible assumption | with_reducible apply keptNext_next | with_reducible apply kept_flrOp)
theorem kept_pfResetOp (pfReset : Bool) (s : State) (hs : Kept s₀ s) : Kept s₀ (pfResetOp pfReset s) := by
  unfold pfResetOp
  repeat' (first
    | with_reducible assumption | intro _ | with_reducible apply kept_pruneTokens | with_reducible apply kept_settle
    | with_reducible apply kept_forEach | with_reducible apply kept_beginFlr | with_reducible apply kept_ite
    | simp only [kept_mk])
theorem kept_execPfResetOrVfDisable (pfReset : Bool) (s : State) (hs : Kept s₀ s) : KeptNext s₀ (execPfResetOrVfDisable pfReset s) := by
  unfold execPfResetOrVfDisable
  repeat' (first
    | with_reducible assumption | with_reducible apply keptNext_next | with_reducible apply kept_pfResetOp)
theorem kept_busMasterDisableOp (f : Nat) (s : State) (hs : Kept s₀ s) : Kept s₀ (busMasterDisableOp f s) := by
  unfold busMasterDisableOp
  repeat' (first
    | with_reducible assumption | with_reducible apply kept_stopFnQueues | with_reducible apply kept_modFn
    | with_reducible apply kept_ite)
theorem kept_execBusMasterDisable (fn : Fn) (s : State) (hs : Kept s₀ s) : KeptNext s₀ (execBusMasterDisable fn s) := by
  unfold execBusMasterDisable
  repeat' (first
    | with_reducible assumption | with_reducible apply keptNext_next | with_reducible apply kept_busMasterDisableOp)
theorem kept_cfgAnswer (s : State) (a : CfgAnswer) (hs : Kept s₀ s) : Kept s₀ (cfgAnswer s a) := by
  unfold cfgAnswer
  repeat' (first
    | with_reducible assumption | simp only [kept_mk])
theorem kept_enableVfs (s : State) (hs : Kept s₀ s) : Kept s₀ (enableVfs s) := by
  unfold enableVfs
  repeat' (first
    | with_reducible assumption | intro _ | with_reducible apply kept_forEach | with_reducible apply kept_modFn
    | with_reducible apply kept_ite | simp only [kept_mk])
theorem kept_cfgAccess (f : Nat) (a : CfgAccess) (s : State) (hs : Kept s₀ s) : Kept s₀ (cfgAccess f a s) := by
  unfold cfgAccess
  repeat' (first
    | with_reducible assumption | with_reducible apply kept_freeDraw | with_reducible apply kept_cfgAnswer
    | with_reducible apply kept_modFn | with_reducible apply kept_enableVfs | with_reducible apply kept_ite
    | simp only [kept_mk] | split)
theorem kept_pcieConfigOp (f : Nat) (a : CfgAccess) (s : State) (hs : Kept s₀ s) : Kept s₀ (pcieConfigOp f a s) := by
  unfold pcieConfigOp
  repeat' (first
    | with_reducible assumption | with_reducible apply kept_cfgAnswer | with_reducible apply kept_cfgAccess
    | with_reducible apply kept_ite)
theorem kept_execPcieConfigRequest (fn : Fn) (access : CfgAccess) (s : State) (hs : Kept s₀ s) :
    KeptNext s₀ (execPcieConfigRequest fn access s) := by
  unfold execPcieConfigRequest
  repeat' (first
    | with_reducible assumption | with_reducible apply keptNext_next | with_reducible apply kept_pcieConfigOp)
theorem kept_linkTrainedOp (speed : Nat) (width : Nat) (flit : Bool) (s : State) (hs : Kept s₀ s) :
    Kept s₀ (linkTrainedOp speed width flit s) := by
  unfold linkTrainedOp
  repeat' (first
    | with_reducible assumption | with_reducible apply kept_setFld | with_reducible apply kept_ite)
theorem kept_execPcieLinkTrained (speed : Fin 7) (width : Fin 5) (flit : Bool) (s : State) (hs : Kept s₀ s) :
    KeptNext s₀ (execPcieLinkTrained speed width flit s) := by
  unfold execPcieLinkTrained
  repeat' (first
    | with_reducible assumption | with_reducible apply keptNext_next | with_reducible apply kept_linkTrainedOp)
theorem kept_ideKmOp (f : Nat) (r : IdeReq) (s : State) (hs : Kept s₀ s) : Kept s₀ (ideKmOp f r s) := by
  unfold ideKmOp
  repeat' (first
    | with_reducible assumption | with_reducible apply kept_setFld | with_reducible apply kept_modFn | with_reducible apply kept_tdiError
    | with_reducible apply kept_ite | simp only [kept_mk] | split)
theorem kept_execIdeKmRequest (fn : Fn) (req : IdeReq) (s : State) (hs : Kept s₀ s) : KeptNext s₀ (execIdeKmRequest fn req s) := by
  unfold execIdeKmRequest
  repeat' (first
    | with_reducible assumption | with_reducible apply keptNext_next | with_reducible apply kept_ideKmOp)
/-! ### RegAccess -/

theorem kept_clearRc (s : State) (a : RegAt) (hs : Kept s₀ s) : Kept s₀ (clearRc s a) := by
  unfold clearRc
  repeat' (first
    | with_reducible assumption | with_reducible apply kept_setRaw)
theorem kept_countCoincident (s : State) (a : RegAt) (l : List (Nat × Nat)) (hs : Kept s₀ s) : Kept s₀ (countCoincident s a l) := by
  unfold countCoincident
  repeat' (first
    | with_reducible assumption | intro _ | with_reducible apply kept_bump | with_reducible apply kept_foldl
    | split)
theorem kept_regReadOp (f : Nat) (off : Nat) (width : Nat) (coincident : List (Nat × Nat)) (s : State) (hs : Kept s₀ s) :
    Kept s₀ (regReadOp f off width coincident s) := by
  unfold regReadOp
  repeat' (first
    | with_reducible assumption | with_reducible apply kept_bump | with_reducible apply kept_countCoincident
    | with_reducible apply kept_clearRc | with_reducible apply kept_ite | simp only [kept_mk] | split)
theorem kept_execRcRegisterRead (fn : Fn) (off : Nat) (width : Nat) (coincident : List (Nat × Nat)) (s : State) (hs : Kept s₀ s) :
    KeptNext s₀ (execRcRegisterRead fn off width coincident s) := by
  unfold execRcRegisterRead
  repeat' (first
    | with_reducible assumption | with_reducible apply keptNext_next | with_reducible apply kept_regReadOp)
theorem kept_writeByCode (s : State) (a : RegAt) (lanes : Lanes) (v : Word) (hwSet : Word) (hs : Kept s₀ s) :
    Kept s₀ (writeByCode s a lanes v hwSet) := by
  unfold writeByCode
  repeat' (first
    | with_reducible assumption | with_reducible apply kept_setRaw)
theorem kept_writeReg (f : Nat) (a : RegAt) (lanes : Lanes) (v : Word) (hwSet : Word) (s : State) (hs : Kept s₀ s) :
    Kept s₀ (writeReg f a lanes v hwSet s) := by
  unfold writeReg
  repeat' (first
    | with_reducible assumption | with_reducible apply kept_depositOp | with_reducible apply kept_outAckOp
    | with_reducible apply kept_cqReleaseOp | with_reducible apply kept_resetKeyOp | with_reducible apply kept_linkLoopHigh
    | with_reducible apply kept_linkLoopWrite | with_reducible apply kept_hbmLoopHigh | with_reducible apply kept_hbmLoopWrite
    | with_reducible apply kept_writeByCode | with_reducible apply kept_ite | split)
theorem kept_regWriteOp (f : Nat) (off : Nat) (width : Nat) (value : Word) (hwSet : Word) (s : State) (hs : Kept s₀ s) :
    Kept s₀ (regWriteOp f off width value hwSet s) := by
  unfold regWriteOp
  repeat' (first
    | with_reducible assumption | with_reducible apply kept_modFn | with_reducible apply kept_writeReg
    | with_reducible apply kept_ite | simp only [kept_mk] | split)
theorem kept_execRegisterWrite (fn : Fn) (off : Nat) (width : Nat) (value : Word) (hwSet : Word) (s : State) (hs : Kept s₀ s) :
    KeptNext s₀ (execRegisterWrite fn off width value hwSet s) := by
  unfold execRegisterWrite
  repeat' (first
    | with_reducible assumption | with_reducible apply keptNext_next | with_reducible apply kept_regWriteOp)

end Sys2Proof.Machine
end

