-- ==== Sys2Proof/Laws/KeepRest.lean ====
section
/-! SUPPORT. Gravel, power, management, replay, security, the witness and the tick keep what every step keeps; so does every command. -/

set_option maxRecDepth 4000
set_option linter.unusedSimpArgs false
set_option linter.unusedVariables false

namespace Sys2Proof.Machine

variable {s₀ : State}

/-! ### Gravel -/

theorem kept_nextSlice (s : State) (n : Nat) (hs : Kept s₀ s) : Kept s₀ (nextSlice s n) := by
  unfold nextSlice
  repeat' (first
    | with_reducible assumption | with_reducible apply kept_setFld | with_reducible apply kept_wrap | with_reducible apply kept_modGravel
    | with_reducible apply kept_ite)
theorem kept_beginSlice (s : State) (n : Nat) (j : Nat) (corner : Nat) (inOrder : Bool) (hs : Kept s₀ s) :
    Kept s₀ (beginSlice s n j corner inOrder) := by
  unfold beginSlice
  repeat' (first
    | with_reducible assumption | with_reducible apply kept_modGravel | with_reducible apply kept_modCore
    | with_reducible apply kept_ite)
theorem kept_sliceStartOp (n : Nat) (load100us : Nat) (load1s : Nat) (s : State) (hs : Kept s₀ s) :
    Kept s₀ (sliceStartOp n load100us load1s s) := by
  unfold sliceStartOp
  repeat' (first
    | with_reducible assumption | with_reducible apply kept_bump | with_reducible apply kept_nextSlice
    | with_reducible apply kept_modGravel | with_reducible apply kept_beginSlice | with_reducible apply kept_ite)
theorem kept_execGravelSliceStart (sec : Sec) (load100us : Half) (load1s : Half) (s : State) (hs : Kept s₀ s) :
    KeptNext s₀ (execGravelSliceStart sec load100us load1s s) := by
  unfold execGravelSliceStart
  repeat' (first
    | with_reducible assumption | with_reducible apply keptNext_next | with_reducible apply kept_sliceStartOp)
theorem kept_noteMismatch (s : State) (n : Nat) (j : Nat) (corner : Nat) (repeated : Bool) (cond : Word) (hs : Kept s₀ s) :
    Kept s₀ (noteMismatch s n j corner repeated cond) := by
  unfold noteMismatch
  repeat' (first
    | with_reducible assumption | with_reducible apply kept_setRaw)
theorem kept_mismatched (s : State) (n : Nat) (j : Nat) (corner : Nat) (again : Bool) (cond : Word) (hs : Kept s₀ s) :
    Kept s₀ (mismatched s n j corner again cond) := by
  unfold mismatched
  repeat' (first
    | with_reducible assumption | with_reducible apply kept_noteMismatch | with_reducible apply kept_bump
    | with_reducible apply kept_setFld | with_reducible apply kept_healthEvent | with_reducible apply kept_ite)
theorem kept_endSlice (s : State) (n : Nat) (j : Nat) (hs : Kept s₀ s) : Kept s₀ (endSlice s n j) := by
  unfold endSlice
  repeat' (first
    | with_reducible assumption | with_reducible apply kept_modGravel | with_reducible apply kept_modCore
    | with_reducible apply kept_ite)
theorem kept_sliceEndOp (n : Nat) (signature : Word32) (again : Word32) (cond : Cond) (s : State) (hs : Kept s₀ s) :
    Kept s₀ (sliceEndOp n signature again cond s) := by
  unfold sliceEndOp
  repeat' (first
    | with_reducible assumption | with_reducible apply kept_endSlice | with_reducible apply kept_bump
    | with_reducible apply kept_mismatched | with_reducible apply kept_modGravel | with_reducible apply kept_nextSlice
    | with_reducible apply kept_ite | simp only [kept_mk] | split)
theorem kept_execGravelSliceEnd (sec : Sec) (signature : Word32) (again : Word32) (cond : Cond) (s : State) (hs : Kept s₀ s) :
    KeptNext s₀ (execGravelSliceEnd sec signature again cond s) := by
  unfold execGravelSliceEnd
  repeat' (first
    | with_reducible assumption | with_reducible apply keptNext_next | with_reducible apply kept_sliceEndOp)
theorem kept_sliceAbandonOp (n : Nat) (s : State) (hs : Kept s₀ s) : Kept s₀ (sliceAbandonOp n s) := by
  unfold sliceAbandonOp
  repeat' (first
    | with_reducible assumption | with_reducible apply kept_endSlice | with_reducible apply kept_bump
    | with_reducible apply kept_modGravel | with_reducible apply kept_ite | simp only [kept_mk] | split)
theorem kept_execGravelSliceAbandon (sec : Sec) (s : State) (hs : Kept s₀ s) : KeptNext s₀ (execGravelSliceAbandon sec s) := by
  unfold execGravelSliceAbandon
  repeat' (first
    | with_reducible assumption | with_reducible apply keptNext_next | with_reducible apply kept_sliceAbandonOp)
theorem kept_witnessSliceOp (n : Nat) (signature : Word32) (again : Word32) (s : State) (hs : Kept s₀ s) :
    Kept s₀ (witnessSliceOp n signature again s) := by
  unfold witnessSliceOp
  repeat' (first
    | with_reducible assumption | with_reducible apply kept_bump | with_reducible apply kept_setFld | with_reducible apply kept_freeDraw
    | with_reducible apply kept_mismatched | with_reducible apply kept_modGravel | with_reducible apply kept_ite)
theorem kept_execWitnessSlice (sec : Sec) (signature : Word32) (again : Word32) (s : State) (hs : Kept s₀ s) :
    KeptNext s₀ (execWitnessSlice sec signature again s) := by
  unfold execWitnessSlice
  repeat' (first
    | with_reducible assumption | with_reducible apply keptNext_next | with_reducible apply kept_witnessSliceOp)
/-! ### Power -/

theorem kept_applyCaps (s : State) (hs : Kept s₀ s) : Kept s₀ (applyCaps s) := by
  unfold applyCaps
  repeat' (first
    | with_reducible assumption | with_reducible apply kept_setFld | simp only [kept_mk] | split)
theorem kept_stepHeat (s : State) (n : Nat) (hs : Kept s₀ s) : Kept s₀ (stepHeat s n) := by
  unfold stepHeat
  repeat' (first
    | with_reducible assumption | with_reducible apply kept_setFld | with_reducible apply kept_bump | with_reducible apply kept_ite)
theorem kept_beginSlew (s : State) (target : Nat) (hs : Kept s₀ s) : Kept s₀ (beginSlew s target) := by
  unfold beginSlew
  repeat' (first
    | with_reducible assumption | with_reducible apply kept_setFld | simp only [kept_mk])
theorem kept_stepClock (s : State) (cap : Nat) (inputW : Nat) (hs : Kept s₀ s) : Kept s₀ (stepClock s cap inputW) := by
  unfold stepClock
  repeat' (first
    | with_reducible assumption | with_reducible apply kept_beginSlew | with_reducible apply kept_ite
    | simp only [kept_mk])
theorem kept_noteMeasures (s : State) (m : PowerMeas) (hs : Kept s₀ s) : Kept s₀ (noteMeasures s m) := by
  unfold noteMeasures
  repeat' (first
    | with_reducible assumption | intro _ | with_reducible apply kept_setFld | with_reducible apply kept_wrap
    | with_reducible apply kept_forEach | simp only [kept_mk])
theorem kept_stepUnmet (s : State) (cap : Nat) (inputW : Nat) (hs : Kept s₀ s) : Kept s₀ (stepUnmet s cap inputW) := by
  unfold stepUnmet
  repeat' (first
    | with_reducible assumption | with_reducible apply kept_setFld | with_reducible apply kept_bump | with_reducible apply kept_ite)
theorem kept_arbiterOp (m : PowerMeas) (s : State) (hs : Kept s₀ s) : Kept s₀ (arbiterOp m s) := by
  unfold arbiterOp
  repeat' (first
    | with_reducible assumption | intro _ | with_reducible apply kept_noteMeasures | with_reducible apply kept_applyCaps
    | with_reducible apply kept_setFld | with_reducible apply kept_forEach | with_reducible apply kept_stepHeat
    | with_reducible apply kept_stepClock | with_reducible apply kept_stepUnmet | with_reducible apply kept_ite)
theorem kept_execArbiterPeriod (meas : PowerMeas) (s : State) (hs : Kept s₀ s) : KeptNext s₀ (execArbiterPeriod meas s) := by
  unfold execArbiterPeriod
  repeat' (first
    | with_reducible assumption | with_reducible apply keptNext_next | with_reducible apply kept_arbiterOp)
theorem kept_execClockSlewEnd (s : State) (hs : Kept s₀ s) : KeptNext s₀ (execClockSlewEnd s) := by
  unfold execClockSlewEnd
  repeat' (first
    | with_reducible assumption | with_reducible apply keptNext_next | with_reducible apply kept_endSlew
    | with_reducible apply kept_ite)
theorem kept_emergencyOp (s : State) (hs : Kept s₀ s) : Kept s₀ (emergencyOp s) := by
  unfold emergencyOp
  repeat' (first
    | with_reducible assumption | with_reducible apply kept_setFld | with_reducible apply kept_bump | with_reducible apply kept_ite)
theorem kept_execEmergencyHold (s : State) (hs : Kept s₀ s) : KeptNext s₀ (execEmergencyHold s) := by
  unfold execEmergencyHold
  repeat' (first
    | with_reducible assumption | with_reducible apply keptNext_next | with_reducible apply kept_emergencyOp)
theorem kept_showSection (s : State) (now : List Half) (n : Nat) (hs : Kept s₀ s) : Kept s₀ (showSection s now n) := by
  unfold showSection
  repeat' (first
    | with_reducible assumption | with_reducible apply kept_setFld | split)
theorem kept_showReadings (s : State) (now : List Half) (temps : List Byte) (hs : Kept s₀ s) : Kept s₀ (showReadings s now temps) := by
  unfold showReadings
  repeat' (first
    | with_reducible assumption | intro _ | with_reducible apply kept_forEach | with_reducible apply kept_setFld
    | with_reducible apply kept_showSection)
theorem kept_stepIgnored (s : State) (n : Nat) (hs : Kept s₀ s) : Kept s₀ (stepIgnored s n) := by
  unfold stepIgnored
  repeat' (first
    | with_reducible assumption | with_reducible apply kept_healthEvent | with_reducible apply kept_ite
    | simp only [kept_mk])
theorem kept_stepRefresh (s : State) (last : List Byte) (now : List Byte) (g : Nat) (hs : Kept s₀ s) :
    Kept s₀ (stepRefresh s last now g) := by
  unfold stepRefresh
  repeat' (first
    | with_reducible assumption | with_reducible apply kept_setFld | with_reducible apply kept_ite)
theorem kept_trip (s : State) (record : Option Word) (hs : Kept s₀ s) : Kept s₀ (trip s record) := by
  unfold trip
  refine kept_startOver hs ?_ ?_ ?_
  · cases record <;> exact le_refl _
  · cases record <;> rfl
  · cases record <;> exact hs.inv.2
theorem kept_sensorOp (dies : List Half) (temps : List Byte) (s : State) (hs : Kept s₀ s) : Kept s₀ (sensorOp dies temps s) := by
  unfold sensorOp
  repeat' (first
    | with_reducible assumption | intro _ | with_reducible apply kept_trip | with_reducible apply kept_showReadings
    | with_reducible apply kept_forEach | with_reducible apply kept_stepIgnored | with_reducible apply kept_stepRefresh
    | with_reducible apply kept_ite | simp only [kept_mk] | split)
theorem kept_execSensorRead (dies : List Half) (temps : List Byte) (s : State) (hs : Kept s₀ s) :
    KeptNext s₀ (execSensorRead dies temps s) := by
  unfold execSensorRead
  repeat' (first
    | with_reducible assumption | with_reducible apply keptNext_next | with_reducible apply kept_sensorOp)
theorem kept_supplyTripOp (kind : SupplyTripKind) (mV : Nat) (recorded : Bool) (s : State) (hs : Kept s₀ s) :
    Kept s₀ (supplyTripOp kind mV recorded s) := by
  unfold supplyTripOp
  repeat' (first
    | with_reducible assumption | with_reducible apply kept_trip | with_reducible apply kept_freeDraw
    | with_reducible apply kept_ite | simp only [kept_mk] | split)
theorem kept_execSupplyTrip (kind : SupplyTripKind) (mV : Nat) (recorded : Bool) (s : State) (hs : Kept s₀ s) :
    KeptNext s₀ (execSupplyTrip kind mV recorded s) := by
  unfold execSupplyTrip
  repeat' (first
    | with_reducible assumption | with_reducible apply keptNext_next | with_reducible apply kept_supplyTripOp)
theorem kept_mgmtCapOp (watts : Nat) (s : State) (hs : Kept s₀ s) : Kept s₀ (mgmtCapOp watts s) := by
  unfold mgmtCapOp
  repeat' (first
    | with_reducible assumption | with_reducible apply kept_ite | simp only [kept_mk])
theorem kept_execMgmtCapSet (watts : Nat) (s : State) (hs : Kept s₀ s) : KeptNext s₀ (execMgmtCapSet watts s) := by
  unfold execMgmtCapSet
  repeat' (first
    | with_reducible assumption | with_reducible apply keptNext_next | with_reducible apply kept_mgmtCapOp)
/-! ### Mgmt -/

theorem kept_mgmtAnswer (s : State) (a : MgmtAnswer) (hs : Kept s₀ s) : Kept s₀ (mgmtAnswer s a) := by
  unfold mgmtAnswer
  repeat' (first
    | with_reducible assumption | simp only [kept_mk])
theorem kept_firmwareUpdateOp (image : FwImage) (s : State) (hs : Kept s₀ s) : Kept s₀ (firmwareUpdateOp image s) := by
  unfold firmwareUpdateOp
  split
  · exact kept_mgmtAnswer _ _ hs
  · split
    · next h =>
      refine kept_mgmtAnswer _ _ ⟨⟨hs.inv.1, ?_⟩, hs.queue, hs.draws, hs.svn, hs.revoked⟩
      have h2 := hs.inv.2
      simp only [firmwareOk, Option.all_some, Bool.and_eq_true] at h2 ⊢
      exact ⟨h2.1, h⟩
    · exact kept_mgmtAnswer _ _ hs
theorem kept_execPldmFirmwareUpdate (image : FwImage) (s : State) (hs : Kept s₀ s) : KeptNext s₀ (execPldmFirmwareUpdate image s) := by
  unfold execPldmFirmwareUpdate
  repeat' (first
    | with_reducible assumption | with_reducible apply keptNext_next | with_reducible apply kept_firmwareUpdateOp)
theorem kept_sensorReadOp (item : PldmItem) (s : State) (hs : Kept s₀ s) : Kept s₀ (sensorReadOp item s) := by
  unfold sensorReadOp
  repeat' (first
    | with_reducible assumption | with_reducible apply kept_mgmtAnswer | with_reducible apply kept_ite)
theorem kept_execPldmSensorRead (item : PldmItem) (s : State) (hs : Kept s₀ s) : KeptNext s₀ (execPldmSensorRead item s) := by
  unfold execPldmSensorRead
  repeat' (first
    | with_reducible assumption | with_reducible apply keptNext_next | with_reducible apply kept_sensorReadOp)
theorem kept_mctpControlOp (command : Byte) (_data : List Byte) (s : State) (hs : Kept s₀ s) : Kept s₀ (mctpControlOp command _data s) := by
  unfold mctpControlOp
  repeat' (first
    | with_reducible assumption | with_reducible apply kept_mgmtAnswer | with_reducible apply kept_freeDraw
    | with_reducible apply kept_ite)
theorem kept_execMctpControl (command : Byte) (data : List Byte) (s : State) (hs : Kept s₀ s) :
    KeptNext s₀ (execMctpControl command data s) := by
  unfold execMctpControl
  repeat' (first
    | with_reducible assumption | with_reducible apply keptNext_next | with_reducible apply kept_mctpControlOp)
/-! ### Replay -/

theorem kept_replayWrite (s : State) (c : Nat) (source : Nat) (addr : Nat) (data : List Byte) (hs : Kept s₀ s) :
    Kept s₀ (replayWrite s c source addr data) := by
  unfold replayWrite
  repeat' (first
    | with_reducible assumption | with_reducible apply kept_storeBytes | with_reducible apply kept_recordInput
    | with_reducible apply kept_ite)
theorem kept_replayMessage (s : State) (c : Nat) (source : Nat) (addr : Nat) (tally : Nat) (data : List Byte) (hs : Kept s₀ s) :
    Kept s₀ (replayMessage s c source addr tally data) := by
  unfold replayMessage
  repeat' (first
    | with_reducible assumption | with_reducible apply kept_recordInput | with_reducible apply kept_writeMem
    | with_reducible apply kept_storeBytes | with_reducible apply kept_freeDraw | with_reducible apply kept_signalTally
    | with_reducible apply kept_ite | simp only [kept_mk] | split)
theorem kept_replayLaunch (s : State) (c : Nat) (launch : Nat) (slots : List (Nat × Nat)) (hs : Kept s₀ s) :
    Kept s₀ (replayLaunch s c launch slots) := by
  unfold replayLaunch
  repeat' (first
    | with_reducible assumption | intro _ | with_reducible apply kept_forEach | with_reducible apply kept_recordInput
    | with_reducible apply kept_startSlots | with_reducible apply kept_noteModels | with_reducible apply kept_restartWork
    | with_reducible apply kept_ite)
theorem kept_deliverRecord (s : State) (c : Nat) (r : List Byte) (data : List Byte) (together : List (List Byte)) (hs : Kept s₀ s) :
    Kept s₀ (deliverRecord s c r data together) := by
  unfold deliverRecord
  repeat' (first
    | with_reducible assumption | with_reducible apply kept_acceptWord | with_reducible apply kept_ringOne
    | with_reducible apply kept_replayWrite | with_reducible apply kept_replayMessage | with_reducible apply kept_replayLaunch
    | simp only [kept_mk] | split)
theorem kept_replayEnd (s : State) (c : Nat) (delivered : Nat) (hs : Kept s₀ s) : Kept s₀ (replayEnd s c delivered) := by
  unfold replayEnd
  repeat' (first
    | with_reducible assumption | with_reducible apply kept_modCtx | with_reducible apply kept_publishOne
    | simp only [kept_mk] | split)
theorem kept_replayPast (s : State) (c : Nat) (pos : Nat) (seq : Nat) (hs : Kept s₀ s) : Kept s₀ (replayPast s c pos seq) := by
  unfold replayPast
  repeat' (first
    | with_reducible assumption | with_reducible apply kept_replayEnd | with_reducible apply kept_modCtx
    | with_reducible apply kept_ite | split)
theorem kept_replayDeliverOp (c : Nat) (s : State) (hs : Kept s₀ s) : Kept s₀ (replayDeliverOp c s) := by
  unfold replayDeliverOp
  repeat' (first
    | with_reducible assumption | with_reducible apply kept_replayEnd | with_reducible apply kept_readMem
    | with_reducible apply kept_ctxFault | with_reducible apply kept_replayPast | with_reducible apply kept_deliverRecord
    | with_reducible apply kept_ite | simp only [kept_mk] | split)
theorem kept_execReplayDeliver (ctx : CtxId) (s : State) (hs : Kept s₀ s) : KeptNext s₀ (execReplayDeliver ctx s) := by
  unfold execReplayDeliver
  repeat' (first
    | with_reducible assumption | with_reducible apply keptNext_next | with_reducible apply kept_replayDeliverOp)
/-! ### Spdm -/

theorem kept_spdmAnswer (s : State) (a : SpdmAnswer) (hs : Kept s₀ s) : Kept s₀ (spdmAnswer s a) := by
  unfold spdmAnswer
  repeat' (first
    | with_reducible assumption | simp only [kept_mk])
theorem kept_tdiTo (s : State) (f : Nat) (m : TdiMode) (hs : Kept s₀ s) : Kept s₀ (tdiTo s f m) := by
  unfold tdiTo
  repeat' (first
    | with_reducible assumption | with_reducible apply kept_spdmAnswer | with_reducible apply kept_modFn)
theorem kept_tdispStep (f : Nat) (req : TdispReq) (s : State) (hs : Kept s₀ s) : Kept s₀ (tdispStep f req s) := by
  unfold tdispStep
  repeat' (first
    | with_reducible assumption | with_reducible apply kept_spdmAnswer | with_reducible apply kept_tdiTo
    | with_reducible apply kept_tdiError | simp only [kept_mk] | split)
theorem kept_tdispOp (f : Nat) (req : TdispReq) (s : State) (hs : Kept s₀ s) : Kept s₀ (tdispOp f req s) := by
  unfold tdispOp
  repeat' (first
    | with_reducible assumption | with_reducible apply kept_spdmAnswer | with_reducible apply kept_tdispStep
    | with_reducible apply kept_ite)
theorem kept_execTdispRequest (fn : Fn) (req : TdispReq) (s : State) (hs : Kept s₀ s) : KeptNext s₀ (execTdispRequest fn req s) := by
  unfold execTdispRequest
  repeat' (first
    | with_reducible assumption | with_reducible apply keptNext_next | with_reducible apply kept_tdispOp)
theorem kept_onChan (s : State) (c : SpdmChan) (k : SpdmConn → State) (hs : Kept s₀ s) (hk : ∀ t, Kept s₀ (k t)) :
    Kept s₀ (onChan s c k) := by
  unfold onChan
  repeat' (first
    | with_reducible assumption | with_reducible apply kept_spdmAnswer | with_reducible apply hk | with_reducible apply kept_ite)
theorem kept_onAgreed (s : State) (c : SpdmChan) (k : SpdmConn → State) (hs : Kept s₀ s) (hk : ∀ t, Kept s₀ (k t)) :
    Kept s₀ (onAgreed s c k) := by
  unfold onAgreed
  repeat' (first
    | with_reducible assumption | intro _ | with_reducible apply kept_onChan | with_reducible apply kept_spdmAnswer
    | with_reducible apply hk | with_reducible apply kept_ite)
theorem kept_drawRandom (s : State) (hs : Kept s₀ s) : Kept s₀ (drawRandom s).2 := by
  unfold drawRandom
  repeat' (first
    | with_reducible assumption | simp only [kept_mk])
theorem kept_getVersionOp (c : SpdmChan) (s : State) (hs : Kept s₀ s) : Kept s₀ (getVersionOp c s) := by
  unfold getVersionOp
  repeat' (first
    | with_reducible assumption | intro _ | with_reducible apply kept_onChan | with_reducible apply kept_spdmAnswer
    | with_reducible apply kept_setSpdm)
theorem kept_execGetVersion (chan : SpdmChan) (s : State) (hs : Kept s₀ s) : KeptNext s₀ (execGetVersion chan s) := by
  unfold execGetVersion
  repeat' (first
    | with_reducible assumption | with_reducible apply keptNext_next | with_reducible apply kept_getVersionOp)
theorem kept_getCapabilitiesOp (c : SpdmChan) (v : Byte) (s : State) (hs : Kept s₀ s) : Kept s₀ (getCapabilitiesOp c v s) := by
  unfold getCapabilitiesOp
  repeat' (first
    | with_reducible assumption | intro _ | with_reducible apply kept_onChan | with_reducible apply kept_spdmAnswer
    | with_reducible apply kept_setSpdm | with_reducible apply kept_ite)
theorem kept_execGetCapabilities (chan : SpdmChan) (version : Byte) (s : State) (hs : Kept s₀ s) :
    KeptNext s₀ (execGetCapabilities chan version s) := by
  unfold execGetCapabilities
  repeat' (first
    | with_reducible assumption | with_reducible apply keptNext_next | with_reducible apply kept_getCapabilitiesOp)
theorem kept_negotiateAlgorithmsOp (c : SpdmChan) (extAsym : List Half) (extHash : List Half) (s : State) (hs : Kept s₀ s) :
    Kept s₀ (negotiateAlgorithmsOp c extAsym extHash s) := by
  unfold negotiateAlgorithmsOp
  repeat' (first
    | with_reducible assumption | intro _ | with_reducible apply kept_onChan | with_reducible apply kept_spdmAnswer
    | with_reducible apply kept_setSpdm | with_reducible apply kept_ite)
theorem kept_execNegotiateAlgorithms (chan : SpdmChan) (extAsym : List Half) (extHash : List Half) (s : State) (hs : Kept s₀ s) :
    KeptNext s₀ (execNegotiateAlgorithms chan extAsym extHash s) := by
  unfold execNegotiateAlgorithms
  repeat' (first
    | with_reducible assumption | with_reducible apply keptNext_next | with_reducible apply kept_negotiateAlgorithmsOp)
theorem kept_getDigestsOp (c : SpdmChan) (s : State) (hs : Kept s₀ s) : Kept s₀ (getDigestsOp c s) := by
  unfold getDigestsOp
  repeat' (first
    | with_reducible assumption | intro _ | with_reducible apply kept_onAgreed | with_reducible apply kept_spdmAnswer)
theorem kept_execGetDigests (chan : SpdmChan) (s : State) (hs : Kept s₀ s) : KeptNext s₀ (execGetDigests chan s) := by
  unfold execGetDigests
  repeat' (first
    | with_reducible assumption | with_reducible apply keptNext_next | with_reducible apply kept_getDigestsOp)
theorem kept_getCertificateOp (c : SpdmChan) (slot : Nat) (offset : Nat) (length : Nat) (s : State) (hs : Kept s₀ s) :
    Kept s₀ (getCertificateOp c slot offset length s) := by
  unfold getCertificateOp
  repeat' (first
    | with_reducible assumption | intro _ | with_reducible apply kept_onAgreed | with_reducible apply kept_spdmAnswer
    | with_reducible apply kept_ite)
theorem kept_execGetCertificate (chan : SpdmChan) (slot : Nat) (offset : Nat) (length : Nat) (s : State) (hs : Kept s₀ s) :
    KeptNext s₀ (execGetCertificate chan slot offset length s) := by
  unfold execGetCertificate
  repeat' (first
    | with_reducible assumption | with_reducible apply keptNext_next | with_reducible apply kept_getCertificateOp)
theorem kept_challengeOp (c : SpdmChan) (slot : Nat) (nonce : List Byte) (s : State) (hs : Kept s₀ s) :
    Kept s₀ (challengeOp c slot nonce s) := by
  unfold challengeOp
  repeat' (first
    | with_reducible assumption | intro _ | with_reducible apply kept_onAgreed | with_reducible apply kept_spdmAnswer
    | with_reducible apply kept_drawRandom | with_reducible apply kept_ite)
theorem kept_execChallenge (chan : SpdmChan) (slot : Nat) (nonce : List Byte) (s : State) (hs : Kept s₀ s) :
    KeptNext s₀ (execChallenge chan slot nonce s) := by
  unfold execChallenge
  repeat' (first
    | with_reducible assumption | with_reducible apply keptNext_next | with_reducible apply kept_challengeOp)
theorem kept_getMeasurementsOp (c : SpdmChan) (index : Nat) (raw : Bool) (s : State) (hs : Kept s₀ s) :
    Kept s₀ (getMeasurementsOp c index raw s) := by
  unfold getMeasurementsOp
  repeat' (first
    | with_reducible assumption | intro _ | with_reducible apply kept_onAgreed | with_reducible apply kept_spdmAnswer
    | with_reducible apply kept_drawRandom | with_reducible apply kept_ite)
theorem kept_execGetMeasurements (chan : SpdmChan) (index : Nat) (raw : Bool) (s : State) (hs : Kept s₀ s) :
    KeptNext s₀ (execGetMeasurements chan index raw s) := by
  unfold execGetMeasurements
  repeat' (first
    | with_reducible assumption | with_reducible apply keptNext_next | with_reducible apply kept_getMeasurementsOp)
theorem kept_keyExchangeOp (c : SpdmChan) (slot : Nat) (sessionId : Half) (exchange : List Byte) (s : State) (hs : Kept s₀ s) :
    Kept s₀ (keyExchangeOp c slot sessionId exchange s) := by
  unfold keyExchangeOp
  repeat' (first
    | with_reducible assumption | intro _ | with_reducible apply kept_onAgreed | with_reducible apply kept_spdmAnswer
    | with_reducible apply kept_drawRandom | with_reducible apply kept_setSpdm | with_reducible apply kept_ite)
theorem kept_execKeyExchange (chan : SpdmChan) (slot : Nat) (sessionId : Half) (exchange : List Byte) (s : State) (hs : Kept s₀ s) :
    KeptNext s₀ (execKeyExchange chan slot sessionId exchange s) := by
  unfold execKeyExchange
  repeat' (first
    | with_reducible assumption | with_reducible apply keptNext_next | with_reducible apply kept_keyExchangeOp)
theorem kept_finishOp (c : SpdmChan) (verified : Bool) (s : State) (hs : Kept s₀ s) : Kept s₀ (finishOp c verified s) := by
  unfold finishOp
  repeat' (first
    | with_reducible assumption | intro _ | with_reducible apply kept_onAgreed | with_reducible apply kept_spdmAnswer
    | with_reducible apply kept_setSpdm | with_reducible apply kept_ite)
theorem kept_execFinish (chan : SpdmChan) (verified : Bool) (s : State) (hs : Kept s₀ s) : KeptNext s₀ (execFinish chan verified s) := by
  unfold execFinish
  repeat' (first
    | with_reducible assumption | with_reducible apply keptNext_next | with_reducible apply kept_finishOp)
theorem kept_endSessionOp (c : SpdmChan) (s : State) (hs : Kept s₀ s) : Kept s₀ (endSessionOp c s) := by
  unfold endSessionOp
  repeat' (first
    | with_reducible assumption | intro _ | with_reducible apply kept_onAgreed | with_reducible apply kept_spdmAnswer
    | with_reducible apply kept_setSpdm | with_reducible apply kept_ite)
theorem kept_execEndSession (chan : SpdmChan) (s : State) (hs : Kept s₀ s) : KeptNext s₀ (execEndSession chan s) := by
  unfold execEndSession
  repeat' (first
    | with_reducible assumption | with_reducible apply keptNext_next | with_reducible apply kept_endSessionOp)
theorem kept_debugTokenOp (version : Byte) (level : Byte) (moduleId : BitVec 48) (nonce : BitVec 256) (signatureOk : Bool) (s : State) (hs : Kept s₀ s) :
    Kept s₀ (debugTokenOp version level moduleId nonce signatureOk s) := by
  unfold debugTokenOp
  repeat' (first
    | with_reducible assumption | with_reducible apply kept_mgmtAnswer | with_reducible apply kept_ite
    | simp only [kept_mk])
theorem kept_execDebugToken (version : Byte) (level : Byte) (moduleId : BitVec 48) (nonce : BitVec 256) (signatureOk : Bool) (s : State) (hs : Kept s₀ s) :
    KeptNext s₀ (execDebugToken version level moduleId nonce signatureOk s) := by
  unfold execDebugToken
  repeat' (first
    | with_reducible assumption | with_reducible apply keptNext_next | with_reducible apply kept_debugTokenOp)
theorem kept_tapTo (s : State) (i : TapInstr) (drives : Bool) (read : Word32) (hs : Kept s₀ s) : Kept s₀ (tapTo s i drives read) := by
  unfold tapTo
  repeat' (first
    | with_reducible assumption | with_reducible apply kept_ite | simp only [kept_mk])
theorem kept_execTapBypass (s : State) (hs : Kept s₀ s) : KeptNext s₀ (execTapBypass s) := by
  unfold execTapBypass
  repeat' (first
    | with_reducible assumption | with_reducible apply keptNext_next | with_reducible apply kept_tapTo)
theorem kept_execTapIdcode (s : State) (hs : Kept s₀ s) : KeptNext s₀ (execTapIdcode s) := by
  unfold execTapIdcode
  repeat' (first
    | with_reducible assumption | with_reducible apply keptNext_next | with_reducible apply kept_tapTo)
theorem kept_tapSampleOp (sampled : List Bool) (preload : List Bool) (s : State) (hs : Kept s₀ s) :
    Kept s₀ (tapSampleOp sampled preload s) := by
  unfold tapSampleOp
  repeat' (first
    | with_reducible assumption | with_reducible apply kept_tapTo | with_reducible apply kept_ite | simp only [kept_mk])
theorem kept_execTapSamplePreload (sampled : List Bool) (preload : List Bool) (s : State) (hs : Kept s₀ s) :
    KeptNext s₀ (execTapSamplePreload sampled preload s) := by
  unfold execTapSamplePreload
  repeat' (first
    | with_reducible assumption | with_reducible apply keptNext_next | with_reducible apply kept_tapSampleOp)
theorem kept_tapExtestOp (s : State) (hs : Kept s₀ s) : Kept s₀ (tapExtestOp s) := by
  unfold tapExtestOp
  repeat' (first
    | with_reducible assumption | with_reducible apply kept_tapTo | with_reducible apply kept_ite)
theorem kept_execTapExtest (s : State) (hs : Kept s₀ s) : KeptNext s₀ (execTapExtest s) := by
  unfold execTapExtest
  repeat' (first
    | with_reducible assumption | with_reducible apply keptNext_next | with_reducible apply kept_tapExtestOp)
/-! ### Witness -/

theorem kept_logOutlier (s : State) (p : Nat) (x : Sample) (f : Finding) (cond : Cond) (hs : Kept s₀ s) :
    Kept s₀ (logOutlier s p x f cond) := by
  unfold logOutlier
  repeat' (first
    | with_reducible assumption | with_reducible apply kept_setRaw | with_reducible apply kept_bump | with_reducible apply kept_storeBytes
    | with_reducible apply kept_modPart | with_reducible apply kept_ite | simp only [kept_mk] | split)
theorem kept_setDrift (s : State) (p : Nat) (i : Nat) (d : DriftPair) (hs : Kept s₀ s) : Kept s₀ (setDrift s p i d) := by
  unfold setDrift
  repeat' (first
    | with_reducible assumption | with_reducible apply kept_modPart)
theorem kept_driftCheck (s : State) (p : Nat) (x : Sample) (cond : Cond) (hs : Kept s₀ s) : Kept s₀ (driftCheck s p x cond) := by
  unfold driftCheck
  repeat' (first
    | with_reducible assumption | with_reducible apply kept_setDrift | with_reducible apply kept_readAll
    | with_reducible apply kept_logOutlier | with_reducible apply kept_bump | with_reducible apply kept_ite
    | simp only [kept_mk] | split)
theorem kept_dropTile (s : State) (x : Sample) (hs : Kept s₀ s) : Kept s₀ (dropTile s x) := by
  unfold dropTile
  repeat' (first
    | with_reducible assumption | with_reducible apply kept_modCore)
theorem kept_releaseTile (s : State) (x : Sample) (hs : Kept s₀ s) : Kept s₀ (releaseTile s x) := by
  unfold releaseTile
  repeat' (first
    | with_reducible assumption | with_reducible apply kept_checkComplete | with_reducible apply kept_dropTile
    | with_reducible apply kept_signalTile | with_reducible apply kept_setUnit | with_reducible apply kept_ite
    | split)
theorem kept_stopTile (s : State) (x : Sample) (hs : Kept s₀ s) : Kept s₀ (stopTile s x) := by
  unfold stopTile
  repeat' (first
    | with_reducible assumption | with_reducible apply kept_setUnit | with_reducible apply kept_partialWrites
    | with_reducible apply kept_dropTile | split)
theorem kept_arrayAtFault (s : State) (sec : Nat) (p : Nat) (x : Sample) (w : List (BitVec 48 × Word32)) (cond : Cond) (hs : Kept s₀ s) :
    Kept s₀ (arrayAtFault s sec p x w cond) := by
  unfold arrayAtFault
  repeat' (first
    | with_reducible assumption | with_reducible apply kept_logOutlier | with_reducible apply kept_healthEvent
    | with_reducible apply kept_bump | with_reducible apply kept_postBoth | with_reducible apply kept_stopTile
    | with_reducible apply kept_coreFault | with_reducible apply kept_ite)
theorem kept_witnessAtFault (s : State) (sec : Nat) (p : Nat) (x : Sample) (w : List (BitVec 48 × Word32)) (cond : Cond) (hs : Kept s₀ s) :
    Kept s₀ (witnessAtFault s sec p x w cond) := by
  unfold witnessAtFault
  repeat' (first
    | with_reducible assumption | with_reducible apply kept_logOutlier | with_reducible apply kept_bump
    | with_reducible apply kept_setFld | with_reducible apply kept_healthEvent | with_reducible apply kept_releaseTile
    | with_reducible apply kept_postTo)
theorem kept_witnessDone (sec : Nat) (first : List CellError) (second : List CellError) (cond : Cond) (s : State) (hs : Kept s₀ s) :
    Kept s₀ (witnessDone sec first second cond s) := by
  unfold witnessDone
  repeat' (first
    | with_reducible assumption | with_reducible apply kept_setWitness | with_reducible apply kept_bump
    | with_reducible apply kept_dropCauses | with_reducible apply kept_releaseTile | with_reducible apply kept_driftCheck
    | with_reducible apply kept_arrayAtFault | with_reducible apply kept_witnessAtFault | with_reducible apply kept_ite
    | simp only [kept_mk] | split)
theorem kept_execWitnessCheckDone (sec : Sec) (result : WitnessResult) (cond : Cond) (s : State) (hs : Kept s₀ s) :
    KeptNext s₀ (execWitnessCheckDone sec result cond s) := by
  unfold execWitnessCheckDone
  repeat' (first
    | with_reducible assumption | with_reducible apply keptNext_next | with_reducible apply kept_witnessDone)
/-! ### Dispatch -/

theorem kept_exec (i : Instr) (s : State) (hs : Kept s₀ s) : KeptNext s₀ (exec i s) := by
  unfold exec
  repeat' (first
    | with_reducible assumption | with_reducible apply kept_execPcieConfigRequest | with_reducible apply kept_execPerstNAssert
    | with_reducible apply kept_execPerstNRelease | with_reducible apply kept_execHotReset | with_reducible apply kept_execStartPathChoice
    | with_reducible apply kept_execPowerGrant | with_reducible apply kept_execConfigSpaceReady | with_reducible apply kept_execAutumnBlockDone
    | with_reducible apply kept_execModuleOperational | with_reducible apply kept_execShdnReq | with_reducible apply kept_execResetKeyWrite
    | with_reducible apply kept_execRegisterWrite | with_reducible apply kept_execRcRegisterRead | with_reducible apply kept_execMbxInDeposit
    | with_reducible apply kept_execMailboxTake | with_reducible apply kept_execMbxOutPost | with_reducible apply kept_execMbxOutAck
    | with_reducible apply kept_execDoorbell | with_reducible apply kept_execQueueFetch | with_reducible apply kept_execCqRelease
    | with_reducible apply kept_execQueueDrainEnd | with_reducible apply kept_execBar2Read | with_reducible apply kept_execBar2Write
    | with_reducible apply kept_execFunctionLevelReset | with_reducible apply kept_execPfResetOrVfDisable
    | with_reducible apply kept_execBusMasterDisable | with_reducible apply kept_execTdispRequest | with_reducible apply kept_execHello
    | with_reducible apply kept_execBye | with_reducible apply kept_execPing | with_reducible apply kept_execCmdqClose
    | with_reducible apply kept_execRplStop | with_reducible apply kept_execRplStatus | with_reducible apply kept_execCmdqOpen
    | with_reducible apply kept_execPartCreate | with_reducible apply kept_execPartDestroy | with_reducible apply kept_execPartAssign
    | with_reducible apply kept_execPartHandover | with_reducible apply kept_execPartSched | with_reducible apply kept_execPartCache
    | with_reducible apply kept_execSlotTable | with_reducible apply kept_execPartInfo | with_reducible apply kept_execWindowSet
    | with_reducible apply kept_execFnState | with_reducible apply kept_execCtxCreate | with_reducible apply kept_execCtxDestroy
    | with_reducible apply kept_execCtxSet | with_reducible apply kept_execCtxQuiesce | with_reducible apply kept_execCtxSnapshot
    | with_reducible apply kept_execQueueCreate | with_reducible apply kept_execQueueDestroy | with_reducible apply kept_execQueueEnable
    | with_reducible apply kept_execQueueDisable | with_reducible apply kept_execQueueReset | with_reducible apply kept_execTallyCreate
    | with_reducible apply kept_execTallySet | with_reducible apply kept_execTallyDestroy | with_reducible apply kept_execRegionCreate
    | with_reducible apply kept_execRegionDestroy | with_reducible apply kept_execRegionFreeze | with_reducible apply kept_execHandleInfo
    | with_reducible apply kept_execMemFlush | with_reducible apply kept_execScrubPeriod | with_reducible apply kept_execStackRate
    | with_reducible apply kept_execProgLoad | with_reducible apply kept_execProgUnload | with_reducible apply kept_execLaunch
    | with_reducible apply kept_execLaunchPublish | with_reducible apply kept_execTensorReg | with_reducible apply kept_execTensorUnreg
    | with_reducible apply kept_execTensorVersion | with_reducible apply kept_execTensorScale | with_reducible apply kept_execTensorUnpoison
    | with_reducible apply kept_execTensorStamp | with_reducible apply kept_execModelDefine | with_reducible apply kept_execModelLoad
    | with_reducible apply kept_execModelEvict | with_reducible apply kept_execModelUnitsFreed | with_reducible apply kept_execModelDestroy
    | with_reducible apply kept_execGroupBind | with_reducible apply kept_execEpochInstall | with_reducible apply kept_execCommCreate
    | with_reducible apply kept_execCommDestroy | with_reducible apply kept_execLinkExpect | with_reducible apply kept_execLinkRetrain
    | with_reducible apply kept_execLinkFence | with_reducible apply kept_execLinkUnfence | with_reducible apply kept_execLinkCfg
    | with_reducible apply kept_execHistSet | with_reducible apply kept_execNumSnapshot | with_reducible apply kept_execGateCreate
    | with_reducible apply kept_execGateSet | with_reducible apply kept_execGateDestroy | with_reducible apply kept_execWitnessCfg
    | with_reducible apply kept_execDriftPair | with_reducible apply kept_execOutlierRing | with_reducible apply kept_execRplRecord
    | with_reducible apply kept_execRplMark | with_reducible apply kept_execRplReplay | with_reducible apply kept_execGravelCfg
    | with_reducible apply kept_execAutumnRun | with_reducible apply kept_execPowerCap | with_reducible apply kept_execLimits
    | with_reducible apply kept_execTelemetry | with_reducible apply kept_execHealth | with_reducible apply kept_execEscalation
    | with_reducible apply kept_execCommandTimeout | with_reducible apply kept_execTileFetch | with_reducible apply kept_execTileIssue
    | with_reducible apply kept_execTileComplete | with_reducible apply kept_execTallyAdd | with_reducible apply kept_execSlotChange
    | with_reducible apply kept_execBubbleFill | with_reducible apply kept_execSequencerWatchdog | with_reducible apply kept_execWaitLimitReport
    | with_reducible apply kept_execWaitTimeout | with_reducible apply kept_execWitnessCheckDone | with_reducible apply kept_execMoverTransfer
    | with_reducible apply kept_execMoverComplete | with_reducible apply kept_execCrcSecondRead | with_reducible apply kept_execMoverWatchdog
    | with_reducible apply kept_execRouteDescriptor | with_reducible apply kept_execRouteComplete | with_reducible apply kept_execRouteWatchdog
    | with_reducible apply kept_execOptimizerUpdate | with_reducible apply kept_execGateDecision | with_reducible apply kept_execGateSnapshot
    | with_reducible apply kept_execOptimizerWatchdog | with_reducible apply kept_execCollectiveDescriptor
    | with_reducible apply kept_execChunkArrival | with_reducible apply kept_execChunkCreditReturn | with_reducible apply kept_execCollectiveComplete
    | with_reducible apply kept_execCollWaitReport | with_reducible apply kept_execLinkTransmit | with_reducible apply kept_execLinkTransmitAcked
    | with_reducible apply kept_execLinkTxWatchdog | with_reducible apply kept_execFlitReceive | with_reducible apply kept_execMsgWrite
    | with_reducible apply kept_execMsgBlock | with_reducible apply kept_execMsgRefuse | with_reducible apply kept_execMsgEpochNotice
    | with_reducible apply kept_execMsgAbort | with_reducible apply kept_execEpochGraceExpiry | with_reducible apply kept_execNegotiateReceive
    | with_reducible apply kept_execNotReadyReceive | with_reducible apply kept_execNegotiateResend | with_reducible apply kept_execHeartbeatSend
    | with_reducible apply kept_execHeartbeatReceive | with_reducible apply kept_execHeartbeatTimeout
    | with_reducible apply kept_execDegradeReceive | with_reducible apply kept_execFencedReceive | with_reducible apply kept_execLaneLock
    | with_reducible apply kept_execLaneRetire | with_reducible apply kept_execLinkRetrainStart | with_reducible apply kept_execLinkRetrainEnd
    | with_reducible apply kept_execTrainingTimeout | with_reducible apply kept_execLnkLoopStart | with_reducible apply kept_execLnkLoopDone
    | with_reducible apply kept_execLnkLoopModeWrite | with_reducible apply kept_execHbmLoopStart | with_reducible apply kept_execHbmLoopDone
    | with_reducible apply kept_execPatrolScrubRead | with_reducible apply kept_execHbmRefresh | with_reducible apply kept_execUnscheduledRefresh
    | with_reducible apply kept_execHoldStart | with_reducible apply kept_execHoldEnd | with_reducible apply kept_execHoldLimitReport
    | with_reducible apply kept_execReplayDeliver | with_reducible apply kept_execContextTeardown | with_reducible apply kept_execDrainTimerExpiry
    | with_reducible apply kept_execPartitionFatal | with_reducible apply kept_execPartitionResetDone
    | with_reducible apply kept_execModuleFatal | with_reducible apply kept_execIcvarWatchdog | with_reducible apply kept_execHealthDecay
    | with_reducible apply kept_execGravelSliceStart | with_reducible apply kept_execGravelSliceEnd | with_reducible apply kept_execGravelSliceAbandon
    | with_reducible apply kept_execWitnessSlice | with_reducible apply kept_execArbiterPeriod | with_reducible apply kept_execClockSlewEnd
    | with_reducible apply kept_execEmergencyHold | with_reducible apply kept_execSensorRead | with_reducible apply kept_execSupplyTrip
    | with_reducible apply kept_execMgmtCapSet | with_reducible apply kept_execPldmFirmwareUpdate | with_reducible apply kept_execPldmSensorRead
    | with_reducible apply kept_execMctpControl | with_reducible apply kept_execGetVersion | with_reducible apply kept_execGetCapabilities
    | with_reducible apply kept_execNegotiateAlgorithms | with_reducible apply kept_execGetDigests | with_reducible apply kept_execGetCertificate
    | with_reducible apply kept_execChallenge | with_reducible apply kept_execGetMeasurements | with_reducible apply kept_execKeyExchange
    | with_reducible apply kept_execFinish | with_reducible apply kept_execEndSession | with_reducible apply kept_execDebugToken
    | with_reducible apply kept_execTapBypass | with_reducible apply kept_execTapIdcode | with_reducible apply kept_execTapSamplePreload
    | with_reducible apply kept_execTapExtest | with_reducible apply kept_execOptimizerComplete | with_reducible apply kept_execScrubComplete
    | with_reducible apply kept_execStackTrainingDone | with_reducible apply kept_execPowerApplied | with_reducible apply kept_execPowerRemoved
    | with_reducible apply kept_execPcieLinkTrained | with_reducible apply kept_execIdeKmRequest | split)
/-! ### Tick -/

theorem kept_countContention (s : State) (p : Nat) (hs : Kept s₀ s) : Kept s₀ (countContention s p) := by
  unfold countContention
  repeat' (first
    | with_reducible assumption | with_reducible apply kept_freeDraw | with_reducible apply kept_bump
    | with_reducible apply kept_ite)
theorem kept_coreStalls (s : State) (k : Nat) (hs : Kept s₀ s) : Kept s₀ (coreStalls s k) := by
  unfold coreStalls
  repeat' (first
    | with_reducible assumption | with_reducible apply kept_freeDraw | with_reducible apply kept_bump
    | with_reducible apply kept_ite)
theorem kept_routeStalls (s : State) (sec : Nat) (hs : Kept s₀ s) : Kept s₀ (routeStalls s sec) := by
  unfold routeStalls
  repeat' (first
    | with_reducible assumption | with_reducible apply kept_freeDraw | with_reducible apply kept_bump
    | with_reducible apply kept_ite)
theorem kept_tick (s : State) (hs : Kept s₀ s) : Kept s₀ (tick s) := by
  unfold tick
  repeat' (first
    | with_reducible assumption | intro _ | with_reducible apply kept_forEach | with_reducible apply kept_passFrame
    | with_reducible apply kept_coreStalls | with_reducible apply kept_routeStalls
    | with_reducible apply kept_countContention | with_reducible apply kept_advanceWork | with_reducible apply kept_collResume
    | with_reducible apply kept_settle | with_reducible apply kept_serveLinks | with_reducible apply kept_servePort
    | with_reducible apply kept_ite | simp only [kept_mk])

end Sys2Proof.Machine
end

