-- ==== Sys2Proof/WellFormed.lean ====
section
/-! DEFINITION. Which commands can be written: the alignments, lengths and widths that the spec gives the operands. The meanings are
total and ask for none of this; a sender of commands keeps to it. -/

namespace Sys2Proof

/-- A word that reads back wrong is named by the device address of its first byte, and words are 16 bytes (R54). -/
def Hit.wf (h : Hit) : Bool := decide (h.word % 16 = 0)

/-- One outcome to a word. -/
def hitsWf (l : List Hit) : Bool := l.all Hit.wf && decide (l.map (·.word)).Nodup

/-- Host memory has 63-bit addresses beside the flag of R365. -/
def hostWf (l : List Cell) : Bool := l.all (fun c => decide (c.1 < 2 ^ 63))

/-- A short-form command carries no block and no token (R366, R376). -/
def Req.shortWf (r : Req) : Bool :=
  hostWf r.host && decide (r.token = 0) && (match r.via with | .mbx _ _ b => b.isNone | .queue _ _ => true)

/-- A command block lies on a 4,096-byte boundary of host memory, at an address that the 48 bits of a mailbox word can name, and not
at 0 (R366). -/
def Req.blockWf (r : Req) : Bool :=
  hostWf r.host &&
  (match r.via with
   | .mbx _ _ (some b) => decide (b % 4096 = 0) && b != 0 && decide (b < 2 ^ 60)
   | .mbx _ _ none => false
   | .queue _ _ => true)

/-- A configuration access is to an aligned word (R330). -/
def CfgAccess.wf : CfgAccess → Bool
  | .read off => decide (off.toNat % 4 = 0)
  | .write off _ => decide (off.toNat % 4 = 0)
  | .setBusMaster => true
  | .setVfEnable => true
  | .setBar2Size _ => true

/-- A register access is of 1 to 8 bytes within the 256 MiB of BAR0 (R10, R332). -/
def accessWf (off width : Nat) : Bool := width != 0 && decide (width ≤ 8) && decide (off + width ≤ 2 ^ 28)

/-- The descriptor that waits is named by its index in a program (R148). -/
def WaitSite.wf : WaitSite → Bool
  | .tile _ index => decide (index < 2 ^ 32)
  | .collective _ => true

/-- A message has a header of 32 bytes and at most 65,536 bytes of data, and names the offsets of the bytes of its data that
stand in words marked bad (R273, R278). -/
def messageWf (header data : List Byte) (bad : List Nat) : Bool :=
  decide (header.length = 32) && decide (data.length ≤ 65536) && bad.all (fun i => decide (i < data.length))

/-- A wrong result names one of the accumulators of an array (R118). -/
def CellError.wf (e : CellError) : Bool := decide (e.out < 65536)

/-- A control period measures every section (R463). -/
def PowerMeas.wf (m : PowerMeas) : Bool := decide (m.sectionW.length = 8) && decide (m.steps.length = 8)

/-- The words that a command's reads find in error. -/
def Instr.hits : Instr → List Hit
  | .mailboxTake _ _ _ _ _ hits => hits
  | .queueFetch _ _ _ hits => hits
  | .bar2Read _ _ _ hits => hits
  | .bar2Write _ _ _ hits => hits
  | .ctxSnapshot _ _ _ _ _ hits => hits
  | .modelLoad _ _ hits => hits
  | .tileFetch _ hits => hits
  | .tileIssue _ hits _ _ => hits
  | .moverTransfer _ hits _ => hits
  | .routeDescriptor _ hits => hits
  | .optimizerUpdate _ hits => hits
  | .collectiveDescriptor _ hits => hits
  | .chunkArrival _ _ _ _ headerHits dataHits => headerHits ++ dataHits
  | .linkTransmit _ hits _ _ => hits
  | .pcieConfigRequest .. | .perstNAssert | .perstNRelease | .hotReset | .startPathChoice .. | .powerGrant
  | .configSpaceReady | .autumnBlockDone .. | .moduleOperational | .shdnReq .. | .resetKeyWrite .. | .registerWrite ..
  | .rcRegisterRead .. | .mbxInDeposit .. | .mbxOutPost .. | .mbxOutAck .. | .doorbell .. | .cqRelease ..
  | .queueDrainEnd .. | .functionLevelReset .. | .pfResetOrVfDisable .. | .busMasterDisable .. | .tdispRequest ..
  | .hello .. | .bye .. | .ping .. | .cmdqClose .. | .rplStop .. | .rplStatus .. | .cmdqOpen .. | .partCreate ..
  | .partDestroy .. | .partAssign .. | .partHandover .. | .partSched .. | .partCache .. | .slotTable .. | .partInfo ..
  | .windowSet .. | .fnState .. | .ctxCreate .. | .ctxDestroy .. | .ctxSet .. | .ctxQuiesce .. | .queueCreate ..
  | .queueDestroy .. | .queueEnable .. | .queueDisable .. | .queueReset .. | .tallyCreate .. | .tallySet ..
  | .tallyDestroy .. | .regionCreate .. | .regionDestroy .. | .regionFreeze .. | .handleInfo .. | .memFlush ..
  | .scrubPeriod .. | .stackRate .. | .progLoad .. | .progUnload .. | .launch .. | .launchPublish .. | .tensorReg ..
  | .tensorUnreg .. | .tensorVersion .. | .tensorScale .. | .tensorUnpoison .. | .tensorStamp .. | .modelDefine ..
  | .modelEvict .. | .modelUnitsFreed .. | .modelDestroy .. | .groupBind .. | .epochInstall .. | .commCreate ..
  | .commDestroy .. | .linkExpect .. | .linkRetrain .. | .linkFence .. | .linkUnfence .. | .linkCfg .. | .histSet ..
  | .numSnapshot .. | .gateCreate .. | .gateSet .. | .gateDestroy .. | .witnessCfg .. | .driftPair .. | .outlierRing ..
  | .rplRecord .. | .rplMark .. | .rplReplay .. | .gravelCfg .. | .autumnRun .. | .powerCap .. | .limits ..
  | .telemetry .. | .health .. | .escalation .. | .commandTimeout .. | .tileComplete .. | .tallyAdd .. | .slotChange ..
  | .bubbleFill .. | .sequencerWatchdog .. | .waitLimitReport .. | .waitTimeout .. | .witnessCheckDone ..
  | .moverComplete .. | .crcSecondRead .. | .moverWatchdog .. | .routeComplete .. | .routeWatchdog .. | .gateDecision ..
  | .gateSnapshot .. | .optimizerWatchdog .. | .chunkCreditReturn .. | .collectiveComplete .. | .collWaitReport ..
  | .linkTransmitAcked .. | .linkTxWatchdog .. | .flitReceive .. | .msgWrite .. | .msgBlock .. | .msgRefuse ..
  | .msgEpochNotice .. | .msgAbort .. | .epochGraceExpiry .. | .negotiateReceive .. | .notReadyReceive ..
  | .negotiateResend .. | .heartbeatSend .. | .heartbeatReceive .. | .heartbeatTimeout .. | .degradeReceive ..
  | .fencedReceive .. | .laneLock .. | .laneRetire .. | .linkRetrainStart .. | .linkRetrainEnd .. | .trainingTimeout ..
  | .lnkLoopStart .. | .lnkLoopDone .. | .lnkLoopModeWrite .. | .hbmLoopStart .. | .hbmLoopDone .. | .patrolScrubRead ..
  | .hbmRefresh .. | .unscheduledRefresh .. | .holdStart .. | .holdEnd .. | .holdLimitReport .. | .replayDeliver ..
  | .contextTeardown .. | .drainTimerExpiry .. | .partitionFatal .. | .partitionResetDone .. | .moduleFatal ..
  | .icvarWatchdog | .healthDecay | .gravelSliceStart .. | .gravelSliceEnd .. | .gravelSliceAbandon ..
  | .witnessSlice .. | .arbiterPeriod .. | .clockSlewEnd | .emergencyHold | .sensorRead .. | .supplyTrip ..
  | .mgmtCapSet .. | .pldmFirmwareUpdate .. | .pldmSensorRead .. | .mctpControl .. | .getVersion ..
  | .getCapabilities .. | .negotiateAlgorithms .. | .getDigests .. | .getCertificate .. | .challenge ..
  | .getMeasurements .. | .keyExchange .. | .finish .. | .endSession .. | .debugToken .. | .tapBypass | .tapIdcode
  | .tapSamplePreload .. | .tapExtest | .optimizerComplete .. | .scrubComplete .. | .stackTrainingDone ..
  | .powerApplied | .powerRemoved | .pcieLinkTrained .. | .ideKmRequest .. => []

/-- The form of a Caoco command's carrier. -/
def Instr.carrierWf : Instr → Bool
  | .hello rq _ => rq.shortWf
  | .bye rq _ => rq.shortWf
  | .ping rq _ => rq.shortWf
  | .cmdqClose rq _ => rq.shortWf
  | .rplStop rq _ => rq.shortWf
  | .rplStatus rq _ => rq.shortWf
  | .cmdqOpen rq _ _ _ _ _ => rq.blockWf
  | .partCreate rq _ _ _ _ => rq.blockWf
  | .partDestroy rq _ => rq.blockWf
  | .partAssign rq _ _ => rq.blockWf
  | .partHandover rq _ => rq.blockWf
  | .partSched rq _ => rq.blockWf
  | .partCache rq _ => rq.blockWf
  | .slotTable rq _ _ => rq.blockWf
  | .partInfo rq _ _ => rq.blockWf
  | .windowSet rq _ _ _ => rq.blockWf
  | .fnState rq _ _ => rq.blockWf
  | .ctxCreate rq _ _ _ => rq.blockWf
  | .ctxDestroy rq _ => rq.blockWf
  | .ctxSet rq _ _ _ => rq.blockWf
  | .ctxQuiesce rq _ => rq.blockWf
  | .ctxSnapshot rq _ _ _ _ _ => rq.blockWf
  | .queueCreate rq _ _ _ _ _ _ _ _ => rq.blockWf
  | .queueDestroy rq _ => rq.blockWf
  | .queueEnable rq _ => rq.blockWf
  | .queueDisable rq _ => rq.blockWf
  | .queueReset rq _ => rq.blockWf
  | .tallyCreate rq _ _ _ _ => rq.blockWf
  | .tallySet rq _ _ => rq.blockWf
  | .tallyDestroy rq _ => rq.blockWf
  | .regionCreate rq _ _ _ _ => rq.blockWf
  | .regionDestroy rq _ => rq.blockWf
  | .regionFreeze rq _ _ => rq.blockWf
  | .handleInfo rq _ _ => rq.blockWf
  | .memFlush rq => rq.blockWf
  | .scrubPeriod rq _ _ _ => rq.blockWf
  | .stackRate rq _ => rq.blockWf
  | .progLoad rq _ _ _ _ _ => rq.blockWf
  | .progUnload rq _ _ => rq.blockWf
  | .launch rq _ _ _ => rq.blockWf
  | .tensorReg rq _ _ => rq.blockWf
  | .tensorUnreg rq _ => rq.blockWf
  | .tensorVersion rq _ _ => rq.blockWf
  | .tensorScale rq _ _ => rq.blockWf
  | .tensorUnpoison rq _ => rq.blockWf
  | .tensorStamp rq _ _ => rq.blockWf
  | .modelDefine rq _ _ _ => rq.blockWf
  | .modelLoad rq _ _ => rq.blockWf
  | .modelEvict rq _ => rq.blockWf
  | .modelDestroy rq _ => rq.blockWf
  | .groupBind rq _ _ _ => rq.blockWf
  | .epochInstall rq _ _ _ _ => rq.blockWf
  | .commCreate rq _ _ _ => rq.blockWf
  | .commDestroy rq _ _ => rq.blockWf
  | .linkExpect rq _ _ _ _ => rq.blockWf
  | .linkRetrain rq _ => rq.blockWf
  | .linkFence rq _ => rq.blockWf
  | .linkUnfence rq _ => rq.blockWf
  | .linkCfg rq _ _ _ _ => rq.blockWf
  | .histSet rq _ _ _ => rq.blockWf
  | .numSnapshot rq _ _ _ _ _ => rq.blockWf
  | .gateCreate rq _ _ _ _ _ _ _ => rq.blockWf
  | .gateSet rq _ _ _ _ _ _ _ => rq.blockWf
  | .gateDestroy rq _ => rq.blockWf
  | .witnessCfg rq _ _ _ _ => rq.blockWf
  | .driftPair rq _ _ _ _ _ _ => rq.blockWf
  | .outlierRing rq _ _ => rq.blockWf
  | .rplRecord rq _ _ _ _ => rq.blockWf
  | .rplMark rq _ _ _ _ => rq.blockWf
  | .rplReplay rq _ _ _ => rq.blockWf
  | .gravelCfg rq _ _ => rq.blockWf
  | .autumnRun rq _ => rq.blockWf
  | .powerCap rq _ => rq.blockWf
  | .limits rq _ _ _ => rq.blockWf
  | .telemetry rq _ _ => rq.blockWf
  | .health rq _ => rq.blockWf
  | .escalation rq _ _ _ => rq.blockWf
  | .pcieConfigRequest .. | .perstNAssert | .perstNRelease | .hotReset | .startPathChoice .. | .powerGrant
  | .configSpaceReady | .autumnBlockDone .. | .moduleOperational | .shdnReq .. | .resetKeyWrite .. | .registerWrite ..
  | .rcRegisterRead .. | .mbxInDeposit .. | .mailboxTake .. | .mbxOutPost .. | .mbxOutAck .. | .doorbell ..
  | .queueFetch .. | .cqRelease .. | .queueDrainEnd .. | .bar2Read .. | .bar2Write .. | .functionLevelReset ..
  | .pfResetOrVfDisable .. | .busMasterDisable .. | .tdispRequest .. | .launchPublish .. | .modelUnitsFreed ..
  | .commandTimeout .. | .tileFetch .. | .tileIssue .. | .tileComplete .. | .tallyAdd .. | .slotChange ..
  | .bubbleFill .. | .sequencerWatchdog .. | .waitLimitReport .. | .waitTimeout .. | .witnessCheckDone ..
  | .moverTransfer .. | .moverComplete .. | .crcSecondRead .. | .moverWatchdog .. | .routeDescriptor ..
  | .routeComplete .. | .routeWatchdog .. | .optimizerUpdate .. | .gateDecision .. | .gateSnapshot ..
  | .optimizerWatchdog .. | .collectiveDescriptor .. | .chunkArrival .. | .chunkCreditReturn .. | .collectiveComplete ..
  | .collWaitReport .. | .linkTransmit .. | .linkTransmitAcked .. | .linkTxWatchdog .. | .flitReceive .. | .msgWrite ..
  | .msgBlock .. | .msgRefuse .. | .msgEpochNotice .. | .msgAbort .. | .epochGraceExpiry .. | .negotiateReceive ..
  | .notReadyReceive .. | .negotiateResend .. | .heartbeatSend .. | .heartbeatReceive .. | .heartbeatTimeout ..
  | .degradeReceive .. | .fencedReceive .. | .laneLock .. | .laneRetire .. | .linkRetrainStart .. | .linkRetrainEnd ..
  | .trainingTimeout .. | .lnkLoopStart .. | .lnkLoopDone .. | .lnkLoopModeWrite .. | .hbmLoopStart .. | .hbmLoopDone ..
  | .patrolScrubRead .. | .hbmRefresh .. | .unscheduledRefresh .. | .holdStart .. | .holdEnd .. | .holdLimitReport ..
  | .replayDeliver .. | .contextTeardown .. | .drainTimerExpiry .. | .partitionFatal .. | .partitionResetDone ..
  | .moduleFatal .. | .icvarWatchdog | .healthDecay | .gravelSliceStart .. | .gravelSliceEnd .. | .gravelSliceAbandon ..
  | .witnessSlice .. | .arbiterPeriod .. | .clockSlewEnd | .emergencyHold | .sensorRead .. | .supplyTrip ..
  | .mgmtCapSet .. | .pldmFirmwareUpdate .. | .pldmSensorRead .. | .mctpControl .. | .getVersion ..
  | .getCapabilities .. | .negotiateAlgorithms .. | .getDigests .. | .getCertificate .. | .challenge ..
  | .getMeasurements .. | .keyExchange .. | .finish .. | .endSession .. | .debugToken .. | .tapBypass | .tapIdcode
  | .tapSamplePreload .. | .tapExtest | .optimizerComplete .. | .scrubComplete .. | .stackTrainingDone ..
  | .powerApplied | .powerRemoved | .pcieLinkTrained .. | .ideKmRequest .. => true

/-- The operands that are the command's own. -/
def Instr.operandsWf : Instr → Bool
  | .pcieConfigRequest _ access => access.wf
  | .registerWrite _ off width _ _ => accessWf off width
  | .rcRegisterRead _ off width coincident => accessWf off width && coincident.all (fun p => decide (p.1 < 64))
  | .mailboxTake _ _ host _ _ _ => hostWf host
  | .doorbell _ off data => decide (off + data.length ≤ 2 ^ 28) && data.length != 0
  | .queueFetch _ host _ _ => hostWf host
  | .bar2Read _ _ len _ => len != 0 && decide (len ≤ 4096)
  | .bar2Write _ _ data _ => data.length != 0 && decide (data.length ≤ 4096)
  | .tileIssue _ _ feederCorrected upset => decide (feederCorrected < 2 ^ 32) && upset.wrong.all CellError.wf
  | .waitLimitReport _ index => decide (index < 2 ^ 32)
  | .waitTimeout site => site.wf
  | .witnessCheckDone _ result _ => result.first.all CellError.wf && result.second.all CellError.wf
  | .linkTransmit _ _ _ buffers => buffers.retry.all (fun i => decide (i < 256))
  | .flitReceive _ _ _ flit => decide (flit.bytes.length = 640) && flit.bad.all (fun i => decide (i < 616))
  | .msgWrite _ header data bad => messageWf header data bad
  | .msgBlock _ header data bad => messageWf header data bad
  | .msgRefuse _ header => messageWf header [] []
  | .msgEpochNotice _ header => messageWf header [] []
  | .msgAbort _ header => messageWf header [] []
  | .laneLock _ _ _ latencyNs => decide (latencyNs < 2 ^ 16)
  | .linkRetrainEnd _ _ latencyNs => decide (latencyNs < 2 ^ 16)
  | .lnkLoopDone _ errors0 errors1 _ _ => decide (errors0 < 2 ^ 32) && decide (errors1 < 2 ^ 32)
  | .hbmLoopDone _ errors lanesFailed => decide (errors < 2 ^ 32) && decide (lanesFailed < 2 ^ 16)
  | .arbiterPeriod meas => meas.wf
  | .sensorRead dies temps => decide (dies.length = 80) && decide (temps.length = 24)
  | .supplyTrip _ mV _ => decide (mV < 2 ^ 16)
  | .mgmtCapSet watts => decide (watts < 2 ^ 16)
  | .pldmFirmwareUpdate image => decide (image.svn < 2 ^ 32)
  | .mctpControl _ data => decide (data.length ≤ 64)
  | .getCertificate _ slot offset length => decide (slot < 8) && decide (offset < 2 ^ 16) && decide (length < 2 ^ 16)
  | .challenge _ slot nonce => decide (slot < 8) && decide (nonce.length = 32)
  | .getMeasurements _ index _ => decide (index < 256)
  | .keyExchange _ slot _ _ => decide (slot < 8)
  | .tapSamplePreload sampled preload => decide (sampled.length = preload.length)
  | .perstNAssert | .perstNRelease | .hotReset | .startPathChoice .. | .powerGrant | .configSpaceReady
  | .autumnBlockDone .. | .moduleOperational | .shdnReq .. | .resetKeyWrite .. | .mbxInDeposit .. | .mbxOutPost ..
  | .mbxOutAck .. | .cqRelease .. | .queueDrainEnd .. | .functionLevelReset .. | .pfResetOrVfDisable ..
  | .busMasterDisable .. | .tdispRequest .. | .hello .. | .bye .. | .ping .. | .cmdqClose .. | .rplStop ..
  | .rplStatus .. | .cmdqOpen .. | .partCreate .. | .partDestroy .. | .partAssign .. | .partHandover .. | .partSched ..
  | .partCache .. | .slotTable .. | .partInfo .. | .windowSet .. | .fnState .. | .ctxCreate .. | .ctxDestroy ..
  | .ctxSet .. | .ctxQuiesce .. | .ctxSnapshot .. | .queueCreate .. | .queueDestroy .. | .queueEnable ..
  | .queueDisable .. | .queueReset .. | .tallyCreate .. | .tallySet .. | .tallyDestroy .. | .regionCreate ..
  | .regionDestroy .. | .regionFreeze .. | .handleInfo .. | .memFlush .. | .scrubPeriod .. | .stackRate ..
  | .progLoad .. | .progUnload .. | .launch .. | .launchPublish .. | .tensorReg .. | .tensorUnreg .. | .tensorVersion ..
  | .tensorScale .. | .tensorUnpoison .. | .tensorStamp .. | .modelDefine .. | .modelLoad .. | .modelEvict ..
  | .modelUnitsFreed .. | .modelDestroy .. | .groupBind .. | .epochInstall .. | .commCreate .. | .commDestroy ..
  | .linkExpect .. | .linkRetrain .. | .linkFence .. | .linkUnfence .. | .linkCfg .. | .histSet .. | .numSnapshot ..
  | .gateCreate .. | .gateSet .. | .gateDestroy .. | .witnessCfg .. | .driftPair .. | .outlierRing .. | .rplRecord ..
  | .rplMark .. | .rplReplay .. | .gravelCfg .. | .autumnRun .. | .powerCap .. | .limits .. | .telemetry .. | .health ..
  | .escalation .. | .commandTimeout .. | .tileFetch .. | .tileComplete .. | .tallyAdd .. | .slotChange ..
  | .bubbleFill .. | .sequencerWatchdog .. | .moverTransfer .. | .moverComplete .. | .crcSecondRead ..
  | .moverWatchdog .. | .routeDescriptor .. | .routeComplete .. | .routeWatchdog .. | .optimizerUpdate ..
  | .gateDecision .. | .gateSnapshot .. | .optimizerWatchdog .. | .collectiveDescriptor .. | .chunkArrival ..
  | .chunkCreditReturn .. | .collectiveComplete .. | .collWaitReport .. | .linkTransmitAcked .. | .linkTxWatchdog ..
  | .epochGraceExpiry .. | .negotiateReceive .. | .notReadyReceive .. | .negotiateResend .. | .heartbeatSend ..
  | .heartbeatReceive .. | .heartbeatTimeout .. | .degradeReceive .. | .fencedReceive .. | .laneRetire ..
  | .linkRetrainStart .. | .trainingTimeout .. | .lnkLoopStart .. | .lnkLoopModeWrite .. | .hbmLoopStart ..
  | .patrolScrubRead .. | .hbmRefresh .. | .unscheduledRefresh .. | .holdStart .. | .holdEnd .. | .holdLimitReport ..
  | .replayDeliver .. | .contextTeardown .. | .drainTimerExpiry .. | .partitionFatal .. | .partitionResetDone ..
  | .moduleFatal .. | .icvarWatchdog | .healthDecay | .gravelSliceStart .. | .gravelSliceEnd .. | .gravelSliceAbandon ..
  | .witnessSlice .. | .clockSlewEnd | .emergencyHold | .pldmSensorRead .. | .getVersion .. | .getCapabilities ..
  | .negotiateAlgorithms .. | .getDigests .. | .finish .. | .endSession .. | .debugToken .. | .tapBypass | .tapIdcode
  | .tapExtest | .optimizerComplete .. | .scrubComplete .. | .stackTrainingDone .. | .powerApplied | .powerRemoved
  | .pcieLinkTrained .. | .ideKmRequest .. => true

/-- A command that can be written. -/
def Instr.wf (i : Instr) : Bool := hitsWf i.hits && i.carrierWf && i.operandsWf

end Sys2Proof
end

