-- ==== Sys2Proof/Laws/PerInstr.lean ====
section
/-! SUPPORT. Well-formedness by command: of every command that can be written, the words it finds in error are named by their first
bytes, and no word twice. One lemma to a constructor. -/

namespace Sys2Proof.Laws.Encoded

/-- A well-formed command names aligned words, each once. -/
def Statement (i : Instr) : Prop := i.wf = true → (∀ h ∈ i.hits, h.word % 16 = 0) ∧ (i.hits.map (·.word)).Nodup

/-- The statement holds of every command, from the one check that all share. -/
theorem of_wf (i : Instr) : Statement i := by
  intro h
  simp only [Instr.wf, hitsWf, Bool.and_eq_true, decide_eq_true_eq, List.all_eq_true, Hit.wf] at h
  exact ⟨h.1.1.1, h.1.1.2⟩

theorem pcieConfigRequest (fn : Fn) (access : CfgAccess) :
    Statement (.pcieConfigRequest fn access) := of_wf _
theorem perstNAssert :
    Statement (.perstNAssert) := of_wf _
theorem perstNRelease :
    Statement (.perstNRelease) := of_wf _
theorem hotReset :
    Statement (.hotReset) := of_wf _
theorem startPathChoice (fullStartN : Bool) :
    Statement (.startPathChoice fullStartN) := of_wf _
theorem powerGrant :
    Statement (.powerGrant) := of_wf _
theorem configSpaceReady :
    Statement (.configSpaceReady) := of_wf _
theorem autumnBlockDone (sec : Sec) (block : Fin 16) (signature : Word32) (again : Word32) (temp : Byte) :
    Statement (.autumnBlockDone sec block signature again temp) := of_wf _
theorem moduleOperational :
    Statement (.moduleOperational) := of_wf _
theorem shdnReq (pldm : Bool) :
    Statement (.shdnReq pldm) := of_wf _
theorem resetKeyWrite (value : Half) :
    Statement (.resetKeyWrite value) := of_wf _
theorem registerWrite (fn : Fn) (off : Nat) (width : Nat) (value : Word) (hwSet : Word) :
    Statement (.registerWrite fn off width value hwSet) := of_wf _
theorem rcRegisterRead (fn : Fn) (off : Nat) (width : Nat) (coincident : List (Nat × Nat)) :
    Statement (.rcRegisterRead fn off width coincident) := of_wf _
theorem mbxInDeposit (fn : Fn) (j : Fin 8) (lanes : Lanes) (value : Word) :
    Statement (.mbxInDeposit fn j lanes value) := of_wf _
theorem mailboxTake (fn : Fn) (j : Fin 8) (host : List Cell) (readError : Bool) (deposit : Option Word) (hits : List Hit) :
    Statement (.mailboxTake fn j host readError deposit hits) := of_wf _
theorem mbxOutPost (fn : Fn) (j : Fin 8) :
    Statement (.mbxOutPost fn j) := of_wf _
theorem mbxOutAck (fn : Fn) (j : Fin 8) (lanes : Lanes) (value : Word) :
    Statement (.mbxOutAck fn j lanes value) := of_wf _
theorem doorbell (fn : Fn) (off : Nat) (data : List Byte) :
    Statement (.doorbell fn off data) := of_wf _
theorem queueFetch (q : QueueId) (host : List Cell) (readError : Bool) (hits : List Hit) :
    Statement (.queueFetch q host readError hits) := of_wf _
theorem cqRelease (fn : Fn) (slot : Fin 512) (value : Word32) :
    Statement (.cqRelease fn slot value) := of_wf _
theorem queueDrainEnd (q : QueueId) :
    Statement (.queueDrainEnd q) := of_wf _
theorem bar2Read (fn : Fn) (off : Nat) (len : Nat) (hits : List Hit) :
    Statement (.bar2Read fn off len hits) := of_wf _
theorem bar2Write (fn : Fn) (off : Nat) (data : List Byte) (hits : List Hit) :
    Statement (.bar2Write fn off data hits) := of_wf _
theorem functionLevelReset (fn : Fn) :
    Statement (.functionLevelReset fn) := of_wf _
theorem pfResetOrVfDisable (pfReset : Bool) :
    Statement (.pfResetOrVfDisable pfReset) := of_wf _
theorem busMasterDisable (fn : Fn) :
    Statement (.busMasterDisable fn) := of_wf _
theorem tdispRequest (fn : Fn) (req : TdispReq) :
    Statement (.tdispRequest fn req) := of_wf _
theorem hello (rq : Req) (arg : BitVec 48) :
    Statement (.hello rq arg) := of_wf _
theorem bye (rq : Req) (arg : BitVec 48) :
    Statement (.bye rq arg) := of_wf _
theorem ping (rq : Req) (arg : BitVec 48) :
    Statement (.ping rq arg) := of_wf _
theorem cmdqClose (rq : Req) (arg : BitVec 48) :
    Statement (.cmdqClose rq arg) := of_wf _
theorem rplStop (rq : Req) (arg : BitVec 48) :
    Statement (.rplStop rq arg) := of_wf _
theorem rplStatus (rq : Req) (arg : BitVec 48) :
    Statement (.rplStatus rq arg) := of_wf _
theorem cmdqOpen (rq : Req) (ring : Word) (n : Word) (cq : Word) (m : Word) (vector : Word) :
    Statement (.cmdqOpen rq ring n cq m vector) := of_wf _
theorem partCreate (rq : Req) (mask : Word) (tenancy : Word) (schedule : Word) (units : Word) :
    Statement (.partCreate rq mask tenancy schedule units) := of_wf _
theorem partDestroy (rq : Req) (part : Word) :
    Statement (.partDestroy rq part) := of_wf _
theorem partAssign (rq : Req) (fn : Word) (part : Word) :
    Statement (.partAssign rq fn part) := of_wf _
theorem partHandover (rq : Req) (part : Word) :
    Statement (.partHandover rq part) := of_wf _
theorem partSched (rq : Req) (schedule : Word) :
    Statement (.partSched rq schedule) := of_wf _
theorem partCache (rq : Req) (units : Word) :
    Statement (.partCache rq units) := of_wf _
theorem slotTable (rq : Req) (addr : Word) (len : Word) :
    Statement (.slotTable rq addr len) := of_wf _
theorem partInfo (rq : Req) (part : Word) (addr : Word) :
    Statement (.partInfo rq part addr) := of_wf _
theorem windowSet (rq : Req) (fn : Word) (quarter : Word) (base : Word) :
    Statement (.windowSet rq fn quarter base) := of_wf _
theorem fnState (rq : Req) (fn : Word) (enable : Word) :
    Statement (.fnState rq fn enable) := of_wf _
theorem ctxCreate (rq : Req) (cls : Word) (fill : Word) (owner : Word) :
    Statement (.ctxCreate rq cls fill owner) := of_wf _
theorem ctxDestroy (rq : Req) (ctx : Word) :
    Statement (.ctxDestroy rq ctx) := of_wf _
theorem ctxSet (rq : Req) (ctx : Word) (cls : Word) (fill : Word) :
    Statement (.ctxSet rq ctx cls fill) := of_wf _
theorem ctxQuiesce (rq : Req) (ctx : Word) :
    Statement (.ctxQuiesce rq ctx) := of_wf _
theorem ctxSnapshot (rq : Req) (ctx : Word) (list : Word) (count : Word) (dest : Word) (hits : List Hit) :
    Statement (.ctxSnapshot rq ctx list count dest hits) := of_wf _
theorem queueCreate (rq : Req) (kindUnit : Word) (ring : Word) (n : Word) (cq : Word) (m : Word) (vector : Word) (boundFn : Word) (ctx : Word) :
    Statement (.queueCreate rq kindUnit ring n cq m vector boundFn ctx) := of_wf _
theorem queueDestroy (rq : Req) (queue : Word) :
    Statement (.queueDestroy rq queue) := of_wf _
theorem queueEnable (rq : Req) (queue : Word) :
    Statement (.queueEnable rq queue) := of_wf _
theorem queueDisable (rq : Req) (queue : Word) :
    Statement (.queueDisable rq queue) := of_wf _
theorem queueReset (rq : Req) (queue : Word) :
    Statement (.queueReset rq queue) := of_wf _
theorem tallyCreate (rq : Req) (ctx : Word) (cls : Word) (sec : Word) (count : Word) :
    Statement (.tallyCreate rq ctx cls sec count) := of_wf _
theorem tallySet (rq : Req) (tally : Word) (count : Word) :
    Statement (.tallySet rq tally count) := of_wf _
theorem tallyDestroy (rq : Req) (tally : Word) :
    Statement (.tallyDestroy rq tally) := of_wf _
theorem regionCreate (rq : Req) (ctx : Word) (addr : Word) (len : Word) (perm : Word) :
    Statement (.regionCreate rq ctx addr len perm) := of_wf _
theorem regionDestroy (rq : Req) (region : Word) :
    Statement (.regionDestroy rq region) := of_wf _
theorem regionFreeze (rq : Req) (region : Word) (freeze : Word) :
    Statement (.regionFreeze rq region freeze) := of_wf _
theorem handleInfo (rq : Req) (handle : Word) (addr : Word) :
    Statement (.handleInfo rq handle addr) := of_wf _
theorem memFlush (rq : Req) :
    Statement (.memFlush rq) := of_wf _
theorem scrubPeriod (rq : Req) (mask : Word) (loam : Word) (hbm : Word) :
    Statement (.scrubPeriod rq mask loam hbm) := of_wf _
theorem stackRate (rq : Req) (allow : Word) :
    Statement (.stackRate rq allow) := of_wf _
theorem progLoad (rq : Req) (ctx : Word) (core : Word) (slot : Word) (addr : Word) (count : Word) :
    Statement (.progLoad rq ctx core slot addr count) := of_wf _
theorem progUnload (rq : Req) (core : Word) (slot : Word) :
    Statement (.progUnload rq core slot) := of_wf _
theorem launch (rq : Req) (ctx : Word) (list : Word) (count : Word) :
    Statement (.launch rq ctx list count) := of_wf _
theorem launchPublish (ctx : CtxId) :
    Statement (.launchPublish ctx) := of_wf _
theorem tensorReg (rq : Req) (ctx : Word) (addr : Word) :
    Statement (.tensorReg rq ctx addr) := of_wf _
theorem tensorUnreg (rq : Req) (tensor : Word) :
    Statement (.tensorUnreg rq tensor) := of_wf _
theorem tensorVersion (rq : Req) (tensor : Word) (version : Word) :
    Statement (.tensorVersion rq tensor version) := of_wf _
theorem tensorScale (rq : Req) (tensor : Word) (scale : Word) :
    Statement (.tensorScale rq tensor scale) := of_wf _
theorem tensorUnpoison (rq : Req) (tensor : Word) :
    Statement (.tensorUnpoison rq tensor) := of_wf _
theorem tensorStamp (rq : Req) (tensor : Word) (stamp : Word) :
    Statement (.tensorStamp rq tensor stamp) := of_wf _
theorem modelDefine (rq : Req) (list : Word) (count : Word) (priority : Word) :
    Statement (.modelDefine rq list count priority) := of_wf _
theorem modelLoad (rq : Req) (model : Word) (hits : List Hit) :
    Statement (.modelLoad rq model hits) := of_wf _
theorem modelEvict (rq : Req) (model : Word) :
    Statement (.modelEvict rq model) := of_wf _
theorem modelUnitsFreed (model : Fin 1024) :
    Statement (.modelUnitsFreed model) := of_wf _
theorem modelDestroy (rq : Req) (model : Word) :
    Statement (.modelDestroy rq model) := of_wf _
theorem groupBind (rq : Req) (ctx : Word) (group : Word) (epoch : Word) :
    Statement (.groupBind rq ctx group epoch) := of_wf _
theorem epochInstall (rq : Req) (group : Word) (epoch : Word) (mask : Word) (isMember : Word) :
    Statement (.epochInstall rq group epoch mask isMember) := of_wf _
theorem commCreate (rq : Req) (ctx : Word) (sec : Word) (addr : Word) :
    Statement (.commCreate rq ctx sec addr) := of_wf _
theorem commDestroy (rq : Req) (sec : Word) (comm : Word) :
    Statement (.commDestroy rq sec comm) := of_wf _
theorem linkExpect (rq : Req) (link : Word) (moduleId : Word) (partner : Word) (check : Word) :
    Statement (.linkExpect rq link moduleId partner check) := of_wf _
theorem linkRetrain (rq : Req) (link : Word) :
    Statement (.linkRetrain rq link) := of_wf _
theorem linkFence (rq : Req) (link : Word) :
    Statement (.linkFence rq link) := of_wf _
theorem linkUnfence (rq : Req) (link : Word) :
    Statement (.linkUnfence rq link) := of_wf _
theorem linkCfg (rq : Req) (mask : Word) (fenceLimit : Word) (grace : Word) (rateCap : Word) :
    Statement (.linkCfg rq mask fenceLimit grace rateCap) := of_wf _
theorem histSet (rq : Req) (tensor : Word) (base : Word) (width : Word) :
    Statement (.histSet rq tensor base width) := of_wf _
theorem numSnapshot (rq : Req) (kind : Word) (list : Word) (count : Word) (dest : Word) (clear : Word) :
    Statement (.numSnapshot rq kind list count dest clear) := of_wf _
theorem gateCreate (rq : Req) (ctx : Word) (row : Word) (scale : Word) (down : Word) (up : Word) (interval : Word) (nfAddr : Word) :
    Statement (.gateCreate rq ctx row scale down up interval nfAddr) := of_wf _
theorem gateSet (rq : Req) (gate : Word) (row : Word) (scale : Word) (down : Word) (up : Word) (interval : Word) (nfAddr : Word) :
    Statement (.gateSet rq gate row scale down up interval nfAddr) := of_wf _
theorem gateDestroy (rq : Req) (gate : Word) :
    Statement (.gateDestroy rq gate) := of_wf _
theorem witnessCfg (rq : Req) (enable : Word) (k : Word) (wseed : Word) (hold : Word) :
    Statement (.witnessCfg rq enable k wseed hold) := of_wf _
theorem driftPair (rq : Req) (out : Word) (wideA : Word) (wideB : Word) (band : Word) (floor : Word) (remove : Word) :
    Statement (.driftPair rq out wideA wideB band floor remove) := of_wf _
theorem outlierRing (rq : Req) (addr : Word) (len : Word) :
    Statement (.outlierRing rq addr len) := of_wf _
theorem rplRecord (rq : Req) (ctx : Word) (addr : Word) (len : Word) (payload : Word) :
    Statement (.rplRecord rq ctx addr len payload) := of_wf _
theorem rplMark (rq : Req) (ctx : Word) (tally : Word) (tensor : Word) (n : Word) :
    Statement (.rplMark rq ctx tally tensor n) := of_wf _
theorem rplReplay (rq : Req) (ctx : Word) (addr : Word) (len : Word) :
    Statement (.rplReplay rq ctx addr len) := of_wf _
theorem gravelCfg (rq : Req) (period : Word) (corners : Word) :
    Statement (.gravelCfg rq period corners) := of_wf _
theorem autumnRun (rq : Req) (mask : Word) :
    Statement (.autumnRun rq mask) := of_wf _
theorem powerCap (rq : Req) (watts : Word) :
    Statement (.powerCap rq watts) := of_wf _
theorem limits (rq : Req) (coreWait : Word) (collWait : Word) (hold : Word) :
    Statement (.limits rq coreWait collWait hold) := of_wf _
theorem telemetry (rq : Req) (kind : Word) (addr : Word) :
    Statement (.telemetry rq kind addr) := of_wf _
theorem health (rq : Req) (addr : Word) :
    Statement (.health rq addr) := of_wf _
theorem escalation (rq : Req) (partLimit : Word) (ctxLimit : Word) (window : Word) :
    Statement (.escalation rq partLimit ctxLimit window) := of_wf _
theorem commandTimeout (fn : Fn) (via : Via) :
    Statement (.commandTimeout fn via) := of_wf _
theorem tileFetch (core : CoreId) (hits : List Hit) :
    Statement (.tileFetch core hits) := of_wf _
theorem tileIssue (core : CoreId) (hits : List Hit) (feederCorrected : Nat) (upset : TileUpset) :
    Statement (.tileIssue core hits feederCorrected upset) := of_wf _
theorem tileComplete (core : CoreId) (unit : Fin 7) :
    Statement (.tileComplete core unit) := of_wf _
theorem tallyAdd (tally : TallyId) (amount : Half) (tag : Half) :
    Statement (.tallyAdd tally amount tag) := of_wf _
theorem slotChange (core : CoreId) :
    Statement (.slotChange core) := of_wf _
theorem bubbleFill (core : CoreId) :
    Statement (.bubbleFill core) := of_wf _
theorem sequencerWatchdog (core : CoreId) (unit : Fin 7) :
    Statement (.sequencerWatchdog core unit) := of_wf _
theorem waitLimitReport (core : CoreId) (index : Nat) :
    Statement (.waitLimitReport core index) := of_wf _
theorem waitTimeout (site : WaitSite) :
    Statement (.waitTimeout site) := of_wf _
theorem witnessCheckDone (sec : Sec) (result : WitnessResult) (cond : Cond) :
    Statement (.witnessCheckDone sec result cond) := of_wf _
theorem moverTransfer (m : MoverId) (hits : List Hit) (pathError : Bool) :
    Statement (.moverTransfer m hits pathError) := of_wf _
theorem moverComplete (m : MoverId) :
    Statement (.moverComplete m) := of_wf _
theorem crcSecondRead (site : CrcSite) (pathError : Bool) :
    Statement (.crcSecondRead site pathError) := of_wf _
theorem moverWatchdog (m : MoverId) :
    Statement (.moverWatchdog m) := of_wf _
theorem routeDescriptor (sec : Sec) (hits : List Hit) :
    Statement (.routeDescriptor sec hits) := of_wf _
theorem routeComplete (sec : Sec) :
    Statement (.routeComplete sec) := of_wf _
theorem routeWatchdog (sec : Sec) :
    Statement (.routeWatchdog sec) := of_wf _
theorem optimizerUpdate (sec : Sec) (hits : List Hit) :
    Statement (.optimizerUpdate sec hits) := of_wf _
theorem gateDecision (sec : Sec) :
    Statement (.gateDecision sec) := of_wf _
theorem gateSnapshot (sec : Sec) :
    Statement (.gateSnapshot sec) := of_wf _
theorem optimizerWatchdog (sec : Sec) :
    Statement (.optimizerWatchdog sec) := of_wf _
theorem collectiveDescriptor (sec : Sec) (hits : List Hit) :
    Statement (.collectiveDescriptor sec hits) := of_wf _
theorem chunkArrival (sec : Sec) (comm : Fin 64) (tree : Fin 8) (peer : Peer) (headerHits : List Hit) (dataHits : List Hit) :
    Statement (.chunkArrival sec comm tree peer headerHits dataHits) := of_wf _
theorem chunkCreditReturn (sec : Sec) (comm : Fin 64) (tree : Fin 8) (peer : Peer) :
    Statement (.chunkCreditReturn sec comm tree peer) := of_wf _
theorem collectiveComplete (sec : Sec) :
    Statement (.collectiveComplete sec) := of_wf _
theorem collWaitReport (sec : Sec) :
    Statement (.collWaitReport sec) := of_wf _
theorem linkTransmit (l : LinkId) (hits : List Hit) (pathError : Bool) (buffers : BufferErrors) :
    Statement (.linkTransmit l hits pathError buffers) := of_wf _
theorem linkTransmitAcked (l : LinkId) :
    Statement (.linkTransmitAcked l) := of_wf _
theorem linkTxWatchdog (l : LinkId) :
    Statement (.linkTxWatchdog l) := of_wf _
theorem flitReceive (l : LinkId) (decoded : Bool) (corrected : Bool) (flit : RxFlit) :
    Statement (.flitReceive l decoded corrected flit) := of_wf _
theorem msgWrite (l : LinkId) (header : List Byte) (data : List Byte) (bad : List Nat) :
    Statement (.msgWrite l header data bad) := of_wf _
theorem msgBlock (l : LinkId) (header : List Byte) (data : List Byte) (bad : List Nat) :
    Statement (.msgBlock l header data bad) := of_wf _
theorem msgRefuse (l : LinkId) (header : List Byte) :
    Statement (.msgRefuse l header) := of_wf _
theorem msgEpochNotice (l : LinkId) (header : List Byte) :
    Statement (.msgEpochNotice l header) := of_wf _
theorem msgAbort (l : LinkId) (header : List Byte) :
    Statement (.msgAbort l header) := of_wf _
theorem epochGraceExpiry (site : GraceSite) :
    Statement (.epochGraceExpiry site) := of_wf _
theorem negotiateReceive (l : LinkId) (rec : LinkRecord) :
    Statement (.negotiateReceive l rec) := of_wf _
theorem notReadyReceive (l : LinkId) (rec : LinkRecord) :
    Statement (.notReadyReceive l rec) := of_wf _
theorem negotiateResend (l : LinkId) :
    Statement (.negotiateResend l) := of_wf _
theorem heartbeatSend (l : LinkId) :
    Statement (.heartbeatSend l) := of_wf _
theorem heartbeatReceive (l : LinkId) (rec : LinkRecord) :
    Statement (.heartbeatReceive l rec) := of_wf _
theorem heartbeatTimeout (l : LinkId) :
    Statement (.heartbeatTimeout l) := of_wf _
theorem degradeReceive (l : LinkId) (rec : LinkRecord) :
    Statement (.degradeReceive l rec) := of_wf _
theorem fencedReceive (l : LinkId) (rec : LinkRecord) :
    Statement (.fencedReceive l rec) := of_wf _
theorem laneLock (l : LinkId) (lane : Fin 2) (rate : Fin 3) (latencyNs : Nat) :
    Statement (.laneLock l lane rate latencyNs) := of_wf _
theorem laneRetire (l : LinkId) (lane : Fin 2) :
    Statement (.laneRetire l lane) := of_wf _
theorem linkRetrainStart (l : LinkId) :
    Statement (.linkRetrainStart l) := of_wf _
theorem linkRetrainEnd (l : LinkId) (ok : Bool) (latencyNs : Nat) :
    Statement (.linkRetrainEnd l ok latencyNs) := of_wf _
theorem trainingTimeout (l : LinkId) :
    Statement (.trainingTimeout l) := of_wf _
theorem lnkLoopStart (l : LinkId) (value : Word) :
    Statement (.lnkLoopStart l value) := of_wf _
theorem lnkLoopDone (l : LinkId) (errors0 : Nat) (errors1 : Nat) (locked0 : Bool) (locked1 : Bool) :
    Statement (.lnkLoopDone l errors0 errors1 locked0 locked1) := of_wf _
theorem lnkLoopModeWrite (l : LinkId) (value : Word) :
    Statement (.lnkLoopModeWrite l value) := of_wf _
theorem hbmLoopStart (g : StackId) (value : Word) :
    Statement (.hbmLoopStart g value) := of_wf _
theorem hbmLoopDone (g : StackId) (errors : Nat) (lanesFailed : Nat) :
    Statement (.hbmLoopDone g errors lanesFailed) := of_wf _
theorem patrolScrubRead (sec : Sec) (hbm : Option (Fin 3)) (outcome : Option ReadOutcome) :
    Statement (.patrolScrubRead sec hbm outcome) := of_wf _
theorem hbmRefresh (g : StackId) :
    Statement (.hbmRefresh g) := of_wf _
theorem unscheduledRefresh (g : StackId) :
    Statement (.unscheduledRefresh g) := of_wf _
theorem holdStart (p : PartId) :
    Statement (.holdStart p) := of_wf _
theorem holdEnd (p : PartId) :
    Statement (.holdEnd p) := of_wf _
theorem holdLimitReport (p : PartId) (cause : Fin 7) :
    Statement (.holdLimitReport p cause) := of_wf _
theorem replayDeliver (ctx : CtxId) :
    Statement (.replayDeliver ctx) := of_wf _
theorem contextTeardown (ctx : CtxId) :
    Statement (.contextTeardown ctx) := of_wf _
theorem drainTimerExpiry (ctx : CtxId) :
    Statement (.drainTimerExpiry ctx) := of_wf _
theorem partitionFatal (sec : Sec) (cause : PartFatal) :
    Statement (.partitionFatal sec cause) := of_wf _
theorem partitionResetDone (p : PartId) :
    Statement (.partitionResetDone p) := of_wf _
theorem moduleFatal (cause : ModFatal) :
    Statement (.moduleFatal cause) := of_wf _
theorem icvarWatchdog :
    Statement (.icvarWatchdog) := of_wf _
theorem healthDecay :
    Statement (.healthDecay) := of_wf _
theorem gravelSliceStart (sec : Sec) (load100us : Half) (load1s : Half) :
    Statement (.gravelSliceStart sec load100us load1s) := of_wf _
theorem gravelSliceEnd (sec : Sec) (signature : Word32) (again : Word32) (cond : Cond) :
    Statement (.gravelSliceEnd sec signature again cond) := of_wf _
theorem gravelSliceAbandon (sec : Sec) :
    Statement (.gravelSliceAbandon sec) := of_wf _
theorem witnessSlice (sec : Sec) (signature : Word32) (again : Word32) :
    Statement (.witnessSlice sec signature again) := of_wf _
theorem arbiterPeriod (meas : PowerMeas) :
    Statement (.arbiterPeriod meas) := of_wf _
theorem clockSlewEnd :
    Statement (.clockSlewEnd) := of_wf _
theorem emergencyHold :
    Statement (.emergencyHold) := of_wf _
theorem sensorRead (dies : List Half) (temps : List Byte) :
    Statement (.sensorRead dies temps) := of_wf _
theorem supplyTrip (kind : SupplyTripKind) (mV : Nat) (recorded : Bool) :
    Statement (.supplyTrip kind mV recorded) := of_wf _
theorem mgmtCapSet (watts : Nat) :
    Statement (.mgmtCapSet watts) := of_wf _
theorem pldmFirmwareUpdate (image : FwImage) :
    Statement (.pldmFirmwareUpdate image) := of_wf _
theorem pldmSensorRead (item : PldmItem) :
    Statement (.pldmSensorRead item) := of_wf _
theorem mctpControl (command : Byte) (data : List Byte) :
    Statement (.mctpControl command data) := of_wf _
theorem getVersion (chan : SpdmChan) :
    Statement (.getVersion chan) := of_wf _
theorem getCapabilities (chan : SpdmChan) (version : Byte) :
    Statement (.getCapabilities chan version) := of_wf _
theorem negotiateAlgorithms (chan : SpdmChan) (extAsym : List Half) (extHash : List Half) :
    Statement (.negotiateAlgorithms chan extAsym extHash) := of_wf _
theorem getDigests (chan : SpdmChan) :
    Statement (.getDigests chan) := of_wf _
theorem getCertificate (chan : SpdmChan) (slot : Nat) (offset : Nat) (length : Nat) :
    Statement (.getCertificate chan slot offset length) := of_wf _
theorem challenge (chan : SpdmChan) (slot : Nat) (nonce : List Byte) :
    Statement (.challenge chan slot nonce) := of_wf _
theorem getMeasurements (chan : SpdmChan) (index : Nat) (raw : Bool) :
    Statement (.getMeasurements chan index raw) := of_wf _
theorem keyExchange (chan : SpdmChan) (slot : Nat) (sessionId : Half) (exchange : List Byte) :
    Statement (.keyExchange chan slot sessionId exchange) := of_wf _
theorem finish (chan : SpdmChan) (verified : Bool) :
    Statement (.finish chan verified) := of_wf _
theorem endSession (chan : SpdmChan) :
    Statement (.endSession chan) := of_wf _
theorem debugToken (version : Byte) (level : Byte) (moduleId : BitVec 48) (nonce : BitVec 256) (signatureOk : Bool) :
    Statement (.debugToken version level moduleId nonce signatureOk) := of_wf _
theorem tapBypass :
    Statement (.tapBypass) := of_wf _
theorem tapIdcode :
    Statement (.tapIdcode) := of_wf _
theorem tapSamplePreload (sampled : List Bool) (preload : List Bool) :
    Statement (.tapSamplePreload sampled preload) := of_wf _
theorem tapExtest :
    Statement (.tapExtest) := of_wf _
theorem optimizerComplete (sec : Sec) :
    Statement (.optimizerComplete sec) := of_wf _
theorem scrubComplete (p : PartId) :
    Statement (.scrubComplete p) := of_wf _
theorem stackTrainingDone (g : StackId) (identity : Word32) (temp : Byte) (readBackOk : Bool) :
    Statement (.stackTrainingDone g identity temp readBackOk) := of_wf _
theorem powerApplied :
    Statement (.powerApplied) := of_wf _
theorem powerRemoved :
    Statement (.powerRemoved) := of_wf _
theorem pcieLinkTrained (speed : Fin 7) (width : Fin 5) (flit : Bool) :
    Statement (.pcieLinkTrained speed width flit) := of_wf _
theorem ideKmRequest (fn : Fn) (req : IdeReq) :
    Statement (.ideKmRequest fn req) := of_wf _

end Sys2Proof.Laws.Encoded
end

