-- ==== Sys2Proof/Tests/Slice0.lean ====
section
/-! SUPPORT. Tests: for every statement of Obligations.lean that has hypotheses, a state and operands that meet them; the ill-formed
terms that WellFormed refuses; and results that the spec works out. -/

namespace Sys2Proof.Tests

open Sys2Proof Sys2Proof.Machine

set_option Elab.async false

/-! ### States -/

/-- A state whose listed stacks are trained. -/
def withStacks (l : List Nat) (s : State) : State := l.foldl (fun t g => t.setFld fHbmStatusTrained (g / 3) (g % 3) 1) s

/-- An operational module: function 0 has a session, is in partition 0 and masters the bus; partition 0 holds section 0; context 1 of
function 0 is active, with the regions 0 (HBM) and 1 (Loam) of the section. -/
def ready : State :=
  withStacks [0, 1, 2] (({
     module := { perstAsserted := false, released := true, fwVerified := true, pathChosen := true, cfgReady := true, icvarTakes := true,
                 grants := 25, timeNs := 6000000000, rootCycles := 12000000000 },
     host := { fns := [(0, { mode := .enabled, part := some 0, busMaster := true, session := some ⟨0x10, 0x10, 0x10, 1⟩, sessionGen := 1 })] },
     objs := { parts := [(0, { present := true, mask := 1, descVer := 0x10, fmtVer := 0x10 })],
               ctxs := [(1, { mode := .active, gen := 1 })],
               regions := [(0, { present := true, gen := 1, ctx := 1, base := 0, length := 0x100000000, read := true, write := true }),
                           (1, { present := true, gen := 1, ctx := 1, base := 0x100000000000, length := 0x10000000,
                                 read := true, write := true })] } } : State).setFld fFltStatusModuleState 0 0 1)

/-- A carrier: function 0's inbound mailbox 0 in short form, with a token or without. -/
def carrier : Req := ⟨0, .mbx 0 0 none, 0, []⟩

/-- The handle of context 1, and one of an object of partition 0 in its first generation. -/
def ctxHandle : Word := 0x0100000001000001
def handle (kind idx : Nat) : Word := mkHandle kind 0 1 idx

/-- A row's command is accepted, by evaluation. -/
theorem accepts {refuse : Cmd → State → Option Nat} {rq : Req} {op : Nat} {args : List Word} {s : State}
    (h : gateRc (cmdOf rq op args) (before rq op args s) = none ∧ tokenHit (before rq op args s) (cmdOf rq op args) = none ∧
      refuse (cmdOf rq op args) (before rq op args s) = none) : Accepted refuse rq op args s := h

/-- An address argument in host memory, and one in the HBM region of `ready`. -/
def hostArg : Word := 0x8000000000010000
def hbmArg : Word := 0x10000

/-- `ready` with more: no session, a command queue, an engine queue of the section's mover 0, a second function, a free section. -/
def noSession : State := ready.setFn 0 { ready.fn 0 with session := none }
def withCmdq : State :=
  (ready.setFn 0 { ready.fn 0 with cmdq := some 2 }).setQueue 2 { present := true, gen := 1, part := 0, cq := some hostArg, mode := .enabled }
def withQueue (mode : QMode) : State :=
  ready.setQueue 3 { present := true, gen := 1, part := 0, kind := 1, ctx := some 1, cq := some hostArg, mode := mode }
def withFn : State := { ready with host := { ready.host with fns := ready.host.fns ++ [(1, { mode := .enabled })] } }
def sealedPart : State := ready.setPart 0 { ready.part 0 with isSealed := true }

/-- `ready` with a tally, with a tensor 5 with checksums and a counter record, with the tensor listed by a model. -/
def withTally : State := ready.setTally 2 { present := true, gen := 1, count := 4, ctx := 1, part := 0 }
def tensorFive : TensorDesc :=
  { id := 5, format := 0x01, checksum := true, counters := true, rank := 1, scale := 0x3F800000, base := 0x1000,
    crcAddr := 0x100000000000 }
def withTensor : State := withTally.setTensor 0 5 { present := true, desc := tensorFive, ctx := 1, counter := some { sec := 0 } }
def withModel (mode : ModelMode) : State := withTensor.setModel 0 { present := true, gen := 1, part := 0, tensors := [5], mode := mode }

/-! ### Witnesses: commands that are accepted -/

theorem witness_hello : Accepted refuseHello carrier 0x01 [0x101010101010] noSession := accepts (by decide +kernel)
theorem witness_bye : Accepted refuseBye carrier 0x02 [0] ready := accepts (by decide +kernel)
theorem witness_ping : Accepted refusePing carrier 0x03 [0xFFFFFFFFFFFF] ready := accepts (by decide +kernel)
theorem witness_cmdqOpen : Accepted refuseCmdqOpen carrier 0x10 [hostArg, 64, hostArg, 64, 2] ready ∧
    (∃ q, q < 8192 ∧ queueFree (before carrier 0x10 [hostArg, 64, hostArg, 64, 2] ready) q = true) ∧
    (∃ j, j < 512 ∧ slotFree (before carrier 0x10 [hostArg, 64, hostArg, 64, 2] ready) 0 j = true) :=
  ⟨accepts (by decide +kernel), ⟨8191, by decide +kernel⟩, ⟨511, by decide +kernel⟩⟩
theorem witness_cmdqClose : Accepted refuseCmdqClose carrier 0x04 [0] withCmdq ∧
    ((before carrier 0x04 [0] withCmdq).fn 0).cmdq = some 2 ∧ ((before carrier 0x04 [0] withCmdq).queue 2).mode = .enabled :=
  ⟨accepts (by decide +kernel), by decide +kernel⟩
theorem witness_cmdqClose_idle :
    let s := withCmdq.setQueue 2 { withCmdq.queue 2 with mode := .error }
    Accepted refuseCmdqClose carrier 0x04 [0] s ∧ ((before carrier 0x04 [0] s).fn 0).cmdq = some 2 ∧
      ((before carrier 0x04 [0] s).queue 2).mode = .error :=
  ⟨accepts (by decide +kernel), by decide +kernel⟩
theorem witness_rplRecord : Accepted refuseRplRecord carrier 0x68 [ctxHandle, 0x100000, 0x100000, 1] ready := accepts (by decide +kernel)
theorem witness_rplMark : Accepted refuseRplMark carrier 0x69 [ctxHandle, handle 3 2, 5, 65535] withTensor := accepts (by decide +kernel)
theorem witness_rplStatus : Accepted refuseRplStatus carrier 0x06 [0x000001000001] ready := accepts (by decide +kernel)
def logOf : Log := ⟨0x10000, 0x10000, 64, 1, true, false⟩
theorem witness_rplStop : let s := ready.setCtx 1 { ready.ctx 1 with log := some logOf }
    Accepted refuseRplStop carrier 0x05 [0x000001000001] s ∧ ((before carrier 0x05 [0x000001000001] s).ctx 1).replay = none :=
  ⟨accepts (by decide +kernel), by decide +kernel⟩
def replaying : State :=
  let s := ready.setCtx 1 { ready.ctx 1 with replay := some logOf }
  { s with host := { s.host with commands := [⟨0, .mbx 7 0 none, 0, 0x6A, .rplReplay 1, 0, false⟩] } }
theorem witness_rplStop_replay : Accepted refuseRplStop carrier 0x05 [0x000001000001] replaying ∧
    ((before carrier 0x05 [0x000001000001] replaying).ctx 1).replay = some logOf ∧
    (before carrier 0x05 [0x000001000001] replaying).host.commands.find? (fun x => x.kind == .rplReplay 1) =
      some ⟨0, .mbx 7 0 none, 0, 0x6A, .rplReplay 1, 0, false⟩ := ⟨accepts (by decide +kernel), by decide +kernel⟩
theorem witness_rplReplay : Accepted refuseRplReplay carrier 0x6A [ctxHandle, 0x100000, 0x100000] ready := accepts (by decide +kernel)
theorem witness_partCreate : Accepted refusePartCreate carrier 0x18 [2, 0, 0, 48] ready := accepts (by decide +kernel)
theorem witness_partAssign : Accepted refusePartAssign carrier 0x1A [1, 0] withFn := accepts (by decide +kernel)
theorem witness_partAssign_none : Accepted refusePartAssign carrier 0x1A [1, 0xFF] withFn := accepts (by decide +kernel)
theorem witness_partSched : Accepted refusePartSched carrier 0x1C [0] ready := accepts (by decide +kernel)
theorem witness_partCache : Accepted refusePartCache carrier 0x1D [48] ready := accepts (by decide +kernel)
theorem witness_partDestroy : Accepted refusePartDestroy carrier 0x19 [0] ready := accepts (by decide +kernel)
theorem witness_partHandover : Accepted refusePartHandover carrier 0x1B [0] sealedPart := accepts (by decide +kernel)
theorem witness_windowSet : Accepted refuseWindowSet carrier 0x33 [1, 3, 0x10000] withFn ∧
    tdiLocked (before carrier 0x33 [1, 3, 0x10000] withFn) 1 = false := ⟨accepts (by decide +kernel), by decide +kernel⟩
theorem witness_fnEnable : Accepted refuseFnState carrier 0x34 [1, 1] withFn := accepts (by decide +kernel)
theorem witness_fnDisable : Accepted refuseFnState carrier 0x34 [1, 0] withFn := accepts (by decide +kernel)
theorem witness_partInfo : Accepted refusePartInfo carrier 0x1F [7, hostArg] ready := accepts (by decide +kernel)
theorem witness_handleInfo : Accepted refuseHandleInfo carrier 0x35 [ctxHandle, hbmArg] ready := accepts (by decide +kernel)
theorem witness_telemetry : Accepted refuseTelemetry carrier 0x74 [2, hostArg] ready := accepts (by decide +kernel)
theorem witness_health : Accepted refuseHealth carrier 0x75 [hbmArg] ready := accepts (by decide +kernel)
theorem witness_ctxCreate : Accepted refuseCtxCreate carrier 0x20 [1, 65535, 0] ready := accepts (by decide +kernel)
theorem witness_ctxSet : Accepted refuseCtxSet carrier 0x22 [ctxHandle, 1, 65535] ready := accepts (by decide +kernel)
theorem witness_ctxDestroy : Accepted refuseCtxDestroy carrier 0x21 [ctxHandle] ready := accepts (by decide +kernel)
theorem witness_ctxQuiesce : Accepted refuseCtxQuiesce carrier 0x23 [ctxHandle] ready := accepts (by decide +kernel)
theorem witness_queueCreate :
    let b := before carrier 0x28 [1, hostArg, 64, hostArg, 64, 63, 0, ctxHandle] ready
    Accepted refuseQueueCreate carrier 0x28 [1, hostArg, 64, hostArg, 64, 63, 0, ctxHandle] ready ∧
      (∃ q, q < 8192 ∧ queueFree b q = true) ∧ ∃ j, j < 512 ∧ slotFree b 0 j = true :=
  ⟨accepts (by decide +kernel), ⟨8191, by decide +kernel⟩, ⟨511, by decide +kernel⟩⟩
theorem witness_queueDestroy : Accepted refuseQueueDestroy carrier 0x29 [handle 2 3] (withQueue .disabled) := accepts (by decide +kernel)
theorem witness_queueEnable : Accepted refuseQueueEnable carrier 0x2A [handle 2 3] (withQueue .disabled) := accepts (by decide +kernel)
theorem witness_queueDisable : Accepted refuseQueueDisable carrier 0x2B [handle 2 3] (withQueue .enabled) := accepts (by decide +kernel)
theorem witness_queueReset : Accepted refuseQueueReset carrier 0x2C [handle 2 3] (withQueue .error) := accepts (by decide +kernel)
theorem witness_tallyCreate : Accepted refuseTallyCreate carrier 0x2D [ctxHandle, 1, 0xFF, 0xFFFFFFFF] ready := accepts (by decide +kernel)
theorem witness_tallySet : Accepted refuseTallySet carrier 0x2E [handle 3 2, 0xFFFFFFFF] withTally := accepts (by decide +kernel)
theorem witness_tallyDestroy : Accepted refuseTallyDestroy carrier 0x2F [handle 3 2] withTally := accepts (by decide +kernel)
theorem witness_regionCreate : Accepted refuseRegionCreate carrier 0x30 [ctxHandle, 0, 0x1000, 3] ready := accepts (by decide +kernel)
theorem witness_regionDestroy : Accepted refuseRegionDestroy carrier 0x31 [handle 4 1] ready := accepts (by decide +kernel)
theorem witness_regionFreeze : Accepted refuseRegionFreeze carrier 0x32 [handle 4 1, 1] ready := accepts (by decide +kernel)
theorem witness_memFlush : Accepted refuseMemFlush carrier 0x38 [] ready := accepts (by decide +kernel)
theorem witness_stackRate : Accepted refuseStackRate carrier 0x3A [0] ready := accepts (by decide +kernel)
theorem witness_tensorUnreg : Accepted refuseTensorUnreg carrier 0x49 [5] (withModel .defined) := accepts (by decide +kernel)
theorem witness_tensorVersion : Accepted refuseTensorVersion carrier 0x4A [5, 0xFFFFFFFF] withTensor := accepts (by decide +kernel)
theorem witness_tensorUnpoison : Accepted refuseTensorUnpoison carrier 0x4C [5] withTensor := accepts (by decide +kernel)
theorem witness_tensorStamp : Accepted refuseTensorStamp carrier 0x4D [5, 0xFFFFFFFF] withTensor := accepts (by decide +kernel)
theorem witness_modelEvict :
    let b := before carrier 0x52 [handle 5 0] (withModel .loaded)
    Accepted refuseModelEvict carrier 0x52 [handle 5 0] (withModel .loaded) ∧ modelInUse b (b.model 0) = false :=
  ⟨accepts (by decide +kernel), by decide +kernel⟩
theorem witness_modelDestroy : Accepted refuseModelDestroy carrier 0x53 [handle 5 0] (withModel .broken) := accepts (by decide +kernel)
theorem witness_groupBind : Accepted refuseGroupBind carrier 0x58 [ctxHandle, 0xFFFFFFFF, 0] ready := accepts (by decide +kernel)
theorem witness_epochInstall : Accepted refuseEpochInstall carrier 0x59 [9, 0xFFFFFFFF, 1, 1] ready := accepts (by decide +kernel)
theorem witness_linkExpect : Accepted refuseLinkExpect carrier 0x5C [63, 0x123456789ABC, 63, 1] ready := accepts (by decide +kernel)
theorem witness_linkRetrain : Accepted refuseLinkAction carrier 0x5D [63, 1] ready := accepts (by decide +kernel)
theorem witness_linkFence : Accepted refuseLinkAction carrier 0x5D [63, 2] ready := accepts (by decide +kernel)
theorem witness_linkCfg : Accepted refuseLinkCfg carrier 0x5E [0xFFFFFFFFFFFFFFFF, 255, 100, 2] ready := accepts (by decide +kernel)
theorem witness_histSet : Accepted refuseHistSet carrier 0x60 [5, 127, 8] withTensor := accepts (by decide +kernel)
theorem witness_witnessCfg : Accepted refuseWitnessCfg carrier 0x65 [1, 16, 0xFFFFFFFFFFFFFFFF, 1] ready := accepts (by decide +kernel)
theorem witness_driftPair : Accepted refuseDriftPair carrier 0x66 [5, 5, 0, 0, 0, 0] withTensor ∧
    ∃ i, i < 256 ∧ ∀ e ∈ ((before carrier 0x66 [5, 5, 0, 0, 0, 0] withTensor).part 0).drift, e.1 ≠ i :=
  ⟨accepts (by decide +kernel), ⟨255, by decide +kernel⟩⟩
theorem witness_outlierRing : Accepted refuseOutlierRing carrier 0x67 [hbmArg, 64] ready := accepts (by decide +kernel)
theorem witness_gravelCfg : Accepted refuseGravelCfg carrier 0x70 [3600, 31] ready := accepts (by decide +kernel)
theorem witness_autumnRun : Accepted refuseAutumnRun carrier 0x71 [0xFE] ready := accepts (by decide +kernel)
theorem witness_powerCap : Accepted refusePowerCap carrier 0x72 [4400] ready := accepts (by decide +kernel)
theorem witness_limits : Accepted refuseLimits carrier 0x73 [0, 10000000, 60000] ready := accepts (by decide +kernel)
theorem witness_escalation : Accepted refuseEscalation carrier 0x76 [16, 1024, 86400] ready := accepts (by decide +kernel)

theorem witness_scrubPeriod : Accepted refuseScrubPeriod carrier 0x39 [0xFF, 86400, 604800] ready := accepts (by decide +kernel)
theorem witness_progUnload : Accepted refuseProgUnload carrier 0x41 [11, 7] (ready.setSlot 11 7 { loaded := true, ctx := 1 }) :=
  accepts (by decide +kernel)

/-- `ready` with a descriptor, a list of tensor 5 or a list of slot 7 of core 11 where `hostArg` points. -/
def atHost (s : State) (b : List Byte) : State := writeHost s 0x10000 b
theorem witness_tensorReg : Accepted refuseTensorReg carrier 0x48 [ctxHandle, hostArg]
    (atHost ready (emitTensor { id := 0xFFFFFFFF, format := 0x00, counters := true, rank := 4, base := 0x1000 })) := accepts (by decide +kernel)
def kaolin : State := withTensor.setTensor 0 6 { present := true, desc := { id := 6, format := 0x40, scale := 0x3F800000 }, ctx := 1 }
theorem witness_tensorScale : Accepted refuseTensorScale carrier 0x4B [6, 0x7F7FFFFF] kaolin := accepts (by decide +kernel)
theorem witness_modelDefine : Accepted refuseModelDefine carrier 0x50 [hostArg, 1, 255] (atHost withTensor [5, 0, 0, 0]) :=
  accepts (by decide +kernel)
def loamModel : State :=
  (withTensor.setTensor 0 8 { present := true, ctx := 1, desc := { id := 8, base := 0x100000000000 } }).setModel 0
    { present := true, gen := 1, part := 0, tensors := [8] }
theorem witness_modelLoad : let s := upsetWords loamModel []
    Accepted refuseModelLoad carrier 0x51 [handle 5 0] s ∧ (loadTensors 0 0 [8] (before carrier 0x51 [handle 5 0] s)).2 = true :=
  ⟨accepts (by decide +kernel), by decide +kernel⟩
theorem witness_modelLoad_fails : let s := upsetWords (withTensor.setModel 0 { present := true, gen := 1, part := 0, tensors := [5] }) [⟨0x1000, .uncorrectable⟩]
    Accepted refuseModelLoad carrier 0x51 [handle 5 0] s ∧ (loadTensors 0 0 [5] (before carrier 0x51 [handle 5 0] s)).2 = false :=
  ⟨accepts (by decide +kernel), by decide +kernel⟩
/-- A route job that names tensor 5 in its first field. -/
def modelUsed : State :=
  let s := withModel .loaded
  { s with work := { s.work with engines := [(2 * 64, { job := some { queue := 3, pos := 0, ctx := 1, bytes := [5, 0, 0, 0] } })] } }
theorem witness_modelEvict_busy :
    let b := before carrier 0x52 [handle 5 0] modelUsed
    Accepted refuseModelEvict carrier 0x52 [handle 5 0] modelUsed ∧ modelInUse b (b.model 0) = true :=
  ⟨accepts (by decide +kernel), by decide +kernel⟩
theorem witness_modelUnitsFreed : ((withModel .evicting).model 0).mode = .evicting ∧
    modelInUse (withModel .evicting) ((withModel .evicting).model 0) = false := by decide +kernel

/-- `ready` with as many regions of one block of HBM as the bound on an empty program's kept state asks for (R189). -/
def roomy : State := { ready with objs := { ready.objs with
  regions := ((List.range (Config.keptStateBound [] [])).map (fun i => (i, { present := true, ctx := 1, length := 4096, read := true }))) } }
theorem foldl_replicate (n a : Nat) : (List.replicate n 4096).foldl (· + ·) a = a + n * 4096 := by
  induction n generalizing a with
  | zero => simp
  | succ n ih => rw [List.replicate_succ, List.foldl_cons, ih]; omega
theorem roomy_fits : keptTooLarge roomy 1 [] = false := by
  have e : ctxRegions roomy 1 = List.replicate (Config.keptStateBound [] []) { present := true, ctx := 1, length := 4096, read := true } := by
    simp [ctxRegions, roomy, List.map_map, Function.comp_def, List.map_const']
  have h : inHbm 0 4096 = true := by decide +kernel
  have f : tensorFacts roomy 1 [] = [] := rfl
  simp only [keptTooLarge, hbmGranted, f, e, List.filter_replicate, h, if_true, List.map_replicate, sumNat, foldl_replicate,
    decide_eq_false_iff_not]
  omega
theorem kept_regions {s t : State} {k : Nat} (h : s.objs.regions = t.objs.regions) : keptTooLarge s k [] = keptTooLarge t k [] := by
  have e : ∀ x, tensorFacts x k [] = [] := fun _ => rfl
  unfold keptTooLarge hbmGranted ctxRegions; rw [h, e, e]
theorem witness_progLoad : Accepted refuseProgLoad carrier 0x40 [ctxHandle, 11, 7, 0x80, 0] roomy := by
  refine ⟨by decide +kernel, by decide +kernel, ?_⟩
  have h : keptTooLarge (before carrier 0x40 [ctxHandle, 11, 7, 0x80, 0] roomy)
    (hIdx ((cmdOf carrier 0x40 [ctxHandle, 11, 7, 0x80, 0]).arg 0)) (readBytes (before carrier 0x40 [ctxHandle, 11, 7, 0x80, 0] roomy)
      ((cmdOf carrier 0x40 [ctxHandle, 11, 7, 0x80, 0]).val 3) (128 * (cmdOf carrier 0x40 [ctxHandle, 11, 7, 0x80, 0]).val 4)) = false :=
    roomy_fits
  simp only [refuseProgLoad, h]
  decide +kernel
/-- `roomy` with an empty program in slot 7 of core 11, and that slot in a list where `hostArg` points. -/
def programmed : State := atHost (roomy.setSlot 11 7 { loaded := true, ctx := 1 }) [11, 7]
theorem witness_launch : Accepted refuseLaunch carrier 0x42 [ctxHandle, hostArg, 1] programmed ∧
    launchPairs (before carrier 0x42 [ctxHandle, hostArg, 1] programmed) hostArg 1 = [(11, 7)] := by
  refine ⟨⟨by decide +kernel, by decide +kernel, ?_⟩, by decide +kernel⟩
  have h : (launchPairs (before carrier 0x42 [ctxHandle, hostArg, 1] programmed)
      ((cmdOf carrier 0x42 [ctxHandle, hostArg, 1]).arg 1) ((cmdOf carrier 0x42 [ctxHandle, hostArg, 1]).val 2)).any
      (fun e => keptTooLarge (before carrier 0x42 [ctxHandle, hostArg, 1] programmed)
        (hIdx ((cmdOf carrier 0x42 [ctxHandle, hostArg, 1]).arg 0)) (programBytes (before carrier 0x42 [ctxHandle, hostArg, 1] programmed)
        ((before carrier 0x42 [ctxHandle, hostArg, 1] programmed).slot e.1 e.2))) = false := by
    have l : launchPairs (before carrier 0x42 [ctxHandle, hostArg, 1] programmed)
      ((cmdOf carrier 0x42 [ctxHandle, hostArg, 1]).arg 1) ((cmdOf carrier 0x42 [ctxHandle, hostArg, 1]).val 2) = [(11, 7)] := by decide +kernel
    have e : programBytes (before carrier 0x42 [ctxHandle, hostArg, 1] programmed)
      ((before carrier 0x42 [ctxHandle, hostArg, 1] programmed).slot 11 7) = [] := by decide +kernel
    rw [l, List.any_cons, List.any_nil, Bool.or_false, e]
    exact (kept_regions (by rfl)).trans roomy_fits
  simp only [refuseLaunch, h]
  decide +kernel
theorem witness_groupUnfence : Accepted refuseLinkAction carrier 0x5D [63, 3]
    (ready.setFld fLnkStatusState 7 7 7) := accepts (by decide +kernel)
/-- `ready` with context 1 in group 9, a row tensor for a gate, a staging region and the tallies of a communicator. -/
def grouped : State :=
  let s := (ready.setCtx 1 { ready.ctx 1 with group := some 9 }).setGroup 9 { present := true, epoch := 3 }
  let s := s.setRegion 2 { present := true, gen := 1, ctx := 1, base := 0x100000000000, length := 0x1000000, read := true, write := true }
  (upTo 18).foldl (fun t i => t.setTally (100 + i) { present := true, gen := 1, ctx := 1 }) s
def commBytes : List Byte :=
  leBytes 4 9 ++ leBytes 2 1 ++ leBytes 2 0 ++ leBytes 2 0 ++ [1, 0] ++ leBytes 2 0 ++ leBytes 2 100 ++ leBytes 4 4096 ++
  leBytes 8 (handle 4 2).toNat ++ leBytes 4 0 ++ [0xFF, 0xFF, 0xFF] ++ List.replicate 37 0
theorem witness_commCreate : Accepted refuseCommCreate carrier 0x5A [ctxHandle, 0, hostArg] (atHost grouped commBytes) := accepts (by decide +kernel)
def withComm : State := grouped.setComm 0 63 { present := true, ctx := 1, group := 9, epoch := 3, tables := [[⟨0xFFFF, 0xFF, [], false⟩]] }
theorem witness_commDestroy : Accepted refuseCommDestroy carrier 0x5B [0, 63] withComm := accepts (by decide +kernel)
def gateTensor : State := ready.setTensor 0 7 { present := true, ctx := 1, desc := { id := 7, dim0 := 65536, base := 0x1000 } }
theorem witness_gateCreate : Accepted refuseGateCreate carrier 0x62 [ctxHandle, 7, 32, 8, 8, 0xFFFFFFFF, 0x100000000000] gateTensor :=
  accepts (by decide +kernel)
def withGate : State := gateTensor.setGate 0 63 { present := true, ctx := 1, rowId := 7, scaleLog := 3, down := 1, up := 1, interval := 2 }
theorem witness_gateSet : Accepted refuseGateSet carrier 0x63 [63, 7, 0xFFFFFFFFFFFFFFF0, 1, 0, 0, 0] withGate := accepts (by decide +kernel)
theorem witness_gateDestroy : Accepted refuseGateDestroy carrier 0x64 [63] withGate := accepts (by decide +kernel)
def withDrift : State := withTensor.setPart 0 { withTensor.part 0 with
  drift := [(5, { outId := 5, wideA := 5, wideB := 0, band := 0, floor := 0, ctx := 1 })] }
theorem witness_driftClear : Accepted refuseDriftPair carrier 0x66 [5, 5, 0, 0, 0, 1] withDrift := accepts (by decide +kernel)
theorem witness_driftReplace : Accepted refuseDriftPair carrier 0x66 [5, 5, 0, 0, 0, 0] withDrift ∧
    (driftIndex (before carrier 0x66 [5, 5, 0, 0, 0, 0] withDrift) 0 5).isSome = true :=
  ⟨accepts (by decide +kernel), by decide +kernel⟩

theorem witness_numSnapshot : Accepted refuseNumSnapshot carrier 0x61 [0, hostArg, 1, hostArg, 1] (atHost withTensor [5, 0, 0, 0, 0, 0, 0, 0]) :=
  accepts (by decide +kernel)
/-- A quiesced context with one tensor of 32 elements, its list where `hostArg` points. -/
def quiesced : State :=
  let s := ready.setCtx 1 { ready.ctx 1 with quiesced := true }
  atHost (s.setTensor 0 5 { present := true, ctx := 1, desc := { id := 5, base := 0x1000, dim0 := 32 } }) [5, 0, 0, 0]
/-- Where a snapshot of `quiesced` stops, given the errors that the command brings. -/
def snapStop (hits : List Hit) : Option Nat :=
  let args := [ctxHandle, hostArg, 1, hbmArg]
  let m := seen snapReads carrier 0x24 args (upsetWords quiesced hits)
  (snapStream (cmdOf carrier 0x24 args) hbmArg (snapBlocks (snapPlan (snapTensors (cmdOf carrier 0x24 args) m))) (snapBegin (cmdOf carrier 0x24 args) m)).2
theorem witness_ctxSnapshot : Accepted refuseCtxSnapshot carrier 0x24 [ctxHandle, hostArg, 1, hbmArg] (upsetWords quiesced []) ∧
    snapStop [] = none := ⟨accepts (by decide +kernel), by decide +kernel⟩
theorem witness_ctxSnapshot_stops : let hits := [⟨0x1010, .uncorrectable⟩]
    Accepted refuseCtxSnapshot carrier 0x24 [ctxHandle, hostArg, 1, hbmArg] (upsetWords quiesced hits) ∧ snapStop hits = some 192 :=
  ⟨accepts (by decide +kernel), by decide +kernel⟩

/-- The bytes of a slot table of no section: version 1.0 and a period of one frame. The grants that a section's stacks need are opaque
(Config.refreshNeed), so this table is for a partition of no section. -/
def tableBytes : List Byte := [0x10, 0, 0, 0, 1] ++ List.replicate 59 0
def emptyPart : State := atHost (ready.setPart 0 { ready.part 0 with mask := 0 }) tableBytes
theorem witness_slotTable : Accepted refuseSlotTable carrier 0x1E [hostArg, 64] emptyPart := accepts (by decide +kernel)

/-! ### Witnesses: commands that end later, resets, the start -/

def launchOf : Launch :=
  { ctx := 1, fn := 0, via := .mbx 7 0 none, taken := 0, slots := [(11, 7)], heldBefore := 0, lastDone := 0, poisoned := false, stopped := false }
theorem witness_launchPublish : ({ ready with host := { ready.host with launches := [launchOf] } } : State).host.launches.find?
    (fun x => x.ctx == 1 && launchDone { ready with host := { ready.host with launches := [launchOf] } } x) = some launchOf := by decide +kernel
def pendOf : PendCmd := ⟨0, .mbx 7 0 none, 0, 0x23, .ctxQuiesce 1, 0, false⟩
theorem witness_commandTimeout : ([pendOf] : List PendCmd).find? (fun x => x.fn == 0 && x.via == .mbx 7 0 none) = some pendOf := by
  decide +kernel
theorem witness_perstAssert : ready.module.powered = true ∧ ready.module.perstAsserted = false ∧ ready.module.shutDownDone = false ∧
    ready.module.off = false := by decide +kernel
theorem witness_perstRelease : State.reset.module.powered = true ∧ State.reset.module.perstAsserted = true ∧
    State.reset.module.off = false ∧ State.reset.module.shutDownDone = false := by decide +kernel
theorem witness_running : running ready = true ∧ ready.module.cfgReady = true ∧ ready.module.fwVerified = true := by decide +kernel
theorem witness_resetKey : (0xD1CF : Half) ≠ 0xD1CE := by decide
def unpowered : State := { ready with module := { ready.module with powered := false } }
theorem witness_powerApplied : unpowered.module.powered = false := by decide +kernel
/-- A module that starts, before its path is chosen. -/
def early : State := ({ ready with module := { perstAsserted := false, released := true, fwVerified := true, timeNs := 6000000 } }).setFld
  fFltStatusModuleState 0 0 2
theorem witness_startPath : starting early = true ∧ early.module.pathChosen = false := by decide +kernel
theorem witness_startPath_quick : pathReason ({ early with flash := { recordValid := true, orderly := true } } : State) false = 0 := by
  decide +kernel
def chosen (grants : Nat) (trained : List Nat) : State := withStacks trained { early with
  module := { early.module with pathChosen := true, cfgReady := true, icvarTakes := true, grants := grants } }
theorem witness_powerGrant : starting (chosen 9 []) = true ∧ (chosen 9 []).module.grants < 25 ∧
    (grantOf (chosen 9 []) ((chosen 9 []).module.grants + 1)).2 = true := by decide +kernel
theorem witness_powerGrant_last : starting (chosen 24 (List.range 24)) = true ∧ (chosen 24 (List.range 24)).module.grants < 25 ∧
    (grantOf (chosen 24 (List.range 24)) ((chosen 24 (List.range 24)).module.grants + 1)).2 = true := by decide +kernel
theorem witness_stackTraining : let s : State := { early with module := { early.module with grants := 9 } }
    starting s = true ∧ hbmTrained s 23 = false ∧ 2 + 23 / 3 ≤ s.module.grants := by decide +kernel
theorem witness_moduleOperational : startDone (chosen 25 (List.range 24)) = true := by decide +kernel
/-- Section 7 under test, with block 13 left; a module that shuts down from its start. -/
def testingSeven : State := withStacks [21, 22, 23] { ready with
  care := { ready.care with autumn := [(7, some { source := 5, tested := 0x80, left := [13] })] } }
theorem witness_autumnBlock : ∃ r, testingSeven.autumn 7 = some r ∧ r.left.contains 13 = true ∧
    (∀ g ∈ spanOf (3 * 7) 3, hbmTrained testingSeven g = true) ∧ coreDone testingSeven r = true := ⟨_, rfl, by decide +kernel⟩
theorem witness_autumnBlock_core : ∃ s r, s = ({ ready with care := { ready.care with autumn := [(7, some { source := 5, tested := 0x80, left := [3, 13] })] } } : State) ∧
    s.autumn 7 = some r ∧ r.left.contains 3 = true ∧ 7 ∈ corePair s := ⟨_, _, rfl, rfl, by decide +kernel⟩
theorem witness_shutDown : running ready = true ∧ ready.module.shutting = false ∧ moduleState ready = 1 := by decide +kernel
theorem witness_shutDown_starting : running early = true ∧ early.module.shutting = false ∧ moduleState early = 2 := by decide +kernel
theorem witness_healthDecay : let s : State := { ready with care := { ready.care with health := [(0, { score := 1000 }), (191, { score := 1 })] } }
    running s = true ∧ tabWf {} s.care.health = true := by decide +kernel

/-! ### Witnesses: configuration space, functions, BAR0, mailboxes, queues, BAR2 -/

theorem witness_config_retry : running early = true ∧ early.module.cfgReady = false := by decide +kernel
theorem witness_config : running ready = true ∧ ready.module.cfgReady = true ∧ (ready.fn 0).mode ≠ .absent := by decide +kernel
theorem witness_config_bar2 : tdiLocked ready 0 = false := by decide +kernel
theorem witness_flr : running withFn = true ∧ resettable withFn 1 = true := by decide +kernel
def tdi (mode : TdiMode) : State := withFn.setFn 1 { withFn.fn 1 with tdi := mode, ideStream := true }
theorem witness_tdi : running (tdi .unlocked) = true ∧ (tdi .unlocked).module.cfgReady = true ∧ ((tdi .unlocked).fn 1).tdi = .unlocked ∧
    ((tdi .locked).fn 1).tdi = .locked ∧ ((tdi .run).fn 1).tdi = .run := by decide +kernel
theorem witness_answers : answers ready 0 = true ∧ answers withFn 1 = true ∧ icvarRuns ready = true := by decide +kernel
theorem witness_registerWrite : wellSized 0x1008 8 = true ∧ wellSized 0x100C 4 = true ∧ barAt 0 0x1008 = .reg ⟨.mbxInStatus, 0, 0⟩ ∧
    barAt 0 0x100C = .reg ⟨.mbxInStatus, 0, 0⟩ ∧ w1cMask .mbxInStatus = 0xA ∧
    RegName.mbxInStatus ∉ [.mbxInWord, .mbxOutAck, .hifQslotCtl, .fltCtl, .lnkLoop, .hbmLoop] := by decide +kernel
theorem witness_msixWrite : wellSized 0x1083F8 8 = true ∧ barAt 0 0x1083F8 = .msix 127 ∧ tdiLocked ready 0 = false := by decide +kernel
theorem witness_noWrite : answers early 0 = false ∧ wellSized 0x1004 8 = false ∧ wellSized 0x1008 2 = false := by decide +kernel
theorem witness_rcRead : (47, 32) ∈ rcFields .mbxInStatus ∧ barAt 63 0x1FF8 = .none ∧ wellSized 0x38 4 = true ∧ barAt 0 0x38 = .none := by
  decide +kernel
/-- A PING waits in the last mailbox of function 0. -/
def pinged : State := (ready.setRaw ⟨.mbxInWord, 0, 7⟩ 0x03FFFFFFFFFFFFFF).setFld fMbxInStatusFull 0 7 1
theorem witness_mailboxTake : icvarRuns pinged = true ∧ answers pinged 0 = true ∧ pinged.fld fMbxInStatusFull 0 7 = 1 ∧
    mbxBusy pinged 0 7 = false ∧
    pinged.raw ⟨.mbxInWord, 0, 7⟩ = BitVec.ofNat 64 (3 * 2 ^ 56 + (0xFF : Byte).toNat * 2 ^ 48 + (0xFFFFFFFFFFFF : BitVec 48).toNat) ∧
    recordingCtxs pinged 0 = [] ∧ tabGet none (pinged.fn 0).lastTaken 7 = none ∧ (pinged.fn 0).outbox = [] ∧ (pinged.fn 0).owed = [] ∧
    pinged.fld fMbxOutStatusFull 0 7 = 0 ∧ moduleState pinged = 1 ∧
    keysWhere pinged.objs.ctxs (fun x => x.owner == 0 && x.replay.isSome) = [] := by decide +kernel
def posting : State := ready.setFn 0 { ready.fn 0 with outbox := [(3, 7), (7, 0xE000000000000001)] }
theorem witness_mbxOutPost : icvarRuns posting = true ∧ (posting.fn 0).mode ≠ .resetting ∧ posting.fld fMbxOutStatusFull 0 7 = 0 ∧
    (posting.fn 0).outbox.find? (fun e => e.1 == 7) = some (7, 0xE000000000000001) ∧ (posting.fn 0).owed = [] := by decide +kernel
theorem witness_doorbell : let s := withQueue .enabled
    doorbellReject s 0 3 (leNat [64, 0, 0, 0, 0, 1, 0, 0]) true = none ∧ (s.queue 3).ctx = some 1 ∧ isReplaying s 1 = false ∧ (s.ctx 1).log = none := by decide +kernel
theorem witness_doorbell_rejected : doorbellReject (withQueue .enabled) 0 3 (leNat [65, 0, 0, 0, 0, 1, 0, 0]) true = some fHifDbRejectBadWrite ∧
    doorbellReject (withQueue .enabled) 0 3 (leNat [64, 0, 0, 0, 1, 1, 0, 0]) true = some fHifDbRejectBadWrite ∧
    doorbellReject (withQueue .enabled) 0 8191 0 true = some fHifDbRejectNotEnabled := by decide +kernel
def fetching : State := (withQueue .enabled).setQueue 3 { (withQueue .enabled).queue 3 with ring := hostArg, tail := 1 }
theorem witness_queueFetch : fetches fetching 3 = true ∧ (fetching.queue 3).kind ≠ 0 ∧
    isHostAddr (entryAddr (fetching.queue 3) (fetching.queue 3).consumed) = true ∧ (fetching.fn (fetching.queue 3).fn).busMaster = true := by
  decide +kernel
def fetchingHbm : State := fetching.setQueue 3 { fetching.queue 3 with ring := hbmArg }
theorem witness_queueFetch_hbm : fetches fetchingHbm 3 = true ∧
    isHostAddr (entryAddr (fetchingHbm.queue 3) (fetchingHbm.queue 3).consumed) = false ∧
    argOk fetchingHbm 0 0x10000 (64 * entryStep 1) false = true ∧ (readMem fetchingHbm 0x10000 (64 * entryStep 1)).2 = [] := by
  decide +kernel
theorem witness_queueFetch_fails : let s := upsetWords fetchingHbm [⟨0x10010, .uncorrectable⟩]
    fetches s 3 = true ∧ argOk s 0 0x10000 (64 * entryStep 1) false = true ∧ (readMem s 0x10000 (64 * entryStep 1)).2 ≠ [] ∧
    (s.ctx 1).mode = .active ∧ fetches (fetching.setFn 0 { fetching.fn 0 with busMaster := false }) 3 = true := by
  decide +kernel
def fetchingCmd : State := withCmdq.setQueue 2 { withCmdq.queue 2 with ring := hostArg, tail := 2 }
theorem witness_queueFetch_command : fetches fetchingCmd 2 = true ∧ (fetchingCmd.queue 2).kind = 0 ∧
    isHostAddr (entryAddr (fetchingCmd.queue 2) (fetchingCmd.queue 2).consumed) = true ∧ (fetchingCmd.fn 0).busMaster = true := by
  decide +kernel
theorem witness_doorbell_replay : let s := withQueue .enabled
    let s := s.setCtx 1 { s.ctx 1 with replay := some logOf }
    doorbellReject s 0 3 (leNat [64, 0, 0, 0, 0, 1, 0, 0]) true = none ∧ (s.queue 3).ctx = some 1 ∧ isReplaying s 1 = true := by decide +kernel
def releasing : State := (withQueue .enabled).setQueue 3 { (withQueue .enabled).queue 3 with produced := 5, released := 4, slot := 511 }
theorem witness_cqRelease : slotQueue releasing 0 511 = some 3 ∧ (releasing.queue 3).cq = some hostArg ∧ (releasing.queue 3).entries = [] ∧
    ((5 : Word32).toNat + 2 ^ 32 - (releasing.queue 3).released) % 2 ^ 32 = 1 ∧
    1 ≤ ((releasing.queue 3).produced + 2 ^ 32 - (releasing.queue 3).released) % 2 ^ 32 ∧ 1 ≤ (releasing.queue 3).m ∧
    (releasing.fn (releasing.queue 3).fn).busMaster = true := by decide +kernel
theorem witness_queueDrainEnd : let s := withQueue .draining
    (s.queue 3).mode = .draining ∧ (s.queue 3).entries = [] ∧ s.work.engines = [] ∧ (flushQueue (stopJobs s (fun j => j.queue == 3)) 3) = s ∧ heldBy s (fun k => k == .cmdqClose 3) = false := by
  decide +kernel
def windowed : State := ready.setFn 0 { ready.fn 0 with windows := [(2, 0xFFFFF000), (3, 0x10000)] }
theorem witness_bar2 : bar2Addr windowed 0 (3 * quarterBytes windowed 0) 8 = some 0x10000 ∧ bar2Ok windowed 0 0x10000 8 false = true ∧
    bar2Ok windowed 0 0x10000 8 true = true ∧ portWaits windowed 0 0x10000 = false ∧ (readMem windowed 0x10000 8).2 = [] ∧
    (ctxsAt windowed 0 0x10000 8).filter (isReplaying windowed) = [] ∧ ∀ k ∈ ctxsAt windowed 0 0x10000 8, (windowed.ctx k).log = none := by decide +kernel
theorem witness_bar2_refused : bar2Addr windowed 0 0 8 = none ∧ bar2Addr windowed 0 (2 * quarterBytes windowed 0 + 0x1000) 8 = some 0x100000000 ∧
    bar2Ok windowed 0 0x100000000 8 false = false ∧ bar2Ok windowed 0 0x100000000 8 true = false := by decide +kernel
theorem witness_bar2_replay : let s := windowed.setCtx 1 { windowed.ctx 1 with replay := some logOf }
    bar2Ok s 0 0x10000 8 true = true ∧ (ctxsAt s 0 0x10000 8).filter (isReplaying s) = [1] := by decide +kernel
theorem witness_bar2_waits : let s := windowed.setPart 0 { windowed.part 0 with winter := true }
    bar2Addr s 0 (3 * quarterBytes s 0) 8 = some 0x10000 ∧ bar2Ok s 0 0x10000 8 true = true ∧
    (ctxsAt s 0 0x10000 8).filter (isReplaying s) = [] ∧ portWaits s 0 0x10000 = true := by decide +kernel
/-- Function 1 of the same partition is a locked TDI, with queue 3 bound to it. -/
def tdiOther : State :=
  let s := (tdi .locked).setFn 1 { (tdi .locked).fn 1 with part := some 0 }
  s.setQueue 3 { present := true, gen := 1, part := 0, kind := 1, fn := 1, ctx := some 1, cq := some hostArg, mode := .disabled }
theorem witness_tdi_refuses : tdiLocked (before carrier 0x33 [1, 3, 0x10000] tdiOther) 1 = true ∧
    Accepted refuseWindowSet carrier 0x33 [1, 3, 0x10000] tdiOther ∧
    Accepted refuseQueueCreate carrier 0x28 [1, hostArg, 64, hostArg, 64, 63, 1, ctxHandle] tdiOther ∧
    Accepted refuseQueueDestroy carrier 0x29 [handle 2 3] tdiOther :=
  ⟨by decide +kernel, accepts (by decide +kernel), accepts (by decide +kernel), accepts (by decide +kernel)⟩

/-! ### Witnesses: cores, waits and the witness -/

/-- Bytes of a structure from its fields: byte offset, width in bytes, value. -/
def fields (length : Nat) (l : List (Nat × Nat × Nat)) : List Byte :=
  l.foldl (fun b f => b.take f.1 ++ leBytes f.2.1 f.2.2 ++ b.drop (f.1 + f.2.1)) (List.replicate length 0)

/-- A VECTOR tile that copies four binary32 elements of tensor 11 to tensor 12 and adds 3 to tally 2; the next has another GEN_TAG, the third a
kind that does not exist. -/
def tileFields : List (Nat × Nat × Nat) := [(0, 1, 0x10), (1, 1, 0x10), (4, 2, 1), (8, 4, 0xFFFFFFFF), (12, 2, 2), (14, 2, 0xFFFF), (24, 2, 3), (32, 4, 11), (40, 4, 12), (64, 4, 1), (68, 4, 4)]
def tileBytes : List Byte := fields 128 tileFields
def staleTile : List Byte := fields 128 (tileFields ++ [(4, 2, 2)])
def badTile : List Byte := fields 128 (tileFields ++ [(1, 1, 0x90)])
def programBase : Nat := 0x100000000080
def withTile (b : List Byte) : State :=
  let s := withTally.setTensor 0 11 { present := true, ctx := 1, desc := { id := 11, base := 0x100000001000, dim0 := 4 } }
  let s := s.setTensor 0 12 { present := true, ctx := 1, desc := { id := 12, base := 0x100000002000, dim0 := 4 } }
  let s := s.setSlot 0 7 { loaded := true, launched := true, base := programBase, count := 1, ctx := 1, tag := 1 }
  (writeBytes s programBase b).setCore 0 { running := some 7 }
theorem witness_tileFetch : ∃ s, s = withTile tileBytes ∧
    (s.core 0).running = some 7 ∧ partHeld s (s.ctx (s.slot 0 7).ctx).part = false ∧ runnable s 0 7 = true ∧
    (s.core 0).window.length < 16 ∧ nextIndex (s.slot 0 7) 0 0 < (s.slot 0 7).count ∧ readOk s 1 programBase 128 = true ∧
    Clean s [(programBase, 128)] ∧ readBytes s programBase 128 = tileBytes ∧ tTag tileBytes = (s.slot 0 7).tag ∧
    tileCheck s 0 1 tileBytes = none := by
  refine ⟨_, rfl, ?_⟩; unfold Clean; decide +kernel
theorem witness_tileFetch_stale : ∃ s, s = withTile staleTile ∧
    Clean s [(programBase, 128)] ∧ tTag (readBytes s programBase 128) ≠ (s.slot 0 7).tag := by
  refine ⟨_, rfl, ?_⟩; unfold Clean; decide +kernel
theorem witness_tileFetch_bad : ∃ s, s = withTile badTile ∧
    Clean s [(programBase, 128)] ∧ tTag (readBytes s programBase 128) = (s.slot 0 7).tag ∧
    tileCheck s 0 1 (readBytes s programBase 128) = some 1 ∧ (s.ctx 1).mode = .active := by
  refine ⟨_, rfl, ?_⟩; unfold Clean; decide +kernel
theorem witness_tileFetch_upset : ∃ s, s = upsetWords (withTile tileBytes) [⟨programBase, .uncorrectable⟩] ∧
    readOk s 1 programBase 128 = true ∧ ¬ Clean s [(programBase, 128)] ∧
    readOk (s.setRegion 1 { s.region 1 with read := false }) 1 programBase 128 = false := by
  refine ⟨_, rfl, ?_⟩; unfold Clean; decide +kernel
/-- The tile in the window of core 0, no sample taken; the tile on its unit; a wait that is not met. -/
def winDesc (b : List Byte) : WinDesc := ⟨0, b, 0, false, 58⟩
def inWindow : State := ((withTile tileBytes).setCore 0 { running := some 7, window := [winDesc tileBytes] }).setFld fNumCfgWitEnable 0 0 0
theorem witness_tileIssue :
    (inWindow.core 0).running = some 7 ∧ secPart inWindow (coreSec 0) = some 0 ∧ partHeld inWindow 0 = false ∧
    runnable inWindow 0 7 = true ∧ entering inWindow 0 = false ∧ slotBest inWindow 0 7 = false ∧
    (inWindow.core 0).window.find? (fun d => canIssue inWindow 0 7 (inWindow.core 0).window d &&
      (!(inWindow.slot 0 7).fillProgram || fillFits inWindow 0 1 d)) = some (winDesc tileBytes) ∧
    inWindow.fld fNumCfgWitEnable (coreSec 0) 0 = 0 ∧ (tileReads inWindow 1 tileBytes).all (fun r => readOk inWindow 1 r.1 r.2) = true ∧
    Clean inWindow (tileReads inWindow 1 tileBytes) ∧ cellsOk inWindow 1 (spoilOverlap inWindow 1 tileBytes
      ((tileOutput inWindow 1 tileBytes []).res.cells ++ (tileOutput inWindow 1 tileBytes []).extra)).2 = true := by
  unfold Clean; decide +kernel
theorem witness_tileIssue_faults : (inWindow.ctx 1).mode = .active ∧
    ¬ Clean (upsetWords inWindow [⟨0x100000001000, .uncorrectable⟩]) (tileReads inWindow 1 tileBytes) ∧
    let s := inWindow.setRegion 1 { inWindow.region 1 with read := false }
    (tileReads s 1 tileBytes).all (fun r => readOk s 1 r.1 r.2) = false ∧
    let s := inWindow.setRegion 1 { inWindow.region 1 with write := false }
    cellsOk s 1 (spoilOverlap s 1 tileBytes ((tileOutput s 1 tileBytes []).res.cells ++ (tileOutput s 1 tileBytes []).extra)).2 = false := by
  unfold Clean; decide +kernel
def tileRun (sampled : Bool) : TileRun :=
  { slot := 7, ctx := 1, tag := 1, index := 0, bytes := tileBytes, planned := 58, stream := 0, writes := [(0x100000002000, 1), (0x10000000200F, 2)], sampled := sampled }
def issued (sampled : Bool) : State := (withTile tileBytes).setCore 0 { running := some 7, units := [(4, .tile (tileRun sampled))] }

theorem witness_tileComplete : ∀ y, coreUnit (issued y) 0 4 = .tile (tileRun y) ∧ secHeld (issued y) (coreSec 0) = false ∧
    tileDead (issued y) (tileRun y) = false ∧ SignalsTake (issued y) tileBytes ∧ ((issued y).ctx 1).mode = .active ∧
    tileDead ((issued y).setCtx 1 { gen := 2 }) (tileRun y) = true := by
  unfold SignalsTake; decide +kernel
theorem witness_held : secHeld ((issued false).setPart 0 { (issued false).part 0 with held := true }) (coreSec 0) = true := by decide +kernel
/-- A best-effort context 2, with the same program in slot 3 of core 0. -/
def twoSlots : State :=
  ((withTile tileBytes).setCtx 2 { mode := .active, gen := 1, bestEffort := true }).setSlot 0 3
    { loaded := true, launched := true, base := programBase, count := 1, ctx := 2, tag := 1 }
def coreOff : State := twoSlots.setCore 0 {}
theorem witness_slotChange : secHeld coreOff (coreSec 0) = false ∧ winterCore coreOff 0 = false ∧ (coreOff.core 0).running = none ∧
    readySlots coreOff 0 false none = [7] ∧ firstLaunched coreOff 0 [7] = some 7 := by decide +kernel
def bestOnly : State := coreOff.setSlot 0 7 {}
theorem witness_slotChange_best : winterCore bestOnly 0 = false ∧ (bestOnly.core 0).running = none ∧ readySlots bestOnly 0 false none = [] ∧
    firstLaunched bestOnly 0 (readySlots bestOnly 0 true none) = some 3 := by decide +kernel
theorem witness_slotChange_held : ((issued false).core 0).running = some 7 ∧ slotRuns (issued false) 0 7 ≠ [] := by decide +kernel
theorem witness_slotChange_ended : let s := bestOnly.setCore 0 { running := some 7 }
    slotRuns s 0 7 = [] ∧ runnable s 0 7 = false ∧ firstLaunched s 0 (readySlots s 0 true (some 7)) = some 3 := by decide +kernel
def bestRuns : State := twoSlots.setCore 0 { running := some 3 }
theorem witness_slotChange_displaced : winterCore bestRuns 0 = false ∧
    (bestRuns.core 0).running = some 3 ∧ slotRuns bestRuns 0 3 = [] ∧ runnable bestRuns 0 3 = true ∧ slotBest bestRuns 0 3 = true ∧
    firstLaunched bestRuns 0 (readySlots bestRuns 0 false (some 3)) = some 7 := by decide +kernel
theorem witness_slotChange_turn : let s := (bestRuns.setSlot 0 7 {}).setSlot 0 4 (bestRuns.slot 0 3)
    slotBest s 0 3 = true ∧ firstLaunched s 0 (readySlots s 0 false (some 3)) = none ∧ (s.core 0).entered + 262144 ≤ aCycles s ∧
    readySlots s 0 true (some 3) ≠ [] ∧ nextBest s 0 3 = some 4 := by decide +kernel
/-- A tile that waits for tally 2 to reach 5. -/
def waitTile : List Byte := fields 128 (tileFields ++ [(8, 2, 2), (16, 4, 5)])
def waiting (reported : Bool) : State := twoSlots.setCore 0 { running := some 7, window := [{ winDesc waitTile with reported := reported }] }
theorem witness_bubbleFill : (secPart (waiting true) (coreSec 0)).isSome = true ∧ slotBest (waiting true) 0 7 = false ∧
    secHeld (waiting true) (coreSec 0) = false ∧ bubble (waiting true) 0 7 = true ∧
    readySlots (waiting true) 0 false (some 7) = [] ∧ slotRuns (waiting true) 0 7 = [] ∧ runnable (waiting true) 0 7 = true ∧
    firstLaunched (waiting true) 0 (readySlots (waiting true) 0 true (some 7)) = some 3 := by decide +kernel
/-- Core 0 in Winter: slot 7 has work, slot 3 holds a fill program, whose windows take every frame of the table. -/
def winterRun (run : Option Nat) : State :=
  let s := twoSlots.setPart 0 { twoSlots.part 0 with winter := true, table := some ⟨0x10, false, 1, 200, 
    [⟨0, 200, 0, 0, 0xFFFF, 5, 0, 0x0D, 0, false, 0⟩], []⟩ }
  (s.setSlot 0 3 { s.slot 0 3 with fillProgram := true }).setCore 0 { running := run }
theorem witness_winter : ∀ run ∈ [none, some 7], secHeld (winterRun run) (coreSec 0) = false ∧ winterCore (winterRun run) 0 = true ∧
    ((winterRun run).core 0).running = run ∧ firstLaunched (winterRun run) 0 (winterSlots (winterRun run) 0 false) = some 7 ∧
    firstLaunched (winterRun run) 0 (winterSlots (winterRun run) 0 true) = some 3 ∧ 1300 ≤ fillLeft (winterRun run) 0 ∧
    slotRuns (winterRun run) 0 7 = [] ∧ ((winterRun run).slot 0 7).fillProgram = false := by decide +kernel
theorem witness_winter_windowEnds : let s := (winterRun (some 3)).modPart 0 (fun x => { x with work := 2400 * 200 - 1, table := none })
    winterCore s 0 = true ∧ slotRuns s 0 3 = [] ∧ firstLaunched s 0 (winterSlots s 0 false) = some 7 ∧ (s.slot 0 3).fillProgram = true ∧
    fillLeft s 0 = 0 := by decide +kernel
theorem witness_wait : ∀ r, ((waiting r).core 0).running = some 7 ∧
    ((waiting r).core 0).window.find? (fun d => d.index == 0) = some { winDesc waitTile with reported := r } ∧ waitsMet (waiting r) waitTile = false ∧
    ((waiting r).ctx ((waiting r).slot 0 7).ctx).mode = .active := by decide +kernel
theorem witness_tallyAdd : let t := withTally.tally 2
    tagDropped withTally t.part 1 = false ∧ t.present = true ∧ t.abandoned = false ∧ t.count + 0xFFFB ≤ 0xFFFFFFFF ∧
    (withTally.ctx t.ctx).marks = [] := by decide +kernel
theorem witness_tallyAdd_full : let s := withTally.setTally 2 { withTally.tally 2 with count := 0xFFFFFFFF }
    tagDropped s 0 1 = false ∧ (s.tally 2).abandoned = false ∧ 0xFFFFFFFF < (s.tally 2).count + 1 ∧ (s.ctx (s.tally 2).ctx).mode = .active := by
  decide +kernel
theorem witness_tallyAdd_dropped : let s := withTally.setCtx 2 { mode := .teardown, gen := 2 }
    tagDropped s (s.tally 2).part 2 = true ∧ tagDropped s (s.tally 2).part 1 = false ∧ (s.tally 9).present = false ∧
    tagDropped s (s.tally 9).part 1 = false ∧ ((s.setTally 2 { s.tally 2 with abandoned := true }).tally 2).abandoned = true := by
  decide +kernel
/-- A sample of one output of value 1.0, exact, and what the array gave. -/
def sampleOf (array : Word32) (done : Bool) : Sample :=
  { core := 0, slot := 7, array := 4, ctx := 1, tag := 1, index := 0, bytes := tileBytes, row0 := 0, col0 := 0, rows := 1, cols := 1,
    isInt := false, accs := [(array.setWidth 48, 0)], truth := [(0x3F800000, 0)], narrow := [array], aTap := [], bTap := [], initTap := [],
    tileDone := done }
def sampled (s : State) (x : Sample) : State := s.setWitness 0 (some x)
theorem witness_witnessCheck : let x := sampleOf 0x3F800000 false
    (sampled ready x).witness 0 = some x ∧ accDiffs x x.accs (witnessAccs x []) = [] ∧
    ((sampled ready x).part 0).drift.find? (fun e => e.2.outId == tOut x.bytes) = none ∧
    heldTile (sampled ready x) x = none ∧ runningTile (sampled ready x) x = none ∧
    runningTile (sampled (issued true) x) x = some (tileRun true) ∧ ready.witness 0 = none := by decide +kernel
theorem witness_witnessCheck_held : let x := sampleOf 0x3F800000 true
    let s := sampled ((issued true).setCore 0 { running := some 7, held := [(4, tileRun true)] }) x
    heldTile s x = some (tileRun true) ∧ tileDead s (tileRun true) = false ∧ SignalsTake s tileBytes := by
  unfold SignalsTake; decide +kernel
theorem witness_witnessCheck_differs : let x := sampleOf 0x40000000 true
    accDiffs x x.accs (witnessAccs x []) ≠ [] ∧ accDiffs x (witnessAccs x []) (witnessAccs x []) = [] ∧ x.tag = ctxTag (sampled ready x) 1 ∧
    ((sampled ready x).ctx 1).mode = .active ∧ heldTile (sampled ready x) x = none ∧
    accDiffs x (witnessAccs x []) (witnessAccs x [⟨0, 0x40400000, 0⟩]) ≠ [] := by decide +kernel

/-! ### Witnesses: movers and engines -/

/-- A state whose queue 3, of context 1, has one descriptor waiting for an engine. -/
def queued (s : State) (kind unit : Nat) (b : List Byte) : State :=
  s.setQueue 3 { present := true, gen := 1, part := 0, kind := kind, unit := unit, ctx := some 1, cq := some hostArg, mode := .enabled,
                 tail := 1, consumed := 1, entries := [⟨0, b, .waiting⟩] }
/-- A state in which a unit runs a descriptor of that queue. -/
def jobIn (b : List Byte) (phase : JobPhase) : Job := { queue := 3, pos := 0, ctx := 1, bytes := b, phase := phase }
def running_ (s : State) (kind unit : Nat) (j : Job) : State :=
  (s.setQueue 3 { present := true, gen := 1, part := 0, kind := kind, unit := unit, ctx := some 1, cq := some hostArg, mode := .enabled,
                  tail := 1, consumed := 1, entries := [⟨0, j.bytes, .running⟩] }).setEngine (engineKey kind unit) { job := some j }
/-- A descriptor's first bytes: version 1.0, an operation, the tag of context 1, no waits, 3 signalled to tally 2. -/
def headFields (op : Nat) : List (Nat × Nat × Nat) :=
  [(0, 1, 0x10), (1, 1, op), (4, 2, 1), (8, 4, 0xFFFFFFFF), (12, 2, 2), (14, 2, 0xFFFF), (24, 2, 3)]
def mover (op tensor src dst len : Nat) : List Byte := fields 64 (headFields op ++ [(28, 4, tensor), (32, 8, src), (40, 8, dst), (48, 8, len)])
def loamAt : Nat := 0x100000004000
/-- A tensor with checksums whose one block is 32 bytes at 0x1000, its checksum stored or not. -/
def crcTensor : Tensor := { present := true, ctx := 1, desc := { id := 9, checksum := true, dim0 := 8, base := 0x1000, crcAddr := 0x3000 } }
def withCrc : State := withTally.setTensor 0 9 crcTensor
def crcStored : State := storeBytes withCrc 0x3000 (leBytes 4 (blockCrc 9 0 0 (blockData withCrc (0x1000, 32))).toNat)

theorem witness_mover_zero : let b := mover 3 0 0 0x1000 16
    Takes (queued withTally 1 7 b) 1 7 3 1 ⟨0, b, .waiting⟩ ∧
    mvBad (queued withTally 1 7 b) 7 (jobFrom (queued withTally 1 7 b) 3 1 ⟨0, b, .waiting⟩) = false ∧
    writeOk (queued withTally 1 7 b) 1 (mvDst b) (mvLen b) = true ∧ mvOp b = 3 ∧
    mvBlocks (queued withTally 1 7 b) (jobFrom (queued withTally 1 7 b) 3 1 ⟨0, b, .waiting⟩) = [] := by
  unfold Takes; decide +kernel
theorem witness_mover_bad : let b := mover 0 0 0 0x1000 16
    Takes (queued withTally 1 7 b) 1 7 3 1 ⟨0, b, .waiting⟩ ∧
    mvBad (queued withTally 1 7 b) 7 (jobFrom (queued withTally 1 7 b) 3 1 ⟨0, b, .waiting⟩) = true ∧
    ((queued withTally 1 7 b).ctx 1).mode = .active := by unfold Takes; decide +kernel
theorem leNat_leBytes (n : Nat) : leNat (leBytes 4 n) = n % 2 ^ 32 := by
  simp [leBytes, leNat]
  omega
/-- A checksum stored at 0x3000 reads back there, and the block at 0x1000 stays as it was. -/
theorem crc_stored {s₀ s : State} {c : Word32} (h : s.mem = (storeBytes s₀ 0x3000 (leBytes 4 c.toNat)).mem) :
    storedCrc s crcTensor.homeDesc 0 = c ∧ readBytes s 0x1000 32 = readBytes s₀ 0x1000 32 := by
  obtain ⟨w, o, -⟩ := storedAt_storeBytes s₀ 0x3000 (leBytes 4 c.toNat)
  have hm : ∀ a, memByte s a = memByte (storeBytes s₀ 0x3000 (leBytes 4 c.toNat)) a := fun a => by simp only [memByte, h]
  refine ⟨?_, ?_⟩
  · show BitVec.ofNat 32 (leNat (readBytes s 0x3000 4)) = _
    rw [show readBytes s 0x3000 4 = leBytes 4 c.toNat from (List.map_congr_left (fun i _ => hm _)).trans w, leNat_leBytes,
      Nat.mod_eq_of_lt (BitVec.isLt _), BitVec.ofNat_toNat, BitVec.setWidth_eq]
  · exact List.map_congr_left (fun i hi => (hm _).trans (o _ (by
      have : i < 32 := List.mem_range.1 hi
      omega)))
/-- The stored checksum of the block agrees with its bytes. -/
theorem crc_good {s : State} (h : s.mem = crcStored.mem) : blockGood s crcTensor 0 0 0x1000 32 = true := by
  obtain ⟨h1, h2⟩ := crc_stored (s₀ := withCrc) h
  have hb : blockData s (0x1000, 32) = blockData withCrc (0x1000, 32) := by simp only [blockData, h2]
  have hi : crcTensor.desc.id = 9 := rfl
  simp only [blockGood, h1, hb, hi, beq_self_eq_true]
def loadBytes : List Byte := mover 1 9 0x1000 loamAt 32
/-- The job that a state's queue hands to its mover. -/
def taken (s : State) (b : List Byte) : Job := { jobFrom s 3 1 ⟨0, b, .waiting⟩ with version := (s.tensor 0 (mvTensor b)).desc.version }
theorem witness_mover_load : let b := mover 1 0 0x1000 loamAt 32
    let s := queued withTally 1 0 b
    Takes s 1 0 3 1 ⟨0, b, .waiting⟩ ∧ mvBad s 0 (taken s b) = false ∧ readOk s 1 (mvSrc b) (mvLen b) = true ∧
    writeOk s 1 (mvDst b) (mvLen b) = true ∧ Clean s (mvReads s (taken s b)) ∧ mvOp b = 1 ∧ mvMismatch s (taken s b) 0 false = none := by
  unfold Takes Clean; decide +kernel
theorem witness_mover_upset : let b := mover 1 0 0x1000 loamAt 32
    let s := upsetWords (queued withTally 1 0 b) [⟨0x1010, .uncorrectable⟩]
    mvBad s 0 (taken s b) = false ∧ readOk s 1 (mvSrc b) (mvLen b) = true ∧ writeOk s 1 (mvDst b) (mvLen b) = true ∧
    ¬ Clean s (mvReads s (taken s b)) ∧ (s.ctx 1).mode = .active ∧
    readOk (s.setRegion 0 { s.region 0 with read := false }) 1 (mvSrc b) (mvLen b) = false := by
  unfold Clean; decide +kernel
theorem witness_mover_store : let b := mover 2 9 loamAt 0x1000 32
    let s := queued withCrc 1 0 b
    Takes s 1 0 3 1 ⟨0, b, .waiting⟩ ∧ mvBad s 0 (taken s b) = false ∧ readOk s 1 (mvSrc b) (mvLen b) = true ∧
    writeOk s 1 (mvDst b) (mvLen b) = true ∧ Clean s (mvReads s (taken s b)) ∧ mvBlocks s (taken s b) = [(0, 0x1000, 32)] ∧
    mvDst b + mvLen b ≤ crcTensor.homeDesc.crcAddr + 4 * 0 := by
  unfold Takes Clean; decide +kernel
theorem witness_mover_mismatch : let s := queued crcStored 1 0 loadBytes
    Takes s 1 0 3 1 ⟨0, loadBytes, .waiting⟩ ∧ mvBad s 0 (taken s loadBytes) = false ∧
    writeOk s 1 loamAt 32 = true ∧ readOk s 1 0x1000 32 = true ∧ Clean s (mvReads s (taken s loadBytes)) ∧
    mvMismatch s (taken s loadBytes) 0 true = some 0 := by
  unfold Takes Clean; decide +kernel
def rereading : State := running_ crcStored 1 0 (jobIn loadBytes (.reread 0))
theorem witness_crcSecondRead : jobOf rereading 1 0 = some (jobIn loadBytes (.reread 0)) ∧
    (mvBlocks rereading (jobIn loadBytes (.reread 0)))[0]? = some (0, 0x1000, 32) ∧ mvOp loadBytes = 1 ∧
    rereading.tensor 0 (mvTensor loadBytes) = crcTensor ∧ blockGood rereading crcTensor 0 0 0x1000 32 = true ∧
    jobStopped rereading (jobIn loadBytes (.reread 0)) = false ∧ mvMismatch rereading (jobIn loadBytes (.reread 0)) 1 false = none ∧
    (rereading.ctx 1).mode = .active :=
  ⟨by decide +kernel, by decide +kernel, by decide +kernel, by decide +kernel, crc_good rfl, by decide +kernel, by decide +kernel,
    by decide +kernel⟩
def moved : State := running_ withTally 1 63 (jobIn loadBytes .dataDone)
theorem witness_moverComplete : jobOf moved 1 63 = some (jobIn loadBytes .dataDone) ∧ unitHeld moved 1 63 = false ∧
    SignalsTake moved loadBytes ∧ (moved.queue 3).entries = [⟨0, loadBytes, .running⟩] ∧ (moved.queue 3).recordsAllowed = true ∧
    (moved.queue 3).cq = some hostArg ∧ cqRoom (moved.queue 3) = true ∧ (moved.fn (moved.queue 3).fn).busMaster = true ∧
    (moved.ctx 1).mode = .active := by
  unfold SignalsTake; decide +kernel
theorem witness_unitHeld : unitHeld (moved.setPart 0 { moved.part 0 with held := true }) 1 0 = true := by decide +kernel

/-- A route that gathers one row of tensor 21 into tensor 22 by a list, and its tensors. -/
def route (op : Nat) : List Byte :=
  fields 128 (headFields op ++ [(40, 4, 21), (44, 4, 22), (56, 4, 1), (64, 4, 1), (72, 8, 0x10000000A000)])
def withRoute : State :=
  let s := withTally.setTensor 0 21 { present := true, ctx := 1, desc := { id := 21, base := 0x100000008000, dim0 := 4 } }
  s.setTensor 0 22 { present := true, ctx := 1, desc := { id := 22, base := 0x100000009000, dim0 := 4 } }
def routing : State := queued withRoute 2 0 (route 0)
def routeJob : Job := jobFrom routing 3 1 ⟨0, route 0, .waiting⟩
def routeWords (s : State) (b : List Byte) : List (Nat × Nat) :=
  (routeReads (s.tensor 0 (rOut b)).desc b (routeRun s 1 b)).flatMap (fun r => wordReads r.2)
theorem witness_route : Takes routing 2 0 3 1 ⟨0, route 0, .waiting⟩ ∧ routeBad routing 0 routeJob = false ∧
    Clean routing (routeWords routing (route 0)) ∧ (routeRun routing 1 (route 0)).fault = none ∧
    (∀ x ∈ (routeRun routing 1 (route 0)).cells, ∀ r ∈ rInputs routing (routing.tensor 0 21).desc (routing.tensor 0 22).desc (route 0) ++
      (routeRun routing 1 (route 0)).open_, x.1 < r.1 ∨ r.1 + r.2 ≤ x.1) ∧ rStatus (route 0) = 0 ∧
    cellsOk routing 1 (routeRun routing 1 (route 0)).cells = true ∧
    cellsOk (routing.setRegion 1 { routing.region 1 with write := false }) 1 (routeRun routing 1 (route 0)).cells = false ∧
    jobOf withRoute 2 0 = none := by
  unfold Takes Clean; decide +kernel
def routingBad : State := queued withRoute 2 0 (route 0xF)
theorem witness_route_bad : Takes routingBad 2 0 3 1 ⟨0, route 0xF, .waiting⟩ ∧
    routeBad routingBad 0 (jobFrom routingBad 3 1 ⟨0, route 0xF, .waiting⟩) = true ∧ (routingBad.ctx 1).mode = .active := by
  unfold Takes; decide +kernel
/-- The same with an index that names no row of the source. -/
def routingOut : State := queued (writeBytes withRoute 0x10000000A000 [1, 0, 0, 0]) 2 0 (route 0)
theorem witness_route_index : Takes routingOut 2 0 3 1 ⟨0, route 0, .waiting⟩ ∧
    routeBad routingOut 0 (jobFrom routingOut 3 1 ⟨0, route 0, .waiting⟩) = false ∧ Clean routingOut (routeWords routingOut (route 0)) ∧
    (routeRun routingOut 1 (route 0)).fault.isSome = true ∧
    ¬ Clean (upsetWords routing [⟨0x10000000A000, .uncorrectable⟩]) (routeWords routing (route 0)) := by unfold Takes Clean; decide +kernel
/-- The engine whose descriptor has issued its last access. -/
def routed : State := withRoute.setEngine (engineKey 2 0) { ending := [jobIn (route 0) .dataDone] }
theorem witness_routeComplete : (routed.engine (engineKey 2 0)).ending = [jobIn (route 0) .dataDone] ∧ unitHeld routed 2 0 = false ∧
    SignalsTake routed (route 0) ∧ (routed.ctx 1).mode = .active := by unfold SignalsTake; decide +kernel

/-- An optimizer descriptor of a rule and flags over tensors 31 and 32, gated by gate 63 or not, and its tensors. -/
def optimizer (rule flags : Nat) (count : Nat) : List Byte :=
  fields 128 (headFields rule ++ [(2, 1, flags), (3, 1, if flags = 1 then 63 else 0), (28, 4, 5), (32, 4, 31), (36, 4, 32), (88, 8, count)])
def snapshot : List Byte := fields 128 (headFields 0xF ++ [(3, 1, 63), (96, 8, loamAt)])
def withOpt : State :=
  let s := withTally.setTensor 0 31 { present := true, ctx := 1, desc := { id := 31, format := 0x50, base := 0x100000010000, auxAddr := 0x100000011000, dim0 := 128 } }
  let s := s.setTensor 0 32 { present := true, ctx := 1, desc := { id := 32, base := 0x100000012000, dim0 := 128 } }
  s.setGate 0 63 { present := true, ctx := 1, rowId := 7, scaleLog := 3, down := 1, up := 1, interval := 1, lastStep := 4, lastDecision := 1 }
def optJob (b : List Byte) (phase : JobPhase) : State := running_ withOpt 4 0 (jobIn b phase)
theorem witness_opt_bad : let b := optimizer 3 0 0
    Takes (queued withOpt 4 0 b) 4 0 3 1 ⟨0, b, .waiting⟩ ∧
    optBad (queued withOpt 4 0 b) (jobFrom (queued withOpt 4 0 b) 3 1 ⟨0, b, .waiting⟩) = true ∧
    ((queued withOpt 4 0 b).ctx 1).mode = .active := by unfold Takes; decide +kernel
theorem witness_opt_gated : let b := optimizer 2 1 128
    Takes (queued withOpt 4 0 b) 4 0 3 1 ⟨0, b, .waiting⟩ ∧
    optBad (queued withOpt 4 0 b) (jobFrom (queued withOpt 4 0 b) 3 1 ⟨0, b, .waiting⟩) = false ∧ oGated b = true := by
  unfold Takes; decide +kernel
def optRun : State := queued withOpt 4 0 (optimizer 2 0 128)
def optTaken : Job := jobFrom optRun 3 1 ⟨0, optimizer 2 0 128, .waiting⟩
theorem witness_opt : Takes optRun 4 0 3 1 ⟨0, optimizer 2 0 128, .waiting⟩ ∧ optBad optRun optTaken = false ∧
    unitHeld optRun 4 0 = false ∧ oGated (optimizer 2 0 128) = false ∧ oSnap (optimizer 2 0 128) = false ∧ oClip (optimizer 2 0 128) = false ∧
    Clean optRun (optRanges optRun optTaken) ∧
    cellsOk optRun 1 ((optOutputs optRun optTaken (.fin false 1) none 0).1.flatMap (fun x => x.2.cells)) = true ∧
    ¬ Clean (upsetWords optRun [⟨0x100000010000, .uncorrectable⟩]) (optRanges optRun optTaken) := by
  unfold Takes Clean; decide +kernel
def skipJob : Job := { jobIn (optimizer 2 1 128) .running with decision := 2 }
theorem witness_opt_skip : let s := running_ withOpt 4 0 skipJob
    jobOf s 4 0 = some skipJob ∧ oSnap skipJob.bytes = false ∧ skipJob.phase = .running ∧ oGated skipJob.bytes = true ∧
    2 ≤ skipJob.decision ∧ unitHeld s 4 0 = false := by decide +kernel
def stepJob : Job := { skipJob with decision := 1, unscale := 3 }
theorem witness_opt_step : let s := running_ withOpt 4 0 stepJob
    jobOf s 4 0 = some stepJob ∧ stepJob.decision < 2 ∧ oClip stepJob.bytes = false ∧ Clean s (optRanges s stepJob) ∧
    cellsOk s 1 ((optOutputs s stepJob (.fin false (pow2 (-3))) none 0).1.flatMap (fun x => x.2.cells)) = true := by
  unfold Clean; decide +kernel
theorem witness_opt_complete : let b := optimizer 2 1 128
    jobOf (optJob b .dataDone) 4 0 = some (jobIn b .dataDone) ∧ unitHeld (optJob b .dataDone) 4 0 = false ∧ SignalsTake (optJob b .dataDone) b ∧
    ((optJob b .dataDone).ctx 1).mode = .active := by unfold SignalsTake; decide +kernel
theorem witness_gate : let b := optimizer 2 1 128
    jobOf (optJob b .waitGate) 4 0 = some (jobIn b .waitGate) ∧ unitHeld (optJob b .waitGate) 4 0 = false ∧ ((optJob b .waitGate).gate 0 (oGate b)).group = false ∧
    ((optJob b .waitGate).gate 0 (oGate b)).lastStep < oStep b ∧ ((optJob b .waitGate).ctx 1).mode = .active := by decide +kernel
theorem witness_gate_decided : let g := withOpt.gate 0 63
    g.lastDecision ≠ 0 ∧ oStep (fields 128 [(28, 4, 4)]) = g.lastStep ∧ oStep (fields 128 [(28, 4, 3)]) < g.lastStep := by decide +kernel
def snapping : State := queued withOpt 4 0 snapshot
theorem witness_gateSnapshot : Takes snapping 4 0 3 1 ⟨0, snapshot, .waiting⟩ ∧
    optBad snapping (jobFrom snapping 3 1 ⟨0, snapshot, .waiting⟩) = false ∧ oSnap snapshot = true ∧ unitHeld snapping 4 0 = false ∧
    writeOk snapping 1 (oAux snapshot) 8 = true ∧ (snapping.queue 3).cq = some hostArg ∧ isHostAddr hostArg = true ∧
    SignalsTake snapping snapshot := by unfold Takes SignalsTake; decide +kernel

/-! ### The collective engine (R299 to R323) -/

/-- A REDUCE descriptor, or another operation, over the group record 4 of the section with tensors 41 and 42 in Loam. -/
def coll (op : Nat) : List Byte :=
  fields 128 (headFields op ++ [(3, 1, 0xFF), (6, 2, 4), (28, 4, 5), (40, 4, 41), (44, 4, 42), (56, 8, 4), (96, 4, 1)])
def lone : List RankEntry := [⟨0xFFFF, 0xFF, [], false⟩]
/-- A group of one rank, or of two whose second is a child over link 2 or in the same module. -/
def family (route : Nat) : List RankEntry := [⟨0xFFFF, 0xFF, [(1, route)], false⟩, ⟨0, route, [], false⟩]
def commState (x : Comm) : State :=
  let s := (withTally.setTally 5 { present := true, gen := 1, ctx := 1, part := 0 }).setTensor 0 41 { present := true, ctx := 1, desc := { id := 41, format := 0x10, base := 0x100000004000, dim0 := 4 } }
  let s := s.setTensor 0 42 { present := true, ctx := 1, desc := { id := 42, format := 0x10, base := 0x100000005000, dim0 := 4 } }
  s.setComm 0 4 x
def aComm : Comm := { present := true, ctx := 1, group := 9, tallyBase := 2, tables := [lone] }
def bComm (route : Nat) : Comm := { aComm with p := 2, tables := [family route] }
def collState (x : Comm) (b : List Byte) : State := queued (commState x) 3 0 b
def collJobOf (x : Comm) (b : List Byte) : Job := collStart (collState x b) 0 (jobFrom (collState x b) 3 1 ⟨0, b, .waiting⟩)
theorem witness_collective_stale : Takes (collState { aComm with stale := true } (coll 0)) 3 0 3 1 ⟨0, coll 0, .waiting⟩ ∧
    ((collState { aComm with stale := true } (coll 0)).ctx 1).mode = .active ∧
    ((collState { aComm with stale := true } (coll 0)).comm 0 (cComm (coll 0))).present = true ∧
    ((collState { aComm with stale := true } (coll 0)).comm 0 (cComm (coll 0))).stale = true := by
  unfold Takes; decide +kernel
theorem witness_collective_bad : Takes (collState aComm (coll 5)) 3 0 3 1 ⟨0, coll 5, .waiting⟩ ∧
    ((collState aComm (coll 5)).ctx 1).mode = .active ∧ ((collState aComm (coll 5)).comm 0 (cComm (coll 5))).stale = false ∧
    collBad (collState aComm (coll 5)) 0 (collJobOf aComm (coll 5)) = true := by unfold Takes; decide +kernel
theorem witness_collective : Takes (collState aComm (coll 0)) 3 0 3 1 ⟨0, coll 0, .waiting⟩ ∧
    ((collState aComm (coll 0)).ctx 1).mode = .active ∧ ((collState aComm (coll 0)).comm 0 (cComm (coll 0))).stale = false ∧
    collBad (collState aComm (coll 0)) 0 (collJobOf aComm (coll 0)) = false ∧
    Clean (collState aComm (coll 0)) (collReads (collEnv (collState aComm (coll 0)) 0 (collJobOf aComm (coll 0)))) := by
  unfold Takes Clean; decide +kernel
theorem witness_chunk_link : let s := (commState (bComm 2)).modTally (arrivalTally (bComm 2) 0 1) (fun t => { t with count := 1 })
    let x := s.comm 0 4
    x.present = true ∧ jobOf s 3 0 = none ∧ x.stale = false ∧
    (x.staged.filter (fun c => c.table == 0 && c.peer == peerNum (.child 0))).length < 4 ∧
    (peerRoute x 0 (peerNum (.child 0))).2 < 8 ∧
    tabGet 0 x.seen (arrivalTally x 0 (peerNum (.child 0))) < (s.tally (arrivalTally x 0 (peerNum (.child 0)))).count := by decide +kernel
theorem witness_chunk_mesh : let s := commState { bComm 0xFF with transit := [⟨0, 1, [], []⟩] }
    let x := s.comm 0 4
    let y := s.tally (arrivalTally x 0 (peerNum (.child 0)))
    jobOf s 3 0 = none ∧ unitHeld s 3 0 = false ∧ 8 ≤ (peerRoute x 0 (peerNum (.child 0))).2 ∧
    x.transit.find? (fun c => c.table == 0 && c.peer == peerNum (.child 0)) = some ⟨0, 1, [], []⟩ ∧
    y.present = true ∧ y.abandoned = false ∧ y.count < 0xFFFFFFFF ∧ (s.ctx y.ctx).marks = [] := by decide +kernel
theorem witness_credit : let s := (commState { bComm 2 with used := [(1, 3)] }).modTally (creditTally (bComm 2) 0 1) (fun t => { t with count := 1 })
    let x := s.comm 0 4
    x.present = true ∧ jobOf s 3 0 = none ∧ tabGet 0 x.used (peerKey 0 (peerNum (.child 0))) = 2 + 1 ∧
    (peerRoute x 0 (peerNum (.child 0))).2 < 8 ∧
    tabGet 0 x.seen (creditTally x 0 (peerNum (.child 0))) < (s.tally (creditTally x 0 (peerNum (.child 0)))).count := by decide +kernel
theorem witness_credit_mesh : let s := commState { bComm 0xFF with used := [(1, 3)], credits := [(1, 1)] }
    let s := s.setTally (creditTally (bComm 0xFF) 0 1) { present := true, gen := 1, ctx := 1 }
    let x := s.comm 0 4
    let y := s.tally (creditTally x 0 (peerNum (.child 0)))
    tabGet 0 x.used (peerKey 0 (peerNum (.child 0))) = 2 + 1 ∧ tabGet 0 x.credits (peerKey 0 (peerNum (.child 0))) = 0 + 1 ∧
    8 ≤ (peerRoute x 0 (peerNum (.child 0))).2 ∧ unitHeld s 3 0 = false ∧
    y.present = true ∧ y.abandoned = false ∧ y.count < 0xFFFFFFFF ∧ (s.ctx y.ctx).marks = [] := by decide +kernel
def collRunning (j : Job) : State := running_ (commState aComm) 3 0 j
theorem witness_collectiveComplete : let s := collRunning (jobIn (coll 0) .dataDone)
    jobOf s 3 0 = some (jobIn (coll 0) .dataDone) ∧ unitHeld s 3 0 = false ∧
    SignalsTake s (coll 0) ∧ (s.queue 3).cq = some hostArg ∧ isHostAddr hostArg = true ∧ cStats (coll 0) = false := by
  unfold SignalsTake; decide +kernel
theorem witness_collWait : let j := { jobIn (coll 0) .running with coll := { chunkWait := true } }
    jobOf (collRunning j) 3 0 = some j ∧ j.reported = false ∧ j.coll.chunkWait = true ∧ ((collRunning j).ctx 1).mode = .active := by
  decide +kernel
theorem witness_collQueued : let b := fields 128 (headFields 0 ++ [(8, 2, 2), (16, 4, 5)])
    collQueued (collState aComm b) 0 = some 1 ∧ jobOf (collState aComm b) 3 0 = none := by decide +kernel
theorem witness_collective_waits : ∃ s j y, s = collState (bComm 2) (coll 0) ∧ j = collJobOf (bComm 2) (coll 0) ∧ y = collEnv s 0 j ∧
    Takes s 3 0 3 1 ⟨0, coll 0, .waiting⟩ ∧ collBad s 0 j = false ∧ Clean s (collReads y) ∧
    (y.stage j.coll).isSome = true ∧ ∀ st, y.stage j.coll = some st → stageDone y j.coll st = false ∧
      ∀ n ∈ stageTables y st, tryUp { s := s, r := j.coll, j := j } y st n = none ∧ tryDown { s := s, r := j.coll, j := j } y st n = none := by
  refine ⟨_, _, _, rfl, rfl, rfl, ?_, ?_, ?_, ?_, ?_⟩
  · unfold Takes; decide +kernel
  · decide +kernel
  · unfold Clean; decide +kernel
  · decide +kernel
  · intro st h
    have e : st = ⟨.all, false⟩ := Option.some.inj (h.symm.trans (by decide +kernel))
    subst e; decide +kernel

/-! ### Links: descriptors and messages (R272 to R295, R381) -/

/-- Link 2 of section 0 in a state of R285, with credit for both channels. -/
def linkIn (n : Nat) (s : State) : State :=
  (setLinkState s 2 n).setLink 2 { groupStarted := true, granted0 := 4096, granted1 := 256 }
/-- A transmit descriptor of 64 bytes of Loam, or one block of a tensor. -/
def transmit (op src len : Nat) : List Byte :=
  fields 64 (headFields op ++ [(28, 8, src), (36, 4, len), (40, 4, 9), (56, 2, 0xFFFF)])
def sendQueue (n op : Nat) : State := queued (linkIn n withTally) 5 2 (transmit op loamAt 64)
theorem witness_transmit_bad : Takes (sendQueue 4 3) 5 2 3 1 ⟨0, transmit 3 loamAt 64, .waiting⟩ ∧
    txBad (sendQueue 4 3) 2 (jobFrom (sendQueue 4 3) 3 1 ⟨0, transmit 3 loamAt 64, .waiting⟩) = true ∧
    ((sendQueue 4 3).ctx 1).mode = .active := by unfold Takes; decide +kernel
/-- A transmit descriptor that is sound, whose reads are allowed and clean, and whose blocks match. -/
def TxReady (s : State) (b : List Byte) : Prop :=
  Takes s 5 2 3 1 ⟨0, b, .waiting⟩ ∧ txBad s 2 (jobFrom s 3 1 ⟨0, b, .waiting⟩) = false ∧
  (∀ r ∈ txRanges s (jobFrom s 3 1 ⟨0, b, .waiting⟩), readOk s 1 r.1 r.2 = true) ∧
  Clean s (txReads s (jobFrom s 3 1 ⟨0, b, .waiting⟩)) ∧ txMismatch s (jobFrom s 3 1 ⟨0, b, .waiting⟩) 0 false = none
theorem witness_transmit_waits : ∃ s, s = sendQueue 3 1 ∧ TxReady s (transmit 1 loamAt 64) ∧ linkState s 2 ≠ 4 := by
  refine ⟨_, rfl, ?_⟩; unfold TxReady Takes Clean; decide +kernel
theorem witness_transmit : ∃ s, s = sendQueue 4 1 ∧ TxReady s (transmit 1 loamAt 64) ∧ linkState s 2 = 4 ∧
    (s.link 2).waiting = [] ∧ (s.link 2).parts = [] ∧ txOp (transmit 1 loamAt 64) = 1 ∧ txLen (transmit 1 loamAt 64) ≤ 65536 ∧
    msgSlots (txLen (transmit 1 loamAt 64)) ≤ creditOf (s.link 2) 0 ∧
    (s.link 2).retry.length + ceilDiv (32 + txLen (transmit 1 loamAt 64)) flitPayload ≤ 256 := by
  refine ⟨_, rfl, ?_⟩; unfold TxReady Takes Clean; decide +kernel
theorem witness_transmit_upset : ∃ s, s = upsetWords (sendQueue 4 1) [⟨loamAt, .uncorrectable⟩] ∧
    ¬ Clean s (txReads s (jobFrom s 3 1 ⟨0, transmit 1 loamAt 64, .waiting⟩)) := by
  refine ⟨_, rfl, ?_⟩; unfold Clean; decide +kernel
def sending (n : Nat) (j : Job) : State := running_ (linkIn n withTally) 5 2 j
theorem witness_transmit_acked : let j := jobIn (transmit 1 loamAt 64) .dataDone
    jobOf (sending 4 j) 5 2 = some j ∧ ((sending 4 j).link 2).waiting = [] ∧ ((sending 4 j).link 2).parts = [] ∧
    unitHeld (sending 4 j) 5 2 = false ∧ SignalsTake (sending 4 j) j.bytes ∧
    linkState (sending 4 j) 2 = 4 ∧ ((sending 4 j).ctx 1).mode = .active := by unfold SignalsTake; decide +kernel
/-- A BLOCK of a tensor with checksums, one block of 32 bytes at 0x1000, its checksum stored (`crcStored`) or not. -/
def blockJob : Job := { jobIn (fields 64 (headFields 2 ++ [(28, 8, 0x1000), (36, 4, 4096), (40, 4, 9), (56, 2, 0xFFFF)])) (.reread 0) with ctx := 1 }
def blockSend (s : State) : State := running_ (linkIn 3 s) 5 2 blockJob
theorem witness_transmit_reread : jobOf (blockSend crcStored) 5 2 = some blockJob ∧
    ((txBlocks (blockSend crcStored) blockJob).filterMap id)[0]? = some (0, 0x1000, 32) ∧
    ((blockSend crcStored).ctx 1).mode = .active ∧ jobStopped (blockSend crcStored) blockJob = false ∧
    txMismatch (blockSend crcStored) blockJob 1 false = none ∧ linkState (blockSend crcStored) 2 ≠ 4 ∧ inHbm 0x1000 32 = true := by
  decide +kernel

/-- A WRITE of four bytes at offset 16 to region 0 of `ready`, at an epoch, with a generation and a destination tag. -/
def writeHead (kind gen epoch off : Nat) : List Byte :=
  fields 32 [(0, 1, 1), (2, 2, 1), (4, 4, epoch), (8, 4, 4), (12, 8, kind * 2 ^ 56 + gen * 2 ^ 24), (20, 8, off), (28, 2, 2), (30, 2, 3)]
def four : List Byte := [1, 2, 3, 4]
def linkUp : State := linkIn 4 withTally
/-- Context 1 in group 9 at epoch 6, link 2 a member. -/
def inGroup (s : State) : State :=
  (s.setGroup 9 { present := true, epoch := 6, mask := 4 }).modCtx 1 (fun x => { x with group := some 9 })
def aDest : MsgDest := ⟨1, 16, 4, true, none⟩
theorem witness_write : linkTakes linkUp 2 = true ∧ headerBad (writeHead 4 1 0 16) = false ∧ hType (writeHead 4 1 0 16) = 1 ∧
    hLength (writeHead 4 1 0 16) = four.length ∧ overCredit linkUp 2 four = false ∧ (linkUp.link 2).held = none ∧ (linkUp.link 2).behind = [] ∧ recvOpen linkUp 2 = true ∧ isReplaying linkUp 1 = false ∧
    linkPart linkUp 2 = some 0 ∧ writeDest linkUp 0 (writeHead 4 1 0 16) = .ok aDest ∧
    (linkUp.ctx 1).group = none ∧ hEpoch (writeHead 4 1 0 16) = 0 ∧ rangeOk linkUp 2 0 (writeHead 4 1 0 16) aDest = true ∧
    (linkUp.ctx 1).log = none ∧ (linkUp.tally 2).abandoned = false ∧ (linkUp.tally 2).count + 3 ≤ 0xFFFFFFFF ∧
    (linkUp.ctx (linkUp.tally 2).ctx).marks = [] := by decide +kernel
theorem witness_write_bad : headerBad (writeHead 3 1 0 16) = false ∧ hLength (writeHead 3 1 0 16) = four.length ∧
    writeDest linkUp 0 (writeHead 3 1 0 16) = .bad ∧ linkTakes (linkIn 5 withTally) 2 = true ∧
    writeDest (linkIn 5 withTally) 0 (writeHead 3 1 0 16) = .bad := by decide +kernel
theorem witness_write_stale : headerBad (writeHead 4 2 0 16) = false ∧ writeDest linkUp 0 (writeHead 4 2 0 16) = .stale := by
  decide +kernel
theorem witness_write_range : let h := writeHead 4 1 0 0x100000000
    headerBad h = false ∧ writeDest linkUp 0 h = .ok ⟨1, 0x100000000, 4, false, none⟩ ∧
    rangeOk linkUp 2 0 h ⟨1, 0x100000000, 4, false, none⟩ = false := by decide +kernel
theorem witness_write_future : headerBad (writeHead 4 1 7 16) = false ∧ writeDest (inGroup linkUp) 0 (writeHead 4 1 7 16) = .ok aDest ∧
    ((inGroup linkUp).ctx 1).group = some 9 ∧ bitOf ((inGroup linkUp).group 9).mask.toNat 2 = true ∧
    ((inGroup linkUp).group 9).epoch < hEpoch (writeHead 4 1 7 16) ∧ linkTakes (inGroup linkUp) 2 = true ∧
    overCredit (inGroup linkUp) 2 four = false ∧ linkPart (inGroup linkUp) 2 = some 0 := by decide +kernel

/-- A BLOCK of tensor 9: 4,096 bytes to the tensor's one block of 32 bytes, its checksum a number. -/
def blockHead (crc : Nat) : List Byte :=
  fields 32 [(0, 1, 2), (2, 2, 1), (8, 4, 4096), (12, 4, 9), (24, 4, crc), (28, 2, 0xFFFF)]
def blockUp : State := linkIn 4 crcStored
def blockBytes : List Byte := List.replicate 4096 7
theorem blockHead_crc (c : Nat) (h : c < 2 ^ 32) : hCrc (blockHead c) = c := by
  have e : hCrc (blockHead c) = leNat (leBytes 4 c) := rfl
  rw [e, leNat_leBytes, Nat.mod_eq_of_lt h]
def blockDst : MsgDest := ⟨1, 0x1000, 32, true, some crcTensor⟩
theorem witness_block (c : Nat) : linkTakes blockUp 2 = true ∧ headerBad (blockHead c) = false ∧
    hType (blockHead c) = 2 ∧ hLength (blockHead c) = blockBytes.length ∧ overCredit blockUp 2 blockBytes = false ∧
    (blockUp.link 2).held = none ∧ (blockUp.link 2).behind = [] ∧ recvOpen blockUp 2 = true ∧ isReplaying blockUp 1 = false ∧ linkPart blockUp 2 = some 0 ∧ blockDest blockUp 0 (blockHead c) = .ok blockDst ∧
    (blockUp.ctx 1).group = none ∧ hEpoch (blockHead c) = 0 ∧ rangeOk blockUp 2 0 (blockHead c) blockDst = true := by
  have e : blockBytes.length = 4096 := List.length_replicate
  have l : hLength (blockHead c) = 4096 := rfl
  refine ⟨by decide +kernel, rfl, rfl, l.trans e.symm, ?_, by decide +kernel, by decide +kernel, by decide +kernel, by decide +kernel, by decide +kernel, ?_, by decide +kernel, rfl, ?_⟩
  · unfold overCredit msgSlots; rw [e]; decide +kernel
  · unfold blockDest
    rw [show hTensor (blockHead c) = 9 from rfl, show hBlock (blockHead c) = 0 from rfl, show hTag (blockHead c) = 1 from rfl]
    decide +kernel
  · have f : rangeOk blockUp 2 0 (blockHead c) blockDst = rangeOk blockUp 2 0 (blockHead 0) blockDst := rfl
    rw [f]; decide +kernel
theorem blockOk_head (c : Nat) (hc : c < 2 ^ 32) :
    blockOk crcTensor (blockHead c) blockBytes = ((blockCrc 9 0 0 blockBytes).toNat == c) := by
  have v : crcTensor.desc.version.toNat = hVersion (blockHead c) := rfl
  rw [blockOk, blockHead_crc c hc, v, show hTensor (blockHead c) = 9 from rfl, show hBlock (blockHead c) = 0 from rfl,
    show BitVec.ofNat 32 (hVersion (blockHead c)) = 0 from rfl, beq_self_eq_true, Bool.true_and]
theorem other_crc (x : Nat) : ∃ c, c < 2 ^ 32 ∧ (x == c) = false := by
  by_cases h : x = 0
  · exact ⟨1, by decide, by rw [h]; rfl⟩
  · exact ⟨0, by decide, beq_eq_false_iff_ne.2 h⟩
theorem witness_block_good : ∃ c, c < 2 ^ 32 ∧ blockOk crcTensor (blockHead c) blockBytes = true ∧ (blockUp.ctx 1).log = none ∧
    hTally (blockHead c) = 0xFFFF ∧ blockDst.bytes ≤ blockBytes.length ∧
    blockDst.addr + blockDst.bytes ≤ crcTensor.homeDesc.crcAddr + 4 * hBlock (blockHead c) := by
  refine ⟨(blockCrc 9 0 0 blockBytes).toNat, BitVec.isLt _, ?_, by decide +kernel, rfl, ?_, ?_⟩
  · rw [blockOk_head _ (BitVec.isLt _), beq_self_eq_true]
  · rw [show blockBytes.length = 4096 from List.length_replicate]; decide
  · rw [show hBlock (blockHead (blockCrc 9 0 0 blockBytes).toNat) = 0 from rfl]; decide +kernel
theorem witness_block_crc : (∃ c, c < 2 ^ 32 ∧ blockOk crcTensor (blockHead c) blockBytes = false) ∧
    (blockUp.ctx 1).mode = .active := by
  obtain ⟨c, h, e⟩ := other_crc (blockCrc 9 0 0 blockBytes).toNat
  exact ⟨⟨c, h, (blockOk_head c h).trans e⟩, by decide +kernel⟩

/-- A REFUSE, EPOCH_NOTICE or ABORT of group 9 at an epoch. -/
def control (type epoch : Nat) : List Byte := ctrlHeader type 0 epoch 9 []
theorem witness_control : linkTakes (inGroup linkUp) 2 = true ∧ (∀ t ∈ [0x10, 0x11, 0x12], headerBad (control t 7) = false ∧ hType (control t 7) = t) ∧
    (((inGroup linkUp).link 2).ctrl.filter (fun t => decide ((inGroup linkUp).now < t + 100000))).length < 128 ∧
    hGroup (control 0x11 7) = 9 ∧ ((inGroup linkUp).group 9).present = true ∧ ((inGroup linkUp).group 9).epoch < hEpoch (control 0x11 7) ∧
    bitOf ((inGroup linkUp).group 9).mask.toNat 2 = true ∧ ((inGroup linkUp).ctx 1).mode = .active ∧
    ((inGroup linkUp).ctx 1).group = some 9 ∧ bitOf (linkUp.group 9).mask.toNat 2 = false := by decide +kernel
def holding : State := (inGroup linkUp).modLink 2 (fun x => { x with held := some ⟨writeHead 4 1 7 16, four, [], 0, 7, 9⟩, inUse0 := 1 })
theorem witness_grace_held : (holding.link 2).held = some ⟨writeHead 4 1 7 16, four, [], 0, 7, 9⟩ ∧ (holding.link 2).behind = [] := by
  decide +kernel
def passing : State := (inGroup linkUp).setGroup 9 { present := true, epoch := 6, mask := 4, passing := some 7 }
theorem witness_grace_passed : (passing.group (9 : Word32).toNat).passing = some 7 ∧ (passing.group (9 : Word32).toNat).present = true ∧
    (passing.group (9 : Word32).toNat).epoch < 7 ∧ (passing.ctx 1).mode = .active ∧ (passing.ctx 1).group = some 9 := by decide +kernel
/-- A data flit of sequence 0 with the whole payload padding; it acknowledges nothing. -/
def flitBody : List Byte := fields 632 [(0, 1, 1), (4, 2, 65535), (6, 2, 0xFFFF)]
def aFlit : List Byte := flitBody ++ leBytes 4 (crc32c flitBody).toNat ++ leBytes 4 0
theorem flitBody_length : flitBody.length = 632 := by decide +kernel
theorem take_le (n : Nat) : (leBytes 4 n ++ leBytes 4 0).take 4 = leBytes 4 n := rfl
theorem flit_crc (b : List Byte) (h : b.length = 632) : flitCrcOk (b ++ leBytes 4 (crc32c b).toNat ++ leBytes 4 0) = true := by
  rw [List.append_assoc]
  generalize hn : (crc32c b).toNat = n
  have hl : n < 2 ^ 32 := hn ▸ BitVec.isLt _
  have a : (b ++ (leBytes 4 n ++ leBytes 4 0)).take 632 = b := by rw [← h, List.take_left]
  have d : (b ++ (leBytes 4 n ++ leBytes 4 0)).drop 632 = leBytes 4 n ++ leBytes 4 0 := by rw [← h, List.drop_left]
  rw [flitCrcOk, fieldAt, a, d, take_le, leNat_leBytes, Nat.mod_eq_of_lt hl, hn, beq_self_eq_true]
theorem aFlit_crc : flitCrcOk aFlit = true := flit_crc _ flitBody_length
def flitUp : State := { linkUp with module := { linkUp.module with released := true } }
theorem witness_flit : (flitUp.link 2).rxSync = true ∧ (flitUp.link 2).parts = [] ∧ linkAlive flitUp 2 = true ∧ linkTakes flitUp 2 = true ∧ (flitUp.link 2).nakSet = false ∧
    flitBad aFlit = false ∧ fieldAt aFlit 0 1 = 1 ∧ bitOf (fieldAt aFlit 1 1) 0 = false ∧
    fieldAt aFlit 2 2 = ((flitUp.link 2).rxSeq + 1) % 65536 ∧ fieldAt aFlit 6 2 = 0xFFFF ∧ (flitUp.link 2).rxStream = [] ∧
    fieldAt aFlit 8 2 = (flitUp.link 2).partnerFreed0 % 65536 ∧ fieldAt aFlit 10 2 = (flitUp.link 2).partnerFreed1 % 65536 ∧
    (flitUp.link 2).partnerFreed0 ≤ (flitUp.link 2).sent0 ∧ (flitUp.link 2).partnerFreed1 ≤ (flitUp.link 2).sent1 ∧
    (flitUp.link 2).waiting = [] := by decide +kernel
theorem witness_flit_bad : (flitUp.link 2).badWords = [] ∧ flitCrcOk [1] = false ∧ linkTakes (linkIn 2 withTally) 2 = false ∧
    linkAlive (linkIn 2 flitUp) 2 = true ∧ fieldAt aFlit 2 2 ≠ (7 + 1) % 65536 := by decide +kernel
theorem witness_write_waits : recvOpen (linkUp.setPart 0 { linkUp.part 0 with winter := true }) 2 = false ∧
    (isReplaying (linkUp.setCtx 1 { linkUp.ctx 1 with replay := some logOf }) 1 = true) ∧
    overCredit (linkUp.modLink 2 (fun x => { x with inUse0 := 4096 })) 2 four = true := by decide +kernel

/-! ### Links: records, timers, training, loop-back (R283 to R297), and memory upkeep (R56 to R70) -/

/-- Link 2 of an operational module, its group started, in a state of R285. -/
def at_ (n : Nat) : State := let s := linkIn n withTally
  { s with module := { s.module with released := true } }
/-- A partner's record of a kind. -/
def partnerRecord (kind : Byte) : LinkRecord :=
  { kind := kind, protoMin := 0x10, protoMax := 0x10, rates := 7, moduleId := 77, link := 5, moduleState := 1, slots0 := 4096,
    slots1 := 256, hbCount := 0, lanes := 1 }
def checked (s : State) : State := (s.setFld fLnkCfgExpectCheck 0 2 1).modLink 2 (fun x => { x with expectId := 78 })
def notOperational (s : State) : State := s.setPart 0 { s.part 0 with mode := .handover }
theorem witness_records : ∀ n ∈ [2, 3, 4, 5], linkAlive (at_ n) 2 = true ∧ linkState (at_ n) 2 = n ∧ takesRecords (at_ n) 2 = true ∧ ((at_ n).link 2).retryBad = [] ∧
    (∀ k ∈ [1, 2, 3, 4, 5], identityChanged (at_ n) 2 (partnerRecord (BitVec.ofNat 8 k)) = false ∧
      recordOk (partnerRecord (BitVec.ofNat 8 k)) k = true) := by decide +kernel
theorem witness_negotiate : sharesMajor (partnerRecord 1) = true ∧ wrongPartner (at_ 2) 2 (partnerRecord 1) = false ∧
    moduleReady (at_ 2) 2 = true ∧ sharesMajor { partnerRecord 1 with protoMin := 0x20, protoMax := 0x20 } = false ∧
    recordOk { partnerRecord 1 with protoMin := 0x20, protoMax := 0x20 } 1 = true ∧
    wrongPartner (checked (at_ 2)) 2 (partnerRecord 1) = true ∧ linkAlive (checked (at_ 2)) 2 = true ∧
    linkState (checked (at_ 2)) 2 = 2 ∧ moduleReady (notOperational (at_ 3)) 2 = false ∧ linkState (notOperational (at_ 3)) 2 = 3 ∧
    wrongPartner (notOperational (at_ 3)) 2 (partnerRecord 1) = false := by decide +kernel
def lanes (n v : Nat) : State := (at_ n).setFld fLnkStatusLanes 0 2 v
theorem witness_degrade : linkLanes (lanes 4 3) 2 &&& bitsOf (partnerRecord 4).lanes.toNat 1 0 = 1 ∧ linkLanes (lanes 4 3) 2 = 3 ∧
    linkLanes (lanes 5 2) 2 &&& bitsOf (partnerRecord 4).lanes.toNat 1 0 = 0 ∧ linkLanes (lanes 5 2) 2 = 2 ∧
    linkState (lanes 4 3) 2 = 4 ∧ linkState (lanes 5 2) 2 = 5 := by decide +kernel
theorem witness_linkTimers : linkAlive (at_ 7) 2 = true ∧ linkState (at_ 7) 2 = 7 ∧ ((at_ 7).link 2).partnerFenced = false ∧
    linkState (at_ 2) 2 = 2 ∧ linkState (at_ 3) 2 = 3 ∧ moduleReady (at_ 2) 2 = true ∧ moduleReady (at_ 3) 2 = true ∧
    linkState (at_ 4) 2 = 4 := by decide +kernel
def half : State := (at_ 1).modLink 2 (fun x => { x with lanesLocked := 1 })
theorem witness_laneLock : ∀ s ∈ [at_ 0, half], linkAlive s 2 = true ∧ (s.link 2).startLoop = false ∧ (s.link 2).retired = 0 ∧
    (linkState s 2 = 0 ∨ linkState s 2 = 1) ∧ linkRate s 2 = (0 : Fin 3).val ∧
    max (s.link 2).tryRate (s.fld fLnkCfgRateCap 0 2) ≤ 0 ∧ bitOf (s.link 2).partnerRates 0 = true := by decide +kernel
theorem witness_laneLock_last : 2 ^ (0 : Fin 2).val &&& (3 - ((at_ 0).link 2).retired) ≠ 3 - ((at_ 0).link 2).retired ∧
    linkState half 2 = 1 ∧ ((half.link 2).lanesLocked ||| 2 ^ (1 : Fin 2).val) &&& (3 - (half.link 2).retired) = 3 - (half.link 2).retired := by
  decide +kernel
def oneLane : State := (at_ 4).modLink 2 (fun x => { x with retired := 1 })
theorem witness_laneRetire : ((at_ 4).link 2).retryBad = [] ∧ bitOf ((at_ 4).link 2).retired (0 : Fin 2).val = false ∧
    (3 - ((at_ 4).link 2).retired) &&& (3 - 2 ^ (0 : Fin 2).val) ≠ 0 ∧ linkAlive oneLane 2 = true ∧ linkState oneLane 2 = 4 ∧
    bitOf (oneLane.link 2).retired (1 : Fin 2).val = false ∧ (3 - (oneLane.link 2).retired) &&& (3 - 2 ^ (1 : Fin 2).val) = 0 := by
  decide +kernel
theorem witness_retraining : linkTakes (at_ 4) 2 = true ∧ linkAlive (at_ 4) 2 = true ∧ linkState (at_ 6) 2 = 6 ∧
    linkState (at_ 1) 2 = 1 := by decide +kernel
def free_ (n : Nat) : State := (at_ n).setPart 0 {}
def looping_ : State := (free_ 8).setFld fLnkLoopStart 0 2 1
theorem witness_loop : linkPart (at_ 0) 2 = some 0 ∧ linkPart (free_ 0) 2 = none ∧ linkState (free_ 0) 2 ≠ 7 ∧
    linkPart (free_ 8) 2 = none ∧ linkState (free_ 8) 2 = 8 ∧ bitsOf (1 : Word).toNat 1 0 ≠ 0 ∧ bitsOf (0 : Word).toNat 1 0 = 0 ∧
    looping_.fld fLnkLoopStart 0 2 = 1 ∧ (looping_.link 2).startLoop = false := by decide +kernel

def stackFree : State := ready.setPart 0 {}
def stackLooping : State := stackFree.setFld fHbmLoopStart 0 1 1
theorem witness_hbmLoop : hbmOnline ready 1 = true ∧ hbmOnline stackFree 1 = false ∧ 1 ≤ bitsOf (0x8001 : Word).toNat 1 0 ∧
    bitsOf (0x8001 : Word).toNat 1 0 ≤ 2 ∧ bitsOf (0x8001 : Word).toNat 11 8 ≤ 4 ∧ bitOf (0x8001 : Word).toNat 15 = true ∧
    stackLooping.fld fHbmLoopStart 0 1 = 1 := by decide +kernel
theorem witness_scrub : scrubAllowed ready 0 = true ∧
    tabGet false ready.mem.poisoned (loamAddr 0 (16 * tabGet 0 ready.mem.scrubLoam 0) / 16) = false ∧ hbmTrained ready 1 = true ∧
    tabGet false ready.mem.poisoned ((1 * stackBytes + 16 * tabGet 0 ready.mem.scrubHbm 1) / 16) = false ∧
    refreshAllowed ready 1 = true := by decide +kernel
def winterPart : State :=
  (ready.setPart 0 { ready.part 0 with winter := true, table := some ⟨1, false, 1, 8, [], []⟩ }).setFld fHbmStatusRefDouble 0 1 1
theorem witness_unscheduled : secPart winterPart 0 = some 0 ∧ winterPart.alive = true ∧ hbmTrained winterPart 1 = true ∧
    (winterPart.part 0).winter = true ∧ ((winterPart.part 0).table.map (·.double)) = some false ∧
    winterPart.fld fHbmStatusRefDouble 0 1 = 1 := by decide +kernel

/-! ### Holds, replays, teardown, partition resets (R245 to R268, R385 to R424) -/

/-- A Winter partition with causes, held or not. -/
def withCauses (held : Bool) (l : List HoldCause) : State :=
  ready.setPart 0 { ready.part 0 with winter := true, held := held, holdStart := 12, causes := l }
theorem witness_holdStart : let s := withCauses false [⟨2, 5, some 288, 1⟩]
    (s.part 0).present = true ∧ (s.part 0).winter = true ∧ (s.part 0).held = false ∧ holdBegun (s.part 0) (aCycles s) = true := by
  decide +kernel
theorem witness_holdEnd : let s := withCauses true [⟨2, 12, some 288, 1⟩, ⟨1, 12, some 400, 0⟩]
    (s.part 0).held = true ∧ (∀ c ∈ (s.part 0).causes, c.length ≠ none) ∧ holdStop (s.part 0) ≤ aCycles s := by decide +kernel
def longHeld : State := withCauses true [⟨2, 12, some 288, 1⟩, ⟨3, 12, none, 0⟩]
theorem witness_holdLimit : (longHeld.part 0).held = true ∧
    (⟨3, 12, none, 0⟩ : HoldCause) ∈ (longHeld.part 0).causes ∧ (⟨3, 12, none, 0⟩ : HoldCause).field = (2 : Fin 7).val + 1 ∧ (⟨3, 12, none, 0⟩ : HoldCause).length = none := by
  decide +kernel

/-- Context 1 replays a log in Loam that holds one write of 64 bytes to 0x2000, at work cycle 0 or 100; or nothing. -/
def logBytes (cycle : Nat) : List Byte := fields 128 [(0, 1, 3), (6, 2, 1), (8, 8, cycle), (40, 8, 0x2000), (48, 4, 4), (64, 4, 0x04030201)]
def aLog : Log := ⟨loamAt, 4096, 0, 0, true, false⟩
def replayed (l : List Byte) : State := (writeBytes ready loamAt l).modCtx 1 (fun x => { x with replay := some aLog })
theorem witness_replay : ∀ l ∈ [logBytes 0, logBytes 100, []], ((replayed l).ctx 1).replay = some aLog ∧
    ((replayed l).ctx 1).mode = .active ∧ running (replayed l) = true ∧ ((replayed l).ctx 1).log = none ∧
    (∀ x ∈ (replayed l).host.commands, x.kind ≠ .rplReplay 1) := by decide +kernel
theorem witness_replay_due : logEnds (replayed []) aLog aLog.pos = true ∧ logEnds (replayed (logBytes 100)) aLog aLog.pos = false ∧
    recordDue (replayed (logBytes 100)) 0 (readBytes (replayed (logBytes 100)) (aLog.base + aLog.pos) 64) = false := by decide +kernel
theorem witness_replay_write : ∃ s, s = replayed (logBytes 0) ∧
    logEnds s aLog aLog.pos = false ∧ recordDue s 0 (readBytes s (aLog.base + aLog.pos) 64) = true ∧
    Clean s [(aLog.base + aLog.pos, 64 + 4)] ∧ ¬ Clean (upsetWords s [⟨loamAt, .uncorrectable⟩]) [(aLog.base + aLog.pos, 64 + 4)] ∧
    (let r := readBytes s (aLog.base + aLog.pos) 64
     let data := readBytes s (aLog.base + aLog.pos + 64) (min (fieldAt r 48 4) (64 * fieldAt r 6 2))
     fieldAt r 0 1 = 3 ∧ data = [1, 2, 3, 4] ∧ inPartition s 0 (fieldAt r 40 8) data.length = true) := by
  refine ⟨_, rfl, ?_⟩; unfold Clean; decide +kernel

/-- Context 1 is stopping, or draining, with a tally, a region and a queue. -/
def leaving (mode : CtxMode) : State :=
  (withTally.setQueue 3 { present := true, gen := 1, part := 0, kind := 1, ctx := some 1, cq := some hostArg, mode := .disabled }).modCtx 1
    (fun x => { x with mode := mode })
theorem witness_teardown : ((leaving .stopping).ctx 1).mode = .stopping ∧ ctxIdle (leaving .stopping) 1 = true ∧
    ((leaving .stopping).region 1).present = true ∧ ((leaving .stopping).region 1).ctx = 1 ∧ ((leaving .stopping).region 2).ctx ≠ 1 ∧
    ((leaving .stopping).tally 2).present = true ∧ ((leaving .stopping).tally 2).ctx = 1 ∧
    ((leaving .stopping).queue 3).present = true ∧ ((leaving .stopping).queue 3).ctx = some 1 ∧
    ((leaving .draining).ctx 1).mode = .draining := by decide +kernel
theorem witness_partitionFatal : secPart ready 7 = none ∧ secPart ready 0 = some 0 ∧ (ready.part 0).stage = .none ∧
    (ready.part 0).mode = .active ∧ (ready.ctx 1).mode = .active ∧ (ready.ctx 1).part = 0 := by decide +kernel
def inStage (mode : PartMode) (stage : PartStage) : State :=
  noSession.setPart 0 { noSession.part 0 with mode := mode, stage := stage, isSealed := true }
theorem witness_partitionReset : ((inStage .active .resetting).part 0).stage = .resetting ∧
    ((inStage .active .resetting).part 0).mode = .active ∧
    (partCtxs (inStage .active .resetting) 0).all (fun c => ((inStage .active .resetting).ctx c).mode != .stopping) = true ∧
    0 ∈ maskSecs ((inStage .active .resetting).part 0).mask := by decide +kernel
theorem witness_scrubComplete : ((inStage .handover .scrubbing).part 0).stage = .scrubbing ∧
    ((inStage .handover .scrubbing).part 0).mode = .handover ∧ ((inStage .destroying .scrubbing).part 0).stage = .scrubbing ∧
    ((inStage .destroying .scrubbing).part 0).mode = .destroying ∧ ((inStage .destroying .scrubbing).fn 0).part = some 0 ∧
    0 ∈ maskSecs ((inStage .destroying .scrubbing).part 0).mask := by decide +kernel

/-! ### Gravel slices, power, sensors (R453 to R473) -/

/-- Section 0 between slices, or with slice 0 running at corner 1, or taking its witness for one. -/
def slicing (g : Gravel) : State := { withTally with care := { withTally.care with gravel := [(0, g)] } }
theorem witness_gravelStart : sliceSection (slicing {}) 0 = true ∧ ((slicing {}).gravel 0).running = none ∧
    ((slicing {}).gravel 0).witnessSlice = false ∧ (slicing {}).fld fHltGravelCfgCorners 0 0 ≠ 0 ∧ inWinter (slicing {}) 0 = false ∧
    ((slicing {}).gravel 0).owed = [] ∧ sliceReady (slicing {}) 0 ((slicing {}).fld fHltGravelPosNext 0 0) = true ∧
    sliceNow (slicing {}) 0 ((slicing {}).fld fHltGravelPosNext 0 0) = true ∧
    cornerHolds (slicing {}) 0 (rotationCorner (slicing {}) 0) (65535 : Half).toNat (0 : Half).toNat = true := by decide +kernel
theorem witness_gravelBusy : let s := (slicing {}).setCore 0 { units := [(0, .gravel)] }
    sliceSection s 0 = true ∧ s.fld fHltGravelCfgCorners 0 0 ≠ 0 ∧ sliceReady s 0 (s.fld fHltGravelPosNext 0 0) = false := by
  decide +kernel
theorem witness_gravelWaits : ∀ w : Bool, let s := slicing { rotation := 2, waited := w }
    (s.gravel 0).waited = w ∧ sliceSection s 0 = true ∧ sliceReady s 0 (s.fld fHltGravelPosNext 0 0) = true ∧
    sliceNow s 0 (s.fld fHltGravelPosNext 0 0) = true ∧ cornerHolds s 0 (rotationCorner s 0) (0 : Half).toNat (65535 : Half).toNat = false := by decide +kernel
theorem witness_gravelMissed : let s := (slicing {}).setPart 0 { (slicing {}).part 0 with winter := true }
    sliceSection s 0 = true ∧ inWinter s 0 = true ∧ sliceWindow s 0 (s.fld fHltGravelPosNext 0 0) = false := by decide +kernel
def inSlice (j : Nat) : State := slicing { running := some (j, 1) }
theorem witness_gravelEnd : ((inSlice 0).gravel 0).running = some (0, 1) ∧ (sliceUnit 0).1 ≠ 4 ∧
    (∃ w : Word32, w = Config.gravelSignature (sliceUnit 0).1 (sliceUnitNum 0) 1) ∧
    (∃ w : Word32, w ≠ Config.gravelSignature (sliceUnit 0).1 (sliceUnitNum 0) 1) :=
  ⟨by decide +kernel, by decide, ⟨_, rfl⟩, ⟨~~~ Config.gravelSignature (sliceUnit 0).1 (sliceUnitNum 0) 1, fun h => by
    have := congrArg (fun x => x.getLsbD 0) h
    simp at this⟩⟩
theorem witness_gravelAbandon : let s := (inSlice 0).setSlot 0 7 { loaded := true, launched := true, ctx := 1 }
    (s.gravel 0).running = some (0, 1) ∧ inWinter s 0 = false ∧ (sliceUnit 0).1 ≠ 4 ∧
    criticalReady s (12 * 0 + (sliceUnit 0).2.1) = true := by decide +kernel
def offline : State := (slicing {}).setFld fNumCfgWitOffline 0 0 1
theorem witness_witnessSlice : sliceSection offline 0 = true ∧ offline.fld fNumCfgWitOffline 0 0 = 1 ∧
    (offline.gravel 0).running = none ∧ sliceNow offline 0 84 = true ∧ (∃ w : Word32, w = Config.gravelSignature 4 0 0) ∧
    (∃ w : Word32, w ≠ Config.gravelSignature 4 0 0) :=
  ⟨by decide +kernel, by decide +kernel, by decide +kernel, by decide +kernel, ⟨_, rfl⟩, ⟨~~~ Config.gravelSignature 4 0 0, fun h => by
    have := congrArg (fun x => x.getLsbD 0) h
    simp at this⟩⟩

def winterNow : State := ready.setPart 0 { ready.part 0 with winter := true }
theorem witness_arbiter : running ready = true ∧ running winterNow = true ∧ anyWinter winterNow = true := by decide +kernel
def slewing : State := (ready.setFld fClkStatusSlewing 0 0 1).setFld fClkStatusTarget 0 0 2
theorem witness_clockSlew : running slewing = true ∧ slewing.fld fClkStatusSlewing 0 0 = 1 := by decide +kernel
def braking : State := ready.setFld fPwrStatusEmergency 0 0 1
theorem witness_emergency : ready.fld fPwrStatusEmergency 0 0 = 0 ∧ running braking = true ∧
    braking.fld fPwrStatusEmergency 0 0 = 1 := by decide +kernel
theorem witness_mgmtCap : running ready = true ∧ 5000000 ≤ ready.now ∧ moduleState ready ≠ 2 := by decide +kernel

/-- Sensors at 90 °C on every die and stack in the last round, and at 120 °C. -/
def warm (v : Half) (t : Byte) : State :=
  { ready with power := { ready.power with dieLast := List.replicate 80 v, stackLast := List.replicate 24 t } }
theorem witness_sensors : running (warm 720 90) = true ∧
    thermalTrip (warm 720 90) (List.replicate 80 720) (List.replicate 24 90) = none ∧
    (warm 720 90).power.stackLast[1]? = some 90 ∧ (List.replicate 24 (90 : Byte))[1]? = some 90 ∧ 85 < (90 : Byte).toNat ∧
    (thermalTrip (warm 960 90) (List.replicate 80 960) (List.replicate 24 90)).isSome = true ∧ running (warm 960 90) = true := by
  decide +kernel
theorem witness_supply : running ready = true ∧ (37999 < 38000 ∧ 62000 < 62001 ∧ 38000 ≤ 38000 ∧ 62000 ≤ 62000) := by decide +kernel

/-! ### Management, attestation, debug (R474 to R482) -/

def anImage (svn : Nat) : FwImage := { digest := 0, signatureOk := true, keySlot := some 0, svn := svn, version := 0, build := 0 }
theorem witness_firmware : mctpUp ready = true ∧ imageGood ready.flash (anImage 3) = true ∧ imageGood ready.flash (anImage 64) = false ∧
    mctpUp State.reset = false := by decide +kernel
theorem witness_pldmSensor : mctpUp ready = true ∧ ready.module.cfgReady = true ∧ moduleState ready ≠ 2 ∧
    mctpUp (notOperational { ready with module := { ready.module with grants := 2 } }) = true ∧
    moduleState ((ready.setFld fFltStatusModuleState 0 0 2)) = 2 ∧
    ({ (ready.setFld fFltStatusModuleState 0 0 2) with module := { ready.module with grants := 2 } } : State).module.grants < 2 + (1 : Sec).val := by
  decide +kernel
/-- A channel with a connection. -/
def talking (c : SpdmConn) : State := { ready with security := { ready.security with spdm := [(chanKey .mctp, c)] } }
def agreed : SpdmConn := { version := 0x13, algorithms := true }
theorem witness_attestation : chanUp ready .mctp = true ∧ chanUp ready (.doe 0) = true ∧
    ((talking { version := 0x12 }).spdm (chanKey .mctp)).version ≠ 0 ∧ chanUp (talking { version := 0x12 }) .mctp = true ∧
    (0x4B44 ∈ [(0x4B44 : Half)] ∧ 0x4B53 ∈ [(0x4B53 : Half)] ∧ (0x4B44 : Half) ∉ [(1 : Half)]) ∧
    ((talking agreed).spdm (chanKey .mctp)).algorithms = true ∧
    ((talking { agreed with session := some 5 }).spdm (chanKey .mctp)).session = some 5 ∧
    ((talking { agreed with session := some 5 }).spdm (chanKey .mctp)).finished = false ∧
    ((talking { agreed with session := some 5 }).spdm (chanKey .mctp)).algorithms = true ∧
    ((talking { agreed with session := some 5, finished := true }).spdm (chanKey .mctp)).finished = true ∧
    ((talking { agreed with session := some 5, finished := true }).spdm (chanKey .mctp)).algorithms = true := by decide +kernel
theorem witness_measurements : measureList (talking agreed) false (measureIndices (talking agreed) 1) =
    [(1, digestBytes (Config.measurement 1 []))] ∧ chanUp (talking agreed) .mctp = true := ⟨rfl, by decide +kernel⟩
theorem witness_debugToken : anySealed sealedPart = true ∧ mctpUp sealedPart = true ∧ anySealed ready = false ∧ mctpUp ready = true := by
  decide +kernel
theorem witness_tap : State.reset.module.powered = true ∨ ready.module.powered = true := by decide +kernel
def powered (verified : Bool) (n : Nat) : State :=
  ({ ready with module := { ready.module with powered := true, fwVerified := verified } } : State).setFld fFltStatusModuleState 0 0 n
theorem witness_extest : (powered false 2).module.powered = true ∧ moduleState (powered false 2) = 2 ∧
    (powered false 2).module.fwVerified = false ∧ moduleState (powered true 1) ≠ 2 ∧ (powered true 1).module.powered = true := by
  decide +kernel

/-! ### The whole block: the step, refusals, tokens, answers -/

theorem witness_inv : Machine.Inv ready ∧ ∃ t, step ready = .next t := ⟨by unfold Machine.Inv; decide +kernel, ⟨_, rfl⟩⟩
theorem witness_step : ({ ready with pending := [.mgmtCapSet 2000] } : State).pending = .mgmtCapSet 2000 :: [] ∧ ready.pending = [] ∧
    (({ ready with module := { ready.module with powered := true } } : State).module.powered && !ready.module.off && ready.module.released) = true ∧
    State.reset.pending = [] ∧ (State.reset.module.powered && !State.reset.module.off && State.reset.module.released) = false := by
  decide +kernel
def onQueue : Req := ⟨0, .queue 2 7, 0, []⟩
def inState (n : Nat) : State := ready.setFld fFltStatusModuleState 0 0 n
theorem witness_refusals : caocoOf (.tallySet carrier (handle 3 2) 5) = some (carrier, 0x2E, [handle 3 2, 5]) ∧
    ((before carrier 0x2E [handle 3 2, 5] noSession).fn 0).session = none ∧
    caocoOf (.ping onQueue 7) = some (onQueue, 0x03, [7]) ∧ ((before onQueue 0x03 [7] withCmdq).fn 0).session.isSome = true ∧
    onQueue.via = .queue 2 7 ∧
    (∀ n ∈ [2, 3, 4], moduleState (before carrier 0x2E [handle 3 2, 5] (inState n)) = n ∧
      ((before carrier 0x2E [handle 3 2, 5] (inState n)).fn 0).session.isSome = true) ∧ carrier.via = .mbx 0 0 none := by decide +kernel
/-- A create with a token, first sent, and sent again. -/
def tokenCarrier : Req := ⟨0, .mbx 0 0 (some 0x20000), 9, []⟩
def tallyArgs : List Word := [ctxHandle, 1, 0xFF, 0xFFFFFFFF]
def remembered : State := { withTally with host := { withTally.host with tokens := [⟨0, 0x2D, 9, handle 3 2⟩] } }
theorem witness_token_again : let b := before tokenCarrier 0x2D tallyArgs remembered
    gateRc (cmdOf tokenCarrier 0x2D tallyArgs) b = none ∧
    b.host.tokens.find? (fun t => t.fn == tokenCarrier.fn.val && t.opcode == 0x2D && t.token == tokenCarrier.token && tokenLive b t) =
      some ⟨0, 0x2D, 9, handle 3 2⟩ ∧ tokenCarrier.token ≠ 0 := by decide +kernel
theorem witness_token_first : let b := before tokenCarrier 0x2D tallyArgs ready
    gateRc (cmdOf tokenCarrier 0x2D tallyArgs) b = none ∧ b.host.tokens = [] ∧
    Accepted refuseTallyCreate tokenCarrier 0x2D tallyArgs ready :=
  ⟨by decide +kernel, by decide +kernel, accepts (by decide +kernel)⟩
def acked (n : Nat) : State := ready.setFld fMbxInAckValid 0 0 n
theorem witness_publications : (cmdOf carrier 0x2E []).via = .mbx 0 0 none ∧ hasReply (cmdOf carrier 0x2E []).op = false ∧
    (acked 1).fld fMbxInAckValid 0 0 = 1 ∧ (acked 0).fld fMbxInAckValid 0 0 ≠ 1 ∧
    (cmdOf tokenCarrier 0x2D tallyArgs).via = .mbx 0 0 (some 0x20000) ∧ (ready.fn 0).busMaster = true := by decide +kernel
def oneEntry : State := (ready.setFn 0 { ready.fn 0 with cmdq := some 2 }).setQueue 2
  { present := true, gen := 1, part := 0, cq := some hostArg, mode := .enabled, m := 64, tail := 8, consumed := 8, entries := [⟨7, [], .running⟩] }
theorem witness_publication_queue : (cmdOf onQueue 0x2E []).via = .queue 2 7 ∧
    (oneEntry.queue 2).entries = [⟨(7 : Word32).toNat, [], .running⟩] ∧ (oneEntry.queue 2).recordsAllowed = true ∧
    (oneEntry.queue 2).cq = some hostArg ∧ cqRoom (oneEntry.queue 2) = true ∧ (oneEntry.fn (oneEntry.queue 2).fn).busMaster = true := by
  decide +kernel
theorem witness_deposit : answers ready 0 = true ∧ icvarRuns ready = true ∧ mbxBusy ready 0 0 = false ∧
    (ready.setFld fMbxInStatusFull 0 0 1).fld fMbxInStatusFull 0 0 = 1 ∧ answers (ready.setFld fMbxInStatusFull 0 0 1) 0 = true ∧
    ready.fld fMbxInStatusFull 0 0 = 0 := by decide +kernel
theorem witness_refusals_replay : ((before carrier 0x2E [handle 3 2, 5] replaying).ctx 1).owner = 0 ∧
    ((before carrier 0x2E [handle 3 2, 5] replaying).ctx 1).replay.isSome = true ∧
    moduleState (before carrier 0x2E [handle 3 2, 5] replaying) ∉ [2, 3, 4] := by decide +kernel

/-! ### WellFormed: one term for each check, which the check refuses -/

theorem wf_carrier : Instr.wf (.ping carrier 7) = true ∧ Instr.wf (.tallySet ⟨0, .mbx 0 0 (some 0x20000), 9, []⟩ 1 2) = true := by
  decide +kernel
theorem wf_hit_aligned : Instr.wf (.bar2Read 0 0 8 [⟨8, .uncorrectable⟩]) = false := by decide +kernel
theorem wf_hit_once : Instr.wf (.bar2Read 0 0 8 [⟨16, .uncorrectable⟩, ⟨16, .corrected 0⟩]) = false := by decide +kernel
theorem wf_host : Instr.wf (.queueFetch 0 [(2 ^ 63, 0)] false []) = false ∧ Instr.wf (.ping ⟨0, .queue 0 0, 0, [(2 ^ 63, 0)]⟩ 7) = false ∧
    Instr.wf (.mailboxTake 0 0 [(2 ^ 63, 0)] false none []) = false := by decide +kernel
theorem wf_short_block : Instr.wf (.ping ⟨0, .mbx 0 0 (some 4096), 0, []⟩ 7) = false := by decide +kernel
theorem wf_short_token : Instr.wf (.ping ⟨0, .mbx 0 0 none, 1, []⟩ 7) = false := by decide +kernel
theorem wf_block_none : Instr.wf (.memFlush ⟨0, .mbx 0 0 none, 0, []⟩) = false := by decide +kernel
theorem wf_block_aligned : Instr.wf (.memFlush ⟨0, .mbx 0 0 (some 64), 0, []⟩) = false := by decide +kernel
theorem wf_block_zero : Instr.wf (.memFlush ⟨0, .mbx 0 0 (some 0), 0, []⟩) = false := by decide +kernel
theorem wf_block_far : Instr.wf (.memFlush ⟨0, .mbx 0 0 (some (2 ^ 60)), 0, []⟩) = false := by decide +kernel
theorem wf_config : Instr.wf (.pcieConfigRequest 0 (.read 2)) = false ∧ Instr.wf (.pcieConfigRequest 0 (.write 2 0)) = false := by decide +kernel
theorem wf_access : Instr.wf (.registerWrite 0 8 0 0 0) = false ∧ Instr.wf (.registerWrite 0 8 9 0 0) = false ∧
    Instr.wf (.rcRegisterRead 0 (2 ^ 28) 8 []) = false ∧ Instr.wf (.rcRegisterRead 0 8 8 [(64, 1)]) = false := by decide +kernel
theorem wf_doorbell : Instr.wf (.doorbell 0 0 []) = false ∧ Instr.wf (.doorbell 0 (2 ^ 28) [0]) = false := by decide +kernel
theorem wf_bar2 : Instr.wf (.bar2Read 0 0 0 []) = false ∧ Instr.wf (.bar2Read 0 0 4097 []) = false ∧ Instr.wf (.bar2Write 0 0 [] []) = false := by
  decide +kernel
theorem wf_index : Instr.wf (.waitLimitReport 0 (2 ^ 32)) = false ∧ Instr.wf (.waitTimeout (.tile 0 (2 ^ 32))) = false ∧
    Instr.wf (.tileIssue 0 [] (2 ^ 32) ⟨false, []⟩) = false := by decide +kernel
theorem wf_message : Instr.wf (.msgRefuse 0 []) = false ∧ Instr.wf (.msgWrite 0 (List.replicate 32 0) [] [0]) = false := by decide +kernel
theorem wf_flit : Instr.wf (.flitReceive 0 true false ⟨0, [0], []⟩) = false := by decide +kernel
theorem wf_bounds : Instr.wf (.tileIssue 0 [] 0 ⟨false, [⟨65536, 0, 0⟩]⟩) = false ∧ Instr.wf (.linkTransmit 0 [] false ⟨false, [256]⟩) = false ∧
    Instr.wf (.witnessCheckDone 0 ⟨[⟨65536, 0, 0⟩], []⟩ ⟨0, 0, 0, 0, 0⟩) = false ∧
    Instr.wf (.flitReceive 0 true false ⟨0, List.replicate 640 0, [616]⟩) = false := by decide +kernel
theorem wf_latency : Instr.wf (.laneLock 0 0 0 (2 ^ 16)) = false ∧ Instr.wf (.linkRetrainEnd 0 true (2 ^ 16)) = false := by decide +kernel
theorem wf_loop : Instr.wf (.lnkLoopDone 0 (2 ^ 32) 0 true true) = false ∧ Instr.wf (.hbmLoopDone 0 0 (2 ^ 16)) = false := by decide +kernel
theorem wf_power : Instr.wf (.arbiterPeriod ⟨0, 0, 0, [], []⟩) = false ∧ Instr.wf (.sensorRead [] []) = false ∧
    Instr.wf (.supplyTrip .over (2 ^ 16) true) = false ∧ Instr.wf (.mgmtCapSet (2 ^ 16)) = false := by decide +kernel
theorem wf_management : Instr.wf (.pldmFirmwareUpdate (anImage (2 ^ 32))) = false ∧ Instr.wf (.mctpControl 0 (List.replicate 65 0)) = false := by
  decide +kernel
theorem wf_spdm : Instr.wf (.getCertificate .mctp 8 0 0) = false ∧ Instr.wf (.getCertificate .mctp 0 (2 ^ 16) 0) = false ∧
    Instr.wf (.challenge .mctp 0 []) = false ∧ Instr.wf (.getMeasurements .mctp 256 false) = false ∧
    Instr.wf (.keyExchange .mctp 8 0 []) = false := by decide +kernel
theorem wf_tap : Instr.wf (.tapSamplePreload [true] []) = false := by decide +kernel

/-! ### The worked examples of the spec, and results computed by hand from its rules -/

/-- "Decoding an HBM address" and "Decoding a Loam address" (02_loam_and_hbm.md). -/
theorem test_hbm_address : stackOf 0x009600000000 = 10 ∧ stackOff 0x009600000000 = 0xFD070000 ∧ 0x009600000000 / sectionHbm = 3 ∧
    0x009600000000 % sectionHbm / 4096 = 16661400 := by decide +kernel
theorem test_loam_address : loamPlace 0x100123456780 1 = some (4, 0x23456780) := by decide +kernel
/-- "The binary32 value 0.1 converts to E4M3" and the tie at 1.0625 (03_number_formats.md). -/
theorem test_e4m3 : (convert fE4M3 (val32 0x3DCCCCCD) none).code = 0x1D ∧ (convert fE4M3 (val32 0x3F880000) none).code = 0x38 := by
  decide +kernel
/-- 460 rounds to 448; 470 saturates to 448 with a count (03_number_formats.md). -/
theorem test_e4m3_top : (convert fE4M3 (.fin false 460) none).code = 0x7E ∧ (convert fE4M3 (.fin false 460) none).cls = .plain ∧
    (convert fE4M3 (.fin false 470) none).code = 0x7E ∧ (convert fE4M3 (.fin false 470) none).cls = .saturated := by decide +kernel
/-- The gradient element 0x3FA6_6666 with u = 0x4000 and with u = 0x9000 (03_number_formats.md). -/
theorem test_stochastic : (convert fE4M3 (val32 0x3FA66666) (some 0x4000)).code = 0x3B ∧
    (convert fE4M3 (val32 0x3FA66666) (some 0x9000)).code = 0x3A := by decide +kernel
/-- The Kaolin-4 block whose largest magnitude is 5.0: UE5M3 scale 0x76, and the E8M0 field 127 (03_number_formats.md). -/
theorem test_block_scale : scaleUE5M3 fE2M1 (some 5) 1 = 0x76 ∧ scaleE8M0 fE2M1 (some 5) 1 = 127 := by decide +kernel
/-- Its elements at the scale 0.875: 0x7, 0x2, 0x9, 0x0. -/
theorem test_kaolin_elements : (convert fE2M1 (vdiv (.fin false 5) (scaleVal true 0x76)) none).code = 7 ∧
    (convert fE2M1 (vdiv (.fin false 1) (scaleVal true 0x76)) none).code = 2 ∧
    (convert fE2M1 (vdiv (.fin true (3 / 10)) (scaleVal true 0x76)) none).code = 9 ∧
    (convert fE2M1 (vdiv (.fin false (1 / 5)) (scaleVal true 0x76)) none).cls = .flushed := by decide +kernel
/-- The extended master 1.0 with 3 × 2⁻²⁹ added is f = 0x3F80_0000 with t = 0x0C (03_number_formats.md). -/
theorem test_extended_master : (convert fExt (vadd (.fin false 1) (.fin false (3 / 2 ^ 29))) none).code = 0x3F8000000C := by decide +kernel
/-- A PING's reply word is the word itself, and its acknowledgement counts one word taken (R340, R342, R367): by hand. -/
theorem test_ping : ∃ t, exec (.mailboxTake 0 7 [] false none []) pinged = .next t ∧
    t.raw ⟨.mbxOutWord, 0, 7⟩ = 0x03FFFFFFFFFFFFFF ∧ t.raw ⟨.mbxInAck, 0, 7⟩ = 0x800001FF00000000 := by
  refine ⟨_, rfl, ?_⟩; decide +kernel
/-- An add that reaches the tally and one that would pass 2³² − 1 (R157, R424): by hand. -/
theorem test_tallyAdd : ∃ t, exec (.tallyAdd 2 5 1) withTally = .next t ∧ (t.tally 2).count = 9 := by refine ⟨_, rfl, ?_⟩; decide +kernel
/-- A step on an empty queue of a released module moves its clock on by one reference cycle of 10 ns (R439, log entry 1). -/
theorem test_tick : ∃ t, step ready = .next t ∧ t.now = 6000000010 := by refine ⟨_, rfl, ?_⟩; decide +kernel
/-- The canonical split of 10 elements in granules of 4 over 3 ranks (R311): 3 granules, one each: by hand. -/
theorem test_split : canonicalSplit 10 4 3 = [0, 4, 8, 10] := by decide +kernel

end Sys2Proof.Tests
end

section
/-! Deposits into an inbound mailbox, and the take that follows (R339, R340). -/

namespace Sys2Proof.Machine

/-! ### The halves of a register -/

/-- The bits of a register that a write of these lanes covers. -/
def laneCovers : Lanes → Nat → Bool
  | .both, _ => true
  | .low, i => decide (i < 32)
  | .high, i => decide (32 ≤ i)

theorem getLsbD_lowMask {i : Nat} (hi : i < 64) : (0x00000000FFFFFFFF : Word).getLsbD i = decide (i < 32) := by
  have h : (0x00000000FFFFFFFF : Word) = BitVec.ofNat 64 (2 ^ 32 - 1) := by decide
  rw [h, BitVec.getLsbD_ofNat, Nat.testBit_two_pow_sub_one]
  simp [hi]

theorem getLsbD_highMask {i : Nat} (hi : i < 64) : (0xFFFFFFFF00000000 : Word).getLsbD i = decide (32 ≤ i) := by
  have h : (0xFFFFFFFF00000000 : Word) = ~~~0x00000000FFFFFFFF := by decide
  rw [h, BitVec.getLsbD_not, getLsbD_lowMask hi]
  simp [hi, ← decide_not]

/-- A write of some lanes takes the covered bits from the new value and the others from the old one. -/
theorem getLsbD_laneMix (old value : Word) (lanes : Lanes) {i : Nat} (hi : i < 64) :
    (laneMix old value lanes).getLsbD i = if laneCovers lanes i then value.getLsbD i else old.getLsbD i := by
  cases lanes with
  | both => rfl
  | low | high =>
    simp only [laneMix, laneCovers, BitVec.getLsbD_or, BitVec.getLsbD_and, getLsbD_lowMask hi, getLsbD_highMask hi]
    rcases Nat.lt_or_ge i 32 with h | h
    · simp [h, Nat.not_le.2 h]
    · simp [h, Nat.not_lt.2 h]

/-! ### Registers of another key -/

/-- A field of a register of another key than the one stored. -/
theorem fld_setRaw_key (s : State) {a : RegAt} {f : RField} {i j : Nat} (w : Word) (h : regKey a ≠ regKey ⟨f.reg, i, j⟩) :
    (s.setRaw a w).fld f i j = s.fld f i j := by
  simp only [State.fld, raw_setRaw_key s w h]

/-- Setting a field leaves the registers of other keys. -/
theorem raw_setFld_key (s : State) {f : RField} {i j : Nat} {b : RegAt} (v : Nat) (h : regKey ⟨f.reg, i, j⟩ ≠ regKey b) :
    (s.setFld f i j v).raw b = s.raw b := raw_setRaw_key s _ h

/-- Counting in a field leaves the registers of other keys. -/
theorem raw_bump_key (s : State) {f : RField} {i j : Nat} {b : RegAt} (n : Nat) (h : regKey ⟨f.reg, i, j⟩ ≠ regKey b) :
    (s.bump f i j n).raw b = s.raw b := raw_setFld_key s _ h

/-- Two fields of one register that share no bit. -/
abbrev FieldsApart (f g : RField) : Prop :=
  f.reg = g.reg ∧ f.lo ≤ f.hi ∧ f.hi < 64 ∧ g.hi < 64 ∧ (f.hi < g.lo ∨ g.hi < f.lo)

/-- Setting a field leaves a field apart from it. -/
theorem fld_setFld_apart (s : State) {f g : RField} (i j v : Nat) (h : FieldsApart f g) :
    (s.setFld f i j v).fld g i j = s.fld g i j := by
  obtain ⟨hr, hf, hf64, hg64, hd⟩ := h
  exact fld_setFld_bits s i j v hr hf hf64 hg64 hd

/-- Counting in a field leaves a field apart from it. -/
theorem fld_bump_apart (s : State) {f g : RField} (i j n : Nat) (h : FieldsApart f g) :
    (s.bump f i j n).fld g i j = s.fld g i j := fld_setFld_apart s i j _ h

/-- A mailbox's word and its status are two registers. -/
theorem regKey_mbxInWord_ne_mbxInStatus (f j : Nat) : regKey ⟨.mbxInWord, f, j⟩ ≠ regKey ⟨.mbxInStatus, f, j⟩ := by
  have hw : RegName.mbxInWord.num = RegName.mbxInStatus.num + 2 := by decide
  simp only [regKey]
  omega

/-! ### A deposit -/

section
variable {s : State} {f j : Nat} {lanes : Lanes} {value : Word}

/-- The state after the covered bits of a mailbox's word have been written, before the status follows. -/
def wordWritten (f j : Nat) (lanes : Lanes) (value : Word) (s : State) : State :=
  s.setRaw ⟨.mbxInWord, f, j⟩ (laneMix (s.raw ⟨.mbxInWord, f, j⟩) value lanes)

@[simp] theorem raw_wordWritten_word :
    (wordWritten f j lanes value s).raw ⟨.mbxInWord, f, j⟩ = laneMix (s.raw ⟨.mbxInWord, f, j⟩) value lanes :=
  raw_setRaw_same _ _ _

theorem raw_wordWritten_key {b : RegAt} (h : regKey b ≠ regKey ⟨.mbxInWord, f, j⟩) :
    (wordWritten f j lanes value s).raw b = s.raw b := raw_setRaw_key s _ h.symm

/-- Writing the word leaves the fields of the mailbox's status. -/
theorem fld_wordWritten_status {g : RField} (h : g.reg = .mbxInStatus) :
    (wordWritten f j lanes value s).fld g f j = s.fld g f j :=
  fld_setRaw_key s _ (h ▸ regKey_mbxInWord_ne_mbxInStatus f j)

/-- A write of the low half deposits nothing (R339). -/
theorem depositOp_low (h : answers s f = true) : depositOp f j .low value s = wordWritten f j .low value s := by
  simp only [depositOp, h, Bool.not_true, Bool.false_eq_true, if_false, if_true, wordWritten]

/-- A deposit sets FULL, or COLLIDE with its count where FULL is set already (R339). -/
theorem depositOp_of_ne_low (h : answers s f = true) (hl : lanes ≠ .low) : depositOp f j lanes value s =
    if s.fld fMbxInStatusFull f j = 1 then
      ((wordWritten f j lanes value s).setFld fMbxInStatusCollide f j 1).bump fMbxInStatusCollisions f j 1
    else (wordWritten f j lanes value s).setFld fMbxInStatusFull f j 1 := by
  have hf : (wordWritten f j lanes value s).fld fMbxInStatusFull f j = s.fld fMbxInStatusFull f j :=
    fld_wordWritten_status rfl
  rw [← hf]
  simp only [depositOp, h, hl, Bool.not_true, Bool.false_eq_true, if_false]
  rfl

/-- A write to the word changes, but for its status, only what the write of its bits changes. -/
theorem raw_depositOp_key (h : answers s f = true) {b : RegAt} (hb : regKey b ≠ regKey ⟨.mbxInStatus, f, j⟩) :
    (depositOp f j lanes value s).raw b = (wordWritten f j lanes value s).raw b := by
  by_cases hl : lanes = .low
  · rw [hl, depositOp_low h]
  · rw [depositOp_of_ne_low h hl]
    split
    · exact (raw_bump_key (f := fMbxInStatusCollisions) _ 1 hb.symm).trans
        (raw_setFld_key (f := fMbxInStatusCollide) _ 1 hb.symm)
    · exact raw_setFld_key (f := fMbxInStatusFull) _ 1 hb.symm

/-- The word that stands in the mailbox after a write to it (R339). -/
theorem raw_depositOp_word (h : answers s f = true) :
    (depositOp f j lanes value s).raw ⟨.mbxInWord, f, j⟩ = laneMix (s.raw ⟨.mbxInWord, f, j⟩) value lanes := by
  rw [raw_depositOp_key h (regKey_mbxInWord_ne_mbxInStatus f j), raw_wordWritten_word]

/-- After a deposit the mailbox is full (R339). -/
theorem full_depositOp (h : answers s f = true) (hl : lanes ≠ .low) :
    (depositOp f j lanes value s).fld fMbxInStatusFull f j = 1 := by
  rw [depositOp_of_ne_low h hl]
  split
  case isTrue hf =>
    rw [fld_bump_apart _ _ _ _ (by decide), fld_setFld_apart _ _ _ _ (by decide), fld_wordWritten_status rfl, hf]
  case isFalse => exact fld_setFld_same _ _ _ _ _ (by decide) (by decide)

/-- A deposit into a full mailbox sets COLLIDE (R339). -/
theorem collide_depositOp_full (h : answers s f = true) (hl : lanes ≠ .low) (hf : s.fld fMbxInStatusFull f j = 1) :
    (depositOp f j lanes value s).fld fMbxInStatusCollide f j = 1 := by
  rw [depositOp_of_ne_low h hl, if_pos hf, fld_bump_apart _ _ _ _ (by decide)]
  exact fld_setFld_same _ _ _ _ _ (by decide) (by decide)

/-- A deposit into a full mailbox is counted in COLLISIONS (R339). -/
theorem counted_depositOp_full (h : answers s f = true) (hl : lanes ≠ .low) (hf : s.fld fMbxInStatusFull f j = 1) :
    Counted s (depositOp f j lanes value s) fMbxInStatusCollisions f j 1 := by
  rw [Counted, depositOp_of_ne_low h hl, if_pos hf, fld_bump_same _ _ _ _ _ (by decide) (by decide),
    fld_setFld_apart _ _ _ _ (by decide), fld_wordWritten_status rfl]

/-- A deposit into an empty mailbox leaves every field of the status apart from FULL. -/
theorem fld_depositOp_empty (h : answers s f = true) (hl : lanes ≠ .low) (hf : s.fld fMbxInStatusFull f j = 0) {g : RField}
    (hg : FieldsApart fMbxInStatusFull g) : (depositOp f j lanes value s).fld g f j = s.fld g f j := by
  rw [depositOp_of_ne_low h hl, if_neg (by rw [hf]; decide),
    fld_setFld_apart _ _ _ _ hg, fld_wordWritten_status hg.1.symm]

/-- A write to the word changes registers alone. -/
theorem depositOp_only (f j : Nat) (lanes : Lanes) (value : Word) (s : State) : Only [.registers] s (depositOp f j lanes value s) :=
  only_mk (within_depositOp f j lanes value s (Within.refl s) (Nat.and_self _)) (by intro a; cases a <;> decide)

end

/-! ### The take that follows -/

section
variable {s t : State}

/-! Whether a mailbox is served, and what it shows, is told by the module, the functions and the registers. -/

theorem icvarRuns_congr (hm : Area.module.same s t) : icvarRuns t = icvarRuns s := by
  simp only [icvarRuns, running, State.alive, show t.module = s.module from hm]

theorem fn_congr (hf : Area.functions.same s t) (f : Nat) : t.fn f = s.fn f := by
  simp only [State.fn, (Prod.mk.inj hf).1]

theorem answers_congr (hm : Area.module.same s t) (hf : Area.functions.same s t) (f : Nat) : answers t f = answers s f := by
  simp only [answers, running, State.alive, show t.module = s.module from hm, fn_congr hf]

theorem mbxBusy_congr (hf : Area.functions.same s t) (f j : Nat) : mbxBusy t f j = mbxBusy s f j := by
  simp only [mbxBusy, fn_congr hf]

theorem raw_congr (hr : Area.registers.same s t) (a : RegAt) : t.raw a = s.raw a := by
  simp only [State.raw, show t.regs = s.regs from hr]

theorem fld_congr (hr : Area.registers.same s t) (g : RField) (i j : Nat) : t.fld g i j = s.fld g i j := by
  simp only [State.fld, raw_congr hr]

/-- Words that come to hold errors change memory alone. -/
theorem upsetWords_only (s : State) (hits : List Hit) : Only [.memory] s (upsetWords s hits) :=
  only_mk (within_upsetWords s hits (Within.refl s) (Nat.and_self _)) (by intro a; cases a <;> decide)

/-- A take of a full mailbox whose last command is published runs the word that stands there (R340). -/
theorem mailboxTakeOp_full {f : Nat} {j : Fin 8} (host : List Cell) (readError : Bool) (deposit : Option Word)
    (hi : icvarRuns s = true) (ha : answers s f = true) (hf : s.fld fMbxInStatusFull f j.val = 1) (hb : mbxBusy s f j.val = false) :
    mailboxTakeOp f j host readError deposit s =
      acceptWord f j (s.raw ⟨.mbxInWord, f, j.val⟩) true readError (takeWord f j.val deposit (hostStores s host)) := by
  simp only [mailboxTakeOp, hi, ha, hf, hb, Bool.not_true, Bool.or_false, Nat.one_ne_zero, decide_false,
    Bool.false_eq_true, if_false]

end

/-- A take after a whole deposit, whatever errors come into memory between them, runs the deposited word (R339, R340). -/
theorem mailboxTakeOp_depositOp {s : State} {f : Nat} {j : Fin 8} (value : Word) (host : List Cell) (readError : Bool)
    (deposit : Option Word) (hits : List Hit) (ha : answers s f = true) (hi : icvarRuns s = true)
    (hb : mbxBusy s f j.val = false) :
    let t := upsetWords (depositOp f j.val .both value s) hits
    mailboxTakeOp f j host readError deposit t =
      acceptWord f j value true readError (takeWord f j.val deposit (hostStores t host)) := by
  intro t
  have hd : Only [.registers] s (depositOp f j.val .both value s) := depositOp_only f j.val .both value s
  have hu : Only [.memory] (depositOp f j.val .both value s) t := upsetWords_only _ hits
  have hm : Area.module.same s t := Area.same_trans (hd .module (by decide)) (hu .module (by decide))
  have hf : Area.functions.same s t := Area.same_trans (hd .functions (by decide)) (hu .functions (by decide))
  have hr : Area.registers.same (depositOp f j.val .both value s) t := hu .registers (by decide)
  have hfull : t.fld fMbxInStatusFull f j.val = 1 := by rw [fld_congr hr, full_depositOp ha (by decide)]
  have hword : t.raw ⟨.mbxInWord, f, j.val⟩ = value := by rw [raw_congr hr, raw_depositOp_word ha]; rfl
  rw [mailboxTakeOp_full host readError deposit ((icvarRuns_congr hm).trans hi) ((answers_congr hm hf f).trans ha) hfull
    ((mbxBusy_congr hf f j.val).trans hb), hword]

/-- Settles O60, from what a deposit leaves in the word and in the fields of the status, and a take of a full mailbox. -/
theorem mailboxDeposits : Obligations.MailboxDeposits := by
  unfold Obligations.MailboxDeposits
  refine ⟨fun fn j lanes value s ha => ⟨depositOp fn.val j.val lanes value s, rfl, ?word, ?low, ?full, ?collide, ?empty, ?rest,
    depositOp_only fn.val j.val lanes value s⟩, fun fn j value s host readError hits ha hi hb =>
    ⟨depositOp fn.val j.val .both value s, rfl, ?take⟩⟩
  case word =>
    intro i hlt
    rw [raw_depositOp_word ha, getLsbD_laneMix _ _ _ hlt]
    cases lanes <;> rfl
  case low =>
    rintro rfl a hk
    rw [depositOp_low ha, raw_wordWritten_key hk]
  case full => exact full_depositOp ha
  case collide => exact fun hl hf => ⟨collide_depositOp_full ha hl hf, counted_depositOp_full ha hl hf⟩
  case empty =>
    exact fun hl hf => ⟨fld_depositOp_empty ha hl hf (by decide), fld_depositOp_empty ha hl hf (by decide)⟩
  case rest =>
    intro b hw hs
    rw [raw_depositOp_key ha hs, raw_wordWritten_key hw]
  case take => exact congrArg _ (mailboxTakeOp_depositOp value host readError none hits ha hi hb)

end Sys2Proof.Machine
end

section
/-! Create tokens: a create that repeats a current one is answered and not executed, and a create that makes its object leaves its
token (R376). -/

namespace Sys2Proof.Machine

/-- The opcodes of the commands that make an object (R377). -/
theorem isCreate_iff (op : Nat) : isCreate op = true ↔ op ∈ [0x10, 0x18, 0x20, 0x28, 0x2D, 0x30, 0x48, 0x50, 0x5A, 0x62] :=
  List.contains_iff_mem

/-- A row of a create runs its command in the state that the row is met in. -/
theorem exec_create {i : Instr} {rq : Req} {op : Nat} {args : List Word} (s : State) (hi : caocoOf i = some (rq, op, args))
    (hop : isCreate op = true) :
    ∃ refuse reads effect, exec i s = .next (runRowWith refuse reads effect op rq args s) := by
  cases i
  case cmdqOpen => cases hi; exact ⟨refuseCmdqOpen, noReads, effectCmdqOpen, rfl⟩
  case partCreate => cases hi; exact ⟨refusePartCreate, noReads, effectPartCreate, rfl⟩
  case ctxCreate => cases hi; exact ⟨refuseCtxCreate, noReads, effectCtxCreate, rfl⟩
  case queueCreate => cases hi; exact ⟨refuseQueueCreate, noReads, effectQueueCreate, rfl⟩
  case tallyCreate => cases hi; exact ⟨refuseTallyCreate, noReads, effectTallyCreate, rfl⟩
  case regionCreate => cases hi; exact ⟨refuseRegionCreate, noReads, effectRegionCreate, rfl⟩
  case tensorReg => cases hi; exact ⟨refuseTensorReg, regReads, effectTensorReg, rfl⟩
  case modelDefine => cases hi; exact ⟨refuseModelDefine, defineReads, effectModelDefine, rfl⟩
  case commCreate => cases hi; exact ⟨refuseCommCreate, commReads, effectCommCreate, rfl⟩
  case gateCreate => cases hi; exact ⟨refuseGateCreate, noReads, effectGateCreate, rfl⟩
  -- an event has no command, and every other command is no create
  all_goals cases hi <;> cases hop

/-- A command that comes through the shared checks and repeats a current create is answered with that create's result (R376). -/
theorem runRowWith_of_tokenHit {rq : Req} {op : Nat} {args : List Word} {s : State} {r : Word}
    (refuse : Cmd → State → Option Nat) (reads : Cmd → State → List (Word × Nat)) (effect : Cmd → State → CmdOut)
    (hg : gateRc (cmdOf rq op args) (before rq op args s) = none)
    (hr : tokenHit (before rq op args s) (cmdOf rq op args) = some r) :
    runRowWith refuse reads effect op rq args s =
      answerNow (cmdOf rq op args) (before rq op args s) 0 r (namedTag (before rq op args s) (cmdOf rq op args)) := by
  simp only [before] at hg hr
  simp only [runRowWith, runCmd, before, hg, hr]

/-! ### The list of tokens -/

section
variable {rq : Req} {op : Nat} {args : List Word} {b : State}

/-- A command without a token repeats no create. -/
theorem tokenHit_of_token_zero (h : rq.token = 0) : tokenHit b (cmdOf rq op args) = none := by
  simp [tokenHit, cmdOf, h]

theorem token_toNat_ne_zero (h : rq.token ≠ 0) : rq.token.toNat ≠ 0 := fun e => h (BitVec.eq_of_toNat_eq e)

/-- The carrier's token and a kept one are compared as words or as numbers alike. -/
theorem toNat_beq_token (t : CreateToken) (w : Word32) : (t.token.toNat == w.toNat) = (t.token == w) := by
  rw [Bool.eq_iff_iff, beq_iff_eq, beq_iff_eq, BitVec.toNat_inj]

/-- A create with a token repeats the first kept create of its function, opcode and token whose object is there. -/
theorem tokenHit_create (hop : isCreate op = true) (h : rq.token ≠ 0) : tokenHit b (cmdOf rq op args) =
    (b.host.tokens.find? (fun t => t.fn == rq.fn.val && t.opcode == op && t.token == rq.token && tokenLive b t)).map (·.result) := by
  have hn : rq.token.toNat ≠ 0 := token_toNat_ne_zero h
  simp only [tokenHit, cmdOf, hop, hn, toNat_beq_token, decide_false, Bool.not_true, Bool.or_false, Bool.false_eq_true, if_false]

/-- A create repeats nothing where every kept create of its function, opcode and token has lost its object. -/
theorem tokenHit_none_of_dead (hop : isCreate op = true)
    (h : ∀ t ∈ b.host.tokens, t.fn = rq.fn.val → t.opcode = op → t.token = rq.token → tokenLive b t = false) :
    tokenHit b (cmdOf rq op args) = none := by
  by_cases hz : rq.token = 0
  · exact tokenHit_of_token_zero hz
  · rw [tokenHit_create hop hz, Option.map_eq_none_iff, List.find?_eq_none]
    intro t ht hm
    simp only [Bool.and_eq_true, beq_iff_eq] at hm
    obtain ⟨⟨⟨hf, ho⟩, hk⟩, hl⟩ := hm
    exact Bool.false_ne_true ((h t ht hf ho hk).symm.trans hl)

/-- A create that has made its object stands in the list of tokens. -/
theorem mem_keepToken (hop : isCreate op = true) (h : rq.token ≠ 0) (u : State) (r : Word) :
    (⟨rq.fn.val, op, rq.token, r⟩ : CreateToken) ∈ (keepToken u (cmdOf rq op args) 0 r).host.tokens := by
  have hn : rq.token.toNat ≠ 0 := token_toNat_ne_zero h
  simp [keepToken, cmdOf, hop, hn]

end

/-- An answer's publication leaves the list of tokens. -/
theorem answerNow_tokens (c : Cmd) (s : State) (rc : Nat) (r : Word) (tag : Nat) :
    (answerNow c s rc r tag).host.tokens = s.host.tokens :=
  (within_answerNow c s rc r tag (Within.refl s) (Sub.refl _)).same .tokens (by decide)

/-- Settles O58: the shared run looks a create up in the list of tokens before its own checks, and its answer leaves its token there. -/
theorem createTokens : Obligations.CreateTokens := by
  unfold Obligations.CreateTokens
  intro i rq op args s hi c b hg hmem
  have hop : isCreate op = true := (isCreate_iff op).2 hmem
  refine ⟨fun k hk hz => ?again, fun h => ?other, fun r u hz ha => ⟨_, ha, ?made⟩⟩
  case again =>
    have hr : tokenHit b c = some k.result := by rw [tokenHit_create hop hz, hk, Option.map_some]
    obtain ⟨refuse, reads, effect, hx⟩ := exec_create s hi hop
    rw [hx, runRowWith_of_tokenHit refuse reads effect hg hr]
  case other => exact h.elim tokenHit_of_token_zero (tokenHit_none_of_dead hop)
  case made =>
    rw [answered, answerNow_tokens]
    exact mem_keepToken hop hz u r

end Sys2Proof.Machine
end

section
/-! Every command answers a next state that differs from the one before in the areas of the command alone, and keeps the
invariant; a step runs the command at the front of the queue, or lets one cycle of the reference clock pass. -/

namespace Sys2Proof.Machine

/-! ### The areas of a command -/

/-- The mask of a list of areas, with the bit of each. -/
def areaMask (l : List Area) : Nat := l.foldr (fun a m => 1 <<< a.num ||| m) 0

theorem Area.num_inj {a b : Area} (h : a.num = b.num) : a = b := by
  cases a <;> cases b <;> first | rfl | exact absurd h (by decide)

/-- An area that a list does not name has no bit in the list's mask. -/
theorem testBit_areaMask {l : List Area} {a : Area} (h : a ∉ l) : (areaMask l).testBit a.num = false := by
  induction l with
  | nil => exact Nat.zero_testBit _
  | cons b l ih =>
    obtain ⟨hb, hl⟩ := not_or.1 (List.mem_cons.not.1 h)
    have hn : b.num ≠ a.num := fun e => hb (Area.num_inj e).symm
    have hs : (1 <<< b.num).testBit a.num = false := by
      rw [Nat.one_shiftLeft, Nat.testBit_two_pow_of_ne hn]
    rw [areaMask, List.foldr_cons, Nat.testBit_or, hs, Bool.false_or]
    exact ih hl

/-- A state within the mask of a list differs in the listed areas alone. -/
theorem only_of_within {l : List Area} {s t : State} (h : Within (areaMask l) s t) : Only l s t :=
  only_mk h fun _ ha => testBit_areaMask ha

/-- Every command stays within its areas. -/
theorem within_exec (i : Instr) (s : State) : WithinNext (areaMask (areasOf i)) s (exec i s) :=
  have h {μ : Nat} : Within μ s s := Within.refl s
  match i with
  | .pcieConfigRequest _ _ => within_execPcieConfigRequest _ _ s h (by rw [areasOf]; rfl)
  | .perstNAssert => within_execPerstNAssert s h (by rw [areasOf]; rfl)
  | .perstNRelease => within_execPerstNRelease s h (by rw [areasOf]; rfl)
  | .hotReset => within_execHotReset s h (by rw [areasOf]; rfl)
  | .startPathChoice _ => within_execStartPathChoice _ s h (by rw [areasOf]; rfl)
  | .powerGrant => within_execPowerGrant s h (by rw [areasOf]; rfl)
  | .configSpaceReady => within_execConfigSpaceReady s h (by rw [areasOf]; rfl)
  | .autumnBlockDone _ _ _ _ _ => within_execAutumnBlockDone _ _ _ _ _ s h (by rw [areasOf]; rfl)
  | .moduleOperational => within_execModuleOperational s h (by rw [areasOf]; rfl)
  | .shdnReq _ => within_execShdnReq _ s h (by rw [areasOf]; rfl)
  | .resetKeyWrite _ => within_execResetKeyWrite _ s h (by rw [areasOf]; rfl)
  | .registerWrite _ _ _ _ _ => within_execRegisterWrite _ _ _ _ _ s h (by rw [areasOf]; rfl)
  | .rcRegisterRead _ _ _ _ => within_execRcRegisterRead _ _ _ _ s h (by rw [areasOf]; rfl)
  | .mbxInDeposit _ _ _ _ => within_execMbxInDeposit _ _ _ _ s h (by rw [areasOf]; rfl)
  | .mailboxTake _ _ _ _ _ _ => within_execMailboxTake _ _ _ _ _ _ s h (by rw [areasOf]; rfl)
  | .mbxOutPost _ _ => within_execMbxOutPost _ _ s h (by rw [areasOf]; rfl)
  | .mbxOutAck _ _ _ _ => within_execMbxOutAck _ _ _ _ s h (by rw [areasOf]; rfl)
  | .doorbell _ _ _ => within_execDoorbell _ _ _ s h (by rw [areasOf]; rfl)
  | .queueFetch _ _ _ _ => within_execQueueFetch _ _ _ _ s h (by rw [areasOf]; rfl)
  | .cqRelease _ _ _ => within_execCqRelease _ _ _ s h (by rw [areasOf]; rfl)
  | .queueDrainEnd _ => within_execQueueDrainEnd _ s h (by rw [areasOf]; rfl)
  | .bar2Read _ _ _ _ => within_execBar2Read _ _ _ _ s h (by rw [areasOf]; rfl)
  | .bar2Write _ _ _ _ => within_execBar2Write _ _ _ _ s h (by rw [areasOf]; rfl)
  | .functionLevelReset _ => within_execFunctionLevelReset _ s h (by rw [areasOf]; rfl)
  | .pfResetOrVfDisable _ => within_execPfResetOrVfDisable _ s h (by rw [areasOf]; rfl)
  | .busMasterDisable _ => within_execBusMasterDisable _ s h (by rw [areasOf]; rfl)
  | .tdispRequest _ _ => within_execTdispRequest _ _ s h (by rw [areasOf]; rfl)
  | .hello _ _ => within_execHello _ _ s h (by rw [areasOf]; rfl)
  | .bye _ _ => within_execBye _ _ s h (by rw [areasOf]; rfl)
  | .ping _ _ => within_execPing _ _ s h (by rw [areasOf]; rfl)
  | .cmdqClose _ _ => within_execCmdqClose _ _ s h (by rw [areasOf]; rfl)
  | .rplStop _ _ => within_execRplStop _ _ s h (by rw [areasOf]; rfl)
  | .rplStatus _ _ => within_execRplStatus _ _ s h (by rw [areasOf]; rfl)
  | .cmdqOpen _ _ _ _ _ _ => within_execCmdqOpen _ _ _ _ _ _ s h (by rw [areasOf]; rfl)
  | .partCreate _ _ _ _ _ => within_execPartCreate _ _ _ _ _ s h (by rw [areasOf]; rfl)
  | .partDestroy _ _ => within_execPartDestroy _ _ s h (by rw [areasOf]; rfl)
  | .partAssign _ _ _ => within_execPartAssign _ _ _ s h (by rw [areasOf]; rfl)
  | .partHandover _ _ => within_execPartHandover _ _ s h (by rw [areasOf]; rfl)
  | .partSched _ _ => within_execPartSched _ _ s h (by rw [areasOf]; rfl)
  | .partCache _ _ => within_execPartCache _ _ s h (by rw [areasOf]; rfl)
  | .slotTable _ _ _ => within_execSlotTable _ _ _ s h (by rw [areasOf]; rfl)
  | .partInfo _ _ _ => within_execPartInfo _ _ _ s h (by rw [areasOf]; rfl)
  | .windowSet _ _ _ _ => within_execWindowSet _ _ _ _ s h (by rw [areasOf]; rfl)
  | .fnState _ _ _ => within_execFnState _ _ _ s h (by rw [areasOf]; rfl)
  | .ctxCreate _ _ _ _ => within_execCtxCreate _ _ _ _ s h (by rw [areasOf]; rfl)
  | .ctxDestroy _ _ => within_execCtxDestroy _ _ s h (by rw [areasOf]; rfl)
  | .ctxSet _ _ _ _ => within_execCtxSet _ _ _ _ s h (by rw [areasOf]; rfl)
  | .ctxQuiesce _ _ => within_execCtxQuiesce _ _ s h (by rw [areasOf]; rfl)
  | .ctxSnapshot _ _ _ _ _ _ => within_execCtxSnapshot _ _ _ _ _ _ s h (by rw [areasOf]; rfl)
  | .queueCreate _ _ _ _ _ _ _ _ _ => within_execQueueCreate _ _ _ _ _ _ _ _ _ s h (by rw [areasOf]; rfl)
  | .queueDestroy _ _ => within_execQueueDestroy _ _ s h (by rw [areasOf]; rfl)
  | .queueEnable _ _ => within_execQueueEnable _ _ s h (by rw [areasOf]; rfl)
  | .queueDisable _ _ => within_execQueueDisable _ _ s h (by rw [areasOf]; rfl)
  | .queueReset _ _ => within_execQueueReset _ _ s h (by rw [areasOf]; rfl)
  | .tallyCreate _ _ _ _ _ => within_execTallyCreate _ _ _ _ _ s h (by rw [areasOf]; rfl)
  | .tallySet _ _ _ => within_execTallySet _ _ _ s h (by rw [areasOf]; rfl)
  | .tallyDestroy _ _ => within_execTallyDestroy _ _ s h (by rw [areasOf]; rfl)
  | .regionCreate _ _ _ _ _ => within_execRegionCreate _ _ _ _ _ s h (by rw [areasOf]; rfl)
  | .regionDestroy _ _ => within_execRegionDestroy _ _ s h (by rw [areasOf]; rfl)
  | .regionFreeze _ _ _ => within_execRegionFreeze _ _ _ s h (by rw [areasOf]; rfl)
  | .handleInfo _ _ _ => within_execHandleInfo _ _ _ s h (by rw [areasOf]; rfl)
  | .memFlush _ => within_execMemFlush _ s h (by rw [areasOf]; rfl)
  | .scrubPeriod _ _ _ _ => within_execScrubPeriod _ _ _ _ s h (by rw [areasOf]; rfl)
  | .stackRate _ _ => within_execStackRate _ _ s h (by rw [areasOf]; rfl)
  | .progLoad _ _ _ _ _ _ => within_execProgLoad _ _ _ _ _ _ s h (by rw [areasOf]; rfl)
  | .progUnload _ _ _ => within_execProgUnload _ _ _ s h (by rw [areasOf]; rfl)
  | .launch _ _ _ _ => within_execLaunch _ _ _ _ s h (by rw [areasOf]; rfl)
  | .launchPublish _ => within_execLaunchPublish _ s h (by rw [areasOf]; rfl)
  | .tensorReg _ _ _ => within_execTensorReg _ _ _ s h (by rw [areasOf]; rfl)
  | .tensorUnreg _ _ => within_execTensorUnreg _ _ s h (by rw [areasOf]; rfl)
  | .tensorVersion _ _ _ => within_execTensorVersion _ _ _ s h (by rw [areasOf]; rfl)
  | .tensorScale _ _ _ => within_execTensorScale _ _ _ s h (by rw [areasOf]; rfl)
  | .tensorUnpoison _ _ => within_execTensorUnpoison _ _ s h (by rw [areasOf]; rfl)
  | .tensorStamp _ _ _ => within_execTensorStamp _ _ _ s h (by rw [areasOf]; rfl)
  | .modelDefine _ _ _ _ => within_execModelDefine _ _ _ _ s h (by rw [areasOf]; rfl)
  | .modelLoad _ _ _ => within_execModelLoad _ _ _ s h (by rw [areasOf]; rfl)
  | .modelEvict _ _ => within_execModelEvict _ _ s h (by rw [areasOf]; rfl)
  | .modelUnitsFreed _ => within_execModelUnitsFreed _ s h (by rw [areasOf]; rfl)
  | .modelDestroy _ _ => within_execModelDestroy _ _ s h (by rw [areasOf]; rfl)
  | .groupBind _ _ _ _ => within_execGroupBind _ _ _ _ s h (by rw [areasOf]; rfl)
  | .epochInstall _ _ _ _ _ => within_execEpochInstall _ _ _ _ _ s h (by rw [areasOf]; rfl)
  | .commCreate _ _ _ _ => within_execCommCreate _ _ _ _ s h (by rw [areasOf]; rfl)
  | .commDestroy _ _ _ => within_execCommDestroy _ _ _ s h (by rw [areasOf]; rfl)
  | .linkExpect _ _ _ _ _ => within_execLinkExpect _ _ _ _ _ s h (by rw [areasOf]; rfl)
  | .linkRetrain _ _ => within_execLinkRetrain _ _ s h (by rw [areasOf]; rfl)
  | .linkFence _ _ => within_execLinkFence _ _ s h (by rw [areasOf]; rfl)
  | .linkUnfence _ _ => within_execLinkUnfence _ _ s h (by rw [areasOf]; rfl)
  | .linkCfg _ _ _ _ _ => within_execLinkCfg _ _ _ _ _ s h (by rw [areasOf]; rfl)
  | .histSet _ _ _ _ => within_execHistSet _ _ _ _ s h (by rw [areasOf]; rfl)
  | .numSnapshot _ _ _ _ _ _ => within_execNumSnapshot _ _ _ _ _ _ s h (by rw [areasOf]; rfl)
  | .gateCreate _ _ _ _ _ _ _ _ => within_execGateCreate _ _ _ _ _ _ _ _ s h (by rw [areasOf]; rfl)
  | .gateSet _ _ _ _ _ _ _ _ => within_execGateSet _ _ _ _ _ _ _ _ s h (by rw [areasOf]; rfl)
  | .gateDestroy _ _ => within_execGateDestroy _ _ s h (by rw [areasOf]; rfl)
  | .witnessCfg _ _ _ _ _ => within_execWitnessCfg _ _ _ _ _ s h (by rw [areasOf]; rfl)
  | .driftPair _ _ _ _ _ _ _ => within_execDriftPair _ _ _ _ _ _ _ s h (by rw [areasOf]; rfl)
  | .outlierRing _ _ _ => within_execOutlierRing _ _ _ s h (by rw [areasOf]; rfl)
  | .rplRecord _ _ _ _ _ => within_execRplRecord _ _ _ _ _ s h (by rw [areasOf]; rfl)
  | .rplMark _ _ _ _ _ => within_execRplMark _ _ _ _ _ s h (by rw [areasOf]; rfl)
  | .rplReplay _ _ _ _ => within_execRplReplay _ _ _ _ s h (by rw [areasOf]; rfl)
  | .gravelCfg _ _ _ => within_execGravelCfg _ _ _ s h (by rw [areasOf]; rfl)
  | .autumnRun _ _ => within_execAutumnRun _ _ s h (by rw [areasOf]; rfl)
  | .powerCap _ _ => within_execPowerCap _ _ s h (by rw [areasOf]; rfl)
  | .limits _ _ _ _ => within_execLimits _ _ _ _ s h (by rw [areasOf]; rfl)
  | .telemetry _ _ _ => within_execTelemetry _ _ _ s h (by rw [areasOf]; rfl)
  | .health _ _ => within_execHealth _ _ s h (by rw [areasOf]; rfl)
  | .escalation _ _ _ _ => within_execEscalation _ _ _ _ s h (by rw [areasOf]; rfl)
  | .commandTimeout _ _ => within_execCommandTimeout _ _ s h (by rw [areasOf]; rfl)
  | .tileFetch _ _ => within_execTileFetch _ _ s h (by rw [areasOf]; rfl)
  | .tileIssue _ _ _ _ => within_execTileIssue _ _ _ _ s h (by rw [areasOf]; rfl)
  | .tileComplete _ _ => within_execTileComplete _ _ s h (by rw [areasOf]; rfl)
  | .tallyAdd _ _ _ => within_execTallyAdd _ _ _ s h (by rw [areasOf]; rfl)
  | .slotChange _ => within_execSlotChange _ s h (by rw [areasOf]; rfl)
  | .bubbleFill _ => within_execBubbleFill _ s h (by rw [areasOf]; rfl)
  | .sequencerWatchdog _ _ => within_execSequencerWatchdog _ _ s h (by rw [areasOf]; rfl)
  | .waitLimitReport _ _ => within_execWaitLimitReport _ _ s h (by rw [areasOf]; rfl)
  | .waitTimeout _ => within_execWaitTimeout _ s h (by rw [areasOf]; rfl)
  | .witnessCheckDone _ _ _ => within_execWitnessCheckDone _ _ _ s h (by rw [areasOf]; rfl)
  | .moverTransfer _ _ _ => within_execMoverTransfer _ _ _ s h (by rw [areasOf]; rfl)
  | .moverComplete _ => within_execMoverComplete _ s h (by rw [areasOf]; rfl)
  | .crcSecondRead _ _ => within_execCrcSecondRead _ _ s h (by rw [areasOf]; rfl)
  | .moverWatchdog _ => within_execMoverWatchdog _ s h (by rw [areasOf]; rfl)
  | .routeDescriptor _ _ => within_execRouteDescriptor _ _ s h (by rw [areasOf]; rfl)
  | .routeComplete _ => within_execRouteComplete _ s h (by rw [areasOf]; rfl)
  | .routeWatchdog _ => within_execRouteWatchdog _ s h (by rw [areasOf]; rfl)
  | .optimizerUpdate _ _ => within_execOptimizerUpdate _ _ s h (by rw [areasOf]; rfl)
  | .gateDecision _ => within_execGateDecision _ s h (by rw [areasOf]; rfl)
  | .gateSnapshot _ => within_execGateSnapshot _ s h (by rw [areasOf]; rfl)
  | .optimizerWatchdog _ => within_execOptimizerWatchdog _ s h (by rw [areasOf]; rfl)
  | .collectiveDescriptor _ _ => within_execCollectiveDescriptor _ _ s h (by rw [areasOf]; rfl)
  | .chunkArrival _ _ _ _ _ _ => within_execChunkArrival _ _ _ _ _ _ s h (by rw [areasOf]; rfl)
  | .chunkCreditReturn _ _ _ _ => within_execChunkCreditReturn _ _ _ _ s h (by rw [areasOf]; rfl)
  | .collectiveComplete _ => within_execCollectiveComplete _ s h (by rw [areasOf]; rfl)
  | .collWaitReport _ => within_execCollWaitReport _ s h (by rw [areasOf]; rfl)
  | .linkTransmit _ _ _ _ => within_execLinkTransmit _ _ _ _ s h (by rw [areasOf]; rfl)
  | .linkTransmitAcked _ => within_execLinkTransmitAcked _ s h (by rw [areasOf]; rfl)
  | .linkTxWatchdog _ => within_execLinkTxWatchdog _ s h (by rw [areasOf]; rfl)
  | .flitReceive _ _ _ _ => within_execFlitReceive _ _ _ _ s h (by rw [areasOf]; rfl)
  | .msgWrite _ _ _ _ => within_execMsgWrite _ _ _ _ s h (by rw [areasOf]; rfl)
  | .msgBlock _ _ _ _ => within_execMsgBlock _ _ _ _ s h (by rw [areasOf]; rfl)
  | .msgRefuse _ _ => within_execMsgRefuse _ _ s h (by rw [areasOf]; rfl)
  | .msgEpochNotice _ _ => within_execMsgEpochNotice _ _ s h (by rw [areasOf]; rfl)
  | .msgAbort _ _ => within_execMsgAbort _ _ s h (by rw [areasOf]; rfl)
  | .epochGraceExpiry _ => within_execEpochGraceExpiry _ s h (by rw [areasOf]; rfl)
  | .negotiateReceive _ _ => within_execNegotiateReceive _ _ s h (by rw [areasOf]; rfl)
  | .notReadyReceive _ _ => within_execNotReadyReceive _ _ s h (by rw [areasOf]; rfl)
  | .negotiateResend _ => within_execNegotiateResend _ s h (by rw [areasOf]; rfl)
  | .heartbeatSend _ => within_execHeartbeatSend _ s h (by rw [areasOf]; rfl)
  | .heartbeatReceive _ _ => within_execHeartbeatReceive _ _ s h (by rw [areasOf]; rfl)
  | .heartbeatTimeout _ => within_execHeartbeatTimeout _ s h (by rw [areasOf]; rfl)
  | .degradeReceive _ _ => within_execDegradeReceive _ _ s h (by rw [areasOf]; rfl)
  | .fencedReceive _ _ => within_execFencedReceive _ _ s h (by rw [areasOf]; rfl)
  | .laneLock _ _ _ _ => within_execLaneLock _ _ _ _ s h (by rw [areasOf]; rfl)
  | .laneRetire _ _ => within_execLaneRetire _ _ s h (by rw [areasOf]; rfl)
  | .linkRetrainStart _ => within_execLinkRetrainStart _ s h (by rw [areasOf]; rfl)
  | .linkRetrainEnd _ _ _ => within_execLinkRetrainEnd _ _ _ s h (by rw [areasOf]; rfl)
  | .trainingTimeout _ => within_execTrainingTimeout _ s h (by rw [areasOf]; rfl)
  | .lnkLoopStart _ _ => within_execLnkLoopStart _ _ s h (by rw [areasOf]; rfl)
  | .lnkLoopDone _ _ _ _ _ => within_execLnkLoopDone _ _ _ _ _ s h (by rw [areasOf]; rfl)
  | .lnkLoopModeWrite _ _ => within_execLnkLoopModeWrite _ _ s h (by rw [areasOf]; rfl)
  | .hbmLoopStart _ _ => within_execHbmLoopStart _ _ s h (by rw [areasOf]; rfl)
  | .hbmLoopDone _ _ _ => within_execHbmLoopDone _ _ _ s h (by rw [areasOf]; rfl)
  | .patrolScrubRead _ _ _ => within_execPatrolScrubRead _ _ _ s h (by rw [areasOf]; rfl)
  | .hbmRefresh _ => within_execHbmRefresh _ s h (by rw [areasOf]; rfl)
  | .unscheduledRefresh _ => within_execUnscheduledRefresh _ s h (by rw [areasOf]; rfl)
  | .holdStart _ => within_execHoldStart _ s h (by rw [areasOf]; rfl)
  | .holdEnd _ => within_execHoldEnd _ s h (by rw [areasOf]; rfl)
  | .holdLimitReport _ _ => within_execHoldLimitReport _ _ s h (by rw [areasOf]; rfl)
  | .replayDeliver _ => within_execReplayDeliver _ s h (by rw [areasOf]; rfl)
  | .contextTeardown _ => within_execContextTeardown _ s h (by rw [areasOf]; rfl)
  | .drainTimerExpiry _ => within_execDrainTimerExpiry _ s h (by rw [areasOf]; rfl)
  | .partitionFatal _ _ => within_execPartitionFatal _ _ s h (by rw [areasOf]; rfl)
  | .partitionResetDone _ => within_execPartitionResetDone _ s h (by rw [areasOf]; rfl)
  | .moduleFatal _ => within_execModuleFatal _ s h (by rw [areasOf]; rfl)
  | .icvarWatchdog => within_execIcvarWatchdog s h (by rw [areasOf]; rfl)
  | .healthDecay => within_execHealthDecay s h (by rw [areasOf]; rfl)
  | .gravelSliceStart _ _ _ => within_execGravelSliceStart _ _ _ s h (by rw [areasOf]; rfl)
  | .gravelSliceEnd _ _ _ _ => within_execGravelSliceEnd _ _ _ _ s h (by rw [areasOf]; rfl)
  | .gravelSliceAbandon _ => within_execGravelSliceAbandon _ s h (by rw [areasOf]; rfl)
  | .witnessSlice _ _ _ => within_execWitnessSlice _ _ _ s h (by rw [areasOf]; rfl)
  | .arbiterPeriod _ => within_execArbiterPeriod _ s h (by rw [areasOf]; rfl)
  | .clockSlewEnd => within_execClockSlewEnd s h (by rw [areasOf]; rfl)
  | .emergencyHold => within_execEmergencyHold s h (by rw [areasOf]; rfl)
  | .sensorRead _ _ => within_execSensorRead _ _ s h (by rw [areasOf]; rfl)
  | .supplyTrip _ _ _ => within_execSupplyTrip _ _ _ s h (by rw [areasOf]; rfl)
  | .mgmtCapSet _ => within_execMgmtCapSet _ s h (by rw [areasOf]; rfl)
  | .pldmFirmwareUpdate _ => within_execPldmFirmwareUpdate _ s h (by rw [areasOf]; rfl)
  | .pldmSensorRead _ => within_execPldmSensorRead _ s h (by rw [areasOf]; rfl)
  | .mctpControl _ _ => within_execMctpControl _ _ s h (by rw [areasOf]; rfl)
  | .getVersion _ => within_execGetVersion _ s h (by rw [areasOf]; rfl)
  | .getCapabilities _ _ => within_execGetCapabilities _ _ s h (by rw [areasOf]; rfl)
  | .negotiateAlgorithms _ _ _ => within_execNegotiateAlgorithms _ _ _ s h (by rw [areasOf]; rfl)
  | .getDigests _ => within_execGetDigests _ s h (by rw [areasOf]; rfl)
  | .getCertificate _ _ _ _ => within_execGetCertificate _ _ _ _ s h (by rw [areasOf]; rfl)
  | .challenge _ _ _ => within_execChallenge _ _ _ s h (by rw [areasOf]; rfl)
  | .getMeasurements _ _ _ => within_execGetMeasurements _ _ _ s h (by rw [areasOf]; rfl)
  | .keyExchange _ _ _ _ => within_execKeyExchange _ _ _ _ s h (by rw [areasOf]; rfl)
  | .finish _ _ => within_execFinish _ _ s h (by rw [areasOf]; rfl)
  | .endSession _ => within_execEndSession _ s h (by rw [areasOf]; rfl)
  | .debugToken _ _ _ _ _ => within_execDebugToken _ _ _ _ _ s h (by rw [areasOf]; rfl)
  | .tapBypass => within_execTapBypass s h (by rw [areasOf]; rfl)
  | .tapIdcode => within_execTapIdcode s h (by rw [areasOf]; rfl)
  | .tapSamplePreload _ _ => within_execTapSamplePreload _ _ s h (by rw [areasOf]; rfl)
  | .tapExtest => within_execTapExtest s h (by rw [areasOf]; rfl)
  | .optimizerComplete _ => within_execOptimizerComplete _ s h (by rw [areasOf]; rfl)
  | .scrubComplete _ => within_execScrubComplete _ s h (by rw [areasOf]; rfl)
  | .stackTrainingDone _ _ _ _ => within_execStackTrainingDone _ _ _ _ s h (by rw [areasOf]; rfl)
  | .powerApplied => within_execPowerApplied s h (by rw [areasOf]; rfl)
  | .powerRemoved => within_execPowerRemoved s h (by rw [areasOf]; rfl)
  | .pcieLinkTrained _ _ _ => within_execPcieLinkTrained _ _ _ s h (by rw [areasOf]; rfl)
  | .ideKmRequest _ _ => within_execIdeKmRequest _ _ s h (by rw [areasOf]; rfl)

/-- Settles O56: each command's meaning stays within the mask of the areas listed for it. -/
theorem commandsChangeOnlyTheirAreas : Obligations.CommandsChangeOnlyTheirAreas := by
  unfold Obligations.CommandsChangeOnlyTheirAreas
  intro i s
  obtain ⟨t, ht, hw⟩ := within_exec i s
  exact ⟨t, ht, only_of_within hw⟩

/-! ### The invariant -/

/-- The queue of waiting commands has no part in the invariant. -/
theorem inv_withPending {s : State} (l : List Instr) (h : Inv s) : Inv { s with pending := l } := h

/-- A step keeps what the state with the rest of its queue had. -/
theorem kept_step {s t : State} (hi : Inv s) (hs : step s = .next t) : Kept { s with pending := s.pending.tail } t := by
  unfold step at hs
  split at hs
  case h_1 c rest hp =>
    obtain ⟨u, hu, hk⟩ := kept_exec c { s with pending := rest } (Kept.refl (inv_withPending rest hi))
    cases hs.symm.trans hu
    rwa [hp]
  case h_2 hp =>
    cases hs
    have hr : { s with pending := s.pending.tail } = s := by rw [hp, List.tail_nil, ← hp]
    rw [hr]
    exact kept_tick s (Kept.refl hi)

/-- Settles O53: every command, and a cycle of the reference clock, keep the invariant, the queue, the count of free values and
the fuses. -/
theorem stepKeepsInvariant : Obligations.StepKeepsInvariant := by
  unfold Obligations.StepKeepsInvariant
  intro s t hi hs
  obtain ⟨hinv, hqueue, hdraws, hsvn, hrevoked⟩ := kept_step hi hs
  exact ⟨hinv, hqueue, hdraws, hsvn, hrevoked⟩

/-! ### The state after reset -/

/-- No register is stored after reset: each reads its reset value (R17). -/
theorem fld_reset (f : RField) (i j : Nat) : State.reset.fld f i j = getBits (resetWord f.reg) f.hi f.lo := rfl

/-- Settles O54: the tables are empty after reset, so that every object and register reads its default. -/
theorem resetMeetsInvariant : Obligations.ResetMeetsInvariant := by
  unfold Obligations.ResetMeetsInvariant
  refine ⟨⟨rfl, rfl⟩, rfl, fun _ => rfl, fun _ => rfl, fun _ => rfl, fun f => ?session, fun i j => ?registers⟩
  case session =>
    show (fnDefault f).session = none
    unfold fnDefault
    split <;> rfl
  case registers =>
    simp only [fld_reset]
    decide

end Sys2Proof.Machine
end

section
/-! What reads and stores leave of functions and partitions: a function but for the outbound words that wait at it, a partition but for
the causes of its holds (R246, R342). The checks of an access speak of neither, so that they hold after it as before. -/

namespace Sys2Proof.Machine

/-- Functions, VF Enable and partitions are as they were, but for outbound words that wait and causes of holds. -/
structure Rests (s t : State) : Prop where
  fn : ∀ f, fnRest (t.fn f) = fnRest (s.fn f)
  part : ∀ p, partRest (t.part p) = partRest (s.part p)
  vf : t.host.vfEnable = s.host.vfEnable

variable {s t u : State}

theorem Rests.refl (s : State) : Rests s s := ⟨fun _ => rfl, fun _ => rfl, rfl⟩

theorem Rests.trans (h : Rests s t) (g : Rests t u) : Rests s u :=
  ⟨fun f => (g.fn f).trans (h.fn f), fun p => (g.part p).trans (h.part p), g.vf.trans h.vf⟩

theorem rests_of_same (hf : Area.functions.same s t) (hp : Area.parts.same s t) : Rests s t :=
  ⟨fun f => congrArg fnRest (fns_same hf f), fun p => congrArg partRest (parts_same hp p), congrArg (fun x => x.2.1) hf⟩

/-- What is read of a function beside its outbound words, and of a partition beside its causes of holds. -/
theorem Rests.fn_get {β : Type} (h : Rests s t) (g : FnState → β) (hg : ∀ x, g (fnRest x) = g x) (f : Nat) : g (t.fn f) = g (s.fn f) := by
  rw [← hg (t.fn f), h.fn f, hg]

theorem Rests.part_get {β : Type} (h : Rests s t) (g : Part → β) (hg : ∀ x, g (partRest x) = g x) (p : Nat) :
    g (t.part p) = g (s.part p) := by
  rw [← hg (t.part p), h.part p, hg]

/-- What leaves the tables of functions and partitions. -/
theorem rests_tables (hf : t.host.fns = s.host.fns) (hp : t.objs.parts = s.objs.parts) (hv : t.host.vfEnable = s.host.vfEnable) : Rests s t :=
  ⟨fun f => by rw [State.fn, hf]; rfl, fun p => by rw [State.part, hp]; rfl, hv⟩

theorem Rests.after {v : State} (h : Rests v t) (hf : v.host.fns = s.host.fns) (hp : v.objs.parts = s.objs.parts)
    (hv : v.host.vfEnable = s.host.vfEnable) : Rests s t := (rests_tables hf hp hv).trans h

theorem Rests.onto {v : State} (h : Rests s v) (hf : t.host.fns = v.host.fns) (hp : t.objs.parts = v.objs.parts)
    (hv : t.host.vfEnable = v.host.vfEnable) : Rests s t := h.trans (rests_tables hf hp hv)

theorem rests_foldl {α : Type} (l : List α) (g : State → α → State) (h : ∀ t a, Rests t (g t a)) (s : State) :
    Rests s (l.foldl g s) := by
  induction l generalizing s with
  | nil => exact Rests.refl s
  | cons a l ih => exact (h s a).trans (ih _)

theorem rests_foldlFst {α β : Type} (l : List α) (g : State × β → α → State × β) (h : ∀ r a, Rests r.1 (g r a).1) (r : State × β) :
    Rests r.1 (l.foldl g r).1 := by
  induction l generalizing r with
  | nil => exact Rests.refl _
  | cons a l ih => exact (h r a).trans (ih _)

theorem rests_ite {c : Prop} [Decidable c] {a b : State} (ha : Rests s a) (hb : Rests s b) : Rests s (if c then a else b) := by
  split <;> assumption

/-- A function that keeps all but its outbound words. -/
theorem rests_setFn (s : State) (f : Nat) (v : FnState) (h : fnRest v = fnRest (s.fn f)) : Rests s (s.setFn f v) := by
  refine ⟨fun g => ?_, fun _ => rfl, rfl⟩
  by_cases hg : f = g
  · subst hg; rw [fn_setFn, h]
  · rw [fn_setFn_ne _ _ hg]

/-- A partition that keeps all but the causes of its holds. -/
theorem rests_setPart (s : State) (p : Nat) (v : Part) (h : partRest v = partRest (s.part p)) : Rests s (s.setPart p v) := by
  refine ⟨fun _ => rfl, fun q => ?_, rfl⟩
  by_cases hq : p = q
  · subst hq; rw [part_setPart, h]
  · rw [part_setPart_ne _ _ hq]

/-! ### Events and causes of holds -/

theorem rests_queueOut (s : State) (f j : Nat) (w : Word) : Rests s (queueOut s f j w) :=
  rests_ite (rests_setFn _ _ _ rfl) (rests_tables rfl rfl rfl)

theorem rests_postTo (s : State) (fs : List Nat) (code arg : Nat) : Rests s (postTo s fs code arg) :=
  rests_foldl _ _ (fun _ _ => rests_queueOut _ _ _ _) s

theorem rests_postHealth (s : State) (v : Nat) : Rests s (postHealth s v) := rests_postTo _ _ _ _

theorem rests_healthEvent (s : State) (v row pts : Nat) : Rests s (healthEvent s v row pts) := by
  unfold healthEvent
  dsimp only
  split
  · exact (rests_postHealth _ _).after rfl rfl rfl
  · exact rests_tables rfl rfl rfl

theorem rests_addCauseAt (s : State) (p f k : Nat) (l : Option Nat) (n : Nat) : Rests s (addCauseAt s p f k l n) :=
  rests_ite (rests_setPart _ _ _ rfl) (Rests.refl _)

theorem rests_addCause (s : State) (p f k : Nat) (l : Option Nat) : Rests s (addCause s p f k l) := rests_addCauseAt _ _ _ _ _ _

/-! ### Reads -/

theorem rests_noteLoam (s : State) (sec off : Nat) (e : WordError) : Rests s (noteLoam s sec off e) := by
  cases e
  · exact (rests_healthEvent _ _ _ _).after rfl rfl rfl
  · exact (rests_healthEvent _ _ _ _).after rfl rfl rfl
  · exact rests_tables rfl rfl rfl

theorem rests_noteHbm (s : State) (g off : Nat) (e : WordError) : Rests s (noteHbm s g off e) := by
  cases e
  · exact (rests_healthEvent _ _ _ _).after rfl rfl rfl
  · exact (rests_healthEvent _ _ _ _).after rfl rfl rfl
  · exact rests_tables rfl rfl rfl

theorem rests_noteKey (s : State) (k : Nat) (e : WordError) : Rests s (noteKey s k e) := by
  have h : Rests s (match placeOf s k with
    | .loam sec off => (noteLoam s sec off e, 12)
    | .hbm g off => (noteHbm s g off e, 96) : State × Nat).1 := by
    cases placeOf s k
    · exact rests_noteLoam _ _ _ _
    · exact rests_noteHbm _ _ _ _
  unfold noteKey
  cases e
  · dsimp only
    split
    · exact h.trans ((rests_addCause _ _ _ _ _).after rfl rfl rfl)
    · exact h.trans (rests_tables rfl rfl rfl)
  · exact h
  · exact h

theorem rests_noteErrors (s : State) (es : List (Nat × Nat × WordError)) : Rests s (noteErrors s es) :=
  rests_foldl es _ (fun _ _ => rests_noteKey _ _ _) s

theorem rests_readCheck (s : State) (a n : Nat) : Rests s (readCheck s a n).1 := rests_noteErrors _ _

theorem rests_poisonKeys {α : Type} (l : List α) (g : α → Nat) (s : State) : Rests s (l.foldl (fun v e => poisonKey v (g e)) s) :=
  rests_foldl l (fun v e => poisonKey v (g e)) (fun _ _ => rests_tables rfl rfl rfl) s

theorem rests_cacheVictim (s : State) (sec set : Nat) : Rests s (cacheVictim s sec set).1 := by
  have h := within_cacheVictim s sec set (Within.refl s) (Sub.refl _)
  exact rests_of_same (h.same .functions (by decide)) (h.same .parts (by decide))

theorem rests_writeBackLine (s : State) (ck : Nat) : Rests s (writeBackLine s ck) := by
  unfold writeBackLine
  refine Rests.onto (Rests.trans ?_ (rests_poisonKeys _ (fun e : Nat × Bool => e.1 / 16) _)) rfl rfl rfl
  exact (rests_noteErrors s _).onto rfl rfl rfl

theorem rests_evictLine (s : State) (ck : Nat) : Rests s (evictLine s ck) := by
  unfold evictLine
  dsimp only
  split
  · exact (rests_writeBackLine _ _).onto rfl rfl rfl
  · exact rests_tables rfl rfl rfl

theorem rests_fillLine (s : State) (ck : Nat) : Rests s (fillLine s ck).1 := by
  unfold fillLine
  refine Rests.trans ?_ (rests_poisonKeys _ (fun e : Nat × Bool => copyWord ck (e.1 % 4096 / 16)) _)
  exact (rests_noteErrors s _).onto rfl rfl rfl

theorem rests_setCacheLine (s : State) (sec set way : Nat) (l : CacheLine) : Rests s (setCacheLine s sec set way l) :=
  rests_tables rfl rfl rfl

theorem rests_cacheAccess (s : State) (sec n line : Nat) (use : CacheUse) : Rests s (cacheAccess s sec n line use).1 := by
  unfold cacheAccess
  split
  · exact Rests.refl _
  · dsimp only
    split
    · exact rests_tables rfl rfl rfl
    · split
      · exact rests_tables rfl rfl rfl
      · have hv : Rests s (evictLine (cacheVictim (s.bump fLoamCacheStatMisses sec 0 1) sec (line % (256 * n))).1
            (cacheKey sec (line % (256 * n)) (cacheVictim (s.bump fLoamCacheStatMisses sec 0 1) sec (line % (256 * n))).2)) :=
          (rests_tables (s := s) (t := s.bump fLoamCacheStatMisses sec 0 1) rfl rfl rfl).trans ((rests_cacheVictim _ _ _).trans (rests_evictLine _ _))
        split
        · exact hv.trans (rests_setCacheLine _ _ _ _ _)
        · refine Rests.trans ?_ (rests_fillLine _ _)
          exact hv.trans (rests_setCacheLine _ _ _ _ _)

theorem rests_throughCache (s : State) (a n : Nat) (engine : Bool) : Rests s (throughCache s a n engine) := by
  unfold throughCache
  split
  · exact Rests.refl _
  · exact rests_foldl _ _ (fun _ _ => rests_cacheAccess _ _ _ _ _) s

theorem rests_readLine (s : State) (a n l : Nat) : Rests s (readLine s a n l).1 := by
  unfold readLine
  dsimp only
  split
  · exact (rests_cacheAccess _ _ _ _ _).trans (rests_readCheck _ _ _)
  · exact rests_cacheAccess _ _ _ _ _

theorem rests_readMem (s : State) (a n : Nat) : Rests s (readMem s a n).1 := by
  unfold readMem
  split
  · exact rests_readCheck _ _ _
  · refine rests_foldlFst _ _ (fun r l => ?_) (s, [])
    exact rests_readLine _ _ _ _

theorem rests_readAll (s : State) (rs : List (Nat × Nat)) : Rests s (readAll s rs).1 := by
  refine rests_foldlFst _ _ (fun r l => ?_) (s, [])
  exact rests_readMem _ _ _

theorem rests_meetArgs (s : State) (l : List (Word × Nat)) : Rests s (meetArgs s l) := rests_readAll _ _

theorem rests_flushSection (s : State) (sec : Nat) : Rests s (flushSection s sec) :=
  rests_foldl _ _ (fun _ _ => rests_evictLine _ _) s

theorem rests_flushPart (s : State) (p : Nat) : Rests s (flushPart s p).1 :=
  rests_foldl _ _ (fun _ _ => rests_flushSection _ _) s

/-! ### Stores -/

theorem rests_storeBytes (s : State) (a : Nat) (l : List Byte) : Rests s (storeBytes s a l) := by
  unfold storeBytes
  split
  · exact Rests.refl _
  · have h := rests_foldlFst (partWords a l.length)
      (fun (r : State × List (Nat × Bool)) w => ((readCheck r.1 w 16).1, r.2 ++ (readCheck r.1 w 16).2))
      (fun _ _ => rests_readCheck _ _ _) (throughCache s a l.length false, [])
    exact ((rests_throughCache _ _ _ _).trans h).trans
      
      ((rests_foldl _ (fun v (e : Nat × Bool) => poisonWord v e.1) (fun _ _ => rests_tables rfl rfl rfl) (writeBytes _ a l)).after rfl rfl rfl)

theorem rests_writeArg (s : State) (f : Nat) (w : Word) (off : Nat) (l : List Byte) : Rests s (writeArg s f w off l) :=
  rests_ite (rests_ite (rests_tables rfl rfl rfl) (Rests.refl _)) (rests_ite (rests_storeBytes _ _ _) (Rests.refl _))

end Sys2Proof.Machine
end

section
/-! Address arguments: what an accepted argument allows for each part of it, and rings that are filled piece by piece (R352, R365). -/

namespace Sys2Proof.Machine

/-! ### Parts of a range -/

theorem placeSecs_of_inHbm {a n : Nat} (h : inHbm a n = true) :
    placeSecs a n = some (spanOf (a / sectionHbm) ((a + (n - 1)) / sectionHbm + 1 - a / sectionHbm)) := by
  simp only [placeSecs, h, if_true]

theorem placeSecs_of_not_inHbm {a n : Nat} (h : inHbm a n = false) : placeSecs a n = (loamPlace a n).map (fun x => [x.1]) := by
  simp only [placeSecs, h, Bool.false_eq_true, if_false]
  cases loamPlace a n <;> rfl

theorem mem_spanOf {a n k : Nat} : k ∈ spanOf a n ↔ a ≤ k ∧ k < a + n := by
  simp only [spanOf, List.mem_map, List.mem_range]
  constructor
  · rintro ⟨i, hi, rfl⟩; omega
  · rintro ⟨h1, h2⟩; exact ⟨k - a, by omega, by omega⟩

theorem loamPlace_eq_some {a n : Nat} {x : Nat × Nat} : loamPlace a n = some x ↔ loamBase ≤ a ∧ a < loamBase + 8 * loamWindow ∧
    (a - loamBase) % loamWindow + n ≤ loamBytes ∧ x = ((a - loamBase) / loamWindow, (a - loamBase) % loamWindow) := by
  unfold loamPlace
  split
  case isTrue h =>
    dsimp only
    split
    case isTrue h' =>
      rw [Option.some.injEq]
      exact ⟨fun e => ⟨h.1, h.2, h', e.symm⟩, fun ⟨_, _, _, e⟩ => e.symm⟩
    case isFalse h' => simp [h']
  case isFalse h =>
    constructor
    · intro e; cases e
    · rintro ⟨h1, h2, _⟩; exact absurd ⟨h1, h2⟩ h

/-- A part of a range of Loam lies in the same section. -/
theorem loamPlace_part {a n b m sec off : Nat} (h : loamPlace a n = some (sec, off)) (ha : a ≤ b) (hb : b + m ≤ a + n) (hm : 0 < m) :
    loamPlace b m = some (sec, off + (b - a)) := by
  obtain ⟨h1, h2, h3, hx⟩ := loamPlace_eq_some.1 h
  obtain ⟨hs, ho⟩ := Prod.mk.inj hx
  have hbase : loamBase = 0x100000000000 := rfl
  have hbytes : loamBytes = 0x30000000 := rfl
  have hwin : loamWindow = 0x40000000 := rfl
  refine loamPlace_eq_some.2 ?_
  rw [hs, ho, Prod.mk.injEq, hbase, hwin, hbytes]
  rw [hbase] at h1
  rw [hbase, hwin] at h2 h3
  rw [hbytes] at h3
  omega

/-- A part of a range that a partition may name may be named (R30). -/
theorem inPartition_part {s : State} {p a n b m : Nat} (h : inPartition s p a n = true) (ha : a ≤ b) (hb : b + m ≤ a + n)
    (hm : 0 < m) : inPartition s p b m = true := by
  unfold inPartition at h ⊢
  cases hi : inHbm a n
  case true =>
    have hj : inHbm b m = true := by simp only [inHbm, decide_eq_true_eq] at hi ⊢; omega
    rw [placeSecs_of_inHbm hi] at h
    rw [placeSecs_of_inHbm hj]
    simp only [hi, hj, Bool.true_or, Bool.and_true, Bool.and_eq_true, List.all_eq_true] at h ⊢
    refine ⟨fun k hk => h.1 k ?_, h.2⟩
    rw [mem_spanOf] at hk ⊢
    have h1 : a / sectionHbm ≤ b / sectionHbm := Nat.div_le_div_right ha
    have h2 : (b + (m - 1)) / sectionHbm ≤ (a + (n - 1)) / sectionHbm := Nat.div_le_div_right (by omega)
    omega
  case false =>
    rw [placeSecs_of_not_inHbm hi] at h
    cases hl : loamPlace a n with
    | none => rw [hl] at h; exact absurd h Bool.false_ne_true
    | some x =>
      obtain ⟨sec, off⟩ := x
      have hb' := loamPlace_part hl ha hb hm
      have hj : inHbm b m = false := by
        obtain ⟨h1, _⟩ := loamPlace_eq_some.1 hb'
        have hbase : hbmBytes ≤ loamBase := by decide
        simp only [inHbm, decide_eq_false_iff_not]
        omega
      rw [hl] at h
      rw [placeSecs_of_not_inHbm hj, hb']
      simp only [Option.map_some, hi, hj, Bool.false_or, inScratchpad, hl, hb', Bool.and_eq_true, decide_eq_true_eq] at h ⊢
      exact ⟨h.1, by omega⟩

theorem overlaps_part {a n b m c l : Nat} (h : overlaps b m c l = true) (ha : a ≤ b) (hb : b + m ≤ a + n) : overlaps a n c l = true := by
  simp only [overlaps, Bool.and_eq_true, decide_eq_true_eq] at h ⊢
  omega

/-- A write that meets no frozen region meets none with a part of it (R240). -/
theorem meetsFrozen_part {s : State} {p a n b m : Nat} (h : meetsFrozen s p a n = false) (ha : a ≤ b) (hb : b + m ≤ a + n) :
    meetsFrozen s p b m = false := by
  rw [← Bool.not_eq_true] at h ⊢
  refine fun hm => h ?_
  simp only [meetsFrozen, List.any_eq_true, Bool.and_eq_true] at hm ⊢
  obtain ⟨r, hr, hx, ho⟩ := hm
  exact ⟨r, hr, hx, overlaps_part ho ha hb⟩

/-! ### Regions that cover a range -/

/-- A region that ends above an address and is passed by an access from there ends no longer above. -/
theorem regionsAbove_lt {rs : List Region} {a b : Nat} (hab : a ≤ b) {r : Region} (hr : r ∈ rs) (ha : a < r.base + r.length)
    (hb : r.base + r.length ≤ b) : (rs.filter (fun x => decide (b < x.base + x.length))).length <
      (rs.filter (fun x => decide (a < x.base + x.length))).length := by
  induction rs with
  | nil => cases hr
  | cons x rs ih =>
    have hle : (rs.filter (fun x => decide (b < x.base + x.length))).length ≤
        (rs.filter (fun x => decide (a < x.base + x.length))).length :=
      (List.monotone_filter_right rs (fun y hy => by simp only [decide_eq_true_eq] at hy ⊢; omega)).length_le
    rcases List.mem_cons.1 hr with rfl | hr
    · rw [List.filter_cons_of_neg (by simpa using hb), List.filter_cons_of_pos (by simpa using ha), List.length_cons]
      omega
    · have := ih hr
      by_cases hx : b < x.base + x.length
      · rw [List.filter_cons_of_pos (by simpa using hx), List.filter_cons_of_pos (by simpa using hab.trans_lt hx), List.length_cons,
          List.length_cons]
        omega
      · rw [List.filter_cons_of_neg (by simpa using hx), List.filter_cons]
        split
        · rw [List.length_cons]; omega
        · exact this

/-- A range within one region is covered, whichever regions are met on the way. -/
theorem covered_of_region {rs : List Region} {ok : Region → Bool} {r : Region} (hr : r ∈ rs) (hok : ok r = true) :
    ∀ (fuel a n : Nat), r.base ≤ a → a + n ≤ r.base + r.length →
      (rs.filter (fun x => decide (a < x.base + x.length))).length < fuel → covered rs ok fuel a n = true := by
  intro fuel
  induction fuel with
  | zero => intro a n _ _ h; exact absurd h (Nat.not_lt_zero _)
  | succ fuel ih =>
    intro a n h1 h2 hf
    unfold covered
    split
    · rfl
    · next hn =>
      split
      case h_1 x hx =>
        have hx' := List.find?_some hx
        have hm := List.mem_of_find?_eq_some hx
        simp only [Bool.and_eq_true, decide_eq_true_eq] at hx'
        obtain ⟨⟨_, hb⟩, he⟩ := hx'
        rcases Nat.le_total n (x.base + x.length - a) with hle | hle
        · have hz : n - min n (x.base + x.length - a) = 0 := by omega
          rw [hz]
          cases fuel <;> rfl
        · have hmin : min n (x.base + x.length - a) = x.base + x.length - a := Nat.min_eq_right hle
          rw [hmin]
          refine ih _ _ (by omega) (by omega) ?_
          have := regionsAbove_lt (rs := rs) (a := a) (b := a + (x.base + x.length - a)) (by omega) hm he (by omega)
          omega
      case h_2 hx =>
        rw [List.find?_eq_none] at hx
        refine absurd ?_ (hx r hr)
        simp only [hok, Bool.true_and, Bool.and_eq_true, decide_eq_true_eq]
        omega

/-! ### Arguments that may be written -/

/-- An accepted address argument in device memory may be written in every part of it (R30, R36, R240, R365). -/
theorem argOk_of_addrOk {c : Cmd} {s : State} {w : Word} {n b m : Nat} (h : addrOk c s w n true = true) (hw : isHostAddr w = false)
    (ha : argAddr w ≤ b) (hb : b + m ≤ argAddr w + n) (hm : 0 < m) : argOk s c.fn b m true = true := by
  simp only [addrOk, hw, Bool.false_eq_true, if_false, if_true, Bool.and_eq_true, List.any_eq_true] at h
  obtain ⟨_, hp, r, hr, ⟨⟨⟨⟨hpres, hown⟩, hpart⟩, hbase⟩, hend⟩, hwr, hfr⟩ := h
  simp only [decide_eq_true_eq, Bool.not_eq_true'] at hbase hend hfr
  have hsome : (s.fn c.fn).part = some r.part := (beq_iff_eq.1 hpart).symm
  have hfn : fnPart s c.fn = r.part := by rw [fnPart, hsome]; rfl
  rw [hfn] at hp hfr
  have hmem : r ∈ ownedRegions s c.fn := by
    simp only [owns, Bool.and_eq_true] at hown
    simp only [ownedRegions, List.mem_filter, Bool.and_eq_true]
    exact ⟨hr, ⟨⟨hpres, hown.1⟩, hown.2⟩, hpart⟩
  have hcov : covered (ownedRegions s c.fn) (fun r => r.write) ((ownedRegions s c.fn).length + 1) b m = true :=
    covered_of_region hmem hwr _ _ _ (by omega) (by omega) (Nat.lt_succ_of_le (List.length_filter_le _ _))
  simp only [argOk, hsome, inPartition_part hp ha hb hm, meetsFrozen_part hfr ha hb, if_true, hcov]
  rfl

/-! ### The checks after a store -/

variable {s t : State}

/-- Which bytes a partition may name rests on what stays of the partitions. -/
theorem inPartition_congr (hr : Rests s t) (p a n : Nat) : inPartition t p a n = inPartition s p a n := by
  have hp (p : Nat) : (t.part p).mask = (s.part p).mask ∧ (t.part p).present = (s.part p).present ∧
      (t.part p).units = (s.part p).units :=
    ⟨hr.part_get Part.mask (fun _ => rfl) p, hr.part_get Part.present (fun _ => rfl) p, hr.part_get Part.units (fun _ => rfl) p⟩
  have hsec (n : Nat) : secUnits t n = secUnits s n := by
    have : secPart t n = secPart s n := by
      simp only [secPart, fun p => (hp p).1, fun p => (hp p).2.1]
    rw [secUnits, secUnits, this]
    cases secPart s n with
    | none => rfl
    | some p => exact (hp p).2.2
  simp only [inPartition, inScratchpad, hsec, fun p => (hp p).1, fun p => (hp p).2.1]

theorem argOk_congr (hr : Rests s t) (hg : Area.regions.same s t) (hc : Area.ctxs.same s t) (f a n : Nat) (x : Bool) :
    argOk t f a n x = argOk s f a n x := by
  have hpart : (t.fn f).part = (s.fn f).part := hr.fn_get FnState.part (fun _ => rfl) f
  have hgt : t.objs.regions = s.objs.regions := hg
  simp only [argOk, hpart, inPartition_congr hr, ownedRegions, meetsFrozen, hgt, ctx_same hc]

theorem argOk_writeArg (s : State) (g : Nat) (w : Word) (off : Nat) (l : List Byte) (f a n : Nat) (x : Bool) :
    argOk (writeArg s g w off l) f a n x = argOk s f a n x := by
  have h := within_writeArg s g w off l (Within.refl s) (Sub.refl _)
  exact argOk_congr (rests_writeArg s g w off l) (h.same .regions (by decide)) (h.same .ctxs (by decide)) f a n x

theorem busMaster_writeArg (s : State) (g : Nat) (w : Word) (off : Nat) (l : List Byte) (f : Nat) :
    ((writeArg s g w off l).fn f).busMaster = (s.fn f).busMaster :=
  (rests_writeArg s g w off l).fn_get FnState.busMaster (fun _ => rfl) f

/-! ### Tables of bytes -/

/-- Bytes put one after the other are put at once. -/
theorem putBytes_append (t : List Cell) (a : Nat) (l m : List Byte) : putBytes t a (l ++ m) = putBytes (putBytes t a l) (a + l.length) m := by
  induction l generalizing t a with
  | nil => rfl
  | cons b l ih =>
    rw [List.cons_append, putBytes, putBytes, ih, List.length_cons]
    congr 1
    omega

/-- Bytes put where an address argument points, and nowhere else, have been written there. -/
theorem wrote_of_putBytes {w : Word} {l : List Byte}
    (hd : t.mem.bytes = if isHostAddr w then s.mem.bytes else putBytes s.mem.bytes (argAddr w) l)
    (hh : t.hostMem = if isHostAddr w then putBytes s.hostMem (argAddr w) l else s.hostMem) : Wrote s t w l := by
  unfold Wrote readArg
  cases hw : isHostAddr w
  · simp only [hw, Bool.false_eq_true, if_false] at hd hh
    simp only [Bool.false_eq_true, if_false, Nat.add_zero, memByte, hostByte, readBytes, hd, hh]
    refine ⟨readBack_putBytes _ _ _, fun a ha => ?_, fun _ _ => trivial⟩
    rw [tabGet_putBytes, if_neg (by rcases ha with h | h | h <;> first | omega | cases h)]
  · simp only [hw, if_true] at hd hh
    simp only [if_true, Nat.add_zero, memByte, hostByte, readHost, hd, hh]
    refine ⟨readBack_putBytes _ _ _, fun _ _ => trivial, fun a ha => ?_⟩
    rw [tabGet_putBytes, if_neg (by rcases ha with h | h | h <;> first | omega | cases h)]

/-! ### Rings -/

/-- Where an address argument may be used for `n` bytes as `writeArg` checks it piece by piece, in pieces of `k` bytes. -/
def PiecesOk (s : State) (f : Nat) (w : Word) (k n : Nat) : Prop :=
  (isHostAddr w = true → (s.fn f).busMaster = true) ∧
  (isHostAddr w = false → ∀ i, i < n → argOk s f (argAddr w + k * i) k true = true)

/-- Equal pieces written one after the other where an address argument points. -/
theorem writeArg_pieces (s : State) (f : Nat) (w : Word) (l : List Byte) (n : Nat) (h : PiecesOk s f w l.length n) :
    let t := forEach (upTo n) s (fun i t => writeArg t f w (l.length * i) l)
    let out := (List.replicate n l).flatten
    Rests s t ∧ Within (maskOf [3, 4, 5, 6, 7, 12, 27]) s t ∧
      t.mem.bytes = (if isHostAddr w then s.mem.bytes else putBytes s.mem.bytes (argAddr w) out) ∧
      t.hostMem = (if isHostAddr w then putBytes s.hostMem (argAddr w) out else s.hostMem) := by
  induction n with
  | zero => exact ⟨Rests.refl s, Within.refl s, by cases isHostAddr w <;> rfl, by cases isHostAddr w <;> rfl⟩
  | succ n ih =>
    obtain ⟨hm, ha⟩ := h
    obtain ⟨hr, hw, hd, hh⟩ := ih ⟨hm, fun hw i hi => ha hw i (Nat.lt_succ_of_lt hi)⟩
    simp only [forEach, upTo, List.range_succ, List.foldl_append, List.foldl_cons, List.foldl_nil] at hr hw hd hh ⊢
    generalize (List.range n).foldl (fun t a => writeArg t f w (l.length * a) l) s = t at hr hw hd hh ⊢
    have hlen : ((List.replicate n l).flatten).length = l.length * n := by
      simp [List.length_flatten, Nat.mul_comm]
    have hout : (List.replicate (n + 1) l).flatten = (List.replicate n l).flatten ++ l := by
      rw [List.replicate_succ', List.flatten_append, List.flatten_singleton]
    refine ⟨hr.trans (rests_writeArg _ _ _ _ _), within_writeArg _ _ _ _ _ hw rfl, ?_, ?_⟩
    · unfold writeArg
      cases hx : isHostAddr w
      · have hok : argOk t f (argAddr w + l.length * n) l.length true = true :=
          (argOk_congr hr (hw.same .regions (by decide)) (hw.same .ctxs (by decide)) _ _ _ _).trans (ha hx n (Nat.lt_succ_self n))
        simp only [hx, Bool.false_eq_true, if_false, hok, if_true] at hd ⊢
        rw [bytes_storeBytes, hd, hout, putBytes_append, hlen]
      · have hb : (t.fn f).busMaster = true := (hr.fn_get FnState.busMaster (fun _ => rfl) f).trans (hm hx)
        simp only [hx, if_true, hb] at hd ⊢
        exact hd
    · unfold writeArg
      cases hx : isHostAddr w
      · simp only [hx, Bool.false_eq_true, if_false] at hh ⊢
        split
        · rw [← hh]
          exact (within_storeBytes _ _ _ (Within.refl _) (Sub.refl _)).same .hostMemory (by decide)
        · exact hh
      · have hb : (t.fn f).busMaster = true := (hr.fn_get FnState.busMaster (fun _ => rfl) f).trans (hm hx)
        simp only [hx, if_true, hb] at hh ⊢
        rw [writeHost, hh, hout, putBytes_append, hlen]

theorem length_unready : unready.length = 32 := rfl

/-- A completion ring filled with the unready pattern (R352). -/
theorem fillRing_wrote (s : State) (q : Nat) (w : Word) (hq : (s.queue q).cq = some w)
    (h : PiecesOk s (s.queue q).fn w 32 (s.queue q).m) : Wrote s (fillRing s q) w (List.replicate (s.queue q).m unready).flatten := by
  obtain ⟨_, _, hd, hh⟩ := writeArg_pieces s (s.queue q).fn w unready (s.queue q).m h
  unfold fillRing
  simp only [hq]
  exact wrote_of_putBytes hd hh

theorem rests_fillRing (s : State) (q : Nat) : Rests s (fillRing s q) := by
  unfold fillRing
  dsimp only
  split
  · exact rests_foldl _ _ (fun _ _ => rests_writeArg _ _ _ _ _) s
  · exact Rests.refl s

/-- An accepted argument for a ring may be written piece by piece. -/
theorem piecesOk_of_addrOk {c : Cmd} {s : State} {w : Word} {k n : Nat} (hk : 0 < k) (h : addrOk c s w (k * n) true = true) :
    PiecesOk s c.fn w k n := by
  refine ⟨addrOk_master h, fun hw i hi => argOk_of_addrOk h hw (by omega) ?_ hk⟩
  have : k * i + k ≤ k * n := by rw [← Nat.mul_succ]; exact Nat.mul_le_mul_left k hi
  omega

end Sys2Proof.Machine
end

section
/-! HELLO, BYE, PING, CMDQ_OPEN and CMDQ_CLOSE (R344, R349, R360, R362, R368, R377). -/

namespace Sys2Proof.Machine

section
variable {i : Instr} {refuse : Cmd → State → Option Nat} {effect : Cmd → State → CmdOut} {rq : Req} {op : Nat} {args : List Word}
  {s : State}

/-- An accepted command whose effect ends with OK answers. -/
theorem answers_of_done {r : Word} {u : State} (hx : exec i s = .next (runRow refuse effect op rq args s))
    (h : Accepted refuse rq op args s) (he : effect (cmdOf rq op args) (before rq op args s) = .done 0 r u) :
    Answers i rq op args s r u := hx.trans (congrArg _ (accepted_done h he))

/-- An accepted command whose effect waits waits. -/
theorem waits_of_wait {k : PendKind} {u : State} (hx : exec i s = .next (runRow refuse effect op rq args s))
    (h : Accepted refuse rq op args s) (he : effect (cmdOf rq op args) (before rq op args s) = .wait k u) :
    Waits i rq op s k u := hx.trans (congrArg _ (accepted_wait h he))

/-- The own check of an accepted command refuses nothing. -/
theorem Accepted.own (h : Accepted refuse rq op args s) : refuse (cmdOf rq op args) (before rq op args s) = none := h.2.2

end

variable {s t : State}

/-- What lies within a mask lies within each list that holds the mask's areas. -/
theorem Within.only {μ : Nat} {l : List Area} (h : Within μ s t) (hl : μ &&& areaMask l = μ) : Only l s t := by
  refine only_mk h fun a ha => ?_
  rw [← hl, Nat.testBit_and, testBit_areaMask ha, Bool.and_false]

/-! ### The areas of single updates -/

theorem within_setFn_self (s : State) (f : Nat) (v : FnState) : Within 128 s (s.setFn f v) :=
  within_setFn s f v (Within.refl s) (Sub.refl _)

/-! ### Sessions -/

theorem setFn_frame (s : State) (f : Nat) (v : FnState) :
    (s.setFn f v).fn f = v ∧ (∀ g, g ≠ f → (s.setFn f v).fn g = s.fn g) ∧ Only [.functions] s (s.setFn f v) :=
  ⟨fn_setFn s f v, fun _ h => fn_setFn_ne s v h.symm, (within_setFn_self s f v).only rfl⟩

/-! ### The command queue -/

theorem pickIndex_state {n i : Nat} {free : Nat → Bool} (h : pickIndex s n free = some (i, t)) : t = s.freeDraw.2 := by
  simp only [pickIndex, Option.map_eq_some_iff, Prod.mk.injEq] at h
  obtain ⟨_, _, _, rfl⟩ := h
  rfl

/-- A queue made is put into the table, and its ring filled. -/
theorem makeQueue_eq {x : Queue} {q : Nat} (h : makeQueue s x = some (q, t)) :
    ∃ j, t = fillRing (s.freeDraw.2.freeDraw.2.setQueue q { x with present := true, gen := (s.queue q).gen, slot := j }) q := by
  unfold makeQueue at h
  split at h
  case h_1 => cases h
  case h_2 q' v hv =>
    rw [pickIndex_state hv] at h
    split at h
    case h_1 => cases h
    case h_2 j v' hv' =>
      rw [pickIndex_state hv'] at h
      cases h
      exact ⟨j, rfl⟩

theorem rests_makeQueue {x : Queue} {q : Nat} (h : makeQueue s x = some (q, t)) : Rests s t := by
  obtain ⟨j, rfl⟩ := makeQueue_eq h
  exact (rests_fillRing _ _).after rfl rfl rfl

/-- The completion ring of a queue made holds the unready pattern (R352). -/
theorem makeQueue_wrote {x : Queue} {q : Nat} {w : Word} (h : makeQueue s x = some (q, t)) (hw : x.cq = some w)
    (hp : PiecesOk s x.fn w 32 x.m) : Wrote s t w (List.replicate x.m unready).flatten := by
  obtain ⟨j, rfl⟩ := makeQueue_eq h
  have hq := queue_setQueue s.freeDraw.2.freeDraw.2 q { x with present := true, gen := (s.queue q).gen, slot := j }
  have hf := fillRing_wrote (s.freeDraw.2.freeDraw.2.setQueue q { x with present := true, gen := (s.queue q).gen, slot := j }) q w
    (by rw [hq]; exact hw) (by rw [hq]; exact hp)
  rw [hq] at hf
  exact hf

/-- What a write of a function leaves of bytes. -/
theorem wrote_setFn {w : Word} {l : List Byte} (h : Wrote s t w l) (f : Nat) (v : FnState) : Wrote s (t.setFn f v) w l := h

/-- Setting the command queue of a function keeps what a state rests but for it. -/
theorem fnRest_setFn_cmdq (h : Rests s t) (f g : Nat) (c : Option Nat) :
    fnRest ((t.setFn f { t.fn f with cmdq := c }).fn g) = fnRest (if g = f then { s.fn g with cmdq := c } else s.fn g) := by
  by_cases hg : g = f
  · subst hg
    rw [fn_setFn, if_pos rfl]
    exact congrArg (fun y : FnState => { y with cmdq := c }) (h.fn g)
  · rw [fn_setFn_ne _ _ (Ne.symm hg), if_neg hg, h.fn g]

/-- The queue that CMDQ_OPEN asks for. -/
def openedQueue (c : Cmd) (s : State) : Queue :=
  { part := ((s.fn c.fn).part).getD 0, kind := 0, fn := c.fn, ring := c.arg 0, n := c.val 1, cq := some (c.arg 2), m := c.val 3,
    vector := c.val 4, mode := .enabled }

/-- CMDQ_OPEN, where a queue can be made, answers its handle and binds it to its function (R368). -/
theorem effectCmdqOpen_of_makeQueue {c : Cmd} {q : Nat} (h : makeQueue s (openedQueue c s) = some (q, t))
    (hg : (t.queue q).gen = (s.queue q).gen) : effectCmdqOpen c s =
      .done 0 (mkHandle 2 (((s.fn c.fn).part).getD 0) (s.queue q).gen q) (t.modFn c.fn (fun f => { f with cmdq := some q })) := by
  rw [← hg]
  unfold effectCmdqOpen
  unfold openedQueue at h
  dsimp only
  rw [h]

/-- CMDQ_CLOSE drains an ENABLED queue, waits for one that drains, and removes any other (R355, R377). -/
theorem effectCmdqClose_of_enabled {c : Cmd} {q : Nat} (h : (s.fn c.fn).cmdq = some q) (hm : (s.queue q).mode = .enabled) :
    effectCmdqClose c s = .wait (.cmdqClose q) (stopQueue s q true) := by
  simp only [effectCmdqClose, h, hm]

theorem effectCmdqClose_of_draining {c : Cmd} {q : Nat} (h : (s.fn c.fn).cmdq = some q) (hm : (s.queue q).mode = .draining) :
    effectCmdqClose c s = .wait (.cmdqClose q) s := by
  simp only [effectCmdqClose, h, hm]

/-- The state without a command queue that has been closed. -/
def cmdqGone (s : State) (f q : Nat) : State :=
  pruneTokens ((s.setFn f { s.fn f with cmdq := none }).setQueue q { gen := (s.queue q).gen + 1 })

theorem effectCmdqClose_of_idle {c : Cmd} {q : Nat} (h : (s.fn c.fn).cmdq = some q)
    (hm : (s.queue q).mode = .disabled ∨ (s.queue q).mode = .error) : effectCmdqClose c s = okWith 0 (cmdqGone s c.fn q) := by
  rcases hm with hm | hm <;> simp only [effectCmdqClose, h, hm] <;> rfl

theorem cmdqGone_only (s : State) (f q : Nat) : Only [.functions, .queues, .tokens] s (cmdqGone s f q) :=
  (within_pruneTokens _ (within_setQueue _ _ _ (within_setFn s f _ (Within.refl s) (μ := 1408) rfl) rfl) rfl).only rfl

/-- Settles O1, from the effect of each command: HELLO and BYE set the function's session, PING nothing, CMDQ_OPEN makes a queue with
its ring, CMDQ_CLOSE stops or removes it. -/
theorem sessionAndCommandQueueCommands : Obligations.SessionAndCommandQueueCommands := by
  unfold Obligations.SessionAndCommandQueueCommands
  refine ⟨fun rq arg s h => ?hello, fun rq arg s h => ?bye, fun rq arg s h => answers_of_done rfl h rfl,
    fun rq ring n cq m vector s => ?opens, fun rq arg s q => ?closes⟩
  case hello => exact ⟨_, answers_of_done rfl h rfl, setFn_frame _ _ _⟩
  case bye => exact ⟨_, answers_of_done rfl h rfl, setFn_frame _ _ _⟩
  case opens =>
    intro args b f h hq hj
    have haddr : addrOk (cmdOf rq 0x10 args) b cq (32 * m.toNat) true = true :=
      addr_of_refusal h.own (.tail _ (.tail _ (.tail _ (.head _))))
    obtain ⟨q, j, t, h1, h2, h3, h4, h5, h6, h7, h8⟩ := makeQueue_some b (openedQueue (cmdOf rq 0x10 args) b) hq hj
    have hr : Rests b t := rests_makeQueue h5
    refine ⟨t.setFn f { t.fn f with cmdq := some q }, q, j, h1, h2, h3, h4, answers_of_done rfl h (effectCmdqOpen_of_makeQueue h5 ?gen),
      h6, h7, fun g => fnRest_setFn_cmdq hr f g _, hr.part, ?ring, ?areas⟩
    case gen => rw [h6]
    case ring => exact wrote_setFn (makeQueue_wrote h5 rfl (piecesOk_of_addrOk (by decide) haddr)) f _
    case areas =>
      intro a ha
      exact Area.same_trans (h8 a ha) ((setFn_frame t f _).2.2 a (fun e => ha (by rw [List.mem_singleton.1 e]; decide)))
  case closes =>
    intro args b h hq
    refine ⟨fun hm => ⟨_, waits_of_wait rfl h (effectCmdqClose_of_enabled hq hm), ?enabled⟩,
      fun hm => waits_of_wait rfl h (effectCmdqClose_of_draining hq hm),
      fun hm => ⟨_, answers_of_done rfl h (effectCmdqClose_of_idle hq hm), ?idle⟩⟩
    case enabled =>
      obtain ⟨h1, h2⟩ := stopQueue_queue b q true hm
      exact ⟨h1, h2, (within_stopQueue b q true (Within.refl b) (Sub.refl _)).only rfl⟩
    case idle =>
      refine ⟨(pruneTokens_queue _ q).trans (queue_setQueue _ _ _),
        fun r hr => (pruneTokens_queue _ r).trans (queue_setQueue_ne _ _ hr.symm), ?_, cmdqGone_only b _ q⟩
      exact congrArg FnState.cmdq (fn_setFn b rq.fn.val { b.fn rq.fn.val with cmdq := none })

end Sys2Proof.Machine
end

section
/-! RPL_RECORD, RPL_MARK, RPL_STATUS, RPL_STOP and RPL_REPLAY (R263 to R269, R377), and the frames of single updates. -/

namespace Sys2Proof.Machine

variable {s t u : State}

/-- What differs in listed areas after what differs in listed areas. -/
theorem Only.trans {l m n : List Area} (h : Only l s t) (g : Only m t u) (hl : ∀ a ∈ l, a ∈ n) (hm : ∀ a ∈ m, a ∈ n) :
    Only n s u := fun a ha => Area.same_trans (h a (fun e => ha (hl a e))) (g a (fun e => ha (hm a e)))

theorem Only.mono {l m : List Area} (h : Only l s t) (hl : ∀ a ∈ l, a ∈ m) : Only m s t := fun a ha => h a (fun e => ha (hl a e))

theorem Only.refl (l : List Area) (s : State) : Only l s s := fun a _ => (Within.refl (μ := 0) s).same a (Nat.zero_testBit _)

/-! ### Single updates -/

/-- A context given a record: the other contexts and everything else are as they were. -/
theorem setCtx_frame (s : State) (c : Nat) (v : Ctx) :
    (s.setCtx c v).ctx c = v ∧ (∀ j, j ≠ c → (s.setCtx c v).ctx j = s.ctx j) ∧ Only [.ctxs] s (s.setCtx c v) :=
  ⟨ctx_setCtx s c v, fun _ h => ctx_setCtx_ne s v h.symm, (within_setCtx s c v (Within.refl s) (Sub.refl _)).only rfl⟩

/-- Registers of different names have different keys in each copy. -/
theorem regKey_ne_of_num {a b : RegName} (i j : Nat) (h : a.num ≠ b.num) : regKey ⟨a, i, j⟩ ≠ regKey ⟨b, i, j⟩ := by
  simp only [regKey]
  omega

/-! ### The argument of a short command -/

/-- A short-form argument names its context in its low 24 bits (R374). -/
theorem shortIdx_cmdOf (rq : Req) (op : Nat) (arg : BitVec 48) : shortIdx (cmdOf rq op [arg.setWidth 64]) = bitsOf arg.toNat 23 0 := by
  have h : (arg.setWidth 64).toNat = arg.toNat := by
    rw [BitVec.toNat_setWidth]
    exact Nat.mod_eq_of_lt (arg.isLt.trans (by decide))
  rw [shortIdx, ← h]
  rfl

/-! ### The end of a recording and of a replay -/

/-- A context whose recording and replay have ended (R267). -/
def logsEnded (x : Ctx) : Ctx := { x with log := none, replay := none, logged := recordsWritten x }

/-- Publishing a replay's command leaves the contexts. -/
theorem publishOne_replay_ctxs (s : State) (p : PendCmd) (k : Nat) (hk : p.kind = .rplReplay k) (rc r : Nat) :
    Area.ctxs.same s (publishOne s p rc r) := by
  simp only [publishOne, hk]
  exact (within_publish { s with host := { s.host with commands := s.host.commands.erase p } } _ _ _ _ _ _ (Within.refl _)
    (Sub.refl _)).same .ctxs (by decide)

/-- RPL_STOP ends the logs of its context, and publishes the command of a replay. -/
theorem rplStop_state_of_replay {c : Cmd} {s : State} {g : Log} {p : PendCmd} (hr : (s.ctx (shortIdx c)).replay = some g)
    (hp : s.host.commands.find? (fun p => p.kind == .rplReplay (shortIdx c)) = some p) :
    (effectRplStop c s).state = publishOne (s.modCtx (shortIdx c) logsEnded) p 0 g.seq := by
  simp only [effectRplStop, okWith, CmdOut.state, hr, modCtx_eq, setCtx_host, hp]
  rfl

theorem rplStop_state_of_not {c : Cmd} {s : State} (h : ∀ g p, (s.ctx (shortIdx c)).replay = some g →
    s.host.commands.find? (fun p => p.kind == .rplReplay (shortIdx c)) ≠ some p) :
    (effectRplStop c s).state = s.modCtx (shortIdx c) logsEnded := by
  simp only [effectRplStop, okWith, CmdOut.state]
  split
  · next g p hr hp => exact absurd hp (h g p hr)
  · rfl

theorem rplStop_ctxs (c : Cmd) (s : State) : Area.ctxs.same (s.modCtx (shortIdx c) logsEnded) (effectRplStop c s).state := by
  by_cases h : ∃ g p, (s.ctx (shortIdx c)).replay = some g ∧ s.host.commands.find? (fun p => p.kind == .rplReplay (shortIdx c)) = some p
  · obtain ⟨g, p, hr, hp⟩ := h
    have hk : (p.kind == .rplReplay (shortIdx c)) = true := List.find?_some (p := fun p : PendCmd => p.kind == PendKind.rplReplay (shortIdx c)) hp
    rw [rplStop_state_of_replay hr hp]
    exact publishOne_replay_ctxs _ _ _ (beq_iff_eq.1 hk) _ _
  · rw [rplStop_state_of_not fun g p hr hp => h ⟨g, p, hr, hp⟩]
    rfl

/-! ### The start of a replay -/

/-- RPL_DIVERGE is cleared when a replay starts (R268). -/
def divergeCleared (s : State) (p : Nat) : State := (s.setFld fRplLogDiverged p 0 0).setRaw ⟨.rplDiverge, p, 0⟩ 0

theorem raw_divergeCleared (s : State) (p : Nat) : (divergeCleared s p).raw ⟨.rplDiverge, p, 0⟩ = 0 := raw_setRaw_same _ _ _

theorem fld_divergeCleared (s : State) (p : Nat) : (divergeCleared s p).fld fRplLogDiverged p 0 = 0 :=
  (fld_setRaw_key _ _ (regKey_ne_of_num p 0 (by decide))).trans (fld_setFld_same _ _ _ _ _ (by decide) (by decide))

theorem divergeCleared_only (s : State) (p : Nat) : Only [.registers] s (divergeCleared s p) :=
  (within_setRaw _ _ _ (within_setFld s _ _ _ _ (Within.refl s) (Sub.refl _)) (Sub.refl _)).only rfl

/-- Settles O2: each command changes the logs or the marks of its context, and RPL_REPLAY clears RPL_DIVERGE besides. -/
theorem logCommands : Obligations.LogCommands := by
  unfold Obligations.LogCommands
  refine ⟨fun rq ctx addr len payload s => ends_mk rfl fun b _ _ => ⟨_, _, rfl, rfl, setCtx_frame _ _ _⟩,
    fun rq ctx tally tensor n s => ends_mk rfl fun b _ _ => ⟨_, _, rfl, rfl, setCtx_frame _ _ _⟩,
    fun rq arg s => ends_mk rfl fun b _ _ => ?status, fun rq arg s => ends_mk rfl fun b _ _ => ?stop,
    fun rq ctx addr len s => pends_mk rfl fun b _ _ => ⟨_, rfl, ?replay⟩⟩
  case status =>
    refine ⟨_, _, rfl, ?_, rfl⟩
    rw [← shortIdx_cmdOf rq 0x06 arg]
  case stop =>
    have hk := shortIdx_cmdOf rq 0x05 arg
    have hc := rplStop_ctxs (cmdOf rq 0x05 [arg.setWidth 64]) b
    rw [← hk]
    refine ⟨_, _, rfl, rfl, (ctx_same hc _).trans (ctx_setCtx _ _ _), fun j hj => (ctx_same hc j).trans (ctx_setCtx_ne _ _ hj.symm),
      fun hr => ?_, fun g p hr hp => ?_⟩
    · show Only [.ctxs] b (effectRplStop _ b).state
      rw [rplStop_state_of_not fun g p h => absurd (hr.symm.trans h) (by simp)]
      exact (setCtx_frame _ _ _).2.2
    · exact rplStop_state_of_replay hr hp
  case replay =>
    obtain ⟨h1, h2, h3⟩ := setCtx_frame (divergeCleared b (fnPart b rq.fn.val)) (hIdx ctx)
      { b.ctx (hIdx ctx) with replay := some ⟨addr.toNat, len.toNat, 0, 0, true, false⟩ }
    exact ⟨h1, raw_divergeCleared b _, fld_divergeCleared b _, h2,
      (divergeCleared_only b _).trans h3 (by decide) (by decide)⟩

end Sys2Proof.Machine
end

section
/-! PART_CREATE, PART_ASSIGN, PART_SCHED, PART_CACHE and SLOT_TABLE (R49, R242, R256, R257, R363, R386, R502). -/

namespace Sys2Proof.Machine

variable {s t : State}

/-- A partition given a record: the other partitions and everything else are as they were. -/
theorem setPart_frame (s : State) (p : Nat) (v : Part) :
    (s.setPart p v).part p = v ∧ (∀ q, q ≠ p → (s.setPart p v).part q = s.part q) ∧ Only [.parts] s (s.setPart p v) :=
  ⟨part_setPart s p v, fun _ h => part_setPart_ne s v h.symm, (within_setPart s p v (Within.refl s) (Sub.refl _)).only rfl⟩

/-- The lowest number that a list of the numbers below a bound holds. -/
theorem find_upTo_eq_some {n k : Nat} {f : Nat → Bool} (h : (upTo n).find? f = some k) :
    k < n ∧ f k = true ∧ ∀ j, j < k → f j = false := by
  rw [upTo, List.find?_range_eq_some] at h
  obtain ⟨hf, hk, hj⟩ := h
  exact ⟨List.mem_range.1 hk, hf, fun j hlt => by simpa using hj j hlt⟩

/-! ### PART_CREATE -/

/-- The registers and the clock of a partition that is created: its trace starts anew, and a slew ends before Winter (R466). -/
def partCleared (c : Cmd) (s : State) (p : Nat) : State :=
  let t := s.clearRegs (fun r i _ => i == p && traceRegs.contains r)
  if c.val 2 = 1 then endSlew t else t

theorem partCleared_only (c : Cmd) (s : State) (p : Nat) : Only [.registers, .power] s (partCleared c s p) := by
  have h : Within 67108872 s (s.clearRegs (fun r i _ => i == p && traceRegs.contains r)) := within_clearRegs _ _ (Within.refl s) rfl
  exact (within_ite (within_endSlew _ h rfl) h).only rfl

/-- The partition that PART_CREATE makes (R386). -/
def newPart (c : Cmd) (s : State) : Part :=
  { present := true, mask := c.val 0, isSealed := c.val 1 == 1, units := c.val 3, winter := c.val 2 == 1,
    descVer := ((s.fn c.fn).session.map (·.desc)).getD 0x10, fmtVer := ((s.fn c.fn).session.map (·.fmt)).getD 0x10 }

theorem effectPartCreate_of_free {c : Cmd} {p : Nat} (h : freePartNum s = some p) :
    effectPartCreate c s = okWith p ((partCleared c s p).setPart p (newPart c s)) := by
  unfold effectPartCreate
  rw [h]
  unfold newPart
  cases (s.fn c.fn).session <;> rfl

/-! ### PART_SCHED -/

/-- The registers and the clock of a partition that enters a schedule (R242, R466). -/
def schedEntered (s : State) (p : Nat) (w : Bool) : State := enterSched (if w then endSlew s else s) p w

theorem schedEntered_only (s : State) (p : Nat) (w : Bool) : Only [.registers, .power] s (schedEntered s p w) := by
  have h : Within 67108872 s (if w then endSlew s else s) := within_ite (within_endSlew _ (Within.refl s) rfl) (Within.refl s)
  exact (within_enterSched _ _ _ h rfl).only rfl

/-- The work clock's register starts at 0 (R242). -/
theorem raw_schedEntered (s : State) (p : Nat) (w : Bool) : (schedEntered s p w).raw ⟨.rplWork, p, 0⟩ = 0 := by
  cases w
  · exact (raw_setFld_key _ _ (regKey_ne_of_num p 0 (by decide))).trans <|
      (raw_setFld_key _ _ (regKey_ne_of_num p 0 (by decide))).trans <|
      (raw_setFld_key _ _ (regKey_ne_of_num p 0 (by decide))).trans <|
      (raw_setFld_key _ _ (regKey_ne_of_num p 0 (by decide))).trans (raw_setRaw_same _ _ _)
  · exact raw_setRaw_same _ _ _

theorem effectPartSched_same {c : Cmd} (h : (s.part (myPart c s)).winter = (c.val 0 == 1)) : effectPartSched c s = okWith 0 s := by
  simp only [effectPartSched, h, beq_self_eq_true, if_true]

theorem effectPartSched_change {c : Cmd} (h : (s.part (myPart c s)).winter ≠ (c.val 0 == 1)) :
    effectPartSched c s = okWith 0 ((schedEntered s (myPart c s) (c.val 0 == 1)).modPart (myPart c s) (fun x => { x with
      winter := c.val 0 == 1, table := if c.val 0 == 1 then x.table else none, held := false, causes := [] })) := by
  simp only [effectPartSched, beq_eq_false_iff_ne.2 h, Bool.false_eq_true, if_false]
  rfl

/-! ### PART_CACHE -/

theorem rests_zeroRange (s : State) (a n : Nat) : Rests s (zeroRange s a n) := rests_tables rfl rfl rfl

/-- The cache part written back, and the memory that changes sides zeroed (R49). -/
def partFlushed (s : State) (p old u : Nat) : State :=
  forEach (maskSecs ((flushPart s p).1.part p).mask) (flushPart s p).1 (fun n t =>
    zeroRange t (loamAddr n ((48 - max old u) * cacheUnit)) ((max old u - min old u) * cacheUnit))

theorem rests_partFlushed (s : State) (p old u : Nat) : Rests s (partFlushed s p old u) :=
  (rests_flushPart s p).trans (rests_foldl _ _ (fun _ _ => rests_zeroRange _ _ _) _)

theorem partFlushed_only (s : State) (p old u : Nat) : Only readAreas s (partFlushed s p old u) :=
  (within_forEach (within_flushPart s p (Within.refl s) (Sub.refl _)) (fun _ _ ht => within_zeroRange _ _ _ ht rfl)).only rfl

theorem effectPartCache_same {c : Cmd} (h : (s.part (myPart c s)).units = c.val 0) : effectPartCache c s = okWith 0 s := by
  simp only [effectPartCache, h, if_true]

theorem effectPartCache_change {c : Cmd} (h : (s.part (myPart c s)).units ≠ c.val 0) : effectPartCache c s =
    okWith (flushPart s (myPart c s)).2 ((partFlushed s (myPart c s) (s.part (myPart c s)).units (c.val 0)).modPart (myPart c s)
      (fun x => { x with units := c.val 0 })) := by
  simp only [effectPartCache, h, if_false]
  rfl

/-- A change of a partition's units after what leaves partitions but for their causes. -/
theorem partRest_setUnits (h : Rests s t) (p q n : Nat) :
    partRest ((t.setPart p { t.part p with units := n }).part q) = partRest (if q = p then { s.part q with units := n } else s.part q) := by
  by_cases hq : q = p
  · subst hq
    rw [part_setPart, if_pos rfl]
    exact congrArg (fun y : Part => { y with units := n }) (h.part q)
  · rw [part_setPart_ne _ _ (Ne.symm hq), if_neg hq, h.part q]

/-- Settles O3, from the effect of each command on the partition or the function that it names. -/
theorem partitionCommands : Obligations.PartitionCommands := by
  unfold Obligations.PartitionCommands
  refine ⟨fun rq mask tenancy schedule units s => ends_mk rfl fun b hb _ => ?create,
    fun rq fn part s => ends_mk rfl fun b _ _ => ⟨_, _, rfl, rfl, setFn_frame _ _ _⟩,
    fun rq schedule s => ends_mk rfl fun b _ _ => ?sched, fun rq units s => ends_mk rfl fun b _ _ => ?cache,
    fun rq addr len s => endsOn_mk rfl fun _ _ => ⟨_, _, rfl, rfl, setPart_frame _ _ _⟩⟩
  case create =>
    have hfree : (freePartNum b).isNone = false :=
      refusal_none hb _ (.tail _ (.tail _ (.tail _ (.tail _ (.tail _ (.tail _ (.head _)))))))
    obtain ⟨p, hp⟩ := Option.isSome_iff_exists.1 (Option.isNone_eq_false_iff.1 hfree)
    obtain ⟨h1, h2, h3⟩ := find_upTo_eq_some hp
    obtain ⟨g1, g2, g3⟩ := setPart_frame (partCleared (cmdOf rq 0x18 [mask, tenancy, schedule, units]) b p) p
      (newPart (cmdOf rq 0x18 [mask, tenancy, schedule, units]) b)
    have ho := partCleared_only (cmdOf rq 0x18 [mask, tenancy, schedule, units]) b p
    refine ⟨_, _, effectPartCreate_of_free hp, p, h1, by simpa using h2, fun q hq => by simpa using h3 q hq, rfl, g1, fun q hq => ?_,
      ho.trans g3 (by decide) (by decide)⟩
    rw [g2 q hq, parts_same (ho .parts (by decide))]
  case sched =>
    by_cases h : (b.part (fnPart b rq.fn.val)).winter = (schedule.toNat == 1)
    · exact ⟨_, _, effectPartSched_same h, rfl, fun _ => rfl, fun hne => absurd h hne, fun _ _ => rfl, Only.refl _ _⟩
    · have ho := schedEntered_only b (fnPart b rq.fn.val) (schedule.toNat == 1)
      have hp := parts_same (ho .parts (by decide))
      have hraw := raw_schedEntered b (fnPart b rq.fn.val) (schedule.toNat == 1)
      refine ⟨_, _, effectPartSched_change h, rfl, fun he => absurd he h, fun _ => ⟨?_, ?_, ?_⟩, fun q hq => ?_,
        ho.trans (setPart_frame _ _ _).2.2 (by decide) (by decide)⟩
      · exact (part_setPart _ _ _).trans (congrArg (fun y : Part => { y with
          winter := schedule.toNat == 1, held := false, causes := []
          table := if schedule.toNat == 1 then y.table else none }) (hp _))
      · exact congrArg (getBits · 63 32) hraw
      · exact congrArg (getBits · 31 0) hraw
      · exact (part_setPart_ne _ _ (Ne.symm hq)).trans (hp q)
  case cache =>
    by_cases h : (b.part (fnPart b rq.fn.val)).units = units.toNat
    · exact ⟨_, _, effectPartCache_same h, fun _ => ⟨rfl, rfl⟩, fun hne => absurd h hne, fun _ _ => rfl, fun _ => rfl, Only.refl _ _⟩
    · have hr := rests_partFlushed b (fnPart b rq.fn.val) (b.part (fnPart b rq.fn.val)).units units.toNat
      refine ⟨_, _, effectPartCache_change h, fun he => absurd he h, fun _ => ⟨rfl, ?_⟩, fun q hq => ?_, fun f => hr.fn f,
        (partFlushed_only _ _ _ _).trans (setPart_frame _ _ _).2.2 (by decide) (by decide)⟩
      · exact (partRest_setUnits hr _ _ _).trans (congrArg partRest (if_pos rfl))
      · exact (partRest_setUnits hr _ _ _).trans (congrArg partRest (if_neg hq))

end Sys2Proof.Machine
end

section
/-! What refuses a command before its own checks (R362): the refused row brings its errors into memory all the same (R54). -/

namespace Sys2Proof.Machine

/-- A carrier in mailbox 0 of function 0, which has no session after reset. -/
def bareReq : Req := { fn := 0, via := .mbx 0 0 none, token := 0, host := [] }

/-- MODEL_LOAD with a word that is spoilt on its way to a reader (R63). -/
def spoiltLoad : Instr := .modelLoad bareReq 0 [⟨0, .onPath⟩]

/-- The refused MODEL_LOAD leaves the spoilt word that came with it. -/
theorem exec_spoiltLoad : ∃ t, exec spoiltLoad {} = .next t ∧ t.mem.spoilt = [0] := ⟨_, rfl, rfl⟩

/-- Refutes O57: MODEL_LOAD and CTX_SNAPSHOT are checked in the state with the errors that their row brings into memory, and the refused
row leaves those errors; the statement answers from the state without them. -/
theorem not_commandRefusals : ¬ Obligations.CommandRefusals := by
  unfold Obligations.CommandRefusals
  intro h
  obtain ⟨hsession, _⟩ := h spoiltLoad bareReq 0x51 [0] {} rfl
  obtain ⟨t, ht, hspoilt⟩ := exec_spoiltLoad
  have ha := (hsession rfl (by decide) (by decide)).symm.trans ht
  rw [Host.Outcome.next.injEq] at ha
  have hnone : t.mem.spoilt = [] := ha ▸ rfl
  rw [hspoilt] at hnone
  cases hnone

end Sys2Proof.Machine
end

section
/-! The publication of a command's answer: acknowledgement, command block, completion record (R341, R349, R366, R368). -/

namespace Sys2Proof.Machine

variable {s : State} {f j seq taken rc : Nat}

/-! ### Acknowledgements -/

/-- The acknowledgement register of a mailbox holds VALID, TAKEN, the sequence field and the return code (R341). -/
theorem raw_ackMbx : (ackMbx s f j seq taken rc).raw ⟨.mbxInAck, f, j⟩ =
    BitVec.ofNat 64 (2 ^ 63 + taken % 256 * 2 ^ 40 + seq % 256 * 2 ^ 32 + rc % 2 ^ 16) := by
  unfold ackMbx
  dsimp only
  split
  · exact raw_setRaw_same _ _ _
  · rw [raw_congr ((within_raiseMsix _ _ _ (Within.refl _) (Sub.refl _)).same .registers (by decide))]
    exact raw_setRaw_same _ _ _

theorem ackMbx_of_lost (h : s.fld fMbxInAckValid f j = 1) :
    ∃ w, ackMbx s f j seq taken rc = (s.setFld fMbxInStatusAckLost f j 1).setRaw ⟨.mbxInAck, f, j⟩ w := by
  unfold ackMbx
  generalize BitVec.ofNat 64 _ = w
  simp only [h, beq_self_eq_true, if_true]
  exact ⟨_, rfl⟩

theorem ackMbx_of_fresh (h : s.fld fMbxInAckValid f j ≠ 1) :
    ∃ w, ackMbx s f j seq taken rc = raiseMsix (s.setRaw ⟨.mbxInAck, f, j⟩ w) f 1 := by
  unfold ackMbx
  generalize BitVec.ofNat 64 _ = w
  simp only [beq_eq_false_iff_ne.2 h, Bool.false_eq_true, if_false]
  exact ⟨_, rfl⟩

/-- An acknowledgement that replaces a valid one sets ACK_LOST and raises nothing. -/
theorem ackLost_ackMbx (h : s.fld fMbxInAckValid f j = 1) :
    (ackMbx s f j seq taken rc).fld fMbxInStatusAckLost f j = 1 ∧ (ackMbx s f j seq taken rc).out = s.out := by
  obtain ⟨w, hw⟩ := ackMbx_of_lost (seq := seq) (taken := taken) (rc := rc) h
  rw [hw]
  exact ⟨(fld_setRaw_key _ _ (regKey_ne_of_num f j (by decide))).trans (fld_setFld_same _ _ _ _ _ (by decide) (by decide)), rfl⟩

/-- The vectors raised after one more, of a function that may master the bus. -/
theorem msix_raiseMsix (s : State) (f v : Nat) :
    (raiseMsix s f v).out.msix = s.out.msix ++ (if (s.fn f).busMaster then [(f, v)] else []) := by
  unfold raiseMsix
  split
  · rfl
  · exact (List.append_nil _).symm

/-- A fresh acknowledgement raises vector 1 of a function that may master the bus. -/
theorem msix_ackMbx (h : s.fld fMbxInAckValid f j ≠ 1) : (ackMbx s f j seq taken rc).out.msix =
    s.out.msix ++ (if (s.fn f).busMaster then [(f, 1)] else []) := by
  obtain ⟨w, hw⟩ := ackMbx_of_fresh (seq := seq) (taken := taken) (rc := rc) h
  rw [hw, msix_raiseMsix]
  rfl

/-- The state in which the answer of a mailbox is acknowledged: its function remembers the answer (R370). -/
def ackTold (s : State) (f : Nat) (j : Fin 8) (rc : Nat) : State :=
  let s := s.modFn f (fun x => { x with
    lastTaken := tabSet none x.lastTaken j.val ((tabGet none x.lastTaken j.val).map (fun l => { l with rc := BitVec.ofNat 16 rc, reply := none })) })
  s.modFn f (fun x => { x with
    lastTaken := tabSet none x.lastTaken j.val ((tabGet none x.lastTaken j.val).map (fun l => { l with published := true })) })

theorem busMaster_ackTold (s : State) (f : Nat) (j : Fin 8) (rc : Nat) : ((ackTold s f j rc).fn f).busMaster = (s.fn f).busMaster := by
  simp only [ackTold, State.modFn, fn_setFn]

theorem ackTold_only (s : State) (f : Nat) (j : Fin 8) (rc : Nat) : Only [.functions] s (ackTold s f j rc) :=
  have h : Within 128 s (ackTold s f j rc) := by
    unfold ackTold
    exact within_modFn _ _ _ (within_modFn _ _ _ (Within.refl s) (Sub.refl 128)) (Sub.refl 128)
  h.only rfl

theorem ackMbx_only (s : State) (f j seq taken rc : Nat) : Only [.registers, .out] s (ackMbx s f j seq taken rc) :=
  (within_ackMbx _ _ _ _ _ _ (Within.refl s) (Sub.refl _)).only rfl

section
variable {c : Cmd} {m : Fin 8} {q : Byte} {tag : Nat} {result : Word}

theorem answerNow_short (hv : c.via = .mbx m q none) (hr : hasReply c.op = false) : answerNow c s rc result tag =
    ackMbx (ackTold s c.fn m rc) c.fn m.val q.toNat (s.fld fMbxInStatusTaken c.fn m.val) rc := by
  simp only [answerNow, hv, publish, hr, Bool.false_and, Bool.false_eq_true, if_false]
  rfl

/-- The response bytes of a command block (R366). -/
def blockResponse (rc : Nat) (result : Word) : List Byte := leBytes 2 rc ++ leBytes 6 0 ++ leBytes 8 result.toNat

theorem answerNow_block {b : Nat} (hv : c.via = .mbx m q (some b)) (hr : hasReply c.op = false) (hrc : rc ≠ 0x0F)
    (hm : (s.fn c.fn).busMaster = true) : answerNow c s rc result tag =
      ackMbx (ackTold (writeHost s (b + 64) (blockResponse rc result)) c.fn m rc) c.fn m.val q.toNat
        (s.fld fMbxInStatusTaken c.fn m.val) rc := by
  have hbad : (rc != rcBadBlock) = true := by simpa [rcBadBlock] using hrc
  simp only [answerNow, hv, publish, hr, Bool.false_and, Bool.false_eq_true, if_false]
  simp only [ne_eq, rcBadBlock, hrc, not_false_eq_true, decide_true, hm, Bool.and_self, if_true]
  rfl
end

/-! ### Completion records -/

/-- What is written where an address argument points reads back there (R365). -/
theorem readArg_writeArg {w : Word} {off : Nat} {l : List Byte} (hm : isHostAddr w = true → (s.fn f).busMaster = true)
    (hd : isHostAddr w = false → argOk s f (argAddr w + off) l.length true = true) :
    readArg (writeArg s f w off l) w off l.length = l := by
  unfold readArg writeArg
  cases hw : isHostAddr w
  · simp only [Bool.false_eq_true, if_false, hd hw, if_true]
    exact (storedAt_storeBytes s (argAddr w + off) l).1
  · simp only [if_true, hm hw]
    exact readBack_putBytes _ _ _

theorem length_leBytes (n v : Nat) : (leBytes n v).length = n := by
  induction n generalizing v with
  | zero => rfl
  | succ n ih => rw [leBytes, List.length_cons, ih]

theorem length_recordBytes (q : Nat) (r : Record) (time : Nat) : (recordBytes q r time).length = 32 := by
  simp only [recordBytes, List.length_append, length_leBytes]

section
variable {q : Nat} {r : Record} {w : Word} {bytes : List Byte} {pos : Nat}

/-- The queue with its only entry finished, and then without it. -/
def entryTaken (s : State) (q : Nat) (e : Entry) : State :=
  (s.setQueue q { s.queue q with entries := [e] }).setQueue q { s.queue q with entries := [] }

/-- The only entry of a queue whose ring has room leaves its record there (R350). -/
theorem finishEntry_single (he : (s.queue q).entries = [⟨pos, bytes, .running⟩]) (ha : (s.queue q).recordsAllowed = true)
    (hq : (s.queue q).cq = some w) (hroom : cqRoom (s.queue q) = true) :
    finishEntry s q pos r = writeRecord (entryTaken s q ⟨pos, bytes, .finished r⟩) q r := by
  have h1 : finishEntry s q pos r = flushRecords (s.setQueue q { s.queue q with entries := [⟨pos, bytes, .finished r⟩] }) q 1 := by
    simp [finishEntry, State.modQueue, he, flushQueue]
  have h2 : (!(s.queue q).recordsAllowed || (s.queue q).cq.isNone) = false := by rw [ha, hq]; rfl
  have h3 : cqRoom { s.queue q with entries := [⟨pos, bytes, .finished r⟩] } = true := hroom
  rw [h1]
  unfold flushRecords
  simp only [queue_setQueue, h2, h3, Bool.false_eq_true, if_false, if_true]
  rfl

theorem entryTaken_only (s : State) (q : Nat) (e : Entry) : Only [.queues] s (entryTaken s q e) :=
  (within_setQueue _ _ _ (within_setQueue _ _ _ (Within.refl s) (Sub.refl 256)) (Sub.refl 256)).only rfl

/-- A record written: the ring's next slot holds it, the queue has produced one more, and its vector is raised. -/
theorem writeRecord_some {x : Queue} (hx : s.queue q = x) (hq : x.cq = some w) : writeRecord s q r =
    raiseMsix ((writeArg s x.fn w (32 * (x.produced % x.m)) (recordBytes q r s.now)).setQueue q
      { x with produced := (x.produced + 1) % 2 ^ 32 }) x.fn x.vector := by
  unfold writeRecord
  simp only [hx, hq]

theorem queue_writeRecord {x : Queue} (hx : s.queue q = x) (hq : x.cq = some w) :
    (writeRecord s q r).queue q = { x with produced := (x.produced + 1) % 2 ^ 32 } := by
  rw [writeRecord_some hx hq, queue_same ((within_raiseMsix _ _ _ (Within.refl _) (Sub.refl _)).same .queues (by decide)), queue_setQueue]

theorem readArg_congr {s t : State} (hd : Area.memory.same s t) (hh : Area.hostMemory.same s t) (w : Word) (off n : Nat) :
    readArg t w off n = readArg s w off n := by
  simp only [readArg, readHost, hostByte, readBytes, memByte, bytes_of_memory hd, show t.hostMem = s.hostMem from hh]

theorem readArg_writeRecord {x : Queue} (hx : s.queue q = x) (hq : x.cq = some w) (hm : isHostAddr w = true → (s.fn x.fn).busMaster = true)
    (hd : isHostAddr w = false → argOk s x.fn (argAddr w + 32 * (x.produced % x.m)) 32 true = true) :
    readArg (writeRecord s q r) w (32 * (x.produced % x.m)) 32 = recordBytes q r s.now := by
  have hr := within_raiseMsix ((writeArg s x.fn w (32 * (x.produced % x.m)) (recordBytes q r s.now)).setQueue q
      { x with produced := (x.produced + 1) % 2 ^ 32 }) x.fn x.vector (Within.refl _) (Sub.refl _)
  rw [writeRecord_some hx hq, readArg_congr (hr.same .memory (by decide)) (hr.same .hostMemory (by decide))]
  have h := readArg_writeArg (l := recordBytes q r s.now) hm (by rwa [length_recordBytes])
  rwa [length_recordBytes] at h

theorem msix_writeRecord {x : Queue} (hx : s.queue q = x) (hq : x.cq = some w) :
    (writeRecord s q r).out.msix = s.out.msix ++ (if (s.fn x.fn).busMaster then [(x.fn, x.vector)] else []) := by
  rw [writeRecord_some hx hq, msix_raiseMsix, fn_setQueue, busMaster_writeArg]
  exact congrArg (fun o : Out => o.msix ++ _)
    ((within_writeArg s x.fn w _ (recordBytes q r s.now) (Within.refl _) (Sub.refl _)).same .out (by decide))

theorem writeRecord_only (s : State) (q : Nat) (r : Record) : Only (storeAreas ++ [.queues, .out]) s (writeRecord s q r) :=
  (within_writeRecord _ _ _ (Within.refl s) (Sub.refl _)).only rfl
end

/-- Settles O59: an acknowledgement writes its register, a command block its response bytes, a command queue its ring's next slot. -/
theorem publications : Obligations.Publications := by
  unfold Obligations.Publications
  refine ⟨fun c j seq rc tag result s hv hr => ?short, fun c j seq b rc tag result s hv hr hrc hm => ?block,
    fun c q pos rc tag result w s bytes hv he ha hq hroom hm hd => ?queue⟩
  case short =>
    have hlt : seq.toNat % 256 = seq.toNat := Nat.mod_eq_of_lt seq.isLt
    have ho := ackTold_only s c.fn j rc
    have hf : (ackTold s c.fn j rc).fld fMbxInAckValid c.fn j.val = s.fld fMbxInAckValid c.fn j.val := rfl
    simp only [answerNow_short hv hr]
    refine ⟨by rw [raw_ackMbx, hlt], fun h => ackLost_ackMbx (hf.trans h), fun h => ?_,
      (ackMbx_only _ _ _ _ _ _ .hostMemory (by decide)).trans (ho .hostMemory (by decide)),
      ho.trans (ackMbx_only _ _ _ _ _ _) (by decide) (by decide)⟩
    rw [msix_ackMbx (hf.trans_ne h), busMaster_ackTold]
    rfl
  case block =>
    have hlt : seq.toNat % 256 = seq.toNat := Nat.mod_eq_of_lt seq.isLt
    have hw : Only [.hostMemory] s (writeHost s (b + 64) (blockResponse rc result)) :=
      (within_writeHost _ _ _ (Within.refl s) (Sub.refl _)).only rfl
    have ho : Only [.functions, .registers, .out] (writeHost s (b + 64) (blockResponse rc result)) _ :=
      (ackTold_only _ c.fn j rc).trans (ackMbx_only _ c.fn j.val seq.toNat (s.fld fMbxInStatusTaken c.fn j.val) rc) (by decide) (by decide)
    have hh := ho .hostMemory (by decide)
    have hlen : (blockResponse rc result).length = 16 := by simp only [blockResponse, List.length_append, length_leBytes]
    simp only [answerNow_block hv hr hrc hm, readHost, hostByte]
    rw [hh]
    refine ⟨?_, fun a h => ?_, by rw [raw_ackMbx, hlt], hw.trans ho (by decide) (by decide)⟩
    · rw [← hlen]
      exact readBack_putBytes _ _ _
    · rw [writeHost, tabGet_putBytes, hlen, if_neg (by omega)]
  case queue =>
    obtain ⟨r, hr⟩ : ∃ r : Record, r = { flags := 0, status := cmdStatus rc, rc := rc, tag := tag, pos := pos.toNat, cause := 0, result := result } :=
      ⟨_, rfl⟩
    have ht : answerNow c s rc result tag = writeRecord (entryTaken s q.val ⟨pos.toNat, bytes, .finished r⟩) q.val r := by
      simp only [answerNow, hv, publish]
      rw [← finishEntry_single he ha hq hroom, hr]
      rfl
    have hx : (entryTaken s q.val ⟨pos.toNat, bytes, .finished r⟩).queue q.val = { s.queue q.val with entries := [] } := queue_setQueue _ _ _
    have ho := entryTaken_only s q.val ⟨pos.toNat, bytes, .finished r⟩
    simp only [ht]
    have hmsix := msix_writeRecord (r := r) hx hq
    refine ⟨queue_writeRecord hx hq, ?_, hmsix, ho.trans (writeRecord_only _ _ _) (by decide) (by decide)⟩
    rw [readArg_writeRecord hx hq hm hd, hr]
    rfl

end Sys2Proof.Machine
end

section
/-! PART_INFO, HANDLE_INFO, TELEMETRY and HEALTH (R397, R398, R408, R436, R483). -/

namespace Sys2Proof.Machine

variable {s : State}

/-- A record written where an accepted address argument points. -/
theorem wrote_of_addrOk {c : Cmd} {w : Word} {n : Nat} {l : List Byte} (h : addrOk c s w n true = true) (hl : l.length = n) (hn : 0 < n) :
    Wrote s (writeArg s c.fn w 0 l) w l :=
  writeArg_wrote s c.fn w l (addrOk_master h) fun hw => argOk_of_addrOk h hw (Nat.le_refl _) (by rw [hl]) (by rwa [hl])

theorem writeArg_only (s : State) (f : Nat) (w : Word) (off : Nat) (l : List Byte) : Only storeAreas s (writeArg s f w off l) :=
  (within_writeArg s f w off l (Within.refl s) (Sub.refl _)).only rfl

/-! ### The lengths of the records -/

/-- Equal pieces add up. -/
theorem length_flatten_map {α : Type} (g : α → List Byte) (n : Nat) (l : List α) (h : ∀ a, (g a).length = n) :
    ((l.map g).flatten).length = l.length * n := by
  induction l with
  | nil => simp
  | cons a l ih => rw [List.map_cons, List.flatten_cons, List.length_append, ih, h, List.length_cons, Nat.succ_mul, Nat.add_comm]

theorem length_upTo (n : Nat) : (upTo n).length = n := List.length_range

theorem length_partRecord (s : State) (p : Nat) : (partRecord s p).length = 32 := by
  unfold partRecord
  dsimp only
  split <;> simp only [List.length_append, length_leBytes]

theorem length_ctxRecord (s : State) (w : Word) : (ctxRecord s w).length = 32 := by
  simp only [ctxRecord, List.length_append, length_leBytes]

theorem length_modelRecord (s : State) (w : Word) : (modelRecord s w).length = 32 := by
  simp only [modelRecord, List.length_append, length_leBytes]

theorem length_powerRecord (s : State) : (powerRecord s).length = 96 := by
  unfold powerRecord
  rw [List.length_append, List.length_append, length_flatten_map _ 8 _ (fun n => by simp only [List.length_append, length_leBytes])]
  simp only [List.length_append, length_leBytes, length_upTo]

theorem length_thermalRecord (s : State) : (thermalRecord s).length = 192 := by
  unfold thermalRecord
  rw [List.length_append, List.length_append, length_flatten_map _ 8 _ (fun _ => length_leBytes _ _),
    length_flatten_map _ 1 _ (fun _ => length_leBytes _ _)]
  simp only [length_leBytes, length_upTo]

theorem length_clockRecord (s : State) : (clockRecord s).length = 32 := by
  simp only [clockRecord, List.length_append, length_leBytes]

theorem length_telemetryRecord (s : State) (kind : Nat) : (telemetryRecord s kind).length = telemetryBytes kind := by
  unfold telemetryRecord telemetryBytes
  split
  · exact length_powerRecord s
  · split
    · exact length_thermalRecord s
    · exact length_clockRecord s

theorem telemetryBytes_pos (kind : Nat) : 0 < telemetryBytes kind := by
  unfold telemetryBytes
  split
  · decide
  · split <;> decide

theorem length_healthRecord (s : State) : (healthRecord s).length = 3120 := by
  unfold healthRecord
  dsimp only
  rw [List.length_append, length_flatten_map _ 16 _ (fun n => by simp only [List.length_append, length_leBytes])]
  simp only [List.length_append, length_leBytes, length_upTo]

/-- Settles O5: the accepted address argument takes a record of the length that was checked. -/
theorem reportCommands : Obligations.ReportCommands := by
  unfold Obligations.ReportCommands
  refine ⟨fun rq part addr s => ends_mk rfl fun b hb _ => ⟨_, _, rfl, rfl, ?part, writeArg_only _ _ _ _ _⟩,
    fun rq handle addr s => ends_mk rfl fun b hb _ => ⟨_, _, rfl, rfl, ?handle, writeArg_only _ _ _ _ _⟩,
    fun rq kind addr s => ends_mk rfl fun b hb _ => ⟨_, _, rfl, rfl, ?telemetry, writeArg_only _ _ _ _ _⟩,
    fun rq addr s => ends_mk rfl fun b hb _ => ⟨_, _, rfl, rfl, ?health, writeArg_only _ _ _ _ _⟩⟩
  case part => exact wrote_of_addrOk (addr_of_refusal hb (.tail _ (.tail _ (.head _)))) (length_partRecord _ _) (by decide)
  case handle =>
    refine wrote_of_addrOk (addr_of_refusal hb (.tail _ (.tail _ (.head _)))) ?_ (by decide)
    change (if hKind handle = 1 then ctxRecord b handle else modelRecord b handle).length = 32
    split
    · exact length_ctxRecord _ _
    · exact length_modelRecord _ _
  case telemetry =>
    exact wrote_of_addrOk (addr_of_refusal hb (.tail _ (.tail _ (.head _)))) (length_telemetryRecord _ _) (telemetryBytes_pos _)
  case health => exact wrote_of_addrOk (addr_of_refusal hb (.tail _ (.tail _ (.head _)))) (length_healthRecord _) (by decide)

end Sys2Proof.Machine
end

section
/-! CTX_CREATE, CTX_SET, CTX_DESTROY and CTX_QUIESCE (R374, R377, R394 to R396, R417, R437). -/

namespace Sys2Proof.Machine

variable {s : State}

/-- A list of the numbers below a bound that not all pass a test: one of them fails it. -/
theorem exists_of_upTo_all {n : Nat} {f : Nat → Bool} (h : (upTo n).all f = false) : ∃ k, k < n ∧ f k = false := by
  rw [List.all_eq_false] at h
  obtain ⟨k, hk, hf⟩ := h
  exact ⟨k, List.mem_range.1 hk, by simpa using hf⟩

/-- A check that refuses nothing does not hold. -/
theorem not_refused {l : List (Bool × Nat)} {x : Bool} {r : Nat} (h : refusal l = none) (hm : (x, r) ∈ l) : x = false :=
  refusal_none h _ hm

/-- A free value drawn changes the count of draws alone. -/
theorem freeDraw_only (s : State) : Only [.draws] s s.freeDraw.2 := (within_freeDraw s (Within.refl s) (Sub.refl _)).only rfl

/-- Settles O6, from the free index that CTX_CREATE picks and the contexts that the others change. -/
theorem contextCommands : Obligations.ContextCommands := by
  unfold Obligations.ContextCommands
  refine ⟨fun rq cls fill owner s => ends_mk rfl fun b hb _ => ?create,
    fun rq ctx cls fill s => ends_mk rfl fun b _ _ => ⟨_, _, rfl, rfl, setCtx_frame _ _ _⟩,
    fun rq ctx s => pends_mk rfl fun b hb _ => ⟨_, rfl, ?destroy⟩, fun rq ctx s => pends_mk rfl fun b _ _ => ⟨_, rfl, rfl⟩⟩
  case create =>
    have hroom : (upTo 512).all (fun k => (b.ctx k).mode != .free) = false :=
      not_refused (r := rcNoResources) hb (.tail _ (.tail _ (.tail _ (.tail _ (.head _)))))
    obtain ⟨j, hj, hf⟩ := exists_of_upTo_all hroom
    obtain ⟨k, hk, hfree, hpick⟩ := pickIndex_some b (n := 512) (free := fun k => (b.ctx k).mode == .free) ⟨j, hj, by simpa using hf⟩
    obtain ⟨g1, g2, g3⟩ := setCtx_frame b.freeDraw.2 k
      { mode := .active, gen := (b.ctx k).gen + 1, bestEffort := cls.toNat == 1, fill := fill.toNat, owner := owner.toNat,
        part := fnPart b rq.fn.val }
    refine ⟨_, _, ?_, k, hk, by simpa using hfree, rfl, g1, g2, (freeDraw_only b).trans g3 (by decide) (by decide)⟩
    unfold effectCtxCreate
    rw [hpick]
    rfl
  case destroy =>
    have ha := ctxRc_active (rcIf_none (refusal_none hb _ (.head _)))
    obtain ⟨h1, h2⟩ := stopPlanned_ctx b (hIdx ctx) true ha
    exact ⟨h1, h2, (within_stopPlanned b (hIdx ctx) true (Within.refl b) (Sub.refl _)).only rfl⟩

end Sys2Proof.Machine
end

section
/-! QUEUE_CREATE, QUEUE_DESTROY, QUEUE_ENABLE, QUEUE_DISABLE and QUEUE_RESET (R344, R348, R349, R352, R354, R355, R378, R437). -/

namespace Sys2Proof.Machine

variable {s t : State}

/-! ### Locked TDIs -/

theorem guardTdi_of_free {c : Cmd} {f : Nat} {o : CmdOut} (h : f = c.fn ∨ tdiLocked s f = false) : guardTdi c s f o = o := by
  refine if_neg fun hl => ?_
  simp only [Bool.and_eq_true, decide_eq_true_eq] at hl
  obtain ⟨hf, hl⟩ := hl
  exact h.elim hf fun hn => Bool.false_ne_true (hn.symm.trans hl)

theorem guardTdi_of_locked {c : Cmd} {f : Nat} {o : CmdOut} (h : f ≠ c.fn) (hl : tdiLocked s f = true) :
    guardTdi c s f o = .done rcNotPermitted 0 (tdiError s f) := by
  simp only [guardTdi, hl, Bool.and_true, decide_eq_true h, if_true]

/-- An accepted command that its effect refuses answers that refusal. -/
theorem exec_of_done {i : Instr} {refuse : Cmd → State → Option Nat} {effect : Cmd → State → CmdOut} {rq : Req} {op rc : Nat}
    {args : List Word} {r : Word} {u : State} (hx : exec i s = .next (runRow refuse effect op rq args t))
    (h : Accepted refuse rq op args t) (he : effect (cmdOf rq op args) (before rq op args t) = .done rc r u) :
    exec i s = .next (answered rq op args (before rq op args t) u rc r) := by
  rw [hx, accepted_run h, he]
  rfl

/-! ### QUEUE_CREATE -/

/-- The queue that QUEUE_CREATE asks for. -/
def createdQueue (c : Cmd) (s : State) : Queue :=
  { part := myPart c s, kind := qcKind c, unit := qcUnit c, fn := c.val 6, ctx := some (hIdx (c.arg 7)), ring := c.arg 1, n := c.val 2,
    cq := if c.arg 3 = 0 then none else some (c.arg 3), m := if c.val 4 = 0 then 64 else c.val 4, vector := c.val 5 }

theorem effectQueueCreate_of_makeQueue {c : Cmd} {q : Nat} (hf : c.val 6 = c.fn ∨ tdiLocked s (c.val 6) = false)
    (h : makeQueue s (createdQueue c s) = some (q, t)) (hg : (t.queue q).gen = (s.queue q).gen) :
    effectQueueCreate c s = .done 0 (mkHandle 2 (myPart c s) (s.queue q).gen q) t := by
  rw [← hg]
  unfold effectQueueCreate
  dsimp only
  rw [guardTdi_of_free hf]
  unfold createdQueue at h
  rw [h]

theorem fillRing_of_no_ring {q : Nat} (h : (s.queue q).cq = none) : fillRing s q = s := by
  unfold fillRing
  simp only [h]

/-- A queue without a completion ring writes nothing when it is made. -/
theorem makeQueue_only_of_no_ring {x : Queue} {q : Nat} (h : makeQueue s x = some (q, t)) (hx : x.cq = none) :
    Only [.queues, .draws] s t := by
  obtain ⟨j, rfl⟩ := makeQueue_eq h
  have hw : Within 1073742080 s
      (s.freeDraw.2.freeDraw.2.setQueue q { x with present := true, gen := (s.queue q).gen, slot := j }) :=
    within_setQueue _ _ _ (within_freeDraw _ (within_freeDraw _ (Within.refl s) rfl) rfl) rfl
  rw [fillRing_of_no_ring (by rw [queue_setQueue]; exact hx)]
  exact hw.only rfl

/-- A ring size is not 0. -/
theorem ringSize_ne_zero {n : Nat} (h : ringSize n = true) : n ≠ 0 := fun e => Bool.false_ne_true (show ringSize 0 = true from e ▸ h)

/-- The completion ring of an accepted QUEUE_CREATE has a size and may be written. -/
theorem refuseQueueCreate_ring {c : Cmd} (h : refuseQueueCreate c s = none) (hq : c.arg 3 ≠ 0) :
    c.val 4 ≠ 0 ∧ addrOk c s (c.arg 3) (32 * c.val 4) true = true := by
  have hargs : (!qcArgsOk c s) = false := not_refused h (.tail _ (.tail _ (.head _)))
  have haddr : (c.arg 3 != 0 && !addrOk c s (c.arg 3) (32 * c.val 4) true) = false :=
    not_refused h (.tail _ (.tail _ (.tail _ (.tail _ (.head _)))))
  simp only [Bool.not_eq_false', qcArgsOk, hq, if_false, Bool.and_eq_true] at hargs
  obtain ⟨⟨⟨⟨_, hsize, _⟩, _⟩, _⟩, _⟩ := hargs
  refine ⟨ringSize_ne_zero hsize, ?_⟩
  rw [bne_iff_ne.2 hq, Bool.true_and, Bool.not_eq_false'] at haddr
  exact haddr

/-! ### The other queue commands -/

/-- A queue given a record: the other queues and everything else are as they were. -/
theorem setQueue_frame (s : State) (q : Nat) (v : Queue) :
    (s.setQueue q v).queue q = v ∧ (∀ k, k ≠ q → (s.setQueue q v).queue k = s.queue k) ∧ Only [.queues] s (s.setQueue q v) :=
  ⟨queue_setQueue s q v, fun _ h => queue_setQueue_ne s v h.symm, (within_setQueue s q v (Within.refl s) (Sub.refl _)).only rfl⟩

/-- The state without a queue that has been destroyed. -/
def queueGone (s : State) (q : Nat) : State :=
  pruneTokens ((if (s.queue q).kind = 0 then s.modFn (s.queue q).fn (fun f => { f with cmdq := none }) else s).setQueue q
    { gen := (s.queue q).gen + 1 })

theorem effectQueueDestroy_of_free {c : Cmd} {q : Nat} (hq : hIdx (c.arg 0) = q)
    (hf : (s.queue q).fn = c.fn ∨ tdiLocked s (s.queue q).fn = false) : effectQueueDestroy c s = okWith 0 (queueGone s q) := by
  subst hq
  exact guardTdi_of_free hf

theorem queueGone_fn (s : State) (q f : Nat) : (queueGone s q).fn f =
    if (s.queue q).kind = 0 ∧ f = (s.queue q).fn then { s.fn f with cmdq := none } else s.fn f := by
  rw [queueGone, pruneTokens_fn, fn_setQueue]
  by_cases hk : (s.queue q).kind = 0
  · rw [if_pos hk, State.modFn]
    by_cases hf : f = (s.queue q).fn
    · rw [if_pos ⟨hk, hf⟩, hf, fn_setFn]
    · rw [if_neg (fun h => hf h.2), fn_setFn_ne _ _ (Ne.symm hf)]
  · rw [if_neg hk, if_neg (fun h => hk h.1)]

theorem queueGone_queue (s : State) (q : Nat) : (queueGone s q).queue q = { gen := (s.queue q).gen + 1 } ∧
    ∀ k, k ≠ q → (queueGone s q).queue k = s.queue k := by
  refine ⟨(pruneTokens_queue _ q).trans (queue_setQueue _ _ _), fun k hk => (pruneTokens_queue _ k).trans ?_⟩
  rw [queue_setQueue_ne _ _ hk.symm]
  split <;> rfl

theorem queueGone_only (s : State) (q : Nat) : Only [.functions, .queues, .tokens] s (queueGone s q) := by
  have h : Within 1408 s (if (s.queue q).kind = 0 then s.modFn (s.queue q).fn (fun f => { f with cmdq := none }) else s) :=
    within_ite (within_modFn s _ _ (Within.refl s) rfl) (Within.refl s)
  exact (within_pruneTokens _ (within_setQueue _ _ _ h rfl) rfl).only rfl

/-- The context of a queue leaves its quiesce point (R437). -/
def ctxResumed (s : State) (k : Option Nat) : State :=
  match k with | some k => s.modCtx k (fun x => { x with quiesced := false }) | none => s

theorem ctxResumed_ctx (s : State) (o : Option Nat) (k : Nat) :
    (ctxResumed s o).ctx k = if o = some k then { s.ctx k with quiesced := false } else s.ctx k := by
  cases o with
  | none => rfl
  | some j =>
    by_cases h : j = k
    · subst h
      rw [if_pos rfl]
      exact ctx_setCtx _ _ _
    · rw [if_neg (fun e => h (Option.some.inj e))]
      exact ctx_setCtx_ne _ _ h

theorem ctxResumed_only (s : State) (o : Option Nat) : Only [.ctxs] s (ctxResumed s o) := by
  cases o with
  | none => exact Only.refl _ _
  | some k => exact (setCtx_frame s k _).2.2

theorem effectQueueEnable_eq (c : Cmd) (s : State) : effectQueueEnable c s =
    okWith 0 ((ctxResumed s (s.queue (hIdx (c.arg 0))).ctx).setQueue (hIdx (c.arg 0))
      { s.queue (hIdx (c.arg 0)) with mode := .enabled, recordsAllowed := true }) := by
  have hq := queue_same (ctxResumed_only s (s.queue (hIdx (c.arg 0))).ctx .queues (by decide)) (hIdx (c.arg 0))
  change okWith 0 ((ctxResumed s (s.queue (hIdx (c.arg 0))).ctx).setQueue (hIdx (c.arg 0))
      { (ctxResumed s (s.queue (hIdx (c.arg 0))).ctx).queue (hIdx (c.arg 0)) with mode := .enabled, recordsAllowed := true }) = _
  rw [hq]

theorem stopQueue_of_not_enabled {q : Nat} {b : Bool} (h : (s.queue q).mode ≠ .enabled) : stopQueue s q b = s := by
  unfold stopQueue
  exact if_pos (bne_iff_ne.2 h)

/-- Settles O8: a queue is made at a free index and slot with its ring, the other commands change the named queue and what is bound to
it, and a locked TDI of another function refuses creation and destruction. -/
theorem queueCommands : Obligations.QueueCommands := by
  unfold Obligations.QueueCommands
  refine ⟨fun rq kindUnit ring n cq m vector boundFn ctx s => ends_mk rfl fun b hb ⟨hf, hq, hj⟩ => ?create,
    fun rq kindUnit ring n cq m vector boundFn ctx s => fun h hf hl => exec_of_done rfl h (guardTdi_of_locked hf hl),
    fun rq queue s => ends_mk rfl fun b _ hf => ⟨_, _, effectQueueDestroy_of_free rfl hf, rfl, (queueGone_queue b _).1,
      (queueGone_queue b _).2, queueGone_fn b _, queueGone_only b _⟩,
    fun rq queue s => fun h hf hl => exec_of_done rfl h (guardTdi_of_locked hf hl),
    fun rq queue s => ends_mk rfl fun b _ _ => ?enable, fun rq queue s h => ?disable, fun rq queue s => ends_mk rfl fun b _ _ => ?reset⟩
  case create =>
    obtain ⟨q, j, t, h1, h2, h3, h4, h5, h6, h7, h8⟩ := makeQueue_some b
      (createdQueue (cmdOf rq 0x28 [kindUnit, ring, n, cq, m, vector, boundFn, ctx]) b) hq hj
    have h9 := makeQueue_only_of_no_ring h5
    refine ⟨_, t, effectQueueCreate_of_makeQueue hf h5 (by rw [h6]), q, j, h1, h2, h3, h4, rfl, h6, h7, h8, fun hc => h9 (if_pos hc),
      fun hc hown => ?_⟩
    obtain ⟨hm, haddr⟩ := refuseQueueCreate_ring hb hc
    have hp : PiecesOk b boundFn.toNat cq 32 m.toNat := by
      rw [hown]
      exact piecesOk_of_addrOk (by decide) haddr
    have hsize : (createdQueue (cmdOf rq 0x28 [kindUnit, ring, n, cq, m, vector, boundFn, ctx]) b).m = m.toNat := if_neg hm
    have hw := makeQueue_wrote (w := cq) h5 (if_neg hc) (by rw [hsize]; exact hp)
    rw [h6]
    exact hw
  case enable =>
    have ho := ctxResumed_only b (b.queue (hIdx queue)).ctx
    obtain ⟨g1, g2, g3⟩ := setQueue_frame (ctxResumed b (b.queue (hIdx queue)).ctx) (hIdx queue)
      { b.queue (hIdx queue) with mode := .enabled, recordsAllowed := true }
    exact ⟨_, _, effectQueueEnable_eq _ _, rfl, g1, fun k hk => (g2 k hk).trans (queue_same (ho .queues (by decide)) k),
      fun k => ctxResumed_ctx b _ k, ho.trans g3 (by decide) (by decide)⟩
  case disable =>
    refine ⟨_, waits_of_wait rfl h rfl, fun hm => (stopQueue_queue _ _ true hm).1, fun hm => stopQueue_of_not_enabled hm, fun k hk => ?_,
      (within_stopQueue _ _ true (Within.refl _) (Sub.refl _)).only rfl⟩
    by_cases hm : ((before rq 0x2B [queue] s).queue (hIdx queue)).mode = .enabled
    · exact (stopQueue_queue _ _ true hm).2 k hk
    · exact congrArg (fun t : State => t.queue k) (stopQueue_of_not_enabled hm)
  case reset =>
    obtain ⟨g1, g2, g3⟩ := setQueue_frame b (hIdx queue) { b.queue (hIdx queue) with
      mode := .disabled, tail := 0, consumed := 0, produced := 0, released := 0, entries := [], draining := false }
    have hw : Only storeAreas _ _ := (within_fillRing (b.setQueue (hIdx queue) { b.queue (hIdx queue) with
      mode := .disabled, tail := 0, consumed := 0, produced := 0, released := 0, entries := [], draining := false }) (hIdx queue)
      (Within.refl _) (Sub.refl _)).only rfl
    have hq := queue_same (hw .queues (by decide))
    exact ⟨_, _, rfl, rfl, (hq _).trans g1, fun k hk => (hq k).trans (g2 k hk), g3.trans hw (by decide) (by decide)⟩

end Sys2Proof.Machine
end

section
/-! TALLY_CREATE, TALLY_SET, TALLY_DESTROY, REGION_CREATE, REGION_DESTROY and REGION_FREEZE (R30, R157, R240, R375, R404, R426). -/

namespace Sys2Proof.Machine

variable {s t : State}

/-! ### Single tallies and regions -/

theorem setTally_frame (s : State) (k : Nat) (v : Tally) :
    (s.setTally k v).tally k = v ∧ (∀ j, j ≠ k → (s.setTally k v).tally j = s.tally j) ∧ Only [.tallies] s (s.setTally k v) :=
  ⟨tally_setTally s k v, fun _ h => tally_setTally_ne s v h.symm, (within_setTally s k v (Within.refl s) (Sub.refl _)).only rfl⟩

theorem setRegion_frame (s : State) (k : Nat) (v : Region) :
    (s.setRegion k v).region k = v ∧ (∀ j, j ≠ k → (s.setRegion k v).region j = s.region j) ∧ Only [.regions] s (s.setRegion k v) :=
  ⟨region_setRegion s k v, fun _ h => region_setRegion_ne s v h.symm, (within_setRegion s k v (Within.refl s) (Sub.refl _)).only rfl⟩

theorem pruneTokens_only (s : State) : Only [.tokens] s (pruneTokens s) := (within_pruneTokens s (Within.refl s) (Sub.refl _)).only rfl

/-! ### The home of a new tally (R404) -/

theorem tallyRoom_of_bestHome {p k n : Nat} (h : bestHome s p k = some n) : tallyRoom s n = true := by
  suffices hl : ∀ (l : List Nat) (a : Option Nat), (∀ m ∈ l, tallyRoom s m = true) → (∀ m, a = some m → tallyRoom s m = true) →
      ∀ m, l.foldl (fun a n => match a with
        | none => some n
        | some m => if loamAffinity s k m < loamAffinity s k n then some n else some m) a = some m → tallyRoom s m = true from
    hl _ none (fun m hm => (List.mem_filter.1 hm).2) (fun _ hm => nomatch hm) n h
  intro l
  induction l with
  | nil => exact fun a _ ha m hm => ha m hm
  | cons x l ih =>
    intro a hl ha
    refine ih _ (fun m hm => hl m (.tail _ hm)) fun m hm => ?_
    cases a with
    | none => exact Option.some.inj hm ▸ hl x (.head _)
    | some y =>
      dsimp only at hm
      split at hm
      · exact Option.some.inj hm ▸ hl x (.head _)
      · exact ha m hm

/-- A new tally's home has a free index. -/
theorem tallyRoom_of_tallyHome {p k f n : Nat} (h : tallyHome s p k f = some n) : ∃ i, i < 2048 ∧ tallyFree s (2048 * n + i) = true := by
  have hr : tallyRoom s n = true := by
    unfold tallyHome at h
    split at h
    · next hp => exact Option.some.inj h ▸ hp.2
    · exact tallyRoom_of_bestHome h
  obtain ⟨i, hi, hf⟩ := List.any_eq_true.1 hr
  exact ⟨i, List.mem_range.1 hi, hf⟩

theorem effectTallyCreate_of_home {c : Cmd} {n i : Nat} (hn : tallyHome s (myPart c s) (hIdx (c.arg 0)) (c.val 2) = some n)
    (hi : pickIndex s 2048 (fun i => tallyFree s (2048 * n + i)) = some (i, s.freeDraw.2)) : effectTallyCreate c s =
      .done 0 (mkHandle 3 (myPart c s) (s.tally (2048 * n + i)).gen (2048 * n + i)) (s.freeDraw.2.setTally (2048 * n + i)
        { present := true, gen := (s.tally (2048 * n + i)).gen, count := c.val 3, ctx := hIdx (c.arg 0), part := myPart c s,
          isExternal := c.val 1 == 1 }) := by
  unfold effectTallyCreate
  dsimp only
  rw [hn]
  dsimp only
  rw [hi]
  rfl

/-! ### TALLY_SET -/

/-- A list of records changed one by one, at their keys, keeps what each change keeps. -/
theorem tabGet_map_keeps {α β : Type} (d : α) (l : Tab α) (g : Nat × α → Nat × α) (π : α → β) (hk : ∀ e, (g e).1 = e.1)
    (hv : ∀ e, π (g e).2 = π e.2) (k : Nat) : π (tabGet d (l.map g) k) = π (tabGet d l k) := by
  induction l with
  | nil => rfl
  | cons e l ih =>
    rw [List.map_cons, tabGet, tabGet, hk]
    split
    · exact hv e
    · exact ih

/-- Cores looked at afresh keep all but that mark. -/
theorem core_stirCores {β : Type} (s : State) (p : Nat) (π : Core → β) (hπ : ∀ x n, π { x with moved := n } = π x) (k : Nat) :
    π ((stirCores s p).core k) = π (s.core k) := by
  refine tabGet_map_keeps _ _ _ π (fun e => ?_) (fun e => ?_) k
  · split <;> rfl
  · split
    · exact hπ e.2 _
    · rfl

theorem rests_endExternal (s : State) (k : Nat) : Rests s (endExternal s k) := rests_setPart _ _ _ rfl

/-- Settles O9, from the free index that a create picks and the tally or region that the others change. -/
theorem tallyAndRegionCommands : Obligations.TallyAndRegionCommands := by
  unfold Obligations.TallyAndRegionCommands
  refine ⟨fun rq ctx cls sec count s => ends_mk rfl fun b hb _ => ?tallyCreate, fun rq tally count s => ends_mk rfl fun b _ _ => ?tallySet,
    fun rq tally s => ends_mk rfl fun b _ _ => ?tallyDestroy, fun rq ctx addr len perm s => ends_mk rfl fun b hb _ => ?regionCreate,
    fun rq region s => ends_mk rfl fun b _ _ => ?regionDestroy,
    fun rq region freeze s => ends_mk rfl fun b _ _ => ⟨_, _, rfl, rfl, setRegion_frame _ _ _⟩⟩
  case tallyCreate =>
    have hhome : (tallyHome b (fnPart b rq.fn.val) (hIdx ctx) sec.toNat).isNone = false :=
      not_refused hb (.tail _ (.tail _ (.tail _ (.tail _ (.head _)))))
    obtain ⟨n, hn⟩ := Option.isSome_iff_exists.1 (Option.isNone_eq_false_iff.1 hhome)
    obtain ⟨i, hi, hfree, hpick⟩ := pickIndex_some b (n := 2048) (free := fun i => tallyFree b (2048 * n + i)) (tallyRoom_of_tallyHome hn)
    obtain ⟨g1, g2, g3⟩ := setTally_frame b.freeDraw.2 (2048 * n + i)
      { present := true, gen := (b.tally (2048 * n + i)).gen, count := count.toNat, ctx := hIdx ctx, part := fnPart b rq.fn.val,
        isExternal := cls.toNat == 1 }
    exact ⟨_, _, effectTallyCreate_of_home hn hpick, n, i, hn, hi, hfree, rfl, g1, g2, (freeDraw_only b).trans g3 (by decide) (by decide)⟩
  case tallySet =>
    obtain ⟨g1, g2, _⟩ := setTally_frame b (hIdx tally) { b.tally (hIdx tally) with count := count.toNat }
    have hr := rests_endExternal (b.setTally (hIdx tally) { b.tally (hIdx tally) with count := count.toNat }) (hIdx tally)
    refine ⟨_, _, rfl, rfl, g1, g2, hr.part, fun k => ⟨core_stirCores _ _ Core.window (fun _ _ => rfl) k,
      core_stirCores _ _ Core.running (fun _ _ => rfl) k⟩, ?_⟩
    exact only_of_within (within_stirCores _ _ (within_endExternal _ _ (within_setTally _ _ _ (Within.refl b) rfl) rfl) rfl)
  case tallyDestroy =>
    obtain ⟨g1, g2, g3⟩ := setTally_frame b (hIdx tally) { gen := (b.tally (hIdx tally)).gen + 1 }
    exact ⟨_, _, rfl, rfl, g1, g2, g3.trans (pruneTokens_only _) (by decide) (by decide)⟩
  case regionCreate =>
    have hroom : (upTo 65536).all (fun r => (b.region r).present) = false := not_refused hb (.tail _ (.tail _ (.tail _ (.tail _ (.head _)))))
    obtain ⟨j, hj, hf⟩ := exists_of_upTo_all hroom
    obtain ⟨g, hg, hfree, hpick⟩ := pickIndex_some b (n := 65536) (free := fun r => !(b.region r).present) ⟨j, hj, by rw [hf]; rfl⟩
    obtain ⟨g1, g2, g3⟩ := setRegion_frame b.freeDraw.2 g
      { present := true, gen := (b.region g).gen, ctx := hIdx ctx, part := fnPart b rq.fn.val, base := addr.toNat,
        length := len.toNat, read := bitOf perm.toNat 0, write := bitOf perm.toNat 1 }
    refine ⟨_, _, ?_, g, hg, by simpa using hfree, rfl, g1, g2, (freeDraw_only b).trans g3 (by decide) (by decide)⟩
    unfold effectRegionCreate
    rw [hpick]
    rfl
  case regionDestroy =>
    obtain ⟨g1, g2, g3⟩ := setRegion_frame b (hIdx region) { gen := (b.region (hIdx region)).gen + 1 }
    exact ⟨_, _, rfl, rfl, g1, g2, g3.trans (pruneTokens_only _) (by decide) (by decide)⟩

end Sys2Proof.Machine
end

section
/-! MEM_FLUSH, SCRUB_PERIOD, STACK_RATE, PROG_LOAD and PROG_UNLOAD (R49, R51, R58, R147). -/

namespace Sys2Proof.Machine

variable {s t : State}

/-! ### Steps for each element of a list -/

/-- What a value is after steps for the elements of a list, where one element's step sets it and the others' leave it. -/
theorem forEach_get {α β : Type} [DecidableEq α] {l : List α} {g : α → State → State} {π : State → β} {k : α} {v : β}
    (hk : ∀ t, π (g k t) = v) (hne : ∀ a ∈ l, a ≠ k → ∀ t, π (g a t) = π t) (s : State) :
    π (forEach l s g) = if k ∈ l then v else π s := by
  induction l generalizing s with
  | nil => rfl
  | cons a l ih =>
    have hrec := ih (fun b hb => hne b (.tail _ hb)) (g a s)
    rw [show forEach (a :: l) s g = forEach l (g a s) g from rfl, hrec]
    by_cases ha : a = k
    · subst ha
      rw [hk, ite_self, if_pos (.head _)]
    · rw [hne a (.head _) ha]
      simp only [List.mem_cons, Ne.symm ha, false_or]

theorem mem_maskSecs {m n : Nat} : n ∈ maskSecs m ↔ n < 8 ∧ bitOf m n = true := by
  rw [maskSecs, setBits, List.mem_filter, List.mem_range]

/-! ### MEM_FLUSH -/

theorem mem_cache_of_cache (h : Area.cache.same s t) : t.mem.cache = s.mem.cache := by
  have hc : ({ t.mem with bytes := [], poisoned := [], upset := [], spoilt := [] } : Mem) =
    { s.mem with bytes := [], poisoned := [], upset := [], spoilt := [] } := h
  have hcache := congrArg Mem.cache hc
  exact hcache

/-- An evicted line's place is empty, and the other places are as they were (R49). -/
theorem mem_cache_evictLine (s : State) (ck : Nat) : (evictLine s ck).mem.cache = tabErase ck s.mem.cache := by
  unfold evictLine
  dsimp only
  rw [tabSet, if_pos rfl]
  refine congrArg (tabErase ck) ((mem_cache_of_cache ((within_forgetWords _ _ (Within.refl _) (Sub.refl _)).same .cache (by decide))).trans ?_)
  split
  · exact mem_cache_of_cache ((within_writeBackLine _ _ (Within.refl _) (Sub.refl _)).same .cache (by decide))
  · rfl

/-- Evicting the places of a list leaves the entries of the other places. -/
theorem mem_cache_evictLines (l : List Nat) (s : State) :
    ∀ e ∈ (forEach l s (fun ck t => evictLine t ck)).mem.cache, e ∈ s.mem.cache ∧ e.1 ∉ l := by
  induction l generalizing s with
  | nil => exact fun e he => ⟨he, List.not_mem_nil⟩
  | cons ck l ih =>
    intro e he
    obtain ⟨h1, h2⟩ := ih (evictLine s ck) e he
    rw [mem_cache_evictLine] at h1
    obtain ⟨h3, h4⟩ := List.mem_filter.1 h1
    refine ⟨h3, fun hm => ?_⟩
    rcases List.mem_cons.1 hm with h | h
    · exact bne_iff_ne.1 h4 h
    · exact h2 h

/-- A flushed section has no line. -/
theorem mem_cache_flushSection (s : State) (n : Nat) : ∀ e ∈ (flushSection s n).mem.cache, e ∈ s.mem.cache ∧ keySec e.1 ≠ n := by
  intro e he
  obtain ⟨h1, h2⟩ := mem_cache_evictLines _ s e he
  exact ⟨h1, fun hn => h2 (List.mem_map.2 ⟨e, List.mem_filter.2 ⟨h1, beq_iff_eq.2 hn⟩, rfl⟩)⟩

/-- A flushed partition has no line (R49). -/
theorem mem_cache_flushSections (l : List Nat) (s : State) :
    ∀ e ∈ (forEach l s (fun n t => flushSection t n)).mem.cache, e ∈ s.mem.cache ∧ keySec e.1 ∉ l := by
  induction l generalizing s with
  | nil => exact fun e he => ⟨he, List.not_mem_nil⟩
  | cons n l ih =>
    intro e he
    obtain ⟨h1, h2⟩ := ih (flushSection s n) e he
    obtain ⟨h3, h4⟩ := mem_cache_flushSection s n e h1
    exact ⟨h3, fun hm => (List.mem_cons.1 hm).elim h4 h2⟩

theorem sameBytes_flushPart (s : State) (p : Nat) : SameBytes s (flushPart s p).1 := by
  intro a
  have hh := (within_flushPart s p (Within.refl s) (Sub.refl _)).same .hostMemory (by decide)
  exact ⟨congrArg (fun b => tabGet 0 b a) (bytes_flushPart s p), congrArg (fun b => tabGet 0 b a) hh⟩

/-! ### SCRUB_PERIOD -/

/-- The scrub periods of a section set (R58). -/
def scrubSet (loam hbm n : Nat) (t : State) : State :=
  let t := t.setFld fLoamScrubPeriod n 0 loam
  { t with mem := { t.mem with hbmScrubS := tabSet 86400 t.mem.hbmScrubS n hbm } }

theorem periods_scrubSet {loam : Nat} (hl : loam < 2 ^ 32) (hbm n : Nat) (t : State) :
    (loamPeriod (scrubSet loam hbm n t) n, hbmPeriod (scrubSet loam hbm n t) n) = (loam, hbm) := by
  refine Prod.ext ?_ (tabGet_tabSet_same _ _ _ _)
  exact (fld_setFld_same t _ _ _ _ (by decide) (by decide)).trans (Nat.mod_eq_of_lt hl)

theorem periods_scrubSet_ne {m n : Nat} (hm : m < 8) (hn : n < 8) (h : m ≠ n) (loam hbm : Nat) (t : State) :
    (loamPeriod (scrubSet loam hbm m t) n, hbmPeriod (scrubSet loam hbm m t) n) = (loamPeriod t n, hbmPeriod t n) := by
  refine Prod.ext ?_ (tabGet_tabSet_ne _ _ _ h)
  exact fld_setFld_reg t _ ⟨by omega, by decide⟩ ⟨by omega, by decide⟩ (.inr (.inl h))

theorem periods_scrubSets {mask loam : Nat} (hl : loam < 2 ^ 32) (hbm : Nat) {n : Nat} (hn : n < 8) (s : State) :
    let t := forEach (maskSecs mask) s (scrubSet loam hbm)
    (loamPeriod t n, hbmPeriod t n) = if n ∈ maskSecs mask then (loam, hbm) else (loamPeriod s n, hbmPeriod s n) :=
  forEach_get (π := fun t => (loamPeriod t n, hbmPeriod t n)) (periods_scrubSet hl hbm n)
    (fun _ hm h t => periods_scrubSet_ne (mem_maskSecs.1 hm).1 hn h loam hbm t) s

/-! ### Programs -/

theorem setSlot_frame (s : State) {k i : Nat} (v : Slot) (hi : i < 8) :
    (s.setSlot k i v).slot k i = v ∧ (∀ m j, j < 8 → (m, j) ≠ (k, i) → (s.setSlot k i v).slot m j = s.slot m j) ∧
      Only [.slots] s (s.setSlot k i v) :=
  ⟨slot_setSlot s k i v, fun _ _ hj h => slot_setSlot_ne s v hi hj h, (within_setSlot s k i v (Within.refl s) (Sub.refl _)).only rfl⟩

/-- The state without a program of a core's slot. -/
def progGone (s : State) (k i : Nat) : State :=
  if (s.core k).running = some i then enterSlot (s.setSlot k i {}) k none else s.setSlot k i {}

theorem effectProgUnload_eq (c : Cmd) (s : State) : effectProgUnload c s = okWith 0 (progGone s (c.val 0) (c.val 1)) := rfl

theorem enterSlot_core (s : State) (k : Nat) (i : Option Nat) :
    ((enterSlot s k i).core k).running = i ∧ ((enterSlot s k i).core k).window = [] := by
  unfold enterSlot State.modCore
  rw [core_setCore]
  exact ⟨rfl, rfl⟩

/-- Settles O10, from what a flush leaves in the directories, the periods of each section, and the slot that is set. -/
theorem memoryAndProgramCommands : Obligations.MemoryAndProgramCommands := by
  unfold Obligations.MemoryAndProgramCommands
  refine ⟨fun rq s => ends_mk rfl fun b _ _ => ⟨_, _, rfl, rfl, fun e he => (mem_cache_flushSections _ b e he).2, sameBytes_flushPart b _,
      only_of_within (within_flushPart b _ (Within.refl b) rfl)⟩,
    fun rq mask loam hbm s => ends_mk rfl fun b hb _ => ?scrub,
    fun rq allow s => ends_mk rfl fun b _ _ => ⟨_, _, rfl, rfl, rfl,
      only_of_within (within_effectStackRate _ b (Within.refl b) rfl)⟩,
    fun rq ctx core slot addr count s => ends_mk rfl fun b hb _ => ?load,
    fun rq core slot s => ends_mk rfl fun b hb _ => ?unload⟩
  case scrub =>
    have hbad : (decide (255 < mask.toNat) || !within 600 86400 loam.toNat || !within 7200 604800 hbm.toNat) = false :=
      not_refused hb (.tail _ (.tail _ (.head _)))
    simp only [Bool.or_eq_false_iff, Bool.not_eq_false', within, Bool.and_eq_true, decide_eq_true_eq] at hbad
    obtain ⟨⟨_, _, hloam⟩, _⟩ := hbad
    have hl : loam.toNat < 2 ^ 32 := by omega
    refine ⟨_, _, rfl, rfl, fun n hn hm => ?_, fun n hn hm => ?_, ?_⟩
    · exact Prod.ext_iff.1 ((periods_scrubSets hl hbm.toNat hn b).trans (if_pos (mem_maskSecs.2 ⟨hn, hm⟩)))
    · exact Prod.ext_iff.1 ((periods_scrubSets hl hbm.toNat hn b).trans
        (if_neg (fun h => Bool.false_ne_true (hm.symm.trans (mem_maskSecs.1 h).2))))
    · exact only_of_within (within_effectScrubPeriod (cmdOf rq 0x39 [mask, loam, hbm]) b (Within.refl b) rfl)
  case load =>
    have hbad : (!coreIn b (fnPart b rq.fn.val) core.toNat || decide (7 < slot.toNat) || decide (2 ^ 32 ≤ count.toNat) ||
        !programPlaced b (hIdx ctx) addr.toNat (128 * count.toNat)) = false := not_refused hb (.tail _ (.tail _ (.tail _ (.head _))))
    simp only [Bool.or_eq_false_iff, decide_eq_false_iff_not] at hbad
    obtain ⟨⟨⟨_, hslot⟩, _⟩, _⟩ := hbad
    obtain ⟨g1, g2, g3⟩ := setSlot_frame b (k := core.toNat) (i := slot.toNat)
      { loaded := true, base := addr.toNat, count := count.toNat, ctx := hIdx ctx, tag := ctxTag b (hIdx ctx) }
      (Nat.lt_succ_of_le (Nat.not_lt.1 hslot))
    exact ⟨_, _, rfl, rfl, g1, fun k i _ => g2 k i, g3⟩
  case unload =>
    have hbad : (!coreIn b (fnPart b rq.fn.val) core.toNat || decide (7 < slot.toNat)) = false :=
      not_refused hb (.tail _ (.tail _ (.head _)))
    simp only [Bool.or_eq_false_iff, decide_eq_false_iff_not] at hbad
    obtain ⟨_, hslot⟩ := hbad
    obtain ⟨g1, g2, _⟩ := setSlot_frame b (k := core.toNat) (i := slot.toNat) {} (Nat.lt_succ_of_le (Nat.not_lt.1 hslot))
    have hs (k i : Nat) : (progGone b core.toNat slot.toNat).slot k i = (b.setSlot core.toNat slot.toNat {}).slot k i := by
      unfold progGone
      split <;> rfl
    refine ⟨_, _, effectProgUnload_eq _ b, rfl, (hs _ _).trans g1, fun k i _ hi h => (hs k i).trans (g2 k i hi h), fun h => ?_,
      only_of_within (within_effectProgUnload (cmdOf rq 0x41 [core, slot]) b (Within.refl b) rfl)⟩
    have hp : progGone b core.toNat slot.toNat = enterSlot (b.setSlot core.toNat slot.toNat {}) core.toNat none := if_pos h
    have hc := enterSlot_core (b.setSlot core.toNat slot.toNat {}) core.toNat none
    rw [← hp] at hc
    exact hc

end Sys2Proof.Machine
end

section
/-! TENSOR_REG, TENSOR_UNREG, TENSOR_VERSION, TENSOR_SCALE, TENSOR_UNPOISON and TENSOR_STAMP (R89, R92, R104, R194, R317, R411, R500). -/

namespace Sys2Proof.Machine

variable {s t : State}

/-! ### Numbers in bytes -/

theorem leNat_lt (l : List Byte) : leNat l < 256 ^ l.length := by
  induction l with
  | nil => exact Nat.one_pos
  | cons b l ih =>
    have hb : b.toNat < 256 := b.isLt
    rw [leNat, List.length_cons, Nat.pow_succ]
    omega

theorem fieldAt_lt (b : List Byte) (off n : Nat) : fieldAt b off n < 256 ^ n :=
  (leNat_lt _).trans_le (Nat.pow_le_pow_right (by decide) (List.length_take_le _ _))

/-! ### Single tensors -/

theorem setTensor_frame (s : State) {p i : Nat} (v : Tensor) (hi : i < 2 ^ 32) :
    (s.setTensor p i v).tensor p i = v ∧
    (∀ q j, q < 8 → j < 2 ^ 32 → (q, j) ≠ (p, i) → (s.setTensor p i v).tensor q j = s.tensor q j) ∧
    Only [.tensors] s (s.setTensor p i v) :=
  ⟨tensor_setTensor s p i v, fun _ _ _ hj h => tensor_setTensor_ne s v hi hj h,
    (within_setTensor s p i v (Within.refl s) (Sub.refl _)).only rfl⟩

/-- The tensor that an accepted command names has a TENSOR_ID. -/
theorem tensorId_lt {c : Cmd} {n : Nat} {l : List (Bool × Nat)} (h : refusal (tensorChecks c s n ++ l) = none) : c.val 0 < 2 ^ 32 :=
  tensorRc_lt (rcIf_none (refusal_none h (rcIf (tensorRc c s (c.val 0))) (.tail _ (.head _))))

/-! ### Models whose tensors are gone -/

/-- Setting the home addresses of a model's tensors back removes no tensor and adds none (R409). -/
theorem present_restoreHome (s : State) (m : Model) (p i : Nat) : ((restoreHome s m).tensor p i).present = (s.tensor p i).present := by
  suffices hl : ∀ (l : List Nat) (s : State), ((forEach l s (fun id t => t.modTensor m.part id (fun x =>
      { x with desc := x.homeDesc, home := none }))).tensor p i).present = (s.tensor p i).present from hl m.tensors s
  intro l
  induction l with
  | nil => exact fun _ => rfl
  | cons id l ih =>
    intro s
    refine (ih _).trans ?_
    change (tabGet ({} : Tensor) (tabSet {} s.objs.tensors (tensorKey m.part id) _) (tensorKey p i)).present = _
    by_cases h : tensorKey m.part id = tensorKey p i
    · have hs : s.tensor p i = s.tensor m.part id := by rw [State.tensor, State.tensor, h]
      rw [← h, tabGet_tabSet_same, hs]
    · rw [tabGet_tabSet_ne _ _ _ h]
      rfl

theorem present_beginEvict (s : State) (k p i : Nat) : ((beginEvict s k).tensor p i).present = (s.tensor p i).present := by
  unfold beginEvict
  dsimp only
  split
  · exact present_restoreHome s _ p i
  · rfl

theorem model_restoreHome (s : State) (m : Model) (k : Nat) : (restoreHome s m).model k = s.model k :=
  congrArg (fun t => tabGet ({} : Model) t k) ((within_restoreHome s m (Within.refl s) (Sub.refl _)).same .models (by decide))

theorem model_beginEvict_ne (s : State) {j k : Nat} (h : j ≠ k) : (beginEvict s j).model k = s.model k := by
  unfold beginEvict
  dsimp only
  split
  · rw [model_setModel_ne _ _ h, model_restoreHome]
  · rfl

/-- A tensor of a partition is gone, and model `k`, defined or broken, lists it. -/
def LacksTensor (s : State) (p i k : Nat) : Prop :=
  (s.tensor p i).present = false ∧ (s.model k).part = p ∧ i ∈ (s.model k).tensors ∧ ((s.model k).mode = .defined ∨ (s.model k).mode = .broken)

theorem LacksTensor.broken {p i k : Nat} (h : LacksTensor s p i k) : modelBroken s (s.model k) = true := by
  obtain ⟨hp, hpart, hi, _⟩ := h
  exact List.any_eq_true.2 ⟨i, hi, by rw [hpart, hp]; rfl⟩

/-- The step of `breakModels` for one model. -/
def breakModel (k : Nat) (t : State) : State :=
  if !modelBroken t (t.model k) then t
  else if (t.model k).mode == .loaded || (t.model k).mode == .loading then beginEvict t k
  else if (t.model k).mode == .evicting then t else t.setModel k { t.model k with mode := .broken }

theorem present_breakModel (j : Nat) (s : State) (p i : Nat) : ((breakModel j s).tensor p i).present = (s.tensor p i).present := by
  unfold breakModel
  split
  · rfl
  · split
    · exact present_beginEvict s j p i
    · split <;> rfl

theorem model_breakModel_ne (s : State) {j k : Nat} (h : j ≠ k) : (breakModel j s).model k = s.model k := by
  unfold breakModel
  split
  · rfl
  · split
    · exact model_beginEvict_ne s h
    · split
      · rfl
      · exact model_setModel_ne s _ h

theorem LacksTensor.breakModel_self {p i k : Nat} (h : LacksTensor s p i k) :
    (breakModel k s).model k = { s.model k with mode := .broken } := by
  obtain ⟨_, _, _, hmode⟩ := id h
  unfold breakModel
  rw [h.broken]
  rcases hmode with hm | hm <;> rw [hm] <;> exact model_setModel _ _ _

theorem LacksTensor.after_breakModel {p i k : Nat} (h : LacksTensor s p i k) (j : Nat) : LacksTensor (breakModel j s) p i k := by
  obtain ⟨hp, hpart, hi, hmode⟩ := id h
  refine ⟨(present_breakModel j s p i).trans hp, ?_⟩
  by_cases hj : j = k
  · subst hj
    rw [h.breakModel_self]
    exact ⟨hpart, hi, .inr rfl⟩
  · rw [model_breakModel_ne s hj]
    exact ⟨hpart, hi, hmode⟩

/-- A defined model whose tensor is gone is broken once its turn has come (R411). -/
theorem LacksTensor.mode_breakModels {p i k : Nat} (l : List Nat) (h : LacksTensor s p i k)
    (hk : k ∈ l ∨ (s.model k).mode = .broken) : ((forEach l s breakModel).model k).mode = .broken := by
  induction l generalizing s with
  | nil => exact hk.resolve_left List.not_mem_nil
  | cons j l ih =>
    refine ih (h.after_breakModel j) ?_
    by_cases hj : j = k
    · subst hj
      rw [h.breakModel_self]
      exact .inr rfl
    · rw [model_breakModel_ne s hj]
      exact hk.imp_left fun hm => (List.mem_cons.1 hm).resolve_left (Ne.symm hj)

theorem present_breakModels (l : List Nat) (s : State) (p i : Nat) :
    ((forEach l s breakModel).tensor p i).present = (s.tensor p i).present := by
  induction l generalizing s with
  | nil => rfl
  | cons j l ih => exact (ih _).trans (present_breakModel j s p i)

/-- A record that is not the default stands in its table. -/
theorem mem_of_tabGet_ne {α : Type} {d : α} {l : Tab α} {k : Nat} (h : tabGet d l k ≠ d) : (k, tabGet d l k) ∈ l := by
  induction l with
  | nil => exact absurd rfl h
  | cons e l ih =>
    obtain ⟨a, v⟩ := e
    rw [tabGet] at h ⊢
    split at h
    · next ha => rw [if_pos ha, ha]; exact .head _
    · next ha => rw [if_neg ha]; exact .tail _ (ih h)

/-- A record that a test accepts, and the default does not, stands at its key. -/
theorem mem_keysWhere {α : Type} {d : α} {l : Tab α} {f : α → Bool} {k : Nat} (h : f (tabGet d l k) = true) (hd : f d = false) :
    k ∈ keysWhere l f := by
  have hne : tabGet d l k ≠ d := fun e => Bool.false_ne_true (hd.symm.trans (e ▸ h))
  exact List.mem_map.2 ⟨(k, tabGet d l k), List.mem_filter.2 ⟨mem_of_tabGet_ne hne, h⟩, rfl⟩

/-- Settles O12: each command sets the tensor that it names, and TENSOR_UNREG breaks the defined models that list it. -/
theorem tensorCommands : Obligations.TensorCommands := by
  unfold Obligations.TensorCommands
  refine ⟨fun rq ctx addr s => endsOn_mk rfl fun _ _ => ⟨_, _, rfl, rfl, setTensor_frame _ _ (fieldAt_lt _ 0 4)⟩,
    fun rq tensor s => ends_mk rfl fun b hb _ => ?unreg,
    fun rq tensor version s => ends_mk rfl fun b hb _ => ⟨_, _, rfl, rfl, setTensor_frame b _ (tensorId_lt hb)⟩,
    fun rq tensor scale s => ends_mk rfl fun b hb _ => ⟨_, _, rfl, rfl, setTensor_frame b _ (tensorId_lt hb)⟩,
    fun rq tensor s => ends_mk rfl fun b hb _ => ⟨_, _, rfl, rfl, setTensor_frame b _ (tensorId_lt (l := []) hb)⟩,
    fun rq tensor stamp s => ends_mk rfl fun b hb _ => ⟨_, _, rfl, rfl, setTensor_frame b _ (tensorId_lt hb)⟩⟩
  case unreg =>
    have hgone : ((b.setTensor (fnPart b rq.fn.val) tensor.toNat {}).tensor (fnPart b rq.fn.val) tensor.toNat).present = false := by
      rw [tensor_setTensor]
    refine ⟨_, _, rfl, rfl, ?_, fun k hpres hpart hmode hlist => ?_,
      only_of_within (within_effectTensorUnreg (cmdOf rq 0x49 [tensor]) b (Within.refl b) rfl)⟩
    · exact (present_breakModels (partModels b (fnPart b rq.fn.val)) _ _ _).trans hgone
    · exact LacksTensor.mode_breakModels (s := b.setTensor (fnPart b rq.fn.val) tensor.toNat {}) (p := fnPart b rq.fn.val) (i := tensor.toNat)
        (partModels b (fnPart b rq.fn.val)) ⟨hgone, hpart, hlist, .inl hmode⟩
        (.inl (mem_keysWhere (by simpa using ⟨hpres, hpart⟩) rfl))

end Sys2Proof.Machine
end

section
/-! MODEL_DEFINE, MODEL_LOAD, MODEL_EVICT, MODEL_DESTROY and MODEL_UNITS_FREED (R375, R377, R405 to R411). -/

namespace Sys2Proof.Machine

variable {s t u : State}

theorem model_same (h : Area.models.same s t) (k : Nat) : t.model k = s.model k := congrArg (fun l => tabGet ({} : Model) l k) h

theorem setModel_frame (s : State) (k : Nat) (v : Model) :
    (s.setModel k v).model k = v ∧ (∀ j, j ≠ k → (s.setModel k v).model j = s.model j) ∧ Only [.models] s (s.setModel k v) :=
  ⟨model_setModel s k v, fun _ h => model_setModel_ne s v h.symm, (within_setModel s k v (Within.refl s) (Sub.refl _)).only rfl⟩

/-! ### Eviction -/

theorem modelBroken_restoreHome (s : State) (m n : Model) : modelBroken (restoreHome s m) n = modelBroken s n := by
  simp only [modelBroken, present_restoreHome]

/-- A loaded model that begins to be evicted keeps all but its mode (R409). -/
theorem model_beginEvict {k : Nat} (h : (s.model k).mode = .loaded) : (beginEvict s k).model k = { s.model k with mode := .evicting } := by
  simp only [beginEvict, h, beq_self_eq_true, Bool.true_or, if_true]
  exact model_setModel _ _ _

theorem modelBroken_beginEvict (s : State) (k : Nat) (n : Model) : modelBroken (beginEvict s k) n = modelBroken s n := by
  simp only [modelBroken, present_beginEvict]

/-- Whether a model is in use is told by its tensors, the cores, the engines, the contexts and the partitions. -/
theorem modelInUse_congr {m n : Model} (hm : (n.tensors, n.part) = (m.tensors, m.part)) (hp : Area.parts.same s t) (hc : Area.ctxs.same s t)
    (hk : Area.cores.same s t) (he : Area.engines.same s t) : modelInUse t n = modelInUse s m := by
  obtain ⟨h1, h2⟩ := Prod.mk.inj hm
  have hsec : secPart t = secPart s := funext fun n => by simp only [secPart, parts_same hp]
  simp only [modelInUse, h1, h2, hsec, ctx_same hc, show t.work.cores = s.work.cores from hk, show t.work.engines = s.work.engines from he]

theorem beginEvict_only (s : State) (k : Nat) : Only [.models, .tensors] s (beginEvict s k) :=
  only_of_within (within_beginEvict s k (Within.refl s) rfl)

theorem modelInUse_beginEvict {k : Nat} (h : (s.model k).mode = .loaded) :
    modelInUse (beginEvict s k) ((beginEvict s k).model k) = modelInUse s (s.model k) := by
  have ho := beginEvict_only s k
  rw [model_beginEvict h]
  exact modelInUse_congr rfl (ho .parts (by decide)) (ho .ctxs (by decide)) (ho .cores (by decide)) (ho .engines (by decide))

/-- A model's units given back. -/
theorem freeUnits_frame (s : State) (k : Nat) :
    (freeUnits s k).model k = { s.model k with copies := [], mode := if modelBroken s (s.model k) then .broken else .defined } ∧
    (∀ j, j ≠ k → (freeUnits s k).model j = s.model j) ∧ Only [.models] s (freeUnits s k) := setModel_frame s k _

/-- An evicted model that nothing uses is defined again without copies, or broken (R409, R411). -/
theorem evicted_frame {k : Nat} (h : (s.model k).mode = .loaded) :
    (freeUnits (beginEvict s k) k).model k = { s.model k with copies := [], mode := if modelBroken s (s.model k) then .broken else .defined } ∧
    (∀ j, j ≠ k → (freeUnits (beginEvict s k) k).model j = s.model j) ∧ Only [.models, .tensors] s (freeUnits (beginEvict s k) k) := by
  obtain ⟨h1, h2, h3⟩ := freeUnits_frame (beginEvict s k) k
  rw [modelBroken_beginEvict, model_beginEvict h] at h1
  exact ⟨h1, fun j hj => (h2 j hj).trans (model_beginEvict_ne s (Ne.symm hj)),
    (beginEvict_only s k).trans h3 (by decide) (by decide)⟩

/-! ### Loading -/

theorem Only.chain {l : List Area} (h : Only l s t) (g : Only l t u) : Only l s u := h.trans g (fun _ h => h) (fun _ h => h)


/-- What a load leaves of the model it loads: all but its copies. -/
def withoutCopies (m : Model) : Model := { m with copies := [] }

def SameButCopies (s t : State) (k : Nat) : Prop := withoutCopies (t.model k) = withoutCopies (s.model k)

theorem SameButCopies.refl (s : State) (k : Nat) : SameButCopies s s k := rfl

theorem SameButCopies.trans {k : Nat} (h : SameButCopies s t k) (g : SameButCopies t u k) : SameButCopies s u k := Eq.trans g h

theorem SameButCopies.of_same {k : Nat} (h : Area.models.same s t) : SameButCopies s t k :=
  congrArg withoutCopies (model_same h k)

theorem SameButCopies.of_eq {k : Nat} (h : t.model k = s.model k) : SameButCopies s t k :=
  congrArg withoutCopies h

theorem SameButCopies.of_copies {k : Nat} (h : t.model k = s.model k) (f : Model → List ModelCopy) :
    SameButCopies s (t.modModel k (fun m => { m with copies := f m })) k := by
  rw [SameButCopies, State.modModel, model_setModel, ← h]
  rfl

/-- The model that is evicted to make room is another one (R407). -/
theorem victim_ne {p k v : Nat} (h : victim s p k = some v) : v ≠ k := by
  suffices hl : ∀ (l : List Nat) (a : Option Nat), (∀ m ∈ l, m ≠ k) → (∀ m, a = some m → m ≠ k) →
      ∀ m, l.foldl (fun a m => match a with
        | none => some m
        | some v => if (s.model m).lastLaunch < (s.model v).lastLaunch then some m else some v) a = some m → m ≠ k by
    refine hl _ none (fun m hm e => ?_) (fun _ hm => nomatch hm) v h
    obtain ⟨_, hf⟩ := List.mem_filter.1 hm
    subst e
    simp only [Bool.and_eq_true, decide_eq_true_eq] at hf
    exact Nat.lt_irrefl _ hf.1.2
  intro l
  induction l with
  | nil => exact fun a _ ha m hm => ha m hm
  | cons x l ih =>
    intro a hl ha
    refine ih _ (fun m hm => hl m (.tail _ hm)) fun m hm => ?_
    cases a with
    | none => exact Option.some.inj hm ▸ hl x (.head _)
    | some y =>
      dsimp only at hm
      split at hm
      · exact Option.some.inj hm ▸ hl x (.head _)
      · exact ha m hm

/-- Room for a tensor is made without the model that is loaded. -/
theorem model_makeRoom (p k : Nat) (d : TensorDesc) (n : Nat) (s : State) : (makeRoom p k d n s).1.model k = s.model k := by
  induction n generalizing s with
  | zero => rfl
  | succ n ih =>
    unfold makeRoom
    split
    · rfl
    · split
      · next v hv =>
        have hne := victim_ne hv
        rw [ih, (freeUnits_frame _ v).2.1 k (Ne.symm hne), model_beginEvict_ne s hne]
      · rfl

/-- A tensor copied to its place: a mover's counts, the copied bytes, the moved descriptor and the model's new copy. -/
theorem copyTensor_kept (s : State) (p k id : Nat) (place : Nat × Nat) : SameButCopies s (copyTensor s p k id place).1 k ∧
    ((copyTensor s p k id place).2 = true → Only (readAreas ++ [.models, .tensors]) s (copyTensor s p k id place).1) := by
  unfold copyTensor
  dsimp only
  split
  case h_1 u cause poison a hu =>
    refine ⟨.of_same (Within.same (μ := 711490045) ?_ .models (by decide)), fun h => absurd h Bool.false_ne_true⟩
    have hr := within_readTensor (μ := 711490045) (snapBlocks [(s.tensor p id, 0)]) s (Within.refl s) rfl
    rw [hu] at hr
    exact within_ctxFault _ _ _ _ _ _ (within_poisonCopy s u _ _ (Within.refl s) hr rfl) rfl
  case h_2 u hu =>
    have hr (μ : Nat) (hm : Sub 134222008 μ) : Within μ s u := by
      have hr := within_readTensor (snapBlocks [(s.tensor p id, 0)]) s (Within.refl s) hm
      rwa [hu] at hr
    refine ⟨.of_copies (model_same (Within.same (μ := 134287544) ?_ .models (by decide)) k) _, fun _ => only_of_within ?_⟩
    · exact within_setTensor (μ := 134287544) _ _ _ _ (within_foldl (hr _ rfl) fun _ _ ht => within_countBlocks _ _ _ (within_writeBytes _ _ _ ht rfl) rfl) rfl
    · dsimp only
      refine within_modModel _ _ _ ?_ rfl
      refine within_setTensor _ _ _ _ ?_ rfl
      exact within_foldl (hr _ rfl) fun _ _ ht => within_countBlocks _ _ _ (within_writeBytes _ _ _ ht rfl) rfl

theorem loadTensors_kept (p k : Nat) (l : List Nat) (s : State) : SameButCopies s (loadTensors p k l s).1 k ∧
    ((loadTensors p k l s).2 = true → Only (readAreas ++ [.models, .tensors]) s (loadTensors p k l s).1) := by
  induction l generalizing s with
  | nil => exact ⟨.refl s k, fun _ => Only.refl _ _⟩
  | cons id l ih =>
    unfold loadTensors
    dsimp only
    split
    · exact ih s
    · have hroom := model_makeRoom p k (s.tensor p id).desc 1025 s
      have hareas : Only (readAreas ++ [.models, .tensors]) s (makeRoom p k (s.tensor p id).desc 1025 s).1 :=
        only_of_within (within_makeRoom p k _ 1025 s (Within.refl s) rfl)
      split
      case h_1 u hu =>
        rw [hu] at hroom hareas
        obtain ⟨h1, h2⟩ := ih u
        exact ⟨(SameButCopies.of_eq hroom).trans h1, fun h => hareas.chain (h2 h)⟩
      case h_2 u place hu =>
        rw [hu] at hroom hareas
        obtain ⟨h1, h2⟩ := copyTensor_kept u p k id place
        split
        case h_1 v hv =>
          rw [hv] at h1 h2
          obtain ⟨h3, h4⟩ := ih v
          exact ⟨((SameButCopies.of_eq hroom).trans h1).trans h3, fun h =>
            (hareas.chain (h2 rfl)).chain (h4 h)⟩
        case h_2 v hv =>
          rw [hv] at h1
          exact ⟨(SameButCopies.of_eq hroom).trans h1, fun h => absurd h Bool.false_ne_true⟩

/-- A loaded model. -/
def modelLoaded (p k : Nat) (l : List Nat) (s : State) : State := (loadTensors p k l s).1.modModel k (fun m => { m with mode := .loaded })

theorem modelLoaded_model (p k : Nat) (l : List Nat) (s : State) : (modelLoaded p k l s).model k =
    { s.model k with mode := .loaded, copies := ((modelLoaded p k l s).model k).copies } := by
  obtain ⟨h, _⟩ := loadTensors_kept p k l s
  rw [modelLoaded, State.modModel, model_setModel]
  exact congrArg (fun m : Model => { m with mode := .loaded, copies := ((loadTensors p k l s).1.model k).copies }) h

theorem copies_modelLoaded (p k : Nat) (l : List Nat) (s : State) :
    ((modelLoaded p k l s).model k).copies = ((loadTensors p k l s).1.model k).copies := by
  rw [modelLoaded, State.modModel, model_setModel]

theorem effectModelLoad_of_loaded {c : Cmd} (h : (loadTensors (myPart c s) (hIdx (c.arg 0)) (s.model (hIdx (c.arg 0))).tensors s).2 = true) :
    effectModelLoad c s = okWith (sumNat (((modelLoaded (myPart c s) (hIdx (c.arg 0)) (s.model (hIdx (c.arg 0))).tensors s).model
      (hIdx (c.arg 0))).copies.map (·.bytes)))
      (modelLoaded (myPart c s) (hIdx (c.arg 0)) (s.model (hIdx (c.arg 0))).tensors s) := by
  rw [copies_modelLoaded]
  unfold effectModelLoad modelLoaded
  dsimp only
  split
  · next u hu => rw [hu]
  · next u hu => rw [hu] at h; exact absurd h Bool.false_ne_true

/-- A load that stopped has no copies (R406). -/
def loadUndone (p k : Nat) (l : List Nat) (s : State) : State :=
  (restoreHome (loadTensors p k l s).1 { (loadTensors p k l s).1.model k with
    tensors := ((loadTensors p k l s).1.model k).copies.map (·.tensor) }).modModel k (fun m => { m with copies := [] })

theorem loadUndone_model (p k : Nat) (l : List Nat) (s : State) : (loadUndone p k l s).model k = { s.model k with copies := [] } := by
  obtain ⟨h, _⟩ := loadTensors_kept p k l s
  rw [loadUndone, State.modModel, model_setModel, model_restoreHome]
  exact h

theorem effectModelLoad_of_stopped {c : Cmd} (h : (loadTensors (myPart c s) (hIdx (c.arg 0)) (s.model (hIdx (c.arg 0))).tensors s).2 = false) :
    effectModelLoad c s = .done rcFaulted 0 (loadUndone (myPart c s) (hIdx (c.arg 0)) (s.model (hIdx (c.arg 0))).tensors s) := by
  unfold effectModelLoad loadUndone
  dsimp only
  split
  · next u hu => rw [hu] at h; exact absurd h.symm Bool.false_ne_true
  · next u hu => rw [hu]

/-- Settles O13. -/
theorem modelCommands : Obligations.ModelCommands := by
  unfold Obligations.ModelCommands
  refine ⟨fun rq list count priority s => endsOn_mk rfl fun hb _ => ?define, fun rq model hits s => endsOn_mk rfl fun _ hl => ?load,
    fun rq model hits s h hl => ?fails, fun rq model s => ends_mk rfl fun b hb hu => ?evict, fun rq model s => pends_mk rfl fun b hb hu => ?waits,
    fun rq model s => ends_mk rfl fun b _ _ => ?destroy, fun model s hm hu => ?freed⟩
  case define =>
    have hm := (within_meetArgs (before rq 0x50 [list, count, priority] s) (defineReads (cmdOf rq 0x50 [list, count, priority])
      (before rq 0x50 [list, count, priority] s)) (Within.refl _) (Sub.refl _)).same .models (by decide)
    have hroom : (upTo 1024).all (fun m => ((before rq 0x50 [list, count, priority] s).model m).present) = false :=
      not_refused hb (.tail _ (.tail _ (.tail _ (.tail _ (.tail _ (.tail _ (.head _)))))))
    obtain ⟨j, hj, hf⟩ := exists_of_upTo_all hroom
    obtain ⟨m, hlt, hfree, hpick⟩ := pickIndex_some (seen defineReads rq 0x50 [list, count, priority] s) (n := 1024)
      (free := fun m => !((seen defineReads rq 0x50 [list, count, priority] s).model m).present)
      ⟨j, hj, by rw [show (seen defineReads rq 0x50 [list, count, priority] s).model j = _ from model_same hm j, hf]; rfl⟩
    obtain ⟨g1, g2, g3⟩ := setModel_frame (seen defineReads rq 0x50 [list, count, priority] s).freeDraw.2 m
      { present := true, gen := ((seen defineReads rq 0x50 [list, count, priority] s).model m).gen,
        part := fnPart (seen defineReads rq 0x50 [list, count, priority] s) rq.fn.val,
        tensors := listArg (seen defineReads rq 0x50 [list, count, priority] s) list 4 count.toNat, priority := priority.toNat }
    refine ⟨_, _, ?_, m, hlt, by simpa using hfree, rfl, g1, g2, (freeDraw_only _).trans g3 (by decide) (by decide)⟩
    unfold effectModelDefine
    dsimp only
    rw [hpick]
    rfl
  case load =>
    refine ⟨_, _, effectModelLoad_of_loaded hl, ?_, rfl, ?_⟩
    · exact modelLoaded_model _ _ _ _
    · obtain ⟨_, h⟩ := loadTensors_kept (fnPart (seen noReads rq 0x51 [model] (upsetWords s hits)) rq.fn.val) (hIdx model)
        ((seen noReads rq 0x51 [model] (upsetWords s hits)).model (hIdx model)).tensors (seen noReads rq 0x51 [model] (upsetWords s hits))
      exact (h hl).trans (setModel_frame _ _ _).2.2 (fun _ h => h) (by decide)
  case fails =>
    exact ⟨_, exec_of_done rfl h (effectModelLoad_of_stopped hl), loadUndone_model _ _ _ _⟩
  case evict =>
    have hm : (b.model (hIdx model)).mode = .loaded := by
      have hl : ((b.model (hIdx model)).mode != .loaded) = false := not_refused hb (.tail _ (.tail _ (.tail _ (.tail _ (.head _)))))
      simpa using hl
    refine ⟨_, _, ?_, rfl, evicted_frame hm⟩
    exact if_neg (ne_true_of_eq_false ((modelInUse_beginEvict hm).trans hu))
  case waits =>
    have hm : (b.model (hIdx model)).mode = .loaded := by
      have hl : ((b.model (hIdx model)).mode != .loaded) = false := not_refused hb (.tail _ (.tail _ (.tail _ (.tail _ (.head _)))))
      simpa using hl
    exact ⟨_, if_pos ((modelInUse_beginEvict hm).trans hu), model_beginEvict hm,
      fun j hj => model_beginEvict_ne b (Ne.symm hj), beginEvict_only b _⟩
  case destroy =>
    obtain ⟨g1, g2, g3⟩ := setModel_frame b (hIdx model) { gen := (b.model (hIdx model)).gen + 1 }
    exact ⟨_, _, rfl, rfl, g1, g2, g3.trans (pruneTokens_only _) (by decide) (by decide)⟩
  case freed =>
    refine congrArg _ (if_pos ?_)
    rw [hm, hu]
    rfl

end Sys2Proof.Machine
end

section
/-! What faults and messages leave of contexts and groups: a context that is not ACTIVE keeps its mode and its cause, a group its installed
epoch and its member links (R291, R423, R428). -/

namespace Sys2Proof.Machine

variable {s t u : State} {μ : Nat}

/-- The mode of a context with the cause of its first fault. -/
def ctxEnd (x : Ctx) : CtxMode × Option Nat := (x.mode, x.cause)

/-- What EPOCH_INSTALL sets of a group. -/
def installed (g : Group) : Bool × Nat × Word × Bool := (g.present, g.epoch, g.mask, g.member)

/-- Contexts that are not ACTIVE end as they ended, and groups keep what was installed. -/
structure Stays (s t : State) : Prop where
  ctx : ∀ c, (s.ctx c).mode ≠ .active → ctxEnd (t.ctx c) = ctxEnd (s.ctx c)
  group : ∀ g, installed (t.group g) = installed (s.group g)

theorem group_same (h : Area.groups.same s t) (g : Nat) : t.group g = s.group g := congrArg (fun l => tabGet ({} : Group) l g) h

theorem Stays.refl (s : State) : Stays s s := ⟨fun _ _ => rfl, fun _ => rfl⟩

/-- A context that is not ACTIVE does not become so. -/
theorem Stays.ended (h : Stays s t) {c : Nat} (hc : (s.ctx c).mode ≠ .active) : (t.ctx c).mode ≠ .active := by
  rwa [(Prod.mk.inj (h.ctx c hc)).1]

theorem Stays.trans (h : Stays s t) (g : Stays t u) : Stays s u :=
  ⟨fun c hc => (g.ctx c (h.ended hc)).trans (h.ctx c hc), fun k => (g.group k).trans (h.group k)⟩

theorem stays_of_same (hc : Area.ctxs.same s t) (hg : Area.groups.same s t) : Stays s t :=
  ⟨fun c _ => congrArg ctxEnd (ctx_same hc c), fun g => congrArg installed (group_same hg g)⟩

/-- What changes neither contexts nor groups. -/
theorem Within.stays (h : Within μ s t) (hc : μ.testBit 13 = false := by decide) (hg : μ.testBit 19 = false := by decide) : Stays s t :=
  stays_of_same (h.same .ctxs hc) (h.same .groups hg)

/-- What leaves the tables of contexts and groups. -/
theorem Stays.onto {v : State} (h : Stays s v) (hc : t.objs.ctxs = v.objs.ctxs) (hg : t.objs.groups = v.objs.groups) : Stays s t :=
  h.trans (stays_of_same hc hg)

theorem stays_foldl {α : Type} (l : List α) (g : State → α → State) (h : ∀ t a, Stays t (g t a)) (s : State) :
    Stays s (l.foldl g s) := by
  induction l generalizing s with
  | nil => exact Stays.refl s
  | cons a l ih => exact (h s a).trans (ih _)

theorem stays_forEach {α : Type} (l : List α) (g : α → State → State) (h : ∀ t a, Stays t (g a t)) (s : State) :
    Stays s (forEach l s g) := stays_foldl l _ h s

theorem stays_ite {c : Prop} [Decidable c] {a b : State} (ha : Stays s a) (hb : Stays s b) : Stays s (if c then a else b) := by
  split <;> assumption

theorem stays_setCtx (s : State) (c : Nat) (v : Ctx) (h : (s.ctx c).mode ≠ .active → ctxEnd v = ctxEnd (s.ctx c)) : Stays s (s.setCtx c v) := by
  refine ⟨fun k hk => ?_, fun _ => rfl⟩
  by_cases e : c = k
  · subst e; rw [ctx_setCtx]; exact h hk
  · rw [ctx_setCtx_ne _ _ e]

theorem stays_setGroup (s : State) (g : Nat) (v : Group) (h : installed v = installed (s.group g)) : Stays s (s.setGroup g v) := by
  refine ⟨fun _ _ => rfl, fun k => ?_⟩
  by_cases e : g = k
  · subst e; rw [group_setGroup]; exact h
  · rw [group_setGroup_ne _ _ e]

/-! ### Stopping contexts -/

theorem stays_sendMsg (s : State) (l : Nat) (h d : List Byte) : Stays s (sendMsg s l h d) :=
  (within_sendMsg s l h d (Within.refl s) (Sub.refl _)).stays rfl rfl

theorem stays_sendAbort (s : State) (g e : Nat) : Stays s (sendAbort s g e) := by
  unfold sendAbort
  dsimp only
  refine stays_ite (Stays.refl s) (Stays.trans ?_ ((within_bump _ _ _ _ _ (Within.refl _) (Sub.refl _)).stays rfl rfl))
  refine Stays.trans (stays_setGroup _ _ _ ?_) (stays_forEach _ _ (fun _ _ => stays_sendMsg _ _ _ _) _)
  rfl

theorem sendAbort_ctxs (s : State) (g e : Nat) : Area.ctxs.same s (sendAbort s g e) :=
  (within_sendAbort s g e (Within.refl s) (Sub.refl _)).same .ctxs (by decide)

/-- The state in which a context that is stopped for a cause is marked: its tallies are abandoned, and ABORT has gone out (R423). -/
def atStop (s : State) (c : Nat) (abort : Bool) : State :=
  match (s.ctx c).group with
  | some g => if abort then sendAbort (abandonTallies s c) g ((abandonTallies s c).group g).epoch else abandonTallies s c
  | none => abandonTallies s c

theorem stays_atStop (s : State) (c : Nat) (abort : Bool) : Stays s (atStop s c abort) := by
  have h : Stays s (abandonTallies s c) := (within_abandonTallies s c (Within.refl s) (Sub.refl _)).stays rfl rfl
  unfold atStop
  split
  · exact stays_ite (h.trans (stays_sendAbort _ _ _)) h
  · exact h

theorem atStop_ctxs (s : State) (c : Nat) (abort : Bool) : Area.ctxs.same s (atStop s c abort) := by
  have h : Area.ctxs.same s (abandonTallies s c) := (within_abandonTallies s c (Within.refl s) (Sub.refl _)).same .ctxs (by decide)
  unfold atStop
  split
  · split
    · exact Area.same_trans h (sendAbort_ctxs _ _ _)
    · exact h
  · exact h

/-- The slots, launches and queues of a context stop. -/
def stopWork (s : State) (c : Nat) : State :=
  let s := markStopped (stopCtxSlots s c) (fun l => l.ctx == c)
  forEach (queuesWhere s (fun q => q.ctx == some c)) s (fun q t => stopQueue t q true)

theorem within_stopWork (s : State) (c : Nat) : Within 677386744 s (stopWork s c) :=
  within_forEach (within_markStopped _ _ (within_stopCtxSlots _ _ (Within.refl s) rfl) rfl) fun _ _ h => within_stopQueue _ _ _ h rfl

theorem stopContext_eq (s : State) (c cause : Nat) (abort : Bool) (ha : (s.ctx c).mode = .active) : stopContext s c cause abort =
    stopWork ((atStop s c abort).modCtx c (fun y => { y with mode := .stopping, cause := some cause, quiesced := false })) c := by
  unfold stopContext
  simp only [ha, bne_self_eq_false, Bool.false_eq_true, if_false]
  rfl

/-- A context that is stopped for a cause: it alone is STOPPING, with that cause (R423). -/
theorem stopContext_ctx (s : State) (c cause : Nat) (abort : Bool) (ha : (s.ctx c).mode = .active) :
    (stopContext s c cause abort).ctx c = { s.ctx c with mode := .stopping, cause := some cause, quiesced := false } ∧
    ∀ j, j ≠ c → (stopContext s c cause abort).ctx j = s.ctx j := by
  rw [stopContext_eq s c cause abort ha]
  have hw := (within_stopWork ((atStop s c abort).modCtx c (fun y => { y with mode := .stopping, cause := some cause, quiesced := false }))
    c).same .ctxs (by decide)
  refine ⟨(ctx_same hw c).trans ?_, fun j hj => (ctx_same hw j).trans ?_⟩
  · rw [State.modCtx, ctx_setCtx, ctx_same (atStop_ctxs s c abort)]
  · rw [State.modCtx, ctx_setCtx_ne _ _ (Ne.symm hj), ctx_same (atStop_ctxs s c abort)]

theorem stays_stopContext (s : State) (c cause : Nat) (abort : Bool) : Stays s (stopContext s c cause abort) := by
  by_cases ha : (s.ctx c).mode = .active
  · rw [stopContext_eq s c cause abort ha]
    refine ((stays_atStop s c abort).trans (stays_setCtx _ _ _ fun h => ?_)).trans ((within_stopWork _ c).stays rfl rfl)
    rw [ctx_same (atStop_ctxs s c abort)] at h
    exact absurd ha h
  · have h : ((s.ctx c).mode != .active) = true := by simpa using ha
    unfold stopContext
    simp only [h, if_true]
    exact Stays.refl s

theorem stays_abortCtx (s : State) (c epoch : Nat) (abort : Bool) : Stays s (abortCtx s c epoch abort) :=
  stays_ite (Stays.refl s)
    ((((within_postAborted s c epoch (Within.refl s) (Sub.refl _)).stays rfl rfl)).trans (stays_stopContext _ _ _ _))

/-- An aborted context is not ACTIVE. -/
theorem abortCtx_ended (s : State) (c epoch : Nat) (abort : Bool) : ((abortCtx s c epoch abort).ctx c).mode ≠ .active := by
  by_cases ha : (s.ctx c).mode = .active
  · have hp : (postAborted s c epoch).ctx c = s.ctx c :=
      ctx_same ((within_postAborted s c epoch (Within.refl s) (Sub.refl _)).same .ctxs (by decide)) c
    unfold abortCtx
    simp only [ha, bne_self_eq_false, Bool.false_eq_true, if_false]
    rw [(stopContext_ctx (postAborted s c epoch) c 0x0F abort (hp ▸ ha)).1]
    exact CtxMode.noConfusion
  · have h : ((s.ctx c).mode != .active) = true := by simpa using ha
    unfold abortCtx
    simp only [h, if_true]
    exact ha

theorem stays_abortGroup (s : State) (g epoch : Nat) : Stays s (abortGroup s g epoch) :=
  stays_forEach _ _ (fun _ _ => stays_abortCtx _ _ _ _) s

/-- The contexts of a group that is aborted are not ACTIVE (R427). -/
theorem abortGroup_ended (s : State) (g epoch : Nat) : ∀ k ∈ groupCtxs s g, ((abortGroup s g epoch).ctx k).mode ≠ .active := by
  unfold abortGroup
  generalize groupCtxs s g = l
  induction l generalizing s with
  | nil => exact fun k hk => nomatch hk
  | cons c l ih =>
    intro k hk
    cases List.mem_cons.1 hk with
    | inl h =>
      subst h
      exact (stays_forEach l (fun c t => abortCtx t c epoch false) (fun _ _ => stays_abortCtx _ _ _ _) _).ended (abortCtx_ended s k epoch false)
    | inr h => exact ih _ k h

/-! ### Faults -/

theorem stays_fenceModule (s : State) (reason : Nat) : Stays s (fenceModule s reason) := by
  unfold fenceModule
  dsimp only
  refine stays_ite (Stays.refl s) (Stays.trans ?_ ((within_postTo _ _ _ _ (Within.refl _) (Sub.refl _)).stays rfl rfl))
  refine Stays.onto (Stays.trans ?_ (stays_forEach _ (fun p t => enterReset t p .blocked)
    (fun t p => ((within_enterReset t p .blocked (Within.refl t) (Sub.refl _)).stays rfl rfl)) _)) rfl rfl
  exact stays_forEach _ _ (fun _ _ => stays_abortCtx _ _ _ _) s

theorem stays_escalateCtx (s : State) : Stays s (escalateCtx s) := by
  unfold escalateCtx
  dsimp only
  have h (l : List Nat) : Stays s { s with care := { s.care with hardFaults := l } } := ⟨fun _ _ => rfl, fun _ => rfl⟩
  exact stays_ite ((h _).trans (stays_fenceModule _ _)) (h _)

/-- What a fault records before it stops its context (R419, R423). -/
def atFault (s : State) (c cause sec unit : Nat) (poison : Bool) : State :=
  let x := s.ctx c
  let s := setFltLast s 0 cause sec unit c x.part poison
  postPart s x.part 0xE0 (c * 2 ^ 39 + cause * 2 ^ 31 + sec % 8 * 2 ^ 28 + ctxTag s c)

theorem within_atFault (s : State) (c cause sec unit : Nat) (poison : Bool) : Within 136 s (atFault s c cause sec unit poison) :=
  within_postPart _ _ _ _ (within_setFltLast _ _ _ _ _ _ _ _ (Within.refl s) rfl) rfl

theorem ctxFault_eq (s : State) (c cause sec unit : Nat) (poison : Bool) (ha : (s.ctx c).mode = .active) : ctxFault s c cause sec unit poison =
    if attribOf cause poison = 1 then escalateCtx (stopContext (atFault s c cause sec unit poison) c cause true)
    else stopContext (atFault s c cause sec unit poison) c cause true := by
  unfold ctxFault
  simp only [ha, bne_self_eq_false, Bool.false_eq_true, if_false]
  rfl

theorem ctxFault_of_ended {c : Nat} (s : State) (cause sec unit : Nat) (poison : Bool) (ha : (s.ctx c).mode ≠ .active) :
    ctxFault s c cause sec unit poison = s := by
  have h : ((s.ctx c).mode != .active) = true := by simpa using ha
  unfold ctxFault
  simp only [h, if_true]

theorem stays_ctxFault (s : State) (c cause sec unit : Nat) (poison : Bool) : Stays s (ctxFault s c cause sec unit poison) := by
  by_cases ha : (s.ctx c).mode = .active
  · have h := ((within_atFault s c cause sec unit poison).stays rfl rfl).trans (stays_stopContext _ c cause true)
    rw [ctxFault_eq s c cause sec unit poison ha]
    exact stays_ite (h.trans (stays_escalateCtx _)) h
  · rw [ctxFault_of_ended s cause sec unit poison ha]
    exact Stays.refl s

/-- A context fault leaves its context faulted (R419, R423). -/
theorem faulted_ctxFault (s : State) (c cause sec unit : Nat) (poison : Bool) (ha : (s.ctx c).mode = .active) :
    Faulted (ctxFault s c cause sec unit poison) c cause := by
  have ha' : ((atFault s c cause sec unit poison).ctx c).mode = .active := by
    rw [ctx_same ((within_atFault s c cause sec unit poison).same .ctxs (by decide))]; exact ha
  obtain ⟨hc, _⟩ := stopContext_ctx _ c cause true ha'
  have he : ctxEnd ((ctxFault s c cause sec unit poison).ctx c) = (.stopping, some cause) := by
    rw [ctxFault_eq s c cause sec unit poison ha]
    split
    · rw [(stays_escalateCtx _).ctx c (by rw [hc]; exact CtxMode.noConfusion), hc]; rfl
    · rw [hc]; rfl
  exact ⟨(Prod.mk.inj he).1, (Prod.mk.inj he).2⟩

/-- A faulted context stays so. -/
theorem Faulted.stays {c cause : Nat} (h : Faulted s c cause) (g : Stays s t) : Faulted t c cause := by
  obtain ⟨h1, h2⟩ := Prod.mk.inj (g.ctx c (by rw [h.1]; exact CtxMode.noConfusion))
  exact ⟨h1.trans h.1, h2.trans h.2⟩

/-! ### Records of inputs and adds to tallies -/

/-- A context changed in nothing but what its end does not tell. -/
theorem stays_modCtx (s : State) (c : Nat) (f : Ctx → Ctx) (h : ∀ x, ctxEnd (f x) = ctxEnd x) : Stays s (s.modCtx c f) :=
  stays_setCtx _ _ _ fun _ => h _

theorem stays_appendLog (s : State) (c : Nat) (g : Log) (kind source addr len : Nat) (crc : Word32) (tally : Nat) (data : List Byte) :
    Stays s (appendLog s c g kind source addr len crc tally data) := by
  unfold appendLog
  dsimp only
  refine stays_ite (Stays.trans (stays_modCtx _ _ _ ?_) ((within_bump _ _ _ _ _ (Within.refl _) (Sub.refl _)).stays rfl rfl))
    (Stays.trans (within_storeBytes _ _ _ (Within.refl _) (Sub.refl _)).stays (stays_modCtx _ _ _ ?_))
  · exact fun _ => rfl
  · exact fun _ => rfl

theorem stays_recordInput (s : State) (c kind source addr : Nat) (data : List Byte) (tally : Nat) :
    Stays s (recordInput s c kind source addr data tally) := by
  unfold recordInput
  split
  · exact stays_ite (Stays.refl s) (stays_appendLog _ _ _ _ _ _ _ _ _ _)
  · exact Stays.refl s

theorem stays_markCompare (s : State) (p : Nat) (g : Log) (m : Mark) (n : Nat) (d : Word32) : Stays s (markCompare s p g m n d) :=
  (within_markCompare s p g m n d (Within.refl s) (Sub.refl _)).stays rfl rfl

theorem stays_optCompare (s : State) (r : Option Log) (p : Nat) (m : Mark) (n : Nat) (d : Word32) :
    Stays s (match r with | some g => markCompare s p g m n d | none => s) := by
  cases r
  · exact Stays.refl s
  · exact stays_markCompare _ _ _ _ _ _

theorem stays_optLog (s : State) (r : Option Log) (c kind source addr : Nat) (crc : Word32) (tally : Nat) :
    Stays s (match r with
      | some g => if g.stopped then s else appendLog s c g kind source addr 0 crc tally []
      | none => s) := by
  cases r
  · exact Stays.refl s
  · exact stays_ite (Stays.refl s) (stays_appendLog _ _ _ _ _ _ _ _ _ _)

theorem stays_drawnHold (s : State) (p : Nat) (l : Option Nat) : Stays s (addCause s.freeDraw.2 p 7 0 l) :=
  Within.stays (μ := 1073745920) (within_addCause _ _ _ _ _ (within_freeDraw _ (Within.refl s) rfl) rfl)

theorem stays_markAdd (s : State) (c : Nat) (m : Mark) : Stays s (markAdd s c m) := by
  have hm : Stays s (s.modCtx c (fun x => { x with marks := x.marks.map (fun y => if y.number = m.number then
      { y with count := m.count + 1 } else y) })) := stays_modCtx _ _ _ fun _ => rfl
  unfold markAdd
  dsimp only
  refine stays_ite hm (hm.trans ?_)
  generalize s.modCtx c _ = t
  have hr (a n : Nat) : Stays t (readMem t a n).1 := (within_readMem t a n (Within.refl t) (Sub.refl _)).stays rfl rfl
  split
  · exact (hr _ _).trans (stays_ctxFault _ _ _ _ _ _)
  · replace hr := hr (t.tensor (s.ctx c).part m.tensor).homeDesc.crcAddr (4 * (t.tensor (s.ctx c).part m.tensor).homeDesc.blocks)
    revert hr
    generalize (readMem t _ _).1 = v
    exact fun hr => hr.trans ((stays_ite (stays_drawnHold _ _ _) (Stays.refl v)).trans
      ((stays_optCompare _ _ _ _ _ _).trans (stays_optLog _ _ _ _ _ _ _ _)))

theorem stays_markTally (s : State) (k : Nat) : Stays s (markTally s k) := stays_forEach _ _ (fun _ _ => stays_markAdd _ _ _) s

theorem stays_tallyAddOp (s : State) (k n : Nat) : Stays s (tallyAddOp s k n) := by
  unfold tallyAddOp
  dsimp only
  refine stays_ite (Stays.refl s) (stays_ite ((within_bump _ _ _ _ _ (Within.refl _) (Sub.refl _)).stays rfl rfl)
    (stays_ite (stays_ctxFault _ _ _ _ _ _) ((stays_markTally s k).trans ?_)))
  exact Within.stays (μ := 20480) (within_endExternal _ _ (within_modTally _ _ _ (Within.refl _) rfl) rfl)

theorem stays_signalTally (s : State) (k n : Nat) : Stays s (signalTally s k n) := stays_ite (Stays.refl s) (stays_tallyAddOp _ _ _)

/-! ### Messages of channel 0 -/

theorem stays_sendNotice (s : State) (l g : Nat) : Stays s (sendNotice s l g) := by
  unfold sendNotice
  dsimp only
  refine stays_ite (Stays.refl s) (Stays.trans (stays_setGroup _ _ _ ?_) (stays_sendMsg _ _ _ _))
  rfl

theorem stays_spoilWords (s : State) (l : Nat) (d : MsgDest) (bad : List Nat) : Stays s (spoilWords s l d bad) :=
  stays_ite (Stays.refl s) ((stays_forEach _ _ (fun _ _ => ((within_poisonWord _ _ (Within.refl _) (Sub.refl _)).stays rfl rfl)) s).trans
    (stays_ctxFault _ _ _ _ _ _))

theorem stays_dropLive (s : State) (c : Nat) : Stays s (dropLive s c) := (within_dropLive s c (Within.refl s) (Sub.refl _)).stays rfl rfl

theorem stays_applyMsg (s : State) (l : Nat) (h data : List Byte) (bad : List Nat) (d : MsgDest) : Stays s (applyMsg s l h data bad d) := by
  unfold applyMsg
  dsimp only
  refine stays_ite (stays_dropLive s _) (Stays.trans (Stays.trans ?_ (stays_spoilWords _ _ _ _)) (stays_signalTally _ _ _))
  refine Stays.trans ?_ ((within_bump _ _ _ _ _ (Within.refl _) (Sub.refl _)).stays rfl rfl)
  have hw : Stays s (writeMem (recordInput s d.ctx 4 l d.addr (data.take d.bytes) (if hTally h = 0xFFFF then 0xFFFFFFFF else hTally h)) d.addr
      (data.take d.bytes) false) :=
    (stays_recordInput _ _ _ _ _ _ _).trans ((within_writeMem _ _ _ _ (Within.refl _) (Sub.refl _)).stays rfl rfl)
  split
  · exact hw.trans ((within_storeBytes _ _ _ (Within.refl _) (Sub.refl _)).stays rfl rfl)
  · exact hw

theorem stays_sendRefuse (s : State) (l cause : Nat) (h : List Byte) : Stays s (sendRefuse s l cause h) := stays_sendMsg _ _ _ _

/-- What a message's checks leave, whether it is settled or held. -/
def MsgRes.stays (s : State) : MsgRes → Prop
  | .settled t => Stays s t
  | .held t _ => Stays s t

/-- A message settled with a count, and with a refusal to its sender. -/
theorem stays_count (s : State) (f : RField) (i j n : Nat) : Stays s (s.bump f i j n) :=
  (within_bump _ _ _ _ _ (Within.refl s) (Sub.refl _)).stays rfl rfl

theorem stays_countRefuse (s : State) (f : RField) (i j n l cause : Nat) (h : List Byte) : Stays s (sendRefuse (s.bump f i j n) l cause h) :=
  (stays_count s f i j n).trans (stays_sendRefuse _ _ _ _)

theorem MsgRes.stays_ite {c : Prop} [Decidable c] {a b : MsgRes} (ha : a.stays s) (hb : b.stays s) : (if c then a else b).stays s := by
  split <;> assumption

/-- The last checks of a message, on its range and its checksum, and its effect (R280, R281). -/
theorem stays_lastChecks (s : State) (l p : Nat) (h data : List Byte) (bad : List Nat) (d : MsgDest) :
    MsgRes.stays s (if !rangeOk s l p h d then .settled (sendRefuse (s.bump fLnkRefuseBBadRange (l / 8) (l % 8) 1) l 4 h)
      else match d.block with
        | some t =>
          if blockOk t h data then .settled (applyMsg s l h data bad d)
          else .settled (ctxFault (sendRefuse (s.bump fLnkRefuseBCrcFault (l / 8) (l % 8) 1) l 5 h) d.ctx 7 (l / 8) l false)
        | none => .settled (applyMsg s l h data bad d)) := by
  refine MsgRes.stays_ite (stays_countRefuse _ _ _ _ _ _ _ _) ?_
  split
  · exact MsgRes.stays_ite (stays_applyMsg _ _ _ _ _ _) ((stays_countRefuse _ _ _ _ _ _ _ _).trans (stays_ctxFault _ _ _ _ _ _))
  · exact stays_applyMsg _ _ _ _ _ _

theorem stays_checkMsg (s : State) (l : Nat) (h data : List Byte) (bad : List Nat) : (checkMsg s l h data bad).stays s := by
  unfold checkMsg
  dsimp only
  split
  · exact stays_countRefuse _ _ _ _ _ _ _ _
  · split
    · exact stays_countRefuse _ _ _ _ _ _ _ _
    · exact stays_count _ _ _ _ _
    · split
      · exact MsgRes.stays_ite (stays_count _ _ _ _ _) (stays_lastChecks _ _ _ _ _ _ _)
      · exact MsgRes.stays_ite ((stays_countRefuse _ _ _ _ _ _ _ _).trans (stays_sendNotice _ _ _))
          (MsgRes.stays_ite ((stays_count _ _ _ _ _).trans (stays_sendNotice _ _ _))
            (MsgRes.stays_ite (Stays.refl s) (stays_lastChecks _ _ _ _ _ _ _)))

theorem stays_headMsg (s : State) (l : Nat) (h data : List Byte) (bad : List Nat) : Stays s (headMsg s l h data bad) := by
  have hc := stays_checkMsg s l h data bad
  unfold headMsg
  split
  · next t e =>
    rw [e] at hc
    exact hc.trans ((within_freeSlots _ _ _ _ (Within.refl _) (Sub.refl _)).stays rfl rfl)
  · next t g e =>
    rw [e] at hc
    exact hc.onto rfl rfl

theorem stays_drainBehind (s : State) (l n : Nat) : Stays s (drainBehind s l n) := by
  induction n generalizing s with
  | zero => exact Stays.refl s
  | succ n ih =>
    unfold drainBehind
    dsimp only
    refine stays_ite (Stays.refl s) ?_
    split
    · exact Stays.refl s
    · refine Stays.trans (Stays.trans ?_ (stays_headMsg _ _ _ _ _)) (ih _)
      exact (within_setLink _ _ _ (Within.refl s) (Sub.refl _)).stays rfl rfl

theorem stays_drainLink (s : State) (l : Nat) : Stays s (drainLink s l) := stays_drainBehind _ _ _

theorem stays_recheckHeld (s : State) (l : Nat) : Stays s (recheckHeld s l) := by
  unfold recheckHeld
  split
  · exact (Within.stays (μ := 33554432) (within_park _ _ _ _ (within_unhold _ _ _ (Within.refl s) rfl) rfl)).trans (stays_drainLink _ _)
  · exact Stays.refl s

/-! ### Collective descriptors that stop -/

theorem stays_collStop (s : State) (sec : Nat) (j : Job) : Stays s (collStop s sec j) := by
  unfold collStop
  refine Stays.trans ?_ ((within_endStopped _ _ _ _ (Within.refl _) (Sub.refl _)).stays rfl rfl)
  refine Stays.trans ?_ (stays_modCtx _ _ _ fun _ => rfl)
  exact (within_applyDeltas _ _ _ (within_collUnhold (μ := 69640) _ _ _ (Within.refl s) rfl) rfl).stays rfl rfl

theorem stays_staleComms (s : State) (g : Nat) : Stays s (staleComms s g) := by
  refine stays_forEach _ _ (fun t k => ?_) s
  dsimp only
  have hm : Stays t (t.modComm (k / 64) (k % 64) (fun x => { x with stale := true, transit := [], staged := [] })) :=
    ((within_modComm _ _ _ _ (Within.refl t) (Sub.refl _)).stays rfl rfl)
  split
  · exact stays_ite (hm.trans ((stays_count _ _ _ _ _).trans (stays_collStop _ _ _))) hm
  · exact hm

theorem stays_dropExcluded (s : State) (g l : Nat) : Stays s (dropExcluded s g l) :=
  (within_dropExcluded s g l (Within.refl s) (Sub.refl _)).stays rfl rfl

end Sys2Proof.Machine
end

section
/-! GROUP_BIND, EPOCH_INSTALL, COMM_CREATE and COMM_DESTROY (R291, R302, R323, R378, R427). -/

namespace Sys2Proof.Machine

variable {s t u : State}

theorem setGroup_frame (s : State) (k : Nat) (v : Group) :
    (s.setGroup k v).group k = v ∧ (∀ j, j ≠ k → (s.setGroup k v).group j = s.group j) ∧ Only [.groups] s (s.setGroup k v) :=
  ⟨group_setGroup s k v, fun _ h => group_setGroup_ne s v h.symm, (within_setGroup s k v (Within.refl s) (Sub.refl _)).only rfl⟩

theorem setComm_frame (s : State) {n k : Nat} (v : Comm) (hk : k < 64) : (s.setComm n k v).comm n k = v ∧
    (∀ m j, j < 64 → (m, j) ≠ (n, k) → (s.setComm n k v).comm m j = s.comm m j) ∧ Only [.comms] s (s.setComm n k v) :=
  ⟨comm_setComm s n k v, fun _ _ hj h => comm_setComm_ne s v hk hj h, (within_setComm s n k v (Within.refl s) (Sub.refl _)).only rfl⟩

theorem comm_same (h : Area.comms.same s t) (n k : Nat) : t.comm n k = s.comm n k := congrArg (fun l => tabGet ({} : Comm) l (n * 64 + k)) h

/-- A group named for the first time is created (R291). -/
def nameGroup (s : State) (g epoch : Nat) : State := if (s.group g).present then s else s.setGroup g { present := true, epoch := epoch }

theorem nameGroup_frame (s : State) (g epoch : Nat) :
    (nameGroup s g epoch).group g = (if (s.group g).present then s.group g else { present := true, epoch := epoch }) ∧
    (∀ j, j ≠ g → (nameGroup s g epoch).group j = s.group j) ∧ Only [.groups] s (nameGroup s g epoch) := by
  unfold nameGroup
  split
  · exact ⟨rfl, fun _ _ => rfl, Only.refl _ _⟩
  · exact setGroup_frame s g _

/-! ### EPOCH_INSTALL -/

/-- The group with its new epoch and member links. -/
def installGroup (c : Cmd) (s : State) : State :=
  let x := s.group (c.val 0)
  let keep := match x.passing with | some w => if w ≤ c.val 1 then none else some w | none => none
  s.setGroup (c.val 0) { x with present := true, epoch := c.val 1, mask := c.arg 2, member := c.val 3 == 1, passing := keep }

/-- Without this module the group's contexts are aborted. -/
def leaveGroup (c : Cmd) (s : State) : State := if c.val 3 = 0 then abortGroup (s.bump fFltAbortLocal 0 0 1) (c.val 0) (c.val 1) else s

/-- Collective records become stale, what waits for excluded partners is given up, held messages are checked again. -/
def settleEpoch (c : Cmd) (x : Group) (s : State) : State :=
  let s := if x.present && decide (x.epoch < c.val 1) && c.val 3 == 1 then staleComms s (c.val 0) else s
  let s := forEach (upTo 64) s (fun l t => if bitOf (c.val 2) l then t else dropExcluded t (c.val 0) l)
  forEach (upTo 64) s (fun l t => recheckHeld t l)

theorem effectEpochInstall_eq (c : Cmd) (s : State) : effectEpochInstall c s =
    .done 0 (BitVec.ofNat 64 (if c.val 3 = 0 then groupCtxs s (c.val 0) else []).length)
      (settleEpoch c (s.group (c.val 0)) (leaveGroup c (installGroup c s))) := rfl

theorem stays_settleEpoch (c : Cmd) (x : Group) (s : State) : Stays s (settleEpoch c x s) :=
  ((stays_ite (stays_staleComms _ _) (Stays.refl s)).trans
    (stays_forEach _ _ (fun t _ => stays_ite (Stays.refl t) (stays_dropExcluded _ _ _)) _)).trans
    (stays_forEach _ _ (fun _ _ => stays_recheckHeld _ _) _)

theorem stays_leaveGroup (c : Cmd) (s : State) : Stays s (leaveGroup c s) :=
  stays_ite ((stays_count _ _ _ _ _).trans (stays_abortGroup _ _ _)) (Stays.refl s)

theorem leaveGroup_ended {c : Cmd} (h : c.val 3 = 0) (s : State) :
    ∀ k ∈ groupCtxs s (c.val 0), ((leaveGroup c (installGroup c s)).ctx k).mode ≠ .active := by
  unfold leaveGroup
  rw [if_pos h]
  exact abortGroup_ended ((installGroup c s).bump fFltAbortLocal 0 0 1) _ _

theorem installed_installGroup (c : Cmd) (s : State) :
    installed ((installGroup c s).group (c.val 0)) = (true, c.val 1, c.arg 2, c.val 3 == 1) := by
  unfold installGroup
  dsimp only
  rw [group_setGroup]
  rfl

theorem effectCommCreate_of_index {c : Cmd} {k : Nat} (h : pickIndex s 64 (fun k => !(s.comm (c.val 1) k).present) = some (k, t)) :
    effectCommCreate c s = .done 0 (BitVec.ofNat 64 ((commRecord c s).digest.toNat * 2 ^ 32 + k)) (t.setComm (c.val 1) k (commRecord c s)) := by
  unfold effectCommCreate
  dsimp only
  rw [h]
  rfl

/-- The state that EPOCH_INSTALL leaves. -/
def epochInstalled (c : Cmd) (s : State) : State := settleEpoch c (s.group (c.val 0)) (leaveGroup c (installGroup c s))

theorem effectEpochInstall_state (c : Cmd) (s : State) : (effectEpochInstall c s).state = epochInstalled c s := by
  rw [effectEpochInstall_eq, CmdOut.state, epochInstalled]

theorem installed_epochInstalled (c : Cmd) (s : State) :
    installed ((epochInstalled c s).group (c.val 0)) = (true, c.val 1, c.arg 2, c.val 3 == 1) :=
  (((stays_leaveGroup c _).trans (stays_settleEpoch c _ _)).group (c.val 0)).trans (installed_installGroup c s)

theorem epochInstalled_ended {c : Cmd} (h : c.val 3 = 0) (s : State) :
    ∀ k ∈ groupCtxs s (c.val 0), ((epochInstalled c s).ctx k).mode ≠ .active :=
  fun k hk => (stays_settleEpoch c _ _).ended (leaveGroup_ended h s k hk)

theorem epochInstalled_only (c : Cmd) (s : State) :
    Only [.module, .flash, .registers, .memory, .cache, .hostMemory, .functions, .queues, .launches, .parts, .ctxs, .tallies, .groups,
      .comms, .cores, .slots, .engines, .links, .care, .out, .tensors, .draws] s (epochInstalled c s) := by
  refine only_of_within ?_
  rw [← effectEpochInstall_state]
  exact within_effectEpochInstall c s (Within.refl s) rfl

/-- Settles O14, from the groups and records that the commands set, and from what a lost membership leaves. -/
theorem groupCommands : Obligations.GroupCommands := by
  unfold Obligations.GroupCommands
  refine ⟨fun rq ctx group epoch s => ends_mk rfl fun b _ _ => ?bind, fun rq group epoch mask isMember s => ends_mk rfl fun b hb _ => ?install,
    fun rq ctx sec addr s => endsOn_mk rfl fun hb _ => ?create, fun rq sec comm s => ends_mk rfl fun b hb _ => ?destroy⟩
  case bind =>
    obtain ⟨g1, g2, g3⟩ := nameGroup_frame b group.toNat epoch.toNat
    obtain ⟨h1, h2, h3⟩ := setCtx_frame (nameGroup b group.toNat epoch.toNat) (hIdx ctx)
      { (nameGroup b group.toNat epoch.toNat).ctx (hIdx ctx) with group := some group.toNat }
    have hc := ctx_same (g3 .ctxs (by decide))
    refine ⟨_, _, rfl, rfl, ?_, fun j hj => ?_, g1, g2, g3.trans h3 (by decide) (by decide)⟩
    · exact h1.trans (by rw [hc])
    · exact (h2 j hj).trans (hc j)
  case install =>
    refine ⟨_, _, effectEpochInstall_eq _ b, installed_epochInstalled (cmdOf rq 0x59 [group, epoch, mask, isMember]) b, ?_,
      fun hm => epochInstalled_ended (c := cmdOf rq 0x59 [group, epoch, mask, isMember]) hm b, epochInstalled_only _ b⟩
    change BitVec.ofNat 64 (if isMember.toNat = 0 then groupCtxs b group.toNat else []).length = _
    split <;> rfl
  case create =>
    have hc := (within_meetArgs (before rq 0x5A [ctx, sec, addr] s) (commReads (cmdOf rq 0x5A [ctx, sec, addr])
      (before rq 0x5A [ctx, sec, addr] s)) (Within.refl _) (Sub.refl _)).same .comms (by decide)
    have hroom : (upTo 64).all (fun k => ((before rq 0x5A [ctx, sec, addr] s).comm sec.toNat k).present) = false :=
      not_refused (r := rcNoResources) hb (List.mem_append_right _ (.tail _ (.tail _ (.tail _ (.tail _ (.head _))))))
    obtain ⟨j, hj, hf⟩ := exists_of_upTo_all hroom
    obtain ⟨k, hk, hfree, hpick⟩ := pickIndex_some (seen commReads rq 0x5A [ctx, sec, addr] s) (n := 64)
      (free := fun k => !((seen commReads rq 0x5A [ctx, sec, addr] s).comm sec.toNat k).present)
      ⟨j, hj, by rw [show (seen commReads rq 0x5A [ctx, sec, addr] s).comm sec.toNat j = _ from comm_same hc _ j, hf]; rfl⟩
    obtain ⟨g1, g2, g3⟩ := setComm_frame (seen commReads rq 0x5A [ctx, sec, addr] s).freeDraw.2 (n := sec.toNat)
      (commRecord (cmdOf rq 0x5A [ctx, sec, addr]) (seen commReads rq 0x5A [ctx, sec, addr] s)) hk
    exact ⟨_, _, effectCommCreate_of_index hpick, k, hk, by simpa using hfree, rfl, g1, g2, (freeDraw_only _).trans g3 (by decide) (by decide)⟩
  case destroy =>
    have hlt : (decide (7 < sec.toNat) || decide (63 < comm.toNat) || !bitOf (b.part (fnPart b rq.fn.val)).mask sec.toNat) = false :=
      not_refused hb (.tail _ (.tail _ (.head _)))
    have hk : comm.toNat < 64 := by
      simp only [Bool.or_eq_false_iff, decide_eq_false_iff_not] at hlt
      omega
    obtain ⟨g1, g2, g3⟩ := setComm_frame b (n := sec.toNat) {} hk
    exact ⟨_, _, rfl, rfl, g1, g2, g3.trans (pruneTokens_only _) (by decide) (by decide)⟩

end Sys2Proof.Machine
end

section
/-! Registers that a step leaves: all but those of a list of names. Events, health scores and counts touch few of them (R342, R382,
R434). -/

namespace Sys2Proof.Machine

variable {s t u : State} {rs : List RegName}

/-- Every register whose name is not in the list reads as before. -/
def RegsBut (rs : List RegName) (s t : State) : Prop := ∀ a : RegAt, a.reg ∉ rs → a.i < 64 → a.j < 1024 → t.raw a = s.raw a

theorem RegsBut.refl (s : State) : RegsBut rs s s := fun _ _ _ _ => rfl

theorem RegsBut.trans (h : RegsBut rs s t) (g : RegsBut rs t u) : RegsBut rs s u :=
  fun a ha hi hj => (g a ha hi hj).trans (h a ha hi hj)

theorem regsBut_of_same (h : Area.registers.same s t) : RegsBut rs s t := fun a _ _ _ => raw_congr h a

/-- What changes no register. -/
theorem Within.regsBut {μ : Nat} (h : Within μ s t) (hr : μ.testBit 3 = false := by decide) : RegsBut rs s t :=
  regsBut_of_same (h.same .registers hr)

/-- A field of a register whose name is not in the list. -/
theorem RegsBut.fld (h : RegsBut rs s t) {f : RField} {i j : Nat} (hf : f.reg ∉ rs) (hi : i < 64) (hj : j < 1024) :
    t.fld f i j = s.fld f i j := congrArg (getBits · f.hi f.lo) (h ⟨f.reg, i, j⟩ hf hi hj)

theorem regsBut_setRaw (s : State) {a : RegAt} (w : Word) (h : a.reg ∈ rs) (hi : a.i < 64) (hj : a.j < 1024) : RegsBut rs s (s.setRaw a w) :=
  fun _ hb hbi hbj => raw_setRaw_ne s w ⟨hi, hj⟩ ⟨hbi, hbj⟩ fun e => hb (e ▸ h)

theorem regsBut_setFld (s : State) {f : RField} {i j : Nat} (v : Nat) (h : f.reg ∈ rs) (hi : i < 64) (hj : j < 1024) :
    RegsBut rs s (s.setFld f i j v) := regsBut_setRaw s _ h hi hj

theorem regsBut_bump (s : State) {f : RField} {i j : Nat} (n : Nat) (h : f.reg ∈ rs) (hi : i < 64) (hj : j < 1024) :
    RegsBut rs s (s.bump f i j n) := regsBut_setFld s _ h hi hj

theorem regsBut_ite {c : Prop} [Decidable c] {a b : State} (ha : RegsBut rs s a) (hb : RegsBut rs s b) : RegsBut rs s (if c then a else b) := by
  split <;> assumption

theorem regsBut_forEach {α : Type} (l : List α) (g : α → State → State) (h : ∀ a ∈ l, ∀ t, RegsBut rs t (g a t)) (s : State) :
    RegsBut rs s (forEach l s g) := by
  unfold forEach
  induction l generalizing s with
  | nil => exact RegsBut.refl s
  | cons a l ih => exact (h a (.head _) s).trans (ih (fun b hb => h b (.tail _ hb)) (g a s))

/-! ### Events -/

theorem regsBut_queueOut (s : State) {f j : Nat} (w : Word) (h : RegName.mbxOutStatus ∈ rs) (hf : f < 64) (hj : j < 1024) :
    RegsBut rs s (queueOut s f j w) :=
  regsBut_ite (regsBut_of_same rfl) (regsBut_bump s (f := fMbxOutStatusDropped) 1 h hf hj)

theorem regsBut_postTo (s : State) {fs : List Nat} (code arg : Nat) (h : RegName.mbxOutStatus ∈ rs) (hf : ∀ f ∈ fs, f < 64) :
    RegsBut rs s (postTo s fs code arg) :=
  regsBut_forEach _ _ (fun f hm t => regsBut_queueOut t _ h (hf f (List.mem_eraseDups.1 hm)) (by decide)) s

theorem lt_of_mem_partFns {p f : Nat} (h : f ∈ partFns s p) : f < 64 := List.mem_range.1 (List.mem_filter.1 h).1

theorem regsBut_postPart (s : State) (p code arg : Nat) (h : RegName.mbxOutStatus ∈ rs) : RegsBut rs s (postPart s p code arg) :=
  regsBut_postTo s _ _ h fun _ => lt_of_mem_partFns

theorem regsBut_postBoth (s : State) (p : Option Nat) (code arg : Nat) (h : RegName.mbxOutStatus ∈ rs) : RegsBut rs s (postBoth s p code arg) := by
  refine regsBut_postTo s _ _ h fun f hf => ?_
  cases p with
  | none => rw [List.mem_singleton.1 hf]; decide
  | some p => exact (List.mem_append.1 hf).elim lt_of_mem_partFns fun h0 => by rw [List.mem_singleton.1 h0]; decide

theorem regsBut_postHealth (s : State) (v : Nat) (h : RegName.mbxOutStatus ∈ rs) : RegsBut rs s (postHealth s v) :=
  regsBut_postTo s _ _ h fun f hf => by rw [List.mem_singleton.1 hf]; decide

theorem regsBut_healthEvent (s : State) {v : Nat} (row pts : Nat) (h : RegName.mbxOutStatus ∈ rs) (h' : RegName.hltUnit ∈ rs) (hv : v < 1024) :
    RegsBut rs s (healthEvent s v row pts) := by
  unfold healthEvent
  dsimp only
  have hb (x : Health) : RegsBut rs s ((s.setHealth v x).bump fHltUnitEvents 0 v 1) :=
    RegsBut.trans (regsBut_of_same rfl) (regsBut_bump _ (f := fHltUnitEvents) 1 h' (by decide) hv)
  exact regsBut_ite ((hb _).trans (regsBut_postHealth _ _ h)) (hb _)

theorem regsBut_withHealth (s : State) (v : Nat) {g : State → State} (h : RegName.mbxOutStatus ∈ rs) (hg : RegsBut rs s (g s)) :
    RegsBut rs s (withHealth s v g) := regsBut_ite (hg.trans (regsBut_postHealth _ _ h)) hg

/-! ### Links -/

theorem link_index {l : Nat} (hl : l < 64) : l / 8 < 64 ∧ l % 8 < 1024 := by omega

theorem setLink_frame (s : State) (k : Nat) (v : Link) :
    (s.setLink k v).link k = v ∧ (∀ j, j ≠ k → (s.setLink k v).link j = s.link j) ∧ Only [.links] s (s.setLink k v) :=
  ⟨link_setLink s k v, fun _ h => link_setLink_ne s v h.symm, (within_setLink s k v (Within.refl s) (Sub.refl _)).only rfl⟩

theorem link_same (h : Area.links.same s t) (l : Nat) : t.link l = s.link l := congrArg (fun x => tabGet ({} : Link) x l) h

theorem link_modLink (s : State) (l : Nat) (f : Link → Link) : (s.modLink l f).link l = f (s.link l) := link_setLink s l _

/-- Every link but one is as it was. -/
def OtherLinks (l : Nat) (s t : State) : Prop := ∀ k, k ≠ l → t.link k = s.link k

theorem OtherLinks.refl (l : Nat) (s : State) : OtherLinks l s s := fun _ _ => rfl

theorem OtherLinks.trans {l : Nat} (h : OtherLinks l s t) (g : OtherLinks l t u) : OtherLinks l s u := fun k hk => (g k hk).trans (h k hk)

theorem otherLinks_of_same {l : Nat} (h : Area.links.same s t) : OtherLinks l s t := fun k _ => link_same h k

theorem otherLinks_setLink (s : State) (l : Nat) (v : Link) : OtherLinks l s (s.setLink l v) := (setLink_frame s l v).2.1

theorem otherLinks_modLink (s : State) (l : Nat) (f : Link → Link) : OtherLinks l s (s.modLink l f) := otherLinks_setLink s l _

theorem otherLinks_bump (s : State) (l : Nat) (f : RField) (i j n : Nat) : OtherLinks l s (s.bump f i j n) := fun _ _ => rfl

theorem otherLinks_setFld (s : State) (l : Nat) (f : RField) (i j v : Nat) : OtherLinks l s (s.setFld f i j v) := fun _ _ => rfl

theorem otherLinks_ite {c : Prop} [Decidable c] {l : Nat} {a b : State} (ha : OtherLinks l s a) (hb : OtherLinks l s b) :
    OtherLinks l s (if c then a else b) := by
  split <;> assumption

/-- A link's state, set. -/
theorem linkState_setLinkState (s : State) (l : Nat) {v : Nat} (hv : v < 16) : linkState (setLinkState s l v) l = v :=
  (fld_setFld_same s fLnkStatusState _ _ v (by decide) (by decide)).trans (Nat.mod_eq_of_lt hv)

/-- A field of a link's status other than its state leaves the state. -/
theorem linkState_setFld_apart (s : State) (l v : Nat) {f : RField} (h : FieldsApart f fLnkStatusState) :
    linkState (s.setFld f (l / 8) (l % 8) v) l = linkState s l := fld_setFld_apart s _ _ v h

theorem linkState_modLink (s : State) (l k : Nat) (f : Link → Link) : linkState (s.modLink k f) l = linkState s l := rfl

theorem RegsBut.linkState (h : RegsBut rs s t) {l : Nat} (hl : l < 64) (hs : RegName.lnkStatus ∉ rs) :
    linkState t l = linkState s l := h.fld (f := fLnkStatusState) hs (link_index hl).1 (link_index hl).2

end Sys2Proof.Machine
end

section
/-! LINK_EXPECT, LINK_RETRAIN, LINK_FENCE, LINK_UNFENCE and LINK_CFG (R287 to R289, R296, R298). -/

namespace Sys2Proof.Machine

variable {s t u : State} {l : Nat}

/-! ### Training -/

theorem linkState_startRetrain (s : State) (hl : l < 64) : linkState (startRetrain s l) l = 6 := by
  unfold startRetrain
  have h1 (v : State) : linkState (v.bump fLnkTrainRetrains (l / 8) (l % 8) 1) l = linkState v l :=
    (regsBut_bump (rs := [.lnkTrain]) v (f := fLnkTrainRetrains) 1 (by decide) (link_index hl).1 (link_index hl).2).linkState hl (by decide)
  have h2 (v : State) : linkState (healthEvent v (huLink l) 8 100) l = linkState v l :=
    (regsBut_healthEvent (rs := [.mbxOutStatus, .hltUnit]) v 8 100 (by decide) (by decide) (by unfold huLink; omega)).linkState hl (by decide)
  rw [h2, h1, linkState_modLink]
  exact linkState_setLinkState s l (by decide)

theorem link_startRetrain (s : State) (l : Nat) : (startRetrain s l).link l =
    { s.link l with gotRecord := false, nakRow := 0, nakTimes := [], badWords := [] } :=
  (link_same ((within_healthEvent _ _ _ _ (Within.refl _) (Sub.refl _)).same .links (by decide)) l).trans (by
    rw [link_bump, link_modLink, setLinkState]
    rfl)

theorem otherLinks_startRetrain (s : State) (l : Nat) : OtherLinks l s (startRetrain s l) := by
  unfold startRetrain
  refine OtherLinks.trans ?_ (otherLinks_of_same ((within_healthEvent _ _ _ _ (Within.refl _) (Sub.refl _)).same .links (by decide)))
  exact OtherLinks.trans (otherLinks_modLink (setLinkState s l 6) l _) (otherLinks_bump _ _ _ _ _ _)

theorem linkState_trainAnew (s : State) (l : Nat) : linkState (trainAnew s l) l = 1 := linkState_setLinkState _ l (by decide)

theorem link_trainAnew (s : State) (l : Nat) : (trainAnew s l).link l = { s.link l with failures := 0, tryRate := 0, lanesLocked := 0 } :=
  by simp [trainAnew, setLinkState]

theorem otherLinks_trainAnew (s : State) (l : Nat) : OtherLinks l s (trainAnew s l) :=
  ((otherLinks_setFld s l _ _ _ _).trans (otherLinks_modLink _ l _)).trans (otherLinks_setFld _ l _ _ _ _)

/-! ### Fencing -/

theorem fenceLink_frame (s : State) (hl : l < 64) {cause : Nat} (hc : cause < 16) : linkState (fenceLink s l cause) l = 7 ∧
    (fenceLink s l cause).fld fLnkStatusFenceCause (l / 8) (l % 8) = cause ∧ OtherLinks l s (fenceLink s l cause) ∧
    Only [.links, .registers, .functions, .out] s (fenceLink s l cause) := by
  have hp (v : State) (p : Option Nat) (c a : Nat) : RegsBut [.mbxOutStatus] v (postBoth v p c a) := regsBut_postBoth v p c a (by decide)
  refine ⟨?_, ?_, ?_, only_of_within (within_fenceLink s l cause (Within.refl s) rfl)⟩
  · refine ((hp _ _ _ _).linkState hl (by decide)).trans ((linkState_modLink _ _ _ _).trans ?_)
    exact (linkState_setFld_apart _ _ _ (by decide)).trans (linkState_setLinkState s l (by decide))
  · refine ((hp _ _ _ _).fld (f := fLnkStatusFenceCause) (by decide) (link_index hl).1 (link_index hl).2).trans ?_
    exact (fld_setFld_same (setLinkState s l 7) fLnkStatusFenceCause _ _ cause (by decide) (by decide)).trans (Nat.mod_eq_of_lt hc)
  · refine OtherLinks.trans ?_ (otherLinks_of_same ((within_sendKind _ _ _ (Within.refl _) (Sub.refl _)).same .links (by decide)))
    refine OtherLinks.trans ?_ (otherLinks_of_same ((within_postBoth _ _ _ _ (Within.refl _) (Sub.refl _)).same .links (by decide)))
    exact ((otherLinks_setFld s l _ _ _ _).trans (otherLinks_setFld _ l _ _ _ _)).trans (otherLinks_modLink _ l _)

/-! ### LINK_RETRAIN and LINK_UNFENCE -/

/-- The link whose retired lanes are restored. -/
def lanesRestored (s : State) (l : Nat) : State := s.modLink l (fun x => { x with retired := 0, lanesMove := false })

theorem retrainAll_eq (s : State) (l : Nat) : retrainAll s l =
    if !linkAlive (lanesRestored s l) l || linkState s l == 6 then lanesRestored s l
    else if linkTakes (lanesRestored s l) l then startRetrain (lanesRestored s l) l else trainAnew (lanesRestored s l) l := rfl

theorem linkAlive_modLink (s : State) (l : Nat) {f : Link → Link} (h : (f (s.link l)).groupStarted = (s.link l).groupStarted) :
    linkAlive (s.modLink l f) l = linkAlive s l := by
  unfold linkAlive
  rw [link_modLink, h]
  rfl

theorem linkAlive_lanesRestored (s : State) (l : Nat) : linkAlive (lanesRestored s l) l = linkAlive s l := linkAlive_modLink s l rfl

theorem retired_retrainAll (s : State) (l : Nat) : ((retrainAll s l).link l).retired = 0 := by
  have h0 : ((lanesRestored s l).link l).retired = 0 := congrArg Link.retired (link_modLink s l _)
  rw [retrainAll_eq]
  split
  · exact h0
  · split
    · rw [link_startRetrain]; exact h0
    · rw [link_trainAnew]; exact h0

theorem otherLinks_retrainAll (s : State) (l : Nat) : OtherLinks l s (retrainAll s l) := by
  have h0 : OtherLinks l s (lanesRestored s l) := otherLinks_modLink s l _
  rw [retrainAll_eq]
  exact otherLinks_ite h0 (otherLinks_ite (h0.trans (otherLinks_startRetrain _ l)) (h0.trans (otherLinks_trainAnew _ l)))

theorem retrainAll_of_takes (ha : linkAlive s l = true) (ht : linkTakes s l = true) :
    retrainAll s l = startRetrain (lanesRestored s l) l := by
  have h6 : (linkState s l == 6) = false := by
    simp only [linkTakes, Bool.or_eq_true, beq_iff_eq] at ht
    rw [beq_eq_false_iff_ne]
    omega
  rw [retrainAll_eq, linkAlive_lanesRestored, ha, h6]
  exact if_pos ht

theorem retrainAll_of_not_takes (ha : linkAlive s l = true) (ht : linkTakes s l = false) (h : linkState s l ≠ 6) :
    retrainAll s l = trainAnew (lanesRestored s l) l := by
  rw [retrainAll_eq, linkAlive_lanesRestored, ha, beq_eq_false_iff_ne.2 h]
  exact if_neg (Bool.eq_false_iff.1 ht)

theorem retrainAll_of_not_alive (ha : linkAlive s l = false) : retrainAll s l = lanesRestored s l := by
  rw [retrainAll_eq, linkAlive_lanesRestored, ha]
  rfl

/-- The link taken down, its fence lifted and its hostile events forgotten (R296). -/
def unfenced (s : State) (l : Nat) : State :=
  goDown ((s.setFld fLnkStatusFenceCause (l / 8) (l % 8) 0).modLink l (fun x => { x with hostile := [] })) l

theorem linkState_goDown (s : State) (l : Nat) : linkState (goDown s l) l = 0 := by
  refine (linkState_modLink _ _ _ _).trans ((linkState_setFld_apart _ _ _ (by decide)).trans (linkState_setLinkState s l (by decide)))

theorem otherLinks_goDown (s : State) (l : Nat) : OtherLinks l s (goDown s l) :=
  ((otherLinks_setFld s l _ _ _ _).trans (otherLinks_setFld _ l _ _ _ _)).trans (otherLinks_modLink _ l _)

theorem linkAlive_goDown (s : State) (l : Nat) : linkAlive (goDown s l) l = linkAlive s l :=
  linkAlive_modLink ((setLinkState s l 0).setFld fLnkStatusLanes (l / 8) (l % 8) 0) l rfl

theorem linkAlive_unfenced (s : State) (l : Nat) : linkAlive (unfenced s l) l = linkAlive s l :=
  (linkAlive_goDown _ l).trans (linkAlive_modLink (s.setFld fLnkStatusFenceCause (l / 8) (l % 8) 0) l rfl)

theorem unfence_eq (s : State) (l : Nat) : unfence s l = if linkAlive s l then trainAnew (unfenced s l) l else unfenced s l := by
  rw [← linkAlive_unfenced]
  rfl

theorem linkState_unfence (s : State) (l : Nat) : linkState (unfence s l) l = if linkAlive s l then 1 else 0 := by
  rw [unfence_eq]
  split
  · exact linkState_trainAnew _ l
  · exact linkState_goDown _ l

theorem otherLinks_unfence (s : State) (l : Nat) : OtherLinks l s (unfence s l) := by
  have h : OtherLinks l s (unfenced s l) :=
    ((otherLinks_setFld s l _ _ _ _).trans (otherLinks_modLink _ l _)).trans (otherLinks_goDown _ l)
  rw [unfence_eq]
  exact otherLinks_ite (h.trans (otherLinks_trainAnew _ l)) h

/-- A field of a link's status other than its state and its lanes is not changed when the link goes down. -/
theorem fld_goDown_apart (s : State) (l : Nat) {f : RField} (h : FieldsApart fLnkStatusState f) (h' : FieldsApart fLnkStatusLanes f) :
    (goDown s l).fld f (l / 8) (l % 8) = s.fld f (l / 8) (l % 8) :=
  (fld_setFld_apart (setLinkState s l 0) _ _ 0 h').trans (fld_setFld_apart s _ _ 0 h)

theorem fld_trainAnew_apart (s : State) (l : Nat) {f : RField} (h : FieldsApart fLnkStatusState f) (h' : FieldsApart fLnkStatusRate f) :
    (trainAnew s l).fld f (l / 8) (l % 8) = s.fld f (l / 8) (l % 8) :=
  (fld_setFld_apart ((s.setFld fLnkStatusRate (l / 8) (l % 8) _).modLink l _) _ _ 1 h).trans (fld_setFld_apart s _ _ _ h')

theorem fenceCause_unfence (s : State) (l : Nat) : (unfence s l).fld fLnkStatusFenceCause (l / 8) (l % 8) = 0 := by
  have h : (unfenced s l).fld fLnkStatusFenceCause (l / 8) (l % 8) = 0 :=
    (fld_goDown_apart _ l (by decide) (by decide)).trans (fld_setFld_same s fLnkStatusFenceCause _ _ 0 (by decide) (by decide))
  rw [unfence_eq]
  split
  · exact (fld_trainAnew_apart _ l (by decide) (by decide)).trans h
  · exact h

/-! ### LINK_CFG -/

/-- The fields of LNK_CFG that LINK_CFG sets. -/
def setLinkCfg (fenceLimit grace rateCap l : Nat) (s : State) : State :=
  let s := s.setFld fLnkCfgFenceLimit (l / 8) (l % 8) fenceLimit
  let s := s.setFld fLnkCfgEpochGrace (l / 8) (l % 8) grace
  s.setFld fLnkCfgRateCap (l / 8) (l % 8) rateCap

/-- The fields of LNK_CFG of a link, as LINK_CFG sets them. -/
def linkCfg (l : Nat) (s : State) : Nat × Nat × Nat :=
  (s.fld fLnkCfgFenceLimit (l / 8) (l % 8), s.fld fLnkCfgEpochGrace (l / 8) (l % 8), s.fld fLnkCfgRateCap (l / 8) (l % 8))

theorem linkCfg_setLinkCfg {a b c : Nat} (ha : a < 256) (hb : b < 128) (hc : c < 4) (l : Nat) (s : State) :
    linkCfg l (setLinkCfg a b c l s) = (a, b, c) := by
  have h1 : (setLinkCfg a b c l s).fld fLnkCfgFenceLimit (l / 8) (l % 8) = a :=
    (fld_setFld_apart _ _ _ c (by decide)).trans ((fld_setFld_apart _ _ _ b (by decide)).trans
      ((fld_setFld_same s fLnkCfgFenceLimit _ _ a (by decide) (by decide)).trans (Nat.mod_eq_of_lt ha)))
  have h2 : (setLinkCfg a b c l s).fld fLnkCfgEpochGrace (l / 8) (l % 8) = b :=
    (fld_setFld_apart _ _ _ c (by decide)).trans ((fld_setFld_same _ fLnkCfgEpochGrace _ _ b (by decide) (by decide)).trans (Nat.mod_eq_of_lt hb))
  have h3 : (setLinkCfg a b c l s).fld fLnkCfgRateCap (l / 8) (l % 8) = c :=
    (fld_setFld_same _ fLnkCfgRateCap _ _ c (by decide) (by decide)).trans (Nat.mod_eq_of_lt hc)
  rw [linkCfg, h1, h2, h3]

/-- Another link's LNK_CFG is not touched. -/
theorem raw_setLinkCfg_ne {k l : Nat} (hk : k < 64) (hl : l < 64) (h : k ≠ l) (a b c : Nat) (s : State) :
    (setLinkCfg a b c k s).raw ⟨.lnkCfg, l / 8, l % 8⟩ = s.raw ⟨.lnkCfg, l / 8, l % 8⟩ := by
  have hne : (⟨.lnkCfg, k / 8, k % 8⟩ : RegAt) ≠ ⟨.lnkCfg, l / 8, l % 8⟩ := fun e => h (by
    simp only [RegAt.mk.injEq, true_and] at e
    omega)
  unfold setLinkCfg
  exact ((raw_setRaw_ne _ _ (link_index hk) (link_index hl) hne).trans (raw_setRaw_ne _ _ (link_index hk) (link_index hl) hne)).trans
    (raw_setRaw_ne _ _ (link_index hk) (link_index hl) hne)

theorem linkCfg_congr {l : Nat} (h : t.raw ⟨.lnkCfg, l / 8, l % 8⟩ = s.raw ⟨.lnkCfg, l / 8, l % 8⟩) : linkCfg l t = linkCfg l s := by
  simp only [linkCfg, State.fld, show fLnkCfgFenceLimit.reg = .lnkCfg from rfl, show fLnkCfgEpochGrace.reg = .lnkCfg from rfl,
    show fLnkCfgRateCap.reg = .lnkCfg from rfl, h]

theorem mem_setBits {n m i : Nat} : i ∈ setBits n m ↔ i < n ∧ bitOf m i = true :=
  List.mem_filter.trans (and_congr_left' List.mem_range)

/-- A loop that keeps a value at each of its steps. -/
theorem forEach_keeps {α β : Type} {l : List α} {g : α → State → State} {π : State → β} (h : ∀ a ∈ l, ∀ t, π (g a t) = π t) (s : State) :
    π (forEach l s g) = π s := by
  induction l generalizing s with
  | nil => rfl
  | cons a l ih => exact (ih (fun b hb => h b (.tail _ hb)) (g a s)).trans (h a (.head _) s)

/-- LINK_CFG on the links of a mask. -/
def linksSet (m a b c : Nat) (s : State) : State := forEach (setBits 64 m) s (setLinkCfg a b c)

theorem linkCfg_linksSet {m a b c l : Nat} (ha : a < 256) (hb : b < 128) (hc : c < 4) (hl : l < 64) (hm : bitOf m l = true) (s : State) :
    linkCfg l (linksSet m a b c s) = (a, b, c) := by
  have hg := forEach_get (l := setBits 64 m) (g := setLinkCfg a b c) (π := linkCfg l) (k := l) (linkCfg_setLinkCfg ha hb hc l)
    (fun k hk hne t => linkCfg_congr (raw_setLinkCfg_ne (mem_setBits.1 hk).1 hl hne a b c t)) s
  rwa [if_pos (mem_setBits.2 ⟨hl, hm⟩)] at hg

theorem raw_linksSet {m l : Nat} (hl : l < 64) (hm : bitOf m l = false) (a b c : Nat) (s : State) :
    (linksSet m a b c s).raw ⟨.lnkCfg, l / 8, l % 8⟩ = s.raw ⟨.lnkCfg, l / 8, l % 8⟩ := by
  refine forEach_keeps (π := fun s => s.raw ⟨.lnkCfg, l / 8, l % 8⟩) (fun k hk t => ?_) s
  obtain ⟨hk64, hkm⟩ := mem_setBits.1 hk
  exact raw_setLinkCfg_ne hk64 hl (fun e => by rw [e, hm] at hkm; exact Bool.noConfusion hkm) a b c t

theorem linksSet_only (m a b c : Nat) (s : State) : Only [.registers] s (linksSet m a b c s) :=
  only_of_within (within_forEach (Within.refl s) fun _ _ ht =>
    within_setFld _ _ _ _ _ (within_setFld _ _ _ _ _ (within_setFld _ _ _ _ _ ht rfl) rfl) rfl)

theorem effectLinkCfg_eq (c : Cmd) (s : State) : effectLinkCfg c s =
    .done 0 0 (linksSet (c.val 0) (c.val 1) (c.val 2) (c.val 3) s) := rfl

/-- Settles O15, from the links and the fields of their registers that the commands set. -/
theorem linkCommands : Obligations.LinkCommands := by
  unfold Obligations.LinkCommands
  refine ⟨fun rq link moduleId partner check s => ends_mk rfl fun b hb _ => ?expect, fun rq link s => ends_mk rfl fun b hb _ => ?retrain,
    fun rq link s => ends_mk rfl fun b hb _ => ?fence, fun rq link s => ends_mk rfl fun b hb _ => ?unfence,
    fun rq mask fenceLimit grace rateCap s => ends_mk rfl fun b hb _ => ?cfg⟩
  case expect =>
    have hbad : (decide (2 ^ 48 ≤ moduleId.toNat) || decide (63 < partner.toNat) || decide (1 < check.toNat)) = false :=
      not_refused hb (.tail _ (.tail _ (.tail _ (.tail _ (.head _)))))
    have hc : check.toNat < 2 := by
      simp only [Bool.or_eq_false_iff, decide_eq_false_iff_not] at hbad
      omega
    obtain ⟨g1, g2, g3⟩ := setLink_frame b link.toNat { b.link link.toNat with expectId := moduleId, expectLink := partner.toNat }
    have g4 (v : Nat) (t : State) : Only [.registers] t (t.setFld fLnkCfgExpectCheck (link.toNat / 8) (link.toNat % 8) v) :=
      only_of_within (within_setFld _ _ _ _ _ (Within.refl t) rfl)
    refine ⟨_, _, rfl, rfl, g1, ?_, g2, g3.trans (g4 _ _) (by decide) (by decide)⟩
    exact (fld_setFld_same _ fLnkCfgExpectCheck _ _ _ (by decide) (by decide)).trans (Nat.mod_eq_of_lt hc)
  case retrain =>
    have hl : link.toNat < 64 := by
      have hbad : decide (63 < link.toNat) = false := not_refused hb (.tail _ (.head _))
      simp only [decide_eq_false_iff_not] at hbad
      omega
    refine ⟨_, retrainAll b link.toNat, rfl, rfl, retired_retrainAll b _, fun ha ht => ?_, fun ha ht h6 => ?_, fun ha => ?_, otherLinks_retrainAll b _,
      only_of_within (within_retrainAll b _ (Within.refl b) rfl)⟩
    · rw [retrainAll_of_takes ha ht, linkState_startRetrain _ hl]
    · rw [retrainAll_of_not_takes ha ht h6, linkState_trainAnew]
    · rw [retrainAll_of_not_alive ha]; rfl
  case fence =>
    have hl : link.toNat < 64 := by
      have hbad : decide (63 < link.toNat) = false := not_refused hb (.tail _ (.head _))
      simp only [decide_eq_false_iff_not] at hbad
      omega
    exact ⟨_, _, rfl, rfl, fenceLink_frame b hl (by decide)⟩
  case unfence =>
    exact ⟨_, unfence b link.toNat, rfl, rfl, linkState_unfence b _, fenceCause_unfence b _, otherLinks_unfence b _,
      only_of_within (within_unfence b _ (Within.refl b) rfl)⟩
  case cfg =>
    have hbad : (!within 1 255 fenceLimit.toNat || decide (100 < grace.toNat) || decide (2 < rateCap.toNat)) = false :=
      not_refused hb (.tail _ (.tail _ (.head _)))
    obtain ⟨h1, h2, h3⟩ : fenceLimit.toNat < 256 ∧ grace.toNat < 128 ∧ rateCap.toNat < 4 := by
      simp only [within, Bool.or_eq_false_iff, Bool.not_eq_false', Bool.and_eq_true, decide_eq_true_eq, decide_eq_false_iff_not] at hbad
      omega
    refine ⟨_, _, effectLinkCfg_eq _ b, rfl, fun l hl hm => ?_, fun l hl hm => raw_linksSet hl hm _ _ _ b, linksSet_only _ _ _ _ b⟩
    have hg := linkCfg_linksSet h1 h2 h3 hl hm b
    rw [linkCfg, Prod.mk.injEq, Prod.mk.injEq] at hg
    exact hg

end Sys2Proof.Machine
end

section
/-! HIST_SET, GATE_CREATE, GATE_SET, GATE_DESTROY, WITNESS_CFG, DRIFT_PAIR and OUTLIER_RING (R196, R202, R206 to R209). -/

namespace Sys2Proof.Machine

variable {s t u : State}

/-! ### Gates -/

theorem bytes_writeMem (s : State) (a : Nat) (l : List Byte) (e : Bool) : (writeMem s a l e).mem.bytes = putBytes s.mem.bytes a l :=
  congrArg (fun t => putBytes t a l) (bytes_throughCache s a l.length e)

/-- A write through the directory writes the bytes it is given at its address, and no other byte. -/
theorem storedAt_writeMem (s : State) (a : Nat) (l : List Byte) (e : Bool) : StoredAt s (writeMem s a l e) a l := by
  refine ⟨?_, fun k hk => ?_, fun k => ?_⟩
  · simp only [readBytes, memByte, bytes_writeMem]
    exact readBack_putBytes _ _ _
  · simp only [memByte, bytes_writeMem, tabGet_putBytes]
    rw [if_neg (by omega)]
  · exact congrArg (tabGet 0 · k) ((within_writeMem s a l e (Within.refl _) (Sub.refl _)).same .hostMemory (by decide))

/-- What leaves the bytes before a store leaves what the store does. -/
theorem StoredAt.of_bytes {a : Nat} {l : List Byte} (h : StoredAt t u a l) (hb : t.mem.bytes = s.mem.bytes) (hh : t.hostMem = s.hostMem) :
    StoredAt s u a l := by
  obtain ⟨h1, h2, h3⟩ := h
  exact ⟨h1, fun k hk => (h2 k hk).trans (congrArg (tabGet 0 · k) hb), fun k => (h3 k).trans (congrArg (tabGet 0 · k) hh)⟩

theorem setGate_frame (s : State) {p i : Nat} (v : Gate) (hi : i < 64) : (s.setGate p i v).gate p i = v ∧
    (∀ q j, j < 64 → (q, j) ≠ (p, i) → (s.setGate p i v).gate q j = s.gate q j) ∧ Only [.gates] s (s.setGate p i v) :=
  ⟨gate_setGate s p i v, fun _ _ hj h => gate_setGate_ne s v hi hj h, (within_setGate s p i v (Within.refl s) (Sub.refl _)).only rfl⟩

theorem gate_same (h : Area.gates.same s t) (p i : Nat) : t.gate p i = s.gate p i := congrArg (fun l => tabGet ({} : Gate) l (p * 64 + i)) h

/-- The scale row of a gate whose tensor exists (R209). -/
theorem writeScaleRow_of_present {p : Nat} {g : Gate} (h : (s.tensor p g.rowId).present = true) : writeScaleRow s p g =
    writeMem s (s.tensor p g.rowId).desc.base (scaleRow (s.tensor p g.rowId).desc g.scaleLog) true := by
  unfold writeScaleRow
  simp only [h, Bool.not_true, Bool.false_eq_true, if_false]
  rfl

/-- A gate set, with its scale row (R209). -/
theorem gateSet_frame (s : State) {p i : Nat} (g : Gate) (hi : i < 64) (h : (s.tensor p g.rowId).present = true) :
    (writeScaleRow (s.setGate p i g) p g).gate p i = g ∧
    (∀ q j, j < 64 → (q, j) ≠ (p, i) → (writeScaleRow (s.setGate p i g) p g).gate q j = s.gate q j) ∧
    StoredAt s (writeScaleRow (s.setGate p i g) p g) (s.tensor p g.rowId).desc.base (scaleRow (s.tensor p g.rowId).desc g.scaleLog) ∧
    Only (readAreas ++ [.gates]) s (writeScaleRow (s.setGate p i g) p g) := by
  obtain ⟨g1, g2, g3⟩ := setGate_frame s (p := p) g hi
  have hg := (within_writeScaleRow (s.setGate p i g) p g (Within.refl _) (Sub.refl _)).same .gates (by decide)
  refine ⟨(gate_same hg p i).trans g1, fun q j hj hne => (gate_same hg q j).trans (g2 q j hj hne), ?_, ?_⟩
  · rw [writeScaleRow_of_present (s := s.setGate p i g) h]
    exact (storedAt_writeMem (s.setGate p i g) _ _ true).of_bytes rfl rfl
  · exact only_of_within (within_writeScaleRow _ _ _ (within_setGate _ _ _ _ (Within.refl s) rfl) rfl)

theorem effectGateCreate_of_index {c : Cmd} {i : Nat} (h : pickIndex s 64 (fun g => !(s.gate (myPart c s) g).present) = some (i, t)) :
    effectGateCreate c s = .done 0 (BitVec.ofNat 64 i)
      (writeScaleRow (t.setGate (myPart c s) i (gateWith c { present := true, ctx := hIdx (c.arg 0) })) (myPart c s)
        (gateWith c { present := true, ctx := hIdx (c.arg 0) })) := by
  unfold effectGateCreate
  dsimp only
  rw [h]
  rfl

/-! ### The witness -/

/-- The fields of NUM_CFG that WITNESS_CFG sets in a section. -/
def setNumCfg (enable k hold n : Nat) (s : State) : State :=
  let s := s.setFld fNumCfgWitEnable n 0 enable
  let s := s.setFld fNumCfgWitK n 0 k
  s.setFld fNumCfgWitHold n 0 hold

def numCfg (n : Nat) (s : State) : Nat × Nat × Nat := (s.fld fNumCfgWitEnable n 0, s.fld fNumCfgWitK n 0, s.fld fNumCfgWitHold n 0)

theorem numCfg_setNumCfg {a b c : Nat} (ha : a < 2) (hb : b < 32) (hc : c < 2) (n : Nat) (s : State) : numCfg n (setNumCfg a b c n s) = (a, b, c) := by
  have h1 : (setNumCfg a b c n s).fld fNumCfgWitEnable n 0 = a :=
    (fld_setFld_apart _ _ _ c (by decide)).trans ((fld_setFld_apart _ _ _ b (by decide)).trans
      ((fld_setFld_same s fNumCfgWitEnable _ _ a (by decide) (by decide)).trans (Nat.mod_eq_of_lt ha)))
  have h2 : (setNumCfg a b c n s).fld fNumCfgWitK n 0 = b :=
    (fld_setFld_apart _ _ _ c (by decide)).trans ((fld_setFld_same _ fNumCfgWitK _ _ b (by decide) (by decide)).trans (Nat.mod_eq_of_lt hb))
  have h3 : (setNumCfg a b c n s).fld fNumCfgWitHold n 0 = c :=
    (fld_setFld_same _ fNumCfgWitHold _ _ c (by decide) (by decide)).trans (Nat.mod_eq_of_lt hc)
  rw [numCfg, h1, h2, h3]

theorem raw_setNumCfg_ne {k n : Nat} (hk : k < 64) (hn : n < 64) (h : k ≠ n) (a b c : Nat) (s : State) :
    (setNumCfg a b c k s).raw ⟨.numCfg, n, 0⟩ = s.raw ⟨.numCfg, n, 0⟩ := by
  have hne : (⟨.numCfg, k, 0⟩ : RegAt) ≠ ⟨.numCfg, n, 0⟩ := fun e => h (RegAt.mk.inj e).2.1
  have hi (m : Nat) (hm : m < 64) : m < 64 ∧ 0 < 1024 := ⟨hm, by decide⟩
  exact ((raw_setRaw_ne _ _ (hi k hk) (hi n hn) hne).trans (raw_setRaw_ne _ _ (hi k hk) (hi n hn) hne)).trans
    (raw_setRaw_ne _ _ (hi k hk) (hi n hn) hne)

theorem numCfg_congr {n : Nat} (h : t.raw ⟨.numCfg, n, 0⟩ = s.raw ⟨.numCfg, n, 0⟩) : numCfg n t = numCfg n s := by
  simp only [numCfg, State.fld, show fNumCfgWitEnable.reg = .numCfg from rfl, show fNumCfgWitK.reg = .numCfg from rfl,
    show fNumCfgWitHold.reg = .numCfg from rfl, h]

/-- WITNESS_CFG on the sections of a mask. -/
def sectionsSet (m a b c : Nat) (s : State) : State := forEach (maskSecs m) s (setNumCfg a b c)

theorem numCfg_sectionsSet {m a b c n : Nat} (ha : a < 2) (hb : b < 32) (hc : c < 2) (hn : n ∈ maskSecs m) (s : State) :
    numCfg n (sectionsSet m a b c s) = (a, b, c) := by
  have h8 (k : Nat) (hk : k ∈ maskSecs m) : k < 64 := Nat.lt_trans (mem_maskSecs.1 hk).1 (by decide)
  have hg := forEach_get (l := maskSecs m) (g := setNumCfg a b c) (π := numCfg n) (k := n) (numCfg_setNumCfg ha hb hc n)
    (fun k hk hne t => numCfg_congr (raw_setNumCfg_ne (h8 k hk) (h8 n hn) hne a b c t)) s
  rwa [if_pos hn] at hg

theorem raw_sectionsSet {m n : Nat} (h8 : n < 8) (hn : n ∉ maskSecs m) (a b c : Nat) (s : State) :
    (sectionsSet m a b c s).raw ⟨.numCfg, n, 0⟩ = s.raw ⟨.numCfg, n, 0⟩ :=
  forEach_keeps (π := fun s => s.raw ⟨.numCfg, n, 0⟩) (fun k hk t => raw_setNumCfg_ne (Nat.lt_trans (mem_maskSecs.1 hk).1 (by decide))
    (Nat.lt_trans h8 (by decide)) (fun e => hn (e ▸ hk)) a b c t) s

theorem sectionsSet_only (m a b c : Nat) (s : State) : Only [.registers] s (sectionsSet m a b c s) :=
  only_of_within (within_forEach (Within.refl s) fun _ _ ht =>
    within_setFld _ _ _ _ _ (within_setFld _ _ _ _ _ (within_setFld _ _ _ _ _ ht rfl) rfl) rfl)

theorem effectWitnessCfg_eq (c : Cmd) (s : State) : effectWitnessCfg c s = .done 0 0
    ((sectionsSet (s.part (myPart c s)).mask (c.val 0) (c.val 1) (c.val 3) s).modPart (myPart c s) (fun x => { x with wseed := c.arg 2 })) := rfl

/-! ### Drift pairs -/

/-- A drift pair that DRIFT_PAIR sets. -/
def newDrift (c : Cmd) (s : State) : DriftPair :=
  { outId := c.val 0, wideA := c.val 1, wideB := c.val 2, band := (c.arg 3).setWidth 32, floor := (c.arg 4).setWidth 32,
    ctx := (s.tensor (myPart c s) (c.val 0)).ctx }

/-- A drift pair put at an index. -/
def putDrift (p i : Nat) (d : DriftPair) (s : State) : State :=
  s.modPart p (fun x => { x with drift := x.drift.filter (fun e => e.1 != i) ++ [(i, d)] })

theorem effectDriftPair_of_known {c : Cmd} {i : Nat} (h : driftIndex s (myPart c s) (c.val 0) = some i) (h5 : c.val 5 ≠ 1) :
    effectDriftPair c s = .done 0 (BitVec.ofNat 64 i) (putDrift (myPart c s) i (newDrift c s) s) := by
  unfold effectDriftPair
  simp only [h, if_neg h5]
  rfl

theorem effectDriftPair_of_new {c : Cmd} {i : Nat} (h : driftIndex s (myPart c s) (c.val 0) = none)
    (hi : pickIndex s 256 (fun i => !((s.part (myPart c s)).drift.map (·.1)).contains i) = some (i, s.freeDraw.2)) :
    effectDriftPair c s = .done 0 (BitVec.ofNat 64 i) (putDrift (myPart c s) i (newDrift c s) s.freeDraw.2) := by
  unfold effectDriftPair
  simp only [h, hi]
  rfl

theorem effectDriftPair_of_removed {c : Cmd} {i : Nat} (h : driftIndex s (myPart c s) (c.val 0) = some i) (h5 : c.val 5 = 1) :
    effectDriftPair c s = .done 0 (BitVec.ofNat 64 i)
      (s.modPart (myPart c s) (fun x => { x with drift := x.drift.filter (fun e => e.1 != i) })) := by
  unfold effectDriftPair
  simp only [h, if_pos h5]
  rfl

/-- Settles O16, from the gates, registers and fields of the partition that the commands set. -/
theorem numericsCommands : Obligations.NumericsCommands := by
  unfold Obligations.NumericsCommands
  refine ⟨fun rq tensor base width s => ends_mk rfl fun b hb _ => ⟨_, _, rfl, rfl, setTensor_frame b _ (tensorId_lt hb)⟩,
    fun rq ctx row scale down up interval nfAddr s => ends_mk rfl fun b hb _ => ?create,
    fun rq gate row scale down up interval nfAddr s => ends_mk rfl fun b hb _ => ?set,
    fun rq gate s => ends_mk rfl fun b hb _ => ?destroy, fun rq enable k wseed hold s => ends_mk rfl fun b hb _ => ?witness,
    fun rq out wideA wideB band floor s => ends_mk rfl fun b _ hok => ?drift,
    fun rq out wideA wideB band floor s => ends_mk rfl fun b hb _ => ?undrift,
    fun rq addr len s => ends_mk rfl fun b _ _ => ⟨_, _, rfl, rfl, setPart_frame _ _ _⟩⟩
  case create =>
    have hpres : (b.tensor (fnPart b rq.fn.val) row.toNat).present = true := by
      simpa using not_refused (x := !(b.tensor (fnPart b rq.fn.val) row.toNat).present) hb (.tail _ (.tail _ (.tail _ (.head _))))
    have hroom : (upTo 64).all (fun g => (b.gate (fnPart b rq.fn.val) g).present) = false := not_refused (r := rcNoResources) hb
      (.tail _ (.tail _ (.tail _ (.tail _ (.tail _ (.tail _ (.tail _ (.tail _ (.head _)))))))))
    obtain ⟨j, hj, hf⟩ := exists_of_upTo_all hroom
    obtain ⟨g, hg, hfree, hpick⟩ := pickIndex_some b (n := 64) (free := fun g => !(b.gate (fnPart b rq.fn.val) g).present)
      ⟨j, hj, by rw [hf]; rfl⟩
    obtain ⟨g1, g2, g3, g4⟩ := gateSet_frame b.freeDraw.2 (p := fnPart b rq.fn.val)
      (gateWith (cmdOf rq 0x62 [ctx, row, scale, down, up, interval, nfAddr]) { present := true, ctx := hIdx ctx }) hg hpres
    exact ⟨_, _, effectGateCreate_of_index hpick, g, hg, by simpa using hfree, rfl, g1, g2, g3.of_bytes rfl rfl,
      (freeDraw_only b).trans g4 (by decide) (by decide)⟩
  case set =>
    have hlt : gate.toNat < 64 := by
      have h : decide (63 < gate.toNat) = false := not_refused hb (.tail _ (.tail _ (.head _)))
      simp only [decide_eq_false_iff_not] at h
      omega
    have hpres : (b.tensor (fnPart b rq.fn.val) row.toNat).present = true := by
      simpa using not_refused (x := !(b.tensor (fnPart b rq.fn.val) row.toNat).present) hb
        (.tail _ (.tail _ (.tail _ (.tail _ (.tail _ (.tail _ (.tail _ (.head _))))))))
    exact ⟨_, _, rfl, rfl, gateSet_frame b (p := fnPart b rq.fn.val) (gateWith (cmdOf rq 0x63 [gate, row, scale, down, up, interval, nfAddr])
      (b.gate (fnPart b rq.fn.val) gate.toNat)) hlt hpres⟩
  case destroy =>
    have hlt : gate.toNat < 64 := by
      have h : decide (63 < gate.toNat) = false := not_refused hb (.tail _ (.tail _ (.head _)))
      simp only [decide_eq_false_iff_not] at h
      omega
    obtain ⟨g1, g2, g3⟩ := setGate_frame b (p := fnPart b rq.fn.val) {} hlt
    exact ⟨_, _, rfl, rfl, g1, g2, g3.trans (pruneTokens_only _) (by decide) (by decide)⟩
  case witness =>
    have hbad : (decide (1 < enable.toNat) || decide (16 < k.toNat) || decide (1 < hold.toNat)) = false :=
      not_refused hb (.tail _ (.tail _ (.head _)))
    obtain ⟨h1, h2, h3⟩ : enable.toNat < 2 ∧ k.toNat < 32 ∧ hold.toNat < 2 := by
      simp only [Bool.or_eq_false_iff, decide_eq_false_iff_not] at hbad
      omega
    have ho := sectionsSet_only (b.part (fnPart b rq.fn.val)).mask enable.toNat k.toNat hold.toNat b
    have hp := parts_same (ho .parts (by decide))
    refine ⟨_, _, effectWitnessCfg_eq _ b, rfl, fun n hn => ?_, fun n h8 hn => raw_sectionsSet h8 hn _ _ _ b, ?_, fun q hq => ?_, ?_⟩
    · have hg := numCfg_sectionsSet h1 h2 h3 hn b
      rw [numCfg, Prod.mk.injEq, Prod.mk.injEq] at hg
      exact hg
    · exact (part_setPart _ _ _).trans (congrArg (fun x : Part => { x with wseed := wseed }) (hp _))
    · exact (part_setPart_ne _ _ (Ne.symm hq)).trans (hp q)
    · exact ho.trans (setPart_frame _ _ _).2.2 (by decide) (by decide)
  case drift =>
    have h5 : (0 : Word).toNat ≠ 1 := by decide
    cases hk : driftIndex b (fnPart b rq.fn.val) out.toNat with
    | some i =>
      exact ⟨_, _, effectDriftPair_of_known (c := cmdOf rq 0x66 [out, wideA, wideB, band, floor, 0]) hk h5, i, rfl,
        fun j hj => Option.some.inj (hk.symm.trans hj), (setPart_frame _ _ _).1, (setPart_frame _ _ _).2.1,
        (setPart_frame _ _ _).2.2.mono (by decide)⟩
    | none =>
      obtain ⟨i, hi, hne⟩ := hok.resolve_left (by rw [hk]; decide)
      obtain ⟨k, _, _, hpick⟩ := pickIndex_some b (n := 256)
        (free := fun i => !((b.part (fnPart b rq.fn.val)).drift.map (·.1)).contains i) ⟨i, hi, by simpa using fun x hx => hne (i, x) hx rfl⟩
      have ho : Only [.parts, .draws] b (putDrift (fnPart b rq.fn.val) k
          (newDrift (cmdOf rq 0x66 [out, wideA, wideB, band, floor, 0]) b) b.freeDraw.2) :=
        (freeDraw_only b).trans (setPart_frame _ _ _).2.2 (by decide) (by decide)
      exact ⟨_, _, effectDriftPair_of_new (c := cmdOf rq 0x66 [out, wideA, wideB, band, floor, 0]) hk hpick, k, rfl,
        fun j hj => absurd (hk.symm.trans hj) (Option.some_ne_none j).symm, (setPart_frame _ _ _).1, (setPart_frame _ _ _).2.1, ho⟩
  case undrift =>
    have hsome : (driftIndex b (fnPart b rq.fn.val) out.toNat).isNone = false :=
      not_refused (r := rcBadHandle) (x := (driftIndex b (fnPart b rq.fn.val) out.toNat).isNone) hb (.tail _ (.tail _ (.tail _ (.head _))))
    obtain ⟨i, hi⟩ := Option.isSome_iff_exists.1 (Option.isNone_eq_false_iff.1 hsome)
    exact ⟨_, _, effectDriftPair_of_removed (c := cmdOf rq 0x66 [out, wideA, wideB, band, floor, 1]) hi rfl, i, hi, rfl, setPart_frame _ _ _⟩

end Sys2Proof.Machine
end

section
/-! GRAVEL_CFG, AUTUMN_RUN, POWER_CAP, LIMITS, ESCALATION and COMMAND_TIMEOUT (R165, R253, R315, R372, R432, R448, R453, R461). -/

namespace Sys2Proof.Machine

variable {s t u : State}

/-! ### GRAVEL_CFG -/

/-- The fields of HLT_GRAVEL_CFG that GRAVEL_CFG sets in a section. -/
def setGravelCfg (period corners n : Nat) (s : State) : State :=
  (s.setFld fHltGravelCfgPeriod n 0 period).setFld fHltGravelCfgCorners n 0 corners

def gravelCfg (n : Nat) (s : State) : Nat × Nat := (s.fld fHltGravelCfgPeriod n 0, s.fld fHltGravelCfgCorners n 0)

theorem gravelCfg_setGravelCfg {a b : Nat} (ha : a < 2 ^ 32) (hb : b < 32) (n : Nat) (s : State) : gravelCfg n (setGravelCfg a b n s) = (a, b) := by
  have h1 : (setGravelCfg a b n s).fld fHltGravelCfgPeriod n 0 = a :=
    (fld_setFld_apart _ _ _ b (by decide)).trans ((fld_setFld_same s fHltGravelCfgPeriod _ _ a (by decide) (by decide)).trans (Nat.mod_eq_of_lt ha))
  have h2 : (setGravelCfg a b n s).fld fHltGravelCfgCorners n 0 = b :=
    (fld_setFld_same _ fHltGravelCfgCorners _ _ b (by decide) (by decide)).trans (Nat.mod_eq_of_lt hb)
  rw [gravelCfg, h1, h2]

theorem gravelCfg_setGravelCfg_ne {k n : Nat} (hk : k < 64) (hn : n < 64) (h : k ≠ n) (a b : Nat) (s : State) :
    gravelCfg n (setGravelCfg a b k s) = gravelCfg n s := by
  have hf {f g : RField} (v : Nat) (t : State) : (t.setFld f k 0 v).fld g n 0 = t.fld g n 0 :=
    fld_setFld_reg t v ⟨hk, by decide⟩ ⟨hn, by decide⟩ (.inr (.inl h))
  rw [gravelCfg, setGravelCfg, hf, hf, hf, hf]
  rfl

/-! ### LIMITS -/

/-- LIMITS in a section: a zero leaves its limit (R501). -/
def setLimits (core coll n : Nat) (s : State) : State :=
  let t := if core = 0 then s else forEach (upTo 12) s (fun k u => u.setFld fCoreWdogWaitLimit n k core)
  if coll = 0 then t else t.setFld fCollWaitWaitLimit n 0 coll

/-- A loop over fields of one register's copies sets each of them. -/
theorem fld_setCopies {f : RField} (hf : f.lo ≤ f.hi) (hh : f.hi < 64) {n k v m : Nat} (hn : n < 64) (hm : m ≤ 1024) (hk : k < m)
    (hv : v < 2 ^ (f.hi + 1 - f.lo)) (s : State) : (forEach (upTo m) s (fun k u => u.setFld f n k v)).fld f n k = v := by
  have hg := forEach_get (l := upTo m) (g := fun k u => u.setFld f n k v) (π := fun u => u.fld f n k) (k := k) (v := v)
    (fun t => (fld_setFld_same t f n k v hf hh).trans (Nat.mod_eq_of_lt hv))
    (fun a ha hne t => fld_setFld_reg t v ⟨hn, Nat.lt_of_lt_of_le (List.mem_range.1 ha) hm⟩ ⟨hn, Nat.lt_of_lt_of_le hk hm⟩ (.inr (.inr hne))) s
  rwa [if_pos (show k ∈ upTo m from List.mem_range.2 hk)] at hg

/-- The limit of a core's waits, and that of a section's collective waits, after LIMITS in a section. -/
theorem coreLimit_setLimits {core coll n k : Nat} (hc : core < 2 ^ 32) (hn : n < 64) (hk : k < 12) (s : State) :
    (setLimits core coll n s).fld fCoreWdogWaitLimit n k = if core = 0 then s.fld fCoreWdogWaitLimit n k else core := by
  have h0 (t : State) : (if coll = 0 then t else t.setFld fCollWaitWaitLimit n 0 coll).fld fCoreWdogWaitLimit n k = t.fld fCoreWdogWaitLimit n k := by
    split
    · rfl
    · exact fld_setFld_reg t coll ⟨hn, by decide⟩ ⟨hn, by omega⟩ (.inl (by decide))
  refine (h0 _).trans ?_
  split
  · rfl
  · exact fld_setCopies (by decide) (by decide) hn (by decide) hk hc s

theorem collLimit_setLimits {core coll n : Nat} (hc : coll < 2 ^ 32) (hn : n < 64) (s : State) :
    (setLimits core coll n s).fld fCollWaitWaitLimit n 0 = if coll = 0 then s.fld fCollWaitWaitLimit n 0 else coll := by
  have h0 : (if core = 0 then s else forEach (upTo 12) s (fun k u => u.setFld fCoreWdogWaitLimit n k core)).fld fCollWaitWaitLimit n 0 =
      s.fld fCollWaitWaitLimit n 0 := by
    split
    · rfl
    · exact forEach_keeps (π := fun u => u.fld fCollWaitWaitLimit n 0) (fun k hk t => fld_setFld_reg t core
        ⟨hn, Nat.lt_trans (List.mem_range.1 hk) (by decide)⟩ ⟨hn, by decide⟩ (.inl (by decide))) s
  unfold setLimits
  dsimp only
  split
  · exact h0
  · exact (fld_setFld_same _ fCollWaitWaitLimit _ _ coll (by decide) (by decide)).trans (Nat.mod_eq_of_lt hc)

/-- Another section's limits are not touched. -/
theorem limit_setLimits_ne {core coll m n j : Nat} (f : RField) (hm : m < 64) (hn : n < 64) (hj : j < 1024) (h : m ≠ n) (s : State) :
    (setLimits core coll m s).fld f n j = s.fld f n j := by
  have hs {g : RField} {k : Nat} (v : Nat) (hk : k < 1024) (t : State) : (t.setFld g m k v).fld f n j = t.fld f n j :=
    fld_setFld_reg t v ⟨hm, hk⟩ ⟨hn, hj⟩ (.inr (.inl h))
  have h0 : (if core = 0 then s else forEach (upTo 12) s (fun k u => u.setFld fCoreWdogWaitLimit m k core)).fld f n j = s.fld f n j := by
    split
    · rfl
    · exact forEach_keeps (π := fun u => u.fld f n j) (fun k hk t => hs core (Nat.lt_trans (List.mem_range.1 hk) (by decide)) t) s
  unfold setLimits
  dsimp only
  split
  · exact h0
  · exact (hs coll (by decide) _).trans h0

/-- A loop over distinct keys, each of whose steps changes the value at its own key alone, to what it says of the value before. -/
theorem forEach_mod {β : Type} {l : List Nat} {g : Nat → State → State} {π : Nat → State → β} {φ : β → β} (hd : l.Nodup)
    (hk : ∀ k ∈ l, ∀ t, π k (g k t) = φ (π k t)) (hne : ∀ k ∈ l, ∀ a ∈ l, a ≠ k → ∀ t, π k (g a t) = π k t) {k : Nat} (h : k ∈ l) (s : State) :
    π k (forEach l s g) = φ (π k s) := by
  induction l generalizing s with
  | nil => exact nomatch h
  | cons a l ih =>
    obtain ⟨ha, hd⟩ := List.nodup_cons.1 hd
    have hstep : π k (forEach (a :: l) s g) = π k (forEach l (g a s) g) := rfl
    rw [hstep]
    cases List.mem_cons.1 h with
    | inl e =>
      subst e
      rw [forEach_keeps (fun b hb t => hne k h b (.tail _ hb) (fun e => ha (e ▸ hb)) t), hk k h]
    | inr hm =>
      rw [ih hd (fun b hb => hk b (.tail _ hb)) (fun b hb c hc => hne b (.tail _ hb) c (.tail _ hc)) hm, hne k h a (.head _) (fun e => ha (e ▸ hm))]

theorem nodup_setBits (n m : Nat) : (setBits n m).Nodup := List.nodup_range.filter _

/-- LIMITS on the sections of a mask. -/
def limitsSet (m core coll : Nat) (s : State) : State := forEach (maskSecs m) s (setLimits core coll)

theorem lt_of_mem_maskSecs {m n : Nat} (h : n ∈ maskSecs m) : n < 64 := Nat.lt_trans (mem_maskSecs.1 h).1 (by decide)

theorem coreLimit_limitsSet {m core coll n k : Nat} (hc : core < 2 ^ 32) (hn : n ∈ maskSecs m) (hk : k < 12) (s : State) :
    (limitsSet m core coll s).fld fCoreWdogWaitLimit n k = if core = 0 then s.fld fCoreWdogWaitLimit n k else core :=
  forEach_mod (π := fun n s => s.fld fCoreWdogWaitLimit n k) (φ := fun v => if core = 0 then v else core) (nodup_setBits 8 m)
    (fun _ ha t => coreLimit_setLimits hc (lt_of_mem_maskSecs ha) hk t)
    (fun _ ha _ hb hne t => limit_setLimits_ne _ (lt_of_mem_maskSecs hb) (lt_of_mem_maskSecs ha) (by omega) hne t) hn s

theorem collLimit_limitsSet {m core coll n : Nat} (hc : coll < 2 ^ 32) (hn : n ∈ maskSecs m) (s : State) :
    (limitsSet m core coll s).fld fCollWaitWaitLimit n 0 = if coll = 0 then s.fld fCollWaitWaitLimit n 0 else coll :=
  forEach_mod (π := fun n s => s.fld fCollWaitWaitLimit n 0) (φ := fun v => if coll = 0 then v else coll) (nodup_setBits 8 m)
    (fun _ ha t => collLimit_setLimits hc (lt_of_mem_maskSecs ha) t)
    (fun _ ha _ hb hne t => limit_setLimits_ne _ (lt_of_mem_maskSecs hb) (lt_of_mem_maskSecs ha) (by decide) hne t) hn s

theorem limitsSet_only (m core coll : Nat) (s : State) : Only [.registers] s (limitsSet m core coll s) :=
  only_of_within (within_forEach (Within.refl s) fun _ _ ht => within_ite
    (within_ite ht (within_forEach ht fun _ _ h => within_setFld _ _ _ _ _ h rfl))
    (within_setFld _ _ _ _ _ (within_ite ht (within_forEach ht fun _ _ h => within_setFld _ _ _ _ _ h rfl)) rfl))

/-- The limit of a partition's holds, which a zero leaves. -/
def setHoldLimit (p v : Nat) (s : State) : State := if v = 0 then s else s.modPart p (fun x => { x with holdLimitMs := v })

theorem setHoldLimit_frame (p v : Nat) (s : State) :
    (setHoldLimit p v s).part p = { s.part p with holdLimitMs := if v = 0 then (s.part p).holdLimitMs else v } ∧
    (∀ q, q ≠ p → (setHoldLimit p v s).part q = s.part q) ∧ Only [.parts] s (setHoldLimit p v s) := by
  unfold setHoldLimit
  split
  · exact ⟨rfl, fun _ _ => rfl, Only.refl _ _⟩
  · exact setPart_frame _ _ _

theorem effectLimits_eq (c : Cmd) (s : State) : effectLimits c s =
    .done 0 0 (setHoldLimit (myPart c s) (c.val 2) (limitsSet (s.part (myPart c s)).mask (c.val 0) (c.val 1) s)) := rfl

/-! ### AUTUMN_RUN -/

theorem autumn_startSection (s : State) (source tested ticket : Nat) (blocks : List Nat) (n : Nat) :
    (startSection s source tested ticket blocks n).autumn n = some { source := source, tested := tested, ticket := ticket, left := blocks } ∧
    ∀ k, k ≠ n → (startSection s source tested ticket blocks n).autumn k = s.autumn k := by
  have hl (v : State) (k : Nat) : (forEach (secLinks n) v (fun l t => if linkState t l = 7 then t else setLinkState t l 8)).autumn k = v.autumn k :=
    forEach_keeps (π := fun t => t.autumn k) (fun l _ t => by split <;> rfl) v
  have hk (k : Nat) : (startSection s source tested ticket blocks n).autumn k =
      (s.setAutumn n (some { source := source, tested := tested, ticket := ticket, left := blocks })).autumn k := by
    unfold startSection
    dsimp only
    split
    · exact hl _ k
    · rfl
  exact ⟨(hk n).trans (autumn_setAutumn _ _ _), fun k hne => (hk k).trans (autumn_setAutumn_ne _ _ (Ne.symm hne))⟩

/-- The sections of the mask are under test, the others as they were (R449). -/
theorem autumn_startAutumn (s : State) (source mask : Nat) (blocks : List Nat) (n : Nat) :
    (n ∈ maskSecs mask → ((startAutumn s source mask blocks).autumn n).isSome = true) ∧
    (n ∉ maskSecs mask → (startAutumn s source mask blocks).autumn n = s.autumn n) := by
  unfold startAutumn
  generalize ((upTo 8).map _).foldl max 0 + 1 = ticket
  have hg := forEach_get (l := maskSecs mask) (g := fun n t => startSection t source mask ticket blocks n) (π := fun t => t.autumn n) (k := n)
    (fun t => (autumn_startSection t source mask ticket blocks n).1) (fun a _ hne t => (autumn_startSection t source mask ticket blocks a).2 n (Ne.symm hne)) s
  refine ⟨fun h => ?_, fun h => ?_⟩
  · rw [if_pos h] at hg
    exact congrArg Option.isSome hg
  · rw [if_neg h] at hg
    exact hg

/-! ### COMMAND_TIMEOUT -/

/-- A command that publishes TIMEOUT leaves its context's quiesce point as it is (R372). -/
theorem publishOne_timeout (s : State) (p : PendCmd) :
    publishOne s p rcTimeout 0 = publish { s with host := { s.host with commands := s.host.commands.erase p } }
      p.fn p.via p.taken p.opcode p.mute { rc := 0x12, result := 0, tag := pendTag s p.kind } := by
  obtain ⟨_, _, _, _, kind, _, _⟩ := p
  cases kind <;> rfl

/-- Settles O17, from the registers, sections and limits that the commands set. -/
theorem moduleCommands : Obligations.ModuleCommands := by
  unfold Obligations.ModuleCommands
  refine ⟨fun rq period corners s => ends_mk rfl fun b hb _ => ?gravel, fun rq mask s => pends_mk rfl fun b _ _ => ?autumn,
    fun rq watts s => ends_mk rfl fun b _ _ => ⟨_, _, rfl, rfl, rfl⟩, fun rq coreWait collWait hold s => ends_mk rfl fun b hb _ => ?limits,
    fun rq partLimit ctxLimit window s => ends_mk rfl fun b hb _ => ?escalation, fun fn via s p h => ?timeout⟩
  case gravel =>
    have hbad : (!within 1 3600 period.toNat || decide (31 < corners.toNat)) = false := not_refused hb (.tail _ (.tail _ (.head _)))
    obtain ⟨h1, h2⟩ : period.toNat < 2 ^ 32 ∧ corners.toNat < 32 := by
      simp only [within, Bool.or_eq_false_iff, Bool.not_eq_false', Bool.and_eq_true, decide_eq_true_eq, decide_eq_false_iff_not] at hbad
      omega
    refine ⟨_, forEach (upTo 8) b (setGravelCfg period.toNat corners.toNat), rfl, rfl, fun n hn => ?_, only_of_within
      (within_forEach (Within.refl b) fun _ _ ht => within_setFld _ _ _ _ _ (within_setFld _ _ _ _ _ ht rfl) rfl)⟩
    have h64 (k : Nat) (hk : k ∈ upTo 8) : k < 64 := Nat.lt_trans (List.mem_range.1 hk) (by decide)
    have hg := forEach_get (l := upTo 8) (g := setGravelCfg period.toNat corners.toNat) (π := gravelCfg n) (k := n) (gravelCfg_setGravelCfg h1 h2 n)
      (fun k hk hne t => gravelCfg_setGravelCfg_ne (h64 k hk) (by omega) hne _ _ t) b
    rw [if_pos (show n ∈ upTo 8 from List.mem_range.2 hn), gravelCfg, Prod.mk.injEq] at hg
    exact hg
  case autumn =>
    refine ⟨_, rfl, fun n hn hm => (autumn_startAutumn b 5 _ _ n).1 (mem_maskSecs.2 ⟨hn, hm⟩), fun n hn hm =>
      (autumn_startAutumn b 5 _ _ n).2 fun h => ?_, only_of_within (within_startAutumn _ _ _ _ (Within.refl b) rfl)⟩
    exact Bool.noConfusion (hm.symm.trans (mem_maskSecs.1 h).2)
  case limits =>
    have hbad : ((coreWait.toNat != 0 && !within 1000 10000000 coreWait.toNat) || (collWait.toNat != 0 && !within 1000 10000000 collWait.toNat) ||
        (hold.toNat != 0 && !within 1 60000 hold.toNat)) = false := not_refused hb (.tail _ (.tail _ (.head _)))
    obtain ⟨h1, h2⟩ : coreWait.toNat < 2 ^ 32 ∧ collWait.toNat < 2 ^ 32 := by
      simp only [within, Bool.or_eq_false_iff, Bool.and_eq_false_iff, bne_eq_false_iff_eq, Bool.not_eq_false', Bool.and_eq_true, decide_eq_true_eq] at hbad
      omega
    have ho := limitsSet_only (b.part (fnPart b rq.fn.val)).mask coreWait.toNat collWait.toNat b
    have hp := parts_same (ho .parts (by decide))
    obtain ⟨g1, g2, g3⟩ := setHoldLimit_frame (fnPart b rq.fn.val) hold.toNat
      (limitsSet (b.part (fnPart b rq.fn.val)).mask coreWait.toNat collWait.toNat b)
    have hr {n : Nat} (f : RField) (j : Nat) := fld_congr (g3 .registers (by decide)) f n j
    refine ⟨_, _, effectLimits_eq _ b, rfl, fun n hn k hk => (hr _ _).trans (coreLimit_limitsSet h1 hn hk b),
      fun n hn => (hr _ _).trans (collLimit_limitsSet h2 hn b), ?_, fun q hq => (g2 q hq).trans (hp q), ho.trans g3 (by decide) (by decide)⟩
    rw [hp] at g1
    exact g1
  case escalation =>
    have hbad : (!within 1 16 partLimit.toNat || !within 1 1024 ctxLimit.toNat || !within 60 86400 window.toNat) = false :=
      not_refused hb (.tail _ (.tail _ (.head _)))
    obtain ⟨h1, h2, h3⟩ : partLimit.toNat < 2 ^ 5 ∧ ctxLimit.toNat < 2 ^ 11 ∧ window.toNat < 2 ^ 32 := by
      simp only [within, Bool.or_eq_false_iff, Bool.not_eq_false', Bool.and_eq_true, decide_eq_true_eq] at hbad
      omega
    refine ⟨_, _, rfl, rfl, ?_, ?_, ?_, only_of_within (within_setFld _ _ _ _ _ (within_setFld _ _ _ _ _ (within_setFld _ _ _ _ _ (Within.refl b) rfl) rfl) rfl)⟩
    · exact (fld_setFld_apart _ _ _ _ (by decide)).trans ((fld_setFld_apart _ _ _ _ (by decide)).trans
        ((fld_setFld_same b fFltEscCfgPartLimit _ _ _ (by decide) (by decide)).trans (Nat.mod_eq_of_lt h1)))
    · exact (fld_setFld_apart _ _ _ _ (by decide)).trans
        ((fld_setFld_same _ fFltEscCfgCtxLimit _ _ _ (by decide) (by decide)).trans (Nat.mod_eq_of_lt h2))
    · exact (fld_setFld_same _ fFltEscCfgWindow _ _ _ (by decide) (by decide)).trans (Nat.mod_eq_of_lt h3)
  case timeout =>
    have hx : exec (.commandTimeout fn via) s = execCommandTimeout fn via s := rfl
    rw [hx, execCommandTimeout, h]
    exact congrArg _ (publishOne_timeout s p)

end Sys2Proof.Machine
end

section
/-! What stops queues and contexts leaves of functions and partitions, of queues that do not run, and of contexts (R355, R417). -/

namespace Sys2Proof.Machine

variable {s t u : State} {μ : Nat}

/-- What changes neither functions nor partitions. -/
theorem Within.rests (h : Within μ s t) (hf : μ.testBit 7 = false := by decide) (hp : μ.testBit 12 = false := by decide) : Rests s t :=
  rests_of_same (h.same .functions hf) (h.same .parts hp)

theorem rests_forEach {α : Type} (l : List α) (g : α → State → State) (h : ∀ t a, Rests t (g a t)) (s : State) :
    Rests s (forEach l s g) := rests_foldl l _ h s

theorem rests_writeRecord (s : State) (q : Nat) (r : Record) : Rests s (writeRecord s q r) := by
  unfold writeRecord
  dsimp only
  split
  · exact Rests.refl s
  · refine Rests.trans (rests_writeArg _ _ _ _ _) (Within.rests (μ := 536871168) (within_raiseMsix _ _ _ (within_setQueue _ _ _ (Within.refl _) rfl) rfl))

theorem rests_flushRecords (s : State) (q n : Nat) : Rests s (flushRecords s q n) := by
  induction n generalizing s with
  | zero => exact Rests.refl s
  | succ n ih =>
    have hq (v : Queue) : Rests s (s.setQueue q v) := rests_tables rfl rfl rfl
    unfold flushRecords
    dsimp only
    split
    · exact rests_ite ((hq _).trans (ih _)) (rests_ite (((hq _).trans (rests_writeRecord _ _ _)).trans (ih _)) (Rests.refl s))
    · exact Rests.refl s

theorem rests_flushQueue (s : State) (q : Nat) : Rests s (flushQueue s q) := rests_flushRecords _ _ _

/-- A queue of commands that stops stops the slots of its launches (R416). -/
theorem rests_stopQueue (s : State) (q : Nat) (h : Bool) : Rests s (stopQueue s q h) := by
  unfold stopQueue
  dsimp only
  refine rests_ite (Rests.refl s) (Rests.trans ?_ (rests_flushQueue _ _))
  have hq (v : Queue) : Rests s (s.setQueue q v) := rests_tables rfl rfl rfl
  refine Rests.trans ?_ (within_bumpOpt _ _ _ _ (Within.refl _) (Sub.refl _)).rests
  exact rests_ite ((hq _).trans (within_stopQueueLaunches _ _ (Within.refl _) (Sub.refl _)).rests) (hq _)

theorem rests_stopPlanned (s : State) (c : Nat) (h : Bool) : Rests s (stopPlanned s c h) := by
  unfold stopPlanned
  dsimp only
  refine rests_ite (Rests.refl s) (Rests.trans ?_ (rests_forEach _ _ (fun _ _ => rests_stopQueue _ _ _) _))
  exact Within.rests (μ := 6301704) (within_markStopped _ _ (within_stopCtxSlots _ _ (within_modCtx _ _ _ (Within.refl s) rfl) rfl) rfl)

/-! ### Queues that do not run -/

/-- A queue that has been stopped does not run. -/
theorem stopQueue_mode (s : State) (q : Nat) (h : Bool) : ((stopQueue s q h).queue q).mode ≠ .enabled := by
  by_cases hm : (s.queue q).mode = .enabled
  · rw [(stopQueue_queue s q h hm).1]
    exact QMode.noConfusion
  · rwa [stopQueue_of_not_enabled hm]

/-- Stopping a queue starts no other. -/
theorem stopQueue_mode_keeps (s : State) (q k : Nat) (h : Bool) (hk : (s.queue k).mode ≠ .enabled) : ((stopQueue s q h).queue k).mode ≠ .enabled := by
  by_cases e : k = q
  · subst e; exact stopQueue_mode s k h
  · by_cases hm : (s.queue q).mode = .enabled
    · rwa [(stopQueue_queue s q h hm).2 k e]
    · rwa [stopQueue_of_not_enabled hm]

/-- A list of queues is stopped: none of them runs. -/
theorem stopQueues_mode (l : List Nat) (h : Bool) {k : Nat} (s : State) (hk : k ∈ l ∨ (s.queue k).mode ≠ .enabled) :
    ((forEach l s (fun q t => stopQueue t q h)).queue k).mode ≠ .enabled := by
  induction l generalizing s with
  | nil => exact hk.resolve_left (List.not_mem_nil)
  | cons q l ih =>
    refine ih _ ?_
    by_cases hl : k ∈ l
    · exact .inl hl
    · refine .inr ?_
      by_cases e : k = q
      · subst e; exact stopQueue_mode s k h
      · exact stopQueue_mode_keeps s q k h (hk.resolve_left fun hm => (List.mem_cons.1 hm).elim e hl)

/-- The queues of a function that is stopped do not run (R354). -/
theorem stopFnQueues_mode (s : State) (f : Nat) (h : Bool) {q : Nat} (hp : (s.queue q).present = true) (hf : (s.queue q).fn = f) :
    ((stopFnQueues s f h).queue q).mode ≠ .enabled :=
  stopQueues_mode _ _ s (.inl (mem_keysWhere (d := ({} : Queue)) (by simpa using ⟨hp, hf⟩) rfl))

/-! ### Contexts that stop -/

/-- A context that has been stopped is not ACTIVE. -/
theorem stopPlanned_ended (s : State) (c : Nat) (h : Bool) : ((stopPlanned s c h).ctx c).mode ≠ .active := by
  by_cases ha : (s.ctx c).mode = .active
  · rw [(stopPlanned_ctx s c h ha).1]
    exact CtxMode.noConfusion
  · unfold stopPlanned
    simp only [bne_iff_ne.2 ha, if_true]
    exact ha

theorem stays_stopPlanned (s : State) (c : Nat) (h : Bool) : Stays s (stopPlanned s c h) := by
  by_cases ha : (s.ctx c).mode = .active
  · refine ⟨fun k hk => ?_, fun g => congrArg installed (group_same ((within_stopPlanned s c h (Within.refl s) (Sub.refl _)).same .groups (by decide)) g)⟩
    rw [(stopPlanned_ctx s c h ha).2 k (fun e => hk (e ▸ ha))]
  · unfold stopPlanned
    simp only [bne_iff_ne.2 ha, if_true]
    exact Stays.refl s

/-- A list of contexts is stopped: none of them is ACTIVE. -/
theorem stopPlanneds_ended (l : List Nat) (h : Bool) {k : Nat} (s : State) (hk : k ∈ l ∨ (s.ctx k).mode ≠ .active) :
    ((forEach l s (fun c t => stopPlanned t c h)).ctx k).mode ≠ .active := by
  induction l generalizing s with
  | nil => exact hk.resolve_left (List.not_mem_nil)
  | cons c l ih =>
    refine ih _ ?_
    by_cases hl : k ∈ l
    · exact .inl hl
    · refine .inr ?_
      by_cases e : k = c
      · subst e; exact stopPlanned_ended s k h
      · exact (stays_stopPlanned s c h).ended (hk.resolve_left fun hm => (List.mem_cons.1 hm).elim e hl)

end Sys2Proof.Machine
end

section
/-! PART_DESTROY, PART_HANDOVER, WINDOW_SET and FN_STATE (R335, R354, R385, R389, R395, R417). -/

namespace Sys2Proof.Machine

variable {s t u : State}

/-! ### Leaving a partition -/

/-- The partition that a destruction or handover takes, its work not yet stopped. -/
def partTaken (s : State) (p : Nat) (mode : PartMode) : State :=
  s.modPart p (fun x => { x with
    mode := mode, stage := if x.stage == .resetting then .resetting else .stopping, stageStart := s.now, mismatch := false })

theorem leavePart_eq (c : Cmd) (s : State) (p : Nat) (mode : PartMode) :
    leavePart c s p mode = partAdvance (stopPartition c (partTaken s p mode) p) p := rfl

theorem rests_stopPartition (c : Cmd) (s : State) (p : Nat) : Rests s (stopPartition c s p) :=
  (rests_forEach _ _ (fun _ _ => rests_stopPlanned _ _ _) s).trans
    (rests_forEach _ _ (fun t _ => rests_forEach _ _ (fun _ _ => rests_stopQueue _ _ _) t) _)

/-- The queues that stop with a partition's functions leave the contexts. -/
theorem stopPartition_ctxs (c : Cmd) (s : State) (p : Nat) :
    Area.ctxs.same (forEach (partCtxs s p) s (fun k t => stopPlanned t k true)) (stopPartition c s p) :=
  Within.same (μ := 677386744) (within_forEach (Within.refl _) fun _ _ h => within_forEach h fun _ _ h => within_stopQueue _ _ _ h rfl) .ctxs
    (by decide)

theorem partAdvance_part (s : State) (p : Nat) : (partAdvance s p).part p =
    (if (s.part p).stage = .stopping ∧ partCtxs s p = [] then { s.part p with stage := .resetting } else s.part p) ∧
    ∀ q, q ≠ p → (partAdvance s p).part q = s.part q := by
  have hb : ((s.part p).stage == .stopping && partQuiet s p) = true ↔ (s.part p).stage = .stopping ∧ partCtxs s p = [] := by
    rw [Bool.and_eq_true, beq_iff_eq, partQuiet, List.isEmpty_iff]
  unfold partAdvance
  by_cases h : (s.part p).stage = .stopping ∧ partCtxs s p = []
  · rw [if_pos (hb.2 h), if_pos h]
    exact ⟨(setPart_frame s p _).1, (setPart_frame s p _).2.1⟩
  · rw [if_neg (fun e => h (hb.1 e)), if_neg h]
    exact ⟨rfl, fun _ _ => rfl⟩

theorem partAdvance_ctxs (s : State) (p : Nat) : Area.ctxs.same s (partAdvance s p) :=
  (within_partAdvance s p (Within.refl s) (Sub.refl _)).same .ctxs (by decide)

theorem partCtxs_same (h : Area.ctxs.same s t) (p : Nat) : partCtxs t p = partCtxs s p :=
  congrArg (fun l : Tab Ctx => keysWhere l (fun x => x.mode != .free && x.part == p)) h

/-- The taken partition with the stage that its contexts allow. -/
theorem leavePart_part (c : Cmd) (s : State) (p : Nat) (mode : PartMode) :
    partRest ((leavePart c s p mode).part p) = partRest { s.part p with
      mode := mode, stageStart := s.now, mismatch := false,
      stage := if partCtxs (leavePart c s p mode) p = [] ∨ (s.part p).stage = .resetting then .resetting else .stopping } ∧
    ∀ q, q ≠ p → partRest ((leavePart c s p mode).part q) = partRest (s.part q) := by
  have hr := rests_stopPartition c (partTaken s p mode) p
  obtain ⟨h1, h2, _⟩ := setPart_frame s p { s.part p with
    mode := mode, stage := if (s.part p).stage == .resetting then .resetting else .stopping, stageStart := s.now, mismatch := false }
  obtain ⟨a1, a2⟩ := partAdvance_part (stopPartition c (partTaken s p mode) p) p
  have hrest := hr.part p
  rw [show (partTaken s p mode).part p = _ from h1] at hrest
  have hstage : ((stopPartition c (partTaken s p mode) p).part p).stage = if (s.part p).stage == .resetting then .resetting else .stopping :=
    (congrArg Part.stage hrest :)
  have hq : partCtxs (leavePart c s p mode) p = partCtxs (stopPartition c (partTaken s p mode) p) p := partCtxs_same (partAdvance_ctxs _ p) p
  refine ⟨?_, fun q hne => (congrArg partRest (a2 q hne)).trans ((hr.part q).trans (congrArg partRest (h2 q hne)))⟩
  rw [hq, leavePart_eq, a1]
  by_cases hres : (s.part p).stage = .resetting
  · rw [if_pos (beq_iff_eq.2 hres)] at hrest hstage
    rw [if_neg (fun h => PartStage.noConfusion (hstage.symm.trans h.1)), hrest, if_pos (.inr hres)]
  · rw [if_neg (fun h => hres (beq_iff_eq.1 h))] at hrest hstage
    by_cases he : partCtxs (stopPartition c (partTaken s p mode) p) p = []
    · rw [if_pos ⟨hstage, he⟩, if_pos (.inl he)]
      exact congrArg (fun x : Part => { x with stage := .resetting }) hrest
    · rw [if_neg (fun h => he h.2), if_neg (fun h => h.elim he hres), hrest]

/-- No context of the partition is ACTIVE any more (R417). -/
theorem leavePart_ended (c : Cmd) (s : State) (p : Nat) (mode : PartMode) (k : Nat) (hk : (s.ctx k).part = p) :
    ((leavePart c s p mode).ctx k).mode ≠ .active := by
  rw [leavePart_eq, ctx_same (partAdvance_ctxs _ p), ctx_same (stopPartition_ctxs c _ p)]
  refine stopPlanneds_ended _ true (partTaken s p mode) ?_
  by_cases ha : (s.ctx k).mode = .active
  · exact .inl (mem_keysWhere (d := ({} : Ctx)) (show ((s.ctx k).mode != .free && (s.ctx k).part == p) = true by rw [ha, hk]; simp) rfl)
  · exact .inr ha

theorem leavePart_only (c : Cmd) (s : State) (p : Nat) (mode : PartMode) :
    Only (storeAreas ++ [.ctxs, .queues, .launches, .cores, .slots, .out]) s (leavePart c s p mode) :=
  only_of_within (within_leavePart c s p mode (Within.refl s) rfl)

/-! ### FN_STATE -/

/-- A disabled function, the programs of its contexts stopped. -/
def fnDisabled (s : State) (f : Nat) : State :=
  let s := s.modFn f (fun x => { x with mode := .disabled })
  forEach (keysWhere s.objs.ctxs (fun x => x.mode == .active && x.owner == f)) s (fun k t => markStopped (stopCtxSlots t k) (fun l => l.ctx == k))

theorem within_fnDisabled (s : State) (f : Nat) : Within 6293512 (s.modFn f (fun x => { x with mode := .disabled })) (fnDisabled s f) :=
  within_forEach (Within.refl _) fun _ _ h => within_markStopped _ _ (within_stopCtxSlots _ _ h rfl) rfl

theorem effectFnState_disable {c : Cmd} (h : c.val 1 ≠ 1) (s : State) :
    effectFnState c s = .wait (.fnDisable (c.val 0)) (stopFnQueues (fnDisabled s (c.val 0)) (c.val 0) true) := if_neg h

theorem rests_stopFnQueues (s : State) (f : Nat) (h : Bool) : Rests s (stopFnQueues s f h) :=
  rests_forEach _ _ (fun _ _ => rests_stopQueue _ _ _) s

theorem modFn_fn (s : State) (f g : Nat) (v : FnState → FnState) : (s.modFn f v).fn g = if g = f then v (s.fn g) else s.fn g := by
  by_cases h : g = f
  · subst h; rw [if_pos rfl, State.modFn, fn_setFn]
  · rw [if_neg h, State.modFn, fn_setFn_ne _ _ (Ne.symm h)]

/-- Settles O4: a partition or function leaves its state with its work stopped; a window is set for one quarter. -/
theorem partitionAndFunctionStates : Obligations.PartitionAndFunctionStates := by
  unfold Obligations.PartitionAndFunctionStates
  refine ⟨fun rq part s => pends_mk rfl fun b _ _ => ?destroy, fun rq part s => pends_mk rfl fun b _ _ => ?handover,
    fun rq fn quarter base s => ends_mk rfl fun b _ hf => ?window, fun rq fn quarter base s h hf hl => ?locked,
    fun rq fn s => ends_mk rfl fun b _ _ => ?enable, fun rq fn s => pends_mk rfl fun b _ _ => ?disable⟩
  case destroy =>
    obtain ⟨h1, h2⟩ := leavePart_part (cmdOf rq 0x19 [part]) b part.toNat .destroying
    exact ⟨_, rfl, h1, h2, leavePart_ended _ b _ _, leavePart_only _ b _ _⟩
  case handover =>
    obtain ⟨h1, h2⟩ := leavePart_part (cmdOf rq 0x1B [part]) b part.toNat .handover
    exact ⟨_, rfl, h1, h2, leavePart_ended _ b _ _, leavePart_only _ b _ _⟩
  case window =>
    exact ⟨_, _, guardTdi_of_free (c := cmdOf rq 0x33 [fn, quarter, base]) hf, rfl, setFn_frame _ _ _⟩
  case locked =>
    exact exec_of_done rfl h (guardTdi_of_locked (c := cmdOf rq 0x33 [fn, quarter, base]) hf hl)
  case enable =>
    exact ⟨_, _, rfl, rfl, setFn_frame _ _ _⟩
  case disable =>
    have hw := within_fnDisabled b fn.toNat
    refine ⟨_, effectFnState_disable (c := cmdOf rq 0x34 [fn, 0]) (by show (0 : Word).toNat ≠ 1; decide) b, fun f => ?_, fun q hp hq => ?_, ?_⟩
    · refine ((hw.rests.trans (rests_stopFnQueues _ _ true)).fn f).trans ?_
      rw [modFn_fn]
    · have he : (fnDisabled b fn.toNat).queue q = b.queue q := queue_same (hw.same .queues (by decide)) q
      exact stopFnQueues_mode _ _ true ((congrArg Queue.present he).trans hp) ((congrArg Queue.fn he).trans hq)
    · exact only_of_within (within_effectFnState (cmdOf rq 0x34 [fn, 0]) b (Within.refl b) rfl)

end Sys2Proof.Machine
end

section
/-! CTX_SNAPSHOT and NUM_SNAPSHOT (R56, R63, R198, R200, R438, R501). -/

namespace Sys2Proof.Machine

variable {s t u : State}

/-- An accepted command that reads structures and ends with a return code answers it. -/
theorem exec_of_doneWith {i : Instr} {refuse : Cmd → State → Option Nat} {reads : Cmd → State → List (Word × Nat)}
    {effect : Cmd → State → CmdOut} {rq : Req} {op rc : Nat} {args : List Word} {r : Word} {u : State}
    (hx : exec i s = .next (runRowWith refuse reads effect op rq args t)) (h : Accepted refuse rq op args t)
    (he : effect (cmdOf rq op args) (seen reads rq op args t) = .done rc r u) :
    exec i s = .next (answered rq op args (before rq op args t) u rc r) := by
  rw [hx, accepted_runWith h, he]
  rfl

/-! ### Bytes before a write -/

/-- What is written behind the first bytes of a place leaves them. -/
theorem readArg_writeArg_behind {w : Word} {f n off : Nat} {l : List Byte} (h : n ≤ off) : readArg (writeArg s f w off l) w 0 n = readArg s w 0 n := by
  unfold readArg writeArg
  cases hw : isHostAddr w
  · simp only [Bool.false_eq_true, if_false]
    split
    · refine List.map_congr_left fun i hi => ?_
      have hi := List.mem_range.1 hi
      exact (storedAt_storeBytes s (argAddr w + off) l).2.1 _ (.inl (by omega))
    · rfl
  · simp only [if_true]
    split
    · refine List.map_congr_left fun i hi => ?_
      have hi := List.mem_range.1 hi
      simp only [hostByte, writeHost, tabGet_putBytes]
      rw [if_neg (by omega)]
    · rfl

/-- What keeps the bytes of device memory and of host memory keeps what an address argument names. -/
theorem readArg_of_bytes (hd : t.mem.bytes = s.mem.bytes) (hh : t.hostMem = s.hostMem) (w : Word) (off n : Nat) : readArg t w off n = readArg s w off n := by
  simp only [readArg, readHost, hostByte, readBytes, memByte, hd, hh]

/-! ### The stream -/

/-- The offset of every tensor's data lies behind the header and the entries, by induction on the list of tensors. -/
theorem le_of_mem_snapPlan {ts : List Tensor} : ∀ e ∈ snapPlan ts, 64 + 128 * ts.length ≤ e.2 := by
  suffices hl : ∀ (l : List Tensor) (a : List (Tensor × Nat) × Nat), 64 + 128 * ts.length ≤ a.2 → (∀ e ∈ a.1, 64 + 128 * ts.length ≤ e.2) →
      ∀ e ∈ (l.foldl (fun (a : List (Tensor × Nat) × Nat) t => (a.1 ++ [(t, a.2)], a.2 + snapBytes t)) a).1, 64 + 128 * ts.length ≤ e.2 from
    hl ts _ (Nat.le_refl _) (fun _ he => nomatch he)
  intro l
  induction l with
  | nil => exact fun a _ ha => ha
  | cons t l ih =>
    refine fun a h ha => ih _ (Nat.le_trans h (Nat.le_add_right _ _)) fun e he => ?_
    cases List.mem_append.1 he with
    | inl he => exact ha e he
    | inr he => rw [List.mem_singleton.1 he]; exact h

theorem length_snapPlan (ts : List Tensor) : (snapPlan ts).length = ts.length := by
  suffices hl : ∀ (l : List Tensor) (a : List (Tensor × Nat) × Nat),
      (l.foldl (fun (a : List (Tensor × Nat) × Nat) t => (a.1 ++ [(t, a.2)], a.2 + snapBytes t)) a).1.length = a.1.length + l.length from
    (hl ts _).trans (Nat.zero_add _)
  intro l
  induction l with
  | nil => exact fun _ => rfl
  | cons t l ih =>
    intro a
    rw [List.foldl_cons, ih, List.length_append, List.length_singleton, List.length_cons]
    omega

/-- A block's data and its checksum lie behind the header and the entries. -/
theorem le_of_mem_snapBlocks {ts : List Tensor} {b : SnapBlock} (h : b ∈ snapBlocks (snapPlan ts)) :
    64 + 128 * ts.length ≤ b.off ∧ 64 + 128 * ts.length ≤ b.crcOff := by
  obtain ⟨e, he, hb⟩ := List.mem_flatMap.1 h
  obtain ⟨i, _, hi⟩ := List.mem_filterMap.1 hb
  obtain ⟨p, _, rfl⟩ := Option.map_eq_some_iff.1 hi
  have := le_of_mem_snapPlan e he
  dsimp only
  omega

theorem bytes_takeSpoilt (s : State) (a n : Nat) : (takeSpoilt s a n).1.mem.bytes = s.mem.bytes := by
  unfold takeSpoilt
  split <;> rfl

theorem bytes_crcCleared (s : State) (a : Nat) : (crcCleared s a).mem.bytes = s.mem.bytes :=
  bytes_of_memory ((within_crcCleared s a (Within.refl s) (Sub.refl _)).same .memory (by decide))

theorem bytes_crcFailed (s : State) (a : Nat) : (crcFailed s a).mem.bytes = s.mem.bytes :=
  bytes_of_memory ((within_crcFailed s a (Within.refl s) (Sub.refl _)).same .memory (by decide))

theorem bytes_readBlock (s : State) (b : SnapBlock) : (readBlock s b).1.mem.bytes = s.mem.bytes := by
  unfold readBlock
  dsimp only
  generalize [(b.addr, b.bytes)] ++ _ = rs
  have h0 := bytes_readAll s rs
  have h1 := (bytes_takeSpoilt (readAll s rs).1 b.addr b.bytes).trans h0
  have h2 := (bytes_takeSpoilt (takeSpoilt (readAll s rs).1 b.addr b.bytes).1 b.addr b.bytes).trans h1
  split
  · exact h0
  · split
    · exact h0
    · split
      · exact h1
      · split
        · exact (bytes_crcFailed _ _).trans h2
        · exact (bytes_crcCleared _ _).trans h2

/-- A stream whose blocks can all be delivered leaves the bytes in front of it. -/
theorem readArg_snapStream {c : Cmd} {w : Word} {n : Nat} {l : List SnapBlock} (hl : ∀ b ∈ l, n ≤ b.off ∧ n ≤ b.crcOff)
    (h : (snapStream c w l s).2 = none) : readArg (snapStream c w l s).1 w 0 n = readArg s w 0 n := by
  induction l generalizing s with
  | nil => rfl
  | cons b l ih =>
    have hr : (readBlock s b).1.hostMem = s.hostMem := (within_readBlock s b (Within.refl s) (Sub.refl _)).same .hostMemory (by decide)
    have hb := bytes_readBlock s b
    obtain ⟨h1, h2⟩ := hl b (.head _)
    unfold snapStream at h ⊢
    split at h
    · next v hv =>
      rw [hv] at hr hb
      dsimp only at h ⊢
      rw [ih (fun b hb => hl b (.tail _ hb)) h, readArg_writeArg_behind h2, readArg_writeArg_behind h1,
        readArg_of_bytes ((bytes_of_memory ((within_countBlocks v b.addr 1 (Within.refl v) (Sub.refl _)).same .memory (by decide))).trans hb)
          (((within_countBlocks v b.addr 1 (Within.refl v) (Sub.refl _)).same .hostMemory (by decide)).trans hr)]
    · exact nomatch h
    · exact nomatch h

/-! ### The header -/

theorem length_snapEntry (e : Tensor × Nat) : (snapEntry e).length = 128 := by
  simp only [snapEntry, emitTensor, List.length_append, length_leBytes]

theorem length_snapHeader (s : State) (k : Nat) (ts : List Tensor) (l : List Byte) : (snapHeader s k ts l).length = 64 := by
  simp only [snapHeader, List.length_append, length_leBytes]

theorem length_snapFront (s : State) (k : Nat) (ts : List Tensor) :
    (snapHeader s k ts ((snapPlan ts).flatMap snapEntry) ++ (snapPlan ts).flatMap snapEntry).length = 64 + 128 * ts.length := by
  rw [List.length_append, length_snapHeader, List.flatMap_def, length_flatten_map snapEntry 128 _ length_snapEntry, length_snapPlan, Nat.mul_comm]

theorem length_listArg (s : State) (a : Word) (w n : Nat) : (listArg s a w n).length = n := by
  rw [listArg, List.length_map, length_upTo]

theorem length_snapTensors (c : Cmd) (s : State) : (snapTensors c s).length = c.val 2 := by
  rw [snapTensors, List.length_map, snapIds, length_listArg]

/-- A loop of writes behind the first bytes of a place. -/
theorem readArg_forEach_behind {α : Type} {w : Word} {f n : Nat} {l : List α} {off : α → Nat} {d : α → List Byte} (h : ∀ a ∈ l, n ≤ off a) (s : State) :
    readArg (forEach l s (fun a t => writeArg t f w (off a) (d a))) w 0 n = readArg s w 0 n :=
  forEach_keeps (π := fun t => readArg t w 0 n) (fun a ha _ => readArg_writeArg_behind (h a ha)) s

/-- The stream begins with the header and the entries (R438). -/
theorem readArg_snapBegin {c : Cmd} (hm : isHostAddr (c.arg 3) = true → (s.fn c.fn).busMaster = true)
    (hd : isHostAddr (c.arg 3) = false → argOk s c.fn (argAddr (c.arg 3)) (64 + 128 * c.val 2) true = true) :
    readArg (snapBegin c s) (c.arg 3) 0 (64 + 128 * c.val 2) = snapHeader s (hIdx (c.arg 0)) (snapTensors c s)
      ((snapPlan (snapTensors c s)).flatMap snapEntry) ++ (snapPlan (snapTensors c s)).flatMap snapEntry := by
  have hl := length_snapFront s (hIdx (c.arg 0)) (snapTensors c s)
  rw [length_snapTensors] at hl
  have hw := readArg_writeArg (s := s) (f := c.fn) (w := c.arg 3) (off := 0) (l := snapHeader s (hIdx (c.arg 0)) (snapTensors c s)
    ((snapPlan (snapTensors c s)).flatMap snapEntry) ++ (snapPlan (snapTensors c s)).flatMap snapEntry) hm (by rw [hl]; exact hd)
  rw [hl] at hw
  refine Eq.trans ?_ hw
  refine readArg_forEach_behind (off := fun e : Tensor × Nat => e.2 + 4096 * e.1.desc.blocks) (fun e he => ?_) _
  have := le_of_mem_snapPlan e he
  rw [length_snapTensors] at this
  omega


/-! ### CTX_SNAPSHOT -/

theorem le_snapLength (ts : List Tensor) : 64 + 128 * ts.length ≤ snapLength ts := Nat.le_add_right _ _

theorem listArg_of_bytes (hd : t.mem.bytes = s.mem.bytes) (hh : t.hostMem = s.hostMem) (a : Word) (w n : Nat) : listArg t a w n = listArg s a w n := by
  simp only [listArg, readArg_of_bytes hd hh]

/-- The outcomes of reading structures leave the lists that arguments point to. -/
theorem listArg_meetArgs (s : State) (l : List (Word × Nat)) (a : Word) (w n : Nat) : listArg (meetArgs s l) a w n = listArg s a w n :=
  listArg_of_bytes (bytes_meetArgs s l) ((within_meetArgs s l (Within.refl s) (Sub.refl _)).same .hostMemory (by decide)) a w n

/-- What an argument may be used for, it may be used for after structures have been read. -/
theorem argOk_meetArgs (s : State) (l : List (Word × Nat)) (f a n : Nat) (x : Bool) : argOk (meetArgs s l) f a n x = argOk s f a n x := by
  have h := within_meetArgs s l (Within.refl s) (Sub.refl _)
  exact argOk_congr (rests_meetArgs s l) (h.same .regions (by decide)) (h.same .ctxs (by decide)) f a n x

theorem busMaster_meetArgs (s : State) (l : List (Word × Nat)) (f : Nat) : ((meetArgs s l).fn f).busMaster = (s.fn f).busMaster :=
  (rests_meetArgs s l).fn_get FnState.busMaster (fun _ => rfl) f

/-- What an accepted address argument names may be written after structures have been read (R365). -/
theorem wrote_meetArgs {c : Cmd} {w : Word} {n : Nat} {l : List Byte} (rs : List (Word × Nat)) (h : addrOk c s w n true = true) (hl : l.length = n)
    (hn : 0 < n) : Wrote (meetArgs s rs) (writeArg (meetArgs s rs) c.fn w 0 l) w l :=
  writeArg_wrote _ c.fn w l (fun hw => (busMaster_meetArgs s rs c.fn).trans (addrOk_master h hw)) fun hw => by
    rw [argOk_meetArgs]
    exact argOk_of_addrOk h hw (Nat.le_refl _) (by rw [hl]) (by rwa [hl])

/-- The stream that an accepted CTX_SNAPSHOT leaves begins with the header and the entries. -/
theorem readArg_snapshot {c : Cmd} (rs : List (Word × Nat)) (hb : refuseCtxSnapshot c s = none) :
    let m := meetArgs s rs
    let ts := snapTensors c m
    let moved := snapStream c (c.arg 3) (snapBlocks (snapPlan ts)) (snapBegin c m)
    moved.2 = none → readArg moved.1 (c.arg 3) 0 (64 + 128 * c.val 2) =
      snapHeader m (hIdx (c.arg 0)) ts ((snapPlan ts).flatMap snapEntry) ++ (snapPlan ts).flatMap snapEntry := by
  intro m ts moved hm
  have ha : addrOk c s (c.arg 3) (snapLength ((snapIds c s).map (s.tensor (myPart c s)))) true = true := by
    have := not_refused hb (List.mem_append_right _ (.tail _ (.tail _ (.tail _ (.head _)))))
    simpa using this
  have hlen := le_snapLength ((snapIds c s).map (s.tensor (myPart c s)))
  rw [List.length_map, snapIds, length_listArg] at hlen
  have hts : ts.length = c.val 2 := length_snapTensors c m
  refine (readArg_snapStream (fun b hb => ?_) hm).trans (readArg_snapBegin (fun hw => ?_) (fun hw => ?_))
  · rw [← hts]
    exact le_of_mem_snapBlocks hb
  · exact (busMaster_meetArgs s rs c.fn).trans (addrOk_master ha hw)
  · rw [argOk_meetArgs]
    exact argOk_of_addrOk ha hw (Nat.le_refl _) (Nat.add_le_add_left hlen _) (by omega)

/-- What CTX_SNAPSHOT's effect touches. -/
theorem snapStream_only (c : Cmd) (w : Word) (l : List SnapBlock) (s : State) : Only (storeAreas ++ [.module, .flash, .queues, .launches, .ctxs, .tallies,
    .groups, .cores, .slots, .links, .out]) s (snapStream c w l (snapBegin c s)).1 :=
  only_of_within (within_snapStream c w l _ (within_snapBegin c s (Within.refl s) rfl) rfl)

/-! ### NUM_SNAPSHOT -/

theorem length_counterBytes (id : Nat) (r : Counter) : (counterBytes id r).length = 128 := by
  simp only [counterBytes, List.length_append, length_leBytes, List.flatMap_def, length_flatten_map (fun i => leBytes 4 (r.hist.getD i 0)) 4 _
    (fun _ => length_leBytes _ _), length_upTo]

theorem length_gateBytes (g : Gate) : (gateBytes g).length = 64 := by
  unfold gateBytes
  simp only [List.length_append, length_leBytes]


theorem tensor_same (h : Area.tensors.same s t) (p i : Nat) : t.tensor p i = s.tensor p i := congrArg (fun l => tabGet ({} : Tensor) l (tensorKey p i)) h

/-- The bytes of a record, of an entry that nothing refuses (R501). -/
theorem length_snapRecord {c : Cmd} {b m : State} {kind e : Nat} (ht : Area.tensors.same b m) (h : snapEntryRc c b kind e = 0) :
    (snapRecord m (myPart c b) kind e).length = snapSize kind := by
  match kind with
  | 0 =>
    obtain ⟨r, hr⟩ : ∃ r, (b.tensor (myPart c b) e).counter = some r := by
      refine Option.isSome_iff_exists.1 (Bool.of_not_eq_false fun hn => ?_)
      simp [snapEntryRc, hn, rcBadHandle] at h
    simp only [snapRecord, tensor_same ht, hr, length_counterBytes]
    rfl
  | 1 => exact length_gateBytes _
  | n + 2 =>
    simp only [snapRecord, List.length_append, length_leBytes]
    rw [snapSize, if_neg (by omega), if_neg (by omega)]

/-- A loop whose turns do one idempotent thing to a part of the state, or leave it, does it once where one turn does. -/
theorem forEach_idem {α β : Type} {l : List α} {g : α → State → State} {π : State → β} {φ : β → β} (hφ : ∀ x, φ (φ x) = φ x)
    (h : ∀ a ∈ l, ∀ t, π (g a t) = φ (π t) ∨ π (g a t) = π t) {k : α} (hk : k ∈ l) (hg : ∀ t, π (g k t) = φ (π t)) (s : State) :
    π (forEach l s g) = φ (π s) := by
  have hlate : ∀ (l : List α) (s : State), (∀ a ∈ l, ∀ t, π (g a t) = φ (π t) ∨ π (g a t) = π t) → ∀ x, π s = φ x → π (forEach l s g) = φ x := by
    intro l
    induction l with
    | nil => exact fun _ _ _ hx => hx
    | cons a l ih =>
      refine fun s h x hx => ih (g a s) (fun b hb => h b (.tail _ hb)) x ?_
      cases h a (.head _) s with
      | inl e => rw [e, hx, hφ]
      | inr e => rw [e, hx]
  induction l generalizing s with
  | nil => exact nomatch hk
  | cons a l ih =>
    have hl : ∀ b ∈ l, ∀ t, π (g b t) = φ (π t) ∨ π (g b t) = π t := fun b hb => h b (.tail _ hb)
    show π (forEach l (g a s) g) = _
    cases h a (.head _) s with
    | inl e => exact hlate l (g a s) hl (π s) e
    | inr e =>
      cases hk with
      | head => exact hlate l (g k s) hl (π s) (hg s)
      | tail _ hk => exact (ih hl hk (g a s)).trans (congrArg φ e)

/-- The tensors of a list have their counters cleared (R198). -/
theorem tensor_snapClear {p e : Nat} {l : List Nat} (hl : ∀ e ∈ l, e < 2 ^ 32) (he : e ∈ l) (s : State) :
    (forEach l s (fun e t => snapClear t p 0 e)).tensor p e = { s.tensor p e with counter := (s.tensor p e).counter.map clearCounter } := by
  refine forEach_idem (π := fun t => t.tensor p e) (φ := fun x => { x with counter := x.counter.map clearCounter }) (fun x => ?_) (fun a ha t => ?_) he
    (fun t => tensor_setTensor t p e _) s
  · cases x.counter <;> rfl
  · by_cases hae : a = e
    · subst hae
      exact .inl (tensor_setTensor t p a _)
    · exact .inr (tensor_setTensor_ne t _ (hl a ha) (hl e he) fun hq => hae (Prod.mk.inj hq).2.symm)

/-- The gates of a list have their counts cleared (R501). -/
theorem gate_snapClear {p e : Nat} {l : List Nat} (hl : ∀ e ∈ l, e < 64) (he : e ∈ l) (s : State) :
    (forEach l s (fun e t => snapClear t p 1 e)).gate p e =
      { s.gate p e with skipsNonfinite := 0, skipsVersion := 0, skipsAtFloor := 0, partialCount := 0 } := by
  refine forEach_idem (π := fun t => t.gate p e)
    (φ := fun x => { x with skipsNonfinite := 0, skipsVersion := 0, skipsAtFloor := 0, partialCount := 0 }) (fun _ => rfl) (fun a ha t => ?_) he
    (fun t => gate_setGate t p e _) s
  by_cases hae : a = e
  · subst hae
    exact .inl (gate_setGate t p a _)
  · exact .inr (gate_setGate_ne t _ (hl a ha) (hl e he) fun hq => hae (Prod.mk.inj hq).2.symm)

/-- The contexts of a list have their counts of non-finite values cleared (R200). -/
theorem ctx_snapClear {p e : Nat} {l : List Nat} (he : e ∈ l) (s : State) :
    (forEach l s (fun e t => snapClear t p 2 e)).ctx (hIdx (BitVec.ofNat 64 e)) = { s.ctx (hIdx (BitVec.ofNat 64 e)) with nf := 0 } := by
  refine forEach_idem (π := fun t => t.ctx (hIdx (BitVec.ofNat 64 e))) (φ := fun x => { x with nf := 0 }) (fun _ => rfl) (fun a _ t => ?_) he
    (fun t => ctx_setCtx t _ _) s
  by_cases hae : hIdx (BitVec.ofNat 64 a) = hIdx (BitVec.ofNat 64 e)
  · rw [← hae]
    exact .inl (ctx_setCtx t _ _)
  · exact .inr (ctx_setCtx_ne t _ hae)


/-- What nothing refuses of NUM_SNAPSHOT: its place may be written, and every entry of its list is one that it may read (R501). -/
theorem numSnapshot_accepted {c : Cmd} (h : refuseNumSnapshot c s = none) :
    (decide (2 < c.val 0) || !within 1 65536 (c.val 2) || decide (1 < c.val 4)) = false ∧
    addrOk c s (c.arg 3) (snapSize (c.val 0) * c.val 2) true = true ∧ ∀ e ∈ numEntries c s, snapEntryRc c s (c.val 0) e = 0 := by
  unfold refuseNumSnapshot at h
  split at h
  · exact nomatch h
  next hc =>
    refine ⟨not_refused hc (r := rcBadArg) (List.mem_append_left _ (.tail _ (.tail _ (.head _)))), ?_, fun e he => ?_⟩
    · have := not_refused hc (List.mem_append_left _ (.tail _ (.tail _ (.tail _ (.tail _ (.head _))))))
      simpa using this
    · have := refusal_none h _ (List.mem_map.2 ⟨e, he, rfl⟩)
      simpa [rcIf] using this

theorem length_numEntries (c : Cmd) (s : State) : (numEntries c s).length = c.val 2 := length_listArg _ _ _ _

/-- The bytes of all records. -/
theorem length_flatten_mem {α : Type} (g : α → List Byte) (n : Nat) (l : List α) (h : ∀ a ∈ l, (g a).length = n) :
    ((l.map g).flatten).length = n * l.length := by
  induction l with
  | nil => rfl
  | cons a l ih =>
    rw [List.map_cons, List.flatten_cons, List.length_append, ih fun b hb => h b (.tail _ hb), h a (.head _), List.length_cons]
    exact (Nat.add_comm _ _).trans (Nat.mul_succ n l.length).symm

/-- A state whose bytes are those of one in which bytes were written has them written. -/
theorem Wrote.of_bytes {w : Word} {l : List Byte} (h : Wrote s t w l) (hd : u.mem.bytes = t.mem.bytes) (hh : u.hostMem = t.hostMem) : Wrote s u w l := by
  have hm (a : Nat) : memByte u a = memByte t a := by rw [memByte, memByte, hd]
  have hn (a : Nat) : hostByte u a = hostByte t a := by rw [hostByte, hostByte, hh]
  obtain ⟨hread, hmem, hhost⟩ := h
  exact ⟨(readArg_of_bytes hd hh w 0 _).trans hread, fun a ha => (hm a).trans (hmem a ha), fun a ha => (hn a).trans (hhost a ha)⟩

/-- The clear of entries leaves every byte. -/
theorem bytes_snapClears (s : State) (p kind : Nat) (l : List Nat) :
    (forEach l s (fun e t => snapClear t p kind e)).mem.bytes = s.mem.bytes ∧ (forEach l s (fun e t => snapClear t p kind e)).hostMem = s.hostMem := by
  have h : Within 204800 s (forEach l s (fun e t => snapClear t p kind e)) :=
    within_forEach (Within.refl s) fun e t h => within_snapClear t p kind e h (Sub.refl _)
  exact ⟨bytes_of_memory (h.same .memory (by decide)), h.same .hostMemory (by decide)⟩

/-- The state that NUM_SNAPSHOT leaves. -/
def numSnapped (c : Cmd) (s : State) : State :=
  let w := writeArg s c.fn (c.arg 3) 0 (((numEntries c s).map (snapRecord s (myPart c s) (c.val 0))).flatten)
  if c.val 4 = 1 then forEach (numEntries c s) w (fun e t => snapClear t (myPart c s) (c.val 0) e) else w

theorem fnPart_of_same {f : Nat} (h : (t.fn f).part = (s.fn f).part) : fnPart t f = fnPart s f := by rw [fnPart, fnPart, h]

theorem myPart_meetArgs (c : Cmd) (s : State) (rs : List (Word × Nat)) : myPart c (meetArgs s rs) = myPart c s :=
  fnPart_of_same ((rests_meetArgs s rs).fn_get FnState.part (fun _ => rfl) c.fn)

/-- NUM_SNAPSHOT writes its records (R501). -/
theorem numSnapped_wrote {c : Cmd} (rs : List (Word × Nat)) (h : refuseNumSnapshot c s = none) :
    let m := meetArgs s rs
    Wrote m (numSnapped c m) (c.arg 3) (((numEntries c m).map (snapRecord m (myPart c m) (c.val 0))).flatten) := by
  intro m
  obtain ⟨hr, ha, he⟩ := numSnapshot_accepted h
  have hp : myPart c m = myPart c s := myPart_meetArgs c s rs
  have hes : numEntries c m = numEntries c s := listArg_meetArgs s rs _ _ _
  have hlen : (((numEntries c m).map (snapRecord m (myPart c m) (c.val 0))).flatten).length = snapSize (c.val 0) * c.val 2 := by
    rw [length_flatten_mem _ (snapSize (c.val 0)), length_numEntries]
    intro e hm
    rw [hp]
    exact length_snapRecord ((within_meetArgs s rs (Within.refl s) (Sub.refl _)).same .tensors (by decide)) (he e (hes ▸ hm))
  have hpos : 0 < snapSize (c.val 0) * c.val 2 := by
    simp only [Bool.or_eq_false_iff, Machine.within, Bool.not_eq_false', Bool.and_eq_true, decide_eq_true_eq] at hr
    refine Nat.mul_pos ?_ (by omega)
    rw [snapSize]
    split
    · decide
    · split <;> decide
  have hw := wrote_meetArgs rs ha hlen hpos
  unfold numSnapped
  split
  · exact hw.of_bytes (bytes_snapClears _ _ _ _).1 (bytes_snapClears _ _ _ _).2
  · exact hw

/-- An entry that nothing refuses names a tensor or a gate of the partition (R501). -/
theorem lt_of_snapEntryRc {c : Cmd} {e : Nat} : (snapEntryRc c s 0 e = 0 → e < 2 ^ 32) ∧ (snapEntryRc c s 1 e = 0 → e < 64) := by
  refine ⟨fun h => Nat.lt_of_not_le fun hn => ?_, fun h => Nat.lt_of_not_le fun hn => ?_⟩
  · rw [snapEntryRc, decide_eq_false (Nat.not_lt.2 hn)] at h
    exact nomatch h
  · rw [snapEntryRc, decide_eq_false (Nat.not_lt.2 hn)] at h
    exact nomatch h

/-- A NUM_SNAPSHOT that clears does so after its records are written. -/
theorem numSnapped_cleared {c : Cmd} {kind : Nat} (hc : c.val 4 = 1) (hk : c.val 0 = kind) : ∃ w, Only storeAreas s w ∧
    numSnapped c s = forEach (numEntries c s) w (fun e t => snapClear t (myPart c s) kind e) := by
  subst hk
  exact ⟨_, writeArg_only s c.fn (c.arg 3) 0 _, if_pos hc⟩

/-- Settles O7, with a loop of idempotent clears for NUM_SNAPSHOT, and for CTX_SNAPSHOT the plan of its stream, whose data lies behind the
header and the entries. -/
theorem snapshotCommands : Obligations.SnapshotCommands := by
  unfold Obligations.SnapshotCommands
  refine ⟨?ctx, fun rq kind list count dest clear s => endsOn_mk rfl fun hb _ => ⟨_, numSnapped _ _, rfl, ?num⟩⟩
  case ctx =>
    intro rq ctx list count dest hits s args c s₁ b m ts entries moved h
    refine ⟨fun hm => ⟨moved.1, exec_of_doneWith rfl h ?_, readArg_snapshot (c := c) _ h.2.2 hm, fun p i => ?_, snapStream_only c dest _ m⟩,
      fun off hm => ⟨moved.1, exec_of_doneWith rfl h ?_, fun p i => ?_⟩⟩
    · show effectCtxSnapshot c m = _
      rw [effectCtxSnapshot, show snapStream c (c.arg 3) _ _ = (moved.1, none) from Prod.ext rfl hm]
      rfl
    · exact tensor_same (snapStream_only c dest _ m .tensors (by decide)) p i
    · show effectCtxSnapshot c m = _
      rw [effectCtxSnapshot, show snapStream c (c.arg 3) _ _ = (moved.1, some off) from Prod.ext rfl hm]
    · exact tensor_same (snapStream_only c dest _ m .tensors (by decide)) p i
  case num =>
    generalize hm : seen numReads rq 0x61 _ s = m
    replace hm : meetArgs (before rq 0x61 _ s) (numReads _ _) = m := hm
    generalize hcmd : cmdOf rq 0x61 _ = c at hb hm
    obtain ⟨_, _, he⟩ := numSnapshot_accepted hb
    have hes : numEntries c m = numEntries c (before rq 0x61 [kind, list, count, dest, clear] s) := hm ▸ listArg_meetArgs _ _ _ _ _
    have hc4 : c.val 4 = clear.toNat := by rw [← hcmd]; rfl
    have hc0 : c.val 0 = kind.toNat := by rw [← hcmd]; rfl
    refine ⟨?_, ?_, fun hc => ?_, fun hc hk => ?_, fun hc hk => ?_, fun hc hk => ?_⟩
    · rw [← hcmd]; rfl
    · have hw := hm ▸ numSnapped_wrote _ hb
      rw [hc0, show c.arg 3 = dest by rw [← hcmd]; rfl] at hw
      exact hw
    · rw [numSnapped, if_neg (by rw [hc4, hc]; decide)]
      exact writeArg_only _ _ _ _ _
    · obtain ⟨w, hw, hs⟩ := numSnapped_cleared (s := m) (kind := 0) (hc4.trans (by rw [hc]; rfl)) (hc0.trans (by rw [hk]; rfl))
      have hlt : ∀ e ∈ numEntries c m, e < 2 ^ 32 := fun e hme => lt_of_snapEntryRc.1 ((hc0.trans (by rw [hk])) ▸ he e (hes ▸ hme))
      rw [hs]
      refine ⟨fun e hme => (tensor_snapClear hlt hme w).trans ?_, hw.trans (m := [.tensors]) ?_ (by decide) (by decide)⟩
      · rw [tensor_same (hw .tensors (by decide))]
      · exact (within_forEach (Within.refl w) fun e t h => within_setTensor _ _ _ _ h (Sub.refl _)).only rfl
    · obtain ⟨w, hw, hs⟩ := numSnapped_cleared (s := m) (kind := 1) (hc4.trans (by rw [hc]; rfl)) (hc0.trans (by rw [hk]; rfl))
      have hlt : ∀ e ∈ numEntries c m, e < 64 := fun e hme => lt_of_snapEntryRc.2 ((hc0.trans (by rw [hk])) ▸ he e (hes ▸ hme))
      rw [hs]
      refine ⟨fun e hme => (gate_snapClear hlt hme w).trans ?_, hw.trans (m := [.gates]) ?_ (by decide) (by decide)⟩
      · rw [gate_same (hw .gates (by decide))]
      · exact (within_forEach (Within.refl w) fun e t h => within_setGate _ _ _ _ h (Sub.refl _)).only rfl
    · obtain ⟨w, hw, hs⟩ := numSnapped_cleared (s := m) (kind := 2) (hc4.trans (by rw [hc]; rfl)) (hc0.trans (by rw [hk]; rfl))
      rw [hs]
      refine ⟨fun e hme => (ctx_snapClear hme w).trans ?_, hw.trans (m := [.ctxs]) ?_ (by decide) (by decide)⟩
      · rw [ctx_same (hw .ctxs (by decide))]
      · exact (within_forEach (Within.refl w) fun e t h => within_clearNf _ _ h (Sub.refl _)).only rfl

end Sys2Proof.Machine
end

section
/-! Attestation, debug access and the management endpoint (R444, R474 to R482). -/

namespace Sys2Proof.Machine

variable {s t : State} {c : SpdmChan}

/-! ### Answers -/

theorem spdmAnswer_only (s : State) (a : SpdmAnswer) : Only [.out] s (spdmAnswer s a) := (within_spdmAnswer s a (Within.refl s) (Sub.refl _)).only rfl

theorem mgmtAnswer_only (s : State) (a : MgmtAnswer) : Only [.out] s (mgmtAnswer s a) := (within_mgmtAnswer s a (Within.refl s) (Sub.refl _)).only rfl

/-- An answer after a connection has been set. -/
theorem spdmAnswer_setSpdm_only (s : State) (k : Nat) (x : SpdmConn) (a : SpdmAnswer) : Only [.security, .out] s (spdmAnswer (s.setSpdm k x) a) :=
  only_of_within (within_spdmAnswer _ a (within_setSpdm s k x (Within.refl s) rfl) rfl)

/-- An answer with a random value. -/
theorem spdmAnswer_draw_only (s : State) (a : SpdmAnswer) : Only [.security, .out] s (spdmAnswer (drawRandom s).2 a) :=
  only_of_within (within_spdmAnswer _ a (within_drawRandom s (Within.refl s) rfl) rfl)

theorem spdmAnswer_draw_setSpdm_only (s : State) (k : Nat) (x : SpdmConn) (a : SpdmAnswer) :
    Only [.security, .out] s (spdmAnswer ((drawRandom s).2.setSpdm k x) a) :=
  only_of_within (within_spdmAnswer _ a (within_setSpdm _ k x (within_drawRandom s (Within.refl s) rfl) rfl) rfl)

/-! ### Channels -/

theorem onChan_of_up (h : chanUp s c = true) (k : SpdmConn → State) : onChan s c k = k (s.spdm (chanKey c)) := if_pos h

theorem onChan_of_down (h : chanUp s c = false) (k : SpdmConn → State) : onChan s c k = spdmAnswer s .none := if_neg (by rw [h]; decide)

theorem onAgreed_of_down (h : chanUp s c = false) (k : SpdmConn → State) : onAgreed s c k = spdmAnswer s .none := onChan_of_down h _

theorem onAgreed_of_not_agreed (h : chanUp s c = true) (ha : (s.spdm (chanKey c)).algorithms = false) (k : SpdmConn → State) :
    onAgreed s c k = spdmAnswer s (.error .unexpectedRequest) := (onChan_of_up h _).trans (if_neg (by rw [ha]; decide))

theorem onAgreed_of_agreed (h : chanUp s c = true) (ha : (s.spdm (chanKey c)).algorithms = true) (k : SpdmConn → State) :
    onAgreed s c k = k (s.spdm (chanKey c)) := (onChan_of_up h _).trans (if_pos ha)

/-! ### Attestation -/

theorem length_digestBytes (d : BitVec 512) : (digestBytes d).length = 64 := by rw [digestBytes, List.length_reverse, length_leBytes]

/-- A channel that is not answered gives nothing (R330, R444). -/
theorem spdm_of_down {i : Instr} (h : chanUp s c = false) (hi : ∃ v w a x m n y b, i ∈ [.getVersion c, .getCapabilities c v,
    .negotiateAlgorithms c a x, .getDigests c, .getCertificate c m n y, .challenge c m b, .getMeasurements c m false, .getMeasurements c m true,
    .keyExchange c m w b, .finish c false, .finish c true, .endSession c]) : exec i s = .next (spdmAnswer s .none) := by
  obtain ⟨v, w, a, x, m, n, y, b, hi⟩ := hi
  simp only [List.mem_cons, List.not_mem_nil, or_false] at hi
  rcases hi with rfl | rfl | rfl | hi
  · exact congrArg _ (onChan_of_down h _)
  · exact congrArg _ (onChan_of_down h _)
  · exact congrArg _ (onChan_of_down h _)
  · rcases hi with rfl | rfl | rfl | rfl | rfl | rfl | rfl | rfl | rfl <;> exact congrArg _ (onAgreed_of_down h _)

/-- A request that comes before the algorithms are agreed (log entry 112). -/
theorem spdm_of_not_agreed {i : Instr} (h : chanUp s c = true) (ha : (s.spdm (chanKey c)).algorithms = false) (hi : ∃ v m n y b, i ∈
    [.getDigests c, .getCertificate c m n y, .challenge c m b, .getMeasurements c m false, .getMeasurements c m true, .keyExchange c m v b,
    .finish c false, .finish c true, .endSession c]) : exec i s = .next (spdmAnswer s (.error .unexpectedRequest)) := by
  obtain ⟨v, m, n, y, b, hi⟩ := hi
  simp only [List.mem_cons, List.not_mem_nil, or_false] at hi
  rcases hi with rfl | rfl | rfl | rfl | rfl | rfl | rfl | rfl | rfl <;> exact congrArg _ (onAgreed_of_not_agreed h ha _)

/-- A request for a slot other than slot 0 (R477). -/
theorem spdm_of_slot {i : Instr} {m n y : Nat} {v : Half} {b : List Byte} (h : chanUp s c = true) (ha : (s.spdm (chanKey c)).algorithms = true)
    (hm : m ≠ 0) (hi : i ∈ [.getCertificate c m n y, .challenge c m b, .keyExchange c m v b]) :
    exec i s = .next (spdmAnswer s (.error .invalidRequest)) := by
  simp only [List.mem_cons, List.not_mem_nil, or_false] at hi
  rcases hi with rfl | rfl | rfl
  · exact congrArg _ ((onAgreed_of_agreed h ha _).trans (if_pos (.inl hm)))
  · exact congrArg _ ((onAgreed_of_agreed h ha _).trans (if_pos hm))
  · exact congrArg _ ((onAgreed_of_agreed h ha _).trans (if_pos hm))

/-- A portion of slot 0's chain (R477). -/
theorem getCertificate_of_agreed (h : chanUp s c = true) (ha : (s.spdm (chanKey c)).algorithms = true) (off len : Nat) :
    exec (.getCertificate c 0 off len) s = .next (spdmAnswer s (if off < (certChain s).length then
      .certificate (((certChain s).drop off).take len) ((certChain s).length - off - len) else .error .invalidRequest)) := by
  refine congrArg _ ((onAgreed_of_agreed h ha _).trans ?_)
  dsimp only
  by_cases hoff : off < (certChain s).length
  · rw [if_pos hoff, if_neg (by omega)]
  · rw [if_neg hoff, if_pos (by omega)]

/-- A connection answers a command, and keeps a value of its own. -/
theorem spdm_set {i : Instr} {x : SpdmConn} {a : SpdmAnswer} (h : exec i s = .next (spdmAnswer (s.setSpdm (chanKey c) x) a)) :
    ∃ t, exec i s = .next t ∧ t.out.spdm = a ∧ t.spdm (chanKey c) = x ∧ Only [.security, .out] s t :=
  ⟨_, h, rfl, spdm_setSpdm s (chanKey c) x, spdmAnswer_setSpdm_only _ _ _ _⟩

/-- An answer that leaves its connection. -/
theorem spdm_say {i : Instr} {a : SpdmAnswer} (h : exec i s = .next (spdmAnswer s a)) :
    ∃ t, exec i s = .next t ∧ t.out.spdm = a ∧ Only [.out] s t := ⟨_, h, rfl, spdmAnswer_only s a⟩

/-- Settles O51: a channel that is not answered, one that has agreed on no algorithm, and one that has. -/
theorem attestation : Obligations.Attestation := by
  unfold Obligations.Attestation
  refine ⟨fun ch s i hi h => spdm_say (spdm_of_down h hi), fun ch s i hi h ha => spdm_say (spdm_of_not_agreed h ha hi),
    fun ch s v h h2 h3 => spdm_say (congrArg _ ((onChan_of_up h _).trans (if_neg (not_or.2 ⟨h2, h3⟩)))),
    fun ch s m n x v b i h ha hm hi => spdm_say (spdm_of_slot h ha hm hi), fun ch s h => ⟨?_, fun v hv => ?_, fun a x hv => ⟨fun hka hkx => ?_, fun hk => ?_⟩,
      fun ha => ⟨?_, fun off len => ?_, fun nonce => ?_, fun index raw l hl hne => ?_, fun id exchange => ?_, fun id hid hf => ⟨?_, ?_⟩, fun hf => ?_⟩⟩⟩
  · exact spdm_set (congrArg _ (onChan_of_up h _))
  · exact spdm_set (congrArg _ ((onChan_of_up h _).trans (if_pos hv)))
  · exact spdm_set (congrArg _ ((onChan_of_up h _).trans ((if_neg hv).trans (if_pos (Bool.and_eq_true_iff.2 ⟨List.contains_iff_mem.2 hka, List.contains_iff_mem.2 hkx⟩)))))
  · exact spdm_say (congrArg _ ((onChan_of_up h _).trans ((if_neg hv).trans (if_neg fun hc => (Bool.and_eq_true_iff.1 hc).elim fun hka hkx => hk.elim (· (List.contains_iff_mem.1 hka)) (· (List.contains_iff_mem.1 hkx))))))
  · exact spdm_say (congrArg _ (onAgreed_of_agreed h ha _))
  · exact spdm_say (getCertificate_of_agreed h ha off len)
  · refine ⟨_, _, congrArg Host.Outcome.next ((onAgreed_of_agreed h ha _).trans (if_neg (by decide))), rfl, ?_, spdmAnswer_draw_only _ _⟩
    exact List.take_left' (length_digestBytes _)
  · subst hl
    exact ⟨_, _, congrArg Host.Outcome.next ((onAgreed_of_agreed h ha _).trans (if_neg (by simpa using hne))), rfl, spdmAnswer_draw_only _ _⟩
  · exact ⟨_, _, congrArg Host.Outcome.next ((onAgreed_of_agreed h ha _).trans (if_neg (by decide))), rfl, spdm_setSpdm _ _ _, spdmAnswer_draw_setSpdm_only _ _ _ _⟩
  · exact spdm_set (congrArg _ ((onAgreed_of_agreed h ha _).trans ((if_neg (by simp [hid, hf])).trans (if_pos rfl))))
  · exact spdm_set (congrArg _ ((onAgreed_of_agreed h ha _).trans ((if_neg (by simp [hid, hf])).trans (if_neg (by decide)))))
  · exact spdm_set (congrArg _ ((onAgreed_of_agreed h ha _).trans (if_neg (by simp [hf]))))

/-! ### Debug access -/

/-- A rejected or silent answer of the management endpoint, or a value. -/
theorem mgmt_say {i : Instr} {a : MgmtAnswer} (h : exec i s = .next (mgmtAnswer s a)) :
    ∃ t, exec i s = .next t ∧ t.out.mgmt = a ∧ Only [.out] s t := ⟨_, h, rfl, mgmtAnswer_only s a⟩

/-- A debug token that does not count, or one that meets a sealed partition (R479). -/
theorem debugToken_rejected {version level : Byte} {id : BitVec 48} {nonce : BitVec 256} {ok : Bool} (h : mctpUp s = true)
    (hbad : (anySealed s || !tokenGood s version level id nonce ok) = true) :
    exec (.debugToken version level id nonce ok) s = .next (mgmtAnswer s .rejected) :=
  congrArg Host.Outcome.next ((if_neg (by simp [h])).trans (if_pos hbad))

/-- A good debug token in a module without a sealed partition (R479). -/
theorem debugToken_accepted {level : Byte} (h : mctpUp s = true) (hs : anySealed s = false) (h1 : 1 ≤ level.toNat) (h3 : level.toNat ≤ 3) :
    exec (.debugToken 0x10 level Config.moduleId (Config.debugNonce s.security.starts) true) s =
      .next (mgmtAnswer { s with security := { s.security with debugLevel := max s.security.debugLevel level.toNat } } .accepted) := by
  refine congrArg Host.Outcome.next ((if_neg (by simp [h])).trans (if_neg ?_))
  simp [hs, tokenGood, Machine.within, h1, h3]

/-- A powered TAP takes an instruction (R480). -/
theorem tapTo_of_powered (h : s.module.powered = true) (i : TapInstr) (d : Bool) (r : Word32) : tapTo s i d r =
    { s with security := { s.security with tapInstr := i, tapDrives := d }, out := { s.out with tap := r } } := if_neg (by simp [h])

theorem setSecurity_only (s : State) (x : Security) : Only [.security] s { s with security := x } := by
  intro a ha
  cases a
  case security => exact absurd (.head _) ha
  all_goals rfl

theorem tapTo_only (s : State) (i : TapInstr) (d : Bool) (r : Word32) : Only [.security, .out] s (tapTo s i d r) :=
  only_of_within (within_tapTo s i d r (Within.refl s) rfl)

/-- Settles O52, with the two answers to a debug token and what a powered TAP takes. -/
theorem debugAccess : Obligations.DebugAccess := by
  unfold Obligations.DebugAccess
  refine ⟨fun level ok version id nonce s h => ⟨fun hs => mgmt_say (debugToken_rejected h (by rw [hs]; rfl)),
      fun hs h1 h3 => ⟨_, debugToken_accepted h hs h1 h3, rfl, rfl, ?accepted⟩,
      fun hok => mgmt_say (debugToken_rejected h (by simp [tokenGood, hok]))⟩,
    fun s h => ⟨?bypass, ?idcode, fun sampled preload => ?sample, fun h2 hv => ?extest, fun hn => ?inert⟩⟩
  case accepted => exact (setSecurity_only s _).trans (mgmtAnswer_only _ _) (by decide) (by decide)
  case bypass => exact ⟨_, rfl, by rw [tapTo_of_powered h], tapTo_only _ _ _ _⟩
  case idcode => exact ⟨_, rfl, by rw [tapTo_of_powered h], by rw [tapTo_of_powered h], tapTo_only _ _ _ _⟩
  case sample =>
    refine ⟨_, congrArg Host.Outcome.next (if_neg (by simp [h])), by rw [tapTo_of_powered h], ?_⟩
    exact (tapTo_only s .sample false 0).trans (setSecurity_only _ _) (by decide) (by decide)
  case extest => exact ⟨_, congrArg Host.Outcome.next (if_pos ⟨h2, hv⟩), by rw [tapTo_of_powered h], tapTo_only _ _ _ _⟩
  case inert =>
    refine ⟨_, congrArg Host.Outcome.next (if_neg fun hc => ?_), by rw [tapTo_of_powered h], tapTo_only _ _ _ _⟩
    exact hn.elim (· hc.1) (fun hv => by rw [hc.2] at hv; exact nomatch hv)

/-! ### The management endpoint -/

/-- The module's health sensor shows no less than any unit's level, by the fold that takes the largest (R482). -/
theorem healthLevel_le_worstLevel {u : Nat} (hu : u < 193) : healthLevel s u ≤ worstLevel s := by
  have hle : ∀ (l : List Nat) (a : Nat), a ≤ l.foldl (fun a u => max a (healthLevel s u)) a := by
    intro l
    induction l with
    | nil => exact fun _ => Nat.le_refl _
    | cons v l ih => exact fun a => Nat.le_trans (Nat.le_max_left _ _) (ih _)
  have hmem : ∀ (l : List Nat) (a : Nat), u ∈ l → healthLevel s u ≤ l.foldl (fun a u => max a (healthLevel s u)) a := by
    intro l
    induction l with
    | nil => exact fun _ h => nomatch h
    | cons v l ih =>
      intro a h
      cases h with
      | head => exact Nat.le_trans (Nat.le_max_right _ _) (hle l _)
      | tail _ h => exact ih _ h
  exact hmem _ 0 (List.mem_range.2 hu)

/-- What a sensor answers once it is ready (R444, R482). -/
theorem sensorRead_of_ready (h : mctpUp s = true) (hr : s.module.cfgReady = true ∨ 200000000 ≤ s.now) (item : PldmItem) :
    exec (.pldmSensorRead item) s = .next (mgmtAnswer s (sensorAnswer s item)) := by
  refine congrArg Host.Outcome.next ((if_neg (by simp [h])).trans (if_neg fun hn => ?_))
  obtain ⟨hc, hnow⟩ := Bool.and_eq_true_iff.1 hn
  exact hr.elim (fun e => by rw [e] at hc; exact nomatch hc) (fun e => absurd (of_decide_eq_true hnow) (Nat.not_lt.2 e))

/-- Settles O50, with the endpoint's answers before and after it is up. -/
theorem managementEndpoint : Obligations.ManagementEndpoint := by
  unfold Obligations.ManagementEndpoint
  refine ⟨fun image s h => ⟨fun hg => ⟨_, congrArg Host.Outcome.next ((if_neg (by simp [h])).trans (if_pos hg)), rfl, rfl, ?staged⟩,
      fun hg => mgmt_say (congrArg Host.Outcome.next ((if_neg (by simp [h])).trans (if_neg (by simp [hg]))))⟩,
    fun s h hr => ⟨mgmt_say (sensorRead_of_ready h hr _), mgmt_say (sensorRead_of_ready h hr _), mgmt_say (sensorRead_of_ready h hr _),
      fun n hn => mgmt_say ((sensorRead_of_ready h hr _).trans ?running), fun n h2 hg => mgmt_say ((sensorRead_of_ready h hr _).trans ?starting),
      ⟨_, _, sensorRead_of_ready h hr _, rfl, fun _ hu => healthLevel_le_worstLevel hu, mgmtAnswer_only _ _⟩⟩,
    fun item s h hc hn => mgmt_say (congrArg Host.Outcome.next ((if_neg (by simp [h])).trans (if_pos (by simp [hc, hn])))),
    fun command data s h => ⟨_, _, congrArg Host.Outcome.next (if_neg (by simp [h])), rfl, ?control⟩,
    fun image item command data s h => ⟨mgmt_say (congrArg Host.Outcome.next (if_pos (by simp [h]))),
      mgmt_say (congrArg Host.Outcome.next (if_pos (by simp [h]))), mgmt_say (congrArg Host.Outcome.next (if_pos (by simp [h])))⟩⟩
  case staged =>
    intro a ha
    cases a
    case fuses => exact absurd (.head _) ha
    case out => exact absurd (.tail _ (.head _)) ha
    all_goals rfl
  case running => exact congrArg (fun a => Host.Outcome.next (mgmtAnswer s a)) (if_pos hn)
  case starting => exact congrArg (fun a => Host.Outcome.next (mgmtAnswer s a)) ((if_neg (by simp [h2])).trans (if_pos hg))
  case control => exact (freeDraw_only s).trans (mgmtAnswer_only _ _) (by decide) (by decide)

end Sys2Proof.Machine
end

section
/-! ARBITER_PERIOD, CLOCK_SLEW_END, EMERGENCY_HOLD and MGMT_CAP_SET (R461 to R466, R468, R482). -/

namespace Sys2Proof.Machine

variable {s t : State}

theorem RegsBut.mono {l m : List RegName} (h : RegsBut l s t) (hl : ∀ r ∈ l, r ∈ m) : RegsBut m s t := fun a ha => h a (fun e => ha (hl _ e))

/-- A loop over distinct keys, of whose steps only that of `k` changes a part of the state. -/
theorem forEach_at {β : Type} {l : List Nat} {g : Nat → State → State} {π : State → β} {φ : β → β} {k : Nat} (hd : l.Nodup) (hk : k ∈ l)
    (hg : ∀ t, π (g k t) = φ (π t)) (hne : ∀ a ∈ l, a ≠ k → ∀ t, π (g a t) = π t) (s : State) : π (forEach l s g) = φ (π s) := by
  induction l generalizing s with
  | nil => exact nomatch hk
  | cons a l ih =>
    obtain ⟨ha, hd⟩ := List.nodup_cons.1 hd
    show π (forEach l (g a s) g) = _
    cases List.mem_cons.1 hk with
    | inl e =>
      subst e
      rw [forEach_keeps (fun b hb t => hne b (.tail _ hb) (fun e => ha (e ▸ hb)) t), hg]
    | inr hm => rw [ih hd hm (fun b hb => hne b (.tail _ hb)), hne a (.head _) (fun e => ha (e ▸ hm))]

/-- A field of a register of another name. -/
theorem fld_setFld_name (s : State) {f g : RField} {i j k l : Nat} (v : Nat) (h : f.reg ≠ g.reg) (ha : i < 64 ∧ j < 1024) (hb : k < 64 ∧ l < 1024) :
    (s.setFld f i j v).fld g k l = s.fld g k l := fld_setFld_reg s v ha hb (.inl h)

theorem fld_bump_name (s : State) {f g : RField} {i j k l : Nat} (n : Nat) (h : f.reg ≠ g.reg) (ha : i < 64 ∧ j < 1024) (hb : k < 64 ∧ l < 1024) :
    (s.bump f i j n).fld g k l = s.fld g k l := fld_setFld_name s _ h ha hb

theorem fld_lt (s : State) (f : RField) (i j : Nat) : s.fld f i j < 2 ^ (f.hi + 1 - f.lo) := Nat.mod_lt _ (Nat.two_pow_pos _)

theorem fld_ite {c : Prop} [Decidable c] {f : RField} {i j v : Nat} (hs : s.fld f i j = v) (ht : t.fld f i j = v) :
    (if c then s else t).fld f i j = v := by
  split <;> assumption

/-- A field of another copy. -/
theorem fld_setFld_copy (s : State) {f g : RField} {i k : Nat} (v : Nat) (h : i ≠ k) (hi : i < 64) (hk : k < 64) :
    (s.setFld f i 0 v).fld g k 0 = s.fld g k 0 := fld_setFld_reg s v ⟨hi, by decide⟩ ⟨hk, by decide⟩ (.inr (.inl h))

/-! ### The parts of a control period -/

theorem regsBut_applyCaps (s : State) : RegsBut [.pwrCap] s (applyCaps s) := by
  have h1 : RegsBut [.pwrCap] s (match s.power.pendingHostCap with | some w => s.setFld fPwrCapHostCap 0 0 w | none => s) := by
    split
    · exact regsBut_setFld s _ (by decide) (by decide) (by decide)
    · exact RegsBut.refl s
  have h2 (v : State) : RegsBut [.pwrCap] v (match v.power.pendingMgmtCap with | some w => v.setFld fPwrCapMgmtCap 0 0 w | none => v) := by
    split
    · exact regsBut_setFld v _ (by decide) (by decide) (by decide)
    · exact RegsBut.refl v
  exact (h1.trans (h2 _)).trans (regsBut_of_same rfl)

theorem pending_applyCaps (s : State) : (applyCaps s).power.pendingHostCap = none ∧ (applyCaps s).power.pendingMgmtCap = none := ⟨rfl, rfl⟩

theorem regsBut_noteMeasures (s : State) (m : PowerMeas) : RegsBut [.pwrStatus, .pwrEnergy, .pwrSection] s (noteMeasures s m) := by
  refine RegsBut.trans ?_ (regsBut_forEach _ _ (fun n hn t => regsBut_setFld t (f := fPwrSectionPowerW) _ (by decide)
    (Nat.lt_trans (List.mem_range.1 hn) (by decide)) (by decide)) _)
  refine RegsBut.trans ?_ (regsBut_setFld (f := fPwrEnergyEnergyMj) _ _ (by decide) (by decide) (by decide))
  refine RegsBut.trans ?_ (regsBut_setFld (f := fPwrStatusInputMv) _ _ (by decide) (by decide) (by decide))
  refine RegsBut.trans ?_ (regsBut_setFld (f := fPwrStatusInputW) _ _ (by decide) (by decide) (by decide))
  exact regsBut_of_same rfl

/-- The power of the sections is shown beside their levels. -/
theorem hold_noteMeasures (s : State) (m : PowerMeas) {n : Nat} (hn : n < 8) :
    (noteMeasures s m).fld fPwrSectionHold n 0 = s.fld fPwrSectionHold n 0 := by
  have hn64 : n < 64 := Nat.lt_trans hn (by decide)
  refine (forEach_keeps (π := fun t => t.fld fPwrSectionHold n 0) (fun k hk t => ?_) _).trans ?_
  · by_cases hkn : k = n
    · subst hkn
      exact fld_setFld_apart t _ _ _ (by decide)
    · exact fld_setFld_copy t _ hkn (Nat.lt_trans (List.mem_range.1 hk) (by decide)) hn64
  · refine (fld_setFld_name _ _ (by decide) (by decide) ⟨hn64, by decide⟩).trans ?_
    refine (fld_setFld_name _ _ (by decide) (by decide) ⟨hn64, by decide⟩).trans ?_
    exact fld_setFld_name _ _ (by decide) (by decide) ⟨hn64, by decide⟩

theorem inputW_noteMeasures (s : State) (m : PowerMeas) : (noteMeasures s m).fld fPwrStatusInputW 0 0 = m.inputW % 2 ^ 16 := by
  refine (forEach_keeps (π := fun t => t.fld fPwrStatusInputW 0 0) (fun k hk t => ?_) _).trans ?_
  · exact fld_setFld_name t _ (by decide) ⟨Nat.lt_trans (List.mem_range.1 hk) (by decide), by decide⟩ (by decide)
  · refine (fld_setFld_name _ _ (by decide) (by decide) (by decide)).trans ?_
    exact (fld_setFld_apart _ _ _ _ (by decide)).trans (fld_setFld_same _ fPwrStatusInputW 0 0 _ (by decide) (by decide))

theorem power_forEach {α : Type} {l : List α} {g : α → State → State} (h : ∀ a t, (g a t).power = t.power) (s : State) :
    (forEach l s g).power = s.power := forEach_keeps (π := State.power) (fun a _ => h a) s

/-- The state after the measurements of a period and its cap are shown. -/
def capped (m : PowerMeas) (s : State) : State :=
  let s := noteMeasures (applyCaps s) m
  ((s.setFld fPwrStatusCapW 0 0 (effectiveCap s m.inputMv).1).setFld fPwrStatusCapSource 0 0 (effectiveCap s m.inputMv).2).setFld fPwrStatusEmergency 0 0 0

/-- The state after the levels of every section have been stepped. -/
def levelled (cap : Nat) (m : PowerMeas) (s : State) : State :=
  forEach (upTo 8) s (fun n t => stepHeat (t.setFld fPwrSectionHold n 0 (nextLevel t cap m n)) n)

theorem effectiveCap_noteMeasures (s : State) (m : PowerMeas) (mV : Nat) : effectiveCap (noteMeasures s m) mV = effectiveCap s mV := by
  have h := regsBut_noteMeasures s m
  simp only [effectiveCap, h.fld (f := fPwrCapHostCap) (i := 0) (j := 0) (by decide) (by decide) (by decide),
    h.fld (f := fPwrCapMgmtCap) (i := 0) (j := 0) (by decide) (by decide) (by decide)]

/-- A control period in its parts. -/
theorem arbiterPeriod_eq (m : PowerMeas) (h : running s = true) : exec (.arbiterPeriod m) s =
    .next (stepClock (stepUnmet (levelled (effectiveCap (applyCaps s) m.inputMv).1 m (capped m s)) (effectiveCap (applyCaps s) m.inputMv).1 m.inputW)
      (effectiveCap (applyCaps s) m.inputMv).1 m.inputW) := by
  rw [← effectiveCap_noteMeasures (applyCaps s) m]
  exact congrArg Host.Outcome.next (if_neg (by simp [h]))

theorem hold_capped (m : PowerMeas) (s : State) {n : Nat} (hn : n < 8) : (capped m s).fld fPwrSectionHold n 0 = s.fld fPwrSectionHold n 0 := by
  have hn64 : n < 64 := Nat.lt_trans hn (by decide)
  refine (fld_setFld_name _ _ (by decide) (by decide) ⟨hn64, by decide⟩).trans ?_
  refine (fld_setFld_name _ _ (by decide) (by decide) ⟨hn64, by decide⟩).trans ?_
  refine (fld_setFld_name _ _ (by decide) (by decide) ⟨hn64, by decide⟩).trans ?_
  exact (hold_noteMeasures _ m hn).trans ((regsBut_applyCaps s).fld (by decide) hn64 (by decide))

theorem regsBut_stepHeat (s : State) {n : Nat} (hn : n < 64) : RegsBut [.pwrSection, .thmSection] s (stepHeat s n) := by
  unfold stepHeat
  dsimp only
  have h0 (v w : Nat) : RegsBut [.pwrSection, .thmSection] s ((s.setFld fPwrSectionThermalHold n 0 v).setFld fThmSectionThrottling n 0 w) :=
    (regsBut_setFld s v (by decide) hn (by decide)).trans (regsBut_setFld _ w (by decide) hn (by decide))
  exact regsBut_ite ((h0 _ _).trans (regsBut_bump _ 1 (by decide) hn (by decide))) (h0 _ _)

/-- A section's level for heat stands beside its level for power. -/
theorem hold_stepHeat (s : State) {n k : Nat} (hn : n < 64) (hk : k < 64) : (stepHeat s n).fld fPwrSectionHold k 0 = s.fld fPwrSectionHold k 0 := by
  have h0 (v w : Nat) : ((s.setFld fPwrSectionThermalHold n 0 v).setFld fThmSectionThrottling n 0 w).fld fPwrSectionHold k 0 =
      s.fld fPwrSectionHold k 0 := by
    refine (fld_setFld_name _ w (by decide) ⟨hn, by decide⟩ ⟨hk, by decide⟩).trans ?_
    by_cases hkn : n = k
    · subst hkn
      exact fld_setFld_apart s _ _ v (by decide)
    · exact fld_setFld_copy s v hkn hn hk
  exact fld_ite ((fld_bump_name _ 1 (by decide) ⟨hn, by decide⟩ ⟨hk, by decide⟩).trans (h0 _ _)) (h0 _ _)

theorem regsBut_levelled (cap : Nat) (m : PowerMeas) (s : State) : RegsBut [.pwrSection, .thmSection] s (levelled cap m s) :=
  regsBut_forEach _ _ (fun n hn t => (regsBut_setFld t _ (by decide) (Nat.lt_trans (List.mem_range.1 hn) (by decide)) (by decide)).trans
    (regsBut_stepHeat _ (Nat.lt_trans (List.mem_range.1 hn) (by decide)))) s

/-- The levels that a period gives the sections (R464). -/
theorem hold_levelled (cap : Nat) (m : PowerMeas) (s : State) {n : Nat} (hn : n < 8) : (levelled cap m s).fld fPwrSectionHold n 0 =
    if overShare cap m n then min 15 (s.fld fPwrSectionHold n 0 + m.steps.getD n 0) else s.fld fPwrSectionHold n 0 - 1 := by
  have hn64 : n < 64 := Nat.lt_trans hn (by decide)
  refine forEach_at (π := fun t => t.fld fPwrSectionHold n 0)
    (φ := fun h => if overShare cap m n then min 15 (h + m.steps.getD n 0) else h - 1) List.nodup_range (List.mem_range.2 hn)
    (fun t => ?_) (fun k hk hkn t => ?_) s
  · refine (hold_stepHeat _ hn64 hn64).trans ((fld_setFld_same t fPwrSectionHold n 0 _ (by decide) (by decide)).trans (Nat.mod_eq_of_lt ?_))
    have hlt : t.fld fPwrSectionHold n 0 < 16 := fld_lt t fPwrSectionHold n 0
    show nextLevel t cap m n < 16
    unfold nextLevel
    dsimp only
    split <;> omega
  · have hk64 := Nat.lt_trans (List.mem_range.1 hk) (by decide : 8 < 64)
    exact (hold_stepHeat _ hk64 hn64).trans (fld_setFld_copy t _ hkn hk64 hn64)

/-! ### The end of a control period -/

theorem regsBut_stepUnmet (s : State) (cap w : Nat) : RegsBut [.pwrStatus, .pwrThrottle] s (stepUnmet s cap w) := by
  have h0 (v : Nat) : RegsBut [.pwrStatus, .pwrThrottle] s (s.setFld fPwrStatusCapUnmet 0 0 v) := regsBut_setFld s v (by decide) (by decide) (by decide)
  exact regsBut_ite ((h0 _).trans (regsBut_bump _ 1 (by decide) (by decide) (by decide))) (h0 _)

/-- CAP_UNMET stands beside the other fields of its register. -/
theorem status_stepUnmet (s : State) (cap w : Nat) {f : RField} (h : FieldsApart fPwrStatusCapUnmet f) :
    (stepUnmet s cap w).fld f 0 0 = s.fld f 0 0 := by
  have h0 (v : Nat) := fld_setFld_apart s 0 0 v h
  unfold stepUnmet
  dsimp only
  split
  · exact (fld_bump_name _ 1 (f := fPwrThrottleUnmetPeriods) (by rw [← h.1]; decide) (by decide) (by decide)).trans (h0 _)
  · exact h0 _

theorem regsBut_beginSlew (s : State) (v : Nat) : RegsBut [.clkStatus] s (beginSlew s v) := by
  have h1 := regsBut_setFld (rs := [.clkStatus]) (f := fClkStatusTarget) (i := 0) (j := 0) s v (by decide) (by decide) (by decide)
  unfold beginSlew
  generalize s.setFld fClkStatusTarget 0 0 v = t at h1 ⊢
  exact (h1.trans (regsBut_setFld (f := fClkStatusSlewing) t 1 (by decide) (by decide) (by decide))).trans (regsBut_of_same rfl)

theorem regsBut_stepClock (s : State) (cap w : Nat) : RegsBut [.clkStatus] s (stepClock s cap w) := by
  unfold stepClock
  dsimp only
  refine regsBut_ite (regsBut_of_same rfl) (regsBut_ite (RegsBut.trans (regsBut_of_same rfl) (regsBut_beginSlew _ _))
    (regsBut_ite (RegsBut.trans (regsBut_of_same rfl) (regsBut_beginSlew _ _)) (regsBut_of_same rfl)))

/-- No change of clock level starts while a Winter partition exists (R465). -/
theorem regs_stepClock_of_winter (h : anyWinter s = true) (cap w : Nat) : (stepClock s cap w).regs = s.regs := by
  unfold stepClock
  exact (congrArg State.regs (if_pos (Bool.or_eq_true_iff.2 (.inl h)))).trans rfl

/-- What holds of both outcomes of a choice. -/
theorem ite_holds {P : State → Prop} {c : Prop} [Decidable c] (hs : P s) (ht : P t) : P (if c then s else t) := by
  split <;> assumption

/-- The caps that wait stay. -/
def SameCaps (s t : State) : Prop := t.power.pendingHostCap = s.power.pendingHostCap ∧ t.power.pendingMgmtCap = s.power.pendingMgmtCap

theorem sameCaps_stepClock (s : State) (cap w : Nat) : SameCaps s (stepClock s cap w) :=
  ite_holds (P := SameCaps s) ⟨rfl, rfl⟩ (ite_holds (P := SameCaps s) ⟨rfl, rfl⟩ (ite_holds (P := SameCaps s) ⟨rfl, rfl⟩ ⟨rfl, rfl⟩))

theorem power_noteMeasures (s : State) (m : PowerMeas) :
    (noteMeasures s m).power = { s.power with energyTenths := (s.power.energyTenths + m.inputW) % 10 } :=
  (power_forEach (g := fun n t => t.setFld fPwrSectionPowerW n 0 (m.sectionW.getD n 0)) (fun _ _ => rfl) _).trans rfl

theorem SameCaps.trans {u : State} (h : SameCaps s t) (g : SameCaps t u) : SameCaps s u := ⟨g.1.trans h.1, g.2.trans h.2⟩

theorem sameCaps_setFld (s : State) (f : RField) (i j v : Nat) : SameCaps s (s.setFld f i j v) := ⟨rfl, rfl⟩

theorem sameCaps_noteMeasures (s : State) (m : PowerMeas) : SameCaps s (noteMeasures s m) := by
  constructor <;> rw [power_noteMeasures]

/-- No cap waits after a period's measurements are shown. -/
theorem caps_capped (m : PowerMeas) (s : State) : (capped m s).power.pendingHostCap = none ∧ (capped m s).power.pendingMgmtCap = none := by
  have h : SameCaps (applyCaps s) (capped m s) :=
    (((sameCaps_noteMeasures _ m).trans (sameCaps_setFld _ _ _ _ _)).trans (sameCaps_setFld _ _ _ _ _)).trans (sameCaps_setFld _ _ _ _ _)
  exact ⟨h.1.trans (pending_applyCaps s).1, h.2.trans (pending_applyCaps s).2⟩

theorem power_stepUnmet (s : State) (cap w : Nat) : (stepUnmet s cap w).power = s.power := ite_holds (P := fun t => t.power = s.power) rfl rfl

theorem power_stepHeat (s : State) (n : Nat) : (stepHeat s n).power = s.power := ite_holds (P := fun t => t.power = s.power) rfl rfl

/-- No cap waits after a control period (R461). -/
theorem caps_arbiter (m : PowerMeas) (s : State) (cap w : Nat) :
    (stepClock (stepUnmet (levelled cap m (capped m s)) cap w) cap w).power.pendingHostCap = none ∧
    (stepClock (stepUnmet (levelled cap m (capped m s)) cap w) cap w).power.pendingMgmtCap = none := by
  have hu : (stepUnmet (levelled cap m (capped m s)) cap w).power = (capped m s).power :=
    (power_stepUnmet _ cap w).trans (power_forEach (fun n t => power_stepHeat (t.setFld fPwrSectionHold n 0 (nextLevel t cap m n)) n) _)
  obtain ⟨h1, h2⟩ := sameCaps_stepClock (stepUnmet (levelled cap m (capped m s)) cap w) cap w
  obtain ⟨h3, h4⟩ := caps_capped m s
  rw [hu] at h1 h2
  exact ⟨h1.trans h3, h2.trans h4⟩

/-- The cap that a period applies is shown (R461). -/
theorem capW_capped (m : PowerMeas) (s : State) :
    (capped m s).fld fPwrStatusCapW 0 0 = (effectiveCap (applyCaps s) m.inputMv).1 % 2 ^ 16 := by
  unfold capped
  simp (disch := decide) only [fld_setFld_apart]
  exact (fld_setFld_same _ fPwrStatusCapW 0 0 _ (by decide) (by decide)).trans
    (congrArg (fun e => e.1 % 2 ^ 16) (effectiveCap_noteMeasures _ m m.inputMv))

theorem inputW_capped (m : PowerMeas) (s : State) : (capped m s).fld fPwrStatusInputW 0 0 = m.inputW % 2 ^ 16 := by
  unfold capped
  simp (disch := decide) only [fld_setFld_apart]
  exact inputW_noteMeasures _ m

/-- What a period shows of the supply after its levels are stepped, it shows at its end. -/
theorem status_arbiter (m : PowerMeas) (s : State) (cap w : Nat) {f : RField} (h : FieldsApart fPwrStatusCapUnmet f) :
    (stepClock (stepUnmet (levelled cap m (capped m s)) cap w) cap w).fld f 0 0 = (capped m s).fld f 0 0 := by
  have hr : f.reg = .pwrStatus := h.1.symm
  refine ((regsBut_stepClock _ cap w).fld (by rw [hr]; decide) (by decide) (by decide)).trans ((status_stepUnmet _ cap w h).trans ?_)
  exact (regsBut_levelled cap m _).fld (by rw [hr]; decide) (by decide) (by decide)

/-- The levels that a control period leaves (R464). -/
theorem hold_arbiter (m : PowerMeas) (s : State) (cap w : Nat) {n : Nat} (hn : n < 8) :
    (stepClock (stepUnmet (levelled cap m (capped m s)) cap w) cap w).fld fPwrSectionHold n 0 =
    if overShare cap m n then min 15 (s.fld fPwrSectionHold n 0 + m.steps.getD n 0) else s.fld fPwrSectionHold n 0 - 1 := by
  have hn64 : n < 64 := Nat.lt_trans hn (by decide)
  rw [(regsBut_stepClock _ cap w).fld (by decide) hn64 (by decide), (regsBut_stepUnmet _ cap w).fld (by decide) hn64 (by decide),
    hold_levelled cap m _ hn, hold_capped m s hn]

theorem capped_only (m : PowerMeas) (s : State) : Only [.registers, .power] s (capped m s) :=
  only_of_within (within_setFld _ _ _ _ _ (within_setFld _ _ _ _ _ (within_setFld _ _ _ _ _
    (within_noteMeasures _ m (within_applyCaps s (Within.refl s) rfl) rfl) rfl) rfl) rfl)

theorem unmet_only (m : PowerMeas) (cap w : Nat) (s : State) : Only [.registers] s (stepUnmet (levelled cap m s) cap w) :=
  only_of_within (within_stepUnmet _ _ _ (within_forEach (Within.refl s) fun _ _ h =>
    within_stepHeat _ _ (within_setFld _ _ _ _ _ h rfl) rfl) rfl)

/-- What a control period changes up to its clock level. -/
theorem unmet_capped_only (m : PowerMeas) (cap w : Nat) (s : State) : Only [.registers, .power] s (stepUnmet (levelled cap m (capped m s)) cap w) :=
  (capped_only m s).trans (unmet_only m cap w _) (by decide) (by decide)

theorem arbiter_only (m : PowerMeas) (s : State) (cap w : Nat) :
    Only [.registers, .power] s (stepClock (stepUnmet (levelled cap m (capped m s)) cap w) cap w) :=
  (unmet_capped_only m cap w s).trans (only_of_within (l := [.registers, .power]) (within_stepClock _ _ _ (Within.refl _) rfl)) (by decide) (by decide)

theorem regsBut_capped (m : PowerMeas) (s : State) : RegsBut [.pwrStatus, .pwrEnergy, .pwrSection, .pwrCap] s (capped m s) := by
  refine RegsBut.trans ?_ (regsBut_setFld (f := fPwrStatusEmergency) _ _ (by decide) (by decide) (by decide))
  refine RegsBut.trans ?_ (regsBut_setFld (f := fPwrStatusCapSource) _ _ (by decide) (by decide) (by decide))
  refine RegsBut.trans ?_ (regsBut_setFld (f := fPwrStatusCapW) _ _ (by decide) (by decide) (by decide))
  exact ((regsBut_applyCaps s).mono (by decide)).trans ((regsBut_noteMeasures _ m).mono (by decide))

theorem anyWinter_same (h : Area.parts.same s t) : anyWinter t = anyWinter s := by simp only [anyWinter, State.part, show t.objs.parts = s.objs.parts from h]

/-- The clock is not changed in a module with a Winter partition (R465). -/
theorem clock_arbiter (m : PowerMeas) {cap w : Nat} (h : anyWinter s = true) :
    (stepClock (stepUnmet (levelled cap m (capped m s)) cap w) cap w).raw ⟨.clkStatus, 0, 0⟩ = s.raw ⟨.clkStatus, 0, 0⟩ := by
  have hp : Area.parts.same s (stepUnmet (levelled cap m (capped m s)) cap w) := unmet_capped_only m cap w s .parts (by decide)
  refine (raw_congr (regs_stepClock_of_winter ((anyWinter_same hp).trans h) cap w) _).trans ?_
  rw [regsBut_stepUnmet _ cap w ⟨.clkStatus, 0, 0⟩ (by decide) (by decide) (by decide),
    regsBut_levelled cap m _ ⟨.clkStatus, 0, 0⟩ (by decide) (by decide) (by decide),
    regsBut_capped m s ⟨.clkStatus, 0, 0⟩ (by decide) (by decide) (by decide)]

/-! ### Changes of clock level, the emergency hold, and the management cap -/

theorem endSlew_only (s : State) : Only [.registers, .power] s (endSlew s) := only_of_within (within_endSlew s (Within.refl s) rfl)

/-- The end of a slew (R466). -/
theorem endSlew_fields (h : s.fld fClkStatusSlewing 0 0 = 1) :
    (endSlew s).fld fClkStatusLevel 0 0 = s.fld fClkStatusTarget 0 0 ∧ (endSlew s).fld fClkStatusSlewing 0 0 = 0 ∧
    (endSlew s).fld fClkStatusRootMhz 0 0 = rootMhz (s.fld fClkStatusTarget 0 0) ∧ Counted s (endSlew s) fPwrThrottleLevelChanges 0 0 1 := by
  have ht : s.fld fClkStatusTarget 0 0 < 16 := fld_lt s fClkStatusTarget 0 0
  have hm : rootMhz (s.fld fClkStatusTarget 0 0) < 2 ^ 16 := by unfold rootMhz; omega
  unfold endSlew
  rw [if_neg (by rw [h]; decide)]
  have hp (x : Power) (u : State) (f : RField) : ({ u with power := x } : State).fld f 0 0 = u.fld f 0 0 := rfl
  refine ⟨?_, ?_, ?_, ?_⟩
  · simp (disch := decide) only [hp, fld_bump_name, fld_setFld_apart, fld_setFld_same]
    exact Nat.mod_eq_of_lt ht
  · simp (disch := decide) only [hp, fld_bump_name, fld_setFld_same]
    rfl
  · simp (disch := decide) only [hp, fld_bump_name, fld_setFld_apart, fld_setFld_same]
    exact Nat.mod_eq_of_lt hm
  · simp (disch := decide) only [Counted, hp, fld_bump_same, fld_setFld_name]

/-- The emergency hold begins (R468). -/
theorem emergencyHold_begins (h : s.fld fPwrStatusEmergency 0 0 = 0) (hr : running s = true) : exec .emergencyHold s =
    .next ((s.setFld fPwrStatusEmergency 0 0 1).bump fPwrThrottleEmergencyEvents 0 0 1) := congrArg Host.Outcome.next (if_neg (by simp [h, hr]))

theorem setPower_only (s : State) (x : Power) : Only [.power] s { s with power := x } := by
  intro a ha
  cases a
  case power => exact absurd (.head _) ha
  all_goals rfl

/-- The endpoint takes a cap from 5 ms (R444). -/
theorem mgmtCap_up (h : running s = true) (hn : 5000000 ≤ s.now) : ¬(((!running s) || decide (s.now < 5000000)) = true) := by
  simp [h, hn]

/-- Settles O48, with the parts of a control period: what each leaves of the registers, and the levels that it steps. -/
theorem powerControl : Obligations.PowerControl := by
  unfold Obligations.PowerControl
  refine ⟨fun m s h => ⟨?_, ?_, ?_⟩, fun m s h => ⟨_, arbiterPeriod_eq m h, ?_, ?_, ?_, fun n hn => hold_arbiter m s _ _ hn,
      (caps_arbiter m s _ _).1, (caps_arbiter m s _ _).2, fun hw => clock_arbiter m hw, ?_⟩,
    fun s h hslew => ?_, fun s h => ⟨fun he => ⟨_, emergencyHold_begins he h, ?_, ?_, ?_⟩, fun he => ?_⟩,
    fun w s h hnow hm => ⟨fun h1 h2 => ?_, fun hw => ?_⟩, fun w s => ⟨fun h => ?_, fun h hnow hm => ?_⟩⟩
  · exact congrArg Host.Outcome.next (if_pos (by simp [h]))
  · exact congrArg Host.Outcome.next (if_neg (by simp [h]))
  · exact congrArg Host.Outcome.next (if_pos (by simp [h]))
  · rw [status_arbiter m s _ _ (by decide)]
    exact capW_capped m s
  · rw [status_arbiter m s _ _ (by decide)]
    exact fld_setFld_same _ fPwrStatusEmergency 0 0 0 (by decide) (by decide)
  · rw [status_arbiter m s _ _ (by decide)]
    exact inputW_capped m s
  · exact arbiter_only m s _ _
  · obtain ⟨h1, h2, h3, h4⟩ := endSlew_fields hslew
    exact ⟨_, congrArg Host.Outcome.next (if_pos h), h1, h2, h3, h4, endSlew_only s⟩
  · simp (disch := decide) only [fld_bump_name, fld_setFld_same]
    rfl
  · simp (disch := decide) only [Counted, fld_bump_same, fld_setFld_name]
  · exact only_of_within (within_bump _ _ _ _ _ (within_setFld _ _ _ _ _ (Within.refl s) rfl) rfl)
  · exact congrArg Host.Outcome.next (if_pos (by simp [he]))
  · exact ⟨_, congrArg Host.Outcome.next ((if_neg (mgmtCap_up h hnow)).trans ((if_neg hm).trans (if_neg (by simp [Machine.within, h1, h2])))), rfl, rfl,
      (setPower_only s _).trans (mgmtAnswer_only _ _) (by decide) (by decide)⟩
  · refine ⟨_, congrArg Host.Outcome.next ((if_neg (mgmtCap_up h hnow)).trans ((if_neg hm).trans (if_pos ?_))), rfl, ?_⟩
    · simp only [Machine.within, Bool.not_eq_true', Bool.and_eq_false_iff, decide_eq_false_iff_not, Nat.not_le]
      exact hw.imp_right id
    · exact mgmtAnswer_only s _
  · refine congrArg Host.Outcome.next (if_pos ?_)
    simpa using h
  · exact congrArg Host.Outcome.next ((if_neg (mgmtCap_up h hnow)).trans (if_pos hm))

end Sys2Proof.Machine
end

section
/-! SENSOR_READ and SUPPLY_TRIP (R67, R470, R473, R488). -/

namespace Sys2Proof.Machine

variable {s t : State}

/-- The copies of a stack's registers are apart. -/
theorem stackCopy_ne {g h : Nat} (hne : g ≠ h) : g / 3 ≠ h / 3 ∨ g % 3 ≠ h % 3 := by omega

theorem stackCopy_lt {g : Nat} (hg : g < 24) : g / 3 < 64 ∧ g % 3 < 1024 := by omega

/-- A stack's refresh after a round of readings is stepped for it alone. -/
theorem refDouble_stepRefresh_ne {g h : Nat} (hg : g < 24) (hh : h < 24) (hne : h ≠ g) (last now : List Byte) (s : State) :
    (stepRefresh s last now h).fld fHbmStatusRefDouble (g / 3) (g % 3) = s.fld fHbmStatusRefDouble (g / 3) (g % 3) := by
  have h0 (v : Nat) := fld_setFld_reg s (f := fHbmStatusRefDouble) (g := fHbmStatusRefDouble) v (stackCopy_lt hh) (stackCopy_lt hg) (.inr (stackCopy_ne hne))
  exact fld_ite (h0 1) (fld_ite (h0 0) rfl)

/-- Two rounds above 85 °C double a stack's refresh (R67, R470). -/
theorem refDouble_stepRefresh {last now : List Byte} {g : Nat} (h : stackTwice last now (fun t => decide (85 < t)) g = true) (s : State) :
    (stepRefresh s last now g).fld fHbmStatusRefDouble (g / 3) (g % 3) = 1 := by
  rw [stepRefresh, if_pos h]
  exact fld_setFld_same s fHbmStatusRefDouble _ _ 1 (by decide) (by decide)

/-- The state that a round of readings shows, with the sections that ignore sensors and the stacks' refresh stepped. -/
def sensed (dies : List Half) (temps : List Byte) (s : State) : State :=
  forEach (upTo 24) (forEach (upTo 8) (showReadings s dies temps) (fun n u => stepIgnored u n)) (fun g u => stepRefresh u s.power.stackLast temps g)

theorem sensed_only (dies : List Half) (temps : List Byte) (s : State) : Only [.registers, .functions, .care, .power] s (sensed dies temps s) :=
  only_of_within (within_forEach (within_forEach (within_showReadings _ _ _ (Within.refl s) rfl) fun _ _ h => within_stepIgnored _ _ h rfl)
    fun _ _ h => within_stepRefresh _ _ _ _ h rfl)

theorem refDouble_sensed {dies : List Half} {temps : List Byte} {g : Nat} (hg : g < 24)
    (h : stackTwice s.power.stackLast temps (fun t => decide (85 < t)) g = true) :
    (sensed dies temps s).fld fHbmStatusRefDouble (g / 3) (g % 3) = 1 := by
  have hl : g ∈ upTo 24 := List.mem_range.2 hg
  refine (forEach_get (π := fun u : State => u.fld fHbmStatusRefDouble (g / 3) (g % 3)) (refDouble_stepRefresh h)
    (fun k hk hne t => refDouble_stepRefresh_ne hg (List.mem_range.1 hk) hne _ _ t) _).trans (if_pos hl)

/-- Settles O49, with the loop over the stacks' refresh; a trip leaves a record of literals. -/
theorem sensorsAndTrips : Obligations.SensorsAndTrips := by
  unfold Obligations.SensorsAndTrips
  refine ⟨fun dies temps kind mV recorded s h => ⟨congrArg Host.Outcome.next (if_pos (by simp [h])), congrArg Host.Outcome.next (if_pos (by simp [h]))⟩,
    fun dies temps s h => ⟨fun hn => ⟨{ sensed dies temps s with power := { (sensed dies temps s).power with
      dieLast := dies, stackLast := temps, hot := (upTo 8).filter (sectionHot s dies temps), cool := (upTo 8).filter (sectionCool s dies temps) } },
      ?_, rfl, rfl, rfl, fun g a b hg ha hb h1 h2 => ?_, ?_⟩, fun w hw => ?_⟩,
    fun mV recorded s h => ⟨fun hm => ?_, fun hm => ?_, ?_, fun hm => ?_, fun hm => ?_⟩⟩
  · refine congrArg Host.Outcome.next ((if_neg (by simp [h])).trans ?_)
    rw [hn]
    rfl
  · refine refDouble_sensed (dies := dies) hg ?_
    rw [stackTwice, ha, hb]
    simp [h1, h2]
  · exact (sensed_only dies temps s).trans (setPower_only _ _) (fun _ h => h) (by decide)
  · refine ⟨trip s (some w), congrArg Host.Outcome.next ((if_neg (by simp [h])).trans ?_), rfl, rfl, rfl, rfl, rfl, rfl⟩
    rw [hw]
  · refine ⟨_, congrArg Host.Outcome.next ((if_neg (by simp [h])).trans (if_neg (Nat.not_le.2 hm))), rfl, rfl, ?_, rfl⟩
    cases recorded <;> rfl
  · refine ⟨_, congrArg Host.Outcome.next ((if_neg (by simp [h])).trans (if_neg (Nat.not_le.2 hm))), rfl, rfl, ?_, rfl⟩
    cases recorded <;> rfl
  · exact ⟨_, congrArg Host.Outcome.next (if_neg (by simp [h])), rfl, rfl⟩
  · exact congrArg Host.Outcome.next ((if_neg (by simp [h])).trans (if_pos hm))
  · exact congrArg Host.Outcome.next ((if_neg (by simp [h])).trans (if_pos hm))

end Sys2Proof.Machine
end

section
/-! HOLD_START, HOLD_END and HOLD_LIMIT_REPORT (R244 to R248, R253, R382). -/

namespace Sys2Proof.Machine

variable {s t : State}

/-! ### Frame boundaries -/

theorem frameUp_dvd (a : Nat) : 12 ∣ frameUp a := ⟨ceilDiv a 12, Nat.mul_comm _ _⟩

theorem le_frameUp (a : Nat) : a ≤ frameUp a ∧ frameUp a < a + 12 := by
  unfold frameUp ceilDiv
  omega

/-- The first cause's A-cycle: a cause has it, and no cause is before it, by induction on the list. -/
theorem firstCause (l : List HoldCause) (a : Nat) :
    let m := l.foldl (fun m d => min m d.since) a
    m ≤ a ∧ (∀ c ∈ l, m ≤ c.since) ∧ (m = a ∨ ∃ c ∈ l, c.since = m) := by
  intro m
  induction l generalizing a with
  | nil => exact ⟨Nat.le_refl _, fun c h => (nomatch h), Or.inl rfl⟩
  | cons d l ih =>
    obtain ⟨h1, h2, h3⟩ := ih (min a d.since)
    refine ⟨Nat.le_trans h1 (Nat.min_le_left _ _), fun c hc => ?_, ?_⟩
    · cases hc with
      | head => exact Nat.le_trans h1 (Nat.min_le_right _ _)
      | tail _ hc => exact h2 c hc
    · cases h3 with
      | inl e =>
        rcases Nat.le_total a d.since with ha | ha
        · exact .inl (e.trans (Nat.min_eq_left ha))
        · exact .inr ⟨d, .head _, (e.trans (Nat.min_eq_right ha)).symm⟩
      | inr e =>
        obtain ⟨c, hc, he⟩ := e
        exact .inr ⟨c, .tail _ hc, he⟩

/-- The boundary at which a hold begins is the first at or after its first cause (R246). -/
theorem holdBoundary_spec {x : Part} {n : Nat} (h : holdBoundary x = some n) :
    12 ∣ n ∧ (∃ c ∈ x.causes, c.since ≤ n) ∧ ∀ c ∈ x.causes, n < c.since + 12 := by
  unfold holdBoundary at h
  split at h
  · exact nomatch h
  next c l hx =>
    obtain ⟨h1, h2, h3⟩ := firstCause l c.since
    obtain ⟨hle, hlt⟩ := le_frameUp (l.foldl (fun m d => min m d.since) c.since)
    generalize l.foldl (fun m d => min m d.since) c.since = m at *
    rw [hx]
    obtain rfl := Option.some.inj h
    refine ⟨frameUp_dvd _, ?_, fun d hd => ?_⟩
    · cases h3 with
      | inl e => exact ⟨c, .head _, by rw [← e]; exact hle⟩
      | inr e =>
        obtain ⟨d, hd, he⟩ := e
        exact ⟨d, .tail _ hd, by rw [he]; exact hle⟩
    · cases hd with
      | head => omega
      | tail _ hd =>
        have := h2 d hd
        omega

theorem holdStartOp_eq (p : Nat) (s : State) : holdStartOp p s =
    if !(s.part p).present || !(s.part p).winter || (s.part p).held || !holdBegun (s.part p) (aCycles s) then s
    else s.modPart p (fun x => {
      x with held := true, holdStart := (holdBoundary (s.part p)).getD 0, causes := x.causes.map (causeFrom ((holdBoundary (s.part p)).getD 0)) }) := by
  unfold holdStartOp
  rfl

/-- A hold that may not begin. -/
theorem not_may : ∀ a b c d : Bool, (a && b && !c && d) = false → (!a || !b || c || !d) = true := by decide

/-- A hold that has begun without being noted has a boundary that the clock has reached. -/
theorem holdBoundary_of_begun {x : Part} {now : Nat} (hx : x.held = false) (h : holdBegun x now = true) : ∃ n, holdBoundary x = some n ∧ n ≤ now := by
  rw [holdBegun, hx, Bool.false_or] at h
  split at h
  next n hn => exact ⟨n, hn, of_decide_eq_true h⟩
  · exact nomatch h

/-! ### The counts of a hold -/

/-- What counts stays counted where the registers do. -/
theorem Counted.after {u : State} {f : RField} {i j n : Nat} (h : Counted s t f i j n) (hr : Area.registers.same t u) : Counted s u f i j n :=
  (fld_congr hr f i j).trans h

/-- The fields that count the causes of holds stand apart (R253). -/
theorem causeField_apart : ∀ a n : Fin 8, a ≠ n → 1 ≤ a.val → 1 ≤ n.val →
    (causeField a).reg ≠ (causeField n).reg ∨ FieldsApart (causeField a) (causeField n) := by decide

theorem causeField_form : ∀ n : Fin 8, (causeField n).lo ≤ (causeField n).hi ∧ (causeField n).hi < 64 ∧
    (causeField n).reg ≠ .rplWork ∧ (causeField n).reg ≠ .rplHeld := by decide

theorem fld_bump_causeField (s : State) {p a n k : Nat} (hp : p < 64) (ha : 1 ≤ a ∧ a < 8) (hn : 1 ≤ n ∧ n < 8) (h : a ≠ n) :
    (s.bump (causeField a) p 0 k).fld (causeField n) p 0 = s.fld (causeField n) p 0 := by
  cases causeField_apart ⟨a, ha.2⟩ ⟨n, hn.2⟩ (fun e => h (Fin.mk.inj e)) ha.1 hn.1 with
  | inl hr => exact fld_bump_name s k hr ⟨hp, by decide⟩ ⟨hp, by decide⟩
  | inr hf => exact fld_bump_apart s p 0 k hf

/-- The cycles of each cause of a hold are counted (R247, R253). -/
def countCauses (x : Part) (p : Nat) (s : State) : State :=
  forEach (spanOf 1 7) s (fun n t =>
    t.bump (causeField n) p 0 (coveredCycles ((x.causes.filter (fun c => c.field == n)).map (causeSpan x.holdStart))))

theorem mem_causes {n : Nat} : n ∈ spanOf 1 7 ↔ 1 ≤ n ∧ n < 8 := mem_spanOf

theorem countCauses_counted (x : Part) {p n : Nat} (hp : p < 64) (hn : 1 ≤ n ∧ n < 8) (s : State) :
    Counted s (countCauses x p s) (causeField n) p 0 (coveredCycles ((x.causes.filter (fun c => c.field == n)).map (causeSpan x.holdStart))) := by
  obtain ⟨hlo, hhi, _⟩ := causeField_form ⟨n, hn.2⟩
  unfold Counted countCauses
  generalize hk : (fun a => coveredCycles ((x.causes.filter (fun c => c.field == a)).map (causeSpan x.holdStart))) = k
  have hkn (a : Nat) : coveredCycles ((x.causes.filter (fun c => c.field == a)).map (causeSpan x.holdStart)) = k a := congrFun hk a
  simp only [hkn]
  exact forEach_at (g := fun a t => t.bump (causeField a) p 0 (k a)) (π := fun t => t.fld (causeField n) p 0)
    (φ := fun v => min (v + k n) (2 ^ ((causeField n).hi + 1 - (causeField n).lo) - 1)) (by decide) (mem_causes.2 hn)
    (fun t => fld_bump_same t (causeField n) p 0 _ hlo hhi) (fun a ha hne t => fld_bump_causeField t hp (mem_causes.1 ha) hn hne) s

theorem fld_countCauses (x : Part) {p : Nat} (hp : p < 64) {f : RField} (hf : f.reg = .rplWork ∨ f.reg = .rplHeld) (s : State) :
    (countCauses x p s).fld f p 0 = s.fld f p 0 := by
  refine forEach_keeps (π := fun t => t.fld f p 0) (fun a ha t => fld_bump_name t _ ?_ ⟨hp, by decide⟩ ⟨hp, by decide⟩) s
  obtain ⟨_, _, hw, hh⟩ := causeField_form ⟨a, (mem_causes.1 ha).2⟩
  cases hf with
  | inl e => rw [e]; exact hw
  | inr e => rw [e]; exact hh

/-- The registers that the end of a hold leaves: its cycles and those after its end are counted (R244, R248). -/
def holdCounted (x : Part) (p : Nat) (s : State) : State :=
  countCauses x p ((s.bump fRplWorkWorkCycles p 0 (aCycles s - holdStop x)).bump fRplHeldHeldCycles p 0 (holdStop x - x.holdStart))

theorem holdCounted_only (x : Part) (p : Nat) (s : State) : Only [.registers] s (holdCounted x p s) :=
  only_of_within (within_forEach (within_bump _ _ _ _ _ (within_bump _ _ _ _ _ (Within.refl s) rfl) rfl) fun _ _ h => within_bump _ _ _ _ _ h rfl)

/-- A partition after its hold has ended at `now` (R246, R248). -/
def holdEnded (stop now : Nat) (y : Part) : Part :=
  { y with held := false, causes := [], heldTotal := y.heldTotal + (stop - y.holdStart), workPrev := y.work, work := y.work + (now - stop) }

theorem holdEndOp_eq (p : Nat) (s : State) : holdEndOp p s =
    if !(s.part p).held || (s.part p).causes.any (fun c => c.length.isNone) || decide (aCycles s < holdStop (s.part p)) then s
    else (holdCounted (s.part p) p s).modPart p (holdEnded (holdStop (s.part p)) (aCycles (holdCounted (s.part p) p s))) := by
  have hd : forEach (spanOf 1 7) ((s.bump fRplWorkWorkCycles p 0 (aCycles s - holdStop (s.part p))).bump fRplHeldHeldCycles p 0
      (holdStop (s.part p) - (s.part p).holdStart)) (fun n t => t.bump (causeField n) p 0 (coveredCycles (((s.part p).causes.filter
      (fun c => c.field == n)).map (causeSpan (s.part p).holdStart)))) = holdCounted (s.part p) p s := rfl
  unfold holdEndOp
  dsimp only
  rw [hd]
  generalize holdCounted (s.part p) p s = u
  rfl

theorem part_holdCounted (x : Part) (p k : Nat) (s : State) : (holdCounted x p s).part k = s.part k :=
  congrArg (fun o => tabGet ({} : Part) o k) (holdCounted_only x p s .parts (by decide))

theorem aCycles_holdCounted (x : Part) (p : Nat) (s : State) : aCycles (holdCounted x p s) = aCycles s :=
  congrArg (fun m : Module => m.rootCycles / 4) (holdCounted_only x p s .module (by decide))

/-- A hold whose causes have ended ends at the boundary after them. -/
theorem holdEnd_eq {p : Nat} {x : Part} (hp : s.part p = x) (hx : x.held = true) (hc : ∀ c ∈ x.causes, c.length ≠ none) (hs : holdStop x ≤ aCycles s) :
    holdEndOp p s = (holdCounted x p s).setPart p (holdEnded (holdStop x) (aCycles s) x) := by
  rw [holdEndOp_eq, hp, if_neg, modPart_eq, part_holdCounted, aCycles_holdCounted, hp]
  simp only [hx, Bool.not_true, Bool.false_or, Bool.or_eq_true, List.any_eq_true, decide_eq_true_eq, not_or]
  exact ⟨fun ⟨c, hm, hl⟩ => hc c hm (Option.isNone_iff_eq_none.1 hl), Nat.not_lt.2 hs⟩

theorem workCycles_holdCounted (x : Part) {p : Nat} (hp : p < 64) (s : State) :
    Counted s (holdCounted x p s) fRplWorkWorkCycles p 0 (aCycles s - holdStop x) := by
  refine (fld_countCauses x hp (.inl rfl) _).trans ?_
  exact (fld_bump_name _ (f := fRplHeldHeldCycles) (g := fRplWorkWorkCycles) _ (by decide) ⟨hp, by decide⟩ ⟨hp, by decide⟩).trans
    (fld_bump_same s fRplWorkWorkCycles p 0 _ (by decide) (by decide))

theorem heldCycles_holdCounted (x : Part) {p : Nat} (hp : p < 64) (s : State) :
    Counted s (holdCounted x p s) fRplHeldHeldCycles p 0 (holdStop x - x.holdStart) := by
  refine (fld_countCauses x hp (.inr rfl) _).trans ((fld_bump_same _ fRplHeldHeldCycles p 0 _ (by decide) (by decide)).trans ?_)
  rw [fld_bump_name _ _ (by decide) ⟨hp, by decide⟩ ⟨hp, by decide⟩]

theorem cause_holdCounted (x : Part) {p n : Nat} (hp : p < 64) (hn : 1 ≤ n ∧ n < 8) (s : State) :
    Counted s (holdCounted x p s) (causeField n) p 0 (coveredCycles ((x.causes.filter (fun c => c.field == n)).map (causeSpan x.holdStart))) := by
  obtain ⟨_, _, hw, hh⟩ := causeField_form ⟨n, hn.2⟩
  refine (countCauses_counted x hp hn _).trans ?_
  rw [fld_bump_name _ _ hh.symm ⟨hp, by decide⟩ ⟨hp, by decide⟩, fld_bump_name _ _ hw.symm ⟨hp, by decide⟩ ⟨hp, by decide⟩]

/-- A cause that is active beyond its limit (R253). -/
def LimitDue (s : State) (p k : Nat) : Prop := (s.part p).held = true ∧ ∃ c ∈ (s.part p).causes, c.field = k ∧ ∀ n, c.length = some n → aCycles s < c.since + n

theorem limitDue_iff {p k : Nat} : LimitDue s p k ↔ ((s.part p).held && (s.part p).causes.any (fun c => c.field == k &&
    (match c.length with | some n => decide (aCycles s < c.since + n) | none => true))) = true := by
  simp only [LimitDue, Bool.and_eq_true, List.any_eq_true, beq_iff_eq]
  refine and_congr_right fun _ => exists_congr fun c => and_congr_right fun _ => and_congr_right fun _ => ?_
  cases c.length with
  | none => exact ⟨fun _ => rfl, fun _ _ h => nomatch h⟩
  | some n => exact ⟨fun h => decide_eq_true (h n rfl), fun h m hm => by obtain rfl := Option.some.inj hm; exact of_decide_eq_true h⟩

/-- Settles O43, with the first cause of a hold for its boundary, and the seven counts of its causes. -/
theorem winterHolds : Obligations.WinterHolds := by
  unfold Obligations.WinterHolds
  refine ⟨fun p s => ?start, fun p s => ?end_, fun p cause s => ?limit⟩
  case start =>
    dsimp only
    generalize hxe : s.part p.val = x
    refine ⟨fun h => ?_, fun h => ?_⟩
    · refine congrArg Host.Outcome.next ((holdStartOp_eq p.val s).trans (if_pos ?_))
      rw [hxe]
      exact not_may _ _ _ _ h
    · simp only [Bool.and_eq_true, Bool.not_eq_true'] at h
      obtain ⟨⟨⟨hpres, hwin⟩, hheld⟩, hbegun⟩ := h
      obtain ⟨n, hn, hle⟩ := holdBoundary_of_begun hheld hbegun
      obtain ⟨hd, hc, hl⟩ := holdBoundary_spec hn
      obtain ⟨h1, h2, h3⟩ := setPart_frame s p.val { x with held := true, holdStart := n, causes := x.causes.map (causeFrom n) }
      refine ⟨_, congrArg Host.Outcome.next ((holdStartOp_eq p.val s).trans ((if_neg ?_).trans ?_)), ?_, h2, h3⟩
      · simp [hxe, hpres, hwin, hheld, hbegun]
      · rw [modPart_eq, hxe, hn]
        rfl
      · rw [h1]
        exact ⟨rfl, hd, hle, hc, hl⟩
  case end_ =>
    dsimp only
    generalize hxe : s.part p.val = x
    refine ⟨fun h => ?_, fun hx hc hs => ?_⟩
    · refine congrArg Host.Outcome.next ((holdEndOp_eq p.val s).trans (if_pos ?_))
      simp only [hxe, Bool.or_eq_true, Bool.not_eq_true', List.any_eq_true, decide_eq_true_eq, Option.isNone_iff_eq_none]
      rcases h with h | ⟨c, hm, hl⟩ | h
      · exact .inl (.inl h)
      · exact .inl (.inr ⟨c, hm, hl⟩)
      · exact .inr h
    · have hp : p.val < 64 := Nat.lt_trans p.isLt (by decide)
      obtain ⟨h1, h2, h3⟩ := setPart_frame (holdCounted x p.val s) p.val (holdEnded (holdStop x) (aCycles s) x)
      have hr : Area.registers.same (holdCounted x p.val s) _ := h3 .registers (by decide)
      exact ⟨_, congrArg Host.Outcome.next (holdEnd_eq hxe hx hc hs), h1, (heldCycles_holdCounted x hp s).after hr, (workCycles_holdCounted x hp s).after hr,
        fun n hn1 hn7 => (cause_holdCounted x hp ⟨hn1, Nat.lt_succ_of_le hn7⟩ s).after hr, fun k hk => (h2 k hk).trans (part_holdCounted x p.val k s),
        (holdCounted_only x p.val s).trans h3 (by decide) (by decide)⟩
  case limit =>
    refine ⟨fun h => ⟨_, congrArg Host.Outcome.next (if_pos (limitDue_iff.1 h)), ?_, ?_⟩, fun h => congrArg Host.Outcome.next (if_neg fun hn => h (limitDue_iff.2 hn))⟩
    · refine ((regsBut_postPart _ _ _ _ (by decide)).fld (rs := [.mbxOutStatus]) (by decide) (Nat.lt_trans p.isLt (by decide)) (by decide)).trans ?_
      exact fld_bump_same s fRplSchedLimitReports _ _ 1 (by decide) (by decide)
    · exact only_of_within (within_postPart _ _ _ _ (within_bump _ _ _ _ _ (Within.refl s) rfl) rfl)

end Sys2Proof.Machine
end

section
/-! NEGOTIATE_RESEND, HEARTBEAT_SEND and HEARTBEAT_TIMEOUT (R14, R283, R286, R288, R290, R296). -/

namespace Sys2Proof.Machine

variable {s t : State} {l : Nat}

/-! ### Records that a link sends -/

theorem sendKind_links (s : State) (l kind : Nat) : (sendKind s l kind).out.links = s.out.links ++ [(l, recordFlit s l (linkRecord s l kind))] := rfl

theorem link_sendKind (s : State) (l kind k : Nat) : (sendKind s l kind).link k = s.link k := rfl

theorem sendKind_only (s : State) (l kind : Nat) : Only [.out] s (sendKind s l kind) := only_of_within (within_sendKind s l kind (Within.refl s) rfl)

/-- The DEGRADE that an end sends until its partner has moved (R288). -/
def degradeSent (s : State) (l : Nat) : State :=
  if takesRecords s l && linkState s l != 7 && (s.link l).lanesMove then sendKind s l 4 else s

theorem degradeSent_links (s : State) (l : Nat) : (degradeSent s l).out.links = s.out.links ++
    (if takesRecords s l && linkState s l != 7 && (s.link l).lanesMove then [(l, recordFlit s l (linkRecord s l 4))] else []) := by
  unfold degradeSent
  split
  · rfl
  · exact (List.append_nil _).symm

theorem degradeSent_only (s : State) (l : Nat) : Only [.out] s (degradeSent s l) :=
  ite_holds (P := Only [.out] s) (sendKind_only s l 4) (Only.refl _ s)

/-- What sending a DEGRADE leaves of a link, of its state, of the record that follows, and of its module. -/
theorem degradeSent_same (s : State) (l : Nat) : linkState (degradeSent s l) l = linkState s l ∧ (degradeSent s l).link l = s.link l ∧
    moduleReady (degradeSent s l) l = moduleReady s l ∧
    ∀ k, recordFlit (degradeSent s l) l (linkRecord (degradeSent s l) l k) = recordFlit s l (linkRecord s l k) :=
  ite_holds (P := fun t => linkState t l = linkState s l ∧ t.link l = s.link l ∧ moduleReady t l = moduleReady s l ∧
    ∀ k, recordFlit t l (linkRecord t l k) = recordFlit s l (linkRecord s l k)) ⟨rfl, rfl, rfl, fun _ => rfl⟩ ⟨rfl, rfl, rfl, fun _ => rfl⟩

theorem degradeSent_of_fenced (h : linkState s l = 7) : degradeSent s l = s := if_neg (by simp [h])

/-- A living link's negotiation timer, by the link's state (R283, R286, R288, R296). -/
theorem negotiateResend_eq {l : LinkId} (h : linkAlive s l.val = true) : exec (.negotiateResend l) s = .next
    (match linkState s l.val with
    | 2 => sendKind (degradeSent s l.val) l.val (if moduleReady s l.val then 1 else 2)
    | 3 => (sendKind (degradeSent s l.val) l.val (if moduleReady s l.val then 1 else 2)).modLink l.val
        (fun x => { x with backoffMs := min 64 (2 * x.backoffMs) })
    | 7 => if (s.link l.val).partnerFenced then s else sendKind s l.val 5
    | _ => degradeSent s l.val) := by
  obtain ⟨h1, h2, h3, _⟩ := degradeSent_same s l.val
  refine congrArg Host.Outcome.next ((if_neg (by simp [h])).trans ?_)
  show (match linkState (degradeSent s l.val) l.val with
    | 2 => sendKind (degradeSent s l.val) l.val (if moduleReady (degradeSent s l.val) l.val then 1 else 2)
    | 3 => (sendKind (degradeSent s l.val) l.val (if moduleReady (degradeSent s l.val) l.val then 1 else 2)).modLink l.val
        (fun x => { x with backoffMs := min 64 (2 * x.backoffMs) })
    | 7 => if ((degradeSent s l.val).link l.val).partnerFenced then degradeSent s l.val else sendKind (degradeSent s l.val) l.val 5
    | _ => degradeSent s l.val) = _
  rw [h1, h2, h3]
  split
  · rfl
  · rfl
  next h7 => rw [degradeSent_of_fenced h7]
  · rfl

/-- A record after the DEGRADE. -/
theorem sendKind_degradeSent (s : State) (l kind : Nat) : (sendKind (degradeSent s l) l kind).out.links = s.out.links ++
    (if takesRecords s l && linkState s l != 7 && (s.link l).lanesMove then [(l, recordFlit s l (linkRecord s l 4))] else []) ++
    [(l, recordFlit s l (linkRecord s l kind))] := by
  rw [sendKind_links, degradeSent_links, (degradeSent_same s l).2.2.2 kind]

theorem sendKind_degradeSent_only (s : State) (l kind : Nat) : Only [.out] s (sendKind (degradeSent s l) l kind) :=
  (degradeSent_only s l).trans (sendKind_only _ l kind) (by decide) (by decide)

/-! ### Heartbeats -/

/-- The link after it has counted a heartbeat of its own (R14, R290). -/
def hbStepped (x : Link) : Link := { x with hbCount := min (x.hbCount + 1) (2 ^ 32 - 1) }

theorem heartbeatSend_eq {l : LinkId} (h : linkAlive s l.val = true) (hs : [3, 4, 5, 7].contains (linkState s l.val) = true) :
    exec (.heartbeatSend l) s = .next (sendKind (s.modLink l.val hbStepped) l.val 3) :=
  congrArg Host.Outcome.next (if_pos (by rw [h, hs]; rfl))

/-- The heartbeat that a link sends carries the count stepped. -/
theorem heartbeat_flit (s : State) (l : Nat) : recordFlit (s.modLink l hbStepped) l (linkRecord (s.modLink l hbStepped) l 3) =
    recordFlit s l { linkRecord s l 3 with hbCount := BitVec.ofNat 32 (min ((s.link l).hbCount + 1) (2 ^ 32 - 1)) } := by
  unfold recordFlit linkRecord
  rw [link_modLink]
  rfl

/-- The intervals that a missing heartbeat adds to those counted (R298). -/
def hbLost (x : Link) : Link := { x with hbCounted := x.hbCounted + 3 }

theorem linkTakes_of_state (h : linkState s l = 4 ∨ linkState s l = 5) : linkTakes s l = true := by
  unfold linkTakes
  rcases h with h | h <;> rw [h] <;> rfl

/-- An UP link without a heartbeat becomes SILENT (R290). -/
theorem heartbeatLost_of_up (h : linkState s l = 4) : heartbeatLost s l =
    postBoth (setLinkState (((s.modLink l hbLost).bump fLnkTrainHbMissed (l / 8) (l % 8) 3).bump fLnkTrainSilentEvents (l / 8) (l % 8) 1) l 5)
      (linkPart s l) 0xE4 (l * 2 ^ 42) := by
  unfold heartbeatLost
  rw [if_pos (linkTakes_of_state (.inl h))]
  show (match linkState s l with | 4 => _ | 5 => _ | _ => _) = _
  rw [h]
  rfl

theorem heartbeatLost_of_silent (h : linkState s l = 5) : heartbeatLost s l = (s.modLink l hbLost).bump fLnkTrainHbMissed (l / 8) (l % 8) 3 := by
  unfold heartbeatLost
  rw [if_pos (linkTakes_of_state (.inr h))]
  show (match linkState s l with | 4 => _ | 5 => _ | _ => _) = _
  rw [h]
  rfl

theorem heartbeatLost_of_not_takes (h : linkTakes s l = false) : heartbeatLost s l = s := by
  have h4 : linkState s l ≠ 4 := fun e => by rw [linkTakes_of_state (.inl e)] at h; exact nomatch h
  have h5 : linkState s l ≠ 5 := fun e => by rw [linkTakes_of_state (.inr e)] at h; exact nomatch h
  unfold heartbeatLost
  rw [if_neg (by rw [h]; decide)]
  dsimp only
  split
  next e => exact absurd e h4
  next e => exact absurd e h5
  · rfl

/-- The link after its back-off has been doubled (R286). -/
def backedOff (x : Link) : Link := { x with backoffMs := min 64 (2 * x.backoffMs) }

theorem resend_negotiating {l : LinkId} (h : linkAlive s l.val = true) (h2 : linkState s l.val = 2) :
    exec (.negotiateResend l) s = .next (sendKind (degradeSent s l.val) l.val (if moduleReady s l.val then 1 else 2)) :=
  (negotiateResend_eq h).trans (by rw [h2]; rfl)

theorem resend_notReady {l : LinkId} (h : linkAlive s l.val = true) (h3 : linkState s l.val = 3) :
    exec (.negotiateResend l) s = .next ((sendKind (degradeSent s l.val) l.val (if moduleReady s l.val then 1 else 2)).modLink l.val backedOff) :=
  (negotiateResend_eq h).trans (by rw [h3]; rfl)

theorem resend_fenced {l : LinkId} (h : linkAlive s l.val = true) (h7 : linkState s l.val = 7) :
    exec (.negotiateResend l) s = .next (if (s.link l.val).partnerFenced then s else sendKind s l.val 5) :=
  (negotiateResend_eq h).trans (by rw [h7]; rfl)

theorem resend_other {l : LinkId} (h : linkAlive s l.val = true) (hn : linkState s l.val ∉ [2, 3, 7]) :
    exec (.negotiateResend l) s = .next (degradeSent s l.val) := by
  refine (negotiateResend_eq h).trans ?_
  simp only [List.mem_cons, List.not_mem_nil, or_false, not_or] at hn
  obtain ⟨h2, h3, h7⟩ := hn
  split
  next e => exact absurd e h2
  next e => exact absurd e h3
  next e => exact absurd e h7
  · rfl

/-- What the loss of an UP link's heartbeat leaves (R290, R298). -/
theorem heartbeatLost_up (hl : l < 64) (h : linkState s l = 4) : linkState (heartbeatLost s l) l = 5 ∧
    Counted s (heartbeatLost s l) fLnkTrainSilentEvents (l / 8) (l % 8) 1 ∧ Counted s (heartbeatLost s l) fLnkTrainHbMissed (l / 8) (l % 8) 3 ∧
    (heartbeatLost s l).link l = hbLost (s.link l) ∧ Only [.registers, .functions, .links] s (heartbeatLost s l) := by
  obtain ⟨hi, hj⟩ := link_index hl
  rw [heartbeatLost_of_up h]
  have hp (v : State) (p : Option Nat) (c a : Nat) : RegsBut [.mbxOutStatus] v (postBoth v p c a) := regsBut_postBoth v p c a (by decide)
  have hn (v : State) {f : RField} (hf : f.reg ≠ .lnkStatus) (n : Nat) : (setLinkState v l n).fld f (l / 8) (l % 8) = v.fld f (l / 8) (l % 8) :=
    fld_setFld_name v n hf.symm ⟨hi, hj⟩ ⟨hi, hj⟩
  refine ⟨?_, ?_, ?_, ?_, ?_⟩
  · exact ((hp _ _ _ _).linkState hl (by decide)).trans (linkState_setLinkState _ l (by decide))
  · refine ((hp _ _ _ _).fld (by decide) hi hj).trans ((hn _ (by decide) 5).trans ?_)
    refine (fld_bump_same _ fLnkTrainSilentEvents _ _ 1 (by decide) (by decide)).trans ?_
    rw [fld_bump_apart _ _ _ _ (by decide)]
    rfl
  · refine ((hp _ _ _ _).fld (by decide) hi hj).trans ((hn _ (by decide) 5).trans ((fld_bump_apart _ _ _ _ (by decide)).trans ?_))
    exact fld_bump_same _ fLnkTrainHbMissed _ _ 3 (by decide) (by decide)
  · refine (link_same ((within_postBoth _ _ _ _ (Within.refl _) (Sub.refl _)).same .links (by decide)) l).trans ?_
    exact link_modLink s l hbLost
  · exact only_of_within (within_postBoth _ _ _ _ (within_setLinkState _ _ _ (within_bump _ _ _ _ _ (within_bump _ _ _ _ _
      (within_modLink _ _ _ (Within.refl s) rfl) rfl) rfl) rfl) rfl)

/-- Settles O39, with the records that a link's timers send, each after the DEGRADE that is due. -/
theorem linkTimers : Obligations.LinkTimers := by
  unfold Obligations.LinkTimers
  refine ⟨fun l s => ⟨fun h => ⟨?_, ?_⟩, fun h => ⟨fun h2 => ?_, fun h3 => ?_, fun h7 => ?_, fun hn => ?_, fun hs => ?_, fun hs => ?_⟩⟩,
    fun l s => ⟨fun h => ?_, fun h => ?_, fun h => congrArg Host.Outcome.next (heartbeatLost_of_not_takes h)⟩⟩
  · exact congrArg Host.Outcome.next (if_pos (by rw [h]; rfl))
  · exact congrArg Host.Outcome.next (if_neg (by rw [h]; exact fun e => nomatch e))
  · exact ⟨_, resend_negotiating h h2, sendKind_degradeSent s l.val _, sendKind_degradeSent_only s l.val _⟩
  · refine ⟨_, resend_notReady h h3, sendKind_degradeSent s l.val _, ?_, ?_⟩
    · exact (link_modLink _ _ _).trans (congrArg backedOff (degradeSent_same s l.val).2.1)
    · exact (sendKind_degradeSent_only s l.val _).trans (setLink_frame _ _ _).2.2 (by decide) (by decide)
  · refine ⟨_, resend_fenced h h7, ?_, ite_holds (P := Only [.out] s) (Only.refl _ s) (sendKind_only s _ _)⟩
    split
    · exact (List.append_nil _).symm
    · rfl
  · exact ⟨_, resend_other h hn, degradeSent_links s l.val, degradeSent_only s l.val⟩
  · refine ⟨_, heartbeatSend_eq h hs, link_modLink s l.val hbStepped, ?_, fun k hk => otherLinks_modLink s l.val hbStepped k hk, ?_⟩
    · exact congrArg (fun f => s.out.links ++ [(l.val, f)]) (heartbeat_flit s l.val)
    · exact (setLink_frame s l.val _).2.2.trans (sendKind_only _ _ _) (by decide) (by decide)
  · exact congrArg Host.Outcome.next (if_neg (by rw [hs, Bool.and_false]; decide))
  · obtain ⟨h1, h2, h3, h4, h5⟩ := heartbeatLost_up l.isLt h
    exact ⟨_, rfl, h1, h2, h3, h4, h5⟩
  · refine ⟨_, congrArg Host.Outcome.next (heartbeatLost_of_silent h), ?_, fld_bump_same _ fLnkTrainHbMissed _ _ 3 (by decide) (by decide), ?_⟩
    · exact (fld_bump_name _ 3 (f := fLnkTrainHbMissed) (g := fLnkStatusState) (by decide) (link_index l.isLt) (link_index l.isLt)).trans h
    · exact only_of_within (within_bump _ _ _ _ _ (within_modLink _ _ _ (Within.refl s) rfl) rfl)

end Sys2Proof.Machine
end

section
/-! LNK_LOOP_START, LNK_LOOP_DONE and LNK_LOOP_MODE_WRITE (R297, R447). -/

namespace Sys2Proof.Machine

variable {s t : State} {l : Nat}

/-! ### The value written -/

/-- Fields of words with the same bits are the same. -/
theorem bitsOf_congr {v w : Word} {hi lo : Nat} (h : ∀ i, lo ≤ i → i ≤ hi → v.getLsbD i = w.getLsbD i) : bitsOf v.toNat hi lo = bitsOf w.toNat hi lo := by
  refine Nat.eq_of_testBit_eq fun i => ?_
  simp only [bitsOf, Nat.testBit_mod_two_pow, Nat.testBit_div_two_pow]
  by_cases hi' : i < hi + 1 - lo
  · rw [BitVec.testBit_toNat, BitVec.testBit_toNat, h (i + lo) (by omega) (by omega)]
  · simp [hi']

theorem bitOf_toNat (w : Word) (i : Nat) : bitOf w.toNat i = w.getLsbD i := by
  rw [← BitVec.testBit_toNat, Nat.testBit_eq_decide_div_mod_eq, bitOf]

/-- The bits of START alone. -/
theorem getLsbD_start (i : Nat) : (0x8000 : Word).getLsbD i = decide (i = 15) := by
  rw [show (0x8000 : Word) = BitVec.twoPow 64 15 from rfl, BitVec.getLsbD_twoPow]
  simp only [show (15 : Nat) < 64 by decide, decide_true, Bool.true_and]
  exact decide_eq_decide.2 eq_comm

/-- A write with START set has its other fields. -/
theorem bitsOf_or_start (v : Word) {hi lo : Nat} (h : hi < 15) : bitsOf (v ||| 0x8000).toNat hi lo = bitsOf v.toNat hi lo := by
  refine bitsOf_congr fun i _ hi' => ?_
  rw [BitVec.getLsbD_or, getLsbD_start i, decide_eq_false (by omega), Bool.or_false]

theorem start_or_start (v : Word) : bitOf (v ||| 0x8000).toNat 15 = true := by
  rw [bitOf_toNat, BitVec.getLsbD_or, getLsbD_start 15]
  exact Bool.or_true _

/-- A write without START has its other fields. -/
theorem bitsOf_and_start (v : Word) {hi lo : Nat} (h : hi < 15) : bitsOf (v &&& ~~~(0x8000 : Word)).toNat hi lo = bitsOf v.toNat hi lo := by
  refine bitsOf_congr fun i _ hi' => ?_
  rw [BitVec.getLsbD_and, BitVec.getLsbD_not, getLsbD_start i, decide_eq_true (show i < 64 by omega), decide_eq_false (show ¬ i = 15 by omega)]
  exact Bool.and_true _

theorem start_and_start (v : Word) : bitOf (v &&& ~~~(0x8000 : Word)).toNat 15 = false := by
  rw [bitOf_toNat, BitVec.getLsbD_and, BitVec.getLsbD_not, getLsbD_start 15]
  exact Bool.and_false _

/-! ### A write of LNK_LOOP -/

/-- PATTERN and MODE as written. -/
def loopNoted (s : State) (l v : Nat) : State := (s.setFld fLnkLoopPattern (l / 8) (l % 8) (bitsOf v 11 8)).setFld fLnkLoopMode (l / 8) (l % 8) (bitsOf v 1 0)

/-- The link's state after a mode has been written. -/
def loopStated (s : State) (l v : Nat) : State :=
  if linkState s l = 7 then s else if bitsOf v 1 0 = 0 then (if linkState s l = 8 then goDown s l else s) else setLinkState s l 8

theorem linkLoopWrite_eq (h : linkPart s l = none) (w : Word) : linkLoopWrite s l w =
    if bitsOf w.toNat 1 0 = 0 then (loopStated (loopNoted s l w.toNat) l w.toNat).setFld fLnkLoopStart (l / 8) (l % 8) 0
    else if bitOf w.toNat 15 then
      ((loopStated (loopNoted s l w.toNat) l w.toNat).setFld fLnkLoopStart (l / 8) (l % 8) 1).setFld fLnkLoopResultDone (l / 8) (l % 8) 0
    else loopStated (loopNoted s l w.toNat) l w.toNat := if_neg (by rw [h]; decide)

theorem linkLoopWrite_of_part {p : Nat} (h : linkPart s l = some p) (w : Word) :
    linkLoopWrite s l w = s.setFld fLnkLoopResultRefused (l / 8) (l % 8) 1 := if_pos (by rw [h]; rfl)

/-- What a write of PATTERN and MODE leaves of the link's status. -/
theorem status_loopNoted (hl : l < 64) {f : RField} (hf : f.reg = .lnkStatus) (v : Nat) : (loopNoted s l v).fld f (l / 8) (l % 8) = s.fld f (l / 8) (l % 8) :=
  (fld_setFld_name _ _ (by rw [hf]; decide) (link_index hl) (link_index hl)).trans (fld_setFld_name s _ (by rw [hf]; decide) (link_index hl) (link_index hl))

/-- The state of a link to which a mode has been written: LOOPBACK with a mode, DOWN again without, and FENCED still where it was. -/
theorem linkState_loopStated (s : State) (l v : Nat) : linkState (loopStated s l v) l =
    if linkState s l = 7 then 7 else if bitsOf v 1 0 = 0 then (if linkState s l = 8 then 0 else linkState s l) else 8 := by
  unfold loopStated
  split
  next h => exact h
  · split
    · split
      · exact linkState_goDown s l
      · rfl
    · exact linkState_setLinkState s l (by decide)

theorem linkLanes_goDown (s : State) (l : Nat) : linkLanes (goDown s l) l = 0 :=
  fld_setFld_same (setLinkState s l 0) fLnkStatusLanes (l / 8) (l % 8) 0 (by decide) (by decide)

/-- MODE 0 takes the lanes of a link in LOOPBACK. -/
theorem linkLanes_loopStated {v : Nat} (h : bitsOf v 1 0 = 0) : linkLanes (loopStated s l v) l = if linkState s l = 8 then 0 else linkLanes s l := by
  unfold loopStated
  rw [if_pos h]
  by_cases h7 : linkState s l = 7
  · rw [if_pos h7, if_neg (by omega)]
  · rw [if_neg h7]
    split
    · exact linkLanes_goDown s l
    · rfl

theorem regsBut_goDown (s : State) (hl : l < 64) : RegsBut [.lnkStatus] s (goDown s l) :=
  ((regsBut_setFld (f := fLnkStatusState) s 0 (by decide) (link_index hl).1 (link_index hl).2).trans
    (regsBut_setFld (f := fLnkStatusLanes) _ 0 (by decide) (link_index hl).1 (link_index hl).2)).trans (regsBut_of_same rfl)

theorem regsBut_loopStated (s : State) (hl : l < 64) (v : Nat) : RegsBut [.lnkStatus] s (loopStated s l v) :=
  regsBut_ite (RegsBut.refl s) (regsBut_ite (regsBut_ite (regsBut_goDown s hl) (RegsBut.refl s))
    (regsBut_setFld (f := fLnkStatusState) s 8 (by decide) (link_index hl).1 (link_index hl).2))

theorem loopStated_only (s : State) (l v : Nat) : Only [.registers, .links] s (loopStated s l v) :=
  only_of_within (within_ite (Within.refl s) (within_ite (within_ite (within_goDown s l (Within.refl s) rfl) (Within.refl s)) (within_setLinkState s l 8 (Within.refl s) rfl)))

/-- A mode other than 0 leaves what an end keeps of its link. -/
theorem loopStated_only_of_mode {v : Nat} (h : bitsOf v 1 0 ≠ 0) : Only [.registers] s (loopStated s l v) := by
  unfold loopStated
  rw [if_neg h]
  exact ite_holds (P := Only [.registers] s) (Only.refl _ s) (only_of_within (within_setLinkState s l 8 (Within.refl s) rfl))

theorem loopNoted_only (s : State) (l v : Nat) : Only [.registers] s (loopNoted s l v) :=
  only_of_within (within_setFld _ _ _ _ _ (within_setFld _ _ _ _ _ (Within.refl s) rfl) rfl)

theorem setFld_only (s : State) (f : RField) (i j v : Nat) : Only [.registers] s (s.setFld f i j v) :=
  only_of_within (within_setFld _ _ _ _ _ (Within.refl s) rfl)

theorem bitsOf_lt (w hi lo : Nat) : bitsOf w hi lo < 2 ^ (hi + 1 - lo) := Nat.mod_lt _ (Nat.two_pow_pos _)

/-- The fields of LNK_LOOP after a write of PATTERN and MODE. -/
theorem loop_loopNoted (s : State) (l v : Nat) : (loopNoted s l v).fld fLnkLoopMode (l / 8) (l % 8) = bitsOf v 1 0 ∧
    (loopNoted s l v).fld fLnkLoopPattern (l / 8) (l % 8) = bitsOf v 11 8 ∧
    (loopNoted s l v).fld fLnkLoopStart (l / 8) (l % 8) = s.fld fLnkLoopStart (l / 8) (l % 8) := by
  refine ⟨(fld_setFld_same _ fLnkLoopMode _ _ _ (by decide) (by decide)).trans (Nat.mod_eq_of_lt (bitsOf_lt v 1 0)), ?_, ?_⟩
  · exact (fld_setFld_apart _ _ _ _ (by decide)).trans
      ((fld_setFld_same s fLnkLoopPattern _ _ _ (by decide) (by decide)).trans (Nat.mod_eq_of_lt (bitsOf_lt v 11 8)))
  · exact (fld_setFld_apart _ _ _ _ (by decide)).trans (fld_setFld_apart s _ _ _ (by decide))

/-- A write of LNK_LOOP with START and a mode runs the test (R297). -/
theorem loopStart_runs {w : Word} (hl : l < 64) (hp : linkPart s l = none) (hm : bitsOf w.toNat 1 0 ≠ 0) (hs : bitOf w.toNat 15 = true) :
    linkState (linkLoopWrite s l w) l = (if linkState s l = 7 then 7 else 8) ∧ (linkLoopWrite s l w).fld fLnkLoopStart (l / 8) (l % 8) = 1 ∧
    (linkLoopWrite s l w).fld fLnkLoopMode (l / 8) (l % 8) = bitsOf w.toNat 1 0 ∧
    (linkLoopWrite s l w).fld fLnkLoopPattern (l / 8) (l % 8) = bitsOf w.toNat 11 8 ∧
    (linkLoopWrite s l w).fld fLnkLoopResultDone (l / 8) (l % 8) = 0 ∧ Only [.registers] s (linkLoopWrite s l w) := by
  obtain ⟨hmode, hpat, _⟩ := loop_loopNoted s l w.toNat
  have hi := link_index hl
  have hn := regsBut_loopStated (loopNoted s l w.toNat) hl w.toNat
  have hloop {f : RField} (hf : FieldsApart fLnkLoopStart f) (v : State) : ((v.setFld fLnkLoopStart (l / 8) (l % 8) 1).setFld fLnkLoopResultDone
      (l / 8) (l % 8) 0).fld f (l / 8) (l % 8) = v.fld f (l / 8) (l % 8) :=
    (fld_setFld_name _ _ (by rw [← hf.1]; decide) hi hi).trans (fld_setFld_apart _ _ _ _ hf)
  rw [linkLoopWrite_eq hp, if_neg hm, if_pos hs]
  refine ⟨?_, ?_, ?_, ?_, fld_setFld_same _ fLnkLoopResultDone _ _ 0 (by decide) (by decide), ?_⟩
  · refine (fld_setFld_name _ _ (by decide) hi hi).trans ((fld_setFld_name _ _ (by decide) hi hi).trans ((linkState_loopStated _ l _).trans ?_))
    rw [if_neg hm, show linkState (loopNoted s l w.toNat) l = linkState s l from status_loopNoted hl rfl _]
  · exact (fld_setFld_name _ _ (by decide) hi hi).trans (fld_setFld_same _ fLnkLoopStart _ _ 1 (by decide) (by decide))
  · exact (hloop (by decide) _).trans ((hn.fld (by decide) hi.1 hi.2).trans hmode)
  · exact (hloop (by decide) _).trans ((hn.fld (by decide) hi.1 hi.2).trans hpat)
  · exact (((loopNoted_only s l _).chain (loopStated_only_of_mode hm)).chain (setFld_only _ _ _ _ _)).chain (setFld_only _ _ _ _ _)

/-- A write of LNK_LOOP with a mode and without START leaves START. -/
theorem loopMode_set {w : Word} (hl : l < 64) (hp : linkPart s l = none) (hm : bitsOf w.toNat 1 0 ≠ 0) (hs : bitOf w.toNat 15 = false) :
    linkState (linkLoopWrite s l w) l = (if linkState s l = 7 then 7 else 8) ∧
    (linkLoopWrite s l w).fld fLnkLoopStart (l / 8) (l % 8) = s.fld fLnkLoopStart (l / 8) (l % 8) ∧ Only [.registers] s (linkLoopWrite s l w) := by
  have hi := link_index hl
  rw [linkLoopWrite_eq hp, if_neg hm, if_neg (by rw [hs]; decide)]
  refine ⟨(linkState_loopStated _ l _).trans ?_, ?_, (loopNoted_only s l _).chain (loopStated_only_of_mode hm)⟩
  · rw [if_neg hm, show linkState (loopNoted s l w.toNat) l = linkState s l from status_loopNoted hl rfl _]
  · exact ((regsBut_loopStated _ hl w.toNat).fld (by decide) hi.1 hi.2).trans (loop_loopNoted s l w.toNat).2.2

/-- A write of MODE 0 returns a link in LOOPBACK to DOWN (R297). -/
theorem loopMode_cleared {w : Word} (hl : l < 64) (hp : linkPart s l = none) (hm : bitsOf w.toNat 1 0 = 0) :
    linkState (linkLoopWrite s l w) l = (if linkState s l = 8 then 0 else linkState s l) ∧
    linkLanes (linkLoopWrite s l w) l = (if linkState s l = 8 then 0 else linkLanes s l) ∧
    (linkLoopWrite s l w).fld fLnkLoopStart (l / 8) (l % 8) = 0 ∧ Only [.registers, .links] s (linkLoopWrite s l w) := by
  have hi := link_index hl
  have hst : linkState (loopNoted s l w.toNat) l = linkState s l := status_loopNoted hl rfl _
  rw [linkLoopWrite_eq hp, if_pos hm]
  refine ⟨?_, ?_, fld_setFld_same _ fLnkLoopStart _ _ 0 (by decide) (by decide), ?_⟩
  · refine (fld_setFld_name _ _ (by decide) hi hi).trans ((linkState_loopStated _ l _).trans ?_)
    rw [if_pos hm, hst]
    split
    next h7 => rw [if_neg (by omega), h7]
    · rfl
  · refine (fld_setFld_name _ _ (by decide) hi hi).trans ((linkLanes_loopStated hm).trans ?_)
    rw [hst, show linkLanes (loopNoted s l w.toNat) l = linkLanes s l from status_loopNoted hl rfl _]
  · exact (((loopNoted_only s l _).mono (by decide)).chain (loopStated_only _ l _)).chain ((setFld_only _ _ _ _ _).mono (by decide))

/-! ### The end of a run -/

/-- LNK_LOOP_RESULT with DONE: REFUSED, the lanes without lock, and the errors of the lanes (R297). -/
def loopResult (r n1 n0 e1 e0 : Nat) : Nat := r * 2 ^ 62 + 2 ^ 63 + n1 * 2 ^ 57 + n0 * 2 ^ 56 + e1 * 2 ^ 28 + e0

theorem fields_loopResult {r n1 n0 e1 e0 : Nat} (hr : r < 2) (h1 : n1 < 2) (h0 : n0 < 2) (he1 : e1 < 268435456) (he0 : e0 < 268435456) :
    let w := BitVec.ofNat 64 (loopResult r n1 n0 e1 e0)
    getBits w 63 63 = 1 ∧ getBits w 27 0 = e0 ∧ getBits w 55 28 = e1 ∧ getBits w 56 56 = n0 ∧ getBits w 57 57 = n1 := by
  simp only [getBits, bitsOf, loopResult, BitVec.toNat_ofNat]
  omega

theorem toBit_lt (b : Bool) : toBit b < 2 := by cases b <;> decide

theorem laneErrors_lt (e : Nat) (k : Bool) : laneErrors e k < 268435456 := by
  have h : (2 ^ 28 - 1 : Nat) < 268435456 := by norm_num
  unfold laneErrors
  split
  · exact Nat.lt_of_le_of_lt (Nat.min_le_right _ _) h
  · exact h

/-- The result that a run shows (R297). -/
def runResult (s : State) (l e0 e1 : Nat) (k0 k1 : Bool) : Nat :=
  s.fld fLnkLoopResultRefused (l / 8) (l % 8) * 2 ^ 62 + 2 ^ 63 + toBit (!k1) * 2 ^ 57 + toBit (!k0) * 2 ^ 56 + laneErrors e1 k1 * 2 ^ 28 + laneErrors e0 k0

/-- The state in which a run's end is shown. -/
def loopShown (s : State) (l e0 e1 : Nat) (k0 k1 : Bool) : State :=
  (s.setFld fLnkLoopStart (l / 8) (l % 8) 0).setRaw ⟨.lnkLoopResult, l / 8, l % 8⟩
    (BitVec.ofNat 64 (runResult (s.setFld fLnkLoopStart (l / 8) (l % 8) 0) l e0 e1 k0 k1))

/-- A link handed on to training after a run of the start (R447). -/
def loopHandedOn (s : State) (l : Nat) : State :=
  goDown ((s.setFld fLnkLoopMode (l / 8) (l % 8) 0).modLink l (fun x => { x with startLoop := false })) l

theorem link_goDown (s : State) (l : Nat) : (goDown s l).link l = { s.link l with lanesLocked := 0, badWords := [] } := by simp [goDown, setLinkState]

theorem startLoop_loopHandedOn (s : State) (l : Nat) : ((loopHandedOn s l).link l).startLoop = false := by simp [loopHandedOn, link_goDown]

/-- The end of a run in progress. -/
theorem linkLoopDone_running (h : s.fld fLnkLoopStart (l / 8) (l % 8) ≠ 0) (e0 e1 : Nat) (k0 k1 : Bool) : linkLoopDone s l e0 e1 k0 k1 =
    (let s := s.setFld fLnkLoopStart (l / 8) (l % 8) 0
    let w := s.fld fLnkLoopResultRefused (l / 8) (l % 8) * 2 ^ 62 + 2 ^ 63 + toBit (!k1) * 2 ^ 57 + toBit (!k0) * 2 ^ 56 +
      laneErrors e1 k1 * 2 ^ 28 + laneErrors e0 k0
    let s := s.setRaw ⟨.lnkLoopResult, l / 8, l % 8⟩ (BitVec.ofNat 64 w)
    if (s.link l).startLoop then loopHandedOn s l else s) := by
  rw [linkLoopDone, if_neg h]
  rfl

theorem link_loopShown (s : State) (l k e0 e1 : Nat) (k0 k1 : Bool) : (loopShown s l e0 e1 k0 k1).link k = s.link k :=
  (link_setRaw _ _ _ _).trans (link_setRaw _ _ _ _)

theorem linkLoopDone_eq (h : s.fld fLnkLoopStart (l / 8) (l % 8) = 1) (e0 e1 : Nat) (k0 k1 : Bool) : linkLoopDone s l e0 e1 k0 k1 =
    if (s.link l).startLoop then loopHandedOn (loopShown s l e0 e1 k0 k1) l else loopShown s l e0 e1 k0 k1 := by
  rw [linkLoopDone_running (by rw [h]; decide), ← link_loopShown s l l e0 e1 k0 k1]
  rfl

theorem regsBut_loopShown (hl : l < 64) (e0 e1 : Nat) (k0 k1 : Bool) : RegsBut [.lnkLoop, .lnkLoopResult] s (loopShown s l e0 e1 k0 k1) :=
  (regsBut_setFld (f := fLnkLoopStart) s 0 (by decide) (link_index hl).1 (link_index hl).2).trans
    (regsBut_setRaw _ _ (.tail _ (.head _)) (link_index hl).1 (link_index hl).2)

/-- What handing a link on leaves of the result and of START. -/
theorem fld_loopHandedOn (s : State) (hl : l < 64) {f : RField} (hf : f.reg = .lnkLoopResult ∨ FieldsApart fLnkLoopMode f) :
    (loopHandedOn s l).fld f (l / 8) (l % 8) = s.fld f (l / 8) (l % 8) := by
  have hi := link_index hl
  have hr : f.reg ∉ [RegName.lnkStatus] := by
    rcases hf with e | e
    · rw [e]; decide
    · rw [← e.1]; decide
  refine ((regsBut_goDown _ hl).fld hr hi.1 hi.2).trans ?_
  show (s.setFld fLnkLoopMode (l / 8) (l % 8) 0).fld f (l / 8) (l % 8) = _
  rcases hf with e | e
  · exact fld_setFld_name s 0 (by rw [e]; decide) hi hi
  · exact fld_setFld_apart s _ _ 0 e

/-- What the end of a run shows (R297). -/
theorem fields_loopShown (hl : l < 64) (e0 e1 : Nat) (k0 k1 : Bool) :
    (loopShown s l e0 e1 k0 k1).fld fLnkLoopStart (l / 8) (l % 8) = 0 ∧ (loopShown s l e0 e1 k0 k1).fld fLnkLoopResultDone (l / 8) (l % 8) = 1 ∧
    (loopShown s l e0 e1 k0 k1).fld fLnkLoopResultLane0Errors (l / 8) (l % 8) = laneErrors e0 k0 ∧
    (loopShown s l e0 e1 k0 k1).fld fLnkLoopResultLane1Errors (l / 8) (l % 8) = laneErrors e1 k1 ∧
    (loopShown s l e0 e1 k0 k1).fld fLnkLoopResultNoLock0 (l / 8) (l % 8) = toBit (!k0) ∧
    (loopShown s l e0 e1 k0 k1).fld fLnkLoopResultNoLock1 (l / 8) (l % 8) = toBit (!k1) := by
  have hi := link_index hl
  have hr : (s.setFld fLnkLoopStart (l / 8) (l % 8) 0).fld fLnkLoopResultRefused (l / 8) (l % 8) < 2 := fld_lt _ _ _ _
  obtain ⟨h1, h2, h3, h4, h5⟩ := fields_loopResult hr (toBit_lt (!k1)) (toBit_lt (!k0)) (laneErrors_lt e1 k1) (laneErrors_lt e0 k0)
  have hraw : (loopShown s l e0 e1 k0 k1).raw ⟨.lnkLoopResult, l / 8, l % 8⟩ = _ := raw_setRaw_same _ _ _
  rw [show runResult (s.setFld fLnkLoopStart (l / 8) (l % 8) 0) l e0 e1 k0 k1 = loopResult _ _ _ _ _ from rfl] at hraw
  refine ⟨?_, (congrArg (getBits · 63 63) hraw).trans h1, (congrArg (getBits · 27 0) hraw).trans h2, (congrArg (getBits · 55 28) hraw).trans h3,
    (congrArg (getBits · 56 56) hraw).trans h4, (congrArg (getBits · 57 57) hraw).trans h5⟩
  have hs := fld_setFld_same s fLnkLoopStart (l / 8) (l % 8) 0 (by decide) (by decide)
  exact ((regsBut_setRaw (rs := [.lnkLoopResult]) _ _ (by exact .head _) hi.1 hi.2).fld (by decide) hi.1 hi.2).trans hs

theorem laneErrors_eq (e : Nat) (k : Bool) : laneErrors e k = if k then min e (2 ^ 28 - 1) else 2 ^ 28 - 1 := rfl

theorem toBit_not (k : Bool) : toBit (!k) = if k then 0 else 1 := by cases k <;> rfl

/-- Settles O41, with the parts of a write of LNK_LOOP and the word that the end of a run shows. -/
theorem linkLoopBack : Obligations.LinkLoopBack := by
  unfold Obligations.LinkLoopBack
  refine ⟨fun l value s p hp => ⟨congrArg Host.Outcome.next (linkLoopWrite_of_part hp _), congrArg Host.Outcome.next (linkLoopWrite_of_part hp _)⟩,
    fun l value s hp => ⟨fun hm => ⟨?_, ?_⟩, fun hm => ⟨?_, ?_⟩⟩, fun l e0 e1 k0 k1 s => ⟨fun h => congrArg Host.Outcome.next (if_pos h), fun h => ?_⟩⟩
  · obtain ⟨h1, h2, h3, h4, h5, h6⟩ := loopStart_runs l.isLt hp (by rwa [bitsOf_or_start value (by decide)]) (start_or_start value)
    rw [bitsOf_or_start value (by decide)] at h3 h4
    exact ⟨_, rfl, h1, h2, h3, h4, h5, h6⟩
  · obtain ⟨h1, h2, h3⟩ := loopMode_set l.isLt hp (by rwa [bitsOf_and_start value (by decide)]) (start_and_start value)
    exact ⟨_, rfl, h1, h2, h3⟩
  · obtain ⟨_, _, h3, h4⟩ := loopMode_cleared l.isLt hp (w := value ||| 0x8000) (by rwa [bitsOf_or_start value (by decide)])
    exact ⟨_, rfl, h3, h4⟩
  · obtain ⟨h1, h2, h3, h4⟩ := loopMode_cleared l.isLt hp (w := value &&& ~~~(0x8000 : Word)) (by rwa [bitsOf_and_start value (by decide)])
    exact ⟨_, rfl, h1, h2, h3, h4⟩
  · obtain ⟨h1, h2, h3, h4, h5, h6⟩ := fields_loopShown (s := s) l.isLt e0 e1 k0 k1
    rw [laneErrors_eq] at h3 h4
    rw [toBit_not] at h5 h6
    refine ⟨_, congrArg Host.Outcome.next (linkLoopDone_eq h e0 e1 k0 k1), ?_⟩
    split
    next hs =>
      refine ⟨(fld_loopHandedOn _ l.isLt (.inr (by decide))).trans h1, (fld_loopHandedOn _ l.isLt (.inl rfl)).trans h2, (fld_loopHandedOn _ l.isLt (.inl rfl)).trans h3,
        (fld_loopHandedOn _ l.isLt (.inl rfl)).trans h4, (fld_loopHandedOn _ l.isLt (.inl rfl)).trans h5, (fld_loopHandedOn _ l.isLt (.inl rfl)).trans h6, ?_,
        fun _ => linkState_goDown _ _, fun hf => absurd (hs.symm.trans hf) (by decide), ?_⟩
      · exact startLoop_loopHandedOn _ _
      · exact only_of_within (within_goDown _ _ (within_modLink _ _ _ (within_setFld _ _ _ _ _ (within_setRaw _ _ _
          (within_setFld _ _ _ _ _ (Within.refl s) rfl) rfl) rfl) rfl) rfl)
    next hs =>
      exact ⟨h1, h2, h3, h4, h5, h6, (congrArg Link.startLoop (link_loopShown s l.val l.val e0 e1 k0 k1)).trans (Bool.eq_false_iff.2 hs), fun ht => absurd ht hs, fun _ => (regsBut_loopShown l.isLt e0 e1 k0 k1).linkState l.isLt (by decide),
        only_of_within (within_setRaw _ _ _ (within_setFld _ _ _ _ _ (Within.refl s) rfl) rfl)⟩

end Sys2Proof.Machine
end

section
/-! What the transmitter, a resend, a hostile event and a record's sender leave of a link (R272 to R274, R279, R285, R289, R295, R296). -/

namespace Sys2Proof.Machine

variable {s t u : State} {l : Nat} {rs : List RegName}

/-! ### The transmitter -/

/-- A link but for what its transmitter moves. -/
def linkRest (x : Link) : Link := { x with waiting := [], parts := [], sent0 := 0, sent1 := 0, retry := [], txSeq := 0, lastData := none }

/-- What a transmitter that goes on leaves: its link but for what it moves, and every register but the count of bytes. -/
def Pumped (l : Nat) (s t : State) : Prop := linkRest (t.link l) = linkRest (s.link l) ∧ RegsBut [.lnkTxBytes] s t

theorem Pumped.refl (l : Nat) (s : State) : Pumped l s s := ⟨rfl, RegsBut.refl s⟩

theorem Pumped.trans (h : Pumped l s t) (g : Pumped l t u) : Pumped l s u := ⟨g.1.trans h.1, h.2.trans g.2⟩

/-- A field that the transmitter does not move. -/
theorem Pumped.link_get {β : Type} (h : Pumped l s t) (π : Link → β) (hπ : ∀ x, π (linkRest x) = π x) : π (t.link l) = π (s.link l) :=
  (hπ _).symm.trans ((congrArg π h.1).trans (hπ _))

theorem pumped_setLink (s : State) (l : Nat) {v : Link} (h : linkRest v = linkRest (s.link l)) : Pumped l s (s.setLink l v) :=
  ⟨(congrArg linkRest (link_setLink s l v)).trans h, regsBut_of_same rfl⟩

theorem pumped_sendFlit (s : State) (l k kind : Nat) (nak : Bool) (seq first : Nat) (b : List Byte) : Pumped l s (sendFlit s k kind nak seq first b) :=
  ⟨rfl, regsBut_of_same rfl⟩

theorem pumped_cutFlit (s : State) (l : Nat) : Pumped l s (cutFlit s l) := by
  unfold cutFlit
  dsimp only
  generalize takeParts flitPayload 0 (s.link l).parts = r
  refine Pumped.trans ?_ (pumped_sendFlit _ _ _ _ _ _ _ _)
  exact pumped_setLink s l rfl

theorem pumped_bytes (s : State) (hl : l < 64) (n : Nat) : Pumped l s (s.bump fLnkTxBytesBytes (l / 8) (l % 8) n) :=
  ⟨congrArg linkRest (link_setFld _ _ _ _ _ _), regsBut_bump (f := fLnkTxBytesBytes) _ _ (by decide) (link_index hl).1 (link_index hl).2⟩

theorem pumped_beginMsg (s : State) (hl : l < 64) (m : OutMsg) : Pumped l s (beginMsg s l m) := by
  refine Pumped.trans ?_ (pumped_bytes _ hl _)
  exact pumped_setLink s l rfl

/-- Sending what can be sent, by induction on the turns left. -/
theorem pumped_pumpLink (hl : l < 64) (n : Nat) (s : State) : Pumped l s (pumpLink s l n) := by
  induction n generalizing s with
  | zero => exact Pumped.refl l s
  | succ n ih =>
    unfold pumpLink
    split
    · exact Pumped.refl l s
    · dsimp only
      generalize Option.bind _ _ = next
      cases next with
      | none => exact ite_holds (P := Pumped l s) (Pumped.refl l s) ((pumped_cutFlit s l).trans (ih _))
      | some p =>
        refine Pumped.trans ?_ (ih _)
        refine Pumped.trans ?_ (pumped_beginMsg _ hl p.2)
        exact pumped_setLink s l rfl

theorem pumped_of_same (hr : Area.registers.same s t) (hl : Area.links.same s t) : Pumped l s t :=
  ⟨congrArg linkRest (link_same hl l), regsBut_of_same hr⟩

theorem pumped_pump (s : State) (hl : l < 64) : Pumped l s (pump s l) := by
  have h := pumped_pumpLink hl ((s.link l).waiting.length + 257) s
  unfold pump
  dsimp only
  split
  · exact h
  · split
    next p _ =>
      have hw := within_dropCauses (pumpLink s l ((s.link l).waiting.length + 257)) p (fun c => c.field == 3 && c.key == creditKey l) (Within.refl _) (Sub.refl _)
      exact h.trans (pumped_of_same (hw.same .registers (by decide)) (hw.same .links (by decide)))
    · exact h

theorem pump_only (s : State) (l : Nat) : Only [.registers, .links, .out, .parts] s (pump s l) := only_of_within (within_pump s l (Within.refl s) rfl)

/-! ### A resend -/

/-- A resend whose flits the retry buffer still holds (R274). -/
theorem resendFrom_of_clean (h : (s.link l).retryBad = []) (ack : Nat) : resendFrom s l ack =
    forEach (unacked (s.link l) ack) (s.bump fLnkRetryResent (l / 8) (l % 8) (unacked (s.link l) ack).length)
      (fun f t => sendFlit t l 1 false f.seq f.first f.payload) := by
  unfold resendFrom
  exact if_neg (by simp [h])

/-- What a resend leaves of every link and of every register but its count, and that it only appends flits. -/
theorem resendFrom_clean (hl : l < 64) (h : (s.link l).retryBad = []) (ack : Nat) : Area.links.same s (resendFrom s l ack) ∧
    RegsBut [.lnkRetry] s (resendFrom s l ack) ∧ (∃ fl, (resendFrom s l ack).out.links = s.out.links ++ fl) ∧ Only [.registers, .out] s (resendFrom s l ack) := by
  rw [resendFrom_of_clean h]
  have hf : ∀ (fs : List RetryFlit) (v : State), Only [.out] v (forEach fs v (fun f t => sendFlit t l 1 false f.seq f.first f.payload)) ∧
      ∃ fl, (forEach fs v (fun f t => sendFlit t l 1 false f.seq f.first f.payload)).out.links = v.out.links ++ fl := by
    intro fs
    induction fs with
    | nil => exact fun v => ⟨Only.refl _ v, [], (List.append_nil _).symm⟩
    | cons f fs ih =>
      intro v
      obtain ⟨h1, fl, h2⟩ := ih (sendFlit v l 1 false f.seq f.first f.payload)
      refine ⟨Only.chain (only_of_within (within_sendFlit _ _ _ _ _ _ _ (Within.refl v) rfl)) h1, _, h2.trans (List.append_assoc _ _ _)⟩
  obtain ⟨h1, fl, h2⟩ := hf (unacked (s.link l) ack) (s.bump fLnkRetryResent (l / 8) (l % 8) (unacked (s.link l) ack).length)
  have hb : Only [.registers] s (s.bump fLnkRetryResent (l / 8) (l % 8) (unacked (s.link l) ack).length) := setFld_only _ _ _ _ _
  exact ⟨h1 .links (by decide), (regsBut_bump s (f := fLnkRetryResent) _ (by decide) (link_index hl).1 (link_index hl).2).trans
    (regsBut_of_same (h1 .registers (by decide))), ⟨fl, h2⟩, hb.trans h1 (by decide) (by decide)⟩

/-! ### UP -/

/-- A link that is UP with its clock of heartbeats begun (R285, R290). -/
def upLink (now : Nat) (x : Link) : Link := { x with lastHb := now, hbCounted := 0, tryRate := 0 }

theorem goUp_eq (s : State) (l : Nat) : goUp s l = pump (resendFrom ((setLinkState s l 4).modLink l (upLink s.now)) l
    (((setLinkState s l 4).modLink l (upLink s.now)).link l).ackedSeq) l := rfl

theorem link_setLinkState (s : State) (l k v : Nat) : (setLinkState s l v).link k = s.link k := link_setFld _ _ _ _ _ _

/-- What a link that goes UP with a whole retry buffer is left with. -/
theorem goUp_clean (hl : l < 64) (h : (s.link l).retryBad = []) : linkState (goUp s l) l = 4 ∧
    linkRest ((goUp s l).link l) = linkRest (upLink s.now (s.link l)) ∧ RegsBut [.lnkTxBytes, .lnkRetry, .lnkStatus] s (goUp s l) ∧
    (∀ f, FieldsApart fLnkStatusState f → (goUp s l).fld f (l / 8) (l % 8) = s.fld f (l / 8) (l % 8)) ∧
    Only [.registers, .links, .out, .parts] s (goUp s l) := by
  have hi := link_index hl
  have hlink : ((setLinkState s l 4).modLink l (upLink s.now)).link l = upLink s.now (s.link l) :=
    (link_modLink _ _ _).trans (congrArg _ (link_setLinkState s l l 4))
  have hbad : (((setLinkState s l 4).modLink l (upLink s.now)).link l).retryBad = [] := by rw [hlink]; exact h
  obtain ⟨h1, h2, _, h3⟩ := resendFrom_clean hl hbad (((setLinkState s l 4).modLink l (upLink s.now)).link l).ackedSeq
  have hp := pumped_pump (resendFrom ((setLinkState s l 4).modLink l (upLink s.now)) l
    (((setLinkState s l 4).modLink l (upLink s.now)).link l).ackedSeq) hl
  have hst {f : RField} (hf : f.reg = .lnkStatus) : (goUp s l).fld f (l / 8) (l % 8) = (setLinkState s l 4).fld f (l / 8) (l % 8) :=
    (hp.2.fld (by rw [hf]; decide) hi.1 hi.2).trans (h2.fld (by rw [hf]; decide) hi.1 hi.2)
  refine ⟨(hst rfl).trans (linkState_setLinkState s l (by decide)), ?_, ?_, fun f hf => (hst hf.1.symm).trans (fld_setFld_apart s _ _ 4 hf), ?_⟩
  · exact hp.1.trans (congrArg linkRest ((link_same h1 l).trans hlink))
  · refine RegsBut.trans ?_ (hp.2.mono (by decide))
    refine RegsBut.trans ?_ (h2.mono (by decide))
    exact (regsBut_setFld (f := fLnkStatusState) s 4 (by decide) hi.1 hi.2).trans (regsBut_of_same rfl)
  · refine Only.chain ?_ (pump_only _ l)
    refine Only.chain ?_ (h3.mono (by decide))
    exact only_of_within (within_modLink _ _ _ (within_setLinkState s l 4 (Within.refl s) rfl) rfl)

/-! ### Levels of health -/

/-- What a rise of a unit's level leaves: it may be posted. -/
theorem withHealth_frame (s : State) (v : Nat) (g : State → State) : RegsBut [.mbxOutStatus] (g s) (withHealth s v g) ∧
    Only [.registers, .functions] (g s) (withHealth s v g) := by
  have hw : Only [.registers, .functions] (g s) (postHealth (g s) v) := only_of_within (within_postHealth _ _ (Within.refl _) rfl)
  exact ⟨regsBut_ite (regsBut_postHealth _ _ (by decide)) (RegsBut.refl _), ite_holds (P := Only [.registers, .functions] (g s)) hw (Only.refl _ _)⟩

theorem out_same (h : Area.out.same s t) : t.out = s.out := h

/-! ### Hostile events -/

theorem regsBut_fenceLink (s : State) (hl : l < 64) (cause : Nat) : RegsBut [.lnkStatus, .mbxOutStatus] s (fenceLink s l cause) := by
  have hi := link_index hl
  refine RegsBut.trans ?_ (regsBut_of_same ((within_sendKind _ _ _ (Within.refl _) (Sub.refl _)).same .registers (by decide)))
  refine RegsBut.trans ?_ (regsBut_postBoth _ _ _ _ (by decide))
  exact ((regsBut_setFld (f := fLnkStatusState) s 7 (by decide) hi.1 hi.2).trans (regsBut_setFld (f := fLnkStatusFenceCause) _ cause (by decide) hi.1 hi.2)).trans
    (regsBut_of_same rfl)

theorem hostileEvent_eq (s : State) (l : Nat) (f : RField) : ∃ g : Link → Link, ∃ n, hostileEvent s l f =
    if linkState ((s.bump f (l / 8) (l % 8) 1).modLink l g) l ≠ 7 && decide (((s.bump f (l / 8) (l % 8) 1).modLink l g).fld fLnkCfgFenceLimit (l / 8) (l % 8) ≤ n)
    then fenceLink ((s.bump f (l / 8) (l % 8) 1).modLink l g) l 1 else (s.bump f (l / 8) (l % 8) 1).modLink l g :=
  ⟨_, _, rfl⟩

/-- A hostile event is counted; the link is left in its state, or fenced (R296). -/
theorem hostileEvent_frame (s : State) (hl : l < 64) {f : RField} (hf : f.reg = .lnkHostile) (hlo : f.lo ≤ f.hi) (hhi : f.hi < 64) :
    Counted s (hostileEvent s l f) f (l / 8) (l % 8) 1 ∧ (linkState (hostileEvent s l f) l = linkState s l ∨ linkState (hostileEvent s l f) l = 7) ∧
    Only [.registers, .functions, .links, .out] s (hostileEvent s l f) := by
  have hi := link_index hl
  obtain ⟨g, n, he⟩ := hostileEvent_eq s l f
  have hc : Counted s ((s.bump f (l / 8) (l % 8) 1).modLink l g) f (l / 8) (l % 8) 1 := fld_bump_same s f _ _ 1 hlo hhi
  have hs : linkState ((s.bump f (l / 8) (l % 8) 1).modLink l g) l = linkState s l := fld_bump_name s 1 (by rw [hf]; decide) hi hi
  refine ⟨?_, ?_, only_of_within (within_hostileEvent s l f (Within.refl s) rfl)⟩
  · rw [he]
    split
    · exact ((regsBut_fenceLink _ hl 1).fld (by rw [hf]; decide) hi.1 hi.2).trans hc
    · exact hc
  · rw [he]
    split
    · exact .inr (fenceLink_frame _ hl (by decide)).1
    · exact .inl hs

/-! ### What a record says of its sender -/

/-- The link after a record of its partner (R289). -/
def partnerNoted (r : LinkRecord) (x : Link) : Link := { x with gotRecord := true, partnerRates := r.rates.toNat }

/-- The registers after a record of a partner (R298). -/
def partnerShown (s : State) (l : Nat) (r : LinkRecord) : State :=
  ((s.setFld fLnkPartnerModuleId (l / 8) (l % 8) r.moduleId.toNat).setFld fLnkPartnerLink (l / 8) (l % 8) r.link.toNat).setFld
    fLnkPartnerModuleState (l / 8) (l % 8) r.moduleState.toNat

theorem notePartner_eq (s : State) (l : Nat) (r : LinkRecord) : notePartner s l r = (partnerShown s l r).modLink l (partnerNoted r) := rfl

theorem regsBut_modLink (s : State) (l : Nat) (f : Link → Link) : RegsBut rs s (s.modLink l f) := regsBut_of_same rfl

theorem fld_modLink (s : State) (l : Nat) (g : Link → Link) (f : RField) (i j : Nat) : (s.modLink l g).fld f i j = s.fld f i j := rfl

theorem partnerShown_fields (s : State) (l : Nat) (r : LinkRecord) :
    (partnerShown s l r).fld fLnkPartnerModuleId (l / 8) (l % 8) = r.moduleId.toNat ∧
    (partnerShown s l r).fld fLnkPartnerModuleState (l / 8) (l % 8) = r.moduleState.toNat % 8 := by
  refine ⟨?_, fld_setFld_same _ fLnkPartnerModuleState _ _ _ (by decide) (by decide)⟩
  refine (fld_setFld_apart _ _ _ _ (by decide)).trans ((fld_setFld_apart _ _ _ _ (by decide)).trans ?_)
  refine (fld_setFld_same s fLnkPartnerModuleId _ _ _ (by decide) (by decide)).trans ?_
  rw [show fLnkPartnerModuleId.hi + 1 - fLnkPartnerModuleId.lo = 48 from rfl]
  exact Nat.mod_eq_of_lt r.moduleId.isLt

theorem notePartner_frame (s : State) (hl : l < 64) (r : LinkRecord) : (notePartner s l r).link l = partnerNoted r (s.link l) ∧
    RegsBut [.lnkPartner] s (notePartner s l r) ∧ (notePartner s l r).fld fLnkPartnerModuleId (l / 8) (l % 8) = r.moduleId.toNat ∧
    (notePartner s l r).fld fLnkPartnerModuleState (l / 8) (l % 8) = r.moduleState.toNat % 8 ∧
    OtherLinks l s (notePartner s l r) ∧ Only [.registers, .links] s (notePartner s l r) := by
  have hi := link_index hl
  obtain ⟨h1, h2⟩ := partnerShown_fields s l r
  refine ⟨?_, ?_, ?_, ?_, ?_, only_of_within (within_notePartner s l r (Within.refl s) rfl)⟩
  · simp [notePartner, partnerNoted]
  · rw [notePartner_eq]
    refine RegsBut.trans ?_ (regsBut_modLink _ l _)
    exact ((regsBut_setFld (f := fLnkPartnerModuleId) s _ (by decide) hi.1 hi.2).trans (regsBut_setFld (f := fLnkPartnerLink) _ _ (by decide) hi.1 hi.2)).trans
      (regsBut_setFld (f := fLnkPartnerModuleState) _ _ (by decide) hi.1 hi.2)
  · rw [notePartner_eq, fld_modLink]
    exact h1
  · rw [notePartner_eq, fld_modLink]
    exact h2
  · rw [notePartner_eq]
    exact OtherLinks.trans (fun _ _ => rfl) (otherLinks_modLink (partnerShown s l r) l _)

end Sys2Proof.Machine
end

section
/-! LANE_LOCK, LANE_RETIRE, LINK_RETRAIN_START, LINK_RETRAIN_END and TRAINING_TIMEOUT (R275, R276, R283, R285, R286, R288, R289). -/

namespace Sys2Proof.Machine

variable {s t u : State} {l : Nat}

/-! ### A link that is trained -/

/-- The lanes of a link that begins to negotiate (R285). -/
def trainedLanes (s : State) (l : Nat) : State := (setLinkState s l 2).setFld fLnkStatusLanes (l / 8) (l % 8) (usable (s.link l))

/-- Its status, with the latency that its training measured (R275). -/
def trainedStatus (s : State) (l : Nat) : State :=
  (trainedLanes s l).setFld fLnkStatusLatency (l / 8) (l % 8) (min ((trainedLanes s l).link l).latency 4095)

/-- The link as it begins to negotiate. -/
def negotiating (x : Link) : Link := { x with gotRecord := false, hbCount := 0, failures := 0, backoffMs := 1 }

/-- The link in its new state, with a rate below the highest scored. -/
def trainedScored (s : State) (l : Nat) : State :=
  if linkRate ((trainedStatus s l).modLink l negotiating) l = 0 then (trainedStatus s l).modLink l negotiating
  else healthEvent ((trainedStatus s l).modLink l negotiating) (huLink l) 9 300

theorem trained_eq (s : State) (l : Nat) : trained s l =
    withHealth s (huLink l) (fun s => sendKind (trainedScored s l) l (if moduleReady (trainedScored s l) l then 1 else 2)) := rfl

theorem usable_lt (x : Link) : usable x < 4 := Nat.lt_of_le_of_lt Nat.and_le_right (by omega)

theorem huLink_lt (hl : l < 64) : huLink l < 1024 := by unfold huLink; omega

theorem link_trainedLanes (s : State) (l : Nat) : (trainedLanes s l).link l = s.link l := (link_setFld _ _ _ _ _ _).trans (link_setFld _ _ _ _ _ _)

theorem link_trainedStatus (s : State) (l : Nat) : (trainedStatus s l).link l = s.link l := (link_setFld _ _ _ _ _ _).trans (link_trainedLanes s l)

/-- The fields of the status of a link that has trained. -/
theorem fields_trainedStatus (s : State) (l : Nat) : linkState (trainedStatus s l) l = 2 ∧ linkRate (trainedStatus s l) l = linkRate s l ∧
    linkLanes (trainedStatus s l) l = usable (s.link l) ∧ (trainedStatus s l).fld fLnkStatusLatency (l / 8) (l % 8) = min (s.link l).latency 4095 := by
  refine ⟨?_, ?_, ?_, ?_⟩
  · exact (linkState_setFld_apart _ _ _ (by decide)).trans ((linkState_setFld_apart _ _ _ (by decide)).trans (linkState_setLinkState s l (by decide)))
  · exact (fld_setFld_apart _ _ _ _ (by decide)).trans ((fld_setFld_apart _ _ _ _ (by decide)).trans (fld_setFld_apart s _ _ _ (by decide)))
  · exact (fld_setFld_apart _ _ _ _ (by decide)).trans ((fld_setFld_same _ fLnkStatusLanes _ _ _ (by decide) (by decide)).trans
      (Nat.mod_eq_of_lt (usable_lt _)))
  · refine (fld_setFld_same _ fLnkStatusLatency _ _ _ (by decide) (by decide)).trans ?_
    rw [link_trainedLanes]
    exact Nat.mod_eq_of_lt (Nat.lt_of_le_of_lt (Nat.min_le_right _ _) (by decide))

/-- What the score of a lower rate leaves. -/
theorem trainedScored_frame (s : State) (hl : l < 64) : RegsBut [.mbxOutStatus, .hltUnit] (trainedStatus s l) (trainedScored s l) ∧
    (trainedScored s l).link l = negotiating (s.link l) ∧ (trainedScored s l).out.links = s.out.links := by
  have h0 : RegsBut [.mbxOutStatus, .hltUnit] (trainedStatus s l) ((trainedStatus s l).modLink l negotiating) := regsBut_modLink _ _ _
  have hk : ((trainedStatus s l).modLink l negotiating).link l = negotiating (s.link l) :=
    (link_modLink _ _ _).trans (congrArg negotiating (link_trainedStatus s l))
  unfold trainedScored
  split
  · exact ⟨h0, hk, rfl⟩
  · have hw := within_healthEvent ((trainedStatus s l).modLink l negotiating) (huLink l) 9 300 (Within.refl _) (Sub.refl _)
    exact ⟨h0.trans (regsBut_healthEvent _ 9 300 (by decide) (by decide) (huLink_lt hl)), (link_same (hw.same .links (by decide)) l).trans hk,
      congrArg Out.links (out_same (hw.same .out (by decide)))⟩

/-- A link that has trained negotiates, and sends its first record (R283, R285). -/
theorem trained_frame (s : State) (hl : l < 64) : linkState (trained s l) l = 2 ∧ linkRate (trained s l) l = linkRate s l ∧
    linkLanes (trained s l) l = usable (s.link l) ∧ (trained s l).fld fLnkStatusLatency (l / 8) (l % 8) = min (s.link l).latency 4095 ∧
    (trained s l).link l = negotiating (s.link l) ∧ (∃ fl, (trained s l).out.links = s.out.links ++ fl ∧ fl.length = 1) ∧
    Only [.registers, .links, .functions, .care, .out] s (trained s l) := by
  have hi := link_index hl
  obtain ⟨h1, h2, h3, h4⟩ := fields_trainedStatus s l
  obtain ⟨hr, hk, ho⟩ := trainedScored_frame s hl
  obtain ⟨hwr, hwo⟩ := withHealth_frame s (huLink l) (fun s => sendKind (trainedScored s l) l (if moduleReady (trainedScored s l) l then 1 else 2))
  have hreg {f : RField} (hf : f.reg = .lnkStatus) : (trained s l).fld f (l / 8) (l % 8) = (trainedStatus s l).fld f (l / 8) (l % 8) :=
    (hwr.fld (by rw [hf]; decide) hi.1 hi.2).trans (hr.fld (by rw [hf]; decide) hi.1 hi.2)
  refine ⟨(hreg rfl).trans h1, (hreg rfl).trans h2, (hreg rfl).trans h3, (hreg rfl).trans h4, (link_same (hwo .links (by decide)) l).trans hk,
    ⟨_, (congrArg Out.links (out_same (hwo .out (by decide)))).trans ((sendKind_links _ l _).trans (congrArg (· ++ _) ho)), rfl⟩, ?_⟩
  exact only_of_within (within_trained s l (Within.refl s) rfl)

/-! ### The lanes that a link uses -/

/-- The link on the lanes of a mask (R288). -/
def onLanes (lanes : Nat) (x : Link) : Link := { x with retired := 3 - lanes, lanesLocked := x.lanesLocked &&& lanes }

/-- The link with its lanes set in its status. -/
def lanesUsed (s : State) (l lanes : Nat) : State := (s.modLink l (onLanes lanes)).setFld fLnkStatusLanes (l / 8) (l % 8) lanes

/-- The flits from the last ACK go again on the lanes left, where the link is UP. -/
def lanesResent (s : State) (l lanes : Nat) : State :=
  if linkState (lanesUsed s l lanes) l = 4 then resendFrom (lanesUsed s l lanes) l ((lanesUsed s l lanes).link l).ackedSeq else lanesUsed s l lanes

theorem useLanes_eq (s : State) (l lanes : Nat) : useLanes s l lanes =
    withHealth s (huLink l) (fun s => if lanes = 0 then goDown (s.modLink l (onLanes lanes)) l else lanesResent s l lanes) := rfl

theorem lanesUsed_frame (s : State) (hl : l < 64) {lanes : Nat} (h : lanes < 4) : linkState (lanesUsed s l lanes) l = linkState s l ∧
    linkLanes (lanesUsed s l lanes) l = lanes ∧ (lanesUsed s l lanes).link l = onLanes lanes (s.link l) ∧ RegsBut [.lnkStatus] s (lanesUsed s l lanes) :=
  ⟨linkState_setFld_apart (s.modLink l (onLanes lanes)) _ _ (by decide),
    (fld_setFld_same _ fLnkStatusLanes _ _ _ (by decide) (by decide)).trans (Nat.mod_eq_of_lt h),
    (link_setFld _ _ _ _ _ _).trans (link_modLink _ _ _), (regsBut_modLink s l _).trans
      (regsBut_setFld (f := fLnkStatusLanes) _ _ (by decide) (link_index hl).1 (link_index hl).2)⟩

/-- What a link on other lanes has of its status, of its registers and of the flits that it sends. -/
theorem lanesResent_frame (hl : l < 64) {lanes : Nat} (h : lanes < 4) (hc : linkState s l ≠ 4 ∨ (s.link l).retryBad = []) :
    linkState (lanesResent s l lanes) l = linkState s l ∧ linkLanes (lanesResent s l lanes) l = lanes ∧
    (lanesResent s l lanes).link l = onLanes lanes (s.link l) ∧ RegsBut [.lnkStatus, .lnkRetry] s (lanesResent s l lanes) ∧
    (∃ fl, (lanesResent s l lanes).out.links = s.out.links ++ fl) ∧ Only [.registers, .links, .out] s (lanesResent s l lanes) := by
  have hi := link_index hl
  obtain ⟨h1, h2, h3, h4⟩ := lanesUsed_frame s hl h
  have ho : Only [.registers, .links, .out] s (lanesUsed s l lanes) :=
    only_of_within (within_setFld _ _ _ _ _ (within_modLink s l _ (Within.refl s) rfl) rfl)
  unfold lanesResent
  split
  next hup =>
    have hbad : ((lanesUsed s l lanes).link l).retryBad = [] := by
      rw [h3]
      exact hc.resolve_left fun hn => hn (h1.symm.trans hup)
    obtain ⟨g1, g2, ⟨fl, g3⟩, g4⟩ := resendFrom_clean hl hbad ((lanesUsed s l lanes).link l).ackedSeq
    exact ⟨(g2.linkState hl (by decide)).trans h1, (g2.fld (f := fLnkStatusLanes) (by decide) hi.1 hi.2).trans h2, (link_same g1 l).trans h3,
      (h4.mono (by decide)).trans (g2.mono (by decide)), ⟨fl, g3⟩, ho.chain (g4.mono (by decide))⟩
  · exact ⟨h1, h2, h3, h4.mono (by decide), ⟨[], (List.append_nil _).symm⟩, ho⟩

theorem useLanes_frame (hl : l < 64) {lanes : Nat} (h : lanes < 4) (h0 : lanes ≠ 0) (hc : linkState s l ≠ 4 ∨ (s.link l).retryBad = []) :
    linkState (useLanes s l lanes) l = linkState s l ∧ linkLanes (useLanes s l lanes) l = lanes ∧
    (useLanes s l lanes).link l = onLanes lanes (s.link l) ∧ RegsBut [.lnkStatus, .lnkRetry, .mbxOutStatus] s (useLanes s l lanes) ∧
    (∃ fl, (useLanes s l lanes).out.links = s.out.links ++ fl) ∧ Only [.registers, .links, .functions, .out] s (useLanes s l lanes) := by
  have hi := link_index hl
  obtain ⟨h1, h2, h3, h4, ⟨fl, h5⟩, h6⟩ := lanesResent_frame hl h hc
  have hg : (if lanes = 0 then goDown (s.modLink l (onLanes lanes)) l else lanesResent s l lanes) = lanesResent s l lanes := if_neg h0
  obtain ⟨g1, g2⟩ := withHealth_frame s (huLink l) (fun s => if lanes = 0 then goDown (s.modLink l (onLanes lanes)) l else lanesResent s l lanes)
  rw [← useLanes_eq] at g1 g2
  rw [hg] at g1 g2
  exact ⟨(g1.linkState hl (by decide)).trans h1, (g1.fld (f := fLnkStatusLanes) (by decide) hi.1 hi.2).trans h2, (link_same (g2 .links (by decide)) l).trans h3,
    (h4.mono (by decide)).trans (g1.mono (by decide)), ⟨fl, (congrArg Out.links (out_same (g2 .out (by decide)))).trans h5⟩,
    (h6.mono (by decide)).chain (g2.mono (by decide))⟩

/-- A link that loses its last lane goes DOWN (R288). -/
theorem useLanes_none (s : State) (hl : l < 64) : linkState (useLanes s l 0) l = 0 ∧ linkLanes (useLanes s l 0) l = 0 ∧
    RegsBut [.lnkStatus, .mbxOutStatus] s (useLanes s l 0) ∧ Only [.registers, .links, .functions] s (useLanes s l 0) := by
  have hi := link_index hl
  obtain ⟨g1, g2⟩ := withHealth_frame s (huLink l) (fun s => if (0 : Nat) = 0 then goDown (s.modLink l (onLanes 0)) l else lanesResent s l 0)
  rw [← useLanes_eq] at g1 g2
  rw [if_pos rfl] at g1 g2
  have hd : Only [.registers, .links, .functions] s (goDown (s.modLink l (onLanes 0)) l) :=
    only_of_within (within_goDown _ _ (within_modLink _ _ _ (Within.refl s) rfl) rfl)
  exact ⟨(g1.linkState hl (by decide)).trans (linkState_goDown _ l), (g1.fld (f := fLnkStatusLanes) (by decide) hi.1 hi.2).trans (linkLanes_goDown _ l),
    (((regsBut_modLink s l _).trans (regsBut_goDown _ hl)).mono (by decide)).trans (g1.mono (by decide)), hd.chain (g2.mono (by decide))⟩

/-! ### LANE_LOCK -/

/-- The lanes locked once a lane has locked at a rate (R285). -/
def locksWith (s : State) (l lane rate : Nat) : Nat :=
  (if linkState s l = 1 ∧ linkRate s l = rate then (s.link l).lanesLocked else 0) ||| 2 ^ lane

/-- A link in training on the lanes locked. -/
def laneTaken (s : State) (l lane rate ns : Nat) : State :=
  ((setLinkState s l 1).setFld fLnkStatusRate (l / 8) (l % 8) rate).setLink l { s.link l with lanesLocked := locksWith s l lane rate, latency := ns }

/-- A lane may lock (R285, R289). -/
def mayLock (s : State) (l lane rate : Nat) : Bool :=
  linkAlive s l && !(s.link l).startLoop && (linkState s l == 0 || linkState s l == 1) && !bitOf (s.link l).retired lane &&
    decide (max (s.link l).tryRate (s.fld fLnkCfgRateCap (l / 8) (l % 8)) ≤ rate) && bitOf (s.link l).partnerRates rate

theorem mayLock_eq (s : State) (l lane rate : Nat) : mayLock s l lane rate =
    !(!linkAlive s l || (s.link l).startLoop || (linkState s l != 0 && linkState s l != 1) || bitOf (s.link l).retired lane ||
      decide (rate < max (s.link l).tryRate (s.fld fLnkCfgRateCap (l / 8) (l % 8))) || !bitOf (s.link l).partnerRates rate) := by
  have hd : decide (max (s.link l).tryRate (s.fld fLnkCfgRateCap (l / 8) (l % 8)) ≤ rate) =
      !decide (rate < max (s.link l).tryRate (s.fld fLnkCfgRateCap (l / 8) (l % 8))) := by
    rw [← decide_not]
    exact decide_eq_decide.2 Nat.not_lt.symm
  rw [mayLock, hd]
  simp only [Bool.not_or, Bool.not_and, Bool.not_not, bne]

theorem laneLocked_of_not {lane rate ns : Nat} (h : mayLock s l lane rate = false) : laneLocked s l lane rate ns = s := by
  rw [mayLock_eq, Bool.not_eq_false'] at h
  exact if_pos h

theorem laneLocked_eq {lane rate ns : Nat} (h : mayLock s l lane rate = true) : laneLocked s l lane rate ns =
    if usable ((laneTaken s l lane rate ns).link l) = 3 - (s.link l).retired then trained (laneTaken s l lane rate ns) l
    else laneTaken s l lane rate ns := by
  rw [mayLock_eq, Bool.not_eq_true'] at h
  refine (if_neg (Bool.eq_false_iff.1 h)).trans ?_
  unfold laneTaken locksWith
  simp only [Bool.and_eq_true, decide_eq_true_eq]

theorem laneTaken_frame (s : State) {lane rate ns : Nat} (hr : rate < 4) : linkState (laneTaken s l lane rate ns) l = 1 ∧
    linkRate (laneTaken s l lane rate ns) l = rate ∧
    (laneTaken s l lane rate ns).link l = { s.link l with lanesLocked := locksWith s l lane rate, latency := ns } ∧
    OtherLinks l s (laneTaken s l lane rate ns) ∧ Only [.registers, .links] s (laneTaken s l lane rate ns) := by
  refine ⟨?_, ?_, link_setLink _ _ _, ?_, ?_⟩
  · exact (linkState_setFld_apart (setLinkState s l 1) _ _ (by decide)).trans (linkState_setLinkState s l (by decide))
  · exact (fld_setFld_same (setLinkState s l 1) fLnkStatusRate _ _ _ (by decide) (by decide)).trans (Nat.mod_eq_of_lt hr)
  · exact ((otherLinks_setFld s l _ _ _ _).trans (otherLinks_setFld _ l _ _ _ _)).trans (otherLinks_setLink _ l _)
  · exact only_of_within (within_setLink _ _ _ (within_setFld _ _ _ _ _ (within_setLinkState s l 1 (Within.refl s) rfl) rfl) rfl)

/-! ### LANE_RETIRE -/

/-- The link with a lane retired (R288). -/
def laneDropped (lane : Nat) (x : Link) : Link := { x with retired := x.retired ||| 2 ^ lane, badWords := [] }

/-- A retired lane, counted and scored. -/
def laneCounted (s : State) (l lane : Nat) : State :=
  (healthEvent (s.bump fLnkTrainDegrades (l / 8) (l % 8) 1) (huLink l) 14 1000).modLink l (laneDropped lane)

/-- The lanes left (R288). -/
def lanesLeft (s : State) (l lane : Nat) : Nat := (3 - (s.link l).retired) &&& (3 - 2 ^ lane)

/-- A link that has to move its lanes. -/
def moving (x : Link) : Link := { x with lanesMove := true }

/-- A lane may be retired. -/
def mayRetire (s : State) (l lane : Nat) : Bool := linkAlive s l && !bitOf (s.link l).retired lane && !([0, 7, 8].contains (linkState s l))

theorem mayRetire_eq (s : State) (l lane : Nat) : mayRetire s l lane =
    !(!linkAlive s l || bitOf (s.link l).retired lane || linkState s l == 0 || linkState s l == 7 || linkState s l == 8) := by
  simp only [mayRetire, List.contains_cons, List.contains_nil, Bool.or_false, Bool.not_or, Bool.not_not, Bool.and_assoc]

theorem retireLane_of_not {lane : Nat} (h : mayRetire s l lane = false) : retireLane s l lane = s := by
  rw [mayRetire_eq, Bool.not_eq_false'] at h
  exact if_pos h

theorem retireLane_eq {lane : Nat} (h : mayRetire s l lane = true) : retireLane s l lane =
    if lanesLeft s l lane = 0 then goDown (laneCounted s l lane) l
    else if linkState s l = 1 then
      (if usable ((laneCounted s l lane).link l) = lanesLeft s l lane then trained (laneCounted s l lane) l else laneCounted s l lane)
    else if linkState s l = 6 then (useLanes (laneCounted s l lane) l (lanesLeft s l lane)).modLink l moving
    else sendKind ((useLanes (laneCounted s l lane) l (lanesLeft s l lane)).modLink l moving) l 4 := by
  rw [mayRetire_eq, Bool.not_eq_true'] at h
  exact if_neg (Bool.eq_false_iff.1 h)

theorem laneCounted_frame (s : State) (hl : l < 64) (lane : Nat) : linkState (laneCounted s l lane) l = linkState s l ∧
    Counted s (laneCounted s l lane) fLnkTrainDegrades (l / 8) (l % 8) 1 ∧ (laneCounted s l lane).link l = laneDropped lane (s.link l) ∧
    Only [.registers, .links, .functions, .care] s (laneCounted s l lane) := by
  have hi := link_index hl
  have hr : RegsBut [.mbxOutStatus, .hltUnit] (s.bump fLnkTrainDegrades (l / 8) (l % 8) 1) (laneCounted s l lane) :=
    (regsBut_healthEvent _ 14 1000 (by decide) (by decide) (huLink_lt hl)).trans (regsBut_modLink _ _ _)
  have hw := within_healthEvent (s.bump fLnkTrainDegrades (l / 8) (l % 8) 1) (huLink l) 14 1000 (Within.refl _) (Sub.refl _)
  refine ⟨(hr.linkState hl (by decide)).trans (fld_bump_name s 1 (by decide) hi hi), ?_, ?_, ?_⟩
  · exact (hr.fld (by decide) hi.1 hi.2).trans (fld_bump_same s fLnkTrainDegrades _ _ 1 (by decide) (by decide))
  · exact (link_modLink _ _ _).trans (congrArg _ ((link_same (hw.same .links (by decide)) l).trans (link_setFld _ _ _ _ _ _)))
  · exact only_of_within (within_modLink _ _ _ (within_healthEvent _ _ _ _ (within_bump _ _ _ _ _ (Within.refl s) rfl) rfl) rfl)

theorem lanesLeft_lt (s : State) (l lane : Nat) : lanesLeft s l lane < 4 :=
  Nat.lt_of_le_of_lt (Nat.le_trans Nat.and_le_right (Nat.sub_le _ _)) (by decide)

/-- The last lane retired: DOWN. -/
theorem retireLane_last {lane : Nat} (hl : l < 64) (h : mayRetire s l lane = true) (h0 : lanesLeft s l lane = 0) :
    linkState (retireLane s l lane) l = 0 ∧ linkLanes (retireLane s l lane) l = 0 ∧
    Counted s (retireLane s l lane) fLnkTrainDegrades (l / 8) (l % 8) 1 ∧ Only [.registers, .links, .functions, .care] s (retireLane s l lane) := by
  have hi := link_index hl
  obtain ⟨-, h2, -, h4⟩ := laneCounted_frame s hl lane
  rw [retireLane_eq h, if_pos h0]
  exact ⟨linkState_goDown _ l, linkLanes_goDown _ l, ((regsBut_goDown _ hl).fld (by decide) hi.1 hi.2).trans h2,
    h4.chain (only_of_within (within_goDown _ l (Within.refl _) rfl))⟩

/-- A lane retired in training. -/
theorem retireLane_training {lane : Nat} (hl : l < 64) (h : mayRetire s l lane = true) (h0 : lanesLeft s l lane ≠ 0) (h1 : linkState s l = 1) :
    ((retireLane s l lane).link l).retired = (s.link l).retired ||| 2 ^ lane ∧ linkState (retireLane s l lane) l =
      (if (s.link l).lanesLocked &&& (3 - ((s.link l).retired ||| 2 ^ lane)) = lanesLeft s l lane then 2 else 1) ∧
    Only [.registers, .links, .functions, .care, .out] s (retireLane s l lane) := by
  obtain ⟨c1, -, c3, c4⟩ := laneCounted_frame s hl lane
  have hu : usable ((laneCounted s l lane).link l) = (s.link l).lanesLocked &&& (3 - ((s.link l).retired ||| 2 ^ lane)) := congrArg usable c3
  rw [retireLane_eq h, if_neg h0, if_pos h1, hu]
  split
  · obtain ⟨t1, -, -, -, t5, -, t7⟩ := trained_frame (laneCounted s l lane) hl
    exact ⟨by rw [t5, c3]; rfl, t1, (c4.mono (by decide)).chain t7⟩
  · exact ⟨by rw [c3]; rfl, c1.trans h1, c4.mono (by decide)⟩

/-- A link moved to the lanes left, before it says so to its partner. -/
theorem lanesMoved_frame {lane : Nat} (hl : l < 64) (h0 : lanesLeft s l lane ≠ 0) (hc : linkState s l ≠ 4 ∨ (s.link l).retryBad = []) :
    linkLanes ((useLanes (laneCounted s l lane) l (lanesLeft s l lane)).modLink l moving) l = lanesLeft s l lane ∧
    linkState ((useLanes (laneCounted s l lane) l (lanesLeft s l lane)).modLink l moving) l = linkState s l ∧
    ((useLanes (laneCounted s l lane) l (lanesLeft s l lane)).modLink l moving).link l =
      moving (onLanes (lanesLeft s l lane) (laneDropped lane (s.link l))) ∧
    Counted s ((useLanes (laneCounted s l lane) l (lanesLeft s l lane)).modLink l moving) fLnkTrainDegrades (l / 8) (l % 8) 1 ∧
    Only [.registers, .links, .functions, .care, .out] s ((useLanes (laneCounted s l lane) l (lanesLeft s l lane)).modLink l moving) := by
  have hi := link_index hl
  obtain ⟨c1, c2, c3, c4⟩ := laneCounted_frame s hl lane
  have hcc : linkState (laneCounted s l lane) l ≠ 4 ∨ ((laneCounted s l lane).link l).retryBad = [] := by rw [c1, c3]; exact hc
  obtain ⟨u1, u2, u3, u4, -, u6⟩ := useLanes_frame hl (lanesLeft_lt s l lane) h0 hcc
  refine ⟨u2, u1.trans c1, (link_modLink _ _ _).trans (congrArg moving (u3.trans (congrArg _ c3))), (u4.fld (by decide) hi.1 hi.2).trans c2, ?_⟩
  exact ((c4.mono (by decide)).chain (u6.mono (by decide))).chain (only_of_within (within_modLink _ _ _ (Within.refl _) rfl))

/-- A lane retired on a link that has trained: it goes on over the other. -/
theorem retireLane_other {lane : Nat} (hl : l < 64) (h : mayRetire s l lane = true) (h0 : lanesLeft s l lane ≠ 0) (h1 : linkState s l ≠ 1)
    (hc : linkState s l ≠ 4 ∨ (s.link l).retryBad = []) :
    linkLanes (retireLane s l lane) l = lanesLeft s l lane ∧ linkState (retireLane s l lane) l = linkState s l ∧
    ((retireLane s l lane).link l).lanesMove = true ∧ ((retireLane s l lane).link l).retired = 3 - lanesLeft s l lane ∧
    Counted s (retireLane s l lane) fLnkTrainDegrades (l / 8) (l % 8) 1 ∧ Only [.registers, .links, .functions, .care, .out] s (retireLane s l lane) := by
  obtain ⟨m1, m2, m3, m4, m5⟩ := lanesMoved_frame hl h0 hc
  rw [retireLane_eq h, if_neg h0, if_neg h1]
  split
  · exact ⟨m1, m2, by rw [m3]; rfl, by rw [m3]; rfl, m4, m5⟩
  · have hs := sendKind_only ((useLanes (laneCounted s l lane) l (lanesLeft s l lane)).modLink l moving) l 4
    have hr : RegsBut [] _ _ := regsBut_of_same (hs .registers (by decide))
    have hk := link_same (hs .links (by decide)) l
    exact ⟨(hr.fld (f := fLnkStatusLanes) (by decide) (link_index hl).1 (link_index hl).2).trans m1, (hr.linkState hl (by decide)).trans m2,
      by rw [hk, m3]; rfl, by rw [hk, m3]; rfl, (hr.fld (by decide) (link_index hl).1 (link_index hl).2).trans m4, m5.chain (hs.mono (by decide))⟩

/-! ### Retraining -/

theorem counted_startRetrain (s : State) (hl : l < 64) : Counted s (startRetrain s l) fLnkTrainRetrains (l / 8) (l % 8) 1 := by
  have hi := link_index hl
  unfold startRetrain
  refine ((regsBut_healthEvent (rs := [.mbxOutStatus, .hltUnit]) _ 8 100 (by decide) (by decide) (huLink_lt hl)).fld (by decide) hi.1 hi.2).trans ?_
  refine (fld_bump_same _ fLnkTrainRetrains _ _ 1 (by decide) (by decide)).trans ?_
  refine congrArg (fun n => min (n + 1) _) ?_
  exact (fld_modLink _ _ _ _ _ _).trans (fld_setFld_name s 6 (by decide) hi hi)

/-- The link on its lanes anew after a retraining. -/
def retrained (lanes : Nat) (x : Link) : Link := { x with failures := 0, lanesLocked := lanes }

/-- A link whose retraining ended well, as it goes UP. -/
def retrainedUp (s : State) (l latency : Nat) : State :=
  ((s.setFld fLnkStatusLatency (l / 8) (l % 8) (min latency 4095)).setFld fLnkStatusLanes (l / 8) (l % 8) (3 - (s.link l).retired)).modLink l
    (retrained (3 - (s.link l).retired))

/-- One more failure to retrain. -/
def failed (x : Link) : Link := { x with failures := x.failures + 1 }

theorem retrainEnd_ok (h : linkState s l = 6) (latency : Nat) : retrainEnd s l true latency = goUp (retrainedUp s l latency) l :=
  (if_neg (not_not_intro h)).trans (if_pos rfl)

theorem retrainEnd_failed (h : linkState s l = 6) (latency : Nat) : retrainEnd s l false latency =
    if 2 ≤ (((goDown s l).modLink l failed).link l).failures then lowerRate ((goDown s l).modLink l failed) l else (goDown s l).modLink l failed :=
  (if_neg (not_not_intro h)).trans (if_neg (by decide))

theorem retrainedUp_frame (s : State) (l latency : Nat) : linkLanes (retrainedUp s l latency) l = 3 - (s.link l).retired ∧
    (retrainedUp s l latency).fld fLnkStatusLatency (l / 8) (l % 8) = min latency 4095 ∧
    (retrainedUp s l latency).link l = retrained (3 - (s.link l).retired) (s.link l) ∧ Only [.registers, .links] s (retrainedUp s l latency) := by
  refine ⟨?_, ?_, ?_, ?_⟩
  · refine (fld_modLink _ _ _ _ _ _).trans ((fld_setFld_same _ fLnkStatusLanes _ _ _ (by decide) (by decide)).trans (Nat.mod_eq_of_lt ?_))
    exact Nat.lt_of_le_of_lt (Nat.sub_le _ _) (by decide)
  · refine (fld_modLink _ _ _ _ _ _).trans ((fld_setFld_apart (s.setFld fLnkStatusLatency _ _ _) _ _ _ (by decide)).trans ?_)
    refine (fld_setFld_same s fLnkStatusLatency _ _ _ (by decide) (by decide)).trans (Nat.mod_eq_of_lt ?_)
    exact Nat.lt_of_le_of_lt (Nat.min_le_right _ _) (by decide)
  · exact (link_modLink _ _ _).trans (congrArg _ ((link_setFld _ _ _ _ _ _).trans (link_setFld _ _ _ _ _ _)))
  · exact only_of_within (within_modLink _ _ _ (within_setFld _ _ _ _ _ (within_setFld _ _ _ _ _ (Within.refl s) rfl) rfl) rfl)

/-- A retraining that ends well takes the link UP on the lanes not retired (R276). -/
theorem retrainEnd_up (hl : l < 64) (h : linkState s l = 6) (hb : (s.link l).retryBad = []) (latency : Nat) :
    linkState (retrainEnd s l true latency) l = 4 ∧ linkLanes (retrainEnd s l true latency) l = 3 - (s.link l).retired ∧
    (retrainEnd s l true latency).fld fLnkStatusLatency (l / 8) (l % 8) = min latency 4095 ∧
    Only [.registers, .links, .out, .parts] s (retrainEnd s l true latency) := by
  obtain ⟨r1, r2, r3, r4⟩ := retrainedUp_frame s l latency
  have hbad : ((retrainedUp s l latency).link l).retryBad = [] := by rw [r3]; exact hb
  obtain ⟨g1, -, -, g4, g5⟩ := goUp_clean hl hbad
  rw [retrainEnd_ok h]
  exact ⟨g1, (g4 fLnkStatusLanes (by decide)).trans r1, (g4 _ (by decide)).trans r2, (r4.mono (by decide)).chain g5⟩

/-! ### A lower rate -/

theorem lowerRate_frame (s : State) (l : Nat) : linkState (lowerRate s l) l = linkState s l ∧ linkRate (lowerRate s l) l = min 2 (linkRate s l + 1) ∧
    ((lowerRate s l).link l).tryRate = min 2 (linkRate s l + 1) ∧ Only [.registers, .links] s (lowerRate s l) := by
  refine ⟨linkState_setFld_apart s _ _ (by decide), ?_, ?_, ?_⟩
  · refine (fld_modLink _ _ _ _ _ _).trans ((fld_setFld_same s fLnkStatusRate _ _ _ (by decide) (by decide)).trans (Nat.mod_eq_of_lt ?_))
    exact Nat.lt_of_le_of_lt (Nat.min_le_left _ _) (by decide)
  · rw [lowerRate, link_modLink]
  · exact only_of_within (within_lowerRate s l (Within.refl s) rfl)

theorem linkRate_goDown (s : State) (l : Nat) : linkRate (goDown s l) l = linkRate s l := fld_goDown_apart s l (by decide) (by decide)

theorem goDown_only (s : State) (l : Nat) : Only [.registers, .links] s (goDown s l) := only_of_within (within_goDown s l (Within.refl s) rfl)

/-- A retraining that fails takes the link DOWN, and a second one to a lower rate (R276, R289). -/
theorem retrainEnd_down (h : linkState s l = 6) (latency : Nat) : linkState (retrainEnd s l false latency) l = 0 ∧
    linkRate (retrainEnd s l false latency) l = (if 1 ≤ (s.link l).failures then min 2 (linkRate s l + 1) else linkRate s l) ∧
    Only [.registers, .links] s (retrainEnd s l false latency) := by
  have hf : (((goDown s l).modLink l failed).link l).failures = (s.link l).failures + 1 := by rw [link_modLink, link_goDown]; rfl
  have hs : linkState ((goDown s l).modLink l failed) l = 0 := (linkState_modLink _ _ _ _).trans (linkState_goDown s l)
  have hr : linkRate ((goDown s l).modLink l failed) l = linkRate s l := linkRate_goDown s l
  have ho : Only [.registers, .links] s ((goDown s l).modLink l failed) :=
    (goDown_only s l).chain (only_of_within (within_modLink _ _ _ (Within.refl _) rfl))
  rw [retrainEnd_failed h, hf]
  split
  next h2 =>
    obtain ⟨w1, w2, -, w4⟩ := lowerRate_frame ((goDown s l).modLink l failed) l
    exact ⟨w1.trans hs, by rw [if_pos (Nat.le_of_succ_le_succ h2), w2, hr], ho.chain w4⟩
  next h2 => exact ⟨hs, by rw [if_neg (fun h1 => h2 (Nat.succ_le_succ h1)), hr], ho⟩

/-! ### The obligation -/

/-- Settles O40, from what a lane that locks, a retired lane, the two ends of a retraining and a lower rate leave of a link. -/
theorem linkTraining : Obligations.LinkTraining := by
  unfold Obligations.LinkTraining
  refine ⟨?lock, ?retire, ?start, ?finish, ?timeout⟩
  case lock =>
    intro l lane rate ns s x i st may locked
    refine ⟨fun h => congrArg Host.Outcome.next (laneLocked_of_not h), fun h hu => ?_, fun h hu => ?_⟩
    all_goals
      obtain ⟨k1, k2, k3, k4, k5⟩ := laneTaken_frame (l := l.val) s (lane := lane.val) (rate := rate.val) (ns := ns) (by omega)
      have he : usable ((laneTaken s l.val lane.val rate.val ns).link l.val) = locked &&& (3 - x.retired) := congrArg usable k3
    · have hn : laneLocked s l.val lane.val rate.val ns = laneTaken s l.val lane.val rate.val ns :=
        (laneLocked_eq h).trans (if_neg fun hh => hu (he.symm.trans hh))
      exact ⟨_, congrArg Host.Outcome.next hn, k1, k2, k3, k4, k5⟩
    · have hn : laneLocked s l.val lane.val rate.val ns = trained (laneTaken s l.val lane.val rate.val ns) l.val :=
        (laneLocked_eq h).trans (if_pos (he.trans hu))
      obtain ⟨t1, t2, t3, t4, t5, ⟨fl, t6, t6'⟩, t7⟩ := trained_frame (laneTaken s l.val lane.val rate.val ns) l.isLt
      refine ⟨_, fl, congrArg Host.Outcome.next hn, t1, t2.trans k2, t3.trans (he.trans hu), t4.trans (by rw [k3]), by rw [t5]; rfl, ?_, t6', ?_⟩
      · exact t6.trans (congrArg (· ++ fl) (congrArg Out.links (out_same (k5 .out (by decide)))))
      · exact (k5.mono (by decide)).chain t7
  case retire =>
    intro l lane s x i may left
    refine ⟨fun h => congrArg Host.Outcome.next (retireLane_of_not h), fun h => ⟨⟨_, rfl, fun h0 h6 => ?_⟩, fun h0 => ⟨_, rfl, ?_⟩,
      fun h0 h1 hc => ⟨_, rfl, ?_⟩, fun h0 h1 => ⟨_, rfl, ?_⟩⟩⟩
    · exact (retireLane_other l.isLt h h0 (by rw [h6]; decide) (.inl (by rw [h6]; decide))).2.1.trans h6
    · exact retireLane_last l.isLt h h0
    · exact retireLane_other l.isLt h h0 h1 hc
    · exact retireLane_training l.isLt h h0 h1
  case start =>
    intro l s
    refine ⟨fun h => congrArg Host.Outcome.next (if_neg (by simp [h])), fun h => ⟨_, congrArg Host.Outcome.next (if_pos h), ?_⟩⟩
    exact ⟨linkState_startRetrain s l.isLt, counted_startRetrain s l.isLt, only_of_within (within_startRetrain s l.val (Within.refl s) rfl)⟩
  case finish =>
    intro l ns s
    refine ⟨fun h ok => congrArg Host.Outcome.next (if_pos h), fun h => ⟨⟨_, rfl⟩, fun hb => ⟨_, rfl, ?_⟩, ⟨_, rfl, ?_⟩⟩⟩
    · exact retrainEnd_up l.isLt h hb ns
    · exact retrainEnd_down h ns
  case timeout =>
    intro l s
    refine ⟨fun h => ⟨_, congrArg Host.Outcome.next (if_pos h), ?_⟩, fun h => congrArg Host.Outcome.next (if_neg h)⟩
    obtain ⟨w1, w2, w3, w4⟩ := lowerRate_frame (goDown s l.val) l.val
    rw [linkRate_goDown] at w2 w3
    exact ⟨w1.trans (linkState_goDown s _), w2, w3, (goDown_only s _).chain w4⟩

end Sys2Proof.Machine
end

section
/-! NEGOTIATE_RECEIVE, NOT_READY_RECEIVE, HEARTBEAT_RECEIVE, DEGRADE_RECEIVE and FENCED_RECEIVE (R283 to R290, R295, R298, R503). -/

namespace Sys2Proof.Machine

variable {s t : State} {l : Nat}

/-- Outcomes of equal states. -/
theorem next_congr (h : s = t) : (Host.Outcome.next s : Host.Outcome State Fault Refusal) = .next t := congrArg Host.Outcome.next h

/-! ### The checks of every record -/

section Take

variable {kind : Nat} {r : LinkRecord} {act : State → State}

theorem takeRecord_of_not (h : (linkAlive s l && takesRecords s l) = false) : takeRecord s l kind r act = s :=
  if_pos (by rw [← Bool.not_and, h]; rfl)

theorem takeRecord_checked (h : (linkAlive s l && takesRecords s l) = true) : takeRecord s l kind r act =
    if !recordOk r kind then hostileEvent s l fLnkHostileMalformed
    else if identityChanged s l r then
      (if linkState (hostileEvent s l fLnkHostileMalformed) l = 7 then hostileEvent s l fLnkHostileMalformed
        else startRetrain (hostileEvent s l fLnkHostileMalformed) l)
    else if linkState s l != 7 && wrongPartner s l r then fenceLink (notePartner s l r) l 2
    else act s :=
  if_neg (by rw [← Bool.not_and, h]; decide)

/-- A record whose form and sender are right is taken. -/
theorem takeRecord_act (h : (linkAlive s l && takesRecords s l) = true) (hok : recordOk r kind = true) (hid : identityChanged s l r = false)
    (hw : linkState s l = 7 ∨ wrongPartner s l r = false) : takeRecord s l kind r act = act s := by
  have hn : (linkState s l != 7 && wrongPartner s l r) = false := by rcases hw with hw | hw <;> simp [hw]
  rw [takeRecord_checked h, hok, hid, hn]
  rfl

theorem hostile_malformed (s : State) (hl : l < 64) : Counted s (hostileEvent s l fLnkHostileMalformed) fLnkHostileMalformed (l / 8) (l % 8) 1 ∧
    Only [.registers, .functions, .links, .out] s (hostileEvent s l fLnkHostileMalformed) :=
  have h := hostileEvent_frame s hl (f := fLnkHostileMalformed) rfl (by decide) (by decide)
  ⟨h.1, h.2.2⟩

theorem takeRecord_malformed (hl : l < 64) (h : (linkAlive s l && takesRecords s l) = true) (hok : recordOk r kind = false) :
    Counted s (takeRecord s l kind r act) fLnkHostileMalformed (l / 8) (l % 8) 1 ∧
    Only [.registers, .functions, .links, .out] s (takeRecord s l kind r act) := by
  rw [takeRecord_checked h, hok]
  exact hostile_malformed s hl

theorem regsBut_startRetrain (s : State) (hl : l < 64) : RegsBut [.lnkStatus, .lnkTrain, .mbxOutStatus, .hltUnit] s (startRetrain s l) := by
  have hi := link_index hl
  unfold startRetrain
  refine RegsBut.trans ?_ (regsBut_healthEvent _ 8 100 (by decide) (by decide) (huLink_lt hl))
  refine RegsBut.trans ?_ (regsBut_bump (f := fLnkTrainRetrains) _ 1 (by decide) hi.1 hi.2)
  exact (regsBut_setFld (f := fLnkStatusState) s 6 (by decide) hi.1 hi.2).trans (regsBut_modLink _ _ _)

/-- A sender that changed is a hostile event, and the link retrains if that does not fence it (R295). -/
theorem takeRecord_changed (hl : l < 64) (h : (linkAlive s l && takesRecords s l) = true) (hok : recordOk r kind = true)
    (hid : identityChanged s l r = true) : (linkState (takeRecord s l kind r act) l = 6 ∨ linkState (takeRecord s l kind r act) l = 7) ∧
    Counted s (takeRecord s l kind r act) fLnkHostileMalformed (l / 8) (l % 8) 1 ∧
    Only [.registers, .functions, .care, .links, .out] s (takeRecord s l kind r act) := by
  have hi := link_index hl
  obtain ⟨h1, h2⟩ := hostile_malformed s hl
  rw [takeRecord_checked h, hok, hid]
  show (linkState (if linkState (hostileEvent s l fLnkHostileMalformed) l = 7 then hostileEvent s l fLnkHostileMalformed
        else startRetrain (hostileEvent s l fLnkHostileMalformed) l) l = 6 ∨ _) ∧ _
  split
  next h7 => exact ⟨.inr h7, h1, h2.mono (by decide)⟩
  · refine ⟨.inl (linkState_startRetrain _ hl), ((regsBut_startRetrain _ hl).fld (by decide) hi.1 hi.2).trans h1, ?_⟩
    exact (h2.mono (by decide)).chain (only_of_within (within_startRetrain _ l (Within.refl _) rfl))

/-- A wrong partner fences the link (R287). -/
theorem takeRecord_wrong (hl : l < 64) (h : (linkAlive s l && takesRecords s l) = true) (hok : recordOk r kind = true)
    (hid : identityChanged s l r = false) (h7 : linkState s l ≠ 7) (hw : wrongPartner s l r = true) :
    linkState (takeRecord s l kind r act) l = 7 ∧ (takeRecord s l kind r act).fld fLnkStatusFenceCause (l / 8) (l % 8) = 2 ∧
    (takeRecord s l kind r act).fld fLnkPartnerModuleId (l / 8) (l % 8) = r.moduleId.toNat ∧
    Only [.registers, .functions, .links, .out] s (takeRecord s l kind r act) := by
  have hi := link_index hl
  obtain ⟨-, -, n3, -, -, n6⟩ := notePartner_frame s hl r
  have hf := fenceLink_frame (notePartner s l r) hl (cause := 2) (by decide)
  have hn : (linkState s l != 7 && wrongPartner s l r) = true := by simp [hw, h7]
  rw [takeRecord_checked h, hok, hid, hn]
  show linkState (fenceLink (notePartner s l r) l 2) l = 7 ∧ (fenceLink (notePartner s l r) l 2).fld _ _ _ = 2 ∧
    (fenceLink (notePartner s l r) l 2).fld _ _ _ = _ ∧ Only _ s (fenceLink (notePartner s l r) l 2)
  refine ⟨hf.1, hf.2.1, ((regsBut_fenceLink _ hl 2).fld (by decide) hi.1 hi.2).trans n3, ?_⟩
  exact (n6.mono (by decide)).chain (only_of_within (within_fenceLink _ l 2 (Within.refl _) rfl))

end Take

/-! ### What a record noted leaves of the module and of what the link sends -/

theorem linkState_notePartner (s : State) (hl : l < 64) (r : LinkRecord) : linkState (notePartner s l r) l = linkState s l :=
  (notePartner_frame s hl r).2.1.linkState hl (by decide)

theorem linkLanes_notePartner (s : State) (hl : l < 64) (r : LinkRecord) : linkLanes (notePartner s l r) l = linkLanes s l :=
  (notePartner_frame s hl r).2.1.fld (f := fLnkStatusLanes) (by decide) (link_index hl).1 (link_index hl).2

theorem moduleReady_notePartner (s : State) (hl : l < 64) (r : LinkRecord) : moduleReady (notePartner s l r) l = moduleReady s l := by
  have h : (notePartner s l r).fld fFltStatusModuleState 0 0 = s.fld fFltStatusModuleState 0 0 :=
    (notePartner_frame s hl r).2.1.fld (f := fFltStatusModuleState) (by decide) (by decide) (by decide)
  unfold moduleReady
  rw [h]
  rfl

/-- A record that a link sends depends on its link, on its lanes and on its module's state alone. -/
theorem recordFlit_congr (kind : Nat) (h1 : (t.link l).rxSeq = (s.link l).rxSeq ∧ (t.link l).freed0 = (s.link l).freed0 ∧
      (t.link l).freed1 = (s.link l).freed1 ∧ (t.link l).hbCount = (s.link l).hbCount)
    (h2 : linkLanes t l = linkLanes s l) (h3 : t.fld fFltStatusModuleState 0 0 = s.fld fFltStatusModuleState 0 0) :
    recordFlit t l (linkRecord t l kind) = recordFlit s l (linkRecord s l kind) := by
  obtain ⟨ha, hb, hc, hd⟩ := h1
  have h4 : flitLane t l 0 = flitLane s l 0 := by
    unfold flitLane
    rw [show t.fld fLnkStatusLanes (l / 8) (l % 8) = s.fld fLnkStatusLanes (l / 8) (l % 8) from h2]
  unfold recordFlit linkRecord
  rw [ha, hb, hc, hd, h2, h3, h4]

theorem recordFlit_notePartner (s : State) (hl : l < 64) (r : LinkRecord) (kind : Nat) :
    recordFlit (notePartner s l r) l (linkRecord (notePartner s l r) l kind) = recordFlit s l (linkRecord s l kind) := by
  obtain ⟨n1, n2, -⟩ := notePartner_frame s hl r
  refine recordFlit_congr kind ?_ (linkLanes_notePartner s hl r) (n2.fld (f := fFltStatusModuleState) (by decide) (by decide) (by decide))
  rw [n1]
  exact ⟨rfl, rfl, rfl, rfl⟩

/-! ### NEGOTIATE -/

/-- The link with the slots that its partner grants (R279, R284). -/
def granted (r : LinkRecord) (x : Link) : Link :=
  { x with granted0 := r.slots0.toNat, granted1 := r.slots1.toNat, sent0 := 0, sent1 := 0, partnerFreed0 := 0, partnerFreed1 := 0, freed0 := 0, freed1 := 0, backoffMs := 1 }

/-- A link that has settled version and credits. -/
def settled (s : State) (l : Nat) (r : LinkRecord) : State :=
  sendKind (((notePartner s l r).setFld fLnkStatusProtoVer (l / 8) (l % 8) 0x10).modLink l (granted r)) l 1

theorem negotiate_of_not (r : LinkRecord) (h : linkState s l ≠ 2) (h' : linkState s l ≠ 3) : negotiate s l r = s := if_pos (by simp [h, h'])

theorem negotiate_eq (r : LinkRecord) (hl : l < 64) (h : linkState s l = 2 ∨ linkState s l = 3) : negotiate s l r =
    if !sharesMajor r then (notePartner s l r).bump fLnkTrainVersionFail (l / 8) (l % 8) 1
    else if !moduleReady s l then sendKind (notePartner s l r) l 2
    else goUp (settled s l r) l := by
  rw [← moduleReady_notePartner s hl r]
  exact if_neg (by rcases h with h | h <;> simp [h])

theorem settled_frame (s : State) (hl : l < 64) (r : LinkRecord) : (settled s l r).fld fLnkStatusProtoVer (l / 8) (l % 8) = 0x10 ∧
    (settled s l r).link l = granted r (partnerNoted r (s.link l)) ∧ (settled s l r).now = s.now ∧ Only [.registers, .links, .out] s (settled s l r) := by
  obtain ⟨n1, -, -, -, -, n6⟩ := notePartner_frame s hl r
  have hs := sendKind_only (((notePartner s l r).setFld fLnkStatusProtoVer (l / 8) (l % 8) 0x10).modLink l (granted r)) l 1
  have hn : (settled s l r).now = (((notePartner s l r).setFld fLnkStatusProtoVer (l / 8) (l % 8) 0x10).modLink l (granted r)).now :=
    congrArg Module.timeNs (hs .module (by decide))
  refine ⟨?_, ?_, hn.trans (congrArg Module.timeNs (n6 .module (by decide))), ?_⟩
  · exact (fld_congr (hs .registers (by decide)) _ _ _).trans ((fld_modLink _ _ _ _ _ _).trans (fld_setFld_same _ fLnkStatusProtoVer _ _ _ (by decide) (by decide)))
  · exact (link_same (hs .links (by decide)) l).trans ((link_modLink _ _ _).trans (congrArg _ ((link_setFld _ _ _ _ _ _).trans n1)))
  · refine Only.chain ?_ (hs.mono (by decide))
    refine (n6.mono (by decide)).chain ?_
    exact only_of_within (within_modLink _ _ _ (within_setFld _ _ _ _ _ (Within.refl _) rfl) rfl)

/-- A link that goes UP on a NEGOTIATE (R279, R284, R285). -/
theorem settled_up (hl : l < 64) (r : LinkRecord) (hb : (s.link l).retryBad = []) : linkState (goUp (settled s l r) l) l = 4 ∧
    (goUp (settled s l r) l).fld fLnkStatusProtoVer (l / 8) (l % 8) = 0x10 ∧ ((goUp (settled s l r) l).link l).granted0 = r.slots0.toNat ∧
    ((goUp (settled s l r) l).link l).granted1 = r.slots1.toNat ∧ ((goUp (settled s l r) l).link l).partnerRates = r.rates.toNat ∧
    ((goUp (settled s l r) l).link l).lastHb = s.now ∧ Only [.registers, .links, .out, .parts] s (goUp (settled s l r) l) := by
  obtain ⟨f1, f2, f3, f4⟩ := settled_frame s hl r
  have hbad : ((settled s l r).link l).retryBad = [] := by rw [f2]; exact hb
  obtain ⟨g1, g2, -, g4, g5⟩ := goUp_clean hl hbad
  rw [f2, f3] at g2
  exact ⟨g1, (g4 _ (by decide)).trans f1, congrArg Link.granted0 g2, congrArg Link.granted1 g2, congrArg Link.partnerRates g2, congrArg Link.lastHb g2,
    (f4.mono (by decide)).chain g5⟩

/-! ### HEARTBEAT -/

/-- The intervals missed, counted where the link carries messages (R298). -/
def missedCounted (s : State) (l : Nat) : State := if linkTakes s l then s.bump fLnkTrainHbMissed (l / 8) (l % 8) (hbMissed s l) else s

/-- The link with its clock of heartbeats begun. -/
def heard (now : Nat) (x : Link) : Link := { x with lastHb := now, hbCounted := 0 }

/-- A link that has heard its partner. -/
def heardFrom (s : State) (l : Nat) (r : LinkRecord) : State := (notePartner (missedCounted s l) l r).modLink l (heard (missedCounted s l).now)

theorem heartbeat_eq (s : State) (l : Nat) (r : LinkRecord) : heartbeat s l r =
    if linkState (heardFrom s l r) l = 5 then goUp (heardFrom s l r) l else heardFrom s l r := rfl

theorem missedCounted_frame (s : State) (hl : l < 64) : Counted s (missedCounted s l) fLnkTrainHbMissed (l / 8) (l % 8) (if linkTakes s l then hbMissed s l else 0) ∧
    linkState (missedCounted s l) l = linkState s l ∧ (missedCounted s l).link l = s.link l ∧ (missedCounted s l).now = s.now ∧
    Only [.registers] s (missedCounted s l) := by
  have hi := link_index hl
  unfold missedCounted
  split
  · exact ⟨fld_bump_same s fLnkTrainHbMissed _ _ _ (by decide) (by decide), fld_bump_name s _ (by decide) hi hi, link_setFld _ _ _ _ _ _, rfl, setFld_only _ _ _ _ _⟩
  · refine ⟨?_, rfl, rfl, rfl, Only.refl _ s⟩
    exact (Nat.min_eq_left (Nat.le_sub_one_of_lt (fld_lt s _ _ _))).symm

theorem heardFrom_frame (s : State) (hl : l < 64) (r : LinkRecord) :
    Counted s (heardFrom s l r) fLnkTrainHbMissed (l / 8) (l % 8) (if linkTakes s l then hbMissed s l else 0) ∧
    linkState (heardFrom s l r) l = linkState s l ∧ (heardFrom s l r).link l = heard s.now (partnerNoted r (s.link l)) ∧ (heardFrom s l r).now = s.now ∧
    Only [.registers, .links] s (heardFrom s l r) := by
  have hi := link_index hl
  obtain ⟨m1, m2, m3, m4, m5⟩ := missedCounted_frame s hl
  obtain ⟨n1, n2, -, -, -, n6⟩ := notePartner_frame (missedCounted s l) hl r
  refine ⟨?_, ?_, ?_, m4, ?_⟩
  · exact (fld_modLink _ _ _ _ _ _).trans ((n2.fld (by decide) hi.1 hi.2).trans m1)
  · exact (linkState_modLink _ _ _ _).trans ((n2.linkState hl (by decide)).trans m2)
  · exact (link_modLink _ _ _).trans (by rw [n1, m3, m4])
  · exact ((m5.mono (by decide)).chain n6).chain (only_of_within (within_modLink _ _ _ (Within.refl _) rfl))

/-- A HEARTBEAT on a link that is not SILENT. -/
theorem heartbeat_of_not_silent (hl : l < 64) (r : LinkRecord) (h : linkState s l ≠ 5) : heartbeat s l r = heardFrom s l r :=
  (heartbeat_eq s l r).trans (if_neg fun h5 => h ((heardFrom_frame s hl r).2.1.symm.trans h5))

theorem heartbeat_frame (hl : l < 64) (r : LinkRecord) (hc : linkState s l ≠ 5 ∨ (s.link l).retryBad = []) :
    ((heartbeat s l r).link l).lastHb = s.now ∧ ((heartbeat s l r).link l).hbCounted = 0 ∧
    linkState (heartbeat s l r) l = (if linkState s l = 5 then 4 else linkState s l) ∧
    Counted s (heartbeat s l r) fLnkTrainHbMissed (l / 8) (l % 8) (if linkTakes s l then hbMissed s l else 0) ∧
    Only [.registers, .links, .out, .parts] s (heartbeat s l r) := by
  obtain ⟨f1, f2, f3, f4, f5⟩ := heardFrom_frame s hl r
  by_cases h5 : linkState s l = 5
  · have he : heartbeat s l r = goUp (heardFrom s l r) l := (heartbeat_eq s l r).trans (if_pos (f2.trans h5))
    have hbad : ((heardFrom s l r).link l).retryBad = [] := by rw [f3]; exact hc.resolve_left fun hn => hn h5
    obtain ⟨g1, g2, g3, -, g5⟩ := goUp_clean hl hbad
    rw [f3, f4] at g2
    rw [he, if_pos h5]
    exact ⟨congrArg Link.lastHb g2, congrArg Link.hbCounted g2, g1, (g3.fld (by decide) (link_index hl).1 (link_index hl).2).trans f1, (f5.mono (by decide)).chain g5⟩
  · rw [heartbeat_of_not_silent hl r h5, f3, if_neg h5]
    exact ⟨rfl, rfl, f2, f1, f5.mono (by decide)⟩

/-! ### DEGRADE -/

/-- The lanes that both ends are left with (R288). -/
def commonLanes (s : State) (l : Nat) (r : LinkRecord) : Nat := linkLanes s l &&& bitsOf r.lanes.toNat 1 0

/-- The link whose partner has moved. -/
def partnerMoved (x : Link) : Link := { x with lanesMove := false }

/-- A link that knows that its partner has moved. -/
def movedNoted (s : State) (l : Nat) (r : LinkRecord) : State := (notePartner s l r).modLink l partnerMoved

theorem degrade_fenced (hl : l < 64) (r : LinkRecord) (h : linkState s l = 7) : degrade s l r = notePartner s l r :=
  if_neg (by rw [linkState_notePartner s hl r, h]; decide)

theorem degrade_eq (hl : l < 64) (r : LinkRecord) (ht : takesRecords s l = true) (h : linkState s l ≠ 7) : degrade s l r =
    if commonLanes s l r = linkLanes s l then movedNoted s l r
    else if commonLanes s l r = 0 then useLanes (movedNoted s l r) l (commonLanes s l r)
    else sendKind (useLanes (movedNoted s l r) l (commonLanes s l r)) l 4 := by
  have hs := linkState_notePartner s hl r
  have hst : linkState s l = 2 ∨ linkState s l = 3 ∨ linkState s l = 4 ∨ linkState s l = 5 := by
    simpa [takesRecords, h] using ht
  have hc : linkLanes (notePartner s l r) l &&& bitsOf r.lanes.toNat 1 0 = commonLanes s l r := congrArg (· &&& _) (linkLanes_notePartner s hl r)
  have hm : linkLanes (movedNoted s l r) l = linkLanes s l := linkLanes_notePartner s hl r
  refine (if_pos (by rcases hst with h | h | h | h <;> simp [hs, h])).trans ?_
  show (if linkLanes (notePartner s l r) l &&& bitsOf r.lanes.toNat 1 0 = linkLanes (movedNoted s l r) l then movedNoted s l r
    else if linkLanes (notePartner s l r) l &&& bitsOf r.lanes.toNat 1 0 = 0 then
      useLanes (movedNoted s l r) l (linkLanes (notePartner s l r) l &&& bitsOf r.lanes.toNat 1 0)
    else sendKind (useLanes (movedNoted s l r) l (linkLanes (notePartner s l r) l &&& bitsOf r.lanes.toNat 1 0)) l 4) = _
  rw [hc, hm]

theorem movedNoted_frame (s : State) (hl : l < 64) (r : LinkRecord) : linkState (movedNoted s l r) l = linkState s l ∧
    linkLanes (movedNoted s l r) l = linkLanes s l ∧ (movedNoted s l r).link l = partnerMoved (partnerNoted r (s.link l)) ∧
    Only [.registers, .links] s (movedNoted s l r) := by
  obtain ⟨n1, -, -, -, -, n6⟩ := notePartner_frame s hl r
  exact ⟨(linkState_modLink _ _ _ _).trans (linkState_notePartner s hl r), (fld_modLink _ _ _ _ _ _).trans (linkLanes_notePartner s hl r),
    (link_modLink _ _ _).trans (congrArg _ n1), n6.chain (only_of_within (within_modLink _ _ _ (Within.refl _) rfl))⟩

theorem commonLanes_lt (s : State) (l : Nat) (r : LinkRecord) : commonLanes s l r < 4 :=
  Nat.lt_of_le_of_lt Nat.and_le_right (bitsOf_lt _ 1 0)

/-- A DEGRADE that leaves other lanes moves the link and is answered (R288). -/
theorem degrade_moves (hl : l < 64) (r : LinkRecord) (ht : takesRecords s l = true) (h : linkState s l ≠ 7) (h0 : commonLanes s l r ≠ 0)
    (hn : commonLanes s l r ≠ linkLanes s l) (hc : linkState s l ≠ 4 ∨ (s.link l).retryBad = []) :
    linkLanes (degrade s l r) l = commonLanes s l r ∧ linkState (degrade s l r) l = linkState s l ∧
    ((degrade s l r).link l).retired = 3 - commonLanes s l r ∧
    (∃ fl, (degrade s l r).out.links = s.out.links ++ fl ++ [(l, recordFlit (degrade s l r) l (linkRecord (degrade s l r) l 4))]) ∧
    Only [.registers, .links, .functions, .care, .out] s (degrade s l r) := by
  obtain ⟨m1, -, m3, m4⟩ := movedNoted_frame s hl r
  have hcc : linkState (movedNoted s l r) l ≠ 4 ∨ ((movedNoted s l r).link l).retryBad = [] := by rw [m1, m3]; exact hc
  obtain ⟨u1, u2, u3, -, ⟨fl, u5⟩, u6⟩ := useLanes_frame hl (commonLanes_lt s l r) h0 hcc
  rw [degrade_eq hl r ht h, if_neg hn, if_neg h0]
  refine ⟨u2, u1.trans m1, by rw [link_sendKind, u3]; rfl, ⟨fl, ?_⟩, ?_⟩
  · refine (sendKind_links _ l 4).trans ?_
    rw [u5]
    rfl
  · exact ((m4.mono (by decide)).chain (u6.mono (by decide))).chain ((sendKind_only _ l 4).mono (by decide))

/-- A DEGRADE that leaves no lane takes the link DOWN. -/
theorem degrade_down (hl : l < 64) (r : LinkRecord) (ht : takesRecords s l = true) (h : linkState s l ≠ 7) (h0 : commonLanes s l r = 0)
    (hn : commonLanes s l r ≠ linkLanes s l) : linkLanes (degrade s l r) l = 0 ∧ linkState (degrade s l r) l = 0 ∧
    Only [.registers, .links, .functions, .care] s (degrade s l r) := by
  obtain ⟨-, -, -, m4⟩ := movedNoted_frame s hl r
  obtain ⟨u1, u2, -, u4⟩ := useLanes_none (movedNoted s l r) hl
  rw [degrade_eq hl r ht h, if_neg hn, if_pos h0, h0]
  exact ⟨u2, u1, (m4.mono (by decide)).chain (u4.mono (by decide))⟩

theorem degrade_same (hl : l < 64) (r : LinkRecord) (ht : takesRecords s l = true) (h : linkState s l ≠ 7)
    (hn : commonLanes s l r = linkLanes s l) : degrade s l r = movedNoted s l r := (degrade_eq hl r ht h).trans (if_pos hn)

/-! ### NOT_READY -/

/-- The link whose back-off begins anew (R286). -/
def backoffBegun (x : Link) : Link := { x with backoffMs := 1 }

theorem notReady_eq (hl : l < 64) (r : LinkRecord) : notReady s l r =
    if linkState s l = 2 then (setLinkState (notePartner s l r) l 3).modLink l backoffBegun else notePartner s l r := by
  rw [← linkState_notePartner s hl r]
  rfl

theorem moduleState_of_recordOk {r : LinkRecord} {kind : Nat} (h : recordOk r kind = true) : r.moduleState.toNat % 8 = r.moduleState.toNat := by
  simp only [recordOk, within, Bool.and_eq_true, decide_eq_true_eq] at h
  omega

theorem notReady_frame (hl : l < 64) {r : LinkRecord} {kind : Nat} (hok : recordOk r kind = true) :
    linkState (notReady s l r) l = (if linkState s l = 2 then 3 else linkState s l) ∧
    (linkState s l = 2 → ((notReady s l r).link l).backoffMs = 1) ∧
    (notReady s l r).fld fLnkPartnerModuleState (l / 8) (l % 8) = r.moduleState.toNat ∧ Only [.registers, .links] s (notReady s l r) := by
  have hi := link_index hl
  obtain ⟨-, -, -, n4, -, n6⟩ := notePartner_frame s hl r
  rw [moduleState_of_recordOk hok] at n4
  rw [notReady_eq hl r]
  split
  · refine ⟨(linkState_modLink _ _ _ _).trans (linkState_setLinkState _ l (by decide)), fun _ => by rw [link_modLink]; rfl, ?_, ?_⟩
    · exact (fld_modLink _ _ _ _ _ _).trans ((fld_setFld_name _ 3 (by decide) hi hi).trans n4)
    · exact n6.chain (only_of_within (within_modLink _ _ _ (within_setLinkState _ l 3 (Within.refl _) rfl) rfl))
  next h2 => exact ⟨linkState_notePartner s hl r, fun h => absurd h h2, n4, n6⟩

/-! ### The obligation -/

theorem takesRecords_of (h : linkState s l = 2 ∨ linkState s l = 3 ∨ linkState s l = 4 ∨ linkState s l = 5 ∨ linkState s l = 7) : takesRecords s l = true := by
  rcases h with h | h | h | h | h <;> simp [takesRecords, h]

/-- Settles O38, from the checks that every record passes and what each kind of record that is taken leaves. -/
theorem linkRecords : Obligations.LinkRecords := by
  unfold Obligations.LinkRecords
  refine ⟨?checks, ?taken⟩
  case checks =>
    intro l r s kind i hk
    have he : ∃ act, exec i s = .next (takeRecord s l.val kind r act) := by
      rcases hk with ⟨rfl, rfl⟩ | ⟨rfl, rfl⟩ | ⟨rfl, rfl⟩ | ⟨rfl, rfl⟩ | ⟨rfl, rfl⟩ <;> exact ⟨_, rfl⟩
    obtain ⟨act, he⟩ := he
    rw [he]
    refine ⟨fun h => next_congr (takeRecord_of_not h), fun h => ⟨fun hok => ⟨_, rfl, ?_⟩, fun hok hid => ⟨_, rfl, ?_⟩,
      fun hok hid h7 hw => ⟨_, rfl, ?_⟩⟩⟩
    · exact takeRecord_malformed l.isLt h hok
    · exact takeRecord_changed l.isLt h hok hid
    · exact takeRecord_wrong l.isLt h hok hid h7 hw
  case taken =>
    intro l r s hlive hid hw
    have hl := l.isLt
    have htake {kind : Nat} (act : State → State) (hok : recordOk r kind = true) (ht : takesRecords s l.val = true) :
        takeRecord s l.val kind r act = act s := takeRecord_act (by rw [hlive, ht]; rfl) hok hid hw
    obtain ⟨n1, -, n3, -, -, n6⟩ := notePartner_frame s hl r
    refine ⟨fun hok => ⟨fun hst => ?negotiating, fun hst => ?other⟩, fun hok ht => ⟨_, next_congr (htake _ hok ht), notReady_frame hl hok⟩,
      fun hok ht => ?beat, fun hok ht => ?degrade, fun hok ht => ⟨_, next_congr (htake _ hok ht), ?_, ?_, ?_⟩⟩
    case negotiating =>
      have ht : takesRecords s l.val = true := takesRecords_of (by tauto)
      have he := next_congr ((htake (fun t => negotiate t l.val r) hok ht).trans (negotiate_eq r hl hst))
      refine ⟨fun hm => ?_, fun hm hr => ?_, fun hm hr => ?_⟩
      · rw [hm] at he
        obtain ⟨-, n2, -⟩ := notePartner_frame s hl r
        refine ⟨_, he, ?_, ?_, n6.chain ((setFld_only _ _ _ _ _).mono (by decide))⟩
        · exact (fld_bump_name _ 1 (by decide) (link_index hl) (link_index hl)).trans (linkState_notePartner s hl r)
        · refine (fld_bump_same _ fLnkTrainVersionFail _ _ 1 (by decide) (by decide)).trans ?_
          exact congrArg (fun n => min (n + 1) _) (n2.fld (by decide) (link_index hl).1 (link_index hl).2)
      · rw [hm, hr] at he
        refine ⟨_, he, linkState_notePartner s hl r, ?_, (n6.mono (by decide)).chain ((sendKind_only _ l.val 2).mono (by decide))⟩
        exact (sendKind_links _ l.val 2).trans (congrArg (fun f => s.out.links ++ [(l.val, f)]) (recordFlit_notePartner s hl r 2))
      · rw [hm, hr] at he
        exact ⟨⟨_, he⟩, fun hb => ⟨_, he, settled_up hl r hb⟩⟩
    case other =>
      have ht : takesRecords s l.val = true := takesRecords_of (by tauto)
      exact next_congr ((htake _ hok ht).trans (negotiate_of_not r (by omega) (by omega)))
    case beat =>
      have he := next_congr (htake (fun t => heartbeat t l.val r) hok ht)
      refine ⟨⟨_, he, fun h5 => ?_⟩, fun hc => ⟨_, he, heartbeat_frame hl r hc⟩⟩
      exact (heartbeat_frame hl r (.inl h5)).2.2.1.trans (if_neg h5)
    case degrade =>
      intro lanes
      have he := next_congr (htake (fun t => degrade t l.val r) hok ht)
      obtain ⟨m1, m2, m3, m4⟩ := movedNoted_frame s hl r
      refine ⟨⟨_, he, fun h7 hs => ?_⟩, fun hc => ⟨_, he, ?_⟩, fun h7 h0 hn hc => ?_, fun h7 h0 hn => ⟨_, he, degrade_down hl r ht h7 h0 hn⟩⟩
      · rw [degrade_same hl r ht h7 hs, m3]
        exact ⟨rfl, m1⟩
      · by_cases h7 : linkState s l.val = 7
        · rw [degrade_fenced hl r h7]
          exact ⟨linkLanes_notePartner s hl r, n6⟩
        · rw [degrade_same hl r ht h7 (hc.resolve_left h7)]
          exact ⟨m2, m4⟩
      · obtain ⟨d1, d2, d3, ⟨fl, d4⟩, d5⟩ := degrade_moves hl r ht h7 h0 hn hc
        exact ⟨_, fl, he, d1, d2, d3, d4, d5⟩
    · exact congrArg Link.partnerFenced (link_modLink _ _ _)
    · exact (fld_modLink _ _ _ _ _ _).trans n3
    · exact n6.chain (only_of_within (within_modLink _ _ _ (Within.refl _) rfl))

end Sys2Proof.Machine
end

section
/-! HBM_LOOP_START, HBM_LOOP_DONE, PATROL_SCRUB_READ, HBM_REFRESH and UNSCHEDULED_REFRESH (R56, R58, R67, R68, R70, R249). -/

namespace Sys2Proof.Machine

variable {s t : State} {k : Nat}

/-! ### Loop-back -/

/-- MODE and PATTERN as written to HBM_LOOP (R70). -/
def loopWritten (s : State) (g v : Nat) : State :=
  (s.setFld fHbmLoopPattern (g / 3) (g % 3) (bitsOf v 11 8)).setFld fHbmLoopMode (g / 3) (g % 3) (bitsOf v 1 0)

theorem hbmLoopWrite_eq {g : Nat} (value : Word) (h : hbmOnline s g = false) : hbmLoopWrite s g value =
    if bitsOf value.toNat 1 0 = 0 ∨ bitsOf value.toNat 1 0 = 3 then (loopWritten s g value.toNat).setFld fHbmLoopStart (g / 3) (g % 3) 0
    else if bitOf value.toNat 15 then
      ((loopWritten s g value.toNat).setFld fHbmLoopStart (g / 3) (g % 3) 1).setFld fHbmLoopResultDone (g / 3) (g % 3) 0
    else loopWritten s g value.toNat := if_neg (by simp [h])

theorem stack_index {g : Nat} (hg : g < 24) : g / 3 < 64 ∧ g % 3 < 1024 := ⟨by omega, by omega⟩

theorem loopWritten_fields (s : State) (g v : Nat) : (loopWritten s g v).fld fHbmLoopMode (g / 3) (g % 3) = bitsOf v 1 0 ∧
    (loopWritten s g v).fld fHbmLoopPattern (g / 3) (g % 3) = bitsOf v 11 8 := by
  refine ⟨(fld_setFld_same _ fHbmLoopMode _ _ _ (by decide) (by decide)).trans (Nat.mod_eq_of_lt (bitsOf_lt v 1 0)), ?_⟩
  refine (fld_setFld_apart _ _ _ _ (by decide)).trans ?_
  exact (fld_setFld_same s fHbmLoopPattern _ _ _ (by decide) (by decide)).trans (Nat.mod_eq_of_lt (bitsOf_lt v 11 8))

/-- What a write to HBM_LOOP of a stack that is not ONLINE leaves (R70). -/
theorem hbmLoopWrite_frame {g : Nat} (hg : g < 24) (value : Word) (h : hbmOnline s g = false) :
    (hbmLoopWrite s g value).fld fHbmLoopMode (g / 3) (g % 3) = bitsOf value.toNat 1 0 ∧
    (hbmLoopWrite s g value).fld fHbmLoopPattern (g / 3) (g % 3) = bitsOf value.toNat 11 8 ∧
    (bitsOf value.toNat 1 0 = 1 ∨ bitsOf value.toNat 1 0 = 2 → bitOf value.toNat 15 = true →
      (hbmLoopWrite s g value).fld fHbmLoopStart (g / 3) (g % 3) = 1 ∧ (hbmLoopWrite s g value).fld fHbmLoopResultDone (g / 3) (g % 3) = 0) ∧
    (bitsOf value.toNat 1 0 = 0 ∨ bitsOf value.toNat 1 0 = 3 → (hbmLoopWrite s g value).fld fHbmLoopStart (g / 3) (g % 3) = 0) ∧
    Only [.registers] s (hbmLoopWrite s g value) := by
  have hi := stack_index hg
  obtain ⟨h1, h2⟩ := loopWritten_fields s g value.toNat
  have ho : Only [.registers] s (loopWritten s g value.toNat) := (setFld_only s _ _ _ _).chain (setFld_only _ _ _ _ _)
  rw [hbmLoopWrite_eq value h]
  split
  next hm =>
    refine ⟨(fld_setFld_apart _ _ _ _ (by decide)).trans h1, (fld_setFld_apart _ _ _ _ (by decide)).trans h2, fun hn => by omega, fun _ => ?_,
      ho.chain (setFld_only _ _ _ _ _)⟩
    exact fld_setFld_same _ fHbmLoopStart _ _ 0 (by decide) (by decide)
  next hm =>
    split
    · have hd {f : RField} (hf : f.reg = .hbmLoop) : (((loopWritten s g value.toNat).setFld fHbmLoopStart (g / 3) (g % 3) 1).setFld fHbmLoopResultDone (g / 3) (g % 3) 0).fld
          f (g / 3) (g % 3) = ((loopWritten s g value.toNat).setFld fHbmLoopStart (g / 3) (g % 3) 1).fld f (g / 3) (g % 3) :=
        fld_setFld_name _ 0 (by rw [hf]; decide) hi hi
      refine ⟨(hd rfl).trans ((fld_setFld_apart _ _ _ _ (by decide)).trans h1), (hd rfl).trans ((fld_setFld_apart _ _ _ _ (by decide)).trans h2),
        fun _ _ => ⟨(hd rfl).trans (fld_setFld_same _ fHbmLoopStart _ _ 1 (by decide) (by decide)), fld_setFld_same _ fHbmLoopResultDone _ _ 0 (by decide) (by decide)⟩,
        fun hn => absurd hn hm, (ho.chain (setFld_only _ _ _ _ _)).chain (setFld_only _ _ _ _ _)⟩
    next hb => exact ⟨h1, h2, fun _ hb' => absurd hb' hb, fun hn => absurd hn hm, ho⟩

/-- The result of a loop-back run before DONE (R70). -/
def loopCounted (s : State) (g errors lanes : Nat) : State :=
  ((s.setFld fHbmLoopStart (g / 3) (g % 3) 0).setFld fHbmLoopResultErrors (g / 3) (g % 3) (min errors (2 ^ 32 - 1))).setFld
    fHbmLoopResultLanesFailed (g / 3) (g % 3) (min lanes (2 ^ 16 - 1))

theorem hbmLoopDoneOp_eq {g : Nat} (h : s.fld fHbmLoopStart (g / 3) (g % 3) ≠ 0) (errors lanes : Nat) :
    hbmLoopDoneOp g errors lanes s = (loopCounted s g errors lanes).setFld fHbmLoopResultDone (g / 3) (g % 3) 1 := if_neg h

theorem loopCounted_fields (s : State) {g : Nat} (hg : g < 24) (errors lanes : Nat) : (loopCounted s g errors lanes).fld fHbmLoopStart (g / 3) (g % 3) = 0 ∧
    (loopCounted s g errors lanes).fld fHbmLoopResultErrors (g / 3) (g % 3) = min errors (2 ^ 32 - 1) ∧
    (loopCounted s g errors lanes).fld fHbmLoopResultLanesFailed (g / 3) (g % 3) = min lanes (2 ^ 16 - 1) ∧
    Only [.registers] s (loopCounted s g errors lanes) := by
  have hi := stack_index hg
  refine ⟨?_, ?_, ?_, ((setFld_only s _ _ _ _).chain (setFld_only _ _ _ _ _)).chain (setFld_only _ _ _ _ _)⟩
  · refine (fld_setFld_name _ _ (by decide) hi hi).trans ((fld_setFld_name _ _ (by decide) hi hi).trans ?_)
    exact fld_setFld_same s fHbmLoopStart _ _ 0 (by decide) (by decide)
  · refine (fld_setFld_apart _ _ _ _ (by decide)).trans ((fld_setFld_same _ fHbmLoopResultErrors _ _ _ (by decide) (by decide)).trans (Nat.mod_eq_of_lt ?_))
    exact Nat.lt_of_le_of_lt (Nat.min_le_right _ _) (by decide)
  · refine (fld_setFld_same _ fHbmLoopResultLanesFailed _ _ _ (by decide) (by decide)).trans (Nat.mod_eq_of_lt ?_)
    exact Nat.lt_of_le_of_lt (Nat.min_le_right _ _) (by decide)

theorem hbmLoopDoneOp_frame {g : Nat} (hg : g < 24) (h : s.fld fHbmLoopStart (g / 3) (g % 3) = 1) (errors lanes : Nat) :
    (hbmLoopDoneOp g errors lanes s).fld fHbmLoopStart (g / 3) (g % 3) = 0 ∧ (hbmLoopDoneOp g errors lanes s).fld fHbmLoopResultDone (g / 3) (g % 3) = 1 ∧
    (hbmLoopDoneOp g errors lanes s).fld fHbmLoopResultErrors (g / 3) (g % 3) = min errors (2 ^ 32 - 1) ∧
    (hbmLoopDoneOp g errors lanes s).fld fHbmLoopResultLanesFailed (g / 3) (g % 3) = min lanes (2 ^ 16 - 1) ∧
    Only [.registers] s (hbmLoopDoneOp g errors lanes s) := by
  have hi := stack_index hg
  obtain ⟨h1, h2, h3, h4⟩ := loopCounted_fields s hg errors lanes
  rw [hbmLoopDoneOp_eq (by omega)]
  exact ⟨(fld_setFld_name _ 1 (by decide) hi hi).trans h1, fld_setFld_same _ fHbmLoopResultDone _ _ 1 (by decide) (by decide),
    (fld_setFld_apart _ _ _ _ (by decide)).trans h2, (fld_setFld_apart _ _ _ _ (by decide)).trans h3, h4.chain (setFld_only _ _ _ _ _)⟩

/-! ### Patrol scrub -/

theorem mem_same (hm : Area.memory.same s t) (hc : Area.cache.same s t) : t.mem = s.mem := by
  simp only [Area.same, Prod.mk.injEq, Mem.mk.injEq, true_and] at hm hc
  obtain ⟨h1, h2, h3, h4⟩ := hm
  obtain ⟨c1, c2, c3, c4⟩ := hc
  cases ht : t.mem
  cases hs : s.mem
  simp only [ht, hs] at h1 h2 h3 h4 c1 c2 c3 c4
  rw [h1, h2, h3, h4, c1, c2, c3, c4]

/-- What an error noted leaves of memory: a corrected word holds none from now on (R58). -/
theorem mem_noteKey (s : State) (k : Nat) (e : WordError) : (noteKey s k e).mem =
    match e with
    | .corrected _ => { s.mem with upset := tabSet none s.mem.upset k none }
    | _ => s.mem := by
  have hn : (match placeOf s k with
    | .loam sec off => (noteLoam s sec off e, 12)
    | .hbm g off => (noteHbm s g off e, 96) : State × Nat).1.mem = s.mem := by
    cases placeOf s k with
    | loam sec off =>
      have h := within_noteLoam s sec off e (Within.refl s) (Sub.refl _)
      exact mem_same (h.same .memory (by decide)) (h.same .cache (by decide))
    | hbm g off =>
      have h := within_noteHbm s g off e (Within.refl s) (Sub.refl _)
      exact mem_same (h.same .memory (by decide)) (h.same .cache (by decide))
  unfold noteKey
  dsimp only
  cases e with
  | poisoned => exact hn
  | uncorrectable => exact hn
  | corrected y =>
    dsimp only
    rw [← hn]
    split
    next p _ =>
      have h := fun t => within_addCause t p 1 0 (some (match placeOf s k with
        | .loam sec off => (noteLoam s sec off (.corrected y), 12)
        | .hbm g off => (noteHbm s g off (.corrected y), 96) : State × Nat).2) (Within.refl t) (Sub.refl _)
      exact mem_same ((h _).same .memory (by decide)) ((h _).same .cache (by decide))
    · rfl

/-- A word that the scrubber has read, as the command says that it reads back. -/
def scrubbed (s : State) (k : Nat) (o : Option ReadOutcome) : State := scrubWord (upsetKey s k o) k

theorem scrubWord_bytes (s : State) (k : Nat) : (scrubWord s k).mem.bytes = s.mem.bytes := by
  unfold scrubWord
  split
  · exact bytes_noteKey _ _ _
  · split
    · exact bytes_noteKey _ _ _
    · exact bytes_noteKey _ _ _
    · rfl

theorem upsetKey_bytes {o : Option ReadOutcome} (h : ∀ d, o ≠ some (.undetected d)) : (upsetKey s k o).mem.bytes = s.mem.bytes := by
  cases o with
  | none => rfl
  | some e =>
    cases e with
    | undetected d => exact absurd rfl (h d)
    | onPath => rfl
    | corrected y => exact (apply_ite (fun u : State => u.mem.bytes) _ _ _).trans (ite_self _)
    | uncorrectable => exact (apply_ite (fun u : State => u.mem.bytes) _ _ _).trans (ite_self _)

theorem scrubbed_bytes {o : Option ReadOutcome} (h : ∀ d, o ≠ some (.undetected d)) : (scrubbed s k o).mem.bytes = s.mem.bytes :=
  (scrubWord_bytes _ k).trans (upsetKey_bytes h)

/-- A word that holds an error is marked so. -/
theorem upsetKey_marked (e : ReadOutcome) (hp : tabGet false s.mem.poisoned k = false) (h : ∀ d, e ≠ .undetected d) (h' : e ≠ .onPath) :
    (upsetKey s k (some e)).mem = { s.mem with upset := tabSet none s.mem.upset k (some e) } := by
  cases e with
  | undetected d => exact absurd rfl (h d)
  | onPath => exact absurd rfl h'
  | _ => exact congrArg State.mem (if_neg (by simp [hp]))

/-- An uncorrectable word is rewritten as poisoned (R58). -/
theorem scrubbed_uncorrectable (hp : tabGet false s.mem.poisoned k = false) (n : Nat) :
    tabGet false (scrubbed s k (some .uncorrectable)).mem.poisoned n = (n == k || tabGet false s.mem.poisoned n) := by
  have hm := upsetKey_marked .uncorrectable hp (fun d => by simp) (by simp)
  have he : scrubbed s k (some .uncorrectable) = poisonKey (noteKey (upsetKey s k (some .uncorrectable)) k .uncorrectable) k := by
    unfold scrubbed scrubWord
    rw [hm]
    simp [hp]
  rw [he]
  show tabGet false (tabSet false (noteKey _ k .uncorrectable).mem.poisoned k true) n = _
  rw [mem_noteKey, hm, tabGet_tabSet]
  by_cases hn : k = n
  · simp [hn]
  · simp [hn, Ne.symm hn]

/-- A corrected word is rewritten in place (R58). -/
theorem scrubbed_corrected (y : Fin 18) (hp : tabGet false s.mem.poisoned k = false) :
    tabGet none (scrubbed s k (some (.corrected y))).mem.upset k = none ∧ (scrubbed s k (some (.corrected y))).mem.poisoned = s.mem.poisoned := by
  have hm := upsetKey_marked (.corrected y) hp (fun d => by simp) (by simp)
  have he : scrubbed s k (some (.corrected y)) = noteKey (upsetKey s k (some (.corrected y))) k (.corrected y.val) := by
    unfold scrubbed scrubWord
    rw [hm]
    simp [hp]
  rw [he, mem_noteKey, hm]
  simp

/-- A word without an error is left alone. -/
theorem scrubbed_clean (hp : tabGet false s.mem.poisoned k = false) (hu : tabGet none s.mem.upset k = none) : scrubbed s k none = s := by
  show scrubWord s k = s
  unfold scrubWord
  rw [hp, hu]
  rfl

/-- The word that the scrubber has read, if there is one. -/
def scrubbedAt (s : State) (o : Option ReadOutcome) : Option Nat → State
  | some k => scrubbed s k o
  | none => s

/-- The scrubber at its next word of Loam. -/
def loamMoved (sec w : Nat) (t : State) : State := { t with mem := { t.mem with scrubLoam := tabSet 0 t.mem.scrubLoam sec (w % loamWords) } }

/-- What the move to the next word leaves of memory. -/
theorem loamMoved_mem (sec w : Nat) (t : State) : (loamMoved sec w t).mem.bytes = t.mem.bytes ∧ (loamMoved sec w t).mem.poisoned = t.mem.poisoned ∧
    (loamMoved sec w t).mem.upset = t.mem.upset ∧ tabGet 0 (loamMoved sec w t).mem.scrubLoam sec = w % loamWords :=
  ⟨rfl, rfl, rfl, tabGet_tabSet_same 0 t.mem.scrubLoam sec _⟩

/-- The next word of Loam of a section's scrubber. -/
def loamTurn (s : State) (sec : Nat) : Nat := tabGet 0 s.mem.scrubLoam sec

theorem scrubLoam_mem (s : State) (sec : Nat) (o : Option ReadOutcome) :
    (scrubLoam s sec o).mem = (loamMoved sec (loamTurn s sec + 1) (scrubbedAt s o (loamWord s sec (16 * loamTurn s sec)))).mem := by
  unfold scrubLoam loamMoved loamTurn
  dsimp only
  generalize loamWord s sec _ = k
  generalize loamWords = n
  cases k
  all_goals split <;> rfl

theorem scrubbedAt_bytes {o : Option ReadOutcome} (h : ∀ d, o ≠ some (.undetected d)) (k : Option Nat) : (scrubbedAt s o k).mem.bytes = s.mem.bytes := by
  cases k with
  | some k => exact scrubbed_bytes h
  | none => rfl

/-- A scrub read of Loam (R58). -/
theorem scrubLoam_frame (s : State) (sec : Nat) (o : Option ReadOutcome) :
    tabGet 0 (scrubLoam s sec o).mem.scrubLoam sec = (loamTurn s sec + 1) % loamWords ∧
    ((∀ d, o ≠ some (.undetected d)) → ∀ a, memByte (scrubLoam s sec o) a = memByte s a) ∧
    (∀ k, loamWord s sec (16 * loamTurn s sec) = some k → tabGet false s.mem.poisoned k = false → o = some .uncorrectable →
      ∀ n, tabGet false (scrubLoam s sec o).mem.poisoned n = (n == k || tabGet false s.mem.poisoned n)) ∧
    (∀ k y, loamWord s sec (16 * loamTurn s sec) = some k → tabGet false s.mem.poisoned k = false → o = some (.corrected y) →
      tabGet none (scrubLoam s sec o).mem.upset k = none ∧ ∀ n, tabGet false (scrubLoam s sec o).mem.poisoned n = tabGet false s.mem.poisoned n) ∧
    Only readAreas s (scrubLoam s sec o) := by
  obtain ⟨m1, m2, m3, m4⟩ := loamMoved_mem sec (loamTurn s sec + 1) (scrubbedAt s o (loamWord s sec (16 * loamTurn s sec)))
  rw [← scrubLoam_mem] at m1 m2 m3 m4
  refine ⟨m4, fun h a => ?_, fun k h hp ho n => ?_, fun k y h hp ho => ?_, only_of_within (within_scrubLoam s sec o (Within.refl s) rfl)⟩
  · exact congrArg (tabGet 0 · a) (m1.trans (scrubbedAt_bytes h _))
  · rw [m2, h, ho]
    exact scrubbed_uncorrectable hp n
  · rw [m2, m3, h, ho]
    obtain ⟨h1, h2⟩ := scrubbed_corrected (s := s) y hp
    exact ⟨h1, fun n => congrArg (tabGet false · n) h2⟩

/-- The number of the word that the scrubber reads next in a stack. -/
def hbmWord (s : State) (g : Nat) : Nat := (g * stackBytes + 16 * tabGet 0 s.mem.scrubHbm g) / 16

/-- The scrubber at its next word of a stack. -/
def hbmMoved (g w : Nat) (t : State) : State := { t with mem := { t.mem with scrubHbm := tabSet 0 t.mem.scrubHbm g ((w + 1) % stackWords) } }

theorem hbmMoved_only (g w : Nat) (t : State) : Only [.cache] t (hbmMoved g w t) := by
  intro a ha
  cases a
  case cache => exact absurd (List.mem_singleton_self _) ha
  all_goals rfl

theorem scrubHbm_eq (s : State) (g : Nat) (o : Option ReadOutcome) : scrubHbm s g o = hbmMoved g (tabGet 0 s.mem.scrubHbm g) (scrubbed s (hbmWord s g) o) := rfl

/-- A scrub read of a stack (R58). -/
theorem scrubHbm_frame (s : State) (g : Nat) (o : Option ReadOutcome) :
    tabGet 0 (scrubHbm s g o).mem.scrubHbm g = (tabGet 0 s.mem.scrubHbm g + 1) % stackWords ∧
    (tabGet false s.mem.poisoned (hbmWord s g) = false → tabGet none s.mem.upset (hbmWord s g) = none → o = none → Only [.cache] s (scrubHbm s g o)) ∧
    (tabGet false s.mem.poisoned (hbmWord s g) = false → o = some .uncorrectable →
      ∀ n, tabGet false (scrubHbm s g o).mem.poisoned n = (n == hbmWord s g || tabGet false s.mem.poisoned n)) ∧
    ((∀ d, o ≠ some (.undetected d)) → ∀ a, memByte (scrubHbm s g o) a = memByte s a) ∧ Only readAreas s (scrubHbm s g o) := by
  refine ⟨tabGet_tabSet_same _ _ _ _, fun hp hu ho => ?_, fun hp ho n => ?_, fun h a => ?_, only_of_within (within_scrubHbm s g o (Within.refl s) rfl)⟩
  · rw [scrubHbm_eq, ho, scrubbed_clean hp hu]
    exact hbmMoved_only g _ s
  · rw [ho]
    exact scrubbed_uncorrectable hp n
  · exact congrArg (tabGet 0 · a) (scrubbed_bytes h)

/-! ### Refresh -/

/-- An unscheduled refresh (R68, R249). -/
theorem unscheduledRefreshOp_due {g p : Nat} {tb : SlotTable} (hp : secPart s (g / 3) = some p) (ha : s.alive = true) (ht : hbmTrained s g = true)
    (hw : (s.part p).winter = true) (htb : (s.part p).table = some tb) (hd : tb.double = false) (hr : s.fld fHbmStatusRefDouble (g / 3) (g % 3) = 1) :
    unscheduledRefreshOp g s = if partHeld s p then s.bump fHbmRefreshUnscheduled (g / 3) (g % 3) 1
      else addCause (s.bump fHbmRefreshUnscheduled (g / 3) (g % 3) 1) p 2 g (some 288) := by
  unfold unscheduledRefreshOp
  rw [hp]
  dsimp only
  rw [ha, ht, hw, htb, hr]
  exact if_pos (by simp [hd])

theorem unscheduledRefreshOp_idle {g : Nat} (h : secPart s (g / 3) = none ∨ s.fld fHbmStatusRefDouble (g / 3) (g % 3) = 0) : unscheduledRefreshOp g s = s := by
  unfold unscheduledRefreshOp
  split
  next p hp =>
    have hr : s.fld fHbmStatusRefDouble (g / 3) (g % 3) = 0 := h.resolve_left (by simp [hp])
    exact if_neg (by simp [hr])
  · rfl

/-- A cause begun in a Winter partition. -/
theorem addCause_winter {p : Nat} (hw : (s.part p).winter = true) (field key : Nat) (len : Option Nat) :
    ((addCause s p field key len).part p).causes = (s.part p).causes ++ [⟨field, aCycles s, len, key⟩] := by
  unfold addCause addCauseAt
  rw [if_pos hw]
  simp [State.modPart]

/-! ### The obligation -/

/-- Settles O42, from what a loop-back, a scrub read and a refresh leave. -/
theorem hbmUpkeep : Obligations.HbmUpkeep := by
  unfold Obligations.HbmUpkeep
  refine ⟨?start, ?done, ?loam, ?hbm, fun g s => rfl, ?refresh⟩
  case start =>
    intro g value s
    refine ⟨fun h => next_congr (if_pos h), fun h => ⟨_, rfl, hbmLoopWrite_frame g.isLt value h⟩⟩
  case done =>
    intro g errors lanes s
    exact ⟨fun h => next_congr (if_pos h), fun h => ⟨_, rfl, hbmLoopDoneOp_frame g.isLt h errors lanes⟩⟩
  case loam =>
    intro sec o s w i
    exact ⟨fun h => next_congr (if_pos (by simp [h])), fun h => ⟨_, next_congr (if_neg (by simp [h])), scrubLoam_frame s sec.val o⟩⟩
  case hbm =>
    intro sec k o s g w key i
    have he : exec i s = .next (if !scrubAllowed s sec.val then s else if hbmTrained s g then scrubHbm s g o else s) := rfl
    rw [he]
    refine ⟨fun h => next_congr ?_, fun h => ?_⟩
    · rcases Bool.and_eq_false_iff.1 h with h | h <;> simp [h]
    · obtain ⟨h1, h2⟩ := Bool.and_eq_true_iff.1 h
      refine ⟨_, next_congr ?_, scrubHbm_frame s g o⟩
      rw [h1, h2]
      rfl
  case refresh =>
    intro g s
    refine ⟨fun h => next_congr (unscheduledRefreshOp_idle h), fun p tb hp ha ht hw htb hd hr => ?_⟩
    refine ⟨_, next_congr (unscheduledRefreshOp_due hp ha ht hw htb hd hr), ?_⟩
    have hc : Counted s (s.bump fHbmRefreshUnscheduled (g.val / 3) (g.val % 3) 1) fHbmRefreshUnscheduled (g.val / 3) (g.val % 3) 1 :=
      fld_bump_same s fHbmRefreshUnscheduled _ _ 1 (by decide) (by decide)
    split
    · exact ⟨hc, (List.append_nil _).symm, (setFld_only _ _ _ _ _).mono (by decide)⟩
    · have hw' := within_addCause (s.bump fHbmRefreshUnscheduled (g.val / 3) (g.val % 3) 1) p 2 g.val (some 288) (Within.refl _) (Sub.refl _)
      refine ⟨hc.after (hw'.same .registers (by decide)), addCause_winter (s := s.bump fHbmRefreshUnscheduled (g.val / 3) (g.val % 3) 1) hw 2 g.val (some 288), ?_⟩
      exact ((setFld_only _ _ _ _ _).mono (by decide)).chain (only_of_within (within_addCause _ p 2 g.val (some 288) (Within.refl _) rfl))

end Sys2Proof.Machine
end

section
/-! START_PATH_CHOICE, POWER_GRANT, CONFIG_SPACE_READY, STACK_TRAINING_DONE and MODULE_OPERATIONAL (R69, R440, R442, R443, R446, R447, R459). -/

namespace Sys2Proof.Machine

variable {s t : State}

/-! ### Masks -/

theorem bitOf_eq_testBit (w i : Nat) : bitOf w i = w.testBit i := by rw [Nat.testBit_eq_decide_div_mod_eq]; rfl

/-- The bits of a mask are the numbers listed. -/
theorem bitOf_maskOf (l : List Nat) (n : Nat) : bitOf (maskOf l) n = true ↔ n ∈ l := by
  have h : ∀ (l : List Nat) (a : Nat), (l.foldl (fun a i => a ||| 2 ^ i) a).testBit n = true ↔ a.testBit n = true ∨ n ∈ l := by
    intro l
    induction l with
    | nil => simp
    | cons i l ih =>
      intro a
      rw [List.foldl_cons, ih, Nat.testBit_or, Bool.or_eq_true, Nat.testBit_two_pow, decide_eq_true_eq, List.mem_cons, or_assoc, eq_comm (a := i)]
  rw [bitOf_eq_testBit]
  exact (h l 0).trans (by simp)

theorem mem_maskSecs_maskOf {l : List Nat} {n : Nat} (h : n < 8) : n ∈ maskSecs (maskOf l) ↔ n ∈ l := by
  rw [mem_maskSecs, bitOf_maskOf]
  exact and_iff_right h

theorem mem_upTo8 {n : Nat} (h : n < 8) : n ∈ upTo 8 := List.mem_range.2 h

/-! ### The Autumn test begins -/

theorem lt_of_mem_secLinks {n l : Nat} (hn : n < 8) (h : l ∈ secLinks n) : l < 64 := by
  simp only [secLinks, spanOf, List.mem_map, List.mem_range] at h
  omega

/-- A section that begins its test changes the state of its links alone among the registers (R449). -/
theorem regsBut_startSection {n : Nat} (hn : n < 8) (s : State) (source tested ticket : Nat) (blocks : List Nat) :
    RegsBut [.lnkStatus] s (startSection s source tested ticket blocks n) := by
  have h0 : RegsBut [.lnkStatus] s (s.setAutumn n (some { source := source, tested := tested, ticket := ticket, left := blocks })) := regsBut_of_same rfl
  unfold startSection
  dsimp only
  refine regsBut_ite (h0.trans (regsBut_forEach _ _ (fun l hl t => ?_) _)) h0
  have hi := link_index (lt_of_mem_secLinks hn hl)
  exact regsBut_ite (RegsBut.refl t) (regsBut_setFld (f := fLnkStatusState) t 8 (by decide) hi.1 hi.2)

theorem regsBut_startAutumn (s : State) (source mask : Nat) (blocks : List Nat) : RegsBut [.lnkStatus] s (startAutumn s source mask blocks) := by
  unfold startAutumn
  generalize ((upTo 8).map _).foldl max 0 + 1 = ticket
  exact (regsBut_forEach _ _ (fun n hn t => regsBut_startSection (mem_maskSecs.1 hn).1 t source mask ticket blocks) s).trans (regsBut_of_same rfl)

/-- The beginning of a test grants its power, and leaves the rest of the module and the flash. -/
theorem module_startAutumn (s : State) (source mask : Nat) (blocks : List Nat) :
    (∃ g, (startAutumn s source mask blocks).module = { s.module with testGrant := g }) ∧ (startAutumn s source mask blocks).flash = s.flash := by
  unfold startAutumn
  generalize ((upTo 8).map _).foldl max 0 + 1 = ticket
  have hw : Within 134217736 s (forEach (maskSecs mask) s (fun n t => startSection t source mask ticket blocks n)) :=
    within_forEach (Within.refl s) fun n t ht => within_startSection t source mask ticket blocks n ht (Sub.refl _)
  have hf : (forEach (maskSecs mask) s (fun n t => startSection t source mask ticket blocks n)).flash = s.flash :=
    forEach_keeps (π := State.flash) (fun n _ t => by
      have h : ∀ (l : List Nat) (v : State), (forEach l v (fun l t => if linkState t l = 7 then t else setLinkState t l 8)).flash = v.flash :=
        fun l v => forEach_keeps (π := State.flash) (fun l _ t => by split <;> rfl) v
      unfold startSection
      dsimp only
      split
      · exact h _ _
      · rfl) s
  generalize hv : forEach (maskSecs mask) s (fun n t => startSection t source mask ticket blocks n) = v at hw hf
  refine ⟨⟨corePair v, ?_⟩, ?_⟩
  · have hm : v.module = s.module := hw.same .module (by decide)
    rw [← hm]
    exact congrArg (fun v : State => (grantTest v).module) hv
  · exact (congrArg (fun v : State => (grantTest v).flash) hv).trans hf

/-! ### The start path -/

/-- The path as LAST_PATH says it (R440, R459). -/
def pathOf (reason : Nat) : Nat := if reason != 0 then 2 else 1

/-- The sections that a start path tests (R440). -/
def pathSecs (s : State) (reason : Nat) : List Nat := if reason != 0 then upTo 8 else (upTo 8).filter (needsTest s)

/-- The path chosen, in the module, in flash and in the registers, before its tests begin. -/
def pathShown (s : State) (reason : Nat) : State :=
  (({ s with module := { s.module with pathChosen := true, full := reason != 0 }, flash := { s.flash with lastPath := pathOf reason } } : State).setFld
    fFltStatusLastPath 0 0 (pathOf reason)).setFld fFltStartFullReason 0 0 reason

theorem startPathOp_eq {strap : Bool} (h : starting s = true) (h' : s.module.pathChosen = false) : startPathOp strap s =
    startAutumn ((pathShown s (pathReason s (!strap))).setFld fFltStartSectionsTested 0 0 (maskOf (pathSecs s (pathReason s (!strap)))))
      (if pathReason s (!strap) != 0 then 1 else 2) (maskOf (pathSecs s (pathReason s (!strap)))) (if pathReason s (!strap) != 0 then allBlocks else coreBlocks) :=
  if_neg (by simp [h, h'])

theorem pathReason_lt (s : State) (strap : Bool) : pathReason s strap < 8 := by
  unfold pathReason
  dsimp only
  split_ifs <;> decide

theorem pathShown_fields {reason : Nat} (h : reason < 8) (s : State) : (pathShown s reason).fld fFltStartFullReason 0 0 = reason ∧
    (pathShown s reason).fld fFltStatusLastPath 0 0 = pathOf reason := by
  refine ⟨(fld_setFld_same _ fFltStartFullReason _ _ _ (by decide) (by decide)).trans (Nat.mod_eq_of_lt h), ?_⟩
  refine (fld_setFld_name _ _ (by decide) (by decide) (by decide)).trans ?_
  refine (fld_setFld_same _ fFltStatusLastPath _ _ _ (by decide) (by decide)).trans (Nat.mod_eq_of_lt ?_)
  unfold pathOf
  split <;> decide

theorem mem_pathSecs {reason n : Nat} (h : n < 8) : n ∈ pathSecs s reason ↔ reason ≠ 0 ∨ needsTest s n = true := by
  unfold pathSecs
  by_cases h0 : reason = 0
  · simp [h0, mem_upTo8 h]
  · simp [h0, mem_upTo8 h]

/-- What the choice of a start path leaves (R440, R459). -/
theorem startPathOp_frame {strap : Bool} (h : starting s = true) (h' : s.module.pathChosen = false) :
    (startPathOp strap s).fld fFltStartFullReason 0 0 = pathReason s (!strap) ∧
    (startPathOp strap s).fld fFltStatusLastPath 0 0 = pathOf (pathReason s (!strap)) ∧
    (startPathOp strap s).flash.lastPath = pathOf (pathReason s (!strap)) ∧ (startPathOp strap s).module.pathChosen = true ∧
    ∀ n, n < 8 → (((startPathOp strap s).autumn n).isSome = true ↔ pathReason s (!strap) ≠ 0 ∨ needsTest s n = true ∨ (s.autumn n).isSome = true) := by
  rw [startPathOp_eq h h']
  generalize hr : pathReason s (!strap) = reason
  have hlt : reason < 8 := hr ▸ pathReason_lt s _
  generalize hv : (pathShown s reason).setFld fFltStartSectionsTested 0 0 (maskOf (pathSecs s reason)) = v
  generalize (if reason != 0 then 1 else 2) = source
  generalize (if reason != 0 then allBlocks else coreBlocks) = blocks
  obtain ⟨f1, f2⟩ := pathShown_fields hlt s
  have hreg := regsBut_startAutumn v source (maskOf (pathSecs s reason)) blocks
  obtain ⟨⟨g, hm⟩, hf⟩ := module_startAutumn v source (maskOf (pathSecs s reason)) blocks
  refine ⟨?_, ?_, ?_, ?_, fun n hn => ?_⟩
  · refine (hreg.fld (by decide) (by decide) (by decide)).trans ?_
    rw [← hv]
    exact (fld_setFld_apart _ _ _ _ (by decide)).trans f1
  · refine (hreg.fld (by decide) (by decide) (by decide)).trans ?_
    rw [← hv]
    exact (fld_setFld_name _ _ (by decide) (by decide) (by decide)).trans f2
  · rw [hf, ← hv]
    rfl
  · rw [hm, ← hv]
    rfl
  · have ha : v.autumn n = s.autumn n := by rw [← hv]; rfl
    obtain ⟨hin, hout⟩ := autumn_startAutumn v source (maskOf (pathSecs s reason)) blocks n
    rw [mem_maskSecs_maskOf hn, mem_pathSecs hn] at hin hout
    by_cases hc : reason ≠ 0 ∨ needsTest s n = true
    · exact ⟨fun _ => hc.elim .inl (.inr ∘ .inl), fun _ => hin hc⟩
    · rw [hout hc, ha, ← or_assoc]
      exact (or_iff_right hc).symm

/-- The quick path is taken after a watchdog or a fault of Icvar's memory, and on a record that the cause lets stand (R440). -/
theorem pathReason_quick (s : State) (strapHigh : Bool) : pathReason s (!strapHigh) = 0 ↔
    strapHigh = true ∧ (s.fld fFltStatusLastResetCause 0 0 ∈ [4, 5] ∨ (s.flash.recordValid = true ∧
      s.fld fFltStatusLastResetCause 0 0 ∉ [6, 7] ∧ (s.fld fFltStatusLastResetCause 0 0 = 0 → s.flash.orderly = true))) := by
  unfold pathReason
  generalize s.fld fFltStatusLastResetCause 0 0 = cause
  cases strapHigh with
  | false => simp
  | true =>
    by_cases h45 : cause = 4 ∨ cause = 5
    · simp [h45]
    · by_cases hv : s.flash.recordValid = true
      · by_cases h67 : cause = 6 ∨ cause = 7
        · simp [h45, hv, h67]
        · by_cases h0 : cause = 0
          · simp [h0, hv]
          · simp [h45, hv, h0, not_or.1 h67]
      · simp [h45, hv]

/-! ### Staged grants -/

/-- One link of a group that starts (R447). -/
def startLink (l : Nat) (t : State) : State :=
  if t.module.full then ((setLinkState (t.modLink l (fun x => { x with groupStarted := true, startLoop := t.module.full })) l 8).setFld
    fLnkLoopMode (l / 8) (l % 8) 1).setFld fLnkLoopStart (l / 8) (l % 8) 1
  else setLinkState (t.modLink l (fun x => { x with groupStarted := true, startLoop := t.module.full })) l 1

theorem startGroup_eq (s : State) (k : Nat) : startGroup s k = forEach (groupLinks k) s startLink := rfl

theorem groupStarted_startLink (t : State) (a l : Nat) : ((startLink a t).link l).groupStarted = (decide (a = l) || (t.link l).groupStarted) := by
  have h : ((startLink a t).link l) = (t.modLink a (fun x => { x with groupStarted := true, startLoop := t.module.full })).link l := by
    unfold startLink
    split
    · exact (link_setFld _ _ _ _ _ _).trans ((link_setFld _ _ _ _ _ _).trans (link_setLinkState _ _ _ _))
    · exact link_setLinkState _ _ _ _
  rw [h]
  by_cases ha : a = l
  · subst ha
    rw [link_modLink]
    simp
  · rw [otherLinks_modLink t a _ l (Ne.symm ha)]
    simp [ha]

theorem groupStarted_forEach (ls : List Nat) (l : Nat) (s : State) :
    ((forEach ls s startLink).link l).groupStarted = true ↔ (s.link l).groupStarted = true ∨ l ∈ ls := by
  induction ls generalizing s with
  | nil => simp [forEach]
  | cons a ls ih =>
    refine (ih (startLink a s)).trans ?_
    rw [groupStarted_startLink]
    simp only [Bool.or_eq_true, decide_eq_true_eq, List.mem_cons, eq_comm (a := a)]
    tauto

theorem mem_groupLinks {k l : Nat} (hk : k < 8) (hl : l < 64) : l ∈ groupLinks k ↔ l % 8 = k := by
  simp only [groupLinks, upTo, List.mem_map, List.mem_range]
  constructor
  · rintro ⟨n, hn, rfl⟩
    omega
  · exact fun h => ⟨l / 8, by omega, by omega⟩

/-- The next staged grant in the module (R446). -/
def granted1 (s : State) : State :=
  { s with module := { s.module with grants := s.module.grants + 1, grantedW := s.module.grantedW + (grantOf s (s.module.grants + 1)).1 } }

theorem powerGrantOp_eq (h : starting s = true) (h25 : s.module.grants < 25) (hg : (grantOf s (s.module.grants + 1)).2 = true) :
    powerGrantOp s = if within 10 17 (s.module.grants + 1) then startGroup (granted1 s) (s.module.grants + 1 - 10) else granted1 s := by
  have hn : ¬(!starting s || decide (25 < s.module.grants + 1) || !(grantOf s (s.module.grants + 1)).2) = true := by
    rw [h, hg]
    simp only [Bool.not_true, Bool.or_false, Bool.false_or, decide_eq_true_eq]
    omega
  exact if_neg hn

theorem powerGrantOp_frame (h : starting s = true) (h25 : s.module.grants < 25) (hg : (grantOf s (s.module.grants + 1)).2 = true) :
    (powerGrantOp s).module = (granted1 s).module ∧
    (∀ l, l < 64 → (((powerGrantOp s).link l).groupStarted = true ↔
      ((s.link l).groupStarted = true ∨ (9 ≤ s.module.grants ∧ s.module.grants ≤ 16 ∧ l % 8 + 9 = s.module.grants)))) ∧
    Only [.module, .registers, .links] s (powerGrantOp s) := by
  have ho : Only [.module, .registers, .links] s (powerGrantOp s) := only_of_within (within_powerGrantOp s (Within.refl s) rfl)
  refine ⟨?_, fun l hl => ?_, ho⟩
  · rw [powerGrantOp_eq h h25 hg]
    split
    · exact (within_startGroup (granted1 s) _ (Within.refl _) (Sub.refl _)).same .module (by decide)
    · rfl
  · rw [powerGrantOp_eq h h25 hg]
    by_cases hw : within 10 17 (s.module.grants + 1) = true
    · rw [if_pos hw, startGroup_eq, groupStarted_forEach]
      simp only [within, Bool.and_eq_true, decide_eq_true_eq] at hw
      rw [mem_groupLinks (by omega) hl]
      exact or_congr Iff.rfl (by omega)
    · rw [if_neg hw]
      simp only [within, Bool.and_eq_true, decide_eq_true_eq] at hw
      exact (or_iff_left (by omega)).symm

/-! ### Training of stacks -/

/-- What this start trained of a stack. -/
def trainedAs (s : State) (g : Nat) (identity : Word32) (temp : Byte) (ok : Bool) : State :=
  s.setTrainedNow g { valid := true, identity := identity, temp := if ok then (tabGet ({} : Trained) s.flash.trained g).temp else temp.toNat, rate := rateOf s g }

/-- A trained stack as HBM_STATUS shows it (R69, R72). -/
def trainingShown (s : State) (g : Nat) (identity : Word32) (temp : Byte) (ok : Bool) : State :=
  ((((trainedAs s g identity temp ok).setFld fHbmStatusTrained (g / 3) (g % 3) 1).setFld fHbmStatusTrainSrc (g / 3) (g % 3) (if ok then 1 else 2)).setFld
    fHbmStatusRate (g / 3) (g % 3) (rateOf s g)).setFld fHbmStatusTemp (g / 3) (g % 3) temp.toNat

/-- A stack that was trained anew is counted (R459). -/
def retrainedCounted (s : State) (g : Nat) (identity : Word32) (temp : Byte) (ok : Bool) : State :=
  if ok then trainingShown s g identity temp ok else (trainingShown s g identity temp ok).bump fFltStartStacksRetrained 0 0 1

theorem stackTrainedOp_eq {g : Nat} {identity : Word32} {temp : Byte} {readBackOk : Bool} (h : starting s = true) (ht : hbmTrained s g = false)
    (hg : 2 + g / 3 ≤ s.module.grants) : stackTrainedOp g identity temp readBackOk s =
    if !s.module.full && (tabGet ({} : Trained) s.flash.trained g).valid && !restores s g identity temp readBackOk then
      healthEvent (retrainedCounted s g identity temp (restores s g identity temp readBackOk)) (huStack g) 7 50
    else retrainedCounted s g identity temp (restores s g identity temp readBackOk) := by
  refine if_neg ?_
  rw [h, ht]
  simp only [Bool.not_true, Bool.or_false, Bool.false_or, decide_eq_true_eq]
  omega

theorem trainingShown_fields (s : State) (g : Nat) (identity : Word32) (temp : Byte) (ok : Bool) :
    (trainingShown s g identity temp ok).fld fHbmStatusTrained (g / 3) (g % 3) = 1 ∧
    (trainingShown s g identity temp ok).fld fHbmStatusTrainSrc (g / 3) (g % 3) = (if ok then 1 else 2) ∧
    (trainingShown s g identity temp ok).fld fHbmStatusRate (g / 3) (g % 3) = rateOf s g % 2 ^ (fHbmStatusRate.hi + 1 - fHbmStatusRate.lo) ∧
    (trainingShown s g identity temp ok).fld fHbmStatusTemp (g / 3) (g % 3) = temp.toNat := by
  have h1 {f : RField} (h : FieldsApart fHbmStatusTemp f) : (trainingShown s g identity temp ok).fld f (g / 3) (g % 3) = _ := fld_setFld_apart _ _ _ _ h
  have h2 (v : State) (r : Nat) {f : RField} (h : FieldsApart fHbmStatusRate f) : (v.setFld fHbmStatusRate (g / 3) (g % 3) r).fld f (g / 3) (g % 3) = _ :=
    fld_setFld_apart _ _ _ _ h
  refine ⟨?_, ?_, ?_, ?_⟩
  · exact (h1 (by decide)).trans ((h2 _ _ (by decide)).trans ((fld_setFld_apart _ _ _ _ (by decide)).trans
      (fld_setFld_same _ fHbmStatusTrained _ _ 1 (by decide) (by decide))))
  · refine (h1 (by decide)).trans ((h2 _ _ (by decide)).trans ((fld_setFld_same _ fHbmStatusTrainSrc _ _ _ (by decide) (by decide)).trans (Nat.mod_eq_of_lt ?_)))
    split <;> decide
  · exact (h1 (by decide)).trans (fld_setFld_same _ fHbmStatusRate _ _ _ (by decide) (by decide))
  · exact (fld_setFld_same _ fHbmStatusTemp _ _ _ (by decide) (by decide)).trans (Nat.mod_eq_of_lt temp.isLt)

theorem regsBut_retrainedCounted (s : State) (g : Nat) (identity : Word32) (temp : Byte) (ok : Bool) :
    RegsBut [.fltStart] (trainingShown s g identity temp ok) (retrainedCounted s g identity temp ok) :=
  regsBut_ite (RegsBut.refl _) (regsBut_bump (f := fFltStartStacksRetrained) _ 1 (by decide) (by decide) (by decide))

/-- What the end of a stack's training leaves (R69). -/
theorem stackTrainedOp_frame {g : Nat} {identity : Word32} {temp : Byte} {readBackOk : Bool} (hlt : g < 24) (h : starting s = true) (ht : hbmTrained s g = false)
    (hg : 2 + g / 3 ≤ s.module.grants) : hbmTrained (stackTrainedOp g identity temp readBackOk s) g = true ∧
    (stackTrainedOp g identity temp readBackOk s).fld fHbmStatusTrainSrc (g / 3) (g % 3) = (if restores s g identity temp readBackOk then 1 else 2) ∧
    (stackTrainedOp g identity temp readBackOk s).fld fHbmStatusRate (g / 3) (g % 3) = rateOf s g % 2 ^ (fHbmStatusRate.hi + 1 - fHbmStatusRate.lo) ∧
    (stackTrainedOp g identity temp readBackOk s).fld fHbmStatusTemp (g / 3) (g % 3) = temp.toNat ∧
    Only [.module, .registers, .care, .functions, .out] s (stackTrainedOp g identity temp readBackOk s) := by
  have hi := stack_index hlt
  have hw : Only [.module, .registers, .functions, .care] s (stackTrainedOp g identity temp readBackOk s) :=
    only_of_within (within_stackTrainedOp g identity temp readBackOk s (Within.refl s) rfl)
  obtain ⟨h1, h2, h3, h4⟩ := trainingShown_fields s g identity temp (restores s g identity temp readBackOk)
  have hr : RegsBut [.fltStart, .mbxOutStatus, .hltUnit] (trainingShown s g identity temp (restores s g identity temp readBackOk)) (stackTrainedOp g identity temp readBackOk s) := by
    have hc := (regsBut_retrainedCounted s g identity temp (restores s g identity temp readBackOk)).mono (m := [.fltStart, .mbxOutStatus, .hltUnit]) (by decide)
    rw [stackTrainedOp_eq h ht hg]
    exact regsBut_ite (hc.trans (regsBut_healthEvent _ 7 50 (by decide) (by decide) (by unfold huStack; omega))) hc
  have hf {f : RField} (hn : f.reg = .hbmStatus) := hr.fld (f := f) (by rw [hn]; decide) hi.1 hi.2
  refine ⟨?_, (hf rfl).trans h2, (hf rfl).trans h3, (hf rfl).trans h4, hw.mono (by decide)⟩
  unfold hbmTrained
  rw [hf rfl, h1]
  rfl

/-! ### Operation -/

/-- The module as it becomes operational, before its links say so (R442). -/
def operational (s : State) : State :=
  ((putRecord s false).setFld fFltStatusModuleState 0 0 1).setFld fFltStartDuration 0 0 (min (s.now / 1000) (2 ^ 32 - 1))

theorem operationalOp_eq (h : startDone s = true) : operationalOp s =
    forEach ((upTo 64).filter (fun l => linkState (operational s) l == 2)) (operational s) (fun l t => sendKind t l 1) := if_neg (by simp [h])

theorem operationalOp_frame (h : startDone s = true) : moduleState (operationalOp s) = 1 ∧
    (operationalOp s).fld fFltStartDuration 0 0 = min (s.now / 1000) (2 ^ 32 - 1) ∧ (operationalOp s).flash = (putRecord s false).flash ∧
    Only [.flash, .registers, .out] s (operationalOp s) := by
  have hw : Only [.flash, .registers, .out] s (operationalOp s) := only_of_within (within_operationalOp s (Within.refl s) rfl)
  have hk (l : List Nat) (v : State) : (forEach l v (fun l t => sendKind t l 1)).regs = v.regs ∧ (forEach l v (fun l t => sendKind t l 1)).flash = v.flash :=
    ⟨forEach_keeps (g := fun l t => sendKind t l 1) (π := State.regs) (fun _ _ _ => rfl) v,
      forEach_keeps (g := fun l t => sendKind t l 1) (π := State.flash) (fun _ _ _ => rfl) v⟩
  obtain ⟨hr, hf⟩ := hk ((upTo 64).filter (fun l => linkState (operational s) l == 2)) (operational s)
  rw [← operationalOp_eq h] at hr hf
  refine ⟨(fld_congr hr _ _ _).trans ?_, (fld_congr hr _ _ _).trans ?_, hf, hw⟩
  · exact (fld_setFld_name _ _ (by decide) (by decide) (by decide)).trans (fld_setFld_same _ fFltStatusModuleState 0 0 1 (by decide) (by decide))
  · refine (fld_setFld_same _ fFltStartDuration _ _ _ (by decide) (by decide)).trans (Nat.mod_eq_of_lt ?_)
    exact Nat.lt_of_le_of_lt (Nat.min_le_right _ _) (by decide)

/-! ### The obligation -/

/-- Settles O19, from what each step of the start leaves. -/
theorem startSteps : Obligations.StartSteps := by
  unfold Obligations.StartSteps
  refine ⟨?path, fun strapHigh s => pathReason_quick s strapHigh, ?grant, fun s h => next_congr (if_pos h), ?train, ?operate⟩
  case path =>
    intro strap s h h'
    obtain ⟨h1, h2, h3, h4, h5⟩ := startPathOp_frame (strap := strap) h h'
    have ho : Only [.module, .flash, .registers, .care] s (startPathOp strap s) := only_of_within (within_startPathOp strap s (Within.refl s) rfl)
    refine ⟨_, rfl, ?_⟩
    cases strap with
    | true =>
      have hp : pathOf (pathReason s (!true)) = if true = true ∧ pathReason s false = 0 then 1 else 2 := by
        by_cases h0 : pathReason s false = 0 <;> simp [pathOf, h0]
      rw [hp] at h2 h3
      exact ⟨h1, h2, h3, h4, fun n hn => (h5 n hn).trans (by simp), ho⟩
    | false =>
      have hp : pathReason s (!false) = 1 := rfl
      rw [hp] at h1 h2 h3 h5
      exact ⟨h1, h2, h3, h4, fun n hn => (h5 n hn).trans (by simp), ho⟩
  case grant => exact fun s h h25 hg => ⟨_, rfl, powerGrantOp_frame h h25 hg⟩
  case train => exact fun g identity temp ok s h ht hg => ⟨_, rfl, stackTrainedOp_frame g.isLt h ht hg⟩
  case operate =>
    intro s h
    obtain ⟨h1, h2, h3, h4⟩ := operationalOp_frame h
    exact ⟨_, rfl, h1, h2, by rw [h3]; rfl, by rw [h3]; rfl, by rw [h3]; rfl, by rw [h3]; rfl, h4⟩

end Sys2Proof.Machine
end

section
/-! SHDN_REQ while operational (R452): the statement leaves the state free, and a register's key has 64 places for its unit. -/

namespace Sys2Proof.Machine

/-- A function number that the block does not have, whose MBX_IN_ACK has the key of FLT_STATUS. -/
def strayFn : Nat := 64 * (RegName.fltStatus.num - RegName.mbxInAck.num)

/-- An AUTUMN_RUN of no sections that is not published yet. -/
def strayCmd : PendCmd := { fn := strayFn, via := .mbx 0 0 none, taken := 0, opcode := 0, kind := .autumnRun 0 0, start := 0 }

/-- An operational module with a partition of no sections and that command. -/
def strayAck : State :=
  ({ module := { perstAsserted := false, released := true }, objs := { parts := [(0, { present := true })] }, host := { commands := [strayCmd] } } : State).setFld
    fFltStatusModuleState 0 0 1

/-- The module is operational; the end of the partition publishes the command, whose acknowledgement falls on MODULE_STATE. -/
theorem strayAck_shutDown : running strayAck = true ∧ strayAck.module.shutting = false ∧ moduleState strayAck = 1 ∧
    moduleState (shutDownOp false strayAck) ≠ 3 := by decide +kernel

/-- Refutes O20: a shut-down publishes the commands that wait for it, and the statement holds in states with a command of a function
number beyond those of the block, whose acknowledgement overwrites MODULE_STATE. -/
theorem not_testsAndShutDown : ¬ Obligations.TestsAndShutDown := by
  unfold Obligations.TestsAndShutDown
  intro h
  obtain ⟨_, hshut, _⟩ := h
  obtain ⟨hrun, hidle, hstate, hne⟩ := strayAck_shutDown
  obtain ⟨t, ht, _, hthree, _⟩ := hshut false strayAck hrun hidle hstate
  have he : shutDownOp false strayAck = t := Host.Outcome.next.inj ht
  exact hne (he ▸ hthree)

end Sys2Proof.Machine
end

section
/-! PERST_N_ASSERT, PERST_N_RELEASE, HOT_RESET, RESET_KEY_WRITE, MODULE_FATAL, ICVAR_WATCHDOG, POWER_APPLIED and POWER_REMOVED (R420, R421,
R430, R431, R439, R446, R474, R488, R489, R491). -/

namespace Sys2Proof.Machine

variable {s t u : State} {cause : Nat}

/-! ### The waiting commands -/

@[simp] theorem pending_queueOut (s : State) (f j : Nat) (w : Word) : (queueOut s f j w).pending = s.pending :=
  ite_holds (P := fun t => t.pending = s.pending) rfl rfl

@[simp] theorem pending_postTo (s : State) (fs : List Nat) (code arg : Nat) : (postTo s fs code arg).pending = s.pending :=
  forEach_keeps (π := State.pending) (fun f _ t => pending_queueOut t f 7 _) s

@[simp] theorem pending_healthEvent (s : State) (v row pts : Nat) : (healthEvent s v row pts).pending = s.pending :=
  ite_holds (P := fun t => t.pending = s.pending) (pending_postTo _ _ _ _) rfl

/-! ### Areas as wholes -/

theorem objs_same (h : ∀ a ∈ [Area.parts, .ctxs, .tallies, .regions, .tensors, .gates, .models, .groups, .comms], a.same s t) : t.objs = s.objs := by
  have h1 : t.objs.parts = s.objs.parts := h .parts (by decide)
  have h2 : t.objs.ctxs = s.objs.ctxs := h .ctxs (by decide)
  have h3 : t.objs.tallies = s.objs.tallies := h .tallies (by decide)
  have h4 : t.objs.regions = s.objs.regions := h .regions (by decide)
  have h5 : t.objs.tensors = s.objs.tensors := h .tensors (by decide)
  have h6 : t.objs.gates = s.objs.gates := h .gates (by decide)
  have h7 : t.objs.models = s.objs.models := h .models (by decide)
  have h8 : t.objs.groups = s.objs.groups := h .groups (by decide)
  have h9 : t.objs.comms = s.objs.comms := h .comms (by decide)
  cases ht : t.objs
  cases hs : s.objs
  simp only [ht, hs] at h1 h2 h3 h4 h5 h6 h7 h8 h9
  rw [h1, h2, h3, h4, h5, h6, h7, h8, h9]

theorem work_same (h : ∀ a ∈ [Area.cores, .slots, .engines, .witness], a.same s t) : t.work = s.work := by
  have h1 : t.work.cores = s.work.cores := h .cores (by decide)
  have h2 : t.work.slots = s.work.slots := h .slots (by decide)
  have h3 : t.work.engines = s.work.engines := h .engines (by decide)
  have h4 : t.work.witness = s.work.witness := h .witness (by decide)
  cases ht : t.work
  cases hs : s.work
  simp only [ht, hs] at h1 h2 h3 h4
  rw [h1, h2, h3, h4]

theorem flash_same (hf : Area.flash.same s t) (hu : Area.fuses.same s t) : t.flash = s.flash := by
  simp only [Area.same, Prod.mk.injEq, Flash.mk.injEq] at hf hu
  cases ht : t.flash
  cases hs : s.flash
  simp only [ht, hs] at hf hu
  simp [hf, hu]

/-! ### Module reset -/

/-- What a state keeps of a reset module: everything but its grants, its pins, its scores, its functions and the registers of other names. -/
structure StaysReset (t u : State) : Prop where
  regs : RegsBut [.clkStatus, .mbxOutStatus, .hltUnit] t u
  tables : u.mem = t.mem ∧ u.objs = t.objs ∧ u.work = t.work ∧ u.links = t.links ∧ u.power = t.power
  host : u.host.queues = t.host.queues ∧ u.host.commands = t.host.commands ∧ u.host.tokens = t.host.tokens ∧ u.host.launches = t.host.launches
  kept : u.hostMem = t.hostMem ∧ u.pending = t.pending ∧ u.flash = t.flash

theorem WasReset.stays (h : WasReset s t cause) (hu : StaysReset t u) : WasReset s u cause := by
  obtain ⟨h1, h2, h3, h4, h5, h6, h7, h8, h9, h10, h11, h12, h13, h14⟩ := h
  obtain ⟨k1, k2, k3, k4, k5⟩ := hu.tables
  obtain ⟨q1, q2, q3, q4⟩ := hu.host
  obtain ⟨m1, m2, m3⟩ := hu.kept
  unfold WasReset
  rw [k1, k2, k3, k4, k5, q1, q2, q3, q4, m1, m2, m3]
  exact ⟨(hu.regs.fld (by decide) (by decide) (by decide)).trans h1, (hu.regs.fld (by decide) (by decide) (by decide)).trans h2,
    h3, h4, h5, h6, h7, h8, h9, h10, h11, h12, h13, h14⟩

theorem staysReset_release (t : State) : StaysReset t (resetRelease t) where
  regs := (regsBut_of_same (s := t) rfl).trans (regsBut_setFld (f := fClkStatusLocked) _ 1 (by decide) (by decide) (by decide))
  tables := ⟨rfl, rfl, rfl, rfl, rfl⟩
  host := ⟨rfl, rfl, rfl, rfl⟩
  kept := ⟨rfl, rfl, rfl⟩

/-- An event scored against Icvar leaves a module reset. -/
theorem staysReset_healthEvent (t : State) (row pts : Nat) : StaysReset t (healthEvent t huIcvar row pts) := by
  have h : Only [.registers, .functions, .care] t (healthEvent t huIcvar row pts) := only_of_within (within_healthEvent t huIcvar row pts (Within.refl t) rfl)
  exact {
    regs := regsBut_healthEvent t row pts (by decide) (by decide) (by decide)
    tables := ⟨mem_same (h .memory (by decide)) (h .cache (by decide)), objs_same fun a ha => h a (by revert a; decide),
      work_same fun a ha => h a (by revert a; decide), h .links (by decide), h .power (by decide)⟩
    host := ⟨h .queues (by decide), h .commands (by decide), h .tokens (by decide), congrArg Prod.fst (h .launches (by decide))⟩
    kept := ⟨h .hostMemory (by decide), pending_healthEvent t huIcvar row pts, flash_same (h .flash (by decide)) (h .fuses (by decide))⟩ }

/-- The module with everything cleared, before the registers that flash sets (R420). -/
def fresh (s : State) (m : Module) : State :=
  { module := m, flash := activate { s.flash with moduleResets := min (s.flash.moduleResets + 1) 65535 }, hostMem := s.hostMem, out := s.out,
    freeCtr := s.freeCtr, pending := s.pending,
    care := { health := (activate { s.flash with moduleResets := min (s.flash.moduleResets + 1) 65535 }).health,
              results := if (activate { s.flash with moduleResets := min (s.flash.moduleResets + 1) 65535 }).recordValid then
                (activate { s.flash with moduleResets := min (s.flash.moduleResets + 1) 65535 }).autumn else [] },
    security := { randomCtr := s.security.randomCtr, starts := s.security.starts + 1 } }

theorem cleared_eq (s : State) (m : Module) (cause : Nat) : cleared s m cause =
    ((fresh s m).setFld fFltStatusLastResetCause 0 0 cause).setFld fFltStatusLastPath 0 0 (fresh s m).flash.lastPath := rfl

theorem activate_fuses (f : Flash) : (activate f).moduleResets = f.moduleResets ∧ (activate f).fwStaged = none ∧
    (activate f).fwActive = (match f.fwStaged with | some i => some i | none => f.fwActive) ∧
    (activate f).minSvn = (match f.fwStaged with | some i => max f.minSvn i.svn | none => f.minSvn) ∧ (activate f).history = f.history ∧
    (activate f).icvarFired = f.icvarFired := by
  unfold activate
  cases h : f.fwStaged with
  | none => exact ⟨rfl, h, rfl, rfl, rfl, rfl⟩
  | some i => exact ⟨rfl, rfl, rfl, rfl, rfl, rfl⟩

theorem wasReset_cleared (s : State) (m : Module) (hc : cause < 256) : WasReset s (cleared s m cause) cause := by
  obtain ⟨f1, f2, f3, f4, -⟩ := activate_fuses { s.flash with moduleResets := min (s.flash.moduleResets + 1) 65535 }
  rw [cleared_eq]
  refine ⟨?_, ?_, rfl, rfl, rfl, rfl, rfl, rfl, rfl, rfl, f1, f2, f3, f4⟩
  · exact (fld_setFld_apart _ _ _ _ (by decide)).trans ((fld_setFld_same _ fFltStatusLastResetCause _ _ _ (by decide) (by decide)).trans (Nat.mod_eq_of_lt hc))
  · exact (fld_setFld_apart _ (f := fFltStatusLastPath) (g := fFltStatusModuleState) _ _ _ (by decide)).trans
      ((fld_setFld_apart (fresh s m) (f := fFltStatusLastResetCause) (g := fFltStatusModuleState) _ _ _ (by decide)).trans
        ((fld_congr (s := ({} : State)) (t := fresh s m) rfl fFltStatusModuleState 0 0).trans (by decide +kernel)))

/-- A module reset with PERST_N released. -/
theorem wasReset_moduleReset (s : State) (hc : cause < 256) : WasReset s (moduleReset s cause) cause :=
  (wasReset_cleared s _ hc).stays (staysReset_release _)

theorem history_moduleReset (s : State) (cause : Nat) : (moduleReset s cause).flash.history = s.flash.history ∧
    (moduleReset s cause).flash.icvarFired = s.flash.icvarFired := by
  obtain ⟨-, -, -, -, f5, f6⟩ := activate_fuses { s.flash with moduleResets := min (s.flash.moduleResets + 1) 65535 }
  exact ⟨f5, f6⟩

theorem WasReset.of_noted {f : Flash} (h : WasReset { s with flash := f } t cause) (hf : f.moduleResets = s.flash.moduleResets ∧ f.fwStaged = s.flash.fwStaged ∧
    f.fwActive = s.flash.fwActive ∧ f.minSvn = s.flash.minSvn) : WasReset s t cause := by
  obtain ⟨h1, h2, h3, h4⟩ := hf
  unfold WasReset at h ⊢
  rw [← h1, ← h2, ← h3, ← h4]
  exact h

/-- Icvar's watchdog noted in flash (R431). -/
def icvarNoted (s : State) : State :=
  { s with flash := { s.flash with history := s.flash.history ++ [4], icvarFired := min (s.flash.icvarFired + 1) 65535 } }

theorem icvarWatchdogOp_eq (h : running s = true) (hv : s.module.fwVerified = true) : icvarWatchdogOp s = healthEvent (moduleReset (icvarNoted s) 4) huIcvar 16 2000 :=
  if_pos (by rw [h, hv]; rfl)

theorem module_healthEvent (s : State) (v row pts : Nat) : (healthEvent s v row pts).module = s.module :=
  (within_healthEvent s v row pts (Within.refl s) (Sub.refl _)).same .module (by decide)

/-! ### The obligation -/

/-- Settles O18, from what the module cleared, the release of reset and an event scored against Icvar leave. -/
theorem moduleResets : Obligations.ModuleResets := by
  unfold Obligations.ModuleResets
  refine ⟨?assert, ?asserted, ?shut, ?release, ?hot, ?key, ?other, ?fatal, ?watchdog, ?applied, ?removed⟩
  case assert =>
    intro s hp ha hd ho
    refine ⟨_, next_congr ((if_neg (by simp [hp, ha])).trans (if_neg (by simp [hd, ho]))), wasReset_cleared s _ (by decide), rfl, rfl, rfl⟩
  case asserted =>
    intro s hp ha h
    exact next_congr ((if_neg (by simp [hp, ha])).trans (if_pos (by simpa using h)))
  case shut =>
    intro s hp ha ho hd
    refine ⟨_, next_congr ((if_neg (by simp [hp, ha, ho])).trans (by rw [if_pos hd])), ?_, rfl, rfl, rfl⟩
    refine ((wasReset_cleared s { perstAsserted := true } (by decide)).stays ?_).stays (staysReset_release _)
    exact ⟨regsBut_of_same rfl, ⟨rfl, rfl, rfl, rfl, rfl⟩, ⟨rfl, rfl, rfl, rfl⟩, ⟨rfl, rfl, rfl⟩⟩
  case release =>
    intro s hp ha ho hd
    refine ⟨resetRelease { s with module := { s.module with pwrOffOk := false } }, ?_, ?_, ?_, rfl⟩
    · exact next_congr ((if_neg (by simp [hp, ha, ho])).trans (by rw [if_neg (by simp [hd])]))
    · intro a hn
      cases a
      case module => exact absurd (.head _) hn
      case registers => exact absurd (.tail _ (.head _)) hn
      case security => exact absurd (.tail _ (.tail _ (.head _))) hn
      all_goals rfl
    · exact fld_setFld_same _ fClkStatusLocked 0 0 1 (by decide) (by decide)
  case hot => exact fun s h => ⟨_, next_congr (if_pos h), wasReset_moduleReset s (by decide), rfl, rfl, rfl⟩
  case key =>
    intro s h hr
    exact ⟨_, next_congr (if_pos (by rw [h, hr]; rfl)), wasReset_moduleReset s (by decide), rfl, rfl⟩
  case other =>
    intro value s h
    exact next_congr (if_neg fun hk => h (eq_of_beq (Bool.and_eq_true_iff.1 hk).2))
  case fatal =>
    intro cause s h
    have hn : ¬(!running s) = true := by simp [h]
    cases cause with
    | icvarSram =>
      refine ⟨_, next_congr (if_neg hn), ?_, ?_, ?_⟩
      · exact ((wasReset_moduleReset (noteHistory s 5) (by decide)).of_noted ⟨rfl, rfl, rfl, rfl⟩).stays (staysReset_healthEvent _ 12 500)
      · rw [module_healthEvent]
        rfl
      · rw [(staysReset_healthEvent _ 12 500).kept.2.2, (history_moduleReset _ 5).1]
        rfl
    | controlLogic => exact ⟨_, next_congr (if_neg hn), wasReset_moduleReset s (by decide), rfl, (history_moduleReset s 6).1⟩
    | pllLock => exact ⟨_, next_congr (if_neg hn), wasReset_moduleReset s (by decide), rfl, (history_moduleReset s 7).1⟩
  case watchdog =>
    intro s h hv
    refine ⟨_, next_congr (icvarWatchdogOp_eq h hv), ?_, ?_, ?_, ?_⟩
    · exact ((wasReset_moduleReset (icvarNoted s) (by decide)).of_noted ⟨rfl, rfl, rfl, rfl⟩).stays (staysReset_healthEvent _ 16 2000)
    · rw [module_healthEvent]
      rfl
    · rw [(staysReset_healthEvent _ 16 2000).kept.2.2, (history_moduleReset _ 4).1]
      rfl
    · rw [(staysReset_healthEvent _ 16 2000).kept.2.2, (history_moduleReset _ 4).2]
      rfl
  case applied => exact fun s h => ⟨_, next_congr (if_neg (by simp [h])), wasReset_cleared s _ (by decide), rfl, rfl⟩
  case removed => exact fun s h => ⟨_, next_congr (if_neg (by simp [h])), rfl, rfl, rfl, rfl, rfl, rfl, rfl, rfl, rfl, rfl⟩

end Sys2Proof.Machine
end

section
/-! PCIE_CONFIG_REQUEST, PCIE_LINK_TRAINED, FUNCTION_LEVEL_RESET, PF_RESET_OR_VF_DISABLE, BUS_MASTER_DISABLE, TDISP_REQUEST and
IDE_KM_REQUEST (R328 to R330, R332, R337, R354, R356, R358, R445, R478). -/

namespace Sys2Proof.Machine

variable {s t : State} {f : Nat}

/-! ### Configuration requests -/

theorem pcieConfigOp_ready {fn : Fn} {a : CfgAccess} (h : running s = true) (hr : s.module.cfgReady = true) (hm : (s.fn fn.val).mode ≠ .absent) :
    exec (.pcieConfigRequest fn a) s = .next (cfgAccess fn.val a s) :=
  next_congr ((if_neg (by simp [h])).trans ((if_neg (by simp [hr])).trans (if_neg (by simp [hm]))))

theorem cfgAnswer_cfg (s : State) (a : CfgAnswer) : (cfgAnswer s a).out.cfg = a := rfl

theorem cfgAnswer_fn (s : State) (a : CfgAnswer) (f : Nat) : (cfgAnswer s a).fn f = s.fn f := rfl

theorem cfgAnswer_host (s : State) (a : CfgAnswer) : (cfgAnswer s a).host.vfEnable = s.host.vfEnable := rfl

theorem cfgAnswer_only (s : State) (a : CfgAnswer) : Only [.out] s (cfgAnswer s a) := only_of_within (within_cfgAnswer s a (Within.refl s) rfl)

/-- A function changed, with an answer to a configuration request. -/
theorem cfgAnswer_modFn (s : State) (f : Nat) (g : FnState → FnState) (a : CfgAnswer) : (cfgAnswer (s.modFn f g) a).fn f = g (s.fn f) ∧
    (∀ k, k ≠ f → (cfgAnswer (s.modFn f g) a).fn k = s.fn k) ∧ Only [.functions, .out] s (cfgAnswer (s.modFn f g) a) := by
  obtain ⟨h1, h2, h3⟩ := setFn_frame s f (g (s.fn f))
  exact ⟨h1, h2, (h3.mono (by decide)).chain ((cfgAnswer_only _ a).mono (by decide))⟩

/-- A virtual function as VF Enable leaves it (R328, R332). -/
def vfEnabled (x : FnState) : FnState := if x.mode = .absent then { x with mode := .enabled, tdi := .unlocked } else x

/-- A virtual function that VF Enable makes exist. -/
def vfStep (f : Nat) (t : State) : State :=
  if (t.fn f).mode == .absent then t.modFn f (fun x => { x with mode := .enabled, tdi := .unlocked }) else t

/-- The state with VF Enable set. -/
def vfSet (s : State) : State := { s with host := { s.host with vfEnable := true } }

theorem enableVfs_eq (s : State) : enableVfs s = forEach (spanOf 1 63) (vfSet s) vfStep := rfl

theorem vfStep_fn (f a : Nat) (t : State) : (vfStep a t).fn f = if f = a then vfEnabled (t.fn f) else t.fn f := by
  unfold vfStep
  by_cases hm : (t.fn a).mode = .absent
  · rw [if_pos (by simp [hm]), modFn_fn]
    by_cases hf : f = a
    · subst hf
      rw [if_pos rfl, if_pos rfl, vfEnabled, if_pos hm]
    · rw [if_neg hf, if_neg hf]
  · rw [if_neg (by simp [hm])]
    by_cases hf : f = a
    · subst hf
      rw [if_pos rfl, vfEnabled, if_neg hm]
    · rw [if_neg hf]

theorem enableVfs_fn (s : State) (f : Nat) : (enableVfs s).fn f = if 1 ≤ f ∧ f < 64 then vfEnabled (s.fn f) else s.fn f := by
  have hd : (spanOf 1 63).Nodup := List.nodup_range.map fun a b h => Nat.add_left_cancel h
  rw [enableVfs_eq]
  by_cases hf : 1 ≤ f ∧ f < 64
  · rw [if_pos hf]
    exact forEach_at (g := vfStep) (π := fun t => t.fn f) (φ := vfEnabled) (k := f) hd (mem_spanOf.2 (by omega))
      (fun t => (vfStep_fn f f t).trans (if_pos rfl)) (fun a _ hne t => (vfStep_fn f a t).trans (if_neg (Ne.symm hne))) (vfSet s)
  · rw [if_neg hf]
    refine forEach_keeps (g := vfStep) (π := fun t => t.fn f) (fun a ha t => (vfStep_fn f a t).trans (if_neg ?_)) (vfSet s)
    have hm := mem_spanOf.1 ha
    omega

theorem vfEnable_enableVfs (s : State) : (enableVfs s).host.vfEnable = true := by
  rw [enableVfs_eq]
  exact forEach_keeps (g := vfStep) (π := fun t => t.host.vfEnable) (fun a _ t => ite_holds (P := fun u => u.host.vfEnable = t.host.vfEnable) rfl rfl) (vfSet s)

theorem cfgAccess_vf (h : f = 0) (s : State) : cfgAccess f .setVfEnable s = cfgAnswer (enableVfs s) (.done 0) := by
  show cfgAnswer (if f = 0 then enableVfs s else s) (.done 0) = _
  rw [if_pos h]

/-- The trained link in HIF_LINK (R358). -/
def linkShown (s : State) (speed width : Nat) (flit : Bool) : State :=
  (((s.setFld fHifLinkSpeed 0 0 speed).setFld fHifLinkWidth 0 0 width).setFld fHifLinkFlit 0 0 (toBit flit)).setFld fHifLinkSpeedLow 0 0 (toBit (decide (speed ≤ 3)))

theorem linkShown_fields {speed width : Nat} (hs : speed < 16) (hw : width < 16) (flit : Bool) (s : State) :
    (linkShown s speed width flit).fld fHifLinkSpeed 0 0 = speed ∧ (linkShown s speed width flit).fld fHifLinkWidth 0 0 = width ∧
    (linkShown s speed width flit).fld fHifLinkFlit 0 0 = (if flit then 1 else 0) ∧
    (linkShown s speed width flit).fld fHifLinkSpeedLow 0 0 = (if speed ≤ 3 then 1 else 0) := by
  have h1 {g : RField} (h : FieldsApart fHifLinkSpeedLow g) : (linkShown s speed width flit).fld g 0 0 = _ := fld_setFld_apart _ _ _ _ h
  refine ⟨?_, ?_, ?_, ?_⟩
  · exact (h1 (by decide)).trans ((fld_setFld_apart _ _ _ _ (by decide)).trans ((fld_setFld_apart _ _ _ _ (by decide)).trans
      ((fld_setFld_same s fHifLinkSpeed 0 0 _ (by decide) (by decide)).trans (Nat.mod_eq_of_lt hs))))
  · exact (h1 (by decide)).trans ((fld_setFld_apart _ _ _ _ (by decide)).trans
      ((fld_setFld_same _ fHifLinkWidth 0 0 _ (by decide) (by decide)).trans (Nat.mod_eq_of_lt hw)))
  · exact (h1 (by decide)).trans ((fld_setFld_same _ fHifLinkFlit 0 0 _ (by decide) (by decide)).trans (by cases flit <;> rfl))
  · refine (fld_setFld_same _ fHifLinkSpeedLow 0 0 _ (by decide) (by decide)).trans ?_
    by_cases h : speed ≤ 3 <;> simp [h, toBit, fHifLinkSpeedLow]

theorem linkShown_only (s : State) (speed width : Nat) (flit : Bool) : Only [.registers] s (linkShown s speed width flit) :=
  (((setFld_only s _ _ _ _).chain (setFld_only _ _ _ _ _)).chain (setFld_only _ _ _ _ _)).chain (setFld_only _ _ _ _ _)

/-- Settles O21, from the answers to a function that is ready, VF Enable and the trained link. -/
theorem configurationSpace : Obligations.ConfigurationSpace := by
  unfold Obligations.ConfigurationSpace
  refine ⟨?retry, ?read, ?write, ?master, ?vf, ?size, ?link⟩
  case retry => exact fun fn a s h hr => ⟨_, next_congr ((if_neg (by simp [h])).trans (if_pos (by simp [hr]))), rfl, cfgAnswer_only s _⟩
  case read =>
    intro fn off s h hr hm
    exact ⟨_, _, pcieConfigOp_ready h hr hm, rfl, ((freeDraw_only s).mono (by decide)).chain ((cfgAnswer_only _ _).mono (by decide))⟩
  case write => exact fun fn off value s h hr hm => ⟨_, pcieConfigOp_ready h hr hm, rfl, cfgAnswer_only s _⟩
  case master =>
    intro fn s h hr hm
    obtain ⟨h1, h2, h3⟩ := cfgAnswer_modFn s fn.val (fun x => { x with busMaster := x.mode != .absent && x.mode != .resetting }) (.done 0)
    exact ⟨_, pcieConfigOp_ready h hr hm, rfl, h1.trans (by simp [hm]), h2, h3⟩
  case vf =>
    intro s h hr hm
    have he : exec (.pcieConfigRequest 0 .setVfEnable) s = .next (cfgAnswer (enableVfs s) (.done 0)) := by
      exact (pcieConfigOp_ready (fn := 0) h hr hm).trans (next_congr (cfgAccess_vf (f := (0 : Fn).val) rfl s))
    refine ⟨_, he, cfgAnswer_cfg _ _,
      (cfgAnswer_host _ _).trans (vfEnable_enableVfs s), fun f => (cfgAnswer_fn _ _ f).trans ((enableVfs_fn s f).trans ?_), ?_⟩
    · unfold vfEnabled
      split_ifs <;> tauto
    · exact ((only_of_within (within_enableVfs s (Within.refl s) rfl) : Only [.functions] s _).mono (by decide)).chain ((cfgAnswer_only _ _).mono (by decide))
  case size =>
    intro fn n s h hr hm hl
    obtain ⟨h1, h2, h3⟩ := cfgAnswer_modFn s fn.val (fun x => { x with bar2Log := n.val }) (.done 0)
    refine ⟨_, (pcieConfigOp_ready h hr hm).trans (next_congr (congrArg (cfgAnswer · _) (if_neg (by simp [hl])))), rfl, h1, h2, h3⟩
  case link =>
    intro speed width flit s h hs
    obtain ⟨h1, h2, h3, h4⟩ := linkShown_fields (speed := speed.val) (width := width.val) (by omega) (by omega) flit s
    refine ⟨_, next_congr (if_neg ?_), h1, h2, h3, h4, linkShown_only s _ _ _⟩
    rw [h]
    simpa using hs

/-! ### Function-level resets -/

/-- A function as its reset begins (R356). -/
def inReset (now : Nat) (x : FnState) : FnState :=
  { x with mode := .resetting, flrStart := some now, session := none, busMaster := false, outbox := [], owed := [] }

/-- A function in reset whose commands and launches have lost their acknowledgements. -/
def flrMuted (s : State) (f : Nat) : State :=
  { s.modFn f (inReset s.now) with host := { (s.modFn f (inReset s.now)).host with
    commands := s.host.commands.map (fun p => if p.fn == f then { p with mute := true } else p),
    launches := s.host.launches.map (fun l => if l.fn == f then { l with mute := true } else l) } }

theorem beginFlr_eq (s : State) (f : Nat) : beginFlr s f =
    forEach (keysWhere (stopFnQueues (flrMuted s f) f false).objs.ctxs (fun x => x.mode == .active && x.owner == f)) (stopFnQueues (flrMuted s f) f false)
      (fun c t => stopPlanned t c false) := rfl

theorem flrMuted_fn (s : State) (f k : Nat) : (flrMuted s f).fn k = if k = f then inReset s.now (s.fn k) else s.fn k := modFn_fn s f k _

/-- A function of a reset, and the others, but for the words that wait at them. -/
theorem beginFlr_fn (s : State) (f k : Nat) : fnRest ((beginFlr s f).fn k) = fnRest (if k = f then inReset s.now (s.fn k) else s.fn k) := by
  have h1 := rests_stopFnQueues (flrMuted s f) f false
  have h2 : Rests (stopFnQueues (flrMuted s f) f false) (beginFlr s f) := rests_forEach _ _ (fun t c => rests_stopPlanned t c false) _
  rw [h2.fn, h1.fn, flrMuted_fn]

/-- A function-level reset leaves VF Enable as it is. -/
theorem beginFlr_vf (s : State) (f : Nat) : (beginFlr s f).host.vfEnable = s.host.vfEnable := by
  have h1 := rests_stopFnQueues (flrMuted s f) f false
  have h2 : Rests (stopFnQueues (flrMuted s f) f false) (beginFlr s f) := rests_forEach _ _ (fun t c => rests_stopPlanned t c false) _
  exact h2.vf.trans h1.vf

theorem stopPlanneds_modes (l : List Nat) (h : Bool) {q : Nat} (s : State) (hq : (s.queue q).mode ≠ .enabled) :
    ((forEach l s (fun c t => stopPlanned t c h)).queue q).mode ≠ .enabled := by
  induction l generalizing s with
  | nil => exact hq
  | cons c l ih =>
    refine ih _ ?_
    unfold stopPlanned
    dsimp only
    split
    · exact hq
    · refine stopQueues_mode _ h _ (.inr ?_)
      have hw : Within 6301704 s (markStopped (stopCtxSlots (s.modCtx c (fun y => { y with mode := .stopping, quiesced := false })) c) (fun l => l.ctx == c)) :=
        within_markStopped _ _ (within_stopCtxSlots _ _ (within_modCtx _ _ _ (Within.refl s) rfl) rfl) rfl
      rwa [queue_same (hw.same .queues (by decide))]

/-- The queues of a function in reset do not run. -/
theorem beginFlr_queue (f : Nat) {q : Nat} (hp : (s.queue q).present = true) (hf : (s.queue q).fn = f) : ((beginFlr s f).queue q).mode ≠ .enabled := by
  rw [beginFlr_eq]
  exact stopPlanneds_modes _ false _ (stopFnQueues_mode (flrMuted s f) f false hp hf)

/-- The contexts of a function in reset have stopped (R356). -/
theorem beginFlr_ctx (f : Nat) {k : Nat} (hk : (s.ctx k).owner = f) : ((beginFlr s f).ctx k).mode ≠ .active := by
  have hc : (stopFnQueues (flrMuted s f) f false).ctx k = s.ctx k :=
    ctx_same (s := flrMuted s f) ((within_stopFnQueues _ f false (Within.refl _) (Sub.refl _)).same .ctxs (by decide)) k
  rw [beginFlr_eq]
  refine stopPlanneds_ended _ false _ ?_
  by_cases ha : (s.ctx k).mode = .active
  · have hm : (((stopFnQueues (flrMuted s f) f false).ctx k).mode == .active && ((stopFnQueues (flrMuted s f) f false).ctx k).owner == f) = true := by
      simp [hc, ha, hk]
    exact .inl (mem_keysWhere (d := ({} : Ctx)) hm rfl)
  · exact .inr (by rwa [hc])

/-- What function-level resets of several functions leave of one. -/
theorem beginFlrs_fn (l : List Nat) (s : State) (k : Nat) :
    (k ∈ l → ((forEach l s (fun f t => beginFlr t f)).fn k).mode = .resetting ∧ ((forEach l s (fun f t => beginFlr t f)).fn k).session = none) ∧
    (k ∉ l → fnRest ((forEach l s (fun f t => beginFlr t f)).fn k) = fnRest (s.fn k)) := by
  refine ⟨fun h => ?_, fun h => ?_⟩
  · have hg := forEach_get (l := l) (g := fun f t => beginFlr t f) (π := fun t => ((t.fn k).mode, (t.fn k).session)) (k := k) (v := (.resetting, none))
      (fun t => ?_) (fun a _ hne t => ?_) s
    · rw [if_pos h] at hg
      exact Prod.mk.inj hg
    · have hb := beginFlr_fn t k k
      rw [if_pos rfl] at hb
      have hmode := congrArg FnState.mode hb
      have hsession := congrArg FnState.session hb
      exact Prod.ext hmode hsession
    · have hb := beginFlr_fn t a k
      rw [if_neg (Ne.symm hne)] at hb
      have hmode := congrArg FnState.mode hb
      have hsession := congrArg FnState.session hb
      exact Prod.ext hmode hsession
  · refine forEach_keeps (π := fun t => fnRest (t.fn k)) (fun a ha t => ?_) s
    have hb := beginFlr_fn t a k
    have hne : ¬k = a := fun e => h (by rw [e]; exact ha)
    rwa [if_neg hne] at hb

/-! ### TDIs -/

/-- A TDI that enters ERROR, and the other functions, but for the words that wait at them. -/
theorem tdiError_fn (s : State) (f k : Nat) : fnRest ((tdiError s f).fn k) = fnRest (if k = f then { s.fn k with tdi := .error } else s.fn k) := by
  refine ((rests_stopFnQueues (s.modFn f (fun x => { x with tdi := .error })) f false).fn k).trans ?_
  rw [modFn_fn]

theorem tdiError_queue (f : Nat) {q : Nat} (hp : (s.queue q).present = true) (hf : (s.queue q).fn = f) : ((tdiError s f).queue q).mode ≠ .enabled :=
  stopFnQueues_mode (s.modFn f (fun x => { x with tdi := .error })) f false hp hf

theorem exec_tdisp {fn : Fn} {req : TdispReq} (h : running s = true) (hr : s.module.cfgReady = true) (h0 : 0 < fn.val) (ht : (s.fn fn.val).tdi ≠ .notTdi) :
    exec (.tdispRequest fn req) s = .next (tdispStep fn.val req s) := by
  have hi : isTdi s fn.val = true := by simp [isTdi, h0, fn.isLt, ht]
  exact next_congr ((if_neg (by simp [h, hr])).trans (if_neg (by simp [hi])))

theorem tdiTo_frame (s : State) (f : Nat) (m : TdiMode) : (tdiTo s f m).fn f = { s.fn f with tdi := m } ∧ (tdiTo s f m).out.spdm = .tdi m [] ∧
    Only [.functions, .out] s (tdiTo s f m) := by
  obtain ⟨h1, -, h3⟩ := setFn_frame s f { s.fn f with tdi := m }
  exact ⟨h1, rfl, (h3.mono (by decide)).chain ((spdmAnswer_only _ _).mono (by decide))⟩

theorem exec_ideKm {fn : Fn} {req : IdeReq} (h : running s = true) (hr : s.module.cfgReady = true) (hm : (s.fn fn.val).mode ≠ .absent) :
    exec (.ideKmRequest fn req) s = .next (match req with
      | .linkIde on => if fn.val = 0 then s.setFld fHifLinkLinkIde 0 0 (toBit on) else s
      | .bindStream => s.modFn fn.val (fun x => { x with ideStream := true })
      | .unbindStream => if tdiLocked s fn.val && (s.fn fn.val).ideStream then tdiError (s.modFn fn.val (fun x => { x with ideStream := false })) fn.val
          else s.modFn fn.val (fun x => { x with ideStream := false })) :=
  next_congr ((if_neg (by simp [h, hr, hm])).trans (by cases req <;> rfl))

/-- Settles O22, from what a function's reset, its bus mastering and its TDI's requests leave. -/
theorem functionResetsAndTdis : Obligations.FunctionResetsAndTdis := by
  unfold Obligations.FunctionResetsAndTdis
  refine ⟨?flr, ?pf, ?master, ?tdisp, ?ide⟩
  case flr =>
    intro fn s h h0 hr
    refine ⟨beginFlr s fn.val, next_congr (if_neg (by simp [h, h0, hr])), fun f => (beginFlr_fn s fn.val f).trans ?_, fun k hk => beginFlr_ctx fn.val hk,
      fun q hp hf => beginFlr_queue fn.val hp hf⟩
    split <;> rfl
  case pf =>
    intro pfReset s h
    refine ⟨_, next_congr (if_neg (by simp [h])), ?_, fun f hf h0 hr => (beginFlrs_fn _ _ f).1 ?_, fun hp => (beginFlrs_fn _ _ 0).2 ?_⟩
    · refine forEach_keeps (π := fun t => t.host.vfEnable) (fun f _ t => ?_) { s with host := { s.host with vfEnable := false } }
      exact (beginFlr_vf t f)
    · refine List.mem_filter.2 ⟨List.mem_range.2 hf, ?_⟩
      have hv : resettable { s with host := { s.host with vfEnable := false } } f = true := hr
      rw [hv]
      simpa using h0
    · intro hm
      simpa [hp] using (List.mem_filter.1 hm).2
  case master =>
    intro fn s h hm
    refine ⟨_, next_congr (if_neg (by simp [h, hm])), fun f => ?_, fun q hp hf => stopFnQueues_mode _ fn.val false hp hf, ?_⟩
    · refine ((rests_stopFnQueues (s.modFn fn.val (fun x => { x with busMaster := false })) fn.val false).fn f).trans ?_
      rw [modFn_fn]
    · exact only_of_within (within_stopFnQueues _ fn.val false (within_modFn s fn.val _ (Within.refl s) rfl) rfl)
  case tdisp =>
    intro fn s h hr h0
    refine ⟨fun ht => ?_, fun ht => ?_, fun ht => ?_, fun ht => ?_, fun ht => ?_⟩
    · refine ⟨_, (exec_tdisp h hr h0 (by rw [ht]; decide)).trans (next_congr ?_), tdiTo_frame s fn.val .locked⟩
      unfold tdispStep
      rw [ht]
    · refine ⟨_, (exec_tdisp h hr h0 (by rw [ht]; decide)).trans (next_congr ?_), tdiTo_frame s fn.val .run⟩
      unfold tdispStep
      rw [ht]
    · exact ⟨_, exec_tdisp h hr h0 ht, tdiTo_frame s fn.val .unlocked⟩
    · refine ⟨spdmAnswer s (.tdi .run (measureList s false [0x10 + fn.val, 1, 2, 3, 4, 5, 6])), _,
        (exec_tdisp h hr h0 (by rw [ht]; decide)).trans (next_congr ?_), rfl, spdmAnswer_only s _⟩
      unfold tdispStep
      rw [ht]
    · refine ⟨spdmAnswer (tdiError s fn.val) (.tdi .error []), (exec_tdisp h hr h0 ?_).trans (next_congr ?_), fun f => tdiError_fn s fn.val f,
        fun q hp hf => tdiError_queue fn.val hp hf⟩
      · rcases ht with ht | ht <;> rw [ht] <;> decide
      · unfold tdispStep
        rcases ht with ht | ht <;> rw [ht]
  case ide =>
    intro fn s h hr hm
    refine ⟨fun on h0 => ?_, ?_, fun hl => ?_, fun hl hs => ?_⟩
    · refine ⟨_, (exec_ideKm h hr hm).trans (next_congr (if_pos h0)), ?_, setFld_only _ _ _ _ _⟩
      exact (fld_setFld_same s fHifLinkLinkIde 0 0 _ (by decide) (by decide)).trans (by cases on <;> rfl)
    · obtain ⟨h1, -, h3⟩ := setFn_frame s fn.val { s.fn fn.val with ideStream := true }
      exact ⟨_, exec_ideKm h hr hm, h1, h3⟩
    · obtain ⟨h1, -, h3⟩ := setFn_frame s fn.val { s.fn fn.val with ideStream := false }
      exact ⟨_, (exec_ideKm h hr hm).trans (next_congr (if_neg (by simp [hl]))), h1, h3⟩
    · refine ⟨_, (exec_ideKm h hr hm).trans (next_congr (if_pos (by simp [hl, hs]))), fun f => (tdiError_fn _ fn.val f).trans ?_⟩
      rw [modFn_fn]
      split <;> rfl

end Sys2Proof.Machine
end

section
/-! REGISTER_WRITE and RC_REGISTER_READ (R10, R12, R13, R16, R337). -/

namespace Sys2Proof.Machine

variable {s t : State} {fn : Fn} {off width : Nat} {a : RegAt}

/-! ### What an access to BAR0 does -/

theorem registerWrite_reg (v hwSet : Word) (ha : answers s fn.val = true) (hw : wellSized off width = true) (hb : barAt fn.val off = .reg a) :
    exec (.registerWrite fn off width v hwSet) s =
      .next (writeReg fn.val a (lanesOf off width) (placed v (lanesOf off width)) hwSet s) := by
  refine next_congr ((if_neg (by simp [ha, hw])).trans ?_)
  rw [hb]

theorem registerWrite_msix (v hwSet : Word) {k : Nat} (ha : answers s fn.val = true) (hw : wellSized off width = true)
    (hb : barAt fn.val off = .msix k) (hl : tdiLocked s fn.val = false) : exec (.registerWrite fn off width v hwSet) s =
      .next (s.modFn fn.val (fun x =>
        { x with msixTable := tabSet 0 x.msixTable k (laneMix (tabGet 0 x.msixTable k) (placed v (lanesOf off width)) (lanesOf off width)) })) := by
  refine next_congr ((if_neg (by simp [ha, hw])).trans ?_)
  rw [hb]
  exact if_neg (by simp [hl])

theorem registerWrite_none (v hwSet : Word) (ha : answers s fn.val = true) (hw : wellSized off width = true)
    (hb : barAt fn.val off = .none) : exec (.registerWrite fn off width v hwSet) s = .next s := by
  refine next_congr ((if_neg (by simp [ha, hw])).trans ?_)
  rw [hb]

/-- The state with a read's value handed back. -/
def readGives (s : State) (w : Word) : State := { s with out := { s.out with bar0 := w } }

theorem registerRead_reg (l : List (Nat × Nat)) (ha : answers s fn.val = true) (hw : wellSized off width = true)
    (hb : barAt fn.val off = .reg a) : exec (.rcRegisterRead fn off width l) s =
      .next (countCoincident (if width = 8 then clearRc (readGives s (halfOf (regValue s fn.val a) (lanesOf off width))) a
        else readGives s (halfOf (regValue s fn.val a) (lanesOf off width))) a l) := by
  refine next_congr ((if_neg (by simp [ha])).trans ((if_neg (by simp [hw])).trans ?_))
  rw [hb]
  rfl

theorem registerRead_msix (l : List (Nat × Nat)) {k : Nat} (ha : answers s fn.val = true) (hw : wellSized off width = true)
    (hb : barAt fn.val off = .msix k) : exec (.rcRegisterRead fn off width l) s =
      .next (readGives s (halfOf (tabGet 0 (s.fn fn.val).msixTable k) (lanesOf off width))) := by
  refine next_congr ((if_neg (by simp [ha])).trans ((if_neg (by simp [hw])).trans ?_))
  rw [hb]
  rfl

theorem registerRead_illSized (l : List (Nat × Nat)) (ha : answers s fn.val = true) (hw : wellSized off width = false) :
    exec (.rcRegisterRead fn off width l) s = .next (readGives s 0) :=
  next_congr ((if_neg (by simp [ha])).trans (if_pos (by simp [hw])))

theorem registerRead_none (l : List (Nat × Nat)) (ha : answers s fn.val = true) (hw : wellSized off width = true)
    (hb : barAt fn.val off = .none) : exec (.rcRegisterRead fn off width l) s = .next (readGives s 0) := by
  refine next_congr ((if_neg (by simp [ha])).trans ((if_neg (by simp [hw])).trans ?_))
  rw [hb]
  rfl

/-! ### Writes by access code -/

/-- A register without a row of its own is written by the access codes of its fields. -/
theorem writeReg_byCode (f : Nat) (lanes : Lanes) (v hwSet : Word)
    (h : a.reg ∉ [.mbxInWord, .mbxOutAck, .hifQslotCtl, .fltCtl, .lnkLoop, .hbmLoop]) :
    writeReg f a lanes v hwSet s = writeByCode s a lanes v hwSet := by
  simp only [List.mem_cons, List.not_mem_nil, or_false, not_or] at h
  obtain ⟨h1, h2, h3, h4, h5, h6⟩ := h
  unfold writeReg
  split
  · next e => exact absurd e h1
  · next e => exact absurd e h2
  · next e => exact absurd e h3
  · next e => exact absurd e h4
  · next e => exact absurd e h5
  · next e => exact absurd e h6
  · rfl

theorem getLsbD_writeByCode (lanes : Lanes) (v hwSet : Word) {i : Nat} (hi : i < 64) : ((writeByCode s a lanes v hwSet).raw a).getLsbD i =
    (((s.raw a).getLsbD i && !((v &&& laneMask lanes).getLsbD i && (w1cMask a.reg).getLsbD i)) ||
      (hwSet.getLsbD i && (w1cMask a.reg).getLsbD i)) := by
  rw [writeByCode, raw_setRaw_same]
  simp only [BitVec.getLsbD_or, BitVec.getLsbD_and, BitVec.getLsbD_not, hi, decide_true, Bool.true_and]
  rw [Bool.and_assoc, Bool.and_assoc, Bool.and_comm ((laneMask lanes).getLsbD i)]

/-! ### RC fields -/

/-- The RC fields of a register lie within 64 bits and share no bit. -/
def rcApart (r : RegName) : Bool :=
  (rcFields r).all fun f => decide (f.2 ≤ f.1) && decide (f.1 < 64) &&
    (rcFields r).all fun g => g == f || decide (f.1 < g.2) || decide (g.1 < f.2)

theorem rcApart_all (r : RegName) : rcApart r = true := by cases r <;> rfl

theorem rcField_bounds {r : RegName} {f : Nat × Nat} (h : f ∈ rcFields r) : f.2 ≤ f.1 ∧ f.1 < 64 := by
  have ha := List.all_eq_true.1 (rcApart_all r) f h
  simp only [Bool.and_eq_true, decide_eq_true_eq] at ha
  exact ha.1

theorem rcField_apart {r : RegName} {f g : Nat × Nat} (hf : f ∈ rcFields r) (hg : g ∈ rcFields r) (hne : g ≠ f) : f.1 < g.2 ∨ g.1 < f.2 := by
  have ha := List.all_eq_true.1 (rcApart_all r) f hf
  simp only [Bool.and_eq_true] at ha
  have hb := List.all_eq_true.1 ha.2 g hg
  simpa [hne] using hb

/-- An RC field is told by its low bit. -/
theorem rcField_eq {r : RegName} {f g : Nat × Nat} (hf : f ∈ rcFields r) (hg : g ∈ rcFields r) (h : f.2 = g.2) : f = g := by
  by_contra hne
  have := rcField_bounds hf
  have := rcField_bounds hg
  rcases rcField_apart hf hg (Ne.symm hne) with h1 | h1 <;> omega

/-- The bits of a register with a list of its RC fields set to zero. -/
theorem getBits_cleared {r : RegName} {g : Nat × Nat} (hg : g ∈ rcFields r) (l : List (Nat × Nat)) (hl : ∀ f ∈ l, f ∈ rcFields r) (w : Word) :
    getBits (l.foldl (fun w f => putBits w f.1 f.2 0) w) g.1 g.2 = if g ∈ l then 0 else getBits w g.1 g.2 := by
  induction l generalizing w with
  | nil => simp
  | cons f l ih =>
    rw [List.foldl_cons, ih (fun x hx => hl x (List.mem_cons_of_mem _ hx))]
    have hf := hl f List.mem_cons_self
    obtain ⟨hle, hlt⟩ := rcField_bounds hf
    by_cases hgf : g = f
    · subst hgf
      rw [getBits_putBits_same _ hle hlt]
      simp
    · rw [getBits_putBits_ne _ hle hlt (rcField_bounds hg).2 _ (rcField_apart hf hg hgf)]
      simp [hgf]

theorem fld_clearRc {g : Nat × Nat} (hg : g ∈ rcFields a.reg) : getBits ((clearRc s a).raw a) g.1 g.2 = 0 := by
  rw [clearRc, raw_setRaw_same, getBits_cleared hg _ (fun _ h => h), if_pos hg]

/-- One event that meets a read, in the register that it counts in. -/
def countOne (a : RegAt) (t : State) (e : Nat × Nat) : State :=
  match (rcFields a.reg).find? (fun f => f.2 == e.1) with
  | some f => t.bump ⟨a.reg, f.1, f.2⟩ a.i a.j e.2
  | none => t

theorem countCoincident_eq (s : State) (a : RegAt) (l : List (Nat × Nat)) : countCoincident s a l = l.foldl (countOne a) s := rfl

theorem getBits_countOne {g : Nat × Nat} (hg : g ∈ rcFields a.reg) (e : Nat × Nat) : getBits ((countOne a t e).raw a) g.1 g.2 =
    min (getBits (t.raw a) g.1 g.2 + (if e.1 = g.2 then e.2 else 0)) (2 ^ (g.1 + 1 - g.2) - 1) := by
  have hmax : getBits (t.raw a) g.1 g.2 ≤ 2 ^ (g.1 + 1 - g.2) - 1 := Nat.le_sub_one_of_lt (bitsOf_lt _ _ _)
  unfold countOne
  split
  · next f hfind =>
    have hf := List.mem_of_find?_eq_some hfind
    have hlow : f.2 = e.1 := by simpa using List.find?_some hfind
    obtain ⟨hle, hlt⟩ := rcField_bounds hf
    by_cases hgf : g = f
    · subst hgf
      rw [if_pos hlow.symm]
      exact fld_bump_same t ⟨a.reg, g.1, g.2⟩ a.i a.j e.2 hle hlt
    · rw [if_neg fun h => hgf (rcField_eq hg hf (h.symm.trans hlow.symm)), Nat.add_zero, Nat.min_eq_left hmax]
      exact fld_bump_apart t (f := ⟨a.reg, f.1, f.2⟩) (g := ⟨a.reg, g.1, g.2⟩) a.i a.j e.2
        ⟨rfl, hle, hlt, (rcField_bounds hg).2, rcField_apart hf hg hgf⟩
  · next hfind =>
    have hne : e.1 ≠ g.2 := fun h => by simpa [h] using List.find?_eq_none.1 hfind g hg
    rw [if_neg hne, Nat.add_zero, Nat.min_eq_left hmax]

theorem raw_countOne {b : RegAt} (hb : regKey b ≠ regKey a) (t : State) (e : Nat × Nat) : (countOne a t e).raw b = t.raw b := by
  unfold countOne
  split
  · exact raw_bump_key t _ hb.symm
  · rfl

theorem sumNat_cons (n : Nat) (l : List Nat) : sumNat (n :: l) = n + sumNat l := by
  have h (l : List Nat) : sumNat l = l.sum := List.sum_eq_foldl.symm
  rw [h, h, List.sum_cons]

theorem getBits_countCoincident {g : Nat × Nat} (hg : g ∈ rcFields a.reg) (l : List (Nat × Nat)) (s : State) :
    getBits ((countCoincident s a l).raw a) g.1 g.2 =
      min (getBits (s.raw a) g.1 g.2 + sumNat ((l.filter (fun e => e.1 == g.2)).map (·.2))) (2 ^ (g.1 + 1 - g.2) - 1) := by
  rw [countCoincident_eq]
  induction l generalizing s with
  | nil => exact (Nat.min_eq_left (Nat.le_sub_one_of_lt (bitsOf_lt _ _ _))).symm
  | cons e l ih =>
    rw [List.foldl_cons, ih, getBits_countOne hg]
    by_cases he : e.1 = g.2
    · simp only [he, List.filter_cons_of_pos, beq_self_eq_true, List.map_cons, sumNat_cons, if_true]
      omega
    · simp only [he, if_false, Nat.add_zero, List.filter_cons_of_neg, beq_iff_eq, not_false_eq_true]
      omega

theorem raw_countCoincident {b : RegAt} (hb : regKey b ≠ regKey a) (l : List (Nat × Nat)) (s : State) :
    (countCoincident s a l).raw b = s.raw b := by
  rw [countCoincident_eq]
  induction l generalizing s with
  | nil => rfl
  | cons e l ih => rw [List.foldl_cons, ih, raw_countOne hb]

/-- The state in which a read counts its coincident events. -/
def readLeaves (s : State) (a : RegAt) (width : Nat) : State := if width = 8 then clearRc s a else s

theorem getBits_readLeaves {g : Nat × Nat} (hg : g ∈ rcFields a.reg) (s : State) (width : Nat) :
    getBits ((readLeaves s a width).raw a) g.1 g.2 = if width = 8 then 0 else getBits (s.raw a) g.1 g.2 := by
  unfold readLeaves
  split
  · exact fld_clearRc hg
  · rfl

theorem raw_readLeaves {b : RegAt} (hb : regKey b ≠ regKey a) (s : State) (width : Nat) : (readLeaves s a width).raw b = s.raw b := by
  unfold readLeaves
  split
  · exact raw_setRaw_key s _ hb.symm
  · rfl

theorem readLeaves_only (s : State) (a : RegAt) (width : Nat) : Only [.registers] s (readLeaves s a width) := by
  unfold readLeaves
  split
  · exact only_of_within (within_setRaw s _ _ (Within.refl s) rfl)
  · exact Only.refl _ s

theorem countCoincident_only (s : State) (a : RegAt) (l : List (Nat × Nat)) : Only [.registers] s (countCoincident s a l) :=
  only_of_within (within_countCoincident s a l (Within.refl s) rfl)

theorem readEnd_only (s : State) (a : RegAt) (width : Nat) (l : List (Nat × Nat)) :
    Only [.registers] s (countCoincident (readLeaves s a width) a l) :=
  (readLeaves_only s a width).chain (countCoincident_only _ a l)

theorem readGives_only (s : State) (w : Word) : Only [.out] s (readGives s w) := by
  intro x hx
  cases x
  case out => exact absurd List.mem_cons_self hx
  all_goals rfl

/-! ### Registers with a row of their own -/

theorem toNat_highHalf (v : Word) : (BitVec.ofNat 32 (bitsOf v.toNat 63 32)).toNat = bitsOf v.toNat 63 32 :=
  Nat.mod_eq_of_lt (bitsOf_lt _ _ _)

theorem or_start {v : Word} (h : bitOf v.toNat 15 = true) : v ||| 0x8000 = v := by
  rw [bitOf_toNat] at h
  refine BitVec.eq_of_getLsbD_eq fun i _ => ?_
  rw [BitVec.getLsbD_or, getLsbD_start]
  by_cases hi : i = 15
  · subst hi; simp [h]
  · simp [hi]

theorem and_not_start {v : Word} (h : ¬ bitOf v.toNat 15 = true) : v &&& ~~~(0x8000 : Word) = v := by
  rw [bitOf_toNat, Bool.not_eq_true] at h
  refine BitVec.eq_of_getLsbD_eq fun i hlt => ?_
  rw [BitVec.getLsbD_and, BitVec.getLsbD_not, getLsbD_start]
  by_cases hi : i = 15
  · rw [hi, h]; rfl
  · simp [hi, hlt]

theorem writeReg_lnkLoop (f : Nat) (k : LinkId) {lanes : Lanes} (v hwSet : Word) (hl : lanes ≠ .high) :
    .next (writeReg f ⟨.lnkLoop, k.val / 8, k.val % 8⟩ lanes v hwSet s) =
      (if bitOf v.toNat 15 then exec (.lnkLoopStart k v) s else exec (.lnkLoopModeWrite k v) s) := by
  have hw : writeReg f ⟨.lnkLoop, k.val / 8, k.val % 8⟩ lanes v hwSet s = linkLoopWrite s k.val v := by
    refine (if_neg hl).trans ?_
    rw [Nat.div_add_mod]
  rw [hw]
  split
  · next h => exact next_congr (by rw [or_start h])
  · next h => exact next_congr (by rw [and_not_start h])

theorem writeReg_hbmLoop (f : Nat) (g : StackId) {lanes : Lanes} (v hwSet : Word) (hl : lanes ≠ .high) :
    .next (writeReg f ⟨.hbmLoop, g.val / 3, g.val % 3⟩ lanes v hwSet s) = exec (.hbmLoopStart g v) s := by
  refine next_congr ((if_neg hl).trans ?_)
  rw [Nat.div_add_mod]

theorem writeReg_hifQslotCtl (fn : Fn) (j : Fin 512) {lanes : Lanes} (v hwSet : Word) (hl : lanes ≠ .low) :
    .next (writeReg fn.val ⟨.hifQslotCtl, fn.val, j.val⟩ lanes v hwSet s) =
      exec (.cqRelease fn j (BitVec.ofNat 32 (bitsOf v.toNat 63 32))) s := by
  refine next_congr ((if_neg hl).trans ?_)
  rw [toNat_highHalf]

/-- Settles O23: a write clears W1C bits alone, a 64-bit read clears RC fields and counts what meets it; rows of their own. -/
theorem registerAccess : Obligations.RegisterAccess := by
  refine ⟨fun fn off width v hwSet s a ha hw hb hr => ?_, fun fn off v hwSet s k ha hw hb hl => ?_, fun fn off width v hwSet s h => ?_,
    fun fn off width l s a ha hw hb => ?_, fun fn off width l s k ha hw hb => registerRead_msix l ha hw hb,
    fun fn off width l s ha hw => registerRead_illSized l ha hw,
    fun fn off width v hwSet l s ha hw hb => ⟨registerWrite_none v hwSet ha hw hb, registerRead_none l ha hw hb⟩,
    fun fn off width v hwSet s ha hw => ?_⟩
  · refine ⟨_, (registerWrite_reg v hwSet ha hw hb).trans (next_congr (writeReg_byCode _ _ _ _ hr)),
      fun i hi => getLsbD_writeByCode _ _ _ hi, fun b hb => raw_setRaw_key s _ hb.symm,
      only_of_within (within_writeByCode s _ _ _ _ (Within.refl s) rfl)⟩
  · obtain ⟨hself, hothers, honly⟩ := setFn_frame s fn.val { s.fn fn.val with msixTable := tabSet 0 (s.fn fn.val).msixTable k v }
    refine ⟨_, registerWrite_msix v hwSet ha hw hb hl, ?_, fun i hi => ?_, hothers, honly⟩
    · exact (congrArg (fun x : FnState => tabGet 0 x.msixTable k) hself).trans (tabGet_tabSet_same _ _ _ _)
    · exact (congrArg (fun x : FnState => tabGet 0 x.msixTable i) hself).trans (tabGet_tabSet_ne _ _ _ (Ne.symm hi))
  · refine next_congr (if_pos ?_)
    rcases h with h | h <;> simp [h]
  · have hgive : ∀ w, Only [.registers, .out] s (readGives s w) := fun w => (readGives_only s w).mono (by decide)
    refine ⟨_, registerRead_reg l ha hw hb, ?_, fun f hf => ?_, fun b hb => ?_, fun h4 hl => ?_, ?_⟩
    · exact congrArg Out.bar0 (readEnd_only _ a width l .out (by decide))
    · exact (getBits_countCoincident hf l _).trans (by rw [← readLeaves, getBits_readLeaves hf]; rfl)
    · exact (raw_countCoincident hb l _).trans (raw_readLeaves hb _ width)
    · subst h4 hl
      exact readGives_only s _
    · exact (hgive _).chain ((readEnd_only _ a width l).mono (by decide))
  · dsimp only
    refine ⟨fun j hb => registerWrite_reg v hwSet ha hw hb, fun j hb => registerWrite_reg v hwSet ha hw hb,
      fun j hb hl => (registerWrite_reg v hwSet ha hw hb).trans (writeReg_hifQslotCtl fn j _ _ hl),
      fun hb hl => (registerWrite_reg v hwSet ha hw hb).trans (next_congr (if_neg hl)),
      fun k hb hl => (registerWrite_reg v hwSet ha hw hb).trans (writeReg_lnkLoop _ k _ _ hl),
      fun g hb hl => (registerWrite_reg v hwSet ha hw hb).trans (writeReg_hbmLoop _ g _ _ hl)⟩

end Sys2Proof.Machine
end

section
/-! MAILBOX_TAKE, MBX_OUT_POST and MBX_OUT_ACK (R338, R340 to R342, R366, R367, R377, R384). -/

namespace Sys2Proof.Machine

variable {s t : State} {f j : Nat}

/-! ### Acknowledgements and posted words -/

theorem raiseMsix_only (s : State) (f v : Nat) : Only [.out] s (raiseMsix s f v) :=
  only_of_within (within_raiseMsix _ _ _ (Within.refl s) rfl)

theorem fn_raiseMsix (s : State) (f v g : Nat) : (raiseMsix s f v).fn g = s.fn g := fn_congr (raiseMsix_only s f v .functions (by decide)) g

theorem raw_raiseMsix (s : State) (f v : Nat) (a : RegAt) : (raiseMsix s f v).raw a = s.raw a :=
  raw_congr (raiseMsix_only s f v .registers (by decide)) a

theorem fld_raiseMsix (s : State) (f v : Nat) (g : RField) (i j : Nat) : (raiseMsix s f v).fld g i j = s.fld g i j :=
  fld_congr (raiseMsix_only s f v .registers (by decide)) g i j

/-- An acknowledgement changes no register but MBX_IN_STATUS and MBX_IN_ACK of its mailbox. -/
theorem raw_ackMbx_key {b : RegAt} (seq taken rc : Nat) (h1 : regKey ⟨.mbxInStatus, f, j⟩ ≠ regKey b) (h2 : regKey ⟨.mbxInAck, f, j⟩ ≠ regKey b) :
    (ackMbx s f j seq taken rc).raw b = s.raw b := by
  by_cases h : s.fld fMbxInAckValid f j = 1
  · obtain ⟨w, hw⟩ := ackMbx_of_lost (seq := seq) (taken := taken) (rc := rc) h
    rw [hw, raw_setRaw_key _ _ h2, raw_setFld_key (f := fMbxInStatusAckLost) _ _ h1]
  · obtain ⟨w, hw⟩ := ackMbx_of_fresh (seq := seq) (taken := taken) (rc := rc) h
    rw [hw, raw_raiseMsix, raw_setRaw_key _ _ h2]

/-- An acknowledgement leaves the fields of MBX_IN_STATUS but ACK_LOST. -/
theorem fld_ackMbx_apart {g : RField} (seq taken rc : Nat) (h : FieldsApart fMbxInStatusAckLost g)
    (hk : regKey ⟨.mbxInAck, f, j⟩ ≠ regKey ⟨g.reg, f, j⟩) : (ackMbx s f j seq taken rc).fld g f j = s.fld g f j := by
  by_cases hl : s.fld fMbxInAckValid f j = 1
  · obtain ⟨w, hw⟩ := ackMbx_of_lost (seq := seq) (taken := taken) (rc := rc) hl
    rw [hw, fld_setRaw_key _ _ hk, fld_setFld_apart _ _ _ _ h]
  · obtain ⟨w, hw⟩ := ackMbx_of_fresh (seq := seq) (taken := taken) (rc := rc) hl
    rw [hw, fld_raiseMsix, fld_setRaw_key _ _ hk]

theorem fn_ackMbx (seq taken rc g : Nat) : (ackMbx s f j seq taken rc).fn g = s.fn g :=
  fn_congr (ackMbx_only s f j seq taken rc .functions (by decide)) g

/-- A function with the last taken word of a mailbox published. -/
def lastPublished (j : Nat) (x : FnState) : FnState :=
  { x with lastTaken := tabSet none x.lastTaken j ((tabGet none x.lastTaken j).map (fun l => { l with published := true })) }

theorem ackDone_eq (s : State) (f j seq taken rc : Nat) : ackDone s f j seq taken rc = ackMbx (s.modFn f (lastPublished j)) f j seq taken rc := rfl

theorem raw_ackDone_num {b : RegName} (seq taken rc : Nat) (h1 : RegName.mbxInStatus.num ≠ b.num) (h2 : RegName.mbxInAck.num ≠ b.num) :
    (ackDone s f j seq taken rc).raw ⟨b, f, j⟩ = s.raw ⟨b, f, j⟩ := by
  rw [ackDone_eq, raw_ackMbx_key _ _ _ (regKey_ne_of_num f j h1) (regKey_ne_of_num f j h2)]
  exact raw_congr rfl _

theorem ackDone_fn (seq taken rc : Nat) {g : Nat} (hg : g ≠ f) : (ackDone s f j seq taken rc).fn g = s.fn g := by
  rw [ackDone_eq, fn_ackMbx, modFn_fn, if_neg hg]

theorem outbox_ackDone (seq taken rc : Nat) : ((ackDone s f j seq taken rc).fn f).outbox = (s.fn f).outbox := by
  rw [ackDone_eq, fn_ackMbx, modFn_fn, if_pos rfl]
  rfl

theorem ackDone_only (s : State) (f j seq taken rc : Nat) : Only [.functions, .registers, .out] s (ackDone s f j seq taken rc) :=
  only_of_within (within_ackDone _ _ _ _ _ _ (Within.refl s) rfl)

/-- A function with an outbound word taken, and with an owed acknowledgement taken. -/
def dropWord (e : Nat × Word) (x : FnState) : FnState := { x with outbox := x.outbox.erase e }

def dropOwed (o : Owed) (x : FnState) : FnState := { x with owed := x.owed.erase o }

/-- The state with an outbound word posted, before its vector and its acknowledgement. -/
def wordPosted (s : State) (f j : Nat) (e : Nat × Word) : State :=
  ((s.modFn f (dropWord e)).setRaw ⟨.mbxOutWord, f, j⟩ e.2).setFld fMbxOutStatusFull f j 1

/-- The state with an outbound word posted, its acknowledgement aside. -/
def posted (s : State) (f j : Nat) (e : Nat × Word) : State := raiseMsix (wordPosted s f j e) f 0

theorem wordPosted_fn (s : State) (f j : Nat) (e : Nat × Word) (g : Nat) :
    (wordPosted s f j e).fn g = if g = f then dropWord e (s.fn g) else s.fn g := by
  rw [wordPosted, State.setFld, fn_setRaw, fn_setRaw, modFn_fn]

theorem posted_fn (s : State) (f j : Nat) (e : Nat × Word) (g : Nat) :
    (posted s f j e).fn g = if g = f then dropWord e (s.fn g) else s.fn g := by
  rw [posted, fn_raiseMsix, wordPosted_fn]

theorem raw_posted (s : State) (f j : Nat) (e : Nat × Word) : (posted s f j e).raw ⟨.mbxOutWord, f, j⟩ = e.2 := by
  rw [posted, raw_raiseMsix, wordPosted, raw_setFld_key _ _ (regKey_ne_of_num f j (by decide)), raw_setRaw_same]

theorem full_posted (s : State) (f j : Nat) (e : Nat × Word) : (posted s f j e).fld fMbxOutStatusFull f j = 1 := by
  rw [posted, fld_raiseMsix, wordPosted, fld_setFld_same _ _ _ _ _ (by decide) (by decide)]
  rfl

/-- Posting a word leaves every register but the outbound mailbox's word and status. -/
theorem raw_posted_key (s : State) (e : Nat × Word) {b : RegAt} (h1 : regKey ⟨.mbxOutWord, f, j⟩ ≠ regKey b)
    (h2 : regKey ⟨.mbxOutStatus, f, j⟩ ≠ regKey b) : (posted s f j e).raw b = s.raw b := by
  rw [posted, raw_raiseMsix, wordPosted, raw_setFld_key (f := fMbxOutStatusFull) _ _ h2, raw_setRaw_key _ _ h1]
  exact raw_congr rfl b

theorem msix_posted (s : State) (f j : Nat) (e : Nat × Word) :
    (posted s f j e).out.msix = s.out.msix ++ (if (s.fn f).busMaster then [(f, 0)] else []) := by
  rw [posted, msix_raiseMsix, wordPosted_fn, if_pos rfl]
  rfl

theorem posted_only (s : State) (f j : Nat) (e : Nat × Word) : Only [.functions, .registers, .out] s (posted s f j e) :=
  only_of_within (within_raiseMsix _ _ _ (within_setFld _ _ _ _ _ (within_setRaw _ _ _ (within_modFn _ _ _ (Within.refl s) rfl) rfl) rfl) rfl)

/-- A posted word without an acknowledgement that waits for it. -/
theorem postOut_free {e : Nat × Word} (hf : s.fld fMbxOutStatusFull f j = 0) (he : (s.fn f).outbox.find? (fun e => e.1 == j) = some e)
    (ho : (s.fn f).owed.find? (fun o => o.mbx == j && o.word == e.2) = none) : postOut s f j = posted s f j e := by
  have hp : ((posted s f j e).fn f).owed = (s.fn f).owed := by rw [posted_fn, if_pos rfl, dropWord]
  rw [← hp] at ho
  unfold postOut
  rw [if_neg (by rw [hf]; decide), he]
  change (match ((posted s f j e).fn f).owed.find? (fun o => o.mbx == j && o.word == e.2) with | some o => _ | none => _) = _
  rw [ho]
  rfl

/-- A posted word is followed by the acknowledgement that waits for it (R367). -/
theorem postOut_owed {e : Nat × Word} {o : Owed} (hf : s.fld fMbxOutStatusFull f j = 0) (he : (s.fn f).outbox.find? (fun e => e.1 == j) = some e)
    (ho : (s.fn f).owed.find? (fun o => o.mbx == j && o.word == e.2) = some o) :
    postOut s f j = ackDone ((posted s f j e).modFn f (dropOwed o)) f j o.seq o.taken o.rc := by
  have hp : ((posted s f j e).fn f).owed = (s.fn f).owed := by rw [posted_fn, if_pos rfl, dropWord]
  rw [← hp] at ho
  unfold postOut
  rw [if_neg (by rw [hf]; decide), he]
  change (match ((posted s f j e).fn f).owed.find? (fun o => o.mbx == j && o.word == e.2) with | some o => _ | none => _) = _
  rw [ho]
  rfl

/-- What posting a word leaves, in the registers of its mailbox. -/
theorem postOut_regs {w : Word} (hf : s.fld fMbxOutStatusFull f j = 0) (he : (s.fn f).outbox.find? (fun e => e.1 == j) = some (j, w)) :
    (postOut s f j).raw ⟨.mbxOutWord, f, j⟩ = w ∧ (postOut s f j).fld fMbxOutStatusFull f j = 1 ∧
      (∀ g, g ≠ f → (postOut s f j).fn g = s.fn g) ∧ ((postOut s f j).fn f).outbox = (s.fn f).outbox.erase (j, w) := by
  cases ho : (s.fn f).owed.find? (fun o => o.mbx == j && o.word == w) with
  | none =>
    rw [postOut_free hf he ho]
    exact ⟨raw_posted s f j _, full_posted s f j _, fun g hg => (posted_fn s f j _ g).trans (if_neg hg), by rw [posted_fn, if_pos rfl, dropWord]⟩
  | some o =>
    rw [postOut_owed hf he ho]
    have hk {b : RegName} (h1 : RegName.mbxInStatus.num ≠ b.num) (h2 : RegName.mbxInAck.num ≠ b.num) :
        (ackDone ((posted s f j (j, w)).modFn f (dropOwed o)) f j o.seq o.taken o.rc).raw ⟨b, f, j⟩ = (posted s f j (j, w)).raw ⟨b, f, j⟩ := by
      rw [raw_ackDone_num _ _ _ h1 h2]
      exact raw_congr rfl _
    refine ⟨(hk (by decide) (by decide)).trans (raw_posted s f j _), ?_, fun g hg => ?_, ?_⟩
    · exact (congrArg (fun w => getBits w _ _) (hk (by decide) (by decide))).trans (full_posted s f j (j, w))
    · rw [ackDone_fn _ _ _ hg, modFn_fn, if_neg hg, posted_fn, if_neg hg]
    · rw [outbox_ackDone, modFn_fn, if_pos rfl, posted_fn, if_pos rfl, dropOwed, dropWord]

theorem outPostOp_posts (hi : icvarRuns s = true) (hm : (s.fn f).mode ≠ .resetting) : outPostOp f j s = postOut s f j :=
  if_neg (by simp [hi, hm])

/-! ### Taken words -/

/-- What Icvar's taking of a word leaves (R340). -/
def wordTook (f j : Nat) (s : State) : State :=
  (s.setFld fMbxInStatusFull f j 0).setFld fMbxInStatusTaken f j ((s.fld fMbxInStatusTaken f j + 1) % 256)

/-- The state in which Icvar has taken a word. -/
def icvarTook (s : State) : State := { s with module := { s.module with icvarTakes := true } }

theorem takeWord_none (f j : Nat) (s : State) : takeWord f j none s = wordTook f j (icvarTook s) := rfl

theorem takeWord_some (f j : Nat) (v : Word) (s : State) : takeWord f j (some v) s =
    ((wordTook f j (icvarTook s)).setRaw ⟨.mbxInWord, f, j⟩ v).setFld fMbxInStatusFull f j 1 := rfl

theorem takeWord_only (f j : Nat) (deposit : Option Word) (s : State) : Only [.module, .registers] s (takeWord f j deposit s) :=
  only_of_within (within_takeWord _ _ _ _ (Within.refl s) rfl)

theorem module_takeWord (f j : Nat) (deposit : Option Word) (s : State) :
    (takeWord f j deposit s).module = { s.module with icvarTakes := true } := by
  cases deposit <;> rfl

theorem full_takeWord (f j : Nat) (deposit : Option Word) (s : State) :
    (takeWord f j deposit s).fld fMbxInStatusFull f j = if deposit.isSome then 1 else 0 := by
  cases deposit with
  | none =>
    rw [takeWord_none, wordTook, fld_setFld_apart _ _ _ _ (by decide), fld_setFld_same _ _ _ _ _ (by decide) (by decide)]
    rfl
  | some v =>
    rw [takeWord_some, fld_setFld_same _ _ _ _ _ (by decide) (by decide)]
    rfl

theorem taken_wordTook (f j : Nat) (s : State) : (wordTook f j s).fld fMbxInStatusTaken f j = (s.fld fMbxInStatusTaken f j + 1) % 256 := by
  rw [wordTook, fld_setFld_same _ _ _ _ _ (by decide) (by decide)]
  exact Nat.mod_mod _ _

theorem taken_takeWord (f j : Nat) (deposit : Option Word) (s : State) :
    (takeWord f j deposit s).fld fMbxInStatusTaken f j = (s.fld fMbxInStatusTaken f j + 1) % 256 := by
  cases deposit with
  | none => exact taken_wordTook f j (icvarTook s)
  | some v =>
    rw [takeWord_some, fld_setFld_apart _ _ _ _ (by decide), fld_setRaw_key _ _ (regKey_ne_of_num f j (by decide))]
    exact taken_wordTook f j (icvarTook s)

theorem word_takeWord (f j : Nat) (v : Word) (s : State) : (takeWord f j (some v) s).raw ⟨.mbxInWord, f, j⟩ = v := by
  rw [takeWord_some, raw_setFld_key _ _ (regKey_ne_of_num f j (by decide)), raw_setRaw_same]

/-- Taking a word writes no register but the inbound mailbox's word and status. -/
theorem raw_takeWord_none (s : State) {b : RegAt} (h : regKey ⟨.mbxInStatus, f, j⟩ ≠ regKey b) : (takeWord f j none s).raw b = s.raw b := by
  rw [takeWord_none, wordTook, raw_setFld_key (f := fMbxInStatusTaken) _ _ h, raw_setFld_key (f := fMbxInStatusFull) _ _ h]
  exact raw_congr rfl b

/-- The state that a taken word is executed in: what the host stored stands in its memory. -/
def takenIn (fn : Fn) (j : Fin 8) (host : List Cell) (deposit : Option Word) (hits : List Hit) (s : State) : State :=
  takeWord fn.val j.val deposit (hostStores (upsetWords s hits) host)

/-- What comes before Icvar's taking. -/
theorem arrived_only (host : List Cell) (hits : List Hit) (s : State) :
    Only [.memory, .hostMemory] s (hostStores (upsetWords s hits) host) :=
  (upsetWords_only s hits).trans (only_of_within (l := [.hostMemory]) (within_hostStores _ _ (Within.refl _) rfl)) (by decide) (by decide)

theorem mailboxTake_full {fn : Fn} {j : Fin 8} {w : Word} (host : List Cell) (readError : Bool) (deposit : Option Word) (hits : List Hit)
    (hi : icvarRuns s = true) (ha : answers s fn.val = true) (hf : s.fld fMbxInStatusFull fn.val j.val = 1)
    (hb : mbxBusy s fn.val j.val = false) (hw : s.raw ⟨.mbxInWord, fn.val, j.val⟩ = w) :
    exec (.mailboxTake fn j host readError deposit hits) s =
      .next (acceptWord fn.val j w true readError (takenIn fn j host deposit hits s)) := by
  have hu := upsetWords_only s hits
  have hm := hu .module (by decide)
  have hfn := hu .functions (by decide)
  have hr := hu .registers (by decide)
  refine next_congr ((mailboxTakeOp_full host readError deposit ((icvarRuns_congr hm).trans hi) ((answers_congr hm hfn _).trans ha)
    ((fld_congr hr _ _ _).trans hf) ((mbxBusy_congr hfn _ _).trans hb)).trans ?_)
  rw [raw_congr hr, hw]
  rfl

/-! ### PING -/

/-- The word of a PING, and its fields (R338). -/
def pingWord (seq : Byte) (arg : BitVec 48) : Word := BitVec.ofNat 64 (3 * 2 ^ 56 + seq.toNat * 2 ^ 48 + arg.toNat)

theorem toNat_pingWord (seq : Byte) (arg : BitVec 48) : (pingWord seq arg).toNat = 3 * 2 ^ 56 + seq.toNat * 2 ^ 48 + arg.toNat := by
  have := seq.isLt
  have := arg.isLt
  rw [pingWord, BitVec.toNat_ofNat]
  omega

theorem pingWord_fields (seq : Byte) (arg : BitVec 48) :
    wordOp (pingWord seq arg) = 3 ∧ wordSeq (pingWord seq arg) = seq ∧ wordArg (pingWord seq arg) = arg.toNat := by
  have := seq.isLt
  have := arg.isLt
  simp only [wordOp, wordSeq, wordArg, getBits, bitsOf, toNat_pingWord]
  refine ⟨by omega, BitVec.eq_of_toNat_eq ?_, by omega⟩
  rw [BitVec.toNat_ofNat]
  omega

/-- The command of a PING's word. -/
def pingCmd (f : Nat) (j : Fin 8) (seq : Byte) (arg : BitVec 48) (live : Bool) : Cmd :=
  { fn := f, via := .mbx j seq none, token := 0, op := 3, args := [BitVec.ofNat 64 arg.toNat], live := live }

theorem runWord_ping (f : Nat) (j : Fin 8) (seq : Byte) (arg : BitVec 48) (live readError : Bool) (s : State) :
    runWord f j (pingWord seq arg) live readError s = runCmd refusePing noReads effectPing (pingCmd f j seq arg live) s := by
  obtain ⟨hop, hseq, harg⟩ := pingWord_fields seq arg
  rw [runWord, hop, hseq, harg]
  rfl

/-- A module that is operational lets a PING through, where no context of its function replays. -/
theorem gateRc_ping (j : Fin 8) (seq : Byte) (arg : BitVec 48) (live : Bool) (hm : moduleState s = 1)
    (hr : keysWhere s.objs.ctxs (fun x => x.owner == f && x.replay.isSome) = []) : gateRc (pingCmd f j seq arg live) s = none := by
  have hm' : s.fld fFltStatusModuleState 0 0 = 1 := hm
  simp only [gateRc, pingCmd, hm', hr]
  cases live <;> rfl

/-- An accepted PING is answered at once with its argument. -/
theorem runCmd_ping (j : Fin 8) (seq : Byte) (arg : BitVec 48) (live : Bool) (hm : moduleState s = 1)
    (hr : keysWhere s.objs.ctxs (fun x => x.owner == f && x.replay.isSome) = []) :
    runCmd refusePing noReads effectPing (pingCmd f j seq arg live) s =
      answerNow (pingCmd f j seq arg live) s 0 (BitVec.ofNat 64 arg.toNat) 0 := by
  have hg := gateRc_ping (s := s) j seq arg live hm hr
  unfold runCmd
  rw [show checkIn (pingCmd f j seq arg live) s = s from rfl]
  dsimp only
  rw [hg]
  rfl

/-- A function with the answer of a mailbox's last word noted. -/
def lastAnswered (j : Nat) (rc : Nat) (reply : Option Word) (x : FnState) : FnState :=
  { x with lastTaken := tabSet none x.lastTaken j ((tabGet none x.lastTaken j).map (fun l => { l with rc := BitVec.ofNat 16 rc, reply := reply })) }

/-- A function with an outbound word queued, and with an acknowledgement that waits for one. -/
def queueWord (e : Nat × Word) (x : FnState) : FnState := { x with outbox := x.outbox ++ [e] }

def oweAck (o : Owed) (x : FnState) : FnState := { x with owed := x.owed ++ [o] }

/-- The answer of a PING: its reply word is queued, and its acknowledgement owed (R367). -/
def pingOwed (f : Nat) (j : Fin 8) (seq : Byte) (w : Word) (s : State) : State :=
  ((s.modFn f (lastAnswered j.val 0 (some w))).modFn f (queueWord (j.val, w))).modFn f
    (oweAck ⟨j.val, w, seq.toNat, s.fld fMbxInStatusTaken f j.val, 0⟩)

theorem answerNow_ping (j : Fin 8) (seq : Byte) (arg : BitVec 48) (live : Bool) (ho : (s.fn f).outbox = []) :
    answerNow (pingCmd f j seq arg live) s 0 (BitVec.ofNat 64 arg.toNat) 0 =
      postOut (pingOwed f j seq (pingWord seq arg) s) f j.val := by
  have := arg.isLt
  have hw : BitVec.ofNat 64 (3 * 2 ^ 56 + seq.toNat * 2 ^ 48 + (BitVec.ofNat 64 arg.toNat).toNat % 2 ^ 48) = pingWord seq arg := by
    rw [pingWord, BitVec.toNat_ofNat, Nat.mod_eq_of_lt (show arg.toNat < 2 ^ 64 by omega), Nat.mod_eq_of_lt this]
  have hlen : (((s.modFn f (lastAnswered j.val 0 (some (pingWord seq arg)))).fn f).outbox).length < 64 := by
    rw [modFn_fn, if_pos rfl, lastAnswered, ho]
    decide
  have h : answerNow (pingCmd f j seq arg live) s 0 (BitVec.ofNat 64 arg.toNat) 0 =
      ackWord (s.modFn f (lastAnswered j.val 0
        (some (BitVec.ofNat 64 (3 * 2 ^ 56 + seq.toNat * 2 ^ 48 + (BitVec.ofNat 64 arg.toNat).toNat % 2 ^ 48)))))
        f j.val seq.toNat (s.fld fMbxInStatusTaken f j.val) 0
        (some (BitVec.ofNat 64 (3 * 2 ^ 56 + seq.toNat * 2 ^ 48 + (BitVec.ofNat 64 arg.toNat).toNat % 2 ^ 48))) := rfl
  rw [h, hw, ackWord, if_pos hlen, queueOut, if_pos hlen]
  rfl

/-- A function with a word noted as the last one taken from a mailbox. -/
def noteTaken (j : Nat) (w : Word) (x : FnState) : FnState := { x with lastTaken := tabSet none x.lastTaken j (some ⟨w, 0, none, false⟩) }

/-- A word that repeats none, of a function whose contexts record nothing, is executed. -/
theorem acceptWord_first {j : Fin 8} {w : Word} (live readError : Bool) (hrec : recordingCtxs s f = [])
    (hl : ∀ l, tabGet none (s.fn f).lastTaken j.val = some l → l.word ≠ w) :
    acceptWord f j w live readError s = runWord f j w live readError (s.modFn f (noteTaken j.val w)) := by
  have hf : (tabGet none (s.fn f).lastTaken j.val).filter (fun l => l.word == w) = none :=
    Option.filter_eq_none_iff.2 fun l h => by simpa using hl l h
  unfold acceptWord
  dsimp only
  rw [hrec]
  change (match (tabGet none (s.fn f).lastTaken j.val).filter (fun l => l.word == w) with | some l => _ | none => _) = _
  rw [hf]
  rfl

/-- A taken PING that finds room is posted back, and acknowledged (R342, R367). -/
theorem accept_ping {j : Fin 8} {seq : Byte} {arg : BitVec 48} (live readError : Bool) (hrec : recordingCtxs s f = [])
    (hl : ∀ l, tabGet none (s.fn f).lastTaken j.val = some l → l.word ≠ pingWord seq arg) (hm : moduleState s = 1)
    (hr : keysWhere s.objs.ctxs (fun x => x.owner == f && x.replay.isSome) = []) (ho : (s.fn f).outbox = []) :
    acceptWord f j (pingWord seq arg) live readError s =
      postOut (pingOwed f j seq (pingWord seq arg) (s.modFn f (noteTaken j.val (pingWord seq arg)))) f j.val := by
  rw [acceptWord_first live readError hrec hl, runWord_ping,
    runCmd_ping (s := s.modFn f (noteTaken j.val (pingWord seq arg))) j seq arg live hm hr, answerNow_ping]
  rw [modFn_fn, if_pos rfl]
  exact ho

theorem pingOwed_fn {j : Fin 8} {seq : Byte} {w : Word} (ho : (s.fn f).outbox = []) (hw : (s.fn f).owed = []) :
    ((pingOwed f j seq w s).fn f).outbox = [(j.val, w)] ∧
      ((pingOwed f j seq w s).fn f).owed = [⟨j.val, w, seq.toNat, s.fld fMbxInStatusTaken f j.val, 0⟩] := by
  rw [pingOwed, modFn_fn, if_pos rfl, modFn_fn, if_pos rfl, modFn_fn, if_pos rfl]
  simp only [oweAck, queueWord, lastAnswered, ho, hw, List.nil_append, and_self]

theorem raw_pingOwed (j : Fin 8) (seq : Byte) (w : Word) (s : State) (a : RegAt) : (pingOwed f j seq w s).raw a = s.raw a := raw_congr rfl a

theorem fld_modFn (s : State) (k : Nat) (v : FnState → FnState) (g : RField) (i j : Nat) : (s.modFn k v).fld g i j = s.fld g i j := rfl

theorem inStatus_posted (s : State) (e : Nat × Word) {g : RField} (hg : g.reg = .mbxInStatus) : (posted s f j e).fld g f j = s.fld g f j := by
  rw [State.fld, State.fld, hg, raw_posted_key _ _ (regKey_ne_of_num f j (by decide)) (regKey_ne_of_num f j (by decide))]

/-- What a posted PING leaves in the registers of its mailbox. -/
theorem pingPosted_regs {j : Fin 8} {seq : Byte} {w : Word} (ho : (s.fn f).outbox = []) (hw : (s.fn f).owed = [])
    (hf : s.fld fMbxOutStatusFull f j.val = 0) :
    let t := postOut (pingOwed f j seq w s) f j.val
    t.raw ⟨.mbxOutWord, f, j.val⟩ = w ∧ t.fld fMbxOutStatusFull f j.val = 1 ∧
      t.fld fMbxInStatusFull f j.val = s.fld fMbxInStatusFull f j.val ∧ t.fld fMbxInStatusTaken f j.val = s.fld fMbxInStatusTaken f j.val ∧
      t.raw ⟨.mbxInAck, f, j.val⟩ = BitVec.ofNat 64 (2 ^ 63 + s.fld fMbxInStatusTaken f j.val % 256 * 2 ^ 40 + seq.toNat * 2 ^ 32) := by
  obtain ⟨hout, howed⟩ := pingOwed_fn (j := j) (seq := seq) (w := w) ho hw
  have hreg (g : RField) : (pingOwed f j seq w s).fld g f j.val = s.fld g f j.val := fld_congr rfl g f j.val
  have hfull : (pingOwed f j seq w s).fld fMbxOutStatusFull f j.val = 0 := (hreg _).trans hf
  have hfind : ((pingOwed f j seq w s).fn f).outbox.find? (fun e => e.1 == j.val) = some (j.val, w) := by
    rw [hout, List.find?_cons_of_pos (by simp)]
  have hown : ((pingOwed f j seq w s).fn f).owed.find? (fun o => o.mbx == j.val && o.word == w) =
      some ⟨j.val, w, seq.toNat, s.fld fMbxInStatusTaken f j.val, 0⟩ := by
    rw [howed, List.find?_cons_of_pos (by simp)]
  obtain ⟨h1, h2, _⟩ := postOut_regs hfull hfind
  intro t
  have hin (g : RField) (hg : FieldsApart fMbxInStatusAckLost g) (hr : g.reg = .mbxInStatus) : t.fld g f j.val = s.fld g f j.val := by
    have ht : t = _ := postOut_owed hfull hfind hown
    have hk : regKey ⟨.mbxInAck, f, j.val⟩ ≠ regKey ⟨g.reg, f, j.val⟩ := hr ▸ regKey_ne_of_num f j.val (by decide)
    rw [ht, ackDone_eq, fld_ackMbx_apart _ _ _ hg hk, fld_modFn, fld_modFn, inStatus_posted _ _ hr, hreg]
  refine ⟨h1, h2, hin _ (by decide) rfl, hin _ (by decide) rfl, ?_⟩
  have ht : t = _ := postOut_owed hfull hfind hown
  rw [ht, ackDone_eq, raw_ackMbx]
  dsimp only
  rw [Nat.mod_eq_of_lt seq.isLt, Nat.zero_mod, Nat.add_zero]

/-! ### Acknowledged words -/

theorem regKey_mbx_ne_fltStatus {a : RegName} (fn : Fn) (j : Fin 8) (h : a.num ≠ RegName.fltStatus.num) :
    regKey ⟨a, fn.val, j.val⟩ ≠ regKey ⟨.fltStatus, 0, 0⟩ := fun hk => by
  have := fn.isLt
  have := j.isLt
  exact h (regKey_inj ⟨by simp only; omega, by simp only; omega⟩ ⟨by decide, by decide⟩ hk).1

/-- A write to MBX_OUT_ACK. -/
def outAcked (f j : Nat) (lanes : Lanes) (value : Word) (s : State) : State :=
  s.setRaw ⟨.mbxOutAck, f, j⟩ (laneMix (s.raw ⟨.mbxOutAck, f, j⟩) value lanes)

theorem outAckOp_eq (lanes : Lanes) (value : Word) (ha : answers s f = true) : outAckOp f j lanes value s =
    (if lanes = .low then outAcked f j lanes value s
     else if (outAcked f j lanes value s).fld fMbxOutStatusFull f j = 1 then (outAcked f j lanes value s).setFld fMbxOutStatusFull f j 0
     else (outAcked f j lanes value s).setFld fMbxOutStatusAckStray f j 1) := if_neg (by simp [ha])

theorem fld_outAcked (lanes : Lanes) (value : Word) (g : RField) (hg : g.reg = .mbxOutStatus) :
    (outAcked f j lanes value s).fld g f j = s.fld g f j := by
  rw [outAcked, fld_setRaw_key]
  rw [hg]
  exact regKey_ne_of_num f j (by decide)

/-- What a write to MBX_OUT_ACK leaves (R342). -/
theorem outAckOp_regs (lanes : Lanes) (value : Word) (ha : answers s f = true) :
    (outAckOp f j lanes value s).raw ⟨.mbxOutAck, f, j⟩ = laneMix (s.raw ⟨.mbxOutAck, f, j⟩) value lanes ∧
      (lanes = .low → (outAckOp f j lanes value s).raw ⟨.mbxOutStatus, f, j⟩ = s.raw ⟨.mbxOutStatus, f, j⟩) ∧
      (lanes ≠ .low → (outAckOp f j lanes value s).fld fMbxOutStatusFull f j = 0 ∧
        (s.fld fMbxOutStatusFull f j = 0 → (outAckOp f j lanes value s).fld fMbxOutStatusAckStray f j = 1)) := by
  rw [outAckOp_eq lanes value ha]
  have hword : (outAcked f j lanes value s).raw ⟨.mbxOutAck, f, j⟩ = laneMix (s.raw ⟨.mbxOutAck, f, j⟩) value lanes :=
    raw_setRaw_same s _ _
  have hbit : s.fld fMbxOutStatusFull f j < 2 := fld_lt s fMbxOutStatusFull f j
  by_cases hl : lanes = .low
  · rw [if_pos hl]
    exact ⟨hword, fun _ => raw_setRaw_key s _ (regKey_ne_of_num f j (by decide)), fun h => absurd hl h⟩
  · rw [if_neg hl, fld_outAcked _ _ _ rfl]
    by_cases hf : s.fld fMbxOutStatusFull f j = 1
    · rw [if_pos hf, raw_setFld_key _ _ (regKey_ne_of_num f j (by decide)), fld_setFld_same _ _ _ _ _ (by decide) (by decide)]
      exact ⟨hword, fun h => absurd h hl, fun _ => ⟨rfl, fun h => absurd (h.symm.trans hf) (by decide)⟩⟩
    · rw [if_neg hf, raw_setFld_key _ _ (regKey_ne_of_num f j (by decide)), fld_setFld_same _ _ _ _ _ (by decide) (by decide),
        fld_setFld_apart _ _ _ _ (by decide), fld_outAcked _ _ _ rfl]
      exact ⟨hword, fun h => absurd h hl, fun _ => ⟨by omega, fun _ => rfl⟩⟩

/-- Settles O24: a taken word runs, a PING is answered with its word, words are posted, and an acknowledgement empties a mailbox. -/
theorem mailboxes : Obligations.Mailboxes := by
  refine ⟨fun fn j host re deposit hits s hi ha hf hb => ?_, fun fn j host re hits seq arg s => ?_, fun fn j s w hi hm hf he => ?_,
    fun fn j lanes value s ha => ?_⟩
  · have harr := arrived_only host hits s
    refine ⟨takenIn fn j host deposit hits s, mailboxTake_full host re deposit hits hi ha hf hb rfl, full_takeWord _ _ _ _, fun v hv => ?_, ?_, ?_,
      harr.trans (takeWord_only _ _ _ _) (by decide) (by decide)⟩
    · subst hv
      exact word_takeWord _ _ _ _
    · exact (taken_takeWord _ _ _ _).trans (by rw [fld_congr (harr .registers (by decide))])
    · exact (module_takeWord _ _ _ _).trans (by rw [show (hostStores (upsetWords s hits) host).module = s.module from harr .module (by decide)])
  · intro w hi ha hf hb hw hrec hl ho how hfull hm hr
    have harr := arrived_only host hits s
    have hall : Only [.module, .registers, .memory, .hostMemory] s (takenIn fn j host none hits s) :=
      harr.trans (takeWord_only _ _ _ _) (by decide) (by decide)
    have hfn : (takenIn fn j host none hits s).fn = s.fn := funext (fn_congr (hall .functions (by decide)))
    have hobj : (takenIn fn j host none hits s).objs.ctxs = s.objs.ctxs := hall .ctxs (by decide)
    have hraw {b : RegAt} (h : regKey ⟨.mbxInStatus, fn.val, j.val⟩ ≠ regKey b) : (takenIn fn j host none hits s).raw b = s.raw b :=
      (raw_takeWord_none _ h).trans (raw_congr (harr .registers (by decide)) b)
    have hacc := accept_ping (s := takenIn fn j host none hits s) (f := fn.val) (j := j) (seq := seq) (arg := arg) true re
      (by rw [recordingCtxs, hobj]; exact hrec) (by rw [hfn]; exact hl)
      ((congrArg (fun w => getBits w _ _) (hraw (regKey_mbx_ne_fltStatus fn j (by decide)))).trans hm) (by rw [hobj]; exact hr)
      (by rw [hfn]; exact ho)
    have hnoted : ∀ g, ((takenIn fn j host none hits s).modFn fn.val (noteTaken j.val (pingWord seq arg))).fld g fn.val j.val =
      (takenIn fn j host none hits s).fld g fn.val j.val := fun g => fld_congr rfl g _ _
    obtain ⟨h1, h2, h3, h4, h5⟩ := pingPosted_regs (s := (takenIn fn j host none hits s).modFn fn.val (noteTaken j.val (pingWord seq arg)))
      (f := fn.val) (j := j) (seq := seq) (w := pingWord seq arg) (by rw [modFn_fn, if_pos rfl, hfn]; exact ho)
      (by rw [modFn_fn, if_pos rfl, hfn]; exact how)
      ((hnoted _).trans ((congrArg (fun w => getBits w _ _) (hraw (regKey_ne_of_num fn.val j.val (by decide)))).trans hfull))
    have htaken : (takenIn fn j host none hits s).fld fMbxInStatusTaken fn.val j.val = (s.fld fMbxInStatusTaken fn.val j.val + 1) % 256 :=
      (taken_takeWord _ _ _ _).trans (by rw [fld_congr (harr .registers (by decide))])
    refine ⟨_, (mailboxTake_full host re none hits hi ha hf hb hw).trans (next_congr hacc), ?_, ?_, h1, h2, ?_⟩
    · rw [h3, hnoted]
      exact full_takeWord _ _ none _
    · rw [h4, hnoted, htaken]
    · rw [h5, hnoted, htaken, Nat.mod_mod]
  · obtain ⟨h1, h2, h3, h4⟩ := postOut_regs hf he
    refine ⟨_, next_congr (outPostOp_posts hi hm), h1, h2, h3, h4, fun o ho => ?_, fun ho => ?_,
      only_of_within (within_postOut _ _ _ (Within.refl s) rfl)⟩
    · rw [postOut_owed hf he ho, ackDone_eq, raw_ackMbx]
    · rw [postOut_free hf he ho]
      exact ⟨(posted_fn s fn.val j.val _ fn.val).trans (if_pos rfl), msix_posted s fn.val j.val _⟩
  · obtain ⟨h1, h2, h3⟩ := outAckOp_regs (s := s) (f := fn.val) (j := j.val) lanes value ha
    exact ⟨_, rfl, h1, h2, h3, only_of_within (within_outAckOp _ _ _ _ _ (Within.refl s) rfl)⟩

end Sys2Proof.Machine
end

section
/-! DOORBELL, QUEUE_FETCH, CQ_RELEASE and QUEUE_DRAIN_END (R263, R267, R344 to R347, R352, R353, R355, R364, R377). -/

namespace Sys2Proof.Machine

variable {s t : State} {f q : Nat}

/-! ### Doorbells -/

/-- A write of one aligned doorbell rings that doorbell with its eight bytes. -/
theorem doorbellsOf_one (q : Nat) {data : List Byte} (h : data.length = 8) : doorbellsOf (8 * q) data = [(q, leNat data, true)] := by
  obtain ⟨b0, b1, b2, b3, b4, b5, b6, b7, rfl⟩ : ∃ b0 b1 b2 b3 b4 b5 b6 b7, data = [b0, b1, b2, b3, b4, b5, b6, b7] := by
    match data, h with
    | [b0, b1, b2, b3, b4, b5, b6, b7], _ => exact ⟨b0, b1, b2, b3, b4, b5, b6, b7, rfl⟩
  have hdiv : 8 * q / 8 = q := Nat.mul_div_cancel_left q (by decide)
  have hlast : (8 * q + 8 - 1) / 8 = q := by omega
  have hspan : spanOf q (q + 1 - q) = [q] := by
    rw [show q + 1 - q = 1 by omega]
    rfl
  unfold doorbellsOf
  simp only [List.isEmpty_cons, Bool.false_eq_true, if_false, List.length_cons, List.length_nil, hdiv, Nat.reduceAdd, hlast, hspan,
    List.map_cons, List.map_nil, upTo, List.range, List.range.loop]
  simp [leNat]

theorem ringDoorbell {fn : Fn} {off : Nat} {data : List Byte} {d : Nat × Nat × Bool} (ha : answers s fn.val = true) (hd : doorbellsOf off data = [d]) :
    exec (.doorbell fn off data) s = .next (ringOne fn.val d.1 d.2.1 d.2.2 true s) := by
  refine next_congr ((if_neg (by simp [ha])).trans ?_)
  rw [hd]
  rfl

/-- The queue with the tail that a doorbell sets. -/
def tailSet (s : State) (q value : Nat) : State := s.modQueue q (fun x => { x with tail := bitsOf value 31 0 })

theorem tailSet_frame (s : State) (q value : Nat) : (tailSet s q value).queue q = { s.queue q with tail := bitsOf value 31 0 } ∧
    (∀ k, k ≠ q → (tailSet s q value).queue k = s.queue k) ∧ Only [.queues] s (tailSet s q value) := setQueue_frame s q _

theorem recordInput_of_none {c : Nat} (h : (s.ctx c).log = none) (kind source addr : Nat) (data : List Byte) (tally : Nat) :
    recordInput s c kind source addr data tally = s := by
  unfold recordInput
  rw [h]

theorem ringOne_reject {value : Nat} {whole : Bool} {c : RField} (live : Bool) (h : doorbellReject s f q value whole = some c) :
    ringOne f q value whole live s = s.bump c 0 0 1 := by
  unfold ringOne
  rw [h]

theorem ringOne_dropped {value c : Nat} {whole : Bool} (h : doorbellReject s f q value whole = none) (hc : (s.queue q).ctx = some c)
    (hr : isReplaying s c = true) : ringOne f q value whole true s = dropLive s c := by
  unfold ringOne
  simp only [h, hc, hr, Bool.and_self, if_true]

/-- An accepted doorbell, whose context does not replay, is recorded and sets the tail. -/
theorem ringOne_set {value : Nat} {whole : Bool} (h : doorbellReject s f q value whole = none)
    (hr : ∀ k, (s.queue q).ctx = some k → isReplaying s k = false) : ∃ u, ringOne f q value whole true s = tailSet u q value ∧
      ((∀ k, (s.queue q).ctx = some k → (s.ctx k).log = none) → u = s) ∧ Only (readAreas ++ [.ctxs]) s u := by
  cases hc : (s.queue q).ctx with
  | none =>
    refine ⟨s, ?_, fun _ => rfl, Only.refl _ s⟩
    unfold ringOne
    simp only [h, hc]
    rfl
  | some c =>
    refine ⟨recordInput s c 2 q value [] 0xFFFFFFFF, ?_, fun hl => recordInput_of_none (hl c rfl) _ _ _ _ _,
      only_of_within (within_recordInput _ _ _ _ _ _ _ (Within.refl s) rfl)⟩
    unfold ringOne
    simp only [h, hc, hr c hc, Bool.and_false, Bool.false_eq_true, if_false]
    rfl

/-! ### Fetches -/

theorem readArg_readMem (s : State) (a n : Nat) (w : Word) (off k : Nat) : readArg (readMem s a n).1 w off k = readArg s w off k :=
  readArg_of_bytes (bytes_readMem s a n) ((within_readMem s a n (Within.refl s) (Sub.refl _)).same .hostMemory (by decide)) w off k

theorem worstOf_isSome {l : List (Nat × Bool)} (h : l ≠ []) : ∃ p, worstOf l = some p := by
  cases l with
  | nil => exact absurd rfl h
  | cons e l => exact ⟨_, rfl⟩

/-- What a fetch does with the descriptor that it has read. -/
def fetchGoes (q : QueueId) (x : Queue) (w : Word) (s : State) : State :=
  let b := readArg s w 0 (64 * entryStep x.kind)
  if x.kind = 0 then runEntry q x.consumed b (takeEntry s q.val b) else takeEntry s q.val b

/-- What a failed fetch from device memory does: the queue enters ERROR and its context faults (R347). -/
def fetchFails (s : State) (q : Nat) (x : Queue) (w : Word) (cause : Nat) (poison : Bool) : State :=
  match x.ctx with
  | some c => ctxFault (fetchError s q cause) c cause (addrSec (argAddr w)) 0 poison
  | none => fetchError s q cause

/-- The state after a host read that failed: the poison that it may have brought is counted, and a cause is drawn. -/
def fetchDrawn (s : State) (x : Queue) : Word × State := (if (s.fn x.fn).busMaster then hostReadFailed s else s).freeDraw

/-- What a fetch does with the descriptor of `n` bytes at `w` (R347). -/
def fetchOutcome (q : QueueId) (x : Queue) (w : Word) (n : Nat) (readError : Bool) (m : State) : State :=
  if isHostAddr w then
    if !(m.fn x.fn).busMaster || readError then fetchError (fetchDrawn m x).2 q.val ((fetchDrawn m x).1.toNat % 256)
    else fetchGoes q x w m
  else if !argOk m x.fn (argAddr w) n false then fetchFails m q.val x w 0x0E false
  else match worstOf (readMem m (argAddr w) n).2 with
    | none => fetchGoes q x w (readMem m (argAddr w) n).1
    | some poison => fetchFails (readMem m (argAddr w) n).1 q.val x w 6 poison

theorem queueFetchOp_eq (q : QueueId) (host : List Cell) (readError : Bool) (s : State) (hf : fetches (hostStores s host) q.val = true) :
    let m := hostStores s host
    let x := m.queue q.val
    queueFetchOp q host readError s = fetchOutcome q x (entryAddr x x.consumed) (64 * entryStep x.kind) readError m := by
  intro m x
  unfold queueFetchOp
  simp only [hf, Bool.not_true, Bool.false_eq_true, if_false]
  rfl

theorem takeEntry_frame (s : State) (q : Nat) (b : List Byte) :
    (takeEntry s q b).queue q = { s.queue q with
      consumed := ((s.queue q).consumed + entryStep (s.queue q).kind) % 2 ^ 32, entries := (s.queue q).entries ++ [⟨(s.queue q).consumed, b, .waiting⟩] } ∧
      (∀ k, k ≠ q → (takeEntry s q b).queue k = s.queue k) ∧ Only [.queues] s (takeEntry s q b) := setQueue_frame s q _

/-- A fetch that delivers its descriptor takes it in after the reading, of which only the outcomes remain. -/
theorem fetch_delivers {q : QueueId} {m : State} {x : Queue} {w : Word} {n : Nat} {readError : Bool}
    (h : (isHostAddr w = true ∧ (m.fn x.fn).busMaster = true ∧ readError = false) ∨
      (isHostAddr w = false ∧ argOk m x.fn (argAddr w) n false = true ∧ (readMem m (argAddr w) n).2 = [])) :
    ∃ v, fetchOutcome q x w n readError m = fetchGoes q x w v ∧ (∀ off k, readArg v w off k = readArg m w off k) ∧ Only readAreas m v := by
  rcases h with ⟨hw, hb, hr⟩ | ⟨hw, ha, hbad⟩
  · refine ⟨m, ?_, fun _ _ => rfl, Only.refl _ m⟩
    rw [fetchOutcome, if_pos hw, if_neg (by simp [hb, hr])]
  · refine ⟨(readMem m (argAddr w) n).1, ?_, readArg_readMem _ _ _ _, only_of_within (within_readMem _ _ _ (Within.refl m) rfl)⟩
    rw [fetchOutcome, if_neg (by simp [hw]), if_neg (by simp [ha]), hbad]
    rfl

/-! ### Failed fetches -/

/-- A queue that has failed a fetch is in ERROR at the descriptor that it could not read; no other queue changed. -/
theorem fetchError_frame (s : State) (q cause : Nat) : ((fetchError s q cause).queue q).mode = .error ∧
    ((fetchError s q cause).queue q).consumed = (s.queue q).consumed ∧ ∀ k, k ≠ q → (fetchError s q cause).queue k = s.queue k := by
  unfold fetchError flushQueue
  dsimp only
  generalize engineRecord 0 1 cause _ _ = r
  generalize ((s.setQueue q _).queue q).entries.length = n
  obtain ⟨es, p, h⟩ := flushRecords_queue (s.setQueue q { s.queue q with mode := .error, entries := (s.queue q).entries ++ [⟨(s.queue q).consumed, [], .finished r⟩] }) q n
  rw [h, queue_setQueue]
  exact ⟨rfl, rfl, fun k hk => (flushRecords_queue_ne _ q n hk).trans (queue_setQueue_ne _ _ (Ne.symm hk))⟩

theorem ctx_fetchError (s : State) (q cause k : Nat) : (fetchError s q cause).ctx k = s.ctx k :=
  ctx_same ((within_fetchError s q cause (Within.refl s) (Sub.refl _)).same .ctxs (by decide)) k

/-- Queue `q`, where it is not ENABLED, is as it was. -/
def QueueKept (q : Nat) (s t : State) : Prop := (s.queue q).mode ≠ .enabled → t.queue q = s.queue q

theorem QueueKept.refl (q : Nat) (s : State) : QueueKept q s s := fun _ => rfl

theorem QueueKept.trans {u : State} (h : QueueKept q s t) (g : QueueKept q t u) : QueueKept q s u := fun hm =>
  (g (by rw [h hm]; exact hm)).trans (h hm)

theorem QueueKept.of_same (h : Area.queues.same s t) : QueueKept q s t := fun _ => queue_same h q

theorem queueKept_ite {c : Prop} [Decidable c] {t u : State} (h : QueueKept q s t) (g : QueueKept q s u) : QueueKept q s (if c then t else u) := by
  split <;> assumption

theorem queueKept_forEach {α : Type} (l : List α) {g : α → State → State} (hg : ∀ a t, QueueKept q t (g a t)) (s : State) :
    QueueKept q s (forEach l s g) := by
  induction l generalizing s with
  | nil => exact QueueKept.refl q s
  | cons a l ih => exact (hg a s).trans (ih (g a s))

theorem queueKept_stopQueue (s : State) (k : Nat) (h : Bool) : QueueKept q s (stopQueue s k h) := fun hm => by
  by_cases he : (s.queue k).mode = .enabled
  · exact (stopQueue_queue s k h he).2 q (fun e => hm (e ▸ he))
  · rw [stopQueue_of_not_enabled he]

theorem queueKept_stopWork (s : State) (c : Nat) : QueueKept q s (stopWork s c) :=
  have h : Within 6293512 s (markStopped (stopCtxSlots s c) (fun l => l.ctx == c)) :=
    within_markStopped _ _ (within_stopCtxSlots s c (Within.refl s) rfl) rfl
  (QueueKept.of_same (h.same .queues (by decide))).trans (queueKept_forEach _ (fun k t => queueKept_stopQueue t k true) _)

theorem atStop_queues (s : State) (c : Nat) (abort : Bool) : Area.queues.same s (atStop s c abort) := by
  have h : Area.queues.same s (abandonTallies s c) := (within_abandonTallies s c (Within.refl s) (Sub.refl _)).same .queues (by decide)
  unfold atStop
  split
  · split
    · exact Area.same_trans h ((within_sendAbort _ _ _ (Within.refl _) (Sub.refl _)).same .queues (by decide))
    · exact h
  · exact h

theorem queueKept_stopContext (s : State) (c cause : Nat) (abort : Bool) : QueueKept q s (stopContext s c cause abort) := by
  by_cases ha : (s.ctx c).mode = .active
  · rw [stopContext_eq s c cause abort ha]
    refine QueueKept.trans ?_ (queueKept_stopWork _ c)
    exact .of_same (atStop_queues s c abort)
  · rw [stopContext, if_pos (by simpa using ha)]
    exact QueueKept.refl q s

theorem queueKept_abortCtx (s : State) (c epoch : Nat) (abort : Bool) : QueueKept q s (abortCtx s c epoch abort) :=
  queueKept_ite (QueueKept.refl q s) (.trans (.of_same ((within_postAborted s c epoch (Within.refl s) (Sub.refl _)).same .queues (by decide)))
    (queueKept_stopContext _ _ _ _))

theorem queueKept_fenceModule (s : State) (reason : Nat) : QueueKept q s (fenceModule s reason) := by
  unfold fenceModule
  dsimp only
  refine queueKept_ite (QueueKept.refl q s) (QueueKept.trans ?_ (.of_same ((within_postTo _ _ _ _ (Within.refl _) (Sub.refl _)).same .queues (by decide))))
  refine QueueKept.trans (QueueKept.trans ?_ (queueKept_forEach _ (g := fun p t => enterReset t p .blocked)
    (fun p t => .of_same ((within_enterReset t p .blocked (Within.refl t) (Sub.refl _)).same .queues (by decide))) _)) (.of_same rfl)
  exact queueKept_forEach _ (fun _ _ => queueKept_abortCtx _ _ _ _) s

theorem queueKept_escalateCtx (s : State) : QueueKept q s (escalateCtx s) := by
  unfold escalateCtx
  dsimp only
  have h (l : List Nat) : QueueKept q s { s with care := { s.care with hardFaults := l } } := .of_same rfl
  exact queueKept_ite ((h _).trans (queueKept_fenceModule _ _)) (h _)

theorem queueKept_ctxFault (s : State) (c cause sec unit : Nat) (poison : Bool) : QueueKept q s (ctxFault s c cause sec unit poison) := by
  by_cases ha : (s.ctx c).mode = .active
  · have h : QueueKept q s (stopContext (atFault s c cause sec unit poison) c cause true) :=
      (QueueKept.of_same ((within_atFault s c cause sec unit poison).same .queues (by decide))).trans (queueKept_stopContext _ c cause true)
    rw [ctxFault_eq s c cause sec unit poison ha]
    exact queueKept_ite (h.trans (queueKept_escalateCtx _)) h
  · rw [ctxFault_of_ended s cause sec unit poison ha]
    exact QueueKept.refl q s

/-- A fetch that fails from device memory: its queue in ERROR where it stood, its context faulted. -/
theorem fetchFails_frame (s : State) (q : Nat) (x : Queue) (w : Word) (cause : Nat) (poison : Bool) :
    ((fetchFails s q x w cause poison).queue q).mode = .error ∧ ((fetchFails s q x w cause poison).queue q).consumed = (s.queue q).consumed ∧
      (x.ctx = none → ∀ k, k ≠ q → (fetchFails s q x w cause poison).queue k = s.queue k) ∧
      (∀ c, x.ctx = some c → (s.ctx c).mode = .active → Faulted (fetchFails s q x w cause poison) c cause) := by
  obtain ⟨hm, hc, ho⟩ := fetchError_frame s q cause
  unfold fetchFails
  cases hx : x.ctx with
  | none => exact ⟨hm, hc, fun _ => ho, (fun c h => nomatch h)⟩
  | some c =>
    have hk := queueKept_ctxFault (q := q) (fetchError s q cause) c cause (addrSec (argAddr w)) 0 poison (by rw [hm]; decide)
    refine ⟨by rw [hk]; exact hm, by rw [hk]; exact hc, (fun h => nomatch h), fun k hck ha => ?_⟩
    cases hck
    exact faulted_ctxFault _ _ _ _ _ _ (by rw [ctx_fetchError]; exact ha)

theorem fetchDrawn_queue (s : State) (x : Queue) (k : Nat) : (fetchDrawn s x).2.queue k = s.queue k := by
  unfold fetchDrawn
  rw [freeDraw_queue]
  split
  · exact queue_same ((within_hostReadFailed s (Within.refl s) (Sub.refl _)).same .queues (by decide)) k
  · rfl

/-- A fetch that cannot deliver its descriptor (R347). -/
theorem fetch_fails {q : QueueId} {m : State} {x : Queue} {w : Word} {n : Nat} {readError : Bool}
    (h : (isHostAddr w = true ∧ ((m.fn x.fn).busMaster = false ∨ readError = true)) ∨
      (isHostAddr w = false ∧ (argOk m x.fn (argAddr w) n false = false ∨ (readMem m (argAddr w) n).2 ≠ []))) :
    let t := fetchOutcome q x w n readError m
    (t.queue q.val).mode = .error ∧ (t.queue q.val).consumed = (m.queue q.val).consumed ∧
      (x.ctx = none ∨ isHostAddr w = true → ∀ k, k ≠ q.val → t.queue k = m.queue k) ∧
      (∀ c, x.ctx = some c → isHostAddr w = false → (m.ctx c).mode = .active →
        Faulted t c (if argOk m x.fn (argAddr w) n false then 6 else 0x0E)) := by
  intro t
  rcases h with ⟨hw, hb⟩ | ⟨hw, ha⟩
  · have ht : t = fetchError (fetchDrawn m x).2 q.val ((fetchDrawn m x).1.toNat % 256) :=
      (if_pos hw).trans (if_pos (by rcases hb with hb | hb <;> simp [hb]))
    obtain ⟨hm, hc, ho⟩ := fetchError_frame (fetchDrawn m x).2 q.val ((fetchDrawn m x).1.toNat % 256)
    rw [ht]
    exact ⟨hm, by rw [hc, fetchDrawn_queue], fun _ k hk => by rw [ho k hk, fetchDrawn_queue], fun _ _ h => absurd (hw.symm.trans h) (by decide)⟩
  · have hn : ¬ isHostAddr w = true := by simp [hw]
    cases hok : argOk m x.fn (argAddr w) n false with
    | false =>
      have ht : t = fetchFails m q.val x w 0x0E false := (if_neg hn).trans (if_pos (by simp [hok]))
      obtain ⟨h1, h2, h3, h4⟩ := fetchFails_frame m q.val x w 0x0E false
      rw [ht]
      exact ⟨h1, h2, fun h => h3 (h.resolve_right hn), fun c hc _ hact => h4 c hc hact⟩
    | true =>
      obtain ⟨poison, hp⟩ := worstOf_isSome (ha.resolve_left (by simp [hok]))
      have ht : t = fetchFails (readMem m (argAddr w) n).1 q.val x w 6 poison :=
        (if_neg hn).trans ((if_neg (by simp [hok])).trans (by rw [hp]))
      obtain ⟨h1, h2, h3, h4⟩ := fetchFails_frame (readMem m (argAddr w) n).1 q.val x w 6 poison
      have hr := within_readMem m (argAddr w) n (Within.refl m) (Sub.refl _)
      have hq (k : Nat) := queue_same (hr.same .queues (by decide)) k
      have hctx (k : Nat) := ctx_same (hr.same .ctxs (by decide)) k
      rw [ht]
      exact ⟨h1, h2.trans (by rw [hq]), fun h k hk => (h3 (h.resolve_right hn) k hk).trans (hq k),
        fun c hc _ hact => h4 c hc (by rw [hctx]; exact hact)⟩

/-! ### Released records -/

/-- What is written apart from some bytes of a place leaves them. -/
theorem readArg_writeArg_apart {w : Word} {n off off' : Nat} {l : List Byte} (h : off + n ≤ off' ∨ off' + l.length ≤ off) :
    readArg (writeArg s f w off' l) w off n = readArg s w off n := by
  unfold readArg writeArg
  cases hw : isHostAddr w
  · simp only [Bool.false_eq_true, if_false]
    split
    · refine List.map_congr_left fun i hi => ?_
      have hi := List.mem_range.1 hi
      exact (storedAt_storeBytes s (argAddr w + off') l).2.1 _ (by omega)
    · rfl
  · simp only [if_true]
    split
    · refine List.map_congr_left fun i hi => ?_
      have hi := List.mem_range.1 hi
      simp only [hostByte, writeHost, tabGet_putBytes]
      rw [if_neg (by omega)]
    · rfl

/-- A released slot of a completion ring takes the unready pattern. -/
def unreadySlot (x : Queue) (w : Word) (i : Nat) (t : State) : State := writeArg t x.fn w (32 * ((x.released + i) % x.m)) unready

/-- The state with the slots that a release frees made unready. -/
def releasedSlots (s : State) (x : Queue) (n : Nat) : State :=
  match x.cq with
  | some w => forEach (upTo (min n x.m)) s (unreadySlot x w)
  | none => s

theorem within_releasedSlots (s : State) (x : Queue) (n : Nat) : Within 134222072 s (releasedSlots s x n) := by
  unfold releasedSlots
  split
  · exact within_forEach (Within.refl s) fun _ _ h => within_writeArg _ _ _ _ _ h rfl
  · exact Within.refl s

theorem rests_unreadySlots (x : Queue) (w : Word) (l : List Nat) (s : State) : Rests s (forEach l s (unreadySlot x w)) :=
  rests_forEach l _ (fun t _ => rests_writeArg t _ _ _ _) s

/-- Two slots of a ring that stand less than a lap apart are different ones. -/
theorem slot_ne {a i j m : Nat} (hij : i < j) (hj : j < m) : (a + i) % m ≠ (a + j) % m := fun h => by
  have hm : 0 < m := by omega
  have : (a + i) ≡ (a + j) [MOD m] := h
  have hd := (Nat.modEq_iff_dvd' (by omega)).1 this
  rw [show a + j - (a + i) = j - i by omega] at hd
  exact absurd (Nat.le_of_dvd (by omega) hd) (by omega)

/-- Every slot of the ring that is freed reads unready, by induction on their number. -/
theorem readArg_unreadySlots {x : Queue} {w : Word} (hh : isHostAddr w = true → (s.fn x.fn).busMaster = true)
    (hd : isHostAddr w = false → ∀ k, k < x.m → argOk s x.fn (argAddr w + 32 * k) 32 true = true) :
    ∀ k, k ≤ x.m → ∀ i, i < k → readArg (forEach (upTo k) s (unreadySlot x w)) w (32 * ((x.released + i) % x.m)) 32 = unready
  | 0, _, i, hi => absurd hi (Nat.not_lt_zero i)
  | k + 1, hk, i, hi => by
    have hstep : forEach (upTo (k + 1)) s (unreadySlot x w) = unreadySlot x w k (forEach (upTo k) s (unreadySlot x w)) := by
      rw [upTo, List.range_succ, forEach, List.foldl_append]
      rfl
    rw [hstep]
    have hr := rests_unreadySlots x w (upTo k) s
    have hw : Within 134222072 s (forEach (upTo k) s (unreadySlot x w)) :=
      within_forEach (Within.refl s) fun _ _ h => within_writeArg _ _ _ _ _ h rfl
    have ih := readArg_unreadySlots hh hd k (by omega)
    generalize forEach (upTo k) s (unreadySlot x w) = t at *
    have hlen : unready.length = 32 := rfl
    have hmod : (x.released + k) % x.m < x.m := Nat.mod_lt _ (by omega)
    rcases Nat.lt_or_eq_of_le (Nat.le_of_lt_succ hi) with hik | rfl
    · have := slot_ne (a := x.released) hik (show k < x.m by omega)
      rw [unreadySlot, readArg_writeArg_apart (by rw [hlen]; omega)]
      exact ih i hik
    · refine readArg_writeArg (fun hw' => ?_) (fun hw' => ?_)
      · exact (hr.fn_get FnState.busMaster (fun _ => rfl) _).trans (hh hw')
      · rw [hlen, argOk_congr hr (hw.same .regions (by decide)) (hw.same .ctxs (by decide))]
        exact hd hw' _ hmod

/-- The queue whose records are released. -/
def slotsReleased (s : State) (q value : Nat) : State := s.modQueue q (fun y => { y with released := value })

/-- A release that frees no more than what was produced (R352, R353). -/
theorem cqReleaseOp_eq {j value : Nat} (ha : answers s f = true) (hq : slotQueue s f j = some q) (hv : value < 2 ^ 32)
    (hn : (value + 2 ^ 32 - (s.queue q).released) % 2 ^ 32 ≤ ((s.queue q).produced + 2 ^ 32 - (s.queue q).released) % 2 ^ 32) :
    cqReleaseOp f j value s =
      flushQueue (slotsReleased (releasedSlots s (s.queue q) ((value + 2 ^ 32 - (s.queue q).released) % 2 ^ 32)) q value) q := by
  unfold cqReleaseOp
  simp only [ha, hq, Nat.mod_eq_of_lt hv, Bool.not_true, Bool.false_eq_true, if_false, Nat.not_lt.2 hn]
  rfl

theorem slotsReleased_frame (s : State) (q value : Nat) : (slotsReleased s q value).queue q = { s.queue q with released := value } ∧
    (∀ k, k ≠ q → (slotsReleased s q value).queue k = s.queue k) ∧ Only [.queues] s (slotsReleased s q value) := setQueue_frame s q _

/-- A queue without entries writes no record. -/
theorem flushQueue_empty (h : (s.queue q).entries = []) : flushQueue s q = s := by
  rw [flushQueue, h]
  rfl

theorem released_flushQueue (s : State) (q : Nat) : ((flushQueue s q).queue q).released = (s.queue q).released ∧
    ∀ k, k ≠ q → (flushQueue s q).queue k = s.queue k := by
  obtain ⟨es, p, h⟩ := flushRecords_queue s q (s.queue q).entries.length
  exact ⟨by rw [flushQueue, h], fun k hk => flushRecords_queue_ne s q _ hk⟩

/-! ### The end of a drain -/

/-- The state in which a drain looks whether its queue is empty: its engines have stopped, and its records are written. -/
def drainFlushed (s : State) (q : Nat) : State := flushQueue (stopJobs s (fun j => j.queue == q)) q

/-- The queue whose drain has ended. -/
def drainEnded (s : State) (q : Nat) : State := s.setQueue q { s.queue q with mode := .disabled, draining := false }

theorem queueDrainEndOp_eq (h : (s.queue q).mode = .draining) : queueDrainEndOp q s =
    if !((drainFlushed s q).queue q).entries.isEmpty then drainFlushed s q
    else settle (closeQueue (drainEnded (drainFlushed s q) q) q) := by
  unfold queueDrainEndOp
  simp only [h, bne_self_eq_false, Bool.false_eq_true, if_false]
  rfl

theorem closeQueue_free (h : heldBy s (fun k => k == .cmdqClose q) = false) : closeQueue s q = s := by
  unfold closeQueue
  simp only [h, Bool.false_eq_true, if_false]

theorem forEach_empty {α : Type} {l : List α} (h : l = []) (g : α → State → State) (s : State) : forEach l s g = s := by
  rw [h]
  rfl

/-- Stopping jobs stops nothing where no engine holds one of them. -/
theorem stopJobs_none {g : Job → Bool} (h : ∀ e ∈ s.work.engines, ∀ j ∈ engineJobs e.2, g j = false) : stopJobs s g = s := by
  have h1 : s.work.engines.filter (fun e => e.2.ending.any g) = [] := by
    refine List.filter_eq_nil_iff.2 fun e he => ?_
    simp only [List.any_eq_true, not_exists, not_and]
    exact fun j hj => by simp [h e he j (List.mem_append_left _ hj)]
  unfold stopJobs
  rw [h1]
  refine forEach_empty (List.filter_eq_nil_iff.2 fun e he => ?_) _ s
  cases hj : e.2.job with
  | none => exact Bool.false_ne_true
  | some j => simp [h e he j (List.mem_append_right _ (by simp [hj]))]

/-- Settles O25: doorbells, fetches, releases and the ends of drains. -/
theorem queueWork : Obligations.QueueWork := by
  refine ⟨fun fn q data s hlen ha hd hr => ?_, fun fn q data s c hlen ha hd hc hr => ?_, fun fn off data q v whole s c ha hd hr => ?_,
    fun fn off data s h => ?_, fun q host hits re s => ?_, fun q host hits re s => ?_, fun fn slot value s q ha hq => ?_,
    fun fn slot value s h => ?_, fun q s hm => ?_, fun q s hm he hj hh => ?_⟩
  · obtain ⟨u, hu, hsame, honly⟩ := ringOne_set (f := fn.val) (q := q) hd hr
    have hq (k : Nat) : u.queue k = s.queue k := queue_same (honly .queues (by decide)) k
    obtain ⟨h1, h2, h3⟩ := tailSet_frame u q (leNat data)
    refine ⟨_, (ringDoorbell ha (doorbellsOf_one q hlen)).trans (next_congr hu), h1.trans (by rw [hq]), fun k hk => (h2 k hk).trans (hq k),
      fun hl => ?_, honly.trans h3 (by decide) (by decide)⟩
    rw [hsame hl]
    exact (tailSet_frame s q (leNat data)).2.2
  · exact (ringDoorbell ha (doorbellsOf_one q hlen)).trans (next_congr (ringOne_dropped hd hc hr))
  · exact (ringDoorbell ha hd).trans (next_congr (ringOne_reject true hr))
  · refine next_congr ?_
    rcases h with h | h
    · exact if_pos (by simp [h])
    · subst h
      exact ite_self _
  · intro m x w n hf hok
    have hop : exec (.queueFetch q host re hits) s = .next (fetchOutcome q x w n re m) := next_congr (queueFetchOp_eq q host re _ hf)
    obtain ⟨v, hv, hread, honly⟩ := fetch_delivers (q := q) (n := n) hok
    have hq (k : Nat) : v.queue k = m.queue k := queue_same (honly .queues (by decide)) k
    obtain ⟨h1, h2, h3⟩ := takeEntry_frame v q.val (readArg v w 0 n)
    have hall : Only (readAreas ++ [.queues]) m (takeEntry v q.val (readArg v w 0 n)) := honly.trans h3 (by decide) (by decide)
    rw [hq q.val, hread] at h1
    rw [hread] at h2 hall
    have hgo : fetchGoes q x w v = if x.kind = 0 then runEntry q x.consumed (readArg m w 0 n) (takeEntry v q.val (readArg m w 0 n))
      else takeEntry v q.val (readArg m w 0 n) := by
      rw [← hread]
      rfl
    exact ⟨fun hk => ⟨_, hop.trans (next_congr (hv.trans (hgo.trans (if_neg hk)))), h1, fun k hkq => (h2 k hkq).trans (hq k), hall⟩,
      fun hk => ⟨_, hop.trans (next_congr (hv.trans (hgo.trans (if_pos hk)))), h1, fun k hkq => (h2 k hkq).trans (hq k), hall⟩⟩
  · intro m x w n hf hbad
    have hop : exec (.queueFetch q host re hits) s = .next (fetchOutcome q x w n re m) := next_congr (queueFetchOp_eq q host re _ hf)
    exact ⟨_, hop, fetch_fails hbad⟩
  · intro x n
    have hlt := value.isLt
    refine ⟨fun hn => ?_, fun hn => ?_⟩
    · refine next_congr ((if_neg (by simp [ha])).trans ?_)
      rw [hq]
      exact if_pos (by rwa [Nat.mod_eq_of_lt hlt])
    · have hw := within_releasedSlots s x n
      have hqs (k : Nat) : (releasedSlots s x n).queue k = s.queue k := queue_same (hw.same .queues (by decide)) k
      obtain ⟨h1, h2, h3⟩ := slotsReleased_frame (releasedSlots s x n) q value.toNat
      obtain ⟨h4, h5⟩ := released_flushQueue (slotsReleased (releasedSlots s x n) q value.toNat) q
      have hop := cqReleaseOp_eq ha hq hlt hn
      refine ⟨_, next_congr hop, by rw [h4, h1], fun k hk => ((h5 k hk).trans (h2 k hk)).trans (hqs k), fun he => ?_,
        by rw [← hop]; exact only_of_within (within_cqReleaseOp _ _ _ _ (Within.refl s) rfl)⟩
      have he' : ((slotsReleased (releasedSlots s x n) q value.toNat).queue q).entries = [] := by
        rw [h1, hqs]
        exact he
      rw [flushQueue_empty he']
      refine ⟨h1.trans (by rw [hqs]), fun w i hcq hi him hh hd => ?_⟩
      rw [readArg_congr (h3 .memory (by decide)) (h3 .hostMemory (by decide))]
      have hslots : releasedSlots s x n = forEach (upTo (min n x.m)) s (unreadySlot x w) := by
        unfold releasedSlots
        rw [hcq]
      rw [hslots]
      exact readArg_unreadySlots hh hd (min n x.m) (Nat.min_le_right _ _) i (Nat.lt_min.2 ⟨hi, him⟩)
  · refine next_congr ?_
    rcases h with h | h
    · exact if_pos (by simp [h])
    · unfold cqReleaseOp
      rw [h]
      exact ite_self _
  · intro m x
    have hop : exec (.queueDrainEnd q) s = .next _ := next_congr (queueDrainEndOp_eq hm)
    have hc : (!((drainFlushed s q.val).queue q.val).entries.isEmpty) = true ↔ x.entries ≠ [] := by
      change (!x.entries.isEmpty) = true ↔ x.entries ≠ []
      cases x.entries <;> simp
    refine ⟨fun he => hop.trans (next_congr (if_pos (hc.2 he))), fun he hh => hop.trans (next_congr ((if_neg fun h => hc.1 h he).trans ?_)),
      fun he _ => hop.trans (next_congr (if_neg fun h => hc.1 h he))⟩
    exact congrArg settle (closeQueue_free (s := drainEnded (drainFlushed s q.val) q.val) hh)
  · have hflush : drainFlushed s q.val = s := by
      rw [drainFlushed, stopJobs_none fun e hm j hje => by simpa using hj e hm j hje, flushQueue_empty he]
    refine next_congr ((queueDrainEndOp_eq hm).trans ?_)
    rw [hflush, if_neg (by simp [he]), closeQueue_free (s := drainEnded s q.val) hh]
    rfl

end Sys2Proof.Machine
end

section
/-! BAR2_READ and BAR2_WRITE (R45, R56, R251, R263, R267, R335, R337, R358). -/

namespace Sys2Proof.Machine

variable {s : State} {f off len a : Nat}

/-! ### Refused accesses -/

theorem bar2Refuse_only (s : State) (f off : Nat) (write : Bool) : Only [.registers] s (bar2Refuse s f off write) :=
  only_of_within (within_bar2Refuse s f off write (Within.refl s) rfl)

theorem raw_bar2Refuse (s : State) (f off : Nat) (write : Bool) : (bar2Refuse s f off write).raw ⟨.hifBar2Last, 0, 0⟩ =
    BitVec.ofNat 64 (2 ^ 63 + f * 2 ^ 57 + toBit write * 2 ^ 56 + off % 2 ^ 41) := raw_setRaw_same _ _ _

theorem raw_bar2Refuse_read (s : State) (f off : Nat) :
    (bar2Refuse s f off false).raw ⟨.hifBar2Last, 0, 0⟩ = BitVec.ofNat 64 (2 ^ 63 + f * 2 ^ 57 + off % 2 ^ 41) := by
  rw [raw_bar2Refuse, show toBit false = 0 from rfl, Nat.zero_mul, Nat.add_zero]

theorem raw_bar2Refuse_write (s : State) (f off : Nat) :
    (bar2Refuse s f off true).raw ⟨.hifBar2Last, 0, 0⟩ = BitVec.ofNat 64 (2 ^ 63 + f * 2 ^ 57 + 2 ^ 56 + off % 2 ^ 41) := by
  rw [raw_bar2Refuse, show toBit true = 1 from rfl, Nat.one_mul]

theorem counted_bar2Refuse (s : State) (f off : Nat) (write : Bool) : Counted s (bar2Refuse s f off write) fHifBar2RefuseRefused 0 0 1 := by
  rw [Counted, bar2Refuse, fld_setRaw_key _ _ (by decide), fld_bump_same s _ 0 0 1 (by decide) (by decide)]

theorem bar2Out_only (s : State) (b : List Byte) (ep ur : Bool) : Only [.out] s (bar2Out s b ep ur) :=
  only_of_within (within_bar2Out s b ep ur (Within.refl s) rfl)

theorem registers_bar2Out (s : State) (b : List Byte) (ep ur : Bool) : Area.registers.same s (bar2Out s b ep ur) :=
  bar2Out_only s b ep ur .registers (by decide)

theorem bar2ReadOp_refused (ha : answers s f = true) (h : ∀ a, bar2Addr s f off len = some a → bar2Ok s f a len false = false) :
    bar2ReadOp f off len s = bar2Out (bar2Refuse s f off false) (List.replicate len 0xFF) false false := by
  unfold bar2ReadOp
  rw [if_neg (by simp [ha])]
  cases hb : bar2Addr s f off len with
  | none => rfl
  | some a => exact if_pos (by simp [h a hb])

theorem bar2WriteOp_refused {data : List Byte} (ha : answers s f = true)
    (h : ∀ a, bar2Addr s f off data.length = some a → bar2Ok s f a data.length true = false) :
    bar2WriteOp f off data s = bar2Refuse s f off true := by
  unfold bar2WriteOp
  rw [if_neg (by simp [ha])]
  cases hb : bar2Addr s f off data.length with
  | none => rfl
  | some a => exact if_pos (by simp [h a hb])

/-- A read of a function that does not answer: it is counted where the configuration space is ready (R337, R444). -/
def unanswered (s : State) : State := if running s && s.module.cfgReady then s.bump fHifPcieErrUrSent 0 0 1 else s

theorem unanswered_only (s : State) : Only [.registers] s (unanswered s) := by
  unfold unanswered
  split
  · exact only_of_within (within_bump _ _ _ _ _ (Within.refl s) rfl)
  · exact Only.refl _ s

theorem bar2ReadOp_unanswered (ha : answers s f = false) : bar2ReadOp f off len s = bar2Out (unanswered s) [] false true :=
  if_pos (by simp [ha])

/-! ### Allowed accesses -/

theorem bar2ReadOp_waits (ha : answers s f = true) (hb : bar2Addr s f off len = some a) (hk : bar2Ok s f a len false = true)
    (hp : portWaits s f a = true) : bar2ReadOp f off len s = portPut s ⟨f, off, len, none⟩ := by
  unfold bar2ReadOp
  rw [if_neg (by simp [ha]), hb]
  dsimp only
  rw [if_neg (by simp [hk]), if_pos hp]

/-- The byte that a read hands back, all ones in a word that cannot be delivered. -/
def bar2Byte (s : State) (bad : List (Nat × Bool)) (a i : Nat) : Byte :=
  if bad.any (fun e => e.1 == (a + i) / 16 * 16) then 0xFF else (readBytes s (a + i) 1).getD 0 0

/-- The state of an allowed read before its answer: a poisoned one is counted (R358). -/
def bar2Counted (s : State) (bad : List (Nat × Bool)) : State := if bad.isEmpty then s else s.bump fHifBar2RefusePoisonedReads 0 0 1

theorem bar2Counted_only (s : State) (bad : List (Nat × Bool)) : Only [.registers] s (bar2Counted s bad) := by
  unfold bar2Counted
  split
  · exact Only.refl _ s
  · exact only_of_within (within_bump _ _ _ _ _ (Within.refl s) rfl)

theorem bar2ReadOp_gives (ha : answers s f = true) (hb : bar2Addr s f off len = some a) (hk : bar2Ok s f a len false = true)
    (hp : portWaits s f a = false) : bar2ReadOp f off len s =
      bar2Out (bar2Counted (readMem s a len).1 (readMem s a len).2) ((upTo len).map (bar2Byte (readMem s a len).1 (readMem s a len).2 a))
        (!(readMem s a len).2.isEmpty) false := by
  unfold bar2ReadOp
  rw [if_neg (by simp [ha]), hb]
  dsimp only
  rw [if_neg (by simp [hk]), if_neg (by simp [hp])]
  rfl

theorem memByte_readMem (s : State) (a n k : Nat) : memByte (readMem s a n).1 k = memByte s k := by
  rw [memByte, bytes_readMem]
  rfl

theorem bar2Byte_readMem (s : State) (n : Nat) (bad : List (Nat × Bool)) (a i : Nat) : bar2Byte (readMem s a n).1 bad a i =
    if bad.any (fun e => e.1 == (a + i) / 16 * 16) then 0xFF else memByte s (a + i) := by
  have h : (readBytes (readMem s a n).1 (a + i) 1).getD 0 0 = memByte (readMem s a n).1 (a + i) := rfl
  rw [bar2Byte, h, memByte_readMem]

theorem getD_upTo_map (g : Nat → Byte) {n i : Nat} (h : i < n) : ((upTo n).map g).getD i 0 = g i := by
  simp [upTo, h]

/-- An answer leaves memory as the read found it. -/
theorem sameBytes_bar2Read (s : State) (a n : Nat) (b : List Byte) (ep : Bool) :
    SameBytes s (bar2Out (bar2Counted (readMem s a n).1 (readMem s a n).2) b ep false) := by
  have h : Only [.registers, .out] (readMem s a n).1 (bar2Out (bar2Counted (readMem s a n).1 (readMem s a n).2) b ep false) :=
    (bar2Counted_only _ _).trans (bar2Out_only _ _ _ _) (by decide) (by decide)
  intro k
  refine ⟨?_, ?_⟩
  · rw [memByte, bytes_of_memory (h .memory (by decide)), bytes_readMem]
    rfl
  · have hh : (readMem s a n).1.hostMem = s.hostMem := (within_readMem s a n (Within.refl s) (Sub.refl _)).same .hostMemory (by decide)
    simp only [hostByte, show _ = (readMem s a n).1.hostMem from h .hostMemory (by decide), hh]

theorem bar2WriteOp_dropped {data : List Byte} {c : Nat} {l : List Nat} (ha : answers s f = true) (hb : bar2Addr s f off data.length = some a)
    (hk : bar2Ok s f a data.length true = true) (hc : (ctxsAt s f a data.length).filter (isReplaying s) = c :: l) :
    bar2WriteOp f off data s = dropLive s c := by
  unfold bar2WriteOp
  rw [if_neg (by simp [ha]), hb]
  dsimp only
  rw [if_neg (by simp [hk]), hc]

/-- An allowed write is recorded for every context whose regions it meets (R263). -/
def bar2Recorded (s : State) (f a : Nat) (data : List Byte) : State :=
  forEach (ctxsAt s f a data.length) s (fun c t => recordInput t c 3 f a data 0xFFFFFFFF)

theorem bar2WriteOp_lands {data : List Byte} (ha : answers s f = true) (hb : bar2Addr s f off data.length = some a)
    (hk : bar2Ok s f a data.length true = true) (hc : (ctxsAt s f a data.length).filter (isReplaying s) = []) :
    bar2WriteOp f off data s =
      if portWaits s f a then portPut s ⟨f, off, data.length, some data⟩ else storeBytes (bar2Recorded s f a data) a data := by
  unfold bar2WriteOp
  rw [if_neg (by simp [ha]), hb]
  dsimp only
  rw [if_neg (by simp [hk]), hc]
  rfl

/-- Contexts that do not record leave the state of a write as it is. -/
theorem forEach_fix {α : Type} {l : List α} {g : α → State → State} (h : ∀ x ∈ l, g x s = s) : forEach l s g = s := by
  induction l with
  | nil => rfl
  | cons x l ih =>
    rw [forEach, List.foldl_cons, h x List.mem_cons_self]
    exact ih fun y hy => h y (List.mem_cons_of_mem _ hy)

theorem bar2Written_only (s : State) (f a : Nat) (data : List Byte) :
    Only (readAreas ++ [.ctxs]) s (storeBytes (bar2Recorded s f a data) a data) :=
  only_of_within (within_storeBytes _ _ _ (within_forEach (Within.refl s) fun _ _ h => within_recordInput _ _ _ _ _ _ _ h rfl) rfl)

/-- Settles O26: allowed reads and writes of the host, those that wait in the port, and those that are refused. -/
theorem hostWindow : Obligations.HostWindow := by
  refine ⟨fun fn off len hits s a => ?_, fun fn off data hits s a => ?_, fun fn off len hits s a => ?_, fun fn off len hits s => ?_,
    fun fn off data hits s => ?_, fun fn off len data hits s ha => ⟨?_, next_congr (if_pos (by simp [ha]))⟩⟩
  · intro m bad ha hb hk hp
    refine ⟨_, next_congr (bar2ReadOp_gives ha hb hk hp), rfl, rfl, by simp [bar2Out, upTo], fun i hi => ?_, fun hbad => ?_,
      sameBytes_bar2Read m a len _ _, ?_⟩
    · exact (getD_upTo_map _ hi).trans (bar2Byte_readMem m len bad a i)
    · refine List.map_congr_left fun i _ => (bar2Byte_readMem m len _ a i).trans ?_
      rw [show (readMem m a len).2 = [] from hbad]
      rfl
    · exact ((only_of_within (within_readMem m a len (Within.refl m) rfl) : Only readAreas m _).trans
        ((bar2Counted_only _ _).trans (bar2Out_only _ _ _ _) (n := readAreas ++ [.out]) (by decide) (by decide)) (by decide) (by decide))
  · intro m cs ha hb hk
    refine ⟨fun c l hc => next_congr (bar2WriteOp_dropped ha hb hk hc), fun hc hp => ?_, fun hc hp =>
      next_congr ((bar2WriteOp_lands ha hb hk hc).trans (if_pos hp))⟩
    refine ⟨_, next_congr ((bar2WriteOp_lands ha hb hk hc).trans (if_neg (by simp [hp]))), (storedAt_storeBytes _ a data).1, fun hl => ?_,
      bar2Written_only m fn.val a data⟩
    have hrec : bar2Recorded m fn.val a data = m := forEach_fix fun k hk => recordInput_of_none (hl k hk) _ _ _ _ _
    rw [hrec]
    exact storedAt_storeBytes m a data
  · intro m ha hb hk hp
    exact next_congr (bar2ReadOp_waits ha hb hk hp)
  · intro m ha h
    refine ⟨_, next_congr (bar2ReadOp_refused ha h), rfl, rfl, rfl, ?_, (counted_bar2Refuse m fn.val off false).after (registers_bar2Out _ _ _ _),
      (bar2Refuse_only _ _ _ _).trans (bar2Out_only _ _ _ _) (by decide) (by decide)⟩
    rw [raw_congr (registers_bar2Out _ _ _ _), raw_bar2Refuse_read]
  · intro m ha h
    refine ⟨_, next_congr (bar2WriteOp_refused ha h), ?_, counted_bar2Refuse m fn.val off true, bar2Refuse_only _ _ _ _⟩
    rw [raw_bar2Refuse_write]
  · exact ⟨_, next_congr (bar2ReadOp_unanswered ha), rfl, rfl, (unanswered_only _).trans (bar2Out_only _ _ _ _) (by decide) (by decide)⟩

end Sys2Proof.Machine
end

section
/-! LAUNCH and LAUNCH_PUBLISH (R244, R379, R399, R402, R416, R437). -/

namespace Sys2Proof.Machine

variable {s t : State}

/-! ### Records of inputs -/

theorem rests_bump (s : State) (f : RField) (i j n : Nat) : Rests s (s.bump f i j n) :=
  Within.rests (within_bump _ _ _ _ _ (Within.refl s) (Sub.refl _))
theorem rests_modCtx (s : State) (c : Nat) (g : Ctx → Ctx) : Rests s (s.modCtx c g) :=
  Within.rests (within_modCtx _ _ _ (Within.refl s) (Sub.refl _))
theorem rests_appendLog (s : State) (c : Nat) (g : Log) (kind source addr len : Nat) (crc : Word32) (tally : Nat) (data : List Byte) :
    Rests s (appendLog s c g kind source addr len crc tally data) := by
  unfold appendLog
  dsimp only
  split
  · exact (rests_modCtx s c _).trans (rests_bump _ _ _ _ _)
  · exact (rests_storeBytes s _ _).trans (rests_modCtx _ _ _)

theorem rests_recordInput (s : State) (c kind source addr : Nat) (data : List Byte) (tally : Nat) :
    Rests s (recordInput s c kind source addr data tally) := by
  unfold recordInput
  split
  · exact rests_ite (Rests.refl s) (rests_appendLog _ _ _ _ _ _ _ _ _ _)
  · exact Rests.refl s

/-- A record of an input leaves every context but its own. -/
theorem ctx_appendLog (s : State) (c : Nat) (g : Log) (kind source addr len : Nat) (crc : Word32) (tally : Nat) (data : List Byte) {k : Nat}
    (hk : k ≠ c) : (appendLog s c g kind source addr len crc tally data).ctx k = s.ctx k := by
  unfold appendLog
  dsimp only
  split
  · exact ctx_setCtx_ne _ _ hk.symm
  · rw [State.modCtx, ctx_setCtx_ne _ _ hk.symm, ctx_same ((within_storeBytes _ _ _ (Within.refl s) (Sub.refl _)).same .ctxs (by decide))]

theorem ctx_recordInput (s : State) (c kind source addr : Nat) (data : List Byte) (tally : Nat) {k : Nat} (hk : k ≠ c) :
    (recordInput s c kind source addr data tally).ctx k = s.ctx k := by
  unfold recordInput
  split
  · split
    · rfl
    · exact ctx_appendLog _ _ _ _ _ _ _ _ _ _ hk
  · rfl

/-! ### The parts of a launch -/

/-- The launch recorded, slot by slot, where its context records (R263). -/
def launchRecorded (s : State) (k : Nat) (l : List (Nat × Nat)) : State :=
  forEach l s (fun e t => recordInput t k 5 (8 * e.1 + e.2) 0 [] 0xFFFFFFFF)

theorem launchRecorded_only (s : State) (k : Nat) (l : List (Nat × Nat)) : Only (readAreas ++ [.ctxs]) s (launchRecorded s k l) :=
  only_of_within (within_forEach (Within.refl s) fun _ _ h => within_recordInput _ _ _ _ _ _ _ h rfl)

theorem rests_launchRecorded (s : State) (k : Nat) (l : List (Nat × Nat)) : Rests s (launchRecorded s k l) :=
  rests_forEach l _ (fun _ _ => rests_recordInput _ _ _ _ _ _ _) s

theorem launchRecorded_of_none {k : Nat} (h : (s.ctx k).log = none) (l : List (Nat × Nat)) : launchRecorded s k l = s :=
  forEach_fix fun _ _ => recordInput_of_none h _ _ _ _ _

theorem ctx_launchRecorded (s : State) {k j : Nat} (hj : j ≠ k) (l : List (Nat × Nat)) : (launchRecorded s k l).ctx j = s.ctx j :=
  forEach_keeps (π := fun t => t.ctx j) (fun _ _ t => ctx_recordInput t k _ _ _ _ _ hj) s

/-- A slot as a launch starts it. -/
def slotStarted (fill : Bool) (order : Nat) (x : Slot) : Slot :=
  { x with launched := decide (0 < x.count), next := 0, signalled := [], fillProgram := fill, order := order }

theorem slotStarted_eq {fill : Bool} {o : Nat} {x y : Slot} (h : y = slotStarted fill o x) :
    y = { x with launched := decide (0 < x.count), next := 0, signalled := [], fillProgram := fill, order := y.order } := by
  rw [h]
  rfl

/-- One listed slot started. -/
def startOne (winter fill : Bool) (base : Nat) (e : (Nat × Nat) × Nat) (t : State) : State :=
  t.modSlot e.1.1 e.1.2 (slotStarted fill (base + (if winter then e.2 else 0)))

/-- The listed slots started; the number of the next launch. -/
def slotsStarted (s : State) (l : List (Nat × Nat)) (winter fill : Bool) : State :=
  forEach l.zipIdx s (startOne winter fill s.host.launchOrder)

def orderNoted (s : State) (base n : Nat) : State := { s with host := { s.host with launchOrder := base + max 1 n } }

theorem startSlots_eq (s : State) (l : List (Nat × Nat)) (winter fill : Bool) :
    startSlots s l winter fill = orderNoted (slotsStarted s l winter fill) s.host.launchOrder l.length := rfl

theorem startOne_slot (winter fill : Bool) (base : Nat) (e : (Nat × Nat) × Nat) (he : e.1.2 < 8) (t : State) {k i : Nat} (hi : i < 8) :
    (startOne winter fill base e t).slot k i =
      if (k, i) = e.1 then slotStarted fill (base + (if winter then e.2 else 0)) (t.slot k i) else t.slot k i := by
  unfold startOne State.modSlot
  by_cases h : (k, i) = e.1
  · rw [if_pos h, ← h, slot_setSlot]
  · rw [if_neg h]
    exact slot_setSlot_ne t _ he hi h

/-- A listed slot is started in some order; a slot that is not listed is as it was. -/
theorem startList_slot (winter fill : Bool) (base : Nat) (l : List ((Nat × Nat) × Nat)) (hl : ∀ e ∈ l, e.1.2 < 8) {k i : Nat} (hi : i < 8)
    (t : State) : ((k, i) ∉ l.map (·.1) → (forEach l t (startOne winter fill base)).slot k i = t.slot k i) ∧
      ((k, i) ∈ l.map (·.1) → ∃ o, (forEach l t (startOne winter fill base)).slot k i = slotStarted fill o (t.slot k i)) := by
  induction l generalizing t with
  | nil => exact ⟨fun _ => rfl, fun h => nomatch h⟩
  | cons e l ih =>
    have hstep := startOne_slot winter fill base e (hl e List.mem_cons_self) t (k := k) hi
    obtain ⟨ih1, ih2⟩ := ih (fun x hx => hl x (List.mem_cons_of_mem _ hx)) (startOne winter fill base e t)
    change ((k, i) ∉ e.1 :: l.map (·.1) → (forEach l (startOne winter fill base e t) (startOne winter fill base)).slot k i = _) ∧
      ((k, i) ∈ e.1 :: l.map (·.1) → ∃ o, (forEach l (startOne winter fill base e t) (startOne winter fill base)).slot k i = _)
    by_cases he : (k, i) = e.1
    · rw [if_pos he] at hstep
      refine ⟨fun h => absurd (he ▸ List.mem_cons_self) h, fun _ => ?_⟩
      by_cases hm : (k, i) ∈ l.map (·.1)
      · obtain ⟨o, ho⟩ := ih2 hm
        exact ⟨o, ho.trans (by rw [hstep]; rfl)⟩
      · exact ⟨_, (ih1 hm).trans hstep⟩
    · rw [if_neg he] at hstep
      refine ⟨fun h => (ih1 fun hm => h (List.mem_cons_of_mem _ hm)).trans hstep, fun h => ?_⟩
      obtain ⟨o, ho⟩ := ih2 ((List.mem_cons.1 h).resolve_left he)
      exact ⟨o, ho.trans (by rw [hstep])⟩

theorem slotsStarted_slot (s : State) (l : List (Nat × Nat)) (winter fill : Bool) (hl : ∀ e ∈ l, e.2 < 8) {k i : Nat} (hi : i < 8) :
    ((k, i) ∉ l → (slotsStarted s l winter fill).slot k i = s.slot k i) ∧
      ((k, i) ∈ l → ∃ o, (slotsStarted s l winter fill).slot k i = slotStarted fill o (s.slot k i)) := by
  have hmap : l.zipIdx.map (·.1) = l := List.zipIdx_map_fst 0 l
  have h := startList_slot winter fill s.host.launchOrder l.zipIdx (k := k) (i := i)
    (fun e he => hl e.1 (hmap ▸ List.mem_map_of_mem he)) hi s
  rwa [hmap] at h

/-- The state of a launch with its slots started. -/
def launchStarted (s : State) (k p : Nat) (l : List (Nat × Nat)) (fill : Bool) : State :=
  startSlots (noteModels (launchRecorded s k l) p l) l ((launchRecorded s k l).part p).winter fill

/-- The work clock restarted by a launch that is no fill launch, and the context's quiesce point ended. -/
def launchClocked (s : State) (p : Nat) (fill : Bool) : State := if fill then s else restartWork s p

def quiesceEnded (s : State) (k : Nat) : State := s.modCtx k (fun x => { x with quiesced := false })

/-- The state of a launch but for its entry among the unpublished ones. -/
def launchReady (s : State) (k p : Nat) (l : List (Nat × Nat)) (fill : Bool) : State :=
  quiesceEnded (launchClocked (launchStarted s k p l fill) p fill) k

/-- The state with one more unpublished launch. -/
def launchNoted (s : State) (x : Launch) : State := { s with host := { s.host with launches := s.host.launches ++ [x] } }

/-- The entry of a launch (R379). -/
def launchEntry (c : Cmd) (s : State) (k p : Nat) (l : List (Nat × Nat)) : Launch :=
  { ctx := k, fn := c.fn, via := c.via, taken := takenOf s c.fn c.via, slots := l, heldBefore := (s.part p).heldTotal,
    lastDone := 0, poisoned := false, stopped := false }

theorem effectLaunch_eq (c : Cmd) (s : State) :
    let k := hIdx (c.arg 0)
    let p := fnPart s c.fn
    let l := launchPairs s (c.arg 1) (c.val 2)
    let u := launchReady s k p l (fillLaunch s k p l)
    effectLaunch c s = .later (launchNoted u (launchEntry c u k p l)) := rfl

theorem within_launchStarted (s : State) (k p : Nat) (l : List (Nat × Nat)) (fill : Bool) : Within 138688696 s (launchStarted s k p l fill) :=
  within_startSlots _ _ _ _ (within_noteModels _ _ _ (within_forEach (Within.refl s) fun _ _ h => within_recordInput _ _ _ _ _ _ _ h rfl) rfl) rfl

theorem ctx_launchStarted (s : State) {k j : Nat} (hj : j ≠ k) (p : Nat) (l : List (Nat × Nat)) (fill : Bool) :
    (launchStarted s k p l fill).ctx j = s.ctx j :=
  (ctx_same ((within_startSlots _ _ _ _ (within_noteModels _ _ _ (Within.refl _) rfl) rfl : Within 4458496 (launchRecorded s k l) _).same
    .ctxs (by decide)) j).trans (ctx_launchRecorded s hj l)

theorem sameBytes_launchStarted {k : Nat} (h : (s.ctx k).log = none) (p : Nat) (l : List (Nat × Nat)) (fill : Bool) :
    SameBytes s (launchStarted s k p l fill) := by
  have hw : Within 4458496 (launchRecorded s k l) (launchStarted s k p l fill) :=
    within_startSlots _ _ _ _ (within_noteModels _ _ _ (Within.refl _) rfl) rfl
  rw [launchRecorded_of_none h] at hw
  intro a
  exact ⟨by simp only [memByte, bytes_of_memory (hw.same .memory (by decide))],
    by simp only [hostByte, show _ = s.hostMem from hw.same .hostMemory (by decide)]⟩

theorem slot_same (h : Area.slots.same s t) (k i : Nat) : t.slot k i = s.slot k i := by
  unfold State.slot
  rw [show t.work.slots = s.work.slots from h]

theorem slot_launchStarted (s : State) (k p : Nat) {l : List (Nat × Nat)} (fill : Bool) (hl : ∀ e ∈ l, e.2 < 8) {m i : Nat} (hi : i < 8) :
    ((m, i) ∉ l → (launchStarted s k p l fill).slot m i = s.slot m i) ∧
      ((m, i) ∈ l → ∃ o, (launchStarted s k p l fill).slot m i = slotStarted fill o (s.slot m i)) := by
  have hs : (noteModels (launchRecorded s k l) p l).slot m i = s.slot m i := by
    have h : Area.slots.same s (noteModels (launchRecorded s k l) p l) :=
      (within_noteModels _ _ _ (within_forEach (Within.refl s) fun _ _ h => within_recordInput _ _ _ _ _ _ _ h rfl) rfl :
        Within 134492344 s _).same .slots (by decide)
    exact slot_same h m i
  have h := slotsStarted_slot (noteModels (launchRecorded s k l) p l) l ((launchRecorded s k l).part p).winter fill hl (k := m) hi
  rwa [hs] at h

theorem heldTotal_launchStarted (s : State) (k p : Nat) (l : List (Nat × Nat)) (fill : Bool) :
    ((launchStarted s k p l fill).part p).heldTotal = (s.part p).heldTotal := by
  have hw : Within 4458496 (launchRecorded s k l) (launchStarted s k p l fill) :=
    within_startSlots _ _ _ _ (within_noteModels _ _ _ (Within.refl _) rfl) rfl
  rw [parts_same (hw.same .parts (by decide))]
  exact (rests_launchRecorded s k l).part_get Part.heldTotal (fun _ => rfl) p

/-- The work clock of a partition as a launch leaves it (R244). -/
theorem restartWork_part (s : State) (p : Nat) : (restartWork s p).part p = { s.part p with work := 0, workPrev := 0 } := by
  rw [restartWork, State.modPart, part_setPart]
  rfl

theorem heldTotal_launchClocked (s : State) (p : Nat) (fill : Bool) : ((launchClocked s p fill).part p).heldTotal = (s.part p).heldTotal := by
  cases fill with
  | true => rfl
  | false =>
    change ((restartWork s p).part p).heldTotal = _
    rw [restartWork_part]

theorem launchClocked_restarts (s : State) (p : Nat) :
    (launchClocked s p false).fld fRplWorkWorkCycles p 0 = 0 ∧ ((launchClocked s p false).part p).work = 0 := by
  have h : (launchClocked s p false).fld fRplWorkWorkCycles p 0 = 0 % _ := fld_setFld_same _ fRplWorkWorkCycles p 0 0 (by decide) (by decide)
  exact ⟨h.trans (Nat.zero_mod _), congrArg Part.work (restartWork_part s p)⟩

theorem launchClocked_only (s : State) (p : Nat) (fill : Bool) : Only [.registers, .parts] s (launchClocked s p fill) := by
  unfold launchClocked
  split
  · exact Only.refl _ s
  · exact only_of_within (within_restartWork s p (Within.refl s) rfl)

theorem launchReady_only (s : State) (k p : Nat) (l : List (Nat × Nat)) (fill : Bool) :
    Only [.registers, .parts, .ctxs] (launchStarted s k p l fill) (launchReady s k p l fill) :=
  (launchClocked_only _ p fill).trans (setCtx_frame _ k _).2.2 (by decide) (by decide)

theorem launchNoted_only (s : State) (x : Launch) : Only [.launches] s (launchNoted s x) := by
  intro a ha
  cases a
  case launches => exact absurd List.mem_cons_self ha
  all_goals rfl

/-- What a launch leaves: its entry among the unpublished launches. -/
def launchLeft (c : Cmd) (s : State) (k p : Nat) (l : List (Nat × Nat)) (fill : Bool) : State :=
  launchNoted (launchReady s k p l fill) (launchEntry c (launchReady s k p l fill) k p l)

/-- The steps that follow the start of the slots change the clock, the context and the list of launches. -/
theorem launchLeft_after (c : Cmd) (s : State) (k p : Nat) (l : List (Nat × Nat)) (fill : Bool) :
    Only [.registers, .parts, .ctxs, .launches] (launchStarted s k p l fill) (launchLeft c s k p l fill) :=
  (launchReady_only s k p l fill).trans (launchNoted_only _ _) (by decide) (by decide)

theorem heldTotal_launchReady (s : State) (k p : Nat) (l : List (Nat × Nat)) (fill : Bool) :
    ((launchReady s k p l fill).part p).heldTotal = (s.part p).heldTotal := by
  rw [launchReady, quiesceEnded, State.modCtx, part_setCtx, heldTotal_launchClocked, heldTotal_launchStarted]

theorem launches_launchReady (s : State) (k p : Nat) (l : List (Nat × Nat)) (fill : Bool) :
    (launchReady s k p l fill).host.launches = s.host.launches := by
  have hclock := launchClocked_only (launchStarted s k p l fill) p fill
  have hstart : Within 138686648 s (slotsStarted (noteModels (launchRecorded s k l) p l) l ((launchRecorded s k l).part p).winter fill) :=
    within_forEach (within_noteModels _ _ _ (within_forEach (Within.refl s) fun _ _ h => within_recordInput _ _ _ _ _ _ _ h rfl) rfl)
      fun _ _ h => within_modSlot _ _ _ _ h rfl
  have h1 := congrArg Prod.fst (hclock .launches (by decide))
  have h2 := congrArg Prod.fst (hstart.same .launches (by decide))
  exact h1.trans h2

theorem launches_launchLeft (c : Cmd) (s : State) (k p : Nat) (l : List (Nat × Nat)) (fill : Bool) :
    (launchLeft c s k p l fill).host.launches = s.host.launches ++ [{
      ctx := k, fn := c.fn, via := c.via, taken := takenOf (launchLeft c s k p l fill) c.fn c.via, slots := l,
      heldBefore := (s.part p).heldTotal, lastDone := 0, poisoned := false, stopped := false }] := by
  rw [← heldTotal_launchReady s k p l fill, ← launches_launchReady s k p l fill]
  rfl

theorem slot_launchLeft (c : Cmd) (s : State) (k p : Nat) {l : List (Nat × Nat)} (fill : Bool) (hl : ∀ e ∈ l, e.2 < 8) {m i : Nat} (hi : i < 8) :
    ((m, i) ∉ l → (launchLeft c s k p l fill).slot m i = s.slot m i) ∧
      ((m, i) ∈ l → ∃ o, (launchLeft c s k p l fill).slot m i = slotStarted fill o (s.slot m i)) := by
  rw [slot_same (launchLeft_after c s k p l fill .slots (by decide))]
  exact slot_launchStarted s k p fill hl hi

theorem ctx_launchLeft (c : Cmd) (s : State) (k p : Nat) (l : List (Nat × Nat)) (fill : Bool) :
    ((launchLeft c s k p l fill).ctx k).quiesced = false ∧ ∀ j, j ≠ k → (launchLeft c s k p l fill).ctx j = s.ctx j := by
  obtain ⟨hself, hothers, _⟩ := setCtx_frame (launchClocked (launchStarted s k p l fill) p fill) k
    { (launchClocked (launchStarted s k p l fill) p fill).ctx k with quiesced := false }
  have hclock := launchClocked_only (launchStarted s k p l fill) p fill
  exact ⟨congrArg Ctx.quiesced hself,
    fun j hj => (hothers j hj).trans ((ctx_same (hclock .ctxs (by decide)) j).trans (ctx_launchStarted s hj p l fill))⟩

theorem clock_launchLeft (c : Cmd) (s : State) (k p : Nat) (l : List (Nat × Nat)) :
    (launchLeft c s k p l false).fld fRplWorkWorkCycles p 0 = 0 ∧ ((launchLeft c s k p l false).part p).work = 0 :=
  launchClocked_restarts (launchStarted s k p l false) p

theorem sameBytes_launchLeft (c : Cmd) {k : Nat} (h : (s.ctx k).log = none) (p : Nat) (l : List (Nat × Nat)) (fill : Bool) :
    SameBytes s (launchLeft c s k p l fill) := by
  have hb := sameBytes_launchStarted h p l fill
  have ho := launchLeft_after c s k p l fill
  intro a
  obtain ⟨h1, h2⟩ := hb a
  exact ⟨by rw [← h1]; simp only [memByte, bytes_of_memory (ho .memory (by decide))],
    by rw [← h2]; simp only [hostByte, show _ = (launchStarted s k p l fill).hostMem from ho .hostMemory (by decide)]⟩

/-- The slots that an accepted launch lists are slots of cores of its partition. -/
theorem slots_of_launch {c : Cmd} {b : State} (h : refuseLaunch c b = none) : ∀ e ∈ launchPairs b (c.arg 1) (c.val 2), e.2 < 8 := by
  have hbad := not_refused (x := (launchPairs b (c.arg 1) (c.val 2)).any (fun e => !coreIn b (myPart c b) e.1 || decide (7 < e.2)) ||
    decide ((launchPairs b (c.arg 1) (c.val 2)).eraseDups.length ≠ (launchPairs b (c.arg 1) (c.val 2)).length)) (r := rcBadArg) h (by simp [badIf])
  intro e he
  have := List.any_eq_false.1 (Bool.or_eq_false_iff.1 hbad).1 e he
  simp only [Bool.or_eq_true, decide_eq_true_eq, not_or] at this
  omega

theorem launchPairs_meetArgs (b : State) (l : List (Word × Nat)) (w : Word) (n : Nat) :
    launchPairs (meetArgs b l) w n = launchPairs b w n := by
  rw [launchPairs, listArg_meetArgs]
  rfl

/-- The slots of an accepted launch, as its effect reads them. -/
theorem slots_of_accepted {rq : Req} {ctx list count : Word} (h : Accepted refuseLaunch rq 0x42 [ctx, list, count] s) :
    ∀ e ∈ launchPairs (seen launchReads rq 0x42 [ctx, list, count] s) list count.toNat, e.2 < 8 := by
  rw [seen, launchPairs_meetArgs]
  exact slots_of_launch h.2.2

theorem publishLaunch_eq (s : State) (l : Launch) : publishLaunch s l =
    publish { s with host := { s.host with launches := s.host.launches.erase l } } l.fn l.via l.taken 0x42 l.mute {
      rc := match (s.ctx l.ctx).cause with | some _ => 0x10 | none => if l.stopped then 0x11 else 0,
      cause := match (s.ctx l.ctx).cause with | some c => c | none => if l.stopped then 0x0C else 0,
      result := BitVec.ofNat 64 (launchResult s l), tag := (s.ctx l.ctx).gen % 65536, poisoned := l.poisoned } := by
  unfold publishLaunch launchOutcome
  cases (s.ctx l.ctx).cause with
  | some c => rfl
  | none => cases l.stopped <;> rfl

/-- Settles O11, from what each part of a launch leaves. -/
theorem launches : Obligations.Launches := by
  refine ⟨fun rq ctx list count s => ?_, fun ctx s l hl => ?_⟩
  · intro m p l fill hacc
    have hslots := slots_of_accepted hacc
    have hslot {k i : Nat} (hi : i < 8) :=
      slot_launchLeft (cmdOf rq 0x42 [ctx, list, count]) m (hIdx ctx) p fill hslots (m := k) hi
    obtain ⟨hq, hctx⟩ := ctx_launchLeft (cmdOf rq 0x42 [ctx, list, count]) m (hIdx ctx) p l fill
    have he : effectLaunch (cmdOf rq 0x42 [ctx, list, count]) m = .later (launchLeft (cmdOf rq 0x42 [ctx, list, count]) m (hIdx ctx) p l fill) :=
      effectLaunch_eq _ m
    have hx := accepted_runWith (reads := launchReads) (effect := effectLaunch) hacc
    have hw := within_effectLaunch (cmdOf rq 0x42 [ctx, list, count]) m (Within.refl m) (Sub.refl _)
    rw [show seen launchReads rq 0x42 [ctx, list, count] s = m from rfl, he] at hx
    rw [he] at hw
    refine ⟨launchLeft (cmdOf rq 0x42 [ctx, list, count]) m (hIdx ctx) p l fill, next_congr hx, ?_, fun e he => ?_,
      fun k i _ hi hm => (hslot hi).1 hm, fun hf => ?_, hq, hctx, fun hlog => sameBytes_launchLeft _ hlog p l fill,
      hw.only rfl⟩
    · exact launches_launchLeft (cmdOf rq 0x42 [ctx, list, count]) m (hIdx ctx) p l fill
    · obtain ⟨o, ho⟩ := (hslot (hslots e he)).2 he
      exact slotStarted_eq ho
    · rw [hf]
      exact clock_launchLeft _ m (hIdx ctx) p l
  · refine next_congr ?_
    unfold launchPublishOp
    rw [hl]
    exact congrArg settle (publishLaunch_eq s l)

end Sys2Proof.Machine
end

section
/-! CONTEXT_TEARDOWN and DRAIN_TIMER_EXPIRY (R375, R394, R423, R424), and what faults, signals and records leave of the owners of queues
and tallies. -/

namespace Sys2Proof.Machine

variable {s t u : State} {μ : Nat}

/-! ### Owners -/

/-- What tells a context, and to whom a queue and a tally belong. -/
def ctxId (x : Ctx) : Nat × Nat × Nat := (x.gen, x.owner, x.part)
def queueId (x : Queue) : Bool × Option Nat := (x.present, x.ctx)
def tallyOwner (x : Tally) : Bool × Nat × Nat := (x.present, x.ctx, x.part)

/-- Contexts stay the same ones, and queues and tallies stay theirs. -/
structure Owned (s t : State) : Prop where
  ctx : ∀ c, ctxId (t.ctx c) = ctxId (s.ctx c)
  queue : ∀ q, queueId (t.queue q) = queueId (s.queue q)
  tally : ∀ k, tallyOwner (t.tally k) = tallyOwner (s.tally k)

theorem tally_same (h : Area.tallies.same s t) (k : Nat) : t.tally k = s.tally k := by
  unfold State.tally
  rw [show t.objs.tallies = s.objs.tallies from h]

theorem Owned.refl (s : State) : Owned s s := ⟨fun _ => rfl, fun _ => rfl, fun _ => rfl⟩

theorem Owned.trans (h : Owned s t) (g : Owned t u) : Owned s u :=
  ⟨fun c => (g.ctx c).trans (h.ctx c), fun q => (g.queue q).trans (h.queue q), fun k => (g.tally k).trans (h.tally k)⟩

theorem owned_of_same (hc : Area.ctxs.same s t) (hq : Area.queues.same s t) (ht : Area.tallies.same s t) : Owned s t :=
  ⟨fun c => congrArg ctxId (ctx_same hc c), fun q => congrArg queueId (queue_same hq q), fun k => congrArg tallyOwner (tally_same ht k)⟩

/-- What changes neither contexts nor queues nor tallies. -/
theorem Within.owned (h : Within μ s t) (hc : μ.testBit 13 = false := by decide) (hq : μ.testBit 8 = false := by decide)
    (ht : μ.testBit 14 = false := by decide) : Owned s t :=
  owned_of_same (h.same .ctxs hc) (h.same .queues hq) (h.same .tallies ht)

theorem owned_foldl {α : Type} (l : List α) (g : State → α → State) (h : ∀ t a, Owned t (g t a)) (s : State) : Owned s (l.foldl g s) := by
  induction l generalizing s with
  | nil => exact Owned.refl s
  | cons a l ih => exact (h s a).trans (ih _)

theorem owned_forEach {α : Type} (l : List α) (g : α → State → State) (h : ∀ t a, Owned t (g a t)) (s : State) : Owned s (forEach l s g) :=
  owned_foldl l _ h s

theorem owned_ite {c : Prop} [Decidable c] {a b : State} (ha : Owned s a) (hb : Owned s b) : Owned s (if c then a else b) := by
  split <;> assumption

theorem owned_modCtx (s : State) (c : Nat) (f : Ctx → Ctx) (h : ∀ x, ctxId (f x) = ctxId x) : Owned s (s.modCtx c f) := by
  refine ⟨fun k => ?_, fun _ => rfl, fun _ => rfl⟩
  by_cases e : c = k
  · subst e
    rw [State.modCtx, ctx_setCtx, h]
  · rw [State.modCtx, ctx_setCtx_ne _ _ e]

theorem owned_setQueue (s : State) (q : Nat) (v : Queue) (h : queueId v = queueId (s.queue q)) : Owned s (s.setQueue q v) := by
  refine ⟨fun _ => rfl, fun k => ?_, fun _ => rfl⟩
  by_cases e : q = k
  · subst e
    rw [queue_setQueue, h]
  · rw [queue_setQueue_ne _ _ e]

theorem owned_modTally (s : State) (k : Nat) (f : Tally → Tally) (h : ∀ x, tallyOwner (f x) = tallyOwner x) : Owned s (s.modTally k f) := by
  refine ⟨fun _ => rfl, fun _ => rfl, fun m => ?_⟩
  by_cases e : k = m
  · subst e
    rw [State.modTally, tally_setTally, h]
  · rw [State.modTally, tally_setTally_ne _ _ e]

theorem owned_bump (s : State) (f : RField) (i j n : Nat) : Owned s (s.bump f i j n) :=
  (within_bump s f i j n (Within.refl s) (Sub.refl _)).owned rfl rfl rfl

/-! ### Records -/

theorem owned_writeRecord (s : State) (q : Nat) (r : Record) : Owned s (writeRecord s q r) := by
  obtain ⟨p, hp⟩ := writeRecord_queue s q r
  have h := within_writeRecord s q r (Within.refl s) (Sub.refl _)
  refine ⟨fun c => congrArg ctxId (ctx_same (h.same .ctxs (by decide)) c), fun k => ?_,
    fun k => congrArg tallyOwner (tally_same (h.same .tallies (by decide)) k)⟩
  by_cases e : k = q
  · subst e
    rw [hp]
    rfl
  · rw [writeRecord_queue_ne s q r e]

theorem owned_flushRecords (s : State) (q n : Nat) : Owned s (flushRecords s q n) := by
  obtain ⟨es, p, hp⟩ := flushRecords_queue s q n
  have h := within_flushRecords s q n (Within.refl s) (Sub.refl _)
  refine ⟨fun c => congrArg ctxId (ctx_same (h.same .ctxs (by decide)) c), fun k => ?_,
    fun k => congrArg tallyOwner (tally_same (h.same .tallies (by decide)) k)⟩
  by_cases e : k = q
  · subst e
    rw [hp]
    rfl
  · rw [flushRecords_queue_ne s q n e]

theorem owned_flushQueue (s : State) (q : Nat) : Owned s (flushQueue s q) := owned_flushRecords s q _

theorem owned_finishEntry (s : State) (q pos : Nat) (r : Record) : Owned s (finishEntry s q pos r) :=
  (owned_setQueue s q _ (by exact rfl)).trans (owned_flushQueue _ q)

/-! ### Stopping -/

theorem owned_stopQueue (s : State) (q : Nat) (h : Bool) : Owned s (stopQueue s q h) := by
  unfold stopQueue
  dsimp only
  refine owned_ite (Owned.refl s) ?_
  refine Owned.trans (Owned.trans ?_ (((within_bumpOpt _ _ _ _ (Within.refl _) (Sub.refl _)).owned rfl rfl rfl))) (owned_flushQueue _ q)
  exact owned_ite ((owned_setQueue s q _ (by exact rfl)).trans ((within_stopQueueLaunches _ q (Within.refl _) (Sub.refl _)).owned rfl rfl rfl))
    (owned_setQueue s q _ (by exact rfl))

theorem owned_abandonTallies (s : State) (c : Nat) : Owned s (abandonTallies s c) :=
  (owned_forEach _ (fun t u => u.modTally t (fun x => { x with abandoned := true })) (fun t k => owned_modTally t k _ fun _ => rfl) s).trans
    (owned_bump _ _ _ _ _)

theorem owned_atStop (s : State) (c : Nat) (abort : Bool) : Owned s (atStop s c abort) := by
  have h := owned_abandonTallies s c
  unfold atStop
  split
  · exact owned_ite (h.trans ((within_sendAbort _ _ _ (Within.refl _) (Sub.refl _)).owned rfl rfl rfl)) h
  · exact h

theorem owned_stopWork (s : State) (c : Nat) : Owned s (stopWork s c) :=
  have h : Within 6293512 s (markStopped (stopCtxSlots s c) (fun l => l.ctx == c)) :=
    within_markStopped _ _ (within_stopCtxSlots s c (Within.refl s) rfl) rfl
  (h.owned rfl rfl rfl).trans (owned_forEach _ (fun q t => stopQueue t q true) (fun t q => owned_stopQueue t q true) _)

theorem owned_stopContext (s : State) (c cause : Nat) (abort : Bool) : Owned s (stopContext s c cause abort) := by
  by_cases ha : (s.ctx c).mode = .active
  · rw [stopContext_eq s c cause abort ha]
    refine ((owned_atStop s c abort).trans (owned_modCtx _ c _ ?_)).trans (owned_stopWork _ c)
    exact fun _ => rfl
  · rw [stopContext, if_pos (by simpa using ha)]
    exact Owned.refl s

theorem owned_abortCtx (s : State) (c epoch : Nat) (abort : Bool) : Owned s (abortCtx s c epoch abort) :=
  owned_ite (Owned.refl s) (((within_postAborted s c epoch (Within.refl s) (Sub.refl _)).owned rfl rfl rfl).trans (owned_stopContext _ _ _ _))

theorem owned_fenceModule (s : State) (reason : Nat) : Owned s (fenceModule s reason) := by
  unfold fenceModule
  dsimp only
  refine owned_ite (Owned.refl s) (Owned.trans ?_ ((within_postTo _ _ _ _ (Within.refl _) (Sub.refl _)).owned rfl rfl rfl))
  refine Owned.trans (Owned.trans ?_ (owned_forEach _ (fun p t => enterReset t p .blocked)
    (fun t p => ((within_enterReset t p .blocked (Within.refl t) (Sub.refl _)).owned rfl rfl rfl)) _)) (owned_of_same rfl rfl rfl)
  exact owned_forEach _ _ (fun _ _ => owned_abortCtx _ _ _ _) s

theorem owned_escalateCtx (s : State) : Owned s (escalateCtx s) := by
  unfold escalateCtx
  dsimp only
  have h (l : List Nat) : Owned s { s with care := { s.care with hardFaults := l } } := owned_of_same rfl rfl rfl
  exact owned_ite ((h _).trans (owned_fenceModule _ _)) (h _)

theorem owned_ctxFault (s : State) (c cause sec unit : Nat) (poison : Bool) : Owned s (ctxFault s c cause sec unit poison) := by
  by_cases ha : (s.ctx c).mode = .active
  · have h : Owned s (stopContext (atFault s c cause sec unit poison) c cause true) :=
      ((within_atFault s c cause sec unit poison).owned rfl rfl rfl).trans (owned_stopContext _ c cause true)
    rw [ctxFault_eq s c cause sec unit poison ha]
    exact owned_ite (h.trans (owned_escalateCtx _)) h
  · rw [ctxFault_of_ended s cause sec unit poison ha]
    exact Owned.refl s

/-! ### Adds to tallies, and their records -/

theorem owned_appendLog (s : State) (c : Nat) (g : Log) (kind source addr len : Nat) (crc : Word32) (tally : Nat) (data : List Byte) :
    Owned s (appendLog s c g kind source addr len crc tally data) := by
  unfold appendLog
  dsimp only
  refine owned_ite (Owned.trans (owned_modCtx _ _ _ ?_) (owned_bump _ _ _ _ _))
    (Owned.trans (within_storeBytes _ _ _ (Within.refl _) (Sub.refl _)).owned (owned_modCtx _ _ _ ?_))
  · exact fun _ => rfl
  · exact fun _ => rfl

theorem owned_optCompare (s : State) (r : Option Log) (p : Nat) (m : Mark) (n : Nat) (d : Word32) :
    Owned s (match r with | some g => markCompare s p g m n d | none => s) := by
  cases r
  · exact Owned.refl s
  · exact (within_markCompare s p _ m n d (Within.refl s) (Sub.refl _)).owned rfl rfl rfl

theorem owned_optLog (s : State) (r : Option Log) (c kind source addr : Nat) (crc : Word32) (tally : Nat) :
    Owned s (match r with
      | some g => if g.stopped then s else appendLog s c g kind source addr 0 crc tally []
      | none => s) := by
  cases r
  · exact Owned.refl s
  · exact owned_ite (Owned.refl s) (owned_appendLog _ _ _ _ _ _ _ _ _ _)

theorem owned_drawnHold (s : State) (p : Nat) (l : Option Nat) : Owned s (addCause s.freeDraw.2 p 7 0 l) :=
  Within.owned (μ := 1073745920) (within_addCause _ _ _ _ _ (within_freeDraw _ (Within.refl s) rfl) rfl)

theorem owned_markAdd (s : State) (c : Nat) (m : Mark) : Owned s (markAdd s c m) := by
  have hm : Owned s (s.modCtx c (fun x => { x with marks := x.marks.map (fun y => if y.number = m.number then
      { y with count := m.count + 1 } else y) })) := owned_modCtx _ _ _ fun _ => rfl
  unfold markAdd
  dsimp only
  refine owned_ite hm (hm.trans ?_)
  generalize s.modCtx c _ = t
  have hr (a n : Nat) : Owned t (readMem t a n).1 := (within_readMem t a n (Within.refl t) (Sub.refl _)).owned rfl rfl rfl
  split
  · exact (hr _ _).trans (owned_ctxFault _ _ _ _ _ _)
  · replace hr := hr (t.tensor (s.ctx c).part m.tensor).homeDesc.crcAddr (4 * (t.tensor (s.ctx c).part m.tensor).homeDesc.blocks)
    revert hr
    generalize (readMem t _ _).1 = v
    exact fun hr => hr.trans ((owned_ite (owned_drawnHold _ _ _) (Owned.refl v)).trans
      ((owned_optCompare _ _ _ _ _ _).trans (owned_optLog _ _ _ _ _ _ _ _)))

theorem owned_markTally (s : State) (k : Nat) : Owned s (markTally s k) :=
  owned_forEach _ (fun m u => markAdd u (s.tally k).ctx m) (fun t m => owned_markAdd t _ m) s

theorem owned_tallyAddOp (s : State) (k n : Nat) : Owned s (tallyAddOp s k n) := by
  have h : Owned s ((markTally s k).modTally k (fun y => { y with count := y.count + n })) :=
    (owned_markTally s k).trans (owned_modTally _ k _ fun _ => rfl)
  exact owned_ite (Owned.refl s) (owned_ite (owned_bump _ _ _ _ _) (owned_ite (owned_ctxFault _ _ _ _ _ _)
    (h.trans ((within_endExternal _ _ (Within.refl _) (Sub.refl _)).owned rfl rfl rfl))))

theorem owned_freeEngine (s : State) (kind unit : Nat) : Owned s (freeEngine s kind unit) :=
  (within_freeEngine s kind unit (Within.refl s) (Sub.refl _)).owned rfl rfl rfl

theorem owned_modQueue (s : State) (q : Nat) (f : Queue → Queue) (h : ∀ x, queueId (f x) = queueId x) : Owned s (s.modQueue q f) :=
  owned_setQueue s q _ (h _)

theorem owned_endStopped (s : State) (kind unit : Nat) (j : Job) : Owned s (endStopped s kind unit j) :=
  ((owned_freeEngine s kind unit).trans (owned_modQueue _ _ _ fun _ => by exact rfl)).trans (owned_finishEntry _ _ _ _)

theorem owned_collStop (s : State) (sec : Nat) (j : Job) : Owned s (collStop s sec j) := by
  unfold collStop
  dsimp only
  refine Owned.trans (Owned.trans ?_ (owned_modCtx _ j.ctx _ ?_)) (owned_endStopped _ 3 sec j)
  · exact (within_applyDeltas _ _ _ (within_collUnhold s sec _ (Within.refl s) rfl) rfl : Within 69632 s _).owned rfl rfl rfl
  · exact fun _ => rfl

/-! ### What keeps both the owners and the ends -/

/-- Contexts, queues and tallies stay theirs, and what has ended stays as it ended. -/
structure Survives (s t : State) : Prop where
  owned : Owned s t
  stays : Stays s t

theorem Survives.refl (s : State) : Survives s s := ⟨Owned.refl s, Stays.refl s⟩

theorem Survives.trans (h : Survives s t) (g : Survives t u) : Survives s u := ⟨h.owned.trans g.owned, h.stays.trans g.stays⟩

theorem Within.survives (h : Within μ s t) (hc : μ.testBit 13 = false := by decide) (hq : μ.testBit 8 = false := by decide)
    (ht : μ.testBit 14 = false := by decide) (hg : μ.testBit 19 = false := by decide) : Survives s t := ⟨h.owned hc hq ht, h.stays hc hg⟩

theorem survives_forEach {α : Type} (l : List α) (g : α → State → State) (h : ∀ t a, Survives t (g a t)) (s : State) :
    Survives s (forEach l s g) :=
  ⟨owned_forEach l g (fun t a => (h t a).owned) s, stays_forEach l g (fun t a => (h t a).stays) s⟩

theorem survives_ite {c : Prop} [Decidable c] {a b : State} (ha : Survives s a) (hb : Survives s b) :
    Survives s (if c then a else b) := ⟨owned_ite ha.owned hb.owned, stays_ite ha.stays hb.stays⟩

theorem survives_modCtx (s : State) (c : Nat) (f : Ctx → Ctx) (h : ∀ x, ctxId (f x) = ctxId x) (g : ∀ x, ctxEnd (f x) = ctxEnd x) :
    Survives s (s.modCtx c f) := ⟨owned_modCtx s c f h, stays_modCtx s c f g⟩

theorem survives_bump (s : State) (f : RField) (i j n : Nat) : Survives s (s.bump f i j n) :=
  (within_bump s f i j n (Within.refl s) (Sub.refl _)).survives rfl rfl rfl rfl

theorem survives_finishEntry (s : State) (q pos : Nat) (r : Record) : Survives s (finishEntry s q pos r) :=
  ⟨owned_finishEntry s q pos r, ((within_finishEntry s q pos r (Within.refl s) (Sub.refl _)).stays rfl rfl)⟩

theorem survives_ctxFault (s : State) (c cause sec unit : Nat) (poison : Bool) : Survives s (ctxFault s c cause sec unit poison) :=
  ⟨owned_ctxFault .., stays_ctxFault ..⟩

theorem survives_tallyAddOp (s : State) (k n : Nat) : Survives s (tallyAddOp s k n) := ⟨owned_tallyAddOp s k n, stays_tallyAddOp s k n⟩

theorem survives_collStop (s : State) (sec : Nat) (j : Job) : Survives s (collStop s sec j) := ⟨owned_collStop s sec j, stays_collStop s sec j⟩

theorem survives_signalAll (s : State) (b : List Byte) : Survives s (signalAll s b).1 := by
  have h (l : List (Nat × Nat)) (r : State × Bool) : Survives r.1
      (l.foldl (fun a e => if addOverflows a.1 e.1 e.2 then (a.1, true) else (tallyAddOp a.1 e.1 e.2, a.2)) r).1 := by
    induction l generalizing r with
    | nil => exact Survives.refl _
    | cons e l ih =>
      rw [List.foldl_cons]
      refine Survives.trans ?_ (ih _)
      split
      · exact Survives.refl _
      · exact survives_tallyAddOp _ _ _
  exact h _ (s, false)

/-! ### The ends of descriptors -/

theorem survives_freeEngine (s : State) (kind unit : Nat) : Survives s (freeEngine s kind unit) :=
  (within_freeEngine s kind unit (Within.refl s) (Sub.refl _)).survives rfl rfl rfl rfl

theorem survives_endStopped (s : State) (kind unit : Nat) (j : Job) : Survives s (endStopped s kind unit j) :=
  ⟨owned_endStopped s kind unit j, ((within_endStopped s kind unit j (Within.refl s) (Sub.refl _)).stays rfl rfl)⟩

theorem survives_endFault (s : State) (kind unit : Nat) (j : Job) (cause : Nat) (poison : Bool) : Survives s (endFault s kind unit j cause poison) :=
  (((survives_freeEngine s kind unit).trans ((within_modEngine _ _ _ (Within.refl _) (Sub.refl _)).survives rfl rfl rfl rfl)).trans (survives_finishEntry _ _ _ _)).trans
    (survives_ctxFault _ _ _ _ _ _)

theorem survives_endCounted (s : State) (kind unit : Nat) (j : Job) {count : State → State} (hc : ∀ t, Survives t (count t)) :
    Survives s (endCounted s kind unit j count) := by
  have h := (survives_freeEngine s kind unit).trans (survives_signalAll (freeEngine s kind unit) j.bytes)
  unfold endCounted
  dsimp only
  exact survives_ite (h.trans (survives_endFault _ _ _ _ _ _)) (h.trans ((hc _).trans (survives_finishEntry _ _ _ _)))

theorem survives_endDone (s : State) (kind unit : Nat) (j : Job) : Survives s (endDone s kind unit j) := survives_endCounted s kind unit j Survives.refl

theorem survives_addNf (s : State) (c n : Nat) : Survives s (addNf s c n) := survives_modCtx s c _ (fun _ => rfl) fun _ => rfl

/-- What a descriptor brings to its context and its tensors before its signals. -/
theorem survives_applied (s : State) (p c n : Nat) (ds : List (Nat × CounterDelta)) (ids : List Nat) :
    Survives s (poisonTensors (addNf (applyDeltas s p ds) c n) p ids) :=
  (((within_applyDeltas s p ds (Within.refl s) (Sub.refl _)).survives rfl rfl rfl rfl).trans (survives_addNf _ c n)).trans
    ((within_poisonTensors _ p ids (Within.refl _) (Sub.refl _)).survives rfl rfl rfl rfl)

theorem survives_collEnd (s : State) (sec : Nat) (j : Job) : Survives s (collEnd s sec j) := by
  unfold collEnd
  dsimp only
  refine Survives.trans ?_ ((survives_applied _ _ _ _ _ _).trans (survives_endCounted _ 3 sec j fun t => ?_))
  · exact survives_ite (within_storeBytes s _ _ (Within.refl s) (Sub.refl _)).survives (Survives.refl s)
  · exact (survives_ite (survives_bump t _ _ _ _) (Survives.refl t)).trans (survives_bump _ _ _ _ _)

theorem survives_optEnd (s : State) (sec : Nat) (j : Job) : Survives s (optEnd s sec j) := by
  unfold optEnd
  dsimp only
  exact ((survives_applied s _ _ _ _ _).trans (survives_ite (Survives.refl _) ((within_setStamps _ _ _ (Within.refl _) (Sub.refl _)).survives rfl rfl rfl rfl))).trans
    (survives_endDone _ _ _ _)

theorem survives_routeEnd (s : State) (sec : Nat) : Survives s (routeEnd s sec) := by
  unfold routeEnd
  split
  · exact ((((within_routePast s sec (Within.refl s) (Sub.refl _)).survives rfl rfl rfl rfl).trans (survives_applied _ _ _ _ _ _))).trans
      (survives_endCounted _ 2 sec _ fun t => survives_bump t _ _ _ _)
  · exact Survives.refl s

theorem survives_endJob (s : State) (kind unit : Nat) (j : Job) : Survives s (endJob s kind unit j) := by
  unfold endJob
  split
  · exact survives_collEnd s unit j
  · exact survives_optEnd s unit j
  · exact survives_endDone s kind unit j

theorem survives_stopJob (s : State) (kind unit : Nat) : Survives s (stopJob s kind unit) := by
  unfold stopJob
  split
  next j hj =>
    dsimp only
    have h := ((within_dropCauses s (s.ctx j.ctx).part (fun c => c.key == rereadKey kind unit && c.field == 6) (Within.refl s)
      (Sub.refl _)).survives rfl rfl rfl rfl)
    generalize dropCauses s _ _ = u at h ⊢
    refine h.trans (survives_ite ?_ (survives_ite (survives_endJob _ _ _ _) (survives_ite (survives_collStop _ _ _) (survives_endStopped _ _ _ _))))
    exact ((within_dropUnsent u unit (Within.refl u) (Sub.refl _)).survives rfl rfl rfl rfl).trans (survives_endStopped _ _ _ _)
  next => exact Survives.refl s

theorem survives_endPast (s : State) (k : Nat) (f : Job → Bool) : Survives s (endPast s k f) :=
  survives_forEach _ (fun _ t => routeEnd t (k % 64)) (fun t _ => survives_routeEnd t _) s

theorem survives_stopJobs (s : State) (f : Job → Bool) : Survives s (stopJobs s f) :=
  (survives_forEach _ (fun (e : Nat × Engine) t => endPast t e.1 f) (fun t _ => survives_endPast t _ f) s).trans
    (survives_forEach _ (fun (e : Nat × Engine) t => stopJob t (e.1 / 64) (e.1 % 64)) (fun t _ => survives_stopJob t _ _) _)

/-! ### Publications -/

theorem owned_publish (s : State) (fn : Nat) (via : Via) (taken op : Nat) (mute : Bool) (a : Answer) :
    Owned s (publish s fn via taken op mute a) := by
  cases via with
  | mbx j seq block =>
    refine owned_ite (Owned.refl s) ?_
    have hb : Owned s (match block with
        | some b => if a.rc ≠ rcBadBlock && (s.fn fn).busMaster then
            writeHost s (b + 64) (leBytes 2 a.rc ++ leBytes 6 0 ++ leBytes 8 a.result.toNat) else s
        | none => s) := by
      cases block with
      | none => exact Owned.refl s
      | some b => exact owned_ite (within_writeHost s _ _ (Within.refl s) (Sub.refl _)).owned (Owned.refl s)
    exact (hb.trans ((within_modFn _ _ _ (Within.refl _) (Sub.refl _)).owned rfl rfl rfl)).trans
      ((within_ackWord _ _ _ _ _ _ _ (Within.refl _) (Sub.refl _)).owned rfl rfl rfl)
  | queue q pos => exact owned_finishEntry _ _ _ _

theorem owned_publishLaunch (s : State) (l : Launch) : Owned s (publishLaunch s l) := by
  have h : Owned s { s with host := { s.host with launches := s.host.launches.erase l } } := owned_of_same rfl rfl rfl
  exact h.trans (owned_publish _ _ _ _ _ _ _)

theorem survives_publishLaunches (s : State) (f : Launch → Bool) : Survives s (publishLaunches s f) :=
  ⟨owned_forEach _ (fun l t => publishLaunch t l) owned_publishLaunch s,
    ((within_publishLaunches s f (Within.refl s) (Sub.refl _)).stays rfl rfl)⟩

/-! ### The objects of a context -/

theorem tabGet_tabMap {α : Type} (d : α) (f : Nat → α → α) (l : Tab α) (k : Nat) (hd : f k d = d) :
    tabGet d (tabMap f l) k = f k (tabGet d l k) := by
  induction l with
  | nil => exact hd.symm
  | cons e l ih =>
    rw [tabMap, List.map_cons, tabGet, tabGet]
    split
    next h => rw [show e.1 = k by simpa using h]
    next => exact ih

theorem region_same (h : Area.regions.same s t) (r : Nat) : t.region r = s.region r := congrArg (fun l => tabGet ({} : Region) l r) h

/-- The queues of a context are gone. -/
def queuesGone (s : State) (c : Nat) : State := forEach (ctxQueues s c) s (fun q t => t.setQueue q (deadQueue (t.queue q) c))

/-- So are its other objects. -/
def objectsGone (s : State) (p c : Nat) : State :=
  let o := s.objs
  { s with objs := { o with
    tallies := tabMap (fun _ t => if t.present && t.ctx == c then deadTally t else t) o.tallies,
    regions := tabMap (fun _ r => if r.present && r.ctx == c then { gen := r.gen + 1 } else r) o.regions,
    tensors := o.tensors.filter (fun e => !(e.1 / 4294967296 == p && e.2.ctx == c)),
    gates := o.gates.filter (fun e => !(e.1 / 64 == p && e.2.ctx == c)),
    comms := o.comms.filter (fun e => e.2.ctx != c),
    parts := tabMap (fun _ x => { x with drift := x.drift.filter (fun d => d.2.ctx != c) }) o.parts } }

/-- A context's queues and other objects, gone. -/
def ctxGone (s : State) (c : Nat) : State :=
  objectsGone (queuesGone (restoreCtxTensors s (s.ctx c).part c) c) (s.ctx c).part c

/-- What follows them leaves queues, regions and tallies. -/
theorem within_afterCtxGone (s : State) (c : Nat) : Within 6620160 (ctxGone s c) (destroyObjects s c) := by
  refine within_pruneTokens _ (within_breakModels _ _ (within_forEach (Within.refl _) fun k t ht => ?_) rfl) rfl
  exact within_ite (within_modCore _ _ _ (within_setSlot _ _ _ _ ht rfl) rfl) (within_setSlot _ _ _ _ ht rfl)

theorem queue_queuesGone (s : State) (c q : Nat) (hp : (s.queue q).present = true) (hc : (s.queue q).ctx = some c) :
    ((queuesGone s c).queue q).present = false := by
  have hq : q ∈ ctxQueues s c := mem_keysWhere (d := ({} : Queue)) (f := fun x => x.present && x.ctx == some c) (by
    rw [show tabGet ({} : Queue) s.host.queues q = s.queue q from rfl, hp, hc]
    simp) rfl
  refine (forEach_get (π := fun t : State => (t.queue q).present) (k := q) (v := false) (fun t => ?_) (fun a _ ha t => ?_) s).trans (if_pos hq)
  · rw [queue_setQueue]
    rfl
  · rw [queue_setQueue_ne _ _ ha]

theorem queue_destroyObjects (s : State) (c q : Nat) (hp : (s.queue q).present = true) (hc : (s.queue q).ctx = some c) :
    ((destroyObjects s c).queue q).present = false := by
  have h : Within 327680 s (restoreCtxTensors s (s.ctx c).part c) := within_restoreCtxTensors s _ c (Within.refl s) rfl
  have hq := queue_same (h.same .queues (by decide)) q
  rw [queue_same ((within_afterCtxGone s c).same .queues (by decide)) q]
  exact queue_queuesGone _ c q (by rw [hq, hp]) (by rw [hq, hc])

/-- The tables of regions and tallies before their context's go. -/
theorem within_queuesGone (s : State) (c : Nat) : Within 327936 s (queuesGone (restoreCtxTensors s (s.ctx c).part c) c) :=
  within_forEach (within_restoreCtxTensors s _ c (Within.refl s) rfl) fun _ _ ht => within_setQueue _ _ _ ht rfl

theorem region_destroyObjects (s : State) (c r : Nat) : (destroyObjects s c).region r =
    if (s.region r).present && (s.region r).ctx == c then { gen := (s.region r).gen + 1 } else s.region r := by
  rw [region_same ((within_afterCtxGone s c).same .regions (by decide)) r, ← region_same ((within_queuesGone s c).same .regions (by decide)) r]
  exact tabGet_tabMap ({} : Region) (fun _ (x : Region) => if x.present && x.ctx == c then { gen := x.gen + 1 } else x) _ r rfl

theorem tally_destroyObjects (s : State) (c k : Nat) : (destroyObjects s c).tally k =
    if (s.tally k).present && (s.tally k).ctx == c then deadTally (s.tally k) else s.tally k := by
  rw [tally_same ((within_afterCtxGone s c).same .tallies (by decide)) k, ← tally_same ((within_queuesGone s c).same .tallies (by decide)) k]
  exact tabGet_tabMap ({} : Tally) (fun _ (x : Tally) => if x.present && x.ctx == c then deadTally x else x) _ k rfl

/-! ### The teardown of a context -/

/-- The work of a context that is torn down, stopped and published. -/
def workGone (s : State) (c : Nat) : State :=
  publishLaunches (stopJobs (abandonTallies s c) (fun j => j.ctx == c)) (fun l => l.ctx == c)

theorem survives_workGone (s : State) (c : Nat) : Survives s (workGone s c) :=
  ((⟨owned_abandonTallies s c, ((within_abandonTallies s c (Within.refl s) (Sub.refl _)).stays rfl rfl)⟩ : Survives s _).trans
    (survives_stopJobs _ _)).trans (survives_publishLaunches _ _)

theorem region_workGone (s : State) (c r : Nat) : (workGone s c).region r = s.region r :=
  region_same ((within_publishLaunches _ _ (within_stopJobs _ _ (within_abandonTallies s c (Within.refl s) rfl) rfl) rfl
    : Within 1793686013 s (workGone s c)).same .regions (by decide)) r

/-- What a context in DRAINING keeps. -/
def drained (x : Ctx) : Ctx :=
  { mode := .draining, gen := x.gen, bestEffort := x.bestEffort, fill := x.fill, owner := x.owner, part := x.part, cause := x.cause }

/-- The state after a teardown, before what waited for it goes on. -/
def tornDown (s : State) (c : Nat) : State :=
  (lateArrivals ((destroyObjects (workGone s c) c).modCtx c drained)).bump fFltResetsContext 0 0 1

theorem within_tornDown (s : State) (c : Nat) : Within 1073750024 (destroyObjects (workGone s c) c) (tornDown s c) :=
  within_bump _ _ _ _ _ (within_lateArrivals _ (within_modCtx _ _ _ (Within.refl _) rfl) rfl) rfl

theorem ctx_tornDown (s : State) (c : Nat) : (tornDown s c).ctx c = drained ((workGone s c).ctx c) := by
  have h : Within 1073741832 ((destroyObjects (workGone s c) c).modCtx c drained) (tornDown s c) :=
    within_bump _ _ _ _ _ (within_lateArrivals _ (Within.refl _) rfl) rfl
  rw [ctx_same (h.same .ctxs (by decide)) c, State.modCtx, ctx_setCtx,
    ctx_same ((within_destroyObjects (workGone s c) c (Within.refl _) (Sub.refl _)).same .ctxs (by decide)) c]

theorem teardown_exec (c : CtxId) (s : State) (hm : (s.ctx c.val).mode = .stopping) (hi : ctxIdle s c.val = true) :
    exec (.contextTeardown c) s = .next (settle (tornDown s c.val)) := by
  refine next_congr (if_pos ?_)
  rw [hm, hi]
  rfl

/-- A drained context's index is free. -/
theorem freeCtx_frame (s : State) (c : Nat) :
    ∃ u, freeCtx s c = settle u ∧ u.ctx c = { gen := (s.ctx c).gen } ∧ (∀ k, k ≠ c → u.ctx k = s.ctx k) ∧
      Only [.ctxs, .queues, .tallies, .parts] s u := by
  refine ⟨_, rfl, ?_, fun k hk => ?_, ?_⟩
  · rw [ctx_same ((within_partAdvance _ _ (Within.refl _) (Sub.refl _)).same .ctxs (by decide)) c]
    exact ctx_setCtx s c _
  · rw [ctx_same ((within_partAdvance _ _ (Within.refl _) (Sub.refl _)).same .ctxs (by decide)) k]
    exact ctx_setCtx_ne s _ (Ne.symm hk)
  · refine Only.trans (l := [.ctxs, .queues, .tallies]) ?_
      (only_of_within (l := [.parts]) (within_partAdvance _ _ (Within.refl _) rfl)) (by decide) (by decide)
    intro a ha
    cases a
    case ctxs => exact absurd (by decide) ha
    case queues => exact absurd (by decide) ha
    case tallies => exact absurd (by decide) ha
    all_goals rfl

/-- What a teardown leaves of a context's objects. -/
theorem tornDown_objects (s : State) (c : Nat) :
    (∀ r, (s.region r).present = true → (s.region r).ctx = c → (tornDown s c).region r = { gen := (s.region r).gen + 1 }) ∧
    (∀ r, (s.region r).ctx ≠ c → (tornDown s c).region r = s.region r) ∧
    (∀ k, (s.tally k).present = true → (s.tally k).ctx = c → ((tornDown s c).tally k).present = false) ∧
    (∀ q, (s.queue q).present = true → (s.queue q).ctx = some c → ((tornDown s c).queue q).present = false) := by
  have hw := (survives_workGone s c).owned
  have hv := within_tornDown s c
  refine ⟨fun r hp hc => ?_, fun r hc => ?_, fun k hp hc => ?_, fun q hp hc => ?_⟩
  · rw [region_same (hv.same .regions (by decide)) r, region_destroyObjects, region_workGone, hp, hc]
    simp
  · rw [region_same (hv.same .regions (by decide)) r, region_destroyObjects, region_workGone]
    simp [hc]
  · obtain ⟨h1, h2⟩ := Prod.mk.inj (hw.tally k)
    rw [tally_same (hv.same .tallies (by decide)) k, tally_destroyObjects, h1, (Prod.mk.inj h2).1, hp, hc]
    simp [deadTally]
  · obtain ⟨h1, h2⟩ := Prod.mk.inj (hw.queue q)
    rw [queue_same (hv.same .queues (by decide)) q]
    exact queue_destroyObjects _ _ q (h1.trans hp) (h2.trans hc)

/-- What it leaves of the context itself. -/
theorem tornDown_ctx (s : State) (c : Nat) (hm : (s.ctx c).mode = .stopping) :
    ((tornDown s c).ctx c).mode = .draining ∧ ((tornDown s c).ctx c).gen = (s.ctx c).gen ∧
      ((tornDown s c).ctx c).owner = (s.ctx c).owner ∧ ((tornDown s c).ctx c).cause = (s.ctx c).cause := by
  have hw := survives_workGone s c
  obtain ⟨hgen, howner⟩ := Prod.mk.inj (hw.owned.ctx c)
  have hend := hw.stays.ctx c (by rw [hm]; exact CtxMode.noConfusion)
  rw [ctx_tornDown]
  dsimp only [drained]
  exact ⟨rfl, hgen, (Prod.mk.inj howner).1, (Prod.mk.inj hend).2⟩

/-- Settles O45: what a context owns is what it owned when its teardown began, since the stopped work changes no owner. -/
theorem teardown : Obligations.Teardown := by
  unfold Obligations.Teardown
  refine ⟨fun c s h => next_congr (if_neg ?_), fun c s h => next_congr (if_neg (by simpa using h)), fun c s hm hi => ?_, fun c s hm => ?_⟩
  · rcases h with h | h <;> simp [h]
  · obtain ⟨h1, h2, h3, h4⟩ := tornDown_ctx s c.val hm
    exact ⟨tornDown s c.val, teardown_exec c s hm hi, h1, h2, h3, h4, tornDown_objects s c.val⟩
  · obtain ⟨u, hu, h⟩ := freeCtx_frame s c.val
    exact ⟨u, next_congr ((if_pos (by simpa using hm)).trans hu), h⟩

end Sys2Proof.Machine
end

section
/-! PARTITION_FATAL, PARTITION_RESET_DONE and SCRUB_COMPLETE (R390, R393, R420, R421). -/

namespace Sys2Proof.Machine

variable {s t u : State}

/-- A mask's clear bits are clear in its parts. -/
theorem Sub.clear {a b k : Nat} (h : Sub a b) (hb : b.testBit k = false) : a.testBit k = false := by
  rw [← show a &&& b = a from h, Nat.testBit_and, hb, Bool.and_false]

/-- What differs in some areas after what differs in some. -/
theorem Within.trans {μ ν ρ : Nat} (h : Within μ s t) (g : Within ν t u) (hμ : Sub μ ρ) (hν : Sub ν ρ) : Within ρ s u :=
  ⟨fun a ha => Area.same_trans (h.same a (hμ.clear ha)) (g.same a (hν.clear ha))⟩

/-! ### Stopping contexts, and their partitions -/

theorem rests_dropCauses (s : State) (p : Nat) (f : HoldCause → Bool) : Rests s (dropCauses s p f) := rests_setPart s p _ rfl

theorem rests_pump (s : State) (l : Nat) : Rests s (pump s l) := by
  have h := (within_pumpLink s l ((s.link l).waiting.length + 257) (Within.refl s) (Sub.refl _)).rests
  unfold pump
  dsimp only
  refine rests_ite h ?_
  split
  · exact h.trans (rests_dropCauses _ _ _)
  · exact h

theorem rests_sendMsg (s : State) (l : Nat) (h d : List Byte) : Rests s (sendMsg s l h d) :=
  (within_modLink s l _ (Within.refl s) (Sub.refl _)).rests.trans (rests_pump _ l)

theorem rests_sendAbort (s : State) (g e : Nat) : Rests s (sendAbort s g e) := by
  refine rests_ite (Rests.refl s) (Rests.trans (Rests.trans ?_ (rests_forEach _ (fun l t => sendMsg t l (ctrlHeader 0x12 0 e g []) [])
    (fun t l => rests_sendMsg t l _ _) _)) (rests_bump _ _ _ _ _))
  exact (within_setGroup s g _ (Within.refl s) (Sub.refl _)).rests

theorem rests_atStop (s : State) (c : Nat) (abort : Bool) : Rests s (atStop s c abort) := by
  have h := (within_abandonTallies s c (Within.refl s) (Sub.refl _)).rests
  unfold atStop
  split
  · exact rests_ite (h.trans (rests_sendAbort _ _ _)) h
  · exact h

theorem rests_stopWork (s : State) (c : Nat) : Rests s (stopWork s c) :=
  have h : Within 6293512 s (markStopped (stopCtxSlots s c) (fun l => l.ctx == c)) :=
    within_markStopped _ _ (within_stopCtxSlots s c (Within.refl s) rfl) rfl
  h.rests.trans (rests_forEach _ (fun q t => stopQueue t q true) (fun t q => rests_stopQueue t q true) _)

theorem rests_stopContext (s : State) (c cause : Nat) (abort : Bool) : Rests s (stopContext s c cause abort) := by
  by_cases ha : (s.ctx c).mode = .active
  · rw [stopContext_eq s c cause abort ha]
    exact ((rests_atStop s c abort).trans (rests_modCtx _ c _)).trans (rests_stopWork _ c)
  · rw [stopContext, if_pos (by simpa using ha)]
    exact Rests.refl s

/-! ### What faults leave of a partition's stage -/

/-- Functions stay but for what waits at them; a partition keeps its mode, and its stage or begins its reset. -/
def Staged (s t : State) : Prop :=
  ∀ p, (t.part p).mode = (s.part p).mode ∧ ((t.part p).stage = (s.part p).stage ∨ (t.part p).stage = .resetting)

theorem Staged.trans (h : Staged s t) (g : Staged t u) : Staged s u := fun p =>
  ⟨(g p).1.trans (h p).1, (g p).2.elim (fun e => (h p).2.imp e.trans e.trans) .inr⟩

theorem Rests.staged (h : Rests s t) : Staged s t := fun p =>
  ⟨h.part_get (·.mode) (fun _ => rfl) p, .inl (h.part_get (·.stage) (fun _ => rfl) p)⟩

theorem staged_ite {c : Prop} [Decidable c] {a b : State} (ha : Staged s a) (hb : Staged s b) : Staged s (if c then a else b) := by
  split <;> assumption

theorem staged_forEach {α : Type} (l : List α) (g : α → State → State) (h : ∀ t a, Staged t (g a t)) (s : State) :
    Staged s (forEach l s g) := by
  induction l generalizing s with
  | nil => exact (Rests.refl s).staged
  | cons a l ih => exact (h s a).trans (ih _)

theorem part_modPart (s : State) (p k : Nat) (f : Part → Part) : (s.modPart p f).part k = if k = p then f (s.part p) else s.part k := by
  by_cases h : p = k
  · subst h
    rw [if_pos rfl, modPart_eq, part_setPart]
  · rw [if_neg (Ne.symm h), modPart_eq, part_setPart_ne _ _ h]

theorem staged_enterReset (s : State) (p : Nat) (after : PartMode) : Staged s (enterReset s p after) := by
  intro k
  rw [enterReset, part_modPart]
  by_cases hk : k = p
  · subst hk
    rw [if_pos rfl]
    split
    · exact ⟨rfl, .inl rfl⟩
    · exact ⟨rfl, .inr rfl⟩
  · rw [if_neg hk]
    exact ⟨rfl, .inl rfl⟩

theorem staged_abortCtx (s : State) (c epoch : Nat) (abort : Bool) : Staged s (abortCtx s c epoch abort) :=
  staged_ite (Rests.refl s).staged
    (((rests_postTo s _ _ _).trans (rests_bump _ _ _ _ _)).trans (rests_stopContext (postAborted s c epoch) c _ abort)).staged

theorem staged_fenceModule (s : State) (reason : Nat) : Staged s (fenceModule s reason) := by
  unfold fenceModule
  dsimp only
  refine staged_ite (Rests.refl s).staged (Staged.trans ?_ (rests_postTo _ _ _ _).staged)
  refine Staged.trans (Staged.trans (staged_forEach _ _ (fun _ _ => staged_abortCtx _ _ _ _) s) (staged_forEach _ (fun p t => enterReset t p .blocked)
    (fun t p => staged_enterReset t p .blocked) _)) (rests_tables rfl rfl rfl).staged

theorem staged_escalateCtx (s : State) : Staged s (escalateCtx s) := by
  have h (l : List Nat) : Staged s { s with care := { s.care with hardFaults := l } } := (rests_tables rfl rfl rfl).staged
  exact staged_ite ((h _).trans (staged_fenceModule _ _)) (h _)

theorem staged_escalatePart (s : State) : Staged s (escalatePart s) := by
  have h (l : List Nat) : Staged s { s with care := { s.care with partResets := l } } := (rests_tables rfl rfl rfl).staged
  exact staged_ite ((h _).trans (staged_fenceModule _ _)) (h _)

theorem staged_ctxFault (s : State) (c cause sec unit : Nat) (poison : Bool) : Staged s (ctxFault s c cause sec unit poison) := by
  by_cases ha : (s.ctx c).mode = .active
  · have hf : Rests s (atFault s c cause sec unit poison) :=
      (within_setFltLast s _ _ _ _ _ _ _ (Within.refl s) (Sub.refl _)).rests.trans (rests_postTo _ _ _ _)
    have h := (hf.trans (rests_stopContext _ c cause true)).staged
    rw [ctxFault_eq s c cause sec unit poison ha]
    exact staged_ite (h.trans (staged_escalateCtx _)) h
  · rw [ctxFault_of_ended s cause sec unit poison ha]
    exact (Rests.refl s).staged

/-! ### PARTITION_FATAL -/

/-- A partition reset's fault of one context leaves the others (R421): its cause is no hard fault. -/
theorem ctxFault_reset_ne (s : State) {c k : Nat} (sec : Nat) (h : k ≠ c) : (ctxFault s c 0x13 sec 0 false).ctx k = s.ctx k := by
  by_cases ha : (s.ctx c).mode = .active
  · have hw := (within_atFault s c 0x13 sec 0 false).same .ctxs (by decide)
    rw [ctxFault_eq s c _ sec 0 false ha, if_neg (by decide), (stopContext_ctx _ c _ true (by rw [ctx_same hw c, ha])).2 k h, ctx_same hw k]
  · rw [ctxFault_of_ended s _ sec 0 false ha]

/-- They leave each ACTIVE one of a list faulted. -/
theorem faulted_forEach (l : List Nat) (sec : Nat) (s : State) (c : Nat) (hc : c ∈ l) (ha : (s.ctx c).mode = .active) :
    Faulted (forEach l s (fun k t => ctxFault t k 0x13 sec 0 false)) c 0x13 := by
  induction l generalizing s with
  | nil => exact nomatch hc
  | cons k l ih =>
    show Faulted (forEach l (ctxFault s k 0x13 sec 0 false) _) c _
    by_cases hk : k = c
    · subst hk
      exact (faulted_ctxFault s k _ sec 0 false ha).stays (stays_forEach l _ (fun t k => stays_ctxFault t k 0x13 sec 0 false) _)
    · exact ih _ ((List.mem_cons.1 hc).resolve_left (Ne.symm hk)) (by rw [ctxFault_reset_ne s sec (Ne.symm hk), ha])

/-- The reset of an ACTIVE partition, begun (R421). -/
theorem beginPartReset_ends (s : State) (p sec : Nat) (after : PartMode) (hm : (s.part p).mode = .active) :
    ((beginPartReset s p sec after).part p).stage = .resetting ∧
      ∀ c, (s.ctx c).mode = .active → (s.ctx c).part = p → Faulted (beginPartReset s p sec after) c 0x13 := by
  have hs := staged_forEach (partCtxs s p) _ (fun t c => staged_ctxFault t c 0x13 sec 0 false) s
  refine ⟨?_, fun c ha hc => (faulted_forEach _ sec s c ?_ ha).stays (within_enterReset _ _ _ (Within.refl _) (Sub.refl _)).stays⟩
  · have hp := (hs p).1.trans hm
    rw [beginPartReset, enterReset, part_modPart, if_pos rfl, hp]
    rfl
  · refine mem_keysWhere (d := ({} : Ctx)) (f := fun x => x.mode != .free && x.part == p) ?_ rfl
    rw [show tabGet ({} : Ctx) s.objs.ctxs c = s.ctx c from rfl, ha, hc]
    exact beq_self_eq_true p

theorem stays_escalatePart (s : State) : Stays s (escalatePart s) := by
  have h (l : List Nat) : Stays s { s with care := { s.care with partResets := l } } := ⟨fun _ _ => rfl, fun _ => rfl⟩
  exact stays_ite ((h _).trans (stays_fenceModule _ _)) (h _)

theorem partitionFatal_none (sec : Nat) (cause : PartFatal) (s : State) (h : secPart s sec = none) : partitionFatalOp sec cause s = s := by
  rw [partitionFatalOp, h]

theorem partitionFatal_late (sec : Nat) (cause : PartFatal) (s : State) {p : Nat} (h : secPart s sec = some p)
    (hp : (s.part p).stage ≠ .none ∨ (s.part p).mode = .blocked) : partitionFatalOp sec cause s = s.modPart p (fun x =>
      if fatalAfter cause == .blocked then { x with afterReset := .blocked, mismatch := x.mode == .handover || x.mismatch } else x) := by
  rw [partitionFatalOp, h]
  exact if_pos (by simpa using hp)

theorem partitionFatal_first (sec : Nat) (cause : PartFatal) (s : State) {p : Nat} (h : secPart s sec = some p)
    (hs : (s.part p).stage = .none) (hm : (s.part p).mode = .active) : partitionFatalOp sec cause s =
      escalatePart (beginPartReset (setFltLast s 1 0x13 sec 0 0 p false) p sec (fatalAfter cause)) := by
  rw [partitionFatalOp, h]
  exact if_neg (by simp [hs, hm])

theorem partitionFatal_resets (sec : Nat) (cause : PartFatal) (s : State) {p : Nat} (h : secPart s sec = some p)
    (hs : (s.part p).stage = .none) (hm : (s.part p).mode = .active) : ((partitionFatalOp sec cause s).part p).stage = .resetting ∧
      ∀ c, (s.ctx c).mode = .active → (s.ctx c).part = p → Faulted (partitionFatalOp sec cause s) c 0x13 := by
  have hw := within_setFltLast s 1 0x13 sec 0 0 p false (Within.refl s) (Sub.refl _)
  obtain ⟨h1, h2⟩ := beginPartReset_ends (setFltLast s 1 0x13 sec 0 0 p false) p sec (fatalAfter cause)
    (by rw [parts_same (hw.same .parts (by decide)) p, hm])
  rw [partitionFatal_first sec cause s h hs hm]
  refine ⟨(staged_escalatePart _ p).2.elim (·.trans h1) id, fun c ha hc => (h2 c ?_ ?_).stays (stays_escalatePart _)⟩
  · rw [ctx_same (hw.same .ctxs (by decide)) c, ha]
  · rw [ctx_same (hw.same .ctxs (by decide)) c, hc]

/-! ### Bytes that are cleared -/

theorem memByte_zeroRange (s : State) (b n a : Nat) : memByte (zeroRange s b n) a = if b ≤ a ∧ a < b + n then 0 else memByte s a := by
  refine (tabGet_tabClear 0 (fun k => decide (b ≤ k) && decide (k < b + n)) s.mem.bytes a).trans ?_
  simp only [Bool.and_eq_true, decide_eq_true_eq]
  rfl

/-- Clearing more keeps a byte or makes it zero. -/
theorem memByte_zeroRange_or (s : State) (b n a : Nat) : memByte (zeroRange s b n) a = 0 ∨ memByte (zeroRange s b n) a = memByte s a := by
  rw [memByte_zeroRange]
  split
  · exact .inl rfl
  · exact .inr rfl

theorem memByte_same (h : t.mem.bytes = s.mem.bytes) (a : Nat) : memByte t a = memByte s a := congrArg (fun l => tabGet 0 l a) h

theorem memByte_clearLoam_or (s : State) (n a : Nat) : memByte (clearLoam s n) a = 0 ∨ memByte (clearLoam s n) a = memByte s a :=
  memByte_zeroRange_or (dropSection s n) _ _ a

theorem memByte_clearLoam (s : State) {n a : Nat} (h1 : loamAddr n 0 ≤ a) (h2 : a < loamAddr n 0 + loamBytes) : memByte (clearLoam s n) a = 0 :=
  (memByte_zeroRange _ _ _ a).trans (if_pos ⟨h1, h2⟩)

theorem core_clearUnits (s : State) (n k : Nat) : (clearUnits s n).core k = if k / 12 = n then {} else s.core k := by
  refine (tabGet_tabClear ({} : Core) (fun k => k / 12 == n) _ k).trans ?_
  simp only [beq_iff_eq]
  rfl

/-! ### PARTITION_RESET_DONE -/

/-- The sections of a partition, cleared in its reset (R420). -/
def sectionsReset (s : State) (p : Nat) : State :=
  forEach (maskSecs (s.part p).mask) (flushPart s p).1 (fun n t => clearLoam (resetSectionRegs (clearUnits t n) n) n)

/-- Its trace registers and models cleared too. -/
def modelsReset (s : State) (p : Nat) : State :=
  destroyModels ((sectionsReset s p).clearRegs (fun r i _ => i == p && traceRegs.contains r)) p

/-- And its other objects. -/
def objectsReset (s : State) (p : Nat) : State :=
  let t := modelsReset s p
  let o := t.objs
  { t with objs := { o with
    gates := tabClear (fun k => k / 64 == p) o.gates, tensors := tabClear (fun k => k / 4294967296 == p) o.tensors,
    comms := tabClear (fun k => (maskSecs (s.part p).mask).contains (k / 64)) o.comms } }

/-- What a reset leaves of the partition's own record. -/
def resetRecord (x : Part) : Part :=
  { x with table := none, drift := [], outlier := none, held := false, causes := [] }

theorem partResetOp_eq (s : State) (p : Nat) : partResetOp s p = ((objectsReset s p).modPart p resetRecord).bump fFltResetsPartition 0 0 1 := rfl

theorem rests_sectionsReset (s : State) (p : Nat) : Rests s (sectionsReset s p) :=
  (rests_flushPart s p).trans (rests_forEach _ (fun n t => clearLoam (resetSectionRegs (clearUnits t n) n) n) (fun t n =>
    (within_clearLoam _ _ (within_resetSectionRegs _ _ (within_clearUnits t n (Within.refl t) rfl) rfl) rfl : Within 165675064 t _).rests) _)

theorem within_modelsReset (s : State) (p : Nat) : Within 262152 (sectionsReset s p) (modelsReset s p) :=
  within_destroyModels _ _ (within_clearRegs _ _ (Within.refl _) rfl) rfl

/-- The objects go by themselves. -/
theorem within_objectsReset (s : State) (p : Nat) : Within 1245184 (modelsReset s p) (objectsReset s p) := by
  refine ⟨fun a ha => ?_⟩
  cases a
  case gates => exact noBit rfl (Sub.refl _) ha
  case tensors => exact noBit rfl (Sub.refl _) ha
  case comms => exact noBit rfl (Sub.refl _) ha
  all_goals rfl

/-- What follows the reset of the sections leaves functions, bytes and cores. -/
theorem within_afterSections (s : State) (p : Nat) : Within 1511432 (sectionsReset s p) (partResetOp s p) := by
  have h : Within 1511432 (sectionsReset s p) (objectsReset s p) :=
    (within_modelsReset s p).trans (within_objectsReset s p) rfl rfl
  exact within_bump _ _ _ _ _ (within_modPart _ _ _ h rfl) rfl

theorem part_partResetOp (s : State) (p : Nat) : (partResetOp s p).part p = resetRecord ((sectionsReset s p).part p) := by
  rw [partResetOp_eq, parts_same ((within_bump _ _ _ _ _ (Within.refl _) (Sub.refl _)).same .parts (by decide)) p, part_modPart, if_pos rfl,
    parts_same ((within_objectsReset s p).same .parts (by decide)) p, parts_same ((within_modelsReset s p).same .parts (by decide)) p]

/-- The record of a partition in reset keeps all but what the reset clears. -/
theorem part_reset_get {β : Type} (s : State) (p : Nat) (π : Part → β) (h1 : ∀ x, π (resetRecord x) = π x) (h2 : ∀ x, π (partRest x) = π x) :
    π ((partResetOp s p).part p) = π (s.part p) := by
  rw [part_partResetOp, h1, (rests_sectionsReset s p).part_get π h2]

theorem fn_partResetOp (s : State) (p f : Nat) : ((partResetOp s p).fn f).part = (s.fn f).part := by
  rw [fns_same ((within_afterSections s p).same .functions (by decide)) f]
  exact (rests_sectionsReset s p).fn_get (·.part) (fun _ => rfl) f

theorem core_same (h : Area.cores.same s t) (k : Nat) : t.core k = s.core k := congrArg (fun l => tabGet ({} : Core) l k) h

theorem core_partResetOp (s : State) {p k : Nat} (hk : k / 12 ∈ maskSecs (s.part p).mask) : (partResetOp s p).core k = {} := by
  rw [core_same ((within_afterSections s p).same .cores (by decide)) k]
  have hg (n : Nat) (t : State) : (clearLoam (resetSectionRegs (clearUnits t n) n) n).core k = if k / 12 = n then {} else t.core k :=
    core_clearUnits t n k
  refine forEach_idem (π := fun t : State => t.core k) (φ := fun _ => {}) (fun _ => rfl) (fun n _ t => ?_) hk (fun t => ?_) _
  · rw [hg]
    split
    · exact .inl rfl
    · exact .inr rfl
  · rw [hg, if_pos rfl]

theorem memByte_partResetOp (s : State) {p n a : Nat} (hn : n ∈ maskSecs (s.part p).mask) (h1 : loamAddr n 0 ≤ a)
    (h2 : a < loamAddr n 0 + loamBytes) : memByte (partResetOp s p) a = 0 := by
  rw [memByte_same (bytes_of_memory ((within_afterSections s p).same .memory (by decide))) a]
  refine forEach_idem (π := fun t => memByte t a) (φ := fun _ => 0) (fun _ => rfl) (fun n _ t => ?_) hn (fun t => memByte_clearLoam _ h1 h2) _
  exact memByte_clearLoam_or (resetSectionRegs (clearUnits t n) n) n a

theorem gate_partResetOp (s : State) (p : Nat) {g : Nat} (hg : g < 64) : (partResetOp s p).gate p g = {} := by
  refine (tabGet_tabClear ({} : Gate) (fun k => k / 64 == p) _ (p * 64 + g)).trans (if_pos ?_)
  rw [beq_iff_eq]
  omega

theorem tensor_partResetOp (s : State) (p : Nat) {id : Nat} (hi : id < 2 ^ 32) : (partResetOp s p).tensor p id = {} := by
  refine (tabGet_tabClear ({} : Tensor) (fun k => k / 4294967296 == p) _ (p * 4294967296 + id)).trans (if_pos ?_)
  rw [beq_iff_eq]
  omega

/-! ### The functions of a partition -/

theorem fn_releaseFns (s : State) (p : Nat) {f : Nat} (hf : f < 64) (hp : (s.fn f).part = some p) : ((releaseFns s p).fn f).part = none := by
  have hm : f ∈ partFns s p := List.mem_filter.2 ⟨List.mem_range.2 hf, by rw [hp]; exact beq_self_eq_true _⟩
  refine (forEach_get (π := fun t : State => (t.fn f).part) (v := none) (fun t => ?_) (fun a _ ha t => ?_) s).trans (if_pos hm)
  · rw [modFn_fn, if_pos rfl]
  · rw [modFn_fn, if_neg (Ne.symm ha)]

/-- The number of a destroyed partition, free, but for what waited for it. -/
def partFreed (s : State) (p : Nat) : State := pruneTokens ((releaseFns s p).setPart p {})

theorem freePart_frame (s : State) (p : Nat) : freePart s p = settle (partFreed s p) ∧ (partFreed s p).part p = {} ∧
    (∀ f, f < 64 → (s.fn f).part = some p → ((partFreed s p).fn f).part = none) ∧ Within 5248 s (partFreed s p) := by
  refine ⟨rfl, part_setPart _ _ _, fun f hf hp => fn_releaseFns s p hf hp, ?_⟩
  exact within_pruneTokens _ (within_setPart _ _ _ (within_releaseFns s p (Within.refl s) rfl) rfl) rfl

/-! ### How a reset ends -/

/-- The partition has stopped and is reset. -/
def resetDue (s : State) (p : Nat) : Prop :=
  (s.part p).stage = .resetting ∧ (partCtxs s p).all (fun c => (s.ctx c).mode != .stopping) = true

theorem resetDue.cond {p : Nat} (h : resetDue s p) :
    ¬ ((s.part p).stage != .resetting || (partCtxs s p).any (fun c => (s.ctx c).mode == .stopping)) = true := by
  rw [h.1, Bool.or_eq_true, not_or]
  refine ⟨by decide, fun ha => ?_⟩
  obtain ⟨c, hc, he⟩ := List.any_eq_true.1 ha
  exact absurd (List.all_eq_true.1 h.2 c hc) (by rw [eq_of_beq he]; decide)

theorem resetDone_handover {p : Nat} (h : resetDue s p) (hm : (s.part p).mode = .handover) : partitionResetDoneOp p s =
    startAutumn ((partResetOp s p).modPart p (fun y => { y with stage := .testing })) 4 (s.part p).mask coreBlocks := by
  rw [partitionResetDoneOp]
  dsimp only
  rw [if_neg h.cond, hm]

theorem resetDone_sealed {p : Nat} (h : resetDue s p) (hm : (s.part p).mode = .destroying) (hs : (s.part p).isSealed = true) :
    partitionResetDoneOp p s = (partResetOp s p).modPart p (fun y => { y with stage := .scrubbing }) := by
  rw [partitionResetDoneOp]
  dsimp only
  rw [if_neg h.cond, hm]
  exact if_pos hs

theorem resetDone_destroyed {p : Nat} (h : resetDue s p) (hm : (s.part p).mode = .destroying) (hs : (s.part p).isSealed = false) :
    partitionResetDoneOp p s = freePart (partResetOp s p) p := by
  rw [partitionResetDoneOp]
  dsimp only
  rw [if_neg h.cond, hm]
  exact if_neg (by rw [hs]; exact Bool.false_ne_true)

/-- A partition that is reset and goes on. -/
def resetEnded (s : State) (p : Nat) : State := (partResetOp s p).modPart p (fun y => { y with stage := .none, mode := (s.part p).afterReset })

theorem resetDone_active {p : Nat} (h : resetDue s p) (hm : (s.part p).mode = .active) : partitionResetDoneOp p s = settle (resetEnded s p) := by
  rw [partitionResetDoneOp]
  dsimp only
  rw [if_neg h.cond, hm]
  rfl

/-! ### SCRUB_COMPLETE -/

theorem within_scrubPart_flash (s : State) (p : Nat) : Within 199229488 s (scrubPart s p) := within_scrubPart s p (Within.refl s) (Sub.refl _)

/-- A section scrubbed (R390). -/
def sectionScrubbed (n : Nat) (t : State) : State :=
  forEach (secLinks n) (clearUnits (clearLoam (clearHbm t n) n) n) (fun l u => u.modLink l (fun x =>
    { x with rxStream := [], retry := [], waiting := [], behind := [], held := none }))

theorem memByte_sectionScrubbed (n : Nat) (t : State) (a : Nat) :
    memByte (sectionScrubbed n t) a = memByte (clearLoam (zeroRange t (n * sectionHbm) sectionHbm) n) a := by
  refine (forEach_keeps (π := fun t => memByte t a) (fun l _ u => ?_) _).trans ?_
  · rfl
  · rfl

theorem memByte_scrubPart (s : State) {p n a : Nat} (hn : n ∈ maskSecs (s.part p).mask) (h1 : n * sectionHbm ≤ a) (h2 : a < (n + 1) * sectionHbm) :
    memByte (scrubPart s p) a = 0 := by
  have hor (m : Nat) (t : State) : memByte (sectionScrubbed m t) a = 0 ∨ memByte (sectionScrubbed m t) a = memByte t a := by
    rw [memByte_sectionScrubbed]
    rcases memByte_clearLoam_or (zeroRange t (m * sectionHbm) sectionHbm) m a with h | h
    · exact .inl h
    · rw [h]
      exact memByte_zeroRange_or t _ _ a
  refine forEach_idem (g := sectionScrubbed) (π := fun t => memByte t a) (φ := fun _ => 0) (fun _ => rfl) (fun m _ t => hor m t) hn (fun t => ?_) s
  rw [memByte_sectionScrubbed]
  rcases memByte_clearLoam_or (zeroRange t (n * sectionHbm) sectionHbm) n a with h | h
  · exact h
  · rw [h, memByte_zeroRange, if_pos ⟨h1, by rwa [← Nat.succ_mul]⟩]

/-- A destroyed partition, scrubbed, with its record. -/
def scrubDestroyed (s : State) (p : Nat) : State := partFreed (appendHandover (scrubPart s p) (handoverRecord (scrubPart s p) p 2)) p

theorem scrubComplete_destroying {p : Nat} (hs : (s.part p).stage = .scrubbing) (hm : (s.part p).mode = .destroying) :
    scrubCompleteOp p s = settle (scrubDestroyed s p) := by
  rw [scrubCompleteOp]
  dsimp only
  rw [if_neg (by rw [hs]; decide), if_pos (by rw [hm]; rfl)]
  rfl

/-- The handover that a scrub counts. -/
def handoverCounted (s : State) : State := { s with flash := { s.flash with handovers := satAdd 32 s.flash.handovers 1 } }

/-- Its record, with the functions and models of the partition released. -/
def handoverLogged (s : State) (p : Nat) : State :=
  let t := handoverCounted (scrubPart s p)
  destroyModels (releaseFns (appendHandover t (handoverRecord t p (toBit (s.part p).mismatch))) p) p

/-- A handover's last state, before what waited for it goes on. -/
def handoverEnded (s : State) (p : Nat) : State :=
  (handoverLogged s p).modPart p (fun y => { y with
    stage := .none, mode := if y.mismatch then .blocked else .active, handovers := satAdd 32 y.handovers 1,
    lastHandoverUs := min (((handoverLogged s p).now - y.stageStart) / 1000) (2 ^ 32 - 1) })

theorem scrubComplete_handover {p : Nat} (hs : (s.part p).stage = .scrubbing) (hm : (s.part p).mode ≠ .destroying) :
    scrubCompleteOp p s = settle (handoverEnded s p) := by
  rw [scrubCompleteOp]
  dsimp only
  rw [if_neg (by rw [hs]; decide), if_neg (by simpa using hm)]
  rfl

theorem handoverRecord_congr {p : Nat} (hp : t.part p = s.part p) (hf : t.flash.handovers = s.flash.handovers)
    (hn : t.module.timeNs = s.module.timeNs) (r : Nat) : handoverRecord t p r = handoverRecord s p r := by
  unfold handoverRecord State.now
  rw [hp, hf, hn]

theorem scrubPart_flash (s : State) (p : Nat) : (scrubPart s p).flash = s.flash :=
  flash_same ((within_scrubPart_flash s p).same .flash (by decide)) ((within_scrubPart_flash s p).same .fuses (by decide))

theorem scrubPart_record (s : State) (p r : Nat) : handoverRecord (scrubPart s p) p r = handoverRecord s p r :=
  have h := within_scrubPart_flash s p
  handoverRecord_congr (parts_same (h.same .parts (by decide)) p) (congrArg Flash.handovers (scrubPart_flash s p))
    (congrArg Module.timeNs (h.same .module (by decide))) r

theorem handoverRecord_counted (s : State) (p r : Nat) : handoverRecord (handoverCounted (scrubPart s p)) p r = handoverRecord
    { s with flash := { s.flash with handovers := min (s.flash.handovers + 1) (2 ^ 32 - 1) } } p r := by
  have h := within_scrubPart_flash s p
  refine handoverRecord_congr (s := { s with flash := { s.flash with handovers := min (s.flash.handovers + 1) (2 ^ 32 - 1) } })
    (t := handoverCounted (scrubPart s p)) (parts_same (h.same .parts (by decide)) p) ?_ (congrArg Module.timeNs (h.same .module (by decide))) r
  show satAdd 32 (scrubPart s p).flash.handovers 1 = _
  rw [scrubPart_flash]
  rfl

/-- A destruction's scrub. -/
theorem scrubDestroyed_ends (s : State) (p : Nat) : (scrubDestroyed s p).part p = {} ∧
    (scrubDestroyed s p).flash.handoverLog = s.flash.handoverLog ++ [handoverRecord s p 2] ∧
    (∀ f, f < 64 → (s.fn f).part = some p → ((scrubDestroyed s p).fn f).part = none) ∧
    (∀ n a, n ∈ maskSecs (s.part p).mask → n * sectionHbm ≤ a → a < (n + 1) * sectionHbm → memByte (scrubDestroyed s p) a = 0) := by
  obtain ⟨-, hp, hf, hw⟩ := freePart_frame (appendHandover (scrubPart s p) (handoverRecord (scrubPart s p) p 2)) p
  refine ⟨hp, ?_, fun f hl hfp => hf f hl ?_, fun n a hn h1 h2 => ?_⟩
  · rw [scrubDestroyed, flash_same (hw.same .flash (by decide)) (hw.same .fuses (by decide)), scrubPart_record]
    show (scrubPart s p).flash.handoverLog ++ _ = _
    rw [scrubPart_flash]
  · show ((scrubPart s p).fn f).part = _
    rw [fns_same ((within_scrubPart_flash s p).same .functions (by decide)) f, hfp]
  · rw [scrubDestroyed, memByte_same (bytes_of_memory (hw.same .memory (by decide))) a]
    exact memByte_scrubPart s hn h1 h2

theorem within_handoverEnded (s : State) (p : Nat) :
    Within 266240 (releaseFns (appendHandover (handoverCounted (scrubPart s p))
      (handoverRecord (handoverCounted (scrubPart s p)) p (toBit (s.part p).mismatch))) p) (handoverEnded s p) :=
  within_modPart _ _ _ (within_destroyModels _ _ (Within.refl _) rfl) rfl

theorem part_handoverLogged (s : State) (p : Nat) : (handoverLogged s p).part p = s.part p := by
  rw [handoverLogged, parts_same ((within_destroyModels _ p (within_releaseFns _ p (Within.refl _) rfl) rfl : Within 262272 _ _).same .parts
    (by decide)) p]
  exact parts_same ((within_scrubPart_flash s p).same .parts (by decide)) p

theorem flash_handoverEnded (s : State) (p : Nat) : (handoverEnded s p).flash = (appendHandover (handoverCounted (scrubPart s p))
    (handoverRecord (handoverCounted (scrubPart s p)) p (toBit (s.part p).mismatch))).flash := by
  have h := within_handoverEnded s p
  have g := within_releaseFns (appendHandover (handoverCounted (scrubPart s p))
      (handoverRecord (handoverCounted (scrubPart s p)) p (toBit (s.part p).mismatch))) p (Within.refl _) (Sub.refl _)
  rw [flash_same (h.same .flash (by decide)) (h.same .fuses (by decide)), flash_same (g.same .flash (by decide)) (g.same .fuses (by decide))]

/-- A handover's scrub. -/
theorem handoverEnded_ends (s : State) (p : Nat) :
    ((handoverEnded s p).part p).mode = (if (s.part p).mismatch then .blocked else .active) ∧ ((handoverEnded s p).part p).stage = .none ∧
    ((handoverEnded s p).part p).handovers = min ((s.part p).handovers + 1) (2 ^ 32 - 1) ∧
    (handoverEnded s p).flash.handovers = min (s.flash.handovers + 1) (2 ^ 32 - 1) ∧
    (handoverEnded s p).flash.handoverLog = s.flash.handoverLog ++ [handoverRecord { s with flash := { s.flash with
      handovers := min (s.flash.handovers + 1) (2 ^ 32 - 1) } } p (toBit (s.part p).mismatch)] ∧
    (∀ f, f < 64 → (s.fn f).part = some p → ((handoverEnded s p).fn f).part = none) ∧
    (∀ n a, n ∈ maskSecs (s.part p).mask → n * sectionHbm ≤ a → a < (n + 1) * sectionHbm → memByte (handoverEnded s p) a = 0) := by
  have h := within_handoverEnded s p
  have hpart : (handoverEnded s p).part p = _ := (part_modPart _ p p _).trans (if_pos rfl)
  rw [hpart, part_handoverLogged, flash_handoverEnded, handoverRecord_counted]
  refine ⟨rfl, rfl, rfl, ?_, ?_, fun f hf hp => ?_, fun n a hn h1 h2 => ?_⟩
  · show satAdd 32 (scrubPart s p).flash.handovers 1 = _
    rw [scrubPart_flash]
    rfl
  · show (scrubPart s p).flash.handoverLog ++ _ = _
    rw [scrubPart_flash]
  · rw [fns_same (h.same .functions (by decide)) f]
    refine fn_releaseFns _ p hf ?_
    show ((scrubPart s p).fn f).part = _
    rw [fns_same ((within_scrubPart_flash s p).same .functions (by decide)) f, hp]
  · rw [memByte_same (bytes_of_memory (h.same .memory (by decide))) a, memByte_same (bytes_of_memory ((within_releaseFns _ p (Within.refl _)
      (Sub.refl _)).same .memory (by decide))) a]
    exact memByte_scrubPart s hn h1 h2

/-! ### The resets of partitions -/

/-- PARTITION_FATAL (R421). -/
theorem partitionFatal_ends (sec : Sec) (cause : PartFatal) (s : State) :
    (secPart s sec.val = none → exec (.partitionFatal sec cause) s = .next s) ∧
    (∀ p, secPart s sec.val = some p → ((s.part p).stage ≠ .none ∨ (s.part p).mode = .blocked) →
      ∃ t, exec (.partitionFatal sec cause) s = .next t ∧ (fatalAfter cause = .blocked → (t.part p).afterReset = .blocked) ∧
        (∀ k, k ≠ p → t.part k = s.part k) ∧ Only [.parts] s t) ∧
    (∀ p, secPart s sec.val = some p → (s.part p).stage = .none → (s.part p).mode = .active →
      ∃ t, exec (.partitionFatal sec cause) s = .next t ∧ (t.part p).stage = .resetting ∧
        ∀ c, (s.ctx c).mode = .active → (s.ctx c).part = p → Faulted t c 0x13) := by
  refine ⟨fun h => next_congr (partitionFatal_none _ _ _ h), fun p h hp => ⟨_, next_congr (partitionFatal_late _ cause s h hp), fun hb => ?_,
    fun k hk => ?_, only_of_within (within_modPart _ _ _ (Within.refl s) rfl)⟩, fun p h hs hm => ?_⟩
  · rw [part_modPart, if_pos rfl, hb]
    rfl
  · rw [part_modPart, if_neg hk]
  · exact ⟨_, rfl, partitionFatal_resets sec.val cause s h hs hm⟩

/-- PARTITION_RESET_DONE of a partition that goes on (R420). -/
theorem resetEnded_ends (s : State) (p : Nat) :
    ((resetEnded s p).part p).mode = (s.part p).afterReset ∧ ((resetEnded s p).part p).stage = .none ∧
    ((resetEnded s p).part p).table = none ∧ ((resetEnded s p).part p).held = false ∧ ((resetEnded s p).part p).causes = [] ∧
    (∀ g, g < 64 → ((resetEnded s p).gate p g).present = false) ∧ (∀ id, id < 2 ^ 32 → ((resetEnded s p).tensor p id).present = false) ∧
    (∀ k, k / 12 ∈ maskSecs (s.part p).mask → (resetEnded s p).core k = {}) ∧
    (∀ n a, n ∈ maskSecs (s.part p).mask → loamAddr n 0 ≤ a → a < loamAddr n 0 + loamBytes → memByte (resetEnded s p) a = 0) := by
  have hpart : (resetEnded s p).part p = _ := (part_modPart _ p p _).trans (if_pos rfl)
  have hw : Within 4096 (partResetOp s p) (resetEnded s p) := within_modPart _ _ _ (Within.refl _) rfl
  rw [hpart, part_partResetOp]
  refine ⟨rfl, rfl, rfl, rfl, rfl, fun g hg => ?_, fun id hi => ?_, fun k hk => ?_, fun n a hn h1 h2 => ?_⟩
  · rw [gate_same (hw.same .gates (by decide)), gate_partResetOp s p hg]
  · rw [tensor_same (hw.same .tensors (by decide)), tensor_partResetOp s p hi]
  · rw [core_same (hw.same .cores (by decide)), core_partResetOp s hk]
  · rw [memByte_same (bytes_of_memory (hw.same .memory (by decide))), memByte_partResetOp s hn h1 h2]

/-- PARTITION_RESET_DONE of a partition that is handed over or destroyed (R389, R390). -/
theorem resetDone_leaves (p : PartId) (s : State) (h : resetDue s p.val) :
    ((s.part p.val).mode = .handover → ∃ t, exec (.partitionResetDone p) s = .next t ∧ (t.part p.val).stage = .testing) ∧
    ((s.part p.val).mode = .destroying → (s.part p.val).isSealed = true →
      ∃ t, exec (.partitionResetDone p) s = .next t ∧ (t.part p.val).stage = .scrubbing) ∧
    ((s.part p.val).mode = .destroying → (s.part p.val).isSealed = false →
      ∃ u, exec (.partitionResetDone p) s = .next (settle u) ∧ u.part p.val = {} ∧
        (∀ f, f < 64 → (s.fn f).part = some p.val → (u.fn f).part = none)) := by
  refine ⟨fun hm => ⟨_, next_congr (resetDone_handover h hm), ?_⟩, fun hm hs => ⟨_, next_congr (resetDone_sealed h hm hs), ?_⟩, fun hm hs => ?_⟩
  · rw [parts_same ((within_startAutumn _ _ _ _ (Within.refl _) (Sub.refl _)).same .parts (by decide)) p.val, part_modPart, if_pos rfl]
  · rw [part_modPart, if_pos rfl]
  · obtain ⟨he, hp, hf, -⟩ := freePart_frame (partResetOp s p.val) p.val
    exact ⟨_, next_congr ((resetDone_destroyed h hm hs).trans he), hp, fun f hl hfp => hf f hl ((fn_partResetOp s _ f).trans hfp)⟩

/-- Settles O46: only the first fatal cause of a partition begins its reset, a reset clears what the next tenant must not find, and a scrub
ends with its record. -/
theorem partitionResets : Obligations.PartitionResets := by
  unfold Obligations.PartitionResets
  refine ⟨partitionFatal_ends, fun p s h => next_congr (if_pos ?_), fun p s hs hc => resetDone_leaves p s ⟨hs, hc⟩,
    fun p s hs hm hc => ⟨resetEnded s p.val, next_congr (resetDone_active ⟨hs, hc⟩ hm), resetEnded_ends s p.val⟩,
    fun p s h => next_congr (if_pos (by simpa using h)), fun p s hs => ⟨fun hm => ?_, fun hm => ?_⟩⟩
  · rcases h with h | h <;> simp [h]
  · exact ⟨_, next_congr (scrubComplete_handover hs hm), handoverEnded_ends s p.val⟩
  · exact ⟨_, next_congr (scrubComplete_destroying hs hm), scrubDestroyed_ends s p.val⟩

end Sys2Proof.Machine
end

section
/-! GRAVEL_SLICE_START, GRAVEL_SLICE_END, GRAVEL_SLICE_ABANDON and WITNESS_SLICE (R245, R453 to R459). -/

namespace Sys2Proof.Machine

variable {s t u : State} {n : Nat}

/-! ### The rotation -/

theorem Counted.kept {f : RField} {i j m : Nat} (h : Counted s t f i j m) (e : u.fld f i j = t.fld f i j) : Counted s u f i j m := e.trans h

theorem Counted.since {f : RField} {i j m : Nat} (h : Counted t u f i j m) (e : t.fld f i j = s.fld f i j) : Counted s u f i j m := by
  rw [Counted, ← e]
  exact h

theorem gravel_same (h : Area.care.same s t) (n : Nat) : t.gravel n = s.gravel n := by
  unfold State.gravel
  rw [show t.care = s.care from h]

theorem gravel_modGravel (s : State) (n : Nat) (f : Gravel → Gravel) : (s.modGravel n f).gravel n = f (s.gravel n) := gravel_setGravel _ _ _

theorem health_modGravel (s : State) (n u : Nat) (f : Gravel → Gravel) : (s.modGravel n f).health u = s.health u := rfl

/-- A field that the rotation does not move. -/
def OffRotation (g : RField) : Prop :=
  .hltGravelPos ≠ g.reg ∨ FieldsApart fHltGravelPosNext g ∧ FieldsApart fHltGravelPosRotation g

theorem fld_setPos (s : State) (hn : n < 8) {f g : RField} (v : Nat) (hf : f.reg = .hltGravelPos) (h : .hltGravelPos ≠ g.reg ∨ FieldsApart f g) :
    (s.setFld f n 0 v).fld g n 0 = s.fld g n 0 := by
  rcases h with h | h
  · exact fld_setFld_name s v (by rwa [hf]) ⟨by omega, by decide⟩ ⟨by omega, by decide⟩
  · exact fld_setFld_apart s n 0 v h

theorem fld_nextSlice (s : State) (hn : n < 8) {g : RField} (h : OffRotation g) : (nextSlice s n).fld g n 0 = s.fld g n 0 := by
  have hnext (t : State) (v : Nat) : (t.setFld fHltGravelPosNext n 0 v).fld g n 0 = t.fld g n 0 :=
    fld_setPos t hn v rfl (h.imp_right And.left)
  unfold nextSlice
  dsimp only
  split
  · exact hnext _ _
  · exact (fld_setPos _ hn _ rfl (h.imp_right And.right)).trans (hnext _ _)

/-- What a rotation leaves of the slices of its section. -/
theorem gravel_nextSlice (s : State) (n : Nat) : (nextSlice s n).gravel n = s.gravel n ∨
    (nextSlice s n).gravel n = { s.gravel n with
      rotation := (s.gravel n).rotation + 1, owed := (s.gravel n).owed ++ (s.gravel n).next, next := [] } := by
  unfold nextSlice
  dsimp only
  split
  · exact .inl rfl
  · exact .inr (gravel_modGravel _ _ _)

theorem running_nextSlice (s : State) (n : Nat) : ((nextSlice s n).gravel n).running = (s.gravel n).running := by
  rcases gravel_nextSlice s n with h | h <;> rw [h]

theorem mem_nextSlice (s : State) (n : Nat) {e : Nat × Nat} (h : e ∈ (s.gravel n).next ++ (s.gravel n).owed) :
    e ∈ ((nextSlice s n).gravel n).next ++ ((nextSlice s n).gravel n).owed := by
  rcases gravel_nextSlice s n with hn | hn <;> rw [hn]
  · exact h
  · rw [List.nil_append]
    exact List.mem_append.2 (List.mem_append.1 h).symm

theorem health_nextSlice (s : State) (n u : Nat) : (nextSlice s n).health u = s.health u := by
  unfold nextSlice
  dsimp only
  split <;> rfl

/-! ### The unit of a slice -/

/-- The core whose unit a slice tests. -/
def sliceCore (n j : Nat) : Nat := 12 * n + (sliceUnit j).2.1

theorem core_modCore (s : State) (k : Nat) (f : Core → Core) : (s.modCore k f).core k = f (s.core k) := core_setCore _ _ _

/-- What a slice sets of its unit. -/
def sliceSets (j : Nat) (v : UnitState) (x : Core) : Core := { x with units := tabSet .idle x.units (sliceUnit j).2.2 v }

theorem coreUnit_sliceSets (s : State) (k j : Nat) (v : UnitState) : coreUnit (s.modCore k (sliceSets j v)) k (sliceUnit j).2.2 = v := by
  rw [coreUnit, core_modCore]
  exact tabGet_tabSet_same _ _ _ _

/-- A slice, begun on the module's care of it. -/
def sliceBegun (j corner : Nat) (inOrder : Bool) (g : Gravel) : Gravel :=
  { g with running := some (j, corner), inOrder := inOrder, waited := false, witnessSlice := (sliceUnit j).1 == 4,
           owed := if inOrder then g.owed else g.owed.tail }

theorem beginSlice_eq (s : State) (n j corner : Nat) (inOrder : Bool) : beginSlice s n j corner inOrder =
    if (sliceUnit j).1 = 4 then s.modGravel n (sliceBegun j corner inOrder)
    else (s.modGravel n (sliceBegun j corner inOrder)).modCore (sliceCore n j) (sliceSets j .gravel) := rfl

/-- A slice, ended. -/
def sliceEnded (g : Gravel) : Gravel := { g with running := none, witnessSlice := false }

theorem endSlice_eq (s : State) (n j : Nat) : endSlice s n j = if (sliceUnit j).1 = 4 then s.modGravel n sliceEnded
    else (s.modGravel n sliceEnded).modCore (sliceCore n j) (sliceSets j .idle) := rfl

theorem beginSlice_frame (s : State) (n j corner : Nat) (inOrder : Bool) :
    (beginSlice s n j corner inOrder).gravel n = sliceBegun j corner inOrder (s.gravel n) ∧
    ((sliceUnit j).1 ≠ 4 → coreUnit (beginSlice s n j corner inOrder) (sliceCore n j) (sliceUnit j).2.2 = .gravel) ∧
    (∀ k, k ≠ sliceCore n j → (beginSlice s n j corner inOrder).core k = s.core k) := by
  rw [beginSlice_eq]
  split
  next h => exact ⟨gravel_modGravel _ _ _, fun h' => absurd h h', fun _ _ => rfl⟩
  next => exact ⟨gravel_modGravel _ _ _, fun _ => coreUnit_sliceSets _ _ _ _, fun k hk => core_setCore_ne _ _ (Ne.symm hk)⟩

theorem endSlice_frame (s : State) (n j : Nat) : (endSlice s n j).gravel n = sliceEnded (s.gravel n) ∧
    ((sliceUnit j).1 ≠ 4 → coreUnit (endSlice s n j) (sliceCore n j) (sliceUnit j).2.2 = .idle) ∧
    (∀ u, (endSlice s n j).health u = s.health u) := by
  rw [endSlice_eq]
  split
  next h => exact ⟨gravel_modGravel _ _ _, fun h' => absurd h h', fun _ => rfl⟩
  next => exact ⟨gravel_modGravel _ _ _, fun _ => coreUnit_sliceSets _ _ _ _, fun _ => rfl⟩

/-! ### GRAVEL_SLICE_START -/

/-- The next slice of a section, owed or in order: its number, its corner, and whether it is in order. -/
def dueSlice (s : State) (n : Nat) : Nat × Nat × Bool :=
  match (s.gravel n).owed with
  | e :: _ => (e.1, e.2, false)
  | [] => (s.fld fHltGravelPosNext n 0, rotationCorner s n, true)

/-- A slice of the section may start. -/
def sliceMay (s : State) (n : Nat) : Bool :=
  sliceSection s n && (s.gravel n).running.isNone && !(s.gravel n).witnessSlice && s.fld fHltGravelCfgCorners n 0 != 0

/-- A slice that is missed for want of a window (R455). -/
def sliceMissed (s : State) (n : Nat) (inOrder : Bool) : State :=
  let t := s.bump fHltGravelCornerMissed n 0 1
  if inOrder then nextSlice t n else t.modGravel n (fun g => { g with owed := g.owed.tail })

/-- A slice whose unit is idle: it starts, or waits one period for its corner. -/
def sliceGoes (s : State) (n : Nat) (x : Nat × Nat × Bool) (a b : Nat) : State :=
  if cornerHolds s n x.2.1 a b then beginSlice s n x.1 x.2.1 x.2.2
  else if (s.gravel n).waited then beginSlice (s.bump fHltGravelCornerMissed n 0 1) n x.1 0 x.2.2
  else s.modGravel n (fun g => { g with waited := true })

theorem sliceStartOp_eq (n a b : Nat) (s : State) : sliceStartOp n a b s =
    if sliceMay s n = false then s
    else if (inWinter s n && !sliceWindow s n (dueSlice s n).1) = true then sliceMissed s n (dueSlice s n).2.2
    else if (sliceReady s n (dueSlice s n).1 && sliceNow s n (dueSlice s n).1) = false then s
    else sliceGoes s n (dueSlice s n) a b := by
  have hmay : (!sliceSection s n || (s.gravel n).running.isSome || (s.gravel n).witnessSlice || s.fld fHltGravelCfgCorners n 0 == 0) =
      !sliceMay s n := by
    cases h : (s.gravel n).running <;> simp [sliceMay, h, Bool.not_and, bne]
  have hnow (x y : Bool) : (!x || !y) = true ↔ (x && y) = false := by cases x <;> cases y <;> decide
  rw [sliceStartOp]
  refine if_congr (by rw [hmay, Bool.not_eq_true']) rfl ?_
  unfold dueSlice
  cases (s.gravel n).owed with
  | nil => exact if_congr Iff.rfl rfl (if_congr (hnow _ _) rfl rfl)
  | cons e l => exact if_congr Iff.rfl rfl (if_congr (hnow _ _) rfl rfl)

theorem counted_cornerMissed (s : State) (n : Nat) : Counted s (s.bump fHltGravelCornerMissed n 0 1) fHltGravelCornerMissed n 0 1 :=
  fld_bump_same s _ _ _ _ (by decide) (by decide)

theorem sliceMissed_ends (s : State) (hn : n < 8) (inOrder : Bool) :
    Counted s (sliceMissed s n inOrder) fHltGravelCornerMissed n 0 1 ∧ Only [.care, .registers] s (sliceMissed s n inOrder) := by
  refine ⟨(counted_cornerMissed s n).kept ?_, ?_⟩
  · cases inOrder
    · exact fld_congr ((within_modGravel _ n (fun g => { g with owed := g.owed.tail }) (Within.refl (s.bump fHltGravelCornerMissed n 0 1)) (Sub.refl _)).same .registers (by decide)) _ _ _
    · rw [sliceMissed, if_pos rfl]
      exact fld_nextSlice _ hn (.inl (by decide))
  · have h : Within 134217736 s (s.bump fHltGravelCornerMissed n 0 1) := within_bump _ _ _ _ _ (Within.refl s) rfl
    exact only_of_within (within_ite (within_nextSlice _ _ h rfl) (within_modGravel _ _ _ h rfl))

/-- A slice in order is owed nothing. -/
theorem owed_dueSlice (s : State) (n : Nat) : (if (dueSlice s n).2.2 then (s.gravel n).owed else (s.gravel n).owed.tail) = (s.gravel n).owed.tail := by
  unfold dueSlice
  cases ho : (s.gravel n).owed <;> rfl

/-- A slice that starts (R454 to R456). -/
theorem sliceGoes_starts (s : State) (n a b : Nat) (h : cornerHolds s n (dueSlice s n).2.1 a b = true ∨ (s.gravel n).waited = true) :
    (sliceGoes s n (dueSlice s n) a b).gravel n = { s.gravel n with
      running := some ((dueSlice s n).1, if cornerHolds s n (dueSlice s n).2.1 a b then (dueSlice s n).2.1 else 0), inOrder := (dueSlice s n).2.2,
      waited := false, witnessSlice := (sliceUnit (dueSlice s n).1).1 == 4, owed := (s.gravel n).owed.tail } ∧
    ((sliceUnit (dueSlice s n).1).1 ≠ 4 →
      coreUnit (sliceGoes s n (dueSlice s n) a b) (sliceCore n (dueSlice s n).1) (sliceUnit (dueSlice s n).1).2.2 = .gravel) ∧
    (cornerHolds s n (dueSlice s n).2.1 a b = false → Counted s (sliceGoes s n (dueSlice s n) a b) fHltGravelCornerMissed n 0 1) ∧
    (∀ k, k ≠ sliceCore n (dueSlice s n).1 → (sliceGoes s n (dueSlice s n) a b).core k = s.core k) ∧
    Only [.care, .cores, .registers] s (sliceGoes s n (dueSlice s n) a b) := by
  have ho := owed_dueSlice s n
  unfold sliceGoes
  generalize dueSlice s n = x at *
  cases hc : cornerHolds s n x.2.1 a b
  · rw [if_neg Bool.false_ne_true, if_pos (h.resolve_left (by rw [hc]; exact Bool.false_ne_true))]
    obtain ⟨hg, hu, hk⟩ := beginSlice_frame (s.bump fHltGravelCornerMissed n 0 1) n x.1 0 x.2.2
    have hw : Within 136314888 s (beginSlice (s.bump fHltGravelCornerMissed n 0 1) n x.1 0 x.2.2) :=
      within_beginSlice _ _ _ _ _ (within_bump _ _ _ _ _ (Within.refl s) rfl) rfl
    refine ⟨hg.trans ?_, hu, fun _ => (counted_cornerMissed s n).after ?_, hk, only_of_within hw⟩
    · rw [sliceBegun, if_neg Bool.false_ne_true]
      exact congrArg (fun o => { s.gravel n with
        running := some (x.1, 0), inOrder := x.2.2, waited := false, witnessSlice := (sliceUnit x.1).1 == 4, owed := o }) ho
    · exact (within_beginSlice _ _ _ _ _ (Within.refl _) (Sub.refl _)).same .registers (by decide)
  · rw [if_pos rfl]
    obtain ⟨hg, hu, hk⟩ := beginSlice_frame s n x.1 x.2.1 x.2.2
    have hw : Within 136314888 s (beginSlice s n x.1 x.2.1 x.2.2) := within_beginSlice _ _ _ _ _ (Within.refl s) rfl
    refine ⟨hg.trans ?_, hu, fun h => Bool.noConfusion h, hk, only_of_within hw⟩
    rw [sliceBegun, if_pos rfl, ho]

/-- A slice that waits for its corner (R456). -/
theorem sliceGoes_waits (s : State) (n a b : Nat) (h : cornerHolds s n (dueSlice s n).2.1 a b = false) (hw : (s.gravel n).waited = false) :
    (sliceGoes s n (dueSlice s n) a b).gravel n = { s.gravel n with waited := true } ∧ Only [.care] s (sliceGoes s n (dueSlice s n) a b) := by
  rw [sliceGoes, h, hw, if_neg Bool.false_ne_true, if_neg Bool.false_ne_true]
  exact ⟨gravel_modGravel _ _ _, only_of_within (within_modGravel _ _ _ (Within.refl s) rfl)⟩

/-- GRAVEL_SLICE_START (R453 to R456). -/
theorem sliceStart_ends (sec : Sec) (a b : Half) (s : State) :
    (sliceMay s sec.val = false → exec (.gravelSliceStart sec a b) s = .next s) ∧
    (sliceMay s sec.val = true → (!(inWinter s sec.val) || sliceWindow s sec.val (dueSlice s sec.val).1) = false →
      ∃ t, exec (.gravelSliceStart sec a b) s = .next t ∧ Counted s t fHltGravelCornerMissed sec.val 0 1 ∧ Only [.care, .registers] s t) ∧
    (sliceMay s sec.val = true → (!(inWinter s sec.val) || sliceWindow s sec.val (dueSlice s sec.val).1) = true →
      (sliceReady s sec.val (dueSlice s sec.val).1 && sliceNow s sec.val (dueSlice s sec.val).1) = false →
      exec (.gravelSliceStart sec a b) s = .next s) ∧
    (sliceMay s sec.val = true → (!(inWinter s sec.val) || sliceWindow s sec.val (dueSlice s sec.val).1) = true →
      (sliceReady s sec.val (dueSlice s sec.val).1 && sliceNow s sec.val (dueSlice s sec.val).1) = true →
      exec (.gravelSliceStart sec a b) s = .next (sliceGoes s sec.val (dueSlice s sec.val) a.toNat b.toNat)) := by
  have he := congrArg Host.Outcome.next (sliceStartOp_eq sec.val a.toNat b.toNat s) (β := Host.Outcome State Fault Refusal)
  have hroom (x y : Bool) : (x && !y) = !(!x || y) := by cases x <;> cases y <;> decide
  rw [hroom] at he
  refine ⟨fun hm => he.trans ?_, fun hm hr =>
    ⟨sliceMissed s sec.val (dueSlice s sec.val).2.2, he.trans ?_, sliceMissed_ends s sec.isLt _⟩, fun hm hr hn => he.trans ?_, fun hm hr hn => he.trans ?_⟩
  · rw [if_pos hm]
  · rw [hm, if_neg (by decide), hr, if_pos (show (!false) = true from rfl)]
  · rw [hm, if_neg (by decide), hr, if_neg (by decide), if_pos hn]
  · rw [hm, if_neg (by decide), hr, if_neg (by decide), hn, if_neg (by decide)]

/-! ### Mismatches -/

theorem sliceUnit_core (j : Nat) : (sliceUnit j).2.1 < 12 := by
  unfold sliceUnit
  split
  · dsimp only
    omega
  · split
    · dsimp only
      omega
    · split
      · dsimp only
        omega
      · decide

/-- The unit whose score a slice's mismatch raises. -/
def sliceHealth (n j : Nat) : Nat := if (sliceUnit j).1 = 4 then huSection n else huCore (sliceCore n j)

theorem sliceHealth_lt (hn : n < 8) (j : Nat) : sliceHealth n j < 1024 := by
  have := sliceUnit_core j
  unfold sliceHealth huSection huCore sliceCore
  split <;> omega

/-- A mismatch that repeats, noted and counted, its core watched. -/
def mismatchSeen (s : State) (n j corner : Nat) (cond : Word) : State :=
  let t := (noteMismatch s n j corner true cond).bump fHltGravelMismatch n 0 1
  if (sliceUnit j).1 = 4 then t else t.setFld fHltGravelPosWatch n 0 (t.fld fHltGravelPosWatch n 0 ||| 2 ^ (sliceUnit j).2.1)

theorem mismatched_once (s : State) (n j corner : Nat) (cond : Word) :
    mismatched s n j corner false cond = (noteMismatch s n j corner false cond).bump fHltGravelTransient n 0 1 := rfl

theorem mismatched_twice (s : State) (n j corner : Nat) (cond : Word) :
    mismatched s n j corner true cond = healthEvent (mismatchSeen s n j corner cond) (sliceHealth n j) 18 10000 := rfl

theorem regsBut_noteMismatch (s : State) (hn : n < 8) (j corner : Nat) (again : Bool) (cond : Word) :
    RegsBut [.hltGravelLast, .hltGravelCond] s (noteMismatch s n j corner again cond) :=
  have hb : n < 64 := by omega
  (regsBut_setRaw s (a := ⟨.hltGravelLast, n, 0⟩) _ (.head _) hb (show 0 < 1024 by decide)).trans
    (regsBut_setRaw _ (a := ⟨.hltGravelCond, n, 0⟩) _ (.tail _ (.head _)) hb (show 0 < 1024 by decide))

theorem fld_noteMismatch (s : State) (hn : n < 8) (j corner : Nat) (again : Bool) (cond : Word) {g : RField}
    (h : g.reg ∉ [RegName.hltGravelLast, .hltGravelCond]) : (noteMismatch s n j corner again cond).fld g n 0 = s.fld g n 0 :=
  (regsBut_noteMismatch s hn j corner again cond).fld h (by omega) (by decide)

/-- The registers that a mismatch leaves: its section's counts and position change only in the fields named. -/
theorem fld_mismatched (s : State) (hn : n < 8) (j corner : Nat) (again : Bool) (cond : Word) {g : RField}
    (h : g.reg ∉ [RegName.hltGravelLast, .hltGravelCond, .hltUnit, .mbxOutStatus]) (h1 : .hltGravel ≠ g.reg)
    (h2 : .hltGravelPos ≠ g.reg ∨ FieldsApart fHltGravelPosWatch g) : (mismatched s n j corner again cond).fld g n 0 = s.fld g n 0 := by
  have hb : n < 64 ∧ 0 < 1024 := ⟨by omega, by decide⟩
  have hnote := fld_noteMismatch s hn j corner again cond (g := g) fun hm => h (by
    rcases List.mem_cons.1 hm with e | e
    · exact e ▸ List.mem_cons_self
    · exact List.mem_cons_of_mem _ (List.mem_cons.2 (.inl (List.mem_singleton.1 e))))
  cases again
  · rw [mismatched_once]
    exact (fld_bump_name _ _ h1 hb hb).trans hnote
  · rw [mismatched_twice, (regsBut_healthEvent (rs := [.hltGravelLast, .hltGravelCond, .hltUnit, .mbxOutStatus]) _ 18 10000 (by decide) (by decide)
      (sliceHealth_lt hn j)).fld h hb.1 hb.2]
    have hbump := (fld_bump_name (noteMismatch s n j corner true cond) (f := fHltGravelMismatch) 1 h1 hb hb).trans hnote
    exact fld_ite hbump ((fld_setPos _ hn _ rfl h2).trans hbump)

theorem gravel_healthEvent (s : State) (v row pts n : Nat) : (healthEvent s v row pts).gravel n = s.gravel n := by
  unfold healthEvent
  dsimp only
  split
  · exact gravel_same ((within_postHealth _ _ (Within.refl _) (Sub.refl _)).same .care (by decide)) n
  · rfl

theorem health_healthEvent (s : State) (v row pts : Nat) : ((healthEvent s v row pts).health v).score = satAdd 32 (s.health v).score pts := by
  have h (x : Health) (t : State) (ht : Within 136 (s.setHealth v x) t) : (t.health v).score = x.score := by
    rw [State.health, show t.care = _ from ht.same .care (by decide)]
    exact congrArg Health.score (health_setHealth s v x)
  have hb (x : Health) : Within 136 (s.setHealth v x) ((s.setHealth v x).bump fHltUnitEvents 0 v 1) :=
    within_bump _ _ _ _ _ (Within.refl _) rfl
  unfold healthEvent
  dsimp only
  split
  · exact h _ _ (within_postHealth _ v (hb _) rfl)
  · exact h _ _ (hb _)

theorem within_mismatched_cores (s : State) (n j corner : Nat) (again : Bool) (cond : Word) :
    Within 134217864 s (mismatched s n j corner again cond) := within_mismatched s n j corner again cond (Within.refl s) (Sub.refl _)

theorem care_mismatchSeen (s : State) (n j corner : Nat) (cond : Word) : (mismatchSeen s n j corner cond).care = s.care := by
  have h : Within 8 s ((noteMismatch s n j corner true cond).bump fHltGravelMismatch n 0 1) :=
    within_bump _ _ _ _ _ (within_noteMismatch _ _ _ _ _ _ (Within.refl s) rfl) rfl
  exact (within_ite h (within_setFld _ _ _ _ _ h rfl) : Within 8 s (mismatchSeen s n j corner cond)).same .care (by decide)

theorem gravel_mismatched (s : State) (n j corner : Nat) (again : Bool) (cond : Word) : (mismatched s n j corner again cond).gravel n = s.gravel n := by
  cases again
  · rw [mismatched_once]
    exact gravel_same ((within_bump _ _ _ _ _ (within_noteMismatch _ _ _ _ _ _ (Within.refl s) rfl) rfl : Within 8 s _).same .care (by decide)) n
  · rw [mismatched_twice, gravel_healthEvent]
    exact gravel_same (care_mismatchSeen s n j corner cond) n

theorem counted_transient (s : State) (hn : n < 8) (j corner : Nat) (cond : Word) :
    Counted s (mismatched s n j corner false cond) fHltGravelTransient n 0 1 :=
  Counted.since (fld_bump_same _ _ _ _ _ (by decide) (by decide)) (fld_noteMismatch s hn j corner false cond (by decide))

theorem counted_mismatch (s : State) (hn : n < 8) (j corner : Nat) (cond : Word) :
    Counted s (mismatched s n j corner true cond) fHltGravelMismatch n 0 1 := by
  have h : Counted s ((noteMismatch s n j corner true cond).bump fHltGravelMismatch n 0 1) fHltGravelMismatch n 0 1 :=
    Counted.since (fld_bump_same _ _ _ _ _ (by decide) (by decide)) (fld_noteMismatch s hn j corner true cond (by decide))
  have hs : Counted s (mismatchSeen s n j corner cond) fHltGravelMismatch n 0 1 :=
    fld_ite h ((fld_setPos _ hn _ rfl (.inl (by decide))).trans h)
  rw [mismatched_twice]
  exact hs.kept ((regsBut_healthEvent (rs := [.hltUnit, .mbxOutStatus]) _ 18 10000 (by decide) (by decide)
    (sliceHealth_lt hn j)).fld (by decide) (by omega) (by decide))

theorem score_mismatched (s : State) (n j corner : Nat) (cond : Word) : ((mismatched s n j corner true cond).health (sliceHealth n j)).score =
    min ((s.health (sliceHealth n j)).score + 10000) (2 ^ 32 - 1) := by
  rw [mismatched_twice, health_healthEvent, State.health, care_mismatchSeen]
  rfl

/-! ### GRAVEL_SLICE_END -/

/-- A slice that has run, its unit free. -/
def sliceRan (s : State) (n j : Nat) : State := (endSlice s n j).bump fHltGravelPosSlicesRun n 0 1

/-- A slice that is to run again in the next rotation (R457). -/
def sliceAgain (s : State) (n j corner : Nat) (again : Bool) (cond : Word) : State :=
  (mismatched (sliceRan s n j) n j corner again cond).modGravel n (fun g => { g with next := g.next ++ [(j, corner)] })

/-- The rotation, gone on with if the slice was in order. -/
def goOn (n : Nat) (inOrder : Bool) (s : State) : State := if inOrder then nextSlice s n else s

/-- The bits of a mismatch's conditions (R459). -/
def condBits (cond : Cond) : Word :=
  BitVec.ofNat 64 (cond.temp.toNat * 2 ^ 48 + cond.voltage.toNat * 2 ^ 32 + cond.load.toNat * 2 ^ 16 + cond.power.toNat)

/-- The signature that a slice must give. -/
def sliceWant (j corner : Nat) : Word32 := Config.gravelSignature (sliceUnit j).1 (sliceUnitNum j) corner

theorem sliceEndOp_none (n : Nat) (signature again : Word32) (cond : Cond) (h : (s.gravel n).running = none) :
    sliceEndOp n signature again cond s = s := by
  rw [sliceEndOp]
  dsimp only
  rw [h]

theorem sliceEndOp_some (n : Nat) (signature again : Word32) (cond : Cond) {j corner : Nat} (h : (s.gravel n).running = some (j, corner)) :
    sliceEndOp n signature again cond s = goOn n (s.gravel n).inOrder (if signature = sliceWant j corner then sliceRan s n j
      else sliceAgain s n j corner (again != sliceWant j corner) (condBits cond)) := by
  rw [sliceEndOp]
  dsimp only
  rw [h]
  rfl

theorem fld_goOn (s : State) (hn : n < 8) (inOrder : Bool) {g : RField} (h : OffRotation g) : (goOn n inOrder s).fld g n 0 = s.fld g n 0 :=
  fld_ite (fld_nextSlice s hn h) rfl

theorem running_goOn (s : State) (n : Nat) (inOrder : Bool) : ((goOn n inOrder s).gravel n).running = (s.gravel n).running := by
  cases inOrder
  · rfl
  · exact running_nextSlice s n

theorem mem_goOn (s : State) (n : Nat) (inOrder : Bool) {e : Nat × Nat} (h : e ∈ (s.gravel n).next ++ (s.gravel n).owed) :
    e ∈ ((goOn n inOrder s).gravel n).next ++ ((goOn n inOrder s).gravel n).owed := by
  cases inOrder
  · exact h
  · exact mem_nextSlice s n h

theorem health_goOn (s : State) (n u : Nat) (inOrder : Bool) : (goOn n inOrder s).health u = s.health u := by
  cases inOrder
  · rfl
  · exact health_nextSlice s n u

theorem within_goOn (s : State) (n : Nat) (inOrder : Bool) : Within 134217736 s (goOn n inOrder s) :=
  within_ite (within_nextSlice _ _ (Within.refl s) rfl) (Within.refl s)

theorem coreUnit_same (h : Area.cores.same s t) (k u : Nat) : coreUnit t k u = coreUnit s k u := by
  rw [coreUnit, coreUnit, core_same h]

/-- A slice that has run is counted, and its unit is idle. -/
theorem sliceRan_frame (s : State) (n j : Nat) : (sliceRan s n j).gravel n = sliceEnded (s.gravel n) ∧
    ((sliceUnit j).1 ≠ 4 → coreUnit (sliceRan s n j) (sliceCore n j) (sliceUnit j).2.2 = .idle) ∧
    (∀ u, (sliceRan s n j).health u = s.health u) ∧ Counted s (sliceRan s n j) fHltGravelPosSlicesRun n 0 1 := by
  obtain ⟨hg, hu, hh⟩ := endSlice_frame s n j
  exact ⟨hg, hu, hh, Counted.since (fld_bump_same _ _ _ _ _ (by decide) (by decide))
    (fld_congr ((within_endSlice s n j (Within.refl s) (Sub.refl _)).same .registers (by decide)) _ _ _)⟩

theorem fld_sliceRan (s : State) (hn : n < 8) (j : Nat) {g : RField} (h : .hltGravelPos ≠ g.reg) : (sliceRan s n j).fld g n 0 = s.fld g n 0 :=
  (fld_bump_name _ (f := fHltGravelPosSlicesRun) _ h ⟨by omega, by decide⟩ ⟨by omega, by decide⟩).trans
    (fld_congr ((within_endSlice s n j (Within.refl s) (Sub.refl _)).same .registers (by decide)) _ _ _)

/-- A slice that is to run again keeps what its run has left. -/
theorem sliceAgain_frame (s : State) (hn : n < 8) (j corner : Nat) (again : Bool) (cond : Word) :
    ((sliceAgain s n j corner again cond).gravel n).running = none ∧
    ((sliceUnit j).1 ≠ 4 → coreUnit (sliceAgain s n j corner again cond) (sliceCore n j) (sliceUnit j).2.2 = .idle) ∧
    Counted s (sliceAgain s n j corner again cond) fHltGravelPosSlicesRun n 0 1 ∧
    (j, corner) ∈ ((sliceAgain s n j corner again cond).gravel n).next ++ ((sliceAgain s n j corner again cond).gravel n).owed := by
  obtain ⟨hg, hu, -, hc⟩ := sliceRan_frame s n j
  have hga : (sliceAgain s n j corner again cond).gravel n = { sliceEnded (s.gravel n) with next := (s.gravel n).next ++ [(j, corner)] } := by
    rw [sliceAgain, gravel_modGravel, gravel_mismatched, hg]
    rfl
  rw [hga]
  refine ⟨rfl, fun h4 => ?_, hc.kept ?_, List.mem_append_left _ (List.mem_append_right _ (List.mem_singleton.2 rfl))⟩
  · rw [← hu h4]
    exact coreUnit_same ((within_mismatched_cores (sliceRan s n j) n j corner again cond).same .cores (by decide)) _ _
  · exact fld_mismatched (sliceRan s n j) hn j corner again cond (by decide) (by decide) (.inr (by decide))

theorem counted_modGravel {f : RField} {i j m : Nat} (k : Nat) (g : Gravel → Gravel) (h : Counted s t f i j m) : Counted s (t.modGravel k g) f i j m :=
  h

theorem transient_sliceAgain (s : State) (hn : n < 8) (j corner : Nat) (cond : Word) :
    Counted s (sliceAgain s n j corner false cond) fHltGravelTransient n 0 1 :=
  counted_modGravel n _ ((counted_transient (sliceRan s n j) hn j corner cond).since (fld_sliceRan s hn j (by decide)))

theorem mismatch_sliceAgain (s : State) (hn : n < 8) (j corner : Nat) (cond : Word) :
    Counted s (sliceAgain s n j corner true cond) fHltGravelMismatch n 0 1 :=
  counted_modGravel n _ ((counted_mismatch (sliceRan s n j) hn j corner cond).since (fld_sliceRan s hn j (by decide)))

theorem score_sliceAgain (s : State) (n j corner : Nat) (cond : Word) : ((sliceAgain s n j corner true cond).health (sliceHealth n j)).score =
    min ((s.health (sliceHealth n j)).score + 10000) (2 ^ 32 - 1) := by
  rw [sliceAgain, health_modGravel, score_mismatched, (sliceRan_frame s n j).2.2.1]

/-- GRAVEL_SLICE_END (R457). -/
theorem sliceEnd_ends (sec : Sec) (signature again : Word32) (cond : Cond) (s : State) {j corner : Nat}
    (h : (s.gravel sec.val).running = some (j, corner)) :
    ∃ t, exec (.gravelSliceEnd sec signature again cond) s = .next t ∧ (t.gravel sec.val).running = none ∧
      ((sliceUnit j).1 ≠ 4 → coreUnit t (sliceCore sec.val j) (sliceUnit j).2.2 = .idle) ∧ Counted s t fHltGravelPosSlicesRun sec.val 0 1 ∧
      (signature = sliceWant j corner → t.fld fHltGravelMismatch sec.val 0 = s.fld fHltGravelMismatch sec.val 0 ∧
        t.fld fHltGravelTransient sec.val 0 = s.fld fHltGravelTransient sec.val 0) ∧
      (signature ≠ sliceWant j corner → again = sliceWant j corner → Counted s t fHltGravelTransient sec.val 0 1) ∧
      (signature ≠ sliceWant j corner → again ≠ sliceWant j corner → Counted s t fHltGravelMismatch sec.val 0 1 ∧
        (t.health (sliceHealth sec.val j)).score = min ((s.health (sliceHealth sec.val j)).score + 10000) (2 ^ 32 - 1)) ∧
      (signature ≠ sliceWant j corner → (j, corner) ∈ (t.gravel sec.val).next ++ (t.gravel sec.val).owed) ∧
      Only [.care, .cores, .registers, .functions] s t := by
  obtain ⟨n, hn⟩ := sec
  have hpos : OffRotation fHltGravelPosSlicesRun := .inr (by decide)
  have hmis : OffRotation fHltGravelMismatch := .inl (by decide)
  have htra : OffRotation fHltGravelTransient := .inl (by decide)
  have honly : Only [.care, .cores, .registers, .functions] s (sliceEndOp n signature again cond s) :=
    only_of_within (within_sliceEndOp n signature again cond s (Within.refl s) rfl)
  refine ⟨_, rfl, ?_⟩
  have he := sliceEndOp_some n signature again cond h
  show ((sliceEndOp n signature again cond s).gravel n).running = none ∧ _
  rw [he] at honly ⊢
  generalize hw : sliceWant j corner = want at *
  have hcore (t : State) : coreUnit (goOn n (s.gravel n).inOrder t) (sliceCore n j) (sliceUnit j).2.2 = coreUnit t (sliceCore n j) (sliceUnit j).2.2 :=
    coreUnit_same ((within_goOn t n _).same .cores (by decide)) _ _
  by_cases hs : signature = want
  · rw [if_pos hs] at honly ⊢
    obtain ⟨hg, hu, -, hc⟩ := sliceRan_frame s n j
    refine ⟨?_, fun h4 => (hcore _).trans (hu h4), hc.kept (fld_goOn _ hn _ hpos), fun _ => ⟨?_, ?_⟩, fun hne => absurd hs hne,
      fun hne => absurd hs hne, fun hne => absurd hs hne, honly⟩
    · rw [running_goOn, hg]
      rfl
    · exact (fld_goOn _ hn _ hmis).trans (fld_sliceRan s hn j (by decide))
    · exact (fld_goOn _ hn _ htra).trans (fld_sliceRan s hn j (by decide))
  · rw [if_neg hs] at honly ⊢
    obtain ⟨hg, hu, hc, hm⟩ := sliceAgain_frame s hn j corner (again != want) (condBits cond)
    refine ⟨(running_goOn _ _ _).trans hg, fun h4 => (hcore _).trans (hu h4), hc.kept (fld_goOn _ hn _ hpos), fun heq => absurd heq hs,
      fun _ ha => ?_, fun _ ha => ⟨?_, ?_⟩, fun _ => mem_goOn _ _ _ hm, honly⟩
    · rw [show (again != want) = false from bne_eq_false_iff_eq.2 ha]
      exact (transient_sliceAgain s hn j corner _).kept (fld_goOn _ hn _ htra)
    · rw [show (again != want) = true from bne_iff_ne.2 ha]
      exact (mismatch_sliceAgain s hn j corner _).kept (fld_goOn _ hn _ hmis)
    · rw [show (again != want) = true from bne_iff_ne.2 ha, health_goOn, score_sliceAgain]

/-! ### GRAVEL_SLICE_ABANDON -/

/-- A Summer slice gives way. -/
def sliceMust (s : State) (n j : Nat) : Bool := !(inWinter s n) && (sliceUnit j).1 != 4 && criticalReady s (sliceCore n j)

/-- A slice that gives way is owed again, unless it was in order. -/
def sliceGivenUp (s : State) (n j corner : Nat) : State :=
  let t := (endSlice s n j).bump fHltGravelAbandoned n 0 1
  if (s.gravel n).inOrder then t else t.modGravel n (fun g => { g with owed := (j, corner) :: g.owed })

theorem sliceAbandonOp_none (n : Nat) (h : (s.gravel n).running = none) : sliceAbandonOp n s = s := by
  rw [sliceAbandonOp]
  dsimp only
  rw [h]

theorem sliceAbandonOp_some (n : Nat) {j corner : Nat} (h : (s.gravel n).running = some (j, corner)) :
    sliceAbandonOp n s = if sliceMust s n j = true then sliceGivenUp s n j corner else s := by
  have hmust (x y z : Bool) : ((x || y || !z) = true) = ¬ ((!x && !y && z) = true) := by cases x <;> cases y <;> cases z <;> decide
  rw [sliceAbandonOp]
  dsimp only
  rw [h]
  refine (if_congr (Iff.of_eq (hmust _ _ _)) rfl rfl).trans (ite_not _ _ _)

theorem sliceGivenUp_frame (s : State) (n j corner : Nat) : ((sliceGivenUp s n j corner).gravel n).running = none ∧
    ((sliceUnit j).1 ≠ 4 → coreUnit (sliceGivenUp s n j corner) (sliceCore n j) (sliceUnit j).2.2 = .idle) ∧
    Counted s (sliceGivenUp s n j corner) fHltGravelAbandoned n 0 1 ∧ Only [.care, .cores, .registers] s (sliceGivenUp s n j corner) := by
  obtain ⟨hg, hu, -⟩ := endSlice_frame s n j
  have hw : Within 136314888 s ((endSlice s n j).bump fHltGravelAbandoned n 0 1) :=
    within_bump _ _ _ _ _ (within_endSlice _ _ _ (Within.refl s) rfl) rfl
  have hc : Counted s ((endSlice s n j).bump fHltGravelAbandoned n 0 1) fHltGravelAbandoned n 0 1 :=
    Counted.since (fld_bump_same _ _ _ _ _ (by decide) (by decide))
      (fld_congr ((within_endSlice s n j (Within.refl s) (Sub.refl _)).same .registers (by decide)) _ _ _)
  unfold sliceGivenUp
  dsimp only
  split
  · refine ⟨?_, hu, hc, only_of_within hw⟩
    show ((endSlice s n j).gravel n).running = none
    rw [hg]
    rfl
  · refine ⟨?_, hu, hc, only_of_within (within_modGravel _ _ _ hw rfl)⟩
    rw [gravel_modGravel]
    show ((endSlice s n j).gravel n).running = none
    rw [hg]
    rfl

/-! ### WITNESS_SLICE -/

/-- An offline witness may run a slice (R458). -/
def witnessMay (s : State) (n : Nat) : Bool :=
  sliceSection s n && s.fld fNumCfgWitOffline n 0 != 0 && (s.gravel n).running.isNone && sliceNow s n 84

/-- A mismatch of the witness's slice, under the conditions of a free value. -/
def witnessAgain (s : State) (n : Nat) (again : Bool) : State :=
  (mismatched (s.bump fHltGravelPosSlicesRun n 0 1).freeDraw.2 n 84 0 again (s.bump fHltGravelPosSlicesRun n 0 1).freeDraw.1).modGravel n
    (fun g => { g with next := g.next ++ [(84, 0)] })

theorem witnessSliceOp_eq (n : Nat) (signature again : Word32) (s : State) : witnessSliceOp n signature again s =
    if witnessMay s n = true then
      (if signature = Config.gravelSignature 4 0 0 then (s.bump fHltGravelPosSlicesRun n 0 1).setFld fNumCfgWitOffline n 0 0
       else witnessAgain s n (again != Config.gravelSignature 4 0 0))
    else s := by
  have hmay : ((!sliceSection s n || s.fld fNumCfgWitOffline n 0 == 0 || (s.gravel n).running.isSome || !sliceNow s n 84) = true) =
      ¬ (witnessMay s n = true) := by
    cases h : (s.gravel n).running <;> cases h1 : sliceSection s n <;> cases h2 : sliceNow s n 84 <;> simp [witnessMay, h, h1, h2]
  rw [witnessSliceOp]
  exact (if_congr (Iff.of_eq hmay) rfl rfl).trans (ite_not _ _ _)

/-- The state in which the witness's mismatch is counted keeps the registers but for the slice that ran. -/
theorem fld_witnessRun (s : State) (hn : n < 8) {g : RField} (h : .hltGravelPos ≠ g.reg) :
    (s.bump fHltGravelPosSlicesRun n 0 1).freeDraw.2.fld g n 0 = s.fld g n 0 :=
  fld_bump_name s _ h ⟨by omega, by decide⟩ ⟨by omega, by decide⟩

theorem within_witnessRun (s : State) (n : Nat) : Within 1073741832 s (s.bump fHltGravelPosSlicesRun n 0 1).freeDraw.2 :=
  within_freeDraw _ (within_bump _ _ _ _ _ (Within.refl s) rfl) rfl

theorem only_witnessAgain_once (s : State) (n : Nat) : Only [.registers, .care, .draws] s (witnessAgain s n false) := by
  have h : Within 1207959560 s (witnessAgain s n false) := by
    refine within_modGravel _ _ _ ?_ rfl
    rw [mismatched_once]
    exact within_bump _ _ _ _ _ (within_noteMismatch _ _ _ _ _ _ ((within_witnessRun s n).trans (Within.refl _) rfl (Sub.refl _)) rfl) rfl
  exact only_of_within h

theorem only_witnessAgain_twice (s : State) (n : Nat) : Only [.registers, .functions, .care, .draws] s (witnessAgain s n true) := by
  have h : Within 1207959688 s (witnessAgain s n true) :=
    within_modGravel _ _ _ (within_mismatched _ _ _ _ _ _ ((within_witnessRun s n).trans (Within.refl _) rfl (Sub.refl _)) rfl) rfl
  exact only_of_within h

theorem offline_witnessAgain (s : State) (hn : n < 8) (again : Bool) :
    (witnessAgain s n again).fld fNumCfgWitOffline n 0 = s.fld fNumCfgWitOffline n 0 :=
  (fld_setGravel _ n n 0 _ _).trans
    ((fld_mismatched _ hn 84 0 again _ (by decide) (by decide) (.inl (by decide))).trans (fld_witnessRun s hn (by decide)))

theorem transient_witnessAgain (s : State) (hn : n < 8) : Counted s (witnessAgain s n false) fHltGravelTransient n 0 1 :=
  counted_modGravel n _ ((counted_transient _ hn 84 0 _).since (fld_witnessRun s hn (by decide)))

theorem mismatch_witnessAgain (s : State) (hn : n < 8) : Counted s (witnessAgain s n true) fHltGravelMismatch n 0 1 :=
  counted_modGravel n _ ((counted_mismatch _ hn 84 0 _).since (fld_witnessRun s hn (by decide)))

theorem score_witnessAgain (s : State) (n : Nat) :
    ((witnessAgain s n true).health (huSection n)).score = min ((s.health (huSection n)).score + 10000) (2 ^ 32 - 1) := by
  rw [witnessAgain, health_modGravel]
  exact score_mismatched (s.bump fHltGravelPosSlicesRun n 0 1).freeDraw.2 n 84 0 _

/-- WITNESS_SLICE (R458). -/
theorem witnessSlice_ends (sec : Sec) (signature again : Word32) (s : State) :
    (witnessMay s sec.val = false → exec (.witnessSlice sec signature again) s = .next s) ∧
    (witnessMay s sec.val = true →
      (signature = Config.gravelSignature 4 0 0 → ∃ t, exec (.witnessSlice sec signature again) s = .next t ∧
        t.fld fNumCfgWitOffline sec.val 0 = 0 ∧ Counted s t fHltGravelPosSlicesRun sec.val 0 1 ∧ Only [.registers] s t) ∧
      (signature ≠ Config.gravelSignature 4 0 0 → again = Config.gravelSignature 4 0 0 →
        ∃ t, exec (.witnessSlice sec signature again) s = .next t ∧
        t.fld fNumCfgWitOffline sec.val 0 = s.fld fNumCfgWitOffline sec.val 0 ∧ Counted s t fHltGravelTransient sec.val 0 1 ∧
        Only [.registers, .care, .draws] s t) ∧
      (signature ≠ Config.gravelSignature 4 0 0 → again ≠ Config.gravelSignature 4 0 0 →
        ∃ t, exec (.witnessSlice sec signature again) s = .next t ∧
        t.fld fNumCfgWitOffline sec.val 0 = s.fld fNumCfgWitOffline sec.val 0 ∧
        Counted s t fHltGravelMismatch sec.val 0 1 ∧
        (t.health (huSection sec.val)).score = min ((s.health (huSection sec.val)).score + 10000) (2 ^ 32 - 1) ∧
        Only [.registers, .functions, .care, .draws] s t)) := by
  obtain ⟨n, hn⟩ := sec
  have he := witnessSliceOp_eq n signature again s
  refine ⟨fun hm => next_congr (he.trans (if_neg (by rw [hm]; exact Bool.false_ne_true))), fun hm => ⟨fun hs =>
    ⟨_, next_congr (he.trans ((if_pos hm).trans (if_pos hs))), ?_, ?_, ?_⟩, fun hs ha => ⟨witnessAgain s n false, next_congr ?_,
    offline_witnessAgain s hn _, transient_witnessAgain s hn, only_witnessAgain_once s n⟩,
    fun hs ha => ⟨witnessAgain s n true, next_congr ?_,
    offline_witnessAgain s hn _, mismatch_witnessAgain s hn, score_witnessAgain s n, only_witnessAgain_twice s n⟩⟩⟩
  · exact (fld_setFld_same _ _ _ _ _ (by decide) (by decide)).trans (Nat.zero_mod _)
  · exact Counted.kept (fld_bump_same s fHltGravelPosSlicesRun n 0 1 (by decide) (by decide))
      (fld_setFld_name _ _ (by decide) ⟨by omega, by decide⟩ ⟨by omega, by decide⟩)
  · exact only_of_within (within_setFld _ _ _ _ _ (within_bump _ _ _ _ _ (Within.refl s) rfl) rfl)
  · rw [he.trans (if_pos hm), if_neg hs, show (again != Config.gravelSignature 4 0 0) = false from bne_eq_false_iff_eq.2 ha]
  · rw [he.trans (if_pos hm), if_neg hs, show (again != Config.gravelSignature 4 0 0) = true from bne_iff_ne.2 ha]

/-- Settles O47: how a slice starts, ends and gives way, and the slice of an offline witness. -/
theorem gravelSlices : Obligations.GravelSlices := by
  unfold Obligations.GravelSlices
  refine ⟨fun sec a b s => ?_, fun sec signature again cond s => ⟨fun h => ⟨next_congr (sliceEndOp_none _ _ _ _ h),
    next_congr (sliceAbandonOp_none _ h)⟩, fun j corner h => sliceEnd_ends sec signature again cond s h⟩, fun sec s j corner h => ?_,
    fun sec signature again s => witnessSlice_ends sec signature again s⟩
  · obtain ⟨h1, h2, h3, h4⟩ := sliceStart_ends sec a b s
    exact ⟨h1, h2, h3, fun hm hr hn => ⟨fun hh => ⟨_, h4 hm hr hn, sliceGoes_starts s sec.val a.toNat b.toNat hh⟩,
      fun hh hw => ⟨_, h4 hm hr hn, sliceGoes_waits s sec.val a.toNat b.toNat hh hw⟩⟩⟩
  · have he := sliceAbandonOp_some sec.val h
    obtain ⟨h1, h2, h3, h4⟩ := sliceGivenUp_frame s sec.val j corner
    refine ⟨fun hm => next_congr (he.trans (if_neg ?_)), fun hm => ⟨_, next_congr (he.trans (if_pos hm)), h1, h2 fun h4 => ?_, h3, h4⟩⟩
    · rw [show sliceMust s sec.val j = false from hm]
      exact Bool.false_ne_true
    · simp [h4] at hm

end Sys2Proof.Machine
end

section
/-! REPLAY_DELIVER (R56, R265, R267). -/

namespace Sys2Proof.Machine

variable {s t u : State}

/-! ### The end of a replay -/

/-- No command waits for the context's replay. -/
def ReplayAlone (s : State) (c : Nat) : Prop := ∀ x ∈ s.host.commands, x.kind ≠ .rplReplay c

theorem replayEnd_alone {c : Nat} (h : ReplayAlone s c) (n : Nat) : replayEnd s c n = s.modCtx c (fun x => { x with replay := none }) := by
  have hf : (s.modCtx c (fun x => { x with replay := none })).host.commands.find? (fun p => p.kind == .rplReplay c) = none :=
    List.find?_eq_none.2 fun x hx => by simpa using h x hx
  unfold replayEnd
  dsimp only
  rw [hf]

/-- A command that waits for no quiesce point leaves the contexts as it is published. -/
theorem ctxs_publishOne (s : State) {p : PendCmd} (h : ∀ c, p.kind ≠ .ctxQuiesce c) (rc n : Nat) : Area.ctxs.same s (publishOne s p rc n) := by
  unfold publishOne
  dsimp only
  split
  next c hk => exact absurd hk (h c)
  next =>
    exact (within_publish { s with host := { s.host with commands := s.host.commands.erase p } } _ _ _ _ _ _ (Within.refl _) (Sub.refl _)).same
      .ctxs (by decide)

theorem replayEnd_replay (s : State) (c n : Nat) : ((replayEnd s c n).ctx c).replay = none := by
  have hm : ((s.modCtx c (fun x => { x with replay := none })).ctx c).replay = none := by
    rw [State.modCtx, ctx_setCtx]
  unfold replayEnd
  dsimp only
  split
  next p hp =>
    have hk : p.kind = .rplReplay c := by simpa using List.find?_some hp
    rw [ctx_same (ctxs_publishOne _ (fun d hd => PendKind.noConfusion (hk.symm.trans hd)) 0 n) c, hm]
  next => exact hm

/-- What a replay leaves of its context past a record. -/
def PastRecord (t : State) (c : Nat) (g : Log) (pos seq : Nat) : Prop :=
  (t.ctx c).replay = none ∨ (t.ctx c).replay = some { g with pos := pos, seq := seq }

/-- The bytes stay as the replay goes on past a record. -/
theorem replayPast_frame {c : Nat} {g : Log} (h : (s.ctx c).replay = some g) (ha : ReplayAlone s c) (pos seq : Nat) :
    PastRecord (replayPast s c pos seq) c g pos seq ∧ Within 8192 s (replayPast s c pos seq) := by
  have hm (f : Ctx → Ctx) : Within 8192 s (s.modCtx c f) := within_modCtx s c f (Within.refl s) rfl
  unfold replayPast
  rw [h]
  dsimp only
  split
  · rw [replayEnd_alone ha]
    exact ⟨.inl (by rw [State.modCtx, ctx_setCtx]), hm _⟩
  · exact ⟨.inr (by rw [State.modCtx, ctx_setCtx]), hm _⟩

/-! ### The next record -/

/-- The next record of a log, with its payload. -/
def nextRecord (s : State) (g : Log) : List Byte := readBytes s (g.base + g.pos) 64
def nextPayload (s : State) (g : Log) : List Byte :=
  readBytes s (g.base + g.pos + 64) (min (fieldAt (nextRecord s g) 48 4) (64 * fieldAt (nextRecord s g) 6 2))

/-- Where the record after it begins. -/
def nextPos (s : State) (g : Log) : Nat := g.pos + 64 + 64 * fieldAt (nextRecord s g) 6 2

/-- The bytes that are read for it. -/
def readRecord (s : State) (g : Log) : State × List (Nat × Bool) := readMem s (g.base + g.pos) (64 + (nextPayload s g).length)

/-- The state after the record, delivered. -/
def delivered (s : State) (c : Nat) (g : Log) : State :=
  deliverRecord (readRecord s g).1 c (nextRecord s g) (nextPayload s g) (launchesAt (readRecord s g).1 g (nextRecord s g))

theorem replayDeliver_idle {c : Nat} (h : (s.ctx c).replay = none ∨ (s.ctx c).mode ≠ .active ∨ running s = false) : replayDeliverOp c s = s := by
  unfold replayDeliverOp
  split
  next g hg =>
    refine if_pos ?_
    rcases h with h | h | h
    · exact absurd (hg.symm.trans h) (by simp)
    · simp [h]
    · simp [h]
  next => rfl

theorem replayDeliver_ends {c : Nat} {g : Log} (hg : (s.ctx c).replay = some g) (hm : (s.ctx c).mode = .active) (hr : running s = true)
    (he : logEnds s g g.pos = true) : replayDeliverOp c s = replayEnd s c g.seq := by
  rw [replayDeliverOp]
  rw [hg]
  dsimp only
  rw [hm, hr, if_neg (by decide), if_pos he]

theorem replayDeliver_early {c : Nat} {g : Log} (hg : (s.ctx c).replay = some g) (hm : (s.ctx c).mode = .active) (hr : running s = true)
    (he : logEnds s g g.pos = false) (hd : recordDue s (s.ctx c).part (nextRecord s g) = false) : replayDeliverOp c s = s := by
  rw [replayDeliverOp]
  rw [hg]
  dsimp only
  rw [hm, hr, if_neg (by decide), he, if_neg (by decide)]
  have hd' : recordDue s (s.ctx c).part (readBytes s (g.base + g.pos) 64) = false := hd
  rw [hd', if_pos (by decide)]

/-- The words that are read for the next record, in full. -/
theorem readRecord_eq (s : State) (g : Log) : readMem s (g.base + g.pos) (64 + (readBytes s (g.base + g.pos + 64)
    (min (fieldAt (readBytes s (g.base + g.pos) 64) 48 4) (64 * fieldAt (readBytes s (g.base + g.pos) 64) 6 2))).length) = readRecord s g := rfl

theorem replayDeliver_due {c : Nat} {g : Log} (hg : (s.ctx c).replay = some g) (hm : (s.ctx c).mode = .active) (hr : running s = true)
    (he : logEnds s g g.pos = false) (hd : recordDue s (s.ctx c).part (nextRecord s g) = true) :
    (∀ p, worstOf (readRecord s g).2 = some p → replayDeliverOp c s = ctxFault (readRecord s g).1 c 6 (addrSec (g.base + g.pos)) 0 p) ∧
    (worstOf (readRecord s g).2 = none → replayDeliverOp c s =
      replayPast (delivered s c g) c (nextPos s g) (g.seq + (if fieldAt (nextRecord s g) 0 1 = 6 then 0 else 1))) := by
  have hd' : recordDue s (s.ctx c).part (readBytes s (g.base + g.pos) 64) = true := hd
  rw [replayDeliverOp]
  rw [hg]
  dsimp only
  rw [hm, hr, if_neg (by decide), he, if_neg (by decide), hd', if_neg (by decide), readRecord_eq]
  refine ⟨fun p hp => ?_, fun hp => ?_⟩
  · rw [hp]
  · rw [hp, delivered, nextPos, nextPayload, nextRecord]

/-- The read of a record leaves all but what a read may touch. -/
theorem within_readRecord (s : State) (g : Log) : Within 134222008 s (readRecord s g).1 := within_readMem _ _ _ (Within.refl s) (Sub.refl _)

theorem bytes_readRecord (s : State) (g : Log) : (readRecord s g).1.mem.bytes = s.mem.bytes := by rw [readRecord, bytes_readMem]

/-- One range, read in order. -/
theorem readAll_one (s : State) (a n : Nat) : (readAll s [(a, n)]).2 = (readMem s a n).2 := by
  unfold readAll
  rw [List.foldl_cons, List.foldl_nil]
  dsimp only
  generalize readMem s a n = r
  exact List.nil_append r.2

theorem clean_readRecord {g : Log} : Clean s [(g.base + g.pos, 64 + (nextPayload s g).length)] ↔ (readRecord s g).2 = [] := by
  rw [Clean, readAll_one, readRecord]

theorem replayDeliver_bad {c : Nat} {g : Log} (hg : (s.ctx c).replay = some g) (hm : (s.ctx c).mode = .active) (hr : running s = true)
    (he : logEnds s g g.pos = false) (hd : recordDue s (s.ctx c).part (nextRecord s g) = true) (hb : (readRecord s g).2 ≠ []) :
    Faulted (replayDeliverOp c s) c 6 := by
  obtain ⟨p, hp⟩ := worstOf_isSome hb
  rw [(replayDeliver_due hg hm hr he hd).1 p hp]
  exact faulted_ctxFault _ c 6 _ 0 p (by rw [ctx_same ((within_readRecord s g).same .ctxs (by decide)) c, hm])

theorem replayDeliver_clean {c : Nat} {g : Log} (hg : (s.ctx c).replay = some g) (hm : (s.ctx c).mode = .active) (hr : running s = true)
    (he : logEnds s g g.pos = false) (hd : recordDue s (s.ctx c).part (nextRecord s g) = true) (hb : (readRecord s g).2 = []) :
    replayDeliverOp c s = replayPast (delivered s c g) c (nextPos s g) (g.seq + (if fieldAt (nextRecord s g) 0 1 = 6 then 0 else 1)) :=
  (replayDeliver_due hg hm hr he hd).2 (by rw [hb]; rfl)

/-! ### What a record delivers -/

theorem deliverRecord_mark (s : State) (c : Nat) {r : List Byte} (h : fieldAt r 0 1 = 6) (data : List Byte) (l : List (List Byte)) :
    deliverRecord s c r data l = s := by
  rw [deliverRecord, h]
  rfl

theorem deliverRecord_write (s : State) (c : Nat) {r : List Byte} (h : fieldAt r 0 1 = 3) (data : List Byte) (l : List (List Byte)) :
    deliverRecord s c r data l = replayWrite s c (fieldAt r 36 4) (fieldAt r 40 8) data := by
  rw [deliverRecord, h]
  rfl

theorem deliverRecord_message (s : State) (c : Nat) {r : List Byte} (h : fieldAt r 0 1 = 4) (data : List Byte) (l : List (List Byte)) :
    deliverRecord s c r data l = replayMessage s c (fieldAt r 36 4) (fieldAt r 40 8) (fieldAt r 56 4) data := by
  rw [deliverRecord, h]
  rfl

theorem replayWrite_lands {c addr : Nat} {data : List Byte} (hl : (s.ctx c).log = none) (hd : data ≠ [])
    (hp : inPartition s (s.ctx c).part addr data.length = true) (source : Nat) : replayWrite s c source addr data = storeBytes s addr data := by
  rw [replayWrite]
  rw [recordInput_of_none hl, hp, if_neg (by simpa using hd)]

theorem replayWrite_lost {c addr : Nat} {data : List Byte} (h : data = [] ∨ inPartition s (s.ctx c).part addr data.length = false) (source : Nat) :
    replayWrite s c source addr data = s := by
  refine if_pos ?_
  rcases h with h | h <;> simp [h]

theorem replayMessage_lands {c addr tally : Nat} {data : List Byte} (hl : (s.ctx c).log = none) (hd : data ≠ [])
    (hp : inPartition s (s.ctx c).part addr data.length = true) (hb : blockAtAddr s c addr data.length = none) (ht : 16383 < tally) (source : Nat) :
    replayMessage s c source addr tally data = writeMem s addr data false := by
  have hw : blockAtAddr (writeMem s addr data false) c addr data.length = none := by
    rw [← hb, blockAtAddr, show (writeMem s addr data false).objs.tensors = s.objs.tensors from
      (within_writeMem s addr data false (Within.refl s) (Sub.refl _)).same .tensors (by decide)]
    rfl
  rw [replayMessage]
  dsimp only
  rw [if_pos ht, recordInput_of_none hl, hp, if_neg (by simpa using hd), hw]

/-! ### REPLAY_DELIVER of a record that is due -/

/-- A record of the next step: due, read whole, of a context that has no log of its own. -/
structure Deliverable (s : State) (c : Nat) (g : Log) : Prop where
  replay : (s.ctx c).replay = some g
  active : (s.ctx c).mode = .active
  running : running s = true
  more : logEnds s g g.pos = false
  due : recordDue s (s.ctx c).part (nextRecord s g) = true
  clean : (readRecord s g).2 = []
  alone : ReplayAlone s c
  log : (s.ctx c).log = none

/-- The replay goes on past a record that has touched no more than memory. -/
theorem Deliverable.goes {ctx : CtxId} {g : Log} (h : Deliverable s ctx.val g) (he : delivered s ctx.val g = u) (hw : Within 134222008 s u) :
    ∃ t, exec (.replayDeliver ctx) s = .next t ∧ Within 8192 u t ∧
      PastRecord t ctx.val g (nextPos s g) (g.seq + (if fieldAt (nextRecord s g) 0 1 = 6 then 0 else 1)) ∧ Only (readAreas ++ [.ctxs]) s t := by
  have hg : (u.ctx ctx.val).replay = some g := by rw [ctx_same (hw.same .ctxs (by decide)), h.replay]
  have ha : ReplayAlone u ctx.val := by
    unfold ReplayAlone
    rw [show u.host.commands = s.host.commands from hw.same .commands (by decide)]
    exact h.alone
  obtain ⟨hp, ht⟩ := replayPast_frame hg ha (nextPos s g) (g.seq + (if fieldAt (nextRecord s g) 0 1 = 6 then 0 else 1))
  refine ⟨_, next_congr ((replayDeliver_clean h.replay h.active h.running h.more h.due h.clean).trans (by rw [he])), ht, hp, ?_⟩
  exact (hw.trans ht rfl rfl : Within 134230200 s _).only rfl

/-- Bytes that a record leaves. -/
theorem sameBytes_of_within {μ : Nat} (h : Within μ s t) (hb : t.mem.bytes = s.mem.bytes) (hh : μ.testBit 6 = false := by decide) : SameBytes s t := fun a =>
  ⟨congrArg (tabGet 0 · a) hb, congrArg (tabGet 0 · a) (h.same .hostMemory hh)⟩

theorem Deliverable.keeps {ctx : CtxId} {g : Log} (h : Deliverable s ctx.val g) (he : delivered s ctx.val g = (readRecord s g).1) {n : Nat}
    (hn : (if fieldAt (nextRecord s g) 0 1 = 6 then 0 else 1) = n) :
    ∃ t, exec (.replayDeliver ctx) s = .next t ∧ SameBytes s t ∧ PastRecord t ctx.val g (nextPos s g) (g.seq + n) ∧ Only (readAreas ++ [.ctxs]) s t := by
  obtain ⟨t, ht, hw, hp, ho⟩ := h.goes he (within_readRecord s g)
  have hb : t.mem.bytes = s.mem.bytes := (bytes_of_memory (hw.same .memory (by decide))).trans (bytes_readRecord s g)
  rw [hn] at hp
  exact ⟨t, ht, sameBytes_of_within ((within_readRecord s g).trans hw rfl rfl : Within 134230200 s t) hb, hp, ho⟩

/-- What follows a store and touches no bytes. -/
theorem StoredAt.onto {a : Nat} {l : List Byte} (h : StoredAt s u a l) (hb : t.mem.bytes = u.mem.bytes) (hh : t.hostMem = u.hostMem) :
    StoredAt s t a l := by
  obtain ⟨h1, h2, h3⟩ := h
  refine ⟨?_, fun k hk => (memByte_same hb k).trans (h2 k hk), fun k => (congrArg (tabGet 0 · k) hh).trans (h3 k)⟩
  unfold readBytes memByte at h1 ⊢
  rw [hb, h1]

theorem Deliverable.stores {ctx : CtxId} {g : Log} (h : Deliverable s ctx.val g) {a : Nat} {l : List Byte} (he : delivered s ctx.val g = u)
    (hw : Within 134222008 (readRecord s g).1 u) (hs : StoredAt (readRecord s g).1 u a l) (hn : fieldAt (nextRecord s g) 0 1 ≠ 6) :
    ∃ t, exec (.replayDeliver ctx) s = .next t ∧ StoredAt s t a l ∧ PastRecord t ctx.val g (nextPos s g) (g.seq + 1) ∧
      Only (readAreas ++ [.ctxs]) s t := by
  obtain ⟨t, ht, hv, hp, ho⟩ := h.goes he ((within_readRecord s g).trans hw rfl rfl)
  rw [if_neg hn] at hp
  exact ⟨t, ht, (hs.of_bytes (bytes_readRecord s g) ((within_readRecord s g).same .hostMemory (by decide))).onto
    (bytes_of_memory (hv.same .memory (by decide))) (hv.same .hostMemory (by decide)), hp, ho⟩

/-- What the delivery of a record sees of the state before its read. -/
theorem Deliverable.read {c : Nat} {g : Log} (h : Deliverable s c g) : ((readRecord s g).1.ctx c).log = none ∧
    (∀ a n, inPartition (readRecord s g).1 ((readRecord s g).1.ctx c).part a n = inPartition s (s.ctx c).part a n) ∧
    (∀ a n, blockAtAddr (readRecord s g).1 c a n = blockAtAddr s c a n) := by
  have hw := within_readRecord s g
  have hc := ctx_same (hw.same .ctxs (by decide)) c
  refine ⟨by rw [hc, h.log], fun a n => by rw [hc]; exact inPartition_congr (rests_readMem _ _ _) _ a n, fun a n => ?_⟩
  rw [blockAtAddr, show (readRecord s g).1.objs.tensors = s.objs.tensors from hw.same .tensors (by decide)]
  rfl

/-- A recorded write (R267). -/
theorem Deliverable.write {ctx : CtxId} {g : Log} (h : Deliverable s ctx.val g) (h3 : fieldAt (nextRecord s g) 0 1 = 3) :
    (nextPayload s g ≠ [] → inPartition s (s.ctx ctx.val).part (fieldAt (nextRecord s g) 40 8) (nextPayload s g).length = true →
      ∃ t, exec (.replayDeliver ctx) s = .next t ∧ StoredAt s t (fieldAt (nextRecord s g) 40 8) (nextPayload s g) ∧
        PastRecord t ctx.val g (nextPos s g) (g.seq + 1) ∧ Only (readAreas ++ [.ctxs]) s t) ∧
    (nextPayload s g = [] ∨ inPartition s (s.ctx ctx.val).part (fieldAt (nextRecord s g) 40 8) (nextPayload s g).length = false →
      ∃ t, exec (.replayDeliver ctx) s = .next t ∧ SameBytes s t ∧ PastRecord t ctx.val g (nextPos s g) (g.seq + 1) ∧
        Only (readAreas ++ [.ctxs]) s t) := by
  obtain ⟨hl, hp, -⟩ := h.read
  refine ⟨fun hd hin => ?_, fun hd => ?_⟩
  · exact h.stores ((deliverRecord_write _ _ h3 _ _).trans (replayWrite_lands hl hd ((hp _ _).trans hin) _))
      (within_storeBytes _ _ _ (Within.refl _) (Sub.refl _)) (storedAt_storeBytes _ _ _) (by rw [h3]; decide)
  · refine h.keeps ((deliverRecord_write _ _ h3 _ _).trans (replayWrite_lost (hd.imp_right fun hin => ?_) _)) (if_neg (by rw [h3]; decide))
    rw [hp, hin]

/-- A recorded message of no tally (R267). -/
theorem Deliverable.message {ctx : CtxId} {g : Log} (h : Deliverable s ctx.val g) (h4 : fieldAt (nextRecord s g) 0 1 = 4)
    (hd : nextPayload s g ≠ []) (hin : inPartition s (s.ctx ctx.val).part (fieldAt (nextRecord s g) 40 8) (nextPayload s g).length = true)
    (hb : blockAtAddr s ctx.val (fieldAt (nextRecord s g) 40 8) (nextPayload s g).length = none) (ht : 16383 < fieldAt (nextRecord s g) 56 4) :
    ∃ t, exec (.replayDeliver ctx) s = .next t ∧ StoredAt s t (fieldAt (nextRecord s g) 40 8) (nextPayload s g) ∧
      PastRecord t ctx.val g (nextPos s g) (g.seq + 1) ∧ Only (readAreas ++ [.ctxs]) s t := by
  obtain ⟨hl, hp, hbl⟩ := h.read
  exact h.stores ((deliverRecord_message _ _ h4 _ _).trans (replayMessage_lands hl hd ((hp _ _).trans hin) ((hbl _ _).trans hb) ht _))
    (within_writeMem _ _ _ _ (Within.refl _) (Sub.refl _)) (storedAt_writeMem _ _ _ _) (by rw [h4]; decide)

/-- Settles O44: a record is delivered at its launch and work cycle, once it is read whole, and the log goes on behind it. -/
theorem replays : Obligations.Replays := by
  unfold Obligations.Replays
  refine ⟨fun ctx s h => next_congr (replayDeliver_idle h), fun ctx s g hg hm hr => ⟨fun he => ?_, fun he hd => next_congr (replayDeliver_early hg hm hr he hd),
    fun he hd => ⟨⟨_, rfl⟩, fun hb => ⟨_, rfl, replayDeliver_bad hg hm hr he hd fun h => hb (clean_readRecord.2 h)⟩, fun hc ha hl => ?_⟩⟩⟩
  · have hx := replayDeliver_ends hg hm hr he
    refine ⟨⟨_, next_congr hx, replayEnd_replay s _ _⟩, fun ha => ⟨_, next_congr (hx.trans (replayEnd_alone ha _)), ?_, fun k hk => ?_,
      only_of_within (within_modCtx _ _ _ (Within.refl s) rfl)⟩⟩
    · rw [State.modCtx, ctx_setCtx]
    · rw [State.modCtx, ctx_setCtx_ne _ _ (Ne.symm hk)]
  · have h : Deliverable s ctx.val g := ⟨hg, hm, hr, he, hd, clean_readRecord.1 hc, ha, hl⟩
    exact ⟨fun h6 => h.keeps (deliverRecord_mark _ _ h6 _ _) (if_pos h6), fun h3 => h.write h3, fun h4 hne hin hb ht => h.message h4 hne hin hb ht⟩

end Sys2Proof.Machine
end

section
/-! What a read of memory meets rests on memory, its directories and the sections of the partitions: states that agree in them read alike
(R45 to R49, R56). -/

namespace Sys2Proof.Machine

variable {s t u v : State}

/-- What an access asks of a partition: its sections, whether it exists, and its cache units. -/
def partPlace (x : Part) : Nat × Bool × Nat := (x.mask, x.present, x.units)

/-- Two states whose reads of memory meet the same. -/
structure ReadsAs (s t : State) : Prop where
  mem : t.mem = s.mem
  part : ∀ p, partPlace (t.part p) = partPlace (s.part p)

theorem ReadsAs.refl (s : State) : ReadsAs s s := ⟨rfl, fun _ => rfl⟩

theorem Rests.place (h : Rests s t) (p : Nat) : partPlace (t.part p) = partPlace (s.part p) := h.part_get partPlace (fun _ => rfl) p

/-- What differs in neither memory nor partitions reads alike. -/
theorem Within.readsAs {μ : Nat} (h : Within μ s t) (hm : μ.testBit 4 = false := by decide) (hc : μ.testBit 5 = false := by decide)
    (hp : μ.testBit 12 = false := by decide) : ReadsAs s t :=
  ⟨mem_same (h.same .memory hm) (h.same .cache hc), fun p => congrArg partPlace (parts_same (h.same .parts hp) p)⟩

/-- Steps of two states that read alike, each of which leaves the partitions. -/
theorem ReadsAs.step (h : ReadsAs s t) (hs : Rests s u) (ht : Rests t v) (hm : v.mem = u.mem) : ReadsAs u v :=
  ⟨hm, fun p => ((ht.place p).trans (h.part p)).trans (hs.place p).symm⟩

/-- The same of steps that change no more than memory. -/
theorem ReadsAs.onto (h : ReadsAs s t) (hs : u.objs.parts = s.objs.parts) (ht : v.objs.parts = t.objs.parts) (hm : v.mem = u.mem) : ReadsAs u v :=
  ⟨hm, fun p => ((congrArg partPlace (parts_same ht p)).trans (h.part p)).trans (congrArg partPlace (parts_same hs p)).symm⟩

/-! ### Places of words -/

section
variable (h : ReadsAs s t)
include h

theorem ReadsAs.secPart (n : Nat) : secPart t n = secPart s n := by
  have hp (p : Nat) : (t.part p).mask = (s.part p).mask ∧ (t.part p).present = (s.part p).present :=
    ⟨congrArg (·.1) (h.part p), congrArg (·.2.1) (h.part p)⟩
  simp only [Machine.secPart, fun p => (hp p).1, fun p => (hp p).2]

theorem ReadsAs.secUnits (n : Nat) : secUnits t n = secUnits s n := by
  rw [Machine.secUnits, Machine.secUnits, h.secPart]
  cases Machine.secPart s n with
  | none => rfl
  | some p => exact congrArg (·.2.2) (h.part p)

theorem ReadsAs.cacheFind (sec set line : Nat) : cacheFind t sec set line = cacheFind s sec set line := by
  rw [Machine.cacheFind, h.mem]
  rfl

theorem ReadsAs.lineAddr (ck : Nat) : lineAddr t ck = lineAddr s ck := by rw [Machine.lineAddr, h.mem]; rfl

theorem ReadsAs.wordAddr (k : Nat) : wordAddr t k = wordAddr s k := by rw [Machine.wordAddr, h.lineAddr]; rfl

theorem ReadsAs.homeWord (a : Nat) : homeWord t a = homeWord s a := by
  have hl : lineHome t a = lineHome s a := by
    unfold lineHome
    simp only [h.secUnits, h.cacheFind]
  rw [Machine.homeWord, hl]
  rfl

theorem ReadsAs.placeOf (k : Nat) : placeOf t k = placeOf s k := by
  have hf (ck : Nat) : frameOffset t ck = frameOffset s ck := by rw [frameOffset, h.secUnits]; rfl
  rw [Machine.placeOf, hf]
  rfl

theorem ReadsAs.errorRank (a : Nat) : errorRank t a = errorRank s a := by
  funext x
  rw [Machine.errorRank, h.placeOf]
  rfl

theorem ReadsAs.errorsOf (a : Nat) {sel sel' : Nat → Bool} (he : sel' = sel) : errorsOf t a sel' = errorsOf s a sel := by
  have hw : Machine.wordAddr t = Machine.wordAddr s := funext h.wordAddr
  subst he
  unfold Machine.errorsOf
  rw [hw, h.errorRank, h.mem]

theorem ReadsAs.readErrors (a n : Nat) : readErrors t a n = readErrors s a n := by
  refine h.errorsOf a (funext fun k => ?_)
  dsimp only
  rw [h.wordAddr, h.homeWord]

end

/-! ### Errors that are noted -/

theorem ReadsAs.noteKey (h : ReadsAs s t) (k : Nat) (e : WordError) : ReadsAs (noteKey s k e) (noteKey t k e) := by
  refine h.step (rests_noteKey s k e) (rests_noteKey t k e) ?_
  rw [mem_noteKey, mem_noteKey, h.mem]

theorem readsAs_foldl {α : Type} (l : List α) (g : State → α → State) (hg : ∀ x y a, ReadsAs x y → ReadsAs (g x a) (g y a)) (h : ReadsAs s t) :
    ReadsAs (l.foldl g s) (l.foldl g t) := by
  induction l generalizing s t with
  | nil => exact h
  | cons a l ih => exact ih (hg s t a h)

theorem ReadsAs.noteErrors (h : ReadsAs s t) (es : List (Nat × Nat × WordError)) : ReadsAs (noteErrors s es) (noteErrors t es) :=
  readsAs_foldl es _ (fun _ _ e hx => hx.noteKey e.2.1 e.2.2) h

/-- What an access answers beside its state, and the states after it. -/
def AnswersAs {α : Type} (x y : State × α) : Prop := y.2 = x.2 ∧ ReadsAs x.1 y.1

theorem ReadsAs.readCheck (h : ReadsAs s t) (a n : Nat) : AnswersAs (readCheck s a n) (readCheck t a n) := by
  unfold Machine.readCheck
  rw [h.readErrors]
  exact ⟨rfl, h.noteErrors _⟩

/-! ### The directory -/

theorem ReadsAs.poisonKey (h : ReadsAs s t) (k : Nat) : ReadsAs (poisonKey s k) (poisonKey t k) :=
  h.onto rfl rfl (congrArg (fun m : Mem => { m with poisoned := tabSet false m.poisoned k true, upset := tabSet none m.upset k none }) h.mem)

theorem ReadsAs.forgetWords (h : ReadsAs s t) (f : Nat → Bool) : ReadsAs (forgetWords s f) (forgetWords t f) :=
  h.onto rfl rfl (congrArg (fun m : Mem => { m with poisoned := tabClear f m.poisoned, upset := tabClear f m.upset }) h.mem)

theorem ReadsAs.setCacheLine (h : ReadsAs s t) (sec set way : Nat) (l : CacheLine) : ReadsAs (setCacheLine s sec set way l) (setCacheLine t sec set way l) :=
  h.onto rfl rfl (congrArg (fun m : Mem => { m with cache := tabSet {} m.cache (cacheKey sec set way) l }) h.mem)

theorem ReadsAs.bump (h : ReadsAs s t) (f : RField) (i j n : Nat) : ReadsAs (s.bump f i j n) (t.bump f i j n) := h.onto rfl rfl h.mem

theorem ReadsAs.cacheVictim (h : ReadsAs s t) (sec set : Nat) : AnswersAs (cacheVictim s sec set) (cacheVictim t sec set) := by
  unfold Machine.cacheVictim
  rw [h.mem]
  dsimp only
  split
  · exact ⟨rfl, h⟩
  · exact ⟨rfl, readsAs_foldl _ _ (fun _ _ _ hx => hx.setCacheLine _ _ _ _) h⟩

theorem ReadsAs.writeBackLine (h : ReadsAs s t) (ck : Nat) : ReadsAs (writeBackLine s ck) (writeBackLine t ck) := by
  unfold Machine.writeBackLine
  rw [h.lineAddr, h.errorsOf _ rfl]
  exact (readsAs_foldl _ _ (fun _ _ e hx => hx.poisonKey (e.1 / 16)) ((h.noteErrors _).forgetWords _)).bump _ _ _ _

theorem ReadsAs.evictLine (h : ReadsAs s t) (ck : Nat) : ReadsAs (evictLine s ck) (evictLine t ck) := by
  have hw : ReadsAs (if (tabGet ({} : CacheLine) s.mem.cache ck).valid && (tabGet ({} : CacheLine) s.mem.cache ck).dirty then Machine.writeBackLine s ck else s)
      (if (tabGet ({} : CacheLine) s.mem.cache ck).valid && (tabGet ({} : CacheLine) s.mem.cache ck).dirty then Machine.writeBackLine t ck else t) := by
    split
    · exact h.writeBackLine ck
    · exact h
  unfold Machine.evictLine
  rw [h.mem]
  have hf := hw.forgetWords (fun k => decide (copyBase ≤ k) && copyKey k == ck)
  exact hf.onto rfl rfl (congrArg (fun m : Mem => { m with cache := tabSet {} m.cache ck {} }) hf.mem)

theorem ReadsAs.fillLine (h : ReadsAs s t) (ck : Nat) : AnswersAs (fillLine s ck) (fillLine t ck) := by
  unfold Machine.fillLine
  dsimp only
  rw [h.lineAddr, h.errorsOf _ rfl]
  exact ⟨rfl, readsAs_foldl _ _ (fun _ _ e hx => hx.poisonKey _) ((h.noteErrors _).bump _ _ _ _)⟩

theorem ReadsAs.cacheAccess (h : ReadsAs s t) (sec n line : Nat) (use : CacheUse) : AnswersAs (cacheAccess s sec n line use) (cacheAccess t sec n line use) := by
  unfold Machine.cacheAccess
  dsimp only
  rw [h.cacheFind]
  split
  · exact ⟨rfl, h⟩
  · split
    next w _ =>
      rw [h.mem]
      exact ⟨rfl, (h.setCacheLine _ _ _ _).bump _ _ _ _⟩
    next =>
      split
      · exact ⟨rfl, h.bump _ _ _ _⟩
      · obtain ⟨hw, hv⟩ := (h.bump fLoamCacheStatMisses sec 0 1).cacheVictim sec (line % (256 * n))
        rw [hw]
        have hl := (hv.evictLine (cacheKey sec (line % (256 * n)) (Machine.cacheVictim (s.bump fLoamCacheStatMisses sec 0 1) sec (line % (256 * n))).2)).setCacheLine
          sec (line % (256 * n)) (Machine.cacheVictim (s.bump fLoamCacheStatMisses sec 0 1) sec (line % (256 * n))).2
          { valid := true, line := line, dirty := use != .read, rrpv := 2 }
        split
        · exact ⟨rfl, hl⟩
        · obtain ⟨hb, hf⟩ := hl.fillLine (cacheKey sec (line % (256 * n)) (Machine.cacheVictim (s.bump fLoamCacheStatMisses sec 0 1) sec (line % (256 * n))).2)
          refine ⟨congrArg (Prod.mk false) hb, ?_⟩
          dsimp only
          exact hf

/-! ### Reads -/

theorem ReadsAs.readLine (h : ReadsAs s t) (a n l : Nat) : AnswersAs (readLine s a n l) (readLine t a n l) := by
  have hx := h.cacheAccess (lineSec l) (Machine.secUnits s (lineSec l)) (lineNum l) .read
  unfold Machine.readLine
  rw [h.secUnits]
  generalize Machine.cacheAccess s _ _ _ _ = x at hx ⊢
  generalize Machine.cacheAccess t _ _ _ _ = y at hx ⊢
  obtain ⟨x, b⟩ := x
  obtain ⟨y, b'⟩ := y
  obtain ⟨rfl, hx⟩ := hx
  dsimp only
  split
  · exact hx.readCheck _ _
  · exact ⟨rfl, hx⟩

theorem answersAs_foldl {α β : Type} (l : List α) (g : State → α → State × List β) (hg : ∀ x y a, ReadsAs x y → AnswersAs (g x a) (g y a))
    {x y : State × List β} (h : AnswersAs x y) : AnswersAs (l.foldl (fun r a => ((g r.1 a).1, r.2 ++ (g r.1 a).2)) x)
      (l.foldl (fun r a => ((g r.1 a).1, r.2 ++ (g r.1 a).2)) y) := by
  induction l generalizing x y with
  | nil => exact h
  | cons a l ih =>
    obtain ⟨hb, hx⟩ := hg x.1 y.1 a h.2
    refine ih ⟨?_, hx⟩
    dsimp only
    rw [h.1, hb]

theorem ReadsAs.readMem (h : ReadsAs s t) (a n : Nat) : AnswersAs (readMem s a n) (readMem t a n) := by
  unfold Machine.readMem
  simp only [h.secUnits]
  split
  · exact h.readCheck a n
  · exact answersAs_foldl (linesOf a n) (fun r l => Machine.readLine r a n l) (fun _ _ l hx => hx.readLine a n l) ⟨rfl, h⟩

theorem ReadsAs.readAll (h : ReadsAs s t) (l : List (Nat × Nat)) : AnswersAs (readAll s l) (readAll t l) :=
  answersAs_foldl l (fun r e => Machine.readMem r e.1 e.2) (fun _ _ e hx => hx.readMem e.1 e.2) ⟨rfl, h⟩

/-- Reads of two such states deliver the same words. -/
theorem ReadsAs.clean (h : ReadsAs s t) (l : List (Nat × Nat)) : Clean t l ↔ Clean s l := by rw [Clean, Clean, (h.readAll l).1]

end Sys2Proof.Machine
end

section
/-! What the engines share: the next descriptor of their queues, and how a descriptor ends (R66, R351, R378, R419, R423). -/

namespace Sys2Proof.Machine

variable {s t u v : State}

/-! ### The descriptor in an engine -/

theorem engine_same (h : Area.engines.same s t) (k : Nat) : t.engine k = s.engine k := congrArg (fun l => tabGet ({} : Engine) l k) h

theorem jobOf_same (h : Area.engines.same s t) (kind unit : Nat) : jobOf t kind unit = jobOf s kind unit := by
  rw [jobOf, jobOf, engine_same h]

theorem jobOf_modEngine (s : State) (kind unit : Nat) (f : Engine → Engine) :
    jobOf (s.modEngine (engineKey kind unit) f) kind unit = (f (s.engine (engineKey kind unit))).job := by
  rw [jobOf, State.modEngine, engine_setEngine]

theorem jobOf_putJob (s : State) (kind unit : Nat) (j : Job) : jobOf (putJob s kind unit j) kind unit = some j := jobOf_modEngine _ _ _ _

theorem jobOf_freeEngine (s : State) (kind unit : Nat) : jobOf (freeEngine s kind unit) kind unit = none := jobOf_modEngine _ _ _ _

/-! ### Taking a descriptor -/

/-- A state changed in registers, queues and engines alone. -/
def State.engineSide (u : State) (r : Tab Word) (q : Tab Queue) (e : Tab Engine) : State :=
  { u with regs := r, host := { u.host with queues := q }, work := { u.work with engines := e } }

/-- The engine that takes a queue's descriptor, before it holds it. -/
def engineTurned (s : State) (kind unit q : Nat) : State :=
  (countArb s kind unit q).modEngine (engineKey kind unit) (fun y => { y with lastQueue := some q, stopped := false })

/-- An engine that has taken a descriptor. -/
def taken (s : State) (kind unit q c : Nat) (e : Entry) : State :=
  putJob (startEntry (engineTurned s kind unit q) q e.pos) kind unit (jobFrom s q c e)

theorem countArb_side (s : State) (kind unit q : Nat) : ∃ r, countArb s kind unit q = { s with regs := r } := by
  unfold countArb
  dsimp only
  split
  · split
    · exact ⟨_, rfl⟩
    · exact ⟨s.regs, rfl⟩
  · exact ⟨s.regs, rfl⟩

theorem taken_side (s : State) (kind unit q c : Nat) (e : Entry) : ∃ r qs es, taken s kind unit q c e = s.engineSide r qs es := by
  obtain ⟨r, hr⟩ := countArb_side s kind unit q
  rw [taken, engineTurned, hr]
  exact ⟨_, _, _, rfl⟩

theorem takeDesc_of_takes {kind unit q c : Nat} {e : Entry} (h : Takes s kind unit q c e) :
    takeDesc s kind unit = (taken s kind unit q c e, some (jobFrom s q c e)) := by
  obtain ⟨hj, hq, he, hc, -, ht⟩ := h
  have hk : (s.engine (engineKey kind unit)).job = none := hj
  obtain ⟨r, hr⟩ := countArb_side s kind unit q
  have htag : ¬ fieldAt e.bytes 4 2 ≠ ctxTag (engineTurned s kind unit q) c := by
    rw [engineTurned, hr]
    exact not_not.2 ht
  have hnow : (engineTurned s kind unit q).now = s.now := by
    rw [engineTurned, hr]
    rfl
  rw [takeDesc]
  dsimp only
  rw [hk, if_neg (by decide), hq]
  dsimp only
  rw [he, hc]
  dsimp only
  rw [taken, jobFrom, ← hnow]
  exact if_neg htag

theorem within_taken (s : State) (kind unit q c : Nat) (e : Entry) : Within 8388872 s (taken s kind unit q c e) :=
  within_putJob _ _ _ _ (within_startEntry _ _ _ (within_modEngine _ _ _ (within_countArb _ _ _ _ (Within.refl s) rfl) rfl) rfl) rfl

theorem jobOf_taken (s : State) (kind unit q c : Nat) (e : Entry) : jobOf (taken s kind unit q c e) kind unit = some (jobFrom s q c e) :=
  jobOf_putJob _ _ _ _

/-- Taking a descriptor leaves the queues but its own. -/
theorem queue_taken (s : State) (kind unit q c : Nat) (e : Entry) {k : Nat} (hk : k ≠ q) : (taken s kind unit q c e).queue k = s.queue k := by
  have hw : Within 8388616 s (engineTurned s kind unit q) := within_modEngine _ _ _ (within_countArb s kind unit q (Within.refl s) rfl) rfl
  rw [taken, queue_same ((within_putJob _ _ _ _ (Within.refl _) (Sub.refl _)).same .queues (by decide)) k, startEntry, State.modQueue,
    queue_setQueue_ne _ _ (Ne.symm hk), queue_same (hw.same .queues (by decide)) k]

/-! ### A descriptor that faults -/

theorem endFault_frame (s : State) (kind unit : Nat) (j : Job) (cause : Nat) (poison : Bool) :
    jobOf (endFault s kind unit j cause poison) kind unit = none ∧
    ((s.ctx j.ctx).mode = .active → Faulted (endFault s kind unit j cause poison) j.ctx cause) := by
  have hw : Within 679481848 s (finishEntry ((freeEngine s kind unit).modEngine (engineKey kind unit) (fun y => { y with stopped := true }))
      j.queue j.pos (jobRecord ((freeEngine s kind unit).modEngine (engineKey kind unit) (fun y => { y with stopped := true })) j 1 cause)) :=
    within_finishEntry _ _ _ _ (within_modEngine _ _ _ (within_freeEngine _ _ _ (Within.refl s) rfl) rfl) rfl
  refine ⟨?_, fun ha => faulted_ctxFault _ _ _ _ _ _ (by rw [ctx_same (hw.same .ctxs (by decide)), ha])⟩
  rw [endFault, jobOf_same ((within_ctxFault _ _ _ _ _ _ (Within.refl _) (Sub.refl _)).same .engines (by decide)),
    jobOf_same ((within_finishEntry _ _ _ _ (Within.refl _) (Sub.refl _)).same .engines (by decide)), jobOf_modEngine]
  exact jobOf_freeEngine s kind unit

/-- A command whose descriptor faults ends it (R419, R423). -/
theorem endsFault_of {i : Instr} {kind unit c cause : Nat} {j : Job} {poison : Bool} (hx : exec i s = .next (endFault v kind unit j cause poison))
    (hj : j.ctx = c) (hm : (v.ctx c).mode = (s.ctx c).mode) : EndsFault i s kind unit c cause := by
  obtain ⟨h1, h2⟩ := endFault_frame v kind unit j cause poison
  subst hj
  exact ⟨_, hx, h1, fun ha => h2 (hm.trans ha)⟩

/-! ### A descriptor that ends done -/

/-- Adds that the tallies of a list of signals take, one after the other (R157). -/
theorem signals_take (l : List (Nat × Nat)) (s : State)
    (h : ∀ e ∈ l, (s.tally e.1).present = true ∧ (s.tally e.1).abandoned = false ∧
      (s.tally e.1).count + ((l.filter (fun x => x.1 == e.1)).map (·.2)).sum ≤ 0xFFFFFFFF ∧ (s.ctx (s.tally e.1).ctx).marks = []) :
    ∃ t, l.foldl (fun a e => if addOverflows a.1 e.1 e.2 then (a.1, true) else (tallyAddOp a.1 e.1 e.2, a.2)) (s, false) = (t, false) ∧
      (Within 20480 s t ∧ Rests s t) ∧
      (∀ k, t.tally k = { s.tally k with count := (s.tally k).count + ((l.filter (fun x => x.1 == k)).map (·.2)).sum }) := by
  induction l generalizing s with
  | nil => exact ⟨s, rfl, ⟨Within.refl s, Rests.refl s⟩, fun k => rfl⟩
  | cons e l ih =>
    obtain ⟨hp, ha, hc, hm⟩ := h e (.head _)
    rw [List.filter_cons_of_pos (by simp), List.map_cons, List.sum_cons] at hc
    have hov : addOverflows s e.1 e.2 = false := by
      have : ¬ 0xFFFFFFFF < (s.tally e.1).count + e.2 := by omega
      simp [addOverflows, this]
    have hadd : tallyAddOp s e.1 e.2 = endExternal (s.modTally e.1 (fun y => { y with count := y.count + e.2 })) e.1 := by
      have hmark : markTally s e.1 = s := by rw [markTally, hm]; rfl
      rw [tallyAddOp]
      dsimp only
      rw [hp, ha, hov, hmark]
      rfl
    have hw : Within 20480 s (tallyAddOp s e.1 e.2) := by
      rw [hadd]
      exact within_endExternal _ _ (within_modTally _ _ _ (Within.refl s) rfl) rfl
    have ht (k : Nat) : (tallyAddOp s e.1 e.2).tally k = if k = e.1 then { s.tally k with count := (s.tally k).count + e.2 } else s.tally k := by
      rw [hadd, tally_same ((within_endExternal _ _ (Within.refl _) (Sub.refl _)).same .tallies (by decide)), State.modTally]
      by_cases hk : k = e.1
      · rw [if_pos hk, hk, tally_setTally]
      · rw [if_neg hk, tally_setTally_ne _ _ (Ne.symm hk)]
    have hr : Rests s (tallyAddOp s e.1 e.2) := by
      rw [hadd]
      exact (rests_endExternal _ _).after rfl rfl rfl
    obtain ⟨t, hx, ⟨hwt, hrt⟩, htt⟩ := ih (tallyAddOp s e.1 e.2) fun x hx => by
      obtain ⟨xp, xa, xc, xm⟩ := h x (.tail _ hx)
      rw [ht x.1, ctx_same (hw.same .ctxs (by decide))]
      by_cases hk : x.1 = e.1
      · rw [if_pos hk]
        rw [List.filter_cons_of_pos (by simp [hk]), List.map_cons, List.sum_cons] at xc
        exact ⟨xp, xa, by dsimp only; omega, xm⟩
      · rw [if_neg hk]
        rw [List.filter_cons_of_neg (by simpa using Ne.symm hk)] at xc
        exact ⟨xp, xa, xc, xm⟩
    refine ⟨t, ?_, ⟨hw.trans hwt rfl rfl, hr.trans hrt⟩, fun k => ?_⟩
    · rw [List.foldl_cons, ← hx]
      dsimp only
      rw [hov, if_neg Bool.false_ne_true]
    · rw [htt k, ht k]
      by_cases hk : k = e.1
      · rw [if_pos hk, List.filter_cons_of_pos (by simp [hk]), List.map_cons, List.sum_cons]
        dsimp only
        rw [Nat.add_assoc]
      · rw [if_neg hk, List.filter_cons_of_neg (by simpa using Ne.symm hk)]

theorem signalAll_takes {b : List Byte} (h : SignalsTake s b) :
    ∃ t, signalAll s b = (t, false) ∧ (Within 20480 s t ∧ Rests s t) ∧ Signalled s t b := signals_take (descSignals b) s h

/-- The descriptor of an engine, done: its signals stand in the tallies, and its engine is free. -/
theorem endCounted_takes {kind unit : Nat} {j : Job} (h : SignalsTake s j.bytes) :
    ∃ w, (Within 8409088 s w ∧ Rests s w) ∧ Signalled s w j.bytes ∧ jobOf w kind unit = none ∧
      ∀ count, endCounted s kind unit j count = finishEntry (count w) j.queue j.pos (jobRecord (count w) j 0 0) := by
  have hs : SignalsTake (freeEngine s kind unit) j.bytes := h
  obtain ⟨w, hw, ⟨hwi, hr⟩, hsig⟩ := signalAll_takes hs
  have hf : Within 8388608 s (freeEngine s kind unit) := within_freeEngine _ _ _ (Within.refl s) (Sub.refl _)
  refine ⟨w, ⟨hf.trans hwi rfl rfl, hr.after rfl rfl rfl⟩, hsig, ?_, fun count => ?_⟩
  · rw [jobOf_same (hwi.same .engines (by decide)), jobOf_freeEngine]
  · rw [endCounted, hw]
    rfl

/-- However a descriptor ends, its engine is free. -/
theorem jobOf_endCounted (s : State) (kind unit : Nat) (j : Job) {count : State → State} (hc : ∀ t, jobOf (count t) kind unit = jobOf t kind unit) :
    jobOf (endCounted s kind unit j count) kind unit = none := by
  unfold endCounted
  dsimp only
  split
  · exact (endFault_frame _ _ _ _ _ _).1
  · rw [jobOf_same ((within_finishEntry _ _ _ _ (Within.refl _) (Sub.refl _)).same .engines (by decide)), hc,
      jobOf_same ((within_signalAll _ _ (Within.refl _) (Sub.refl _)).same .engines (by decide)), jobOf_freeEngine]

/-- Signals that stay as the rest of a step goes on. -/
theorem Signalled.kept {b : List Byte} (h : Signalled s u b) (hs : Area.tallies.same u t) : Signalled s t b := fun k => (tally_same hs k).trans (h k)

theorem finishEntry_only (s : State) (q pos : Nat) (r : Record) : Only (storeAreas ++ [.queues, .out]) s (finishEntry s q pos r) :=
  (within_finishEntry _ _ _ _ (Within.refl s) (Sub.refl _)).only rfl

/-- A command whose descriptor ends done, counted in the areas listed (R66, R351). -/
theorem endsSignalled_of {i : Instr} {kind unit : Nat} {j : Job} {count : State → State} {l : List Area}
    (hx : exec i s = .next (endCounted s kind unit j count)) (ho : ∀ t, Only l t (count t)) (he : Area.engines ∉ l) (ht : Area.tallies ∉ l) :
    EndsSignalled i s kind unit j l := by
  refine ⟨⟨_, hx, jobOf_endCounted _ _ _ _ fun t => jobOf_same (ho t _ he) _ _⟩, fun hs => ?_⟩
  obtain ⟨w, ⟨hw, -⟩, hsig, hj, hend⟩ := endCounted_takes (kind := kind) (unit := unit) hs
  have hf := finishEntry_only (count w) j.queue j.pos (jobRecord (count w) j 0 0)
  have hs : Only [.parts, .tallies, .engines] s w := hw.only rfl
  refine ⟨_, hx, ?_, ?_, ?_⟩
  · rw [hend count, jobOf_same (hf .engines (by decide)), jobOf_same (ho w _ he), hj]
  · rw [hend count]
    exact (hsig.kept (ho w _ ht)).kept (hf .tallies (by decide))
  · rw [hend count]
    have hb : ∀ a ∈ [Area.parts, .tallies, .engines], a ∈ storeAreas ++ [.engines, .queues, .tallies, .out] := by decide
    have hc : ∀ a ∈ storeAreas ++ [Area.queues, .out], a ∈ storeAreas ++ [.engines, .queues, .tallies, .out] := by decide
    exact (hs.trans (ho w) (fun a ha => List.mem_append_left l (hb a ha)) (fun a ha => List.mem_append_right _ ha)).trans hf
      (fun _ ha => ha) (fun a ha => List.mem_append_left l (hc a ha))

/-- A command whose engine watchdog fires (R430). -/
theorem endsFault_watchdog {i : Instr} {kind unit : Nat} {j : Job} (hx : exec i s = .next (engineWatchdog v kind unit j))
    (hm : (v.ctx j.ctx).mode = (s.ctx j.ctx).mode) : EndsFault i s kind unit j.ctx 0x10 := by
  refine endsFault_of hx rfl (Eq.trans ?_ hm)
  have hw : Within 134217864 v (healthEvent (v.bump fFltWdogEngine 0 0 1) (huSection (unitSec kind unit)) 5 10) :=
    within_healthEvent _ _ _ _ (within_bump _ _ _ _ _ (Within.refl v) rfl) rfl
  rw [ctx_same (hw.same .ctxs (by decide))]

end Sys2Proof.Machine
end

section
/-! What an engine sees of a state as it works: the bytes of memory, contexts, regions, tensors and models. Reads that are counted and causes
of holds leave it (R56, R246). -/

namespace Sys2Proof.Machine

variable {s t u v : State}

/-- Two states in which an engine sees the same. -/
structure Sees (s t : State) : Prop where
  bytes : t.mem.bytes = s.mem.bytes
  ctxs : t.objs.ctxs = s.objs.ctxs
  regions : t.objs.regions = s.objs.regions
  tensors : t.objs.tensors = s.objs.tensors
  models : t.objs.models = s.objs.models

theorem Sees.refl (s : State) : Sees s s := ⟨rfl, rfl, rfl, rfl, rfl⟩

theorem Sees.trans (h : Sees s t) (g : Sees t u) : Sees s u :=
  ⟨g.bytes.trans h.bytes, g.ctxs.trans h.ctxs, g.regions.trans h.regions, g.tensors.trans h.tensors, g.models.trans h.models⟩

theorem Within.sees {μ : Nat} (h : Within μ s t) (hb : t.mem.bytes = s.mem.bytes) (hc : μ.testBit 13 = false := by decide)
    (hr : μ.testBit 15 = false := by decide) (ht : μ.testBit 16 = false := by decide) (hm : μ.testBit 18 = false := by decide) : Sees s t :=
  ⟨hb, h.same .ctxs hc, h.same .regions hr, h.same .tensors ht, h.same .models hm⟩

theorem sees_readAll (s : State) (l : List (Nat × Nat)) : Sees s (readAll s l).1 :=
  (within_readAll _ _ (Within.refl s) (Sub.refl _)).sees (bytes_readAll s l)

/-- A state with what an engine sees taken from another. -/
def State.overlay (s o : State) : State :=
  { o with mem := { o.mem with bytes := s.mem.bytes }
           objs := { o.objs with ctxs := s.objs.ctxs, regions := s.objs.regions, tensors := s.objs.tensors, models := s.objs.models } }

theorem Sees.eq (h : Sees s t) : t = s.overlay t := by
  obtain ⟨h1, h2, h3, h4, h5⟩ := h
  rw [State.overlay, ← h1, ← h2, ← h3, ← h4, ← h5]

/-- What rests on what an engine sees alone is the same. -/
theorem Sees.lift {β : Type} (h : Sees s t) (g : State → β) (hg : ∀ o, g (s.overlay o) = g s) : g t = g s := (congrArg g h.eq).trans (hg t)

theorem Sees.readBytes (h : Sees s t) (a n : Nat) : readBytes t a n = readBytes s a n := h.lift (Machine.readBytes · a n) fun _ => rfl

theorem Sees.ctx (h : Sees s t) (c : Nat) : t.ctx c = s.ctx c := h.lift (State.ctx · c) fun _ => rfl

theorem Sees.tensor (h : Sees s t) (p k : Nat) : t.tensor p k = s.tensor p k := h.lift (State.tensor · p k) fun _ => rfl

theorem Sees.routeRun (h : Sees s t) (c : Nat) (b : List Byte) : routeRun t c b = routeRun s c b := h.lift (Machine.routeRun · c b) fun o => by
  unfold Machine.routeRun
  rfl

theorem Sees.routePoison (h : Sees s t) (j : Job) (o : RouteOut) : routePoison t j o = routePoison s j o :=
  h.lift (Machine.routePoison · j o) fun _ => rfl

theorem Sees.optOutputs (h : Sees s t) (j : Job) (w : Val) (c : Option Val) (x : Word) : optOutputs t j w c x = optOutputs s j w c x :=
  h.lift (Machine.optOutputs · j w c x) fun _ => rfl

theorem Sees.optPoison (h : Sees s t) (j : Job) (o : List (Nat × OutRes)) : optPoison t j o = optPoison s j o :=
  h.lift (Machine.optPoison · j o) fun _ => rfl

theorem Sees.mvBlocks (h : Sees s t) (j : Job) : mvBlocks t j = mvBlocks s j := h.lift (Machine.mvBlocks · j) fun _ => rfl

theorem Sees.mvMismatch (h : Sees s t) (j : Job) (k : Nat) (e : Bool) : mvMismatch t j k e = mvMismatch s j k e :=
  h.lift (Machine.mvMismatch · j k e) fun _ => rfl

theorem Sees.mvData (h : Sees s t) (b : List Byte) : mvData t b = mvData s b := h.lift (Machine.mvData · b) fun _ => rfl

theorem Sees.blockGood (h : Sees s t) (x : Tensor) (w : Word32) (b a n : Nat) : blockGood t x w b a n = blockGood s x w b a n :=
  h.lift (Machine.blockGood · x w b a n) fun _ => rfl

/-! ### Accesses -/

theorem accessOk_overlay {o : State} (hr : Rests s (s.overlay o)) (c a n : Nat) (w : Bool) : accessOk (s.overlay o) c a n w = accessOk s c a n w := by
  unfold accessOk
  dsimp only
  rw [inPartition_congr hr]
  rfl

/-- The checks of an access rest on what an engine sees and on what stays of functions and partitions. -/
theorem Sees.writeOk (h : Sees s t) (hr : Rests s t) (c a n : Nat) : writeOk t c a n = writeOk s c a n := by
  rw [h.eq, Machine.writeOk, Machine.writeOk, accessOk_overlay (h.eq ▸ hr)]
  rfl

theorem Sees.readOk (h : Sees s t) (hr : Rests s t) (c a n : Nat) : readOk t c a n = readOk s c a n := by
  rw [h.eq]
  exact accessOk_overlay (h.eq ▸ hr) c a n false

theorem Sees.cellsOk (h : Sees s t) (hr : Rests s t) (c : Nat) (l : List Cell) : cellsOk t c l = cellsOk s c l := by
  unfold Machine.cellsOk
  exact congrArg l.all (funext fun e => h.writeOk hr c e.1 1)

end Sys2Proof.Machine
end

section
/-! MOVER_TRANSFER, CRC_SECOND_READ, MOVER_COMPLETE and MOVER_WATCHDOG (R56, R62, R63, R65, R66, R89, R380, R430). -/

namespace Sys2Proof.Machine

variable {s t u v : State}

/-! ### A descriptor that an engine has taken -/

section
variable {kind unit q c : Nat} {e : Entry}

theorem taken_lift {β : Type} (g : State → β) (hg : ∀ r qs es, g (s.engineSide r qs es) = g s) : g (taken s kind unit q c e) = g s := by
  obtain ⟨r, qs, es, h⟩ := taken_side s kind unit q c e
  rw [h, hg]

theorem sees_taken (s : State) (kind unit q c : Nat) (e : Entry) : Sees s (taken s kind unit q c e) :=
  (within_taken s kind unit q c e).sees (bytes_of_memory ((within_taken s kind unit q c e).same .memory (by decide)))

theorem rests_taken (s : State) (kind unit q c : Nat) (e : Entry) : Rests s (taken s kind unit q c e) := (within_taken s kind unit q c e).rests

/-- Reads of the state with the descriptor taken deliver what reads of the state before it do. -/
theorem clean_taken (l : List (Nat × Nat)) : Clean (taken s kind unit q c e) l ↔ Clean s l := (within_taken s kind unit q c e).readsAs.clean l

end

/-- The state after reads. -/
def readOver (s : State) (l : List (Nat × Nat)) : State := (readAll s l).1

theorem within_readOver (s : State) (l : List (Nat × Nat)) : Within 134222008 s (readOver s l) := within_readAll _ _ (Within.refl s) (Sub.refl _)

theorem sees_readOver (s : State) (l : List (Nat × Nat)) : Sees s (readOver s l) := sees_readAll s l

theorem rests_readOver (s : State) (l : List (Nat × Nat)) : Rests s (readOver s l) := rests_readAll s l

theorem worstOf_clean {l : List (Nat × Nat)} (h : Clean s l) : worstOf (readAll s l).2 = none := by
  rw [show (readAll s l).2 = [] from h]
  rfl

theorem worstOf_unclean {l : List (Nat × Nat)} (h : ¬ Clean s l) : ∃ p, worstOf (readAll s l).2 = some p := worstOf_isSome h

/-! ### The data of a transfer -/

/-- What a transfer leaves that moves its data. -/
def moved (s : State) (m : Nat) (j : Job) : State :=
  let w := writeMem s (mvDst j.bytes) (mvData s j.bytes) false
  putJob ((if mvOp j.bytes = 1 then w else mvStoreCrcs w j).bump fHbmMoverBlocksBlocks (m / 8) 0 (ceilDiv (mvLen j.bytes) 4096)) 1 m
    { j with phase := .dataDone }

theorem mvRun_waits {m k n : Nat} {j : Job} {e : Bool} (ho : mvOp j.bytes = 1) (hm : mvMismatch s j k e = some n) :
    mvRun s m j k e = addCause (putJob s 1 m { j with phase := .reread n }) (s.ctx j.ctx).part 6 (rereadKey 1 m) none := by
  rw [mvRun, if_pos ho, hm]

theorem mvRun_moves {m k : Nat} {j : Job} {e : Bool} (h : mvOp j.bytes ≠ 1 ∨ mvMismatch s j k e = none) : mvRun s m j k e = moved s m j := by
  have hw : (if mvOp j.bytes = 1 then mvMismatch s j k e else none) = none := by
    split
    next ho => exact h.resolve_left (not_not.2 ho)
    next => rfl
  rw [mvRun, hw]
  rfl

theorem mvRun_waits_frame {m k n : Nat} {j : Job} {e : Bool} (ho : mvOp j.bytes = 1) (hm : mvMismatch s j k e = some n) :
    jobOf (mvRun s m j k e) 1 m = some { j with phase := .reread n } ∧ SameBytes s (mvRun s m j k e) ∧ Within 8392704 s (mvRun s m j k e) := by
  rw [mvRun_waits ho hm]
  have hw : Within 8392704 s (addCause (putJob s 1 m { j with phase := .reread n }) (s.ctx j.ctx).part 6 (rereadKey 1 m) none) :=
    within_addCause _ _ _ _ _ (within_putJob _ _ _ _ (Within.refl s) rfl) rfl
  refine ⟨?_, sameBytes_of_within hw (bytes_of_memory (hw.same .memory (by decide))), hw⟩
  rw [jobOf_same ((within_addCause _ _ _ _ _ (Within.refl _) (Sub.refl _)).same .engines (by decide)), jobOf_putJob]

theorem jobOf_moved (s : State) (m : Nat) (j : Job) : jobOf (moved s m j) 1 m = some { j with phase := .dataDone } := jobOf_putJob _ _ _ _

theorem within_moved (s : State) (m : Nat) (j : Job) : Within 142610616 s (moved s m j) :=
  within_putJob _ _ _ _ (within_bump _ _ _ _ _ (within_ite (within_writeMem _ _ _ _ (Within.refl s) rfl)
    (within_mvStoreCrcs _ _ (within_writeMem _ _ _ _ (Within.refl s) rfl) rfl)) rfl) rfl

theorem bytes_moved (s : State) (m : Nat) (j : Job) : (moved s m j).mem.bytes =
    (if mvOp j.bytes = 1 then writeMem s (mvDst j.bytes) (mvData s j.bytes) false
     else mvStoreCrcs (writeMem s (mvDst j.bytes) (mvData s j.bytes) false) j).mem.bytes :=
  bytes_of_memory ((within_putJob _ _ _ _ (within_bump _ _ _ _ _ (Within.refl _) rfl : Within 8388616 _ _) rfl).same .memory (by decide))

theorem hostMem_moved (s : State) (m : Nat) (j : Job) : (moved s m j).hostMem = s.hostMem := (within_moved s m j).same .hostMemory (by decide)

/-- The blocks of a transfer rest on the tensors and contexts. -/
theorem mvBlocks_congr (ht : Area.tensors.same s t) (hc : Area.ctxs.same s t) (j : Job) : mvBlocks t j = mvBlocks s j := by
  unfold mvBlocks
  simp only [tensor_same ht, ctx_same hc]

/-- The data stand at the destination where no checksum is stored. -/
theorem storedAt_moved (m : Nat) {j : Job} (h : mvOp j.bytes = 1 ∨ mvBlocks s j = []) : StoredAt s (moved s m j) (mvDst j.bytes) (mvData s j.bytes) := by
  have hw := within_writeMem s (mvDst j.bytes) (mvData s j.bytes) false (Within.refl s) (Sub.refl _)
  refine (storedAt_writeMem s (mvDst j.bytes) (mvData s j.bytes) false).onto ?_ ((hostMem_moved s m j).trans (hw.same .hostMemory (by decide)).symm)
  rw [bytes_moved]
  split
  next => rfl
  next ho =>
    have hb : mvBlocks (writeMem s (mvDst j.bytes) (mvData s j.bytes) false) j = [] :=
      (mvBlocks_congr (hw.same .tensors (by decide)) (hw.same .ctxs (by decide)) j).trans (h.resolve_left ho)
    unfold mvStoreCrcs
    rw [hb]
    rfl

/-! ### Stored checksums -/

/-- The checksum of a block, and the bytes in which it is stored. -/
def blockSum (x : Tensor) (w : Word32) (e : Nat × Nat × Nat) (s : State) : Word32 := blockCrc x.desc.id e.1 w (blockData s e.2)
def storeSum (x : Tensor) (w : Word32) (e : Nat × Nat × Nat) (s : State) : State :=
  storeBytes s (x.homeDesc.crcAddr + 4 * e.1) (leBytes 4 (blockSum x w e s).toNat)

theorem mvStoreCrcs_eq (s : State) (j : Job) : mvStoreCrcs s j =
    forEach (mvBlocks s j) s (storeSum (s.tensor (s.ctx j.ctx).part (mvTensor j.bytes)) j.version) := rfl

/-- Bytes of a range are as they were. -/
def AgreeIn (s t : State) (a n : Nat) : Prop := ∀ k, a ≤ k → k < a + n → memByte t k = memByte s k

theorem AgreeIn.readBytes {a n b m : Nat} (h : AgreeIn s t a n) (h1 : a ≤ b) (h2 : b + m ≤ a + n) : readBytes t b m = readBytes s b m :=
  List.map_congr_left fun i hi => h (b + i) (by omega) (by have := List.mem_range.1 hi; omega)

/-- A number in bytes, read back, is the number that fits in them. -/
theorem leNat_leBytes_mod (n v : Nat) : leNat (leBytes n v) = v % 256 ^ n := by
  induction n generalizing v with
  | zero => exact (Nat.mod_one v).symm
  | succ n ih => rw [leBytes, leNat, ih, Nat.pow_succ', Nat.mod_mul, BitVec.toNat_ofNat]

theorem storedCrc_of_stored {d : TensorDesc} {b : Nat} {w : Word32} (h : StoredAt s t (d.crcAddr + 4 * b) (leBytes 4 w.toNat)) : storedCrc t d b = w := by
  have hr : readBytes t (d.crcAddr + 4 * b) 4 = leBytes 4 w.toNat := by
    rw [← h.1, length_leBytes]
  rw [storedCrc, hr, leNat_leBytes_mod, Nat.mod_eq_of_lt (show w.toNat < 256 ^ 4 from w.isLt), BitVec.ofNat_toNat, BitVec.setWidth_eq]

/-- Checksums stored beside the data that they cover stand, each as the data ask. -/
theorem sums_stored {x : Tensor} {w : Word32} {a n : Nat} {l : List (Nat × Nat × Nat)} (hin : ∀ e ∈ l, a ≤ e.2.1 ∧ e.2.1 + e.2.2 ≤ a + n)
    (hout : ∀ e ∈ l, x.homeDesc.crcAddr + 4 * e.1 + 4 ≤ a ∨ a + n ≤ x.homeDesc.crcAddr + 4 * e.1) (hinj : ∀ e ∈ l, ∀ f ∈ l, e.1 = f.1 → e = f) (s : State) :
    AgreeIn s (forEach l s (storeSum x w)) a n ∧
    (∀ k, (∀ e ∈ l, k < x.homeDesc.crcAddr + 4 * e.1 ∨ x.homeDesc.crcAddr + 4 * e.1 + 4 ≤ k) → memByte (forEach l s (storeSum x w)) k = memByte s k) ∧
    (∀ e ∈ l, storedCrc (forEach l s (storeSum x w)) x.homeDesc e.1 = blockSum x w e s) := by
  induction l generalizing s with
  | nil => exact ⟨fun _ _ _ => rfl, fun _ _ => rfl, fun _ h => nomatch h⟩
  | cons e l ih =>
    have hst : StoredAt s (storeSum x w e s) (x.homeDesc.crcAddr + 4 * e.1) (leBytes 4 (blockSum x w e s).toNat) := storedAt_storeBytes _ _ _
    have hkeep (k : Nat) (hk : k < x.homeDesc.crcAddr + 4 * e.1 ∨ x.homeDesc.crcAddr + 4 * e.1 + 4 ≤ k) : memByte (storeSum x w e s) k = memByte s k :=
      hst.2.1 k (by rw [length_leBytes]; exact hk)
    have hag : AgreeIn s (storeSum x w e s) a n := fun k h1 h2 => hkeep k (by have := hout e (.head _); omega)
    have hsum (f : Nat × Nat × Nat) (hf : a ≤ f.2.1 ∧ f.2.1 + f.2.2 ≤ a + n) : blockSum x w f (storeSum x w e s) = blockSum x w f s := by
      rw [blockSum, blockSum, blockData, blockData, hag.readBytes hf.1 hf.2]
    obtain ⟨h1, h2, h3⟩ := ih (fun f hf => hin f (.tail _ hf)) (fun f hf => hout f (.tail _ hf))
      (fun f hf g hg => hinj f (.tail _ hf) g (.tail _ hg)) (storeSum x w e s)
    refine ⟨fun k hk1 hk2 => (h1 k hk1 hk2).trans (hag k hk1 hk2), fun k hk => (h2 k fun f hf => hk f (.tail _ hf)).trans (hkeep k (hk e (.head _))),
      fun f hf => ?_⟩
    by_cases hl : f ∈ l
    · exact (h3 f hl).trans (hsum f (hin f hf))
    · obtain rfl : f = e := (List.mem_cons.1 hf).resolve_right hl
      refine Eq.trans ?_ (storedCrc_of_stored hst)
      have hb : readBytes (forEach (f :: l) s (storeSum x w)) (x.homeDesc.crcAddr + 4 * f.1) 4 =
          readBytes (storeSum x w f s) (x.homeDesc.crcAddr + 4 * f.1) 4 :=
        List.map_congr_left fun i hi => h2 _ fun g hg => by
          have hi := List.mem_range.1 hi
          have hne : g.1 ≠ f.1 := fun h => hl (hinj g (.tail _ hg) f hf h ▸ hg)
          omega
      rw [storedCrc, storedCrc, hb]

theorem mem_wholeBlocks {d : TensorDesc} {a n : Nat} {e : Nat × Nat × Nat} (h : e ∈ wholeBlocks d a n) :
    blockPlace d.arrays e.1 = some e.2 ∧ a ≤ e.2.1 ∧ e.2.1 + e.2.2 ≤ a + n := by
  unfold wholeBlocks at h
  obtain ⟨hm, hr⟩ := List.mem_filter.1 h
  obtain ⟨b, -, hb⟩ := List.mem_filterMap.1 hm
  obtain ⟨p, hp, rfl⟩ := Option.map_eq_some_iff.1 hb
  simp only [Bool.and_eq_true, decide_eq_true_eq] at hr
  exact ⟨hp, hr⟩

theorem mem_mvBlocks {j : Job} {e : Nat × Nat × Nat} (h : e ∈ mvBlocks s j) :
    e ∈ wholeBlocks (s.tensor (s.ctx j.ctx).part (mvTensor j.bytes)).homeDesc (mvHbm j.bytes) (mvLen j.bytes) := by
  unfold mvBlocks at h
  dsimp only at h
  split at h
  · exact h
  · exact nomatch h

theorem length_mvData (s : State) (b : List Byte) : (mvData s b).length = mvLen b := by
  unfold mvData
  split
  · exact List.length_replicate
  · rw [readBytes, List.length_map, upTo, List.length_range]

/-- The data stand at the destination with the checksums of their whole blocks. -/
theorem moved_sums (m : Nat) {j : Job} (ho : mvOp j.bytes ≠ 1)
    (hd : ∀ k ∈ mvBlocks s j, (s.tensor (s.ctx j.ctx).part (mvTensor j.bytes)).homeDesc.crcAddr + 4 * k.1 + 4 ≤ mvDst j.bytes ∨
      mvDst j.bytes + mvLen j.bytes ≤ (s.tensor (s.ctx j.ctx).part (mvTensor j.bytes)).homeDesc.crcAddr + 4 * k.1) :
    readBytes (moved s m j) (mvDst j.bytes) (mvLen j.bytes) = mvData s j.bytes ∧
    ∀ k ∈ mvBlocks s j, storedCrc (moved s m j) (s.tensor (s.ctx j.ctx).part (mvTensor j.bytes)).homeDesc k.1 =
      blockSum (s.tensor (s.ctx j.ctx).part (mvTensor j.bytes)) j.version k (moved s m j) := by
  have hin (k : Nat × Nat × Nat) (hk : k ∈ mvBlocks s j) : mvDst j.bytes ≤ k.2.1 ∧ k.2.1 + k.2.2 ≤ mvDst j.bytes + mvLen j.bytes := by
    have h := (mem_wholeBlocks (mem_mvBlocks hk)).2
    rwa [mvHbm, if_neg ho] at h
  obtain ⟨w, hw⟩ : ∃ w, w = writeMem s (mvDst j.bytes) (mvData s j.bytes) false := ⟨_, rfl⟩
  have hww : Within 134222008 s w := hw ▸ within_writeMem s (mvDst j.bytes) (mvData s j.bytes) false (Within.refl s) (Sub.refl _)
  have hst : StoredAt s w (mvDst j.bytes) (mvData s j.bytes) := hw ▸ storedAt_writeMem s (mvDst j.bytes) (mvData s j.bytes) false
  obtain ⟨hag, -, hsum⟩ := sums_stored (x := s.tensor (s.ctx j.ctx).part (mvTensor j.bytes)) (w := j.version) (l := mvBlocks s j) hin hd
    (fun e he f hf h => Prod.ext h (Option.some.inj ((mem_wholeBlocks (mem_mvBlocks he)).1.symm.trans
      ((congrArg _ h).trans (mem_wholeBlocks (mem_mvBlocks hf)).1)))) w
  have hb : (moved s m j).mem.bytes = (forEach (mvBlocks s j) w (storeSum (s.tensor (s.ctx j.ctx).part (mvTensor j.bytes)) j.version)).mem.bytes := by
    rw [bytes_moved, if_neg ho, ← hw, mvStoreCrcs_eq, mvBlocks_congr (hww.same .tensors (by decide)) (hww.same .ctxs (by decide)),
      ctx_same (hww.same .ctxs (by decide)), tensor_same (hww.same .tensors (by decide))]
  have hbyte (k : Nat) := memByte_same hb k
  have hag' : AgreeIn w (moved s m j) (mvDst j.bytes) (mvLen j.bytes) := fun k h1 h2 => (hbyte k).trans (hag k h1 h2)
  refine ⟨?_, fun k hk => ?_⟩
  · rw [hag'.readBytes (Nat.le_refl _) (Nat.le_refl _)]
    have h := hst.1
    rwa [length_mvData] at h
  · have hc : storedCrc (moved s m j) (s.tensor (s.ctx j.ctx).part (mvTensor j.bytes)).homeDesc k.1 =
        blockSum (s.tensor (s.ctx j.ctx).part (mvTensor j.bytes)) j.version k w := by
      rw [← hsum k hk, storedCrc, storedCrc, readBytes, readBytes]
      simp only [hbyte]
    rw [hc, blockSum, blockSum, blockData, blockData, hag'.readBytes (hin k hk).1 (hin k hk).2]

end Sys2Proof.Machine
end

section
/-! What the commands of the movers leave (R56, R62 to R66, R380, R430). -/

namespace Sys2Proof.Machine

variable {s t u v : State}

/-! ### MOVER_TRANSFER -/

section
variable {m q c : Nat} {e : Entry} {pe : Bool} (h : Takes u 1 m q c e)
include h

theorem moverTransfer_bad (hb : mvBad u m (jobFrom u q c e) = true) :
    moverTransferOp m pe u = endFault (taken u 1 m q c e) 1 m (jobFrom u q c e) 1 false := by
  have hb' : mvBad (taken u 1 m q c e) m (jobFrom u q c e) = true := (taken_lift (mvBad · m (jobFrom u q c e)) fun _ _ _ => rfl).trans hb
  rw [moverTransferOp, takeDesc_of_takes h]
  exact if_pos hb'

theorem moverTransfer_refused (hb : mvBad u m (jobFrom u q c e) = false)
    (ho : ¬ ((mvOp e.bytes = 3 ∨ readOk u c (mvSrc e.bytes) (mvLen e.bytes) = true) ∧ writeOk u c (mvDst e.bytes) (mvLen e.bytes) = true)) :
    moverTransferOp m pe u = endFault (taken u 1 m q c e) 1 m (jobFrom u q c e) 0x0E false := by
  have hb' : mvBad (taken u 1 m q c e) m (jobFrom u q c e) = false := (taken_lift (mvBad · m (jobFrom u q c e)) fun _ _ _ => rfl).trans hb
  have ho' : (mvOp e.bytes != 3 && !readOk (taken u 1 m q c e) c (mvSrc e.bytes) (mvLen e.bytes) ||
      !writeOk (taken u 1 m q c e) c (mvDst e.bytes) (mvLen e.bytes)) = true := by
    rw [(sees_taken u 1 m q c e).readOk (rests_taken u 1 m q c e), (sees_taken u 1 m q c e).writeOk (rests_taken u 1 m q c e)]
    rw [Bool.or_eq_true, Bool.and_eq_true, bne_iff_ne, Bool.not_eq_true', Bool.not_eq_true', ← Bool.not_eq_true, ← Bool.not_eq_true]
    tauto
  rw [moverTransferOp, takeDesc_of_takes h]
  exact (if_neg (Bool.eq_false_iff.1 hb')).trans (if_pos ho')

/-- The descriptor with the version of its tensor. -/
def mvJob (u : State) (q c : Nat) (e : Entry) : Job :=
  { jobFrom u q c e with version := (u.tensor (u.ctx c).part (mvTensor e.bytes)).desc.version }

theorem moverTransfer_reads (hb : mvBad u m (jobFrom u q c e) = false)
    (ho : (mvOp e.bytes = 3 ∨ readOk u c (mvSrc e.bytes) (mvLen e.bytes) = true) ∧ writeOk u c (mvDst e.bytes) (mvLen e.bytes) = true) :
    (¬ Clean u (mvReads u (mvJob u q c e)) → ∃ b p, moverTransferOp m pe u =
      endFault (mvSpoil (readOver (taken u 1 m q c e) (mvReads u (mvJob u q c e))) e.bytes b) 1 m (mvJob u q c e) 6 p) ∧
    (Clean u (mvReads u (mvJob u q c e)) →
      moverTransferOp m pe u = mvRun (readOver (taken u 1 m q c e) (mvReads u (mvJob u q c e))) m (mvJob u q c e) 0 pe) := by
  have hb' : mvBad (taken u 1 m q c e) m (jobFrom u q c e) = false := (taken_lift (mvBad · m (jobFrom u q c e)) fun _ _ _ => rfl).trans hb
  have ho' : ¬ (mvOp e.bytes != 3 && !readOk (taken u 1 m q c e) c (mvSrc e.bytes) (mvLen e.bytes) ||
      !writeOk (taken u 1 m q c e) c (mvDst e.bytes) (mvLen e.bytes)) = true := by
    rw [(sees_taken u 1 m q c e).readOk (rests_taken u 1 m q c e), (sees_taken u 1 m q c e).writeOk (rests_taken u 1 m q c e)]
    rcases ho with ⟨ho | ho, hw⟩ <;> simp [ho, hw]
  have hv : { jobFrom u q c e with version := ((taken u 1 m q c e).tensor ((taken u 1 m q c e).ctx c).part (mvTensor e.bytes)).desc.version } = mvJob u q c e := by
    rw [(sees_taken u 1 m q c e).ctx, (sees_taken u 1 m q c e).tensor, mvJob]
  have hrd : mvReads (taken u 1 m q c e) (mvJob u q c e) = mvReads u (mvJob u q c e) := taken_lift (mvReads · (mvJob u q c e)) fun _ _ _ => rfl
  have hx : moverTransferOp m pe u = match worstOf (readAll (taken u 1 m q c e) (mvReads u (mvJob u q c e))).2 with
      | some poison => endFault (mvSpoil (readOver (taken u 1 m q c e) (mvReads u (mvJob u q c e))) e.bytes
          (readAll (taken u 1 m q c e) (mvReads u (mvJob u q c e))).2) 1 m (mvJob u q c e) 6 poison
      | none => mvRun (readOver (taken u 1 m q c e) (mvReads u (mvJob u q c e))) m (mvJob u q c e) 0 pe := by
    rw [moverTransferOp, takeDesc_of_takes h]
    refine (if_neg (Bool.eq_false_iff.1 hb')).trans ((if_neg ho').trans ?_)
    rw [← hrd, ← hv]
    rfl
  rw [hx]
  refine ⟨fun hc => ?_, fun hc => ?_⟩
  · obtain ⟨p, hp⟩ := worstOf_unclean (mt (clean_taken _).1 hc)
    rw [hp]
    exact ⟨_, p, rfl⟩
  · rw [worstOf_clean ((clean_taken _).2 hc)]

end

/-- Where a transfer's reads leave the state: an engine sees what it saw. -/
theorem sees_transfer (u : State) (m q c : Nat) (e : Entry) (l : List (Nat × Nat)) : Sees u (readOver (taken u 1 m q c e) l) :=
  (sees_taken u 1 m q c e).trans (sees_readOver _ l)

theorem within_transfer (u : State) (m q c : Nat) (e : Entry) (l : List (Nat × Nat)) : Within 142610872 u (readOver (taken u 1 m q c e) l) :=
  (within_taken u 1 m q c e).trans (within_readOver _ l) rfl rfl

theorem queue_transfer (u : State) (m q c : Nat) (e : Entry) (l : List (Nat × Nat)) {k : Nat} (hk : k ≠ q) :
    (readOver (taken u 1 m q c e) l).queue k = u.queue k :=
  (queue_same ((within_readOver _ l).same .queues (by decide)) k).trans (queue_taken u 1 m q c e hk)

theorem hostMem_transfer (u : State) (m q c : Nat) (e : Entry) (l : List (Nat × Nat)) : (readOver (taken u 1 m q c e) l).hostMem = u.hostMem :=
  (within_transfer u m q c e l).same .hostMemory (by decide)

/-- What may differ after a transfer. -/
theorem transfer_only {m q c : Nat} {e : Entry} {l : List (Nat × Nat)} (h : Within 142610616 (readOver (taken u 1 m q c e) l) t) :
    (∀ k, k ≠ q → t.queue k = u.queue k) ∧ Only (readAreas ++ [.queues, .engines]) u t :=
  ⟨fun k hk => (queue_same (h.same .queues (by decide)) k).trans (queue_transfer u m q c e l hk),
    ((within_transfer u m q c e l).trans h rfl rfl : Within 142610872 u t).only rfl⟩

/-- The ends of MOVER_TRANSFER in a fault. -/
theorem moverTransfer_faults (m : MoverId) (hits : List Hit) (pe : Bool) {q c : Nat} {e : Entry} (h : Takes (upsetWords s hits) 1 m.val q c e) :
    let u := upsetWords s hits
    let ok := (mvOp e.bytes = 3 ∨ readOk u c (mvSrc e.bytes) (mvLen e.bytes) = true) ∧ writeOk u c (mvDst e.bytes) (mvLen e.bytes) = true
    (mvBad u m.val (mvJob u q c e) = true → EndsFault (.moverTransfer m hits pe) s 1 m.val c 1) ∧
    (mvBad u m.val (mvJob u q c e) = false → ¬ ok → EndsFault (.moverTransfer m hits pe) s 1 m.val c 0x0E) ∧
    (mvBad u m.val (mvJob u q c e) = false → ok → ¬ Clean u (mvReads u (mvJob u q c e)) → EndsFault (.moverTransfer m hits pe) s 1 m.val c 6) := by
  intro u ok
  have hu : ((taken u 1 m.val q c e).ctx c).mode = (s.ctx c).mode := by
    rw [(sees_taken u 1 m.val q c e).ctx, ctx_same (upsetWords_only s hits .ctxs (by decide))]
  refine ⟨fun hb => ?_, fun hb ho => ?_, fun hb ho hc => ?_⟩
  · exact endsFault_of (congrArg _ (moverTransfer_bad h hb)) rfl hu
  · exact endsFault_of (congrArg _ (moverTransfer_refused h hb ho)) rfl hu
  · obtain ⟨b, p, hx⟩ := (moverTransfer_reads (pe := pe) h hb ho).1 hc
    refine endsFault_of (congrArg _ hx) rfl ?_
    rw [ctx_same ((within_mvSpoil _ _ _ (Within.refl _) (Sub.refl _)).same .ctxs (by decide)), (sees_readOver _ _).ctx, hu]

/-- A transfer whose words are all delivered: its blocks wait for a second read, or its data move. -/
theorem moverTransfer_runs (m : MoverId) (hits : List Hit) (pe : Bool) {q c : Nat} {e : Entry} (h : Takes (upsetWords s hits) 1 m.val q c e)
    (hb : mvBad (upsetWords s hits) m.val (mvJob (upsetWords s hits) q c e) = false)
    (ho : (mvOp e.bytes = 3 ∨ readOk (upsetWords s hits) c (mvSrc e.bytes) (mvLen e.bytes) = true) ∧
      writeOk (upsetWords s hits) c (mvDst e.bytes) (mvLen e.bytes) = true)
    (hc : Clean (upsetWords s hits) (mvReads (upsetWords s hits) (mvJob (upsetWords s hits) q c e))) :
    let u := upsetWords s hits
    let j := mvJob u q c e
    let rd := readOver (taken u 1 m.val q c e) (mvReads u j)
    (∀ k, mvOp e.bytes = 1 → mvMismatch u j 0 pe = some k →
      ∃ t, exec (.moverTransfer m hits pe) s = .next t ∧ jobOf t 1 m.val = some { j with phase := .reread k } ∧ SameBytes u t ∧
        (∀ k, k ≠ q → t.queue k = u.queue k) ∧ Only (readAreas ++ [.queues, .engines]) u t) ∧
    (mvOp e.bytes ≠ 1 ∨ mvMismatch u j 0 pe = none →
      exec (.moverTransfer m hits pe) s = .next (moved rd m.val j) ∧ jobOf (moved rd m.val j) 1 m.val = some { j with phase := .dataDone } ∧
        (∀ k, k ≠ q → (moved rd m.val j).queue k = u.queue k) ∧ Only (readAreas ++ [.queues, .engines]) u (moved rd m.val j)) := by
  intro u j rd
  have hs : Sees u rd := sees_transfer u m.val q c e _
  have hx : exec (.moverTransfer m hits pe) s = .next (mvRun rd m.val j 0 pe) := congrArg Host.Outcome.next ((moverTransfer_reads h hb ho).2 hc)
  refine ⟨fun k hop hk => ?_, fun hop => ?_⟩
  · obtain ⟨h1, h2, h3⟩ := mvRun_waits_frame (s := rd) (m := m.val) hop ((hs.mvMismatch j 0 pe).trans hk)
    refine ⟨_, hx, h1, fun a => ⟨(h2 a).1.trans (memByte_same hs.bytes a), (h2 a).2.trans ?_⟩, transfer_only (h3.trans (Within.refl _) rfl (Sub.refl _))⟩
    exact congrArg (tabGet 0 · a) (hostMem_transfer u m.val q c e _)
  · rw [mvRun_moves (hop.imp id fun hn => (hs.mvMismatch j 0 pe).trans hn)] at hx
    exact ⟨hx, jobOf_moved _ _ _, transfer_only (within_moved _ _ _)⟩

/-! ### CRC_SECOND_READ -/

/-- The state after the hold of a second read. -/
def unheld (s : State) (m : Nat) (j : Job) : State := dropCauses s (s.ctx j.ctx).part (fun c => c.field == 6 && c.key == rereadKey 1 m)

/-- The state after a second read that cleared the mismatch. -/
def rereadCleared (s : State) (m : Nat) (j : Job) (a : Nat) : State := crcCleared (unheld s m j) a

/-- The state after a second read that met the mismatch again. -/
def rereadFailed (s : State) (m : Nat) (j : Job) (a : Nat) : State :=
  crcFailed (partialWrites (unheld s m j) (cellsAt (mvDst j.bytes) ((mvData (unheld s m j) j.bytes).take (a - mvSrc j.bytes)))) a

theorem within_unheld (s : State) (m : Nat) (j : Job) : Within 4096 s (unheld s m j) := within_dropCauses _ _ _ (Within.refl s) (Sub.refl _)

theorem within_rereadCleared (s : State) (m : Nat) (j : Job) (a : Nat) : Within 134221960 s (rereadCleared s m j a) :=
  (within_unheld s m j).trans (within_crcCleared _ a (Within.refl _) (Sub.refl _)) rfl rfl

theorem sees_unheld (s : State) (m : Nat) (j : Job) : Sees s (unheld s m j) :=
  (within_unheld s m j).sees (bytes_of_memory ((within_unheld s m j).same .memory (by decide)))

theorem sees_rereadCleared (s : State) (m : Nat) (j : Job) (a : Nat) : Sees s (rereadCleared s m j a) :=
  (within_rereadCleared s m j a).sees (bytes_of_memory ((within_rereadCleared s m j a).same .memory (by decide)))

section
variable {m k : Nat} {pe : Bool} {j : Job} {x : Nat × Nat × Nat} (hj : jobOf s 1 m = some j) (hp : j.phase = .reread k)
  (hx : (mvBlocks s j)[k]? = some x)
include hj hp hx

theorem moverReread_bad
    (hg : (!pe && blockGood s (s.tensor (s.ctx j.ctx).part (mvTensor j.bytes)) j.version x.1 x.2.1 x.2.2) = false) :
    moverReread m pe s = endFault (rereadFailed s m j x.2.1) 1 m j 7 false := by
  rw [← (sees_unheld s m j).blockGood] at hg
  rw [← (sees_unheld s m j).mvBlocks] at hx
  rw [moverReread]
  rw [hj]
  dsimp only
  rw [hp]
  dsimp only
  rw [← unheld, hx]
  exact if_neg (Bool.eq_false_iff.1 hg)

theorem moverReread_good
    (hg : (!pe && blockGood s (s.tensor (s.ctx j.ctx).part (mvTensor j.bytes)) j.version x.1 x.2.1 x.2.2) = true) :
    moverReread m pe s = if jobStopped s j then endStopped (rereadCleared s m j x.2.1) 1 m j else mvRun (rereadCleared s m j x.2.1) m j (k + 1) false := by
  have hs : jobStopped (rereadCleared s m j x.2.1) j = jobStopped s j := by
    rw [jobStopped, jobStopped, queue_same ((within_rereadCleared s m j x.2.1).same .queues (by decide))]
  rw [← (sees_unheld s m j).blockGood] at hg
  rw [← (sees_unheld s m j).mvBlocks] at hx
  rw [moverReread, ← hs]
  rw [hj]
  dsimp only
  rw [hp]
  dsimp only
  rw [← unheld, hx]
  exact if_pos hg

end

end Sys2Proof.Machine
end

section
/-! The end of a mover's descriptor and its record; the statement about the movers (R66, R349, R351, R430). -/

namespace Sys2Proof.Machine

variable {s t u v : State}

/-! ### CRC_SECOND_READ, as a command -/

section
variable {m : MoverId} {k : Nat} {pe : Bool} {j : Job} {x : Nat × Nat × Nat} (hj : jobOf s 1 m.val = some j) (hp : j.phase = .reread k)
  (hx : (mvBlocks s j)[k]? = some x)
include hj hp hx

theorem secondRead_bad (hg : (!pe && blockGood s (s.tensor (s.ctx j.ctx).part (mvTensor j.bytes)) j.version x.1 x.2.1 x.2.2) = false) :
    EndsFault (.crcSecondRead (.mover m) pe) s 1 m.val j.ctx 7 := by
  refine endsFault_of (congrArg Host.Outcome.next (moverReread_bad hj hp hx hg)) rfl ?_
  have hw : Within 1207963864 s (rereadFailed s m.val j x.2.1) :=
    (within_unheld s m.val j).trans (within_crcFailed _ _ (within_partialWrites _ _ (Within.refl _) rfl) rfl : Within 1207959768 _ _) rfl rfl
  rw [ctx_same (hw.same .ctxs (by decide))]

section
variable (hg : (!pe && blockGood s (s.tensor (s.ctx j.ctx).part (mvTensor j.bytes)) j.version x.1 x.2.1 x.2.2) = true)
include hg

theorem secondRead_stopped (hs : jobStopped s j = true) :
    ∃ t, exec (.crcSecondRead (.mover m) pe) s = .next t ∧ jobOf t 1 m.val = none ∧ (∀ k, t.tally k = s.tally k) := by
  have he : exec (.crcSecondRead (.mover m) pe) s = .next (endStopped (rereadCleared s m.val j x.2.1) 1 m.val j) :=
    congrArg Host.Outcome.next ((moverReread_good hj hp hx hg).trans (if_pos hs))
  refine ⟨_, he, ?_, fun n => ?_⟩
  · rw [endStopped, jobOf_same ((finishEntry_only _ _ _ _) .engines (by decide)),
      jobOf_same ((within_modQueue _ _ _ (Within.refl _) (Sub.refl _)).same .engines (by decide)), jobOf_freeEngine]
  · rw [tally_same ((within_endStopped _ _ _ _ (Within.refl _) (Sub.refl _)).same .tallies (by decide)),
      tally_same ((within_rereadCleared _ _ _ _).same .tallies (by decide))]

theorem secondRead_runs (hs : jobStopped s j = false) (ho : mvOp j.bytes = 1) :
    (mvMismatch s j (k + 1) false = none → ∃ t, exec (.crcSecondRead (.mover m) pe) s = .next t ∧ jobOf t 1 m.val = some { j with phase := .dataDone } ∧
      StoredAt s t (mvDst j.bytes) (mvData s j.bytes)) ∧
    (∀ n, mvMismatch s j (k + 1) false = some n → ∃ t, exec (.crcSecondRead (.mover m) pe) s = .next t ∧
      jobOf t 1 m.val = some { j with phase := .reread n } ∧ SameBytes s t) := by
  have he : exec (.crcSecondRead (.mover m) pe) s = .next (mvRun (rereadCleared s m.val j x.2.1) m.val j (k + 1) false) :=
    congrArg Host.Outcome.next ((moverReread_good hj hp hx hg).trans (if_neg (Bool.eq_false_iff.1 hs)))
  have hv : Sees s (rereadCleared s m.val j x.2.1) := sees_rereadCleared s m.val j x.2.1
  have hh : (rereadCleared s m.val j x.2.1).hostMem = s.hostMem := (within_rereadCleared s m.val j x.2.1).same .hostMemory (by decide)
  rw [← hv.mvMismatch, ← hv.mvData]
  refine ⟨fun hm => ?_, fun n hm => ?_⟩
  · rw [mvRun_moves (.inr hm)] at he
    exact ⟨_, he, jobOf_moved _ _ _, (storedAt_moved m.val (.inl ho)).of_bytes hv.bytes hh⟩
  · obtain ⟨h1, h2, -⟩ := mvRun_waits_frame (m := m.val) ho hm
    exact ⟨_, he, h1, fun a => ⟨(h2 a).1.trans (memByte_same hv.bytes a), (h2 a).2.trans (congrArg (tabGet 0 · a) hh)⟩⟩

end
end

/-! ### MOVER_COMPLETE and MOVER_WATCHDOG -/

/-- The record of a descriptor that ends done, in its queue's completion ring (R349, R351). -/
theorem endDone_record {kind unit : Nat} {j : Job} {w : Word} {x : Entry} (hs : SignalsTake s j.bytes) (he : (s.queue j.queue).entries = [x])
    (hpos : x.pos = j.pos) (hphase : x.phase = .running) (ha : (s.queue j.queue).recordsAllowed = true) (hq : (s.queue j.queue).cq = some w)
    (hroom : cqRoom (s.queue j.queue) = true) (hm : isHostAddr w = true → (s.fn (s.queue j.queue).fn).busMaster = true)
    (hd : isHostAddr w = false →
      argOk s (s.queue j.queue).fn (argAddr w + 32 * ((s.queue j.queue).produced % (s.queue j.queue).m)) 32 true = true) :
    readArg (endDone s kind unit j) w (32 * ((s.queue j.queue).produced % (s.queue j.queue).m)) 32 =
      recordBytes j.queue (engineRecord (toBit j.poison * 2 + toBit j.isPartial * 4) 0 0 (ctxTag s j.ctx) j.pos) s.now ∧
    (endDone s kind unit j).queue j.queue = { s.queue j.queue with entries := [], produced := ((s.queue j.queue).produced + 1) % 2 ^ 32 } := by
  obtain ⟨v, ⟨hv, hr⟩, -, -, hend⟩ := endCounted_takes (kind := kind) (unit := unit) hs
  obtain ⟨pos, bytes, phase⟩ := x
  obtain rfl : pos = j.pos := hpos
  obtain rfl : phase = .running := hphase
  have hvq : v.queue j.queue = s.queue j.queue := queue_same (hv.same .queues (by decide)) _
  have hnow : v.now = s.now := congrArg Module.timeNs (hv.same .module (by decide))
  have hrec : jobRecord v j 0 0 = engineRecord (toBit j.poison * 2 + toBit j.isPartial * 4) 0 0 (ctxTag s j.ctx) j.pos := by
    rw [jobRecord, ctxTag, ctxTag, ctx_same (hv.same .ctxs (by decide))]
  have hx : endDone s kind unit j = writeRecord (entryTaken v j.queue ⟨j.pos, bytes, .finished (jobRecord v j 0 0)⟩) j.queue (jobRecord v j 0 0) :=
    (hend id).trans (finishEntry_single (s := v) (by rw [hvq, he]) (by rw [hvq, ha]) (w := w) (by rw [hvq, hq]) (by rw [hvq, hroom]))
  have ho := entryTaken_only v j.queue ⟨j.pos, bytes, .finished (jobRecord v j 0 0)⟩
  have hrest : Rests s (entryTaken v j.queue ⟨j.pos, bytes, .finished (jobRecord v j 0 0)⟩) :=
    hr.trans (rests_of_same (ho .functions (by decide)) (ho .parts (by decide)))
  have hent : (entryTaken v j.queue ⟨j.pos, bytes, .finished (jobRecord v j 0 0)⟩).queue j.queue = { s.queue j.queue with entries := [] } :=
    (queue_setQueue _ _ _).trans (by rw [hvq])
  have hread := readArg_writeRecord (r := jobRecord v j 0 0) hent hq
    (fun h => (hrest.fn_get FnState.busMaster (fun _ => rfl) _).trans (hm h))
    (fun h => (argOk_congr hrest (Area.same_trans (hv.same .regions (by decide)) (ho .regions (by decide)))
      (Area.same_trans (hv.same .ctxs (by decide)) (ho .ctxs (by decide))) _ _ _ _).trans (hd h))
  refine ⟨?_, ?_⟩
  · rw [hx, hread, hrec]
    exact congrArg (recordBytes j.queue _) hnow
  · rw [hx, queue_writeRecord hent hq]

section
variable {m : MoverId} {j : Job} (hj : jobOf s 1 m.val = some j) (hh : unitHeld s 1 m.val = false)
include hj hh

theorem exec_moverComplete (hp : j.phase = .dataDone) : exec (.moverComplete m) s = .next (endDone s 1 m.val j) := by
  change execMoverComplete m s = _
  rw [execMoverComplete, hj]
  exact congrArg Host.Outcome.next (if_pos (by rw [hp, hh]; rfl))

theorem exec_moverWatchdog : exec (.moverWatchdog m) s =
    .next (engineWatchdog (partialWrites s (cellsAt (mvDst j.bytes) (mvData s j.bytes))) 1 m.val j) := by
  change execMoverWatchdog m s = _
  rw [execMoverWatchdog, hj]
  exact congrArg Host.Outcome.next (if_neg (Bool.eq_false_iff.1 hh))

end

/-- A mover without a descriptor, or a held one, stands still. -/
theorem mover_idle (m : MoverId) (h : jobOf s 1 m.val = none ∨ unitHeld s 1 m.val = true) :
    exec (.moverComplete m) s = .next s ∧ exec (.moverWatchdog m) s = .next s := by
  change execMoverComplete m s = _ ∧ execMoverWatchdog m s = _
  unfold execMoverComplete execMoverWatchdog
  refine ⟨congrArg _ ?_, congrArg _ ?_⟩
  · split
    next j hj =>
      have hh := h.resolve_left (by rw [hj]; exact nofun)
      exact if_neg (by rw [hh, Bool.not_true, Bool.and_false]; exact Bool.false_ne_true)
    next => rfl
  · split
    next j hj => exact if_pos (h.resolve_left (by rw [hj]; exact nofun))
    next => rfl

/-- Settles O30: a transfer's reads leave what the mover sees, so its data move as checked; what a bad word, a refused access or the
watchdog stops ends in a fault, and a transfer done leaves its signals and its record. -/
theorem movers : Obligations.Movers := by
  unfold Obligations.Movers
  refine ⟨fun m hits pe s q c e => ?transfer, fun m pe s j k x hj hp hx => ?second, fun m s j hj hh => ?ends, fun m s h => mover_idle m h⟩
  case transfer =>
    intro u i b x j ok h
    obtain ⟨h1, h2, h3⟩ := moverTransfer_faults m hits pe h
    refine ⟨h1, h2, h3, fun hb ho hc => ?_⟩
    obtain ⟨hwait, hmove⟩ := moverTransfer_runs m hits pe h hb ho hc
    have hv := sees_transfer u m.val q c e (mvReads u j)
    have hh := hostMem_transfer u m.val q c e (mvReads u j)
    refine ⟨hwait, fun hop => ?_, fun hop hd => ?_⟩
    · obtain ⟨hx, hj, hq, ho⟩ := hmove (hop.elim (fun h => .inr h.2) (fun h => .inl h.1))
      have hst := storedAt_moved (s := readOver (taken u 1 m.val q c e) (mvReads u j)) m.val (j := j)
        (hop.imp (fun h => h.1) (fun h => (hv.mvBlocks j).trans h.2))
      rw [hv.mvData] at hst
      exact ⟨_, hx, hj, hst.of_bytes hv.bytes hh, hq, ho⟩
    · obtain ⟨hx, hj, hq, ho⟩ := hmove (.inl hop)
      have hm := moved_sums (s := readOver (taken u 1 m.val q c e) (mvReads u j)) m.val (j := j) hop
      rw [hv.mvData, hv.mvBlocks, hv.ctx, hv.tensor] at hm
      obtain ⟨hr, hc⟩ := hm hd
      exact ⟨_, hx, hj, hr, hc, ho⟩
  case second =>
    exact ⟨secondRead_bad hj hp hx, secondRead_stopped hj hp hx, fun hg hs ho => secondRead_runs hj hp hx hg hs ho⟩
  case ends =>
    refine ⟨fun hp => endsSignalled_of (exec_moverComplete hj hh hp) (fun t => Only.refl _ t) List.not_mem_nil List.not_mem_nil,
      fun w x hp hs he hpos hphase ha hq hroom hm hd => ⟨_, exec_moverComplete hj hh hp, endDone_record hs he hpos hphase ha hq hroom hm hd⟩,
      endsFault_watchdog (exec_moverWatchdog hj hh) ?_⟩
    rw [ctx_same ((within_partialWrites _ _ (Within.refl s) (Sub.refl _)).same .ctxs (by decide))]

end Sys2Proof.Machine
end

section
/-! What engines set of tensors: stamps, marks and counter records (R102, R197, R317). -/

namespace Sys2Proof.Machine

variable {s t u v : State}

/-! ### Changes of tensors that exist -/

theorem tensor_of_key {p i q k : Nat} (h : tensorKey p i = tensorKey q k) : s.tensor p i = s.tensor q k :=
  congrArg (tabGet ({} : Tensor) s.objs.tensors) h

/-- A change of one tensor changes those that stand at its key, and no other. -/
theorem tensor_modTensor_or (s : State) (p i q k : Nat) (f : Tensor → Tensor) :
    (tensorKey p i = tensorKey q k ∧ (s.modTensor p i f).tensor q k = f (s.tensor q k)) ∨ (s.modTensor p i f).tensor q k = s.tensor q k := by
  by_cases hk : tensorKey p i = tensorKey q k
  · refine .inl ⟨hk, ?_⟩
    rw [← tensor_of_key hk, ← tensor_of_key hk, State.modTensor, tensor_setTensor]
  · exact .inr (tabGet_tabSet_ne _ _ _ hk)

/-- A change of a tensor where it exists. -/
def ifPresent (f : Tensor → Tensor) (x : Tensor) : Tensor := if x.present then f x else x

theorem ifPresent_idem {f : Tensor → Tensor} (hf : ∀ x, f (f x) = f x) (x : Tensor) : ifPresent f (ifPresent f x) = ifPresent f x := by
  unfold ifPresent
  split
  next h => split <;> simp [hf]
  next => rfl

section
variable (s : State) (p i : Nat) (f : Tensor → Tensor)

theorem modPresent_or (q k : Nat) : (if (s.tensor p i).present then s.modTensor p i f else s).tensor q k = ifPresent f (s.tensor q k) ∨
    (if (s.tensor p i).present then s.modTensor p i f else s).tensor q k = s.tensor q k := by
  split
  next hp =>
    rcases tensor_modTensor_or s p i q k f with ⟨hk, h⟩ | h
    · exact .inl (h.trans (if_pos (tensor_of_key hk ▸ hp)).symm)
    · exact .inr h
  next => exact .inr rfl

theorem modPresent_same : (if (s.tensor p i).present then s.modTensor p i f else s).tensor p i = ifPresent f (s.tensor p i) := by
  unfold ifPresent
  split
  · exact tensor_setTensor _ _ _ _
  · rfl

end

/-- Changes of the tensors of a list leave of a tensor what each of them leaves. -/
theorem forEach_modPresent_keeps {α β : Type} (g : Tensor → β) {f : α → Tensor → Tensor} (hg : ∀ a x, g (f a x) = g x) (l : List α) (n : α → Nat)
    (p q k : Nat) (s : State) :
    g ((forEach l s (fun a t => if (t.tensor p (n a)).present then t.modTensor p (n a) (f a) else t)).tensor q k) = g (s.tensor q k) :=
  forEach_keeps (π := fun t => g (t.tensor q k)) (fun a _ t => by
    rcases modPresent_or t p (n a) (f a) q k with h | h
    · refine (congrArg g h).trans ?_
      unfold ifPresent
      split
      · exact hg _ _
      · rfl
    · exact congrArg g h) s

/-! ### Stamps -/

/-- A stamp set. -/
def stamped (n : Nat) (x : Tensor) : Tensor := { x with stamp := BitVec.ofNat 32 n }

/-- The master of a step is stamped where it exists. -/
theorem stamp_setStamps {p : Nat} {b : List Byte} (h : (s.tensor p (oMaster b)).present = true) :
    ((setStamps s p b).tensor p (oMaster b)).stamp = BitVec.ofNat 32 (oStep b) := by
  have hm : (setStamps s p b).tensor p (oMaster b) = ifPresent (stamped (oStep b)) (s.tensor p (oMaster b)) :=
    forEach_idem (π := fun t => t.tensor p (oMaster b)) (φ := ifPresent (stamped (oStep b))) (ifPresent_idem fun _ => rfl)
      (fun id _ t => modPresent_or t p id (stamped (oStep b)) p (oMaster b)) (.head _)
      (fun t => modPresent_same t p (oMaster b) (stamped (oStep b))) s
  rw [hm, ifPresent, if_pos h]
  rfl

/-- Stamps leave what is no stamp. -/
theorem setStamps_keeps {β : Type} (g : Tensor → β) (hg : ∀ n x, g (stamped n x) = g x) (s : State) (p q k : Nat) (b : List Byte) :
    g ((setStamps s p b).tensor q k) = g (s.tensor q k) :=
  forEach_modPresent_keeps g (f := fun _ => stamped (oStep b)) (fun _ => hg (oStep b)) _ id p q k s

/-! ### Marks -/

/-- A mark set. -/
def markedPoisoned (x : Tensor) : Tensor := { x with desc := { x.desc with poisoned := true } }

/-- Each tensor of a list that exists is marked. -/
theorem poisoned_poisonTensors {p id : Nat} {ids : List Nat} (hid : id ∈ ids) (h : (s.tensor p id).present = true) :
    ((poisonTensors s p ids).tensor p id).desc.poisoned = true := by
  have hm : (poisonTensors s p ids).tensor p id = ifPresent markedPoisoned (s.tensor p id) :=
    forEach_idem (π := fun t => t.tensor p id) (φ := ifPresent markedPoisoned) (ifPresent_idem fun _ => rfl) (fun i _ t => modPresent_or t p i markedPoisoned p id) hid
      (fun t => modPresent_same t p id markedPoisoned) s
  rw [hm, ifPresent, if_pos h]
  rfl

theorem poisonTensors_keeps {β : Type} (g : Tensor → β) (hg : ∀ x, g (markedPoisoned x) = g x) (s : State) (p : Nat) (ids : List Nat) (q k : Nat) :
    g ((poisonTensors s p ids).tensor q k) = g (s.tensor q k) :=
  forEach_modPresent_keeps g (f := fun _ => markedPoisoned) (fun _ => hg) ids id p q k s

/-! ### Counter records -/

theorem applyDeltas_keeps {β : Type} (g : Tensor → β) (hg : ∀ x c, g { x with counter := c } = g x) (s : State) (p : Nat)
    (l : List (Nat × CounterDelta)) (q k : Nat) : g ((applyDeltas s p l).tensor q k) = g (s.tensor q k) :=
  forEach_keeps (π := fun t => g (t.tensor q k)) (fun e _ t => by
    rcases tensor_modTensor_or t p e.1 q k (fun x => { x with counter := x.counter.map (fun r => applyDelta r e.2) }) with ⟨-, h⟩ | h
    · exact (congrArg g h).trans (hg _ _)
    · exact congrArg g h) s

end Sys2Proof.Machine
end

section
/-! GATE_DECISION (R209 to R211, R213, R317). -/

namespace Sys2Proof.Machine

variable {s t u v : State}

/-! ### What a decision leaves of its gate -/

section
variable (g : Gate) (step nf ver : Nat)

theorem decideGate_fields : (decideGate g step nf ver).lastStep = step ∧ (decideGate g step nf ver).lastNf = nf ∧
    (decideGate g step nf ver).versionPending = false ∧ (decideGate g step nf ver).priorScaleLog = g.scaleLog ∧
    (decideGate g step nf ver).rowId = g.rowId := by
  unfold decideGate
  dsimp only
  refine ⟨rfl, rfl, rfl, rfl, ?_⟩
  split
  · rfl
  · split
    · rfl
    · split <;> rfl

theorem decideGate_nonfinite (h : nf ≠ 0) : (decideGate g step nf ver).lastDecision = 2 ∧ (decideGate g step nf ver).clean = 0 ∧
    (decideGate g step nf ver).scaleLog = max (g.scaleLog - g.down) (-16) := by
  unfold decideGate
  dsimp only
  rw [if_pos h]
  refine ⟨rfl, rfl, ?_⟩
  dsimp only
  split <;> omega

theorem decideGate_version (h : ver ≠ 0) : (decideGate g step 0 ver).lastDecision = 3 ∧ (decideGate g step 0 ver).scaleLog = g.scaleLog ∧
    (decideGate g step 0 ver).clean = g.clean := by
  unfold decideGate
  dsimp only
  rw [if_neg (by decide), if_pos h]
  exact ⟨rfl, rfl, rfl⟩

theorem decideGate_taken : (decideGate g step 0 0).lastDecision = 1 ∧ (decideGate g step 0 0).scaleLog =
    if g.interval ≠ 0 ∧ min (g.clean + 1) (2 ^ 32 - 1) = g.interval then min (g.scaleLog + g.up) 32 else g.scaleLog := by
  have hs : satAdd 32 g.clean 1 = min (g.clean + 1) (2 ^ 32 - 1) := rfl
  unfold decideGate
  dsimp only
  rw [if_neg (by decide), if_neg (by decide), hs]
  split
  · exact ⟨rfl, rfl⟩
  · exact ⟨rfl, rfl⟩

end

/-! ### The command -/

/-- The gate of the descriptor that waits, its decision made. -/
def decided (s : State) (j : Job) : Gate :=
  decideGate (s.gate (s.ctx j.ctx).part (oGate j.bytes)) (oStep j.bytes) (s.ctx j.ctx).nf
    (toBit (s.gate (s.ctx j.ctx).part (oGate j.bytes)).versionPending)

/-- The state with the gate's decision made, its scale row written. -/
def gateDecided (s : State) (j : Job) : State :=
  writeScaleRow ((clearNf s j.ctx).setGate (s.ctx j.ctx).part (oGate j.bytes) (decided s j)) (s.ctx j.ctx).part (decided s j)

theorem within_gateDecided (s : State) (j : Job) : Within 134361272 s (gateDecided s j) :=
  within_writeScaleRow _ _ _ (within_setGate _ _ _ _ (within_clearNf _ _ (Within.refl s) rfl) rfl) rfl

theorem ctx_gateDecided (s : State) (j : Job) : (gateDecided s j).ctx j.ctx = { s.ctx j.ctx with nf := 0 } := by
  rw [gateDecided, ctx_same ((within_writeScaleRow _ _ _ (Within.refl _) (Sub.refl _)).same .ctxs (by decide))]
  exact ctx_setCtx s j.ctx _

theorem gate_gateDecided (s : State) (j : Job) :
    (gateDecided s j).gate (s.ctx j.ctx).part (oGate j.bytes) = decided s j ∧
    ∀ x y, x * 64 + y ≠ (s.ctx j.ctx).part * 64 + oGate j.bytes → (gateDecided s j).gate x y = s.gate x y := by
  have hg := (within_writeScaleRow ((clearNf s j.ctx).setGate (s.ctx j.ctx).part (oGate j.bytes) (decided s j)) (s.ctx j.ctx).part (decided s j)
    (Within.refl _) (Sub.refl _)).same .gates (by decide)
  refine ⟨(gate_same hg _ _).trans (gate_setGate _ _ _ _), fun x y h => (gate_same hg x y).trans ?_⟩
  exact tabGet_tabSet_ne _ _ _ (Ne.symm h)

theorem row_gateDecided {j : Job} (h : (s.tensor (s.ctx j.ctx).part (s.gate (s.ctx j.ctx).part (oGate j.bytes)).rowId).present = true) :
    StoredAt s (gateDecided s j) (s.tensor (s.ctx j.ctx).part (s.gate (s.ctx j.ctx).part (oGate j.bytes)).rowId).desc.base
      (scaleRow (s.tensor (s.ctx j.ctx).part (s.gate (s.ctx j.ctx).part (oGate j.bytes)).rowId).desc (decided s j).scaleLog) := by
  have hid : (decided s j).rowId = (s.gate (s.ctx j.ctx).part (oGate j.bytes)).rowId := (decideGate_fields _ _ _ _).2.2.2.2
  rw [← hid] at h ⊢
  rw [gateDecided, writeScaleRow_of_present (s := (clearNf s j.ctx).setGate (s.ctx j.ctx).part (oGate j.bytes) (decided s j)) h]
  exact (storedAt_writeMem _ _ _ _).of_bytes rfl rfl

section
variable {sec : Sec} {j : Job} (hj : jobOf s 4 sec.val = some j) (hp : j.phase = .waitGate) (hh : unitHeld s 4 sec.val = false)
include hj hp hh

theorem gateDecision_eq : exec (.gateDecision sec) s = .next (
    if (s.gate (s.ctx j.ctx).part (oGate j.bytes)).lastDecision ≠ 0 ∧ oStep j.bytes = (s.gate (s.ctx j.ctx).part (oGate j.bytes)).lastStep then
      obeyGate s sec.val j (s.gate (s.ctx j.ctx).part (oGate j.bytes))
    else if (s.gate (s.ctx j.ctx).part (oGate j.bytes)).lastDecision ≠ 0 ∧ oStep j.bytes < (s.gate (s.ctx j.ctx).part (oGate j.bytes)).lastStep then
      endFault s 4 sec.val j 1 false
    else if (s.gate (s.ctx j.ctx).part (oGate j.bytes)).group then gateDecisionOp sec.val s
    else obeyGate (gateDecided s j) sec.val j (decided s j)) := by
  have hn : ¬ ((decide (j.phase ≠ .waitGate) || unitHeld s 4 sec.val) = true) := by rw [hp, hh]; decide
  refine congrArg Host.Outcome.next ?_
  split
  next h1 =>
    rw [gateDecisionOp, hj]
    exact (if_neg hn).trans (if_pos h1)
  next h1 =>
    split
    next h2 =>
      rw [gateDecisionOp, hj]
      exact (if_neg hn).trans ((if_neg h1).trans (if_pos h2))
    next h2 =>
      split
      · rfl
      next h3 =>
        rw [gateDecisionOp, hj]
        exact (if_neg hn).trans ((if_neg h1).trans ((if_neg h2).trans (if_neg h3)))

/-- A gate of no rank group decides a step that none has decided (R210). -/
theorem gateDecision_decides (hg : (s.gate (s.ctx j.ctx).part (oGate j.bytes)).group = false)
    (hs : (s.gate (s.ctx j.ctx).part (oGate j.bytes)).lastDecision = 0 ∨ (s.gate (s.ctx j.ctx).part (oGate j.bytes)).lastStep < oStep j.bytes) :
    exec (.gateDecision sec) s = .next (obeyGate (gateDecided s j) sec.val j (decided s j)) := by
  rw [gateDecision_eq hj hp hh, if_neg (fun h => by omega), if_neg (fun h => by omega), if_neg (Bool.eq_false_iff.1 hg)]

theorem gateDecision_obeys (hd : (s.gate (s.ctx j.ctx).part (oGate j.bytes)).lastDecision ≠ 0)
    (hs : oStep j.bytes = (s.gate (s.ctx j.ctx).part (oGate j.bytes)).lastStep) :
    exec (.gateDecision sec) s = .next (obeyGate s sec.val j (s.gate (s.ctx j.ctx).part (oGate j.bytes))) := by
  rw [gateDecision_eq hj hp hh, if_pos ⟨hd, hs⟩]

theorem gateDecision_late (hd : (s.gate (s.ctx j.ctx).part (oGate j.bytes)).lastDecision ≠ 0)
    (hs : oStep j.bytes < (s.gate (s.ctx j.ctx).part (oGate j.bytes)).lastStep) : exec (.gateDecision sec) s = .next (endFault s 4 sec.val j 1 false) := by
  rw [gateDecision_eq hj hp hh, if_neg (fun h => by omega), if_pos ⟨hd, hs⟩]

end

/-- A job that obeys a decision: stamps and the engine change alone. -/
theorem obeyGate_frame (s : State) (sec : Nat) (j : Job) (g : Gate) :
    jobOf (obeyGate s sec j g) 4 sec = some { j with phase := .running, decision := g.lastDecision, unscale := g.priorScaleLog } ∧
    ((s.tensor (s.ctx j.ctx).part (oMaster j.bytes)).present = true →
      ((obeyGate s sec j g).tensor (s.ctx j.ctx).part (oMaster j.bytes)).stamp = BitVec.ofNat 32 (oStep j.bytes)) ∧
    Within 8454144 s (obeyGate s sec j g) := by
  refine ⟨jobOf_putJob _ _ _ _, fun h => ?_, within_obeyGate _ _ _ _ (Within.refl s) (Sub.refl _)⟩
  rw [obeyGate, tensor_same ((within_putJob _ _ _ _ (Within.refl _) (Sub.refl _)).same .tensors (by decide))]
  exact stamp_setStamps h

theorem gateDecision_idle {sec : Sec} (h : ∀ j, jobOf s 4 sec.val = some j → j.phase ≠ .waitGate ∨ unitHeld s 4 sec.val = true) :
    exec (.gateDecision sec) s = .next s := by
  change execGateDecision sec s = _
  refine congrArg Host.Outcome.next ?_
  unfold gateDecisionOp
  split
  next j hj => exact if_pos (by simpa using h j hj)
  next => rfl

end Sys2Proof.Machine
end

section
/-! GATE_SNAPSHOT (R200, R213), and the statement about gates. -/

namespace Sys2Proof.Machine

variable {s t u v : State}

/-! ### Records in host memory -/

/-- A queue whose completion ring, if it has one, lies in host memory. -/
def RingInHost (x : Queue) : Prop := ∀ w, x.cq = some w → isHostAddr w = true

/-- A record into a ring in host memory leaves device memory. -/
theorem bytes_writeRecord {q : Nat} (h : RingInHost (s.queue q)) (r : Record) : (writeRecord s q r).mem.bytes = s.mem.bytes := by
  unfold writeRecord
  dsimp only
  split
  · rfl
  next w hw =>
    rw [bytes_of_memory ((within_raiseMsix _ _ _ (Within.refl _) (Sub.refl _)).same .memory (by decide)), setQueue_mem]
    unfold writeArg
    rw [if_pos (h w hw)]
    split
    · rfl
    · rfl

theorem bytes_flushRecords {q : Nat} (h : RingInHost (s.queue q)) (n : Nat) : (flushRecords s q n).mem.bytes = s.mem.bytes := by
  induction n generalizing s with
  | zero => rfl
  | succ n ih =>
    unfold flushRecords
    dsimp only
    split
    next pos b r l he =>
      have hq : RingInHost ((s.setQueue q { s.queue q with entries := l }).queue q) := by
        rw [queue_setQueue]
        exact h
      split
      · exact (ih hq).trans rfl
      · split
        · obtain ⟨p, hp⟩ := writeRecord_queue (s.setQueue q { s.queue q with entries := l }) q r
          refine (ih ?_).trans ((bytes_writeRecord hq r).trans rfl)
          rw [hp]
          exact hq
        · rfl
    next => rfl

theorem bytes_finishEntry {q : Nat} (h : RingInHost (s.queue q)) (pos : Nat) (r : Record) : (finishEntry s q pos r).mem.bytes = s.mem.bytes := by
  unfold finishEntry flushQueue
  refine (bytes_flushRecords ?_ _).trans rfl
  rw [State.modQueue, queue_setQueue]
  exact h

/-! ### The command -/

theorem oGated_of_snap {j : Job} (hb : optBad s j = false) (hs : oSnap j.bytes = true) : oGated j.bytes = false := by
  have hr : oRule j.bytes = 0xF := by simpa [oSnap] using hs
  have hu : oUnused j.bytes = [(6, 2), (104, 24)] ++ [] ++ [] ++ [(2, 1), (32, 64)] := by
    unfold oUnused
    rw [hs, hr]
    simp
  have hany : (oUnused j.bytes).any (fun e => fieldAt j.bytes e.1 e.2 != 0) = false := by
    unfold optBad at hb
    simp only [Bool.or_eq_false_iff] at hb
    exact hb.1.1.1.1.2
  rw [hu] at hany
  have h2 : fieldAt j.bytes 2 1 = 0 := by
    simp only [List.append_nil, List.cons_append, List.nil_append, List.any_cons, Bool.or_eq_false_iff, bne_eq_false_iff_eq] at hany
    exact hany.2.2.1
  rw [oGated, bitsAt, h2]
  rfl

/-- The descriptor's count and flag stand where it points, and the count is cleared. -/
def snapped (s : State) (j : Job) : State :=
  clearNf (writeBytes s (oAux j.bytes) (leBytes 4 (s.ctx j.ctx).nf ++
    leBytes 4 (toBit (s.gate (s.ctx j.ctx).part (oGate j.bytes)).versionPending))) j.ctx

theorem within_snapped (s : State) (j : Job) : Within 8208 s (snapped s j) := within_clearNf _ _ (within_writeBytes _ _ _ (Within.refl s) rfl) rfl

theorem length_snap (a b : Nat) : (leBytes 4 a ++ leBytes 4 b).length = 8 := by rw [List.length_append, length_leBytes, length_leBytes]

/-- What is written through no directory stands where it is written, and nothing else does. -/
theorem storedAt_writeBytes (s : State) (a : Nat) (l : List Byte) : StoredAt s (writeBytes s a l) a l :=
  ⟨readBack_putBytes _ _ _, fun k hk => (tabGet_putBytes _ _ _ _).trans (if_neg (by omega)), fun _ => rfl⟩

theorem SignalsTake.kept {b : List Byte} (h : SignalsTake s b) (ht : Area.tallies.same s t) (hm : ∀ c, (t.ctx c).marks = (s.ctx c).marks) :
    SignalsTake t b := fun e he => by
  rw [tally_same ht, hm]
  exact h e he

theorem marks_clearNf (s : State) (c d : Nat) : ((clearNf s c).ctx d).marks = (s.ctx d).marks := by
  rw [clearNf, State.modCtx]
  by_cases h : c = d
  · subst h
    rw [ctx_setCtx]
  · rw [ctx_setCtx_ne _ _ h]

/-- The ring of the queue whose descriptor is taken is what it was. -/
theorem cq_taken (s : State) (kind unit q c : Nat) (e : Entry) : ((taken s kind unit q c e).queue q).cq = (s.queue q).cq := by
  have hw : Within 8388616 s (engineTurned s kind unit q) := within_modEngine _ _ _ (within_countArb s kind unit q (Within.refl s) rfl) rfl
  rw [taken, queue_same ((within_putJob _ _ _ _ (Within.refl _) (Sub.refl _)).same .queues (by decide)), startEntry, State.modQueue,
    queue_setQueue, queue_same (hw.same .queues (by decide))]

section
variable {sec : Sec} {q c : Nat} {e : Entry} (h : Takes s 4 sec.val q c e) (hb : optBad s (jobFrom s q c e) = false) (hn : oSnap e.bytes = true)
  (hh : unitHeld s 4 sec.val = false)
include h hb hn hh

theorem gateSnapshot_eq : exec (.gateSnapshot sec) s = .next (
    if writeOk s c (oAux e.bytes) 8 then endDone (snapped (taken s 4 sec.val q c e) (jobFrom s q c e)) 4 sec.val (jobFrom s q c e)
    else endFault (taken s 4 sec.val q c e) 4 sec.val (jobFrom s q c e) 0x0E false) := by
  have hb' : optBad (taken s 4 sec.val q c e) (jobFrom s q c e) = false := (taken_lift (optBad · (jobFrom s q c e)) fun _ _ _ => rfl).trans hb
  have hh' : unitHeld (taken s 4 sec.val q c e) 4 sec.val = false := (taken_lift (unitHeld · 4 sec.val) fun _ _ _ => rfl).trans hh
  have hg : oGated (jobFrom s q c e).bytes = false := oGated_of_snap hb hn
  have htake : optTake s sec.val = taken s 4 sec.val q c e := by
    rw [optTake, takeDesc_of_takes h]
    exact (if_neg (Bool.eq_false_iff.1 hb')).trans (if_neg (Bool.eq_false_iff.1 hg))
  have hrun : ¬ ((!oSnap (jobFrom s q c e).bytes || decide ((jobFrom s q c e).phase ≠ .running) || unitHeld (taken s 4 sec.val q c e) 4 sec.val) = true) := by
    rw [show oSnap (jobFrom s q c e).bytes = true from hn, hh', show (jobFrom s q c e).phase = .running from rfl]
    decide
  refine congrArg Host.Outcome.next (Eq.trans (congrArg (gateSnapshotRun sec.val) htake) ?_)
  rw [gateSnapshotRun, jobOf_taken]
  refine (if_neg hrun).trans ?_
  rw [← (sees_taken s 4 sec.val q c e).writeOk (rests_taken s 4 sec.val q c e)]
  have hctx : writeOk (taken s 4 sec.val q c e) (jobFrom s q c e).ctx (oAux (jobFrom s q c e).bytes) 8 =
      writeOk (taken s 4 sec.val q c e) c (oAux e.bytes) 8 := rfl
  cases hw : writeOk (taken s 4 sec.val q c e) c (oAux e.bytes) 8 with
  | true => exact (if_neg (by rw [hctx, hw]; decide)).trans (if_pos rfl).symm
  | false => exact (if_pos (by rw [hctx, hw]; rfl)).trans (if_neg Bool.false_ne_true).symm

/-- A snapshot whose signals the tallies take, and whose record goes to host memory. -/
theorem gateSnapshot_done (hw : writeOk s c (oAux e.bytes) 8 = true) (hr : RingInHost (s.queue q)) (hs : SignalsTake s e.bytes) :
    ∃ t, exec (.gateSnapshot sec) s = .next t ∧ jobOf t 4 sec.val = none ∧ Signalled s t e.bytes ∧ (t.ctx c).nf = 0 ∧
      readBytes t (oAux e.bytes) 8 = leBytes 4 (s.ctx c).nf ++ leBytes 4 (toBit (s.gate (s.ctx c).part (oGate e.bytes)).versionPending) ∧
      (∀ a, a < oAux e.bytes ∨ oAux e.bytes + 8 ≤ a → memByte t a = memByte s a) := by
  obtain ⟨tk, htk⟩ : ∃ tk, tk = taken s 4 sec.val q c e := ⟨_, rfl⟩
  have hseen : Sees s tk := htk ▸ sees_taken s 4 sec.val q c e
  have hgate : tk.gate (s.ctx c).part (oGate e.bytes) = s.gate (s.ctx c).part (oGate e.bytes) :=
    gate_same ((htk ▸ within_taken s 4 sec.val q c e : Within 8388872 s tk).same .gates (by decide)) _ _
  have htal : Area.tallies.same s tk := (htk ▸ within_taken s 4 sec.val q c e : Within 8388872 s tk).same .tallies (by decide)
  have hcq : (tk.queue q).cq = (s.queue q).cq := by rw [htk, cq_taken]
  obtain ⟨v, hv⟩ : ∃ v, v = snapped tk (jobFrom s q c e) := ⟨_, rfl⟩
  have hwv : Within 8208 tk v := hv ▸ within_snapped tk (jobFrom s q c e)
  have hctx : ∀ d, (v.ctx d).marks = (s.ctx d).marks := fun d => by
    rw [hv, snapped, marks_clearNf, ← hseen.ctx]
    rfl
  have hst : StoredAt tk v (oAux e.bytes) (leBytes 4 (tk.ctx c).nf ++ leBytes 4 (toBit (tk.gate (tk.ctx c).part (oGate e.bytes)).versionPending)) := by
    rw [hv]
    exact (storedAt_writeBytes tk (oAux e.bytes) _).onto rfl rfl
  rw [hseen.ctx, hgate] at hst
  obtain ⟨hread, hrest, -⟩ := hst
  rw [length_snap] at hread hrest
  obtain ⟨w, ⟨hww, -⟩, hsig, hjob, hend⟩ := endCounted_takes (s := v) (kind := 4) (unit := sec.val) (j := jobFrom s q c e)
    (hs.kept (Area.same_trans htal (hwv.same .tallies (by decide))) hctx)
  have hx : exec (.gateSnapshot sec) s = .next (finishEntry w q e.pos (jobRecord w (jobFrom s q c e) 0 0)) := by
    rw [gateSnapshot_eq h hb hn hh, if_pos hw, ← htk, ← hv]
    exact congrArg Host.Outcome.next (hend id)
  have hf := within_finishEntry w q e.pos (jobRecord w (jobFrom s q c e) 0 0) (Within.refl w) (Sub.refl _)
  have hring : RingInHost (w.queue q) := by
    intro a ha
    rw [queue_same (hww.same .queues (by decide)), queue_same (hwv.same .queues (by decide)), hcq] at ha
    exact hr a ha
  have hbytes (a : Nat) : memByte (finishEntry w q e.pos (jobRecord w (jobFrom s q c e) 0 0)) a = memByte v a :=
    memByte_same ((bytes_finishEntry hring _ _).trans (bytes_of_memory (hww.same .memory (by decide)))) a
  refine ⟨_, hx, ?_, ?_, ?_, ?_, fun a ha => ?_⟩
  · rw [jobOf_same (hf.same .engines (by decide)), hjob]
  · refine Signalled.kept (fun k => ?_) (hf.same .tallies (by decide))
    rw [hsig k, tally_same (hwv.same .tallies (by decide)), tally_same htal]
    rfl
  · rw [ctx_same (hf.same .ctxs (by decide)), ctx_same (hww.same .ctxs (by decide)), hv, snapped, clearNf, State.modCtx]
    exact congrArg Ctx.nf (ctx_setCtx _ _ _)
  · rw [← hread, readBytes, readBytes]
    simp only [hbytes]
  · rw [hbytes, hrest a ha, memByte_same hseen.bytes]

end

/-- Settles O33: a decision by its own equation, the gate's row and the stamps by their frames; a snapshot is the write at its address and the
end of its descriptor. -/
theorem gates : Obligations.Gates := by
  unfold Obligations.Gates
  refine ⟨fun sec s j hj hp hh => ?decision, fun sec s h => gateDecision_idle h, fun sec s q c e h hb hn hh => ?snapshot⟩
  case decision =>
    intro p g nf row
    refine ⟨fun hg hs => ?_, fun hd hs => ?_, fun hd hs => ?_⟩
    · obtain ⟨t, ht⟩ : ∃ t, t = obeyGate (gateDecided s j) sec.val j (decided s j) := ⟨_, rfl⟩
      have hw := within_gateDecided s j
      obtain ⟨hjob, hstamp, how⟩ := obeyGate_frame (gateDecided s j) sec.val j (decided s j)
      rw [← ht, ctx_gateDecided, tensor_same (hw.same .tensors (by decide))] at hstamp
      rw [← ht] at hjob how
      obtain ⟨hgate, hother⟩ := gate_gateDecided s j
      have hgs := how.same .gates (by decide)
      obtain ⟨f1, f2, f3, f4, -⟩ := decideGate_fields g (oStep j.bytes) nf (toBit g.versionPending)
      have htg : t.gate p (oGate j.bytes) = decideGate g (oStep j.bytes) nf (toBit g.versionPending) := (gate_same hgs _ _).trans hgate
      refine ⟨t, ht ▸ gateDecision_decides hj hp hh hg hs, ?_, ?_⟩
      · rw [ctx_same (how.same .ctxs (by decide)), ctx_gateDecided]
      · rw [htg]
        refine ⟨f1, f2, f3, f4, ?_, fun hnf => decideGate_nonfinite _ _ _ _ hnf, fun hnf hv => ?_, fun hnf hv => ?_, fun hrow => ?_, hstamp,
          fun x y hxy => (gate_same hgs x y).trans (hother x y hxy), (hw.trans how rfl rfl : Within 142815416 s t).only rfl⟩
        · rw [hjob, ← f4]
          rfl
        · rw [hnf, hv]
          exact decideGate_version g _ _ (by decide)
        · rw [hnf, hv]
          exact decideGate_taken g _
        · exact (row_gateDecided hrow).onto (bytes_of_memory (how.same .memory (by decide))) (how.same .hostMemory (by decide))
    · obtain ⟨hjob, -, how⟩ := obeyGate_frame s sec.val j g
      exact ⟨_, gateDecision_obeys hj hp hh hd hs, hjob, how.only rfl⟩
    · exact endsFault_of (gateDecision_late hj hp hh hd hs) rfl rfl
  case snapshot =>
    have hx := gateSnapshot_eq h hb hn hh
    refine ⟨fun hw => ?_, fun hw => ⟨⟨_, hx, ?_⟩, fun hr hs => gateSnapshot_done h hb hn hh hw hr hs⟩⟩
    · rw [if_neg (Bool.eq_false_iff.1 hw)] at hx
      exact endsFault_of hx rfl (by rw [(sees_taken s 4 sec.val q c e).ctx])
    · rw [if_pos hw]
      exact jobOf_endCounted _ _ _ _ fun _ => rfl

end Sys2Proof.Machine
end

section
/-! OPTIMIZER_UPDATE (R102, R211, R216 to R219). -/

namespace Sys2Proof.Machine

variable {s t u v : State}

/-! ### Single bytes written in order -/

theorem tabGet_foldl_cells (l : List Cell) (b : List Cell) (a : Nat) :
    tabGet 0 (l.foldl (fun t c => tabSet 0 t c.1 c.2) b) a = ((l.reverse.find? (fun e => e.1 == a)).map (·.2)).getD (tabGet 0 b a) := by
  induction l generalizing b with
  | nil => rfl
  | cons c l ih =>
    rw [List.foldl_cons, ih, tabGet_tabSet, List.reverse_cons, List.find?_append]
    cases h : l.reverse.find? (fun e => e.1 == a) with
    | some e => rfl
    | none =>
      rw [List.find?_singleton]
      by_cases hc : c.1 = a
      · rw [if_pos hc, if_pos (by simpa using hc)]
        rfl
      · rw [if_neg hc, if_neg (by simpa using hc)]
        rfl

theorem cellsWritten_writeCells (s : State) (l : List Cell) : CellsWritten s (writeCells s l) l := tabGet_foldl_cells l s.mem.bytes

theorem CellsWritten.of_bytes {l : List Cell} (h : CellsWritten t u l) (hb : t.mem.bytes = s.mem.bytes) : CellsWritten s u l := fun a => by
  rw [h a, memByte_same hb]

theorem CellsWritten.onto {l : List Cell} (h : CellsWritten s u l) (hb : t.mem.bytes = u.mem.bytes) : CellsWritten s t l := fun a =>
  (memByte_same hb a).trans (h a)

/-! ### The update -/

/-- The draw of a seed, where the working copy asks for one, and the clip factor that was read. -/
def optSeed (s : State) (p : Nat) (j : Job) : Word × State :=
  if (s.tensor p (oWork j.bytes)).desc.grad && oWork j.bytes != 0 then s.freeDraw else (0, s)
def optFactor (s : State) (j : Job) : Option Val :=
  if oClip j.bytes then some (val32 (BitVec.ofNat 32 (leNat (readBytes s (oAux j.bytes) 4)))) else none

/-- What the update writes, with the number of elements kept. -/
def optResult (s : State) (j : Job) : List (Nat × OutRes) × Nat := optOutputs s j (unscaleOf j) (optFactor s j) (optSeed s (s.ctx j.ctx).part j).1
def optCells (s : State) (j : Job) : List Cell := (optResult s j).1.flatMap (fun e => e.2.cells)

/-- The state past the reads and the draw of an update. -/
def optPast (s : State) (j : Job) : State := (optSeed (readOver s (optRanges s j)) (s.ctx j.ctx).part j).2

/-- The descriptor, its update written. -/
def optJob (s : State) (j : Job) : Job :=
  { j with
    phase := .dataDone, isPartial := (optResult s j).2 != 0, poison := !(optPoison s j (optResult s j).1).isEmpty,
    poisonIds := optPoison s j (optResult s j).1, deltas := (optResult s j).1.map (fun e => (e.1, e.2.delta)),
    nf := sumNat ((optResult s j).1.map (fun e => e.2.nf)) }

theorem optSeed_state (s : State) (p : Nat) (j : Job) : Sees s (optSeed s p j).2 ∧ Rests s (optSeed s p j).2 ∧ Within 1073741824 s (optSeed s p j).2 := by
  unfold optSeed
  split
  · exact ⟨⟨rfl, rfl, rfl, rfl, rfl⟩, rests_tables rfl rfl rfl, within_freeDraw s (Within.refl s) (Sub.refl _)⟩
  · exact ⟨Sees.refl s, Rests.refl s, Within.refl s⟩

theorem Sees.optFactor (h : Sees s t) (j : Job) : optFactor t j = optFactor s j := by rw [Machine.optFactor, Machine.optFactor, h.readBytes]

theorem optSeed_congr (h : Sees s t) (hf : t.freeCtr = s.freeCtr) (p : Nat) (j : Job) : (optSeed t p j).1 = (optSeed s p j).1 := by
  unfold optSeed
  rw [h.tensor]
  split
  · exact congrArg Config.freeWord hf
  · rfl

theorem optSeed_fst (s : State) (p : Nat) (j : Job) : (optSeed s p j).1 =
    if (s.tensor p (oWork j.bytes)).desc.grad && oWork j.bytes != 0 then Config.freeWord s.freeCtr else 0 := by
  unfold optSeed
  split <;> rfl

/-- What an update writes rests on what the engine sees, and on the next free value. -/
theorem optResult_congr (h : Sees s t) (hf : t.freeCtr = s.freeCtr) (j : Job) : optResult t j = optResult s j := by
  rw [optResult, optResult, h.optFactor, h.ctx, optSeed_congr h hf, h.optOutputs]

/-- What the update writes, as the engine finds it past its reads. -/
def optFound (s : State) (j : Job) : List (Nat × OutRes) × Nat :=
  optOutputs (optPast s j) j (unscaleOf j) (optFactor (readOver s (optRanges s j)) j) (optSeed (readOver s (optRanges s j)) (s.ctx j.ctx).part j).1

theorem optPast_frame (s : State) (j : Job) : Sees s (optPast s j) ∧ Rests s (optPast s j) ∧ Within 1207963832 s (optPast s j) := by
  obtain ⟨h1, h2, h3⟩ := optSeed_state (readOver s (optRanges s j)) (s.ctx j.ctx).part j
  exact ⟨(sees_readOver _ _).trans h1, (rests_readOver _ _).trans h2, (within_readOver _ _).trans h3 rfl rfl⟩

theorem optFound_eq (s : State) (j : Job) : optFound s j = optResult s j := by
  have hf : (readOver s (optRanges s j)).freeCtr = s.freeCtr := (within_readOver _ _).same .draws (by decide)
  rw [optFound, optResult, (sees_readOver _ _).optFactor, optSeed_congr (sees_readOver _ _) hf, (optPast_frame s j).1.optOutputs]

/-- The state that an update leaves. -/
def optWritten (s : State) (sec : Nat) (j : Job) : State :=
  putJob (optCount (writeCells (optPast s j) (optCells s j)) sec j (optResult s j).2) 4 sec (optJob s j)

section
variable {sec : Nat} {j : Job} (hj : jobOf v 4 sec = some j) (hp : j.phase = .running) (hn : oSnap j.bytes = false) (hh : unitHeld v 4 sec = false)
include hj hp hn hh

theorem optRun_skips (hg : oGated j.bytes = true) (hd : 2 ≤ j.decision) :
    optRun sec v = putJob (v.bump fNumOptStatSkippedDesc sec 0 1) 4 sec { j with phase := .dataDone } := by
  have h1 : ¬ ((oSnap j.bytes || decide (j.phase ≠ .running) || unitHeld v 4 sec) = true) := by rw [hn, hp, hh]; decide
  rw [optRun, hj]
  exact (if_neg h1).trans (if_pos (by rw [hg, decide_eq_true hd]; rfl))

section
variable (hg : ¬ (oGated j.bytes = true ∧ 2 ≤ j.decision))
include hg

theorem optRun_refuses (hc : oClip j.bytes = true) (hr : readOk v j.ctx (oAux j.bytes) 4 = false) : optRun sec v = endFault v 4 sec j 0x0E false := by
  have h1 : ¬ ((oSnap j.bytes || decide (j.phase ≠ .running) || unitHeld v 4 sec) = true) := by rw [hn, hp, hh]; decide
  have h2 : ¬ ((oGated j.bytes && decide (2 ≤ j.decision)) = true) := by simpa using hg
  rw [optRun, hj]
  exact (if_neg h1).trans ((if_neg h2).trans (if_pos (by rw [hc, hr]; rfl)))

theorem optRun_reads (hc : oClip j.bytes = true → readOk v j.ctx (oAux j.bytes) 4 = true) :
    (¬ Clean v (optRanges v j) → ∃ l p, optRun sec v = endFault (partialWrites (optPast v j) l) 4 sec j 6 p) ∧
    (Clean v (optRanges v j) →
      (cellsOk v j.ctx (optCells v j) = false → ∃ l, optRun sec v = endFault (partialWrites (optPast v j) l) 4 sec j 0x0E false) ∧
      (cellsOk v j.ctx (optCells v j) = true → optRun sec v = optWritten v sec j)) := by
  have h1 : ¬ ((oSnap j.bytes || decide (j.phase ≠ .running) || unitHeld v 4 sec) = true) := by rw [hn, hp, hh]; decide
  have h2 : ¬ ((oGated j.bytes && decide (2 ≤ j.decision)) = true) := by simpa using hg
  have h3 : ¬ ((oClip j.bytes && !readOk v j.ctx (oAux j.bytes) 4) = true) := by simpa using hc
  have hx : optRun sec v = match worstOf (readAll v (optRanges v j)).2 with
      | some poison => endFault (partialWrites (optPast v j) ((optFound v j).1.flatMap (fun e => e.2.cells))) 4 sec j 6 poison
      | none =>
        if !cellsOk (optPast v j) j.ctx ((optFound v j).1.flatMap (fun e => e.2.cells)) then
          endFault (partialWrites (optPast v j) (((optFound v j).1.flatMap (fun e => e.2.cells)).filter
            (fun e => writeOk (optPast v j) j.ctx e.1 1))) 4 sec j 0x0E false
        else
          putJob (optCount (writeCells (optPast v j) ((optFound v j).1.flatMap (fun e => e.2.cells))) sec j (optFound v j).2) 4 sec { j with
            phase := .dataDone, isPartial := (optFound v j).2 != 0, poison := !(optPoison (optPast v j) j (optFound v j).1).isEmpty,
            poisonIds := optPoison (optPast v j) j (optFound v j).1, deltas := (optFound v j).1.map (fun e => (e.1, e.2.delta)),
            nf := sumNat ((optFound v j).1.map (fun e => e.2.nf)) } := by
    rw [optRun, hj]
    exact (if_neg h1).trans ((if_neg h2).trans (if_neg h3))
  obtain ⟨hs, hr, -⟩ := optPast_frame v j
  rw [optFound_eq, hs.optPoison, hs.cellsOk hr, ← optCells] at hx
  refine ⟨fun hcl => ?_, fun hcl => ⟨fun hok => ?_, fun hok => ?_⟩⟩
  · obtain ⟨p, hp⟩ := worstOf_unclean hcl
    exact ⟨_, p, hx.trans (by rw [hp])⟩
  · rw [worstOf_clean hcl] at hx
    exact ⟨_, hx.trans (if_pos (by rw [hok]; rfl))⟩
  · rw [worstOf_clean hcl] at hx
    exact hx.trans (if_neg (by rw [hok]; decide))

end
end

/-- What an update leaves: its cells written, its engine done. -/
theorem optWritten_frame (s : State) (sec : Nat) (j : Job) :
    CellsWritten s (optWritten s sec j) (optCells s j) ∧ jobOf (optWritten s sec j) 4 sec = some (optJob s j) ∧
    Within 1216483512 s (optWritten s sec j) ∧ (oGated j.bytes = false → Within 1216352440 s (optWritten s sec j)) := by
  obtain ⟨hs, -, hw⟩ := optPast_frame s j
  have hc : Within 1207963832 s (writeCells (optPast s j) (optCells s j)) := within_writeCells _ _ hw rfl
  refine ⟨?_, jobOf_putJob _ _ _ _, ?_, fun hg => ?_⟩
  · refine ((cellsWritten_writeCells (optPast s j) (optCells s j)).of_bytes hs.bytes).onto ?_
    exact bytes_of_memory ((within_putJob _ _ _ _ (within_optCount _ _ _ _ (Within.refl _) rfl : Within 8519688 _ _) rfl).same .memory (by decide))
  · exact hc.trans (within_putJob _ _ _ _ (within_optCount _ _ _ _ (Within.refl _) rfl : Within 8519688 _ _) rfl) rfl rfl
  · have ho : Within 8 (writeCells (optPast s j) (optCells s j)) (optCount (writeCells (optPast s j) (optCells s j)) sec j (optResult s j).2) := by
      unfold optCount
      dsimp only
      rw [hg, if_neg (by decide)]
      exact within_bump _ _ _ _ _ (within_bump _ _ _ _ _ (Within.refl _) rfl) rfl
    exact hc.trans (ho.trans (within_putJob _ _ _ _ (Within.refl _) (Sub.refl _)) rfl rfl : Within 8388616 _ (optWritten s sec j)) rfl rfl

end Sys2Proof.Machine
end

section
/-! The statement about the optimizer engine: OPTIMIZER_UPDATE, OPTIMIZER_COMPLETE and OPTIMIZER_WATCHDOG (R216 to R219, R317, R430). -/

namespace Sys2Proof.Machine

variable {s t u v : State}

/-! ### A descriptor counted before it ends -/

/-- A descriptor that ends done in a state that differs from the one before only in the areas listed (R66, R351). -/
theorem endsSignalled_after {i : Instr} {kind unit : Nat} {j : Job} {count : State → State} {l : List Area}
    (hx : exec i s = .next (endCounted v kind unit j count)) (hv : Only l s v) (hm : ∀ c, (v.ctx c).marks = (s.ctx c).marks)
    (ho : ∀ t, Only l t (count t)) (he : Area.engines ∉ l) (ht : Area.tallies ∉ l) : EndsSignalled i s kind unit j l := by
  refine ⟨⟨_, hx, jobOf_endCounted _ _ _ _ fun t => jobOf_same (ho t _ he) _ _⟩, fun hs => ?_⟩
  have hid : exec i s = .next (endCounted v kind unit j count) := hx
  obtain ⟨w, ⟨hw, -⟩, hsig, hj, hend⟩ := endCounted_takes (kind := kind) (unit := unit) (hs.kept (hv _ ht) hm)
  have hf := finishEntry_only (count w) j.queue j.pos (jobRecord (count w) j 0 0)
  rw [hend count] at hid
  have hb : ∀ a ∈ [Area.parts, .tallies, .engines], a ∈ storeAreas ++ [.engines, .queues, .tallies, .out] := by decide
  have hc : ∀ a ∈ storeAreas ++ [Area.queues, .out], a ∈ storeAreas ++ [.engines, .queues, .tallies, .out] := by decide
  have hvw : Only (storeAreas ++ [.engines, .queues, .tallies, .out] ++ l) s w :=
    hv.trans (hw.only rfl : Only [.parts, .tallies, .engines] v w) (fun a ha => List.mem_append_right _ ha)
      (fun a ha => List.mem_append_left l (hb a ha))
  refine ⟨_, hid, ?_, fun k => ?_, (hvw.trans (ho w) (fun _ h => h) (fun a ha => List.mem_append_right _ ha)).trans hf
    (fun _ h => h) (fun a ha => List.mem_append_left l (hc a ha))⟩
  · rw [jobOf_same (hf .engines (by decide)), jobOf_same (ho w _ he), hj]
  · rw [tally_same (hf .tallies (by decide)), tally_same (ho w _ ht), hsig k, tally_same (hv _ ht)]

/-- What the end of a descriptor whose signals are taken leaves of contexts and tensors. -/
theorem endDone_leaves {kind unit : Nat} {j : Job} (h : SignalsTake v j.bytes) :
    Area.ctxs.same v (endDone v kind unit j) ∧ Area.tensors.same v (endDone v kind unit j) := by
  obtain ⟨w, ⟨hw, -⟩, -, -, hend⟩ := endCounted_takes (kind := kind) (unit := unit) h
  have hf := finishEntry_only w j.queue j.pos (jobRecord w j 0 0)
  rw [endDone, hend id]
  exact ⟨Area.same_trans (hw.same .ctxs (by decide)) (hf .ctxs (by decide)), Area.same_trans (hw.same .tensors (by decide)) (hf .tensors (by decide))⟩

/-! ### OPTIMIZER_COMPLETE -/

/-- The state with a descriptor's counter adds and marks. -/
def countedMarked (s : State) (j : Job) : State :=
  poisonTensors (addNf (applyDeltas s (s.ctx j.ctx).part j.deltas) j.ctx j.nf) (s.ctx j.ctx).part j.poisonIds

theorem within_countedMarked (s : State) (j : Job) : Within 73728 s (countedMarked s j) :=
  within_poisonTensors _ _ _ (within_addNf _ _ _ (within_applyDeltas _ _ _ (Within.refl s) rfl) rfl) rfl

theorem ctx_countedMarked (s : State) (j : Job) :
    (countedMarked s j).ctx j.ctx = { s.ctx j.ctx with nf := satAdd 32 (s.ctx j.ctx).nf j.nf } ∧
    ∀ k, k ≠ j.ctx → (countedMarked s j).ctx k = s.ctx k := by
  have hp := (within_poisonTensors (addNf (applyDeltas s (s.ctx j.ctx).part j.deltas) j.ctx j.nf) (s.ctx j.ctx).part j.poisonIds (Within.refl _)
    (Sub.refl _)).same .ctxs (by decide)
  have hd (k : Nat) := ctx_same ((within_applyDeltas s (s.ctx j.ctx).part j.deltas (Within.refl s) (Sub.refl _)).same .ctxs (by decide)) k
  refine ⟨(ctx_same hp _).trans ?_, fun k hk => (ctx_same hp k).trans ?_⟩
  · rw [addNf, State.modCtx, ctx_setCtx, hd]
  · rw [addNf, State.modCtx, ctx_setCtx_ne _ _ hk.symm, hd]

theorem marks_countedMarked (s : State) (j : Job) (c : Nat) : ((countedMarked s j).ctx c).marks = (s.ctx c).marks := by
  by_cases h : c = j.ctx
  · rw [h, (ctx_countedMarked s j).1]
  · rw [(ctx_countedMarked s j).2 c h]

theorem nf_countedMarked (s : State) (j : Job) : ((countedMarked s j).ctx j.ctx).nf = min ((s.ctx j.ctx).nf + j.nf) (2 ^ 32 - 1) := by
  rw [(ctx_countedMarked s j).1]
  rfl

theorem present_countedMarked (s : State) (j : Job) (p k : Nat) : ((countedMarked s j).tensor p k).present = (s.tensor p k).present :=
  (poisonTensors_keeps Tensor.present (fun _ => rfl) _ _ _ p k).trans (applyDeltas_keeps Tensor.present (fun _ _ => rfl) _ _ _ p k)

theorem poisoned_countedMarked {j : Job} {id : Nat} (hid : id ∈ j.poisonIds) (h : (s.tensor (s.ctx j.ctx).part id).present = true) :
    ((countedMarked s j).tensor (s.ctx j.ctx).part id).desc.poisoned = true :=
  poisoned_poisonTensors hid ((applyDeltas_keeps Tensor.present (fun _ _ => rfl) s _ _ _ id).trans h)

/-- The state in which an optimizer descriptor signals. -/
def optStamped (s : State) (j : Job) : State :=
  if oGated j.bytes then countedMarked s j else setStamps (countedMarked s j) (s.ctx j.ctx).part j.bytes

theorem within_optStamped (s : State) (j : Job) : Within 73728 s (optStamped s j) :=
  within_ite (within_countedMarked s j) (within_setStamps _ _ _ (within_countedMarked s j) rfl)

theorem ctxs_optStamped (s : State) (j : Job) : Area.ctxs.same (countedMarked s j) (optStamped s j) := by
  unfold optStamped
  split
  · rfl
  · exact (within_setStamps _ _ _ (Within.refl _) (Sub.refl _)).same .ctxs (by decide)

theorem poisoned_optStamped {j : Job} {id : Nat} (hid : id ∈ j.poisonIds) (h : (s.tensor (s.ctx j.ctx).part id).present = true) :
    ((optStamped s j).tensor (s.ctx j.ctx).part id).desc.poisoned = true := by
  unfold optStamped
  split
  · exact poisoned_countedMarked hid h
  · exact (setStamps_keeps (fun x => x.desc.poisoned) (fun _ _ => rfl) _ _ _ id _).trans (poisoned_countedMarked hid h)

theorem stamp_optStamped {j : Job} (hg : oGated j.bytes = false) (h : (s.tensor (s.ctx j.ctx).part (oMaster j.bytes)).present = true) :
    ((optStamped s j).tensor (s.ctx j.ctx).part (oMaster j.bytes)).stamp = BitVec.ofNat 32 (oStep j.bytes) := by
  rw [optStamped, if_neg (Bool.eq_false_iff.1 hg)]
  exact stamp_setStamps ((present_countedMarked s j _ _).trans h)

section
variable {sec : Sec} {j : Job} (hj : jobOf s 4 sec.val = some j) (hh : unitHeld s 4 sec.val = false)
include hj hh

theorem exec_optimizerComplete (hp : j.phase = .dataDone) : exec (.optimizerComplete sec) s = .next (endDone (optStamped s j) 4 sec.val j) := by
  change execOptimizerComplete sec s = _
  rw [execOptimizerComplete, optComplete, hj]
  exact congrArg Host.Outcome.next (if_neg (by rw [hp, hh]; decide))

theorem exec_optimizerWatchdog (hp : j.phase ≠ .waitGate) : ∃ l, exec (.optimizerWatchdog sec) s = .next (engineWatchdog (partialWrites s l) 4 sec.val j) := by
  change ∃ l, execOptimizerWatchdog sec s = _
  have hn : ¬ ((decide (j.phase = .waitGate) || unitHeld s 4 sec.val) = true) := by rw [hh, decide_eq_false hp]; decide
  rw [execOptimizerWatchdog, hj]
  exact ⟨_, congrArg Host.Outcome.next (if_neg hn)⟩

end

/-- An optimizer engine without a descriptor, or a held one, stands still. -/
theorem optimizer_idle (sec : Sec) (h : jobOf s 4 sec.val = none ∨ unitHeld s 4 sec.val = true) :
    exec (.optimizerComplete sec) s = .next s ∧ exec (.optimizerWatchdog sec) s = .next s := by
  change execOptimizerComplete sec s = _ ∧ execOptimizerWatchdog sec s = _
  unfold execOptimizerComplete execOptimizerWatchdog optComplete
  refine ⟨congrArg _ ?_, congrArg _ ?_⟩
  · split
    next j hj => exact if_pos (by rw [h.resolve_left (by rw [hj]; exact nofun), Bool.or_true])
    next => rfl
  · split
    next j hj => exact if_pos (by rw [h.resolve_left (by rw [hj]; exact nofun), Bool.or_true])
    next => rfl

/-! ### OPTIMIZER_UPDATE -/

section
variable {sec : Nat} {q c : Nat} {e : Entry} (h : Takes u 4 sec q c e)
include h

theorem optTake_bad (hb : optBad u (jobFrom u q c e) = true) : optTake u sec = endFault (taken u 4 sec q c e) 4 sec (jobFrom u q c e) 1 false := by
  rw [optTake, takeDesc_of_takes h]
  exact if_pos ((taken_lift (optBad · (jobFrom u q c e)) fun _ _ _ => rfl).trans hb)

theorem optTake_waits (hb : optBad u (jobFrom u q c e) = false) (hg : oGated e.bytes = true) :
    optTake u sec = putJob (taken u 4 sec q c e) 4 sec { jobFrom u q c e with phase := .waitGate } := by
  have hb' : optBad (taken u 4 sec q c e) (jobFrom u q c e) = false := (taken_lift (optBad · (jobFrom u q c e)) fun _ _ _ => rfl).trans hb
  rw [optTake, takeDesc_of_takes h]
  exact (if_neg (Bool.eq_false_iff.1 hb')).trans (if_pos hg)

theorem optTake_takes (hb : optBad u (jobFrom u q c e) = false) (hg : oGated e.bytes = false) : optTake u sec = taken u 4 sec q c e := by
  have hb' : optBad (taken u 4 sec q c e) (jobFrom u q c e) = false := (taken_lift (optBad · (jobFrom u q c e)) fun _ _ _ => rfl).trans hb
  rw [optTake, takeDesc_of_takes h]
  exact (if_neg (Bool.eq_false_iff.1 hb')).trans (if_neg (Bool.eq_false_iff.1 hg))

end

/-- The engine runs nothing where it holds no descriptor, or one that does not run. -/
theorem optRun_idle {sec : Nat} (h : ∀ j, jobOf s 4 sec = some j → j.phase ≠ .running) : optRun sec s = s := by
  unfold optRun
  split
  next j hj => exact if_pos (by simp [h j hj])
  next => rfl

/-- An engine that holds a descriptor takes none. -/
theorem optTake_busy {sec : Nat} {j : Job} (hj : jobOf s 4 sec = some j) : optTake s sec = s := by
  have ht : takeDesc s 4 sec = (s, none) := if_pos (by rw [show (s.engine (engineKey 4 sec)).job = some j from hj]; rfl)
  rw [optTake, ht]

/-- An update of the descriptor just taken, its engine past what the engine of before saw. -/
theorem optRanges_taken (s : State) (sec q c : Nat) (e : Entry) (j : Job) : optRanges (taken s 4 sec q c e) j = optRanges s j :=
  taken_lift (optRanges · j) fun _ _ _ => rfl

theorem freeCtr_taken (s : State) (kind unit q c : Nat) (e : Entry) : (taken s kind unit q c e).freeCtr = s.freeCtr :=
  (within_taken s kind unit q c e).same .draws (by decide)

theorem optResult_taken (s : State) (sec q c : Nat) (e : Entry) (j : Job) : optResult (taken s 4 sec q c e) j = optResult s j :=
  optResult_congr (sees_taken s 4 sec q c e) (freeCtr_taken s 4 sec q c e) j

theorem optCells_taken (s : State) (sec q c : Nat) (e : Entry) (j : Job) : optCells (taken s 4 sec q c e) j = optCells s j := by
  rw [optCells, optCells, optResult_taken]

theorem optJob_taken (s : State) (sec q c : Nat) (e : Entry) (j : Job) : optJob (taken s 4 sec q c e) j = optJob s j := by
  rw [optJob, optJob, optResult_taken, (sees_taken s 4 sec q c e).optPoison]

end Sys2Proof.Machine
end

section
/-! O32: the optimizer engine. -/

namespace Sys2Proof.Machine

variable {s t u v : State}

/-- Whether an engine is held rests on time and on the partitions. -/
theorem unitHeld_same (hm : Area.module.same s t) (hp : Area.parts.same s t) (kind unit : Nat) : unitHeld t kind unit = unitHeld s kind unit := by
  have hc : aCycles t = aCycles s := congrArg (fun m : Module => m.rootCycles / 4) hm
  simp only [unitHeld, secHeld, secPart, partHeld, parts_same hp, hc]

theorem mode_taken_upset (s : State) (hits : List Hit) (unit q c : Nat) (e : Entry) :
    ((taken (upsetWords s hits) 4 unit q c e).ctx c).mode = (s.ctx c).mode := by
  rw [(sees_taken (upsetWords s hits) 4 unit q c e).ctx, ctx_same (upsetWords_only s hits .ctxs (by decide))]

section
variable {sec : Sec} {hits : List Hit} {q c : Nat} {e : Entry} (h : Takes (upsetWords s hits) 4 sec.val q c e)
include h

theorem optimizerUpdate_bad (hb : optBad (upsetWords s hits) (jobFrom (upsetWords s hits) q c e) = true) :
    EndsFault (.optimizerUpdate sec hits) s 4 sec.val c 1 := by
  refine endsFault_of (congrArg Host.Outcome.next ((congrArg (optRun sec.val) (optTake_bad h hb)).trans (optRun_idle fun j hj => ?_))) rfl
    (mode_taken_upset s hits sec.val q c e)
  rw [(endFault_frame _ _ _ _ _ _).1] at hj
  exact nomatch hj

theorem optimizerUpdate_gated (hb : optBad (upsetWords s hits) (jobFrom (upsetWords s hits) q c e) = false) (hg : oGated e.bytes = true) :
    ∃ t, exec (.optimizerUpdate sec hits) s = .next t ∧
      jobOf t 4 sec.val = some { jobFrom (upsetWords s hits) q c e with phase := .waitGate } ∧
      (∀ k, k ≠ q → t.queue k = (upsetWords s hits).queue k) ∧ Only [.registers, .queues, .engines] (upsetWords s hits) t := by
  have hw := within_putJob (taken (upsetWords s hits) 4 sec.val q c e) 4 sec.val { jobFrom (upsetWords s hits) q c e with phase := .waitGate }
    (Within.refl _) (Sub.refl _)
  refine ⟨_, congrArg Host.Outcome.next ((congrArg (optRun sec.val) (optTake_waits h hb hg)).trans (optRun_idle fun j hj => ?_)),
    jobOf_putJob _ _ _ _, fun k hk => (queue_same (hw.same .queues (by decide)) k).trans (queue_taken _ _ _ _ _ _ hk),
    ((within_taken _ _ _ _ _ _).trans hw rfl rfl : Within 8388872 _ _).only rfl⟩
  rw [jobOf_putJob] at hj
  obtain rfl := Option.some.inj hj
  exact nofun

section
variable (hb : optBad (upsetWords s hits) (jobFrom (upsetWords s hits) q c e) = false) (hg : oGated e.bytes = false)
include hb hg

theorem exec_optimizerUpdate_taken : exec (.optimizerUpdate sec hits) s = .next (optRun sec.val (taken (upsetWords s hits) 4 sec.val q c e)) :=
  congrArg Host.Outcome.next (congrArg (optRun sec.val) (optTake_takes h hb hg))

variable (hn : oSnap e.bytes = false) (hh : unitHeld (upsetWords s hits) 4 sec.val = false)
include hn hh

theorem optimizerUpdate_refused (hc : oClip e.bytes = true) (hr : readOk (upsetWords s hits) c (oAux e.bytes) 4 = false) :
    EndsFault (.optimizerUpdate sec hits) s 4 sec.val c 0x0E := by
  have hh' : unitHeld (taken (upsetWords s hits) 4 sec.val q c e) 4 sec.val = false := (taken_lift (unitHeld · 4 sec.val) fun _ _ _ => rfl).trans hh
  have hr' : readOk (taken (upsetWords s hits) 4 sec.val q c e) c (oAux e.bytes) 4 = false :=
    ((sees_taken _ 4 sec.val q c e).readOk (rests_taken _ 4 sec.val q c e) _ _ _).trans hr
  refine endsFault_of ((exec_optimizerUpdate_taken h hb hg).trans (congrArg Host.Outcome.next
    (optRun_refuses (jobOf_taken _ _ _ _ _ _) rfl hn hh' (fun hx => ?_) hc hr'))) rfl (mode_taken_upset s hits sec.val q c e)
  exact absurd (hg.symm.trans hx.1) Bool.false_ne_true

theorem optimizerUpdate_reads (hc : oClip e.bytes = true → readOk (upsetWords s hits) c (oAux e.bytes) 4 = true) :
    let u := upsetWords s hits
    let j := jobFrom u q c e
    (¬ Clean u (optRanges u j) → EndsFault (.optimizerUpdate sec hits) s 4 sec.val c 6) ∧
    (Clean u (optRanges u j) →
      (cellsOk u c (optCells u j) = false → EndsFault (.optimizerUpdate sec hits) s 4 sec.val c 0x0E) ∧
      (cellsOk u c (optCells u j) = true → ∃ t, exec (.optimizerUpdate sec hits) s = .next t ∧ CellsWritten u t (optCells u j) ∧
        jobOf t 4 sec.val = some (optJob u j) ∧ (∀ k, k ≠ q → t.queue k = u.queue k) ∧ Only (readAreas ++ [.queues, .engines, .draws]) u t)) := by
  intro u j
  have hs : Sees u (taken u 4 sec.val q c e) := sees_taken u 4 sec.val q c e
  have hh' : unitHeld (taken u 4 sec.val q c e) 4 sec.val = false := (taken_lift (unitHeld · 4 sec.val) fun _ _ _ => rfl).trans hh
  have hx := exec_optimizerUpdate_taken h hb hg
  obtain ⟨h1, h2⟩ := optRun_reads (jobOf_taken u 4 sec.val q c e) rfl hn hh' (fun hx => absurd (hg.symm.trans hx.1) Bool.false_ne_true)
    (fun hcl => (hs.readOk (rests_taken _ 4 sec.val q c e) _ _ _).trans (hc hcl))
  rw [optRanges_taken, clean_taken] at h1 h2
  rw [optCells_taken, hs.cellsOk (rests_taken _ 4 sec.val q c e)] at h2
  have hpast (l : List Cell) : ((partialWrites (optPast (taken u 4 sec.val q c e) j) l).ctx c).mode = (s.ctx c).mode := by
    rw [ctx_same ((within_partialWrites _ _ (Within.refl _) (Sub.refl _)).same .ctxs (by decide)), (optPast_frame _ j).1.ctx]
    exact mode_taken_upset s hits sec.val q c e
  refine ⟨fun hcl => ?_, fun hcl => ⟨fun hok => ?_, fun hok => ?_⟩⟩
  · obtain ⟨l, p, ht⟩ := h1 hcl
    exact endsFault_of (hx.trans (congrArg _ ht)) rfl (hpast l)
  · obtain ⟨l, ht⟩ := (h2 hcl).1 hok
    exact endsFault_of (hx.trans (congrArg _ ht)) rfl (hpast l)
  · obtain ⟨hcw, hjob, -, hw⟩ := optWritten_frame (taken u 4 sec.val q c e) sec.val j
    rw [optCells_taken] at hcw
    rw [optJob_taken] at hjob
    refine ⟨_, hx.trans (congrArg _ ((h2 hcl).2 hok)), hcw.of_bytes hs.bytes, hjob, fun k hk => ?_,
      ((within_taken _ _ _ _ _ _).trans (hw hg) rfl rfl : Within 1216352696 u _).only rfl⟩
    rw [queue_same ((hw hg).same .queues (by decide)), queue_taken _ _ _ _ _ _ hk]

end
end

/-! ### A descriptor that obeys its gate -/

/-- What an update writes for a descriptor that nothing gates, and for one that obeys its gate without a clip factor. -/
theorem optResult_ungated {j : Job} (hg : oGated j.bytes = false) : optResult s j = optOutputs s j (.fin false 1)
    (if oClip j.bytes then some (val32 (BitVec.ofNat 32 (leNat (readBytes s (oAux j.bytes) 4)))) else none)
    (if (s.tensor (s.ctx j.ctx).part (oWork j.bytes)).desc.grad && oWork j.bytes != 0 then Config.freeWord s.freeCtr else 0) := by
  rw [optResult, optSeed_fst, unscaleOf, if_neg (Bool.eq_false_iff.1 hg)]
  rfl

theorem optResult_gated {j : Job} (hg : oGated j.bytes = true) (hc : oClip j.bytes = false) :
    optResult s j = optOutputs s j (.fin false (pow2 (-j.unscale))) none
      (if (s.tensor (s.ctx j.ctx).part (oWork j.bytes)).desc.grad && oWork j.bytes != 0 then Config.freeWord s.freeCtr else 0) := by
  rw [optResult, optSeed_fst, unscaleOf, if_pos hg, optFactor, if_neg (Bool.eq_false_iff.1 hc)]

section
variable {sec : Sec} {hits : List Hit} {j : Job} (hj : jobOf s 4 sec.val = some j) (hh : unitHeld s 4 sec.val = false)
include hj hh

theorem exec_optimizerUpdate_held : exec (.optimizerUpdate sec hits) s = .next (optRun sec.val (upsetWords s hits)) ∧
    jobOf (upsetWords s hits) 4 sec.val = some j ∧ unitHeld (upsetWords s hits) 4 sec.val = false := by
  have ho := upsetWords_only s hits
  have hj' : jobOf (upsetWords s hits) 4 sec.val = some j := (jobOf_same (ho .engines (by decide)) _ _).trans hj
  exact ⟨congrArg Host.Outcome.next (congrArg (optRun sec.val) (optTake_busy hj')), hj',
    (unitHeld_same (ho .module (by decide)) (ho .parts (by decide)) _ _).trans hh⟩

variable (hn : oSnap j.bytes = false) (hp : j.phase = .running)
include hn hp

theorem optimizerUpdate_skips (hg : oGated j.bytes = true) (hd : 2 ≤ j.decision) :
    ∃ t, exec (.optimizerUpdate sec hits) s = .next t ∧ jobOf t 4 sec.val = some { j with phase := .dataDone } ∧
      Counted (upsetWords s hits) t fNumOptStatSkippedDesc sec.val 0 1 ∧ Only [.engines, .registers] (upsetWords s hits) t := by
  obtain ⟨hx, hj', hh'⟩ := exec_optimizerUpdate_held (hits := hits) hj hh
  rw [optRun_skips hj' hp hn hh' hg hd] at hx
  have hc : Counted (upsetWords s hits) ((upsetWords s hits).bump fNumOptStatSkippedDesc sec.val 0 1) fNumOptStatSkippedDesc sec.val 0 1 :=
    fld_bump_same _ fNumOptStatSkippedDesc _ _ 1 (by decide) (by decide)
  have hw := within_putJob ((upsetWords s hits).bump fNumOptStatSkippedDesc sec.val 0 1) 4 sec.val { j with phase := .dataDone } (Within.refl _)
    (Sub.refl _)
  exact ⟨_, hx, jobOf_putJob _ _ _ _, hc.after (hw.same .registers (by decide)),
    ((within_bump _ _ _ _ _ (Within.refl _) (Sub.refl _)).trans hw rfl rfl : Within 8388616 (upsetWords s hits) _).only rfl⟩

theorem optimizerUpdate_obeys (hd : j.decision < 2) (hc : oClip j.bytes = false) (hcl : Clean (upsetWords s hits) (optRanges (upsetWords s hits) j))
    (hok : cellsOk (upsetWords s hits) j.ctx (optCells (upsetWords s hits) j) = true) :
    ∃ t, exec (.optimizerUpdate sec hits) s = .next t ∧ CellsWritten (upsetWords s hits) t (optCells (upsetWords s hits) j) ∧
      (t.engine (engineKey 4 sec.val)).job.map (·.phase) = some .dataDone ∧ t.queue = (upsetWords s hits).queue ∧
      Only (readAreas ++ [.engines, .draws, .gates]) (upsetWords s hits) t := by
  obtain ⟨hx, hj', hh'⟩ := exec_optimizerUpdate_held (hits := hits) hj hh
  have hr := ((optRun_reads hj' hp hn hh' (fun h => by omega) (fun h => absurd (hc.symm.trans h) Bool.false_ne_true)).2 hcl).2 hok
  obtain ⟨hcw, hjob, hw, -⟩ := optWritten_frame (upsetWords s hits) sec.val j
  exact ⟨_, hx.trans (congrArg _ hr), hcw, congrArg (Option.map (·.phase)) hjob, funext fun k => queue_same (hw.same .queues (by decide)) k,
    hw.only rfl⟩

end

/-- Settles O32: what the engine writes rests on what it sees, which its reads leave; a descriptor counts and marks before it signals. -/
theorem optimizerEngine : Obligations.OptimizerEngine := by
  unfold Obligations.OptimizerEngine
  refine ⟨fun sec hits s q c e => ?take, fun sec hits s j hj hn hp hg hh => ?held, fun sec s j hj hh => ?ends, fun sec s h => optimizer_idle sec h⟩
  case take =>
    intro u i j b h
    refine ⟨optimizerUpdate_bad h, optimizerUpdate_gated h, fun hb hg hn hh => ⟨optimizerUpdate_refused h hb hg hn hh, fun hc => ?_⟩⟩
    obtain ⟨h1, h2⟩ := optimizerUpdate_reads h hb hg hn hh hc
    refine ⟨h1, fun hcl => ?_⟩
    intro clip seed r cells
    have hr : optResult u j = r := optResult_ungated hg
    have h3 := h2 hcl
    rw [optCells, optJob, hr] at h3
    exact h3
  case held =>
    intro u
    refine ⟨optimizerUpdate_skips hj hh hn hp hg, fun hd hc hcl => ?_⟩
    intro r cells hok
    have hr : optResult u j = r := optResult_gated hg hc
    have hcells : optCells u j = cells := by rw [optCells, hr]
    rw [← hcells] at hok ⊢
    exact optimizerUpdate_obeys hj hh hn hp hd hc hcl hok
  case ends =>
    refine ⟨fun hp => ⟨?_, fun hs => ?_⟩, fun hp => ?_⟩
    · refine endsSignalled_after (exec_optimizerComplete hj hh hp) ((within_optStamped s j).only rfl) (fun c => ?_) (fun t => Only.refl _ t)
        (by decide) (by decide)
      rw [ctx_same (ctxs_optStamped s j), marks_countedMarked]
    · have hv : SignalsTake (optStamped s j) j.bytes := hs.kept ((within_optStamped s j).same .tallies (by decide)) fun c => by
        rw [ctx_same (ctxs_optStamped s j), marks_countedMarked]
      obtain ⟨hc, ht⟩ := endDone_leaves (kind := 4) (unit := sec.val) hv
      have hctx (k : Nat) : (endDone (optStamped s j) 4 sec.val j).ctx k = (countedMarked s j).ctx k :=
        (ctx_same hc k).trans (ctx_same (ctxs_optStamped s j) k)
      refine ⟨_, exec_optimizerComplete hj hh hp, ?_, fun k hk => ?_, fun hg hm => ?_, fun id hid hm => ?_⟩
      · rw [hctx, nf_countedMarked]
      · rw [hctx, (ctx_countedMarked s j).2 k hk]
      · rw [tensor_same ht]
        exact stamp_optStamped hg hm
      · rw [tensor_same ht]
        exact poisoned_optStamped hid hm
    · obtain ⟨l, hx⟩ := exec_optimizerWatchdog hj hh hp
      refine endsFault_watchdog hx ?_
      rw [ctx_same ((within_partialWrites _ _ (Within.refl s) (Sub.refl _)).same .ctxs (by decide))]

end Sys2Proof.Machine
end

section
/-! What a completion record that is written leaves of the registers: only those of memory, of health and of the outbound mailboxes change,
each within its own bank (R56, R59, R350, R434). -/

namespace Sys2Proof.Machine

variable {s t u v : State}

/-- The registers that count and record what accesses to memory meet. -/
def memoryRegs : List RegName := [.loamEccCount, .loamEccLast, .hbmEccCount, .hbmEccLast, .loamCacheStat, .hltUnit, .mbxOutStatus]

theorem regsBut_noteLoam (s : State) {sec : Nat} (off : Nat) (e : WordError) (h : sec < 8) : RegsBut memoryRegs s (noteLoam s sec off e) := by
  have h64 : sec < 64 := by omega
  have hu : huSection sec < 1024 := by unfold huSection; omega
  cases e
  all_goals unfold noteLoam; dsimp only
  · exact ((regsBut_bump s (f := fLoamEccCountCorr) 1 (by decide) h64 (by decide)).trans (regsBut_setRaw _ (a := ⟨.loamEccLast, sec, 0⟩) _
      (show RegName.loamEccLast ∈ memoryRegs by decide) h64 (Nat.zero_lt_succ _))).trans (regsBut_healthEvent _ _ _ (by decide) (by decide) hu)
  · exact ((regsBut_bump s (f := fLoamEccCountUncorr) 1 (by decide) h64 (by decide)).trans (regsBut_setRaw _ (a := ⟨.loamEccLast, sec, 0⟩) _
      (show RegName.loamEccLast ∈ memoryRegs by decide) h64 (Nat.zero_lt_succ _))).trans (regsBut_healthEvent _ _ _ (by decide) (by decide) hu)
  · exact (regsBut_bump s (f := fLoamEccCountPoisoned) 1 (by decide) h64 (by decide)).trans (regsBut_setRaw _ (a := ⟨.loamEccLast, sec, 0⟩) _
      (show RegName.loamEccLast ∈ memoryRegs by decide) h64 (Nat.zero_lt_succ _))

theorem regsBut_noteHbm (s : State) {g : Nat} (off : Nat) (e : WordError) (h : g / 3 < 8) : RegsBut memoryRegs s (noteHbm s g off e) := by
  have h64 : g / 3 < 64 := by omega
  have h3 : g % 3 < 1024 := by omega
  have hu : huStack g < 1024 := by unfold huStack; omega
  cases e
  all_goals unfold noteHbm; dsimp only
  · exact ((regsBut_bump s (f := fHbmEccCountCorr) 1 (by decide) h64 h3).trans (regsBut_setRaw _ (a := ⟨.hbmEccLast, g / 3, g % 3⟩) _
      (show RegName.hbmEccLast ∈ memoryRegs by decide) h64 h3)).trans (regsBut_healthEvent _ _ _ (by decide) (by decide) hu)
  · exact ((regsBut_bump s (f := fHbmEccCountUncorr) 1 (by decide) h64 h3).trans (regsBut_setRaw _ (a := ⟨.hbmEccLast, g / 3, g % 3⟩) _
      (show RegName.hbmEccLast ∈ memoryRegs by decide) h64 h3)).trans (regsBut_healthEvent _ _ _ (by decide) (by decide) hu)
  · exact (regsBut_bump s (f := fHbmEccCountPoisoned) 1 (by decide) h64 h3).trans (regsBut_setRaw _ (a := ⟨.hbmEccLast, g / 3, g % 3⟩) _
      (show RegName.hbmEccLast ∈ memoryRegs by decide) h64 h3)

/-- The section of a word's place is the same in every state. -/
theorem placeOf_sec (s t : State) (k : Nat) : (placeOf t k).sec = (placeOf s k).sec := by
  unfold placeOf
  by_cases h : copyBase ≤ k
  · rw [if_pos h, if_pos h]
    dsimp only [WordPlace.sec]
  · rw [if_neg h, if_neg h]

theorem regsBut_addCause_mem {rs : List RegName} (s : State) (m : Mem) (p f k : Nat) (l : Option Nat) :
    RegsBut rs s (addCause { s with mem := m } p f k l) := fun a _ _ _ =>
  raw_congr ((within_addCause { s with mem := m } p f k l (Within.refl _) (Sub.refl _)).same .registers (by decide)) a

theorem regsBut_noteKey (s : State) {k : Nat} (e : WordError) (h : (placeOf s k).sec < 8) : RegsBut memoryRegs s (noteKey s k e) := by
  unfold noteKey
  cases hp : placeOf s k with
  | loam sec off =>
    rw [hp] at h
    have hn := regsBut_noteLoam s off e h
    cases e with
    | corrected y =>
      dsimp only
      split
      · exact hn.trans (regsBut_addCause_mem _ _ _ _ _ _)
      · exact hn
    | uncorrectable => exact hn
    | poisoned => exact hn
  | hbm g off =>
    rw [hp] at h
    have hn := regsBut_noteHbm s off e h
    cases e with
    | corrected y =>
      dsimp only
      split
      · exact hn.trans (regsBut_addCause_mem _ _ _ _ _ _)
      · exact hn
    | uncorrectable => exact hn
    | poisoned => exact hn

theorem regsBut_noteErrors (s : State) {l : List (Nat × Nat × WordError)} (h : ∀ e ∈ l, (placeOf s e.2.1).sec < 8) : RegsBut memoryRegs s (noteErrors s l) := by
  induction l generalizing s with
  | nil => exact RegsBut.refl s
  | cons e l ih => exact (regsBut_noteKey s e.2.2 (h e (.head _))).trans (ih _ fun f hf => (placeOf_sec s _ _).symm ▸ h f (.tail _ hf))

/-! ### Where a word in error lies -/

theorem mem_rankInsert {α : Type} {rank : α → Nat} {x y : α} {l : List α} (h : y ∈ rankInsert rank x l) : y = x ∨ y ∈ l := by
  induction l with
  | nil => exact .inl (List.mem_singleton.1 h)
  | cons z l ih =>
    unfold rankInsert at h
    split at h
    · exact List.mem_cons.1 h
    · rcases List.mem_cons.1 h with rfl | h
      · exact .inr (.head _)
      · exact (ih h).imp id (.tail _)

/-- An error is one of a word that the test selects. -/
theorem sel_of_mem_errorsOf {a : Nat} {sel : Nat → Bool} {e : Nat × Nat × WordError} (h : e ∈ errorsOf s a sel) : sel e.2.1 = true := by
  have hmem : ∀ (l l' : List (Nat × Nat × WordError)), e ∈ l.foldl (fun l x => rankInsert (errorRank s a) x l) l' → e ∈ l ∨ e ∈ l' := by
    intro l
    induction l with
    | nil => exact fun l' h => .inr h
    | cons x l ih =>
      intro l' h
      rcases ih _ h with h | h
      · exact .inl (.tail _ h)
      · rcases mem_rankInsert h with rfl | h
        · exact .inl (.head _)
        · exact .inr h
  have h := (hmem _ [] h).resolve_right List.not_mem_nil
  rcases List.mem_append.1 h with h | h
  · obtain ⟨x, hx, rfl⟩ := List.mem_map.1 h
    exact (Bool.and_eq_true _ _ ▸ (List.mem_filter.1 hx).2 : _ ∧ _).2
  · obtain ⟨x, hx, hm⟩ := List.mem_flatMap.1 h
    have hs := (List.mem_filter.1 hx).2
    split at hm
    · rw [List.mem_singleton.1 hm]
      exact hs
    · rw [List.mem_singleton.1 hm]
      exact hs
    · exact nomatch hm

/-- A line that is cached lies in the section of its place. -/
theorem keySec_of_home {a ck : Nat} (h : lineHome s a = some ck) {o : Nat} (ho : o < 4096) (hw : lineAddr s ck + o = a) :
    keySec ck = a / sectionHbm := by
  unfold lineHome at h
  dsimp only at h
  split at h
  · exact nomatch h
  · obtain ⟨w, hf, rfl⟩ := Option.map_eq_some_iff.1 h
    have hline : ((tabGet ({} : CacheLine) s.mem.cache (cacheKey (a / sectionHbm)
        ((a - a / sectionHbm * sectionHbm) / 4096 % (256 * secUnits s (a / sectionHbm))) w)).line) = (a - a / sectionHbm * sectionHbm) / 4096 := by
      have h := List.find?_some hf
      dsimp only at h
      exact eq_of_beq (Bool.and_eq_true _ _ ▸ h : _ ∧ _).2
    have hw16 : w < 16 := List.mem_range.1 (List.mem_of_find?_eq_some hf)
    rw [lineAddr, hline] at hw
    generalize (a - a / sectionHbm * sectionHbm) / 4096 % (256 * secUnits s (a / sectionHbm)) = set at hw ⊢
    unfold keySec cacheKey at hw ⊢
    unfold sectionHbm at hw ⊢
    omega

/-- A range of bytes that lies in HBM or in the Loam of a section. -/
def Placed (a n : Nat) : Prop := placeSecs a n ≠ none

theorem placed_cases {a n : Nat} (h : Placed a n) : a + n ≤ hbmBytes ∨
    (loamBase ≤ a ∧ a < loamBase + 8 * loamWindow ∧ (a - loamBase) % loamWindow + n ≤ loamBytes) := by
  unfold Placed placeSecs inHbm at h
  by_cases hh : a + n ≤ hbmBytes
  · exact .inl hh
  · right
    rw [decide_eq_false hh, if_neg Bool.false_ne_true] at h
    unfold loamPlace at h
    dsimp only at h
    split at h
    next hw =>
      split at hw
      next h1 =>
        split at hw
        next h2 => exact ⟨h1.1, h1.2, h2⟩
        next => exact nomatch hw
      next => exact nomatch hw
    next => exact absurd rfl h

theorem placed_of_inPartition {p a n : Nat} (h : inPartition s p a n = true) : Placed a n := fun e => by
  rw [inPartition, e] at h
  exact nomatch h

/-- A word that shares a byte with a range in the Loam of a section lies there. -/
theorem loam_word {a n k : Nat} (hb : loamBase ≤ a) (ht : a < loamBase + 8 * loamWindow) (hl : (a - loamBase) % loamWindow + n ≤ loamBytes)
    (h1 : a < 16 * k + 16) (h2 : 16 * k < a + n) : (loamBase ≤ 16 * k ∧ 16 * k < loamBase + 8 * loamWindow) ∧
    (16 * k - loamBase) % loamWindow + 1 ≤ loamBytes ∧ (16 * k - loamBase) / loamWindow < 8 := by
  unfold loamBase loamWindow loamBytes at *
  omega

/-- A word's own place lies in a section where one of its bytes, or the bytes of a range about it, do. -/
theorem placeOf_word {a n k : Nat} (h : Placed a n) (hk : k < copyBase) (h1 : a < 16 * k + 16) (h2 : 16 * k < a + n) : (placeOf s k).sec < 8 := by
  rw [placeOf, if_neg (Nat.not_le.2 hk)]
  rcases placed_cases h with h | ⟨hb, ht, hl⟩
  · have hn : loamPlace (16 * k) 1 = none := by
      rw [loamPlace, if_neg]
      unfold hbmBytes at h
      unfold loamBase
      omega
    rw [hn]
    dsimp only [WordPlace.sec]
    unfold stackOf stackBytes
    unfold hbmBytes at h
    omega
  · obtain ⟨hw, ho, hs⟩ := loam_word hb ht hl h1 h2
    have hp : loamPlace (16 * k) 1 = some ((16 * k - loamBase) / loamWindow, (16 * k - loamBase) % loamWindow) := by
      rw [loamPlace, if_pos hw]
      exact if_pos ho
    rw [hp]
    exact hs

theorem inHbm_of_lineHome {a ck : Nat} (h : lineHome s a = some ck) : a < hbmBytes := by
  unfold lineHome at h
  dsimp only at h
  split at h
  · exact nomatch h
  next hn =>
    simp only [Bool.or_eq_true, not_or, Bool.not_eq_true', Bool.not_eq_false] at hn
    exact of_decide_eq_true hn.2

theorem copyKey_copyWord {ck i : Nat} (h : i < 256) : copyKey (copyWord ck i) = ck := by
  unfold copyKey copyWord
  omega

/-- A word that an access to its address meets, in a range of bytes that has a place, lies in one of the eight sections. -/
theorem placeOf_home {a n k : Nat} (h : Placed a n) (hk : homeWord s (wordAddr s k) = k) (h1 : a < wordAddr s k + 16) (h2 : wordAddr s k < a + n) :
    (placeOf s k).sec < 8 := by
  by_cases hb : k < copyBase
  · rw [wordAddr, if_pos hb] at h1 h2
    exact placeOf_word h hb h1 h2
  · have hsec : (placeOf s k).sec = keySec (copyKey k) := by
      rw [placeOf, if_pos (Nat.not_lt.1 hb)]
      dsimp only [WordPlace.sec]
    rw [hsec]
    cases hl : lineHome s (wordAddr s k) with
    | none =>
      rw [homeWord, hl] at hk
      have hw : wordAddr s k / 16 = k := hk
      have hp := placed_cases h
      unfold copyBase at hb
      unfold hbmBytes loamBase loamWindow loamBytes at hp
      omega
    | some ck =>
      rw [homeWord, hl] at hk
      have hw : copyWord ck (wordAddr s k % 4096 / 16) = k := hk
      have hck : copyKey k = ck := by rw [← hw, copyKey_copyWord (by omega)]
      have ha : lineAddr s ck + (k - copyBase) % 256 * 16 = wordAddr s k := by rw [wordAddr, if_neg hb, hck]
      have hlt := inHbm_of_lineHome hl
      rw [hck, keySec_of_home hl (by omega) ha]
      unfold hbmBytes at hlt
      unfold sectionHbm
      omega

/-! ### Reads and stores of such bytes -/

theorem regsBut_readCheck (s : State) {a n : Nat} (h : Placed a n) : RegsBut memoryRegs s (readCheck s a n).1 :=
  regsBut_noteErrors s fun e he => by
    have hs := sel_of_mem_errorsOf he
    simp only [Bool.and_eq_true, beq_iff_eq, decide_eq_true_eq] at hs
    obtain ⟨⟨⟨hk, h1⟩, h2⟩, -⟩ := hs
    exact placeOf_home h hk h1 h2

theorem placed_of_cases {a n : Nat} (h : a + n ≤ hbmBytes ∨
    (loamBase ≤ a ∧ a < loamBase + 8 * loamWindow ∧ (a - loamBase) % loamWindow + n ≤ loamBytes)) : Placed a n := by
  unfold Placed placeSecs inHbm
  by_cases hh : a + n ≤ hbmBytes
  · rw [decide_eq_true hh, if_pos rfl]
    exact Option.some_ne_none _
  · obtain ⟨h1, h2, h3⟩ := h.resolve_left hh
    have hl : loamPlace a n = some ((a - loamBase) / loamWindow, (a - loamBase) % loamWindow) := by
      rw [loamPlace, if_pos ⟨h1, h2⟩]
      exact if_pos h3
    rw [decide_eq_false hh, if_neg Bool.false_ne_true, hl]
    exact Option.some_ne_none _

/-- The whole words about a range lie where the range does. -/
theorem placed_word {a n b : Nat} (h : Placed a n) (h1 : a / 16 * 16 ≤ b / 16 * 16) (h2 : b < a + n) : Placed (b / 16 * 16) 16 := by
  have h := placed_cases h
  refine placed_of_cases ?_
  unfold hbmBytes loamBase loamWindow loamBytes at *
  omega

theorem placed_partWord {a n w : Nat} (h : Placed a n) (hn : 0 < n) (hw : w ∈ partWords a n) : Placed w 16 := by
  unfold partWords at hw
  have hw := List.mem_eraseDups.1 (List.mem_filter.1 hw).1
  rcases List.mem_cons.1 hw with rfl | hw
  · exact placed_word h (Nat.le_refl _) (by omega)
  · rw [List.mem_singleton.1 hw]
    exact placed_word h (by omega) (by omega)

theorem regsBut_foldlFst {rs : List RegName} {α β : Type} (l : List α) (g : State × β → α → State × β)
    (h : ∀ a ∈ l, ∀ r, RegsBut rs r.1 (g r a).1) (r : State × β) : RegsBut rs r.1 (l.foldl g r).1 := by
  induction l generalizing r with
  | nil => exact RegsBut.refl _
  | cons a l ih => exact (h a (.head _) r).trans (ih (fun b hb => h b (.tail _ hb)) _)

theorem lineSec_lt {a n l : Nat} (h : a + n ≤ hbmBytes) (hl : l ∈ linesOf a n) : lineSec l < 64 := by
  unfold linesOf spanOf at hl
  split at hl
  · exact nomatch hl
  · obtain ⟨i, hi, rfl⟩ := List.mem_map.1 hl
    have hi := List.mem_range.1 hi
    unfold lineSec sectionHbm
    unfold hbmBytes at h
    omega

/-- A write from outside passes through the directory without moving a line. -/
theorem regsBut_throughCache (s : State) (a n : Nat) : RegsBut memoryRegs s (throughCache s a n false) := by
  unfold throughCache
  split
  · exact RegsBut.refl s
  next hh =>
    have hin : a + n ≤ hbmBytes := of_decide_eq_true (by simpa [inHbm] using hh)
    refine regsBut_forEach _ _ (fun l hl t => ?_) s
    have hs := lineSec_lt hin hl
    unfold cacheAccess
    dsimp only
    split
    · exact RegsBut.refl t
    · split
      · exact RegsBut.trans (regsBut_of_same rfl) (regsBut_bump _ (f := fLoamCacheStatHits) 1 (by decide) hs (by decide))
      · exact regsBut_bump t (f := fLoamCacheStatMisses) 1 (by decide) hs (by decide)

theorem regsBut_storeBytes (s : State) {a : Nat} {l : List Byte} (h : Placed a l.length) : RegsBut memoryRegs s (storeBytes s a l) := by
  unfold storeBytes
  split
  · exact RegsBut.refl s
  next hne =>
    have hpos : 0 < l.length := List.length_pos_iff.2 (by simpa using hne)
    have h1 := regsBut_throughCache s a l.length
    have h2 := regsBut_foldlFst (rs := memoryRegs) (partWords a l.length) (fun (r : State × List (Nat × Bool)) w =>
        ((readCheck r.1 w 16).1, r.2 ++ (readCheck r.1 w 16).2)) (fun w hw r => regsBut_readCheck r.1 (placed_partWord h hpos hw))
        (throughCache s a l.length false, [])
    dsimp only at h2 ⊢
    generalize (partWords a l.length).foldl _ _ = r at h2 ⊢
    have h3 : RegsBut memoryRegs r.1 (r.2.foldl (fun t e => poisonWord t e.1) (writeBytes r.1 a l)) := by
      refine regsBut_of_same (Eq.trans ?_ (rfl : (writeBytes r.1 a l).regs = r.1.regs))
      generalize writeBytes r.1 a l = t
      generalize r.2 = es
      induction es generalizing t with
      | nil => rfl
      | cons e es ih => exact (ih _).trans rfl
    exact (h1.trans h2).trans h3

/-! ### Records -/

theorem regsBut_writeArg (s : State) (f : Nat) (w : Word) (off : Nat) (l : List Byte) : RegsBut memoryRegs s (writeArg s f w off l) := by
  unfold writeArg
  split
  · exact regsBut_ite (regsBut_of_same rfl) (RegsBut.refl s)
  · split
    next ha =>
      refine regsBut_storeBytes s ?_
      unfold argOk at ha
      split at ha
      · rw [Bool.and_eq_true, Bool.and_eq_true] at ha
        exact placed_of_inPartition ha.1.1
      · exact nomatch ha
    next => exact RegsBut.refl s

theorem regsBut_setQueue {rs : List RegName} (s : State) (q : Nat) (x : Queue) : RegsBut rs s (s.setQueue q x) := regsBut_of_same rfl

theorem regsBut_writeRecord (s : State) (q : Nat) (r : Record) : RegsBut memoryRegs s (writeRecord s q r) := by
  unfold writeRecord
  dsimp only
  split
  · exact RegsBut.refl s
  · exact ((regsBut_writeArg _ _ _ _ _).trans (regsBut_setQueue _ _ _)).trans (Within.regsBut (within_raiseMsix _ _ _ (Within.refl _) (Sub.refl _)))

theorem regsBut_flushRecords (s : State) (q n : Nat) : RegsBut memoryRegs s (flushRecords s q n) := by
  induction n generalizing s with
  | zero => exact RegsBut.refl s
  | succ n ih =>
    unfold flushRecords
    dsimp only
    split
    · split
      · exact (regsBut_setQueue _ _ _).trans (ih _)
      · split
        · exact ((regsBut_setQueue _ _ _).trans (regsBut_writeRecord _ _ _)).trans (ih _)
        · exact RegsBut.refl s
    · exact RegsBut.refl s

/-- A descriptor's record changes no register but those that accesses to memory count in. -/
theorem regsBut_finishEntry (s : State) (q pos : Nat) (r : Record) : RegsBut memoryRegs s (finishEntry s q pos r) :=
  RegsBut.trans (regsBut_of_same rfl) (regsBut_flushRecords _ _ _)

end Sys2Proof.Machine
end

section
/-! ROUTE_DESCRIPTOR, ROUTE_COMPLETE and ROUTE_WATCHDOG (R222 to R241). -/

namespace Sys2Proof.Machine

variable {s t u v : State}

/-! ### Faults of the route engine -/

theorem routeFault_eq (s : State) (sec : Nat) (j : Job) (cause pos : Nat) (p : Bool) :
    ∃ v, routeFault s sec j cause pos p = endFault v 2 sec j cause p ∧ Within 8 s v := by
  unfold routeFault
  dsimp only
  refine ⟨_, rfl, ?_⟩
  split
  · exact Within.refl s
  · exact within_setRaw _ _ _ (Within.refl s) (Sub.refl _)

theorem routeStops_eq (s : State) (sec : Nat) (j : Job) (n : Nat) (l : List Cell) (cause pos : Nat) (p : Bool) :
    ∃ v, routeStops s sec j n l cause pos p = endFault v 2 sec j cause p ∧ Within 1073741848 s v := by
  obtain ⟨x, hx⟩ : ∃ x, x = partialWrites s (l.filter (fun e => writeOk s j.ctx e.1 1)) := ⟨_, rfl⟩
  have hw : Within 1073741848 s (x.freeDraw.2.bump fCoreRouteWordsWords sec 0 (x.freeDraw.1.toNat % (n + 1))) :=
    within_bump _ _ _ _ _ (within_freeDraw _ (hx ▸ within_partialWrites _ _ (Within.refl s) rfl) rfl) rfl
  obtain ⟨v, hv, hvw⟩ := routeFault_eq (x.freeDraw.2.bump fCoreRouteWordsWords sec 0 (x.freeDraw.1.toNat % (n + 1))) sec j cause pos p
  refine ⟨v, Eq.trans ?_ hv, hw.trans hvw rfl rfl⟩
  rw [hx]
  rfl

theorem jobOf_routeFault (s : State) (sec : Nat) (j : Job) (cause pos : Nat) (p : Bool) : jobOf (routeFault s sec j cause pos p) 2 sec = none := by
  obtain ⟨v, hv, -⟩ := routeFault_eq s sec j cause pos p
  rw [hv, (endFault_frame _ _ _ _ _ _).1]

theorem jobOf_routeStops (s : State) (sec : Nat) (j : Job) (n : Nat) (l : List Cell) (cause pos : Nat) (p : Bool) :
    jobOf (routeStops s sec j n l cause pos p) 2 sec = none := by
  obtain ⟨v, hv, -⟩ := routeStops_eq s sec j n l cause pos p
  rw [hv, (endFault_frame _ _ _ _ _ _).1]

theorem jobOf_routeIssued (s : State) (sec : Nat) (j : Job) : jobOf (routeIssued s sec j) 2 sec = none := jobOf_modEngine _ _ _ _

/-- A command that stops a route descriptor in a fault. -/
theorem endsFault_stops {i : Instr} {sec c cause pos n : Nat} {j : Job} {l : List Cell} {p : Bool} (hx : exec i s = .next (routeStops v sec j n l cause pos p))
    (hj : j.ctx = c) (hm : (v.ctx c).mode = (s.ctx c).mode) : EndsFault i s 2 sec c cause := by
  obtain ⟨x, hv, hw⟩ := routeStops_eq v sec j n l cause pos p
  rw [hv] at hx
  exact endsFault_of hx hj (by rw [ctx_same (hw.same .ctxs (by decide)), hm])

/-! ### Taking a descriptor, or dropping it -/

/-- An engine that takes no descriptor holds what it held. -/
theorem jobOf_takeDesc {kind unit : Nat} : (takeDesc s kind unit).2 = none → jobOf (takeDesc s kind unit).1 kind unit = jobOf s kind unit := by
  unfold takeDesc
  dsimp only
  split
  · exact fun _ => rfl
  · split
    · exact fun _ => rfl
    next q _ =>
      split
      · split
        · intro _
          rw [jobOf_same (finishEntry_only _ _ _ _ .engines (by decide)),
            jobOf_same ((within_bumpOpt _ _ _ _ (Within.refl _) (Sub.refl _)).same .engines (by decide)), jobOf_modEngine]
          exact jobOf_same ((within_countArb s kind unit q (Within.refl _) (Sub.refl _)).same .engines (by decide)) kind unit
        · exact fun h => nomatch h
      · exact fun _ => rfl

/-- An idle route engine ends ROUTE_DESCRIPTOR idle. -/
theorem jobOf_routeDescriptor {sec : Nat} (h : jobOf s 2 sec = none) : jobOf (routeDescriptorOp sec s) 2 sec = none := by
  unfold routeDescriptorOp
  split
  next x hx =>
    have hj := jobOf_takeDesc (s := s) (kind := 2) (unit := sec) (by rw [hx])
    rw [hx] at hj
    exact hj.trans h
  next x j hx =>
    dsimp only
    split
    · exact jobOf_routeFault _ _ _ _ _ _
    · split
      · exact jobOf_routeStops _ _ _ _ _ _ _ _
      · exact jobOf_routeStops _ _ _ _ _ _ _ _
      · split
        · exact jobOf_routeStops _ _ _ _ _ _ _ _
        · exact jobOf_routeIssued _ _ _

/-! ### Running a descriptor -/

/-- What a descriptor reads, word by word. -/
def routeList (s : State) (c : Nat) (b : List Byte) : List (Nat × Nat) :=
  (routeReads (s.tensor (s.ctx c).part (rOut b)).desc b (routeRun s c b)).flatMap (fun r => wordReads r.2)

/-- The state past the reads of a descriptor. -/
def routeOver (s : State) (j : Job) : State := readOver (routeGrants s (s.ctx j.ctx).part) (routeList s j.ctx j.bytes)

/-- The cells of a descriptor, those that meet an input as free values. -/
def routeSpoilt (s : State) (j : Job) : State × List Cell :=
  spoilCells (routeOver s j) (rInputs (routeOver s j) (s.tensor (s.ctx j.ctx).part (rSrc j.bytes)).desc (s.tensor (s.ctx j.ctx).part (rOut j.bytes)).desc
    j.bytes ++ (routeRun s j.ctx j.bytes).open_) (routeRun s j.ctx j.bytes).cells

/-- Words that a descriptor touches beside its cells. -/
def routeWords (s : State) (j : Job) : Nat :=
  sumNat ((rInLists (s.tensor (s.ctx j.ctx).part (rOut j.bytes)).desc j.bytes ++ rUpdated j.bytes).map wordsOf) +
    sumNat ((routeRun s j.ctx j.bytes).reads.map (fun r => wordsOf r.2))

/-- The list position that a bad word stops. -/
def routePos (s : State) (j : Job) : Nat :=
  badPos (routeReads (s.tensor (s.ctx j.ctx).part (rOut j.bytes)).desc j.bytes (routeRun s j.ctx j.bytes))
    (((readAll (routeGrants s (s.ctx j.ctx).part) (routeList s j.ctx j.bytes)).2.head?.map (·.1)).getD 0)

/-- What a descriptor that is done leaves. -/
def routeLeft (x : State) (sec n : Nat) (j : Job) (o : RouteOut) (cells : List Cell) : State :=
  routeIssued ((((writeCells x cells).bump fCoreRouteWordsWords sec 0 n).bump fCoreRouteOobAbsent sec 0 o.absent).bump fCoreRouteOobSkippedOob sec 0
    o.skipped) sec { j with phase := .dataDone, poison := !(routePoison x j o).isEmpty, poisonIds := routePoison x j o,
                            deltas := [(rOut j.bytes, o.conv.delta)], nf := o.conv.nf + o.bad }

/-- The end of a descriptor that met neither a bad word nor an index out of range: its cells written, or refused. -/
def routeWritten (x : State × List Cell) (sec n : Nat) (j : Job) (o : RouteOut) : State :=
  let y := statusCells x.1 j.bytes o
  if !cellsOk y.1 j.ctx (x.2 ++ y.2) then routeStops y.1 sec j (n + wordRuns (x.2 ++ y.2)) (x.2 ++ y.2) 0x0E 0 false
  else routeLeft y.1 sec (n + wordRuns (x.2 ++ y.2)) j o (x.2 ++ y.2)

section
variable {sec : Nat} {j : Job} (hk : takeDesc u 2 sec = (v, some j))
include hk

theorem route_bad (hb : routeBad v sec j = true) : routeDescriptorOp sec u = routeFault v sec j 1 0 false := by
  rw [routeDescriptorOp, hk]
  exact if_pos hb

theorem route_runs (hb : routeBad v sec j = false) : routeDescriptorOp sec u =
    match worstOf (readAll (routeGrants v (v.ctx j.ctx).part) (routeList v j.ctx j.bytes)).2, (routeRun v j.ctx j.bytes).fault with
    | some p, _ => routeStops (routeSpoilt v j).1 sec j (routeWords v j + wordRuns (routeSpoilt v j).2) (routeSpoilt v j).2 6 (routePos v j) p
    | none, some (cause, pos) =>
      routeStops (routeSpoilt v j).1 sec j (routeWords v j + wordRuns (routeSpoilt v j).2) (routeSpoilt v j).2 cause pos false
    | none, none => routeWritten (routeSpoilt v j) sec (routeWords v j) j (routeRun v j.ctx j.bytes) := by
  rw [routeDescriptorOp, hk]
  exact if_neg (Bool.eq_false_iff.1 hb)

end

end Sys2Proof.Machine
end

section
/-! O31: the route engine. -/

namespace Sys2Proof.Machine

variable {s t u v : State}

/-! ### Values that are stated -/

/-- Cells that meet no input are written as they are (R237). -/
theorem spoilCells_apart {rs : List (Nat × Nat)} {cells : List Cell} (h : ∀ x ∈ cells, ∀ r ∈ rs, x.1 < r.1 ∨ r.1 + r.2 ≤ x.1) (s : State) :
    spoilCells s rs cells = (s, cells) := by
  have hstep (acc : List Cell) : cells.foldl (fun a e =>
      if rs.any (fun r => decide (r.1 ≤ e.1) && decide (e.1 < r.1 + r.2)) then
        let (w, t) := a.1.freeDraw
        (t, a.2 ++ [(e.1, w.setWidth 8)])
      else (a.1, a.2 ++ [e])) (s, acc) = (s, acc ++ cells) := by
    induction cells generalizing acc with
    | nil => rw [List.append_nil]; rfl
    | cons e l ih =>
      have hn : ¬ rs.any (fun r => decide (r.1 ≤ e.1) && decide (e.1 < r.1 + r.2)) = true := by
        rw [List.any_eq_true]
        rintro ⟨r, hr, hm⟩
        rw [Bool.and_eq_true, decide_eq_true_eq, decide_eq_true_eq] at hm
        have := h e (.head _) r hr
        omega
      rw [List.foldl_cons, if_neg hn, ih (fun x hx => h x (.tail _ hx)), List.append_assoc]
      rfl
  exact (hstep []).trans (by rw [List.nil_append])

/-- The status record of a descriptor whose counts are stated (R234). -/
def statedStatus (b : List Byte) (o : RouteOut) : List Cell :=
  if rStatus b = 0 then [] else cellsAt (rStatus b)
    (leBytes 4 (o.consumed.getD 0) ++ leBytes 4 (o.written.getD 0) ++ leBytes 4 o.dropped ++ leBytes 4 o.skipped)

theorem statusCells_stated {b : List Byte} {o : RouteOut} (h : rStatus b = 0 ∨ ∃ n k, o.consumed = some n ∧ o.written = some k) (s : State) :
    statusCells s b o = (s, statedStatus b o) := by
  unfold statusCells statedStatus
  split
  next => rfl
  next hz =>
    obtain ⟨n, k, hn, hk⟩ := h.resolve_left hz
    rw [hn, hk]
    rfl

/-! ### A descriptor that is taken -/

/-- The inputs that a descriptor's cells must not meet (R237). -/
def routeInputs (s : State) (c : Nat) (b : List Byte) : List (Nat × Nat) :=
  rInputs s (s.tensor (s.ctx c).part (rSrc b)).desc (s.tensor (s.ctx c).part (rOut b)).desc b ++ (routeRun s c b).open_

theorem Sees.rInputs (h : Sees s t) (x y : TensorDesc) (b : List Byte) : rInputs t x y b = rInputs s x y b :=
  h.lift (Machine.rInputs · x y b) fun _ => rfl

theorem Sees.routeList (h : Sees s t) (c : Nat) (b : List Byte) : routeList t c b = routeList s c b := by
  rw [Machine.routeList, Machine.routeList, h.ctx, h.tensor, h.routeRun]

theorem within_routeGrants' (s : State) (p : Nat) : Within 1073741832 s (routeGrants s p) := within_routeGrants _ _ (Within.refl s) (Sub.refl _)

theorem routeOver_frame (s : State) (j : Job) : Sees s (routeOver s j) ∧ Rests s (routeOver s j) ∧ Within 1207963832 s (routeOver s j) := by
  have hg := within_routeGrants' s (s.ctx j.ctx).part
  have hs : Sees s (routeGrants s (s.ctx j.ctx).part) := hg.sees (bytes_of_memory (hg.same .memory (by decide)))
  exact ⟨hs.trans (sees_readOver _ _), hg.rests.trans (rests_readOver _ _), hg.trans (within_readOver _ _) rfl rfl⟩

theorem clean_routeGrants (p : Nat) (l : List (Nat × Nat)) : Clean (routeGrants s p) l ↔ Clean s l := (within_routeGrants' s p).readsAs.clean l

theorem ctx_routeSpoilt (s : State) (j : Job) (c : Nat) : ((routeSpoilt s j).1.ctx c).mode = (s.ctx c).mode := by
  rw [routeSpoilt, ctx_same ((within_spoilCells _ _ _ (Within.refl _) (Sub.refl _)).same .ctxs (by decide)), (routeOver_frame s j).1.ctx]

/-- The cells of a descriptor, as stated. -/
theorem routeSpoilt_stated {j : Job} (h : ∀ x ∈ (routeRun s j.ctx j.bytes).cells, ∀ r ∈ routeInputs s j.ctx j.bytes, x.1 < r.1 ∨ r.1 + r.2 ≤ x.1) :
    routeSpoilt s j = (routeOver s j, (routeRun s j.ctx j.bytes).cells) := by
  rw [routeSpoilt, (routeOver_frame s j).1.rInputs]
  exact spoilCells_apart h _

/-- All that a descriptor writes, where its values are stated. -/
def routeCells (s : State) (c : Nat) (b : List Byte) : List Cell := (routeRun s c b).cells ++ statedStatus b (routeRun s c b)

theorem routeLeft_frame (x : State) (sec n : Nat) (j : Job) (o : RouteOut) (cells : List Cell) :
    CellsWritten x (routeLeft x sec n j o cells) cells ∧ Within 8388632 x (routeLeft x sec n j o cells) ∧
    ((routeLeft x sec n j o cells).engine (engineKey 2 sec)).ending = (x.engine (engineKey 2 sec)).ending ++ [{ j with
      phase := .dataDone, poison := !(routePoison x j o).isEmpty, poisonIds := routePoison x j o, deltas := [(rOut j.bytes, o.conv.delta)],
      nf := o.conv.nf + o.bad }] := by
  have hb : Within 8 (writeCells x cells) ((((writeCells x cells).bump fCoreRouteWordsWords sec 0 n).bump fCoreRouteOobAbsent sec 0 o.absent).bump
      fCoreRouteOobSkippedOob sec 0 o.skipped) := within_bump _ _ _ _ _ (within_bump _ _ _ _ _ (within_bump _ _ _ _ _ (Within.refl _) rfl) rfl) rfl
  have hw : Within 8388616 (writeCells x cells) (routeLeft x sec n j o cells) := by
    unfold routeLeft
    exact hb.trans (within_routeIssued _ _ _ (Within.refl _) (Sub.refl _)) rfl rfl
  refine ⟨(cellsWritten_writeCells x cells).onto (bytes_of_memory (hw.same .memory (by decide))),
    (within_writeCells _ _ (Within.refl x) (Sub.refl _)).trans hw rfl rfl, ?_⟩
  rw [routeLeft, routeIssued, State.modEngine, engine_setEngine]
  rfl

/-- Taking a descriptor leaves those that the engine has issued. -/
theorem ending_taken (s : State) (kind unit q c : Nat) (e : Entry) :
    ((taken s kind unit q c e).engine (engineKey kind unit)).ending = (s.engine (engineKey kind unit)).ending := by
  have hc := within_countArb s kind unit q (Within.refl s) (Sub.refl _)
  rw [taken, putJob, State.modEngine, engine_setEngine]
  dsimp only
  rw [startEntry, State.modQueue, engine_setQueue, engineTurned, State.modEngine, engine_setEngine]
  dsimp only
  rw [engine_same (hc.same .engines (by decide))]

section
variable {sec : Sec} {hits : List Hit} {q c : Nat} {e : Entry} (h : Takes (upsetWords s hits) 2 sec.val q c e)
include h

theorem routeDescriptor_bad (hb : routeBad (upsetWords s hits) sec.val (jobFrom (upsetWords s hits) q c e) = true) :
    EndsFault (.routeDescriptor sec hits) s 2 sec.val c 1 := by
  have hb' : routeBad (taken (upsetWords s hits) 2 sec.val q c e) sec.val (jobFrom (upsetWords s hits) q c e) = true :=
    (taken_lift (routeBad · sec.val (jobFrom (upsetWords s hits) q c e)) fun _ _ _ => rfl).trans hb
  obtain ⟨v, hv, hw⟩ := routeFault_eq (taken (upsetWords s hits) 2 sec.val q c e) sec.val (jobFrom (upsetWords s hits) q c e) 1 0 false
  refine endsFault_of (congrArg Host.Outcome.next ((route_bad (takeDesc_of_takes h) hb').trans hv)) rfl ?_
  rw [ctx_same (hw.same .ctxs (by decide)), (sees_taken _ _ _ _ _ _).ctx, ctx_same (upsetWords_only s hits .ctxs (by decide))]

theorem routeDescriptor_runs (hb : routeBad (upsetWords s hits) sec.val (jobFrom (upsetWords s hits) q c e) = false) :
    let u := upsetWords s hits
    let i := Instr.routeDescriptor sec hits
    let o := routeRun u c e.bytes
    (¬ Clean u (routeList u c e.bytes) → EndsFault i s 2 sec.val c 6) ∧
    (∀ cause pos, Clean u (routeList u c e.bytes) → o.fault = some (cause, pos) → EndsFault i s 2 sec.val c cause) ∧
    (Clean u (routeList u c e.bytes) → o.fault = none →
      (∀ x ∈ o.cells, ∀ r ∈ routeInputs u c e.bytes, x.1 < r.1 ∨ r.1 + r.2 ≤ x.1) →
      (rStatus e.bytes = 0 ∨ ∃ n k, o.consumed = some n ∧ o.written = some k) →
      (cellsOk u c (routeCells u c e.bytes) = false → EndsFault i s 2 sec.val c 0x0E) ∧
      (cellsOk u c (routeCells u c e.bytes) = true → ∃ t, exec i s = .next t ∧ CellsWritten u t (routeCells u c e.bytes) ∧
        (t.engine (engineKey 2 sec.val)).ending = (u.engine (engineKey 2 sec.val)).ending ++ [{ jobFrom u q c e with
          phase := .dataDone, poison := !(routePoison u (jobFrom u q c e) o).isEmpty, poisonIds := routePoison u (jobFrom u q c e) o,
          deltas := [(rOut e.bytes, o.conv.delta)], nf := o.conv.nf + o.bad }] ∧
        (∀ k, k ≠ q → t.queue k = u.queue k) ∧ Only (readAreas ++ [.queues, .engines, .draws]) u t)) := by
  intro u i o
  obtain ⟨tk, htk⟩ : ∃ tk, tk = taken u 2 sec.val q c e := ⟨_, rfl⟩
  have hs : Sees u tk := htk ▸ sees_taken u 2 sec.val q c e
  have hr : Rests u tk := htk ▸ rests_taken u 2 sec.val q c e
  have hwt : Within 8388872 u tk := htk ▸ within_taken u 2 sec.val q c e
  have hb' : routeBad tk sec.val (jobFrom u q c e) = false :=
    htk ▸ (taken_lift (routeBad · sec.val (jobFrom u q c e)) fun _ _ _ => rfl).trans hb
  have hx : exec i s = .next (routeDescriptorOp sec.val u) := rfl
  rw [route_runs (htk ▸ takeDesc_of_takes h) hb'] at hx
  obtain ⟨ho1, ho2, ho3⟩ := routeOver_frame tk (jobFrom u q c e)
  have hrun : routeRun tk (jobFrom u q c e).ctx (jobFrom u q c e).bytes = o := hs.routeRun c e.bytes
  have hlist : routeList tk (jobFrom u q c e).ctx (jobFrom u q c e).bytes = routeList u c e.bytes := hs.routeList c e.bytes
  rw [hrun, hlist] at hx
  have hmode (j : Job) : ((routeSpoilt tk j).1.ctx c).mode = (s.ctx c).mode := by
    rw [ctx_routeSpoilt, hs.ctx, ctx_same (upsetWords_only s hits .ctxs (by decide))]
  have hclean (p : Nat) : Clean (routeGrants tk p) (routeList u c e.bytes) ↔ Clean u (routeList u c e.bytes) :=
    (clean_routeGrants p _).trans (hwt.readsAs.clean _)
  refine ⟨fun hc => ?_, fun cause pos hc hf => ?_, fun hc hf hst hstat => ?_⟩
  · obtain ⟨p, hp⟩ := worstOf_unclean (mt (hclean (tk.ctx (jobFrom u q c e).ctx).part).1 hc)
    rw [hp] at hx
    exact endsFault_stops hx rfl (hmode _)
  · rw [worstOf_clean ((hclean _).2 hc), hf] at hx
    exact endsFault_stops hx rfl (hmode _)
  · rw [worstOf_clean ((hclean _).2 hc), hf] at hx
    have hin : routeInputs tk c e.bytes = routeInputs u c e.bytes := by
      rw [routeInputs, routeInputs, hs.ctx, hs.tensor, hs.tensor, hs.rInputs, hs.routeRun]
    have hsp : routeSpoilt tk (jobFrom u q c e) = (routeOver tk (jobFrom u q c e), o.cells) := by
      rw [routeSpoilt_stated, hrun]
      rw [hrun]
      exact hin ▸ hst
    have hok : cellsOk (routeOver tk (jobFrom u q c e)) c (routeCells u c e.bytes) = cellsOk u c (routeCells u c e.bytes) := by
      rw [ho1.cellsOk ho2, hs.cellsOk hr]
    dsimp only at hx
    rw [hsp] at hx
    unfold routeWritten at hx
    dsimp only at hx
    rw [statusCells_stated (b := (jobFrom u q c e).bytes) hstat] at hx
    have hcells : o.cells ++ statedStatus (jobFrom u q c e).bytes o = routeCells u c e.bytes := rfl
    rw [hcells, show cellsOk (routeOver tk (jobFrom u q c e)) (jobFrom u q c e).ctx (routeCells u c e.bytes) = _ from hok] at hx
    refine ⟨fun hn => ?_, fun hy => ?_⟩
    · rw [hn] at hx
      exact endsFault_stops (hx.trans (congrArg _ (if_pos rfl))) rfl (by
        rw [ho1.ctx, hs.ctx, ctx_same (upsetWords_only s hits .ctxs (by decide))])
    · rw [hy] at hx
      obtain ⟨hcw, hw, hend⟩ := routeLeft_frame (routeOver tk (jobFrom u q c e)) sec.val
        (routeWords tk (jobFrom u q c e) + wordRuns (routeCells u c e.bytes)) (jobFrom u q c e) o (routeCells u c e.bytes)
      refine ⟨_, hx.trans (congrArg _ (if_neg Bool.false_ne_true)), hcw.of_bytes (ho1.bytes.trans hs.bytes), ?_, fun k hk => ?_,
        ((hwt.trans ho3 rfl rfl : Within 1216352696 u _).trans hw rfl rfl : Within 1216352696 u _).only rfl⟩
      · rw [hend, engine_same (ho3.same .engines (by decide)), htk, ending_taken, ← htk, ho1.routePoison, hs.routePoison]
        rfl
      · rw [queue_same (hw.same .queues (by decide)), queue_same (ho3.same .queues (by decide)), htk, queue_taken _ _ _ _ _ _ hk]

end

end Sys2Proof.Machine
end

section
/-! ROUTE_COMPLETE and ROUTE_WATCHDOG (R160, R197, R222, R238, R241), and the statement about the route engine. -/

namespace Sys2Proof.Machine

variable {s t u v : State}

/-! ### Descriptors past their last access -/

/-- The descriptors that an engine has issued, oldest first. -/
def endingOf (s : State) (kind unit : Nat) : List Job := (s.engine (engineKey kind unit)).ending

theorem endingOf_same (h : Area.engines.same s t) (kind unit : Nat) : endingOf t kind unit = endingOf s kind unit := by
  rw [endingOf, endingOf, engine_same h]

theorem endingOf_modEngine (s : State) (kind unit : Nat) (f : Engine → Engine) :
    endingOf (s.modEngine (engineKey kind unit) f) kind unit = (f (s.engine (engineKey kind unit))).ending := by
  rw [endingOf, State.modEngine, engine_setEngine]

theorem endingOf_freeEngine (s : State) (kind unit : Nat) : endingOf (freeEngine s kind unit) kind unit = endingOf s kind unit :=
  endingOf_modEngine _ _ _ _

theorem endingOf_endFault (s : State) (kind unit : Nat) (j : Job) (cause : Nat) (p : Bool) :
    endingOf (endFault s kind unit j cause p) kind unit = endingOf s kind unit := by
  rw [endFault, endingOf_same ((within_ctxFault _ _ _ _ _ _ (Within.refl _) (Sub.refl _)).same .engines (by decide)),
    endingOf_same (finishEntry_only _ _ _ _ .engines (by decide)), endingOf_modEngine]
  exact endingOf_freeEngine s kind unit

theorem endingOf_endCounted (s : State) (kind unit : Nat) (j : Job) {count : State → State} (hc : ∀ t, Area.engines.same t (count t)) :
    endingOf (endCounted s kind unit j count) kind unit = endingOf s kind unit := by
  have hs (t : State) : endingOf (signalAll t j.bytes).1 kind unit = endingOf t kind unit :=
    endingOf_same ((within_signalAll t j.bytes (Within.refl t) (Sub.refl _)).same .engines (by decide)) kind unit
  unfold endCounted
  dsimp only
  split
  · rw [endingOf_endFault, hs, endingOf_freeEngine]
  · rw [endingOf_same (finishEntry_only _ _ _ _ .engines (by decide)), endingOf_same (hc _), hs, endingOf_freeEngine]

/-! ### The end of the oldest -/

/-- The state in which the oldest descriptor signals. -/
def routeMarked (s : State) (sec : Nat) (j : Job) : State := countedMarked (routePast s sec) j

theorem within_routePast' (s : State) (sec : Nat) : Within 8388608 s (routePast s sec) := within_routePast _ _ (Within.refl s) (Sub.refl _)

theorem within_routeMarked (s : State) (sec : Nat) (j : Job) : Within 8462336 s (routeMarked s sec j) :=
  (within_routePast' s sec).trans (within_countedMarked _ j) rfl rfl

section
variable {sec : Nat} {j : Job} {rest : List Job} (hj : endingOf s 2 sec = j :: rest)
include hj

theorem endingOf_routePast : endingOf (routePast s sec) 2 sec = rest := by
  rw [routePast, endingOf_modEngine, ← endingOf, hj]
  rfl

theorem routeEnd_eq : routeEnd s sec = endCounted (routeMarked s sec j) 2 sec j (fun t => t.bump fCoreRouteDescCompleted sec 0 1) := by
  have hj' : (s.engine (engineKey 2 sec)).ending = j :: rest := hj
  rw [routeEnd, hj']
  rfl

theorem endingOf_routeEnd : endingOf (routeEnd s sec) 2 sec = rest := by
  rw [routeEnd_eq hj, endingOf_endCounted _ _ _ _ (fun t => (within_bump _ _ _ _ _ (Within.refl t) (Sub.refl _)).same .engines (by decide)),
    routeMarked, endingOf_same ((within_countedMarked _ _).same .engines (by decide)), endingOf_routePast hj]

/-- The oldest descriptor ends done: its signals, its count, its marks. -/
theorem routeEnd_done (hsec : sec < 8) (hs : SignalsTake s j.bytes) :
    Signalled s (routeEnd s sec) j.bytes ∧ Counted s (routeEnd s sec) fCoreRouteDescCompleted sec 0 1 ∧
    (∀ id ∈ j.poisonIds, (s.tensor (s.ctx j.ctx).part id).present = true → ((routeEnd s sec).tensor (s.ctx j.ctx).part id).desc.poisoned = true) ∧
    ((routeEnd s sec).ctx j.ctx).nf = min ((s.ctx j.ctx).nf + j.nf) (2 ^ 32 - 1) ∧ (∀ k, k ≠ j.ctx → (routeEnd s sec).ctx k = s.ctx k) ∧
    Only (storeAreas ++ [.engines, .queues, .out, .tallies, .ctxs, .tensors]) s (routeEnd s sec) := by
  have hm := within_routeMarked s sec j
  have htake : SignalsTake (routeMarked s sec j) j.bytes := hs.kept (hm.same .tallies (by decide)) fun c => marks_countedMarked (routePast s sec) j c
  obtain ⟨w, ⟨hw, -⟩, hsig, -, hend⟩ := endCounted_takes (kind := 2) (unit := sec) htake
  have hb : Within 8 w (w.bump fCoreRouteDescCompleted sec 0 1) := within_bump _ _ _ _ _ (Within.refl w) (Sub.refl _)
  have hmb : Within 8409096 (routeMarked s sec j) (w.bump fCoreRouteDescCompleted sec 0 1) := hw.trans hb rfl rfl
  rw [routeEnd_eq hj, hend]
  have hf := finishEntry_only (w.bump fCoreRouteDescCompleted sec 0 1) j.queue j.pos (jobRecord (w.bump fCoreRouteDescCompleted sec 0 1) j 0 0)
  have hreg := regsBut_finishEntry (w.bump fCoreRouteDescCompleted sec 0 1) j.queue j.pos (jobRecord (w.bump fCoreRouteDescCompleted sec 0 1) j 0 0)
  have hctx (k : Nat) := (ctx_same (hf .ctxs (by decide)) k).trans (ctx_same (hmb.same .ctxs (by decide)) k)
  have hcount : Counted s (w.bump fCoreRouteDescCompleted sec 0 1) fCoreRouteDescCompleted sec 0 1 := by
    rw [Counted, ← fld_congr (hm.same .registers (by decide)), ← fld_congr (hw.same .registers (by decide))]
    exact fld_bump_same w fCoreRouteDescCompleted sec 0 1 (by decide) (by decide)
  refine ⟨fun k => ?_, hcount.kept (hreg.fld (f := fCoreRouteDescCompleted) (by decide) (by omega) (by decide)), fun id hid hp => ?_, ?_, fun k hk => ?_,
    ((hm.trans hmb rfl rfl : Within 8482824 s _).only rfl : Only [.registers, .parts, .ctxs, .tallies, .tensors, .engines] s _).trans hf
      (by decide) (by decide)⟩
  · rw [tally_same (hf .tallies (by decide)), tally_same (hb.same .tallies (by decide)), hsig k, tally_same (hm.same .tallies (by decide))]
  · rw [tensor_same (hf .tensors (by decide)), tensor_same (hmb.same .tensors (by decide))]
    exact poisoned_countedMarked (s := routePast s sec) hid hp
  · rw [hctx]
    exact nf_countedMarked (routePast s sec) j
  · rw [hctx]
    exact (ctx_countedMarked (routePast s sec) j).2 k hk

end

section
variable {sec : Sec} {j : Job} {rest : List Job} (hj : endingOf s 2 sec.val = j :: rest) (hh : unitHeld s 2 sec.val = false)
include hj hh

theorem exec_routeWatchdog : ∃ t, exec (.routeWatchdog sec) s = .next t ∧ endingOf t 2 sec.val = rest ∧
    ((s.ctx j.ctx).mode = .active → Faulted t j.ctx 9) := by
  have hj' : (s.engine (engineKey 2 sec.val)).ending = j :: rest := hj
  obtain ⟨x, hx⟩ : ∃ x, x = healthEvent (s.setFld fCoreRouteStatusWdogFired sec.val 0 1) (huSection sec.val) 5 10 := ⟨_, rfl⟩
  have hwx : Within 134217864 s x := hx ▸ within_healthEvent _ _ _ _ (within_setFld _ _ _ _ _ (Within.refl s) rfl) rfl
  have he : exec (.routeWatchdog sec) s = .next (routeFault (routePast x sec.val).freeDraw.2 sec.val j 9
      ((routePast x sec.val).freeDraw.1.toNat % 2 ^ 32) false) := by
    change execRouteWatchdog sec s = _
    rw [execRouteWatchdog, hj', hx]
    exact congrArg Host.Outcome.next (if_neg (Bool.eq_false_iff.1 hh))
  obtain ⟨v, hv, hw⟩ := routeFault_eq (routePast x sec.val).freeDraw.2 sec.val j 9 ((routePast x sec.val).freeDraw.1.toNat % 2 ^ 32) false
  have hd : Within 1073741824 (routePast x sec.val) (routePast x sec.val).freeDraw.2 := within_freeDraw _ (Within.refl _) (Sub.refl _)
  rw [hv] at he
  refine ⟨_, he, ?_, fun ha => (endFault_frame _ _ _ _ _ _).2 ?_⟩
  · rw [endingOf_endFault, endingOf_same (hw.same .engines (by decide)), endingOf_same (hd.same .engines (by decide))]
    exact endingOf_routePast ((endingOf_same (hwx.same .engines (by decide)) _ _).trans hj)
  · rw [ctx_same (hw.same .ctxs (by decide)), ctx_same (hd.same .ctxs (by decide)), ctx_same ((within_routePast' _ _).same .ctxs (by decide)),
      ctx_same (hwx.same .ctxs (by decide)), ha]

end

/-- A route engine with nothing to end, or a held one, stands still. -/
theorem route_idle (sec : Sec) (h : endingOf s 2 sec.val = [] ∨ unitHeld s 2 sec.val = true) :
    exec (.routeComplete sec) s = .next s ∧ exec (.routeWatchdog sec) s = .next s := by
  change execRouteComplete sec s = _ ∧ execRouteWatchdog sec s = _
  unfold execRouteComplete execRouteWatchdog
  refine ⟨congrArg _ ?_, congrArg _ ?_⟩
  · split
    next => rfl
    next hn =>
      have he : (s.engine (engineKey 2 sec.val)).ending = [] := h.resolve_right hn
      rw [routeEnd, he]
  · split
    next j l hj =>
      exact if_pos (h.resolve_left (by rw [endingOf, hj]; exact nofun))
    next => rfl

/-- Settles O31: what a descriptor writes rests on what the engine sees, which its reads leave; the oldest one issued counts and marks before it
signals. -/
theorem routeEngine : Obligations.RouteEngine := by
  unfold Obligations.RouteEngine
  refine ⟨fun sec hits s h => ?idle, fun sec hits s q c e => ?take, fun sec s j rest hj hh => ?ends, fun sec s h => route_idle sec h⟩
  case idle =>
    exact ⟨_, rfl, jobOf_routeDescriptor ((jobOf_same (upsetWords_only s hits .engines (by decide)) _ _).trans h)⟩
  case take =>
    intro u i j b o src out reads cells stated h
    refine ⟨routeDescriptor_bad h, fun hb => ?_⟩
    obtain ⟨h1, h2, h3⟩ := routeDescriptor_runs h hb
    exact ⟨h1, h2, fun hc hf hst => (h3 hc hf hst.1 hst.2).1, fun hc hf hst => (h3 hc hf hst.1 hst.2).2⟩
  case ends =>
    have hx : exec (.routeComplete sec) s = .next (routeEnd s sec.val) := congrArg Host.Outcome.next (if_neg (Bool.eq_false_iff.1 hh))
    exact ⟨⟨_, hx, endingOf_routeEnd hj⟩, fun hs => ⟨_, hx, endingOf_routeEnd hj, routeEnd_done hj sec.isLt hs⟩, exec_routeWatchdog hj hh⟩

end Sys2Proof.Machine
end

section
/-! What a read of memory leaves of the states of the links: the words that it counts lie in registers of other numbers (R56, R285). -/

namespace Sys2Proof.Machine

variable {s t u : State}

/-- Every link is in the state it was in. -/
def LinkStates (s t : State) : Prop := ∀ l, l < 64 → linkState t l = linkState s l

theorem LinkStates.refl (s : State) : LinkStates s s := fun _ _ => rfl

theorem LinkStates.trans (h : LinkStates s t) (g : LinkStates t u) : LinkStates s u := fun l hl => (g l hl).trans (h l hl)

theorem linkStates_of_same (h : Area.registers.same s t) : LinkStates s t :=
  fun l _ => congrArg (getBits · fLnkStatusState.hi fLnkStatusState.lo) (raw_congr h ⟨.lnkStatus, l / 8, l % 8⟩)

theorem RegsBut.linkStates {rs : List RegName} (h : RegsBut rs s t) (hs : RegName.lnkStatus ∉ rs) : LinkStates s t := fun _ hl => h.linkState hl hs

theorem linkStates_setRaw (s : State) {a : RegAt} (w : Word) (h : ∀ l, l < 64 → regKey a ≠ regKey ⟨.lnkStatus, l / 8, l % 8⟩) :
    LinkStates s (s.setRaw a w) :=
  fun l hl => congrArg (getBits · fLnkStatusState.hi fLnkStatusState.lo) (raw_setRaw_key s w (h l hl))

theorem linkStates_ite {c : Prop} [Decidable c] {a b : State} (ha : LinkStates s a) (hb : LinkStates s b) : LinkStates s (if c then a else b) := by
  split <;> assumption

theorem linkStates_forEach {α : Type} (l : List α) (g : α → State → State) (h : ∀ a ∈ l, ∀ t, LinkStates t (g a t)) (s : State) :
    LinkStates s (forEach l s g) := by
  unfold forEach
  induction l generalizing s with
  | nil => exact LinkStates.refl s
  | cons a l ih => exact (h a (.head _) s).trans (ih (fun b hb => h b (.tail _ hb)) (g a s))

/-- A register that comes before those of the links' states. -/
theorem regKey_before {r : RegName} {i j l : Nat} (h : r.num * 64 + i < 3264) (hj : j < 1024) : regKey ⟨r, i, j⟩ ≠ regKey ⟨.lnkStatus, l / 8, l % 8⟩ := by
  have hn : RegName.lnkStatus.num = 51 := rfl
  simp only [regKey]
  omega

/-- A register that comes after those of the links' states. -/
theorem regKey_behind {r : RegName} {i j l : Nat} (h : 3272 ≤ r.num * 64 + i) (hl : l < 64) : regKey ⟨r, i, j⟩ ≠ regKey ⟨.lnkStatus, l / 8, l % 8⟩ := by
  have hn : RegName.lnkStatus.num = 51 := rfl
  simp only [regKey]
  omega

theorem linkStates_healthEvent (s : State) (v row pts : Nat) : LinkStates s (healthEvent s v row pts) := by
  have hb (x : Health) : LinkStates s ((s.setHealth v x).bump fHltUnitEvents 0 v 1) :=
    LinkStates.trans (linkStates_of_same rfl) (linkStates_setRaw _ _ fun l hl => regKey_behind (by decide) hl)
  unfold healthEvent
  dsimp only
  exact linkStates_ite ((hb _).trans ((regsBut_postHealth (rs := [.mbxOutStatus]) _ _ (by decide)).linkStates (by decide))) (hb _)

/-! ### Words counted -/

/-- A section number whose counts of Loam words are not a link's state. -/
def FarSec (n : Nat) : Prop := n < 3072 ∨ 3080 ≤ n ∧ n < 3200 ∨ 3208 ≤ n

theorem FarSec.place {r : RegName} {n l : Nat} (h : FarSec n) (hr : r.num = 1 ∨ r.num = 3) (hl : l < 64) :
    regKey ⟨r, n, 0⟩ ≠ regKey ⟨.lnkStatus, l / 8, l % 8⟩ := by
  by_cases hb : r.num * 64 + n < 3264
  · exact regKey_before hb (by decide)
  · exact regKey_behind (by unfold FarSec at h; omega) hl

theorem linkStates_noteLoam (s : State) {n : Nat} (off : Nat) (e : WordError) (h : FarSec n) : LinkStates s (noteLoam s n off e) := by
  have hc (f : RField) (hf : f.reg = .loamEccCount) : LinkStates s (s.bump f n 0 1) :=
    linkStates_setRaw s _ fun l hl => h.place (.inl (by rw [hf]; rfl)) hl
  have hr (t : State) (w : Word) : LinkStates t (t.setRaw ⟨.loamEccLast, n, 0⟩ w) := linkStates_setRaw t w fun l hl => h.place (.inr rfl) hl
  cases e
  all_goals unfold noteLoam; dsimp only
  · exact ((hc fLoamEccCountCorr rfl).trans (hr _ _)).trans (linkStates_healthEvent _ _ _ _)
  · exact ((hc fLoamEccCountUncorr rfl).trans (hr _ _)).trans (linkStates_healthEvent _ _ _ _)
  · exact (hc fLoamEccCountPoisoned rfl).trans (hr _ _)

theorem linkStates_noteHbm (s : State) {g : Nat} (off : Nat) (e : WordError) (h : g / 3 < 2870) : LinkStates s (noteHbm s g off e) := by
  have hc (f : RField) (hf : f.reg = .hbmEccCount) : LinkStates s (s.bump f (g / 3) (g % 3) 1) := by
    have hn : RegName.hbmEccCount.num = 2 := rfl
    exact linkStates_setRaw s _ fun l _ => regKey_before (by rw [hf]; omega) (by omega)
  have hr (t : State) (w : Word) : LinkStates t (t.setRaw ⟨.hbmEccLast, g / 3, g % 3⟩ w) := by
    have hn : RegName.hbmEccLast.num = 4 := rfl
    exact linkStates_setRaw t w fun l _ => regKey_before (by omega) (by omega)
  cases e
  all_goals unfold noteHbm; dsimp only
  · exact ((hc fHbmEccCountCorr rfl).trans (hr _ _)).trans (linkStates_healthEvent _ _ _ _)
  · exact ((hc fHbmEccCountUncorr rfl).trans (hr _ _)).trans (linkStates_healthEvent _ _ _ _)
  · exact (hc fHbmEccCountPoisoned rfl).trans (hr _ _)

/-- A word whose counts are not a link's state. -/
def FarWord (k : Nat) : Prop := copyBase ≤ k → FarSec (keySec (copyKey k))

theorem loamPlace_sec {a n sec off : Nat} (h : loamPlace a n = some (sec, off)) : sec < 8 := by
  unfold loamPlace at h
  dsimp only at h
  split at h
  next hw =>
    split at h
    · obtain ⟨rfl, -⟩ := Prod.mk.inj (Option.some.inj h)
      unfold loamBase loamWindow at *
      omega
    · exact nomatch h
  · exact nomatch h

/-- Where such a word lies. -/
theorem placeOf_far {k : Nat} (s : State) (h : FarWord k) : (∀ sec off, placeOf s k = .loam sec off → FarSec sec) ∧ ∀ g off, placeOf s k = .hbm g off → g / 3 < 2870 := by
  by_cases hk : copyBase ≤ k
  · rw [placeOf, if_pos hk]
    refine ⟨fun sec off e => ?_, fun g off e => nomatch e⟩
    rw [← (WordPlace.loam.inj e).1]
    exact h hk
  · rw [placeOf, if_neg hk]
    cases hl : loamPlace (16 * k) 1 with
    | none =>
      refine ⟨fun sec off e => (nomatch e), fun g off e => ?_⟩
      rw [← (WordPlace.hbm.inj e).1]
      unfold copyBase at hk
      unfold stackOf stackBytes
      omega
    | some p =>
      refine ⟨fun sec off e => ?_, fun g off e => nomatch e⟩
      rw [← (WordPlace.loam.inj e).1]
      exact .inl (Nat.lt_trans (loamPlace_sec hl) (by decide))

theorem linkStates_addCause (s : State) (p f k : Nat) (len : Option Nat) : LinkStates s (addCause s p f k len) :=
  linkStates_of_same ((within_addCause s p f k len (Within.refl s) (Sub.refl _)).same .registers (by decide))

theorem linkStates_noteKey (s : State) {k : Nat} (e : WordError) (h : FarWord k) : LinkStates s (noteKey s k e) := by
  obtain ⟨h1, h2⟩ := placeOf_far s h
  unfold noteKey
  cases hp : placeOf s k with
  | loam sec off =>
    have hn := linkStates_noteLoam s off e (h1 sec off hp)
    cases e with
    | corrected y =>
      dsimp only
      split
      · exact hn.trans (LinkStates.trans (linkStates_of_same rfl) (linkStates_addCause _ _ _ _ _))
      · exact hn.trans (linkStates_of_same rfl)
    | uncorrectable => exact hn
    | poisoned => exact hn
  | hbm g off =>
    have hn := linkStates_noteHbm s off e (h2 g off hp)
    cases e with
    | corrected y =>
      dsimp only
      split
      · exact hn.trans (LinkStates.trans (linkStates_of_same rfl) (linkStates_addCause _ _ _ _ _))
      · exact hn.trans (linkStates_of_same rfl)
    | uncorrectable => exact hn
    | poisoned => exact hn

theorem linkStates_noteErrors (s : State) {l : List (Nat × Nat × WordError)} (h : ∀ e ∈ l, FarWord e.2.1) : LinkStates s (noteErrors s l) := by
  induction l generalizing s with
  | nil => exact LinkStates.refl s
  | cons e l ih => exact (linkStates_noteKey s e.2.2 (h e (.head _))).trans (ih _ fun f hf => h f (.tail _ hf))

/-! ### Reads -/

/-- A word that an access below the numbers of copies meets at its address. -/
theorem farWord_of_home {a n k : Nat} (hn : a + n ≤ 2 ^ 48) (hk : homeWord s (wordAddr s k) = k) (h2 : wordAddr s k < a + n) : FarWord k := by
  intro hb
  cases hl : lineHome s (wordAddr s k) with
  | none =>
    rw [homeWord, hl] at hk
    have hw : wordAddr s k / 16 = k := hk
    unfold copyBase at hb
    omega
  | some ck =>
    rw [homeWord, hl] at hk
    have hw : copyWord ck (wordAddr s k % 4096 / 16) = k := hk
    have hck : copyKey k = ck := by rw [← hw, copyKey_copyWord (by omega)]
    have ha : lineAddr s ck + (k - copyBase) % 256 * 16 = wordAddr s k := by rw [wordAddr, if_neg (Nat.not_lt.2 hb), hck]
    have hlt := inHbm_of_lineHome hl
    rw [hck, keySec_of_home hl (by omega) ha]
    refine .inl ?_
    unfold hbmBytes at hlt
    unfold sectionHbm
    omega

theorem linkStates_readCheck (s : State) {a n : Nat} (h : a + n ≤ 2 ^ 48) : LinkStates s (readCheck s a n).1 :=
  linkStates_noteErrors s fun e he => by
    have hs := sel_of_mem_errorsOf he
    simp only [Bool.and_eq_true, beq_iff_eq, decide_eq_true_eq] at hs
    obtain ⟨⟨⟨hk, -⟩, h2⟩, -⟩ := hs
    exact farWord_of_home h hk h2

theorem keySec_cacheKey {sec set way : Nat} (h : way < 16) : keySec (cacheKey sec set way) = sec + set / 16384 := by
  unfold keySec cacheKey
  omega

/-- The words of HBM that fill a line: those whose numbers are copies' lie far from the links. -/
theorem farWord_fill {sec set line m k : Nat} (hsec : sec < 8) (hline : line < 46875000) (hset : set = line % m)
    (h1 : ((sec + set / 16384) * sectionHbm + line * 4096) / 16 ≤ k) (h2 : k < ((sec + set / 16384) * sectionHbm + line * 4096) / 16 + 256) : FarWord k := by
  intro hb
  have hcase : set = line ∨ 2 * set < line := by
    by_cases hm : line < m
    · exact .inl (hset.trans (Nat.mod_eq_of_lt hm))
    · by_cases h0 : m = 0
      · exact .inl (by rw [hset, h0, Nat.mod_zero])
      · have hd := Nat.div_add_mod line m
        have hq : 1 ≤ line / m := (Nat.one_le_div_iff (Nat.pos_of_ne_zero h0)).2 (Nat.not_lt.1 hm)
        have hlt := Nat.mod_lt line (Nat.pos_of_ne_zero h0)
        have hmul : m * 1 ≤ m * (line / m) := Nat.mul_le_mul_left m hq
        exact .inr (by omega)
  unfold FarSec keySec copyKey
  unfold copyBase at *
  unfold sectionHbm at h1 h2
  rcases hcase with rfl | hcase
  · clear hset
    omega
  · omega

/-! ### The directory -/

theorem linkStates_bump_low (s : State) {f : RField} {i j : Nat} (n : Nat) (h : f.reg.num ≤ 6) (hi : i < 2870) (hj : j < 1024) : LinkStates s (s.bump f i j n) :=
  linkStates_setRaw s _ fun l _ => regKey_before (by omega) hj

theorem linkStates_foldl {α : Type} (l : List α) (g : State → α → State) (h : ∀ t a, LinkStates t (g t a)) (s : State) : LinkStates s (l.foldl g s) := by
  induction l generalizing s with
  | nil => exact LinkStates.refl s
  | cons a l ih => exact (h s a).trans (ih _)

theorem linkStates_poisonKeys (l : List (Nat × Bool)) (g : Nat → Nat) (s : State) : LinkStates s (l.foldl (fun u e => poisonKey u (g e.1)) s) :=
  linkStates_foldl l (fun u e => poisonKey u (g e.1)) (fun _ _ => linkStates_of_same rfl) s

theorem linkStates_writeBackLine (s : State) {ck : Nat} (h : keySec ck < 2870) : LinkStates s (writeBackLine s ck) := by
  unfold writeBackLine
  dsimp only
  refine LinkStates.trans ?_ (linkStates_bump_low _ (f := fLoamCacheWbWritebacks) 1 (by decide) h (by decide))
  refine LinkStates.trans ?_ (linkStates_poisonKeys _ (· / 16) _)
  refine LinkStates.trans (linkStates_noteErrors s fun e he => ?_) (linkStates_of_same rfl)
  intro _
  have hs := sel_of_mem_errorsOf he
  simp only [Bool.and_eq_true, beq_iff_eq, decide_eq_true_eq] at hs
  rw [hs.2]
  exact .inl (Nat.lt_trans h (by decide))

theorem linkStates_evictLine (s : State) {ck : Nat} (h : keySec ck < 2870) : LinkStates s (evictLine s ck) := by
  unfold evictLine
  dsimp only
  generalize tabGet ({} : CacheLine) s.mem.cache ck = c
  have hw : LinkStates s (if (c.valid && c.dirty) = true then writeBackLine s ck else s) := linkStates_ite (linkStates_writeBackLine s h) (LinkStates.refl s)
  generalize (if (c.valid && c.dirty) = true then writeBackLine s ck else s) = t at hw
  exact hw.trans (linkStates_of_same rfl)

theorem linkStates_fillLine (s : State) {ck : Nat} (h : keySec ck < 2870)
    (hf : ∀ k, lineAddr s ck / 16 ≤ k → k < lineAddr s ck / 16 + 256 → FarWord k) : LinkStates s (fillLine s ck).1 := by
  unfold fillLine
  dsimp only
  refine LinkStates.trans ?_ (linkStates_poisonKeys _ (fun a => copyWord ck (a % 4096 / 16)) _)
  refine LinkStates.trans (linkStates_noteErrors s fun e he => ?_) (linkStates_bump_low _ (f := fLoamCacheWbFills) 1 (by decide) h (by decide))
  have hs := sel_of_mem_errorsOf he
  simp only [Bool.and_eq_true, decide_eq_true_eq] at hs
  exact hf _ hs.1 hs.2

theorem cacheVictim_lt (s : State) (sec set : Nat) : (cacheVictim s sec set).2 < 16 := by
  unfold cacheVictim
  dsimp only
  split
  next w hw => exact List.mem_range.1 (List.mem_of_find?_eq_some hw)
  · generalize hr : List.find? _ (upTo 16) = r
    cases r with
    | none => exact (by decide : (0 : Nat) < 16)
    | some w => exact List.mem_range.1 (List.mem_of_find?_eq_some hr)

theorem linkStates_cacheVictim (s : State) (sec set : Nat) : LinkStates s (cacheVictim s sec set).1 := by
  unfold cacheVictim
  dsimp only
  generalize (upTo 16).find? _ = r
  cases r with
  | some w => exact LinkStates.refl s
  | none =>
    dsimp only
    generalize (upTo 16).map _ = ways
    exact linkStates_forEach (upTo 16) (fun w t => setCacheLine t sec set w { ways.getD w {} with rrpv := _ }) (fun _ _ _ => linkStates_of_same rfl) s

/-- A line that a miss places in a directory. -/
def lineIn (s : State) (sec set way line : Nat) (use : CacheUse) : State :=
  setCacheLine (evictLine s (cacheKey sec set way)) sec set way { valid := true, line := line, dirty := use != .read, rrpv := 2 }

theorem cacheAccess_hit {sec u line w : Nat} {use : CacheUse} (hu : u ≠ 0) (h : cacheFind s sec (line % (256 * u)) line = some w) :
    ∃ t, Area.registers.same s t ∧ (cacheAccess s sec u line use).1 = t.bump fLoamCacheStatHits sec 0 1 := by
  rw [cacheAccess, if_neg hu]
  dsimp only
  rw [h]
  refine ⟨_, ?_, rfl⟩
  rfl

theorem cacheAccess_miss {sec u line : Nat} {use : CacheUse} (hu : u ≠ 0) (h : cacheFind s sec (line % (256 * u)) line = none) :
    let m := s.bump fLoamCacheStatMisses sec 0 1
    let v := cacheVictim m sec (line % (256 * u))
    (cacheAccess s sec u line use).1 = m ∨ (cacheAccess s sec u line use).1 = lineIn v.1 sec (line % (256 * u)) v.2 line use ∨
    (cacheAccess s sec u line use).1 = (fillLine (lineIn v.1 sec (line % (256 * u)) v.2 line use) (cacheKey sec (line % (256 * u)) v.2)).1 := by
  intro m v
  rw [cacheAccess, if_neg hu]
  dsimp only
  rw [h]
  by_cases h1 : use = .outsideWrite
  · exact .inl (congrArg Prod.fst (if_pos h1))
  · by_cases h2 : use = .engineWhole
    · exact .inr (.inl (congrArg Prod.fst ((if_neg h1).trans (if_pos h2))))
    · exact .inr (.inr (congrArg Prod.fst ((if_neg h1).trans (if_neg h2))))

theorem lineAddr_lineIn (s : State) {sec set way line : Nat} (use : CacheUse) (h : way < 16) :
    lineAddr (lineIn s sec set way line use) (cacheKey sec set way) = (sec + set / 16384) * sectionHbm + line * 4096 := by
  rw [lineAddr, keySec_cacheKey h]
  unfold lineIn setCacheLine
  dsimp only
  rw [tabGet_tabSet_same]

theorem linkStates_lineIn (s : State) {sec set way line : Nat} (use : CacheUse) (h : keySec (cacheKey sec set way) < 2870) :
    LinkStates s (lineIn s sec set way line use) := (linkStates_evictLine s h).trans (linkStates_of_same rfl)

theorem linkStates_cacheAccess (s : State) {sec line : Nat} (u : Nat) (use : CacheUse) (hs : sec < 8) (hl : line < 46875000) :
    LinkStates s (cacheAccess s sec u line use).1 := by
  have hsec : sec < 2870 := Nat.lt_trans hs (by decide)
  by_cases hu : u = 0
  · rw [cacheAccess, if_pos hu]
    exact LinkStates.refl s
  · cases hf : cacheFind s sec (line % (256 * u)) line with
    | some w =>
      obtain ⟨t, ht, hx⟩ := cacheAccess_hit (use := use) hu hf
      rw [hx]
      exact (linkStates_of_same ht).trans (linkStates_bump_low t (f := fLoamCacheStatHits) 1 (by decide) hsec (by decide))
    | none =>
      have hm := linkStates_bump_low s (f := fLoamCacheStatMisses) (i := sec) (j := 0) 1 (by decide) hsec (by decide)
      have hx := cacheAccess_miss (use := use) hu hf
      dsimp only at hx
      generalize s.bump fLoamCacheStatMisses sec 0 1 = m at hm hx
      have hw := cacheVictim_lt m sec (line % (256 * u))
      have hv := hm.trans (linkStates_cacheVictim m sec (line % (256 * u)))
      generalize cacheVictim m sec (line % (256 * u)) = v at hw hv hx
      have hset : line % (256 * u) ≤ line := Nat.mod_le _ _
      have hk : keySec (cacheKey sec (line % (256 * u)) v.2) < 2870 := by
        rw [keySec_cacheKey hw]
        omega
      have hin := hv.trans (linkStates_lineIn v.1 (line := line) use hk)
      rcases hx with hx | hx | hx
      · rw [hx]
        exact hm
      · rw [hx]
        exact hin
      · rw [hx]
        refine hin.trans (linkStates_fillLine _ hk ?_)
        rw [lineAddr_lineIn v.1 use hw]
        exact fun k h1 h2 => farWord_fill hs hl rfl h1 h2

/-- The section and number of a line of HBM. -/
theorem line_lt {a n l : Nat} (h : inHbm a n = true) (hl : l ∈ linesOf a n) : lineSec l < 8 ∧ lineNum l < 46875000 := by
  have hin : a + n ≤ hbmBytes := of_decide_eq_true (by simpa [inHbm] using h)
  unfold linesOf spanOf at hl
  split at hl
  · exact nomatch hl
  · obtain ⟨i, hi, rfl⟩ := List.mem_map.1 hl
    have hi := List.mem_range.1 hi
    unfold lineNum lineSec sectionHbm
    unfold hbmBytes at hin
    omega

theorem linkStates_readLine (s : State) {a n l : Nat} (h : inHbm a n = true) (hl : l ∈ linesOf a n) : LinkStates s (readLine s a n l).1 := by
  have hin : a + n ≤ hbmBytes := of_decide_eq_true (by simpa [inHbm] using h)
  obtain ⟨h1, h2⟩ := line_lt h hl
  have hc := linkStates_cacheAccess s (secUnits s (lineSec l)) .read h1 h2
  unfold readLine
  dsimp only
  split
  · refine hc.trans (linkStates_readCheck _ ?_)
    unfold hbmBytes at hin
    unfold linesOf spanOf at hl
    split at hl
    · exact nomatch hl
    · obtain ⟨i, hi, rfl⟩ := List.mem_map.1 hl
      have hi := List.mem_range.1 hi
      omega
  · exact hc

theorem linkStates_foldlFst {α β : Type} (l : List α) (g : State × β → α → State × β) (h : ∀ a ∈ l, ∀ r, LinkStates r.1 (g r a).1) (r : State × β) :
    LinkStates r.1 (l.foldl g r).1 := by
  induction l generalizing r with
  | nil => exact LinkStates.refl _
  | cons a l ih => exact (h a (.head _) r).trans (ih (fun b hb => h b (.tail _ hb)) _)

theorem linkStates_readMem (s : State) {a n : Nat} (h : a + n ≤ 2 ^ 48) : LinkStates s (readMem s a n).1 := by
  unfold readMem
  split
  · exact linkStates_readCheck s h
  next hn =>
    have hin : inHbm a n = true := by
      simp only [Bool.or_eq_true, not_or, Bool.not_eq_true', Bool.not_eq_false] at hn
      exact hn.1
    exact linkStates_foldlFst _ (fun (r : State × List (Nat × Bool)) l => ((readLine r.1 a n l).1, r.2 ++ (readLine r.1 a n l).2))
      (fun l hl r => linkStates_readLine r.1 hin hl) (s, [])

/-- A read of ranges below the numbers of copies. -/
theorem linkStates_readAll (s : State) {rs : List (Nat × Nat)} (h : ∀ r ∈ rs, r.1 + r.2 ≤ 2 ^ 48) : LinkStates s (readAll s rs).1 :=
  linkStates_foldlFst rs (fun (t : State × List (Nat × Bool)) r => ((readMem t.1 r.1 r.2).1, t.2 ++ (readMem t.1 r.1 r.2).2))
    (fun r hr t => linkStates_readMem t.1 (h r hr)) (s, [])

end Sys2Proof.Machine
end

section
/-! A link that sends one message: the flits of its bytes (R272, R274, R279). -/

namespace Sys2Proof.Machine

variable {s t u v : State} {l : Nat}

/-! ### The transmitter at rest -/

/-- A transmitter that is not UP sends nothing. -/
theorem pumpLink_still (h : linkState s l ≠ 4) (n : Nat) : pumpLink s l n = s := by
  have hc : canFlit s l = false := by
    rw [canFlit]
    exact Bool.and_eq_false_iff.2 (.inl (beq_eq_false_iff_ne.2 h))
  cases n with
  | zero => rfl
  | succ n =>
    rw [pumpLink]
    simp [hc]

/-- A transmitter with nothing to send. -/
theorem pumpLink_empty (hw : (s.link l).waiting = []) (hp : (s.link l).parts = []) (n : Nat) : pumpLink s l n = s := by
  cases n with
  | zero => rfl
  | succ n =>
    rw [pumpLink]
    dsimp only
    split
    · rfl
    · simp [hw, hp, nextMsg]

/-- After what could be sent, only the causes of holds may change. -/
theorem pump_after (s : State) (l : Nat) : Within 4096 (pumpLink s l ((s.link l).waiting.length + 257)) (pump s l) := by
  unfold pump
  dsimp only
  split
  · exact Within.refl _
  · split
    · exact within_dropCauses _ _ _ (Within.refl _) (Sub.refl _)
    · exact Within.refl _

theorem pump_still (h : linkState s l ≠ 4) : Within 4096 s (pump s l) := by
  have hp := pump_after s l
  rwa [pumpLink_still h] at hp

theorem pump_empty (hw : (s.link l).waiting = []) (hp : (s.link l).parts = []) : Within 4096 s (pump s l) := by
  have ha := pump_after s l
  rwa [pumpLink_empty hw hp] at ha

theorem otherLinks_cutFlit (s : State) (l : Nat) : OtherLinks l s (cutFlit s l) := by
  unfold cutFlit
  dsimp only
  generalize takeParts flitPayload 0 (s.link l).parts = r
  exact OtherLinks.trans (otherLinks_setLink s l _) (fun _ _ => rfl)

theorem otherLinks_beginMsg (s : State) (l : Nat) (m : OutMsg) : OtherLinks l s (beginMsg s l m) :=
  OtherLinks.trans (otherLinks_modLink s l _) (otherLinks_bump _ _ _ _ _ _)

/-- A transmitter moves no other link. -/
theorem otherLinks_pumpLink (l n : Nat) (s : State) : OtherLinks l s (pumpLink s l n) := by
  induction n generalizing s with
  | zero => exact OtherLinks.refl l s
  | succ n ih =>
    unfold pumpLink
    split
    · exact OtherLinks.refl l s
    · dsimp only
      generalize Option.bind _ _ = next
      cases next with
      | none => exact otherLinks_ite (OtherLinks.refl l s) ((otherLinks_cutFlit s l).trans (ih _))
      | some p =>
        refine OtherLinks.trans ?_ (ih _)
        exact (otherLinks_setLink s l _).trans (otherLinks_beginMsg _ l p.2)

theorem otherLinks_pump (s : State) (l : Nat) : OtherLinks l s (pump s l) :=
  (otherLinks_pumpLink l _ s).trans (otherLinks_of_same ((pump_after s l).same .links (by decide)))

/-! ### Flits of one message -/

/-- A link sends the bytes of the message begun in flits, each kept until it is acknowledged (R272, R274). -/
structure Flits (s t : State) (l : Nat) (b : List Byte) (fl : List SentFlit) : Prop where
  out : t.out.links = s.out.links ++ fl.map (fun f => (l, f))
  count : fl.length = ceilDiv b.length flitPayload
  bytes : (fl.flatMap (·.payload)).take b.length = b
  form : ∀ f ∈ fl, f.kind = 1 ∧ f.nak = false ∧ f.ack = (s.link l).rxSeq ∧ f.payload.length = flitPayload
  retry : (t.link l).retry = (s.link l).retry ++ fl.map (fun f => ⟨f.seq, f.first, f.payload⟩)
  waiting : (t.link l).waiting = (s.link l).waiting
  parts : (t.link l).parts = []
  seq : fl = [] ∨ (t.link l).txSeq = ((s.link l).txSeq + fl.length) % 65536

/-- The parts of a message begun: none once all its bytes are sent. -/
def partsLeft (c : Nat) (job fresh : Bool) (b : List Byte) : List TxPart := if b = [] then [] else [⟨c, job, fresh, b⟩]

/-- The next flit of a message begun. -/
def flitOf (s : State) (l : Nat) (fresh : Bool) (b : List Byte) : SentFlit :=
  { lane := flitLane s l (s.link l).txSeq, kind := 1, nak := false, seq := (s.link l).txSeq, ack := (s.link l).rxSeq,
    first := if fresh then 0 else 0xFFFF, credit0 := (s.link l).freed0, credit1 := (s.link l).freed1,
    payload := b.take flitPayload ++ List.replicate (flitPayload - (b.take flitPayload).length) 0 }

/-- The link once that flit is sent. -/
def linkCut (x : Link) (c : Nat) (job : Bool) (b : List Byte) (f : SentFlit) : Link :=
  { x with
    parts := partsLeft c job false (b.drop flitPayload)
    retry := x.retry ++ [⟨f.seq, f.first, f.payload⟩]
    txSeq := (x.txSeq + 1) % 65536
    lastData := if b.length ≤ flitPayload && job then some x.txSeq else x.lastData }

theorem takeParts_one (c : Nat) (job fresh : Bool) (b : List Byte) : takeParts flitPayload 0 [⟨c, job, fresh, b⟩] =
    (b.take flitPayload, if fresh then 0 else 0xFFFF, b.length ≤ flitPayload && job, partsLeft c job false (b.drop flitPayload)) := by
  rw [takeParts, if_neg (by decide)]
  dsimp only
  by_cases h : b.length ≤ flitPayload
  · rw [if_pos h, takeParts, List.take_of_length_le h, List.drop_of_length_le h, decide_eq_true h]
    cases fresh <;> cases job <;> simp [partsLeft]
  · have hd : b.drop flitPayload ≠ [] := fun e => h (List.drop_eq_nil_iff.1 e)
    rw [if_neg h, decide_eq_false h, partsLeft, if_neg hd]
    rfl

theorem cutFlit_one {c : Nat} {job fresh : Bool} {b : List Byte} (hp : (s.link l).parts = [⟨c, job, fresh, b⟩]) :
    (cutFlit s l).link l = linkCut (s.link l) c job b (flitOf s l fresh b) ∧
    (cutFlit s l).out.links = s.out.links ++ [(l, flitOf s l fresh b)] ∧ LinkStates s (cutFlit s l) := by
  have hc : cutFlit s l = sendFlit (s.setLink l (linkCut (s.link l) c job b (flitOf s l fresh b))) l 1 false (s.link l).txSeq
      (flitOf s l fresh b).first (flitOf s l fresh b).payload := by
    rw [cutFlit, hp, takeParts_one]
    rfl
  rw [hc]
  refine ⟨link_setLink _ _ _, ?_, linkStates_of_same rfl⟩
  simp only [sendFlit, link_setLink]
  rfl

theorem length_flitOf (s : State) (l : Nat) (fresh : Bool) (b : List Byte) : (flitOf s l fresh b).payload.length = flitPayload := by
  have h : (b.take flitPayload).length ≤ flitPayload := List.length_take_le _ _
  simp only [flitOf, List.length_append, List.length_replicate]
  omega

theorem ceilDiv_more {n : Nat} (h : 0 < n) : ceilDiv n flitPayload = ceilDiv (n - flitPayload) flitPayload + 1 := by
  unfold ceilDiv flitPayload
  omega

theorem flits_none (hp : (s.link l).parts = []) : Flits s s l [] [] :=
  ⟨(List.append_nil _).symm, rfl, rfl, fun _ h => (nomatch h), (List.append_nil _).symm, rfl, hp, .inl rfl⟩

/-- The flits of a message begun, one after the other, by induction on the turns left. -/
theorem pumpLink_flits (n c : Nat) (job fresh : Bool) (b : List Byte) (s : State) (hn : ceilDiv b.length flitPayload ≤ n) (hl : l < 64)
    (h4 : linkState s l = 4) (hw : (s.link l).waiting = []) (hp : (s.link l).parts = partsLeft c job fresh b)
    (hr : (s.link l).retry.length + ceilDiv b.length flitPayload ≤ 256) : ∃ fl, Flits s (pumpLink s l n) l b fl := by
  induction n generalizing s fresh b with
  | zero =>
    have hb : b = [] := by
      by_contra hb
      have := ceilDiv_more (List.length_pos_iff.2 hb)
      omega
    subst hb
    exact ⟨[], flits_none hp⟩
  | succ n ih =>
    by_cases hb : b = []
    · subst hb
      rw [pumpLink_empty hw hp]
      exact ⟨[], flits_none hp⟩
    · have hm := ceilDiv_more (List.length_pos_iff.2 hb)
      rw [partsLeft, if_neg hb] at hp
      obtain ⟨hx, ho, hst⟩ := cutFlit_one hp
      have hcan : canFlit s l = true := by
        rw [canFlit]
        exact Bool.and_eq_true_iff.2 ⟨beq_iff_eq.2 h4, decide_eq_true (by omega)⟩
      have hstep : pumpLink s l (n + 1) = pumpLink (cutFlit s l) l n := by
        rw [pumpLink]
        simp [hcan, hw, hp, nextMsg]
      have hlen : (b.drop flitPayload).length = b.length - flitPayload := List.length_drop
      obtain ⟨fl, f⟩ := ih false (b.drop flitPayload) (cutFlit s l) (by rw [hlen]; omega) ((hst l hl).trans h4) (by rw [hx]; exact hw) (by rw [hx]; rfl)
        (by
          rw [hx, hlen, linkCut]
          simp only [List.length_append, List.length_singleton]
          omega)
      have hpay := length_flitOf s l fresh b
      rw [hstep]
      refine ⟨flitOf s l fresh b :: fl, ?_, ?_, ?_, ?_, ?_, ?_, f.parts, ?_⟩
      · rw [f.out, ho, List.append_assoc]
        rfl
      · rw [List.length_cons, f.count, hlen, hm]
      · rw [List.flatMap_cons]
        by_cases hle : b.length ≤ flitPayload
        · rw [List.take_append_of_le_length (by omega)]
          simp only [flitOf, List.take_of_length_le hle, List.take_left']
        · have htake : (flitOf s l fresh b).payload = b.take flitPayload := by
            have hl : (b.take flitPayload).length = flitPayload := List.length_take_of_le (Nat.le_of_not_le hle)
            simp only [flitOf, hl, Nat.sub_self, List.replicate_zero, List.append_nil]
          rw [List.take_append, hpay, ← hlen, f.bytes, htake, List.take_take, Nat.min_eq_right (Nat.le_of_not_le hle), List.take_append_drop]
      · intro g hg
        rcases List.mem_cons.1 hg with rfl | hg
        · exact ⟨rfl, rfl, rfl, hpay⟩
        · obtain ⟨h1, h2, h3, h5⟩ := f.form g hg
          exact ⟨h1, h2, by rw [h3, hx]; rfl, h5⟩
      · rw [f.retry, hx, linkCut, List.append_assoc]
        rfl
      · rw [f.waiting, hx]
        rfl
      · right
        have hseq : ((cutFlit s l).link l).txSeq = ((s.link l).txSeq + 1) % 65536 := by rw [hx]; rfl
        rcases f.seq with rfl | h
        · have hz : ceilDiv (b.drop flitPayload).length flitPayload = 0 := f.count.symm
          have he : b.drop flitPayload = [] := by
            by_contra he
            have := ceilDiv_more (List.length_pos_iff.2 he)
            omega
          have hp' : ((cutFlit s l).link l).parts = [] := by rw [hx, linkCut, he]; rfl
          rw [pumpLink_empty (by rw [hx]; exact hw) hp', hseq]
          rfl
        · rw [h, hseq, List.length_cons]
          omega

end Sys2Proof.Machine
end

section
/-! What a link transmitter gives to its link (R62, R63, R252, R282, R381). -/

namespace Sys2Proof.Machine

variable {s t u v : State} {l : Nat}

/-! ### One message given to a link that is UP -/

theorem Flits.onto {b : List Byte} {fl : List SentFlit} (h : Flits s t l b fl) {μ : Nat} (hw : Within μ t u) (ho : μ.testBit 29 = false := by decide)
    (hl : μ.testBit 25 = false := by decide) : Flits s u l b fl := by
  have hlink : u.link l = t.link l := link_same (hw.same .links hl) l
  obtain ⟨h1, h2, h3, h4, h5, h6, h7, h8⟩ := h
  exact ⟨by rw [out_same (hw.same .out ho), h1], h2, h3, h4, by rw [hlink, h5], by rw [hlink, h6], by rw [hlink, h7], by rw [hlink]; exact h8⟩

/-- A link that has begun to send its only message. -/
def linkBegun (x : Link) (m : OutMsg) : Link :=
  { x with waiting := [], sent0 := x.sent0 + msgSlots m.data.length, parts := [⟨0, m.job, true, m.header ++ m.data⟩] }

/-- The state in which a link has begun to send its only message. -/
def begun (s : State) (l : Nat) (m : OutMsg) : State := beginMsg (s.setLink l { s.link l with waiting := [] }) l m

theorem nextMsg_one {x : Link} {m : OutMsg} (hw : x.waiting = [m]) (hc : chanOf m.header = 0) (hs : msgSlots m.data.length ≤ creditOf x 0) :
    nextMsg x = some 0 := by
  simp [nextMsg, hw, hc, hs]

theorem linkStates_begun (s : State) (m : OutMsg) (hl : l < 64) : LinkStates s (begun s l m) := by
  have hw : Pumped l s (s.setLink l { s.link l with waiting := [] }) := pumped_setLink s l rfl
  exact (hw.trans (pumped_beginMsg _ hl m)).2.linkStates (by decide)

theorem link_begun {m : OutMsg} (hc : chanOf m.header = 0) (hp : (s.link l).parts = []) : (begun s l m).link l = linkBegun (s.link l) m := by
  rw [begun, beginMsg, State.bump, link_setFld, link_modLink, link_setLink]
  dsimp only
  rw [hc, hp]
  rfl

/-- A turn of a transmitter that begins a message. -/
theorem pumpLink_begins {n i : Nat} {m : OutMsg} (hc : canFlit s l = true) (hp : (s.link l).parts = []) (hn : nextMsg (s.link l) = some i)
    (hm : (s.link l).waiting[i]? = some m) :
    pumpLink s l (n + 1) = pumpLink (beginMsg (s.setLink l { s.link l with waiting := (s.link l).waiting.eraseIdx i }) l m) l n := by
  have hs : ¬ flitPayload ≤ sumNat ((s.link l).parts.map (fun p => p.bytes.length)) := by
    rw [hp]
    decide
  rw [pumpLink]
  dsimp only
  rw [hc, if_neg hs, hn, Option.bind_some, hm]
  rfl

/-- A link that is UP, with credit and room in its retry buffer, sends its only message at once (R272, R274, R279). -/
theorem pump_one {m : OutMsg} (hl : l < 64) (h4 : linkState s l = 4) (hw : (s.link l).waiting = [m]) (hp : (s.link l).parts = [])
    (hc : chanOf m.header = 0) (hs : msgSlots m.data.length ≤ creditOf (s.link l) 0) (hh : m.header.length = 32)
    (hr : (s.link l).retry.length + ceilDiv (32 + m.data.length) flitPayload ≤ 256) :
    ∃ fl, Flits (begun s l m) (pump s l) l (m.header ++ m.data) fl := by
  have hlen : (m.header ++ m.data).length = 32 + m.data.length := by rw [List.length_append, hh]
  have hb : m.header ++ m.data ≠ [] := List.ne_nil_of_length_pos (by omega)
  have hn : 0 < ceilDiv (32 + m.data.length) flitPayload := by rw [ceilDiv_more (by omega)]; omega
  have hcan : canFlit s l = true := by
    rw [canFlit]
    exact Bool.and_eq_true_iff.2 ⟨beq_iff_eq.2 h4, decide_eq_true (by omega)⟩
  have hstep : pumpLink s l ((s.link l).waiting.length + 257) = pumpLink (begun s l m) l 257 := by
    have hb := pumpLink_begins (n := 257) hcan hp (nextMsg_one hw hc hs) (by rw [hw]; rfl)
    have he : (s.link l).waiting.eraseIdx 0 = [] := by rw [hw]; rfl
    rw [he] at hb
    rw [hw, List.length_singleton, Nat.add_comm, hb, begun]
  have hx : (begun s l m).link l = linkBegun (s.link l) m := link_begun hc hp
  obtain ⟨fl, hf⟩ := pumpLink_flits 257 0 m.job true (m.header ++ m.data) (begun s l m) (by rw [hlen]; omega) hl
    ((linkStates_begun s m hl l hl).trans h4) (by rw [hx]; rfl) (by rw [hx, partsLeft, if_neg hb]; rfl) (by rw [hx, hlen]; exact hr)
  rw [← hstep] at hf
  exact ⟨fl, hf.onto (pump_after s l)⟩

/-! ### The messages of a descriptor -/

theorem length_msgHeader (type tag epoch len tally add : Nat) {dest : List Byte} (h : dest.length = 16) :
    (msgHeader type tag epoch len dest tally add).length = 32 := by
  simp [msgHeader, length_leBytes, h]

theorem chanOf_msgHeader (tag epoch len tally add : Nat) (dest : List Byte) : chanOf (msgHeader 1 tag epoch len dest tally add) = 0 := rfl

/-- The one message of a WRITE descriptor of at most 65536 bytes (R381). -/
theorem txMessages_one {j : Job} (ho : txOp j.bytes = 1) (hl : txLen j.bytes ≤ 65536) : txMessages s j =
    [(msgHeader 1 (txDstTag j.bytes) (txEpoch s j.ctx) (txLen j.bytes) (leBytes 8 (txHandle j.bytes) ++ leBytes 8 (txOffset j.bytes)) (txTally j.bytes)
      (txAdd j.bytes), readBytes s (txSrc j.bytes) (txLen j.bytes))] := by
  have hn : max 1 (ceilDiv (txLen j.bytes) 65536) = 1 := by unfold ceilDiv; omega
  rw [txMessages]
  dsimp only
  rw [if_pos ho, hn]
  simp [upTo, Nat.min_eq_right hl]

/-- The messages of a descriptor rest on what an engine sees and on the epochs of the groups. -/
theorem Sees.txMessages (h : Sees s t) (hg : Area.groups.same s t) (j : Job) : txMessages t j = txMessages s j := by
  have he : txEpoch t j.ctx = txEpoch s j.ctx := by
    unfold txEpoch
    rw [h.ctx]
    cases (s.ctx j.ctx).group with
    | none => rfl
    | some g => exact congrArg (fun l => (tabGet ({} : Group) l g).epoch) hg
  have hm : ∀ o : State, txEpoch o j.ctx = txEpoch s j.ctx → o.mem.bytes = s.mem.bytes → Area.tensors.same s o → Area.ctxs.same s o →
      Machine.txMessages o j = Machine.txMessages s j := by
    intro o h1 h2 h3 h4
    have hr (a n : Nat) : Machine.readBytes o a n = Machine.readBytes s a n := by
      unfold Machine.readBytes memByte
      rw [h2]
    have hs : txSource o j = txSource s j := by rw [txSource, txSource, tensor_same h3, ctx_same h4]
    unfold Machine.txMessages txBlocks blockData
    simp only [h1, hr, hs]
  exact hm t he h.bytes h.tensors h.ctxs

theorem Sees.txMismatch (h : Sees s t) (j : Job) (k : Nat) (e : Bool) : txMismatch t j k e = txMismatch s j k e :=
  h.lift (Machine.txMismatch · j k e) fun _ => rfl

theorem Sees.txBlocks (h : Sees s t) (j : Job) : txBlocks t j = txBlocks s j := h.lift (Machine.txBlocks · j) fun _ => rfl

theorem Sees.txSource (h : Sees s t) (j : Job) : txSource t j = txSource s j := h.lift (Machine.txSource · j) fun _ => rfl

/-- A link that remembers the destinations of messages. -/
theorem noteSent_all (ms : List (List Byte × List Byte)) (c : Nat) (x : Link) :
    ∃ r, ms.foldl (fun y m => noteSent y ((m.1.drop 12).take 8) c) x = { x with sentTo := r } := by
  induction ms generalizing x with
  | nil => exact ⟨_, rfl⟩
  | cons m ms ih =>
    obtain ⟨r, hr⟩ := ih (noteSent x ((m.1.drop 12).take 8) c)
    exact ⟨r, hr⟩

/-- The messages of a descriptor as a link takes them. -/
def outMsgs (s : State) (j : Job) : List OutMsg := (txMessages s j).map (fun m => { header := m.1, data := m.2, ctx := some j.ctx, job := true })

/-- The state in which a descriptor's messages wait on their link. -/
def txGiven (s : State) (l : Nat) (j : Job) : State :=
  (putJob s 5 l { j with phase := .dataDone }).modLink l (fun x =>
    { ((txMessages s j).foldl (fun y m => noteSent y ((m.1.drop 12).take 8) j.ctx) x) with waiting := x.waiting ++ outMsgs s j })

theorem link_txGiven (s : State) (l : Nat) (j : Job) :
    ∃ r, (txGiven s l j).link l = { s.link l with sentTo := r, waiting := (s.link l).waiting ++ outMsgs s j } := by
  obtain ⟨r, hr⟩ := noteSent_all (txMessages s j) j.ctx (s.link l)
  refine ⟨r, ?_⟩
  rw [txGiven, link_modLink]
  have hlink : (putJob s 5 l { j with phase := .dataDone }).link l = s.link l := rfl
  rw [hlink, hr]

theorem within_txGiven (s : State) (l : Nat) (j : Job) : Within 41943040 s (txGiven s l j) :=
  within_modLink _ _ _ (within_putJob _ _ _ _ (Within.refl s) rfl) rfl

theorem otherLinks_txGiven (s : State) (l : Nat) (j : Job) : OtherLinks l s (txGiven s l j) := fun _ hk =>
  (otherLinks_modLink _ _ _ _ hk).trans rfl

theorem jobOf_txGiven (s : State) (l : Nat) (j : Job) : jobOf (txGiven s l j) 5 l = some { j with phase := .dataDone } := jobOf_putJob _ _ _ _

/-- The messages go out, or a cause of a hold begins. -/
theorem txRun_sends {j : Job} {k : Nat} {e : Bool} (h : txMismatch s j k e = none) : Within 4096 (pump (txGiven s l j) l) (txRun s l j k e) := by
  rw [txRun, h]
  dsimp only
  exact within_ite (within_addOpenCause _ _ _ _ (Within.refl _) (Sub.refl _)) (Within.refl _)

theorem txRun_waits {j : Job} {k n : Nat} {e : Bool} (h : txMismatch s j k e = some n) :
    txRun s l j k e = addCause (putJob s 5 l { j with phase := .reread n }) (s.ctx j.ctx).part 6 (rereadKey 5 l) none := by
  rw [txRun, h]

end Sys2Proof.Machine
end

section
/-! LINK_TRANSMIT (R56, R62, R63, R252, R273, R282, R381). -/

namespace Sys2Proof.Machine

variable {s t u v : State}

/-! ### The ranges that a transmitter reads -/

theorem blockPlace_lt {l : List (Nat × Nat)} {b : Nat} {p : Nat × Nat} (h : blockPlace l b = some p) : b < sumNat (l.map (fun a => ceilDiv a.2 4096)) := by
  induction l generalizing b with
  | nil => exact nomatch h
  | cons x l ih =>
    obtain ⟨a, n⟩ := x
    rw [blockPlace] at h
    rw [List.map_cons, sumNat_cons]
    dsimp only
    split at h
    next hb => exact Nat.lt_of_lt_of_le hb (Nat.le_add_right _ _)
    next hb =>
      have := ih h
      omega

/-- The checksums of a tensor that passes R86 lie in HBM. -/
theorem crc_in_hbm {p k : Nat} (hv : tensorValid s p k = true) (hc : (s.tensor p k).desc.checksum = true) :
    (s.tensor p k).homeDesc.crcAddr + 4 * (s.tensor p k).homeDesc.blocks ≤ hbmBytes := by
  have hh : (s.tensor p k).homeDesc.checksum = true := by
    unfold Tensor.homeDesc
    split <;> exact hc
  unfold tensorValid at hv
  have hb := (Bool.and_eq_true _ _ ▸ hv : _ ∧ _).2
  simp only [Bool.not_eq_true', tensorBad, Bool.or_eq_false_iff, hh, Bool.true_and, arrayInHbm, Bool.not_eq_false', inHbm, decide_eq_true_eq] at hb
  obtain ⟨⟨-, -, h⟩, -⟩ := hb
  exact h

/-- The blocks of a descriptor that is not broken lie in HBM. -/
theorem txBlocks_in_hbm {l : Nat} {j : Job} (hb : txBad s l j = false) (ho : txOp j.bytes ≠ 1) :
    (∀ x, some x ∈ txBlocks s j → inHbm x.2.1 x.2.2 = true) ∧
    (txSource s j).homeDesc.crcAddr + 4 * (txSource s j).homeDesc.blocks ≤ hbmBytes := by
  unfold txBad at hb
  dsimp only at hb
  rw [if_neg ho] at hb
  simp only [Bool.or_eq_false_iff, Bool.not_eq_false', List.any_eq_false] at hb
  obtain ⟨-, ⟨⟨-, hv⟩, hc⟩, ha⟩ := hb
  refine ⟨fun x hx => ?_, crc_in_hbm hv hc⟩
  have h := ha _ hx
  obtain ⟨b, a, n⟩ := x
  simp only [Bool.not_eq_true, Bool.or_eq_false_iff, Bool.not_eq_false'] at h
  exact h.1.1

theorem length_txBlocks_le (s : State) (j : Job) : (txBlocks s j).length ≤ txLen j.bytes / 4096 := by
  unfold txBlocks
  split
  · dsimp only
    rw [List.length_map, length_upTo]
  · exact Nat.zero_le _

/-- Each block that a descriptor reads is one of its tensor. -/
theorem txBlock_lt {j : Job} {x : Nat × Nat × Nat} (h : some x ∈ txBlocks s j) : x.1 < (txSource s j).homeDesc.blocks := by
  unfold txBlocks at h
  split at h
  · obtain ⟨i, -, hi⟩ := List.mem_map.1 h
    obtain ⟨b, -, hb⟩ := Option.bind_eq_some_iff.1 hi
    obtain ⟨p, hp, rfl⟩ := Option.map_eq_some_iff.1 hb
    exact blockPlace_lt hp
  · exact nomatch h

/-- What a transmitter reads lies below the numbers of copies. -/
theorem txReads_low {l : Nat} {j : Job} (hb : txBad s l j = false) : ∀ r ∈ txReads s j, r.1 + r.2 ≤ 2 ^ 48 := by
  intro r hr
  by_cases ho : txOp j.bytes = 1
  · have h2 : txReads s j = txRanges s j := by
      rw [txReads, if_neg (by rw [ho]; decide), List.append_nil]
    rw [h2, txRanges, if_pos ho] at hr
    split at hr
    · exact nomatch hr
    next hz =>
      rw [List.mem_singleton.1 hr]
      unfold txBad at hb
      dsimp only at hb
      rw [if_pos ho] at hb
      simp only [Bool.or_eq_false_iff, Bool.and_eq_false_iff, bne_eq_false_iff_eq, Option.isNone_eq_false_iff] at hb
      obtain ⟨-, hp⟩ := hb
      obtain ⟨x, hx⟩ := Option.isSome_iff_exists.1 (hp.resolve_left hz)
      rw [loamPlace] at hx
      split at hx
      next hw =>
        dsimp only at hx
        split at hx
        · dsimp only
          unfold loamBase loamWindow loamBytes at *
          omega
        · exact nomatch hx
      · exact nomatch hx
  · obtain ⟨hin, hcrc⟩ := txBlocks_in_hbm hb ho
    rcases List.mem_append.1 hr with hr | hr
    · rw [txRanges, if_neg ho] at hr
      obtain ⟨x, hx, hxr⟩ := List.mem_filterMap.1 hr
      obtain ⟨y, rfl, rfl⟩ := Option.map_eq_some_iff.1 hxr
      have hy : y.2.1 + y.2.2 ≤ hbmBytes := of_decide_eq_true (hin y hx)
      dsimp only
      unfold hbmBytes at hy
      omega
    · split at hr
      next h2 =>
        have hlen : ((txBlocks s j).filterMap (fun e => e.map (·.1))).length ≤ txLen j.bytes / 4096 :=
          Nat.le_trans (List.length_filterMap_le _ _) (length_txBlocks_le s j)
        have hfield : txLen j.bytes < 256 ^ 4 := fieldAt_lt _ _ _
        have hmem : ∀ b ∈ (txBlocks s j).filterMap (fun e => e.map (·.1)), b < (txSource s j).homeDesc.blocks := by
          intro b hb
          obtain ⟨x, hx, hxb⟩ := List.mem_filterMap.1 hb
          obtain ⟨y, rfl, rfl⟩ := Option.map_eq_some_iff.1 hxb
          exact txBlock_lt hx
        generalize (txBlocks s j).filterMap (fun e => e.map (·.1)) = bs at hr hlen hmem
        cases bs with
        | nil => exact nomatch hr
        | cons b bs =>
          rw [List.mem_singleton.1 hr]
          have := hmem b (.head _)
          dsimp only
          unfold hbmBytes at hcrc
          omega
      · exact nomatch hr

end Sys2Proof.Machine
end

section
/-! The statement about the link transmitters: LINK_TRANSMIT, LINK_TRANSMIT_ACKED, LINK_TX_WATCHDOG and CRC_SECOND_READ (R62, R63, R252, R273,
R274, R282, R381, R430). -/

namespace Sys2Proof.Machine

variable {s t u v : State}

/-! ### LINK_TRANSMIT -/

/-- A descriptor that faults, in a command that afterwards leaves contexts and engines. -/
theorem endsFault_leaves {i : Instr} {kind unit c cause μ : Nat} {j : Job} {poison : Bool} (hx : exec i s = .next t)
    (hw : Within μ (endFault v kind unit j cause poison) t) (hj : j.ctx = c) (hm : (v.ctx c).mode = (s.ctx c).mode)
    (hc : μ.testBit 13 = false := by decide) (he : μ.testBit 23 = false := by decide) : EndsFault i s kind unit c cause := by
  obtain ⟨h1, h2⟩ := endFault_frame v kind unit j cause poison
  subst hj
  refine ⟨t, hx, by rw [jobOf_same (hw.same .engines he), h1], fun ha => ?_⟩
  rw [Faulted, ctx_same (hw.same .ctxs hc)]
  exact h2 (hm.trans ha)

theorem within_spoiled (s : State) (l : Nat) (r : List Nat) : Within 33554432 s (spoilRetry s l r) := within_spoilRetry s l r (Within.refl s) (Sub.refl _)

/-- The descriptor with the version of its tensor. -/
def txJob (u : State) (q c : Nat) (e : Entry) : Job :=
  { jobFrom u q c e with version := (u.tensor (u.ctx c).part (txTensor e.bytes)).desc.version }

/-- A fault of the buffer under a descriptor ends it, and the link may retrain (R273). -/
theorem bufferFault_of_job {l : Nat} {j : Job} (h : jobOf s 5 l = some j) :
    ∃ w, Within 570429448 s w ∧ Within 167772296 (endFault w 5 l j 6 false) (bufferFault s l) := by
  have hj : jobOf (s.modLink l (fun x => { x with retryBad := [] })) 5 l = some j := h
  refine ⟨dropUnsent (s.modLink l (fun x => { x with retryBad := [] })) l, ?_, ?_⟩
  · exact within_dropUnsent _ _ (within_modLink _ _ _ (Within.refl s) rfl) rfl
  · unfold bufferFault
    dsimp only
    rw [hj]
    exact within_ite (within_startRetrain _ _ (Within.refl _) (Sub.refl _)) (Within.refl _)

theorem linkTransmit_ranges (u : State) (l q c : Nat) (e : Entry) : (txRanges (taken u 5 l q c e) (jobFrom u q c e)).any (fun r => !readOk (taken u 5 l q c e) c r.1 r.2) =
    (txRanges u (txJob u q c e)).any (fun r => !readOk u c r.1 r.2) := by
  have hr : txRanges (taken u 5 l q c e) (jobFrom u q c e) = txRanges u (txJob u q c e) := taken_lift (txRanges · (jobFrom u q c e)) fun _ _ _ => rfl
  rw [hr]
  exact congrArg (txRanges u (txJob u q c e)).any (funext fun r => by rw [(sees_taken u 5 l q c e).readOk (rests_taken u 5 l q c e)])

section
variable {l q c : Nat} {e : Entry} {pe be : Bool} (h : Takes u 5 l q c e)
include h

theorem linkTransmit_bad (hb : txBad u l (txJob u q c e) = true) :
    linkTransmitOp l pe be u = endFault (taken u 5 l q c e) 5 l (jobFrom u q c e) 1 false := by
  have hb' : txBad (taken u 5 l q c e) l (jobFrom u q c e) = true := (taken_lift (txBad · l (jobFrom u q c e)) fun _ _ _ => rfl).trans hb
  rw [linkTransmitOp, takeDesc_of_takes h]
  exact if_pos hb'

theorem linkTransmit_refused (hb : txBad u l (txJob u q c e) = false) (ho : ¬ ∀ r ∈ txRanges u (txJob u q c e), readOk u c r.1 r.2 = true) :
    linkTransmitOp l pe be u = endFault (taken u 5 l q c e) 5 l (jobFrom u q c e) 0x0E false := by
  have hb' : txBad (taken u 5 l q c e) l (jobFrom u q c e) = false := (taken_lift (txBad · l (jobFrom u q c e)) fun _ _ _ => rfl).trans hb
  have ho' : (txRanges u (txJob u q c e)).any (fun r => !readOk u c r.1 r.2) = true := by
    rw [List.any_eq_true]
    by_contra hn
    exact ho fun r hr => by
      by_contra hk
      exact hn ⟨r, hr, by simp [hk]⟩
  rw [linkTransmitOp, takeDesc_of_takes h]
  exact (if_neg (Bool.eq_false_iff.1 hb')).trans (if_pos ((linkTransmit_ranges u l q c e).trans ho'))

theorem linkTransmit_reads (hb : txBad u l (txJob u q c e) = false) (ho : ∀ r ∈ txRanges u (txJob u q c e), readOk u c r.1 r.2 = true) :
    let j := txJob u q c e
    let rd := readOver (taken u 5 l q c e) (txReads u j)
    (¬ Clean u (txReads u j) → ∃ p, linkTransmitOp l pe be u = endFault rd 5 l j 6 p) ∧
    (Clean u (txReads u j) → linkTransmitOp l pe be u = if be then bufferFault (putJob rd 5 l j) l else txRun rd l j 0 pe) := by
  intro j rd
  have hb' : txBad (taken u 5 l q c e) l (jobFrom u q c e) = false := (taken_lift (txBad · l (jobFrom u q c e)) fun _ _ _ => rfl).trans hb
  have ho' : ¬ (txRanges u (txJob u q c e)).any (fun r => !readOk u c r.1 r.2) = true := by
    rw [List.any_eq_true]
    rintro ⟨r, hr, hk⟩
    simp [ho r hr] at hk
  have hv : { jobFrom u q c e with version := (txSource (taken u 5 l q c e) (jobFrom u q c e)).desc.version } = j := by
    rw [(sees_taken u 5 l q c e).txSource]
    rfl
  have hrd : txReads (taken u 5 l q c e) j = txReads u j := taken_lift (txReads · j) fun _ _ _ => rfl
  have hx : linkTransmitOp l pe be u = match worstOf (readAll (taken u 5 l q c e) (txReads u j)).2 with
      | some poison => endFault rd 5 l j 6 poison
      | none => if be then bufferFault (putJob rd 5 l j) l else txRun rd l j 0 pe := by
    rw [linkTransmitOp, takeDesc_of_takes h]
    refine (if_neg (Bool.eq_false_iff.1 hb')).trans ((if_neg (mt (linkTransmit_ranges u l q c e).symm.trans ho')).trans ?_)
    dsimp only
    rw [hv, hrd]
    rfl
  rw [hx]
  refine ⟨fun hc => ?_, fun hc => ?_⟩
  · obtain ⟨p, hp⟩ := worstOf_unclean (mt (clean_taken _).1 hc)
    rw [hp]
    exact ⟨p, rfl⟩
  · rw [worstOf_clean ((clean_taken _).2 hc)]

/-- Where a transmitter's reads leave the links' states. -/
theorem linkStates_transmit (hb : txBad u l (txJob u q c e) = false) : LinkStates u (readOver (taken u 5 l q c e) (txReads u (txJob u q c e))) := by
  have hq : (u.queue q).part < 8 := by
    obtain ⟨-, -, -, -, hq, -⟩ := h
    exact hq
  have hc : LinkStates u (countArb u 5 l q) := by
    have hbump : LinkStates u (u.bump fRplChoiceArbArb (u.queue q).part 0 1) :=
      (regsBut_bump (rs := [.rplChoiceArb]) u (f := fRplChoiceArbArb) 1 (by decide) (by omega) (by decide)).linkStates (by decide)
    unfold countArb
    dsimp only
    split
    · exact linkStates_ite hbump (LinkStates.refl u)
    · exact LinkStates.refl u
  have ht : LinkStates u (taken u 5 l q c e) := hc.trans (linkStates_of_same rfl)
  exact ht.trans (linkStates_readAll _ (txReads_low hb))

/-- The ends of LINK_TRANSMIT in a fault. -/
theorem linkTransmit_faults {i : Instr} {r : List Nat} (hx : exec i s = .next (spoilRetry (linkTransmitOp l pe be u) l r))
    (hc : (u.ctx c).mode = (s.ctx c).mode) :
    let j := txJob u q c e
    let ok := ∀ r ∈ txRanges u j, readOk u c r.1 r.2 = true
    (txBad u l j = true → EndsFault i s 5 l c 1) ∧ (txBad u l j = false → ¬ ok → EndsFault i s 5 l c 0x0E) ∧
    (txBad u l j = false → ok → (¬ Clean u (txReads u j) ∨ be = true) → EndsFault i s 5 l c 6) := by
  intro j ok
  have hu : ((taken u 5 l q c e).ctx c).mode = (s.ctx c).mode := by rw [(sees_taken u 5 l q c e).ctx, hc]
  have hrd : ((readOver (taken u 5 l q c e) (txReads u j)).ctx c).mode = (s.ctx c).mode := by rw [(sees_readOver _ _).ctx, hu]
  refine ⟨fun hb => ?_, fun hb ho => ?_, fun hb ho hn => ?_⟩
  · rw [linkTransmit_bad h hb] at hx
    exact endsFault_leaves hx (within_spoiled _ _ _) rfl hu
  · rw [linkTransmit_refused h hb ho] at hx
    exact endsFault_leaves hx (within_spoiled _ _ _) rfl hu
  · obtain ⟨h1, h2⟩ := linkTransmit_reads (pe := pe) (be := be) h hb ho
    by_cases hcl : Clean u (txReads u j)
    · rw [h2 hcl, if_pos (hn.resolve_left (not_not.2 hcl))] at hx
      obtain ⟨w, hw, hf⟩ := bufferFault_of_job (jobOf_putJob (readOver (taken u 5 l q c e) (txReads u j)) 5 l j)
      have hm : (w.ctx c).mode = (s.ctx c).mode := by
        rw [ctx_same (hw.same .ctxs (by decide))]
        exact hrd
      exact endsFault_leaves hx (hf.trans (within_spoiled _ _ _) rfl rfl : Within 167772296 _ _) rfl hm
    · obtain ⟨p, hp⟩ := h1 hcl
      rw [hp] at hx
      exact endsFault_leaves hx (within_spoiled _ _ _) rfl hrd

end

end Sys2Proof.Machine
end

section
/-! The statement about the link transmitters: LINK_TRANSMIT, LINK_TRANSMIT_ACKED, LINK_TX_WATCHDOG and CRC_SECOND_READ (R62, R63, R252, R273,
R274, R282, R381, R430). -/

namespace Sys2Proof.Machine

variable {s t u v : State}

/-! ### LINK_TRANSMIT of a descriptor that runs -/

theorem link_spoiled (s : State) (l : Nat) (r : List Nat) : ∃ b, (spoilRetry s l r).link l = { s.link l with retryBad := b } :=
  ⟨_, link_modLink _ _ _⟩

theorem waiting_spoiled (s : State) (l : Nat) (r : List Nat) : ((spoilRetry s l r).link l).waiting = (s.link l).waiting := by
  obtain ⟨b, h⟩ := link_spoiled s l r
  rw [h]

theorem otherLinks_spoiled (s : State) (l : Nat) (r : List Nat) : OtherLinks l s (spoilRetry s l r) := otherLinks_modLink _ _ _

/-- The state after a transmitter's reads. -/
def txRead (u : State) (l q c : Nat) (e : Entry) : State := readOver (taken u 5 l q c e) (txReads u (txJob u q c e))

theorem within_txRead (u : State) (l q c : Nat) (e : Entry) : Within 142610872 u (txRead u l q c e) :=
  (within_taken u 5 l q c e).trans (within_readOver _ _) rfl rfl

theorem sees_txRead (u : State) (l q c : Nat) (e : Entry) : Sees u (txRead u l q c e) := (sees_taken u 5 l q c e).trans (sees_readOver _ _)

theorem link_txRead (u : State) (l q c : Nat) (e : Entry) (k : Nat) : (txRead u l q c e).link k = u.link k :=
  link_same ((within_txRead u l q c e).same .links (by decide)) k

theorem outMsgs_txRead (u : State) (l q c : Nat) (e : Entry) (j : Job) : outMsgs (txRead u l q c e) j = outMsgs u j := by
  rw [outMsgs, outMsgs, (sees_txRead u l q c e).txMessages ((within_txRead u l q c e).same .groups (by decide))]

/-- What a run of a transmitter leaves of the bytes. -/
theorem sameBytes_sent {l q c : Nat} {e : Entry} {μ : Nat} (h : Within μ (txRead u l q c e) t) (hm : μ.testBit 4 = false := by decide)
    (hh : μ.testBit 6 = false := by decide) : SameBytes u t := fun a => by
  have hb : t.mem.bytes = u.mem.bytes := (bytes_of_memory (h.same .memory hm)).trans (sees_txRead u l q c e).bytes
  have hs : t.hostMem = u.hostMem := (h.same .hostMemory hh).trans ((within_txRead u l q c e).same .hostMemory (by decide))
  exact ⟨congrArg (tabGet 0 · a) hb, congrArg (tabGet 0 · a) hs⟩

section
variable {i : Instr} {l q c : Nat} {e : Entry} {pe : Bool} {r : List Nat} (h : Takes u 5 l q c e) (hl : l < 64)
  (hx : exec i s = .next (spoilRetry (txRun (txRead u l q c e) l (txJob u q c e) 0 pe) l r))

include hx in
/-- A block that disagrees with its checksum waits for its second read (R63). -/
theorem linkTransmit_waits {k : Nat} (hm : txMismatch u (txJob u q c e) 0 pe = some k) : ∃ t, exec i s = .next t ∧
    jobOf t 5 l = some { txJob u q c e with phase := .reread k } ∧ SameBytes u t ∧ (t.link l).waiting = (u.link l).waiting ∧
    Only (readAreas ++ [.queues, .engines, .links]) u t := by
  rw [txRun_waits (((sees_txRead u l q c e).txMismatch _ _ _).trans hm)] at hx
  have hp : Within 8388608 (txRead u l q c e) (putJob (txRead u l q c e) 5 l { txJob u q c e with phase := .reread k }) :=
    within_putJob _ _ _ _ (Within.refl _) rfl
  have ha := within_addCause (putJob (txRead u l q c e) 5 l { txJob u q c e with phase := .reread k }) ((txRead u l q c e).ctx (txJob u q c e).ctx).part 6
    (rereadKey 5 l) none (Within.refl _) (Sub.refl _)
  have hw := (hp.trans ha rfl rfl : Within 8392704 _ _)
  have hall := (hw.trans (within_spoiled _ l r) rfl rfl : Within 41947136 _ _)
  refine ⟨_, hx, ?_, sameBytes_sent hall, ?_, ((within_txRead u l q c e).trans hall rfl rfl : Within 176165304 u _).only rfl⟩
  · rw [jobOf_same ((within_spoiled _ l r).same .engines (by decide)), jobOf_same (ha.same .engines (by decide)), jobOf_putJob]
  · rw [waiting_spoiled, link_same (hw.same .links (by decide)) l, link_txRead]

include h hl hx in
/-- The messages of a descriptor wait on a link that is not UP (R274). -/
theorem linkTransmit_still (hb : txBad u l (txJob u q c e) = false) (hm : txMismatch u (txJob u q c e) 0 pe = none) (h4 : linkState u l ≠ 4) :
    ∃ t, exec i s = .next t ∧ jobOf t 5 l = some { txJob u q c e with phase := .dataDone } ∧
      (t.link l).waiting = (u.link l).waiting ++ outMsgs u (txJob u q c e) ∧ SameBytes u t ∧ (∀ k, k ≠ l → t.link k = u.link k) ∧
      Only (readAreas ++ [.queues, .engines, .links]) u t := by
  have hst : linkState (txGiven (txRead u l q c e) l (txJob u q c e)) l ≠ 4 := by
    have hg := linkStates_of_same ((within_txGiven (txRead u l q c e) l (txJob u q c e)).same .registers (by decide)) l hl
    rw [hg, txRead, linkStates_transmit h hb l hl]
    exact h4
  have hsend := txRun_sends (l := l) (((sees_txRead u l q c e).txMismatch (txJob u q c e) 0 pe).trans hm)
  have hrun := ((pump_still hst).trans hsend rfl rfl : Within 4096 _ _)
  obtain ⟨n, hgiven⟩ := link_txGiven (txRead u l q c e) l (txJob u q c e)
  have hall := (((within_txGiven (txRead u l q c e) l (txJob u q c e)).trans hrun rfl rfl : Within 41947136 _ _).trans (within_spoiled _ l r) rfl rfl :
    Within 41947136 _ _)
  refine ⟨_, hx, ?_, ?_, sameBytes_sent hall, fun k hk => ?_, ((within_txRead u l q c e).trans hall rfl rfl : Within 176165304 u _).only rfl⟩
  · rw [jobOf_same ((within_spoiled _ l r).same .engines (by decide)), jobOf_same (hrun.same .engines (by decide)), jobOf_txGiven]
  · rw [waiting_spoiled, link_same (hrun.same .links (by decide)) l, hgiven, link_txRead, outMsgs_txRead]
  · rw [otherLinks_spoiled _ _ _ k hk, link_same (hrun.same .links (by decide)) k, otherLinks_txGiven _ _ _ k hk, link_txRead]

theorem Flits.spoiled {b : List Byte} {fl : List SentFlit} (h : Flits s t l b fl) (r : List Nat) : Flits s (spoilRetry t l r) l b fl := by
  obtain ⟨n, hn⟩ := link_spoiled t l r
  obtain ⟨h1, h2, h3, h4, h5, h6, h7, h8⟩ := h
  exact ⟨by rw [out_same ((within_spoiled t l r).same .out (by decide)), h1], h2, h3, h4, by rw [hn]; exact h5, by rw [hn]; exact h6, by rw [hn]; exact h7,
    by rw [hn]; exact h8⟩

theorem out_begun (s : State) (l : Nat) (m : OutMsg) : (begun s l m).out = s.out := rfl

theorem out_txGiven (s : State) (l : Nat) (j : Job) : (txGiven s l j).out = s.out := rfl

/-- The message of a WRITE descriptor of at most 65536 bytes. -/
def writeMsg (u : State) (j : Job) : OutMsg :=
  { header := msgHeader 1 (txDstTag j.bytes) (txEpoch u j.ctx) (txLen j.bytes) (leBytes 8 (txHandle j.bytes) ++ leBytes 8 (txOffset j.bytes))
      (txTally j.bytes) (txAdd j.bytes)
    data := readBytes u (txSrc j.bytes) (txLen j.bytes), ctx := some j.ctx, job := true }

theorem outMsgs_write {j : Job} (ho : txOp j.bytes = 1) (hlen : txLen j.bytes ≤ 65536) : outMsgs u j = [writeMsg u j] := by
  rw [outMsgs, txMessages_one ho hlen]
  rfl

theorem writeMsg_frame (u : State) (j : Job) : chanOf (writeMsg u j).header = 0 ∧ (writeMsg u j).header.length = 32 ∧
    (writeMsg u j).data.length = txLen j.bytes := by
  refine ⟨rfl, length_msgHeader _ _ _ _ _ _ ?_, ?_⟩
  · rw [List.length_append, length_leBytes, length_leBytes]
  · rw [writeMsg, readBytes, List.length_map, length_upTo]

include h hl hx in
/-- The message of a WRITE goes out at once on a link that is UP, with credit and room (R272, R274, R279, R282). -/
theorem linkTransmit_up (hb : txBad u l (txJob u q c e) = false) (hm : txMismatch u (txJob u q c e) 0 pe = none) (h4 : linkState u l = 4)
    (hw : (u.link l).waiting = []) (hp : (u.link l).parts = []) (ho : txOp e.bytes = 1) (hlen : txLen e.bytes ≤ 65536)
    (hc : msgSlots (txLen e.bytes) ≤ creditOf (u.link l) 0)
    (hr : (u.link l).retry.length + ceilDiv (32 + txLen e.bytes) flitPayload ≤ 256) :
    ∃ t, ∃ fl : List SentFlit, exec i s = .next t ∧ jobOf t 5 l = some { txJob u q c e with phase := .dataDone } ∧
      t.out.links = u.out.links ++ fl.map (fun f => (l, f)) ∧ fl.length = ceilDiv (32 + txLen e.bytes) flitPayload ∧
      (fl.flatMap (·.payload)).take (32 + txLen e.bytes) = (writeMsg u (txJob u q c e)).header ++ readBytes u (txSrc e.bytes) (txLen e.bytes) ∧
      (∀ f ∈ fl, f.kind = 1 ∧ f.nak = false ∧ f.ack = (u.link l).rxSeq ∧ f.payload.length = flitPayload) ∧
      (t.link l).retry = (u.link l).retry ++ fl.map (fun f => ⟨f.seq, f.first, f.payload⟩) ∧ (t.link l).waiting = [] ∧ (t.link l).parts = [] ∧
      (t.link l).txSeq = ((u.link l).txSeq + ceilDiv (32 + txLen e.bytes) flitPayload) % 65536 ∧ SameBytes u t ∧
      (∀ k, k ≠ l → t.link k = u.link k) ∧ Only (readAreas ++ [.queues, .engines, .links, .out]) u t := by
  obtain ⟨hchan, hhead, hdata⟩ := writeMsg_frame u (txJob u q c e)
  obtain ⟨n, hgiven⟩ := link_txGiven (txRead u l q c e) l (txJob u q c e)
  rw [outMsgs_txRead, outMsgs_write ho hlen, link_txRead, hw, List.nil_append] at hgiven
  have hst : linkState (txGiven (txRead u l q c e) l (txJob u q c e)) l = 4 := by
    have hg := linkStates_of_same ((within_txGiven (txRead u l q c e) l (txJob u q c e)).same .registers (by decide)) l hl
    rw [hg, txRead, linkStates_transmit h hb l hl]
    exact h4
  have hsend := txRun_sends (l := l) (((sees_txRead u l q c e).txMismatch (txJob u q c e) 0 pe).trans hm)
  obtain ⟨fl, hf⟩ := pump_one (m := writeMsg u (txJob u q c e)) hl hst (by rw [hgiven]) (by rw [hgiven]; exact hp) hchan
    (by rw [hgiven, hdata]; exact hc) hhead (by rw [hgiven, hdata]; exact hr)
  have hbegun := link_begun (l := l) hchan (show ((txGiven (txRead u l q c e) l (txJob u q c e)).link l).parts = [] by rw [hgiven]; exact hp)
  rw [hgiven] at hbegun
  obtain ⟨f1, f2, f3, f4, f5, f6, f7, f8⟩ := (hf.onto hsend).spoiled r
  rw [hbegun] at f4 f5 f6 f8
  rw [List.length_append, hhead, hdata] at f2 f3
  have hpump := within_pump (txGiven (txRead u l q c e) l (txJob u q c e)) l (Within.refl _) (Sub.refl _)
  have hrun := (hpump.trans hsend rfl rfl : Within 570429448 _ _)
  have hall := (((within_txGiven (txRead u l q c e) l (txJob u q c e)).trans hrun rfl rfl : Within 578818056 _ _).trans (within_spoiled _ l r) rfl rfl :
    Within 578818056 _ _)
  refine ⟨_, fl, hx, ?_, ?_, f2, f3, f4, ?_, ?_, ?_, ?_, sameBytes_sent hall, fun k hk => ?_,
    ((within_txRead u l q c e).trans hall rfl rfl : Within 713036216 u _).only rfl⟩
  · rw [jobOf_same ((within_spoiled _ l r).same .engines (by decide)), jobOf_same (hrun.same .engines (by decide)), jobOf_txGiven]
  · rw [f1, out_begun, out_txGiven, out_same ((within_txRead u l q c e).same .out (by decide))]
  · exact f5
  · exact f6
  · exact f7
  · rcases f8 with rfl | f8
    · rw [List.length_nil, ceilDiv_more (by omega)] at f2
      exact nomatch f2
    · rw [f2] at f8
      exact f8
  · rw [otherLinks_spoiled _ _ _ k hk, link_same (hsend.same .links (by decide)) k, otherLinks_pump _ _ k hk, otherLinks_txGiven _ _ _ k hk, link_txRead]

end

end Sys2Proof.Machine
end

section
/-! The statement about the link transmitters: LINK_TRANSMIT, LINK_TRANSMIT_ACKED, LINK_TX_WATCHDOG and CRC_SECOND_READ (R62, R63, R252, R273,
R274, R282, R381, R430). -/

namespace Sys2Proof.Machine

variable {s t u v : State}

/-! ### A block that the second read cleared -/

theorem tabGet_default {α β : Type} (g : α → β) {d e : α} (h : g d = g e) (l : Tab α) (k : Nat) : g (tabGet d l k) = g (tabGet e l k) := by
  induction l with
  | nil => exact h
  | cons x l ih =>
    rw [tabGet, tabGet]
    split
    · rfl
    · exact ih

/-- Counting in the upper half of a register leaves every link's state, wherever the register stands. -/
theorem linkStates_bump_upper (s : State) {f : RField} (i j n : Nat) (h : f.lo ≤ f.hi ∧ f.hi < 64 ∧ 4 ≤ f.lo)
    (hr : getBits (resetWord f.reg) 3 0 = getBits (resetWord .lnkStatus) 3 0) : LinkStates s (s.bump f i j n) := by
  intro l hl
  by_cases hk : regKey ⟨f.reg, i, j⟩ = regKey ⟨.lnkStatus, l / 8, l % 8⟩
  · have hget (w : Word) (r : Tab Word) : getBits (tabGet (resetWord .lnkStatus) (tabSet (resetWord f.reg) r (regKey ⟨f.reg, i, j⟩) w) (regKey ⟨f.reg, i, j⟩)) 3 0 =
        getBits w 3 0 := by
      rw [← tabGet_default (getBits · 3 0) hr, tabGet_tabSet_same]
    rw [linkState, linkState, State.fld, State.fld]
    change getBits (tabGet (resetWord .lnkStatus) (tabSet (resetWord f.reg) s.regs (regKey ⟨f.reg, i, j⟩) _) (regKey ⟨.lnkStatus, l / 8, l % 8⟩)) 3 0 =
      getBits (tabGet (resetWord .lnkStatus) s.regs (regKey ⟨.lnkStatus, l / 8, l % 8⟩)) 3 0
    rw [← hk, hget, getBits_putBits_ne _ h.1 h.2.1 (by decide) _ (.inr (by omega))]
    exact tabGet_default (getBits · 3 0) hr _ _
  · exact congrArg (getBits · fLnkStatusState.hi fLnkStatusState.lo) (raw_setRaw_key s _ hk)

theorem linkStates_crcCleared (s : State) (a : Nat) : LinkStates s (crcCleared s a) :=
  (linkStates_bump_upper s (f := fHbmMoverCrcCrcRetryOk) _ _ _ (by decide) (by decide)).trans (linkStates_healthEvent _ _ _ _)

/-- The state after the hold of a transmitter's second read. -/
def txUnheld (s : State) (l : Nat) (j : Job) : State := dropCauses s (s.ctx j.ctx).part (fun c => c.field == 6 && c.key == rereadKey 5 l)

theorem within_txUnheld (s : State) (l : Nat) (j : Job) : Within 4096 s (txUnheld s l j) := within_dropCauses _ _ _ (Within.refl s) (Sub.refl _)

theorem sees_txUnheld (s : State) (l : Nat) (j : Job) : Sees s (txUnheld s l j) :=
  (within_txUnheld s l j).sees (bytes_of_memory ((within_txUnheld s l j).same .memory (by decide)))

/-- The state after a second read that cleared the mismatch. -/
def txCleared (s : State) (l : Nat) (j : Job) (a : Nat) : State := crcCleared (txUnheld s l j) a

theorem within_txCleared (s : State) (l : Nat) (j : Job) (a : Nat) : Within 134221960 s (txCleared s l j a) :=
  (within_txUnheld s l j).trans (within_crcCleared _ a (Within.refl _) (Sub.refl _)) rfl rfl

theorem sees_txCleared (s : State) (l : Nat) (j : Job) (a : Nat) : Sees s (txCleared s l j a) :=
  (within_txCleared s l j a).sees (bytes_of_memory ((within_txCleared s l j a).same .memory (by decide)))

theorem linkStates_txCleared (s : State) (l : Nat) (j : Job) (a : Nat) : LinkStates s (txCleared s l j a) :=
  (linkStates_of_same ((within_txUnheld s l j).same .registers (by decide))).trans (linkStates_crcCleared _ a)

section
variable {l : LinkId} {k : Nat} {pe : Bool} {j : Job} {x : Nat × Nat × Nat} (hj : jobOf s 5 l.val = some j) (hp : j.phase = .reread k)
  (hx : ((txBlocks s j).filterMap id)[k]? = some x)
include hj hp hx

theorem linkReread_bad (hg : (!pe && blockGood s (txSource s j) j.version x.1 x.2.1 x.2.2) = false) :
    linkReread l.val pe s = endFault (crcFailed (txUnheld s l.val j) x.2.1) 5 l.val j 7 false := by
  rw [← (sees_txUnheld s l.val j).blockGood, ← (sees_txUnheld s l.val j).txSource] at hg
  rw [← (sees_txUnheld s l.val j).txBlocks] at hx
  rw [linkReread]
  rw [hj]
  dsimp only
  rw [hp]
  dsimp only
  rw [← txUnheld, hx]
  exact if_neg (Bool.eq_false_iff.1 hg)

theorem linkReread_good (hg : (!pe && blockGood s (txSource s j) j.version x.1 x.2.1 x.2.2) = true) :
    linkReread l.val pe s = if jobStopped s j then endStopped (txCleared s l.val j x.2.1) 5 l.val j else txRun (txCleared s l.val j x.2.1) l.val j (k + 1) false := by
  have hs : jobStopped (txCleared s l.val j x.2.1) j = jobStopped s j := by
    rw [jobStopped, jobStopped, queue_same ((within_txCleared s l.val j x.2.1).same .queues (by decide))]
  rw [← (sees_txUnheld s l.val j).blockGood, ← (sees_txUnheld s l.val j).txSource] at hg
  rw [← (sees_txUnheld s l.val j).txBlocks] at hx
  rw [linkReread, ← hs]
  rw [hj]
  dsimp only
  rw [hp]
  dsimp only
  rw [← txUnheld, hx]
  exact if_pos hg

theorem linkSecond_bad (hg : (!pe && blockGood s (txSource s j) j.version x.1 x.2.1 x.2.2) = false) :
    EndsFault (.crcSecondRead (.link l) pe) s 5 l.val j.ctx 7 := by
  refine endsFault_of (congrArg Host.Outcome.next (linkReread_bad hj hp hx hg)) rfl ?_
  have hw : Within 134221960 s (crcFailed (txUnheld s l.val j) x.2.1) :=
    (within_txUnheld s l.val j).trans (within_crcFailed _ _ (Within.refl _) (Sub.refl _)) rfl rfl
  rw [ctx_same (hw.same .ctxs (by decide))]

section
variable (hg : (!pe && blockGood s (txSource s j) j.version x.1 x.2.1 x.2.2) = true)
include hg

theorem linkSecond_stopped (hs : jobStopped s j = true) :
    ∃ t, exec (.crcSecondRead (.link l) pe) s = .next t ∧ jobOf t 5 l.val = none ∧ (∀ k, t.tally k = s.tally k) := by
  have he : exec (.crcSecondRead (.link l) pe) s = .next (endStopped (txCleared s l.val j x.2.1) 5 l.val j) :=
    congrArg Host.Outcome.next ((linkReread_good hj hp hx hg).trans (if_pos hs))
  refine ⟨_, he, ?_, fun n => ?_⟩
  · rw [endStopped, jobOf_same ((finishEntry_only _ _ _ _) .engines (by decide)),
      jobOf_same ((within_modQueue _ _ _ (Within.refl _) (Sub.refl _)).same .engines (by decide)), jobOf_freeEngine]
  · rw [tally_same ((within_endStopped _ _ _ _ (Within.refl _) (Sub.refl _)).same .tallies (by decide)),
      tally_same ((within_txCleared _ _ _ _).same .tallies (by decide))]

theorem linkSecond_runs (hs : jobStopped s j = false) :
    (∀ n, txMismatch s j (k + 1) false = some n → ∃ t, exec (.crcSecondRead (.link l) pe) s = .next t ∧
      jobOf t 5 l.val = some { j with phase := .reread n } ∧ SameBytes s t) ∧
    (txMismatch s j (k + 1) false = none → linkState s l.val ≠ 4 → ∃ t, exec (.crcSecondRead (.link l) pe) s = .next t ∧
      jobOf t 5 l.val = some { j with phase := .dataDone } ∧ SameBytes s t ∧ (t.link l.val).waiting = (s.link l.val).waiting ++ outMsgs s j) := by
  have he : exec (.crcSecondRead (.link l) pe) s = .next (txRun (txCleared s l.val j x.2.1) l.val j (k + 1) false) :=
    congrArg Host.Outcome.next ((linkReread_good hj hp hx hg).trans (if_neg (Bool.eq_false_iff.1 hs)))
  have hv : Sees s (txCleared s l.val j x.2.1) := sees_txCleared s l.val j x.2.1
  have hc := within_txCleared s l.val j x.2.1
  have hst := linkStates_txCleared s l.val j x.2.1 l.val l.isLt
  rw [← hv.txMismatch, ← hst]
  have hms : outMsgs (txCleared s l.val j x.2.1) j = outMsgs s j := by rw [outMsgs, outMsgs, hv.txMessages (hc.same .groups (by decide))]
  have hlink : (txCleared s l.val j x.2.1).link l.val = s.link l.val := link_same (hc.same .links (by decide)) _
  generalize txCleared s l.val j x.2.1 = w at *
  have hbytes {μ : Nat} {t : State} (h : Within μ w t) (hm : μ.testBit 4 = false) (hh : μ.testBit 6 = false) : SameBytes s t := fun a =>
    ⟨congrArg (tabGet 0 · a) ((bytes_of_memory (h.same .memory hm)).trans hv.bytes), congrArg (tabGet 0 · a) ((h.same .hostMemory hh).trans (hc.same .hostMemory (by decide)))⟩
  refine ⟨fun n hm => ?_, fun hm h4 => ?_⟩
  · rw [txRun_waits hm] at he
    have ha := within_addCause (putJob w 5 l.val { j with phase := .reread n }) (w.ctx j.ctx).part 6 (rereadKey 5 l.val) none (Within.refl _) (Sub.refl _)
    refine ⟨_, he, ?_, hbytes ((within_putJob w 5 l.val { j with phase := .reread n } (Within.refl w) (Sub.refl _)).trans ha rfl rfl : Within 8392704 _ _)
      (by decide) (by decide)⟩
    rw [jobOf_same (ha.same .engines (by decide)), jobOf_putJob]
  · have hg4 : linkState (txGiven w l.val j) l.val ≠ 4 := by
      rw [linkStates_of_same ((within_txGiven w l.val j).same .registers (by decide)) l.val l.isLt]
      exact h4
    have hrun := ((pump_still hg4).trans (txRun_sends hm) rfl rfl : Within 4096 _ _)
    obtain ⟨n, hgiven⟩ := link_txGiven w l.val j
    refine ⟨_, he, ?_, hbytes ((within_txGiven w l.val j).trans hrun rfl rfl : Within 41947136 _ _) (by decide) (by decide), ?_⟩
    · rw [jobOf_same (hrun.same .engines (by decide)), jobOf_txGiven]
    · rw [link_same (hrun.same .links (by decide)), hgiven, hlink, hms]

end
end

end Sys2Proof.Machine
end

section
/-! The statement about the link transmitters: LINK_TRANSMIT, LINK_TRANSMIT_ACKED, LINK_TX_WATCHDOG and CRC_SECOND_READ (R62, R63, R252, R273,
R274, R282, R381, R430). -/

namespace Sys2Proof.Machine

variable {s t u v : State}

/-! ### LINK_TRANSMIT_ACKED -/

/-- The state of a link whose descriptor's last flit is acknowledged: the flits up to it are let go (R274). -/
def ackState (s : State) (l : Nat) : State :=
  match (s.link l).lastData with
  | some q => if (s.link l).retry.any (fun f => f.seq == q) then pump (s.setLink l { s.link l with retry := unacked (s.link l) q, ackedSeq := q }) l else s
  | none => s

theorem within_ackState (s : State) (l : Nat) : Within 570429448 s (ackState s l) := by
  unfold ackState
  split
  · exact within_ite (within_pump _ _ (within_setLink _ _ _ (Within.refl s) rfl) rfl) (Within.refl s)
  · exact Within.refl s

/-- No flit with the acknowledged number stays in the retry buffer of a link with nothing more to send. -/
theorem ackState_frame {l : Nat} (hw : (s.link l).waiting = []) (hp : (s.link l).parts = []) :
    (∀ f ∈ ((ackState s l).link l).retry, (s.link l).lastData ≠ some f.seq) ∧ ((ackState s l).link l).txSeq = (s.link l).txSeq := by
  unfold ackState
  cases hq : (s.link l).lastData with
  | none => exact ⟨fun f _ e => (nomatch e), rfl⟩
  | some q =>
    dsimp only
    by_cases ha : (s.link l).retry.any (fun f => f.seq == q) = true
    · have hset : (s.setLink l { s.link l with retry := unacked (s.link l) q, ackedSeq := q }).link l =
          { s.link l with retry := unacked (s.link l) q, ackedSeq := q } := link_setLink _ _ _
      have hlink := link_same ((pump_empty (s := s.setLink l { s.link l with retry := unacked (s.link l) q, ackedSeq := q }) (l := l) (by rw [hset]; exact hw)
        (by rw [hset]; exact hp)).same .links (by decide)) l
      rw [if_pos ha, hlink, hset]
      refine ⟨fun f hf e => ?_, rfl⟩
      have hf := (List.mem_filter.1 hf).2
      rw [← Option.some.inj e] at hf
      have hz : (q + 65536 - q) % 65536 = 0 := by omega
      rw [hz] at hf
      exact Bool.false_ne_true hf
    · rw [if_neg ha]
      exact ⟨fun f hf e => ha (List.any_eq_true.2 ⟨f, hf, beq_iff_eq.2 (Option.some.inj e).symm⟩), rfl⟩

/-- What the end of a descriptor whose signals are taken leaves of the links. -/
theorem endDone_links {kind unit : Nat} {j : Job} (h : SignalsTake v j.bytes) : Area.links.same v (endDone v kind unit j) := by
  obtain ⟨w, ⟨hw, -⟩, -, -, hend⟩ := endCounted_takes (kind := kind) (unit := unit) h
  rw [endDone, hend id]
  exact Area.same_trans (hw.same .links (by decide)) (finishEntry_only w j.queue j.pos (jobRecord w j 0 0) .links (by decide))

theorem EndsSignalled.mono {i : Instr} {kind unit : Nat} {j : Job} {l l' : List Area} (h : EndsSignalled i s kind unit j l)
    (hl : ∀ a ∈ l, a ∈ storeAreas ++ [.engines, .queues, .tallies, .out] ++ l') : EndsSignalled i s kind unit j l' := by
  obtain ⟨h1, h2⟩ := h
  refine ⟨h1, fun hs => ?_⟩
  obtain ⟨t, hx, hj, hg, ho⟩ := h2 hs
  exact ⟨t, hx, hj, hg, ho.mono fun a ha => (List.mem_append.1 ha).elim (List.mem_append_left l') (hl a)⟩

section
variable {l : LinkId} {j : Job} (hj : jobOf s 5 l.val = some j)
include hj

theorem exec_acked (ha : ((j.phase == .dataDone) && !(s.link l.val).waiting.any (·.job) && !(s.link l.val).parts.any (·.job) && !unitHeld s 5 l.val) = true) :
    exec (.linkTransmitAcked l) s = .next (endDone (ackState s l.val) 5 l.val j) := by
  change execLinkTransmitAcked l s = _
  rw [execLinkTransmitAcked, linkAcked, hj]
  have hp : (decide (j.phase = .dataDone) && !(s.link l.val).waiting.any (·.job) && !(s.link l.val).parts.any (·.job) && !unitHeld s 5 l.val) = true := by
    simpa using ha
  exact congrArg Host.Outcome.next (if_pos hp)

theorem exec_unacked (ha : ((j.phase == .dataDone) && !(s.link l.val).waiting.any (·.job) && !(s.link l.val).parts.any (·.job) && !unitHeld s 5 l.val) = false) :
    exec (.linkTransmitAcked l) s = .next s := by
  change execLinkTransmitAcked l s = _
  rw [execLinkTransmitAcked, linkAcked, hj]
  have hp : ¬ (decide (j.phase = .dataDone) && !(s.link l.val).waiting.any (·.job) && !(s.link l.val).parts.any (·.job) && !unitHeld s 5 l.val) = true := by
    simpa using ha
  exact congrArg Host.Outcome.next (if_neg hp)

theorem acked_signalled (ha : ((j.phase == .dataDone) && !(s.link l.val).waiting.any (·.job) && !(s.link l.val).parts.any (·.job) && !unitHeld s 5 l.val) = true) :
    EndsSignalled (.linkTransmitAcked l) s 5 l.val j [.links] ∧ ((s.link l.val).waiting = [] → (s.link l.val).parts = [] → SignalsTake s j.bytes →
      ∃ t, exec (.linkTransmitAcked l) s = .next t ∧ (∀ f ∈ (t.link l.val).retry, (s.link l.val).lastData ≠ some f.seq) ∧
        (t.link l.val).txSeq = (s.link l.val).txSeq) := by
  have hx := exec_acked hj ha
  have hw := within_ackState s l.val
  have hm (c : Nat) : ((ackState s l.val).ctx c).marks = (s.ctx c).marks := by rw [ctx_same (hw.same .ctxs (by decide))]
  have hv : Only [.registers, .links, .out, .parts] s (ackState s l.val) := hw.only rfl
  refine ⟨(endsSignalled_after (count := id) hx hv hm (fun t => Only.refl _ t) (by decide) (by decide)).mono (by decide), fun hwait hparts hs => ?_⟩
  obtain ⟨h1, h2⟩ := ackState_frame hwait hparts
  have hl := link_same (endDone_links (kind := 5) (unit := l.val) (hs.kept (hv .tallies (by decide)) hm)) l.val
  exact ⟨_, hx, by rw [hl]; exact h1, by rw [hl]; exact h2⟩

theorem exec_txWatchdog (h4 : linkState s l.val = 4) :
    exec (.linkTxWatchdog l) s = .next (engineWatchdog (dropUnsent s l.val) 5 l.val j) := by
  change execLinkTxWatchdog l s = _
  rw [execLinkTxWatchdog, hj]
  exact congrArg Host.Outcome.next (if_pos h4)

theorem exec_txWatchdog_still (h4 : linkState s l.val ≠ 4) : exec (.linkTxWatchdog l) s = .next s := by
  change execLinkTxWatchdog l s = _
  rw [execLinkTxWatchdog, hj]
  exact congrArg Host.Outcome.next (if_neg h4)

end

theorem transmitter_idle {l : LinkId} (h : jobOf s 5 l.val = none) :
    exec (.linkTransmitAcked l) s = .next s ∧ exec (.linkTxWatchdog l) s = .next s := by
  constructor
  · change execLinkTransmitAcked l s = _
    rw [execLinkTransmitAcked, linkAcked, h]
  · change execLinkTxWatchdog l s = _
    rw [execLinkTxWatchdog, h]

/-! ### The statement -/

/-- LINK_TRANSMIT whose words are all delivered and whose buffer holds. -/
theorem exec_linkTransmit_runs {l : LinkId} {hits : List Hit} {pe : Bool} {rh : List Nat} {q c : Nat} {e : Entry}
    (h : Takes (upsetWords s hits) 5 l.val q c e) (hb : txBad (upsetWords s hits) l.val (txJob (upsetWords s hits) q c e) = false)
    (ho : ∀ r ∈ txRanges (upsetWords s hits) (txJob (upsetWords s hits) q c e), readOk (upsetWords s hits) c r.1 r.2 = true)
    (hc : Clean (upsetWords s hits) (txReads (upsetWords s hits) (txJob (upsetWords s hits) q c e))) :
    exec (.linkTransmit l hits pe ⟨false, rh⟩) s =
      .next (spoilRetry (txRun (txRead (upsetWords s hits) l.val q c e) l.val (txJob (upsetWords s hits) q c e) 0 pe) l.val rh) := by
  have hx : exec (.linkTransmit l hits pe ⟨false, rh⟩) s = .next (spoilRetry (linkTransmitOp l.val pe false (upsetWords s hits)) l.val rh) := rfl
  rw [hx, (linkTransmit_reads (pe := pe) (be := false) h hb ho).2 hc]
  rfl

/-- Settles O35, by the equations of the transmitter: its reads leave the links' states, a link that is not UP keeps the messages, one that is
UP cuts its only message into flits. -/
theorem linkTransmitters : Obligations.LinkTransmitters := by
  unfold Obligations.LinkTransmitters
  refine ⟨fun l hits pe be rh s q c e => ?transmit, fun l s j hj => ?running, fun l s h => transmitter_idle h⟩
  case transmit =>
    intro u i b j ok ms h
    have hx : exec i s = .next (spoilRetry (linkTransmitOp l.val pe be u) l.val rh) := rfl
    have hu : (u.ctx c).mode = (s.ctx c).mode := by rw [ctx_same (upsetWords_only s hits .ctxs (by decide))]
    obtain ⟨h1, h2, h3⟩ := linkTransmit_faults h hx hu
    refine ⟨h1, h2, h3, fun hb ho hc he => ?_⟩
    subst he
    have hx := exec_linkTransmit_runs (pe := pe) (rh := rh) h hb ho hc
    exact ⟨fun k hm => linkTransmit_waits hx hm, fun hm => ⟨fun h4 => linkTransmit_still h l.isLt hx hb hm h4,
      fun h4 hw hp hop hlen hcr hr => linkTransmit_up h l.isLt hx hb hm h4 hw hp hop hlen hcr hr⟩⟩
  case running =>
    intro x acked
    refine ⟨fun ha => acked_signalled hj ha, fun ha => exec_unacked hj ha, fun h4 => ?_, fun h4 => exec_txWatchdog_still hj h4,
      fun k y pe hp hy => ⟨linkSecond_bad hj hp hy, linkSecond_stopped hj hp hy, fun hg hs => linkSecond_runs hj hp hy hg hs⟩⟩
    refine endsFault_watchdog (exec_txWatchdog hj h4) ?_
    rw [ctx_same ((within_dropUnsent s l.val (Within.refl s) (Sub.refl _)).same .ctxs (by decide))]

end Sys2Proof.Machine
end

section
/-! The statement about the control messages and flits of a link: MSG_REFUSE, MSG_EPOCH_NOTICE, MSG_ABORT, EPOCH_GRACE_EXPIRY and FLIT_RECEIVE
(R271 to R274, R280, R282, R292, R294, R295, R428). -/

namespace Sys2Proof.Machine

variable {s t u : State} {l : Nat}

/-! ### Aborted groups -/

theorem mem_groupCtxs {c g : Nat} (ha : (s.ctx c).mode = .active) (hg : (s.ctx c).group = some g) : c ∈ groupCtxs s g :=
  mem_keysWhere (d := ({} : Ctx)) (show ((s.ctx c).mode == .active && (s.ctx c).group == some g) = true by simp [ha, hg]) rfl

theorem abortCtx_faulted {c : Nat} (epoch : Nat) (abort : Bool) (ha : (s.ctx c).mode = .active) : Faulted (abortCtx s c epoch abort) c 0x0F ∧
    ∀ k, k ≠ c → (abortCtx s c epoch abort).ctx k = s.ctx k := by
  have hp (k : Nat) : (postAborted s c epoch).ctx k = s.ctx k := ctx_same ((within_postAborted s c epoch (Within.refl s) (Sub.refl _)).same .ctxs (by decide)) k
  obtain ⟨h1, h2⟩ := stopContext_ctx (postAborted s c epoch) c 0x0F abort ((hp c).symm ▸ ha)
  have he : abortCtx s c epoch abort = stopContext (postAborted s c epoch) c 0x0F abort := by
    rw [abortCtx]
    exact if_neg (by simp [ha])
  rw [he]
  refine ⟨?_, fun k hk => (h2 k hk).trans (hp k)⟩
  rw [Faulted, h1]
  exact ⟨rfl, rfl⟩

theorem abortCtx_still {c : Nat} (epoch : Nat) (abort : Bool) (ha : (s.ctx c).mode ≠ .active) : abortCtx s c epoch abort = s := by
  rw [abortCtx]
  exact if_pos (by simpa using ha)

/-- The ACTIVE contexts of a list end aborted (R427). -/
theorem abortAll_faulted (l : List Nat) (epoch : Nat) (s : State) : ∀ c ∈ l, (s.ctx c).mode = .active →
    Faulted (forEach l s (fun c t => abortCtx t c epoch false)) c 0x0F := by
  induction l generalizing s with
  | nil => exact fun c hc => nomatch hc
  | cons k l ih =>
    intro c hc ha
    change Faulted (forEach l (abortCtx s k epoch false) (fun c t => abortCtx t c epoch false)) c 0x0F
    by_cases hk : c = k
    · subst hk
      exact (abortCtx_faulted epoch false ha).1.stays (stays_forEach l _ (fun _ _ => stays_abortCtx _ _ _ _) _)
    · refine ih _ c ((List.mem_cons.1 hc).resolve_left hk) ?_
      by_cases hm : (s.ctx k).mode = .active
      · rw [(abortCtx_faulted epoch false hm).2 c hk, ha]
      · rw [abortCtx_still epoch false hm, ha]

theorem abortGroup_faulted {c g : Nat} (epoch : Nat) (ha : (s.ctx c).mode = .active) (hg : (s.ctx c).group = some g) :
    Faulted (abortGroup s g epoch) c 0x0F := abortAll_faulted _ _ _ _ (mem_groupCtxs ha hg) ha

/-- An abort without ABORT of its own leaves the groups. -/
theorem abortCtx_groups (s : State) (c epoch : Nat) : Area.groups.same s (abortCtx s c epoch false) := by
  by_cases ha : (s.ctx c).mode = .active
  · have hp := within_postAborted s c epoch (Within.refl s) (Sub.refl _)
    have he : abortCtx s c epoch false = stopContext (postAborted s c epoch) c 0x0F false := by
      rw [abortCtx]
      exact if_neg (by simp [ha])
    rw [he, stopContext_eq _ _ _ _ (by rw [ctx_same (hp.same .ctxs (by decide)), ha])]
    have hs : Area.groups.same (postAborted s c epoch) (atStop (postAborted s c epoch) c false) := by
      have hw := (within_abandonTallies (postAborted s c epoch) c (Within.refl _) (Sub.refl _)).same .groups (by decide)
      unfold atStop
      split
      · exact hw
      · exact hw
    refine Area.same_trans (hp.same .groups (by decide)) (Area.same_trans hs ?_)
    exact Area.same_trans ((within_modCtx _ _ _ (Within.refl _) (Sub.refl _)).same .groups (by decide)) ((within_stopWork _ c).same .groups (by decide))
  · rw [abortCtx_still epoch false ha]
    rfl

theorem abortGroup_groups (s : State) (g epoch : Nat) : Area.groups.same s (abortGroup s g epoch) := by
  unfold abortGroup
  generalize groupCtxs s g = l
  induction l generalizing s with
  | nil => rfl
  | cons c l ih => exact Area.same_trans (abortCtx_groups s c epoch) (ih _)

/-- ABORT of a group at an epoch has been sent (R294). -/
theorem sendAbort_sent (s : State) (g epoch : Nat) : epoch ∈ ((sendAbort s g epoch).group g).abortSent := by
  unfold sendAbort
  dsimp only
  by_cases h : (s.group g).abortSent.contains epoch = true
  · rw [if_pos h]
    exact List.contains_iff_mem.1 h
  · rw [if_neg h]
    have hw : Within 570429448 (s.setGroup g { s.group g with abortSent := (s.group g).abortSent ++ [epoch] })
        ((forEach (setBits 64 (s.group g).mask.toNat) (s.setGroup g { s.group g with abortSent := (s.group g).abortSent ++ [epoch] })
          (fun l t => sendMsg t l (ctrlHeader 0x12 0 epoch g []) [])).bump fFltAbortSent 0 0 (setBits 64 (s.group g).mask.toNat).length) :=
      within_bump _ _ _ _ _ (within_forEach (Within.refl _) fun _ _ h => within_sendMsg _ _ _ _ h rfl) rfl
    rw [group_same (hw.same .groups (by decide)), group_setGroup]
    exact List.mem_append_right _ (.head _)

/-! ### Control messages -/

/-- The state in which a control message is taken: its time is noted and its slots are freed (R279, R295). -/
def ctrlTaken (s : State) (l : Nat) (h : List Byte) : State :=
  freeSlots (s.modLink l (fun x => { x with ctrl := ((s.link l).ctrl.filter (fun t => decide (s.now < t + 100000))) ++ [s.now] })) l h []

theorem within_ctrlTaken (s : State) (l : Nat) (h : List Byte) : Within 570425344 s (ctrlTaken s l h) :=
  within_freeSlots _ _ _ _ (within_modLink _ _ _ (Within.refl s) rfl) rfl

theorem Counted.from {f : RField} {i j m : Nat} (h : Counted t u f i j m) (hr : Area.registers.same s t) : Counted s u f i j m :=
  h.since (fld_congr hr f i j)

section
variable {h : List Byte} {type : Nat} {act : State → State}

theorem recvMsg1_still (ht : linkTakes s l = false) : recvMsg1 s l h type act = s := by
  rw [recvMsg1, ht]
  rfl

theorem recvMsg1_bad (ht : linkTakes s l = true) (hb : headerBad h = true ∨ hType h ≠ type) : recvMsg1 s l h type act = hostileEvent s l fLnkHostileMalformed := by
  rw [recvMsg1, ht]
  refine (if_neg Bool.false_ne_true).trans (if_pos ?_)
  rcases hb with hb | hb <;> simp [hb]

theorem recvMsg1_taken (ht : linkTakes s l = true) (hb : headerBad h = false) (hh : hType h = type) : recvMsg1 s l h type act =
    if 128 ≤ ((s.link l).ctrl.filter (fun t => decide (s.now < t + 100000))).length then hostileEvent (ctrlTaken s l h) l fLnkHostileCtrlFlood
    else act (ctrlTaken s l h) := by
  have hlen : (((s.link l).ctrl.filter (fun t => decide (s.now < t + 100000))) ++ [s.now]).length =
      ((s.link l).ctrl.filter (fun t => decide (s.now < t + 100000))).length + 1 := List.length_append
  rw [recvMsg1, ht]
  refine (if_neg Bool.false_ne_true).trans ((if_neg (by simp [hb, hh])).trans ?_)
  dsimp only
  rw [hlen]
  by_cases hf : 128 ≤ ((s.link l).ctrl.filter (fun t => decide (s.now < t + 100000))).length
  · exact (if_pos (Nat.lt_succ_of_le hf)).trans (if_pos hf).symm
  · exact (if_neg (by omega)).trans (if_neg hf).symm

/-- What a control message that is not taken leaves (R280, R295). -/
theorem recvMsg1_hostile (hl : l < 64) :
    (linkTakes s l = true → (headerBad h = true ∨ hType h ≠ type) → Counted s (recvMsg1 s l h type act) fLnkHostileMalformed (l / 8) (l % 8) 1 ∧
      Only [.registers, .functions, .links, .out] s (recvMsg1 s l h type act)) ∧
    (linkTakes s l = true → headerBad h = false → hType h = type → 128 ≤ ((s.link l).ctrl.filter (fun t => decide (s.now < t + 100000))).length →
      Counted s (recvMsg1 s l h type act) fLnkHostileCtrlFlood (l / 8) (l % 8) 1 ∧
      Only [.registers, .functions, .links, .out] s (recvMsg1 s l h type act)) := by
  refine ⟨fun ht hb => ?_, fun ht hb hh hf => ?_⟩
  · rw [recvMsg1_bad ht hb]
    obtain ⟨h1, -, h2⟩ := hostileEvent_frame s hl (f := fLnkHostileMalformed) rfl (by decide) (by decide)
    exact ⟨h1, h2⟩
  · rw [recvMsg1_taken ht hb hh, if_pos hf]
    obtain ⟨h1, -, h2⟩ := hostileEvent_frame (ctrlTaken s l h) hl (f := fLnkHostileCtrlFlood) rfl (by decide) (by decide)
    have hw := within_ctrlTaken s l h
    exact ⟨h1.from (hw.same .registers (by decide)), (hw.only rfl : Only [.links, .out] s _).trans h2 (by decide) (by decide)⟩

end

/-- A REFUSE is counted (R282). -/
theorem takeRefuse_frame (hl : l < 64) (h : List Byte) : Counted s (takeRefuse s l h) fLnkPeerRefusedByPartner (l / 8) (l % 8) 1 ∧
    Only [.registers, .functions] s (takeRefuse s l h) := by
  have hi := link_index hl
  have hc : Counted s (s.bump fLnkPeerRefusedByPartner (l / 8) (l % 8) 1) fLnkPeerRefusedByPartner (l / 8) (l % 8) 1 :=
    fld_bump_same s fLnkPeerRefusedByPartner _ _ 1 (by decide) (by decide)
  refine ⟨?_, (within_takeRefuse s l h (Within.refl s) (Sub.refl _)).only rfl⟩
  unfold takeRefuse
  dsimp only
  split
  · exact hc.kept ((regsBut_postPart (rs := [.mbxOutStatus]) _ _ _ _ (by decide)).fld (by decide) hi.1 hi.2)
  · exact hc

/-- The group that a notice names, after it (R292). -/
def noticed (x : Group) (epoch : Nat) : Group :=
  if x.present = true ∧ x.epoch < epoch then { x with passing := some (max epoch (x.passing.getD 0)) } else x

theorem takeNotice_frame (l : Nat) (h : List Byte) : Counted s (takeNotice s l h) fLnkPeerNotices (l / 8) (l % 8) 1 ∧
    (takeNotice s l h).group (hGroup h) = noticed (s.group (hGroup h)) (hEpoch h) ∧ (∀ g, g ≠ hGroup h → (takeNotice s l h).group g = s.group g) ∧
    Only [.registers, .groups] s (takeNotice s l h) := by
  have hc : Counted s (s.bump fLnkPeerNotices (l / 8) (l % 8) 1) fLnkPeerNotices (l / 8) (l % 8) 1 :=
    fld_bump_same s fLnkPeerNotices _ _ 1 (by decide) (by decide)
  have hg (k : Nat) : (s.bump fLnkPeerNotices (l / 8) (l % 8) 1).group k = s.group k := rfl
  refine ⟨?_, ?_, fun g hne => ?_, (within_takeNotice s l h (Within.refl s) (Sub.refl _)).only rfl⟩
  · unfold takeNotice
    dsimp only
    split
    · exact hc
    · exact hc
  · unfold takeNotice noticed
    dsimp only
    rw [hg]
    by_cases hp : (s.group (hGroup h)).present = true ∧ (s.group (hGroup h)).epoch < hEpoch h
    · rw [if_pos hp, if_pos (by simpa using hp), group_setGroup]
    · rw [if_neg hp, if_neg (by simpa using hp), hg]
  · unfold takeNotice
    dsimp only
    split
    · rw [group_setGroup_ne _ _ (Ne.symm hne), hg]
    · rw [hg]

end Sys2Proof.Machine
end

section
/-! The statement about the control messages and flits of a link: MSG_REFUSE, MSG_EPOCH_NOTICE, MSG_ABORT, EPOCH_GRACE_EXPIRY and FLIT_RECEIVE
(R271 to R274, R280, R282, R292, R294, R295, R428). -/

namespace Sys2Proof.Machine

variable {s t u : State} {l : Nat}

/-! ### ABORT -/

/-- An ABORT of a member link at the group's epoch or above. -/
def abortAccepted (x : Group) (l epoch : Nat) : Bool := x.present && bitOf x.mask.toNat l && decide (x.epoch ≤ epoch)

/-- The state in which an accepted ABORT has ended the group's contexts. -/
def abortTaken (s : State) (g epoch : Nat) : State := abortGroup (s.bump fFltAbortAccepted 0 0 1) g epoch

theorem takeAbort_accepted {h : List Byte} (ha : abortAccepted (s.group (hGroup h)) l (hEpoch h) = true) :
    takeAbort s l h = sendAbort (abortTaken s (hGroup h) (hEpoch h)) (hGroup h) (hEpoch h) := by
  rw [takeAbort]
  exact if_pos ha

theorem takeAbort_stale {h : List Byte} (ha : abortAccepted (s.group (hGroup h)) l (hEpoch h) = false) :
    takeAbort s l h = s.bump fLnkRefuseAStaleEpoch (l / 8) (l % 8) 1 := by
  rw [takeAbort]
  exact if_neg (Bool.eq_false_iff.1 ha)

/-- The contexts of a group whose ABORT is accepted end aborted, and the ABORT has been sent on (R294, R428). -/
theorem takeAbort_ends {h : List Byte} (ha : abortAccepted (s.group (hGroup h)) l (hEpoch h) = true) :
    hEpoch h ∈ ((takeAbort s l h).group (hGroup h)).abortSent ∧
    ∀ c, (s.ctx c).mode = .active → (s.ctx c).group = some (hGroup h) → Faulted (takeAbort s l h) c 0x0F := by
  rw [takeAbort_accepted ha]
  refine ⟨sendAbort_sent _ _ _, fun c hc hg => ?_⟩
  have hf : Faulted (abortTaken s (hGroup h) (hEpoch h)) c 0x0F := abortGroup_faulted (s := s.bump fFltAbortAccepted 0 0 1) _ hc hg
  exact hf.stays (stays_sendAbort _ _ _)

theorem takeAbort_counts {h : List Byte} (ha : abortAccepted (s.group (hGroup h)) l (hEpoch h) = false) :
    Counted s (takeAbort s l h) fLnkRefuseAStaleEpoch (l / 8) (l % 8) 1 ∧ Only [.registers] s (takeAbort s l h) := by
  rw [takeAbort_stale ha]
  exact ⟨fld_bump_same s fLnkRefuseAStaleEpoch _ _ 1 (by decide) (by decide), setFld_only _ _ _ _ _⟩

/-! ### The three control messages -/

/-- Control messages, by their type. -/
theorem exec_control (l : LinkId) (h : List Byte) (s : State) :
    exec (.msgRefuse l h) s = .next (recvMsg1 s l.val h 0x10 (fun t => takeRefuse t l.val h)) ∧
    exec (.msgEpochNotice l h) s = .next (recvMsg1 s l.val h 0x11 (fun t => takeNotice t l.val h)) ∧
    exec (.msgAbort l h) s = .next (recvMsg1 s l.val h 0x12 (fun t => takeAbort t l.val h)) := ⟨rfl, rfl, rfl⟩

section
variable {h : List Byte} {type : Nat} {act : State → State}

/-- A control message below the limit is taken (R280, R295). -/
theorem recvMsg1_acts (ht : linkTakes s l = true) (hb : headerBad h = false) (hh : hType h = type)
    (hf : ((s.link l).ctrl.filter (fun t => decide (s.now < t + 100000))).length < 128) : recvMsg1 s l h type act = act (ctrlTaken s l h) := by
  rw [recvMsg1_taken ht hb hh, if_neg (by omega)]

theorem group_ctrlTaken (s : State) (l : Nat) (h : List Byte) (g : Nat) : (ctrlTaken s l h).group g = s.group g :=
  group_same ((within_ctrlTaken s l h).same .groups (by decide)) g

theorem ctx_ctrlTaken (s : State) (l : Nat) (h : List Byte) (c : Nat) : (ctrlTaken s l h).ctx c = s.ctx c :=
  ctx_same ((within_ctrlTaken s l h).same .ctxs (by decide)) c

theorem ctrlTaken_registers (s : State) (l : Nat) (h : List Byte) : Area.registers.same s (ctrlTaken s l h) :=
  (within_ctrlTaken s l h).same .registers (by decide)

theorem ctrlTaken_only (s : State) (l : Nat) (h : List Byte) : Only [.links, .out] s (ctrlTaken s l h) := (within_ctrlTaken s l h).only rfl

end

/-! ### The end of a grace -/

theorem dropHeld_none (h : (s.link l).held = none) : dropHeld s l = s := by
  rw [dropHeld, h]

/-- The state in which a held message has been dropped. -/
def heldDropped (s : State) (l : Nat) (m : HeldMsg) : State :=
  freeSlots ((unhold s l m).bump fLnkRefuseAFutureDropped (l / 8) (l % 8) 1) l m.header m.data

/-- A transmitter's slots are freed in the link's totals alone (R279). -/
theorem link_freeSlots (s : State) (l : Nat) (h d : List Byte) : (freeSlots s l h d).link l =
    if chanOf h = 0 then { s.link l with freed0 := ((s.link l).freed0 + msgSlots d.length) % 65536 }
    else { s.link l with freed1 := ((s.link l).freed1 + msgSlots d.length) % 65536 } := by
  have hs (t : State) : (if linkState t l = 4 then sendIdle t l false else t).link l = t.link l := by
    split <;> rfl
  rw [freeSlots]
  dsimp only
  rw [hs, link_modLink]

theorem heldDropped_frame (s : State) (l : Nat) (m : HeldMsg) : ((heldDropped s l m).link l).held = none ∧
    ((heldDropped s l m).link l).behind = (s.link l).behind ∧ Counted s (heldDropped s l m) fLnkRefuseAFutureDropped (l / 8) (l % 8) 1 ∧
    Only [.registers, .links, .out] s (heldDropped s l m) := by
  have hu : ((unhold s l m).bump fLnkRefuseAFutureDropped (l / 8) (l % 8) 1).link l =
      { s.link l with held := none, inUse0 := (s.link l).inUse0 - msgSlots m.data.length } := by
    rw [State.bump, link_setFld, unhold, link_modLink]
  have hf := within_freeSlots ((unhold s l m).bump fLnkRefuseAFutureDropped (l / 8) (l % 8) 1) l m.header m.data (Within.refl _) (Sub.refl _)
  have hc : Counted s ((unhold s l m).bump fLnkRefuseAFutureDropped (l / 8) (l % 8) 1) fLnkRefuseAFutureDropped (l / 8) (l % 8) 1 :=
    fld_bump_same (unhold s l m) fLnkRefuseAFutureDropped _ _ 1 (by decide) (by decide)
  have hb : Within 33554440 s ((unhold s l m).bump fLnkRefuseAFutureDropped (l / 8) (l % 8) 1) :=
    within_bump _ _ _ _ _ (within_unhold _ _ _ (Within.refl s) rfl) rfl
  refine ⟨?_, ?_, hc.after (hf.same .registers (by decide)), (hb.trans hf rfl rfl : Within 570425352 s _).only rfl⟩
  · rw [heldDropped, link_freeSlots, hu]
    split <;> rfl
  · rw [heldDropped, link_freeSlots, hu]
    split <;> rfl

theorem dropHeld_some {m : HeldMsg} (h : (s.link l).held = some m) : dropHeld s l = drainLink (heldDropped s l m) l := by
  rw [dropHeld, h]
  rfl

/-- A held message with none behind it is dropped (R292). -/
theorem dropHeld_alone {m : HeldMsg} (h : (s.link l).held = some m) (hb : (s.link l).behind = []) : dropHeld s l = heldDropped s l m := by
  rw [dropHeld_some h, drainLink, (heldDropped_frame s l m).2.1, hb]
  rfl

/-! ### A group passed by -/

theorem passedBy_none {g : Nat} (h : (s.group g).passing = none) : passedBy s g = s := by
  unfold passedBy
  dsimp only
  rw [h]

/-- The state in which a group's wait has ended. -/
def waitEnded (s : State) (g : Nat) : State := s.setGroup g { s.group g with passing := none }

/-- The state in which a passing is posted and counted. -/
def passingPosted (s : State) (g : Nat) : State :=
  (postTo (waitEnded s g) ((groupParts (waitEnded s g) g).flatMap (partFns (waitEnded s g)) ++ [0]) 0xE9 g).bump fFltAbortLocal 0 0 1

theorem within_passingPosted (s : State) (g : Nat) : Within 136 (waitEnded s g) (passingPosted s g) :=
  within_bump _ _ _ _ _ (within_postTo _ _ _ _ (Within.refl _) rfl) rfl

theorem passedBy_some {g e : Nat} (h : (s.group g).passing = some e) : passedBy s g =
    if (s.group g).present && decide ((s.group g).epoch < e) then abortGroup (passingPosted s g) g e else waitEnded s g := by
  unfold passedBy
  dsimp only
  rw [h]
  rfl

/-- The end of a wait (R292, R427). -/
theorem passedBy_ends {g e : Nat} (h : (s.group g).passing = some e) : (passedBy s g).group g = { s.group g with passing := none } ∧
    ((s.group g).present = true → (s.group g).epoch < e → ∀ c, (s.ctx c).mode = .active → (s.ctx c).group = some g → Faulted (passedBy s g) c 0x0F) ∧
    (((s.group g).present = false ∨ e ≤ (s.group g).epoch) → Only [.groups] s (passedBy s g)) := by
  have hg : (waitEnded s g).group g = { s.group g with passing := none } := group_setGroup _ _ _
  have hp := within_passingPosted s g
  rw [passedBy_some h]
  refine ⟨?_, fun h1 h2 c hc hgr => ?_, fun hn => ?_⟩
  · split
    · rw [group_same (abortGroup_groups _ _ _), group_same (hp.same .groups (by decide)), hg]
    · exact hg
  · rw [if_pos (by simp [h1, h2])]
    have hctx : (passingPosted s g).ctx c = s.ctx c := (ctx_same (hp.same .ctxs (by decide)) c).trans rfl
    exact abortGroup_faulted e (by rw [hctx, hc]) (by rw [hctx, hgr])
  · rw [if_neg (by rcases hn with hn | hn <;> simp [hn])]
    exact (within_setGroup _ _ _ (Within.refl s) (Sub.refl _)).only rfl

end Sys2Proof.Machine
end

section
/-! The statement about the control messages and flits of a link: MSG_REFUSE, MSG_EPOCH_NOTICE, MSG_ABORT, EPOCH_GRACE_EXPIRY and FLIT_RECEIVE
(R271 to R274, R280, R282, R292, R294, R295, R428). -/

namespace Sys2Proof.Machine

variable {s t u : State} {l : Nat}

/-! ### Idle flits -/

/-- The idle flit of a link, which carries NAK or not, ACK and the credits (R272, R279). -/
def idleOf (s : State) (l : Nat) (nak : Bool) (ack : Nat) : SentFlit :=
  { lane := flitLane s l 0, kind := 0, nak := nak, seq := 0, ack := ack, first := 0xFFFF, credit0 := (s.link l).freed0,
    credit1 := (s.link l).freed1, payload := List.replicate flitPayload 0 }

theorem sendIdle_links (s : State) (l : Nat) (nak : Bool) :
    (sendIdle s l nak).out.links = s.out.links ++ [(l, idleOf s l nak (s.link l).rxSeq)] := rfl

theorem idleOf_congr {rs : List RegName} (hr : RegsBut rs s t) (hl : l < 64) (hs : RegName.lnkStatus ∉ rs) (h0 : (t.link l).freed0 = (s.link l).freed0)
    (h1 : (t.link l).freed1 = (s.link l).freed1) (nak : Bool) (ack : Nat) : idleOf t l nak ack = idleOf s l nak ack := by
  have hi := link_index hl
  have hf : flitLane t l 0 = flitLane s l 0 := by rw [flitLane, flitLane, hr.fld (f := fLnkStatusLanes) hs hi.1 hi.2]
  rw [idleOf, idleOf, hf, h0, h1]

/-- An idle flit after what leaves the link's lanes and its totals of freed slots. -/
theorem sendIdle_after {rs : List RegName} (hr : RegsBut rs s t) (ho : t.out = s.out) (hl : l < 64) (hs : RegName.lnkStatus ∉ rs)
    (h0 : (t.link l).freed0 = (s.link l).freed0) (h1 : (t.link l).freed1 = (s.link l).freed1) (nak : Bool) :
    (sendIdle t l nak).out.links = s.out.links ++ [(l, idleOf s l nak (t.link l).rxSeq)] := by
  rw [sendIdle_links, ho, idleOf_congr hr hl hs h0 h1]

theorem linkTakes_congr {rs : List RegName} (hr : RegsBut rs s t) (hl : l < 64) (hs : RegName.lnkStatus ∉ rs) : linkTakes t l = linkTakes s l := by
  rw [linkTakes, linkTakes, hr.linkState hl hs]

/-! ### A flit that is not accepted -/

/-- A link that has sent NAK, but for its counts of NAKs and of code words. -/
def nakked (x : Link) (ts : List Nat) (g : Bool) (row : Nat) (b : List (Nat × Nat)) : Link :=
  { x with nakSet := true, nakTimes := ts, gotRecord := g, nakRow := row, badWords := b }

theorem countNak_frame (s : State) (hl : l < 64) : RegsBut [.lnkRetry, .lnkStatus, .lnkTrain, .mbxOutStatus, .hltUnit] s (countNak s l) ∧
    ∃ ts g row b, (countNak s l).link l = { s.link l with nakTimes := ts, gotRecord := g, nakRow := row, badWords := b } := by
  have hi := link_index hl
  have hb : RegsBut [.lnkRetry, .lnkStatus, .lnkTrain, .mbxOutStatus, .hltUnit] s (s.bump fLnkRetryNaks (l / 8) (l % 8) 1) :=
    regsBut_bump s (f := fLnkRetryNaks) 1 (by decide) hi.1 hi.2
  have hx : (s.bump fLnkRetryNaks (l / 8) (l % 8) 1).link l = s.link l := link_setFld _ _ _ _ _ _
  unfold countNak
  dsimp only
  rw [hx]
  generalize s.bump fLnkRetryNaks (l / 8) (l % 8) 1 = t at hb hx
  generalize (s.link l).nakTimes.filter _ ++ [t.now] = ts
  have hm : (t.modLink l (fun x => { x with nakTimes := ts })).link l = { s.link l with nakTimes := ts } := by rw [link_modLink, hx]
  have hr := within_retryHold (t.modLink l (fun x => { x with nakTimes := ts })) l (Within.refl _) (Sub.refl _)
  have hv : RegsBut [.lnkRetry, .lnkStatus, .lnkTrain, .mbxOutStatus, .hltUnit] s (retryHold (t.modLink l (fun x => { x with nakTimes := ts })) l) :=
    (hb.trans (regsBut_of_same rfl)).trans (regsBut_of_same (hr.same .registers (by decide)))
  have hk := (link_same (hr.same .links (by decide)) l).trans hm
  generalize retryHold (t.modLink l (fun x => { x with nakTimes := ts })) l = v at hv hk
  split
  · refine ⟨hv.trans ((regsBut_startRetrain v hl).mono (by decide)), ?_⟩
    rw [link_startRetrain, hk]
    exact ⟨_, _, _, _, rfl⟩
  · exact ⟨hv, ts, _, _, _, hk⟩

/-- A flit that is not accepted is answered with NAK once (R274). -/
theorem rejectFlit_naks (hl : l < 64) (ht : linkTakes s l = true) (hn : (s.link l).nakSet = false) :
    (rejectFlit s l).out.links = s.out.links ++ [(l, idleOf s l true (s.link l).rxSeq)] ∧
    RegsBut [.lnkRetry, .lnkStatus, .lnkTrain, .mbxOutStatus, .hltUnit] s (rejectFlit s l) ∧
    ∃ ts g row b, (rejectFlit s l).link l = nakked (s.link l) ts g row b := by
  have he : rejectFlit s l = countNak (sendIdle (s.setLink l { s.link l with nakSet := true }) l true) l := by
    rw [rejectFlit]
    exact if_neg (by simp [hn, ht])
  have hx : (sendIdle (s.setLink l { s.link l with nakSet := true }) l true).link l = { s.link l with nakSet := true } := link_setLink _ _ _
  have hset : (s.setLink l { s.link l with nakSet := true }).link l = { s.link l with nakSet := true } := link_setLink _ _ _
  have ho := sendIdle_after (s := s) (t := s.setLink l { s.link l with nakSet := true }) (rs := []) (regsBut_of_same rfl) rfl hl (by decide)
    (by rw [hset]) (by rw [hset]) true
  rw [hset] at ho
  have hr : RegsBut [.lnkRetry, .lnkStatus, .lnkTrain, .mbxOutStatus, .hltUnit] s (sendIdle (s.setLink l { s.link l with nakSet := true }) l true) :=
    regsBut_of_same rfl
  rw [he]
  generalize sendIdle (s.setLink l { s.link l with nakSet := true }) l true = w at hx ho hr
  obtain ⟨h1, ts, g, row, b, h2⟩ := countNak_frame w hl
  refine ⟨?_, hr.trans h1, ts, g, row, b, ?_⟩
  · exact (congrArg Out.links (out_same ((within_countNak w l (Within.refl w) (Sub.refl _)).same .out (by decide)))).trans ho
  · rw [h2, hx]
    rfl

theorem rejectFlit_still (h : linkTakes s l = false ∨ (s.link l).nakSet = true) : rejectFlit s l = s := by
  rw [rejectFlit]
  exact if_pos (by rcases h with h | h <;> simp [h])

/-! ### A code word that is lost, and a flit that fails its CRC -/

/-- The count of a code word that was corrected. -/
def corrCounted (s : State) (l : Nat) (c : Bool) : State := if c then s.bump fLnkFecCorrCw (l / 8) (l % 8) 1 else s

/-- The state in which a flit has failed. -/
def flitFailed (s : State) (l lane : Nat) (decoded corrected : Bool) : State :=
  let t := (corrCounted s l (decoded && corrected)).bump fLnkFecUncorrCw (l / 8) (l % 8) 1
  if decoded then t else badWord t l lane

theorem corrCounted_frame (s : State) (hl : l < 64) (c : Bool) : RegsBut [.lnkFec] s (corrCounted s l c) ∧ (corrCounted s l c).link l = s.link l ∧
    (corrCounted s l c).fld fLnkFecUncorrCw (l / 8) (l % 8) = s.fld fLnkFecUncorrCw (l / 8) (l % 8) ∧ Within 8 s (corrCounted s l c) := by
  have hi := link_index hl
  have hw : Within 8 s (corrCounted s l c) := within_ite (within_bump _ _ _ _ _ (Within.refl s) (Sub.refl _)) (Within.refl s)
  refine ⟨regsBut_ite (regsBut_bump s (f := fLnkFecCorrCw) 1 (by decide) hi.1 hi.2) (RegsBut.refl s), link_same (hw.same .links (by decide)) l, ?_, hw⟩
  unfold corrCounted
  split
  · exact fld_bump_apart s _ _ 1 (by decide)
  · rfl

/-- Few code words of a lane were lost within the last millisecond. -/
def FewLost (s : State) (l lane : Nat) : Prop :=
  (((s.link l).badWords.filter (fun e => decide (s.now < e.2 + 1000000))).filter (fun e => e.1 == lane)).length < 16

/-- A lost code word is counted in the lane's health; few of them retire no lane (R288). -/
theorem badWord_few {lane : Nat} (h : FewLost s l lane) : badWord s l lane = healthEvent (s.modLink l (fun x => { x with
    badWords := (s.link l).badWords.filter (fun e => decide (s.now < e.2 + 1000000)) ++ [(lane, s.now)] })) (huLink l) 4 2 := by
  have hn : ¬ 16 < (((s.link l).badWords.filter (fun e => decide (s.now < e.2 + 1000000)) ++ [(lane, s.now)]).filter (fun e => e.1 == lane)).length := by
    rw [List.filter_append, List.length_append]
    have h1 : ([(lane, s.now)].filter (fun e => e.1 == lane)).length = 1 := by simp
    rw [h1]
    unfold FewLost at h
    omega
  rw [badWord]
  exact if_neg hn

theorem flitFailed_frame (s : State) (hl : l < 64) {lane : Nat} {decoded : Bool} (corrected : Bool) (h : decoded = false → FewLost s l lane) :
    Counted s (flitFailed s l lane decoded corrected) fLnkFecUncorrCw (l / 8) (l % 8) 1 ∧
    RegsBut [.lnkFec, .hltUnit, .mbxOutStatus] s (flitFailed s l lane decoded corrected) ∧
    (∃ b, (flitFailed s l lane decoded corrected).link l = { s.link l with badWords := b }) ∧
    Within 167772296 s (flitFailed s l lane decoded corrected) := by
  have hi := link_index hl
  obtain ⟨h1, h2, h3, h4⟩ := corrCounted_frame s hl (decoded && corrected)
  unfold flitFailed
  dsimp only
  have hc : Counted s ((corrCounted s l (decoded && corrected)).bump fLnkFecUncorrCw (l / 8) (l % 8) 1) fLnkFecUncorrCw (l / 8) (l % 8) 1 :=
    Counted.since (fld_bump_same _ fLnkFecUncorrCw _ _ 1 (by decide) (by decide)) h3
  have hr : RegsBut [.lnkFec, .hltUnit, .mbxOutStatus] s ((corrCounted s l (decoded && corrected)).bump fLnkFecUncorrCw (l / 8) (l % 8) 1) :=
    (h1.mono (by decide)).trans (regsBut_bump _ (f := fLnkFecUncorrCw) 1 (by decide) hi.1 hi.2)
  have hx : ((corrCounted s l (decoded && corrected)).bump fLnkFecUncorrCw (l / 8) (l % 8) 1).link l = s.link l := (link_setFld _ _ _ _ _ _).trans h2
  have hnow : ((corrCounted s l (decoded && corrected)).bump fLnkFecUncorrCw (l / 8) (l % 8) 1).now = s.now := by
    unfold corrCounted
    split <;> rfl
  have hw : Within 8 s ((corrCounted s l (decoded && corrected)).bump fLnkFecUncorrCw (l / 8) (l % 8) 1) := within_bump _ _ _ _ _ h4 rfl
  generalize (corrCounted s l (decoded && corrected)).bump fLnkFecUncorrCw (l / 8) (l % 8) 1 = t at hc hr hx hnow hw
  cases decoded with
  | true => exact ⟨hc, hr, ⟨_, hx⟩, (hw.trans (Within.refl t : Within 8 t t) rfl rfl : Within 167772296 s t)⟩
  | false =>
    have hf : FewLost t l lane := by
      have hf := h rfl
      rw [FewLost, ← hx, ← hnow] at hf
      exact hf
    have hu : huLink l < 1024 := by unfold huLink; omega
    rw [if_neg Bool.false_ne_true, badWord_few hf]
    generalize (t.link l).badWords.filter _ ++ _ = b
    have hh : RegsBut [.lnkFec, .hltUnit, .mbxOutStatus] t (healthEvent (t.modLink l (fun x => { x with badWords := b })) (huLink l) 4 2) :=
      RegsBut.trans (regsBut_of_same rfl) (regsBut_healthEvent _ 4 2 (by decide) (by decide) hu)
    have hn : (healthEvent (t.modLink l (fun x => { x with badWords := b })) (huLink l) 4 2).fld fLnkFecUncorrCw (l / 8) (l % 8) =
        t.fld fLnkFecUncorrCw (l / 8) (l % 8) :=
      (regsBut_healthEvent (rs := [.hltUnit, .mbxOutStatus]) _ 4 2 (by decide) (by decide) hu).fld (by decide) hi.1 hi.2
    have hm := within_healthEvent (t.modLink l (fun x => { x with badWords := b })) (huLink l) 4 2 (Within.refl _) (Sub.refl _)
    refine ⟨hc.kept hn, hr.trans hh, ⟨b, ?_⟩, ?_⟩
    · rw [link_same (hm.same .links (by decide)), link_modLink, hx]
    · exact within_healthEvent _ _ _ _ (within_modLink _ _ _ ((hw.trans (Within.refl t : Within 8 t t) rfl rfl : Within 167772296 s t)) rfl) rfl

end Sys2Proof.Machine
end

section
/-! The statement about the control messages and flits of a link: MSG_REFUSE, MSG_EPOCH_NOTICE, MSG_ABORT, EPOCH_GRACE_EXPIRY and FLIT_RECEIVE
(R271 to R274, R280, R282, R292, R294, R295, R428). -/

namespace Sys2Proof.Machine

variable {s t u : State} {l : Nat}

/-! ### A flit that is accepted -/

/-- A link after the ACK of a flit. -/
def ackedLink (x : Link) (ack : Nat) : Link :=
  if x.retry.any (fun f => f.seq == ack) || ack == x.ackedSeq then
    { x with retry := unacked x ack, ackedSeq := ack, retryBad := x.retryBad.filter (fun q => (unacked x ack).any (fun f => f.seq == q)) }
  else x

theorem ackedLink_frame (x : Link) (ack : Nat) : (∃ r a b, ackedLink x ack = { x with retry := r, ackedSeq := a, retryBad := b }) ∧
    (x.retry.any (fun f => f.seq == ack) = true → (ackedLink x ack).retry = unacked x ack) := by
  unfold ackedLink
  refine ⟨?_, fun h => by simp [h]⟩
  split
  · exact ⟨_, _, _, rfl⟩
  · exact ⟨x.retry, x.ackedSeq, x.retryBad, rfl⟩

theorem takeAck_frame (s : State) (l ack : Nat) : (takeAck s l ack).link l = ackedLink (s.link l) ack ∧ Within 33554432 s (takeAck s l ack) := by
  refine ⟨?_, within_takeAck s l ack (Within.refl s) (Sub.refl _)⟩
  unfold takeAck ackedLink
  dsimp only
  split
  · rw [link_setLink]
  · rfl

/-- A count of freed slots that agrees with the last one changes nothing (R279). -/
theorem takeCredit_even {c freed : Nat} (hc : c = 0 → freed = (s.link l).partnerFreed0 % 65536 ∧ (s.link l).partnerFreed0 ≤ (s.link l).sent0)
    (hc' : c ≠ 0 → freed = (s.link l).partnerFreed1 % 65536 ∧ (s.link l).partnerFreed1 ≤ (s.link l).sent1) :
    takeCredit s l c freed = s.setLink l (s.link l) := by
  unfold takeCredit
  dsimp only
  by_cases h : c = 0
  · obtain ⟨h1, h2⟩ := hc h
    have hm : (freed + 65536 - (s.link l).partnerFreed0 % 65536) % 65536 = 0 := by omega
    simp only [if_pos h, hm, Nat.add_zero, Nat.min_eq_right h2]
    exact if_neg (Nat.not_lt.2 h2)
  · obtain ⟨h1, h2⟩ := hc' h
    have hm : (freed + 65536 - (s.link l).partnerFreed1 % 65536) % 65536 = 0 := by omega
    simp only [if_neg h, hm, Nat.add_zero, Nat.min_eq_right h2]
    exact if_neg (Nat.not_lt.2 h2)

/-- The state of a link that has taken a flit's ACK and credits. -/
def flitTaken (s : State) (l : Nat) (b : List Byte) : State :=
  takeCredit (takeCredit (takeAck s l (fieldAt b 4 2)) l 0 (fieldAt b 8 2)) l 1 (fieldAt b 10 2)

/-- Credits that agree with the last ones leave the link as its ACK left it. -/
theorem flitTaken_frame {b : List Byte} (h0 : fieldAt b 8 2 = (s.link l).partnerFreed0 % 65536) (h1 : fieldAt b 10 2 = (s.link l).partnerFreed1 % 65536)
    (h2 : (s.link l).partnerFreed0 ≤ (s.link l).sent0) (h3 : (s.link l).partnerFreed1 ≤ (s.link l).sent1) :
    (flitTaken s l b).link l = ackedLink (s.link l) (fieldAt b 4 2) ∧ Within 33554432 s (flitTaken s l b) := by
  obtain ⟨ha, hw⟩ := takeAck_frame s l (fieldAt b 4 2)
  obtain ⟨⟨r, a, c, hx⟩, -⟩ := ackedLink_frame (s.link l) (fieldAt b 4 2)
  have e0 : takeCredit (takeAck s l (fieldAt b 4 2)) l 0 (fieldAt b 8 2) = (takeAck s l (fieldAt b 4 2)).setLink l ((takeAck s l (fieldAt b 4 2)).link l) :=
    takeCredit_even (fun _ => by rw [ha, hx]; exact ⟨h0, h2⟩) (fun h => absurd rfl h)
  have hk : ((takeAck s l (fieldAt b 4 2)).setLink l ((takeAck s l (fieldAt b 4 2)).link l)).link l = ackedLink (s.link l) (fieldAt b 4 2) :=
    (link_setLink _ _ _).trans ha
  have hw0 : Within 33554432 s ((takeAck s l (fieldAt b 4 2)).setLink l ((takeAck s l (fieldAt b 4 2)).link l)) := within_setLink _ _ _ hw rfl
  rw [flitTaken, e0]
  generalize (takeAck s l (fieldAt b 4 2)).setLink l ((takeAck s l (fieldAt b 4 2)).link l) = t at hk hw0
  rw [takeCredit_even (fun h => absurd h (by decide)) (fun _ => by rw [hk, hx]; exact ⟨h1, h3⟩)]
  exact ⟨(link_setLink _ _ _).trans hk, within_setLink _ _ _ hw0 rfl⟩

/-- A data flit without NAK that a link takes (R274). -/
theorem goodFlit_data {b : List Byte} {lost : List Nat} (hb : flitBad b = false) (ht : linkTakes s l = true) (h1 : fieldAt b 0 1 = 1)
    (hn : bitOf (fieldAt b 1 1) 0 = false) (hc : linkTakes (flitTaken s l b) l = true) :
    goodFlit s l b lost = pump (dataFlit (flitTaken s l b) l b lost) l := by
  unfold goodFlit
  dsimp only
  rw [hb, ht, ← flitTaken, hn, h1]
  simp only [Bool.false_and, Bool.false_eq_true, if_false, if_true, Bool.not_true, hc]

/-- A payload with nothing to take: no message begins in it, and none is under way. -/
theorem takePayload_empty {payload : List Byte} {lost : List Nat} (h : (s.link l).rxSync = false ∨ ((s.link l).rxStream = [] ∧ payload.all (· == 0) = true)) :
    takePayload s l 0xFFFF payload lost = s := by
  unfold takePayload
  dsimp only
  by_cases hs : (s.link l).rxSync = false
  · simp [hs]
  · obtain ⟨h1, h2⟩ := h.resolve_left hs
    have hf : firstOk [] payload 0xFFFF = true := by
      unfold firstOk msgEnd
      simpa using h2
    simp [hs, h1, hf]

/-- A flit in sequence that carries no message is answered with ACK (R274). -/
theorem dataFlit_next {b : List Byte} {lost : List Nat} (ht : linkTakes s l = true) (hq : fieldAt b 2 2 = ((s.link l).rxSeq + 1) % 65536)
    (hf : fieldAt b 6 2 = 0xFFFF) (hp : (s.link l).rxSync = false ∨ ((s.link l).rxStream = [] ∧ ((b.drop 16).take flitPayload).all (· == 0) = true)) :
    dataFlit s l b lost = sendIdle (s.setLink l { s.link l with rxSeq := fieldAt b 2 2, nakSet := false }) l false := by
  have hx : (s.setLink l { s.link l with rxSeq := fieldAt b 2 2, nakSet := false }).link l = { s.link l with rxSeq := fieldAt b 2 2, nakSet := false } :=
    link_setLink _ _ _
  have ht' : linkTakes (s.setLink l { s.link l with rxSeq := fieldAt b 2 2, nakSet := false }) l = true := ht
  rw [dataFlit]
  refine (if_pos hq).trans ?_
  dsimp only
  rw [hf, takePayload_empty (by rw [hx]; exact hp)]
  exact if_pos ht'

theorem dataFlit_other {b : List Byte} {lost : List Nat} (hq : fieldAt b 2 2 ≠ ((s.link l).rxSeq + 1) % 65536) : dataFlit s l b lost = rejectFlit s l := by
  rw [dataFlit]
  exact if_neg hq

end Sys2Proof.Machine
end

section
/-! The statement about the control messages and flits of a link: MSG_REFUSE, MSG_EPOCH_NOTICE, MSG_ABORT, EPOCH_GRACE_EXPIRY and FLIT_RECEIVE
(R271 to R274, R280, R282, R292, R294, R295, R428). -/

namespace Sys2Proof.Machine

variable {s t u : State}

/-! ### FLIT_RECEIVE -/

section
variable {l lane : Nat} {decoded corrected : Bool} {b : List Byte} {lost : List Nat}

theorem flitReceived_still (h : linkAlive s l = false) : flitReceived s l lane decoded corrected b lost = s := by
  rw [flitReceived, h]
  rfl

theorem flitReceived_failed (h : linkAlive s l = true) (hf : decoded = false ∨ flitCrcOk b = false) : flitReceived s l lane decoded corrected b lost =
    if linkTakes (flitFailed s l lane decoded corrected) l then rejectFlit (flitFailed s l lane decoded corrected) l
    else flitFailed s l lane decoded corrected := by
  rw [flitReceived, h]
  refine (if_neg Bool.false_ne_true).trans (if_pos ?_)
  rcases hf with hf | hf <;> simp [hf]

theorem flitReceived_good (h : linkAlive s l = true) (hd : decoded = true) (hc : flitCrcOk b = true) :
    flitReceived s l lane decoded corrected b lost = goodFlit (corrCounted s l (decoded && corrected)) l b lost := by
  rw [flitReceived, h]
  exact (if_neg Bool.false_ne_true).trans (if_neg (by simp [hd, hc]))

variable (hl : l < 64) (hfew : decoded = false → FewLost s l lane)
include hl hfew

theorem linkTakes_failed : linkTakes (flitFailed s l lane decoded corrected) l = linkTakes s l := by
  obtain ⟨-, h2, -, -⟩ := flitFailed_frame s hl corrected hfew
  exact linkTakes_congr h2 hl (by decide)

/-- A flit that fails is answered with NAK once (R274). -/
theorem failed_naks (h : linkAlive s l = true) (hf : decoded = false ∨ flitCrcOk b = false) (ht : linkTakes s l = true)
    (hn : (s.link l).nakSet = false) :
    let t := flitReceived s l lane decoded corrected b lost
    t.out.links = s.out.links ++ [(l, idleOf s l true (s.link l).rxSeq)] ∧ (t.link l).nakSet = true ∧ (t.link l).rxSeq = (s.link l).rxSeq ∧
    Counted s t fLnkFecUncorrCw (l / 8) (l % 8) 1 ∧ Only [.registers, .functions, .care, .parts, .links, .out] s t := by
  intro t
  have hi := link_index hl
  obtain ⟨h1, h2, ⟨w, h3⟩, h4⟩ := flitFailed_frame s hl corrected hfew
  have htf : linkTakes (flitFailed s l lane decoded corrected) l = true := (linkTakes_failed hl hfew).trans ht
  have he : t = rejectFlit (flitFailed s l lane decoded corrected) l := (flitReceived_failed h hf).trans (if_pos htf)
  obtain ⟨r1, r2, ts, g, row, bw, r3⟩ := rejectFlit_naks hl htf (by rw [h3]; exact hn)
  have hr := within_rejectFlit (flitFailed s l lane decoded corrected) l (Within.refl _) (Sub.refl _)
  rw [he]
  refine ⟨?_, ?_, ?_, h1.kept (r2.fld (by decide) hi.1 hi.2), (h4.trans hr rfl rfl : Within 704647304 s _).only rfl⟩
  · rw [r1, h3, idleOf_congr h2 hl (by decide) (by rw [h3]) (by rw [h3]), out_same (h4.same .out (by decide))]
  · rw [r3]
    rfl
  · rw [r3, h3]
    rfl

/-- A flit that fails is counted alone where NAK is set already, or the link takes none. -/
theorem failed_counted (h : linkAlive s l = true) (hf : decoded = false ∨ flitCrcOk b = false) (hn : linkTakes s l = false ∨ (s.link l).nakSet = true) :
    let t := flitReceived s l lane decoded corrected b lost
    t.out = s.out ∧ Counted s t fLnkFecUncorrCw (l / 8) (l % 8) 1 ∧ Only [.registers, .functions, .care, .links] s t := by
  intro t
  obtain ⟨h1, -, ⟨w, h3⟩, h4⟩ := flitFailed_frame s hl corrected hfew
  have he : t = flitFailed s l lane decoded corrected := by
    refine (flitReceived_failed h hf).trans ?_
    by_cases ht : linkTakes (flitFailed s l lane decoded corrected) l = true
    · refine (if_pos ht).trans (rejectFlit_still (.inr ?_))
      rw [linkTakes_failed hl hfew] at ht
      rw [h3]
      exact hn.resolve_left (by simp [ht])
    · exact if_neg ht
  rw [he]
  exact ⟨out_same (h4.same .out (by decide)), h1, h4.only rfl⟩

end

section
variable {l : Nat} {b : List Byte} {lost : List Nat} (hl : l < 64) (c : Bool)

/-- A flit that a link does not take. -/
theorem goodFlit_still (hb : flitBad b = false) (ht : linkTakes s l = false) (h2 : fieldAt b 0 1 ≠ 2) : goodFlit s l b lost = s := by
  unfold goodFlit
  dsimp only
  rw [hb, ht]
  simp [h2]

variable (hb : flitBad b = false) (ht : linkTakes s l = true) (h1 : fieldAt b 0 1 = 1) (hn : bitOf (fieldAt b 1 1) 0 = false)
  (he0 : fieldAt b 8 2 = (s.link l).partnerFreed0 % 65536) (he1 : fieldAt b 10 2 = (s.link l).partnerFreed1 % 65536)
  (hs0 : (s.link l).partnerFreed0 ≤ (s.link l).sent0) (hs1 : (s.link l).partnerFreed1 ≤ (s.link l).sent1)
  (hw : (s.link l).waiting = []) (hp : (s.link l).parts = [])
include hl hb ht h1 hn he0 he1 hs0 hs1

/-- The state of a data flit's link once ACK and credits are taken. -/
theorem data_taken : ∃ v, goodFlit (corrCounted s l c) l b lost = pump (dataFlit v l b lost) l ∧
    v.link l = ackedLink (s.link l) (fieldAt b 4 2) ∧ linkTakes v l = true ∧ RegsBut [.lnkFec] s v ∧ v.out = s.out ∧ Within 33554440 s v := by
  obtain ⟨c1, c2, -, c4⟩ := corrCounted_frame s hl c
  have ht' : linkTakes (corrCounted s l c) l = true := (linkTakes_congr c1 hl (by decide)).trans ht
  obtain ⟨f1, f2⟩ := flitTaken_frame (s := corrCounted s l c) (l := l) (b := b) (by rw [c2]; exact he0) (by rw [c2]; exact he1) (by rw [c2]; exact hs0)
    (by rw [c2]; exact hs1)
  have hv : RegsBut [.lnkFec] (corrCounted s l c) (flitTaken (corrCounted s l c) l b) := regsBut_of_same (f2.same .registers (by decide))
  have hvt : linkTakes (flitTaken (corrCounted s l c) l b) l = true := (linkTakes_congr hv hl (by decide)).trans ht'
  have hw := (c4.trans f2 rfl rfl : Within 33554440 s _)
  exact ⟨_, goodFlit_data hb ht' h1 hn hvt, by rw [f1, c2], hvt, c1.trans hv, out_same (hw.same .out (by decide)), hw⟩

include hw hp

/-- A flit in sequence that carries no message is answered with ACK (R274). -/
theorem data_next (hq : fieldAt b 2 2 = ((s.link l).rxSeq + 1) % 65536) (hf : fieldAt b 6 2 = 0xFFFF)
    (hpay : (s.link l).rxSync = false ∨ ((s.link l).rxStream = [] ∧ ((b.drop 16).take flitPayload).all (· == 0) = true)) :
    let t := goodFlit (corrCounted s l c) l b lost
    (t.link l).rxSeq = fieldAt b 2 2 ∧ (t.link l).nakSet = false ∧ t.out.links = s.out.links ++ [(l, idleOf s l false (fieldAt b 2 2))] ∧
    ((s.link l).retry.any (fun f => f.seq == fieldAt b 4 2) = true → (t.link l).retry = unacked (s.link l) (fieldAt b 4 2)) ∧
    Only [.registers, .links, .out, .parts] s t := by
  intro t
  obtain ⟨v, e1, e2, e3, e4, e5, e6⟩ := data_taken (lost := lost) hl c hb ht h1 hn he0 he1 hs0 hs1
  obtain ⟨⟨r, a, rb, hx⟩, hr⟩ := ackedLink_frame (s.link l) (fieldAt b 4 2)
  rw [hx] at e2
  rw [dataFlit_next e3 (by rw [e2]; exact hq) hf (by rw [e2]; exact hpay)] at e1
  have hset : (v.setLink l { v.link l with rxSeq := fieldAt b 2 2, nakSet := false }).link l = { v.link l with rxSeq := fieldAt b 2 2, nakSet := false } :=
    link_setLink _ _ _
  have hout := sendIdle_after (s := s) (t := v.setLink l { v.link l with rxSeq := fieldAt b 2 2, nakSet := false }) (l := l) (rs := [.lnkFec])
    (e4.trans (regsBut_of_same rfl)) e5 hl (by decide) (by rw [hset, e2]) (by rw [hset, e2]) false
  have hi : (sendIdle (v.setLink l { v.link l with rxSeq := fieldAt b 2 2, nakSet := false }) l false).link l =
      { v.link l with rxSeq := fieldAt b 2 2, nakSet := false } := hset
  have hwi : Within 570425352 s (sendIdle (v.setLink l { v.link l with rxSeq := fieldAt b 2 2, nakSet := false }) l false) :=
    within_sendIdle _ _ _ (within_setLink _ _ _ ((e6.trans (Within.refl v : Within 8 v v) rfl rfl : Within 570425352 s v)) rfl) rfl
  rw [hset] at hout
  generalize sendIdle (v.setLink l { v.link l with rxSeq := fieldAt b 2 2, nakSet := false }) l false = w at e1 hout hi hwi
  have hpump := pump_empty (s := w) (l := l) (by rw [hi, e2]; exact hw) (by rw [hi, e2]; exact hp)
  have hlink := (link_same (hpump.same .links (by decide)) l).trans hi
  have hte : t = pump w l := e1
  rw [hte, hlink, out_same (hpump.same .out (by decide))]
  refine ⟨rfl, rfl, hout, fun h => ?_, (hwi.trans hpump rfl rfl : Within 570429448 s _).only rfl⟩
  have := hr h
  rw [hx] at this
  rw [e2]
  exact this

/-- A flit out of sequence is answered with NAK once (R274). -/
theorem data_other (hq : fieldAt b 2 2 ≠ ((s.link l).rxSeq + 1) % 65536) (hnak : (s.link l).nakSet = false) :
    let t := goodFlit (corrCounted s l c) l b lost
    t.out.links = s.out.links ++ [(l, idleOf s l true (s.link l).rxSeq)] ∧ (t.link l).nakSet = true ∧ (t.link l).rxSeq = (s.link l).rxSeq ∧
    Only [.registers, .functions, .care, .parts, .links, .out] s t := by
  intro t
  obtain ⟨v, e1, e2, e3, e4, e5, e6⟩ := data_taken (lost := lost) hl c hb ht h1 hn he0 he1 hs0 hs1
  obtain ⟨⟨r, a, rb, hx⟩, -⟩ := ackedLink_frame (s.link l) (fieldAt b 4 2)
  rw [hx] at e2
  rw [dataFlit_other (by rw [e2]; exact hq)] at e1
  obtain ⟨r1, -, ts, g, row, bw, r3⟩ := rejectFlit_naks hl e3 (by rw [e2]; exact hnak)
  have hr := within_rejectFlit v l (Within.refl _) (Sub.refl _)
  have hpump := pump_empty (s := rejectFlit v l) (l := l) (by rw [r3, e2]; exact hw) (by rw [r3, e2]; exact hp)
  have hlink := link_same (hpump.same .links (by decide)) l
  have hte : t = pump (rejectFlit v l) l := e1
  rw [hte, hlink, out_same (hpump.same .out (by decide)), r3]
  refine ⟨?_, rfl, by rw [e2]; rfl, ((e6.trans hr rfl rfl : Within 704647304 s _).trans hpump rfl rfl : Within 704647304 s _).only rfl⟩
  rw [r1, e5, e2, idleOf_congr e4 hl (by decide) (by rw [e2]) (by rw [e2])]

end

/-! ### The statement -/

/-- Settles O37, by the checks that control messages share, the end of a grace, and the fate of a flit. -/
theorem controlMessagesAndFlits : Obligations.ControlMessagesAndFlits := by
  unfold Obligations.ControlMessagesAndFlits
  refine ⟨fun l h s i type hi => ?control, fun l s => ?held, fun g s => ?passed, fun l lane decoded corrected b bad s => ?flit⟩
  case control =>
    intro recent
    obtain ⟨x1, x2, x3⟩ := exec_control l h s
    have hreg := ctrlTaken_registers s l.val h
    have honly := ctrlTaken_only s l.val h
    have hx : ∃ act, exec i s = .next (recvMsg1 s l.val h type act) := by
      rcases hi with ⟨rfl, rfl⟩ | ⟨rfl, rfl⟩ | ⟨rfl, rfl⟩
      · exact ⟨_, x1⟩
      · exact ⟨_, x2⟩
      · exact ⟨_, x3⟩
    refine ⟨fun ht => ?_, fun ht hb => ?_, fun ht hb hh hf => ?_, fun ht hb hh hf => ⟨fun hty => ?_, fun hty => ?_, fun hty hp hm he => ?_, fun hty hst => ?_⟩⟩
    · obtain ⟨act, hx⟩ := hx
      rw [hx, recvMsg1_still ht]
    · obtain ⟨act, hx⟩ := hx
      exact ⟨_, hx, (recvMsg1_hostile l.isLt).1 ht hb⟩
    · obtain ⟨act, hx⟩ := hx
      exact ⟨_, hx, (recvMsg1_hostile l.isLt).2 ht hb hh hf⟩
    · subst hty
      obtain ⟨-, rfl⟩ := hi.resolve_right (by simp)
      rw [recvMsg1_acts ht hb hh hf] at x1
      obtain ⟨c1, c2⟩ := takeRefuse_frame (s := ctrlTaken s l.val h) l.isLt h
      exact ⟨_, x1, c1.from hreg, honly.trans c2 (by decide) (by decide)⟩
    · subst hty
      obtain ⟨-, rfl⟩ := (hi.resolve_left (by simp)).resolve_right (by simp)
      rw [recvMsg1_acts ht hb hh hf] at x2
      obtain ⟨c1, c2, c3, c4⟩ := takeNotice_frame (s := ctrlTaken s l.val h) l.val h
      exact ⟨_, x2, c1.from hreg, c2.trans (by rw [group_ctrlTaken]; rfl), fun g hg => (c3 g hg).trans (group_ctrlTaken _ _ _ _),
        honly.trans c4 (by decide) (by decide)⟩
    · subst hty
      obtain ⟨-, rfl⟩ := (hi.resolve_left (by simp)).resolve_left (by simp)
      rw [recvMsg1_acts ht hb hh hf] at x3
      obtain ⟨c1, c2⟩ := takeAbort_ends (s := ctrlTaken s l.val h) (l := l.val) (h := h) (by
        rw [group_ctrlTaken, abortAccepted, hp, hm, decide_eq_true he]
        rfl)
      exact ⟨_, x3, c1, fun c hc hg => c2 c (by rw [ctx_ctrlTaken, hc]) (by rw [ctx_ctrlTaken, hg])⟩
    · subst hty
      obtain ⟨-, rfl⟩ := (hi.resolve_left (by simp)).resolve_left (by simp)
      rw [recvMsg1_acts ht hb hh hf] at x3
      obtain ⟨c1, c2⟩ := takeAbort_counts (s := ctrlTaken s l.val h) (l := l.val) (h := h) (by
        rw [group_ctrlTaken, abortAccepted]
        rcases hst with hst | hst | hst <;> simp [hst])
      exact ⟨_, x3, c1.from hreg, honly.trans c2 (by decide) (by decide)⟩
  case held =>
    refine ⟨fun hn => congrArg Host.Outcome.next (dropHeld_none hn), fun m hm => ⟨⟨_, rfl⟩, fun hb => ?_⟩⟩
    obtain ⟨c1, -, c3, c4⟩ := heldDropped_frame s l.val m
    exact ⟨_, congrArg Host.Outcome.next (dropHeld_alone hm hb), c1, c3, c4⟩
  case passed =>
    exact ⟨fun hn => congrArg Host.Outcome.next (passedBy_none hn), fun e he => ⟨_, rfl, passedBy_ends he⟩⟩
  case flit =>
    intro i x idle few
    have hx : exec i s = .next (flitReceived s l.val lane.val decoded corrected b bad) := rfl
    refine ⟨fun ha => ?_, fun ha hf => ?_, fun ha hd hc hb => ⟨fun ht h2 => ?_, fun ht h1 hn he0 he1 hs0 hs1 hw hp => ⟨fun hq hf hpay => ?_, fun hq hk => ?_⟩⟩⟩
    · rw [hx, flitReceived_still ha]
    · have hfew : decoded = false → FewLost s l.val lane.val := fun hd => (hf.resolve_right fun h => by simp [hd] at h).2
      have hf' : decoded = false ∨ flitCrcOk b = false := hf.imp And.left And.right
      exact ⟨fun ht hn => ⟨_, hx, failed_naks l.isLt hfew ha hf' ht hn⟩, fun hn => ⟨_, hx, failed_counted l.isLt hfew ha hf' hn⟩⟩
    · rw [flitReceived_good ha hd hc] at hx
      obtain ⟨c1, -, -, c4⟩ := corrCounted_frame s l.isLt (decoded && corrected)
      rw [goodFlit_still hb ((linkTakes_congr c1 l.isLt (by decide)).trans ht) h2] at hx
      exact ⟨_, hx, c4.only rfl⟩
    · rw [flitReceived_good ha hd hc] at hx
      exact ⟨_, hx, data_next l.isLt _ hb ht h1 hn he0 he1 hs0 hs1 hw hp hq hf hpay⟩
    · rw [flitReceived_good ha hd hc] at hx
      exact ⟨_, hx, data_other l.isLt _ hb ht h1 hn he0 he1 hs0 hs1 hw hp hq hk⟩

end Sys2Proof.Machine
end

section
/-! The statement about MSG_WRITE and MSG_BLOCK (R61, R62, R251, R267, R273, R278 to R281, R291, R292, R424). -/

namespace Sys2Proof.Machine

variable {s t u : State} {l : Nat} {h data : List Byte} {bad : List Nat}

/-! ### Before the checks of a destination -/

theorem recvMsg0_still (ht : linkTakes s l = false) : recvMsg0 s l h data bad = s := by
  rw [recvMsg0, ht]
  rfl

theorem recvMsg0_malformed (ht : linkTakes s l = true) (hg : ¬ (headerBad h = false ∧ hLength h = data.length)) :
    recvMsg0 s l h data bad = hostileEvent s l fLnkHostileMalformed := by
  have hc : (headerBad h || decide (hLength h ≠ data.length)) = true := by
    by_cases hb : headerBad h = true
    · rw [hb, Bool.true_or]
    · rw [Bool.not_eq_true] at hb
      have hd : hLength h ≠ data.length := fun he => hg ⟨hb, he⟩
      simp [hd]
  rw [recvMsg0, ht]
  exact (if_neg Bool.false_ne_true).trans (if_pos hc)

theorem recvMsg0_good (ht : linkTakes s l = true) (hb : headerBad h = false) (hlen : hLength h = data.length) : recvMsg0 s l h data bad =
    if overCredit s l data then sendRefuse (freeSlots (hostileEvent s l fLnkHostileCreditViolation) l h data) l 1 h else takeMsg0 s l h data bad := by
  have hc : ¬ (headerBad h || decide (hLength h ≠ data.length)) = true := by simp [hb, hlen]
  rw [recvMsg0, ht]
  exact (if_neg Bool.false_ne_true).trans (if_neg hc)

theorem recvMsg0_head (ht : linkTakes s l = true) (hb : headerBad h = false) (hlen : hLength h = data.length) (ho : overCredit s l data = false)
    (hh : (s.link l).held = none) (hbe : (s.link l).behind = []) (hr : recvOpen s l = true) : recvMsg0 s l h data bad = headMsg s l h data bad := by
  rw [recvMsg0_good ht hb hlen, ho, takeMsg0, hh, hbe, hr]
  rfl

/-- A message of channel 0 that is taken while another waits, or outside the receiver's window (R251, R281). -/
theorem recvMsg0_parks (ht : linkTakes s l = true) (hb : headerBad h = false) (hlen : hLength h = data.length) (ho : overCredit s l data = false)
    (hw : ((s.link l).held.isSome || !(s.link l).behind.isEmpty || !recvOpen s l) = true) : recvMsg0 s l h data bad = park s l ⟨h, data, bad⟩ false := by
  rw [recvMsg0_good ht hb hlen, ho, takeMsg0, if_pos hw]
  rfl

/-- Data messages travel on channel 0 (R278). -/
theorem chanOf_data (h1 : hType h = 1 ∨ hType h = 2) : chanOf h = 0 := by
  unfold hType at h1
  unfold chanOf
  rcases h1 with h1 | h1 <;> rw [h1] <;> rfl

theorem hType_of_good (hb : headerBad h = false) (hn : hType h ∉ [0x10, 0x11, 0x12]) : hType h = 1 ∨ hType h = 2 := by
  unfold headerBad at hb
  dsimp only at hb
  by_contra hc
  have h1 : hType h ≠ 1 := fun e => hc (.inl e)
  have h2 : hType h ≠ 2 := fun e => hc (.inr e)
  have h3 : ¬ within 0x10 0x12 (hType h) = true := by
    simp only [List.mem_cons, List.not_mem_nil, or_false, not_or] at hn
    simp only [within, Bool.and_eq_true, decide_eq_true_eq]
    omega
  rw [if_neg h1, if_neg h2, if_neg h3, Bool.or_true] at hb
  exact Bool.false_ne_true hb.symm

/-! ### Refusals and slots -/

/-- REFUSE as a message that waits on a link. -/
def refusal0 (cause : Nat) (h : List Byte) : OutMsg := { header := ctrlHeader 0x10 cause (hEpoch h) 0 ((h.drop 12).take 8), data := [] }

/-- The state in which REFUSE waits on its link. -/
def refuseGiven (s : State) (l cause : Nat) (h : List Byte) : State := s.modLink l (fun x => { x with waiting := x.waiting ++ [refusal0 cause h] })

theorem sendRefuse_eq (s : State) (l cause : Nat) (h : List Byte) : sendRefuse s l cause h = pump (refuseGiven s l cause h) l := rfl

theorem link_refuseGiven (s : State) (l cause : Nat) (h : List Byte) :
    (refuseGiven s l cause h).link l = { s.link l with waiting := (s.link l).waiting ++ [refusal0 cause h] } := link_modLink _ _ _

theorem sendRefuse_frame (s : State) (hl : l < 64) (cause : Nat) (h : List Byte) : RegsBut [.lnkTxBytes] s (sendRefuse s l cause h) ∧
    (((sendRefuse s l cause h).link l).freed0 = (s.link l).freed0) ∧
    (linkState s l ≠ 4 → ((sendRefuse s l cause h).link l).waiting = (s.link l).waiting ++ [refusal0 cause h]) ∧
    Within 570429448 s (sendRefuse s l cause h) := by
  have hp := pumped_pump (refuseGiven s l cause h) hl
  rw [sendRefuse_eq]
  refine ⟨RegsBut.trans (regsBut_of_same rfl) hp.2, ?_, fun h4 => ?_, ?_⟩
  · rw [hp.link_get Link.freed0 fun _ => rfl, link_refuseGiven]
  · have hst := pump_still (s := refuseGiven s l cause h) (l := l) h4
    rw [link_same (hst.same .links (by decide)) l, link_refuseGiven]
  · exact within_pump _ _ (within_modLink _ _ _ (Within.refl s) rfl) rfl

theorem freeSlots_frame (s : State) (l : Nat) (data : List Byte) (hc : chanOf h = 0) : Area.registers.same s (freeSlots s l h data) ∧
    (freeSlots s l h data).link l = { s.link l with freed0 := ((s.link l).freed0 + msgSlots data.length) % 65536 } ∧
    Within 570425344 s (freeSlots s l h data) := by
  have hw := within_freeSlots s l h data (Within.refl s) (Sub.refl _)
  refine ⟨hw.same .registers (by decide), ?_, hw⟩
  rw [link_freeSlots]
  exact if_pos hc

/-- A hostile event leaves the totals of freed slots (R296). -/
theorem freed_hostileEvent (s : State) (l : Nat) (f : RField) : ((hostileEvent s l f).link l).freed0 = (s.link l).freed0 := by
  have hb : (s.bump f (l / 8) (l % 8) 1).link l = s.link l := link_setFld _ _ _ _ _ _
  unfold hostileEvent
  dsimp only
  generalize List.filter _ _ ++ _ = ts
  have hm : (((s.bump f (l / 8) (l % 8) 1).modLink l (fun x => { x with hostile := ts })).link l).freed0 = (s.link l).freed0 := by
    rw [link_modLink, hb]
  split
  · refine Eq.trans ?_ hm
    generalize (s.bump f (l / 8) (l % 8) 1).modLink l (fun x => { x with hostile := ts }) = t
    unfold fenceLink
    dsimp only
    rw [link_same ((within_sendKind _ _ _ (Within.refl _) (Sub.refl _)).same .links (by decide)),
      link_same ((within_postBoth _ _ _ _ (Within.refl _) (Sub.refl _)).same .links (by decide)), link_modLink, link_setFld, link_setLinkState]
  · exact hm

/-- A message beyond the credit is a hostile event; its slots count as freed (R279, R295). -/
theorem overCredit_frame (hl : l < 64) (hc : chanOf h = 0) :
    let t := sendRefuse (freeSlots (hostileEvent s l fLnkHostileCreditViolation) l h data) l 1 h
    Counted s t fLnkHostileCreditViolation (l / 8) (l % 8) 1 ∧ (t.link l).freed0 = ((s.link l).freed0 + msgSlots data.length) % 65536 ∧
    Only [.registers, .functions, .links, .out, .parts] s t := by
  intro t
  have hi := link_index hl
  obtain ⟨h1, -, h2⟩ := hostileEvent_frame s hl (f := fLnkHostileCreditViolation) rfl (by decide) (by decide)
  obtain ⟨f1, f2, f3⟩ := freeSlots_frame (hostileEvent s l fLnkHostileCreditViolation) l data hc
  obtain ⟨r1, r2, -, r4⟩ := sendRefuse_frame (freeSlots (hostileEvent s l fLnkHostileCreditViolation) l h data) hl 1 h
  refine ⟨(h1.after f1).kept (r1.fld (by decide) hi.1 hi.2), ?_, ?_⟩
  · rw [r2, f2]
    dsimp only
    rw [freed_hostileEvent]
  · exact h2.trans ((f3.trans r4 rfl rfl : Within 570429448 _ t).only rfl : Only [.registers, .links, .out, .parts] _ t) (by decide) (by decide)

end Sys2Proof.Machine
end

section
/-! The statement about MSG_WRITE and MSG_BLOCK (R61, R62, R251, R267, R273, R278 to R281, R291, R292, R424). -/

namespace Sys2Proof.Machine

variable {s t u : State} {l : Nat} {h data : List Byte} {bad : List Nat}

/-! ### The checks of a destination -/

/-- The checks from the ninth on, and the effect (R280, R281). -/
def finalMsg (s : State) (l p : Nat) (h data : List Byte) (bad : List Nat) (d : MsgDest) : State :=
  if !rangeOk s l p h d then sendRefuse (s.bump fLnkRefuseBBadRange (l / 8) (l % 8) 1) l 4 h
  else match d.block with
    | some t =>
      if blockOk t h data then applyMsg s l h data bad d
      else ctxFault (sendRefuse (s.bump fLnkRefuseBCrcFault (l / 8) (l % 8) 1) l 5 h) d.ctx 7 (l / 8) l false
    | none => applyMsg s l h data bad d

section
variable {p : Nat} {d : MsgDest} (hp : linkPart s l = some p)
include hp

theorem headMsg_bad (hd : msgDest s p h = .bad) :
    headMsg s l h data bad = freeSlots (sendRefuse (s.bump fLnkRefuseBBadHandle (l / 8) (l % 8) 1) l 3 h) l h data := by
  rw [headMsg, checkMsg, hp]
  dsimp only
  rw [hd]

theorem headMsg_stale (hd : msgDest s p h = .stale) : headMsg s l h data bad = freeSlots (s.bump fLnkRefuseAStaleGen (l / 8) (l % 8) 1) l h data := by
  rw [headMsg, checkMsg, hp]
  dsimp only
  rw [hd]

variable (hd : msgDest s p h = .ok d)
include hd

theorem headMsg_held {g : Nat} (hg : (s.ctx d.ctx).group = some g) (hm : bitOf (s.group g).mask.toNat l = true) (he : (s.group g).epoch < hEpoch h) :
    headMsg s l h data bad = s.modLink l (fun x => { x with
      held := some ⟨h, data, bad, s.now, hEpoch h, g⟩, inUse0 := x.inUse0 + msgSlots data.length }) := by
  have hc : checkMsg s l h data bad = .held s g := by
    rw [checkMsg, hp]
    dsimp only
    rw [hd]
    dsimp only
    rw [hg]
    dsimp only
    rw [hm]
    exact (if_neg (by decide)).trans ((if_neg (by omega)).trans (if_pos he))
  rw [headMsg, hc]

theorem headMsg_final (hg : ∀ g, (s.ctx d.ctx).group = some g → bitOf (s.group g).mask.toNat l = true ∧ (s.group g).epoch = hEpoch h)
    (hn : (s.ctx d.ctx).group = none → hEpoch h = 0) : headMsg s l h data bad = freeSlots (finalMsg s l p h data bad d) l h data := by
  have hf : (if !rangeOk s l p h d then MsgRes.settled (sendRefuse (s.bump fLnkRefuseBBadRange (l / 8) (l % 8) 1) l 4 h)
      else match d.block with
        | some t =>
          if blockOk t h data then .settled (applyMsg s l h data bad d)
          else .settled (ctxFault (sendRefuse (s.bump fLnkRefuseBCrcFault (l / 8) (l % 8) 1) l 5 h) d.ctx 7 (l / 8) l false)
        | none => .settled (applyMsg s l h data bad d)) = .settled (finalMsg s l p h data bad d) := by
    unfold finalMsg
    split
    · rfl
    · split
      · split <;> rfl
      · rfl
  have hc : checkMsg s l h data bad = .settled (finalMsg s l p h data bad d) := by
    rw [checkMsg, hp]
    dsimp only
    rw [hd]
    dsimp only
    cases hgr : (s.ctx d.ctx).group with
    | none => exact (if_neg (not_not.2 (hn hgr))).trans hf
    | some g =>
      obtain ⟨hm, he⟩ := hg g hgr
      dsimp only
      rw [hm]
      exact (if_neg (by decide)).trans ((if_neg (by omega)).trans ((if_neg (by omega)).trans hf))
  rw [headMsg, hc]

end

/-! ### A refusal that is counted -/

/-- A message that is refused for its destination: counted, REFUSE sent, its slots freed (R280, R282). -/
theorem refused_frame (hl : l < 64) (hc : chanOf h = 0) {f : RField} (hf : f.reg = .lnkRefuseB) (hlo : f.lo ≤ f.hi) (hhi : f.hi < 64) (cause : Nat) :
    let t := freeSlots (sendRefuse (s.bump f (l / 8) (l % 8) 1) l cause h) l h data
    Counted s t f (l / 8) (l % 8) 1 ∧ (linkState s l ≠ 4 → (t.link l).waiting = (s.link l).waiting ++ [refusal0 cause h]) ∧
    Only [.registers, .links, .out, .parts] s t := by
  dsimp only
  have hi := link_index hl
  have hb : Counted s (s.bump f (l / 8) (l % 8) 1) f (l / 8) (l % 8) 1 := fld_bump_same s f _ _ 1 hlo hhi
  have hs : linkState (s.bump f (l / 8) (l % 8) 1) l = linkState s l := fld_bump_name s 1 (by rw [hf]; decide) hi hi
  have hx : (s.bump f (l / 8) (l % 8) 1).link l = s.link l := link_setFld _ _ _ _ _ _
  have hw : Within 8 s (s.bump f (l / 8) (l % 8) 1) := within_bump _ _ _ _ _ (Within.refl s) (Sub.refl _)
  generalize s.bump f (l / 8) (l % 8) 1 = v at *
  obtain ⟨r1, -, r3, r4⟩ := sendRefuse_frame v hl cause h
  obtain ⟨f1, f2, f3⟩ := freeSlots_frame (sendRefuse v l cause h) l data hc
  refine ⟨(hb.kept (r1.fld (by rw [hf]; decide) hi.1 hi.2)).after f1, fun h4 => ?_, ?_⟩
  · rw [f2]
    dsimp only
    rw [r3 (by rw [hs]; exact h4), hx]
  · exact ((hw.trans r4 rfl rfl : Within 570429448 s _).trans f3 rfl rfl : Within 570429448 s _).only rfl

/-- A message that is dropped: counted, its slots freed (R280). -/
theorem dropped_frame (s : State) (l : Nat) (hc : chanOf h = 0) (f : RField) (i j : Nat) (hlo : f.lo ≤ f.hi) (hhi : f.hi < 64) :
    let t := freeSlots (s.bump f i j 1) l h data
    Counted s t f i j 1 ∧ Only [.registers, .links, .out] s t := by
  intro t
  have hb : Counted s (s.bump f i j 1) f i j 1 := fld_bump_same s f _ _ 1 hlo hhi
  obtain ⟨f1, -, f3⟩ := freeSlots_frame (s.bump f i j 1) l data hc
  exact ⟨hb.after f1, ((within_bump _ _ _ _ _ (Within.refl s) (Sub.refl _) : Within 8 s (s.bump f i j 1)).trans f3 rfl rfl : Within 570425352 s t).only rfl⟩

/-! ### The effect of a message -/

/-- The state in which a message's data has been recorded and written, with a BLOCK's checksum, and counted (R62, R281). -/
def msgWritten (s : State) (l : Nat) (h data : List Byte) (d : MsgDest) : State :=
  let s := recordInput s d.ctx 4 l d.addr (data.take d.bytes) (if hTally h = 0xFFFF then 0xFFFFFFFF else hTally h)
  let s := writeMem s d.addr (data.take d.bytes) false
  let s := match d.block with
    | some t => storeBytes s (t.homeDesc.crcAddr + 4 * hBlock h) (leBytes 4 (hCrc h))
    | none => s
  s.bump fLnkRxBytesBytes (l / 8) (l % 8) (32 + data.length)

theorem applyMsg_live {d : MsgDest} (hr : isReplaying s d.ctx = false) :
    applyMsg s l h data bad d = signalTally (spoilWords (msgWritten s l h data d) l d bad) (hTally h) (hAdd h) := by
  rw [applyMsg, hr]
  rfl

theorem applyMsg_dropped {d : MsgDest} (hr : isReplaying s d.ctx = true) : applyMsg s l h data bad d = dropLive s d.ctx := by
  rw [applyMsg, hr]
  rfl

theorem mode_modCtx (s : State) (c k : Nat) (f : Ctx → Ctx) (h : ∀ x, (f x).mode = x.mode) : ((s.modCtx c f).ctx k).mode = (s.ctx k).mode := by
  by_cases e : c = k
  · subst e
    rw [State.modCtx, ctx_setCtx, h]
  · rw [State.modCtx, ctx_setCtx_ne _ _ e]

theorem mode_appendLog (s : State) (c : Nat) (g : Log) (kind source addr len : Nat) (crc : Word32) (tally : Nat) (data : List Byte) (k : Nat) :
    ((appendLog s c g kind source addr len crc tally data).ctx k).mode = (s.ctx k).mode := by
  unfold appendLog
  dsimp only
  split
  · rw [ctx_same ((within_bump _ _ _ _ _ (Within.refl _) (Sub.refl _)).same .ctxs (by decide))]
    refine mode_modCtx _ _ _ _ ?_
    exact fun _ => rfl
  · refine (mode_modCtx _ _ _ _ ?_).trans ?_
    · exact fun _ => rfl
    · rw [ctx_same ((within_storeBytes _ _ _ (Within.refl _) (Sub.refl _)).same .ctxs (by decide))]

/-- An input that is recorded leaves the modes of contexts. -/
theorem mode_recordInput (s : State) (c kind source addr : Nat) (data : List Byte) (tally k : Nat) :
    ((recordInput s c kind source addr data tally).ctx k).mode = (s.ctx k).mode := by
  unfold recordInput
  cases (s.ctx c).log with
  | none => rfl
  | some g =>
    dsimp only
    by_cases hs : g.stopped = true
    · rw [if_pos hs]
    · rw [if_neg hs]
      exact mode_appendLog _ _ _ _ _ _ _ _ _ _ _

theorem mode_msgWritten (s : State) (l : Nat) (h data : List Byte) (d : MsgDest) (k : Nat) : ((msgWritten s l h data d).ctx k).mode = (s.ctx k).mode := by
  have hw (v : State) : Within 134222072 v (match d.block with
      | some t => storeBytes (writeMem v d.addr (data.take d.bytes) false) (t.homeDesc.crcAddr + 4 * hBlock h) (leBytes 4 (hCrc h))
      | none => writeMem v d.addr (data.take d.bytes) false) := by
    split
    · exact within_storeBytes _ _ _ (within_writeMem _ _ _ _ (Within.refl v) rfl) rfl
    · exact within_writeMem _ _ _ _ (Within.refl v) rfl
  unfold msgWritten
  dsimp only
  rw [ctx_same ((within_bump _ _ _ _ _ (Within.refl _) (Sub.refl _)).same .ctxs (by decide)), ctx_same ((hw _).same .ctxs (by decide)), mode_recordInput]

/-- Words that the receive buffer lost fault the destination's context (R273). -/
theorem spoilWords_faults {d : MsgDest} (hb : ∃ o ∈ bad, o < d.bytes) (ha : (s.ctx d.ctx).mode = .active) : Faulted (spoilWords s l d bad) d.ctx 6 := by
  have hne : ¬ (bad.filter (fun o => decide (o < d.bytes))).isEmpty = true := by
    obtain ⟨o, ho, hlt⟩ := hb
    rw [List.isEmpty_iff]
    exact List.ne_nil_of_mem (List.mem_filter.2 ⟨ho, decide_eq_true hlt⟩)
  rw [spoilWords]
  refine (if_neg hne).symm ▸ faulted_ctxFault _ _ _ _ _ _ ?_
  have hw : Within 16 s (forEach (bad.filter (fun o => decide (o < d.bytes))) s (fun o t => poisonWord t (d.addr + o))) :=
    within_forEach (Within.refl s) fun _ _ h => within_poisonWord _ _ h rfl
  rw [ctx_same (hw.same .ctxs (by decide)), ha]

theorem spoilWords_none {d : MsgDest} (hb : ∀ o ∈ bad, d.bytes ≤ o) : spoilWords s l d bad = s := by
  have he : bad.filter (fun o => decide (o < d.bytes)) = [] := by
    rw [List.filter_eq_nil_iff]
    intro o ho
    have := hb o ho
    simp only [decide_eq_true_eq]
    omega
  rw [spoilWords]
  simp only [he]
  rfl

end Sys2Proof.Machine
end

section
/-! The statement about MSG_WRITE and MSG_BLOCK (R61, R62, R251, R267, R273, R278 to R281, R291, R292, R424). -/

namespace Sys2Proof.Machine

variable {s t u v : State} {l : Nat} {h data : List Byte} {bad : List Nat}

/-! ### A message that lands -/

/-- A tally that takes an add, or a message that signals none (R157). -/
theorem signalTally_takes {k n : Nat} (hk : k = 0xFFFF ∨ ((s.tally k).present = true ∧ (s.tally k).abandoned = false ∧ (s.tally k).count + n ≤ 0xFFFFFFFF ∧
    (s.ctx (s.tally k).ctx).marks = [])) : Within 20480 s (signalTally s k n) ∧
    ∀ j, (signalTally s k n).tally j = if j = k ∧ k ≠ 0xFFFF then { s.tally k with count := (s.tally k).count + n } else s.tally j := by
  unfold signalTally
  by_cases hf : k = 0xFFFF
  · rw [if_pos hf]
    exact ⟨Within.refl s, fun j => (if_neg fun hj => hj.2 hf).symm⟩
  · obtain ⟨h1, h2, h3, h4⟩ := hk.resolve_left hf
    have hsum : (((([(k, n)] : List (Nat × Nat)).filter (fun x => x.1 == k)).map (·.2))).sum = n := by simp
    obtain ⟨t, ht, ⟨hw, -⟩, htal⟩ := signals_take [(k, n)] s fun e he => by
      rw [List.mem_singleton.1 he, hsum]
      exact ⟨h1, h2, h3, h4⟩
    have ho : addOverflows s k n = false := by
      have : ¬ 0xFFFFFFFF < (s.tally k).count + n := by omega
      simp [addOverflows, this]
    have hst : tallyAddOp s k n = t := by
      have hx : (if addOverflows s k n then (s, true) else (tallyAddOp s k n, false)) = (t, false) := ht
      rw [ho] at hx
      exact (Prod.mk.inj hx).1
    rw [if_neg hf, hst]
    refine ⟨hw, fun j => ?_⟩
    rw [htal j]
    by_cases hj : j = k
    · rw [if_pos ⟨hj, hf⟩, hj, hsum]
    · have hz : ([(k, n)] : List (Nat × Nat)).filter (fun x => x.1 == j) = [] := by simp [Ne.symm hj]
      rw [if_neg fun e => hj e.1, hz]
      rfl

/-- The data of a message stand at its destination (R281). -/
theorem msgWritten_plain {d : MsgDest} (hlog : (s.ctx d.ctx).log = none) (hb : d.block = none) :
    StoredAt s (msgWritten s l h data d) d.addr (data.take d.bytes) ∧ Within 134222008 s (msgWritten s l h data d) := by
  have he : msgWritten s l h data d = (writeMem s d.addr (data.take d.bytes) false).bump fLnkRxBytesBytes (l / 8) (l % 8) (32 + data.length) := by
    unfold msgWritten
    dsimp only
    rw [recordInput_of_none hlog, hb]
  have hw := within_writeMem s d.addr (data.take d.bytes) false (Within.refl s) (Sub.refl _)
  have hbump := within_bump (writeMem s d.addr (data.take d.bytes) false) fLnkRxBytesBytes (l / 8) (l % 8) (32 + data.length) (Within.refl _) (Sub.refl _)
  rw [he]
  exact ⟨(storedAt_writeMem s d.addr (data.take d.bytes) false).onto (bytes_of_memory (hbump.same .memory (by decide))) (hbump.same .hostMemory (by decide)),
    (hw.trans hbump rfl rfl : Within 134222008 s _)⟩

theorem writeDest_ok {p : Nat} {d : MsgDest} (hd : writeDest s p h = .ok d) : d.bytes = hLength h ∧ d.block = none := by
  unfold writeDest at hd
  dsimp only at hd
  split at hd
  · exact nomatch hd
  · split at hd
    · exact nomatch hd
    · rw [← DestRes.ok.inj hd]
      exact ⟨rfl, rfl⟩

theorem rangeOk_tally {p : Nat} {d : MsgDest} (hr : rangeOk s l p h d = true) (hf : hTally h ≠ 0xFFFF) : (s.tally (hTally h)).present = true := by
  unfold rangeOk at hr
  simp only [Bool.and_eq_true, Bool.or_eq_true, beq_iff_eq] at hr
  obtain ⟨-, hr⟩ := hr
  obtain ⟨⟨-, h1⟩, -⟩ := hr.resolve_left hf
  exact h1

/-- A message whose destination takes it lands, and its tally is added (R281). -/
theorem landed_frame {p : Nat} {d : MsgDest} (hc : chanOf h = 0) (hlen : hLength h = data.length) (hd : writeDest s p h = .ok d)
    (hr : rangeOk s l p h d = true) (hrep : isReplaying s d.ctx = false) (hlog : (s.ctx d.ctx).log = none) (hbad : ∀ o ∈ bad, d.bytes ≤ o)
    (ht : hTally h = 0xFFFF ∨ ((s.tally (hTally h)).abandoned = false ∧ (s.tally (hTally h)).count + hAdd h ≤ 0xFFFFFFFF ∧
      (s.ctx (s.tally (hTally h)).ctx).marks = [])) :
    let t := freeSlots (finalMsg s l p h data bad d) l h data
    StoredAt s t d.addr data ∧
    (∀ k, t.tally k = if k = hTally h ∧ hTally h ≠ 0xFFFF then { s.tally k with count := (s.tally k).count + hAdd h } else s.tally k) ∧
    (t.link l).freed0 = ((s.link l).freed0 + msgSlots data.length) % 65536 ∧ Only (readAreas ++ [.links, .tallies, .out]) s t := by
  obtain ⟨hbytes, hblock⟩ := writeDest_ok hd
  have htake : data.take d.bytes = data := List.take_of_length_le (by omega)
  obtain ⟨hst, hw⟩ := msgWritten_plain (l := l) (h := h) (data := data) hlog hblock
  rw [htake] at hst
  have hfin : finalMsg s l p h data bad d = signalTally (msgWritten s l h data d) (hTally h) (hAdd h) := by
    rw [finalMsg, hr, hblock]
    refine (if_neg (by decide)).trans ?_
    dsimp only
    rw [applyMsg_live hrep, spoilWords_none hbad]
  rw [hfin]
  generalize msgWritten s l h data d = v at hst hw
  have htal (k : Nat) : v.tally k = s.tally k := tally_same (hw.same .tallies (by decide)) k
  obtain ⟨g1, g2⟩ := signalTally_takes (s := v) (k := hTally h) (n := hAdd h) (by
    by_cases hf : hTally h = 0xFFFF
    · exact .inl hf
    · obtain ⟨x1, x2, x3⟩ := ht.resolve_left hf
      refine .inr ?_
      rw [htal, ctx_same (hw.same .ctxs (by decide))]
      exact ⟨rangeOk_tally hr hf, x1, x2, x3⟩)
  obtain ⟨-, f2, f3⟩ := freeSlots_frame (signalTally v (hTally h) (hAdd h)) l data hc
  have hall := (g1.trans f3 rfl rfl : Within 570445824 v _)
  refine ⟨hst.onto (bytes_of_memory (hall.same .memory (by decide))) (hall.same .hostMemory (by decide)), fun k => ?_, ?_,
    (hw.trans hall rfl rfl : Within 704663736 s _).only rfl⟩
  · rw [tally_same (f3.same .tallies (by decide)), g2 k, htal, htal]
    by_cases hk : k = hTally h ∧ hTally h ≠ 0xFFFF
    · rw [if_pos hk, if_pos hk, hk.1]
    · rw [if_neg hk, if_neg hk]
  · rw [f2]
    dsimp only
    rw [link_same (g1.same .links (by decide)), link_same (hw.same .links (by decide))]

/-- Words that the receive buffer lost fault the context of the message's destination (R273). -/
theorem lost_faults {p : Nat} {d : MsgDest} (hd : writeDest s p h = .ok d) (hr : rangeOk s l p h d = true) (hrep : isReplaying s d.ctx = false)
    (hbad : ∃ o ∈ bad, o < d.bytes) (ha : (s.ctx d.ctx).mode = .active) : Faulted (freeSlots (finalMsg s l p h data bad d) l h data) d.ctx 6 := by
  obtain ⟨-, hblock⟩ := writeDest_ok hd
  have hfin : finalMsg s l p h data bad d = signalTally (spoilWords (msgWritten s l h data d) l d bad) (hTally h) (hAdd h) := by
    rw [finalMsg, hr, hblock]
    refine (if_neg (by decide)).trans ?_
    dsimp only
    rw [applyMsg_live hrep]
  rw [hfin]
  have hf := spoilWords_faults (s := msgWritten s l h data d) (l := l) hbad (by rw [mode_msgWritten, ha])
  have hf2 : Faulted (signalTally (spoilWords (msgWritten s l h data d) l d bad) (hTally h) (hAdd h)) d.ctx 6 := hf.stays (stays_signalTally _ _ _)
  exact hf2.stays (within_freeSlots _ _ _ _ (Within.refl _) (Sub.refl _)).stays

/-! ### BLOCK -/

/-- A BLOCK whose VERSION and checksum agree stores both its data and its checksum (R61, R62, R281). -/
theorem block_lands {p : Nat} {d : MsgDest} {x : Tensor} (hc : chanOf h = 0) (hx : d.block = some x) (hr : rangeOk s l p h d = true)
    (hok : blockOk x h data = true) (hrep : isReplaying s d.ctx = false) (hlog : (s.ctx d.ctx).log = none) (hf : hTally h = 0xFFFF)
    (hlen : d.bytes ≤ data.length)
    (hap : x.homeDesc.crcAddr + 4 * hBlock h + 4 ≤ d.addr ∨ d.addr + d.bytes ≤ x.homeDesc.crcAddr + 4 * hBlock h) :
    let t := freeSlots (finalMsg s l p h data [] d) l h data
    readBytes t d.addr d.bytes = data.take d.bytes ∧ storedCrc t x.homeDesc (hBlock h) = BitVec.ofNat 32 (hCrc h) ∧
    Only (readAreas ++ [.links, .out]) s t := by
  have hfin : finalMsg s l p h data [] d = (storeBytes (writeMem s d.addr (data.take d.bytes) false) (x.homeDesc.crcAddr + 4 * hBlock h)
      (leBytes 4 (hCrc h))).bump fLnkRxBytesBytes (l / 8) (l % 8) (32 + data.length) := by
    rw [finalMsg, hr, hx]
    refine (if_neg (by decide)).trans ((if_pos hok).trans ?_)
    rw [applyMsg_live hrep, spoilWords_none (fun o ho => (List.not_mem_nil ho).elim), signalTally, if_pos hf, msgWritten, recordInput_of_none hlog, hx]
  rw [hfin]
  have hlt : (data.take d.bytes).length = d.bytes := List.length_take_of_le hlen
  have h1 := storedAt_writeMem s d.addr (data.take d.bytes) false
  have hw := within_writeMem s d.addr (data.take d.bytes) false (Within.refl s) (Sub.refl _)
  generalize writeMem s d.addr (data.take d.bytes) false = w at h1 hw
  have h2 := storedAt_storeBytes w (x.homeDesc.crcAddr + 4 * hBlock h) (leBytes 4 (hCrc h))
  have hs := within_storeBytes w (x.homeDesc.crcAddr + 4 * hBlock h) (leBytes 4 (hCrc h)) (Within.refl w) (Sub.refl _)
  generalize storeBytes w (x.homeDesc.crcAddr + 4 * hBlock h) (leBytes 4 (hCrc h)) = v at h2 hs
  have hb := within_bump v fLnkRxBytesBytes (l / 8) (l % 8) (32 + data.length) (Within.refl v) (Sub.refl _)
  obtain ⟨-, -, f3⟩ := freeSlots_frame (v.bump fLnkRxBytesBytes (l / 8) (l % 8) (32 + data.length)) l data hc
  have hall := (hb.trans f3 rfl rfl : Within 570425352 v _)
  have hmem := bytes_of_memory (hall.same .memory (by decide))
  have hcrc : hCrc h < 2 ^ 32 := fieldAt_lt h 24 4
  refine ⟨?_, ?_, ((hw.trans hs rfl rfl : Within 134222008 s v).trans hall rfl rfl : Within 704647352 s _).only rfl⟩
  · obtain ⟨r1, -, -⟩ := h1
    obtain ⟨-, o2, -⟩ := h2
    rw [hlt] at r1
    rw [← r1]
    refine List.map_congr_left fun i hi => ?_
    have hi : i < d.bytes := List.mem_range.1 hi
    rw [length_leBytes] at o2
    rw [memByte_same hmem, o2 (d.addr + i) (by omega)]
  · have hbv : (BitVec.ofNat 32 (hCrc h) : Word32).toNat = hCrc h := by
      rw [BitVec.toNat_ofNat]
      exact Nat.mod_eq_of_lt hcrc
    have h3 := h2.onto hmem (hall.same .hostMemory (by decide))
    rw [← hbv] at h3
    exact storedCrc_of_stored h3

/-- A BLOCK whose VERSION or checksum disagrees faults its context (R61). -/
theorem block_faults {p : Nat} {d : MsgDest} {x : Tensor} (hx : d.block = some x) (hr : rangeOk s l p h d = true) (hok : blockOk x h data = false)
    (ha : (s.ctx d.ctx).mode = .active) : Faulted (freeSlots (finalMsg s l p h data bad d) l h data) d.ctx 7 := by
  have hfin : finalMsg s l p h data bad d =
      ctxFault (sendRefuse (s.bump fLnkRefuseBCrcFault (l / 8) (l % 8) 1) l 5 h) d.ctx 7 (l / 8) l false := by
    rw [finalMsg, hr, hx]
    exact (if_neg (by decide)).trans (if_neg (Bool.eq_false_iff.1 hok))
  rw [hfin]
  have hw : Within 570429448 s (sendRefuse (s.bump fLnkRefuseBCrcFault (l / 8) (l % 8) 1) l 5 h) :=
    within_sendMsg _ _ _ _ (within_bump _ _ _ _ _ (Within.refl s) rfl) rfl
  have hf := faulted_ctxFault (sendRefuse (s.bump fLnkRefuseBCrcFault (l / 8) (l % 8) 1) l 5 h) d.ctx 7 (l / 8) l false
    (by rw [ctx_same (hw.same .ctxs (by decide)), ha])
  exact hf.stays (within_freeSlots _ _ _ _ (Within.refl _) (Sub.refl _)).stays

/-! ### The statement -/

theorem exec_msgWrite (l : LinkId) (h data : List Byte) (bad : List Nat) (s : State) (hn : hType h ∉ [2, 0x10, 0x11, 0x12]) :
    exec (.msgWrite l h data bad) s = .next (recvMsg0 s l.val h data bad) := by
  have hc : ¬ [0x02, 0x10, 0x11, 0x12].contains (hType h) = true := fun e => hn (List.contains_iff_mem.1 e)
  exact congrArg Host.Outcome.next (if_neg hc)

theorem exec_msgWrite_other (l : LinkId) (h data : List Byte) (bad : List Nat) (s : State) (hm : hType h ∈ [2, 0x10, 0x11, 0x12]) :
    exec (.msgWrite l h data bad) s = .next s := congrArg Host.Outcome.next (if_pos (List.contains_iff_mem.2 hm))

theorem exec_msgBlock (l : LinkId) (h data : List Byte) (bad : List Nat) (s : State) (ht : hType h = 2) :
    exec (.msgBlock l h data bad) s = .next (recvMsg0 s l.val h data bad) := congrArg Host.Outcome.next (if_pos ht)

theorem exec_msgBlock_other (l : LinkId) (h data : List Byte) (bad : List Nat) (s : State) (ht : hType h ≠ 2) :
    exec (.msgBlock l h data bad) s = .next s := congrArg Host.Outcome.next (if_neg ht)

/-- Settles O36, by the checks in their order: credit, the place in the channel, the destination, the epoch, and the effect. -/
theorem dataMessages : Obligations.DataMessages := by
  unfold Obligations.DataMessages
  refine ⟨fun l h data bad s i ht hi => ?before, fun l h data bad s => ?other, fun l h data bad s p ht hb hty hlen ho hh hbe hro hp => ?write,
    fun l h data s p d x ht hb hty hlen ho hh hbe hro hp hd hx hg hn hr => ?block⟩
  case before =>
    intro x good
    have hx : exec i s = .next (recvMsg0 s l.val h data bad) := by
      rcases hi with ⟨hn, rfl⟩ | ⟨hn, rfl⟩
      · exact exec_msgWrite l h data bad s hn
      · exact exec_msgBlock l h data bad s hn
    have hn : hType h ∉ [0x10, 0x11, 0x12] := by
      rcases hi with ⟨hn, -⟩ | ⟨hn, -⟩
      · exact fun hm => hn (List.mem_cons_of_mem _ hm)
      · rw [hn]
        decide
    refine ⟨fun hg => ?_, fun hg ho => ?_, fun hg ho hw => ?_⟩
    · rw [recvMsg0_malformed ht hg] at hx
      obtain ⟨h1, -, h2⟩ := hostileEvent_frame s l.isLt (f := fLnkHostileMalformed) rfl (by decide) (by decide)
      exact ⟨_, hx, h1, h2⟩
    · rw [recvMsg0_good ht hg.1 hg.2, ho] at hx
      exact ⟨_, hx, overCredit_frame l.isLt (chanOf_data (hType_of_good hg.1 hn))⟩
    · rw [recvMsg0_parks ht hg.1 hg.2 ho hw] at hx
      exact ⟨_, hx, link_modLink _ _ _, (within_modLink _ _ _ (Within.refl s) (Sub.refl _)).only rfl⟩
  case other =>
    refine ⟨fun ht => ⟨?_, ?_⟩, fun hm => exec_msgWrite_other l h data bad s hm, fun hn => exec_msgBlock_other l h data bad s hn⟩
    · by_cases hm : hType h ∈ [2, 0x10, 0x11, 0x12]
      · exact exec_msgWrite_other l h data bad s hm
      · rw [exec_msgWrite l h data bad s hm, recvMsg0_still ht]
    · by_cases hm : hType h = 2
      · rw [exec_msgBlock l h data bad s hm, recvMsg0_still ht]
      · exact exec_msgBlock_other l h data bad s hm
  case write =>
    intro i
    have hc := chanOf_data (.inl hty)
    have hx : exec i s = .next (headMsg s l.val h data bad) := by
      rw [show exec i s = .next (recvMsg0 s l.val h data bad) from exec_msgWrite l h data bad s (by rw [hty]; decide), recvMsg0_head ht hb hlen ho hh hbe hro]
    have hm (r : DestRes) (hd : writeDest s p h = r) : msgDest s p h = r := (if_pos hty).trans hd
    refine ⟨fun hd => ?_, fun hd => ?_, fun d hd => ⟨fun g hg hmask he => ?_, fun hg hn => ⟨fun hr => ?_, fun hr hrep => ?_, fun hr hrep hbad => ?_,
      fun hr hrep hlog hbad htal => ?_⟩⟩⟩
    · rw [headMsg_bad hp (hm _ hd)] at hx
      exact ⟨_, hx, refused_frame l.isLt hc (f := fLnkRefuseBBadHandle) rfl (by decide) (by decide) 3⟩
    · rw [headMsg_stale hp (hm _ hd)] at hx
      exact ⟨_, hx, dropped_frame s l.val hc fLnkRefuseAStaleGen _ _ (by decide) (by decide)⟩
    · rw [headMsg_held hp (hm _ hd) hg hmask he] at hx
      refine ⟨_, hx, ?_, (within_modLink _ _ _ (Within.refl s) (Sub.refl _)).only rfl⟩
      rw [link_modLink]
    · rw [headMsg_final hp (hm _ hd) hg hn] at hx
      have hfin : finalMsg s l.val p h data bad d = sendRefuse (s.bump fLnkRefuseBBadRange (l.val / 8) (l.val % 8) 1) l.val 4 h := by
        rw [finalMsg, hr]
        rfl
      rw [hfin] at hx
      obtain ⟨h1, -, h2⟩ := refused_frame (s := s) (data := data) l.isLt hc (f := fLnkRefuseBBadRange) rfl (by decide) (by decide) 4
      exact ⟨_, hx, h1, h2⟩
    · rw [headMsg_final hp (hm _ hd) hg hn] at hx
      have hfin : finalMsg s l.val p h data bad d = s.bump fRplLogLiveDropped (s.ctx d.ctx).part 0 1 := by
        rw [finalMsg, hr, (writeDest_ok hd).2]
        exact applyMsg_dropped hrep
      rw [hfin] at hx
      exact ⟨_, hx, dropped_frame s l.val hc fRplLogLiveDropped _ _ (by decide) (by decide)⟩
    · rw [headMsg_final hp (hm _ hd) hg hn] at hx
      exact ⟨_, hx, fun ha => lost_faults hd hr hrep hbad ha⟩
    · rw [headMsg_final hp (hm _ hd) hg hn] at hx
      exact ⟨_, hx, landed_frame hc hlen hd hr hrep hlog hbad htal⟩
  case block =>
    have hc := chanOf_data (.inr hty)
    have hm : msgDest s p h = .ok d := (if_neg (by rw [hty]; decide)).trans hd
    have hxe : exec (.msgBlock l h data []) s = .next (freeSlots (finalMsg s l.val p h data [] d) l.val h data) := by
      rw [exec_msgBlock l h data [] s hty, recvMsg0_head ht hb hlen ho hh hbe hro, headMsg_final hp hm hg hn]
    exact ⟨fun hok hrep hlog hf hle hap => ⟨_, hxe, block_lands hc hx hr hok hrep hlog hf hle hap⟩, fun hok => ⟨_, hxe, fun ha => block_faults hx hr hok ha⟩⟩

end Sys2Proof.Machine
end

section
/-! The sampling of a tile whose reads write a line back (R48, R203): the statement leaves the state free, a partition's number of cache
units included, and a register's key has 64 places for its unit. -/

namespace Sys2Proof.Machine

/-- A section number that the module does not have, whose LOAM_CACHE_WB has the key of NUM_CFG of section 0. -/
def straySec : Nat := 64 * (RegName.numCfg.num - RegName.loamCacheWb.num)

/-- An ARRAY tile of one row, one step and no column, which waits on no tally and signals none. -/
def strayTile : WinDesc :=
  { index := 0, bytes := List.replicate 8 0 ++ List.replicate 8 0xFF ++ List.replicate 16 0 ++ leBytes 4 1 ++ List.replicate 28 0 ++ leBytes 4 1 ++
      leBytes 4 0 ++ leBytes 4 1 ++ List.replicate 52 0, since := 0, reported := false, planned := 0 }

/-- The HBM byte that the tile reads, in a line of set 16,384 times the stray section. -/
def strayByte : Nat := straySec * 16384 * 4096

/-- A partition of section 0 with 2^17 cache units, whose set of that line is full of dirty lines of others, and a context that may read
the byte. -/
def strayObjs : State :=
  { module := { perstAsserted := false, released := true, rootCycles := 40000 },
    mem := { cache := (List.range 16).map (fun w => (cacheKey 0 (straySec * 16384) w, { valid := true, dirty := true })) },
    objs := { parts := [(0, { present := true, mask := 1, units := 2 ^ 17 })], ctxs := [(0, { mode := .active })],
              regions := [(0, { present := true, base := strayByte, length := 1, read := true })],
              tensors := [(1, { present := true, desc := { format := 0x20, base := strayByte } })] },
    work := { cores := [(0, { running := some 0, window := [strayTile] })], slots := [(0, { loaded := true, launched := true, count := 1 })] } }

/-- The tile's slot runs; every sampled tile of section 0 would be held, but sampling is not enabled. -/
def strayCache : State := ((strayObjs.setFld fNumCfgWitEnable 0 0 0).setFld fNumCfgWitK 0 0 0).setFld fNumCfgWitHold 0 0 1

/-- A unit runs a tile that will wait for its check. -/
def sampledUnit : UnitState → Bool
  | .tile r => r.sampled
  | _ => false

/-- Unit 0 of core 0 runs such a tile after a command. -/
def sampledNext : Host.Outcome State Fault Refusal → Bool
  | .next t => sampledUnit (coreUnit t 0 0)
  | _ => false

theorem strayCache_issues : (secPart strayCache (coreSec 0) = some 0 ∧ partHeld strayCache 0 = false ∧ runnable strayCache 0 0 = true) ∧
    entering strayCache 0 = false ∧ slotBest strayCache 0 0 = false ∧
    (strayCache.core 0).window.find? (fun d => canIssue strayCache 0 0 (strayCache.core 0).window d &&
      (!(strayCache.slot 0 0).fillProgram || fillFits strayCache 0 (strayCache.slot 0 0).ctx d)) = some strayTile := by decide +kernel

theorem strayCache_reads : (tileReads strayCache 0 strayTile.bytes).all (fun r => readOk strayCache 0 r.1 r.2) = true ∧
    (readAll strayCache (tileReads strayCache 0 strayTile.bytes)).2 = [] := by decide +kernel

theorem strayCache_writes : cellsOk strayCache 0 (spoilOverlap strayCache 0 strayTile.bytes
    ((tileOutput strayCache 0 strayTile.bytes []).res.cells ++ (tileOutput strayCache 0 strayTile.bytes []).extra)).2 = true := by decide +kernel

theorem strayCache_enable : strayCache.fld fNumCfgWitEnable (coreSec 0) 0 = 0 := by decide +kernel

theorem strayCache_samples : sampledNext (exec (.tileIssue 0 [] 0 ⟨false, []⟩) strayCache) = true := by decide +kernel

/-- Refutes O27: the state is free, and a tile's read may write a line back in a section that the module does not have; its count falls on
WIT_ENABLE, and the tile is sampled although sampling was not enabled. -/
theorem not_coreSequencers : ¬ Obligations.CoreSequencers := by
  unfold Obligations.CoreSequencers
  intro h
  obtain ⟨_, hissue, _⟩ := h
  obtain ⟨⟨hsec, hheld, hrun⟩, hent, hcls, hfind⟩ := strayCache_issues
  obtain ⟨hread, hclean⟩ := strayCache_reads
  obtain ⟨hok, _⟩ := hissue 0 [] 0 false [] strayCache 0 0 strayTile rfl hsec hheld hrun hent (.inr (.inl hcls)) hfind
  obtain ⟨t, r, ht, hu, _, _, hs, _⟩ := hok hread hclean rfl strayCache_writes
  have hk : coreUnit t 0 0 = .tile r := hu
  have hx := strayCache_samples
  rw [ht] at hx
  have hy : r.sampled = true := by
    rw [← show sampledUnit (coreUnit t 0 0) = r.sampled by rw [hk]; rfl]
    exact hx
  exact absurd hy (Bool.eq_false_iff.1 (hs strayCache_enable))

end Sys2Proof.Machine
end

section
/-! Adds to tallies and waits of tiles (R157, R158, R165, R424, R430). -/

namespace Sys2Proof.Machine

variable {s t u : State} {k c : Nat}

/-! ### The counts of tallies -/

/-- No tally's count differs. -/
def CountsKept (s t : State) : Prop := ∀ k, (t.tally k).count = (s.tally k).count

theorem CountsKept.refl (s : State) : CountsKept s s := fun _ => rfl

theorem CountsKept.trans (h : CountsKept s t) (g : CountsKept t u) : CountsKept s u := fun k => (g k).trans (h k)

theorem Within.counts {μ : Nat} (h : Within μ s t) (ht : μ.testBit 14 = false := by decide) : CountsKept s t :=
  fun k => congrArg Tally.count (tally_same (h.same .tallies ht) k)

theorem countsKept_forEach {α : Type} (l : List α) (g : α → State → State) (h : ∀ a t, CountsKept t (g a t)) (s : State) :
    CountsKept s (forEach l s g) := fun k => forEach_keeps (π := fun t => (t.tally k).count) (fun a _ t => h a t k) s

theorem countsKept_ite {p : Prop} [Decidable p] {a b : State} (ha : CountsKept s a) (hb : CountsKept s b) : CountsKept s (if p then a else b) := by
  split <;> assumption

theorem countsKept_abandonTallies (s : State) (c : Nat) : CountsKept s (abandonTallies s c) := by
  have hone (i : Nat) (t : State) : CountsKept t (t.modTally i (fun x => { x with abandoned := true })) := fun k => by
    by_cases h : i = k
    · rw [← h, State.modTally, tally_setTally]
    · rw [State.modTally, tally_setTally_ne _ _ h]
  exact (countsKept_forEach _ _ hone s).trans ((within_bump _ _ _ _ _ (Within.refl _) (Sub.refl _)).counts rfl)

/-- A context that stops abandons its tallies, and their counts stay (R423). -/
theorem countsKept_stopContext (s : State) (c cause : Nat) (abort : Bool) : CountsKept s (stopContext s c cause abort) := by
  by_cases ha : (s.ctx c).mode = .active
  · have hstop : CountsKept s (atStop s c abort) := by
      unfold atStop
      split
      · exact countsKept_ite ((countsKept_abandonTallies s c).trans ((within_sendAbort _ _ _ (Within.refl _) (Sub.refl _)).counts rfl))
          (countsKept_abandonTallies s c)
      · exact countsKept_abandonTallies s c
    rw [stopContext_eq s c cause abort ha]
    refine (hstop.trans ?_).trans ((within_stopWork _ c).counts rfl)
    exact (within_modCtx _ _ _ (Within.refl _) (Sub.refl _)).counts rfl
  · have h : ((s.ctx c).mode != .active) = true := by simpa using ha
    unfold stopContext
    simp only [h, if_true]
    exact CountsKept.refl s

theorem countsKept_fenceModule (s : State) (reason : Nat) : CountsKept s (fenceModule s reason) := by
  have habort (c e : Nat) (abort : Bool) (t : State) : CountsKept t (abortCtx t c e abort) :=
    countsKept_ite (CountsKept.refl t)
      (((within_postAborted t c e (Within.refl t) (Sub.refl _)).counts rfl).trans (countsKept_stopContext _ _ _ _))
  have hreset (p : Nat) (t : State) : CountsKept t (enterReset t p .blocked) := (within_enterReset t p .blocked (Within.refl t) (Sub.refl _)).counts rfl
  unfold fenceModule
  dsimp only
  refine countsKept_ite (CountsKept.refl s) (CountsKept.trans ?_ ((within_postTo _ _ _ _ (Within.refl _) (Sub.refl _)).counts rfl))
  exact (countsKept_forEach _ _ (fun c t => habort c _ true t) s).trans (countsKept_forEach _ _ hreset _)

theorem countsKept_escalateCtx (s : State) : CountsKept s (escalateCtx s) := by
  have h (l : List Nat) : CountsKept s { s with care := { s.care with hardFaults := l } } := fun _ => rfl
  unfold escalateCtx
  dsimp only
  exact countsKept_ite ((h _).trans (countsKept_fenceModule _ _)) (h _)

theorem countsKept_ctxFault (s : State) (c cause sec unit : Nat) (poison : Bool) : CountsKept s (ctxFault s c cause sec unit poison) := by
  by_cases ha : (s.ctx c).mode = .active
  · have h := ((within_atFault s c cause sec unit poison).counts rfl).trans (countsKept_stopContext _ c cause true)
    rw [ctxFault_eq s c cause sec unit poison ha]
    exact countsKept_ite (h.trans (countsKept_escalateCtx _)) h
  · rw [ctxFault_of_ended s cause sec unit poison ha]
    exact CountsKept.refl s

theorem countsKept_optCompare (s : State) (r : Option Log) (p : Nat) (m : Mark) (n : Nat) (d : Word32) :
    CountsKept s (match r with | some g => markCompare s p g m n d | none => s) := by
  cases r with
  | none => exact CountsKept.refl s
  | some g => exact (within_markCompare s p g m n d (Within.refl s) (Sub.refl _)).counts rfl

theorem countsKept_optLog (s : State) (r : Option Log) (c kind source addr : Nat) (crc : Word32) (tally : Nat) :
    CountsKept s (match r with
      | some g => if g.stopped then s else appendLog s c g kind source addr 0 crc tally []
      | none => s) := by
  cases r with
  | none => exact CountsKept.refl s
  | some g => exact countsKept_ite (CountsKept.refl s) ((within_appendLog s c g kind source addr 0 crc tally [] (Within.refl s) (Sub.refl _)).counts rfl)

theorem countsKept_drawnHold (s : State) (p : Nat) (l : Option Nat) : CountsKept s (addCause s.freeDraw.2 p 7 0 l) :=
  (within_addCause _ _ _ _ _ (within_freeDraw _ (Within.refl s) rfl) rfl : Within 1073745920 s _).counts rfl

theorem countsKept_markAdd (s : State) (c : Nat) (m : Mark) : CountsKept s (markAdd s c m) := by
  unfold markAdd
  dsimp only
  have hm (f : Ctx → Ctx) : CountsKept s (s.modCtx c f) := fun _ => rfl
  refine countsKept_ite (hm _) ((hm (fun x => { x with marks := x.marks.map (fun y => if y.number = m.number then { y with count := m.count + 1 } else y) })).trans ?_)
  generalize s.modCtx c _ = t
  have hr := ((within_readMem t (t.tensor (s.ctx c).part m.tensor).homeDesc.crcAddr (4 * (t.tensor (s.ctx c).part m.tensor).homeDesc.blocks)
    (Within.refl t) (Sub.refl _)).counts rfl)
  split
  · exact hr.trans (countsKept_ctxFault _ _ _ _ _ _)
  · revert hr
    generalize (readMem t _ _).1 = v
    exact fun hr => hr.trans ((countsKept_ite (countsKept_drawnHold _ _ _) (CountsKept.refl v)).trans
      ((countsKept_optCompare _ _ _ _ _ _).trans (countsKept_optLog _ _ _ _ _ _ _ _)))

theorem countsKept_markTally (s : State) (k : Nat) : CountsKept s (markTally s k) :=
  countsKept_forEach _ _ (fun _ t => countsKept_markAdd t _ _) s

/-! ### TALLY_ADD -/

theorem exec_tallyAdd (k : TallyId) (n tag : Half) (s : State) : exec (.tallyAdd k n tag) s =
    .next (if tagDropped s (s.tally k.val).part tag.toNat then s.bump fFltDropsATally 0 0 1 else tallyAddOp s k.val n.toNat) := rfl

theorem tallyAddOp_absent {n : Nat} (h : (s.tally k).present = false) : tallyAddOp s k n = s := by
  rw [tallyAddOp, h]
  rfl

theorem tallyAddOp_abandoned {n : Nat} (h : (s.tally k).present = true) (ha : (s.tally k).abandoned = true) :
    tallyAddOp s k n = s.bump fFltDropsBAbandonAdds 0 0 1 := by
  unfold tallyAddOp
  dsimp only
  rw [h, ha]
  rfl

theorem tallyAddOp_overflow {n : Nat} (h : (s.tally k).present = true) (ha : (s.tally k).abandoned = false) (ho : 0xFFFFFFFF < (s.tally k).count + n) :
    tallyAddOp s k n = ctxFault s (s.tally k).ctx 3 (k / 2048) 0 false := by
  have hover : addOverflows s k n = true := by simp [addOverflows, h, ha, ho]
  unfold tallyAddOp
  dsimp only
  rw [hover, h, ha]
  rfl

/-- The state in which a tally has taken an add. -/
def tallyTaken (s : State) (k n : Nat) : State := endExternal (s.modTally k (fun y => { y with count := y.count + n })) k

theorem tallyAddOp_taken {n : Nat} (h : (s.tally k).present = true) (ha : (s.tally k).abandoned = false) (ho : (s.tally k).count + n ≤ 0xFFFFFFFF) :
    tallyAddOp s k n = tallyTaken (markTally s k) k n := by
  have hover : addOverflows s k n = false := by simp [addOverflows, ho]
  unfold tallyAddOp
  dsimp only
  rw [hover, h, ha]
  rfl

theorem tally_tallyTaken (s : State) (k n : Nat) : (tallyTaken s k n).tally k = { s.tally k with count := (s.tally k).count + n } ∧
    (∀ j, j ≠ k → (tallyTaken s k n).tally j = s.tally j) ∧ (∀ p, partRest ((tallyTaken s k n).part p) = partRest (s.part p)) ∧
    Only [.tallies, .parts] s (tallyTaken s k n) := by
  have hend := within_endExternal (s.modTally k (fun y => { y with count := y.count + n })) k (Within.refl _) (Sub.refl _)
  have hmod := within_modTally s k (fun y => { y with count := y.count + n }) (Within.refl s) (Sub.refl _)
  refine ⟨?_, fun j hj => ?_, fun p => ?_, ((hmod.trans hend rfl rfl : Within 20480 s _)).only rfl⟩
  · rw [tallyTaken, tally_same (hend.same .tallies (by decide)), State.modTally, tally_setTally]
  · rw [tallyTaken, tally_same (hend.same .tallies (by decide)), State.modTally, tally_setTally_ne _ _ (Ne.symm hj)]
  · exact (rests_endExternal _ _).part p

/-! ### Waits of tiles -/

theorem exec_waitLimit {core : CoreId} {index i : Nat} {d : WinDesc} (hr : (s.core core.val).running = some i)
    (hd : (s.core core.val).window.find? (fun d => d.index == index) = some d) : exec (.waitLimitReport core index) s =
    .next (if d.reported || waitsMet s d.bytes then s else
      postWait ((s.modCore core.val (fun c => { c with window := c.window.map (fun e =>
        if e.index = index then { e with reported := true } else e) })).bump fCoreWdogWaitsReported (core.val / 12) (core.val % 12) 1)
        (coreSec core.val) (core.val % 12) (s.slot core.val i).ctx) := by
  change Host.Outcome.next (waitLimitOp core.val index s) = _
  unfold waitLimitOp
  rw [hr, hd]
  rfl

theorem exec_tileTimeout {core : CoreId} {index i : Nat} {d : WinDesc} (hr : (s.core core.val).running = some i)
    (hd : (s.core core.val).window.find? (fun d => d.index == index) = some d) : exec (.waitTimeout (.tile core index)) s =
    .next (if waitsMet s d.bytes then s else
      coreFault (s.bump fFltWdogWaitFaults 0 0 1) core.val i index (tileUnit d.bytes) (s.slot core.val i).ctx 0x11 false) := by
  change Host.Outcome.next (tileWaitTimeout core.val index s) = _
  unfold tileWaitTimeout
  rw [hr, hd]

/-- A core's fault records a word, stops the slot if it runs, and faults the context. -/
theorem coreFault_eq (s : State) (k i index unit c cause : Nat) (poison : Bool) : ∃ w, coreFault s k i index unit c cause poison =
    ctxFault ((s.setRaw ⟨.coreFaultLast, k / 12, k % 12⟩ w).modCore k (fun x => if x.running = some i then { x with stopped := true } else x))
      c cause (coreSec k) k poison := ⟨_, rfl⟩

theorem faulted_coreFault (s : State) (k i index unit c cause : Nat) (poison : Bool) (ha : (s.ctx c).mode = .active) :
    Faulted (coreFault s k i index unit c cause poison) c cause := by
  obtain ⟨w, hw⟩ := coreFault_eq s k i index unit c cause poison
  rw [hw]
  exact faulted_ctxFault _ c cause _ _ _ ha

end Sys2Proof.Machine
end

section
/-! The statement about SLOT_CHANGE, BUBBLE_FILL, WAIT_LIMIT_REPORT, WAIT_TIMEOUT and TALLY_ADD (R157, R158, R165, R190, R193, R399, R402). -/

namespace Sys2Proof.Machine

variable {s t u : State} {k i j : Nat}

/-! ### Entering and leaving slots -/

/-- A core that enters a slot has its window empty, and keeps its units. -/
def slotEntered (s : State) (k : Nat) (j : Option Nat) (x : Core) : Core :=
  { x with running := j, entered := aCycles s, enteredWork := coreWork s k, moved := aCycles s, window := [], stopped := false }

theorem core_enterSlot (s : State) (k : Nat) (j : Option Nat) : (enterSlot s k j).core k = slotEntered s k j (s.core k) ∧
    (∀ n, n ≠ k → (enterSlot s k j).core n = s.core n) ∧ (∀ n i, (enterSlot s k j).slot n i = s.slot n i) ∧ Only [.cores] s (enterSlot s k j) :=
  ⟨core_modCore s k _, fun _ hn => core_setCore_ne _ _ (Ne.symm hn), fun _ _ => rfl,
    (within_enterSlot s k j (Within.refl s) (Sub.refl _)).only rfl⟩

theorem leaveSlot_idle (h : (s.core k).running = none) : leaveSlot s k = s := by
  unfold leaveSlot
  rw [h]

/-- What a program keeps when its slot is left. -/
def slotLeft (s : State) (k i : Nat) : Slot := if (s.slot k i).launched then { s.slot k i with next := slotOldest s k i } else s.slot k i

theorem leaveSlot_some (h : (s.core k).running = some i) :
    leaveSlot s k = (s.setSlot k i (slotLeft s k i)).modCore k (fun c => { c with window := [] }) := by
  unfold leaveSlot
  rw [h]
  rfl

theorem slotEntered_left (s : State) (k : Nat) (j : Option Nat) :
    slotEntered (leaveSlot s k) k j ((leaveSlot s k).core k) = slotEntered s k j (s.core k) := by
  cases h : (s.core k).running with
  | none => rw [leaveSlot_idle h]
  | some i =>
    rw [leaveSlot_some h, core_modCore]
    rfl

theorem core_leaveSlot_ne (s : State) {n : Nat} (hn : n ≠ k) : (leaveSlot s k).core n = s.core n := by
  cases h : (s.core k).running with
  | none => rw [leaveSlot_idle h]
  | some i =>
    rw [leaveSlot_some h]
    exact core_setCore_ne _ _ (Ne.symm hn)

theorem slot_leaveSlot (h : (s.core k).running = some i) : (leaveSlot s k).slot k i = slotLeft s k i := by
  rw [leaveSlot_some h]
  exact slot_setSlot _ _ _ _

theorem slot_leaveSlot_ne {n m : Nat} (hm : m < 8) (h : ∀ r, (s.core k).running = some r → r < 8 ∧ (n, m) ≠ (k, r)) :
    (leaveSlot s k).slot n m = s.slot n m := by
  cases hr : (s.core k).running with
  | none => rw [leaveSlot_idle hr]
  | some i =>
    rw [leaveSlot_some hr]
    exact slot_setSlot_ne s _ (h i hr).1 hm (h i hr).2

theorem changeSlot_plain (s : State) (k j : Nat) : changeSlot s k j false = enterSlot (leaveSlot s k) k (some j) := by
  unfold changeSlot
  dsimp only
  split
  · rfl
  · rfl

theorem changeSlot_regs (s : State) (k j : Nat) (choice : Bool) :
    Within 8 (enterSlot (leaveSlot s k) k (some j)) (changeSlot s k j choice) := by
  unfold changeSlot
  dsimp only
  split
  · exact within_ite (within_bump _ _ _ _ _ (Within.refl _) (Sub.refl _)) (Within.refl _)
  · exact Within.refl _

/-- A change of slot leaves the running slot and enters the other. -/
theorem changed_of_within (h : Within 8 (enterSlot (leaveSlot s k) k (some j)) t) : Changed s t k (some j) := by
  obtain ⟨h1, h2, h3, -⟩ := core_enterSlot (leaveSlot s k) k (some j)
  have hcore (n : Nat) : t.core n = (enterSlot (leaveSlot s k) k (some j)).core n := core_same (h.same .cores (by decide)) n
  have hslot (n i : Nat) : t.slot n i = (leaveSlot s k).slot n i := (slot_same (h.same .slots (by decide)) n i).trans (h3 n i)
  refine ⟨(hcore k).trans (h1.trans (slotEntered_left s k (some j))), fun n hn => (hcore n).trans ((h2 n hn).trans (core_leaveSlot_ne s hn)),
    fun i hi => (hslot k i).trans (slot_leaveSlot hi), fun n m hm hne => (hslot n m).trans (slot_leaveSlot_ne hm hne), ?_⟩
  exact ((within_enterSlot _ k (some j) (within_leaveSlot s k (Within.refl s) (Sub.refl _)) rfl : Within 6291456 s _).trans h rfl rfl :
    Within 6291464 s t).only rfl

theorem changed_changeSlot (s : State) (k j : Nat) (choice : Bool) : Changed s (changeSlot s k j choice) k (some j) :=
  changed_of_within (changeSlot_regs s k j choice)

theorem changed_plain (s : State) (k j : Nat) : Changed s (changeSlot s k j false) k (some j) ∧ Only [.cores, .slots] s (changeSlot s k j false) := by
  refine ⟨changed_changeSlot s k j false, ?_⟩
  rw [changeSlot_plain]
  exact (within_enterSlot _ k (some j) (within_leaveSlot s k (Within.refl s) (Sub.refl _)) rfl : Within 6291456 s _).only rfl

theorem changed_enterSlot (h : (s.core k).running = none) (j : Nat) : Changed s (enterSlot s k (some j)) k (some j) ∧ Only [.cores] s (enterSlot s k (some j)) := by
  have hc := changed_of_within (s := s) (k := k) (j := j) (Within.refl (μ := 8) _)
  rw [leaveSlot_idle h] at hc
  obtain ⟨-, -, -, ho⟩ := core_enterSlot s k (some j)
  exact ⟨hc, ho⟩

/-- In Summer a change of slot counts one SLOT choice (R261). -/
theorem choseSlot_changeSlot (hw : winterCore s k = false) (j : Nat) : ChoseSlot s (changeSlot s k j true) k := by
  intro p hp
  have hin : Within 6291456 s (enterSlot (leaveSlot s k) k (some j)) :=
    within_enterSlot _ k (some j) (within_leaveSlot s k (Within.refl s) (Sub.refl _)) rfl
  have hpart (n : Nat) : (enterSlot (leaveSlot s k) k (some j)).part n = s.part n := congrArg (fun l => tabGet ({} : Part) l n) (hin.same .parts (by decide))
  have hsec : secPart (enterSlot (leaveSlot s k) k (some j)) (coreSec k) = some p := by
    rw [← hp]
    simp only [secPart, hpart]
  have hsummer : (s.part p).winter = false := by
    rw [winterCore, hp] at hw
    exact hw
  have he : changeSlot s k j true = (enterSlot (leaveSlot s k) k (some j)).bump fRplChoiceSlotSlot p 0 1 := by
    unfold changeSlot
    dsimp only
    rw [hsec]
    dsimp only
    rw [hpart, hsummer]
    rfl
  rw [Counted, he, fld_bump_same _ _ _ _ _ (by decide) (by decide), fld_congr (hin.same .registers (by decide))]

/-! ### SLOT_CHANGE and BUBBLE_FILL by their cases -/

theorem slotChange_held (h : secHeld s (coreSec k) = true) : slotChangeOp k s = s ∧ bubbleFillOp k s = s := ⟨if_pos h, if_pos h⟩

section
variable (hh : secHeld s (coreSec k) = false) (hw : winterCore s k = false)
include hh hw

theorem summer_branch : slotChangeOp k s = match (s.core k).running with
    | none => (match firstLaunched s k (if (readySlots s k false (s.core k).running).isEmpty then readySlots s k true (s.core k).running
        else readySlots s k false (s.core k).running) with
      | some j => enterSlot s k (some j)
      | none => s)
    | some i =>
      if !(slotRuns s k i).isEmpty then s
      else if !runnable s k i then
        (match firstLaunched s k (if (readySlots s k false (s.core k).running).isEmpty then readySlots s k true (s.core k).running
            else readySlots s k false (s.core k).running) with
         | some j => changeSlot s k j false
         | none => enterSlot s k none)
      else if slotBest s k i then
        (match firstLaunched s k (readySlots s k false (s.core k).running) with
         | some j => changeSlot s k j true
         | none =>
           if decide ((s.core k).entered + 262144 ≤ aCycles s) && !(readySlots s k true (s.core k).running).isEmpty then
             (match nextBest s k i with | some j => changeSlot s k j true | none => s)
           else s)
      else if bubble s k i then
        (match firstLaunched s k (readySlots s k false (s.core k).running) with | some j => changeSlot s k j true | none => s)
      else s := by
  unfold slotChangeOp
  exact (if_neg (by rw [hh]; decide)).trans (if_neg (by rw [hw]; decide))

/-- A core without a running slot enters the first ready one, if there is one (R399). -/
theorem slotChange_idle (hr : (s.core k).running = none) :
    let first := firstLaunched s k (if (readySlots s k false (s.core k).running).isEmpty then readySlots s k true (s.core k).running
      else readySlots s k false (s.core k).running)
    (∀ j, first = some j → slotChangeOp k s = enterSlot s k (some j)) ∧ (first = none → slotChangeOp k s = s) := by
  rw [summer_branch hh hw, hr]
  refine ⟨fun j hj => ?_, fun hn => ?_⟩
  · dsimp only at hj ⊢
    rw [hj]
  · dsimp only at hn ⊢
    rw [hn]

section
variable (hr : (s.core k).running = some i)
include hr

theorem slotChange_busy (hb : slotRuns s k i ≠ []) : slotChangeOp k s = s := by
  rw [summer_branch hh hw, hr]
  exact if_pos (by simpa using hb)

variable (hb : slotRuns s k i = [])
include hb

/-- A slot that does not run any more gives way to the first ready one (R399). -/
theorem slotChange_over (hn : runnable s k i = false) :
    let first := firstLaunched s k (if (readySlots s k false (s.core k).running).isEmpty then readySlots s k true (s.core k).running
      else readySlots s k false (s.core k).running)
    (∀ j, first = some j → slotChangeOp k s = changeSlot s k j false) ∧ (first = none → slotChangeOp k s = enterSlot s k none) := by
  rw [summer_branch hh hw, hr]
  dsimp only
  rw [hb, hn]
  refine ⟨fun j hj => ?_, fun h0 => ?_⟩
  · rw [hj]
    rfl
  · rw [h0]
    rfl

variable (hn : runnable s k i = true)
include hn

/-- A ready latency-critical slot displaces a best-effort one, and one whose window waits (R399). -/
theorem slotChange_critical (hc : slotBest s k i = true ∨ bubble s k i = true)
    (hj : firstLaunched s k (readySlots s k false (s.core k).running) = some j) : slotChangeOp k s = changeSlot s k j true := by
  rw [summer_branch hh hw, hr] at *
  dsimp only
  rw [hb, hn, hj]
  cases hs : slotBest s k i with
  | true => rfl
  | false =>
    rw [hc.resolve_left (by rw [hs]; decide)]
    rfl

theorem slotChange_next (hs : slotBest s k i = true) (h0 : firstLaunched s k (readySlots s k false (s.core k).running) = none)
    (hlong : (s.core k).entered + 262144 ≤ aCycles s) (hbest : readySlots s k true (s.core k).running ≠ []) (hj : nextBest s k i = some j) :
    slotChangeOp k s = changeSlot s k j true := by
  have hcond : (decide ((s.core k).entered + 262144 ≤ aCycles s) && !(readySlots s k true (s.core k).running).isEmpty) = true := by
    simpa [hlong] using hbest
  rw [summer_branch hh hw]
  rw [hcond, h0, hr]
  dsimp only
  rw [hb, hn, hs, hj]
  rfl

theorem slotChange_still (hs : slotBest s k i = false) (hbub : bubble s k i = false) : slotChangeOp k s = s := by
  rw [summer_branch hh hw, hr]
  dsimp only
  rw [hb, hn, hs, hbub]
  rfl

end

theorem bubble_branch (hr : (s.core k).running = some i) {p : Nat} (hp : secPart s (coreSec k) = some p) : bubbleFillOp k s =
    if slotBest s k i || !bubble s k i || !(readySlots s k false (some i)).isEmpty then s
    else match firstLaunched s k (readySlots s k true (some i)) with
      | some j => changeSlot s k j true
      | none => s := by
  unfold bubbleFillOp
  refine ((if_neg (by rw [hh]; decide)).trans (if_neg (by rw [hw]; decide))).trans ?_
  simp only [hr, hp] <;> rfl

/-- A best-effort slot fills the bubble of a waiting latency-critical one (R190). -/
theorem bubbleFill_changes (hr : (s.core k).running = some i) (hp : (secPart s (coreSec k)).isSome = true) (hs : slotBest s k i = false)
    (hbub : bubble s k i = true) (h0 : readySlots s k false (s.core k).running = [])
    (hj : firstLaunched s k (readySlots s k true (s.core k).running) = some j) : bubbleFillOp k s = changeSlot s k j true := by
  obtain ⟨p, hp⟩ := Option.isSome_iff_exists.1 hp
  rw [hr] at h0 hj
  rw [bubble_branch hh hw hr hp, hs, hbub, h0, hj]
  rfl

theorem bubbleFill_still (hr : (s.core k).running = some i)
    (h : slotBest s k i = true ∨ bubble s k i = false ∨ readySlots s k false (s.core k).running ≠ []) : bubbleFillOp k s = s := by
  rw [hr] at h
  cases hp : secPart s (coreSec k) with
  | none =>
    rw [bubbleFillOp, if_neg (by rw [hh]; decide), if_neg (by rw [hw]; decide), hr, hp]
  | some p =>
    rw [bubble_branch hh hw hr hp]
    refine if_pos ?_
    rcases h with h | h | h
    · rw [h]; rfl
    · rw [h]; simp
    · simp [h]

end

/-! ### Winter -/

section
variable (hh : secHeld s (coreSec k) = false) (hw : winterCore s k = true)
include hh hw

theorem winter_branch : slotChangeOp k s = winterChange s k ∧ bubbleFillOp k s = winterFill s k := by
  have hn : ¬ secHeld s (coreSec k) = true := Bool.eq_false_iff.1 hh
  exact ⟨(if_neg hn).trans (if_pos hw), (if_neg hn).trans (if_pos hw)⟩

theorem winterChange_idle (hr : (s.core k).running = none) (hj : firstLaunched s k (winterSlots s k false) = some j) :
    slotChangeOp k s = enterSlot s k (some j) := by
  rw [(winter_branch hh hw).1, winterChange, hr, hj]

theorem winterChange_busy (hr : (s.core k).running = some i) (hb : slotRuns s k i ≠ []) : slotChangeOp k s = s := by
  rw [(winter_branch hh hw).1, winterChange, hr]
  exact if_pos (by simpa using hb)

theorem winterChange_over (hr : (s.core k).running = some i) (hb : slotRuns s k i = []) (hj : firstLaunched s k (winterSlots s k false) = some j)
    (h : runnable s k i = false ∨ ((s.slot k i).fillProgram = true ∧ fillLeft s k = 0)) : slotChangeOp k s = changeSlot s k j false := by
  rw [(winter_branch hh hw).1, winterChange, hr, hj]
  dsimp only
  rw [hb]
  cases hn : runnable s k i with
  | false => rfl
  | true =>
    obtain ⟨hf, h0⟩ := h.resolve_left (by rw [hn]; decide)
    rw [hf, h0]
    rfl

theorem winterFill_changes (hj : firstLaunched s k (winterSlots s k true) = some j) (hl : 1300 ≤ fillLeft s k)
    (hi : ∀ i, (s.core k).running = some i → slotRuns s k i = [] ∧ (s.slot k i).fillProgram = false) : bubbleFillOp k s = changeSlot s k j false := by
  rw [(winter_branch hh hw).2, winterFill, hj]
  dsimp only
  rw [decide_eq_true hl]
  cases hr : (s.core k).running with
  | none => rfl
  | some i =>
    obtain ⟨h1, h2⟩ := hi i hr
    exact if_pos (by simp [h1, h2])

theorem winterFill_still (hl : fillLeft s k < 1300) : bubbleFillOp k s = s := by
  rw [(winter_branch hh hw).2, winterFill]
  split
  · rw [decide_eq_false (Nat.not_le.2 hl)]
    rfl
  · rfl

end

/-! ### The statement -/

/-- A wait that is reported is marked in its core's window, counted and posted (R165). -/
theorem waitReported_frame (s : State) (hk : k < 96) (f : List WinDesc → List WinDesc) (n m c : Nat) :
    let t := postWait ((s.modCore k (fun x => { x with window := f x.window })).bump fCoreWdogWaitsReported (k / 12) (k % 12) 1) n m c
    (t.core k).window = f (s.core k).window ∧ Counted s t fCoreWdogWaitsReported (k / 12) (k % 12) 1 ∧ (∀ j, j ≠ k → t.core j = s.core j) ∧
      Only [.cores, .registers, .functions] s t := by
  have hmod := within_modCore s k (fun x => { x with window := f x.window }) (Within.refl s) (Sub.refl _)
  have hcore := core_modCore s k (fun x => { x with window := f x.window })
  have hother (j : Nat) (hj : j ≠ k) : (s.modCore k (fun x => { x with window := f x.window })).core j = s.core j := core_setCore_ne _ _ (Ne.symm hj)
  generalize s.modCore k (fun x => { x with window := f x.window }) = u at hmod hcore hother
  have hb := within_bump u fCoreWdogWaitsReported (k / 12) (k % 12) 1 (Within.refl u) (Sub.refl _)
  have hp := within_postWait (u.bump fCoreWdogWaitsReported (k / 12) (k % 12) 1) n m c (Within.refl _) (Sub.refl _)
  have hbp : Within 136 u (postWait (u.bump fCoreWdogWaitsReported (k / 12) (k % 12) 1) n m c) := hb.trans hp rfl rfl
  refine ⟨?_, ?_, fun j hj => ?_, (hmod.trans hbp rfl rfl : Within 2097288 s _).only rfl⟩
  · rw [core_same (hbp.same .cores (by decide)), hcore]
  · refine Counted.from ?_ (hmod.same .registers (by decide))
    refine ((regsBut_postPart _ _ _ _ (by decide)).fld (rs := [.mbxOutStatus]) (by decide) (by omega) (by omega)).trans ?_
    exact fld_bump_same _ _ _ _ _ (by decide) (by decide)
  · rw [core_same (hbp.same .cores (by decide)), hother j hj]

/-- Settles O28, by the rows of R399 in their order and the cases of an add. -/
theorem slotsAndWaits : Obligations.SlotsAndWaits := by
  unfold Obligations.SlotsAndWaits
  refine ⟨fun core s h => ?held, fun core s hh hw => ?summer, fun core s hh hw => ?winter, fun core index s i d hr hd => ?waits, fun k n tag s => ?add⟩
  case held =>
    obtain ⟨h1, h2⟩ := slotChange_held h
    exact ⟨congrArg Host.Outcome.next h1, congrArg Host.Outcome.next h2⟩
  case summer =>
    intro ready best first
    have hnext {t : State} (h : slotChangeOp core.val s = t) : exec (.slotChange core) s = .next t := congrArg Host.Outcome.next h
    have hfill {t : State} (h : bubbleFillOp core.val s = t) : exec (.bubbleFill core) s = .next t := congrArg Host.Outcome.next h
    have hchange (j : Nat) : Changed s (changeSlot s core.val j true) core.val (some j) ∧ ChoseSlot s (changeSlot s core.val j true) core.val :=
      ⟨changed_changeSlot s _ j true, choseSlot_changeSlot hw j⟩
    refine ⟨fun hr => ?_, fun i hr hb => hnext (slotChange_busy hh hw hr hb), fun i hr hb hn => ?_, fun i hr hb hn =>
      ⟨fun j hc hj => ⟨_, hnext (slotChange_critical hh hw hr hb hn hc hj), hchange j⟩,
       fun j hs h0 hlong hbest hj => ⟨_, hnext (slotChange_next hh hw hr hb hn hs h0 hlong hbest hj), hchange j⟩,
       fun hs hbub => hnext (slotChange_still hh hw hr hb hn hs hbub),
       fun j hp hs hbub h0 hj => ⟨_, hfill (bubbleFill_changes hh hw hr hp hs hbub h0 hj), hchange j⟩,
       fun h => hfill (bubbleFill_still hh hw hr h)⟩⟩
    · obtain ⟨h1, h2⟩ := slotChange_idle hh hw hr
      exact ⟨fun j hj => ⟨_, hnext (h1 j hj), changed_enterSlot hr j⟩, fun h0 => hnext (h2 h0)⟩
    · obtain ⟨h1, h2⟩ := slotChange_over hh hw hr hb hn
      refine ⟨fun j hj => ⟨_, hnext (h1 j hj), changed_plain s _ j⟩, fun h0 => ⟨_, hnext (h2 h0), ?_⟩⟩
      obtain ⟨e1, e2, -, e4⟩ := core_enterSlot s core.val none
      rw [e1]
      exact ⟨rfl, rfl, e2, e4⟩
  case winter =>
    intro next
    have hnext {t : State} (h : slotChangeOp core.val s = t) : exec (.slotChange core) s = .next t := congrArg Host.Outcome.next h
    have hfill {t : State} (h : bubbleFillOp core.val s = t) : exec (.bubbleFill core) s = .next t := congrArg Host.Outcome.next h
    exact ⟨fun j hr hj => ⟨_, hnext (winterChange_idle hh hw hr hj), changed_enterSlot hr j⟩,
      fun i j hr hb hj h => ⟨_, hnext (winterChange_over hh hw hr hb hj h), changed_plain s _ j⟩,
      fun i hr hb => hnext (winterChange_busy hh hw hr hb),
      fun j hj hl hi => ⟨_, hfill (winterFill_changes hh hw hj hl hi), changed_plain s _ j⟩,
      fun hl => hfill (winterFill_still hh hw hl)⟩
  case waits =>
    have hk : core.val < 96 := core.isLt
    refine ⟨fun hrep hmet => ?_, fun h => ?_, fun hmet ha => ?_⟩
    · refine ⟨_, (exec_waitLimit hr hd).trans (congrArg Host.Outcome.next (if_neg (by simp [hrep, hmet]))), ?_⟩
      exact waitReported_frame s hk _ _ _ _
    · rw [exec_waitLimit hr hd]
      refine congrArg Host.Outcome.next (if_pos ?_)
      rcases h with h | h <;> simp [h]
    · refine ⟨_, (exec_tileTimeout hr hd).trans (congrArg Host.Outcome.next (if_neg (by simp [hmet]))), ?_⟩
      exact faulted_coreFault _ _ _ _ _ _ _ _ ha
  case add =>
    intro x
    refine ⟨fun h => (exec_tallyAdd k n tag s).trans (congrArg Host.Outcome.next (if_pos h)), fun h => ?_⟩
    have hx {t : State} (ht : tallyAddOp s k.val n.toNat = t) : exec (.tallyAdd k n tag) s = .next t :=
      (exec_tallyAdd k n tag s).trans (congrArg Host.Outcome.next ((if_neg (Bool.eq_false_iff.1 h)).trans ht))
    refine ⟨fun h0 => hx (tallyAddOp_absent h0), fun hp ha => hx (tallyAddOp_abandoned hp ha), fun hp ha ho hact => ?_, fun hp ha ho => ?_⟩
    · exact ⟨_, hx (tallyAddOp_overflow hp ha ho), faulted_ctxFault _ _ _ _ _ _ hact, countsKept_ctxFault _ _ _ _ _ _ _⟩
    · have hcount := countsKept_markTally s k.val
      obtain ⟨t1, t2, t3, t4⟩ := tally_tallyTaken (markTally s k.val) k.val n.toNat
      refine ⟨_, hx (tallyAddOp_taken hp ha ho), ?_, fun j hj => ?_, fun hm => ?_⟩
      · rw [t1]
        exact congrArg (· + n.toNat) (hcount k.val)
      · rw [t2 j hj]
        exact hcount j
      · have hid : markTally s k.val = s := by
          unfold markTally
          dsimp only
          rw [List.filter_eq_nil_iff.2 fun y hy => by simpa using List.all_eq_true.1 hm y hy]
          rfl
        rw [hid] at t1 t2 t3 t4 ⊢
        exact ⟨t1, t2, t3, t4⟩

end Sys2Proof.Machine
end

section
/-! The statement about WITNESS_CHECK_DONE (R203 to R207, R419, R423). -/

namespace Sys2Proof.Machine

variable {s t u : State} {x : Sample} {n : Nat} {w : List (BitVec 48 × Word32)} {cond : Cond}

/-! ### The witness, freed -/

/-- The witness of a section is free, its sample is counted, and the hold for its check ends (R204, R206). -/
def witnessFreed (s : State) (n p : Nat) : State :=
  dropCauses ((s.setWitness n none).bump fNumWitStatSampled n 0 1) p (fun c => c.field == 6 && c.key == witnessKey n)

theorem within_witnessFreed (s : State) (n p : Nat) : Within 16781320 s (witnessFreed s n p) :=
  within_dropCauses _ _ _ (within_bump _ _ _ _ _ (within_setWitness _ _ _ (Within.refl s) rfl) rfl) rfl

theorem witness_same (h : Area.witness.same s t) (k : Nat) : t.witness k = s.witness k :=
  congrArg (fun l => tabGet (none : Option Sample) l k) h

theorem witness_witnessFreed (s : State) (n p : Nat) : (witnessFreed s n p).witness n = none ∧
    ∀ k, k ≠ n → (witnessFreed s n p).witness k = s.witness k := by
  have h : Within 4104 (s.setWitness n none) (witnessFreed s n p) :=
    within_dropCauses _ _ _ (within_bump _ _ _ _ _ (Within.refl _) rfl) rfl
  refine ⟨?_, fun k hk => ?_⟩
  · rw [witness_same (h.same .witness (by decide)), witness_setWitness]
  · rw [witness_same (h.same .witness (by decide)), witness_setWitness_ne _ _ (Ne.symm hk)]

theorem counted_witnessFreed (s : State) (n p : Nat) : Counted s (witnessFreed s n p) fNumWitStatSampled n 0 1 := by
  have h := within_dropCauses ((s.setWitness n none).bump fNumWitStatSampled n 0 1) p (fun c => c.field == 6 && c.key == witnessKey n)
    (Within.refl _) (Sub.refl _)
  rw [Counted, witnessFreed, fld_congr (h.same .registers (by decide)), fld_bump_same _ _ _ _ _ (by decide) (by decide)]
  rfl

theorem drift_witnessFreed (s : State) (n p q : Nat) : ((witnessFreed s n p).part q).drift = (s.part q).drift := by
  have hr : Rests s (witnessFreed s n p) :=
    (within_bump _ fNumWitStatSampled n 0 1 (within_setWitness s n none (Within.refl s) rfl) rfl : Within 16777224 s _).rests.trans (rests_dropCauses _ _ _)
  have h := congrArg Part.drift (hr.part q)
  exact h

/-! ### The three ends of a check -/

/-- What the check of a sample does once its witness is free. -/
def checkEnd (s : State) (n : Nat) (x : Sample) (first second : List CellError) (cond : Cond) : State :=
  if (accDiffs x x.accs (witnessAccs x first)).isEmpty then releaseTile (driftCheck s (s.ctx x.ctx).part x cond) x
  else if (accDiffs x (witnessAccs x first) (witnessAccs x second)).isEmpty then arrayAtFault s n (s.ctx x.ctx).part x (witnessAccs x first) cond
  else witnessAtFault s n (s.ctx x.ctx).part x (witnessAccs x first) cond

theorem exec_witnessCheck {sec : Sec} {first second : List CellError} (hx : s.witness sec.val = some x) :
    exec (.witnessCheckDone sec ⟨first, second⟩ cond) s =
      .next (checkEnd (witnessFreed s sec.val (s.ctx x.ctx).part) sec.val x first second cond) := by
  change Host.Outcome.next (witnessDone sec.val first second cond s) = _
  unfold witnessDone
  rw [hx]
  rfl

theorem within_checkEnd (s : State) (n : Nat) (x : Sample) (first second : List CellError) (cond : Cond) :
    Within 1785231869 s (checkEnd s n x first second cond) := by
  refine within_ite ?_ (within_ite (within_arrayAtFault _ _ _ _ _ _ (Within.refl s) (Sub.refl _)) (within_witnessAtFault _ _ _ _ _ _ (Within.refl s) (Sub.refl _)))
  exact within_releaseTile _ _ (within_driftCheck _ _ _ _ (Within.refl s) rfl) (Sub.refl _)

/-! ### The sampled tile -/

theorem heldTile_same (h : Area.cores.same s t) (x : Sample) : heldTile t x = heldTile s x := by
  rw [heldTile, heldTile, core_same h]

theorem runningTile_same (h : Area.cores.same s t) (x : Sample) : runningTile t x = runningTile s x := by
  rw [runningTile, runningTile, coreUnit_same h]

theorem tileDead_same (h : Area.ctxs.same s t) (r : TileRun) : tileDead t r = tileDead s r := by
  simp only [tileDead, ctxTag, ctx_same h]

theorem releaseTile_none (hh : heldTile s x = none) (hr : runningTile s x = none) : releaseTile s x = s := by
  rw [releaseTile, hh, hr]

theorem coreUnit_setUnit (s : State) (k u : Nat) (v : UnitState) : coreUnit (setUnit s k u v) k u = v := by
  rw [coreUnit, setUnit, core_modCore]
  exact tabGet_tabSet_same _ _ _ _

theorem releaseTile_running {r : TileRun} (hh : heldTile s x = none) (hr : runningTile s x = some r) :
    releaseTile s x = setUnit s x.core x.array (.tile { r with sampled := false }) := by
  rw [releaseTile, hh, hr]

theorem heldTile_dropTile (s : State) (x : Sample) : heldTile (dropTile s x) x = none := by
  rw [heldTile, dropTile, core_modCore]
  dsimp only
  rw [Option.map_eq_none_iff, List.find?_eq_none]
  intro e he hm
  have := (List.mem_filter.1 he).2
  rw [hm] at this
  exact nomatch this

/-- A tile whose signals its tallies take signals and is passed over (R160). -/
theorem signalTile_takes {k a : Nat} {r : TileRun} (h : SignalsTake s r.bytes) : ∃ v, signalTile s k a r = markSignalled v k r.slot r.index ∧
    Signalled s v r.bytes ∧ Within 22536 s v ∧ Rests s v := by
  have hb := within_bump s fCoreTilesCompleted (k / 12) (k % 12) 1 (Within.refl s) (Sub.refl _)
  have hn := within_noteLaunch (s.bump fCoreTilesCompleted (k / 12) (k % 12) 1) k r.slot (r.marked || !r.poison.isEmpty) (Within.refl _) (Sub.refl _)
  have hbn : Within 2056 s (noteLaunch (s.bump fCoreTilesCompleted (k / 12) (k % 12) 1) k r.slot (r.marked || !r.poison.isEmpty)) := hb.trans hn rfl rfl
  have hst := h.kept (hbn.same .tallies (by decide)) fun c => congrArg Ctx.marks (ctx_same (hbn.same .ctxs (by decide)) c)
  obtain ⟨v, hv, ⟨hw, hr⟩, hs⟩ := signalAll_takes hst
  refine ⟨v, ?_, fun j => ?_, (hbn.trans hw rfl rfl : Within 22536 s v), hbn.rests.trans hr⟩
  · unfold signalTile
    dsimp only
    rw [hv]
    rfl
  · rw [hs j, tally_same (hbn.same .tallies (by decide))]

/-- A tile that was held for its check signals (R206). -/
theorem releaseTile_held {r : TileRun} (hh : heldTile s x = some r) (hd : tileDead s r = false) (hs : SignalsTake s r.bytes) :
    heldTile (releaseTile s x) x = none ∧ Signalled s (releaseTile s x) r.bytes := by
  have hdrop := within_dropTile s x (Within.refl s) (Sub.refl _)
  have he : releaseTile s x = signalTile (dropTile s x) x.core x.array r := by
    rw [releaseTile, hh]
    exact if_neg (by rw [hd]; decide)
  have hst := hs.kept (hdrop.same .tallies (by decide)) fun c => congrArg Ctx.marks (ctx_same (hdrop.same .ctxs (by decide)) c)
  obtain ⟨v, hv, hsig, hw, -⟩ := signalTile_takes (k := x.core) (a := x.array) hst
  have hm := within_markSignalled v x.core r.slot r.index (Within.refl v) (Sub.refl _)
  rw [he, hv]
  refine ⟨?_, fun j => ?_⟩
  · rw [heldTile_same (hm.same .cores (by decide)), heldTile_same (hw.same .cores (by decide)), heldTile_dropTile]
  · rw [tally_same (hm.same .tallies (by decide)), hsig j, tally_same (hdrop.same .tallies (by decide))]

/-! ### The ends at fault -/

theorem faulted_arrayAtFault {p : Nat} (ht : x.tag = ctxTag s x.ctx) (ha : (s.ctx x.ctx).mode = .active) :
    Faulted (arrayAtFault s n p x w cond) x.ctx 0x0D := by
  have h : Within 1210060984 s (stopTile (postBoth (healthEvent ((logOutlier s p x (exactFinding 1 x w) cond).bump fNumWitEventsExactMismatch n 0 1)
      (huCore x.core) 17 7000) (some p) 0xE2 (n * 2 ^ 45 + x.core % 12 * 2 ^ 41 + x.array * 2 ^ 39 + x.ctx * 2 ^ 30)) x) :=
    within_stopTile _ _ (within_postBoth _ _ _ _ (within_healthEvent _ _ _ _ (within_bump _ _ _ _ _ (within_logOutlier _ _ _ _ _ (Within.refl s) rfl) rfl) rfl) rfl) rfl
  unfold arrayAtFault
  dsimp only
  revert h
  generalize stopTile _ x = v
  intro h
  have hc := ctx_same (h.same .ctxs (by decide)) x.ctx
  rw [if_pos (by rw [ctxTag, hc]; exact ht)]
  exact faulted_coreFault _ _ _ _ _ _ _ _ (by rw [hc, ha])

/-- A witness that disagrees with itself is offline in its section (R204). -/
theorem offline_witnessAtFault {p : Nat} (hn : n < 8) (hh : heldTile s x = none) : (witnessAtFault s n p x w cond).fld fNumCfgWitOffline n 0 = 1 := by
  unfold witnessAtFault
  dsimp only
  have hlog : Within 134222008 s ((logOutlier s p x (exactFinding 2 x w) cond).bump fNumWitEventsSelfDisagree n 0 1) :=
    within_bump _ _ _ _ _ (within_logOutlier _ _ _ _ _ (Within.refl s) (Sub.refl _)) rfl
  generalize (logOutlier s p x (exactFinding 2 x w) cond).bump fNumWitEventsSelfDisagree n 0 1 = v at hlog
  have hset : (v.setFld fNumCfgWitOffline n 0 1).fld fNumCfgWitOffline n 0 = 1 := fld_setFld_same _ _ _ _ _ (by decide) (by decide)
  have hw := within_setFld v fNumCfgWitOffline n 0 1 (Within.refl v) (Sub.refl _)
  generalize v.setFld fNumCfgWitOffline n 0 1 = y at hset hw
  have hreg : RegsBut [.mbxOutStatus, .hltUnit] y (postTo (healthEvent y (huSection n) 15 1000) [0] 0xEA (n * 2 ^ 45)) :=
    (regsBut_healthEvent y 15 1000 (by decide) (by decide) (Nat.lt_trans hn (by decide))).trans
      (regsBut_postTo _ _ _ (by decide) fun f hf => by rw [List.mem_singleton.1 hf]; decide)
  have hpost := within_postTo (healthEvent y (huSection n) 15 1000) [0] 0xEA (n * 2 ^ 45) (within_healthEvent y _ _ _ (Within.refl y) (Sub.refl _)) rfl
  generalize postTo (healthEvent y (huSection n) 15 1000) [0] 0xEA (n * 2 ^ 45) = z at hreg hpost
  have hall : Within 134222008 s z := (hlog.trans hw rfl rfl : Within 134222008 s y).trans hpost rfl rfl
  have hoff : z.fld fNumCfgWitOffline n 0 = 1 := (hreg.fld (by decide) (Nat.lt_trans hn (by decide)) (by decide)).trans hset
  have hz : heldTile z x = none := (heldTile_same (hall.same .cores (by decide)) x).trans hh
  cases hr : runningTile z x with
  | none => rwa [releaseTile_none hz hr]
  | some r =>
    rw [releaseTile_running hz hr]
    exact hoff

/-! ### The statement -/

/-- Settles O29, by the outcome of the exact check and the place of the sampled tile. -/
theorem witnessChecks : Obligations.WitnessChecks := by
  unfold Obligations.WitnessChecks
  refine ⟨fun sec first second cond s hx => ?none, fun sec first second cond s x hx => ?some⟩
  case none =>
    change Host.Outcome.next (witnessDone sec.val first second cond s) = _
    rw [witnessDone, hx]
  case some =>
    intro w
    have he := exec_witnessCheck (cond := cond) (first := first) (second := second) hx
    obtain ⟨w1, w2⟩ := witness_witnessFreed s sec.val (s.ctx x.ctx).part
    have hcount := counted_witnessFreed s sec.val (s.ctx x.ctx).part
    have hdrift := drift_witnessFreed s sec.val (s.ctx x.ctx).part (s.ctx x.ctx).part
    have hu := within_witnessFreed s sec.val (s.ctx x.ctx).part
    generalize witnessFreed s sec.val (s.ctx x.ctx).part = u at he w1 w2 hcount hdrift hu
    have hctx := ctx_same (hu.same .ctxs (by decide)) x.ctx
    have hfree : ∀ k, (checkEnd u sec.val x first second cond).witness k = u.witness k :=
      witness_same ((within_checkEnd u sec.val x first second cond).same .witness (by decide))
    have hnone : (checkEnd u sec.val x first second cond).witness sec.val = none := (hfree _).trans w1
    refine ⟨⟨_, he, hnone, fun k hk => (hfree k).trans (w2 k hk)⟩, fun hd hp => ?_, fun hd h2 ht ha => ⟨_, he, hnone, ?_⟩,
      fun hd h2 hh => ⟨_, he, hnone, ?_⟩⟩
    · have hrel : checkEnd u sec.val x first second cond = releaseTile u x := by
        refine (if_pos (by rw [hd]; rfl)).trans (congrArg (releaseTile · x) ?_)
        unfold driftCheck
        rw [hctx, hdrift, hp]
      rw [hrel] at he hnone
      have hheld := heldTile_same (hu.same .cores (by decide)) x
      have hrun := runningTile_same (hu.same .cores (by decide)) x
      refine ⟨fun hh hr => ?_, fun r hh hr => ?_, fun r hh hdead hs => ?_⟩
      · rw [releaseTile_none (hheld.trans hh) (hrun.trans hr)] at he
        exact ⟨u, he, w1, hcount, hu.only rfl⟩
      · rw [releaseTile_running (hheld.trans hh) (hrun.trans hr)] at he
        have hset := within_setUnit u x.core x.array (.tile { r with sampled := false }) (Within.refl u) (Sub.refl _)
        exact ⟨_, he, w1, hcount, coreUnit_setUnit _ _ _ _, (hu.trans hset rfl rfl : Within 18878472 s _).only rfl⟩
      · obtain ⟨h1, h2⟩ := releaseTile_held (hheld.trans hh) ((tileDead_same (hu.same .ctxs (by decide)) r).trans hdead)
          (hs.kept (hu.same .tallies (by decide)) fun c => congrArg Ctx.marks (ctx_same (hu.same .ctxs (by decide)) c))
        exact ⟨_, he, hnone, h1, fun k => by rw [h2 k, tally_same (hu.same .tallies (by decide))]⟩
    · rw [checkEnd, if_neg (by simpa using hd), if_pos (by rw [h2]; rfl)]
      exact faulted_arrayAtFault (by rw [ctxTag, hctx]; exact ht) (by rw [hctx, ha])
    · rw [checkEnd, if_neg (by simpa using hd), if_neg (by simpa using h2)]
      exact offline_witnessAtFault sec.isLt ((heldTile_same (hu.same .cores (by decide)) x).trans hh)

end Sys2Proof.Machine
end

section
/-! Progress of a collective descriptor (R303, R308, R312): what it keeps of group records and of its descriptor. -/

namespace Sys2Proof.Machine

variable {s t u v : State} {e : CEnv} {st : CStage}

/-! ### Sequence numbers of groups -/

/-- No group's SEQ differs. -/
def SeqKept (s t : State) : Prop := ∀ n k, (t.comm n k).seq = (s.comm n k).seq

theorem SeqKept.refl (s : State) : SeqKept s s := fun _ _ => rfl

theorem SeqKept.trans (h : SeqKept s t) (g : SeqKept t u) : SeqKept s u := fun n k => (g n k).trans (h n k)

theorem Within.seqs {μ : Nat} (h : Within μ s t) (hc : μ.testBit 20 = false := by decide) : SeqKept s t :=
  fun n k => congrArg Comm.seq (comm_same (h.same .comms hc) n k)

theorem seqKept_modComm (s : State) (n k : Nat) (f : Comm → Comm) (hf : ∀ x, (f x).seq = x.seq) : SeqKept s (s.modComm n k f) := fun m j => by
  by_cases h : n * 64 + k = m * 64 + j
  · have hs : s.comm m j = s.comm n k := by rw [State.comm, State.comm, ← h]
    have ht : (s.modComm n k f).comm m j = f (s.comm n k) := by
      rw [State.comm, ← h]
      exact tabGet_tabSet_same _ _ _ _
    rw [hs, ht, hf]
  · exact congrArg Comm.seq (tabGet_tabSet_ne _ _ _ h)

theorem seqKept_foldl {α : Type} (l : List α) (g : State → α → State) (h : ∀ t a, SeqKept t (g t a)) (s : State) : SeqKept s (l.foldl g s) := by
  induction l generalizing s with
  | nil => exact SeqKept.refl s
  | cons a l ih => exact (h s a).trans (ih _)

theorem seqKept_foldlFst {α β : Type} (l : List α) (g : State × β → α → State × β) (h : ∀ a c, SeqKept a.1 (g a c).1) (a : State × β) :
    SeqKept a.1 (l.foldl g a).1 := by
  induction l generalizing a with
  | nil => exact SeqKept.refl a.1
  | cons c l ih => exact (h a c).trans (ih (g a c))

theorem seqKept_collWrite (s : State) (l c g : Nat) (w : PeerPlace) (k : Nat) (d : List Byte) (n : Nat) : SeqKept s (collWrite s l c g w k d n) :=
  (within_collWrite s l c g w k d n (Within.refl s) (Sub.refl _)).seqs rfl

theorem seqKept_peerPlace (s : State) : SeqKept s (peerPlace s).1 := fun _ _ => rfl

theorem seqKept_returnSlot (s : State) (e : CEnv) (table peer : Nat) : SeqKept s (returnSlot s e table peer) := by
  unfold returnSlot
  dsimp only
  split
  · exact (seqKept_peerPlace s).trans (seqKept_collWrite _ _ _ _ _ _ _ _)
  · split
    · exact seqKept_modComm _ _ _ _ fun _ => rfl
    · exact SeqKept.refl s

theorem seqKept_takeChunk (s : State) (e : CEnv) (c : StagedSlot) (n : Nat) : SeqKept s (takeChunk s e c n) := by
  unfold takeChunk
  have h := seqKept_modComm s e.sec e.comm (fun y => { y with staged := y.staged.erase c }) fun _ => rfl
  generalize s.modComm e.sec e.comm _ = t at h
  exact (h.trans ((within_bump t _ _ _ _ (Within.refl t) (Sub.refl _)).seqs rfl)).trans (seqKept_returnSlot _ _ _ _)

theorem seqKept_routeChunk (s : State) (e : CEnv) (c : StagedChunk) : SeqKept s (routeChunk s e c) := by
  have hb : SeqKept s (s.bump fCollBytesTxBytes e.sec 0 c.data.length) := (within_bump _ _ _ _ _ (Within.refl _) (Sub.refl _)).seqs rfl
  unfold routeChunk
  dsimp only
  split
  · have hw := ((hb.trans (seqKept_peerPlace _)).trans (seqKept_collWrite (peerPlace (s.bump fCollBytesTxBytes e.sec 0 c.data.length)).1 (e.sec * 8 +
      (peerRoute e.x c.table c.peer).2) e.ctx e.x.epoch (peerPlace (s.bump fCollBytesTxBytes e.sec 0 c.data.length)).2 0 c.data 0)).trans
      (seqKept_collWrite _ (e.sec * 8 + (peerRoute e.x c.table c.peer).2) e.ctx e.x.epoch
        (peerPlace (s.bump fCollBytesTxBytes e.sec 0 c.data.length)).2 e.x.chunk c.header 1)
    split
    · exact hw.trans ((within_addOpenCause _ _ _ _ (Within.refl _) (Sub.refl _)).seqs rfl)
    · exact hw
  · split
    · exact hb.trans (seqKept_modComm _ _ _ _ fun _ => rfl)
    · exact hb

theorem seqKept_pumpChunks (s : State) (e : CEnv) (l : List StagedChunk) : SeqKept s (pumpChunks s e l).1 := by
  refine seqKept_foldlFst l _ (fun a c => ?_) (s, [])
  dsimp only
  split
  · exact SeqKept.refl _
  · generalize tabGet 0 (a.1.comm e.sec e.comm).used (peerKey c.table c.peer) + 1 = n
    have h := seqKept_modComm a.1 e.sec e.comm (fun y => { y with used := tabSet 0 y.used (peerKey c.table c.peer) n }) fun _ => rfl
    exact h.trans (seqKept_routeChunk _ _ _)

theorem seqKept_tryUp {a b : CStep} {n : Nat} (h : tryUp a e st n = some b) : SeqKept a.s b.s := by
  unfold tryUp at h
  split at h
  · exact nomatch h
  · dsimp only at h
    split at h
    · exact nomatch h
    · have hr := fun l => ((within_readSlots a.s e.x l (Within.refl _) (Sub.refl _)).seqs rfl)
      split at h
      · cases h; exact hr _
      · cases h; exact hr _
      · cases h
        refine SeqKept.trans ?_ ((within_upAction _ _ _ _ _ _ (Within.refl _) (Sub.refl _)).seqs rfl)
        exact (hr _).trans (seqKept_foldl _ _ (fun _ _ => seqKept_takeChunk _ _ _ _) _)

theorem seqKept_tryDown {a b : CStep} {n : Nat} (h : tryDown a e st n = some b) : SeqKept a.s b.s := by
  unfold tryDown at h
  split at h
  · exact nomatch h
  · split at h
    · exact nomatch h
    next slot _ =>
      split at h
      · exact nomatch h
      · have hr := (within_readSlot a.s e.x slot (Within.refl _) (Sub.refl _)).seqs rfl
        dsimp only at h
        split at h
        · cases h; exact hr
        · cases h; exact hr
        · cases h
          exact (hr.trans (seqKept_takeChunk _ _ _ _)).trans ((within_goDownWith _ _ _ _ _ _ _ (Within.refl _) (Sub.refl _)).seqs rfl)

theorem seqKept_collLoop (e : CEnv) (n : Nat) (a : CStep) : SeqKept a.s (collLoop e n a).s := by
  induction n generalizing a with
  | zero => exact SeqKept.refl _
  | succ n ih =>
    unfold collLoop
    split
    · exact SeqKept.refl _
    · split
      · exact SeqKept.refl _
      · split
        · refine SeqKept.trans ?_ (ih _)
          exact (within_storeWhole _ _ _ (Within.refl _) (Sub.refl _)).seqs rfl
        · split
          next b h =>
            obtain ⟨t, _, ht⟩ := List.exists_of_findSome?_eq_some h
            refine SeqKept.trans ?_ (ih b)
            cases hu : tryUp a e _ t with
            | some x => rw [hu] at ht; cases ht; exact seqKept_tryUp hu
            | none => rw [hu] at ht; exact seqKept_tryDown ht
          next => exact SeqKept.refl _

theorem seqKept_collRun (s : State) (sec : Nat) : SeqKept s (collRun s sec) := by
  unfold collRun
  split
  next j _ =>
    split
    · exact SeqKept.refl s
    · dsimp only
      have hl := seqKept_collLoop (collEnv s sec j) (8 * ((collEnv s sec j).chunks.length + 4)) { s := s, r := j.coll, j := j }
      generalize collLoop _ _ _ = a at hl
      split
      · exact hl.trans ((within_collFault _ _ _ _ _ _ (Within.refl _) (Sub.refl _)).seqs rfl)
      · have hp := hl.trans (seqKept_pumpChunks a.s (collEnv s sec j) a.r.toSend)
        split
        · refine hp.trans (Within.seqs (μ := 8392704) ?_)
          exact within_putJob _ _ _ _ (within_collUnhold _ _ _ (Within.refl _) rfl) rfl
        · exact hp.trans ((within_collWait _ _ _ _ (Within.refl _) (Sub.refl _)).seqs rfl)
  next => exact SeqKept.refl s

theorem seqKept_collProgress (s : State) (sec : Nat) : SeqKept s (collProgress s sec) := by
  unfold collProgress
  split
  · dsimp only
    split
    · exact seqKept_collRun s sec
    · split
      · exact (within_collUnhold _ _ _ (Within.refl s) (Sub.refl _)).seqs rfl
      · exact SeqKept.refl s
  · exact SeqKept.refl s

/-! ### The descriptor -/

/-- What tells one taken descriptor from another. -/
def jobId (j : Job) : Nat × Nat × Nat × List Byte × Nat := (j.queue, j.pos, j.ctx, j.bytes, j.lastSeq)

theorem jobId_storeReduced (a : CStep) (e : CEnv) (pos first : Nat) (vs : List Val) (no : Nat) : jobId (storeReduced a e pos first vs no).j = jobId a.j := by
  unfold storeReduced
  dsimp only
  split <;> rfl

theorem jobId_storeMoved (a : CStep) (e : CEnv) (k : CChunk) (pos skip n : Nat) (d : List Byte) : jobId (storeMoved a e k pos skip n d).j = jobId a.j := by
  unfold storeMoved
  dsimp only
  generalize storeRun _ _ _ _ _ _ _ _ = cells
  split <;> rfl

theorem jobId_deliver (a : CStep) (e : CEnv) (st : CStage) (k : CChunk) (stamp : Nat) (d : List Byte) : jobId (deliver a e st k stamp d).j = jobId a.j := by
  unfold deliver
  dsimp only
  split
  · rfl
  · split
    · rfl
    · exact jobId_storeMoved _ _ _ _ _ _ _
  · split
    · have hw : jobId (if k.owner = myShard e.x then
          { a with r := { a.r with work := a.r.work.filter (fun w => w.1 != k.no) ++ [(k.no, d)] } } else a).j = jobId a.j := by
        split <;> rfl
      split
      · exact hw
      · split
        · exact hw
        · split
          · exact (jobId_storeReduced _ _ _ _ _ _).trans hw
          · exact (jobId_storeReduced _ _ _ _ _ _).trans hw
    · split
      · exact jobId_storeMoved _ _ _ _ _ _ _
      · exact jobId_storeMoved _ _ _ _ _ _ _

theorem jobId_storeWhole (a : CStep) (e : CEnv) (st : CStage) : jobId (storeWhole a e st).j = jobId a.j := by
  unfold storeWhole
  split
  · rfl
  · exact jobId_storeReduced _ _ _ _ _ _

theorem jobId_sendChunk (a : CStep) (e : CEnv) (st : CStage) (k : CChunk) (stamp phase peer : Nat) (d : List Byte) :
    jobId (sendChunk a e st k stamp phase peer d).j = jobId a.j := rfl

theorem jobId_goDownWith (a : CStep) (e : CEnv) (st : CStage) (k : CChunk) (stamp : Nat) (from_ : List Nat) (d : List Byte) :
    jobId (goDownWith a e st k stamp from_ d).j = jobId a.j := by
  have hfold (l : List Nat) : jobId (l.foldl (fun a c => sendChunk a e st k stamp 1 c d) a).j = jobId a.j := by
    induction l generalizing a with
    | nil => rfl
    | cons c l ih => exact ih (sendChunk a e st k stamp 1 c d)
  unfold goDownWith
  dsimp only
  split
  · exact (jobId_deliver _ _ _ _ _ _).trans (hfold _)
  · exact hfold _

theorem jobId_upAction (a : CStep) (e : CEnv) (st : CStage) (k : CChunk) (from_ : List Nat) (child : List StagedChunk) :
    jobId (upAction a e st k from_ child).j = jobId a.j := by
  have hmove (b : Bool) (stamp : Nat) (d : List Byte) :
      jobId (goDownWith (if b then sendChunk a e st k stamp 0 0 d else a) e st k stamp from_ d).j = jobId a.j := by
    rw [jobId_goDownWith]
    cases b <;> rfl
  have hsend (b : Bool) (stamp : Nat) (d d' : List Byte) (l : List Nat) :
      jobId (if b then sendChunk a e st k stamp 0 0 d' else goDownWith a e st k stamp l d).j = jobId a.j := by
    cases b
    · exact jobId_goDownWith _ _ _ _ _ _ _
    · rfl
  have hmoved (b b' : Bool) (stamp : Nat) (d : List Byte) :
      jobId (if st.kind = .move then goDownWith (if b then sendChunk a e st k stamp 0 0 d else a) e st k stamp from_ d
        else if b' then sendChunk a e st k stamp 0 0 d else goDownWith a e st k stamp [] d).j = jobId a.j := by
    by_cases hk : st.kind = .move
    · rw [if_pos hk]
      exact hmove b stamp d
    · rw [if_neg hk]
      exact hsend b' stamp d d []
  unfold upAction
  dsimp only
  split
  · exact hmoved _ _ _ _
  · exact hmoved _ _ _ _
  · exact hsend _ _ _ _ _

theorem jobId_tryUp {a b : CStep} {n : Nat} (h : tryUp a e st n = some b) : jobId b.j = jobId a.j := by
  unfold tryUp at h
  split at h
  · exact nomatch h
  · dsimp only at h
    split at h
    · exact nomatch h
    · split at h
      · cases h; rfl
      · cases h; rfl
      · cases h
        rw [jobId_upAction]
        dsimp only
        split <;> rfl

theorem jobId_tryDown {a b : CStep} {n : Nat} (h : tryDown a e st n = some b) : jobId b.j = jobId a.j := by
  unfold tryDown at h
  split at h
  · exact nomatch h
  · split at h
    · exact nomatch h
    · split at h
      · exact nomatch h
      · dsimp only at h
        split at h
        · cases h; rfl
        · cases h; rfl
        · cases h
          rw [jobId_goDownWith]
          rfl

theorem jobId_collLoop (e : CEnv) (n : Nat) (a : CStep) : jobId (collLoop e n a).j = jobId a.j := by
  induction n generalizing a with
  | zero => rfl
  | succ n ih =>
    unfold collLoop
    split
    · rfl
    · split
      · rfl
      · split
        · exact (ih _).trans (jobId_storeWhole a e _)
        · split
          next b h =>
            obtain ⟨t, _, ht⟩ := List.exists_of_findSome?_eq_some h
            refine (ih b).trans ?_
            cases hu : tryUp a e _ t with
            | some x => rw [hu] at ht; cases ht; exact jobId_tryUp hu
            | none => rw [hu] at ht; exact jobId_tryDown ht
          next => rfl

end Sys2Proof.Machine
end

section
/-! Where the progress of a collective descriptor ends (R303, R308, R312, R314): it waits, its data is whole, or it faults. -/

namespace Sys2Proof.Machine

variable {s t u v : State} {sec : Nat} {e : CEnv} {st : CStage}

/-! ### Faults -/

/-- The word of COLL_FAULT_LAST, counter adds and non-finite count of a descriptor that faults (R200, R314, R327). -/
def collMarked (s : State) (sec : Nat) (j : Job) (cause no : Nat) : State :=
  let w := 2 ^ 63 + cause * 2 ^ 48 + cComm j.bytes % 64 * 2 ^ 40 + j.ctx % 512 * 2 ^ 23 + no % 2 ^ 23
  let v := if [1, 6, 7, 0x0B].contains cause then s.setRaw ⟨.collFaultLast, sec, 0⟩ (BitVec.ofNat 64 w) else s
  addNf (applyDeltas (collUnhold v sec (v.ctx j.ctx).part) (v.ctx j.ctx).part j.deltas) j.ctx j.nf

theorem collFault_eq (s : State) (sec : Nat) (j : Job) (cause no : Nat) (poison : Bool) :
    collFault s sec j cause no poison = endFault (collMarked s sec j cause no) 3 sec j cause poison := rfl

theorem mode_addNf (s : State) (c n d : Nat) : ((addNf s c n).ctx d).mode = (s.ctx d).mode := by
  by_cases h : c = d
  · rw [addNf, State.modCtx, ← h, ctx_setCtx]
  · rw [addNf, State.modCtx, ctx_setCtx_ne _ _ h]

theorem mode_collMarked (s : State) (sec : Nat) (j : Job) (cause no c : Nat) : ((collMarked s sec j cause no).ctx c).mode = (s.ctx c).mode := by
  unfold collMarked
  dsimp only
  generalize BitVec.ofNat 64 _ = w
  have hif : Within 8 s (if [1, 6, 7, 0x0B].contains cause then s.setRaw ⟨.collFaultLast, sec, 0⟩ w else s) :=
    within_ite (within_setRaw _ _ _ (Within.refl s) (Sub.refl _)) (Within.refl s)
  generalize (if [1, 6, 7, 0x0B].contains cause then s.setRaw ⟨.collFaultLast, sec, 0⟩ w else s) = v at hif
  have hd : Within 69632 v (applyDeltas (collUnhold v sec (v.ctx j.ctx).part) (v.ctx j.ctx).part j.deltas) :=
    within_applyDeltas _ _ _ (within_collUnhold _ _ _ (Within.refl v) rfl) rfl
  rw [mode_addNf, ctx_same (hd.same .ctxs (by decide)), ctx_same (hif.same .ctxs (by decide))]

/-- A command that faults a collective descriptor ends it (R314). -/
theorem endsFault_collFault {i : Instr} {c cause no : Nat} {j : Job} {poison : Bool} (hx : exec i s = .next (collFault v sec j cause no poison))
    (hj : j.ctx = c) (hm : (v.ctx c).mode = (s.ctx c).mode) : EndsFault i s 3 sec c cause :=
  endsFault_of (hx.trans (congrArg _ (collFault_eq v sec j cause no poison))) hj ((mode_collMarked v sec j cause no c).trans hm)

/-! ### Where progress ends -/

/-- The engine holds the descriptor still, or it has ended in a fault of its context. -/
def HeldOrEnded (s t : State) (sec : Nat) (j : Job) : Prop :=
  (∃ y, jobOf t 3 sec = some y ∧ jobId y = jobId j) ∨
  (jobOf t 3 sec = none ∧ ((s.ctx j.ctx).mode = .active → (t.ctx j.ctx).mode = .stopping))

theorem collWait_job (s : State) (sec : Nat) (e : CEnv) (j : Job) : ∃ w w', jobOf (collWait s sec e j) 3 sec =
    some { j with coll := { j.coll with chunkWait := w, creditWait := w' && !j.coll.toSend.isEmpty } } :=
  ⟨_, !_, jobOf_putJob _ _ _ _⟩

theorem collWait_plain {j : Job} (hs : j.coll.toSend = []) (hw : j.coll.creditWait = false) :
    ∃ w, jobOf (collWait s sec e j) 3 sec = some { j with coll := { j.coll with chunkWait := w } } := by
  obtain ⟨w, w', h⟩ := collWait_job s sec e j
  have hc : (w' && !j.coll.toSend.isEmpty) = j.coll.creditWait := by
    rw [hs, hw]
    cases w' <;> rfl
  rw [hc] at h
  exact ⟨w, h⟩

theorem heldOrEnded_collRun {j : Job} (hj : jobOf s 3 sec = some j) : HeldOrEnded s (collRun s sec) sec j := by
  unfold collRun
  rw [hj]
  dsimp only
  split
  · exact .inl ⟨j, hj, rfl⟩
  · have hid := jobId_collLoop (collEnv s sec j) (8 * ((collEnv s sec j).chunks.length + 4)) { s := s, r := j.coll, j := j }
    have hl := within_collLoop (collEnv s sec j) (8 * ((collEnv s sec j).chunks.length + 4)) { s := s, r := j.coll, j := j } (Within.refl s) (Sub.refl _)
    generalize collLoop _ _ _ = a at hid hl
    have hctx : a.j.ctx = j.ctx := congrArg (·.2.2.1) hid
    split
    · rw [collFault_eq]
      obtain ⟨h1, h2⟩ := endFault_frame (collMarked a.s sec a.j _ _) 3 sec a.j _ _
      refine .inr ⟨h1, fun ha => ?_⟩
      rw [mode_collMarked, ctx_same (hl.same .ctxs (by decide)), hctx] at h2
      exact (h2 ha).1
    · split
      · exact .inl ⟨_, jobOf_putJob _ _ _ _, hid⟩
      · obtain ⟨w, w', h⟩ := collWait_job (pumpChunks a.s (collEnv s sec j) a.r.toSend).1 sec (collEnv s sec j)
          { a.j with coll := { a.r with toSend := (pumpChunks a.s (collEnv s sec j) a.r.toSend).2 }, poison := !a.j.poisonIds.isEmpty }
        exact .inl ⟨_, h, hid⟩

theorem heldOrEnded_collProgress {j : Job} (hj : jobOf s 3 sec = some j) : HeldOrEnded s (collProgress s sec) sec j := by
  unfold collProgress
  rw [hj]
  dsimp only
  split
  · exact heldOrEnded_collRun hj
  · split
    · exact .inl ⟨j, (jobOf_same ((within_collUnhold _ _ _ (Within.refl s) (Sub.refl _)).same .engines (by decide)) _ _).trans hj, rfl⟩
    · exact .inl ⟨j, hj, rfl⟩

theorem collProgress_idle (hj : jobOf s 3 sec = none) : collProgress s sec = s := by
  rw [collProgress, hj]

/-! ### Standstill -/

/-- No action of the present stage can be done, nor is it done. -/
def Stands (a : CStep) (e : CEnv) : Prop := ∃ st, e.stage a.r = some st ∧ stageDone e a.r st = false ∧
  ∀ n ∈ stageTables e st, tryUp a e st n = none ∧ tryDown a e st n = none

theorem collLoop_stands {a : CStep} (h : Stands a e) (hf : a.fault = none) (n : Nat) : collLoop e (n + 1) a = a := by
  obtain ⟨st, hs, hd, ht⟩ := h
  have hnone : (stageTables e st).findSome? (fun t => (tryUp a e st t).orElse (fun _ => tryDown a e st t)) = none :=
    List.findSome?_eq_none_iff.2 fun n hn => by
      obtain ⟨h1, h2⟩ := ht n hn
      rw [h1, h2]
      rfl
  rw [collLoop, if_neg (by rw [hf]; decide), hs]
  dsimp only
  rw [if_neg (by rw [hd]; decide), hnone]

/-- A descriptor that stands waits, and keeps all but what it waits for. -/
theorem collRun_stands {j : Job} (hj : jobOf s 3 sec = some j) (hp : j.phase = .running) (hs : j.coll.toSend = []) (hw : j.coll.creditWait = false)
    (h : Stands { s := s, r := j.coll, j := j } (collEnv s sec j)) (hst : j.coll.stage ≠ (collEnv s sec j).stages.length) :
    ∃ w, jobOf (collRun s sec) 3 sec = some { j with poison := !j.poisonIds.isEmpty, coll := { j.coll with chunkWait := w } } ∧
      Within 8392704 s (collRun s sec) := by
  have hloop : collLoop (collEnv s sec j) (8 * ((collEnv s sec j).chunks.length + 4)) { s := s, r := j.coll, j := j } = { s := s, r := j.coll, j := j } :=
    collLoop_stands h rfl (8 * ((collEnv s sec j).chunks.length + 3) + 7)
  have hpump : pumpChunks s (collEnv s sec j) j.coll.toSend = (s, j.coll.toSend) := by
    rw [hs]
    rfl
  have hrun : collRun s sec = collWait s sec (collEnv s sec j) { j with poison := !j.poisonIds.isEmpty } := by
    unfold collRun
    rw [hj]
    dsimp only
    rw [if_neg (by simp [hp]), hloop]
    dsimp only
    rw [hpump]
    exact if_neg (by simp [hst, hs])
  obtain ⟨w, hw'⟩ := collWait_plain (j := { j with poison := !j.poisonIds.isEmpty }) hs hw
  rw [hrun]
  exact ⟨w, hw', within_collWait _ _ _ _ (Within.refl s) (Sub.refl _)⟩

theorem collProgress_stands {j : Job} (hj : jobOf s 3 sec = some j) (hp : j.phase = .running) (hs : j.coll.toSend = []) (hw : j.coll.creditWait = false)
    (hc : j.coll.chunkWait = false) (h : Stands { s := s, r := j.coll, j := j } (collEnv s sec j)) (hst : j.coll.stage ≠ (collEnv s sec j).stages.length) :
    ∃ w p, jobOf (collProgress s sec) 3 sec = some { j with poison := p, coll := { j.coll with chunkWait := w } } ∧ Within 8392704 s (collProgress s sec) := by
  have hself : jobOf s 3 sec = some { j with poison := j.poison, coll := { j.coll with chunkWait := false } } := by
    rw [hj, ← hc]
  unfold collProgress
  rw [hj]
  dsimp only
  split
  · obtain ⟨w, h1, h2⟩ := collRun_stands hj hp hs hw h hst
    exact ⟨w, _, h1, h2⟩
  · split
    · have hu := within_collUnhold s sec (s.ctx j.ctx).part (Within.refl s) (Sub.refl _)
      exact ⟨false, j.poison, (jobOf_same (hu.same .engines (by decide)) _ _).trans hself, hu.trans (Within.refl (μ := 8392704) _) rfl rfl⟩
    · exact ⟨false, j.poison, hself, Within.refl s⟩

end Sys2Proof.Machine
end

section
/-! COLLECTIVE_DESCRIPTOR (R306 to R308, R310, R323): the advance of a group's SEQ leaves the check and the standstill of a descriptor. -/

namespace Sys2Proof.Machine

variable {s t u v : State} {sec : Nat} {e : CEnv} {st : CStage}

/-! ### Another SEQ -/

/-- The environment of a descriptor with another SEQ of its group. -/
def reseq (e : CEnv) (n : Nat) : CEnv := { e with x := { e.x with seq := n } }

theorem inSub_reseq (x : Comm) (n table a fuel r : Nat) : inSub { x with seq := n } table a fuel r = inSub x table a fuel r := by
  induction fuel generalizing r with
  | zero => rfl
  | succ f ih =>
    simp only [inSub, ih]
    rfl

theorem underMe_reseq (x : Comm) (n table : Nat) : underMe { x with seq := n } table = underMe x table := funext fun r => inSub_reseq x n table _ _ r

theorem kidsOver_reseq (x : Comm) (n table : Nat) (rs : List Nat) : kidsOver { x with seq := n } table rs = kidsOver x table rs := by
  simp only [kidsOver, inSub_reseq]
  rfl

theorem upNeeds_reseq (e : CEnv) (n : Nat) (st : CStage) (k : CChunk) : (reseq e n).upNeeds st k = e.upNeeds st k := by
  unfold CEnv.upNeeds
  dsimp only [reseq]
  simp only [underMe_reseq, kidsOver_reseq]
  rfl

theorem downWanted_reseq (e : CEnv) (n : Nat) (st : CStage) (k : CChunk) : (reseq e n).downWanted st k = e.downWanted st k := by
  unfold CEnv.downWanted
  dsimp only [reseq]
  simp only [underMe_reseq]
  rfl

theorem nextUp_reseq (e : CEnv) (n : Nat) (r : CollRun) (st : CStage) (t : Nat) : nextUp (reseq e n) r st t = nextUp e r st t := by
  unfold nextUp upList
  simp only [upNeeds_reseq]
  rfl

theorem nextDown_reseq (e : CEnv) (n : Nat) (r : CollRun) (st : CStage) (t : Nat) : nextDown (reseq e n) r st t = nextDown e r st t := by
  unfold nextDown downList
  simp only [downWanted_reseq]
  rfl

theorem stageDone_reseq (e : CEnv) (n : Nat) (r : CollRun) (st : CStage) : stageDone (reseq e n) r st = stageDone e r st := by
  unfold stageDone
  simp only [nextUp_reseq, nextDown_reseq]
  rfl

/-! ### Actions that cannot be done -/

theorem tryUp_none {a : CStep} {n : Nat} : tryUp a e st n = none ↔ ∀ k, nextUp e a.r st n = some k →
    (((e.upNeeds st k).getD []).filterMap (headOf a.s e n)).length ≠ ((e.upNeeds st k).getD []).length ∨ mayGo st k (nextDown e a.r st n) = false := by
  unfold tryUp
  split
  next h => simp [h]
  next k h =>
    dsimp only
    split
    next hc =>
      refine ⟨fun _ j hj => ?_, fun _ => rfl⟩
      rw [h] at hj
      cases hj
      simpa using hc
    next hc =>
      refine ⟨fun hn => ?_, fun hall => absurd (hall k h) (by simpa using hc)⟩
      split at hn <;> exact nomatch hn

theorem tryDown_none {a : CStep} {n : Nat} : tryDown a e st n = none ↔ ∀ k, nextDown e a.r st n = some k →
    headOf a.s e n 0 = none ∨ mayGo st k (nextUp e a.r st n) = false := by
  unfold tryDown
  split
  next h => simp [h]
  next k h =>
    split
    next h0 => simp [h0]
    next slot h0 =>
      split
      next hc =>
        refine ⟨fun _ j hj => ?_, fun _ => rfl⟩
        rw [h] at hj
        cases hj
        exact .inr (by simpa using hc)
      next hc =>
        dsimp only
        refine ⟨fun hn => ?_, fun hall => absurd (hall k h) (by simpa [h0] using hc)⟩
        split at hn <;> exact nomatch hn

/-- A standstill does not rest on SEQ, nor on more of the state than the chunks that stand in the slots. -/
theorem Stands.reseq {a b : CStep} (h : Stands a e) (n : Nat) (hr : b.r = a.r) (hh : ∀ m p, headOf b.s (reseq e n) m p = headOf a.s e m p) :
    Stands b (Machine.reseq e n) := by
  obtain ⟨st, h1, h2, h3⟩ := h
  have hheads (m : Nat) : headOf b.s (Machine.reseq e n) m = headOf a.s e m := funext (hh m)
  refine ⟨st, by rw [hr]; exact h1, by rw [stageDone_reseq, hr, h2], fun m hm => ?_⟩
  obtain ⟨hu, hd⟩ := h3 m hm
  rw [tryUp_none] at hu ⊢
  rw [tryDown_none] at hd ⊢
  rw [nextUp_reseq, nextDown_reseq, hr, hheads]
  simp only [upNeeds_reseq]
  exact ⟨hu, hd⟩

theorem stagesOf_ne (x : Comm) (b : List Byte) : stagesOf x b ≠ [] := by
  unfold stagesOf
  dsimp only
  split <;> simp

/-! ### A descriptor whose group's SEQ has advanced -/

/-- The state in which the group that a descriptor names has another SEQ. -/
def seqSet (s : State) (sec k n : Nat) : State := s.modComm sec k (fun y => { y with seq := n })

theorem within_seqSet (s : State) (sec k n : Nat) : Within 1048576 s (seqSet s sec k n) := within_modComm _ _ _ _ (Within.refl s) (Sub.refl _)

theorem comm_seqSet (s : State) (sec k n : Nat) : (seqSet s sec k n).comm sec k = { s.comm sec k with seq := n } := tabGet_tabSet_same _ _ _ _

theorem collEnv_congr {j : Job} {n : Nat} (ht : Area.tensors.same s t) (hc : Area.ctxs.same s t)
    (hx : t.comm sec (cComm j.bytes) = { s.comm sec (cComm j.bytes) with seq := n }) : collEnv t sec j = reseq (collEnv s sec j) n := by
  unfold collEnv reseq
  dsimp only
  rw [hx, ctx_same hc, tensor_same ht, tensor_same ht]
  rfl

theorem collBad_seqSet (s : State) (sec n : Nat) (j : Job) : collBad (seqSet s sec (cComm j.bytes) n) sec j = collBad s sec j := by
  have hx := comm_seqSet s sec (cComm j.bytes) n
  have he := collEnv_congr (s := s) (j := j) (t := seqSet s sec (cComm j.bytes) n) rfl rfl hx
  unfold collBad
  dsimp only
  rw [hx, he]
  rfl

end Sys2Proof.Machine
end

section
/-! COLLECTIVE_DESCRIPTOR: a stale group, an invalid descriptor, a bad word, progress and standstill (R306 to R308, R310, R323). -/

namespace Sys2Proof.Machine

variable {s u v : State} {sec q c : Nat} {e : Entry}

/-! ### What a descriptor meets once it is taken -/

/-- The values that a descriptor latches as it starts. -/
def collJob (u : State) (sec q c : Nat) (e : Entry) : Job := collStart u sec (jobFrom u q c e)

/-- The descriptor names a group of its context (R306). -/
def namesGroup (u : State) (sec c : Nat) (e : Entry) : Bool := (u.comm sec (cComm e.bytes)).present && (u.comm sec (cComm e.bytes)).ctx == c

/-- The group's SEQ as a descriptor advances it. -/
def nextSeq (u : State) (sec : Nat) (e : Entry) : Nat := ((u.comm sec (cComm e.bytes)).seq + 1) % 2 ^ 32

/-- The state in which a descriptor is checked: it is taken, and its group's SEQ has advanced. -/
def collNamed (u : State) (sec q c : Nat) (e : Entry) : State :=
  if namesGroup u sec c e then seqSet (taken u 3 sec q c e) sec (cComm e.bytes) (nextSeq u sec e) else taken u 3 sec q c e

/-- The state past the check of the stamp of the rank's own shard (R318). -/
def collStamped (x : Comm) (v : State) (sec : Nat) (j : Job) : State :=
  if cOp j.bytes = 3 && shardLen (collEnv v sec j).off (myShard x) != 0 then checkStamp v (collEnv v sec j) (myShard x) j.coll.stamp else v

theorem comm_taken (u : State) (sec q c : Nat) (e : Entry) (n k : Nat) : (taken u 3 sec q c e).comm n k = u.comm n k :=
  comm_same ((within_taken u 3 sec q c e).same .comms (by decide)) n k

theorem collJob_taken (u : State) (sec q c : Nat) (e : Entry) : collStart (taken u 3 sec q c e) sec (jobFrom u q c e) = collJob u sec q c e :=
  taken_lift (fun s => collStart s sec (jobFrom u q c e)) fun _ _ _ => rfl

theorem within_collNamed (u : State) (sec q c : Nat) (e : Entry) : Within 9437448 u (collNamed u sec q c e) := by
  have h : Within 9437448 u (taken u 3 sec q c e) := (within_taken u 3 sec q c e).trans (Within.refl (μ := 9437448) _) rfl rfl
  exact within_ite (h.trans (within_seqSet _ _ _ _) rfl rfl) h

theorem collDescriptor_of_takes (h : Takes u 3 sec q c e) : collDescriptorOp sec u =
    if namesGroup u sec c e && (u.comm sec (cComm e.bytes)).stale then
      endStopped ((taken u 3 sec q c e).bump fCollDescCancelled sec 0 1) 3 sec (jobFrom u q c e)
    else if collBad (collNamed u sec q c e) sec (collJob u sec q c e) then collFault (collNamed u sec q c e) sec (collJob u sec q c e) 1 0 false
    else
      let r := readAll (collNamed u sec q c e) (collReads (collEnv (collNamed u sec q c e) sec (collJob u sec q c e)))
      match worstOf r.2 with
      | some p => collFault r.1 sec (collJob u sec q c e) 6 0 p
      | none => collProgress (putJob (collStamped (u.comm sec (cComm e.bytes)) r.1 sec (collJob u sec q c e)) 3 sec (collJob u sec q c e)) sec := by
  unfold collDescriptorOp
  rw [takeDesc_of_takes h]
  dsimp only
  rw [collJob_taken]
  have hx := comm_taken u sec q c e sec (cComm e.bytes)
  have hx' : (taken u 3 sec q c e).comm sec (cComm (jobFrom u q c e).bytes) = u.comm sec (cComm e.bytes) := hx
  have hn : (if (u.comm sec (cComm e.bytes)).present && (u.comm sec (cComm e.bytes)).ctx == (jobFrom u q c e).ctx then
      (taken u 3 sec q c e).modComm sec (cComm (jobFrom u q c e).bytes) (fun y => { y with seq := (y.seq + 1) % 2 ^ 32 }) else taken u 3 sec q c e) =
      collNamed u sec q c e := by
    rw [State.modComm, hx']
    unfold collNamed seqSet
    rw [State.modComm, hx]
    rfl
  rw [hx', hn]
  rfl

/-! ### The check -/

theorem collBad_collNamed (u : State) (sec q c : Nat) (e : Entry) :
    collBad (collNamed u sec q c e) sec (collJob u sec q c e) = collBad u sec (collJob u sec q c e) := by
  have ht : collBad (taken u 3 sec q c e) sec (collJob u sec q c e) = collBad u sec (collJob u sec q c e) :=
    taken_lift (collBad · sec (collJob u sec q c e)) fun _ _ _ => rfl
  unfold collNamed
  split
  · exact (collBad_seqSet _ _ _ (collJob u sec q c e)).trans ht
  · exact ht

/-- A descriptor that names no group of its context is invalid (R306, R310). -/
theorem namesGroup_of_good (h : collBad u sec (collJob u sec q c e) = false) : namesGroup u sec c e = true := by
  by_contra hn
  have hbad : (!(u.comm sec (cComm e.bytes)).present || (u.comm sec (cComm e.bytes)).ctx != c) = true := by
    rw [namesGroup] at hn
    simp only [Bool.and_eq_true, beq_iff_eq, not_and_or] at hn
    simpa using hn
  have hx : (!(u.comm sec (cComm (collJob u sec q c e).bytes)).present || (u.comm sec (cComm (collJob u sec q c e).bytes)).ctx != (collJob u sec q c e).ctx) = true := hbad
  unfold collBad at h
  simp only [Bool.or_eq_false_iff, and_assoc] at h
  obtain ⟨-, -, -, -, -, -, -, -, -, hpresent, hctx, -⟩ := h
  rw [hpresent, hctx] at hx
  exact nomatch hx

/-- The SEQ of the descriptor's group. -/
theorem seq_collNamed (hn : namesGroup u sec c e = true) : ((collNamed u sec q c e).comm sec (cComm e.bytes)) =
    { u.comm sec (cComm e.bytes) with seq := nextSeq u sec e } := by
  rw [collNamed, if_pos hn, comm_seqSet, comm_taken]

theorem collEnv_collNamed (hn : namesGroup u sec c e = true) : collEnv (collNamed u sec q c e) sec (collJob u sec q c e) =
    reseq (collEnv u sec (collJob u sec q c e)) (nextSeq u sec e) :=
  collEnv_congr ((within_collNamed u sec q c e).same .tensors (by decide)) ((within_collNamed u sec q c e).same .ctxs (by decide)) (seq_collNamed hn)

end Sys2Proof.Machine
end

section
/-! COLLECTIVE_DESCRIPTOR: what becomes of a descriptor that is taken (R306 to R308, R310, R323). -/

namespace Sys2Proof.Machine

variable {s u v : State} {sec q c : Nat} {e : Entry}

/-! ### A descriptor of a stale group -/

theorem jobOf_endStopped (s : State) (kind unit : Nat) (j : Job) : jobOf (endStopped s kind unit j) kind unit = none := by
  unfold endStopped
  dsimp only
  rw [jobOf_same (finishEntry_only _ _ _ _ .engines (by decide))]
  exact jobOf_freeEngine s kind unit

theorem regsBut_endStopped (s : State) (kind unit : Nat) (j : Job) : RegsBut memoryRegs s (endStopped s kind unit j) :=
  (regsBut_of_same rfl).trans (regsBut_finishEntry _ _ _ _)

theorem regsBut_taken {kind unit : Nat} (hp : (u.queue q).part < 8) : RegsBut [.rplChoiceArb] u (taken u kind unit q c e) := by
  have ha : RegsBut [.rplChoiceArb] u (countArb u kind unit q) := by
    unfold countArb
    dsimp only
    split
    · exact regsBut_ite (regsBut_bump u (f := fRplChoiceArbArb) 1 (by decide) (by omega) (by decide)) (RegsBut.refl u)
    · exact RegsBut.refl u
  exact ha.trans (regsBut_of_same rfl)

/-- A descriptor of a stale group ends, counted as cancelled (R323). -/
theorem endStopped_cancelled (hs : sec < 64) (hp : (u.queue q).part < 8) :
    let t := endStopped ((taken u 3 sec q c e).bump fCollDescCancelled sec 0 1) 3 sec (jobFrom u q c e)
    jobOf t 3 sec = none ∧ Counted u t fCollDescCancelled sec 0 1 ∧ Only (storeAreas ++ [.queues, .engines, .out]) u t := by
  intro t
  have h1 : Counted (taken u 3 sec q c e) ((taken u 3 sec q c e).bump fCollDescCancelled sec 0 1) fCollDescCancelled sec 0 1 :=
    fld_bump_same _ _ _ _ _ (by decide) (by decide)
  have hw : Within 679481848 u t :=
    ((within_taken u 3 sec q c e).trans (within_bump _ fCollDescCancelled sec 0 1 (Within.refl _) (Sub.refl _)) rfl rfl : Within 8388872 u _).trans
      (within_endStopped _ _ _ _ (Within.refl _) (Sub.refl _)) rfl rfl
  exact ⟨jobOf_endStopped _ _ _ _, (h1.since ((regsBut_taken hp).fld (by decide) hs (by decide))).kept
    ((regsBut_endStopped _ 3 sec (jobFrom u q c e)).fld (by decide) hs (by decide)), hw.only rfl⟩

/-! ### A descriptor that is refused, or that goes on -/

/-- A group's SEQ past its descriptor. -/
theorem seq_after {t : State} (hn : namesGroup u sec c e = true) (h : SeqKept (collNamed u sec q c e) t) :
    (t.comm sec (cComm e.bytes)).seq = nextSeq u sec e := by
  rw [h, seq_collNamed hn]

theorem seqKept_collFault (s : State) (sec : Nat) (j : Job) (cause no : Nat) (poison : Bool) : SeqKept s (collFault s sec j cause no poison) :=
  (within_collFault s sec j cause no poison (Within.refl s) (Sub.refl _)).seqs

theorem mode_collNamed (u : State) (sec q c : Nat) (e : Entry) (k : Nat) : ((collNamed u sec q c e).ctx k).mode = (u.ctx k).mode := by
  rw [ctx_same ((within_collNamed u sec q c e).same .ctxs (by decide))]

/-- The ranges that a descriptor reads do not rest on SEQ. -/
theorem collReads_collNamed (hn : namesGroup u sec c e = true) : collReads (collEnv (collNamed u sec q c e) sec (collJob u sec q c e)) =
    collReads (collEnv u sec (collJob u sec q c e)) := by
  rw [collEnv_collNamed hn]
  rfl

theorem clean_collNamed (u : State) (sec q c : Nat) (e : Entry) (l : List (Nat × Nat)) : Clean (collNamed u sec q c e) l ↔ Clean u l :=
  (within_collNamed u sec q c e).readsAs.clean l

/-- The state in which a descriptor has delivered its reads and goes on. -/
def collTaken (u : State) (sec q c : Nat) (e : Entry) : State :=
  putJob (collStamped (u.comm sec (cComm e.bytes))
    (readOver (collNamed u sec q c e) (collReads (collEnv (collNamed u sec q c e) sec (collJob u sec q c e)))) sec (collJob u sec q c e))
    3 sec (collJob u sec q c e)

theorem jobOf_collTaken (u : State) (sec q c : Nat) (e : Entry) : jobOf (collTaken u sec q c e) 3 sec = some (collJob u sec q c e) := jobOf_putJob _ _ _ _

theorem within_collStamped (x : Comm) (v : State) (sec : Nat) (j : Job) : Within 131096 v (collStamped x v sec j) :=
  within_ite (within_checkStamp _ _ _ _ (Within.refl v) (Sub.refl _)) (Within.refl v)

theorem within_collTaken_named (u : State) (sec q c : Nat) (e : Entry) : Within 142741688 (collNamed u sec q c e) (collTaken u sec q c e) :=
  ((within_readOver _ _).trans (within_collStamped _ _ _ _) rfl rfl : Within 134353080 _ _).trans (within_putJob _ _ _ _ (Within.refl _) (Sub.refl _)) rfl rfl

theorem within_collTaken (u : State) (sec q c : Nat) (e : Entry) : Within 143790520 u (collTaken u sec q c e) :=
  (within_collNamed u sec q c e).trans (within_collTaken_named u sec q c e) rfl rfl

section
variable (h : Takes u 3 sec q c e) (hst : namesGroup u sec c e = true → (u.comm sec (cComm e.bytes)).stale = false)
include h hst

theorem collDescriptor_bad (hb : collBad u sec (collJob u sec q c e) = true) :
    collDescriptorOp sec u = collFault (collNamed u sec q c e) sec (collJob u sec q c e) 1 0 false := by
  rw [collDescriptor_of_takes h, if_neg (by simpa using hst), collBad_collNamed, if_pos hb]

theorem collDescriptor_unclean (hb : collBad u sec (collJob u sec q c e) = false) (hc : ¬ Clean u (collReads (collEnv u sec (collJob u sec q c e)))) :
    ∃ l p, collDescriptorOp sec u = collFault (readOver (collNamed u sec q c e) l) sec (collJob u sec q c e) 6 0 p := by
  have hr := collReads_collNamed (q := q) (namesGroup_of_good hb)
  have hc' : ¬ Clean (collNamed u sec q c e) (collReads (collEnv (collNamed u sec q c e) sec (collJob u sec q c e))) := by
    rw [hr, clean_collNamed]
    exact hc
  obtain ⟨p, hp⟩ := worstOf_unclean hc'
  rw [collDescriptor_of_takes h, if_neg (by simpa using hst), collBad_collNamed, if_neg (Bool.eq_false_iff.1 hb)]
  dsimp only
  rw [hp]
  exact ⟨_, p, rfl⟩

theorem collDescriptor_clean (hb : collBad u sec (collJob u sec q c e) = false) (hc : Clean u (collReads (collEnv u sec (collJob u sec q c e)))) :
    collDescriptorOp sec u = collProgress (collTaken u sec q c e) sec := by
  have hr := collReads_collNamed (q := q) (namesGroup_of_good hb)
  have hc' : Clean (collNamed u sec q c e) (collReads (collEnv (collNamed u sec q c e) sec (collJob u sec q c e))) := by
    rw [hr, clean_collNamed]
    exact hc
  rw [collDescriptor_of_takes h, if_neg (by simpa using hst), collBad_collNamed, if_neg (Bool.eq_false_iff.1 hb)]
  dsimp only
  rw [worstOf_clean hc']
  rfl

end

/-! ### A descriptor that stands -/

theorem comm_collTaken (hn : namesGroup u sec c e = true) :
    (collTaken u sec q c e).comm sec (cComm e.bytes) = { u.comm sec (cComm e.bytes) with seq := nextSeq u sec e } := by
  rw [comm_same ((within_collTaken_named u sec q c e).same .comms (by decide)), seq_collNamed hn]

theorem collEnv_collTaken (hn : namesGroup u sec c e = true) : collEnv (collTaken u sec q c e) sec (collJob u sec q c e) =
    reseq (collEnv u sec (collJob u sec q c e)) (nextSeq u sec e) :=
  collEnv_congr ((within_collTaken u sec q c e).same .tensors (by decide)) ((within_collTaken u sec q c e).same .ctxs (by decide)) (comm_collTaken hn)

/-- A chunk that stands in a slot of the group still stands there. -/
theorem headOf_collTaken (hn : namesGroup u sec c e = true) (m p : Nat) :
    headOf (collTaken u sec q c e) (reseq (collEnv u sec (collJob u sec q c e)) (nextSeq u sec e)) m p =
      headOf u (collEnv u sec (collJob u sec q c e)) m p := by
  have hx : ((collTaken u sec q c e).comm sec (cComm e.bytes)).staged = (u.comm sec (cComm e.bytes)).staged := by rw [comm_collTaken hn]
  exact congrArg (List.find? fun c => c.table == m && c.peer == p) hx

theorem bytes_collTaken (h3 : cOp e.bytes ≠ 3) : (collTaken u sec q c e).mem.bytes = u.mem.bytes := by
  have h1 : (collNamed u sec q c e).mem.bytes = u.mem.bytes := bytes_of_memory ((within_collNamed u sec q c e).same .memory (by decide))
  unfold collTaken collStamped
  rw [if_neg (by simp only [Bool.and_eq_true, decide_eq_true_eq]; exact fun hn => h3 hn.1)]
  exact (sees_readOver _ _).bytes.trans h1

/-- No action of the present stage of a descriptor can be done. -/
def Stuck (u : State) (y : CEnv) (j : Job) : Prop := ∀ st, y.stage j.coll = some st → stageDone y j.coll st = false ∧
  ∀ n ∈ stageTables y st, tryUp { s := u, r := j.coll, j := j } y st n = none ∧ tryDown { s := u, r := j.coll, j := j } y st n = none

/-- A descriptor that starts stands in its first stage. -/
theorem stands_collTaken (hn : namesGroup u sec c e = true) (hst : Stuck u (collEnv u sec (collJob u sec q c e)) (collJob u sec q c e)) :
    Stands { s := collTaken u sec q c e, r := (collJob u sec q c e).coll, j := collJob u sec q c e }
      (collEnv (collTaken u sec q c e) sec (collJob u sec q c e)) := by
  have hne := stagesOf_ne (u.comm sec (cComm e.bytes)) e.bytes
  obtain ⟨st, hs⟩ : ∃ st, (collEnv u sec (collJob u sec q c e)).stage (collJob u sec q c e).coll = some st :=
    ⟨_, List.getElem?_eq_getElem (List.length_pos_iff.2 hne)⟩
  have hu : Stands { s := u, r := (collJob u sec q c e).coll, j := collJob u sec q c e } (collEnv u sec (collJob u sec q c e)) :=
    ⟨st, hs, (hst st hs).1, (hst st hs).2⟩
  rw [collEnv_collTaken hn]
  exact hu.reseq _ rfl (headOf_collTaken hn)

end Sys2Proof.Machine
end

section
/-! COLLECTIVE_DESCRIPTOR: the clauses of its statement (R306 to R308, R310, R323). -/

namespace Sys2Proof.Machine

variable {s : State} {sec : Sec} {hits : List Hit} {q c : Nat} {e : Entry}

theorem exec_collectiveDescriptor (s : State) (sec : Sec) (hits : List Hit) :
    exec (.collectiveDescriptor sec hits) s = .next (collDescriptorOp sec.val (upsetWords s hits)) := rfl

theorem mode_upset (s : State) (hits : List Hit) (k : Nat) : ((upsetWords s hits).ctx k).mode = (s.ctx k).mode := by
  rw [ctx_same (upsetWords_only s hits .ctxs (by decide))]

theorem namesGroup_iff {u : State} {sec : Nat} : namesGroup u sec c e = true ↔
    (u.comm sec (cComm e.bytes)).present = true ∧ (u.comm sec (cComm e.bytes)).ctx = c := by
  rw [namesGroup, Bool.and_eq_true, beq_iff_eq]

section
variable (h : Takes (upsetWords s hits) 3 sec.val q c e)
include h

/-- A descriptor that names a stale group is cancelled, and its group keeps its SEQ (R323). -/
theorem collDescriptor_cancelled (hn : namesGroup (upsetWords s hits) sec.val c e = true)
    (hs : ((upsetWords s hits).comm sec.val (cComm e.bytes)).stale = true) : ∃ t, exec (.collectiveDescriptor sec hits) s = .next t ∧
      jobOf t 3 sec.val = none ∧ Counted (upsetWords s hits) t fCollDescCancelled sec.val 0 1 ∧
      Only (storeAreas ++ [.queues, .engines, .out]) (upsetWords s hits) t := by
  refine ⟨_, (exec_collectiveDescriptor s sec hits).trans (congrArg Host.Outcome.next ?_),
    endStopped_cancelled (q := q) (c := c) (e := e) (show sec.val < 64 by omega) h.2.2.2.2.1⟩
  rw [collDescriptor_of_takes h, if_pos (by rw [hn, hs]; rfl)]

variable (hst : namesGroup (upsetWords s hits) sec.val c e = true → ((upsetWords s hits).comm sec.val (cComm e.bytes)).stale = false)
include hst

/-- An invalid descriptor faults its context, its group's SEQ advanced where it names one (R306, R310). -/
theorem collDescriptor_invalid (hb : collBad (upsetWords s hits) sec.val (collJob (upsetWords s hits) sec.val q c e) = true) :
    EndsFault (.collectiveDescriptor sec hits) s 3 sec.val c 1 ∧ ∃ t, exec (.collectiveDescriptor sec hits) s = .next t ∧
      (namesGroup (upsetWords s hits) sec.val c e = true → (t.comm sec.val (cComm e.bytes)).seq = nextSeq (upsetWords s hits) sec.val e) := by
  have hx := (exec_collectiveDescriptor s sec hits).trans (congrArg Host.Outcome.next (collDescriptor_bad h hst hb))
  exact ⟨endsFault_collFault hx rfl ((mode_collNamed _ _ _ _ _ _).trans (mode_upset s hits c)), _, hx,
    fun hn => seq_after hn (seqKept_collFault _ _ _ _ _ _)⟩

/-- A descriptor whose reads meet a bad word faults its context (R308). -/
theorem collDescriptor_badWord (hb : collBad (upsetWords s hits) sec.val (collJob (upsetWords s hits) sec.val q c e) = false)
    (hc : ¬ Clean (upsetWords s hits) (collReads (collEnv (upsetWords s hits) sec.val (collJob (upsetWords s hits) sec.val q c e)))) :
    EndsFault (.collectiveDescriptor sec hits) s 3 sec.val c 6 ∧ ∃ t, exec (.collectiveDescriptor sec hits) s = .next t ∧
      (namesGroup (upsetWords s hits) sec.val c e = true → (t.comm sec.val (cComm e.bytes)).seq = nextSeq (upsetWords s hits) sec.val e) := by
  obtain ⟨l, p, hr⟩ := collDescriptor_unclean h hst hb hc
  have hx := (exec_collectiveDescriptor s sec hits).trans (congrArg Host.Outcome.next hr)
  have hm : ((readOver (collNamed (upsetWords s hits) sec.val q c e) l).ctx c).mode = (s.ctx c).mode := by
    rw [ctx_same ((within_readOver _ l).same .ctxs (by decide)), mode_collNamed, mode_upset]
  exact ⟨endsFault_collFault hx rfl hm, _, hx, fun hn => seq_after hn ((within_readOver _ l).seqs.trans (seqKept_collFault _ _ _ _ _ _))⟩

variable (hb : collBad (upsetWords s hits) sec.val (collJob (upsetWords s hits) sec.val q c e) = false)
  (hc : Clean (upsetWords s hits) (collReads (collEnv (upsetWords s hits) sec.val (collJob (upsetWords s hits) sec.val q c e))))
include hb hc

/-- A descriptor whose reads deliver is held by the engine until it ends or faults (R306). -/
theorem collDescriptor_held : ∃ t, exec (.collectiveDescriptor sec hits) s = .next t ∧
    (t.comm sec.val (cComm e.bytes)).seq = nextSeq (upsetWords s hits) sec.val e ∧
    ((∃ j, jobOf t 3 sec.val = some j ∧ j.queue = q ∧ j.pos = e.pos ∧ j.ctx = c ∧ j.bytes = e.bytes ∧
        j.lastSeq = ((upsetWords s hits).comm sec.val (cComm e.bytes)).seq) ∨
      (jobOf t 3 sec.val = none ∧ (((upsetWords s hits).ctx c).mode = .active → (t.ctx c).mode = .stopping))) := by
  have hn := namesGroup_of_good hb
  refine ⟨_, (exec_collectiveDescriptor s sec hits).trans (congrArg Host.Outcome.next (collDescriptor_clean h hst hb hc)),
    seq_after hn ((within_collTaken_named _ _ _ _ _).seqs.trans (seqKept_collProgress _ _)), ?_⟩
  rcases heldOrEnded_collProgress (jobOf_collTaken (upsetWords s hits) sec.val q c e) with ⟨y, hy, hid⟩ | ⟨hnone, hend⟩
  · rw [jobId, jobId, Prod.mk.injEq, Prod.mk.injEq, Prod.mk.injEq, Prod.mk.injEq] at hid
    exact .inl ⟨y, hy, hid⟩
  · refine .inr ⟨hnone, fun ha => hend ?_⟩
    rw [ctx_same ((within_collTaken _ _ _ _ _).same .ctxs (by decide))]
    exact ha

/-- A descriptor waits while no chunk that it needs has come (R308, R312). -/
theorem collDescriptor_waits
    (hs : Stuck (upsetWords s hits) (collEnv (upsetWords s hits) sec.val (collJob (upsetWords s hits) sec.val q c e))
      (collJob (upsetWords s hits) sec.val q c e)) :
    ∃ t w p, exec (.collectiveDescriptor sec hits) s = .next t ∧
      (t.comm sec.val (cComm e.bytes)).seq = nextSeq (upsetWords s hits) sec.val e ∧
      jobOf t 3 sec.val = some { collJob (upsetWords s hits) sec.val q c e with
        poison := p, coll := { (collJob (upsetWords s hits) sec.val q c e).coll with chunkWait := w } } ∧
      (t.comm sec.val (cComm e.bytes)).staged = ((upsetWords s hits).comm sec.val (cComm e.bytes)).staged ∧
      (∀ k, t.tally k = (upsetWords s hits).tally k) ∧ (cOp e.bytes ≠ 3 → SameBytes (upsetWords s hits) t) ∧
      Only (readAreas ++ [.queues, .engines, .comms, .gates]) (upsetWords s hits) t := by
  have hx := (exec_collectiveDescriptor s sec hits).trans (congrArg Host.Outcome.next (collDescriptor_clean h hst hb hc))
  generalize upsetWords s hits = u at *
  have hn := namesGroup_of_good hb
  have hstage : (0 : Nat) ≠ (collEnv (collTaken u sec.val q c e) sec.val (collJob u sec.val q c e)).stages.length := by
    rw [collEnv_collTaken hn]
    exact (List.length_pos_iff.2 (stagesOf_ne (u.comm sec.val (cComm e.bytes)) e.bytes)).ne
  obtain ⟨w, p, hjob, hw⟩ := collProgress_stands (jobOf_collTaken u sec.val q c e)
    rfl rfl rfl rfl (stands_collTaken hn hs) hstage
  have hall : Within 143790520 u (collProgress (collTaken u sec.val q c e) sec.val) := (within_collTaken u sec.val q c e).trans hw rfl rfl
  have hcomm : (collProgress (collTaken u sec.val q c e) sec.val).comm sec.val (cComm e.bytes) =
      { u.comm sec.val (cComm e.bytes) with seq := nextSeq u sec.val e } := by
    rw [comm_same (hw.same .comms (by decide)), comm_collTaken hn]
  refine ⟨_, w, p, hx, by rw [hcomm], hjob, by rw [hcomm], fun k => tally_same (hall.same .tallies (by decide)) k, fun h3 => ?_, hall.only rfl⟩
  exact sameBytes_of_within hall ((bytes_of_memory (hw.same .memory (by decide))).trans (bytes_collTaken h3))

end

end Sys2Proof.Machine
end

section
/-! CHUNK_ARRIVAL and CHUNK_CREDIT_RETURN (R245, R312 to R314, R323). -/

namespace Sys2Proof.Machine

variable {s u : State} {sec k table peer : Nat}

/-! ### An addition of one to a tally -/

theorem seqKept_setComm {s : State} {n k : Nat} {x : Comm} (h : x.seq = (s.comm n k).seq) : SeqKept s (s.setComm n k x) := fun m j => by
  by_cases hk : n * 64 + k = m * 64 + j
  · have hs : s.comm m j = s.comm n k := by rw [State.comm, State.comm, ← hk]
    have ht : (s.setComm n k x).comm m j = x := by
      rw [State.comm, ← hk]
      exact tabGet_tabSet_same _ _ _ _
    rw [hs, ht, h]
  · exact congrArg Comm.seq (tabGet_tabSet_ne _ _ _ hk)

/-- A tally takes an add of one, and no mark watches its context (R157, R266). -/
def TakesOne (s : State) (n : Nat) : Prop :=
  (s.tally n).present = true ∧ (s.tally n).abandoned = false ∧ (s.tally n).count < 0xFFFFFFFF ∧ (s.ctx (s.tally n).ctx).marks = []

theorem tallyAddOp_one {n : Nat} (h : TakesOne s n) : tallyAddOp s n 1 = tallyTaken s n 1 := by
  obtain ⟨hp, ha, hc, hm⟩ := h
  have hid : markTally s n = s := by
    unfold markTally
    dsimp only
    rw [hm]
    rfl
  rw [tallyAddOp_taken hp ha (by omega), hid]

theorem TakesOne.onto {t : State} {n : Nat} (h : TakesOne s n) (ht : Area.tallies.same s t) (hc : Area.ctxs.same s t) : TakesOne t n := by
  unfold TakesOne
  rw [tally_same ht, ctx_same hc]
  exact h

theorem seqKept_tallyAddOp (s : State) (n m : Nat) : SeqKept s (tallyAddOp s n m) := (within_tallyAddOp s n m (Within.refl s) (Sub.refl _)).seqs

/-! ### CHUNK_ARRIVAL -/

/-- The slots of a peer are all filled. -/
def slotsFull (x : Comm) (table peer : Nat) : Prop := 4 ≤ (x.staged.filter (fun c => c.table == table && c.peer == peer)).length

/-- A chunk under way over the mesh is written into the slot that its peer fills next. -/
def slotFilled (s : State) (sec k table peer : Nat) (c : StagedChunk) : State :=
  (fillSlot s (s.comm sec k) (freeSlot (s.comm sec k) table peer) c).setComm sec k
    { noteSlot (s.comm sec k) (freeSlot (s.comm sec k) table peer) with transit := (s.comm sec k).transit.erase c }

theorem within_slotFilled (s : State) (sec k table peer : Nat) (c : StagedChunk) : Within 135270584 s (slotFilled s sec k table peer c) :=
  within_setComm _ _ _ _ (within_fillSlot _ _ _ _ (Within.refl s) rfl) rfl

theorem seqKept_slotFilled (s : State) (sec k table peer : Nat) (c : StagedChunk) : SeqKept s (slotFilled s sec k table peer c) := by
  have hf := (within_fillSlot s (s.comm sec k) (freeSlot (s.comm sec k) table peer) c (Within.refl s) (Sub.refl _)).seqs
  exact hf.trans (seqKept_setComm (hf sec k).symm)

theorem seqKept_noteSlot (s : State) (sec k : Nat) (c : StagedSlot) : SeqKept s (s.setComm sec k (noteSlot (s.comm sec k) c)) := seqKept_setComm rfl

theorem chunkArrival_still (h : (s.comm sec k).present = false ∨ (s.comm sec k).stale = true ∨ slotsFull (s.comm sec k) table peer) :
    chunkArrivalOp sec k table peer s = s := by
  unfold chunkArrivalOp
  refine if_pos ?_
  rcases h with h | h | h
  · rw [h]; rfl
  · rw [h, Bool.or_true]; rfl
  · exact Bool.or_eq_true_iff.2 (.inr (decide_eq_true h))

section
variable (hp : (s.comm sec k).present = true) (hs : (s.comm sec k).stale = false) (hf : ¬ slotsFull (s.comm sec k) table peer)
include hp hs hf

theorem chunkArrival_link (hr : (peerRoute (s.comm sec k) table peer).2 < 8) : chunkArrivalOp sec k table peer s =
    if !announced s (s.comm sec k) (arrivalTally (s.comm sec k) table peer) then s
    else collProgress (s.setComm sec k (noteSlot (s.comm sec k) (freeSlot (s.comm sec k) table peer))) sec := by
  unfold chunkArrivalOp
  exact (if_neg (by rw [hp, hs]; simpa [slotsFull] using hf)).trans (if_pos hr)

theorem chunkArrival_mesh (hr : 8 ≤ (peerRoute (s.comm sec k) table peer).2) :
    (((s.comm sec k).transit.find? (fun c => c.table == table && c.peer == peer) = none ∨ unitHeld s 3 sec = true) →
      chunkArrivalOp sec k table peer s = s) ∧
    (∀ c, (s.comm sec k).transit.find? (fun c => c.table == table && c.peer == peer) = some c → unitHeld s 3 sec = false →
      chunkArrivalOp sec k table peer s = collProgress (tallyAddOp (slotFilled s sec k table peer c) (arrivalTally (s.comm sec k) table peer) 1) sec) := by
  have hn : ¬ ((!(s.comm sec k).present || (s.comm sec k).stale ||
      decide (4 ≤ ((s.comm sec k).staged.filter (fun c => c.table == table && c.peer == peer)).length)) = true) := by
    rw [hp, hs]
    simpa [slotsFull] using hf
  refine ⟨fun h => ?_, fun c hc hh => ?_⟩
  · unfold chunkArrivalOp
    refine (if_neg hn).trans ((if_neg (Nat.not_lt.2 hr)).trans ?_)
    dsimp only
    split
    · rfl
    next c hc => exact if_pos (h.resolve_left (by rw [hc]; exact nofun))
  · unfold chunkArrivalOp
    refine (if_neg hn).trans ((if_neg (Nat.not_lt.2 hr)).trans ?_)
    dsimp only
    rw [hc]
    exact if_neg (by rw [hh]; decide)

end

/-- No arrival of a chunk changes a SEQ. -/
theorem seqKept_chunkArrivalOp (s : State) (sec k table peer : Nat) : SeqKept s (chunkArrivalOp sec k table peer s) := by
  unfold chunkArrivalOp
  dsimp only
  split
  · exact SeqKept.refl s
  · split
    · split
      · exact SeqKept.refl s
      · exact (seqKept_noteSlot s sec k (freeSlot (s.comm sec k) table peer)).trans (seqKept_collProgress _ _)
    · split
      · exact SeqKept.refl s
      · split
        · exact SeqKept.refl s
        · exact ((seqKept_slotFilled s sec k table peer _).trans (seqKept_tallyAddOp _ _ _)).trans (seqKept_collProgress _ _)

/-- An announced chunk of a peer over a link fills a slot (R314). -/
theorem chunkArrival_announced (hp : (s.comm sec k).present = true) (hs : (s.comm sec k).stale = false) (hf : ¬ slotsFull (s.comm sec k) table peer)
    (hj : jobOf s 3 sec = none) (hr : (peerRoute (s.comm sec k) table peer).2 < 8)
    (ha : tabGet 0 (s.comm sec k).seen (arrivalTally (s.comm sec k) table peer) < (s.tally (arrivalTally (s.comm sec k) table peer)).count) :
    (chunkArrivalOp sec k table peer s).comm sec k = noteSlot (s.comm sec k) (freeSlot (s.comm sec k) table peer) ∧
    Only [.comms] s (chunkArrivalOp sec k table peer s) := by
  rw [chunkArrival_link hp hs hf hr, if_neg (by simpa [announced] using ha), collProgress_idle]
  · exact ⟨tabGet_tabSet_same _ _ _ _, (within_setComm _ _ _ _ (Within.refl s) (Sub.refl _)).only rfl⟩
  · exact hj

/-- Two runs of bytes stored one behind the other. -/
theorem storedAt_two {v w : State} {a b : Nat} {l m : List Byte} (h1 : StoredAt s v a l) (h2 : StoredAt v w b m) (hb : a + l.length ≤ b) :
    readBytes w a l.length = l ∧ readBytes w b m.length = m ∧
    ∀ n, n < a ∨ (a + l.length ≤ n ∧ n < b) ∨ b + m.length ≤ n → memByte w n = memByte s n := by
  obtain ⟨r1, k1, -⟩ := h1
  obtain ⟨r2, k2, -⟩ := h2
  refine ⟨?_, r2, fun n hn => (k2 n (by omega)).trans (k1 n (by omega))⟩
  refine Eq.trans (List.map_congr_left fun i hi => k2 (a + i) (.inl ?_)) r1
  have := List.mem_range.1 hi
  omega

/-- A chunk over the mesh is written into its slot, and its tally added to (R313, R314). -/
theorem slotFilled_taken {c : StagedChunk} (hj : jobOf s 3 sec = none) (hl : c.data.length ≤ (s.comm sec k).chunk) {n : Nat} (hn : TakesOne s n) :
    let a := slotAddr (s.comm sec k) (freeSlot (s.comm sec k) table peer)
    let t := collProgress (tallyAddOp (slotFilled s sec k table peer c) n 1) sec
    t.comm sec k = { noteSlot (s.comm sec k) (freeSlot (s.comm sec k) table peer) with transit := (s.comm sec k).transit.erase c } ∧
    t.tally n = { s.tally n with count := (s.tally n).count + 1 } ∧ (∀ m, m ≠ n → t.tally m = s.tally m) ∧
    readBytes t a c.data.length = c.data ∧ readBytes t (a + (s.comm sec k).chunk) c.header.length = c.header ∧
    (∀ m, m < a ∨ (a + c.data.length ≤ m ∧ m < a + (s.comm sec k).chunk) ∨ a + (s.comm sec k).chunk + c.header.length ≤ m →
      memByte t m = memByte s m) ∧
    Only (readAreas ++ [.comms, .tallies]) s t := by
  intro a t
  have hw := within_slotFilled s sec k table peer c
  have hcomm : (slotFilled s sec k table peer c).comm sec k =
      { noteSlot (s.comm sec k) (freeSlot (s.comm sec k) table peer) with transit := (s.comm sec k).transit.erase c } := tabGet_tabSet_same _ _ _ _
  obtain ⟨t1, t2, -, t4⟩ := tally_tallyTaken (slotFilled s sec k table peer c) n 1
  have ht : t = tallyTaken (slotFilled s sec k table peer c) n 1 := by
    have h1 := tallyAddOp_one (hn.onto (hw.same .tallies (by decide)) (hw.same .ctxs (by decide)))
    change collProgress (tallyAddOp (slotFilled s sec k table peer c) n 1) sec = _
    rw [h1]
    exact collProgress_idle ((jobOf_same (t4 .engines (by decide)) _ _).trans ((jobOf_same (hw.same .engines (by decide)) _ _).trans hj))
  have hb : t.mem.bytes = (fillSlot s (s.comm sec k) (freeSlot (s.comm sec k) table peer) c).mem.bytes := by
    rw [ht]
    exact bytes_of_memory (t4 .memory (by decide))
  have hread (b m : Nat) : readBytes t b m = readBytes (fillSlot s (s.comm sec k) (freeSlot (s.comm sec k) table peer) c) b m := by
    unfold readBytes memByte
    rw [hb]
  obtain ⟨r1, r2, r3⟩ := storedAt_two (storedAt_storeBytes s a c.data) (storedAt_storeBytes _ (a + (s.comm sec k).chunk) c.header)
    (Nat.add_le_add_left hl a)
  refine ⟨?_, ?_, fun m hm => ?_, (hread _ _).trans r1, (hread _ _).trans r2, fun m hm => ?_, ?_⟩
  · rw [ht, comm_same (t4 .comms (by decide)), hcomm]
  · rw [ht, t1, tally_same (hw.same .tallies (by decide))]
  · rw [ht, t2 m hm, tally_same (hw.same .tallies (by decide))]
  · exact (congrArg (tabGet 0 · m) hb).trans (r3 m hm)
  · rw [ht]
    exact (hw.only rfl : Only (readAreas ++ [.comms, .tallies]) s _).trans t4 (fun _ h => h) (by decide)

/-! ### CHUNK_CREDIT_RETURN -/

/-- A group's record with one of a peer's slots free again. -/
def slotBack (x : Comm) (table peer : Nat) : Comm :=
  { x with
    used := tabSet 0 x.used (peerKey table peer) (tabGet 0 x.used (peerKey table peer) - 1)
    seen := tabSet 0 x.seen (creditTally x table peer) (tabGet 0 x.seen (creditTally x table peer) + 1) }

/-- A group's record with a returned slot that came over the mesh taken up. -/
def creditTaken (x : Comm) (table peer : Nat) : Comm :=
  { slotBack x table peer with credits := tabSet 0 x.credits (peerKey table peer) (tabGet 0 x.credits (peerKey table peer) - 1) }

theorem seqKept_slotBack (s : State) (sec k table peer : Nat) : SeqKept s (s.setComm sec k (slotBack (s.comm sec k) table peer)) := seqKept_setComm rfl

theorem seqKept_creditTaken (s : State) (sec k table peer : Nat) : SeqKept s (s.setComm sec k (creditTaken (s.comm sec k) table peer)) :=
  seqKept_setComm rfl

theorem chunkCredit_eq (s : State) (sec k table peer : Nat) : chunkCreditOp sec k table peer s =
    if !(s.comm sec k).present || tabGet 0 (s.comm sec k).used (peerKey table peer) == 0 then s
    else if (peerRoute (s.comm sec k) table peer).2 < 8 then
      if announced s (s.comm sec k) (creditTally (s.comm sec k) table peer) then collProgress (s.setComm sec k (slotBack (s.comm sec k) table peer)) sec
      else s
    else if tabGet 0 (s.comm sec k).credits (peerKey table peer) == 0 || unitHeld s 3 sec then s
    else collProgress (tallyAddOp (s.setComm sec k (creditTaken (s.comm sec k) table peer)) (creditTally (s.comm sec k) table peer) 1) sec := rfl

/-- No returned slot changes a SEQ. -/
theorem seqKept_chunkCreditOp (s : State) (sec k table peer : Nat) : SeqKept s (chunkCreditOp sec k table peer s) := by
  rw [chunkCredit_eq]
  split
  · exact SeqKept.refl s
  · split
    · split
      · exact (seqKept_slotBack s sec k table peer).trans (seqKept_collProgress _ _)
      · exact SeqKept.refl s
    · split
      · exact SeqKept.refl s
      · exact ((seqKept_creditTaken s sec k table peer).trans (seqKept_tallyAddOp _ _ _)).trans (seqKept_collProgress _ _)

theorem chunkCredit_still (h : (s.comm sec k).present = false ∨ tabGet 0 (s.comm sec k).used (peerKey table peer) = 0) :
    chunkCreditOp sec k table peer s = s := by
  rw [chunkCredit_eq]
  refine if_pos ?_
  rcases h with h | h
  · rw [h]; rfl
  · rw [h]; exact Bool.or_true _

section
variable {n : Nat} (hp : (s.comm sec k).present = true) (hu : tabGet 0 (s.comm sec k).used (peerKey table peer) = n + 1)
include hp hu

theorem chunkCredit_link (hr : (peerRoute (s.comm sec k) table peer).2 < 8) : chunkCreditOp sec k table peer s =
    if announced s (s.comm sec k) (creditTally (s.comm sec k) table peer) then collProgress (s.setComm sec k (slotBack (s.comm sec k) table peer)) sec
    else s := by
  rw [chunkCredit_eq, if_neg (by rw [hp, hu]; simp), if_pos hr]

theorem chunkCredit_mesh (hr : 8 ≤ (peerRoute (s.comm sec k) table peer).2) : chunkCreditOp sec k table peer s =
    if tabGet 0 (s.comm sec k).credits (peerKey table peer) == 0 || unitHeld s 3 sec then s
    else collProgress (tallyAddOp (s.setComm sec k (creditTaken (s.comm sec k) table peer)) (creditTally (s.comm sec k) table peer) 1) sec := by
  rw [chunkCredit_eq, if_neg (by rw [hp, hu]; simp), if_neg (Nat.not_lt.2 hr)]

/-- An announced slot of a peer over a link is free again (R312). -/
theorem chunkCredit_announced (hj : jobOf s 3 sec = none) (hr : (peerRoute (s.comm sec k) table peer).2 < 8)
    (ha : tabGet 0 (s.comm sec k).seen (creditTally (s.comm sec k) table peer) < (s.tally (creditTally (s.comm sec k) table peer)).count) :
    (chunkCreditOp sec k table peer s).comm sec k = { s.comm sec k with
      used := tabSet 0 (s.comm sec k).used (peerKey table peer) n
      seen := tabSet 0 (s.comm sec k).seen (creditTally (s.comm sec k) table peer)
        (tabGet 0 (s.comm sec k).seen (creditTally (s.comm sec k) table peer) + 1) } ∧
    Only [.comms] s (chunkCreditOp sec k table peer s) := by
  have hn : tabGet 0 (s.comm sec k).used (peerKey table peer) - 1 = n := by omega
  rw [chunkCredit_link hp hu hr, if_pos (by simpa [announced] using ha), collProgress_idle]
  · refine ⟨?_, (within_setComm _ _ _ _ (Within.refl s) (Sub.refl _)).only rfl⟩
    rw [← hn]
    exact tabGet_tabSet_same _ _ _ _
  · exact hj

/-- A slot returned over the mesh is free again, and its tally added to (R312). -/
theorem chunkCredit_taken (hj : jobOf s 3 sec = none) (hr : 8 ≤ (peerRoute (s.comm sec k) table peer).2) {m : Nat}
    (hc : tabGet 0 (s.comm sec k).credits (peerKey table peer) = m + 1) (hh : unitHeld s 3 sec = false)
    (ht : TakesOne s (creditTally (s.comm sec k) table peer)) :
    let t := chunkCreditOp sec k table peer s
    tabGet 0 (t.comm sec k).used (peerKey table peer) = n ∧ tabGet 0 (t.comm sec k).credits (peerKey table peer) = m ∧
    (t.comm sec k).staged = (s.comm sec k).staged ∧
    t.tally (creditTally (s.comm sec k) table peer) =
      { s.tally (creditTally (s.comm sec k) table peer) with count := (s.tally (creditTally (s.comm sec k) table peer)).count + 1 } ∧
    (∀ j, j ≠ creditTally (s.comm sec k) table peer → t.tally j = s.tally j) ∧ Only [.comms, .tallies, .parts] s t := by
  intro t
  obtain ⟨v, hv⟩ : ∃ v, v = s.setComm sec k (creditTaken (s.comm sec k) table peer) := ⟨_, rfl⟩
  have hw : Within 1048576 s v := hv ▸ within_setComm _ _ _ _ (Within.refl s) (Sub.refl _)
  have hcomm : v.comm sec k = creditTaken (s.comm sec k) table peer := by
    rw [hv]
    exact tabGet_tabSet_same _ _ _ _
  obtain ⟨t1, t2, -, t4⟩ := tally_tallyTaken v (creditTally (s.comm sec k) table peer) 1
  have htt : t = tallyTaken v (creditTally (s.comm sec k) table peer) 1 := by
    change chunkCreditOp sec k table peer s = _
    rw [chunkCredit_mesh hp hu hr, if_neg (by rw [hc, hh]; simp), ← hv,
      tallyAddOp_one (ht.onto (hw.same .tallies (by decide)) (hw.same .ctxs (by decide)))]
    exact collProgress_idle ((jobOf_same (t4 .engines (by decide)) _ _).trans ((jobOf_same (hw.same .engines (by decide)) _ _).trans hj))
  have hx : t.comm sec k = creditTaken (s.comm sec k) table peer := by rw [htt, comm_same (t4 .comms (by decide)), hcomm]
  refine ⟨?_, ?_, by rw [hx]; rfl, ?_, fun j hj' => ?_, ?_⟩
  · rw [hx]
    exact (tabGet_tabSet_same _ _ _ _).trans (by omega)
  · rw [hx]
    exact (tabGet_tabSet_same _ _ _ _).trans (by omega)
  · rw [htt, t1, tally_same (hw.same .tallies (by decide))]
  · rw [htt, t2 j hj', tally_same (hw.same .tallies (by decide))]
  · rw [htt]
    exact (hw.only rfl : Only [.comms, .tallies, .parts] s v).trans t4 (fun _ h => h) (by decide)

end

end Sys2Proof.Machine
end

section
/-! A store at any address, of memory or not, leaves every register past those of memory but those of health and the outbound mailboxes:
what it counts for a word in error lies in a section whose number a word's address bounds (R56, R59, R434). -/

namespace Sys2Proof.Machine

variable {s t u : State}

/-- Every register past the first 32 names reads as before, but those of health and the outbound mailboxes. -/
def PastMemory (s t : State) : Prop := ∀ a : RegAt, 32 ≤ a.reg.num → a.reg ≠ .hltUnit → a.reg ≠ .mbxOutStatus → a.i < 64 → a.j < 1024 →
  t.raw a = s.raw a

theorem PastMemory.refl (s : State) : PastMemory s s := fun _ _ _ _ _ _ => rfl

theorem PastMemory.trans (h : PastMemory s t) (g : PastMemory t u) : PastMemory s u :=
  fun a ha hh hm hi hj => (g a ha hh hm hi hj).trans (h a ha hh hm hi hj)

theorem pastMemory_of_same (h : Area.registers.same s t) : PastMemory s t := fun a _ _ _ _ _ => raw_congr h a

theorem RegsBut.pastMemory (h : RegsBut memoryRegs s t) : PastMemory s t := fun a ha hh hm hi hj => by
  refine h a (fun hmem => ?_) hi hj
  simp only [memoryRegs, List.mem_cons, List.not_mem_nil, or_false] at hmem
  rcases hmem with e | e | e | e | e | e | e
  · exact absurd (e ▸ ha) (by decide)
  · exact absurd (e ▸ ha) (by decide)
  · exact absurd (e ▸ ha) (by decide)
  · exact absurd (e ▸ ha) (by decide)
  · exact absurd (e ▸ ha) (by decide)
  · exact hh e
  · exact hm e

/-- A field of a register past those of memory. -/
theorem PastMemory.fld (h : PastMemory s t) {f : RField} {i j : Nat} (hf : 32 ≤ f.reg.num ∧ f.reg ≠ .hltUnit ∧ f.reg ≠ .mbxOutStatus) (hi : i < 64)
    (hj : j < 1024) : t.fld f i j = s.fld f i j := congrArg (getBits · f.hi f.lo) (h ⟨f.reg, i, j⟩ hf.1 hf.2.1 hf.2.2 hi hj)

theorem PastMemory.counted {f : RField} {i j n : Nat} (h : PastMemory t u) (hc : Counted s t f i j n)
    (hf : 32 ≤ f.reg.num ∧ f.reg ≠ .hltUnit ∧ f.reg ≠ .mbxOutStatus) (hi : i < 64) (hj : j < 1024) : Counted s u f i j n :=
  hc.kept (h.fld hf hi hj)

/-- A register of memory, of any section below 1,536, has the key of one of the first 32 names. -/
theorem pastMemory_setRaw (s : State) {a : RegAt} (w : Word) (hn : a.reg.num ≤ 4) (hi : a.i < 1536) (hj : a.j < 1024) : PastMemory s (s.setRaw a w) :=
  fun b hb _ _ _ _ => raw_setRaw_key s w (by unfold regKey; omega)

theorem pastMemory_bump (s : State) {f : RField} {i j : Nat} (n : Nat) (hn : f.reg.num ≤ 4) (hi : i < 1536) (hj : j < 1024) :
    PastMemory s (s.bump f i j n) := pastMemory_setRaw s _ hn hi hj

theorem pastMemory_healthEvent (s : State) {v : Nat} (row pts : Nat) (hv : v < 65536) : PastMemory s (healthEvent s v row pts) := by
  have hb (x : Health) : PastMemory s ((s.setHealth v x).bump fHltUnitEvents 0 v 1) := fun a ha hh _ hi hj => by
    refine (raw_setRaw_key (s.setHealth v x) _ fun hk => hh (RegName.num_inj ?_)).trans (raw_congr rfl a)
    have h0 : RegName.hltUnit.num = 107 := rfl
    have hr : regKey ⟨fHltUnitEvents.reg, 0, v⟩ = 107 * 64 * 1024 + v := rfl
    rw [hr] at hk
    unfold regKey at hk
    omega
  unfold healthEvent
  dsimp only
  split
  · exact (hb _).trans (regsBut_postHealth (rs := memoryRegs) _ _ (by decide)).pastMemory
  · exact hb _

theorem pastMemory_noteLoam (s : State) {sec : Nat} (off : Nat) (e : WordError) (h : sec < 1536) : PastMemory s (noteLoam s sec off e) := by
  have hu : huSection sec < 65536 := by unfold huSection; omega
  cases e
  all_goals unfold noteLoam; dsimp only
  · exact ((pastMemory_bump s (f := fLoamEccCountCorr) 1 (by decide) h (by decide)).trans (pastMemory_setRaw _ (a := ⟨.loamEccLast, sec, 0⟩) _
      (show RegName.loamEccLast.num ≤ 4 by decide) h (Nat.zero_lt_succ _))).trans (pastMemory_healthEvent _ _ _ hu)
  · exact ((pastMemory_bump s (f := fLoamEccCountUncorr) 1 (by decide) h (by decide)).trans (pastMemory_setRaw _ (a := ⟨.loamEccLast, sec, 0⟩) _
      (show RegName.loamEccLast.num ≤ 4 by decide) h (Nat.zero_lt_succ _))).trans (pastMemory_healthEvent _ _ _ hu)
  · exact (pastMemory_bump s (f := fLoamEccCountPoisoned) 1 (by decide) h (by decide)).trans (pastMemory_setRaw _ (a := ⟨.loamEccLast, sec, 0⟩) _
      (show RegName.loamEccLast.num ≤ 4 by decide) h (Nat.zero_lt_succ _))

theorem pastMemory_noteHbm (s : State) {g : Nat} (off : Nat) (e : WordError) (h : g / 3 < 1536) : PastMemory s (noteHbm s g off e) := by
  have h3 : g % 3 < 1024 := by omega
  have hu : huStack g < 65536 := by unfold huStack; omega
  cases e
  all_goals unfold noteHbm; dsimp only
  · exact ((pastMemory_bump s (f := fHbmEccCountCorr) 1 (by decide) h h3).trans (pastMemory_setRaw _ (a := ⟨.hbmEccLast, g / 3, g % 3⟩) _
      (show RegName.hbmEccLast.num ≤ 4 by decide) h h3)).trans (pastMemory_healthEvent _ _ _ hu)
  · exact ((pastMemory_bump s (f := fHbmEccCountUncorr) 1 (by decide) h h3).trans (pastMemory_setRaw _ (a := ⟨.hbmEccLast, g / 3, g % 3⟩) _
      (show RegName.hbmEccLast.num ≤ 4 by decide) h h3)).trans (pastMemory_healthEvent _ _ _ hu)
  · exact (pastMemory_bump s (f := fHbmEccCountPoisoned) 1 (by decide) h h3).trans (pastMemory_setRaw _ (a := ⟨.hbmEccLast, g / 3, g % 3⟩) _
      (show RegName.hbmEccLast.num ≤ 4 by decide) h h3)

theorem pastMemory_noteKey (s : State) {k : Nat} (e : WordError) (h : (placeOf s k).sec < 1536) : PastMemory s (noteKey s k e) := by
  have hcause (v : State) (m : Mem) (p f c : Nat) (l : Option Nat) : PastMemory v (addCause { v with mem := m } p f c l) :=
    (regsBut_addCause_mem v m p f c l).pastMemory
  unfold noteKey
  cases hp : placeOf s k with
  | loam sec off =>
    rw [hp] at h
    have hn := pastMemory_noteLoam s off e h
    cases e with
    | corrected y =>
      dsimp only
      split
      · exact hn.trans (hcause _ _ _ _ _ _)
      · exact hn
    | uncorrectable => exact hn
    | poisoned => exact hn
  | hbm g off =>
    rw [hp] at h
    have hn := pastMemory_noteHbm s off e h
    cases e with
    | corrected y =>
      dsimp only
      split
      · exact hn.trans (hcause _ _ _ _ _ _)
      · exact hn
    | uncorrectable => exact hn
    | poisoned => exact hn

theorem pastMemory_noteErrors (s : State) {l : List (Nat × Nat × WordError)} (h : ∀ e ∈ l, (placeOf s e.2.1).sec < 1536) :
    PastMemory s (noteErrors s l) := by
  induction l generalizing s with
  | nil => exact PastMemory.refl s
  | cons e l ih => exact (pastMemory_noteKey s e.2.2 (h e (.head _))).trans (ih _ fun f hf => (placeOf_sec s _ _).symm ▸ h f (.tail _ hf))

/-- The section of a word that an access to its address meets is below 1,536, whether memory has the address or not. -/
theorem wordSec_lt {k : Nat} (hk : homeWord s (wordAddr s k) = k) : (placeOf s k).sec < 1536 := by
  by_cases hb : k < copyBase
  · rw [placeOf, if_neg (Nat.not_le.2 hb)]
    unfold copyBase at hb
    split
    next sec off h =>
      unfold loamPlace at h
      dsimp only at h
      split at h
      next h1 =>
        split at h
        · cases h
          change (16 * k - loamBase) / loamWindow < 1536
          unfold loamBase loamWindow at *
          omega
        · exact nomatch h
      next => exact nomatch h
    next =>
      change stackOf (16 * k) / 3 < 1536
      unfold stackOf stackBytes
      omega
  · cases hl : lineHome s (wordAddr s k) with
    | none =>
      rw [homeWord, hl] at hk
      have hw : wordAddr s k / 16 = k := hk
      rw [wordAddr, if_neg hb, lineAddr] at hw
      rw [placeOf, if_pos (Nat.not_lt.1 hb)]
      change keySec (copyKey k) < 1536
      generalize (tabGet ({} : CacheLine) s.mem.cache (copyKey k)).line = n at hw
      unfold copyKey keySec copyBase sectionHbm at *
      omega
    | some ck =>
      have hlt := inHbm_of_lineHome hl
      exact (placeOf_home (a := wordAddr s k) (n := 1) (placed_of_cases (.inl hlt)) hk (by omega) (by omega)).trans (by decide)

theorem pastMemory_readCheck (s : State) (a n : Nat) : PastMemory s (readCheck s a n).1 :=
  pastMemory_noteErrors s fun e he => by
    have hs := sel_of_mem_errorsOf he
    simp only [Bool.and_eq_true, beq_iff_eq] at hs
    exact wordSec_lt hs.1.1.1

theorem pastMemory_foldlFst {α β : Type} (l : List α) (g : State × β → α → State × β) (h : ∀ a r, PastMemory r.1 (g r a).1) (r : State × β) :
    PastMemory r.1 (l.foldl g r).1 := by
  induction l generalizing r with
  | nil => exact PastMemory.refl _
  | cons a l ih => exact (h a r).trans (ih _)

theorem pastMemory_storeBytes (s : State) (a : Nat) (l : List Byte) : PastMemory s (storeBytes s a l) := by
  unfold storeBytes
  split
  · exact PastMemory.refl s
  · have h1 := (regsBut_throughCache s a l.length).pastMemory
    have h2 := pastMemory_foldlFst (partWords a l.length) (fun (r : State × List (Nat × Bool)) w =>
        ((readCheck r.1 w 16).1, r.2 ++ (readCheck r.1 w 16).2)) (fun w r => pastMemory_readCheck r.1 w 16) (throughCache s a l.length false, [])
    dsimp only at h2 ⊢
    generalize (partWords a l.length).foldl _ _ = r at h2 ⊢
    have h3 (es : List (Nat × Bool)) (v : State) : Area.registers.same v (es.foldl (fun t e => poisonWord t e.1) v) := by
      induction es generalizing v with
      | nil => rfl
      | cons e es ih => exact (ih _).trans rfl
    exact (h1.trans h2).trans (pastMemory_of_same ((h3 r.2 (writeBytes r.1 a l)).trans rfl))

end Sys2Proof.Machine
end

section
/-! The statement about collectives: COLLECTIVE_COMPLETE, COLL_WAIT_REPORT and WAIT_TIMEOUT, with the descriptors, chunks and credits before
(R245, R306, R315, R321, R322, R430). -/

namespace Sys2Proof.Machine

variable {s t v : State} {sec : Sec} {j : Job}

/-! ### COLLECTIVE_COMPLETE -/

/-- The state with a descriptor's statistics record. -/
def statsStored (s : State) (sec : Nat) (j : Job) : State :=
  if cStats j.bytes && cReduces j.bytes && cStatsAddr j.bytes != 0 then
    storeBytes s (cStatsAddr j.bytes) (statsRecord (s.comm sec (cComm j.bytes)) j.bytes j.coll.stats) else s

/-- A descriptor that ends is counted. -/
def collCounted (sec : Nat) (b : List Byte) (t : State) : State :=
  (if cOp b = 3 then t.bump fCollStampGathers sec 0 1 else t).bump fCollDescCompleted sec 0 1

theorem within_statsStored (s : State) (sec : Nat) (j : Job) : Within 134222008 s (statsStored s sec j) :=
  within_ite (within_storeBytes _ _ _ (Within.refl s) (Sub.refl _)) (Within.refl s)

theorem within_collCounted (sec : Nat) (b : List Byte) (t : State) : Within 8 t (collCounted sec b t) :=
  within_bump _ _ _ _ _ (within_ite (within_bump _ _ _ _ _ (Within.refl t) rfl) (Within.refl t)) rfl

theorem collEnd_eq (s : State) (sec : Nat) (j : Job) :
    collEnd s sec j = endCounted (countedMarked (statsStored s sec j) j) 3 sec j (collCounted sec j.bytes) := by
  have hp : ((statsStored s sec j).ctx j.ctx).part = (s.ctx j.ctx).part := by
    rw [ctx_same ((within_statsStored s sec j).same .ctxs (by decide))]
  rw [countedMarked, hp]
  rfl

theorem marks_ended (s : State) (sec : Nat) (j : Job) (c : Nat) :
    ((countedMarked (statsStored s sec j) j).ctx c).marks = (s.ctx c).marks := by
  rw [marks_countedMarked, ctx_same ((within_statsStored s sec j).same .ctxs (by decide))]

theorem within_ended (s : State) (sec : Nat) (j : Job) : Within 134295736 s (countedMarked (statsStored s sec j) j) :=
  (within_statsStored s sec j).trans (within_countedMarked _ j) rfl rfl

theorem counted_collCounted (hs : sec.val < 64) (b : List Byte) (t : State) :
    Counted t (collCounted sec.val b t) fCollDescCompleted sec.val 0 1 ∧
    (cOp b = 3 → Counted t (collCounted sec.val b t) fCollStampGathers sec.val 0 1) := by
  have hg : RegsBut [.collStamp] t (if cOp b = 3 then t.bump fCollStampGathers sec.val 0 1 else t) :=
    regsBut_ite (regsBut_bump t (f := fCollStampGathers) 1 (by decide) hs (by decide)) (RegsBut.refl t)
  refine ⟨Counted.since (fld_bump_same _ _ _ _ _ (by decide) (by decide)) (hg.fld (by decide) hs (by decide)), fun h3 => ?_⟩
  unfold collCounted
  rw [if_pos h3]
  have hc : Counted t (t.bump fCollStampGathers sec.val 0 1) fCollStampGathers sec.val 0 1 := fld_bump_same _ _ _ _ _ (by decide) (by decide)
  exact hc.kept ((regsBut_bump (rs := [.collDesc]) _ (f := fCollDescCompleted) 1 (by decide) hs (by decide)).fld (by decide) hs (by decide))

theorem length_statsRecord (x : Comm) (b st : List Byte) : (statsRecord x b st).length = 64 := by
  simp only [statsRecord, List.length_append, length_leBytes]

theorem execCollectiveComplete_ends (hj : jobOf s 3 sec.val = some j) (hp : j.phase = .dataDone) (hh : unitHeld s 3 sec.val = false) :
    exec (.collectiveComplete sec) s = .next (endCounted (countedMarked (statsStored s sec.val j) j) 3 sec.val j (collCounted sec.val j.bytes)) := by
  rw [← collEnd_eq]
  change Host.Outcome.next (collCompleteOp sec.val s) = _
  unfold collCompleteOp
  rw [hj]
  exact congrArg Host.Outcome.next (if_neg (by rw [hp, hh]; decide))

/-- A descriptor's counts and its statistics record (R306, R322, R327). -/
theorem collEnd_done (hs : SignalsTake s j.bytes) :
    let t := endCounted (countedMarked (statsStored s sec.val j) j) 3 sec.val j (collCounted sec.val j.bytes)
    Counted s t fCollDescCompleted sec.val 0 1 ∧ (cOp j.bytes = 3 → Counted s t fCollStampGathers sec.val 0 1) ∧
    (RingInHost (s.queue j.queue) → t.mem.bytes = (statsStored s sec.val j).mem.bytes) := by
  intro t
  have hsec : sec.val < 64 := by omega
  have hv := within_ended s sec.val j
  obtain ⟨w, ⟨hw, -⟩, -, -, hend⟩ := endCounted_takes (kind := 3) (unit := sec.val) (hs.kept (hv.same .tallies (by decide)) (marks_ended s sec.val j))
  have ht : t = finishEntry (collCounted sec.val j.bytes w) j.queue j.pos (jobRecord (collCounted sec.val j.bytes w) j 0 0) := hend _
  have hpast : PastMemory s w := by
    refine PastMemory.trans ?_ (pastMemory_of_same (Area.same_trans ((within_countedMarked (statsStored s sec.val j) j).same .registers (by decide))
      (hw.same .registers (by decide))))
    unfold statsStored
    split
    · exact pastMemory_storeBytes _ _ _
    · exact PastMemory.refl s
  have hfin := regsBut_finishEntry (collCounted sec.val j.bytes w) j.queue j.pos (jobRecord (collCounted sec.val j.bytes w) j 0 0)
  obtain ⟨h1, h3⟩ := counted_collCounted hsec j.bytes w
  rw [ht]
  refine ⟨(h1.since (hpast.fld (by decide) hsec (by decide))).kept (hfin.fld (by decide) hsec (by decide)),
    fun h => ((h3 h).since (hpast.fld (by decide) hsec (by decide))).kept (hfin.fld (by decide) hsec (by decide)), fun hq => ?_⟩
  have hc := within_collCounted sec.val j.bytes w
  have hring : RingInHost ((collCounted sec.val j.bytes w).queue j.queue) := by
    rw [queue_same (hc.same .queues (by decide)), queue_same (hw.same .queues (by decide)), queue_same (hv.same .queues (by decide))]
    exact hq
  rw [bytes_finishEntry hring, bytes_of_memory (hc.same .memory (by decide)), bytes_of_memory (hw.same .memory (by decide)),
    bytes_of_memory ((within_countedMarked (statsStored s sec.val j) j).same .memory (by decide))]

/-- A descriptor whose data is whole ends (R306). -/
theorem collectiveComplete_ends (hj : jobOf s 3 sec.val = some j) (hp : j.phase = .dataDone) (hh : unitHeld s 3 sec.val = false) :
    EndsSignalled (.collectiveComplete sec) s 3 sec.val j [.ctxs, .tensors] :=
  (endsSignalled_after (l := readAreas ++ [.ctxs, .tensors]) (execCollectiveComplete_ends hj hp hh) ((within_ended s sec.val j).only rfl)
    (marks_ended s sec.val j) (fun t => (within_collCounted sec.val j.bytes t).only rfl) (by decide) (by decide)).mono (by decide)

/-- A collective engine without a descriptor, or a held one, ends nothing. -/
theorem collectiveComplete_still (h : jobOf s 3 sec.val = none ∨ unitHeld s 3 sec.val = true) : exec (.collectiveComplete sec) s = .next s := by
  change Host.Outcome.next (collCompleteOp sec.val s) = _
  unfold collCompleteOp
  refine congrArg Host.Outcome.next ?_
  split
  next j hj => exact if_pos (by rw [h.resolve_left (by rw [hj]; exact nofun), Bool.or_true])
  next => rfl

/-! ### COLL_WAIT_REPORT and WAIT_TIMEOUT -/

theorem collWaits_running (hj : jobOf s 3 sec.val = some j) (hp : j.phase = .running) : collWaits s sec.val = some j := by
  rw [collWaits, hj]
  exact if_pos hp

theorem collWaits_none (h : jobOf s 3 sec.val = none) : collWaits s sec.val = none := by rw [collWaits, h]

theorem exec_collWaitReport (h : collWaits s sec.val = some j) : exec (.collWaitReport sec) s =
    .next (if j.reported || !j.coll.chunkWait then s
      else postWait ((putJob s 3 sec.val { j with reported := true }).bump fCollWaitWaitsReported sec.val 0 1) sec.val 0xF j.ctx) := by
  change execCollWaitReport sec s = _
  rw [execCollWaitReport, h]

/-- A wait that is reported is marked, counted and posted (R315). -/
theorem collWaitReported_frame (s : State) (sec : Sec) (j : Job) :
    let t := postWait ((putJob s 3 sec.val j).bump fCollWaitWaitsReported sec.val 0 1) sec.val 0xF j.ctx
    jobOf t 3 sec.val = some j ∧ Counted s t fCollWaitWaitsReported sec.val 0 1 ∧ Only [.engines, .registers, .functions] s t := by
  intro t
  have hput := within_putJob s 3 sec.val j (Within.refl s) (Sub.refl _)
  have hb := within_bump (putJob s 3 sec.val j) fCollWaitWaitsReported sec.val 0 1 (Within.refl _) (Sub.refl _)
  have hp := within_postWait ((putJob s 3 sec.val j).bump fCollWaitWaitsReported sec.val 0 1) sec.val 0xF j.ctx (Within.refl _) (Sub.refl _)
  have hbp : Within 136 (putJob s 3 sec.val j) t := hb.trans hp rfl rfl
  refine ⟨?_, ?_, (hput.trans hbp rfl rfl : Within 8388744 s t).only rfl⟩
  · rw [jobOf_same (hbp.same .engines (by decide)), jobOf_putJob]
  · refine Counted.from ?_ (hput.same .registers (by decide))
    refine ((regsBut_postPart _ _ _ _ (by decide)).fld (rs := [.mbxOutStatus]) (by decide) (by omega) (by decide)).trans ?_
    exact fld_bump_same _ _ _ _ _ (by decide) (by decide)

/-- A wait of four limits faults the descriptor's context (R430). -/
theorem collTimeout_running (h : collWaits s sec.val = some j) : EndsFault (.waitTimeout (.collective sec)) s 3 sec.val j.ctx 0x11 := by
  have hx : exec (.waitTimeout (.collective sec)) s = .next (collFault (s.bump fFltWdogWaitFaults 0 0 1) sec.val j 0x11 0 false) := by
    change execWaitTimeout (.collective sec) s = _
    unfold execWaitTimeout
    dsimp only
    rw [h]
  exact endsFault_collFault hx rfl rfl

/-- A descriptor that waits in its queue faults its context, if there is one (R430). -/
theorem collTimeout_queued (h : collWaits s sec.val = none) :
    (∀ c, collQueued s sec.val = some c →
      exec (.waitTimeout (.collective sec)) s = .next (ctxFault (s.bump fFltWdogWaitFaults 0 0 1) c 0x11 sec.val 0 false)) ∧
    (collQueued s sec.val = none → exec (.waitTimeout (.collective sec)) s = .next s) := by
  change (∀ c, _ → execWaitTimeout (.collective sec) s = _) ∧ (_ → execWaitTimeout (.collective sec) s = _)
  unfold execWaitTimeout
  dsimp only
  rw [h]
  dsimp only
  refine ⟨fun c hc => ?_, fun hn => ?_⟩
  · rw [hc]
  · rw [hn]

/-! ### The statement -/

/-- Settles O34: the check and the standstill of a descriptor do not rest on its group's SEQ, which its taking advances and nothing after it
changes; a store of statistics, wherever it goes, leaves the counts of the engine. -/
theorem collectives : Obligations.Collectives := by
  unfold Obligations.Collectives
  refine ⟨fun sec hits s q c e => ?descriptor, fun sec comm tree peer headerHits dataHits s => ?arrival, fun sec comm tree peer s => ?credit,
    fun sec s j hj => ?engine, fun sec s => ?idle⟩
  case descriptor =>
    intro u i b x j seq h
    have hgroup : namesGroup u sec.val c e = true ↔ x.present = true ∧ x.ctx = c := namesGroup_iff
    refine ⟨fun hst => ?_, fun hst => ?_⟩
    · obtain ⟨t, hx, hj, hc, ho⟩ := collDescriptor_cancelled h (hgroup.2 ⟨hst.1, hst.2.1⟩) hst.2.2
      exact ⟨t, hx, hj, ctx_same (ho .ctxs (by decide)) c, tally_same (ho .tallies (by decide)), comm_same (ho .comms (by decide)) _ _, hc, ho⟩
    · have hfresh : namesGroup u sec.val c e = true → x.stale = false := fun hn =>
        Bool.eq_false_iff.2 fun hs => hst ⟨(hgroup.1 hn).1, (hgroup.1 hn).2, hs⟩
      have hseq {t : State} (ht : namesGroup u sec.val c e = true → (t.comm sec.val (cComm e.bytes)).seq = nextSeq u sec.val e) : seq t :=
        fun hp hc => ht (hgroup.2 ⟨hp, hc⟩)
      refine ⟨fun hb => ?_, fun hb hc => ?_, fun hb hc => ?_, fun hb hc => ?_⟩
      · obtain ⟨hf, t, hx, ht⟩ := collDescriptor_invalid h hfresh hb
        exact ⟨hf, t, hx, hseq ht⟩
      · obtain ⟨hf, t, hx, ht⟩ := collDescriptor_badWord h hfresh hb hc
        exact ⟨hf, t, hx, hseq ht⟩
      · obtain ⟨t, hx, ht, hend⟩ := collDescriptor_held h hfresh hb hc
        exact ⟨t, hx, hseq fun _ => ht, hend⟩
      · intro y a hs
        obtain ⟨t, w, p, hx, ht, hrest⟩ := collDescriptor_waits h hfresh hb hc hs
        exact ⟨t, w, p, hx, hseq fun _ => ht, hrest⟩
  case arrival =>
    intro u i x full slot tally a
    have hx : exec i s = .next (chunkArrivalOp sec.val comm.val tree.val (peerNum peer) u) := rfl
    have hid (h : chunkArrivalOp sec.val comm.val tree.val (peerNum peer) u = u) : exec i s = .next u := hx.trans (congrArg _ h)
    refine ⟨⟨_, hx, seqKept_chunkArrivalOp _ _ _ _ _ _ _⟩, fun h => hid (chunkArrival_still h), fun hp hs hf hj => ⟨fun hr => ⟨fun ha => ?_, fun ha => ?_⟩,
      fun hr => ⟨fun h => hid ((chunkArrival_mesh hp hs hf hr).1 h), fun c hc hh hl htp hta htc hm => ?_⟩⟩⟩
    · refine hid ((chunkArrival_link hp hs hf hr).trans (if_pos ?_))
      simpa [announced] using ha
    · exact ⟨_, hx, chunkArrival_announced hp hs hf hj hr ha⟩
    · have ht := (chunkArrival_mesh hp hs hf hr).2 c hc hh
      exact ⟨_, hx.trans (congrArg _ ht), slotFilled_taken hj hl ⟨htp, hta, htc, hm⟩⟩
  case credit =>
    intro i x key tally
    have hx : exec i s = .next (chunkCreditOp sec.val comm.val tree.val (peerNum peer) s) := rfl
    have hid (h : chunkCreditOp sec.val comm.val tree.val (peerNum peer) s = s) : exec i s = .next s := hx.trans (congrArg _ h)
    refine ⟨⟨_, hx, seqKept_chunkCreditOp _ _ _ _ _ _ _⟩, fun h => hid (chunkCredit_still h), fun n hp hu hj => ⟨fun hr => ⟨fun ha => ?_, fun ha => ?_⟩,
      fun hr => ⟨fun h => ?_, fun k hc hh htp hta htc hm => ?_⟩⟩⟩
    · refine hid ((chunkCredit_link hp hu hr).trans (if_neg ?_))
      simpa [announced] using ha
    · exact ⟨_, hx, chunkCredit_announced hp hu hj hr ha⟩
    · refine hid ((chunkCredit_mesh hp hu hr).trans (if_pos ?_))
      rcases h with h | h
      · exact Bool.or_eq_true_iff.2 (.inl (beq_iff_eq.2 h))
      · rw [h, Bool.or_true]
    · exact ⟨_, hx, chunkCredit_taken hp hu hj hr hc hh ⟨htp, hta, htc, hm⟩⟩
  case engine =>
    refine ⟨fun hp hh => ⟨collectiveComplete_ends hj hp hh, fun hs => ?_⟩, fun hp => ⟨fun hr hw => ?_, fun h => ?_, collTimeout_running (collWaits_running hj hp)⟩⟩
    · obtain ⟨h1, h3, hb⟩ := collEnd_done (sec := sec) hs
      refine ⟨_, execCollectiveComplete_ends hj hp hh, h1, h3, fun hq => ⟨fun hst => ?_, fun hst a => ?_⟩⟩
      · have hif : statsStored s sec.val j = storeBytes s (cStatsAddr j.bytes) (statsRecord (s.comm sec.val (cComm j.bytes)) j.bytes j.coll.stats) :=
          if_pos (by simpa [and_assoc] using hst)
        have hrd := (storedAt_storeBytes s (cStatsAddr j.bytes) (statsRecord (s.comm sec.val (cComm j.bytes)) j.bytes j.coll.stats)).1
        rw [length_statsRecord, ← hif] at hrd
        unfold readBytes memByte at hrd ⊢
        rw [hb hq]
        exact hrd
      · refine (congrArg (tabGet 0 · a) (hb hq)).trans ?_
        rw [statsStored, hst]
        rfl
    · have hx := exec_collWaitReport (collWaits_running hj hp)
      rw [if_neg (by rw [hr, hw]; decide)] at hx
      exact ⟨_, hx, collWaitReported_frame s sec { j with reported := true }⟩
    · refine (exec_collWaitReport (collWaits_running hj hp)).trans (congrArg _ (if_pos ?_))
      rcases h with h | h <;> simp [h]
  case idle =>
    refine ⟨collectiveComplete_still, fun h => ⟨?_, fun c hc => ?_, (collTimeout_queued (collWaits_none h)).2⟩⟩
    · change execCollWaitReport sec s = _
      rw [execCollWaitReport, collWaits_none h]
    · have hf := faulted_ctxFault (s.bump fFltWdogWaitFaults 0 0 1) c 0x11 sec.val 0 false
      generalize hv : s.bump fFltWdogWaitFaults 0 0 1 = v at hf
      have hc' : v.ctx c = s.ctx c := by rw [← hv]; rfl
      refine ⟨_, (collTimeout_queued (collWaits_none h)).1 c hc, fun ha => ?_⟩
      rw [hv]
      exact hf (by rw [hc', ha])

end Sys2Proof.Machine
end

section
/-! What waits in the queue of commands stays while a cycle of the reference clock passes: memory, events, records and the links'
transmitters leave it as it is. -/

namespace Sys2Proof.Machine

variable {s : State}

@[simp] theorem pending_ite (c : Prop) [Decidable c] (a b : State) :
    (if c then a else b).pending = if c then a.pending else b.pending :=
  apply_ite State.pending c a b

@[simp] theorem pending_foldl {α : Type} {l : List α} {g : State → α → State} (h : ∀ t a, (g t a).pending = t.pending) :
    (l.foldl g s).pending = s.pending := by
  induction l generalizing s with
  | nil => rfl
  | cons a l ih => exact ih.trans (h s a)

@[simp] theorem pending_foldlFst {α β : Type} {l : List α} {g : State × β → α → State × β} {r : State × β}
    (h : ∀ r a, (g r a).1.pending = r.1.pending) : (l.foldl g r).1.pending = r.1.pending := by
  induction l generalizing r with
  | nil => rfl
  | cons a l ih => exact ih.trans (h r a)

@[simp] theorem pending_forEach {α : Type} {l : List α} {g : α → State → State} (h : ∀ a t, (g a t).pending = t.pending) :
    (forEach l s g).pending = s.pending :=
  pending_foldl fun t a => h a t

@[simp] theorem pending_forgetWords (s : State) (f : Nat → Bool) : (forgetWords s f).pending = s.pending := (rfl)
@[simp] theorem pending_writeBytes (s : State) (a : Nat) (bs : List Byte) : (writeBytes s a bs).pending = s.pending := (rfl)
@[simp] theorem pending_writeCells (s : State) (l : List Cell) : (writeCells s l).pending = s.pending := (rfl)
@[simp] theorem pending_poisonKey (s : State) (k : Nat) : (poisonKey s k).pending = s.pending := (rfl)
@[simp] theorem pending_poisonWord (s : State) (a : Nat) : (poisonWord s a).pending = s.pending := (rfl)
@[simp] theorem pending_writeHost (s : State) (a : Nat) (bs : List Byte) : (writeHost s a bs).pending = s.pending := (rfl)
@[simp] theorem pending_freeDraw (s : State) : s.freeDraw.2.pending = s.pending := (rfl)
@[simp] theorem pending_raiseMsix (s : State) (f vec : Nat) : (raiseMsix s f vec).pending = s.pending := by
  unfold raiseMsix
  simp
@[simp] theorem pending_postPart (s : State) (p code arg : Nat) : (postPart s p code arg).pending = s.pending := by
  unfold postPart
  simp
@[simp] theorem pending_postHealth (s : State) (u : Nat) : (postHealth s u).pending = s.pending := by
  unfold postHealth
  simp
@[simp] theorem pending_addCauseAt (s : State) (p field key : Nat) (len : Option Nat) (since : Nat) :
    (addCauseAt s p field key len since).pending = s.pending := by
  unfold addCauseAt
  simp
@[simp] theorem pending_addCause (s : State) (p field key : Nat) (len : Option Nat) :
    (addCause s p field key len).pending = s.pending := by
  unfold addCause
  simp
@[simp] theorem pending_addOpenCause (s : State) (p field key : Nat) : (addOpenCause s p field key).pending = s.pending := by
  unfold addOpenCause
  simp
@[simp] theorem pending_dropCauses (s : State) (p : Nat) (f : HoldCause → Bool) : (dropCauses s p f).pending = s.pending := (rfl)
@[simp] theorem pending_noteLoam (s : State) (sec off : Nat) (e : WordError) : (noteLoam s sec off e).pending = s.pending := by
  unfold noteLoam
  split <;> simp
@[simp] theorem pending_noteHbm (s : State) (g off : Nat) (e : WordError) : (noteHbm s g off e).pending = s.pending := by
  unfold noteHbm
  split <;> simp
@[simp] theorem pending_noteKey (s : State) (k : Nat) (e : WordError) : (noteKey s k e).pending = s.pending := by
  unfold noteKey
  dsimp only
  split
  · split <;> split <;> simp
  · split <;> simp
@[simp] theorem pending_noteErrors (s : State) (es : List (Nat × Nat × WordError)) : (noteErrors s es).pending = s.pending := by
  unfold noteErrors
  simp
@[simp] theorem pending_readCheck (s : State) (a n : Nat) : (readCheck s a n).1.pending = s.pending := by
  unfold readCheck
  simp
@[simp] theorem pending_setCacheLine (s : State) (sec set way : Nat) (l : CacheLine) :
    (setCacheLine s sec set way l).pending = s.pending := (rfl)
@[simp] theorem pending_cacheVictim (s : State) (sec set : Nat) : (cacheVictim s sec set).1.pending = s.pending := by
  unfold cacheVictim
  dsimp only
  split <;> simp
@[simp] theorem pending_writeBackLine (s : State) (ck : Nat) : (writeBackLine s ck).pending = s.pending := by
  unfold writeBackLine
  simp
@[simp] theorem pending_evictLine (s : State) (ck : Nat) : (evictLine s ck).pending = s.pending := by
  unfold evictLine
  simp
@[simp] theorem pending_fillLine (s : State) (ck : Nat) : (fillLine s ck).1.pending = s.pending := by
  unfold fillLine
  simp
@[simp] theorem pending_cacheAccess (s : State) (sec u line : Nat) (use : CacheUse) :
    (cacheAccess s sec u line use).1.pending = s.pending := by
  unfold cacheAccess
  split
  · rfl
  · dsimp only
    split
    · rfl
    · split
      · rfl
      · split <;> simp
@[simp] theorem pending_throughCache (s : State) (a n : Nat) (engine : Bool) :
    (throughCache s a n engine).pending = s.pending := by
  unfold throughCache
  simp
@[simp] theorem pending_readLine (s : State) (a n l : Nat) : (readLine s a n l).1.pending = s.pending := by
  unfold readLine
  simp only [apply_ite Prod.fst]
  simp
@[simp] theorem pending_readMem (s : State) (a n : Nat) : (readMem s a n).1.pending = s.pending := by
  unfold readMem
  simp only [apply_ite Prod.fst]
  simp
@[simp] theorem pending_writeMem (s : State) (a : Nat) (bs : List Byte) (engine : Bool) :
    (writeMem s a bs engine).pending = s.pending := by
  unfold writeMem
  simp
@[simp] theorem pending_storeBytes (s : State) (a : Nat) (data : List Byte) : (storeBytes s a data).pending = s.pending := by
  unfold storeBytes
  simp
@[simp] theorem pending_cutFlit (s : State) (l : Nat) : (cutFlit s l).pending = s.pending := (rfl)
@[simp] theorem pending_beginMsg (s : State) (l : Nat) (m : OutMsg) : (beginMsg s l m).pending = s.pending := (rfl)
@[simp] theorem pending_pumpLink (s : State) (l n : Nat) : (pumpLink s l n).pending = s.pending := by
  induction n generalizing s with
  | zero => rfl
  | succ n ih =>
    unfold pumpLink
    dsimp only
    split
    · rfl
    · split
      · simp [ih]
      · simp [ih]
@[simp] theorem pending_pump (s : State) (l : Nat) : (pump s l).pending = s.pending := by
  unfold pump
  dsimp only
  split
  · simp
  · split <;> simp
@[simp] theorem pending_sendMsgs (s : State) (l : Nat) (ms : List OutMsg) : (sendMsgs s l ms).pending = s.pending := by
  unfold sendMsgs
  simp
@[simp] theorem pending_sendMsg (s : State) (l : Nat) (header data : List Byte) :
    (sendMsg s l header data).pending = s.pending := by
  unfold sendMsg
  simp
@[simp] theorem pending_sendAbort (s : State) (g epoch : Nat) : (sendAbort s g epoch).pending = s.pending := by
  unfold sendAbort
  simp
@[simp] theorem pending_writeArg (s : State) (f : Nat) (w : Word) (off : Nat) (b : List Byte) :
    (writeArg s f w off b).pending = s.pending := by
  unfold writeArg
  simp
@[simp] theorem pending_writeRecord (s : State) (q : Nat) (r : Record) : (writeRecord s q r).pending = s.pending := by
  unfold writeRecord
  dsimp only
  split <;> simp
@[simp] theorem pending_flushRecords (s : State) (q n : Nat) : (flushRecords s q n).pending = s.pending := by
  induction n generalizing s with
  | zero => rfl
  | succ n ih =>
    unfold flushRecords
    dsimp only
    split
    · simp [ih]
    · rfl
@[simp] theorem pending_flushQueue (s : State) (q : Nat) : (flushQueue s q).pending = s.pending := by
  unfold flushQueue
  simp
@[simp] theorem pending_finishEntry (s : State) (q pos : Nat) (r : Record) : (finishEntry s q pos r).pending = s.pending := by
  unfold finishEntry
  simp
@[simp] theorem pending_bumpOpt (s : State) (f : Option RField) (sec n : Nat) : (bumpOpt s f sec n).pending = s.pending := by
  unfold bumpOpt
  split <;> simp
@[simp] theorem pending_stopSlot (s : State) (k i : Nat) : (stopSlot s k i).pending = s.pending := by
  unfold stopSlot
  simp
@[simp] theorem pending_stopCtxSlots (s : State) (c : Nat) : (stopCtxSlots s c).pending = s.pending := by
  unfold stopCtxSlots
  simp
@[simp] theorem pending_markStopped (s : State) (p : Launch → Bool) : (markStopped s p).pending = s.pending := (rfl)
@[simp] theorem pending_stopQueueLaunches (s : State) (q : Nat) : (stopQueueLaunches s q).pending = s.pending := by
  unfold stopQueueLaunches
  simp
@[simp] theorem pending_stopQueue (s : State) (q : Nat) (hostRecords : Bool) :
    (stopQueue s q hostRecords).pending = s.pending := by
  unfold stopQueue
  simp

end Sys2Proof.Machine
end

section
/-! What waits in the queue of commands stays while a cycle of the reference clock passes: stopped contexts, faults, logs and
publications leave it as it is. -/

namespace Sys2Proof.Machine

@[simp] theorem pending_abandonTallies (s : State) (c : Nat) : (abandonTallies s c).pending = s.pending := by
  unfold abandonTallies
  exact pending_forEach fun _ _ => rfl
@[simp] theorem pending_stopContext (s : State) (c cause : Nat) (abort : Bool) :
    (stopContext s c cause abort).pending = s.pending := by
  unfold stopContext
  dsimp only
  split
  · rfl
  · split
    · split <;> simp
    · simp
@[simp] theorem pending_setFltLast (s : State) (level cause sec unit ctx part : Nat) (poison : Bool) :
    (setFltLast s level cause sec unit ctx part poison).pending = s.pending := by
  unfold setFltLast
  split
  · rfl
  · exact (setRaw_pending _ _ _).trans (setRaw_pending _ _ _)
@[simp] theorem pending_postAborted (s : State) (c epoch : Nat) : (postAborted s c epoch).pending = s.pending := by
  unfold postAborted
  simp
@[simp] theorem pending_abortCtx (s : State) (c epoch : Nat) (abort : Bool) : (abortCtx s c epoch abort).pending = s.pending := by
  unfold abortCtx
  simp
@[simp] theorem pending_enterReset (s : State) (p : Nat) (after : PartMode) : (enterReset s p after).pending = s.pending := (rfl)
@[simp] theorem pending_fenceModule (s : State) (reason : Nat) : (fenceModule s reason).pending = s.pending := by
  unfold fenceModule
  simp
@[simp] theorem pending_escalateCtx (s : State) : (escalateCtx s).pending = s.pending := by
  unfold escalateCtx
  simp
@[simp] theorem pending_ctxFault (s : State) (c cause sec unit : Nat) (poison : Bool) :
    (ctxFault s c cause sec unit poison).pending = s.pending := by
  unfold ctxFault
  simp
@[simp] theorem pending_appendLog (s : State) (c : Nat) (g : Log) (kind source addr len : Nat) (crc : Word32) (tally : Nat) (data : List Byte) :
    (appendLog s c g kind source addr len crc tally data).pending = s.pending := by
  unfold appendLog
  dsimp only
  split <;> simp
@[simp] theorem pending_recordInput (s : State) (c kind source addr : Nat) (data : List Byte) (tally : Nat) :
    (recordInput s c kind source addr data tally).pending = s.pending := by
  unfold recordInput
  split <;> simp
@[simp] theorem pending_dropLive (s : State) (c : Nat) : (dropLive s c).pending = s.pending := (rfl)
@[simp] theorem pending_diverge (s : State) (p seq : Nat) (bits timing : Bool) :
    (diverge s p seq bits timing).pending = s.pending := by
  unfold diverge
  split
  · rfl
  · exact (setRaw_pending _ _ _).trans (setFld_pending _ _ _ _ _)
@[simp] theorem pending_markCompare (s : State) (p : Nat) (g : Log) (m : Mark) (n : Nat) (digest : Word32) :
    (markCompare s p g m n digest).pending = s.pending := by
  unfold markCompare
  dsimp only
  split <;> simp
@[simp] theorem pending_markAdd (s : State) (c : Nat) (m : Mark) : (markAdd s c m).pending = s.pending := by
  unfold markAdd
  dsimp only
  split
  · rfl
  · split
    · simp
    · split <;> split <;> split <;> simp
@[simp] theorem pending_markTally (s : State) (t : Nat) : (markTally s t).pending = s.pending := by
  unfold markTally
  simp
@[simp] theorem pending_endExternal (s : State) (t : Nat) : (endExternal s t).pending = s.pending := by
  unfold endExternal
  simp
@[simp] theorem pending_tallyAddOp (s : State) (t amount : Nat) : (tallyAddOp s t amount).pending = s.pending := by
  unfold tallyAddOp
  simp
@[simp] theorem pending_signalTally (s : State) (t amount : Nat) : (signalTally s t amount).pending = s.pending := by
  unfold signalTally
  simp
@[simp] theorem pending_applyDeltas (s : State) (p : Nat) (l : List (Nat × CounterDelta)) :
    (applyDeltas s p l).pending = s.pending := by
  unfold applyDeltas
  exact pending_forEach fun _ _ => rfl
@[simp] theorem pending_addNf (s : State) (c n : Nat) : (addNf s c n).pending = s.pending := (rfl)
@[simp] theorem pending_putJob (s : State) (kind unit : Nat) (j : Job) : (putJob s kind unit j).pending = s.pending := (rfl)
@[simp] theorem pending_freeEngine (s : State) (kind unit : Nat) : (freeEngine s kind unit).pending = s.pending := (rfl)
@[simp] theorem pending_endFault (s : State) (kind unit : Nat) (j : Job) (cause : Nat) (poison : Bool) :
    (endFault s kind unit j cause poison).pending = s.pending := by
  unfold endFault
  simp
@[simp] theorem pending_sendNotice (s : State) (l g : Nat) : (sendNotice s l g).pending = s.pending := by
  unfold sendNotice
  simp
@[simp] theorem pending_ackMbx (s : State) (f j seq taken rc : Nat) : (ackMbx s f j seq taken rc).pending = s.pending := by
  unfold ackMbx
  dsimp only
  split
  · exact setRaw_pending _ _ _
  · exact (pending_raiseMsix _ _ _).trans (setRaw_pending _ _ _)
@[simp] theorem pending_ackDone (s : State) (f j seq taken rc : Nat) : (ackDone s f j seq taken rc).pending = s.pending := by
  unfold ackDone
  simp
@[simp] theorem pending_postOut (s : State) (f j : Nat) : (postOut s f j).pending = s.pending := by
  unfold postOut
  split
  · rfl
  · split
    · dsimp only
      split <;> simp
    · rfl
@[simp] theorem pending_ackWord (s : State) (f j seq taken rc : Nat) (reply : Option Word) :
    (ackWord s f j seq taken rc reply).pending = s.pending := by
  unfold ackWord
  split <;> simp
@[simp] theorem pending_publish (s : State) (fn : Nat) (via : Via) (taken op : Nat) (mute : Bool) (a : Answer) :
    (publish s fn via taken op mute a).pending = s.pending := by
  unfold publish
  split
  · dsimp only
    split
    · rfl
    · split <;> simp
  · simp
@[simp] theorem pending_quiesceNow (s : State) (c : Nat) : (quiesceNow s c).pending = s.pending := by
  unfold quiesceNow
  exact pending_forEach fun _ _ => rfl
@[simp] theorem pending_publishOne (s : State) (p : PendCmd) (rc result : Nat) :
    (publishOne s p rc result).pending = s.pending := by
  unfold publishOne
  dsimp only
  split <;> simp
@[simp] theorem pending_finishFlr (s : State) (f : Nat) : (finishFlr s f).pending = s.pending := by
  unfold finishFlr
  exact pending_forEach fun _ _ => rfl
@[simp] theorem pending_finishFlrs (s : State) : (finishFlrs s).pending = s.pending := by
  unfold finishFlrs
  simp
@[simp] theorem pending_settle (s : State) : (settle s).pending = s.pending := by
  unfold settle
  refine (pending_finishFlrs _).trans (pending_forEach fun p t => ?_)
  split <;> simp

end Sys2Proof.Machine
end

section
/-! What waits in the queue of commands stays while a cycle of the reference clock passes: collectives leave it as it is. -/

namespace Sys2Proof.Machine

@[simp] theorem pending_iteC (c : Prop) [Decidable c] (a b : CStep) :
    (if c then a else b).s.pending = if c then a.s.pending else b.s.pending :=
  apply_ite (fun a : CStep => a.s.pending) c a b

@[simp] theorem pending_foldlC {α : Type} {l : List α} {g : CStep → α → CStep} {a : CStep}
    (h : ∀ t x, (g t x).s.pending = t.s.pending) : (l.foldl g a).s.pending = a.s.pending := by
  induction l generalizing a with
  | nil => rfl
  | cons x l ih => exact ih.trans (h a x)

@[simp] theorem pending_setStamp (s : State) (p id step : Nat) : (setStamp s p id step).pending = s.pending := by
  unfold setStamp
  simp
@[simp] theorem pending_peerPlace (s : State) : (peerPlace s).1.pending = s.pending := (rfl)
@[simp] theorem pending_collWrite (s : State) (l ctx epoch : Nat) (w : PeerPlace) (skip : Nat) (data : List Byte) (add : Nat) :
    (collWrite s l ctx epoch w skip data add).pending = s.pending := by
  unfold collWrite
  simp
@[simp] theorem pending_routeChunk (s : State) (e : CEnv) (c : StagedChunk) : (routeChunk s e c).pending = s.pending := by
  unfold routeChunk
  dsimp only
  split
  · simp
  · split <;> simp
@[simp] theorem pending_pumpChunks (s : State) (e : CEnv) (l : List StagedChunk) : (pumpChunks s e l).1.pending = s.pending := by
  unfold pumpChunks
  refine pending_foldlFst fun r c => ?_
  dsimp only
  split <;> simp
@[simp] theorem pending_returnSlot (s : State) (e : CEnv) (table peer : Nat) :
    (returnSlot s e table peer).pending = s.pending := by
  unfold returnSlot
  dsimp only
  split
  · simp
  · split <;> simp
@[simp] theorem pending_readSlot (s : State) (x : Comm) (c : StagedSlot) : (readSlot s x c).1.pending = s.pending := by
  unfold readSlot
  simp
@[simp] theorem pending_readSlots (s : State) (x : Comm) (l : List StagedSlot) : (readSlots s x l).1.pending = s.pending := by
  unfold readSlots
  simp
@[simp] theorem pending_takeChunk (s : State) (e : CEnv) (c : StagedSlot) (n : Nat) :
    (takeChunk s e c n).pending = s.pending := by
  unfold takeChunk
  simp
@[simp] theorem pending_checkStamp (s : State) (e : CEnv) (o stamp : Nat) : (checkStamp s e o stamp).pending = s.pending := by
  unfold checkStamp
  simp
@[simp] theorem pending_storeReduced (a : CStep) (e : CEnv) (pos first : Nat) (vs : List Val) (no : Nat) :
    (storeReduced a e pos first vs no).s.pending = a.s.pending := by
  unfold storeReduced
  simp
@[simp] theorem pending_storeMoved (a : CStep) (e : CEnv) (k : CChunk) (pos skip n : Nat) (data : List Byte) :
    (storeMoved a e k pos skip n data).s.pending = a.s.pending := by
  unfold storeMoved
  simp
@[simp] theorem pending_deliver (a : CStep) (e : CEnv) (st : CStage) (k : CChunk) (stamp : Nat) (data : List Byte) :
    (deliver a e st k stamp data).s.pending = a.s.pending := by
  unfold deliver
  dsimp only
  split <;> simp
@[simp] theorem pending_storeWhole (a : CStep) (e : CEnv) (st : CStage) : (storeWhole a e st).s.pending = a.s.pending := by
  unfold storeWhole
  simp
@[simp] theorem pending_sendChunk (a : CStep) (e : CEnv) (st : CStage) (k : CChunk) (stamp phase peer : Nat) (data : List Byte) :
    (sendChunk a e st k stamp phase peer data).s.pending = a.s.pending := (rfl)
@[simp] theorem pending_goDownWith (a : CStep) (e : CEnv) (st : CStage) (k : CChunk) (stamp : Nat) (from_ : List Nat) (data : List Byte) :
    (goDownWith a e st k stamp from_ data).s.pending = a.s.pending := by
  unfold goDownWith
  simp
@[simp] theorem pending_upAction (a : CStep) (e : CEnv) (st : CStage) (k : CChunk) (from_ : List Nat) (child : List StagedChunk) :
    (upAction a e st k from_ child).s.pending = a.s.pending := by
  unfold upAction
  dsimp only
  split <;> simp
/-- The state of a step that gives one. -/
theorem pending_tryUp {a b : CStep} {e : CEnv} {st : CStage} {t : Nat} (h : tryUp a e st t = some b) :
    b.s.pending = a.s.pending := by
  unfold tryUp at h
  split at h
  · cases h
  · dsimp only at h
    split at h
    · cases h
    · split at h <;> cases h <;> simp
theorem pending_tryDown {a b : CStep} {e : CEnv} {st : CStage} {t : Nat} (h : tryDown a e st t = some b) :
    b.s.pending = a.s.pending := by
  unfold tryDown at h
  split at h
  · cases h
  · split at h
    · cases h
    · split at h
      · cases h
      · dsimp only at h
        split at h <;> cases h <;> simp
@[simp] theorem pending_collLoop (e : CEnv) (n : Nat) (a : CStep) : (collLoop e n a).s.pending = a.s.pending := by
  induction n generalizing a with
  | zero => rfl
  | succ n ih =>
    unfold collLoop
    split
    · rfl
    · split
      · rfl
      · split
        · simp [ih]
        · split
          · next b hb =>
            obtain ⟨t, -, ht⟩ := List.exists_of_findSome?_eq_some hb
            rw [ih]
            obtain hu | ⟨-, hd⟩ : tryUp a e _ t = some b ∨ tryUp a e _ t = none ∧ tryDown a e _ t = some b := by simpa using ht
            · exact pending_tryUp hu
            · exact pending_tryDown hd
          · rfl
@[simp] theorem pending_collUnhold (s : State) (sec p : Nat) : (collUnhold s sec p).pending = s.pending := by
  unfold collUnhold
  simp
@[simp] theorem pending_collFault (s : State) (sec : Nat) (j : Job) (cause no : Nat) (poison : Bool) :
    (collFault s sec j cause no poison).pending = s.pending := by
  unfold collFault
  dsimp only
  rw [pending_endFault, pending_addNf, pending_applyDeltas, pending_collUnhold]
  split
  · exact setRaw_pending _ _ _
  · rfl
@[simp] theorem pending_collWait (s : State) (sec : Nat) (e : CEnv) (j : Job) : (collWait s sec e j).pending = s.pending := by
  unfold collWait
  simp
@[simp] theorem pending_collRun (s : State) (sec : Nat) : (collRun s sec).pending = s.pending := by
  unfold collRun
  split
  · split
    · rfl
    · dsimp only
      split
      · simp
      · split <;> simp
  · rfl
@[simp] theorem pending_collProgress (s : State) (sec : Nat) : (collProgress s sec).pending = s.pending := by
  unfold collProgress
  split
  · simp
  · rfl
@[simp] theorem pending_collResume (s : State) : (collResume s).pending = s.pending := by
  unfold collResume
  refine pending_forEach fun n t => ?_
  split <;> simp

end Sys2Proof.Machine
end

section
/-! A step runs the command at the front of the queue on the rest; with none waiting one cycle of the reference clock passes, which
brings none. -/

namespace Sys2Proof.Machine

@[simp] theorem pending_passFrame (k : Nat) (s : State) : (passFrame k s).pending = s.pending := by
  unfold passFrame
  simp
@[simp] theorem pending_advanceWork (s : State) (p n : Nat) : (advanceWork s p n).pending = s.pending := by
  unfold advanceWork
  simp
@[simp] theorem pending_countContention (s : State) (p : Nat) : (countContention s p).pending = s.pending := by
  unfold countContention
  simp
@[simp] theorem pending_coreStalls (s : State) (k : Nat) : (coreStalls s k).pending = s.pending := by
  unfold coreStalls
  simp
@[simp] theorem pending_routeStalls (s : State) (sec : Nat) : (routeStalls s sec).pending = s.pending := by
  unfold routeStalls
  simp
@[simp] theorem pending_sendRefuse (s : State) (l cause : Nat) (h : List Byte) :
    (sendRefuse s l cause h).pending = s.pending := by
  unfold sendRefuse
  simp
@[simp] theorem pending_freeSlots (s : State) (l : Nat) (h d : List Byte) : (freeSlots s l h d).pending = s.pending :=
  ite_holds (P := fun t => t.pending = s.pending) rfl rfl
@[simp] theorem pending_spoilWords (s : State) (l : Nat) (d : MsgDest) (bad : List Nat) :
    (spoilWords s l d bad).pending = s.pending := by
  unfold spoilWords
  simp
@[simp] theorem pending_applyMsg (s : State) (l : Nat) (h data : List Byte) (bad : List Nat) (d : MsgDest) :
    (applyMsg s l h data bad d).pending = s.pending := by
  unfold applyMsg
  dsimp only
  split
  · rfl
  · split <;> simp
/-- The state of a message that is settled or held. -/
def MsgRes.state : MsgRes → State
  | .settled t => t
  | .held t _ => t

@[simp] theorem MsgRes.state_settled (t : State) : (MsgRes.settled t).state = t := (rfl)
@[simp] theorem MsgRes.state_held (t : State) (g : Nat) : (MsgRes.held t g).state = t := (rfl)

@[simp] theorem pending_iteMsg (c : Prop) [Decidable c] (a b : MsgRes) :
    (if c then a else b).state.pending = if c then a.state.pending else b.state.pending :=
  apply_ite (fun a : MsgRes => a.state.pending) c a b

theorem pending_checkMsg (s : State) (l : Nat) (h data : List Byte) (bad : List Nat) :
    (checkMsg s l h data bad).state.pending = s.pending := by
  unfold checkMsg
  dsimp only
  split
  · simp
  · split
    · simp
    · simp
    · next d _ => cases d.block <;> split <;> simp

@[simp] theorem pending_headMsg (s : State) (l : Nat) (h data : List Byte) (bad : List Nat) :
    (headMsg s l h data bad).pending = s.pending := by
  have hm := pending_checkMsg s l h data bad
  unfold headMsg
  split
  · next t e => exact (pending_freeSlots _ _ _ _).trans (by simpa [e] using hm)
  · next t g e => exact (by simpa [e] using hm)
@[simp] theorem pending_drainBehind (s : State) (l n : Nat) : (drainBehind s l n).pending = s.pending := by
  induction n generalizing s with
  | zero => rfl
  | succ n ih =>
    unfold drainBehind
    dsimp only
    split
    · rfl
    · split <;> simp [ih]
@[simp] theorem pending_drainLink (s : State) (l : Nat) : (drainLink s l).pending = s.pending := by
  unfold drainLink
  simp
@[simp] theorem pending_serveLinks (s : State) : (serveLinks s).pending = s.pending := by
  unfold serveLinks
  simp
@[simp] theorem pending_bar2Refuse (s : State) (f off : Nat) (write : Bool) : (bar2Refuse s f off write).pending = s.pending :=
  setRaw_pending _ _ _
@[simp] theorem pending_bar2Out (s : State) (b : List Byte) (ep unsupported : Bool) :
    (bar2Out s b ep unsupported).pending = s.pending := (rfl)
@[simp] theorem pending_portPut (s : State) (e : PortAccess) : (portPut s e).pending = s.pending := (rfl)
@[simp] theorem pending_bar2ReadOp (f off len : Nat) (s : State) : (bar2ReadOp f off len s).pending = s.pending := by
  unfold bar2ReadOp
  split
  · simp
  · split <;> simp
@[simp] theorem pending_bar2WriteOp (f off : Nat) (data : List Byte) (s : State) :
    (bar2WriteOp f off data s).pending = s.pending := by
  unfold bar2WriteOp
  split
  · rfl
  · split
    · simp
    · dsimp only
      split
      · simp
      · split <;> simp
@[simp] theorem pending_servePort (s : State) : (servePort s).pending = s.pending := by
  unfold servePort
  refine pending_forEach fun e t => ?_
  split <;> simp

/-! ### A cycle of the reference clock -/

variable {μ : Nat} {s₀ : State}

theorem within_countContention (s : State) (p : Nat) (hs : Within μ s₀ s) (hm : Sub 1073741832 μ) : Within μ s₀ (countContention s p) :=
  within_ite hs (within_bump _ _ _ _ _ (within_freeDraw s hs (subStep hm (by decide))) (subStep hm (by decide)))

theorem within_routeStalls (s : State) (sec : Nat) (hs : Within μ s₀ s) (hm : Sub 1073741832 μ) : Within μ s₀ (routeStalls s sec) :=
  within_ite hs (within_bump _ _ _ _ _ (within_bump _ _ _ _ _ (within_freeDraw s hs (subStep hm (by decide))) (subStep hm (by decide)))
    (subStep hm (by decide)))

theorem within_coreStalls (s : State) (k : Nat) (hs : Within μ s₀ s) (hm : Sub 1073741832 μ) : Within μ s₀ (coreStalls s k) :=
  within_ite hs (within_bump _ _ _ _ _ (within_bump _ _ _ _ _ (within_freeDraw s hs (subStep hm (by decide))) (subStep hm (by decide)))
    (subStep hm (by decide)))

/-- The module's clocks after one more cycle of the reference clock. -/
def clocked (s : State) : State :=
  { s with module := { s.module with
      timeNs := s.module.timeNs + 10, rootCycles := s.module.rootCycles + rootPerRef (s.fld fClkStatusLevel 0 0) } }

/-- What a cycle passes and counts before the port and the links are served: frame boundaries, work cycles, contention and stalls. -/
def cycled (s : State) : State :=
  let f := s.module.rootCycles / 48
  let t := clocked s
  let u := forEach (upTo (t.module.rootCycles / 48 - f)) t (fun k v => passFrame (f + 1 + k) v)
  let v := forEach (upTo 8) u (fun p v => routeStalls (countContention (advanceWork v p
    (t.module.rootCycles / 4 - s.module.rootCycles / 4)) p) p)
  forEach (v.work.cores.map Prod.fst) v (fun k v => coreStalls v k)

/-- Registers, partitions and the count of free values are all that it changes besides the clocks. -/
theorem within_cycled (s : State) : Within 1073745928 (clocked s) (cycled s) := by
  refine within_forEach (within_forEach (within_forEach (Within.refl _) fun k t ht => ?_) fun p t ht => ?_) fun k t ht => ?_
  · exact within_passFrame _ _ ht (by rfl)
  · exact within_routeStalls _ _ (within_countContention _ _ (within_advanceWork _ _ _ ht (by rfl)) (by rfl)) (by rfl)
  · exact within_coreStalls _ _ ht (by rfl)

@[simp] theorem pending_cycled (s : State) : (cycled s).pending = s.pending := by
  refine (pending_forEach fun k t => ?_).trans ((pending_forEach fun p t => ?_).trans (pending_forEach fun k t => ?_)) <;> simp

theorem tick_of_running (h : (s₀.module.powered && !s₀.module.off && s₀.module.released) = true) :
    tick s₀ = collResume (settle (serveLinks (servePort (cycled s₀)))) := by
  refine (if_neg (by simpa using h)).trans ?_
  dsimp only [cycled, clocked]
  rw [Nat.add_sub_cancel]

theorem tick_of_stopped (h : (s₀.module.powered && !s₀.module.off && s₀.module.released) = false) : tick s₀ = s₀ :=
  if_pos (by revert h; cases s₀.module.powered <;> cases s₀.module.off <;> simp)

/-- Settles O55: every part of a cycle leaves the queue of waiting commands as it is. -/
theorem stepRunsTheFrontCommand : Obligations.StepRunsTheFrontCommand := by
  unfold Obligations.StepRunsTheFrontCommand
  refine ⟨fun c rest s h => ?_, fun s h hr => ?_, fun s h hr => ?_⟩
  · unfold step
    rw [h]
  · have hw := within_cycled s
    have hm : (cycled s).module = (clocked s).module := hw.same .module (by decide)
    refine ⟨cycled s, _, ?_, rfl, ?_, ?_, ?_, ?_, ?_, ?_⟩
    · unfold step
      rw [h, ← tick_of_running hr]
    · simp [h]
    · exact congrArg Module.timeNs hm
    · exact congrArg Module.rootCycles hm
    · exact hw.same .links (by decide)
    · exact hw.same .tensors (by decide)
    · exact mem_same (hw.same .memory (by decide)) (hw.same .cache (by decide))
  · unfold step
    rw [h, tick_of_stopped hr]


end Sys2Proof.Machine
end
